-- ==== Sys2Proof/Word.lean ====
section
/-! DEFINITION. The word types of the block: bytes and the 32-bit register word of R18. -/

namespace Sys2Proof

/-- One byte of memory, of a descriptor or of a message. -/
abbrev Byte := BitVec 8

/-- A register word: every register is 32 bits wide (R18). -/
abbrev Word := BitVec 32

/-- A byte string, the lowest address first. -/
abbrev Bytes := List Byte

end Sys2Proof
end

