-- ==== Sys2Proof/Syntax.lean ====
section
/-! DEFINITION. The commands of the block: one constructor of Instr per row of spec/opcode_table.json, in the table's
order, with the row's operands. What comes from outside the block with an event (data a host read returns, a sensor
reading, the outcome of a check unit, a card's answer) is an operand of the row at which it arrives. -/

namespace Sys2Proof

/-- How an access reaches a register page (R42, R43): at its internal address, through a physical function's BAR0 or
through a virtual function's BAR0; stream is the IDE stream on which a host's request arrives, where it arrives on one (R64). -/
inductive Via where
  | direct
  | pf (link : Nat) (stream : Option Nat := none)
  | vf (inst : Nat) (stream : Option Nat := none)
deriving DecidableEq, Repr

/-- Who makes a register access: world, master class and index of R368, and the view. -/
structure Access where
  sec : Bool
  cls : Nat
  idx : Nat
  via : Via
deriving DecidableEq, Repr

/-- What one Well meets at a boot (R240): whether its known-answer tests pass, and the samples that its sources give, in order; free samples
that meet a source's claim stand for those that are not named. -/
structure WellParts where
  katOk : Bool
  pri : List (BitVec 8)
  alt : List (BitVec 8)
deriving DecidableEq, Repr

/-- One tamper source entering alarm, as its detectors show it (R389, R390): the readings of detectors A and B, for SUPPLY on rail 0 VCORE,
1 VSRAM or 2 VIO. -/
structure Trip where
  src : Nat
  a : Bool
  b : Bool
  reading : Option Int
  rail : Nat := 0
  readingB : Option Int := none
deriving DecidableEq, Repr

/-- What the battery-backed domain reads at one sample (R389): loop resistance in Ω, loop delay in ns, whether the
loop carries the other loop's sequence, pin levels and resistances, lantern input and core rail in mV. -/
structure LanternRead where
  resA : Nat
  resB : Nat
  delayA : Nat
  delayB : Nat
  crossA : Bool
  crossB : Bool
  tinOpen : Nat
  tinOhm : List Nat
  inputMv : Nat
  coreMv : Nat
deriving DecidableEq, Repr

/-- Kinds of interconnect transaction (R369). -/
inductive BusKind where | read | write | fetch | readBack
deriving DecidableEq, Repr

/-- What has changed on its way when a transaction or its read data reaches a checker (R371), each as the bits that differ: the command word,
its code, the data and the data codes; and whether the checker is a target or the access table. -/
structure BusErr where
  target : Bool
  word : Nat
  cmd : Nat
  data : Bytes
  codes : Bytes
deriving DecidableEq, Repr

/-- Whether a master class has a master of an index (R368): harts, channels, links, units and the key store controller, the command
processor, the debug transport, and the device masters. -/
def masterOk (cls idx : Nat) : Bool :=
  match cls with
  | 0 => idx < 16
  | 1 => idx < 32
  | 2 => idx < 2
  | 3 => idx < 29
  | 4 | 5 => idx = 0
  | 6 => idx < 6
  | _ => false

/-- What a transaction of a channel meets (R371): the address at which its codes differ, and what has changed on its way. -/
structure DmaErr where
  at' : Nat
  err : BusErr
deriving DecidableEq, Repr

/-- One interconnect transaction (R369): master and its machine mode, kind, address, length, write data, whether it is posted, what
of it has changed on its way (R371), and the IDE stream of a host's request (R64). The world stands for the event recorder's, the
others carry one of their own (R13, R368). -/
structure Bus where
  sec : Bool
  mach : Bool
  cls : Nat
  idx : Nat
  kind : BusKind
  addr : Nat
  len : Nat
  data : Bytes
  posted : Bool
  badCode : Option BusErr
  hostData : Option Bytes
  stream : Option Nat
deriving DecidableEq, Repr

/-- What is wrong with the lines a read of protected memory touches (R258-R261): symbols in error (1 corrected, 2 not
correctable, more an undetected change), on the data line (level 0) or on the chain's L0 to L3 line (1 to 4), and bits
in error in the counter cache; line names another line that they come over, of LPDDR6 or of the cache. -/
structure LineDamage where
  symbols : Nat
  level : Nat
  ccBits : Nat
  line : Option Nat
deriving DecidableEq, Repr

/-- What is wrong with a home of a vault record as it is read (R151): the bits of its 304 bytes that differ from what was
written, whether the flash error is uncorrectable, and whether the clear header cannot be read. -/
structure HomeDamage where
  flip : Bytes
  flash : Bool
  header : Bool
deriving DecidableEq, Repr

/-- What is wrong with the two homes of a vault record (R151): the one the device selects, and the other. -/
structure VaultDamage where
  sel : HomeDamage
  other : HomeDamage
deriving DecidableEq, Repr

/-- A vault read without damage. -/
def vaultSound : VaultDamage := ⟨⟨[], false, false⟩, ⟨[], false, false⟩⟩

/-- What is wrong with a record of T1 as the key store controller reads it (R139, R145): damage on its lines, which the memory
protection engine meets, and the bits of its 256 bytes that differ when they reach the controller. -/
structure T1Hit where
  recNo : Nat
  line : LineDamage
  flip : Bytes
deriving DecidableEq, Repr

/-- What the parts of the module do at a boot and after it (R333 steps 7 and 9, R335); weak holds how many cells of the anti-rollback
counter fail their write verification at each of the increments that no command of its own brings (R152), wells what the Wells of Q0 to Q3
meet (R240), seals and homes what the transfers of T1 records and the reads of vault homes meet that no command of its own makes, by record
(R139, R151), ofcBad the officer records whose check code fails (R303). -/
structure BootParts where
  lpddrOk : Bool
  mpeOk : Bool
  katBad : List Nat
  weak : List Nat
  wells : List WellParts := []
  seals : List T1Hit := []
  homes : List (Nat × VaultDamage) := []
  ofcBad : List Nat := []
deriving DecidableEq, Repr

/-- The bits of a T0 slot that differ when the engine receives it (R141). -/
structure SlotHit where
  slot : Nat
  flip : Bytes
deriving DecidableEq, Repr

/-- What is wrong with the records and slots that the key store controller reads for a command. -/
structure KeyErr where
  t1 : List T1Hit
  slots : List SlotHit
deriving DecidableEq, Repr

/-- Nothing wrong. -/
def keySound : KeyErr := ⟨[], []⟩

/-- Outcome of the redundant check unit of a lane, cluster or engine (R167, R219): how many attempts mismatch. -/
abbrev CheckFails := Nat

/-- What a host memory read returns (R66): data, or that it failed. -/
abbrev HostData := Option Bytes

/-- The configuration registers of a function that the manual names (R50-R55, R57, R69), and the words of its BAR2/3 by their offset,
with the IDE stream of the request (R53, R64). -/
inductive CfgReg where
  | vendorId | deviceId | vfDeviceId | revisionId | classCode | subsystemVendor | subsystemId
  | barLow (n : Nat)
  | totalVfs | initialVfs | firstVfOffset | vfStride | supportedPageSizes | systemPageSize
  | ariHierarchy | relaxedOrdering | errSeverityFatal | aerStatus
  | serialLow | serialHigh
  | maxPayload | maxReadRequest
  | aspmL1
  | bar2Word (off : Nat) (stream : Option Nat)
deriving DecidableEq, Repr

/-- A request to the SPDM responder, in or outside a session (R58-R62), or to DOE Discovery; badRecord is a message of a session whose
AES-256-GCM tag does not match. -/
inductive SpdmReq where
  | discovery (index : Nat)
  | getVersion
  | getCapabilities (version : Nat) (size : Nat := 0)
  | negotiate (p384 sha384 secp384 aes256 : Bool)
  | getDigests
  | getCertificate (slot off len : Nat)
  | challenge (slot : Nat) (nonce : Bytes)
  | getMeasurements (index : Nat) (sign : Bool) (nonce : Bytes)
  | keyExchange (slot : Nat) (pub : Bytes)
  | finish (session : Nat) (ok : Bool)
  | heartbeat (session : Nat)
  | keyUpdate (session : Nat)
  | endSession (session : Nat)
  | ideKeyProg (session stream : Nat) (key : Bytes)
  | ideSetGo (session stream ridLo ridHi : Nat) (blocks : List (Nat × Nat))
  | ideSetStop (session stream : Nat)
  | ideQuery (session : Nat)
  | badRecord (session : Nat)
  | encapsulated (session : Nat) (cert : Bytes)
  | chunkPart (handle seq : Nat)
  | chunkLast (handle seq : Nat) (req : SpdmReq)
  | chunkGet (handle seq : Nat)
  | psk
  | unknown (code : Nat)
deriving DecidableEq, Repr

/-- A request over SMBus (R72): Set Endpoint ID, PLDM event configuration, a sensor read, or anything else. -/
inductive SmbReq where
  | setEid (eid : Nat)
  | eventConfig (on : Bool)
  | sensor (id : Nat) (val : Int)
  | other
deriving DecidableEq, Repr

/-- A request as it comes over SMBus: the 7-bit address, and the request. -/
structure SmbMsg where
  addr : Nat
  req : SmbReq
deriving DecidableEq, Repr

/-- Where a link stands after training (R47, R75). -/
structure LinkInfo where
  width : Nat
  speed : Nat
  flit : Bool
deriving DecidableEq, Repr

/-- What the egress fence is asked to release: the result of a command, or the oldest record handed to it. -/
inductive Held where
  | cmd (tag : Nat)
  | record
deriving DecidableEq, Repr

/-- What an officer card answers (R316-R320). -/
inductive CardAnswer where
  /-- GET_IDENTITY: algorithm and public key -/
  | identity (alg : Nat) (pk : Bytes)
  /-- SIGN or AUTH: a signature -/
  | signature (sig : Bytes)
  /-- a status word and no data: all there is of the answers to SELECT and VERIFY, and a refusal of the others -/
  | status (sw : Nat)
  /-- the response to an S(IFS request): the size it grants -/
  | ifs (n : Nat)
deriving DecidableEq, Repr

/-- The commands, in the order of spec/opcode_table.json. An operand with a default says what goes wrong outside the command, or how far it
comes, and the default says that nothing does and that it comes to its end. -/
inductive Instr where
  -- power, boot and host attachment
  | coldReset (parts : BootParts)
  | loaderHandshake (a : Access) (image : HostData)
  | romTransitionService (a : Access) (req : HostData)
  | holdupDetect (p12vMv : Nat) (pwrFail : Bool) (reach : Nat)
  | lanternPowerLoss
  | lanternSupplyChange (p12vMv auxMv vbatMv cellMv : Nat) (pwrFail : Bool)
  | hostReset
  | linkTraining (link : Nat)
  | linkUp (link : Nat) (info : LinkInfo)
  | linkDown (link : Nat)
  | usb4Attach (rate80 : Bool) (retrains : Nat)
  | usb4Detach
  | functionLevelReset (link : Nat) (vf : Option Nat)
  | vfEnableChange (link : Nat) (enable : Bool) (numVfs : Nat)
  | configRequest (link : Nat) (fn : Nat) (write : Bool) (reg : CfgReg) (val : Nat)
  | ideCheckFail (link : Nat) (stream : Nat)
  | doeRequest (link : Nat) (req : SpdmReq)
  | doeAbort (link : Nat)
  | spdmRequest
  | smbusRequest (msg : SmbMsg)
  | alertResponseRead
  | msixUnmask (link : Nat) (fn : Nat) (vec : Nat) (stream : Option Nat := none)
  -- register pages
  | registerWrite (a : Access) (page off size val : Nat)
  | softReset (a : Access) (page : Nat)
  | softResetComplete (page : Nat)
  | pgPwrRequest (a : Access) (page val : Nat)
  | unitPowerDrained (page : Nat)
  | cmdEnable (a : Access)
  | mpeEnable (a : Access)
  | htEnable (a : Access)
  | instEnable (a : Access) (inst : Nat)
  -- queues
  | sqEnable (a : Access) (inst q val : Nat)
  | sqDisable (a : Access) (inst q val : Nat)
  | cqEnable (a : Access) (inst q val : Nat)
  | cqDisable (a : Access) (inst q val : Nat)
  | sqTailDoorbell (inst q val : Nat) (stream : Option Nat := none)
  | cqHeadDoorbell (inst q val : Nat) (stream : Option Nat := none)
  | descriptorFetch (inst q : Nat)
  | descriptorParse (tag : Nat)
  | policyCheck (tag : Nat) (err : KeyErr := keySound)
  | routedEntryWrite (tag : Nat)
  | routedCompletion (a : Access) (tail : Nat)
  | routedTimeout (tag : Nat)
  -- key store
  | keyFetch (tag : Nat) (err : KeyErr)
  | t0Load (tag : Nat) (err : KeyErr := keySound)
  | t2DemandLoad (tag : Nat) (dmg : VaultDamage)
  | vaultRestoreRecord (dmg : VaultDamage)
  | vaultBatchClose
  | vaultBatchCommit (cellFails : Nat) (steps : Nat := 3) (err : List T1Hit := [])
  | usagePeriodDue (rec : Nat)
  | usageResvRaise (rec : Nat)
  | nonceResvRaise (rec : Nat)
  | vaultEpochErase
  | derivedKeyFree (rec : Nat)
  | egressRelease (what : Held)
  | cqCoalTimeout (inst q : Nat)
  | workRingTake (cls idx : Nat)
  | xtsDataUnit (tag : Nat) (lane : Nat) (chk : CheckFails := 0) (err : KeyErr := keySound)
  -- key commands
  | keyGenerateSym (tag : Nat)
  | keyGeneratePair (tag : Nat) (chk : CheckFails)
  | keyImportWrapped (tag : Nat)
  | keyImportX9143 (tag : Nat)
  | keyExportWrapped (tag : Nat)
  | keyExportX9143 (tag : Nat)
  | keyDerive (tag : Nat)
  | keyDestroy (tag : Nat)
  | keyGetAttr (tag : Nat)
  | keySetAttr (tag : Nat)
  | keyList (tag : Nat)
  | keyGrant (tag : Nat)
  | keyRevokeGrant (tag : Nat)
  | keyBackupExport (tag : Nat)
  | keyRestore (tag : Nat)
  | keyImportClear (tag : Nat)
  | keyPublicExport (tag : Nat) (chk : CheckFails := 0)
  | quorumChallenge (tag : Nat)
  -- symmetric
  | aesEcb (tag : Nat) (chk : CheckFails)
  | aesCbc (tag : Nat) (chk : CheckFails)
  | aesCtr (tag : Nat) (chk : CheckFails)
  | aesGcm (tag : Nat) (chk : CheckFails)
  | aesCcm (tag : Nat) (chk : CheckFails)
  | aesXts (tag : Nat) (chk : CheckFails)
  | tdesEcb (tag : Nat) (chk : CheckFails)
  | tdesCbc (tag : Nat) (chk : CheckFails)
  | ctxSave (tag : Nat) (chk : CheckFails := 0)
  | ctxRestore (tag : Nat) (chk : CheckFails := 0)
  -- public key
  | ecdsaSign (tag : Nat) (chk : CheckFails)
  | ecdsaVerify (tag : Nat) (chk : CheckFails := 0)
  | eddsaSign (tag : Nat) (chk : CheckFails)
  | eddsaVerify (tag : Nat) (chk : CheckFails := 0)
  | ecdhAgree (tag : Nat) (chk : CheckFails)
  | rsaPrivate (tag : Nat) (chk : CheckFails)
  | rsaPublic (tag : Nat) (chk : CheckFails := 0)
  | mlkemEncap (tag : Nat) (chk : CheckFails)
  | mlkemDecap (tag : Nat) (chk : CheckFails)
  | mldsaSign (tag : Nat) (chk : CheckFails)
  | mldsaVerify (tag : Nat) (chk : CheckFails := 0)
  | slhdsaSign (tag : Nat) (chk : CheckFails)
  | slhdsaVerify (tag : Nat) (chk : CheckFails := 0)
  | hbsVerify (tag : Nat) (chk : CheckFails := 0)
  | imageVerify (tag : Nat) (chk : CheckFails := 0)
  -- hash, derivation, payment, access codes
  | hash (tag : Nat) (chk : CheckFails)
  | shake (tag : Nat) (chk : CheckFails)
  | hmac (tag : Nat) (chk : CheckFails)
  | cmac (tag : Nat) (chk : CheckFails)
  | gmac (tag : Nat) (chk : CheckFails)
  | macVerify (tag : Nat) (chk : CheckFails)
  | hkdf (tag : Nat) (chk : CheckFails := 0)
  | kdfCtr (tag : Nat) (chk : CheckFails := 0)
  | tls13KeySchedule (tag : Nat) (chk : CheckFails := 0)
  | randomBytes (tag : Nat)
  | entropyStatus (tag : Nat)
  | dukptDerive (tag : Nat) (chk : CheckFails := 0)
  | pinTranslate (tag : Nat) (chk : CheckFails := 0)
  | pinVerify (tag : Nat) (chk : CheckFails := 0)
  | cvvGenerate (tag : Nat) (chk : CheckFails := 0)
  | cvvVerify (tag : Nat) (chk : CheckFails := 0)
  | dataTranslate (tag : Nat) (chk : CheckFails)
  | ff1Encrypt (tag : Nat) (chk : CheckFails := 0)
  | ff1Decrypt (tag : Nat) (chk : CheckFails := 0)
  | tokenTranslate (tag : Nat) (chk : CheckFails := 0)
  | hotpGenerate (tag : Nat) (chk : CheckFails := 0)
  | hotpVerify (tag : Nat) (chk : CheckFails := 0)
  | totpGenerate (tag : Nat) (chk : CheckFails := 0)
  | totpVerify (tag : Nat) (chk : CheckFails := 0)
  | lockerTokenSign (tag : Nat) (chk : CheckFails := 0)
  | pickupCodeIssue (tag : Nat) (chk : CheckFails := 0)
  | pickupCodeVerify (tag : Nat) (chk : CheckFails := 0)
  | firmwareRoutedOpcode (tag : Nat)
  -- job ports and key store operations
  | symJobGo (a : Access) (lane val : Nat) (chk : CheckFails) (err : KeyErr := keySound)
  | hashJobGo (a : Access) (cluster val : Nat) (chk : CheckFails) (err : KeyErr := keySound)
  | pkeJobGo (a : Access) (engine val : Nat) (chk : CheckFails) (err : KeyErr := keySound)
  | jobDone (cls idx : Nat) (chk : CheckFails := 0) (err : KeyErr := keySound)
  | genRoot (a : Access) (steps : Nat := 5)
  | vaultSync (a : Access)
  | t0Flush (a : Access)
  -- interconnect and protected memory
  | interconnectTransaction (b : Bus)
  | targetResetRetry (tag : Nat)
  | protectedRead (b : Bus) (dmg : LineDamage)
  | protectedWrite (b : Bus) (tag : Option Nat)
  | writeBufferDrain
  | epochClose
  | patrolScrub (dmg : LineDamage)
  -- entropy
  | wellStart (q : Nat) (katOk : Bool)
  | startupTestDone (q : Nat) (alternate : Bool) (samples : Bytes)
  | continuousTestFail (q : Nat) (alternate : Bool) (samples : Bytes)
  | sourceRetest (q : Nat) (alternate : Bool)
  | returnToPrimary (q : Nat)
  | conditionedBlock (q : Nat) (samples : Bytes)
  | drbgReseed (d : Nat)
  | drbgGenerate (d : Nat)
  | hwRandomRead (q : Nat) (n : Nat)
  | drbgSwDataRead (a : Access)
  | entEmptyClear (a : Access)
  | rawCapture (a : Access) (q : Nat) (val : Nat)
  | capDone (q : Nat) (samples : Bytes)
  | patternSubstitution (a : Access) (q : Nat) (val : Nat)
  -- monitor calls
  | stileIdent (h : Nat)
  | stileHas (h fid : Nat)
  | unknownCall (h fid : Nat)
  | hartWake (h mask entry arg world : Nat)
  | hartRetire (h a0 : Nat)
  | hartQuery (h : Nat)
  | modeRequest (h code : Nat)
  | deviceRestart (h a0 : Nat) (parts : BootParts)
  | fwInfo (h : Nat)
  | fwStage (h addr len : Nat) (flashOk : Bool)
  | fwConfirm (h : Nat)
  | fwCommitSvn (h : Nat) (fuseOk : Bool)
  | fwKeyAdd (h addr : Nat) (fuseOk : Bool)
  | fwKeyRevoke (h row : Nat)
  | worldSwitch (h a1 a2 a3 : Nat) (ctx : List Nat)
  | nsEntry (h mask entry arg : Nat)
  | hostcfgSet (h addr : Nat)
  | debugNonce (h addr : Nat)
  | debugCert (h addr len : Nat)
  | secureIrqSwitch (h : Nat) (ctx : List Nat)
  | watchdogKick (h : Nat)
  | watchdogTrip (h : Nat)
  | doubleTrap (h : Nat)
  | faultArrival
  | faultHandlingDone (cls : Nat)
  -- interrupts, DMA, GPIO
  | irqcClaim (a : Access) (core : Nat)
  | irqcComplete (a : Access) (core id : Nat)
  | irqcSwiSet (a : Access) (id : Nat)
  | gpioInputEdge (levels : Nat)
  | monitorSource (src : Nat)
  | dmaStart (a : Access) (ch val : Nat) (host : List HostData) (badAt : Option DmaErr)
  | dmaAbort (a : Access) (ch val : Nat)
  | dmaReadbackDone (ch : Nat) (host : List HostData) (badAt : Option DmaErr)
  | gpioWrite (a : Access) (off val : Nat)
  | gpioWorldWrite (a : Access) (val : Nat)
  -- manager
  | assign (a : Access) (sel param : Nat)
  | setQuota (a : Access) (sel param : Nat)
  | quiesce (a : Access) (sel : Nat)
  | quiesceDrained (inst : Nat)
  | resume (a : Access) (sel : Nat)
  | freeze (a : Access) (sel : Nat)
  | freezeDone (inst : Nat)
  | thaw (a : Access) (sel : Nat)
  | reset (a : Access) (sel : Nat)
  | remove (a : Access) (sel : Nat)
  | discard (a : Access) (sel : Nat)
  | xportOffer (a : Access) (sel param : Nat)
  | xportAccept (a : Access) (sel param : Nat) (input : HostData)
  | xportComplete (a : Access) (sel param : Nat) (input : HostData)
  | mgrExport (a : Access) (sel param : Nat) (input : HostData)
  | mgrImport (a : Access) (sel param : Nat) (input : HostData) (again : Option HostData := none)
  | xportClose (a : Access) (param : Nat)
  | xportSessionExpire (id : Nat)
  | mgrMbSend (a : Access) (val : Nat)
  | mgrMbEmpty (a : Access) (val : Nat)
  | instMbSend (a : Access) (inst val : Nat)
  | instMbEmpty (a : Access) (inst val : Nat)
  | mgrEventRead (a : Access)
  -- officers
  | enrol (a : Access) (val : Nat)
  | revoke (a : Access) (val : Nat)
  | setClass (a : Access) (val : Nat)
  | setInstClass (a : Access) (val : Nat)
  | unlock (a : Access) (val : Nat)
  | cerEnter (a : Access) (val : Nat)
  | ceremonyEntered
  | cerExit (a : Access) (val : Nat)
  | cerTimeout
  | challenge (a : Access) (val : Nat)
  | pin (a : Access) (val : Nat)
  | challengeExpire (id : Nat)
  | cardInsert (slot : Nat) (atr : Option Bytes)
  | cardRemove (slot : Nat)
  | cardFault (slot : Nat)
  | cardResponse (slot : Nat) (ans : CardAnswer)
  | lockoutExpire (officer : Nat)
  -- life cycle, debug, recorder
  | transition (a : Access) (val : Nat)
  | tokenSet (a : Access) (val : Nat)
  | lcProgrammingDone
  | clearGrant (a : Access)
  | debugHaltRequest (h : Nat)
  | debugAccess (write : Bool) (addr size val : Nat) (err : Option BusErr := none)
  | evrWriteGo (a : Access) (val : Nat)
  | evrClearGo (a : Access) (val : Nat)
  | evrRdNext (a : Access)
  | evrRdPrev (a : Access)
  | evrCursorSet (a : Access) (val : Nat)
  | eventBufferWrite
  -- tamper
  | tamperAlarm (trips : List Trip)
  | lanternSample (r : LanternRead)
  | tripHoldEnd (src : Nat)
  | monfault (src : Nat)
  | throttleEnd
  | tamperFuseReq (a : Access) (mask : Nat)
  | loopArm (a : Access) (val : Nat) (refA refB : Nat)
  -- power
  | quarterPowerRequest (a : Access) (val : Nat)
  | quarterPowerDrained (q : Nat)
  | drowseWake (src : Nat)
  | wakeTimer
  | bankMeasurement
  | measDone (capUf esrMohm : Nat)
  | holdStale
  | wearDailyUpdate (used : List Nat)
  | lockLost (pll : Nat)
  | lineVerificationDone (n : Nat)
  | hostReadCompletion (tag : Nat) (data : HostData)
  | atrTimeout (slot : Nat)
  | bankCharged (mv : Nat)
  | tamperAlarmEnd (src : Nat)
  | ceHourEnd
  | resetWindowExpiry
deriving DecidableEq, Repr

end Sys2Proof
end

