-- ==== Sys2Proof/Config.lean ====
section
/-! DEFINITION. What one part fixes for itself and what the spec leaves open: constants without a body, so that no
proof can see a value of them. -/

namespace Sys2Proof

/-- The n-th byte of the part's fuse secret (R138); each part has its own. -/
opaque Config.fuseSecretByte : Nat → Byte

/-- What fixes the n-th character of the module's serial number, past the first two (R500); each module has its own. -/
opaque Config.serialByte : Nat → Byte

/-- The n-th free value drawn where the spec states no value. -/
opaque Config.freeNat : Nat → Nat

/-- Byte k of the token digest that manufacture programmed into row r, 0-3 (R2, R414); each part has its own. -/
opaque Config.tokenRowByte : Nat → Nat → Byte

/-- The n-th sample byte that a noise source delivers where no command carries the samples (R226); physical. -/
opaque Config.noiseByte : Nat → Byte

/-- The byte of the boot ROM at an address (R14); the spec does not give the ROM's code. -/
opaque Config.romByte : Nat → Byte

/-- The symbol code over the stored bytes and the MAC of a line (R248): the spec gives what it corrects and detects, and not the code. -/
opaque Config.symbolCode : Bytes → Nat → Nat

/-- What fixes the length of a generic secret that an opcode generates or derives: the spec gives 16 to 128 bytes (R115)
and states no length (R131, R132, R182). -/
opaque Config.secretLenSeed : Nat → Nat

/-- The private scalar of the SPDM leaf key that the fuse secret, the firmware measurement and the taint bit, in this
order, derive (R60); the spec does not give the derivation. -/
opaque Config.leafScalar : Bytes → Nat

/-- The public key of the leaf of a certificate chain that verifies to the root of a digest, and nothing for one that does not (R60, R292); the
spec gives neither the certificates nor the root. -/
opaque Config.chainKey : Bytes → Bytes → Bytes

/-- Byte k of the digest of the Eloatan root that the boot ROM holds (R292). -/
opaque Config.rootDigestByte : Nat → Byte

/-- Byte k of the digest of the Eloatan manufacturing key that the boot ROM holds (R338). -/
opaque Config.mfgKeyByte : Nat → Byte

/-- Byte k of the digest of the Eloatan debug authority's key that the boot ROM holds (R423). -/
opaque Config.dbgKeyByte : Nat → Byte

/-- Byte k of the Eloatan certificate chain of slot 0 whose leaf key has a given private scalar, and the chain's length (R60); the spec
gives no certificate. -/
opaque Config.chainByte : Nat → Nat → Byte
opaque Config.chainLen : Nat → Nat

/-- Byte k of measurement block 1, the boot ROM's digest and version (R61); the spec does not give the ROM. -/
opaque Config.romMeasByte : Nat → Byte

/-- Byte k of the key under which SEAL is computed while no root secret exists (R138, R139); the spec gives none. -/
opaque Config.sealByte : Nat → Byte

/-- Contents of the padding block of an exported key block (R136); the spec states none. -/
opaque Config.padBlockByte : Nat → Byte

/-- Byte i of what AES_CCM gives for a message longer than its length field can say, where SP 800-38C has no result: the direction, the key,
nonce, associated data and input decide; the tag follows the message (R170). -/
opaque Config.ccmLong : Bool → Bytes → Bytes → Bytes → Bytes → Nat → Byte

/-- EXPIRES where the time-stamp and the lifetime add up to more than its 48 bits (R112); the spec states no result. -/
opaque Config.expiresOver : Nat → Nat

/-- The counter value of an access-code job with the ROM key at an address, which draws none from a record (R198); the spec states none. -/
opaque Config.romCounter : Nat → Nat

/-- The blocks that a unit counts for an opcode, a SRC_LEN and an AUX_LEN where the cipher or hash passes are its own affair (R197). -/
opaque Config.passBlocks : Nat → Nat → Nat → Nat

/-- What the boot ROM's known-answer jobs leave on the page of unit n of class 3: its 64-bit counter (register 0x048), the bytes drawn
(0x078), and the result registers of the last job (R335); the spec does not give the jobs. -/
opaque Config.katReg : Nat → Nat → Nat

/-- Whether an idle USB4 link, or a PCIe link with ASPM, has gone to a low-power state at a time in DROWSE: the manual permits it (R68, R70). -/
opaque Config.linkIdle : Nat → Bool

/-- The owner chain that firmware has installed in slot 1 when it runs in boot n (R60): the manual gives no command that installs it. -/
opaque Config.ownerChain : Nat → Option Bytes

/-- The bytes that the responder signs in its answer at a time on a link: the transcript of DSP0274, which the manual does not give (R59). -/
opaque Config.spdmTranscript : Nat → Nat → Bytes

/-- Whether the responder asks for mutual authentication in a key exchange of a link at a time (R59): a free value. -/
opaque Config.spdmMutual : Nat → Nat → Bool

end Sys2Proof
end

