-- ==== Sys2Proof/Machine/Bits.lean ====
section
/-! DEFINITION. Bit-field, saturation and byte-order helpers used by every register and message layout. -/

namespace Sys2Proof.Machine

/-- The field [hi:lo] of a number (bit ranges are written msb first, R-notation of the scope chapter). -/
def bits (v hi lo : Nat) : Nat := v / 2 ^ lo % 2 ^ (hi + 1 - lo)

/-- Bit n of a number. -/
def bit (v n : Nat) : Bool := bits v n n == 1

/-- The number with the field [hi:lo] replaced. -/
def setBits (v hi lo x : Nat) : Nat :=
  v - bits v hi lo * 2 ^ lo + x % 2 ^ (hi + 1 - lo) * 2 ^ lo

/-- The number with bit n set or cleared. -/
def setBit (v n : Nat) (b : Bool) : Nat := setBits v n n b.toNat

/-- Saturating addition at a counter's largest value. -/
def satAdd (top a b : Nat) : Nat := if top ≤ a + b then top else a + b

/-- Truth value as a bit. -/
def b2n (b : Bool) : Nat := b.toNat

/-- The n bytes of a number, least significant first. -/
def leBytes : Nat → Nat → Bytes
  | 0, _ => []
  | n + 1, v => BitVec.ofNat 8 v :: leBytes n (v / 256)

/-- The number whose bytes are given, least significant first. -/
def leNat : Bytes → Nat
  | [] => 0
  | b :: t => b.toNat + 256 * leNat t

/-- The n bytes of a number, most significant first. -/
def beBytes (n v : Nat) : Bytes := (leBytes n v).reverse

/-- The number whose bytes are given, most significant first. -/
def beNat (bs : Bytes) : Nat := bs.foldl (fun a b => a * 256 + b.toNat) 0

/-- n zero bytes. -/
def zeros (n : Nat) : Bytes := List.replicate n 0

/-- Bytes [off, off+n) of a string, zero beyond its end. -/
def slice (bs : Bytes) (off n : Nat) : Bytes :=
  let t := (bs.drop off).take n
  t ++ zeros (n - t.length)

/-- The little-endian number at an offset. -/
def leAt (bs : Bytes) (off n : Nat) : Nat := leNat (slice bs off n)

/-- The string padded with zeros, or cut, to n bytes. -/
def fitTo (n : Nat) (bs : Bytes) : Bytes := slice bs 0 n

/-- Byte-wise exclusive or, as long as the shorter string. -/
def xorBytes : Bytes → Bytes → Bytes
  | a :: s, b :: t => (a ^^^ b) :: xorBytes s t
  | _, _ => []

/-- Cuts a string into blocks of n bytes, the last perhaps shorter; fuel bounds the number of blocks. -/
def chunksGo (n : Nat) : Nat → Bytes → List Bytes
  | 0, _ => []
  | f + 1, bs => if bs.isEmpty then [] else bs.take n :: chunksGo n f (bs.drop n)

/-- Cuts a string into blocks of n bytes. -/
def chunks (n : Nat) (bs : Bytes) : List Bytes := chunksGo n (bs.length + 1) bs

/-- Round up to a multiple. -/
def alignUp (a n : Nat) : Nat := (a + n - 1) / n * n

/-- The bytes of an ASCII text. -/
def ascii (t : String) : Bytes := t.toList.map (fun c => BitVec.ofNat 8 c.toNat)

/-- Number of set bits among the low n bits. -/
def popCount : Nat → Nat → Nat
  | 0, _ => 0
  | n + 1, v => v % 2 + popCount n (v / 2)

/-- The first number below n, counting up, that satisfies a test. -/
def firstBelow (n : Nat) (p : Nat → Bool) : Option Nat := (List.range n).find? p

end Sys2Proof.Machine
end

