-- ==== Sys2Proof/Machine/Regs.lean ====
section
/-! DEFINITION. The register fields of every block page, written from the register tables of spec/ (each docstring
names the rule of the table), the layout of each page kind, and the page allocation of R41 and R502. Reserved bits are
left out: they read zero and ignore writes (R18). -/

namespace Sys2Proof.Machine

/-- Field classes (R33-R36): static, job-boundary, live. -/
inductive Cls where | S | J | L
deriving DecidableEq, Repr

/-- Access types (R37). -/
inductive Acc where | ro | rw | rw1c | rw1s | wo | rwl
deriving DecidableEq, Repr

/-- One register field: register offset within its page, bits [hi:lo], class, access type and reset value.
Where n is above 1 the field stands in n registers, stride bytes apart. -/
structure Fld where
  off : Nat
  hi : Nat
  lo : Nat
  cls : Cls
  acc : Acc
  rst : Nat
  n : Nat := 1
  stride : Nat := 4
deriving DecidableEq, Repr

/-- The k-th of the registers in which a field stands. -/
def fldAt (f : Fld) (k : Nat) : Fld := { f with off := f.off + k * f.stride, n := 1 }

/-- HOST_CFG.VF_SPLIT (R75): Instances assigned to link A, 0–1,024 -/
def Reg.HOST_CFG_VF_SPLIT : Fld := ⟨0x040, 27, 16, .J, .rwl, 0x400, 1, 4⟩
/-- HOST_CFG.IDE_REQ (R75): 1: R64 applies -/
def Reg.HOST_CFG_IDE_REQ : Fld := ⟨0x040, 12, 12, .J, .rwl, 0x0, 1, 4⟩
/-- HOST_CFG.OBW_LINK (R75): Outbound window link: 0 A, 1 B -/
def Reg.HOST_CFG_OBW_LINK : Fld := ⟨0x040, 8, 8, .J, .rwl, 0x0, 1, 4⟩
/-- HOST_CFG.MGR_LINK (R75): Manager link: 0 A, 1 B -/
def Reg.HOST_CFG_MGR_LINK : Fld := ⟨0x040, 4, 4, .J, .rwl, 0x0, 1, 4⟩
/-- HOST_CFG.PORT_MODE (R75): Per R47 -/
def Reg.HOST_CFG_PORT_MODE : Fld := ⟨0x040, 1, 0, .J, .rwl, 0x0, 1, 4⟩
/-- HOST_LINK_A.USB4 (R75): 1: link carried over USB4 -/
def Reg.HOST_LINK_A_USB4 : Fld := ⟨0x044, 16, 16, .L, .ro, 0x0, 1, 4⟩
/-- HOST_LINK_B.USB4 (R75): 1: link carried over USB4 -/
def Reg.HOST_LINK_B_USB4 : Fld := ⟨0x048, 16, 16, .L, .ro, 0x0, 1, 4⟩
/-- HOST_LINK_A.UP (R75): 1: link trained -/
def Reg.HOST_LINK_A_UP : Fld := ⟨0x044, 15, 15, .L, .ro, 0x0, 1, 4⟩
/-- HOST_LINK_B.UP (R75): 1: link trained -/
def Reg.HOST_LINK_B_UP : Fld := ⟨0x048, 15, 15, .L, .ro, 0x0, 1, 4⟩
/-- HOST_LINK_A.FLIT (R75): 1: FLIT mode -/
def Reg.HOST_LINK_A_FLIT : Fld := ⟨0x044, 14, 14, .L, .ro, 0x0, 1, 4⟩
/-- HOST_LINK_B.FLIT (R75): 1: FLIT mode -/
def Reg.HOST_LINK_B_FLIT : Fld := ⟨0x048, 14, 14, .L, .ro, 0x0, 1, 4⟩
/-- HOST_LINK_A.WIDTH (R75): Lanes: 1, 2, 4, 8 or 16; 0 when down or over USB4 -/
def Reg.HOST_LINK_A_WIDTH : Fld := ⟨0x044, 13, 8, .L, .ro, 0x0, 1, 4⟩
/-- HOST_LINK_B.WIDTH (R75): Lanes: 1, 2, 4, 8 or 16; 0 when down or over USB4 -/
def Reg.HOST_LINK_B_WIDTH : Fld := ⟨0x048, 13, 8, .L, .ro, 0x0, 1, 4⟩
/-- HOST_LINK_A.SPEED (R75): 1 to 6: 2.5, 5, 8, 16, 32, 64 GT/s; 0 when down or over USB4 -/
def Reg.HOST_LINK_A_SPEED : Fld := ⟨0x044, 7, 4, .L, .ro, 0x0, 1, 4⟩
/-- HOST_LINK_B.SPEED (R75): 1 to 6: 2.5, 5, 8, 16, 32, 64 GT/s; 0 when down or over USB4 -/
def Reg.HOST_LINK_B_SPEED : Fld := ⟨0x048, 7, 4, .L, .ro, 0x0, 1, 4⟩
/-- HOST_OBW_BASE_LO.BASE_LO (R75): HOST_OBW_BASE [31:30] -/
def Reg.HOST_OBW_BASE_LO_BASE_LO : Fld := ⟨0x04C, 31, 30, .J, .rwl, 0x0, 1, 4⟩
/-- HOST_OBW_BASE_HI.BASE_HI (R75): HOST_OBW_BASE [63:32] -/
def Reg.HOST_OBW_BASE_HI_BASE_HI : Fld := ⟨0x050, 31, 0, .J, .rwl, 0x0, 1, 4⟩
/-- HOST_IDE_STAT.LINK_B (R75): 1: link stream of B Secure -/
def Reg.HOST_IDE_STAT_LINK_B : Fld := ⟨0x054, 7, 7, .L, .ro, 0x0, 1, 4⟩
/-- HOST_IDE_STAT.SEL_B (R75): Secure selective streams on B, 0–4 -/
def Reg.HOST_IDE_STAT_SEL_B : Fld := ⟨0x054, 6, 4, .L, .ro, 0x0, 1, 4⟩
/-- HOST_IDE_STAT.LINK_A (R75): 1: link stream of A Secure -/
def Reg.HOST_IDE_STAT_LINK_A : Fld := ⟨0x054, 3, 3, .L, .ro, 0x0, 1, 4⟩
/-- HOST_IDE_STAT.SEL_A (R75): Secure selective streams on A, 0–4 -/
def Reg.HOST_IDE_STAT_SEL_A : Fld := ⟨0x054, 2, 0, .L, .ro, 0x0, 1, 4⟩
/-- HOST_DROP_CNT.DROPS (R75): Commands whose host outputs were discarded under R66; saturates; cleared at cold reset -/
def Reg.HOST_DROP_CNT_DROPS : Fld := ⟨0x058, 31, 0, .L, .ro, 0x0, 1, 4⟩
/-- HOST_RESET_CNT.FLR (R75): Function-level resets; saturates -/
def Reg.HOST_RESET_CNT_FLR : Fld := ⟨0x05C, 31, 16, .L, .ro, 0x0, 1, 4⟩
/-- HOST_RESET_CNT.LINK (R75): Link resets and detaches; saturates -/
def Reg.HOST_RESET_CNT_LINK : Fld := ⟨0x05C, 15, 0, .L, .ro, 0x0, 1, 4⟩
/-- HOST_SMB_ADDR.ADDR (R75): SMBus 7-bit address -/
def Reg.HOST_SMB_ADDR_ADDR : Fld := ⟨0x060, 6, 0, .J, .rwl, 0x5C, 1, 4⟩
/-- USB4_CFG.FORCE_40 (R76): 1: train at 40 Gbit/s only -/
def Reg.USB4_CFG_FORCE_40 : Fld := ⟨0x040, 1, 1, .J, .rwl, 0x0, 1, 4⟩
/-- USB4_CFG.PORT_EN (R76): 0: lanes held in electrical idle -/
def Reg.USB4_CFG_PORT_EN : Fld := ⟨0x040, 0, 0, .J, .rwl, 0x1, 1, 4⟩
/-- USB4_STAT.RATE (R76): 00 none, 01 40 Gbit/s, 10 80 Gbit/s; 11 not reported -/
def Reg.USB4_STAT_RATE : Fld := ⟨0x044, 7, 6, .L, .ro, 0x0, 1, 4⟩
/-- USB4_STAT.TUNNEL (R76): 1: PCIe tunnel active -/
def Reg.USB4_STAT_TUNNEL : Fld := ⟨0x044, 5, 5, .L, .ro, 0x0, 1, 4⟩
/-- USB4_STAT.ENUM (R76): 1: router enumerated by the connection manager -/
def Reg.USB4_STAT_ENUM : Fld := ⟨0x044, 4, 4, .L, .ro, 0x0, 1, 4⟩
/-- USB4_STAT.CL (R76): 1: link in CL0s or CL1 -/
def Reg.USB4_STAT_CL : Fld := ⟨0x044, 3, 3, .L, .ro, 0x0, 1, 4⟩
/-- USB4_ERR_CNT.RETRAIN (R76): Lane retrainings; saturates -/
def Reg.USB4_ERR_CNT_RETRAIN : Fld := ⟨0x048, 31, 16, .L, .ro, 0x0, 1, 4⟩
/-- USB4_ERR_CNT.FALLBACK (R76): Trainings at 40 Gbit/s; saturates -/
def Reg.USB4_ERR_CNT_FALLBACK : Fld := ⟨0x048, 15, 0, .L, .ro, 0x0, 1, 4⟩
/-- SQ_BASE_LO.BASE_LO (R78): Ring base address [31:12] -/
def Reg.SQ_BASE_LO_BASE_LO : Fld := ⟨0x200, 31, 12, .L, .rw, 0x0, 16, 16⟩
/-- CQ_BASE_LO.BASE_LO (R78): Ring base address [31:12] -/
def Reg.CQ_BASE_LO_BASE_LO : Fld := ⟨0x300, 31, 12, .L, .rw, 0x0, 16, 16⟩
/-- SQ_CFG.EN (R78): 1: the queue is enabled -/
def Reg.SQ_CFG_EN : Fld := ⟨0x208, 31, 31, .L, .rw, 0x0, 16, 16⟩
/-- SQ_CFG.CQ (R78): Completion queue that receives this queue's completions -/
def Reg.SQ_CFG_CQ : Fld := ⟨0x208, 19, 16, .L, .rw, 0x0, 16, 16⟩
/-- SQ_CFG.WEIGHT (R78): Arbitration weight, 1–255 -/
def Reg.SQ_CFG_WEIGHT : Fld := ⟨0x208, 15, 8, .L, .rw, 0x1, 16, 16⟩
/-- SQ_CFG.SIZE (R78): log2 of the entry count, 1–16 -/
def Reg.SQ_CFG_SIZE : Fld := ⟨0x208, 4, 0, .L, .rw, 0x0, 16, 16⟩
/-- SQ_STAT.HEAD (R78): Index of the next entry the device will fetch -/
def Reg.SQ_STAT_HEAD : Fld := ⟨0x20C, 31, 16, .L, .ro, 0x0, 16, 16⟩
/-- SQ_STAT.ERR (R78): Queue error cause, from the queue error table -/
def Reg.SQ_STAT_ERR : Fld := ⟨0x20C, 7, 4, .L, .ro, 0x0, 16, 16⟩
/-- SQ_STAT.ERROR (R78): 1: the queue has stopped on an error -/
def Reg.SQ_STAT_ERROR : Fld := ⟨0x20C, 1, 1, .L, .ro, 0x0, 16, 16⟩
/-- SQ_STAT.ACTIVE (R78): 1: EN is 1, or a fetched command is not yet completed -/
def Reg.SQ_STAT_ACTIVE : Fld := ⟨0x20C, 0, 0, .L, .ro, 0x0, 16, 16⟩
/-- CQ_CFG.EN (R78): 1: the queue is enabled -/
def Reg.CQ_CFG_EN : Fld := ⟨0x308, 31, 31, .L, .rw, 0x0, 16, 16⟩
/-- CQ_CFG.IRQ_EN (R78): 1: the queue signals MSI-X vector q -/
def Reg.CQ_CFG_IRQ_EN : Fld := ⟨0x308, 30, 30, .L, .rw, 0x0, 16, 16⟩
/-- CQ_CFG.COAL_COUNT (R78): Completions per message; 0: every completion -/
def Reg.CQ_CFG_COAL_COUNT : Fld := ⟨0x308, 23, 16, .L, .rw, 0x0, 16, 16⟩
/-- CQ_CFG.COAL_TIME (R78): Maximum delay of a message in µs; 0: no delay limit -/
def Reg.CQ_CFG_COAL_TIME : Fld := ⟨0x308, 15, 8, .L, .rw, 0x0, 16, 16⟩
/-- CQ_CFG.SIZE (R78): log2 of the entry count, 1–16 -/
def Reg.CQ_CFG_SIZE : Fld := ⟨0x308, 4, 0, .L, .rw, 0x0, 16, 16⟩
/-- CQ_STAT.TAIL (R78): Index of the next entry the device will write -/
def Reg.CQ_STAT_TAIL : Fld := ⟨0x30C, 31, 16, .L, .ro, 0x0, 16, 16⟩
/-- CQ_STAT.PHASE (R78): Phase value the device writes next -/
def Reg.CQ_STAT_PHASE : Fld := ⟨0x30C, 15, 15, .L, .ro, 0x1, 16, 16⟩
/-- CQ_STAT.ERR (R78): Queue error cause -/
def Reg.CQ_STAT_ERR : Fld := ⟨0x30C, 7, 4, .L, .ro, 0x0, 16, 16⟩
/-- CQ_STAT.ERROR (R78): 1: the queue has stopped on an error -/
def Reg.CQ_STAT_ERROR : Fld := ⟨0x30C, 1, 1, .L, .ro, 0x0, 16, 16⟩
/-- CQ_STAT.ACTIVE (R78): 1: EN is 1, or completions for it are outstanding -/
def Reg.CQ_STAT_ACTIVE : Fld := ⟨0x30C, 0, 0, .L, .ro, 0x0, 16, 16⟩
/-- CMD_CFG.RT_TIMEOUT (R102): Routed command timeout in ms; 0: none -/
def Reg.CMD_CFG_RT_TIMEOUT : Fld := ⟨0x040, 31, 24, .J, .rw, 0x64, 1, 4⟩
/-- CMD_CFG.PYP1_EN (R102): 1: PYP 1.x may be negotiated -/
def Reg.CMD_CFG_PYP1_EN : Fld := ⟨0x040, 2, 2, .S, .rwl, 0x1, 1, 4⟩
/-- CMD_CFG.RQ_EN (R102): 1: routed queue enabled under R10 -/
def Reg.CMD_CFG_RQ_EN : Fld := ⟨0x040, 1, 1, .J, .rw, 0x0, 1, 4⟩
/-- CMD_RQ_BASE_LO.BASE_LO (R102): Internal address [31:12] of the ring -/
def Reg.CMD_RQ_BASE_LO_BASE_LO : Fld := ⟨0x044, 31, 12, .S, .rw, 0x0, 1, 4⟩
/-- CMD_RCQ_BASE_LO.BASE_LO (R102): Internal address [31:12] of the ring -/
def Reg.CMD_RCQ_BASE_LO_BASE_LO : Fld := ⟨0x058, 31, 12, .S, .rw, 0x0, 1, 4⟩
/-- CMD_RQ_BASE_HI.BASE_HI (R102): Internal address [39:32] -/
def Reg.CMD_RQ_BASE_HI_BASE_HI : Fld := ⟨0x048, 7, 0, .S, .rw, 0x0, 1, 4⟩
/-- CMD_RCQ_BASE_HI.BASE_HI (R102): Internal address [39:32] -/
def Reg.CMD_RCQ_BASE_HI_BASE_HI : Fld := ⟨0x05C, 7, 0, .S, .rw, 0x0, 1, 4⟩
/-- CMD_RQ_CFG.RCQ_SIZE (R102): log2 of routed completion ring entries, 1–12 -/
def Reg.CMD_RQ_CFG_RCQ_SIZE : Fld := ⟨0x04C, 20, 16, .S, .rw, 0x0, 1, 4⟩
/-- CMD_RQ_CFG.RQ_SIZE (R102): log2 of routed ring entries, 1–12 -/
def Reg.CMD_RQ_CFG_RQ_SIZE : Fld := ⟨0x04C, 4, 0, .S, .rw, 0x0, 1, 4⟩
/-- CMD_RQ_HEAD.HEAD (R102): Written by firmware: next routed entry to consume -/
def Reg.CMD_RQ_HEAD_HEAD : Fld := ⟨0x050, 15, 0, .L, .rw, 0x0, 1, 4⟩
/-- CMD_RQ_TAIL.TAIL (R102): Next routed entry the device writes -/
def Reg.CMD_RQ_TAIL_TAIL : Fld := ⟨0x054, 15, 0, .L, .ro, 0x0, 1, 4⟩
/-- CMD_RCQ_TAIL.TAIL (R102): Written by firmware: one past its last completion -/
def Reg.CMD_RCQ_TAIL_TAIL : Fld := ⟨0x060, 15, 0, .L, .rw, 0x0, 1, 4⟩
/-- CMD_RCQ_HEAD.HEAD (R102): Next completion the device reads -/
def Reg.CMD_RCQ_HEAD_HEAD : Fld := ⟨0x064, 15, 0, .L, .ro, 0x0, 1, 4⟩
/-- CMD_STAT_FETCH.FETCHED (R102): Descriptors fetched; wraps -/
def Reg.CMD_STAT_FETCH_FETCHED : Fld := ⟨0x068, 31, 0, .L, .ro, 0x0, 1, 4⟩
/-- CMD_STAT_DONE.POSTED (R102): Completions posted; wraps -/
def Reg.CMD_STAT_DONE_POSTED : Fld := ⟨0x06C, 31, 0, .L, .ro, 0x0, 1, 4⟩
/-- CMD_STAT_ROUTED.ROUTED (R102): Routed entries written; wraps -/
def Reg.CMD_STAT_ROUTED_ROUTED : Fld := ⟨0x070, 31, 0, .L, .ro, 0x0, 1, 4⟩
/-- CMD_STAT_TIMEOUT.LATE (R102): Dropped firmware completions; saturates -/
def Reg.CMD_STAT_TIMEOUT_LATE : Fld := ⟨0x074, 31, 16, .L, .ro, 0x0, 1, 4⟩
/-- CMD_STAT_TIMEOUT.TIMEOUT (R102): FIRMWARE_TIMEOUT postings; saturates -/
def Reg.CMD_STAT_TIMEOUT_TIMEOUT : Fld := ⟨0x074, 15, 0, .L, .ro, 0x0, 1, 4⟩
/-- CMD_INFLIGHT.HELD (R102): Results held at the egress fence -/
def Reg.CMD_INFLIGHT_HELD : Fld := ⟨0x078, 31, 16, .L, .ro, 0x0, 1, 4⟩
/-- CMD_INFLIGHT.ACTIVE (R102): Commands between fetch and release -/
def Reg.CMD_INFLIGHT_ACTIVE : Fld := ⟨0x078, 15, 0, .L, .ro, 0x0, 1, 4⟩
/-- INST_PYP_OFFER.V2 (R103): Bits for 2.2, 2.1, 2.0 -/
def Reg.INST_PYP_OFFER_V2 : Fld := ⟨0x100, 10, 8, .S, .rw, 0x7, 1, 4⟩
/-- INST_PYP_OFFER.V1 (R103): Bits for 1.2, 1.1, 1.0 -/
def Reg.INST_PYP_OFFER_V1 : Fld := ⟨0x100, 2, 0, .S, .rw, 0x0, 1, 4⟩
/-- INST_PYP_VER.MAJOR (R103): Negotiated major; 0 if none -/
def Reg.INST_PYP_VER_MAJOR : Fld := ⟨0x104, 15, 8, .L, .ro, 0x2, 1, 4⟩
/-- INST_PYP_VER.MINOR (R103): Negotiated minor -/
def Reg.INST_PYP_VER_MINOR : Fld := ⟨0x104, 7, 0, .L, .ro, 0x2, 1, 4⟩
/-- INST_PYP_CAP.CAP (R103): Device versions in the layout of INST_PYP_OFFER; 0x0000_0700 while CMD_CFG.PYP1_EN is 0 -/
def Reg.INST_PYP_CAP_CAP : Fld := ⟨0x108, 31, 0, .S, .ro, 0x707, 1, 4⟩
/-- KS_CFG.USAGE_PERIOD (R163): Seconds between usage-only vault writes of a record, 1–255; 0 records BAD_VALUE -/
def Reg.KS_CFG_USAGE_PERIOD : Fld := ⟨0x040, 31, 24, .J, .rwl, 0x3C, 1, 4⟩
/-- KS_CMD.BUSY (R163): 1: an operation runs -/
def Reg.KS_CMD_BUSY : Fld := ⟨0x044, 31, 31, .L, .ro, 0x0, 1, 4⟩
/-- KS_CMD.OP (R163): 1 GEN_ROOT; 2 VAULT_SYNC; 3 T0_FLUSH (evict every key with no command in flight); 0 no operation, recording nothing; others BAD_VALUE -/
def Reg.KS_CMD_OP : Fld := ⟨0x044, 3, 0, .L, .wo, 0x0, 1, 4⟩
/-- KS_STAT.VAULT_STATE (R163): 0 ABSENT, 1 RESTORING, 2 OPEN, 3 READ_ONLY, 4 CLOSED_TAINT, 5 CLOSED_MISMATCH, 6 CLOSED_ROLLBACK -/
def Reg.KS_STAT_VAULT_STATE : Fld := ⟨0x048, 5, 3, .L, .ro, 0x0, 1, 4⟩
/-- KS_STAT.TAINT (R163): Taint bit used in R138 -/
def Reg.KS_STAT_TAINT : Fld := ⟨0x048, 2, 2, .L, .ro, 0x0, 1, 4⟩
/-- KS_STAT.ROOT_VALID (R163): 1: a root secret exists (reset value Actual: kept outside the register file) -/
def Reg.KS_STAT_ROOT_VALID : Fld := ⟨0x048, 1, 1, .L, .ro, 0x0, 1, 4⟩
/-- KS_RESTORE.FRONTIER (R163): Restore frontier under R148; 0x3FF_FFFF after completion -/
def Reg.KS_RESTORE_FRONTIER : Fld := ⟨0x04C, 25, 0, .L, .ro, 0x0, 1, 4⟩
/-- KS_VLT_CNT_LO.CNT_LO (R163): Anti-rollback counter [31:0] (reset value Actual: kept outside the register file) -/
def Reg.KS_VLT_CNT_LO_CNT_LO : Fld := ⟨0x040, 31, 0, .L, .ro, 0x0, 1, 4⟩
/-- KS_VLT_CNT_HI.CNT_HI (R163): Anti-rollback counter [63:32] (reset value Actual: kept outside the register file) -/
def Reg.KS_VLT_CNT_HI_CNT_HI : Fld := ⟨0x044, 31, 0, .L, .ro, 0x0, 1, 4⟩
/-- KS_VLT_EPOCH.EPOCH (R163): Vault epoch (reset value Actual: kept outside the register file) -/
def Reg.KS_VLT_EPOCH_EPOCH : Fld := ⟨0x048, 31, 0, .L, .ro, 0x0, 1, 4⟩
/-- KS_VLT_LIMIT.KIB (R163): Pending queue limit in KiB, set by the hold-up controller under R462, at each cold reset and after each measurement; reads 0x1000 only until the controller first sets it in a boot -/
def Reg.KS_VLT_LIMIT_KIB : Fld := ⟨0x04C, 12, 0, .L, .ro, 0x1000, 1, 4⟩
/-- KS_VLT_PEND.KIB (R163): Pending queue content in KiB, rounded up -/
def Reg.KS_VLT_PEND_KIB : Fld := ⟨0x050, 12, 0, .L, .ro, 0x0, 1, 4⟩
/-- KS_VLT_SPARE.CELLS (R163): Spare counter cells left, 0–192 (reset value Actual: kept outside the register file) -/
def Reg.KS_VLT_SPARE_CELLS : Fld := ⟨0x054, 7, 0, .L, .ro, 0x0, 1, 4⟩
/-- KS_VLT_DAMAGE.MARKED (R163): Records marked DAMAGED this boot; saturates -/
def Reg.KS_VLT_DAMAGE_MARKED : Fld := ⟨0x058, 31, 16, .L, .ro, 0x0, 1, 4⟩
/-- KS_VLT_DAMAGE.REPAIRED (R163): Copies rewritten from T1 this boot; saturates -/
def Reg.KS_VLT_DAMAGE_REPAIRED : Fld := ⟨0x058, 15, 0, .L, .ro, 0x0, 1, 4⟩
/-- KS_T0_USE.RESIDENT (R163): Keys resident in T0 -/
def Reg.KS_T0_USE_RESIDENT : Fld := ⟨0x040, 31, 16, .L, .ro, 0x0, 1, 4⟩
/-- KS_T0_USE.FREE (R163): Free unretired slots, saturating at 0xFFFF (reset value Actual: kept outside the register file) -/
def Reg.KS_T0_USE_FREE : Fld := ⟨0x040, 15, 0, .L, .ro, 0x0, 1, 4⟩
/-- KS_POUND.LIMIT (R163): POUND_HIGH threshold -/
def Reg.KS_POUND_LIMIT : Fld := ⟨0x044, 31, 16, .J, .rwl, 0x40, 1, 4⟩
/-- KS_POUND.COUNT (R163): Retired slots, from the MRAM list (reset value Actual: kept outside the register file) -/
def Reg.KS_POUND_COUNT : Fld := ⟨0x044, 15, 0, .L, .ro, 0x0, 1, 4⟩
/-- KS_STAT_HIT.HIT (R163): Key fetches served from T0; wraps -/
def Reg.KS_STAT_HIT_HIT : Fld := ⟨0x040, 31, 0, .L, .ro, 0x0, 1, 4⟩
/-- KS_STAT_T1.LOADS (R163): Loads from T1 to T0; wraps -/
def Reg.KS_STAT_T1_LOADS : Fld := ⟨0x044, 31, 0, .L, .ro, 0x0, 1, 4⟩
/-- KS_STAT_T2.LOADS (R163): Demand loads from T2; wraps -/
def Reg.KS_STAT_T2_LOADS : Fld := ⟨0x048, 31, 0, .L, .ro, 0x0, 1, 4⟩
/-- KS_STAT_BATCH.BATCHES (R163): Batches committed this boot; wraps -/
def Reg.KS_STAT_BATCH_BATCHES : Fld := ⟨0x04C, 31, 0, .L, .ro, 0x0, 1, 4⟩
/-- SYM_CFG.SERVE (R197): 1: the lane takes work from the work rings and XTS striping -/
def Reg.SYM_CFG_SERVE : Fld := ⟨0x040, 0, 0, .J, .rw, 0x1, 1, 4⟩
/-- SYM_STAT.OUT_OF_SERVICE (R197): 1: taken out under R167; cleared by soft reset -/
def Reg.SYM_STAT_OUT_OF_SERVICE : Fld := ⟨0x044, 16, 16, .L, .ro, 0x0, 1, 4⟩
/-- SYM_STAT.JOBS (R197): Commands and data units held by the lane -/
def Reg.SYM_STAT_JOBS : Fld := ⟨0x044, 7, 0, .L, .ro, 0x0, 1, 4⟩
/-- SYM_BLK_LO.BLK_LO (R197): Blocks processed [31:0]; wraps -/
def Reg.SYM_BLK_LO_BLK_LO : Fld := ⟨0x048, 31, 0, .L, .ro, 0x0, 1, 4⟩
/-- SYM_BLK_HI.BLK_HI (R197): Blocks processed [63:32] -/
def Reg.SYM_BLK_HI_BLK_HI : Fld := ⟨0x04C, 31, 0, .L, .ro, 0x0, 1, 4⟩
/-- SYM_ERR_CNT.FAULT (R197): Check-unit mismatches; saturates -/
def Reg.SYM_ERR_CNT_FAULT : Fld := ⟨0x050, 31, 16, .L, .ro, 0x0, 1, 4⟩
/-- SYM_ERR_CNT.AUTH (R197): AUTH_FAIL results; saturates -/
def Reg.SYM_ERR_CNT_AUTH : Fld := ⟨0x050, 15, 0, .L, .ro, 0x0, 1, 4⟩
/-- SYM_JOB_LO.ADDR_LO (R197): Internal address [31:6] of a 64-byte job descriptor -/
def Reg.SYM_JOB_LO_ADDR_LO : Fld := ⟨0x054, 31, 6, .L, .rw, 0x0, 1, 4⟩
/-- SYM_JOB_HI.ADDR_HI (R197): Internal address [39:32] -/
def Reg.SYM_JOB_HI_ADDR_HI : Fld := ⟨0x058, 7, 0, .L, .rw, 0x0, 1, 4⟩
/-- SYM_JOB_CTL.GO (R197): Write 1: start the job -/
def Reg.SYM_JOB_CTL_GO : Fld := ⟨0x05C, 31, 31, .L, .wo, 0x0, 1, 4⟩
/-- SYM_JOB_CTL.INSTANCE (R197): Instance on whose behalf the job runs -/
def Reg.SYM_JOB_CTL_INSTANCE : Fld := ⟨0x05C, 25, 16, .L, .rw, 0x0, 1, 4⟩
/-- SYM_JOB_CTL.ROMKEY (R197): 1: the job's key handles hold addresses of ROM key blocks under R198 -/
def Reg.SYM_JOB_CTL_ROMKEY : Fld := ⟨0x05C, 0, 0, .L, .rw, 0x0, 1, 4⟩
/-- SYM_JOB_STAT.STATUS (R197): Status of the last job, from the status code table -/
def Reg.SYM_JOB_STAT_STATUS : Fld := ⟨0x060, 31, 16, .L, .ro, 0x0, 1, 4⟩
/-- SYM_JOB_STAT.BUSY (R197): 1: a job runs -/
def Reg.SYM_JOB_STAT_BUSY : Fld := ⟨0x060, 1, 1, .L, .ro, 0x0, 1, 4⟩
/-- SYM_JOB_STAT.DONE (R197): 1: a job has finished -/
def Reg.SYM_JOB_STAT_DONE : Fld := ⟨0x060, 0, 0, .L, .rw1c, 0x0, 1, 4⟩
/-- SYM_JOB_RES0_LO.RES0 (R197): RESULT0 [31:0] and [63:32] -/
def Reg.SYM_JOB_RES0_LO_RES0 : Fld := ⟨0x064, 31, 0, .L, .ro, 0x0, 1, 4⟩
/-- SYM_JOB_RES0_HI.RES0 (R197): RESULT0 [31:0] and [63:32] -/
def Reg.SYM_JOB_RES0_HI_RES0 : Fld := ⟨0x068, 31, 0, .L, .ro, 0x0, 1, 4⟩
/-- SYM_JOB_RES1_LO.RES1 (R197): RESULT1 [31:0] and [63:32] -/
def Reg.SYM_JOB_RES1_LO_RES1 : Fld := ⟨0x06C, 31, 0, .L, .ro, 0x0, 1, 4⟩
/-- SYM_JOB_RES1_HI.RES1 (R197): RESULT1 [31:0] and [63:32] -/
def Reg.SYM_JOB_RES1_HI_RES1 : Fld := ⟨0x070, 31, 0, .L, .ro, 0x0, 1, 4⟩
/-- SYM_JOB_OUTLEN.OUT_LEN (R197): Bytes written -/
def Reg.SYM_JOB_OUTLEN_OUT_LEN : Fld := ⟨0x074, 31, 0, .L, .ro, 0x0, 1, 4⟩
/-- PKE_CFG.LONG_OK (R223): 1: the engine may take long operations under R201 -/
def Reg.PKE_CFG_LONG_OK : Fld := ⟨0x040, 1, 1, .J, .rw, 0x1, 1, 4⟩
/-- PKE_CFG.SERVE (R223): 1: the engine takes work from the work rings -/
def Reg.PKE_CFG_SERVE : Fld := ⟨0x040, 0, 0, .J, .rw, 0x1, 1, 4⟩
/-- PKE_STAT.OUT_OF_SERVICE (R223): 1: taken out under R220; cleared by soft reset -/
def Reg.PKE_STAT_OUT_OF_SERVICE : Fld := ⟨0x044, 16, 16, .L, .ro, 0x0, 1, 4⟩
/-- PKE_STAT.CUR_OPCODE (R223): Opcode in progress; 0: idle -/
def Reg.PKE_STAT_CUR_OPCODE : Fld := ⟨0x044, 15, 0, .L, .ro, 0x0, 1, 4⟩
/-- PKE_OPS_LO.OPS_LO (R223): Operations completed [31:0]; wraps -/
def Reg.PKE_OPS_LO_OPS_LO : Fld := ⟨0x048, 31, 0, .L, .ro, 0x0, 1, 4⟩
/-- PKE_OPS_HI.OPS_HI (R223): Operations completed [63:32] -/
def Reg.PKE_OPS_HI_OPS_HI : Fld := ⟨0x04C, 31, 0, .L, .ro, 0x0, 1, 4⟩
/-- PKE_ERR_CNT.CHECK (R223): Check failures under R219; saturates -/
def Reg.PKE_ERR_CNT_CHECK : Fld := ⟨0x050, 31, 16, .L, .ro, 0x0, 1, 4⟩
/-- PKE_ERR_CNT.VFAIL (R223): VERIFY_FAIL results; saturates -/
def Reg.PKE_ERR_CNT_VFAIL : Fld := ⟨0x050, 15, 0, .L, .ro, 0x0, 1, 4⟩
/-- PKE_RAND.KIB (R223): KiB drawn from the quarter DRBG; wraps -/
def Reg.PKE_RAND_KIB : Fld := ⟨0x078, 31, 0, .L, .ro, 0x0, 1, 4⟩
/-- ENT_CFG.FAIL_LIMIT (R244): Failures per source per boot before FAILED, 1–255; 0 records BAD_VALUE -/
def Reg.ENT_CFG_FAIL_LIMIT : Fld := ⟨0x040, 31, 24, .J, .rwl, 0x8, 1, 4⟩
/-- ENT_CFG.RETEST_MS (R244): Interval between retests in ms, 1–255; 0 records BAD_VALUE -/
def Reg.ENT_CFG_RETEST_MS : Fld := ⟨0x040, 23, 16, .J, .rw, 0xA, 1, 4⟩
/-- ENT_CFG.RETURN (R244): 1: return to the primary under R231 -/
def Reg.ENT_CFG_RETURN : Fld := ⟨0x040, 0, 0, .J, .rw, 0x1, 1, 4⟩
/-- ENT_STAT.POOL (R244): Pool content in 128-bit units, 0–15; 15 also when full -/
def Reg.ENT_STAT_POOL : Fld := ⟨0x044, 19, 16, .L, .ro, 0x0, 1, 4⟩
/-- ENT_STAT.SUBST (R244): 1: pattern substitution active -/
def Reg.ENT_STAT_SUBST : Fld := ⟨0x044, 9, 9, .L, .ro, 0x0, 1, 4⟩
/-- ENT_STAT.RESEED_REQ (R244): 1: quarter DRBG reseed required -/
def Reg.ENT_STAT_RESEED_REQ : Fld := ⟨0x044, 8, 8, .L, .ro, 0x0, 1, 4⟩
/-- ENT_STAT.ALT_ST (R244): 0 idle, 1 testing, 2 active or standby, 3 FAILED -/
def Reg.ENT_STAT_ALT_ST : Fld := ⟨0x044, 7, 6, .L, .ro, 0x0, 1, 4⟩
/-- ENT_STAT.PRI_ST (R244): As ALT_ST, for the primary -/
def Reg.ENT_STAT_PRI_ST : Fld := ⟨0x044, 5, 4, .L, .ro, 0x0, 1, 4⟩
/-- ENT_STAT.STATE (R244): 0 OFF, 1 STARTUP, 2 PRIMARY, 3 ALTERNATE, 4 SWITCHING, 5 ENT_FAIL, 6 DIAG, 7 never reported -/
def Reg.ENT_STAT_STATE : Fld := ⟨0x044, 2, 0, .L, .ro, 0x0, 1, 4⟩
/-- ENT_FAILCNT.PRI_RCT (R244): Primary repetition-count failures; saturates -/
def Reg.ENT_FAILCNT_PRI_RCT : Fld := ⟨0x048, 31, 24, .L, .ro, 0x0, 1, 4⟩
/-- ENT_FAILCNT.PRI_APT (R244): Primary adaptive-proportion failures; saturates -/
def Reg.ENT_FAILCNT_PRI_APT : Fld := ⟨0x048, 23, 16, .L, .ro, 0x0, 1, 4⟩
/-- ENT_FAILCNT.ALT_RCT (R244): Alternate repetition-count failures; saturates -/
def Reg.ENT_FAILCNT_ALT_RCT : Fld := ⟨0x048, 15, 8, .L, .ro, 0x0, 1, 4⟩
/-- ENT_FAILCNT.ALT_APT (R244): Alternate adaptive-proportion failures; saturates -/
def Reg.ENT_FAILCNT_ALT_APT : Fld := ⟨0x048, 7, 0, .L, .ro, 0x0, 1, 4⟩
/-- ENT_RESEEDS.RESEEDS (R244): Quarter DRBG reseeds; wraps -/
def Reg.ENT_RESEEDS_RESEEDS : Fld := ⟨0x04C, 31, 0, .L, .ro, 0x0, 1, 4⟩
/-- ENT_REQS.REQS (R244): Quarter DRBG requests since its last reseed, 0–65,536 -/
def Reg.ENT_REQS_REQS : Fld := ⟨0x050, 16, 0, .L, .ro, 0x0, 1, 4⟩
/-- ENT_STALL.ERR_READS (R244): Hardware reads ended with an error; saturates -/
def Reg.ENT_STALL_ERR_READS : Fld := ⟨0x054, 31, 16, .L, .ro, 0x0, 1, 4⟩
/-- ENT_STALL.MAX_US (R244): Longest hardware read wait in µs; saturates -/
def Reg.ENT_STALL_MAX_US : Fld := ⟨0x054, 15, 0, .L, .ro, 0x0, 1, 4⟩
/-- ENT_DIAG.CAPTURE (R244): Write 1: start a capture under R242 -/
def Reg.ENT_DIAG_CAPTURE : Fld := ⟨0x058, 31, 31, .L, .wo, 0x0, 1, 4⟩
/-- ENT_DIAG.SUBST (R244): 1: pattern substitution under R243 -/
def Reg.ENT_DIAG_SUBST : Fld := ⟨0x058, 30, 30, .L, .rw, 0x0, 1, 4⟩
/-- ENT_DIAG.PAT_KIND (R244): 0 repeated word, 1 LFSR -/
def Reg.ENT_DIAG_PAT_KIND : Fld := ⟨0x058, 26, 26, .L, .rw, 0x0, 1, 4⟩
/-- ENT_DIAG.SRC (R244): Capture source: 0 primary, 1 alternate -/
def Reg.ENT_DIAG_SRC : Fld := ⟨0x058, 24, 24, .L, .rw, 0x0, 1, 4⟩
/-- ENT_CAP_BASE_LO.ADDR_LO (R244): Capture base [31:6] -/
def Reg.ENT_CAP_BASE_LO_ADDR_LO : Fld := ⟨0x05C, 31, 6, .S, .rw, 0x0, 1, 4⟩
/-- ENT_CAP_BASE_HI.ADDR_HI (R244): Capture base [39:32] -/
def Reg.ENT_CAP_BASE_HI_ADDR_HI : Fld := ⟨0x060, 7, 0, .S, .rw, 0x0, 1, 4⟩
/-- ENT_CAP_LEN.LEN (R244): Samples to capture, 1–0x100_0000; other values record BAD_VALUE -/
def Reg.ENT_CAP_LEN_LEN : Fld := ⟨0x064, 24, 0, .S, .rw, 0x0, 1, 4⟩
/-- ENT_CAP_DONE.DONE (R244): Samples written by the current or last capture -/
def Reg.ENT_CAP_DONE_DONE : Fld := ⟨0x068, 24, 0, .L, .ro, 0x0, 1, 4⟩
/-- ENT_PATTERN.PATTERN (R244): Substitution word or LFSR seed; an LFSR seed of 0 records BAD_VALUE when SUBST is set -/
def Reg.ENT_PATTERN_PATTERN : Fld := ⟨0x06C, 31, 0, .L, .rw, 0x0, 1, 4⟩
/-- DRBG_SW_CFG.SRC_Q (R245): Quarter whose Well feeds both instances, under R237 -/
def Reg.DRBG_SW_CFG_SRC_Q : Fld := ⟨0x040, 1, 0, .J, .rw, 0x0, 1, 4⟩
/-- DRBG_SW_DATA.DATA (R245): Next 32 bits of the reading world's FIFO; zero and ENT_EMPTY when empty -/
def Reg.DRBG_SW_DATA_DATA : Fld := ⟨0x044, 31, 0, .L, .ro, 0x0, 1, 4⟩
/-- DRBG_SW_STAT.LEVEL (R245): Words in the FIFO, 0–64 -/
def Reg.DRBG_SW_STAT_LEVEL : Fld := ⟨0x048, 15, 8, .L, .ro, 0x0, 1, 4⟩
/-- DRBG_SW_STAT.Q_USED (R245): Quarter actually feeding the instance -/
def Reg.DRBG_SW_STAT_Q_USED : Fld := ⟨0x048, 5, 4, .L, .ro, 0x0, 1, 4⟩
/-- DRBG_SW_STAT.RESEED_REQ (R245): 1: instance not yet reseeded or instantiated -/
def Reg.DRBG_SW_STAT_RESEED_REQ : Fld := ⟨0x048, 2, 2, .L, .ro, 0x1, 1, 4⟩
/-- DRBG_SW_STAT.ENT_EMPTY (R245): 1: a read found the FIFO empty -/
def Reg.DRBG_SW_STAT_ENT_EMPTY : Fld := ⟨0x048, 1, 1, .L, .rw1c, 0x0, 1, 4⟩
/-- DRBG_SW_STAT.VALID (R245): 1: at least one word is available -/
def Reg.DRBG_SW_STAT_VALID : Fld := ⟨0x048, 0, 0, .L, .ro, 0x0, 1, 4⟩
/-- DRBG_SW_CNT.WORDS (R245): Words delivered to the reading world; wraps -/
def Reg.DRBG_SW_CNT_WORDS : Fld := ⟨0x04C, 31, 0, .L, .ro, 0x0, 1, 4⟩
/-- MPE_CFG.SCRUB_H (R274): Hours per patrol pass under R262; 0: scrub off -/
def Reg.MPE_CFG_SCRUB_H : Fld := ⟨0x040, 31, 24, .J, .rw, 0x18, 1, 4⟩
/-- MPE_CFG.CE_LIMIT (R274): Corrections per channel per hour that raise CE_HIGH; 0 records BAD_VALUE -/
def Reg.MPE_CFG_CE_LIMIT : Fld := ⟨0x040, 23, 16, .J, .rw, 0x40, 1, 4⟩
/-- MPE_CFG.SPEC_EN (R274): 1: provisional answers under R264 -/
def Reg.MPE_CFG_SPEC_EN : Fld := ⟨0x040, 0, 0, .L, .rwl, 0x1, 1, 4⟩
/-- MPE_STAT.WBUF_FULL (R274): 1: the write buffer is full -/
def Reg.MPE_STAT_WBUF_FULL : Fld := ⟨0x044, 2, 2, .L, .ro, 0x0, 1, 4⟩
/-- MPE_STAT.HALTING (R274): 1: the halt sequence has started -/
def Reg.MPE_STAT_HALTING : Fld := ⟨0x044, 1, 1, .L, .ro, 0x0, 1, 4⟩
/-- MPE_STAT.KEYS_VALID (R274): 1: memory keys held -/
def Reg.MPE_STAT_KEYS_VALID : Fld := ⟨0x044, 0, 0, .L, .ro, 0x0, 1, 4⟩
/-- MPE_EPOCH.CURRENT (R274): Open epoch -/
def Reg.MPE_EPOCH_CURRENT : Fld := ⟨0x048, 31, 16, .L, .ro, 0x0, 1, 4⟩
/-- MPE_EPOCH.VERIFIED (R274): Verified-through epoch -/
def Reg.MPE_EPOCH_VERIFIED : Fld := ⟨0x048, 15, 0, .L, .ro, 0x0, 1, 4⟩
/-- MPE_EPOCH_LAG.MAX (R274): Largest CURRENT − VERIFIED seen -/
def Reg.MPE_EPOCH_LAG_MAX : Fld := ⟨0x04C, 31, 16, .L, .ro, 0x0, 1, 4⟩
/-- MPE_EPOCH_LAG.STALLS (R274): Stalls under R263; saturates -/
def Reg.MPE_EPOCH_LAG_STALLS : Fld := ⟨0x04C, 15, 0, .L, .ro, 0x0, 1, 4⟩
/-- MPE_WBUF.HELD (R274): Lines held in the write buffer, 0–4,096 -/
def Reg.MPE_WBUF_HELD : Fld := ⟨0x050, 12, 0, .L, .ro, 0x0, 1, 4⟩
/-- MPE_REENC.GROUPS (R274): Group and tree re-encryptions; wraps -/
def Reg.MPE_REENC_GROUPS : Fld := ⟨0x054, 31, 0, .L, .ro, 0x0, 1, 4⟩
/-- MPE_CC_HIT.HIT (R274): Counter cache hits; wraps -/
def Reg.MPE_CC_HIT_HIT : Fld := ⟨0x058, 31, 0, .L, .ro, 0x0, 1, 4⟩
/-- MPE_CC_MISS.MISS (R274): Counter cache misses; wraps -/
def Reg.MPE_CC_MISS_MISS : Fld := ⟨0x05C, 31, 0, .L, .ro, 0x0, 1, 4⟩
/-- MPE_CE_01.CH_ODD (R275): Corrections on the odd channel; saturates -/
def Reg.MPE_CE_01_CH_ODD : Fld := ⟨0x040, 31, 16, .L, .ro, 0x0, 1, 4⟩
/-- MPE_CE_23.CH_ODD (R275): Corrections on the odd channel; saturates -/
def Reg.MPE_CE_23_CH_ODD : Fld := ⟨0x044, 31, 16, .L, .ro, 0x0, 1, 4⟩
/-- MPE_CE_45.CH_ODD (R275): Corrections on the odd channel; saturates -/
def Reg.MPE_CE_45_CH_ODD : Fld := ⟨0x048, 31, 16, .L, .ro, 0x0, 1, 4⟩
/-- MPE_CE_67.CH_ODD (R275): Corrections on the odd channel; saturates -/
def Reg.MPE_CE_67_CH_ODD : Fld := ⟨0x04C, 31, 16, .L, .ro, 0x0, 1, 4⟩
/-- MPE_CE_01.CH_EVEN (R275): Corrections on the even channel; saturates -/
def Reg.MPE_CE_01_CH_EVEN : Fld := ⟨0x040, 15, 0, .L, .ro, 0x0, 1, 4⟩
/-- MPE_CE_23.CH_EVEN (R275): Corrections on the even channel; saturates -/
def Reg.MPE_CE_23_CH_EVEN : Fld := ⟨0x044, 15, 0, .L, .ro, 0x0, 1, 4⟩
/-- MPE_CE_45.CH_EVEN (R275): Corrections on the even channel; saturates -/
def Reg.MPE_CE_45_CH_EVEN : Fld := ⟨0x048, 15, 0, .L, .ro, 0x0, 1, 4⟩
/-- MPE_CE_67.CH_EVEN (R275): Corrections on the even channel; saturates -/
def Reg.MPE_CE_67_CH_EVEN : Fld := ⟨0x04C, 15, 0, .L, .ro, 0x0, 1, 4⟩
/-- MPE_CC_ERR.REFETCH (R275): Clean lines refetched under R261; saturates -/
def Reg.MPE_CC_ERR_REFETCH : Fld := ⟨0x050, 31, 16, .L, .ro, 0x0, 1, 4⟩
/-- MPE_CC_ERR.CORR (R275): Single-bit corrections; saturates -/
def Reg.MPE_CC_ERR_CORR : Fld := ⟨0x050, 15, 0, .L, .ro, 0x0, 1, 4⟩
/-- MPE_FAIL_KIND.LEVEL (R275): 0 data line, 1–4 L0–L3, 7 counter cache -/
def Reg.MPE_FAIL_KIND_LEVEL : Fld := ⟨0x054, 11, 8, .L, .ro, 0x0, 1, 4⟩
/-- MPE_FAIL_KIND.KIND (R275): 0 none, 1 MAC mismatch, 2 uncorrectable symbol error, 3 dirty cache line lost, 4 halt ordered under R269 -/
def Reg.MPE_FAIL_KIND_KIND : Fld := ⟨0x054, 3, 0, .L, .ro, 0x0, 1, 4⟩
/-- MPE_FAIL_ADDR_LO.ADDR_LO (R275): Failing line address [31:6]. For KIND 3, the address of the tree line whose only copy was lost. For KIND 4, zero -/
def Reg.MPE_FAIL_ADDR_LO_ADDR_LO : Fld := ⟨0x058, 31, 6, .L, .ro, 0x0, 1, 4⟩
/-- MPE_FAIL_ADDR_HI.ADDR_HI (R275): Failing line address [39:32] -/
def Reg.MPE_FAIL_ADDR_HI_ADDR_HI : Fld := ⟨0x05C, 7, 0, .L, .ro, 0x0, 1, 4⟩
/-- MPE_FAIL_EPOCH.EPOCH (R275): Epoch of the failing read; 0 for scrub, re-encryption, a lost dirty cache line (KIND 3) whatever access found it, and ordered halts -/
def Reg.MPE_FAIL_EPOCH_EPOCH : Fld := ⟨0x060, 15, 0, .L, .ro, 0x0, 1, 4⟩
/-- MPE_BLOCK_CNT.DBG (R275): Debug accesses refused under R270; saturates -/
def Reg.MPE_BLOCK_CNT_DBG : Fld := ⟨0x064, 31, 16, .L, .ro, 0x0, 1, 4⟩
/-- MPE_BLOCK_CNT.DMA (R275): DMA accesses refused under R271; saturates -/
def Reg.MPE_BLOCK_CNT_DMA : Fld := ⟨0x064, 15, 0, .L, .ro, 0x0, 1, 4⟩
/-- MGR_CMD.BUSY (R301): 1: a command runs -/
def Reg.MGR_CMD_BUSY : Fld := ⟨0x040, 31, 31, .L, .ro, 0x0, 1, 4⟩
/-- MGR_CMD.INSTANCE (R301): Instance the command acts on -/
def Reg.MGR_CMD_INSTANCE : Fld := ⟨0x040, 25, 16, .L, .rw, 0x0, 1, 4⟩
/-- MGR_CMD.GAP_LOG (R301): EXPORT: nonce gap exponent under R294 -/
def Reg.MGR_CMD_GAP_LOG : Fld := ⟨0x040, 15, 12, .L, .rw, 0x0, 1, 4⟩
/-- MGR_CMD.FMT (R301): EXPORT: image format -/
def Reg.MGR_CMD_FMT : Fld := ⟨0x040, 11, 8, .L, .rw, 0x0, 1, 4⟩
/-- MGR_CMD.OP (R301): Nonzero write starts the command of R299; reads the last OP -/
def Reg.MGR_CMD_OP : Fld := ⟨0x040, 7, 0, .L, .rw, 0x0, 1, 4⟩
/-- MGR_PARAM.PARAM (R301): Command parameter -/
def Reg.MGR_PARAM_PARAM : Fld := ⟨0x044, 31, 0, .L, .rw, 0x0, 1, 4⟩
/-- MGR_IN_ADDR_LO.ADDR_LO (R301): Host address [31:0] of the input or output buffer -/
def Reg.MGR_IN_ADDR_LO_ADDR_LO : Fld := ⟨0x048, 31, 0, .L, .rw, 0x0, 1, 4⟩
/-- MGR_OUT_ADDR_LO.ADDR_LO (R301): Host address [31:0] of the input or output buffer -/
def Reg.MGR_OUT_ADDR_LO_ADDR_LO : Fld := ⟨0x054, 31, 0, .L, .rw, 0x0, 1, 4⟩
/-- MGR_IN_ADDR_HI.ADDR_HI (R301): Host address [63:32] -/
def Reg.MGR_IN_ADDR_HI_ADDR_HI : Fld := ⟨0x04C, 31, 0, .L, .rw, 0x0, 1, 4⟩
/-- MGR_OUT_ADDR_HI.ADDR_HI (R301): Host address [63:32] -/
def Reg.MGR_OUT_ADDR_HI_ADDR_HI : Fld := ⟨0x058, 31, 0, .L, .rw, 0x0, 1, 4⟩
/-- MGR_IN_LEN.LEN (R301): Buffer length in bytes -/
def Reg.MGR_IN_LEN_LEN : Fld := ⟨0x050, 31, 0, .L, .rw, 0x0, 1, 4⟩
/-- MGR_OUT_LEN.LEN (R301): Buffer length in bytes -/
def Reg.MGR_OUT_LEN_LEN : Fld := ⟨0x05C, 31, 0, .L, .rw, 0x0, 1, 4⟩
/-- MGR_RESULT.INFO (R301): Under R300 -/
def Reg.MGR_RESULT_INFO : Fld := ⟨0x060, 31, 16, .L, .ro, 0x0, 1, 4⟩
/-- MGR_RESULT.CODE (R301): Result of the last command -/
def Reg.MGR_RESULT_CODE : Fld := ⟨0x060, 7, 0, .L, .ro, 0x0, 1, 4⟩
/-- MGR_RES_VAL.VAL (R301): Value under R299 -/
def Reg.MGR_RES_VAL_VAL : Fld := ⟨0x064, 31, 0, .L, .ro, 0x0, 1, 4⟩
/-- MGR_EVENT.VALID (R301): 1: the entry is an event -/
def Reg.MGR_EVENT_VALID : Fld := ⟨0x068, 31, 31, .L, .ro, 0x0, 1, 4⟩
/-- MGR_EVENT.LOST (R301): 1: events were lost before this one -/
def Reg.MGR_EVENT_LOST : Fld := ⟨0x068, 30, 30, .L, .ro, 0x0, 1, 4⟩
/-- MGR_EVENT.INSTANCE (R301): Instance concerned -/
def Reg.MGR_EVENT_INSTANCE : Fld := ⟨0x068, 25, 16, .L, .ro, 0x0, 1, 4⟩
/-- MGR_EVENT.STATE (R301): Instance state after the event -/
def Reg.MGR_EVENT_STATE : Fld := ⟨0x068, 10, 8, .L, .ro, 0x0, 1, 4⟩
/-- MGR_EVENT.KIND (R301): 1 STATE_CHG, 2 MB_IN, 3 MB_ACK, 4 FUNC_RESET under R66, 5 CMD_DONE -/
def Reg.MGR_EVENT_KIND : Fld := ⟨0x068, 7, 0, .L, .ro, 0x0, 1, 4⟩
/-- MGR_SEL.INSTANCE (R301): Instance shown at 0x070–0x0FF -/
def Reg.MGR_SEL_INSTANCE : Fld := ⟨0x06C, 9, 0, .L, .rw, 0x0, 1, 4⟩
/-- MGR_SEL_STAT.EXPORTED (R301): 1: the instance has been exported -/
def Reg.MGR_SEL_STAT_EXPORTED : Fld := ⟨0x070, 31, 31, .L, .ro, 0x0, 1, 4⟩
/-- MGR_SEL_STAT.SQ_LIMIT (R301): 1–16; 0 when UNUSED -/
def Reg.MGR_SEL_STAT_SQ_LIMIT : Fld := ⟨0x070, 20, 16, .L, .ro, 0x0, 1, 4⟩
/-- MGR_SEL_STAT.STATE (R301): State under R276 -/
def Reg.MGR_SEL_STAT_STATE : Fld := ⟨0x070, 2, 0, .L, .ro, 0x0, 1, 4⟩
/-- MGR_SEL_USED.RECORDS (R301): Records held -/
def Reg.MGR_SEL_USED_RECORDS : Fld := ⟨0x074, 26, 0, .L, .ro, 0x0, 1, 4⟩
/-- MGR_MB_CTL.SEND (R301): Write 1: make the inbound mailbox full -/
def Reg.MGR_MB_CTL_SEND : Fld := ⟨0x078, 31, 31, .L, .wo, 0x0, 1, 4⟩
/-- MGR_MB_CTL.IN_FULL (R301): 1: outbound mailbox full; write 1 to empty it -/
def Reg.MGR_MB_CTL_IN_FULL : Fld := ⟨0x078, 17, 17, .L, .rw1c, 0x0, 1, 4⟩
/-- MGR_MB_CTL.OUT_FULL (R301): 1: inbound mailbox not yet emptied by the tenant -/
def Reg.MGR_MB_CTL_OUT_FULL : Fld := ⟨0x078, 16, 16, .L, .ro, 0x0, 1, 4⟩
/-- MGR_SEL_QUOTA.RECORDS (R301): Record quota -/
def Reg.MGR_SEL_QUOTA_RECORDS : Fld := ⟨0x07C, 26, 0, .L, .ro, 0x0, 1, 4⟩
/-- MGR_MB_OUT.WORD (R301): Inbound mailbox, word k [31:0] at 0x080 + 8k, [63:32] at 0x084 + 8k -/
def Reg.MGR_MB_OUT_WORD : Fld := ⟨0x080, 31, 0, .L, .rw, 0x0, 16, 4⟩
/-- MGR_MB_IN.WORD (R301): Outbound mailbox, in the same layout -/
def Reg.MGR_MB_IN_WORD : Fld := ⟨0x0C0, 31, 0, .L, .ro, 0x0, 16, 4⟩
/-- INST_STATE.SQ_LIMIT (R302): Queue quota, 1–16 -/
def Reg.INST_STATE_SQ_LIMIT : Fld := ⟨0x040, 20, 16, .L, .ro, 0x0, 1, 4⟩
/-- INST_STATE.STATE (R302): State under R276 -/
def Reg.INST_STATE_STATE : Fld := ⟨0x040, 2, 0, .L, .ro, 0x0, 1, 4⟩
/-- INST_QUOTA.RECORDS (R302): Record quota -/
def Reg.INST_QUOTA_RECORDS : Fld := ⟨0x044, 26, 0, .L, .ro, 0x0, 1, 4⟩
/-- INST_USED.RECORDS (R302): Records held -/
def Reg.INST_USED_RECORDS : Fld := ⟨0x048, 26, 0, .L, .ro, 0x0, 1, 4⟩
/-- INST_MB_CTL.SEND (R302): Write 1: make the outbound mailbox full -/
def Reg.INST_MB_CTL_SEND : Fld := ⟨0x04C, 31, 31, .L, .wo, 0x0, 1, 4⟩
/-- INST_MB_CTL.IN_FULL (R302): 1: inbound mailbox full; write 1 to empty it -/
def Reg.INST_MB_CTL_IN_FULL : Fld := ⟨0x04C, 17, 17, .L, .rw1c, 0x0, 1, 4⟩
/-- INST_MB_CTL.OUT_FULL (R302): 1: outbound mailbox not yet emptied by the manager -/
def Reg.INST_MB_CTL_OUT_FULL : Fld := ⟨0x04C, 16, 16, .L, .ro, 0x0, 1, 4⟩
/-- INST_MB_IN.WORD (R302): Inbound mailbox, word k [31:0] at 0x080 + 8k, [63:32] at 0x084 + 8k -/
def Reg.INST_MB_IN_WORD : Fld := ⟨0x080, 31, 0, .L, .ro, 0x0, 16, 4⟩
/-- INST_MB_OUT.WORD (R302): Outbound mailbox, in the same layout -/
def Reg.INST_MB_OUT_WORD : Fld := ⟨0x0C0, 31, 0, .L, .rw, 0x0, 16, 4⟩
/-- OFC_CFG.LOCK_LIMIT (R324): Failures before lockout, 1–255; 0 records BAD_VALUE -/
def Reg.OFC_CFG_LOCK_LIMIT : Fld := ⟨0x040, 31, 24, .J, .rwl, 0x5, 1, 4⟩
/-- OFC_CFG.LOCK_MIN (R324): Base lockout in minutes, 1–255; 0 records BAD_VALUE -/
def Reg.OFC_CFG_LOCK_MIN : Fld := ⟨0x040, 23, 16, .J, .rwl, 0xF, 1, 4⟩
/-- OFC_CFG.CER_TIMEOUT (R324): CEREMONY limit in minutes; 0: none -/
def Reg.OFC_CFG_CER_TIMEOUT : Fld := ⟨0x040, 15, 8, .J, .rw, 0x3C, 1, 4⟩
/-- OFC_CFG.OFC1_EN (R324): 0: OFC1 held deactivated -/
def Reg.OFC_CFG_OFC1_EN : Fld := ⟨0x040, 1, 1, .J, .rw, 0x1, 1, 4⟩
/-- OFC_CFG.OFC0_EN (R324): 0: OFC0 held deactivated -/
def Reg.OFC_CFG_OFC0_EN : Fld := ⟨0x040, 0, 0, .J, .rw, 0x1, 1, 4⟩
/-- OFC_STAT.CHALLENGES (R324): Outstanding challenges, 0–4,096 -/
def Reg.OFC_STAT_CHALLENGES : Fld := ⟨0x044, 31, 16, .L, .ro, 0x0, 1, 4⟩
/-- OFC_STAT.CLASS0_READY (R324): 1: class 0 defined (reset value Actual: kept outside the register file) -/
def Reg.OFC_STAT_CLASS0_READY : Fld := ⟨0x044, 8, 8, .L, .ro, 0x0, 1, 4⟩
/-- OFC_STAT.CER_PENDING (R324): 1: CER_ENTER draining -/
def Reg.OFC_STAT_CER_PENDING : Fld := ⟨0x044, 7, 7, .L, .ro, 0x0, 1, 4⟩
/-- OFC_STAT.ACTIVE (R324): ACTIVE officers, 0–64 (reset value Actual: kept outside the register file) -/
def Reg.OFC_STAT_ACTIVE : Fld := ⟨0x044, 6, 0, .L, .ro, 0x0, 1, 4⟩
/-- OFC_CMD.BUSY (R324): 1: an operation runs -/
def Reg.OFC_CMD_BUSY : Fld := ⟨0x048, 31, 31, .L, .ro, 0x0, 1, 4⟩
/-- OFC_CMD.OP (R324): Operation of R323; 0 no operation, recording nothing; others BAD_VALUE -/
def Reg.OFC_CMD_OP : Fld := ⟨0x048, 3, 0, .L, .wo, 0x0, 1, 4⟩
/-- OFC_ARG_LO.ADDR_LO (R324): Internal address [31:3] -/
def Reg.OFC_ARG_LO_ADDR_LO : Fld := ⟨0x04C, 31, 3, .L, .rw, 0x0, 1, 4⟩
/-- OFC_TKT_LO.ADDR_LO (R324): Internal address [31:3] -/
def Reg.OFC_TKT_LO_ADDR_LO : Fld := ⟨0x054, 31, 3, .L, .rw, 0x0, 1, 4⟩
/-- OFC_ARG_HI.ADDR_HI (R324): Internal address [39:32] -/
def Reg.OFC_ARG_HI_ADDR_HI : Fld := ⟨0x050, 7, 0, .L, .rw, 0x0, 1, 4⟩
/-- OFC_TKT_HI.ADDR_HI (R324): Internal address [39:32] -/
def Reg.OFC_TKT_HI_ADDR_HI : Fld := ⟨0x058, 7, 0, .L, .rw, 0x0, 1, 4⟩
/-- OFC_TKT_LEN.LEN (R324): Ticket length; 0: none -/
def Reg.OFC_TKT_LEN_LEN : Fld := ⟨0x05C, 15, 0, .L, .rw, 0x0, 1, 4⟩
/-- OFC_RESULT.INFO (R324): INFO of the last operation -/
def Reg.OFC_RESULT_INFO : Fld := ⟨0x060, 31, 16, .L, .ro, 0x0, 1, 4⟩
/-- OFC_RESULT.STATUS (R324): Status of the last operation -/
def Reg.OFC_RESULT_STATUS : Fld := ⟨0x060, 15, 0, .L, .ro, 0x0, 1, 4⟩
/-- OFC_CARD0.OFFICER (R324): Identified officer; 0xFF: none -/
def Reg.OFC_CARD0_OFFICER : Fld := ⟨0x064, 15, 8, .L, .ro, 0xFF, 1, 4⟩
/-- OFC_CARD1.OFFICER (R324): Identified officer; 0xFF: none -/
def Reg.OFC_CARD1_OFFICER : Fld := ⟨0x068, 15, 8, .L, .ro, 0xFF, 1, 4⟩
/-- OFC_CARD0.FAULT (R324): 1: deactivated under R316 -/
def Reg.OFC_CARD0_FAULT : Fld := ⟨0x064, 4, 4, .L, .ro, 0x0, 1, 4⟩
/-- OFC_CARD1.FAULT (R324): 1: deactivated under R316 -/
def Reg.OFC_CARD1_FAULT : Fld := ⟨0x068, 4, 4, .L, .ro, 0x0, 1, 4⟩
/-- OFC_CARD0.CLASS_B (R324): 1: card runs in class B -/
def Reg.OFC_CARD0_CLASS_B : Fld := ⟨0x064, 3, 3, .L, .ro, 0x0, 1, 4⟩
/-- OFC_CARD1.CLASS_B (R324): 1: card runs in class B -/
def Reg.OFC_CARD1_CLASS_B : Fld := ⟨0x068, 3, 3, .L, .ro, 0x0, 1, 4⟩
/-- OFC_CARD0.STATE (R324): 0 inactive, 1 activating, 2 identified, 3 signing -/
def Reg.OFC_CARD0_STATE : Fld := ⟨0x064, 2, 1, .L, .ro, 0x0, 1, 4⟩
/-- OFC_CARD1.STATE (R324): 0 inactive, 1 activating, 2 identified, 3 signing -/
def Reg.OFC_CARD1_STATE : Fld := ⟨0x068, 2, 1, .L, .ro, 0x0, 1, 4⟩
/-- OFC_CARD0.PRESENT (R324): 1: card present -/
def Reg.OFC_CARD0_PRESENT : Fld := ⟨0x064, 0, 0, .L, .ro, 0x0, 1, 4⟩
/-- OFC_CARD1.PRESENT (R324): 1: card present -/
def Reg.OFC_CARD1_PRESENT : Fld := ⟨0x068, 0, 0, .L, .ro, 0x0, 1, 4⟩
/-- OFC_LOCKED_LO.LOCKED (R324): Officers 0–31 and 32–63: 1 LOCKED (reset value Actual: kept outside the register file) -/
def Reg.OFC_LOCKED_LO_LOCKED : Fld := ⟨0x06C, 31, 0, .L, .ro, 0x0, 1, 4⟩
/-- OFC_LOCKED_HI.LOCKED (R324): Officers 0–31 and 32–63: 1 LOCKED (reset value Actual: kept outside the register file) -/
def Reg.OFC_LOCKED_HI_LOCKED : Fld := ⟨0x070, 31, 0, .L, .ro, 0x0, 1, 4⟩
/-- OFC_CER.MIN_LEFT (R324): Minutes left in CEREMONY; 0 outside it or with no limit -/
def Reg.OFC_CER_MIN_LEFT : Fld := ⟨0x074, 15, 0, .L, .ro, 0x0, 1, 4⟩
/-- SYS_ROM_VER.MAJOR (R352): Boot ROM major version -/
def Reg.SYS_ROM_VER_MAJOR : Fld := ⟨0x040, 15, 8, .S, .ro, 0x1, 1, 4⟩
/-- SYS_ROM_VER.MINOR (R352): Boot ROM minor version -/
def Reg.SYS_ROM_VER_MINOR : Fld := ⟨0x040, 7, 0, .S, .ro, 0x0, 1, 4⟩
/-- SYS_BOOT_CNT_LO.CNT_LO (R352): Boot count [31:0] (reset value Actual: kept outside the register file) -/
def Reg.SYS_BOOT_CNT_LO_CNT_LO : Fld := ⟨0x044, 31, 0, .S, .ro, 0x0, 1, 4⟩
/-- SYS_BOOT_CNT_HI.CNT_HI (R352): Boot count [63:32] (reset value Actual: kept outside the register file) -/
def Reg.SYS_BOOT_CNT_HI_CNT_HI : Fld := ⟨0x048, 31, 0, .S, .ro, 0x0, 1, 4⟩
/-- SYS_BOOT_STAT.FAIL (R352): Failure code of R337, or 1 no image, 11 KAT, 12 LPDDR6 training, 13 host read, 14 memory engine -/
def Reg.SYS_BOOT_STAT_FAIL : Fld := ⟨0x04C, 23, 16, .L, .ro, 0x0, 1, 4⟩
/-- SYS_BOOT_STAT.STEP (R352): Last step of R333 completed -/
def Reg.SYS_BOOT_STAT_STEP : Fld := ⟨0x04C, 15, 12, .L, .ro, 0x0, 1, 4⟩
/-- SYS_BOOT_STAT.FALLBACK (R352): 1: the other slot was booted under R340 -/
def Reg.SYS_BOOT_STAT_FALLBACK : Fld := ⟨0x04C, 11, 11, .L, .ro, 0x0, 1, 4⟩
/-- SYS_BOOT_STAT.KAT_FAIL (R352): 1: at least one unit failed under R335 -/
def Reg.SYS_BOOT_STAT_KAT_FAIL : Fld := ⟨0x04C, 10, 10, .L, .ro, 0x0, 1, 4⟩
/-- SYS_BOOT_STAT.LOADER (R352): 1: the loader of R343 waits -/
def Reg.SYS_BOOT_STAT_LOADER : Fld := ⟨0x04C, 9, 9, .L, .ro, 0x0, 1, 4⟩
/-- SYS_BOOT_STAT.TRIAL (R352): 1: the running slot is on trial -/
def Reg.SYS_BOOT_STAT_TRIAL : Fld := ⟨0x04C, 8, 8, .L, .ro, 0x0, 1, 4⟩
/-- SYS_BOOT_STAT.SLOT (R352): Running slot: 0 A, 1 B -/
def Reg.SYS_BOOT_STAT_SLOT : Fld := ⟨0x04C, 0, 0, .L, .ro, 0x0, 1, 4⟩
/-- SYS_FW_SVN.MIN_SVN (R352): Fused minimum SVN (reset value Actual: kept outside the register file) -/
def Reg.SYS_FW_SVN_MIN_SVN : Fld := ⟨0x050, 15, 8, .L, .ro, 0x0, 1, 4⟩
/-- SYS_FW_SVN.RUN_SVN (R352): SVN of the running image -/
def Reg.SYS_FW_SVN_RUN_SVN : Fld := ⟨0x050, 7, 0, .L, .ro, 0x0, 1, 4⟩
/-- SYS_FW_MEAS.MEAS (R352): Firmware measurement; bytes 4k to 4k + 3 in register k -/
def Reg.SYS_FW_MEAS_MEAS : Fld := ⟨0x054, 31, 0, .L, .ro, 0x0, 12, 4⟩
/-- SYS_QSTAT.PER_QUARTER (R352): Byte q for quarter q: [1:0] RESETS, 0–3; [2] DISABLED; [7:3] zero -/
def Reg.SYS_QSTAT_PER_QUARTER : Fld := ⟨0x084, 31, 0, .L, .ro, 0x0, 1, 4⟩
/-- SYS_CORE_STAT.PER_CORE (R352): Bits [2c + 1:2c] for hart c: 0 off, 1 running, 2 parked, 3 in reset -/
def Reg.SYS_CORE_STAT_PER_CORE : Fld := ⟨0x088, 31, 0, .L, .ro, 0x0, 1, 4⟩
/-- SYS_WDT_CFG.TIMEOUT (R352): Watchdog timeout in ms, 1–255; 0 records BAD_VALUE -/
def Reg.SYS_WDT_CFG_TIMEOUT : Fld := ⟨0x08C, 23, 16, .J, .rwl, 0x64, 1, 4⟩
/-- SYS_WDT_CFG.EN (R352): Bit q: watchdog of quarter q enabled -/
def Reg.SYS_WDT_CFG_EN : Fld := ⟨0x08C, 3, 0, .J, .rwl, 0x0, 1, 4⟩
/-- IRQC_GCTL.EN (R365): 1: bank lines may assert under R361 -/
def Reg.IRQC_GCTL_EN : Fld := ⟨0x040, 0, 0, .L, .rw, 0x0, 1, 4⟩
/-- IRQC_GSTAT.PENDING (R365): Sources pending, 0–511 -/
def Reg.IRQC_GSTAT_PENDING : Fld := ⟨0x044, 8, 0, .L, .ro, 0x0, 1, 4⟩
/-- IRQC_RELEASE_CNT.RELEASED (R365): Claims released under R362; saturates -/
def Reg.IRQC_RELEASE_CNT_RELEASED : Fld := ⟨0x048, 31, 0, .L, .ro, 0x0, 1, 4⟩
/-- IRQC_THRESH.THRESH (R366): Bank threshold under R357 -/
def Reg.IRQC_THRESH_THRESH : Fld := ⟨0x040, 7, 0, .L, .rw, 0x0, 1, 4⟩
/-- IRQC_BAND.WIDTH (R366): Band width under R357, 1–128; other values record BAD_VALUE -/
def Reg.IRQC_BAND_WIDTH : Fld := ⟨0x044, 7, 0, .J, .rw, 0x1, 1, 4⟩
/-- IRQC_CLAIM.ID (R366): Read: claim under R359 -/
def Reg.IRQC_CLAIM_ID : Fld := ⟨0x048, 9, 0, .L, .ro, 0x3FF, 1, 4⟩
/-- IRQC_COMPLETE.ID (R366): Write: complete under R360 -/
def Reg.IRQC_COMPLETE_ID : Fld := ⟨0x04C, 9, 0, .L, .wo, 0x0, 1, 4⟩
/-- IRQC_CORE_STAT.NS_LINE (R366): Secure bank only: the non-secure line is asserted; reads 0 in the non-secure bank -/
def Reg.IRQC_CORE_STAT_NS_LINE : Fld := ⟨0x050, 18, 18, .L, .ro, 0x0, 1, 4⟩
/-- IRQC_CORE_STAT.LINE (R366): 1: this bank's line is asserted -/
def Reg.IRQC_CORE_STAT_LINE : Fld := ⟨0x050, 17, 17, .L, .ro, 0x0, 1, 4⟩
/-- IRQC_CORE_STAT.ACTIVE (R366): 1: the bank holds an active source -/
def Reg.IRQC_CORE_STAT_ACTIVE : Fld := ⟨0x050, 16, 16, .L, .ro, 0x0, 1, 4⟩
/-- IRQC_CORE_STAT.TOP (R366): PRIO of the source that a claim would now return; 0: none -/
def Reg.IRQC_CORE_STAT_TOP : Fld := ⟨0x050, 15, 8, .L, .ro, 0x0, 1, 4⟩
/-- IRQC_CORE_STAT.RUNNING (R366): Running priority -/
def Reg.IRQC_CORE_STAT_RUNNING : Fld := ⟨0x050, 7, 0, .L, .ro, 0x0, 1, 4⟩
/-- IRQC_BAD_CNT.SPURIOUS (R366): Claims returning 0x3FF; saturates -/
def Reg.IRQC_BAD_CNT_SPURIOUS : Fld := ⟨0x054, 31, 16, .L, .ro, 0x0, 1, 4⟩
/-- IRQC_BAD_CNT.BAD_COMPLETE (R366): Completions ignored under R360; saturates -/
def Reg.IRQC_BAD_CNT_BAD_COMPLETE : Fld := ⟨0x054, 15, 0, .L, .ro, 0x0, 1, 4⟩
/-- IRQC_PEND.PEND (R367): Bit j of register k: source 32k + j pending; source 0 reads 0 -/
def Reg.IRQC_PEND_PEND : Fld := ⟨0x040, 31, 0, .L, .ro, 0x0, 16, 4⟩
/-- IRQC_ACTIVE.ACTIVE (R367): Bit j of register k: source 32k + j active -/
def Reg.IRQC_ACTIVE_ACTIVE : Fld := ⟨0x080, 31, 0, .L, .ro, 0x0, 16, 4⟩
/-- IRQC_SWI_SET.ID (R367): Write: set the pending bit of software interrupt ID, 448–511 -/
def Reg.IRQC_SWI_SET_ID : Fld := ⟨0x0C0, 9, 0, .L, .wo, 0x0, 1, 4⟩
/-- IRQC_OWNER.ID (R367): Source whose owner IRQC_OWNER_STAT shows -/
def Reg.IRQC_OWNER_ID : Fld := ⟨0x0C4, 9, 0, .L, .rw, 0x0, 1, 4⟩
/-- IRQC_OWNER_STAT.VALID (R367): 1: the source is active -/
def Reg.IRQC_OWNER_STAT_VALID : Fld := ⟨0x0C8, 5, 5, .L, .ro, 0x0, 1, 4⟩
/-- IRQC_OWNER_STAT.BANK (R367): Bank of the claim: 1 secure -/
def Reg.IRQC_OWNER_STAT_BANK : Fld := ⟨0x0C8, 4, 4, .L, .ro, 0x0, 1, 4⟩
/-- IRQC_OWNER_STAT.HART (R367): Owning hart -/
def Reg.IRQC_OWNER_STAT_HART : Fld := ⟨0x0C8, 3, 0, .L, .ro, 0x0, 1, 4⟩
/-- GPIO_WORLD.WORLD (R384): Bit n: 1 pin n secure, 0 non-secure. A non-secure write changes nothing and records WORLD_DENIED -/
def Reg.GPIO_WORLD_WORLD : Fld := ⟨0x040, 7, 0, .L, .rwl, 0xFF, 1, 4⟩
/-- GPIO_DIR.OE (R384): Bit n: 1 pin n drives its output -/
def Reg.GPIO_DIR_OE : Fld := ⟨0x044, 7, 0, .L, .rw, 0x0, 1, 4⟩
/-- GPIO_OUT.OUT (R384): Bit n: level driven while OE bit n is 1 -/
def Reg.GPIO_OUT_OUT : Fld := ⟨0x048, 7, 0, .L, .rw, 0x0, 1, 4⟩
/-- GPIO_SET.SET (R384): Write 1: set OUT bit n -/
def Reg.GPIO_SET_SET : Fld := ⟨0x04C, 7, 0, .L, .wo, 0x0, 1, 4⟩
/-- GPIO_CLR.CLR (R384): Write 1: clear OUT bit n -/
def Reg.GPIO_CLR_CLR : Fld := ⟨0x050, 7, 0, .L, .wo, 0x0, 1, 4⟩
/-- GPIO_IN.IN (R384): Bit n: level at pin n after a two-stage synchroniser on the interconnect clock (reset value Actual: kept outside the register file) -/
def Reg.GPIO_IN_IN : Fld := ⟨0x054, 7, 0, .L, .ro, 0x0, 1, 4⟩
/-- GPIO_INV.INV (R384): Bit n: 1 the interrupt line of pin n is its inverted level -/
def Reg.GPIO_INV_INV : Fld := ⟨0x058, 7, 0, .L, .rw, 0x0, 1, 4⟩
/-- DMA_CTL.START (R387): Write 1: start under R377 -/
def Reg.DMA_CTL_START : Fld := ⟨0x040, 31, 31, .L, .wo, 0x0, 1, 4⟩
/-- DMA_CTL.ABORT (R387): Write 1: stop under R379 -/
def Reg.DMA_CTL_ABORT : Fld := ⟨0x040, 30, 30, .L, .wo, 0x0, 1, 4⟩
/-- DMA_CTL.REPEAT (R387): Further transfers after the first -/
def Reg.DMA_CTL_REPEAT : Fld := ⟨0x040, 15, 0, .J, .rw, 0x0, 1, 4⟩
/-- DMA_CFG.WORLD (R387): World under R380; a non-secure write of 1 records WORLD_DENIED -/
def Reg.DMA_CFG_WORLD : Fld := ⟨0x044, 15, 15, .S, .rw, 0x1, 1, 4⟩
/-- DMA_CFG.RESHAPE (R387): Mode of R381; 5–15 record BAD_VALUE -/
def Reg.DMA_CFG_RESHAPE : Fld := ⟨0x044, 11, 8, .S, .rw, 0x0, 1, 4⟩
/-- DMA_CFG.ESIZE (R387): log2 of element bytes, 0–6; 7 records BAD_VALUE -/
def Reg.DMA_CFG_ESIZE : Fld := ⟨0x044, 2, 0, .S, .rw, 0x0, 1, 4⟩
/-- DMA_SRC_LO.ADDR_LO (R387): Base address [31:0] -/
def Reg.DMA_SRC_LO_ADDR_LO : Fld := ⟨0x048, 31, 0, .J, .rw, 0x0, 1, 4⟩
/-- DMA_DST_LO.ADDR_LO (R387): Base address [31:0] -/
def Reg.DMA_DST_LO_ADDR_LO : Fld := ⟨0x050, 31, 0, .J, .rw, 0x0, 1, 4⟩
/-- DMA_SRC_HI.ADDR_HI (R387): Base address [39:32] -/
def Reg.DMA_SRC_HI_ADDR_HI : Fld := ⟨0x04C, 7, 0, .J, .rw, 0x0, 1, 4⟩
/-- DMA_DST_HI.ADDR_HI (R387): Base address [39:32] -/
def Reg.DMA_DST_HI_ADDR_HI : Fld := ⟨0x054, 7, 0, .J, .rw, 0x0, 1, 4⟩
/-- DMA_CNT.COUNT (R387): Loop count; 0 means 65,536 -/
def Reg.DMA_CNT_COUNT : Fld := ⟨0x058, 15, 0, .J, .rw, 0x1, 3, 4⟩
/-- DMA_SSTEP.STEP (R387): Signed source step, bytes -/
def Reg.DMA_SSTEP_STEP : Fld := ⟨0x064, 31, 0, .J, .rw, 0x0, 3, 4⟩
/-- DMA_DSTEP.STEP (R387): Signed destination step, bytes -/
def Reg.DMA_DSTEP_STEP : Fld := ⟨0x070, 31, 0, .J, .rw, 0x0, 3, 4⟩
/-- DMA_RESHAPE.GROUP (R387): Elements per stream, 1–4,096; 0 means 4,096 -/
def Reg.DMA_RESHAPE_GROUP : Fld := ⟨0x07C, 27, 16, .S, .rw, 0x1, 1, 4⟩
/-- DMA_RESHAPE.STREAMS (R387): 2–16; other values record BAD_VALUE -/
def Reg.DMA_RESHAPE_STREAMS : Fld := ⟨0x07C, 4, 0, .S, .rw, 0x2, 1, 4⟩
/-- DMA_STAT.ERR (R387): Code of R379 -/
def Reg.DMA_STAT_ERR : Fld := ⟨0x080, 31, 28, .L, .ro, 0x0, 1, 4⟩
/-- DMA_STAT.REMAIN (R387): Repetitions still to run -/
def Reg.DMA_STAT_REMAIN : Fld := ⟨0x080, 15, 0, .L, .ro, 0x0, 1, 4⟩
/-- DMA_ERR_ADDR_LO.ADDR_LO (R387): Error address [31:0] -/
def Reg.DMA_ERR_ADDR_LO_ADDR_LO : Fld := ⟨0x084, 31, 0, .L, .ro, 0x0, 1, 4⟩
/-- DMA_ERR_ADDR_HI.ADDR_HI (R387): Error address [39:32] -/
def Reg.DMA_ERR_ADDR_HI_ADDR_HI : Fld := ⟨0x088, 7, 0, .L, .ro, 0x0, 1, 4⟩
/-- DMA_PROGRESS.BYTES (R387): Bytes written in the current transfer; saturates -/
def Reg.DMA_PROGRESS_BYTES : Fld := ⟨0x08C, 31, 0, .L, .ro, 0x0, 1, 4⟩
/-- HT_VIOL_CNT.COUNT (R388): Refusals under R373 step 3; saturates -/
def Reg.HT_VIOL_CNT_COUNT : Fld := ⟨0x040, 31, 0, .L, .ro, 0x0, 1, 4⟩
/-- HT_VIOL_INFO.VALID (R388): 1: record held; write 1 to clear -/
def Reg.HT_VIOL_INFO_VALID : Fld := ⟨0x044, 31, 31, .L, .rw1c, 0x0, 1, 4⟩
/-- HT_VIOL_INFO.SPLIT (R388): 1: part of the transaction completed -/
def Reg.HT_VIOL_INFO_SPLIT : Fld := ⟨0x044, 30, 30, .L, .ro, 0x0, 1, 4⟩
/-- HT_VIOL_INFO.NO_REGION (R388): 1: no valid region covered the byte -/
def Reg.HT_VIOL_INFO_NO_REGION : Fld := ⟨0x044, 29, 29, .L, .ro, 0x0, 1, 4⟩
/-- HT_VIOL_INFO.KIND (R388): As R369 -/
def Reg.HT_VIOL_INFO_KIND : Fld := ⟨0x044, 28, 27, .L, .ro, 0x0, 1, 4⟩
/-- HT_VIOL_INFO.WORLD (R388): 1 secure -/
def Reg.HT_VIOL_INFO_WORLD : Fld := ⟨0x044, 26, 26, .L, .ro, 0x0, 1, 4⟩
/-- HT_VIOL_INFO.CLASS (R388): Master class -/
def Reg.HT_VIOL_INFO_CLASS : Fld := ⟨0x044, 25, 23, .L, .ro, 0x0, 1, 4⟩
/-- HT_VIOL_INFO.INDEX (R388): Master index -/
def Reg.HT_VIOL_INFO_INDEX : Fld := ⟨0x044, 22, 17, .L, .ro, 0x0, 1, 4⟩
/-- HT_VIOL_INFO.REGION (R388): Deciding region; 0 with NO_REGION -/
def Reg.HT_VIOL_INFO_REGION : Fld := ⟨0x044, 8, 0, .L, .ro, 0x0, 1, 4⟩
/-- HT_VIOL_ADDR_LO.ADDR_LO (R388): Address [31:0] -/
def Reg.HT_VIOL_ADDR_LO_ADDR_LO : Fld := ⟨0x048, 31, 0, .L, .ro, 0x0, 1, 4⟩
/-- HT_IMP_ADDR_LO.ADDR_LO (R388): Address [31:0] -/
def Reg.HT_IMP_ADDR_LO_ADDR_LO : Fld := ⟨0x054, 31, 0, .L, .ro, 0x0, 1, 4⟩
/-- HT_BUSINT_ADDR_LO.ADDR_LO (R388): Address [31:0] -/
def Reg.HT_BUSINT_ADDR_LO_ADDR_LO : Fld := ⟨0x068, 31, 0, .L, .ro, 0x0, 1, 4⟩
/-- HT_VIOL_ADDR_HI.ADDR_HI (R388): Address [39:32] -/
def Reg.HT_VIOL_ADDR_HI_ADDR_HI : Fld := ⟨0x04C, 7, 0, .L, .ro, 0x0, 1, 4⟩
/-- HT_IMP_ADDR_HI.ADDR_HI (R388): Address [39:32] -/
def Reg.HT_IMP_ADDR_HI_ADDR_HI : Fld := ⟨0x058, 7, 0, .L, .ro, 0x0, 1, 4⟩
/-- HT_BUSINT_ADDR_HI.ADDR_HI (R388): Address [39:32] -/
def Reg.HT_BUSINT_ADDR_HI_ADDR_HI : Fld := ⟨0x06C, 7, 0, .L, .ro, 0x0, 1, 4⟩
/-- HT_IMP_CNT.VALID (R388): 1: imprecise refusals counted; write 1 to clear count and record -/
def Reg.HT_IMP_CNT_VALID : Fld := ⟨0x050, 31, 31, .L, .rw1c, 0x0, 1, 4⟩
/-- HT_IMP_CNT.COUNT (R388): Refused posted writes; saturates -/
def Reg.HT_IMP_CNT_COUNT : Fld := ⟨0x050, 15, 0, .L, .ro, 0x0, 1, 4⟩
/-- HT_IMP_SRC.AT_TARGET (R388): HT_BUSINT_LOC only: 1 found at a target or the access table, 0 at a master; reserved in HT_IMP_SRC -/
def Reg.HT_IMP_SRC_AT_TARGET : Fld := ⟨0x05C, 15, 15, .L, .ro, 0x0, 1, 4⟩
/-- HT_BUSINT_LOC.AT_TARGET (R388): HT_BUSINT_LOC only: 1 found at a target or the access table, 0 at a master; reserved in HT_IMP_SRC -/
def Reg.HT_BUSINT_LOC_AT_TARGET : Fld := ⟨0x064, 15, 15, .L, .ro, 0x0, 1, 4⟩
/-- HT_IMP_SRC.CLASS (R388): Master class of the transaction -/
def Reg.HT_IMP_SRC_CLASS : Fld := ⟨0x05C, 14, 12, .L, .ro, 0x0, 1, 4⟩
/-- HT_BUSINT_LOC.CLASS (R388): Master class of the transaction -/
def Reg.HT_BUSINT_LOC_CLASS : Fld := ⟨0x064, 14, 12, .L, .ro, 0x0, 1, 4⟩
/-- HT_IMP_SRC.INDEX (R388): Master index -/
def Reg.HT_IMP_SRC_INDEX : Fld := ⟨0x05C, 11, 6, .L, .ro, 0x0, 1, 4⟩
/-- HT_BUSINT_LOC.INDEX (R388): Master index -/
def Reg.HT_BUSINT_LOC_INDEX : Fld := ⟨0x064, 11, 6, .L, .ro, 0x0, 1, 4⟩
/-- HT_IMP_SRC.WORLD (R388): 1 secure -/
def Reg.HT_IMP_SRC_WORLD : Fld := ⟨0x05C, 5, 5, .L, .ro, 0x0, 1, 4⟩
/-- HT_BUSINT_LOC.WORLD (R388): 1 secure -/
def Reg.HT_BUSINT_LOC_WORLD : Fld := ⟨0x064, 5, 5, .L, .ro, 0x0, 1, 4⟩
/-- HT_BUSINT_CNT.COUNT (R388): Mismatches under R371; saturates -/
def Reg.HT_BUSINT_CNT_COUNT : Fld := ⟨0x060, 15, 0, .L, .ro, 0x0, 1, 4⟩
/-- HT_RGN_BASE.VALID (R388): 1: region in force -/
def Reg.HT_RGN_BASE_VALID : Fld := ⟨0x100, 31, 31, .L, .rw, 0x0, 128, 16⟩
/-- HT_RGN_BASE.LOCK (R388): 1: region read-only under R374 -/
def Reg.HT_RGN_BASE_LOCK : Fld := ⟨0x100, 30, 30, .L, .rw1s, 0x0, 128, 16⟩
/-- HT_RGN_BASE.BASE (R388): First page, address [39:12] -/
def Reg.HT_RGN_BASE_BASE : Fld := ⟨0x100, 27, 0, .L, .rw, 0x0, 128, 16⟩
/-- HT_RGN_LIMIT.LIMIT (R388): Last page, address [39:12] -/
def Reg.HT_RGN_LIMIT_LIMIT : Fld := ⟨0x104, 27, 0, .L, .rw, 0x0, 128, 16⟩
/-- HT_RGN_SEC.PERM (R388): Secure and non-secure permissions of classes 0–6 under R372 -/
def Reg.HT_RGN_SEC_PERM : Fld := ⟨0x108, 20, 0, .L, .rw, 0x0, 128, 16⟩
/-- HT_RGN_NS.PERM (R388): Secure and non-secure permissions of classes 0–6 under R372 -/
def Reg.HT_RGN_NS_PERM : Fld := ⟨0x10C, 20, 0, .L, .rw, 0x0, 128, 16⟩
/-- TAMP_STAT.DISAGREE (R408): Bit s: the detectors of source s disagree now -/
def Reg.TAMP_STAT_DISAGREE : Fld := ⟨0x040, 31, 16, .L, .ro, 0x0, 1, 4⟩
/-- TAMP_STAT.ACTIVE (R408): Bit s: source s is in alarm -/
def Reg.TAMP_STAT_ACTIVE : Fld := ⟨0x040, 15, 0, .L, .ro, 0x0, 1, 4⟩
/-- TAMP_SEEN.SEEN (R408): Bit s: source s has alarmed since the bit was cleared -/
def Reg.TAMP_SEEN_SEEN : Fld := ⟨0x044, 15, 0, .L, .rw1c, 0x0, 1, 4⟩
/-- TAMP_FUSE.REQ (R408): Sources to disable under R392 -/
def Reg.TAMP_FUSE_REQ : Fld := ⟨0x048, 31, 16, .L, .wo, 0x0, 1, 4⟩
/-- TAMP_FUSE.DISABLED (R408): Sources disabled by fuse (reset value Actual: kept outside the register file) -/
def Reg.TAMP_FUSE_DISABLED : Fld := ⟨0x048, 15, 0, .L, .ro, 0x0, 1, 4⟩
/-- TAMP_MONF.COUNT (R408): MONFAULT firings; saturates -/
def Reg.TAMP_MONF_COUNT : Fld := ⟨0x04C, 31, 16, .L, .ro, 0x0, 1, 4⟩
/-- TAMP_MONF.LAST (R408): Source of the last firing -/
def Reg.TAMP_MONF_LAST : Fld := ⟨0x04C, 3, 0, .L, .ro, 0x0, 1, 4⟩
/-- TAMP_THROTTLE.COUNT (R408): THROTTLE responses executed; saturates -/
def Reg.TAMP_THROTTLE_COUNT : Fld := ⟨0x050, 31, 16, .L, .ro, 0x0, 1, 4⟩
/-- TAMP_THROTTLE.ACTIVE (R408): 1: clocks reduced under R394 -/
def Reg.TAMP_THROTTLE_ACTIVE : Fld := ⟨0x050, 0, 0, .L, .ro, 0x0, 1, 4⟩
/-- TAMP_RESP.EFFECTIVE (R408): Effective response under R395, encoded as rank − 1 (reset value Actual: kept outside the register file) -/
def Reg.TAMP_RESP_EFFECTIVE : Fld := ⟨0x040, 11, 8, .L, .ro, 0x0, 16, 4⟩
/-- TAMP_RESP.FLOOR (R408): Floor under R395 (reset value Actual: kept outside the register file) -/
def Reg.TAMP_RESP_FLOOR : Fld := ⟨0x040, 7, 4, .L, .ro, 0x0, 16, 4⟩
/-- TAMP_RESP.RESP (R408): Configured response, encoded as rank − 1. Sources 7–12 and 15 are held in the battery-backed domain: they read 0 (LOG) from the moment that domain first gets power until written, and then keep the value written. The other sources take, at each cold reset, the floor of the life-cycle state of that boot, and do not follow a later change of the floor. EFFECTIVE follows the floor in force at every moment (reset value Actual: kept outside the register file) -/
def Reg.TAMP_RESP_RESP : Fld := ⟨0x040, 3, 0, .L, .rwl, 0x0, 16, 4⟩
/-- TAMP_TEMP.TEMP_B (R408): Detector B reading, signed, in units of 1/16 °C -/
def Reg.TAMP_TEMP_TEMP_B : Fld := ⟨0x040, 31, 16, .L, .ro, 0x0, 1, 4⟩
/-- TAMP_TEMP.TEMP_A (R408): Detector A reading, in the same units -/
def Reg.TAMP_TEMP_TEMP_A : Fld := ⟨0x040, 15, 0, .L, .ro, 0x0, 1, 4⟩
/-- TAMP_VCORE.MV (R408): Rail voltage from detector A, in mV -/
def Reg.TAMP_VCORE_MV : Fld := ⟨0x044, 15, 0, .L, .ro, 0x0, 1, 4⟩
/-- TAMP_VSRAM.MV (R408): Rail voltage from detector A, in mV -/
def Reg.TAMP_VSRAM_MV : Fld := ⟨0x048, 15, 0, .L, .ro, 0x0, 1, 4⟩
/-- TAMP_VIO.MV (R408): Rail voltage from detector A, in mV -/
def Reg.TAMP_VIO_MV : Fld := ⟨0x04C, 15, 0, .L, .ro, 0x0, 1, 4⟩
/-- TAMP_CLKDEV.DEV (R408): Largest clock deviation from its commanded frequency, in units of 0.01 % -/
def Reg.TAMP_CLKDEV_DEV : Fld := ⟨0x050, 15, 0, .L, .ro, 0x0, 1, 4⟩
/-- TAMP_CNT.ODD (R408): Alarms of source 2k + 1 in register k; saturates -/
def Reg.TAMP_CNT_ODD : Fld := ⟨0x040, 31, 16, .L, .ro, 0x0, 8, 4⟩
/-- TAMP_CNT.EVEN (R408): Alarms of source 2k; saturates -/
def Reg.TAMP_CNT_EVEN : Fld := ⟨0x040, 15, 0, .L, .ro, 0x0, 8, 4⟩
/-- VIG_TIME_LO.TIME_LO (R409): Time-stamp [31:0] (reset value Actual: kept outside the register file) -/
def Reg.VIG_TIME_LO_TIME_LO : Fld := ⟨0x040, 31, 0, .L, .ro, 0x0, 1, 4⟩
/-- VIG_TIME_HI.TIME_HI (R409): Time-stamp [47:32] (reset value Actual: kept outside the register file) -/
def Reg.VIG_TIME_HI_TIME_HI : Fld := ⟨0x044, 15, 0, .L, .ro, 0x0, 1, 4⟩
/-- VIG_CFG.TIN_FILTER (R409): Filter of TAMP_IN0–3 in lantern ticks, 0–15 (reset value Actual: kept outside the register file) -/
def Reg.VIG_CFG_TIN_FILTER : Fld := ⟨0x048, 19, 16, .L, .rwl, 0x0, 1, 4⟩
/-- VIG_CFG.TIN_POL (R409): Bit n: the alarm level of TAMP_INn. 0: open (a switch to GND is normally closed); 1: pulled to GND (reset value Actual: kept outside the register file) -/
def Reg.VIG_CFG_TIN_POL : Fld := ⟨0x048, 15, 12, .L, .rwl, 0x0, 1, 4⟩
/-- VIG_CFG.TIN_ARM (R409): Bit n: TAMP_INn armed (reset value Actual: kept outside the register file) -/
def Reg.VIG_CFG_TIN_ARM : Fld := ⟨0x048, 11, 8, .L, .rwl, 0x0, 1, 4⟩
/-- VIG_CFG.ARM_B (R409): Loop B armed, under R396 (reset value Actual: kept outside the register file) -/
def Reg.VIG_CFG_ARM_B : Fld := ⟨0x048, 1, 1, .L, .rwl, 0x0, 1, 4⟩
/-- VIG_CFG.ARM_A (R409): Loop A armed, under R396 (reset value Actual: kept outside the register file) -/
def Reg.VIG_CFG_ARM_A : Fld := ⟨0x048, 0, 0, .L, .rwl, 0x0, 1, 4⟩
/-- VIG_STAT.ZEROISED (R409): Flag of R401 (reset value Actual: kept outside the register file) -/
def Reg.VIG_STAT_ZEROISED : Fld := ⟨0x04C, 31, 31, .L, .ro, 0x0, 1, 4⟩
/-- VIG_STAT.LANT_POR (R409): 1: the domain has lost power since the last boot (reset value Actual: kept outside the register file) -/
def Reg.VIG_STAT_LANT_POR : Fld := ⟨0x04C, 30, 30, .L, .ro, 0x0, 1, 4⟩
/-- VIG_STAT.SUPPLY (R409): 0 internal rail, 1 VBAT, 2 cell; 3 not reported (reset value Actual: kept outside the register file) -/
def Reg.VIG_STAT_SUPPLY : Fld := ⟨0x04C, 29, 28, .L, .ro, 0x0, 1, 4⟩
/-- VIG_STAT.LOST (R409): Latch entries lost under R405 (reset value Actual: kept outside the register file) -/
def Reg.VIG_STAT_LOST : Fld := ⟨0x04C, 23, 16, .L, .ro, 0x0, 1, 4⟩
/-- VIG_STAT.COUNT (R409): Valid latch entries, 0–16 (reset value Actual: kept outside the register file) -/
def Reg.VIG_STAT_COUNT : Fld := ⟨0x04C, 12, 8, .L, .ro, 0x0, 1, 4⟩
/-- VIG_STAT.RESETS (R409): RESET responses in the last 60 s, under R397 (reset value Actual: kept outside the register file) -/
def Reg.VIG_STAT_RESETS : Fld := ⟨0x04C, 2, 0, .L, .ro, 0x0, 1, 4⟩
/-- VIG_LOOP_A.REF (R409): Delay learned at the last arming under R396, in ns; 0 before the first arming after the battery-backed domain gets power; kept while disarmed (reset value Actual: kept outside the register file) -/
def Reg.VIG_LOOP_A_REF : Fld := ⟨0x050, 31, 16, .L, .ro, 0x0, 1, 4⟩
/-- VIG_LOOP_B.REF (R409): Delay learned at the last arming under R396, in ns; 0 before the first arming after the battery-backed domain gets power; kept while disarmed (reset value Actual: kept outside the register file) -/
def Reg.VIG_LOOP_B_REF : Fld := ⟨0x054, 31, 16, .L, .ro, 0x0, 1, 4⟩
/-- VIG_LOOP_A.RES (R409): Last measured loop resistance in Ω; 0xFFFF when open (reset value Actual: kept outside the register file) -/
def Reg.VIG_LOOP_A_RES : Fld := ⟨0x050, 15, 0, .L, .ro, 0x0, 1, 4⟩
/-- VIG_LOOP_B.RES (R409): Last measured loop resistance in Ω; 0xFFFF when open (reset value Actual: kept outside the register file) -/
def Reg.VIG_LOOP_B_RES : Fld := ⟨0x054, 15, 0, .L, .ro, 0x0, 1, 4⟩
/-- VIG_CELL.VBAT (R409): VBAT in mV; 0 when absent -/
def Reg.VIG_CELL_VBAT : Fld := ⟨0x058, 31, 16, .L, .ro, 0x0, 1, 4⟩
/-- VIG_CELL.CELL (R409): Cell voltage in mV (reset value Actual: kept outside the register file) -/
def Reg.VIG_CELL_CELL : Fld := ⟨0x058, 15, 0, .L, .ro, 0x0, 1, 4⟩
/-- VIG_LATCH.WORD (R409): Entry k under R405: bits [31:0] at 0x080 + 8k, bits [63:32] at 0x084 + 8k (reset value Actual: kept outside the register file) -/
def Reg.VIG_LATCH_WORD : Fld := ⟨0x080, 31, 0, .L, .ro, 0x0, 32, 4⟩
/-- LC_STATE.LOCKED (R427): 1: LOCKED under R411 (reset value Actual: kept outside the register file) -/
def Reg.LC_STATE_LOCKED : Fld := ⟨0x040, 31, 31, .L, .ro, 0x0, 1, 4⟩
/-- LC_STATE.ROLLED (R427): 1: rolled forward at this boot (reset value Actual: kept outside the register file) -/
def Reg.LC_STATE_ROLLED : Fld := ⟨0x040, 30, 30, .L, .ro, 0x0, 1, 4⟩
/-- LC_STATE.WIPE_DONE (R427): SCRAP wipe complete (reset value Actual: kept outside the register file) -/
def Reg.LC_STATE_WIPE_DONE : Fld := ⟨0x040, 29, 29, .L, .ro, 0x0, 1, 4⟩
/-- LC_STATE.JOURNAL (R427): 1: a journal entry is held (reset value Actual: kept outside the register file) -/
def Reg.LC_STATE_JOURNAL : Fld := ⟨0x040, 28, 28, .L, .ro, 0x0, 1, 4⟩
/-- LC_STATE.COPY_DIFF (R427): Bit k: copy k differs from the vote (reset value Actual: kept outside the register file) -/
def Reg.LC_STATE_COPY_DIFF : Fld := ⟨0x040, 26, 24, .L, .ro, 0x0, 1, 4⟩
/-- LC_STATE.STATE (R427): State byte under R410 (reset value Actual: kept outside the register file) -/
def Reg.LC_STATE_STATE : Fld := ⟨0x040, 7, 0, .L, .ro, 0x0, 1, 4⟩
/-- LC_CMD.BUSY (R427): 1: an operation runs -/
def Reg.LC_CMD_BUSY : Fld := ⟨0x044, 31, 31, .L, .ro, 0x0, 1, 4⟩
/-- LC_CMD.ROW (R427): TOKEN_SET row, 0–7 -/
def Reg.LC_CMD_ROW : Fld := ⟨0x044, 7, 4, .L, .rw, 0x0, 1, 4⟩
/-- LC_CMD.OP (R427): 1 TRANSITION; 2 TOKEN_SET; 0 no operation, recording nothing, so that ROW may be written alone; others BAD_VALUE -/
def Reg.LC_CMD_OP : Fld := ⟨0x044, 3, 0, .L, .wo, 0x0, 1, 4⟩
/-- LC_TARGET.TARGET (R427): Target state byte -/
def Reg.LC_TARGET_TARGET : Fld := ⟨0x048, 7, 0, .L, .rw, 0x0, 1, 4⟩
/-- LC_ARG_LO.ADDR_LO (R427): Token or digest address [31:3] -/
def Reg.LC_ARG_LO_ADDR_LO : Fld := ⟨0x04C, 31, 3, .L, .rw, 0x0, 1, 4⟩
/-- LC_ARG_HI.ADDR_HI (R427): Address [39:32] -/
def Reg.LC_ARG_HI_ADDR_HI : Fld := ⟨0x050, 7, 0, .L, .rw, 0x0, 1, 4⟩
/-- LC_RESULT.CODE (R427): 0 DONE, 1 STATE, 2 TOKEN, 3 POWER, 4 PRECOND, 5 ROW, 6 MODE -/
def Reg.LC_RESULT_CODE : Fld := ⟨0x054, 3, 0, .L, .ro, 0x0, 1, 4⟩
/-- LC_ROWS.PROGRAMMED (R427): Bit r: row r programmed (reset value Actual: kept outside the register file) -/
def Reg.LC_ROWS_PROGRAMMED : Fld := ⟨0x058, 7, 0, .L, .ro, 0x0, 1, 4⟩
/-- DBG_CFG.SBA_SECURE (R428): 1: system bus access secure while SID is 1 -/
def Reg.DBG_CFG_SBA_SECURE : Fld := ⟨0x040, 5, 5, .L, .rw, 0x0, 1, 4⟩
/-- DBG_CFG.CLEAR_GRANT (R428): Write 1: end the grant under R424 -/
def Reg.DBG_CFG_CLEAR_GRANT : Fld := ⟨0x040, 4, 4, .L, .wo, 0x0, 1, 4⟩
/-- DBG_CFG.SID (R428): RAW and TEST only, under R422 -/
def Reg.DBG_CFG_SID : Fld := ⟨0x040, 3, 3, .L, .rw, 0x0, 1, 4⟩
/-- DBG_CFG.SNID (R428): RAW and TEST only, under R422 -/
def Reg.DBG_CFG_SNID : Fld := ⟨0x040, 2, 2, .L, .rw, 0x0, 1, 4⟩
/-- DBG_CFG.NSID (R428): Non-secure invasive -/
def Reg.DBG_CFG_NSID : Fld := ⟨0x040, 1, 1, .L, .rw, 0x0, 1, 4⟩
/-- DBG_CFG.NSNID (R428): Non-secure non-invasive -/
def Reg.DBG_CFG_NSNID : Fld := ⟨0x040, 0, 0, .L, .rw, 0x0, 1, 4⟩
/-- DBG_STAT.TAINT (R428): Debug-taint bit (reset value Actual: kept outside the register file) -/
def Reg.DBG_STAT_TAINT : Fld := ⟨0x044, 31, 31, .L, .ro, 0x0, 1, 4⟩
/-- DBG_STAT.ENABLES (R428): Enables in force, under R421 (reset value Actual: kept outside the register file) -/
def Reg.DBG_STAT_ENABLES : Fld := ⟨0x044, 19, 16, .L, .ro, 0x0, 1, 4⟩
/-- DBG_STAT.GRANT (R428): 1: a grant is held (reset value Actual: kept outside the register file) -/
def Reg.DBG_STAT_GRANT : Fld := ⟨0x044, 8, 8, .L, .ro, 0x0, 1, 4⟩
/-- DBG_STAT.SID_NEXT (R428): 1: SID granted from the next boot -/
def Reg.DBG_STAT_SID_NEXT : Fld := ⟨0x044, 2, 2, .L, .ro, 0x0, 1, 4⟩
/-- DBG_STAT.ATTACHED (R428): 1: the debug module is active -/
def Reg.DBG_STAT_ATTACHED : Fld := ⟨0x044, 1, 1, .L, .ro, 0x0, 1, 4⟩
/-- DBG_STAT.DENIED (R428): Sticky refusal under R426 -/
def Reg.DBG_STAT_DENIED : Fld := ⟨0x044, 0, 0, .L, .rw1c, 0x0, 1, 4⟩
/-- DBG_GRANT_LAST_LO.LAST_LO (R428): BOOT_LAST [31:0] of the grant (reset value Actual: kept outside the register file) -/
def Reg.DBG_GRANT_LAST_LO_LAST_LO : Fld := ⟨0x048, 31, 0, .L, .ro, 0x0, 1, 4⟩
/-- DBG_GRANT_LAST_HI.LAST_HI (R428): BOOT_LAST [63:32] (reset value Actual: kept outside the register file) -/
def Reg.DBG_GRANT_LAST_HI_LAST_HI : Fld := ⟨0x04C, 31, 0, .L, .ro, 0x0, 1, 4⟩
/-- DBG_DENY_CNT.COUNT (R428): Refused debug accesses; saturates; cleared at cold reset -/
def Reg.DBG_DENY_CNT_COUNT : Fld := ⟨0x050, 31, 0, .L, .ro, 0x0, 1, 4⟩
/-- EVR_CFG.NS_MASK (R442): Channels visible to the non-secure port -/
def Reg.EVR_CFG_NS_MASK : Fld := ⟨0x040, 31, 16, .L, .rwl, 0xF000, 1, 4⟩
/-- EVR_CFG.HOST_MASK (R442): Channels visible to the host port -/
def Reg.EVR_CFG_HOST_MASK : Fld := ⟨0x040, 15, 0, .L, .rwl, 0x77, 1, 4⟩
/-- EVR_SEQ_LO.SEQ (R442): Next SEQ to be assigned (reset value Actual: kept outside the register file) -/
def Reg.EVR_SEQ_LO_SEQ : Fld := ⟨0x044, 31, 0, .L, .ro, 0x0, 1, 4⟩
/-- EVR_SEQ_HI.SEQ (R442): Next SEQ to be assigned (reset value Actual: kept outside the register file) -/
def Reg.EVR_SEQ_HI_SEQ : Fld := ⟨0x048, 31, 0, .L, .ro, 0x0, 1, 4⟩
/-- EVR_WR_CTL.GO (R442): Write 1: commit under R439 -/
def Reg.EVR_WR_CTL_GO : Fld := ⟨0x04C, 31, 31, .L, .wo, 0x0, 1, 4⟩
/-- EVR_WR_CTL.BUSY (R442): 1: a write is in progress -/
def Reg.EVR_WR_CTL_BUSY : Fld := ⟨0x04C, 30, 30, .L, .ro, 0x0, 1, 4⟩
/-- EVR_WR_CTL.CHANNEL (R442): Target channel -/
def Reg.EVR_WR_CTL_CHANNEL : Fld := ⟨0x04C, 27, 24, .L, .rw, 0x0, 1, 4⟩
/-- EVR_WR_CTL.SEVERITY (R442): Severity -/
def Reg.EVR_WR_CTL_SEVERITY : Fld := ⟨0x04C, 18, 16, .L, .rw, 0x0, 1, 4⟩
/-- EVR_WR_CTL.CODE (R442): Code -/
def Reg.EVR_WR_CTL_CODE : Fld := ⟨0x04C, 15, 0, .L, .rw, 0x0, 1, 4⟩
/-- EVR_WR_ADDR_LO.ADDR_LO (R442): Payload address [31:3] -/
def Reg.EVR_WR_ADDR_LO_ADDR_LO : Fld := ⟨0x050, 31, 3, .L, .rw, 0x0, 1, 4⟩
/-- EVR_WR_ADDR_HI.ADDR_HI (R442): Payload address [39:32] -/
def Reg.EVR_WR_ADDR_HI_ADDR_HI : Fld := ⟨0x054, 7, 0, .L, .rw, 0x0, 1, 4⟩
/-- EVR_WR_LEN.LEN (R442): Payload bytes, 0–1,008; other values record BAD_VALUE -/
def Reg.EVR_WR_LEN_LEN : Fld := ⟨0x058, 9, 0, .L, .rw, 0x0, 1, 4⟩
/-- EVR_CLR_CTL.GO (R442): Write 1: clear under R438 -/
def Reg.EVR_CLR_CTL_GO : Fld := ⟨0x05C, 31, 31, .L, .wo, 0x0, 1, 4⟩
/-- EVR_CLR_CTL.MASK (R442): Channels to clear -/
def Reg.EVR_CLR_CTL_MASK : Fld := ⟨0x05C, 15, 0, .L, .rw, 0x0, 1, 4⟩
/-- EVR_CLR_TKT_LO.ADDR_LO (R442): Ticket address [31:3], secure memory -/
def Reg.EVR_CLR_TKT_LO_ADDR_LO : Fld := ⟨0x060, 31, 3, .L, .rw, 0x0, 1, 4⟩
/-- EVR_CLR_TKT_HI.ADDR_HI (R442): Ticket address [39:32] -/
def Reg.EVR_CLR_TKT_HI_ADDR_HI : Fld := ⟨0x064, 7, 0, .L, .rw, 0x0, 1, 4⟩
/-- EVR_CLR_TKT_LEN.LEN (R442): Ticket length; 0: none -/
def Reg.EVR_CLR_TKT_LEN_LEN : Fld := ⟨0x068, 15, 0, .L, .rw, 0x0, 1, 4⟩
/-- EVR_CLR_RESULT.INFO (R442): INFO of the last clear -/
def Reg.EVR_CLR_RESULT_INFO : Fld := ⟨0x06C, 31, 16, .L, .ro, 0x0, 1, 4⟩
/-- EVR_CLR_RESULT.STATUS (R442): Status of the last clear -/
def Reg.EVR_CLR_RESULT_STATUS : Fld := ⟨0x06C, 15, 0, .L, .ro, 0x0, 1, 4⟩
/-- EVR_DROP.SEV (R442): Drops under R433; saturates -/
def Reg.EVR_DROP_SEV : Fld := ⟨0x070, 31, 16, .L, .ro, 0x0, 1, 4⟩
/-- EVR_DROP.RATE (R442): Drops under R435; saturates -/
def Reg.EVR_DROP_RATE : Fld := ⟨0x070, 15, 0, .L, .ro, 0x0, 1, 4⟩
/-- EVR_BUF.KIB (R442): Buffer content in KiB, rounded up, 0–64 -/
def Reg.EVR_BUF_KIB : Fld := ⟨0x074, 6, 0, .L, .ro, 0x0, 1, 4⟩
/-- EVR_FW_RATE.RATE (R442): Firmware refill rate per code, records per second; 0: no limit -/
def Reg.EVR_FW_RATE_RATE : Fld := ⟨0x078, 31, 16, .L, .rwl, 0xA, 1, 4⟩
/-- EVR_FW_RATE.BURST (R442): Firmware burst per code, 1–65,535; 0 records BAD_VALUE -/
def Reg.EVR_FW_RATE_BURST : Fld := ⟨0x078, 15, 0, .L, .rwl, 0x10, 1, 4⟩
/-- EVR_RD_NEXT.VALID (R442): Read: copy under R436; 1: a record was copied -/
def Reg.EVR_RD_NEXT_VALID : Fld := ⟨0x040, 31, 31, .L, .ro, 0x0, 1, 4⟩
/-- EVR_RD_PREV.VALID (R442): Read: copy under R436; 1: a record was copied -/
def Reg.EVR_RD_PREV_VALID : Fld := ⟨0x044, 31, 31, .L, .ro, 0x0, 1, 4⟩
/-- EVR_RD_NEXT.LEN8 (R442): LEN8 of the copied record -/
def Reg.EVR_RD_NEXT_LEN8 : Fld := ⟨0x040, 7, 0, .L, .ro, 0x0, 1, 4⟩
/-- EVR_RD_PREV.LEN8 (R442): LEN8 of the copied record -/
def Reg.EVR_RD_PREV_LEN8 : Fld := ⟨0x044, 7, 0, .L, .ro, 0x0, 1, 4⟩
/-- EVR_RD_CUR_LO.CUR (R442): Cursor [31:0] and [63:32]; written by the secure and non-secure ports only; a write to CUR_HI sets the cursor (reset value Actual: kept outside the register file) -/
def Reg.EVR_RD_CUR_LO_CUR : Fld := ⟨0x048, 31, 0, .L, .rw, 0x0, 1, 4⟩
/-- EVR_RD_CUR_HI.CUR (R442): Cursor [31:0] and [63:32]; written by the secure and non-secure ports only; a write to CUR_HI sets the cursor (reset value Actual: kept outside the register file) -/
def Reg.EVR_RD_CUR_HI_CUR : Fld := ⟨0x04C, 31, 0, .L, .rw, 0x0, 1, 4⟩
/-- EVR_RD_REC.WORD (R442): Copied record, header at 0x400; bytes beyond LEN8 read zero -/
def Reg.EVR_RD_REC_WORD : Fld := ⟨0x400, 31, 0, .L, .ro, 0x0, 256, 4⟩
/-- SYS_MODE.DENY (R467): Reason of the last refused MODE_REQUEST under R448 -/
def Reg.SYS_MODE_DENY : Fld := ⟨0x090, 23, 16, .L, .ro, 0x0, 1, 4⟩
/-- SYS_MODE.PREV (R467): Previous mode code -/
def Reg.SYS_MODE_PREV : Fld := ⟨0x090, 11, 8, .L, .ro, 0x0, 1, 4⟩
/-- SYS_MODE.MODE (R467): Mode code under R446 -/
def Reg.SYS_MODE_MODE : Fld := ⟨0x090, 3, 0, .L, .ro, 0x2, 1, 4⟩
/-- SYS_MODE_CNT.CHANGES (R467): Mode changes since cold reset; wraps -/
def Reg.SYS_MODE_CNT_CHANGES : Fld := ⟨0x094, 31, 0, .L, .ro, 0x0, 1, 4⟩
/-- PWR_QREQ.REQ (R468): Bits [2q + 1:2q]: request for quarter q, 00 ON, 01 GATED, 10 OFF; 11 records BAD_VALUE -/
def Reg.PWR_QREQ_REQ : Fld := ⟨0x040, 7, 0, .L, .rw, 0x0, 1, 4⟩
/-- PWR_QSTAT.PER_QUARTER (R468): Byte q: [1:0] state; [2] PENDING; [3] DISABLED; [7:4] zero -/
def Reg.PWR_QSTAT_PER_QUARTER : Fld := ⟨0x044, 31, 0, .L, .ro, 0x0, 1, 4⟩
/-- PWR_SUPPLY.P12V (R468): P12V in mV -/
def Reg.PWR_SUPPLY_P12V : Fld := ⟨0x048, 31, 16, .L, .ro, 0x0, 1, 4⟩
/-- PWR_SUPPLY.PWR_FAIL (R468): 1: PWR_FAIL_N asserted -/
def Reg.PWR_SUPPLY_PWR_FAIL : Fld := ⟨0x048, 3, 3, .L, .ro, 0x0, 1, 4⟩
/-- PWR_SUPPLY.VBAT_OK (R468): 1: VBAT within range -/
def Reg.PWR_SUPPLY_VBAT_OK : Fld := ⟨0x048, 2, 2, .L, .ro, 0x0, 1, 4⟩
/-- PWR_SUPPLY.AUX_GOOD (R468): 1: P3V3_AUX good -/
def Reg.PWR_SUPPLY_AUX_GOOD : Fld := ⟨0x048, 1, 1, .L, .ro, 0x0, 1, 4⟩
/-- PWR_SUPPLY.P12V_GOOD (R468): 1: P12V good -/
def Reg.PWR_SUPPLY_P12V_GOOD : Fld := ⟨0x048, 0, 0, .L, .ro, 0x1, 1, 4⟩
/-- PWR_INPUT.POWER (R468): Module input power in units of 10 mW -/
def Reg.PWR_INPUT_POWER : Fld := ⟨0x04C, 15, 0, .L, .ro, 0x0, 1, 4⟩
/-- PWR_WAKE_TMR.TICKS (R468): Lantern ticks after DROWSE entry at which the device wakes; 0: none -/
def Reg.PWR_WAKE_TMR_TICKS : Fld := ⟨0x050, 31, 0, .L, .rw, 0x0, 1, 4⟩
/-- PWR_DROWSE.ENTRIES (R468): DROWSE entries; wraps -/
def Reg.PWR_DROWSE_ENTRIES : Fld := ⟨0x054, 31, 16, .L, .ro, 0x0, 1, 4⟩
/-- PWR_DROWSE.WAKE_SRC (R468): Last wake: 0 none, 1 host TLP, 2 interrupt, 3 monitor source, 4 timer, 5 tamper -/
def Reg.PWR_DROWSE_WAKE_SRC : Fld := ⟨0x054, 2, 0, .L, .ro, 0x0, 1, 4⟩
/-- CLK_PLL.DIE_LOCK (R469): 1: die PLL locked -/
def Reg.CLK_PLL_DIE_LOCK : Fld := ⟨0x040, 4, 4, .L, .ro, 0x0, 1, 4⟩
/-- CLK_PLL.Q_LOCK (R469): Bit q: quarter q PLL locked -/
def Reg.CLK_PLL_Q_LOCK : Fld := ⟨0x040, 3, 0, .L, .ro, 0x0, 1, 4⟩
/-- CLK_SCALE.SCALE (R469): 0 nominal, 1 throttle, 2 hold-up, 3 stopped -/
def Reg.CLK_SCALE_SCALE : Fld := ⟨0x044, 1, 0, .L, .ro, 0x0, 1, 4⟩
/-- CLK_RELOCK.COUNT (R469): PLL lock losses; saturates -/
def Reg.CLK_RELOCK_COUNT : Fld := ⟨0x048, 31, 0, .L, .ro, 0x0, 1, 4⟩
/-- HOLD_CFG.MEAS_H (R470): Hours between measurements under R464; 0: none -/
def Reg.HOLD_CFG_MEAS_H : Fld := ⟨0x040, 15, 8, .J, .rwl, 0x18, 1, 4⟩
/-- HOLD_STAT.STALE (R470): 1: no measurement for 7 days -/
def Reg.HOLD_STAT_STALE : Fld := ⟨0x044, 4, 4, .L, .ro, 0x0, 1, 4⟩
/-- HOLD_STAT.MARGIN_LOW (R470): 1: limit lowered under R462 -/
def Reg.HOLD_STAT_MARGIN_LOW : Fld := ⟨0x044, 3, 3, .L, .ro, 0x0, 1, 4⟩
/-- HOLD_STAT.MEASURING (R470): 1: a measurement runs -/
def Reg.HOLD_STAT_MEASURING : Fld := ⟨0x044, 2, 2, .L, .ro, 0x0, 1, 4⟩
/-- HOLD_STAT.LC_OK (R470): Under R461 -/
def Reg.HOLD_STAT_LC_OK : Fld := ⟨0x044, 1, 1, .L, .ro, 0x0, 1, 4⟩
/-- HOLD_STAT.READY (R470): Under R461 -/
def Reg.HOLD_STAT_READY : Fld := ⟨0x044, 0, 0, .L, .ro, 0x0, 1, 4⟩
/-- HOLD_BANK.VBANK (R470): Bank voltage in mV -/
def Reg.HOLD_BANK_VBANK : Fld := ⟨0x048, 31, 16, .L, .ro, 0x0, 1, 4⟩
/-- HOLD_BANK.VTARGET (R470): V_TARGET in mV (reset value Actual: kept outside the register file) -/
def Reg.HOLD_BANK_VTARGET : Fld := ⟨0x048, 15, 0, .L, .ro, 0x0, 1, 4⟩
/-- HOLD_CAP.ESR (R470): ESR in mΩ (reset value Actual: kept outside the register file) -/
def Reg.HOLD_CAP_ESR : Fld := ⟨0x04C, 31, 16, .L, .ro, 0x0, 1, 4⟩
/-- HOLD_CAP.CAP (R470): Capacitance in µF (reset value Actual: kept outside the register file) -/
def Reg.HOLD_CAP_CAP : Fld := ⟨0x04C, 15, 0, .L, .ro, 0x0, 1, 4⟩
/-- HOLD_ENERGY.USABLE (R470): E_USE in units of 0.01 mJ -/
def Reg.HOLD_ENERGY_USABLE : Fld := ⟨0x050, 31, 16, .L, .ro, 0x0, 1, 4⟩
/-- HOLD_ENERGY.BUDGET (R470): E_SAVE(K) in units of 0.01 mJ -/
def Reg.HOLD_ENERGY_BUDGET : Fld := ⟨0x050, 15, 0, .L, .ro, 0x1770, 1, 4⟩
/-- HOLD_LAST.DURATION (R470): Duration of the last save, in µs (reset value Actual: kept outside the register file) -/
def Reg.HOLD_LAST_DURATION : Fld := ⟨0x054, 31, 16, .L, .ro, 0x0, 1, 4⟩
/-- HOLD_LAST.MARGIN (R470): E_USE left at its end, in units of 0.01 mJ (reset value Actual: kept outside the register file) -/
def Reg.HOLD_LAST_MARGIN : Fld := ⟨0x054, 15, 0, .L, .ro, 0x0, 1, 4⟩
/-- WEAR_CFG.ALARM (R471): Alarm level in units of 0.01 %, 1–10,000; other values record BAD_VALUE -/
def Reg.WEAR_CFG_ALARM : Fld := ⟨0x040, 15, 0, .L, .rwl, 0x2328, 1, 4⟩
/-- WEAR_ALARMS.WEAR_END (R471): 1: WEAR_END under R153 (reset value Actual: kept outside the register file) -/
def Reg.WEAR_ALARMS_WEAR_END : Fld := ⟨0x044, 17, 17, .L, .ro, 0x0, 1, 4⟩
/-- WEAR_ALARMS.HOLD_MARGIN (R471): 1: hold-up margin alarm under R462 -/
def Reg.WEAR_ALARMS_HOLD_MARGIN : Fld := ⟨0x044, 16, 16, .L, .ro, 0x0, 1, 4⟩
/-- WEAR_ALARMS.ITEM (R471): Bit n: item n at or above ALARM (reset value Actual: kept outside the register file) -/
def Reg.WEAR_ALARMS_ITEM : Fld := ⟨0x044, 13, 0, .L, .ro, 0x0, 1, 4⟩
/-- WEAR_ITEM.LIFE_DAYS (R471): Item n at 0x080 + 4n: predicted days remaining under R466 -/
def Reg.WEAR_ITEM_LIFE_DAYS : Fld := ⟨0x080, 31, 16, .L, .ro, 0xFFFF, 14, 4⟩
/-- WEAR_ITEM.USED (R471): Fraction used in units of 0.01 %, under R465 (reset value Actual: kept outside the register file) -/
def Reg.WEAR_ITEM_USED : Fld := ⟨0x080, 15, 0, .L, .ro, 0x0, 14, 4⟩
/-- SYS_FLT_STAT.QDEPTH (R483): Faults queued, 0–8 -/
def Reg.SYS_FLT_STAT_QDEPTH : Fld := ⟨0x098, 27, 24, .L, .ro, 0x0, 1, 4⟩
/-- SYS_FLT_STAT.ESCALATED (R483): 1: a queue overflow escalated under R474 -/
def Reg.SYS_FLT_STAT_ESCALATED : Fld := ⟨0x098, 8, 8, .L, .ro, 0x0, 1, 4⟩
/-- SYS_FLT_STAT.INSERVICE (R483): Bit k: slot of class k + 1 occupied -/
def Reg.SYS_FLT_STAT_INSERVICE : Fld := ⟨0x098, 3, 0, .L, .ro, 0x0, 1, 4⟩
/-- SYS_FLT_CNT.QUEUED (R483): Faults queued under R474 -/
def Reg.SYS_FLT_CNT_QUEUED : Fld := ⟨0x09C, 31, 16, .L, .ro, 0x0, 1, 4⟩
/-- SYS_FLT_CNT.MERGED (R483): Faults merged under R473 -/
def Reg.SYS_FLT_CNT_MERGED : Fld := ⟨0x09C, 15, 0, .L, .ro, 0x0, 1, 4⟩
/-- SYS_FLT_LAST.SUBJECT (R483): Hart for CORE; quarter for QUARTER; tamper source ID for a tamper RESET or HALT; 0 otherwise -/
def Reg.SYS_FLT_LAST_SUBJECT : Fld := ⟨0x0A0, 23, 16, .L, .ro, 0x0, 1, 4⟩
/-- SYS_FLT_LAST.CAUSE (R483): 1 watchdog trip, 2 double trap, 3 tamper response, 4 third reset in the boot quarter, 5 QUEUE_OVERFLOW -/
def Reg.SYS_FLT_LAST_CAUSE : Fld := ⟨0x0A0, 11, 8, .L, .ro, 0x0, 1, 4⟩
/-- SYS_FLT_LAST.CLASS (R483): Class of the last fault to enter a slot, 1–4 -/
def Reg.SYS_FLT_LAST_CLASS : Fld := ⟨0x0A0, 2, 0, .L, .ro, 0x0, 1, 4⟩
/-- SYS_XBAR_DROP.REPLY (R483): Replies dropped under R481 -/
def Reg.SYS_XBAR_DROP_REPLY : Fld := ⟨0x0A4, 31, 16, .L, .ro, 0x0, 1, 4⟩
/-- SYS_XBAR_DROP.POSTED (R483): Posted writes dropped under R479 and R480 -/
def Reg.SYS_XBAR_DROP_POSTED : Fld := ⟨0x0A4, 15, 0, .L, .ro, 0x0, 1, 4⟩
/-- SYS_TRESET_CNT.RESPONSES (R483): TARGET_RESET responses issued under R479 -/
def Reg.SYS_TRESET_CNT_RESPONSES : Fld := ⟨0x0A8, 31, 0, .L, .ro, 0x0, 1, 4⟩
/-- SQ_BASE_HI.BASE_HI (R78): Ring base address [63:32] -/
def Reg.SQ_BASE_HI_BASE_HI : Fld := ⟨0x204, 31, 0, .L, .rw, 0x0, 16, 16⟩
/-- CQ_BASE_HI.BASE_HI (R78): Ring base address [63:32] -/
def Reg.CQ_BASE_HI_BASE_HI : Fld := ⟨0x304, 31, 0, .L, .rw, 0x0, 16, 16⟩
/-- IRQC_SRC_CFG.TARGET (R354): Bit c: hart c may claim the source -/
def Reg.IRQC_SRC_CFG_TARGET : Fld := ⟨0x040, 31, 16, .L, .rw, 0x0, 511, 4⟩
/-- IRQC_SRC_CFG.EN (R354): the source may be delivered -/
def Reg.IRQC_SRC_CFG_EN : Fld := ⟨0x040, 15, 15, .L, .rw, 0x0, 511, 4⟩
/-- IRQC_SRC_CFG.WORLD (R354): 1 secure source; mirrors GPIO_WORLD for 384-391 -/
def Reg.IRQC_SRC_CFG_WORLD : Fld := ⟨0x040, 14, 14, .L, .rw, 0x1, 511, 4⟩
/-- IRQC_SRC_CFG.MON (R354): monitor source under R355 -/
def Reg.IRQC_SRC_CFG_MON : Fld := ⟨0x040, 13, 13, .L, .rw1s, 0x0, 511, 4⟩
/-- IRQC_SRC_CFG.EDGE (R354): edge-triggered; per source -/
def Reg.IRQC_SRC_CFG_EDGE : Fld := ⟨0x040, 12, 12, .L, .rw, 0x0, 511, 4⟩
/-- IRQC_SRC_CFG.PRIO (R354): Priority; 0 never delivered -/
def Reg.IRQC_SRC_CFG_PRIO : Fld := ⟨0x040, 7, 0, .L, .rw, 0x0, 511, 4⟩

/-- Fields of the sys page, part 0. -/
def layoutSys0 : List Fld :=
  [Reg.SYS_ROM_VER_MAJOR, Reg.SYS_ROM_VER_MINOR, Reg.SYS_BOOT_CNT_LO_CNT_LO, Reg.SYS_BOOT_CNT_HI_CNT_HI, Reg.SYS_BOOT_STAT_FAIL, Reg.SYS_BOOT_STAT_STEP, Reg.SYS_BOOT_STAT_FALLBACK, Reg.SYS_BOOT_STAT_KAT_FAIL, Reg.SYS_BOOT_STAT_LOADER, Reg.SYS_BOOT_STAT_TRIAL, Reg.SYS_BOOT_STAT_SLOT, Reg.SYS_FW_SVN_MIN_SVN]
/-- Fields of the sys page, part 1. -/
def layoutSys1 : List Fld :=
  [Reg.SYS_FW_SVN_RUN_SVN, Reg.SYS_FW_MEAS_MEAS, Reg.SYS_QSTAT_PER_QUARTER, Reg.SYS_CORE_STAT_PER_CORE, Reg.SYS_WDT_CFG_TIMEOUT, Reg.SYS_WDT_CFG_EN, Reg.SYS_MODE_DENY, Reg.SYS_MODE_PREV, Reg.SYS_MODE_MODE, Reg.SYS_MODE_CNT_CHANGES, Reg.SYS_FLT_STAT_QDEPTH, Reg.SYS_FLT_STAT_ESCALATED]
/-- Fields of the sys page, part 2. -/
def layoutSys2 : List Fld :=
  [Reg.SYS_FLT_STAT_INSERVICE, Reg.SYS_FLT_CNT_QUEUED, Reg.SYS_FLT_CNT_MERGED, Reg.SYS_FLT_LAST_SUBJECT, Reg.SYS_FLT_LAST_CAUSE, Reg.SYS_FLT_LAST_CLASS, Reg.SYS_XBAR_DROP_REPLY, Reg.SYS_XBAR_DROP_POSTED, Reg.SYS_TRESET_CNT_RESPONSES]
/-- Every field of the sys page. -/
def layoutSys : List Fld := layoutSys0 ++ layoutSys1 ++ layoutSys2
/-- Fields of the lc page, part 0. -/
def layoutLc0 : List Fld :=
  [Reg.LC_STATE_LOCKED, Reg.LC_STATE_ROLLED, Reg.LC_STATE_WIPE_DONE, Reg.LC_STATE_JOURNAL, Reg.LC_STATE_COPY_DIFF, Reg.LC_STATE_STATE, Reg.LC_CMD_BUSY, Reg.LC_CMD_ROW, Reg.LC_CMD_OP, Reg.LC_TARGET_TARGET, Reg.LC_ARG_LO_ADDR_LO, Reg.LC_ARG_HI_ADDR_HI]
/-- Fields of the lc page, part 1. -/
def layoutLc1 : List Fld :=
  [Reg.LC_RESULT_CODE, Reg.LC_ROWS_PROGRAMMED]
/-- Every field of the lc page. -/
def layoutLc : List Fld := layoutLc0 ++ layoutLc1
/-- Fields of the dbg page, part 0. -/
def layoutDbg0 : List Fld :=
  [Reg.DBG_CFG_SBA_SECURE, Reg.DBG_CFG_CLEAR_GRANT, Reg.DBG_CFG_SID, Reg.DBG_CFG_SNID, Reg.DBG_CFG_NSID, Reg.DBG_CFG_NSNID, Reg.DBG_STAT_TAINT, Reg.DBG_STAT_ENABLES, Reg.DBG_STAT_GRANT, Reg.DBG_STAT_SID_NEXT, Reg.DBG_STAT_ATTACHED, Reg.DBG_STAT_DENIED]
/-- Fields of the dbg page, part 1. -/
def layoutDbg1 : List Fld :=
  [Reg.DBG_GRANT_LAST_LO_LAST_LO, Reg.DBG_GRANT_LAST_HI_LAST_HI, Reg.DBG_DENY_CNT_COUNT]
/-- Every field of the dbg page. -/
def layoutDbg : List Fld := layoutDbg0 ++ layoutDbg1
/-- Fields of the pwr page, part 0. -/
def layoutPwr0 : List Fld :=
  [Reg.PWR_QREQ_REQ, Reg.PWR_QSTAT_PER_QUARTER, Reg.PWR_SUPPLY_P12V, Reg.PWR_SUPPLY_PWR_FAIL, Reg.PWR_SUPPLY_VBAT_OK, Reg.PWR_SUPPLY_AUX_GOOD, Reg.PWR_SUPPLY_P12V_GOOD, Reg.PWR_INPUT_POWER, Reg.PWR_WAKE_TMR_TICKS, Reg.PWR_DROWSE_ENTRIES, Reg.PWR_DROWSE_WAKE_SRC]
/-- Every field of the pwr page. -/
def layoutPwr : List Fld := layoutPwr0
/-- Fields of the clk page, part 0. -/
def layoutClk0 : List Fld :=
  [Reg.CLK_PLL_DIE_LOCK, Reg.CLK_PLL_Q_LOCK, Reg.CLK_SCALE_SCALE, Reg.CLK_RELOCK_COUNT]
/-- Every field of the clk page. -/
def layoutClk : List Fld := layoutClk0
/-- Fields of the hold page, part 0. -/
def layoutHold0 : List Fld :=
  [Reg.HOLD_CFG_MEAS_H, Reg.HOLD_STAT_STALE, Reg.HOLD_STAT_MARGIN_LOW, Reg.HOLD_STAT_MEASURING, Reg.HOLD_STAT_LC_OK, Reg.HOLD_STAT_READY, Reg.HOLD_BANK_VBANK, Reg.HOLD_BANK_VTARGET, Reg.HOLD_CAP_ESR, Reg.HOLD_CAP_CAP, Reg.HOLD_ENERGY_USABLE, Reg.HOLD_ENERGY_BUDGET]
/-- Fields of the hold page, part 1. -/
def layoutHold1 : List Fld :=
  [Reg.HOLD_LAST_DURATION, Reg.HOLD_LAST_MARGIN]
/-- Every field of the hold page. -/
def layoutHold : List Fld := layoutHold0 ++ layoutHold1
/-- Fields of the wear page, part 0. -/
def layoutWear0 : List Fld :=
  [Reg.WEAR_CFG_ALARM, Reg.WEAR_ALARMS_WEAR_END, Reg.WEAR_ALARMS_HOLD_MARGIN, Reg.WEAR_ALARMS_ITEM, Reg.WEAR_ITEM_LIFE_DAYS, Reg.WEAR_ITEM_USED]
/-- Every field of the wear page. -/
def layoutWear : List Fld := layoutWear0
/-- Fields of the gpio page, part 0. -/
def layoutGpio0 : List Fld :=
  [Reg.GPIO_WORLD_WORLD, Reg.GPIO_DIR_OE, Reg.GPIO_OUT_OUT, Reg.GPIO_SET_SET, Reg.GPIO_CLR_CLR, Reg.GPIO_IN_IN, Reg.GPIO_INV_INV]
/-- Every field of the gpio page. -/
def layoutGpio : List Fld := layoutGpio0
/-- Fields of the tamp0 page, part 0. -/
def layoutTamp00 : List Fld :=
  [Reg.TAMP_STAT_DISAGREE, Reg.TAMP_STAT_ACTIVE, Reg.TAMP_SEEN_SEEN, Reg.TAMP_FUSE_REQ, Reg.TAMP_FUSE_DISABLED, Reg.TAMP_MONF_COUNT, Reg.TAMP_MONF_LAST, Reg.TAMP_THROTTLE_COUNT, Reg.TAMP_THROTTLE_ACTIVE]
/-- Every field of the tamp0 page. -/
def layoutTamp0 : List Fld := layoutTamp00
/-- Fields of the tamp1 page, part 0. -/
def layoutTamp10 : List Fld :=
  [Reg.TAMP_RESP_EFFECTIVE, Reg.TAMP_RESP_FLOOR, Reg.TAMP_RESP_RESP]
/-- Every field of the tamp1 page. -/
def layoutTamp1 : List Fld := layoutTamp10
/-- Fields of the tamp2 page, part 0. -/
def layoutTamp20 : List Fld :=
  [Reg.TAMP_TEMP_TEMP_B, Reg.TAMP_TEMP_TEMP_A, Reg.TAMP_VCORE_MV, Reg.TAMP_VSRAM_MV, Reg.TAMP_VIO_MV, Reg.TAMP_CLKDEV_DEV]
/-- Every field of the tamp2 page. -/
def layoutTamp2 : List Fld := layoutTamp20
/-- Fields of the tamp3 page, part 0. -/
def layoutTamp30 : List Fld :=
  [Reg.TAMP_CNT_ODD, Reg.TAMP_CNT_EVEN]
/-- Every field of the tamp3 page. -/
def layoutTamp3 : List Fld := layoutTamp30
/-- Fields of the vig page, part 0. -/
def layoutVig0 : List Fld :=
  [Reg.VIG_TIME_LO_TIME_LO, Reg.VIG_TIME_HI_TIME_HI, Reg.VIG_CFG_TIN_FILTER, Reg.VIG_CFG_TIN_POL, Reg.VIG_CFG_TIN_ARM, Reg.VIG_CFG_ARM_B, Reg.VIG_CFG_ARM_A, Reg.VIG_STAT_ZEROISED, Reg.VIG_STAT_LANT_POR, Reg.VIG_STAT_SUPPLY, Reg.VIG_STAT_LOST, Reg.VIG_STAT_COUNT]
/-- Fields of the vig page, part 1. -/
def layoutVig1 : List Fld :=
  [Reg.VIG_STAT_RESETS, Reg.VIG_LOOP_A_REF, Reg.VIG_LOOP_B_REF, Reg.VIG_LOOP_A_RES, Reg.VIG_LOOP_B_RES, Reg.VIG_CELL_VBAT, Reg.VIG_CELL_CELL, Reg.VIG_LATCH_WORD]
/-- Every field of the vig page. -/
def layoutVig : List Fld := layoutVig0 ++ layoutVig1
/-- Fields of the irqg page, part 0. -/
def layoutIrqg0 : List Fld :=
  [Reg.IRQC_GCTL_EN, Reg.IRQC_GSTAT_PENDING, Reg.IRQC_RELEASE_CNT_RELEASED]
/-- Every field of the irqg page. -/
def layoutIrqg : List Fld := layoutIrqg0
/-- Fields of the irqc page, part 0. -/
def layoutIrqc0 : List Fld :=
  [Reg.IRQC_THRESH_THRESH, Reg.IRQC_BAND_WIDTH, Reg.IRQC_CLAIM_ID, Reg.IRQC_COMPLETE_ID, Reg.IRQC_CORE_STAT_NS_LINE, Reg.IRQC_CORE_STAT_LINE, Reg.IRQC_CORE_STAT_ACTIVE, Reg.IRQC_CORE_STAT_TOP, Reg.IRQC_CORE_STAT_RUNNING, Reg.IRQC_BAD_CNT_SPURIOUS, Reg.IRQC_BAD_CNT_BAD_COMPLETE]
/-- Every field of the irqc page. -/
def layoutIrqc : List Fld := layoutIrqc0
/-- Fields of the irqs0 page, part 0. -/
def layoutIrqs00 : List Fld :=
  [Reg.IRQC_SRC_CFG_TARGET, Reg.IRQC_SRC_CFG_EN, Reg.IRQC_SRC_CFG_WORLD, Reg.IRQC_SRC_CFG_MON, Reg.IRQC_SRC_CFG_EDGE, Reg.IRQC_SRC_CFG_PRIO]
/-- Every field of the irqs0 page. -/
def layoutIrqs0 : List Fld := layoutIrqs00
/-- Fields of the irqs1 page, part 0. -/
def layoutIrqs10 : List Fld :=
  [Reg.IRQC_PEND_PEND, Reg.IRQC_ACTIVE_ACTIVE, Reg.IRQC_SWI_SET_ID, Reg.IRQC_OWNER_ID, Reg.IRQC_OWNER_STAT_VALID, Reg.IRQC_OWNER_STAT_BANK, Reg.IRQC_OWNER_STAT_HART]
/-- Every field of the irqs1 page. -/
def layoutIrqs1 : List Fld := layoutIrqs10
/-- Fields of the htr page, part 0. -/
def layoutHtr0 : List Fld :=
  [Reg.HT_RGN_BASE_VALID, Reg.HT_RGN_BASE_LOCK, Reg.HT_RGN_BASE_BASE, Reg.HT_RGN_LIMIT_LIMIT, Reg.HT_RGN_SEC_PERM, Reg.HT_RGN_NS_PERM]
/-- Fields of the htr pages. -/
def layoutHtr : List Fld := layoutHtr0
/-- Fields of the ht0 page, part 0. -/
def layoutHt00 : List Fld :=
  [Reg.HT_VIOL_CNT_COUNT, Reg.HT_VIOL_INFO_VALID, Reg.HT_VIOL_INFO_SPLIT, Reg.HT_VIOL_INFO_NO_REGION, Reg.HT_VIOL_INFO_KIND, Reg.HT_VIOL_INFO_WORLD, Reg.HT_VIOL_INFO_CLASS, Reg.HT_VIOL_INFO_INDEX, Reg.HT_VIOL_INFO_REGION, Reg.HT_VIOL_ADDR_LO_ADDR_LO, Reg.HT_IMP_ADDR_LO_ADDR_LO, Reg.HT_BUSINT_ADDR_LO_ADDR_LO]
/-- Fields of the ht0 page, part 1. -/
def layoutHt01 : List Fld :=
  [Reg.HT_VIOL_ADDR_HI_ADDR_HI, Reg.HT_IMP_ADDR_HI_ADDR_HI, Reg.HT_BUSINT_ADDR_HI_ADDR_HI, Reg.HT_IMP_CNT_VALID, Reg.HT_IMP_CNT_COUNT, Reg.HT_IMP_SRC_AT_TARGET, Reg.HT_BUSINT_LOC_AT_TARGET, Reg.HT_IMP_SRC_CLASS, Reg.HT_BUSINT_LOC_CLASS, Reg.HT_IMP_SRC_INDEX, Reg.HT_BUSINT_LOC_INDEX, Reg.HT_IMP_SRC_WORLD]
/-- Fields of the ht0 page, part 2. -/
def layoutHt02 : List Fld :=
  [Reg.HT_BUSINT_LOC_WORLD, Reg.HT_BUSINT_CNT_COUNT]
/-- Every field of the ht0 page. -/
def layoutHt0 : List Fld := layoutHt00 ++ layoutHt01 ++ layoutHt02 ++ layoutHtr
/-- Fields of the evr0 page, part 0. -/
def layoutEvr00 : List Fld :=
  [Reg.EVR_CFG_NS_MASK, Reg.EVR_CFG_HOST_MASK, Reg.EVR_SEQ_LO_SEQ, Reg.EVR_SEQ_HI_SEQ, Reg.EVR_WR_CTL_GO, Reg.EVR_WR_CTL_BUSY, Reg.EVR_WR_CTL_CHANNEL, Reg.EVR_WR_CTL_SEVERITY, Reg.EVR_WR_CTL_CODE, Reg.EVR_WR_ADDR_LO_ADDR_LO, Reg.EVR_WR_ADDR_HI_ADDR_HI, Reg.EVR_WR_LEN_LEN]
/-- Fields of the evr0 page, part 1. -/
def layoutEvr01 : List Fld :=
  [Reg.EVR_CLR_CTL_GO, Reg.EVR_CLR_CTL_MASK, Reg.EVR_CLR_TKT_LO_ADDR_LO, Reg.EVR_CLR_TKT_HI_ADDR_HI, Reg.EVR_CLR_TKT_LEN_LEN, Reg.EVR_CLR_RESULT_INFO, Reg.EVR_CLR_RESULT_STATUS, Reg.EVR_DROP_SEV, Reg.EVR_DROP_RATE, Reg.EVR_BUF_KIB, Reg.EVR_FW_RATE_RATE, Reg.EVR_FW_RATE_BURST]
/-- Every field of the evr0 page. -/
def layoutEvr0 : List Fld := layoutEvr00 ++ layoutEvr01
/-- Fields of the evr1 page, part 0. -/
def layoutEvr10 : List Fld :=
  [Reg.EVR_RD_NEXT_VALID, Reg.EVR_RD_PREV_VALID, Reg.EVR_RD_NEXT_LEN8, Reg.EVR_RD_PREV_LEN8, Reg.EVR_RD_CUR_LO_CUR, Reg.EVR_RD_CUR_HI_CUR, Reg.EVR_RD_REC_WORD]
/-- Every field of the evr1 page. -/
def layoutEvr1 : List Fld := layoutEvr10
/-- Fields of the ent page, part 0. -/
def layoutEnt0 : List Fld :=
  [Reg.ENT_CFG_FAIL_LIMIT, Reg.ENT_CFG_RETEST_MS, Reg.ENT_CFG_RETURN, Reg.ENT_STAT_POOL, Reg.ENT_STAT_SUBST, Reg.ENT_STAT_RESEED_REQ, Reg.ENT_STAT_ALT_ST, Reg.ENT_STAT_PRI_ST, Reg.ENT_STAT_STATE, Reg.ENT_FAILCNT_PRI_RCT, Reg.ENT_FAILCNT_PRI_APT, Reg.ENT_FAILCNT_ALT_RCT]
/-- Fields of the ent page, part 1. -/
def layoutEnt1 : List Fld :=
  [Reg.ENT_FAILCNT_ALT_APT, Reg.ENT_RESEEDS_RESEEDS, Reg.ENT_REQS_REQS, Reg.ENT_STALL_ERR_READS, Reg.ENT_STALL_MAX_US, Reg.ENT_DIAG_CAPTURE, Reg.ENT_DIAG_SUBST, Reg.ENT_DIAG_PAT_KIND, Reg.ENT_DIAG_SRC, Reg.ENT_CAP_BASE_LO_ADDR_LO, Reg.ENT_CAP_BASE_HI_ADDR_HI, Reg.ENT_CAP_LEN_LEN]
/-- Fields of the ent page, part 2. -/
def layoutEnt2 : List Fld :=
  [Reg.ENT_CAP_DONE_DONE, Reg.ENT_PATTERN_PATTERN]
/-- Every field of the ent page. -/
def layoutEnt : List Fld := layoutEnt0 ++ layoutEnt1 ++ layoutEnt2
/-- Fields of the drbg page, part 0. -/
def layoutDrbg0 : List Fld :=
  [Reg.DRBG_SW_CFG_SRC_Q, Reg.DRBG_SW_DATA_DATA, Reg.DRBG_SW_STAT_LEVEL, Reg.DRBG_SW_STAT_Q_USED, Reg.DRBG_SW_STAT_RESEED_REQ, Reg.DRBG_SW_STAT_ENT_EMPTY, Reg.DRBG_SW_STAT_VALID, Reg.DRBG_SW_CNT_WORDS]
/-- Every field of the drbg page. -/
def layoutDrbg : List Fld := layoutDrbg0
/-- Fields of the ks0 page, part 0. -/
def layoutKs00 : List Fld :=
  [Reg.KS_CFG_USAGE_PERIOD, Reg.KS_CMD_BUSY, Reg.KS_CMD_OP, Reg.KS_STAT_VAULT_STATE, Reg.KS_STAT_TAINT, Reg.KS_STAT_ROOT_VALID, Reg.KS_RESTORE_FRONTIER]
/-- Every field of the ks0 page. -/
def layoutKs0 : List Fld := layoutKs00
/-- Fields of the ks1 page, part 0. -/
def layoutKs10 : List Fld :=
  [Reg.KS_VLT_CNT_LO_CNT_LO, Reg.KS_VLT_CNT_HI_CNT_HI, Reg.KS_VLT_EPOCH_EPOCH, Reg.KS_VLT_LIMIT_KIB, Reg.KS_VLT_PEND_KIB, Reg.KS_VLT_SPARE_CELLS, Reg.KS_VLT_DAMAGE_MARKED, Reg.KS_VLT_DAMAGE_REPAIRED]
/-- Every field of the ks1 page. -/
def layoutKs1 : List Fld := layoutKs10
/-- Fields of the ks2 page, part 0. -/
def layoutKs20 : List Fld :=
  [Reg.KS_T0_USE_RESIDENT, Reg.KS_T0_USE_FREE, Reg.KS_POUND_LIMIT, Reg.KS_POUND_COUNT]
/-- Every field of the ks2 page. -/
def layoutKs2 : List Fld := layoutKs20
/-- Fields of the ks3 page, part 0. -/
def layoutKs30 : List Fld :=
  [Reg.KS_STAT_HIT_HIT, Reg.KS_STAT_T1_LOADS, Reg.KS_STAT_T2_LOADS, Reg.KS_STAT_BATCH_BATCHES]
/-- Every field of the ks3 page. -/
def layoutKs3 : List Fld := layoutKs30
/-- Fields of the mpe0 page, part 0. -/
def layoutMpe00 : List Fld :=
  [Reg.MPE_CFG_SCRUB_H, Reg.MPE_CFG_CE_LIMIT, Reg.MPE_CFG_SPEC_EN, Reg.MPE_STAT_WBUF_FULL, Reg.MPE_STAT_HALTING, Reg.MPE_STAT_KEYS_VALID, Reg.MPE_EPOCH_CURRENT, Reg.MPE_EPOCH_VERIFIED, Reg.MPE_EPOCH_LAG_MAX, Reg.MPE_EPOCH_LAG_STALLS, Reg.MPE_WBUF_HELD, Reg.MPE_REENC_GROUPS]
/-- Fields of the mpe0 page, part 1. -/
def layoutMpe01 : List Fld :=
  [Reg.MPE_CC_HIT_HIT, Reg.MPE_CC_MISS_MISS]
/-- Every field of the mpe0 page. -/
def layoutMpe0 : List Fld := layoutMpe00 ++ layoutMpe01
/-- Fields of the mpe1 page, part 0. -/
def layoutMpe10 : List Fld :=
  [Reg.MPE_CE_01_CH_ODD, Reg.MPE_CE_23_CH_ODD, Reg.MPE_CE_45_CH_ODD, Reg.MPE_CE_67_CH_ODD, Reg.MPE_CE_01_CH_EVEN, Reg.MPE_CE_23_CH_EVEN, Reg.MPE_CE_45_CH_EVEN, Reg.MPE_CE_67_CH_EVEN, Reg.MPE_CC_ERR_REFETCH, Reg.MPE_CC_ERR_CORR, Reg.MPE_FAIL_KIND_LEVEL, Reg.MPE_FAIL_KIND_KIND]
/-- Fields of the mpe1 page, part 1. -/
def layoutMpe11 : List Fld :=
  [Reg.MPE_FAIL_ADDR_LO_ADDR_LO, Reg.MPE_FAIL_ADDR_HI_ADDR_HI, Reg.MPE_FAIL_EPOCH_EPOCH, Reg.MPE_BLOCK_CNT_DBG, Reg.MPE_BLOCK_CNT_DMA]
/-- Every field of the mpe1 page. -/
def layoutMpe1 : List Fld := layoutMpe10 ++ layoutMpe11
/-- Fields of the sym page, part 0. -/
def layoutSym0 : List Fld :=
  [Reg.SYM_CFG_SERVE, Reg.SYM_STAT_OUT_OF_SERVICE, Reg.SYM_STAT_JOBS, Reg.SYM_BLK_LO_BLK_LO, Reg.SYM_BLK_HI_BLK_HI, Reg.SYM_ERR_CNT_FAULT, Reg.SYM_ERR_CNT_AUTH, Reg.SYM_JOB_LO_ADDR_LO, Reg.SYM_JOB_HI_ADDR_HI, Reg.SYM_JOB_CTL_GO, Reg.SYM_JOB_CTL_INSTANCE, Reg.SYM_JOB_CTL_ROMKEY]
/-- Fields of the sym page, part 1. -/
def layoutSym1 : List Fld :=
  [Reg.SYM_JOB_STAT_STATUS, Reg.SYM_JOB_STAT_BUSY, Reg.SYM_JOB_STAT_DONE, Reg.SYM_JOB_RES0_LO_RES0, Reg.SYM_JOB_RES0_HI_RES0, Reg.SYM_JOB_RES1_LO_RES1, Reg.SYM_JOB_RES1_HI_RES1, Reg.SYM_JOB_OUTLEN_OUT_LEN]
/-- Every field of the sym page. -/
def layoutSym : List Fld := layoutSym0 ++ layoutSym1
/-- Fields of the pke page, part 0. -/
def layoutPke0 : List Fld :=
  [Reg.PKE_CFG_LONG_OK, Reg.PKE_CFG_SERVE, Reg.PKE_STAT_OUT_OF_SERVICE, Reg.PKE_STAT_CUR_OPCODE, Reg.PKE_OPS_LO_OPS_LO, Reg.PKE_OPS_HI_OPS_HI, Reg.PKE_ERR_CNT_CHECK, Reg.PKE_ERR_CNT_VFAIL, Reg.PKE_RAND_KIB]
/-- The job registers of R197 that a PKE page carries (R223). -/
def layoutJob : List Fld :=
  [Reg.SYM_JOB_LO_ADDR_LO, Reg.SYM_JOB_HI_ADDR_HI, Reg.SYM_JOB_CTL_GO, Reg.SYM_JOB_CTL_INSTANCE, Reg.SYM_JOB_CTL_ROMKEY, Reg.SYM_JOB_STAT_STATUS, Reg.SYM_JOB_STAT_BUSY, Reg.SYM_JOB_STAT_DONE, Reg.SYM_JOB_RES0_LO_RES0, Reg.SYM_JOB_RES0_HI_RES0, Reg.SYM_JOB_RES1_LO_RES1, Reg.SYM_JOB_RES1_HI_RES1, Reg.SYM_JOB_OUTLEN_OUT_LEN]
/-- Every field of the pke page. -/
def layoutPke : List Fld := layoutPke0 ++ layoutJob
/-- Fields of the dma page, part 0. -/
def layoutDma0 : List Fld :=
  [Reg.DMA_CTL_START, Reg.DMA_CTL_ABORT, Reg.DMA_CTL_REPEAT, Reg.DMA_CFG_WORLD, Reg.DMA_CFG_RESHAPE, Reg.DMA_CFG_ESIZE, Reg.DMA_SRC_LO_ADDR_LO, Reg.DMA_DST_LO_ADDR_LO, Reg.DMA_SRC_HI_ADDR_HI, Reg.DMA_DST_HI_ADDR_HI, Reg.DMA_CNT_COUNT, Reg.DMA_SSTEP_STEP]
/-- Fields of the dma page, part 1. -/
def layoutDma1 : List Fld :=
  [Reg.DMA_DSTEP_STEP, Reg.DMA_RESHAPE_GROUP, Reg.DMA_RESHAPE_STREAMS, Reg.DMA_STAT_ERR, Reg.DMA_STAT_REMAIN, Reg.DMA_ERR_ADDR_LO_ADDR_LO, Reg.DMA_ERR_ADDR_HI_ADDR_HI, Reg.DMA_PROGRESS_BYTES]
/-- Every field of the dma page. -/
def layoutDma : List Fld := layoutDma0 ++ layoutDma1
/-- Fields of the cmd page, part 0. -/
def layoutCmd0 : List Fld :=
  [Reg.CMD_CFG_RT_TIMEOUT, Reg.CMD_CFG_PYP1_EN, Reg.CMD_CFG_RQ_EN, Reg.CMD_RQ_BASE_LO_BASE_LO, Reg.CMD_RCQ_BASE_LO_BASE_LO, Reg.CMD_RQ_BASE_HI_BASE_HI, Reg.CMD_RCQ_BASE_HI_BASE_HI, Reg.CMD_RQ_CFG_RCQ_SIZE, Reg.CMD_RQ_CFG_RQ_SIZE, Reg.CMD_RQ_HEAD_HEAD, Reg.CMD_RQ_TAIL_TAIL, Reg.CMD_RCQ_TAIL_TAIL]
/-- Fields of the cmd page, part 1. -/
def layoutCmd1 : List Fld :=
  [Reg.CMD_RCQ_HEAD_HEAD, Reg.CMD_STAT_FETCH_FETCHED, Reg.CMD_STAT_DONE_POSTED, Reg.CMD_STAT_ROUTED_ROUTED, Reg.CMD_STAT_TIMEOUT_LATE, Reg.CMD_STAT_TIMEOUT_TIMEOUT, Reg.CMD_INFLIGHT_HELD, Reg.CMD_INFLIGHT_ACTIVE]
/-- Every field of the cmd page. -/
def layoutCmd : List Fld := layoutCmd0 ++ layoutCmd1
/-- Fields of the ofc page, part 0. -/
def layoutOfc0 : List Fld :=
  [Reg.OFC_CFG_LOCK_LIMIT, Reg.OFC_CFG_LOCK_MIN, Reg.OFC_CFG_CER_TIMEOUT, Reg.OFC_CFG_OFC1_EN, Reg.OFC_CFG_OFC0_EN, Reg.OFC_STAT_CHALLENGES, Reg.OFC_STAT_CLASS0_READY, Reg.OFC_STAT_CER_PENDING, Reg.OFC_STAT_ACTIVE, Reg.OFC_CMD_BUSY, Reg.OFC_CMD_OP, Reg.OFC_ARG_LO_ADDR_LO]
/-- Fields of the ofc page, part 1. -/
def layoutOfc1 : List Fld :=
  [Reg.OFC_TKT_LO_ADDR_LO, Reg.OFC_ARG_HI_ADDR_HI, Reg.OFC_TKT_HI_ADDR_HI, Reg.OFC_TKT_LEN_LEN, Reg.OFC_RESULT_INFO, Reg.OFC_RESULT_STATUS, Reg.OFC_CARD0_OFFICER, Reg.OFC_CARD1_OFFICER, Reg.OFC_CARD0_FAULT, Reg.OFC_CARD1_FAULT, Reg.OFC_CARD0_CLASS_B, Reg.OFC_CARD1_CLASS_B]
/-- Fields of the ofc page, part 2. -/
def layoutOfc2 : List Fld :=
  [Reg.OFC_CARD0_STATE, Reg.OFC_CARD1_STATE, Reg.OFC_CARD0_PRESENT, Reg.OFC_CARD1_PRESENT, Reg.OFC_LOCKED_LO_LOCKED, Reg.OFC_LOCKED_HI_LOCKED, Reg.OFC_CER_MIN_LEFT]
/-- Every field of the ofc page. -/
def layoutOfc : List Fld := layoutOfc0 ++ layoutOfc1 ++ layoutOfc2
/-- Fields of the host page, part 0. -/
def layoutHost0 : List Fld :=
  [Reg.HOST_CFG_VF_SPLIT, Reg.HOST_CFG_IDE_REQ, Reg.HOST_CFG_OBW_LINK, Reg.HOST_CFG_MGR_LINK, Reg.HOST_CFG_PORT_MODE, Reg.HOST_LINK_A_USB4, Reg.HOST_LINK_B_USB4, Reg.HOST_LINK_A_UP, Reg.HOST_LINK_B_UP, Reg.HOST_LINK_A_FLIT, Reg.HOST_LINK_B_FLIT, Reg.HOST_LINK_A_WIDTH]
/-- Fields of the host page, part 1. -/
def layoutHost1 : List Fld :=
  [Reg.HOST_LINK_B_WIDTH, Reg.HOST_LINK_A_SPEED, Reg.HOST_LINK_B_SPEED, Reg.HOST_OBW_BASE_LO_BASE_LO, Reg.HOST_OBW_BASE_HI_BASE_HI, Reg.HOST_IDE_STAT_LINK_B, Reg.HOST_IDE_STAT_SEL_B, Reg.HOST_IDE_STAT_LINK_A, Reg.HOST_IDE_STAT_SEL_A, Reg.HOST_DROP_CNT_DROPS, Reg.HOST_RESET_CNT_FLR, Reg.HOST_RESET_CNT_LINK]
/-- Fields of the host page, part 2. -/
def layoutHost2 : List Fld :=
  [Reg.HOST_SMB_ADDR_ADDR]
/-- Every field of the host page. -/
def layoutHost : List Fld := layoutHost0 ++ layoutHost1 ++ layoutHost2
/-- Fields of the usb4 page, part 0. -/
def layoutUsb40 : List Fld :=
  [Reg.USB4_CFG_FORCE_40, Reg.USB4_CFG_PORT_EN, Reg.USB4_STAT_RATE, Reg.USB4_STAT_TUNNEL, Reg.USB4_STAT_ENUM, Reg.USB4_STAT_CL, Reg.USB4_ERR_CNT_RETRAIN, Reg.USB4_ERR_CNT_FALLBACK]
/-- Every field of the usb4 page. -/
def layoutUsb4 : List Fld := layoutUsb40
/-- Fields of the mgr page, part 0. -/
def layoutMgr0 : List Fld :=
  [Reg.MGR_CMD_BUSY, Reg.MGR_CMD_INSTANCE, Reg.MGR_CMD_GAP_LOG, Reg.MGR_CMD_FMT, Reg.MGR_CMD_OP, Reg.MGR_PARAM_PARAM, Reg.MGR_IN_ADDR_LO_ADDR_LO, Reg.MGR_OUT_ADDR_LO_ADDR_LO, Reg.MGR_IN_ADDR_HI_ADDR_HI, Reg.MGR_OUT_ADDR_HI_ADDR_HI, Reg.MGR_IN_LEN_LEN, Reg.MGR_OUT_LEN_LEN]
/-- Fields of the mgr page, part 1. -/
def layoutMgr1 : List Fld :=
  [Reg.MGR_RESULT_INFO, Reg.MGR_RESULT_CODE, Reg.MGR_RES_VAL_VAL, Reg.MGR_EVENT_VALID, Reg.MGR_EVENT_LOST, Reg.MGR_EVENT_INSTANCE, Reg.MGR_EVENT_STATE, Reg.MGR_EVENT_KIND, Reg.MGR_SEL_INSTANCE, Reg.MGR_SEL_STAT_EXPORTED, Reg.MGR_SEL_STAT_SQ_LIMIT, Reg.MGR_SEL_STAT_STATE]
/-- Fields of the mgr page, part 2. -/
def layoutMgr2 : List Fld :=
  [Reg.MGR_SEL_USED_RECORDS, Reg.MGR_MB_CTL_SEND, Reg.MGR_MB_CTL_IN_FULL, Reg.MGR_MB_CTL_OUT_FULL, Reg.MGR_SEL_QUOTA_RECORDS, Reg.MGR_MB_OUT_WORD, Reg.MGR_MB_IN_WORD]
/-- Every field of the mgr page. -/
def layoutMgr : List Fld := layoutMgr0 ++ layoutMgr1 ++ layoutMgr2
/-- Fields of the inst page, part 0. -/
def layoutInst0 : List Fld :=
  [Reg.SQ_BASE_LO_BASE_LO, Reg.CQ_BASE_LO_BASE_LO, Reg.SQ_CFG_EN, Reg.SQ_CFG_CQ, Reg.SQ_CFG_WEIGHT, Reg.SQ_CFG_SIZE, Reg.SQ_STAT_HEAD, Reg.SQ_STAT_ERR, Reg.SQ_STAT_ERROR, Reg.SQ_STAT_ACTIVE, Reg.CQ_CFG_EN, Reg.CQ_CFG_IRQ_EN]
/-- Fields of the inst page, part 1. -/
def layoutInst1 : List Fld :=
  [Reg.CQ_CFG_COAL_COUNT, Reg.CQ_CFG_COAL_TIME, Reg.CQ_CFG_SIZE, Reg.CQ_STAT_TAIL, Reg.CQ_STAT_PHASE, Reg.CQ_STAT_ERR, Reg.CQ_STAT_ERROR, Reg.CQ_STAT_ACTIVE, Reg.INST_PYP_OFFER_V2, Reg.INST_PYP_OFFER_V1, Reg.INST_PYP_VER_MAJOR, Reg.INST_PYP_VER_MINOR]
/-- Fields of the inst page, part 2. -/
def layoutInst2 : List Fld :=
  [Reg.INST_PYP_CAP_CAP, Reg.INST_STATE_SQ_LIMIT, Reg.INST_STATE_STATE, Reg.INST_QUOTA_RECORDS, Reg.INST_USED_RECORDS, Reg.INST_MB_CTL_SEND, Reg.INST_MB_CTL_IN_FULL, Reg.INST_MB_CTL_OUT_FULL, Reg.INST_MB_IN_WORD, Reg.INST_MB_OUT_WORD, Reg.SQ_BASE_HI_BASE_HI, Reg.CQ_BASE_HI_BASE_HI]
/-- Every field of the inst page. -/
def layoutInst : List Fld := layoutInst0 ++ layoutInst1 ++ layoutInst2

/-- The page kinds of R41 and R502: pages of one block that carry different registers are different kinds. -/
inductive PageKind where
  | sys | lc | dbg | pwr | clk | hold | wear | gpio | tamp0 | tamp1 | tamp2 | tamp3 | vig | irqg | irqc | irqs0 | irqs1 | ht0 | ht1 | evr0 | evr1 | ent | drbg | ks0 | ks1 | ks2 | ks3 | mpe0 | mpe1 | sym | pke | hash | dma | cmd | ofc | host | usb4 | mgr | inst
deriving DecidableEq, Repr

/-- The fields a page of each kind carries. -/
def pageLayout : PageKind → List Fld
  | .sys => layoutSys
  | .lc => layoutLc
  | .dbg => layoutDbg
  | .pwr => layoutPwr
  | .clk => layoutClk
  | .hold => layoutHold
  | .wear => layoutWear
  | .gpio => layoutGpio
  | .tamp0 => layoutTamp0
  | .tamp1 => layoutTamp1
  | .tamp2 => layoutTamp2
  | .tamp3 => layoutTamp3
  | .vig => layoutVig
  | .irqg => layoutIrqg
  | .irqc => layoutIrqc
  | .irqs0 => layoutIrqs0
  | .irqs1 => layoutIrqs1
  | .ht0 => layoutHt0
  | .ht1 => layoutHtr
  | .evr0 => layoutEvr0
  | .evr1 => layoutEvr1
  | .ent => layoutEnt
  | .drbg => layoutDrbg
  | .ks0 => layoutKs0
  | .ks1 => layoutKs1
  | .ks2 => layoutKs2
  | .ks3 => layoutKs3
  | .mpe0 => layoutMpe0
  | .mpe1 => layoutMpe1
  | .sym => layoutSym
  | .pke => layoutPke
  | .hash => layoutSym
  | .dma => layoutDma
  | .cmd => layoutCmd
  | .ofc => layoutOfc
  | .host => layoutHost
  | .usb4 => layoutUsb4
  | .mgr => layoutMgr
  | .inst => layoutInst

/-- The kind of a register page, if the page is allocated (R41). -/
def pageKind (p : Nat) : Option PageKind :=
  if p < 0x008 then
    match p with
    | 0 => some .sys | 1 => some .lc | 2 => some .dbg | 3 => some .pwr
    | 4 => some .clk | 5 => some .hold | 6 => some .wear | _ => some .gpio
  else if p < 0x010 then
    match p with
    | 0x008 => some .tamp0 | 0x009 => some .tamp1 | 0x00A => some .tamp2 | 0x00B => some .tamp3
    | 0x00C => some .vig | _ => none
  else if p = 0x010 then some .irqg
  else if p < 0x021 then some .irqc
  else if p = 0x021 then some .irqs0
  else if p = 0x022 then some .irqs1
  else if p < 0x030 then none
  else if p = 0x030 then some .ht0
  else if p < 0x034 then some .ht1
  else if p = 0x040 then some .evr0
  else if p = 0x041 then some .evr1
  else if p < 0x050 then none
  else if p < 0x054 then some .ent
  else if p = 0x054 then some .drbg
  else if p < 0x060 then none
  else if p = 0x060 then some .ks0
  else if p = 0x061 then some .ks1
  else if p = 0x062 then some .ks2
  else if p = 0x063 then some .ks3
  else if p = 0x070 then some .mpe0
  else if p = 0x071 then some .mpe1
  else if p < 0x080 then none
  else if p < 0x090 then some .sym
  else if p < 0x098 then some .pke
  else if p < 0x09C then some .hash
  else if p < 0x0A0 then none
  else if p < 0x0C0 then some .dma
  else if p = 0x0C0 then some .cmd
  else if p = 0x0D0 then some .ofc
  else if p = 0x0E0 then some .host
  else if p = 0x0E1 then some .usb4
  else if p = 0x100 then some .mgr
  else if 0x400 ≤ p ∧ p < 0x800 then some .inst
  else none

/-- First page number of a block's range, on which PG_ID.TYPE and INSTANCE rest (R20, R41). -/
def pageFirst : PageKind → Nat
  | .sys => 0 | .lc => 1 | .dbg => 2 | .pwr => 3 | .clk => 4 | .hold => 5 | .wear => 6 | .gpio => 7
  | .tamp0 | .tamp1 | .tamp2 | .tamp3 => 0x008 | .vig => 0x00C | .irqg => 0x010 | .irqc => 0x011
  | .irqs0 | .irqs1 => 0x021 | .ht0 | .ht1 => 0x030 | .evr0 | .evr1 => 0x040 | .ent => 0x050 | .drbg => 0x054
  | .ks0 | .ks1 | .ks2 | .ks3 => 0x060 | .mpe0 | .mpe1 => 0x070 | .sym => 0x080 | .pke => 0x090 | .hash => 0x098
  | .dma => 0x0A0 | .cmd => 0x0C0 | .ofc => 0x0D0 | .host => 0x0E0 | .usb4 => 0x0E1 | .mgr => 0x100 | .inst => 0x400

/-- PG_ID.SECURE_ONLY by page kind (R41). -/
def pageSecureOnly : PageKind → Bool
  | .lc | .dbg | .pwr | .clk | .hold | .tamp0 | .tamp1 | .tamp2 | .tamp3 | .vig | .irqg | .ht0 | .ht1 | .ent
  | .ks0 | .ks1 | .ks2 | .ks3 | .mpe0 | .mpe1 | .sym | .pke | .hash | .cmd | .ofc => true
  | .sys | .wear | .gpio | .irqc | .irqs0 | .irqs1 | .evr0 | .evr1 | .drbg | .dma | .host | .usb4 | .mgr | .inst => false

/-- How PF BAR0 maps a page (R41, R42). -/
inductive HostView where | hidden | readOnly | readWrite
deriving DecidableEq, Repr

/-- The PF BAR0 column of R41. -/
def pageHostView : PageKind → HostView
  | .sys | .wear | .evr0 | .evr1 => .readOnly
  | .host | .usb4 | .mgr => .readWrite
  | _ => .hidden

/-- PG_CAP.IRQ, PWR, SHADOW and DRAIN (R502) and PG_CAP.BLOCK (each block's chapter). -/
structure PgCap where
  irq : Bool
  pwr : Bool
  shadow : Bool
  drain : Bool
  block : Nat
deriving DecidableEq, Repr

/-- The capabilities of each page kind (R502 and the block chapters). -/
def pageCap : PageKind → PgCap
  | .sys => ⟨true, false, true, false, 0⟩
  | .lc => ⟨true, false, false, false, 1⟩
  | .dbg => ⟨true, false, false, false, 1⟩
  | .pwr => ⟨true, false, false, false, 0⟩
  | .clk => ⟨true, false, false, false, 0⟩
  | .hold => ⟨true, false, true, false, 0⟩
  | .wear => ⟨true, false, false, false, 0x3FFF⟩
  | .gpio => ⟨false, false, false, false, 8⟩
  | .tamp0 => ⟨true, false, false, false, 0xFFFF⟩
  | .tamp1 | .tamp2 | .tamp3 => ⟨false, false, false, false, 0⟩
  | .vig => ⟨true, false, false, false, 1⟩
  | .irqg => ⟨true, false, false, false, 0x1FF⟩
  | .irqc => ⟨false, false, true, false, 0⟩
  | .irqs0 | .irqs1 => ⟨false, false, false, false, 0⟩
  | .ht0 => ⟨true, false, false, false, 0x200⟩
  | .ht1 => ⟨false, false, false, false, 0⟩
  | .evr0 => ⟨true, false, false, false, 1⟩
  | .evr1 => ⟨false, false, false, false, 7⟩
  | .ent => ⟨true, true, true, false, 3⟩
  | .drbg => ⟨true, false, true, false, 1⟩
  | .ks0 => ⟨true, false, true, false, 1⟩
  | .ks1 => ⟨false, false, false, false, 0⟩
  | .ks2 => ⟨false, false, true, false, 0⟩
  | .ks3 => ⟨false, false, false, false, 0⟩
  | .mpe0 => ⟨true, false, true, false, 1⟩
  | .mpe1 => ⟨false, false, false, false, 0⟩
  | .sym => ⟨true, true, true, true, 7⟩
  | .pke => ⟨true, true, true, true, 0xF⟩
  | .hash => ⟨true, true, true, true, 3⟩
  | .dma => ⟨true, true, true, true, 1⟩
  | .cmd => ⟨true, false, true, false, 3⟩
  | .ofc => ⟨true, false, true, false, 3⟩
  | .host => ⟨true, false, true, false, 7⟩
  | .usb4 => ⟨true, false, true, false, 1⟩
  | .mgr => ⟨true, false, false, false, 1⟩
  | .inst => ⟨true, false, false, false, 1⟩

end Sys2Proof.Machine
end

