-- ==== Sys2Proof/Machine/SMap.lean ====
section
/-! DEFINITION. Sparse tables in one canonical form: a list of (key, value) pairs whose keys rise strictly and
which holds no pair equal to what an unlisted key reads as. Memory, the register file and every numbered set of
like things in the state are kept so, and two equal tables are equal lists. -/

namespace Sys2Proof.Machine

/-- A sparse table from numbers to values. What an unlisted key reads as is given by the reader, a function of
the key, and is the same function at every read and write of one table. -/
abbrev SMap (α : Type) := List (Nat × α)

/-- The pair stored at a key, if one is listed. -/
def smapFind {α : Type} : SMap α → Nat → Option α
  | [], _ => none
  | (k, v) :: t, n => if k = n then some v else smapFind t n

/-- The value at a key. -/
def smapGet {α : Type} (dflt : Nat → α) (m : SMap α) (n : Nat) : α :=
  (smapFind m n).getD (dflt n)

/-- The table without a key. -/
def smapDel {α : Type} (m : SMap α) (n : Nat) : SMap α := m.filter (fun kv => kv.1 ≠ n)

/-- The table with a pair at a key, replacing the one there. -/
def smapIns {α : Type} : SMap α → Nat → α → SMap α
  | [], n, a => [(n, a)]
  | (k, v) :: t, n, a =>
    if k = n then (n, a) :: t else if n < k then (n, a) :: (k, v) :: t else (k, v) :: smapIns t n a

/-- Writes a value at a key, keeping the canonical form. -/
def smapSet {α : Type} [DecidableEq α] (dflt : Nat → α) (m : SMap α) (n : Nat) (a : α) : SMap α :=
  if a = dflt n then smapDel m n else smapIns m n a

/-- Keeps the pairs whose key satisfies a test. -/
def smapKeep {α : Type} (p : Nat → Bool) (m : SMap α) : SMap α := m.filter (fun kv => p kv.1)

/-- The keys rise strictly. -/
def smapRises {α : Type} : SMap α → Bool
  | [] => true
  | [_] => true
  | (k, _) :: (k', v') :: t => decide (k < k') && smapRises ((k', v') :: t)

/-- The canonical form. -/
def smapWf {α : Type} [DecidableEq α] (dflt : Nat → α) (m : SMap α) : Bool :=
  smapRises m && m.all (fun kv => decide (kv.2 ≠ dflt kv.1))

end Sys2Proof.Machine
end

