-- ==== Sys2Proof/Machine/StEnt.lean ====
section
/-! DEFINITION. State of the entropy sources and of the random bit generators (R226-R245). -/

namespace Sys2Proof.Machine

/-- What one noise source does (R228-R231): idle, in its start-up test, waiting for a retest, in a retest, sampling
under the continuous tests, or FAILED. -/
inductive NoiseRun where | idle | testing | waiting | retest | running | failed
deriving DecidableEq, Repr

/-- How far a source is in its repetition-count and adaptive-proportion tests (R229). -/
structure Health where
  /-- last sample [R229; 8 bits; none] -/
  last : Option Byte
  /-- samples in a row that equal it, itself included [R229; -; 0] -/
  same : Nat
  /-- first sample of the window [R229; 8 bits; 0] -/
  first : Byte
  /-- samples of the window so far [R229; 0 to 511; 0] -/
  pos : Nat
  /-- how often the window's first sample has come in it, itself included [R229; -; 0] -/
  count : Nat
deriving DecidableEq, Repr

/-- Tests that begin. -/
def healthReset : Health := ⟨none, 0, 0, 0, 0⟩

/-- One noise source of a Well (R226). -/
structure Noise where
  /-- what it does [R228, R231; -; idle] -/
  run : NoiseRun
  /-- continuous-test and retest failures in this boot [R231; -; 0] -/
  fails : Nat
  /-- time from which a retest may start [R231; ns; 0] -/
  retestAt : Nat
  /-- its health tests [R228, R229; -; before their first sample] -/
  health : Health
deriving DecidableEq, Repr

/-- Who waits for random values of a quarter (R236): the unit of a job port, a command by its TAG or one of its lanes, a block of the device, or a consumer
that no command or job stands for. -/
inductive Reader where
  | unit (i : Nat)
  | cmd (tag : Nat)
  | lane (tag lane : Nat)
  | block
  | other
deriving DecidableEq, Repr

/-- A waiting read (R236, R238). -/
structure Stall where
  /-- consumer [R236; -; -] -/
  who : Reader
  /-- bytes asked for [R236; -; -] -/
  n : Nat
  /-- time of asking [R244; ns; -] -/
  since : Nat
  /-- it is RANDOM_BYTES', which yields to hardware reads [R236; 1 bit; -] -/
  soft : Bool
  /-- prediction resistance: a reseed comes first and has not been made yet [R238; 1 bit; -] -/
  fresh : Bool
  /-- bytes set apart for it so far [R236; bytes; empty] -/
  have' : Bytes
deriving DecidableEq, Repr

/-- A read that has its bytes, or has ended with an error, until its consumer has gone on with it (R232, R236). -/
structure ReadGrant where
  /-- consumer [R236; -; -] -/
  who : Reader
  /-- bytes asked for [R236; -; -] -/
  n : Nat
  /-- the bytes, none for an error [R232, R236; bytes; -] -/
  got : Option Bytes
  /-- the operation under way has taken it [R236; 1 bit; 0] -/
  used : Bool
deriving DecidableEq, Repr

/-- A raw capture under way (R242), as CAPTURE found the registers. -/
structure Capture where
  /-- source, true for the alternate [R242; 1 bit; -] -/
  alt : Bool
  /-- base [R242; 40 bits; -] -/
  base : Nat
  /-- samples [R242; 25 bits; -] -/
  len : Nat
deriving DecidableEq, Repr

/-- ENT_STAT.STATE (R244). -/
inductive WellRun where | off | startup | primary | alternate | switching | entFail | diag
deriving DecidableEq, Repr

/-- One Well (R226-R233, R240-R244). -/
structure Well where
  /-- ENT_STAT.STATE [R244; 3 bits; 0 OFF] -/
  run : WellRun
  /-- primary source [R226; -; idle] -/
  pri : Noise
  /-- alternate source [R226; -; idle] -/
  alt : Noise
  /-- the source that feeds the conditioner, true for the alternate [R227; -; none] -/
  feed : Option Bool
  /-- pool, units of 16 bytes in the order produced, at most 16 [R227; 2,048 bits; empty] -/
  pool : List Bytes
  /-- a passed primary awaits the next block boundary to take over [R231; 1 bit; 0] -/
  goBack : Bool
  /-- waiting reads, oldest first [R236; -; empty] -/
  stalls : List Stall
  /-- hardware reads served since the last grant to a RANDOM_BYTES that waits [R236; 4 bits; 0] -/
  turns : Nat
  /-- reads that have ended, until their consumers have gone on [R236; -; empty] -/
  grants : List ReadGrant
  /-- raw capture under way [R242; -; none] -/
  capture : Option Capture
  /-- pattern substitution is active, ENT_STAT.SUBST [R243; 1 bit; 0] -/
  subst : Bool
  /-- word of the pattern generator [R243; 32 bits; 0] -/
  lfsr : Nat
  /-- samples already taken from that word [R243; 2 bits; 0] -/
  patPos : Nat
deriving DecidableEq, Repr

/-- Whether a raw capture runs (R242). -/
def Well.capturing (w : Well) : Bool := w.capture.isSome

/-- One CTR_DRBG instance (R234). -/
structure Drbg where
  /-- instantiated [R234; 1 bit; 0] -/
  made : Bool
  /-- reseed required [R230, R244, R245; 1 bit; 0 for a quarter's, 1 for a port's] -/
  need : Bool
  /-- key [R234; 32 bytes; zeros] -/
  key : Bytes
  /-- counter block [R234; 16 bytes; zeros] -/
  v : Bytes
  /-- requests since the last reseed, ENT_REQS [R234; 17 bits; 0] -/
  reqs : Nat
  /-- bytes generated and not yet consumed: four output buffers of 4,096 bytes, or the FIFO of 256 bytes
  [R234, R237; bytes; empty] -/
  buf : Bytes
  /-- quarter whose Well feeds it [R237; 2 bits; own quarter] -/
  src : Option Nat
deriving DecidableEq, Repr

/-- Wells and generators. -/
structure EntSt where
  /-- Wells 0-3, by quarter [R226; 4; off] -/
  wells : SMap Well
  /-- DRBG instances: 0-3 quarter, 4 secure port, 5 non-secure port [R234; 6; not instantiated] -/
  drbgs : SMap Drbg
  /-- DRBG_SW_STAT.ENT_EMPTY of the secure and the non-secure world [R245; 1 bit each; 0] -/
  empty : List Bool
  /-- DRBG_SW_CNT.WORDS of the secure and the non-secure world [R245; 32 bits each; 0] -/
  words : List Nat
  /-- health-test failures of all Wells since cold reset [R239; 32 bits; 0] -/
  fails : Nat
  /-- bytes of masking randomness that the coming commands of the lanes draw, a free value: the manual states no amount
  [R165, the model's own field; -; empty, read as 1] -/
  masks : List Nat
deriving DecidableEq, Repr

/-- A source before it is started. -/
def noiseReset : Noise := ⟨.idle, 0, 0, healthReset⟩

/-- A Well before its quarter is powered (R241). -/
def wellReset (_ : Nat) : Well :=
  { run := .off, pri := noiseReset, alt := noiseReset, feed := none, pool := [], goBack := false, stalls := [], turns := 0,
    grants := [], capture := none, subst := false, lfsr := 0, patPos := 0 }

/-- An instance before it is instantiated (R241, R245). -/
def drbgReset (n : Nat) : Drbg :=
  ⟨false, decide (4 ≤ n), List.replicate 32 0, List.replicate 16 0, 0, [], if n < 4 then some n else none⟩

/-- Wells and generators before boot. -/
def entReset : EntSt := ⟨[], [], [false, false], [0, 0], 0, []⟩

end Sys2Proof.Machine
end

