-- ==== Sys2Proof/Machine/StHost.lean ====
section
/-! DEFINITION. State of the host attachment (R47-R76): links, functions, MSI-X, DOE, SPDM, IDE, SMBus. -/

namespace Sys2Proof.Machine

/-- One MSI-X vector of a function (R57). -/
structure Msix where
  /-- message address [R57; 64 bits; 0] -/
  addr : Nat
  /-- masked [R57; 1 bit; 1] -/
  masked : Bool
  /-- PBA bit [R57; 1 bit; 0] -/
  pba : Bool
  /-- message data [R53, R57; 32 bits; 0] -/
  data : Nat
deriving DecidableEq, Repr

/-- Configuration state of one function (R50-R57, R69). -/
structure FnSt where
  /-- MSI-X vectors, by number [R57; 4 or 17; masked] -/
  msix : SMap Msix
  /-- Enable Relaxed Ordering [R51; 1 bit; 1] -/
  relaxed : Bool
  /-- internal errors are reported as fatal [R69; 1 bit; 1] -/
  sevFatal : Bool
  /-- AER status: bit 0 IDE Check Failed, bit 1 Uncorrectable Internal Error [R63, R69; 2 bits; 0] -/
  aer : Nat
  /-- Max_Payload_Size in bytes [R50; 128-512; 128] -/
  maxPayload : Nat
  /-- Max_Read_Request_Size in bytes [R50; 128-4,096; 512] -/
  maxRead : Nat
  /-- base addresses as host software wrote them, by BAR number [R53; 64 bits each; 0] -/
  bars : SMap Nat
deriving DecidableEq, Repr

/-- One IDE stream: 0 the link stream, 1-4 selective streams (R62). -/
structure IdeStream where
  /-- Secure state [R62; 1 bit; 0] -/
  secure : Bool
  /-- programmed key [R62; 32 bytes; none] -/
  key : Option Bytes
  /-- lowest routing ID of the association, relative to the PF [R62; 16 bits; 0] -/
  ridLo : Nat
  /-- highest routing ID of the association [R62; 16 bits; 0] -/
  ridHi : Nat
  /-- address association blocks, first and last address, at most two [R62; 64 bits each; none] -/
  blocks : List (Nat × Nat)
deriving DecidableEq, Repr

/-- A response of the SPDM responder or of DOE Discovery (R58-R62). -/
inductive SpdmResp where
  | discovery (index vendor protocol : Nat) (next : Nat)
  | version (versions : List Nat)
  | capabilities (version flags : Nat)
  | algorithms
  | digests (slotMask : Nat)
  | certificate (slot : Nat) (part : Bytes)
  | challengeAuth (slot : Nat) (nonce sig : Bytes)
  | measurements (blocks : List (Nat × Bytes)) (nonce : Bytes) (sig : Option Bytes)
  | keyExchangeRsp (session : Nat) (pub sig : Bytes) (bothWays : Bool)
  | finishRsp | heartbeatAck | keyUpdateAck | endSessionAck
  | ideKeyAck (stream : Nat) | ideGoAck (stream : Nat) | ideStopAck (stream : Nat)
  | ideStatus (secure : List Nat)
  | encapsulatedAck
  | chunkAck (handle seq : Nat) | chunkDone (handle seq : Nat) (resp : SpdmResp)
  | largeResponse (handle : Nat) | chunk (handle seq : Nat) | chunkEnd (handle seq : Nat) (resp : SpdmResp)
  | error (code : Nat)
deriving DecidableEq, Repr

/-- An SPDM session of a PF (R59). -/
structure SpdmSess where
  /-- session number [R59; 1-4; -] -/
  id : Nat
  /-- the handshake has finished [R59; 1 bit; 0] -/
  live : Bool
  /-- shared secret of the key exchange [R59; 48 bytes; -] -/
  secret : Bytes
  /-- key updates so far [R59; -; 0] -/
  updates : Nat
  /-- the responder asked for mutual authentication [R59; 1 bit; 0] -/
  bothWays : Bool
  /-- the requester's certificate chain, once delivered [R59; bytes; none] -/
  peer : Option Bytes
deriving DecidableEq, Repr

/-- One logical host link (R47-R64). -/
structure LinkSt where
  /-- training is under way [R67; 1 bit; 0] -/
  training : Bool
  /-- trained, HOST_LINK.UP [R75; 1 bit; 0] -/
  up : Bool
  /-- VF Enable [R55; 1 bit; 0] -/
  vfEnable : Bool
  /-- NumVFs [R55; 0-1,024; 0] -/
  numVfs : Nat
  /-- ARI Capable Hierarchy [R54; 1 bit; 0] -/
  ari : Bool
  /-- System Page Size bit mask [R53; 32 bits; 1] -/
  sysPage : Nat
  /-- ASPM L1 is enabled [R50, R68; 1 bit; 0] -/
  aspm : Bool
  /-- DOE request waiting for the responder [R58; -; none] -/
  doeReq : Option SpdmReq
  /-- DOE response being written or ready [R58; 1 bit; 0] -/
  doeResp : Bool
  /-- SPDM version negotiated, 0x12 or 0x13, 0 before GET_VERSION [R59; 8 bits; 0] -/
  spdmVer : Nat
  /-- algorithms have been negotiated [R59; 1 bit; 0] -/
  spdmAlg : Bool
  /-- the requester's data transfer size, 0 none stated [R59; 32 bits; 0] -/
  xfer : Nat
  /-- a request that arrives in chunks: its handle and the next number [R59; -; none] -/
  chunkIn : Option (Nat × Nat)
  /-- a response that leaves in chunks: its handle, the next number, and the response [R59; -; none] -/
  chunkOut : Option (Nat × Nat × SpdmResp)
  /-- handle of the next such response [R59; 8 bits; 0] -/
  nextLarge : Nat
  /-- open sessions, at most 4 [R59; -; empty] -/
  sessions : List SpdmSess
  /-- IDE streams 0-4, by number [R62; 5; insecure] -/
  ide : SMap IdeStream
deriving DecidableEq, Repr

/-- The host attachment but for its registers. -/
structure HostSt where
  /-- link A [R47; -; down] -/
  a : LinkSt
  /-- link B [R47; -; down] -/
  b : LinkSt
  /-- HOST_RESET_N asserted [R65; pin; 0] -/
  rstPin : Bool
  /-- time at which HOST_RESET_N deasserted with P12V good [R67; ns; 0] -/
  rstUpAt : Nat
  /-- functions by link * 2048 + SR-IOV number, 0 being the PF [R53; -; reset] -/
  fns : SMap FnSt
  /-- SMBus endpoint ID [R72; 8 bits; 0] -/
  eid : Nat
  /-- PLDM events are configured on [R72; 1 bit; 0] -/
  pldmEvents : Bool
  /-- SMB_ALERT_N asserted [R73; pin; 0] -/
  alert : Bool
  /-- owner certificate chain of slot 1, installed by firmware [R60; bytes; none] -/
  ownerChain : Option Bytes
  /-- the USB4 port is attached [R70; 1 bit; 0] -/
  usbAttached : Bool
deriving DecidableEq, Repr

/-- What the block has made visible outside itself in the command just executed: the external actions of R12 and
the answers it gives on its pins and links. -/
inductive OutEv where
  /-- a host memory write: link, function number, host address, bytes, and its Relaxed Ordering attribute -/
  | hostWrite (link fn addr : Nat) (data : Bytes) (relaxed : Bool)
  /-- a host memory read request issued: link, function number, host address, length -/
  | hostRead (link fn addr len : Nat)
  /-- an MSI-X message: link, function number, vector, message address and data -/
  | msix (link fn vec addr data : Nat)
  /-- an uncorrectable internal error reported under AER: link, and whether as fatal -/
  | aerInternal (link : Nat) (fatal : Bool)
  /-- IDE Check Failed reported under AER -/
  | aerIde (link : Nat)
  /-- a configuration request answered with a value, or accepted -/
  | cfgValue (val : Nat)
  /-- a configuration request answered with Request Retry Status -/
  | cfgRetry
  /-- no function answers the configuration request -/
  | cfgNone
  /-- a memory request completed with Unsupported Request -/
  | unsupported
  /-- a DOE response -/
  | doe (link : Nat) (resp : SpdmResp)
  /-- an SMBus answer: sensor reading or acknowledgement -/
  | smb (val : Int)
  /-- an SMBus request refused -/
  | smbRefused
  /-- HALT_N asserted -/
  | haltN
  /-- ZERO_N asserted -/
  | zeroN
  /-- SMB_ALERT_N asserted or released -/
  | alertN (on : Bool)
  /-- a GPIO pin set changes: driven mask and levels -/
  | gpio (oe out : Nat)
  /-- S(IFS request) to the card of an interface: the size it asks for -/
  | cardIfs (slot n : Nat)
  /-- a command APDU to the card of an interface -/
  | card (slot : Nat) (apdu : Bytes)
  /-- an interface activates or deactivates its card -/
  | cardPower (slot : Nat) (on : Bool)
deriving DecidableEq, Repr

/-- The response of the interconnect to the transaction just executed (R15, R371, R375, R479), or the completion of a host's request that
arrived on no Secure stream (R64). -/
inductive BusResp where
  | ok (data : Bytes)
  | decodeError (data : Bytes)
  | refused (firstAddr : Nat) (data : Bytes)
  | integrity
  | targetReset
  | hostError
  | unsupported
deriving DecidableEq, Repr

end Sys2Proof.Machine
end

