-- ==== Sys2Proof/Machine/StInst.lean ====
section
/-! DEFINITION. State of the tenant instances, of the manager and of migration but for the register pages
(R276-R302). -/

namespace Sys2Proof.Machine

/-- The states of an instance, in code order (R276). -/
inductive InstRun where | unused | assigned | active | quiescing | quiesced | frozen | resetting
deriving DecidableEq, Repr

/-- One tenant instance. -/
structure Inst where
  /-- STATE [R276, R278; 3 bits; 0 UNUSED] -/
  run : InstRun
  /-- EXPORTED [R278, R301; 1 bit; 0] -/
  exported : Bool
  /-- RECORDS quota [R279; 27 bits; 0] -/
  records : Nat
  /-- SQ_LIMIT quota [R279; 5 bits; 0] -/
  sqLimit : Nat
  /-- it was ASSIGNED when QUIESCE was accepted [R277; 1 bit; 0] -/
  wasAssigned : Bool
  /-- FREEZE has been accepted and FROZEN is awaited [R282; 1 bit; 0] -/
  freezing : Bool
  /-- custody class, 0xFF none [R307; 8 bits; 0xFF] -/
  custody : Nat
  /-- inbound mailbox full [R288; 1 bit; 0] -/
  inFull : Bool
  /-- outbound mailbox full [R288; 1 bit; 0] -/
  outFull : Bool
  /-- the negotiated PYP version is in force until the page is reset [R103; 1 bit; 0] -/
  verFixed : Bool
  /-- the reset that RESETTING stands for is RESET, which keeps persistent keys and quotas [R278, R286; 1 bit; 0] -/
  keeps : Bool
  /-- grantees whose grants on this FROZEN instance's keys end at THAW [R283, R286; 10 bits each; empty] -/
  endDue : List Nat
deriving DecidableEq, Repr

/-- An instance as shipped (R2, R276). -/
def instReset (_ : Nat) : Inst := ⟨.unused, false, 0, 0, false, false, 0xFF, false, false, false, false, []⟩

/-- An entry of MGR_EVENT (R301). -/
structure MgrEv where
  /-- KIND [R301; 8 bits; -] -/
  kind : Nat
  /-- INSTANCE [R301; 10 bits; -] -/
  inst : Nat
  /-- STATE [R301; 3 bits; -] -/
  state : Nat
deriving DecidableEq, Repr

/-- An open transport session (R290, R291). -/
structure Xport where
  /-- local identifier [R290; 32 bits; -] -/
  id : Nat
  /-- this device is the source [R290; 1 bit; -] -/
  source : Bool
  /-- time at which it opened [R291; ns; -] -/
  openAt : Nat
  /-- the destination's identifier [R293; 32 bits; -] -/
  peer : Nat
  /-- the offer, as sent or received [R293; 1,928 bytes; -] -/
  offer : Bytes
  /-- seeds of the ML-KEM pair and the ECDH private key, at the destination until the accept [R290; -; none] -/
  secrets : Option (Bytes × Nat)
  /-- K_XPORT [R290; 32 bytes; none] -/
  key : Option Bytes
deriving DecidableEq, Repr

/-- The manager's side. -/
structure MgrSt where
  /-- instances by number [R276; 1,024; UNUSED] -/
  insts : SMap Inst
  /-- event queue, oldest first [R301; 256 entries; empty] -/
  events : List MgrEv
  /-- entries have been lost since the last one was read [R301; 1 bit; 0] -/
  lost : Bool
  /-- a command that has not ended: OP and INSTANCE, MGR_CMD.BUSY [R299, R301; -; none] -/
  busy : Option (Nat × Nat)
  /-- transport sessions [R291; at most 4; none] -/
  xports : List Xport
  /-- next local session identifier [R290; 32 bits; 1] -/
  nextXport : Nat
deriving DecidableEq, Repr

/-- The manager before any command. -/
def mgrReset : MgrSt := ⟨[], [], false, none, [], 1⟩

end Sys2Proof.Machine
end

