-- ==== Sys2Proof/Machine/StMpe.lean ====
section
/-! DEFINITION. State of the memory protection engine (R246-R275). -/

namespace Sys2Proof.Machine

/-- A line as it lies in LPDDR6 (R248): stored bytes and the MAC of its metadata; CODE and the two bursts follow from them (storedBursts). -/
structure Stored where
  /-- stored bytes [R248; 64 bytes; -] -/
  text : Bytes
  /-- MAC [R248; 40 bits; -] -/
  mac : Nat
deriving DecidableEq, Repr

/-- A counter line (R251). -/
structure CtrLine where
  /-- MAJOR [R251; 64 bits; 0] -/
  major : Nat
  /-- MINOR by index [R251; 64 of 7 bits; 0] -/
  minor : SMap Nat
deriving DecidableEq, Repr

/-- A tree line in the counter cache (R256). -/
structure CcLine where
  /-- contents [R256; 64 bytes; -] -/
  line : CtrLine
  /-- changed since it was brought in [R256; 1 bit; -] -/
  dirty : Bool
  /-- order of its last use [R256; -; -] -/
  use : Nat
deriving DecidableEq, Repr

/-- What a failed verification is about (R268, R275). -/
structure MpeFail where
  /-- MPE_FAIL_KIND.LEVEL [R275; 4 bits; -] -/
  level : Nat
  /-- MPE_FAIL_KIND.KIND [R275; 4 bits; -] -/
  kind : Nat
  /-- failing line address [R275; 40 bits; -] -/
  addr : Nat
  /-- MPE_FAIL_EPOCH [R275; 16 bits; -] -/
  epoch : Nat
deriving DecidableEq, Repr

/-- A read answered before its verification has finished (R263, R264). -/
structure OutRead where
  /-- epoch it carries [R263; 16 bits; -] -/
  epoch : Nat
  /-- line address [R263; 40 bits; -] -/
  addr : Nat
  /-- how its verification will end, none for a pass [R258; -; -] -/
  fail : Option MpeFail
deriving DecidableEq, Repr

/-- A line in the write buffer (R265). -/
structure WbLine where
  /-- data [R265; 64 bytes; -] -/
  data : Bytes
  /-- epoch of the tag [R265; 16 bits; -] -/
  epoch : Nat
deriving DecidableEq, Repr

/-- The memory protection engine but for its header and counters. -/
structure MpeSt where
  /-- K_MEM [R247; 32 bytes; none] -/
  kMem : Option Bytes
  /-- K_MAC [R247; 32 bytes; none] -/
  kMac : Option Bytes
  /-- root counters 0-63 [R255; 64 of 64 bits; 0] -/
  roots : SMap Nat
  /-- stored lines of LPDDR6 by address / 64 [R248; -; none] -/
  dram : SMap (Option Stored)
  /-- symbols in error of a stored line, by address / 64 [R248, R258; -; 0] -/
  bad : SMap Nat
  /-- counter cache by line address / 64 [R256; 32,768 lines; empty] -/
  cc : SMap (Option CcLine)
  /-- bits in error of a cached line, by line address / 64 [R261; -; 0] -/
  ccBad : SMap Nat
  /-- uses of the cache so far [R256; -; 0] -/
  uses : Nat
  /-- MPE_EPOCH.CURRENT [R263; 16 bits; 0] -/
  cur : Nat
  /-- MPE_EPOCH.VERIFIED [R263; 16 bits; 0] -/
  ver : Nat
  /-- reads answered and not yet verified, oldest first [R263; -; empty] -/
  reads : List OutRead
  /-- write buffer by line address / 64 [R265; 4,096 lines; empty] -/
  wbuf : SMap (Option WbLine)
  /-- line address / 64 at which the patrol scrub goes on [R262; -; 0] -/
  scrub : Nat
  /-- corrections of this hour by channel [R259; 8; 0] -/
  ceHour : SMap Nat
  /-- channels that have raised CE_HIGH this hour [R259; 8 bits; 0] -/
  ceRaised : Nat
  /-- MPE_STAT.HALTING [R268; 1 bit; 0] -/
  halting : Bool
  /-- the epoch gap limit is reached, so new reads wait for verification [R263; 1 bit; 0] -/
  stalled : Bool
  /-- a failed verification whose halt has not run yet [R268; -; none] -/
  failing : Option MpeFail
deriving DecidableEq, Repr

/-- The engine before it is enabled (R247). -/
def mpeReset : MpeSt :=
  { kMem := none, kMac := none, roots := [], dram := [], bad := [], cc := [], ccBad := [], uses := 0, cur := 0, ver := 0, reads := [], wbuf := [],
    scrub := 0, ceHour := [], ceRaised := 0, halting := false, stalled := false, failing := none }

end Sys2Proof.Machine
end

