-- ==== Sys2Proof/Machine/StOfc.lean ====
section
/-! DEFINITION. State of the officer block but for its registers (R303-R325). -/

namespace Sys2Proof.Machine

/-- States of an officer record (R303). -/
inductive OfcRun where | empty | active | locked | revoked
deriving DecidableEq, Repr

/-- An officer record. -/
structure Officer where
  /-- state [R303; -; EMPTY] -/
  run : OfcRun
  /-- algorithm [R303; 16 bits; 0] -/
  alg : Nat
  /-- public key [R303; bytes; empty] -/
  pk : Bytes
  /-- SHA-384 of the public key [R303; 48 bytes; empty] -/
  digest : Bytes
  /-- NAME given at enrolment [R323; 16 bytes; empty] -/
  name : Bytes
  /-- failure count [R320; -; 0] -/
  fails : Nat
  /-- lockouts since the last UNLOCK [R320; -; 0] -/
  lockouts : Nat
  /-- lantern tick at which the lockout ends [R320; 48 bits; 0] -/
  lockEnd : Nat
deriving DecidableEq, Repr

/-- An empty record (R2). -/
def officerReset (_ : Nat) : Officer := ⟨.empty, 0, [], [], [], 0, 0, 0⟩

/-- A defined quorum class (R306). -/
structure QClass where
  /-- member mask [R306; 64 bits; -] -/
  members : Nat
  /-- M [R306; 2-16; -] -/
  m : Nat
  /-- LIFETIME in s [R306; 1-65,535; -] -/
  lifetime : Nat
deriving DecidableEq, Repr

/-- An outstanding challenge (R309-R311). -/
structure Chal where
  /-- CHAL_ID [R310; 64 bits; -] -/
  id : Nat
  /-- CLASS [R310; 8 bits; -] -/
  cls : Nat
  /-- requester: instance, or 0xFFFF [R311; 16 bits; -] -/
  who : Nat
  /-- DIRECT [R309; 1 bit; -] -/
  direct : Bool
  /-- NOT_AFTER [R310; lantern time-stamp; -] -/
  notAfter : Nat
  /-- the 144 bytes [R310; 144 bytes; -] -/
  bytes : Bytes
  /-- officers whose collected signatures verified [R318; at most 16; empty] -/
  signed : List Nat
  /-- reserved for a command [R315; 1 bit; 0] -/
  held : Bool
  /-- ended while a command holds it: no longer outstanding, kept for that command alone [R306, R311, R315; 1 bit; 0] -/
  ended : Bool
deriving DecidableEq, Repr

/-- OFC_CARD.STATE (R324). -/
inductive CardRun where | inactive | activating | identified | signing
deriving DecidableEq, Repr

/-- What a card interface waits for (R304, R317, R318). -/
inductive CardWait where
  | nothing
  /-- the ATR -/
  | atr
  /-- the answer to S(IFS request) -/
  | ifs
  /-- SELECT -/
  | select
  /-- GET_IDENTITY -/
  | identity
  /-- SIGN of an outstanding challenge -/
  | sign (id : Nat)
  /-- GET_IDENTITY of an enrolment -/
  | enrolId
  /-- SIGN of an enrolment's challenge -/
  | enrolSign
  /-- VERIFY of the operation PIN -/
  | pin
deriving DecidableEq, Repr

/-- A card interface (R316). -/
structure CardIf where
  /-- PRESENT [R324; 1 bit; 0] -/
  present : Bool
  /-- STATE [R324; 2 bits; 0] -/
  run : CardRun
  /-- CLASS_B [R324; 1 bit; 0] -/
  classB : Bool
  /-- FAULT [R324; 1 bit; 0] -/
  fault : Bool
  /-- OFFICER [R324; 8 bits; 0xFF] -/
  officer : Option Nat
  /-- exchange in progress [R317; -; nothing] -/
  wait : CardWait
  /-- IFSD negotiated in this activation [R316; 8 bits; 32] -/
  ifsd : Nat
  /-- SELECT has been answered in this activation [R317; 1 bit; 0] -/
  sel : Bool
  /-- activated by its insertion or by the mode, so to be identified and not done yet [R318; 1 bit; 0] -/
  ask : Bool
  /-- lowest CHAL_ID that SIGN has yet to be sent for in this activation [R318; 64 bits; 0] -/
  next : Nat
deriving DecidableEq, Repr

/-- A card interface without a card. -/
def cardReset (_ : Nat) : CardIf := ⟨false, .inactive, false, false, none, .nothing, 32, false, false, 0⟩

/-- An OFC_CMD operation that waits for a card or for a drain (R323). -/
inductive OfcOp where
  /-- slot, officer record, name, challenge, key read from the card, challenge its ticket reserves -/
  | enrol (slot officer : Nat) (name chal : Bytes) (alg : Nat) (pk : Bytes) (ticket : Option Nat)
  /-- slot and the VERIFY data -/
  | pin (slot : Nat) (data : Bytes)
  /-- challenge its ticket reserves -/
  | cerEnter (ticket : Option Nat)
deriving DecidableEq, Repr

/-- The officer block. -/
structure OfcSt where
  /-- officer records by number [R303; 64; EMPTY] -/
  officers : SMap Officer
  /-- quorum classes by number [R306; 32; undefined] -/
  classes : SMap (Option QClass)
  /-- outstanding challenges, oldest first [R311; at most 4,096; none] -/
  chals : List Chal
  /-- next CHAL_ID [R310; 64 bits; 1] -/
  nextChal : Nat
  /-- card interfaces by number [R316; 2; no card] -/
  cards : SMap CardIf
  /-- operation in progress, OFC_CMD.BUSY [R323, R324; -; none] -/
  op : Option OfcOp
  /-- time of entry to CEREMONY [R322; ns; none] -/
  cerAt : Option Nat
deriving DecidableEq, Repr

/-- The officer block as shipped (R2). -/
def ofcReset : OfcSt := ⟨[], [], [], 1, [], none, none⟩

end Sys2Proof.Machine
end

