-- ==== Sys2Proof/Machine/StSys.lean ====
section
/-! DEFINITION. State of the system side of the block: page headers, modes, supplies, lantern domain, fuses, MRAM,
cores, fault controller, interrupt controller, access table traffic, DMA, GPIO, tamper monitor, life cycle and event
recorder. Plain data; each field's docstring names the rule that gives it and, in brackets, width and reset value. -/

namespace Sys2Proof.Machine

/-- Operating modes, in code order (R446). -/
inductive Mode where
  | off | vigil | romBoot | startup | service | drowse | ceremony | diagnostic | factoryTest | holdup | halted | zeroised
deriving DecidableEq, Repr

/-- Life-cycle states, in state byte order (R410). -/
inductive Lc where
  | raw | test | factory | provision | deployed | returned | scrap | locked
deriving DecidableEq, Repr

/-- A quarter's power state (R452). -/
inductive Pwr where | on | gated | off
deriving DecidableEq, Repr

/-- The common header of one register page (R20-R32), but for the fields that follow from other state. -/
structure Hdr where
  /-- PG_CTRL.LOCK [R24; 1 bit; 0] -/
  lock : Bool
  /-- PG_CTRL.DRAIN [R24; 1 bit; 0] -/
  drain : Bool
  /-- PG_CTRL.ENABLE [R24; 1 bit; 0] -/
  enable : Bool
  /-- a soft reset is in progress [R40; 1 bit; 0] -/
  softRst : Bool
  /-- PG_STAT.CFG_ERR [R25; 1 bit; 0] -/
  cfgErr : Bool
  /-- PG_ERR_CODE.CODE [R27; 16 bits; 0] -/
  errCode : Nat
  /-- PG_ERR_INFO.MORE [R27; 8 bits; 0] -/
  errMore : Nat
  /-- PG_ERR_INFO.WORLD [R27; 1 bit; 0] -/
  errWorld : Bool
  /-- PG_ERR_INFO.MASTER [R27; 3 bits; 0] -/
  errMaster : Nat
  /-- PG_ERR_INFO.OFFSET [R27; 12 bits; 0] -/
  errOff : Nat
  /-- PG_ERR_ADDR [R27; 40 bits; 0] -/
  errAddr : Nat
  /-- PG_IRQ_EN [R26; 32 bits; 0] -/
  irqEn : Nat
  /-- PG_IRQ_STAT [R26; 32 bits; 0] -/
  irqStat : Nat
  /-- PG_WORLD.NS_READ [R29; 1 bit; per page] -/
  nsRead : Bool
  /-- PG_WORLD.SECURE [R29; 1 bit; per page] -/
  secure : Bool
  /-- PG_PWR.REQUEST [R31; 2 bits; 0] -/
  pwrReq : Nat
  /-- the power state of the unit that its own requests have brought about [R452; 2 bits; ON] -/
  pwrNow : Nat
  /-- PG_STAT.PWR_PENDING [R453; 1 bit; 0] -/
  pwrPend : Bool
  /-- the waiting request came from the non-secure world and waits on secure work [R454; 1 bit; 0] -/
  pwrHeld : Bool
  /-- PG_VIOL_CNT [R32; 32 bits; 0] -/
  viol : Nat
deriving DecidableEq, Repr

/-- A pending J-class shadow of one register: which bits wait, and their values (R35). -/
structure Shadow where
  /-- bits that wait for the job boundary [R35; 32 bits; 0] -/
  mask : Nat
  /-- their values [R35; 32 bits; 0] -/
  val : Nat
deriving DecidableEq, Repr

/-- A change of mode whose drain is in progress (R448, R322). -/
structure Draining where
  /-- mode to be entered [R448; mode; none] -/
  target : Mode
  /-- the hart whose MODE_REQUEST started it, none for CER_ENTER [R448; 4 bits; none] -/
  caller : Option Nat
  /-- the tags of the commands in flight at its start [R322; 32 bits each; none] -/
  old : List Nat
deriving DecidableEq, Repr

/-- What the boot ROM waits for, or that firmware runs (R333, R343, R417, R419); charging is the wait of a roll-forward for its
supply. -/
inductive BootStage where
  | notRun | charging | service | loader | firmware | stopped
deriving DecidableEq, Repr

/-- Modes, boot and monitor state of the die. -/
structure SysSt where
  /-- SYS_MODE.MODE [R446, R467; 4 bits; 2 ROM_BOOT] -/
  mode : Mode
  /-- SYS_MODE.PREV [R467; 4 bits; 0 OFF] -/
  prev : Mode
  /-- a draining change of mode [R448; -; none] -/
  draining : Option Draining
  /-- how far the boot ROM has come [R333; -; not run] -/
  stage : BootStage
  /-- owner key row that admitted the running image [R342; 2 bits; none] -/
  runRow : Option Nat
  /-- IMAGE_VER of the running image [R345; 32 bits; 0] -/
  runVer : Nat
  /-- the hart reset state of every core lies in the monitor RAM [R333; 1 bit; 0] -/
  hartState : Bool
  /-- debug-taint bit [R425; 1 bit; 0] -/
  taint : Bool
  /-- nonce issued by DEBUG_NONCE in this boot and not yet void [R424; 32 bytes; none] -/
  dbgNonce : Option Bytes
  /-- secure enables applied in this boot, bits 2 and 3 [R424; 4 bits; 0] -/
  dbgGranted : Nat
  /-- the debug module is active, DBG_STAT.ATTACHED [R428; 1 bit; 0] -/
  dbgAttached : Bool
  /-- harts with a debug halt request pending [R421; 16 bits; 0] -/
  dbgHaltReq : Nat
  /-- harts halted by the debug module [R421; 16 bits; 0] -/
  dbgHalted : Nat
  /-- sbcs.sberror of the debug module [R426, R480; 3 bits; 0] -/
  dbgSbError : Nat
  /-- LC_STATE.ROLLED of this boot [R417; 1 bit; 0] -/
  rolled : Bool
  /-- life-cycle state that governs this boot, decoded at step 2 of R333 [R411, R416; -; PROVISION] -/
  lc : Lc
  /-- LC_STATE.COPY_DIFF found at step 2 [R411; 3 bits; 0] -/
  copyDiff : Nat
  /-- HALT_N asserted [R69; pin; 0] -/
  haltPin : Bool
  /-- ZERO_N asserted [R69; pin; 0] -/
  zeroPin : Bool
deriving DecidableEq, Repr

/-- Supplies and pins of the module (R443, R444, R458). -/
structure SupplySt where
  /-- P12V in mV [R443, R468; 16 bits; 12000] -/
  p12vMv : Nat
  /-- P12V good [R443; 1 bit; 1] -/
  p12vGood : Bool
  /-- P3V3_AUX good [R443; 1 bit; 1] -/
  auxGood : Bool
  /-- VBAT in mV, 0 when absent [R443, R409; 16 bits; 0] -/
  vbatMv : Nat
  /-- backup cell in mV [R409; 16 bits; 3000] -/
  cellMv : Nat
  /-- PWR_FAIL_N asserted [R458; pin; 0] -/
  pwrFail : Bool
  /-- module input power in units of 10 mW [R468; 16 bits; 0] -/
  inputPower : Nat
  /-- time at which P12V last became good with PWR_FAIL_N deasserted, or VIGIL was entered if later [R444; ns; 0] -/
  goodSince : Nat
  /-- voltage of the hold-up bank in mV [R460, R470; 16 bits; 0] -/
  bankMv : Nat
deriving DecidableEq, Repr

/-- The battery-backed domain (R402-R406, R409). -/
structure LanternSt where
  /-- the domain has a supply [R446; 1 bit; 1] -/
  powered : Bool
  /-- VIG_STAT.SUPPLY [R402, R409; 2 bits; 0] -/
  supply : Nat
  /-- time at which the time-stamp counter was zero [R404; ns; 0] -/
  epochNs : Nat
  /-- root secret [R137; 64 bytes; none] -/
  root : Option Bytes
  /-- vigil latch entries, oldest first, at most 16 [R405; 64 bits each; empty] -/
  latch : List Nat
  /-- VIG_STAT.LOST [R405; 8 bits; 0] -/
  lost : Nat
  /-- VIG_STAT.ZEROISED [R401; 1 bit; 0] -/
  zeroised : Bool
  /-- VIG_STAT.LANT_POR [R406; 1 bit; 0] -/
  por : Bool
  /-- VIG_CFG.TIN_FILTER [R409; 4 bits; 0] -/
  tinFilter : Nat
  /-- VIG_CFG.TIN_POL [R409; 4 bits; 0] -/
  tinPol : Nat
  /-- VIG_CFG.TIN_ARM [R409; 4 bits; 0] -/
  tinArm : Nat
  /-- VIG_CFG.ARM_A [R396; 1 bit; 0] -/
  armA : Bool
  /-- VIG_CFG.ARM_B [R396; 1 bit; 0] -/
  armB : Bool
  /-- VIG_LOOP_A.REF [R396; 16 bits; 0] -/
  refA : Nat
  /-- VIG_LOOP_B.REF [R396; 16 bits; 0] -/
  refB : Nat
  /-- VIG_LOOP_A.RES [R409; 16 bits; 0xFFFF] -/
  resA : Nat
  /-- VIG_LOOP_B.RES [R409; 16 bits; 0xFFFF] -/
  resB : Nat
  /-- configured responses of sources 7-12 and 15, by source, encoded as rank - 1 [R403, R408; 4 bits each; 0] -/
  resp : SMap Nat
  /-- time-stamps of the RESET responses of the last 60 s [R397; 48 bits each; empty] -/
  resets : List Nat
deriving DecidableEq, Repr

/-- One owner key row of the fuses (R338). -/
structure OwnerRow where
  /-- SHA-384 digest once programmed [R338; 48 bytes; none] -/
  digest : Option Bytes
  /-- revocation bit [R338; 1 bit; 0] -/
  revoked : Bool
deriving DecidableEq, Repr

/-- One-time fuses. -/
structure FuseSt where
  /-- life-cycle copy 0 [R410; 64 bits; PROVISION code] -/
  lc0 : Nat
  /-- life-cycle copy 1 [R410; 64 bits; PROVISION code] -/
  lc1 : Nat
  /-- life-cycle copy 2 [R410; 64 bits; PROVISION code] -/
  lc2 : Nat
  /-- token digest rows 0-7 by number [R414; 384 bits each; rows 0-3 programmed] -/
  rows : SMap (Option Bytes)
  /-- owner key rows 0-3 [R338; 4 rows; unprogrammed] -/
  owner : List OwnerRow
  /-- fused minimum SVN [R339; 0-255; 0] -/
  minSvn : Nat
  /-- tamper sources disabled by fuse [R392; 16 bits; 0] -/
  tampOff : Nat
  /-- fuse secret [R138; 32 bytes; the part's own] -/
  secret : Bytes
  /-- module serial number [R500; 16 bytes; the part's own] -/
  serial : Bytes
  /-- analog trim rows blown to all ones [R420; 1 bit; 0] -/
  trimBlown : Bool
deriving DecidableEq, Repr

/-- A debug grant held in MRAM (R424). -/
structure Grant where
  /-- ENABLES [R424; 4 bits; -] -/
  enables : Nat
  /-- BOOT_FIRST [R424; 64 bits; -] -/
  first : Nat
  /-- BOOT_LAST [R424; 64 bits; -] -/
  last : Nat
  /-- digest of AUTH_KEY [R424; 48 bytes; -] -/
  digest : Bytes
deriving DecidableEq, Repr

/-- The journal entry of a life-cycle transition (R416). -/
structure Journal where
  /-- FROM code [R416; 64 bits; -] -/
  src : Nat
  /-- TO code [R416; 64 bits; -] -/
  dst : Nat
  /-- token row used [R416; 4 bits; -] -/
  row : Nat
deriving DecidableEq, Repr

/-- Where a record of the log lies (R432, R437): the recorder's own pointer state. -/
structure LogRef where
  /-- sequence number [R430; 64 bits; -] -/
  seq : Nat
  /-- channel [R429; 4 bits; -] -/
  chan : Nat
  /-- severity [R429; 3 bits; -] -/
  sev : Nat
  /-- internal address of the header [R432; 40 bits; -] -/
  addr : Nat
  /-- length in bytes [R429; 16-1024; -] -/
  len : Nat
  /-- the record lies in the kept area of its channel [R434; 1 bit; -] -/
  kept : Bool
deriving DecidableEq, Repr

/-- Save summary of the last hold-up sequence (R459). -/
structure SaveSummary where
  /-- bytes written [R503; 64 bits; -] -/
  bytes : Nat
  /-- energy margin in 0.01 mJ [R503; 32 bits; -] -/
  margin : Nat
  /-- duration in µs [R503; 32 bits; -] -/
  dur : Nat
deriving DecidableEq, Repr

/-- Non-volatile state of the monitor, the recorder, hold-up and wear in MRAM, and the image area of vault flash. -/
structure NvSt where
  /-- boot count [R333; 64 bits; DESIGN CHOICE 2, the boots of manufacture (log entry 8)] -/
  bootCnt : Nat
  /-- active slot [R336; 1 bit; 0] -/
  actSlot : Nat
  /-- the active slot is on trial [R336; 1 bit; 0] -/
  trial : Bool
  /-- the trial of the active slot was used [R340; 1 bit; 0] -/
  trialUsed : Bool
  /-- image slots A and B of the image area [R336; bytes; empty] -/
  slots : SMap Bytes
  /-- debug grant [R424; -; none] -/
  grant : Option Grant
  /-- life-cycle journal [R416; -; none] -/
  journal : Option Journal
  /-- wipe marker of SCRAP [R420; 1 bit; 0] -/
  wiped : Bool
  /-- root marker written by GEN_ROOT [R406; 1 bit; 0] -/
  rootMark : Bool
  /-- next SEQ of the event recorder [R430; 64 bits; SEQ of MANUFACTURE + 1] -/
  evSeq : Nat
  /-- records in the log, in the order written [R431; -; manufacture record] -/
  log : List LogRef
  /-- write position of each channel's area, by channel: kept fill, then ring position [R434; -; 0] -/
  logPos : SMap Nat
  /-- channels whose kept area is full, by channel [R434; 1 bit each; 0] -/
  logFull : SMap Bool
  /-- last measured capacitance in µF, HOLD_CAP.CAP [R460; 16 bits; 2200] -/
  capUf : Nat
  /-- last measured ESR in mΩ, HOLD_CAP.ESR [R464; 16 bits; 50] -/
  esrMohm : Nat
  /-- E0, E_USE at shipment in 1/8 pJ [R465; 64 bits; 1037173552800] -/
  shipUse : Nat
  /-- time of the last successful bank measurement [R464; ns; 0] -/
  measAt : Nat
  /-- HOLD_LAST.DURATION [R470; 16 bits; 0] -/
  lastDur : Nat
  /-- HOLD_LAST.MARGIN [R470; 16 bits; 0] -/
  lastMargin : Nat
  /-- save summary awaiting the next boot [R459; -; none] -/
  save : Option SaveSummary
deriving DecidableEq, Repr

/-- Consumables of the wear page (R465, R466). -/
structure WearSt where
  /-- USED of items 0-13, by item [R465; 16 bits each; 0] -/
  used : SMap Nat
  /-- USED at the end of each of the last 30 days, newest first, by item [R466; -; empty] -/
  history : SMap (List Nat)
  /-- items whose USED has reached ALARM, WEAR_ALARMS.ITEM [R466; 14 bits; 0] -/
  items : Nat
  /-- WEAR_ALARMS.HOLD_MARGIN [R462; 1 bit; 0] -/
  holdMargin : Bool
  /-- WEAR_ALARMS.WEAR_END [R153; 1 bit; 0] -/
  wearEnd : Bool
deriving DecidableEq, Repr

/-- What one hart does (R345, SYS_CORE_STAT). -/
inductive HartRun where | off | running | parked | inReset
deriving DecidableEq, Repr

/-- A world's saved context on a hart, as far as the block keeps it: entry and argument before its first use, or
that it has run (R346). -/
structure Ctx where
  /-- entry address of a context not yet entered, none once it has run [R345; 40 bits; none] -/
  entry : Option Nat
  /-- argument of NS_ENTRY or HART_WAKE [R345; 64 bits; 0] -/
  arg : Nat
  /-- saved register image of a context that has run [R346; words; empty] -/
  saved : List Nat
deriving DecidableEq, Repr

/-- Privilege modes (R326), user the lowest. -/
inductive Priv where | user | supervisor | machine
deriving DecidableEq, Repr

/-- A PMP entry in use (R326, R330). -/
structure Pmp where
  /-- first address [R330; 40 bits; -] -/
  base : Nat
  /-- last address [R330; 40 bits; -] -/
  last : Nat
  /-- permissions read, write, execute [R330; 3 bits; -] -/
  perm : Bool × Bool × Bool
  /-- locked, for machine mode only [R330; 1 bit; -] -/
  monOnly : Bool
deriving DecidableEq, Repr

/-- One application core (R326-R351). -/
structure Hart where
  /-- off, running, parked or in reset [R345; 2 bits; off] -/
  run : HartRun
  /-- mworld.W [R328; 1 bit; 1] -/
  world : Bool
  /-- mdbltrap.NEST [R328; 1 bit; 0] -/
  nest : Bool
  /-- watchdog count in ns since its restart [R349; -; 0] -/
  wdStart : Nat
  /-- the hart waits in WFI [R453; 1 bit; 0] -/
  wfi : Bool
  /-- entry at which it started [R345; 40 bits; 0] -/
  entry : Nat
  /-- registers a0-a3 as last set by the monitor [R344-R346; 64 bits each; zeros] -/
  args : List Nat
  /-- integer registers, floating-point registers and supervisor CSRs of the running context, as one image
  [R346; words; empty] -/
  image : List Nat
  /-- secure-world context saved by the monitor [R346; -; none] -/
  secCtx : Option Ctx
  /-- non-secure context set by NS_ENTRY or saved by the monitor [R346; -; none] -/
  nsCtx : Option Ctx
  /-- a machine external interrupt of a monitor source is asserted [R355; 1 bit; 0] -/
  monIrq : Bool
  /-- the monitor has switched it to the secure world for an interrupt that it has not claimed yet; the line itself is seiLine's
  [R346, R358; 1 bit; 0] -/
  sei : Bool
  /-- privilege mode [R326, R329, R332; 2 bits; machine] -/
  priv : Priv
  /-- PMP entries in use, lowest first, the other entries of the sixteen being off [R326, R330; 16 entries; off] -/
  pmp : List Pmp
  /-- mcycle, minstret and the eight hardware performance counters [R326; 64 bits each; zeros] -/
  counters : List Nat
deriving DecidableEq, Repr

/-- Fault classes (R472). -/
inductive FltClass where | core | quarter | reset | halt
deriving DecidableEq, Repr

/-- A fault in a slot or in the queue (R472-R474). -/
structure Flt where
  /-- class [R472; 1-4; -] -/
  cls : FltClass
  /-- cause code of SYS_FLT_LAST [R483; 4 bits; -] -/
  cause : Nat
  /-- hart, quarter or tamper source [R473, R483; 8 bits; -] -/
  subj : Nat
deriving DecidableEq, Repr

/-- The fault controller (R472-R478). -/
structure FltSt where
  /-- slot of class CORE [R473; -; empty] -/
  core : Option Flt
  /-- slot of class QUARTER [R473; -; empty] -/
  quarter : Option Flt
  /-- slot of class RESET [R473; -; empty] -/
  rst : Option Flt
  /-- slot of class HALT [R473; -; empty] -/
  halt : Option Flt
  /-- queued faults, oldest first, at most 8 [R474; -; empty] -/
  queue : List Flt
  /-- SYS_FLT_STAT.ESCALATED [R474; 1 bit; 0] -/
  escalated : Bool
deriving DecidableEq, Repr

/-- One quarter (R452, R455, R351). -/
structure Quarter where
  /-- its power state [R452; 2 bits; off] -/
  pwr : Pwr
  /-- a waiting request for less power [R453; 2 bits; none] -/
  pend : Option Pwr
  /-- core resets counted in this boot, SYS_QSTAT.RESETS [R351; 2 bits; 0] -/
  resets : Nat
  /-- disabled under R351 [R351; 1 bit; 0] -/
  disabled : Bool
  /-- its PLL is locked [R451; 1 bit; 0] -/
  pll : Bool
  /-- it has been OFF since it was last ON, so its units' registers return to reset at the next ON [R479; 1 bit; 0] -/
  lost : Bool
  /-- time at which it was last GATED: its clocks, and with them its cores' watchdogs, stand still from then on [R349, R452; ns; 0] -/
  gatedAt : Nat
deriving DecidableEq, Repr

/-- Clocks, drowse and hold-up state of the hearth domain. -/
structure HearthSt where
  /-- the four quarters [R5, R452; -; off] -/
  quarters : List Quarter
  /-- die PLL locked [R469; 1 bit; 0] -/
  diePll : Bool
  /-- CLK_SCALE.SCALE [R451; 2 bits; 0] -/
  scale : Nat
  /-- time of DROWSE entry [R468; ns; 0] -/
  drowseAt : Nat
  /-- quarter states to return to at wake [R452; -; empty] -/
  drowsePrior : List Quarter
  /-- hart that called MODE_REQUEST for DROWSE [R456; 4 bits; none] -/
  drowseHart : Option Nat
  /-- a bank measurement runs, HOLD_STAT.MEASURING [R464; 1 bit; 0] -/
  measuring : Bool
  /-- HOLD_STAT.STALE [R464; 1 bit; 0] -/
  stale : Bool
  /-- HOLD_STAT.MARGIN_LOW [R462; 1 bit; 0] -/
  marginLow : Bool
  /-- pending queue limit K in KiB, KS_VLT_LIMIT.KIB [R462; 13 bits; 0x1000] -/
  vltLimit : Nat
deriving DecidableEq, Repr

/-- Owner of an active interrupt source (R359). -/
structure IrqActive where
  /-- owning hart [R359; 4 bits; -] -/
  hart : Nat
  /-- bank of the claim, true for secure [R359; 1 bit; -] -/
  bank : Bool
  deriving DecidableEq, Repr

/-- The interrupt controller but for its registers (R353-R363). -/
structure IrqSt where
  /-- pending bits of edge sources, by source [R356; 1 bit each; 0] -/
  edge : SMap Bool
  /-- active sources, by source [R359; -; none] -/
  active : SMap (Option IrqActive)
deriving DecidableEq, Repr

/-- What a DMA channel is doing (R377-R379). -/
structure DmaRun where
  /-- a transfer runs, PG_STAT.BUSY [R377; 1 bit; -] -/
  busy : Bool
  /-- the read-back of the transfer is outstanding [R378; 1 bit; -] -/
  readback : Bool
  /-- the transfer was started by a secure-world write [R454; 1 bit; -] -/
  secStart : Bool
deriving DecidableEq, Repr

/-- GPIO pins (R383). -/
structure GpioSt where
  /-- level at each pin from outside, GPIO_IN [R383; 8 bits; 0] -/
  level : Nat
deriving DecidableEq, Repr

/-- One tamper source's detectors (R389-R391). -/
structure TampSrc where
  /-- detector A tripped [R390; 1 bit; 0] -/
  a : Bool
  /-- detector B tripped [R390; 1 bit; 0] -/
  b : Bool
  /-- since when the detectors disagree [R391; ns; none] -/
  disSince : Option Nat
  /-- since when they agree after a firing of MONFAULT, none before any [R391; ns; none] -/
  agreeSince : Option Nat
  /-- MONFAULT has fired for the present disagreement [R391; 1 bit; 0] -/
  fired : Bool
  /-- a held trip of CLK_GLITCH or PULSE ends then [R390; ns; none] -/
  heldUntil : Option Nat
  /-- detector reading, none where the source has none [R399; signed; none] -/
  reading : Option Int
  /-- lantern ticks for which a TAMP_IN pin has been seen to hold its alarm level, plus one; 0 while it does not [R389; 0-16; 0] -/
  ticks : Nat
  /-- reading of detector B, where it has one [R391; signed; none] -/
  readingB : Option Int
  /-- rail of SUPPLY that the readings are of: VCORE, VSRAM, VIO [R389; 2 bits; 0] -/
  rail : Nat
deriving DecidableEq, Repr

/-- The tamper monitor but for its registers (R389-R399). -/
structure TampSt where
  /-- sources by number 0-15 [R389; 16; untripped] -/
  src : SMap TampSrc
  /-- sources that executed THROTTLE and are still in alarm [R394; 16 bits; 0] -/
  throttling : Nat
  /-- time at which throttling ends [R394; ns; none] -/
  throttleEnd : Option Nat
  /-- the source named by the last MONFAULT [R391; 4 bits; 0] -/
  monLast : Nat
deriving DecidableEq, Repr

/-- A programming operation of the life-cycle controller (R414, R416). -/
inductive LcOp where
  /-- a transition: target code, row; programming runs -/
  | transition (src dst row : Nat)
  /-- TOKEN_SET: row and digest; programming runs -/
  | tokenSet (row : Nat) (digest : Bytes)
deriving DecidableEq, Repr

/-- The life-cycle controller but for its registers. -/
structure LcSt where
  /-- the operation whose fuses are being programmed, LC_CMD.BUSY [R416; -; none] -/
  op : Option LcOp
  /-- the operation was requested through the ROM transition service [R419; 1 bit; 0] -/
  viaRom : Bool
deriving DecidableEq, Repr

/-- A record in the recorder's buffer (R431). -/
structure EvRec where
  /-- sequence number [R430; 64 bits; -] -/
  seq : Nat
  /-- channel [R429; 4 bits; -] -/
  chan : Nat
  /-- severity [R429; 3 bits; -] -/
  sev : Nat
  /-- code [R429; 16 bits; -] -/
  code : Nat
  /-- header and payload as they will be stored, COMMIT still 0 [R429; bytes; -] -/
  bytes : Bytes
deriving DecidableEq, Repr

/-- A record handed to the egress fence and not yet released (R430, R431). -/
structure EvHand where
  /-- channel [R429; 4 bits; -] -/
  chan : Nat
  /-- severity [R429; 3 bits; -] -/
  sev : Nat
  /-- code [R429; 16 bits; -] -/
  code : Nat
  /-- FLAGS bits 6 and 5: FROM_LATCH, FIRMWARE [R429; 8 bits; -] -/
  flags : Nat
  /-- committed by the boot ROM, so never rate-limited [R435; 1 bit; -] -/
  rom : Bool
  /-- unpadded payload [R429; bytes; -] -/
  payload : Bytes
  /-- a LOG_CLEARED record: channels to clear and the challenge to redeem [R438; -; none] -/
  clear : Option (Nat × Nat)
deriving DecidableEq, Repr

/-- A token bucket (R435). -/
structure Bucket where
  /-- tokens held [R435; -; BURST] -/
  tokens : Nat
  /-- time from which the next refill counts [R435; ns; 0] -/
  since : Nat
deriving DecidableEq, Repr

/-- The event recorder but for its registers and its MRAM state (R429-R442). -/
structure EvrSt where
  /-- records handed to the fence, oldest first [R431; -; empty] -/
  held : List EvHand
  /-- buffered records, oldest first [R431; 64 KiB; empty] -/
  buf : List EvRec
  /-- token buckets, by code, none while full [R435; -; none] -/
  buckets : SMap (Option Bucket)
  /-- suppressed count, by code [R435; 16 bits each; 0] -/
  suppressed : SMap Nat
  /-- cursors of the secure, non-secure and host port [R436; 64 bits each; next SEQ] -/
  cursors : List Nat
  /-- records copied into EVR_RD_REC of each port [R436; bytes each; empty] -/
  copied : List Bytes
  /-- EVR_RD_CUR_LO as written, by port [R442; 32 bits each; 0] -/
  curLo : List Nat
deriving DecidableEq, Repr

end Sys2Proof.Machine
end

