-- ==== Sys2Proof/Machine/StKey.lean ====
section
/-! DEFINITION. State of the key store: records, tiers, vault, roots (R108-R164). -/

namespace Sys2Proof.Machine

/-- A valid grant entry (R123). -/
structure Grantee where
  /-- GRANTEE [R123; 10 bits; -] -/
  inst : Nat
  /-- USE_MASK [R123; 16 bits; -] -/
  mask : Nat
deriving DecidableEq, Repr

/-- A key record but for its type and the chain of its extensions (R112). -/
structure KeyRec where
  /-- ALG [R112; 16 bits; -] -/
  alg : Nat
  /-- HANDLE [R108, R112; 64 bits; -] -/
  handle : Nat
  /-- FLAGS.ENC_LOCK [R113; 1 bit; 0] -/
  encLock : Bool
  /-- FLAGS.PERSISTED [R113; 1 bit; 0] -/
  persisted : Bool
  /-- FLAGS.DAMAGED [R113; 1 bit; 0] -/
  damaged : Bool
  /-- FLAGS.PUBLIC_ONLY [R113; 1 bit; 0] -/
  pubOnly : Bool
  /-- ATTR [R117; 64 bits; -] -/
  attr : Nat
  /-- USAGE_COUNT [R112; 64 bits; 0] -/
  used : Nat
  /-- USAGE_LIMIT [R112; 64 bits; -] -/
  limit : Nat
  /-- USAGE_RESV [R112, R127; 64 bits; 0] -/
  resv : Nat
  /-- NONCE_CTR [R112; 64 bits; 0] -/
  nonce : Nat
  /-- NONCE_RESV [R112; 64 bits; 0] -/
  nonceResv : Nat
  /-- EXPIRES [R112; 48 bits; -] -/
  expires : Nat
  /-- PARENT [R112; 64 bits; 0] -/
  parent : Nat
  /-- OWNER_QC [R112; 8 bits; -] -/
  qc : Nat
  /-- record numbers of the extensions, in chain order [R112, R116; 26 bits each; empty] -/
  exts : List Nat
  /-- valid grants, in the record and its grant extensions [R123; at most 60; empty] -/
  grants : List Grantee
  /-- LABEL [R112; 16 bytes; -] -/
  label : Bytes
  /-- key material across the record and its extensions [R112, R115; bytes; -] -/
  mat : Bytes
  /-- KCV [R114; 3 bytes; -] -/
  kcv : Bytes
  /-- LIFETIME given at creation, which a backup carries unreduced; no field of the 256 bytes holds it [R158; 64 bits; 0] -/
  life : Nat
deriving DecidableEq, Repr

/-- An extension record (R116). -/
structure ExtRec where
  /-- OWNER [R116; 26 bits; -] -/
  owner : Nat
  /-- SEQ [R116; 8 bits; -] -/
  seq : Nat
  /-- KIND 0x02, grants [R116; 1 bit; -] -/
  grants : Bool
  /-- NEXT [R116; 32 bits; -] -/
  next : Nat
  /-- OWNER_GEN [R116; 12 bits; -] -/
  gen : Nat
  /-- PAYLOAD [R116; 224 bytes; -] -/
  pay : Bytes
  /-- the HANDLE the record had before it became an extension, which it has again when it is free [R109; 64 bits; -] -/
  handle : Nat
deriving DecidableEq, Repr

/-- A record of T1 (R112, R116): free or retired with the HANDLE it keeps, a key, or an extension of a key record. -/
inductive T1Rec where
  | free (handle : Nat)
  | key (k : KeyRec)
  | ext (x : ExtRec)
  | retired (handle : Nat)
deriving DecidableEq, Repr

/-- A slot of T0 (R140, R141). -/
structure Slot where
  /-- record whose material it holds [R141; 26 bits; -] -/
  rec' : Nat
  /-- generation of that record [R141; 12 bits; -] -/
  gen : Nat
  /-- chunk number [R141; 8 bits; -] -/
  chunk : Nat
  /-- the slot's bytes [R140; 64 bytes; -] -/
  data : Bytes
  /-- slot MAC [R141; 64 bits; -] -/
  mac : Bytes
deriving DecidableEq, Repr

/-- A resident key: its slots in chunk order, and when it was last admitted (R140, R142). -/
structure Resident where
  /-- slots, by chunk [R140; 16 bits each; -] -/
  slots : List Nat
  /-- order of the last admission at the policy check [R142; -; -] -/
  use : Nat
  /-- draw pointer [R174; 64 bits; NONCE_CTR] -/
  ptr : Nat
  /-- entry of the resident-record table: the fields of the record's first 0x88 bytes, its material and KCV not among them
  [R140; 136 bytes; -] -/
  copy : KeyRec
deriving DecidableEq, Repr

/-- What one home of a vault record holds (R147): the clear header's fields and the record; its 304 bytes, encrypted and
authenticated under K_VAULT, are entryBytes. -/
structure VaultCopy where
  /-- GEN of the clear header [R147; 12 bits; -] -/
  gen : Nat
  /-- EPOCH [R147; 32 bits; -] -/
  epoch : Nat
  /-- BATCH [R147; 64 bits; -] -/
  batch : Nat
  /-- the record, its KIND that of the record [R147; -; -] -/
  body : T1Rec
  /-- the commit record of its batch is complete [R150; 1 bit; -] -/
  valid : Bool
deriving DecidableEq, Repr

/-- The two homes of a record number (R147). -/
structure Homes where
  /-- home 0 [R147; 304 bytes; empty] -/
  a : Option VaultCopy
  /-- home 1 [R147; 304 bytes; empty] -/
  b : Option VaultCopy
deriving DecidableEq, Repr

/-- An entry of the pending queue (R149). -/
structure VaultEnt where
  /-- record number [R147; 26 bits; -] -/
  recNo : Nat
  /-- contents to be written [R149; -; -] -/
  body : T1Rec
  /-- number of its closed batch, none while its batch is open [R149; -; none] -/
  batch : Option Nat
deriving DecidableEq, Repr

/-- One copy of the vault header (R147). -/
structure VaultHdr where
  /-- EPOCH [R147; 32 bits; 0] -/
  epoch : Nat
  /-- counter value at the epoch's start [R147; 64 bits; 0] -/
  start : Nat
  /-- check value [R147; 8 bytes; empty] -/
  check : Bytes
  /-- highest record number written in the epoch [R147; 32 bits; none] -/
  highest : Option Nat
deriving DecidableEq, Repr

/-- A commit record of the journal (R150). -/
structure Commit where
  /-- counter value of the batch [R150; 64 bits; 0] -/
  value : Nat
  /-- entry count [R150; -; 0] -/
  count : Nat
  /-- CMAC under K_VAULT over the entries' headers and tags [R150; 16 bytes; empty] -/
  mac : Bytes
deriving DecidableEq, Repr

/-- KS_STAT.VAULT_STATE (R163). -/
inductive VaultState where | absent | restoring | opened | readOnly | closedTaint | closedMismatch | closedRollback
deriving DecidableEq, Repr

/-- The key store controller and its media. -/
structure KeySt where
  /-- K_VAULT, K_SEAL and K_BKCHK, in this order [R138; 32 bytes each; none] -/
  roots : Option (Bytes × Bytes × Bytes)
  /-- K_SLOT [R138; 32 bytes; none] -/
  kSlot : Option Bytes
  /-- the staged root secret of GEN_ROOT [R137; 64 bytes; none] -/
  staged : Option Bytes
  /-- KS_STAT.TAINT, the taint bit used in the derivation [R163; 1 bit; 0] -/
  taint : Bool
  /-- T1 records by number [R145; 67,108,864; free at generation 0] -/
  t1 : SMap T1Rec
  /-- records written whose lines have yet to go to protected memory [R145, R253; -; empty] -/
  t1w : List Nat
  /-- T0 slots by number [R140; 65,536; empty] -/
  slots : SMap (Option Slot)
  /-- resident-record table, by record number [R140; 32,768 entries; empty] -/
  resident : SMap (Option Resident)
  /-- admissions at the policy check so far [R142; -; 0] -/
  uses : Nat
  /-- order of the last admission at the policy check, by record [R142; -; 0] -/
  lastUse : SMap Nat
  /-- retired slots of the quarantine, in MRAM [R143; 65,536 bits; none] -/
  pound : SMap Bool
  /-- POUND_HIGH has been raised at the limit [R144; 1 bit; 0] -/
  poundHigh : Bool
  /-- VAULT_STATE [R148, R163; 3 bits; 0 ABSENT] -/
  state : VaultState
  /-- the restore frontier, 0x4000000 once every record is restored; KS_RESTORE.FRONTIER shows at most 0x3FFFFFF [R148; 27 bits; 0] -/
  frontier : Nat
  /-- vault homes by record number [R147; -; empty] -/
  homes : SMap Homes
  /-- vault header: EPOCH [R147; 32 bits; 0] -/
  epoch : Nat
  /-- vault header: counter value at the epoch's start [R147; 64 bits; 0] -/
  epochStart : Nat
  /-- vault header: check value [R147; 8 bytes; empty] -/
  check : Bytes
  /-- vault header: highest record number written in the epoch [R147; 32 bits; none] -/
  highest : Option Nat
  /-- the second copy of the vault header [R147; 4 KiB; as the first] -/
  hdrB : VaultHdr
  /-- newest complete commit record of the journal [R150, R152; -; value 0] -/
  journal : Commit
  /-- cells of the counter that fail their write verification, by coming increment that no command of its own brings; what the parts do
  is told at the boot [R152; -; empty, read as 0] -/
  weak : List Nat
  /-- anti-rollback cells [R152; 64 of 64 bits; 0] -/
  cells : List Nat
  /-- spare cells left, KS_VLT_SPARE [R152; 8 bits; 192] -/
  spares : Nat
  /-- the counter is frozen, a cell having failed with no spare left [R153; 1 bit; 0] -/
  frozen : Bool
  /-- pending queue, oldest first [R149; -; empty] -/
  queue : List VaultEnt
  /-- batches closed so far [R149; -; 0] -/
  batches : Nat
  /-- records whose damaged copy waits for room in the queue to be rewritten [R151, R156; 1 bit; 0] -/
  repairDue : SMap Bool
  /-- time at which the open batch closes [R149; ns; none] -/
  closeAt : Option Nat
  /-- usage-only changes not yet queued: time at which the entry falls due, by record [R149; ns; none] -/
  usageDue : SMap (Option Nat)
  /-- in-flight counts, by record [R126; -; 0] -/
  flight : SMap Nat
  /-- size of the current block of reserved uses, by record [R127; at most 1,024; 0] -/
  usageBlock : SMap Nat
  /-- persistent records whose USAGE_COUNT has been set to USAGE_RESV in this boot [R127; 1 bit; 0] -/
  resumed : SMap Bool
  /-- NONCE_RESV raises requested and not yet in force: new value and epoch of what it was computed from, by record
  [R174; -; none] -/
  nonceRaise : SMap (Option (Nat × Option Nat))
  /-- USAGE_RESV raises requested and not yet committed, by record: before its entry is queued the new value, and false;
  from then on the bound by which admission goes until the commit, and true [R127; -; none] -/
  usageRaise : SMap (Option (Nat × Bool))
  /-- records loaded into T0 in this boot, for which NONCE_CTR has been set to NONCE_RESV [R149, R174; 1 bit; 0] -/
  loaded : SMap Bool
  /-- material kept for commands admitted before a destruction [R129; -; none] -/
  ended : SMap (Option KeyRec)
  /-- derived-ephemeral keys noticed as ended [R111; 1 bit; 0] -/
  noticed : SMap Bool
  /-- an operation of KS_CMD runs, BUSY [R163; 1 bit; 0] -/
  busy : Bool
  /-- steps of a running GEN_ROOT that have ended [R137; 0 to 5; 0] -/
  opStep : Nat
deriving DecidableEq, Repr

/-- The key store as shipped (R2, R147, R152, R163). -/
def keyReset : KeySt :=
  { roots := none, kSlot := none, staged := none, taint := false, t1 := [], t1w := [], slots := [], resident := [], uses := 0, lastUse := [],
    pound := [], poundHigh := false, state := .absent, frontier := 0, homes := [], epoch := 0, epochStart := 0,
    check := [], highest := none, hdrB := ⟨0, 0, [], none⟩, journal := ⟨0, 0, []⟩, weak := [], cells := List.replicate 64 0, spares := 192, frozen := false,
    queue := [], batches := 0, repairDue := [], closeAt := none, usageDue := [], flight := [], usageBlock := [], resumed := [], nonceRaise := [], usageRaise := [], loaded := [], ended := [], noticed := [],
    busy := false, opStep := 0 }

end Sys2Proof.Machine
end

