-- ==== Sys2Proof/Machine/StCmd.lean ====
section
/-! DEFINITION. State of the command processor, of the routed queue and of the commands in flight (R77-R107). -/

namespace Sys2Proof.Machine

/-- A PYP 2.x descriptor (R85). -/
structure Desc where
  /-- OPCODE [R85; 16 bits; -] -/
  opcode : Nat
  /-- FLAGS [R86; 16 bits; -] -/
  flags : Nat
  /-- CMD_ID [R85; 16 bits; -] -/
  cmdId : Nat
  /-- PARAM [R85; 16 bits; -] -/
  param : Nat
  /-- KEY_HANDLE [R85; 64 bits; -] -/
  key : Nat
  /-- KEY2_HANDLE [R85; 64 bits; -] -/
  key2 : Nat
  /-- SRC_ADDR [R85; 64 bits; -] -/
  src : Nat
  /-- DST_ADDR [R85; 64 bits; -] -/
  dst : Nat
  /-- SRC_LEN [R85; 32 bits; -] -/
  srcLen : Nat
  /-- DST_LEN [R85; 32 bits; -] -/
  dstLen : Nat
  /-- AUX_ADDR [R85; 64 bits; -] -/
  aux : Nat
  /-- AUX_LEN [R85; 16 bits; -] -/
  auxLen : Nat
  /-- OPT [R85; 16 bits; -] -/
  opt : Nat
  /-- TICKET_LEN [R85; 16 bits; -] -/
  ticketLen : Nat
  /-- reserved word at 0x3E [R85; 16 bits; -] -/
  rsvd : Nat
deriving DecidableEq, Repr

/-- Where a command stands (R8); retry is the wait after its unit answered TARGET_RESET (R480). -/
inductive Stage where
  | fetched | reading | policy | route | routed | ring | taken | run | held | retry
deriving DecidableEq, Repr

/-- What a host read is for (R83, R87, R88). -/
inductive ReadFor where
  /-- the next n entries of queue q, bound to completion queue cq; live while the queue has not been enabled anew since, so that the
  answer moves its HEAD -/
  | fetch (inst q cq n : Nat) (live : Bool)
  | srcSgl | dstSgl | src | aux | ticket
deriving DecidableEq, Repr

/-- A host read issued and not yet answered (R66). -/
structure HRead where
  /-- number of the read [R56; -; -] -/
  id : Nat
  /-- command it serves, none for a fetch [R66; -; -] -/
  tag : Option Nat
  /-- what it is for [R83; -; -] -/
  what : ReadFor
  /-- the completion is to be discarded when it arrives [R66; 1 bit; 0] -/
  dropped : Bool
  /-- an answer that waits for those of its queue's earlier fetches [R94; bytes or a failed read; none] -/
  got : Option (Option Bytes)
  /-- link on which it was issued [R50; 1 bit; -] -/
  link : Nat
  /-- requests of it that are outstanding, each holding a tag [R50; -; -] -/
  reqs : Nat
  /-- requests of it that wait for a tag, address and length [R50; -; empty] -/
  todo : List (Nat × Nat)
  /-- SR-IOV function that issues it [R48; -; -] -/
  fn : Nat
  /-- bytes that its outstanding requests ask for [R50; -; -] -/
  due : Nat
  /-- what its earlier requests returned [R50; bytes; empty] -/
  have' : Bytes
deriving DecidableEq, Repr

/-- A change that a command makes when the fence releases it (R95, R128, R266). -/
inductive Effect where
  /-- a new key: the record but for its handle and EXPIRES, its class, instance and lifetime, whether RESULT0 carries the
  new handle, and at which offset of the output it stands -/
  | create (k : KeyRec) (cls inst life : Nat) (toR0 : Bool) (outAt : Option Nat)
  | destroy (handle : Nat)
  | setAttr (handle set clear limit : Nat) (label : Option Bytes)
  | grant (handle : Nat) (g : Grantee)
  | revoke (handle inst : Nat)
  /-- NEVER_EXPORTED is cleared -/
  | exported (handle : Nat)
  /-- NONCE_CTR advances to a value -/
  | nonce (handle ctr : Nat)
  /-- a context block's key is used up, or an access-code counter moves -/
  | counter (handle value : Nat)
  /-- a challenge is redeemed -/
  | redeem (id : Nat)
  /-- a backup entry repairs a damaged record -/
  | repair (handle : Nat) (k : KeyRec)
deriving DecidableEq, Repr

/-- What a command has come to (R90, R266). -/
structure Result where
  /-- STATUS [R106; 16 bits; -] -/
  status : Nat
  /-- INFO [R91; 16 bits; -] -/
  info : Nat
  /-- RESULT0 [R90; 64 bits; -] -/
  r0 : Nat
  /-- RESULT1 [R90; 64 bits; -] -/
  r1 : Nat
  /-- bytes for the output area [R90; bytes; -] -/
  out : Bytes
  /-- OUT_LEN where it is not the length of the output, as after AUTH_FAIL [R90; 32 bits; -] -/
  outLen : Nat
  /-- changes made at release, in order [R266; -; -] -/
  effects : List Effect
  /-- context written back into the context area of the auxiliary block [R177; 0 or 128 bytes; -] -/
  auxOut : Bytes
  /-- plaintext of a large output that streamed to the output area before its tag failed [R172; bytes; -] -/
  stream : Bytes
deriving DecidableEq, Repr

/-- A command between fetch and release (R8). -/
structure Cmd where
  /-- TAG assigned by the device [R99; 32 bits; -] -/
  tag : Nat
  /-- submitting instance [R99; 10 bits; -] -/
  inst : Nat
  /-- submitting queue [R99; 4 bits; -] -/
  sq : Nat
  /-- completion queue [R79; 4 bits; -] -/
  cq : Nat
  /-- PYP major and minor [R103; -; -] -/
  ver : Nat × Nat
  /-- entry as read [R84; 64 or 32 bytes; -] -/
  raw : Bytes
  /-- descriptor, translated where it is PYP 1.x [R104; -; -] -/
  desc : Desc
  /-- stage [R8; -; -] -/
  stage : Stage
  /-- data of the source, auxiliary block, ticket area, as read [R85, R88; bytes; none] -/
  src : Option Bytes
  aux : Option Bytes
  ticket : Option Bytes
  /-- scatter list of the destination, once read [R87; -; none] -/
  dstList : Option (List (Nat × Nat))
  /-- scatter list of the source, once read [R87; -; none] -/
  srcList : Option (List (Nat × Nat))
  /-- quarter whose work ring holds it, or whose unit took it [R11; 2 bits; -] -/
  quarter : Nat
  /-- lane, cluster or engine that took it: class 3 index [R11, R368; -; none] -/
  unit : Option Nat
  /-- records admitted at the policy check, as they stood then, KEY_HANDLE first [R95, R126; -; empty] -/
  keys : List KeyRec
  /-- record numbers that count a use at release [R126; -; empty] -/
  counted : List Nat
  /-- challenges reserved by its tickets [R125, R314; -; empty] -/
  tickets : List Nat
  /-- key material has been delivered to the engine [R141; 1 bit; 0] -/
  keyed : Bool
  /-- latest epoch of the provisional data it used [R264; 16 bits; none] -/
  epoch : Option Nat
  /-- parts already done of a command in parts [R166; -; 0] -/
  done : Nat
  /-- output of those parts [R166; bytes; empty] -/
  part : Bytes
  /-- bytes of that output already written to the host [R166; -; 0] -/
  sent : Nat
  /-- time at which its routed entry was written [R101; ns; 0] -/
  routedAt : Nat
  /-- what firmware's service of a routed command has come to, before firmware completes it [R99, R130; -; none] -/
  svc : Option Result
  /-- what it has come to [R266; -; none] -/
  result : Option Result
  /-- its host writes, completion and message are discarded [R66; 1 bit; 0] -/
  mute : Bool
  /-- a retry after TARGET_RESET has been used [R480; 1 bit; 0] -/
  retried : Bool
deriving DecidableEq, Repr

/-- The command processor but for its registers. -/
structure CmdSt where
  /-- commands between fetch and release, in order of fetch [R102; -; empty] -/
  cmds : List Cmd
  /-- next TAG [R99; 32 bits; 1] -/
  nextTag : Nat
  /-- host reads issued and not answered, oldest first [R66; -; empty] -/
  reads : List HRead
  /-- next host read number [R56; -; 1] -/
  nextRead : Nat
  /-- SQ tail doorbells by instance * 16 + queue [R80; 16 bits each; 0] -/
  tails : SMap Nat
  /-- CQ head doorbells by instance * 16 + queue [R80; 16 bits each; 0] -/
  heads : SMap Nat
  /-- counted completions since the last message, by completion queue [R93; -; 0] -/
  coal : SMap Nat
  /-- time of the first counted completion since the last message, by completion queue [R93; ns; none] -/
  coalAt : SMap (Option Nat)
  /-- instance served last by the fetch stage [R83; 10 bits; 1,023] -/
  served : Nat
  /-- K_CTX [R178; 32 bytes; none] -/
  kCtx : Option Bytes
  /-- turns taken in the present round, by queue [R83; -; 0] -/
  turns : SMap Nat
  /-- weight in force in the present round, by queue; 0 before the first round [R79, R83; 8 bits; 0] -/
  weights : SMap Nat
deriving DecidableEq, Repr

/-- The command processor before it is enabled. -/
def cmdReset : CmdSt :=
  { cmds := [], nextTag := 1, reads := [], nextRead := 1, tails := [], heads := [], coal := [], coalAt := [],
    served := 1023, kCtx := none, turns := [], weights := [] }

end Sys2Proof.Machine
end

