-- ==== Sys2Proof/Machine/StUnits.lean ====
section
/-! DEFINITION. State of the cipher lanes, hash clusters and public-key engines but for their registers (R165-R225). -/

namespace Sys2Proof.Machine

/-- One lane, cluster or engine. -/
structure Unit' where
  /-- TAG of the command it works on [R165, R200; 32 bits; none] -/
  cur : Option Nat
  /-- SYM_STAT, HASH_STAT or PKE_STAT.OUT_OF_SERVICE [R167, R197, R220, R223; 1 bit; 0] -/
  oos : Bool
  /-- job of its job port that has not finished [R198, R224; -; none] -/
  job : Option Cmd
  /-- the job runs with ROM keys [R198; 1 bit; 0] -/
  jobRom : Bool
  /-- the known-answer tests of this boot count in its page's counters [R197, R223, R335; 1 bit; 0] -/
  kat : Bool
  /-- the result registers of its page are those of the last known-answer job [R197, R335; 1 bit; 0] -/
  katRes : Bool
  /-- bytes an engine has drawn from its quarter's DRBG, PKE_RAND in bytes [R223; -; 0] -/
  drawn : Nat
deriving DecidableEq, Repr

/-- A unit before it has taken work. -/
def unitReset (_ : Nat) : Unit' := ⟨none, false, none, false, false, false, 0⟩

end Sys2Proof.Machine
end

