-- ==== Sys2Proof/Machine/State.lean ====
section
/-! DEFINITION. The state of the block: everything the spec gives it, the queue of waiting commands, the reasons a
step can stop, and the state after reset. -/

namespace Sys2Proof.Machine

/-- Everything of the block but the queue of commands. -/
structure Dev where
  /-- modes, boot and monitor state -/
  sys : SysSt
  /-- what the parts do at a boot, as the last cold reset or restart found them -/
  parts : BootParts
  /-- supplies -/
  sup : SupplySt
  /-- battery-backed domain -/
  lant : LanternSt
  /-- fuses -/
  fuse : FuseSt
  /-- non-volatile state of MRAM and of the image area -/
  nv : NvSt
  /-- wear items -/
  wear : WearSt
  /-- harts 0-15, by number -/
  harts : SMap Hart
  /-- fault controller -/
  flt : FltSt
  /-- faults raised and not yet taken by the fault controller [R473; -; empty] -/
  raised : List Flt
  /-- clocks, quarters, hold-up -/
  hearth : HearthSt
  /-- interrupt controller -/
  irq : IrqSt
  /-- DMA channels 0-31, by number -/
  dma : SMap DmaRun
  /-- GPIO pins -/
  gpio : GpioSt
  /-- tamper monitor -/
  tamp : TampSt
  /-- life-cycle controller -/
  lc : LcSt
  /-- event recorder -/
  evr : EvrSt
  /-- host attachment -/
  host : HostSt
  /-- entropy -/
  ent : EntSt
  /-- memory protection engine -/
  mpe : MpeSt
  /-- key store -/
  key : KeySt
  /-- command processor -/
  cmd : CmdSt
  /-- lanes, clusters and engines, by their index in class 3 of R368: 0-15, 16-19, 20-27 -/
  units : SMap Unit'
  /-- instances and manager -/
  mgr : MgrSt
  /-- officer block -/
  ofc : OfcSt
  /-- page headers, by page number -/
  hdr : SMap Hdr
  /-- block registers, by page * 1024 + offset / 4 -/
  regs : SMap Word
  /-- pending J-class shadows, by the same key -/
  shadow : SMap Shadow
  /-- bytes of the on-die and MRAM address ranges of R14 -/
  mem : List Host.Cell
  /-- what the last command made visible outside (the model's own field) -/
  out : List OutEv
  /-- the interconnect's last response (the model's own field) -/
  bus : Option BusResp
  /-- time since reset in ns (the model's own field) -/
  now : Nat
  /-- free values drawn so far (the model's own field) -/
  fresh : Nat
deriving DecidableEq, Repr

/-- The state of the block and the commands that wait, first in, first out. -/
structure State where
  /-- the block -/
  dev : Dev
  /-- commands waiting [the model's own field; -; empty] -/
  pending : List Instr
deriving DecidableEq, Repr

/-- Reasons a step stops with a fault. The manual gives every command an effect, so none is raised but by name. -/
inductive Fault where
  /-- Raised by no meaning: the block has no command whose outcome the manual calls a stop. Safe. -/
  | none
deriving DecidableEq, Repr

/-- Reasons a command is refused. -/
inductive Refusal where
  /-- Raised by exec's arm of a command that has no meaning yet. Safe: nothing can be proved of it. -/
  | notModelled (mnemonic : String)
deriving DecidableEq, Repr

/-! ## The state after reset -/

/-- Life-cycle code of a state (R410). -/
def lcCode : Lc → Nat
  | .raw => 0 | .test => 0xFFF | .factory => 0xFFFFFF | .provision => 0xFFFFFFFFF | .deployed => 0xFFFFFFFFFFFF
  | .returned => 0xFFFFFFFFFFFFFFF | .scrap => 0xFFFFFFFFFFFFFFFF | .locked => 1

/-- The part as shipped and out of reset (R2, R446, R467): ROM_BOOT, and no step of the boot ROM run yet. -/
def sysReset : SysSt :=
  { mode := .romBoot, prev := .off, draining := none, stage := .notRun, runRow := none, runVer := 0, hartState := false, taint := false,
    dbgNonce := none, dbgGranted := 0, dbgAttached := false, dbgHaltReq := 0, dbgHalted := 0, dbgSbError := 0, rolled := false,
    lc := .provision, copyDiff := 0, haltPin := false, zeroPin := false }

/-- Supplies within limits (R443, R484). -/
def supReset : SupplySt :=
  { p12vMv := 12000, p12vGood := true, auxGood := true, vbatMv := 3000, cellMv := 3000, pwrFail := false,
    inputPower := 0, goodSince := 0, bankMv := 0 }

/-- The battery-backed domain powered, without a root secret (R2, R404-R406, R409). -/
def lantReset : LanternSt :=
  { powered := true, supply := 0, epochNs := 0, root := none, latch := [], lost := 0, zeroised := false, por := false,
    tinFilter := 0, tinPol := 0, tinArm := 0, armA := false, armB := false, refA := 0, refB := 0, resA := 0xFFFF,
    resB := 0xFFFF, resp := [], resets := [] }

/-- An owner key row unprogrammed (R2, R338). -/
def ownerRowReset : OwnerRow := ⟨none, false⟩

/-- Character n of the module's serial number as a part is marked (R500): "TS", a letter, and digits. -/
def serialChar (n : Nat) : Byte :=
  let x := (Config.serialByte n).toNat
  match n with
  | 0 => 0x54
  | 1 => 0x53
  | 2 => BitVec.ofNat 8 (0x41 + x % 26)
  | _ => BitVec.ofNat 8 (0x30 + x % 10)

/-- Fuses as shipped (R2): PROVISION, rows 0-3 programmed, no owner key. -/
def fuseReset : FuseSt :=
  { lc0 := lcCode .provision, lc1 := lcCode .provision, lc2 := lcCode .provision
    rows := (List.range 4).map (fun r => (r, some ((List.range 48).map (fun k => Config.tokenRowByte r k))))
    owner := List.replicate 4 ownerRowReset, minSvn := 0, tampOff := 0
    secret := (List.range 32).map Config.fuseSecretByte, serial := (List.range 16).map serialChar
    trimBlown := false }

/-- Non-volatile state as shipped (R2, R460, R464). The log holds what one boot each in RAW, TEST and FACTORY and one transition in each
commit (R333, R416, R447): MODE_CHANGE into ROM_BOOT and, but for RAW, into STARTUP, BOOT of the firmware that asks for the transition, and
LC_TRANSITION; MANUFACTURE is the last (R2). That nothing else was recorded, and the boot count that goes with it, are the model's choice. -/
def nvReset : NvSt :=
  { bootCnt := 2, actSlot := 0, trial := false, trialUsed := false, slots := [], grant := none,
    journal := none, wiped := false, rootMark := false, evSeq := 12
    log := [⟨1, 6, 0, 0x41B8_0000, 24, true⟩, ⟨2, 1, 3, 0x4188_0000, 24, false⟩, ⟨3, 6, 0, 0x41B8_0018, 24, true⟩,
      ⟨4, 6, 0, 0x41B8_0030, 24, true⟩, ⟨5, 2, 0, 0x418C_0000, 32, true⟩, ⟨6, 1, 3, 0x4188_0400, 24, false⟩,
      ⟨7, 6, 0, 0x41B8_0048, 24, true⟩, ⟨8, 6, 0, 0x41B8_0060, 24, true⟩, ⟨9, 2, 0, 0x418C_0020, 32, true⟩,
      ⟨10, 1, 3, 0x4188_0800, 24, false⟩, ⟨11, 2, 0, 0x418C_0040, 16, true⟩]
    logPos := [(2, 80), (6, 120)], logFull := [], capUf := 2200, esrMohm := 50, shipUse := 1037173552800,
    measAt := 0, lastDur := 0, lastMargin := 0, save := none }

/-- The bytes of the records of manufacture that are not 0, each where its channel keeps it: LC_TRANSITION in slots of channel 1, BOOT and
MANUFACTURE on channel 2, MODE_CHANGE on channel 6. The payload of MANUFACTURE is empty, which is the model's choice (R2, R416, R429, R430,
R432, R441, R503). -/
def manufactureCells : List Host.Cell :=
  [(0x4188_0000, 0x03), (0x4188_0001, 0x13), (0x4188_0002, 0x01), (0x4188_0003, 0x01), (0x4188_0004, 0x80),
   (0x4188_0008, 0x02), (0x4188_0011, 0x01), (0x4188_0400, 0x03), (0x4188_0401, 0x13), (0x4188_0402, 0x01),
   (0x4188_0403, 0x01), (0x4188_0404, 0x80), (0x4188_0408, 0x06), (0x4188_0410, 0x01), (0x4188_0411, 0x02),
   (0x4188_0412, 0x01), (0x4188_0800, 0x03), (0x4188_0801, 0x13), (0x4188_0802, 0x01), (0x4188_0803, 0x01),
   (0x4188_0804, 0x80), (0x4188_0808, 0x0A), (0x4188_0810, 0x02), (0x4188_0811, 0x03), (0x4188_0812, 0x02),
   (0x418C_0000, 0x04), (0x418C_0001, 0x20), (0x418C_0002, 0x02), (0x418C_0003, 0x02), (0x418C_0004, 0x80),
   (0x418C_0008, 0x05), (0x418C_0010, 0x01), (0x418C_0019, 0xE0), (0x418C_001A, 0x01), (0x418C_0020, 0x04),
   (0x418C_0021, 0x20), (0x418C_0022, 0x02), (0x418C_0023, 0x02), (0x418C_0024, 0x80), (0x418C_0028, 0x09),
   (0x418C_0030, 0x02), (0x418C_0039, 0xE0), (0x418C_003A, 0x01), (0x418C_0040, 0x02), (0x418C_0041, 0x20),
   (0x418C_0042, 0x01), (0x418C_0043, 0x02), (0x418C_0044, 0x80), (0x418C_0048, 0x0B), (0x41B8_0000, 0x03),
   (0x41B8_0001, 0x60), (0x41B8_0002, 0x03), (0x41B8_0003, 0x06), (0x41B8_0004, 0x80), (0x41B8_0008, 0x01),
   (0x41B8_0011, 0x02), (0x41B8_0018, 0x03), (0x41B8_0019, 0x60), (0x41B8_001A, 0x03), (0x41B8_001B, 0x06)]
  ++ [(0x41B8_001C, 0x80), (0x41B8_0020, 0x03), (0x41B8_0029, 0x02), (0x41B8_0030, 0x03), (0x41B8_0031, 0x60),
   (0x41B8_0032, 0x03), (0x41B8_0033, 0x06), (0x41B8_0034, 0x80), (0x41B8_0038, 0x04), (0x41B8_0040, 0x02),
   (0x41B8_0041, 0x03), (0x41B8_0048, 0x03), (0x41B8_0049, 0x60), (0x41B8_004A, 0x03), (0x41B8_004B, 0x06),
   (0x41B8_004C, 0x80), (0x41B8_0050, 0x07), (0x41B8_0059, 0x02), (0x41B8_0060, 0x03), (0x41B8_0061, 0x60),
   (0x41B8_0062, 0x03), (0x41B8_0063, 0x06), (0x41B8_0064, 0x80), (0x41B8_0068, 0x08), (0x41B8_0070, 0x02),
   (0x41B8_0071, 0x03)]

/-- A quarter before it is powered. -/
def quarterReset : Quarter := ⟨.off, none, 0, false, false, false, 0⟩

/-- The hearth before boot. -/
def hearthReset : HearthSt :=
  { quarters := List.replicate 4 quarterReset, diePll := false, scale := 0, drowseAt := 0, drowsePrior := [],
    drowseHart := none, measuring := false, stale := false, marginLow := false, vltLimit := 0x1000 }

/-- A link down. -/
def linkReset : LinkSt :=
  { training := false, up := false, vfEnable := false, numVfs := 0, ari := false, sysPage := 1, aspm := false, doeReq := none,
    doeResp := false, spdmVer := 0, spdmAlg := false, xfer := 0, chunkIn := none, chunkOut := none, nextLarge := 0, sessions := [], ide := [] }

/-- The host attachment before boot. -/
def hostReset : HostSt :=
  { a := linkReset, b := linkReset, rstPin := false, rstUpAt := 0, fns := [], eid := 0, pldmEvents := false,
    alert := false, ownerChain := none, usbAttached := false }

/-- The recorder before boot. -/
def evrReset : EvrSt :=
  { held := [], buf := [], buckets := [], suppressed := [], cursors := [5, 5, 5], copied := [[], [], []],
    curLo := [0, 0, 0] }

/-- The block right after reset. -/
def Dev.reset : Dev :=
  { sys := sysReset, parts := ⟨true, true, [], [], [], [], [], []⟩, sup := supReset, lant := lantReset, fuse := fuseReset, nv := nvReset,
    wear := ⟨[], [], 0, false, false⟩, harts := [], flt := ⟨none, none, none, none, [], false⟩, raised := [],
    hearth := hearthReset, irq := ⟨[], []⟩, dma := [], gpio := ⟨0⟩, tamp := ⟨[], 0, none, 0⟩, lc := ⟨none, false⟩,
    evr := evrReset, host := hostReset, ent := entReset, mpe := mpeReset, key := keyReset,
    cmd := cmdReset, units := [], mgr := mgrReset, ofc := ofcReset, hdr := [], regs := [], shadow := [], mem := manufactureCells, out := [],
    bus := none, now := 0, fresh := 0 }

/-- The state right after reset: the module as shipped (R2), powered, no command waiting. -/
def State.reset : State := ⟨Dev.reset, []⟩

end Sys2Proof.Machine
end

