-- ==== Sys2Proof/Machine/Ops.lean ====
section
/-! DEFINITION. Named operations over page headers, registers, interrupt signalling, time and memory, on which every
meaning rests. Each cites the rule it follows. -/

namespace Sys2Proof.Machine

/-! ## Modes and time -/

/-- Mode code (R446). -/
def modeCode : Mode → Nat
  | .off => 0 | .vigil => 1 | .romBoot => 2 | .startup => 3 | .service => 4 | .drowse => 5 | .ceremony => 6
  | .diagnostic => 7 | .factoryTest => 8 | .holdup => 9 | .halted => 10 | .zeroised => 11

/-- The mode of a code (R446). -/
def modeOf : Nat → Option Mode
  | 0 => some .off | 1 => some .vigil | 2 => some .romBoot | 3 => some .startup | 4 => some .service | 5 => some .drowse
  | 6 => some .ceremony | 7 => some .diagnostic | 8 => some .factoryTest | 9 => some .holdup | 10 => some .halted
  | 11 => some .zeroised | _ => none

/-- The modes from ROM_BOOT onward: the die has power (R444, R446). -/
def dieOn (m : Mode) : Bool := 2 ≤ modeCode m

/-- HALTED or ZEROISED. -/
def stopped (m : Mode) : Bool := 10 ≤ modeCode m

/-- The modes 2 to 8 that HOLDUP is entered from (R446, R458). -/
def savable (m : Mode) : Bool := 2 ≤ modeCode m && modeCode m ≤ 8

/-- Period of one hundred lantern ticks and the like are computed exactly: the time-stamp of a time (R404). -/
def tickOf (ns : Nat) : Nat := ns * 32768 / 1000000000

/-- The first time at which the counter has reached a tick (R404). -/
def nsOfTick (t : Nat) : Nat := (t * 1000000000 + 32767) / 32768

/-- The lantern time-stamp counter, 48 bits (R404). -/
def stamp (d : Dev) : Nat := tickOf (d.now - d.lant.epochNs) % 2 ^ 48

/-- Lets time reach at least t. -/
def waitUntil (t : Nat) (d : Dev) : Dev := { d with now := max d.now t }

/-- Adds an external action. -/
def emit (e : OutEv) (d : Dev) : Dev := { d with out := d.out ++ [e] }

/-! ## Page headers -/

/-- The header of a page at reset (R20-R32); PG_WORLD by R29. -/
def hdrReset (p : Nat) : Hdr :=
  let w : Nat := match pageKind p with
    | some k => if pageSecureOnly k then 1 else match k with
      | .mgr | .inst | .gpio => 0
      | _ => 3
    | none => 0
  { lock := false, drain := false, enable := false, softRst := false, cfgErr := false, errCode := 0, errMore := 0,
    errWorld := false, errMaster := 0, errOff := 0, errAddr := 0, irqEn := 0, irqStat := 0, nsRead := bit w 1,
    secure := bit w 0, pwrReq := 0, pwrNow := 0, pwrPend := false, pwrHeld := false, viol := 0 }

/-- The header of a page. -/
def hdrOf (d : Dev) (p : Nat) : Hdr := smapGet hdrReset d.hdr p

/-- Whether a block accepts jobs (R24); for the operations of KS_CMD, LC_CMD, OFC_CMD and MGR_CMD see log 176. -/
def takesJobs (d : Dev) (p : Nat) : Bool := (hdrOf d p).enable

/-- Writes a page's header. -/
def setHdr (d : Dev) (p : Nat) (h : Hdr) : Dev := { d with hdr := smapSet hdrReset d.hdr p h }

/-- Changes a page's header. -/
def modHdr (d : Dev) (p : Nat) (f : Hdr → Hdr) : Dev := setHdr d p (f (hdrOf d p))

/-- Page number of instance i's INST page (R43, R44). -/
def instPage (i : Nat) : Nat := 0x400 + i

/-! ## Registers -/

/-- Whether a field stands in the register at an offset. -/
def fldHere (off : Nat) (f : Fld) : Bool :=
  (List.range f.n).any (fun k => f.off + k * f.stride == off)

/-- The fields of the register at an offset of a page kind. -/
def fieldsAt (k : PageKind) (off : Nat) : List Fld := (pageLayout k).filter (fldHere off)

/-- Edge-triggered by nature: software interrupts (R354). -/
def srcIsSwi (n : Nat) : Bool := 448 ≤ n && n ≤ 511

/-- Key of a register in the register file; the non-secure bank of a per-core interrupt page is kept 0x1000 pages up
(R366). -/
def regKey (p off : Nat) : Nat := p * 1024 + off / 4

/-- Reset value of a register by its key (the block chapters' tables). -/
def regReset (key : Nat) : Word :=
  let p := key / 1024 % 0x1000
  let off := key % 1024 * 4
  match pageKind p with
  | none => 0
  | some k =>
    let v := (fieldsAt k off).foldl (fun v f => v + f.rst * 2 ^ f.lo) 0
    BitVec.ofNat 32 (if k = .irqs0 && srcIsSwi ((off - 0x040) / 4 + 1) then setBit v 12 true else v)

/-- The stored word of a register. -/
def regGet (d : Dev) (p off : Nat) : Nat := (smapGet regReset d.regs (regKey p off)).toNat

/-- Stores a register word. -/
def regPut (d : Dev) (p off v : Nat) : Dev :=
  { d with regs := smapSet regReset d.regs (regKey p off) (BitVec.ofNat 32 v) }

/-- The value of a field on a page. -/
def fld (d : Dev) (p : Nat) (f : Fld) : Nat := bits (regGet d p f.off) f.hi f.lo

/-- A one-bit field as a truth value. -/
def fldB (d : Dev) (p : Nat) (f : Fld) : Bool := fld d p f == 1

/-- Writes a field from the hardware's side, without any check. -/
def setFld (d : Dev) (p : Nat) (f : Fld) (v : Nat) : Dev :=
  regPut d p f.off (setBits (regGet d p f.off) f.hi f.lo v)

/-- Adds to a counter field that saturates. -/
def satFld (d : Dev) (p : Nat) (f : Fld) (n : Nat) : Dev :=
  setFld d p f (satAdd (2 ^ (f.hi + 1 - f.lo) - 1) (fld d p f) n)

/-- Adds to a counter field that wraps. -/
def wrapFld (d : Dev) (p : Nat) (f : Fld) (n : Nat) : Dev :=
  setFld d p f ((fld d p f + n) % 2 ^ (f.hi + 1 - f.lo))

/-- A 40-bit or 64-bit value held in a LO and a HI register field, each at its bit position. -/
def fldPair (d : Dev) (p : Nat) (lo hi : Fld) : Nat := fld d p lo * 2 ^ lo.lo + fld d p hi * 2 ^ 32

/-- Page numbers of the single pages. -/
def pgSYS := 0x000
def pgLC := 0x001
def pgDBG := 0x002
def pgPWR := 0x003
def pgCLK := 0x004
def pgHOLD := 0x005
def pgWEAR := 0x006
def pgGPIO := 0x007
def pgTAMP := 0x008
def pgTAMP1 := 0x009
def pgTAMP2 := 0x00A
def pgTAMP3 := 0x00B
def pgVIG := 0x00C
def pgIRQ := 0x010
def pgIRQC (core : Nat) := 0x011 + core
def pgSRC := 0x021
def pgSRC2 := 0x022
def pgHT := 0x030
def pgEVR := 0x040
def pgEVR1 := 0x041
def pgENT (q : Nat) := 0x050 + q
def pgDRBG := 0x054
def pgKS := 0x060
def pgKS1 := 0x061
def pgKS2 := 0x062
def pgKS3 := 0x063
def pgMPE := 0x070
def pgMPE1 := 0x071
def pgSYM (n : Nat) := 0x080 + n
def pgPKE (n : Nat) := 0x090 + n
def pgHASH (n : Nat) := 0x098 + n
def pgDMA (n : Nat) := 0x0A0 + n
def pgCMD := 0x0C0
def pgOFC := 0x0D0
def pgHOST := 0x0E0
def pgUSB4 := 0x0E1
def pgMGR := 0x100

/-! ## Links, functions and MSI-X -/

/-- A link's state. -/
def linkOf (d : Dev) (l : Nat) : LinkSt := if l = 0 then d.host.a else d.host.b

/-- Changes a link's state. -/
def modLink (d : Dev) (l : Nat) (f : LinkSt → LinkSt) : Dev :=
  if l = 0 then { d with host := { d.host with a := f d.host.a } }
  else { d with host := { d.host with b := f d.host.b } }

/-- PORT_MODE in force (R47). -/
def portMode (d : Dev) : Nat := fld d pgHOST Reg.HOST_CFG_PORT_MODE

/-- Whether a port mode gives a link any lanes (R47). -/
def linkInMode (mode l : Nat) : Bool := l = 0 || mode = 0 || mode = 1

/-- Whether the link is carried over USB4 (R47, R71). -/
def linkIsUsb (d : Dev) (l : Nat) : Bool :=
  (portMode d = 0 && l = 1) || (portMode d = 3 && l = 0)

/-- Link and SR-IOV number of the function that serves an instance (R48); none where the instance has no function. -/
def instFn (d : Dev) (i : Nat) : Option (Nat × Nat) :=
  let split := fld d pgHOST Reg.HOST_CFG_VF_SPLIT
  if i < split then some (0, i + 1)
  else if linkInMode (portMode d) 1 then some (1, i - split + 1) else none

/-- Instance served by SR-IOV number n of a link (R48). -/
def fnInst (d : Dev) (l n : Nat) : Nat :=
  if l = 0 then n - 1 else fld d pgHOST Reg.HOST_CFG_VF_SPLIT + n - 1

/-- TotalVFs of a link (R48). -/
def totalVfs (d : Dev) (l : Nat) : Nat :=
  let split := fld d pgHOST Reg.HOST_CFG_VF_SPLIT
  if l = 0 then split else 1024 - split

/-- Whether a VF responds (R54, R55). -/
def vfResponds (d : Dev) (l n : Nat) : Bool :=
  let k := linkOf d l
  k.up && k.vfEnable && 1 ≤ n && n ≤ k.numVfs && n ≤ totalVfs d l && (k.ari || n ≤ 7)

/-- Whether an instance's function is in force (R48, R55). -/
def instReachable (d : Dev) (i : Nat) : Bool :=
  match instFn d i with
  | some (l, n) => vfResponds d l n
  | none => false

/-- A vector at reset: masked (R57). -/
def msixReset (_ : Nat) : Msix := ⟨0, true, false, 0⟩

/-- A function at reset (R50, R51, R69). -/
def fnReset (_ : Nat) : FnSt := ⟨[], true, true, 0, 128, 512, []⟩

/-- Key of a function. -/
def fnKey (l n : Nat) : Nat := l * 2048 + n

/-- A function's state. -/
def fnOf (d : Dev) (l n : Nat) : FnSt := smapGet fnReset d.host.fns (fnKey l n)

/-- Changes a function's state. -/
def modFn (d : Dev) (l n : Nat) (f : FnSt → FnSt) : Dev :=
  { d with host := { d.host with fns := smapSet fnReset d.host.fns (fnKey l n) (f (fnOf d l n)) } }

/-- Changes one vector of a function. -/
def modMsix (d : Dev) (l n v : Nat) (f : Msix → Msix) : Dev :=
  modFn d l n (fun s => { s with msix := smapSet msixReset s.msix v (f (smapGet msixReset s.msix v)) })

/-- A range in pieces of at most max bytes; fuel bounds their number. -/
def pieces (max : Nat) : Nat → Nat → Nat → List (Nat × Nat)
  | 0, _, _ => []
  | f + 1, a, n => if n = 0 then [] else (a, min n max) :: pieces max f (a + min n max) (n - min n max)

/-- The requests that write a string to host memory for a function: each carries at most Max_Payload_Size bytes (R50), and the Relaxed
Ordering attribute is set on data only, as the function's Device Control enables it (R51). -/
def hostWrites (d : Dev) (l n a : Nat) (b : Bytes) (data : Bool) : List OutEv :=
  (pieces (fnOf d l n).maxPayload b.length a b.length).map
    (fun p => .hostWrite l n p.1 (slice b (p.1 - a) p.2) (data && (fnOf d l n).relaxed))

/-- The requests that read a range of host memory for a function, each of at most Max_Read_Request_Size bytes (R50). -/
def hostReads (d : Dev) (l n a len : Nat) : List OutEv :=
  (pieces (fnOf d l n).maxRead len a len).map (fun p => .hostRead l n p.1 p.2)

/-- Several external actions, in order. -/
def emitAll (es : List OutEv) (d : Dev) : Dev := { d with out := d.out ++ es }

/-- Whether IDE lets the block use host memory for SR-IOV function n of a link (R64). -/
def ideOpen (d : Dev) (l n : Nat) : Bool :=
  !(fldB d pgHOST Reg.HOST_CFG_IDE_REQ)
    || (linkOf d l).ide.any (fun s => s.2.secure && (s.1 = 0 || (s.2.ridLo ≤ n && n ≤ s.2.ridHi)))

/-- Signals a vector: the message is sent, or the PBA bit of a masked vector is set (R57), and that of one whose message IDE withholds
(R64); none is sent in HOLDUP (R459) or once HALTED or ZEROISED is entered (R69). -/
def msixSend (l n v : Nat) (d : Dev) : Dev :=
  if stopped d.sys.mode || d.sys.mode = .holdup || !(linkOf d l).up then d
  else if (smapGet msixReset (fnOf d l n).msix v).masked || !(ideOpen d l n) then modMsix d l n v (fun m => { m with pba := true })
  else
    let m := smapGet msixReset (fnOf d l n).msix v
    emit (.msix l n v m.addr m.data) d

/-- Signals a vector of every physical function (R57). -/
def signalPfs (v : Nat) (d : Dev) : Dev := msixSend 1 0 v (msixSend 0 0 v d)

/-- Signals a vector of the manager's physical function (R49, R57). -/
def signalMgr (v : Nat) (d : Dev) : Dev := msixSend (fld d pgHOST Reg.HOST_CFG_MGR_LINK) 0 v d

/-- Signals a vector of an instance's virtual function (R57). -/
def signalInst (i v : Nat) (d : Dev) : Dev :=
  match instFn d i with
  | some (l, n) => if vfResponds d l n then msixSend l n v d else d
  | none => d

/-- SMB_ALERT_N is asserted (R73). -/
def smbAlert (d : Dev) : Dev :=
  if d.host.alert then d else emit (.alertN true) { d with host := { d.host with alert := true } }

/-! ## Page events and the page error record -/

/-- The message that a page event calls for besides the interrupt source (R57). -/
def pageMsix (p : Nat) (d : Dev) : Dev :=
  match pageKind p with
  | some .host => signalPfs 2 d
  | some .usb4 => signalPfs 2 d
  | some .mgr => signalMgr 0 d
  | some .inst => signalInst (p - 0x400) 16 d
  | _ => d

/-- A block event occurs: its PG_IRQ_STAT bit sets while its enable bit is 1 (R26). -/
def raiseEv (p n : Nat) (d : Dev) : Dev :=
  match pageKind p with
  | none => d
  | some k =>
    if (pageCap k).irq && bit (hdrOf d p).irqEn n then
      pageMsix p (modHdr d p (fun h => { h with irqStat := setBit h.irqStat n true }))
    else d

/-- Records a page error (R27): the first fills the record, later ones count in MORE. -/
def pageErr (p code : Nat) (a : Access) (off addr : Nat) (d : Dev) : Dev :=
  let h := hdrOf d p
  if h.cfgErr then setHdr d p { h with errMore := satAdd 255 h.errMore 1 }
  else raiseEv p 31 (setHdr d p { h with
      cfgErr := true, errCode := code, errMore := 0, errWorld := a.sec
      errMaster := a.cls, errOff := off, errAddr := addr })

/-- Internal address of a register (R18). -/
def regAddr (p off : Nat) : Nat := 0x10000000 + p * 0x1000 + off

/-- Records an error of the register-page rules: the address is the register's own (R27). -/
def regErr (p code : Nat) (a : Access) (off : Nat) (d : Dev) : Dev := pageErr p code a off (regAddr p off) d

/-- Counts in PG_VIOL_CNT (R32). -/
def countViol (p : Nat) (d : Dev) : Dev := modHdr d p (fun h => { h with viol := satAdd (2 ^ 32 - 1) h.viol 1 })

/-- Codes of R28. -/
def errCFG := 0x0001
def errLOCKED := 0x0002
def errWORLD := 0x0003
def errVALUE := 0x0004
def errACCESS := 0x0005

/-- Records WORLD_DENIED and counts it (R30, R32). -/
def denyWorld (p : Nat) (a : Access) (off : Nat) (d : Dev) : Dev := countViol p (regErr p errWORLD a off d)

/-! ## Quarters and harts -/

/-- A quarter. -/
def quarterOf (d : Dev) (q : Nat) : Quarter := d.hearth.quarters.getD q quarterReset

/-- Changes a quarter. -/
def modQuarter (d : Dev) (q : Nat) (f : Quarter → Quarter) : Dev :=
  { d with hearth := { d.hearth with
      quarters := (List.range 4).map (fun k => if k = q then f (quarterOf d k) else quarterOf d k) } }

/-- Whether a quarter takes work: ON with no request for less power waiting (R452, R453). -/
def quarterServes (d : Dev) (q : Nat) : Bool := (quarterOf d q).pwr = .on && (quarterOf d q).pend = none

/-- The first quarter that is ON, counting upward from q and wrapping (R11, R237). -/
def nextOn (d : Dev) (q : Nat) : Option Nat :=
  ((List.range 4).map (fun k => (q + k) % 4)).find? (quarterServes d)

/-- A hart before it is started (R332). -/
def hartReset (_ : Nat) : Hart :=
  { run := .off, world := true, nest := false, wdStart := 0, wfi := false, entry := 0, args := [], image := [],
    secCtx := none, nsCtx := none, monIrq := false, sei := false, priv := .machine, pmp := [], counters := List.replicate 10 0 }

/-- A hart. -/
def hartOf (d : Dev) (h : Nat) : Hart := smapGet hartReset d.harts h

/-- Changes a hart. -/
def modHart (d : Dev) (h : Nat) (f : Hart → Hart) : Dev :=
  { d with harts := smapSet hartReset d.harts h (f (hartOf d h)) }

/-- A trap into machine mode (R328), and the return from it. -/
def trapIn (h : Nat) (d : Dev) : Dev := modHart d h (fun x => { x with nest := true, priv := .machine })
def trapOut (h : Nat) (d : Dev) : Dev := modHart d h (fun x => { x with nest := false, priv := .supervisor })

/-- SYS_CORE_STAT's code of a hart's state (R352). -/
def hartCode : HartRun → Nat
  | .off => 0 | .running => 1 | .parked => 2 | .inReset => 3

/-! ## Job boundaries -/

/-- A shadow at reset: nothing waits. -/
def shadowReset (_ : Nat) : Shadow := ⟨0, 0⟩

/-- A word with the bits of a mask taken from another. -/
def maskIn (v mask x : Nat) : Nat := Nat.xor (Nat.land v (2 ^ 32 - 1 - mask)) (Nat.land x mask)

/-- Whether a register page, either bank, holds a key of the register file. -/
def keyOnPage (p key : Nat) : Bool := key / 1024 % 0x1000 == p

/-- A job boundary of a page: every shadowed field takes effect together (R35). -/
def jobBoundary (p : Nat) (d : Dev) : Dev :=
  let due := d.shadow.filter (fun kv => keyOnPage p kv.1)
  let d := due.foldl (fun d kv =>
    let old := (smapGet regReset d.regs kv.1).toNat
    { d with regs := smapSet regReset d.regs kv.1 (BitVec.ofNat 32 (maskIn old kv.2.mask kv.2.val)) }) d
  { d with shadow := smapKeep (fun k => !(keyOnPage p k)) d.shadow }

/-- Drops a page's pending shadows (R35, R40). -/
def dropShadows (p : Nat) (d : Dev) : Dev := { d with shadow := smapKeep (fun k => !(keyOnPage p k)) d.shadow }

/-! ## Plain memory -/

/-- What an unlisted byte of on-die memory reads as: quarter SRAM reads zero after ON (R452), and the model lets every
other unwritten byte read zero too. -/
def memReset (_ : Nat) : Byte := 0

/-- The canonical form of memory: addresses rise strictly and no entry equals what an unlisted address reads as. -/
def Memory.wf (m : List Host.Cell) : Bool := smapWf memReset m

/-- One byte of memory. -/
def memByte (d : Dev) (a : Nat) : Byte := smapGet memReset d.mem a

/-- Stores one byte. -/
def putByte (d : Dev) (a : Nat) (b : Byte) : Dev := { d with mem := smapSet memReset d.mem a b }

/-- n bytes from an address. -/
def memBytes (d : Dev) (a n : Nat) : Bytes := (List.range n).map (fun k => memByte d (a + k))

/-- Stores a byte string from an address. -/
def putBytes (d : Dev) (a : Nat) : Bytes → Dev
  | [] => d
  | b :: t => putBytes (putByte d a b) (a + 1) t

/-- Empties an address range. -/
def wipeMem (d : Dev) (lo hi : Nat) : Dev := { d with mem := smapKeep (fun a => a < lo || hi < a) d.mem }

/-! ## Free values -/

/-- Draws the index of a fresh free value. -/
def drawFresh (d : Dev) : Nat × Dev := (d.fresh, { d with fresh := d.fresh + 1 })

/-! ## Commands in the block -/

/-- Changes the command processor. -/
def modCmdSt (f : CmdSt → CmdSt) (d : Dev) : Dev := { d with cmd := f d.cmd }

/-- The command with a TAG. -/
def cmdOf (d : Dev) (tag : Nat) : Option Cmd := d.cmd.cmds.find? (fun c => c.tag = tag)

/-- Writes a command back by its TAG. -/
def putCmd (c : Cmd) (d : Dev) : Dev :=
  modCmdSt (fun s => { s with cmds := s.cmds.map (fun x => if x.tag = c.tag then c else x) }) d

end Sys2Proof.Machine
end

