-- ==== Sys2Proof/Machine/Events.lean ====
section
/-! DEFINITION. The event recorder's shared operations (R429-R442, R503): handing a record to the egress fence,
releasing it into the buffer, writing it to MRAM, reading it back, clearing channels. -/

namespace Sys2Proof.Machine

/-- Channel of a hardware code, its severity where the code fixes it, burst and rate per second (R441); a burst of 0
stands for a code that is never rate-limited. -/
structure EvCode where
  chan : Nat
  sev : Nat
  burst : Nat
  rate : Nat
deriving DecidableEq, Repr

/-- The table of hardware codes (R441). TAMPER_ALARM's severity is the rank of the executed response. -/
def evCode : Nat → EvCode
  | 0x0001 => ⟨0, 0, 16, 10⟩
  | 0x0002 => ⟨0, 6, 0, 0⟩
  | 0x0003 => ⟨0, 2, 0, 0⟩
  | 0x0004 => ⟨0, 2, 0, 0⟩
  | 0x0101 => ⟨1, 3, 0, 0⟩
  | 0x0102 => ⟨1, 4, 0, 0⟩
  | 0x0103 => ⟨1, 3, 0, 0⟩
  | 0x0104 => ⟨1, 4, 4, 1⟩
  | 0x0105 => ⟨1, 3, 4, 1⟩
  | 0x0106 => ⟨1, 5, 0, 0⟩
  | 0x0201 => ⟨2, 0, 0, 0⟩
  | 0x0202 => ⟨2, 0, 0, 0⟩
  | 0x0203 => ⟨2, 3, 0, 0⟩
  | 0x0204 => ⟨2, 4, 0, 0⟩
  | 0x0205 => ⟨2, 3, 8, 1⟩
  | 0x0206 => ⟨2, 4, 0, 0⟩
  | 0x0301 => ⟨3, 4, 4, 1⟩
  | 0x0302 => ⟨3, 3, 8, 1⟩
  | 0x0303 => ⟨3, 1, 8, 1⟩
  | 0x0401 => ⟨4, 7, 0, 0⟩
  | 0x0402 => ⟨4, 3, 16, 10⟩
  | 0x0403 => ⟨4, 3, 16, 10⟩
  | 0x0404 => ⟨4, 5, 0, 0⟩
  | 0x0405 => ⟨4, 4, 16, 10⟩
  | 0x0406 => ⟨4, 3, 16, 10⟩
  | 0x0407 => ⟨4, 4, 0, 0⟩
  | 0x0408 => ⟨4, 4, 16, 10⟩
  | 0x0501 => ⟨5, 3, 16, 10⟩
  | 0x0601 => ⟨6, 2, 0, 0⟩
  | 0x0602 => ⟨6, 4, 4, 1⟩
  | 0x0603 => ⟨6, 0, 64, 100⟩
  | 0x0701 => ⟨7, 2, 16, 10⟩
  | _ => ⟨0, 0, 0, 0⟩

/-- Burst and rate of a code: hardware codes by R441, firmware codes by EVR_FW_RATE (R435). A rate of 0 means no
limit. -/
def evLimit (d : Dev) (code : Nat) : Nat × Nat :=
  if 0x8000 ≤ code then (fld d pgEVR Reg.EVR_FW_RATE_BURST, fld d pgEVR Reg.EVR_FW_RATE_RATE)
  else ((evCode code).burst, (evCode code).rate)

/-- The bucket of a code refilled to the present moment, none when full (R435). -/
def bucketNow (burst rate now : Nat) : Option Bucket → Option Bucket
  | none => none
  | some b =>
    let gain := (now - b.since) * rate / 1000000000
    if burst ≤ b.tokens + gain then none
    else some ⟨b.tokens + gain, b.since + gain * 1000000000 / rate⟩

/-- Takes a token of a code's bucket: whether one was there, and the bucket afterwards (R435). -/
def bucketTake (burst rate now : Nat) (b : Option Bucket) : Bool × Option Bucket :=
  match bucketNow burst rate now b with
  | none => (true, some ⟨burst - 1, now⟩)
  | some k => if k.tokens = 0 then (false, some k) else (true, some { k with tokens := k.tokens - 1 })

/-- The bytes of a record as stored (R429): header with COMMIT as given, then the payload padded with zeros. -/
def recBytes (r : EvHand) (seq suppressed : Nat) (commit : Bool) : Bytes :=
  let pad := (8 - r.payload.length % 8) % 8
  let len8 := (16 + r.payload.length + pad) / 8
  leBytes 1 len8 ++ leBytes 1 (r.chan * 16 + r.sev) ++ leBytes 2 r.code
    ++ leBytes 1 (b2n commit * 128 + r.flags + pad) ++ leBytes 1 0 ++ leBytes 2 suppressed ++ leBytes 8 seq
    ++ r.payload ++ zeros pad

/-- The same record with COMMIT set in its header (R431). -/
def withCommit (bs : Bytes) (c : Bool) : Bytes :=
  (List.range bs.length).map (fun k =>
    let b := bs.getD k 0
    if k = 4 then BitVec.ofNat 8 (setBit b.toNat 7 c) else b)

/-- Bytes held in the buffer (R431). -/
def bufBytes (d : Dev) : Nat := (d.evr.buf.map (fun r => r.bytes.length)).sum

/-- Whether the recorder accepts a record in the present mode (R440): none in OFF and VIGIL; in HALTED and ZEROISED
only the halt record, records from the vigil latch and those of the life-cycle controller. -/
def evAdmits (m : Mode) (r : EvHand) : Bool :=
  if !dieOn m then false
  else if stopped m then
    r.code == 0x0401 || bit r.flags 6 || r.code == 0x0101 || r.code == 0x0102 || r.code == 0x0201 || r.code == 0x0003
  else true

/-- A challenge is redeemed: it ends (R315). -/
def redeemChallenge (id : Nat) (d : Dev) : Dev :=
  { d with ofc := { d.ofc with chals := d.ofc.chals.filter (fun c => c.id ≠ id) } }

/-- Where each channel's area lies: offset in the log, bytes kept, bytes circulating, and slots of a severity channel
(R432). -/
structure ChanArea where
  off : Nat
  kept : Nat
  circ : Nat
  slots : Nat
deriving DecidableEq, Repr

/-- The table of channels and areas (R432). -/
def chanArea (c : Nat) : ChanArea :=
  match c with
  | 0 => ⟨0x000000, 0, 0, 512⟩
  | 1 => ⟨0x080000, 0, 0, 256⟩
  | 2 => ⟨0x0C0000, 131072, 393216, 0⟩
  | 3 => ⟨0x140000, 262144, 524288, 0⟩
  | 4 => ⟨0x200000, 0, 0, 1024⟩
  | 5 => ⟨0x300000, 65536, 458752, 0⟩
  | 6 => ⟨0x380000, 65536, 458752, 0⟩
  | 7 => ⟨0x400000, 65536, 196608, 0⟩
  | _ => if c < 12 then ⟨0x440000 + 0xC0000 * (c - 8), 131072, 655360, 0⟩
         else ⟨0x740000 + 0x30000 * (c - 12), 32768, 163840, 0⟩

/-- Base of the log in the MRAM window (R432). -/
def logBase : Nat := 0x4180_0000

/-- A name for a zero counter. -/
def zeroAt (_ : Nat) : Nat := 0

/-- A name for a false flag. -/
def falseAt (_ : Nat) : Bool := false

/-- A name for an absent value. -/
def noneAt {α : Type} (_ : Nat) : Option α := none

/-- The count of suppressed records of a code rises, saturating at 65,535 (R429, R435). -/
def suppress (code : Nat) (d : Dev) : Dev :=
  { d with evr := { d.evr with
      suppressed := smapSet zeroAt d.evr.suppressed code (satAdd 65535 (smapGet zeroAt d.evr.suppressed code) 1) } }

/-- The highest SEQ below a bound among the records of the channels in a mask, 0 if there is none (R438, R503). -/
def highestSeq (d : Dev) (mask below : Nat) : Nat :=
  let a := d.nv.log.filter (fun r => bit mask r.chan && r.seq < below)
  let b := d.evr.buf.filter (fun r => bit mask r.chan && r.seq < below)
  (b.map (·.seq)).foldl max ((a.map (·.seq)).foldl max 0)

/-- Clears the named channels of every record below a SEQ, from kept and circulating areas and from the buffer; the
kept areas fill again from their start (R438). -/
def clearChannels (mask below : Nat) (d : Dev) : Dev :=
  let gone := d.nv.log.filter (fun r => bit mask r.chan && r.seq < below)
  let d := gone.foldl (fun d r => wipeMem d r.addr (r.addr + r.len - 1)) d
  let d := { d with nv := { d.nv with
      log := d.nv.log.filter (fun r => !(bit mask r.chan && r.seq < below))
      logPos := smapKeep (fun c => !(bit mask c)) d.nv.logPos
      logFull := smapKeep (fun c => !(bit mask c)) d.nv.logFull } }
  { d with evr := { d.evr with buf := d.evr.buf.filter (fun r => !(bit mask r.chan && r.seq < below)) } }

/-- The fence releases one record (R430, R431, R435): rate limit, SEQ, entry into the buffer, NEW_RECORD. -/
def releaseRec (r : EvHand) (d : Dev) : Dev :=
  let lim := evLimit d r.code
  let free := r.sev ≥ 5 || bit r.flags 6 || r.rom || lim.2 = 0
  let (ok, buckets) :=
    if free then (true, d.evr.buckets)
    else
      let (ok, b) := bucketTake lim.1 lim.2 d.now (smapGet noneAt d.evr.buckets r.code)
      (ok, smapSet noneAt d.evr.buckets r.code b)
  let d := { d with evr := { d.evr with buckets := buckets } }
  if !ok then satFld (suppress r.code d) pgEVR Reg.EVR_DROP_RATE 1
  else
    let seq := d.nv.evSeq
    let sup := smapGet zeroAt d.evr.suppressed r.code
    let r := match r.clear with
      | some (mask, id) => { r with
          payload := leBytes 2 mask ++ zeros 6 ++ leBytes 8 id ++ leBytes 8 (highestSeq d mask seq) }
      | none => r
    let d := match r.clear with
      | some (mask, id) => redeemChallenge id (clearChannels mask seq d)
      | none => d
    let d := { d with nv := { d.nv with evSeq := seq + 1 } }
    let d := { d with evr := { d.evr with
        suppressed := smapSet zeroAt d.evr.suppressed r.code 0
        buf := d.evr.buf ++ [⟨seq, r.chan, r.sev, r.code, recBytes r seq sup false⟩] } }
    let d := raiseEv pgEVR 0 d
    let d := if bit (fld d pgEVR Reg.EVR_CFG_HOST_MASK) r.chan then signalPfs 1 d else d
    if r.clear.isSome then raiseEv pgEVR 2 (setFld (setFld d pgEVR Reg.EVR_CLR_RESULT_STATUS 0) pgEVR Reg.EVR_CLR_RESULT_INFO 0) else d

/-- Place of a record among those that pass the fence together: tamper alarms, then the channels (R430). -/
def heldRank (r : EvHand) : Nat := if r.code = 0x0001 then 0 else r.chan + 1

/-- The record that passes next: of those of one place the one handed over first (R430). -/
def heldNext (l : List EvHand) : Option EvHand :=
  l.foldl (fun b r => match b with
    | none => some r
    | some x => if heldRank r < heldRank x then some r else some x) none

/-- Releases held records in order while the buffer has room (R431); in HOLDUP one that does not fit is not accepted
(R440). -/
def releaseHeld : Nat → Dev → Dev
  | 0, d => d
  | n + 1, d =>
    match heldNext d.evr.held with
    | none => d
    | some r =>
      let t := d.evr.held.erase r
      let room := bufBytes d + (recBytes r 0 0 false).length ≤ 65536
      if room then releaseHeld n (releaseRec r { d with evr := { d.evr with held := t } })
      else if d.sys.mode = .holdup then releaseHeld n { d with evr := { d.evr with held := t } }
      else d

/-- A record is handed to the egress fence; it carries no provisional tag, so the fence releases it as soon as the
buffer has room (R12, R430, R431). -/
def handRec (r : EvHand) (d : Dev) : Dev :=
  if evAdmits d.sys.mode r then
    let d := { d with evr := { d.evr with held := d.evr.held ++ [r] } }
    releaseHeld d.evr.held.length d
  else d

/-- A hardware record of a code with the severity of the table (R441). -/
def record (code : Nat) (payload : Bytes) (d : Dev) : Dev :=
  handRec ⟨(evCode code).chan, (evCode code).sev, code, 0, false, payload, none⟩ d

/-- A hardware record committed by the boot ROM, never rate-limited (R435). -/
def recordRom (code : Nat) (payload : Bytes) (d : Dev) : Dev :=
  handRec ⟨(evCode code).chan, (evCode code).sev, code, 0, true, payload, none⟩ d

/-! ## Writing to MRAM -/

/-- Whether two address ranges overlap. -/
def overlaps (a n b m : Nat) : Bool := a < b + m && b < a + n

/-- Clears COMMIT in the header of a record and drops it from the recorder's pointers (R431 step 1). -/
def dropRef (r : LogRef) (d : Dev) : Dev :=
  let d := putByte d (r.addr + 4) (BitVec.ofNat 8 (setBit (memByte d (r.addr + 4)).toNat 7 false))
  { d with nv := { d.nv with log := d.nv.log.filter (fun x => x.seq ≠ r.seq) } }

/-- Writes a record at an address in the three steps of R431. -/
def writeRecAt (r : EvRec) (addr : Nat) (kept : Bool) (d : Dev) : Dev :=
  let hit := d.nv.log.filter (fun x => overlaps x.addr x.len addr r.bytes.length)
  let d := hit.foldl (fun d x => dropRef x d) d
  let d := putBytes d addr (withCommit r.bytes false)
  let d := putBytes d addr (withCommit r.bytes true)
  { d with nv := { d.nv with log := d.nv.log ++ [⟨r.seq, r.chan, r.sev, addr, r.bytes.length, kept⟩] } }

/-- The slot a severity channel gives a record of severity s (R433): a free one, else the one of lowest severity at
most s and among those of lowest SEQ. -/
def slotFor (d : Dev) (c s : Nat) : Option Nat :=
  let area := chanArea c
  let used := d.nv.log.filter (fun r => r.chan = c)
  let at' (k : Nat) := logBase + area.off + 1024 * k
  match firstBelow area.slots (fun k => !(used.any (fun r => r.addr = at' k))) with
  | some k => some (at' k)
  | none =>
    let best := used.foldl (fun (b : Option LogRef) r => match b with
      | none => some r
      | some x => if r.sev < x.sev || (r.sev = x.sev && r.seq < x.seq) then some r else some x) none
    match best with
    | some r => if r.sev ≤ s then some r.addr else none
    | none => none

/-- The recorder writes the oldest buffered record to MRAM (R431-R434). -/
def writeBuffered (d : Dev) : Dev :=
  match d.evr.buf with
  | [] => d
  | r :: t =>
    let d := { d with evr := { d.evr with buf := t } }
    let area := chanArea r.chan
    let d :=
      if area.slots ≠ 0 then
        match slotFor d r.chan r.sev with
        | some addr =>
          let old := d.nv.log.filter (fun x => x.addr = addr)
          let d := old.foldl (fun d x => wipeMem (dropRef x d) addr (addr + 1023)) d
          writeRecAt r addr false d
        | none => raiseEv pgEVR 1 (suppress r.code (satFld d pgEVR Reg.EVR_DROP_SEV 1))
      else
        let pos := smapGet zeroAt d.nv.logPos r.chan
        let len := r.bytes.length
        if !(smapGet falseAt d.nv.logFull r.chan) && pos + len ≤ area.kept then
          let d := writeRecAt r (logBase + area.off + pos) true d
          { d with nv := { d.nv with logPos := smapSet zeroAt d.nv.logPos r.chan (pos + len) } }
        else
          let pos := if smapGet falseAt d.nv.logFull r.chan then pos else 0
          let pos := if area.circ < pos + len then 0 else pos
          let d := writeRecAt r (logBase + area.off + area.kept + pos) false d
          { d with nv := { d.nv with
              logFull := smapSet falseAt d.nv.logFull r.chan true
              logPos := smapSet zeroAt d.nv.logPos r.chan (pos + len) } }
    releaseHeld d.evr.held.length d

/-- Flushes the buffer to MRAM (R440, R459, R476). -/
def flushEvents (d : Dev) : Dev :=
  (List.range (d.evr.buf.length + d.evr.held.length)).foldl (fun d _ => writeBuffered d) d

/-! ## Reading -/

/-- Port of a read (R436): 0 secure, 1 non-secure, 2 host. -/
def evPort (a : Access) : Nat := if a.cls = 2 then 2 else if a.sec then 0 else 1

/-- Channels visible to a port (R436). -/
def evVisible (d : Dev) (port : Nat) : Nat :=
  match port with
  | 0 => 0xFFFF
  | 1 => fld d pgEVR Reg.EVR_CFG_NS_MASK
  | _ => let m := fld d pgEVR Reg.EVR_CFG_HOST_MASK
         if stopped d.sys.mode then Nat.lor m 0x00FF else m

/-- The records a port may copy: sequence number and bytes, COMMIT set (R431, R436). -/
def evCandidates (d : Dev) (port : Nat) : List (Nat × Bytes) :=
  let m := evVisible d port
  ((d.nv.log.filter (fun r => bit m r.chan)).map (fun r => (r.seq, memBytes d r.addr r.len)))
    ++ ((d.evr.buf.filter (fun r => bit m r.chan)).map (fun r => (r.seq, withCommit r.bytes true)))

/-- The n-th entry of a list replaced. -/
def setNth {α : Type} (l : List α) (n : Nat) (a : α) : List α := l.set n a

/-- A read of EVR_RD_NEXT: copies the visible record of lowest SEQ at or above the cursor (R436). Answers the word
read. -/
def evNext (port : Nat) (d : Dev) : Nat × Dev :=
  let cur := d.evr.cursors.getD port 0
  let best := (evCandidates d port).foldl (fun (b : Option (Nat × Bytes)) r =>
    if r.1 < cur then b else match b with
      | none => some r
      | some x => if r.1 < x.1 then some r else some x) none
  match best with
  | none => (0, d)
  | some (s, bs) => (2 ^ 31 + (bs.getD 0 0).toNat,
      { d with evr := { d.evr with cursors := setNth d.evr.cursors port (s + 1), copied := setNth d.evr.copied port bs } })

/-- A read of EVR_RD_PREV: copies the visible record of highest SEQ below the cursor (R436). -/
def evPrev (port : Nat) (d : Dev) : Nat × Dev :=
  let cur := d.evr.cursors.getD port 0
  let best := (evCandidates d port).foldl (fun (b : Option (Nat × Bytes)) r =>
    if cur ≤ r.1 then b else match b with
      | none => some r
      | some x => if x.1 < r.1 then some r else some x) none
  match best with
  | none => (0, d)
  | some (s, bs) => (2 ^ 31 + (bs.getD 0 0).toNat,
      { d with evr := { d.evr with cursors := setNth d.evr.cursors port s, copied := setNth d.evr.copied port bs } })

/-! ## Payloads (R503) -/

/-- TAMPER_ALARM. -/
def payTamper (src dets cfg eff exe dis time : Nat) (reading : Option Int) : Bytes :=
  let rd := match reading with
    | some v => leBytes 4 ((v % 4294967296).toNat)
    | none => leBytes 4 0x80000000
  leBytes 1 src ++ leBytes 1 dets ++ leBytes 1 cfg ++ leBytes 1 eff ++ leBytes 1 exe ++ leBytes 1 dis ++ zeros 2
    ++ leBytes 8 time ++ rd ++ zeros 4

/-- Single bytes followed by zeros up to a length. -/
def payBytes (len : Nat) (bs : List Nat) : Bytes :=
  let t := bs.map (fun b => BitVec.ofNat 8 b)
  t ++ zeros (len - t.length)

/-- HALT. -/
def payHalt (kind epoch addr : Nat) : Bytes :=
  leBytes 4 kind ++ leBytes 2 epoch ++ zeros 2 ++ leBytes 8 addr

/-- BOOT. -/
def payBoot (count stat : Nat) : Bytes := leBytes 8 count ++ leBytes 4 stat ++ zeros 4

/-- HOLDUP_SAVE. -/
def paySave (s : SaveSummary) : Bytes := leBytes 8 s.bytes ++ leBytes 4 s.margin ++ leBytes 4 s.dur

/-- WEAR_ALARM. -/
def payWear (item kind used : Nat) : Bytes := leBytes 1 item ++ leBytes 1 kind ++ leBytes 2 used ++ zeros 4

/-- PROTECTED_BLOCKED and DEBUG_DENIED share an address at 0x08. -/
def payBlocked (cls idx write addr : Nat) : Bytes := payBytes 8 [cls, idx, write] ++ leBytes 8 addr

/-- DEBUG_DENIED. -/
def payDenied (write addr : Nat) : Bytes := payBytes 8 [write] ++ leBytes 8 addr

/-- DEBUG_GRANT. -/
def payGrant (enables last : Nat) (digest : Bytes) : Bytes := payBytes 8 [enables] ++ leBytes 8 last ++ digest

/-- LC_COPY_DIFF. -/
def payCopyDiff (diff vote : Nat) : Bytes := payBytes 8 [diff] ++ leBytes 8 vote

/-- SLOT_POUNDED. -/
def payPounded (slot gen record : Nat) : Bytes := leBytes 2 slot ++ leBytes 2 gen ++ leBytes 4 record

/-- VAULT_DAMAGE. -/
def payDamage (record gen outcome : Nat) : Bytes := leBytes 4 record ++ leBytes 2 gen ++ leBytes 1 outcome ++ zeros 1

/-- VAULT_STATE. -/
def payVaultState (state j c : Nat) : Bytes := payBytes 8 [state] ++ leBytes 8 j ++ leBytes 8 c

/-- The mode changes (R447): SYS_MODE, and where the die stays powered MODE_CHG, PF vector 1, a MODE_CHANGE record
and SMB_ALERT_N; into HALTED or ZEROISED only the register, MODE_CHG and SMB_ALERT_N. -/
def enterMode (m : Mode) (d : Dev) : Dev :=
  if d.sys.mode = m then d
  else
    let old := d.sys.mode
    let d := { d with sys := { d.sys with mode := m, prev := old } }
    let d := wrapFld d pgSYS Reg.SYS_MODE_CNT_CHANGES 1
    if !dieOn m then d
    else
      let d := raiseEv pgSYS 3 d
      let d := if stopped m then d
        else record 0x0603 (payBytes 8 [modeCode old, modeCode m]) (signalPfs 1 d)
      smbAlert d

end Sys2Proof.Machine
end

