-- ==== Sys2Proof/Machine/Hold.lean ====
section
/-! DEFINITION. The hold-up bank's energy, the life-cycle fuses, the tamper floors and the debug enables: what other blocks
compute from them (R395, R410, R411, R421, R422, R460-R462). -/

namespace Sys2Proof.Machine

/-! ## The bank (R460-R462); energies in units of 1/8 pJ -/

/-- V_TARGET in mV. -/
def vTarget (d : Dev) : Nat := min 12000 (Nat.sqrt (316000000000 / d.nv.capUf))

/-- E_USE at a bank voltage in mV. -/
def eUse (d : Dev) (mv : Nat) : Nat := d.nv.capUf * (4 * mv ^ 2 - (10000 + 3 * d.nv.esrMohm) ^ 2)

/-- E_SAVE(K). -/
def eSave (k : Nat) : Nat := 8 * (12000000000 + 11720000 * k)

/-- E_LC, one three-copy write: 4.5 mJ. -/
def eLc : Nat := 36000000000

/-- An energy in units of 0.01 mJ, as HOLD_ENERGY and HOLD_LAST give it. -/
def inCmj (e : Nat) : Nat := e / 80000000

/-- HOLD_STAT.READY (R461). -/
def bankReady (d : Dev) : Bool := eSave d.hearth.vltLimit ≤ eUse d d.sup.bankMv

/-- HOLD_STAT.LC_OK (R461). -/
def bankLcOk (d : Dev) : Bool := eSave d.hearth.vltLimit + eLc ≤ eUse d d.sup.bankMv

/-- The limit on the pending queue that an energy at V_TARGET allows, and whether it is lowered (R462). -/
def bankLimit (e : Nat) : Nat × Bool :=
  if 3 * eSave 4096 ≤ 2 * e then (4096, false)
  else (max 64 ((2 * e / 24 - 12000000000) / 11720000), true)

/-- The hold-up controller sets the limit and MARGIN_LOW (R462). -/
def setLimit (d : Dev) : Dev :=
  let r := bankLimit (eUse d (vTarget d))
  { d with hearth := { d.hearth with vltLimit := r.1, marginLow := r.2 } }

/-! ## Life-cycle fuses (R410, R411) -/

/-- State byte of a life-cycle state (R410). -/
def lcIdx : Lc → Nat
  | .raw => 0 | .test => 1 | .factory => 2 | .provision => 3 | .deployed => 4 | .returned => 5 | .scrap => 6 | .locked => 0xFF

/-- The state of a state byte; LOCKED is no target. -/
def lcOfByte : Nat → Option Lc
  | 0 => some .raw | 1 => some .test | 2 => some .factory | 3 => some .provision | 4 => some .deployed | 5 => some .returned
  | 6 => some .scrap | _ => none

/-- The vote: a bit is 1 when two of the copies hold it. -/
def lcVote (f : FuseSt) : Nat :=
  Nat.lor (Nat.land f.lc0 f.lc1) (Nat.lor (Nat.land f.lc0 f.lc2) (Nat.land f.lc1 f.lc2))

/-- The state of a vote. -/
def lcOfVote (v : Nat) : Lc :=
  ([Lc.raw, .test, .factory, .provision, .deployed, .returned, .scrap].find? (fun l => lcCode l = v)).getD .locked

/-- COPY_DIFF of a vote. -/
def lcDiff (f : FuseSt) : Nat :=
  b2n (f.lc0 ≠ lcVote f) + 2 * b2n (f.lc1 ≠ lcVote f) + 4 * b2n (f.lc2 ≠ lcVote f)

/-- Programs the missing bits of a code in every copy (R416 step 5). -/
def lcProgram (code : Nat) (d : Dev) : Dev :=
  { d with fuse := { d.fuse with lc0 := Nat.lor d.fuse.lc0 code, lc1 := Nat.lor d.fuse.lc1 code, lc2 := Nat.lor d.fuse.lc2 code } }

/-- Whether every bit of a number is set in another. -/
def bitsIn (a b : Nat) : Bool := Nat.land a b = a

/-- Whether a token row is programmed. -/
def rowSet (d : Dev) (r : Nat) : Bool := (smapGet noneAt d.fuse.rows r).isSome

/-- The fuses of an operation are programmed to their end (R414, R416). -/
def lcBurn (op : LcOp) (d : Dev) : Dev :=
  match op with
  | .transition _ dst _ => lcProgram dst d
  | .tokenSet r digest => { d with fuse := { d.fuse with rows := smapSet noneAt d.fuse.rows r (some digest) } }

/-- A halt, the zeroise line, a supply failure or a reset meets a running operation: its programming runs to its end first, and
what remains of a transition is left to R417 (R418). -/
def lcCut (d : Dev) : Dev :=
  match d.lc.op with
  | some op => { lcBurn op d with lc := ⟨none, false⟩ }
  | none => d

/-- The state whose floors hold: a transition to DEPLOYED brings its floors at entry (R395, R415). -/
def floorLc (d : Dev) : Lc := if lcOfVote (lcVote d.fuse) = .deployed then .deployed else d.sys.lc

/-- Floor of a source in a state, encoded as rank - 1 (R395). -/
def floorIn (l : Lc) (src : Nat) : Nat :=
  let pick (a b c e f : Nat) : Nat := match l with
    | .raw | .test => a | .factory => b | .provision => c | .deployed => e | .returned | .scrap | .locked => f
  match src with
  | 0 | 1 | 3 => pick 0 1 3 4 4
  | 2 | 4 | 5 | 6 => pick 0 1 4 5 4
  | 7 | 8 => pick 0 0 1 5 1
  | 13 => pick 0 1 4 4 4
  | 14 => pick 0 1 1 4 1
  | 15 => pick 0 0 0 5 0
  | _ => 0

/-- Sources whose configured response the battery-backed domain holds (R403, R408). -/
def lantHeld (src : Nat) : Bool := (7 ≤ src && src ≤ 12) || src = 15

/-- Whether a source is disabled by fuse (R392). -/
def tampFused (d : Dev) (src : Nat) : Bool := bit d.fuse.tampOff src

/-- Configured response of a source, encoded as rank - 1 (R408); a disabled one reads zero (R392). -/
def respCfg (d : Dev) (src : Nat) : Nat :=
  if tampFused d src then 0
  else if lantHeld src then smapGet zeroAt d.lant.resp src else fld d pgTAMP1 (fldAt Reg.TAMP_RESP_RESP src)

/-- Floor in force. -/
def respFloor (d : Dev) (src : Nat) : Nat := if tampFused d src then 0 else floorIn (floorLc d) src

/-- Effective response (R395). -/
def respEff (d : Dev) (src : Nat) : Nat := max (respCfg d src) (respFloor d src)

/-- Arms loops that are not armed and not disabled by fuse: the domain measures each delay, a free value, as REF (R396). -/
def armLoops (a b : Bool) (d : Dev) : Dev :=
  let (n, d) := drawFresh d
  let (m, d) := drawFresh d
  let l := d.lant
  let b : Bool := b && !(tampFused d 8)
  { d with lant := { l with
      refA := if a && !l.armA then Config.freeNat n % 65536 else l.refA
      refB := if b && !l.armB then Config.freeNat m % 65536 else l.refB
      armA := l.armA || a, armB := l.armB || b } }

/-! ## Debug enables (R421, R422) -/

/-- The enables in force. -/
def dbgEnables (d : Dev) : Nat :=
  if stopped d.sys.mode || d.sys.lc = .scrap || d.sys.lc = .locked then 0
  else
    let ns := Nat.land (regGet d pgDBG Reg.DBG_CFG_NSNID.off) 3
    let s := if d.sys.lc = .raw || d.sys.lc = .test then Nat.land (regGet d pgDBG Reg.DBG_CFG_SID.off) 12
      else Nat.land d.sys.dbgGranted 12
    let e := ns + s
    Nat.lor e (b2n (bit e 1) + 4 * b2n (bit e 3))

end Sys2Proof.Machine
end

