-- ==== Sys2Proof/Machine/Aes.lean ====
section
/-! DEFINITION. The AES block cipher (FIPS 197), on which the lanes, the DRBGs and the key store rest (R165, R234).
The state of the cipher is a number whose byte i, least significant first, is byte i of the block; a word of the key schedule likewise. -/

namespace Sys2Proof.Machine

/-- The substitution table: entry n is byte n. -/
def aesSbox : Nat :=
  0x75b227ebe28012079a059618c323c7041531d871f1e5a534ccf73f362693fdb7c072a49cafa2d4adf04759fa7dc982ca76abd7fe2b670130c56f6bf27b777c63
    + 0xd2f3ff1021dab6bcf5389d928f40a351a89f3c507f02f94585334d43fbaaefd0cf584c4a39becb6a5bb1fc20ed00d153842fe329b3d63b52a05a6e1b1a2c8309 * 2 ^ 512
    + 0x8ae7a65eaf4566ca94ed58d6d37c8e779e4959162acd3c25c2406490a3a32e0db0b5ede14b8ee4688902a22dc4f816073195d643d7ea7c41744975fec130ccd * 2 ^ 1024
    + 0x16bb54b00f2d99416842e6bf0d89a18cdf2855cee9871e9b948ed9691198f8e19e1dc186b95735610ef6034866b53e708a8bbd4b1f74dde8c6b4a61c2e2578ba * 2 ^ 1536

/-- The table of the inverse substitution. -/
def aesUnbox : Nat :=
  0x25d18b6d49a25b76b224d92866a12e084ec3fa420b954cee3d23c2a632947b54cbe9dec444438e3487ff2f9b8239e37cfbd7f3819ea340bf38a53630d56a0952
    + 0x6b8a130103bdafc1020f3fca8f1e2cd00645b3b80558e4f70ad3bc8c00abd890849d8da75746155edab9edfd5048706c92b6655dcc5ca4d41698688664f6f872 * 2 ^ 512
    + 0xf45acd78fec0db9a2079d2c64b3e56fc1bbe18aa0e62b76f89c5291d711af1476edf751ce837f9e28535ade72274ac9673e6b4f0cecff297eadc674f4111913a * 2 ^ 1024
    + 0x7d0c2155631469e126d677ba7e042b17619953833cbbebc8b0f52aae4d3be0a0ef9cc9939f7ae52d0d4ab519a97f51605fec8027591012b131c7078833a8dd1f * 2 ^ 1536

/-- Substitutes one byte. -/
def aesS (a : Nat) : Nat := aesSbox / 256 ^ a % 256

/-- Substitutes one byte back. -/
def aesUnS (a : Nat) : Nat := aesUnbox / 256 ^ a % 256

/-- The first n bytes of a number, byte i taken from byte p i, through a table. -/
def aesBytes (table p : Nat → Nat) (v : Nat) : Nat → Nat
  | 0 => 0
  | n + 1 => table (v / 256 ^ p n % 256) * 256 ^ n + aesBytes table p v n

/-- The rows shifted: byte r + 4c comes from column c + r. -/
def aesShift (i : Nat) : Nat := i % 4 + 4 * ((i / 4 + i % 4) % 4)

/-- The rows shifted back. -/
def aesUnshift (i : Nat) : Nat := i % 4 + 4 * ((i / 4 + 4 - i % 4) % 4)

/-- A word in all four columns. -/
def aesCols (w : Nat) : Nat := w * (1 + 2 ^ 32 + 2 ^ 64 + 2 ^ 96)

/-- Every byte multiplied by x in the field of AES. -/
def aesDbl (v : Nat) : Nat :=
  Nat.xor (Nat.land v (aesCols 0x7F7F7F7F) * 2) (Nat.land (v / 128) (aesCols 0x01010101) * 0x1B)

/-- Every column turned by n places: byte r comes from byte r + n. -/
def aesTurn (n v : Nat) : Nat :=
  Nat.land (v / 256 ^ n) (aesCols (256 ^ (4 - n) - 1)) + Nat.land v (aesCols (256 ^ n - 1)) * 256 ^ (4 - n)

/-- The columns mixed by the matrix of encryption: twice a byte, three times the next, and the other two. -/
def aesMix (v : Nat) : Nat :=
  Nat.xor (Nat.xor (aesDbl (Nat.xor v (aesTurn 1 v))) (aesTurn 1 v)) (Nat.xor (aesTurn 2 v) (aesTurn 3 v))

/-- The columns mixed by the inverse matrix, which is that of encryption after five times a byte and four times the opposite one. -/
def aesUnmix (v : Nat) : Nat := aesMix (Nat.xor v (aesDbl (aesDbl (Nat.xor v (aesTurn 2 v)))))

/-- x to the n in the field of AES. -/
def aesPow : Nat → Nat
  | 0 => 1
  | n + 1 => aesDbl (aesPow n)

/-- Word i of the key schedule from the words before it, newest first; nk words of key. -/
def aesNextWord (nk i : Nat) (ws : List Nat) : Nat :=
  let prev := ws.getD 0 0
  let t :=
    if i % nk = 0 then Nat.xor (aesBytes aesS (fun n => (n + 1) % 4) prev 4) (aesPow (i / nk - 1))
    else if 6 < nk && i % nk = 4 then aesBytes aesS id prev 4
    else prev
  Nat.xor (ws.getD (nk - 1) 0) t

/-- Extends the key schedule by n words. -/
def aesExpandGo (nk : Nat) : Nat → Nat → List Nat → List Nat
  | 0, _, ws => ws
  | n + 1, i, ws => aesExpandGo nk n (i + 1) (aesNextWord nk i ws :: ws)

/-- Groups the words of a schedule into round keys. -/
def aesGroup : List Nat → List Nat
  | a :: b :: c :: d :: t => (a + b * 2 ^ 32 + c * 2 ^ 64 + d * 2 ^ 96) :: aesGroup t
  | _ => []

/-- The round keys of a key of 16, 24 or 32 bytes. -/
def aesKeys (key : Bytes) : List Nat :=
  let nk := key.length / 4
  aesGroup (aesExpandGo nk (4 * (nk + 7) - nk) nk ((chunks 4 key).map leNat).reverse).reverse

/-- The remaining rounds of encryption. -/
def aesRounds : List Nat → Nat → Nat
  | [], s => s
  | [k], s => Nat.xor (aesBytes aesS aesShift s 16) k
  | k :: t, s => aesRounds t (Nat.xor (aesMix (aesBytes aesS aesShift s 16)) k)

/-- The remaining rounds of decryption, the round keys in reverse order. -/
def aesUnrounds : List Nat → Nat → Nat
  | [], s => s
  | [k], s => Nat.xor (aesBytes aesUnS aesUnshift s 16) k
  | k :: t, s => aesUnrounds t (aesUnmix (Nat.xor (aesBytes aesUnS aesUnshift s 16) k))

/-- Encrypts one block under expanded keys. -/
def aesEncKeys (ks : List Nat) (block : Bytes) : Bytes :=
  match ks with
  | [] => block
  | k :: t => leBytes 16 (aesRounds t (Nat.xor (leNat block) k))

/-- Decrypts one block under expanded keys. -/
def aesDecKeys (ks : List Nat) (block : Bytes) : Bytes :=
  match ks.reverse with
  | [] => block
  | k :: t => leBytes 16 (aesUnrounds t (Nat.xor (leNat block) k))

/-- Encrypts one block of sixteen bytes. -/
def aesEnc (key block : Bytes) : Bytes := aesEncKeys (aesKeys key) block

end Sys2Proof.Machine
end

