-- ==== Sys2Proof/Machine/Sha2.lean ====
section
/-! DEFINITION. The SHA-2 family (FIPS 180-4), on which the conditioner, the recorder of digests and the hash clusters
rest (R181, R227). -/

namespace Sys2Proof.Machine

/-- The greatest e-th root within n, its bits found from bit b - 1 downward. -/
def rootBits (e n : Nat) : Nat → Nat → Nat
  | 0, r => r
  | b + 1, r => rootBits e n b (if (r + 2 ^ b) ^ e ≤ n then r + 2 ^ b else r)

/-- The first 64 bits of the fractional part of the e-th root of a number below 512. -/
def rootFrac (e p : Nat) : Nat := rootBits e (p * 2 ^ (64 * e)) 69 0 % 2 ^ 64

/-- The primes below 420, which are 81: no number from 2 to 20 divides them but themselves. -/
def smallPrimes : List Nat :=
  (List.range 420).filter (fun n => 2 ≤ n && (List.range' 2 19).all (fun k => k == n || n % k != 0))

/-- The constants K of SHA-512: the first 64 bits of the fractional parts of the cube roots of the first eighty primes. -/
def shaK64 : List Nat := (smallPrimes.take 80).map (rootFrac 3)

/-- The constants K of SHA-256: the first 32 bits of the first sixty-four of them. -/
def shaK32 : List Nat := (shaK64.take 64).map (· / 2 ^ 32)

/-- Rotation right of a w-bit word. -/
def rotR (w n v : Nat) : Nat := v / 2 ^ n + v % 2 ^ n * 2 ^ (w - n)

/-- Exclusive or of three words. -/
def xor3 (a b c : Nat) : Nat := Nat.xor (Nat.xor a b) c

/-- The parameters of one word size: width, the rotations of the four sigma functions, and K. -/
structure ShaKind where
  w : Nat
  big0 : Nat × Nat × Nat
  big1 : Nat × Nat × Nat
  small0 : Nat × Nat × Nat
  small1 : Nat × Nat × Nat
  k : List Nat

/-- SHA-224 and SHA-256. -/
def sha32Kind : ShaKind := ⟨32, (2, 13, 22), (6, 11, 25), (7, 18, 3), (17, 19, 10), shaK32⟩

/-- SHA-384 and SHA-512. -/
def sha64Kind : ShaKind := ⟨64, (28, 34, 39), (14, 18, 41), (1, 8, 7), (19, 61, 6), shaK64⟩

/-- A sigma function of three rotations. -/
def shaBig (w : Nat) (r : Nat × Nat × Nat) (v : Nat) : Nat := xor3 (rotR w r.1 v) (rotR w r.2.1 v) (rotR w r.2.2 v)

/-- A sigma function of two rotations and a shift. -/
def shaSmall (w : Nat) (r : Nat × Nat × Nat) (v : Nat) : Nat := xor3 (rotR w r.1 v) (rotR w r.2.1 v) (v / 2 ^ r.2.2)

/-- Extends the message schedule, newest word first, by n words. -/
def shaSchedule (s : ShaKind) : Nat → List Nat → List Nat
  | 0, ws => ws
  | n + 1, ws =>
    let x := (shaSmall s.w s.small1 (ws.getD 1 0) + ws.getD 6 0 + shaSmall s.w s.small0 (ws.getD 14 0)
      + ws.getD 15 0) % 2 ^ s.w
    shaSchedule s n (x :: ws)

/-- One round on the eight working words. -/
def shaRound (s : ShaKind) (v : List Nat) (kw : Nat) : List Nat :=
  match v with
  | [a, b, c, d, e, f, g, h] =>
    let m := 2 ^ s.w
    let ch := Nat.xor (Nat.land e f) (Nat.land (m - 1 - e) g)
    let t1 := h + shaBig s.w s.big1 e + ch + kw
    let maj := xor3 (Nat.land a b) (Nat.land a c) (Nat.land b c)
    let t2 := shaBig s.w s.big0 a + maj
    [(t1 + t2) % m, a, b, c, (d + t1) % m, e, f, g]
  | _ => v

/-- One block. -/
def shaBlock (s : ShaKind) (h : List Nat) (block : Bytes) : List Nat :=
  let ws := ((chunks (s.w / 8) block).map beNat).reverse
  let w := (shaSchedule s (s.k.length - 16) ws).reverse
  let v := (List.zipWith (· + ·) s.k w).foldl (shaRound s) h
  List.zipWith (fun a b => (a + b) % 2 ^ s.w) h v

/-- The padded message (FIPS 180-4 section 5.1). -/
def shaPad (blk lenB : Nat) (m : Bytes) : Bytes :=
  let z := (blk - (m.length + 1 + lenB) % blk) % blk
  m ++ [0x80] ++ zeros z ++ beBytes lenB (8 * m.length)

/-- The digest from an initial value, cut to n bytes. -/
def shaRun (s : ShaKind) (iv : List Nat) (n : Nat) (m : Bytes) : Bytes :=
  let blk := s.w * 2
  let h := (chunks blk (shaPad blk (s.w / 4) m)).foldl (shaBlock s) iv
  ((h.map (beBytes (s.w / 8))).flatten).take n

/-- Initial value of SHA-512: the same of the square roots of the first eight primes. -/
def iv512 : List Nat := (smallPrimes.take 8).map (rootFrac 2)

/-- Initial value of SHA-256. -/
def iv256 : List Nat := iv512.map (· / 2 ^ 32)

/-- Initial value of SHA-384: the same of the next eight primes. -/
def iv384 : List Nat := ((smallPrimes.drop 8).take 8).map (rootFrac 2)

/-- SHA-256. -/
def sha256 (m : Bytes) : Bytes := shaRun sha32Kind iv256 32 m

/-- SHA-384. -/
def sha384 (m : Bytes) : Bytes := shaRun sha64Kind iv384 48 m

/-- SHA-512. -/
def sha512 (m : Bytes) : Bytes := shaRun sha64Kind iv512 64 m

end Sys2Proof.Machine
end

