-- ==== Sys2Proof/Machine/Entropy.lean ====
section
/-! DEFINITION. Noise sources, health tests, failover, conditioning and the DRBGs (R226-R245). -/

namespace Sys2Proof.Machine

/-! ## CTR_DRBG (R234) -/

/-- The counter block after one increment, modulo 2^128. -/
def ctrInc (v : Bytes) : Bytes := beBytes 16 (beNat v + 1)

/-- n counter blocks encrypted one after another, and the counter afterwards. -/
def ctrRun (ks : List Nat) : Nat → Bytes → List Bytes → Bytes × Bytes
  | 0, v, acc => (acc.reverse.flatten, v)
  | n + 1, v, acc => ctrRun ks n (ctrInc v) (aesEncKeys ks (ctrInc v) :: acc)

/-- The update function of CTR_DRBG with AES-256 and no derivation function, seedlen 384 bits. -/
def drbgUpdate (provided : Bytes) (g : Drbg) : Drbg :=
  let t := xorBytes (ctrRun (aesKeys g.key) 3 g.v []).1 provided
  { g with key := t.take 32, v := t.drop 32 }

/-- Instantiation from 48 bytes of entropy input and a personalization string. -/
def drbgMake (entropy pers : Bytes) (g : Drbg) : Drbg :=
  let z := { g with key := zeros 32, v := zeros 16 }
  { drbgUpdate (xorBytes entropy (fitTo 48 pers)) z with made := true, need := false, reqs := 0, buf := [] }

/-- Reseed from 48 bytes of entropy input. -/
def drbgFeed (entropy : Bytes) (g : Drbg) : Drbg :=
  { drbgUpdate entropy g with need := false, reqs := 0 }

/-- One generate call of n bytes. -/
def drbgCall (n : Nat) (g : Drbg) : Bytes × Drbg :=
  let r := ctrRun (aesKeys g.key) ((n + 15) / 16) g.v []
  let g := drbgUpdate (zeros 48) { g with v := r.2 }
  (r.1.take n, { g with reqs := g.reqs + 1 })

/-- The personalization string of an instance (R234). -/
def drbgPers (n boot : Nat) : Bytes := ascii "ADK-DRBG" ++ leBytes 1 n ++ leBytes 8 boot

/-! ## Access to the state -/

/-- A Well. -/
def wellOf (d : Dev) (q : Nat) : Well := smapGet wellReset d.ent.wells q

/-- Changes a Well. -/
def modWell (q : Nat) (f : Well → Well) (d : Dev) : Dev :=
  { d with ent := { d.ent with wells := smapSet wellReset d.ent.wells q (f (wellOf d q)) } }

/-- A DRBG instance. -/
def drbgOf (d : Dev) (n : Nat) : Drbg := smapGet drbgReset d.ent.drbgs n

/-- Changes a DRBG instance. -/
def modDrbg (n : Nat) (f : Drbg → Drbg) (d : Dev) : Dev :=
  { d with ent := { d.ent with drbgs := smapSet drbgReset d.ent.drbgs n (f (drbgOf d n)) } }

/-- A source of a Well. -/
def noiseOf (w : Well) (alt : Bool) : Noise := if alt then w.alt else w.pri

/-- Changes a source of a Well. -/
def modNoise (q : Nat) (alt : Bool) (f : Noise → Noise) (d : Dev) : Dev :=
  modWell q (fun w => if alt then { w with alt := f w.alt } else { w with pri := f w.pri }) d

/-- An instance is marked reseed required and its output buffers are discarded, with what of them was set apart for reads that still
wait (R230). -/
def markNeed (n : Nat) (d : Dev) : Dev :=
  let d := modDrbg n (fun g => { g with need := true, buf := [] }) d
  if n < 4 then modWell n (fun w => { w with stalls := w.stalls.map (fun x => { x with have' := [] }) }) d else d

/-- The port instances follow DRBG_SW_CFG.SRC_Q and the quarters' power: a change of the feeding Well marks the
instance reseed required (R237). -/
def syncPorts (d : Dev) : Dev :=
  let q := nextOn d (fld d pgDRBG Reg.DRBG_SW_CFG_SRC_Q)
  [4, 5].foldl (fun d n =>
    if (drbgOf d n).src = q then d
    else markNeed n (modDrbg n (fun g => { g with src := q }) d)) d

/-- The instances a Well feeds, in the order of R235. -/
def fedBy (d : Dev) (q : Nat) : List Nat := q :: [4, 5].filter (fun n => (drbgOf d n).src = some q)

/-- Marks every DRBG a Well feeds (R230). -/
def markFed (q : Nat) (d : Dev) : Dev := (fedBy d q).foldl (fun d n => markNeed n d) d

/-- Whether the mode lets random values out (R241). -/
def drbgOpen (m : Mode) : Bool :=
  match m with
  | .romBoot | .startup | .service | .ceremony | .factoryTest => true
  | _ => false

/-! ## Seeds and requests (R234, R235) -/

/-- Whether an instance is due a reseed before its next request (R230, R234). -/
def drbgDue (g : Drbg) : Bool := !g.made || g.need || 65536 ≤ g.reqs

/-- Takes three units of a Well's pool (R234). -/
def takeSeed (q : Nat) (d : Dev) : Option (Bytes × Dev) :=
  let w := wellOf d q
  if w.pool.length < 3 then none
  else some ((w.pool.take 3).flatten, modWell q (fun w => { w with pool := w.pool.drop 3 }) d)

/-- The Well's STATE once its quarter DRBG has been seeded from the pool (worked example of R233): PRIMARY or
ALTERNATE. -/
def settleWell (q : Nat) (d : Dev) : Dev :=
  modWell q (fun w => match w.run, w.feed with
    | .startup, some a | .switching, some a => { w with run := if a then .alternate else .primary }
    | _, _ => w) d

/-- Reseeds or instantiates an instance from its Well's pool, if three units are there (R234, R240). -/
def reseedFrom (n : Nat) (d : Dev) : Dev :=
  match (drbgOf d n).src with
  | none => d
  | some q =>
    match takeSeed q d with
    | none => d
    | some (e, d) =>
      let was := (drbgOf d n).made
      let d := modDrbg n (fun g => if was then drbgFeed e g else drbgMake e (drbgPers n d.nv.bootCnt) g) d
      if n < 4 then settleWell q (if was then wrapFld d (pgENT q) Reg.ENT_RESEEDS_RESEEDS 1 else d)
      else raiseEv pgDRBG 1 d

/-- Whether an instance's turn has come: no instance of higher priority at the same Well waits (R235). -/
def reseedTurn (d : Dev) (n : Nat) : Bool :=
  match (drbgOf d n).src with
  | none => false
  | some q => ((fedBy d q).takeWhile (· ≠ n)).all (fun k => !(drbgDue (drbgOf d k)))

/-- Room for a request: an empty output buffer of four, or an empty FIFO (R234, R237). -/
def drbgRoom (n : Nat) (g : Drbg) : Bool := if n < 4 then g.buf.length ≤ 3 * 4096 else g.buf.isEmpty

/-- Whether an instance can generate: seeded, its Well sampling, its quarter on, the mode open (R230, R241). -/
def drbgReady (d : Dev) (n : Nat) : Bool :=
  let g := drbgOf d n
  drbgOpen d.sys.mode && !(drbgDue g) && g.src.any (fun q => (quarterOf d q).pwr = .on)

/-- One request of an instance (R234); the end of a port's refill is the page's job boundary, at which SRC_Q may change the feeding Well
(R237, R245). -/
def drbgRequest (n : Nat) (d : Dev) : Dev :=
  let g := drbgOf d n
  if drbgReady d n && drbgRoom n g then
    let r := drbgCall (if n < 4 then 4096 else 256) g
    let d := modDrbg n (fun g => { r.2 with buf := g.buf ++ r.1 }) d
    if n < 4 then d else syncPorts (jobBoundary pgDRBG d)
  else d

/-! ## Reads (R236) -/

/-- What a consumer's read comes to. -/
inductive Draw where
  | got (bytes : Bytes) (d : Dev)
  | wait (d : Dev)
  | err (d : Dev)

/-- Whether a consumer still waits for what it asked: a command or job that has come to a result does not. -/
def readerLives (d : Dev) : Reader → Bool
  | .unit i => ((smapGet unitReset d.units i).job.map (fun c => c.result.isNone)).getD false
  | .cmd tag => d.cmd.cmds.any (fun c => c.tag = tag && c.result.isNone)
  | .lane tag _ => d.cmd.cmds.any (fun c => c.tag = tag && c.result.isNone)
  | _ => true

/-- Reads of consumers that are gone are dropped, with the bytes set apart for them, which no other consumer gets (R236, R238). -/
def sweepReads (q : Nat) (d : Dev) : Dev :=
  modWell q (fun w => { w with
    stalls := w.stalls.filter (fun x => readerLives d x.who), grants := w.grants.filter (fun x => readerLives d x.who) }) d

/-- A read has ended: its consumer finds the bytes, or the error. -/
def readEnded (q : Nat) (x : Stall) (got : Option Bytes) (d : Dev) : Dev :=
  if x.who = .other then d else modWell q (fun w => { w with grants := w.grants ++ [⟨x.who, x.n, got, false⟩] }) d

/-- Every waiting read of a Well's quarter ends with an error; hardware reads are counted (R232). -/
def endStalls (q : Nat) (d : Dev) : Dev :=
  let d := sweepReads q d
  let l := (wellOf d q).stalls
  l.foldl (fun d x => readEnded q x none d)
    (modWell q (fun w => { w with stalls := [], turns := 0 })
      (satFld d (pgENT q) Reg.ENT_STALL_ERR_READS (l.filter (fun x => !x.soft)).length))

/-- Sets bytes of a quarter's DRBG apart for a read until it has n: from the output buffers, with a request or a reseed as each is due
(R234-R236). Fuel bounds the requests. -/
def fillRead (q n : Nat) : Nat → Bytes → Dev → Bytes × Dev
  | 0, acc, d => (acc, d)
  | k + 1, acc, d =>
    if n ≤ acc.length then (acc, d)
    else
      let m := n - acc.length
      let b := (drbgOf d q).buf
      if !b.isEmpty then fillRead q n k (acc ++ b.take m) (modDrbg q (fun g => { g with buf := b.drop m }) d)
      else
        let d := if drbgDue (drbgOf d q) && reseedTurn d q then reseedFrom q d else d
        if drbgReady d q then fillRead q n k acc (drbgRequest q d) else (acc, d)

/-- Fuel for a read of n bytes. -/
def fillFuel (n : Nat) : Nat := 2 * (n / 4096) + 4

/-- Whether the reseed of prediction resistance may be made now: three units, and no instance of higher priority waits (R235, R238). -/
def freshTurn (d : Dev) (q : Nat) : Bool :=
  3 ≤ (wellOf d q).pool.length && (fedBy d q).all (fun k => !(drbgDue (drbgOf d k)))

/-- The read to be served next: hardware reads in arrival order, and RANDOM_BYTES after them but for one grant in 16 while both wait; a
reseed that cannot be made yet holds up no hardware read (R235, R236). -/
def nextStall (d : Dev) (q : Nat) : Option Stall :=
  let w := wellOf d q
  match w.stalls.find? (fun x => !x.soft), w.stalls.find? (fun x => x.soft) with
  | some h, some s => if 15 ≤ w.turns && (!s.fresh || freshTurn d q) then some s else some h
  | some h, none => some h
  | none, s => s

/-- The reseed of prediction resistance: the DRBG reseeds and discards its buffers (R238). -/
def freshSeed (q : Nat) (d : Dev) : Dev := reseedFrom q (modDrbg q (fun g => { g with buf := [] }) d)

/-- A read that is served in full: its wait is measured where it is a hardware read, and the turn of RANDOM_BYTES comes nearer while one
waits (R236, R244). -/
def stallServed (q : Nat) (x : Stall) (d : Dev) : Dev :=
  let us := (d.now - x.since + 999) / 1000
  let d := modWell q (fun w =>
    let rest := w.stalls.eraseP (fun y => y.who = x.who && y.n = x.n && y.since = x.since && y.soft = x.soft)
    { w with stalls := rest, turns := if x.soft || rest.all (fun y => !y.soft) then 0 else w.turns + 1 }) d
  if x.soft || min us 65535 ≤ fld d (pgENT q) Reg.ENT_STALL_MAX_US then d
  else setFld d (pgENT q) Reg.ENT_STALL_MAX_US (min us 65535)

/-- A read that goes on waiting keeps what is set apart for it. -/
def stallKept (q : Nat) (x y : Stall) (d : Dev) : Dev :=
  modWell q (fun w => { w with stalls := w.stalls.replace x y }) d

/-- Serves the waiting reads of a quarter in their order while bytes are there (R236). Fuel bounds them. -/
def serveGo (q : Nat) : Nat → Dev → Dev
  | 0, d => d
  | k + 1, d =>
    match nextStall d q with
    | none => d
    | some x =>
      if x.fresh && !(freshTurn d q) then d
      else
        let d := if x.fresh then freshSeed q d else d
        let (b, d) := fillRead q x.n (fillFuel x.n) x.have' d
        if x.n ≤ b.length then serveGo q k (readEnded q x (some b) (stallServed q x d))
        else stallKept q x { x with fresh := false, have' := b } d

/-- Serves the waiting reads of a quarter. -/
def serveStalls (q : Nat) (d : Dev) : Dev :=
  let d := sweepReads q d
  serveGo q (wellOf d q).stalls.length d

/-- What a consumer finds of its read, which it then has taken. -/
def takeGrant (q : Nat) (who : Reader) (n : Nat) (d : Dev) : Option (Option Bytes × Dev) :=
  let hit (g : ReadGrant) : Bool := g.who = who && g.n = n && !g.used
  ((wellOf d q).grants.find? hit).map (fun g =>
    (g.got, modWell q (fun w => { w with grants := w.grants.replace g { g with used := true } }) d))

/-- The answer of a read that has ended, if it has. -/
def grantDraw (q : Nat) (who : Reader) (n : Nat) (d : Dev) : Option Draw :=
  (takeGrant q who n d).map (fun r => match r.1 with | some b => .got b r.2 | none => .err r.2)

/-- A read joins the reads that wait, unless it waits already. -/
def askRead (q : Nat) (x : Stall) (d : Dev) : Dev :=
  if (wellOf d q).stalls.any (fun y => y.who = x.who && y.n = x.n) then d else modWell q (fun w => { w with stalls := w.stalls ++ [x] }) d

/-- A consumer of a quarter draws n bytes (R232, R236): it receives all of them, waits, or ends with an error. soft is RANDOM_BYTES, fresh
its prediction resistance (R238). -/
def drawFor (who : Reader) (soft fresh : Bool) (q n : Nat) (d : Dev) : Draw :=
  if n = 0 then .got [] d
  else match grantDraw q who n d with
  | some r => r
  | none =>
    if (wellOf d q).run = .entFail || !(drbgOpen d.sys.mode) then
      .err (if soft then d else satFld d (pgENT q) Reg.ENT_STALL_ERR_READS 1)
    else
      let d := serveStalls q (askRead q ⟨who, n, d.now, soft, fresh, []⟩ d)
      (grantDraw q who n d).getD (.wait d)

/-- Reads that the operation under way has taken are ready to be taken again, since it waits and will begin anew. -/
def readsAgain (q : Nat) (who : Reader) (d : Dev) : Dev :=
  modWell q (fun w => { w with grants := w.grants.map (fun g => if g.who = who then { g with used := false } else g) }) d

/-- The bytes that an operation has taken (R223). -/
def readsTaken (d : Dev) (q : Nat) (who : Reader) : Nat :=
  (((wellOf d q).grants.filter (fun g => g.who = who && g.used && g.got.isSome)).map (·.n)).sum

/-- Whether a consumer has no read that waits or that has ended. -/
def readsNone (d : Dev) (q : Nat) (who : Reader) : Bool :=
  (wellOf d q).stalls.all (fun x => x.who ≠ who) && (wellOf d q).grants.all (fun g => g.who ≠ who)

/-- An operation has ended: its reads are done with. -/
def readsOver (q : Nat) (who : Reader) (d : Dev) : Dev :=
  if readsNone d q who then d else modWell q (fun w => { w with
    stalls := w.stalls.filter (fun x => x.who ≠ who), grants := w.grants.filter (fun g => g.who ≠ who) }) d

/-- A block of the device draws n bytes that it does not wait for. -/
def draw (q n : Nat) (d : Dev) : Draw :=
  match drawFor .block false false q n d with
  | .got b d => .got b (readsOver q .block d)
  | .wait d => .wait (readsOver q .block d)
  | .err d => .err d

/-! ## Sources -/

/-- A failure is counted in ENT_FAILCNT and in the total of all Wells (R230, R239). -/
def countOne (q : Nat) (alt : Bool) (test : Nat) (d : Dev) : Dev :=
  let f := match alt, test with
    | false, 1 => Reg.ENT_FAILCNT_PRI_RCT
    | false, _ => Reg.ENT_FAILCNT_PRI_APT
    | true, 1 => Reg.ENT_FAILCNT_ALT_RCT
    | true, _ => Reg.ENT_FAILCNT_ALT_APT
  let d := satFld d (pgENT q) f 1
  { d with ent := { d.ent with fails := satAdd (2 ^ 32 - 1) d.ent.fails 1 } }

/-- The tests that a sample fails are counted. -/
def countFail (q : Nat) (alt : Bool) (tests : List Nat) (d : Dev) : Dev := tests.foldl (fun d k => countOne q alt k d) d

/-- A continuous-test or retest failure counts toward the source's total, and at the limit the source is FAILED
(R231). -/
def countTotal (q : Nat) (alt : Bool) (d : Dev) : Dev :=
  let limit := fld d (pgENT q) Reg.ENT_CFG_FAIL_LIMIT
  modNoise q alt (fun s =>
    let n := s.fails + 1
    { s with fails := n, run := if limit ≤ n then .failed else .waiting }) d

/-- Interval between retests in ns (R231). -/
def retestGap (d : Dev) (q : Nat) : Nat := fld d (pgENT q) Reg.ENT_CFG_RETEST_MS * 1000000

/-- The Well enters ENT_FAIL: stalled reads end with an error, and retests continue after RETEST_MS (R232). -/
def enterEntFail (q : Nat) (d : Dev) : Dev :=
  let at' := d.now + retestGap d q
  let d := modWell q (fun w => { w with
      run := .entFail, feed := none, goBack := false
      pri := { w.pri with retestAt := at' }, alt := { w.alt with retestAt := at' } }) d
  endStalls q (raiseEv (pgENT q) 1 d)

/-- The other source takes over after a failure (R230 step 4): at once if it has sampled since it last passed, else
after a start-up test, and ENT_FAIL if it is FAILED. -/
def switchTo (q : Nat) (alt : Bool) (d : Dev) : Dev :=
  match (noiseOf (wellOf d q) alt).run with
  | .failed => enterEntFail q d
  | .running => modWell q (fun w => { w with run := .switching, feed := some alt, goBack := false }) d
  | _ => modNoise q alt (fun s => { s with run := .testing })
      (modWell q (fun w => { w with run := .switching, feed := none, goBack := false }) d)

/-- A failover (R230): pool discarded, DRBGs marked, FAILOVER, a record, and the switch. -/
def failover (q : Nat) (alt : Bool) (test : Nat) (d : Dev) : Dev :=
  let d := modWell q (fun w => { w with pool := [], feed := none }) d
  let d := raiseEv (pgENT q) 0 (markFed q (syncPorts d))
  switchTo q (!alt) (record 0x0406 (payBytes 8 [q, b2n alt, test]) d)

/-- The known-answer tests pass and the primary starts its start-up test, or the alternate where the primary is FAILED (R240 steps 1-3); a
Well whose sources are both FAILED is in ENT_FAIL, as after failed known-answer tests, which make them so (R232, R240). A quarter that was
gated finds its DRBG retained (R241). -/
def wellBegin (q : Nat) (katOk : Bool) (d : Dev) : Dev :=
  if katOk then
    let d := modWell q (fun w => { w with
      run := .startup, feed := none, pool := [], goBack := false
      pri := { w.pri with run := if w.pri.run = .failed then .failed else .testing }
      alt := { w.alt with run := if w.alt.run = .failed then .failed else if w.pri.run = .failed then .testing else .idle } }) d
    let w := wellOf d q
    if w.pri.run = .failed && w.alt.run = .failed then enterEntFail q d else d
  else
    let d := modWell q (fun w => { w with pool := [], pri := { w.pri with run := .failed }, alt := { w.alt with run := .failed } }) d
    record 0x0407 (payBytes 8 [q]) (enterEntFail q d)

/-- Restart after DIAGNOSTIC, substitution or a soft reset (R242, R243, R244): pool discarded, R240 from its second
step; instances instantiated anew where the rule says so. -/
def wellRestart (q : Nat) (fresh : Bool) (d : Dev) : Dev :=
  let d := syncPorts d
  let d := (fedBy d q).foldl (fun d n => markNeed n (if fresh then modDrbg n (fun g => { g with made := false }) d else d)) d
  wellBegin q true (modWell q (fun w => { w with subst := false, capture := none }) d)

/-- The Well stops: its quarter is gated or off, or the mode stops it (R241). -/
def wellStop (q : Nat) (d : Dev) : Dev :=
  endStalls q (modWell q (fun w => { w with
      run := .off, feed := none, pool := [], goBack := false, capture := none, subst := false
      pri := { w.pri with run := if w.pri.run = .failed then .failed else .idle }
      alt := { w.alt with run := if w.alt.run = .failed then .failed else .idle } }) d)

/-- A quarter's DRBG state is lost (R241). -/
def drbgLose (n : Nat) (d : Dev) : Dev := modDrbg n (fun g => { drbgReset n with src := g.src }) d

/-- Free noise of n bytes, where no command carries the samples. -/
def freeNoise (n : Nat) (d : Dev) : Bytes × Dev :=
  ((List.range n).map (fun k => Config.noiseByte (d.fresh + k)), { d with fresh := d.fresh + n })

/-! ## Health tests (R228, R229) -/

/-- Cut-offs of the repetition-count and the adaptive-proportion test, and the window of the latter (R229). -/
def rctCut (alt : Bool) : Nat := if alt then 8 else 11
def aptCut (alt : Bool) : Nat := if alt then 35 else 79
def aptWindow : Nat := 512

/-- One sample under both tests: 1 among the failures where the repetition count fails, 2 where the adaptive proportion does. The
repetition count begins anew where it fails; a window fails once and goes on to its end. -/
def healthOne (alt : Bool) (b : Byte) (h : Health) : List Nat × Health :=
  let same := if h.last = some b then h.same + 1 else 1
  let first := if h.pos = 0 then b else h.first
  let count := if h.pos = 0 then 1 else h.count + b2n (b = h.first)
  let rct : Bool := rctCut alt ≤ same
  let apt : Bool := count = aptCut alt && (h.pos = 0 || b = h.first)
  ((if rct then [1] else []) ++ (if apt then [2] else []),
    ⟨if rct then none else some b, if rct then 0 else same, first, (h.pos + 1) % aptWindow, count⟩)

/-- Samples under both tests up to the first that fails: which tests it fails, and how far the tests are then. -/
def healthRun (alt : Bool) : Bytes → Health → List Nat × Health
  | [], h => ([], h)
  | b :: t, h =>
    let r := healthOne alt b h
    if r.1.isEmpty then healthRun alt t r.2 else r

/-- Every failure among some samples, in order, and how far the tests are then. -/
def healthAll (alt : Bool) : Bytes → Health → List Nat × Health
  | [], h => ([], h)
  | b :: t, h =>
    let r := healthOne alt b h
    let rest := healthAll alt t r.2
    (r.1 ++ rest.1, rest.2)

/-- Samples of a start-up test or retest (R228). -/
def startupSamples : Nat := 1024

/-- The first n of the samples that an event names, and free ones where it names fewer. -/
def someSamples (n : Nat) (samples : Bytes) (d : Dev) : Bytes × Dev :=
  let (more, d) := freeNoise (n - samples.length) d
  ((samples ++ more).take n, d)

/-- A conditioned block enters the pool as two units; while the pool is full the conditioner idles (R227). -/
def poolAdd (q : Nat) (block : Bytes) (d : Dev) : Dev :=
  modWell q (fun w => if 16 < w.pool.length + 2 then w else { w with pool := w.pool ++ [block.take 16, block.drop 16] }) d

/-- The next n samples of the pattern of R243, four to a word, the word's low byte first. -/
def patternGo (lfsr : Bool) (word : Nat) : Nat → Well → List Byte → Bytes × Well
  | 0, w, acc => (acc.reverse, w)
  | n + 1, w, acc =>
    let cur := if lfsr then w.lfsr else word
    let b := BitVec.ofNat 8 (cur / 2 ^ (8 * w.patPos))
    let next := if w.lfsr % 2 = 1 then Nat.xor (w.lfsr / 2) 0x80200003 else w.lfsr / 2
    let w := if w.patPos = 3 then { w with patPos := 0, lfsr := next } else { w with patPos := w.patPos + 1 }
    patternGo lfsr word n w (b :: acc)

/-- Samples of one conditioned block of the feeding source (R226). -/
def blockSamples (alt : Bool) : Nat := if alt then 54 else 80

/-! ## Registers of the ENT pages and of the software port -/

/-- Code of a source in ENT_STAT (R244). -/
def noiseCode : NoiseRun → Nat
  | .idle | .waiting => 0 | .testing | .retest => 1 | .running => 2 | .failed => 3

/-- Code of ENT_STAT.STATE (R244). -/
def wellCode : WellRun → Nat
  | .off => 0 | .startup => 1 | .primary => 2 | .alternate => 3 | .switching => 4 | .entFail => 5 | .diag => 6

/-- ENT_STAT (R244). -/
def entStat (d : Dev) (q : Nat) : Nat :=
  let w := wellOf d q
  min w.pool.length 15 * 2 ^ 16 + b2n w.subst * 2 ^ 9 + b2n (drbgOf d q).need * 2 ^ 8 + noiseCode w.alt.run * 2 ^ 6
    + noiseCode w.pri.run * 2 ^ 4 + wellCode w.run

/-- DRBG_SW_STAT of a world (R245). -/
def swStat (d : Dev) (sec : Bool) : Nat :=
  let n := if sec then 4 else 5
  let g := drbgOf d n
  g.buf.length / 4 * 2 ^ 8 + g.src.getD 0 * 2 ^ 4 + b2n (drbgDue g) * 2 ^ 2
    + b2n (d.ent.empty.getD (n - 4) false) * 2 + b2n (decide (4 ≤ g.buf.length))

/-- A read of DRBG_SW_DATA: the next word of the reading world's FIFO, or zero and ENT_EMPTY (R237). -/
def swDataRead (sec : Bool) (d : Dev) : Nat × Dev :=
  let n := if sec then 4 else 5
  let d := syncPorts d
  let g := drbgOf d n
  if 4 ≤ g.buf.length && drbgOpen d.sys.mode then
    let w := leNat (g.buf.take 4)
    let d := modDrbg n (fun g => { g with buf := g.buf.drop 4 }) d
    (w, { d with ent := { d.ent with words := d.ent.words.set (n - 4) ((d.ent.words.getD (n - 4) 0 + 1) % 2 ^ 32) } })
  else
    (0, raiseEv pgDRBG 0 { d with ent := { d.ent with empty := d.ent.empty.set (n - 4) true } })

/-! ## What the rows share -/

/-- A source passes its test: it feeds the conditioner or stands by (R228, R230-R232). -/
def testPassed (q : Nat) (alt : Bool) (d : Dev) : Dev :=
  let w := wellOf d q
  let d := modNoise q alt (fun s => { s with run := .running }) d
  match w.feed with
  | none =>
    let d := modWell q (fun w => { w with feed := some alt, run := if w.run = .entFail then .switching else w.run }) d
    if w.run = .entFail then raiseEv (pgENT q) 2 d else d
  | some a =>
    if !alt && a && fldB d (pgENT q) Reg.ENT_CFG_RETURN then modWell q (fun w => { w with goBack := true }) d else d

/-- A running source fails a continuous test (R229-R231): where it feeds, a failover; in standby the failure counts and the source awaits a
retest; in DIAGNOSTIC it counts only (R242). -/
def sourceFail (q : Nat) (alt : Bool) (test : List Nat) (d : Dev) : Dev :=
  let w := wellOf d q
  let d := countFail q alt test d
  if w.run = .diag then d
  else
    let d := countTotal q alt (modNoise q alt (fun s => { s with retestAt := d.now }) d)
    if w.feed = some alt then failover q alt (test.headD 0) d
    else modWell q (fun w => if alt then w else { w with goBack := false }) d

/-- A source fails its start-up test or retest (R228, R230-R232); in DIAGNOSTIC the failure counts and causes no switchover (R242). -/
def testFailed (q : Nat) (alt : Bool) (test : List Nat) (d : Dev) : Dev :=
  let w := wellOf d q
  let d := countFail q alt test d
  let at' := d.now + retestGap d q
  if (noiseOf w alt).run = .retest then
    let d := countTotal q alt (modNoise q alt (fun s => { s with retestAt := at' }) d)
    record 0x0406 (payBytes 8 [q, b2n alt, 3]) d
  else
    let d := modNoise q alt (fun s => { s with run := .waiting, retestAt := d.now }) d
    if w.run = .diag then d
    else if w.run = .startup && !alt then failover q alt 3 d
    else enterEntFail q (record 0x0406 (payBytes 8 [q, b2n alt, 3]) d)

/-- A start-up test or retest ends over its samples (R228). -/
def testEnd (q : Nat) (alt : Bool) (samples : Bytes) (d : Dev) : Dev :=
  let r := healthRun alt samples healthReset
  let d := modNoise q alt (fun s => { s with health := r.2 }) d
  if r.1.isEmpty then testPassed q alt d else testFailed q alt r.1 d

/-- Further samples of a running source under the continuous tests, and whether all of them pass (R229); under substitution the tests are
suspended (R243). -/
def sourceRun (q : Nat) (alt : Bool) (samples : Bytes) (d : Dev) : Bool × Dev :=
  if (wellOf d q).subst then (true, d)
  else
    let r := healthRun alt samples (noiseOf (wellOf d q) alt).health
    let d := modNoise q alt (fun s => { s with health := r.2 }) d
    if r.1.isEmpty then (true, d) else (false, sourceFail q alt r.1 d)

/-! ## The Wells at the boot of the device (R240, R333) -/

/-- What is left of the samples of the two sources, and the Well's next step with them: a start-up test that ends, or a conditioned block;
the tests judge the samples that are named, and free ones that meet the source's claim stand for the others (R226-R232). -/
def bootWellStep (q : Nat) (x : Bytes × Bytes × Dev) : Bytes × Bytes × Dev :=
  let (pri, alt, d) := x
  let w := wellOf d q
  if w.pri.run = .testing then (pri.drop startupSamples, alt, testEnd q false (pri.take startupSamples) d)
  else if w.alt.run = .testing then (pri, alt.drop startupSamples, testEnd q true (alt.take startupSamples) d)
  else match w.feed with
    | none => x
    | some a =>
      if 16 < w.pool.length + 2 then x
      else
        let n := blockSamples a
        let b := (if a then alt else pri).take n
        let rest := if a then (pri, alt.drop n) else (pri.drop n, alt)
        match sourceRun q a b d with
        | (false, d) => (rest.1, rest.2, d)
        | (true, d) =>
          let (more, d) := freeNoise (n - b.length) d
          (rest.1, rest.2, poolAdd q (sha256 (b ++ more)) d)

/-- Steps of a Well at boot until its pool is full or it waits for a retest: at most two start-up tests, the blocks that fill the pool,
and those that a failover discards. -/
def bootWellRun (q : Nat) : Nat → Bytes × Bytes × Dev → Bytes × Bytes × Dev
  | 0, x => x
  | k + 1, x => bootWellRun q k (bootWellStep q x)

/-- During the boot of the device a Well runs its known-answer tests and the start-up test of its primary, fills its pool and instantiates
its quarter DRBG, and then each port instance that it feeds (R240, R333); on a failure it fails over, or is in ENT_FAIL. -/
def wellBoot (q : Nat) (p : WellParts) (d : Dev) : Dev :=
  let d := if (wellOf d q).run = .off then wellBegin q p.katOk d else d
  let x := bootWellRun q 20 (p.pri, p.alt, d)
  let d := syncPorts x.2.2
  let d := (fedBy d q).foldl (fun d n => if drbgDue (drbgOf d n) then reseedFrom n d else d) d
  (bootWellRun q 20 (x.1, x.2.1, d)).2.2

end Sys2Proof.Machine
end

