-- ==== Sys2Proof/Machine/Ghash.lean ====
section
/-! DEFINITION. GHASH of SP 800-38D, on which GCM, GMAC and the MAC of protected lines rest (R170, R250). -/

namespace Sys2Proof.Machine

/-- Product in the field of GHASH over the low n bits of the first factor, most significant bit first. -/
def gfMulGo : Nat → Nat → Nat → Nat → Nat
  | 0, _, _, z => z
  | n + 1, x, v, z =>
    gfMulGo n x (if v % 2 = 1 then Nat.xor (v / 2) (0xE1 * 2 ^ 120) else v / 2)
      (if x / 2 ^ n % 2 = 1 then Nat.xor z v else z)

/-- Product in the field of GHASH. -/
def gfMul (x y : Nat) : Nat := gfMulGo 128 x y 0

/-- GHASH of whole blocks under H. -/
def ghash (h : Nat) (bs : Bytes) : Nat := (chunks 16 bs).foldl (fun y b => gfMul (Nat.xor y (beNat (fitTo 16 b))) h) 0

end Sys2Proof.Machine
end

