-- ==== Sys2Proof/Machine/Mac.lean ====
section
/-! DEFINITION. Message authentication and key derivation: CMAC (SP 800-38B), HMAC (FIPS 198-1), HKDF (RFC 5869) and
the counter-mode KDF of SP 800-108. -/

namespace Sys2Proof.Machine

/-- Doubling in the field of a block of n bytes (SP 800-38B). -/
def blockDbl (n : Nat) (b : Bytes) : Bytes :=
  let v := beNat b
  let w := v * 2 % 2 ^ (8 * n)
  beBytes n (if v / 2 ^ (8 * n - 1) = 1 then Nat.xor w (if n = 16 then 0x87 else 0x1B) else w)

/-- CMAC over a block cipher with blocks of n bytes. -/
def cmacWith (n : Nat) (enc : Bytes → Bytes) (m : Bytes) : Bytes :=
  let k1 := blockDbl n (enc (zeros n))
  let k2 := blockDbl n k1
  let cs := chunks n m
  let last := cs.getLast?.getD []
  let fin := if last.length = n then xorBytes last k1 else xorBytes (fitTo n (last ++ [0x80])) k2
  enc (xorBytes (cs.dropLast.foldl (fun y c => enc (xorBytes y c)) (zeros n)) fin)

/-- AES-CMAC. -/
def aesCmac (key m : Bytes) : Bytes :=
  let ks := aesKeys key
  cmacWith 16 (aesEncKeys ks) m

/-- HMAC over a hash with blocks of n bytes. -/
def hmacWith (n : Nat) (h : Bytes → Bytes) (key m : Bytes) : Bytes :=
  let k := fitTo n (if n < key.length then h key else key)
  let pad (b : Byte) : Bytes := k.map (fun x => x ^^^ b)
  h (pad 0x5C ++ h (pad 0x36 ++ m))

/-- HMAC-SHA-256, -384 and -512. -/
def hmac256 (key m : Bytes) : Bytes := hmacWith 64 sha256 key m
def hmac384 (key m : Bytes) : Bytes := hmacWith 128 sha384 key m
def hmac512 (key m : Bytes) : Bytes := hmacWith 128 sha512 key m

/-- The counter-mode KDF of SP 800-108: n bytes from a PRF, a label and a context, with a 32-bit counter, a zero byte
between label and context, and the output length in bits. -/
def kdfCounter (prf : Bytes → Bytes) (outLen : Nat) (label context : Bytes) (n : Nat) : Bytes :=
  (((List.range ((n + outLen - 1) / outLen)).map (fun i =>
    prf (beBytes 4 (i + 1) ++ label ++ [0x00] ++ context ++ beBytes 4 (8 * n)))).flatten).take n

/-- HKDF-Extract. -/
def hkdfExtract (hm : Bytes → Bytes → Bytes) (salt ikm : Bytes) : Bytes := hm salt ikm

/-- The blocks of HKDF-Expand. -/
def hkdfGo (hm : Bytes → Bytes → Bytes) (prk info : Bytes) : Nat → Nat → Bytes → Bytes
  | 0, _, _ => []
  | k + 1, i, t =>
    let t := hm prk (t ++ info ++ [BitVec.ofNat 8 i])
    t ++ hkdfGo hm prk info k (i + 1) t

/-- HKDF-Expand to n bytes with a hash of outLen bytes. -/
def hkdfExpand (hm : Bytes → Bytes → Bytes) (outLen : Nat) (prk info : Bytes) (n : Nat) : Bytes :=
  (hkdfGo hm prk info ((n + outLen - 1) / outLen) 1 []).take n

end Sys2Proof.Machine
end

