-- ==== Sys2Proof/Machine/Sha3.lean ====
section
/-! DEFINITION. The remaining hash functions of the clusters: SHA-1 for access codes (R183), SHA-224 and SHA-512/256
(FIPS 180-4), SHA-3 and SHAKE (FIPS 202); and the hash codes of R181. -/

namespace Sys2Proof.Machine

/-! ## SHA-1 -/

/-- Rotation left of a w-bit word. -/
def rotL (w n v : Nat) : Nat := v * 2 ^ n % 2 ^ w + v / 2 ^ (w - n)

/-- The schedule of SHA-1, newest word first, by n more words. -/
def sha1Schedule : Nat → List Nat → List Nat
  | 0, ws => ws
  | n + 1, ws =>
    sha1Schedule n (rotL 32 1 (Nat.xor (xor3 (ws.getD 2 0) (ws.getD 7 0) (ws.getD 13 0)) (ws.getD 15 0)) :: ws)

/-- One round of SHA-1: the round number with its word. -/
def sha1Round (v : List Nat) (tw : Nat × Nat) : List Nat :=
  match v with
  | [a, b, c, d, e] =>
    let m := 2 ^ 32
    let (f, k) :=
      if tw.1 < 20 then (Nat.xor (Nat.land b c) (Nat.land (m - 1 - b) d), 0x5A827999)
      else if tw.1 < 40 then (xor3 b c d, 0x6ED9EBA1)
      else if tw.1 < 60 then (xor3 (Nat.land b c) (Nat.land b d) (Nat.land c d), 0x8F1BBCDC)
      else (xor3 b c d, 0xCA62C1D6)
    [(rotL 32 5 a + f + e + k + tw.2) % m, a, rotL 32 30 b, c, d]
  | _ => v

/-- One block of SHA-1. -/
def sha1Block (h : List Nat) (block : Bytes) : List Nat :=
  let w := (sha1Schedule 64 ((chunks 4 block).map beNat).reverse).reverse
  List.zipWith (fun a b => (a + b) % 2 ^ 32) h (((List.range 80).zip w).foldl sha1Round h)

/-- SHA-1. -/
def sha1 (m : Bytes) : Bytes :=
  let h := (chunks 64 (shaPad 64 8 m)).foldl sha1Block [0x67452301, 0xEFCDAB89, 0x98BADCFE, 0x10325476, 0xC3D2E1F0]
  (h.map (beBytes 4)).flatten

/-- HMAC-SHA-1, inside the access-code opcodes alone (R183). -/
def hmac1 (key m : Bytes) : Bytes := hmacWith 64 sha1 key m

/-! ## The rest of SHA-2 -/

/-- SHA-224. -/
def sha224 (m : Bytes) : Bytes :=
  shaRun sha32Kind (iv384.map (· % 2 ^ 32)) 28 m

/-- The initial value of SHA-512/256, which its own generation function gives. -/
def iv512t : List Nat :=
  let h := shaRun sha64Kind (iv512.map (fun w => Nat.xor w 0xA5A5A5A5A5A5A5A5)) 64 (ascii "SHA-512/256")
  (chunks 8 h).map beNat

/-- SHA-512/256. -/
def sha512t (m : Bytes) : Bytes := shaRun sha64Kind iv512t 32 m

/-! ## Keccak -/

/-- The next state of the round constant's shift register. -/
def kecStep (r : Nat) : Nat := if r / 128 % 2 = 1 then Nat.xor (r * 2 % 256) 0x71 else r * 2 % 256

/-- The round constants: bits 2^j - 1 of each come from seven successive outputs of the shift register. -/
def kecConstGo : Nat → Nat → List Nat
  | 0, _ => []
  | n + 1, r =>
    let (c, r) := (List.range 7).foldl (fun (cr : Nat × Nat) j =>
      (if cr.2 % 2 = 1 then Nat.xor cr.1 (2 ^ (2 ^ j - 1)) else cr.1, kecStep cr.2)) (0, r)
    c :: kecConstGo n r

/-- The round constants of Keccak-f[1600]. -/
def kecConst : List Nat := kecConstGo 24 1

/-- The rotation offset of each lane in the order in which the pi walk visits them. -/
def kecWalk : Nat → Nat → Nat → Nat → List (Nat × Nat)
  | 0, _, _, _ => []
  | n + 1, t, x, y => (x + 5 * y, (t + 1) * (t + 2) / 2 % 64) :: kecWalk n (t + 1) y ((2 * x + 3 * y) % 5)

/-- Rotation offsets by lane x + 5y. -/
def kecRot : List Nat :=
  let w := kecWalk 24 0 1 0
  (List.range 25).map (fun l => ((w.find? (fun p => p.1 == l)).map (·.2)).getD 0)

/-- One round on the 25 lanes. -/
def kecRound (s : List Nat) (rc : Nat) : List Nat :=
  let a := s.toArray
  let at' (i : Nat) : Nat := a.getD i 0
  let c := ((List.range 5).map (fun x =>
    Nat.xor (xor3 (at' x) (at' (x + 5)) (at' (x + 10))) (Nat.xor (at' (x + 15)) (at' (x + 20))))).toArray
  let dd := ((List.range 5).map (fun x => Nat.xor (c.getD ((x + 4) % 5) 0) (rotL 64 1 (c.getD ((x + 1) % 5) 0)))).toArray
  let b := ((List.range 25).map (fun i =>
    let x := i % 5
    let y := i / 5
    let src := (x + 3 * y) % 5 + 5 * x
    rotL 64 (kecRot.getD src 0) (Nat.xor (at' src) (dd.getD (src % 5) 0)))).toArray
  (List.range 25).map (fun i =>
    let x := i % 5
    let y := i / 5 * 5
    let v := Nat.xor (b.getD i 0) (Nat.land (2 ^ 64 - 1 - b.getD ((x + 1) % 5 + y) 0) (b.getD ((x + 2) % 5 + y) 0))
    if i = 0 then Nat.xor v rc else v)

/-- Keccak-f[1600]. -/
def keccakF (s : List Nat) : List Nat := kecConst.foldl kecRound s

/-- Absorbs one block of rate bytes. -/
def kecAbsorb (s : List Nat) (block : Bytes) : List Nat :=
  let ws := (chunks 8 block).map leNat
  keccakF ((List.range 25).map (fun i => Nat.xor (s.getD i 0) (ws.getD i 0)))

/-- n blocks of output. -/
def kecSqueeze (rate : Nat) : Nat → List Nat → Bytes
  | 0, _ => []
  | n + 1, s => ((s.map (leBytes 8)).flatten).take rate ++ kecSqueeze rate n (keccakF s)

/-- The sponge: rate and domain byte, n bytes of output. -/
def sponge (rate : Nat) (dom : Nat) (m : Bytes) (n : Nat) : Bytes :=
  let z := rate - m.length % rate
  let pad : Bytes := (List.range z).map (fun i =>
    BitVec.ofNat 8 (Nat.xor (if i = 0 then dom else 0) (if i + 1 = z then 0x80 else 0)))
  let s := (chunks rate (m ++ pad)).foldl kecAbsorb (List.replicate 25 0)
  (kecSqueeze rate ((n + rate - 1) / rate) s).take n

/-- SHA-3 with n bytes of digest. -/
def sha3 (n : Nat) (m : Bytes) : Bytes := sponge (200 - 2 * n) 0x06 m n

/-- SHAKE128 and SHAKE256. -/
def shake128 (m : Bytes) (n : Nat) : Bytes := sponge 168 0x1F m n
def shake256 (m : Bytes) (n : Nat) : Bytes := sponge 136 0x1F m n

/-! ## Hash codes (R181) -/

/-- A hash by its code: function, digest bytes, block bytes. -/
structure HashFn where
  run : Bytes → Bytes
  size : Nat
  block : Nat

/-- The hash codes of R181. -/
def hashOf : Nat → Option HashFn
  | 1 => some ⟨sha224, 28, 64⟩
  | 2 => some ⟨sha256, 32, 64⟩
  | 3 => some ⟨sha384, 48, 128⟩
  | 4 => some ⟨sha512, 64, 128⟩
  | 5 => some ⟨sha512t, 32, 128⟩
  | 8 => some ⟨sha3 28, 28, 144⟩
  | 9 => some ⟨sha3 32, 32, 136⟩
  | 10 => some ⟨sha3 48, 48, 104⟩
  | 11 => some ⟨sha3 64, 64, 72⟩
  | _ => none

/-- Digest size of a hash code, 0 where there is no such hash. -/
def hashSize (c : Nat) : Nat := ((hashOf c).map (·.size)).getD 0

/-- Digest under a hash code. -/
def hashRun (c : Nat) (m : Bytes) : Bytes := ((hashOf c).map (fun h => h.run m)).getD []

/-- HMAC under a hash code. -/
def hmacCode (c : Nat) (key m : Bytes) : Bytes := ((hashOf c).map (fun h => hmacWith h.block h.run key m)).getD []

end Sys2Proof.Machine
end

