-- ==== Sys2Proof/Machine/Num.lean ====
section
/-! DEFINITION. Modular arithmetic of the public-key engines (R200): powers, inverses, square roots and a primality
test. -/

namespace Sys2Proof.Machine

/-- a to the power of an exponent of n bits, modulo m, most significant bit first. -/
def powGo (a m e : Nat) : Nat → Nat → Nat
  | 0, acc => acc
  | n + 1, acc =>
    let s := acc * acc % m
    powGo a m e n (if e / 2 ^ n % 2 = 1 then s * a % m else s)

/-- a to the e modulo m. -/
def powMod (a e m : Nat) : Nat := powGo (a % m) m e (Nat.log2 e + 1) (1 % m)

/-- Difference modulo m. -/
def subMod (a b m : Nat) : Nat := (a + (m - b % m)) % m

/-- The extended Euclidean algorithm with fuel: greatest divisor and the coefficient of the first number modulo m. -/
def egcdGo (m : Nat) : Nat → Nat → Nat → Nat → Nat → Nat × Nat
  | 0, r, _, s, _ => (r, s)
  | f + 1, r, r', s, s' => if r' = 0 then (r, s) else egcdGo m f r' (r % r') s' (subMod s (r / r' * s') m)

/-- The inverse of a modulo m, 0 where there is none. -/
def invMod (a m : Nat) : Nat :=
  let (g, s) := egcdGo m (2 * Nat.log2 m + 4) (a % m) m 1 0
  if g = 1 then s % m else 0

/-- One Miller-Rabin round: n - 1 = d * 2^s. -/
def mrRound (n d s b : Nat) : Bool :=
  let x := powMod b d n
  x = 1 || x = n - 1
    || ((List.range s).foldl (fun (a : Nat × Bool) _ => let y := a.1 * a.1 % n; (y, a.2 || y = n - 1)) (x, false)).2

/-- The largest power of two that divides n, with fuel. -/
def twos : Nat → Nat → Nat
  | 0, _ => 0
  | f + 1, n => if n % 2 = 0 && n ≠ 0 then 1 + twos f (n / 2) else 0

/-- Whether n has no divisor from 2 up to a bound. -/
def noDivisor (n : Nat) : Nat → Bool
  | 0 => true
  | 1 => true
  | k + 1 => n % (k + 1) != 0 && noDivisor n k

/-- The primes below 1,000 (R203). -/
def primes1000 : List Nat := (List.range 1000).filter (fun n => 2 ≤ n && noDivisor n (n - 1))

/-- Probable prime: no small divisor, and Miller-Rabin to forty bases, the first primes. -/
def probPrime (n : Nat) : Bool :=
  primes1000.all (fun p => n % p != 0) &&
    (let s := twos (Nat.log2 n + 1) (n - 1)
     (primes1000.take 40).all (fun b => mrRound n ((n - 1) / 2 ^ s) s b))

/-- The first probable prime p from an odd start with gcd(p - 1, e) = 1, within a number of steps of two. -/
def nextPrime (e : Nat) : Nat → Nat → Option Nat
  | 0, _ => none
  | f + 1, n => if Nat.gcd (n - 1) e = 1 && probPrime n then some n else nextPrime e f (n + 2)

end Sys2Proof.Machine
end

