-- ==== Sys2Proof/Machine/Ecc.lean ====
section
/-! DEFINITION. Elliptic curves of the engines (R202): P-256 and P-384 with ECDSA and ECDH, Ed25519 and X25519. -/

namespace Sys2Proof.Machine

/-! ## Short Weierstrass curves (SP 800-186) -/

/-- A curve y² = x³ - 3x + b over a prime field, of bytes per coordinate. -/
structure Curve where
  p : Nat
  b : Nat
  n : Nat
  g : Nat × Nat
  size : Nat

/-- P-256. -/
def p256 : Curve :=
  { p := 0xffffffff00000001000000000000000000000000ffffffffffffffffffffffff
    b := 0x5ac635d8aa3a93e7b3ebbd55769886bc651d06b0cc53b0f63bce3c3e27d2604b
    n := 0xffffffff00000000ffffffffffffffffbce6faada7179e84f3b9cac2fc632551
    g := (0x6b17d1f2e12c4247f8bce6e563a440f277037d812deb33a0f4a13945d898c296,
          0x4fe342e2fe1a7f9b8ee7eb4a7c0f9e162bce33576b315ececbb6406837bf51f5)
    size := 32 }

/-- P-384. -/
def p384 : Curve :=
  { p := 0xfffffffffffffffffffffffffffffffffffffffffffffffffffffffffffffffeffffffff0000000000000000ffffffff
    b := 0xb3312fa7e23ee7e4988e056be3f82d19181d9c6efe8141120314088f5013875ac656398d8a2ed19d2a85c8edd3ec2aef
    n := 0xffffffffffffffffffffffffffffffffffffffffffffffffc7634d81f4372ddf581a0db248b0a77aecec196accc52973
    g := (0xaa87ca22be8b05378eb1c71ef320ad746e1d3b628ba79b9859f741e082542a385502f25dbf55296c3a545e3872760ab7,
          0x3617de4a96262c6f5d9e98bf9292dc29f8f41dbd289a147ce9da3113b5f0b8c00a60b1ce1d7e819d7a431d7c90ea0e5f)
    size := 48 }

/-- The curve of an ALG. -/
def curveOf (alg : Nat) : Curve := if alg = 0x0102 then p384 else p256

/-- Addition of points, none being the point at infinity. -/
def ecAdd (c : Curve) : Option (Nat × Nat) → Option (Nat × Nat) → Option (Nat × Nat)
  | none, q => q
  | q, none => q
  | some (x1, y1), some (x2, y2) =>
    if x1 = x2 && (y1 + y2) % c.p = 0 then none
    else
      let l := if x1 = x2 then (3 * x1 * x1 + (c.p - 3)) % c.p * invMod (2 * y1) c.p % c.p
        else subMod y2 y1 c.p * invMod (subMod x2 x1 c.p) c.p % c.p
      let x := subMod (l * l % c.p) (x1 + x2) c.p
      some (x, subMod (l * subMod x1 x c.p % c.p) y1 c.p)

/-- k times a point over the low n bits of k. -/
def ecMulGo (c : Curve) (q : Option (Nat × Nat)) (k : Nat) : Nat → Option (Nat × Nat) → Option (Nat × Nat)
  | 0, acc => acc
  | n + 1, acc =>
    let d := ecAdd c acc acc
    ecMulGo c q k n (if k / 2 ^ n % 2 = 1 then ecAdd c d q else d)

/-- k times a point. -/
def ecMul (c : Curve) (k : Nat) (q : Option (Nat × Nat)) : Option (Nat × Nat) := ecMulGo c q k (8 * c.size + 1) none

/-- Whether coordinates lie below p on the curve. -/
def ecOn (c : Curve) (x y : Nat) : Bool :=
  x < c.p && y < c.p && (y * y) % c.p = (x * x * x + (c.p - 3) * x + c.b) % c.p

/-- A public key in the uncompressed encoding, checked as R203 says. -/
def ecDecode (c : Curve) (pk : Bytes) : Option (Nat × Nat) :=
  let x := beNat (slice pk 1 c.size)
  let y := beNat (slice pk (1 + c.size) c.size)
  if pk.length = 1 + 2 * c.size && pk.head? = some 4 && ecOn c x y then some (x, y) else none

/-- The uncompressed encoding. -/
def ecEncode (c : Curve) (q : Nat × Nat) : Bytes := [0x04] ++ beBytes c.size q.1 ++ beBytes c.size q.2

/-- The public point of a private key. -/
def ecPub (c : Curve) (d : Nat) : Nat × Nat := (ecMul c d (some c.g)).getD (0, 0)

/-! ## ECDSA (FIPS 186-5, RFC 6979) -/

/-- The leftmost bits of a digest as a number below 2 to the bit length of n. -/
def ecBits (c : Curve) (h : Bytes) : Nat :=
  let v := beNat h
  if 8 * c.size < 8 * h.length then v / 2 ^ (8 * h.length - 8 * c.size) else v

/-- Candidates for k: the HMAC generator of RFC 6979, with fuel. -/
def rfcLoop (hm : Bytes → Bytes → Bytes) (n size hLen : Nat) : Nat → Bytes → Bytes → Nat
  | 0, _, _ => 1
  | f + 1, k, v =>
    let (t, v) := (List.range ((size + hLen - 1) / hLen)).foldl (fun (a : Bytes × Bytes) _ =>
      let v := hm k a.2
      (a.1 ++ v, v)) ([], v)
    let c := beNat (t.take size)
    if 1 ≤ c && c < n then c
    else
      let k := hm k (v ++ [0x00])
      rfcLoop hm n size hLen f k (hm k v)

/-- The per-message secret with additional data, empty for the deterministic form (R210). -/
def rfcK (c : Curve) (hash d : Nat) (h extra : Bytes) : Nat :=
  let hm := hmacCode hash
  let hLen := hashSize hash
  let seed := beBytes c.size d ++ beBytes c.size (ecBits c h % c.n) ++ extra
  let v := List.replicate hLen (0x01 : Byte)
  let k := hm (zeros hLen) (v ++ [0x00] ++ seed)
  let v := hm k v
  let k := hm k (v ++ [0x01] ++ seed)
  rfcLoop hm c.n c.size hLen 16 k (hm k v)

/-- The signature of a digest. -/
def ecdsaSign (c : Curve) (hash d : Nat) (h extra : Bytes) : Nat × Nat :=
  let k := rfcK c hash d h extra
  let r := (ecPub c k).1 % c.n
  (r, invMod k c.n * ((ecBits c h + r * d) % c.n) % c.n)

/-- Whether a signature verifies. -/
def ecdsaOk (c : Curve) (q : Nat × Nat) (h : Bytes) (r s : Nat) : Bool :=
  if r = 0 || s = 0 || c.n ≤ r || c.n ≤ s then false
  else
    let w := invMod s c.n
    match ecAdd c (ecMul c (ecBits c h * w % c.n) (some c.g)) (ecMul c (r * w % c.n) (some q)) with
    | some (x, _) => x % c.n = r
    | none => false

/-- A number as a DER integer. -/
def derInt (n : Nat) : Bytes :=
  let len := (Nat.log2 n) / 8 + 1
  let b := beBytes len n
  let b := if 128 ≤ (b.headD 0).toNat then 0x00 :: b else b
  [0x02, BitVec.ofNat 8 b.length] ++ b

/-- A signature in DER form. -/
def derSig (r s : Nat) : Bytes :=
  let body := derInt r ++ derInt s
  [0x30, BitVec.ofNat 8 body.length] ++ body

/-- One DER integer at the front of a string: minimal, not negative. -/
def derTake (b : Bytes) : Option (Nat × Bytes) :=
  match b with
  | t :: l :: rest =>
    let n := l.toNat
    let v := rest.take n
    if t = 0x02 && 1 ≤ n && n < 128 && v.length = n && (v.headD 0).toNat < 128
        && !(2 ≤ n && v.headD 0 = 0 && ((v.drop 1).headD 0).toNat < 128) then some (beNat v, rest.drop n)
    else none
  | _ => none

/-- A DER signature taken apart. -/
def derParse (b : Bytes) : Option (Nat × Nat) :=
  match b with
  | t :: l :: rest =>
    if t = 0x30 && l.toNat < 128 && rest.length = l.toNat then
      match derTake rest with
      | some (r, rest) => match derTake rest with
        | some (s, []) => some (r, s)
        | _ => none
      | none => none
    else none
  | _ => none

/-! ## Curve25519 (RFC 7748, RFC 8032) -/

/-- The field prime. -/
def p25519 : Nat := 2 ^ 255 - 19

/-- The order of the base point. -/
def l25519 : Nat := 2 ^ 252 + 27742317777372353535851937790883648493

/-- The curve constant d. -/
def ed25519D : Nat := subMod 0 (121665 * invMod 121666 p25519 % p25519) p25519

/-- A square root of u / v, if there is one. -/
def edSqrt (u v : Nat) : Option Nat :=
  let p := p25519
  let x := u * powMod v 3 p % p * powMod (u * powMod v 7 p % p) ((p - 5) / 8) p % p
  let t := v * (x * x % p) % p
  if t = u % p then some x
  else if t = subMod 0 u p then some (x * powMod 2 ((p - 1) / 4) p % p)
  else none

/-- A point decoded; a y at or above p is refused (R203). -/
def edDecode (b : Bytes) : Option (Nat × Nat) :=
  let v := leNat b
  let y := v % 2 ^ 255
  let sign := v / 2 ^ 255
  let p := p25519
  if p ≤ y || b.length ≠ 32 then none
  else match edSqrt (subMod (y * y % p) 1 p) ((ed25519D * (y * y % p) + 1) % p) with
    | none => none
    | some x => if x = 0 && sign = 1 then none else some (if x % 2 = sign then x else subMod 0 x p, y)

/-- A point encoded. -/
def edEncode (q : Nat × Nat) : Bytes := leBytes 32 (q.2 + q.1 % 2 * 2 ^ 255)

/-- Addition on the Edwards curve. -/
def edAdd (a b : Nat × Nat) : Nat × Nat :=
  let p := p25519
  let t := ed25519D * (a.1 * b.1 % p) % p * (a.2 * b.2 % p) % p
  ((a.1 * b.2 + b.1 * a.2) % p * invMod (1 + t) p % p, (a.2 * b.2 + a.1 * b.1) % p * invMod (subMod 1 t p) p % p)

/-- k times a point over the low n bits of k. -/
def edMulGo (q : Nat × Nat) (k : Nat) : Nat → Nat × Nat → Nat × Nat
  | 0, acc => acc
  | n + 1, acc =>
    let d := edAdd acc acc
    edMulGo q k n (if k / 2 ^ n % 2 = 1 then edAdd d q else d)

/-- k times a point. -/
def edMul (k : Nat) (q : Nat × Nat) : Nat × Nat := edMulGo q k (Nat.log2 k + 1) (0, 1)

/-- The base point. -/
def edBase : Nat × Nat := (edDecode (leBytes 32 (4 * invMod 5 p25519 % p25519))).getD (0, 1)

/-- The scalar and the second half of the expanded seed. -/
def edExpand (seed : Bytes) : Nat × Bytes :=
  let h := sha512 seed
  let a := leNat (h.take 32)
  (setBits (setBits a 255 254 1) 2 0 0, h.drop 32)

/-- The public key of a seed. -/
def edPub (seed : Bytes) : Bytes := edEncode (edMul (edExpand seed).1 edBase)

/-- The prefix of the context and prehash forms: VARIANT 0 none, 1 context, 2 prehash. -/
def edDom (variant : Nat) (ctx : Bytes) : Bytes :=
  if variant = 0 then []
  else ascii "SigEd25519 no Ed25519 collisions" ++ [BitVec.ofNat 8 (variant - 1), BitVec.ofNat 8 ctx.length] ++ ctx

/-- The signature; the message is the digest where the form is the prehash one. -/
def edSign (variant : Nat) (ctx seed msg : Bytes) : Bytes :=
  let (a, pre) := edExpand seed
  let dom := edDom variant ctx
  let r := leNat (sha512 (dom ++ pre ++ msg)) % l25519
  let rr := edEncode (edMul r edBase)
  let k := leNat (sha512 (dom ++ rr ++ edPub seed ++ msg)) % l25519
  rr ++ leBytes 32 ((r + k * a) % l25519)

/-- Whether a signature of 64 bytes verifies, by the cofactored equation (R210). -/
def edOk (variant : Nat) (ctx pk msg sig : Bytes) : Bool :=
  let s := leNat (sig.drop 32)
  match edDecode pk, edDecode (sig.take 32) with
  | some a, some r =>
    if l25519 ≤ s then false
    else
      let k := leNat (sha512 (edDom variant ctx ++ sig.take 32 ++ pk ++ msg)) % l25519
      edMul 8 (edMul s edBase) == edMul 8 (edAdd r (edMul k a))
  | _, _ => false

/-- One step of the Montgomery ladder. -/
def xStep (x1 : Nat) (s : Nat × Nat × Nat × Nat) (b : Bool) : Nat × Nat × Nat × Nat :=
  let p := p25519
  let (x2, z2, x3, z3) := s
  let (x2, z2, x3, z3) := if b then (x3, z3, x2, z2) else (x2, z2, x3, z3)
  let a := (x2 + z2) % p
  let aa := a * a % p
  let bb := subMod x2 z2 p * subMod x2 z2 p % p
  let e := subMod aa bb p
  let da := subMod x3 z3 p * a % p
  let cb := (x3 + z3) % p * subMod x2 z2 p % p
  let nx3 := (da + cb) % p * ((da + cb) % p) % p
  let nz3 := x1 * (subMod da cb p * subMod da cb p % p) % p
  let r := (aa * bb % p, e * ((aa + 121665 * e) % p) % p, nx3, nz3)
  if b then (r.2.2.1, r.2.2.2, r.1, r.2.1) else r

/-- X25519 (RFC 7748). -/
def x25519 (scalar u : Bytes) : Bytes :=
  let k := setBits (setBits (leNat scalar) 255 254 1) 2 0 0
  let x1 := leNat u % 2 ^ 255 % p25519
  let r := (List.range 255).foldl (fun s i => xStep x1 s (bit k (254 - i))) (1, 0, x1, 1)
  leBytes 32 (r.1 * powMod r.2.1 (p25519 - 2) p25519 % p25519)

/-- The X25519 public key of a scalar. -/
def xPub (scalar : Bytes) : Bytes := x25519 scalar (leBytes 32 9)

end Sys2Proof.Machine
end

