-- ==== Sys2Proof/Machine/Mpe.lean ====
section
/-! DEFINITION. Protected memory (R246-R275): lines, split counters, the counter tree and its cache, verification,
epochs, the write buffer. -/

namespace Sys2Proof.Machine

/-! ## Lines and counters -/

/-- A counter line of zeros (R252). -/
def ctrZero : CtrLine := ⟨0, []⟩

/-- A minor counter. -/
def minorOf (l : CtrLine) (k : Nat) : Nat := smapGet zeroAt l.minor k

/-- The counter block CB (R249). -/
def ctrBlock (maj min addr auth i : Nat) : Bytes :=
  beBytes 16 (maj * 2 ^ 64 + min * 2 ^ 57 + addr / 64 * 2 ^ 23 + auth * 4 + i)

/-- A data line encrypted or decrypted in counter mode (R249). -/
def lineCrypt (kMem : Bytes) (maj min addr : Nat) (text : Bytes) : Bytes :=
  let ks := aesKeys kMem
  xorBytes text (((List.range 4).map (fun i => aesEncKeys ks (ctrBlock maj min addr 0 i))).flatten)

/-- The MAC of a line (R250). -/
def lineMac (kMac : Bytes) (maj min addr : Nat) (text : Bytes) : Nat :=
  let ks := aesKeys kMac
  let h := beNat (aesEncKeys ks (zeros 16))
  let g := ghash h (text ++ beBytes 16 512)
  Nat.xor g (beNat (aesEncKeys ks (ctrBlock maj min addr 1 0))) / 2 ^ 88

/-- A counter line as 64 bytes (R251). -/
def ctrBytes (l : CtrLine) : Bytes :=
  leBytes 8 l.major ++ leBytes 56 ((List.range 64).foldl (fun a k => a + minorOf l k * 2 ^ (7 * k)) 0)

/-- A counter line read from 64 bytes (R251). -/
def ctrParse (bs : Bytes) : CtrLine :=
  let m := leNat (bs.drop 8)
  ⟨leAt bs 0 8, (List.range 64).foldl (fun a k => smapSet zeroAt a k (m / 2 ^ (7 * k) % 128)) []⟩

/-- Address of line n of a tree level (R254). -/
def treeAddr (lvl n : Nat) : Nat :=
  (match lvl with
   | 0 => 0x1F_8000_0000 | 1 => 0x1F_C000_0000 | 2 => 0x1F_C100_0000 | _ => 0x1F_C104_0000) + 64 * n

/-- First address of protected memory and of the counter tree region (R14, R246, R254). -/
def dramBase : Nat := 0x10_0000_0000
def dramTop : Nat := 0x1F_FFFF_FFFF

/-- Channel of a line (R246). -/
def lineChan (a : Nat) : Nat := Nat.xor (bits a 8 6) (bits a 11 9)

/-! ## The line as it is stored (R248) -/

/-- CODE of a stored line: the symbol code is the part's own, the spec giving only what it corrects and detects. -/
def storedCode (s : Stored) : Nat := Config.symbolCode s.text s.mac % 2 ^ 24

/-- The 64 metadata bits: the MAC above CODE. -/
def storedMeta (s : Stored) : Nat := s.mac * 2 ^ 24 + storedCode s

/-- The two bursts of 288 bits: half of the stored bytes above half of the metadata. -/
def storedBursts (s : Stored) : Nat × Nat :=
  (leNat (s.text.take 32) * 2 ^ 32 + storedMeta s % 2 ^ 32, leNat (s.text.drop 32) * 2 ^ 32 + storedMeta s / 2 ^ 32)

/-! ## Access to the state -/

/-- Changes the engine. -/
def modMpe (f : MpeSt → MpeSt) (d : Dev) : Dev := { d with mpe := f d.mpe }

/-- A cached tree line. -/
def ccOf (d : Dev) (addr : Nat) : Option CcLine := smapGet noneAt d.mpe.cc (addr / 64)

/-- Sets a cached tree line. -/
def ccPut (addr : Nat) (l : Option CcLine) (d : Dev) : Dev :=
  modMpe (fun m => { m with
    cc := smapSet noneAt m.cc (addr / 64) l
    ccBad := if l.isNone then smapSet zeroAt m.ccBad (addr / 64) 0 else m.ccBad }) d

/-- A stored line. -/
def dramOf (d : Dev) (addr : Nat) : Option Stored := smapGet noneAt d.mpe.dram (addr / 64)

/-- Stores a line, which leaves no symbol of it in error. -/
def dramPut (addr : Nat) (l : Stored) (d : Dev) : Dev :=
  modMpe (fun m => { m with dram := smapSet noneAt m.dram (addr / 64) (some l), bad := smapSet zeroAt m.bad (addr / 64) 0 }) d

/-- The stored text of a line, zeros where nothing is stored. -/
def textOf (d : Dev) (addr : Nat) : Bytes := ((dramOf d addr).map (·.text)).getD (zeros 64)

/-- The engine serves protected memory (R247, R268). -/
def mpeServes (d : Dev) : Bool := (hdrOf d pgMPE).enable && !d.mpe.halting && d.mpe.kMem.isSome

/-- The keys, zeros while absent. -/
def kMemOf (d : Dev) : Bytes := d.mpe.kMem.getD (zeros 32)
def kMacOf (d : Dev) : Bytes := d.mpe.kMac.getD (zeros 32)

/-- A verification failure is noted; the halt of R268 follows. Only the first counts. -/
def mpeFail (f : MpeFail) (d : Dev) : Dev :=
  modMpe (fun m => if m.failing.isSome then m else { m with failing := some f }) d

/-- A correction is counted for its channel, and CE_HIGH is raised once an hour at the limit (R259). -/
def countCorrection (addr : Nat) (d : Dev) : Dev :=
  let ch := lineChan addr
  let f := fldAt (if ch % 2 = 1 then Reg.MPE_CE_01_CH_ODD else Reg.MPE_CE_01_CH_EVEN) 0
  let d := satFld d pgMPE1 { f with off := 0x040 + 4 * (ch / 2) } 1
  let n := smapGet zeroAt d.mpe.ceHour ch + 1
  let d := modMpe (fun m => { m with ceHour := smapSet zeroAt m.ceHour ch n }) d
  if fld d pgMPE Reg.MPE_CFG_CE_LIMIT ≤ n && !(bit d.mpe.ceRaised ch) then
    raiseEv pgMPE 0 (modMpe (fun m => { m with ceRaised := setBit m.ceRaised ch true }) d)
  else d

/-- The counters under which line n of a level is stored: its parent's, or the root counter as major (R250, R255). -/
def parentCtr (d : Dev) (lvl n : Nat) : Nat × Nat :=
  if 3 ≤ lvl then (smapGet zeroAt d.mpe.roots n, 0)
  else match ccOf d (treeAddr (lvl + 1) (n / 64)) with
    | some p => (p.line.major, minorOf p.line (n % 64))
    | none => (0, 0)

/-- Changes a cached line's contents and marks it dirty (R256). -/
def ccWrite (addr : Nat) (line : CtrLine) (d : Dev) : Dev :=
  match ccOf d addr with
  | some c => ccPut addr (some { c with line := line, dirty := true }) d
  | none => d

/-! ## Errors (R258-R261) -/

/-- Symbols in error of a stored line, as it lies in LPDDR6. -/
def symbolsBad (d : Dev) (addr : Nat) : Nat := smapGet zeroAt d.mpe.bad (addr / 64)

/-- Step 1 of R258 on a line of a level: CODE is decoded. A single symbol is corrected, the line is written back unchanged, and the correction is
counted for the line's own channel (R259); two are a failure of KIND 2. A line that was never written is not read (R252). -/
def codeStep (ep lvl addr : Nat) (d : Dev) : Dev :=
  if (dramOf d addr).isNone then d
  else match symbolsBad d addr with
    | 1 => countCorrection addr (modMpe (fun m => { m with bad := smapSet zeroAt m.bad (addr / 64) 0 }) d)
    | 2 => mpeFail ⟨lvl, 2, addr, ep⟩ d
    | _ => d

/-- Step 3 of R258: the MAC under the counters. A change of three symbols or more, which CODE need not show, is one that the MAC shows. -/
def macStep (ep lvl addr : Nat) (c : Nat × Nat) (d : Dev) : Dev :=
  let s := (dramOf d addr).getD ⟨zeros 64, 0⟩
  if symbolsBad d addr < 3 && lineMac (kMacOf d) c.1 c.2 addr s.text == s.mac then d else mpeFail ⟨lvl, 1, addr, ep⟩ d

/-- A tree line read outside the cache under its counters, verified; one counted zero reads as zeros (R252, R258). -/
def treeFetch (ep lvl n : Nat) (c : Nat × Nat) (d : Dev) : Bytes × Dev :=
  let a := treeAddr lvl n
  if c = (0, 0) then (zeros 64, d)
  else
    let t := textOf d a
    (t, macStep ep (lvl + 1) a c (codeStep ep (lvl + 1) a d))

/-- A cached line as it is looked at, its SECDED with it (R261): one bit is corrected, two cost a clean line, which is then not there, and are a
failure of KIND 3 in a dirty one. -/
def ccSee (addr : Nat) (d : Dev) : Option CcLine × Dev :=
  match ccOf d addr with
  | none => (none, d)
  | some c =>
    match smapGet zeroAt d.mpe.ccBad (addr / 64) with
    | 0 => (some c, d)
    | 1 => (some c, satFld (modMpe (fun m => { m with ccBad := smapSet zeroAt m.ccBad (addr / 64) 0 }) d) pgMPE1 Reg.MPE_CC_ERR_CORR 1)
    | _ =>
      if c.dirty then (some c, mpeFail ⟨7, 3, addr, 0⟩ d)
      else (none, raiseEv pgMPE 1 (satFld (ccPut addr none d) pgMPE1 Reg.MPE_CC_ERR_REFETCH 1))

/-! ## Raising counters -/

/-- Stores tree line n under its present parent counters (R250, R257). -/
def treeStore (lvl n : Nat) (text : Bytes) (d : Dev) : Dev :=
  let c := parentCtr d lvl n
  let a := treeAddr lvl n
  dramPut a ⟨text, lineMac (kMacOf d) c.1 c.2 a text⟩ d

/-- The parent's minor counter would reach 127: the 64 counted tree lines are verified, its major rises, every minor is 1, and the lines are
rewritten with new MACs; a failure leaves them as they are (R253). -/
def reencTree (lvl m : Nat) (d : Dev) : Dev :=
  match ccOf d (treeAddr (lvl + 1) m) with
  | none => d
  | some p =>
    let (texts, d) := (List.range 64).foldl (fun (acc : List Bytes × Dev) k =>
      let (b, d) := treeFetch 0 lvl (64 * m + k) (p.line.major, minorOf p.line k) acc.2
      (acc.1 ++ [b], d)) ([], d)
    if d.mpe.failing.isSome then d
    else
      let line : CtrLine := ⟨p.line.major + 1, (List.range 64).map (fun k => (k, 1))⟩
      let d := ccWrite (treeAddr (lvl + 1) m) line d
      let d := (List.range 64).foldl (fun d k => treeStore lvl (64 * m + k) (texts.getD k []) d) d
      wrapFld d pgMPE Reg.MPE_REENC_GROUPS 1

/-- Raises the counter that counts line n of a level (R257, R255). -/
def raiseCtr (lvl n : Nat) (d : Dev) : Dev :=
  if 3 ≤ lvl then
    modMpe (fun m => { m with roots := smapSet zeroAt m.roots n (smapGet zeroAt m.roots n + 1) }) d
  else
    let pa := treeAddr (lvl + 1) (n / 64)
    match ccOf d pa with
    | none => d
    | some p =>
      let v := minorOf p.line (n % 64) + 1
      if 127 ≤ v then reencTree lvl (n / 64) d
      else ccWrite pa { p.line with minor := smapSet zeroAt p.line.minor (n % 64) v } d

/-- Level and index of a tree line address (R254). -/
def treeNode (a : Nat) : Nat × Nat :=
  if a < 0x1F_C000_0000 then (0, (a - 0x1F_8000_0000) / 64)
  else if a < 0x1F_C100_0000 then (1, (a - 0x1F_C000_0000) / 64)
  else if a < 0x1F_C104_0000 then (2, (a - 0x1F_C100_0000) / 64)
  else (3, (a - 0x1F_C104_0000) / 64)

/-! ## The counter cache (R256, R257) -/

/-- Whether a cached line is dirty. -/
def ccDirty (kv : Nat × Option CcLine) : Bool := (kv.2.map (·.dirty)).getD false

/-- The dirty lines whose parent a cached line is. -/
def dirtyKids (d : Dev) (addr : Nat) : List Nat :=
  let (lvl, n) := treeNode addr
  if lvl = 0 then []
  else ((d.mpe.cc.filter (fun kv =>
    let (l, k) := treeNode (kv.1 * 64)
    l + 1 == lvl && k / 64 == n && ccDirty kv)).map (·.1 * 64))

/-- The set of a line. -/
def ccSet (d : Dev) (addr : Nat) : List (Nat × Option CcLine) := d.mpe.cc.filter (fun kv => kv.1 % 2048 = addr / 64 % 2048)

/-- The line a full set gives up: the least recently used clean one, else the least recently used dirty one, neither the parent of a dirty
line; where every line is the parent of one, the least recently used, once the lines below it are written back. The lines that the access
itself needs stay. -/
def ccVictim (keep : List Nat) (d : Dev) (addr : Nat) : Option Nat :=
  let set := (ccSet d addr).filter (fun kv => !(keep.contains (kv.1 * 64)))
  if (ccSet d addr).length < 16 then none
  else
    let oldest (p : Nat × Option CcLine → Bool) : Option (Nat × Nat) :=
      (set.filter p).foldl (fun b kv =>
        let u := (kv.2.map (·.use)).getD 0
        match b with
        | none => some (kv.1, u)
        | some x => if u < x.2 then some (kv.1, u) else b) none
    let free (kv : Nat × Option CcLine) : Bool := (dirtyKids d (kv.1 * 64)).isEmpty
    (((oldest (fun kv => !(ccDirty kv) && free kv)).or (oldest free)).or (oldest (fun _ => true))).map (·.1 * 64)

/-- A line is used now: the order of its last use, and a hit. -/
def ccHit (a : Nat) (c : CcLine) (d : Dev) : Dev :=
  let d := modMpe (fun m => { m with uses := m.uses + 1 }) d
  ccPut a (some { c with use := d.mpe.uses }) (wrapFld d pgMPE Reg.MPE_CC_HIT_HIT 1)

/-- A verified line enters the cache where its set has room. -/
def ccInsert (a : Nat) (line : CtrLine) (d : Dev) : Dev :=
  if 16 ≤ (ccSet d a).length then d
  else
    let d := modMpe (fun m => { m with uses := m.uses + 1 }) d
    ccPut a (some ⟨line, false, d.mpe.uses⟩) d

/-- What the counter cache does: a line of a level is brought in, or a line leaves. -/
inductive CcTask where
  | bring (lvl n : Nat)
  | evict (addr : Nat)

/-- Runs a task of the cache (R256-R258); fuel bounds its depth, ep is the epoch of the access and keep the lines that it needs. A line is
brought in with every missing line above it, each verified against the line above, and enters only then. A dirty line leaves once the lines
below it are written back: its parent's counter rises, the parent being there with the line that counts it, and it is stored under the new
counter. -/
def ccRun (ep : Nat) (keep : List Nat) : Nat → CcTask → Dev → Dev
  | 0, _, d => d
  | f + 1, .evict addr, d =>
    let d := (dirtyKids d addr).foldl (fun d k => ccRun ep keep f (.evict k) d) d
    match ccSee addr d with
    | (none, d) => d
    | (some c, d) =>
      if !c.dirty then ccPut addr none d
      else
        let (lvl, n) := treeNode addr
        let d := if lvl < 3 then ccRun ep keep f (.bring (lvl + 1) (n / 64)) d else d
        let d := if lvl < 2 then ccRun ep keep f (.bring (lvl + 2) (n / 4096)) d else d
        if d.mpe.failing.isSome then d else ccPut addr none (treeStore lvl n (ctrBytes c.line) (raiseCtr lvl n d))
  | f + 1, .bring lvl n, d =>
    let a := treeAddr lvl n
    match ccSee a d with
    | (some c, d) => ccHit a c d
    | (none, d) =>
      let d := codeStep ep (lvl + 1) a (wrapFld d pgMPE Reg.MPE_CC_MISS_MISS 1)
      let d := if lvl < 3 then ccRun ep keep f (.bring (lvl + 1) (n / 64)) d else d
      let c := parentCtr d lvl n
      let d := if c = (0, 0) then d else macStep ep (lvl + 1) a c d
      if d.mpe.failing.isSome then d
      else
        let d := match ccVictim keep d a with
          | some v => ccRun ep keep f (.evict v) d
          | none => d
        ccInsert a (if c = (0, 0) then ctrZero else ctrParse (textOf d a)) d

/-- Fuel that no access uses up: the tree has four levels. -/
def ccFuel : Nat := 32

/-- A dirty line is written back and leaves. -/
def ccEvict (addr : Nat) (d : Dev) : Dev := ccRun 0 [] ccFuel (.evict addr) d

/-- L0 line n comes into the cache for a read (R257). -/
def ctrBring (ep n : Nat) (d : Dev) : Dev := ccRun ep [treeAddr 0 n] ccFuel (.bring 0 n) d

/-- L0 line n comes into the cache for a write, with the line that counts it, which stays there while it is dirty (R256, R257). -/
def ctrHold (ep n : Nat) (d : Dev) : Dev :=
  let keep := [treeAddr 0 n, treeAddr 1 (n / 64)]
  let d := if (ccOf d (treeAddr 1 (n / 64))).isSome then d else ccRun ep keep ccFuel (.bring 1 (n / 64)) d
  ccRun ep keep ccFuel (.bring 0 n) d

/-- The counters of a data line, its chain brought in (R254); of a line that the cache could not take they are read as they are stored. -/
def dataCtr (ep a : Nat) (d : Dev) : (Nat × Nat) × Dev :=
  let n := (a - dramBase) / 4096
  let d := ctrBring ep n d
  let line := match ccOf d (treeAddr 0 n) with
    | some c => c.line
    | none => if (dramOf d (treeAddr 0 n)).isNone then ctrZero else ctrParse (textOf d (treeAddr 0 n))
  ((line.major, minorOf line (bits a 11 6)), d)

/-! ## Data lines -/

/-- Reads and verifies a data line from its stored form (R252, R258), in the order of R258; answers whether it has been written. -/
def lineFetch (ep a : Nat) (d : Dev) : Bytes × Bool × Dev :=
  let (c, d) := dataCtr ep a (codeStep ep 0 a d)
  if c = (0, 0) then (zeros 64, false, d)
  else (lineCrypt (kMemOf d) c.1 c.2 a (textOf d a), true, macStep ep 0 a c d)

/-- Stores a data line under counters (R249, R250). -/
def lineStore (maj min a : Nat) (plain : Bytes) (d : Dev) : Dev :=
  let t := lineCrypt (kMemOf d) maj min a plain
  dramPut a ⟨t, lineMac (kMacOf d) maj min a t⟩ d

/-- A group is re-encrypted around a write of one of its lines; a line that fails its verification leaves it as it is (R253). -/
def reencGroup (n k : Nat) (plain : Bytes) (d : Dev) : Dev :=
  let base := dramBase + 4096 * n
  let (lines, d) := (List.range 64).foldl (fun (acc : List Bytes × Dev) j =>
    let (b, _, d) := lineFetch 0 (base + 64 * j) acc.2
    (acc.1 ++ [b], d)) ([], d)
  match ccOf d (treeAddr 0 n) with
  | none => d
  | some c =>
    if d.mpe.failing.isSome then d
    else
      let d := ccWrite (treeAddr 0 n) ⟨c.line.major + 1, (List.range 64).map (fun j => (j, 1))⟩ d
      let d := (List.range 64).foldl (fun d j =>
        lineStore (c.line.major + 1) 1 (base + 64 * j) (if j = k then plain else lines.getD j []) d) d
      wrapFld d pgMPE Reg.MPE_REENC_GROUPS 1

/-- Writes a data line: its minor counter rises by one (R253). Once a verification has failed nothing is written (R268). -/
def lineWrite (a : Nat) (plain : Bytes) (d : Dev) : Dev :=
  let n := (a - dramBase) / 4096
  let k := bits a 11 6
  let d := ctrHold d.mpe.cur n d
  if d.mpe.failing.isSome then d
  else match ccOf d (treeAddr 0 n) with
    | none => d
    | some c =>
      let v := minorOf c.line k + 1
      if 127 ≤ v then reencGroup n k plain d
      else
        let d := ccWrite (treeAddr 0 n) { c.line with minor := smapSet zeroAt c.line.minor k v } d
        lineStore c.line.major v a plain d

/-- No damage. -/
def sound : LineDamage := ⟨0, 0, 0, none⟩

/-- The line of a level of the chain of a line, level 0 being the line itself, or of a tree line's own chain (R254). -/
def chainAddr (a lvl : Nat) : Nat :=
  if a < treeAddr 0 0 then (if lvl = 0 then a / 64 * 64 else treeAddr (lvl - 1) ((a - dramBase) / 4096 / 64 ^ (lvl - 1)))
  else
    let (l, n) := treeNode a
    if lvl ≤ l + 1 then a / 64 * 64 else treeAddr (lvl - 1) (n / 64 ^ (lvl - 1 - l))

/-- Damage comes over a line: symbols of the stored line that it names, and bits of a cached one, the first of the chain where it names none. -/
def hitLine (dmg : LineDamage) (a : Nat) (d : Dev) : Dev :=
  let s := dmg.line.getD (chainAddr a dmg.level)
  let c := dmg.line.or ((([1, 2, 3, 4] : List Nat).map (chainAddr a)).find? (fun x => (ccOf d x).isSome))
  let d := if dmg.symbols = 0 || (dramOf d s).isNone then d
    else modMpe (fun m => { m with bad := smapSet zeroAt m.bad (s / 64) dmg.symbols }) d
  match c with
  | some x => if dmg.ccBits = 0 || (ccOf d x).isNone then d
      else modMpe (fun m => { m with ccBad := smapSet zeroAt m.ccBad (x / 64) dmg.ccBits }) d
  | none => d

/-! ## Epochs (R263, R266) -/

/-- Whether an epoch has passed (R266). -/
def epochPassed (d : Dev) (e : Nat) : Bool := (d.mpe.ver + 65536 - e) % 65536 < 32768

/-- The later of two tags, compared over half the range (R264). -/
def tagMax : Option Nat → Option Nat → Option Nat
  | none, t => t
  | t, none => t
  | some a, some b => if (a + 65536 - b) % 65536 < 32768 then some a else some b

/-- VERIFIED rises to the highest closed epoch with no read outstanding at or before it (R263). -/
def epochUpdate (d : Dev) : Dev :=
  let m := d.mpe
  let age (e : Nat) : Nat := (m.cur + 65536 - e) % 65536
  let oldest := (m.reads.map (fun r => age r.epoch)).foldl max 0
  let ver := (m.cur + 65536 - 1 - oldest) % 65536
  let lag := (m.cur + 65536 - ver) % 65536
  let d := modMpe (fun m => { m with ver := ver, stalled := m.stalled && 4096 ≤ lag + 1 }) d
  setFld d pgMPE Reg.MPE_EPOCH_LAG_MAX (max (fld d pgMPE Reg.MPE_EPOCH_LAG_MAX) lag)

/-- Whether a master's reads are answered before verification (R264): lanes, clusters, engines, the key store
controller and the command processor, while SPEC_EN is 1 and the gap limit is not reached. -/
def speculates (d : Dev) : Bool := fldB d pgMPE Reg.MPE_CFG_SPEC_EN && !d.mpe.stalled

/-- Every buffered line whose epoch has passed leaves for LPDDR6 (R265). -/
def wbufDrain (d : Dev) : Dev :=
  let due := d.mpe.wbuf.filterMap (fun kv => match kv.2 with
    | some w => if epochPassed d w.epoch then some (kv.1, w) else none
    | none => none)
  due.foldl (fun d kw =>
    lineWrite (kw.1 * 64) kw.2.data (modMpe (fun m => { m with wbuf := smapSet noneAt m.wbuf kw.1 none }) d)) d

/-- The open epoch closes, which is the job boundary of the MPE page, or the gap limit holds it open (R263, R266, R273). -/
def epochClose (d : Dev) : Dev :=
  if (d.mpe.cur + 1 + 65536 - d.mpe.ver) % 65536 < 4096 then
    epochUpdate (jobBoundary pgMPE (modMpe (fun m => { m with cur := (m.cur + 1) % 65536 }) d))
  else raiseEv pgMPE 3 (satFld (modMpe (fun m => { m with stalled := true }) d) pgMPE Reg.MPE_EPOCH_LAG_STALLS 1)

/-- Every read that is outstanding is verified, in their order up to one that fails (R263, R268). -/
def readsVerify (d : Dev) : Dev :=
  match d.mpe.reads.findSome? (·.fail) with
  | some f => mpeFail f d
  | none => epochUpdate (modMpe (fun m => { m with reads := [] }) d)

/-- The outstanding reads and the buffered writes are waited for: the reads are verified, the open epoch closes, and the writes leave for
LPDDR6 (R264, R265, R272). -/
def mpeSettle (d : Dev) : Dev :=
  let d := readsVerify d
  if d.mpe.failing.isSome then d else wbufDrain (epochClose d)

/-- A verified read of a line, as a core's (R264): one in the write buffer is answered once its write has left. -/
def lineRead (a : Nat) (d : Dev) : Bytes × Dev :=
  match smapGet noneAt d.mpe.wbuf (a / 64) with
  | some w =>
    let d := if epochPassed d w.epoch then wbufDrain d else mpeSettle d
    (w.data, d)
  | none =>
    let (b, _, d) := lineFetch d.mpe.cur a d
    (b, d)

/-- A provisional read of a line (R264): its verification, or failure, follows; the tag is the open epoch, or that of a buffered write
(R265). A line never written is answered as verified data (R252). -/
def lineSpec (a : Nat) (d : Dev) : Bytes × Option Nat × Dev :=
  if !(speculates d) then
    let (b, d) := lineRead a d
    (b, none, d)
  else match smapGet noneAt d.mpe.wbuf (a / 64) with
    | some w => (w.data, some w.epoch, d)
    | none =>
      let was := d.mpe.failing
      let e := d.mpe.cur
      let (b, written, d) := lineFetch e a d
      match (if was.isSome then none else d.mpe.failing) with
      | some f =>
        if f.kind = 3 then (b, some e, d)
        else (b, some e, modMpe (fun m => { m with failing := was, reads := m.reads ++ [⟨e, a, some f⟩] }) d)
      | none =>
        if written then (b, some e, modMpe (fun m => { m with reads := m.reads ++ [⟨e, a, none⟩] }) d) else (b, none, d)

/-- The lines of an address range. -/
def linesOf (a n : Nat) : List Nat :=
  (List.range ((a % 64 + n + 63) / 64)).map (fun k => a / 64 * 64 + 64 * k)

/-- Reads n bytes of protected memory, verified. -/
def mpeRead (a n : Nat) (d : Dev) : Bytes × Dev :=
  let (bs, d) := (linesOf a n).foldl (fun (acc : Bytes × Dev) l =>
    let (b, d) := lineRead l acc.2
    (acc.1 ++ b, d)) ([], d)
  (slice bs (a % 64) n, d)

/-- Reads n bytes of protected memory provisionally, with the tag of the data. -/
def mpeSpec (a n : Nat) (d : Dev) : Bytes × Option Nat × Dev :=
  let (bs, t, d) := (linesOf a n).foldl (fun (acc : Bytes × Option Nat × Dev) l =>
    let (b, t, d) := lineSpec l acc.2.2
    (acc.1 ++ b, tagMax acc.2.1 t, d)) ([], none, d)
  (slice bs (a % 64) n, t, d)

/-- Merges bytes into a line. -/
def lineMerge (l a : Nat) (data old : Bytes) : Bytes :=
  (List.range 64).map (fun k => if a ≤ l + k && l + k < a + data.length then data.getD (l + k - a) 0 else old.getD k 0)

/-- Writes bytes to protected memory (R253, R265): untagged data goes to LPDDR6, data with a tag into the write
buffer, replacing the line there and carrying the later epoch. -/
def mpeWrite (tag : Option Nat) (a : Nat) (data : Bytes) (d : Dev) : Dev :=
  (linesOf a data.length).foldl (fun d l =>
    match tag, smapGet noneAt d.mpe.wbuf (l / 64) with
    | none, none =>
      let (old, _, d) := if a ≤ l && l + 64 ≤ a + data.length then (zeros 64, true, d) else lineFetch d.mpe.cur l d
      lineWrite l (lineMerge l a data old) d
    | none, some w =>
      modMpe (fun m => { m with wbuf := smapSet noneAt m.wbuf (l / 64) (some { w with data := lineMerge l a data w.data }) }) d
    | some e, held =>
      let (old, _, d) := match held with
        | some w => (w.data, true, d)
        | none => if a ≤ l && l + 64 ≤ a + data.length then (zeros 64, true, d) else lineFetch d.mpe.cur l d
      let e := (tagMax (some e) (held.map (·.epoch))).getD e
      modMpe (fun m => { m with wbuf := smapSet noneAt m.wbuf (l / 64) (some ⟨lineMerge l a data old, e⟩) }) d) d

/-- Whether the write buffer has room for the lines of a write (R265). -/
def wbufRoom (d : Dev) (a n : Nat) : Bool :=
  d.mpe.wbuf.length + ((linesOf a n).filter (fun l => (smapGet noneAt d.mpe.wbuf (l / 64)).isNone)).length ≤ 4096

/-- Whether a write of data with a tag waits for room in the write buffer (R265). -/
def tagWaits (d : Dev) (tag : Option Nat) (a n : Nat) : Bool :=
  tag.isSome && dramBase ≤ a && a ≤ dramTop && !(wbufRoom d a n)

/-- Every dirty tree line is written back, level by level (R272). -/
def ccFlush (d : Dev) : Dev :=
  [0, 1, 2, 3].foldl (fun d lvl =>
    (d.mpe.cc.filter (fun kv => (treeNode (kv.1 * 64)).1 = lvl && (kv.2.map (·.dirty)).getD false)).foldl
      (fun d kv => ccEvict (kv.1 * 64) d) d) d

/-- Draws the memory keys and starts service (R247); answers whether the DRBG could supply. -/
def mpeStart (d : Dev) : Bool × Dev :=
  match (List.range 4).find? (fun q => (quarterOf d q).pwr = .on) with
  | none => (false, d)
  | some q =>
    match draw q 64 d with
    | .got k d => (true, modMpe (fun _ => { mpeReset with kMem := some (k.take 32), kMac := some (k.drop 32), cur := 1 })
        (modHdr d pgMPE (fun h => { h with enable := true })))
    | .wait d => (false, d)
    | .err d => (false, d)

/-- The engine forgets keys, root, cache and work (R268 steps 2 and 3, R160). -/
def mpeClear (d : Dev) : Dev :=
  modMpe (fun m => { m with kMem := none, kMac := none, roots := [], cc := [], ccBad := [], wbuf := [], reads := [], stalled := false }) d

/-! ## Registers -/

/-- MPE_STAT (R274). -/
def mpeStat (d : Dev) : Nat :=
  b2n (4096 ≤ d.mpe.wbuf.length) * 4 + b2n d.mpe.halting * 2 + b2n d.mpe.kMem.isSome

end Sys2Proof.Machine
end

