-- ==== Sys2Proof/Machine/Access.lean ====
section
/-! DEFINITION. The internal address map, the access table and its reports (R13-R16, R164, R368-R376), and the reads and
writes of memory that the block's own masters make. -/

namespace Sys2Proof.Machine

/-- A master of the interconnect (R368): world carried, whether a core is in machine mode, class and index. -/
structure Who where
  sec : Bool
  mach : Bool
  cls : Nat
  idx : Nat
deriving DecidableEq, Repr

/-- The address ranges (R14, R164). -/
inductive Zone where
  | rom | regs | qsram (q : Nat) | commons | mramMon | mramHw | mramGen | mramLog | dram | t1 | tree | hostWin | nowhere
deriving DecidableEq, Repr

/-- The range an address lies in (R14, R164). -/
def zoneOf (a : Nat) : Zone :=
  if a ≤ 0x3FFFF then .rom
  else if 0x1000_0000 ≤ a && a ≤ 0x107F_FFFF then .regs
  else if 0x2000_0000 ≤ a && a ≤ 0x20FF_FFFF then .qsram ((a - 0x2000_0000) / 0x40_0000)
  else if 0x3000_0000 ≤ a && a ≤ 0x307F_FFFF then .commons
  else if 0x4000_0000 ≤ a && a ≤ 0x4003_FFFF then .mramMon
  else if 0x4004_0000 ≤ a && a ≤ 0x400F_FFFF then .mramHw
  else if 0x4010_0000 ≤ a && a ≤ 0x417F_FFFF then .mramGen
  else if 0x4180_0000 ≤ a && a ≤ 0x41FF_FFFF then .mramLog
  else if 0x10_0000_0000 ≤ a && a ≤ 0x1B_7FFF_FFFF then .dram
  else if 0x1B_8000_0000 ≤ a && a ≤ 0x1F_7FFF_FFFF then .t1
  else if 0x1F_8000_0000 ≤ a && a ≤ 0x1F_FFFF_FFFF then .tree
  else if 0x80_0000_0000 ≤ a && a ≤ 0xFF_FFFF_FFFF then .hostWin
  else .nowhere

/-- What a check says of one part of a transaction. -/
inductive Verdict where
  | pass
  /-- refused by the access table: the deciding region, if any -/
  | refuse (region : Option Nat)
  /-- decode error response -/
  | decode
  /-- fixed-owner refusal: decode error response, counted -/
  | fixed
deriving DecidableEq, Repr

/-- Kind code of R369. -/
def kindCode : BusKind → Nat
  | .read => 0 | .write => 1 | .fetch => 2 | .readBack => 3

/-- The fixed restrictions of R14 and R164, of which the commons SRAM's is that only the non-secure world reaches it (R331), and the refusals of R15, R247, R270 and R271, a host's access among them (R373 step 2); the boot ROM and the monitor RAM
are never reached from debug (R426). -/
def fixedCheck (d : Dev) (w : Who) (k : BusKind) (a : Nat) : Verdict :=
  let writes := k = .write
  match zoneOf a with
  | .nowhere => .decode
  | .rom => if w.sec && !writes && w.cls ≠ 5 then .pass else .fixed
  | .mramMon => if w.cls = 0 && w.mach && w.sec then .pass else .fixed
  | .mramHw => .fixed
  | .qsram _ => if w.cls = 5 && 0x203C_0000 ≤ a && a ≤ 0x203F_FFFF then .fixed else .pass
  | .mramLog => if writes then .fixed else .pass
  | .commons => if w.sec then .fixed else .pass
  | .dram => if w.cls = 5 || w.cls = 1 || w.cls = 2 then .fixed else if mpeServes d then .pass else .decode
  | .t1 | .tree => .fixed
  | .hostWin => if (linkOf d (fld d pgHOST Reg.HOST_CFG_OBW_LINK)).up then .pass else .decode
  | _ => .pass

/-- The register fields of region r (R372). -/
def rgnFld (d : Dev) (r : Nat) (f : Fld) : Nat :=
  fld d (pgHT + r / 128) { f with off := f.off + 16 * (r % 128), n := 1 }

/-- Whether region r covers the page of an address (R372). -/
def rgnCovers (d : Dev) (r a : Nat) : Bool :=
  rgnFld d r Reg.HT_RGN_BASE_VALID = 1 && rgnFld d r Reg.HT_RGN_BASE_BASE ≤ a / 4096
    && a / 4096 ≤ rgnFld d r Reg.HT_RGN_LIMIT_LIMIT

/-- The lowest-numbered valid region that covers an address (R372). -/
def rgnOf (d : Dev) (a : Nat) : Option Nat := firstBelow 512 (fun r => rgnCovers d r a)

/-- The bit of a permission field for a class and kind (R372). -/
def permBit (cls : Nat) (k : BusKind) : Nat :=
  3 * cls + (match k with | .read => 0 | .write | .readBack => 1 | .fetch => if cls = 0 then 2 else 0)

/-- The region check (R373 step 3). -/
def htCheck (d : Dev) (w : Who) (k : BusKind) (a : Nat) : Verdict :=
  if !(hdrOf d pgHT).enable then .pass
  else match rgnOf d a with
    | none => .refuse none
    | some r =>
      let perm := rgnFld d r (if w.sec then Reg.HT_RGN_SEC_PERM else Reg.HT_RGN_NS_PERM)
      if bit perm (permBit w.cls k) then .pass else .refuse (some r)

/-- Whether the PMP of a hart lets an access below machine mode through: the lowest entry in use that covers the address decides, one of
the monitor's against it; where no entry covers it the access goes on (R326, R330). -/
def pmpOpen (d : Dev) (h : Nat) (k : BusKind) (a : Nat) : Bool :=
  match (hartOf d h).pmp.find? (fun e => e.base ≤ a && a ≤ e.last) with
  | none => true
  | some e => !e.monOnly && (match k with
      | .read => e.perm.1
      | .write | .readBack => e.perm.2.1
      | .fetch => e.perm.2.2)

/-- Entries 0 to 2 of every hart, which the boot ROM programs and locks: the boot ROM, the monitor RAM, the monitor area of MRAM (R330). -/
def monPmp : List Pmp :=
  [⟨0x0, 0x3FFFF, (true, false, true), true⟩, ⟨0x203C_0000, 0x203F_FFFF, (true, true, false), true⟩,
   ⟨0x4000_0000, 0x4003_FFFF, (true, true, false), true⟩]

/-- Steps 2 and 3 of R373 for one part. -/
def partCheck (d : Dev) (w : Who) (k : BusKind) (a : Nat) : Verdict :=
  match fixedCheck d w k a with
  | .pass => htCheck d w k a
  | v => v

/-- A range split at 4 KiB boundaries (R375); fuel bounds the number of parts. -/
def partsGo : Nat → Nat → Nat → List (Nat × Nat)
  | 0, _, _ => []
  | f + 1, a, n =>
    if n = 0 then []
    else
      let k := min n (4096 - a % 4096)
      (a, k) :: partsGo f (a + k) (n - k)

/-- The parts of a range (R375). -/
def partsOf (a n : Nat) : List (Nat × Nat) := partsGo (n / 4096 + 2) a n

/-- A refusal of the access table is counted and recorded (R375, R376). -/
def htRefuse (w : Who) (k : BusKind) (a : Nat) (rgn : Option Nat) (split posted : Bool) (d : Dev) : Dev :=
  let d := satFld d pgHT Reg.HT_VIOL_CNT_COUNT 1
  if posted then
    let d := satFld (setFld d pgHT Reg.HT_IMP_CNT_VALID 1) pgHT Reg.HT_IMP_CNT_COUNT 1
    let d := setFld (setFld d pgHT Reg.HT_IMP_ADDR_LO_ADDR_LO a) pgHT Reg.HT_IMP_ADDR_HI_ADDR_HI (a / 2 ^ 32)
    let d := setFld (setFld (setFld d pgHT Reg.HT_IMP_SRC_CLASS w.cls) pgHT Reg.HT_IMP_SRC_INDEX w.idx) pgHT
      Reg.HT_IMP_SRC_WORLD (b2n w.sec)
    raiseEv pgHT 1 d
  else if fldB d pgHT Reg.HT_VIOL_INFO_VALID then d
  else
    let v := 2 ^ 31 + b2n split * 2 ^ 30 + b2n rgn.isNone * 2 ^ 29 + kindCode k * 2 ^ 27 + b2n w.sec * 2 ^ 26
      + w.cls * 2 ^ 23 + w.idx * 2 ^ 17 + rgn.getD 0
    let d := regPut d pgHT Reg.HT_VIOL_INFO_VALID.off v
    let d := setFld (setFld d pgHT Reg.HT_VIOL_ADDR_LO_ADDR_LO a) pgHT Reg.HT_VIOL_ADDR_HI_ADDR_HI (a / 2 ^ 32)
    raiseEv pgHT 0 d

/-- A fixed-owner refusal is counted (R15); on protected memory the engine counts a debug or DMA access, raises BLOCKED,
and commits a record of a debug access (R270, R271). -/
def fixedRefuse (w : Who) (k : BusKind) (a : Nat) (d : Dev) : Dev :=
  let d := satFld d pgHT Reg.HT_VIOL_CNT_COUNT 1
  if dramBase ≤ a && a ≤ dramTop && (w.cls = 5 || w.cls = 1) then
    let f := if w.cls = 5 then Reg.MPE_BLOCK_CNT_DBG else Reg.MPE_BLOCK_CNT_DMA
    let d := raiseEv pgMPE 2 (satFld d pgMPE1 f 1)
    if w.cls = 5 then record 0x0408 (payBlocked 5 0 (b2n (k = .write)) a) d else d
  else d

/-- How an access of one of the block's own masters ends. -/
inductive MemRes where
  | ok
  | refused (addr : Nat)
  | decode (addr : Nat)
  | target (addr : Nat)
deriving DecidableEq, Repr

/-- A TARGET_RESET response is counted (R479). -/
def countTreset (d : Dev) : Dev := satFld d pgSYS Reg.SYS_TRESET_CNT_RESPONSES 1

/-- Reads one permitted part of memory. Provisional data is given where the master speculates (R264); a read whose verification fails before it
is answered has the decode error (R268). -/
def readPart (spec : Bool) (a n : Nat) (d : Dev) : MemRes × Bytes × Option Nat × Dev :=
  match zoneOf a with
  | .dram =>
    let (b, t, d) := if spec then mpeSpec a n d else let (b, d) := mpeRead a n d; (b, none, d)
    if d.mpe.failing.isSome then (.decode a, zeros n, none, d) else (.ok, b, t, d)
  | .qsram q => if (quarterOf d q).pwr = .on then (.ok, memBytes d a n, none, d) else (.target a, zeros n, none, countTreset d)
  | .rom => (.ok, (List.range n).map (fun k => Config.romByte (a + k)), none, d)
  | _ => (.ok, memBytes d a n, none, d)

/-- Writes one permitted part of memory. -/
def writePart (tag : Option Nat) (a : Nat) (data : Bytes) (d : Dev) : MemRes × Dev :=
  match zoneOf a with
  | .dram => (.ok, mpeWrite tag a data d)
  | .qsram q => if (quarterOf d q).pwr = .on then (.ok, putBytes d a data) else (.target a, countTreset d)
  | _ => (.ok, putBytes d a data)

/-- The later of two endings: the first error stands. -/
def MemRes.join : MemRes → MemRes → MemRes
  | .ok, r => r
  | r, _ => r

/-- Judges one part and reports a refusal (R373-R376). -/
def judgePart (w : Who) (k : BusKind) (split posted : Bool) (a : Nat) (d : Dev) : MemRes × Dev :=
  match partCheck d w k a with
  | .pass => (.ok, d)
  | .refuse r => (.refused a, htRefuse w k a r split posted d)
  | .decode => (.decode a, d)
  | .fixed => (.decode a, fixedRefuse w k a d)

/-- A read of memory by one of the block's masters: refused bytes are zero and the first refusal is the ending (R375). -/
def memFetch (w : Who) (spec : Bool) (a n : Nat) (d : Dev) : MemRes × Bytes × Option Nat × Dev :=
  let ps := partsOf a n
  let some? := ps.any (fun p => partCheck d w .read p.1 = .pass)
  ps.foldl (fun (acc : MemRes × Bytes × Option Nat × Dev) p =>
    let (r, bs, t, d) := acc
    let (v, d) := judgePart w .read some? false p.1 d
    if v = .ok then
      let (v, b, t', d) := readPart spec p.1 p.2 d
      (r.join v, bs ++ b, tagMax t t', d)
    else (r.join v, bs ++ zeros p.2, t, d)) (.ok, [], none, d)

/-- A write of memory by one of the block's masters; refused bytes are dropped. -/
def memStore (w : Who) (tag : Option Nat) (a : Nat) (data : Bytes) (d : Dev) : MemRes × Dev :=
  let ps := partsOf a data.length
  let some? := ps.any (fun p => partCheck d w .write p.1 = .pass)
  ps.foldl (fun (acc : MemRes × Dev) p =>
    let (r, d) := acc
    let (v, d) := judgePart w .write some? false p.1 d
    if v = .ok then
      let (v, d) := writePart tag p.1 (slice data (p.1 - a) p.2) d
      (r.join v, d)
    else (r.join v, d)) (.ok, d)

/-- A read on behalf of a command or job: after TARGET_RESET it is tried once more 1 µs later (R480). -/
def memFetch2 (w : Who) (spec : Bool) (a n : Nat) (d : Dev) : MemRes × Bytes × Option Nat × Dev :=
  match memFetch w spec a n d with
  | (.target _, _, _, d) => memFetch w spec a n (waitUntil (d.now + 1000) d)
  | r => r

/-- A write on behalf of a command or job, tried twice alike. -/
def memStore2 (w : Who) (tag : Option Nat) (a : Nat) (data : Bytes) (d : Dev) : MemRes × Dev :=
  match memStore w tag a data d with
  | (.target _, d) => memStore w tag a data (waitUntil (d.now + 1000) d)
  | r => r

/-- Whether a range lies wholly in secure quarter SRAM or secure protected LPDDR6 (R242): no non-secure master has any
permission there. -/
def secureRange (d : Dev) (a n : Nat) : Bool :=
  (partsOf a n).all (fun p =>
    (match zoneOf p.1, zoneOf (p.1 + p.2 - 1) with
     | .qsram _, .qsram _ => true
     | .dram, .dram => true
     | _, _ => false)
    && (!(hdrOf d pgHT).enable || (match rgnOf d p.1 with
        | some r => rgnFld d r Reg.HT_RGN_NS_PERM = 0
        | none => false)))

/-- The block's own masters (R368). -/
def whoEngine (idx : Nat) : Who := ⟨true, false, 3, idx⟩
def whoCmdp : Who := ⟨true, false, 4, 0⟩
def whoDevice (idx : Nat) (sec : Bool) : Who := ⟨sec, false, 6, idx⟩

end Sys2Proof.Machine
end

