-- ==== Sys2Proof/Machine/Des.lean ====
section
/-! DEFINITION. The DES block cipher and its three-key form TDES (SP 800-67), on which TDES keys rest (R165, R185-R190).
Bit positions count from 1 at the most significant end, as the standard does. -/

namespace Sys2Proof.Machine

/-- The bits of an n-bit word at the positions of a table, joined. -/
def desPick (n v : Nat) (tbl : List Nat) : Nat := tbl.foldl (fun a p => 2 * a + v / 2 ^ (n - p) % 2) 0

/-- Initial permutation: rows of every eighth bit from the end. -/
def desIP : List Nat :=
  ([58, 60, 62, 64, 57, 59, 61, 63].map (fun s => (List.range 8).map (fun k => s - 8 * k))).flatten

/-- Final permutation, the inverse of the initial one. -/
def desFP : List Nat := (List.range 64).map (fun i => (desIP.findIdx (fun p => p == i + 1)) + 1)

/-- Expansion of a half block. -/
def desE : List Nat := ((List.range 8).map (fun r => (List.range 6).map (fun k => (4 * r + k + 31) % 32 + 1))).flatten

/-- Permutation of the round function. -/
def desP : List Nat :=
  [16, 7, 20, 21, 29, 12, 28, 17, 1, 15, 23, 26, 5, 18, 31, 10, 2, 8, 24, 14, 32, 27, 3, 9, 19, 13, 30, 6, 22, 11, 4, 25]

/-- Key permutations. -/
def desPC1 : List Nat :=
  [57, 49, 41, 33, 25, 17, 9, 1, 58, 50, 42, 34, 26, 18, 10, 2, 59, 51, 43, 35, 27, 19, 11, 3, 60, 52, 44, 36,
   63, 55, 47, 39, 31, 23, 15, 7, 62, 54, 46, 38, 30, 22, 14, 6, 61, 53, 45, 37, 29, 21, 13, 5, 28, 20, 12, 4]
def desPC2 : List Nat :=
  [14, 17, 11, 24, 1, 5, 3, 28, 15, 6, 21, 10, 23, 19, 12, 4, 26, 8, 16, 7, 27, 20, 13, 2,
   41, 52, 31, 37, 47, 55, 30, 40, 51, 45, 33, 48, 44, 49, 39, 56, 34, 53, 46, 42, 50, 36, 29, 32]

/-- Left rotations of the key halves by round. -/
def desRot : List Nat := [1, 1, 2, 2, 2, 2, 2, 2, 1, 2, 2, 2, 2, 2, 2, 1]

/-- The substitution boxes, each four rows of sixteen digits. -/
def desS : List Nat :=
  [0xE4D12FB83A6C5907_0F74E2D1A6CB9538_41E8D62BFC973A50_FC8249175B3EA06D,
   0xF18E6B34972DC05A_3D47F28EC01A69B5_0E7BA4D158C6932F_D8A13F42B67C05E9,
   0xA09E63F51DC7B428_D709346A285ECBF1_D6498F30B12C5AE7_1AD069874FE3B52C,
   0x7DE3069A1285BC4F_D8B56F03472C1AE9_A690CB7DF13E5284_3F06A1D8945BC72E,
   0x2C417AB6853FD0E9_EB2C47D150FA3986_421BAD78F9C5630E_B8C71E2D6F09A453,
   0xC1AF92680D34E75B_AF427C9561DE0B38_9EF528C3704A1DB6_432C95FABE17608D,
   0x4B2EF08D3C975A61_D0B7491AE35C2F86_14BDC37EAF680592_6BD814A7950FE23C,
   0xD2846FB1A93E50C7_1FD8A374C56B0E92_7B419CE206ADF358_21E74A8DFC90356B]

/-- Output of box i for six bits: the outer bits give the row. -/
def desBox (i v : Nat) : Nat :=
  let row := v / 32 * 2 + v % 2
  let col := v / 2 % 16
  desS.getD i 0 / 16 ^ (63 - (16 * row + col)) % 16

/-- The round function. -/
def desF (r k : Nat) : Nat :=
  let x := Nat.xor (desPick 32 r desE) k
  desPick 32 ((List.range 8).foldl (fun a i => a * 16 + desBox i (x / 2 ^ (42 - 6 * i) % 64)) 0) desP

/-- Rotates a key half left. -/
def desRol (v n : Nat) : Nat := v * 2 ^ n % 2 ^ 28 + v / 2 ^ (28 - n)

/-- The round keys. -/
def desKeysGo : List Nat → Nat → Nat → List Nat
  | [], _, _ => []
  | n :: t, c, d =>
    let c := desRol c n
    let d := desRol d n
    desPick 56 (c * 2 ^ 28 + d) desPC2 :: desKeysGo t c d

/-- The round keys of a key of eight bytes. -/
def desKeys (key : Bytes) : List Nat :=
  let v := desPick 64 (beNat key) desPC1
  desKeysGo desRot (v / 2 ^ 28) (v % 2 ^ 28)

/-- One block under round keys in the order given. -/
def desRun (ks : List Nat) (block : Bytes) : Bytes :=
  let v := desPick 64 (beNat block) desIP
  let (l, r) := ks.foldl (fun (lr : Nat × Nat) k => (lr.2, Nat.xor lr.1 (desF lr.2 k))) (v / 2 ^ 32, v % 2 ^ 32)
  beBytes 8 (desPick 64 (r * 2 ^ 32 + l) desFP)

/-- DES encryption and decryption of one block. -/
def desEnc (key block : Bytes) : Bytes := desRun (desKeys key) block
def desDec (key block : Bytes) : Bytes := desRun (desKeys key).reverse block

/-- TDES with K1, K2, K3 in order. -/
def tdesEnc (key block : Bytes) : Bytes :=
  desEnc (slice key 16 8) (desDec (slice key 8 8) (desEnc (slice key 0 8) block))
def tdesDec (key block : Bytes) : Bytes :=
  desDec (slice key 0 8) (desEnc (slice key 8 8) (desDec (slice key 16 8) block))

end Sys2Proof.Machine
end

