-- ==== Sys2Proof/Machine/Modes.lean ====
section
/-! DEFINITION. Modes of operation of the block ciphers (R165-R179, R134, R191): ECB, CBC, CTR, GCM, CCM, XTS, key wrap
with padding, and FF1. -/

namespace Sys2Proof.Machine

/-! ## Basic modes (SP 800-38A) -/

/-- Block by block. -/
def ecbWith (n : Nat) (f : Bytes → Bytes) (m : Bytes) : Bytes := ((chunks n m).map f).flatten

/-- CBC encryption: output and last chaining block. -/
def cbcEnc (n : Nat) (f : Bytes → Bytes) (iv m : Bytes) : Bytes × Bytes :=
  let (bs, v) := (chunks n m).foldl (fun (a : List Bytes × Bytes) c =>
    let y := f (xorBytes a.2 c)
    (y :: a.1, y)) ([], iv)
  (bs.reverse.flatten, v)

/-- CBC decryption: output and last chaining block. -/
def cbcDec (n : Nat) (f : Bytes → Bytes) (iv m : Bytes) : Bytes × Bytes :=
  let (bs, v) := (chunks n m).foldl (fun (a : List Bytes × Bytes) c => (xorBytes a.2 (f c) :: a.1, c)) ([], iv)
  (bs.reverse.flatten, v)

/-- A counter block with its low w bits incremented. -/
def ctrNext (w : Nat) (b : Bytes) : Bytes :=
  let v := beNat b
  beBytes 16 (setBits v (w - 1) 0 (v + 1))

/-- CTR from a counter block with a w-bit counter: output and next counter block. -/
def ctrWith (w : Nat) (f : Bytes → Bytes) (ctr m : Bytes) : Bytes × Bytes :=
  let (bs, v) := (chunks 16 m).foldl (fun (a : List Bytes × Bytes) c => (xorBytes c (f a.2) :: a.1, ctrNext w a.2)) ([], ctr)
  (bs.reverse.flatten, v)

/-! ## GCM (SP 800-38D) -/

/-- Zero padding to a multiple of 16. -/
def pad16 (m : Bytes) : Bytes := m ++ zeros ((16 - m.length % 16) % 16)

/-- GHASH continued from an accumulator over padded data. -/
def ghashFrom (h acc : Nat) (m : Bytes) : Nat := (chunks 16 (pad16 m)).foldl (fun y b => gfMul (Nat.xor y (beNat b)) h) acc

/-- The pre-counter block of a 96-bit nonce. -/
def gcmJ0 (iv : Bytes) : Bytes := fitTo 12 iv ++ beBytes 4 1

/-- The hash subkey. -/
def gcmH (f : Bytes → Bytes) : Nat := beNat (f (zeros 16))

/-- The tag from the accumulator and the lengths in bytes. -/
def gcmTag (f : Bytes → Bytes) (iv : Bytes) (acc aad len : Nat) : Bytes :=
  let y := gfMul (Nat.xor acc (aad * 8 * 2 ^ 64 + len * 8)) (gcmH f)
  xorBytes (beBytes 16 y) (f (gcmJ0 iv))

/-- GCM encryption of a whole message: ciphertext and 16-byte tag. -/
def gcmEnc (f : Bytes → Bytes) (iv aad m : Bytes) : Bytes × Bytes :=
  let c := (ctrWith 32 f (ctrNext 32 (gcmJ0 iv)) m).1
  (c, gcmTag f iv (ghashFrom (gcmH f) (ghashFrom (gcmH f) 0 aad) c) aad.length c.length)

/-- GCM decryption: plaintext and the tag the ciphertext should carry. -/
def gcmDec (f : Bytes → Bytes) (iv aad c : Bytes) : Bytes × Bytes :=
  ((ctrWith 32 f (ctrNext 32 (gcmJ0 iv)) c).1,
   gcmTag f iv (ghashFrom (gcmH f) (ghashFrom (gcmH f) 0 aad) c) aad.length c.length)

/-- GMAC. -/
def gmacTag (f : Bytes → Bytes) (iv m : Bytes) : Bytes := gcmTag f iv (ghashFrom (gcmH f) 0 m) m.length 0

/-! ## CCM (SP 800-38C) -/

/-- The length of the associated data as CCM encodes it. -/
def ccmAadLen (n : Nat) : Bytes :=
  if n = 0 then [] else if n < 0xFF00 then beBytes 2 n else if n < 2 ^ 32 then [0xFF, 0xFE] ++ beBytes 4 n
  else [0xFF, 0xFF] ++ beBytes 8 n

/-- The CBC-MAC of CCM, cut to t bytes. -/
def ccmMac (f : Bytes → Bytes) (nonce aad m : Bytes) (t : Nat) : Bytes :=
  let q := 15 - nonce.length
  let b0 := [BitVec.ofNat 8 ((if aad.isEmpty then 0 else 64) + (t - 2) / 2 * 8 + (q - 1))] ++ nonce ++ beBytes q m.length
  let data := b0 ++ (if aad.isEmpty then [] else pad16 (ccmAadLen aad.length ++ aad)) ++ pad16 m
  ((chunks 16 data).foldl (fun y b => f (xorBytes y b)) (zeros 16)).take t

/-- A counter block of CCM. -/
def ccmCtr (nonce : Bytes) (i : Nat) : Bytes := [BitVec.ofNat 8 (14 - nonce.length)] ++ nonce ++ beBytes (15 - nonce.length) i

/-- CCM encryption: ciphertext and tag of t bytes. -/
def ccmEnc (f : Bytes → Bytes) (nonce aad m : Bytes) (t : Nat) : Bytes × Bytes :=
  ((ctrWith 64 f (ccmCtr nonce 1) m).1, xorBytes (ccmMac f nonce aad m t) (f (ccmCtr nonce 0)))

/-- CCM decryption: plaintext and the tag it should carry. -/
def ccmDec (f : Bytes → Bytes) (nonce aad c : Bytes) (t : Nat) : Bytes × Bytes :=
  let m := (ctrWith 64 f (ccmCtr nonce 1) c).1
  (m, xorBytes (ccmMac f nonce aad m t) (f (ccmCtr nonce 0)))

/-! ## XTS (SP 800-38E) -/

/-- The tweak doubled: little-endian, as XTS has it. -/
def xtsDbl (t : Nat) : Nat := if 2 ^ 127 ≤ t then Nat.xor (t * 2 % 2 ^ 128) 0x87 else t * 2

/-- One data unit, a multiple of 16 bytes: the cipher in the direction wanted, the tweak cipher, the unit number. -/
def xtsUnit (f tw : Bytes → Bytes) (unit : Nat) (m : Bytes) : Bytes :=
  ((chunks 16 m).foldl (fun (a : List Bytes × Nat) c =>
    let t := leBytes 16 a.2
    (xorBytes (f (xorBytes c t)) t :: a.1, xtsDbl a.2)) ([], leNat (tw (leBytes 16 unit)))).1.reverse.flatten

/-! ## Key wrap with padding (SP 800-38F) -/

/-- The wrapping function W over semiblocks: the integrity register and the rest, six rounds. -/
def kwW (f : Bytes → Bytes) (a : Bytes) (rs : List Bytes) : Bytes × List Bytes :=
  let n := rs.length
  (List.range 6).foldl (fun (s : Bytes × List Bytes) j =>
    let (a, out) := s.2.zipIdx.foldl (fun (u : Bytes × List Bytes) ri =>
      let b := f (u.1 ++ ri.1)
      (xorBytes (b.take 8) (beBytes 8 (n * j + ri.2 + 1)), b.drop 8 :: u.2)) (s.1, [])
    (a, out.reverse)) (a, rs)

/-- The inverse of W. -/
def kwUnW (f : Bytes → Bytes) (a : Bytes) (rs : List Bytes) : Bytes × List Bytes :=
  let n := rs.length
  (List.range 6).foldl (fun (s : Bytes × List Bytes) j =>
    (s.2.zipIdx.reverse).foldl (fun (u : Bytes × List Bytes) ri =>
      let b := f (xorBytes u.1 (beBytes 8 (n * (5 - j) + ri.2 + 1)) ++ ri.1)
      (b.take 8, b.drop 8 :: u.2)) (s.1, [])) (a, rs)

/-- KWP wrap of at least one byte under an AES key. -/
def kwpWrap (key m : Bytes) : Bytes :=
  let ks := aesKeys key
  let icv : Bytes := [0xA6, 0x59, 0x59, 0xA6] ++ beBytes 4 m.length
  let p := m ++ zeros ((8 - m.length % 8) % 8)
  if p.length = 8 then aesEncKeys ks (icv ++ p)
  else
    let (a, rs) := kwW (aesEncKeys ks) icv (chunks 8 p)
    a ++ rs.flatten

/-- KWP unwrap: none where the integrity check fails. -/
def kwpUnwrap (key c : Bytes) : Option Bytes :=
  let ks := aesKeys key
  let (a, p) : Bytes × Bytes :=
    if c.length = 16 then
      let b := aesDecKeys ks c
      (b.take 8, b.drop 8)
    else
      let (a, rs) := kwUnW (aesDecKeys ks) (c.take 8) (chunks 8 (c.drop 8))
      (a, rs.flatten)
  let n := beNat (a.drop 4)
  if c.length < 16 || c.length % 8 ≠ 0 then none
  else if a.take 4 = [0xA6, 0x59, 0x59, 0xA6] && n ≤ p.length && p.length < n + 8 && 0 < n && p.drop n = zeros (p.length - n) then
    some (p.take n)
  else none

/-! ## FF1 (SP 800-38G) -/

/-- The number whose digits in a radix are given, most significant first. -/
def numOf (radix : Nat) (x : List Nat) : Nat := x.foldl (fun a c => a * radix + c) 0

/-- m digits of a number, most significant first. -/
def digitsOf (radix : Nat) : Nat → Nat → List Nat
  | 0, _ => []
  | m + 1, v => digitsOf radix m (v / radix) ++ [v % radix]

/-- Bytes needed for numbers below a bound. -/
def bytesFor (bound : Nat) : Nat → Nat
  | 0 => 0
  | f + 1 => if bound ≤ 1 then 0 else 1 + bytesFor ((bound + 255) / 256) f

/-- The round value of FF1. -/
def ff1Round (ks : List Nat) (radix : Nat) (tweak : Bytes) (n u b i num : Nat) : Nat :=
  let dLen := 4 * ((b + 3) / 4) + 4
  let p := [0x01, 0x02, 0x01] ++ beBytes 3 radix ++ [0x0A, BitVec.ofNat 8 (u % 256)] ++ beBytes 4 n ++ beBytes 4 tweak.length
  let q := tweak ++ zeros ((32 - (tweak.length + b + 1) % 16) % 16) ++ [BitVec.ofNat 8 i] ++ beBytes b num
  let r := (chunks 16 (p ++ q)).foldl (fun y c => aesEncKeys ks (xorBytes y c)) (zeros 16)
  let s := r ++ ((List.range ((dLen + 15) / 16 - 1)).map (fun j => aesEncKeys ks (xorBytes r (beBytes 16 (j + 1))))).flatten
  beNat (s.take dLen)

/-- FF1 over digits: ten rounds, forward or backward. -/
def ff1 (key : Bytes) (radix : Nat) (tweak : Bytes) (decrypt : Bool) (x : List Nat) : List Nat :=
  let ks := aesKeys key
  let n := x.length
  let u := n / 2
  let v := n - u
  let b := bytesFor (radix ^ v) 64
  let f := ff1Round ks radix tweak n u b
  let (a, c) := (List.range 10).foldl (fun (ab : Nat × Nat) j =>
    let i := if decrypt then 9 - j else j
    let m := if i % 2 = 0 then u else v
    if decrypt then ((ab.2 + radix ^ m - f i ab.1 % radix ^ m) % radix ^ m, ab.1)
    else (ab.2, (ab.1 + f i ab.2) % radix ^ m)) (numOf radix (x.take u), numOf radix (x.drop u))
  digitsOf radix u a ++ digitsOf radix v c

end Sys2Proof.Machine
end

