-- ==== Sys2Proof/Machine/KeyStore.lean ====
section
/-! DEFINITION. The key store: handles, records, attributes, tiers, vault, roots (R108-R164). -/

namespace Sys2Proof.Machine

/-! ## Handles (R108) -/

def hInst (h : Nat) : Nat := bits h 63 54
def hClass (h : Nat) : Nat := bits h 53 52
def hGen (h : Nat) : Nat := bits h 51 40
def hBoot (h : Nat) : Nat := bits h 39 26
def hRec (h : Nat) : Nat := bits h 25 0

/-- A handle from its fields (R108). -/
def mkHandle (inst cls gen boot rec' : Nat) : Nat :=
  inst * 2 ^ 54 + cls * 2 ^ 52 + gen * 2 ^ 40 + boot * 2 ^ 26 + rec'

/-- The handle with another generation. -/
def withGen (h gen : Nat) : Nat := setBits h 51 40 gen

/-- The boot tag of this boot (R108). -/
def bootTag (d : Dev) : Nat := d.nv.bootCnt % 16384

/-! ## Algorithms (R115) -/

/-- One row of the table of R115: shortest and longest material, strength, use bits permitted. -/
structure AlgRow where
  lo : Nat
  hi : Nat
  strength : Nat
  uses : Nat
deriving DecidableEq, Repr

/-- The table of R115; strength of a generic secret follows its length. -/
def algRow : Nat → Option AlgRow
  | 0x0010 => some ⟨16, 16, 128, 0x7E7F⟩
  | 0x0011 => some ⟨24, 24, 192, 0x7E7F⟩
  | 0x0012 => some ⟨32, 32, 256, 0x7E7F⟩
  | 0x0014 => some ⟨32, 32, 128, 0x0003⟩
  | 0x0015 => some ⟨64, 64, 256, 0x0003⟩
  | 0x0018 => some ⟨24, 24, 112, 0x0E3F⟩
  | 0x0020 => some ⟨16, 128, 0, 0x204C⟩
  | 0x0101 => some ⟨96, 96, 128, 0x808C⟩
  | 0x0102 => some ⟨144, 144, 192, 0x808C⟩
  | 0x0110 => some ⟨64, 64, 128, 0x800C⟩
  | 0x0111 => some ⟨64, 64, 128, 0x0080⟩
  | 0x0201 => some ⟨904, 904, 112, 0x803F⟩
  | 0x0202 => some ⟨1352, 1352, 128, 0x803F⟩
  | 0x0203 => some ⟨1800, 1800, 128, 0x803F⟩
  | 0x0301 => some ⟨64, 64, 128, 0x01B0⟩
  | 0x0302 => some ⟨64, 64, 192, 0x01B0⟩
  | 0x0303 => some ⟨64, 64, 256, 0x01B0⟩
  | 0x0311 => some ⟨32, 32, 128, 0x800C⟩
  | 0x0312 => some ⟨32, 32, 192, 0x800C⟩
  | 0x0313 => some ⟨32, 32, 256, 0x800C⟩
  | 0x0321 => some ⟨64, 64, 128, 0x800C⟩
  | 0x0322 => some ⟨64, 64, 128, 0x800C⟩
  | _ => none

/-- AES keys other than XTS. -/
def algAes (a : Nat) : Bool := a = 0x0010 || a = 0x0011 || a = 0x0012

/-- Security strength of a key (R115). -/
def algStrength (alg matLen : Nat) : Nat :=
  if alg = 0x0020 then min (8 * matLen) 256 else ((algRow alg).map (·.strength)).getD 0

/-- Use bits a key of an algorithm may hold (R115). -/
def algUses (alg : Nat) (pubOnly : Bool) : Nat :=
  let u := ((algRow alg).map (·.uses)).getD 0
  if pubOnly then Nat.land u 0x8119 else u

/-- Extension records for material of a length (R115). -/
def extsFor (matLen : Nat) : Nat := if 96 < matLen then (matLen - 96 + 223) / 224 else 0

/-- T0 slots for material of a length (R115). -/
def slotsFor (matLen : Nat) : Nat := (matLen + 63) / 64

/-! ## Attributes (R117, R118) -/

def atENCRYPT := 0
def atDECRYPT := 1
def atSIGN := 2
def atVERIFY := 3
def atWRAP := 4
def atUNWRAP := 5
def atDERIVE := 6
def atAGREE := 7
def atENCAP := 8
def atPIN := 9
def atCARD := 10
def atDUKPT := 11
def atTOKENISE := 12
def atACCESS := 13
def atROOT := 14
def atIMAGE := 15
def atEXPORTABLE := 16
def atTRUSTED_ONLY := 17
def atWRAP_TRUSTED := 18
def atNEVER_EXPORTED := 19
def atLOCAL := 20
def atUSAGE_LIMITED := 21
def atGRANTABLE := 22
def atCUSTODY := 23
def atBACKUP := 24
def atNONCE_HW := 25

/-- The bits that carry no attribute (R117). -/
def attrReserved : Nat := 2 ^ 64 - 2 ^ 44 + 2 ^ 39 + 0xFC000000

/-- Rules 1 to 5 of R118 on a bitmap for an algorithm. -/
def attrShape (alg : Nat) (pubOnly : Bool) (at' : Nat) : Bool :=
  let use := bits at' 15 0
  let modes := bits at' 38 32
  let solo := Nat.land use 0xFE00
  let block := algAes alg || alg = 0x0018
  Nat.land at' attrReserved = 0
  && Nat.land use (algUses alg pubOnly) = use
  && (solo = 0 || (popCount 16 use = 1))
  && ((!(bit at' atWRAP) && !(bit at' atUNWRAP)) || Nat.land use 0x01CF = 0)
  && (if block then
        (alg != 0x0018 || Nat.land modes 0x23 = modes)
        && ((!(bit at' atENCRYPT) && !(bit at' atDECRYPT)) || bits at' 36 32 != 0)
        && ((!(bit at' atSIGN) && !(bit at' atVERIFY)) || bits at' 38 37 != 0)
      else modes = 0)
  && (bit at' atPIN == (bits at' 43 40 != 0))

/-- The fault of a creation template's attributes: the offset named under R131 of the first rule of R118 broken, by the
lowest offset; none if every rule holds. ATTR is at 0x08 whenever a rule relates it to another field. -/
def attrFault (alg : Nat) (pubOnly : Bool) (cls qc at' limit life : Nat) : Option Nat :=
  let ok := attrShape alg pubOnly at'
    && !(bit at' atLOCAL) && !(bit at' atNEVER_EXPORTED)
    && ((!(bit at' atCUSTODY) && !(bit at' atWRAP_TRUSTED)) || qc ≤ 31)
    && (cls != 2 || (!(bit at' atEXPORTABLE) && !(bit at' atGRANTABLE) && !(bit at' atBACKUP)
          && (bit at' atUSAGE_LIMITED || life != 0)))
    && (cls != 1 || !(bit at' atBACKUP))
    && (!(bit at' atUSAGE_LIMITED) || 1 ≤ limit)
  if ok then none else some 0x08

/-- Rules 7 to 9 of R118 and the shape, on the attributes a change produces (R130). -/
def attrKept (k : KeyRec) (at' limit : Nat) : Bool :=
  attrShape k.alg k.pubOnly at'
    && ((!(bit at' atCUSTODY) && !(bit at' atWRAP_TRUSTED)) || k.qc ≤ 31)
    && (hClass k.handle != 2 || (!(bit at' atEXPORTABLE) && !(bit at' atGRANTABLE) && !(bit at' atBACKUP)
          && (bit at' atUSAGE_LIMITED || k.expires != 0)))
    && (hClass k.handle != 1 || !(bit at' atBACKUP))
    && (!(bit at' atUSAGE_LIMITED) || 1 ≤ limit)

/-! ## The record as bytes (R112, R113) -/

/-- FLAGS as stored, RESIDENT_T0 being 0 (R113). -/
def keyFlags (k : KeyRec) : Nat := b2n k.encLock * 16 + b2n k.persisted * 4 + b2n k.damaged * 2 + b2n k.pubOnly

/-- A grant entry (R123). -/
def grantBytes (g : Grantee) : Bytes := leBytes 8 (g.inst * 2 ^ 54 + 2 ^ 53 + g.mask)

/-- The first 0xF0 bytes of a key record (R112). -/
def keyBytes (k : KeyRec) : Bytes :=
  [0x02, 0x01] ++ leBytes 2 k.alg ++ leBytes 2 k.mat.length ++ leBytes 2 (keyFlags k) ++ leBytes 8 k.handle
    ++ leBytes 8 k.attr ++ leBytes 8 k.used ++ leBytes 8 k.limit ++ leBytes 8 k.resv ++ leBytes 8 k.nonce
    ++ leBytes 8 k.nonceResv ++ leBytes 8 k.expires ++ leBytes 8 k.parent ++ leBytes 1 k.qc ++ leBytes 1 k.exts.length
    ++ leBytes 1 k.grants.length ++ [0x00] ++ leBytes 4 (k.exts.head?.getD 0xFFFFFFFF) ++ fitTo 16 k.label
    ++ fitTo 32 ((k.grants.take 4).map grantBytes).flatten ++ fitTo 96 k.mat ++ fitTo 3 k.kcv ++ zeros 5

/-- Extension i of the chain of key record n, at a record that kept a HANDLE (R116): material first, then grants. -/
def extRec (n : Nat) (k : KeyRec) (i h : Nat) : ExtRec :=
  let m := extsFor k.mat.length
  { owner := n, seq := i, grants := m ≤ i, next := (k.exts[i + 1]?).getD 0xFFFFFFFF, gen := hGen k.handle
    pay := if i < m then slice k.mat (96 + 224 * i) 224
      else fitTo 224 (((k.grants.drop (4 + 28 * (i - m))).take 28).map grantBytes).flatten
    handle := h }

/-- The first 0xF0 bytes of a record (R109, R112, R116). -/
def recText : T1Rec → Bytes
  | .key k => keyBytes k
  | .ext x =>
    [0x02, 0x02] ++ leBytes 1 x.seq ++ [if x.grants then 0x02 else 0x01] ++ leBytes 4 x.owner ++ leBytes 4 x.next
      ++ leBytes 2 x.gen ++ zeros 2 ++ fitTo 224 x.pay
  | .free h => fitTo 0xF0 ([0x02, 0x00] ++ zeros 6 ++ leBytes 8 h)
  | .retired h => fitTo 0xF0 ([0x02, 0x03] ++ zeros 6 ++ leBytes 8 h)

/-- SEAL (R139). -/
def sealOf (kSeal : Bytes) (n : Nat) (body : Bytes) : Bytes := aesCmac kSeal (leBytes 4 n ++ body)

/-- The HANDLE that a record holds or keeps (R109). -/
def bodyHandle : T1Rec → Nat
  | .free h | .retired h => h
  | .key k => k.handle
  | .ext x => x.handle

/-- The fields of a record that the resident-record table holds (R140). -/
def recHead (k : KeyRec) : KeyRec := { k with mat := zeros k.mat.length, kcv := [] }

/-! ## T1 -/

/-- Records of T1. -/
def recCount : Nat := 67108864

/-- What an unlisted T1 record is: free at generation 0 (R145). -/
def t1Reset (_ : Nat) : T1Rec := .free 0

/-- Record n. -/
def t1Of (d : Dev) (n : Nat) : T1Rec := smapGet t1Reset d.key.t1 n

/-- Changes the key store. -/
def modKey (f : KeySt → KeySt) (d : Dev) : Dev := { d with key := f d.key }

/-- Writes record n, whose lines then have to go out to protected memory (R145), and its entry in the resident-record table where the key is
resident (R140). -/
def t1Put (n : Nat) (r : T1Rec) (d : Dev) : Dev :=
  modKey (fun k => { k with
    t1 := smapSet t1Reset k.t1 n r
    t1w := if k.t1w.contains n then k.t1w else k.t1w ++ [n]
    resident := match r, smapGet noneAt k.resident n with
      | .key x, some c => smapSet noneAt k.resident n (some { c with copy := recHead x })
      | _, _ => k.resident }) d

/-- The key record n, if it is one. -/
def keyAt (d : Dev) (n : Nat) : Option KeyRec :=
  match t1Of d n with
  | .key k => some k
  | _ => none

/-- Changes key record n; the vault then no longer holds the current record (R113). -/
def modRec (n : Nat) (f : KeyRec → KeyRec) (d : Dev) : Dev :=
  match keyAt d n with
  | some k => t1Put n (.key { f k with persisted := false }) d
  | none => d

/-- Writes a key record and the extension records of its chain (R112, R116). -/
def putKey (n : Nat) (k : KeyRec) (d : Dev) : Dev :=
  k.exts.zipIdx.foldl (fun d xi => t1Put xi.1 (.ext (extRec n k xi.2 (bodyHandle (t1Of d xi.1)))) d) (t1Put n (.key k) d)

/-- The key under which SEAL is computed: K_SEAL, and a free value while no root secret exists (R138, R139). -/
def sealKey (d : Dev) : Bytes := (d.key.roots.map (·.2.1)).getD ((List.range 32).map Config.sealByte)

/-- The 256 bytes of record n in T1, SEAL among them (R112, R116, R139). -/
def t1Bytes (d : Dev) (n : Nat) : Bytes := recText (t1Of d n) ++ sealOf (sealKey d) n (recText (t1Of d n))

/-- Bytes of which some bits differ when they are read. -/
def flipped (b f : Bytes) : Bytes := xorBytes b (fitTo b.length f)

/-- Whether the 256 bytes of a record carry its SEAL (R139). -/
def sealOk (d : Dev) (n : Nat) (b : Bytes) : Bool := sealOf (sealKey d) n (b.take 0xF0) == b.drop 0xF0

/-- In-flight count of record n (R126). -/
def flightOf (d : Dev) (n : Nat) : Nat := smapGet zeroAt d.key.flight n

/-- Key records of T1, by ascending number. -/
def keysOf (d : Dev) : List (Nat × KeyRec) :=
  d.key.t1.filterMap (fun kv => match kv.2 with
    | .key k => some (kv.1, k)
    | _ => none)

/-- Whether restore is running (R146, R148). -/
def restoring (d : Dev) : Bool :=
  (d.key.state = .restoring || d.key.state = .readOnly) && d.key.frontier < recCount

/-- A destroyed key whose material is kept for the commands admitted before (R129). -/
def endedOf (d : Dev) (n : Nat) : Option KeyRec := smapGet noneAt d.key.ended n

/-- Whether record n may be allocated (R109, R129, R146). -/
def recFree (d : Dev) (n : Nat) : Bool :=
  n < recCount && (endedOf d n).isNone && (!(restoring d) || n < d.key.frontier)
    && (match t1Of d n with
        | .free _ => true
        | _ => false)

/-- The lowest m free records, if there are as many (R146). -/
def allocRecs (d : Dev) (m : Nat) : Option (List Nat) :=
  let got := ((List.range (d.key.t1.length + d.key.ended.length + m + 1)).filter (recFree d)).take m
  if got.length = m then some got else none

/-! ## T0 (R140-R144) -/

/-- The slot MAC (R141). -/
def slotMac (kSlot : Bytes) (slot rec' gen chunk : Nat) (data : Bytes) : Bytes :=
  (aesCmac kSlot (leBytes 2 slot ++ leBytes 4 rec' ++ leBytes 2 gen ++ leBytes 1 chunk ++ data)).take 8

/-- The residence of record n. -/
def residentOf (d : Dev) (n : Nat) : Option Resident := smapGet noneAt d.key.resident n

/-- The record that the policy check reads: of a resident key the table's copy, with the material beside it (R140). -/
def recSeen (d : Dev) (n : Nat) : Option KeyRec :=
  match keyAt d n, residentOf d n with
  | some k, some r => some { r.copy with mat := k.mat, kcv := k.kcv }
  | k, _ => k

/-- Retired slots (R143). -/
def poundCount (d : Dev) : Nat := d.key.pound.length

/-- Free unretired slots (R163). -/
def slotsFree (d : Dev) : Nat := 65536 - d.key.slots.length - poundCount d

/-- A key leaves T0: slots cleared, table entry removed (R142). -/
def t0Evict (n : Nat) (d : Dev) : Dev :=
  match residentOf d n with
  | none => d
  | some r =>
    modKey (fun k => { k with
      slots := r.slots.foldl (fun s x => smapDel s x) k.slots
      resident := smapDel k.resident n }) d

/-- The resident key least recently admitted with no command in flight (R142). -/
def t0Victim (d : Dev) : Option Nat :=
  (d.key.resident.foldl (fun (b : Option (Nat × Nat)) kv =>
    match kv.2 with
    | none => b
    | some r =>
      if flightOf d kv.1 ≠ 0 then b
      else match b with
        | none => some (kv.1, r.use)
        | some x => if r.use < x.2 then some (kv.1, r.use) else b) none).map (·.1)

/-- Evicts until n slots and a table entry are free; fuel bounds the evictions (R142). -/
def t0Room (n : Nat) : Nat → Dev → Dev
  | 0, d => d
  | f + 1, d =>
    if n ≤ slotsFree d && d.key.resident.length < 32768 then d
    else match t0Victim d with
      | some v => t0Room n f (t0Evict v d)
      | none => d

/-- The lowest free slots. -/
def slotsPick (d : Dev) (n : Nat) : List Nat :=
  ((List.range (d.key.slots.length + poundCount d + n)).filter (fun s =>
    s < 65536 && (smapFind d.key.slots s).isNone && !(smapGet falseAt d.key.pound s))).take n

/-- Address of record n (R145). -/
def t1Addr (n : Nat) : Nat := 0x1B_8000_0000 + n * 0x100

/-- What is wrong with a read of record n. -/
def hitOf (hs : List T1Hit) (n : Nat) : Option T1Hit := hs.find? (fun h => h.recNo = n)

/-- The lines of record n. -/
def t1Lines (n : Nat) : List Nat := (List.range 4).map (fun i => t1Addr n + 64 * i)

/-- The records that the key store controller has written go to their lines in protected memory, each line under a raised counter (R145, R253). -/
def t1Pass (d : Dev) : Dev :=
  if d.key.t1w.isEmpty || !(mpeServes d) then d
  else d.key.t1w.foldl (fun d n =>
    (List.range 4).foldl (fun d i => lineWrite (t1Addr n + 64 * i) (slice (t1Bytes d n) (64 * i) 64) d) d) (modKey (fun k => { k with t1w := [] }) d)

/-- Before a read of record n: what was written has gone to the lines, and damage comes over the record's. -/
def t1Meet (hs : List T1Hit) (n : Nat) (d : Dev) : Dev :=
  let d := t1Pass d
  match hitOf hs n with
  | some h => hitLine h.line (t1Addr n) d
  | none => d

/-- A read of a T1 record through the memory protection engine, as an engine's (R145, R258, R264): its tag; how its verification ends follows. -/
def t1Read (hs : List T1Hit) (n : Nat) (d : Dev) : Option Nat × Dev :=
  if !(mpeServes d) then (none, d)
  else (t1Lines n).foldl (fun (acc : Option Nat × Dev) a =>
    let (_, t, d) := lineSpec a acc.2
    (tagMax acc.1 t, d)) (none, t1Meet hs n d)

/-- A read of a T1 record that waits for its verification. -/
def t1Sure (hs : List T1Hit) (n : Nat) (d : Dev) : Dev :=
  if !(mpeServes d) then d else (t1Lines n).foldl (fun d a => (lineRead a d).2) (t1Meet hs n d)

/-- Whether the 256 bytes that a transfer of a record brings carry its SEAL. -/
def sealSeen (hs : List T1Hit) (n : Nat) (r : T1Rec) (d : Dev) : Bool :=
  ((hitOf hs n).map (fun h => sealOk d n (flipped (recText r ++ sealOf (sealKey d) n (recText r)) h.flip))).getD true

/-- A transfer of a record out of T1: the read, and the check of SEAL, whose failure is an integrity failure of the memory
protection engine (R139, R268). -/
def t1Transfer (hs : List T1Hit) (n : Nat) (d : Dev) : Bool × Option Nat × Dev :=
  let (t, d) := t1Read hs n d
  if sealSeen hs n (t1Of d n) d then (true, t, d) else (false, t, mpeFail ⟨0, 1, t1Addr n, d.mpe.cur⟩ d)

/-- The transfers of several records. -/
def t1Transfers (hs : List T1Hit) (ns : List Nat) (d : Dev) : Bool × Option Nat × Dev :=
  ns.foldl (fun acc n =>
    let (ok, t, d) := t1Transfer hs n acc.2.2
    (acc.1 && ok, tagMax acc.2.1 t, d)) (true, none, d)

/-- How a load into T0 ends; one that ends carries the tag of what was read. -/
inductive Load where
  | done (t : Option Nat) (d : Dev)
  | wait (d : Dev)
  /-- more slots needed than remain unretired (R144) -/
  | never (d : Dev)

/-- Loads key record n from T1 into T0 (R141): the record and its material extensions are read and their SEAL checked, a failure of
which stops the load before the halt; at the first load of a persistent key after a cold reset NONCE_CTR is set to NONCE_RESV
(R149, R174). -/
def t0Load (hs : List T1Hit) (n : Nat) (d : Dev) : Load :=
  match (keyAt d n).or (endedOf d n) with
  | none => .wait d
  | some k =>
    let need := slotsFor k.mat.length
    if 65536 - poundCount d < need then .never d
    else
      let d := t0Room need (d.key.resident.length + 1) d
      if slotsFree d < need || 32768 ≤ d.key.resident.length then .wait d
      else match t1Transfers hs (n :: k.exts.take (extsFor k.mat.length)) d with
      | (false, _, d) => .wait d
      | (true, t, d) =>
        let d := if hClass k.handle = 0 && !(smapGet falseAt d.key.loaded n) then
            let d := modKey (fun s => { s with loaded := smapSet falseAt s.loaded n true }) d
            if k.nonce = k.nonceResv then d else modRec n (fun k => { k with nonce := k.nonceResv }) d
          else d
        let at' := slotsPick d need
        let ks := d.key.kSlot.getD (zeros 32)
        let d := at'.zipIdx.foldl (fun d si =>
          let data := slice k.mat (64 * si.2) 64
          modKey (fun s => { s with
            slots := smapSet noneAt s.slots si.1 (some ⟨n, hGen k.handle, si.2, data, slotMac ks si.1 n (hGen k.handle) si.2 data⟩) }) d) d
        let d := modKey (fun s => { s with resident := smapSet noneAt s.resident n (some
          ⟨at', smapGet zeroAt s.lastUse n, ((keyAt d n).map (·.nonce)).getD 0, recHead ((keyAt d n).getD k)⟩) }) d
        .done t (wrapFld d pgKS3 Reg.KS_STAT_T1_LOADS 1)

/-- A slot whose MAC check failed is retired for good, and the key is out of T0 until it is reloaded (R143, R144). -/
def quarantine (slot n : Nat) (d : Dev) : Dev :=
  let gen := ((keyAt d n).map (fun k => hGen k.handle)).getD 0
  let d := t0Evict n d
  let d := modKey (fun s => { s with pound := smapSet falseAt s.pound slot true }) d
  let d := record 0x0402 (payPounded slot gen n) d
  if fld d pgKS2 Reg.KS_POUND_LIMIT ≤ poundCount d then
    raiseEv pgKS 1 (modKey (fun s => { s with poundHigh := true }) d)
  else d

/-- The slots of resident keys whose bytes, as the engine receives them, fail their MAC (R141), each with its record. -/
def slotsBad (hs : List SlotHit) (ns : List Nat) (d : Dev) : List (Nat × Nat) :=
  (ns.map (fun n => (((residentOf d n).map (·.slots)).getD []).map (fun s => (s, n)))).flatten.filter (fun sn =>
    match hs.find? (fun h => h.slot = sn.1), smapGet noneAt d.key.slots sn.1 with
    | some h, some s => !(slotMac (d.key.kSlot.getD (zeros 32)) sn.1 s.rec' s.gen s.chunk (flipped s.data h.flip) == s.mac)
    | _, _ => false)

/-! ## The vault (R147-R156) -/

/-- The anti-rollback counter: the highest value of its cells (R152). -/
def vaultCtr (d : Dev) : Nat := d.key.cells.foldl max 0

/-- The vault takes writes (R153, R154). -/
def vaultWritable (d : Dev) : Bool := (d.key.state = .restoring || d.key.state = .opened) && !d.key.frozen

/-- Size of an entry in the pending queue (R156). -/
def entBytes : Nat := 304

/-- KS_VLT_PEND (R163). -/
def vaultPendKib (d : Dev) : Nat := (d.key.queue.length * entBytes + 1023) / 1024

/-- Room for m more entries (R156). -/
def vaultRoom (d : Dev) (m : Nat) : Bool := (d.key.queue.length + m) * entBytes ≤ d.hearth.vltLimit * 1024

/-- Room for the entry of a record: one of the open batch is replaced (R149, R156). -/
def vaultRoomFor (d : Dev) (n : Nat) : Bool := d.key.queue.any (fun e => e.batch.isNone && e.recNo = n) || vaultRoom d 1

/-- A change of VAULT_STATE: event, and a record with J and C where the change is a finding of R152 (R163, R503). -/
def setVault (st : VaultState) (j c : Nat) (d : Dev) : Dev :=
  if d.key.state = st then d
  else
    let code := match st with
      | .absent => 0 | .restoring => 1 | .opened => 2 | .readOnly => 3 | .closedTaint => 4 | .closedMismatch => 5
      | .closedRollback => 6
    raiseEv pgKS 2 (record 0x0404 (payVaultState code j c) (modKey (fun k => { k with state := st }) d))

/-- The open batch's entry of record n. -/
def VaultEnt.openFor (e : VaultEnt) (n : Nat) : Bool := e.batch.isNone && e.recNo = n

/-- Places a vault entry for record n, replacing one of the open batch; the first opens a batch of 10 ms (R149). -/
def vaultQueueBody (n : Nat) (body : T1Rec) (d : Dev) : Dev :=
  let open? := d.key.queue.any (fun e => e.batch.isNone)
  let dup := d.key.queue.any (fun e => e.openFor n)
  modKey (fun k => { k with
    queue := if dup then k.queue.map (fun e => if e.openFor n then { e with body := body } else e)
      else k.queue ++ [⟨n, body, none⟩]
    closeAt := if open? then k.closeAt else some (d.now + 10000000)
    usageDue := smapSet noneAt k.usageDue n none }) d

/-- Places a vault entry of record n as it stands. -/
def vaultQueueRec (n : Nat) (d : Dev) : Dev := vaultQueueBody n (t1Of d n) d

/-- A change to a persistent key record is queued for the vault, its extensions with it where they changed (R149). -/
def vaultQueue (n : Nat) (withExts : Bool) (d : Dev) : Dev :=
  if !(vaultWritable d) then d
  else
    let d := modRec n id d
    let exts := if withExts then ((keyAt d n).map (·.exts)).getD [] else []
    (n :: exts).foldl (fun d x => vaultQueueRec x d) d

/-- A key record takes new contents, its chain with it; of a persistent key every record that changed is queued for the vault (R116,
R149). -/
def placeKey (n : Nat) (k : KeyRec) (d : Dev) : Dev :=
  let d' := putKey n { k with persisted := false } d
  if hClass k.handle = 0 && vaultWritable d then
    (n :: k.exts.filter (fun x => t1Of d' x ≠ t1Of d x)).foldl (fun d x => vaultQueueRec x d) d'
  else d'

/-- The copy of a record that the device uses: the newest valid one, of a batch whose commit record was completed (R150), with a name for its
home. -/
def vaultPick (d : Dev) (n : Nat) : Option (Bool × VaultCopy) :=
  let c := vaultCtr d
  let h := smapGet (fun _ => (⟨none, none⟩ : Homes)) d.key.homes n
  let ok (v : Option VaultCopy) : Option VaultCopy := v.filter (fun v => v.valid && v.batch ≤ c)
  match ok h.a, ok h.b with
  | some a, some b => if a.batch < b.batch then some (true, b) else some (false, a)
  | some a, none => some (false, a)
  | none, some b => some (true, b)
  | none, none => none

/-- The generation of a record. -/
def bodyGen : T1Rec → Nat
  | .free h => hGen h
  | .key k => hGen k.handle
  | .ext x => hGen x.handle
  | .retired h => hGen h

/-- KIND of a vault entry (R147). -/
def bodyKind : T1Rec → Nat
  | .key _ => 1
  | .ext _ => 2
  | .free _ => 3
  | .retired _ => 4

/-- The clear header of a vault entry (R147). -/
def entryHdr (n : Nat) (v : VaultCopy) : Bytes :=
  leBytes 4 n ++ leBytes 2 v.gen ++ leBytes 1 (bodyKind v.body) ++ [0x00] ++ leBytes 4 v.epoch ++ zeros 12 ++ leBytes 8 v.batch

/-- K_VAULT. -/
def vaultKey (d : Dev) : Bytes := (d.key.roots.map (·.1)).getD (zeros 32)

/-- The cipher of the vault: AES-256 under K_VAULT. -/
def vaultEnc (d : Dev) : Bytes → Bytes := aesEncKeys (aesKeys (vaultKey d))

/-- The IV of an entry from its clear header: BATCH, then RECORD (R147). -/
def entryIv (hdr : Bytes) : Bytes := slice hdr 0x18 8 ++ slice hdr 0 4

/-- The 304 bytes that lie in a home (R147): the clear header, the record with its SEAL in AES-256-GCM under K_VAULT, the tag. -/
def entryBytes (d : Dev) (n : Nat) (v : VaultCopy) : Bytes :=
  let hdr := entryHdr n v
  let body := recText v.body
  let r := gcmEnc (vaultEnc d) (entryIv hdr) hdr (body ++ sealOf (sealKey d) n body)
  hdr ++ r.1 ++ r.2

/-- Whether the 304 bytes read from a home carry a tag and a SEAL that verify (R139, R147). -/
def entryVerifies (d : Dev) (n : Nat) (b : Bytes) : Bool :=
  let hdr := b.take 0x20
  let r := gcmDec (vaultEnc d) (entryIv hdr) hdr (slice b 0x20 0x100)
  r.2 == b.drop 0x120 && sealOk d n r.1

/-- Whether a copy verifies as it is read: of this epoch, no uncorrectable flash error, tag and SEAL right (R151, R155). -/
def copyOk (d : Dev) (n : Nat) (v : VaultCopy) (h : HomeDamage) : Bool :=
  v.epoch = d.key.epoch && !h.flash && !h.header && (h.flip.isEmpty || entryVerifies d n (flipped (entryBytes d n v) h.flip))

/-- Writes one entry of a committing batch to the record's inactive home; it is not valid yet (R147, R150). -/
def vaultWrite (c : Nat) (e : VaultEnt) (d : Dev) : Dev :=
  let toB := match vaultPick d e.recNo with
    | some (isB, _) => !isB
    | none => false
  let copy : VaultCopy := ⟨bodyGen e.body, d.key.epoch, c, e.body, false⟩
  modKey (fun k =>
    let h := smapGet (fun _ => (⟨none, none⟩ : Homes)) k.homes e.recNo
    let top := some (max (k.highest.getD 0) e.recNo)
    { k with
      homes := smapSet (fun _ => (⟨none, none⟩ : Homes)) k.homes e.recNo (if toB then { h with b := some copy } else { h with a := some copy })
      highest := top, hdrB := { k.hdrB with highest := top } }) d

/-- The copies that a record's homes hold under a batch's number are of a batch whose commit record is complete (R150). -/
def vaultValid (c n : Nat) (d : Dev) : Dev :=
  let mark (v : Option VaultCopy) : Option VaultCopy := v.map (fun v => if v.batch = c then { v with valid := true } else v)
  modKey (fun k =>
    let h := smapGet (fun _ => (⟨none, none⟩ : Homes)) k.homes n
    { k with homes := smapSet (fun _ => (⟨none, none⟩ : Homes)) k.homes n ⟨mark h.a, mark h.b⟩ }) d

/-- A record whose committed body is the one T1 holds has PERSISTED set (R113); a raise of USAGE_RESV that the entry carries
is committed (R127). -/
def markPersisted (e : VaultEnt) (d : Dev) : Dev :=
  match e.body, t1Of d e.recNo with
  | .key a, .key b =>
    let d := if a = b then t1Put e.recNo (.key { b with persisted := true }) d else d
    match smapGet noneAt d.key.usageRaise e.recNo with
    | some (old, true) =>
      if a.resv = b.resv then
        modKey (fun k => { k with
          usageRaise := smapSet noneAt k.usageRaise e.recNo none
          usageBlock := smapSet zeroAt k.usageBlock e.recNo (a.resv - old) }) d
      else d
    | _ => d
  | _, _ => d

/-- Writes a value to the next cell of the anti-rollback counter (R152). Cells that fail their write verification are replaced by
spares; with none left the counter freezes at its value, the vault is read-only and WEAR_END is raised (R153, R466). Answers whether
the value was written. -/
def cellPut (cellFails c : Nat) (d : Dev) : Bool × Dev :=
  if d.key.spares < cellFails then
    let d := modKey (fun k => { k with spares := 0, frozen := true }) d
    let d := if d.wear.wearEnd then d else smbAlert { d with wear := { d.wear with wearEnd := true } }
    (false, setVault .readOnly 0 0 (raiseEv pgWEAR 1 (record 0x0602 (payWear 13 2 10000) d)))
  else (true, modKey (fun k => { k with spares := k.spares - cellFails, cells := k.cells.set (c % 64) c }) d)

/-- The cells that fail at an increment that no command of its own brings (R152). -/
def weakNext (d : Dev) : Nat × Dev := (d.key.weak.head?.getD 0, modKey (fun k => { k with weak := k.weak.tail }) d)

/-- The oldest closed batch of the pending queue (R149, R150). -/
def vaultBatch (d : Dev) : List VaultEnt :=
  match d.key.queue.findSome? (·.batch) with
  | some b => d.key.queue.filter (fun e => e.batch = some b)
  | none => []

/-- The entries of a batch leave the queue. -/
def vaultDrop (batch : List VaultEnt) (d : Dev) : Dev :=
  modKey (fun k => { k with queue := k.queue.filter (fun e => !(batch.contains e)) }) d

/-- The valid copies of a batch, by record number. -/
def batchCopies (d : Dev) (c : Nat) : List (Nat × VaultCopy) :=
  (d.key.homes.map (fun kv => ((kv.2.a.toList ++ kv.2.b.toList).filter (fun v => v.valid && v.batch = c)).map (fun v => (kv.1, v)))).flatten

/-- The headers and tags of a batch's entries, which its commit record's CMAC covers (R150), by record number. -/
def batchText (d : Dev) (c : Nat) : Bytes :=
  ((batchCopies d c).map (fun nv =>
    let b := entryBytes d nv.1 nv.2
    b.take 0x20 ++ b.drop 0x120)).flatten

/-- Whether the newest commit record of the journal is complete and authenticates the batch that it names (R150, R152). -/
def journalOk (d : Dev) : Bool :=
  d.key.journal.count = (batchCopies d d.key.journal.value).length
    && d.key.journal.mac = aesCmac (vaultKey d) (batchText d d.key.journal.value)

/-- What is wrong with the homes of a record that no command of its own reads; it is told at the boot (R151). -/
def homeDamage (d : Dev) (n : Nat) : VaultDamage := ((d.parts.homes.find? (fun x => x.1 = n)).map (·.2)).getD vaultSound

/-- Whether a record is of a FROZEN instance, for which no vault entry is queued (R283). -/
def recFrozen (d : Dev) (n : Nat) : Bool :=
  let h := match t1Of d n with
    | .ext x => ((keyAt d x.owner).map (·.handle)).getD x.handle
    | r => bodyHandle r
  (smapGet instReset d.mgr.insts (hInst h)).run = .frozen

/-- Repairs that waited are queued where there is room (R151, R156). -/
def repairsQueue (d : Dev) : Dev :=
  d.key.repairDue.foldl (fun d kv =>
    if vaultRoomFor d kv.1 && !(recFrozen d kv.1) then vaultQueueRec kv.1 (modKey (fun k => { k with repairDue := smapSet falseAt k.repairDue kv.1 false }) d)
    else d) d

/-- The oldest closed batch commits in the three steps of R150, of which so many run: a supply that fails between two of them leaves the
batch in the queue, whose commit then begins anew. Every record is read from T1, verified, and its SEAL checked as it is transferred (R139, R145). -/
def vaultCommit (hs : List T1Hit) (cellFails steps : Nat) (d : Dev) : Dev :=
  let batch := vaultBatch d
  if batch.isEmpty || d.key.frozen || steps = 0 then d
  else
    let c := vaultCtr d + 1
    let d := batch.foldl (fun d e => t1Sure hs e.recNo d) d
    match batch.find? (fun e => !(sealSeen hs e.recNo e.body d)) with
    | some e => mpeFail ⟨0, 1, t1Addr e.recNo, d.mpe.cur⟩ d
    | none =>
      if d.mpe.failing.isSome then d
      else
      let d := batch.foldl (fun d e => vaultWrite c e d) d
      if steps = 1 then d
      else
        let d := batch.foldl (fun d e => vaultValid c e.recNo d) d
        let d := modKey (fun k => { k with journal := ⟨c, batch.length, aesCmac (vaultKey d) (batchText d c)⟩ }) d
        if steps = 2 then d
        else match cellPut cellFails c d with
          | (false, d) => vaultDrop batch d
          | (true, d) =>
            let d := batch.foldl (fun d e => markPersisted e d) (vaultDrop batch d)
            repairsQueue (wrapFld d pgKS3 Reg.KS_STAT_BATCH_BATCHES 1)

/-- The open batch closes; the close is the job boundary of the KS pages (R149, R163). -/
def vaultClose (d : Dev) : Dev :=
  if d.key.closeAt.isNone then d
  else
    let d := modKey (fun k => { k with
      queue := k.queue.map (fun e => if e.batch.isNone then { e with batch := some k.batches } else e)
      batches := k.batches + 1, closeAt := none }) d
    jobBoundary pgKS (jobBoundary pgKS1 (jobBoundary pgKS2 (jobBoundary pgKS3 d)))

/-- The oldest closed batch commits, in so many steps, without a command of its own; what the transfers meet is told at the boot. -/
def vaultSelf (steps : Nat) (d : Dev) : Dev :=
  if (vaultBatch d).isEmpty then d
  else
    let (w, d) := weakNext d
    vaultCommit d.parts.seals w steps d

/-- The closed batches commit, oldest first; fuel bounds their number. -/
def vaultCommits : Nat → Dev → Dev
  | 0, d => d
  | f + 1, d => if (vaultBatch d).isEmpty then d else vaultCommits f (vaultSelf 3 d)

/-- The pending queue is committed in full (R459, R161). -/
def vaultDrain (d : Dev) : Dev := vaultCommits (d.key.queue.length + 1) (vaultClose d)

/-! ## Restore (R148, R151, R155) -/

/-- A record of an older epoch reads as free at its generation plus one, or retired (R155): it keeps its HANDLE, so that the old handle
is stale. -/
def oldEpoch (v : VaultCopy) : T1Rec :=
  if v.gen = 0xFFF then .retired (bodyHandle v.body) else .free (withGen (bodyHandle v.body) (v.gen + 1))

/-- VAULT_DAMAGE: a record on channel 4 and the event (R151, R163). -/
def vaultDamage (n gen outcome : Nat) (d : Dev) : Dev :=
  raiseEv pgKS 3 (record 0x0403 (payDamage n gen outcome) d)

/-- The identity that the other home lends to a damaged record (R151 case 2). -/
def damagedRec (src : KeyRec) (gen : Nat) : KeyRec :=
  { src with
    handle := withGen src.handle gen, encLock := false, persisted := false, damaged := true, pubOnly := false
    attr := 0, used := 0, limit := 0, resv := 0, nonce := 0, nonceResv := 0, expires := 0, life := 0, parent := 0, exts := []
    grants := [], mat := zeros src.mat.length, kcv := zeros 3 }

/-- The copy in the home that is not named. -/
def otherCopy (d : Dev) (n : Nat) (isB : Bool) : Option VaultCopy :=
  let h := smapGet (fun _ => (⟨none, none⟩ : Homes)) d.key.homes n
  if isB then h.a else h.b

/-- An extension record is free again, at the HANDLE the record had before it became one (R116). -/
def extFree (x : Nat) (d : Dev) : Dev :=
  match t1Of d x with
  | .ext e => t1Put x (.free e.handle) d
  | _ => d

/-- A record is counted as MARKED (R151). -/
def countMarked (d : Dev) : Dev := satFld d pgKS1 Reg.KS_VLT_DAMAGE_MARKED 1

/-- A key record is marked DAMAGED under the identity that a copy lends it (R151 case 2). -/
def markDamaged (n gen : Nat) (src : KeyRec) (d : Dev) : Dev :=
  vaultDamage n gen 2 (countMarked (t1Put n (.key (damagedRec src gen)) d))

/-- A record whose identity cannot be known is retired (R151 case 3). -/
def markRetired (n gen : Nat) (d : Dev) : Dev := vaultDamage n gen 3 (countMarked (t1Put n (.retired 0) d))

/-- An extension's copy is damaged: the key record that owns it is handled by the cases, its own copy lending the identity, and its
extensions are freed with it; one whose owner there is none is freed (R151). -/
def damageOwner (n gen o : Nat) (d : Dev) : Dev :=
  match keyAt d o with
  | some k =>
    if k.damaged then vaultDamage o (hGen k.handle) 2 d
    else markDamaged o (hGen k.handle) k (k.exts.foldl (fun d x => extFree x d) d)
  | none =>
    match vaultPick d o with
    | some (_, v) => match v.body with
      | .key k => if v.epoch = d.key.epoch then markDamaged o v.gen k d else vaultDamage n gen 4 d
      | _ => vaultDamage n gen 4 d
    | none => vaultDamage n gen 4 d

/-- GEN and KIND of a clear header as it is read. -/
def hdrSeen (n : Nat) (v : VaultCopy) (h : HomeDamage) : Nat × Nat :=
  let b := flipped (entryHdr n v) h.flip
  if h.flip.isEmpty then (v.gen, bodyKind v.body) else (leAt b 4 2 % 4096, leAt b 6 1)

/-- A damaged copy met while T1 does not hold the record: the cases of R151 in order. -/
def vaultDamaged (dmg : VaultDamage) (n : Nat) (isB : Bool) (v : VaultCopy) (d : Dev) : Dev :=
  let other := otherCopy d n isB
  let lend (o : VaultCopy) (ok : Bool) (g : Nat) : Dev :=
    match o.body, ok with
    | .key k, true => markDamaged n g k d
    | _, _ => markRetired n g d
  if dmg.sel.header || (dmg.other.header && other.isSome) then
    match (if !dmg.sel.header then some (v, dmg.sel) else if dmg.other.header then none else other.map (fun o => (o, dmg.other))) with
    | some (o, h) => lend o (copyOk d n o h) ((o.gen + 1) % 4096)
    | none => markRetired n 0 d
  else
    let (g, kind) := hdrSeen n v dmg.sel
    if kind = 3 then vaultDamage n g 4 (t1Put n (.free (withGen (bodyHandle v.body) g)) d)
    else if kind = 4 then vaultDamage n g 3 (t1Put n (.retired (withGen (bodyHandle v.body) g)) d)
    else match v.body with
      | .ext x => damageOwner n g x.owner (t1Put n (.free x.handle) d)
      | _ => match other with
        | some o => lend o (copyOk d n o dmg.other) g
        | none => markRetired n g d

/-- The copy of record n is rewritten from T1 in the next batch, or as soon as the queue has room and its instance is no longer FROZEN; a read-only
vault rewrites nothing (R151, R153, R156, R283). -/
def vaultRepair (n gen : Nat) (d : Dev) : Dev :=
  if !(vaultWritable d) then d
  else
    let d := if vaultRoomFor d n && !(recFrozen d n) then vaultQueueRec n d else modKey (fun k => { k with repairDue := smapSet falseAt k.repairDue n true }) d
    vaultDamage n gen 1 (satFld d pgKS1 Reg.KS_VLT_DAMAGE_REPAIRED 1)

/-- A sound copy goes to T1; an extension whose owner does not list it is free (R116, R151). -/
def vaultLoad (n : Nat) (v : VaultCopy) (d : Dev) : Dev :=
  match v.body with
  | .key k => t1Put n (.key { k with persisted := true }) d
  | .ext x =>
    match keyAt d x.owner with
    | some k => t1Put n (if k.exts.contains n then .ext x else .free x.handle) d
    | none => t1Put n (.ext x) d
  | b => t1Put n b d

/-- Copies record n from the vault to T1, meeting damage as R151 says: where the clear header of one home cannot be read, the other
home's copy counts as damaged too. -/
def vaultRestore (dmg : VaultDamage) (n : Nat) (d : Dev) : Dev :=
  match vaultPick d n with
  | none => d
  | some (isB, v) =>
    if v.epoch ≠ d.key.epoch then
      match t1Of d n with
      | .free 0 => t1Put n (oldEpoch v) d
      | _ => d
    else
      let held : Bool := match t1Of d n with
        | .free h => h != 0
        | _ => true
      if copyOk d n v dmg.sel && !(dmg.other.header && (otherCopy d n isB).isSome) then (if held then d else vaultLoad n v d)
      else if held then vaultRepair n v.gen d
      else vaultDamaged dmg n isB v d

/-- The restore is complete (R148). -/
def restoreDone (d : Dev) : Dev :=
  let d := modKey (fun k => { k with frontier := recCount }) d
  let d := if d.key.state = .restoring then setVault .opened 0 0 d else d
  raiseEv pgKS 0 d

/-! ## Roots (R137, R138, R160) -/

/-- A key of the table of R138. -/
def rootKey (root fuse : Bytes) (taint : Bool) (label : String) : Bytes :=
  kdfCounter (hmac512 root) 64 (ascii label) (fuse ++ [BitVec.ofNat 8 (b2n taint)]) 32

/-- The three keys of R138. -/
def rootKeys (root fuse : Bytes) (taint : Bool) : Bytes × Bytes × Bytes :=
  (rootKey root fuse taint "ADK-VAULT", rootKey root fuse taint "ADK-SEAL", rootKey root fuse taint "ADK-VAULT-CHECK")

/-- The vault check value (R147). -/
def checkValue (kBk : Bytes) : Bytes := (aesCmac kBk (zeros 16)).take 8

/-- The vault checks at STARTUP (R148, R152, R154); a commit record that does not authenticate its batch is not complete, and the one before it
is the newest. -/
def vaultStart (d : Dev) : Dev :=
  let d := modKey (fun k => { k with taint := d.sys.taint, state := .absent, frontier := 0 }) d
  match d.lant.root with
  | none => modKey (fun k => { k with roots := none }) d
  | some root =>
    let rs := rootKeys root d.fuse.secret d.sys.taint
    let d := modKey (fun k => { k with roots := some rs }) d
    if d.sys.taint then setVault .closedTaint 0 0 d
    else if checkValue rs.2.2 ≠ d.key.check then setVault .closedMismatch 0 0 d
    else
      let c := vaultCtr d
      let j := if d.key.journal.value = c + 1 && !(journalOk d) then c else d.key.journal.value
      if j < c || c + 1 < j then setVault .closedRollback j c d
      else if d.key.frozen then setVault .readOnly 0 0 d
      else if j = c then setVault .restoring 0 0 d
      else
        let (w, d) := weakNext d
        match cellPut w j d with
        | (false, d) => d
        | (true, d) => setVault .restoring j c d

/-- K_SLOT is drawn at each entry to STARTUP from the DRBG of the lowest-numbered quarter that is ON (R138, R236). -/
def drawKSlot (d : Dev) : Dev :=
  match (List.range 4).find? (fun q => (quarterOf d q).pwr = .on) with
  | none => d
  | some q =>
    match draw q 32 d with
    | .got k d => modKey (fun s => { s with kSlot := some k }) d
    | .wait d => d
    | .err d => d

/-- Whether a record has an entry of an older epoch. -/
def hasOld (epoch : Nat) (h : Homes) : Bool := h.a.any (fun v => v.epoch ≠ epoch) || h.b.any (fun v => v.epoch ≠ epoch)

/-- Entries of older epochs read as free or retired from the moment a new epoch is raised (R155). -/
def vaultFresh (d : Dev) : Dev :=
  let old := d.key.homes.filter (fun kv => (t1Of d kv.1 = .free 0) && hasOld d.key.epoch kv.2)
  old.foldl (fun d kv => match vaultPick d kv.1 with
    | some (_, v) => t1Put kv.1 (oldEpoch v) d
    | none => d) d

/-- The vault under a new root: empty, and open to writing unless the counter is frozen or the boot is tainted (R153-R155). -/
def vaultOpen (d : Dev) : Dev :=
  setVault (if d.key.taint then .closedTaint else if d.key.frozen then .readOnly else .opened) 0 0
    (modKey (fun k => { k with frontier := recCount }) d)

/-- The next of the steps 2 to 5 of a running GEN_ROOT (R137). -/
def rootStep (d : Dev) : Dev :=
  let root := d.key.staged.getD []
  let next (d : Dev) : Dev := modKey (fun k => { k with opStep := k.opStep + 1 }) d
  if !d.key.busy then d
  else if d.key.opStep = 1 then next (modKey (fun k => { k with roots := some (rootKeys root d.fuse.secret d.key.taint) }) d)
  else if d.key.opStep = 2 then
    let check := checkValue ((d.key.roots.map (·.2.2)).getD [])
    let e := (d.key.epoch + 1) % 2 ^ 32
    next (vaultFresh (modKey (fun k => { k with
      epoch := e, epochStart := vaultCtr d, check := check, highest := none, hdrB := ⟨e, vaultCtr d, check, none⟩ }) d))
  else if d.key.opStep = 3 then
    next (modKey (fun k => { k with staged := none }) { d with lant := { d.lant with root := some root } })
  else
    raiseEv pgKS 4 (vaultOpen (modKey (fun k => { k with busy := false, opStep := 0 })
      { d with nv := { d.nv with rootMark := true } }))

/-- Runs so many steps of a running GEN_ROOT. -/
def rootSteps : Nat → Dev → Dev
  | 0, d => d
  | n + 1, d => rootSteps n (rootStep d)

/-- A halt or a supply failure meets a running GEN_ROOT: before step 4 the staged value and the derived keys are lost, after it step 5 is
done (R137). -/
def rootCut (d : Dev) : Dev :=
  if !d.key.busy then d
  else if 4 ≤ d.key.opStep then rootStep d
  else modKey (fun k => { k with staged := none, roots := none, busy := false, opStep := 0 }) d

/-- T0, its tags, the table, the derived keys and what a running operation staged are cleared (R160, R161); without a root secret the
vault is ABSENT (R154). -/
def keyClear (d : Dev) : Dev :=
  modKey (fun k => { k with
    roots := none, kSlot := none, staged := none, busy := false, opStep := 0, slots := [], resident := []
    state := if d.lant.root.isNone then .absent else k.state }) d

/-! ## Policy (R121-R127) -/

/-- Why a policy check refuses: status and INFO. -/
abbrev Denial := Nat × Nat

def stOK := 0x0000
def stBAD_OPCODE := 0x0101
def stBAD_VERSION := 0x0102
def stBAD_DESCRIPTOR := 0x0103
def stBAD_LENGTH := 0x0104
def stBUFFER_TOO_SMALL := 0x0105
def stHOST_ACCESS := 0x0106
def stPOLICY := 0x0201
def stQUORUM := 0x0202
def stTICKET := 0x0203
def stUSAGE := 0x0204
def stNOT_FOUND := 0x0301
def stDAMAGED := 0x0303
def stSTALE := 0x0304
def stFULL := 0x0305
def stAUTH_FAIL := 0x0401
def stVERIFY_FAIL := 0x0402
def stENGINE := 0x0403
def stENTROPY := 0x0501
def stQUIESCING := 0x0601
def stFROZEN := 0x0602
def stHALTING := 0x0701
def stMODE := 0x0702
def stVAULT_RO := 0x0801
def stFW_TIMEOUT := 0x0901
def stFW_ERROR := 0x0902
/-- How a command or job ends whose own access to memory was not served: refused, or TARGET_RESET twice (R91, R375, R480). -/
def memDenial (r : MemRes) (info : Nat) : Nat × Nat :=
  match r with
  | .target _ => (stENGINE, 1)
  | _ => (stHOST_ACCESS, info)


/-- Whether EXPIRES has passed (R112). -/
def expired (d : Dev) (k : KeyRec) : Bool := k.expires ≠ 0 && k.expires ≤ stamp d

/-- Whether the parent of a derived key still stands at the generation recorded (R111). -/
def parentStands (d : Dev) (k : KeyRec) : Bool :=
  k.parent = 0 || (match keyAt d (hRec k.parent) with
    | some p => p.handle = k.parent
    | none => false)

/-- Steps 1 to 5 of R121: the handle resolved for a requester. -/
def resolve (d : Dev) (who h : Nat) : Except Denial KeyRec :=
  let n := hRec h
  if hClass h = 3 || (hClass h = 0 && hBoot h ≠ 0) then .error (stNOT_FOUND, 0)
  else
    let found : Except Denial KeyRec :=
      if hInst h ≠ who then
        match recSeen d n with
        | some k => if k.handle = h && k.grants.any (fun g => g.inst = who) then .ok k else .error (stNOT_FOUND, 0)
        | none => .error (stNOT_FOUND, 0)
      else match t1Of d n with
        | .ext _ => .error (stNOT_FOUND, 0)
        | .free v =>
          if hGen v = 0 || hInst v ≠ who then .error (stNOT_FOUND, 0)
          else if hGen v ≠ hGen h then .error (stSTALE, 0) else .error (stNOT_FOUND, 0)
        | .retired v => if hInst v ≠ who || v = 0 then .error (stNOT_FOUND, 0) else .error (stSTALE, 0)
        | .key k =>
          let k := (recSeen d n).getD k
          if hInst k.handle ≠ who then .error (stNOT_FOUND, 0)
          else if hGen k.handle ≠ hGen h then .error (stSTALE, 0)
          else if hClass h ≠ 0 && hBoot h ≠ bootTag d then .error (stSTALE, 0)
          else if hClass k.handle ≠ hClass h then .error (stNOT_FOUND, 0)
          else .ok k
    match found with
    | .error e => .error e
    | .ok k =>
      if k.damaged then .error (stDAMAGED, 0)
      else if hClass k.handle = 2 && expired d k then .error (stPOLICY, 66)
      else if hClass k.handle = 2 && ((bit k.attr atUSAGE_LIMITED && k.limit ≤ k.used) || !(parentStands d k)) then
        .error (stSTALE, 0)
      else if expired d k then .error (stPOLICY, 66)
      else .ok k

/-- The attributes in force for a requester (R121 step 7). -/
def effAttr (k : KeyRec) (who : Nat) : Nat :=
  if hInst k.handle = who then k.attr
  else
    let m := ((k.grants.find? (fun g => g.inst = who)).map (·.mask)).getD 0
    k.attr - Nat.land k.attr 0xFFFF + Nat.land (Nat.land k.attr 0xFFFF) m

/-- The lowest bit of a mask that the attributes lack (R119, R121). -/
def lacking (need at' : Nat) : Option Nat := firstBelow 64 (fun b => bit need b && !(bit at' b))

/-- A use of record n is admitted: the in-flight count rises and the key is the one most recently admitted (R126,
R142). -/
def countAdmitted (n : Nat) (d : Dev) : Dev :=
  modKey (fun k => { k with
    flight := smapSet zeroAt k.flight n (smapGet zeroAt k.flight n + 1)
    uses := k.uses + 1
    lastUse := smapSet zeroAt k.lastUse n k.uses
    resident := match smapGet noneAt k.resident n with
      | some r => smapSet noneAt k.resident n (some { r with use := k.uses })
      | none => k.resident }) d

/-- The extension records that belong to record n. -/
def extsOwned (d : Dev) (n : Nat) : List Nat :=
  d.key.t1.filterMap (fun kv => match kv.2 with
    | .ext x => if x.owner = n then some kv.1 else none
    | _ => none)

/-- Whether a command or job that was admitted to a record has yet to leave its engine (R129). -/
def engineUses (d : Dev) (n : Nat) : Bool :=
  d.cmd.cmds.any (fun c => c.counted.contains n && c.result.isNone)
    || d.units.any (fun u => u.2.job.any (fun c => c.counted.contains n && c.result.isNone))

/-- The material of a destroyed key goes, its slots and its extensions with it (R129). -/
def endedClear (n : Nat) (d : Dev) : Dev :=
  (extsOwned d n).foldl (fun d x => extFree x d) (t0Evict n (modKey (fun k => { k with ended := smapSet noneAt k.ended n none }) d))

/-- Destroyed keys whose last command has left its engine: their material goes (R129). -/
def settleEnded (ns : List Nat) (d : Dev) : Dev :=
  ns.foldl (fun d n => if (endedOf d n).isSome && !(engineUses d n) then endedClear n d else d) d

/-- A command leaves a record: the in-flight count falls, and the material of a destroyed key goes where no command needs it (R126, R129). -/
def leave (n : Nat) (d : Dev) : Dev :=
  let f := flightOf d n - 1
  let d := modKey (fun k => { k with flight := smapSet zeroAt k.flight n f }) d
  if (endedOf d n).isSome && (f = 0 || !(engineUses d n)) then endedClear n d else d

/-- The next block of uses is requested, unless a raise is under way or none is left (R127). -/
def askUsage (n : Nat) (k : KeyRec) (d : Dev) : Dev :=
  if (smapGet noneAt d.key.usageRaise n).isSome || k.limit ≤ k.resv then d
  else modKey (fun s => { s with usageRaise := smapSet noneAt s.usageRaise n (some (k.resv + min 1024 (k.limit - k.resv), false)) }) d

/-- Three quarters of a block of reserved uses that ends at USAGE_RESV are committed (R127). -/
def blockLow (size resv used : Nat) : Bool := 3 * size ≤ 4 * (used + size - resv)

/-- A use of record n is counted at release (R126). Of a persistent key with USAGE_LIMITED the change is queued for the vault, and the
next block is requested at three quarters of the current one (R127, R149); on one without, the entry falls due after USAGE_PERIOD
(R149). A vault that takes no writes leaves the change in T1 (R153). -/
def countUse (n handle : Nat) (d : Dev) : Dev :=
  match keyAt d n with
  | none => d
  | some k =>
    if k.handle ≠ handle then d
    else
      let d := modRec n (fun k => { k with used := k.used + 1 }) d
      if hClass handle = 0 && bit k.attr atUSAGE_LIMITED && vaultWritable d then
        let d := vaultQueueRec n d
        if blockLow (smapGet zeroAt d.key.usageBlock n) k.resv (k.used + 1) then askUsage n k d else d
      else if hClass handle = 0 && !(bit k.attr atUSAGE_LIMITED) && (smapGet noneAt d.key.usageDue n).isNone then
        modKey (fun s => { s with
          usageDue := smapSet noneAt s.usageDue n (some (d.now + fld d pgKS Reg.KS_CFG_USAGE_PERIOD * 1000000000)) }) d
      else d

/-- Frees record n, its generation advanced, or retires it (R109); its material is kept, and its extensions with it, until every command
that uses it has left its engine (R129). -/
def freeRec (n : Nat) (d : Dev) : Dev :=
  match keyAt d n with
  | none => d
  | some k =>
    let g := hGen k.handle
    let d := t1Put n (if g = 0xFFF then .retired k.handle else .free (withGen k.handle (g + 1))) d
    if engineUses d n then modKey (fun s => { s with ended := smapSet noneAt s.ended n (some k) }) d
    else k.exts.foldl (fun d x => extFree x d) (t0Evict n d)

end Sys2Proof.Machine
end

