-- ==== Sys2Proof/Machine/Lattice.lean ====
section
/-! DEFINITION. The lattice algorithms of the engines (R202): ML-KEM (FIPS 203) and ML-DSA (FIPS 204). Polynomials are
arrays of 256 residues. -/

namespace Sys2Proof.Machine

/-- A polynomial. -/
abbrev Poly := Array Nat

/-- The zero polynomial. -/
def polyZero : Poly := (List.replicate 256 0).toArray

/-- The polynomial with a coefficient for each index. -/
def polyOf (f : Nat → Nat) : Poly := ((List.range 256).map f).toArray

/-- Coefficient-wise sum and difference modulo q. -/
def polyAdd (q : Nat) (a b : Poly) : Poly := polyOf (fun i => (a.getD i 0 + b.getD i 0) % q)
def polySub (q : Nat) (a b : Poly) : Poly := polyOf (fun i => (a.getD i 0 + q - b.getD i 0) % q)

/-- The low n bits of a number in reverse order. -/
def revBits : Nat → Nat → Nat
  | 0, _ => 0
  | n + 1, v => v % 2 * 2 ^ n + revBits n (v / 2)

/-- The powers of a root of unity in bit-reversed order. -/
def zetaTable (q root bitsN : Nat) : Array Nat :=
  let ps := ((List.range (2 ^ bitsN)).foldl (fun (a : List Nat × Nat) _ => (a.2 :: a.1, a.2 * root % q)) ([], 1)).1.reverse.toArray
  ((List.range (2 ^ bitsN)).map (fun k => ps.getD (revBits bitsN k) 0)).toArray

/-- One layer of the transform. -/
def nttLayer (q : Nat) (zs : Array Nat) (a : Poly) (len : Nat) : Poly :=
  polyOf (fun i =>
    let z := zs.getD (128 / len + i / (2 * len)) 0
    if i % (2 * len) < len then (a.getD i 0 + z * a.getD (i + len) 0) % q
    else (a.getD (i - len) 0 + (q - z * a.getD i 0 % q)) % q)

/-- One layer of the inverse transform. -/
def inttLayer (q : Nat) (zs : Array Nat) (a : Poly) (len : Nat) : Poly :=
  polyOf (fun i =>
    let z := zs.getD (256 / len - 1 - i / (2 * len)) 0
    if i % (2 * len) < len then (a.getD i 0 + a.getD (i + len) 0) % q
    else z * (a.getD i 0 + q - a.getD (i - len) 0) % q)

/-- Bits of a byte string, least significant first. -/
def bitsOf (b : Bytes) : List Nat := (b.map (fun x => (List.range 8).map (fun i => x.toNat / 2 ^ i % 2))).flatten

/-- Numbers of w bits packed into bytes, least significant first. -/
def packBits (w : Nat) (xs : List Nat) : Bytes :=
  ((chunksNat 8 xs).map (fun g => leBytes w (g.foldr (fun x a => x + 2 ^ w * a) 0))).flatten
where
  /-- Groups of n numbers. -/
  chunksNat (n : Nat) (xs : List Nat) : List (List Nat) :=
    (List.range ((xs.length + n - 1) / n)).map (fun i => (xs.drop (n * i)).take n)

/-- The n numbers of w bits packed in bytes. -/
def unpackBits (w n : Nat) (b : Bytes) : List Nat :=
  ((List.range (n / 8)).map (fun i =>
    let v := leNat (slice b (w * i) w)
    (List.range 8).map (fun j => v / 2 ^ (w * j) % 2 ^ w))).flatten

/-! ## ML-KEM -/

/-- The parameters of a set: k, eta1, du, dv. -/
structure KemPar where
  k : Nat
  eta1 : Nat
  du : Nat
  dv : Nat

/-- The parameter set of an ALG (R202). -/
def kemPar (alg : Nat) : KemPar :=
  if alg = 0x0301 then ⟨2, 3, 10, 4⟩ else if alg = 0x0302 then ⟨3, 2, 10, 4⟩ else ⟨4, 2, 11, 5⟩

/-- Encapsulation key and ciphertext sizes (R202). -/
def kemEkLen (alg : Nat) : Nat := 384 * (kemPar alg).k + 32
def kemCtLen (alg : Nat) : Nat := let p := kemPar alg; 32 * (p.du * p.k + p.dv)

/-- The modulus. -/
def qK : Nat := 3329

/-- Its roots. -/
def zK : Array Nat := zetaTable 3329 17 7

def nttK (a : Poly) : Poly := [128, 64, 32, 16, 8, 4, 2].foldl (nttLayer qK zK) a
def inttK (a : Poly) : Poly :=
  let b := [2, 4, 8, 16, 32, 64, 128].foldl (inttLayer qK zK) a
  polyOf (fun i => b.getD i 0 * 3303 % qK)

/-- Product of two transforms. -/
def mulK (a b : Poly) : Poly :=
  polyOf (fun i =>
    let j := i / 2
    let g := let z := zK.getD (64 + j / 2) 0; if j % 2 = 0 then z else qK - z
    let a0 := a.getD (2 * j) 0
    let a1 := a.getD (2 * j + 1) 0
    let b0 := b.getD (2 * j) 0
    let b1 := b.getD (2 * j + 1) 0
    if i % 2 = 0 then (a0 * b0 + a1 * b1 % qK * g) % qK else (a0 * b1 + a1 * b0) % qK)

/-- Uniform sampling of a transform from 34 bytes. -/
def sampleK (seed : Bytes) : Poly :=
  let v := (chunks 3 (shake128 seed 1344)).map (fun g =>
    let a := (g.getD 0 0).toNat
    let b := (g.getD 1 0).toNat
    let c := (g.getD 2 0).toNat
    [a + 256 * (b % 16), b / 16 + 16 * c])
  ((v.flatten.filter (fun x => x < qK)).take 256).toArray

/-- Centred binomial sampling. -/
def cbd (eta : Nat) (b : Bytes) : Poly :=
  let bs := (bitsOf b).toArray
  polyOf (fun i =>
    let sum (o : Nat) := (List.range eta).foldl (fun a j => a + bs.getD (2 * i * eta + o + j) 0) 0
    (sum 0 + qK - sum eta) % qK)

/-- The pseudorandom function of a secret seed. -/
def prfK (eta : Nat) (s : Bytes) (n : Nat) : Poly := cbd eta (shake256 (s ++ [BitVec.ofNat 8 n]) (64 * eta))

/-- Rounding to d bits and back. -/
def compressK (d x : Nat) : Nat := (x * 2 ^ d + 1664) / qK % 2 ^ d
def decompressK (d y : Nat) : Nat := (y * qK + 2 ^ (d - 1)) / 2 ^ d

/-- Sum of products of two vectors of transforms. -/
def dotK (a b : List Poly) : Poly := (List.zipWith mulK a b).foldl (polyAdd qK) polyZero

/-- Row i of the matrix, or of its transpose. -/
def rowK (k : Nat) (rho : Bytes) (t : Bool) (i : Nat) : List Poly :=
  (List.range k).map (fun j => sampleK (rho ++ (if t then [BitVec.ofNat 8 i, BitVec.ofNat 8 j] else [BitVec.ofNat 8 j, BitVec.ofNat 8 i])))

/-- The secret vector and the encapsulation key from d. -/
def kemKeys (alg : Nat) (d : Bytes) : List Poly × Bytes :=
  let p := kemPar alg
  let g := sha3 64 (d ++ [BitVec.ofNat 8 p.k])
  let rho := g.take 32
  let s := (List.range p.k).map (fun i => nttK (prfK p.eta1 (g.drop 32) i))
  let e := (List.range p.k).map (fun i => nttK (prfK p.eta1 (g.drop 32) (p.k + i)))
  let t := (List.range p.k).map (fun i => polyAdd qK (dotK (rowK p.k rho false i) s) (e.getD i polyZero))
  (s, (t.map (fun x => packBits 12 x.toList)).flatten ++ rho)

/-- The vector in an encapsulation key. -/
def kemVec (alg : Nat) (ek : Bytes) : List (List Nat) :=
  (List.range (kemPar alg).k).map (fun i => unpackBits 12 256 (slice ek (384 * i) 384))

/-- The modulus check of an encapsulation key (R203). -/
def kemEkOk (alg : Nat) (ek : Bytes) : Bool :=
  ek.length = kemEkLen alg && (kemVec alg ek).all (fun v => v.all (fun x => x < qK))

/-- Encryption of 32 bytes under 32 bytes of randomness. -/
def kemEncrypt (alg : Nat) (ek m r : Bytes) : Bytes :=
  let p := kemPar alg
  let t := (kemVec alg ek).map (fun v => (v.map (· % qK)).toArray)
  let rho := ek.drop (384 * p.k)
  let y := (List.range p.k).map (fun i => nttK (prfK p.eta1 r i))
  let u := (List.range p.k).map (fun i =>
    polyAdd qK (inttK (dotK (rowK p.k rho true i) y)) (prfK 2 r (p.k + i)))
  let mu := (((bitsOf m).map (fun b => decompressK 1 b))).toArray
  let v := polyAdd qK (polyAdd qK (inttK (dotK t y)) (prfK 2 r (2 * p.k))) mu
  (u.map (fun x => packBits p.du (x.toList.map (compressK p.du)))).flatten ++ packBits p.dv (v.toList.map (compressK p.dv))

/-- Encapsulation with the message m: shared secret and ciphertext. -/
def kemEncap (alg : Nat) (ek m : Bytes) : Bytes × Bytes :=
  let g := sha3 64 (m ++ sha3 32 ek)
  (g.take 32, kemEncrypt alg ek m (g.drop 32))

/-- Decapsulation under the seeds d and z, with implicit rejection. -/
def kemDecap (alg : Nat) (dz c : Bytes) : Bytes :=
  let p := kemPar alg
  let (s, ek) := kemKeys alg (dz.take 32)
  let u := (List.range p.k).map (fun i =>
    nttK ((unpackBits p.du 256 (slice c (32 * p.du * i) (32 * p.du))).map (decompressK p.du)).toArray)
  let v : Poly := ((unpackBits p.dv 256 (c.drop (32 * p.du * p.k))).map (decompressK p.dv)).toArray
  let w := polySub qK v (inttK (dotK s u))
  let m := packBits 1 (w.toList.map (compressK 1))
  let g := sha3 64 (m ++ sha3 32 ek)
  if kemEncrypt alg ek m (g.drop 32) = c then g.take 32 else shake256 (dz.drop 32 ++ c) 32

/-! ## ML-DSA -/

/-- The parameters of a set. -/
structure DsaPar where
  k : Nat
  l : Nat
  eta : Nat
  tau : Nat
  lam : Nat
  g1 : Nat
  g2 : Nat
  omega : Nat

/-- The parameter set of an ALG (R202). -/
def dsaPar (alg : Nat) : DsaPar :=
  if alg = 0x0311 then ⟨4, 4, 2, 39, 128, 17, 95232, 80⟩
  else if alg = 0x0312 then ⟨6, 5, 4, 49, 192, 19, 261888, 55⟩
  else ⟨8, 7, 2, 60, 256, 19, 261888, 75⟩

/-- Public key and signature sizes (R202). -/
def dsaPkLen (alg : Nat) : Nat := 32 + 320 * (dsaPar alg).k
def dsaSigLen (alg : Nat) : Nat := let p := dsaPar alg; p.lam / 4 + 32 * p.l * (p.g1 + 1) + p.omega + p.k

/-- The modulus. -/
def qD : Nat := 8380417

/-- Its roots. -/
def zD : Array Nat := zetaTable 8380417 1753 8

def nttD (a : Poly) : Poly := [128, 64, 32, 16, 8, 4, 2, 1].foldl (nttLayer qD zD) a
def inttD (a : Poly) : Poly :=
  let b := [1, 2, 4, 8, 16, 32, 64, 128].foldl (inttLayer qD zD) a
  polyOf (fun i => b.getD i 0 * 8347681 % qD)

/-- Product of two transforms. -/
def mulD (a b : Poly) : Poly := polyOf (fun i => a.getD i 0 * b.getD i 0 % qD)

/-- Uniform sampling of a transform. -/
def sampleD (seed : Bytes) : Poly :=
  let v := (chunks 3 (shake128 seed 1680)).map (fun g => leNat g % 2 ^ 23)
  ((v.filter (fun x => x < qD)).take 256).toArray

/-- Sampling of a short polynomial. -/
def shortD (eta : Nat) (seed : Bytes) : Poly :=
  let hs := ((shake256 seed 680).map (fun b => [b.toNat % 16, b.toNat / 16])).flatten
  let ok := if eta = 2 then hs.filter (fun h => h < 15) else hs.filter (fun h => h < 9)
  ((ok.take 256).map (fun h => (if eta = 2 then qD + 2 - h % 5 else qD + 4 - h) % qD)).toArray

/-- The matrix, by rows. -/
def matD (p : DsaPar) (rho : Bytes) : List (List Poly) :=
  (List.range p.k).map (fun r => (List.range p.l).map (fun s => sampleD (rho ++ [BitVec.ofNat 8 s, BitVec.ofNat 8 r])))

/-- A matrix of transforms by a vector of transforms. -/
def matMulD (a : List (List Poly)) (v : List Poly) : List Poly :=
  a.map (fun row => (List.zipWith mulD row v).foldl (polyAdd qD) polyZero)

/-- The high part of a residue and the low part as a residue, for t: multiples of 2^13. -/
def power2 (r : Nat) : Nat × Nat :=
  let lo := r % 8192
  if 4096 < lo then (r / 8192 + 1, qD + lo - 8192) else (r / 8192, lo)

/-- High bits and low bits, the low part as an integer (FIPS 204 Decompose). -/
def decomp (g2 r : Nat) : Nat × Int :=
  let m := r % (2 * g2)
  let r0 : Int := if g2 < m then (m : Int) - 2 * g2 else m
  if (r : Int) - r0 = qD - 1 then (0, r0 - 1) else (((r : Int) - r0).toNat / (2 * g2), r0)

/-- Distance of a residue from zero. -/
def normD (x : Nat) : Nat := min x (qD - x)

/-- Largest distance from zero of a vector's coefficients. -/
def normVec (v : List Poly) : Nat := (v.map (fun p => p.foldl (fun a x => max a (normD x)) 0)).foldl max 0

/-- The expanded key: rho, K, s1, s2, t. -/
structure DsaKey where
  rho : Bytes
  bigK : Bytes
  s1 : List Poly
  s2 : List Poly
  t : List Poly

/-- The expanded key of a seed. -/
def dsaKey (alg : Nat) (xi : Bytes) : DsaKey :=
  let p := dsaPar alg
  let h := shake256 (xi ++ [BitVec.ofNat 8 p.k, BitVec.ofNat 8 p.l]) 128
  let rp := slice h 32 64
  let s1 := (List.range p.l).map (fun r => shortD p.eta (rp ++ leBytes 2 r))
  let s2 := (List.range p.k).map (fun r => shortD p.eta (rp ++ leBytes 2 (p.l + r)))
  let t := List.zipWith (polyAdd qD) ((matMulD (matD p (h.take 32)) (s1.map nttD)).map inttD) s2
  ⟨h.take 32, h.drop 96, s1, s2, t⟩

/-- The public key of an expanded key. -/
def dsaPkOf (k : DsaKey) : Bytes := k.rho ++ (k.t.map (fun x => packBits 10 (x.toList.map (fun c => (power2 c).1)))).flatten

/-- The public key of a seed. -/
def dsaPub (alg : Nat) (xi : Bytes) : Bytes := dsaPkOf (dsaKey alg xi)

/-- The challenge polynomial. -/
def ballD (tau : Nat) (c : Bytes) : Poly :=
  let s := shake256 c 680
  let signs := leNat (s.take 8)
  let go := (s.drop 8).foldl (fun (a : Poly × Nat) b =>
    let i := a.2
    if 256 ≤ i || i < b.toNat then a
    else
      let p := a.1.setIfInBounds i (a.1.getD b.toNat 0)
      let sg := signs / 2 ^ (i + tau - 256) % 2
      (p.setIfInBounds b.toNat (if sg = 1 then qD - 1 else 1), i + 1)) (polyZero, 256 - tau)
  go.1

/-- Bits of the high part. -/
def w1Bits (p : DsaPar) : Nat := if p.g2 = 95232 then 6 else 4

/-- Encoding of the high parts. -/
def w1Encode (p : DsaPar) (w : List (List Nat)) : Bytes := (w.map (packBits (w1Bits p))).flatten

/-- Encoding of the hint, as the positions of its ones. -/
def hintPack (p : DsaPar) (h : List (List Bool)) : Bytes :=
  let idx := h.map (fun r => (r.zipIdx.filter (·.1)).map (·.2))
  let flat := idx.flatten
  let ends := (List.range p.k).map (fun i => ((idx.take (i + 1)).map (·.length)).foldl (· + ·) 0)
  ((flat ++ List.replicate (p.omega - flat.length) 0) ++ ends).map (BitVec.ofNat 8)

/-- Whether numbers rise strictly. -/
def risesStrict : List Nat → Bool
  | a :: b :: t => decide (a < b) && risesStrict (b :: t)
  | _ => true

/-- The hint of an encoding, none where it is malformed. -/
def hintUnpack (p : DsaPar) (y : Bytes) : Option (List (List Nat)) :=
  let ns := y.map BitVec.toNat
  let ends := ns.drop p.omega
  let parts := (List.range p.k).map (fun i =>
    let a := if i = 0 then 0 else ends.getD (i - 1) 0
    (a, ends.getD i 0))
  let rows := parts.map (fun ab => (ns.drop ab.1).take (ab.2 - ab.1))
  if parts.all (fun ab => ab.1 ≤ ab.2 && ab.2 ≤ p.omega) && rows.all risesStrict
      && ((ns.take p.omega).drop (ends.getLast?.getD 0)).all (· == 0) then some rows
  else none

/-- The mask vector of an iteration. -/
def maskD (p : DsaPar) (rho : Bytes) (kappa : Nat) : List Poly :=
  (List.range p.l).map (fun r =>
    ((unpackBits (p.g1 + 1) 256 (shake256 (rho ++ leBytes 2 (kappa + r)) (32 * (p.g1 + 1)))).map (fun v =>
      (qD + 2 ^ p.g1 - v) % qD)).toArray)

/-- The rejection loop of signing: at most fuel iterations; answers the signature and the number of iterations. -/
def dsaLoop (p : DsaPar) (k : DsaKey) (a : List (List Poly)) (mu rho : Bytes) : Nat → Nat → Option Bytes × Nat
  | 0, it => (none, it)
  | f + 1, it =>
    let beta := p.tau * p.eta
    let y := maskD p rho (it * p.l)
    let w := (matMulD a (y.map nttD)).map inttD
    let w1 := w.map (fun x => x.toList.map (fun c => (decomp p.g2 c).1))
    let ct := shake256 (mu ++ w1Encode p w1) (p.lam / 4)
    let c := nttD (ballD p.tau ct)
    let z := List.zipWith (fun yy s => polyAdd qD yy (inttD (mulD c (nttD s)))) y k.s1
    let r := List.zipWith (fun ww s => polySub qD ww (inttD (mulD c (nttD s)))) w k.s2
    let r0 := (r.map (fun x => (x.toList.map (fun v => (decomp p.g2 v).2.natAbs)).foldl max 0)).foldl max 0
    if 2 ^ p.g1 - beta ≤ normVec z || p.g2 - beta ≤ r0 then dsaLoop p k a mu rho f (it + 1)
    else
      let ct0 := k.t.map (fun x => inttD (mulD c (nttD (polyOf (fun i => (power2 (x.getD i 0)).2)))))
      let h := List.zipWith (fun rr cc =>
        List.zipWith (fun x y => (decomp p.g2 ((x + y) % qD)).1 != (decomp p.g2 x).1) rr.toList cc.toList) r ct0
      let ones := (h.map (fun x => (x.filter id).length)).foldl (· + ·) 0
      if p.g2 ≤ normVec ct0 || p.omega < ones then dsaLoop p k a mu rho f (it + 1)
      else
        let zs := (z.map (fun x => packBits (p.g1 + 1) (x.toList.map (fun c => (qD + 2 ^ p.g1 - c) % qD)))).flatten
        (some (ct ++ zs ++ hintPack p h), it + 1)

/-- The message representative of the pure form, or of the prehash form with the object identifier's last byte for a
hash code. -/
def hashOid (hash : Nat) : Bytes :=
  let last : Nat := match hash with
    | 2 => 1 | 3 => 2 | 4 => 3 | 9 => 8 | 10 => 9 | 11 => 10 | _ => 0
  [0x06, 0x09, 0x60, 0x86, 0x48, 0x01, 0x65, 0x03, 0x04, 0x02, BitVec.ofNat 8 last]

/-- The formatted message M' (FIPS 204 and FIPS 205): HASH 0 for the pure form. -/
def pqMessage (hash : Nat) (ctx m : Bytes) : Bytes :=
  if hash = 0 then [0x00, BitVec.ofNat 8 ctx.length] ++ ctx ++ m
  else [0x01, BitVec.ofNat 8 ctx.length] ++ ctx ++ hashOid hash ++ m

/-- Signing under a seed: signature, if the loop ends within 814 iterations, and the iterations run (R212). -/
def dsaSign (alg : Nat) (xi m' rnd : Bytes) : Option Bytes × Nat :=
  let p := dsaPar alg
  let k := dsaKey alg xi
  let mu := shake256 (shake256 (dsaPkOf k) 64 ++ m') 64
  dsaLoop p k (matD p k.rho) mu (shake256 (k.bigK ++ rnd ++ mu) 64) 814 0

/-- Whether a signature of the right length verifies. -/
def dsaOk (alg : Nat) (pk m' sig : Bytes) : Bool :=
  let p := dsaPar alg
  let ct := sig.take (p.lam / 4)
  let zb := 32 * (p.g1 + 1)
  let z := (List.range p.l).map (fun i =>
    ((unpackBits (p.g1 + 1) 256 (slice sig (p.lam / 4 + zb * i) zb)).map (fun v => (qD + 2 ^ p.g1 - v) % qD)).toArray)
  match hintUnpack p (sig.drop (p.lam / 4 + zb * p.l)) with
  | none => false
  | some h =>
    let t1 := (List.range p.k).map (fun i =>
      ((unpackBits 10 256 (slice pk (32 + 320 * i) 320)).map (fun v => v * 8192 % qD)).toArray)
    let mu := shake256 (shake256 pk 64 ++ m') 64
    let c := nttD (ballD p.tau ct)
    let az := matMulD (matD p (pk.take 32)) (z.map nttD)
    let w := List.zipWith (fun x t => inttD (polySub qD x (mulD c (nttD t)))) az t1
    let m := (qD - 1) / (2 * p.g2)
    let w1 := List.zipWith (fun (x : Poly) hs => x.toList.zipIdx.map (fun ci =>
      let (r1, r0) := decomp p.g2 ci.1
      if hs.contains ci.2 then (if 0 < r0 then (r1 + 1) % m else (r1 + m - 1) % m) else r1)) w h
    normVec z < 2 ^ p.g1 - p.tau * p.eta && shake256 (mu ++ w1Encode p w1) (p.lam / 4) == ct

end Sys2Proof.Machine
end

