-- ==== Sys2Proof/Machine/Officers.lean ====
section
/-! DEFINITION. The officer block's shared operations: records, classes, challenges, tickets, lockout, and the card
interfaces' choice of what to ask next (R303-R320, R325). -/

namespace Sys2Proof.Machine

/-! ## State -/

/-- Changes the officer block. -/
def modOfc (f : OfcSt → OfcSt) (d : Dev) : Dev := { d with ofc := f d.ofc }

/-- Officer record n. -/
def officerOf (d : Dev) (n : Nat) : Officer := smapGet officerReset d.ofc.officers n

/-- Changes an officer record. -/
def modOfficer (n : Nat) (f : Officer → Officer) (d : Dev) : Dev :=
  modOfc (fun o => { o with officers := smapSet officerReset o.officers n (f (officerOf d n)) }) d

/-- Quorum class c, if it is defined. -/
def qclassOf (d : Dev) (c : Nat) : Option QClass := smapGet noneAt d.ofc.classes c

/-- A class that a ticket can be of (R125): 0-31 and defined. -/
def classUsable (d : Dev) (c : Nat) : Bool := c ≤ 31 && (qclassOf d c).isSome

/-- OFC_STAT.CLASS0_READY (R324). -/
def class0Ready (d : Dev) : Bool := (qclassOf d 0).isSome

/-- The challenge of an identifier, outstanding or held. -/
def chalHeld (d : Dev) (id : Nat) : Option Chal := d.ofc.chals.find? (fun c => c.id = id)

/-- The outstanding challenges, oldest first. -/
def chalsOut (d : Dev) : List Chal := d.ofc.chals.filter (fun c => !c.ended)

/-- The outstanding challenge of an identifier. -/
def chalOf (d : Dev) (id : Nat) : Option Chal := (chalsOut d).find? (fun c => c.id = id)

/-- Changes an outstanding challenge. -/
def modChal (id : Nat) (f : Chal → Chal) (d : Dev) : Dev :=
  modOfc (fun o => { o with chals := o.chals.map (fun c => if c.id = id then f c else c) }) d

/-- Challenges end (R306, R311): one that a command has reserved stays for that command and is outstanding no longer (R315). -/
def endChals (which : Chal → Bool) (d : Dev) : Dev :=
  modOfc (fun o => { o with
    chals := (o.chals.filter (fun c => c.held || !(which c))).map (fun c => if which c then { c with ended := true } else c) }) d

/-- Discards the outstanding challenges of a class (R305, R306). -/
def dropClass (cls : Nat) (d : Dev) : Dev := endChals (fun c => c.cls = cls) d

/-- A card interface. -/
def cardOf (d : Dev) (slot : Nat) : CardIf := smapGet cardReset d.ofc.cards slot

/-- Changes a card interface. -/
def modCard (slot : Nat) (f : CardIf → CardIf) (d : Dev) : Dev :=
  modOfc (fun o => { o with cards := smapSet cardReset o.cards slot (f (cardOf d slot)) }) d

/-- The modes in which the officer block serves challenges, tickets and cards (R325). -/
def ofcServes (d : Dev) : Bool := d.sys.mode = .service || d.sys.mode = .ceremony

/-- An interface is held deactivated by its enable bit or by the mode (R324, R325). -/
def cardServes (d : Dev) (slot : Nat) : Bool :=
  ofcServes d && fldB d pgOFC (if slot = 0 then Reg.OFC_CFG_OFC0_EN else Reg.OFC_CFG_OFC1_EN)

/-- The quarter whose DRBG serves a block that belongs to no quarter: the lowest-numbered that is ON (R236). -/
def homelessQuarter (d : Dev) : Nat := ((List.range 4).find? (fun q => (quarterOf d q).pwr = .on)).getD 0

/-- Random bytes for a block that belongs to no quarter, none where its DRBG cannot supply them at once. -/
def drawHomeless (n : Nat) (d : Dev) : Option Bytes × Dev :=
  match draw (homelessQuarter d) n d with
  | .got b d => (some b, d)
  | .wait _ => (none, d)
  | .err d => (none, d)

/-! ## Signatures and lockout (R312, R320) -/

/-- Length of an officer's signature. -/
def officerSigLen (alg : Nat) : Nat := if alg = 0x0102 then 96 else 3309

/-- Length of an officer's public key in the encoding of R202. -/
def officerPkLen (alg : Nat) : Nat := if alg = 0x0102 then 97 else dsaPkLen 0x0312

/-- A signature over a challenge verifies under a public key (R312). -/
def officerSigOk (alg : Nat) (pk chal sig : Bytes) : Bool :=
  sig.length = officerSigLen alg &&
  if alg = 0x0102 then
    match ecDecode p384 pk with
    | some q => ecdsaOk p384 q (sha384 chal) (beNat (sig.take 48)) (beNat (sig.drop 48))
    | none => false
  else alg = 0x0312 && dsaOk 0x0312 pk (pqMessage 0 (ascii "ADK-QUORUM") chal) sig

/-- A failing signature of an ACTIVE officer: the count rises, and at LOCK_LIMIT the officer is LOCKED for
LOCK_MIN × 2^k minutes, at most 24 hours (R320). -/
def officerFail (n : Nat) (d : Dev) : Dev :=
  let o := officerOf d n
  if fld d pgOFC Reg.OFC_CFG_LOCK_LIMIT ≤ o.fails + 1 then
    let mins := min (fld d pgOFC Reg.OFC_CFG_LOCK_MIN * 2 ^ min o.lockouts 16) 1440
    let d := modOfficer n (fun o => { o with
      run := .locked, fails := o.fails + 1, lockouts := o.lockouts + 1
      lockEnd := (stamp d + mins * 60 * 32768) % 2 ^ 48 }) d
    raiseEv pgOFC 5 (record 0x0302 (payBytes 8 [n, o.lockouts]) d)
  else modOfficer n (fun o => { o with fails := o.fails + 1 }) d

/-- A verifying signature resets the count (R320). -/
def officerPass (n : Nat) (d : Dev) : Dev := modOfficer n (fun o => { o with fails := 0 }) d

/-- A lockout ends: ACTIVE with the count at zero (R320). -/
def officerUnlock (n : Nat) (d : Dev) : Dev := modOfficer n (fun o => { o with run := .active, fails := 0 }) d

/-! ## Challenges (R309-R311) -/

/-- The 144 bytes of a challenge (R310). -/
def chalBytes (cls who id : Nat) (nonce serial : Bytes) (op handle : Nat) (digest : Bytes) (notAfter boot : Nat) : Bytes :=
  ascii "ADKQ" ++ [0x01] ++ leBytes 1 cls ++ leBytes 2 who ++ leBytes 8 id ++ fitTo 32 nonce ++ fitTo 16 serial ++ leBytes 2 op
    ++ zeros 6 ++ leBytes 8 handle ++ fitTo 48 digest ++ leBytes 8 notAfter ++ leBytes 8 boot

/-- INSTANCE of a challenge for a target opcode (R310). -/
def chalWho (inst op : Nat) : Nat := if 0x1000 ≤ op && op ≤ 0x20FF then 0xFFFF else inst

/-- A requester holds at most 16 challenges, the device 4,096: the oldest give way (R311). -/
def chalRoom (who : Nat) (d : Dev) : Dev :=
  let first (cs : List Chal) (n : Nat) (d : Dev) : Dev :=
    match cs with
    | c :: _ => if n ≤ cs.length then endChals (fun x => x.id = c.id) d else d
    | [] => d
  let d := first ((chalsOut d).filter (fun c => c.who = who)) 16 d
  first (chalsOut d) 4096 d

/-- What identifies the next challenge of a class and when it ends (R310): CHAL_ID and NOT_AFTER. -/
def chalNext (cls : Nat) (d : Dev) : Nat × Nat :=
  (d.ofc.nextChal, stamp d + ((qclassOf d cls).map (·.lifetime)).getD 0 * 32768)

/-- A challenge is issued: its identifier and its bytes; none where the DRBG cannot supply the nonce (R309, R310). -/
def chalIssue (cls who : Nat) (direct : Bool) (op handle : Nat) (digest : Bytes) (d : Dev) : Option (Nat × Bytes) × Dev :=
  match drawHomeless 32 d with
  | (none, d) => (none, d)
  | (some nonce, d) =>
    let d := chalRoom who d
    let (id, notAfter) := chalNext cls d
    let bs := chalBytes cls who id nonce d.fuse.serial op handle digest notAfter d.nv.bootCnt
    (some (id, bs), modOfc (fun o => { o with
      nextChal := id + 1, chals := o.chals ++ [⟨id, cls, who, direct, notAfter, bs, [], false, false⟩] }) d)

/-- NOT_AFTER has passed. -/
def chalPassed (d : Dev) (c : Chal) : Bool := c.notAfter ≤ stamp d

/-! ## Tickets (R313-R315) -/

/-- A ticket as read (R313). -/
structure Ticket where
  cls : Nat
  id : Nat
  /-- officer and signature of each entry -/
  entries : List (Nat × Bytes)
deriving DecidableEq, Repr

/-- The entries of a ticket and what follows them (R313); fuel is the count. -/
def ticketEntries : Nat → Bytes → Option (List (Nat × Bytes) × Bytes)
  | 0, b => some ([], b)
  | n + 1, b =>
    let len := leAt b 2 2
    let pad := alignUp len 8
    if b.length < 8 + pad || leAt b 1 1 ≠ 0 || leAt b 4 4 ≠ 0 || (len ≠ 96 && len ≠ 3309)
        || slice b (8 + len) (pad - len) ≠ zeros (pad - len) then none
    else match ticketEntries n (b.drop (8 + pad)) with
      | some (es, rest) => some ((leAt b 0 1, slice b 8 len) :: es, rest)
      | none => none

/-- The ticket at the start of a ticket area, and what follows it at the next multiple of 8 (R124, R313). -/
def ticketTake (b : Bytes) : Option (Ticket × Bytes) :=
  if b.length < 16 || b.take 4 ≠ ascii "ADKT" || leAt b 4 1 ≠ 1 || 16 < leAt b 6 1 || leAt b 7 1 ≠ 0 then none
  else match ticketEntries (leAt b 6 1) (b.drop 16) with
    | some (es, rest) => some (⟨leAt b 5 1, leAt b 8 8, es⟩, rest)
    | none => none

/-- So many tickets of an area with nothing behind them: step 1 of R314. -/
def ticketsTake : Nat → Bytes → Option (List Ticket)
  | 0, b => if b.isEmpty then some [] else none
  | n + 1, b => match ticketTake b with
    | some (t, rest) => (ticketsTake n rest).map (t :: ·)
    | none => none

/-- The offset of the first fault in the entries of a ticket that lie at an offset; fuel is the count. -/
def entriesFault : Nat → Nat → Bytes → Nat
  | 0, off, _ => off
  | n + 1, off, b =>
    let len := leAt b 2 2
    let pad := alignUp len 8
    if b.length < 8 then off + b.length
    else if leAt b 1 1 ≠ 0 then off + 1
    else if len ≠ 96 && len ≠ 3309 then off + 2
    else if leAt b 4 4 ≠ 0 then off + 4
    else if b.length < 8 + pad then off + b.length
    else if slice b (8 + len) (pad - len) ≠ zeros (pad - len) then off + 8 + len
    else entriesFault n (off + 8 + pad) (b.drop (8 + pad))

/-- Where in an area of one ticket the field lies that fails a step of R314 (R300). -/
def ticketPlace (step : Nat) (b : Bytes) : Nat :=
  match step with
  | 1 =>
    if b.length < 16 then b.length
    else if b.take 4 ≠ ascii "ADKT" then 0 else if leAt b 4 1 ≠ 1 then 4 else if 16 < leAt b 6 1 then 6 else if leAt b 7 1 ≠ 0 then 7
    else entriesFault (leAt b 6 1) 16 (b.drop 16)
  | 4 => 5
  | 5 => 16
  | _ => 8

/-- What a ticket must answer (R314 steps 3 and 4). -/
structure TicketFor where
  who : Nat
  op : Nat
  handle : Nat
  digest : Bytes
  cls : Nat
deriving DecidableEq, Repr

/-- Whether an officer's signature counts toward a class: ACTIVE and a member (R314 step 5). -/
def counts (d : Dev) (q : QClass) (n : Nat) : Bool := n < 64 && bit q.members n && (officerOf d n).run = .active

/-- Verifies the entries of a ticket in order: the officers whose signatures verified, lockout counting as it goes. -/
def ticketSigs (q : QClass) (chal : Bytes) : List (Nat × Bytes) → Dev → List Nat × Dev
  | [], d => ([], d)
  | (n, sig) :: rest, d =>
    if counts d q n then
      if officerSigOk (officerOf d n).alg (officerOf d n).pk chal sig then
        let r := ticketSigs q chal rest (officerPass n d)
        (n :: r.1, r.2)
      else ticketSigs q chal rest (officerFail n d)
    else ticketSigs q chal rest d

/-- Officers, each once, whose signatures on a challenge count: entries that verified, and signatures collected on the
cards of officers who are ACTIVE members (R313, R314). -/
def signers (d : Dev) (q : QClass) (c : Chal) (fromTicket : List Nat) : List Nat :=
  (List.range 64).filter (fun n => counts d q n && (fromTicket.contains n || c.signed.contains n))

/-- Steps 2 to 6 of R314 on one ticket: the failing INFO, or the challenge reserved and the officers who signed. -/
def ticketCheck (t : Ticket) (need : TicketFor) (d : Dev) : Except Nat (Nat × List Nat) × Dev :=
  match chalOf d t.id with
  | none => (.error 2, d)
  | some c =>
    if chalPassed d c then (.error 2, d)
    else if leAt c.bytes 0x06 2 ≠ chalWho need.who need.op || leAt c.bytes 0x40 2 ≠ need.op
        || leAt c.bytes 0x48 8 ≠ need.handle || slice c.bytes 0x50 48 ≠ need.digest then (.error 3, d)
    else if t.cls ≠ need.cls || c.cls ≠ need.cls then (.error 4, d)
    else match qclassOf d c.cls with
      | none => (.error 4, d)
      | some q =>
        let r := ticketSigs q c.bytes t.entries d
        let who := signers r.2 q c r.1
        if who.length < q.m then (.error 5, r.2)
        else if c.held then (.error 6, r.2)
        else (.ok (c.id, who), modChal c.id (fun c => { c with held := true }) r.2)

/-- A reservation is freed, and with it a challenge that has ended meanwhile (R315). -/
def ticketFree (ids : List Nat) (d : Dev) : Dev :=
  ids.foldl (fun d id => modOfc (fun o => { o with
    chals := (o.chals.filter (fun c => c.id ≠ id || !c.ended)).map (fun c => if c.id = id then { c with held := false } else c) }) d) d

/-- Tickets checked and reserved together past step 1: the failing INFO, or the challenges reserved and the officers who signed the first. -/
def ticketsGo : List (TicketFor × Ticket) → List Nat → Dev → Except Nat (List Nat × List Nat) × Dev
  | [], got, d => (.ok (got, []), d)
  | (need, t) :: rest, got, d =>
    match ticketCheck t need d with
    | (.error e, d) => (.error e, ticketFree got d)
    | (.ok (id, who), d) =>
      match ticketsGo rest (got ++ [id]) d with
      | (.ok (ids, _), d) => (.ok (ids, who), d)
      | r => r

/-- The tickets of an area, one for each need: the form of all of them and of the area first, then the further steps of each (R314, R315). -/
def ticketsCheck (needs : List TicketFor) (b : Bytes) (got : List Nat) (d : Dev) : Except Nat (List Nat × List Nat) × Dev :=
  match ticketsTake needs.length b with
  | none => (.error 1, ticketFree got d)
  | some ts => ticketsGo (needs.zip ts) got d

/-! ## Card interfaces (R316-R319) -/

/-- A command to a card: CLA, INS and data (R317). -/
def cardSend (slot cla ins : Nat) (data : Bytes) (d : Dev) : Dev := emit (.card slot (leBytes 1 cla ++ leBytes 1 ins ++ data)) d

/-- A card command goes out and its answer is waited for (R317). -/
def cardAsk (slot cla ins : Nat) (data : Bytes) (wait : CardWait) (d : Dev) : Dev :=
  cardSend slot cla ins data (modCard slot (fun c => { c with wait := wait }) d)

/-- SELECT (R317). -/
def cardSelect (slot : Nat) (d : Dev) : Dev := cardAsk slot 0x00 0xA4 (beBytes 7 0xF041444B4F4643) .select d

/-- No exchange is in progress: STATE follows what is known of the card. -/
def cardIdle (slot : Nat) (d : Dev) : Dev :=
  modCard slot (fun c => { c with wait := .nothing, run := if c.officer.isSome then .identified else .activating }) d

/-- Whether an officer has yet to sign a DIRECT challenge (R318). -/
def wantsSign (d : Dev) (n : Nat) (c : Chal) : Bool :=
  c.direct && !c.ended && !(c.signed.contains n) && c.signed.length < 16 && !(chalPassed d c)
    && ((qclassOf d c.cls).map (fun q => bit q.members n)).getD false

/-- An identified card is sent SIGN for the outstanding DIRECT challenge of lowest identifier that its officer has yet to sign, past
those that it was asked for already (R318). -/
def cardSign (slot : Nat) (d : Dev) : Dev :=
  let c := cardOf d slot
  match c.officer with
  | none => d
  | some n =>
    if (officerOf d n).run ≠ .active then d
    else match (chalsOut d).find? (fun ch => c.next ≤ ch.id && wantsSign d n ch) with
      | none => d
      | some ch =>
        cardAsk slot 0x80 0xA2 ch.bytes (.sign ch.id) (modCard slot (fun c => { c with run := .signing, next := ch.id + 1 }) d)

/-- What a selected, idle card is asked next: for the operation that waits for it, who it is, or a signature (R304, R317, R318). -/
def cardNext (slot : Nat) (d : Dev) : Dev :=
  let c := cardOf d slot
  if c.run = .inactive || c.wait ≠ .nothing || !c.sel || !(cardServes d slot) then d
  else
    let own : Dev :=
      if c.ask then cardAsk slot 0x80 0xA0 [] .identity (modCard slot (fun c => { c with ask := false }) d) else cardSign slot d
    match d.ofc.op with
    | some (.enrol s _ _ _ _ _ _) => if s = slot then cardAsk slot 0x80 0xA0 [] .enrolId d else own
    | some (.pin s data) => if s = slot then cardAsk slot 0x00 0x20 data .pin d else own
    | _ => own

/-- Both interfaces look for work. -/
def cardsNext (d : Dev) : Dev := cardNext 1 (cardNext 0 d)

/-- A card is deactivated; an exchange in progress is abandoned (R316, R319). -/
def cardOff (slot : Nat) (d : Dev) : Dev :=
  let was := (cardOf d slot).run
  let d := modCard slot (fun c => { cardReset slot with present := c.present, classB := c.classB, fault := c.fault }) d
  if was = .inactive then d else emit (.cardPower slot false) d

/-- Activation begins (R316): of a card to be identified, or for an operation alone. -/
def cardOn (slot : Nat) (ask : Bool) (d : Dev) : Dev :=
  emit (.cardPower slot true) (modCard slot (fun c => { cardReset slot with present := c.present, run := .activating, wait := .atr, ask := ask }) d)

/-! ## The end of an operation (R304, R308, R315, R319, R323, R324) -/

/-- An operation that waits for the card of an interface, with the challenge it holds. -/
def opWaits (slot : Nat) : Option OfcOp → Option (List Nat)
  | some (.enrol s _ _ _ _ _ t) => if s = slot then some t.toList else none
  | some (.pin s _) => if s = slot then some [] else none
  | _ => none

/-- OFC_RESULT, OP_DONE and the tickets. -/
def ofcResult (st info : Nat) (tickets : List Nat) (d : Dev) : Dev :=
  let d := if st = stOK then tickets.foldl (fun d id => redeemChallenge id d) d else ticketFree tickets d
  let d := modOfc (fun o => { o with op := none }) d
  raiseEv pgOFC 0 (setFld (setFld d pgOFC Reg.OFC_RESULT_STATUS st) pgOFC Reg.OFC_RESULT_INFO info)

/-- An operation whose card is lost ends at its job boundary; what that does to the interfaces follows in cardsSync. -/
def opLost (slot : Nat) (d : Dev) : Dev :=
  match opWaits slot d.ofc.op with
  | some ts => jobBoundary pgOFC (ofcResult stBAD_DESCRIPTOR 0 ts d)
  | none => d

/-- The interfaces follow their enable bits and the mode: a card is held deactivated, or activated where it no longer is (R324, R325). -/
def cardsSync (was d : Dev) : Dev :=
  [0, 1].foldl (fun d s =>
    if !(cardServes d s) then (if (cardOf d s).run = .inactive then d else opLost s (cardOff s d))
    else if !(cardServes was s) && (cardOf d s).present && (cardOf d s).run = .inactive then cardOn s true d
    else d) d

/-- A change on a page that may give the officer block's configuration its effect. -/
def pageSync (p : Nat) (was d : Dev) : Dev := if p = pgOFC then cardsSync was d else d

/-- The end of an operation: OFC_RESULT, OP_DONE, the tickets, and the job boundary (R308, R315, R323, R324). -/
def ofcEnd (st info : Nat) (tickets : List Nat) (d : Dev) : Dev := cardsSync d (jobBoundary pgOFC (ofcResult st info tickets d))

/-- An operation that waited for the card of an interface ends without it (R304, R319). -/
def ofcLost (slot : Nat) (d : Dev) : Dev := cardsSync d (opLost slot d)

/-- Entry to a mode in which the officer block does not serve: both cards are deactivated, and an operation that waits for one ends; into
HALTED or ZEROISED every challenge, collected signature and operation is discarded (R325). -/
def ofcStop (d : Dev) : Dev :=
  let d := cardOff 1 (cardOff 0 d)
  if stopped d.sys.mode then modOfc (fun o => { o with chals := [], op := none }) d else opLost 1 (opLost 0 d)

/-- A soft reset discards the operation in progress: its reservation is freed, and a drain that it started ends (R40, R315, R322). -/
def ofcCut (d : Dev) : Dev :=
  let free (t : Option Nat) (d : Dev) : Dev := modOfc (fun o => { o with op := none }) (ticketFree t.toList d)
  match d.ofc.op with
  | some (.enrol _ _ _ _ _ _ t) => free t d
  | some (.cerEnter t) => free t { d with sys := { d.sys with draining := none } }
  | some (.pin _ _) => free none d
  | none => d

end Sys2Proof.Machine
end

