-- ==== Sys2Proof/Machine/HashSig.lean ====
section
/-! DEFINITION. Hash-based signatures of the engines: SLH-DSA (FIPS 205), and verification of HSS/LMS (RFC 8554), XMSS
and XMSS^MT (RFC 8391) under the parameter sets of SP 800-208 (R202, R212, R213). -/

namespace Sys2Proof.Machine

/-! ## SLH-DSA -/

/-- Parameters of a set: h, d, a, k, m; n is 16 and w is 16. -/
structure SlhPar where
  h : Nat
  d : Nat
  a : Nat
  k : Nat
  m : Nat

/-- The parameter set of an ALG. -/
def slhPar (alg : Nat) : SlhPar := if alg = 0x0321 then ⟨63, 7, 12, 14, 30⟩ else ⟨66, 22, 6, 33, 34⟩

/-- Height of one layer. -/
def SlhPar.hp (p : SlhPar) : Nat := p.h / p.d

/-- Signature size. -/
def slhSigLen (alg : Nat) : Nat := let p := slhPar alg; 16 * (1 + p.k * (1 + p.a) + p.h + 35 * p.d)

/-- A compressed address: layer, tree, type and three words. -/
structure Adrs where
  layer : Nat
  tree : Nat
  ty : Nat
  w1 : Nat
  w2 : Nat
  w3 : Nat

/-- The 22 bytes of an address. -/
def adrsBytes (a : Adrs) : Bytes :=
  beBytes 1 a.layer ++ beBytes 8 a.tree ++ beBytes 1 a.ty ++ beBytes 4 a.w1 ++ beBytes 4 a.w2 ++ beBytes 4 a.w3

/-- The tweakable hash. -/
def slhHash (seed : Bytes) (a : Adrs) (m : Bytes) : Bytes := (sha256 (seed ++ zeros 48 ++ adrsBytes a ++ m)).take 16

/-- The message digest. -/
def slhMsg (n : Nat) (r seed root m : Bytes) : Bytes :=
  let s := r ++ seed ++ sha256 (r ++ seed ++ root ++ m)
  (((List.range ((n + 31) / 32)).map (fun i => sha256 (s ++ beBytes 4 i))).flatten).take n

/-- Numbers of b bits, most significant first. -/
def base2b (b n : Nat) (x : Bytes) : List Nat :=
  let v := beNat x
  (List.range n).map (fun i => v / 2 ^ (8 * x.length - b * (i + 1)) % 2 ^ b)

/-- The 35 digits that WOTS+ signs for 16 bytes. -/
def wotsDigits (m : Bytes) : List Nat :=
  let ds := base2b 4 32 m
  let c := (ds.map (fun x => 15 - x)).foldl (· + ·) 0
  ds ++ [c / 256, c / 16 % 16, c % 16]

/-- A chain from step i over s steps. -/
def wotsChain (seed : Bytes) (a : Adrs) (i s : Nat) (x : Bytes) : Bytes :=
  (List.range s).foldl (fun x j => slhHash seed { a with w3 := i + j } x) x

/-- The compressed public key of a WOTS+ key pair from its chain ends. -/
def wotsPk (seed : Bytes) (layer tree kp : Nat) (ends : List Bytes) : Bytes :=
  slhHash seed ⟨layer, tree, 1, kp, 0, 0⟩ ends.flatten

/-- The secret of one chain. -/
def wotsSk (sk seed : Bytes) (layer tree kp i : Nat) : Bytes := slhHash seed ⟨layer, tree, 5, kp, i, 0⟩ sk

/-- Leaf kp of an XMSS tree. -/
def xLeaf (sk seed : Bytes) (layer tree kp : Nat) : Bytes :=
  wotsPk seed layer tree kp ((List.range 35).map (fun i =>
    wotsChain seed ⟨layer, tree, 0, kp, i, 0⟩ 0 15 (wotsSk sk seed layer tree kp i)))

/-- The levels above a level of nodes, the given level first. -/
def treeLevels (join : Nat → Nat → Bytes → Bytes → Bytes) : Nat → Nat → List Bytes → List (List Bytes)
  | 0, _, ns => [ns]
  | f + 1, z, ns =>
    let a := ns.toArray
    ns :: treeLevels join f (z + 1) ((List.range (ns.length / 2)).map (fun i =>
      join (z + 1) i (a.getD (2 * i) []) (a.getD (2 * i + 1) [])))

/-- The levels of an XMSS tree. -/
def xLevels (p : SlhPar) (sk seed : Bytes) (layer tree : Nat) : List (List Bytes) :=
  treeLevels (fun z i l r => slhHash seed ⟨layer, tree, 2, 0, z, i⟩ (l ++ r)) p.hp 0
    ((List.range (2 ^ p.hp)).map (xLeaf sk seed layer tree))

/-- The authentication path of a leaf. -/
def authPath (levels : List (List Bytes)) (h i : Nat) : List Bytes :=
  (List.range h).map (fun j => (levels.getD j []).getD (Nat.xor (i / 2 ^ j) 1) [])

/-- The public root. -/
def slhRoot (alg : Nat) (sk seed : Bytes) : Bytes :=
  let p := slhPar alg
  ((xLevels p sk seed (p.d - 1) 0).getLast?.getD []).headD []

/-- A WOTS+ signature of a node. -/
def wotsSign (sk seed : Bytes) (layer tree kp : Nat) (m : Bytes) : List Bytes :=
  (wotsDigits m).zipIdx.map (fun di =>
    wotsChain seed ⟨layer, tree, 0, kp, di.2, 0⟩ 0 di.1 (wotsSk sk seed layer tree kp di.2))

/-- The hypertree signature: layers from the bottom. -/
def htSign (p : SlhPar) (sk seed : Bytes) : Nat → Nat → Nat → Nat → Bytes → Bytes
  | 0, _, _, _, _ => []
  | f + 1, layer, tree, leaf, m =>
    let lv := xLevels p sk seed layer tree
    let sig := (wotsSign sk seed layer tree leaf m).flatten ++ (authPath lv p.hp leaf).flatten
    sig ++ htSign p sk seed f (layer + 1) (tree / 2 ^ p.hp) (tree % 2 ^ p.hp) ((lv.getLast?.getD []).headD [])

/-- The root a path leads to. -/
def pathRoot (join : Nat → Nat → Bytes → Bytes → Bytes) (leaf : Bytes) (i : Nat) (path : List Bytes) : Bytes :=
  path.zipIdx.foldl (fun x sj =>
    if i / 2 ^ sj.2 % 2 = 0 then join (sj.2 + 1) (i / 2 ^ (sj.2 + 1)) x sj.1
    else join (sj.2 + 1) (i / 2 ^ (sj.2 + 1)) sj.1 x) leaf

/-- The root that an XMSS signature gives for a node. -/
def xRootOf (p : SlhPar) (seed : Bytes) (layer tree leaf : Nat) (sig m : Bytes) : Bytes :=
  let cs := chunks 16 sig
  let ends := (wotsDigits m).zipIdx.map (fun di =>
    wotsChain seed ⟨layer, tree, 0, leaf, di.2, 0⟩ di.1 (15 - di.1) (cs.getD di.2 []))
  pathRoot (fun z i l r => slhHash seed ⟨layer, tree, 2, 0, z, i⟩ (l ++ r)) (wotsPk seed layer tree leaf ends) leaf
    ((cs.drop 35).take p.hp)

/-- The root that a hypertree signature gives. -/
def htRootOf (p : SlhPar) (seed : Bytes) : Nat → Nat → Nat → Nat → Bytes → Bytes → Bytes
  | 0, _, _, _, _, m => m
  | f + 1, layer, tree, leaf, sig, m =>
    let n := 16 * (35 + p.hp)
    htRootOf p seed f (layer + 1) (tree / 2 ^ p.hp) (tree % 2 ^ p.hp) (sig.drop n)
      (xRootOf p seed layer tree leaf (sig.take n) m)

/-- The tree and leaf that a digest selects, after the FORS part. -/
def slhPlace (p : SlhPar) (dig : Bytes) : Nat × Nat :=
  let ka := (p.k * p.a + 7) / 8
  let tb := (p.h - p.hp + 7) / 8
  let lb := (p.hp + 7) / 8
  (beNat (slice dig ka tb) % 2 ^ (p.h - p.hp), beNat (slice dig (ka + tb) lb) % 2 ^ p.hp)

/-- Leaf i of the FORS forest. -/
def forsSk (sk seed : Bytes) (tree kp i : Nat) : Bytes := slhHash seed ⟨0, tree, 6, kp, 0, i⟩ sk

/-- The node above two FORS nodes: tree t of the forest, height a. -/
def forsJoin (p : SlhPar) (seed : Bytes) (tree kp t : Nat) (z i : Nat) (l r : Bytes) : Bytes :=
  slhHash seed ⟨0, tree, 3, kp, z, t * 2 ^ (p.a - z) + i⟩ (l ++ r)

/-- The FORS public key from its roots. -/
def forsPk (seed : Bytes) (tree kp : Nat) (roots : List Bytes) : Bytes := slhHash seed ⟨0, tree, 4, kp, 0, 0⟩ roots.flatten

/-- FORS signature and public key of a digest. -/
def forsSign (p : SlhPar) (sk seed : Bytes) (tree kp : Nat) (md : Bytes) : Bytes × Bytes :=
  let parts := (base2b p.a p.k (md.take ((p.k * p.a + 7) / 8))).zipIdx.map (fun xt =>
    let lv := treeLevels (forsJoin p seed tree kp xt.2) p.a 0 ((List.range (2 ^ p.a)).map (fun i =>
      slhHash seed ⟨0, tree, 3, kp, 0, xt.2 * 2 ^ p.a + i⟩ (forsSk sk seed tree kp (xt.2 * 2 ^ p.a + i))))
    (forsSk sk seed tree kp (xt.2 * 2 ^ p.a + xt.1) ++ (authPath lv p.a xt.1).flatten, (lv.getLast?.getD []).headD []))
  ((parts.map (·.1)).flatten, forsPk seed tree kp (parts.map (·.2)))

/-- The FORS public key that a signature gives. -/
def forsRootOf (p : SlhPar) (seed : Bytes) (tree kp : Nat) (md sig : Bytes) : Bytes :=
  forsPk seed tree kp ((base2b p.a p.k (md.take ((p.k * p.a + 7) / 8))).zipIdx.map (fun xt =>
    let s := chunks 16 (slice sig (16 * (p.a + 1) * xt.2) (16 * (p.a + 1)))
    pathRoot (forsJoin p seed tree kp xt.2) (slhHash seed ⟨0, tree, 3, kp, 0, xt.2 * 2 ^ p.a + xt.1⟩ (s.headD [])) xt.1 (s.drop 1)))

/-- Signing a formatted message under SK.seed, SK.prf, PK.seed and PK.root, with opt_rand (R212). -/
def slhSign (alg : Nat) (mat m' rand : Bytes) : Bytes :=
  let p := slhPar alg
  let sk := slice mat 0 16
  let seed := slice mat 32 16
  let root := slice mat 48 16
  let r := (hmac256 (slice mat 16 16) (rand ++ m')).take 16
  let dig := slhMsg p.m r seed root m'
  let (tree, leaf) := slhPlace p dig
  let (fs, pk) := forsSign p sk seed tree leaf dig
  r ++ fs ++ htSign p sk seed p.d 0 tree leaf pk

/-- Whether a signature of the right length verifies under PK.seed and PK.root. -/
def slhOk (alg : Nat) (pk m' sig : Bytes) : Bool :=
  let p := slhPar alg
  let seed := pk.take 16
  let root := pk.drop 16
  let dig := slhMsg p.m (sig.take 16) seed root m'
  let (tree, leaf) := slhPlace p dig
  let n := 16 * p.k * (1 + p.a)
  htRootOf p seed p.d 0 tree leaf (sig.drop (16 + n)) (forsRootOf p seed tree leaf dig (slice sig 16 n)) == root

/-! ## LMS and HSS (RFC 8554, SP 800-208) -/

/-- A hash with its output length. -/
structure LmsHash where
  run : Bytes → Bytes
  n : Nat

/-- SHA-256 or SHAKE256, cut to 32 or 24 bytes. -/
def lmsHash (shake : Bool) (n : Nat) : LmsHash := ⟨fun m => if shake then shake256 m n else (sha256 m).take n, n⟩

/-- A tree type code: hash and height. -/
def lmsType (t : Nat) : Option (LmsHash × Nat) :=
  let h := [5, 10, 15, 20, 25].getD ((t - 5) % 5) 5
  if 5 ≤ t && t ≤ 9 then some (lmsHash false 32, h)
  else if 10 ≤ t && t ≤ 14 then some (lmsHash false 24, h)
  else if 15 ≤ t && t ≤ 19 then some (lmsHash true 32, h)
  else if 20 ≤ t && t ≤ 24 then some (lmsHash true 24, h)
  else none

/-- A one-time type code: hash and width. -/
def otsType (t : Nat) : Option (LmsHash × Nat) :=
  let w := [1, 2, 4, 8].getD ((t - 1) % 4) 8
  if 1 ≤ t && t ≤ 4 then some (lmsHash false 32, w)
  else if 5 ≤ t && t ≤ 8 then some (lmsHash false 24, w)
  else if 9 ≤ t && t ≤ 12 then some (lmsHash true 32, w)
  else if 13 ≤ t && t ≤ 16 then some (lmsHash true 24, w)
  else none

/-- Checksum bits of a one-time scheme. -/
def otsV (n w : Nat) : Nat := (Nat.log2 ((2 ^ w - 1) * (8 * n / w)) + 1 + w - 1) / w

/-- Chains of a one-time scheme. -/
def otsP (n w : Nat) : Nat := 8 * n / w + otsV n w

/-- The digits signed, with their checksum. -/
def otsDigits (n w : Nat) (q : Bytes) : List Nat :=
  let ds := base2b w (8 * n / w) q
  let sum := (ds.map (fun x => 2 ^ w - 1 - x)).foldl (· + ·) 0
  ds ++ base2b w (otsV n w) (beBytes 2 (sum * 2 ^ (16 - otsV n w * w)))

/-- One-time public key that a signature (C and chain values) gives for a message. -/
def otsKey (h : LmsHash) (w : Nat) (ident : Bytes) (q : Nat) (sig m : Bytes) : Bytes :=
  let pre := ident ++ beBytes 4 q
  let d := h.run (pre ++ [0x81, 0x81] ++ sig.take h.n ++ m)
  let ends := (otsDigits h.n w d).zipIdx.map (fun xi =>
    (List.range (2 ^ w - 1 - xi.1)).foldl (fun y j =>
      h.run (pre ++ beBytes 2 xi.2 ++ beBytes 1 (xi.1 + j) ++ y)) (slice sig (h.n * (1 + xi.2)) h.n))
  h.run (pre ++ [0x80, 0x80] ++ ends.flatten)

/-- Outcome of a stateful verification: a code that SP 800-208 does not approve or a length that does not match, or
the verdict (R213). -/
abbrev HbsRes := Option Bool

/-- The hash and height of an LMS tree type with the hash and width of a one-time type that goes with it. -/
def lmsPair (t o : Nat) : Option (LmsHash × Nat × Nat) :=
  match lmsType t, otsType o with
  | some (h, ht), some (_, w) => if (t - 5) / 5 = (o - 1) / 4 then some (h, ht, w) else none
  | _, _ => none

/-- The codes of an LMS public key: tree type, one-time type. -/
def lmsCodes (pk : Bytes) : Option (LmsHash × Nat × Nat) := lmsPair (beNat (pk.take 4)) (beNat (slice pk 4 4))

/-- Length of an LMS public key by its codes. -/
def lmsPkLen (pk : Bytes) : Nat := ((lmsCodes pk).map (fun x => 24 + x.1.n)).getD 0

/-- The length that an LMS signature has by its own codes, if they are approved (R213). -/
def lmsSigLen (sig : Bytes) : Option Nat :=
  match otsType (beNat (slice sig 4 4)) with
  | none => none
  | some (o, w) =>
    let base := 8 + o.n * (otsP o.n w + 1)
    (lmsPair (beNat (slice sig base 4)) (beNat (slice sig 4 4))).map (fun x => base + 4 + x.1.n * x.2.1)

/-- Verification of one LMS signature of the length that its codes give, under a key of the length that its codes give: codes that differ from
the key's, or a leaf that the tree lacks, do not verify. -/
def lmsOk (pk m sig : Bytes) : Bool :=
  match lmsCodes pk with
  | none => false
  | some (h, ht, w) =>
    let ident := slice pk 8 16
    let q := beNat (sig.take 4)
    let osz := h.n * (otsP h.n w + 1)
    let base := 8 + osz
    if slice sig 4 4 ≠ slice pk 4 4 || slice sig base 4 ≠ pk.take 4 || 2 ^ ht ≤ q then false
    else
      let kc := otsKey h w ident q (slice sig 8 osz) m
      let leaf := h.run (ident ++ beBytes 4 (2 ^ ht + q) ++ [0x82, 0x82] ++ kc)
      let root := ((chunks h.n (sig.drop (base + 4))).foldl (fun (x : Bytes × Nat) y =>
        let r := x.2
        (h.run (ident ++ beBytes 4 (r / 2) ++ [0x83, 0x83] ++ (if r % 2 = 0 then x.1 ++ y else y ++ x.1)), r / 2))
        (leaf, 2 ^ ht + q)).1
      root = pk.drop 24

/-- Whether so many signed keys and a last signature have approved codes and together the length that these give (R213). -/
def hssForm : Nat → Bytes → Bool
  | 0, sig => lmsSigLen sig = some sig.length
  | f + 1, sig =>
    match lmsSigLen sig with
    | none => false
    | some n => n < sig.length && lmsPkLen (sig.drop n) ≠ 0 && hssForm f (sig.drop (n + lmsPkLen (sig.drop n)))

/-- The chain of signed keys of an HSS signature of that form, with the levels still to go. -/
def hssGo (m : Bytes) : Nat → Bytes → Bytes → Bool
  | 0, pk, sig => lmsOk pk m sig
  | f + 1, pk, sig =>
    let n := (lmsSigLen sig).getD 0
    let next := slice sig n (lmsPkLen (sig.drop n))
    lmsOk pk next (sig.take n) && hssGo m f next (sig.drop (n + next.length))

/-- HSS verification, of 1 to 8 levels: a signature that counts other levels than the key does not verify. -/
def hssOk (pk m sig : Bytes) : HbsRes :=
  let l := beNat (pk.take 4)
  let signed := beNat (sig.take 4)
  if l < 1 || 8 < l || (lmsCodes (pk.drop 4)).isNone || (pk.drop 4).length ≠ lmsPkLen (pk.drop 4) || sig.length < 4
      || !(hssForm (min signed sig.length) (sig.drop 4)) then none
  else some (signed + 1 = l && hssGo m (l - 1) (pk.drop 4) (sig.drop 4))

/-! ## XMSS and XMSS^MT (RFC 8391, SP 800-208) -/

/-- Parameters of a set: output length, SHAKE256, total height, layers. -/
structure XmssPar where
  n : Nat
  shake : Bool
  h : Nat
  d : Nat

/-- A set of XMSS by its code. -/
def xmssSet (t : Nat) : Option XmssPar :=
  if 1 ≤ t && t ≤ 3 then some ⟨32, false, [10, 16, 20].getD (t - 1) 10, 1⟩
  else if 0x0D ≤ t && t ≤ 0x0F then some ⟨24, false, [10, 16, 20].getD (t - 0x0D) 10, 1⟩
  else if 0x10 ≤ t && t ≤ 0x12 then some ⟨32, true, [10, 16, 20].getD (t - 0x10) 10, 1⟩
  else if 0x13 ≤ t && t ≤ 0x15 then some ⟨24, true, [10, 16, 20].getD (t - 0x13) 10, 1⟩
  else none

/-- A set of XMSS^MT by its code. -/
def xmssMtSet (t : Nat) : Option XmssPar :=
  let hd := [(20, 2), (20, 4), (40, 2), (40, 4), (40, 8), (60, 3), (60, 6), (60, 12)].getD ((t - 1) % 8) (20, 2)
  if 1 ≤ t && t ≤ 8 then some ⟨32, false, hd.1, hd.2⟩
  else if 0x21 ≤ t && t ≤ 0x28 then some ⟨24, false, hd.1, hd.2⟩
  else if 0x29 ≤ t && t ≤ 0x30 then some ⟨32, true, hd.1, hd.2⟩
  else if 0x31 ≤ t && t ≤ 0x38 then some ⟨24, true, hd.1, hd.2⟩
  else none

/-- The keyed hash with a purpose number. -/
def xmH (p : XmssPar) (tag : Nat) (m : Bytes) : Bytes :=
  let x := beBytes (if p.n = 32 then 32 else 4) tag ++ m
  if p.shake then shake256 x p.n else (sha256 x).take p.n

/-- An address of eight words: layer, tree (two), type, three words and the mask selector. -/
def xmAdrs (layer tree ty a b c key : Nat) : Bytes :=
  beBytes 4 layer ++ beBytes 8 tree ++ beBytes 4 ty ++ beBytes 4 a ++ beBytes 4 b ++ beBytes 4 c ++ beBytes 4 key

/-- One step of a chain. -/
def xmF (p : XmssPar) (seed : Bytes) (layer tree kp i s : Nat) (x : Bytes) : Bytes :=
  let prf (k : Nat) := xmH p 3 (seed ++ xmAdrs layer tree 0 kp i s k)
  xmH p 0 (prf 0 ++ xorBytes x (prf 1))

/-- The randomised node hash. -/
def xmJoin (p : XmssPar) (seed : Bytes) (layer tree ty a b c : Nat) (l r : Bytes) : Bytes :=
  let prf (k : Nat) := xmH p 3 (seed ++ xmAdrs layer tree ty a b c k)
  xmH p 1 (prf 0 ++ xorBytes l (prf 1) ++ xorBytes r (prf 2))

/-- The L-tree over chain ends; fuel bounds its height. -/
def xmLtree (p : XmssPar) (seed : Bytes) (layer tree kp : Nat) : Nat → Nat → List Bytes → Bytes
  | 0, _, ns => ns.headD []
  | f + 1, z, ns =>
    if ns.length ≤ 1 then ns.headD []
    else
      let a := ns.toArray
      let up := (List.range (ns.length / 2)).map (fun i =>
        xmJoin p seed layer tree 1 kp z i (a.getD (2 * i) []) (a.getD (2 * i + 1) []))
      xmLtree p seed layer tree kp f (z + 1) (up ++ (if ns.length % 2 = 1 then [a.getD (ns.length - 1) []] else []))

/-- Chains of WOTS+ with w = 16. -/
def xmLen (n : Nat) : Nat := 2 * n + 3

/-- The root that one layer's signature gives for a node. -/
def xmRoot (p : XmssPar) (seed : Bytes) (layer tree leaf : Nat) (sig m : Bytes) : Bytes :=
  let ds := base2b 4 (2 * p.n) m
  let c := (ds.map (fun x => 15 - x)).foldl (· + ·) 0
  let ds := ds ++ [c / 256, c / 16 % 16, c % 16]
  let cs := chunks p.n sig
  let ends := ds.zipIdx.map (fun di =>
    (List.range (15 - di.1)).foldl (fun x j => xmF p seed layer tree leaf di.2 (di.1 + j) x) (cs.getD di.2 []))
  let node := xmLtree p seed layer tree leaf 8 0 ends
  pathRoot (fun z i l r => xmJoin p seed layer tree 2 0 (z - 1) i l r) node leaf ((cs.drop (xmLen p.n)).take (p.h / p.d))

/-- The root of the top layer. -/
def xmTop (p : XmssPar) (seed : Bytes) : Nat → Nat → Nat → Nat → Bytes → Bytes → Bytes
  | 0, _, _, _, _, m => m
  | f + 1, layer, tree, leaf, sig, m =>
    let hp := p.h / p.d
    let n := p.n * (xmLen p.n + hp)
    xmTop p seed f (layer + 1) (tree / 2 ^ hp) (tree % 2 ^ hp) (sig.drop n) (xmRoot p seed layer tree leaf (sig.take n) m)

/-- XMSS and XMSS^MT verification: public key OID, root, SEED. -/
def xmssOk (mt : Bool) (pk m sig : Bytes) : HbsRes :=
  match (if mt then xmssMtSet else xmssSet) (beNat (pk.take 4)) with
  | none => none
  | some p =>
    let idxLen := if mt then (p.h + 7) / 8 else 4
    if pk.length ≠ 4 + 2 * p.n || sig.length ≠ idxLen + p.n + p.d * p.n * (xmLen p.n) + p.n * p.h then none
    else
      let root := slice pk 4 p.n
      let seed := pk.drop (4 + p.n)
      let idx := beNat (sig.take idxLen)
      let hp := p.h / p.d
      let dig := xmH p 2 (slice sig idxLen p.n ++ root ++ beBytes p.n idx ++ m)
      if 2 ^ p.h ≤ idx then some false
      else some (xmTop p seed p.d 0 (idx / 2 ^ hp) (idx % 2 ^ hp) (sig.drop (idxLen + p.n)) dig = root)

end Sys2Proof.Machine
end

