-- ==== Sys2Proof/Machine/Rsa.lean ====
section
/-! DEFINITION. RSA under PKCS #1 v2.2 (R211): PSS, PKCS #1 v1.5 signatures and OAEP. -/

namespace Sys2Proof.Machine

/-- A public key. -/
structure RsaPub where
  e : Nat
  n : Nat
  /-- modulus length in bytes -/
  k : Nat

/-- Modulus length of an ALG (R202). -/
def rsaK (alg : Nat) : Nat := if alg = 0x0201 then 256 else if alg = 0x0202 then 384 else 512

/-- The public key at the front of material or of its encoding. -/
def rsaPubOf (alg : Nat) (m : Bytes) : RsaPub := ⟨beNat (slice m 0 8), beNat (slice m 8 (rsaK alg)), rsaK alg⟩

/-- The check of R203. -/
def rsaPubOk (p : RsaPub) : Bool :=
  p.e % 2 = 1 && 65537 ≤ p.e && p.e < 2 ^ 64 && p.n % 2 = 1 && 2 ^ (8 * p.k - 1) ≤ p.n && p.n < 2 ^ (8 * p.k)
    && primes1000.all (fun q => p.n % q != 0)

/-- The CRT components p, q, dP, dQ, qInv of material (R115). -/
def rsaCrt (alg : Nat) (m : Bytes) : List Nat :=
  let h := rsaK alg / 2
  (List.range 5).map (fun i => beNat (slice m (8 + rsaK alg + h * i) h))

/-- The private operation on a number, by CRT (R204, R211). -/
def rsaPriv (alg : Nat) (m : Bytes) (c : Nat) : Nat :=
  match rsaCrt alg m with
  | [p, q, dp, dq, qi] =>
    let m1 := powMod c dp p
    let m2 := powMod c dq q
    m2 + q * (qi * subMod m1 m2 p % p)
  | _ => 0

/-- Whether the components agree (R135): n = p q, the exponents invert e, qInv inverts q. -/
def rsaConsistent (alg : Nat) (m : Bytes) : Bool :=
  let k := rsaPubOf alg m
  match rsaCrt alg m with
  | [p, q, dp, dq, qi] =>
    rsaPubOk k && p * q = k.n && 1 < p && 1 < q && k.e * dp % (p - 1) = 1 && k.e * dq % (q - 1) = 1 && q * qi % p = 1
  | _ => false

/-- The material of a pair from its primes. -/
def rsaMaterial (alg e p q : Nat) : Bytes :=
  let (p, q) := if p < q then (q, p) else (p, q)
  let h := rsaK alg / 2
  beBytes 8 e ++ beBytes (rsaK alg) (p * q) ++ beBytes h p ++ beBytes h q ++ beBytes h (invMod e (p - 1))
    ++ beBytes h (invMod e (q - 1)) ++ beBytes h (invMod q p)

/-- MGF1. -/
def mgf1 (hash : Nat) (seed : Bytes) (n : Nat) : Bytes :=
  let h := hashSize hash
  (((List.range ((n + h - 1) / h)).map (fun i => hashRun hash (seed ++ beBytes 4 i))).flatten).take n

/-- The bytes with the top bits cleared that a modulus of emBits + 1 bits leaves. -/
def clearTop (db : Bytes) (unused : Nat) : Bytes :=
  match db with
  | b :: t => BitVec.ofNat 8 (b.toNat % 2 ^ (8 - unused)) :: t
  | [] => []

/-- EMSA-PSS encoding for a modulus of k bytes with its top bit set: emBits = 8 k - 1. -/
def pssEncode (hash k : Nat) (h salt : Bytes) : Bytes :=
  let hh := hashRun hash (zeros 8 ++ h ++ salt)
  let db := zeros (k - salt.length - hh.length - 2) ++ [0x01] ++ salt
  clearTop (xorBytes db (mgf1 hash hh db.length)) 1 ++ hh ++ [0xBC]

/-- EMSA-PSS verification with a salt of fixed length. -/
def pssOk (hash k sLen : Nat) (h em : Bytes) : Bool :=
  let hLen := hashSize hash
  let dbLen := k - hLen - 1
  let masked := em.take dbLen
  let hh := slice em dbLen hLen
  let db := clearTop (xorBytes masked (mgf1 hash hh dbLen)) 1
  let ps := dbLen - sLen - 1
  em.length = k && em.getLast? = some 0xBC && (masked.headD 0).toNat < 128 && db.take ps = zeros ps
    && db.getD ps 0 = 0x01 && hashRun hash (zeros 8 ++ h ++ db.drop (ps + 1)) = hh

/-- The DER prefix of DigestInfo for hash codes 2, 3 and 4. -/
def digestInfo (hash : Nat) : Bytes :=
  let n := hashSize hash
  let id : Nat := if hash = 2 then 1 else if hash = 3 then 2 else if 9 ≤ hash then hash - 1 else 3
  [0x30, BitVec.ofNat 8 (17 + n), 0x30, 0x0d, 0x06, 0x09, 0x60, 0x86, 0x48, 0x01, 0x65, 0x03, 0x04, 0x02,
   BitVec.ofNat 8 id, 0x05, 0x00, 0x04, BitVec.ofNat 8 n]

/-- EMSA-PKCS1-v1_5. -/
def pkcsEncode (hash k : Nat) (h : Bytes) : Bytes :=
  let t := digestInfo hash ++ h
  [0x00, 0x01] ++ List.replicate (k - t.length - 3) 0xFF ++ [0x00] ++ t

/-- EME-OAEP encoding with a seed of the hash length. -/
def oaepEncode (hash k : Nat) (label m seed : Bytes) : Bytes :=
  let hLen := hashSize hash
  let db := hashRun hash label ++ zeros (k - m.length - 2 * hLen - 2) ++ [0x01] ++ m
  let md := xorBytes db (mgf1 hash seed db.length)
  [0x00] ++ xorBytes seed (mgf1 hash md hLen) ++ md

/-- EME-OAEP decoding. -/
def oaepDecode (hash k : Nat) (label em : Bytes) : Option Bytes :=
  let hLen := hashSize hash
  let md := em.drop (1 + hLen)
  let seed := xorBytes (slice em 1 hLen) (mgf1 hash md hLen)
  let db := xorBytes md (mgf1 hash seed (k - hLen - 1))
  let rest := (db.drop hLen).dropWhile (fun b => b = 0)
  if em.headD 1 = 0 && db.take hLen = hashRun hash label && rest.headD 0 = 0x01 then some (rest.drop 1) else none

end Sys2Proof.Machine
end

