-- ==== Sys2Proof/Machine/OpTable.lean ====
section
/-! DEFINITION. The opcode table and the parser's view of a descriptor: which fields an opcode takes, their reserved
bits, its lengths and its output size (R85-R89, R97, R98, and the descriptor rules of each opcode's chapter). -/

namespace Sys2Proof.Machine

/-! ## Descriptors -/

/-- A PYP 2.x descriptor from its 64 bytes (R85). -/
def descOf (b : Bytes) : Desc :=
  { opcode := leAt b 0x00 2, flags := leAt b 0x02 2, cmdId := leAt b 0x04 2, param := leAt b 0x06 2, key := leAt b 0x08 8
    key2 := leAt b 0x10 8, src := leAt b 0x18 8, dst := leAt b 0x20 8, srcLen := leAt b 0x28 4, dstLen := leAt b 0x2C 4
    aux := leAt b 0x30 8, auxLen := leAt b 0x38 2, opt := leAt b 0x3A 2, ticketLen := leAt b 0x3C 2, rsvd := leAt b 0x3E 2 }

/-- The 64 bytes of a descriptor (R85). -/
def descBytes (d : Desc) : Bytes :=
  leBytes 2 d.opcode ++ leBytes 2 d.flags ++ leBytes 2 d.cmdId ++ leBytes 2 d.param ++ leBytes 8 d.key ++ leBytes 8 d.key2
    ++ leBytes 8 d.src ++ leBytes 8 d.dst ++ leBytes 4 d.srcLen ++ leBytes 4 d.dstLen ++ leBytes 8 d.aux
    ++ leBytes 2 d.auxLen ++ leBytes 2 d.opt ++ leBytes 2 d.ticketLen ++ leBytes 2 d.rsvd

/-- FLAGS of R86. -/
def flFENCE := 0
def flORDERED := 1
def flNO_IRQ := 2
def flSRC_SGL := 4
def flDST_SGL := 5

/-! ## The opcode table (R97) -/

/-- Class 0x0Fxx, firmware's own opcodes. -/
def opFirmware (op : Nat) : Bool := 0x0F00 ≤ op && op ≤ 0x0FFF

/-- The opcodes of the table. -/
def opListed (op : Nat) : Bool :=
  (0x0101 ≤ op && op ≤ 0x0112) || (0x0201 ≤ op && op ≤ 0x020A) || (0x0301 ≤ op && op ≤ 0x030F)
    || (0x0401 ≤ op && op ≤ 0x0409) || op = 0x0501 || op = 0x0502 || (0x0601 ≤ op && op ≤ 0x0606)
    || (0x0701 ≤ op && op ≤ 0x0703) || (0x0801 ≤ op && op ≤ 0x0807)

/-- Whether an opcode is known (R97). -/
def opKnown (op : Nat) : Bool := opListed op || opFirmware op

/-- Whether an opcode is routed to firmware (R97). -/
def opRouted (op : Nat) : Bool :=
  opFirmware op || op = 0x0110 || op = 0x0112 || (0x010A ≤ op && op ≤ 0x010F)

/-- The lowest minor of PYP 2 that has an opcode (R98). -/
def opMinor (op : Nat) : Nat := if 0x030C ≤ op && op ≤ 0x030E then 1 else if op = 0x0703 then 2 else 0

/-- Which kind of unit carries an opcode out. -/
inductive UnitKind where | store | lane | cluster | engine
deriving DecidableEq, Repr

/-- The unit that carries out a command (R165, R181, R200): the asymmetric signatures of LOCKER_TOKEN_SIGN are an
engine's; the key-management and random opcodes without an engine are the key store controller's and the DRBG's. -/
def opUnit (d : Desc) (asym : Bool) : UnitKind :=
  let op := d.opcode
  if op = 0x0102 || op = 0x0111 || (0x0301 ≤ op && op ≤ 0x030F) then .engine
  else if op = 0x0805 && asym then .engine
  else if (0x0201 ≤ op && op ≤ 0x020A) || (0x0601 ≤ op && op ≤ 0x0703) || op = 0x0404 || op = 0x0405 then .lane
  else if op = 0x0406 then (if bits d.param 15 12 = 1 then .cluster else .lane)
  else if (0x0401 ≤ op && op ≤ 0x0409) || (0x0801 ≤ op && op ≤ 0x0807) then .cluster
  else .store

/-- Operations marked long (R221): RSA private of 3,072 and 4,096 bits, RSA key generation, SLH-DSA signing and key
generation. -/
def opLong (op alg : Nat) : Bool :=
  (op = 0x0306 && (alg = 0x0202 || alg = 0x0203)) || (op = 0x0102 && (0x0201 ≤ alg && alg ≤ 0x0203 || alg = 0x0321 || alg = 0x0322))
    || op = 0x030C

/-! ## What an opcode takes -/

/-- The parser's view of one descriptor: whether PARAM and OPT are acceptable, which fields are in use, whether the
lengths are within the opcode's limits, and the output size where the descriptor gives it. -/
structure OpSpec where
  param : Bool
  opt : Bool
  key : Bool
  key2 : Bool
  src : Bool
  dst : Bool
  aux : Bool
  lens : Bool
  out : Nat

/-- An opcode that takes nothing. -/
def specNone (d : Desc) : OpSpec :=
  { param := d.param = 0, opt := d.opt = 0, key := false, key2 := false, src := false, dst := false, aux := false
    lens := true, out := 0 }

/-- SEG, DIR, NONCE_GEN and MODE_ARG of a cipher opcode (R168). -/
def pSeg (d : Desc) : Nat := bits d.param 3 2
def pDec (d : Desc) : Bool := bit d.param 0
def pNonce (d : Desc) : Bool := bit d.param 1
def pArg (d : Desc) : Nat := bits d.param 11 8

/-- DLABEL_LEN and TAG_LEN (R168). -/
def oLabel (d : Desc) : Nat := bits d.opt 14 8
def oTag (d : Desc) : Nat := bits d.opt 7 0

/-- A tag length with 0 meaning full. -/
def tagOr (d : Desc) (full : Nat) : Nat := if oTag d = 0 then full else oTag d

/-- Lengths of the parts of a cipher opcode's auxiliary block before the AAD (R169). -/
def ivLen (op : Nat) : Nat := if op = 0x0201 || op = 0x0207 then 0 else 16
def ctxOff (d : Desc) : Nat := ivLen d.opcode
def labelOff (d : Desc) : Nat := ctxOff d + (if pSeg d = 0 then 0 else 128)
def partsEnd (d : Desc) : Nat := labelOff d + oLabel d
def aadOff (d : Desc) : Nat := alignUp (partsEnd d) 8

/-- AAD of a GCM or CCM descriptor. -/
def aadLen (d : Desc) : Nat := d.auxLen - aadOff d

/-- Whether an opcode accepts an in-lane derived key (R176). -/
def takesLabel (op : Nat) : Bool := (0x0201 ≤ op && op ≤ 0x0205) || (0x0404 ≤ op && op ≤ 0x0406)

/-- OPT's label part is acceptable. -/
def labelOk (d : Desc) : Bool := !(bit d.opt 15) && oLabel d ≤ 64 && (oLabel d = 0 || takesLabel d.opcode)

/-- The cipher opcodes 0x0201 to 0x0208 (R168-R173). -/
def specCipher (d : Desc) : OpSpec :=
  let op := d.opcode
  let seg := pSeg d
  let dec := pDec d
  let gcm := op = 0x0204
  let ccm := op = 0x0205
  let xts := op = 0x0206
  let argOk : Bool :=
    if op = 0x0203 then pArg d ≤ 2 else if ccm then 7 ≤ pArg d && pArg d ≤ 13 else if xts then pArg d ≤ 7 else pArg d = 0
  let nonceOk : Bool := !(pNonce d) || (gcm && !dec && seg = 0)
  let segOk : Bool := seg = 0 || !(ccm || xts)
  let tagOk : Bool :=
    if gcm then oTag d = 0 || (12 ≤ oTag d && oTag d ≤ 15)
    else if ccm then oTag d = 0 || (oTag d % 2 = 0 && 4 ≤ oTag d && oTag d ≤ 14)
    else oTag d = 0
  let blk := if op = 0x0207 || op = 0x0208 then 8 else 16
  let t := if (gcm && (seg = 0 || seg = 3)) || ccm then tagOr d 16 else 0
  let body := if dec then d.srcLen - t else d.srcLen
  let srcOk : Bool :=
    if gcm then (!dec || t ≤ d.srcLen) && (seg = 0 || seg = 3 || d.srcLen % 16 = 0)
    else if ccm then !dec || t ≤ d.srcLen
    else if op = 0x0203 then 1 ≤ d.srcLen && (seg = 0 || seg = 3 || d.srcLen % 16 = 0)
    else if xts then d.srcLen % (512 * 2 ^ pArg d) = 0
    else d.srcLen % blk = 0 && blk ≤ d.srcLen
  let aad : Bool := (gcm && (seg = 0 || seg = 1)) || ccm
  let auxOk : Bool := if aad then partsEnd d ≤ d.auxLen && (d.auxLen = partsEnd d || aadOff d ≤ d.auxLen) else d.auxLen = partsEnd d
  { specNone d with
    param := bits d.param 15 12 = 0 && bits d.param 7 4 = 0 && argOk && nonceOk && segOk
    opt := labelOk d && tagOk
    key := true, src := true, dst := true, aux := partsEnd d ≠ 0 || aad
    lens := srcOk && auxOk
    out := if dec then body else d.srcLen + t }

/-- Hash, MAC and derivation opcodes (R181-R184). -/
def specHash (d : Desc) : OpSpec :=
  let h := bits d.param 3 0
  let macHash (h : Nat) : Bool := (2 ≤ h && h ≤ 4) || (9 ≤ h && h ≤ 11)
  match d.opcode with
  | 0x0401 => { specNone d with
      param := (hashOf d.param).isSome, src := true, dst := true, out := hashSize d.param }
  | 0x0402 => { specNone d with
      param := d.param = 1 || d.param = 2, src := true, dst := true, lens := 1 ≤ d.dstLen && d.dstLen ≤ 65536 }
  | 0x0403 => { specNone d with
      param := macHash d.param, opt := labelOk d && (oTag d = 0 || (4 ≤ oTag d && oTag d ≤ hashSize d.param))
      key := true, src := true, dst := true, out := tagOr d (hashSize d.param) }
  | 0x0404 => { specNone d with
      opt := labelOk d && (oTag d = 0 || (4 ≤ oTag d && oTag d ≤ 16)), key := true, src := true, dst := true
      aux := oLabel d ≠ 0, lens := d.auxLen = oLabel d, out := oTag d }
  | 0x0405 => { specNone d with
      param := d.param = 0 || d.param = 2, opt := labelOk d && (oTag d = 0 || (12 ≤ oTag d && oTag d ≤ 16)), key := true
      src := true, dst := true, aux := true, lens := d.auxLen = 16 + oLabel d, out := tagOr d 16 }
  | 0x0406 =>
      let kind := bits d.param 15 12
      let full := if kind = 1 then hashSize h else 16
      let lo := if kind = 3 then 12 else 4
      let at' := alignUp ((if kind = 3 then 16 else 0) + oLabel d) 8
      { specNone d with
        param := bits d.param 11 4 = 0 && 1 ≤ kind && kind ≤ 3 && (if kind = 1 then macHash h else h = 0)
        opt := labelOk d && (oTag d = 0 || (lo ≤ oTag d && oTag d ≤ full)) && (kind ≠ 1 || oLabel d = 0)
        key := true, src := true, aux := true
        lens := d.auxLen = at' + tagOr d full || (kind = 2 && oTag d = 0 && d.auxLen = at' + 8) }
  | 0x0407 => { specNone d with
      param := 2 ≤ d.param && d.param ≤ 4, key := true, aux := true, lens := 72 ≤ d.auxLen && d.auxLen ≤ 72 + 128 + 1024 }
  | 0x0408 => { specNone d with
      param := 1 ≤ d.param && d.param ≤ 4, key := true, aux := true, lens := 64 ≤ d.auxLen && d.auxLen ≤ 64 + 1024 }
  | _ =>
      let stage := bits d.param 1 0
      let suite := bits d.param 3 2
      { specNone d with
        param := bits d.param 15 5 = 0 && stage ≠ 0 && (suite = 1 || suite = 2) && (stage = 3 || !(bit d.param 4))
        key := true, key2 := stage = 1, dst := true, aux := true
        lens := d.auxLen = (if suite = 1 then 32 else 48) + 64, out := 96 }

/-- Random opcodes (R238, R239). -/
def specRandom (d : Desc) : OpSpec :=
  if d.opcode = 0x0501 then { specNone d with
    param := d.param ≤ 1, dst := true, lens := 1 ≤ d.dstLen && d.dstLen ≤ 65536 }
  else specNone d

/-- The characters that FF1 processes (R191). -/
def ff1Span (d : Desc) : Nat := d.srcLen - bits d.param 9 6 - bits d.param 13 10

/-- Payment and tokenisation opcodes (R185-R192). -/
def specPay (d : Desc) : OpSpec :=
  let ff1Param : Bool := bits d.param 15 14 = 0 && 2 ≤ bits d.param 5 0 && bits d.param 5 0 ≤ 36 && bits d.param 9 6 ≤ 8
    && bits d.param 13 10 ≤ 8
  let ff1Len : Bool := bits d.param 9 6 + bits d.param 13 10 ≤ d.srcLen && 2 ≤ ff1Span d && ff1Span d ≤ 56
    && 1000000 ≤ bits d.param 5 0 ^ ff1Span d
  match d.opcode with
  | 0x0601 => { specNone d with
      param := bits d.param 15 5 = 0 && 1 ≤ bits d.param 3 0 && bits d.param 3 0 ≤ 8, key := true, aux := true
      lens := d.auxLen = 80 }
  | 0x0602 => { specNone d with
      key := true, key2 := true, src := true, dst := true, aux := true
      lens := d.auxLen = 32 && (d.srcLen = 8 || d.srcLen = 16) }
  | 0x0603 => { specNone d with
      param := d.param = 1 || d.param = 2, key := true, key2 := true, src := true, aux := true
      lens := (d.srcLen = 8 || d.srcLen = 16)
        && (if d.param = 2 then d.auxLen = 0x38 else d.auxLen = 0x28 || d.auxLen = 0x30) }
  | 0x0604 => { specNone d with
      param := 3 ≤ d.param && d.param ≤ 5, key := true, aux := true, lens := d.auxLen = 16 }
  | 0x0605 => { specNone d with
      param := 3 ≤ d.param && d.param ≤ 5, key := true, aux := true, lens := d.auxLen = 24 }
  | 0x0606 => { specNone d with
      param := bits d.param 15 6 = 0 && bits d.param 1 0 ≤ 1 && bits d.param 3 2 ≤ 1 && bits d.param 5 4 ≤ 2, key := true
      key2 := true, src := true, dst := true, aux := true
      lens := d.auxLen = 48 && 8 ≤ d.srcLen && d.srcLen ≤ 4096 && d.srcLen % 8 = 0, out := d.srcLen }
  | 0x0703 => { specNone d with
      param := ff1Param, key := true, key2 := true, src := true, dst := true, aux := true
      lens := ff1Len && 8 ≤ d.auxLen && d.auxLen ≤ 72, out := d.srcLen }
  | _ => { specNone d with
      param := ff1Param, key := true, src := true, dst := true, aux := d.auxLen ≠ 0 || d.aux ≠ 0
      lens := ff1Len && d.auxLen ≤ 32, out := d.srcLen }

/-- Access-code opcodes (R193-R196). -/
def specCode (d : Desc) : OpSpec :=
  let otp : Bool := bits d.param 15 6 = 0 && 6 ≤ bits d.param 3 0 && bits d.param 3 0 ≤ 8 && bits d.param 5 4 ≤ 2
  let withAux (p : Bool) (n : Nat) : OpSpec := { specNone d with param := p, key := true, aux := true, lens := d.auxLen = n }
  match d.opcode with
  | 0x0801 => { specNone d with param := otp, key := true }
  | 0x0802 => withAux otp 8
  | 0x0803 => withAux otp 16
  | 0x0804 => withAux otp 28
  | 0x0805 => { specNone d with key := true, src := true, dst := true, lens := d.srcLen = 48 }
  | 0x0806 => withAux (6 ≤ d.param && d.param ≤ 10) 32
  | _ => withAux (6 ≤ d.param && d.param ≤ 10) 48

/-- Key-management opcodes (R132, R134, R158, R159, R205, R206, R309, R321). -/
def specKey (d : Desc) : OpSpec :=
  match d.opcode with
  | 0x0101 => { specNone d with aux := true, lens := d.auxLen = 64 }
  | 0x0102 => { specNone d with
      param := d.param ≤ 3, aux := true, src := bit d.param 1, dst := bit d.param 0, lens := d.auxLen = 64 }
  | 0x0103 => { specNone d with
      param := 1 ≤ d.param && d.param ≤ 4, key := true, src := true, aux := d.param ≠ 2 || d.auxLen ≠ 0
      lens := d.auxLen = 64 || (d.param = 2 && d.auxLen = 0) }
  | 0x0104 => { specNone d with key := true, src := true, aux := true, lens := d.auxLen = 64 }
  | 0x0105 => { specNone d with param := 1 ≤ d.param && d.param ≤ 4, key := true, key2 := true, dst := true }
  | 0x0106 => { specNone d with key := true, key2 := true, dst := true, aux := true, lens := d.auxLen = 8 }
  | 0x0107 => { specNone d with
      param := 1 ≤ d.param && d.param ≤ 4, key := true, src := true, aux := true, lens := d.auxLen = 64 && d.srcLen ≤ 1024 }
  | 0x0108 => { specNone d with key := true }
  | 0x0109 => { specNone d with key := true, dst := true, out := 128 }
  | 0x010A => { specNone d with key := true, aux := true, lens := d.auxLen = 48 }
  | 0x010B => { specNone d with param := d.param ≤ 1, aux := true, dst := true, lens := d.auxLen = 16 }
  | 0x010C => { specNone d with key := true, aux := true, lens := d.auxLen = 8 }
  | 0x010D => { specNone d with key := true, aux := true, lens := d.auxLen = 8 }
  | 0x010E => { specNone d with key2 := true, aux := true, dst := true, lens := d.auxLen = 8, out := 32 }
  | 0x010F => { specNone d with
      param := d.param ≤ 1, key2 := true, src := true, dst := d.param = 1, lens := 32 ≤ d.srcLen }
  | 0x0110 => { specNone d with
      param := 2 ≤ d.param && d.param ≤ 8, src := true, aux := true, lens := d.auxLen = 72 + 8 * d.param }
  | 0x0111 => { specNone d with key := true, dst := true }
  | _ => { specNone d with
      param := bits d.param 15 9 = 0, aux := true, dst := true, lens := d.auxLen = 64, out := 144 }

/-! ## Public-key descriptors (R207-R209) -/

/-- Fields of PARAM. -/
def pVar (d : Desc) : Nat := bits d.param 15 12
def pHash (d : Desc) : Nat := bits d.param 11 8
def pComb (d : Desc) : Bool := bit d.param 4
def pDer (d : Desc) : Bool := bit d.param 3
def pDet (d : Desc) : Bool := bit d.param 2
def pPre (d : Desc) : Bool := bit d.param 1
def pInl (d : Desc) : Bool := bit d.param 0

/-- Size of a public key in the encoding of R202. -/
def pkLen (alg : Nat) : Nat :=
  match alg with
  | 0x0101 => 65 | 0x0102 => 97 | 0x0110 => 32 | 0x0111 => 32
  | 0x0201 => 264 | 0x0202 => 392 | 0x0203 => 520
  | 0x0301 | 0x0302 | 0x0303 => kemEkLen alg
  | 0x0311 | 0x0312 | 0x0313 => dsaPkLen alg
  | 0x0321 | 0x0322 => 32
  | _ => 0

/-- The families of R202. -/
def algEc (a : Nat) : Bool := a = 0x0101 || a = 0x0102
def algRsa (a : Nat) : Bool := a = 0x0201 || a = 0x0202 || a = 0x0203
def algKem (a : Nat) : Bool := a = 0x0301 || a = 0x0302 || a = 0x0303
def algDsa (a : Nat) : Bool := a = 0x0311 || a = 0x0312 || a = 0x0313
def algSlh (a : Nat) : Bool := a = 0x0321 || a = 0x0322
def algAsym (a : Nat) : Bool := pkLen a ≠ 0

/-- The ALG values that an opcode of class 0x03xx accepts. -/
def pkeAlg (op alg : Nat) : Bool :=
  match op with
  | 0x0301 | 0x0302 => algEc alg
  | 0x0303 | 0x0304 => alg = 0x0110
  | 0x0305 => algEc alg || alg = 0x0111
  | 0x0306 | 0x0307 => algRsa alg
  | 0x0308 | 0x0309 => algKem alg
  | 0x030A | 0x030B => algDsa alg
  | 0x030C | 0x030D => algSlh alg
  | 0x030F => algEc alg || alg = 0x0110 || algRsa alg || algDsa alg || algSlh alg
  | _ => false

/-- The PARAM bits that an opcode accepts, as a mask. -/
def pkeMask (op : Nat) : Nat :=
  match op with
  | 0x0301 => 0x0F0E | 0x0302 => 0x0F0B | 0x0303 => 0xFF02 | 0x0304 => 0xFF03 | 0x0305 => 0xF000 | 0x0306 => 0xFF02
  | 0x0307 => 0xFF03 | 0x0308 => 0x0011 | 0x0309 => 0x0010 | 0x030A => 0x0F06 | 0x030B => 0x0F03 | 0x030C => 0x0F06
  | 0x030D => 0x0F03 | 0x030E => 0xF001 | _ => 0xFF00

/-- HASH, VARIANT and the rest of PARAM agree with the opcode (R209-R214). -/
def pkeParamOk (d : Desc) : Bool :=
  let h := pHash d
  let six : Bool := (2 ≤ h && h ≤ 4) || (9 ≤ h && h ≤ 11)
  Nat.land d.param (pkeMask d.opcode) = d.param &&
  match d.opcode with
  | 0x0301 | 0x0302 => six
  | 0x0303 | 0x0304 => pVar d ≤ 2 && (if pVar d = 2 then h = 4 else h = 0 && !(pPre d))
  | 0x0305 => pVar d ≤ 1
  | 0x0306 | 0x0307 => 1 ≤ pVar d && pVar d ≤ 3 && 2 ≤ h && h ≤ 4 && (pVar d ≠ 3 || !(pPre d))
  | 0x030A | 0x030B | 0x030C | 0x030D => if pPre d then six else h = 0
  | 0x030E => 1 ≤ pVar d && pVar d ≤ 3 && pInl d
  | 0x030F => six && pVar d ≤ 2
  | _ => true

/-- Public-key opcodes (R209). -/
def specPke (d : Desc) : OpSpec :=
  let op := d.opcode
  let inl := pInl d && op ≠ 0x0309
  let eph : Bool := op = 0x0305 && pVar d = 1
  let h := pHash d
  let msgOk : Bool := if pPre d then d.srcLen = hashSize (if op = 0x0303 || op = 0x0304 then 4 else h) else d.srcLen ≤ 65536
  let hasSrc : Bool := op ≠ 0x0305 && op ≠ 0x0308
  let hasDst : Bool :=
    match op with
    | 0x0301 | 0x0303 | 0x0306 | 0x0308 | 0x030A | 0x030C => true
    | 0x0305 => eph
    | 0x0307 => pVar d = 3
    | 0x030F => d.dstLen ≠ 0 || d.dst ≠ 0
    | _ => false
  let optOk : Bool :=
    if op = 0x030E then d.opt = pVar d else if eph then pkeAlg op d.opt else if inl then pkeAlg op d.opt else d.opt = 0
  { specNone d with
    param := pkeParamOk d, opt := optOk
    key := !inl && !eph
    key2 := (op = 0x0308 || op = 0x0309) && pComb d
    src := hasSrc, dst := hasDst, aux := true
    lens := 8 ≤ d.auxLen && (!hasSrc || op = 0x0306 && pVar d = 3 || op = 0x0307 && pVar d = 3 || op = 0x0309 || op = 0x030F || msgOk)
    out := if eph then pkLen d.opt else if op = 0x0303 then 64 else if op = 0x0308 && inl then kemCtLen d.opt
      else if op = 0x030F && hasDst then hashSize h else 0 }

/-- The parser's view of a descriptor. -/
def opSpec (d : Desc) : OpSpec :=
  let c := d.opcode / 256
  if c = 1 then specKey d
  else if c = 2 then
    if d.opcode ≤ 0x0208 then specCipher d
    else { specNone d with key := true, key2 := true, src := true, dst := true, lens := d.srcLen = 128, out := 128 }
  else if c = 3 then specPke d
  else if c = 4 then specHash d
  else if c = 5 then specRandom d
  else if c = 6 || c = 7 then specPay d
  else specCode d

/-- The byte offset of the first reserved or unused field that is not zero, or field whose value is invalid (R89 step
3); ORDERED belongs to PYP 2.2 alone (R98). A ticket uses AUX_ADDR, which places it (R88), but with the random opcodes, whose AUX is
zero and one of which has every other field zero too (R238, R239). -/
def fieldFault (minor : Nat) (d : Desc) : Option Nat :=
  let random : Bool := d.opcode = 0x0501 || d.opcode = 0x0502
  let fl : Bool := Nat.land d.flags 0x37 = d.flags && (!(bit d.flags flORDERED) || 2 ≤ minor)
  if opFirmware d.opcode then (if !fl then some 0x02 else if d.rsvd ≠ 0 then some 0x3E else none)
  else
    let s := opSpec d
    let bad (off : Nat) (b : Bool) : List Nat := if b then [off] else []
    (bad 0x02 (!fl) ++ bad 0x06 (!s.param) ++ bad 0x08 (!s.key && d.key ≠ 0) ++ bad 0x10 (!s.key2 && d.key2 ≠ 0)
      ++ bad 0x18 (!s.src && d.src ≠ 0) ++ bad 0x20 (!s.dst && d.dst ≠ 0) ++ bad 0x28 (!s.src && d.srcLen ≠ 0)
      ++ bad 0x2C (!s.dst && d.dstLen ≠ 0) ++ bad 0x30 (!s.aux && d.aux ≠ 0 && (d.ticketLen = 0 || random)) ++ bad 0x38 (!s.aux && d.auxLen ≠ 0)
      ++ bad 0x3A (!s.opt) ++ bad 0x3C (d.opcode = 0x0502 && d.ticketLen ≠ 0) ++ bad 0x3E (d.rsvd ≠ 0)).head?

/-- The first status of R89 that applies to a translated descriptor: status, INFO and RESULT1. -/
def descFault (minor : Nat) (d : Desc) : Option (Nat × Nat × Nat) :=
  if !(opKnown d.opcode) then some (stBAD_OPCODE, 0, 0)
  else if minor < opMinor d.opcode then some (stBAD_VERSION, 0, 0)
  else match fieldFault minor d with
    | some off => some (stBAD_DESCRIPTOR, off, 0)
    | none =>
      if opFirmware d.opcode then none
      else
        let s := opSpec d
        if !s.lens then some (stBAD_LENGTH, 0, 0)
        else if d.dstLen < s.out then some (stBUFFER_TOO_SMALL, 0, s.out)
        else none

end Sys2Proof.Machine
end

