-- ==== Sys2Proof/Machine/Keys.lean ====
section
/-! DEFINITION. What the key opcodes share: public keys and check values, creation templates and their faults, the rules
of derived children, and fresh key material (R113-R118, R131-R135, R202-R205). -/

namespace Sys2Proof.Machine

/-! ## Results -/

/-- A command that ends without effect: STATUS and INFO (R91). -/
def failed (st info : Nat) : Result := ⟨st, info, 0, 0, [], 0, [], [], []⟩

/-- A command that completes with output. -/
def okOut (out : Bytes) : Result := ⟨stOK, 0, 0, 0, out, out.length, [], [], []⟩

/-- A command that completes with results. -/
def okRes (r0 r1 : Nat) : Result := ⟨stOK, 0, r0, r1, [], 0, [], [], []⟩

/-- How the run of an operation ends: finished, or waiting for a resource. -/
inductive OpOut where
  | done (r : Result) (d : Dev)
  | wait (d : Dev)

/-- An operation: a command with its data, run on the block. -/
abbrev OpFn := Cmd → Dev → OpOut

/-! ## Public keys and check values (R114, R202) -/

/-- The public key of asymmetric material in the encoding of R202. -/
def pubOf (alg : Nat) (pubOnly : Bool) (mat : Bytes) : Bytes :=
  if pubOnly then mat
  else if algEc alg then [0x04] ++ mat.drop (curveOf alg).size
  else if alg = 0x0110 || alg = 0x0111 then mat.drop 32
  else if algRsa alg then mat.take (8 + rsaK alg)
  else if algKem alg then (kemKeys alg (mat.take 32)).2
  else if algDsa alg then dsaPub alg mat
  else mat.drop 32

/-- The key check value (R114). -/
def kcvOf (alg : Nat) (pubOnly : Bool) (mat : Bytes) : Bytes :=
  if algAsym alg then (sha256 (pubOf alg pubOnly mat)).take 3
  else if algAes alg then (aesCmac mat (zeros 16)).take 3
  else if alg = 0x0014 || alg = 0x0015 then (aesCmac (mat.take (mat.length / 2)) (zeros 16)).take 3
  else if alg = 0x0018 then (tdesEnc mat (zeros 8)).take 3
  else (sha256 mat).take 3

/-- The check value of a record as a result carries it. -/
def kcvNat (k : KeyRec) : Nat := beNat k.kcv

/-- A public key from outside passes the check of R203. -/
def pubKeyOk (alg : Nat) (pk : Bytes) : Bool :=
  pk.length = pkLen alg &&
  if algEc alg then (ecDecode (curveOf alg) pk).isSome
  else if alg = 0x0110 then (edDecode pk).isSome
  else if algRsa alg then rsaPubOk (rsaPubOf alg pk)
  else if algKem alg then kemEkOk alg pk
  else true

/-- Material that an import accepts (R115, R135): its length, unequal XTS halves, consistent RSA components. -/
def matOk (alg : Nat) (mat : Bytes) : Bool :=
  match algRow alg with
  | none => false
  | some r =>
    r.lo ≤ mat.length && mat.length ≤ r.hi
      && (!(alg = 0x0014 || alg = 0x0015) || mat.take (mat.length / 2) ≠ mat.drop (mat.length / 2))
      && (!(algRsa alg) || rsaConsistent alg mat)

/-! ## Templates (R131) -/

/-- A creation template. -/
structure Tmpl where
  alg : Nat
  cls : Nat
  qc : Nat
  tflags : Nat
  r5 : Nat
  attr : Nat
  limit : Nat
  life : Nat
  label : Bytes
  rsaE : Nat
  r38 : Nat
deriving DecidableEq, Repr

/-- The template in 64 bytes. -/
def tmplOf (b : Bytes) : Tmpl :=
  { alg := leAt b 0 2, cls := leAt b 2 1, qc := leAt b 3 1, tflags := leAt b 4 1, r5 := leAt b 5 3, attr := leAt b 8 8
    limit := leAt b 0x10 8, life := leAt b 0x18 8, label := slice b 0x20 16, rsaE := leAt b 0x30 8, r38 := leAt b 0x38 8 }

/-- The 64 bytes of a template. -/
def tmplBytes (t : Tmpl) : Bytes :=
  leBytes 2 t.alg ++ leBytes 1 t.cls ++ leBytes 1 t.qc ++ leBytes 1 t.tflags ++ leBytes 3 t.r5 ++ leBytes 8 t.attr
    ++ leBytes 8 t.limit ++ leBytes 8 t.life ++ fitTo 16 t.label ++ leBytes 8 t.rsaE ++ leBytes 8 t.r38

/-- The lowest offset among the fields that the failing conditions name (R131). alg is the algorithm of the key to be
created; algOk, clsOk and eOk say whether ALG, CLASS and RSA_E suit the opcode. -/
def tmplFault (t : Tmpl) (alg : Nat) (pubOnly algOk clsOk eOk : Bool) : Option Nat :=
  let bad (off : Nat) (b : Bool) : List Nat := if b then [off] else []
  let attrBad : Bool := (attrFault alg pubOnly t.cls t.qc t.attr t.limit t.life).isSome
    || (!(bit t.attr atUSAGE_LIMITED) && t.limit ≠ 0)
  (bad 0x00 (!algOk) ++ bad 0x02 (2 < t.cls || !clsOk) ++ bad 0x03 (31 < t.qc && t.qc ≠ 0xFF) ++ bad 0x04 (t.tflags ≠ 0)
    ++ bad 0x05 (t.r5 ≠ 0) ++ bad 0x08 (algOk && attrBad) ++ bad 0x30 (!eOk) ++ bad 0x38 (t.r38 ≠ 0)).head?

/-- A record as a template asks for it, its handle and EXPIRES to be given at release. -/
def recOf (t : Tmpl) (alg attr : Nat) (pubOnly : Bool) (mat : Bytes) (parent : Nat) (encLock : Bool) : KeyRec :=
  { alg := alg, handle := 0, encLock := encLock, persisted := false, damaged := false, pubOnly := pubOnly, attr := attr
    used := 0, limit := t.limit, resv := 0, nonce := 0, nonceResv := 0, expires := 0, parent := parent, qc := t.qc
    exts := [], grants := [], label := t.label, mat := mat, kcv := kcvOf alg pubOnly mat, life := t.life }

/-- Result of a command that creates one key (R132). -/
def created (c : Cmd) (t : Tmpl) (k : KeyRec) (out : Bytes) : Result :=
  { okOut out with r1 := kcvNat k, effects := [.create k t.cls c.inst t.life true none] }

/-- The device's bits of a key generated inside (R117). -/
def attrLocal : Nat := 2 ^ atLOCAL + 2 ^ atNEVER_EXPORTED

/-- Bits of a mask taken from another word. -/
def withBits (v mask x : Nat) : Nat := v - Nat.land v mask + Nat.land x mask

/-- The attributes of a derived child: TRUSTED_WRAP_ONLY, CUSTODY_QUORUM, LOCAL and NEVER_EXPORTED are its parent's
(R132). -/
def childAttr (parent at' : Nat) : Nat :=
  withBits at' (2 ^ atTRUSTED_ONLY + 2 ^ atCUSTODY + attrLocal) parent

/-- The fault of a derived child's template against its parent (R132), as an offset. -/
def childFault (p : KeyRec) (t : Tmpl) : Option Nat :=
  if t.cls = 0 && hClass p.handle ≠ 0 then some 0x02
  else if bit t.attr atEXPORTABLE && !(bit p.attr atEXPORTABLE) then some 0x08
  else if bit p.attr atCUSTODY && 31 < t.qc then some 0x08
  else none

/-- Length of the material that an opcode generates or derives for a symmetric algorithm (R115); a generic secret's is
not stated. -/
def symLen (alg op : Nat) : Nat :=
  if alg = 0x0020 then 16 + Config.secretLenSeed op % 113 else ((algRow alg).map (·.lo)).getD 0

/-- ALG 0x0010 to 0x0020 of R115. -/
def algSym (a : Nat) : Bool := algAes a || a = 0x0014 || a = 0x0015 || a = 0x0018 || a = 0x0020

/-! ## Handles of a command -/

/-- The record admitted for a handle, as it stood at the policy check (R95). -/
def kOf (c : Cmd) (h : Nat) : Option KeyRec := c.keys.find? (fun k => k.handle = h)

/-- KEY_HANDLE's and KEY2_HANDLE's records; a key of no algorithm stands for a handle that is not there. -/
def noKey : KeyRec :=
  { alg := 0, handle := 0, encLock := false, persisted := false, damaged := false, pubOnly := false, attr := 0, used := 0
    limit := 0, resv := 0, nonce := 0, nonceResv := 0, expires := 0, parent := 0, qc := 0xFF, exts := [], grants := []
    label := [], mat := [], kcv := [], life := 0 }

def key1 (c : Cmd) : KeyRec := (kOf c c.desc.key).getD noKey
def key2 (c : Cmd) : KeyRec := (kOf c c.desc.key2).getD noKey

/-- Source and auxiliary block. -/
def srcOf (c : Cmd) : Bytes := c.src.getD []
def auxOf (c : Cmd) : Bytes := c.aux.getD []

/-! ## Random bytes for a command -/

/-- Home quarter of a submission queue (R11). -/
def homeQuarter (inst q : Nat) : Nat := (16 * inst + q) % 4

/-- The quarter of a unit by its class 3 index (R3, R165, R181, R200). -/
def unitQuarter (i : Nat) : Nat :=
  if i < 16 then i / 4 else if i < 20 then i - 16 else if i < 28 then (i - 20) / 2 else 0

/-- The quarter whose DRBG serves a command: its unit's, else its home quarter or the next that is ON (R217, R236). -/
def cmdQuarter (c : Cmd) (d : Dev) : Nat :=
  match c.unit with
  | some u => if u < 28 then unitQuarter u else (nextOn d (homeQuarter c.inst c.sq)).getD c.quarter
  | none => (nextOn d (homeQuarter c.inst c.sq)).getD c.quarter

/-- A unit by its class 3 index. -/
def unitOf (d : Dev) (i : Nat) : Unit' := smapGet unitReset d.units i

/-- Changes a unit. -/
def modUnit (i : Nat) (f : Unit' → Unit') (d : Dev) : Dev := { d with units := smapSet unitReset d.units i (f (unitOf d i)) }

/-- The reader that a command is (R236): the unit of its job port, or itself by its TAG. -/
def readerOf (c : Cmd) : Reader := if c.tag = 0 then .unit (c.unit.getD 28) else .cmd c.tag

/-- Draws n bytes for a command by a stalling read, and goes on with them; a read that ends with an error completes the
command with ENTROPY_UNAVAILABLE (R165, R218). RANDOM_BYTES yields to the others, and may ask for prediction resistance (R236, R238). -/
def withRandom (c : Cmd) (n : Nat) (d : Dev) (go : Bytes → Dev → OpOut) : OpOut :=
  let soft : Bool := c.desc.opcode = 0x0501
  match drawFor (readerOf c) soft (soft && bit c.desc.param 0) (cmdQuarter c d) n d with
  | .got b d => go b d
  | .wait d => .wait d
  | .err d => .done (failed stENTROPY 0) d

/-- Goes on with a command once its lane has its masking randomness, drawn from the DRBG of its quarter; how much is a free value
(R165). -/
def withMask (c : Cmd) (d : Dev) (go : Dev → OpOut) : OpOut :=
  let n := d.ent.masks.head?.getD 1
  match drawFor (readerOf c) false false (cmdQuarter c d) n { d with ent := { d.ent with masks := d.ent.masks.tail } } with
  | .got _ d => go d
  | .wait d => .wait d
  | .err d => .done (failed stENTROPY 0) d

/-- What an operation of a command has drawn (R223, R236): where it waits it will begin anew, and its reads, with the free amounts of its
masks, are as it found them, each read that has ended being ready for it; where it is done its reads are over, and an engine counts
them. d0 is the state in which it began. -/
def opReads (c : Cmd) (d0 : Dev) : OpOut → OpOut
  | .wait d => .wait (readsAgain (cmdQuarter c d0) (readerOf c) { d with ent := { d.ent with masks := d0.ent.masks } })
  | .done r d =>
    let q := cmdQuarter c d0
    let n := readsTaken d q (readerOf c)
    let d := readsOver q (readerOf c) d
    .done r (match c.unit with
      | some u => if 20 ≤ u && u < 28 then modUnit u (fun x => { x with drawn := x.drawn + n }) d else d
      | none => d)

/-- The masking randomness of one data unit on a lane (R165, R166), a read of its own (R236). -/
def laneMask (tag lane : Nat) (d : Dev) : Draw :=
  let q := unitQuarter lane
  match drawFor (.lane tag lane) false false q (d.ent.masks.head?.getD 1) { d with ent := { d.ent with masks := d.ent.masks.tail } } with
  | .got b x => .got b (readsOver q (.lane tag lane) x)
  | .wait x => .wait { x with ent := { x.ent with masks := d.ent.masks } }
  | .err x => .err x

/-! ## Generated pairs (R205, R217) -/

/-- Bytes drawn by a key generation. -/
def genDraw (alg : Nat) : Nat :=
  match alg with
  | 0x0101 => 80 | 0x0102 => 112 | 0x0110 | 0x0111 => 64
  | 0x0201 => 1536 | 0x0202 => 2304 | 0x0203 => 3072
  | 0x0301 | 0x0302 | 0x0303 => 192
  | 0x0311 | 0x0312 | 0x0313 => 160
  | _ => 112

/-- An odd candidate of a prime of n bytes with its two top bits set. -/
def primeStart (b : Bytes) (n : Nat) : Nat :=
  let x := setBits (beNat (b.take n)) (8 * n - 1) (8 * n - 2) 3
  if x % 2 = 0 then x + 1 else x

/-- Key material from random bytes, which stand first in the bytes drawn; none where the search for primes is abandoned
(R205, R222). -/
def genMat (alg e : Nat) (b : Bytes) : Option Bytes :=
  if algEc alg then
    let c := curveOf alg
    let s := 1 + beNat (b.take c.size) % (c.n - 1)
    let q := ecPub c s
    some (beBytes c.size s ++ beBytes c.size q.1 ++ beBytes c.size q.2)
  else if alg = 0x0110 then some (b.take 32 ++ edPub (b.take 32))
  else if alg = 0x0111 then some (b.take 32 ++ xPub (b.take 32))
  else if algRsa alg then
    let n := rsaK alg / 2
    match nextPrime e 20000 (primeStart b n) with
    | none => none
    | some p => match nextPrime e 20000 (primeStart (b.drop n) n) with
      | none => none
      | some q => if p = q then none else some (rsaMaterial alg e (max p q) (min p q))
  else if algKem alg then some (b.take 64)
  else if algDsa alg then some (b.take 32)
  else some (b.take 48 ++ slhRoot alg (b.take 16) (slice b 32 16))

end Sys2Proof.Machine
end

