-- ==== Sys2Proof/Machine/SymOps.lean ====
section
/-! DEFINITION. What cipher lanes compute: block ciphers and their modes, keys derived in the lane, nonces drawn by the
device, contexts of segmented messages (R165-R180). -/

namespace Sys2Proof.Machine

/-! ## Keys of a lane (R176) -/

/-- The working key: the stored key, or one derived in the lane when DLABEL_LEN is nonzero (R176). -/
def laneKey (d : Desc) (aux mat : Bytes) (labelAt : Nat) : Bytes :=
  if oLabel d = 0 then mat
  else kdfCounter (aesCmac mat) 16 (ascii "ADK-LANE") (slice aux labelAt (oLabel d)) mat.length

/-- Forward cipher of an algorithm under a key. -/
def encFn (alg : Nat) (key : Bytes) : Bytes → Bytes :=
  if alg = 0x0018 then tdesEnc key else let ks := aesKeys key; fun b => aesEncKeys ks b

/-- Inverse cipher. -/
def decFn (alg : Nat) (key : Bytes) : Bytes → Bytes :=
  if alg = 0x0018 then tdesDec key else let ks := aesKeys key; fun b => aesDecKeys ks b

/-- Block size. -/
def blkLen (alg : Nat) : Nat := if alg = 0x0018 then 8 else 16

/-! ## Counters drawn from a key (R173, R174, R193) -/

/-- How a draw from a key's counter ends. -/
inductive CtrDraw where
  | got (v : Nat) (d : Dev)
  | wait (d : Dev)
  | fail (st : Nat) (d : Dev)

/-- A raise of NONCE_RESV is requested unless one is already (R174). -/
def askRaise (n new : Nat) (epoch : Option Nat) (d : Dev) : Dev :=
  match smapGet noneAt d.key.nonceRaise n with
  | some _ => d
  | none => modKey (fun k => { k with nonceRaise := smapSet noneAt k.nonceRaise n (some (min new (2 ^ 64 - 1), epoch)) }) d

/-- Whether a key's reservations may not be raised: a persistent key while the vault is read-only (R127, R174). -/
def raiseBarred (d : Dev) (k : KeyRec) : Bool := hClass k.handle = 0 && !(vaultWritable d)

/-- A draw: the pointer's value while it is below NONCE_RESV (R174). -/
def drawCounter (n : Nat) (epoch : Option Nat) (d : Dev) : CtrDraw :=
  match keyAt d n, residentOf d n with
  | some k, some r =>
    let v := r.ptr
    if 2 ^ 64 - 2 ^ 24 < v then .fail stUSAGE d
    else if v < k.nonceResv then
      let d := modKey (fun s => { s with resident := smapSet noneAt s.resident n (some { r with ptr := v + 1 }) }) d
      .got v (if k.nonceResv ≤ v + 2 ^ 22 && !(raiseBarred d k) then askRaise n (k.nonceResv + 2 ^ 24) epoch d else d)
    else if raiseBarred d k then .fail stVAULT_RO d
    else .wait (askRaise n (k.nonceResv + 2 ^ 24) epoch d)
  | _, _ => .wait d

/-- Whether a command that needs a key runs with a ROM key: none of its keys was admitted at a policy check (R198). -/
def romRun (c : Cmd) : Bool := c.counted.isEmpty

/-- Draws a counter value for a command's KEY_HANDLE and goes on with it; a ROM key has no counter to draw from (R198). -/
def withCounter (c : Cmd) (d : Dev) (go : Nat → Dev → OpOut) : OpOut :=
  if romRun c then go (Config.romCounter c.desc.key % 2 ^ 64) d
  else match drawCounter (hRec c.desc.key) c.epoch d with
  | .got v d => go v d
  | .wait d => .wait d
  | .fail st d => .done (failed st 0) d

/-- Output that does not fit: BUFFER_TOO_SMALL with the length needed (R89). -/
def tooSmall (need : Nat) : Result := { failed stBUFFER_TOO_SMALL 0 with r1 := need }

/-- Goes on where the output area holds n bytes. -/
def needRoom (c : Cmd) (n : Nat) (d : Dev) (go : OpOut) : OpOut := if c.desc.dstLen < n then .done (tooSmall n) d else go

/-! ## Contexts (R178, R179) -/

/-- The inner 48 bytes of a context: chaining or counter block, GHASH accumulator, digest of the derivation label. -/
structure CtxBody where
  chain : Bytes
  acc : Nat
  label : Bytes
deriving DecidableEq, Repr

/-- Counts carried by a context. -/
structure CtxHead where
  kind : Nat
  op : Nat
  param : Nat
  inst : Nat
  key : Nat
  len : Nat
  aad : Nat
  seq : Nat
  wrapId : Nat
deriving DecidableEq, Repr

/-- Bytes 0x00-0x3F of a context. -/
def ctxHeadBytes (h : CtxHead) (iv : Bytes) : Bytes :=
  [0x01] ++ leBytes 1 h.kind ++ leBytes 2 h.op ++ leBytes 2 h.param ++ leBytes 2 h.inst ++ leBytes 8 h.key ++ leBytes 8 h.len
    ++ leBytes 8 h.aad ++ leBytes 8 h.seq ++ leBytes 8 h.wrapId ++ fitTo 12 iv ++ zeros 4

/-- STATE in clear. -/
def ctxBodyBytes (b : CtxBody) : Bytes := fitTo 16 b.chain ++ beBytes 16 b.acc ++ fitTo 16 b.label

/-- A context wrapped under a key, or clear (KIND 0x03). -/
def ctxSeal (key iv : Bytes) (h : CtxHead) (b : CtxBody) : Bytes :=
  if h.kind = 3 then ctxHeadBytes h (zeros 12) ++ ctxBodyBytes b ++ zeros 16
  else
    let r := gcmEnc (encFn 0x0012 key) iv (ctxHeadBytes h iv) (ctxBodyBytes b)
    ctxHeadBytes h iv ++ r.1 ++ r.2

/-- The header of a presented context. -/
def ctxHeadOf (b : Bytes) : CtxHead :=
  { kind := leAt b 1 1, op := leAt b 2 2, param := leAt b 4 2, inst := leAt b 6 2, key := leAt b 8 8, len := leAt b 0x10 8
    aad := leAt b 0x18 8, seq := leAt b 0x20 8, wrapId := leAt b 0x28 8 }

/-- STATE of a presented context, none where its tag does not verify (R179 step 3). -/
def ctxOpen (key b : Bytes) : Option CtxBody :=
  let kind := leAt b 1 1
  let clear := slice b 0x40 48
  let st : Option Bytes :=
    if kind = 3 then (if slice b 0x30 12 = zeros 12 && slice b 0x70 16 = zeros 16 then some clear else none)
    else
      let r := gcmDec (encFn 0x0012 key) (slice b 0x30 12) (b.take 0x40) clear
      if r.2 = slice b 0x70 16 then some r.1 else none
  st.map (fun s => ⟨slice s 0 16, beNat (slice s 16 16), slice s 32 16⟩)

/-- Leftmost 16 bytes of the SHA-256 of the derivation label; zeros without one. -/
def labelDigest (d : Desc) (aux : Bytes) : Bytes :=
  if oLabel d = 0 then zeros 16 else (sha256 (slice aux (labelOff d) (oLabel d))).take 16

/-- PARAM with SEG zero. -/
def paramNoSeg (p : Nat) : Nat := setBits p 3 2 0

/-- K_CTX (R178). -/
def kCtxOf (d : Dev) : Bytes := d.cmd.kCtx.getD (zeros 32)

/-- Whether a command is a job of a port: its TAG is 0, which no queued command has (R99, R198). -/
def isJob (c : Cmd) : Bool := c.tag = 0

/-- The checks of R179 on a presented context: status and INFO, or its counts and state. secureAux says that the auxiliary
block of a job lies in secure memory. -/
def ctxCheck (c : Cmd) (secureAux : Bool) (kCtx : Bytes) : Except Denial (CtxHead × CtxBody) :=
  let d := c.desc
  let b := slice (auxOf c) (ctxOff d) 128
  let h := ctxHeadOf b
  if leAt b 0 1 ≠ 1 then .error (stBAD_VERSION, 0x0100 + ctxOff d)
  else if !(h.kind = 1 || (h.kind = 3 && isJob c && secureAux)) then .error (stBAD_DESCRIPTOR, 0x0100 + ctxOff d + 1)
  else match ctxOpen kCtx b with
    | none => .error (stBAD_DESCRIPTOR, 0x0180)
    | some s =>
      if h.op ≠ d.opcode then .error (stBAD_DESCRIPTOR, 0x0100 + ctxOff d + 2)
      else if h.param ≠ paramNoSeg d.param then .error (stBAD_DESCRIPTOR, 0x0100 + ctxOff d + 4)
      else if h.inst ≠ c.inst then .error (stBAD_DESCRIPTOR, 0x0100 + ctxOff d + 6)
      else if h.key ≠ d.key then .error (stBAD_DESCRIPTOR, 0x0100 + ctxOff d + 8)
      else if s.label ≠ labelDigest d (auxOf c) then .error (stBAD_DESCRIPTOR, 0x0100 + ctxOff d + 0x60)
      else .ok (h, s)

/-! ## Modes -/

/-- Output of one pass of a mode over a segment, and the chaining state after it. -/
structure Pass where
  out : Bytes
  chain : Bytes
  acc : Nat

/-- A counter of w bits after a block would start over before n blocks end (R171). -/
def ctrWraps (w : Nat) (ctr : Bytes) (n : Nat) : Bool := 2 ^ w < beNat ctr % 2 ^ w + n

/-- Counter width of a CTR descriptor (R168). -/
def ctrWidth (d : Desc) : Nat := if pArg d = 0 then 128 else if pArg d = 1 then 64 else 32

/-- One pass of ECB, CBC or CTR. -/
def passBlock (alg : Nat) (key : Bytes) (d : Desc) (chain src : Bytes) : Pass :=
  let n := blkLen alg
  let op := d.opcode
  if op = 0x0201 || op = 0x0207 then ⟨ecbWith n (if pDec d then decFn alg key else encFn alg key) src, zeros 16, 0⟩
  else if op = 0x0202 || op = 0x0208 then
    let r := if pDec d then cbcDec n (decFn alg key) (chain.take n) src else cbcEnc n (encFn alg key) (chain.take n) src
    ⟨r.1, r.2, 0⟩
  else
    let r := ctrWith (ctrWidth d) (encFn alg key) chain src
    ⟨r.1, r.2, 0⟩

/-- One pass of GCM over message bytes. -/
def passGcm (key : Bytes) (dec : Bool) (chain : Bytes) (acc : Nat) (src : Bytes) : Pass :=
  let f := encFn 0x0012 key
  let r := ctrWith 32 f chain src
  ⟨r.1, r.2, ghashFrom (gcmH f) acc (if dec then src else r.1)⟩

/-- AUTH_FAIL: the output area is zero-filled; a large output has streamed before (R172). -/
def authFail (c : Cmd) (plain : Bytes) : Result :=
  { failed stAUTH_FAIL 0 with out := zeros c.desc.dstLen, stream := if plain.length ≤ 65536 then [] else plain }

/-- Finishes a segment: the context is written back after a first or middle segment (R177). -/
def segDone (c : Cmd) (h : CtxHead) (s : CtxBody) (out : Bytes) (d : Dev) : OpOut :=
  if pSeg c.desc = 3 then .done (okOut out) d
  else if h.kind = 3 then .done { okOut out with auxOut := ctxSeal [] [] h s } d
  else withRandom c 12 d fun iv d => .done { okOut out with auxOut := ctxSeal (kCtxOf d) iv h s } d

/-- The context that a first segment starts from. -/
def ctxFresh (c : Cmd) (aad : Nat) : CtxHead :=
  { kind := 1, op := c.desc.opcode, param := paramNoSeg c.desc.param, inst := c.inst, key := c.desc.key, len := 0, aad := aad
    seq := 0, wrapId := 0 }

/-- Whether a job's auxiliary block lies in secure memory (R179, R198). -/
def auxSecure (c : Cmd) (d : Dev) : Bool := secureRange d c.desc.aux c.desc.auxLen

/-- ECB, CBC and CTR, whole or in segments (R170, R171, R177). -/
def opBlock (c : Cmd) (d : Dev) : OpOut :=
  withMask c d fun d =>
    let k := key1 c
    let x := c.desc
    let key := laneKey x (auxOf c) k.mat (labelOff x)
    let iv := slice (auxOf c) 0 16
    let src := srcOf c
    let blocks := (src.length + 15) / 16
    let ctr : Bool := x.opcode = 0x0203
    if pSeg x = 0 || pSeg x = 1 then
      if ctr && ctrWraps (ctrWidth x) iv blocks then .done (failed stBAD_LENGTH 0) d
      else
        let p := passBlock k.alg key x iv src
        if pSeg x = 0 then .done (okOut p.out) d
        else
          let h := ctxFresh c 0
          segDone c { h with len := src.length, seq := 1 } ⟨p.chain, 0, labelDigest x (auxOf c)⟩ p.out d
    else match ctxCheck c (auxSecure c d) (kCtxOf d) with
      | .error e => .done (failed e.1 e.2) d
      | .ok (h, s) =>
        if ctr && (ctrWraps (ctrWidth x) s.chain blocks || beNat s.chain % 2 ^ ctrWidth x = 0) then .done (failed stBAD_LENGTH 0) d
        else
          let p := passBlock k.alg key x s.chain src
          segDone c { h with len := h.len + src.length, seq := h.seq + 1 } { s with chain := p.chain } p.out d

/-- FIXED of a device-generated nonce: the lane number, or on a cluster its own, in four bits (R173, R198). -/
def nonceFixed (c : Cmd) : Nat := c.inst * 2 ^ 22 + (c.unit.getD 0) % 16 * 2 ^ 18

/-- Takes the nonce of a GCM or GMAC descriptor: from the IV area, or drawn (R173). -/
def withNonce (c : Cmd) (d : Dev) (go : Bytes → Result → Dev → OpOut) : OpOut :=
  if pNonce c.desc then
    withCounter c d fun v d =>
      go (beBytes 4 (nonceFixed c) ++ beBytes 8 v)
        { okRes v (nonceFixed c) with effects := [.nonce c.desc.key (v + 1)] } d
  else go (slice (auxOf c) 0 12) (okRes 0 0) d

/-- AES_GCM (R170-R173, R177). -/
def opGcm (c : Cmd) (d : Dev) : OpOut :=
  withMask c d fun d =>
    let k := key1 c
    let x := c.desc
    let dec := pDec x
    let key := laneKey x (auxOf c) k.mat (labelOff x)
    let f := encFn 0x0012 key
    let src := srcOf c
    let t := tagOr x 16
    let aad := slice (auxOf c) (aadOff x) (aadLen x)
    if !dec && !(pNonce x) && bit k.attr atNONCE_HW then .done (failed stPOLICY 73) d
    else match pSeg x with
    | 0 =>
      withNonce c d fun iv base d =>
        if dec then
          let body := src.take (src.length - t)
          let r := gcmDec f iv aad body
          if r.2.take t = src.drop (src.length - t) then .done (okOut r.1) d else .done (authFail c r.1) d
        else
          let r := gcmEnc f iv aad src
          let out := r.1 ++ r.2.take t
          .done { base with out := out, outLen := out.length } d
    | 1 =>
      let j0 := gcmJ0 (slice (auxOf c) 0 12)
      let p := passGcm key dec (ctrNext 32 j0) (ghashFrom (gcmH f) 0 aad) src
      let h := ctxFresh c aad.length
      segDone c { h with len := src.length, seq := 1 } ⟨p.chain, p.acc, labelDigest x (auxOf c)⟩ p.out d
    | 2 =>
      match ctxCheck c (auxSecure c d) (kCtxOf d) with
      | .error e => .done (failed e.1 e.2) d
      | .ok (h, s) =>
        let p := passGcm key dec s.chain s.acc src
        segDone c { h with len := h.len + src.length, seq := h.seq + 1 } { s with chain := p.chain, acc := p.acc } p.out d
    | _ =>
      match ctxCheck c (auxSecure c d) (kCtxOf d) with
      | .error e => .done (failed e.1 e.2) d
      | .ok (h, s) =>
        let body := if dec then src.take (src.length - t) else src
        let p := passGcm key dec s.chain s.acc body
        let tag := gcmTag f (s.chain.take 12) p.acc h.aad (h.len + body.length)
        if dec then
          if tag.take t = src.drop (src.length - t) then .done (okOut p.out) d else .done (authFail c p.out) d
        else .done (okOut (p.out ++ tag.take t)) d

/-- AES_CCM (R170, R171); of a message too long for the nonce the result is free. -/
def opCcm (c : Cmd) (d : Dev) : OpOut :=
  withMask c d fun d =>
    let x := c.desc
    let key := laneKey x (auxOf c) (key1 c).mat (labelOff x)
    let f := encFn 0x0012 key
    let src := srcOf c
    let t := tagOr x 16
    let nonce := slice (auxOf c) 0 (pArg x)
    let aad := slice (auxOf c) (aadOff x) (aadLen x)
    let body := if pDec x then src.take (src.length - t) else src
    let long : Bytes × Bytes :=
      let b := (List.range (body.length + t)).map (Config.ccmLong (pDec x) key nonce aad body)
      (b.take body.length, b.drop body.length)
    let tooLong : Bool := 2 ^ (8 * (15 - pArg x)) ≤ body.length
    if pDec x then
      let r := if tooLong then long else ccmDec f nonce aad body t
      if r.2 = src.drop (src.length - t) then .done (okOut r.1) d else .done (authFail c r.1) d
    else
      let r := if tooLong then long else ccmEnc f nonce aad src t
      .done (okOut (r.1 ++ r.2)) d

/-- Data unit size of an XTS descriptor (R168). -/
def xtsSize (d : Desc) : Nat := 512 * 2 ^ pArg d

/-- Data units of an XTS request (R166). -/
def xtsUnits (d : Desc) : Nat := d.srcLen / xtsSize d

/-- The output of data unit i of an XTS request (R166, R171). -/
def xtsOut (c : Cmd) (i : Nat) : Bytes :=
  let x := c.desc
  let mat := (key1 c).mat
  let half := mat.length / 2
  let n := xtsSize x
  let k1 := mat.take half
  let first := leNat (slice (auxOf c) 0 16)
  xtsUnit (if pDec x then decFn 0x0012 k1 else encFn 0x0012 k1) (encFn 0x0012 (mat.drop half)) ((first + i) % 2 ^ 128)
    (slice (srcOf c) (n * i) n)

/-- The data units of an XTS request that no lane has taken, done by the lane that holds the request (R166). -/
def opXts (c : Cmd) (d : Dev) : OpOut :=
  if xtsUnits c.desc ≤ c.done then .done (okOut c.part) d
  else withMask c d fun d =>
    let rest := (List.range (xtsUnits c.desc - c.done)).map (fun i => xtsOut c (c.done + i))
    .done (okOut (c.part ++ rest.flatten)) d

/-! ## CTX_SAVE and CTX_RESTORE (R180) -/

/-- The strength of the wrapping key against the message key. -/
def wrapWeak (wrap k : KeyRec) : Bool := algStrength wrap.alg wrap.mat.length < algStrength k.alg k.mat.length

/-- The checks of R179 on the context at SRC that come before its tag; kind is the KIND of the opcode's input. -/
def ctxSrcForm (c : Cmd) (kind : Nat) : Option Denial :=
  let b := srcOf c
  if leAt b 0 1 ≠ 1 then some (stBAD_VERSION, 0)
  else if leAt b 1 1 ≠ kind then some (stBAD_DESCRIPTOR, 1)
  else none

/-- Those that come after it: the fields that the descriptor of CTX_SAVE or CTX_RESTORE has too. -/
def ctxSrcFields (c : Cmd) : Option Denial :=
  let h := ctxHeadOf (srcOf c)
  if h.inst ≠ c.inst then some (stBAD_DESCRIPTOR, 6)
  else if h.key ≠ c.desc.key then some (stBAD_DESCRIPTOR, 8)
  else none

/-- CTX_SAVE: a context of this boot wrapped under a tenant key (R180). -/
def opCtxSave (c : Cmd) (d : Dev) : OpOut :=
  let w := key2 c
  if wrapWeak w (key1 c) then .done (failed stPOLICY 68) d
  else match ctxSrcForm c 1 with
    | some e => .done (failed e.1 e.2) d
    | none =>
      match ctxOpen (kCtxOf d) (srcOf c) with
      | none => .done (failed stBAD_DESCRIPTOR 0x0180) d
      | some s => match ctxSrcFields c with
        | some e => .done (failed e.1 e.2) d
        | none => withMask c d fun d => withRandom c 12 d fun iv d =>
          .done (okOut (ctxSeal w.mat iv { ctxHeadOf (srcOf c) with kind := 2, wrapId := kcvNat w } s)) d

/-- CTX_RESTORE: the reverse; WRAP_ID tells before the tag whether the key is the one that wrapped the context, and a tag that fails
zero-fills the 128 output bytes (R172, R180). -/
def opCtxRestore (c : Cmd) (d : Dev) : OpOut :=
  let w := key2 c
  if wrapWeak w (key1 c) then .done (failed stPOLICY 68) d
  else match ctxSrcForm c 2 with
    | some e => .done (failed e.1 e.2) d
    | none =>
      if (ctxHeadOf (srcOf c)).wrapId ≠ kcvNat w then .done (failed stBAD_DESCRIPTOR 0x28) d
      else match ctxOpen w.mat (srcOf c) with
        | none => .done { authFail c [] with out := zeros 128 } d
        | some s => match ctxSrcFields c with
          | some e => .done (failed e.1 e.2) d
          | none => withMask c d fun d => withRandom c 12 d fun iv d =>
            .done (okOut (ctxSeal (kCtxOf d) iv { ctxHeadOf (srcOf c) with kind := 1, wrapId := 0 } s)) d

end Sys2Proof.Machine
end

