-- ==== Sys2Proof/Machine/HashOps.lean ====
section
/-! DEFINITION. Hashes, MACs, key derivation, the TLS 1.3 key schedule and random bytes (R181-R184, R238, R239). -/

namespace Sys2Proof.Machine

/-! ## Hashes and MACs -/

/-- HASH. -/
def opHash (c : Cmd) (d : Dev) : OpOut := .done (okOut (hashRun c.desc.param (srcOf c))) d

/-- SHAKE. -/
def opShake (c : Cmd) (d : Dev) : OpOut :=
  .done (okOut (if c.desc.param = 1 then shake128 (srcOf c) c.desc.dstLen else shake256 (srcOf c) c.desc.dstLen)) d

/-- HMAC. -/
def opHmac (c : Cmd) (d : Dev) : OpOut :=
  let m := hmacCode c.desc.param (key1 c).mat (srcOf c)
  .done (okOut (m.take (tagOr c.desc m.length))) d

/-- A CMAC tag under a stored or derived key. -/
def cmacOf (c : Cmd) (labelAt : Nat) : Bytes :=
  let k := key1 c
  cmacWith (blkLen k.alg) (encFn k.alg (laneKey c.desc (auxOf c) k.mat labelAt)) (srcOf c)

/-- A tag length is too long for the cipher (R181). -/
def cmacTooLong (c : Cmd) : Bool := blkLen (key1 c).alg < oTag c.desc

/-- CMAC. -/
def opCmac (c : Cmd) (d : Dev) : OpOut :=
  withMask c d fun d =>
    if cmacTooLong c then .done (failed stBAD_DESCRIPTOR 0x3A) d
    else needRoom c (tagOr c.desc (blkLen (key1 c).alg)) d <| .done (okOut ((cmacOf c 0).take (tagOr c.desc (blkLen (key1 c).alg)))) d

/-- GMAC. -/
def opGmac (c : Cmd) (d : Dev) : OpOut :=
  withMask c d fun d =>
    let key := laneKey c.desc (auxOf c) (key1 c).mat 16
    withNonce c d fun iv base d =>
      let t := (gmacTag (encFn 0x0012 key) iv (srcOf c)).take (tagOr c.desc 16)
      .done { base with out := t, outLen := t.length } d

/-- A comparison: OK or VERIFY_FAIL (R181). -/
def verdict (ok : Bool) : Result := if ok then okRes 0 0 else failed stVERIFY_FAIL 0

/-- MAC_VERIFY. -/
def opMacVerify (c : Cmd) (d : Dev) : OpOut :=
  let x := c.desc
  let kind := bits x.param 15 12
  let labelAt := if kind = 3 then 16 else 0
  let tagAt := alignUp (labelAt + oLabel x) 8
  let given (n : Nat) : Bytes := slice (auxOf c) tagAt n
  if kind = 1 then
    let m := hmacCode (bits x.param 3 0) (key1 c).mat (srcOf c)
    let n := tagOr x m.length
    .done (verdict (m.take n == given n)) d
  else withMask c d fun d =>
    if kind = 2 then
      let n := tagOr x (blkLen (key1 c).alg)
      if cmacTooLong c then .done (failed stBAD_DESCRIPTOR 0x3A) d
      else if x.auxLen ≠ tagAt + n then .done (failed stBAD_LENGTH 0) d
      else .done (verdict ((cmacOf c labelAt).take n == given n)) d
    else
      let key := laneKey x (auxOf c) (key1 c).mat labelAt
      let n := tagOr x 16
      .done (verdict ((gmacTag (encFn 0x0012 key) (slice (auxOf c) 0 12) (srcOf c)).take n == given n)) d

/-! ## Derivation -/

/-- Result of a derivation: the child created under the rules of R132. -/
def childDone (c : Cmd) (p : KeyRec) (t : Tmpl) (alg : Nat) (mat out : Bytes) : Result :=
  match childFault p t with
  | some off => failed stBAD_DESCRIPTOR (0x0100 + off)
  | none => created c t (recOf t alg (childAttr p.attr t.attr) false mat p.handle false) out

/-- KEY_DERIVE (R132): the label input is the child's ALG and the context. -/
def opKeyDerive (c : Cmd) (d : Dev) : OpOut :=
  let p := key1 c
  let t := tmplOf (auxOf c)
  let n := symLen t.alg c.desc.opcode
  let label := leBytes 2 t.alg ++ srcOf c
  let mat := match c.desc.param with
    | 1 => kdfCounter (aesCmac p.mat) 16 label [] n
    | 2 => kdfCounter (hmac256 p.mat) 32 label [] n
    | 3 => hkdfExpand hmac256 32 (hkdfExtract hmac256 (zeros 32) p.mat) label n
    | _ => hkdfExpand hmac384 48 (hkdfExtract hmac384 (zeros 48) p.mat) label n
  .done (childDone c p t t.alg mat []) d

/-- Salt and info of an HKDF auxiliary block. -/
def hkdfSalt (a : Bytes) : Bytes := slice a 72 (leAt a 64 2)
def hkdfInfo (a : Bytes) : Bytes := slice a (72 + leAt a 64 2) (leAt a 66 2)

/-- HKDF (R182). -/
def opHkdf (c : Cmd) (d : Dev) : OpOut :=
  let p := key1 c
  let a := auxOf c
  let t := tmplOf a
  let n := symLen t.alg c.desc.opcode
  let h := c.desc.param
  let size := hashSize h
  let salt := if (hkdfSalt a).isEmpty then zeros size else hkdfSalt a
  .done (childDone c p t t.alg (hkdfExpand (hmacCode h) size (hmacCode h salt p.mat) (hkdfInfo a) n) []) d

/-- A counter-mode derivation whose fixed input is given whole (R182). -/
def kdfFixed (prf : Bytes → Bytes) (size : Nat) (fixed : Bytes) (n : Nat) : Bytes :=
  (((List.range ((n + size - 1) / size)).map (fun i => prf (beBytes 4 (i + 1) ++ fixed))).flatten).take n

/-- KDF_CTR (R181, R182). -/
def opKdfCtr (c : Cmd) (d : Dev) : OpOut :=
  let p := key1 c
  let a := auxOf c
  let t := tmplOf a
  let n := symLen t.alg c.desc.opcode
  let fixed := a.drop 64
  let mat := match c.desc.param with
    | 1 => kdfFixed (aesCmac p.mat) 16 fixed n
    | 2 => kdfFixed (hmac256 p.mat) 32 fixed n
    | 3 => kdfFixed (hmac384 p.mat) 48 fixed n
    | _ => kdfFixed (hmac512 p.mat) 64 fixed n
  .done (childDone c p t t.alg mat []) d

/-! ## TLS 1.3 (R184) -/

/-- HKDF-Expand-Label of RFC 8446. -/
def tlsLabel (hash : Nat) (secret : Bytes) (label : String) (ctx : Bytes) (n : Nat) : Bytes :=
  let l := ascii "tls13 " ++ ascii label
  hkdfExpand (hmacCode hash) (hashSize hash) secret
    (beBytes 2 n ++ [BitVec.ofNat 8 l.length] ++ l ++ [BitVec.ofNat 8 ctx.length] ++ ctx) n

/-- Derive-Secret of an empty transcript: the step between two extractions. -/
def tlsDerived (hash : Nat) (secret : Bytes) : Bytes := tlsLabel hash secret "derived" (hashRun hash []) (hashSize hash)

/-- A key that the schedule creates: its place in the output, algorithm, attributes and material. -/
structure TlsKey where
  at' : Nat
  alg : Nat
  attr : Nat
  mat : Bytes
deriving DecidableEq, Repr

/-- Attributes of the created keys (R184). -/
def tlsWriteAttr : Nat := 2 ^ atENCRYPT + 2 ^ atDECRYPT + 2 ^ 35
def tlsSecretAttr : Nat := 2 ^ atDERIVE
def tlsFinishedAttr : Nat := 2 ^ atSIGN + 2 ^ atVERIFY

/-- The keys and IVs that follow from one side's traffic secret; side 0 is the client's. -/
def tlsSide (hash keyLen side : Nat) (secret : Bytes) (finished : Bool) : List TlsKey × Bytes :=
  let n := hashSize hash
  let alg := if keyLen = 16 then 0x0010 else 0x0012
  ([⟨8 * side, alg, tlsWriteAttr, tlsLabel hash secret "key" [] keyLen⟩, ⟨0x10 + 8 * side, 0x0020, tlsSecretAttr, secret⟩]
    ++ (if finished then [⟨0x20 + 8 * side, 0x0020, tlsFinishedAttr, tlsLabel hash secret "finished" [] n⟩] else []),
   tlsLabel hash secret "iv" [] 12)

/-- The keys of a stage in the order of their places in the output, and the two IVs. -/
def tlsRun (stage hash keyLen side : Nat) (k psk th : Bytes) : List TlsKey × Bytes × Bytes :=
  let n := hashSize hash
  let both (secret : Bytes) (cl sl : String) (fin : Bool) : List TlsKey × Bytes × Bytes :=
    let a := tlsSide hash keyLen 0 (tlsLabel hash secret cl th n) fin
    let b := tlsSide hash keyLen 1 (tlsLabel hash secret sl th n) fin
    (a.1 ++ b.1, a.2, b.2)
  if stage = 1 then
    let early := hmacCode hash (zeros n) psk
    let hs := hmacCode hash (tlsDerived hash early) k
    let r := both hs "c hs traffic" "s hs traffic" true
    (r.1 ++ [⟨0x30, 0x0020, tlsSecretAttr, hs⟩], r.2)
  else if stage = 2 then
    let master := hmacCode hash (tlsDerived hash k) (zeros n)
    both master "c ap traffic" "s ap traffic" false
  else
    let r := tlsSide hash keyLen side (tlsLabel hash k "traffic upd" [] n) false
    if side = 0 then (r.1, r.2, zeros 12) else (r.1, zeros 12, r.2)

/-- Keys by their place in the output. -/
def tlsSorted (ks : List TlsKey) : List TlsKey := (List.range 0x40).filterMap (fun o => ks.find? (fun k => k.at' = o))

/-- TLS13_KEY_SCHEDULE (R184). -/
def opTls13 (c : Cmd) (d : Dev) : OpOut :=
  let x := c.desc
  let p := key1 c
  let stage := bits x.param 1 0
  let hash := if bits x.param 3 2 = 1 then 2 else 3
  let n := hashSize hash
  let a := auxOf c
  let t := tmplOf (a.drop n)
  let psk := match kOf c x.key2 with
    | some k => if x.key2 = 0 then zeros n else k.mat
    | none => zeros n
  let r := tlsRun stage hash (if hash = 2 then 16 else 32) (b2n (bit x.param 4)) p.mat psk (a.take n)
  let ks := tlsSorted r.1
  let mine := Nat.land p.attr attrLocal + (if t.limit = 0 then 0 else 2 ^ atUSAGE_LIMITED)
  let out := zeros 0x40 ++ fitTo 12 r.2.1 ++ fitTo 12 r.2.2 ++ zeros 8
  .done { okOut out with
    r1 := ks.length
    effects := ks.zipIdx.map (fun ki =>
      .create (recOf t ki.1.alg (ki.1.attr + mine) false ki.1.mat p.handle false) t.cls c.inst t.life (ki.2 = 0) (some ki.1.at')) } d

/-! ## Random (R238, R239) -/

/-- RANDOM_BYTES; with PR the quarter DRBG reseeds first (withRandom). -/
def opRandom (c : Cmd) (d : Dev) : OpOut := withRandom c c.desc.dstLen d fun b d => .done (okOut b) d

/-- ENTROPY_STATUS. -/
def opEntropyStatus (_c : Cmd) (d : Dev) : OpOut :=
  let one (q : Nat) : Nat :=
    let w := wellOf d q
    wellCode w.run + b2n (drbgOf d q).need * 8 + b2n (w.pri.run = .failed) * 16 + b2n (w.alt.run = .failed) * 32
  .done (okRes (one 0 + one 1 * 2 ^ 8 + one 2 * 2 ^ 16 + one 3 * 2 ^ 24) d.ent.fails) d

/-- KEY_GENERATE_SYM (R132). -/
def opGenerateSym (c : Cmd) (d : Dev) : OpOut :=
  let t := tmplOf (auxOf c)
  withRandom c (symLen t.alg c.desc.opcode) d fun b d =>
    .done (created c t (recOf t t.alg (t.attr + attrLocal) false b 0 false) []) d

end Sys2Proof.Machine
end

