-- ==== Sys2Proof/Machine/PayOps.lean ====
section
/-! DEFINITION. Payment operations and tokenisation: DUKPT, PIN blocks, card values, data translation, FF1
(R185-R192). -/

namespace Sys2Proof.Machine

/-! ## DUKPT (R185) -/

/-- Algorithm indicator and key length of ANSI X9.24-3 for an ALG. -/
def dukptAlg (alg : Nat) : Nat := match alg with | 0x0010 => 2 | 0x0011 => 3 | 0x0012 => 4 | _ => 1
def dukptLen (alg : Nat) : Nat := match alg with | 0x0010 => 16 | 0x0012 => 32 | _ => 24

/-- Derivation data of X9.24-3 but for its block counter. -/
def dukptData (usage alg : Nat) (tail : Bytes) (i : Nat) : Bytes :=
  [0x01, BitVec.ofNat 8 i] ++ beBytes 2 usage ++ beBytes 2 (dukptAlg alg) ++ beBytes 2 (8 * dukptLen alg) ++ tail

/-- One derivation of X9.24-3: a key of an algorithm under an AES derivation key. -/
def dukptStep (key : Bytes) (usage alg : Nat) (tail : Bytes) : Bytes :=
  (aesEnc key (dukptData usage alg tail 1) ++ aesEnc key (dukptData usage alg tail 2)).take (dukptLen alg)

/-- The derivation key of a transaction: one step for each set bit of the counter, from the top. -/
def dukptWalk (alg : Nat) (id : Bytes) (ctr : Nat) : Nat → Nat → Bytes → Bytes
  | 0, _, key => key
  | n + 1, seen, key =>
    if bit ctr n then
      let seen := seen + 2 ^ n
      dukptWalk alg id ctr n seen (dukptStep key 0x8000 alg (id ++ beBytes 4 seen))
    else dukptWalk alg id ctr n seen key

/-- The initial key of AES DUKPT. -/
def dukptInitial (alg : Nat) (bdk ksn : Bytes) : Bytes := dukptStep bdk 0x8001 alg (ksn.take 8)

/-- A working key of AES DUKPT. -/
def dukptWork (bdkAlg : Nat) (bdk ksn : Bytes) (usage alg : Nat) : Bytes :=
  let ctr := beNat (slice ksn 8 4)
  let id := slice ksn 4 4
  dukptStep (dukptWalk bdkAlg id ctr 32 0 (dukptInitial bdkAlg bdk ksn)) usage alg (id ++ beBytes 4 ctr)

/-- The mask of X9.24-1 on one 8-byte key. -/
def dukptMask (k : Bytes) : Bytes := xorBytes k [0xC0, 0xC0, 0xC0, 0xC0, 0, 0, 0, 0]

/-- A double-length key stored with K3 equal to K1. -/
def triple (k : Bytes) : Bytes := k.take 16 ++ k.take 8

/-- The initial key of TDES DUKPT (X9.24-1). -/
def tdukptInitial (bdk ksn : Bytes) : Bytes :=
  let id := beBytes 8 (beNat (ksn.take 10) / 2 ^ 21 * 2 ^ 21 / 2 ^ 16)
  tdesEnc bdk id ++ tdesEnc (dukptMask (bdk.take 8) ++ dukptMask (slice bdk 8 8) ++ dukptMask (slice bdk 16 8)) id

/-- The non-reversible key generation of X9.24-1. -/
def tdukptStep (key reg : Bytes) : Bytes :=
  let half (l r : Bytes) : Bytes := xorBytes (desEnc l (xorBytes reg r)) r
  let l := key.take 8
  let r := slice key 8 8
  half (dukptMask l) (dukptMask r) ++ half l r

/-- The transaction key: one step for each set bit of the 21-bit counter, from the top. -/
def tdukptWalk (ctr base : Nat) : Nat → Nat → Bytes → Bytes
  | 0, _, key => key
  | n + 1, seen, key =>
    if bit ctr n then
      let seen := seen + 2 ^ n
      tdukptWalk ctr base n seen (tdukptStep key (beBytes 8 (base + seen)))
    else tdukptWalk ctr base n seen key

/-- A working key of TDES DUKPT: the variant whose byte position is given, data keys passed through themselves. -/
def tdukptWork (bdk ksn : Bytes) (pos : Nat) (data : Bool) : Bytes :=
  let ctr := beNat (ksn.take 10) % 2 ^ 21
  let base := beNat (slice ksn 2 8) / 2 ^ 21 * 2 ^ 21
  let key := tdukptWalk ctr base 21 0 (tdukptInitial bdk ksn)
  let mask := (List.range 16).map (fun i => if i % 8 = pos then (0xFF : Byte) else 0)
  let v := xorBytes key mask
  if data then tdesEnc (triple v) (v.take 8) ++ tdesEnc (triple v) (slice v 8 8) else v

/-- Key usage indicator of X9.24-3 for PARAM [3:0] of DUKPT_DERIVE. -/
def dukptUsage (kind : Nat) : Nat :=
  match kind with
  | 1 => 0x1000 | 2 => 0x2000 | 3 => 0x2001 | 4 => 0x2002 | 5 => 0x3000 | 6 => 0x3001 | _ => 0x3002

/-- Variant byte of X9.24-1 for PARAM [3:0]: the host verifies and decrypts what the terminal sent under the request
variant, which also serves both ways, and answers under the response variant. -/
def dukptPos (kind : Nat) : Nat :=
  match kind with
  | 1 => 7 | 2 => 4 | 3 => 6 | 4 => 6 | 5 => 3 | _ => 5

/-- A working key of a base derivation key: AES or TDES DUKPT (R185). -/
def dukptKey (bdk : KeyRec) (ksn : Bytes) (kind alg : Nat) : Bytes :=
  if bdk.alg = 0x0018 then triple (tdukptWork bdk.mat ksn (dukptPos kind) (5 ≤ kind))
  else dukptWork bdk.alg bdk.mat ksn (dukptUsage kind) alg

/-- A KSN and its counter within the limits (R185): AES, 12 bytes; TDES, 10 bytes and zeros. -/
def ksnOk (tdes : Bool) (area : Bytes) : Bool :=
  if tdes then
    let c := beNat (area.take 10) % 2 ^ 21
    c ≠ 0 && popCount 21 c ≤ 10 && (area.drop 10).all (· == 0)
  else
    let c := beNat (slice area 8 4)
    c ≠ 0 && popCount 32 c ≤ 16 && (area.drop 12).all (· == 0)

/-- DUKPT_DERIVE: a data key takes MODES of the template, a MAC key has CMAC alone, and a PIN key none (R185). -/
def opDukpt (c : Cmd) (d : Dev) : OpOut :=
  withMask c d fun d =>
    let bdk := key1 c
    let kind := bits c.desc.param 3 0
    let ksn := (auxOf c).take 16
    let t := tmplOf ((auxOf c).drop 16)
    let kept := Nat.land t.attr (2 ^ atUSAGE_LIMITED + (if 5 ≤ kind then 0x7F * 2 ^ 32 else 0) + 0xF * 2 ^ 40)
    let own := Nat.land bdk.attr attrLocal
    if kind = 8 then
      let init := if bdk.alg = 0x0018 then triple (tdukptInitial bdk.mat ksn) else dukptInitial bdk.alg bdk.mat ksn
      let attr := 2 ^ atDUKPT + 2 ^ atEXPORTABLE + 2 ^ atTRUSTED_ONLY + Nat.land t.attr (2 ^ atUSAGE_LIMITED) + own
      .done (created c t (recOf t bdk.alg attr false init bdk.handle false) []) d
    else if bdk.alg ≠ 0x0018 && algStrength bdk.alg 0 < algStrength t.alg 0 then .done (failed stBAD_DESCRIPTOR 0x0100) d
    else
      let use := match kind with
        | 1 => 2 ^ atPIN | 2 => 2 ^ atSIGN + 2 ^ 37 | 3 => 2 ^ atVERIFY + 2 ^ 37 | 4 => 2 ^ atSIGN + 2 ^ atVERIFY + 2 ^ 37
        | 5 => 2 ^ atENCRYPT | 6 => 2 ^ atDECRYPT | _ => 2 ^ atENCRYPT + 2 ^ atDECRYPT
      let attr := Nat.xor (use + own) (withBits kept use 0)
      match attrFault t.alg false t.cls t.qc (attr - Nat.land attr attrLocal) t.limit t.life with
      | some off => .done (failed stBAD_DESCRIPTOR (0x0100 + off)) d
      | none => .done (created c t (recOf t t.alg attr false (dukptKey bdk ksn kind t.alg) bdk.handle false) []) d

/-! ## PIN blocks (R186-R188) -/

/-- The nibbles of a byte string. -/
def nibbles (b : Bytes) : List Nat := (b.map (fun x => [x.toNat / 16, x.toNat % 16])).flatten

/-- The byte string of nibbles. -/
def ofNibbles (ns : List Nat) : Bytes :=
  (List.range (ns.length / 2)).map (fun i => BitVec.ofNat 8 (ns.getD (2 * i) 0 * 16 + ns.getD (2 * i + 1) 0))

/-- Index of a format in PIN_FMT (R117). -/
def fmtIndex (f : Nat) : Nat := if f = 0 then 0 else if f = 1 then 1 else if f = 3 then 2 else 3

/-- PAN digits of the block of R186. -/
def panDigits (aux : Bytes) : List Nat := (nibbles (slice aux 0x10 10)).take (leAt aux 2 1)

/-- The PAN field of formats 0 and 3: 0000 and the 12 rightmost digits before the check digit (R187). -/
def panField (pan : List Nat) : Bytes :=
  let body := pan.dropLast
  let ds := List.replicate (12 - min 12 body.length) 0 ++ body.drop (body.length - 12)
  ofNibbles ([0, 0, 0, 0] ++ ds)

/-- The PAN field of format 4 (R187). -/
def panField4 (pan : List Nat) : Bytes :=
  let ns := [pan.length - 12] ++ pan
  ofNibbles (ns ++ List.replicate (32 - ns.length) 0)

/-- The decrypted PIN field of an encrypted block (R187). -/
def pinField (fmt : Nat) (key : Bytes) (pan : List Nat) (block : Bytes) : Bytes :=
  if fmt = 4 then
    let ks := aesKeys key
    aesDecKeys ks (xorBytes (aesDecKeys ks block) (panField4 pan))
  else if fmt = 1 then tdesDec key block
  else xorBytes (tdesDec key block) (panField pan)

/-- The PIN of a field that passes the checks of its format (R187). -/
def pinOf (fmt : Nat) (field : Bytes) : Option (List Nat) :=
  let ns := nibbles field
  let len := ns.getD 1 0
  let pin := (ns.drop 2).take len
  let fill := (ns.take 16).drop (2 + len)
  let fillOk : Bool := match fmt with
    | 0 => fill.all (· == 15)
    | 1 => true
    | 3 => fill.all (fun n => 10 ≤ n)
    | _ => fill.all (· == 10)
  if ns.getD 0 0 = fmt && 4 ≤ len && len ≤ 12 && pin.all (· ≤ 9) && fillOk then some pin else none

/-- A PIN block formed and encrypted, with random bytes for its fill (R187). -/
def pinForm (fmt : Nat) (key : Bytes) (pan pin : List Nat) (rnd : Bytes) : Bytes :=
  let head := [fmt, pin.length] ++ pin
  let rs := nibbles rnd
  let fill : List Nat := match fmt with
    | 0 => List.replicate 16 15
    | 1 => rs
    | 3 => rs.map (fun n => 10 + n % 6)
    | _ => List.replicate 16 10
  let clear := ofNibbles ((head ++ fill).take 16)
  if fmt = 4 then
    let ks := aesKeys key
    aesEncKeys ks (xorBytes (aesEncKeys ks (clear ++ rnd.take 8)) (panField4 pan))
  else if fmt = 1 then tdesEnc key clear
  else tdesEnc key (xorBytes clear (panField pan))

/-- The key type that a format needs (R187). -/
def fmtAlg (fmt alg : Nat) : Bool := if fmt = 4 then algAes alg else alg = 0x0018

/-- Why a side of a PIN operation is refused: key type, then format (R187). -/
def pinSide (fmt : Nat) (k : KeyRec) (bdk : Bool) : Option Denial :=
  if !(fmtAlg fmt k.alg) then some (stPOLICY, 65)
  else if !bdk && !(bit k.attr (40 + fmtIndex fmt)) then some (stPOLICY, 40 + fmtIndex fmt)
  else none

/-- The key under which the input block stands: stored, or derived inline (R185, R187). -/
def pinInKey (c : Cmd) : Bytes :=
  let a := auxOf c
  if leAt a 3 1 = 0 then (key1 c).mat else dukptKey (key1 c) (slice a 4 12) 1 (key1 c).alg

/-- The random fill of a format: 8 bytes where it has one (R187). -/
def pinRandom (fmt : Nat) : Nat := if fmt = 0 then 0 else 8

/-- PIN_TRANSLATE (R187). -/
def opPinTranslate (c : Cmd) (d : Dev) : OpOut :=
  withMask c d fun d =>
    let a := auxOf c
    let fi := leAt a 0 1
    let fo := leAt a 1 1
    match pinSide fi (key1 c) (leAt a 3 1 ≠ 0), pinSide fo (key2 c) false with
    | some e, _ => .done (failed e.1 e.2) d
    | none, some e => .done (failed e.1 e.2) d
    | none, none =>
      if fo = 1 && fi ≠ 1 then .done (failed stBAD_DESCRIPTOR 0x0101) d
      else match pinOf fi (pinField fi (pinInKey c) (panDigits a) (srcOf c)) with
        | none => .done (failed stVERIFY_FAIL 1) d
        | some pin =>
          withRandom c (pinRandom fo) d fun rnd d =>
            .done (okOut (pinForm fo (key2 c).mat (panDigits a) pin rnd)) d

/-- The natural PIN digits of the offset method (R188). -/
def offsetPin (k : KeyRec) (a : Bytes) (n : Nat) : List Nat :=
  let v := slice a 0x20 8
  let e := if k.alg = 0x0018 then tdesEnc k.mat v else (aesEnc k.mat (v ++ zeros 8)).take 8
  let tbl := nibbles (slice a 0x28 8)
  let off := nibbles (slice a 0x30 6)
  (List.range n).map (fun i => (tbl.getD ((nibbles e).getD i 0) 0 + off.getD i 0) % 10)

/-- PIN_VERIFY (R188). -/
def opPinVerify (c : Cmd) (d : Dev) : OpOut :=
  withMask c d fun d =>
    let a := auxOf c
    let fi := leAt a 0 1
    let fo := leAt a 1 1
    let side2 := if c.desc.param = 1 then pinSide fo (key2 c) false
      else if algAes (key2 c).alg || (key2 c).alg = 0x0018 then none else some (stPOLICY, 65)
    match pinSide fi (key1 c) (leAt a 3 1 ≠ 0), side2 with
    | some e, _ => .done (failed e.1 e.2) d
    | none, some e => .done (failed e.1 e.2) d
    | none, none =>
      match pinOf fi (pinField fi (pinInKey c) (panDigits a) (srcOf c)) with
      | none => .done (failed stVERIFY_FAIL 1) d
      | some pin =>
        if c.desc.param = 1 then
          let n := if fo = 4 then 16 else 8
          match pinOf fo (pinField fo (key2 c).mat (panDigits a) (slice a 0x20 n)) with
          | none => .done (failed stVERIFY_FAIL 1) d
          | some ref => .done (verdict (ref == pin)) d
        else .done (verdict (offsetPin (key2 c) a pin.length == pin)) d

/-! ## Card values (R189) -/

/-- The digits of a card value. -/
def cvvDigits (c : Cmd) : List Nat :=
  let a := auxOf c
  let pan := (nibbles (a.take 10)).take (leAt a 0x0A 1)
  let ns := pan ++ nibbles (slice a 0x0B 2) ++ (nibbles (slice a 0x0D 2)).take 3
  let m := ofNibbles ((ns ++ List.replicate 32 0).take 32)
  let x := m.take 8
  let y := m.drop 8
  let k := (key1 c).mat
  let x3 := if (key1 c).alg = 0x0018 then tdesEnc (triple k) (xorBytes (desEnc (k.take 8) x) y) else aesCmac k (x ++ y)
  let hs := nibbles x3
  ((hs.filter (· ≤ 9)) ++ (hs.filter (10 ≤ ·)).map (· - 10)).take c.desc.param

/-- The digits as right-justified BCD. -/
def bcdOf (ds : List Nat) : Nat := ds.foldl (fun a x => a * 16 + x) 0

/-- CVV_GENERATE. -/
def opCvv (c : Cmd) (d : Dev) : OpOut := withMask c d fun d => .done (okRes (bcdOf (cvvDigits c)) 0) d

/-- CVV_VERIFY. -/
def opCvvVerify (c : Cmd) (d : Dev) : OpOut :=
  withMask c d fun d => .done (verdict (beNat (slice (auxOf c) 0x10 4) == bcdOf (cvvDigits c))) d

/-! ## DATA_TRANSLATE (R190) -/

/-- One side of a translation: ECB or CBC. -/
def dtRun (alg : Nat) (key : Bytes) (cbc dec : Bool) (iv src : Bytes) : Bytes :=
  let n := blkLen alg
  if cbc then (if dec then (cbcDec n (decFn alg key) (iv.take n) src).1 else (cbcEnc n (encFn alg key) (iv.take n) src).1)
  else ecbWith n (if dec then decFn alg key else encFn alg key) src

/-- DATA_TRANSLATE. -/
def opDataTranslate (c : Cmd) (d : Dev) : OpOut :=
  withMask c d fun d =>
    let a := auxOf c
    let p := c.desc.param
    let k := key1 c
    let k2 := key2 c
    if (algAes k.alg || algAes k2.alg) && (srcOf c).length % 16 ≠ 0 then .done (failed stBAD_LENGTH 0) d
    else
      let inKey := if bits p 5 4 = 0 then k.mat else dukptKey k (slice a 0x20 12) 6 k.alg
      let clear := dtRun k.alg inKey (bits p 1 0 = 1) true (a.take 16) (srcOf c)
      .done (okOut (dtRun k2.alg k2.mat (bits p 3 2 = 1) false (slice a 16 16) clear)) d

/-! ## FF1 (R191, R192) -/

/-- The value of a character of the alphabet. -/
def symVal (b : Byte) : Nat :=
  let n := b.toNat
  if 0x30 ≤ n && n ≤ 0x39 then n - 0x30 else if 0x61 ≤ n && n ≤ 0x7A then n - 0x61 + 10 else 99

/-- The character of a value. -/
def symChar (n : Nat) : Byte := BitVec.ofNat 8 (if n < 10 then 0x30 + n else 0x61 + n - 10)

/-- FF1 over the characters between head and tail; none with the position of a character outside the alphabet. -/
def ff1Text (d : Desc) (key tweak : Bytes) (dec : Bool) (src : Bytes) : Bytes :=
  let head := bits d.param 9 6
  let n := ff1Span d
  let mid := (slice src head n).map symVal
  src.take head ++ (ff1 key (bits d.param 5 0) tweak dec mid).map symChar ++ src.drop (head + n)

/-- The position of the first character outside the alphabet. -/
def ff1Bad (d : Desc) (src : Bytes) : Option Nat := firstBelow src.length (fun i => bits d.param 5 0 ≤ symVal (src.getD i 0))

/-- FF1_ENCRYPT and FF1_DECRYPT. -/
def opFf1 (dec : Bool) (c : Cmd) (d : Dev) : OpOut :=
  withMask c d fun d =>
    match ff1Bad c.desc (srcOf c) with
    | some i => .done (failed stBAD_DESCRIPTOR (0x0200 + i)) d
    | none => .done (okOut (ff1Text c.desc (key1 c).mat (auxOf c) dec (srcOf c))) d

/-- TOKEN_TRANSLATE. -/
def opTokenTranslate (c : Cmd) (d : Dev) : OpOut :=
  withMask c d fun d =>
    let a := auxOf c
    let t1 := slice a 8 (leAt a 0 1)
    let t2 := slice a (8 + leAt a 0 1) (leAt a 1 1)
    match ff1Bad c.desc (srcOf c) with
    | some i => .done (failed stBAD_DESCRIPTOR (0x0200 + i)) d
    | none => .done (okOut (ff1Text c.desc (key2 c).mat t2 false (ff1Text c.desc (key1 c).mat t1 true (srcOf c)))) d

/-! ## Auxiliary blocks -/

/-- The 32 bytes of R186 in form. -/
def pinAuxFault (c : Cmd) : Option Denial :=
  let a := auxOf c
  let fi := leAt a 0 1
  let fo := leAt a 1 1
  let two : Bool := c.desc.opcode = 0x0602 || c.desc.param = 1
  let fmt (f : Nat) : Bool := f = 0 || f = 1 || f = 3 || f = 4
  let panFmt (f : Nat) : Bool := f = 0 || f = 3 || f = 4
  let n := leAt a 2 1
  let pan := nibbles (slice a 0x10 10)
  let bad (off : Nat) (b : Bool) : List Nat := if b then [off] else []
  let mode := leAt a 3 1
  let bads := bad 0x00 (!(fmt fi)) ++ bad 0x01 (two && !(fmt fo))
    ++ bad 0x02 (!((12 ≤ n && n ≤ 19) || (n = 0 && !(panFmt fi) && !(two && panFmt fo))))
    ++ bad 0x03 (2 < mode)
    ++ bad 0x04 (if mode = 0 then (slice a 4 12).any (· != 0) else !(ksnOk (mode = 2) (slice a 4 12)))
    ++ bad 0x10 ((pan.take n).any (10 ≤ ·) || (pan.drop n).any (· ≠ 15)) ++ bad 0x1A ((slice a 0x1A 6).any (· != 0))
    ++ (if two then [] else bad 0x28 ((nibbles (slice a 0x28 8)).any (10 ≤ ·)) ++ bad 0x30 ((nibbles (slice a 0x30 6)).any (10 ≤ ·))
      ++ bad 0x36 ((slice a 0x36 2).any (· != 0)))
  match bads.head? with
  | some off => some (stBAD_DESCRIPTOR, 0x0100 + off)
  | none =>
    if c.desc.srcLen ≠ (if fi = 4 then 16 else 8) then some (stBAD_LENGTH, 0)
    else if c.desc.opcode = 0x0602 && c.desc.dstLen < (if fo = 4 then 16 else 8) then some (stBUFFER_TOO_SMALL, if fo = 4 then 16 else 8)
    else if c.desc.opcode = 0x0603 && two && c.desc.auxLen ≠ (if fo = 4 then 0x30 else 0x28) then some (stBAD_LENGTH, 0)
    else none

/-- The block of R189 in form. -/
def cvvAuxFault (c : Cmd) : Option Denial :=
  let a := auxOf c
  let n := leAt a 0x0A 1
  let bad (off : Nat) (b : Bool) : List Nat := if b then [off] else []
  let bads := bad 0x00 (((nibbles (a.take 10)).take n).any (10 ≤ ·)) ++ bad 0x0A (n = 0 || 20 < n)
    ++ bad 0x0B ((nibbles (slice a 0x0B 2)).any (10 ≤ ·))
    ++ bad 0x0D (((nibbles (slice a 0x0D 2)).take 3).any (10 ≤ ·) || (nibbles (slice a 0x0D 2)).getD 3 0 ≠ 15)
    ++ bad 0x0F (leAt a 0x0F 1 ≠ 0)
    ++ (if c.desc.opcode = 0x0605 then bad 0x10 ((nibbles (slice a 0x10 4)).any (10 ≤ ·)) ++ bad 0x14 (leAt a 0x14 4 ≠ 0) else [])
  bads.head?.map (fun off => (stBAD_DESCRIPTOR, 0x0100 + off))

/-- DUKPT_DERIVE's block and template in form (R185). -/
def dukptAuxFault (c : Cmd) : Option Denial :=
  let tdes := bit c.desc.param 4
  let kind := bits c.desc.param 3 0
  let t := tmplOf ((auxOf c).drop 16)
  if !(ksnOk tdes ((auxOf c).take 16)) then some (stBAD_DESCRIPTOR, 0x0100)
  else
    let allowed := if kind = 8 then 2 ^ atUSAGE_LIMITED else 2 ^ atUSAGE_LIMITED + 0x7F * 2 ^ 32 + 0xF * 2 ^ 40
    let algOk : Bool := if kind = 8 then t.alg = 0 || algAes t.alg || t.alg = 0x0018
      else if tdes then t.alg = 0x0018 else algAes t.alg || t.alg = 0x0018
    let bad (off : Nat) (b : Bool) : List Nat := if b then [off] else []
    let lim := bit t.attr atUSAGE_LIMITED
    let bads := bad 0x00 (!algOk) ++ bad 0x02 (2 < t.cls || (if kind = 8 then t.cls = 2 else t.cls = 0))
      ++ bad 0x03 (31 < t.qc && t.qc ≠ 0xFF) ++ bad 0x04 (t.tflags ≠ 0) ++ bad 0x05 (t.r5 ≠ 0)
      ++ bad 0x08 (Nat.land t.attr allowed ≠ t.attr || (lim && t.limit = 0) || (!lim && t.limit ≠ 0) || (t.cls = 2 && !lim && t.life = 0))
      ++ bad 0x30 (t.rsaE ≠ 0) ++ bad 0x38 (t.r38 ≠ 0)
    bads.head?.map (fun off => (stBAD_DESCRIPTOR, 0x0100 + off))

/-- Payment and tokenisation blocks in form, by opcode. -/
def payAuxFault (c : Cmd) : Option Denial :=
  let a := auxOf c
  match c.desc.opcode with
  | 0x0601 => dukptAuxFault c
  | 0x0602 | 0x0603 => pinAuxFault c
  | 0x0604 | 0x0605 => cvvAuxFault c
  | 0x0606 =>
    let m := bits c.desc.param 5 4
    if m = 0 then (if (slice a 0x20 16).any (· != 0) then some (stBAD_DESCRIPTOR, 0x0120) else none)
    else if ksnOk (m = 2) (slice a 0x20 16) then none else some (stBAD_DESCRIPTOR, 0x0120)
  | 0x0703 =>
    if (slice a 2 6).any (· != 0) then some (stBAD_DESCRIPTOR, 0x0102)
    else if 32 < leAt a 0 1 || 32 < leAt a 1 1 || c.desc.auxLen ≠ 8 + leAt a 0 1 + leAt a 1 1 then some (stBAD_LENGTH, 0)
    else none
  | _ => none

end Sys2Proof.Machine
end

