-- ==== Sys2Proof/Machine/CodeOps.lean ====
section
/-! DEFINITION. Access codes: HOTP, TOTP, locker tokens, pickup codes (R193-R196). -/

namespace Sys2Proof.Machine

/-- The HMAC that PARAM [5:4] selects (R194). -/
def otpMac (sel : Nat) (key m : Bytes) : Bytes :=
  if sel = 0 then hmac1 key m else if sel = 1 then hmac256 key m else hmac512 key m

/-- Dynamic truncation of RFC 4226, to a number of digits. -/
def otpCode (sel digits : Nat) (key : Bytes) (ctr : Nat) : Nat :=
  let m := otpMac sel key (beBytes 8 ctr)
  let off := (m.getLast?.getD 0).toNat % 16
  beNat (slice m off 4) % 2 ^ 31 % 10 ^ digits

/-- The code of a command's key at a counter. -/
def codeAt (c : Cmd) (ctr : Nat) : Nat := otpCode (bits c.desc.param 5 4) (bits c.desc.param 3 0) (key1 c).mat ctr

/-- HOTP_GENERATE (R194). -/
def opHotp (c : Cmd) (d : Dev) : OpOut :=
  withCounter c d fun v d => .done { okRes (codeAt c v) v with effects := [.nonce c.desc.key (v + 1)] } d

/-- A raise of NONCE_RESV to at least a value is requested (R193). -/
def askRaiseTo (n new : Nat) (epoch : Option Nat) (d : Dev) : Dev :=
  match smapGet noneAt d.key.nonceRaise n with
  | some (old, e) =>
    modKey (fun k => { k with nonceRaise := smapSet noneAt k.nonceRaise n (some (max old new, tagMax e epoch)) }) d
  | none => askRaise n new epoch d

/-- A verification that accepts a value sets NONCE_CTR to v at release, raising NONCE_RESV before where v comes near it
(R193). -/
def accept (c : Cmd) (at' v : Nat) (d : Dev) : OpOut :=
  let n := hRec c.desc.key
  let r := { okRes at' 0 with effects := [.counter c.desc.key v] }
  if romRun c then .done r d
  else match keyAt d n with
  | none => .done r d
  | some k =>
    if k.nonceResv ≤ v + 2 ^ 22 then
      if raiseBarred d k then .done (failed stVAULT_RO 0) d
      else .done r (askRaiseTo n (alignUp (v + 2 ^ 24) (2 ^ 24)) c.epoch d)
    else .done r d

/-- HOTP_VERIFY (R194). -/
def opHotpVerify (c : Cmd) (d : Dev) : OpOut :=
  let a := auxOf c
  let at' : Option Nat :=
    if romRun c then some (Config.romCounter c.desc.key % 2 ^ 64) else (residentOf d (hRec c.desc.key)).map (·.ptr)
  match at' with
  | none => .wait d
  | some ptr =>
    match firstBelow (leAt a 4 1 + 1) (fun i => codeAt c (ptr + i) = leAt a 0 4) with
    | none => .done (failed stVERIFY_FAIL 0) d
    | some i => accept c (ptr + i) (ptr + i + 1) d

/-- The step of a TOTP block (R194). -/
def totpStep (a : Bytes) : Nat := leAt a 0 8 / (if leAt a 8 2 = 0 then 30 else leAt a 8 2)

/-- TOTP_GENERATE (R194). -/
def opTotp (c : Cmd) (d : Dev) : OpOut :=
  let s := totpStep (auxOf c)
  .done (okRes (codeAt c s) s) d

/-- TOTP_VERIFY (R194). -/
def opTotpVerify (c : Cmd) (d : Dev) : OpOut :=
  let a := auxOf c
  let s := totpStep a
  let back := leAt a 16 1
  let floor := if romRun c then Config.romCounter c.desc.key % 2 ^ 64 else ((keyAt d (hRec c.desc.key)).map (·.nonce)).getD 0
  let steps := (List.range (back + leAt a 17 1 + 1)).filterMap (fun i =>
    if back ≤ s + i && floor ≤ s + i - back then some (s + i - back) else none)
  match steps.find? (fun s => codeAt c s = leAt a 20 4) with
  | none => .done (failed stVERIFY_FAIL 0) d
  | some s => accept c s (s + 1) d

/-- The body of a locker token in form (R195). -/
def lockerFault (b : Bytes) : Option Nat :=
  let bad (off : Nat) (x : Bool) : List Nat := if x then [off] else []
  (bad 0x00 (leAt b 0 1 ≠ 1) ++ bad 0x01 (leAt b 1 1 = 0 || 4 < leAt b 1 1) ++ bad 0x04 (leAt b 4 4 ≠ 0) ++ bad 0x10 (leAt b 0x10 8 ≠ 0)
    ++ bad 0x20 (leAt b 0x20 8 ≤ leAt b 0x18 8) ++ bad 0x28 (leAt b 0x28 8 ≠ 0)).head?

/-- Signature size of a locker token's key (R195). -/
def lockerSig (alg : Nat) : Nat := if alg = 0x0020 then 16 else if algDsa alg then dsaSigLen alg else 64

/-- Random bytes of a locker token's signature (R217). -/
def lockerRand (alg : Nat) : Nat := if alg = 0x0101 then 80 else if alg = 0x0110 then 48 else if algDsa alg then 32 else 0

/-- The ML-DSA signature of a token, with what its iterations draw (R212, R217); the counter was drawn in c0's state d0, to which a wait
goes back. -/
def lockerDsa (c : Cmd) (k : KeyRec) (body rnd : Bytes) (d0 d : Dev) (fin : Bytes → Dev → OpOut) : OpOut :=
  let r := dsaSign k.alg k.mat (pqMessage 0 [] body) (rnd.take 32)
  match withRandom c (160 * r.2) d (fun _ d => match r.1 with
    | some sig => fin sig d
    | none => .done (failed stENGINE 0) d) with
  | .wait d => .wait { d with key := d0.key }
  | r => r


/-- LOCKER_TOKEN_SIGN (R195). -/
def opLocker (c : Cmd) (d : Dev) : OpOut :=
  let k := key1 c
  let b := srcOf c
  match lockerFault b with
  | some off => .done (failed stBAD_DESCRIPTOR off) d
  | none =>
    if c.desc.dstLen < 48 + lockerSig k.alg then .done (tooSmall (48 + lockerSig k.alg)) d
    else withRandom c (lockerRand k.alg) d fun rnd d1 => withCounter c d1 fun v d =>
      let body := b.take 0x10 ++ beBytes 8 v ++ slice b 0x18 16 ++ leBytes 8 (kcvNat k)
      let fin (sig : Bytes) (d : Dev) : OpOut :=
        let out := body ++ sig
        .done { okRes v 0 with out := out, outLen := out.length, effects := [.nonce c.desc.key (v + 1)] } d
      if k.alg = 0x0020 then fin ((hmac256 k.mat body).take 16) d
      else if k.alg = 0x0101 then
        let s := ecdsaSign p256 2 (beNat (k.mat.take 32)) (sha256 body) (rnd.take 32)
        fin (beBytes 32 s.1 ++ beBytes 32 s.2) d
      else if k.alg = 0x0110 then fin (edSign 0 [] (k.mat.take 32) body) d
      else lockerDsa c k body rnd d1 d fin

/-- The pickup code of a block and a serial (R196). -/
def pickupCode (c : Cmd) (serial : Nat) : Nat :=
  beNat ((hmac256 (key1 c).mat (ascii "ADK-PICKUP" ++ (auxOf c).take 32 ++ beBytes 8 serial)).take 8) % 10 ^ c.desc.param

/-- PICKUP_CODE_ISSUE. -/
def opPickup (c : Cmd) (d : Dev) : OpOut :=
  withCounter c d fun v d => .done { okRes (pickupCode c v) v with effects := [.nonce c.desc.key (v + 1)] } d

/-- PICKUP_CODE_VERIFY. -/
def opPickupVerify (c : Cmd) (d : Dev) : OpOut :=
  let a := auxOf c
  .done (verdict (pickupCode c (beNat (slice a 32 8)) == leAt a 40 8)) d

/-- Access-code blocks in form (R194). -/
def codeAuxFault (c : Cmd) : Option Denial :=
  let a := auxOf c
  let bad (off : Nat) (x : Bool) : List Nat := if x then [off] else []
  let totp := bad 8 (3600 < leAt a 8 2) ++ bad 10 ((slice a 10 6).any (· != 0))
  let bads := match c.desc.opcode with
    | 0x0802 => bad 4 (63 < leAt a 4 1) ++ bad 5 (leAt a 5 3 ≠ 0)
    | 0x0803 => totp
    | 0x0804 => totp ++ bad 16 (4 < leAt a 16 1) ++ bad 17 (4 < leAt a 17 1) ++ bad 18 (leAt a 18 2 ≠ 0) ++ bad 24 (leAt a 24 4 ≠ 0)
    | _ => []
  bads.head?.map (fun off => (stBAD_DESCRIPTOR, 0x0100 + off))

end Sys2Proof.Machine
end

