-- ==== Sys2Proof/Machine/PkeOps.lean ====
section
/-! DEFINITION. Public-key, lattice and hash-based operations of the engines (R202-R220). -/

namespace Sys2Proof.Machine

/-! ## Parts of the auxiliary block (R208) -/

/-- The algorithm of a command's key: inline or ephemeral in OPT, else the record's. -/
def pkeAlgOf (c : Cmd) : Nat :=
  let x := c.desc
  if pInl x || (x.opcode = 0x0305 && pVar x = 1) then x.opt else (key1 c).alg

/-- STR_LEN and SALT_LEN of ARGS. -/
def strLen (a : Bytes) : Nat := leAt a 0 2
def saltLen (a : Bytes) : Nat := leAt a 2 2

/-- Size of an HBS public key by its type codes (R213); none for a code that SP 800-208 does not approve. -/
def hbsPkLen (variant : Nat) (a : Bytes) : Option Nat :=
  let pk := a.drop 8
  if variant = 1 then
    let n := lmsPkLen (pk.drop 4)
    if n = 0 then none else some (4 + n)
  else ((if variant = 2 then xmssSet (beNat (pk.take 4)) else xmssMtSet (beNat (pk.take 4))).map (fun p => 4 + 2 * p.n))

/-- Size of the inline key part. -/
def inlLen (c : Cmd) : Nat :=
  if !(pInl c.desc) then 0
  else if c.desc.opcode = 0x030E then (hbsPkLen (pVar c.desc) (auxOf c)).getD 0
  else pkLen c.desc.opt

/-- Offsets of the string, the operand and the template. -/
def strAt (c : Cmd) : Nat := 8 + alignUp (inlLen c) 8
def operandAt (c : Cmd) : Nat := alignUp (strAt c + strLen (auxOf c)) 8
def tmplAt (c : Cmd) : Nat := if c.desc.opcode = 0x0305 then alignUp (operandAt c + pkLen (pkeAlgOf c)) 8 else operandAt c

/-- The string, the operand and the template. -/
def strOf (c : Cmd) : Bytes := slice (auxOf c) (strAt c) (strLen (auxOf c))
def operandOf (c : Cmd) : Bytes := (auxOf c).drop (operandAt c)
def pkeTmpl (c : Cmd) : Tmpl := tmplOf (slice (auxOf c) (tmplAt c) 64)

/-- The public key of a command: inline, or the record's. -/
def pkOf (c : Cmd) : Bytes :=
  if pInl c.desc then slice (auxOf c) 8 (inlLen c) else pubOf (key1 c).alg (key1 c).pubOnly (key1 c).mat

/-- An inline key that fails R203. -/
def inlBad (c : Cmd) : Bool := pInl c.desc && !(pubKeyOk c.desc.opt (pkOf c))

/-- The digest of a command's message. -/
def digestOf (c : Cmd) (hash : Nat) : Bytes := if pPre c.desc then srcOf c else hashRun hash (srcOf c)

/-! ## ECDSA and EdDSA (R210) -/

/-- The largest signature of a curve (R208). -/
def ecdsaMax (c : Cmd) (alg : Nat) : Nat :=
  let n := (curveOf alg).size
  if pDer c.desc then (if n = 32 then 72 else 104) else 2 * n

/-- ECDSA_SIGN. -/
def opEcdsaSign (c : Cmd) (d : Dev) : OpOut :=
  let k := key1 c
  let cv := curveOf k.alg
  let det := pDet c.desc
  let n := (if cv.size = 32 then 80 else 112) - (if det then 32 else 0)
  needRoom c (ecdsaMax c k.alg) d <| withRandom c n d fun rnd d =>
    let s := ecdsaSign cv (pHash c.desc) (beNat (k.mat.take cv.size)) (digestOf c (pHash c.desc)) (if det then [] else rnd.take 32)
    .done (okOut (if pDer c.desc then derSig s.1 s.2 else beBytes cv.size s.1 ++ beBytes cv.size s.2)) d

/-- A public key that fails its check. -/
def badKey : Result := failed stBAD_DESCRIPTOR 0x0108

/-- ECDSA_VERIFY. -/
def opEcdsaVerify (c : Cmd) (d : Dev) : OpOut :=
  let cv := curveOf (pkeAlgOf c)
  let sig := operandOf c
  let rs : Option (Nat × Nat) :=
    if pDer c.desc then derParse sig else some (beNat (sig.take cv.size), beNat (sig.drop cv.size))
  if (if pDer c.desc then (if cv.size = 32 then 72 else 104) < sig.length else sig.length ≠ 2 * cv.size) then .done (failed stBAD_LENGTH 0) d
  else match ecDecode cv (pkOf c), rs with
    | none, _ => .done badKey d
    | some _, none => .done (failed stBAD_DESCRIPTOR (0x0100 + operandAt c)) d
    | some q, some (r, s) => .done (verdict (ecdsaOk cv q (digestOf c (pHash c.desc)) r s)) d

/-- The message that Ed25519 signs: for Ed25519ph its SHA-512 digest. -/
def edMessage (c : Cmd) : Bytes := if pVar c.desc = 2 then digestOf c 4 else srcOf c

/-- EDDSA_SIGN. -/
def opEddsaSign (c : Cmd) (d : Dev) : OpOut :=
  withRandom c 48 d fun _ d => .done (okOut (edSign (pVar c.desc) (strOf c) ((key1 c).mat.take 32) (edMessage c))) d

/-- EDDSA_VERIFY. -/
def opEddsaVerify (c : Cmd) (d : Dev) : OpOut :=
  if (operandOf c).length ≠ 64 then .done (failed stBAD_LENGTH 0) d
  else if inlBad c then .done badKey d
  else .done (verdict (edOk (pVar c.desc) (strOf c) (pkOf c) (edMessage c) (operandOf c))) d

/-! ## Agreement and encapsulation (R215, R216) -/

/-- A shared secret stored as a generic secret: under a parent, or as the device's own. -/
def secretDone (c : Cmd) (parent : Option KeyRec) (t : Tmpl) (mat out : Bytes) : Result :=
  match parent with
  | some p => childDone c p t 0x0020 mat out
  | none =>
    if t.cls = 2 then failed stBAD_DESCRIPTOR 0x0102
    else created c t (recOf t 0x0020 (t.attr + attrLocal) false mat 0 false) out

/-- The shared secret of a private value and a peer key; none where X25519 gives zero (R215). -/
def ecdhSecret (alg : Nat) (mat peer : Bytes) : Option Bytes :=
  if alg = 0x0111 then
    let s := x25519 (mat.take 32) peer
    if s = zeros 32 then none else some s
  else
    let cv := curveOf alg
    match ecDecode cv peer with
    | some q => (ecMul cv (beNat (mat.take cv.size)) (some q)).map (fun s => beBytes cv.size s.1)
    | none => none

/-- The template of a shared secret in form (R215): ALG 0 or generic secret, DERIVE and no other use bit. -/
def secretTmplFault (t : Tmpl) : Option Denial :=
  let algOk : Bool := t.alg = 0 || t.alg = 0x0020
  let useOk : Bool := bits t.attr 15 0 = 2 ^ atDERIVE
  match tmplFault t 0x0020 false algOk true (t.rsaE = 0) with
  | some off => some (stBAD_DESCRIPTOR, 0x0100 + (if useOk then off else min off 0x08))
  | none => if useOk then none else some (stBAD_DESCRIPTOR, 0x0108)

/-- ECDH_AGREE. -/
def opEcdh (c : Cmd) (d : Dev) : OpOut :=
  let alg := pkeAlgOf c
  let peer := slice (auxOf c) (operandAt c) (pkLen alg)
  let t := pkeTmpl c
  let eph : Bool := pVar c.desc = 1
  let base := if alg = 0x0102 then 64 else 48
  if c.desc.auxLen ≠ tmplAt c + 64 then .done (failed stBAD_LENGTH 0) d
  else if let some e := secretTmplFault t then .done (failed e.1 e.2) d
  else if !(pubKeyOk alg peer) then .done badKey d
  else withRandom c (base + (if eph then genDraw alg else 0)) d fun rnd d =>
    if eph then
      match genMat alg 0 rnd with
      | none => .done (failed stENGINE 0) d
      | some mat =>
        match ecdhSecret alg mat peer with
        | none => .done badKey d
        | some s => .done (secretDone c none t s (pubOf alg false mat)) d
    else match ecdhSecret alg (key1 c).mat peer with
      | none => .done badKey d
      | some s => .done (secretDone c (some (key1 c)) t s []) d

/-- A KEM secret stored, with the material of KEY2_HANDLE behind it under COMBINE (R216). -/
def kemDone (c : Cmd) (s out : Bytes) : Result :=
  let t := pkeTmpl c
  let stored : Option KeyRec := if pInl c.desc && c.desc.opcode = 0x0308 then none else some (key1 c)
  if pComb c.desc then
    let p := key2 c
    if 128 < 32 + p.mat.length then failed stBAD_LENGTH 0
    else if bit t.attr atEXPORTABLE && stored.any (fun k => !(bit k.attr atEXPORTABLE)) then failed stBAD_DESCRIPTOR 0x0108
    else childDone c p t 0x0020 (s ++ p.mat) out
  else secretDone c stored t s out

/-- MLKEM_ENCAP. -/
def opEncap (c : Cmd) (d : Dev) : OpOut :=
  let alg := pkeAlgOf c
  if inlBad c then .done badKey d
  else if c.desc.auxLen ≠ tmplAt c + 64 then .done (failed stBAD_LENGTH 0) d
  else needRoom c (kemCtLen alg) d <| withRandom c 96 d fun rnd d =>
    let r := kemEncap alg (pkOf c) (rnd.take 32)
    .done (kemDone c r.1 r.2) d

/-- MLKEM_DECAP. -/
def opDecap (c : Cmd) (d : Dev) : OpOut :=
  let k := key1 c
  if (srcOf c).length ≠ kemCtLen k.alg then .done (failed stBAD_LENGTH 0) d
  else if c.desc.auxLen ≠ tmplAt c + 64 then .done (failed stBAD_LENGTH 0) d
  else withRandom c 192 d fun _ d => .done (kemDone c (kemDecap k.alg k.mat (srcOf c)) []) d

/-! ## RSA (R211) -/

/-- Masking draw of a private operation (R217). -/
def rsaDraw (alg : Nat) : Nat := if alg = 0x0201 then 48 else if alg = 0x0202 then 64 else 80

/-- The plaintext that OAEP holds at most. -/
def oaepMax (alg hash : Nat) : Nat := rsaK alg - 2 * hashSize hash - 2

/-- RSA_PRIVATE. -/
def opRsaPrivate (c : Cmd) (d : Dev) : OpOut :=
  let k := key1 c
  let kk := rsaK k.alg
  let h := pHash c.desc
  let v := pVar c.desc
  let salt := saltLen (auxOf c)
  if v = 3 then
    if (srcOf c).length ≠ kk then .done (failed stBAD_LENGTH 0) d
    else needRoom c (oaepMax k.alg h) d <| withRandom c (rsaDraw k.alg) d fun _ d =>
      let n := (rsaPubOf k.alg k.mat).n
      let x := beNat (srcOf c)
      match (if n ≤ x then none else oaepDecode h kk (strOf c) (beBytes kk (rsaPriv k.alg k.mat x))) with
      | some m => .done (okOut m) d
      | none => .done (authFail c []) d
  else needRoom c kk d <| withRandom c (rsaDraw k.alg + (if v = 1 then salt else 0)) d fun rnd d =>
    let em := if v = 1 then pssEncode h kk (digestOf c h) (rnd.take salt) else pkcsEncode h kk (digestOf c h)
    .done (okOut (beBytes kk (rsaPriv k.alg k.mat (beNat em)))) d

/-- An RSA signature verifies (R211). -/
def rsaSigOk (alg : Nat) (pk : Bytes) (variant hash salt : Nat) (digest sig : Bytes) : Bool :=
  let p := rsaPubOf alg pk
  let s := beNat sig
  let em := beBytes p.k (powMod s p.e p.n)
  s < p.n && (if variant = 1 then pssOk hash p.k salt digest em else em = pkcsEncode hash p.k digest)

/-- RSA_PUBLIC. -/
def opRsaPublic (c : Cmd) (d : Dev) : OpOut :=
  let alg := pkeAlgOf c
  let kk := rsaK alg
  let h := pHash c.desc
  let pk := pkOf c
  if inlBad c then .done badKey d
  else if pVar c.desc = 3 then
    if oaepMax alg h < (srcOf c).length then .done (failed stBAD_LENGTH 0) d
    else needRoom c kk d <| withRandom c (hashSize h) d fun seed d =>
      let p := rsaPubOf alg pk
      .done (okOut (beBytes kk (powMod (beNat (oaepEncode h kk (strOf c) (srcOf c) seed)) p.e p.n))) d
  else if (operandOf c).length ≠ kk then .done (failed stBAD_LENGTH 0) d
  else .done (verdict (rsaSigOk alg pk (pVar c.desc) h (saltLen (auxOf c)) (digestOf c h) (operandOf c))) d

/-! ## ML-DSA, SLH-DSA, hash-based signatures (R212, R213) -/

/-- The message of a pure or pre-hashed form. -/
def pqOf (c : Cmd) : Bytes := pqMessage (if pPre c.desc then pHash c.desc else 0) (strOf c) (srcOf c)

/-- MLDSA_SIGN: at the iteration limit the command ends with ENGINE_FAULT. -/
def opMldsaSign (c : Cmd) (d : Dev) : OpOut :=
  let k := key1 c
  let det := pDet c.desc
  needRoom c (dsaSigLen k.alg) d <| withRandom c (if det then 0 else 32) d fun rnd d1 =>
    let r := dsaSign k.alg k.mat (pqOf c) (if det then zeros 32 else rnd)
    withRandom c (160 * r.2) d1 fun _ d =>
      match r.1 with
      | some sig => .done (okOut sig) d
      | none => .done (failed stENGINE 0) d

/-- MLDSA_VERIFY. -/
def opMldsaVerify (c : Cmd) (d : Dev) : OpOut :=
  let alg := pkeAlgOf c
  if (operandOf c).length ≠ dsaSigLen alg then .done (failed stBAD_LENGTH 0) d
  else if inlBad c then .done badKey d
  else .done (verdict (dsaOk alg (pkOf c) (pqOf c) (operandOf c))) d

/-- SLHDSA_SIGN. -/
def opSlhSign (c : Cmd) (d : Dev) : OpOut :=
  let k := key1 c
  let det := pDet c.desc
  needRoom c (slhSigLen k.alg) d <| withRandom c (if det then 64 else 80) d fun rnd d =>
    .done (okOut (slhSign k.alg k.mat (pqOf c) (if det then slice k.mat 32 16 else rnd.take 16))) d

/-- SLHDSA_VERIFY. -/
def opSlhVerify (c : Cmd) (d : Dev) : OpOut :=
  let alg := pkeAlgOf c
  if (operandOf c).length ≠ slhSigLen alg then .done (failed stBAD_LENGTH 0) d
  else if inlBad c then .done badKey d
  else .done (verdict (slhOk alg (pkOf c) (pqOf c) (operandOf c))) d

/-- HBS_VERIFY. -/
def opHbsVerify (c : Cmd) (d : Dev) : OpOut :=
  let v := pVar c.desc
  match hbsPkLen v (auxOf c) with
  | none => .done badKey d
  | some _ =>
    let r := if v = 1 then hssOk (pkOf c) (srcOf c) (operandOf c) else xmssOk (v = 3) (pkOf c) (srcOf c) (operandOf c)
    match r with
    | some ok => .done (verdict ok) d
    | none => .done (failed stBAD_DESCRIPTOR (0x0100 + operandAt c)) d

/-- IMAGE_VERIFY (R214). -/
def opImageVerify (c : Cmd) (d : Dev) : OpOut :=
  let k := key1 c
  let h := pHash c.desc
  let v := pVar c.desc
  let sig := operandOf c
  let pk := pkOf c
  let digest := hashRun h (srcOf c)
  let formOk : Bool := (if algRsa k.alg then v = 1 || v = 2 else v = 0) && (k.alg ≠ 0x0110 || h = 4)
  let size := if algEc k.alg then 2 * (curveOf k.alg).size else if k.alg = 0x0110 then 64 else if algRsa k.alg then rsaK k.alg
    else if algDsa k.alg then dsaSigLen k.alg else slhSigLen k.alg
  if !formOk then .done (failed stBAD_DESCRIPTOR 0x06) d
  else if v ≠ 1 && saltLen (auxOf c) ≠ 0 then .done (failed stBAD_DESCRIPTOR 0x0102) d
  else if sig.length ≠ size then .done (failed stBAD_LENGTH 0) d
  else
    let ok : Bool :=
      if algEc k.alg then
        let cv := curveOf k.alg
        match ecDecode cv pk with
        | some q => ecdsaOk cv q digest (beNat (sig.take cv.size)) (beNat (sig.drop cv.size))
        | none => false
      else if k.alg = 0x0110 then edOk 2 [] pk digest sig
      else if algRsa k.alg then rsaSigOk k.alg pk v h (saltLen (auxOf c)) digest sig
      else if algDsa k.alg then dsaOk k.alg pk (pqMessage h [] digest) sig
      else slhOk k.alg pk (pqMessage h [] digest) sig
    let out := if c.desc.dstLen = 0 then [] else digest
    .done { verdict ok with r0 := leNat (digest.take 8), out := out, outLen := if ok then out.length else 0 } d

/-! ## Key generation and export (R205, R206) -/

/-- KEY_GENERATE_PAIR. -/
def opGeneratePair (c : Cmd) (d : Dev) : OpOut :=
  let t := tmplOf (auxOf c)
  let p := c.desc.param
  let pubOut (pk : Bytes) : Bytes := if bit p 0 then pk else []
  if bit p 1 then
    let pk := srcOf c
    if !(pubKeyOk t.alg pk) then .done (failed stBAD_DESCRIPTOR 0) d
    else .done (created c t (recOf t t.alg t.attr true pk 0 false) (pubOut pk)) d
  else withRandom c (genDraw t.alg) d fun rnd d =>
    match genMat t.alg (if t.rsaE = 0 then 65537 else t.rsaE) rnd with
    | none => .done (failed stENGINE 0) d
    | some mat => .done (created c t (recOf t t.alg (t.attr + attrLocal) false mat 0 false) (pubOut (pubOf t.alg false mat))) d

/-- KEY_PUBLIC_EXPORT. -/
def opPublicExport (c : Cmd) (d : Dev) : OpOut :=
  let k := key1 c
  let pk := pubOf k.alg k.pubOnly k.mat
  needRoom c pk.length d <| .done { okOut pk with r0 := kcvNat k } d

/-! ## Auxiliary blocks (R208, R209) -/

/-- The form of ARGS and of the parts whose place the descriptor fixes. -/
def pkeAuxFault (c : Cmd) : Option Denial :=
  let x := c.desc
  let op := x.opcode
  let a := auxOf c
  let v := pVar x
  let hasStr : Bool := op = 0x0303 || op = 0x0304 || ((op = 0x0306 || op = 0x0307) && v = 3) || (0x030A ≤ op && op ≤ 0x030D)
  let eddsa : Bool := op = 0x0303 || op = 0x0304
  let sl := strLen a
  let strOk : Bool := if !hasStr then sl = 0
    else sl ≤ 255 && (!eddsa || v = 2 || (if v = 1 then 1 ≤ sl else sl = 0))
  let saltOk : Bool := saltLen a = 0
    || ((op = 0x0306 || op = 0x0307 || op = 0x030F) && v = 1 && saltLen a ≤ hashSize (pHash x))
  let hasTmpl : Bool := op = 0x0305 || op = 0x0308 || op = 0x0309
  let hasOperand : Bool := op = 0x0302 || op = 0x0304 || (op = 0x0307 && v ≠ 3) || op = 0x030B || 0x030D ≤ op
  let partsEnd := if sl = 0 then 8 + inlLen c else strAt c + sl
  if !strOk then some (stBAD_DESCRIPTOR, 0x0100)
  else if !saltOk then some (stBAD_DESCRIPTOR, 0x0102)
  else if leAt a 4 4 ≠ 0 then some (stBAD_DESCRIPTOR, 0x0104)
  else if op = 0x030E && (hbsPkLen v a).isNone then some (stBAD_DESCRIPTOR, 0x0108)
  else if hasOperand && x.auxLen < operandAt c then some (stBAD_LENGTH, 0)
  else if !hasOperand && !hasTmpl && x.auxLen ≠ partsEnd && x.auxLen ≠ alignUp partsEnd 8 then some (stBAD_LENGTH, 0)
  else none

end Sys2Proof.Machine
end

