-- ==== Sys2Proof/Machine/KeyOps.lean ====
section
/-! DEFINITION. Key-management operations: wrapping, key blocks, attributes, grants, listing, backup, clear import,
challenges (R130-R136, R158, R159, R309, R321). -/

namespace Sys2Proof.Machine

/-! ## Wrapping (R134) -/

/-- The AES-256 key of KEM_KWP. -/
def kemKwpKey (ss : Bytes) : Bytes := hkdfExpand hmac384 48 (hkdfExtract hmac384 (zeros 48) ss) (ascii "ADK-KEM-KWP") 32

/-- Length of a KWP blob. -/
def kwpLen (l : Nat) : Nat := alignUp l 8 + 8

/-- Length of a blob for material of l bytes, none where the format does not take it. -/
def blobLen (fmt wrapAlg l : Nat) : Option Nat :=
  match fmt with
  | 1 => some (kwpLen l)
  | 2 => some (l + 92)
  | 3 => if 16 ≤ l && l ≤ 64 then some (rsaK wrapAlg) else none
  | _ => some (kemCtLen wrapAlg + kwpLen l)

/-- Ticks remaining to EXPIRES. -/
def lifeLeft (d : Dev) (k : KeyRec) : Nat := if k.expires = 0 then 0 else k.expires - stamp d

/-- The header of an ATTR_GCM blob: of an export USAGE_LIMIT less the uses counted and in flight now, and the ticks left; of a backup
USAGE_LIMIT and LIFETIME unreduced (R134, R158). -/
def attrHeader (d : Dev) (k : KeyRec) (reduced : Bool) : Bytes :=
  let now := ((keyAt d (hRec k.handle)).filter (fun x => x.handle = k.handle)).getD k
  let used := if reduced then now.used + flightOf d (hRec k.handle) else 0
  tmplBytes { alg := k.alg, cls := hClass k.handle, qc := k.qc, tflags := b2n k.encLock, r5 := 0, attr := withBits k.attr attrLocal 0
              limit := k.limit - used, life := if reduced then lifeLeft d k else k.life, label := k.label
              rsaE := if algRsa k.alg then beNat (k.mat.take 8) else 0, r38 := 0 }

/-- An ATTR_GCM blob. -/
def attrSeal (key iv header mat : Bytes) : Bytes :=
  let r := gcmEnc (encFn 0x0012 key) iv header mat
  header ++ iv ++ r.1 ++ r.2

/-- The material of an ATTR_GCM blob, none where its tag does not verify. -/
def attrOpen (key blob : Bytes) : Option Bytes :=
  let n := blob.length - 92
  let r := gcmDec (encFn 0x0012 key) (slice blob 64 12) (blob.take 64) (slice blob 76 n)
  if 92 ≤ blob.length && r.2 = blob.drop (76 + n) then some r.1 else none

/-- Random bytes that an export draws. -/
def wrapDraw (fmt : Nat) : Nat := if fmt = 1 then 0 else if fmt = 2 then 12 else 32

/-- The blob of an export. -/
def wrapBlob (d : Dev) (fmt : Nat) (k w : KeyRec) (rnd : Bytes) : Bytes :=
  match fmt with
  | 1 => kwpWrap w.mat k.mat
  | 2 => attrSeal w.mat rnd (attrHeader d k true) k.mat
  | 3 =>
    let p := rsaPubOf w.alg w.mat
    beBytes p.k (powMod (beNat (oaepEncode 2 p.k [] k.mat rnd)) p.e p.n)
  | _ =>
    let r := kemEncap w.alg (pubOf w.alg w.pubOnly w.mat) rnd
    r.2 ++ kwpWrap (kemKwpKey r.1) k.mat

/-- KEY_EXPORT_WRAPPED. -/
def opExport (c : Cmd) (d : Dev) : OpOut :=
  let k := key1 c
  let w := key2 c
  let fmt := c.desc.param
  match blobLen fmt w.alg k.mat.length with
  | none => .done (failed stBAD_LENGTH 0) d
  | some n => needRoom c n d <| withRandom c (wrapDraw fmt) d fun rnd d =>
    .done { okOut (wrapBlob d fmt k w rnd) with r0 := kcvNat k, effects := [.exported k.handle] } d

/-- The material of a blob, none where it fails its integrity check. -/
def unwrapBlob (fmt : Nat) (w : KeyRec) (blob : Bytes) : Option Bytes :=
  match fmt with
  | 1 => kwpUnwrap w.mat blob
  | 2 => attrOpen w.mat blob
  | 3 =>
    let p := rsaPubOf w.alg w.mat
    let x := beNat blob
    if p.n ≤ x then none else oaepDecode 2 p.k [] (beBytes p.k (rsaPriv w.alg w.mat x))
  | _ =>
    let n := kemCtLen w.alg
    kwpUnwrap (kemKwpKey (kemDecap w.alg w.mat (blob.take n))) (blob.drop n)

/-- Lengths of material that an algorithm takes: private or secret, and public alone. -/
def matLens (alg : Nat) : List Nat :=
  match algRow alg with
  | none => []
  | some r => (List.range (r.hi + 1 - r.lo)).map (r.lo + ·) ++ (if algAsym alg then [pkLen alg] else [])

/-- Imported material is a public key alone. -/
def lenPublic (alg n : Nat) : Bool := algAsym alg && n = pkLen alg && ((algRow alg).map (·.lo)).getD 0 ≠ n

def matPublic (alg : Nat) (mat : Bytes) : Bool := lenPublic alg mat.length

/-- The first field in which a template differs from a header otherwise than in LABEL, ENC_LOCK, and ATTR bits that the template clears
(R131, R134). -/
def tmplDiffers (t h : Tmpl) : Option Nat :=
  let bad (off : Nat) (b : Bool) : List Nat := if b then [off] else []
  (bad 0x00 (t.alg ≠ h.alg) ++ bad 0x02 (t.cls ≠ h.cls) ++ bad 0x03 (t.qc ≠ h.qc) ++ bad 0x04 (t.tflags ≠ h.tflags / 2)
    ++ bad 0x05 (t.r5 ≠ h.r5) ++ bad 0x08 (Nat.land t.attr h.attr ≠ t.attr) ++ bad 0x10 (t.limit ≠ h.limit)
    ++ bad 0x18 (t.life ≠ h.life) ++ bad 0x30 (t.rsaE ≠ h.rsaE) ++ bad 0x38 (t.r38 ≠ h.r38)).head?

/-- KEY_IMPORT_WRAPPED. -/
def opImport (c : Cmd) (d : Dev) : OpOut :=
  let w := key1 c
  let fmt := c.desc.param
  let blob := srcOf c
  let hdr := tmplOf (blob.take 64)
  let given := tmplOf (auxOf c)
  let t : Tmpl := if fmt = 2 && c.desc.auxLen = 0 then hdr else given
  let lens := if fmt = 2 then (if 92 ≤ blob.length && (matLens hdr.alg).contains (blob.length - 92) then [blob.length] else [])
    else (((algRow t.alg).map (fun r => (List.range (r.hi + 1 - r.lo)).map (r.lo + ·))).getD []).filterMap (blobLen fmt w.alg)
  if fmt = 2 && blob.length < 92 then .done (failed stBAD_LENGTH 0) d
  else if !(lens.contains blob.length) then .done (failed stBAD_LENGTH 0) d
  else match unwrapBlob fmt w blob with
    | none => .done (failed stAUTH_FAIL 0) d
    | some mat =>
      let pub := fmt = 2 && matPublic t.alg mat
      let lock := fmt = 2 && bit hdr.tflags 0
      match (if fmt = 2 && c.desc.auxLen ≠ 0 then tmplDiffers given hdr else none) with
      | some off => .done (failed stBAD_DESCRIPTOR (0x0100 + off)) d
      | none => match tmplFault { t with tflags := t.tflags / 2 } t.alg pub (algRow t.alg).isSome (t.cls ≠ 2) (fmt ≠ 2 || algRsa t.alg || t.rsaE = 0) with
        | some off => .done (failed stBAD_DESCRIPTOR (0x0100 + off)) d
        | none =>
          if fmt = 3 && (mat.length < 16 || 64 < mat.length) then .done (failed stBAD_LENGTH 0) d
          else if algStrength w.alg w.mat.length < algStrength t.alg mat.length then .done (failed stPOLICY 68) d
          else if !pub && !(((algRow t.alg).map (fun r => r.lo ≤ mat.length && mat.length ≤ r.hi)).getD false) then
            .done (failed stBAD_LENGTH 0) d
          else if !(pub && pubKeyOk t.alg mat) && !(matOk t.alg mat) then .done (failed stBAD_DESCRIPTOR 0) d
          else .done (created c t (recOf t t.alg t.attr pub mat 0 lock) []) d

/-! ## X9.143 key blocks (R136) -/

/-- Hexadecimal digits in ASCII. -/
def hexOf (b : Bytes) : Bytes := (nibbles b).map (fun n => BitVec.ofNat 8 (if n < 10 then 0x30 + n else 0x41 + n - 10))

/-- The value of a hexadecimal digit. -/
def hexVal (b : Byte) : Option Nat :=
  let n := b.toNat
  if 0x30 ≤ n && n ≤ 0x39 then some (n - 0x30) else if 0x41 ≤ n && n ≤ 0x46 then some (n - 0x41 + 10) else none

/-- The bytes that hexadecimal text spells. -/
def unhex (b : Bytes) : Option Bytes :=
  if b.length % 2 = 0 && b.all (fun x => (hexVal x).isSome) then some (ofNibbles (b.map (fun x => (hexVal x).getD 0))) else none

/-- A decimal number of n digits in ASCII. -/
def decOf (n v : Nat) : Bytes := (List.range n).map (fun i => BitVec.ofNat 8 (0x30 + v / 10 ^ (n - 1 - i) % 10))

/-- The value of decimal text. -/
def decVal (b : Bytes) : Option Nat :=
  if b.all (fun x => 0x30 ≤ x.toNat && x.toNat ≤ 0x39) then some (b.foldl (fun a x => a * 10 + (x.toNat - 0x30)) 0) else none

/-- A key of a block: for encryption (use 0) or authentication (use 1), derived from the protection key. -/
def kbKey (kbpk : KeyRec) (use : Nat) : Bytes :=
  let n := kbpk.mat.length
  let alg := match kbpk.alg with | 0x0018 => 1 | 0x0010 => 2 | 0x0011 => 3 | _ => 4
  let bl := blkLen kbpk.alg
  let mac := cmacWith bl (encFn kbpk.alg kbpk.mat)
  (((List.range ((n + bl - 1) / bl)).map (fun i =>
    mac ([BitVec.ofNat 8 (i + 1)] ++ beBytes 2 use ++ [0x00] ++ beBytes 2 alg ++ beBytes 2 (8 * n)))).flatten).take n

/-- MAC of header and clear key data. -/
def kbMac (kbpk : KeyRec) (m : Bytes) : Bytes := cmacWith (blkLen kbpk.alg) (encFn kbpk.alg (kbKey kbpk 1)) m

/-- Usage, algorithm and mode of a key for export, none where the tables do not list it. -/
def kbFields (k : KeyRec) : Option (Bytes × Byte × Byte) :=
  let use := bits k.attr 15 0
  let modes := bits k.attr 38 32
  let alg : Option Byte := if algAes k.alg then some 0x41 else if k.alg = 0x0018 then some 0x54
    else if k.alg = 0x0020 then some 0x48 else none
  let sel (x y : Nat) (both one two : Byte) : Byte := if bit use x && bit use y then both else if bit use x then one else two
  match alg with
  | none => none
  | some a =>
    if a = 0x48 then
      if Nat.land use 0x000C = use && use ≠ 0 then some (ascii "M7", a, sel atSIGN atVERIFY 0x43 0x47 0x56) else none
    else if use = 2 ^ atDUKPT then some (ascii "B0", a, 0x58)
    else if use = 2 ^ atCARD then some (ascii "C0", a, 0x43)
    else if use = 2 ^ atPIN then some (ascii "P0", a, 0x42)
    else if use ≠ 0 && Nat.land use 0x0003 = use then some (ascii "D0", a, sel atENCRYPT atDECRYPT 0x42 0x45 0x44)
    else if use ≠ 0 && Nat.land use 0x0030 = use then some (ascii "K1", a, sel atWRAP atUNWRAP 0x42 0x45 0x44)
    else if use ≠ 0 && Nat.land use 0x000C = use && modes = 2 ^ 5 then some (ascii "M6", a, sel atSIGN atVERIFY 0x43 0x47 0x56)
    else none

/-- The padding block of an export, the one optional block that it writes: of the length of one cipher block (R136). -/
def kbPad (bl : Nat) : Bytes := ascii "PB" ++ hexOf [BitVec.ofNat 8 bl] ++ (List.range (bl - 4)).map Config.padBlockByte

/-- Length of a key block for material of l bytes. -/
def kbLen (kbpk : KeyRec) (l : Nat) : Nat :=
  let bl := blkLen kbpk.alg
  16 + bl + 2 * alignUp (2 + l) bl + 2 * bl

/-- KEY_EXPORT_X9143. -/
def opExportX9 (c : Cmd) (d : Dev) : OpOut :=
  let k := key1 c
  let w := key2 c
  let a := auxOf c
  let bl := blkLen w.alg
  let n := kbLen w k.mat.length
  match kbFields k with
  | none => .done (failed stPOLICY 65) d
  | some (use, alg, mode) =>
    needRoom c n d <| withRandom c (alignUp (2 + k.mat.length) bl - 2 - k.mat.length) d fun pad d =>
      let ex : Byte := if bit k.attr atTRUSTED_ONLY then 0x45 else 0x53
      let hdr := a.take 1 ++ decOf 4 n ++ use ++ [alg, mode] ++ slice a 1 2 ++ [ex] ++ ascii "0100" ++ kbPad bl
      let clear := beBytes 2 (8 * k.mat.length) ++ k.mat ++ pad
      let mac := kbMac w (hdr ++ clear)
      let ct := (cbcEnc bl (encFn w.alg (kbKey w 0)) mac clear).1
      .done { okOut (hdr ++ hexOf ct ++ hexOf mac) with r0 := kcvNat k, effects := [.exported k.handle] } d

/-- The optional blocks: where they end and the KS data, or the offset of one that is not accepted; fuel is their number. -/
def kbOpts : Nat → Nat → Bytes → Bytes → Except Nat (Nat × Bytes)
  | 0, at', _, ks => .ok (at', ks)
  | n + 1, at', b, ks =>
    let id := slice b at' 2
    let len := ((unhex (slice b (at' + 2) 2)).map beNat).getD 0
    if len < 4 || b.length < at' + len || !(id = ascii "KS" || id = ascii "KV" || id = ascii "PB") then .error at'
    else kbOpts n (at' + len) b (if id = ascii "KS" then slice b (at' + 4) (len - 4) else ks)

/-- Use and mode bits that a key block's usage, algorithm and mode of use give; whether MODES or PIN_FMT come from the
template (R136). -/
def kbAttr (use : Bytes) (alg mode : Byte) : Option (Nat × Bool × Bool) :=
  let at3 (b e g : Nat) : Option Nat := if mode = 0x42 then some b else if mode = 0x45 then some e else if mode = 0x44 then some g else none
  let mac3 (m : Nat) : Option Nat := if mode = 0x43 then some (0xC + m) else if mode = 0x47 then some (0x4 + m) else if mode = 0x56 then some (0x8 + m) else none
  let block : Bool := alg = 0x41 || alg = 0x54
  if use = ascii "B0" && block && mode = 0x58 then some (2 ^ atDUKPT, false, false)
  else if use = ascii "C0" && block && (mode = 0x43 || mode = 0x47 || mode = 0x56) then some (2 ^ atCARD, false, false)
  else if use = ascii "D0" && block then (at3 3 1 2).map (fun u => (u, true, false))
  else if (use = ascii "K0" || use = ascii "K1") && block then (at3 0x30 0x10 0x20).map (fun u => (u, false, false))
  else if use = ascii "M6" && block then (mac3 (2 ^ 37)).map (fun u => (u, false, false))
  else if use = ascii "M7" && alg = 0x48 then (mac3 0).map (fun u => (u, false, false))
  else if use = ascii "P0" && block then (at3 1 1 1).map (fun _ => (2 ^ atPIN, false, true))
  else none

/-- ALG and stored material of a block's key: a double-length TDES key has K3 equal to K1. -/
def kbMat (alg : Byte) (mat : Bytes) : Option (Nat × Bytes) :=
  let n := mat.length
  if alg = 0x41 then (if n = 16 then some (0x0010, mat) else if n = 24 then some (0x0011, mat) else if n = 32 then some (0x0012, mat) else none)
  else if alg = 0x54 then (if n = 24 then some (0x0018, mat) else if n = 16 then some (0x0018, triple mat) else none)
  else if 16 ≤ n && n ≤ 128 then some (0x0020, mat) else none

/-- KEY_IMPORT_X9143. -/
def opImportX9 (c : Cmd) (d : Dev) : OpOut :=
  let w := key1 c
  let b := srcOf c
  let t := tmplOf (auxOf c)
  let bl := blkLen w.alg
  let bad (off : Nat) : OpOut := .done (failed stBAD_DESCRIPTOR (0x0200 + off)) d
  if b.isEmpty then .done (failed stBAD_LENGTH 0) d
  else if !(b.headD 0 = 0x44 || b.headD 0 = 0x42) then bad 0
  else if (b.headD 0 = 0x44) ≠ algAes w.alg then .done (failed stPOLICY 65) d
  else if b.length < 16 + 4 * bl then .done (failed stBAD_LENGTH 0) d
  else if decVal (slice b 1 4) ≠ some b.length then .done (failed stBAD_LENGTH 0) d
  else match kbAttr (slice b 5 2) (b.getD 7 0) (b.getD 8 0), decVal (slice b 12 2) with
  | none, _ => bad 5
  | _, none => bad 12
  | some (use, wantModes, wantPin), some opts =>
    let ex := b.getD 11 0
    if !(ex = 0x45 || ex = 0x53 || ex = 0x4E) then bad 11
    else if slice b 14 2 ≠ ascii "00" then bad 14
    else match kbOpts opts 16 b [] with
    | .error off => bad off
    | .ok (at', ks) =>
      let ctLen := b.length - at' - 2 * bl
      match unhex (slice b at' ctLen), unhex (b.drop (at' + ctLen)) with
      | some ct, some mac =>
        if ct.length % bl ≠ 0 || ct.isEmpty || b.length < at' + 2 * bl then .done (failed stBAD_LENGTH 0) d
        else
          let clear := (cbcDec bl (decFn w.alg (kbKey w 0)) mac ct).1
          let n := beNat (clear.take 2) / 8
          if kbMac w (b.take at' ++ clear) ≠ mac then .done (failed stAUTH_FAIL 0) d
          else if clear.length < 2 + n || beNat (clear.take 2) % 8 ≠ 0 then .done (failed stBAD_DESCRIPTOR (0x0200 + at')) d
          else match kbMat (b.getD 7 0) (slice clear 2 n) with
            | none => .done (failed stBAD_DESCRIPTOR (0x0200 + at')) d
            | some (alg, mat) =>
              let mine := 2 ^ atUSAGE_LIMITED + 2 ^ atGRANTABLE + 2 ^ atCUSTODY + 2 ^ atBACKUP + 2 ^ atNONCE_HW
                + (if wantModes then 0x7F * 2 ^ 32 else 0) + (if wantPin then 0xF * 2 ^ 40 else 0)
              let attr := t.attr + use + (if ex = 0x4E then 0 else 2 ^ atEXPORTABLE) + (if ex = 0x45 then 2 ^ atTRUSTED_ONLY else 0)
              let short := (wantModes && bits t.attr 38 32 = 0) || (wantPin && bits t.attr 43 40 = 0)
              if Nat.land t.attr mine ≠ t.attr || short then .done (failed stBAD_DESCRIPTOR 0x0108) d
              else match tmplFault { t with alg := alg, attr := attr } alg false true (t.cls ≠ 2) (t.rsaE = 0) with
                | some off => .done (failed stBAD_DESCRIPTOR (0x0100 + off)) d
                | none =>
                  if algStrength w.alg w.mat.length < algStrength alg mat.length then .done (failed stPOLICY 68) d
                  else
                    let t := if t.label.all (· == 0) then { t with label := fitTo 16 ks } else t
                    .done (created c t (recOf t alg attr false mat 0 false) []) d
      | _, _ => bad at'

/-! ## Attributes, grants, listing (R130, R132) -/

/-- The report of KEY_GET_ATTR. -/
def attrReport (d : Dev) (who : Nat) (k : KeyRec) : Bytes :=
  let flags := keyFlags k + b2n (residentOf d (hRec k.handle)).isSome * 8
  let grants := if hInst k.handle = who then k.grants.length else 0
  fitTo 128 (leBytes 2 k.alg ++ leBytes 1 (hClass k.handle) ++ leBytes 1 k.qc ++ leBytes 2 flags ++ leBytes 2 grants
    ++ leBytes 8 (effAttr k who) ++ leBytes 8 k.used ++ leBytes 8 k.limit ++ leBytes 8 k.expires ++ leBytes 8 k.parent
    ++ fitTo 16 k.label ++ fitTo 4 k.kcv ++ leBytes 4 k.mat.length ++ leBytes 8 k.nonce)

/-- KEY_GET_ATTR, on the record as it stood at the policy check (R95). -/
def opGetAttr (c : Cmd) (d : Dev) : OpOut :=
  let k := key1 c
  .done { okOut (attrReport d c.inst k) with r0 := effAttr k c.inst, r1 := k.used } d

/-- KEY_DESTROY. -/
def opDestroy (c : Cmd) (d : Dev) : OpOut := .done { okRes 0 0 with effects := [.destroy c.desc.key] } d

/-- A change block. -/
structure Change where
  set : Nat
  clear : Nat
  limit : Nat
  apply : Nat
  rsvd : Bytes
  label : Bytes
deriving DecidableEq, Repr

/-- The change block of KEY_SET_ATTR. -/
def changeOf (b : Bytes) : Change :=
  ⟨leAt b 0 8, leAt b 8 8, leAt b 0x10 8, leAt b 0x18 1, slice b 0x19 7, slice b 0x20 16⟩

/-- All ones: USAGE_LIMIT does not change. -/
def keepLimit : Nat := 2 ^ 64 - 1

/-- The form of a change block: the offset of the first field at fault (R132). -/
def changeFault (x : Change) : Option Nat :=
  let barred := attrLocal + attrReserved
  let bad (off : Nat) (b : Bool) : List Nat := if b then [off] else []
  (bad 0x00 (Nat.land x.set barred ≠ 0) ++ bad 0x08 (Nat.land x.clear barred ≠ 0) ++ bad 0x00 (Nat.land x.set x.clear ≠ 0)
    ++ bad 0x18 (1 < x.apply) ++ bad 0x19 (x.rsvd.any (· != 0)) ++ bad 0x20 (x.apply = 0 && x.label.any (· != 0))).head?

/-- ATTR after a change. -/
def changeAttr (at' : Nat) (x : Change) : Nat := withBits (Nat.lor at' x.set) x.clear 0

/-- A change widens the attributes of a record (R130). -/
def widens (k : KeyRec) (x : Change) : Bool :=
  let up := 0xFFFF + 0x7F * 2 ^ 32 + 0xF * 2 ^ 40 + 2 ^ atEXPORTABLE + 2 ^ atGRANTABLE + 2 ^ atBACKUP + 2 ^ atWRAP_TRUSTED
  let down := 2 ^ atTRUSTED_ONLY + 2 ^ atCUSTODY + 2 ^ atUSAGE_LIMITED + 2 ^ atNONCE_HW
  let new := changeAttr k.attr x
  Nat.land (new - Nat.land new k.attr) up ≠ 0 || Nat.land (k.attr - Nat.land k.attr new) down ≠ 0
    || (x.limit ≠ keepLimit && k.limit < x.limit)

/-- The rules on a change of a record as it stands (R130): status and INFO of the first broken. -/
def changeDenied (d : Dev) (k : KeyRec) (x : Change) : Option Denial :=
  let new := changeAttr k.attr x
  let limit := if x.limit = keepLimit then k.limit else x.limit
  if k.encLock && bit x.set atENCRYPT then some (stPOLICY, 71)
  else if !(attrKept k new limit) then some (stBAD_DESCRIPTOR, 0x0100)
  else if limit < k.limit && (limit < k.used + flightOf d (hRec k.handle) || (hClass k.handle = 0 && limit < k.resv)) then
    some (stBAD_DESCRIPTOR, 0x0110)
  else none

/-- KEY_SET_ATTR, judged against the record as it stands; the key store controller judges it again at release. -/
def opSetAttr (c : Cmd) (d : Dev) : OpOut :=
  let x := changeOf (auxOf c)
  match keyAt d (hRec c.desc.key) with
  | none => .done (failed stSTALE 0) d
  | some k =>
    match changeDenied d k x with
    | some e => .done (failed e.1 e.2) d
    | none => .done { okRes (changeAttr k.attr x) 0 with
        effects := [.setAttr c.desc.key x.set x.clear x.limit (if x.apply = 1 then some x.label else none)] } d

/-- A grant entry. -/
def grantOf (b : Bytes) : Grantee := ⟨bits (leAt b 0 8) 63 54, bits (leAt b 0 8) 15 0⟩

/-- KEY_GRANT. -/
def opGrant (c : Cmd) (d : Dev) : OpOut :=
  let g := grantOf (auxOf c)
  let k := ((keyAt d (hRec c.desc.key)).filter (fun k => k.handle = c.desc.key)).getD (key1 c)
  if Nat.land g.mask (bits k.attr 15 0) ≠ g.mask then .done (failed stBAD_DESCRIPTOR 0x0100) d
  else if 60 ≤ k.grants.length && !(k.grants.any (fun x => x.inst = g.inst)) then .done (failed stPOLICY 72) d
  else .done { okRes 0 0 with effects := [.grant c.desc.key g] } d

/-- KEY_REVOKE_GRANT: a grantee revokes only its own. -/
def opRevoke (c : Cmd) (d : Dev) : OpOut :=
  let g := grantOf (auxOf c)
  if hInst c.desc.key ≠ c.inst && g.inst ≠ c.inst then .done (failed stPOLICY 64) d
  else .done { okRes 0 0 with effects := [.revoke c.desc.key g.inst] } d

/-- The entry of a key in a listing. -/
def listEntry (d : Dev) (k : KeyRec) : Bytes :=
  leBytes 8 k.handle ++ leBytes 2 k.alg ++ leBytes 2 (keyFlags k + b2n (residentOf d (hRec k.handle)).isSome * 8) ++ zeros 4
    ++ fitTo 16 k.label

/-- Records are read from T1 for a command, which takes the tag of what was read (R145). -/
def t1ReadFor (c : Cmd) (ns : List Nat) (d : Dev) : Dev :=
  let (t, d) := ns.foldl (fun (acc : Option Nat × Dev) n =>
    let (t, d) := t1Read [] n acc.2
    (tagMax acc.1 t, d)) (none, d)
  match cmdOf d c.tag with
  | some x => putCmd { x with epoch := tagMax x.epoch t } d
  | none => d

/-- KEY_LIST; the cursor is the record number to go on from. During a restore it waits until the frontier has passed the records that it
reports and the one that the cursor names (R148). -/
def opList (c : Cmd) (d : Dev) : OpOut :=
  let a := auxOf c
  let start := leAt a 0 8
  let alg := leAt a 8 2
  let mine (k : KeyRec) : Bool := if c.desc.param = 0 then hInst k.handle = c.inst else k.grants.any (fun g => g.inst = c.inst)
  let all := (keysOf d).filter (fun nk => start ≤ nk.1 && mine nk.2 && (alg = 0 || nk.2.alg = alg))
  let room := c.desc.dstLen / 32
  let take := all.take room
  let next := ((all.drop room).head?.map (·.1)).getD 0
  if restoring d && (all.filter (fun nk => nk.1 < d.key.frontier)).length ≤ room then .wait d
  else
    let d := t1ReadFor c ((take.map (·.1)).filter (fun n => (residentOf d n).isNone)) d
    .done { okOut (take.map (fun nk => listEntry d nk.2)).flatten with r0 := next, r1 := take.length } d

/-! ## Backup and restore (R158, R159) -/

/-- The header of a backup container. -/
def backupHeader (inst count : Nat) (kcv : Bytes) : Bytes :=
  fitTo 32 (ascii "ADKB" ++ [0x01, 0x00] ++ leBytes 2 inst ++ leBytes 4 count ++ fitTo 3 kcv)

/-- The quorum classes of the tickets that a command holds. -/
def heldClasses (c : Cmd) (d : Dev) : List Nat := c.tickets.filterMap (fun id => (chalHeld d id).map (·.cls))

/-- Keys that a backup includes from a cursor on, by record number. -/
def backupKeys (c : Cmd) (d : Dev) : List (Nat × KeyRec) :=
  (keysOf d).filter (fun nk =>
    let k := nk.2
    leAt (auxOf c) 0 8 ≤ nk.1 && hInst k.handle = c.inst && hClass k.handle = 0 && bit k.attr atBACKUP && !k.damaged
      && algStrength k.alg k.mat.length ≤ 256 && (!(bit k.attr atCUSTODY) || (heldClasses c d).contains k.qc))

/-- Length of a backup entry. -/
def backupEntLen (k : KeyRec) : Nat := 24 + 92 + k.mat.length

/-- The keys that fit in an output area. -/
def backupFit : Nat → List (Nat × KeyRec) → List (Nat × KeyRec)
  | _, [] => []
  | room, nk :: rest => if backupEntLen nk.2 ≤ room then nk :: backupFit (room - backupEntLen nk.2) rest else []

/-- KEY_BACKUP_EXPORT. During a restore it waits as KEY_LIST does, until the frontier has passed the records it takes (R148). -/
def opBackup (c : Cmd) (d : Dev) : OpOut :=
  let w := key2 c
  let all := backupKeys c d
  let fit := backupFit (c.desc.dstLen - 32) all
  let passed := all.filter (fun nk => nk.1 < d.key.frontier)
  if restoring d && (backupFit (c.desc.dstLen - 32) passed).length = passed.length then .wait d
  else
  let d := t1ReadFor c (fit.map (·.1)) d
  withRandom c (12 * fit.length) d fun rnd d =>
    let ents := fit.zipIdx.map (fun ki =>
      let k := ki.1.2
      leBytes 8 k.handle ++ leBytes 8 k.resv ++ leBytes 8 k.nonceResv
        ++ attrSeal w.mat (slice rnd (12 * ki.2) 12) (attrHeader d k false) k.mat)
    let next := ((all.drop fit.length).head?.map (·.1)).getD 0
    .done { okOut (backupHeader c.inst fit.length w.kcv ++ ents.flatten) with
      r0 := next, r1 := fit.length, effects := fit.map (fun nk => .exported nk.2.handle) } d

/-- The first entry of a container's rest: handle, USAGE_RESV, NONCE_RESV, header, material and what follows; none where no
length of material authenticates. -/
def backupEntry (key b : Bytes) : Option (Nat × Nat × Nat × Tmpl × Bytes × Bytes) :=
  let h := tmplOf (slice b 24 64)
  let rest := b.drop 24
  ((matLens h.alg).filter (fun n => n + 92 ≤ rest.length)).findSome? (fun n =>
    (attrOpen key (rest.take (n + 92))).map (fun m => (leAt b 0 8, leAt b 8 8, leAt b 16 8, h, m, rest.drop (n + 92))))

/-- A restored record: ENCRYPT cleared and ENC_LOCK set where GCM is permitted, its counters those of the entry (R159). -/
def restored (resv nonceResv : Nat) (h : Tmpl) (mat : Bytes) : KeyRec :=
  let gcm := bit h.attr 35
  let attr := if gcm then setBit h.attr atENCRYPT false else h.attr
  let k := recOf h h.alg attr (matPublic h.alg mat) mat 0 (gcm || bit h.tflags 0)
  let used := if bit h.attr atUSAGE_LIMITED then resv else 0
  { k with used := used, resv := resv, nonce := nonceResv, nonceResv := nonceResv }

/-- How KEY_RESTORE ends after n entries: their effects stand and their pairs are written, whatever the status (R159). -/
def restoreEnd (c : Cmd) (n : Nat) (es : List Effect) (r : Result) : Result :=
  { r with effects := es, out := zeros (if c.desc.param = 1 then 16 * n else 0) }

/-- The entries of a container, restored in order: how the command ends, and the effects of the entries before. -/
def restoreGo (c : Cmd) (d : Dev) : Nat → Bytes → Nat → List Effect → Result
  | 0, _, n, es => restoreEnd c n es { okRes n 0 with outLen := if c.desc.param = 1 then 16 * n else 0 }
  | f + 1, b, n, es =>
    match backupEntry (key2 c).mat b with
    | none => restoreEnd c n es { failed stAUTH_FAIL 0 with r0 := n }
    | some (old, resv, nonceResv, h, mat, rest) =>
      let k := restored resv nonceResv h mat
      let here : Option KeyRec := (keyAt d (hRec old)).filter (fun x => x.handle = old && x.damaged && hInst old = c.inst)
      if c.desc.param = 0 && here.isNone then restoreGo c d f rest n es
      else if bit k.attr atUSAGE_LIMITED && !(classUsable d k.qc) then restoreEnd c n es (failed stPOLICY 70)
      else if bit k.attr atUSAGE_LIMITED && !((heldClasses c d).contains k.qc) then
        restoreEnd c n es (failed (if c.desc.ticketLen = 0 then stQUORUM else stTICKET) (if c.desc.ticketLen = 0 then 0 else 4))
      else if c.desc.param = 0 then restoreGo c d f rest (n + 1) (es ++ [.repair old { k with handle := old }])
      else restoreGo c d f rest (n + 1) (es ++ [.create k 0 c.inst h.life false (some (16 * n + 8))])

/-- Old handles of the entries recreated, at their places in the output. -/
def oldHandles (key : Bytes) : Nat → Bytes → Bytes
  | 0, _ => []
  | f + 1, b => match backupEntry key b with
    | none => []
    | some (old, _, _, _, _, rest) => leBytes 8 old ++ zeros 8 ++ oldHandles key f rest

/-- KEY_RESTORE. -/
def opRestore (c : Cmd) (d : Dev) : OpOut :=
  let b := srcOf c
  let count := leAt b 8 4
  if !(vaultWritable d) then .done (failed stVAULT_RO 0) d
  else if b.take 4 ≠ ascii "ADKB" || leAt b 4 1 ≠ 1 then .done (failed stBAD_DESCRIPTOR 0) d
  else if slice b 12 3 ≠ fitTo 3 (key2 c).kcv then .done (failed stBAD_DESCRIPTOR 12) d
  else if c.desc.param = 1 && c.desc.dstLen < 16 * count then .done (tooSmall (16 * count)) d
  else
    let r := restoreGo c d count (b.drop 32) 0 []
    .done (if c.desc.param = 1 then { r with out := (oldHandles (key2 c).mat count (b.drop 32)).take r.out.length } else r) d

/-! ## Clear import and challenges (R309, R321) -/

/-- The components of a clear import combined. -/
def clearJoin (n len : Nat) (src : Bytes) : Bytes :=
  (List.range n).foldl (fun a i => xorBytes a (slice src (len * i) len)) (zeros len)

/-- KEY_IMPORT_CLEAR. -/
def opImportClear (c : Cmd) (d : Dev) : OpOut :=
  let a := auxOf c
  let t := tmplOf a
  let n := c.desc.param
  let len := symLen t.alg c.desc.opcode
  let part (i : Nat) : Bytes := slice (srcOf c) (len * i) len
  let mat := clearJoin n len (srcOf c)
  match firstBelow n (fun i => kcvOf t.alg false (part i) ≠ slice a (64 + 8 * i + 5) 3) with
  | some i => .done (failed stVERIFY_FAIL (i + 1)) d
  | none =>
    if kcvOf t.alg false mat ≠ slice a (64 + 8 * n) 3 then .done (failed stVERIFY_FAIL 0) d
    else .done (created c t (recOf t t.alg t.attr false mat 0 false) []) d

/-- QUORUM_CHALLENGE. -/
def opChallenge (c : Cmd) (d : Dev) : OpOut :=
  let a := auxOf c
  let cls := bits c.desc.param 7 0
  if !(classUsable d cls) then .done (failed stBAD_DESCRIPTOR 0x06) d
  else
    let op := leAt a 0 2
    match chalIssue cls (chalWho c.inst op) (bit c.desc.param 8) op (leAt a 8 8) (slice a 0x10 48) d with
    | (none, d) => .done (failed stENTROPY 0) d
    | (some (id, bs), d) => .done { okOut bs with r0 := id } (cardsNext d)

/-! ## Auxiliary blocks -/

/-- A template at an offset of the auxiliary block, for an opcode whose key has no parent or is judged later. -/
def plainTmplFault (t : Tmpl) (pubOnly algOk clsOk eOk : Bool) : Option Denial :=
  (tmplFault t t.alg pubOnly algOk clsOk eOk).map (fun off => (stBAD_DESCRIPTOR, 0x0100 + off))

/-- Key-management, derivation and TLS blocks in form, by opcode. -/
def keyAuxFault (c : Cmd) : Option Denial :=
  let x := c.desc
  let a := auxOf c
  let t := tmplOf a
  let noE : Bool := t.rsaE = 0
  match x.opcode with
  | 0x0101 => plainTmplFault t false (algSym t.alg) (t.cls ≠ 2) noE
  | 0x0102 =>
    let imp := bit x.param 1
    let e : Bool := if algRsa t.alg && !imp then t.rsaE = 0 || (65537 ≤ t.rsaE && t.rsaE % 2 = 1) else noE
    match plainTmplFault t imp (algAsym t.alg) (t.cls ≠ 2) e with
    | some f => some f
    | none =>
      if imp && x.srcLen ≠ pkLen t.alg then some (stBAD_LENGTH, 0)
      else if bit x.param 0 && x.dstLen < pkLen t.alg then some (stBUFFER_TOO_SMALL, pkLen t.alg) else none
  | 0x0103 =>
    if x.param = 2 then
      (if x.auxLen = 0 then none
       else plainTmplFault t (lenPublic t.alg (x.srcLen - 92)) (algRow t.alg).isSome (t.cls ≠ 2) (algRsa t.alg || noE))
    else plainTmplFault t false (algRow t.alg).isSome (t.cls ≠ 2) noE
  | 0x0104 =>
    let bad (off : Nat) (b : Bool) : List Nat := if b then [off] else []
    ((bad 0x00 (t.alg ≠ 0) ++ bad 0x02 (1 < t.cls) ++ bad 0x03 (31 < t.qc && t.qc ≠ 0xFF) ++ bad 0x04 (t.tflags ≠ 0)
      ++ bad 0x05 (t.r5 ≠ 0) ++ bad 0x30 (t.rsaE ≠ 0) ++ bad 0x38 (t.r38 ≠ 0)).head?).map (fun o => (stBAD_DESCRIPTOR, 0x0100 + o))
  | 0x0106 =>
    if !(leAt a 0 1 = 0x42 || leAt a 0 1 = 0x44) then some (stBAD_DESCRIPTOR, 0x0100)
    else if (slice a 3 5).any (· != 0) then some (stBAD_DESCRIPTOR, 0x0103) else none
  | 0x0107 => plainTmplFault t false (algSym t.alg) true noE
  | 0x010A => (changeFault (changeOf a)).map (fun o => (stBAD_DESCRIPTOR, 0x0100 + o))
  | 0x010B => if (slice a 10 6).any (· != 0) then some (stBAD_DESCRIPTOR, 0x010A) else none
  | 0x010C => if bits (leAt a 0 8) 52 16 ≠ 0 || !(bit (leAt a 0 8) 53) then some (stBAD_DESCRIPTOR, 0x0100) else none
  | 0x010D => if bits (leAt a 0 8) 52 16 ≠ 0 then some (stBAD_DESCRIPTOR, 0x0100) else none
  | 0x0110 =>
    let n := x.param
    match plainTmplFault t false (algAes t.alg || t.alg = 0x0018) (t.cls ≠ 2) noE with
    | some f => some f
    | none =>
      let officer (i : Nat) : Nat := leAt a (64 + 8 * i) 1
      let twice (i : Nat) : Bool := (List.range i).any (fun j => officer j = officer i)
      match firstBelow n (fun i => twice i || leAt a (64 + 8 * i + 1) 4 ≠ 0) with
      | some i => some (stBAD_DESCRIPTOR, 0x0100 + 64 + 8 * i + b2n (!(twice i)))
      | none =>
        if leAt a (64 + 8 * n + 3) 5 ≠ 0 then some (stBAD_DESCRIPTOR, 0x0100 + 64 + 8 * n + 3)
        else if x.srcLen ≠ n * symLen t.alg x.opcode then some (stBAD_LENGTH, 0) else none
  | 0x0112 => if leAt a 2 6 ≠ 0 then some (stBAD_DESCRIPTOR, 0x0102) else none
  | 0x0305 => match pkeAuxFault c with
    | some f => some f
    | none => if pVar x = 1 then secretTmplFault (pkeTmpl c) else none
  | 0x0308 | 0x0309 => match pkeAuxFault c with
    | some f => some f
    | none => if x.auxLen ≠ tmplAt c + 64 then some (stBAD_LENGTH, 0) else secretTmplFault (pkeTmpl c)
  | 0x0407 =>
    if leAt a 68 4 ≠ 0 then some (stBAD_DESCRIPTOR, 0x0144)
    else if 128 < leAt a 64 2 || 1024 < leAt a 66 2 || x.auxLen ≠ 72 + leAt a 64 2 + leAt a 66 2 then some (stBAD_LENGTH, 0)
    else plainTmplFault t false (algSym t.alg) true noE
  | 0x0408 => plainTmplFault t false (algSym t.alg) true noE
  | 0x0409 =>
    let t := tmplOf (a.drop (x.auxLen - 64))
    let bad (off : Nat) (b : Bool) : List Nat := if b then [off] else []
    ((bad 0x00 (t.alg ≠ 0) ++ bad 0x02 (t.cls = 0 || 2 < t.cls) ++ bad 0x03 (31 < t.qc && t.qc ≠ 0xFF) ++ bad 0x04 (t.tflags ≠ 0)
      ++ bad 0x05 (t.r5 ≠ 0) ++ bad 0x08 (t.attr ≠ 0 || (t.cls = 2 && t.limit = 0 && t.life = 0)) ++ bad 0x30 (t.rsaE ≠ 0)
      ++ bad 0x38 (t.r38 ≠ 0)).head?).map (fun o => (stBAD_DESCRIPTOR, 0x0100 + o))
  | _ => none

/-- The largest output of an operation whose length hangs on its key, the keys of the command being known (R89 step 5, R208); 0 where the
key does not suit it, which the policy check finds. -/
def outNeed (c : Cmd) : Nat :=
  let a := (key1 c).alg
  let b := if pInl c.desc then c.desc.opt else a
  match c.desc.opcode with
  | 0x0404 => if algSym a && !(cmacTooLong c) then tagOr c.desc (blkLen a) else 0
  | 0x0105 => if (kOf c c.desc.key).isSome && (kOf c c.desc.key2).isSome then (blobLen c.desc.param (key2 c).alg (key1 c).mat.length).getD 0 else 0
  | 0x0106 => if (kOf c c.desc.key).isSome && algSym (key2 c).alg then kbLen (key2 c) (key1 c).mat.length else 0
  | 0x0111 => if algAsym a then (pubOf a (key1 c).pubOnly (key1 c).mat).length else 0
  | 0x0301 => if algEc a then ecdsaMax c a else 0
  | 0x0306 => if !(algRsa a) then 0 else if pVar c.desc = 3 then oaepMax a (pHash c.desc) else rsaK a
  | 0x0307 => if algRsa b && pVar c.desc = 3 then rsaK b else 0
  | 0x0308 => if algKem b then kemCtLen b else 0
  | 0x030A => if algDsa a then dsaSigLen a else 0
  | 0x030C => if algSlh a then slhSigLen a else 0
  | 0x0805 => if (kOf c c.desc.key).isSome then 48 + lockerSig a else 0
  | _ => 0

/-- The checks on a command's auxiliary block once it has been read, by class (R89, R120, R169, R170). -/
def auxFault (c : Cmd) : Option Denial :=
  let op := c.desc.opcode
  if op / 256 = 1 || op / 256 = 4 || op = 0x0305 || op = 0x0308 || op = 0x0309 then keyAuxFault c
  else if op / 256 = 3 then pkeAuxFault c
  else if op = 0x0208 then (if (slice (auxOf c) 8 8).any (· != 0) then some (stBAD_DESCRIPTOR, 0x0108) else none)
  else if op / 256 = 6 || op / 256 = 7 then payAuxFault c
  else if op / 256 = 8 then codeAuxFault c
  else none

end Sys2Proof.Machine
end

