-- ==== Sys2Proof/Machine/Policy.lean ====
section
/-! DEFINITION. The policy check: what each opcode asks of its keys, tickets, and the admission of uses (R120-R127, R135,
R193, R284, R308). -/

namespace Sys2Proof.Machine

/-! ## What an opcode asks of a key -/

/-- What an opcode asks of one of its keys: a suitable algorithm, attribute bits, ownership. -/
structure KeyNeed where
  alg : Bool
  need : Nat
  owner : Bool
deriving DecidableEq, Repr

/-- Bits of an attribute word by their numbers. -/
def mask1 (b : Nat) : Nat := 2 ^ b

/-- The mode bit of a cipher opcode (R170). -/
def modeBit (op : Nat) : Option Nat :=
  match op with
  | 0x0201 | 0x0207 => some 32
  | 0x0202 | 0x0208 => some 33
  | 0x0203 => some 34
  | 0x0204 => some 35
  | 0x0205 => some 36
  | _ => none

/-- The key algorithms of a cipher opcode (R170). -/
def cipherAlg (op alg : Nat) : Bool :=
  if op = 0x0206 then alg = 0x0014 || alg = 0x0015
  else if op = 0x0207 || op = 0x0208 then alg = 0x0018
  else algAes alg

/-- The key algorithms of a wrap format (R134). -/
def wrapAlg (fmt alg : Nat) : Bool :=
  match fmt with
  | 1 => algAes alg
  | 2 => alg = 0x0012
  | 3 => algRsa alg
  | _ => algKem alg

/-- A use bit, or ROOT_DERIVE on an AES key where the descriptor carries a derivation label (R176). -/
def useOrRoot (d : Desc) (use : Nat) : Nat := if oLabel d ≠ 0 then mask1 atROOT else mask1 use

/-- What a public-key opcode asks of KEY_HANDLE (R209). -/
def pkeNeed (x : Desc) (alg : Nat) : KeyNeed :=
  let sign : Bool := pVar x = 1 || pVar x = 2
  let use :=
    match x.opcode with
    | 0x0301 | 0x0303 | 0x030A | 0x030C => atSIGN
    | 0x0302 | 0x0304 | 0x030B | 0x030D => atVERIFY
    | 0x0305 | 0x0309 => atAGREE
    | 0x0306 => if sign then atSIGN else atDECRYPT
    | 0x0307 => if sign then atVERIFY else atENCRYPT
    | 0x0308 => atENCAP
    | _ => atIMAGE
  ⟨pkeAlg x.opcode alg, mask1 use, false⟩

/-- What a hash, MAC or derivation opcode asks of KEY_HANDLE (R181-R184). -/
def hashNeed (x : Desc) (alg : Nat) : KeyNeed :=
  let label : Bool := oLabel x ≠ 0
  let secret : Bool := alg = 0x0020
  let cmacAlg : Bool := algAes alg || (alg = 0x0018 && !label)
  match x.opcode with
  | 0x0403 => ⟨secret, mask1 atSIGN, false⟩
  | 0x0404 => ⟨cmacAlg, useOrRoot x atSIGN + mask1 37, false⟩
  | 0x0405 => ⟨algAes alg, useOrRoot x atSIGN + mask1 38, false⟩
  | 0x0406 =>
    if bits x.param 15 12 = 1 then ⟨secret, mask1 atVERIFY, false⟩
    else if bits x.param 15 12 = 2 then ⟨cmacAlg, useOrRoot x atVERIFY + mask1 37, false⟩
    else ⟨algAes alg, useOrRoot x atVERIFY + mask1 38, false⟩
  | 0x0408 => ⟨if x.param = 1 then algAes alg else secret, mask1 atDERIVE, true⟩
  | _ => ⟨secret, mask1 atDERIVE, true⟩

/-- What a payment or tokenisation opcode asks of a key (R185-R192). -/
def payNeed (c : Cmd) (second : Bool) (alg : Nat) : KeyNeed :=
  let x := c.desc
  let block : Bool := algAes alg || alg = 0x0018
  let base (v : Nat) : KeyNeed := ⟨if v = 1 then algAes alg else alg = 0x0018, mask1 atDUKPT, false⟩
  match x.opcode with
  | 0x0601 => { base (if bit x.param 4 then 2 else 1) with owner := true }
  | 0x0602 | 0x0603 =>
    if !second && leAt (auxOf c) 3 1 ≠ 0 then base (leAt (auxOf c) 3 1) else ⟨block, mask1 atPIN, false⟩
  | 0x0604 | 0x0605 => ⟨block, mask1 atCARD, false⟩
  | 0x0606 =>
    if second then ⟨block, mask1 atENCRYPT + mask1 (32 + bits x.param 3 2), false⟩
    else if bits x.param 5 4 ≠ 0 then base (bits x.param 5 4)
    else ⟨block, mask1 atDECRYPT + mask1 (32 + bits x.param 1 0), false⟩
  | _ => ⟨algAes alg, mask1 atTOKENISE, false⟩

/-- What a key-management opcode asks of a key (R122, R132, R134-R136, R158, R159, R206). -/
def manageNeed (c : Cmd) (second : Bool) (alg : Nat) : KeyNeed :=
  let x := c.desc
  let known : Bool := (algRow alg).isSome
  let kb : Bool := if leAt (auxOf c) 0 1 = 0x44 then algAes alg else alg = 0x0018
  match x.opcode with
  | 0x0103 => ⟨wrapAlg x.param alg, mask1 atUNWRAP, false⟩
  | 0x0104 => ⟨algAes alg || alg = 0x0018, mask1 atUNWRAP, false⟩
  | 0x0105 => if second then ⟨wrapAlg x.param alg, mask1 atWRAP, false⟩ else ⟨known, mask1 atEXPORTABLE, true⟩
  | 0x0106 => if second then ⟨kb, mask1 atWRAP, false⟩ else ⟨known, mask1 atEXPORTABLE, true⟩
  | 0x0107 => ⟨if x.param = 1 then algAes alg else alg = 0x0020, mask1 atDERIVE, true⟩
  | 0x0108 | 0x010A => ⟨known, 0, true⟩
  | 0x010C => ⟨known, mask1 atGRANTABLE, true⟩
  | 0x010E => ⟨alg = 0x0012, mask1 atWRAP, false⟩
  | 0x010F => ⟨alg = 0x0012, mask1 atUNWRAP, false⟩
  | 0x0111 => ⟨algAsym alg, 0, false⟩
  | _ => ⟨known, 0, false⟩

/-- What a command asks of KEY_HANDLE's or KEY2_HANDLE's record. -/
def needOf (c : Cmd) (second : Bool) (k : KeyRec) : KeyNeed :=
  let x := c.desc
  let alg := k.alg
  let cls := x.opcode / 256
  if cls = 1 then manageNeed c second alg
  else if x.opcode = 0x0209 || x.opcode = 0x020A then
    if second then ⟨alg = 0x0012, mask1 (if x.opcode = 0x0209 then atWRAP else atUNWRAP), false⟩
    else
      ⟨algAes alg || alg = 0x0018,
        mask1 (if bit k.attr atROOT then atROOT else if bit (leAt (srcOf c) 4 2) 0 then atDECRYPT else atENCRYPT), false⟩
  else if cls = 2 then
    ⟨cipherAlg x.opcode alg,
      useOrRoot x (if pDec x then atDECRYPT else atENCRYPT) + ((modeBit x.opcode).map mask1).getD 0, false⟩
  else if cls = 3 then (if second then ⟨alg = 0x0020, mask1 atDERIVE, true⟩ else pkeNeed x alg)
  else if cls = 4 then hashNeed x alg
  else if cls = 6 || cls = 7 then payNeed c second alg
  else if cls = 8 then
    (if x.opcode = 0x0805 && alg ≠ 0x0020 then
      ⟨alg = 0x0101 || alg = 0x0110 || alg = 0x0311 || alg = 0x0312, mask1 atSIGN, false⟩
     else ⟨alg = 0x0020, mask1 atACCESS, false⟩)
  else ⟨true, 0, false⟩

/-- Opcodes that use no key material and never count (R126). -/
def opNoMaterial (op : Nat) : Bool :=
  op = 0x0108 || op = 0x0109 || op = 0x010A || op = 0x010B || op = 0x010C || op = 0x010D

/-- Whether a command names a key in KEY_HANDLE or KEY2_HANDLE; the PSK of the key schedule and the handles of firmware's
own opcodes may be absent (R97, R99, R184). -/
def namesKey (x : Desc) (second : Bool) : Bool :=
  let h := if second then x.key2 else x.key
  if opFirmware x.opcode then h ≠ 0
  else if second then (opSpec x).key2 && (x.opcode ≠ 0x0409 || h ≠ 0)
  else (opSpec x).key

/-- The class, strength, trust and lock rules of an export under its wrapping key (R133, R135). -/
def exportDenied (c : Cmd) (k w : KeyRec) : Option Denial :=
  let op := c.desc.opcode
  if op ≠ 0x0105 && op ≠ 0x0106 then none
  else if algStrength w.alg w.mat.length < algStrength k.alg k.mat.length then some (stPOLICY, 68)
  else if bit k.attr atTRUSTED_ONLY && !(bit w.attr atWRAP_TRUSTED) then some (stPOLICY, 69)
  else if bit k.attr atTRUSTED_ONLY && op = 0x0105 && (c.desc.param = 1 || c.desc.param = 3) then some (stPOLICY, 65)
  else if k.encLock && (op = 0x0106 || c.desc.param ≠ 2) then some (stPOLICY, 65)
  else none

/-! ## Tickets (R124, R125, R308) -/

/-- Custody class of an instance (R307). -/
def custodyOf (d : Dev) (i : Nat) : Nat := (smapGet instReset d.mgr.insts i).custody

/-- The classes of the tickets that a command needs, owner side first; or why it is refused before one is looked for
(R124, R125, R130). -/
def ticketClasses (c : Cmd) (k : KeyRec) : Except Denial (List Nat) :=
  let x := c.desc
  match x.opcode with
  | 0x0105 | 0x0106 | 0x0108 => .ok (if bit k.attr atCUSTODY then [k.qc] else [])
  | 0x010A =>
    let ch := changeOf (auxOf c)
    let w := widens k ch
    if k.encLock && bit ch.set atENCRYPT then .error (stPOLICY, 71)
    else if w && k.qc = 0xFF then .error (stPOLICY, 71)
    else
      let own := if w || bit k.attr atCUSTODY then [k.qc] else []
      let zero := if bit ch.set atWRAP_TRUSTED && !(bit k.attr atWRAP_TRUSTED) && !(own.contains 0) then [0] else []
      .ok (own ++ zero)
  | _ => .ok []

/-- The SHA-384 of a command's auxiliary block, which its tickets bind (R309). -/
def auxDigest (c : Cmd) : Bytes := sha384 (auxOf c)

/-- The tickets that a command presents are checked against the classes it needs (R125, R314): the challenges reserved
and the officers who signed the first. -/
def ticketsNeeded (c : Cmd) (classes : List Nat) (d : Dev) : Except Denial (List Nat × List Nat) × Dev :=
  if classes.isEmpty then (.ok ([], []), d)
  else if classes.any (fun q => !(classUsable d q)) then (.error (stPOLICY, 70), d)
  else if c.desc.ticketLen = 0 then (.error (stQUORUM, 0), d)
  else
    match ticketsCheck (classes.map (fun q => ⟨c.inst, c.desc.opcode, c.desc.key, auxDigest c, q⟩)) (c.ticket.getD []) [] d with
    | (.ok r, d) => (.ok r, d)
    | (.error i, d) => (.error (stTICKET, i), d)

/-- Whether an area is tickets to its end: step 1 of R314 for tickets of which there may be any number; fuel is its length. -/
def ticketsForm : Nat → Bytes → Bool
  | 0, b => b.isEmpty
  | f + 1, b => b.isEmpty || (match ticketTake b with
    | some (_, rest) => ticketsForm f rest
    | none => false)

/-- The tickets of KEY_BACKUP_EXPORT and KEY_RESTORE, each of the class it names: those that pass are reserved; a failing
one is ignored by an export and ends a restore (R158, R159, R308). Fuel is the length of the area. -/
def ticketsAny (c : Cmd) (strict : Bool) : Nat → Bytes → List Nat → Dev → Except Denial (List Nat) × Dev
  | 0, _, got, d => (.ok got, d)
  | f + 1, b, got, d =>
    if b.isEmpty then (.ok got, d)
    else match ticketTake b with
      | none => if strict then (.error (stTICKET, 1), ticketFree got d) else (.ok got, d)
      | some (t, rest) =>
        match ticketCheck t ⟨c.inst, c.desc.opcode, c.desc.key, auxDigest c, t.cls⟩ d with
        | (.ok (id, _), d) => ticketsAny c strict f rest (got ++ [id]) d
        | (.error i, d) => if strict then (.error (stTICKET, i), ticketFree got d) else ticketsAny c strict f rest got d

/-- Step 8 of R121 for a command: the challenges it reserves. -/
def ticketStep (c : Cmd) (k : KeyRec) (d : Dev) : Except Denial (List Nat) × Dev :=
  match c.desc.opcode with
  | 0x010C =>
    let g := grantOf (auxOf c)
    match ticketsNeeded c [k.qc, custodyOf d g.inst] d with
    | (.ok r, d) => (.ok r.1, d)
    | (.error e, d) => (.error e, d)
  | 0x010E => ticketsAny c false (c.ticket.getD []).length (c.ticket.getD []) [] d
  | 0x010F =>
    let b := c.ticket.getD []
    if ticketsForm b.length b then ticketsAny c true b.length b [] d else (.error (stTICKET, 1), d)
  | 0x0110 =>
    match ticketsNeeded c [custodyOf d c.inst] d with
    | (.error e, d) => (.error e, d)
    | (.ok r, d) =>
      let entered := (List.range c.desc.param).map (fun i => leAt (auxOf c) (64 + 8 * i) 1)
      if entered.all (fun n => r.2.contains n) then (.ok r.1, d) else (.error (stTICKET, 5), ticketFree r.1 d)
  | _ =>
    match ticketClasses c k with
    | .error e => (.error e, d)
    | .ok qs =>
      match ticketsNeeded c qs d with
      | (.ok r, d) => (.ok r.1, d)
      | (.error e, d) => (.error e, d)

/-! ## Admission (R126, R127, R193) -/

/-- The commands that the block holds: those of the queues, and the jobs of the ports. -/
def heldCmds (d : Dev) : List Cmd := d.cmd.cmds ++ d.units.filterMap (fun u => u.2.job)

/-- The access-code commands admitted against record n. -/
def codesOn (d : Dev) (n : Nat) : List Cmd :=
  (heldCmds d).filter (fun c => c.desc.opcode / 256 = 8 && c.counted.contains n)

/-- HOTP_VERIFY and TOTP_VERIFY, which run alone on a key (R193). -/
def opAlone (op : Nat) : Bool := op = 0x0802 || op = 0x0804

/-- Whether an access-code command must wait for others on its key (R193). -/
def codeHeld (c : Cmd) (n : Nat) (d : Dev) : Bool :=
  c.desc.opcode / 256 = 8 && (if opAlone c.desc.opcode then !(codesOn d n).isEmpty else (codesOn d n).any (fun x => opAlone x.desc.opcode))

/-- How an admission ends. -/
inductive Admit where
  | yes (d : Dev)
  | no (e : Denial)
  | wait (d : Dev)

/-- At the first use of a persistent key after a cold reset, USAGE_COUNT of one with USAGE_LIMITED becomes USAGE_RESV (R127). -/
def resumeUsage (n : Nat) (d : Dev) : Dev :=
  match keyAt d n with
  | some k =>
    if hClass k.handle = 0 && !(smapGet falseAt d.key.resumed n) then
      let d := modKey (fun s => { s with resumed := smapSet falseAt s.resumed n true }) d
      if !(bit k.attr atUSAGE_LIMITED) || k.used = k.resv then d else modRec n (fun k => { k with used := k.resv }) d
    else d
  | none => d

/-- The reservation by which admission goes: USAGE_RESV, or what it was while a raise of it has not committed (R127). -/
def resvBound (d : Dev) (n : Nat) (k : KeyRec) : Nat :=
  match smapGet noneAt d.key.usageRaise n with
  | some (old, true) => old
  | _ => k.resv

/-- Step 9 of R121 for one handle: the use is admitted, refused or waits. -/
def admitUse (n : Nat) (d : Dev) : Admit :=
  let d := resumeUsage n d
  match keyAt d n with
  | none => .no (stSTALE, 0)
  | some k =>
    if !(bit k.attr atUSAGE_LIMITED) then .yes (countAdmitted n d)
    else
      let uses := k.used + flightOf d n
      if k.limit ≤ uses then .no (stUSAGE, 0)
      else if hClass k.handle ≠ 0 then .yes (countAdmitted n d)
      else if uses < resvBound d n k then .yes (countAdmitted n d)
      else if !(vaultWritable d) then .no (stVAULT_RO, 0)
      else .wait (askUsage n k d)

/-! ## The check -/

/-- How the policy check of a command, or of one of its handles, ends. -/
inductive PolOut where
  | pass (c : Cmd) (d : Dev)
  /-- refused; the command keeps the tag of what was read, and until its release the challenges that its tickets have reserved (R145,
  R315) -/
  | fail (e : Denial) (c : Cmd) (d : Dev)
  | wait (d : Dev)

/-- Whether record n lies in the vault and not yet in T1, so that a demand load must bring it (R148). -/
def needsDemand (d : Dev) (n : Nat) : Bool :=
  restoring d && d.key.frontier ≤ n && t1Of d n = .free 0 && (vaultPick d n).isSome

/-- A key's owner is FROZEN, or in FREEZE awaiting it (R282, R284). -/
def ownerFrozen (d : Dev) (h : Nat) : Bool :=
  let i := smapGet instReset d.mgr.insts (hInst h)
  i.run = .frozen || i.freezing

/-- R284, after step 2 of R121: a foreign instance names a key whose grant it holds and whose owner is frozen. -/
def frozenDenied (d : Dev) (who h : Nat) : Bool :=
  match recSeen d (hRec h) with
  | some k => k.handle = h && (hInst h = who || k.grants.any (fun g => g.inst = who)) && ownerFrozen d h
  | none => false

/-- Steps 1 to 7 of R121 for one handle. first is KEY_HANDLE's record when the second handle is checked. -/
def polRefuse (c : Cmd) (second : Bool) (first : KeyRec) (h : Nat) (d : Dev) : Except Denial KeyRec :=
  if frozenDenied d c.inst h then .error (stFROZEN, 0)
  else match resolve d c.inst h with
    | .error e => .error e
    | .ok k =>
      let n := needOf c second k
      if n.owner && hInst h ≠ c.inst then .error (stPOLICY, 64)
      else if !n.alg then .error (stPOLICY, 65)
      else if !second && (c.desc.opcode = 0x0105 || c.desc.opcode = 0x0106 || c.desc.opcode = 0x010C) && hClass h = 2 then
        .error (stPOLICY, 67)
      else match lacking n.need (effAttr k c.inst) with
        | some b => .error (stPOLICY, b)
        | none =>
          let op := c.desc.opcode
          match if second then exportDenied c first k else none with
            | some e => .error e
            | none =>
              let g := grantOf (auxOf c)
              let gr := (smapGet instReset d.mgr.insts g.inst).run
              if op = 0x010C && (gr = .unused || gr = .resetting) then .error (stBAD_DESCRIPTOR, 0x0106)
              else .ok k

/-- A command gives back the admission of its first handle; on a wait its challenges are free again too. -/
def unadmit (c : Cmd) (d : Dev) : Dev := c.counted.foldl (fun d n => leave n d) d

/-- A policy check meets a derived-ephemeral key that has ended: the key store controller notices it (R111). -/
def noticeEnded (h : Nat) (d : Dev) : Dev :=
  match keyAt d (hRec h) with
  | some k =>
    if k.handle = h && hClass h = 2 && (expired d k || (bit k.attr atUSAGE_LIMITED && k.limit ≤ k.used) || !(parentStands d k)) then
      modKey (fun s => { s with noticed := smapSet falseAt s.noticed (hRec h) true }) d
    else d
  | none => d

/-- The check of one handle. A record that is not resident is read from T1, its tag going to the command (R140, R145). -/
def polHandle (hs : List T1Hit) (c : Cmd) (second : Bool) (h : Nat) (d : Dev) : PolOut :=
  let n := hRec h
  if needsDemand d n then .wait d
  else
    let (t, d) := if (residentOf d n).isNone then t1Read hs n d else (none, d)
    let c := { c with epoch := tagMax c.epoch t }
    match polRefuse c second (key1 c) h d with
    | .error e => .fail e c (noticeEnded h (unadmit c d))
    | .ok k =>
      if codeHeld c n d then .wait d
      else
        let op := c.desc.opcode
        let use : Admit := if opNoMaterial op then .yes d else admitUse n d
        match use with
        | .wait d => .wait d
        | use =>
          let tickets := if second && op ≠ 0x010E && op ≠ 0x010F then (.ok [], d) else ticketStep c k d
          match tickets, use with
          | (.error e, d), _ => .fail e c (unadmit c d)
          | (.ok ids, d), .no e => .fail e { c with tickets := c.tickets ++ ids } (unadmit c d)
          | (.ok ids, d), _ =>
            let c := { c with tickets := c.tickets ++ ids }
            if opNoMaterial op then .pass { c with keys := c.keys ++ [k] } d
            else match admitUse n d with
              | .yes d => .pass { c with keys := c.keys ++ [(keyAt d n).getD k], counted := c.counted ++ [n] } d
              | _ => .fail (stSTALE, 0) c (unadmit c d)

/-- The policy check of a command: KEY_HANDLE, then KEY2_HANDLE; on a wait nothing of it stands. -/
def policyRun (hs : List T1Hit) (c : Cmd) (d : Dev) : PolOut :=
  let c := { c with keys := [], counted := [], tickets := [] }
  let go2 (c : Cmd) (d : Dev) : PolOut := if namesKey c.desc true then polHandle hs c true c.desc.key2 d else .pass c d
  if namesKey c.desc false then
    match polHandle hs c false c.desc.key d with
    | .pass c1 d1 => match go2 c1 d1 with
      | .wait d2 => .wait (ticketFree c1.tickets (unadmit c1 d2))
      | r => r
    | r => r
  else if c.desc.opcode = 0x0110 then
    match ticketStep c noKey d with
    | (.error e, d) => .fail e c d
    | (.ok ids, d) => .pass { c with tickets := ids } d
  else go2 c d

end Sys2Proof.Machine
end

