-- ==== Sys2Proof/Machine/Pipeline.lean ====
section
/-! DEFINITION. The stages before the egress fence: fetch, host reads, parser, routed queue, work rings, key fetch and the
run of an operation on its unit (R8-R11, R77-R104, R141-R148, R165-R167, R200-R201, R218-R220). -/

namespace Sys2Proof.Machine

/-! ## Commands -/

/-- A command leaves the block. -/
def dropCmd (tag : Nat) (d : Dev) : Dev := modCmdSt (fun s => { s with cmds := s.cmds.filter (fun x => x.tag ≠ tag) }) d

/-- A command has come to a result, which is held at the fence (R8, R266). -/
def holdCmd (c : Cmd) (r : Result) (d : Dev) : Dev := putCmd { c with stage := .held, result := some r } d

/-- A command ends without effect. -/
def failCmd (c : Cmd) (e : Denial) (d : Dev) : Dev := holdCmd c (failed e.1 e.2) d

/-- The earlier commands of a command's queue that have not posted (R94). -/
def earlier (d : Dev) (c : Cmd) : List Cmd :=
  (d.cmd.cmds.takeWhile (fun x => x.tag ≠ c.tag)).filter (fun x => x.inst = c.inst && x.sq = c.sq)

/-! ## Queues (R77-R83) -/

/-- A register field of queue q of an instance. -/
def qFld (d : Dev) (inst q : Nat) (f : Fld) : Nat := fld d (instPage inst) (fldAt f q)

/-- Writes such a field. -/
def setQ (inst q : Nat) (f : Fld) (v : Nat) (d : Dev) : Dev := setFld d (instPage inst) (fldAt f q) v

/-- Key of a queue's doorbells. -/
def qKey (inst q : Nat) : Nat := inst * 16 + q

/-- SQ tail and CQ head doorbells. -/
def tailOf (d : Dev) (inst q : Nat) : Nat := smapGet zeroAt d.cmd.tails (qKey inst q)
def headOf (d : Dev) (inst q : Nat) : Nat := smapGet zeroAt d.cmd.heads (qKey inst q)

/-- Writes the doorbells. -/
def setTail (inst q v : Nat) (d : Dev) : Dev := modCmdSt (fun s => { s with tails := smapSet zeroAt s.tails (qKey inst q) v }) d
def setHead (inst q v : Nat) (d : Dev) : Dev := modCmdSt (fun s => { s with heads := smapSet zeroAt s.heads (qKey inst q) v }) d

/-- Entries of a ring (R77). -/
def sqSize (d : Dev) (inst q : Nat) : Nat := 2 ^ qFld d inst q Reg.SQ_CFG_SIZE
def cqSize (d : Dev) (inst q : Nat) : Nat := 2 ^ qFld d inst q Reg.CQ_CFG_SIZE

/-- Ring bases (R78). -/
def sqBase (d : Dev) (inst q : Nat) : Nat := qFld d inst q Reg.SQ_BASE_LO_BASE_LO * 4096 + qFld d inst q Reg.SQ_BASE_HI_BASE_HI * 2 ^ 32
def cqBase (d : Dev) (inst q : Nat) : Nat := qFld d inst q Reg.CQ_BASE_LO_BASE_LO * 4096 + qFld d inst q Reg.CQ_BASE_HI_BASE_HI * 2 ^ 32

/-- Negotiated version of an instance (R103). -/
def verOf (d : Dev) (inst : Nat) : Nat × Nat :=
  (fld d (instPage inst) Reg.INST_PYP_VER_MAJOR, fld d (instPage inst) Reg.INST_PYP_VER_MINOR)

/-- Entry sizes of a version (R77). -/
def sqEntry (ver : Nat × Nat) : Nat := if ver.1 = 1 then 32 else 64
def cqEntry (ver : Nat × Nat) : Nat := if ver.1 = 1 then 16 else 32

/-- Commands fetched for a completion queue and not yet completed, those whose entries are still being read included. -/
def boundTo (d : Dev) (inst cq : Nat) : Nat :=
  (d.cmd.cmds.filter (fun c => c.inst = inst && c.cq = cq && !c.mute)).length
    + ((d.cmd.reads.filterMap (fun r => match r.what with
        | .fetch i _ c n _ => if i = inst && !r.dropped && c = cq then some n else none
        | _ => none)).sum)

/-- Entries of queue q that are being read and will move its HEAD. -/
def underRead (d : Dev) (inst q : Nat) : Nat :=
  (d.cmd.reads.filterMap (fun r => match r.what with
    | .fetch i k _ n live => if i = inst && k = q && live && !r.dropped then some n else none
    | _ => none)).sum

/-- Index of the next entry of queue q to be asked for: HEAD moves only as entries have been read, so that a tenant that reuses those
before it meets no read under way (R84, R96). -/
def fetchAt (d : Dev) (inst q : Nat) : Nat := (qFld d inst q Reg.SQ_STAT_HEAD + underRead d inst q) % sqSize d inst q

/-- Free count of a completion queue (R82). -/
def cqFree (d : Dev) (inst cq : Nat) : Nat :=
  let n := cqSize d inst cq
  let used := (qFld d inst cq Reg.CQ_STAT_TAIL + n - headOf d inst cq % n) % n
  n - 1 - used - boundTo d inst cq

/-- A queue stops on an error (R81): ERROR, its cause, and the instance event QUEUE_ERR on VF vector 16 (R302). -/
def sqError (inst q err : Nat) (d : Dev) : Dev :=
  raiseEv (instPage inst) 3 (setQ inst q Reg.SQ_STAT_ERR err (setQ inst q Reg.SQ_STAT_ERROR 1 d))
def cqError (inst q err : Nat) (d : Dev) : Dev :=
  raiseEv (instPage inst) 3 (setQ inst q Reg.CQ_STAT_ERR err (setQ inst q Reg.CQ_STAT_ERROR 1 d))

/-- An instance. -/
def instOf (d : Dev) (i : Nat) : Inst := smapGet instReset d.mgr.insts i

/-- Whether IDE lets a host's memory request in on a link: while IDE_REQ is 1 it must arrive on a Secure stream (R64). -/
def ideArrives (d : Dev) (l : Nat) (stream : Option Nat) : Bool :=
  !(fldB d pgHOST Reg.HOST_CFG_IDE_REQ)
    || stream.any (fun n => (linkOf d l).ide.any (fun s => s.1 = n && s.2.secure))

/-- Whether host memory may be used for an instance (R48, R64). -/
def hostOpen (d : Dev) (inst : Nat) : Bool :=
  match instFn d inst with
  | some (l, n) => ideOpen d l n
  | none => false

/-- The modes in which the fetch stage works (R446). -/
def modeFetches (m : Mode) : Bool := m = .service || m = .ceremony || m = .diagnostic || m = .factoryTest

/-- The opcodes that CEREMONY and DIAGNOSTIC admit (R322, R446). -/
def inCeremony (op : Nat) : Bool := (0x0101 ≤ op && op ≤ 0x0112) || op = 0x0502
def inDiagnostic (op : Nat) : Bool := op = 0x0109 || op = 0x010B || op = 0x0502

/-- Whether the mode, or the drain toward one, admits a newly fetched opcode (R322, R446, R448). -/
def modeAdmits (d : Dev) (op : Nat) : Bool :=
  let goal := (d.sys.draining.map (·.target)).getD d.sys.mode
  if d.sys.mode = .ceremony || goal = .ceremony then inCeremony op
  else if d.sys.mode = .diagnostic || goal = .diagnostic then inDiagnostic op
  else true

/-- Whether an instance's descriptors are fetched at all (R276, R277). -/
def instFetches (i : Inst) : Bool :=
  match i.run with
  | .active | .quiescing | .quiesced => true
  | .frozen => !i.exported
  | _ => false

/-- The tags that a link has for further reads of the command processor: 14-bit tags in FLIT mode, 10-bit otherwise, and at most 4,096
requests outstanding, of which one is kept for the reads of the window and the manager, each answered within its row (R50). -/
def tagsLeft (d : Dev) (l : Nat) : Nat :=
  let flit := fldB d pgHOST (if l = 0 then Reg.HOST_LINK_A_FLIT else Reg.HOST_LINK_B_FLIT)
  (if flit then 4095 else 1023) - ((d.cmd.reads.filter (fun r => r.link = l && r.got.isNone)).map (·.reqs)).foldl (· + ·) 0

/-- Whether a link has a tag for another non-posted request of the command processor (R50). -/
def tagFree (d : Dev) (l : Nat) : Bool := 0 < tagsLeft d l

/-- Whether the link of an instance has a tag. -/
def instTag (d : Dev) (i : Nat) : Bool := ((instFn d i).map (fun f => tagFree d f.1)).getD true

/-- Whether queue q of an instance may be fetched now (R9, R50, R81, R82, R103, R276). -/
def sqReady (d : Dev) (inst q : Nat) : Bool :=
  let ver := verOf d inst
  let cq := qFld d inst q Reg.SQ_CFG_CQ
  (hdrOf d pgCMD).enable && modeFetches d.sys.mode && instReachable d inst && hostOpen d inst && instFetches (instOf d inst)
    && (hdrOf d (instPage inst)).enable && ver.1 ≠ 0 && qFld d inst q Reg.SQ_CFG_EN = 1 && qFld d inst q Reg.SQ_STAT_ERROR = 0
    && qFld d inst cq Reg.CQ_CFG_EN = 1 && qFld d inst cq Reg.CQ_STAT_ERROR = 0 && fetchAt d inst q ≠ tailOf d inst q && 1 ≤ cqFree d inst cq
    && instTag d inst

/-- Whether an instance has fetchable work. -/
def instReady (d : Dev) (inst : Nat) : Bool := (List.range 16).any (fun q => sqReady d inst q)

/-- The instances that may have work: those with a tail that is not 0, or a HEAD that is not 0. -/
def instsWithTails (d : Dev) : List Nat :=
  d.cmd.tails.map (fun kv => kv.1 / 16)
    ++ d.regs.filterMap (fun kv =>
        if instPage 0 ≤ kv.1 / 1024 && kv.1 / 1024 < instPage 1024 && 0x80 ≤ kv.1 % 1024 && kv.1 % 1024 < 0xC0 then some (kv.1 / 1024 - instPage 0)
        else none)

/-- The least of some numbers. -/
def least (l : List Nat) : Option Nat := l.foldl (fun b i => some (min i (b.getD i))) none

/-- The instance whose turn it is: the first with fetchable work after the one served last (R83). -/
def instTurn (d : Dev) : Option Nat :=
  let ready := (instsWithTails d).filter (instReady d)
  match least (ready.filter (fun i => d.cmd.served < i)) with
  | some i => some i
  | none => least ready

/-- Turns left to a queue in the present round, by the weight it began with (R79, R83). -/
def turnsLeft (d : Dev) (inst q : Nat) : Nat :=
  let w := smapGet zeroAt d.cmd.weights (qKey inst q)
  (if w = 0 then qFld d inst q Reg.SQ_CFG_WEIGHT else w) - smapGet zeroAt d.cmd.turns (qKey inst q)

/-- Whether queue q may take the instance's turn: it has turns left in the round, or no ready queue has, and a new round
begins (R83). -/
def sqTurn (d : Dev) (inst q : Nat) : Bool :=
  0 < turnsLeft d inst q || (List.range 16).all (fun k => !(sqReady d inst k) || turnsLeft d inst k = 0)

/-- A round begins in an instance, by the weights as they are (R79, R83). -/
def roundBegin (inst : Nat) (d : Dev) : Dev :=
  modCmdSt (fun s => { s with
    turns := smapKeep (fun k => k / 16 ≠ inst) s.turns
    weights := (List.range 16).foldl (fun w q => smapSet zeroAt w (qKey inst q) (qFld d inst q Reg.SQ_CFG_WEIGHT)) s.weights }) d

/-- Takes a turn, beginning a new round where none is left or none has begun. -/
def takeTurn (inst q : Nat) (d : Dev) : Dev :=
  let d := if turnsLeft d inst q = 0 || smapGet zeroAt d.cmd.weights (qKey inst q) = 0 then roundBegin inst d else d
  modCmdSt (fun s => { s with
    served := inst, turns := smapSet zeroAt s.turns (qKey inst q) (smapGet zeroAt s.turns (qKey inst q) + 1) }) d

/-! ## Host reads (R56, R66, R83, R87) -/

/-- A link issues the requests that wait for its tags, oldest read first, while it has one (R50); those that IDE withholds wait on (R64). -/
def pumpList (l : Nat) (may : Nat → Bool) : Nat → List HRead → List HRead × List OutEv
  | _, [] => ([], [])
  | free, r :: rs =>
    let now := if r.link = l && !r.dropped && may r.fn then r.todo.take free else []
    let x := pumpList l may (free - now.length) rs
    ({ r with reqs := r.reqs + now.length, due := r.due + (now.map (·.2)).sum, todo := r.todo.drop now.length } :: x.1,
      now.map (fun p => .hostRead l r.fn p.1 p.2) ++ x.2)

/-- The requests that may go out on a link do. -/
def pumpReads (l : Nat) (d : Dev) : Dev :=
  let x := pumpList l (ideOpen d l) (tagsLeft d l) d.cmd.reads
  emitAll x.2 (modCmdSt (fun s => { s with reads := x.1 }) d)

/-- The requests that read a list of runs of host memory, each of at most Max_Read_Request_Size bytes (R50). -/
def runPieces (d : Dev) (l n : Nat) (segs : List (Nat × Nat)) : List (Nat × Nat) :=
  (segs.map (fun s => pieces (fnOf d l n).maxRead s.2 s.1 s.2)).flatten

/-- A host read for a command or a fetch: the requests for each run of host memory, issued as the link has tags, and answered together. -/
def hostRead (inst : Nat) (tag : Option Nat) (what : ReadFor) (segs : List (Nat × Nat)) (d : Dev) : Dev :=
  match instFn d inst with
  | none => d
  | some (l, n) =>
    pumpReads l (modCmdSt (fun s => { s with
      reads := s.reads ++ [⟨s.nextRead, tag, what, false, none, l, 0, runPieces d l n segs, n, 0, []⟩], nextRead := s.nextRead + 1 }) d)

/-- DESCRIPTOR_FETCH for queue q of an instance: its turn, up to 8 contiguous descriptors that fit its completion queue,
in a single host read (R82, R83). -/
def fetchGo (inst q : Nat) (d : Dev) : Dev :=
  if inst < 1024 && q < 16 && instTurn d = some inst && sqReady d inst q && sqTurn d inst q then
    let size := sqSize d inst q
    let at' := fetchAt d inst q
    let cq := qFld d inst q Reg.SQ_CFG_CQ
    let waiting := (tailOf d inst q + size - at') % size
    let n := min (min 8 waiting) (min (size - at') (cqFree d inst cq))
    let e := sqEntry (verOf d inst)
    takeTurn inst q (hostRead inst none (.fetch inst q cq n true) [(sqBase d inst q + at' * e, n * e)] d)
  else d

/-! ## PYP 1.x (R103-R104) -/

/-- The 1.x fields of an entry. -/
structure Desc1 where
  op : Nat
  flags : Nat
  cmdId : Nat
  key : Nat
  src : Nat
  dst : Nat
  len : Nat
  param : Nat
deriving DecidableEq, Repr

/-- A 1.x descriptor from its 32 bytes (R104). -/
def desc1Of (b : Bytes) : Desc1 :=
  ⟨leAt b 0 1, leAt b 1 1, leAt b 2 2, leAt b 4 4, leAt b 8 8, leAt b 0x10 8, leAt b 0x18 4, leAt b 0x1C 4⟩

/-- The 2.x opcode and the lowest 1.x minor of a 1.x opcode (R103, R104). -/
def map1 : Nat → Option (Nat × Nat)
  | 0x10 => some (0x0202, 0) | 0x11 => some (0x0203, 0) | 0x12 => some (0x0204, 0) | 0x20 => some (0x0403, 0)
  | 0x21 => some (0x0404, 0) | 0x30 => some (0x0301, 0) | 0x31 => some (0x0302, 0) | 0x40 => some (0x0501, 0)
  | 0x50 => some (0x0601, 1) | 0x51 => some (0x0602, 1) | 0x60 => some (0x0801, 2)
  | _ => none

/-- The handle built for a 1.x key index: the generation is the record's, that of its vault copy where T1 does not hold it yet (R104,
R148). -/
def handle1 (d : Dev) (inst x : Nat) : Nat :=
  let gen := match t1Of d (x % 2 ^ 26) with
    | .free h => hGen h
    | .key k => hGen k.handle
    | .retired h => hGen h
    | .ext e => hGen e.handle
  let gen := if needsDemand d (x % 2 ^ 26) then
      (match vaultPick d (x % 2 ^ 26) with
        | some (_, v) => if v.epoch = d.key.epoch then v.gen else (v.gen + 1) % 4096
        | none => gen)
    else gen
  inst * 2 ^ 54 + gen * 2 ^ 40 + x

/-- A descriptor with nothing in it. -/
def descNone : Desc :=
  { opcode := 0, flags := 0, cmdId := 0, param := 0, key := 0, key2 := 0, src := 0, dst := 0, srcLen := 0, dstLen := 0
    aux := 0, auxLen := 0, opt := 0, ticketLen := 0, rsvd := 0 }

/-- Which 1.x fields an opcode uses: DECRYPT, KEY_INDEX, SRC_ADDR, DST_ADDR, LEN, PARAM (R104). -/
def uses1 (op : Nat) : Bool × Bool × Bool × Bool × Bool × Bool :=
  match op with
  | 0x10 | 0x11 | 0x12 => (true, true, true, true, true, false)
  | 0x20 | 0x30 => (false, true, true, true, true, true)
  | 0x21 => (false, true, true, true, true, false)
  | 0x31 => (false, true, true, false, true, true)
  | 0x40 => (false, false, false, true, true, false)
  | 0x50 => (false, true, true, false, false, true)
  | 0x51 => (false, true, true, true, true, true)
  | _ => (false, true, false, false, false, true)

/-- The length that the fixed parts of a 1.x opcode take from LEN (R104). -/
def fixed1 (x : Desc1) : Nat :=
  if x.op = 0x10 || x.op = 0x11 || x.op = 0x12 then 16 else if x.op = 0x51 then 32
  else if x.op = 0x31 then bits x.param 23 16 else 0

/-- The translation of a 1.x descriptor, or the status it completes with (R103, R104). -/
def translate1 (d : Dev) (inst minor : Nat) (x : Desc1) : Except Nat Desc :=
  match map1 x.op with
  | none => .error stBAD_OPCODE
  | some (op, lo) =>
    let (uD, uK, uS, uT, uL, uP) := uses1 x.op
    if minor < lo then .error stBAD_VERSION
    else if bits x.flags 7 3 ≠ 0 || (!uD && bit x.flags 2) || (!uK && x.key ≠ 0) || (!uS && x.src ≠ 0) || (!uT && x.dst ≠ 0)
        || (!uL && x.len ≠ 0) || (!uP && x.param ≠ 0) then .error stBAD_DESCRIPTOR
    else
      let s := bits x.param 23 16
      if (x.op = 0x31 && s ≠ 64 && s ≠ 96) || x.len < fixed1 x then .error stBAD_LENGTH
      else
        let sig := setBits (setBits 0 11 8 (bits x.param 11 8)) 1 1 (bits x.param 1 1)
        let base := { descNone with
          opcode := op, cmdId := x.cmdId, flags := b2n (bit x.flags 0) + 4 * b2n (bit x.flags 1)
          key := if uK then handle1 d inst x.key else 0 }
        .ok (match x.op with
          | 0x10 | 0x11 | 0x12 => { base with
              param := b2n (bit x.flags 2), src := (x.src + 16) % 2 ^ 64, srcLen := x.len - 16, aux := x.src, auxLen := 16
              dst := x.dst, dstLen := (alignUp x.len 16 + 16) % 2 ^ 32 }
          | 0x20 => { base with param := bits x.param 3 0, src := x.src, srcLen := x.len, dst := x.dst, dstLen := 64 }
          | 0x21 => { base with src := x.src, srcLen := x.len, dst := x.dst, dstLen := 16 }
          | 0x30 => { base with param := sig, src := x.src, srcLen := x.len, auxLen := 8, dst := x.dst, dstLen := 96 }
          | 0x31 => { base with
              param := sig, src := x.src, srcLen := x.len - s, aux := (x.src + (x.len - s)) % 2 ^ 64, auxLen := 8 + s }
          | 0x40 => { base with dst := x.dst, dstLen := x.len }
          | 0x50 => { base with param := bits x.param 4 0, aux := x.src, auxLen := 80 }
          | 0x51 => { base with
              key2 := handle1 d inst (bits x.param 31 16), src := (x.src + 32) % 2 ^ 64, srcLen := x.len - 32, aux := x.src
              auxLen := 32, dst := x.dst, dstLen := 16 }
          | _ => { base with param := bits x.param 5 0 })

/-- The opcode by which the fetch stage judges an entry. -/
def rawOpcode (ver : Nat × Nat) (b : Bytes) : Nat :=
  if ver.1 = 1 then ((map1 (leAt b 0 1)).map (·.1)).getD 0 else leAt b 0 2

/-! ## Completion of reads -/

/-- A command as fetched. -/
def freshCmd (tag inst sq cq : Nat) (ver : Nat × Nat) (b : Bytes) : Cmd :=
  let desc := if ver.1 = 1 then { descNone with cmdId := leAt b 2 2, flags := bits (leAt b 1 1) 0 0 + 4 * b2n (bit (leAt b 1 1) 1) } else descOf b
  { tag := tag, inst := inst, sq := sq, cq := cq, ver := ver, raw := b, desc := desc, stage := .fetched, src := none
    aux := none, ticket := none, dstList := none, srcList := none, quarter := 0, unit := none, keys := [], counted := []
    tickets := [], keyed := false, epoch := none, done := 0, part := [], sent := 0, routedAt := 0, svc := none
    result := none, mute := false, retried := false }

/-- The fetch stage's refusal of a newly fetched descriptor (R276, R450 steps 1 and 2). -/
def fetchDenied (d : Dev) (inst op : Nat) : Option Nat :=
  if !(modeAdmits d op) then some stMODE
  else match (instOf d inst).run with
    | .quiescing | .quiesced => some stQUIESCING
    | .frozen => some stFROZEN
    | _ => none

/-- Takes in one fetched entry. -/
def takeEntry (inst q cq : Nat) (b : Bytes) (d : Dev) : Dev :=
  let ver := verOf d inst
  let tag := d.cmd.nextTag
  let c := freshCmd tag inst q cq ver b
  let c := match fetchDenied d inst (rawOpcode ver b) with
    | some st => { c with stage := .held, result := some (failed st 0) }
    | none => c
  wrapFld (modCmdSt (fun s => { s with cmds := s.cmds ++ [c], nextTag := (tag + 1) % 2 ^ 32 }) d) pgCMD Reg.CMD_STAT_FETCH_FETCHED 1

/-- Whether a read is one of queue q's fetches, and waited for. -/
def fetchesFor (inst q : Nat) (r : HRead) : Bool :=
  match r.what with
  | .fetch i k _ _ _ => i = inst && k = q && !r.dropped
  | _ => false

/-- Whether a read is a fetch bound to completion queue cq, and waited for. -/
def fetchesTo (inst cq : Nat) (r : HRead) : Bool :=
  match r.what with
  | .fetch i _ c _ _ => i = inst && c = cq && !r.dropped
  | _ => false

/-- Whether a read is a fetch of an instance. -/
def fetchesOf (inst : Nat) (r : HRead) : Bool :=
  match r.what with
  | .fetch i _ _ _ _ => i = inst
  | _ => false

/-- Fetches are not waited for; one that has its answer is gone with it (R66, R81). -/
def dropFetches (p : HRead → Bool) (d : Dev) : Dev :=
  modCmdSt (fun s => { s with
    reads := (s.reads.filter (fun r => !(p r && r.got.isSome))).map (fun r => if p r then { r with dropped := true } else r) }) d

/-- The entries of an answered fetch are taken in and HEAD moves past them; after a read that fails the queue stops with cause 2, and
its later fetches are not waited for (R81, R84, R96). -/
def fetchDone (inst q cq n : Nat) (live : Bool) (data : HostData) (d : Dev) : Dev :=
  match data with
  | none => sqError inst q 2 (dropFetches (fetchesFor inst q) d)
  | some b =>
    let e := sqEntry (verOf d inst)
    let d := if live then setQ inst q Reg.SQ_STAT_HEAD ((qFld d inst q Reg.SQ_STAT_HEAD + n) % sqSize d inst q) d else d
    (List.range n).foldl (fun d k => takeEntry inst q cq (slice b (k * e) e) d) d

/-- The answered fetches of queue q whose earlier ones are answered are taken in, oldest first (R94). Fuel bounds them. -/
def fetchDrain (inst q : Nat) : Nat → Dev → Dev
  | 0, d => d
  | f + 1, d =>
    match d.cmd.reads.find? (fetchesFor inst q) with
    | some r => match r.what, r.got with
      | .fetch _ _ cq n live, some data =>
        fetchDrain inst q f (fetchDone inst q cq n live data
          (modCmdSt (fun s => { s with reads := s.reads.filter (fun x => x.id ≠ r.id) }) d))
      | _, _ => d
    | none => d

/-- The sum of a scatter list's lengths. -/
def listSum (l : List (Nat × Nat)) : Nat := (l.map (·.2)).sum

/-- Whether every read of a command has been answered. -/
def readsDone (d : Dev) (tag : Nat) : Bool := d.cmd.reads.all (fun r => r.tag ≠ some tag)

/-- The remaining reads of a command are not waited for. -/
def dropReads (tag : Nat) (d : Dev) : Dev :=
  modCmdSt (fun s => { s with reads := s.reads.map (fun r => if r.tag = some tag then { r with dropped := true } else r) }) d

/-- A command fails while it waits for host data. -/
def failRead (c : Cmd) (e : Denial) (d : Dev) : Dev := dropReads c.tag (failCmd c e d)

/-- INFO of HOST_ACCESS_ERROR (R91). -/
def readInfo : ReadFor → Nat
  | .src => 1 | .aux => 3 | .srcSgl => 4 | .dstSgl => 4 | .ticket => 5 | .fetch _ _ _ _ _ => 0

/-- An entry of a scatter list arrives (R87): the list goes on, is complete, or fails the descriptor. -/
def sglStep (b : Bytes) (have' : List (Nat × Nat)) (total : Nat) : Except Denial (List (Nat × Nat) × Bool) :=
  let len := leAt b 8 4
  if len = 0 || leAt b 12 4 ≠ 0 then .error (stBAD_DESCRIPTOR, 0)
  else
    let l := have' ++ [(leAt b 0 8, len)]
    let s := listSum l
    if total < s || (s < total && l.length = 4096) then .error (stBAD_LENGTH, 0)
    else .ok (l, s = total)

/-- The result of a check that refuses a command: beside BUFFER_TOO_SMALL stands the length required, for RESULT1 (R89, R91). -/
def deniedResult (e : Denial) : Result := if e.1 = stBUFFER_TOO_SMALL then { failed e.1 0 with r1 := e.2 } else failed e.1 e.2

/-- Step 5 of R89 where the length hangs on a key: the keys are those that the handles name now, as the policy check will find them. -/
def roomFault (d : Dev) (c : Cmd) : Option Denial :=
  let found (h : Nat) : List KeyRec := if h = 0 then [] else ((resolve d c.inst h).toOption).toList
  let n := outNeed { c with keys := found c.desc.key ++ found c.desc.key2 }
  if c.desc.dstLen < n then some (stBUFFER_TOO_SMALL, n) else none

/-- All data of a command is there: its auxiliary block and its output area are checked and it goes to the policy check (R89, R120). -/
def readsFinish (c : Cmd) (d : Dev) : Dev :=
  if c.stage = .reading && readsDone d c.tag then
    match (auxFault c).or (roomFault d c) with
    | some e => holdCmd c (deniedResult e) d
    | none => putCmd { c with stage := .policy } d
  else d

/-- A command goes on reading; where IDE withholds the request by now it ends instead (R64, R91). -/
def readOn (c : Cmd) (what : ReadFor) (segs : List (Nat × Nat)) (d : Dev) : Dev :=
  if hostOpen d c.inst then hostRead c.inst (some c.tag) what segs (putCmd c d) else failRead c (stHOST_ACCESS, readInfo what) d

/-- A read of a command's data is answered (R66, R87, R91); of an opcode of firmware's the list is all that is read (R97). -/
def dataDone (r : HRead) (c : Cmd) (data : HostData) (d : Dev) : Dev :=
  match data with
  | none => failRead c (stHOST_ACCESS, readInfo r.what) d
  | some b =>
    match r.what with
    | .srcSgl =>
      match sglStep b (c.srcList.getD []) c.desc.srcLen with
      | .error e => failRead c e d
      | .ok (l, full) =>
        let c := { c with srcList := some l }
        if full then (if opFirmware c.desc.opcode then readsFinish c (putCmd c d) else readOn c .src l d)
        else readOn c .srcSgl [(c.desc.src + 16 * l.length, 16)] d
    | .dstSgl =>
      match sglStep b (c.dstList.getD []) c.desc.dstLen with
      | .error e => failRead c e d
      | .ok (l, full) =>
        let c := { c with dstList := some l }
        if full then readsFinish c (putCmd c d)
        else readOn c .dstSgl [(c.desc.dst + 16 * l.length, 16)] d
    | .src => let c := { c with src := some (fitTo c.desc.srcLen b) }; readsFinish c (putCmd c d)
    | .aux =>
      let pre := if c.ver.1 = 1 && c.desc.opcode = 0x0302 then zeros 8 else []
      let c := { c with aux := some (fitTo c.desc.auxLen (pre ++ b)) }
      readsFinish c (putCmd c d)
    | .ticket => let c := { c with ticket := some (fitTo c.desc.ticketLen b) }; readsFinish c (putCmd c d)
    | .fetch _ _ _ _ _ => d

/-- A read is answered in full, or has failed: what it is for goes on; a dropped one is discarded (R66). -/
def readEnd (r : HRead) (data : HostData) (d : Dev) : Dev :=
  let gone := modCmdSt (fun s => { s with reads := s.reads.filter (fun x => x.id ≠ r.id) })
  if r.dropped then gone d
  else match r.what, r.tag with
    | .fetch inst q _ _ _, _ =>
      fetchDrain inst q (d.cmd.reads.length + 1)
        (modCmdSt (fun s => { s with reads := s.reads.map (fun x => if x.id = r.id then { x with got := some data } else x) }) d)
    | _, some tag => match cmdOf d tag with
      | some c => dataDone r c data (gone d)
      | none => gone d
    | _, none => gone d

/-- HOST_READ_COMPLETION: the outstanding requests of the read with a number are answered. It ends unless requests of it still wait for a
tag, and the tags that are free serve those that wait (R50, R66). -/
def readDone (id : Nat) (data : HostData) (d : Dev) : Dev :=
  match d.cmd.reads.find? (fun r => r.id = id) with
  | none => d
  | some r =>
    pumpReads r.link (match data with
      | some b =>
        if r.todo.isEmpty || r.dropped then readEnd r (some (r.have' ++ b)) d
        else modCmdSt (fun s => { s with reads := s.reads.map (fun x =>
          if x.id = id then { x with reqs := 0, due := 0, have' := r.have' ++ fitTo r.due b } else x) }) d
      | none => readEnd r none d)

/-! ## The parser (R89, R94, R97-R104) -/

/-- Where the ticket area begins (R88). -/
def ticketAt (x : Desc) : Nat := alignUp (x.aux + x.auxLen) 8

/-- The opcodes for which a quorum may be required; a ticket on another is ignored (R88, R124, R308). -/
def opQuorum (op : Nat) : Bool :=
  op = 0x0105 || op = 0x0106 || op = 0x0108 || op = 0x010A || op = 0x010C || op = 0x010E || op = 0x010F || op = 0x0110

/-- The ticket area of a descriptor whose tickets count: address and length (R88). -/
def ticketArea (x : Desc) : List (Nat × Nat) := if x.ticketLen = 0 || !(opQuorum x.opcode) then [] else [(ticketAt x, x.ticketLen)]

/-- The host reads that a parsed command needs, in order. -/
def readsFor (c : Cmd) : List (ReadFor × Nat × Nat) :=
  let x := c.desc
  let auxRead : List (ReadFor × Nat × Nat) :=
    if x.auxLen = 0 || (c.ver.1 = 1 && x.opcode = 0x0301) then []
    else [(.aux, x.aux, if c.ver.1 = 1 && x.opcode = 0x0302 then x.auxLen - 8 else x.auxLen)]
  let ticketRead : List (ReadFor × Nat × Nat) := (ticketArea x).map (fun t => (.ticket, t.1, t.2))
  let srcRead : List (ReadFor × Nat × Nat) :=
    if x.srcLen = 0 then [] else if bit x.flags flSRC_SGL then [(.srcSgl, x.src, 16)] else [(.src, x.src, x.srcLen)]
  let dstRead : List (ReadFor × Nat × Nat) :=
    if x.dstLen ≠ 0 && bit x.flags flDST_SGL then [(.dstSgl, x.dst, 16)] else []
  if opFirmware x.opcode then
    (if bit x.flags flSRC_SGL then srcRead else []) ++ dstRead
  else auxRead ++ ticketRead ++ srcRead ++ dstRead

/-- The command starts its host reads; one whose host access R64 withholds does not start (R64). -/
def startReads (c : Cmd) (d : Dev) : Dev :=
  let c := { c with
    stage := .reading
    aux := if c.ver.1 = 1 && c.desc.opcode = 0x0301 then some (zeros 8) else c.aux }
  let rs := readsFor c
  if !(hostOpen d c.inst) && (!rs.isEmpty || c.desc.dstLen ≠ 0) then
    failCmd c (stHOST_ACCESS, ((rs.head?.map (fun r => readInfo r.1)).getD 2)) d
  else
    let d := rs.foldl (fun d r => hostRead c.inst (some c.tag) r.1 [r.2] d) (putCmd c d)
    readsFinish c d

/-- Entries in the routed ring, and whether it is full (R99, R101). -/
def rqSize (d : Dev) : Nat := 2 ^ fld d pgCMD Reg.CMD_RQ_CFG_RQ_SIZE
def rqUsed (d : Dev) : Nat :=
  (fld d pgCMD Reg.CMD_RQ_TAIL_TAIL + rqSize d - fld d pgCMD Reg.CMD_RQ_HEAD_HEAD % rqSize d) % rqSize d
def rqFull (d : Dev) : Bool := rqSize d ≤ rqUsed d + 1

/-- Whether earlier commands of its queue hold a command in the parser: one still ahead of the parser, or its own
FENCE_WAIT (R94). -/
def parseHeld (d : Dev) (c : Cmd) : Bool :=
  let before := earlier d c
  before.any (fun x => x.stage = .fetched) || (bit c.desc.flags flFENCE && !before.isEmpty)

/-- A command with its descriptor translated, or the status of a translation that fails. -/
def parsed (d : Dev) (c : Cmd) : Except Nat Cmd :=
  if c.ver.1 = 1 then
    match translate1 d c.inst c.ver.2 (desc1Of c.raw) with
    | .error st => .error st
    | .ok x => .ok { c with desc := x }
  else .ok c

/-- The minor by which availability is judged: every opcode that the 1.x map reaches exists in PYP 2.0. -/
def pypMinor (c : Cmd) : Nat := if c.ver.1 = 1 then 0 else c.ver.2

/-- DESCRIPTOR_PARSE on a fetched command: R89 in order, the route, and the reads; the parser's step ends at a job boundary
of the CMD page (R10, R94, R101, R102). -/
def parseGo (c0 : Cmd) (d : Dev) : Dev :=
  if parseHeld d c0 then d
  else match parsed d c0 with
  | .error st => jobBoundary pgCMD (failCmd c0 (st, 0) d)
  | .ok c =>
    if opKnown c.desc.opcode && opRouted c.desc.opcode && fldB d pgCMD Reg.CMD_CFG_RQ_EN && rqFull d then d
    else if !(readsFor c).isEmpty && !(instTag d c.inst) then d
    else
      jobBoundary pgCMD (match descFault (pypMinor c) c.desc with
        | some (st, info, r1) => holdCmd c { failed st info with r1 := r1 } d
        | none =>
          if opRouted c.desc.opcode && !(fldB d pgCMD Reg.CMD_CFG_RQ_EN) then failCmd c (stMODE, 0) d
          else if c.desc.opcode = 0x0110 && d.sys.mode ≠ .ceremony then failCmd c (stMODE, 0) d
          else startReads c d)

/-! ## Routing (R10, R11, R99-R101) -/

/-- Whether an opcode creates a key. -/
def opCreates (op : Nat) : Bool :=
  op = 0x0101 || op = 0x0102 || op = 0x0103 || op = 0x0104 || op = 0x0107 || op = 0x010F || op = 0x0110 || op = 0x0305
    || op = 0x0308 || op = 0x0309 || op = 0x0407 || op = 0x0408 || op = 0x0409 || op = 0x0601

/-- R450 step 4: life-cycle states in which no key is used or created. -/
def lcDenied (d : Dev) (c : Cmd) : Bool :=
  (d.sys.lc = .test || d.sys.lc = .factory || d.sys.lc = .returned)
    && (c.desc.key ≠ 0 || c.desc.key2 ≠ 0 || opCreates c.desc.opcode)

/-- Whether the keys of a command are asymmetric, which decides the unit of LOCKER_TOKEN_SIGN. -/
def asymKey (c : Cmd) : Bool := algAsym (key1 c).alg

/-- The unit kind of a command. -/
def kindOf (c : Cmd) : UnitKind := opUnit c.desc (asymKey c)

/-- The unit kind of a unit by its class 3 index; from 28 on the key store controller and the DRBGs. -/
def unitKind (i : Nat) : UnitKind := if i < 16 then .lane else if i < 20 then .cluster else if i < 28 then .engine else .store

/-- The register page of a unit. -/
def unitPage (i : Nat) : Nat := if i < 16 then pgSYM i else if i < 20 then pgHASH (i - 16) else pgPKE (i - 20)

/-- Whether a unit's power lets it take work: ON by its own requests, and no request that acts waits (R452-R454). -/
def unitPowered (d : Dev) (p : Nat) : Bool := (hdrOf d p).pwrNow = 0 && (!(hdrOf d p).pwrPend || (hdrOf d p).pwrHeld)

/-- Whether a unit takes work (R24, R197, R223): ENABLE is 1, it does not drain, and SERVE is 1, which a unit that is GATED, or about to
be, counts as one without (R452, R453, R502). -/
def unitServes (d : Dev) (i : Nat) : Bool :=
  28 ≤ i || ((hdrOf d (unitPage i)).enable && !(hdrOf d (unitPage i)).drain && fldB d (unitPage i) (if i < 20 then Reg.SYM_CFG_SERVE else Reg.PKE_CFG_SERVE) && unitPowered d (unitPage i))

/-- Units of a kind. -/
def unitsOf : UnitKind → List Nat
  | .lane => List.range 16
  | .cluster => [16, 17, 18, 19]
  | .engine => [20, 21, 22, 23, 24, 25, 26, 27]
  | .store => [28]

/-- Whether a unit that serves stands in an ON quarter (R167, R220, R452). -/
def anyServes (d : Dev) (k : UnitKind) : Bool :=
  k = .store || (unitsOf k).any (fun i => fldB d (unitPage i) (if i < 20 then Reg.SYM_CFG_SERVE else Reg.PKE_CFG_SERVE)
    && (hdrOf d (unitPage i)).pwrNow = 0 && (quarterOf d (unitQuarter i)).pwr = .on)

/-- Commands on the rings that no unit can take complete with ENGINE_FAULT (R167, R220). -/
def ringSweep (d : Dev) : Dev :=
  (d.cmd.cmds.filter (fun c => c.stage = .ring && !(anyServes d (kindOf c)))).foldl (fun d c => failCmd c (stENGINE, 0) d) d

/-- A checked command goes to the work ring of its home quarter, or of the next that is ON (R11). -/
def toRing (c : Cmd) (d : Dev) : Dev :=
  ringSweep (putCmd { c with stage := .ring, quarter := (nextOn d (homeQuarter c.inst c.sq)).getD (homeQuarter c.inst c.sq) } d)

/-- POLICY_CHECK on a command whose data is there (R8, R121, R450); the parser's last check comes before it for a key that the vault has
returned since (R89, R148). A command that fails keeps its challenges and the tag of what was
read until its release (R145, R315). -/
def policyGo (err : KeyErr) (c : Cmd) (d : Dev) : Dev :=
  match roomFault d c with
  | some e => holdCmd c (deniedResult e) d
  | none =>
  if lcDenied d c then failCmd c (stMODE, 0) d
  else match policyRun err.t1 c d with
    | .fail e c d => failCmd { c with keys := [], counted := [] } e d
    | .wait d => d
    | .pass c d => if opRouted c.desc.opcode then putCmd { c with stage := .route } d else toRing c d

/-- Tier of a handle's key: 0 T0, 1 T1, 2 T2, 0xFF none (R99). -/
def klocOf (d : Dev) (h : Nat) : Nat :=
  if h = 0 then 0xFF
  else if (residentOf d (hRec h)).isSome then 0
  else if (keyAt d (hRec h)).isSome then 1
  else if needsDemand d (hRec h) then 2 else 0xFF

/-- The 128 bytes of a routed entry (R99). -/
def routedBytes (d : Dev) (c : Cmd) : Bytes :=
  descBytes c.desc ++ leBytes 4 c.tag ++ leBytes 2 c.inst ++ leBytes 1 c.sq
    ++ leBytes 1 (b2n (c.ver.1 = 1) + 2 * b2n (c.desc.ticketLen ≠ 0)) ++ leBytes 1 (klocOf d c.desc.key)
    ++ leBytes 1 (klocOf d c.desc.key2) ++ zeros 54

/-- Addresses of the routed rings (R102). -/
def rqBase (d : Dev) : Nat := fldPair d pgCMD Reg.CMD_RQ_BASE_LO_BASE_LO Reg.CMD_RQ_BASE_HI_BASE_HI
def rcqBase (d : Dev) : Nat := fldPair d pgCMD Reg.CMD_RCQ_BASE_LO_BASE_LO Reg.CMD_RCQ_BASE_HI_BASE_HI

/-- ROUTED_ENTRY_WRITE: the entry goes into the ring once it has room (R99, R101), and room in the write buffer where it is provisional (R265). -/
def routeGo (c : Cmd) (d : Dev) : Dev :=
  if rqFull d || tagWaits d c.epoch (rqBase d + fld d pgCMD Reg.CMD_RQ_TAIL_TAIL * 128) 128 then d
  else
    let tail := fld d pgCMD Reg.CMD_RQ_TAIL_TAIL
    match memStore2 whoCmdp c.epoch (rqBase d + tail * 128) (routedBytes d c) d with
    | (.ok, d) =>
      let d := setFld d pgCMD Reg.CMD_RQ_TAIL_TAIL ((tail + 1) % rqSize d)
      let d := wrapFld d pgCMD Reg.CMD_STAT_ROUTED_ROUTED 1
      raiseEv pgCMD 0 (putCmd { c with stage := .routed, routedAt := d.now, keyed := c.counted.isEmpty } d)
    | (r, d) => failCmd c (memDenial r 0) d

/-! ## Work rings (R11, R201) -/

/-- Whether a command may be taken by a unit, by kind. -/
def suits (i : Nat) (c : Cmd) : Bool := c.stage = .ring && kindOf c = unitKind i

/-- The algorithm by which a command is long (R221). -/
def longAlg (c : Cmd) : Nat := if c.desc.opcode = 0x0102 then leAt (auxOf c) 0 2 else (key1 c).alg

/-- A long operation (R201, R221). -/
def isLong (c : Cmd) : Bool :=
  if c.desc.opcode = 0x0102 && bit c.desc.param 1 then false else opLong c.desc.opcode (longAlg c)

/-- The other engine of an engine's quarter. -/
def otherEngine (i : Nat) : Nat := if i % 2 = 0 then i + 1 else i - 1

/-- The long operation that a unit works on, if any. -/
def runsLong (d : Dev) (i : Nat) : Bool :=
  match (unitOf d i).cur with
  | some tag => ((cmdOf d tag).map isLong).getD false
  | none => ((unitOf d i).job.map isLong).getD false

/-- Whether an engine passes over a command (R201). -/
def passesOver (d : Dev) (i : Nat) (ring : List Cmd) (c : Cmd) : Bool :=
  unitKind i = .engine && isLong c
    && (!(fldB d (unitPage i) Reg.PKE_CFG_LONG_OK) || (runsLong d (otherEngine i) && ring.any (fun x => !(isLong x))))

/-- The command that an idle unit takes: the oldest it may take of its own quarter's ring, else of the ring that holds the
most waiting (R11, R201). -/
def ringPick (d : Dev) (i : Nat) : Option Cmd :=
  let ring (q : Nat) : List Cmd := d.cmd.cmds.filter (fun c => suits i c && c.quarter = q)
  let pick (q : Nat) : Option Cmd := (ring q).find? (fun c => !(passesOver d i (ring q) c))
  if unitKind i = .store then d.cmd.cmds.find? (suits i)
  else
    let own := unitQuarter i
    match pick own with
    | some c => some c
    | none =>
      let all (q : Nat) : Nat := (d.cmd.cmds.filter (fun c => c.stage = .ring && c.quarter = q)).length
      let best := [0, 1, 2, 3].foldl (fun (b : Option Nat) q =>
        if q = own || (pick q).isNone then b
        else match b with
          | none => some q
          | some x => if all x < all q then some q else b) none
      best.bind pick

/-- WORK_RING_TAKE by a unit (R11). -/
def takeGo (i : Nat) (d : Dev) : Dev :=
  let d := ringSweep d
  let idle : Bool := 28 ≤ i || ((unitOf d i).cur.isNone && (unitOf d i).job.isNone && !(unitOf d i).oos
    && quarterServes d (unitQuarter i) && unitServes d i)
  if !idle then d
  else match ringPick d i with
    | none => d
    | some c =>
      let d := putCmd { c with stage := .taken, unit := some i, keyed := c.counted.isEmpty } d
      if 28 ≤ i then d else modUnit i (fun u => { u with cur := some c.tag }) d

/-! ## Key fetch (R141, R143, R144) -/

/-- The modes in which keys are loaded into T0, and those in which the vault serves demand loads (R148, R162). -/
def t0Loads (m : Mode) : Bool := m = .startup || m = .service || m = .ceremony || m = .diagnostic || m = .factoryTest
def t2Loads (m : Mode) : Bool := m = .startup || m = .service || m = .ceremony || m = .diagnostic

/-- A command has left its engine: every unit that worked on it is idle again; one that is not enabled has then stopped, and its shadows
take effect (R35), and the material of a key destroyed meanwhile goes (R129). -/
def freeUnits (tag : Nat) (d : Dev) : Dev :=
  let free (u : Unit') : Unit' := if u.cur = some tag then { u with cur := none } else u
  let held := (d.units.filter (fun u => u.2.cur = some tag && u.1 < 28)).map (·.1)
  let d := settleEnded (((cmdOf d tag).map (·.counted)).getD []) d
  let d := { d with units := (d.units.map (fun u => (u.1, free u.2))).filter (fun u => u.2 ≠ unitReset u.1) }
  held.foldl (fun d i => if (hdrOf d (unitPage i)).enable then d else jobBoundary (unitPage i) d) d

/-- A command that is at its unit ends without its operation. -/
def failTaken (c : Cmd) (e : Denial) (d : Dev) : Dev := freeUnits c.tag (failCmd c e d)

/-- A key that no longer fits in T0: every command and job on it completes with ENGINE_FAULT (R144). -/
def keyNever (n : Nat) (d : Dev) : Dev :=
  let d := (d.cmd.cmds.filter (fun c => c.stage ≠ .held && c.counted.contains n)).foldl (fun d c => failTaken c (stENGINE, 0) d) d
  { d with units := d.units.map (fun u => match u.2.job with
    | some c => if c.result.isNone && c.counted.contains n then
        (u.1, { u.2 with job := some { c with stage := .held, result := some (failed stENGINE 0) } }) else u
    | none => u) }

/-- Loads the keys of a command that are not resident, with the tag of what was read (R141, R145). -/
def loadKeys (hs : List T1Hit) (ns : List Nat) (d : Dev) : Option Nat × Dev :=
  ns.foldl (fun acc n =>
    if (residentOf acc.2 n).isSome then acc
    else match t0Load hs n acc.2 with
      | .done t d => (tagMax acc.1 t, d)
      | .wait d => (acc.1, d)
      | .never d => (acc.1, keyNever n d)) (none, d)

/-- Whether the material of every record is in T0; that of a destroyed key is kept for the commands admitted before (R129). -/
def keysThere (d : Dev) (ns : List Nat) : Bool := ns.all (fun n => (residentOf d n).isSome)

/-- Key fetch: each slot is checked as the engine receives it; a failing one is quarantined, and its key is loaded again (R141, R143). A
halt that the reload brings is the end of it. -/
def fetchSlots (err : KeyErr) (ns : List Nat) (d : Dev) : Option Nat × Dev :=
  let bad := slotsBad err.slots ns d
  let (t, d) := loadKeys err.t1 (bad.map (·.2)) (bad.foldl (fun d sn => quarantine sn.1 sn.2 d) d)
  (t, if keysThere d ns && !d.mpe.halting then wrapFld d pgKS3 Reg.KS_STAT_HIT_HIT ns.length else d)

/-- KEY_FETCH for a command (R141, R143, R145). -/
def fetchKey (err : KeyErr) (c : Cmd) (d : Dev) : Dev :=
  if !(keysThere d c.counted) then d
  else
    let (t, d) := fetchSlots err c.counted d
    match cmdOf d c.tag with
    | some x => if x.stage = .held || d.mpe.halting then d
      else putCmd { x with keyed := keysThere d c.counted, epoch := tagMax x.epoch t } d
    | none => d

/-! ## Running an operation (R165-R167, R197, R218-R223) -/

/-- The key store reads a key's T1 record for a demand load and its extensions (R148). -/
def demandLoad (dmg : VaultDamage) (n : Nat) (d : Dev) : Dev :=
  if needsDemand d n then
    let d := vaultRestore dmg n (wrapFld d pgKS3 Reg.KS_STAT_T2_LOADS 1)
    (((keyAt d n).map (·.exts)).getD []).foldl (fun d x => vaultRestore (homeDamage d x) x d) d
  else d

/-- Adds to a 64-bit wrapping counter in two registers. -/
def wrapPair (p : Nat) (lo hi : Fld) (n : Nat) (d : Dev) : Dev :=
  let v := (fld d p lo + fld d p hi * 2 ^ 32 + n) % 2 ^ 64
  setFld (setFld d p lo v) p hi (v / 2 ^ 32)

/-- Bytes of a block of a hash code (R181). -/
def hashBlock (h : Nat) : Nat :=
  match h with
  | 3 | 4 | 5 => 128 | 8 => 144 | 9 => 136 | 10 => 104 | 11 => 72 | _ => 64

/-- Blocks of a padded message: SHA-2 appends a bit and a length of 8 or 16 bytes, SHA-3 fills its last block. -/
def hashBlocks (h n : Nat) : Nat :=
  if 8 ≤ h then n / hashBlock h + 1 else (n + hashBlock h / 8) / hashBlock h + 1

/-- Blocks of an HMAC: the key block and the message, then the key block and the digest. -/
def hmacBlocks (h n : Nat) : Nat := hashBlocks h (hashBlock h + n) + hashBlocks h (hashBlock h + hashSize h)

/-- Blocks that a command counts on its page (R197): those of its message, where the algorithm fixes their number. -/
def blocksOf (c : Cmd) : Nat :=
  let x := c.desc
  let n := blkLen (key1 c).alg
  let free := Config.passBlocks x.opcode x.srcLen x.auxLen % 2 ^ 32
  match x.opcode with
  | 0x0206 => (x.srcLen - c.done * xtsSize x) / 16
  | 0x0201 | 0x0202 | 0x0203 | 0x0207 | 0x0208 => (x.srcLen + n - 1) / n
  | 0x0204 | 0x0205 => (x.srcLen - (if pDec x && (pSeg x = 0 || pSeg x = 3) then tagOr x 16 else 0) + 15) / 16
  | 0x0404 | 0x0405 => max 1 ((x.srcLen + n - 1) / n)
  | 0x0401 => hashBlocks x.param x.srcLen
  | 0x0402 => x.srcLen / (if x.param = 1 then 168 else 136) + 1
  | 0x0403 => hmacBlocks x.param x.srcLen
  | 0x0406 => if bits x.param 15 12 = 1 then hmacBlocks (bits x.param 3 0) x.srcLen else max 1 ((x.srcLen + n - 1) / n)
  | _ => free

/-- Adds blocks to a lane's or cluster's page. -/
def blkAdd (p n : Nat) (d : Dev) : Dev := wrapPair p Reg.SYM_BLK_LO_BLK_LO Reg.SYM_BLK_HI_BLK_HI n d

/-- The counters of a unit's page after an operation, and its job boundary; the image of IMAGE_VERIFY is hashed on the cluster of the
quarter (R197, R214, R223). -/
def unitCount (i : Nat) (c : Cmd) (chk : Nat) (r : Result) (d : Dev) : Dev :=
  if 28 ≤ i then d
  else
    let p := unitPage i
    let d := satFld d p (if i < 20 then Reg.SYM_ERR_CNT_FAULT else Reg.PKE_ERR_CNT_CHECK) (min chk 2)
    let d :=
      if i < 16 then
        satFld (blkAdd p (blocksOf c) d) p Reg.SYM_ERR_CNT_AUTH (b2n (r.status = stAUTH_FAIL))
      else if i < 20 then
        satFld (blkAdd p (blocksOf c) d) p Reg.SYM_ERR_CNT_AUTH
          (b2n (r.status = stVERIFY_FAIL && (c.desc.opcode = 0x0406 || c.desc.opcode / 256 = 8)))
      else
        let d := satFld (wrapPair p Reg.PKE_OPS_LO_OPS_LO Reg.PKE_OPS_HI_OPS_HI 1 d) p Reg.PKE_ERR_CNT_VFAIL (b2n (r.status = stVERIFY_FAIL))
        if c.desc.opcode = 0x030F then blkAdd (pgHASH (unitQuarter i)) (hashBlocks (pHash c.desc) c.desc.srcLen) d else d
    jobBoundary p d

/-- A unit goes out of service: its bit, SERVE, the event and the record (R167, R220). -/
def unitFault (i : Nat) (d : Dev) : Dev :=
  if 28 ≤ i then d
  else
    let p := unitPage i
    let d := modUnit i (fun u => { u with oos := true }) d
    let d := setFld d p (if i < 20 then Reg.SYM_CFG_SERVE else Reg.PKE_CFG_SERVE) 0
    ringSweep (record 0x0405 (payBytes 8 [3, i]) (raiseEv p 1 d))

/-- The runs of an operation that an engine's checks discard: of each only the randomness it has drawn remains, and the next draws its own
(R220). -/
def discardRuns (i : Nat) (op : OpFn) (c : Cmd) : Nat → Dev → OpOut
  | 0, d => .done (okRes 0 0) d
  | n + 1, d =>
    if i < 20 || 28 ≤ i then .done (okRes 0 0) d
    else match op c d with
      | .wait d => .wait d
      | .done _ d' => discardRuns i op c n { d with ent := d'.ent, units := d'.units }

/-- An operation at a unit: the check unit's mismatches come first, then the operation, unless the second mismatch has ended it (R167,
R220); its reads of random values are all of one operation (R236). -/
def runChecked (i chk : Nat) (op : OpFn) (c : Cmd) (d : Dev) : OpOut :=
  opReads c d (match discardRuns i op c (min chk 2) d with
    | .wait d => .wait d
    | .done _ d => if 2 ≤ chk then .done (failed stENGINE 0) d else op c d)

/-- Runs an operation on a command at its unit: a wait leaves the command where it is, and the end frees the unit and brings the result to
the fence. -/
def runGo (c : Cmd) (chk : Nat) (op : OpFn) (d : Dev) : Dev :=
  let i := c.unit.getD 28
  match runChecked i chk op c d with
  | .wait d => d
  | .done r d =>
    let d := unitCount i c chk r (holdCmd ((cmdOf d c.tag).getD c) r d)
    freeUnits c.tag (if 2 ≤ chk then unitFault i d else d)

/-- The meaning of an operation's row: the command with the TAG, at its unit with its key material, of that opcode. -/
def runOp (tag : Nat) (ops : List Nat) (chk : Nat) (op : OpFn) (d : Dev) : Dev :=
  match cmdOf d tag with
  | some c => if c.stage = .taken && c.keyed && ops.contains c.desc.opcode then runGo c chk op d else d
  | none => d

/-- The service that secure firmware gives a routed command: what it comes to is kept until firmware completes it (R99,
R130). -/
def serveOp (tag : Nat) (ops : Nat → Bool) (op : OpFn) (d : Dev) : Dev :=
  match cmdOf d tag with
  | some c =>
    if c.stage = .routed && c.keyed && c.svc.isNone && ops c.desc.opcode then
      match opReads c d (op c d) with
      | .wait d => d
      | .done r d => match cmdOf d tag with
        | some c => putCmd { c with svc := some r } d
        | none => d
    else d
  | none => d

end Sys2Proof.Machine
end

