-- ==== Sys2Proof/Machine/Release.lean ====
section
/-! DEFINITION. The egress fence: record changes and counters committed at release, host writes, completion entries and
messages, and firmware's completions of routed commands (R90-R96, R100-R101, R105, R126-R130, R172, R175, R266-R267). -/

namespace Sys2Proof.Machine

/-! ## Record changes (R109, R126, R128-R130, R133) -/

/-- Records that an instance holds: key records and their extensions (R279). -/
def recordsOf (d : Dev) (inst : Nat) : Nat :=
  ((keysOf d).map (fun nk => if hInst nk.2.handle = inst then 1 + nk.2.exts.length else 0)).sum

/-- How a change at the fence ends. -/
inductive FenceOut where
  | done (d : Dev) (handle : Nat)
  | fail (e : Denial)
  | wait

/-- A vault entry would be added for a persistent record while the vault does not take writes (R129, R133, R153, R154). -/
def vaultBars (d : Dev) (h : Nat) : Bool := hClass h = 0 && !(vaultWritable d)

/-- EXPIRES of a key of a lifetime: the time-stamp at which it ends, within its 48 bits (R112, R131). -/
def expiresAt (life : Nat) (d : Dev) : Nat :=
  if life = 0 then 0 else if stamp d + life < 2 ^ 48 then stamp d + life else Config.expiresOver (stamp d + life) % 2 ^ 48

/-- A new key takes the lowest free records; its handle names the first (R108, R109, R112, R146, R279). -/
def createKey (k : KeyRec) (cls inst life : Nat) (d : Dev) : FenceOut :=
  let need := 1 + extsFor k.mat.length
  if cls = 0 && !(vaultWritable d) then .fail (stVAULT_RO, 0)
  else if (instOf d inst).records < recordsOf d inst + need then .fail (stFULL, 0)
  else match allocRecs d need with
    | none => if restoring d then .wait else .fail (stFULL, 0)
    | some [] => .fail (stFULL, 0)
    | some (n :: exts) =>
      let h := mkHandle inst cls (hGen (bodyHandle (t1Of d n))) (if cls = 0 then 0 else bootTag d) n
      .done (placeKey n { k with handle := h, exts := exts, expires := expiresAt life d, life := life } d) h

/-- KEY_DESTROY's change: the record is freed, or retired, and for a persistent key queued for the vault with its
extensions, which the vault holds free at once and T1 when the last command on the key has left (R109, R129). -/
def destroyKey (n : Nat) (d : Dev) : Dev :=
  match keyAt d n with
  | none => d
  | some k =>
    let d := freeRec n d
    let d := modKey (fun s => { s with
      usageRaise := smapSet noneAt s.usageRaise n none, nonceRaise := smapSet noneAt s.nonceRaise n none
      usageDue := smapSet noneAt s.usageDue n none, noticed := smapSet falseAt s.noticed n false
      resumed := smapSet falseAt s.resumed n false, loaded := smapSet falseAt s.loaded n false }) d
    if hClass k.handle = 0 && vaultWritable d then
      k.exts.foldl (fun d x => vaultQueueBody x (.free (bodyHandle (t1Of d x))) d) (vaultQueueRec n d)
    else d

/-- A change to a key record, queued for the vault where the key is persistent. -/
def changeRec (n : Nat) (f : KeyRec → KeyRec) (d : Dev) : Dev :=
  match keyAt d n with
  | some k => placeKey n (f k) d
  | none => d

/-- Extension records that a number of grants needs (R116, R123). -/
def grantExts (m : Nat) : Nat := if 4 < m then (m - 4 + 27) / 28 else 0

/-- A grant is added, or replaces the grantee's earlier one; the record grows a grant extension when it must (R116, R123,
R132). -/
def addGrant (n : Nat) (g : Grantee) (k : KeyRec) (d : Dev) : FenceOut :=
  let rest := k.grants.filter (fun x => x.inst ≠ g.inst)
  let gs := if rest.length = k.grants.length then k.grants ++ [g] else k.grants.map (fun x => if x.inst = g.inst then g else x)
  if !(bit k.attr atGRANTABLE) then .fail (stPOLICY, atGRANTABLE)
  else if 60 < gs.length then .fail (stPOLICY, 72)
  else
    let need := extsFor k.mat.length + grantExts gs.length - k.exts.length
    if need = 0 then .done (placeKey n { k with grants := gs } d) 0
    else if (instOf d (hInst k.handle)).records < recordsOf d (hInst k.handle) + need then .fail (stFULL, 0)
    else match allocRecs d need with
      | none => if restoring d then .wait else .fail (stFULL, 0)
      | some xs => .done (placeKey n { k with grants := gs, exts := k.exts ++ xs } d) 0

/-- NONCE_CTR becomes the greater of its value and v (R175). -/
def nonceTo (n v : Nat) (d : Dev) : Dev :=
  if (keyAt d n).all (fun k => v ≤ k.nonce) then d else modRec n (fun k => { k with nonce := v }) d

/-- The draw pointer is moved up to a value. -/
def pointerTo (n v : Nat) (d : Dev) : Dev :=
  match residentOf d n with
  | some r => modKey (fun s => { s with resident := smapSet noneAt s.resident n (some { r with ptr := max r.ptr v }) }) d
  | none => d

/-- The key record a handle names now, its generation judged again (R128). -/
def standing (d : Dev) (h : Nat) : Option KeyRec := (keyAt d (hRec h)).filter (fun k => k.handle = h)

/-- One change of a command at its release (R95, R128, R266). -/
def applyEffect (op : Nat) (e : Effect) (d : Dev) : FenceOut :=
  match e with
  | .create k cls inst life _ _ => createKey k cls inst life d
  | .destroy h =>
    match standing d h with
    | none => .fail (stSTALE, 0)
    | some _ => if vaultBars d h then .fail (stVAULT_RO, 0) else .done (destroyKey (hRec h) d) 0
  | .setAttr h set clear limit label =>
    match standing d h with
    | none => .fail (stSTALE, 0)
    | some k =>
      let x : Change := { set := set, clear := clear, limit := limit, apply := b2n label.isSome, rsvd := [], label := label.getD [] }
      if vaultBars d h then .fail (stVAULT_RO, 0)
      else match changeDenied d k x with
        | some e => .fail e
        | none =>
          .done (changeRec (hRec h) (fun k => { k with
            attr := changeAttr k.attr x, limit := if limit = keepLimit then k.limit else limit, label := label.getD k.label }) d) 0
  | .grant h g =>
    match standing d h with
    | none => .fail (stSTALE, 0)
    | some k => if vaultBars d h then .fail (stVAULT_RO, 0) else addGrant (hRec h) g k d
  | .revoke h inst =>
    match standing d h with
    | none => .fail (stSTALE, 0)
    | some k =>
      if !(k.grants.any (fun g => g.inst = inst)) then .done d 0
      else if vaultBars d h then .fail (stVAULT_RO, 0)
      else .done (changeRec (hRec h) (fun k => { k with grants := k.grants.filter (fun g => g.inst ≠ inst) }) d) 0
  | .exported h =>
    match standing d h with
    | none => .done d 0
    | some k =>
      if !(bit k.attr atNEVER_EXPORTED) then .done d 0
      else if vaultBars d h then .fail (stVAULT_RO, 0)
      else .done (changeRec (hRec h) (fun k => { k with attr := setBit k.attr atNEVER_EXPORTED false }) d) 0
  | .nonce h v => .done (if (standing d h).isSome then nonceTo (hRec h) v d else d) 0
  | .counter h v =>
    if (standing d h).isNone then .done d 0
    else if (smapGet noneAt d.key.nonceRaise (hRec h)).isSome then .wait
    else .done (if op = 0x0802 then pointerTo (hRec h) v (nonceTo (hRec h) v d) else nonceTo (hRec h) v d) 0
  | .redeem id => .done (redeemChallenge id d) 0
  | .repair h k =>
    match standing d h with
    | some old =>
      if !old.damaged then .done d 0
      else if vaultBars d h then .fail (stVAULT_RO, 0)
      else
        let need := extsFor k.mat.length - old.exts.length
        match allocRecs d need with
        | none => if restoring d then .wait else .fail (stFULL, 0)
        | some xs =>
          .done (placeKey (hRec h) { k with handle := h, exts := old.exts ++ xs, expires := expiresAt k.life d } d) 0
    | none => .done d 0

/-- How the changes of a command end together: all of them with the handles created, in order; the first failure, with
nothing changed; or a wait. -/
inductive Changes where
  | done (d : Dev) (handles : List Nat)
  | fail (e : Denial)
  | wait

/-- Applies changes in order. -/
def applyAll (op : Nat) : List Effect → Dev → Changes
  | [], d => .done d []
  | e :: es, d =>
    match applyEffect op e d with
    | .wait => .wait
    | .fail x => .fail x
    | .done d h =>
      match applyAll op es d with
      | .done d hs => .done d (h :: hs)
      | r => r

/-- The new handles in a result: RESULT0, or their places in the output (R132, R184). -/
def patchHandles : List (Effect × Nat) → Result → Result
  | [], r => r
  | (e, h) :: es, r =>
    match e with
    | .create _ _ _ _ toR0 at' =>
      let r := if toR0 then { r with r0 := h } else r
      let r := match at' with
        | some o => { r with out := r.out.take o ++ leBytes 8 h ++ r.out.drop (o + 8) }
        | none => r
      patchHandles es r
    | _ => patchHandles es r

/-! ## Host writes and completions (R51, R87, R90-R93, R105) -/

/-- Writes bytes over the segments of an output area. -/
def writeSegs (l n : Nat) : List (Nat × Nat) → Bytes → Dev → Dev
  | [], _, d => d
  | (a, len) :: rest, b, d =>
    if b.isEmpty then d else writeSegs l n rest (b.drop len) (emitAll (hostWrites d l n a (b.take len) true) d)

/-- Writes a string into a command's output area from an offset. -/
def writeOut (c : Cmd) (off : Nat) (b : Bytes) (d : Dev) : Dev :=
  if b.isEmpty || c.mute then d
  else match instFn d c.inst with
    | none => d
    | some (l, n) =>
      if !(ideOpen d l n) then d
      else
        let segs := c.dstList.getD [(c.desc.dst, c.desc.dstLen)]
        let cut := segs.foldl (fun (acc : Nat × List (Nat × Nat)) s =>
          if s.2 ≤ acc.1 then (acc.1 - s.2, acc.2) else (0, acc.2 ++ [(s.1 + acc.1, s.2 - acc.1)])) (off, [])
        writeSegs l n cut.2 b d

/-- The 32 bytes of a completion entry (R90). -/
def cqe2 (c : Cmd) (r : Result) (head phase : Nat) : Bytes :=
  leBytes 8 r.r0 ++ leBytes 8 r.r1 ++ leBytes 4 r.outLen ++ leBytes 2 head ++ leBytes 2 c.sq ++ leBytes 2 c.desc.cmdId
    ++ leBytes 2 r.status ++ leBytes 2 r.info ++ leBytes 2 phase

/-- The status that a PYP 1.x completion carries (R105). -/
def status1 (st : Nat) : Nat :=
  if st = stOK || st = stBAD_OPCODE || st = stBAD_VERSION || st = stBAD_DESCRIPTOR || st = stPOLICY || st = stNOT_FOUND
      || st = stAUTH_FAIL || st = stENTROPY then st
  else if st / 256 = 2 then stPOLICY
  else if st / 256 = 3 then stNOT_FOUND
  else if 0x0104 ≤ st && st ≤ 0x0106 then stBAD_DESCRIPTOR
  else 0x00FF

/-- The 16 bytes of a PYP 1.x completion entry (R105). -/
def cqe1 (c : Cmd) (r : Result) (head phase : Nat) : Bytes :=
  leBytes 8 r.r0 ++ leBytes 2 c.desc.cmdId ++ leBytes 2 (status1 r.status) ++ leBytes 2 head ++ leBytes 2 (c.sq * 2 + phase)

/-- A completion queue's message goes out (R93). -/
def coalSend (inst q : Nat) (d : Dev) : Dev :=
  signalInst inst q (modCmdSt (fun s => { s with
    coal := smapSet zeroAt s.coal (qKey inst q) 0, coalAt := smapSet noneAt s.coalAt (qKey inst q) none }) d)

/-- The message goes out as soon as enough completions are counted and IRQ_EN is 1 (R93). -/
def coalCheck (inst q : Nat) (d : Dev) : Dev :=
  if qFld d inst q Reg.CQ_CFG_IRQ_EN = 1 && max 1 (qFld d inst q Reg.CQ_CFG_COAL_COUNT) ≤ smapGet zeroAt d.cmd.coal (qKey inst q) then
    coalSend inst q d
  else d

/-- A completion counts toward its queue's message (R93). -/
def coalCount (inst q : Nat) (d : Dev) : Dev :=
  coalCheck inst q (modCmdSt (fun s => { s with
    coal := smapSet zeroAt s.coal (qKey inst q) (smapGet zeroAt s.coal (qKey inst q) + 1)
    coalAt := smapSet noneAt s.coalAt (qKey inst q) (some ((smapGet noneAt s.coalAt (qKey inst q)).getD d.now)) }) d)

/-- A completion entry is written and announced (R90-R93); IDE may refuse the write, which stops the queue (R81); a queue that is stopped on an error or disabled takes no entry. -/
def postCqe (c : Cmd) (r : Result) (d : Dev) : Dev :=
  match instFn d c.inst with
  | none => d
  | some (l, n) =>
    if qFld d c.inst c.cq Reg.CQ_CFG_EN = 0 || qFld d c.inst c.cq Reg.CQ_STAT_ERROR = 1 then d
    else if !(ideOpen d l n) then cqError c.inst c.cq 3 d
    else
      let tail := qFld d c.inst c.cq Reg.CQ_STAT_TAIL
      let phase := qFld d c.inst c.cq Reg.CQ_STAT_PHASE
      let head := qFld d c.inst c.sq Reg.SQ_STAT_HEAD
      let e := if c.ver.1 = 1 then cqe1 c r head phase else cqe2 c r head phase
      let d := emitAll (hostWrites d l n (cqBase d c.inst c.cq + tail * cqEntry c.ver) e false) d
      let next := (tail + 1) % cqSize d c.inst c.cq
      let d := setQ c.inst c.cq Reg.CQ_STAT_TAIL next d
      let d := if next = 0 then setQ c.inst c.cq Reg.CQ_STAT_PHASE (1 - phase) d else d
      let d := wrapFld d pgCMD Reg.CMD_STAT_DONE_POSTED 1
      let d := satFld d pgCMD Reg.CMD_STAT_TIMEOUT_TIMEOUT (b2n (r.status = stFW_TIMEOUT))
      if bit c.desc.flags flNO_IRQ then d else coalCount c.inst c.cq d

/-! ## Release and discard (R126, R129, R175, R266, R267) -/

/-- The handle under which a command was admitted to a record. -/
def handleFor (c : Cmd) (n : Nat) : Nat := ((c.keys.find? (fun k => hRec k.handle = n)).map (·.handle)).getD 0

/-- A released command's uses are counted and it leaves its records (R126, R129). -/
def countUses (c : Cmd) (d : Dev) : Dev := c.counted.foldl (fun d n => leave n (countUse n (handleFor c n) d)) d

/-- A command is discarded or abandoned: nothing of it is committed (R66, R126, R267, R315). -/
def discardCmd (c : Cmd) (d : Dev) : Dev :=
  let d := ticketFree c.tickets (c.counted.foldl (fun d n => leave n d) d)
  dropReads c.tag (freeUnits c.tag (dropCmd c.tag d))

/-- The tickets of a command are redeemed at its release, whatever its status (R125, R315). -/
def settleTickets (c : Cmd) (d : Dev) : Dev := c.tickets.foldl (fun d id => redeemChallenge id d) d

/-- Whether a release adds no entry to the pending queue beyond its limit (R156). -/
def entriesFit (d d' : Dev) : Bool := d'.key.queue.length ≤ d.key.queue.length || vaultRoom d' 0

/-- The modes in which the fence releases commands: not HOLDUP (R459), not once halted (R267). -/
def modeReleases (m : Mode) : Bool :=
  m = .startup || m = .service || m = .drowse || m = .ceremony || m = .diagnostic || m = .factoryTest

/-- Whether the fence may release a tagged result now (R266). -/
def fenceOpen (d : Dev) (epoch : Option Nat) : Bool :=
  modeReleases d.sys.mode && !d.mpe.halting
    && (match epoch with
        | some e => epochPassed d e
        | none => true)

/-- A result whose changes could not be made: nothing of it but the status stands. -/
def refusedResult (e : Denial) : Result := failed e.1 e.2

/-- The changes, counters and tickets of a command at its release; none while it must wait. -/
def commitCmd (c : Cmd) (r : Result) (d : Dev) : Option (Result × Dev) :=
  let out : Option (Result × Dev) := match applyAll c.desc.opcode r.effects d with
    | .wait => none
    | .fail e => some (refusedResult e, countUses c (settleTickets c d))
    | .done d' hs => some ({ patchHandles (r.effects.zip hs) r with effects := [] }, countUses c (settleTickets c d'))
  out.filter (fun x => entriesFit d x.2)

/-- A released command's host writes, completion and message (R51, R172, R177). -/
def outputCmd (c : Cmd) (r : Result) (d : Dev) : Dev :=
  let d := writeOut c 0 r.stream d
  let d := if r.status = stOK && c.sent ≠ 0 then writeOut c c.sent (r.out.drop c.sent) d else writeOut c 0 r.out d
  let d := match instFn d c.inst with
    | some (l, n) =>
      if r.auxOut.isEmpty || !(ideOpen d l n) then d else emitAll (hostWrites d l n (c.desc.aux + ctxOff c.desc) r.auxOut true) d
    | none => d
  postCqe c r d

/-- Whether an effect is an advance of NONCE_CTR. -/
def isNonce : Effect → Bool
  | .nonce _ _ => true
  | _ => false

/-- Whether a release is the first of a streamed encryption: its output is larger than the fence holds back at once (R172, R175). -/
def firstPart (c : Cmd) (r : Result) : Bool :=
  c.desc.opcode = 0x0204 && r.status = stOK && 65536 < r.out.length && c.sent = 0

/-- The first part of a streamed encryption leaves, and with it NONCE_CTR advances (R175, R266). -/
def releasePart (c : Cmd) (r : Result) (d : Dev) : Dev :=
  match applyAll c.desc.opcode (r.effects.filter isNonce) d with
  | .done d _ =>
    putCmd { c with sent := 65536, result := some { r with effects := r.effects.filter (fun e => !(isNonce e)) } }
      (writeOut c 0 (r.out.take 65536) d)
  | _ => d

/-- EGRESS_RELEASE of a command (R94, R126, R175, R266). -/
def releaseCmd (c : Cmd) (d : Dev) : Dev :=
  match c.result with
  | none => d
  | some r =>
    if c.stage = .held && fenceOpen d c.epoch && (!(bit c.desc.flags flORDERED) || (earlier d c).isEmpty) then
      if firstPart c r then releasePart c r d
      else match commitCmd c r d with
      | none => d
      | some (r, d) =>
        let d := freeUnits c.tag d
        let d := if c.mute then satFld d pgHOST Reg.HOST_DROP_CNT_DROPS 1 else outputCmd c r d
        dropCmd c.tag d
    else d

/-! ## Reservation raises (R127, R149, R174) -/

/-- Whether a frozen owner bars changes to its records (R283). -/
def frozenRec (d : Dev) (n : Nat) : Bool :=
  match keyAt d n with
  | some k => (instOf d (hInst k.handle)).run = .frozen
  | none => true

/-- Reservation raises that wait at the fence for room in the pending queue (R156). -/
def raisesHeld (d : Dev) : List Nat :=
  ((d.key.nonceRaise.filter (fun kv => kv.2.isSome && hClass (((keyAt d kv.1).map (·.handle)).getD (2 ^ 52)) = 0)).map (·.1)
    ++ (d.key.usageRaise.filter (fun kv => kv.2.any (fun x => !x.2))).map (·.1)).filter (fun n => vaultWritable d && !(vaultRoomFor d n))

/-- NONCE_RESV_RAISE: a requested raise passes the fence as its own result (R174). -/
def nonceRaiseGo (n : Nat) (d : Dev) : Dev :=
  match smapGet noneAt d.key.nonceRaise n, keyAt d n with
  | some (v, e), some k =>
    let pers : Bool := hClass k.handle = 0
    if frozenRec d n || !(fenceOpen d e) || (pers && (!(vaultWritable d) || !(vaultRoomFor d n))) then d
    else
      let d := modRec n (fun k => { k with nonceResv := max k.nonceResv v }) d
      let d := modKey (fun s => { s with nonceRaise := smapSet noneAt s.nonceRaise n none }) d
      if pers then vaultQueue n false d else d
  | _, _ => d

/-- USAGE_RESV_RAISE: a requested block passes the fence into the vault queue; admission goes by the old bound until the
batch commits. The block is that of USAGE_LIMIT as it stands now, and none where that has come down to USAGE_RESV (R127, R130). -/
def usageRaiseGo (n : Nat) (d : Dev) : Dev :=
  match smapGet noneAt d.key.usageRaise n, keyAt d n with
  | some (_, false), some k =>
    if frozenRec d n || !(fenceOpen d none) || !(vaultWritable d) || !(vaultRoomFor d n) then d
    else if k.limit ≤ k.resv then modKey (fun s => { s with usageRaise := smapSet noneAt s.usageRaise n none }) d
    else
      let d := modRec n (fun k => { k with resv := k.resv + min 1024 (k.limit - k.resv) }) d
      let d := modKey (fun s => { s with usageRaise := smapSet noneAt s.usageRaise n (some (k.resv, true)) }) d
      vaultQueue n false d
  | _, _ => d

/-! ## Firmware's completions (R100, R101) -/

/-- The status codes that may be posted (R106). -/
def stKnown (st : Nat) : Bool :=
  [0x0000, 0x00FF, 0x0101, 0x0102, 0x0103, 0x0104, 0x0105, 0x0106, 0x0201, 0x0202, 0x0203, 0x0204, 0x0301, 0x0303, 0x0304,
    0x0305, 0x0401, 0x0402, 0x0403, 0x0501, 0x0601, 0x0602, 0x0701, 0x0702, 0x0801, 0x0901, 0x0902].contains st

/-- What firmware's 32-byte entry makes of a command: its results, with the effects and the output of the service given
where the entry reports that service's status (R99, R100, R130). After a failure OUT_LEN, RESULT0 and RESULT1 are zero but for what R91
and R159 say (R90, R91). -/
def firmwareResult (c : Cmd) (b : Bytes) : Result :=
  let st := leAt b 0x1A 2
  if !(stKnown st) then failed stFW_ERROR 0
  else
    let ok : Bool := st = stOK
    let base : Result :=
      ⟨st, leAt b 0x1C 2, if ok || (c.desc.opcode = 0x010F && st = stAUTH_FAIL) then leAt b 0 8 else 0,
        if ok || st = stBUFFER_TOO_SMALL then leAt b 8 8 else 0, [], if ok then leAt b 0x10 4 else 0, [], [], []⟩
    match c.svc with
    | some s => if s.status = st then { base with out := s.out, effects := s.effects } else base
    | none => base

/-- One entry of the routed completion ring (R100). -/
def takeCompletion (b : Bytes) (tag : Option Nat) (d : Dev) : Dev :=
  match (cmdOf d (leAt b 0x14 4)).filter (fun c => c.stage = .routed) with
  | some c => holdCmd { c with epoch := tagMax c.epoch tag } (firmwareResult c b) d
  | none => raiseEv pgCMD 2 (satFld d pgCMD Reg.CMD_STAT_TIMEOUT_LATE 1)

/-- The block reads the routed completion ring up to firmware's tail (R100). Fuel bounds the entries. -/
def rcqConsume : Nat → Dev → Dev
  | 0, d => d
  | f + 1, d =>
    let head := fld d pgCMD Reg.CMD_RCQ_HEAD_HEAD
    if head = fld d pgCMD Reg.CMD_RCQ_TAIL_TAIL then d
    else
      let (_, b, t, d) := memFetch2 whoCmdp true (rcqBase d + head * 32) 32 d
      let size := 2 ^ fld d pgCMD Reg.CMD_RQ_CFG_RCQ_SIZE
      rcqConsume f (setFld (takeCompletion b t d) pgCMD Reg.CMD_RCQ_HEAD_HEAD ((head + 1) % size))

/-- ROUTED_TIMEOUT: firmware has not completed the command within RT_TIMEOUT (R101); the posting counts (R102). -/
def routedTimeoutGo (c : Cmd) (d : Dev) : Dev :=
  let ms := fld d pgCMD Reg.CMD_CFG_RT_TIMEOUT
  if c.stage = .routed && ms ≠ 0 then
    let d := waitUntil (c.routedAt + ms * 1000000) d
    raiseEv pgCMD 1 (failCmd c (stFW_TIMEOUT, 0) d)
  else d

end Sys2Proof.Machine
end

