-- ==== Sys2Proof/Machine/Judge.lean ====
section
/-! DEFINITION. The judgement of a register write: reach through the host views, alignment, world, lock, class and value
rules, field by field (R19, R23-R39, R42, R49, R69, and the value limits of each block's register table). -/

namespace Sys2Proof.Machine

/-! ## Reach (R42, R43, R49, R64, R68, R69, R412, R419) -/

/-- How far an access comes: not at all, to a page that reads only, counting a write, or to the page. -/
inductive Reach where | gone | view | counted | page
deriving DecidableEq, Repr

/-- The access as the page sees it: a host access is non-secure and of class 2 (R42, R368). -/
def seenAs (a : Access) : Access :=
  match a.via with
  | .direct => a
  | .pf l _ => { a with sec := false, cls := 2, idx := l }
  | .vf _ _ => { a with sec := false, cls := 2 }

/-- Whether the boot ROM restricts PF BAR0 as R412 and R419 give: it stays in ROM_BOOT, or serves transitions. -/
def romHeld (d : Dev) : Bool :=
  d.sys.mode = .romBoot && (d.sys.stage = .service || d.sys.stage = .stopped)

/-- The MGR registers that the ROM transition service opens (R419). -/
def svcReg (off : Nat) : Bool :=
  off = Reg.MGR_CMD_OP.off || off = Reg.MGR_PARAM_PARAM.off || off = Reg.MGR_IN_ADDR_LO_ADDR_LO.off
    || off = Reg.MGR_IN_ADDR_HI_ADDR_HI.off || off = Reg.MGR_IN_LEN_LEN.off || off = Reg.MGR_RESULT_CODE.off
    || off = Reg.MGR_RES_VAL_VAL.off

/-- The view that PF BAR0 of a link gives of a page to a request on an IDE stream. -/
def pfReach (d : Dev) (l : Nat) (stream : Option Nat) (p off : Nat) : Reach :=
  match pageKind p with
  | none => .gone
  | some k =>
    if 0x200 ≤ p || !(linkOf d l).up || !(ideArrives d l stream) then .gone
    else if stopped d.sys.mode || romHeld d then
      match k with
      | .sys | .wear | .evr0 | .evr1 => .view
      | .mgr => if d.sys.stage = .service && fld d pgHOST Reg.HOST_CFG_MGR_LINK = l && svcReg off then .page else .gone
      | _ => .gone
    else if d.sys.mode = .romBoot then .gone
    else match pageHostView k with
      | .hidden => .gone
      | .readOnly => .counted
      | .readWrite => if k = .mgr && fld d pgHOST Reg.HOST_CFG_MGR_LINK ≠ l then .gone else .page

/-- Whether a virtual function's BAR0 serves an instance's host, on an IDE stream. -/
def vfOpen (d : Dev) (i : Nat) (stream : Option Nat) : Bool :=
  !(stopped d.sys.mode) && d.sys.mode ≠ .romBoot
    && (match instFn d i with
        | some (l, n) => vfResponds d l n && ideArrives d l stream
        | none => false)

/-- The reach of an access to the register at an offset of a page. -/
def reach (d : Dev) (a : Access) (p off : Nat) : Reach :=
  if !(dieOn d.sys.mode) then .gone
  else match a.via with
    | .direct => if (pageKind p).isSome then .page else .gone
    | .pf l stream => pfReach d l stream p off
    | .vf i stream => if i < 1024 && p = instPage i && vfOpen d i stream then .page else .gone

/-- Whether a host's memory request is completed with Unsupported Request: it arrives on no Secure stream (R64). -/
def hostUr (d : Dev) (v : Via) : Bool :=
  dieOn d.sys.mode && (match v with
    | .direct => false
    | .pf l stream => (linkOf d l).up && !(ideArrives d l stream)
    | .vf i stream => match instFn d i with
      | some (l, _) => (linkOf d l).up && !(ideArrives d l stream)
      | none => false)

/-! ## Running (R33) -/

/-- Class 3 index of the unit that a SYM, HASH or PKE page serves. -/
def pageUnit (p : Nat) : Nat := if p < 0x090 then p - 0x080 else if p < 0x098 then p - 0x090 + 20 else p - 0x098 + 16

/-- A DMA channel at rest. -/
def dmaReset (_ : Nat) : DmaRun := ⟨false, false, false⟩

/-- A DMA channel. -/
def dmaOf (d : Dev) (ch : Nat) : DmaRun := smapGet dmaReset d.dma ch

/-- Whether a job is in flight on a page's block. -/
def jobsHeld (d : Dev) (p : Nat) : Bool :=
  match pageKind p with
  | some .sym | some .hash | some .pke => (unitOf d (pageUnit p)).cur.isSome || (unitOf d (pageUnit p)).job.isSome
  | some .dma => (dmaOf d (p - 0x0A0)).busy
  | some .cmd => !d.cmd.cmds.isEmpty
  | some .lc => d.lc.op.isSome
  | some .ofc => d.ofc.op.isSome
  | some .mgr => d.mgr.busy.isSome
  | some .ent => (wellOf d (p - 0x050)).capturing
  | some .ks0 => d.key.busy
  | _ => false

/-- PG_STAT.BUSY (R25). -/
def pageBusy (d : Dev) (p : Nat) : Bool := jobsHeld d p || (hdrOf d p).softRst

/-- A block runs while ENABLE or BUSY is 1 (R33). -/
def runs (d : Dev) (p : Nat) : Bool := (hdrOf d p).enable || pageBusy d p

/-- If the block has stopped running, its shadows take effect (R35). -/
def settle (p : Nat) (d : Dev) : Dev := if runs d p || (0x011 ≤ p && p ≤ 0x020) then d else jobBoundary p d

/-! ## Values (the register tables) -/

/-- Ring arithmetic: how far v lies ahead of x in a ring of n. -/
def ringAhead (n v x : Nat) : Nat := (v + n - x % n) % n

/-- Whether a value is refused by a field's description on its page. v is the whole word written. -/
def badValue (d : Dev) (p : Nat) (f : Fld) (v : Nat) : Bool :=
  let x := bits v f.hi f.lo
  let is (g : Fld) : Bool := decide (f = g)
  match pageKind p with
  | some .host =>
    (is Reg.HOST_CFG_VF_SPLIT && 1024 < x)
      || ((is Reg.HOST_CFG_MGR_LINK || is Reg.HOST_CFG_OBW_LINK) && x = 1 && !(linkInMode (bits v 1 0) 1))
  | some .cmd =>
    if is Reg.CMD_RQ_CFG_RQ_SIZE || is Reg.CMD_RQ_CFG_RCQ_SIZE then x = 0 || 12 < x
    else if is Reg.CMD_RQ_BASE_LO_BASE_LO then !(secureRange d (x * 4096 + fld d p Reg.CMD_RQ_BASE_HI_BASE_HI * 2 ^ 32) 4096)
    else if is Reg.CMD_RQ_BASE_HI_BASE_HI then !(secureRange d (fld d p Reg.CMD_RQ_BASE_LO_BASE_LO * 4096 + x * 2 ^ 32) 4096)
    else if is Reg.CMD_RCQ_BASE_LO_BASE_LO then !(secureRange d (x * 4096 + fld d p Reg.CMD_RCQ_BASE_HI_BASE_HI * 2 ^ 32) 4096)
    else if is Reg.CMD_RCQ_BASE_HI_BASE_HI then !(secureRange d (fld d p Reg.CMD_RCQ_BASE_LO_BASE_LO * 4096 + x * 2 ^ 32) 4096)
    else if is Reg.CMD_RQ_HEAD_HEAD then
      rqSize d ≤ x || rqUsed d < ringAhead (rqSize d) x (fld d p Reg.CMD_RQ_HEAD_HEAD)
    else if is Reg.CMD_RCQ_TAIL_TAIL then
      let n := 2 ^ fld d p Reg.CMD_RQ_CFG_RCQ_SIZE
      n ≤ x || ringAhead n x (fld d p Reg.CMD_RCQ_HEAD_HEAD)
        < ringAhead n (fld d p Reg.CMD_RCQ_TAIL_TAIL) (fld d p Reg.CMD_RCQ_HEAD_HEAD)
    else false
  | some .ks0 => (is Reg.KS_CFG_USAGE_PERIOD && x = 0) || (is Reg.KS_CMD_OP && 3 < x)
  | some .mpe0 => is Reg.MPE_CFG_CE_LIMIT && x = 0
  | some .ofc =>
    ((is Reg.OFC_CFG_LOCK_LIMIT || is Reg.OFC_CFG_LOCK_MIN) && x = 0) || (is Reg.OFC_CMD_OP && 9 < x)
  | some .ent =>
    ((is Reg.ENT_CFG_FAIL_LIMIT || is Reg.ENT_CFG_RETEST_MS) && x = 0) || (is Reg.ENT_CAP_LEN_LEN && (x = 0 || 0x1000000 < x))
  | some .sys => is Reg.SYS_WDT_CFG_TIMEOUT && x = 0
  | some .evr0 => (is Reg.EVR_FW_RATE_BURST && x = 0) || (is Reg.EVR_WR_LEN_LEN && 1008 < x)
  | some .lc => is Reg.LC_CMD_OP && 2 < x
  | some .irqc => is Reg.IRQC_BAND_WIDTH && (x = 0 || 128 < x)
  | some .irqs1 => is Reg.IRQC_SWI_SET_ID && (x < 448 || 511 < x)
  | some .dma =>
    (is Reg.DMA_CFG_RESHAPE && 5 ≤ x) || (is Reg.DMA_CFG_ESIZE && x = 7) || (is Reg.DMA_RESHAPE_STREAMS && (x < 2 || 16 < x))
  | some .tamp0 | some .tamp1 | some .tamp2 | some .tamp3 => is Reg.TAMP_RESP_RESP && 5 < x
  | some .pwr => is Reg.PWR_QREQ_REQ && (List.range 4).any (fun q => bits x (2 * q + 1) (2 * q) = 3)
  | some .wear => is Reg.WEAR_CFG_ALARM && (x = 0 || 10000 < x)
  | _ => false

/-- A field that the world of the write may not change on a page it may otherwise write. -/
def fieldDenied (a : Access) (f : Fld) (v : Nat) : Bool :=
  !a.sec && ((f = Reg.DMA_CFG_WORLD && bits v f.hi f.lo = 1) || f = Reg.EVR_CFG_HOST_MASK || f = Reg.EVR_CFG_NS_MASK
    || f = Reg.EVR_FW_RATE_BURST || f = Reg.EVR_FW_RATE_RATE || f = Reg.GPIO_WORLD_WORLD)

/-! ## The judgement (R39) -/

/-- A write's outcome at the page: the state, and the bits of the word that some field took, at once or into its shadow. -/
structure Judged where
  d : Dev
  got : Nat
deriving DecidableEq, Repr

/-- Page under which a per-core interrupt register of a world is kept: the non-secure bank lies 0x1000 pages up (R366). -/
def bankPage (a : Access) (p : Nat) : Nat := if 0x011 ≤ p && p ≤ 0x020 && !a.sec then p + 0x1000 else p

/-- What the page says of one field: 0, or the code of the refusal. -/
def fieldCode (a : Access) (p v : Nat) (d : Dev) (f : Fld) : Nat :=
  let h := hdrOf d p
  if fieldDenied a f v then errWORLD
  else if f.acc = .rwl && h.lock then errLOCKED
  else if h.softRst || (f.cls = .S && runs d p) then errCFG
  else if badValue d p f v then errVALUE
  else 0

/-- Records the first applicable code of a set (R39). -/
def recordFirst (codes : List Nat) (a : Access) (p off : Nat) (d : Dev) : Dev :=
  if codes.contains errWORLD then denyWorld p a off d
  else if codes.contains errLOCKED then countViol p (regErr p errLOCKED a off d)
  else if codes.contains errCFG then regErr p errCFG a off d
  else if codes.contains errVALUE then regErr p errVALUE a off d
  else d

/-- Puts the accepted value of one field in place: its shadow, its register, or a set or clear of bits (R34-R37). -/
def putField (page off v : Nat) (run : Bool) (f : Fld) (d : Dev) : Dev :=
  let old := regGet d page off
  let x := bits v f.hi f.lo
  match f.acc with
  | .ro => d
  | .wo => d
  | .rw1c => regPut d page off (setBits old f.hi f.lo (bits old f.hi f.lo - Nat.land (bits old f.hi f.lo) x))
  | .rw1s => regPut d page off (setBits old f.hi f.lo (Nat.lor (bits old f.hi f.lo) x))
  | .rw | .rwl =>
    if f.cls = .J && run then
      let key := regKey page off
      let s := smapGet shadowReset d.shadow key
      let m := setBits 0 f.hi f.lo (2 ^ 32 - 1)
      { d with shadow := smapSet shadowReset d.shadow key ⟨Nat.lor s.mask m, setBits s.val f.hi f.lo x⟩ }
    else regPut d page off (setBits old f.hi f.lo x)

/-- Whether a core holds an active source in a bank (R357). -/
def bankActive (d : Dev) (core : Nat) (sec : Bool) : Bool :=
  d.irq.active.any (fun kv => match kv.2 with
    | some o => o.hart = core && o.bank = sec
    | none => false)

/-- Whether J-class fields of a page wait for its job boundary: while the block runs (R35), and for a bank while it holds an active
source (R366). -/
def shadows (d : Dev) (a : Access) (p : Nat) : Bool :=
  if 0x011 ≤ p && p ≤ 0x020 then bankActive d (p - 0x011) a.sec else runs d p

/-- Judges a write to a block register field by field. -/
def judgeFields (k : PageKind) (a : Access) (p off v : Nat) (d : Dev) : Judged :=
  let fs := (fieldsAt k off).filter (fun f => f.acc ≠ .ro)
  let ok := fs.filter (fun f => fieldCode a p v d f = 0)
  let run := shadows d a p
  let d' := ok.foldl (fun s f => putField (bankPage a p) off v run f s) d
  ⟨recordFirst (fs.map (fieldCode a p v d)) a p off d', (ok.map (fun f => setBits 0 f.hi f.lo (2 ^ 32 - 1))).foldl Nat.lor 0⟩

/-- Whether the page's world setting refuses a write (R30). -/
def worldRefuses (d : Dev) (a : Access) (k : PageKind) (p : Nat) : Bool :=
  !a.sec && (pageSecureOnly k || (hdrOf d p).secure)

/-- A write of PG_STAT: 1 to CFG_ERR clears the page error record (R27). -/
def writeStat (p v : Nat) (d : Dev) : Dev :=
  if bit v 2 then
    modHdr d p (fun h => { h with
      cfgErr := false, errCode := 0, errMore := 0, errWorld := false, errMaster := 0, errOff := 0, errAddr := 0 })
  else d

/-- A write of PG_WORLD by the secure world (R29, R37). -/
def writeWorld (k : PageKind) (a : Access) (p v : Nat) (d : Dev) : Dev :=
  if pageSecureOnly k then d
  else if (hdrOf d p).lock then countViol p (regErr p errLOCKED a 0x030 d)
  else if (hdrOf d p).softRst then regErr p errCFG a 0x030 d
  else modHdr d p (fun h => { h with nsRead := bit v 1, secure := bit v 0 })

/-- Judges a write to a register of the page that has no further effect: the common header but for PG_CTRL and PG_PWR, or a
block register. The bits taken are answered for the block register only. -/
def judgePlain (k : PageKind) (a : Access) (p off v : Nat) (d : Dev) : Judged :=
  if off = 0x010 then ⟨writeStat p v d, 0⟩
  else if off = 0x018 then
    ⟨if (pageCap k).irq then modHdr d p (fun h => { h with irqEn := v }) else d, 0⟩
  else if off = 0x01C then
    ⟨if (pageCap k).irq then modHdr d p (fun h => { h with irqStat := h.irqStat - Nat.land h.irqStat v }) else d, 0⟩
  else if off = 0x030 then ⟨writeWorld k a p v d, 0⟩
  else if off < 0x040 then ⟨d, 0⟩
  else judgeFields k a p off v d

/-- Every check of an aligned 32-bit write that comes before its fields: reach, an UNUSED instance's page (R276) and world.
none where the write ends there, with the state it leaves. -/
def admitWrite (a : Access) (p off : Nat) (d : Dev) : Option PageKind × Dev :=
  match reach d a p off, pageKind p with
  | .page, some k =>
    if k = .inst && (instOf d (p - 0x400)).run = .unused then (none, d)
    else if off = 0x030 && !a.sec then (none, denyWorld p a off d)
    else if worldRefuses d a k p then (none, denyWorld p a off d)
    else (some k, d)
  | .counted, _ => (none, countViol p d)
  | _, _ => (none, d)

/-- Judges a 32-bit write to a block register on behalf of a row that names it. -/
def judge (a : Access) (p off v : Nat) (d : Dev) : Judged :=
  match admitWrite (seenAs a) p off d with
  | (some k, d) => judgePlain k (seenAs a) p off (v % 2 ^ 32) d
  | (none, d) => ⟨d, 0⟩

/-- Whether every bit of a field was taken. -/
def Judged.took (j : Judged) (f : Fld) : Bool := bits j.got f.hi f.lo = 2 ^ (f.hi + 1 - f.lo) - 1

end Sys2Proof.Machine
end

