-- ==== Sys2Proof/Machine/Insts.lean ====
section
/-! DEFINITION. Instances: state changes and their events, the INST page's queue, version and mailbox registers, the doorbell
page, and the reset of a function (R66, R79-R81, R103, R276-R289, R301, R302). -/

namespace Sys2Proof.Machine

/-! ## State changes and manager events -/

/-- Changes an instance. -/
def modInst (i : Nat) (f : Inst → Inst) (d : Dev) : Dev :=
  { d with mgr := { d.mgr with insts := smapSet instReset d.mgr.insts i (f (instOf d i)) } }

/-- Changes the manager's side. -/
def modMgr (f : MgrSt → MgrSt) (d : Dev) : Dev := { d with mgr := f d.mgr }

/-- Code of an instance state (R276). -/
def instCode : InstRun → Nat
  | .unused => 0 | .assigned => 1 | .active => 2 | .quiescing => 3 | .quiesced => 4 | .frozen => 5 | .resetting => 6

/-- An entry is added to the manager's event queue, or lost while 256 wait (R301). -/
def mgrEvent (kind i : Nat) (d : Dev) : Dev :=
  if 256 ≤ d.mgr.events.length then modMgr (fun m => { m with lost := true }) d
  else raiseEv pgMGR 0 (modMgr (fun m => { m with events := m.events ++ [⟨kind, i, instCode (instOf d i).run⟩] }) d)

/-- An instance changes its state: STATE_CHG for the manager, and for the tenant unless it becomes UNUSED (R277). -/
def instTo (i : Nat) (st : InstRun) (d : Dev) : Dev :=
  if (instOf d i).run = st then d
  else
    let d := mgrEvent 1 i (modInst i (fun x => { x with run := st }) d)
    if st = .unused then d else raiseEv (instPage i) 0 d

/-- The commands of an instance between fetch and release, those being read included (R280). -/
def instBusy (d : Dev) (i : Nat) : Bool :=
  d.cmd.cmds.any (fun c => c.inst = i)
    || d.cmd.reads.any (fun r => match r.what with
        | .fetch j _ _ _ _ => j = i && !r.dropped
        | _ => false)

/-- A QUIESCING instance without a command in flight is QUIESCED (R277, R280). -/
def quiesceStep (i : Nat) (d : Dev) : Dev :=
  if (instOf d i).run = .quiescing && !(instBusy d i) then instTo i .quiesced d else d

/-! ## Version (R103) -/

/-- INST_PYP_CAP. -/
def pypCap (d : Dev) : Nat := if fldB d pgCMD Reg.CMD_CFG_PYP1_EN then 0x707 else 0x700

/-- The highest version common to a capability and an offer. -/
def pypCommon (cap offer : Nat) : Nat × Nat :=
  match [10, 9, 8, 2, 1, 0].find? (fun b => bit cap b && bit offer b) with
  | some b => if 8 ≤ b then (2, b - 8) else (1, b)
  | none => (0, 0)

/-- INST_PYP_VER follows the offer until it is in force. -/
def negotiate (i : Nat) (d : Dev) : Dev :=
  if (instOf d i).verFixed then d
  else
    let p := instPage i
    let v := pypCommon (pypCap d) (regGet d p Reg.INST_PYP_OFFER_V2.off)
    setFld (setFld d p Reg.INST_PYP_VER_MAJOR v.1) p Reg.INST_PYP_VER_MINOR v.2

/-- Every version that is not in force follows a change of INST_PYP_CAP (R102, R103). -/
def pypSync (was d : Dev) : Dev := if pypCap was = pypCap d then d else (List.range 1024).foldl (fun d i => negotiate i d) d

/-- PG_CTRL.ENABLE of an INST page is set: the version takes force, and an ASSIGNED instance with one becomes ACTIVE
(R103, R277). -/
def instStart (i : Nat) (d : Dev) : Dev :=
  let d := modInst i (fun x => { x with verFixed := true }) (negotiate i d)
  if (instOf d i).run = .assigned && (verOf d i).1 ≠ 0 then instTo i .active d else d

/-! ## Queue registers (R79) -/

/-- Registers of a page from an offset to another return to their reset values. -/
def clearRegs (p lo hi : Nat) (d : Dev) : Dev :=
  { d with
    regs := smapKeep (fun k => !(k / 1024 = p && lo ≤ k % 1024 * 4 && k % 1024 * 4 ≤ hi)) d.regs
    shadow := smapKeep (fun k => !(k / 1024 = p && lo ≤ k % 1024 * 4 && k % 1024 * 4 ≤ hi)) d.shadow }

/-- An enabled SQ begins anew; the entries still being read are of the ring as it was. -/
def sqFresh (i q : Nat) (d : Dev) : Dev :=
  let d := modCmdSt (fun s => { s with
    reads := s.reads.map (fun r => match r.what with
      | .fetch j k cq n _ => if j = i && k = q then { r with what := .fetch j k cq n false } else r
      | _ => r) }) d
  setTail i q 0 (setQ i q Reg.SQ_STAT_HEAD 0 (setQ i q Reg.SQ_STAT_ERROR 0 (setQ i q Reg.SQ_STAT_ERR 0 d)))

/-- An enabled CQ begins anew. -/
def cqFresh (i q : Nat) (d : Dev) : Dev :=
  let d := setQ i q Reg.CQ_STAT_TAIL 0 (setQ i q Reg.CQ_STAT_ERROR 0 (setQ i q Reg.CQ_STAT_ERR 0 (setQ i q Reg.CQ_STAT_PHASE 1 d)))
  modCmdSt (fun s => { s with
    heads := smapSet zeroAt s.heads (qKey i q) 0, coal := smapSet zeroAt s.coal (qKey i q) 0
    coalAt := smapSet noneAt s.coalAt (qKey i q) none }) d

/-- Codes of the INST page. -/
def errQUEUE_ENABLED := 0x0100
def errCQ_IN_USE := 0x0101
def errQUEUE_CFG := 0x0102
def errMB_FULL := 0x0103

/-- What R79 says of the fields of SQ_CFG: refusals of WEIGHT or SIZE, of CQ or SIZE while enabled; a SIZE outside 1-16 in a write that sets
EN has the code of the enabling instead. -/
def sqCfgCodes (d : Dev) (i q v : Nat) : List Nat :=
  let on := qFld d i q Reg.SQ_CFG_EN = 1
  let moved : Bool := on && (bits v 19 16 ≠ qFld d i q Reg.SQ_CFG_CQ || bits v 4 0 ≠ qFld d i q Reg.SQ_CFG_SIZE)
  (if bits v 15 8 = 0 || (16 < bits v 4 0 && !on && !(bit v 31)) then [errVALUE] else []) ++ (if moved then [errQUEUE_ENABLED] else [])

/-- A write of SQ_CFG (R79, R279). -/
def writeSqCfg (a : Access) (i q v : Nat) (d : Dev) : Dev :=
  let off := 0x208 + 0x10 * q
  let codes := sqCfgCodes d i q v
  let on := qFld d i q Reg.SQ_CFG_EN = 1
  let d := match codes with
    | c :: _ => regErr (instPage i) c a off d
    | [] => d
  let d := if bits v 15 8 = 0 then d else setQ i q Reg.SQ_CFG_WEIGHT (bits v 15 8) d
  if on then setQ i q Reg.SQ_CFG_EN (bits v 31 31) d
  else
    let d := setQ i q Reg.SQ_CFG_CQ (bits v 19 16) d
    let d := if 16 < bits v 4 0 then d else setQ i q Reg.SQ_CFG_SIZE (bits v 4 0) d
    if !(bit v 31) then d
    else if 1 ≤ bits v 4 0 && bits v 4 0 ≤ 16 && qFld d i (qFld d i q Reg.SQ_CFG_CQ) Reg.CQ_CFG_EN = 1 && q < (instOf d i).sqLimit then
      sqFresh i q (setQ i q Reg.SQ_CFG_EN 1 d)
    else regErr (instPage i) errQUEUE_CFG a off d

/-- Whether a CQ may not be disabled (R79). -/
def cqUsed (d : Dev) (i q : Nat) : Bool :=
  (List.range 16).any (fun s => qFld d i s Reg.SQ_CFG_EN = 1 && qFld d i s Reg.SQ_CFG_CQ = q) || boundTo d i q ≠ 0

/-- A write of CQ_CFG (R79). -/
def writeCqCfg (a : Access) (i q v : Nat) (d : Dev) : Dev :=
  let off := 0x308 + 0x10 * q
  let on := qFld d i q Reg.CQ_CFG_EN = 1
  if on && !(bit v 31) && cqUsed d i q then regErr (instPage i) errCQ_IN_USE a off d
  else
    let d :=
      if on && bits v 4 0 ≠ qFld d i q Reg.CQ_CFG_SIZE then regErr (instPage i) errQUEUE_ENABLED a off d
      else if !on && 16 < bits v 4 0 && !(bit v 31) then regErr (instPage i) errVALUE a off d else d
    let d := setQ i q Reg.CQ_CFG_IRQ_EN (bits v 30 30) (setQ i q Reg.CQ_CFG_COAL_COUNT (bits v 23 16) (setQ i q Reg.CQ_CFG_COAL_TIME (bits v 15 8) d))
    if on then (if bit v 31 then coalCheck i q d else setQ i q Reg.CQ_CFG_EN 0 d)
    else
      let d := if 16 < bits v 4 0 then d else setQ i q Reg.CQ_CFG_SIZE (bits v 4 0) d
      if !(bit v 31) then d
      else if 1 ≤ bits v 4 0 && bits v 4 0 ≤ 16 then cqFresh i q (setQ i q Reg.CQ_CFG_EN 1 d)
      else regErr (instPage i) errQUEUE_CFG a off d

/-- A write of a queue's base address (R79). -/
def writeBase (a : Access) (i q off : Nat) (lo hi en : Fld) (v : Nat) (d : Dev) : Dev :=
  if qFld d i q en = 1 then regErr (instPage i) errQUEUE_ENABLED a off d
  else if off % 0x10 = 0 then setQ i q lo (bits v 31 12) d else setQ i q hi v d

/-- A write to a queue register at an offset. -/
def writeQueue (a : Access) (i off v : Nat) (d : Dev) : Dev :=
  let q := off % 0x100 / 0x10
  if (hdrOf d (instPage i)).softRst then regErr (instPage i) errCFG a off d
  else if off < 0x300 then
    (if off % 0x10 = 8 then writeSqCfg a i q v d
     else if off % 0x10 < 8 then writeBase a i q off Reg.SQ_BASE_LO_BASE_LO Reg.SQ_BASE_HI_BASE_HI Reg.SQ_CFG_EN v d else d)
  else
    (if off % 0x10 = 8 then writeCqCfg a i q v d
     else if off % 0x10 < 8 then writeBase a i q off Reg.CQ_BASE_LO_BASE_LO Reg.CQ_BASE_HI_BASE_HI Reg.CQ_CFG_EN v d else d)

/-! ## Mailboxes (R288) -/

/-- A write of the tenant to the outbound mailbox's words, or a SEND, while it is full is refused; SEND fills it, and IN_FULL
empties the inbound one. -/
def writeInstMb (a : Access) (i off v : Nat) (d : Dev) : Dev :=
  let p := instPage i
  if (hdrOf d p).softRst then regErr p errCFG a off d
  else if off = Reg.INST_MB_CTL_SEND.off then
    let d := if bit v 31 then
        if (instOf d i).outFull then regErr p errMB_FULL a off d
        else mgrEvent 2 i (modInst i (fun x => { x with outFull := true }) d)
      else d
    if bit v 17 && (instOf d i).inFull then mgrEvent 3 i (modInst i (fun x => { x with inFull := false }) d) else d
  else if (instOf d i).outFull then regErr p errMB_FULL a off d
  else regPut d p off v

/-! ## The INST page -/

/-- A write to a block register of an INST page. -/
def writeInstReg (a : Access) (i off v : Nat) (d : Dev) : Dev :=
  if off = Reg.INST_MB_CTL_SEND.off || (0x0C0 ≤ off && off ≤ 0x0FC) then writeInstMb a i off v d
  else if 0x200 ≤ off && off < 0x400 then writeQueue a i off v d
  else
    let j := judgePlain .inst a (instPage i) off v d
    if off = Reg.INST_PYP_OFFER_V2.off then negotiate i j.d else j.d

/-- A write to a block register of an INST page by a master. -/
def instWrite (a : Access) (i off v : Nat) (d : Dev) : Dev :=
  if i < 1024 then
    match admitWrite (seenAs a) (instPage i) off d with
    | (some _, d) => writeInstReg (seenAs a) i off (v % 2 ^ 32) d
    | (none, d) => d
  else d

/-! ## Doorbells (R80, R81) -/

/-- The doorbell page takes a write: the function answers, and the instance is neither UNUSED, RESETTING nor an exported
FROZEN one (R276). -/
def bellOpen (d : Dev) (i : Nat) (stream : Option Nat) : Bool :=
  i < 1024 && vfOpen d i stream
    && (match (instOf d i).run with
        | .unused | .resetting => false
        | .frozen => !(instOf d i).exported
        | _ => true)

/-- A write of an SQ tail doorbell (R81). -/
def tailBell (i q v : Nat) (stream : Option Nat) (d : Dev) : Dev :=
  let v := v % 65536
  if !(bellOpen d i stream) || 16 ≤ q || qFld d i q Reg.SQ_CFG_EN = 0 || qFld d i q Reg.SQ_STAT_ERROR = 1 then d
  else
    let n := sqSize d i q
    let head := qFld d i q Reg.SQ_STAT_HEAD
    if n ≤ v || ringAhead n v head < ringAhead n (tailOf d i q) head then sqError i q 1 d else setTail i q v d

/-- A write of a CQ head doorbell (R81). -/
def headBell (i q v : Nat) (stream : Option Nat) (d : Dev) : Dev :=
  let v := v % 65536
  if !(bellOpen d i stream) || 16 ≤ q || qFld d i q Reg.CQ_CFG_EN = 0 || qFld d i q Reg.CQ_STAT_ERROR = 1 then d
  else
    let n := cqSize d i q
    let old := headOf d i q
    if n ≤ v || ringAhead n (qFld d i q Reg.CQ_STAT_TAIL) old < ringAhead n v old then cqError i q 1 d else setHead i q v d

/-- Number under which the model names the doorbell page of an instance, which has no internal page number (R43): page 0x1 of the
function's BAR0 stands 0x400 above its page 0x0. -/
def bellPage (i : Nat) : Nat := 0x800 + i

/-- A write to the doorbell page: an aligned 32-bit one to a doorbell takes effect, no other does (R80). -/
def bellWrite (i off size v : Nat) (stream : Option Nat) (d : Dev) : Dev :=
  if size ≠ 4 || off % 4 ≠ 0 || 0x080 ≤ off then d
  else if off % 8 = 0 then tailBell i (off / 8) v stream d else headBell i (off / 8) v stream d

/-- The word at an offset of the doorbell page: the value last accepted; the reserved offsets read zero (R80). -/
def bellWord (d : Dev) (i off : Nat) : Nat :=
  if 0x080 ≤ off then 0 else if off % 8 < 4 then tailOf d i (off / 8) else headOf d i (off / 8)

/-- A read of n bytes of the doorbell page (R43, R80). -/
def bellRead (d : Dev) (i off n : Nat) (stream : Option Nat) : Bytes :=
  (List.range n).map (fun k =>
    if bellOpen d i stream then BitVec.ofNat 8 (bellWord d i (off + k) / 2 ^ (8 * ((off + k) % 4))) else 0)

/-! ## Resets of a function and of an INST page (R66, R287) -/

/-- The doorbell page of an instance returns to zero. -/
def bellsClear (i : Nat) (d : Dev) : Dev :=
  modCmdSt (fun s => { s with
    tails := smapKeep (fun k => k / 16 ≠ i) s.tails, heads := smapKeep (fun k => k / 16 ≠ i) s.heads
    coal := smapKeep (fun k => k / 16 ≠ i) s.coal, coalAt := smapKeep (fun k => k / 16 ≠ i) s.coalAt
    turns := smapKeep (fun k => k / 16 ≠ i) s.turns, weights := smapKeep (fun k => k / 16 ≠ i) s.weights }) d

/-- Whether a command waits for host data, or has yet to ask for it (R66 step 3). -/
def waitsHost (d : Dev) (c : Cmd) : Bool :=
  c.stage = .reading || (c.stage = .fetched && (match parsed d c with
    | .ok x => !(readsFor x).isEmpty
    | .error _ => false))

/-- Steps 1 to 5 of R66 on an instance's commands and queues. -/
def instCut (i : Nat) (d : Dev) : Dev :=
  let d := dropFetches (fetchesOf i) d
  let d := (d.cmd.cmds.filter (fun c => c.inst = i && waitsHost d c)).foldl (fun d c => discardCmd c d) d
  let d := modCmdSt (fun s => { s with cmds := s.cmds.map (fun c => if c.inst = i then { c with mute := true } else c) }) d
  bellsClear i (clearRegs (instPage i) 0x200 0x3FF d)

/-- The events of R65 other than cold reset, for one function: R66 for the instances it serves. -/
def funcReset (l n : Nat) (d : Dev) : Dev :=
  let d := modFn d l n (fun f => { f with msix := [] })
  if n = 0 then d
  else
    let i := fnInst d l n
    if i < 1024 && instFn d i = some (l, n) then mgrEvent 4 i (instCut i d) else d

/-- R287: the INST page but for PG_VIOL_CNT, the doorbell page and the mailboxes are as after reset; no entry of its rings is waited for
(R276). -/
def instPageReset (i : Nat) (d : Dev) : Dev :=
  let p := instPage i
  let d := dropFetches (fetchesOf i) (bellsClear i (clearRegs p 0 0xFFF d))
  let d := modHdr d p (fun h => { hdrReset p with viol := h.viol })
  modInst i (fun x => { x with inFull := false, outFull := false, verFixed := false }) d

end Sys2Proof.Machine
end

