-- ==== Sys2Proof/Machine/Manager.lean ====
section
/-! DEFINITION. The manager's page: its commands on instances, its mailboxes and its events (R276-R289, R299-R301). -/

namespace Sys2Proof.Machine

/-! ## The page -/

def errMGR_BUSY := 0x0100
def errMGR_FULL := 0x0101
def errNOT_ASSIGNED := 0x0102

/-- Manager result codes (R300). -/
def mgDONE := 0x00
def mgBAD_STATE := 0x01
def mgBAD_ARG := 0x02
def mgHOST := 0x03
def mgMODE := 0x04
def mgVAULT := 0x05
def mgFULL := 0x06
def mgENTROPY := 0x07
def mgNO_SESSION := 0x08
def mgATTEST := 0x09
def mgOWNER := 0x0A
def mgAUTH := 0x0B
def mgFORMAT := 0x0C
def mgTICKET := 0x0D

/-- A command ends: result, value, and the CMD_DONE event (R299-R301). -/
def mgrEnd (code info val : Nat) (d : Dev) : Dev :=
  let d := setFld (setFld d pgMGR Reg.MGR_RESULT_CODE code) pgMGR Reg.MGR_RESULT_INFO info
  let d := modMgr (fun m => { m with busy := none }) (setFld d pgMGR Reg.MGR_RES_VAL_VAL val)
  mgrEvent 5 (fld d pgMGR Reg.MGR_CMD_INSTANCE) d

/-- The instance whose mailboxes the page shows. -/
def mgrSel (d : Dev) : Nat := fld d pgMGR Reg.MGR_SEL_INSTANCE

/-- A write to the mailbox registers (R288): words and SEND to the inbound mailbox, IN_FULL to empty the outbound one. -/
def mgrMb (a : Access) (off v : Nat) (d : Dev) : Dev :=
  let i := mgrSel d
  let st := (instOf d i).run
  if st = .unused || st = .resetting then regErr pgMGR errNOT_ASSIGNED a off d
  else if off = Reg.MGR_MB_CTL_SEND.off then
    let d := if bit v 31 then
        if (instOf d i).inFull then regErr pgMGR errMGR_FULL a off d
        else raiseEv (instPage i) 1 (modInst i (fun x => { x with inFull := true }) d)
      else d
    if bit v 17 && (instOf d i).outFull then raiseEv (instPage i) 2 (modInst i (fun x => { x with outFull := false }) d) else d
  else if (instOf d i).inFull then regErr pgMGR errMGR_FULL a off d
  else regPut d (instPage i) off v

/-! ## Conditions on a command (R299) -/

/-- Records of T2 that belong to an instance and are not restored yet are read in (R148). -/
def restoreAll (d : Dev) : Dev :=
  if restoring d then d.key.homes.foldl (fun d kv => demandLoad (homeDamage d kv.1) kv.1 d) d else d

/-- The keys of an instance, by record number. -/
def instKeys (d : Dev) (i : Nat) : List (Nat × KeyRec) := (keysOf d).filter (fun nk => hInst nk.2.handle = i)

/-- Operations of R299's table. -/
def mgrOpKnown (op : Nat) : Bool := (1 ≤ op && op ≤ 9) || (0x10 ≤ op && op ≤ 0x15)

/-- Mode and life-cycle state admit the operation (R292, R299). -/
def mgrModeOk (d : Dev) (op : Nat) : Bool :=
  (d.sys.mode = .service || d.sys.mode = .ceremony) && (op < 0x10 || d.sys.lc = .deployed)

/-- Whether a field or the parameter is used wrongly (R299 step 3). v is the word written to MGR_CMD. -/
def mgrArgBad (op v param : Nat) : Bool :=
  let fmt := bits v 11 8
  let gap := bits v 15 12
  (op ≠ 0x13 && (fmt ≠ 0 || gap ≠ 0))
    || ((op = 0x10 || op = 0x11 || op = 0x12 || op = 0x15) && bits v 25 16 ≠ 0)
    || ((op = 1 || op = 2) && (bit param 27 || bits param 26 0 = 0 || 0x4000000 < bits param 26 0))
    || (((3 ≤ op && op ≤ 9) || op = 0x10 || op = 0x11) && param ≠ 0)
    || (op = 0x13 && (fmt = 0 || 3 < fmt || (gap ≠ 0 && fmt < 3)))

/-- The instance states that R277 lists for an operation. -/
def mgrStateOk (x : Inst) (op : Nat) : Bool :=
  match op with
  | 0x01 | 0x14 => x.run = .unused
  | 0x02 => x.run ≠ .unused && x.run ≠ .resetting
  | 0x03 => x.run = .assigned || x.run = .active
  | 0x04 => x.run = .quiescing || x.run = .quiesced
  | 0x05 | 0x07 | 0x08 => x.run = .quiesced
  | 0x06 | 0x13 => x.run = .frozen && !x.exported
  | 0x09 => x.run = .frozen && x.exported
  | _ => true

/-! ## Commands on instances -/

/-- Quotas from MGR_PARAM (R279, R299). -/
def setQuotas (i param : Nat) (d : Dev) : Dev :=
  modInst i (fun x => { x with records := bits param 26 0, sqLimit := bits param 31 28 + 1 }) d

/-- ASSIGN (R277, R287, R307). -/
def mgrAssign (i param : Nat) (d : Dev) : Dev :=
  let d := modInst i (fun x => { x with exported := false, wasAssigned := false, freezing := false, custody := 0xFF }) (setQuotas i param d)
  instTo i .assigned (instPageReset i d)

/-- QUIESCE (R277, R280). -/
def mgrQuiesce (i : Nat) (d : Dev) : Dev :=
  if (instOf d i).run = .assigned then instTo i .quiesced (modInst i (fun x => { x with wasAssigned := true }) d)
  else instTo i .quiescing (modInst i (fun x => { x with wasAssigned := false }) d)

/-- RESUME (R277). -/
def mgrResume (i : Nat) (d : Dev) : Dev := instTo i (if (instOf d i).wasAssigned then .assigned else .active) d

/-- FREEZE is accepted: the command goes on until every key is idle (R282). -/
def mgrFreeze (i : Nat) (d : Dev) : Dev :=
  modMgr (fun m => { m with busy := some (5, i) }) (modInst i (fun x => { x with freezing := true }) d)

/-- Ends the grants that name an instance as grantee (R286); those on the keys of a FROZEN instance, whose records do not change, end at its
THAW (R283). -/
def endGrantsTo (i : Nat) (d : Dev) : Dev :=
  ((keysOf d).filter (fun nk => nk.2.grants.any (fun g => g.inst = i))).foldl (fun d nk =>
    let o := hInst nk.2.handle
    if o ≠ i && (instOf d o).run = .frozen then modInst o (fun x => { x with endDue := if x.endDue.contains i then x.endDue else x.endDue ++ [i] }) d
    else changeRec nk.1 (fun k => { k with grants := k.grants.filter (fun g => g.inst ≠ i) }) d) d

/-- THAW (R277): grants that ended while the instance was FROZEN go, and repairs of its copies that waited are queued (R151, R283). -/
def mgrThaw (i : Nat) (d : Dev) : Dev :=
  let due := (instOf d i).endDue
  let d := modInst i (fun x => { x with endDue := [] }) (instTo i .quiesced d)
  let d := (instKeys d i).foldl (fun d nk =>
    if nk.2.grants.any (fun g => due.contains g.inst) then
      changeRec nk.1 (fun k => { k with grants := k.grants.filter (fun g => !(due.contains g.inst)) }) d
    else d) d
  if vaultWritable d then repairsQueue d else d

/-- Destroys keys of an instance (R286): all of them, or those that are not persistent. -/
def destroyKeys (i : Nat) (all : Bool) (d : Dev) : Nat × Dev :=
  let ks := (instKeys d i).filter (fun nk => all || hClass nk.2.handle ≠ 0)
  (ks.length, ks.foldl (fun d nk => destroyKey nk.1 d) d)

/-- REMOVE and DISCARD need the vault for persistent keys (R286). -/
def removeBarred (d : Dev) (i : Nat) : Bool := !(vaultWritable d) && (instKeys d i).any (fun nk => hClass nk.2.handle = 0)

/-- RESET (R286, R287, R307). -/
def mgrReset' (i : Nat) (d : Dev) : Nat × Dev :=
  let (n, d) := destroyKeys i false (endGrantsTo i (instTo i .resetting (modInst i (fun x => { x with keeps := true }) d)))
  (n, instTo i .assigned (modInst i (fun x => { x with custody := 0xFF, wasAssigned := false, keeps := false }) (instPageReset i d)))

/-- REMOVE (R286, R287, R307). -/
def mgrRemove (i : Nat) (d : Dev) : Nat × Dev :=
  let (n, d) := destroyKeys i true (endGrantsTo i (instTo i .resetting (modInst i (fun x => { x with keeps := false }) d)))
  let d := instPageReset i d
  (n, instTo i .unused (modInst i (fun x => { x with records := 0, sqLimit := 0, exported := false, custody := 0xFF, wasAssigned := false }) d))

/-- DISCARD (R286). -/
def mgrDiscard (i : Nat) (d : Dev) : Nat × Dev :=
  let (n, d) := destroyKeys i true (endGrantsTo i d)
  (n, instTo i .quiesced (modInst i (fun x => { x with exported := false, endDue := [] }) d))

/-- An admitted command on an instance, op 1 to 9. -/
def mgrInstCmd (op i param : Nat) (d : Dev) : Dev :=
  match op with
  | 1 => mgrEnd mgDONE 0 0 (mgrAssign i param d)
  | 2 => mgrEnd mgDONE 0 0 (setQuotas i param d)
  | 3 => mgrEnd mgDONE 0 0 (mgrQuiesce i d)
  | 4 => mgrEnd mgDONE 0 0 (mgrResume i d)
  | 5 => mgrFreeze i d
  | 6 => mgrEnd mgDONE 0 0 (mgrThaw i d)
  | 7 => let (n, d) := mgrReset' i (restoreAll d); mgrEnd mgDONE 0 n d
  | 8 =>
    let d := restoreAll d
    if removeBarred d i then mgrEnd mgVAULT 0 0 d else let (n, d) := mgrRemove i d; mgrEnd mgDONE 0 n d
  | 9 =>
    let d := restoreAll d
    if removeBarred d i then mgrEnd mgVAULT 0 0 d else let (n, d) := mgrDiscard i d; mgrEnd mgDONE 0 n d
  | _ => d

/-- FROZEN is entered when every key of the instance is idle (R282). -/
def freezeStep (i : Nat) (d : Dev) : Dev :=
  if d.mgr.busy = some (5, i) && (instOf d i).freezing && (instKeys d i).all (fun nk => flightOf d nk.1 = 0) then
    mgrEnd mgDONE 0 0 (instTo i .frozen (modInst i (fun x => { x with freezing := false }) d))
  else d

/-- A command in progress ends because the mode changes, or because its PF takes a reset (R299). -/
def mgrAbort (code : Nat) (d : Dev) : Dev :=
  match d.mgr.busy with
  | some (_, i) => mgrEnd code 0 0 (modInst i (fun x => { x with freezing := false }) d)
  | none => d

/-- Resets left unfinished at a cold reset run to their end on entry to SERVICE, as what they were: RESET, or REMOVE, as which an unfinished
IMPORT ends too (R278, R297). The instance's persistent keys come from the vault first (R148); a REMOVE that the vault bars stays RESETTING
(R286). -/
def resumeResets (d : Dev) : Dev :=
  let due := d.mgr.insts.filter (fun kv => kv.2.run = .resetting)
  if due.isEmpty then d
  else due.foldl (fun d kv =>
    if kv.2.keeps then (mgrReset' kv.1 d).2 else if removeBarred d kv.1 then d else (mgrRemove kv.1 d).2) (restoreAll d)

/-! ## Events (R301) -/

/-- A read of MGR_EVENT: the entry's word, and the queue without it. -/
def mgrEventRead' (d : Dev) : Nat × Dev :=
  match d.mgr.events with
  | [] => (0, d)
  | e :: t =>
    (2 ^ 31 + b2n d.mgr.lost * 2 ^ 30 + e.inst * 2 ^ 16 + e.state * 2 ^ 8 + e.kind,
     modMgr (fun m => { m with events := t, lost := false }) d)

end Sys2Proof.Machine
end

