-- ==== Sys2Proof/Machine/Migration.lean ====
section
/-! DEFINITION. Migration: transport sessions, fold images, and the manager's page as commands reach it (R290-R301). -/

namespace Sys2Proof.Machine

/-! ## Attestation (R60, R292) -/

/-- The firmware measurement of this boot, zeros before step 13 (R61, R333). -/
def fwMeas (d : Dev) : Bytes := ((List.range 12).map (fun k => leBytes 4 (fld d pgSYS (fldAt Reg.SYS_FW_MEAS_MEAS k)))).flatten

/-- The private scalar of the SPDM leaf key (R60). -/
def leafScalar (d : Dev) : Nat := 1 + Config.leafScalar (d.fuse.secret ++ fwMeas d ++ leBytes 1 (b2n d.sys.taint)) % (p384.n - 1)

/-- A signature by the leaf key, ECDSA P-384 with SHA-384, r ‖ s. -/
def leafSign (d : Dev) (m : Bytes) : Bytes :=
  let s := ecdsaSign p384 3 (leafScalar d) (sha384 m) []
  beBytes 48 s.1 ++ beBytes 48 s.2

/-- Digest of the slot 1 owner chain. -/
def ownerDigest (d : Dev) : Bytes := sha384 (d.host.ownerChain.getD [])

/-- The digest of the Eloatan root that the boot ROM holds (R292). -/
def rootDigest : Bytes := (List.range 48).map Config.rootDigestByte

/-- Checks of R292 on a blob of n bytes followed by a chain, but for the last: the result of the first that fails, and the offset of the field
(R300). -/
def attest (d : Dev) (n : Nat) (b : Bytes) : Option (Nat × Nat) :=
  let pk := Config.chainKey rootDigest (b.drop n)
  let sig := slice b (n - 96) 96
  match ecDecode p384 pk with
  | none => some (mgATTEST, n)
  | some q =>
    if !(ecdsaOk p384 q (sha384 (b.take (n - 96))) (beNat (sig.take 48)) (beNat (sig.drop 48))) then some (mgATTEST, n - 96)
    else if leAt b 5 1 ≠ lcIdx .deployed then some (mgATTEST, 5)
    else if leAt b 6 1 ≠ 0 then some (mgATTEST, 6)
    else if slice b 0x40 48 ≠ ownerDigest d then some (mgOWNER, 0x40)
    else none

/-- The first 0xA0 bytes of an offer or an accept (R293). -/
def blobHead (magic : String) (session : Nat) (nonce : Bytes) (d : Dev) : Bytes :=
  ascii magic ++ [0x01] ++ leBytes 1 (lcIdx d.sys.lc) ++ leBytes 1 (b2n d.sys.taint) ++ zeros 5 ++ leBytes 4 session
    ++ fitTo 16 d.fuse.serial ++ fitTo 32 nonce ++ ownerDigest d ++ fwMeas d

/-- The offset of the first faulting field of a blob, none where its shape stands. -/
def blobFault (magic : String) (b : Bytes) : Option Nat :=
  if b.take 4 ≠ ascii magic then some 0 else if leAt b 4 1 ≠ 1 then some 4 else if slice b 7 5 ≠ zeros 5 then some 7
  else if slice b 0x721 7 ≠ zeros 7 then some 0x721 else none

/-- K_XPORT (R290). -/
def xportKey (kem ecdh nonceD nonceS serS serD : Bytes) : Bytes :=
  hkdfExpand hmac384 48 (hkdfExtract hmac384 (nonceD ++ nonceS) (kem ++ ecdh)) (ascii "ADK-FOLD-XPORT" ++ serS ++ serD) 32

/-- The ECDH secret of a private scalar and a public key, nothing for an invalid one. -/
def xportEcdh (s : Nat) (pk : Bytes) : Option Bytes :=
  match ecDecode p384 pk with
  | some q => (ecMul p384 s (some q)).map (fun r => beBytes 48 r.1)
  | none => none

/-! ## Sessions -/

/-- An open session. -/
def xportOf (d : Dev) (id : Nat) : Option Xport := d.mgr.xports.find? (fun x => x.id = id)

/-- Closes a session (R291). -/
def xportShut (id : Nat) (d : Dev) : Dev := modMgr (fun m => { m with xports := m.xports.filter (fun x => x.id ≠ id) }) d

/-- Opens a session under the next local identifier. -/
def xportOpen (x : Xport) (d : Dev) : Dev := modMgr (fun m => { m with xports := m.xports ++ [x], nextXport := m.nextXport + 1 }) d

/-! ## Host buffers -/

/-- Link of the manager's function. -/
def mgrLink (d : Dev) : Nat := fld d pgHOST Reg.HOST_CFG_MGR_LINK

/-- A buffer address of the page. -/
def mgrAddr (d : Dev) (lo hi : Fld) : Nat := fld d pgMGR lo + fld d pgMGR hi * 2 ^ 32

/-- Whether the manager's function reaches its host. -/
def mgrHostOk (d : Dev) : Bool := (linkOf d (mgrLink d)).up && ideOpen d (mgrLink d) 0

/-- The read of the input buffer is issued; what it returned, cut to MGR_IN_LEN. -/
def mgrInput (input : HostData) (d : Dev) : Option Bytes × Dev :=
  let n := fld d pgMGR Reg.MGR_IN_LEN_LEN
  if n = 0 then (some [], d)
  else if !(mgrHostOk d) then (none, d)
  else (input.map (fitTo n), emitAll (hostReads d (mgrLink d) 0 (mgrAddr d Reg.MGR_IN_ADDR_LO_ADDR_LO Reg.MGR_IN_ADDR_HI_ADDR_HI) n) d)

/-- The output is written at the output buffer. -/
def mgrOutput (b : Bytes) (d : Dev) : Dev :=
  if b.isEmpty then d else emitAll (hostWrites d (mgrLink d) 0 (mgrAddr d Reg.MGR_OUT_ADDR_LO_ADDR_LO Reg.MGR_OUT_ADDR_HI_ADDR_HI) b true) d

/-- A command that writes n bytes: BAD_ARG with the length required where the buffer is too small, HOST_ACCESS where the host
is out of reach. -/
def mgrWithRoom (n : Nat) (d : Dev) (go : Dev → Dev) : Dev :=
  if fld d pgMGR Reg.MGR_OUT_LEN_LEN < n then mgrEnd mgBAD_ARG 0 n d
  else if n ≠ 0 && !(mgrHostOk d) then mgrEnd mgHOST 0 0 d else go d

/-- A command that draws n bytes. -/
def mgrWithRandom (n : Nat) (d : Dev) (go : Bytes → Dev → Dev) : Dev :=
  match drawHomeless n d with
  | (some b, d) => go b d
  | (none, d) => mgrEnd mgENTROPY 0 0 d

/-- XPORT_OFFER on the destination (R290, R293). -/
def xportOfferGo (d : Dev) : Dev :=
  if 4 ≤ d.mgr.xports.length then mgrEnd mgNO_SESSION 0 0 d
  else mgrWithRoom 1928 d fun d => mgrWithRandom 144 d fun rnd d =>
    let dz := rnd.take 64
    let s := 1 + beNat (slice rnd 64 48) % (p384.n - 1)
    let id := d.mgr.nextXport
    let b := blobHead "ADKO" id (slice rnd 112 32) d ++ (kemKeys 0x0303 (dz.take 32)).2 ++ ecEncode p384 (ecPub p384 s) ++ zeros 7
    let b := b ++ leafSign d b
    mgrEnd mgDONE 0 id (mgrOutput b (xportOpen ⟨id, false, d.now, id, b, some (dz, s), none⟩ d))

/-- XPORT_ACCEPT on the source (R290, R292, R293). -/
def xportAcceptGo (input : HostData) (d : Dev) : Dev :=
  if 4 ≤ d.mgr.xports.length then mgrEnd mgNO_SESSION 0 0 d
  else match mgrInput input d with
    | (none, d) => mgrEnd mgHOST 0 0 d
    | (some b, d) =>
      if b.length < 1928 then mgrEnd mgBAD_ARG b.length 1928 d
      else match attest d 1928 b with
        | some e => mgrEnd e.1 e.2 0 d
        | none => match blobFault "ADKO" b with
          | some o => mgrEnd mgBAD_ARG o 0 d
          | none =>
            let ek := slice b 0xA0 1568
            if !(kemEkOk 0x0303 ek) then mgrEnd mgBAD_ARG 0xA0 0 d
            else if (ecDecode p384 (slice b 0x6C0 97)).isNone then mgrEnd mgBAD_ARG 0x6C0 0 d
            else mgrWithRoom 1976 d fun d => mgrWithRandom 112 d fun rnd d =>
              let (kem, ct) := kemEncap 0x0303 ek (rnd.take 32)
              let s := 1 + beNat (slice rnd 32 48) % (p384.n - 1)
              let nonce := slice rnd 80 32
              let key := xportKey kem ((xportEcdh s (slice b 0x6C0 97)).getD []) (slice b 0x20 32) nonce d.fuse.serial (slice b 0x10 16)
              let peer := leAt b 0x0C 4
              let id := d.mgr.nextXport
              let out := blobHead "ADKA" peer nonce d ++ ct ++ ecEncode p384 (ecPub p384 s) ++ zeros 7 ++ sha384 (b.take 1928)
              let out := out ++ leafSign d out
              mgrEnd mgDONE 0 id (mgrOutput out (xportOpen ⟨id, true, d.now, peer, b.take 1928, none, some key⟩ d))

/-- XPORT_COMPLETE on the destination (R290, R292). -/
def xportCompleteGo (param : Nat) (input : HostData) (d : Dev) : Dev :=
  match mgrInput input d with
  | (none, d) => mgrEnd mgHOST 0 0 d
  | (some b, d) =>
    if b.length < 1976 then mgrEnd mgBAD_ARG b.length 1976 d
    else match attest d 1976 b with
      | some e => mgrEnd e.1 e.2 0 d
      | none => match (xportOf d param).bind (fun x => x.secrets.map (fun y => (x, y))) with
        | none => mgrEnd mgNO_SESSION 0 0 d
        | some (x, dz, s) =>
          if leAt b 0x0C 4 ≠ x.id then mgrEnd mgNO_SESSION 0x0C 0 d
          else if slice b 0x728 48 ≠ sha384 x.offer then mgrEnd mgNO_SESSION 0x728 0 d
          else match blobFault "ADKA" b with
            | some o => mgrEnd mgBAD_ARG o 0 d
            | none => match xportEcdh s (slice b 0x6C0 97) with
                | none => mgrEnd mgBAD_ARG 0x6C0 0 d
                | some z =>
                  let kem := kemDecap 0x0303 dz (slice b 0xA0 1568)
                  let key := xportKey kem z (slice x.offer 0x20 32) (slice b 0x20 32) (slice b 0x10 16) d.fuse.serial
                  mgrEnd mgDONE 0 0 (modMgr (fun m => { m with
                    xports := m.xports.map (fun y => if y.id = x.id then { y with secrets := none, key := some key } else y) }) d)

/-! ## Export (R294-R296) -/

/-- A section: header, content and padding. -/
def foldSection (type : Nat) (b : Bytes) : Bytes :=
  leBytes 2 type ++ zeros 2 ++ leBytes 4 b.length ++ b ++ zeros (alignUp b.length 8 - b.length)

/-- Replaces bytes from an offset. -/
def patch (b : Bytes) (off : Nat) (x : Bytes) : Bytes := b.take off ++ x ++ b.drop (off + x.length)

/-- A KEY section's content: the record as R295 changes it, and the material extensions in format 3. -/
def foldKey (fmt : Nat) (k : KeyRec) : Bytes :=
  let k := { k with persisted := false, mat := if k.damaged then zeros k.mat.length else k.mat }
  let b := patch (patch (patch (keyBytes k) 0x52 [0x00]) 0x54 [0xFF, 0xFF, 0xFF, 0xFF]) 0x68 (zeros 32)
  b ++ zeros 16
    ++ (if fmt = 3 then ((List.range (extsFor k.mat.length)).map (fun e => slice k.mat (96 + 224 * e) 224)).flatten else [])

/-- The queues of an instance (R296). -/
def foldQueues (d : Dev) (i : Nat) : Bytes :=
  let sq (q : Nat) : Bytes :=
    let cfg := regGet d (instPage i) (0x208 + 0x10 * q)
    leBytes 8 (sqBase d i q) ++ leBytes 4 (if qFld d i q Reg.SQ_STAT_ERROR = 1 then setBit cfg 31 false else cfg)
      ++ leBytes 2 (qFld d i q Reg.SQ_STAT_HEAD) ++ leBytes 2 (tailOf d i q)
  let cq (q : Nat) : Bytes :=
    let cfg := regGet d (instPage i) (0x308 + 0x10 * q)
    leBytes 8 (cqBase d i q) ++ leBytes 4 (if qFld d i q Reg.CQ_STAT_ERROR = 1 then setBit cfg 31 false else cfg)
      ++ leBytes 2 (qFld d i q Reg.CQ_STAT_TAIL) ++ leBytes 2 (headOf d i q)
  let ph := (List.range 16).foldl (fun v q => v + qFld d i q Reg.CQ_STAT_PHASE * 2 ^ q) 0
  ((List.range 16).map sq).flatten ++ ((List.range 16).map cq).flatten ++ leBytes 2 ph ++ zeros 6

/-- Both mailboxes of an instance (R296). -/
def foldMail (d : Dev) (i : Nat) : Bytes :=
  let w (off : Nat) : Bytes := ((List.range 16).map (fun k => leBytes 4 (regGet d (instPage i) (off + 4 * k)))).flatten
  w 0x080 ++ w 0x0C0 ++ leBytes 8 (b2n (instOf d i).inFull + 2 * b2n (instOf d i).outFull)

/-- The body of a fold image and its section count. -/
def foldBody (d : Dev) (fmt i : Nat) (ks : List (Nat × KeyRec)) : Bytes × Nat :=
  let x := instOf d i
  let config := leBytes 4 x.records ++ leBytes 1 x.sqLimit ++ zeros 1
    ++ leBytes 2 (regGet d (instPage i) Reg.INST_PYP_OFFER_V2.off) ++ leBytes 4 ks.length ++ zeros 4
  let more := if fmt = 1 then [] else foldSection 3 (foldQueues d i) ++ foldSection 4 (foldMail d i)
  (foldSection 1 config ++ (ks.map (fun nk => foldSection 2 (foldKey fmt nk.2))).flatten ++ more ++ foldSection 0xFF [],
   ks.length + (if fmt = 1 then 2 else 4))

/-- Whether EXPORT needs a class 0 ticket (R294). -/
def exportTicketed (ks : List (Nat × KeyRec)) : Bool :=
  ks.any (fun nk => bit nk.2.attr atCUSTODY || bit nk.2.attr atTRUSTED_ONLY)

/-- EXPORT past its ticket; ks are the keys that the image carries (R295). -/
def exportWrite (fmt gapLog i : Nat) (x : Xport) (ks : List (Nat × KeyRec)) (tickets : List Nat) (d : Dev) : Dev :=
  let fail (code val : Nat) (d : Dev) : Dev := mgrEnd code 0 val (ticketFree tickets d)
  if fmt < 3 && (instKeys d i).any (fun nk => extsFor nk.2.mat.length ≠ 0) then fail mgFORMAT 0 d
  else
    let (body, n) := foldBody d fmt i ks
    let len := 0x40 + body.length + 16
    if fld d pgMGR Reg.MGR_OUT_LEN_LEN < len then fail mgBAD_ARG len d
    else if !(mgrHostOk d) then fail mgHOST 0 d
    else match drawHomeless 12 d with
      | (none, d) => fail mgENTROPY 0 d
      | (some iv, d) =>
        let head := ascii "ADKF" ++ leBytes 1 fmt ++ zeros 1 ++ leBytes 2 i ++ leBytes 4 x.peer ++ leBytes 4 n ++ leBytes 8 body.length
          ++ leBytes 8 (if fmt = 3 then 2 ^ (24 + gapLog) else 0) ++ fitTo 16 d.fuse.serial ++ iv ++ zeros 4
        let (c, tag) := gcmEnc (encFn 0x0012 (x.key.getD (zeros 32))) iv head body
        let d := mgrOutput (head ++ c ++ tag) (tickets.foldl (fun d id => redeemChallenge id d) d)
        mgrEnd mgDONE 0 len (xportShut x.id (modInst i (fun y => { y with exported := true }) d))

/-- EXPORT (R294-R296). -/
def exportGo (v param : Nat) (input : HostData) (d : Dev) : Dev :=
  let i := bits v 25 16
  match (xportOf d param).filter (fun x => x.source && x.key.isSome) with
  | none => mgrEnd mgNO_SESSION 0 0 d
  | some x =>
    let d := restoreAll d
    let ks := (instKeys d i).filter (fun nk => hClass nk.2.handle ≠ 2)
    if exportTicketed (instKeys d i) then
      match mgrInput input d with
      | (none, d) => mgrEnd mgHOST 0 0 d
      | (some b, d) => match ticketsCheck [⟨0xFFFF, 0x1013, i * 2 ^ 54, sha384 x.offer, 0⟩] b [] d with
        | (.error e, d) => mgrEnd mgTICKET (ticketPlace e b) 0 d
        | (.ok (ids, _), d) => exportWrite (bits v 11 8) (bits v 15 12) i x ks ids d
    else exportWrite (bits v 11 8) (bits v 15 12) i x ks [] d

/-! ## Import (R297, R298) -/

/-- The offset of the first faulting field of an image header (R296, R297); len is the length of the input. -/
def foldHeadFault (x : Xport) (len : Nat) (b : Bytes) : Option Nat :=
  let fmt := leAt b 4 1
  let gap := leAt b 0x18 8
  let gapOk : Bool := if fmt = 3 then (List.range 16).any (fun k => gap = 2 ^ (24 + k)) else gap = 0
  if b.take 4 ≠ ascii "ADKF" then some 0
  else if fmt = 0 || 3 < fmt then some 4
  else if leAt b 5 1 ≠ 0 then some 5
  else if 1023 < leAt b 6 2 then some 6
  else if leAt b 8 4 ≠ x.id then some 8
  else if leAt b 0x10 8 + 80 ≠ len then some 0x10
  else if !gapOk then some 0x18
  else if leAt b 0x3C 4 ≠ 0 then some 0x3C
  else none

/-- The sections of a body: type and content, or the offset of a fault in it; fuel is the section count. -/
def foldSections : Nat → Nat → Bytes → Except Nat (List (Nat × Bytes))
  | 0, off, b => if b.isEmpty then .ok [] else .error off
  | n + 1, off, b =>
    let len := leAt b 4 4
    let all := 8 + alignUp len 8
    if b.length < 8 || b.length < all || leAt b 2 2 ≠ 0 || slice b (8 + len) (all - 8 - len) ≠ zeros (all - 8 - len) then .error off
    else match foldSections n (off + all) (b.drop all) with
      | .ok l => .ok ((leAt b 0 2, slice b 8 len) :: l)
      | .error e => .error e

/-- A record of a KEY section, with its source HANDLE, PARENT and remaining fields as the image holds them. -/
def foldRec (b : Bytes) : KeyRec :=
  let fl := leAt b 6 2
  { alg := leAt b 2 2, handle := leAt b 8 8, encLock := bit fl 4, persisted := false, damaged := bit fl 1, pubOnly := bit fl 0
    attr := leAt b 0x10 8, used := leAt b 0x18 8, limit := leAt b 0x20 8, resv := leAt b 0x28 8, nonce := leAt b 0x30 8
    nonceResv := leAt b 0x38 8, expires := leAt b 0x40 8, parent := leAt b 0x48 8, qc := leAt b 0x50 1, exts := [], grants := []
    label := slice b 0x58 16, mat := fitTo (leAt b 4 2) (slice b 0x88 96 ++ b.drop 256), kcv := slice b 0xE8 3, life := 0 }

/-- Whether a KEY section's content is a key record of the length its material asks for, in a format. -/
def foldKeyOk (fmt : Nat) (b : Bytes) : Bool :=
  leAt b 0 1 = 2 && leAt b 1 1 = 1 && leAt b 4 2 ≤ 96 + 224 * 16 && (fmt = 3 || leAt b 4 2 ≤ 96)
    && b.length = 256 + 224 * extsFor (leAt b 4 2)

/-- Sections with their offsets in the image, from an offset on; and the offset behind them. -/
def foldPlaces : Nat → List (Nat × Bytes) → List (Nat × Nat × Bytes) × Nat
  | off, [] => ([], off)
  | off, s :: r => let (l, e) := foldPlaces (off + 8 + alignUp s.2.length 8) r; ((off, s) :: l, e)

/-- The offset of the first fault of the KEY sections: a record that is none of its format or length, or one out of ascending source record
number (R296); last is the number of the one before. -/
def foldKeysFault (fmt : Nat) : Option Nat → List (Nat × Nat × Bytes) → Option Nat
  | _, [] => none
  | last, (o, _, b) :: r =>
    let n := hRec (leAt b 8 8)
    if !(foldKeyOk fmt b) then
      some (o + (if b.length < 256 then 4 else if leAt b 0 1 ≠ 2 then 8 else if leAt b 1 1 ≠ 1 then 9
        else if 96 + 224 * 16 < leAt b 4 2 || (fmt ≠ 3 && 96 < leAt b 4 2) then 12 else 4))
    else if last.any (fun m => n ≤ m) then some (o + 16)
    else foldKeysFault fmt (some n) r

/-- The offset of the first section that is not the one expected, by type and length; e lies behind the last. -/
def foldTailFault (e : Nat) : List (Nat × Nat) → List (Nat × Nat × Bytes) → Option Nat
  | [], [] => none
  | [], (o, _) :: _ => some o
  | _ :: _, [] => some e
  | (t, n) :: es, (o, t', b) :: r => if t ≠ t' then some o else if n ≠ b.length then some (o + 4) else foldTailFault e es r

/-- The offset of the first field by which the sections do not stand in the order and number of the table, none where they do (R296, R300). -/
def foldOrderFault (fmt : Nat) (l : List (Nat × Bytes)) : Option Nat :=
  match foldPlaces 0x40 l with
  | ([], e) => some e
  | ((o, t, c) :: rest, e) =>
    let ks := rest.takeWhile (fun s => s.2.1 = 2)
    if t ≠ 1 then some o
    else if c.length ≠ 16 then some (o + 4)
    else if leAt c 8 4 ≠ ks.length then some (o + 16)
    else match foldKeysFault fmt none ks with
      | some x => some x
      | none => foldTailFault e (if fmt = 1 then [(0xFF, 0)] else [(3, 520), (4, 136), (0xFF, 0)]) (rest.drop ks.length)

/-- The record that an imported key becomes (R298): counters, encrypt lock and remaining lifetime in ticks. -/
def foldNew (gap : Nat) (k : KeyRec) : KeyRec :=
  let nc := k.nonceResv + gap
  let lock : Bool := 2 ^ 64 - 2 ^ 24 < nc
  let nc := min nc (2 ^ 64 - 1)
  let counted : Bool := hClass k.handle = 0 && bit k.attr atUSAGE_LIMITED
  { k with
    nonce := nc, nonceResv := nc, used := if counted then k.resv else k.used
    attr := if lock then setBit k.attr atENCRYPT false else k.attr, encLock := k.encLock || lock }

/-- Creates an imported key under lowest free records: its new handle. The image carries no LIFETIME: the key's is what is left of it. -/
def foldCreate (i : Nat) (k : KeyRec) (d : Dev) : Nat × Dev :=
  match allocRecs d (1 + extsFor k.mat.length) with
  | some (n :: exts) =>
    let cls := hClass k.handle
    let h := mkHandle i cls (hGen (bodyHandle (t1Of d n))) (if cls = 0 then 0 else bootTag d) n
    (h, placeKey n { k with handle := h, exts := exts, life := if k.expires = 0 then 0 else k.expires - stamp d } d)
  | _ => (0, d)

/-- Restores the queue registers and doorbells of an instance (R296, R297). -/
def unfoldQueues (i : Nat) (b : Bytes) (d : Dev) : Dev :=
  let p := instPage i
  let d := (List.range 16).foldl (fun d q =>
    let e := slice b (16 * q) 16
    let d := setQ i q Reg.SQ_BASE_LO_BASE_LO (leAt e 0 4 / 4096) (setQ i q Reg.SQ_BASE_HI_BASE_HI (leAt e 4 4) d)
    setTail i q (leAt e 14 2) (setQ i q Reg.SQ_STAT_HEAD (leAt e 12 2) (regPut d p (0x208 + 0x10 * q) (leAt e 8 4)))) d
  (List.range 16).foldl (fun d q =>
    let e := slice b (256 + 16 * q) 16
    let d := setQ i q Reg.CQ_BASE_LO_BASE_LO (leAt e 0 4 / 4096) (setQ i q Reg.CQ_BASE_HI_BASE_HI (leAt e 4 4) d)
    let d := setHead i q (leAt e 14 2) (setQ i q Reg.CQ_STAT_TAIL (leAt e 12 2) (regPut d p (0x308 + 0x10 * q) (leAt e 8 4)))
    setQ i q Reg.CQ_STAT_PHASE (b2n (bit (leAt b 512 2) q)) d) d

/-- Restores both mailboxes. -/
def unfoldMail (i : Nat) (b : Bytes) (d : Dev) : Dev :=
  let d := (List.range 16).foldl (fun d k =>
    regPut (regPut d (instPage i) (0x080 + 4 * k) (leAt b (4 * k) 4)) (instPage i) (0x0C0 + 4 * k) (leAt b (64 + 4 * k) 4)) d
  modInst i (fun x => { x with inFull := bit (leAt b 128 8) 0, outFull := bit (leAt b 128 8) 1 }) d

/-- Step 1 of R297 on an image as read: header, section order and tag in this order; format and sections, or the result and the offset of the
first faulting field (R300). -/
def imageOpen (x : Xport) (b : Bytes) : Except (Nat × Nat) (Nat × List (Nat × Bytes)) :=
  match foldHeadFault x b.length b with
  | some o => .error (mgFORMAT, o)
  | none =>
    let fmt := leAt b 4 1
    let n := leAt b 0x10 8
    let (body, tag) := gcmDec (encFn 0x0012 (x.key.getD (zeros 32))) (slice b 0x30 12) (b.take 0x40) (slice b 0x40 n)
    match foldSections (leAt b 0x0C 4) 0x40 body with
    | .error o => .error (mgFORMAT, o)
    | .ok l => match foldOrderFault fmt l with
      | some o => .error (mgFORMAT, o)
      | none => if tag ≠ slice b (0x40 + n) 16 then .error (mgAUTH, 0x40 + n) else .ok (fmt, l)

/-- Steps 3 and 4 of R297 past the second read: the keys, the sections, the quotas and the offer, the state, the handle map. EXPIRES is converted by
the difference of the two clocks (R295), which the image does not carry: a free value for each import. -/
def importApply (i : Nat) (x : Xport) (fmt gap : Nat) (l : List (Nat × Bytes)) (d : Dev) : Dev :=
  let content (t : Nat) : Bytes := ((l.find? (fun s => s.1 = t)).map (·.2)).getD []
  let config := content 1
  let ks := (l.filter (fun s => s.1 = 2)).map (fun s => foldRec s.2)
  let (f, d) := drawFresh d
  let (pairs, d) := ks.foldl (fun (acc : List (Nat × Nat) × Dev) k =>
    let k' := foldNew gap k
    let (h, d) := foldCreate i { k' with expires := if k.expires = 0 then 0 else (k.expires + Config.freeNat f) % 2 ^ 48 } acc.2
    (acc.1 ++ [(k.handle, h)], d)) ([], d)
  let parent (h : Nat) : Nat := ((pairs.find? (fun p => p.1 = h)).map (·.2)).getD 0
  let d := (pairs.filter (fun p => (keyAt d (hRec p.2)).any (fun k => k.parent ≠ 0))).foldl (fun d p =>
    changeRec (hRec p.2) (fun k => { k with parent := parent k.parent }) d) d
  let d := if fmt = 1 then d else unfoldMail i (content 4) (unfoldQueues i (content 3) d)
  let d := modInst i (fun y => { y with
    records := leAt config 0 4, sqLimit := leAt config 4 1, exported := false, wasAssigned := false, freezing := false, custody := 0xFF }) d
  let d := negotiate i (regPut d (instPage i) Reg.INST_PYP_OFFER_V2.off (leAt config 6 2))
  let d := mgrOutput (pairs.map (fun p => leBytes 8 p.1 ++ leBytes 8 p.2)).flatten (instTo i .quiesced d)
  mgrEnd mgDONE 0 pairs.length (xportShut x.id d)

/-- Step 3 of R297: the target is marked RESETTING and the image is read a second time. A read that fails or an image that no longer stands
ends the command, and the REMOVE actions destroy what there is of the target. -/
def importAgain (i : Nat) (x : Xport) (input : HostData) (d : Dev) : Dev :=
  match mgrInput input (instTo i .resetting (instPageReset i (modInst i (fun y => { y with keeps := false }) d))) with
  | (none, d) => mgrEnd mgHOST 0 0 (mgrRemove i d).2
  | (some b, d) => match imageOpen x b with
    | .error (code, o) => mgrEnd code o 0 ((if code = mgAUTH then xportShut x.id else id) (mgrRemove i d).2)
    | .ok (fmt, l) => importApply i x fmt (if fmt = 3 then leAt b 0x18 8 else 2 ^ 24) l d

/-- IMPORT (R297, R298); again is what the second read returns where that is not what the first did. -/
def importGo (v param : Nat) (input : HostData) (d : Dev) (again : Option HostData := none) : Dev :=
  let i := bits v 25 16
  match (xportOf d param).filter (fun x => !x.source && x.key.isSome) with
  | none => mgrEnd mgNO_SESSION 0 0 d
  | some x => match mgrInput input d with
    | (none, d) => mgrEnd mgHOST 0 0 d
    | (some b, d) => match imageOpen x b with
      | .error (code, o) => mgrEnd code o 0 (if code = mgAUTH then xportShut x.id d else d)
      | .ok (_, l) =>
        let ks := (l.filter (fun s => s.1 = 2)).map (fun s => foldRec s.2)
        let need := (ks.map (fun k => 1 + extsFor k.mat.length)).sum
        let d := restoreAll d
        if (allocRecs d need).isNone && need ≠ 0 then mgrEnd mgFULL 0 0 d
        else if !(vaultWritable d) && ks.any (fun k => hClass k.handle = 0) then mgrEnd mgVAULT 0 0 d
        else mgrWithRoom (16 * ks.length) d (importAgain i x (again.getD input))

/-! ## The page as a write reaches it (R299, R301) -/

/-- A nonzero OP is written: the command is judged and runs (R299). v is the word written. -/
def mgrRun (v : Nat) (input : HostData) (d : Dev) (again : Option HostData := none) : Dev :=
  let op := bits v 7 0
  let i := bits v 25 16
  let param := fld d pgMGR Reg.MGR_PARAM_PARAM
  if !(mgrOpKnown op) then mgrEnd mgBAD_ARG 0 0 d
  else if !(mgrModeOk d op) then mgrEnd mgMODE 0 0 d
  else if !(takesJobs d pgMGR) then d
  else if mgrArgBad op v param then mgrEnd mgBAD_ARG 0 0 d
  else if !(mgrStateOk (instOf d i) op) then mgrEnd mgBAD_STATE 0 0 d
  else match op with
    | 0x10 => xportOfferGo d
    | 0x11 => xportAcceptGo input d
    | 0x12 => xportCompleteGo param input d
    | 0x13 => exportGo v param input d
    | 0x14 => importGo v param input d again
    | 0x15 => if (xportOf d param).isSome then mgrEnd mgDONE 0 0 (xportShut param d) else mgrEnd mgNO_SESSION 0 0 d
    | _ => mgrInstCmd op i param d

/-- Registers that a running command holds (R299). -/
def mgrHolds (off : Nat) : Bool := 0x040 ≤ off && off ≤ 0x05C

/-- A write to a block register of the MGR page that the page admits. -/
def mgrReg (a : Access) (off v : Nat) (input : HostData) (d : Dev) (again : Option HostData := none) : Dev :=
  if d.mgr.busy.isSome && mgrHolds off then (if d.sys.stage = .service then d else regErr pgMGR errMGR_BUSY a off d)
  else if off = Reg.MGR_MB_CTL_SEND.off || (0x080 ≤ off && off ≤ 0x0BC) then
    (if (hdrOf d pgMGR).softRst then regErr pgMGR errCFG a off d else mgrMb a off v d)
  else
    let j := judgePlain .mgr a pgMGR off v d
    if off = Reg.MGR_CMD_OP.off && j.took Reg.MGR_CMD_OP && bits v 7 0 ≠ 0 then
      mgrRun v input j.d again
    else j.d

/-- A write to a block register of the MGR page by a master. -/
def mgrWrite (a : Access) (off v : Nat) (input : HostData) (d : Dev) (again : Option HostData := none) : Dev :=
  match admitWrite (seenAs a) pgMGR off d with
  | (some _, d) => mgrReg (seenAs a) off (v % 2 ^ 32) input d again
  | (none, d) => d

/-- A manager command: its parameter, then the word with the operation. sel carries the other fields of MGR_CMD. -/
def mgrIssue (a : Access) (op sel : Nat) (param : Option Nat) (input : HostData) (d : Dev) (again : Option HostData := none) : Dev :=
  let d := match param with
    | some x => mgrWrite a Reg.MGR_PARAM_PARAM.off x input d
    | none => d
  mgrWrite a Reg.MGR_CMD_OP.off (setBits sel 7 0 op) input d again

end Sys2Proof.Machine
end

