-- ==== Sys2Proof/Machine/Irq.lean ====
section
/-! DEFINITION. The interrupt controller and the GPIO pins (R353-R367, R383-R385). -/

namespace Sys2Proof.Machine

/-! ## Pins (R383) -/

/-- Level at pin n: driven, or from outside. -/
def pinLevel (d : Dev) (n : Nat) : Bool :=
  if bit (fld d pgGPIO Reg.GPIO_DIR_OE) n then bit (fld d pgGPIO Reg.GPIO_OUT_OUT) n else bit d.gpio.level n

/-- GPIO_IN. -/
def pinLevels (d : Dev) : Nat := (List.range 8).foldl (fun v n => v + b2n (pinLevel d n) * 2 ^ n) 0

/-- The interrupt line of pin n. -/
def pinLine (d : Dev) (n : Nat) : Bool := Bool.xor (pinLevel d n) (bit (fld d pgGPIO Reg.GPIO_INV_INV) n)

/-! ## Sources (R353-R356) -/

/-- Configuration word of source n. -/
def srcCfg (d : Dev) (n : Nat) : Nat := regGet d pgSRC (0x040 + 4 * (n - 1))

/-- A GPIO source. -/
def srcIsPin (n : Nat) : Bool := 384 ≤ n && n ≤ 391

/-- World of a source; a pin's mirrors GPIO_WORLD. -/
def srcWorld (d : Dev) (n : Nat) : Bool :=
  if srcIsPin n then bit (fld d pgGPIO Reg.GPIO_WORLD_WORLD) (n - 384) else bit (srcCfg d n) 14

/-- Whether a source is edge-triggered. -/
def srcEdge (d : Dev) (n : Nat) : Bool := srcIsSwi n || (srcIsPin n && bit (srcCfg d n) 12)

/-- Line of a level source. -/
def srcLine (d : Dev) (n : Nat) : Bool :=
  let page (p : Nat) : Bool := match pageKind p with
    | some k => (pageCap k).irq && (if p = pgHOST then setBit (hdrOf d p).irqStat 6 false else (hdrOf d p).irqStat) ≠ 0
    | none => false
  if 1 ≤ n && n ≤ 256 then page (n - 1)
  else if n = 257 then page pgMGR
  else if n = 258 then bit (hdrOf d pgHOST).irqStat 6
  else if srcIsPin n then pinLine d (n - 384)
  else false

/-- Owner of an active source. -/
def srcOwner (d : Dev) (n : Nat) : Option IrqActive := smapGet noneAt d.irq.active n

/-- Changes the controller. -/
def modIrq (f : IrqSt → IrqSt) (d : Dev) : Dev := { d with irq := f d.irq }

/-- Sets or clears the edge pending bit of a source. -/
def edgePut (n : Nat) (b : Bool) (d : Dev) : Dev := modIrq (fun s => { s with edge := smapSet falseAt s.edge n b }) d

/-- Pending bit (R356). -/
def srcPending (d : Dev) (n : Nat) : Bool :=
  if srcEdge d n then smapGet falseAt d.irq.edge n else srcLine d n && (srcOwner d n).isNone

/-- All source IDs that can pend. -/
def allSources : List Nat := (List.range 258).map (· + 1) ++ (List.range 8).map (· + 384) ++ (List.range 64).map (· + 448)

/-! ## Banks (R357, R358) -/

/-- Page under which a bank's registers are kept. -/
def bankKey (core : Nat) (sec : Bool) : Nat := pgIRQC core + (if sec then 0 else 0x1000)

/-- Active sources of a bank. -/
def bankSources (d : Dev) (core : Nat) (sec : Bool) : List Nat :=
  (d.irq.active.filter (fun kv => kv.2 = some ⟨core, sec⟩)).map (·.1)

/-- Priority of a source. -/
def srcPrio (d : Dev) (n : Nat) : Nat := bits (srcCfg d n) 7 0

/-- Running priority. -/
def bankRunning (d : Dev) (core : Nat) (sec : Bool) : Nat := ((bankSources d core sec).map (srcPrio d)).foldl max 0

/-- Whether a source is deliverable to a core in a bank. -/
def deliverable (d : Dev) (core : Nat) (sec : Bool) (n : Nat) : Bool :=
  let cfg := srcCfg d n
  let w := max 1 (fld d (bankKey core sec) Reg.IRQC_BAND_WIDTH)
  srcPending d n && (srcOwner d n).isNone && bit cfg 15 && !(bit cfg 13) && srcWorld d n = sec && bit cfg (16 + core)
    && fld d (bankKey core sec) Reg.IRQC_THRESH_THRESH < srcPrio d n
    && (!(bankActive d core sec) || bankRunning d core sec / w < srcPrio d n / w)

/-- The source that a claim would return: the highest priority, then the lowest ID (R359). -/
def claimPick (d : Dev) (core : Nat) (sec : Bool) : Option Nat :=
  (allSources.filter (deliverable d core sec)).foldl (fun (b : Option Nat) n => match b with
    | none => some n
    | some x => if srcPrio d x < srcPrio d n then some n else some x) none

/-- Whether the global enable lets bank lines assert (R361). -/
def irqOn (d : Dev) : Bool := fldB d pgIRQ Reg.IRQC_GCTL_EN

/-- A bank's line as it reaches the hart (R358). -/
def bankLine (d : Dev) (core : Nat) (sec : Bool) : Bool :=
  irqOn d && (hartOf d core).run = .running && (quarterOf d (core / 4)).pwr = .on && (claimPick d core sec).isSome

/-- The supervisor external interrupt of a hart: its non-secure bank's line in either world, and its secure bank's in the secure world
(R358). -/
def seiLine (d : Dev) (core : Nat) : Bool := bankLine d core false || ((hartOf d core).world && bankLine d core true)

/-- IRQC_CORE_STAT of a bank (R366). -/
def coreStat (d : Dev) (core : Nat) (sec : Bool) : Nat :=
  b2n (sec && bankLine d core false) * 2 ^ 18 + b2n (bankLine d core sec) * 2 ^ 17 + b2n (bankActive d core sec) * 2 ^ 16
    + (if irqOn d then ((claimPick d core sec).map (srcPrio d)).getD 0 else 0) * 2 ^ 8 + bankRunning d core sec

/-- A monitor source's interrupt on a hart (R355). -/
def monLine (d : Dev) (core : Nat) : Bool :=
  allSources.any (fun n => let cfg := srcCfg d n; bit cfg 13 && bit cfg 15 && bit cfg (16 + core) && srcPending d n)

/-- The machine external interrupt of a hart: a monitor source's, and its secure bank's line in the non-secure world, which the monitor
takes to switch worlds (R346, R355, R358). -/
def meiLine (d : Dev) (core : Nat) : Bool := (hartOf d core).monIrq || (!(hartOf d core).world && bankLine d core true)

/-- A hart idles in WFI: no interrupt is asserted that would end it. -/
def hartIdle (d : Dev) (core : Nat) : Bool := (hartOf d core).wfi && !(seiLine d core) && !(meiLine d core)

/-- The machine external interrupt of a monitor source as it meets a hart: one that runs firmware takes the trap, and returns from it once
the source's condition has cleared (R328, R355). -/
def monTrap (fw m : Bool) (x : Hart) : Hart :=
  let y := { x with monIrq := m, wfi := x.wfi && !m }
  if !fw || x.run ≠ .running || x.monIrq = m then y
  else if m then { y with nest := true, priv := .machine }
  else { y with nest := false, priv := if x.priv = .machine then .supervisor else x.priv }

/-- The machine external interrupts of monitor sources follow their sources. -/
def monRefresh (d : Dev) : Dev :=
  (List.range 16).foldl (fun d h => modHart d h (monTrap (d.sys.stage = .firmware) (monLine d h))) d

/-! ## Claim, completion, release (R359-R362) -/

/-- A bank that holds no active source has reached its job boundary (R366). -/
def bankBoundary (core : Nat) (sec : Bool) (d : Dev) : Dev :=
  if bankActive d core sec then d
  else
    let p := bankKey core sec
    let due := d.shadow.filter (fun kv => kv.1 / 1024 = p)
    let d := due.foldl (fun d kv =>
      let old := (smapGet regReset d.regs kv.1).toNat
      { d with regs := smapSet regReset d.regs kv.1 (BitVec.ofNat 32 (maskIn old kv.2.mask kv.2.val)) }) d
    { d with shadow := smapKeep (fun k => k / 1024 ≠ p) d.shadow }

/-- A read of IRQC_CLAIM: the ID, and the state after it. -/
def claimRead (core : Nat) (sec : Bool) (d : Dev) : Nat × Dev :=
  match (if irqOn d then claimPick d core sec else none) with
  | none => (0x3FF, satFld d (bankKey core sec) Reg.IRQC_BAD_CNT_SPURIOUS 1)
  | some n =>
    let d := modIrq (fun s => { s with active := smapSet noneAt s.active n (some ⟨core, sec⟩) }) (edgePut n false d)
    (n, modHart d core (fun h => { h with sei := false }))

/-- A write of IRQC_COMPLETE (R360). -/
def completeWrite (core : Nat) (sec : Bool) (n : Nat) (d : Dev) : Dev :=
  if n ≤ 511 && srcOwner d n = some ⟨core, sec⟩ then
    bankBoundary core sec (modIrq (fun s => { s with active := smapSet noneAt s.active n none }) d)
  else satFld d (bankKey core sec) Reg.IRQC_BAD_CNT_BAD_COMPLETE 1

/-- Every source that a core holds active is released (R362). -/
def releaseClaims (core : Nat) (d : Dev) : Dev :=
  let held := bankSources d core true ++ bankSources d core false
  if held.isEmpty then d
  else
    let d := held.foldl (fun d n =>
      let e := srcEdge d n
      let d := modIrq (fun s => { s with active := smapSet noneAt s.active n none }) d
      satFld (if e then edgePut n true d else d) pgIRQ Reg.IRQC_RELEASE_CNT_RELEASED 1) d
    raiseEv pgIRQ 0 (bankBoundary core false (bankBoundary core true d))

/-! ## Writes to the source pages (R354, R355, R367) -/

/-- A write to a source's configuration register. -/
def writeSrcCfg (a : Access) (off v : Nat) (d : Dev) : Dev :=
  let n := (off - 0x040) / 4 + 1
  let old := srcCfg d n
  if !a.sec && (srcWorld d n || (bit v 14 && !(srcIsPin n))) then denyWorld pgSRC a off d
  else if bit old 13 then countViol pgSRC (regErr pgSRC errLOCKED a off d)
  else
    let j := judgePlain .irqs0 a pgSRC off v d
    let w := srcCfg j.d n
    let w := if srcIsPin n then w else setBit w 12 (bit old 12)
    let w := if srcIsPin n then setBit w 14 (bit old 14) else w
    monRefresh (regPut j.d pgSRC off w)

/-- A write to IRQC_SWI_SET. -/
def writeSwi (a : Access) (off v : Nat) (d : Dev) : Dev :=
  let n := bits v 9 0
  if srcIsSwi n && srcWorld d n && !a.sec then denyWorld pgSRC2 a off d
  else
    let j := judgePlain .irqs1 a pgSRC2 off v d
    if j.took Reg.IRQC_SWI_SET_ID then monRefresh (edgePut n true j.d) else j.d

/-- A write to a block register of an interrupt page that the page admits. -/
def irqReg (k : PageKind) (a : Access) (p off v : Nat) (d : Dev) : Dev :=
  match k with
  | .irqs0 => if 0x040 ≤ off && off < 0x83C then writeSrcCfg a off v d else (judgePlain k a p off v d).d
  | .irqs1 => if off = Reg.IRQC_SWI_SET_ID.off then writeSwi a off v d else (judgePlain k a p off v d).d
  | .irqc =>
    if off = Reg.IRQC_COMPLETE_ID.off then
      let j := judgePlain k a p off v d
      if j.took Reg.IRQC_COMPLETE_ID then completeWrite (p - 0x011) a.sec (bits v 9 0) j.d else j.d
    else (judgePlain k a p off v d).d
  | _ => (judgePlain k a p off v d).d

/-! ## Writes to the pins (R383, R385) -/

/-- Rising edges between two settings of the lines set the pending bits of edge sources (R356). -/
def pinEdges (was : Nat) (d : Dev) : Dev :=
  monRefresh ((List.range 8).foldl (fun d n =>
    if srcEdge d (384 + n) && !(bit was n) && pinLine d n then edgePut (384 + n) true d else d) d)

/-- The lines of the eight pins. -/
def pinLines (d : Dev) : Nat := (List.range 8).foldl (fun v n => v + b2n (pinLine d n) * 2 ^ n) 0

/-- What the pins show outside: driven mask and driven levels. -/
def pinsOut (d : Dev) : Nat × Nat :=
  (fld d pgGPIO Reg.GPIO_DIR_OE, Nat.land (fld d pgGPIO Reg.GPIO_DIR_OE) (fld d pgGPIO Reg.GPIO_OUT_OUT))

/-- A change of the driven pins is an external action (R12, R383). -/
def pinsEmit (was : Nat × Nat) (d : Dev) : Dev := if pinsOut d = was then d else emit (.gpio (pinsOut d).1 (pinsOut d).2) d

/-- A write to GPIO_DIR, OUT, SET, CLR or INV: only pins of the writer's world change, and a bit of another pin that the write would change
is denied. -/
def writePins (a : Access) (off v : Nat) (d : Dev) : Dev :=
  let v := v % 256
  let world := fld d pgGPIO Reg.GPIO_WORLD_WORLD
  let mine := if a.sec then world else 255 - world
  let tgt : Fld := if off = Reg.GPIO_DIR_OE.off then Reg.GPIO_DIR_OE else if off = Reg.GPIO_INV_INV.off then Reg.GPIO_INV_INV
    else Reg.GPIO_OUT_OUT
  let old := fld d pgGPIO tgt
  let want := if off = Reg.GPIO_SET_SET.off then Nat.lor old v else if off = Reg.GPIO_CLR_CLR.off then old - Nat.land old v else v
  let reach := if off = Reg.GPIO_SET_SET.off || off = Reg.GPIO_CLR_CLR.off then v else Nat.xor old v
  let foreign : Bool := Nat.land reach (255 - mine) ≠ 0
  if (hdrOf d pgGPIO).softRst then (if foreign then denyWorld pgGPIO a off d else regErr pgGPIO errCFG a off d)
  else if stopped d.sys.mode && off ≠ Reg.GPIO_INV_INV.off then d
  else
    let was := pinLines d
    let wasOut := pinsOut d
    let d := setFld d pgGPIO tgt (maskIn old mine want)
    let d := if foreign then denyWorld pgGPIO a off d else d
    pinEdges was (pinsEmit wasOut d)

/-- A write to a block register of the GPIO page that the page admits. -/
def gpioReg (a : Access) (off v : Nat) (d : Dev) : Dev :=
  if [Reg.GPIO_DIR_OE.off, Reg.GPIO_OUT_OUT.off, Reg.GPIO_SET_SET.off, Reg.GPIO_CLR_CLR.off, Reg.GPIO_INV_INV.off].contains off then
    writePins a off v d
  else (judgePlain .gpio a pgGPIO off v d).d

end Sys2Proof.Machine
end

