-- ==== Sys2Proof/Machine/OfcCmds.lean ====
section
/-! DEFINITION. The officer block's operations, card interfaces and CEREMONY (R303-R308, R316-R325): one meaning for each row. -/

namespace Sys2Proof.Machine

/-! ## Operations of OFC_CMD (R323, R324) -/

def errOFC_BUSY := 0x0100
def errOFC_ARG := 0x0101

/-- Length of an operation's argument block; PIN's grows with LEN. -/
def ofcArgLen (op : Nat) : Nat :=
  match op with
  | 1 => 24 | 2 | 4 | 5 | 9 => 8 | 3 => 16 | 8 => 72 | _ => 0

/-- A secure area of the officer block, read by its own master (R323, R368). -/
def ofcRead (info a n : Nat) (d : Dev) : Except Denial Bytes × Dev :=
  if n = 0 then (.ok [], d)
  else
    let (r, b, _, d) := memFetch2 (whoDevice 5 true) false a n d
    (if r = .ok then .ok b else .error (memDenial r info), d)

/-- Whether an operation needs a class 0 ticket (R304, R306, R308). -/
def ofcTicketed (d : Dev) (op : Nat) (arg : Bytes) : Bool :=
  match op with
  | 1 => !(!(class0Ready d) && (d.lant.root.isSome) && d.sys.lc = .provision)
  | 3 => !(!(class0Ready d) && leAt arg 0 1 = 0)
  | 2 | 4 | 5 | 6 => true
  | _ => false

/-- Offset of the first fault of an argument block (R323). -/
def ofcArgFault (op : Nat) (b : Bytes) : Option Nat :=
  match op with
  | 1 => if 1 < leAt b 0 1 then some 0 else if 63 < leAt b 1 1 then some 1 else if slice b 2 6 ≠ zeros 6 then some 2 else none
  | 2 | 5 => if 63 < leAt b 0 1 then some 0 else if slice b 1 7 ≠ zeros 7 then some 1 else none
  | 3 =>
    if 31 < leAt b 0 1 then some 0 else if leAt b 1 1 = 1 || 16 < leAt b 1 1 then some 1 else if leAt b 2 2 ≠ 0 then some 2
    else if leAt b 1 1 ≠ 0 && (leAt b 4 4 = 0 || 65535 < leAt b 4 4) then some 4 else none
  | 4 =>
    if 1023 < leAt b 0 2 then some 0 else if 31 < leAt b 2 1 && leAt b 2 1 ≠ 0xFF then some 2
    else if slice b 3 5 ≠ zeros 5 then some 3 else none
  | 8 => if 1 < leAt b 1 1 then some 1 else if slice b 2 6 ≠ zeros 6 then some 2 else none
  | 9 =>
    if 1 < leAt b 0 1 then some 0 else if leAt b 1 1 < 4 || 16 < leAt b 1 1 then some 1
    else if slice b 2 6 ≠ zeros 6 then some 2 else none
  | _ => none

/-- Members of a class that are not REVOKED once an officer is (R305). -/
def membersLeft (d : Dev) (q : QClass) (gone : Nat) : Nat :=
  ((List.range 64).filter (fun n => n ≠ gone && bit q.members n && (officerOf d n).run ≠ .revoked)).length

/-- The first defined class that a revocation would leave short (R305). -/
def revokeBar (d : Dev) (n : Nat) : Option Nat :=
  firstBelow 32 (fun c => match qclassOf d c with
    | some q => bit q.members n && membersLeft d q n < q.m
    | none => false)

/-- REVOKE (R305). -/
def ofcRevoke (n : Nat) (tickets : List Nat) (d : Dev) : Dev :=
  if (officerOf d n).run = .empty then ofcEnd stBAD_DESCRIPTOR 0 tickets d
  else match revokeBar d n with
    | some c => ofcEnd stBAD_DESCRIPTOR c tickets d
    | none =>
      let d := modOfficer n (fun o => { o with run := .revoked }) d
      ofcEnd stOK 0 tickets ((List.range 32).foldl (fun d c => match qclassOf d c with
        | some q => if bit q.members n then dropClass c d else d
        | none => d) d)

/-- SET_CLASS (R306). -/
def ofcSetClass (b : Bytes) (tickets : List Nat) (d : Dev) : Dev :=
  let c := leAt b 0 1
  let m := leAt b 1 1
  let members := leAt b 8 8
  let known : Bool := (List.range 64).all (fun n => !(bit members n) || (officerOf d n).run = .active || (officerOf d n).run = .locked)
  if m = 0 then
    (if c = 0 then ofcEnd stBAD_DESCRIPTOR 0 tickets d
     else ofcEnd stOK 0 tickets (dropClass c (modOfc (fun o => { o with classes := smapSet noneAt o.classes c none }) d)))
  else if !known then ofcEnd stBAD_DESCRIPTOR 8 tickets d
  else if popCount 64 members < m then ofcEnd stBAD_DESCRIPTOR 1 tickets d
  else ofcEnd stOK 0 tickets (dropClass c (modOfc (fun o => { o with
    classes := smapSet noneAt o.classes c (some ⟨members, m, leAt b 4 4⟩) }) d))

/-- UNLOCK (R320). -/
def ofcUnlock (n : Nat) (tickets : List Nat) (d : Dev) : Dev :=
  let st := (officerOf d n).run
  if st = .empty || st = .revoked then ofcEnd stBAD_DESCRIPTOR 0 tickets d
  else
    let d := if st = .locked then officerUnlock n d else d
    cardsNext (ofcEnd stOK 0 tickets (modOfficer n (fun o => { o with lockouts := 0 }) d))

/-- Whether a card is there and its interface may run it. -/
def cardUsable (d : Dev) (slot : Nat) : Bool := (cardOf d slot).present && cardServes d slot

/-- An operation waits for its card: a deactivated one is activated for it, an idle one is asked at once, and an exchange in progress is left
to its end (R304, R317). -/
def ofcWait (slot : Nat) (op : OfcOp) (d : Dev) : Dev :=
  let d := modOfc (fun o => { o with op := some op }) d
  if (cardOf d slot).run = .inactive then cardOn slot false d else cardNext slot d

/-- ENROL begins: its challenge is one of class 0 that no ticket can answer (R304, R310). -/
def ofcEnrol (b : Bytes) (tickets : List Nat) (d : Dev) : Dev :=
  let slot := leAt b 0 1
  let n := leAt b 1 1
  if (officerOf d n).run ≠ .empty || !(cardUsable d slot) then ofcEnd stBAD_DESCRIPTOR (if cardUsable d slot then 1 else 0) tickets d
  else match drawHomeless 32 d with
    | (none, d) => ofcEnd stENTROPY 0 tickets d
    | (some nonce, d) =>
      let (id, notAfter) := chalNext 0 d
      let chal := chalBytes 0 0xFFFF id nonce d.fuse.serial 0x2001 0 (sha384 b) notAfter d.nv.bootCnt
      ofcWait slot (.enrol slot n (slice b 8 16) chal 0 [] tickets.head?) (modOfc (fun o => { o with nextChal := id + 1 }) d)

/-- PIN begins (R317). -/
def ofcPin (b data : Bytes) (d : Dev) : Dev :=
  let slot := leAt b 0 1
  if !(cardUsable d slot) then ofcEnd stBAD_DESCRIPTOR 0 [] d else ofcWait slot (.pin slot data) d

/-- CHALLENGE (R309): the challenge is written at offset 0x48 of the argument block. -/
def ofcChallenge (addr : Nat) (b : Bytes) (d : Dev) : Dev :=
  let cls := leAt b 0 1
  if !(classUsable d cls) || slice b 10 6 ≠ zeros 6 then ofcEnd stBAD_DESCRIPTOR (if classUsable d cls then 10 else 0) [] d
  else match chalIssue cls 0xFFFF (leAt b 1 1 = 1) (leAt b 8 2) (leAt b 0x10 8) (slice b 0x18 48) d with
    | (none, d) => ofcEnd stENTROPY 0 [] d
    | (some (_, bs), d) =>
      let (r, d) := memStore2 (whoDevice 5 true) none (addr + 0x48) bs d
      cardsNext (if r = .ok then ofcEnd stOK 0 [] d else ofcEnd (memDenial r 2).1 (memDenial r 2).2 [] d)

/-- CEREMONY is left for SERVICE (R322): cause 2 CER_EXIT, 3 the timeout. -/
def cerLeave (cause : Nat) (d : Dev) : Dev :=
  let d := record 0x0303 (payBytes 8 [0, cause]) (mgrAbort mgMODE (enterMode .service (modOfc (fun o => { o with cerAt := none }) d)))
  raiseEv pgOFC 7 d

/-- An operation past its argument block and ticket. -/
def ofcRun (op addr : Nat) (b pinData : Bytes) (tickets : List Nat) (d : Dev) : Dev :=
  match op with
  | 1 => ofcEnrol b tickets d
  | 2 => ofcRevoke (leAt b 0 1) tickets d
  | 3 => ofcSetClass b tickets d
  | 4 => ofcEnd stOK 0 tickets (modInst (leAt b 0 2) (fun x => { x with custody := leAt b 2 1 }) d)
  | 5 => ofcUnlock (leAt b 0 1) tickets d
  | 6 => modOfc (fun o => { o with op := some (.cerEnter tickets.head?) }) { d with sys := { d.sys with draining := some ⟨.ceremony, none, d.cmd.cmds.map (·.tag)⟩ } }
  | 7 => ofcEnd stOK 0 tickets (cerLeave 2 d)
  | 8 => ofcChallenge addr b d
  | _ => ofcPin b pinData d

/-- The mode, life-cycle state and drains that an operation needs (R322, R325, R449). -/
def ofcModeOk (d : Dev) (op : Nat) : Bool :=
  ofcServes d && (op ≠ 6 || (d.sys.mode = .service && d.sys.draining.isNone && (d.sys.lc = .provision || d.sys.lc = .deployed)))
    && (op ≠ 7 || d.sys.mode = .ceremony)

/-- A written OP runs: mode, argument block, ticket, and the operation (R304-R308, R323). -/
def ofcStart (op addr : Nat) (arg tkt : Except Denial Bytes) (pinData : Bytes) (d : Dev) : Dev :=
  if !(ofcModeOk d op) then ofcEnd stMODE 0 [] d
  else match arg with
    | .error e => ofcEnd e.1 e.2 [] d
    | .ok b => match ofcArgFault op b with
      | some o => ofcEnd stBAD_DESCRIPTOR o [] d
      | none =>
        if !(ofcTicketed d op b) then ofcRun op addr b pinData [] d
        else if !(class0Ready d) then ofcEnd stPOLICY 70 [] d
        else match tkt with
          | .error e => ofcEnd e.1 e.2 [] d
          | .ok t =>
            if t.isEmpty then ofcEnd stQUORUM 0 [] d
            else match ticketsCheck [⟨0xFFFF, 0x2000 + op, 0, sha384 b, 0⟩] t [] d with
              | (.error e, d) => ofcEnd stTICKET e [] d
              | (.ok (ids, _), d) => ofcRun op addr b pinData ids d

/-- A write of OFC_CMD (R323, R324). -/
def ofcCmd (a : Access) (v : Nat) (d : Dev) : Dev :=
  let off := Reg.OFC_CMD_OP.off
  let j := judge a pgOFC off v d
  let d := j.d
  let op := bits v 3 0
  if !(j.took Reg.OFC_CMD_OP) || op = 0 || !(takesJobs d pgOFC) then d
  else if d.ofc.op.isSome then regErr pgOFC errOFC_BUSY (seenAs a) off d
  else
    let addr := fldPair d pgOFC Reg.OFC_ARG_LO_ADDR_LO Reg.OFC_ARG_HI_ADDR_HI
    let tkt := fldPair d pgOFC Reg.OFC_TKT_LO_ADDR_LO Reg.OFC_TKT_HI_ADDR_HI
    let n := ofcArgLen op
    let tn := fld d pgOFC Reg.OFC_TKT_LEN_LEN
    if (n ≠ 0 && !(secureRange d addr n)) || (tn ≠ 0 && !(secureRange d tkt tn)) then regErr pgOFC errOFC_ARG (seenAs a) off d
    else
      let (arg, d) := ofcRead 3 addr n d
      let (t, d) := ofcRead 5 tkt tn d
      let len := if op = 9 then leAt (arg.toOption.getD []) 1 1 else 0
      if len ≠ 0 && !(secureRange d (addr + 8) len) then regErr pgOFC errOFC_ARG (seenAs a) off d
      else
        let (pin, d) := ofcRead 3 (addr + 8) len d
        match pin with
        | .ok b => ofcStart op addr arg t b d
        | .error e => ofcStart op addr (.error e) t [] d

/-- The word that a row of OFC_CMD writes: its own OP. -/
def ofcRow (a : Access) (op v : Nat) (d : Dev) : Dev := ofcCmd a (setBits v 3 0 op) d

/-! ## CEREMONY and time -/

/-- Whether a drain still waits: a command that was in flight at its start has not left (R322, R448). -/
def drainBusy (d : Dev) : Bool :=
  match d.sys.draining with
  | some x => d.cmd.cmds.any (fun c => x.old.contains c.tag)
  | none => false

/-- The time of a lantern time-stamp (R404). -/
def timeOfStamp (d : Dev) (t : Nat) : Nat := d.lant.epochNs + nsOfTick t

/-! ## Cards (R316-R319) -/

/-- The protocols that interface bytes offer: follows TD bytes from a position; fuel bounds them. -/
def atrOffers1 : Nat → Bytes → Nat → Nat → Bool
  | 0, _, _, _ => false
  | f + 1, b, pos, y =>
    let next := pos + popCount 3 y
    if bit y 3 then
      let td := leAt b next 1
      td % 16 = 1 || atrOffers1 f b (next + 1) (td / 16)
    else false

/-- Whether an ATR offers T=1. -/
def atrT1 (atr : Bytes) : Bool := atrOffers1 8 atr 2 (leAt atr 1 1 / 16)

/-- A card that is not known is deactivated, and an operation that waits for it ends (R316, R318). -/
def cardUnknown (slot : Nat) (d : Dev) : Dev := ofcLost slot (raiseEv pgOFC 4 (cardOff slot d))

/-- A deactivation under R316, which OFC_CARD.FAULT shows until the next activation (R324). -/
def cardFaulty (slot : Nat) (d : Dev) : Dev := modCard slot (fun c => { c with fault := true }) d

/-- An ATR arrives: a card without T=1 is deactivated, any other is asked for an IFSD of 254 (R316). -/
def cardAtr (slot : Nat) (atr : Bytes) (d : Dev) : Dev :=
  if !(atrT1 atr) then cardUnknown slot (cardFaulty slot d)
  else emit (.cardIfs slot 254) (modCard slot (fun c => { c with wait := .ifs }) d)

/-- The answer to SELECT: the application is there, or the card is none of ours (R317). -/
def cardSelected (slot sw : Nat) (d : Dev) : Dev :=
  if sw = 0x9000 then cardNext slot (cardIdle slot (modCard slot (fun c => { c with sel := true }) d)) else cardUnknown slot d

/-- The answer to GET_IDENTITY of an inserted card (R318). -/
def cardIdentify (slot : Nat) (pk : Bytes) (d : Dev) : Dev :=
  match firstBelow 64 (fun n => (officerOf d n).run = .active && (officerOf d n).digest = sha384 pk) with
  | some n => cardNext slot (cardIdle slot (modCard slot (fun c => { c with officer := some n }) d))
  | none => cardUnknown slot d

/-- The answer to SIGN for an outstanding challenge (R318, R320): judged while its officer is ACTIVE, kept where it verifies and the challenge
keeps fewer than 16; then the next challenge. -/
def cardSigned (slot id : Nat) (sig : Bytes) (d : Dev) : Dev :=
  let d := cardIdle slot d
  cardNext slot (match (cardOf d slot).officer, chalOf d id with
    | some n, some c =>
      if (officerOf d n).run ≠ .active then d
      else if !(officerSigOk (officerOf d n).alg (officerOf d n).pk c.bytes sig) then officerFail n d
      else
        let d := officerPass n d
        if 16 ≤ c.signed.length || c.signed.contains n then d
        else raiseEv pgOFC 3 (modChal id (fun c => { c with signed := c.signed ++ [n] }) d)
    | _, _ => d)

/-- The answer to GET_IDENTITY of an enrolment: the key must be of a known form and new (R304). -/
def enrolIdentity (slot alg : Nat) (pk : Bytes) (d : Dev) : Dev :=
  match d.ofc.op with
  | some (.enrol _ n name chal _ _ t) =>
    if !(alg = 0x0102 || alg = 0x0312) || pk.length ≠ officerPkLen alg
        || (List.range 64).any (fun k => (officerOf d k).run ≠ .empty && (officerOf d k).digest = sha384 pk) then
      cardNext slot (ofcEnd stBAD_DESCRIPTOR 1 t.toList (cardIdle slot d))
    else
      let d := modOfc (fun o => { o with op := some (.enrol slot n name chal alg pk t) }) d
      cardAsk slot 0x80 0xA2 chal .enrolSign (modCard slot (fun c => { c with run := .signing }) d)
  | _ => cardNext slot (cardIdle slot d)

/-- The answer to SIGN of an enrolment (R304). -/
def enrolSigned (slot : Nat) (sig : Bytes) (d : Dev) : Dev :=
  match d.ofc.op with
  | some (.enrol _ n name chal alg pk t) =>
    if officerSigOk alg pk chal sig then
      let d := modOfficer n (fun _ => ⟨.active, alg, pk, sha384 pk, name, 0, 0, 0⟩) d
      cardsNext (ofcEnd stOK 0 t.toList (cardIdle slot (modCard slot (fun c => { c with officer := some n, ask := false }) d)))
    else cardNext slot (ofcEnd stBAD_DESCRIPTOR 1 t.toList (cardIdle slot d))
  | _ => cardNext slot (cardIdle slot d)

/-- The answer to VERIFY: PIN ends with the card's status, and the card may now sign what it refused before (R317, R318). -/
def pinAnswered (slot sw : Nat) (d : Dev) : Dev :=
  let d := cardIdle slot (modCard slot (fun c => { c with next := 0 }) d)
  match d.ofc.op with
  | some (.pin _ _) => cardNext slot (ofcEnd stOK sw [] d)
  | _ => cardNext slot d

/-- An answer that is no more than a status where data were asked for: an enrolment fails, a challenge stays unsigned, and an inserted card
is not known (R304, R318). -/
def cardRefused (slot : Nat) (w : CardWait) (d : Dev) : Dev :=
  match w with
  | .identity => cardUnknown slot d
  | .enrolId | .enrolSign => cardNext slot (ofcLost slot (cardIdle slot d))
  | .sign _ => cardNext slot (cardIdle slot d)
  | _ => d

end Sys2Proof.Machine
end

