-- ==== Sys2Proof/Machine/Stop.lean ====
section
/-! DEFINITION. What stops the block's work: the vigil latch, the halt sequence, the zeroise line, the wind-down before a reset,
and the fault controller's queue (R65, R66, R69, R160, R161, R268, R269, R399-R401, R405, R472-R478). -/

namespace Sys2Proof.Machine

/-! ## The vigil latch (R405) -/

/-- An entry of the latch: RESP is the rank of the executed response less one. -/
def latchWord (src : Nat) (a b : Bool) (resp time : Nat) : Nat :=
  2 ^ 63 + src * 2 ^ 58 + b2n b * 2 ^ 57 + b2n a * 2 ^ 56 + resp * 2 ^ 53 + time

/-- Changes the battery-backed domain. -/
def modLant (f : LanternSt → LanternSt) (d : Dev) : Dev := { d with lant := f d.lant }

/-- An entry is written: entries 0 to 14 stay, later ones overwrite entry 15. -/
def latchPut (w : Nat) (d : Dev) : Dev :=
  let d := modLant (fun l =>
    if l.latch.length < 16 then { l with latch := l.latch ++ [w] }
    else { l with latch := l.latch.take 15 ++ [w], lost := satAdd 255 l.lost 1 }) d
  if dieOn d.sys.mode then raiseEv pgVIG 0 d else d

/-! ## Discarding work (R267, R268) -/

/-- Every command, job, host read, DMA transfer and stalled read in progress is discarded. -/
def discardAll (d : Dev) : Dev :=
  let d := d.cmd.cmds.foldl (fun d c => discardCmd c d) d
  let d := d.units.foldl (fun d u => match u.2.job with
    | some c => ticketFree c.tickets (c.counted.foldl (fun d n => leave n d) d)
    | none => d) d
  let d := d.units.foldl (fun d u => if u.1 < 28 then setFld d (unitPage u.1) Reg.SYM_JOB_STAT_BUSY 0 else d) d
  let d := { d with units := (d.units.map (fun u => (u.1, { u.2 with cur := none, job := none, jobRom := false }))).filter (fun u => u.2 ≠ unitReset u.1) }
  let d := modCmdSt (fun s => { s with reads := [] }) d
  let d := { d with dma := [] }
  (List.range 4).foldl (fun d q => endStalls q d) d

/-- On every trained link an Uncorrectable Internal Error is reported (R69). -/
def aerInternal (d : Dev) : Dev :=
  [0, 1].foldl (fun d l =>
    if (linkOf d l).up then
      emit (.aerInternal l (fnOf d l 0).sevFatal) (modFn d l 0 (fun f => { f with aer := Nat.lor f.aer 2 }))
    else d) d

/-- IDE keys and SPDM sessions of both links are gone (R62, R68). -/
def ideLose (d : Dev) : Dev :=
  [0, 1].foldl (fun d l => modLink d l (fun k => { k with ide := [], sessions := [] })) d

/-- The fault controller's slots and queue are empty (R478). -/
def fltClear (d : Dev) : Dev := { d with flt := ⟨none, none, none, none, [], d.flt.escalated⟩, raised := [] }

/-- What entry to HALTED or ZEROISED ends besides: cards and challenges, transport sessions, a manager command, a drain, GPIO
outputs, throttling, fault slots (R291, R299, R325, R385, R478). -/
def stopRest (d : Dev) : Dev :=
  let d := ofcStop d
  let d := modMgr (fun m => { m with xports := [] }) (mgrAbort mgMODE d)
  let d := modOfc (fun o => { o with cerAt := none, op := none }) d
  let d := { d with sys := { d.sys with draining := none, stage := if d.sys.stage = .firmware || (d.sys.stage = .service && d.sys.mode = .zeroised) then d.sys.stage else .stopped } }
  let d := if fld d pgGPIO Reg.GPIO_DIR_OE = 0 then d
    else pinEdges (pinLines d) (emit (.gpio 0 (fld d pgGPIO Reg.GPIO_OUT_OUT)) (setFld d pgGPIO Reg.GPIO_DIR_OE 0))
  fltClear d

/-! ## The halt (R161, R268, R269) -/

/-- MPE_FAIL_KIND as a word (R275). -/
def failWord (f : MpeFail) : Nat := f.level * 256 + f.kind

/-- MPE_FAIL registers (R275). -/
def setFail (f : MpeFail) (d : Dev) : Dev :=
  let d := setFld (setFld d pgMPE1 Reg.MPE_FAIL_KIND_LEVEL f.level) pgMPE1 Reg.MPE_FAIL_KIND_KIND f.kind
  let d := setFld (setFld d pgMPE1 Reg.MPE_FAIL_ADDR_LO_ADDR_LO (f.addr / 64)) pgMPE1 Reg.MPE_FAIL_ADDR_HI_ADDR_HI (f.addr / 2 ^ 32)
  setFld d pgMPE1 Reg.MPE_FAIL_EPOCH_EPOCH f.epoch

/-- The ordered halt of the tamper monitor, of the fault controller and of the boot ROM (R269). -/
def orderedFail : MpeFail := ⟨0, 4, 0, 0⟩

/-- The Wells stop, and the generators forget (R241). -/
def entStop (d : Dev) : Dev := (List.range 6).foldl (fun d n => drbgLose n d) ((List.range 4).foldl (fun d q => wellStop q d) d)

/-- Event records that the fence holds are discarded (R266, R268). -/
def dropHeld (d : Dev) : Dev := { d with evr := { d.evr with held := [] } }

/-- The halt sequence of R268; one that is in progress, or HALTED or ZEROISED, takes no other. -/
def haltGo (f : MpeFail) (d : Dev) : Dev :=
  if d.mpe.halting || stopped d.sys.mode || !(dieOn d.sys.mode) then d
  else
    let d := entStop (dropHeld (discardAll (modMpe (fun m => { m with halting := true, failing := none }) (lcCut d))))
    let d := modCmdSt (fun s => { s with kCtx := none }) (mpeClear d)
    let d := record 0x0401 (payHalt (failWord f) f.epoch f.addr) (setFail f d)
    let d := emit .haltN { d with sys := { d.sys with haltPin := true } }
    let d := stopRest (enterMode .halted (aerInternal (rootCut d)))
    let d := if vaultWritable d then vaultDrain d else d
    keyClear (flushEvents (ideLose d))

/-- A verification failure that has been noted halts the device, once (R260, R268). -/
def haltIfFailed (d : Dev) : Dev :=
  match d.mpe.failing with
  | some f => modMpe (fun m => { m with failing := none }) (haltGo f d)
  | none => d

/-! ## The zeroise line (R160, R400) -/

/-- The items of R400 are cleared. -/
def secretsClear (d : Dev) : Dev :=
  let d := modLant (fun l => { l with root := none }) d
  if !(dieOn d.sys.mode) then d
  else
    let d := modCmdSt (fun s => { s with kCtx := none }) (mpeClear (keyClear d))
    let d := ideLose ((List.range 6).foldl (fun d n => drbgLose n d) d)
    modMgr (fun m => { m with xports := [] }) (modOfc (fun o => { o with chals := [] }) d)

/-- The line asserts: every listed secret is cleared, the flag is set, and with the die powered the device enters ZEROISED. -/
def zeroise (d : Dev) : Dev :=
  let d := modLant (fun l => { l with zeroised := true }) d
  if !(dieOn d.sys.mode) then secretsClear d
  else
    let was := d.sys.mode = .zeroised
    let d := rootCut (if stopped d.sys.mode then d else dropHeld (discardAll (lcCut d)))
    let d := entStop d
    let d := modMpe (fun m => { m with halting := true, failing := none }) (secretsClear d)
    if was then d
    else
      let d := emit .zeroN { d with sys := { d.sys with zeroPin := true } }
      stopRest (enterMode .zeroised (aerInternal d))

/-! ## The wind-down (R476) -/

/-- The completion of a discarded command, where its function is in force and its CQ takes entries. -/
def postHalting (c : Cmd) (d : Dev) : Dev :=
  if instReachable d c.inst && !c.mute then postCqe c (failed stHALTING 0) d else d

/-- Messages that coalesced completions still call for go out (R93). -/
def coalFlush (d : Dev) : Dev :=
  (d.cmd.coal.filter (fun kv => kv.2 ≠ 0 && qFld d (kv.1 / 16) (kv.1 % 16) Reg.CQ_CFG_IRQ_EN = 1)).foldl (fun d kv => coalSend (kv.1 / 16) (kv.1 % 16) d) d

/-- Steps 1 to 4 of R476. -/
def windDown (d : Dev) : Dev :=
  let cs := d.cmd.cmds
  let d := coalFlush (cs.foldl (fun d c => postHalting c d) (rootCut (discardAll d)))
  flushEvents (if vaultWritable d then vaultDrain d else d)

/-! ## Function and link resets (R65, R66) -/

/-- A reset of functions of a link, listed by SR-IOV number. -/
def funcsReset (l : Nat) (ns : List Nat) (d : Dev) : Dev :=
  raiseEv pgHOST 4 (ns.foldl (fun d n => funcReset l n d) d)

/-- A manager command ends with HOST_ACCESS when its PF takes a reset (R299). -/
def mgrPfReset (l : Nat) (d : Dev) : Dev :=
  if fld d pgHOST Reg.HOST_CFG_MGR_LINK = l then mgrAbort mgHOST d else d

/-- The PF and every VF of a link that serves an instance (R65). -/
def linkFuncsReset (l : Nat) (d : Dev) : Dev :=
  let d := mgrPfReset l (funcsReset l (0 :: (List.range (linkOf d l).numVfs).map (· + 1)) d)
  modLink d l (fun k => { k with vfEnable := false, numVfs := 0 })

/-- All functions of a link are reset, its streams, sessions and responder forget their state (R62, R65). -/
def linkReset' (l : Nat) (d : Dev) : Dev :=
  let d := linkFuncsReset l d
  let d := modLink d l (fun k => { linkReset with training := k.training })
  satFld d pgHOST Reg.HOST_RESET_CNT_LINK 1

/-! ## The fault controller (R472-R478) -/

/-- Changes the fault controller. -/
def modFlt (f : FltSt → FltSt) (d : Dev) : Dev := { d with flt := f d.flt }

/-- Rank of a class. -/
def fltRank : FltClass → Nat
  | .core => 1 | .quarter => 2 | .reset => 3 | .halt => 4

/-- The slot of a class. -/
def fltSlot (d : Dev) : FltClass → Option Flt
  | .core => d.flt.core | .quarter => d.flt.quarter | .reset => d.flt.rst | .halt => d.flt.halt

/-- Sets the slot of a class. -/
def setSlot (c : FltClass) (x : Option Flt) (d : Dev) : Dev :=
  modFlt (fun f => match c with
    | .core => { f with core := x } | .quarter => { f with quarter := x }
    | .reset => { f with rst := x } | .halt => { f with halt := x }) d

/-- A hart's quarter. -/
def hartQuarter (h : Nat) : Nat := h / 4

/-- The class of a core fault at this moment (R351, R472). -/
def fixClass (d : Dev) (f : Flt) : Flt :=
  if f.cls = .core && 2 ≤ (quarterOf d (hartQuarter f.subj)).resets then
    (if hartQuarter f.subj = 0 then ⟨.halt, 4, 0⟩ else ⟨.quarter, f.cause, hartQuarter f.subj⟩)
  else f

/-- Whether two faults have one subject (R473). -/
def sameSubject (a b : Flt) : Bool :=
  match a.cls, b.cls with
  | .core, .core => a.subj = b.subj
  | .quarter, .quarter => a.subj = b.subj
  | .reset, .reset | .reset, .halt | .halt, .reset | .halt, .halt => true
  | _, _ => false

/-- Faults in slots and in the queue. -/
def fltAll (d : Dev) : List Flt :=
  d.flt.core.toList ++ d.flt.quarter.toList ++ d.flt.rst.toList ++ d.flt.halt.toList ++ d.flt.queue

/-- Whether a class may start: its slot and every higher one are empty (R473). -/
def fltFree (d : Dev) (c : FltClass) : Bool :=
  [FltClass.core, .quarter, .reset, .halt].all (fun k => fltRank k < fltRank c || (fltSlot d k).isNone)

/-- A fault enters its slot (R475, R477): SYS_FLT_LAST, FAULT, the record; RESET and HALT abandon everything below. -/
def enterSlot (f : Flt) (d : Dev) : Dev :=
  let d := setSlot f.cls (some f) d
  let d := setFld (setFld (setFld d pgSYS Reg.SYS_FLT_LAST_SUBJECT f.subj) pgSYS Reg.SYS_FLT_LAST_CAUSE f.cause) pgSYS
    Reg.SYS_FLT_LAST_CLASS (fltRank f.cls)
  let d := raiseEv pgSYS 4 d
  match f.cls with
  | .core => record 0x0205 (payBytes 8 [f.subj, f.cause, (quarterOf d (hartQuarter f.subj)).resets + 1]) d
  | .quarter => record 0x0206 (payBytes 8 [f.subj]) d
  | .reset => modFlt (fun x => { x with core := none, quarter := none, queue := [] }) d
  | .halt => modFlt (fun x => { x with core := none, quarter := none, rst := none, queue := [] }) d

end Sys2Proof.Machine
end

