-- ==== Sys2Proof/Machine/Wake.lean ====
section
/-! DEFINITION. The wake from DROWSE, and the requests of a host that bring it (R68, R456, R457). -/

namespace Sys2Proof.Machine

/-- Entry to SERVICE from a mode in which the officer block and the manager did not serve: cards that are present are activated, and
resets left unfinished run to their end (R278, R297, R316, R325). -/
def serviceEnter (d : Dev) : Dev :=
  let d := enterMode .service d
  let d := [0, 1].foldl (fun d i => if (cardOf d i).present && (cardOf d i).run = .inactive && cardServes d i then cardOn i true d else d) d
  resumeResets d

/-- The wake: 40 µs, the quarters as they were, SERVICE, and MODE_REQUEST returns DONE with the wake source (R457); no watchdog has
counted meanwhile (R478), those of a quarter that stays GATED going on to stand still. -/
def wake (src : Nat) (d : Dev) : Dev :=
  if d.sys.mode ≠ .drowse then d
  else
    let d := waitUntil (d.now + 40000) d
    let x := d.hearth
    let gone := d.now - x.drowseAt
    let d := { d with hearth := { x with
        quarters := x.drowsePrior, drowsePrior := [], drowseHart := none, diePll := true, measuring := false
        scale := if d.tamp.throttleEnd.isSome || d.tamp.throttling ≠ 0 then 1 else 0 } }
    let d := (List.range 16).foldl (fun d h => modHart d h (fun y =>
      { y with wdStart := if y.run = .off || (quarterOf d (h / 4)).pwr ≠ .on then y.wdStart else y.wdStart + gone })) d
    let d := match x.drowseHart with
      | some h => trapOut h (modHart d h (fun y => { y with args := [0, src] }))
      | none => d
    syncPorts (raiseEv pgPWR 1 (setFld (serviceEnter d) pgPWR Reg.PWR_DROWSE_WAKE_SRC src))

/-- A TLP arrives on a link that is up: it wakes the device (R68). -/
def tlpWake (link : Option Nat) (d : Dev) : Dev :=
  if link.any (fun l => (linkOf d l).up) then wake 1 d else d

/-- The link over which a view reaches the device. -/
def viaLink (d : Dev) : Via → Option Nat
  | .direct => none
  | .pf l _ => some l
  | .vf i _ => (instFn d i).map (·.1)


/-- A channel as a master: its world is that of DMA_CFG and of its page (R380). -/
def whoDma (d : Dev) (ch : Nat) : Who :=
  ⟨fldB d (pgDMA ch) Reg.DMA_CFG_WORLD && (hdrOf d (pgDMA ch)).secure, false, 1, ch⟩

/-- The debug transport as a master: secure while SID and SBA_SECURE are 1. -/
def whoDebug (d : Dev) : Who := ⟨bit (dbgEnables d) 3 && fldB d pgDBG Reg.DBG_CFG_SBA_SECURE, false, 5, 0⟩

/-- The world that an access carries (R13, R329, R368): a core's is that of its world CSR, unless it is in machine mode, for which a secure
access of a core in the non-secure world stands; a channel's is its own, a host's non-secure, an engine's and the command processor's
secure, a device master's as it says. -/
def accSec (d : Dev) (a : Access) : Bool :=
  match a.cls with
  | 0 => a.sec || (hartOf d a.idx).world
  | 1 => (whoDma d a.idx).sec
  | 2 => false
  | 3 | 4 => true
  | 5 => (whoDebug d).sec
  | _ => a.sec

/-- An access with the world that its master gives it. -/
def accSeen (d : Dev) (a : Access) : Access := { a with sec := accSec d a }

end Sys2Proof.Machine
end

