-- ==== Sys2Proof/Machine/Run.lean ====
section
/-! DEFINITION. How every meaning answers. -/

namespace Sys2Proof.Machine

/-- Every meaning answers a next state. The external actions of the last command are dropped first, the queue stays as it is, and a
verification failure that the command brought to light halts the device (R260, R268). -/
def runDev (s : State) (f : Dev → Dev) : Host.Outcome State Fault Refusal :=
  .next { s with dev := haltIfFailed (f { s.dev with out := [], bus := none }) }

/-- A meaning that arrives as a TLP on a link, which wakes the device first (R68). -/
def runTlp (link : Nat) (s : State) (f : Dev → Dev) : Host.Outcome State Fault Refusal :=
  runDev s fun d => f (tlpWake (some link) d)

/-- A meaning that a register access brings: a host's is a TLP (R42, R68), and each master's carries the world that is its own (R13,
R329). -/
def runAcc (a : Access) (s : State) (f : Access → Dev → Dev) : Host.Outcome State Fault Refusal :=
  runDev s fun d => f (accSeen d a) (tlpWake (viaLink d a.via) d)

end Sys2Proof.Machine
end

