-- ==== Sys2Proof/Machine/MgrCmds.lean ====
section
/-! DEFINITION. The commands of the manager, of the mailboxes and of the event queue (R276-R302): one meaning for each row. -/

namespace Sys2Proof.Machine

/-- ASSIGN: an UNUSED instance gets its quotas and is ASSIGNED (R277, R279, R287). -/
def execAssign (a : Access) (sel param : Nat) (s : State) : Host.Outcome State Fault Refusal :=
  runAcc a s fun a => (mgrIssue a 0x01 sel (some param) none)

/-- SET_QUOTA (R279). -/
def execSetQuota (a : Access) (sel param : Nat) (s : State) : Host.Outcome State Fault Refusal :=
  runAcc a s fun a => (mgrIssue a 0x02 sel (some param) none)

/-- QUIESCE (R277, R280). -/
def execQuiesce (a : Access) (sel : Nat) (s : State) : Host.Outcome State Fault Refusal :=
  runAcc a s fun a => (mgrIssue a 0x03 sel none none)

/-- RESUME (R277). -/
def execResume (a : Access) (sel : Nat) (s : State) : Host.Outcome State Fault Refusal :=
  runAcc a s fun a => (mgrIssue a 0x04 sel none none)

/-- FREEZE: accepted in QUIESCED, ended by FREEZE_DONE (R282). -/
def execFreeze (a : Access) (sel : Nat) (s : State) : Host.Outcome State Fault Refusal :=
  runAcc a s fun a => (mgrIssue a 0x05 sel none none)

/-- THAW (R277, R284). -/
def execThaw (a : Access) (sel : Nat) (s : State) : Host.Outcome State Fault Refusal :=
  runAcc a s fun a => (mgrIssue a 0x06 sel none none)

/-- RESET of an instance (R286, R287). -/
def execReset (a : Access) (sel : Nat) (s : State) : Host.Outcome State Fault Refusal :=
  runAcc a s fun a => (mgrIssue a 0x07 sel none none)

/-- REMOVE (R286, R287). -/
def execRemove (a : Access) (sel : Nat) (s : State) : Host.Outcome State Fault Refusal :=
  runAcc a s fun a => (mgrIssue a 0x08 sel none none)

/-- DISCARD (R286). -/
def execDiscard (a : Access) (sel : Nat) (s : State) : Host.Outcome State Fault Refusal :=
  runAcc a s fun a => (mgrIssue a 0x09 sel none none)

/-- XPORT_OFFER on the destination (R290-R293). -/
def execXportOffer (a : Access) (sel param : Nat) (s : State) : Host.Outcome State Fault Refusal :=
  runAcc a s fun a => (mgrIssue a 0x10 sel (some param) none)

/-- XPORT_ACCEPT on the source (R290-R293). -/
def execXportAccept (a : Access) (sel param : Nat) (input : HostData) (s : State) : Host.Outcome State Fault Refusal :=
  runAcc a s fun a => (mgrIssue a 0x11 sel (some param) input)

/-- XPORT_COMPLETE on the destination (R290, R292). -/
def execXportComplete (a : Access) (sel param : Nat) (input : HostData) (s : State) : Host.Outcome State Fault Refusal :=
  runAcc a s fun a => (mgrIssue a 0x12 sel (some param) input)

/-- EXPORT (R294-R296). -/
def execMgrExport (a : Access) (sel param : Nat) (input : HostData) (s : State) : Host.Outcome State Fault Refusal :=
  runAcc a s fun a => (mgrIssue a 0x13 sel (some param) input)

/-- IMPORT (R297, R298). -/
def execMgrImport (a : Access) (sel param : Nat) (input : HostData) (s : State) (again : Option HostData := none) : Host.Outcome State Fault Refusal :=
  runAcc a s fun a d => mgrIssue a 0x14 sel (some param) input d again

/-- XPORT_CLOSE of the session in MGR_PARAM (R291). -/
def execXportClose (a : Access) (param : Nat) (s : State) : Host.Outcome State Fault Refusal :=
  runAcc a s fun a => (mgrIssue a 0x15 0 (some param) none)

/-- QUIESCE_DRAINED: a QUIESCING instance without a command in flight is QUIESCED (R277, R280). -/
def execQuiesceDrained (inst : Nat) (s : State) : Host.Outcome State Fault Refusal :=
  runDev s fun d => if inst < 1024 then quiesceStep inst d else d

/-- FREEZE_DONE: every key of a freezing instance is idle, and it is FROZEN (R282). -/
def execFreezeDone (inst : Nat) (s : State) : Host.Outcome State Fault Refusal :=
  runDev s fun d => if inst < 1024 then freezeStep inst d else d

/-- XPORT_SESSION_EXPIRE: a session closes 600 s after it opened (R291). -/
def execXportSessionExpire (id : Nat) (s : State) : Host.Outcome State Fault Refusal :=
  runDev s fun d =>
    match xportOf d id with
    | some x => xportShut id (waitUntil (x.openAt + 600000000000) d)
    | none => d

/-- MGR_MB_SEND: a write to MGR_MB_CTL with SEND (R288). -/
def execMgrMbSend (a : Access) (val : Nat) (s : State) : Host.Outcome State Fault Refusal :=
  runAcc a s fun a => (mgrWrite a Reg.MGR_MB_CTL_SEND.off (setBit (setBit val 31 true) 17 false) none)

/-- MGR_MB_EMPTY: a write to MGR_MB_CTL with IN_FULL (R288). -/
def execMgrMbEmpty (a : Access) (val : Nat) (s : State) : Host.Outcome State Fault Refusal :=
  runAcc a s fun a => (mgrWrite a Reg.MGR_MB_CTL_IN_FULL.off (setBit (setBit val 17 true) 31 false) none)

/-- INST_MB_SEND: a write to INST_MB_CTL with SEND (R288). -/
def execInstMbSend (a : Access) (inst val : Nat) (s : State) : Host.Outcome State Fault Refusal :=
  runAcc a s fun a => (instWrite a inst Reg.INST_MB_CTL_SEND.off (setBit (setBit val 31 true) 17 false))

/-- INST_MB_EMPTY: a write to INST_MB_CTL with IN_FULL (R288). -/
def execInstMbEmpty (a : Access) (inst val : Nat) (s : State) : Host.Outcome State Fault Refusal :=
  runAcc a s fun a => (instWrite a inst Reg.INST_MB_CTL_IN_FULL.off (setBit (setBit val 17 true) 31 false))

end Sys2Proof.Machine
end

