-- ==== Sys2Proof/Machine/Lifecycle.lean ====
section
/-! DEFINITION. The life-cycle controller: transitions, token rows, the wipe of SCRAP, the roll-forward at boot and the ROM transition
service (R410-R420, R427). -/

namespace Sys2Proof.Machine

/-- LC_RESULT codes (R427). -/
def lcDONE := 0
def lcSTATE := 1
def lcTOKEN := 2
def lcPOWER := 3
def lcPRECOND := 4
def lcROW := 5
def lcMODE := 6

def errOP_BUSY := 0x0100
def errARG_ADDR := 0x0101

/-! ## What a transition asks (R415) -/

/-- Token rows that admit a transition; none where the table has no such pair. -/
def lcRows (src dst : Lc) : List Nat :=
  match src, dst with
  | .raw, .test => [0]
  | .test, .factory => [1]
  | .factory, .provision => [2]
  | .provision, .deployed => [4]
  | .deployed, .returned => [5]
  | .raw, .scrap | .test, .scrap | .factory, .scrap => [3]
  | .provision, .scrap | .deployed, .scrap => [6]
  | .returned, .scrap | .locked, .scrap => [3, 6]
  | _, _ => []

/-- Further preconditions. -/
def lcPrecond (src dst : Lc) (d : Dev) : Bool :=
  match src, dst with
  | .raw, .test => (List.range 4).all (rowSet d)
  | .provision, .deployed =>
    d.lant.root.isSome && class0Ready d && d.fuse.owner.any (fun r => r.digest.isSome) && rowSet d 5 && rowSet d 6
  | _, _ => true

/-- The supply check of step 2 of R416. -/
def lcSupply (d : Dev) : Bool := d.sup.p12vGood && bankLcOk d

/-- The state whose pairs the controller takes: in ZEROISED the one the vote gives (R415). -/
def lcFrom (d : Dev) : Lc := if d.sys.mode = .zeroised then lcOfVote (lcVote d.fuse) else d.sys.lc

/-- Step 1 and 2 of R416: the row that the token matches, or the LC_RESULT of the first failing check; in ZEROISED only the
transitions of R401. -/
def lcCheck (dst : Lc) (token : Bytes) (d : Dev) : Except Nat Nat :=
  let rows := lcRows (lcFrom d) dst
  if rows.isEmpty || (d.sys.mode = .zeroised && dst ≠ .returned && dst ≠ .scrap) then .error lcSTATE
  else match rows.find? (fun r => smapGet noneAt d.fuse.rows r = some (sha384 token)) with
    | none => .error lcTOKEN
    | some r =>
      if !(lcPrecond (lcFrom d) dst d) then .error lcPRECOND
      else if !(lcSupply d) then .error lcPOWER else .ok r

/-! ## Entry effects (R415, R420) -/

/-- MRAM in full, apart from the journal and the wipe marker: the log and its SEQ, officer records and classes, the retired-slot list, the
anti-rollback cells, instance states, boot and host configuration records, the hold-up measurements, the wear history (R164, R420 step 6). -/
def mramWipe (d : Dev) : Dev :=
  let d := wipeMem d 0x4000_0000 0x41FF_FFFF
  let d := { d with nv := { d.nv with
      bootCnt := 0, actSlot := 0, trial := false, trialUsed := false, grant := none, rootMark := false
      evSeq := 1, log := [], logPos := [], logFull := [], capUf := 0, esrMohm := 0, shipUse := 0, measAt := 0, lastDur := 0, lastMargin := 0
      save := none } }
  let d := modKey (fun k => { k with pound := [], cells := List.replicate 64 0, spares := 192, frozen := false, journal := ⟨0, 0, []⟩ }) d
  let d := modOfc (fun o => { o with officers := [], classes := [] }) { d with wear := { d.wear with used := [], history := [], wearEnd := false } }
  modMgr (fun m => { m with insts := [] }) d

/-- The wipe of SCRAP (R420); on a repeated wipe the line has no effect beyond clearing. -/
def scrapWipe (again : Bool) (d : Dev) : Dev :=
  let d := if again then secretsClear d else zeroise d
  let d := { d with nv := { d.nv with grant := none } }
  let d := { d with fuse := { d.fuse with
      secret := List.replicate 32 0xFF, trimBlown := true, owner := d.fuse.owner.map (fun r => { r with revoked := true }) } }
  let d := { modKey (fun k => { k with homes := [], epoch := 0, epochStart := 0, check := [], highest := none, hdrB := ⟨0, 0, [], none⟩ }) d with
    nv := { d.nv with slots := [] } }
  let d := mramWipe d
  { d with nv := { d.nv with wiped := true } }

/-- Effects that R415 orders before programming: the zeroise line of RETURNED. -/
def lcBefore (dst : Lc) (d : Dev) : Dev := if dst = .returned then zeroise d else d

/-- The remaining effects. -/
def lcAfter (atBoot : Bool) (dst : Lc) (d : Dev) : Dev :=
  let unset := regPut d pgDBG Reg.DBG_CFG_NSNID.off 0
  match dst with
  | .factory => { unset with sys := { d.sys with dbgGranted := 0 } }
  | .provision => { unset with sys := { d.sys with dbgGranted := 0 }, nv := { d.nv with grant := none } }
  | .deployed => armLoops true true d
  | .returned => modLant (fun l => { l with zeroised := false }) { d with nv := { d.nv with grant := none } }
  | .scrap => modLant (fun l => { l with zeroised := false }) (scrapWipe atBoot d)
  | _ => d

/-- Payload of LC_TRANSITION and LC_ROLLED. -/
def payLc (j : Journal) : Bytes := payBytes 8 [lcIdx (lcOfVote j.src), lcIdx (lcOfVote j.dst), j.row]

/-! ## The controller's operations (R414, R416) -/

/-- LC_RESULT. -/
def lcResult (code : Nat) (d : Dev) : Dev := setFld d pgLC Reg.LC_RESULT_CODE code

/-- Steps 3 and 4 of R416; the programming then runs. -/
def lcStart (dst : Lc) (row : Nat) (d : Dev) : Dev :=
  let src := lcVote d.fuse
  let d := { d with nv := { d.nv with journal := some ⟨src, lcCode dst, row⟩ } }
  let d := lcBefore dst d
  { d with lc := { d.lc with op := some (.transition src (lcCode dst) row) } }

/-- A transition request: whether it started, or the code it ends with. -/
def lcTransition (target : Nat) (token : Bytes) (d : Dev) : Option Nat × Dev :=
  match lcOfByte target with
  | none => (some lcSTATE, lcResult lcSTATE d)
  | some dst => match lcCheck dst token d with
    | .error e => (some e, lcResult e d)
    | .ok row => (none, lcStart dst row d)

/-- A TOKEN_SET request (R414). -/
def lcTokenSet (row : Nat) (digest : Bytes) (d : Dev) : Option Nat × Dev :=
  let st : Bool := if row < 4 then d.sys.lc = .raw else row < 8 && d.sys.lc = .provision
  if !st || rowSet d row || !d.sup.p12vGood then (some lcROW, lcResult lcROW d)
  else if !(lcSupply d) then (some lcPOWER, lcResult lcPOWER d)
  else (none, { d with lc := { d.lc with op := some (.tokenSet row digest) } })

/-- The result that the ROM transition service reports (R419). -/
def svcCode (lc : Nat) : Nat := if lc = lcDONE then mgDONE else if lc = lcTOKEN then mgTICKET else mgMODE

/-- The service ends a request: MGR_RESULT, MGR_RES_VAL, BUSY. -/
def svcEnd (code val : Nat) (d : Dev) : Dev :=
  let d := setFld (setFld d pgMGR Reg.MGR_RESULT_CODE code) pgMGR Reg.MGR_RESULT_INFO 0
  modMgr (fun m => { m with busy := none }) (setFld d pgMGR Reg.MGR_RES_VAL_VAL val)

/-- Step 6 of R416, and the end of TOKEN_SET. -/
def lcFinish (d : Dev) : Dev :=
  match d.lc.op with
  | none => d
  | some op =>
    let rom := d.lc.viaRom
    let d := { lcBurn op d with lc := ⟨none, false⟩ }
    let d := if rom then modMgr (fun m => { m with busy := none }) d else d
    let d := match op with
      | .tokenSet _ _ => lcResult lcDONE d
      | .transition src dst row =>
        let d := lcAfter false (lcOfVote dst) d
        let d := { d with nv := { d.nv with journal := none } }
        let d := record 0x0101 (payLc ⟨src, dst, row⟩) d
        let d := if lcOfVote dst = .provision then record 0x0201 [] d else d
        lcResult lcDONE (raiseEv pgLC 1 d)
    let d := raiseEv pgLC 0 d
    if rom then svcEnd mgDONE lcDONE { d with sys := { d.sys with stage := .service } } else d

/-! ## LC_CMD (R416, R427) -/

/-- A read of memory by a unit that R368 gives no master of its own: no check is made of it. -/
def plainFetch (a n : Nat) (d : Dev) : Bytes × Dev :=
  (partsOf a n).foldl (fun (acc : Bytes × Dev) p =>
    if zoneOf p.1 = .dram && !(mpeServes acc.2) then (acc.1 ++ zeros p.2, acc.2)
    else let (_, b, _, d) := readPart false p.1 p.2 acc.2; (acc.1 ++ b, d)) ([], d)

/-- The operation that a write to LC_CMD starts. v is the word written, its ROW already in the register. -/
def lcRun (a : Access) (v : Nat) (d : Dev) : Dev :=
  let op := bits v 3 0
  let addr := fld d pgLC Reg.LC_ARG_LO_ADDR_LO * 8 + fld d pgLC Reg.LC_ARG_HI_ADDR_HI * 2 ^ 32
  let n := if op = 1 then 32 else 48
  if op = 0 || !(takesJobs d pgLC) then d
  else if !(secureRange d addr n) then regErr pgLC errARG_ADDR a Reg.LC_CMD_OP.off d
  else if op = 1 && d.sys.mode ≠ .startup && d.sys.mode ≠ .service then lcResult lcMODE d
  else
    let (b, d) := plainFetch addr n d
    if op = 1 then (lcTransition (fld d pgLC Reg.LC_TARGET_TARGET) b d).2 else (lcTokenSet (bits v 7 4) b d).2

/-- A write to a block register of the LC page that the page admits (R418, R427). -/
def lcReg (a : Access) (off v : Nat) (d : Dev) : Dev :=
  if off = Reg.LC_CMD_OP.off && d.lc.op.isSome && bits v 3 0 ≠ 0 then regErr pgLC errOP_BUSY a off d
  else
    let j := judgePlain .lc a pgLC off v d
    if off = Reg.LC_CMD_OP.off && j.took Reg.LC_CMD_OP then lcRun a v j.d else j.d

/-- A write to a block register of the LC page by a master. -/
def lcWrite (a : Access) (off v : Nat) (d : Dev) : Dev :=
  match admitWrite (seenAs a) pgLC off d with
  | (some _, d) => lcReg (seenAs a) off (v % 2 ^ 32) d
  | (none, d) => d

/-! ## The ROM transition service (R419) -/

/-- A request of the service, as read. -/
def svcRun (b : Bytes) (d : Dev) : Dev :=
  let target := leAt b 0 1
  let op := leAt b 1 1
  if 1 < op || slice b 2 14 ≠ zeros 14 || (op = 0 && slice b 0x30 16 ≠ zeros 16) || (op = 1 && (3 < target || d.sys.lc ≠ .raw)) then
    svcEnd mgBAD_ARG 0 d
  else
    let d := { d with lc := ⟨none, true⟩ }
    let (r, d) := if op = 0 then lcTransition target (slice b 0x10 32) d else lcTokenSet target (slice b 0x10 48) d
    match r with
    | some e => svcEnd (svcCode e) e { d with lc := ⟨none, false⟩ }
    | none => { d with sys := { d.sys with stage := .service } }

/-- Host software has written 0x4C43_5452 to MGR_PARAM while the service waits. -/
def svcGo (req : HostData) (d : Dev) : Dev :=
  if d.sys.stage ≠ .service || d.mgr.busy.isSome || fld d pgMGR Reg.MGR_PARAM_PARAM ≠ 0x4C43_5452 then d
  else
    let d := modMgr (fun m => { m with busy := some (0, 0) }) d
    if fld d pgMGR Reg.MGR_IN_LEN_LEN ≠ 64 then svcEnd mgBAD_ARG 0 d
    else match mgrInput req d with
      | (none, d) => svcEnd mgHOST 0 d
      | (some b, d) => svcRun b d

/-! ## The roll-forward (R411, R417) -/

/-- The journal is cleared after its effects: ROLLED and its record. -/
def lcRolled (j : Journal) (d : Dev) : Dev :=
  let d := lcAfter true (lcOfVote j.dst) d
  let d := { d with nv := { d.nv with journal := none }, sys := { d.sys with rolled := true } }
  recordRom 0x0102 (payLc j) d

/-- What the journal asks of step 2 of R333. -/
inductive Roll where
  /-- no entry, or one that leaves the device LOCKED -/
  | none
  /-- the vote is TO already -/
  | done (j : Journal)
  /-- the vote lies between FROM and TO -/
  | between (j : Journal)
deriving DecidableEq, Repr

/-- The table of R417. -/
def lcRoll (d : Dev) : Roll :=
  match d.nv.journal with
  | Option.none => .none
  | some j =>
    let v := lcVote d.fuse
    if v = j.dst then .done j
    else if bitsIn j.src v && bitsIn v j.dst then .between j else .none

/-- The second line of the table, once the supply suffices. -/
def lcResume (j : Journal) (d : Dev) : Dev :=
  lcRolled j (lcProgram j.dst (lcBefore (lcOfVote j.dst) d))

end Sys2Proof.Machine
end

