-- ==== Sys2Proof/Machine/Image.lean ====
section
/-! DEFINITION. Firmware images and the host configuration record: their layouts and the checks the boot ROM and the monitor make of
them (R334, R336-R342). -/

namespace Sys2Proof.Machine

/-! ## The host configuration record (R334) -/

/-- One bit of the CRC-32 of IEEE 802.3, reflected. -/
def crcBit (c : Nat) : Nat := if c % 2 = 1 then Nat.xor (c / 2) 0xEDB88320 else c / 2

/-- CRC-32 of a string. -/
def crc32 (b : Bytes) : Nat :=
  Nat.xor 0xFFFFFFFF (b.foldl (fun c x => (List.range 8).foldl (fun c _ => crcBit c) (Nat.xor c x.toNat)) 0xFFFFFFFF)

/-- Place of the host configuration record: the start of the monitor area (R164, R334). -/
def hostcfgAt : Nat := 0x4000_0000

/-- Whether a record may be applied: magic, version, CRC, reserved bits, and the limits of R74. -/
def hostcfgOk (b : Bytes) : Bool :=
  let cfg := leAt b 8 4
  b.length = 32 && b.take 4 = ascii "ADKH" && leAt b 4 1 = 1 && leAt b 0x1C 4 = crc32 (b.take 0x1C)
    && Nat.land cfg 0x0FFF1113 = cfg && leAt b 0x0C 4 < 128 && leAt b 0x10 8 % 2 ^ 30 = 0
    && bits cfg 27 16 ≤ 1024 && !(bit cfg 4 && !(linkInMode (bits cfg 1 0) 1)) && !(bit cfg 8 && !(linkInMode (bits cfg 1 0) 1))

/-- The record's values go to the HOST page. -/
def hostcfgApply (b : Bytes) (d : Dev) : Dev :=
  let d := regPut (regPut d pgHOST Reg.HOST_CFG_PORT_MODE.off (leAt b 8 4)) pgHOST Reg.HOST_SMB_ADDR_ADDR.off (leAt b 0x0C 4)
  regPut (regPut d pgHOST Reg.HOST_OBW_BASE_LO_BASE_LO.off (leAt b 0x10 4)) pgHOST Reg.HOST_OBW_BASE_HI_BASE_HI.off (leAt b 0x14 4)

/-! ## Images (R336) -/

/-- SIGBLK_LEN that a SIG_ALG calls for. -/
def sigblkLen (alg : Nat) : Nat := if alg = 1 then 200 else if alg = 2 then 5264 else 5464

/-- Header fields. -/
def imgAlg (b : Bytes) : Nat := leAt b 6 2
def imgFlags (b : Bytes) : Nat := leAt b 8 4
def imgSvn (b : Bytes) : Nat := leAt b 0x0C 4
def imgVer (b : Bytes) : Nat := leAt b 0x10 4
def imgBodyLen (b : Bytes) : Nat := leAt b 0x18 8
def imgLoad (b : Bytes) : Nat := leAt b 0x20 8
def imgEntry (b : Bytes) : Nat := leAt b 0x28 8

/-- The body. -/
def imgBody (b : Bytes) : Bytes := slice b (0x100 + sigblkLen (imgAlg b)) (imgBodyLen b)

/-- The two parts of the signature block. -/
def imgEcPart (b : Bytes) : Bytes := slice b 0x100 200
def imgDsaPart (b : Bytes) : Bytes := slice b (if imgAlg b = 3 then 0x100 + 200 else 0x100) 5264

/-- The public keys of the signature block, in block order. -/
def imgKeys (b : Bytes) : Bytes :=
  (if imgAlg b ≠ 2 then (imgEcPart b).take 97 else []) ++ (if imgAlg b ≠ 1 then (imgDsaPart b).take 1952 else [])

/-- Top of the protected LPDDR6 general region (R14). -/
def dramGenTop : Nat := 0x1B_7FFF_FFFF

/-- The first check of R337. -/
def imgShapeOk (b : Bytes) : Bool :=
  let len := imgBodyLen b
  256 ≤ b.length && b.take 4 = ascii "ADKI" && leAt b 4 2 = 1 && 1 ≤ imgAlg b && imgAlg b ≤ 3
    && leAt b 0xA0 4 = sigblkLen (imgAlg b) && 0x1000 ≤ len && len ≤ 0x2000000 && len % 0x1000 = 0
    && slice b 0xA4 92 = zeros 92 && imgFlags b < 4 && imgSvn b ≤ 255 && leAt b 0x16 2 < 32
    && 0x100 + sigblkLen (imgAlg b) + len ≤ b.length
    && imgLoad b % 0x1000 = 0 && dramBase ≤ imgLoad b && imgLoad b + len ≤ dramGenTop + 1
    && imgLoad b ≤ imgEntry b && imgEntry b < imgLoad b + len

/-- Whether the signatures present verify. -/
def imgSigOk (b : Bytes) : Bool :=
  let m := b.take 0x100
  let ec : Bool :=
    match ecDecode p384 ((imgEcPart b).take 97) with
    | some q => ecdsaOk p384 q (sha384 m) (beNat (slice (imgEcPart b) 104 48)) (beNat (slice (imgEcPart b) 152 48))
    | none => false
  let dsa : Bool := dsaOk 0x0312 ((imgDsaPart b).take 1952) (pqMessage 0 (ascii "ADK-IMAGE") m) (slice (imgDsaPart b) 1952 3309)
  (imgAlg b = 2 || ec) && (imgAlg b = 1 || dsa)

/-- How an image's key stands in a state (R338). -/
inductive ImgKey where
  | refused
  /-- the Eloatan manufacturing key -/
  | maker
  /-- an owner key row -/
  | row (n : Nat)
  /-- no row is programmed and the image takes ownership -/
  | owns
deriving DecidableEq, Repr

/-- The admission of a key digest. -/
def imgKey (d : Dev) (digest : Bytes) (takes : Bool) : ImgKey :=
  match d.sys.lc with
  | .test | .factory | .returned => if digest = (List.range 48).map Config.mfgKeyByte then .maker else .refused
  | .provision | .deployed =>
    match (List.range 4).find? (fun n => match d.fuse.owner[n]? with
        | some r => r.digest = some digest && !r.revoked
        | none => false) with
    | some n => .row n
    | none =>
      if d.sys.lc = .provision && takes && d.fuse.owner.all (fun r => r.digest.isNone) then .owns else .refused
  | _ => .refused

/-- LC_MASK has a bit for the current state. -/
def imgLcOk (d : Dev) (b : Bytes) : Bool := 1 ≤ lcIdx d.sys.lc && lcIdx d.sys.lc ≤ 5 && bit (leAt b 0x16 2) (lcIdx d.sys.lc - 1)

/-- The checks of R337 up to the body: the code of the first failure. -/
def imgFault (d : Dev) (b : Bytes) : Option Nat :=
  if !(imgShapeOk b) then some 2
  else if 0x0100 < leAt b 0x14 2 then some 9
  else if !(imgLcOk d b) then some 7
  else if slice b 0x30 16 ≠ zeros 16 && slice b 0x30 16 ≠ d.fuse.serial then some 8
  else if bit (imgFlags b) 1 && !d.sys.taint then some 10
  else if slice b 0x70 48 ≠ sha384 (imgKeys b) || imgKey d (slice b 0x70 48) (bit (imgFlags b) 0) = .refused then some 3
  else if !(imgSigOk b) then some 4
  else if imgSvn b < d.fuse.minSvn then some 6
  else none

/-- The firmware measurement (R336). -/
def imgMeas (b : Bytes) : Bytes := sha384 (b.take 0x100)

/-- An image is loaded at LOAD_ADDR and its body digest compared (R337). -/
def imgLoadCheck (b : Bytes) (d : Dev) : Option Nat × Dev :=
  match imgFault d b with
  | some f => (some f, d)
  | none =>
    let d := mpeWrite none (imgLoad b) (imgBody b) d
    (if sha384 (imgBody b) = slice b 0x40 48 then none else some 5, d)

/-- An image slot. -/
def slotOf (d : Dev) (n : Nat) : Bytes := smapGet (fun _ => []) d.nv.slots n

/-- Writes an image slot. -/
def slotPut (n : Nat) (b : Bytes) (d : Dev) : Dev :=
  { d with nv := { d.nv with slots := smapSet (fun _ => []) d.nv.slots n b } }

end Sys2Proof.Machine
end

