-- ==== Sys2Proof/Machine/Boot.lean ====
section
/-! DEFINITION. The reset of the die and the boot ROM's sequence (R278, R330-R343, R401, R406, R411-R413, R417, R462). -/

namespace Sys2Proof.Machine

/-! ## The reset of the die -/

/-- An instance as a cold reset leaves it (R278). -/
def instAfterReset (x : Inst) : Inst :=
  let run : InstRun := match x.run with
    | .unused => .unused | .frozen => .frozen | .resetting => .resetting
    | _ => .assigned
  { x with run := run, wasAssigned := false, freezing := false, inFull := false, outFull := false, verFixed := false }

/-- Everything of the die at reset; the battery-backed domain, the fuses, MRAM, vault flash, the supplies, what lies at the pins and what
the tamper detectors show are as they were. -/
def dieReset (d : Dev) : Dev :=
  let d := lcCut d
  { Dev.reset with
    sys := { sysReset with mode := d.sys.mode, prev := d.sys.prev, lc := d.sys.lc }
    parts := d.parts, sup := d.sup, lant := d.lant, fuse := d.fuse, nv := d.nv
    wear := { d.wear with holdMargin := false }
    gpio := d.gpio
    tamp := { Dev.reset.tamp with src := d.tamp.src }
    evr := { evrReset with cursors := [d.nv.evSeq, d.nv.evSeq, d.nv.evSeq] }
    host := { hostReset with rstPin := d.host.rstPin, rstUpAt := d.host.rstUpAt }
    key := { keyReset with
      pound := d.key.pound, poundHigh := d.key.poundHigh, homes := d.key.homes, epoch := d.key.epoch
      epochStart := d.key.epochStart, check := d.key.check, highest := d.key.highest, journal := d.key.journal
      cells := d.key.cells, spares := d.key.spares, frozen := d.key.frozen, hdrB := d.key.hdrB }
    mgr := { mgrReset with insts := (d.mgr.insts.map (fun kv => (kv.1, instAfterReset kv.2))).filter (fun kv => kv.2 ≠ instReset kv.1) }
    ofc := { ofcReset with
      officers := d.ofc.officers, classes := d.ofc.classes, nextChal := d.ofc.nextChal
      cards := (d.ofc.cards.map (fun kv => (kv.1, { cardReset kv.1 with present := kv.2.present }))).filter (fun kv => kv.2 ≠ cardReset kv.1) }
    mem := d.mem.filter (fun kv => 0x4000_0000 ≤ kv.1 && kv.1 ≤ 0x41FF_FFFF)
    out := d.out, now := d.now, fresh := d.fresh }

/-! ## SYS_BOOT_STAT -/

/-- The last step completed. -/
def bootStep (n : Nat) (d : Dev) : Dev := setFld d pgSYS Reg.SYS_BOOT_STAT_STEP n

/-- FAIL. -/
def bootFail (n : Nat) (d : Dev) : Dev := setFld d pgSYS Reg.SYS_BOOT_STAT_FAIL n

/-- A step fails and the ROM orders a halt (R269, R333). -/
def bootHalt (n : Nat) (d : Dev) : Dev := haltGo orderedFail (bootFail n d)

/-! ## Steps 12 to 14 -/

/-- A region of the access table: pages, permissions, LOCK (R372). -/
def htRegion (r lo hi sec ns : Nat) (lock : Bool) (d : Dev) : Dev :=
  let p := pgHT + r / 128
  let o := 16 * (r % 128)
  let d := regPut (regPut d p (0x104 + o) (hi / 4096)) p (0x108 + o) sec
  regPut (regPut d p (0x10C + o) ns) p (0x100 + o) (2 ^ 31 + b2n lock * 2 ^ 30 + lo / 4096)

/-- Every permission of the classes 0-6. -/
def permAll : Nat := 0x1FFFFF

/-- The boot assignment: the monitor regions 0 to 2, locked, and the ranges of R331 (R330, R331, R373). -/
def htBoot (d : Dev) : Dev :=
  let d := htRegion 0 0x0 0x3FFFF 5 0 true d
  let d := htRegion 1 0x203C_0000 0x203F_FFFF 3 0 true d
  let d := htRegion 2 0x4000_0000 0x4003_FFFF 3 0 true d
  let d := htRegion 3 0x2000_0000 0x20FF_FFFF permAll 0 false d
  let d := htRegion 4 0x3000_0000 0x307F_FFFF 0 permAll false d
  let d := htRegion 5 dramBase dramGenTop permAll 0 false d
  let d := htRegion 6 0x4010_0000 0x41FF_FFFF permAll 0 false d
  let d := htRegion 7 0x1000_0000 0x107F_FFFF permAll permAll false d
  modHdr d pgHT (fun h => { h with enable := true })

/-- Step 13: the measurement (R333). -/
def measPut (m : Bytes) (d : Dev) : Dev :=
  bootStep 13 ((List.range 12).foldl (fun d k => setFld d pgSYS (fldAt Reg.SYS_FW_MEAS_MEAS k) (leAt m (4 * k) 4)) d)

/-- An image that takes ownership programs owner key row 0 (R338). -/
def ownGo (b : Bytes) (d : Dev) : Dev :=
  { d with fuse := { d.fuse with owner := d.fuse.owner.set 0 ⟨some (slice b 0x70 48), false⟩ } }

/-- Steps 13 and 14 for the image of a slot. -/
def fwEnter (b : Bytes) (slot : Nat) (d : Dev) : Dev :=
  let key := imgKey d (slice b 0x70 48) (bit (imgFlags b) 0)
  let d := measPut (imgMeas b) d
  let d := if key = .owns then ownGo b d else d
  let d := setFld (setFld d pgSYS Reg.SYS_FW_SVN_RUN_SVN (imgSvn b)) pgSYS Reg.SYS_BOOT_STAT_SLOT slot
  let d := setFld (setFld d pgSYS Reg.SYS_BOOT_STAT_TRIAL (b2n d.nv.trial)) pgSYS Reg.SYS_BOOT_STAT_LOADER 0
  let d := { d with host := { d.host with ownerChain := Config.ownerChain d.nv.bootCnt } }
  let d := { d with sys := { d.sys with
      stage := .firmware, runVer := imgVer b
      runRow := match key with | .row n => some n | _ => none } }
  let d := bootStep 14 ((List.range 16).foldl (fun d h => modHart d h (fun x => { x with pmp := monPmp })) (htBoot d))
  let d := modHart d 0 (fun h => { h with world := true, priv := .supervisor, entry := imgEntry b, args := [0, slot, 0, 0] })
  recordRom 0x0202 (payBoot d.nv.bootCnt (regGet d pgSYS Reg.SYS_BOOT_STAT_STEP.off)) d

/-- The ROM tries a slot: the code of its failure. -/
def slotTry (n : Nat) (d : Dev) : Option Nat × Dev :=
  if (slotOf d n).isEmpty then (some 1, d) else imgLoadCheck (slotOf d n) d

/-- Both slots have failed: the loader waits (R340, R343). -/
def loaderWait (d : Dev) : Dev :=
  setFld { d with sys := { d.sys with stage := .loader } } pgSYS Reg.SYS_BOOT_STAT_LOADER 1

/-- The other slot becomes active and is tried, after the active one failed with a code (R340). -/
def slotFallback (code : Nat) (d : Dev) : Dev :=
  let bad := d.nv.actSlot
  let n := 1 - bad
  let d := { d with nv := { d.nv with actSlot := n, trial := false, trialUsed := false } }
  match slotTry n d with
  | (some f, d) => loaderWait (bootFail f d)
  | (none, d) =>
    let d := recordRom 0x0203 (payBytes 8 [bad, code]) (setFld d pgSYS Reg.SYS_BOOT_STAT_FALLBACK 1)
    fwEnter (slotOf d n) n (bootStep 12 d)

/-- Step 12: the choice of the image (R340). -/
def imageSelect (d : Dev) : Dev :=
  if d.nv.trial && d.nv.trialUsed then slotFallback 0 d
  else
    let n := d.nv.actSlot
    let d := if d.nv.trial then { d with nv := { d.nv with trialUsed := true } } else d
    match slotTry n d with
    | (some f, d) => slotFallback f (bootFail f d)
    | (none, d) => fwEnter (slotOf d n) n (bootStep 12 d)

/-! ## The loader (R343) -/

/-- The result of an image failure. -/
def loaderCode (f : Nat) : Nat := if f = 3 || f = 4 || f = 5 || f = 6 then mgAUTH else mgFORMAT

/-- Host software has written 0x4C4F_4144 to MGR_PARAM while the loader waits. -/
def loaderGo (image : HostData) (d : Dev) : Dev :=
  let n := fld d pgMGR Reg.MGR_IN_LEN_LEN
  if d.sys.stage ≠ .loader || fld d pgMGR Reg.MGR_PARAM_PARAM ≠ 0x4C4F_4144 then d
  else if n < 4096 + 256 || 0x2000000 + 0x2000 < n then svcEnd mgBAD_ARG 0 d
  else match mgrInput image d with
    | (none, d) => svcEnd mgHOST 13 (bootFail 13 d)
    | (some b, d) => match imgLoadCheck b d with
      | (some f, d) => svcEnd (loaderCode f) f (bootFail f d)
      | (none, d) =>
        let d := slotPut 0 b { d with nv := { d.nv with actSlot := 0, trial := false, trialUsed := false } }
        fwEnter b 0 (bootStep 12 (svcEnd mgDONE 0 d))

/-! ## Steps 3 to 11 -/

/-- An entry of the latch as a channel 0 record (R399, R406, R503). -/
def latchRecord (w : Nat) (d : Dev) : Dev :=
  let exe := bits w 55 53
  handRec ⟨0, exe + 1, 0x0001, 0x40, true,
    payTamper (bits w 61 58) (bits w 57 56) 0xFF 0xFF exe 0xFF (bits w 47 0) none, none⟩ d

/-- Step 4 (R406). -/
def latchTransfer (d : Dev) : Dev :=
  let es := d.lant.latch
  let d := es.foldl (fun d w => latchRecord w d) d
  let d := if d.lant.lost = 0 then d else recordRom 0x0002 (payBytes 8 [d.lant.lost]) d
  let z := d.lant.zeroised || es.any (fun w => bits w 55 53 = 5)
  let d := modLant (fun l => { l with latch := [], lost := 0, zeroised := z }) d
  if d.lant.por then
    let d := modLant (fun l => { l with por := false }) d
    if d.nv.rootMark then
      modLant (fun l => { l with zeroised := true }) (latchRecord (latchWord 15 false false 5 (stamp d)) d)
    else recordRom 0x0003 [] d
  else d

/-- Step 5: the host configuration record, and HOST PG_CTRL.ENABLE. -/
def hostUp (d : Dev) : Dev :=
  let b := memBytes d hostcfgAt 32
  let d := if hostcfgOk b then hostcfgApply b d else d
  regPut (modHdr d pgHOST (fun h => { h with enable := true })) pgSRC (0x040 + 4 * 257) 0x1E000

/-- A latched zeroise: the device enters ZEROISED and serves what R401 names. -/
def bootZeroised (d : Dev) : Dev :=
  let d := emit .zeroN { d with sys := { d.sys with zeroPin := true, stage := .service } }
  modMpe (fun m => { m with halting := true }) (enterMode .zeroised (aerInternal d))

/-- The save summary becomes a HOLDUP_SAVE record (R459). -/
def saveRecord (d : Dev) : Dev :=
  match d.nv.save with
  | some s => recordRom 0x0601 (paySave s) { d with nv := { d.nv with save := none } }
  | none => d

/-- A unit fails its known-answer tests (R335). -/
def katFail (i : Nat) (d : Dev) : Dev :=
  let d := modUnit i (fun u => { u with oos := true }) d
  let d := setFld d (unitPage i) (if i < 20 then Reg.SYM_CFG_SERVE else Reg.PKE_CFG_SERVE) 0
  recordRom 0x0204 (payBytes 8 [3, i]) (setFld d pgSYS Reg.SYS_BOOT_STAT_KAT_FAIL 1)

/-- The units of class 3 that fail, by index. -/
def katBadUnits (d : Dev) : List Nat := (List.range 28).filter (fun i => d.parts.katBad.contains (3 * 64 + i))

/-- Whether no unit of one kind passes. -/
def katNone (d : Dev) : Bool :=
  let bad := katBadUnits d
  (List.range 16).all bad.contains || [16, 17, 18, 19].all bad.contains || [20, 21, 22, 23, 24, 25, 26, 27].all bad.contains

/-- The boot ROM enables a unit and runs its known-answer jobs through its job port: the last has finished (R198, R199, R335). -/
def katRun (i : Nat) (d : Dev) : Dev :=
  let p := unitPage i
  let d := modUnit i (fun u => { u with kat := true, katRes := true }) (modHdr d p (fun h => { h with enable := true }))
  raiseEv p 0 (setFld d p Reg.SYM_JOB_STAT_DONE 1)

/-- Step 11, and the steps after it. -/
def bootKat (d : Dev) : Dev :=
  let d := (List.range 28).foldl (fun d i => katRun i d) d
  let d := (katBadUnits d).foldl (fun d i => katFail i d) d
  if katNone d then bootHalt 11 d else imageSelect (bootStep 11 d)

/-- An officer record that fails its MRAM check code is treated as REVOKED, and a record says so (R303). -/
def ofcRecords (d : Dev) : Dev :=
  (d.parts.ofcBad.filter (· < 64)).foldl (fun d n => record 0x0301 (payBytes 8 [n]) (modOfficer n (fun o => { o with run := .revoked }) d)) d

/-- Step 9 on: STARTUP, the memory engine, K_CTX, the key store (R138, R178, R247). -/
def bootStartup (d : Dev) : Dev :=
  let d := ofcRecords (enterMode .startup d)
  let r := if d.parts.mpeOk then mpeStart d else (false, d)
  if !r.1 then bootHalt 14 r.2
  else
    let d := bootStep 9 r.2
    let d := match draw 0 32 d with
      | .got k d => modCmdSt (fun s => { s with kCtx := some k }) d
      | .wait d => d
      | .err d => d
    bootKat (bootStep 10 (vaultStart (drawKSlot d)))

/-- A quarter goes ON at boot, its cores in reset and its Well started (R240, R332, R333). -/
def quarterBoot (q : Nat) (d : Dev) : Dev :=
  let w := d.parts.wells.getD q ⟨true, [], []⟩
  let d := modQuarter d q (fun x => { x with pwr := .on, pll := true })
  let d := (List.range 4).foldl (fun d k =>
    modHart d (4 * q + k) (fun h => if h.run = .off then { h with run := .inReset } else h)) d
  wellBoot q w d

/-- Steps 3 to 8. -/
def bootMain (d : Dev) : Dev :=
  let d := bootStep 3 { d with nv := { d.nv with bootCnt := d.nv.bootCnt + 1 } }
  let d := bootStep 4 (latchTransfer d)
  let d := bootStep 5 (hostUp d)
  if d.lant.zeroised then bootZeroised d
  else
    let d := bootStep 6 ((List.range 4).foldl (fun d q => quarterBoot q d) (saveRecord d))
    if !d.parts.lpddrOk then bootHalt 12 d else bootStartup (bootStep 8 { d with sys := { d.sys with hartState := true } })

/-! ## Steps 1 and 2 -/

/-- The grant that holds for this boot is applied (R424, R425). -/
def grantApply (d : Dev) : Dev :=
  let secure : Bool := d.sys.lc = .factory || d.sys.lc = .provision || d.sys.lc = .deployed || d.sys.lc = .returned
  match d.nv.grant with
  | none => d
  | some g =>
    let n := d.nv.bootCnt + 1
    if secure && g.first ≤ n && n ≤ g.last then
      { d with sys := { d.sys with dbgGranted := Nat.land g.enables 12, taint := bit g.enables 3 } }
    else d

/-- Configured responses of the sources that the die holds take the floor of this boot's state (R408). -/
def respBoot (d : Dev) : Dev :=
  (List.range 16).foldl (fun d s =>
    if lantHeld s then d else setFld d pgTAMP1 (fldAt Reg.TAMP_RESP_RESP s) (floorIn d.sys.lc s)) d

/-- The state is decoded and the boot goes on, or serves what the state admits (R333 step 2, R412, R419, R420). -/
def bootDecoded (lc : Lc) (d : Dev) : Dev :=
  let d := if d.sys.lc = lc then d else smbAlert d
  let d := bootStep 2 (grantApply (respBoot { d with sys := { d.sys with lc := lc } }))
  let host (d : Dev) : Dev := modHdr d pgHOST (fun h => { h with enable := true })
  match lc with
  | .raw => host { d with sys := { d.sys with stage := .service } }
  | .locked => emit .haltN (host { d with sys := { d.sys with stage := .service, haltPin := true } })
  | .scrap => (if d.nv.wiped then id else scrapWipe true) (host { d with sys := { d.sys with stage := .stopped } })
  | _ => if d.sys.mode = .zeroised then { d with sys := { d.sys with stage := .stopped } } else bootMain d

/-- The rest of step 2 once no roll-forward waits (R411, R417). -/
def bootRolled (d : Dev) : Dev :=
  match lcRoll d with
  | .done j => let d := lcRolled j d; bootDecoded (lcOfVote (lcVote d.fuse)) d
  | .between j => let d := lcResume j d; bootDecoded (lcOfVote (lcVote d.fuse)) d
  | .none => bootDecoded (if d.nv.journal.isSome then .locked else lcOfVote (lcVote d.fuse)) d

/-- Step 2: a roll-forward that has bits to program waits for its supply. -/
def bootVote (d : Dev) : Dev :=
  let diff := lcDiff d.fuse
  let d := { d with sys := { d.sys with copyDiff := diff } }
  let d := if diff = 0 then d else recordRom 0x0103 (payCopyDiff diff (lcVote d.fuse)) d
  match lcRoll d with
  | .between _ => if lcSupply d then bootRolled d else { d with sys := { d.sys with stage := .charging } }
  | _ => bootRolled d

/-- The die leaves reset: ROM_BOOT, the boot core, step 1, the hold-up limit, and the rest of the sequence (R332, R333, R462). -/
def bootGo (parts : BootParts) (d : Dev) : Dev :=
  let d := setLimit (enterMode .romBoot (modKey (fun k => { k with weak := parts.weak }) { dieReset d with parts := parts }))
  let d := modHart d 0 (fun h => { h with run := .running, wdStart := d.now })
  let d := [1, 2, 3].foldl (fun d h => modHart d h (fun x => { x with run := .inReset })) (modQuarter d 0 (fun x => { x with pwr := .on, pll := true }))
  let d := { d with hearth := { d.hearth with diePll := true } }
  bootVote (bootStep 1 (wellBegin 0 (parts.wells.headD ⟨true, [], []⟩).katOk d))

/-- A roll-forward that waited for its supply goes on (R417). -/
def bootCharged (d : Dev) : Dev :=
  if d.sys.stage = .charging && d.sys.mode = .romBoot && lcSupply d then bootRolled { d with sys := { d.sys with stage := .notRun } } else d

end Sys2Proof.Machine
end

