-- ==== Sys2Proof/Machine/CodeCmds.lean ====
section
/-! DEFINITION. The access-code commands (R193-R196). -/

namespace Sys2Proof.Machine

/-- HOTP_GENERATE (R193, R194). -/
def execHotpGenerate (tag : Nat) (s : State) (chk : CheckFails := 0) : Host.Outcome State Fault Refusal :=
  runDev s (runOp tag [0x0801] chk opHotp)

/-- HOTP_VERIFY (R193, R194). -/
def execHotpVerify (tag : Nat) (s : State) (chk : CheckFails := 0) : Host.Outcome State Fault Refusal :=
  runDev s (runOp tag [0x0802] chk opHotpVerify)

/-- TOTP_GENERATE (R193, R194). -/
def execTotpGenerate (tag : Nat) (s : State) (chk : CheckFails := 0) : Host.Outcome State Fault Refusal :=
  runDev s (runOp tag [0x0803] chk opTotp)

/-- TOTP_VERIFY (R193, R194). -/
def execTotpVerify (tag : Nat) (s : State) (chk : CheckFails := 0) : Host.Outcome State Fault Refusal :=
  runDev s (runOp tag [0x0804] chk opTotpVerify)

/-- LOCKER_TOKEN_SIGN (R193, R195). -/
def execLockerTokenSign (tag : Nat) (s : State) (chk : CheckFails := 0) : Host.Outcome State Fault Refusal :=
  runDev s (runOp tag [0x0805] chk opLocker)

/-- PICKUP_CODE_ISSUE (R193, R196). -/
def execPickupCodeIssue (tag : Nat) (s : State) (chk : CheckFails := 0) : Host.Outcome State Fault Refusal :=
  runDev s (runOp tag [0x0806] chk opPickup)

/-- PICKUP_CODE_VERIFY (R196). -/
def execPickupCodeVerify (tag : Nat) (s : State) (chk : CheckFails := 0) : Host.Outcome State Fault Refusal :=
  runDev s (runOp tag [0x0807] chk opPickupVerify)


end Sys2Proof.Machine
end

