-- ==== Sys2Proof/Machine/HashCmds.lean ====
section
/-! DEFINITION. The hash, MAC, derivation and random commands (R181-R184, R238, R239). -/

namespace Sys2Proof.Machine

/-- HASH (R181). -/
def execHash (tag : Nat) (chk : CheckFails) (s : State) : Host.Outcome State Fault Refusal :=
  runDev s (runOp tag [0x0401] chk opHash)

/-- SHAKE (R181). -/
def execShake (tag : Nat) (chk : CheckFails) (s : State) : Host.Outcome State Fault Refusal :=
  runDev s (runOp tag [0x0402] chk opShake)

/-- HMAC (R181). -/
def execHmac (tag : Nat) (chk : CheckFails) (s : State) : Host.Outcome State Fault Refusal :=
  runDev s (runOp tag [0x0403] chk opHmac)

/-- CMAC on a lane (R176, R181). -/
def execCmac (tag : Nat) (chk : CheckFails) (s : State) : Host.Outcome State Fault Refusal :=
  runDev s (runOp tag [0x0404] chk opCmac)

/-- GMAC on a lane (R173, R176, R181). -/
def execGmac (tag : Nat) (chk : CheckFails) (s : State) : Host.Outcome State Fault Refusal :=
  runDev s (runOp tag [0x0405] chk opGmac)

/-- MAC_VERIFY (R181). -/
def execMacVerify (tag : Nat) (chk : CheckFails) (s : State) : Host.Outcome State Fault Refusal :=
  runDev s (runOp tag [0x0406] chk opMacVerify)

/-- HKDF (R181, R182). -/
def execHkdf (tag : Nat) (s : State) (chk : CheckFails := 0) : Host.Outcome State Fault Refusal :=
  runDev s (runOp tag [0x0407] chk opHkdf)

/-- KDF_CTR (R181, R182). -/
def execKdfCtr (tag : Nat) (s : State) (chk : CheckFails := 0) : Host.Outcome State Fault Refusal :=
  runDev s (runOp tag [0x0408] chk opKdfCtr)

/-- TLS13_KEY_SCHEDULE (R184). -/
def execTls13KeySchedule (tag : Nat) (s : State) (chk : CheckFails := 0) : Host.Outcome State Fault Refusal :=
  runDev s (runOp tag [0x0409] chk opTls13)

/-- RANDOM_BYTES (R238). -/
def execRandomBytes (tag : Nat) (s : State) : Host.Outcome State Fault Refusal :=
  runDev s (runOp tag [0x0501] 0 opRandom)

/-- ENTROPY_STATUS (R239). -/
def execEntropyStatus (tag : Nat) (s : State) : Host.Outcome State Fault Refusal :=
  runDev s (runOp tag [0x0502] 0 opEntropyStatus)


end Sys2Proof.Machine
end

