-- ==== Sys2Proof/Machine/KeyCmds.lean ====
section
/-! DEFINITION. The key-management commands (R131-R136, R158, R159, R205, R206, R309, R321) and the firmware-routed opcodes. -/

namespace Sys2Proof.Machine

/-- KEY_GENERATE_SYM (R131-R133). -/
def execKeyGenerateSym (tag : Nat) (s : State) : Host.Outcome State Fault Refusal :=
  runDev s (runOp tag [0x0101] 0 opGenerateSym)

/-- KEY_GENERATE_PAIR and public-key import (R203-R205). -/
def execKeyGeneratePair (tag : Nat) (chk : CheckFails) (s : State) : Host.Outcome State Fault Refusal :=
  runDev s (runOp tag [0x0102] chk opGeneratePair)

/-- KEY_IMPORT_WRAPPED (R131-R135). -/
def execKeyImportWrapped (tag : Nat) (s : State) : Host.Outcome State Fault Refusal :=
  runDev s (runOp tag [0x0103] 0 opImport)

/-- KEY_IMPORT_X9143 (R132, R136). -/
def execKeyImportX9143 (tag : Nat) (s : State) : Host.Outcome State Fault Refusal :=
  runDev s (runOp tag [0x0104] 0 opImportX9)

/-- KEY_EXPORT_WRAPPED (R132-R135). -/
def execKeyExportWrapped (tag : Nat) (s : State) : Host.Outcome State Fault Refusal :=
  runDev s (runOp tag [0x0105] 0 opExport)

/-- KEY_EXPORT_X9143 (R132, R135, R136). -/
def execKeyExportX9143 (tag : Nat) (s : State) : Host.Outcome State Fault Refusal :=
  runDev s (runOp tag [0x0106] 0 opExportX9)

/-- KEY_DERIVE (R132). -/
def execKeyDerive (tag : Nat) (s : State) : Host.Outcome State Fault Refusal :=
  runDev s (runOp tag [0x0107] 0 opKeyDerive)

/-- KEY_DESTROY (R128, R129, R132). -/
def execKeyDestroy (tag : Nat) (s : State) : Host.Outcome State Fault Refusal :=
  runDev s (runOp tag [0x0108] 0 opDestroy)

/-- KEY_GET_ATTR (R132). -/
def execKeyGetAttr (tag : Nat) (s : State) : Host.Outcome State Fault Refusal :=
  runDev s (runOp tag [0x0109] 0 opGetAttr)

/-- KEY_SET_ATTR, serviced by firmware through the key store controller (R130, R132). -/
def execKeySetAttr (tag : Nat) (s : State) : Host.Outcome State Fault Refusal :=
  runDev s (serveOp tag (· == 0x010A) opSetAttr)

/-- KEY_LIST, serviced by firmware; it waits for the restore to pass the records it would report (R132, R148). -/
def execKeyList (tag : Nat) (s : State) : Host.Outcome State Fault Refusal :=
  runDev s (serveOp tag (· == 0x010B) opList)

/-- KEY_GRANT, serviced by firmware (R123, R132). -/
def execKeyGrant (tag : Nat) (s : State) : Host.Outcome State Fault Refusal :=
  runDev s (serveOp tag (· == 0x010C) opGrant)

/-- KEY_REVOKE_GRANT, serviced by firmware (R122, R132). -/
def execKeyRevokeGrant (tag : Nat) (s : State) : Host.Outcome State Fault Refusal :=
  runDev s (serveOp tag (· == 0x010D) opRevoke)

/-- KEY_BACKUP_EXPORT, serviced by firmware (R158). -/
def execKeyBackupExport (tag : Nat) (s : State) : Host.Outcome State Fault Refusal :=
  runDev s (serveOp tag (· == 0x010E) opBackup)

/-- KEY_RESTORE, serviced by firmware (R159). -/
def execKeyRestore (tag : Nat) (s : State) : Host.Outcome State Fault Refusal :=
  runDev s (serveOp tag (· == 0x010F) opRestore)

/-- KEY_IMPORT_CLEAR, serviced by firmware in CEREMONY (R321). -/
def execKeyImportClear (tag : Nat) (s : State) : Host.Outcome State Fault Refusal :=
  runDev s fun d => if d.sys.mode = .ceremony then serveOp tag (· == 0x0110) opImportClear d else d

/-- KEY_PUBLIC_EXPORT (R206). -/
def execKeyPublicExport (tag : Nat) (s : State) (chk : CheckFails := 0) : Host.Outcome State Fault Refusal :=
  runDev s (runOp tag [0x0111] chk opPublicExport)

/-- QUORUM_CHALLENGE, serviced by firmware (R309). -/
def execQuorumChallenge (tag : Nat) (s : State) : Host.Outcome State Fault Refusal :=
  runDev s (serveOp tag (· == 0x0112) opChallenge)

/-- An opcode of firmware's own: firmware takes its routed entry; what it means is firmware's (R97). -/
def execFirmwareRoutedOpcode (tag : Nat) (s : State) : Host.Outcome State Fault Refusal :=
  runDev s (serveOp tag opFirmware fun _ d => .done (okRes 0 0) d)


end Sys2Proof.Machine
end

