-- ==== Sys2Proof/Machine/PayCmds.lean ====
section
/-! DEFINITION. The payment and tokenisation commands (R185-R192). -/

namespace Sys2Proof.Machine

/-- DUKPT_DERIVE (R185). -/
def execDukptDerive (tag : Nat) (s : State) (chk : CheckFails := 0) : Host.Outcome State Fault Refusal :=
  runDev s (runOp tag [0x0601] chk opDukpt)

/-- PIN_TRANSLATE (R186, R187). -/
def execPinTranslate (tag : Nat) (s : State) (chk : CheckFails := 0) : Host.Outcome State Fault Refusal :=
  runDev s (runOp tag [0x0602] chk opPinTranslate)

/-- PIN_VERIFY (R186, R188). -/
def execPinVerify (tag : Nat) (s : State) (chk : CheckFails := 0) : Host.Outcome State Fault Refusal :=
  runDev s (runOp tag [0x0603] chk opPinVerify)

/-- CVV_GENERATE (R189). -/
def execCvvGenerate (tag : Nat) (s : State) (chk : CheckFails := 0) : Host.Outcome State Fault Refusal :=
  runDev s (runOp tag [0x0604] chk opCvv)

/-- CVV_VERIFY (R189). -/
def execCvvVerify (tag : Nat) (s : State) (chk : CheckFails := 0) : Host.Outcome State Fault Refusal :=
  runDev s (runOp tag [0x0605] chk opCvvVerify)

/-- DATA_TRANSLATE (R190). -/
def execDataTranslate (tag : Nat) (chk : CheckFails) (s : State) : Host.Outcome State Fault Refusal :=
  runDev s (runOp tag [0x0606] chk opDataTranslate)

/-- FF1_ENCRYPT (R191). -/
def execFf1Encrypt (tag : Nat) (s : State) (chk : CheckFails := 0) : Host.Outcome State Fault Refusal :=
  runDev s (runOp tag [0x0701] chk (opFf1 false))

/-- FF1_DECRYPT (R191). -/
def execFf1Decrypt (tag : Nat) (s : State) (chk : CheckFails := 0) : Host.Outcome State Fault Refusal :=
  runDev s (runOp tag [0x0702] chk (opFf1 true))

/-- TOKEN_TRANSLATE (R192). -/
def execTokenTranslate (tag : Nat) (s : State) (chk : CheckFails := 0) : Host.Outcome State Fault Refusal :=
  runDev s (runOp tag [0x0703] chk opTokenTranslate)


end Sys2Proof.Machine
end

