-- ==== Sys2Proof/Machine/PkeCmds.lean ====
section
/-! DEFINITION. The public-key commands (R200-R222): one meaning for each opcode of class 0x03xx. -/

namespace Sys2Proof.Machine

/-- ECDSA_SIGN (R209, R210). -/
def execEcdsaSign (tag : Nat) (chk : CheckFails) (s : State) : Host.Outcome State Fault Refusal :=
  runDev s (runOp tag [0x0301] chk opEcdsaSign)

/-- ECDSA_VERIFY (R209, R210). -/
def execEcdsaVerify (tag : Nat) (s : State) (chk : CheckFails := 0) : Host.Outcome State Fault Refusal :=
  runDev s (runOp tag [0x0302] chk opEcdsaVerify)

/-- EDDSA_SIGN (R209, R210). -/
def execEddsaSign (tag : Nat) (chk : CheckFails) (s : State) : Host.Outcome State Fault Refusal :=
  runDev s (runOp tag [0x0303] chk opEddsaSign)

/-- EDDSA_VERIFY (R209, R210). -/
def execEddsaVerify (tag : Nat) (s : State) (chk : CheckFails := 0) : Host.Outcome State Fault Refusal :=
  runDev s (runOp tag [0x0304] chk opEddsaVerify)

/-- ECDH_AGREE (R209, R215). -/
def execEcdhAgree (tag : Nat) (chk : CheckFails) (s : State) : Host.Outcome State Fault Refusal :=
  runDev s (runOp tag [0x0305] chk opEcdh)

/-- RSA_PRIVATE (R209, R211). -/
def execRsaPrivate (tag : Nat) (chk : CheckFails) (s : State) : Host.Outcome State Fault Refusal :=
  runDev s (runOp tag [0x0306] chk opRsaPrivate)

/-- RSA_PUBLIC (R209, R211). -/
def execRsaPublic (tag : Nat) (s : State) (chk : CheckFails := 0) : Host.Outcome State Fault Refusal :=
  runDev s (runOp tag [0x0307] chk opRsaPublic)

/-- MLKEM_ENCAP (R209, R216). -/
def execMlkemEncap (tag : Nat) (chk : CheckFails) (s : State) : Host.Outcome State Fault Refusal :=
  runDev s (runOp tag [0x0308] chk opEncap)

/-- MLKEM_DECAP (R209, R216). -/
def execMlkemDecap (tag : Nat) (chk : CheckFails) (s : State) : Host.Outcome State Fault Refusal :=
  runDev s (runOp tag [0x0309] chk opDecap)

/-- MLDSA_SIGN (R209, R212). -/
def execMldsaSign (tag : Nat) (chk : CheckFails) (s : State) : Host.Outcome State Fault Refusal :=
  runDev s (runOp tag [0x030A] chk opMldsaSign)

/-- MLDSA_VERIFY (R209, R212). -/
def execMldsaVerify (tag : Nat) (s : State) (chk : CheckFails := 0) : Host.Outcome State Fault Refusal :=
  runDev s (runOp tag [0x030B] chk opMldsaVerify)

/-- SLHDSA_SIGN (R209, R212). -/
def execSlhdsaSign (tag : Nat) (chk : CheckFails) (s : State) : Host.Outcome State Fault Refusal :=
  runDev s (runOp tag [0x030C] chk opSlhSign)

/-- SLHDSA_VERIFY (R209, R212). -/
def execSlhdsaVerify (tag : Nat) (s : State) (chk : CheckFails := 0) : Host.Outcome State Fault Refusal :=
  runDev s (runOp tag [0x030D] chk opSlhVerify)

/-- HBS_VERIFY (R209, R213). -/
def execHbsVerify (tag : Nat) (s : State) (chk : CheckFails := 0) : Host.Outcome State Fault Refusal :=
  runDev s (runOp tag [0x030E] chk opHbsVerify)

/-- IMAGE_VERIFY (R209, R214). -/
def execImageVerify (tag : Nat) (s : State) (chk : CheckFails := 0) : Host.Outcome State Fault Refusal :=
  runDev s (runOp tag [0x030F] chk opImageVerify)


end Sys2Proof.Machine
end

