-- ==== Sys2Proof/Machine/SymCmds.lean ====
section
/-! DEFINITION. The symmetric commands (R165-R180): one meaning for each opcode of class 0x02xx. -/

namespace Sys2Proof.Machine

/-- AES_ECB on a lane (R168-R171, R177). -/
def execAesEcb (tag : Nat) (chk : CheckFails) (s : State) : Host.Outcome State Fault Refusal :=
  runDev s (runOp tag [0x0201] chk opBlock)

/-- AES_CBC on a lane (R168-R171, R177). -/
def execAesCbc (tag : Nat) (chk : CheckFails) (s : State) : Host.Outcome State Fault Refusal :=
  runDev s (runOp tag [0x0202] chk opBlock)

/-- AES_CTR on a lane (R168-R171, R177). -/
def execAesCtr (tag : Nat) (chk : CheckFails) (s : State) : Host.Outcome State Fault Refusal :=
  runDev s (runOp tag [0x0203] chk opBlock)

/-- AES_GCM on a lane: nonces by the device, contexts, and the zero-fill after a tag that does not compare (R168-R177). -/
def execAesGcm (tag : Nat) (chk : CheckFails) (s : State) : Host.Outcome State Fault Refusal :=
  runDev s (runOp tag [0x0204] chk opGcm)

/-- AES_CCM on a lane (R168-R172). -/
def execAesCcm (tag : Nat) (chk : CheckFails) (s : State) : Host.Outcome State Fault Refusal :=
  runDev s (runOp tag [0x0205] chk opCcm)

/-- AES_XTS: the data units that no other lane has taken, and the completion (R166, R168-R171). -/
def execAesXts (tag : Nat) (chk : CheckFails) (s : State) : Host.Outcome State Fault Refusal :=
  runDev s (runOp tag [0x0206] chk opXts)

/-- TDES_ECB on a lane (R168-R171, R177). -/
def execTdesEcb (tag : Nat) (chk : CheckFails) (s : State) : Host.Outcome State Fault Refusal :=
  runDev s (runOp tag [0x0207] chk opBlock)

/-- TDES_CBC on a lane (R168-R171, R177). -/
def execTdesCbc (tag : Nat) (chk : CheckFails) (s : State) : Host.Outcome State Fault Refusal :=
  runDev s (runOp tag [0x0208] chk opBlock)

/-- CTX_SAVE (R178-R180). -/
def execCtxSave (tag : Nat) (s : State) (chk : CheckFails := 0) : Host.Outcome State Fault Refusal :=
  runDev s (runOp tag [0x0209] chk opCtxSave)

/-- CTX_RESTORE (R178-R180). -/
def execCtxRestore (tag : Nat) (s : State) (chk : CheckFails := 0) : Host.Outcome State Fault Refusal :=
  runDev s (runOp tag [0x020A] chk opCtxRestore)


end Sys2Proof.Machine
end

