-- ==== Sys2Proof/Machine/Jobs.lean ====
section
/-! DEFINITION. The job ports of lanes, clusters and engines (R197-R199, R223-R225): GO reads the descriptor from secure
memory, runs the parser and policy checks and the operation, and JOB_DONE lets what it came to out through the fence. -/

namespace Sys2Proof.Machine

/-- Page errors of the job ports. -/
def errJOB_BUSY := 0x0100
def errJOB_ADDR := 0x0101

/-- The opcodes that the port of a unit accepts (R198, R224). -/
def jobAccepts (i : Nat) (romkey : Bool) (op : Nat) : Bool :=
  match unitKind i with
  | .lane => op / 256 = 2 || op / 256 = 6 || op / 256 = 7
  | .cluster => op / 256 = 4 || op / 256 = 8
  | .engine => (0x0301 ≤ op && op ≤ 0x030F) || (romkey && op = 0x0102)
  | .store => false

/-- KEY_GENERATE_PAIR from the seed of a ROM key block (R224): the public key goes to the output. -/
def opRomPair : OpFn := fun c d =>
  let alg := (key1 c).alg
  let e := (tmplOf (auxOf c)).rsaE
  match genMat alg (if e = 0 then 65537 else e) ((key1 c).mat ++ zeros (genDraw alg)) with
  | some m => let pk := pubOf alg false m; needRoom c pk.length d <| .done (okOut pk) d
  | none => .done (failed stENGINE 0) d

/-- The operation of an opcode. -/
def jobOp (op : Nat) : Option OpFn :=
  match op with
  | 0x0102 => some opRomPair
  | 0x0201 | 0x0202 | 0x0203 | 0x0207 | 0x0208 => some opBlock
  | 0x0204 => some opGcm
  | 0x0205 => some opCcm
  | 0x0206 => some opXts
  | 0x0209 => some opCtxSave
  | 0x020A => some opCtxRestore
  | 0x0301 => some opEcdsaSign
  | 0x0302 => some opEcdsaVerify
  | 0x0303 => some opEddsaSign
  | 0x0304 => some opEddsaVerify
  | 0x0305 => some opEcdh
  | 0x0306 => some opRsaPrivate
  | 0x0307 => some opRsaPublic
  | 0x0308 => some opEncap
  | 0x0309 => some opDecap
  | 0x030A => some opMldsaSign
  | 0x030B => some opMldsaVerify
  | 0x030C => some opSlhSign
  | 0x030D => some opSlhVerify
  | 0x030E => some opHbsVerify
  | 0x030F => some opImageVerify
  | 0x0401 => some opHash
  | 0x0402 => some opShake
  | 0x0403 => some opHmac
  | 0x0404 => some opCmac
  | 0x0405 => some opGmac
  | 0x0406 => some opMacVerify
  | 0x0407 => some opHkdf
  | 0x0408 => some opKdfCtr
  | 0x0409 => some opTls13
  | 0x0601 => some opDukpt
  | 0x0602 => some opPinTranslate
  | 0x0603 => some opPinVerify
  | 0x0604 => some opCvv
  | 0x0605 => some opCvvVerify
  | 0x0606 => some opDataTranslate
  | 0x0701 => some (opFf1 false)
  | 0x0702 => some (opFf1 true)
  | 0x0703 => some opTokenTranslate
  | 0x0801 => some opHotp
  | 0x0802 => some opHotpVerify
  | 0x0803 => some opTotp
  | 0x0804 => some opTotpVerify
  | 0x0805 => some opLocker
  | 0x0806 => some opPickup
  | 0x0807 => some opPickupVerify
  | _ => none

/-! ## The data of a job -/

/-- A read by the unit of its internal address space, answered before verification (R264), with the later of its tag and the one of the reads
before; a refused one fails the job (R375). -/
def jobFetch (i info a n : Nat) (t : Option Nat) (d : Dev) : Except Denial Bytes × Option Nat × Dev :=
  let (r, b, t', d) := memFetch2 (whoEngine i) true (a % 2 ^ 40) n d
  (if r = .ok then .ok b else .error (memDenial r info), tagMax t t', d)

/-- Follows a scatter list in internal memory; fuel bounds its entries (R87). -/
def jobList (i : Nat) : Nat → Nat → Nat → List (Nat × Nat) → Option Nat → Dev → Except Denial (List (Nat × Nat)) × Option Nat × Dev
  | 0, _, _, _, t, d => (.error (stBAD_LENGTH, 0), t, d)
  | f + 1, a, total, l, t, d =>
    match jobFetch i 4 a 16 t d with
    | (.error e, t, d) => (.error e, t, d)
    | (.ok b, t, d) => match sglStep b l total with
      | .error e => (.error e, t, d)
      | .ok (l, full) => if full then (.ok l, t, d) else jobList i f (a + 16) total l t d

/-- Segments of an area of a job. -/
def jobSegs (i : Nat) (sgl : Bool) (a n : Nat) (t : Option Nat) (d : Dev) : Except Denial (List (Nat × Nat)) × Option Nat × Dev :=
  if n = 0 then (.ok [], t, d) else if sgl then jobList i 4096 a n [] t d else (.ok [(a, n)], t, d)

/-- Reads the segments of an area, or fails with an INFO. -/
def jobData (i info : Nat) : List (Nat × Nat) → Option Nat → Dev → Except Denial Bytes × Option Nat × Dev
  | [], t, d => (.ok [], t, d)
  | (a, n) :: rest, t, d =>
    match jobFetch i info a n t d with
    | (.error e, t, d) => (.error e, t, d)
    | (.ok b, t, d) => match jobData i info rest t d with
      | (.ok r, t, d) => (.ok (b ++ r), t, d)
      | (.error e, t, d) => (.error e, t, d)

/-- The auxiliary block, the tickets, the source and the output area of a job, in the order of R88, or what it fails with; and the tag of what was
read. -/
def jobRead (i : Nat) (c : Cmd) (d : Dev) : Except Result Cmd × Option Nat × Dev :=
  let x := c.desc
  let (aux, t, d) := jobData i 3 (if x.auxLen = 0 then [] else [(x.aux, x.auxLen)]) c.epoch d
  match aux with
  | .error e => (.error (failed e.1 e.2), t, d)
  | .ok aux =>
    let (tick, t, d) := jobData i 5 (ticketArea x) t d
    match tick with
    | .error e => (.error (failed e.1 e.2), t, d)
    | .ok tick =>
      let (segs, t, d) := jobSegs i (bit x.flags flSRC_SGL) x.src x.srcLen t d
      match segs with
      | .error e => (.error (failed e.1 e.2), t, d)
      | .ok segs =>
        let (src, t, d) := jobData i 1 segs t d
        match src with
        | .error e => (.error (failed e.1 e.2), t, d)
        | .ok src =>
          let (dst, t, d) := jobSegs i (bit x.flags flDST_SGL) x.dst x.dstLen t d
          match dst with
          | .error e => (.error (failed e.1 e.2), t, d)
          | .ok dst =>
            let c := { c with aux := some aux, ticket := some tick, src := some src, srcList := some segs, dstList := some dst }
            (match (auxFault c).or (roomFault d c) with
              | some e => .error (deniedResult e)
              | none => .ok c, t, d)

/-! ## The end of a job -/

/-- A job finishes: its registers, DONE, the event and the job boundary (R197). -/
def jobEnd (i : Nat) (r : Result) (d : Dev) : Dev :=
  let p := unitPage i
  let d := modUnit i (fun u => { u with job := none, jobRom := false, katRes := false }) d
  let d := setFld (setFld (setFld d p Reg.SYM_JOB_STAT_STATUS r.status) p Reg.SYM_JOB_STAT_BUSY 0) p Reg.SYM_JOB_STAT_DONE 1
  let d := setFld (setFld d p Reg.SYM_JOB_RES0_LO_RES0 r.r0) p Reg.SYM_JOB_RES0_HI_RES0 (r.r0 / 2 ^ 32)
  let d := setFld (setFld d p Reg.SYM_JOB_RES1_LO_RES1 r.r1) p Reg.SYM_JOB_RES1_HI_RES1 (r.r1 / 2 ^ 32)
  jobBoundary p (raiseEv p 0 (setFld d p Reg.SYM_JOB_OUTLEN_OUT_LEN r.outLen))

/-- Keeps what a job has come to so far. -/
def setJob (i : Nat) (c : Cmd) (d : Dev) : Dev := modUnit i (fun u => { u with job := some c }) d

/-- A job has a result, which the fence has yet to let out. -/
def jobHold (i : Nat) (c : Cmd) (r : Result) (d : Dev) : Dev := setJob i { c with stage := .held, result := some r } d

/-- Writes a job's output into the segments of its output area. -/
def jobWrite (i : Nat) : List (Nat × Nat) → Bytes → Dev → MemRes × Dev
  | [], _, d => (.ok, d)
  | (a, n) :: t, b, d =>
    if b.isEmpty then (.ok, d)
    else
      let (r, d) := memStore2 (whoEngine i) none (a % 2 ^ 40) (b.take n) d
      let (r', d) := jobWrite i t (b.drop n) d
      (r.join r', d)

/-! ## Running -/

/-- A ROM key block (R198). -/
def romKey (a : Nat) : KeyRec :=
  let at' (k n : Nat) : Bytes := (List.range n).map (fun j => Config.romByte (a + k + j))
  { noKey with alg := leNat (at' 0 2), handle := a, attr := 2 ^ 16 - 1, mat := at' 8 (leNat (at' 2 2)) }

/-- Whether a range lies inside the boot ROM. -/
def inRom (a n : Nat) : Bool := a + n ≤ 0x40000

/-- Whether an area of a ROM key job lies inside the boot ROM: the range itself, or its scatter list and, where the job reads there, what
the list names. -/
def romArea (i : Nat) (sgl reads : Bool) (a n : Nat) (d : Dev) : Bool :=
  if n = 0 then true
  else if !sgl then !reads || inRom a n
  else match (jobList i 4096 a n [] none d).1 with
    | .ok l => inRom a (16 * l.length) && (!reads || l.all (fun s => inRom s.1 s.2))
    | .error _ => inRom a 16

/-- Whether a ROM key job is accepted (R198). DST is where the job writes (R224), which the ROM does not let it (R14): of the output only
a scatter list that is read lies in the ROM. -/
def romJobOk (a : Access) (i : Nat) (c : Cmd) (d : Dev) : Bool :=
  let x := c.desc
  let key (h : Nat) : Bool := inRom h (8 + (romKey h).mat.length)
  a.sec && d.sys.mode = .startup && fld d pgSYS Reg.SYS_BOOT_STAT_STEP ≤ 13
    && key x.key && (x.key2 = 0 || key x.key2) && (x.auxLen = 0 || inRom x.aux x.auxLen)
    && romArea i (bit x.flags flSRC_SGL) true x.src x.srcLen d && romArea i (bit x.flags flDST_SGL) false x.dst x.dstLen d

/-- The parser's verdict on a job's descriptor. With ROM keys NONCE_GEN is refused, and a generated pair's KEY_HANDLE holds its seed and
PUB_OUT is required (R89, R198, R224). -/
def jobFault (i : Nat) (romkey : Bool) (x : Desc) : Option Result :=
  if !(jobAccepts i romkey x.opcode) || !(opKnown x.opcode) then some (failed stBAD_OPCODE 0)
  else if romkey && (x.opcode / 256 = 2 || x.opcode = 0x0405) && pNonce x then some (failed stBAD_DESCRIPTOR 0x06)
  else if romkey && x.opcode = 0x0102 && !(bit x.param 0) then some (failed stBAD_DESCRIPTOR 0x06)
  else (descFault 2 (if romkey && x.opcode = 0x0102 then { x with key := 0 } else x)).map (fun e => { failed e.1 e.2.1 with r1 := e.2.2 })

/-- The operation of a job whose keys are there, after the runs that the check unit discards: a wait leaves it as it is (R167, R220). -/
def jobRun (i : Nat) (chk : Nat) (c : Cmd) (d : Dev) : Dev :=
  match jobOp c.desc.opcode with
  | none => jobHold i c (failed stBAD_OPCODE 0) d
  | some op =>
    match runChecked i chk op c d with
    | .wait d => d
    | .done r d =>
      let d := unitCount i c chk r (jobHold i c r d)
      if 2 ≤ chk then unitFault i d else d

/-- The policy check of a job, with the demand loads it waits for (R121, R148, R162, R198). -/
def jobPolicy (i : Nat) (err : KeyErr) (c : Cmd) (d : Dev) : Option Cmd × Dev :=
  let need (h : Nat) (d : Dev) : Dev := if h = 0 || !(t2Loads d.sys.mode) then d else demandLoad (homeDamage d (hRec h)) (hRec h) d
  match policyRun err.t1 c (need c.desc.key2 (need c.desc.key d)) with
  | .wait d => (none, d)
  | .fail e c d => (none, jobHold i c (failed e.1 e.2) d)
  | .pass c d =>
    let c := { c with stage := .run, keyed := c.counted.isEmpty }
    (some c, setJob i c d)

/-- A job's keys are loaded and fetched, as a command's are; what was read gives the job its tag (R141, R143-R145, R162). -/
def jobKeys (i : Nat) (err : KeyErr) (c : Cmd) (d : Dev) : Option Cmd × Dev :=
  if c.keyed then (some c, d)
  else if !(t0Loads d.sys.mode) && !(keysThere d c.counted) then (none, d)
  else
    let (t, d) := loadKeys err.t1 c.counted d
    let (t', d) := if keysThere d c.counted then fetchSlots err c.counted d else (none, d)
    match (unitOf d i).job with
    | some x =>
      if x.result.isSome || d.mpe.halting then (none, d)
      else
        let x := { x with keyed := keysThere d c.counted, epoch := tagMax x.epoch (tagMax t t') }
        (if x.keyed then some x else none, setJob i x d)
    | none => (none, d)

/-- Waits for the unit and its quarter, for the policy check's waits and for key material, then runs. -/
def jobTry (i : Nat) (chk : Nat) (err : KeyErr) (d : Dev) : Dev :=
  match (unitOf d i).job with
  | none => d
  | some c =>
    if c.result.isSome || (unitOf d i).cur.isSome || !(quarterServes d (unitQuarter i)) then d
    else match (if c.stage = .run then (some c, d) else jobPolicy i err c d) with
      | (none, d) => d
      | (some c, d) => match jobKeys i err c d with
        | (none, d) => d
        | (some c, d) => jobRun i chk c d

/-- A job with its descriptor: the parser's checks and its data; then the policy check, or for ROM keys none (R198, R224). -/
def jobTake (a : Access) (i : Nat) (romkey : Bool) (chk : Nat) (err : KeyErr) (c : Cmd) (d : Dev) : Dev :=
  let p := unitPage i
  let x := c.desc
  if romkey && !(romJobOk a i c d) then jobEnd i (failed stPOLICY 0) d
  else
    let d := modUnit i (fun u => { u with jobRom := romkey }) (setFld (setFld d p Reg.SYM_JOB_STAT_BUSY 1) p Reg.SYM_JOB_STAT_DONE 0)
    match jobFault i romkey x with
    | some r => jobHold i c r d
    | none =>
      match jobRead i c d with
      | (.error r, t, d) => jobHold i { c with epoch := t } r d
      | (.ok c, t, d) =>
        let c := { c with epoch := t }
        if romkey then
          let ks := (if x.key = 0 then [] else [romKey x.key]) ++ (if x.key2 = 0 then [] else [romKey x.key2])
          jobTry i chk err (setJob i { c with keys := ks, stage := .run, keyed := true } d)
        else jobTry i chk err (setJob i c d)

/-- GO of the port of unit i (R198); a unit whose ENABLE is 0 accepts no job (R24). -/
def jobGo (a : Access) (i v chk : Nat) (err : KeyErr) (d : Dev) : Dev :=
  let p := unitPage i
  let j := judge a p Reg.SYM_JOB_CTL_GO.off v d
  let d := j.d
  if !(j.took Reg.SYM_JOB_CTL_GO && bit v 31) || d.sys.mode = .holdup || stopped d.sys.mode then d
  else if (unitOf d i).job.isSome || (hdrOf d p).drain then regErr p errJOB_BUSY (seenAs a) Reg.SYM_JOB_CTL_GO.off d
  else if !(hdrOf d p).enable then d
  else
    let addr := fldPair d p Reg.SYM_JOB_LO_ADDR_LO Reg.SYM_JOB_HI_ADDR_HI
    if !(secureRange d addr 64) then regErr p errJOB_ADDR (seenAs a) Reg.SYM_JOB_CTL_GO.off d
    else if (unitOf d i).oos then jobEnd i (failed stENGINE 0) d
    else match jobFetch i 0 addr 64 none d with
      | (.error e, _, d) => jobEnd i (failed e.1 e.2) d
      | (.ok b, t, d) =>
        let c := { freshCmd 0 (fld d p Reg.SYM_JOB_CTL_INSTANCE) 0 0 (2, 2) b with unit := some i, quarter := unitQuarter i, epoch := t }
        jobTake (seenAs a) i (fldB d p Reg.SYM_JOB_CTL_ROMKEY) chk err c d

/-- A job's result leaves through the fence: changes, counters, output, and then JOB_DONE; a job with ROM keys changes no record (R172,
R198, R266). -/
def jobRelease (i chk : Nat) (err : KeyErr) (d : Dev) : Dev :=
  match (unitOf d i).job with
  | none => d
  | some c =>
    match c.result with
    | none => jobTry i chk err d
    | some r =>
      if !(fenceOpen d c.epoch) then d
      else match commitCmd c (if (unitOf d i).jobRom then { r with effects := [] } else r) d with
        | none => d
        | some (r, d) =>
          let segs := c.dstList.getD []
          let (w, d) := jobWrite i segs r.stream d
          let (w', d) := jobWrite i segs r.out d
          let w := w.join w'
          let (x, d) := if r.auxOut.isEmpty then (.ok, d) else jobWrite i [(c.desc.aux + ctxOff c.desc, 128)] r.auxOut d
          let e := if w = .ok then memDenial x 3 else memDenial w 2
          jobEnd i (if w = .ok && x = .ok then r else failed e.1 e.2) d

/-- SYM_JOB_GO on the page of a lane (R198). -/
def execSymJobGo (a : Access) (lane val : Nat) (chk : CheckFails) (s : State) (err : KeyErr := keySound) : Host.Outcome State Fault Refusal :=
  runAcc a s fun a d => if lane < 16 then jobGo a lane val chk err d else d

/-- HASH_JOB_GO on the page of a cluster (R198). -/
def execHashJobGo (a : Access) (cluster val : Nat) (chk : CheckFails) (s : State) (err : KeyErr := keySound) : Host.Outcome State Fault Refusal :=
  runAcc a s fun a d => if cluster < 4 then jobGo a (16 + cluster) val chk err d else d

/-- PKE_JOB_GO on the page of an engine (R224). -/
def execPkeJobGo (a : Access) (engine val : Nat) (chk : CheckFails) (s : State) (err : KeyErr := keySound) : Host.Outcome State Fault Refusal :=
  runAcc a s fun a d => if engine < 8 then jobGo a (20 + engine) val chk err d else d

/-- JOB_DONE of the port of a unit, class 3 of R368: a job that waited goes on, and one with a result is released (R198). -/
def execJobDone (cls idx : Nat) (s : State) (chk : CheckFails := 0) (err : KeyErr := keySound) : Host.Outcome State Fault Refusal :=
  runDev s fun d => if cls = 3 && idx < 28 then jobRelease idx chk err d else d

end Sys2Proof.Machine
end

