-- ==== Sys2Proof/Machine/Power.lean ====
section
/-! DEFINITION. Unit and quarter power, DROWSE, hold-up, the hold-up bank, wear and the supplies (R31, R402, R443-R471). -/

namespace Sys2Proof.Machine

/-! ## Stopping a DMA channel (R379) -/

/-- Changes a channel. -/
def modDma (ch : Nat) (f : DmaRun → DmaRun) (d : Dev) : Dev := { d with dma := smapSet dmaReset d.dma ch (f (dmaOf d ch)) }

/-- A channel stops on an error: ERR, the address, the repetitions cancelled, ERROR and the job boundary. -/
def dmaStop (ch err addr : Nat) (d : Dev) : Dev :=
  let p := pgDMA ch
  let d := setFld (setFld (modDma ch (fun _ => dmaReset ch) d) p Reg.DMA_STAT_ERR err) p Reg.DMA_STAT_REMAIN 0
  let d := setFld (setFld d p Reg.DMA_ERR_ADDR_LO_ADDR_LO addr) p Reg.DMA_ERR_ADDR_HI_ADDR_HI (addr / 2 ^ 32)
  jobBoundary p (raiseEv p 1 d)

/-! ## Units (R31, R452-R454) -/

/-- Quarter of a page with PG_PWR (R41). -/
def pageQuarter (p : Nat) : Nat :=
  match pageKind p with
  | some .sym => (p - 0x080) / 4
  | some .pke => (p - 0x090) / 2
  | some .hash => p - 0x098
  | some .dma => (p - 0x0A0) / 8
  | _ => (p - 0x050) % 4

/-- Whether a unit holds work that a secure-world write started (R454): a job, a secure transfer, a capture. -/
def holdsSecure (d : Dev) (p : Nat) : Bool :=
  match pageKind p with
  | some .sym | some .hash | some .pke => (unitOf d (pageUnit p)).job.isSome
  | some .dma => (dmaOf d (p - 0x0A0)).busy && (dmaOf d (p - 0x0A0)).secStart
  | some .ent => (wellOf d (p - 0x050)).capturing
  | _ => false

/-- A unit's request takes effect: OFF acts as GATED, and a gated Well stops and marks its quarter's DRBG (R241, R452). -/
def pwrTake (p : Nat) (d : Dev) : Dev :=
  let h := hdrOf d p
  let d := setHdr d p { h with pwrNow := min 1 h.pwrReq, pwrPend := false, pwrHeld := false }
  if pageKind p = some .ent && h.pwrNow = 0 && h.pwrReq ≠ 0 then markNeed (p - 0x050) (wellStop (p - 0x050) d) else d

/-- A request that waits takes effect once the unit holds no work; one that waits on secure work begins to act first (R453,
R454). -/
def pwrTry (p : Nat) (d : Dev) : Dev :=
  let h := hdrOf d p
  if !h.pwrPend || (h.pwrHeld && holdsSecure d p) then d
  else if jobsHeld d p then setHdr d p { h with pwrHeld := false } else pwrTake p d

/-- A write of PG_PWR that the page admits. -/
def writePwr (a : Access) (p v : Nat) (d : Dev) : Dev :=
  let x := bits v 1 0
  match pageKind p with
  | none => d
  | some k =>
    if !(pageCap k).pwr then d
    else if (hdrOf d p).softRst then regErr p errCFG a 0x034 d
    else if x = 3 then regErr p errVALUE a 0x034 d
    else
      let d := modHdr d p (fun h => { h with pwrReq := x, pwrPend := true, pwrHeld := !a.sec && holdsSecure d p })
      if x = 0 then pwrTake p d else pwrTry p d

/-- A write of PG_PWR by a master. -/
def pgPwr (a : Access) (p v : Nat) (d : Dev) : Dev :=
  match admitWrite (seenAs a) p 0x034 d with
  | (some _, d) => writePwr (seenAs a) p (v % 2 ^ 32) d
  | (none, d) => d

/-- PG_PWR_REQUEST (R31, R454). -/
def execPgPwrRequest (a : Access) (page val : Nat) (s : State) : Host.Outcome State Fault Refusal :=
  runAcc a s fun a => (pgPwr a page val)

/-- UNIT_POWER_DRAINED (R453, R454). -/
def execUnitPowerDrained (page : Nat) (s : State) : Host.Outcome State Fault Refusal :=
  runDev s (pwrTry page)

/-! ## Quarters (R452, R453, R455) -/

/-- A core is reset (R351): its registers and the image it ran are gone, its claims released; the contexts that the monitor keeps
stay, and so do the locked PMP entries (R330). -/
def coreReset (h : Nat) (run : HartRun) (d : Dev) : Dev :=
  let d := releaseClaims h (modHart d h (fun x => { hartReset h with
    run := run, secCtx := x.secCtx, nsCtx := x.nsCtx, monIrq := x.monIrq, pmp := x.pmp }))
  { d with sys := { d.sys with dbgHalted := setBit d.sys.dbgHalted h false } }

/-- The harts of a quarter. -/
def quarterHarts (q : Nat) : List Nat := (List.range 4).map (· + 4 * q)

/-- The lanes, cluster and engines of a quarter, by class 3 index. -/
def quarterUnits (q : Nat) : List Nat := [4 * q, 4 * q + 1, 4 * q + 2, 4 * q + 3, 16 + q, 20 + 2 * q, 21 + 2 * q]

/-- Its DMA channels. -/
def quarterDma (q : Nat) : List Nat := (List.range 8).map (· + 8 * q)

/-- Whether a quarter holds work that a request for a state waits for (R453). -/
def quarterWork (d : Dev) (q : Nat) (t : Pwr) : Bool :=
  (quarterUnits q).any (fun i => (unitOf d i).cur.isSome || (unitOf d i).job.isSome)
    || (quarterDma q).any (fun c => (dmaOf d c).busy) || (wellOf d q).capturing
    || (quarterHarts q).any (fun h =>
        let x := hartOf d h
        match t with
        | .off => x.run = .running || x.run = .parked
        | _ => (x.run = .running && !(hartIdle d h)) || x.run = .parked)

/-- Commands that wait on a quarter's ring go to the next that is ON (R11, R453). -/
def ringsMove (q : Nat) (d : Dev) : Dev :=
  modCmdSt (fun s => { s with cmds := s.cmds.map (fun c =>
    if c.stage = .ring && c.quarter = q then { c with quarter := (nextOn d q).getD q } else c) }) d

/-- A quarter loses its power (R241, R452, R479). -/
def quarterLose (q : Nat) (d : Dev) : Dev :=
  let d := drbgLose q (wellStop q d)
  let d := wipeMem d (0x2000_0000 + q * 0x40_0000) (0x2000_0000 + q * 0x40_0000 + 0x3F_FFFF)
  (quarterHarts q).foldl (fun d h => coreReset h .off d) d

/-- The units of a quarter have their registers at reset at the first ON after OFF (R479). -/
def quarterFresh (q : Nat) (d : Dev) : Dev :=
  let ps := (quarterUnits q).map unitPage ++ (quarterDma q).map pgDMA ++ [pgENT q]
  let d := ps.foldl (fun d p => clearRegs p 0x040 0xFFF d) d
  let d := (quarterUnits q).foldl (fun d i => modUnit i (fun _ => unitReset i) d) d
  (quarterDma q).foldl (fun d c => modDma c (fun _ => dmaReset c) d) d

/-- The watchdogs of a quarter have not counted for some time (R349, R478). -/
def wdtResume (q gone : Nat) (d : Dev) : Dev :=
  (quarterHarts q).foldl (fun d h => modHart d h (fun y => { y with wdStart := if y.run = .off then y.wdStart else y.wdStart + gone })) d

/-- A quarter takes a power state. -/
def quarterTake (q : Nat) (t : Pwr) (d : Dev) : Dev :=
  let was := quarterOf d q
  let d := modQuarter d q (fun x => { x with
    pwr := t, pend := none, pll := t = .on, lost := t ≠ .on && (x.lost || t = .off), gatedAt := if was.pwr = .on then d.now else x.gatedAt })
  let d := match t with
    | .on => if was.lost then quarterFresh q d else if was.pwr = .gated then wdtResume q (d.now - was.gatedAt) d else d
    | .gated => if was.pwr = .on then markNeed q (wellStop q d) else d
    | .off => if was.pwr = .off then d else quarterLose q d
  let d := if was.pwr = .off && t ≠ .off then
      (quarterHarts q).foldl (fun d h => modHart d h (fun x => if x.run = .off then { x with run := .inReset } else x)) d
    else d
  syncPorts (if was.pwr = t then d else raiseEv pgPWR 0 d)

/-- A waiting request takes effect once the quarter holds no work. -/
def quarterTry (q : Nat) (d : Dev) : Dev :=
  match (quarterOf d q).pend with
  | some t => if quarterWork d q t then d else quarterTake q t d
  | none => d

/-- A request for a quarter that is not refused: ON at once, less power once it holds no work. -/
def quarterAsk (q x : Nat) (d : Dev) : Dev :=
  if x = 0 then quarterTake q .on d
  else
    let t : Pwr := if x = 1 then .gated else .off
    let d := modQuarter d q (fun k => { k with pend := some t })
    quarterTry q (syncPorts (ringsMove q d))

/-- Page error code of the PWR page. -/
def errQ_REFUSED := 0x0100

/-- What PWR_QREQ says of one quarter's field: nothing new, taken, BAD_VALUE or Q_REFUSED (R452). -/
def qreqCode (d : Dev) (q v : Nat) : Nat :=
  let x := bits v (2 * q + 1) (2 * q)
  if x = 3 then errVALUE
  else if x = bits (fld d pgPWR Reg.PWR_QREQ_REQ) (2 * q + 1) (2 * q) then 0
  else if (q = 0 && x ≠ 0) || ((quarterOf d q).disabled && x ≠ 2) then errQ_REFUSED else 0

/-- A write of PWR_QREQ that the page admits: each quarter's field on its own (R452). -/
def writeQreq (a : Access) (v : Nat) (d : Dev) : Dev :=
  let off := Reg.PWR_QREQ_REQ.off
  let codes := [0, 1, 2, 3].map (fun q => qreqCode d q v)
  if (hdrOf d pgPWR).softRst then regErr pgPWR errCFG a off d
  else
    let d := [0, 1, 2, 3].foldl (fun d q =>
      let x := bits v (2 * q + 1) (2 * q)
      let old := fld d pgPWR Reg.PWR_QREQ_REQ
      if codes.getD q 0 = 0 && x ≠ bits old (2 * q + 1) (2 * q) then
        quarterAsk q x (setFld d pgPWR Reg.PWR_QREQ_REQ (setBits old (2 * q + 1) (2 * q) x))
      else d) d
    if codes.contains errVALUE then regErr pgPWR errVALUE a off d
    else if codes.contains errQ_REFUSED then regErr pgPWR errQ_REFUSED a off d else d

/-- QUARTER_POWER_REQUEST (R452). -/
def execQuarterPowerRequest (a : Access) (val : Nat) (s : State) : Host.Outcome State Fault Refusal :=
  runAcc a s fun a d =>
    match admitWrite (seenAs a) pgPWR Reg.PWR_QREQ_REQ.off d with
    | (some _, d) => writeQreq (seenAs a) (val % 2 ^ 32) d
    | (none, d) => d

/-- QUARTER_POWER_DRAINED (R453). -/
def execQuarterPowerDrained (q : Nat) (s : State) : Host.Outcome State Fault Refusal :=
  runDev s fun d => if q < 4 then quarterTry q d else d

/-- The work of a quarter's units ends with ENGINE_FAULT (R455): commands at its units, jobs, DMA transfers. -/
def quarterFail (q : Nat) (d : Dev) : Dev :=
  let d := (d.cmd.cmds.filter (fun c => c.stage = .taken && (c.unit.map (fun i => i < 28 && unitQuarter i = q)).getD false)).foldl
    (fun d c => failTaken c (stENGINE, 0) d) d
  let d := (quarterUnits q).foldl (fun d i => match (unitOf d i).job with
    | some c => jobEnd i (failed stENGINE 0) (countUses c (ticketFree c.tickets d))
    | none => d) d
  (quarterDma q).foldl (fun d c => if (dmaOf d c).busy then dmaStop c 7 0 d else d) d

/-- A quarter is disabled by the third core reset (R351, R455). -/
def quarterDisable (q : Nat) (d : Dev) : Dev :=
  let d := quarterFail q d
  let d := modQuarter d q (fun x => { x with disabled := true, resets := 3 })
  let d := setFld d pgPWR Reg.PWR_QREQ_REQ (setBits (fld d pgPWR Reg.PWR_QREQ_REQ) (2 * q + 1) (2 * q) 2)
  let d := ringsMove q (quarterTake q .off d)
  raiseEv pgSYS 2 (ringSweep d)

/-! ## DROWSE (R456, R457) -/

/-- Whether DROWSE can be entered (R456). -/
def drowseOk (d : Dev) : Bool :=
  d.cmd.cmds.isEmpty && d.mgr.busy.isNone && !d.key.busy && d.lc.op.isNone && d.ofc.op.isNone
    && d.dma.all (fun kv => !kv.2.busy)
    && d.hdr.all (fun kv => !kv.2.pwrPend) && [0, 1, 2, 3].all (fun q => (quarterOf d q).pend.isNone && (wellOf d q).run ≠ .switching)

/-- The six steps into DROWSE, for the hart that called, whose call stays open in the monitor. Accesses to protected memory, their verification
and the buffered writes finish before (R272). -/
def drowseEnter (h : Nat) (d : Dev) : Dev :=
  let d := mpeSettle (t1Pass d)
  if d.mpe.failing.isSome then d
  else
  let d := trapIn h (ofcStop (enterMode .drowse d))
  let d := if vaultWritable d then vaultDrain d else d
  let d := ccFlush (mpeSettle (t1Pass (flushEvents d)))
  let d := [4, 5].foldl (fun d n => markNeed n d) ([0, 1, 2, 3].foldl (fun d q => if (quarterOf d q).pwr = .on then markNeed q (wellStop q d) else d) d)
  let x := d.hearth
  let d := { d with hearth := { x with
      drowseAt := d.now, drowsePrior := x.quarters, drowseHart := some h, diePll := false, scale := 3
      quarters := x.quarters.map (fun q => { q with pwr := .gated, pll := false }) } }
  wrapFld d pgPWR Reg.PWR_DROWSE_ENTRIES 1

/-- Whether the event that a wake source names is there (R457). -/
def wakeSeen (d : Dev) (src : Nat) : Bool :=
  match src with
  | 1 => d.host.a.up || d.host.b.up
  | 2 => (List.range 16).any (fun c => (claimPick d c true).isSome || (claimPick d c false).isSome)
  | 3 => (List.range 16).any (monLine d)
  | 5 => d.tamp.src.any (fun kv => kv.2.a || kv.2.b)
  | _ => false

/-- DROWSE_WAKE (R457): 1 a host TLP, 2 an interrupt source, 3 a monitor source, 5 a tamper alarm. -/
def execDrowseWake (src : Nat) (s : State) : Host.Outcome State Fault Refusal :=
  runDev s fun d => if wakeSeen d src then wake src d else d

/-- WAKE_TIMER (R457): PWR_WAKE_TMR lantern ticks after entry. -/
def execWakeTimer (s : State) : Host.Outcome State Fault Refusal :=
  runDev s fun d =>
    let n := fld d pgPWR Reg.PWR_WAKE_TMR_TICKS
    if d.sys.mode = .drowse && n ≠ 0 then
      wake 4 (waitUntil (timeOfStamp d (tickOf (d.hearth.drowseAt - d.lant.epochNs) + n)) d)
    else d

/-- LOCK_LOST (R451, R469): a locked PLL, 0 to 3 a quarter's and 4 the die's, loses lock, and has it again 20 µs later. -/
def execLockLost (pll : Nat) (s : State) : Host.Outcome State Fault Refusal :=
  runDev s fun d =>
    if (pll < 4 && (quarterOf d pll).pll) || (pll = 4 && d.hearth.diePll) then
      waitUntil (d.now + 20000) (raiseEv pgCLK 0 (satFld d pgCLK Reg.CLK_RELOCK_COUNT 1))
    else d

/-! ## The bank and its measurement (R460-R464) -/

/-- BANK_CHARGED (R460, R461): the bank has been charged to a voltage; a roll-forward that waited for it goes on (R417). -/
def execBankCharged (mv : Nat) (s : State) : Host.Outcome State Fault Refusal :=
  runDev s fun d =>
    if dieOn d.sys.mode && d.sup.p12vGood then
      bootCharged { d with sup := { d.sup with bankMv := max d.sup.bankMv (min mv (vTarget d)) } }
    else d

/-- BANK_MEASUREMENT (R464): MEAS_H hours after the last one it starts, if the bank could spare the discharge. -/
def execBankMeasurement (s : State) : Host.Outcome State Fault Refusal :=
  runDev s fun d =>
    let n := fld d pgHOLD Reg.HOLD_CFG_MEAS_H
    if d.sys.mode = .drowse && n ≠ 0 && !d.hearth.measuring && bankLcOk { d with sup := { d.sup with bankMv := d.sup.bankMv - 1000 } } then
      let d := waitUntil (d.nv.measAt + n * 3600000000000) d
      { d with hearth := { d.hearth with measuring := true } }
    else d

/-- What of the bank's energy at shipment has gone, against 90 mJ left, in units of 0.01 % (R465). -/
def bankUsed (d : Dev) : Nat :=
  let e := eUse d (vTarget d)
  let room := d.nv.shipUse - 720000000000
  if d.nv.shipUse ≤ e then 0 else if room = 0 then 10000 else min 10000 ((d.nv.shipUse - e) * 10000 / room)

/-- USED of an item (R465): the bank, its ESR, the fuse rows and the spare cells from what the block holds, the others as last measured. -/
def wearUsed (d : Dev) (n : Nat) : Nat :=
  match n with
  | 5 => bankUsed d
  | 6 => min 10000 (d.nv.esrMohm * 10)
  | 12 => min 10000 (max ((d.fuse.owner.filter (fun r => r.digest.isSome)).length * 2500) (d.fuse.minSvn * 10000 / 255))
  | 13 => if d.wear.wearEnd then 10000 else min 10000 ((192 - d.key.spares) * 10000 / 192)
  | _ => min 10000 (smapGet zeroAt d.wear.used n)

/-- A wear alarm of an item (R462, R466). -/
def wearAlarm (item kind : Nat) (d : Dev) : Dev :=
  signalPfs 1 (record 0x0602 (payWear item kind (wearUsed d item)) (raiseEv pgWEAR 0 d))

/-- A measurement ends with a result (R462, R464): C, ESR, the recharge, the limit and its alarm. -/
def measureEnd (cap esr : Nat) (d : Dev) : Dev :=
  let d := { d with nv := { d.nv with capUf := min 65535 cap, esrMohm := min 65535 esr, measAt := d.now } }
  let d := setLimit { d with hearth := { d.hearth with measuring := false, stale := false }, sup := { d.sup with bankMv := vTarget d } }
  let d := if d.hearth.marginLow then
      let d := if d.wear.holdMargin || d.wear.wearEnd then d else smbAlert d
      wearAlarm 5 1 (raiseEv pgHOLD 0 { d with wear := { d.wear with holdMargin := true } })
    else d
  jobBoundary pgHOLD (raiseEv pgHOLD 1 d)

/-- MEAS_DONE (R462, R464). -/
def execMeasDone (capUf esrMohm : Nat) (s : State) : Host.Outcome State Fault Refusal :=
  runDev s fun d => if d.hearth.measuring then measureEnd capUf esrMohm d else d

/-- HOLD_STALE (R464): seven days of lantern time without a successful measurement. -/
def execHoldStale (s : State) : Host.Outcome State Fault Refusal :=
  runDev s fun d =>
    if dieOn d.sys.mode && !d.hearth.stale then
      let d := waitUntil (d.nv.measAt + 604800000000000) d
      { d with hearth := { d.hearth with stale := true } }
    else d

/-! ## Wear (R465, R466) -/

/-- LIFE_DAYS from the values of USED at the ends of days, newest first (R466). -/
def lifeDays (hist : List Nat) : Nat :=
  let n := hist.length - 1
  let now := hist.headD 0
  let rise := now - hist.getD n 0
  if n < 7 || rise = 0 then 0xFFFF
  else
    let days := (10000 - now) * n / rise
    if 65534 < days then 0xFFFF else days

/-- History without an entry. -/
def noHist (_ : Nat) : List Nat := []

/-- One item's daily update; the first day begins with the value before it. -/
def wearDay (n used : Nat) (d : Dev) : Dev :=
  let old := wearUsed d n
  let d := { d with wear := { d.wear with used := smapSet zeroAt d.wear.used n (min 10000 used) } }
  let cur := wearUsed d n
  let hist := smapGet noHist d.wear.history n
  let hist := if hist.isEmpty then [cur, old] else cur :: hist.take 30
  let d := { d with wear := { d.wear with history := smapSet noHist d.wear.history n hist } }
  if fld d pgWEAR Reg.WEAR_CFG_ALARM ≤ cur && !(bit d.wear.items n) then
    wearAlarm n 0 { d with wear := { d.wear with items := setBit d.wear.items n true } }
  else d

/-- WEAR_DAILY_UPDATE (R466): the day's measured values of the items, by number. -/
def execWearDailyUpdate (used : List Nat) (s : State) : Host.Outcome State Fault Refusal :=
  runDev s fun d =>
    if dieOn d.sys.mode then (List.range 14).foldl (fun d n => wearDay n (used.getD n (wearUsed d n)) d) d else d

/-! ## HOLDUP (R455, R458, R459, R463) -/

/-- Every quarter goes OFF at once, its work discarded without release (R455, R459). -/
def holdQuarters (d : Dev) : Dev :=
  let d := discardAll d
  let d := modMpe (fun m => { m with stalled := false }) d
  [0, 1, 2, 3].foldl (fun d q =>
    let d := wellStop q d
    let d := (quarterHarts q).foldl (fun d h => coreReset h .off d) d
    modQuarter d q (fun x => { x with pwr := .off, pend := none, pll := false, lost := true })) d

/-- Whether a pending entry carries a reservation raise (R127, R174, R193). -/
def carriesResv (d : Dev) (e : VaultEnt) : Bool :=
  (smapGet noneAt d.key.usageRaise e.recNo).isSome || (smapGet noneAt d.key.nonceRaise e.recNo).isSome

/-- Writes the pending entries that satisfy a test as a batch (R150, R459); with its commit record complete and its counter cell not
written, the batch is valid all the same (R152). -/
def saveBatch (p : VaultEnt → Bool) (cell : Bool) (d : Dev) : Dev :=
  let d := modKey (fun k => { k with
    queue := k.queue.map (fun e => { e with batch := if p e then some k.batches else none }), batches := k.batches + 1, closeAt := none }) d
  vaultSelf (if cell then 3 else 2) d

/-- The two batches of the save; reach 1 and 2 are the first batch's commit record and cell, 3 and 4 the second's. -/
def saveVault (reach : Nat) (d : Dev) : Dev :=
  if !(vaultWritable d) then d
  else
    let resv := d.key.queue.map (fun e => (e.recNo, carriesResv d e))
    let first (e : VaultEnt) : Bool := resv.contains (e.recNo, true)
    let d := if 1 ≤ reach then saveBatch first (2 ≤ reach) d else d
    if 3 ≤ reach then saveBatch (fun _ => true) (4 ≤ reach) d else d

/-- The save summary: bytes, margin and duration are what the parts make them (R459). -/
def saveSummary (d : Dev) : Dev :=
  let (a, d) := drawFresh d
  let (b, d) := drawFresh d
  let (c, d) := drawFresh d
  let m := Config.freeNat b % 2 ^ 32
  let t := Config.freeNat c % 2 ^ 32
  { d with nv := { d.nv with save := some ⟨Config.freeNat a % 2 ^ 64, m, t⟩, lastMargin := min 65535 m, lastDur := min 65535 t } }

/-- The save sequence as far as the bank carries it: 5 is the flush to MRAM, 6 the summary (R459, R463). -/
def saveGo (reach : Nat) (d : Dev) : Dev :=
  let d := if d.sys.mode = .zeroised then d else saveVault reach d
  let d := if 5 ≤ reach then flushEvents d else d
  if 6 ≤ reach then saveSummary d else d

/-- The die's regulators are off: VIGIL, and with the die's power everything that it held is gone (R446, R447). -/
def vigilGo (d : Dev) : Dev :=
  let d := enterMode .vigil d
  let d := dieReset d
  { d with sup := { d.sup with goodSince := d.now } }

/-- The supply fails (R446, R458, R463): HOLDUP from modes 2 to 8, the save in HALTED or ZEROISED where they stand, then VIGIL.
A programming operation of the life-cycle controller runs to its end first (R418). -/
def holdupGo (reach : Nat) (d : Dev) : Dev :=
  if savable d.sys.mode then
    let drowse := d.sys.mode = .drowse
    let d := enterMode .holdup (signalPfs 1 (rootCut (lcCut d)))
    let d := holdQuarters { d with hearth := { d.hearth with scale := if drowse then 3 else 2 } }
    vigilGo (saveGo reach d)
  else if stopped d.sys.mode then vigilGo (saveGo reach d)
  else d

/-- Supply values as measured; P12V and P3V3_AUX turn good and bad at their own levels (R443). -/
def supPut (p12 aux vbat cell : Nat) (fail : Bool) (d : Dev) : Dev :=
  let s := d.sup
  let good : Bool := if 11000 ≤ p12 then true else if p12 < 10200 then false else s.p12vGood
  let s' := { s with
    p12vMv := p12, p12vGood := good, auxGood := if 3000 ≤ aux then true else if aux < 2900 then false else s.auxGood
    vbatMv := vbat, cellMv := cell, pwrFail := fail }
  { d with sup := if good && !fail && !(s.p12vGood && !s.pwrFail) then { s' with goodSince := d.now } else s' }

/-- HOLDUP_DETECT (R458). -/
def execHoldupDetect (p12vMv : Nat) (pwrFail : Bool) (reach : Nat) (s : State) : Host.Outcome State Fault Refusal :=
  runDev s fun d =>
    if p12vMv < 10200 || pwrFail then
      holdupGo reach { d with sup := { d.sup with p12vMv := p12vMv, pwrFail := pwrFail, p12vGood := if p12vMv < 10200 then false else d.sup.p12vGood } }
    else d

/-- Supply of the battery-backed domain: 0 an internal rail, 1 VBAT, 2 the cell, none without any (R402). -/
def lantSupply (s : SupplySt) : Option Nat :=
  if s.p12vGood || s.auxGood then some 0
  else if 2500 ≤ s.vbatMv && s.vbatMv ≤ 3600 then some 1
  else if s.cellMv ≠ 0 then some 2 else none

/-- LANTERN_SUPPLY_CHANGE (R402, R404, R406, R446): the domain reselects its supply; from OFF it starts anew and the device is in VIGIL. A
supply that fails with the die on acts as R458 gives. -/
def execLanternSupplyChange (p12vMv auxMv vbatMv cellMv : Nat) (pwrFail : Bool) (s : State) : Host.Outcome State Fault Refusal :=
  runDev s fun d =>
    let d := supPut p12vMv auxMv vbatMv cellMv pwrFail d
    let d := if dieOn d.sys.mode && (!d.sup.p12vGood || pwrFail) then holdupGo 6 d else d
    match lantSupply d.sup with
    | some n =>
      let d := if d.sys.mode = .off then
          enterMode .vigil { d with lant := { lantReset with powered := true, por := true, epochNs := d.now } }
        else d
      modLant (fun l => { l with supply := n }) d
    | none => d

/-- LANTERN_POWER_LOSS (R404, R406, R446): in VIGIL the domain loses its last supply, and all that it held. -/
def execLanternPowerLoss (s : State) : Host.Outcome State Fault Refusal :=
  runDev s fun d =>
    if d.sys.mode = .vigil && !d.sup.p12vGood && !d.sup.auxGood then
      enterMode .off { d with lant := { lantReset with powered := false }, wear := { d.wear with history := [] } }
    else d

/-! ## Cold reset (R444) -/

/-- COLD_RESET: 2 ms after P12V is good with PWR_FAIL_N deasserted the die leaves reset, its bank empty. -/
def execColdReset (parts : BootParts) (s : State) : Host.Outcome State Fault Refusal :=
  runDev s fun d =>
    if (d.sys.mode = .vigil && d.sup.p12vGood && !d.sup.pwrFail) || (d.sys.mode = .romBoot && d.sys.stage = .notRun) then
      let d := if d.sys.mode = .vigil then waitUntil (d.sup.goodSince + 2000000) d else d
      bootGo parts { d with sup := { d.sup with bankMv := 0 } }
    else d

end Sys2Proof.Machine
end

