-- ==== Sys2Proof/Machine/Faults.lean ====
section
/-! DEFINITION. The fault controller at work, the watchdogs, the double trap and the restart of the device (R345, R349-R351,
R472-R478). -/

namespace Sys2Proof.Machine

/-! ## RESET and HALT -/

/-- The wind-down and a reset equivalent to cold reset, the module powered and the battery-backed domain as it is (R345, R476). -/
def restartGo (parts : BootParts) (d : Dev) : Dev := bootGo parts (windDown d)

/-- Whether the controller accepts faults (R478). -/
def fltServes (d : Dev) : Bool := dieOn d.sys.mode && !(stopped d.sys.mode) && !d.mpe.halting

/-- A HALT fault enters its slot and the ordered halt runs (R269, R472, R475). -/
def faultHalt (cause subj : Nat) (d : Dev) : Dev :=
  if fltServes d then haltGo orderedFail (enterSlot ⟨.halt, cause, subj⟩ d) else d

/-- A fault whose slot and every higher one are empty starts (R473, R476). -/
def faultStart (f : Flt) (d : Dev) : Dev :=
  match f.cls with
  | .halt => faultHalt f.cause f.subj d
  | .reset => restartGo d.parts (enterSlot f d)
  | _ => enterSlot f d

/-! ## Arrival (R473, R474) -/

/-- Counts a merged or absorbed fault. -/
def countMerged (d : Dev) : Dev := satFld d pgSYS Reg.SYS_FLT_CNT_MERGED 1

/-- Whether a fault is merged with one of a list (R473 rule 1). -/
def mergesWith (f : Flt) (l : List Flt) : Bool := l.any (fun x => sameSubject f x && fltRank f.cls ≤ fltRank x.cls)

/-- A fault, its class fixed, meets the controller: merged, started, queued, or the queue overflows. -/
def faultTake (f : Flt) (d : Dev) : Dev :=
  let f := fixClass d f
  if mergesWith f (fltAll d) then countMerged d
  else if fltFree d f.cls then faultStart f d
  else if d.flt.queue.length < 8 then
    satFld (modFlt (fun x => { x with queue := x.queue ++ [f] }) d) pgSYS Reg.SYS_FLT_CNT_QUEUED 1
  else faultHalt 5 0 (modFlt (fun x => { x with escalated := true }) d)

/-- The better of two faults that arrive together: the higher class, then the lower subject. -/
def fltFirst (d : Dev) (b : Option Flt) (f : Flt) : Option Flt :=
  match b with
  | none => some f
  | some x =>
    let r := fltRank (fixClass d f).cls
    let r' := fltRank (fixClass d x).cls
    if r' < r || (r = r' && f.subj < x.subj) then some f else some x

/-- FAULT_ARRIVAL (R473, R478): the next of the faults raised and not yet taken; in DROWSE they wait for the wake. -/
def execFaultArrival (s : State) : Host.Outcome State Fault Refusal :=
  runDev s fun d =>
    if !(fltServes d) then { d with raised := [] }
    else if d.sys.mode = .drowse then d
    else match d.raised.foldl (fltFirst d) none with
      | some f => faultTake f { d with raised := d.raised.erase f }
      | none => d

/-! ## The end of handling (R474, R477) -/

/-- The oldest of the highest class. -/
def queuePick (l : List Flt) : Option Flt :=
  l.foldl (fun (b : Option Flt) f => match b with
    | none => some f
    | some x => if fltRank x.cls < fltRank f.cls then some f else some x) none

/-- Queued CORE faults of a disabled quarter are absorbed, and the others have their class fixed. -/
def queueFix (d : Dev) : Dev :=
  let gone (f : Flt) : Bool := f.cls = .core && (quarterOf d (hartQuarter f.subj)).disabled
  let n := (d.flt.queue.filter gone).length
  satFld (modFlt (fun x => { x with queue := (x.queue.filter (fun f => !(gone f))).map (fixClass d) }) d) pgSYS Reg.SYS_FLT_CNT_MERGED n

/-- The queue is examined until a fault cannot enter a slot; fuel bounds the number taken. -/
def queueRun : Nat → Dev → Dev
  | 0, d => d
  | n + 1, d =>
    match queuePick d.flt.queue with
    | none => d
    | some f =>
      let rest := d.flt.queue.erase f
      let d' := modFlt (fun x => { x with queue := rest }) d
      if mergesWith f (fltAll d') then queueRun n (countMerged d')
      else if fltFree d f.cls then queueRun n (faultStart f d')
      else d

/-- A core's reset is complete: it counts, and CORE_RESET is raised (R351). -/
def coreDone (f : Flt) (d : Dev) : Dev :=
  let q := hartQuarter f.subj
  if (quarterOf d q).disabled then d
  else raiseEv pgSYS 1 (modQuarter (coreReset f.subj .inReset d) q (fun x => { x with resets := min 3 (x.resets + 1) }))

/-- FAULT_HANDLING_DONE (R473, R474, R477): the handling of class 1 or 2 ends, unless a higher slot suspends it. -/
def execFaultHandlingDone (cls : Nat) (s : State) : Host.Outcome State Fault Refusal :=
  runDev s fun d =>
    let c : FltClass := if cls = 1 then .core else .quarter
    match fltSlot d c with
    | some f =>
      if fltServes d && d.sys.mode ≠ .drowse && (cls = 1 || cls = 2) && fltFree (setSlot c none d) c then
        let d := setSlot c none (if cls = 1 then coreDone f d else quarterDisable f.subj d)
        queueRun 8 (queueFix d)
      else d
    | none => d

/-! ## Watchdogs and the double trap (R349, R350) -/

/-- Whether a quarter's watchdog is enabled. -/
def wdtOn (d : Dev) (q : Nat) : Bool := bit (fld d pgSYS Reg.SYS_WDT_CFG_EN) q

/-- The timers of quarters whose EN has changed from 0 to 1 start from zero. -/
def wdtSync (was : Nat) (d : Dev) : Dev :=
  (List.range 16).foldl (fun d h =>
    if wdtOn d (hartQuarter h) && !(bit was (hartQuarter h)) && (hartOf d h).run ≠ .off then modHart d h (fun x => { x with wdStart := d.now })
    else d) d

/-- A hart's timer restarts, which is the job boundary of the SYS page (R352). -/
def wdtRestart (h : Nat) (d : Dev) : Dev :=
  let was := fld d pgSYS Reg.SYS_WDT_CFG_EN
  wdtSync was (jobBoundary pgSYS (modHart d h (fun x => { x with wdStart := d.now })))

/-- A fault is raised for the controller. -/
def raiseFault (f : Flt) (d : Dev) : Dev := if fltServes d then { d with raised := d.raised ++ [f] } else d

/-- A core parks: it stops, and what it holds claimed is released (R350, R362). -/
def parkCore (h : Nat) (d : Dev) : Dev := releaseClaims h (modHart d h (fun x => { x with run := .parked, wfi := false }))

/-- Whether a hart executes. -/
def hartRuns (d : Dev) (h : Nat) : Bool :=
  h < 16 && (hartOf d h).run = .running && (quarterOf d (hartQuarter h)).pwr = .on && d.sys.mode ≠ .drowse && dieOn d.sys.mode
    && !(bit d.sys.dbgHalted h)

/-- What a hart reads of a device CSR (R328): mworld, mdbltrap, mdevinfo and mtaint answer machine mode alone, and swdkick reads zero; none is
an illegal-instruction exception, which the core takes itself (log entry 197). -/
def deviceCsr (d : Dev) (h csr : Nat) : Option Nat :=
  if csr = 0x5C0 then (if (hartOf d h).priv = .user then none else some 0)
  else if (hartOf d h).priv ≠ .machine then none
  else match csr with
    | 0x7C0 => some (b2n (hartOf d h).world)
    | 0x7C1 => some (b2n (hartOf d h).nest)
    | 0xFC0 => some (0x0001 * 2 ^ 16 + regGet d pgSYS Reg.SYS_ROM_VER_MAJOR.off % 2 ^ 16)
    | 0xFC1 => some (2 * dbgEnables d + b2n d.sys.taint)
    | _ => none

/-- WATCHDOG_KICK: a write of swdkick, which user mode cannot make (R328, R349). -/
def execWatchdogKick (h : Nat) (s : State) : Host.Outcome State Fault Refusal :=
  runDev s fun d => if hartRuns d h && (hartOf d h).priv ≠ .user then wdtRestart h d else d

/-- WATCHDOG_TRIP (R349): TIMEOUT ms after its restart the timer of a running core of a quarter that is ON trips, and the core waits for its reset. -/
def execWatchdogTrip (h : Nat) (s : State) : Host.Outcome State Fault Refusal :=
  runDev s fun d =>
    if fltServes d && h < 16 && (hartOf d h).run = .running && (quarterOf d (hartQuarter h)).pwr = .on && wdtOn d (hartQuarter h) && d.sys.mode ≠ .drowse then
      let d := waitUntil ((hartOf d h).wdStart + fld d pgSYS Reg.SYS_WDT_CFG_TIMEOUT * 1000000) d
      raiseFault ⟨.core, 1, h⟩ (parkCore h d)
    else d

/-- DOUBLE_TRAP (R350): an exception in a hart whose mdbltrap.NEST is 1 parks the core; with its watchdog enabled the trip is
merged with the park. -/
def execDoubleTrap (h : Nat) (s : State) : Host.Outcome State Fault Refusal :=
  runDev s fun d =>
    if hartRuns d h && (hartOf d h).nest then
      let d := raiseEv pgSYS 0 (parkCore h d)
      let d := raiseFault ⟨.core, 2, h⟩ d
      if wdtOn d (hartQuarter h) && fltServes d then countMerged d else d
    else d

end Sys2Proof.Machine
end

