-- ==== Sys2Proof/Machine/Stile.lean ====
section
/-! DEFINITION. The calls of the secure monitor, the secure interrupt's world switch, and the modes and drains that MODE_REQUEST drives
(R334, R338-R348, R421-R425, R446-R449). -/

namespace Sys2Proof.Machine

/-! ## Debug halts (R421) -/

/-- A pending halt request acts once its hart runs in a world whose invasive enable is 1. -/
def dbgAct (h : Nat) (d : Dev) : Dev :=
  let x := hartOf d h
  if bit d.sys.dbgHaltReq h && x.run = .running && bit (dbgEnables d) (if x.world then 3 else 1) then
    { d with sys := { d.sys with dbgHaltReq := setBit d.sys.dbgHaltReq h false, dbgHalted := setBit d.sys.dbgHalted h true } }
  else d

/-- Every hart's pending request. -/
def dbgActAll (d : Dev) : Dev := (List.range 16).foldl (fun d h => dbgAct h d) d

/-! ## The frame of a call (R344) -/

/-- Statuses. -/
def slDONE := 0
def slUNKNOWN := 1
def slWORLD := 2
def slARG := 3
def slADDR := 4
def slOCCUPIED := 5
def slRUNNING := 6
def slREFUSED := 7
def slFLASH := 8
def slIMAGE := 9
def slSVN := 10
def slCERT := 11

/-- The function table: identifier, and whether the non-secure world may call it too (R345). -/
def stileTable : List (Nat × Bool) :=
  [(0x10000, true), (0x10001, true), (0x20000, false), (0x20001, false), (0x20002, true), (0x30000, false), (0x30001, false),
   (0x40000, true), (0x40001, false), (0x40002, false), (0x40003, false), (0x40004, false), (0x40005, false),
   (0x50000, true), (0x50001, false), (0x60000, false), (0x70000, false), (0x70001, false)]

/-- Whether a hart can make a call: firmware runs on it in supervisor mode, and no call of it is still open; a call from user mode never
reaches the monitor (R344). -/
def stileOpen (d : Dev) (h : Nat) : Bool :=
  hartRuns d h && !(hartOf d h).wfi && (hartOf d h).priv = .supervisor && d.sys.stage = .firmware && d.sys.mode ≠ .holdup
    && (d.sys.draining.bind (·.caller)) ≠ some h

/-- A call returns: the monitor sets a0 and the result registers that the function defines. -/
def stileRet (h : Nat) (rs : List Nat) (d : Dev) : Dev := modHart d h (fun x => { x with args := rs })

/-- A call of a function from the hart's world. -/
def stile (h fid : Nat) (f : Dev → Dev) (d : Dev) : Dev :=
  if !(stileOpen d h) then d
  else match stileTable.find? (fun r => r.1 = fid) with
    | none => stileRet h [slUNKNOWN] d
    | some r => if (hartOf d h).world || r.2 then f d else stileRet h [slWORLD] d

/-- The monitor as a master: machine mode on a hart. -/
def whoMon (h : Nat) : Who := ⟨true, true, 0, h⟩

/-- A call that ends in a write of MRAM or of the vault flash, which leaves through the fence: in HALTED and ZEROISED the fence lets nothing
out, and the device state does not admit the call (R12, R266, R344). -/
def stileFenced (h : Nat) (go : Dev → Dev) (d : Dev) : Dev := if stopped d.sys.mode then stileRet h [slREFUSED] d else go d

/-- Whether the monitor may use an address range: internal, and secure throughout by the access table (R344). -/
def monRange (d : Dev) (h : Nat) (k : BusKind) (a n : Nat) : Bool :=
  n ≠ 0 && a + n ≤ 2 ^ 40
    && (partsOf a n).all (fun p =>
      fixedCheck d (whoMon h) k p.1 = .pass && fixedCheck d (whoMon h) k (p.1 + p.2 - 1) = .pass
        && (!(hdrOf d pgHT).enable || (match rgnOf d p.1 with
            | some r => rgnFld d r Reg.HT_RGN_NS_PERM = 0
            | none => false)))

/-- Whether an entry lies in memory that the target world may execute (R344). -/
def entryOk (d : Dev) (h a : Nat) (sec : Bool) : Bool := a < 2 ^ 40 && partCheck d ⟨sec, false, 0, h⟩ .fetch a = .pass

/-- The monitor reads and writes memory. -/
def monRead (h a n : Nat) (d : Dev) : Bytes × Dev :=
  let (_, b, _, d) := memFetch (whoMon h) false a n d
  (b, d)
def monWrite (h a : Nat) (b : Bytes) (d : Dev) : Dev := (memStore (whoMon h) none a b d).2

/-! ## The call interface and harts (R345) -/

/-- STILE_IDENT. -/
def execStileIdent (h : Nat) (s : State) : Host.Outcome State Fault Refusal :=
  runDev s (stile h 0x10000 (stileRet h [slDONE, 0x0100, 0x10000, 18]))

/-- STILE_HAS. -/
def execStileHas (h fid : Nat) (s : State) : Host.Outcome State Fault Refusal :=
  runDev s (stile h 0x10001 (stileRet h [slDONE, match stileTable.find? (fun r => r.1 = fid) with
    | some r => 1 + 2 * b2n r.2
    | none => 0]))

/-- UNKNOWN_CALL: an identifier that no function has. -/
def execUnknownCall (h fid : Nat) (s : State) : Host.Outcome State Fault Refusal :=
  runDev s fun d => if stileTable.any (fun r => r.1 = fid) then d else stile h fid id d

/-- The harts of a mask. -/
def maskHarts (m : Nat) : List Nat := (List.range 16).filter (bit m)

/-- A mask of harts. -/
def hartsMask (l : List Nat) : Nat := l.foldl (fun m h => setBit m h true) 0

/-- A hart starts at an entry in a world, from the reset state that the boot ROM has left in the monitor RAM (R333, R345). -/
def hartStart (t entry : Nat) (world : Bool) (args : List Nat) (d : Dev) : Dev :=
  if !d.sys.hartState then d
  else
  let d := modHart d t (fun x => { x with
    run := .running, world := world, entry := entry, args := args, image := [], nest := false, wfi := false, sei := false, priv := .supervisor
    secCtx := none, nsCtx := if world then x.nsCtx else none })
  dbgAct t (wdtRestart t d)

/-- HART_WAKE past its world; one that starts no hart reports the harts that run (R345). -/
def hartWake (h mask entry arg world : Nat) (d : Dev) : Dev :=
  let hs := maskHarts mask
  if mask = 0 || 0xFFFF < mask || 1 < world then stileRet h [slARG] d
  else if hs.any (fun t => !(entryOk d t entry (world = 1))) then stileRet h [slADDR] d
  else if hs.any (fun t => !(quarterServes d (hartQuarter t)) || (quarterOf d (hartQuarter t)).disabled) then stileRet h [slREFUSED] d
  else
    let go := hs.filter (fun t => (hartOf d t).run = .off || (hartOf d t).run = .inReset)
    let on := hs.filter (fun t => (hartOf d t).run = .running)
    let d := go.foldl (fun d t => hartStart t entry (world = 1) [t, arg, hartsMask go] d) d
    stileRet h [if go.isEmpty then slRUNNING else slDONE, hartsMask go, hartsMask on] d

/-- HART_WAKE. -/
def execHartWake (h mask entry arg world : Nat) (s : State) : Host.Outcome State Fault Refusal :=
  runDev s (stile h 0x20000 (hartWake h mask entry arg world))

/-- HART_RETIRE past its world: the hart is in reset, and its quarter may be asked to be GATED. -/
def hartRetire (h a0 : Nat) (d : Dev) : Dev :=
  if h = 0 then stileRet h [slREFUSED] d
  else if 1 < a0 then stileRet h [slARG] d
  else
    let q := hartQuarter h
    let d := coreReset h .inReset d
    if a0 = 1 && (quarterHarts q).all (fun t => (hartOf d t).run ≠ .running) then
      writeQreq ⟨true, 0, h, .direct⟩ (setBits (fld d pgPWR Reg.PWR_QREQ_REQ) (2 * q + 1) (2 * q) 1) d
    else d

/-- HART_RETIRE. -/
def execHartRetire (h a0 : Nat) (s : State) : Host.Outcome State Fault Refusal :=
  runDev s (stile h 0x20001 (hartRetire h a0))

/-- SYS_CORE_STAT (R352). -/
def harts2 (d : Dev) : Nat := (List.range 16).foldl (fun v h => v + hartCode (hartOf d h).run * 4 ^ h) 0

/-- HART_QUERY. -/
def execHartQuery (h : Nat) (s : State) : Host.Outcome State Fault Refusal :=
  runDev s (stile h 0x20002 (fun d => stileRet h [slDONE, harts2 d] d))

/-! ## Modes (R241-R243, R446-R449, R456) -/

/-- A refused MODE_REQUEST. -/
def modeDeny (h reason : Nat) (d : Dev) : Dev := stileRet h [slREFUSED] (setFld d pgSYS Reg.SYS_MODE_DENY reason)

/-- Entry to DIAGNOSTIC: the manager and the officer block stop, the Wells sample for capture, every generator is to be reseeded and
gives nothing (R241, R299, R325). -/
def diagEnter (d : Dev) : Dev :=
  let d := ofcStop (mgrAbort mgMODE (enterMode .diagnostic { d with sys := { d.sys with draining := none } }))
  let d := (List.range 4).foldl (fun d q =>
    endStalls q (if (wellOf d q).run = .off then d else modWell q (fun w => { w with run := .diag }) d)) d
  (List.range 6).foldl (fun d n => markNeed n d) d

/-- Wells restart on leaving DIAGNOSTIC, every instance to be made anew, or substitution in FACTORY_TEST (R242, R243). -/
def wellsBack (was : Mode) (d : Dev) : Dev :=
  let d := if was = .diagnostic then (List.range 6).foldl (fun d n => markNeed n (modDrbg n (fun g => { g with made := false }) d)) d else d
  (List.range 4).foldl (fun d q =>
    let w := wellOf d q
    if (was = .diagnostic && w.run ≠ .off) || (was = .factoryTest && w.subst) then
      setFld (wellRestart q true d) (pgENT q) Reg.ENT_DIAG_SUBST 0
    else d) d

/-- A drain that MODE_REQUEST started ends when nothing in flight holds it: the device is in DIAGNOSTIC, and the call returns (R448). -/
def drainStep (d : Dev) : Dev :=
  match d.sys.draining with
  | some ⟨.diagnostic, some h, _⟩ =>
    if d.sys.mode = .service && !(drainBusy d) then trapOut h (stileRet h [slDONE] (diagEnter d)) else d
  | _ => d

/-- MODE_REQUEST past its world (R448). -/
def modeRequest (h code : Nat) (d : Dev) : Dev :=
  let m := d.sys.mode
  if d.sys.draining.isSome then stileRet h [slOCCUPIED] d
  else match modeOf code with
    | some .service =>
      if m = .startup || m = .diagnostic || m = .factoryTest then
        if bankReady d && (m ≠ .startup || fld d pgSYS Reg.SYS_BOOT_STAT_STEP = 14) then
          stileRet h [slDONE] (serviceEnter (wellsBack m d))
        else modeDeny h 4 d
      else modeDeny h 2 d
    | some .drowse =>
      if m ≠ .service then modeDeny h 2 d
      else if drowseOk d then drowseEnter h d else modeDeny h 4 d
    | some .diagnostic =>
      if m ≠ .service then modeDeny h 2 d
      else drainStep (trapIn h { d with sys := { d.sys with draining := some ⟨.diagnostic, some h, d.cmd.cmds.map (·.tag)⟩ } })
    | some .factoryTest =>
      if m ≠ .startup && m ≠ .service then modeDeny h 2 d
      else if d.sys.lc ≠ .test then modeDeny h 3 d
      else if bankReady d then stileRet h [slDONE] (ofcStop (mgrAbort mgMODE (enterMode .factoryTest d)))
      else modeDeny h 4 d
    | _ => modeDeny h 1 d

/-- MODE_REQUEST (R448). -/
def execModeRequest (h code : Nat) (s : State) : Host.Outcome State Fault Refusal :=
  runDev s (stile h 0x30000 (modeRequest h code))

/-- DEVICE_RESTART (R345, R476). -/
def execDeviceRestart (h a0 : Nat) (parts : BootParts) (s : State) : Host.Outcome State Fault Refusal :=
  runDev s (stile h 0x30001 (fun d => if a0 = 0x52455354 then restartGo parts d else stileRet h [slARG] d))

/-! ## Firmware images (R339, R341, R342, R345) -/

/-- The running slot. -/
def runSlot (d : Dev) : Nat := fld d pgSYS Reg.SYS_BOOT_STAT_SLOT

/-- FW_INFO. -/
def execFwInfo (h : Nat) (s : State) : Host.Outcome State Fault Refusal :=
  runDev s (stile h 0x40000 (fun d =>
    stileRet h [slDONE,
      fld d pgSYS Reg.SYS_FW_SVN_RUN_SVN + d.fuse.minSvn * 2 ^ 8 + runSlot d * 2 ^ 16 + fld d pgSYS Reg.SYS_BOOT_STAT_TRIAL * 2 ^ 17,
      d.sys.runVer, imgVer (slotOf d (1 - runSlot d))] d))

/-- FW_STAGE past its world: the checks of R337 on the image as supplied, and the inactive slot (R341). -/
def fwStage (h addr len : Nat) (flashOk : Bool) (d : Dev) : Dev :=
  if len < 4096 + 256 || 0x2000000 + 0x2000 < len then stileRet h [slARG] d
  else if !(monRange d h .read addr len) then stileRet h [slADDR] d
  else
    let (b, d) := monRead h addr len d
    match imgFault d b with
    | some f => stileRet h [if f = 6 then slSVN else slIMAGE] d
    | none =>
      if sha384 (imgBody b) ≠ slice b 0x40 48 then stileRet h [slIMAGE] d
      else
        let n := 1 - d.nv.actSlot
        if flashOk then
          stileRet h [slDONE] (slotPut n b { d with nv := { d.nv with actSlot := n, trial := true, trialUsed := false } })
        else
          let (x, d) := freeNoise len d
          stileRet h [slFLASH] (slotPut n x d)

/-- FW_STAGE (R341). -/
def execFwStage (h addr len : Nat) (flashOk : Bool) (s : State) : Host.Outcome State Fault Refusal :=
  runDev s (stile h 0x40001 (stileFenced h (fwStage h addr len flashOk)))

/-- Whether the running slot is on trial. -/
def onTrial (d : Dev) : Bool := fldB d pgSYS Reg.SYS_BOOT_STAT_TRIAL

/-- FW_CONFIRM (R340, R345). -/
def execFwConfirm (h : Nat) (s : State) : Host.Outcome State Fault Refusal :=
  runDev s (stile h 0x40002 (stileFenced h fun d =>
    if !(onTrial d) then stileRet h [slREFUSED] d
    else
      let d := setFld d pgSYS Reg.SYS_BOOT_STAT_TRIAL 0
      stileRet h [slDONE] (if d.nv.actSlot = runSlot d then { d with nv := { d.nv with trial := false, trialUsed := false } } else d)))

/-- FW_COMMIT_SVN (R339). -/
def execFwCommitSvn (h : Nat) (fuseOk : Bool) (s : State) : Host.Outcome State Fault Refusal :=
  runDev s (stile h 0x40003 (fun d =>
    if onTrial d then stileRet h [slREFUSED] d
    else if !fuseOk then stileRet h [slFLASH] d
    else stileRet h [slDONE] { d with fuse := { d.fuse with minSvn := max d.fuse.minSvn (fld d pgSYS Reg.SYS_FW_SVN_RUN_SVN) } }))

/-- The lowest unprogrammed owner key row. -/
def rowFree (d : Dev) : Option Nat :=
  (List.range 4).find? (fun n => ((d.fuse.owner.getD n ownerRowReset).digest).isNone)

/-- Changes an owner key row. -/
def setRow (n : Nat) (f : OwnerRow → OwnerRow) (d : Dev) : Dev :=
  { d with fuse := { d.fuse with owner := d.fuse.owner.set n (f (d.fuse.owner.getD n ownerRowReset)) } }

/-- FW_KEY_ADD past its world (R342). -/
def fwKeyAdd (h addr : Nat) (fuseOk : Bool) (d : Dev) : Dev :=
  if !(monRange d h .read addr 48) then stileRet h [slADDR] d
  else match d.sys.runRow, rowFree d with
    | some _, some n =>
      let (b, d) := monRead h addr 48 d
      if fuseOk then stileRet h [slDONE, n] (setRow n (fun r => { r with digest := some b }) d) else stileRet h [slFLASH] d
    | _, _ => stileRet h [slREFUSED] d

/-- FW_KEY_ADD (R342). -/
def execFwKeyAdd (h addr : Nat) (fuseOk : Bool) (s : State) : Host.Outcome State Fault Refusal :=
  runDev s (stile h 0x40004 (fwKeyAdd h addr fuseOk))

/-- FW_KEY_REVOKE past its world (R342). -/
def fwKeyRevoke (h row : Nat) (d : Dev) : Dev :=
  let left := (List.range 4).any (fun n => n ≠ row && (match d.fuse.owner[n]? with
    | some r => r.digest.isSome && !r.revoked
    | none => false))
  if 3 < row then stileRet h [slARG] d
  else if d.sys.runRow = some row || !left then stileRet h [slREFUSED] d
  else stileRet h [slDONE] (setRow row (fun r => { r with revoked := true }) d)

/-- FW_KEY_REVOKE (R342). -/
def execFwKeyRevoke (h row : Nat) (s : State) : Host.Outcome State Fault Refusal :=
  runDev s (stile h 0x40005 (fwKeyRevoke h row))

/-! ## Worlds (R345, R346) -/

/-- Saves the calling world's context, as the caller's image gives it. -/
def ctxPut (h : Nat) (ctx : List Nat) (d : Dev) : Dev :=
  modHart d h (fun x => if x.world then { x with secCtx := some ⟨none, 0, ctx⟩ } else { x with nsCtx := some ⟨none, 0, ctx⟩ })

/-- The other world's context, if it has one. -/
def ctxOther (d : Dev) (h : Nat) : Option Ctx := if (hartOf d h).world then (hartOf d h).nsCtx else (hartOf d h).secCtx

/-- The hart enters the other world: a context that has run is restored, a first entry begins at its own. -/
def ctxEnter (h : Nat) (c : Ctx) (a1 a2 a3 : Nat) (d : Dev) : Dev :=
  let d := modHart d h (fun x =>
    let x := if x.world then { x with nsCtx := none } else { x with secCtx := none }
    match c.entry with
    | some e => { x with world := !x.world, entry := e, image := [], args := [h, c.arg, a2, a3] }
    | none => { x with world := !x.world, image := c.saved, args := [slDONE, a1, a2, a3] })
  dbgAct h d

/-- WORLD_SWITCH past its world. -/
def worldSwitch (h a1 a2 a3 : Nat) (ctx : List Nat) (d : Dev) : Dev :=
  match ctxOther d h with
  | none => stileRet h [slREFUSED] d
  | some c => ctxEnter h c a1 a2 a3 (ctxPut h ctx d)

/-- WORLD_SWITCH (R346). -/
def execWorldSwitch (h a1 a2 a3 : Nat) (ctx : List Nat) (s : State) : Host.Outcome State Fault Refusal :=
  runDev s (stile h 0x50000 (worldSwitch h a1 a2 a3 ctx))

/-- NS_ENTRY past its world. -/
def nsEntry (h mask entry arg : Nat) (d : Dev) : Dev :=
  let hs := maskHarts mask
  if mask = 0 || 0xFFFF < mask then stileRet h [slARG] d
  else if hs.any (fun t => !(entryOk d t entry false)) then stileRet h [slADDR] d
  else stileRet h [slDONE] (hs.foldl (fun d t => modHart d t (fun x => { x with nsCtx := some ⟨some entry, arg, []⟩ })) d)

/-- NS_ENTRY (R345). -/
def execNsEntry (h mask entry arg : Nat) (s : State) : Host.Outcome State Fault Refusal :=
  runDev s (stile h 0x50001 (nsEntry h mask entry arg))

/-- SECURE_IRQ_SWITCH (R346): a secure bank's line asserts while the hart runs in the non-secure world; the monitor switches it to the
secure world and delivers the interrupt there. -/
def execSecureIrqSwitch (h : Nat) (ctx : List Nat) (s : State) : Host.Outcome State Fault Refusal :=
  runDev s fun d =>
    if hartRuns d h && !(hartOf d h).world && bankLine d h true && d.sys.stage = .firmware && (hartOf d h).priv ≠ .machine then
      match (hartOf d h).secCtx with
      | some c =>
        let d := modHart (ctxPut h ctx d) h (fun x => { x with
          world := true, image := c.saved, args := [], secCtx := none, sei := true, wfi := false, priv := .supervisor })
        dbgAct h d
      | none => d
    else d

/-! ## Host configuration (R334) -/

/-- HOSTCFG_SET past its world. -/
def hostcfgSet (h addr : Nat) (d : Dev) : Dev :=
  if !(monRange d h .read addr 32) then stileRet h [slADDR] d
  else
    let (b, d) := monRead h addr 32 d
    if hostcfgOk b then stileRet h [slDONE] (putBytes d hostcfgAt b) else stileRet h [slARG] d

/-- HOSTCFG_SET (R334). -/
def execHostcfgSet (h addr : Nat) (s : State) : Host.Outcome State Fault Refusal :=
  runDev s (stile h 0x60000 (stileFenced h (hostcfgSet h addr)))

/-! ## Debug certificates (R423-R425) -/

/-- DEBUG_NONCE past its world: the spec names no source of the nonce. -/
def debugNonce (h addr : Nat) (d : Dev) : Dev :=
  if !(monRange d h .write addr 32) then stileRet h [slADDR] d
  else
    let (b, d) := freeNoise 32 d
    stileRet h [slDONE] (monWrite h addr b { d with sys := { d.sys with dbgNonce := some b } })

/-- DEBUG_NONCE (R345). -/
def execDebugNonce (h addr : Nat) (s : State) : Host.Outcome State Fault Refusal :=
  runDev s (stile h 0x70000 (debugNonce h addr))

/-- Lengths of AUTH_KEY and SIGNATURE of a SIG_ALG. -/
def certKeyLen (alg : Nat) : Nat := if alg = 1 then 104 else 1952
def certSigLen (alg : Nat) : Nat := if alg = 1 then 96 else 3312

/-- Where SIGNATURE begins, and where it ends. -/
def certBody (b : Bytes) : Nat := 0x50 + certKeyLen (leAt b 6 2)
def certEnd (b : Bytes) : Nat := certBody b + certSigLen (leAt b 6 2)

/-- AUTH_KEY and its digest. -/
def certKey (b : Bytes) : Bytes := slice b 0x50 (certKeyLen (leAt b 6 2))

/-- Whether a ticket follows the certificate in a state. -/
def certTicketed (l : Lc) : Bool := l = .provision || l = .deployed

/-- Check 1. -/
def certShapeOk (d : Dev) (b : Bytes) : Bool :=
  let alg := leAt b 6 2
  b.take 4 = ascii "ADKD" && leAt b 4 1 = 1 && (alg = 1 || alg = 2)
    && (if certTicketed d.sys.lc then certEnd b ≤ b.length else b.length = certEnd b)

/-- Check 5: the authority of the state. -/
def certAuthOk (d : Dev) (b : Bytes) : Bool :=
  let dig := sha384 (certKey b)
  match d.sys.lc with
  | .factory | .returned => dig = (List.range 48).map Config.dbgKeyByte
  | .provision | .deployed => smapGet noneAt d.fuse.rows 7 = some dig
  | _ => false

/-- Check 6. -/
def certSigOk (b : Bytes) : Bool :=
  let m := b.take (certBody b)
  let s := slice b (certBody b) (certSigLen (leAt b 6 2))
  if leAt b 6 2 = 1 then
    match ecDecode p384 ((certKey b).take 97) with
    | some q => ecdsaOk p384 q (sha384 m) (beNat (slice s 0 48)) (beNat (slice s 48 48))
    | none => false
  else dsaOk 0x0312 (certKey b) (pqMessage 0 (ascii "ADK-DEBUG") m) (s.take 3309)

/-- The checks of R424: the step that fails, or the challenges that the ticket reserved. nonce is the one issued in this boot. -/
def certCheck (nonce : Option Bytes) (b : Bytes) (d : Dev) : Except Nat (List Nat) × Dev :=
  let first := leAt b 0x38 8
  let last := leAt b 0x40 8
  if !(certShapeOk d b) then (.error 1, d)
  else if slice b 8 16 ≠ d.fuse.serial then (.error 2, d)
  else if nonce ≠ some (slice b 0x18 32) then (.error 3, d)
  else if !(first ≤ d.nv.bootCnt && d.nv.bootCnt ≤ last && last ≤ first + 255) then (.error 4, d)
  else if !(certAuthOk d b) then (.error 5, d)
  else if !(certSigOk b) then (.error 6, d)
  else if !(certTicketed d.sys.lc) then (.ok [], d)
  else if !(ofcServes d && class0Ready d) then (.error 7, d)
  else
    match ticketsCheck [⟨0xFFFF, 0x2008, 0, sha384 (b.take (certBody b)), 0⟩] (b.drop (certEnd b)) [] d with
    | (.ok (ids, _), d) => (.ok ids, d)
    | (.error _, d) => (.error 7, d)

/-- An accepted certificate: the grant, SNID at once, SID from the next boot. -/
def certGrant (h : Nat) (b : Bytes) (ids : List Nat) (d : Dev) : Dev :=
  let en := leAt b 5 1 % 16
  let g : Grant := ⟨en, leAt b 0x38 8, leAt b 0x40 8, sha384 (certKey b)⟩
  let d := ids.foldl (fun d id => redeemChallenge id d) d
  let d := { d with nv := { d.nv with grant := some g }, sys := { d.sys with dbgGranted := Nat.land d.sys.dbgGranted 8 + Nat.land en 4 } }
  stileRet h [slDONE, b2n (bit en 3)] (record 0x0104 (payGrant en g.last g.digest) d)

/-- DEBUG_CERT past its world; every call voids the nonce. -/
def debugCert (h addr len : Nat) (d : Dev) : Dev :=
  let nonce := d.sys.dbgNonce
  let d := { d with sys := { d.sys with dbgNonce := none } }
  if len = 0 || 2 ^ 32 ≤ len then stileRet h [slARG] d
  else if !(monRange d h .read addr len) then stileRet h [slADDR] d
  else
    let (b, d) := monRead h addr len d
    match certCheck nonce b d with
    | (.error e, d) => stileRet h [slCERT] (record 0x0105 (payBytes 8 [e]) d)
    | (.ok ids, d) => stileFenced h (certGrant h b ids) d

/-- DEBUG_CERT (R424). -/
def execDebugCert (h addr len : Nat) (s : State) : Host.Outcome State Fault Refusal :=
  runDev s (stile h 0x70001 (debugCert h addr len))

end Sys2Proof.Machine
end

