-- ==== Sys2Proof/Machine/RegRead.lean ====
section
/-! DEFINITION. What a read of a register answers: the common header, the stored registers, the fields that follow from other state, the
world rules of a read, and the reads that change something (R18-R32, R35, R37, R42, R245, R301, R359, R367, R383, R436). -/

namespace Sys2Proof.Machine

/-! ## The common header (R20-R32) -/

/-- PG_ID. -/
def idWord (k : PageKind) (p : Nat) : Nat :=
  let n := p - pageFirst k
  b2n (pageSecureOnly k) * 2 ^ 31 + n / 256 * 2 ^ 24 + n % 256 * 2 ^ 16 + (0x100 + pageFirst k)

/-- PG_CAP. -/
def capWord (k : PageKind) : Nat :=
  let c := pageCap k
  b2n c.irq * 2 ^ 31 + b2n c.pwr * 2 ^ 30 + b2n c.shadow * 2 ^ 29 + b2n c.drain * 2 ^ 28 + c.block

/-- Code of a power state. -/
def pwrCode : Pwr → Nat
  | .on => 0 | .gated => 1 | .off => 2

/-- PG_STAT.PWR_STATE: the less powered of the quarter's state and the unit's (R452). -/
def pageState (d : Dev) (k : PageKind) (p : Nat) : Nat :=
  if (pageCap k).pwr then max (pwrCode (quarterOf d (pageQuarter p)).pwr) (hdrOf d p).pwrNow else 0

/-- PG_STAT (R25). -/
def statWord (d : Dev) (a : Access) (k : PageKind) (p : Nat) : Nat :=
  let h := hdrOf d p
  pageState d k p * 2 ^ 5 + b2n h.pwrPend * 2 ^ 4 + b2n (d.shadow.any (fun kv => kv.1 / 1024 == bankPage a p)) * 2 ^ 3
    + b2n h.cfgErr * 2 ^ 2 + b2n (h.drain && !(jobsHeld d p)) * 2 + b2n (pageBusy d p)

/-- Sources in alarm: a tripped source, or for source 13 a firing of MONFAULT that lasts (R390, R391). -/
def tampActive (d : Dev) : Nat :=
  (List.range 16).foldl (fun v s =>
    let x := d.tamp.src.find? (fun kv => kv.1 = s)
    v + b2n ((x.map (fun kv => kv.2.a || kv.2.b)).getD false) * 2 ^ s) 0

/-- The block events of a page that stand for a condition that lasts, each with whether it holds now (R26). -/
def rawEvents (d : Dev) (k : PageKind) (p : Nat) : List (Nat × Bool) :=
  match k with
  | .mgr => [(0, !d.mgr.events.isEmpty)]
  | .vig => [(0, !d.lant.latch.isEmpty)]
  | .tamp0 => [(0, tampActive d ≠ 0), (1, d.tamp.src.any (fun kv => kv.2.fired))]
  | .hold => [(0, d.hearth.marginLow)]
  | .wear => [(0, d.wear.items ≠ 0 || d.wear.holdMargin), (1, d.wear.wearEnd)]
  | .host => [(6, d.host.a.doeReq.isSome || d.host.b.doeReq.isSome)]
  | .cmd => [(0, rqUsed d ≠ 0)]
  | .ent => [(1, (wellOf d (p - 0x050)).run = .entFail)]
  | .drbg => [(0, d.ent.empty.any id)]
  | .ks0 => [(1, d.key.poundHigh)]
  | .mpe0 => [(3, d.mpe.stalled)]
  | .sym | .hash | .pke => [(1, (unitOf d (pageUnit p)).oos)]
  | _ => []

/-- PG_IRQ_RAW: CFG_ERR, and the block events that stand for a condition that lasts (R26). -/
def rawWord (d : Dev) (k : PageKind) (p : Nat) : Nat :=
  (rawEvents d k p).foldl (fun v x => v + b2n x.2 * 2 ^ x.1) (b2n (hdrOf d p).cfgErr * 2 ^ 31)

/-- A register of the common header. -/
def hdrRead (d : Dev) (a : Access) (k : PageKind) (p off : Nat) : Nat :=
  let h := hdrOf d p
  let irq := (pageCap k).irq
  match off with
  | 0x000 => idWord k p
  | 0x004 => 0x0001_0100
  | 0x008 => capWord k
  | 0x00C => b2n h.lock * 2 ^ 31 + b2n ((pageCap k).drain && h.drain) * 2 ^ 2 + b2n h.enable
  | 0x010 => statWord d a k p
  | 0x014 => if irq then rawWord d k p else 0
  | 0x018 => if irq then h.irqEn else 0
  | 0x01C => if irq then h.irqStat else 0
  | 0x020 => h.errCode
  | 0x024 => h.errMore * 2 ^ 24 + b2n h.errWorld * 2 ^ 15 + h.errMaster * 2 ^ 12 + h.errOff
  | 0x028 => h.errAddr % 2 ^ 32
  | 0x02C => h.errAddr / 2 ^ 32 % 256
  | 0x030 => b2n h.nsRead * 2 + b2n h.secure
  | 0x034 => if (pageCap k).pwr then h.pwrReq else 0
  | 0x038 => h.viol
  | _ => 0

/-! ## Fields that follow from other state -/

/-- VAULT_STATE's code (R163). -/
def vaultCode : VaultState → Nat
  | .absent => 0 | .restoring => 1 | .opened => 2 | .readOnly => 3 | .closedTaint => 4 | .closedMismatch => 5
  | .closedRollback => 6

/-- Per-quarter bytes packed into a word. -/
def perQuarter (f : Nat → Nat) : Nat := f 0 + f 1 * 2 ^ 8 + f 2 * 2 ^ 16 + f 3 * 2 ^ 24

/-- SYS registers (R352, R467, R483). -/
def liveSys (d : Dev) : List (Fld × Nat) :=
  [(Reg.SYS_BOOT_CNT_LO_CNT_LO, d.nv.bootCnt), (Reg.SYS_BOOT_CNT_HI_CNT_HI, d.nv.bootCnt / 2 ^ 32),
   (Reg.SYS_FW_SVN_MIN_SVN, d.fuse.minSvn),
   (Reg.SYS_QSTAT_PER_QUARTER, perQuarter (fun q => (quarterOf d q).resets + 4 * b2n (quarterOf d q).disabled)),
   (Reg.SYS_CORE_STAT_PER_CORE, harts2 d), (Reg.SYS_MODE_MODE, modeCode d.sys.mode), (Reg.SYS_MODE_PREV, modeCode d.sys.prev),
   (Reg.SYS_FLT_STAT_QDEPTH, d.flt.queue.length), (Reg.SYS_FLT_STAT_ESCALATED, b2n d.flt.escalated),
   (Reg.SYS_FLT_STAT_INSERVICE, b2n d.flt.core.isSome + 2 * b2n d.flt.quarter.isSome + 4 * b2n d.flt.rst.isSome
     + 8 * b2n d.flt.halt.isSome)]

/-- LC and DBG registers (R427, R428). -/
def liveLc (d : Dev) : List (Fld × Nat) :=
  [(Reg.LC_STATE_LOCKED, b2n (d.sys.lc = .locked)), (Reg.LC_STATE_ROLLED, b2n d.sys.rolled), (Reg.LC_STATE_WIPE_DONE, b2n d.nv.wiped),
   (Reg.LC_STATE_JOURNAL, b2n d.nv.journal.isSome), (Reg.LC_STATE_COPY_DIFF, d.sys.copyDiff), (Reg.LC_STATE_STATE, lcIdx d.sys.lc),
   (Reg.LC_CMD_BUSY, b2n d.lc.op.isSome),
   (Reg.LC_ROWS_PROGRAMMED, (List.range 8).foldl (fun v r => v + b2n (rowSet d r) * 2 ^ r) 0)]
def liveDbg (d : Dev) : List (Fld × Nat) :=
  let last := (d.nv.grant.map (·.last)).getD 0
  [(Reg.DBG_STAT_TAINT, b2n d.sys.taint), (Reg.DBG_STAT_ENABLES, dbgEnables d), (Reg.DBG_STAT_GRANT, b2n d.nv.grant.isSome),
   (Reg.DBG_STAT_SID_NEXT, b2n ((d.nv.grant.map (fun g => bit g.enables 3 && d.nv.bootCnt + 1 ≤ g.last)).getD false)),
   (Reg.DBG_STAT_ATTACHED, b2n d.sys.dbgAttached), (Reg.DBG_GRANT_LAST_LO_LAST_LO, last), (Reg.DBG_GRANT_LAST_HI_LAST_HI, last / 2 ^ 32)]

/-- PWR, CLK, HOLD and WEAR registers (R468-R471). -/
def livePwr (d : Dev) : List (Fld × Nat) :=
  let s := d.sup
  [(Reg.PWR_QSTAT_PER_QUARTER, perQuarter (fun q =>
     let x := quarterOf d q
     pwrCode x.pwr + 4 * b2n x.pend.isSome + 8 * b2n x.disabled)),
   (Reg.PWR_SUPPLY_P12V, s.p12vMv), (Reg.PWR_SUPPLY_PWR_FAIL, b2n s.pwrFail),
   (Reg.PWR_SUPPLY_VBAT_OK, b2n (2500 ≤ s.vbatMv && s.vbatMv ≤ 3600)), (Reg.PWR_SUPPLY_AUX_GOOD, b2n s.auxGood),
   (Reg.PWR_SUPPLY_P12V_GOOD, b2n s.p12vGood), (Reg.PWR_INPUT_POWER, s.inputPower)]
def liveClk (d : Dev) : List (Fld × Nat) :=
  [(Reg.CLK_PLL_DIE_LOCK, b2n d.hearth.diePll),
   (Reg.CLK_PLL_Q_LOCK, (List.range 4).foldl (fun v q => v + b2n (quarterOf d q).pll * 2 ^ q) 0), (Reg.CLK_SCALE_SCALE, d.hearth.scale)]
def liveHold (d : Dev) : List (Fld × Nat) :=
  [(Reg.HOLD_STAT_STALE, b2n d.hearth.stale), (Reg.HOLD_STAT_MARGIN_LOW, b2n d.hearth.marginLow),
   (Reg.HOLD_STAT_MEASURING, b2n d.hearth.measuring), (Reg.HOLD_STAT_LC_OK, b2n (bankLcOk d)), (Reg.HOLD_STAT_READY, b2n (bankReady d)),
   (Reg.HOLD_BANK_VBANK, d.sup.bankMv), (Reg.HOLD_BANK_VTARGET, vTarget d), (Reg.HOLD_CAP_ESR, d.nv.esrMohm), (Reg.HOLD_CAP_CAP, d.nv.capUf),
   (Reg.HOLD_ENERGY_USABLE, inCmj (eUse d d.sup.bankMv)), (Reg.HOLD_ENERGY_BUDGET, inCmj (eSave d.hearth.vltLimit)),
   (Reg.HOLD_LAST_DURATION, d.nv.lastDur), (Reg.HOLD_LAST_MARGIN, d.nv.lastMargin)]
def liveWear (d : Dev) : List (Fld × Nat) :=
  [(Reg.WEAR_ALARMS_WEAR_END, b2n d.wear.wearEnd), (Reg.WEAR_ALARMS_HOLD_MARGIN, b2n d.wear.holdMargin), (Reg.WEAR_ALARMS_ITEM, d.wear.items)]
    ++ ((List.range 14).map (fun n => [(fldAt Reg.WEAR_ITEM_USED n, wearUsed d n),
      (fldAt Reg.WEAR_ITEM_LIFE_DAYS n, lifeDays (smapGet noHist d.wear.history n))])).flatten

/-- A tamper source before any sample. -/
def tampReset (_ : Nat) : TampSrc := ⟨false, false, none, none, false, none, none, 0, none, 0⟩

/-- A tamper source. -/
def tampOf (d : Dev) (s : Nat) : TampSrc := smapGet tampReset d.tamp.src s

/-- TAMP registers (R408). -/
def liveTamp0 (d : Dev) : List (Fld × Nat) :=
  [(Reg.TAMP_STAT_DISAGREE, (List.range 16).foldl (fun v s => v + b2n (tampOf d s).disSince.isSome * 2 ^ s) 0),
   (Reg.TAMP_STAT_ACTIVE, tampActive d), (Reg.TAMP_FUSE_DISABLED, d.fuse.tampOff), (Reg.TAMP_MONF_LAST, d.tamp.monLast),
   (Reg.TAMP_THROTTLE_ACTIVE, b2n (d.tamp.throttling ≠ 0 || d.tamp.throttleEnd.isSome))]
def liveTamp1 (d : Dev) : List (Fld × Nat) :=
  ((List.range 16).map (fun s => [(fldAt Reg.TAMP_RESP_EFFECTIVE s, respEff d s), (fldAt Reg.TAMP_RESP_FLOOR s, respFloor d s),
    (fldAt Reg.TAMP_RESP_RESP s, respCfg d s)])).flatten

/-- RESET responses of the last 60 s (R397). -/
def lateResets (d : Dev) : List Nat := d.lant.resets.filter (fun t => stamp d < t + 60 * 32768)

/-- VIG registers (R409). -/
def liveVig (d : Dev) : List (Fld × Nat) :=
  let l := d.lant
  [(Reg.VIG_TIME_LO_TIME_LO, stamp d), (Reg.VIG_TIME_HI_TIME_HI, stamp d / 2 ^ 32), (Reg.VIG_CFG_TIN_FILTER, l.tinFilter),
   (Reg.VIG_CFG_TIN_POL, l.tinPol), (Reg.VIG_CFG_TIN_ARM, l.tinArm), (Reg.VIG_CFG_ARM_B, b2n l.armB), (Reg.VIG_CFG_ARM_A, b2n l.armA),
   (Reg.VIG_STAT_ZEROISED, b2n l.zeroised), (Reg.VIG_STAT_LANT_POR, b2n l.por), (Reg.VIG_STAT_SUPPLY, l.supply),
   (Reg.VIG_STAT_LOST, l.lost), (Reg.VIG_STAT_COUNT, l.latch.length), (Reg.VIG_STAT_RESETS, min 7 (lateResets d).length),
   (Reg.VIG_LOOP_A_REF, l.refA), (Reg.VIG_LOOP_A_RES, l.resA), (Reg.VIG_LOOP_B_REF, l.refB), (Reg.VIG_LOOP_B_RES, l.resB),
   (Reg.VIG_CELL_VBAT, d.sup.vbatMv), (Reg.VIG_CELL_CELL, d.sup.cellMv)]
    ++ (List.range 32).map (fun k => (fldAt Reg.VIG_LATCH_WORD k, l.latch.getD (k / 2) 0 / 2 ^ (32 * (k % 2))))

/-- Interrupt pages (R365-R367). -/
def liveIrqc (d : Dev) (a : Access) (p : Nat) : List (Fld × Nat) :=
  let w := coreStat d (p - 0x011) a.sec
  [(Reg.IRQC_CORE_STAT_NS_LINE, bits w 18 18), (Reg.IRQC_CORE_STAT_LINE, bits w 17 17), (Reg.IRQC_CORE_STAT_ACTIVE, bits w 16 16),
   (Reg.IRQC_CORE_STAT_TOP, bits w 15 8), (Reg.IRQC_CORE_STAT_RUNNING, bits w 7 0)]

/-- A word of 32 sources, those of the other world hidden from the non-secure world. -/
def srcWord (d : Dev) (a : Access) (k : Nat) (f : Nat → Bool) : Nat :=
  (List.range 32).foldl (fun v j =>
    let n := 32 * k + j
    v + b2n (allSources.contains n && (a.sec || !(srcWorld d n)) && f n) * 2 ^ j) 0

def liveSrc2 (d : Dev) (a : Access) : List (Fld × Nat) :=
  let n := fld d pgSRC2 Reg.IRQC_OWNER_ID
  let o := if a.sec || !(srcWorld d n) then srcOwner d n else none
  ((List.range 16).map (fun k => [(fldAt Reg.IRQC_PEND_PEND k, srcWord d a k (srcPending d)),
     (fldAt Reg.IRQC_ACTIVE_ACTIVE k, srcWord d a k (fun n => (srcOwner d n).isSome))])).flatten
    ++ [(Reg.IRQC_OWNER_STAT_VALID, b2n o.isSome), (Reg.IRQC_OWNER_STAT_BANK, b2n ((o.map (·.bank)).getD false)),
        (Reg.IRQC_OWNER_STAT_HART, (o.map (·.hart)).getD 0)]

/-- Recorder pages (R442); each port has its own cursor and its own copied record. -/
def liveEvr0 (d : Dev) : List (Fld × Nat) :=
  [(Reg.EVR_SEQ_LO_SEQ, d.nv.evSeq), (Reg.EVR_SEQ_HI_SEQ, d.nv.evSeq / 2 ^ 32),
   (Reg.EVR_WR_CTL_BUSY, b2n (d.evr.held.any (fun r => bit r.flags 5))), (Reg.EVR_BUF_KIB, (bufBytes d + 1023) / 1024)]
def liveEvr1 (d : Dev) (a : Access) : List (Fld × Nat) :=
  let c := d.evr.cursors.getD (evPort a) 0
  let r := d.evr.copied.getD (evPort a) []
  [(Reg.EVR_RD_CUR_LO_CUR, c), (Reg.EVR_RD_CUR_HI_CUR, c / 2 ^ 32)]
    ++ (List.range 256).map (fun k => (fldAt Reg.EVR_RD_REC_WORD k, leAt r (4 * k) 4))

/-- ENT and DRBG pages (R244, R245). -/
def liveEnt (d : Dev) (q : Nat) : List (Fld × Nat) :=
  let w := entStat d q
  [(Reg.ENT_STAT_POOL, bits w 19 16), (Reg.ENT_STAT_SUBST, bits w 9 9), (Reg.ENT_STAT_RESEED_REQ, bits w 8 8),
   (Reg.ENT_STAT_ALT_ST, bits w 7 6), (Reg.ENT_STAT_PRI_ST, bits w 5 4), (Reg.ENT_STAT_STATE, bits w 2 0),
   (Reg.ENT_REQS_REQS, (drbgOf d q).reqs)]
def liveDrbg (d : Dev) (a : Access) : List (Fld × Nat) :=
  let w := swStat d a.sec
  [(Reg.DRBG_SW_STAT_LEVEL, bits w 15 8), (Reg.DRBG_SW_STAT_Q_USED, bits w 5 4), (Reg.DRBG_SW_STAT_RESEED_REQ, bits w 2 2),
   (Reg.DRBG_SW_STAT_ENT_EMPTY, bits w 1 1), (Reg.DRBG_SW_STAT_VALID, bits w 0 0),
   (Reg.DRBG_SW_CNT_WORDS, d.ent.words.getD (if a.sec then 0 else 1) 0)]

/-- KS pages (R163). -/
def liveKs (d : Dev) (k : PageKind) : List (Fld × Nat) :=
  match k with
  | .ks0 => [(Reg.KS_CMD_BUSY, b2n d.key.busy), (Reg.KS_STAT_VAULT_STATE, vaultCode d.key.state), (Reg.KS_STAT_TAINT, b2n d.key.taint),
      (Reg.KS_STAT_ROOT_VALID, b2n d.lant.root.isSome), (Reg.KS_RESTORE_FRONTIER, min d.key.frontier 0x3FFFFFF)]
  | .ks1 => [(Reg.KS_VLT_CNT_LO_CNT_LO, vaultCtr d), (Reg.KS_VLT_CNT_HI_CNT_HI, vaultCtr d / 2 ^ 32), (Reg.KS_VLT_EPOCH_EPOCH, d.key.epoch),
      (Reg.KS_VLT_LIMIT_KIB, d.hearth.vltLimit), (Reg.KS_VLT_PEND_KIB, vaultPendKib d), (Reg.KS_VLT_SPARE_CELLS, d.key.spares)]
  | .ks2 => [(Reg.KS_T0_USE_RESIDENT, d.key.resident.length), (Reg.KS_T0_USE_FREE, min 0xFFFF (slotsFree d)),
      (Reg.KS_POUND_COUNT, poundCount d)]
  | _ => []

/-- MPE page (R274). -/
def liveMpe (d : Dev) : List (Fld × Nat) :=
  let w := mpeStat d
  [(Reg.MPE_STAT_WBUF_FULL, bits w 2 2), (Reg.MPE_STAT_HALTING, bits w 1 1), (Reg.MPE_STAT_KEYS_VALID, bits w 0 0),
   (Reg.MPE_EPOCH_CURRENT, d.mpe.cur), (Reg.MPE_EPOCH_VERIFIED, d.mpe.ver), (Reg.MPE_WBUF_HELD, d.mpe.wbuf.length)]

/-- What the known-answer jobs of the boot left on a unit's page, where they still count or stand (R197, R223, R335). -/
def liveKat (d : Dev) (p : Nat) : List (Fld × Nat) :=
  let u := unitOf d (pageUnit p)
  let of (f : Fld) : Nat := Config.katReg (pageUnit p) f.off
  let n := (fldPair d p Reg.SYM_BLK_LO_BLK_LO Reg.SYM_BLK_HI_BLK_HI + of Reg.SYM_BLK_LO_BLK_LO) % 2 ^ 64
  (if u.kat then [(Reg.SYM_BLK_LO_BLK_LO, n), (Reg.SYM_BLK_HI_BLK_HI, n / 2 ^ 32)] else [])
    ++ (if u.katRes then
      [Reg.SYM_JOB_STAT_STATUS, Reg.SYM_JOB_RES0_LO_RES0, Reg.SYM_JOB_RES0_HI_RES0, Reg.SYM_JOB_RES1_LO_RES1, Reg.SYM_JOB_RES1_HI_RES1,
        Reg.SYM_JOB_OUTLEN_OUT_LEN].map (fun f => (f, of f)) else [])

/-- Lanes, clusters and engines (R197, R223). -/
def liveUnit (d : Dev) (k : PageKind) (p : Nat) : List (Fld × Nat) :=
  let u := unitOf d (pageUnit p)
  let op := (u.cur.bind (cmdOf d)).map (·.desc.opcode)
  liveKat d p ++ (if k = .pke then
    [(Reg.PKE_STAT_OUT_OF_SERVICE, b2n u.oos), (Reg.PKE_STAT_CUR_OPCODE, op.getD ((u.job.map (·.desc.opcode)).getD 0)),
     (Reg.PKE_RAND_KIB, (u.drawn + (if u.kat then Config.katReg (pageUnit p) Reg.PKE_RAND_KIB.off else 0)) / 1024)]
  else [(Reg.SYM_STAT_OUT_OF_SERVICE, b2n u.oos), (Reg.SYM_STAT_JOBS, b2n u.cur.isSome + b2n u.job.isSome)])

/-- CMD and OFC pages (R107, R324). -/
def liveCmd (d : Dev) : List (Fld × Nat) :=
  [(Reg.CMD_INFLIGHT_HELD, (d.cmd.cmds.filter (fun c => c.stage = .held)).length + (raisesHeld d).length), (Reg.CMD_INFLIGHT_ACTIVE, d.cmd.cmds.length)]

/-- OFC_CARD of an interface. -/
def cardWord (c : CardIf) : List Nat :=
  [c.officer.getD 0xFF, b2n c.fault, b2n c.classB,
   match c.run with
   | .inactive => 0 | .activating => 1 | .identified => 2 | .signing => 3, b2n c.present]

/-- Minutes left in CEREMONY, rounded up. -/
def cerLeft (d : Dev) : Nat :=
  match d.ofc.cerAt with
  | some t =>
    let m := fld d pgOFC Reg.OFC_CFG_CER_TIMEOUT
    if m = 0 then 0 else (t + m * 60000000000 - d.now + 59999999999) / 60000000000
  | none => 0

def liveOfc (d : Dev) : List (Fld × Nat) :=
  let runIs (st : OfcRun) (n : Nat) : Bool := (officerOf d n).run = st
  let locked (b : Nat) : Nat := (List.range 32).foldl (fun v n => v + b2n (runIs .locked (b + n)) * 2 ^ n) 0
  let c0 := cardWord (cardOf d 0)
  let c1 := cardWord (cardOf d 1)
  [(Reg.OFC_STAT_CHALLENGES, (chalsOut d).length), (Reg.OFC_STAT_CLASS0_READY, b2n (class0Ready d)),
   (Reg.OFC_STAT_CER_PENDING, b2n ((d.sys.draining.map (fun x => decide (x.target = Mode.ceremony))).getD false)),
   (Reg.OFC_STAT_ACTIVE, ((List.range 64).filter (runIs .active)).length), (Reg.OFC_CMD_BUSY, b2n d.ofc.op.isSome),
   (Reg.OFC_CARD0_OFFICER, c0.getD 0 0), (Reg.OFC_CARD0_FAULT, c0.getD 1 0), (Reg.OFC_CARD0_CLASS_B, c0.getD 2 0),
   (Reg.OFC_CARD0_STATE, c0.getD 3 0), (Reg.OFC_CARD0_PRESENT, c0.getD 4 0), (Reg.OFC_CARD1_OFFICER, c1.getD 0 0),
   (Reg.OFC_CARD1_FAULT, c1.getD 1 0), (Reg.OFC_CARD1_CLASS_B, c1.getD 2 0), (Reg.OFC_CARD1_STATE, c1.getD 3 0),
   (Reg.OFC_CARD1_PRESENT, c1.getD 4 0), (Reg.OFC_LOCKED_LO_LOCKED, locked 0), (Reg.OFC_LOCKED_HI_LOCKED, locked 32),
   (Reg.OFC_CER_MIN_LEFT, cerLeft d)]

/-- Secure selective streams of a link. -/
def selCount (d : Dev) (l : Nat) : Nat := ((linkOf d l).ide.filter (fun kv => kv.1 ≠ 0 && kv.2.secure)).length

/-- Whether a link's own stream is Secure. -/
def linkStream (d : Dev) (l : Nat) : Bool := (linkOf d l).ide.any (fun kv => kv.1 = 0 && kv.2.secure)

/-- HOST page (R75). -/
def liveHost (d : Dev) : List (Fld × Nat) :=
  [(Reg.HOST_LINK_A_USB4, b2n (linkIsUsb d 0 && d.host.a.up)), (Reg.HOST_LINK_A_UP, b2n d.host.a.up),
   (Reg.HOST_LINK_B_USB4, b2n (linkIsUsb d 1 && d.host.b.up)),
   (Reg.HOST_LINK_B_UP, b2n d.host.b.up), (Reg.HOST_IDE_STAT_LINK_A, b2n (linkStream d 0)), (Reg.HOST_IDE_STAT_SEL_A, selCount d 0),
   (Reg.HOST_IDE_STAT_LINK_B, b2n (linkStream d 1)), (Reg.HOST_IDE_STAT_SEL_B, selCount d 1)]

/-- USB4 page (R76): DROWSE permits the low-power states (R68). -/
def liveUsb4 (d : Dev) : List (Fld × Nat) :=
  [(Reg.USB4_STAT_CL, b2n (d.host.usbAttached && d.sys.mode = .drowse && Config.linkIdle d.now))]

/-- MGR page (R301); the mailboxes shown are those of the selected instance. -/
def liveMgr (d : Dev) : List (Fld × Nat) :=
  let i := mgrSel d
  let x := instOf d i
  [(Reg.MGR_CMD_BUSY, b2n d.mgr.busy.isSome), (Reg.MGR_SEL_STAT_EXPORTED, b2n x.exported),
   (Reg.MGR_SEL_STAT_SQ_LIMIT, if x.run = .unused then 0 else x.sqLimit), (Reg.MGR_SEL_STAT_STATE, instCode x.run),
   (Reg.MGR_SEL_USED_RECORDS, recordsOf d i), (Reg.MGR_SEL_QUOTA_RECORDS, x.records), (Reg.MGR_MB_CTL_IN_FULL, b2n x.outFull),
   (Reg.MGR_MB_CTL_OUT_FULL, b2n x.inFull)]
    ++ ((List.range 16).map (fun k => [(fldAt Reg.MGR_MB_OUT_WORD k, fld d (instPage i) (fldAt Reg.INST_MB_IN_WORD k)),
      (fldAt Reg.MGR_MB_IN_WORD k, fld d (instPage i) (fldAt Reg.INST_MB_OUT_WORD k))])).flatten

/-- INST page (R79, R103, R302). -/
def liveInst (d : Dev) (i : Nat) : List (Fld × Nat) :=
  let x := instOf d i
  [(Reg.INST_STATE_SQ_LIMIT, x.sqLimit), (Reg.INST_STATE_STATE, instCode x.run), (Reg.INST_QUOTA_RECORDS, x.records),
   (Reg.INST_USED_RECORDS, recordsOf d i), (Reg.INST_MB_CTL_IN_FULL, b2n x.inFull), (Reg.INST_MB_CTL_OUT_FULL, b2n x.outFull),
   (Reg.INST_PYP_CAP_CAP, pypCap d)]
    ++ ((List.range 16).map (fun q =>
      [(fldAt Reg.SQ_STAT_ACTIVE q, b2n (qFld d i q Reg.SQ_CFG_EN = 1 || d.cmd.cmds.any (fun c => c.inst = i && c.sq = q) || d.cmd.reads.any (fetchesFor i q))),
       (fldAt Reg.CQ_STAT_ACTIVE q, b2n (qFld d i q Reg.CQ_CFG_EN = 1 || d.cmd.cmds.any (fun c => c.inst = i && c.cq = q) || d.cmd.reads.any (fetchesTo i q)))])).flatten

/-- The live fields of a page. -/
def liveFields (d : Dev) (a : Access) (k : PageKind) (p : Nat) : List (Fld × Nat) :=
  match k with
  | .sys => liveSys d | .lc => liveLc d | .dbg => liveDbg d | .pwr => livePwr d | .clk => liveClk d | .hold => liveHold d
  | .wear => liveWear d | .gpio => [(Reg.GPIO_IN_IN, pinLevels d)] | .tamp0 => liveTamp0 d | .tamp1 => liveTamp1 d
  | .tamp2 | .tamp3 => [] | .vig => liveVig d
  | .irqg => [(Reg.IRQC_GSTAT_PENDING, (allSources.filter (srcPending d)).length)] | .irqc => liveIrqc d a p
  | .irqs0 => (List.range 8).map (fun n => ((⟨0x040 + 4 * (383 + n), 14, 14, .L, .ro, 0, 1, 4⟩ : Fld), b2n (srcWorld d (384 + n))))
  | .irqs1 => liveSrc2 d a | .ht0 | .ht1 => []
  | .evr0 => liveEvr0 d | .evr1 => liveEvr1 d a | .ent => liveEnt d (p - 0x050) | .drbg => liveDrbg d a
  | .ks0 | .ks1 | .ks2 | .ks3 => liveKs d k | .mpe0 => liveMpe d | .mpe1 => [] | .sym | .pke | .hash => liveUnit d k p
  | .dma => [] | .cmd => liveCmd d | .ofc => liveOfc d | .host => liveHost d | .usb4 => liveUsb4 d | .mgr => liveMgr d
  | .inst => liveInst d (p - 0x400)

/-! ## The value of a register -/

/-- The stored word: the value most recently written, whether or not it has taken effect (R35). -/
def storedWord (d : Dev) (a : Access) (p off : Nat) : Nat :=
  let key := regKey (bankPage a p) off
  let s := smapGet shadowReset d.shadow key
  maskIn (smapGet regReset d.regs key).toNat s.mask s.val

/-- The value of a register of a page. -/
def regValue (d : Dev) (a : Access) (k : PageKind) (p off : Nat) : Nat :=
  if off < 0x040 then hdrRead d a k p off
  else
    let w := ((liveFields d a k p).filter (fun x => x.1.off = off)).foldl (fun w x => setBits w x.1.hi x.1.lo x.2) (storedWord d a p off)
    if k = .gpio && !a.sec then Nat.land w (255 - fld d pgGPIO Reg.GPIO_WORLD_WORLD)
    else if k = .irqs0 && !a.sec && off < 0x83C && srcWorld d ((off - 0x040) / 4 + 1) then 0
    else w

/-! ## Reads -/

/-- A read of a register that the page admits: the value, and what the read changes. -/
def readReg (a : Access) (k : PageKind) (p off : Nat) (d : Dev) : Nat × Dev :=
  if k = .mgr && off = Reg.MGR_EVENT_VALID.off then mgrEventRead' d
  else if k = .drbg && off = Reg.DRBG_SW_DATA_DATA.off then swDataRead a.sec d
  else if k = .irqc && off = Reg.IRQC_CLAIM_ID.off then claimRead (p - 0x011) a.sec d
  else if k = .evr1 && off = Reg.EVR_RD_NEXT_VALID.off then evNext (evPort a) d
  else if k = .evr1 && off = Reg.EVR_RD_PREV_VALID.off then evPrev (evPort a) d
  else if k = .inst && (instOf d (p - 0x400)).run = .unused then
    (regValue (instPageReset (p - 0x400) d) a k p off, d)
  else (regValue d a k p off, d)

/-- Whether the page's world setting refuses a read (R30). -/
def readRefused (d : Dev) (a : Access) (k : PageKind) (p : Nat) : Bool :=
  !a.sec && (pageSecureOnly k || ((hdrOf d p).secure && !(hdrOf d p).nsRead))

/-- A 32-bit read of an aligned register by a master (R30, R42, R43). -/
def readWord (a : Access) (p off : Nat) (d : Dev) : Nat × Dev :=
  match reach d a p off, pageKind p with
  | .gone, _ | _, none => (0, d)
  | _, some k => if readRefused d (seenAs a) k p then (0, countViol p d) else readReg (seenAs a) k p off d

/-- A read of n bytes at an offset of a page (R19): a misaligned one records BAD_ACCESS, a narrower one returns the bytes addressed, a
64-bit one is two. -/
def pageRead (a : Access) (p off n : Nat) (d : Dev) : Bytes × Dev :=
  if n = 0 || off % n ≠ 0 then
    (zeros n, if reach d a p off = .gone || (pageKind p).isNone then d else regErr p errACCESS (seenAs a) off d)
  else if n = 8 then
    let (x, d) := readWord a p off d
    let (y, d) := readWord a p (off + 4) d
    (leBytes 4 x ++ leBytes 4 y, d)
  else
    let (x, d) := readWord a p (off / 4 * 4) d
    (slice (leBytes 4 x) (off % 4) n, d)

/-- A read whose value is the bus's answer (R16), unless it arrives on no Secure stream (R64). -/
def readAnswer (a : Access) (p off n : Nat) (d : Dev) : Dev :=
  if hostUr d a.via then { d with bus := some .unsupported }
  else
    let (b, d) := pageRead a p off n d
    { d with bus := some (.ok b) }

end Sys2Proof.Machine
end

