-- ==== Sys2Proof/Machine/EvrCmds.lean ====
section
/-! DEFINITION. The event recorder's registers: firmware records, clearing, reading and the cursor (R431, R436, R438, R439, R442). -/

namespace Sys2Proof.Machine

/-- Codes of the EVR pages (R442). -/
def errWR_CHANNEL := 0x0100
def errWR_ADDR := 0x0101
def errWR_BUSY := 0x0102

/-- Whether a channel and a code are open to the write port of a world (R439). -/
def wrChannelOk (a : Access) (v : Nat) : Bool :=
  let c := bits v 27 24
  0x8000 ≤ bits v 15 0 && (if a.sec then 8 ≤ c && c ≤ 11 else 12 ≤ c)

/-- A firmware record of a payload already read (R429, R439). -/
def fwRecord (v : Nat) (payload : Bytes) : EvHand :=
  ⟨bits v 27 24, bits v 18 16, bits v 15 0, 32, false, payload, none⟩

/-- Whether a firmware record waits at the fence, EVR_WR_CTL.BUSY. -/
def fwWaits (d : Dev) : Bool := d.evr.held.any (fun r => bit r.flags 5)

/-- GO of the write port: the conditions of R439 in the order of its table. -/
def evrWriteGo (a : Access) (v : Nat) (d : Dev) : Dev :=
  let off := Reg.EVR_WR_CTL_GO.off
  if !(wrChannelOk a v) then regErr pgEVR errWR_CHANNEL a off d
  else
    let addr := fldPair d pgEVR Reg.EVR_WR_ADDR_LO_ADDR_LO Reg.EVR_WR_ADDR_HI_ADDR_HI
    match memFetch (whoDevice 4 a.sec) false addr (fld d pgEVR Reg.EVR_WR_LEN_LEN) d with
    | (.ok, b, _, d) => if fwWaits d then regErr pgEVR errWR_BUSY a off d else handRec (fwRecord v b) d
    | (_, _, _, d) => regErr pgEVR errWR_ADDR a off d

/-- A clear that ends without a LOG_CLEARED record: its status, INFO and CLEAR_DONE (R438). -/
def evrClearEnd (st info : Nat) (d : Dev) : Dev :=
  raiseEv pgEVR 2 (setFld (setFld d pgEVR Reg.EVR_CLR_RESULT_STATUS st) pgEVR Reg.EVR_CLR_RESULT_INFO info)

/-- The 8-byte clear block of a mask (R438). -/
def clearBlock (mask : Nat) : Bytes := leBytes 2 mask ++ zeros 6

/-- The ticket of a clear, as the recorder reads it. -/
def evrTicket (d : Dev) : MemRes × Bytes × Option Nat × Dev :=
  memFetch2 (whoDevice 4 true) false (fldPair d pgEVR Reg.EVR_CLR_TKT_LO_ADDR_LO Reg.EVR_CLR_TKT_HI_ADDR_HI)
    (fld d pgEVR Reg.EVR_CLR_TKT_LEN_LEN) d

/-- GO of a clear: the checks of R438 in order. -/
def evrClearGo (mask : Nat) (d : Dev) : Dev :=
  if d.sys.mode ≠ .service && d.sys.mode ≠ .ceremony then evrClearEnd stMODE 0 d
  else if !(classUsable d 0) then evrClearEnd stPOLICY 70 d
  else if fld d pgEVR Reg.EVR_CLR_TKT_LEN_LEN = 0 then evrClearEnd stQUORUM 0 d
  else match evrTicket d with
    | (.ok, t, _, d) => match ticketsCheck [⟨0xFFFF, 0x2007, 0, sha384 (clearBlock mask), 0⟩] t [] d with
      | (.ok (ids, _), d) => handRec ⟨1, 5, 0x0106, 0, false, zeros 24, some (mask, ids.headD 0)⟩ d
      | (.error e, d) => evrClearEnd stTICKET e d
    | (r, _, _, d) => evrClearEnd (memDenial r 5).1 (memDenial r 5).2 d

/-- A write to a block register of page 0x040 that the page admits; only the secure world changes the EVR_CLR registers (R439). -/
def evrReg0 (a : Access) (off v : Nat) (d : Dev) : Dev :=
  if !a.sec && Reg.EVR_CLR_CTL_GO.off ≤ off && off ≤ Reg.EVR_CLR_TKT_LEN_LEN.off then denyWorld pgEVR a off d
  else
    let j := judgePlain .evr0 a pgEVR off v d
    if off = Reg.EVR_WR_CTL_GO.off && j.took Reg.EVR_WR_CTL_GO && bit v 31 then evrWriteGo a v j.d
    else if off = Reg.EVR_CLR_CTL_GO.off && j.took Reg.EVR_CLR_CTL_GO && bit v 31 then evrClearGo (bits v 15 0) j.d
    else j.d

/-- A write to a block register of page 0x041 that the page admits: the cursor of the writer's port (R442). -/
def evrReg1 (a : Access) (off v : Nat) (d : Dev) : Dev :=
  let port := evPort a
  if port = 2 then d
  else if off ≠ Reg.EVR_RD_CUR_LO_CUR.off && off ≠ Reg.EVR_RD_CUR_HI_CUR.off then d
  else if (hdrOf d pgEVR1).softRst then regErr pgEVR1 errCFG a off d
  else if off = Reg.EVR_RD_CUR_LO_CUR.off then { d with evr := { d.evr with curLo := setNth d.evr.curLo port v } }
  else { d with evr := { d.evr with cursors := setNth d.evr.cursors port (v * 2 ^ 32 + d.evr.curLo.getD port 0) } }

/-- A write to a block register of an EVR page by a master. -/
def evrWrite (a : Access) (p off v : Nat) (d : Dev) : Dev :=
  match admitWrite (seenAs a) p off d with
  | (some .evr0, d) => evrReg0 (seenAs a) off (v % 2 ^ 32) d
  | (some _, d) => evrReg1 (seenAs a) off (v % 2 ^ 32) d
  | (none, d) => d

/-! ## The rows -/

/-- EVR_WRITE_GO (R439): val is the word with CHANNEL, SEVERITY and CODE; GO is set. -/
def execEvrWriteGo (a : Access) (val : Nat) (s : State) : Host.Outcome State Fault Refusal :=
  runAcc a s fun a => (evrWrite a pgEVR Reg.EVR_WR_CTL_GO.off (setBit val 31 true))

/-- EVR_CLEAR_GO (R438): val is the word with MASK; GO is set. -/
def execEvrClearGo (a : Access) (val : Nat) (s : State) : Host.Outcome State Fault Refusal :=
  runAcc a s fun a => (evrWrite a pgEVR Reg.EVR_CLR_CTL_GO.off (setBit val 31 true))

/-- EVR_RD_NEXT (R436). -/
def execEvrRdNext (a : Access) (s : State) : Host.Outcome State Fault Refusal :=
  runAcc a s fun a => (readAnswer a pgEVR1 Reg.EVR_RD_NEXT_VALID.off 4)

/-- EVR_RD_PREV (R436). -/
def execEvrRdPrev (a : Access) (s : State) : Host.Outcome State Fault Refusal :=
  runAcc a s fun a => (readAnswer a pgEVR1 Reg.EVR_RD_PREV_VALID.off 4)

/-- EVR_CURSOR_SET (R442): a write of EVR_RD_CUR_HI. -/
def execEvrCursorSet (a : Access) (val : Nat) (s : State) : Host.Outcome State Fault Refusal :=
  runAcc a s fun a => (evrWrite a pgEVR1 Reg.EVR_RD_CUR_HI_CUR.off val)

/-- EVENT_BUFFER_WRITE (R431): the oldest buffered record goes to MRAM, and the fence releases what then fits. -/
def execEventBufferWrite (s : State) : Host.Outcome State Fault Refusal :=
  runDev s fun d => if dieOn d.sys.mode then writeBuffered d else d

end Sys2Proof.Machine
end

