-- ==== Sys2Proof/Machine/Tamper.lean ====
section
/-! DEFINITION. The tamper monitor: detectors and their pairs, the decision of an alarm, its record and its response, throttling, the
fuses and the arming of loops (R389-R409). -/

namespace Sys2Proof.Machine

/-! ## Detector pairs (R390, R391) -/

/-- Changes the tamper monitor. -/
def modTamp (f : TampSt → TampSt) (d : Dev) : Dev := { d with tamp := f d.tamp }

/-- Puts a source's detectors. -/
def tampPut (s : Nat) (x : TampSrc) (d : Dev) : Dev := modTamp (fun t => { t with src := smapSet tampReset t.src s x }) d

/-- Sources that the battery-backed domain powers (R389). -/
def lantSource (s : Nat) : Bool := (7 ≤ s && s ≤ 12) || s = 15

/-- Whether a reading lies in a guard band of SUPPLY or TEMP: 1 % of the rail's nominal voltage, or 3 °C, on the untripped side of a
threshold (R389, R391). -/
def inBand (s rail : Nat) (r : Option Int) : Bool :=
  match r with
  | none => false
  | some v =>
    let within (lo hi : Int) : Bool := lo ≤ v && v ≤ hi
    if s = 0 then (match rail with
      | 0 => within 675 682 || within 818 825
      | 1 => within 765 773 || within 927 935
      | _ => within 1620 1638 || within 1962 1980)
    else s = 3 && (within (-720) (-672) || within 1872 1920)

/-- How long a pair must disagree before MONFAULT fires, and agree before it can fire again, in ns (R391). -/
def monPeriod (d : Dev) : Nat := if dieOn d.sys.mode then 1000000 else 33 * 1000000000 / 32768 + 1

/-- A pair's disagreement follows its detectors: one has tripped and the other, which has not, reads outside its band. -/
def pairStep (d : Dev) (s : Nat) (x : TampSrc) : TampSrc :=
  let dis := Bool.xor x.a x.b && !(inBand s x.rail (if x.a then x.readingB else x.reading))
  match x.disSince, dis with
  | none, true =>
    let rested : Bool := match x.agreeSince with
      | some t => t + monPeriod d ≤ d.now
      | none => true
    { x with disSince := some d.now, fired := x.fired && !rested, agreeSince := none }
  | some _, false => { x with disSince := none, agreeSince := if x.fired then some d.now else none }
  | _, _ => x

/-! ## One alarm -/

/-- An alarm at its decision. -/
structure Alarm where
  src : Nat
  a : Bool
  b : Bool
  /-- the disagreeing source of MONFAULT, else 0xFF -/
  dis : Nat
  reading : Option Int
deriving DecidableEq, Repr

/-- The response that can act in a mode, as rank - 1 (R403, R407). -/
def respIn (m : Mode) (e : Nat) : Nat :=
  match m with
  | .halted => if e = 5 then 5 else 0
  | .zeroised => 0
  | .holdup => if 4 ≤ e then e else 0
  | _ => e

/-- Whether INTERRUPT acts in a mode. -/
def irqActs (m : Mode) : Bool := dieOn m && !(stopped m) && m ≠ .holdup

/-- Modes in which every alarm goes to the latch (R399). -/
def latchOnly (m : Mode) : Bool := m = .vigil || stopped m

/-- A RESET response is in progress. -/
def resetRuns (d : Dev) : Bool := d.flt.rst.isSome || d.raised.any (fun f => f.cls = .reset)

/-- RESET alarms of a list beyond the third within 60 s execute as HALT: the responses that act, in order (R397). n counts the RESET
responses so far. -/
def actsOf (d : Dev) : Nat → List Alarm → List Nat
  | _, [] => []
  | n, x :: t =>
    let e := respIn d.sys.mode (respEff d x.src)
    if e = 3 then (if 3 ≤ n then 4 else 3) :: actsOf d (n + 1) t else e :: actsOf d n t

/-- The response executed by an alarm that could execute e, where lim is the most severe that acts or is in progress (R398). -/
def execOf (m : Mode) (lim e : Nat) : Nat := if 2 ≤ e && e < lim then b2n (irqActs m) else e

/-- The alarm is seen and counted (R408); the registers have power only with the die. -/
def alarmCount (s : Nat) (d : Dev) : Dev :=
  if dieOn d.sys.mode then
    let d := setFld d pgTAMP Reg.TAMP_SEEN_SEEN (setBit (fld d pgTAMP Reg.TAMP_SEEN_SEEN) s true)
    satFld d pgTAMP3 (fldAt (if s % 2 = 1 then Reg.TAMP_CNT_ODD else Reg.TAMP_CNT_EVEN) (s / 2)) 1
  else d

/-- A latch entry of an alarm: of every alarm in VIGIL, HALTED and ZEROISED, and of a RESET, HALT or ZEROISE (R399). -/
def alarmLatch (m : Mode) (eff exe : Nat) (x : Alarm) (d : Dev) : Dev :=
  if latchOnly m || 3 ≤ eff then latchPut (latchWord x.src x.a x.b exe (stamp d)) d else d

/-- A channel 0 record of an alarm: of a LOG, INTERRUPT or THROTTLE in the other modes (R399). -/
def alarmRecord (m : Mode) (eff exe time : Nat) (x : Alarm) (d : Dev) : Dev :=
  if latchOnly m || 3 ≤ eff then d
  else handRec ⟨0, exe + 1, 0x0001, 0, false,
    payTamper x.src (b2n x.a + 2 * b2n x.b) (respCfg d x.src) eff exe x.dis time x.reading, none⟩ d

/-! ## Throttling (R394) -/

/-- Clocks are reduced. -/
def throttled (d : Dev) : Bool := d.tamp.throttling ≠ 0 || d.tamp.throttleEnd.isSome

/-- The clock scale follows, where no other mode sets it (R394, R451). -/
def scaleStep (d : Dev) : Dev :=
  if d.sys.mode = .drowse || d.sys.mode = .holdup then d
  else { d with hearth := { d.hearth with scale := if throttled d then 1 else 0 } }

/-- A source executes THROTTLE. -/
def throttleOn (s : Nat) (d : Dev) : Dev :=
  let was := throttled d
  let d := modTamp (fun t => { t with throttling := setBit t.throttling s true, throttleEnd := none }) d
  let d := scaleStep (satFld d pgTAMP Reg.TAMP_THROTTLE_COUNT 1)
  if was then d else raiseEv pgTAMP 2 d

/-- A source leaves alarm: it may act again, and the last that throttled starts the 10 ms. -/
def alarmEnd (s : Nat) (d : Dev) : Dev :=
  if bit d.tamp.throttling s then
    let left := setBit d.tamp.throttling s false
    modTamp (fun t => { t with throttling := left, throttleEnd := if left = 0 then some (d.now + 10000000) else t.throttleEnd }) d
  else d

/-! ## Combination (R393, R398) -/

/-- The most severe response that acts, on the sources that execute it, lowest first. -/
def alarmRespond (top : Nat) (l : List Nat) (d : Dev) : Dev :=
  if top = 5 then zeroise d
  else if !(dieOn d.sys.mode) then d
  else if top = 4 then faultHalt 3 (l.headD 0) d
  else if top = 3 then
    l.foldl (fun d s => raiseFault ⟨.reset, 3, s⟩ (modLant (fun x => { x with resets := lateResets d ++ [stamp d] }) d)) d
  else d

/-- Alarms decided in one cycle, in ascending source ID (R398, R399). -/
def alarmsAct (l : List Alarm) (d : Dev) : Dev :=
  if l.isEmpty then d
  else
    let m := d.sys.mode
    let time := stamp d
    let acts := actsOf d (lateResets d).length l
    let top := acts.foldl max 0
    let lim := if resetRuns d then max 3 top else top
    let rows := (l.zip acts).map (fun x => (x.1, respEff d x.1.src, execOf m lim x.2))
    let d := rows.foldl (fun d x => alarmLatch m x.2.1 x.2.2 x.1 (alarmCount x.1.src d)) d
    let d := if m = .drowse && top ≠ 5 then wake 5 d else d
    let d := rows.foldl (fun d x => alarmRecord m x.2.1 x.2.2 time x.1 d) d
    let d := if irqActs m && rows.any (fun x => 1 ≤ x.2.1) then raiseEv pgTAMP 0 d else d
    let d := (rows.filter (fun x => x.2.2 = 2 && irqActs m)).foldl (fun d x => throttleOn x.1.src d) d
    alarmRespond top ((rows.filter (fun x => x.2.2 = top)).map (·.1.src)) d

/-! ## The main-power sources (R389, R390) -/

/-- The trips of a list for a source. -/
def tripsOf (l : List Trip) (s : Nat) : List Trip := l.filter (fun t => t.src = s)

/-- A reading goes to its register. -/
def readingPut (f : Fld) (r : Option Int) (d : Dev) : Dev :=
  match r with
  | some v => setFld d pgTAMP2 f (v % 65536).toNat
  | none => d

/-- Readings of the monitor's registers that a trip brings (R408). -/
def tripReading (s rail : Nat) (r rB : Option Int) (d : Dev) : Dev :=
  if s = 3 then readingPut Reg.TAMP_TEMP_TEMP_B rB (readingPut Reg.TAMP_TEMP_TEMP_A r d)
  else if s = 1 then readingPut Reg.TAMP_CLKDEV_DEV r d
  else if s = 0 then readingPut (match rail with | 0 => Reg.TAMP_VCORE_MV | 1 => Reg.TAMP_VSRAM_MV | _ => Reg.TAMP_VIO_MV) r d
  else d

/-- Detectors of a source trip: its state, and the alarm where it enters alarm. -/
def tripSource (s : Nat) (a b : Bool) (r rB : Option Int) (rail : Nat) (d : Dev) : List Alarm × Dev :=
  let x := tampOf d s
  let held := if s = 2 || s = 6 then some (d.now + 100000) else none
  let y := pairStep d s { x with
    a := x.a || a, b := x.b || b, heldUntil := held, reading := if r.isSome then r else x.reading
    readingB := if rB.isSome then rB else x.readingB, rail := rail }
  let d := tripReading s rail r rB (tampPut s y d)
  (if x.a || x.b then [] else [⟨s, y.a, y.b, 0xFF, y.reading⟩], d)

/-- TAMPER_ALARM (R390): detectors of main-power sources trip in one cycle. -/
def execTamperAlarm (trips : List Trip) (s : State) : Host.Outcome State Fault Refusal :=
  runDev s fun d =>
    if !(dieOn d.sys.mode) then d
    else
      let (l, d) := (List.range 7).foldl (fun (acc : List Alarm × Dev) n =>
        let ts := tripsOf trips n
        let a := ts.any (·.a)
        let b := ts.any (·.b)
        if (a || b) && !(tampFused acc.2 n) then
          let (l, d) := tripSource n a b ((ts.filterMap (·.reading)).head?) ((ts.filterMap (·.readingB)).head?) ((ts.head?.map (·.rail)).getD 0) acc.2
          (acc.1 ++ l, d)
        else acc) ([], d)
      alarmsAct l d

/-- A source's detectors clear. -/
def tampClear (s : Nat) (d : Dev) : Dev :=
  let x := tampOf d s
  alarmEnd s (tampPut s (pairStep d s { x with a := false, b := false, heldUntil := none }) d)

/-- MONFAULT's own alarm lasts while a pair that it fired for still disagrees. -/
def monSettle (d : Dev) : Dev :=
  if (tampOf d 14).a && !((List.range 16).any (fun s => (tampOf d s).fired && (tampOf d s).disSince.isSome)) then tampClear 14 d else d

/-- TRIP_HOLD_END (R390): 100 µs after the last trip of CLK_GLITCH or PULSE. -/
def execTripHoldEnd (src : Nat) (s : State) : Host.Outcome State Fault Refusal :=
  runDev s fun d =>
    match (tampOf d src).heldUntil with
    | some t => monSettle (tampClear src (waitUntil t d))
    | none => d

/-- TAMPER_ALARM_END (R390): a main-power source that holds no trip leaves alarm. -/
def execTamperAlarmEnd (src : Nat) (s : State) : Host.Outcome State Fault Refusal :=
  runDev s fun d => if src ≤ 6 && (tampOf d src).heldUntil.isNone then monSettle (tampClear src d) else d

/-- THROTTLE_END (R394). -/
def execThrottleEnd (s : State) : Host.Outcome State Fault Refusal :=
  runDev s fun d =>
    match d.tamp.throttleEnd with
    | some t => raiseEv pgTAMP 2 (scaleStep (modTamp (fun x => { x with throttleEnd := none }) (waitUntil t d)))
    | none => d

/-- A mismatch of the bus codes: source 13 alarms for that moment (R371, R389). -/
def busAlarm (d : Dev) : Dev := alarmEnd 13 (alarmsAct [⟨13, true, false, 0xFF, none⟩] d)

/-! ## MONFAULT (R391) -/

/-- Whether a pair is compared at present: in VIGIL only those of the battery-backed sources (R403). -/
def pairWatched (d : Dev) (s : Nat) : Bool :=
  s < 16 && (if dieOn d.sys.mode then true else d.sys.mode = .vigil && lantSource s)

/-- MONFAULT fires for a source. -/
def monFire (s : Nat) (d : Dev) : Dev :=
  let d := tampPut s { tampOf d s with fired := true } d
  let d := tampPut 14 { tampOf d 14 with a := true } d
  let d := if dieOn d.sys.mode then
      raiseEv pgTAMP 1 (satFld (modTamp (fun t => { t with monLast := s }) d) pgTAMP Reg.TAMP_MONF_COUNT 1)
    else d
  alarmsAct [⟨14, false, false, s, none⟩] d

/-- MONFAULT (R391): a pair has disagreed for 1 ms. -/
def execMonfault (src : Nat) (s : State) : Host.Outcome State Fault Refusal :=
  runDev s fun d =>
    match (tampOf d src).disSince with
    | some t =>
      if (tampOf d src).fired || !(pairWatched d src) then d else monFire src (waitUntil (t + monPeriod d) d)
    | none => d

/-! ## The battery-backed sources (R389, R390, R396, R403) -/

/-- Detectors of a loop: window comparator and time-domain check. -/
def loopTrips (res delay ref : Nat) (cross : Bool) : Bool × Bool :=
  (res < 300 || 2200 < res, delay * 2 < ref || ref * 2 < delay || cross)

/-- Detectors of a tamper input with its tick count: the level held for TIN_FILTER ticks, and the resistance. -/
def tinTrips (d : Dev) (r : LanternRead) (n step : Nat) : Bool × Bool × Nat :=
  let pol := bit d.lant.tinPol n
  let ohm := r.tinOhm.getD n 0
  let old := (tampOf d (9 + n)).ticks
  let ticks := if bit r.tinOpen n = pol then 0 else if old = 0 then 1 else min 16 (old + step)
  (d.lant.tinFilter < ticks, if pol then ohm < 100000 else 1000 < ohm, ticks)

/-- What a sample finds at a battery-backed source: its detectors, the ticks of an input, and its reading. An unarmed or disabled one never
alarms. -/
def sampleOf (d : Dev) (r : LanternRead) (step s : Nat) : Bool × Bool × Nat × Option Int :=
  let l := d.lant
  let none' := (false, false, 0, none)
  if tampFused d s then none'
  else if s = 7 then
    if l.armA then let (a, b) := loopTrips r.resA r.delayA l.refA r.crossA; (a, b, 0, some (min r.resA 65535)) else none'
  else if s = 8 then
    if l.armB then let (a, b) := loopTrips r.resB r.delayB l.refB r.crossB; (a, b, 0, some (min r.resB 65535)) else none'
  else if s = 15 then (r.inputMv < 2300, r.coreMv < 900, 0, none)
  else if bit l.tinArm (s - 9) then
    let (a, b, k) := tinTrips d r (s - 9) step
    (a, b, k, none)
  else none'

/-- One source takes its sample: the alarm where it enters alarm. -/
def sampleSource (r : LanternRead) (step s : Nat) (d : Dev) : List Alarm × Dev :=
  let x := tampOf d s
  let (a, b, k, rd) := sampleOf d r step s
  let y := pairStep d s { x with a := a, b := b, ticks := k, reading := rd }
  let d := tampPut s y d
  if a || b then (if x.a || x.b then [] else [⟨s, a, b, 0xFF, rd⟩], d) else ([], alarmEnd s d)

/-- The loops' last measured resistance. -/
def loopRes (r : LanternRead) (d : Dev) : Dev :=
  modLant (fun l => { l with
    resA := if l.armA then min r.resA 65535 else l.resA
    resB := if l.armB && !(tampFused d 8) then min r.resB 65535 else l.resB }) d

/-- LANTERN_SAMPLE (R390, R403): at the next lantern tick, or in VIGIL 32 ticks on, the domain samples its sources and decides. -/
def execLanternSample (r : LanternRead) (s : State) : Host.Outcome State Fault Refusal :=
  runDev s fun d =>
    if !d.lant.powered || d.sys.mode = .off then d
    else
      let step := if dieOn d.sys.mode then 1 else 32
      let d := loopRes r (waitUntil (timeOfStamp d (tickOf (d.now - d.lant.epochNs) + step)) d)
      let (l, d) := [7, 8, 9, 10, 11, 12, 15].foldl (fun (acc : List Alarm × Dev) n =>
        let (l, d) := sampleSource r step n acc.2
        (acc.1 ++ l, d)) ([], d)
      monSettle (alarmsAct l d)

/-- RESET_WINDOW_EXPIRY (R397): the oldest RESET response of the window is 60 s old. -/
def execResetWindowExpiry (s : State) : Host.Outcome State Fault Refusal :=
  runDev s fun d =>
    match d.lant.resets with
    | t :: _ =>
      let d := waitUntil (timeOfStamp d (t + 60 * 32768)) d
      modLant (fun l => { l with resets := lateResets d }) d
    | [] => d

/-! ## Fuses (R392) -/

/-- Code of the TAMP pages (R408). -/
def errFUSE_REFUSED := 0x0100

/-- The sources that fuses can disable: 5, 8 and 9-12. -/
def fuseMask : Nat := 2 ^ 5 + 2 ^ 8 + 2 ^ 9 + 2 ^ 10 + 2 ^ 11 + 2 ^ 12

/-- The supply and the states in which sources are disabled. -/
def fuseOpen (d : Dev) : Bool :=
  d.sup.p12vGood && (d.sys.lc = .test || d.sys.lc = .factory || (d.sys.lc = .provision && d.lant.root.isNone))

/-- Sources are disabled for ever: their detectors are unpowered. -/
def fuseBurn (mask : Nat) (d : Dev) : Dev :=
  let fresh := mask - Nat.land mask d.fuse.tampOff
  if fresh = 0 then d
  else
    let d := { d with fuse := { d.fuse with tampOff := Nat.lor d.fuse.tampOff mask } }
    let d := (List.range 16).foldl (fun d s => if bit fresh s then alarmEnd s (tampPut s (tampReset s) d) else d) d
    record 0x0004 (leBytes 2 d.fuse.tampOff ++ zeros 6) (monSettle d)

/-- A write of TAMP_FUSE.REQ that the page has taken. -/
def fuseReq (a : Access) (mask : Nat) (d : Dev) : Dev :=
  if Nat.land mask fuseMask ≠ mask then regErr pgTAMP errVALUE a Reg.TAMP_FUSE_REQ.off d
  else if !(fuseOpen d) then regErr pgTAMP errFUSE_REFUSED a Reg.TAMP_FUSE_REQ.off d
  else fuseBurn mask d

/-- A write to a block register of a TAMP page that the page admits (R392, R403, R408). -/
def tampReg (k : PageKind) (a : Access) (p off v : Nat) (d : Dev) : Dev :=
  let j := judgePlain k a p off v d
  if k = .tamp0 && off = Reg.TAMP_FUSE_REQ.off then
    (if j.took Reg.TAMP_FUSE_REQ then fuseReq a (bits v 31 16) j.d else j.d)
  else if k = .tamp1 && 0x040 ≤ off && off < 0x080 then
    let s := (off - 0x040) / 4
    if lantHeld s && j.took (fldAt Reg.TAMP_RESP_RESP s) then
      modLant (fun l => { l with resp := smapSet zeroAt l.resp s (bits v 3 0) }) j.d
    else j.d
  else j.d

/-- TAMPER_FUSE_REQ (R392). -/
def execTamperFuseReq (a : Access) (mask : Nat) (s : State) : Host.Outcome State Fault Refusal :=
  runAcc a s fun a d =>
    match admitWrite (seenAs a) pgTAMP Reg.TAMP_FUSE_REQ.off d with
    | (some k, d) => tampReg k (seenAs a) pgTAMP Reg.TAMP_FUSE_REQ.off (mask % 65536 * 65536) d
    | (none, d) => d

/-! ## VIG_CFG (R396, R409) -/

/-- Code of the VIG page (R409). -/
def errARM_FORCED := 0x0100

/-- A loop may not be disarmed in DEPLOYED. -/
def armForced (d : Dev) (armed want : Bool) : Bool := floorLc d = .deployed && armed && !want

/-- The fields of VIG_CFG that the page has taken go to the battery-backed domain; a loop armed anew has its delay measured. -/
def vigPut (j : Judged) (v refA refB : Nat) : Dev :=
  let d := j.d
  let l := d.lant
  let take (f : Fld) (old : Nat) : Nat := if j.took f then bits v f.hi f.lo else old
  let arm (f : Fld) (old : Bool) : Bool := if j.took f && !(armForced d old (bit v f.lo)) then bit v f.lo else old
  let armA := arm Reg.VIG_CFG_ARM_A l.armA
  let armB := arm Reg.VIG_CFG_ARM_B l.armB
  { d with lant := { l with
      tinFilter := take Reg.VIG_CFG_TIN_FILTER l.tinFilter
      tinPol := take Reg.VIG_CFG_TIN_POL l.tinPol
      tinArm := take Reg.VIG_CFG_TIN_ARM l.tinArm
      armA := armA, armB := armB
      refA := if armA && !l.armA then refA % 65536 else l.refA
      refB := if armB && !l.armB && !(tampFused d 8) then refB % 65536 else l.refB } }

/-- A write to a block register of the VIG page that the page admits. refA and refB are the delays that an arming measures. -/
def vigReg (a : Access) (off v refA refB : Nat) (d : Dev) : Dev :=
  let j := judgePlain .vig a pgVIG off v d
  if off ≠ Reg.VIG_CFG_ARM_A.off then j.d
  else
    let l := d.lant
    let forced := (j.took Reg.VIG_CFG_ARM_A && armForced d l.armA (bit v 0)) || (j.took Reg.VIG_CFG_ARM_B && armForced d l.armB (bit v 1))
    let d := vigPut j v refA refB
    if forced then regErr pgVIG errARM_FORCED a off d else d

/-- LOOP_ARM (R396): a write of VIG_CFG, and the loop delays measured where it arms a loop. -/
def execLoopArm (a : Access) (val : Nat) (refA refB : Nat) (s : State) : Host.Outcome State Fault Refusal :=
  runAcc a s fun a d =>
    match admitWrite (seenAs a) pgVIG Reg.VIG_CFG_ARM_A.off d with
    | (some _, d) => vigReg (seenAs a) Reg.VIG_CFG_ARM_A.off (val % 2 ^ 32) refA refB d
    | (none, d) => d

end Sys2Proof.Machine
end

