-- ==== Sys2Proof/Machine/EntCmds.lean ====
section
/-! DEFINITION. The registers of the Wells and of the software port: raw capture, pattern substitution, the feeding Well, the FIFO and
ENT_EMPTY (R237, R242-R245). -/

namespace Sys2Proof.Machine

/-- Codes of the ENT pages (R244). -/
def errDIAG_MODE := 0x0100
def errCAP_ADDR := 0x0101
def errCAP_BUSY := 0x0102

/-- Capture base of a Well. -/
def capBase (d : Dev) (q : Nat) : Nat := fld d (pgENT q) Reg.ENT_CAP_BASE_LO_ADDR_LO * 64 + fld d (pgENT q) Reg.ENT_CAP_BASE_HI_ADDR_HI * 2 ^ 32

/-- Samples that a capture takes. -/
def capLen (d : Dev) (q : Nat) : Nat := fld d (pgENT q) Reg.ENT_CAP_LEN_LEN

/-- A capture is requested (R242). -/
def captureGo (a : Access) (q : Nat) (d : Dev) : Dev :=
  let p := pgENT q
  let off := Reg.ENT_DIAG_CAPTURE.off
  if d.sys.mode ≠ .diagnostic then regErr p errDIAG_MODE a off d
  else if !(secureRange d (capBase d q) (capLen d q)) then regErr p errCAP_ADDR a off d
  else if (wellOf d q).capturing then regErr p errCAP_BUSY a off d
  else if (wellOf d q).run = .off then d
  else setFld (modWell q (fun w => { w with capture := some ⟨fldB d p Reg.ENT_DIAG_SRC, capBase d q, capLen d q⟩ }) d) p Reg.ENT_CAP_DONE_DONE 0

/-- Substitution begins: the pattern from its first sample (R243). -/
def substOn (q : Nat) (d : Dev) : Dev :=
  modWell q (fun w => { w with subst := true, lfsr := fld d (pgENT q) Reg.ENT_PATTERN_PATTERN, patPos := 0 }) d

/-- What a write of SUBST asks for: it begins in FACTORY_TEST only, an LFSR not from zero, and clearing it restarts the Well. was is
the field before the write (R243, R244). -/
def substGo (a : Access) (q v was : Nat) (d : Dev) : Dev :=
  let p := pgENT q
  let off := Reg.ENT_DIAG_SUBST.off
  let keep (d : Dev) : Dev := setFld d p Reg.ENT_DIAG_SUBST was
  if bit v 30 then
    if (wellOf d q).subst then d
    else if d.sys.mode ≠ .factoryTest then regErr p errDIAG_MODE a off (keep d)
    else if bit v 26 && fld d p Reg.ENT_PATTERN_PATTERN = 0 then regErr p errVALUE a off (keep d)
    else substOn q d
  else if (wellOf d q).subst then wellRestart q true d
  else d

/-- A write of ENT_DIAG that the page admits. -/
def entDiag (a : Access) (q v : Nat) (d : Dev) : Dev :=
  let p := pgENT q
  let off := Reg.ENT_DIAG_CAPTURE.off
  let was := fld d p Reg.ENT_DIAG_SUBST
  let j := judgePlain .ent a p off v d
  let d := if j.took Reg.ENT_DIAG_SUBST then substGo a q v was j.d else j.d
  if j.took Reg.ENT_DIAG_CAPTURE && bit v 31 then captureGo a q d else d

/-- A write to a block register of an ENT page that the page admits. -/
def entReg (a : Access) (p off v : Nat) (d : Dev) : Dev :=
  if off = Reg.ENT_DIAG_CAPTURE.off then entDiag a (p - 0x050) v d else (judgePlain .ent a p off v d).d

/-- A write to a block register of an ENT page by a master. -/
def entWrite (a : Access) (q off v : Nat) (d : Dev) : Dev :=
  match admitWrite (seenAs a) (pgENT q) off d with
  | (some _, d) => entReg (seenAs a) (pgENT q) off (v % 2 ^ 32) d
  | (none, d) => d

/-- RAW_CAPTURE (R242): a write of ENT_DIAG with CAPTURE. -/
def execRawCapture (a : Access) (q : Nat) (val : Nat) (s : State) : Host.Outcome State Fault Refusal :=
  runAcc a s fun a d => if q < 4 then entWrite a q Reg.ENT_DIAG_CAPTURE.off (setBit val 31 true) d else d

/-- PATTERN_SUBSTITUTION (R243): a write of ENT_DIAG. -/
def execPatternSubstitution (a : Access) (q : Nat) (val : Nat) (s : State) : Host.Outcome State Fault Refusal :=
  runAcc a s fun a d => if q < 4 then entWrite a q Reg.ENT_DIAG_CAPTURE.off (setBit val 31 false) d else d

/-- The health tests run on captured samples and count failures, but cause no switchover (R242). -/
def capTests (q : Nat) (alt : Bool) (b : Bytes) (d : Dev) : Dev :=
  let r := healthAll alt b (noiseOf (wellOf d q) alt).health
  countFail q alt r.1 (modNoise q alt (fun s => { s with health := r.2 }) d)

/-- CAP_DONE (R242): the samples lie at the capture base, and the capture ends. -/
def execCapDone (q : Nat) (samples : Bytes) (s : State) : Host.Outcome State Fault Refusal :=
  runDev s fun d =>
    match (if q < 4 then (wellOf d q).capture else none) with
    | some c =>
      let (b, d) := someSamples c.len samples d
      let d := capTests q c.alt b d
      let (_, d) := memStore (whoDevice q true) none c.base b d
      let d := modWell q (fun w => { w with capture := none }) (setFld d (pgENT q) Reg.ENT_CAP_DONE_DONE c.len)
      settle (pgENT q) (raiseEv (pgENT q) 3 d)
    | none => d

/-! ## The software port (R237, R245) -/

/-- A write of DRBG_SW_STAT: 1 to ENT_EMPTY clears the writing world's bit, and no world setting refuses it. -/
def emptyClear (a : Access) (v : Nat) (d : Dev) : Dev :=
  if (hdrOf d pgDRBG).softRst then regErr pgDRBG errCFG a Reg.DRBG_SW_STAT_ENT_EMPTY.off d
  else if bit v 1 then { d with ent := { d.ent with empty := d.ent.empty.set (if a.sec then 0 else 1) false } }
  else d

/-- A write of DRBG_SW_STAT by a master. -/
def emptyWrite (a : Access) (v : Nat) (d : Dev) : Dev :=
  if reach d a pgDRBG Reg.DRBG_SW_STAT_ENT_EMPTY.off = .page then emptyClear (seenAs a) v d else d

/-- A write to a block register of the software port's page that the page admits: a change of SRC_Q may change the feeding Well. -/
def drbgReg (a : Access) (off v : Nat) (d : Dev) : Dev :=
  if off = Reg.DRBG_SW_STAT_ENT_EMPTY.off then emptyClear a v d else syncPorts (judgePlain .drbg a pgDRBG off v d).d

/-- DRBG_SW_DATA_READ (R237). -/
def execDrbgSwDataRead (a : Access) (s : State) : Host.Outcome State Fault Refusal :=
  runAcc a s fun a => (readAnswer a pgDRBG Reg.DRBG_SW_DATA_DATA.off 4)

/-- ENT_EMPTY_CLEAR (R245). -/
def execEntEmptyClear (a : Access) (s : State) : Host.Outcome State Fault Refusal :=
  runAcc a s fun a => (emptyWrite a 2)

/-! ## The Wells and the DRBGs (R228-R241) -/

/-- WELL_START (R240): in a quarter that is ON, the known-answer tests run and the primary starts. -/
def execWellStart (q : Nat) (katOk : Bool) (s : State) : Host.Outcome State Fault Refusal :=
  runDev s fun d =>
    if q < 4 && (quarterOf d q).pwr = .on && (wellOf d q).run = .off && drbgOpen d.sys.mode
        && (hdrOf d (pgENT q)).pwrNow = 0 then wellBegin q katOk d else d

/-- STARTUP_TEST_DONE (R228, R231, R232): both tests run over the source's first 1,024 samples; while pattern substitution is active the
tests are suspended, and none ends (R243). -/
def execStartupTestDone (q : Nat) (alternate : Bool) (samples : Bytes) (s : State) : Host.Outcome State Fault Refusal :=
  runDev s fun d =>
    let st := (noiseOf (wellOf d q) alternate).run
    if q < 4 && (st = .testing || st = .retest) && !(wellOf d q).subst then
      let (b, d) := someSamples startupSamples samples d
      testEnd q alternate b d
    else d

/-- CONTINUOUS_TEST_FAIL (R229-R231): samples that a running source takes besides the conditioner's, of which one may fail a test. -/
def execContinuousTestFail (q : Nat) (alternate : Bool) (samples : Bytes) (s : State) : Host.Outcome State Fault Refusal :=
  runDev s fun d => if q < 4 && (noiseOf (wellOf d q) alternate).run = .running then (sourceRun q alternate samples d).2 else d

/-- SOURCE_RETEST (R231): once the Well runs on one source or is in ENT_FAIL, a failed source starts a retest. -/
def execSourceRetest (q : Nat) (alternate : Bool) (s : State) : Host.Outcome State Fault Refusal :=
  runDev s fun d =>
    let w := wellOf d q
    let n := noiseOf w alternate
    if q < 4 && n.run = .waiting && (w.run = .primary || w.run = .alternate || w.run = .entFail) then
      modNoise q alternate (fun s => { s with run := .retest }) (waitUntil n.retestAt d)
    else d

/-- RETURN_TO_PRIMARY (R231): at the block boundary the primary feeds again and the alternate stops; no DRBG is
marked. -/
def execReturnToPrimary (q : Nat) (s : State) : Host.Outcome State Fault Refusal :=
  runDev s fun d =>
    let w := wellOf d q
    if q < 4 && w.goBack && w.feed = some true && w.pri.run = .running then
      modWell q (fun w => { w with
        feed := some false, goBack := false, run := if w.run = .alternate then .primary else w.run
        alt := { w.alt with run := .idle } }) d
    else d

/-- CONDITIONED_BLOCK (R227, R229): the conditioner digests one block's samples, each of which the continuous tests have passed, and adds
the output to the pool; the block's end is the ENT page's job boundary (R244). -/
def execConditionedBlock (q : Nat) (samples : Bytes) (s : State) : Host.Outcome State Fault Refusal :=
  runDev s fun d =>
    let w := wellOf d q
    match w.feed with
    | none => d
    | some alt =>
      if q < 4 && w.run ≠ .diag && w.pool.length + 2 ≤ 16 then
        let n := blockSamples alt
        let (bs, d) :=
          if w.subst then
            let r := patternGo (fldB d (pgENT q) Reg.ENT_DIAG_PAT_KIND) (fld d (pgENT q) Reg.ENT_PATTERN_PATTERN) n w []
            (r.1, modWell q (fun _ => r.2) d)
          else someSamples n samples d
        match sourceRun q alt bs d with
        | (true, d) => jobBoundary (pgENT q) (poolAdd q (sha256 bs) d)
        | (false, d) => d
      else d

/-- DRBG_RESEED (R234, R235): an instance whose turn it is reseeds or is instantiated. -/
def execDrbgReseed (d : Nat) (s : State) : Host.Outcome State Fault Refusal :=
  runDev s fun v =>
    let v := syncPorts v
    if d < 6 && drbgDue (drbgOf v d) && reseedTurn v d && drbgOpen v.sys.mode then reseedFrom d v else v

/-- DRBG_GENERATE (R234): one request into an output buffer or FIFO with room for it, after which waiting reads are
served. -/
def execDrbgGenerate (d : Nat) (s : State) : Host.Outcome State Fault Refusal :=
  runDev s fun v =>
    if d < 6 then
      let v := drbgRequest d (syncPorts v)
      if d < 4 then serveStalls d v else v
    else v

/-- HW_RANDOM_READ (R232, R236): a hardware consumer of a quarter receives its bytes, waits, or ends with an error. -/
def execHwRandomRead (q : Nat) (n : Nat) (s : State) : Host.Outcome State Fault Refusal :=
  runDev s fun d =>
    if q < 4 && (quarterOf d q).pwr = .on then
      if n = 0 then d
      else if (wellOf d q).run = .entFail || !(drbgOpen d.sys.mode) then satFld d (pgENT q) Reg.ENT_STALL_ERR_READS 1
      else serveStalls q (modWell q (fun w => { w with stalls := w.stalls ++ [⟨.other, n, d.now, false, false, []⟩] }) d)
    else d

end Sys2Proof.Machine
end

