-- ==== Sys2Proof/Machine/Dma.lean ====
section
/-! DEFINITION. The DMA channels (R377-R381, R386, R387): the geometry, the reshaper, a transfer, its read-back and its end. A transfer
writes register pages through a function that the caller gives. -/

namespace Sys2Proof.Machine

/-- How a master writes a register page: access, page, offset, size, value. -/
abbrev RegPort := Access → Nat → Nat → Nat → Nat → Dev → Dev

/-- Page error codes (R377). -/
def errSTART_BUSY := 0x0100
def errBAD_SHAPE := 0x0101
def errNOT_ENABLED := 0x0102

/-! ## Bus integrity (R369-R371) -/

/-- The command word of a transaction; one that is longer than eight beats is a series of such words (R369). -/
def cmdWord (w : Who) (posted : Bool) (k : BusKind) (a n : Nat) : Nat :=
  b2n posted * 2 ^ 55 + (min ((n + 7) / 8) 8 - 1) * 2 ^ 52 + kindCode k * 2 ^ 50 + w.idx % 64 * 2 ^ 44 + w.cls % 8 * 2 ^ 41
    + b2n w.sec * 2 ^ 40 + a % 2 ^ 40

/-- The command code CMD: CRC-12 of polynomial 0x80F over the word from bit 63 down, from 0xFFF (R370). -/
def cmdCode (w : Nat) : Nat :=
  (List.range 64).foldl (fun c i =>
    let x := c * 2 % 4096
    if bit c 11 != bit w (63 - i) then Nat.xor x 0x80F else x) 0xFFF

/-- The XOR of the bits of a byte. -/
def parity (b : Byte) : Bool := popCount 8 b.toNat % 2 = 1

/-- The data code of beat n under a CMD (R370). -/
def dataCode (cmd n : Nat) (beat : Bytes) : Nat :=
  (List.range 8).foldl (fun v i => v + b2n ((!(parity (beat.getD i 0))) != bit cmd ((i + n) % 12)) * 2 ^ i) 0

/-- The data codes of a byte string, one for each beat of 8 bytes. -/
def dataCodes (cmd : Nat) (data : Bytes) : List Nat := (chunks 8 data).zipIdx.map (fun x => dataCode cmd x.2 x.1)

/-- Data as it arrives. -/
def busData (e : BusErr) (data : Bytes) : Bytes := xorBytes data (fitTo data.length e.data)

/-- Whether a checker finds that a command word or data differ from what the codes sent with them say (R371). -/
def busMismatch (w : Nat) (data : Bytes) (e : BusErr) : Bool :=
  let cmd := cmdCode w
  let got := Nat.xor cmd e.cmd
  let sent := dataCodes cmd data
  cmdCode (Nat.xor w e.word) != got
    || dataCodes got (busData e data) != (List.range sent.length).map (fun k => Nat.xor (sent.getD k 0) (e.codes.getD k 0).toNat)

/-- A mismatch of the codes: counted, recorded, the event, and the alarm of source 13. -/
def busInt (w : Who) (target : Bool) (addr : Nat) (d : Dev) : Dev :=
  let d := satFld d pgHT Reg.HT_BUSINT_CNT_COUNT 1
  let d := setFld (setFld d pgHT Reg.HT_BUSINT_LOC_AT_TARGET (b2n target)) pgHT Reg.HT_BUSINT_LOC_CLASS w.cls
  let d := setFld (setFld d pgHT Reg.HT_BUSINT_LOC_INDEX w.idx) pgHT Reg.HT_BUSINT_LOC_WORLD (b2n w.sec)
  let d := setFld (setFld d pgHT Reg.HT_BUSINT_ADDR_LO_ADDR_LO addr) pgHT Reg.HT_BUSINT_ADDR_HI_ADDR_HI (addr / 2 ^ 32)
  busAlarm (raiseEv pgHT 2 d)

/-! ## Geometry (R378, R381) -/

/-- A signed step. -/
def stepVal (v : Nat) : Int := if v < 2 ^ 31 then v else (v : Int) - 2 ^ 32

/-- A loop count; 0 means 65,536. -/
def dmaCnt (d : Dev) (p k : Nat) : Nat :=
  let v := fld d p (fldAt Reg.DMA_CNT_COUNT k)
  if v = 0 then 65536 else v

/-- Bytes of an element. -/
def dmaElem (d : Dev) (p : Nat) : Nat := 2 ^ fld d p Reg.DMA_CFG_ESIZE

/-- Elements of a transfer. -/
def dmaCount (d : Dev) (p : Nat) : Nat := dmaCnt d p 0 * dmaCnt d p 1 * dmaCnt d p 2

/-- GROUP and STREAMS. -/
def dmaGroup (d : Dev) (p : Nat) : Nat :=
  let g := fld d p Reg.DMA_RESHAPE_GROUP
  if g = 0 then 4096 else g
def dmaStreams (d : Dev) (p : Nat) : Nat := fld d p Reg.DMA_RESHAPE_STREAMS

/-- Bytes of a block of the mode; one byte where the stream is unchanged. -/
def dmaBlock (d : Dev) (p : Nat) : Nat :=
  match fld d p Reg.DMA_CFG_RESHAPE with
  | 0 => 1
  | 1 => 8
  | 2 => 128
  | _ => dmaStreams d p * dmaGroup d p * dmaElem d p

/-- Bytes read before any of them is written: blocks of the mode that fill the eight beats of a burst, or one block that is larger or that
the elements make up (R369, R381). -/
def dmaUnit (d : Dev) (p : Nat) : Nat := if fld d p Reg.DMA_CFG_RESHAPE < 3 then max 64 (dmaBlock d p) else dmaBlock d p

/-- Source and destination base. -/
def dmaSrc (d : Dev) (p : Nat) : Nat := fldPair d p Reg.DMA_SRC_LO_ADDR_LO Reg.DMA_SRC_HI_ADDR_HI
def dmaDst (d : Dev) (p : Nat) : Nat := fldPair d p Reg.DMA_DST_LO_ADDR_LO Reg.DMA_DST_HI_ADDR_HI

/-- Address of element k from a base and a set of steps. -/
def dmaAddr (d : Dev) (p base : Nat) (step : Fld) (k : Nat) : Nat :=
  let n0 := dmaCnt d p 0
  let n1 := dmaCnt d p 1
  let s (j : Nat) : Int := stepVal (fld d p (fldAt step j))
  (((base : Int) + (k % n0 : Nat) * s 0 + (k / n0 % n1 : Nat) * s 1 + (k / n0 / n1 : Nat) * s 2) % 2 ^ 40).toNat

/-- Source and destination address of element k. -/
def dmaFrom (d : Dev) (p k : Nat) : Nat := dmaAddr d p (dmaSrc d p) Reg.DMA_SSTEP_STEP k
def dmaTo (d : Dev) (p k : Nat) : Nat := dmaAddr d p (dmaDst d p) Reg.DMA_DSTEP_STEP k

/-- Elements of e bytes at a list of addresses as transactions: those that follow one another in memory, or in one page of the outbound
window, go as bursts of at most eight beats (R369, R376); an element of register space goes alone. -/
def dmaBursts (e : Nat) (as : List Nat) : List (Nat × Nat) :=
  (as.foldl (fun (l : List (Nat × Nat)) a => match l with
    | (b, n) :: t =>
      if b + n = a && n + e ≤ 64 && (match zoneOf a with | .regs => false | .hostWin => a % 4096 ≠ 0 | _ => true) then (b, n + e) :: t
      else (a, e) :: l
    | [] => [(a, e)]) []).reverse

/-- The geometry check of START (R381). -/
def dmaShapeOk (d : Dev) (p : Nat) : Bool :=
  let e := dmaElem d p
  let steps := (List.range 3).map (fun k => fld d p (fldAt Reg.DMA_SSTEP_STEP k)) ++ (List.range 3).map (fun k => fld d p (fldAt Reg.DMA_DSTEP_STEP k))
  dmaSrc d p % e = 0 && dmaDst d p % e = 0 && steps.all (fun s => s % e = 0) && dmaCount d p * e % dmaBlock d p = 0
    && (fld d p Reg.DMA_CFG_RESHAPE < 3 || dmaBlock d p ≤ 4096)

/-! ## The reshaper (R381) -/

/-- The bytes of a stream in blocks; fuel bounds their number. -/
def chunksOf (n : Nat) : Nat → Bytes → List Bytes
  | 0, _ => []
  | f + 1, b => if b.isEmpty then [] else b.take n :: chunksOf n f (b.drop n)

/-- Bit i of output j is bit j of input i, over n numbers of n bits. -/
def transpose (n : Nat) (l : List Nat) : List Nat :=
  (List.range n).map (fun j => (List.range n).foldl (fun v i => v + b2n (bit (l.getD i 0) j) * 2 ^ i) 0)

/-- Element order of interleaving: the k-th of the output stands at this place of the input. -/
def interleaveAt (n g k : Nat) : Nat := k % n * g + k / n
def deinterleaveAt (n g k : Nat) : Nat := k % g * n + k / g

/-- One block through the reshaper. -/
def reshapeBlock (mode n g e : Nat) (b : Bytes) : Bytes :=
  let place (f : Nat → Nat) : Bytes := ((List.range (n * g)).map (fun k => slice b (f k * e) e)).flatten
  match mode with
  | 1 => (transpose 8 (b.map (·.toNat))).map (BitVec.ofNat 8)
  | 2 => ((transpose 32 ((List.range 32).map (fun k => leAt b (4 * k) 4))).map (leBytes 4)).flatten
  | 3 => place (interleaveAt n g)
  | 4 => place (deinterleaveAt n g)
  | _ => b

/-- What one unit of the stream becomes. -/
def reshapeUnit (d : Dev) (p : Nat) (b : Bytes) : Bytes :=
  ((chunksOf (dmaBlock d p) b.length b).map
    (reshapeBlock (fld d p Reg.DMA_CFG_RESHAPE) (dmaStreams d p) (dmaGroup d p) (dmaElem d p))).flatten

/-! ## The outbound host window (R56) -/

/-- Host address that an address of the window stands for. -/
def winAddr (d : Dev) (a : Nat) : Nat :=
  fld d pgHOST Reg.HOST_OBW_BASE_LO_BASE_LO * 2 ^ 30 + fld d pgHOST Reg.HOST_OBW_BASE_HI_BASE_HI * 2 ^ 32 + (a - 0x80_0000_0000)

/-- The link of the window. -/
def winLink (d : Dev) : Nat := fld d pgHOST Reg.HOST_CFG_OBW_LINK

/-- Whether IDE lets a request of the window out, which carries the routing ID of the link's PF (R56, R64). -/
def winOpen (d : Dev) : Bool := ideOpen d (winLink d) 0

/-- A write that leaves through the window; one that IDE withholds is not issued (R56, R64). -/
def winWrite (a : Nat) (b : Bytes) (d : Dev) : Dev :=
  if winOpen d then emitAll (hostWrites d (winLink d) 0 (winAddr d a) b true) d else d

/-- A read that leaves through the window, and what the host answers; none where IDE withholds it (R56, R64). -/
def winRead (a n : Nat) (data : HostData) (d : Dev) : HostData × Dev :=
  if winOpen d then (data, emitAll (hostReads d (winLink d) 0 (winAddr d a) n) d) else (none, d)

/-! ## Transactions of a channel (R379, R380) -/

/-- The same as an access to a register page. -/
def dmaAccess (d : Dev) (ch : Nat) : Access := ⟨(whoDma d ch).sec, 1, ch, .direct⟩

/-- What a transfer carries along: the host data yet to come, the error that stops it with its address, and the block. -/
structure DmaIo where
  host : List HostData
  err : Option (Nat × Nat)
  d : Dev

/-- ERR and address of an ending. -/
def dmaErr : MemRes → Option (Nat × Nat)
  | .ok => none
  | .refused a => some (1, a)
  | .decode a => some (2, a)
  | .target a => some (5, a)

/-- What a transaction of a channel on a range meets on its way, if anything. -/
def hitBy (badAt : Option DmaErr) (a n : Nat) : Option BusErr := (badAt.filter (fun x => decide (a ≤ x.at' ∧ x.at' < a + n))).map (·.err)

/-- Whether the codes of a channel's transaction show what it meets (R370, R371): the checker's place, where they do. -/
def dmaHit (w : Who) (k : BusKind) (badAt : Option DmaErr) (a : Nat) (data : Bytes) : Option Bool :=
  (hitBy badAt a data.length).bind (fun e => if busMismatch (cmdWord w false k a data.length) data e then some e.target else none)

/-- Data of a channel's transaction as it arrives, where the codes show no change. -/
def dmaSeen (badAt : Option DmaErr) (a : Nat) (data : Bytes) : Bytes :=
  match hitBy badAt a data.length with
  | some e => busData e data
  | none => data

/-- Register words of a range read by a channel, at most eight bytes at a time. -/
def dmaRegRead (x : Access) (a : Nat) : Nat → Nat → Dev → Bytes × Dev
  | 0, _, d => ([], d)
  | f + 1, n, d =>
    if n = 0 then ([], d)
    else
      let k := min n 8
      let (b, d) := pageRead x ((a - 0x1000_0000) / 0x1000) (a % 0x1000) k d
      let (t, d) := dmaRegRead x (a + k) f (n - k) d
      (b ++ t, d)

/-- Register words of a range written by a channel. -/
def dmaRegWrite (port : RegPort) (x : Access) (a : Nat) : Nat → Bytes → Dev → Dev
  | 0, _, d => d
  | f + 1, b, d =>
    if b.isEmpty then d
    else dmaRegWrite port x (a + min b.length 8) f (b.drop 8)
      (port x ((a - 0x1000_0000) / 0x1000) (a % 0x1000) (min b.length 8) (leNat (b.take 8)) d)

/-- One transaction read, past the integrity check. -/
def dmaRead1 (ch a n : Nat) (io : DmaIo) : Bytes × DmaIo :=
  let w := whoDma io.d ch
  match zoneOf a with
    | .regs =>
      let (r, d) := judgePart w .read false false a io.d
      if r = .ok then let (b, d) := dmaRegRead (dmaAccess d ch) a 8 n d; (b, { io with d := d })
      else ([], { io with err := dmaErr r, d := d })
    | .hostWin =>
      let (r, d) := judgePart w .read false false a io.d
      if r = .ok then
        let (x, d) := winRead a n (io.host.head?.getD none) d
        (match x with
         | some b => ((b ++ zeros n).take n, ⟨io.host.tail, none, d⟩)
         | none => ([], ⟨io.host.tail, some (3, a), d⟩))
      else ([], { io with err := dmaErr r, d := d })
    | _ =>
      let (r, b, _, d) := memFetch w false a n io.d
      (b, { io with err := dmaErr r, d := d })

/-- One transaction read: the command word is checked before its target is reached, the data as they return (R371). -/
def dmaRead (ch : Nat) (badAt : Option DmaErr) (a n : Nat) (io : DmaIo) : Bytes × DmaIo :=
  let w := whoDma io.d ch
  if io.err.isSome then ([], io)
  else match dmaHit w .read badAt a (zeros n) with
    | some t => ([], { io with err := some (4, a), d := busInt w t a io.d })
    | none => let (b, io) := dmaRead1 ch a n io; (dmaSeen badAt a b, io)

/-- Bytes of a range that its checks let through (R375). -/
def dmaLets (d : Dev) (w : Who) (a n : Nat) : Nat :=
  (((partsOf a n).filter (fun p => partCheck d w .write p.1 = .pass)).map (·.2)).sum

/-- One transaction written; PROGRESS counts the bytes that are. -/
def dmaWrite (port : RegPort) (ch : Nat) (badAt : Option DmaErr) (a : Nat) (b : Bytes) (io : DmaIo) : DmaIo :=
  let w := whoDma io.d ch
  let counted (r : MemRes) (d : Dev) : DmaIo :=
    { io with err := dmaErr r, d := if r = .ok then satFld d (pgDMA ch) Reg.DMA_PROGRESS_BYTES b.length else d }
  if io.err.isSome then io
  else match dmaHit w .write badAt a b with
  | some t => { io with err := some (4, a), d := busInt w t a io.d }
  | none =>
    let b := dmaSeen badAt a b
    match zoneOf a with
    | .regs =>
      let (r, d) := judgePart w .write false false a io.d
      counted r (if r = .ok then dmaRegWrite port (dmaAccess d ch) a 8 b d else d)
    | .hostWin =>
      let (r, d) := judgePart w .write false false a io.d
      counted r (if r = .ok then winWrite a b d else d)
    | _ =>
      let n := dmaLets io.d w a b.length
      let (r, d) := memStore w none a b io.d
      match r with
      | .ok | .refused _ | .decode _ => { io with err := dmaErr r, d := satFld d (pgDMA ch) Reg.DMA_PROGRESS_BYTES n }
      | .target _ => { io with err := dmaErr r, d := d }

/-- Units of the stream from one on, while no error occurs and the channel still runs. -/
def dmaUnits (port : RegPort) (ch : Nat) (badAt : Option DmaErr) : Nat → Nat → DmaIo → DmaIo
  | 0, _, io => io
  | f + 1, j, io =>
    let p := pgDMA ch
    let e := dmaElem io.d p
    let m := dmaUnit io.d p / e
    let ks := (List.range (min m (dmaCount io.d p - j * m))).map (· + j * m)
    if io.err.isSome || !(dmaOf io.d ch).busy then io
    else
      let (b, io) := (dmaBursts e (ks.map (dmaFrom io.d p))).foldl (fun (x : Bytes × DmaIo) t =>
        let (y, io) := dmaRead ch badAt t.1 t.2 x.2
        (x.1 ++ y, io)) ([], io)
      let out := reshapeUnit io.d p b
      let io := ((dmaBursts e (ks.map (dmaTo io.d p))).foldl (fun (x : Bytes × DmaIo) t =>
        (x.1.drop t.2, dmaWrite port ch badAt t.1 (x.1.take t.2) x.2)) (out, io)).2
      dmaUnits port ch badAt f (j + 1) io

/-- The 8-byte word that a transfer reads back. -/
def dmaLast (d : Dev) (p : Nat) : Nat := (dmaTo d p (dmaCount d p - 1) + dmaElem d p - 1) / 8 * 8

/-- One transfer; its read-back is then outstanding (R378). -/
def dmaTransfer (port : RegPort) (ch : Nat) (host : List HostData) (badAt : Option DmaErr) (d : Dev) : Dev :=
  let p := pgDMA ch
  let d := setFld d p Reg.DMA_PROGRESS_BYTES 0
  let io := dmaUnits port ch badAt ((dmaCount d p * dmaElem d p + dmaUnit d p - 1) / dmaUnit d p) 0 ⟨host, none, d⟩
  if !(dmaOf io.d ch).busy then io.d
  else match io.err with
    | some (e, a) => dmaStop ch e a io.d
    | none =>
      let (r, d) := judgePart (whoDma io.d ch) .readBack false false (dmaLast io.d p) io.d
      match dmaErr r with
      | some (e, a) => dmaStop ch e a d
      | none => modDma ch (fun x => { x with readback := true }) d

/-- START of a channel (R377, R386). -/
def dmaGo (port : RegPort) (a : Access) (ch : Nat) (host : List HostData) (badAt : Option DmaErr) (d : Dev) : Dev :=
  let p := pgDMA ch
  let off := Reg.DMA_CTL_START.off
  let m := d.sys.mode
  if m = .drowse || m = .holdup || stopped m then d
  else if (dmaOf d ch).busy then regErr p errSTART_BUSY a off d
  else if !(hdrOf d p).enable || (hdrOf d p).drain then regErr p errNOT_ENABLED a off d
  else if !(dmaShapeOk d p) then regErr p errBAD_SHAPE a off d
  else if (quarterOf d (ch / 8)).pwr ≠ .on then raiseEv p 1 (setFld d p Reg.DMA_STAT_ERR 7)
  else
    let d := modDma ch (fun _ => ⟨true, false, a.sec⟩) d
    let d := setFld (setFld d p Reg.DMA_STAT_ERR 0) p Reg.DMA_STAT_REMAIN (fld d p Reg.DMA_CTL_REPEAT)
    dmaTransfer port ch host badAt d

/-- The end of a run: the channel is idle. -/
def dmaIdle (ch : Nat) (d : Dev) : Dev :=
  settle (pgDMA ch) (setFld (modDma ch (fun _ => dmaReset ch) d) (pgDMA ch) Reg.DMA_STAT_REMAIN 0)

/-- The end of a transfer whose read-back has arrived: the job boundary, DONE, and the next repetition (R377, R378). -/
def dmaNext (port : RegPort) (ch : Nat) (host : List HostData) (badAt : Option DmaErr) (d : Dev) : Dev :=
  let p := pgDMA ch
  let n := fld d p Reg.DMA_STAT_REMAIN
  let d := raiseEv p 0 (jobBoundary p (modDma ch (fun x => { x with readback := false }) d))
  if n = 0 || (hdrOf d p).drain then dmaIdle ch d
  else if (quarterOf d (ch / 8)).pwr ≠ .on then dmaStop ch 7 0 d
  else dmaTransfer port ch host badAt (setFld d p Reg.DMA_STAT_REMAIN (n - 1))

/-- The read-back response of a channel (R378, R379): from a target that is reset, from the host, damaged, or as it should be. -/
def dmaReadback (port : RegPort) (ch : Nat) (host : List HostData) (badAt : Option DmaErr) (d : Dev) : Dev :=
  let x := dmaLast d (pgDMA ch)
  match dmaHit (whoDma d ch) .readBack badAt x (zeros 8) with
  | some t =>
    let d := busInt (whoDma d ch) t x d
    if (dmaOf d ch).busy then dmaStop ch 4 x d else d
  | none => match zoneOf x with
    | .qsram q => if (quarterOf d q).pwr = .on then dmaNext port ch host badAt d else dmaStop ch 5 x (countTreset d)
    | .hostWin => match winRead x 8 (host.head?.getD none) d with
      | (some _, d) => dmaNext port ch host.tail badAt d
      | (none, d) => dmaStop ch 3 x d
    | _ => dmaNext port ch host badAt d

/-- A write of DMA_CTL that the page admits: ABORT stops a transfer, START begins a run. -/
def dmaCtl (port : RegPort) (a : Access) (ch v : Nat) (host : List HostData) (badAt : Option DmaErr) (d : Dev) : Dev :=
  let j := judgePlain .dma a (pgDMA ch) Reg.DMA_CTL_START.off v d
  let d := if j.took Reg.DMA_CTL_ABORT && bit v 30 && (dmaOf j.d ch).busy then dmaStop ch 6 0 j.d else j.d
  if j.took Reg.DMA_CTL_START && bit v 31 then dmaGo port a ch host badAt d else d

end Sys2Proof.Machine
end

