-- ==== Sys2Proof/Machine/QueueCmds.lean ====
section
/-! DEFINITION. The commands of the queues, of the command path and of the key store's own work: one meaning each
(R8-R11, R77-R107, R111, R126-R129, R141-R156, R166, R174, R266). -/

namespace Sys2Proof.Machine

/-! ## Queues -/

/-- SQ_ENABLE (R79): a write of SQ_CFG with EN at 1. -/
def execSqEnable (a : Access) (inst q val : Nat) (s : State) : Host.Outcome State Fault Refusal :=
  runAcc a s fun a d => if q < 16 then instWrite a inst (0x208 + 0x10 * q) (setBit (val % 2 ^ 32) 31 true) d else d

/-- SQ_DISABLE (R79): a write of SQ_CFG with EN at 0. -/
def execSqDisable (a : Access) (inst q val : Nat) (s : State) : Host.Outcome State Fault Refusal :=
  runAcc a s fun a d => if q < 16 then instWrite a inst (0x208 + 0x10 * q) (setBit (val % 2 ^ 32) 31 false) d else d

/-- CQ_ENABLE (R79): a write of CQ_CFG with EN at 1. -/
def execCqEnable (a : Access) (inst q val : Nat) (s : State) : Host.Outcome State Fault Refusal :=
  runAcc a s fun a d => if q < 16 then instWrite a inst (0x308 + 0x10 * q) (setBit (val % 2 ^ 32) 31 true) d else d

/-- CQ_DISABLE (R79): a write of CQ_CFG with EN at 0. -/
def execCqDisable (a : Access) (inst q val : Nat) (s : State) : Host.Outcome State Fault Refusal :=
  runAcc a s fun a d => if q < 16 then instWrite a inst (0x308 + 0x10 * q) (setBit (val % 2 ^ 32) 31 false) d else d

/-- SQ_TAIL_DOORBELL (R80, R81). -/
def execSqTailDoorbell (inst q val : Nat) (s : State) (stream : Option Nat := none) : Host.Outcome State Fault Refusal :=
  runAcc ⟨false, 2, 0, .vf inst stream⟩ s fun _ => (tailBell inst q val stream)

/-- CQ_HEAD_DOORBELL (R80, R81). -/
def execCqHeadDoorbell (inst q val : Nat) (s : State) (stream : Option Nat := none) : Host.Outcome State Fault Refusal :=
  runAcc ⟨false, 2, 0, .vf inst stream⟩ s fun _ => (headBell inst q val stream)

/-! ## The command path -/

/-- DESCRIPTOR_FETCH (R82, R83). -/
def execDescriptorFetch (inst q : Nat) (s : State) : Host.Outcome State Fault Refusal :=
  runDev s (fetchGo inst q)

/-- Runs an action on the command with a TAG while it stands at a stage. -/
def atStage (tag : Nat) (st : Stage) (f : Cmd → Dev → Dev) (d : Dev) : Dev :=
  match cmdOf d tag with
  | some c => if c.stage = st then f c d else d
  | none => d

/-- DESCRIPTOR_PARSE (R89, R94). -/
def execDescriptorParse (tag : Nat) (s : State) : Host.Outcome State Fault Refusal :=
  runDev s (atStage tag .fetched parseGo)

/-- POLICY_CHECK (R121, R450). -/
def execPolicyCheck (tag : Nat) (s : State) (err : KeyErr := keySound) : Host.Outcome State Fault Refusal :=
  runDev s (atStage tag .policy (policyGo err))

/-- ROUTED_ENTRY_WRITE (R99). -/
def execRoutedEntryWrite (tag : Nat) (s : State) : Host.Outcome State Fault Refusal :=
  runDev s (atStage tag .route routeGo)

/-- Firmware advances CMD_RCQ_TAIL: the register takes the value, and the block reads the ring up to it (R100, R102). -/
def rcqAdvance (a : Access) (tail : Nat) (d : Dev) : Dev :=
  rcqConsume 4096 (judge a pgCMD Reg.CMD_RCQ_TAIL_TAIL.off tail d).d

/-- ROUTED_COMPLETION (R100). -/
def execRoutedCompletion (a : Access) (tail : Nat) (s : State) : Host.Outcome State Fault Refusal :=
  runAcc a s fun a => (rcqAdvance a tail)

/-- ROUTED_TIMEOUT (R101). -/
def execRoutedTimeout (tag : Nat) (s : State) : Host.Outcome State Fault Refusal :=
  runDev s (atStage tag .routed routedTimeoutGo)

/-- WORK_RING_TAKE (R11): the unit of class 3 and an index takes work. -/
def execWorkRingTake (cls idx : Nat) (s : State) : Host.Outcome State Fault Refusal :=
  runDev s fun d => if cls = 3 && idx ≤ 28 then takeGo idx d else d

/-- KEY_FETCH (R10, R141, R143), for a command at its unit or one that firmware serves; err says what is wrong with the slots and records
that are read. -/
def execKeyFetch (tag : Nat) (err : KeyErr) (s : State) : Host.Outcome State Fault Refusal :=
  runDev s fun d =>
    match cmdOf d tag with
    | some c => if (c.stage = .taken || c.stage = .routed) && !c.keyed then fetchKey err c d else d
    | none => d

/-- A lane that takes one data unit of an XTS command is its own or an idle one that serves (R166). -/
def laneMay (d : Dev) (c : Cmd) (lane : Nat) : Bool :=
  lane < 16 && (some lane = c.unit
    || ((unitOf d lane).cur.isNone && (unitOf d lane).job.isNone && !(unitOf d lane).oos && unitServes d lane
        && quarterServes d (unitQuarter lane)))

/-- The counters of a lane's page for one data unit, and its job boundary (R197). -/
def dataUnitCount (lane : Nat) (c : Cmd) (chk : Nat) (d : Dev) : Dev :=
  let p := unitPage lane
  let d := satFld d p Reg.SYM_ERR_CNT_FAULT (min chk 2)
  jobBoundary p (if 2 ≤ chk then d else blkAdd p (xtsSize c.desc / 16) d)

/-- A data unit on a lane (R166, R167, R172): the output streams while the fence is open; after a second mismatch the command ends and
the lane is out of service. -/
def dataUnitGo (lane chk : Nat) (c : Cmd) (d : Dev) : Dev :=
  let d := dataUnitCount lane c chk d
  if 2 ≤ chk then unitFault lane (freeUnits c.tag (holdCmd c (failed stENGINE 0) d))
  else
    let b := xtsOut c c.done
    let open' := fenceOpen d c.epoch && c.sent = c.part.length && !(bit c.desc.flags flORDERED)
    let d := if open' then writeOut c c.sent b d else d
    putCmd { c with done := c.done + 1, part := c.part ++ b, sent := if open' then c.sent + b.length else c.sent } d

/-- XTS_DATA_UNIT (R165, R166): a lane takes the lowest-numbered data unit not yet taken, the first going to the lane chosen under R11; a
lane that joins fetches the key itself, and each draws its masking randomness. -/
def execXtsDataUnit (tag lane : Nat) (s : State) (chk : CheckFails := 0) (err : KeyErr := keySound) : Host.Outcome State Fault Refusal :=
  runDev s fun d =>
    atStage tag .taken (fun c d =>
      if c.keyed && c.desc.opcode = 0x0206 && laneMay d c lane && c.done < xtsUnits c.desc && (c.done ≠ 0 || some lane = c.unit) then
        let (t, d) := if some lane = c.unit then (none, d) else fetchSlots err c.counted d
        match (cmdOf d tag).filter (fun x => x.stage = .taken && keysThere d c.counted && !d.mpe.halting) with
        | none => d
        | some c =>
          let c := { c with epoch := tagMax c.epoch t }
          match laneMask tag lane d with
          | .got _ d => dataUnitGo lane chk c d
          | .wait d => putCmd c d
          | .err d => freeUnits tag (holdCmd c (failed stENTROPY 0) d)
      else d) d

/-- CQ_COAL_TIMEOUT (R93): COAL_TIME after the first counted completion the message goes out. -/
def execCqCoalTimeout (inst q : Nat) (s : State) : Host.Outcome State Fault Refusal :=
  runDev s fun d =>
    let us := qFld d inst q Reg.CQ_CFG_COAL_TIME
    match smapGet noneAt d.cmd.coalAt (qKey inst q) with
    | some t => if inst < 1024 && q < 16 && us ≠ 0 && qFld d inst q Reg.CQ_CFG_IRQ_EN = 1 then coalSend inst q (waitUntil (t + us * 1000) d) else d
    | none => d

/-! ## The key store -/

/-- T0_LOAD (R141, R142): the keys of an admitted command that are not resident are loaded, as slots come free; the tag of what was read
passes to it (R145). -/
def execT0Load (tag : Nat) (s : State) (err : KeyErr := keySound) : Host.Outcome State Fault Refusal :=
  runDev s fun d =>
    match cmdOf d tag with
    | some c =>
      if (c.stage = .ring || c.stage = .taken || c.stage = .route || c.stage = .routed) && t0Loads d.sys.mode then
        let (t, d) := loadKeys err.t1 c.counted d
        match cmdOf d tag with
        | some x => if x.stage = .held then d else putCmd { x with epoch := tagMax x.epoch t } d
        | none => d
      else d
    | none => d

/-- T2_DEMAND_LOAD (R148): the records that a command waiting at the policy check names come from the vault. -/
def execT2DemandLoad (tag : Nat) (dmg : VaultDamage) (s : State) : Host.Outcome State Fault Refusal :=
  runDev s fun d =>
    atStage tag .policy (fun c d =>
      if t2Loads d.sys.mode then
        let hs := (if namesKey c.desc false then [c.desc.key] else []) ++ (if namesKey c.desc true then [c.desc.key2] else [])
        match (hs.map hRec).filter (needsDemand d) with
        | n :: rest => rest.foldl (fun d n => demandLoad (homeDamage d n) n d) (demandLoad dmg n d)
        | [] => d
      else d) d

/-- The next record number at or above a bound that has a vault copy the device uses. -/
def nextCopy (d : Dev) (n : Nat) : Option Nat := (d.key.homes.find? (fun kv => n ≤ kv.1 && (vaultPick d kv.1).isSome)).map (·.1)

/-- The background restore copies the next record, or ends (R148). -/
def restoreNext (dmg : VaultDamage) (d : Dev) : Dev :=
  match nextCopy d d.key.frontier with
  | some n =>
    let d := modKey (fun k => { k with frontier := n + 1 }) (vaultRestore dmg n d)
    if (nextCopy d (n + 1)).isNone then restoreDone d else d
  | none => restoreDone d

/-- VAULT_RESTORE_RECORD (R148, R151). -/
def execVaultRestoreRecord (dmg : VaultDamage) (s : State) : Host.Outcome State Fault Refusal :=
  runDev s fun d =>
    if restoring d && (d.sys.mode = .service || d.sys.mode = .ceremony || d.sys.mode = .diagnostic) then restoreNext dmg d else d

/-- The modes in which batches close and commit by themselves (R162). -/
def vaultWorks (m : Mode) : Bool := m = .service || m = .ceremony || m = .diagnostic

/-- VAULT_BATCH_CLOSE (R149): 10 ms after its first entry the open batch closes. -/
def execVaultBatchClose (s : State) : Host.Outcome State Fault Refusal :=
  runDev s fun d =>
    match d.key.closeAt with
    | some t => if vaultWorks d.sys.mode then vaultClose (waitUntil t d) else d
    | none => d

/-- VAULT_BATCH_COMMIT (R150, R152, R153): of the three steps so many run, cellFails cells fail their write verification on the way, and
err says what is wrong with the records that are transferred. -/
def execVaultBatchCommit (cellFails : Nat) (s : State) (steps : Nat := 3) (err : List T1Hit := []) : Host.Outcome State Fault Refusal :=
  runDev s fun d => if vaultWorks d.sys.mode && vaultWritable d then vaultCommit err cellFails steps d else d

/-- USAGE_PERIOD_DUE (R149): a record whose only unqueued change is its usage is queued. -/
def execUsagePeriodDue (rec : Nat) (s : State) : Host.Outcome State Fault Refusal :=
  runDev s fun d =>
    match smapGet noneAt d.key.usageDue rec with
    | some t =>
      if vaultWorks d.sys.mode && vaultWritable d && vaultRoomFor d rec && !(frozenRec d rec) then vaultQueue rec false (waitUntil t d) else d
    | none => d

/-- USAGE_RESV_RAISE (R127). -/
def execUsageResvRaise (rec : Nat) (s : State) : Host.Outcome State Fault Refusal :=
  runDev s (usageRaiseGo rec)

/-- NONCE_RESV_RAISE (R174). -/
def execNonceResvRaise (rec : Nat) (s : State) : Host.Outcome State Fault Refusal :=
  runDev s (nonceRaiseGo rec)

/-- A home without an entry of an older epoch. -/
def eraseHome (epoch : Nat) (v : Option VaultCopy) : Option VaultCopy := v.filter (fun v => v.epoch = epoch)

/-- The homes of a record that hold an older epoch's entry are erased; the record keeps the generation that the entry gives
it (R155). -/
def eraseOld (n : Nat) (d : Dev) : Dev :=
  let d := match vaultPick d n with
    | some (_, v) => if v.epoch ≠ d.key.epoch && t1Of d n = .free 0 then t1Put n (oldEpoch v) d else d
    | none => d
  modKey (fun k =>
    let h := smapGet (fun _ => (⟨none, none⟩ : Homes)) k.homes n
    { k with homes := smapSet (fun _ => (⟨none, none⟩ : Homes)) k.homes n ⟨eraseHome k.epoch h.a, eraseHome k.epoch h.b⟩ }) d

/-- VAULT_EPOCH_ERASE (R155): the lowest record with an entry of an older epoch loses it. -/
def execVaultEpochErase (s : State) : Host.Outcome State Fault Refusal :=
  runDev s fun d =>
    if vaultWorks d.sys.mode && vaultWritable d then
      match d.key.homes.find? (fun kv => hasOld d.key.epoch kv.2) with
      | some (n, _) => eraseOld n d
      | none => d
    else d

/-- DERIVED_KEY_FREE (R111): the record of a noticed derived-ephemeral key is freed. -/
def execDerivedKeyFree (rec : Nat) (s : State) : Host.Outcome State Fault Refusal :=
  runDev s fun d => if smapGet falseAt d.key.noticed rec && !(frozenRec d rec) then destroyKey rec d else d

/-! ## KS_CMD (R137, R142, R149, R163) -/

/-- Codes of the KS page. -/
def errOP_REFUSED := 0x0100
def errKS_BUSY := 0x0101
def errOP_ENTROPY := 0x0102

/-- GEN_ROOT on the drawn value, of which so many steps run before the next command (R137). -/
def rootGo (root : Bytes) (steps : Nat) (d : Dev) : Dev :=
  rootSteps (steps - 1) (modKey (fun k => { k with staged := some root, busy := true, opStep := 1 }) d)

/-- Whether GEN_ROOT is accepted (R137). -/
def rootAllowed (d : Dev) (a : Access) : Bool :=
  a.sec && d.lant.root.isNone && (d.sys.lc = .provision || d.sys.lc = .deployed)
    && (d.sys.mode = .startup || d.sys.mode = .service)

/-- KS_CMD's operation (R163); from HOLDUP on the key store controller serves no request (R161, R162). -/
def ksOp (a : Access) (op steps : Nat) (d : Dev) : Dev :=
  let off := Reg.KS_CMD_OP.off
  if op = 0 || d.sys.mode = .holdup || stopped d.sys.mode || !(takesJobs d pgKS) then d
  else if d.key.busy then regErr pgKS errKS_BUSY a off d
  else if op = 1 then
    if !(rootAllowed d a) then regErr pgKS errOP_REFUSED a off d
    else match drawHomeless 64 d with
      | (some b, d) => rootGo b steps d
      | (none, d) => regErr pgKS errOP_ENTROPY a off d
  else if op = 2 then raiseEv pgKS 4 (vaultClose d)
  else
    raiseEv pgKS 4 ((d.key.resident.map (·.1)).foldl (fun d n => if flightOf d n = 0 then t0Evict n d else d) d)

/-- What happens while no command waits: a running GEN_ROOT goes on by a step (R137). -/
def tick (s : State) : Host.Outcome State Fault Refusal := if s.dev.key.busy then runDev s rootStep else .next s

/-- A write of KS_CMD. -/
def ksCmdWrite (a : Access) (v steps : Nat) (d : Dev) : Dev :=
  let j := judge a pgKS Reg.KS_CMD_OP.off v d
  if j.took Reg.KS_CMD_OP then ksOp (seenAs a) (bits v 3 0) steps j.d else j.d

/-- GEN_ROOT (R137): so many of its five steps run before the next command. -/
def execGenRoot (a : Access) (s : State) (steps : Nat := 5) : Host.Outcome State Fault Refusal :=
  runAcc a s fun a => (ksCmdWrite a 1 steps)

/-- VAULT_SYNC (R149). -/
def execVaultSync (a : Access) (s : State) : Host.Outcome State Fault Refusal :=
  runAcc a s fun a => (ksCmdWrite a 2 5)

/-- T0_FLUSH (R142). -/
def execT0Flush (a : Access) (s : State) : Host.Outcome State Fault Refusal :=
  runAcc a s fun a => (ksCmdWrite a 3 5)

end Sys2Proof.Machine
end

