-- ==== Sys2Proof/Machine/RegWrite.lean ====
section
/-! DEFINITION. A write of a register by a master: the common header, soft reset, and each block's registers (R19, R24, R31, R33-R40, R244,
R247, R374, R376, R407, R422, R424, R427, R428, R479, R480). -/

namespace Sys2Proof.Machine

/-! ## Soft reset (R40, R479, R480) -/

/-- A command whose unit answered TARGET_RESET: once, it waits to be issued again; the second time it ends. -/
def targetReset (c : Cmd) (d : Dev) : Dev :=
  let d := countTreset d
  if c.retried then failTaken c (stENGINE, 1) d
  else freeUnits c.tag (putCmd { c with stage := .retry, retried := true, keyed := false, done := 0, part := [], sent := 0 } d)

/-- The job of a job port is discarded. -/
def dropJob (i : Nat) (d : Dev) : Dev :=
  match (unitOf d i).job with
  | none => d
  | some c =>
    let d := ticketFree c.tickets (c.counted.foldl (fun d n => leave n d) d)
    setFld (modUnit i (fun u => { u with job := none, jobRom := false }) d) (unitPage i) Reg.SYM_JOB_STAT_BUSY 0

/-- A lane, cluster or engine drops its job, answers its command with TARGET_RESET, and is in service again; its counters and results stay
(R40, R197, R223, R480). -/
def unitSoft (i : Nat) (d : Dev) : Dev :=
  let d := modUnit i (fun u => { u with oos := false }) (dropJob i d)
  match (unitOf d i).cur.bind (cmdOf d) with
  | some c => targetReset c d
  | none => d

/-- The commands that the key store controller works on, and a GEN_ROOT under way, which ends as at any other cut (R40, R137). -/
def storeSoft (d : Dev) : Dev :=
  let d := rootCut d
  (d.cmd.cmds.filter (fun c => c.stage = .taken && c.unit = some 28)).foldl (fun d c => targetReset c d) d

/-- The command processor drops every command and host read, and its rings are empty. -/
def cmdSoft (d : Dev) : Dev :=
  let d := modCmdSt (fun s => { s with reads := [] }) (d.cmd.cmds.foldl (fun d c => discardCmd c d) d)
  setFld (setFld d pgCMD Reg.CMD_RQ_TAIL_TAIL 0) pgCMD Reg.CMD_RCQ_HEAD_HEAD 0

/-- A Well restarts from the second step of R240 and its DRBGs are to be reseeded (R244), in DIAGNOSTIC without leaving its STATE (R241); the
reset clears SUBST, and an end of substitution has its generators instantiated anew (R242, R243). A Well that is off stays so. -/
def wellSoft (q : Nat) (d : Dev) : Dev :=
  let w := wellOf d q
  if w.run = .off then markFed q (modWell q (fun w => { w with capture := none, subst := false }) d)
  else
    let d := wellRestart q w.subst d
    if w.run = .diag then modWell q (fun x => { x with run := .diag }) d else d

/-- The mailbox fields that the MGR page shows of the selected instance and that software writes: IN_FULL and the words of the inbound
mailbox (R40, R288, R301). -/
def mgrSoftMb (d : Dev) : Dev :=
  let i := mgrSel d
  (List.range 16).foldl (fun d k => setFld d (instPage i) (fldAt Reg.INST_MB_IN_WORD k) 0) (modInst i (fun x => { x with outFull := false }) d)

/-- The manager's command is discarded; no result is written. -/
def mgrSoft (d : Dev) : Dev :=
  let d := mgrSoftMb d
  match d.mgr.busy with
  | some (_, i) => modMgr (fun m => { m with busy := none }) (modInst i (fun x => { x with freezing := false }) d)
  | none => d

/-- What a block holds is discarded. -/
def blockSoft (k : PageKind) (p : Nat) (d : Dev) : Dev :=
  match k with
  | .sym | .hash | .pke => unitSoft (pageUnit p) d
  | .ks0 => storeSoft d
  | .dma => setFld (modDma (p - 0x0A0) (fun _ => dmaReset (p - 0x0A0)) d) p Reg.DMA_STAT_REMAIN 0
  | .cmd => cmdSoft d
  | .lc => lcCut d
  | .ofc => ofcCut d
  | .mgr => mgrSoft d
  | .ent => wellSoft (p - 0x050) d
  | .inst => instCut (p - 0x400) (modInst (p - 0x400) (fun x => { x with inFull := false, outFull := false, verFixed := false }) d)
  | .drbg => { d with ent := { d.ent with empty := [false, false] } }
  | _ => d

/-- A register word with every field that software writes at its reset value; locked RWL fields stay, and so does MON of an interrupt
source (R355). -/
def softWord (k : PageKind) (lock : Bool) (key w : Nat) : Nat :=
  ((fieldsAt k (key % 1024 * 4)).filter (fun f => f.acc ≠ .ro && f ≠ Reg.IRQC_SRC_CFG_MON && !(lock && f.acc = .rwl))).foldl
    (fun w f => setBits w f.hi f.lo (bits (regReset key).toNat f.hi f.lo)) w

/-- The block registers of a page after a soft reset. -/
def softRegs (k : PageKind) (p : Nat) (d : Dev) : Dev :=
  let lock := (hdrOf d p).lock
  (d.regs.filter (fun kv => keyOnPage p kv.1)).foldl (fun d kv =>
    { d with regs := smapSet regReset d.regs kv.1 (BitVec.ofNat 32 (softWord k lock kv.1 kv.2.toNat)) }) d

/-- The header after a soft reset; busy says whether the reset takes time. -/
def softHdr (busy : Bool) (h : Hdr) : Hdr :=
  { h with
    enable := false, drain := false, softRst := busy, cfgErr := false, errCode := 0, errMore := 0, errWorld := false, errMaster := 0
    errOff := 0, errAddr := 0, irqEn := 0, irqStat := 0 }

/-- What follows from the registers' new values. was is the state before. -/
def softAfter (k : PageKind) (p : Nat) (was d : Dev) : Dev :=
  match k with
  | .gpio => pinEdges (pinLines was) (pinsEmit (pinsOut was) d)
  | .drbg => syncPorts d
  | .inst => negotiate (p - 0x400) d
  | .cmd => pypSync was d
  | .pwr =>
    let old := fld was pgPWR Reg.PWR_QREQ_REQ
    [0, 1, 2, 3].foldl (fun d q =>
      let x := bits old (2 * q + 1) (2 * q)
      if x = 0 then d
      else if (quarterOf d q).disabled then setFld d pgPWR Reg.PWR_QREQ_REQ (setBits (fld d pgPWR Reg.PWR_QREQ_REQ) (2 * q + 1) (2 * q) x)
      else quarterAsk q 0 d) d
  | .sym | .hash | .pke => ringSweep d
  | _ => d

/-- A soft reset of a page that the page admits: the interrupt registers and the error record only, on a page of the tamper monitor
(R407); else in full. A power request that waited for its work waits no more (R40, R453). -/
def softGo (k : PageKind) (p : Nat) (d : Dev) : Dev :=
  match k with
  | .tamp0 | .tamp1 | .tamp2 | .tamp3 | .vig =>
    modHdr d p (fun h => { softHdr false h with enable := h.enable, drain := h.drain })
  | _ => monRefresh (drainStep (softAfter k p d (let d := modHdr (softRegs k p (blockSoft k p (dropShadows p d))) p (softHdr true)
    if (pageCap k).pwr then pwrTry p d else d)))

/-- SOFT_RESET_COMPLETE: BUSY reads 0. -/
def softDone (p : Nat) (d : Dev) : Dev :=
  if (hdrOf d p).softRst then pageSync p d (settle p (modHdr d p (fun h => { h with softRst := false }))) else d

/-! ## PG_CTRL (R24, R33, R103, R247, R277, R373) -/

/-- Codes of the MPE pages (R274) and of the HT pages (R388). -/
def errENABLE_FIXED := 0x0100
def errENABLE_ENTROPY := 0x0101

/-- Whether a page refuses a write of SOFT_RESET, or one that clears ENABLE. -/
def resetFixed : PageKind → Bool
  | .mpe0 | .mpe1 | .ht0 | .ht1 => true
  | _ => false
def enableFixed : PageKind → Bool
  | .mpe0 | .ht0 => true
  | _ => false

/-- ENABLE takes a value that it does not hold. -/
def putEnable (k : PageKind) (a : Access) (p : Nat) (x : Bool) (d : Dev) : Dev :=
  if k = .mpe0 then
    (if d.mpe.halting then d
     else let r := mpeStart d; if r.1 then r.2 else regErr p errENABLE_ENTROPY a 0x00C r.2)
  else
    let d := modHdr d p (fun h => { h with enable := x })
    if x then (if k = .inst then instStart (p - 0x400) d else d) else settle p d

/-- A write of PG_CTRL that the page admits: LOCK and DRAIN, then ENABLE, then SOFT_RESET. One that the MPE or HT page refuses changes
nothing (R247, R373). -/
def writeCtrl (k : PageKind) (a : Access) (p v : Nat) (d : Dev) : Dev :=
  let h := hdrOf d p
  if h.softRst then regErr p errCFG a 0x00C d
  else if (enableFixed k && h.enable && !(bit v 0)) || (resetFixed k && bit v 1) then regErr p errENABLE_FIXED a 0x00C d
  else
    let d := modHdr d p (fun h => { h with lock := h.lock || bit v 31, drain := if (pageCap k).drain then bit v 2 else false })
    let x := bit v 0
    let d := if x = h.enable then d else putEnable k a p x d
    if bit v 1 then softGo k p d else d

/-! ## Block registers with rules of their own -/

/-- SYS: a watchdog that SYS_WDT_CFG enables starts from zero (R349). -/
def sysReg (a : Access) (off v : Nat) (d : Dev) : Dev :=
  wdtSync (fld d pgSYS Reg.SYS_WDT_CFG_EN) (judgePlain .sys a pgSYS off v d).d

/-- Code of the DBG page. -/
def errNOT_PERMITTED := 0x0100

/-- The grant ends: at once for SNID, at the next boot for SID (R424); MRAM forgets it unless the fence is closed for good (R12, R266). -/
def grantClear (d : Dev) : Dev :=
  { d with
    nv := if stopped d.sys.mode then d.nv else { d.nv with grant := none }
    sys := { d.sys with dbgGranted := setBit d.sys.dbgGranted 2 false } }

/-- DBG: SNID and SID change in RAW and TEST only (R422, R428). -/
def dbgReg (a : Access) (off v : Nat) (d : Dev) : Dev :=
  if off ≠ Reg.DBG_CFG_SID.off then (judgePlain .dbg a pgDBG off v d).d
  else
    let own : Bool := d.sys.lc = .raw || d.sys.lc = .test
    let j := judgePlain .dbg a pgDBG off (if own then v else setBits v 3 2 (bits (regGet d pgDBG off) 3 2)) d
    let took := j.took Reg.DBG_CFG_SID
    let d := if took && !own && bits v 3 2 ≠ 0 then regErr pgDBG errNOT_PERMITTED a off j.d else j.d
    let d := if took && own && bit v 3 then { d with sys := { d.sys with taint := true } } else d
    dbgActAll (if j.took Reg.DBG_CFG_CLEAR_GRANT && bit v 4 then grantClear d else d)

/-- HT: a locked region, and the records that one write clears (R374, R376). -/
def htReg (k : PageKind) (a : Access) (p off v : Nat) (d : Dev) : Dev :=
  if 0x100 ≤ off && off < 0x900 && bit (regGet d p (off / 16 * 16)) 30 then countViol p (regErr p errLOCKED a off d)
  else
    let j := judgePlain k a p off v d
    if k = .ht0 && off = Reg.HT_VIOL_INFO_VALID.off && bit v 31 then clearRegs p 0x044 0x04C j.d
    else if k = .ht0 && off = Reg.HT_IMP_CNT_VALID.off && bit v 31 then clearRegs p 0x050 0x05C j.d
    else j.d

/-- MGR: the words that the boot ROM waits for, and the manager's own registers (R299, R343, R419). input is what the host read that
they call for returns. -/
def mgrPage (a : Access) (off v : Nat) (input : HostData) (d : Dev) : Dev :=
  let d := mgrReg a off v input d
  if off = Reg.MGR_PARAM_PARAM.off && v = 0x4C43_5452 then svcGo input d
  else if off = Reg.MGR_PARAM_PARAM.off && v = 0x4C4F_4144 then loaderGo input d
  else d

/-- SYM, HASH and PKE: GO of the job port; a change of SERVE may leave the rings without a unit (R167, R198, R220, R224). -/
def unitReg (k : PageKind) (a : Access) (p off v : Nat) (d : Dev) : Dev :=
  if off = Reg.SYM_JOB_CTL_GO.off then jobGo a (pageUnit p) v 0 keySound d else ringSweep (judgePlain k (seenAs a) p off v d).d

/-- VIG, the delays of loops that a write arms being free values (R396). -/
def vigWrite (a : Access) (off v : Nat) (d : Dev) : Dev :=
  let (m, d) := drawFresh d
  let (n, d) := drawFresh d
  vigReg a off v (Config.freeNat m % 65536) (Config.freeNat n % 65536) d

/-- A write to a block register that the page admits. a is the access as it was made. -/
def blockReg (port : RegPort) (a : Access) (k : PageKind) (p off v : Nat) (d : Dev) : Dev :=
  let s := seenAs a
  match k with
  | .sys => sysReg s off v d
  | .lc => lcReg s off v d
  | .dbg => dbgReg s off v d
  | .pwr => if off = Reg.PWR_QREQ_REQ.off then writeQreq s v d else (judgePlain k s p off v d).d
  | .gpio => monRefresh (gpioReg s off v d)
  | .tamp0 | .tamp1 | .tamp2 | .tamp3 => tampReg k s p off v d
  | .vig => vigWrite s off v d
  | .irqg | .irqc | .irqs0 | .irqs1 => monRefresh (irqReg k s p off v d)
  | .ht0 | .ht1 => htReg k s p off v d
  | .evr0 => evrReg0 s off v d
  | .evr1 => evrReg1 s off v d
  | .ent => entReg s p off v d
  | .drbg => drbgReg s off v d
  | .ks0 => if off = Reg.KS_CMD_OP.off then ksCmdWrite a v 5 d else (judgePlain k s p off v d).d
  | .sym | .hash | .pke => unitReg k a p off v d
  | .dma => if off = Reg.DMA_CTL_START.off then dmaCtl port s (p - 0x0A0) v [] none d else (judgePlain k s p off v d).d
  | .cmd => if off = Reg.CMD_RCQ_TAIL_TAIL.off then rcqAdvance a v d else pypSync d (judgePlain k s p off v d).d
  | .ofc => if off = Reg.OFC_CMD_OP.off then ofcCmd a v d else cardsSync d (judgePlain k s p off v d).d
  | .mgr => mgrPage s off v none d
  | .inst => writeInstReg s (p - 0x400) off v d
  | .clk | .hold | .wear | .ks1 | .ks2 | .ks3 | .mpe0 | .mpe1 | .host | .usb4 => (judgePlain k s p off v d).d

/-! ## A write by a master (R19, R39, R42) -/

/-- An aligned 32-bit write. -/
def wordWrite (port : RegPort) (a : Access) (p off v : Nat) (d : Dev) : Dev :=
  if p = pgDRBG && off = Reg.DRBG_SW_STAT_ENT_EMPTY.off then emptyWrite a v d
  else match admitWrite (seenAs a) p off d with
    | (none, d) => d
    | (some k, d) =>
      if off = 0x00C then pageSync p d (writeCtrl k (seenAs a) p v d)
      else if off = 0x034 then writePwr (seenAs a) p v d
      else if off < 0x040 then
        let d := (judgePlain k (seenAs a) p off v d).d
        if off = 0x01C && (pageCap k).irq then monRefresh d else d
      else blockReg port a k p off v d

/-- A write of n bytes at an offset of a page; fuel bounds DMA transfers that start one another. -/
def pageWrite : Nat → RegPort
  | 0, _, _, _, _, _, d => d
  | f + 1, a, p, off, n, v, d =>
    if n = 4 && off % 4 = 0 then wordWrite (pageWrite f) a p off (v % 2 ^ 32) d
    else if n = 8 && off % 8 = 0 then
      wordWrite (pageWrite f) a p (off + 4) (v / 2 ^ 32 % 2 ^ 32) (wordWrite (pageWrite f) a p off (v % 2 ^ 32) d)
    else match reach d a p off, pageKind p with
      | .gone, _ | .view, _ | _, none => d
      | _, _ => regErr p errACCESS (seenAs a) off d

/-- A register write by a master; what it brings to light on protected memory halts the device. -/
def regWrite (a : Access) (p off n v : Nat) (d : Dev) : Dev := pageWrite 40 a p off n v d

/-- The port that a transfer started by a row uses. -/
def dmaPort : RegPort := pageWrite 40

end Sys2Proof.Machine
end

