-- ==== Sys2Proof/Machine/RegCmds.lean ====
section
/-! DEFINITION. The commands of the register pages: writes, soft resets, enables, interrupts, pins, DMA, the life-cycle controller, the boot
ROM's two handshakes and the debug grant: one meaning each. -/

namespace Sys2Proof.Machine

/-! ## Pages (R19, R24, R39, R40) -/

/-- REGISTER_WRITE (R19, R39), the doorbell page of a virtual function's BAR0 included (R43, R80). -/
def execRegisterWrite (a : Access) (page off size val : Nat) (s : State) : Host.Outcome State Fault Refusal :=
  runAcc a s fun a d =>
    if 0x1000 ≤ off then d
    else match a.via with
      | .vf i stream => if page = bellPage i then bellWrite i off size val stream d else regWrite a page off size val d
      | _ => regWrite a page off size val d

/-- SOFT_RESET (R40): a write of PG_CTRL with SOFT_RESET, its other fields as they stand. -/
def execSoftReset (a : Access) (page : Nat) (s : State) : Host.Outcome State Fault Refusal :=
  runAcc a s fun a d => regWrite a page 0x00C 4 (2 + b2n (hdrOf d page).enable + 4 * b2n (hdrOf d page).drain) d

/-- SOFT_RESET_COMPLETE (R40). -/
def execSoftResetComplete (page : Nat) (s : State) : Host.Outcome State Fault Refusal :=
  runDev s (softDone page)

/-- CMD_ENABLE (R9): ENABLE of the CMD page is set. -/
def execCmdEnable (a : Access) (s : State) : Host.Outcome State Fault Refusal :=
  runAcc a s fun a => (regWrite a pgCMD 0x00C 4 1)

/-- MPE_ENABLE (R247). -/
def execMpeEnable (a : Access) (s : State) : Host.Outcome State Fault Refusal :=
  runAcc a s fun a => (regWrite a pgMPE 0x00C 4 1)

/-- HT_ENABLE (R373). -/
def execHtEnable (a : Access) (s : State) : Host.Outcome State Fault Refusal :=
  runAcc a s fun a => (regWrite a pgHT 0x00C 4 1)

/-- INST_ENABLE (R103, R277). -/
def execInstEnable (a : Access) (inst : Nat) (s : State) : Host.Outcome State Fault Refusal :=
  runAcc a s fun a d => if inst < 1024 then regWrite a (instPage inst) 0x00C 4 1 d else d

/-! ## Interrupts (R355, R359-R361) -/

/-- IRQC_CLAIM (R359): a read of IRQC_CLAIM. -/
def execIrqcClaim (a : Access) (core : Nat) (s : State) : Host.Outcome State Fault Refusal :=
  runAcc a s fun a d => if core < 16 then readAnswer a (pgIRQC core) Reg.IRQC_CLAIM_ID.off 4 d else d

/-- IRQC_COMPLETE (R360). -/
def execIrqcComplete (a : Access) (core id : Nat) (s : State) : Host.Outcome State Fault Refusal :=
  runAcc a s fun a d => if core < 16 then regWrite a (pgIRQC core) Reg.IRQC_COMPLETE_ID.off 4 id d else d

/-- IRQC_SWI_SET (R356, R367). -/
def execIrqcSwiSet (a : Access) (id : Nat) (s : State) : Host.Outcome State Fault Refusal :=
  runAcc a s fun a => (regWrite a pgSRC2 Reg.IRQC_SWI_SET_ID.off 4 id)

/-- GPIO_INPUT_EDGE (R356, R383): the pins have these levels from outside. -/
def execGpioInputEdge (levels : Nat) (s : State) : Host.Outcome State Fault Refusal :=
  runDev s fun d =>
    let was := pinLines d
    let d := { d with gpio := ⟨levels % 256⟩ }
    if dieOn d.sys.mode then pinEdges was d else d

/-- MONITOR_SOURCE (R355): a pending source that belongs to the monitor interrupts its targets. -/
def execMonitorSource (src : Nat) (s : State) : Host.Outcome State Fault Refusal :=
  runDev s fun d =>
    if dieOn d.sys.mode && allSources.contains src && bit (srcCfg d src) 13 && srcPending d src then monRefresh d else d

/-! ## Pins (R383) -/

/-- GPIO_WRITE: a write of GPIO_DIR, OUT, SET, CLR or INV. -/
def execGpioWrite (a : Access) (off val : Nat) (s : State) : Host.Outcome State Fault Refusal :=
  runAcc a s fun a d =>
    if [Reg.GPIO_DIR_OE.off, Reg.GPIO_OUT_OUT.off, Reg.GPIO_SET_SET.off, Reg.GPIO_CLR_CLR.off, Reg.GPIO_INV_INV.off].contains off then
      regWrite a pgGPIO off 4 val d
    else d

/-- GPIO_WORLD_WRITE. -/
def execGpioWorldWrite (a : Access) (val : Nat) (s : State) : Host.Outcome State Fault Refusal :=
  runAcc a s fun a => (regWrite a pgGPIO Reg.GPIO_WORLD_WORLD.off 4 val)

/-! ## DMA (R377-R379) -/

/-- A write of DMA_CTL by a master, with what the transfer meets. -/
def dmaWriteCtl (a : Access) (ch val : Nat) (host : List HostData) (badAt : Option DmaErr) (d : Dev) : Dev :=
  match admitWrite (seenAs a) (pgDMA ch) Reg.DMA_CTL_START.off d with
  | (some _, d) => dmaCtl dmaPort (seenAs a) ch (val % 2 ^ 32) host badAt d
  | (none, d) => d

/-- DMA_START (R377, R378): a write of DMA_CTL with START. host is what reads through the outbound window return, badAt where the codes
mismatch. -/
def execDmaStart (a : Access) (ch val : Nat) (host : List HostData) (badAt : Option DmaErr) (s : State) : Host.Outcome State Fault Refusal :=
  runAcc a s fun a d => if ch < 32 then dmaWriteCtl a ch (setBit val 31 true) host badAt d else d

/-- DMA_ABORT (R379): a write of DMA_CTL with ABORT. -/
def execDmaAbort (a : Access) (ch val : Nat) (s : State) : Host.Outcome State Fault Refusal :=
  runAcc a s fun a d => if ch < 32 then dmaWriteCtl a ch (setBit (setBit val 30 true) 31 false) [] none d else d

/-- DMA_READBACK_DONE (R378). -/
def execDmaReadbackDone (ch : Nat) (host : List HostData) (badAt : Option DmaErr) (s : State) : Host.Outcome State Fault Refusal :=
  runDev s fun d =>
    if ch < 32 && (dmaOf d ch).busy && (dmaOf d ch).readback then dmaReadback dmaPort ch host badAt d else d

/-! ## Life cycle and debug grant (R414, R416, R424) -/

/-- TRANSITION (R416): a write of LC_CMD with OP 1. -/
def execTransition (a : Access) (val : Nat) (s : State) : Host.Outcome State Fault Refusal :=
  runAcc a s fun a => (lcWrite a Reg.LC_CMD_OP.off (setBits val 3 0 1))

/-- TOKEN_SET (R414): a write of LC_CMD with OP 2. -/
def execTokenSet (a : Access) (val : Nat) (s : State) : Host.Outcome State Fault Refusal :=
  runAcc a s fun a => (lcWrite a Reg.LC_CMD_OP.off (setBits val 3 0 2))

/-- LC_PROGRAMMING_DONE (R416 steps 5 and 6). -/
def execLcProgrammingDone (s : State) : Host.Outcome State Fault Refusal :=
  runDev s lcFinish

/-- CLEAR_GRANT (R424): a write of DBG_CFG with CLEAR_GRANT, its other fields as they stand. -/
def execClearGrant (a : Access) (s : State) : Host.Outcome State Fault Refusal :=
  runAcc a s fun a d => regWrite a pgDBG Reg.DBG_CFG_CLEAR_GRANT.off 4 (setBit (regGet d pgDBG Reg.DBG_CFG_CLEAR_GRANT.off) 4 true) d

/-! ## The boot ROM's handshakes (R343, R419) -/

/-- Host software writes a word to MGR_PARAM, and the host memory it points to holds the data. -/
def paramWrite (a : Access) (v : Nat) (data : HostData) (d : Dev) : Dev :=
  match admitWrite (seenAs a) pgMGR Reg.MGR_PARAM_PARAM.off d with
  | (some _, d) => mgrPage (seenAs a) Reg.MGR_PARAM_PARAM.off v data d
  | (none, d) => d

/-- LOADER_HANDSHAKE (R343). -/
def execLoaderHandshake (a : Access) (image : HostData) (s : State) : Host.Outcome State Fault Refusal :=
  runAcc a s fun a => (paramWrite a 0x4C4F_4144 image)

/-- ROM_TRANSITION_SERVICE (R419). -/
def execRomTransitionService (a : Access) (req : HostData) (s : State) : Host.Outcome State Fault Refusal :=
  runAcc a s fun a => (paramWrite a 0x4C43_5452 req)

/-- MGR_EVENT_READ (R301): the entry read leaves the queue. -/
def execMgrEventRead (a : Access) (s : State) : Host.Outcome State Fault Refusal :=
  runAcc a s fun a => (readAnswer a pgMGR Reg.MGR_EVENT_VALID.off 4)

end Sys2Proof.Machine
end

