-- ==== Sys2Proof/Machine/Bus.lean ====
section
/-! DEFINITION. Transactions on the interconnect (R368-R376, R479, R480), accesses to protected memory and the memory protection engine's
own work (R258-R266), and the debug transport (R421, R426). -/

namespace Sys2Proof.Machine

/-! ## The master -/

/-- The world of a transaction (R13, R368): a core's is that of its world CSR but in machine mode (R329), a channel's its own (R380), a
host's non-secure, that of an engine, of the command processor and of a device master secure, but for the event recorder, whose read
carries the world of the write that started it. -/
def busWorld (d : Dev) (b : Bus) : Bool :=
  match b.cls with
  | 0 => b.mach || (hartOf d b.idx).world
  | 1 => (whoDma d b.idx).sec
  | 2 => false
  | 3 | 4 => true
  | 5 => (whoDebug d).sec
  | _ => b.idx ≠ 4 || b.sec

/-- A master as its transaction names it. -/
def busWho (d : Dev) (b : Bus) : Who := ⟨busWorld d b, b.cls = 0 && b.mach, b.cls, b.idx⟩

/-- Whether the function of an instance is on a link. -/
def instOnLink (d : Dev) (i l : Nat) : Bool := (instFn d i).any (fun f => f.1 = l)

/-- How it reaches a register page: a host through the view of its link, or of the instance's function (R42, R43). -/
def busAccess (d : Dev) (b : Bus) (p : Nat) : Access :=
  let w := busWho d b
  if b.cls ≠ 2 then ⟨w.sec, w.cls, w.idx, .direct⟩
  else if 0x400 ≤ p && instOnLink d (p - 0x400) b.idx then ⟨false, 2, b.idx, .vf (p - 0x400) b.stream⟩
  else ⟨false, 2, b.idx, .pf b.idx b.stream⟩

/-- Whether a write is posted: its command word says so, a host's always is, and a core's to register space, MRAM or the outbound window
(R369, R375). -/
def busPosted (b : Bus) : Bool :=
  b.kind = .write && (b.posted || b.cls = 2 || (b.cls = 0 && (match zoneOf b.addr with
    | .regs | .mramMon | .mramHw | .mramGen | .mramLog | .hostWin => true
    | _ => false)))

/-! ## One part of a transaction -/

/-- Register space read in words of at most eight bytes; a fetch or read-back has no effect on a register (R359, R378). -/
def busRegRead (b : Bus) (a n : Nat) (d : Dev) : Bytes × Dev :=
  let p := (a - 0x1000_0000) / 0x1000
  if b.kind = .read then dmaRegRead (busAccess d b p) a 600 n d else (zeros n, d)

/-- Whether the fence lets a write through to its target: MRAM and the outbound window are reached through it, and it releases nothing once
the device has halted (R12, R266, R268). -/
def fenceWrites (d : Dev) (a : Nat) : Bool :=
  match zoneOf a with
  | .mramMon | .mramHw | .mramGen | .mramLog | .hostWin => !(stopped d.sys.mode)
  | _ => true

/-- What a unit has read before its verification makes what it works on provisional (R264, R267). -/
def tagUnit (b : Bus) (t : Option Nat) (d : Dev) : Dev :=
  if b.cls ≠ 3 || t.isNone then d
  else
    let u := unitOf d b.idx
    let d := match u.cur.bind (cmdOf d) with
      | some c => putCmd { c with epoch := tagMax c.epoch t } d
      | none => d
    match u.job with
    | some c => modUnit b.idx (fun u => { u with job := some { c with epoch := tagMax c.epoch t } }) d
    | none => d

/-- A permitted part is performed: how it ends, and its data. -/
def busPart (tag : Option Nat) (b : Bus) (a n : Nat) (d : Dev) : MemRes × Bytes × Dev :=
  let spec : Bool := b.cls = 3 || b.cls = 4
  if b.kind = .write && !(fenceWrites d a) then (.ok, [], d)
  else if b.kind = .write then
    let data := slice b.data (a - b.addr) n
    match zoneOf a with
    | .regs => (.ok, [], dmaRegWrite (pageWrite 40) (busAccess d b ((a - 0x1000_0000) / 0x1000)) a 600 data d)
    | .hostWin => (.ok, [], winWrite a data d)
    | _ => let (r, d) := writePart (if spec then tag else none) a data d; (r, [], d)
  else match zoneOf a with
    | .regs => let (x, d) := busRegRead b a n d; (.ok, x, d)
    | .hostWin => let (x, d) := winRead a n b.hostData d; (.ok, ((x.getD []) ++ zeros n).take n, d)
    | _ => let (r, x, t, d) := readPart spec a n d; (r, x, tagUnit b t d)

/-- Every part of a transaction, judged and performed in turn (R375). -/
def busParts (tag : Option Nat) (b : Bus) (d : Dev) : MemRes × Bytes × Dev :=
  let w := busWho d b
  let ps := partsOf b.addr b.len
  let some? := ps.any (fun p => partCheck d w b.kind p.1 = .pass)
  ps.foldl (fun (acc : MemRes × Bytes × Dev) p =>
    let (r, bs, d) := acc
    let (v, d) := judgePart w b.kind some? (busPosted b) p.1 d
    if v = .ok then
      let (v, x, d) := busPart tag b p.1 p.2 d
      (r.join v, bs ++ x, d)
    else (r.join v, bs ++ (if b.kind = .write then [] else zeros p.2), d)) (.ok, [], d)

/-- The response. A posted write has none, and one that meets TARGET_RESET is dropped and counted (R375, R479, R480). -/
def busAnswer (b : Bus) (r : MemRes) (data : Bytes) (d : Dev) : Dev :=
  if busPosted b then
    (match r with
     | .target _ => satFld { d with bus := none } pgSYS Reg.SYS_XBAR_DROP_POSTED 1
     | _ => { d with bus := none })
  else
    let x : BusResp := match r with
      | .ok => .ok data
      | .refused a => if b.cls = 2 then .ok data else .refused a data
      | .decode _ => .decodeError data
      | .target _ => .targetReset
    { d with bus := some x }

/-- The doorbell page that a host's transaction names, by the model's page number (R43). -/
def busBell (d : Dev) (b : Bus) : Option Nat :=
  let p := (b.addr - 0x1000_0000) / 0x1000
  if b.cls = 2 && bellPage 0 ≤ p && p < bellPage 1024 && 0x1000_0000 ≤ b.addr && instOnLink d (p - bellPage 0) b.idx then some (p - bellPage 0) else none

/-- A host's access to a doorbell page (R43, R80). -/
def busBells (b : Bus) (i : Nat) (d : Dev) : Dev :=
  if hostUr d (.vf i b.stream) then { d with bus := if b.kind = .write then none else some .unsupported }
  else if b.kind = .write then bellWrite i (b.addr % 0x1000) b.len (leNat b.data) b.stream d
  else { d with bus := some (.ok (bellRead d i (b.addr % 0x1000) b.len b.stream)) }

/-- sbcs.sberror. -/
def sbError (d : Dev) : Dev := { d with sys := { d.sys with dbgSbError := 7 } }

/-- An access that R270 or the access table refuses. -/
def debugDeny (write posted : Bool) (addr n : Nat) (d : Dev) : Dev :=
  let d := satFld (setFld (sbError d) pgDBG Reg.DBG_STAT_DENIED 1) pgDBG Reg.DBG_DENY_CNT_COUNT 1
  let d := record 0x0701 (payDenied (b2n write) addr) (raiseEv pgDBG 0 d)
  { d with bus := if posted then none else some (.refused addr (if write then [] else List.replicate n 0xFF)) }

/-- A transaction of the debug transport past the integrity check; chg is what has become of its data on its way back. -/
def debugRun (b : Bus) (chg : Bytes → Bytes) (d : Dev) : Dev :=
  let w := whoDebug d
  let write : Bool := b.kind = .write
  let addr := b.addr
  let n := b.len
  let v := partCheck d w b.kind addr
  let (r, d) := judgePart w b.kind false (busPosted b) addr d
  match v, r with
  | .refuse _, _ | .fixed, _ => debugDeny write (busPosted b) addr n d
  | .decode, r => busAnswer b r (if write then [] else zeros n) d
  | .pass, _ =>
    if !write && zoneOf addr = .hostWin && (b.hostData.isNone || !(winOpen d)) then { (winRead addr n none d).2 with bus := some .hostError }
    else
      let (r, x, d) := busPart none b addr n d
      let d := if r = .ok then d else sbError d
      busAnswer b r (chg x) d

/-- A transaction past the integrity check of R373: its answer carries what has become of its data. -/
def busRun (tag : Option Nat) (b : Bus) (chg : Bytes → Bytes) (d : Dev) : Dev :=
  if b.cls = 5 then debugRun b chg d
  else if b.kind ≠ .write && zoneOf b.addr = .hostWin && (b.hostData.isNone || !(winOpen d)) && partCheck d (busWho d b) b.kind b.addr = .pass then
    { (winRead b.addr b.len none d).2 with bus := some .hostError }
  else if b.cls = 2 && hostUr d (busAccess d b ((b.addr - 0x1000_0000) / 0x1000)).via then
    { d with bus := if b.kind = .write then none else some .unsupported }
  else
    let (r, data, d) := busParts tag b d
    busAnswer b r (chg data) d

/-- The same for every address: a host's at a doorbell page, or any other. -/
def busSent (tag : Option Nat) (b : Bus) (chg : Bytes → Bytes) (d : Dev) : Dev :=
  match busBell d b with
  | some i => busBells b i d
  | none => busRun tag b chg d

/-- The command word that a transaction is sent with. -/
def busWord (d : Dev) (b : Bus) : Nat := cmdWord (busWho d b) (busPosted b) b.kind b.addr b.len

/-- The transaction that a changed command word and changed write data spell; its length follows a changed BEATS. -/
def busArrived (d : Dev) (b : Bus) (e : BusErr) : Bus :=
  let w0 := busWord d b
  let w := Nat.xor w0 e.word
  let n := if bits w 54 52 = bits w0 54 52 then b.len else 8 * (bits w 54 52 + 1)
  { b with
    sec := bit w 40, cls := bits w 43 41, idx := bits w 49 44, addr := bits w 39 0, posted := bit w 55, len := n
    kind := (match bits w 51 50 with | 0 => .read | 1 => .write | 2 => .fetch | _ => .readBack), data := fitTo n (busData e b.data) }

/-- The work of a unit ends where its read is answered with an error response (R371, R375). -/
def unitReadFails (i : Nat) (d : Dev) : Dev :=
  match (unitOf d i).cur.bind (cmdOf d), (unitOf d i).job with
  | some c, _ => failTaken c (stHOST_ACCESS, 0) d
  | none, some c => if c.result.isSome then d else jobHold i c (failed stHOST_ACCESS 0) d
  | none, none => d

/-- A mismatch of the codes ends a transaction (R371): a write is dropped, a read is answered with an error response, by which a channel
stops (R379), a unit's command or job ends, and the debug transport has its sticky error. -/
def busIntEnd (b : Bus) (e : BusErr) (d : Dev) : Dev :=
  let d := busInt (busWho d b) e.target b.addr { d with bus := if busPosted b then none else some .integrity }
  match b.cls with
  | 1 => if (dmaOf d b.idx).busy then dmaStop b.idx 4 b.addr d else d
  | 3 => if b.kind = .write || 28 ≤ b.idx then d else unitReadFails b.idx d
  | 5 => sbError d
  | _ => d

/-- Whether the debug transport makes system bus accesses: an invasive enable of its world is set (R421). -/
def debugMay (d : Dev) : Bool := bit (dbgEnables d) (if (whoDebug d).sec then 3 else 1)

/-- Whether a PMP entry keeps a core's access from leaving it (R330); in machine mode the entries keep nothing from the monitor. -/
def busPmp (d : Dev) (b : Bus) : Bool := b.cls = 0 && !b.mach && !(pmpOpen d b.idx b.kind b.addr)

/-- A transaction through every check of R373; a host's wakes the device (R68). A change on its way that the codes show ends it (R371); one
that they do not show goes unseen. A transaction is of a master of R368 and at most eight beats (R369). -/
def busGo (tag : Option Nat) (b : Bus) (d : Dev) : Dev :=
  let d := if b.cls = 2 then tlpWake (some b.idx) d else d
  if !(dieOn d.sys.mode) || !(masterOk b.cls b.idx) || b.len = 0 || 64 < b.len || (b.cls = 5 && !(debugMay d)) then d
  else if busPmp d b then { d with bus := some (.refused b.addr (if b.kind = .write then [] else zeros b.len)) }
  else match b.badCode with
    | none => busSent tag b id d
    | some e =>
      if busMismatch (busWord d b) (if b.kind = .write then b.data else zeros b.len) e then busIntEnd b e d
      else busSent tag (busArrived d b e) (if b.kind = .write then id else busData e) d

/-- INTERCONNECT_TRANSACTION (R368-R376). -/
def execInterconnectTransaction (b : Bus) (s : State) : Host.Outcome State Fault Refusal :=
  runDev s (busGo none b)

/-! ## Protected memory (R253, R258-R266) -/

/-- PROTECTED_READ (R258-R261, R264): a read of protected memory, with what is wrong with the lines it touches. -/
def execProtectedRead (b : Bus) (dmg : LineDamage) (s : State) : Host.Outcome State Fault Refusal :=
  runDev s fun d => if zoneOf b.addr = .dram && b.kind ≠ .write then busGo none b (hitLine dmg b.addr d) else d

/-- PROTECTED_WRITE (R253, R265): a write of protected memory, with the epoch of its data; while the write buffer has no room, a
provisional write waits. -/
def execProtectedWrite (b : Bus) (tag : Option Nat) (s : State) : Host.Outcome State Fault Refusal :=
  runDev s fun d =>
    if zoneOf b.addr = .dram && b.kind = .write && (tag.isNone || wbufRoom d b.addr b.data.length) then busGo tag b d else d

/-- Whether the engine works by itself: it serves, and neither DROWSE nor HOLDUP stops it (R272). -/
def mpeWorks (d : Dev) : Bool := mpeServes d && d.sys.mode ≠ .drowse

/-- WRITE_BUFFER_DRAIN (R265): the buffered writes whose epoch has passed leave for LPDDR6. -/
def execWriteBufferDrain (s : State) : Host.Outcome State Fault Refusal :=
  runDev s fun d => if mpeServes d then wbufDrain d else d

/-- EPOCH_CLOSE (R263). What the key store controller has written to T1 has gone to its lines by then (R145). -/
def execEpochClose (s : State) : Host.Outcome State Fault Refusal :=
  runDev s fun d => if mpeWorks d then epochClose (t1Pass d) else d

/-- LINE_VERIFICATION_DONE (R263, R266): the check of the n-th of the reads answered before it ends, and passes or halts the device. -/
def execLineVerificationDone (n : Nat) (s : State) : Host.Outcome State Fault Refusal :=
  runDev s fun d =>
    match d.mpe.reads[n]? with
    | some r =>
      if mpeServes d then
        match r.fail with
        | none => epochUpdate (modMpe (fun m => { m with reads := m.reads.eraseIdx n }) d)
        | some f => mpeFail f d
      else d
    | none => d

/-- A tree line read by the scrub, CODE first, the chain above it brought in (R258, R262). -/
def scrubTree (a : Nat) (d : Dev) : Dev :=
  let (lvl, n) := treeNode a
  let d := codeStep 0 (lvl + 1) a d
  let d := if lvl < 3 then ccRun 0 [] ccFuel (.bring (lvl + 1) (n / 64)) d else d
  let c := parentCtr d lvl n
  if c = (0, 0) then d else macStep 0 (lvl + 1) a c d

/-- The next written line at or above the place that the scrub has reached, or the first of the next pass. -/
def scrubNext (d : Dev) : Option Nat :=
  match d.mpe.dram.find? (fun kv => d.mpe.scrub ≤ kv.1) with
  | some kv => some kv.1
  | none => d.mpe.dram.head?.map (·.1)

/-- PATROL_SCRUB (R262): it reads and verifies one written line, of T1 as of the rest. -/
def execPatrolScrub (dmg : LineDamage) (s : State) : Host.Outcome State Fault Refusal :=
  runDev s fun d =>
    if mpeWorks d && d.sys.mode ≠ .holdup && fld d pgMPE Reg.MPE_CFG_SCRUB_H ≠ 0 then
      let d := t1Pass d
      match scrubNext d with
      | some k =>
        let d := hitLine dmg (k * 64) (modMpe (fun m => { m with scrub := k + 1 }) d)
        if zoneOf (k * 64) = .tree then scrubTree (k * 64) d else (lineFetch 0 (k * 64) d).2.2
      | none => d
    else d

/-- CE_HOUR_END (R259): each channel's count of the hour starts again. -/
def execCeHourEnd (s : State) : Host.Outcome State Fault Refusal :=
  runDev s (modMpe (fun m => { m with ceHour := [], ceRaised := 0 }))

/-! ## TARGET_RESET (R480) -/

/-- Page of the unit that a command waits for. -/
def retryPage (i : Nat) : Nat := if i < 28 then unitPage i else pgKS

/-- Whether the inbound port of a unit is still closed. -/
def portShut (d : Dev) (i : Nat) : Bool :=
  (hdrOf d (retryPage i)).softRst || (i < 28 && ((quarterOf d (unitQuarter i)).pwr ≠ .on || (hdrOf d (unitPage i)).pwrNow ≠ 0))

/-- TARGET_RESET_RETRY (R480): 1 µs later the command is issued again, and ends if its unit is still closed. -/
def execTargetResetRetry (tag : Nat) (s : State) : Host.Outcome State Fault Refusal :=
  runDev s fun d =>
    atStage tag .retry (fun c d =>
      let d := waitUntil (d.now + 1000) d
      if portShut d (c.unit.getD 28) then targetReset c d else ringSweep (putCmd { c with stage := .ring, unit := none } d)) d

/-! ## Debug (R421, R426) -/

/-- DEBUG_HALT_REQUEST (R421): with an enable set, the request waits until the hart runs in a world that invasive debug may enter. -/
def execDebugHaltRequest (h : Nat) (s : State) : Host.Outcome State Fault Refusal :=
  runDev s fun d =>
    if h < 16 && dieOn d.sys.mode && dbgEnables d ≠ 0 then
      dbgAct h { d with sys := { d.sys with dbgHaltReq := setBit d.sys.dbgHaltReq h true, dbgAttached := true } }
    else d

/-- DEBUG_ACCESS (R421, R426, R480): a system bus access of 1, 2, 4 or 8 bytes at a multiple of its size, where an invasive enable of its
world is set. -/
def execDebugAccess (write : Bool) (addr size val : Nat) (s : State) (err : Option BusErr := none) : Host.Outcome State Fault Refusal :=
  runDev s fun d =>
    if [1, 2, 4, 8].contains size && addr % size = 0 && dieOn d.sys.mode && debugMay d then
      busGo none ⟨false, false, 5, 0, if write then .write else .read, addr, size, leBytes size val, false, err, none, none⟩
        { d with sys := { d.sys with dbgAttached := true } }
    else { d with bus := none }

end Sys2Proof.Machine
end

