-- ==== Sys2Proof/Machine/Egress.lean ====
section
/-! DEFINITION. The commands at which the last work of a drain can end: the return of a host read, and a release by the fence (R66, R94,
R266, R430, R448). -/

namespace Sys2Proof.Machine

/-- Link of a host read. -/
def readLink (d : Dev) (id : Nat) : Option Nat := (d.cmd.reads.find? (fun r => r.id = id)).map (·.link)

/-- HOST_READ_COMPLETION (R66, R68). -/
def execHostReadCompletion (tag : Nat) (data : HostData) (s : State) : Host.Outcome State Fault Refusal :=
  runDev s fun d => drainStep (readDone tag data (tlpWake (readLink d tag) d))

/-- EGRESS_RELEASE (R94, R266, R430): the result of a command, or the oldest event record handed to the fence. -/
def execEgressRelease (what : Held) (s : State) : Host.Outcome State Fault Refusal :=
  runDev s fun d =>
    match what with
    | .cmd tag => drainStep (atStage tag .held releaseCmd d)
    | .record => releaseHeld 1 d

end Sys2Proof.Machine
end

