-- ==== Sys2Proof/Machine/Host.lean ====
section
/-! DEFINITION. The host attachment: resets, links, USB4, function-level resets, virtual functions, configuration requests, IDE, DOE and the
SPDM responder, SMBus, MSI-X (R47-R76, R348). -/

namespace Sys2Proof.Machine

/-! ## Links (R47, R65-R67, R70, R71) -/

/-- Sets the registers that show how a link stands. -/
def linkRegs (l width speed : Nat) (flit : Bool) (d : Dev) : Dev :=
  let w : Fld := if l = 0 then Reg.HOST_LINK_A_WIDTH else Reg.HOST_LINK_B_WIDTH
  let s : Fld := if l = 0 then Reg.HOST_LINK_A_SPEED else Reg.HOST_LINK_B_SPEED
  let f : Fld := if l = 0 then Reg.HOST_LINK_A_FLIT else Reg.HOST_LINK_B_FLIT
  setFld (setFld (setFld d pgHOST w width) pgHOST s speed) pgHOST f (b2n flit)

/-- The tunnel of the USB4 port is gone (R76). -/
def tunnelGone (d : Dev) : Dev := setFld d pgUSB4 Reg.USB4_STAT_TUNNEL 0

/-- The port is detached: no rate, no router, no tunnel, and the USB4 page is at its job boundary (R71, R76). -/
def usbGone (d : Dev) : Dev :=
  let d := setFld (setFld (tunnelGone d) pgUSB4 Reg.USB4_STAT_RATE 0) pgUSB4 Reg.USB4_STAT_ENUM 0
  jobBoundary pgUSB4 (raiseEv pgUSB4 1 { d with host := { d.host with usbAttached := false } })

/-- A link's functions are reset and the link is down; the event is raised where it was up. -/
def linkLose (l : Nat) (d : Dev) : Dev :=
  let was := (linkOf d l).up
  let d := modLink (linkRegs l 0 0 false (linkReset' l d)) l (fun k => { k with training := false })
  if was then raiseEv pgHOST (if l = 0 then 1 else 3) d else d

/-- What a change of the host attachment leaves to be done: a drain may have ended. -/
def hostSettle (d : Dev) : Dev := drainStep d

/-- HOST_RESET_N is asserted: both PCIe links and their functions are reset, the HOST page reaches its job boundary, and a link whose kind
the new PORT_MODE changes is lost too; a port that carries USB4 no more is detached, its lanes idle (R47, R65, R70, R74, R76). -/
def hostResetGo (d : Dev) : Dev :=
  let lose (ls : List Nat) (d : Dev) : Dev := ls.foldl (fun d l => linkLose l d) d
  let pcie := [0, 1].filter (fun l => linkInMode (portMode d) l && !(linkIsUsb d l))
  let was := [0, 1].map (linkIsUsb d)
  let d := jobBoundary pgHOST (lose pcie d)
  let d := if d.host.usbAttached && !(linkIsUsb d 0) && !(linkIsUsb d 1) then usbGone d
    else if [0, 1].any (fun l => was.getD l false && !(linkIsUsb d l)) then tunnelGone d else d
  lose ([0, 1].filter (fun l => !pcie.contains l && (linkOf d l).up && (linkIsUsb d l ≠ was.getD l false || !(linkInMode (portMode d) l)))) d

/-- HOST_RESET (R65): an assertion of HOST_RESET_N, and its release. -/
def execHostReset (s : State) : Host.Outcome State Fault Refusal :=
  runDev s fun d =>
    let d := { d with host := { d.host with rstUpAt := d.now } }
    if dieOn d.sys.mode then hostSettle (hostResetGo d) else d

/-- LINK_TRAINING (R67): a PCIe link of the port mode starts to train once the HOST page is enabled, 1 ms after HOST_RESET_N is
released with P12V good. -/
def execLinkTraining (link : Nat) (s : State) : Host.Outcome State Fault Refusal :=
  runDev s fun d =>
    if link < 2 && dieOn d.sys.mode && d.sup.p12vGood && (hdrOf d pgHOST).enable && linkInMode (portMode d) link && !(linkIsUsb d link)
        && !(linkOf d link).up then
      modLink (waitUntil (max d.host.rstUpAt d.sup.goodSince + 1000000) d) link (fun k => { k with training := true })
    else d

/-- Whether a link can stand as reported (R47, R50). -/
def linkInfoOk (d : Dev) (l : Nat) (i : LinkInfo) : Bool :=
  [1, 2, 4, 8, 16].contains i.width && (i.width ≤ 8 || (l = 0 && portMode d ≠ 1)) && 1 ≤ i.speed && i.speed ≤ 6
    && i.flit = decide (i.speed = 6)

/-- LINK_UP (R47, R71): a PCIe link that trains, or the tunnel of an attached USB4 port. -/
def execLinkUp (link : Nat) (info : LinkInfo) (s : State) : Host.Outcome State Fault Refusal :=
  runDev s fun d =>
    if !(link < 2) || !(dieOn d.sys.mode) || !(linkInMode (portMode d) link) || (linkOf d link).up then d
    else
      let up (d : Dev) : Dev := raiseEv pgHOST (if link = 0 then 0 else 2) (modLink d link (fun k => { k with up := true, training := false }))
      if linkIsUsb d link then
        if d.host.usbAttached then
          up (raiseEv pgUSB4 2 (setFld (setFld d pgUSB4 Reg.USB4_STAT_TUNNEL 1) pgUSB4 Reg.USB4_STAT_ENUM 1))
        else d
      else if (linkOf d link).training && linkInfoOk d link info then up (linkRegs link info.width info.speed info.flit d)
      else d

/-- LINK_DOWN (R65): a hot reset or link down, of a PCIe link or of the tunnel. -/
def execLinkDown (link : Nat) (s : State) : Host.Outcome State Fault Refusal :=
  runDev s fun d =>
    if link < 2 && (linkOf d link).up then
      let d := linkLose link d
      hostSettle (if linkIsUsb d link then tunnelGone d else d)
    else d

/-- USB4_ATTACH (R70): the port trains at 80 Gbit/s, or at 40 where that fails or FORCE_40 asks for it. -/
def execUsb4Attach (rate80 : Bool) (retrains : Nat) (s : State) : Host.Outcome State Fault Refusal :=
  runDev s fun d =>
    if dieOn d.sys.mode && (linkIsUsb d 0 || linkIsUsb d 1) && fldB d pgUSB4 Reg.USB4_CFG_PORT_EN && !d.host.usbAttached then
      let fast := rate80 && !(fldB d pgUSB4 Reg.USB4_CFG_FORCE_40)
      let d := { d with host := { d.host with usbAttached := true } }
      let d := satFld (setFld d pgUSB4 Reg.USB4_STAT_RATE (if fast then 2 else 1)) pgUSB4 Reg.USB4_ERR_CNT_RETRAIN retrains
      let d := if fast then d else raiseEv pgUSB4 3 (satFld d pgUSB4 Reg.USB4_ERR_CNT_FALLBACK 1)
      raiseEv pgUSB4 0 d
    else d

/-- USB4_DETACH (R65, R71, R76): the functions carried over USB4 are reset, and the USB4 page reaches its job boundary. -/
def execUsb4Detach (s : State) : Host.Outcome State Fault Refusal :=
  runDev s fun d =>
    if d.host.usbAttached then
      let d := [0, 1].foldl (fun d l => if linkIsUsb d l then linkLose l d else d) d
      hostSettle (usbGone d)
    else d

/-! ## Functions (R54, R55, R65, R66) -/

/-- How configuration requests of a link are answered: not at all, with Request Retry Status, or normally (R67). -/
inductive CfgServe where | none | retry | serve
deriving DecidableEq, Repr

/-- The answer of a link at this moment. -/
def cfgServe (d : Dev) (l : Nat) : CfgServe :=
  if !(dieOn d.sys.mode) || !(linkOf d l).up then .none
  else if d.sys.mode = .romBoot && !(romHeld d) then .retry else .serve

/-- Function-level resets are counted. -/
def countFlr (n : Nat) (d : Dev) : Dev := satFld d pgHOST Reg.HOST_RESET_CNT_FLR n

/-- FUNCTION_LEVEL_RESET (R65, R66): of the PF, with every VF of its link, or of a VF that responds. -/
def execFunctionLevelReset (link : Nat) (vf : Option Nat) (s : State) : Host.Outcome State Fault Refusal :=
  runTlp link s fun d =>
    if cfgServe d link ≠ .serve || 2 ≤ link then d
    else match vf with
      | none => hostSettle (modLink (countFlr 1 (linkFuncsReset link d)) link (fun k => { k with doeReq := none, doeResp := false }))
      | some n => if vfResponds d link n then hostSettle (countFlr 1 (funcsReset link [n] d)) else d

/-- VF_ENABLE_CHANGE (R54, R55): each VF that no longer responds is reset. -/
def execVfEnableChange (link : Nat) (enable : Bool) (numVfs : Nat) (s : State) : Host.Outcome State Fault Refusal :=
  runTlp link s fun d =>
    if cfgServe d link ≠ .serve || 2 ≤ link then d
    else
      let n := min numVfs (totalVfs d link)
      let before := (List.range (linkOf d link).numVfs).map (· + 1) |>.filter (vfResponds d link)
      let after (k : Nat) : Bool := enable && k ≤ n && ((linkOf d link).ari || k ≤ 7)
      let gone := before.filter (fun k => !(after k))
      let d := if gone.isEmpty then d else countFlr gone.length (funcsReset link gone d)
      hostSettle (modLink d link (fun k => { k with vfEnable := enable, numVfs := n }))

/-! ## Configuration space (R50-R54, R57) -/

/-- Size of a BAR: of the PF, or of a link's VFs (R53); 0 where it is not implemented. -/
def barSize (d : Dev) (l fn bar : Nat) : Nat :=
  if 4 ≤ bar then 0
  else if fn = 0 then (if bar < 2 then 0x200000 else 0x1000)
  else max (if bar < 2 then 0x10000 else 0x1000) ((linkOf d l).sysPage * 4096)

/-- The function that keeps a BAR: every VF of a link has the one set of the SR-IOV capability. -/
def barFn (fn : Nat) : Nat := if fn = 0 then 0 else 1

/-- What a BAR register reads: the address with the type bits of a 64-bit non-prefetchable window. -/
def barRead (d : Dev) (l fn bar : Nat) : Nat :=
  if barSize d l fn bar = 0 then 0 else smapGet zeroAt (fnOf d l (barFn fn)).bars bar + (if bar % 2 = 0 then 4 else 0)

/-- A BAR register takes the address bits above its size. -/
def barWrite (l fn bar v : Nat) (d : Dev) : Dev :=
  let n := barSize d l fn bar
  if n = 0 then d
  else
    let x := if bar % 2 = 1 then v % 2 ^ 32 else v % 2 ^ 32 / n * n
    modFn d l (barFn fn) (fun f => { f with bars := smapSet zeroAt f.bars bar x })

/-- MSI-X vectors of a function (R57). -/
def msixCount (fn : Nat) : Nat := if fn = 0 then 4 else 17

/-- A word of a function's BAR2/3: the MSI-X table at 0x000, the PBA at 0x800; the rest reads zero (R53). -/
def tableRead (d : Dev) (l fn off : Nat) : Nat :=
  let v := off / 16
  let m := smapGet msixReset (fnOf d l fn).msix v
  if v < msixCount fn then
    match off / 4 % 4 with
    | 0 => m.addr % 2 ^ 32
    | 1 => m.addr / 2 ^ 32
    | 2 => m.data
    | _ => b2n m.masked
  else if off / 4 * 4 = 0x800 then
    (List.range (msixCount fn)).foldl (fun w n => w + b2n (smapGet msixReset (fnOf d l fn).msix n).pba * 2 ^ n) 0
  else 0

/-- The Device Serial Number of a PF (R500): the plant letter, year and week in BCD, and the sequence number of the serial number. -/
def deviceSerial (s : Bytes) : Nat :=
  let digits (n k : Nat) : List Nat := ((s.drop n).take k).map (fun b => b.toNat - 0x30)
  (s.getD 2 0).toNat * 2 ^ 56 + numOf 16 (digits 3 4) * 2 ^ 40 + numOf 10 (digits 7 9) % 2 ^ 40

/-- A read of a configuration register. -/
def cfgRead (d : Dev) (l fn : Nat) : CfgReg → Nat
  | .vendorId => if fn = 0 then 0x1F3A else 0xFFFF
  | .deviceId => if fn = 0 then 0x0960 else 0xFFFF
  | .vfDeviceId => if fn = 0 then 0x0961 else 0
  | .revisionId => 0x01
  | .classCode => 0x10_8000
  | .subsystemVendor => 0x1F3A
  | .subsystemId => if fn = 0 then 0x0960 else 0x0961
  | .barLow n => barRead d l fn n
  | .totalVfs | .initialVfs => if fn = 0 then totalVfs d l else 0
  | .firstVfOffset | .vfStride => if fn = 0 then 1 else 0
  | .supportedPageSizes => if fn = 0 then 0x1F else 0
  | .systemPageSize => if fn = 0 then (linkOf d l).sysPage else 0
  | .ariHierarchy => if fn = 0 then b2n (linkOf d l).ari else 0
  | .relaxedOrdering => b2n (fnOf d l fn).relaxed
  | .errSeverityFatal => b2n (fnOf d l fn).sevFatal
  | .aerStatus => (fnOf d l fn).aer
  | .serialLow => if fn = 0 then deviceSerial d.fuse.serial % 2 ^ 32 else 0
  | .serialHigh => if fn = 0 then deviceSerial d.fuse.serial / 2 ^ 32 % 2 ^ 32 else 0
  | .maxPayload => (fnOf d l fn).maxPayload
  | .maxReadRequest => (fnOf d l fn).maxRead
  | .aspmL1 => b2n (linkOf d l).aspm
  | .bar2Word off _ => tableRead d l fn off

/-- The message of a vector is sent where its PBA bit waits, the vector is not masked and IDE lets it out (R57, R64). -/
def msixPending (l fn v : Nat) (d : Dev) : Dev :=
  let m := smapGet msixReset (fnOf d l fn).msix v
  if m.pba && !m.masked && ideOpen d l fn then
    let d := modMsix d l fn v (fun m => { m with pba := false })
    if stopped d.sys.mode || d.sys.mode = .holdup then d else emit (.msix l fn v m.addr m.data) d
  else d

/-- A write of a word of BAR2/3 (R53, R57); the PBA is read-only. -/
def tableWrite (l fn off x : Nat) (d : Dev) : Dev :=
  let v := off / 16
  let x := x % 2 ^ 32
  if msixCount fn ≤ v then d
  else match off / 4 % 4 with
    | 0 => modMsix d l fn v (fun m => { m with addr := m.addr / 2 ^ 32 * 2 ^ 32 + x })
    | 1 => modMsix d l fn v (fun m => { m with addr := x * 2 ^ 32 + m.addr % 2 ^ 32 })
    | 2 => modMsix d l fn v (fun m => { m with data := x })
    | _ => msixPending l fn v (modMsix d l fn v (fun m => { m with masked := bit x 0 }))

/-- A write of a configuration register; the identities and capabilities are read-only. -/
def cfgWrite (l fn : Nat) (reg : CfgReg) (v : Nat) (d : Dev) : Dev :=
  match reg with
  | .barLow n => barWrite l fn n v d
  | .systemPageSize => if fn = 0 && [1, 2, 4, 8, 16].contains v then modLink d l (fun k => { k with sysPage := v }) else d
  | .ariHierarchy => if fn = 0 then modLink d l (fun k => { k with ari := bit v 0 }) else d
  | .relaxedOrdering => modFn d l fn (fun f => { f with relaxed := bit v 0 })
  | .errSeverityFatal => modFn d l fn (fun f => { f with sevFatal := bit v 0 })
  | .aerStatus => modFn d l fn (fun f => { f with aer := f.aer - Nat.land f.aer v })
  | .maxPayload => if [128, 256, 512].contains v then modFn d l fn (fun f => { f with maxPayload := v }) else d
  | .maxReadRequest => if [128, 256, 512, 1024, 2048, 4096].contains v then modFn d l fn (fun f => { f with maxRead := v }) else d
  | .aspmL1 => if fn = 0 then modLink d l (fun k => { k with aspm := bit v 0 }) else d
  | .bar2Word off _ => tableWrite l fn off v d
  | .vendorId | .deviceId | .vfDeviceId | .revisionId | .classCode | .subsystemVendor | .subsystemId | .totalVfs | .initialVfs | .firstVfOffset
  | .vfStride | .supportedPageSizes | .serialLow | .serialHigh => d

/-- Whether a function of a link answers. -/
def fnResponds (d : Dev) (l fn : Nat) : Bool := l < 2 && (fn = 0 || vfResponds d l fn)

/-- How a memory request to BAR2/3 ends: Unsupported Request where it arrives on no Secure stream (R64), no effect once the device has
stopped (R69), or as the table gives. -/
def tableAccess (l fn off : Nat) (stream : Option Nat) (write : Bool) (v : Nat) (d : Dev) : Dev :=
  if !(ideArrives d l stream) then (if write then d else emit .unsupported d)
  else if stopped d.sys.mode then (if write then d else emit (.cfgValue (if fn = 0 then tableRead d l fn off else 0)) d)
  else if write then tableWrite l fn off v d
  else emit (.cfgValue (tableRead d l fn off)) d

/-- A request that a function answers: of configuration space, or of its BAR2/3. -/
def cfgAnswer (l fn : Nat) (write : Bool) (reg : CfgReg) (val : Nat) (d : Dev) : Dev :=
  match reg with
  | .bar2Word off stream => tableAccess l fn off stream write val d
  | reg => if write then emit (.cfgValue 0) (cfgWrite l fn reg val d) else emit (.cfgValue (cfgRead d l fn reg)) d

/-- CONFIG_REQUEST (R52-R54, R57, R67): a read or write of a configuration register, or of the MSI-X table and PBA. -/
def execConfigRequest (link : Nat) (fn : Nat) (write : Bool) (reg : CfgReg) (val : Nat) (s : State) : Host.Outcome State Fault Refusal :=
  runTlp link s fun d =>
    match cfgServe d link with
    | .none => emit .cfgNone d
    | .retry => emit .cfgRetry d
    | .serve =>
      if !(fnResponds d link fn) then emit .cfgNone d
      else cfgAnswer link fn write reg val d

/-- MSIX_UNMASK (R57): a memory write of a vector's control word unmasks it, and the message that waited goes out; it is dropped where it
arrives on no Secure stream (R64) and once the device has stopped (R69). -/
def execMsixUnmask (link : Nat) (fn : Nat) (vec : Nat) (s : State) (stream : Option Nat := none) : Host.Outcome State Fault Refusal :=
  runTlp link s fun d =>
    if cfgServe d link = .serve && fnResponds d link fn && vec < msixCount fn then
      tableAccess link fn (16 * vec + 12) stream true 0 d
    else d

/-! ## IDE (R62, R63) -/

/-- A stream that IDE_KM has not programmed. -/
def ideReset (_ : Nat) : IdeStream := ⟨false, none, 0, 0, []⟩

/-- A stream of a link. -/
def ideOf (d : Dev) (l s : Nat) : IdeStream := smapGet ideReset (linkOf d l).ide s

/-- Changes a stream. -/
def modIde (l s : Nat) (f : IdeStream → IdeStream) (d : Dev) : Dev :=
  modLink d l (fun k => { k with ide := smapSet ideReset k.ide s (f (smapGet ideReset k.ide s)) })

/-- IDE_CHECK_FAIL (R63): the stream leaves the Secure state, and its keys are cleared. -/
def execIdeCheckFail (link : Nat) (stream : Nat) (s : State) : Host.Outcome State Fault Refusal :=
  runTlp link s fun d =>
    if link < 2 && stream < 5 && dieOn d.sys.mode && (ideOf d link stream).secure then
      let d := modIde link stream (fun _ => ideReset stream) d
      let d := emit (.aerIde link) (modFn d link 0 (fun f => { f with aer := Nat.lor f.aer 1 }))
      record 0x0501 (payBytes 8 [link, stream]) (raiseEv pgHOST 5 d)
    else d

/-! ## DOE and SPDM (R58-R62, R348) -/

/-- Codes of the SPDM ERROR response. -/
def spINVALID := 0x01
def spBUSY := 0x03
def spUNEXPECTED := 0x04
def spDECRYPT := 0x06
def spUNSUPPORTED := 0x07
def spLIMIT := 0x0A
def spVERSION := 0x41

/-- A response leaves the mailbox, and vector 3 is signalled (R57). -/
def doeAnswer (l : Nat) (r : SpdmResp) (d : Dev) : Dev :=
  msixSend l 0 3 (emit (.doe l r) (modLink d l (fun k => { k with doeReq := none, doeResp := true })))

/-- The three protocols of the mailbox: Discovery, CMA/SPDM, Secured CMA/SPDM. -/
def doeDiscovery (i : Nat) : SpdmResp :=
  if i < 3 then .discovery i 0x0001 i (if i = 2 then 0 else i + 1) else .discovery i 0xFFFF 0 0

/-- The greatest data object of the mailbox in DW (R58). -/
def doeMax : Nat := 16384

/-- Least length of a request's data object in DW: the header of two, the message header, and the strings it carries. -/
def doeLen (r : SpdmReq) : Nat :=
  3 + ((match r with
    | .challenge _ n => n.length
    | .getMeasurements _ _ n => n.length
    | .keyExchange _ p => p.length
    | .ideKeyProg _ _ k => k.length
    | _ => 0) + 3) / 4

/-- DOE_REQUEST (R58): Discovery is answered at once; an SPDM request waits for the responder and raises DOE_REQ. A response not yet
taken is discarded; an object larger than the mailbox takes is no request. -/
def execDoeRequest (link : Nat) (req : SpdmReq) (s : State) : Host.Outcome State Fault Refusal :=
  runTlp link s fun d =>
    if cfgServe d link ≠ .serve || 2 ≤ link || d.sys.mode = .romBoot || d.sys.mode = .halted || doeMax < doeLen req then d
    else match req with
      | .discovery i => doeAnswer link (doeDiscovery i) d
      | r => monRefresh (raiseEv pgHOST 6 (modLink d link (fun k => { k with doeReq := some r, doeResp := false })))

/-- DOE_ABORT (R58). -/
def execDoeAbort (link : Nat) (s : State) : Host.Outcome State Fault Refusal :=
  runTlp link s fun d =>
    if cfgServe d link = .serve && link < 2 then modLink d link (fun k => { k with doeReq := none, doeResp := false }) else d

/-- The capability flags of R59, at the places of DSP0274. -/
def spdmFlags : Nat :=
  [1, 2, 4, 5, 6, 7, 8, 9, 13, 14, 17].foldl (fun v n => v + 2 ^ n) 0

/-- Measurement block n (R61). -/
def measBlock (d : Dev) (n : Nat) : Bytes :=
  match n with
  | 1 => (List.range 48).map Config.romMeasByte ++ leBytes 2 (regGet d pgSYS Reg.SYS_ROM_VER_MAJOR.off)
  | 2 => fwMeas d
  | 3 => leBytes 1 (fld d pgSYS Reg.SYS_FW_SVN_RUN_SVN)
  | 4 => leBytes 1 (lcIdx d.sys.lc)
  | 5 => leBytes 1 (dbgEnables d + 16 * b2n d.sys.taint)
  | 6 => leBytes 2 0x0001 ++ leBytes 2 d.fuse.tampOff
  | _ => leBytes 4 (regGet d pgHOST Reg.HOST_CFG_VF_SPLIT.off)

/-- The chain of slot 0 or 1. -/
def chainOf (d : Dev) (slot : Nat) : Option Bytes :=
  if slot = 0 then some ((List.range (Config.chainLen (leafScalar d))).map (Config.chainByte (leafScalar d)))
  else if slot = 1 then d.host.ownerChain else none

/-- A session of a link. -/
def sessOf (d : Dev) (l id : Nat) : Option SpdmSess := (linkOf d l).sessions.find? (fun x => x.id = id)

/-- Changes a session. -/
def modSess (l id : Nat) (f : SpdmSess → SpdmSess) (d : Dev) : Dev :=
  modLink d l (fun k => { k with sessions := k.sessions.map (fun x => if x.id = id then f x else x) })

/-- Ends a session. -/
def dropSess (l id : Nat) (d : Dev) : Dev := modLink d l (fun k => { k with sessions := k.sessions.filter (fun x => x.id ≠ id) })

/-- Whether a request runs in a session whose handshake has finished. -/
def sessLive (d : Dev) (l id : Nat) : Bool := ((sessOf d l id).map (·.live)).getD false

/-- The responder's signature: ECDSA P-384 with SHA-384 of the leaf key over the transcript (R59, R60). -/
def spdmSign (l : Nat) (d : Dev) : Bytes := leafSign d (Config.spdmTranscript l d.now)

/-- The part of a certificate chain that a response carries: within the mailbox's largest object, past its two headers of 8 bytes. -/
def certPart (c : Bytes) (off len : Nat) : Bytes := slice c off (min (min len (4 * doeMax - 16)) (c.length - off))

/-- KEY_EXCHANGE: a fresh scalar, the shared secret, a session number not in use. -/
def spdmExchange (l slot : Nat) (pub : Bytes) (d : Dev) : SpdmResp × Dev :=
  match (List.range 4).find? (fun n => (sessOf d l (n + 1)).isNone) with
  | none => (.error spLIMIT, d)
  | some n =>
    if (chainOf d slot).isNone then (.error spINVALID, d)
    else match drawHomeless 48 d with
      | (none, d) => (.error spBUSY, d)
      | (some b, d) =>
        let k := 1 + beNat b % (p384.n - 1)
        match xportEcdh k pub with
        | none => (.error spINVALID, d)
        | some z =>
          (.keyExchangeRsp (n + 1) (ecEncode p384 (ecPub p384 k)) (spdmSign l d) (Config.spdmMutual l d.now),
           modLink d l (fun x => { x with sessions := x.sessions ++ [⟨n + 1, false, z, 0, Config.spdmMutual l d.now, none⟩] }))

/-- What IDE withheld on a link, and no longer does, goes out: reads and messages (R64). -/
def ideResume (l : Nat) (d : Dev) : Dev :=
  let d := pumpReads l d
  let waits := (d.host.fns.filter (fun f => f.1 / 2048 = l)).map (fun f => (f.1 % 2048, f.2.msix.map (·.1)))
  waits.foldl (fun d f => f.2.foldl (fun d v => msixPending l f.1 v d) d) d

/-- IDE_KM within a live session (R62). -/
def ideKm (l id stream : Nat) (ok : IdeStream → Bool) (f : IdeStream → IdeStream) (ack : SpdmResp) (d : Dev) : SpdmResp × Dev :=
  if !(sessLive d l id) || 5 ≤ stream then (.error spUNEXPECTED, d)
  else if !(ok (ideOf d l stream)) then (.error spINVALID, d)
  else (ack, modIde l stream f d)

/-- Whether a mode answers a request: everything from SERVICE on, measurements and what leads to them in ZEROISED (R68). -/
def spdmServes (m : Mode) : SpdmReq → Bool
  | .getVersion | .getCapabilities _ _ | .negotiate _ _ _ _ | .getMeasurements _ _ _ => m ≠ .holdup
  | .chunkLast _ _ r => spdmServes m r
  | _ => m ≠ .holdup && m ≠ .zeroised

/-- One message of the responder, in a mode that answers it. -/
def spdmOne (l : Nat) (r : SpdmReq) (d : Dev) : SpdmResp × Dev :=
  let k := linkOf d l
  match r with
  | .discovery i => (doeDiscovery i, d)
  | .getVersion => (.version [0x12, 0x13], modLink d l (fun k => { k with spdmVer := 0, spdmAlg := false }))
  | .getCapabilities v size =>
    if v < 0x12 then (.error spVERSION, d)
    else
      let v := min v 0x13
      (.capabilities v spdmFlags, modLink d l (fun k => { k with spdmVer := v, spdmAlg := false, xfer := size }))
  | .negotiate a b c e =>
    if k.spdmVer = 0 then (.error spUNEXPECTED, d)
    else if a && b && c && e then (.algorithms, modLink d l (fun k => { k with spdmAlg := true })) else (.error spINVALID, d)
  | .psk | .unknown _ => (.error spUNSUPPORTED, d)
  | r =>
    if !k.spdmAlg then (.error spUNEXPECTED, d)
    else match r with
      | .getDigests => (.digests (1 + 2 * b2n (chainOf d 1).isSome), d)
      | .getCertificate slot off len => match chainOf d slot with
        | some c => if off < c.length then (.certificate slot (certPart c off len), d) else (.error spINVALID, d)
        | none => (.error spINVALID, d)
      | .challenge slot nonce =>
        if (chainOf d slot).isSome then (.challengeAuth slot nonce (spdmSign l d), d) else (.error spINVALID, d)
      | .getMeasurements i sign nonce =>
        let sig := if sign then some (spdmSign l d) else none
        if i = 0 then (.measurements [] nonce sig, d)
        else if i = 0xFF then (.measurements ((List.range 7).map (fun n => (n + 1, measBlock d (n + 1)))) nonce sig, d)
        else if i ≤ 7 then (.measurements [(i, measBlock d i)] nonce sig, d) else (.error spINVALID, d)
      | .keyExchange slot pub => spdmExchange l slot pub d
      | .finish id ok =>
        if ((sessOf d l id).map (fun x => !x.live && (!x.bothWays || x.peer.isSome))).getD false then
          (if ok then (.finishRsp, modSess l id (fun x => { x with live := true }) d) else (.error spDECRYPT, dropSess l id d))
        else (.error spUNEXPECTED, d)
      | .encapsulated id cert =>
        if ((sessOf d l id).map (fun x => !x.live && x.bothWays)).getD false then
          (.encapsulatedAck, modSess l id (fun x => { x with peer := some cert }) d)
        else (.error spUNEXPECTED, d)
      | .heartbeat id => if sessLive d l id then (.heartbeatAck, d) else (.error spUNEXPECTED, d)
      | .keyUpdate id =>
        if sessLive d l id then (.keyUpdateAck, modSess l id (fun x => { x with updates := x.updates + 1 }) d) else (.error spUNEXPECTED, d)
      | .badRecord id => if (sessOf d l id).isSome then (.error spDECRYPT, dropSess l id d) else (.error spUNEXPECTED, d)
      | .endSession id => if sessLive d l id then (.endSessionAck, dropSess l id d) else (.error spUNEXPECTED, d)
      | .ideKeyProg id st key =>
        ideKm l id st (fun _ => key.length = 32) (fun x => { x with key := some key }) (.ideKeyAck st) d
      | .ideSetGo id st lo hi blocks =>
        let r := ideKm l id st (fun x => x.key.isSome && blocks.length ≤ 2)
          (fun x => { x with secure := true, ridLo := lo, ridHi := hi, blocks := blocks }) (.ideGoAck st) d
        (r.1, ideResume l r.2)
      | .ideSetStop id st => ideKm l id st (fun _ => true) (fun _ => ideReset st) (.ideStopAck st) d
      | .ideQuery id =>
        if sessLive d l id then (.ideStatus ((List.range 5).filter (fun s => (ideOf d l s).secure)), d) else (.error spUNEXPECTED, d)
      | _ => (.error spUNSUPPORTED, d)

/-- Least length of a response: its headers and the strings it carries. -/
def respLen : SpdmResp → Nat
  | .certificate _ b => 8 + b.length
  | .challengeAuth _ _ s => 84 + s.length
  | .measurements l n s => 8 + (l.map (fun x => 7 + x.2.length)).sum + n.length + ((s.map (·.length)).getD 0)
  | .keyExchangeRsp _ p s _ => 40 + p.length + s.length
  | _ => 8

/-- A message of the responder, whole or in chunks (R59): a request may arrive in chunks, and a response longer than the requester's data
transfer size leaves in chunks that the requester asks for. -/
def spdmRun (l : Nat) (r : SpdmReq) (d : Dev) : SpdmResp × Dev :=
  let k := linkOf d l
  match r with
  | .chunkPart h n =>
    if n = 0 || k.chunkIn = some (h, n) then (.chunkAck h n, modLink d l (fun k => { k with chunkIn := some (h, n + 1) }))
    else (.error spINVALID, modLink d l (fun k => { k with chunkIn := none }))
  | .chunkLast h n r =>
    let d := modLink d l (fun k => { k with chunkIn := none })
    if n = 0 || k.chunkIn ≠ some (h, n) then (.error spINVALID, d)
    else let x := spdmOne l r d; (.chunkDone h n x.1, x.2)
  | .chunkGet h n => match k.chunkOut with
    | some (h', m, x) =>
      if h ≠ h' || n ≠ m then (.error spINVALID, modLink d l (fun k => { k with chunkOut := none }))
      else if respLen x ≤ (n + 1) * k.xfer then (.chunkEnd h n x, modLink d l (fun k => { k with chunkOut := none }))
      else (.chunk h n, modLink d l (fun k => { k with chunkOut := some (h, m + 1, x) }))
    | none => (.error spUNEXPECTED, d)
  | r =>
    let x := spdmOne l r (modLink d l (fun k => { k with chunkIn := none, chunkOut := none }))
    if (linkOf x.2 l).xfer = 0 || respLen x.1 ≤ (linkOf x.2 l).xfer then x
    else (.largeResponse k.nextLarge,
      modLink x.2 l (fun y => { y with chunkOut := some (k.nextLarge, 0, x.1), nextLarge := (k.nextLarge + 1) % 256 }))

/-- The responder takes the request of a link. -/
def spdmGo (l : Nat) (r : SpdmReq) (d : Dev) : Dev :=
  if d.sys.mode = .startup then doeAnswer l (.error spBUSY) d
  else if !(spdmServes d.sys.mode r) then doeAnswer l (.error spUNEXPECTED) d
  else let x := spdmRun l r d; doeAnswer l x.1 x.2

/-- Whether the responder is called: while firmware runs, by the trap that source 258 brings to the boot core, as MON, EN and TARGET let it
(R348, R355); before that the boot ROM answers (R68). -/
def doeTrap (d : Dev) : Bool :=
  let cfg := srcCfg d 258
  d.sys.stage ≠ .firmware || (bit cfg 13 && bit cfg 15 && bit cfg 16 && srcPending d 258 && (hartOf d 0).run = .running)

/-- SPDM_REQUEST (R348): the monitor handles one message, of link A before link B, and clears DOE_REQ unless another waits. -/
def execSpdmRequest (s : State) : Host.Outcome State Fault Refusal :=
  runDev s fun d =>
    if !(dieOn d.sys.mode) || d.sys.mode = .romBoot || d.sys.mode = .drowse || d.sys.mode = .holdup || d.sys.mode = .halted || !(doeTrap d) then d
    else match d.host.a.doeReq, d.host.b.doeReq with
      | none, none => d
      | x, y =>
        let d := modHdr d pgHOST (fun h => { h with irqStat := setBit h.irqStat 6 (x.isSome && y.isSome) })
        match x, y with
        | some r, _ => monRefresh (spdmGo 0 r d)
        | none, some r => monRefresh (spdmGo 1 r d)
        | none, none => d

/-! ## SMBus (R72, R73) -/

/-- Whether the SMBus path answers: P3V3_AUX is good, outside OFF and VIGIL. -/
def smbServes (d : Dev) : Bool := d.sup.auxGood && dieOn d.sys.mode

/-- A sensor's reading; of the two that measure, what they measure. -/
def smbSensor (d : Dev) (id : Nat) (val : Int) : Option Int :=
  match id with
  | 1 => some val
  | 2 => some (val.toNat : Nat)
  | 3 => some (modeCode d.sys.mode : Nat)
  | 4 => some (lcIdx d.sys.lc : Nat)
  | 5 => some (if d.wear.wearEnd then 2 else b2n d.wear.holdMargin : Nat)
  | 6 => some (b2n d.host.a.up + 2 * b2n d.host.b.up : Nat)
  | _ => none

/-- SMBUS_REQUEST (R72): the SMBus listens at the address in HOST_SMB_ADDR. -/
def execSmbusRequest (msg : SmbMsg) (s : State) : Host.Outcome State Fault Refusal :=
  runDev s fun d =>
    if !(smbServes d) || msg.addr ≠ fld d pgHOST Reg.HOST_SMB_ADDR_ADDR then d
    else match msg.req with
      | .setEid e => emit (.smb 0) { d with host := { d.host with eid := e % 256 } }
      | .eventConfig on => emit (.smb 0) { d with host := { d.host with pldmEvents := on } }
      | .sensor id val => match smbSensor d id val with
        | some v => emit (.smb v) (if id = 2 then { d with sup := { d.sup with inputPower := min 65535 (100 * val.toNat) } } else d)
        | none => emit .smbRefused d
      | .other => emit .smbRefused d

/-- ALERT_RESPONSE_READ (R73). -/
def execAlertResponseRead (s : State) : Host.Outcome State Fault Refusal :=
  runDev s fun d =>
    if smbServes d && d.host.alert && !(stopped d.sys.mode) then emit (.alertN false) { d with host := { d.host with alert := false } }
    else d

end Sys2Proof.Machine
end

