-- ==== Sys2Proof/Machine/OfcRows.lean ====
section
/-! DEFINITION. The commands of the officer block: one meaning for each row (R303-R325). -/

namespace Sys2Proof.Machine

/-- ENROL (R304). -/
def execEnrol (a : Access) (val : Nat) (s : State) : Host.Outcome State Fault Refusal := runAcc a s fun a => (ofcRow a 1 val)

/-- REVOKE (R305). -/
def execRevoke (a : Access) (val : Nat) (s : State) : Host.Outcome State Fault Refusal := runAcc a s fun a => (ofcRow a 2 val)

/-- SET_CLASS (R306). -/
def execSetClass (a : Access) (val : Nat) (s : State) : Host.Outcome State Fault Refusal := runAcc a s fun a => (ofcRow a 3 val)

/-- SET_INST_CLASS (R307). -/
def execSetInstClass (a : Access) (val : Nat) (s : State) : Host.Outcome State Fault Refusal := runAcc a s fun a => (ofcRow a 4 val)

/-- UNLOCK (R320). -/
def execUnlock (a : Access) (val : Nat) (s : State) : Host.Outcome State Fault Refusal := runAcc a s fun a => (ofcRow a 5 val)

/-- CER_ENTER: the drain toward CEREMONY begins (R322). -/
def execCerEnter (a : Access) (val : Nat) (s : State) : Host.Outcome State Fault Refusal := runAcc a s fun a => (ofcRow a 6 val)

/-- CER_EXIT (R322). -/
def execCerExit (a : Access) (val : Nat) (s : State) : Host.Outcome State Fault Refusal := runAcc a s fun a => (ofcRow a 7 val)

/-- CHALLENGE for secure firmware (R309, R323). -/
def execChallenge (a : Access) (val : Nat) (s : State) : Host.Outcome State Fault Refusal := runAcc a s fun a => (ofcRow a 8 val)

/-- PIN: VERIFY is passed to a card (R317, R323). -/
def execPin (a : Access) (val : Nat) (s : State) : Host.Outcome State Fault Refusal := runAcc a s fun a => (ofcRow a 9 val)

/-- CEREMONY_ENTERED: the drain of CER_ENTER has ended (R322). -/
def execCeremonyEntered (s : State) : Host.Outcome State Fault Refusal :=
  runDev s fun d =>
    match d.ofc.op with
    | some (.cerEnter t) =>
      if d.sys.mode = .service && !(drainBusy d) then
        let d := mgrAbort mgMODE (enterMode .ceremony { d with sys := { d.sys with draining := none } })
        let d := record 0x0303 (payBytes 8 [1, 1]) (modOfc (fun o => { o with cerAt := some d.now }) d)
        ofcEnd stOK 0 t.toList (raiseEv pgOFC 7 d)
      else d
    | _ => d

/-- CER_TIMEOUT: CER_TIMEOUT minutes after entry CEREMONY is left (R322). -/
def execCerTimeout (s : State) : Host.Outcome State Fault Refusal :=
  runDev s fun d =>
    match d.ofc.cerAt with
    | some t =>
      let mins := fld d pgOFC Reg.OFC_CFG_CER_TIMEOUT
      if d.sys.mode = .ceremony && mins ≠ 0 then cerLeave 3 (waitUntil (t + mins * 60000000000) d) else d
    | none => d

/-- CHALLENGE_EXPIRE: NOT_AFTER of a challenge passes and it ends; one that a command holds stays for that command alone (R311, R315). -/
def execChallengeExpire (id : Nat) (s : State) : Host.Outcome State Fault Refusal :=
  runDev s fun d =>
    match chalOf d id with
    | some c => endChals (fun x => x.id = id) (waitUntil (timeOfStamp d c.notAfter) d)
    | none => d

/-- LOCKOUT_EXPIRE: the time of a lockout passes (R320). -/
def execLockoutExpire (officer : Nat) (s : State) : Host.Outcome State Fault Refusal :=
  runDev s fun d =>
    let o := officerOf d officer
    if officer < 64 && o.run = .locked then cardsNext (officerUnlock officer (waitUntil (timeOfStamp d o.lockEnd) d)) else d

/-- CARD_INSERT: the presence contact closes and activation begins; where the card is there already and activating, its ATR
arrives (R316, R325). -/
def execCardInsert (slot : Nat) (atr : Option Bytes) (s : State) : Host.Outcome State Fault Refusal :=
  runDev s fun d =>
    if 2 ≤ slot || !(dieOn d.sys.mode) then d
    else if (cardOf d slot).present then
      match atr with
      | some b => if (cardOf d slot).wait = .atr then cardAtr slot b d else d
      | none => d
    else
      let d := raiseEv pgOFC 1 (modCard slot (fun _ => { cardReset 0 with present := true }) d)
      if !(cardServes d slot) then d
      else match atr with
        | some b => cardAtr slot b (cardOn slot true d)
        | none => cardOn slot true d

/-- CARD_REMOVE: an exchange in progress is abandoned (R316, R319). -/
def execCardRemove (slot : Nat) (s : State) : Host.Outcome State Fault Refusal :=
  runDev s fun d =>
    if slot < 2 && (cardOf d slot).present then
      ofcLost slot (raiseEv pgOFC 2 (modCard slot (fun _ => cardReset 0) (cardOff slot d)))
    else d

/-- CARD_FAULT: a card that draws more than 50 mA is deactivated (R316, R319). -/
def execCardFault (slot : Nat) (s : State) : Host.Outcome State Fault Refusal :=
  runDev s fun d =>
    if slot < 2 && (cardOf d slot).run ≠ .inactive then
      ofcLost slot (raiseEv pgOFC 6 (cardFaulty slot (cardOff slot d)))
    else d

/-- ATR_TIMEOUT: no ATR in class C gives a second activation in class B; none there leaves the card deactivated (R316). -/
def execAtrTimeout (slot : Nat) (s : State) : Host.Outcome State Fault Refusal :=
  runDev s fun d =>
    let c := cardOf d slot
    if slot < 2 && c.wait = .atr then
      if c.classB then ofcLost slot (cardFaulty slot (cardOff slot d))
      else emit (.cardPower slot true) (modCard slot (fun c => { c with classB := true }) d)
    else d

/-- CARD_RESPONSE: what a card answers to the exchange in progress (R304, R317-R320). -/
def execCardResponse (slot : Nat) (ans : CardAnswer) (s : State) : Host.Outcome State Fault Refusal :=
  runDev s fun d =>
    if 2 ≤ slot || (cardOf d slot).run = .inactive then d
    else match (cardOf d slot).wait, ans with
      | .identity, .identity _ pk => cardIdentify slot pk d
      | .ifs, .ifs n => if n = 254 then cardSelect slot (modCard slot (fun c => { c with ifsd := 254 }) d) else d
      | .select, .status sw => cardSelected slot sw d
      | .sign id, .signature sig => cardSigned slot id sig d
      | .enrolId, .identity alg pk => enrolIdentity slot alg pk d
      | .enrolSign, .signature sig => enrolSigned slot sig d
      | .pin, .status sw => pinAnswered slot sw d
      | w, .status _ => cardRefused slot w d
      | _, _ => d

end Sys2Proof.Machine
end

