-- ==== Sys2Proof/Machine/Dispatch.lean ====
section
/-! DEFINITION. The meaning of each command, one arm a row of the table of commands. -/

namespace Sys2Proof.Machine

/-- The effect of a command on everything but the queue. -/
def exec (i : Instr) (s : State) : Host.Outcome State Fault Refusal :=
  match i with
  | .coldReset parts => Sys2Proof.Machine.execColdReset parts s
  | .loaderHandshake a image => Sys2Proof.Machine.execLoaderHandshake a image s
  | .romTransitionService a req => Sys2Proof.Machine.execRomTransitionService a req s
  | .holdupDetect p12vMv pwrFail reach => Sys2Proof.Machine.execHoldupDetect p12vMv pwrFail reach s
  | .lanternPowerLoss => Sys2Proof.Machine.execLanternPowerLoss s
  | .lanternSupplyChange p12vMv auxMv vbatMv cellMv pwrFail => Sys2Proof.Machine.execLanternSupplyChange p12vMv auxMv vbatMv cellMv pwrFail s
  | .hostReset => Sys2Proof.Machine.execHostReset s
  | .linkTraining link => Sys2Proof.Machine.execLinkTraining link s
  | .linkUp link info => Sys2Proof.Machine.execLinkUp link info s
  | .linkDown link => Sys2Proof.Machine.execLinkDown link s
  | .usb4Attach rate80 retrains => Sys2Proof.Machine.execUsb4Attach rate80 retrains s
  | .usb4Detach => Sys2Proof.Machine.execUsb4Detach s
  | .functionLevelReset link vf => Sys2Proof.Machine.execFunctionLevelReset link vf s
  | .vfEnableChange link enable numVfs => Sys2Proof.Machine.execVfEnableChange link enable numVfs s
  | .configRequest link fn write reg val => Sys2Proof.Machine.execConfigRequest link fn write reg val s
  | .ideCheckFail link stream => Sys2Proof.Machine.execIdeCheckFail link stream s
  | .doeRequest link req => Sys2Proof.Machine.execDoeRequest link req s
  | .doeAbort link => Sys2Proof.Machine.execDoeAbort link s
  | .spdmRequest => Sys2Proof.Machine.execSpdmRequest s
  | .smbusRequest msg => Sys2Proof.Machine.execSmbusRequest msg s
  | .alertResponseRead => Sys2Proof.Machine.execAlertResponseRead s
  | .msixUnmask link fn vec stream => Sys2Proof.Machine.execMsixUnmask link fn vec s stream
  | .registerWrite a page off size val => Sys2Proof.Machine.execRegisterWrite a page off size val s
  | .softReset a page => Sys2Proof.Machine.execSoftReset a page s
  | .softResetComplete page => Sys2Proof.Machine.execSoftResetComplete page s
  | .pgPwrRequest a page val => Sys2Proof.Machine.execPgPwrRequest a page val s
  | .unitPowerDrained page => Sys2Proof.Machine.execUnitPowerDrained page s
  | .cmdEnable a => Sys2Proof.Machine.execCmdEnable a s
  | .mpeEnable a => Sys2Proof.Machine.execMpeEnable a s
  | .htEnable a => Sys2Proof.Machine.execHtEnable a s
  | .instEnable a inst => Sys2Proof.Machine.execInstEnable a inst s
  | .sqEnable a inst q val => Sys2Proof.Machine.execSqEnable a inst q val s
  | .sqDisable a inst q val => Sys2Proof.Machine.execSqDisable a inst q val s
  | .cqEnable a inst q val => Sys2Proof.Machine.execCqEnable a inst q val s
  | .cqDisable a inst q val => Sys2Proof.Machine.execCqDisable a inst q val s
  | .sqTailDoorbell inst q val stream => Sys2Proof.Machine.execSqTailDoorbell inst q val s stream
  | .cqHeadDoorbell inst q val stream => Sys2Proof.Machine.execCqHeadDoorbell inst q val s stream
  | .descriptorFetch inst q => Sys2Proof.Machine.execDescriptorFetch inst q s
  | .descriptorParse tag => Sys2Proof.Machine.execDescriptorParse tag s
  | .policyCheck tag err => Sys2Proof.Machine.execPolicyCheck tag s err
  | .routedEntryWrite tag => Sys2Proof.Machine.execRoutedEntryWrite tag s
  | .routedCompletion a tail => Sys2Proof.Machine.execRoutedCompletion a tail s
  | .routedTimeout tag => Sys2Proof.Machine.execRoutedTimeout tag s
  | .keyFetch tag err => Sys2Proof.Machine.execKeyFetch tag err s
  | .t0Load tag err => Sys2Proof.Machine.execT0Load tag s err
  | .t2DemandLoad tag dmg => Sys2Proof.Machine.execT2DemandLoad tag dmg s
  | .vaultRestoreRecord dmg => Sys2Proof.Machine.execVaultRestoreRecord dmg s
  | .vaultBatchClose => Sys2Proof.Machine.execVaultBatchClose s
  | .vaultBatchCommit cellFails steps err => Sys2Proof.Machine.execVaultBatchCommit cellFails s steps err
  | .usagePeriodDue rec => Sys2Proof.Machine.execUsagePeriodDue rec s
  | .usageResvRaise rec => Sys2Proof.Machine.execUsageResvRaise rec s
  | .nonceResvRaise rec => Sys2Proof.Machine.execNonceResvRaise rec s
  | .vaultEpochErase => Sys2Proof.Machine.execVaultEpochErase s
  | .derivedKeyFree rec => Sys2Proof.Machine.execDerivedKeyFree rec s
  | .egressRelease what => Sys2Proof.Machine.execEgressRelease what s
  | .cqCoalTimeout inst q => Sys2Proof.Machine.execCqCoalTimeout inst q s
  | .workRingTake cls idx => Sys2Proof.Machine.execWorkRingTake cls idx s
  | .xtsDataUnit tag lane chk err => Sys2Proof.Machine.execXtsDataUnit tag lane s chk err
  | .keyGenerateSym tag => Sys2Proof.Machine.execKeyGenerateSym tag s
  | .keyGeneratePair tag chk => Sys2Proof.Machine.execKeyGeneratePair tag chk s
  | .keyImportWrapped tag => Sys2Proof.Machine.execKeyImportWrapped tag s
  | .keyImportX9143 tag => Sys2Proof.Machine.execKeyImportX9143 tag s
  | .keyExportWrapped tag => Sys2Proof.Machine.execKeyExportWrapped tag s
  | .keyExportX9143 tag => Sys2Proof.Machine.execKeyExportX9143 tag s
  | .keyDerive tag => Sys2Proof.Machine.execKeyDerive tag s
  | .keyDestroy tag => Sys2Proof.Machine.execKeyDestroy tag s
  | .keyGetAttr tag => Sys2Proof.Machine.execKeyGetAttr tag s
  | .keySetAttr tag => Sys2Proof.Machine.execKeySetAttr tag s
  | .keyList tag => Sys2Proof.Machine.execKeyList tag s
  | .keyGrant tag => Sys2Proof.Machine.execKeyGrant tag s
  | .keyRevokeGrant tag => Sys2Proof.Machine.execKeyRevokeGrant tag s
  | .keyBackupExport tag => Sys2Proof.Machine.execKeyBackupExport tag s
  | .keyRestore tag => Sys2Proof.Machine.execKeyRestore tag s
  | .keyImportClear tag => Sys2Proof.Machine.execKeyImportClear tag s
  | .keyPublicExport tag chk => Sys2Proof.Machine.execKeyPublicExport tag s chk
  | .quorumChallenge tag => Sys2Proof.Machine.execQuorumChallenge tag s
  | .aesEcb tag chk => Sys2Proof.Machine.execAesEcb tag chk s
  | .aesCbc tag chk => Sys2Proof.Machine.execAesCbc tag chk s
  | .aesCtr tag chk => Sys2Proof.Machine.execAesCtr tag chk s
  | .aesGcm tag chk => Sys2Proof.Machine.execAesGcm tag chk s
  | .aesCcm tag chk => Sys2Proof.Machine.execAesCcm tag chk s
  | .aesXts tag chk => Sys2Proof.Machine.execAesXts tag chk s
  | .tdesEcb tag chk => Sys2Proof.Machine.execTdesEcb tag chk s
  | .tdesCbc tag chk => Sys2Proof.Machine.execTdesCbc tag chk s
  | .ctxSave tag chk => Sys2Proof.Machine.execCtxSave tag s chk
  | .ctxRestore tag chk => Sys2Proof.Machine.execCtxRestore tag s chk
  | .ecdsaSign tag chk => Sys2Proof.Machine.execEcdsaSign tag chk s
  | .ecdsaVerify tag chk => Sys2Proof.Machine.execEcdsaVerify tag s chk
  | .eddsaSign tag chk => Sys2Proof.Machine.execEddsaSign tag chk s
  | .eddsaVerify tag chk => Sys2Proof.Machine.execEddsaVerify tag s chk
  | .ecdhAgree tag chk => Sys2Proof.Machine.execEcdhAgree tag chk s
  | .rsaPrivate tag chk => Sys2Proof.Machine.execRsaPrivate tag chk s
  | .rsaPublic tag chk => Sys2Proof.Machine.execRsaPublic tag s chk
  | .mlkemEncap tag chk => Sys2Proof.Machine.execMlkemEncap tag chk s
  | .mlkemDecap tag chk => Sys2Proof.Machine.execMlkemDecap tag chk s
  | .mldsaSign tag chk => Sys2Proof.Machine.execMldsaSign tag chk s
  | .mldsaVerify tag chk => Sys2Proof.Machine.execMldsaVerify tag s chk
  | .slhdsaSign tag chk => Sys2Proof.Machine.execSlhdsaSign tag chk s
  | .slhdsaVerify tag chk => Sys2Proof.Machine.execSlhdsaVerify tag s chk
  | .hbsVerify tag chk => Sys2Proof.Machine.execHbsVerify tag s chk
  | .imageVerify tag chk => Sys2Proof.Machine.execImageVerify tag s chk
  | .hash tag chk => Sys2Proof.Machine.execHash tag chk s
  | .shake tag chk => Sys2Proof.Machine.execShake tag chk s
  | .hmac tag chk => Sys2Proof.Machine.execHmac tag chk s
  | .cmac tag chk => Sys2Proof.Machine.execCmac tag chk s
  | .gmac tag chk => Sys2Proof.Machine.execGmac tag chk s
  | .macVerify tag chk => Sys2Proof.Machine.execMacVerify tag chk s
  | .hkdf tag chk => Sys2Proof.Machine.execHkdf tag s chk
  | .kdfCtr tag chk => Sys2Proof.Machine.execKdfCtr tag s chk
  | .tls13KeySchedule tag chk => Sys2Proof.Machine.execTls13KeySchedule tag s chk
  | .randomBytes tag => Sys2Proof.Machine.execRandomBytes tag s
  | .entropyStatus tag => Sys2Proof.Machine.execEntropyStatus tag s
  | .dukptDerive tag chk => Sys2Proof.Machine.execDukptDerive tag s chk
  | .pinTranslate tag chk => Sys2Proof.Machine.execPinTranslate tag s chk
  | .pinVerify tag chk => Sys2Proof.Machine.execPinVerify tag s chk
  | .cvvGenerate tag chk => Sys2Proof.Machine.execCvvGenerate tag s chk
  | .cvvVerify tag chk => Sys2Proof.Machine.execCvvVerify tag s chk
  | .dataTranslate tag chk => Sys2Proof.Machine.execDataTranslate tag chk s
  | .ff1Encrypt tag chk => Sys2Proof.Machine.execFf1Encrypt tag s chk
  | .ff1Decrypt tag chk => Sys2Proof.Machine.execFf1Decrypt tag s chk
  | .tokenTranslate tag chk => Sys2Proof.Machine.execTokenTranslate tag s chk
  | .hotpGenerate tag chk => Sys2Proof.Machine.execHotpGenerate tag s chk
  | .hotpVerify tag chk => Sys2Proof.Machine.execHotpVerify tag s chk
  | .totpGenerate tag chk => Sys2Proof.Machine.execTotpGenerate tag s chk
  | .totpVerify tag chk => Sys2Proof.Machine.execTotpVerify tag s chk
  | .lockerTokenSign tag chk => Sys2Proof.Machine.execLockerTokenSign tag s chk
  | .pickupCodeIssue tag chk => Sys2Proof.Machine.execPickupCodeIssue tag s chk
  | .pickupCodeVerify tag chk => Sys2Proof.Machine.execPickupCodeVerify tag s chk
  | .firmwareRoutedOpcode tag => Sys2Proof.Machine.execFirmwareRoutedOpcode tag s
  | .symJobGo a lane val chk err => Sys2Proof.Machine.execSymJobGo a lane val chk s err
  | .hashJobGo a cluster val chk err => Sys2Proof.Machine.execHashJobGo a cluster val chk s err
  | .pkeJobGo a engine val chk err => Sys2Proof.Machine.execPkeJobGo a engine val chk s err
  | .jobDone cls idx chk err => Sys2Proof.Machine.execJobDone cls idx s chk err
  | .genRoot a steps => Sys2Proof.Machine.execGenRoot a s steps
  | .vaultSync a => Sys2Proof.Machine.execVaultSync a s
  | .t0Flush a => Sys2Proof.Machine.execT0Flush a s
  | .interconnectTransaction b => Sys2Proof.Machine.execInterconnectTransaction b s
  | .targetResetRetry tag => Sys2Proof.Machine.execTargetResetRetry tag s
  | .protectedRead b dmg => Sys2Proof.Machine.execProtectedRead b dmg s
  | .protectedWrite b tag => Sys2Proof.Machine.execProtectedWrite b tag s
  | .writeBufferDrain => Sys2Proof.Machine.execWriteBufferDrain s
  | .epochClose => Sys2Proof.Machine.execEpochClose s
  | .patrolScrub dmg => Sys2Proof.Machine.execPatrolScrub dmg s
  | .wellStart q katOk => Sys2Proof.Machine.execWellStart q katOk s
  | .startupTestDone q alternate samples => Sys2Proof.Machine.execStartupTestDone q alternate samples s
  | .continuousTestFail q alternate samples => Sys2Proof.Machine.execContinuousTestFail q alternate samples s
  | .sourceRetest q alternate => Sys2Proof.Machine.execSourceRetest q alternate s
  | .returnToPrimary q => Sys2Proof.Machine.execReturnToPrimary q s
  | .conditionedBlock q samples => Sys2Proof.Machine.execConditionedBlock q samples s
  | .drbgReseed d => Sys2Proof.Machine.execDrbgReseed d s
  | .drbgGenerate d => Sys2Proof.Machine.execDrbgGenerate d s
  | .hwRandomRead q n => Sys2Proof.Machine.execHwRandomRead q n s
  | .drbgSwDataRead a => Sys2Proof.Machine.execDrbgSwDataRead a s
  | .entEmptyClear a => Sys2Proof.Machine.execEntEmptyClear a s
  | .rawCapture a q val => Sys2Proof.Machine.execRawCapture a q val s
  | .capDone q samples => Sys2Proof.Machine.execCapDone q samples s
  | .patternSubstitution a q val => Sys2Proof.Machine.execPatternSubstitution a q val s
  | .stileIdent h => Sys2Proof.Machine.execStileIdent h s
  | .stileHas h fid => Sys2Proof.Machine.execStileHas h fid s
  | .unknownCall h fid => Sys2Proof.Machine.execUnknownCall h fid s
  | .hartWake h mask entry arg world => Sys2Proof.Machine.execHartWake h mask entry arg world s
  | .hartRetire h a0 => Sys2Proof.Machine.execHartRetire h a0 s
  | .hartQuery h => Sys2Proof.Machine.execHartQuery h s
  | .modeRequest h code => Sys2Proof.Machine.execModeRequest h code s
  | .deviceRestart h a0 parts => Sys2Proof.Machine.execDeviceRestart h a0 parts s
  | .fwInfo h => Sys2Proof.Machine.execFwInfo h s
  | .fwStage h addr len flashOk => Sys2Proof.Machine.execFwStage h addr len flashOk s
  | .fwConfirm h => Sys2Proof.Machine.execFwConfirm h s
  | .fwCommitSvn h fuseOk => Sys2Proof.Machine.execFwCommitSvn h fuseOk s
  | .fwKeyAdd h addr fuseOk => Sys2Proof.Machine.execFwKeyAdd h addr fuseOk s
  | .fwKeyRevoke h row => Sys2Proof.Machine.execFwKeyRevoke h row s
  | .worldSwitch h a1 a2 a3 ctx => Sys2Proof.Machine.execWorldSwitch h a1 a2 a3 ctx s
  | .nsEntry h mask entry arg => Sys2Proof.Machine.execNsEntry h mask entry arg s
  | .hostcfgSet h addr => Sys2Proof.Machine.execHostcfgSet h addr s
  | .debugNonce h addr => Sys2Proof.Machine.execDebugNonce h addr s
  | .debugCert h addr len => Sys2Proof.Machine.execDebugCert h addr len s
  | .secureIrqSwitch h ctx => Sys2Proof.Machine.execSecureIrqSwitch h ctx s
  | .watchdogKick h => Sys2Proof.Machine.execWatchdogKick h s
  | .watchdogTrip h => Sys2Proof.Machine.execWatchdogTrip h s
  | .doubleTrap h => Sys2Proof.Machine.execDoubleTrap h s
  | .faultArrival => Sys2Proof.Machine.execFaultArrival s
  | .faultHandlingDone cls => Sys2Proof.Machine.execFaultHandlingDone cls s
  | .irqcClaim a core => Sys2Proof.Machine.execIrqcClaim a core s
  | .irqcComplete a core id => Sys2Proof.Machine.execIrqcComplete a core id s
  | .irqcSwiSet a id => Sys2Proof.Machine.execIrqcSwiSet a id s
  | .gpioInputEdge levels => Sys2Proof.Machine.execGpioInputEdge levels s
  | .monitorSource src => Sys2Proof.Machine.execMonitorSource src s
  | .dmaStart a ch val host badAt => Sys2Proof.Machine.execDmaStart a ch val host badAt s
  | .dmaAbort a ch val => Sys2Proof.Machine.execDmaAbort a ch val s
  | .dmaReadbackDone ch host badAt => Sys2Proof.Machine.execDmaReadbackDone ch host badAt s
  | .gpioWrite a off val => Sys2Proof.Machine.execGpioWrite a off val s
  | .gpioWorldWrite a val => Sys2Proof.Machine.execGpioWorldWrite a val s
  | .assign a sel param => Sys2Proof.Machine.execAssign a sel param s
  | .setQuota a sel param => Sys2Proof.Machine.execSetQuota a sel param s
  | .quiesce a sel => Sys2Proof.Machine.execQuiesce a sel s
  | .quiesceDrained inst => Sys2Proof.Machine.execQuiesceDrained inst s
  | .resume a sel => Sys2Proof.Machine.execResume a sel s
  | .freeze a sel => Sys2Proof.Machine.execFreeze a sel s
  | .freezeDone inst => Sys2Proof.Machine.execFreezeDone inst s
  | .thaw a sel => Sys2Proof.Machine.execThaw a sel s
  | .reset a sel => Sys2Proof.Machine.execReset a sel s
  | .remove a sel => Sys2Proof.Machine.execRemove a sel s
  | .discard a sel => Sys2Proof.Machine.execDiscard a sel s
  | .xportOffer a sel param => Sys2Proof.Machine.execXportOffer a sel param s
  | .xportAccept a sel param input => Sys2Proof.Machine.execXportAccept a sel param input s
  | .xportComplete a sel param input => Sys2Proof.Machine.execXportComplete a sel param input s
  | .mgrExport a sel param input => Sys2Proof.Machine.execMgrExport a sel param input s
  | .mgrImport a sel param input again => Sys2Proof.Machine.execMgrImport a sel param input s again
  | .xportClose a param => Sys2Proof.Machine.execXportClose a param s
  | .xportSessionExpire id => Sys2Proof.Machine.execXportSessionExpire id s
  | .mgrMbSend a val => Sys2Proof.Machine.execMgrMbSend a val s
  | .mgrMbEmpty a val => Sys2Proof.Machine.execMgrMbEmpty a val s
  | .instMbSend a inst val => Sys2Proof.Machine.execInstMbSend a inst val s
  | .instMbEmpty a inst val => Sys2Proof.Machine.execInstMbEmpty a inst val s
  | .mgrEventRead a => Sys2Proof.Machine.execMgrEventRead a s
  | .enrol a val => Sys2Proof.Machine.execEnrol a val s
  | .revoke a val => Sys2Proof.Machine.execRevoke a val s
  | .setClass a val => Sys2Proof.Machine.execSetClass a val s
  | .setInstClass a val => Sys2Proof.Machine.execSetInstClass a val s
  | .unlock a val => Sys2Proof.Machine.execUnlock a val s
  | .cerEnter a val => Sys2Proof.Machine.execCerEnter a val s
  | .ceremonyEntered => Sys2Proof.Machine.execCeremonyEntered s
  | .cerExit a val => Sys2Proof.Machine.execCerExit a val s
  | .cerTimeout => Sys2Proof.Machine.execCerTimeout s
  | .challenge a val => Sys2Proof.Machine.execChallenge a val s
  | .pin a val => Sys2Proof.Machine.execPin a val s
  | .challengeExpire id => Sys2Proof.Machine.execChallengeExpire id s
  | .cardInsert slot atr => Sys2Proof.Machine.execCardInsert slot atr s
  | .cardRemove slot => Sys2Proof.Machine.execCardRemove slot s
  | .cardFault slot => Sys2Proof.Machine.execCardFault slot s
  | .cardResponse slot ans => Sys2Proof.Machine.execCardResponse slot ans s
  | .lockoutExpire officer => Sys2Proof.Machine.execLockoutExpire officer s
  | .transition a val => Sys2Proof.Machine.execTransition a val s
  | .tokenSet a val => Sys2Proof.Machine.execTokenSet a val s
  | .lcProgrammingDone => Sys2Proof.Machine.execLcProgrammingDone s
  | .clearGrant a => Sys2Proof.Machine.execClearGrant a s
  | .debugHaltRequest h => Sys2Proof.Machine.execDebugHaltRequest h s
  | .debugAccess write addr size val err => Sys2Proof.Machine.execDebugAccess write addr size val s err
  | .evrWriteGo a val => Sys2Proof.Machine.execEvrWriteGo a val s
  | .evrClearGo a val => Sys2Proof.Machine.execEvrClearGo a val s
  | .evrRdNext a => Sys2Proof.Machine.execEvrRdNext a s
  | .evrRdPrev a => Sys2Proof.Machine.execEvrRdPrev a s
  | .evrCursorSet a val => Sys2Proof.Machine.execEvrCursorSet a val s
  | .eventBufferWrite => Sys2Proof.Machine.execEventBufferWrite s
  | .tamperAlarm trips => Sys2Proof.Machine.execTamperAlarm trips s
  | .lanternSample r => Sys2Proof.Machine.execLanternSample r s
  | .tripHoldEnd src => Sys2Proof.Machine.execTripHoldEnd src s
  | .monfault src => Sys2Proof.Machine.execMonfault src s
  | .throttleEnd => Sys2Proof.Machine.execThrottleEnd s
  | .tamperFuseReq a mask => Sys2Proof.Machine.execTamperFuseReq a mask s
  | .loopArm a val refA refB => Sys2Proof.Machine.execLoopArm a val refA refB s
  | .quarterPowerRequest a val => Sys2Proof.Machine.execQuarterPowerRequest a val s
  | .quarterPowerDrained q => Sys2Proof.Machine.execQuarterPowerDrained q s
  | .drowseWake src => Sys2Proof.Machine.execDrowseWake src s
  | .wakeTimer => Sys2Proof.Machine.execWakeTimer s
  | .bankMeasurement => Sys2Proof.Machine.execBankMeasurement s
  | .measDone capUf esrMohm => Sys2Proof.Machine.execMeasDone capUf esrMohm s
  | .holdStale => Sys2Proof.Machine.execHoldStale s
  | .wearDailyUpdate used => Sys2Proof.Machine.execWearDailyUpdate used s
  | .lockLost pll => Sys2Proof.Machine.execLockLost pll s
  | .lineVerificationDone n => Sys2Proof.Machine.execLineVerificationDone n s
  | .hostReadCompletion tag data => Sys2Proof.Machine.execHostReadCompletion tag data s
  | .atrTimeout slot => Sys2Proof.Machine.execAtrTimeout slot s
  | .bankCharged mv => Sys2Proof.Machine.execBankCharged mv s
  | .tamperAlarmEnd src => Sys2Proof.Machine.execTamperAlarmEnd src s
  | .ceHourEnd => Sys2Proof.Machine.execCeHourEnd s
  | .resetWindowExpiry => Sys2Proof.Machine.execResetWindowExpiry s

end Sys2Proof.Machine
end

