-- ==== Sys2Proof/WellFormed.lean ====
section
/-! DEFINITION. Which commands are well formed: every operand within the range that the spec gives it (widths of R18, R19, R41, R48,
R77, R99, R108, R353, R368, R377). The meanings are total on every command; an ill-formed one stands for nothing that can be sent. -/

namespace Sys2Proof

/-- A view names one of the two links or one of the 1,024 instances (R42, R43). -/
def Via.wf : Via → Bool
  | .direct => true
  | .pf link stream => link < 2 && stream.all (fun n => decide (n < 5))
  | .vf inst stream => inst < 1024 && stream.all (fun n => decide (n < 5))

/-- An access carries one of the eight master classes and a 6-bit index (R368). -/
def Access.wf (a : Access) : Bool := masterOk a.cls a.idx && a.via.wf

/-- A transaction names a master and a 40-bit address (R14, R368), and carries as many bytes as its length, at most eight beats (R369). -/
def Bus.wf (b : Bus) : Bool := masterOk b.cls b.idx && b.addr < 2 ^ 40 && 0 < b.len && b.len ≤ 64 && (b.kind ≠ .write || b.data.length = b.len)
  && b.stream.all (fun n => decide (n < 5))

/-- Whether every operand of a command lies in its range. -/
def Instr.wf : Instr → Bool
  | .coldReset _ => true
  | .loaderHandshake a _ => a.wf
  | .romTransitionService a _ => a.wf
  | .holdupDetect p12vMv _ reach => p12vMv < 65536 && reach < 8
  | .lanternPowerLoss => true
  | .lanternSupplyChange p12vMv auxMv vbatMv cellMv _ => p12vMv < 65536 && auxMv < 65536 && vbatMv < 65536 && cellMv < 65536
  | .hostReset => true
  | .linkTraining link => link < 2
  | .linkUp link _ => link < 2
  | .linkDown link => link < 2
  | .usb4Attach _ retrains => retrains < 65536
  | .usb4Detach => true
  | .functionLevelReset link _ => link < 2
  | .vfEnableChange link _ numVfs => link < 2 && numVfs < 65536
  | .configRequest link fn _ _ val => link < 2 && fn < 1025 && val < 2 ^ 32
  | .ideCheckFail link stream => link < 2 && stream < 256
  | .doeRequest link _ => link < 2
  | .doeAbort link => link < 2
  | .spdmRequest => true
  | .smbusRequest m => m.addr < 128
  | .alertResponseRead => true
  | .msixUnmask link fn vec stream => link < 2 && fn < 1025 && vec < 17 && stream.all (fun n => decide (n < 5))
  | .registerWrite a page off size val => a.wf && page < 0xC00 && off < 0x1000 && [1, 2, 4, 8].contains size && val < 2 ^ 64
  | .softReset a page => a.wf && page < 0x800
  | .softResetComplete page => page < 0x800
  | .pgPwrRequest a page val => a.wf && page < 0x800 && val < 2 ^ 32
  | .unitPowerDrained page => page < 0x800
  | .cmdEnable a => a.wf
  | .mpeEnable a => a.wf
  | .htEnable a => a.wf
  | .instEnable a inst => a.wf && inst < 1024
  | .sqEnable a inst q val => a.wf && inst < 1024 && q < 16 && val < 2 ^ 32
  | .sqDisable a inst q val => a.wf && inst < 1024 && q < 16 && val < 2 ^ 32
  | .cqEnable a inst q val => a.wf && inst < 1024 && q < 16 && val < 2 ^ 32
  | .cqDisable a inst q val => a.wf && inst < 1024 && q < 16 && val < 2 ^ 32
  | .sqTailDoorbell inst q val stream => inst < 1024 && q < 16 && val < 2 ^ 32 && stream.all (fun n => decide (n < 5))
  | .cqHeadDoorbell inst q val stream => inst < 1024 && q < 16 && val < 2 ^ 32 && stream.all (fun n => decide (n < 5))
  | .descriptorFetch inst q => inst < 1024 && q < 16
  | .descriptorParse tag => tag < 2 ^ 32
  | .policyCheck tag _ => tag < 2 ^ 32
  | .routedEntryWrite tag => tag < 2 ^ 32
  | .routedCompletion a tail => a.wf && tail < 2 ^ 32
  | .routedTimeout tag => tag < 2 ^ 32
  | .keyFetch tag _ => tag < 2 ^ 32
  | .t0Load tag _ => tag < 2 ^ 32
  | .t2DemandLoad tag _ => tag < 2 ^ 32
  | .vaultRestoreRecord _ => true
  | .vaultBatchClose => true
  | .vaultBatchCommit cellFails steps _ => cellFails < 65536 && steps ≤ 3
  | .usagePeriodDue rec => rec < 0x4000000
  | .usageResvRaise rec => rec < 0x4000000
  | .nonceResvRaise rec => rec < 0x4000000
  | .vaultEpochErase => true
  | .derivedKeyFree rec => rec < 0x4000000
  | .egressRelease _ => true
  | .cqCoalTimeout inst q => inst < 1024 && q < 16
  | .workRingTake cls idx => cls < 8 && idx < 64
  | .xtsDataUnit tag lane _ _ => tag < 2 ^ 32 && lane < 16
  | .keyGenerateSym tag => tag < 2 ^ 32
  | .keyGeneratePair tag _ => tag < 2 ^ 32
  | .keyImportWrapped tag => tag < 2 ^ 32
  | .keyImportX9143 tag => tag < 2 ^ 32
  | .keyExportWrapped tag => tag < 2 ^ 32
  | .keyExportX9143 tag => tag < 2 ^ 32
  | .keyDerive tag => tag < 2 ^ 32
  | .keyDestroy tag => tag < 2 ^ 32
  | .keyGetAttr tag => tag < 2 ^ 32
  | .keySetAttr tag => tag < 2 ^ 32
  | .keyList tag => tag < 2 ^ 32
  | .keyGrant tag => tag < 2 ^ 32
  | .keyRevokeGrant tag => tag < 2 ^ 32
  | .keyBackupExport tag => tag < 2 ^ 32
  | .keyRestore tag => tag < 2 ^ 32
  | .keyImportClear tag => tag < 2 ^ 32
  | .keyPublicExport tag _ => tag < 2 ^ 32
  | .quorumChallenge tag => tag < 2 ^ 32
  | .aesEcb tag _ => tag < 2 ^ 32
  | .aesCbc tag _ => tag < 2 ^ 32
  | .aesCtr tag _ => tag < 2 ^ 32
  | .aesGcm tag _ => tag < 2 ^ 32
  | .aesCcm tag _ => tag < 2 ^ 32
  | .aesXts tag _ => tag < 2 ^ 32
  | .tdesEcb tag _ => tag < 2 ^ 32
  | .tdesCbc tag _ => tag < 2 ^ 32
  | .ctxSave tag _ => tag < 2 ^ 32
  | .ctxRestore tag _ => tag < 2 ^ 32
  | .ecdsaSign tag _ => tag < 2 ^ 32
  | .ecdsaVerify tag _ => tag < 2 ^ 32
  | .eddsaSign tag _ => tag < 2 ^ 32
  | .eddsaVerify tag _ => tag < 2 ^ 32
  | .ecdhAgree tag _ => tag < 2 ^ 32
  | .rsaPrivate tag _ => tag < 2 ^ 32
  | .rsaPublic tag _ => tag < 2 ^ 32
  | .mlkemEncap tag _ => tag < 2 ^ 32
  | .mlkemDecap tag _ => tag < 2 ^ 32
  | .mldsaSign tag _ => tag < 2 ^ 32
  | .mldsaVerify tag _ => tag < 2 ^ 32
  | .slhdsaSign tag _ => tag < 2 ^ 32
  | .slhdsaVerify tag _ => tag < 2 ^ 32
  | .hbsVerify tag _ => tag < 2 ^ 32
  | .imageVerify tag _ => tag < 2 ^ 32
  | .hash tag _ => tag < 2 ^ 32
  | .shake tag _ => tag < 2 ^ 32
  | .hmac tag _ => tag < 2 ^ 32
  | .cmac tag _ => tag < 2 ^ 32
  | .gmac tag _ => tag < 2 ^ 32
  | .macVerify tag _ => tag < 2 ^ 32
  | .hkdf tag _ => tag < 2 ^ 32
  | .kdfCtr tag _ => tag < 2 ^ 32
  | .tls13KeySchedule tag _ => tag < 2 ^ 32
  | .randomBytes tag => tag < 2 ^ 32
  | .entropyStatus tag => tag < 2 ^ 32
  | .dukptDerive tag _ => tag < 2 ^ 32
  | .pinTranslate tag _ => tag < 2 ^ 32
  | .pinVerify tag _ => tag < 2 ^ 32
  | .cvvGenerate tag _ => tag < 2 ^ 32
  | .cvvVerify tag _ => tag < 2 ^ 32
  | .dataTranslate tag _ => tag < 2 ^ 32
  | .ff1Encrypt tag _ => tag < 2 ^ 32
  | .ff1Decrypt tag _ => tag < 2 ^ 32
  | .tokenTranslate tag _ => tag < 2 ^ 32
  | .hotpGenerate tag _ => tag < 2 ^ 32
  | .hotpVerify tag _ => tag < 2 ^ 32
  | .totpGenerate tag _ => tag < 2 ^ 32
  | .totpVerify tag _ => tag < 2 ^ 32
  | .lockerTokenSign tag _ => tag < 2 ^ 32
  | .pickupCodeIssue tag _ => tag < 2 ^ 32
  | .pickupCodeVerify tag _ => tag < 2 ^ 32
  | .firmwareRoutedOpcode tag => tag < 2 ^ 32
  | .symJobGo a lane val _ _ => a.wf && lane < 16 && val < 2 ^ 32
  | .hashJobGo a cluster val _ _ => a.wf && cluster < 4 && val < 2 ^ 32
  | .pkeJobGo a engine val _ _ => a.wf && engine < 8 && val < 2 ^ 32
  | .jobDone cls idx _ _ => cls < 8 && idx < 64
  | .genRoot a steps => a.wf && 1 ≤ steps && steps ≤ 5
  | .vaultSync a => a.wf
  | .t0Flush a => a.wf
  | .interconnectTransaction b => b.wf
  | .targetResetRetry tag => tag < 2 ^ 32
  | .protectedRead b _ => b.wf
  | .protectedWrite b _ => b.wf
  | .writeBufferDrain => true
  | .epochClose => true
  | .patrolScrub _ => true
  | .wellStart q _ => q < 4
  | .startupTestDone q _ samples => q < 4 && samples.length = 1024
  | .continuousTestFail q _ _ => q < 4
  | .sourceRetest q _ => q < 4
  | .returnToPrimary q => q < 4
  | .conditionedBlock q _ => q < 4
  | .drbgReseed d => d < 6
  | .drbgGenerate d => d < 6
  | .hwRandomRead q _ => q < 4
  | .drbgSwDataRead a => a.wf
  | .entEmptyClear a => a.wf
  | .rawCapture a q val => a.wf && q < 4 && val < 2 ^ 32
  | .capDone q _ => q < 4
  | .patternSubstitution a q val => a.wf && q < 4 && val < 2 ^ 32
  | .stileIdent h => h < 16
  | .stileHas h fid => h < 16 && fid < 2 ^ 64
  | .unknownCall h fid => h < 16 && fid < 2 ^ 64
  | .hartWake h mask entry arg world => h < 16 && mask < 2 ^ 64 && entry < 2 ^ 64 && arg < 2 ^ 64 && world < 2 ^ 64
  | .hartRetire h a0 => h < 16 && a0 < 2 ^ 64
  | .hartQuery h => h < 16
  | .modeRequest h code => h < 16 && code < 2 ^ 64
  | .deviceRestart h a0 _ => h < 16 && a0 < 2 ^ 64
  | .fwInfo h => h < 16
  | .fwStage h addr len _ => h < 16 && addr < 2 ^ 64 && len < 2 ^ 64
  | .fwConfirm h => h < 16
  | .fwCommitSvn h _ => h < 16
  | .fwKeyAdd h addr _ => h < 16 && addr < 2 ^ 64
  | .fwKeyRevoke h row => h < 16 && row < 2 ^ 64
  | .worldSwitch h a1 a2 a3 _ => h < 16 && a1 < 2 ^ 64 && a2 < 2 ^ 64 && a3 < 2 ^ 64
  | .nsEntry h mask entry arg => h < 16 && mask < 2 ^ 64 && entry < 2 ^ 64 && arg < 2 ^ 64
  | .hostcfgSet h addr => h < 16 && addr < 2 ^ 64
  | .debugNonce h addr => h < 16 && addr < 2 ^ 64
  | .debugCert h addr len => h < 16 && addr < 2 ^ 64 && len < 2 ^ 64
  | .secureIrqSwitch h _ => h < 16
  | .watchdogKick h => h < 16
  | .watchdogTrip h => h < 16
  | .doubleTrap h => h < 16
  | .faultArrival => true
  | .faultHandlingDone cls => cls < 5
  | .irqcClaim a core => a.wf && core < 16
  | .irqcComplete a core id => a.wf && core < 16 && id < 2 ^ 32
  | .irqcSwiSet a id => a.wf && id < 2 ^ 32
  | .gpioInputEdge levels => levels < 256
  | .monitorSource src => src < 512
  | .dmaStart a ch val _ _ => a.wf && ch < 32 && val < 2 ^ 32
  | .dmaAbort a ch val => a.wf && ch < 32 && val < 2 ^ 32
  | .dmaReadbackDone ch _ _ => ch < 32
  | .gpioWrite a off val => a.wf && off < 0x1000 && val < 2 ^ 32
  | .gpioWorldWrite a val => a.wf && val < 2 ^ 32
  | .assign a sel param => a.wf && sel < 2 ^ 32 && param < 2 ^ 32
  | .setQuota a sel param => a.wf && sel < 2 ^ 32 && param < 2 ^ 32
  | .quiesce a sel => a.wf && sel < 2 ^ 32
  | .quiesceDrained inst => inst < 1024
  | .resume a sel => a.wf && sel < 2 ^ 32
  | .freeze a sel => a.wf && sel < 2 ^ 32
  | .freezeDone inst => inst < 1024
  | .thaw a sel => a.wf && sel < 2 ^ 32
  | .reset a sel => a.wf && sel < 2 ^ 32
  | .remove a sel => a.wf && sel < 2 ^ 32
  | .discard a sel => a.wf && sel < 2 ^ 32
  | .xportOffer a sel param => a.wf && sel < 2 ^ 32 && param < 2 ^ 32
  | .xportAccept a sel param _ => a.wf && sel < 2 ^ 32 && param < 2 ^ 32
  | .xportComplete a sel param _ => a.wf && sel < 2 ^ 32 && param < 2 ^ 32
  | .mgrExport a sel param _ => a.wf && sel < 2 ^ 32 && param < 2 ^ 32
  | .mgrImport a sel param _ _ => a.wf && sel < 2 ^ 32 && param < 2 ^ 32
  | .xportClose a param => a.wf && param < 2 ^ 32
  | .xportSessionExpire id => id < 2 ^ 32
  | .mgrMbSend a val => a.wf && val < 2 ^ 32
  | .mgrMbEmpty a val => a.wf && val < 2 ^ 32
  | .instMbSend a inst val => a.wf && inst < 1024 && val < 2 ^ 32
  | .instMbEmpty a inst val => a.wf && inst < 1024 && val < 2 ^ 32
  | .mgrEventRead a => a.wf
  | .enrol a val => a.wf && val < 2 ^ 32
  | .revoke a val => a.wf && val < 2 ^ 32
  | .setClass a val => a.wf && val < 2 ^ 32
  | .setInstClass a val => a.wf && val < 2 ^ 32
  | .unlock a val => a.wf && val < 2 ^ 32
  | .cerEnter a val => a.wf && val < 2 ^ 32
  | .ceremonyEntered => true
  | .cerExit a val => a.wf && val < 2 ^ 32
  | .cerTimeout => true
  | .challenge a val => a.wf && val < 2 ^ 32
  | .pin a val => a.wf && val < 2 ^ 32
  | .challengeExpire id => id < 2 ^ 32
  | .cardInsert slot _ => slot < 2
  | .cardRemove slot => slot < 2
  | .cardFault slot => slot < 2
  | .cardResponse slot _ => slot < 2
  | .lockoutExpire officer => officer < 64
  | .transition a val => a.wf && val < 2 ^ 32
  | .tokenSet a val => a.wf && val < 2 ^ 32
  | .lcProgrammingDone => true
  | .clearGrant a => a.wf
  | .debugHaltRequest h => h < 16
  | .debugAccess _ addr size val _ => addr < 2 ^ 40 && [1, 2, 4, 8].contains size && val < 2 ^ 32
  | .evrWriteGo a val => a.wf && val < 2 ^ 32
  | .evrClearGo a val => a.wf && val < 2 ^ 32
  | .evrRdNext a => a.wf
  | .evrRdPrev a => a.wf
  | .evrCursorSet a val => a.wf && val < 2 ^ 32
  | .eventBufferWrite => true
  | .tamperAlarm trips => trips.all (fun t => t.rail < 3)
  | .lanternSample _ => true
  | .tripHoldEnd src => src < 16
  | .monfault src => src < 16
  | .throttleEnd => true
  | .tamperFuseReq a mask => a.wf && mask < 2 ^ 32
  | .loopArm a val refA refB => a.wf && val < 2 ^ 32 && refA < 65536 && refB < 65536
  | .quarterPowerRequest a val => a.wf && val < 2 ^ 32
  | .quarterPowerDrained q => q < 4
  | .drowseWake src => src < 8
  | .wakeTimer => true
  | .bankMeasurement => true
  | .measDone capUf esrMohm => capUf < 65536 && esrMohm < 65536
  | .holdStale => true
  | .wearDailyUpdate _ => true
  | .lockLost pll => pll < 5
  | .lineVerificationDone _ => true
  | .hostReadCompletion _ _ => true
  | .atrTimeout slot => slot < 2
  | .bankCharged mv => mv < 65536
  | .tamperAlarmEnd src => src < 16
  | .ceHourEnd => true
  | .resetWindowExpiry => true

end Sys2Proof
end

