-- ==== Sys2Proof/Safety.lean ====
section
/-! DEFINITION. The terms of the claims: what a command leaves unchanged, that a command completes, and the canonical form that
memory and the register file keep. -/

namespace Sys2Proof.Machine

/-- The parts of the block's state, one for each field of Dev that outlives a command. -/
inductive Part where
  | sys | parts | sup | lant | fuse | nv | wear | harts | flt | raised | hearth | irq | dma | gpio
  | tamp | lc | evr | host | ent | mpe | key | cmd | units | mgr | ofc | hdr | regs | shadow | mem | now | fresh
deriving DecidableEq, Repr

/-- A part is the same in two states of the block. -/
def Part.same (p : Part) (a b : Dev) : Prop :=
  match p with
  | .sys => b.sys = a.sys
  | .parts => b.parts = a.parts
  | .sup => b.sup = a.sup
  | .lant => b.lant = a.lant
  | .fuse => b.fuse = a.fuse
  | .nv => b.nv = a.nv
  | .wear => b.wear = a.wear
  | .harts => b.harts = a.harts
  | .flt => b.flt = a.flt
  | .raised => b.raised = a.raised
  | .hearth => b.hearth = a.hearth
  | .irq => b.irq = a.irq
  | .dma => b.dma = a.dma
  | .gpio => b.gpio = a.gpio
  | .tamp => b.tamp = a.tamp
  | .lc => b.lc = a.lc
  | .evr => b.evr = a.evr
  | .host => b.host = a.host
  | .ent => b.ent = a.ent
  | .mpe => b.mpe = a.mpe
  | .key => b.key = a.key
  | .cmd => b.cmd = a.cmd
  | .units => b.units = a.units
  | .mgr => b.mgr = a.mgr
  | .ofc => b.ofc = a.ofc
  | .hdr => b.hdr = a.hdr
  | .regs => b.regs = a.regs
  | .shadow => b.shadow = a.shadow
  | .mem => b.mem = a.mem
  | .now => b.now = a.now
  | .fresh => b.fresh = a.fresh

/-- Every part but those listed is unchanged, and so are the commands that wait. -/
def keepsBut (but : List Part) (s t : State) : Prop := (∀ p : Part, p ∉ but → p.same s.dev t.dev) ∧ t.pending = s.pending

/-- Every part but those listed: what a command may change that keeps those. -/
def except (keep : List Part) : List Part :=
  ([.sys, .parts, .sup, .lant, .fuse, .nv, .wear, .harts, .flt, .raised, .hearth, .irq, .dma, .gpio, .tamp, .lc, .evr, .host, .ent,
    .mpe, .key, .cmd, .units, .mgr, .ofc, .hdr, .regs, .shadow, .mem, .now, .fresh] : List Part).filter (fun p => p ∉ keep)

/-- The command completes: it answers a next state in which every part but those listed is unchanged and which has a property. -/
def Completes (c : Instr) (s : State) (but : List Part) (q : Dev → Prop) : Prop :=
  ∃ t, exec c s = .next t ∧ keepsBut but s t ∧ q t.dev

/-- The block as a command finds it: nothing made visible outside yet, and no verification failure noted (R268). -/
def Begins (s : State) (d : Dev) : Prop := d = { s.dev with out := [], bus := none } ∧ d.mpe.failing = none

/-- Every register but those listed, by page and offset, holds the same word. -/
def regsBut (but : List (Nat × Nat)) (a b : Dev) : Prop :=
  ∀ p off, (p, off / 4) ∉ but.map (fun x => (x.1, x.2 / 4)) → off < 0x1000 → regGet b p off = regGet a p off

/-- Every register of every page but those listed, both banks, holds the same word. -/
def pagesBut (but : List Nat) (a b : Dev) : Prop :=
  ∀ p off, p % 0x1000 ∉ but → off < 0x1000 → regGet b p off = regGet a p off

/-- Every register holds the same word but those of some pages and those listed. -/
def regsBeyond (pages : List Nat) (but : List (Nat × Nat)) (a b : Dev) : Prop :=
  ∀ p off, p % 0x1000 ∉ pages → (p, off / 4) ∉ but.map (fun x => (x.1, x.2 / 4)) → off < 0x1000 → regGet b p off = regGet a p off

/-- No TLP that the command brings over this link wakes the device: it is not in DROWSE, or there is no such link up (R68). -/
def Awake (d : Dev) (link : Option Nat) : Prop := d.sys.mode = .drowse → ∀ l, link = some l → (linkOf d l).up = false

/-- The same of a register access (R42, R68), one that carries the world its master gives it (R13, R329, R368). -/
def AwakeFor (d : Dev) (a : Access) : Prop := Awake d (viaLink d a.via) ∧ accSeen d a = a

/-- A transaction that the interconnect carries: of a master of R368, of at most eight beats, not stopped before by its core's PMP entries
or, of the debug transport, by the enables (R330, R368, R369, R421). -/
def BusCarried (d : Dev) (b : Bus) : Prop :=
  masterOk b.cls b.idx = true ∧ 0 < b.len ∧ b.len ≤ 64 ∧ busPmp d b = false ∧ (b.cls = 5 → debugMay d = true)

/-- One of them that meets none of what only a host's meets: a doorbell page, a link whose IDE withholds it, DROWSE; and nothing of it has
changed on its way (R43, R64, R68, R371). -/
def BusPlain (d : Dev) (b : Bus) : Prop :=
  BusCarried d b ∧ b.badCode = none ∧ (b.cls = 2 → Awake d (some b.idx) ∧ busBell d b = none
    ∧ hostUr d (busAccess d b ((b.addr - 0x1000_0000) / 0x1000)).via = false)

/-- A fetch of a queue under read as it stands once the queue has begun anew: its entries move no HEAD. -/
def pastRing (inst q : Nat) (r : HRead) : HRead :=
  match r.what with
  | .fetch j k cq n _ => if j = inst && k = q then { r with what := .fetch j k cq n false } else r
  | _ => r

/-- Every page header but those listed is the same. -/
def hdrsBut (but : List Nat) (a b : Dev) : Prop := ∀ p, p ∉ but → hdrOf b p = hdrOf a p

/-- Every byte of memory outside n bytes from an address reads as before. -/
def bytesBut (addr n : Nat) (a b : Dev) : Prop := ∀ x, (x < addr ∨ addr + n ≤ x) → memByte b x = memByte a x

/-- No error lies on the stored form of a line, nor on its L0 counter line in the cache (R258, R261). -/
def LineSound (d : Dev) (a : Nat) : Prop :=
  symbolsBad d a = 0 ∧ smapGet zeroAt d.mpe.ccBad (treeAddr 0 ((a - dramBase) / 4096) / 64) = 0

/-- An address of plain memory: commons SRAM, or the SRAM of a quarter that is ON (R14, R479). -/
def inPlain (d : Dev) (a : Nat) : Prop := zoneOf a = .commons ∨ ∃ q, zoneOf a = .qsram q ∧ (quarterOf d q).pwr = .on

/-- Every command in flight but the one with a TAG stands as before, and so does the rest of the command processor. -/
def cmdsBut (tag : Nat) (a b : Dev) : Prop :=
  (∀ n, n ≠ tag → cmdOf b n = cmdOf a n) ∧ { b.cmd with cmds := a.cmd.cmds } = a.cmd

/-- A copy of the vault once the batch of that counter has committed (R150). -/
def nowValid (ctr : Nat) (v : Option VaultCopy) : Option VaultCopy := v.map (fun v => if v.batch = ctr then { v with valid := true } else v)

/-- A link's mailbox once its request is answered, no chunks under way (R57, R59). -/
def mailAnswered (k : LinkSt) : LinkSt := { k with doeReq := none, doeResp := true, chunkIn := none, chunkOut := none }

/-- The parts that a record of the event recorder may touch: its buffers, SEQ, counters, events and messages (R430-R435). -/
def evParts : List Part := [.evr, .nv, .regs, .hdr, .host, .mem, .ofc]

/-- Fields of a page hold the values listed. -/
def holds (t : Dev) (p : Nat) (l : List (Fld × Nat)) : Prop := ∀ x, x ∈ l → fld t p x.1 = x.2

/-- Fields of queue q of an instance hold the values listed. -/
def queueHolds (t : Dev) (inst q : Nat) (l : List (Fld × Nat)) : Prop := ∀ x, x ∈ l → qFld t inst q x.1 = x.2

/-- Event n of a page has occurred and no header changes otherwise: its bit is set where it is enabled (R26). -/
def eventAt (p n : Nat) (a b : Dev) : Prop :=
  hdrOf b p = (if bit (hdrOf a p).irqEn n then { hdrOf a p with irqStat := setBit (hdrOf a p).irqStat n true } else hdrOf a p)
    ∧ hdrsBut [p] a b

/-- The interrupts of monitor sources on the harts follow what has changed; the harts are as before but for that (R355). -/
def harkened (a b : Dev) : Prop := b.harts = (monRefresh { b with harts := a.harts }).harts

/-- What the reset of a function may touch: the attachment, its instance's queues and commands, the manager's queue of events. -/
def linkParts : List Part := [.host, .regs, .hdr, .shadow, .cmd, .units, .key, .ofc, .mgr]

/-- A call to the monitor has returned these values to hart h; no other hart has changed (R344). -/
def returned (h : Nat) (rs : List Nat) (a b : Dev) : Prop :=
  hartOf b h = { hartOf a h with args := rs } ∧ ∀ m, m ≠ h → hartOf b m = hartOf a m

/-- The manager's page takes a command from a master: no command of it runs, and the mode and the enable bit admit one (R24, R299). -/
def ManagerReady (d : Dev) (a : Access) : Prop :=
  takesJobs d pgMGR = true ∧ (admitWrite (seenAs a) pgMGR 0x040 d).1 = some .mgr ∧ (admitWrite (seenAs a) pgMGR 0x044 d).1 = some .mgr
    ∧ (hdrOf d pgMGR).softRst = false ∧ d.mgr.busy = none ∧ (d.sys.mode = .service ∨ d.sys.mode = .ceremony) ∧ d.sys.stage = .firmware

/-- A manager command has ended with a result code and a value (R299, R300). -/
def managerSays (code val : Nat) (t : Dev) : Prop :=
  holds t pgMGR [(Reg.MGR_RESULT_CODE, code), (Reg.MGR_RESULT_INFO, 0), (Reg.MGR_RES_VAL_VAL, val)] ∧ t.mgr.busy = none

/-- An instance is as given, and every other instance as before. -/
def instIs (i : Nat) (x : Inst) (a b : Dev) : Prop := instOf b i = x ∧ ∀ j, j ≠ i → instOf b j = instOf a j

/-- The parts that a command on an instance may touch: the manager's, the registers and the messages that its events call for. -/
def mgrParts : List Part := [.mgr, .regs, .hdr, .host]

/-- A write of OFC_CMD by a master begins operation op of the idle officer block: b is its argument block, t its ticket area (R323). -/
def OfficerBegins (d : Dev) (a : Access) (op : Nat) (b t : Bytes) : Prop :=
  (admitWrite (seenAs a) pgOFC 0x048 d).1 = some .ofc ∧ fieldCode (seenAs a) pgOFC 0 d Reg.OFC_CMD_OP = 0 ∧ d.ofc.op = none
    ∧ (∀ kv, kv ∈ d.shadow → keyOnPage pgOFC kv.1 = false) ∧ ofcServes d = true ∧ takesJobs d pgOFC = true
    ∧ (∃ addr, addr = fldPair d pgOFC Reg.OFC_ARG_LO_ADDR_LO Reg.OFC_ARG_HI_ADDR_HI
      ∧ (ofcArgLen op = 0 ∨ secureRange d addr (ofcArgLen op) = true) ∧ ofcRead 3 addr (ofcArgLen op) d = (.ok b, d))
    ∧ (∃ tkt n, tkt = fldPair d pgOFC Reg.OFC_TKT_LO_ADDR_LO Reg.OFC_TKT_HI_ADDR_HI ∧ n = fld d pgOFC Reg.OFC_TKT_LEN_LEN
      ∧ (n = 0 ∨ secureRange d tkt n = true) ∧ ofcRead 5 tkt n d = (.ok t, d))
    ∧ ofcArgFault op b = none

/-- Each card interface that its enable bit or the mode holds deactivated is so (R324, R325). -/
def CardsInStep (d : Dev) : Prop := ∀ m, m < 2 → cardServes d m = true ∨ (cardOf d m).run = .inactive

/-- An operation that has begun waits for the card of an interface: a selected, idle card is sent its command, a deactivated one is being
activated for it alone, and any other ends what it is at first (R304, R316, R317). -/
def cardBegun (slot : Nat) (cmd : Bytes) (w : CardWait) (a b : Dev) : Prop :=
  ((cardOf a slot).run ≠ .inactive → (cardOf a slot).wait = .nothing → (cardOf a slot).sel = true →
      cardOf b slot = { cardOf a slot with wait := w } ∧ .card slot cmd ∈ b.out)
    ∧ ((cardOf a slot).run = .inactive →
      cardOf b slot = { cardReset slot with present := true, run := .activating, wait := .atr } ∧ .cardPower slot true ∈ b.out)
    ∧ ((cardOf a slot).run ≠ .inactive → ((cardOf a slot).wait ≠ .nothing ∨ (cardOf a slot).sel = false) → cardOf b slot = cardOf a slot)
    ∧ ∀ m, m ≠ slot → cardOf b m = cardOf a m

/-- The operation needs no ticket, or a class 0 ticket answers it: the challenges reserved, and the block once it is checked,
no signature having locked its officer out (R308, R320). -/
def Authorised (d : Dev) (op : Nat) (b t : Bytes) (ids : List Nat) (d2 : Dev) : Prop :=
  (ofcTicketed d op b = false ∧ ids = [] ∧ d2 = d)
    ∨ (ofcTicketed d op b = true ∧ class0Ready d = true ∧ t ≠ []
      ∧ d2 = { d with ofc := d2.ofc } ∧ ∃ who, ticketsCheck [⟨0xFFFF, 0x2000 + op, 0, sha384 b, 0⟩] t [] d = (.ok (ids, who), d2))

/-- An operation of the officer block has ended with a result (R324). -/
def officerSays (st info : Nat) (t : Dev) : Prop :=
  holds t pgOFC [(Reg.OFC_RESULT_STATUS, st), (Reg.OFC_RESULT_INFO, info)] ∧ t.ofc.op = none

/-- The parts that the end of such an operation touches. -/
def ofcParts : List Part := [.ofc, .regs, .hdr, .shadow]

/-! ## Operations on commands -/

/-- A command has a TAG and no result, no read of random values that waits for it or has ended, and no key destroyed under it (R129, R236). -/
def Fresh (d : Dev) (tag : Nat) (k : Cmd) : Prop :=
  tag ≠ 0 ∧ k.result = none ∧ readsNone d (cmdQuarter k d) (.cmd tag) = true ∧ ∀ n, n ∈ k.counted → endedOf d n = none

/-- The command k with a TAG stands at its unit, its key material delivered, with an opcode (R141, R165, R200). -/
def AtUnit (d : Dev) (tag op : Nat) (k : Cmd) : Prop :=
  cmdOf d tag = some k ∧ k.stage = .taken ∧ k.keyed = true ∧ k.desc.opcode = op ∧ Fresh d tag k

/-- The command k with a TAG waits for firmware, its keys fetched, and has not been served yet (R10, R99). -/
def AtFirmware (d : Dev) (tag op : Nat) (k : Cmd) : Prop :=
  cmdOf d tag = some k ∧ k.stage = .routed ∧ k.keyed = true ∧ k.svc = none ∧ k.desc.opcode = op ∧ Fresh d tag k

/-- No read of a quarter waits before the next, none has ended and not been taken, and no RANDOM_BYTES has had others served before it
(R236). -/
def NoReads (d : Dev) (q : Nat) : Prop := (wellOf d q).stalls = [] ∧ (wellOf d q).grants = [] ∧ (wellOf d q).turns = 0

/-- The DRBG of a quarter has n bytes ready, and no read waits before the next (R236). -/
def RandomAt (d : Dev) (q n : Nat) : Prop :=
  (wellOf d q).run ≠ .entFail ∧ drbgOpen d.sys.mode = true ∧ NoReads d q ∧ n ≤ (drbgOf d q).buf.length

/-- One generator has given up n bytes of what it had ready; every other is as it was, and so is every Well; of the rest only the list of the
masks to come may differ. -/
def gaveUp (q n : Nat) (a b : Dev) : Prop :=
  (∀ m, drbgOf b m = if m = q then { drbgOf a m with buf := (drbgOf a m).buf.drop n } else drbgOf a m) ∧ (∀ m, wellOf b m = wellOf a m)
    ∧ { b.ent with drbgs := a.ent.drbgs, wells := a.ent.wells, masks := a.ent.masks } = a.ent

/-- The DRBG that serves a command has n bytes ready (R217, R236). -/
def RandomReady (d : Dev) (k : Cmd) (n : Nat) : Prop := RandomAt d (cmdQuarter k d) n

/-- The next n bytes of that DRBG. -/
def randomOf (d : Dev) (k : Cmd) (n : Nat) : Bytes := (drbgOf d (cmdQuarter k d)).buf.take n

/-- The DRBG that serves a command has given up its next n bytes; every other generator and every Well is as it was. -/
def drewRandom (k : Cmd) (n : Nat) (a b : Dev) : Prop := gaveUp (cmdQuarter k a) n a b ∧ b.ent.masks = a.ent.masks

/-- Bytes that a lane takes for its masks before an operation: a free value (R165). -/
def maskOf (d : Dev) : Nat := d.ent.masks.head?.getD 1

/-- The command stands at no engine, and the DRBG that serves it has a lane's masking randomness ready, and n bytes more (R165, R236). -/
def MaskReady (d : Dev) (k : Cmd) (n : Nat) : Prop :=
  (k.unit.getD 28 < 20 ∨ 28 ≤ k.unit.getD 28) ∧ RandomReady d k (maskOf d + n)

/-- The n bytes that follow the masking randomness. -/
def pastMask (d : Dev) (k : Cmd) (n : Nat) : Bytes := ((drbgOf d (cmdQuarter k d)).buf.drop (maskOf d)).take n

/-- That DRBG has given up the masking randomness and n bytes more; nothing else of the Wells and generators has changed. -/
def drewMask (k : Cmd) (n : Nat) (a b : Dev) : Prop := gaveUp (cmdQuarter k a) (maskOf a + n) a b ∧ b.ent.masks = a.ent.masks.tail

/-- Reading these records from T1 has no effect: the engine serves no protected memory, or there is none to read (R145). -/
def NoT1Read (d : Dev) (ns : List Nat) : Prop := mpeServes d = false ∨ ns = []

/-- The block once a command has read records from T1, the command in it with the tag of what was read, and no failure of their
verification noted (R145, R264). -/
def ReadsT1 (k : Cmd) (ns : List Nat) (d : Dev) (x : Cmd) (e : Dev) : Prop :=
  e = t1ReadFor k ns d ∧ cmdOf e k.tag = some x ∧ e.mpe.failing = none

/-- A quarter's DRBG has given up a lane's masking randomness; nothing else of the Wells and generators has changed (R165). -/
def drewMaskAt (q : Nat) (a b : Dev) : Prop := gaveUp q (maskOf a) a b ∧ b.ent.masks = a.ent.masks.tail

/-- Bytes drawn by the runs of an engine that its checks discard, n in each (R220). -/
def discarded (k : Cmd) (chk n : Nat) : Nat := if 20 ≤ k.unit.getD 28 ∧ k.unit.getD 28 < 28 then chk * n else 0

/-- The DRBG has n bytes ready for an operation, and as many for each run before it that is discarded. -/
def EngineReady (d : Dev) (k : Cmd) (chk n : Nat) : Prop := RandomReady d k (discarded k chk n + n)

/-- The n bytes that the run which stands draws. -/
def engineRandom (d : Dev) (k : Cmd) (chk n : Nat) : Bytes := ((drbgOf d (cmdQuarter k d)).buf.drop (discarded k chk n)).take n

/-- The bytes of every run have been drawn, and nothing else of the Wells and generators has changed. -/
def drewEngine (k : Cmd) (chk n : Nat) (a b : Dev) : Prop := drewRandom k (discarded k chk n + n) a b

/-- The key of a command's KEY_HANDLE was admitted, and is resident with its draw pointer at v, below its reservation and below the point at which a
raise is asked for (R173, R174). -/
def CounterReady (d : Dev) (k : Cmd) (v : Nat) : Prop :=
  k.counted ≠ [] ∧ ∃ x r, keyAt d (hRec k.desc.key) = some x ∧ residentOf d (hRec k.desc.key) = some r ∧ r.ptr = v ∧ v ≤ 2 ^ 64 - 2 ^ 24
    ∧ v + 2 ^ 22 < x.nonceResv

/-- The draw pointer of that key stands one further, and nothing else of the key store has changed. -/
def drewCounter (k : Cmd) (v : Nat) (a b : Dev) : Prop :=
  residentOf b (hRec k.desc.key) = (residentOf a (hRec k.desc.key)).map (fun r => { r with ptr := v + 1 }) ∧ (∀ n, n ≠ hRec k.desc.key → residentOf b n = residentOf a n)
    ∧ { b.key with resident := a.key.resident } = a.key

/-- The pages of the units that work on the command with a TAG (R35). -/
def unitsOn (d : Dev) (tag : Nat) : List Nat := ((List.range 28).filter (fun i => (unitOf d i).cur = some tag)).map unitPage

/-- The pages whose registers the end of a command at its unit may change: those of the units that work on it, and for IMAGE_VERIFY that
of the cluster which hashes the image (R35, R197, R214, R223). -/
def unitPages (d : Dev) (k : Cmd) : List Nat :=
  (if k.unit.getD 28 < 28 then
    unitPage (k.unit.getD 28) :: (if k.desc.opcode = 0x030F then [pgHASH (unitQuarter (k.unit.getD 28))] else [])
  else []) ++ unitsOn d k.tag

/-- The command completes at its unit with a result, which is held at the fence; its unit is free, every other command stands as it
did, and no register changes but those of the unit's pages. The parts named besides may change as the property says. -/
def Finishes (c : Instr) (s : State) (d : Dev) (k : Cmd) (besides : List Part) (r : Result) (q : Dev → Prop) : Prop :=
  Completes c s ([.cmd, .units, .regs, .shadow] ++ besides) fun t =>
    cmdOf t k.tag = some { k with stage := .held, result := some r } ∧ cmdsBut k.tag d t ∧ (∀ i, (unitOf t i).cur ≠ some k.tag)
      ∧ pagesBut (unitPages d k) d t ∧ q t

/-- The service of a routed command comes to a result, kept until firmware completes it; nothing else changes but as the property
says. -/
def Serves (c : Instr) (s : State) (d : Dev) (k : Cmd) (besides : List Part) (r : Result) (q : Dev → Prop) : Prop :=
  Completes c s (.cmd :: besides) fun t => cmdOf t k.tag = some { k with svc := some r } ∧ cmdsBut k.tag d t ∧ q t

/-! ## The canonical form and the fuses -/

/-- Memory, the register file and the page headers are in canonical form: keys rise strictly and nothing listed equals what an
unlisted key reads as. -/
def Dev.tidy (d : Dev) : Prop :=
  Memory.wf d.mem = true ∧ smapWf regReset d.regs = true ∧ smapWf hdrReset d.hdr = true

/-- No fuse of the one state is blank again in the other: life-cycle copies, minimum SVN, disabled tamper sources. -/
def fusesStand (a b : Dev) : Prop :=
  (∀ n, bit a.fuse.lc0 n = true → bit b.fuse.lc0 n = true) ∧ (∀ n, bit a.fuse.lc1 n = true → bit b.fuse.lc1 n = true)
    ∧ (∀ n, bit a.fuse.lc2 n = true → bit b.fuse.lc2 n = true) ∧ a.fuse.minSvn ≤ b.fuse.minSvn
    ∧ (∀ n, bit a.fuse.tampOff n = true → bit b.fuse.tampOff n = true)

/-- The outcomes of a run of n steps: none where one of them stops. -/
def runSteps : Nat → State → Option State
  | 0, s => some s
  | n + 1, s => match step s with
    | .next t => runSteps n t
    | _ => none

end Sys2Proof.Machine
end

