-- ==== Sys2Proof/Certificates/Slice0/Obligations.lean ====
section
/-! DEFINITION. What is claimed of the block, for the provers. Every statement is of the model's exec or step; the hypotheses are on the
state and the operands. -/

open Sys2Proof Sys2Proof.Machine

/-! ## The block as a machine -/

/-- Block law: a step takes the command at the front of the queue and runs it on the rest. The model's choice (log entry 1): on an empty
queue a step changes nothing, but that a running GEN_ROOT goes on by one of its steps. -/
def Obligations.StepRunsFront : Prop :=
  (∀ (c : Instr) (s : State) (rest : List Instr), s.pending = c :: rest → step s = exec c { s with pending := rest })
  ∧ (∀ s : State, s.pending = [] → s.dev.key.busy = false → step s = .next s)
  ∧ (∀ (s : State) (d : Dev), Begins s d → s.pending = [] → d.key.busy = true → (rootStep d).mpe.failing = none →
       step s = .next { s with dev := rootStep d })

/-- Every command answers a next state and leaves the queue as it is: none stops the block. After it no verification failure is left
standing: the device has halted on it (R260, R268).

Where the spec leaves a point open, a clause states the model's choice of log entries 2 and 3, which is no rule of the spec. -/
def Obligations.EveryCommandCompletes : Prop :=
  ∀ (c : Instr) (s : State), ∃ t, exec c s = .next t ∧ t.pending = s.pending ∧ t.dev.mpe.failing = none

/-- Whatever commands wait, as many steps as there are commands run them all: no step stops, and the queue is empty. One step more for
each command added behind them runs that one too.

Where the spec leaves a point open, a clause states the model's choice of log entry 139, which is no rule of the spec. -/
def Obligations.QueueServedInOrder : Prop :=
  ∀ (cs : List Instr) (s : State), s.pending = cs →
    ∃ t, runSteps cs.length s = some t ∧ t.pending = []
      ∧ t.dev = cs.foldl (fun d c => match exec c ⟨d, []⟩ with | .next u => u.dev | _ => d) s.dev

/-- Reset: ROM_BOOT, no command waiting, life cycle PROVISION, no failure noted, every table in canonical form, no fuse but those the
part ships with. The model's choice (log entries 7, 8 and 140): one state joins the registers' reset values to the condition of R2. -/
def Obligations.ResetStateIsSound : Prop :=
  State.reset.pending = [] ∧ State.reset.dev.sys.mode = .romBoot ∧ State.reset.dev.sys.lc = .provision
    ∧ State.reset.dev.mpe.failing = none ∧ State.reset.dev.tidy ∧ State.reset.dev.fuse.minSvn = 0
    ∧ State.reset.dev.fuse.tampOff = 0 ∧ (∀ r, r < 4 → rowSet State.reset.dev r = true) ∧ rowSet State.reset.dev 4 = false

/-- Every step keeps memory, the register file and the page headers in canonical form. -/
def Obligations.StepKeepsCanonicalForm : Prop :=
  ∀ s t : State, s.dev.tidy → step s = .next t → t.dev.tidy

/-- No step turns a programmed fuse blank. -/
def Obligations.FusesAreOneTime : Prop := ∀ s t : State, step s = .next t → fusesStand s.dev t.dev

/-! ## Commands at a unit: hashes, MACs, derivation (R181-R184, R238, R239) -/

/-- HASH, SHAKE and HMAC at a hash cluster: digest, extendable output, tag cut to the length asked for.

CMAC, GMAC and MAC_VERIFY: the tag under the stored key or the key derived in the lane, cut to the length asked for; a check
answers OK where the tag presented is the tag computed and VERIFY_FAIL where it is not.

Where the spec leaves a point open, a clause states the model's choice of log entry 76, which is no rule of the spec.

Exec answers a next state, as the clauses say, for hash, shake, hmac, cmac, gmac, macVerify. -/
def Obligations.DigestAndMacCommands : Prop :=
  (∀ (s : State) (d : Dev) (tag chk : Nat) (k : Cmd), Begins s d → chk < 2 →
     (AtUnit d tag 0x0401 k → Finishes (.hash tag chk) s d k [] (okOut (hashRun k.desc.param (srcOf k))) (fun _ => True))
     ∧ (AtUnit d tag 0x0402 k → k.desc.param = 1 →
         Finishes (.shake tag chk) s d k [] (okOut (shake128 (srcOf k) k.desc.dstLen)) (fun _ => True))
     ∧ (AtUnit d tag 0x0402 k → k.desc.param ≠ 1 →
         Finishes (.shake tag chk) s d k [] (okOut (shake256 (srcOf k) k.desc.dstLen)) (fun _ => True))
     ∧ (AtUnit d tag 0x0403 k →
         Finishes (.hmac tag chk) s d k [] (okOut ((hmacCode k.desc.param (key1 k).mat (srcOf k)).take
           (tagOr k.desc (hmacCode k.desc.param (key1 k).mat (srcOf k)).length))) (fun _ => True))) ∧
  (∀ (s : State) (d : Dev) (tag chk : Nat) (k : Cmd), Begins s d → chk < 2 → MaskReady d k 0 →
     (AtUnit d tag 0x0404 k → oTag k.desc ≤ blkLen (key1 k).alg →
       ∀ n, n = tagOr k.desc (blkLen (key1 k).alg) →
         (n ≤ k.desc.dstLen → Finishes (.cmac tag chk) s d k [.ent] (okOut ((cmacWith (blkLen (key1 k).alg)
           (encFn (key1 k).alg (laneKey k.desc (auxOf k) (key1 k).mat 0)) (srcOf k)).take n)) (drewMask k 0 d))
         ∧ (k.desc.dstLen < n → Finishes (.cmac tag chk) s d k [.ent] { failed stBUFFER_TOO_SMALL 0 with r1 := n } (drewMask k 0 d)))
     ∧ (AtUnit d tag 0x0404 k → blkLen (key1 k).alg < oTag k.desc →
       Finishes (.cmac tag chk) s d k [.ent] (failed stBAD_DESCRIPTOR 0x3A) (drewMask k 0 d))
     ∧ (AtUnit d tag 0x0405 k → pNonce k.desc = false →
       Finishes (.gmac tag chk) s d k [.ent] (okOut ((gmacTag (encFn 0x0012 (laneKey k.desc (auxOf k) (key1 k).mat 16))
         (slice (auxOf k) 0 12) (srcOf k)).take (tagOr k.desc 16))) (drewMask k 0 d))
     ∧ (AtUnit d tag 0x0405 k → pNonce k.desc = true →
       ∀ v iv out, CounterReady d k v → iv = beBytes 4 (nonceFixed k) ++ beBytes 8 v →
         out = (gmacTag (encFn 0x0012 (laneKey k.desc (auxOf k) (key1 k).mat 16)) iv (srcOf k)).take (tagOr k.desc 16) →
         Finishes (.gmac tag chk) s d k [.key, .ent]
           { okOut out with r0 := v, r1 := nonceFixed k, effects := [.nonce k.desc.key (v + 1)] }
           (fun t => drewCounter k v d t ∧ drewMask k 0 d t))
     ∧ (AtUnit d tag 0x0406 k → bits k.desc.param 15 12 = 1 →
       ∀ m n, m = hmacCode (bits k.desc.param 3 0) (key1 k).mat (srcOf k) → n = tagOr k.desc m.length →
         Finishes (.macVerify tag chk) s d k []
           (if m.take n = slice (auxOf k) (alignUp (oLabel k.desc) 8) n then okRes 0 0 else failed stVERIFY_FAIL 0) (fun _ => True))
     ∧ (AtUnit d tag 0x0406 k → bits k.desc.param 15 12 = 2 →
       ∀ at' n m, at' = alignUp (oLabel k.desc) 8 → n = tagOr k.desc (blkLen (key1 k).alg) →
         m = cmacWith (blkLen (key1 k).alg) (encFn (key1 k).alg (laneKey k.desc (auxOf k) (key1 k).mat 0)) (srcOf k) →
         oTag k.desc ≤ blkLen (key1 k).alg → k.desc.auxLen = at' + n →
         Finishes (.macVerify tag chk) s d k [.ent]
           (if m.take n = slice (auxOf k) at' n then okRes 0 0 else failed stVERIFY_FAIL 0) (drewMask k 0 d))
     ∧ (AtUnit d tag 0x0406 k → bits k.desc.param 15 12 = 3 →
       ∀ n m, n = tagOr k.desc 16 → m = gmacTag (encFn 0x0012 (laneKey k.desc (auxOf k) (key1 k).mat 16)) (slice (auxOf k) 0 12) (srcOf k) →
         Finishes (.macVerify tag chk) s d k [.ent]
           (if m.take n = slice (auxOf k) (alignUp (16 + oLabel k.desc) 8) n then okRes 0 0 else failed stVERIFY_FAIL 0)
           (drewMask k 0 d)))

/-- HKDF, KDF_CTR and KEY_DERIVE create a child of their parent under R132: its material is the derivation's output, and a template at
fault against the parent ends the command. TLS13_KEY_SCHEDULE creates children of its secret at their places in the output.

RANDOM_BYTES and KEY_GENERATE_SYM take the bytes that the DRBG of their quarter has ready; ENTROPY_STATUS reports the four Wells
and the failures counted.

Where the spec leaves a point open, a clause states the model's choice of log entries 75, 81, 97, 150, 189 and 208, which is no rule of
the spec.

Exec answers a next state, as the clauses say, for keyGenerateSym, keyDerive, hkdf, kdfCtr, tls13KeySchedule, randomBytes,
entropyStatus. -/
def Obligations.DerivationAndRandomCommands : Prop :=
  (∀ (s : State) (d : Dev) (tag : Nat) (k : Cmd) (p : KeyRec) (t : Tmpl), Begins s d → p = key1 k → t = tmplOf (auxOf k) →
     (AtUnit d tag 0x0407 k →
       ∀ salt, salt = (if hkdfSalt (auxOf k) = [] then zeros (hashSize k.desc.param) else hkdfSalt (auxOf k)) →
         Finishes (.hkdf tag) s d k [] (childDone k p t t.alg (hkdfExpand (hmacCode k.desc.param) (hashSize k.desc.param)
           (hmacCode k.desc.param salt p.mat) (hkdfInfo (auxOf k)) (symLen t.alg 0x0407)) []) (fun _ => True))
     ∧ (AtUnit d tag 0x0408 k → ∀ x, x ∈ [(1, aesCmac p.mat, 16), (2, hmac256 p.mat, 32), (3, hmac384 p.mat, 48), (4, hmac512 p.mat, 64)] →
         k.desc.param = x.1 →
         Finishes (.kdfCtr tag) s d k [] (childDone k p t t.alg
           (kdfFixed x.2.1 x.2.2 ((auxOf k).drop 64) (symLen t.alg 0x0408)) []) (fun _ => True))
     ∧ (AtUnit d tag 0x0107 k → ∀ x, x ∈ [(1, aesCmac p.mat, 16), (2, hmac256 p.mat, 32)] → k.desc.param = x.1 →
         Finishes (.keyDerive tag) s d k [] (childDone k p t t.alg
           (kdfCounter x.2.1 x.2.2 (leBytes 2 t.alg ++ srcOf k) [] (symLen t.alg 0x0107)) []) (fun _ => True))
     ∧ (AtUnit d tag 0x0107 k → ∀ x, x ∈ [(3, hmac256, 32), (4, hmac384, 48)] → k.desc.param = x.1 →
         Finishes (.keyDerive tag) s d k [] (childDone k p t t.alg
           (hkdfExpand x.2.1 x.2.2 (x.2.1 (zeros x.2.2) p.mat) (leBytes 2 t.alg ++ srcOf k) (symLen t.alg 0x0107)) []) (fun _ => True))
     ∧ (AtUnit d tag 0x0409 k → ∀ hash psk u z mine, hash = (if bits k.desc.param 3 2 = 1 then 2 else 3) →
       psk = (if k.desc.key2 = 0 then zeros (hashSize hash) else ((kOf k k.desc.key2).map (·.mat)).getD (zeros (hashSize hash))) → u = tmplOf ((auxOf k).drop (hashSize hash)) →
       z = tlsRun (bits k.desc.param 1 0) hash (if hash = 2 then 16 else 32) (b2n (bit k.desc.param 4)) p.mat psk
         ((auxOf k).take (hashSize hash)) →
       mine = Nat.land p.attr attrLocal + (if u.limit = 0 then 0 else 2 ^ atUSAGE_LIMITED) →
       Finishes (.tls13KeySchedule tag) s d k []
         { okOut (zeros 0x40 ++ fitTo 12 z.2.1 ++ fitTo 12 z.2.2 ++ zeros 8) with
           r1 := (tlsSorted z.1).length
           effects := (tlsSorted z.1).zipIdx.map fun xi =>
             .create (recOf u xi.1.alg (xi.1.attr + mine) false xi.1.mat p.handle false) u.cls k.inst u.life (xi.2 = 0) (some xi.1.at') }
         (fun _ => True))) ∧
  (∀ (s : State) (d : Dev) (tag n : Nat) (k : Cmd), Begins s d → k.unit = some 28 →
     (AtUnit d tag 0x0501 k → bit k.desc.param 0 = false → n = k.desc.dstLen → RandomReady d k n →
       Finishes (.randomBytes tag) s d k [.ent] (okOut (randomOf d k n)) (drewRandom k n d))
     ∧ (AtUnit d tag 0x0501 k → bit k.desc.param 0 = true → n = k.desc.dstLen → n ≠ 0 →
       ∀ q b d2, q = cmdQuarter k d → q < 4 → (wellOf d q).run ≠ .entFail → drbgOpen d.sys.mode = true → NoReads d q →
         freshTurn d q = true → fillRead q n (fillFuel n) [] (freshSeed q d) = (b, d2) → b.length = n →
         Completes (.randomBytes tag) s [.cmd, .units, .regs, .shadow, .ent] fun t =>
           cmdOf t tag = some { k with stage := .held, result := some (okOut b) } ∧ cmdsBut tag d t
           ∧ drbgOf t q = drbgOf d2 q ∧ (∀ m, m ≠ q → drbgOf t m = drbgOf d m) ∧ pagesBut (pgENT q :: unitPages d k) d t)
     ∧ (AtUnit d tag 0x0501 k → k.desc.dstLen ≠ 0 → ∀ q, q = cmdQuarter k d →
       ((wellOf d q).run = .entFail ∨ drbgOpen d.sys.mode = false) →
         Completes (.randomBytes tag) s [.cmd, .units, .regs, .shadow] fun t =>
           cmdOf t tag = some { k with stage := .held, result := some (failed stENTROPY 0) } ∧ cmdsBut tag d t
           ∧ pagesBut (pgENT q :: unitPages d k) d t)
     ∧ (AtUnit d tag 0x0101 k → n = symLen (tmplOf (auxOf k)).alg 0x0101 → RandomReady d k n →
       ∀ t, t = tmplOf (auxOf k) →
         ∀ x, x = recOf t t.alg (t.attr + attrLocal) false (randomOf d k n) 0 false →
           Finishes (.keyGenerateSym tag) s d k [.ent]
             { okOut [] with r1 := kcvNat x, effects := [.create x t.cls k.inst t.life true none] } (drewRandom k n d))
     ∧ (AtUnit d tag 0x0502 k →
       ∃ r0, (∀ q, q < 4 → r0 / 2 ^ (8 * q) % 8 = wellCode (wellOf d q).run ∧ bit r0 (8 * q + 3) = (drbgOf d q).need
           ∧ bit r0 (8 * q + 4) = decide ((wellOf d q).pri.run = .failed) ∧ bit r0 (8 * q + 5) = decide ((wellOf d q).alt.run = .failed))
         ∧ Finishes (.entropyStatus tag) s d k [] (okRes r0 d.ent.fails) (fun _ => True)))

/-! ## Commands at a unit: ciphers (R165-R180) -/

/-- AES_ECB, AES_CBC, AES_CTR, TDES_ECB and TDES_CBC of a whole message: the mode under the stored key or the key derived in the lane;
a CTR whose counter would start over ends without effect, and of a TDES_CBC whose IV area holds more than an IV the parser finds fault
with the area.

Where the spec leaves a point open, a clause states the model's choice of log entries 67 and 76, which is no rule of the spec.

Exec answers a next state, as the clauses say, for aesEcb, aesCbc, aesCtr, tdesEcb, tdesCbc. -/
def Obligations.BlockCipherCommands : Prop :=
  ∀ (s : State) (d : Dev) (tag chk : Nat) (k : Cmd) (x : Desc) (key iv m : Bytes) (alg n : Nat),
    Begins s d → chk < 2 → MaskReady d k 0 → x = k.desc → pSeg x = 0 → alg = (key1 k).alg → n = blkLen alg →
    key = laneKey x (auxOf k) (key1 k).mat (labelOff x) → iv = slice (auxOf k) 0 16 → m = srcOf k →
    (∀ c, c ∈ [(0x0201, Instr.aesEcb tag chk), (0x0207, Instr.tdesEcb tag chk)] → AtUnit d tag c.1 k →
      Finishes c.2 s d k [.ent] (okOut (ecbWith n (if pDec x then decFn alg key else encFn alg key) m)) (drewMask k 0 d))
    ∧ (∀ c, c ∈ [(0x0202, Instr.aesCbc tag chk), (0x0208, Instr.tdesCbc tag chk)] → AtUnit d tag c.1 k →
      Finishes c.2 s d k [.ent] (okOut (if pDec x then (cbcDec n (decFn alg key) (iv.take n) m).1
        else (cbcEnc n (encFn alg key) (iv.take n) m).1)) (drewMask k 0 d))
    ∧ (x.opcode = 0x0208 → auxFault k = (if slice iv 8 8 = zeros 8 then none else some (stBAD_DESCRIPTOR, 0x0108)))
    ∧ (AtUnit d tag 0x0203 k →
      Finishes (.aesCtr tag chk) s d k [.ent]
        (if 2 ^ ctrWidth x < beNat iv % 2 ^ ctrWidth x + (m.length + 15) / 16 then failed stBAD_LENGTH 0
         else okOut (ctrWith (ctrWidth x) (encFn alg key) iv m).1) (drewMask k 0 d))

/-- AES_ECB, AES_CBC and AES_CTR in segments: the first writes a context wrapped under K_CTX with 12 fresh bytes, a middle one goes on
from the context presented and writes its successor, the last goes on and writes none; a context that does not pass R179 ends the
command.

AES_GCM in segments: the first segment starts counter and hash from nonce and associated data, a middle one goes on, and the last
appends the tag, or answers OK or AUTH_FAIL by the tag presented.

Where the spec leaves a point open, a clause states the model's choice of log entries 67, 76 and 165, which is no rule of the spec.

Exec answers a next state, as the clauses say, for aesEcb, aesCbc, aesCtr, aesGcm. -/
def Obligations.SegmentedCommands : Prop :=
  (∀ (s : State) (d : Dev) (tag chk op : Nat) (c : Instr) (k : Cmd) (x : Desc) (key : Bytes) (alg : Nat),
     Begins s d → chk < 2 → MaskReady d k 12 → x = k.desc → alg = (key1 k).alg →
     key = laneKey x (auxOf k) (key1 k).mat (labelOff x) →
     (op, c) ∈ [(0x0201, Instr.aesEcb tag chk), (0x0202, Instr.aesCbc tag chk), (0x0203, Instr.aesCtr tag chk)] → AtUnit d tag op k →
     (∀ p, pSeg x = 1 → p = passBlock alg key x (slice (auxOf k) 0 16) (srcOf k) →
       (op = 0x0203 → beNat (slice (auxOf k) 0 16) % 2 ^ ctrWidth x + ((srcOf k).length + 15) / 16 ≤ 2 ^ ctrWidth x) →
       Finishes c s d k [.ent]
         { okOut p.out with
           auxOut := ctxSeal (kCtxOf d) (pastMask d k 12) { ctxFresh k 0 with len := (srcOf k).length, seq := 1 }
             (CtxBody.mk p.chain 0 (labelDigest x (auxOf k))) } (drewMask k 12 d))
     ∧ (∀ h b p, 2 ≤ pSeg x → ctxCheck k (auxSecure k d) (kCtxOf d) = .ok (h, b) → h.kind = 1 →
       (op = 0x0203 → beNat b.chain % 2 ^ ctrWidth x ≠ 0
         ∧ beNat b.chain % 2 ^ ctrWidth x + ((srcOf k).length + 15) / 16 ≤ 2 ^ ctrWidth x) →
       p = passBlock alg key x b.chain (srcOf k) →
       (pSeg x = 2 → Finishes c s d k [.ent]
         { okOut p.out with
           auxOut := ctxSeal (kCtxOf d) (pastMask d k 12) { h with len := h.len + (srcOf k).length, seq := h.seq + 1 }
             { b with chain := p.chain } } (drewMask k 12 d))
       ∧ (pSeg x = 3 → Finishes c s d k [.ent] (okOut p.out) (drewMask k 0 d)))
     ∧ (∀ e, 2 ≤ pSeg x → ctxCheck k (auxSecure k d) (kCtxOf d) = .error e →
       Finishes c s d k [.ent] (failed e.1 e.2) (drewMask k 0 d))) ∧
  (∀ (s : State) (d : Dev) (tag chk : Nat) (k : Cmd) (x : Desc) (key : Bytes) (f : Bytes → Bytes) (m : Bytes) (t : Nat) (dec : Bool),
     Begins s d → chk < 2 → MaskReady d k 12 → x = k.desc → key = laneKey x (auxOf k) (key1 k).mat (labelOff x) →
     f = encFn 0x0012 key → m = srcOf k → t = tagOr x 16 → dec = pDec x → AtUnit d tag 0x0204 k →
     (dec = false → pNonce x = false → bit (key1 k).attr atNONCE_HW = false) →
     (∀ aad p, pSeg x = 1 → aad = slice (auxOf k) (aadOff x) (aadLen x) →
       p = passGcm key dec (ctrNext 32 (gcmJ0 (slice (auxOf k) 0 12))) (ghashFrom (gcmH f) 0 aad) m →
       Finishes (.aesGcm tag chk) s d k [.ent]
         { okOut p.out with
           auxOut := ctxSeal (kCtxOf d) (pastMask d k 12) { ctxFresh k aad.length with len := m.length, seq := 1 }
             (CtxBody.mk p.chain p.acc (labelDigest x (auxOf k))) } (drewMask k 12 d))
     ∧ (∀ h b p, pSeg x = 2 → ctxCheck k (auxSecure k d) (kCtxOf d) = .ok (h, b) → h.kind = 1 → p = passGcm key dec b.chain b.acc m →
       Finishes (.aesGcm tag chk) s d k [.ent]
         { okOut p.out with
           auxOut := ctxSeal (kCtxOf d) (pastMask d k 12) { h with len := h.len + m.length, seq := h.seq + 1 }
             { b with chain := p.chain, acc := p.acc } } (drewMask k 12 d))
     ∧ (∀ h b p, pSeg x = 3 → ctxCheck k (auxSecure k d) (kCtxOf d) = .ok (h, b) → dec = false → p = passGcm key dec b.chain b.acc m →
       Finishes (.aesGcm tag chk) s d k [.ent]
         (okOut (p.out ++ (gcmTag f (b.chain.take 12) p.acc h.aad (h.len + m.length)).take t)) (drewMask k 0 d))
     ∧ (∀ h b body p, pSeg x = 3 → ctxCheck k (auxSecure k d) (kCtxOf d) = .ok (h, b) → dec = true →
       body = m.take (m.length - t) → p = passGcm key dec b.chain b.acc body →
       ∀ ok, ok = decide ((gcmTag f (b.chain.take 12) p.acc h.aad (h.len + body.length)).take t = m.drop (m.length - t)) →
         (ok = true → Finishes (.aesGcm tag chk) s d k [.ent] (okOut p.out) (drewMask k 0 d))
         ∧ (ok = false → p.out.length ≤ 65536 →
           Finishes (.aesGcm tag chk) s d k [.ent] { failed stAUTH_FAIL 0 with out := zeros x.dstLen } (drewMask k 0 d)))
     ∧ (∀ e, 2 ≤ pSeg x → ctxCheck k (auxSecure k d) (kCtxOf d) = .error e →
       Finishes (.aesGcm tag chk) s d k [.ent] (failed e.1 e.2) (drewMask k 0 d)))

/-- AES_GCM and AES_CCM of a whole message, and AES_XTS. Encryption answers ciphertext and tag; decryption answers the plaintext where
the tag verifies, and AUTH_FAIL with the output area zero-filled where it does not. Of a CCM message too long for its nonce the bytes are
free values (log entry 212). A nonce drawn by the device comes from the key's
counter (R173).

Where the spec leaves a point open, a clause states the model's choice of log entries 76, 163 and 212, which is no rule of the spec.

Exec answers a next state, as the clauses say, for aesGcm, aesCcm, aesXts. -/
def Obligations.AuthenticatedCommands : Prop :=
  ∀ (s : State) (d : Dev) (tag chk : Nat) (k : Cmd) (x : Desc) (f : Bytes → Bytes) (iv aad m : Bytes) (t : Nat),
    Begins s d → chk < 2 → MaskReady d k 0 → x = k.desc → f = encFn 0x0012 (laneKey x (auxOf k) (key1 k).mat (labelOff x)) →
    aad = slice (auxOf k) (aadOff x) (aadLen x) → m = srcOf k → t = tagOr x 16 →
    (AtUnit d tag 0x0204 k → pSeg x = 0 → pDec x = false → pNonce x = false → bit (key1 k).attr atNONCE_HW = false →
      iv = slice (auxOf k) 0 12 →
      Finishes (.aesGcm tag chk) s d k [.ent] (okOut ((gcmEnc f iv aad m).1 ++ (gcmEnc f iv aad m).2.take t)) (drewMask k 0 d))
    ∧ (AtUnit d tag 0x0204 k → pDec x = false → pNonce x = false → bit (key1 k).attr atNONCE_HW = true →
      Finishes (.aesGcm tag chk) s d k [.ent] (failed stPOLICY 73) (drewMask k 0 d))
    ∧ (AtUnit d tag 0x0204 k → pSeg x = 0 → pDec x = false → pNonce x = true →
      ∀ v out, CounterReady d k v → iv = beBytes 4 (nonceFixed k) ++ beBytes 8 v →
        out = (gcmEnc f iv aad m).1 ++ (gcmEnc f iv aad m).2.take t →
        Finishes (.aesGcm tag chk) s d k [.key, .ent]
          { okOut out with r0 := v, r1 := nonceFixed k, effects := [.nonce k.desc.key (v + 1)] } (fun t => drewCounter k v d t ∧ drewMask k 0 d t))
    ∧ (AtUnit d tag 0x0204 k → pSeg x = 0 → pDec x = true → pNonce x = false → iv = slice (auxOf k) 0 12 →
      ∀ r, r = gcmDec f iv aad (m.take (m.length - t)) →
        (r.2.take t = m.drop (m.length - t) → Finishes (.aesGcm tag chk) s d k [.ent] (okOut r.1) (drewMask k 0 d))
        ∧ (r.2.take t ≠ m.drop (m.length - t) → r.1.length ≤ 65536 →
          Finishes (.aesGcm tag chk) s d k [.ent] { failed stAUTH_FAIL 0 with out := zeros x.dstLen } (drewMask k 0 d)))
    ∧ (AtUnit d tag 0x0205 k → pDec x = false → iv = slice (auxOf k) 0 (pArg x) → m.length < 2 ^ (8 * (15 - pArg x)) →
      Finishes (.aesCcm tag chk) s d k [.ent] (okOut ((ccmEnc f iv aad m t).1 ++ (ccmEnc f iv aad m t).2)) (drewMask k 0 d))
    ∧ (AtUnit d tag 0x0205 k → pDec x = false → iv = slice (auxOf k) 0 (pArg x) → 2 ^ (8 * (15 - pArg x)) ≤ m.length →
      ∃ ct, ct.length = m.length + t ∧ Finishes (.aesCcm tag chk) s d k [.ent] (okOut ct) (drewMask k 0 d))
    ∧ (AtUnit d tag 0x0205 k → pDec x = true → iv = slice (auxOf k) 0 (pArg x) → m.length - t < 2 ^ (8 * (15 - pArg x)) →
      ∀ r, r = ccmDec f iv aad (m.take (m.length - t)) t →
        (r.2 = m.drop (m.length - t) → Finishes (.aesCcm tag chk) s d k [.ent] (okOut r.1) (drewMask k 0 d))
        ∧ (r.2 ≠ m.drop (m.length - t) → r.1.length ≤ 65536 →
          Finishes (.aesCcm tag chk) s d k [.ent] { failed stAUTH_FAIL 0 with out := zeros x.dstLen } (drewMask k 0 d)))
    ∧ (AtUnit d tag 0x0206 k →
      (k.done < xtsUnits x → Finishes (.aesXts tag chk) s d k [.ent]
        (okOut (k.part ++ ((List.range (xtsUnits x - k.done)).map (fun i => xtsOut k (k.done + i))).flatten)) (drewMask k 0 d))
      ∧ (xtsUnits x ≤ k.done → Finishes (.aesXts tag chk) s d k [] (okOut k.part) (fun _ => True)))

/-- CTX_SAVE wraps a context of this boot under a tenant's key and CTX_RESTORE takes one back under K_CTX, each with 12 fresh bytes past
the lane's masks; a wrapping key weaker than the message's key is refused, a context of another wrapping key is refused by its WRAP_ID,
and one whose tag fails zero-fills the 128 output bytes.

Where the spec leaves a point open, a clause states the model's choice of log entry 165, which is no rule of the spec.

Exec answers a next state, as the clauses say, for ctxSave, ctxRestore. -/
def Obligations.ContextCommands : Prop :=
  ∀ (s : State) (d : Dev) (tag chk : Nat) (k : Cmd) (h : CtxHead), Begins s d → chk < 2 → MaskReady d k 12 → h = ctxHeadOf (srcOf k) →
    (AtUnit d tag 0x0209 k → wrapWeak (key2 k) (key1 k) = false → ctxSrcForm k 1 = none →
      (∀ b, ctxOpen (kCtxOf d) (srcOf k) = some b → ctxSrcFields k = none →
        Finishes (.ctxSave tag chk) s d k [.ent]
          (okOut (ctxSeal (key2 k).mat (pastMask d k 12) { h with kind := 2, wrapId := kcvNat (key2 k) } b)) (drewMask k 12 d))
      ∧ (ctxOpen (kCtxOf d) (srcOf k) = none →
        Finishes (.ctxSave tag chk) s d k [] (failed stBAD_DESCRIPTOR 0x0180) (fun _ => True)))
    ∧ (AtUnit d tag 0x020A k → wrapWeak (key2 k) (key1 k) = false → ctxSrcForm k 2 = none →
      (∀ b, h.wrapId = kcvNat (key2 k) → ctxOpen (key2 k).mat (srcOf k) = some b → ctxSrcFields k = none →
        Finishes (.ctxRestore tag chk) s d k [.ent]
          (okOut (ctxSeal (kCtxOf d) (pastMask d k 12) { h with kind := 1, wrapId := 0 } b)) (drewMask k 12 d))
      ∧ (h.wrapId = kcvNat (key2 k) → ctxOpen (key2 k).mat (srcOf k) = none →
        Finishes (.ctxRestore tag chk) s d k [] { failed stAUTH_FAIL 0 with out := zeros 128 } (fun _ => True))
      ∧ (h.wrapId ≠ kcvNat (key2 k) → Finishes (.ctxRestore tag chk) s d k [] (failed stBAD_DESCRIPTOR 0x28) (fun _ => True)))
    ∧ (∀ c, c ∈ [(0x0209, Instr.ctxSave tag chk), (0x020A, Instr.ctxRestore tag chk)] → AtUnit d tag c.1 k →
      wrapWeak (key2 k) (key1 k) = true → Finishes c.2 s d k [] (failed stPOLICY 68) (fun _ => True))

/-! ## Commands at a unit: public keys, lattices, hash-based signatures (R200-R217) -/

/-- ECDSA and Ed25519 at an engine: a signature in the form asked for, drawn nonce or deterministic; a check answers OK or
VERIFY_FAIL.

Where the spec leaves a point open, a clause states the model's choice of log entry 97, which is no rule of the spec.

Exec answers a next state, as the clauses say, for ecdsaSign, ecdsaVerify, eddsaSign, eddsaVerify. -/
def Obligations.CurveSignatureCommands : Prop :=
  ∀ (s : State) (d : Dev) (tag chk : Nat) (k : Cmd) (x : Desc), Begins s d → chk < 2 → x = k.desc →
    (AtUnit d tag 0x0301 k →
      ∀ cv n v, cv = curveOf (key1 k).alg → n = (if cv.size = 32 then 80 else 112) - (if pDet x then 32 else 0) → EngineReady d k chk n →
        (if pDer x then (if cv.size = 32 then 72 else 104) else 2 * cv.size) ≤ x.dstLen →
        v = ecdsaSign cv (pHash x) (beNat ((key1 k).mat.take cv.size)) (digestOf k (pHash x))
          (if pDet x then [] else (engineRandom d k chk n).take 32) →
        Finishes (.ecdsaSign tag chk) s d k [.ent]
          (okOut (if pDer x then derSig v.1 v.2 else beBytes cv.size v.1 ++ beBytes cv.size v.2)) (drewEngine k chk n d))
    ∧ (AtUnit d tag 0x0301 k → pDer x = false → x.dstLen < 2 * (curveOf (key1 k).alg).size →
      Finishes (.ecdsaSign tag chk) s d k []
        { failed stBUFFER_TOO_SMALL 0 with r1 := 2 * (curveOf (key1 k).alg).size } (fun _ => True))
    ∧ (AtUnit d tag 0x0303 k → EngineReady d k chk 48 →
      Finishes (.eddsaSign tag chk) s d k [.ent]
        (okOut (edSign (pVar x) (strOf k) ((key1 k).mat.take 32) (edMessage k))) (drewEngine k chk 48 d))
    ∧ (AtUnit d tag 0x0302 k → pDer x = false →
      ∀ cv q, cv = curveOf (pkeAlgOf k) → (operandOf k).length = 2 * cv.size → ecDecode cv (pkOf k) = some q →
        Finishes (.ecdsaVerify tag chk) s d k []
          (if ecdsaOk cv q (digestOf k (pHash x)) (beNat ((operandOf k).take cv.size)) (beNat ((operandOf k).drop cv.size)) then okRes 0 0
           else failed stVERIFY_FAIL 0) (fun _ => True))
    ∧ (AtUnit d tag 0x0302 k → pDer x = true → (if (curveOf (pkeAlgOf k)).size = 32 then 72 else 104) < (operandOf k).length →
      Finishes (.ecdsaVerify tag chk) s d k [] (failed stBAD_LENGTH 0) (fun _ => True))
    ∧ (AtUnit d tag 0x0302 k → pDer x = true → (operandOf k).length ≤ (if (curveOf (pkeAlgOf k)).size = 32 then 72 else 104) →
      ∀ cv q r v, cv = curveOf (pkeAlgOf k) → derParse (operandOf k) = some (r, v) → ecDecode cv (pkOf k) = some q →
        Finishes (.ecdsaVerify tag chk) s d k []
          (if ecdsaOk cv q (digestOf k (pHash x)) r v then okRes 0 0 else failed stVERIFY_FAIL 0) (fun _ => True))
    ∧ (AtUnit d tag 0x0304 k → (operandOf k).length = 64 → inlBad k = false →
      Finishes (.eddsaVerify tag chk) s d k []
        (if edOk (pVar x) (strOf k) (pkOf k) (edMessage k) (operandOf k) then okRes 0 0 else failed stVERIFY_FAIL 0) (fun _ => True))

/-- ECDH_AGREE, MLKEM_ENCAP and MLKEM_DECAP: the shared secret becomes a new key, under the stored key or as the device's own; the
ephemeral public key and the ciphertext are the output.

RSA_PRIVATE signs, or decrypts OAEP and answers AUTH_FAIL where the padding does not decode; RSA_PUBLIC verifies, or encrypts with a
fresh seed.

Where the spec leaves a point open, a clause states the model's choice of log entry 97, which is no rule of the spec.

Exec answers a next state, as the clauses say, for ecdhAgree, rsaPrivate, rsaPublic, mlkemEncap, mlkemDecap. -/
def Obligations.AgreementAndRsaCommands : Prop :=
  (∀ (s : State) (d : Dev) (tag chk : Nat) (k : Cmd) (x : Desc) (n : Nat),
     Begins s d → chk < 2 → x = k.desc → x.auxLen = tmplAt k + 64 →
     (AtUnit d tag 0x0305 k →
       ∀ alg peer sec, alg = pkeAlgOf k → peer = slice (auxOf k) (operandAt k) (pkLen alg) → secretTmplFault (pkeTmpl k) = none →
         pubKeyOk alg peer = true →
         (pVar x ≠ 1 → n = (if alg = 0x0102 then 64 else 48) → EngineReady d k chk n → ecdhSecret alg (key1 k).mat peer = some sec →
           Finishes (.ecdhAgree tag chk) s d k [.ent] (childDone k (key1 k) (pkeTmpl k) 0x0020 sec []) (drewEngine k chk n d))
         ∧ (∀ mat, pVar x = 1 → n = (if alg = 0x0102 then 64 else 48) + genDraw alg → EngineReady d k chk n →
           genMat alg 0 (engineRandom d k chk n) = some mat → ecdhSecret alg mat peer = some sec →
           Finishes (.ecdhAgree tag chk) s d k [.ent] (secretDone k none (pkeTmpl k) sec (pubOf alg false mat)) (drewEngine k chk n d)))
     ∧ (AtUnit d tag 0x0308 k → inlBad k = false → kemCtLen (pkeAlgOf k) ≤ x.dstLen → EngineReady d k chk 96 →
       ∀ r, r = kemEncap (pkeAlgOf k) (pkOf k) ((engineRandom d k chk 96).take 32) → pComb x = false →
         Finishes (.mlkemEncap tag chk) s d k [.ent]
           (secretDone k (if pInl x then none else some (key1 k)) (pkeTmpl k) r.1 r.2) (drewEngine k chk 96 d))
     ∧ (AtUnit d tag 0x0309 k → (srcOf k).length = kemCtLen (key1 k).alg → EngineReady d k chk 192 →
       ∀ sec, sec = kemDecap (key1 k).alg (key1 k).mat (srcOf k) →
         (pComb x = false →
           Finishes (.mlkemDecap tag chk) s d k [.ent] (secretDone k (some (key1 k)) (pkeTmpl k) sec []) (drewEngine k chk 192 d))
         ∧ (pComb x = true → 32 + (key2 k).mat.length ≤ 128 → bit (pkeTmpl k).attr atEXPORTABLE = false →
           Finishes (.mlkemDecap tag chk) s d k [.ent]
             (childDone k (key2 k) (pkeTmpl k) 0x0020 (sec ++ (key2 k).mat) []) (drewEngine k chk 192 d)))) ∧
  (∀ (s : State) (d : Dev) (tag chk : Nat) (k : Cmd) (x : Desc) (n h : Nat), Begins s d → chk < 2 → x = k.desc → h = pHash x →
     (AtUnit d tag 0x0306 k → pVar x ≠ 3 → ∀ alg mat em, alg = (key1 k).alg → mat = (key1 k).mat →
       n = rsaDraw alg + (if pVar x = 1 then saltLen (auxOf k) else 0) → EngineReady d k chk n → rsaK alg ≤ x.dstLen →
       em = (if pVar x = 1 then pssEncode h (rsaK alg) (digestOf k h) ((engineRandom d k chk n).take (saltLen (auxOf k)))
         else pkcsEncode h (rsaK alg) (digestOf k h)) →
       Finishes (.rsaPrivate tag chk) s d k [.ent] (okOut (beBytes (rsaK alg) (rsaPriv alg mat (beNat em)))) (drewEngine k chk n d))
     ∧ (AtUnit d tag 0x0306 k → pVar x = 3 → ∀ alg mat kk, alg = (key1 k).alg → mat = (key1 k).mat → kk = rsaK alg →
       (srcOf k).length = kk → oaepMax alg h ≤ x.dstLen → n = rsaDraw alg → EngineReady d k chk n → beNat (srcOf k) < (rsaPubOf alg mat).n →
       (∀ m, oaepDecode h kk (strOf k) (beBytes kk (rsaPriv alg mat (beNat (srcOf k)))) = some m →
         Finishes (.rsaPrivate tag chk) s d k [.ent] (okOut m) (drewEngine k chk n d))
       ∧ (oaepDecode h kk (strOf k) (beBytes kk (rsaPriv alg mat (beNat (srcOf k)))) = none →
         Finishes (.rsaPrivate tag chk) s d k [.ent] { failed stAUTH_FAIL 0 with out := zeros x.dstLen } (drewEngine k chk n d)))
     ∧ (AtUnit d tag 0x0307 k → inlBad k = false → pVar x ≠ 3 → (operandOf k).length = rsaK (pkeAlgOf k) →
       Finishes (.rsaPublic tag chk) s d k []
         (if rsaSigOk (pkeAlgOf k) (pkOf k) (pVar x) h (saltLen (auxOf k)) (digestOf k h) (operandOf k) then okRes 0 0
          else failed stVERIFY_FAIL 0) (fun _ => True))
     ∧ (AtUnit d tag 0x0307 k → inlBad k = false → pVar x = 3 → ∀ alg p kk, alg = pkeAlgOf k → p = rsaPubOf alg (pkOf k) →
       kk = rsaK alg → (srcOf k).length ≤ oaepMax alg h → kk ≤ x.dstLen → n = hashSize h → EngineReady d k chk n →
       Finishes (.rsaPublic tag chk) s d k [.ent]
         (okOut (beBytes kk (powMod (beNat (oaepEncode h kk (strOf k) (srcOf k) (engineRandom d k chk n))) p.e p.n))) (drewEngine k chk n d)))

/-- ML-DSA, SLH-DSA and stateful hash-based signatures, and IMAGE_VERIFY, which answers the digest of the image besides. A signature
that ML-DSA does not find within its limit ends with ENGINE_FAULT.

Where the spec leaves a point open, a clause states the model's choice of log entries 77, 166 and 213, which is no rule of the spec.

Exec answers a next state, as the clauses say, for mldsaSign, mldsaVerify, slhdsaSign, slhdsaVerify, hbsVerify, imageVerify. -/
def Obligations.LatticeAndHashSignatureCommands : Prop :=
  ∀ (s : State) (d : Dev) (tag chk : Nat) (k : Cmd) (x : Desc) (n : Nat), Begins s d → chk < 2 → x = k.desc →
    (AtUnit d tag 0x030A k → ∀ m n0 r0 r buf rnd, m = (if pDet x then 0 else 32) → buf = (drbgOf d (cmdQuarter k d)).buf →
      r0 = dsaSign (key1 k).alg (key1 k).mat (pqOf k) (if pDet x then zeros 32 else buf.take m) → n0 = discarded k chk (m + 160 * r0.2) →
      rnd = (if pDet x then zeros 32 else (buf.drop n0).take m) → r = dsaSign (key1 k).alg (key1 k).mat (pqOf k) rnd →
      n = n0 + m + 160 * r.2 → RandomReady d k n → dsaSigLen (key1 k).alg ≤ x.dstLen →
      Finishes (.mldsaSign tag chk) s d k [.ent] (match r.1 with | some sig => okOut sig | none => failed stENGINE 0) (drewRandom k n d))
    ∧ (AtUnit d tag 0x030B k → (operandOf k).length = dsaSigLen (pkeAlgOf k) → inlBad k = false →
      Finishes (.mldsaVerify tag chk) s d k []
        (if dsaOk (pkeAlgOf k) (pkOf k) (pqOf k) (operandOf k) then okRes 0 0 else failed stVERIFY_FAIL 0) (fun _ => True))
    ∧ (AtUnit d tag 0x030C k → n = (if pDet x then 64 else 80) → EngineReady d k chk n → slhSigLen (key1 k).alg ≤ x.dstLen →
      Finishes (.slhdsaSign tag chk) s d k [.ent]
        (okOut (slhSign (key1 k).alg (key1 k).mat (pqOf k) (if pDet x then slice (key1 k).mat 32 16 else (engineRandom d k chk n).take 16)))
        (drewEngine k chk n d))
    ∧ (AtUnit d tag 0x030D k → (operandOf k).length = slhSigLen (pkeAlgOf k) → inlBad k = false →
      Finishes (.slhdsaVerify tag chk) s d k []
        (if slhOk (pkeAlgOf k) (pkOf k) (pqOf k) (operandOf k) then okRes 0 0 else failed stVERIFY_FAIL 0) (fun _ => True))
    ∧ (AtUnit d tag 0x030E k → ∀ l ok, hbsPkLen (pVar x) (auxOf k) = some l →
      (if pVar x = 1 then hssOk (pkOf k) (srcOf k) (operandOf k)
        else xmssOk (decide (pVar x = 3)) (pkOf k) (srcOf k) (operandOf k)) = some ok →
      Finishes (.hbsVerify tag chk) s d k [] (if ok then okRes 0 0 else failed stVERIFY_FAIL 0) (fun _ => True))
    ∧ (AtUnit d tag 0x030F k → ∀ alg pk sig digest size ok, alg = (key1 k).alg → pk = pkOf k → sig = operandOf k →
      digest = hashRun (pHash x) (srcOf k) → (pVar x = 1 ∨ saltLen (auxOf k) = 0) → sig.length = size →
      ((algEc alg = true ∧ pVar x = 0 ∧ size = 2 * (curveOf alg).size
          ∧ ∃ q, ecDecode (curveOf alg) pk = some q
            ∧ ok = ecdsaOk (curveOf alg) q digest (beNat (sig.take (curveOf alg).size)) (beNat (sig.drop (curveOf alg).size)))
        ∨ (alg = 0x0110 ∧ pVar x = 0 ∧ pHash x = 4 ∧ size = 64 ∧ ok = edOk 2 [] pk digest sig)
        ∨ (algRsa alg = true ∧ (pVar x = 1 ∨ pVar x = 2) ∧ size = rsaK alg
          ∧ ok = rsaSigOk alg pk (pVar x) (pHash x) (saltLen (auxOf k)) digest sig)
        ∨ (algDsa alg = true ∧ pVar x = 0 ∧ size = dsaSigLen alg ∧ ok = dsaOk alg pk (pqMessage (pHash x) [] digest) sig)
        ∨ (algSlh alg = true ∧ pVar x = 0 ∧ size = slhSigLen alg ∧ ok = slhOk alg pk (pqMessage (pHash x) [] digest) sig)) →
      Finishes (.imageVerify tag chk) s d k []
        { (if ok then okRes 0 0 else failed stVERIFY_FAIL 0) with
          r0 := leNat (digest.take 8), out := if x.dstLen = 0 then [] else digest
          outLen := if x.dstLen ≠ 0 ∧ ok = true then digest.length else 0 } (fun _ => True))

/-! ## Key management (R130-R136, R158, R159, R205, R206) -/

/-- KEY_GENERATE_PAIR from fresh randomness or from a public key alone, KEY_PUBLIC_EXPORT, KEY_GET_ATTR and KEY_DESTROY. The key is
created, or destroyed, when the fence releases the command.

Where the spec leaves a point open, a clause states the model's choice of log entries 73, 77 and 78, which is no rule of the spec.

Exec answers a next state, as the clauses say, for keyGeneratePair, keyDestroy, keyGetAttr, keyPublicExport. -/
def Obligations.PairAndAttributeCommands : Prop :=
  ∀ (s : State) (d : Dev) (tag chk : Nat) (k : Cmd) (x : Desc) (t : Tmpl), Begins s d → chk < 2 → x = k.desc → t = tmplOf (auxOf k) →
    (AtUnit d tag 0x0102 k → bit x.param 1 = false → ∀ mat r n, n = genDraw t.alg → EngineReady d k chk n →
      genMat t.alg (if t.rsaE = 0 then 65537 else t.rsaE) (engineRandom d k chk n) = some mat →
      r = recOf t t.alg (t.attr + attrLocal) false mat 0 false →
      Finishes (.keyGeneratePair tag chk) s d k [.ent]
        { okOut (if bit x.param 0 then pubOf t.alg false mat else []) with
          r1 := kcvNat r, effects := [.create r t.cls k.inst t.life true none] } (drewEngine k chk n d))
    ∧ (AtUnit d tag 0x0102 k → bit x.param 1 = false → ∀ n, n = genDraw t.alg → EngineReady d k chk n →
      genMat t.alg (if t.rsaE = 0 then 65537 else t.rsaE) (engineRandom d k chk n) = none →
      Finishes (.keyGeneratePair tag chk) s d k [.ent] (failed stENGINE 0) (drewEngine k chk n d))
    ∧ (AtUnit d tag 0x0102 k → bit x.param 1 = true → pubKeyOk t.alg (srcOf k) = true → ∀ r,
      r = recOf t t.alg t.attr true (srcOf k) 0 false →
      Finishes (.keyGeneratePair tag chk) s d k []
        { okOut (if bit x.param 0 then srcOf k else []) with
          r1 := kcvNat r, effects := [.create r t.cls k.inst t.life true none] } (fun _ => True))
    ∧ (AtUnit d tag 0x0102 k → bit x.param 1 = true → pubKeyOk t.alg (srcOf k) = false →
      Finishes (.keyGeneratePair tag chk) s d k [] (failed stBAD_DESCRIPTOR 0) (fun _ => True))
    ∧ (AtUnit d tag 0x0111 k → ∀ pk, pk = pubOf (key1 k).alg (key1 k).pubOnly (key1 k).mat →
      Finishes (.keyPublicExport tag chk) s d k []
        (if x.dstLen < pk.length then { failed stBUFFER_TOO_SMALL 0 with r1 := pk.length }
         else { okOut pk with r0 := beNat (key1 k).kcv }) (fun _ => True))
    ∧ (AtUnit d tag 0x0109 k →
      Finishes (.keyGetAttr tag) s d k []
        { okOut (attrReport d k.inst (key1 k)) with r0 := effAttr (key1 k) k.inst, r1 := (key1 k).used } (fun _ => True))
    ∧ (AtUnit d tag 0x0108 k →
      Finishes (.keyDestroy tag) s d k [] { okRes 0 0 with effects := [.destroy x.key] } (fun _ => True))

/-- KEY_EXPORT_WRAPPED and KEY_EXPORT_X9143: the blob or key block, the check value, and NEVER_EXPORTED to be cleared at release; a
length that the format does not take, an output area too small and a usage that R136 does not list end the command. The padding block's
length is the model's and its bytes are free (log entries 147 and 151).

Where the spec leaves a point open, a clause states the model's choice of log entries 83, 147, 149, 151, 188 and 191, which is no rule
of the spec.

Exec answers a next state, as the clauses say, for keyExportWrapped, keyExportX9143. -/
def Obligations.KeyExportCommands : Prop :=
  ∀ (s : State) (d : Dev) (tag n len : Nat) (k : Cmd) (x y : KeyRec), Begins s d → x = key1 k → y = key2 k →
    (AtUnit d tag 0x0105 k → blobLen k.desc.param y.alg x.mat.length = some len → len ≤ k.desc.dstLen → n = wrapDraw k.desc.param →
      RandomReady d k n →
      Finishes (.keyExportWrapped tag) s d k [.ent]
        { okOut (wrapBlob d k.desc.param x y (randomOf d k n)) with r0 := beNat x.kcv, effects := [.exported x.handle] }
        (drewRandom k n d))
    ∧ (AtUnit d tag 0x0105 k → blobLen k.desc.param y.alg x.mat.length = none →
      Finishes (.keyExportWrapped tag) s d k [] (failed stBAD_LENGTH 0) (fun _ => True))
    ∧ (AtUnit d tag 0x0105 k → blobLen k.desc.param y.alg x.mat.length = some len → k.desc.dstLen < len →
      Finishes (.keyExportWrapped tag) s d k [] { failed stBUFFER_TOO_SMALL 0 with r1 := len } (fun _ => True))
    ∧ (AtUnit d tag 0x0106 k → kbFields x ≠ none → len = kbLen y x.mat.length → k.desc.dstLen < len →
      Finishes (.keyExportX9143 tag) s d k [] { failed stBUFFER_TOO_SMALL 0 with r1 := len } (fun _ => True))
    ∧ (AtUnit d tag 0x0106 k → ∀ use alg mode hdr clear mac bl, kbFields x = some (use, alg, mode) → bl = blkLen y.alg →
      len = kbLen y x.mat.length → len ≤ k.desc.dstLen → n = alignUp (2 + x.mat.length) bl - 2 - x.mat.length → RandomReady d k n →
      hdr = (auxOf k).take 1 ++ decOf 4 len ++ use ++ [alg, mode] ++ slice (auxOf k) 1 2
        ++ [if bit x.attr atTRUSTED_ONLY then 0x45 else 0x53] ++ ascii "0100" ++ kbPad bl →
      clear = beBytes 2 (8 * x.mat.length) ++ x.mat ++ randomOf d k n → mac = kbMac y (hdr ++ clear) →
      Finishes (.keyExportX9143 tag) s d k [.ent]
        { okOut (hdr ++ hexOf (cbcEnc bl (encFn y.alg (kbKey y 0)) mac clear).1 ++ hexOf mac) with
          r0 := beNat x.kcv, effects := [.exported x.handle] } (drewRandom k n d))
    ∧ (AtUnit d tag 0x0106 k → kbFields x = none →
      Finishes (.keyExportX9143 tag) s d k [] (failed stPOLICY 65) (fun _ => True))

/-- KEY_IMPORT_WRAPPED of the formats without a header, and of ATTR_GCM without a template of its own, and KEY_IMPORT_X9143: what
authenticates becomes a key under the template, what does not ends with AUTH_FAIL.

Where the spec leaves a point open, a clause states the model's choice of log entries 67, 83, 147, 149 and 188, which is no rule of the
spec.

Exec answers a next state, as the clauses say, for keyImportWrapped, keyImportX9143. -/
def Obligations.KeyImportCommands : Prop :=
  ∀ (s : State) (d : Dev) (tag : Nat) (k : Cmd) (w : KeyRec) (b : Bytes) (t : Tmpl) (mat : Bytes),
    Begins s d → w = key1 k → b = srcOf k →
    (AtUnit d tag 0x0103 k → k.desc.param ≠ 2 → t = tmplOf (auxOf k) →
      ∀ lo hi n, (algRow t.alg).map (fun r => (r.lo, r.hi)) = some (lo, hi) → lo ≤ n → n ≤ hi →
        blobLen k.desc.param w.alg n = some b.length →
      (unwrapBlob k.desc.param w b = none → Finishes (.keyImportWrapped tag) s d k [] (failed stAUTH_FAIL 0) (fun _ => True))
      ∧ (unwrapBlob k.desc.param w b = some mat →
        tmplFault { t with tflags := t.tflags / 2 } t.alg false true (t.cls ≠ 2) true = none →
        (k.desc.param = 3 → 16 ≤ mat.length ∧ mat.length ≤ 64) → lo ≤ mat.length → mat.length ≤ hi →
        algStrength t.alg mat.length ≤ algStrength w.alg w.mat.length → matOk t.alg mat = true →
        ∀ r, r = recOf t t.alg t.attr false mat 0 false →
          Finishes (.keyImportWrapped tag) s d k []
            { okOut [] with r1 := kcvNat r, effects := [.create r t.cls k.inst t.life true none] } (fun _ => True)))
    ∧ (AtUnit d tag 0x0103 k → k.desc.param = 2 → k.desc.auxLen = 0 → t = tmplOf (b.take 64) → 92 ≤ b.length →
      (matLens t.alg).contains (b.length - 92) = true →
      (attrOpen w.mat b = none → Finishes (.keyImportWrapped tag) s d k [] (failed stAUTH_FAIL 0) (fun _ => True))
      ∧ (∀ pub, attrOpen w.mat b = some mat → matPublic t.alg mat = pub →
        tmplFault { t with tflags := t.tflags / 2 } t.alg pub (algRow t.alg).isSome (t.cls ≠ 2) (algRsa t.alg || t.rsaE = 0) = none →
        algStrength t.alg mat.length ≤ algStrength w.alg w.mat.length →
        (pub = true → pubKeyOk t.alg mat = true) →
        (pub = false → matOk t.alg mat = true
          ∧ ∃ lo hi, (algRow t.alg).map (fun r => (r.lo, r.hi)) = some (lo, hi) ∧ lo ≤ mat.length ∧ mat.length ≤ hi) →
        ∀ r, r = recOf t t.alg t.attr pub mat 0 (bit t.tflags 0) →
          Finishes (.keyImportWrapped tag) s d k []
            { okOut [] with r1 := kcvNat r, effects := [.create r t.cls k.inst t.life true none] } (fun _ => True)))
    ∧ (AtUnit d tag 0x0104 k → ∀ bl use wm wp opts at' ks ct mac clear n alg attr,
      t = tmplOf (auxOf k) → bl = blkLen w.alg → 16 + 4 * bl ≤ b.length →
      b.headD 0 = (if algAes w.alg then 0x44 else 0x42) → decVal (slice b 1 4) = some b.length →
      kbAttr (slice b 5 2) (b.getD 7 0) (b.getD 8 0) = some (use, wm, wp) → decVal (slice b 12 2) = some opts →
      (b.getD 11 0 = 0x45 ∨ b.getD 11 0 = 0x53 ∨ b.getD 11 0 = 0x4E) → slice b 14 2 = ascii "00" →
      kbOpts opts 16 b [] = .ok (at', ks) → unhex (slice b at' (b.length - at' - 2 * bl)) = some ct →
      unhex (b.drop (at' + (b.length - at' - 2 * bl))) = some mac → ct.length % bl = 0 → ct ≠ [] → at' + 2 * bl ≤ b.length →
      clear = (cbcDec bl (decFn w.alg (kbKey w 0)) mac ct).1 → n = beNat (clear.take 2) / 8 →
      (kbMac w (b.take at' ++ clear) ≠ mac → Finishes (.keyImportX9143 tag) s d k [] (failed stAUTH_FAIL 0) (fun _ => True))
      ∧ (kbMac w (b.take at' ++ clear) = mac → beNat (clear.take 2) % 8 = 0 → 2 + n ≤ clear.length →
        kbMat (b.getD 7 0) (slice clear 2 n) = some (alg, mat) → wm = false → wp = false →
        Nat.land t.attr (2 ^ atUSAGE_LIMITED + 2 ^ atGRANTABLE + 2 ^ atCUSTODY + 2 ^ atBACKUP + 2 ^ atNONCE_HW) = t.attr →
        attr = t.attr + use + (if b.getD 11 0 = 0x4E then 0 else 2 ^ atEXPORTABLE)
          + (if b.getD 11 0 = 0x45 then 2 ^ atTRUSTED_ONLY else 0) →
        tmplFault { t with alg := alg, attr := attr } alg false true (t.cls ≠ 2) (t.rsaE = 0) = none →
        algStrength alg mat.length ≤ algStrength w.alg w.mat.length →
        ∀ t' r, t' = (if t.label.all (· == 0) then { t with label := fitTo 16 ks } else t) → r = recOf t' alg attr false mat 0 false →
          Finishes (.keyImportX9143 tag) s d k []
            { okOut [] with r1 := kcvNat r, effects := [.create r t'.cls k.inst t'.life true none] } (fun _ => True)))

/-! ## Services of firmware (R99, R130) -/

/-- KEY_SET_ATTR, KEY_GRANT, KEY_REVOKE_GRANT and KEY_LIST, and an opcode that secure firmware computes itself: what the service comes
to is kept with the command until firmware completes it.

Where the spec leaves a point open, a clause states the model's choice of log entries 62, 71, 84, 85, 86, 187 and 190, which is no rule
of the spec.

Exec answers a next state, as the clauses say, for keySetAttr, keyList, keyGrant, keyRevokeGrant, firmwareRoutedOpcode. -/
def Obligations.RoutedKeyCommands : Prop :=
  ∀ (s : State) (d : Dev) (tag : Nat) (k : Cmd) (r : KeyRec), Begins s d →
    (AtFirmware d tag 0x010A k → keyAt d (hRec k.desc.key) = some r → ∀ x, x = changeOf (auxOf k) →
      (changeDenied d r x = none → Serves (.keySetAttr tag) s d k []
        { okRes (changeAttr r.attr x) 0 with
          effects := [.setAttr k.desc.key x.set x.clear x.limit (if x.apply = 1 then some x.label else none)] } (fun _ => True))
      ∧ (∀ e, changeDenied d r x = some e → Serves (.keySetAttr tag) s d k [] (failed e.1 e.2) (fun _ => True)))
    ∧ (AtFirmware d tag 0x010C k → keyAt d (hRec k.desc.key) = some r → r.handle = k.desc.key → ∀ g, g = grantOf (auxOf k) →
      Nat.land g.mask (bits r.attr 15 0) = g.mask → (r.grants.length < 60 ∨ ∃ x, x ∈ r.grants ∧ x.inst = g.inst) →
      Serves (.keyGrant tag) s d k [] { okRes 0 0 with effects := [.grant k.desc.key g] } (fun _ => True))
    ∧ (AtFirmware d tag 0x010C k → keyAt d (hRec k.desc.key) = some r → r.handle = k.desc.key → ∀ g, g = grantOf (auxOf k) →
      (Nat.land g.mask (bits r.attr 15 0) ≠ g.mask →
        Serves (.keyGrant tag) s d k [] (failed stBAD_DESCRIPTOR 0x0100) (fun _ => True))
      ∧ (Nat.land g.mask (bits r.attr 15 0) = g.mask → 60 ≤ r.grants.length → (∀ x, x ∈ r.grants → x.inst ≠ g.inst) →
        Serves (.keyGrant tag) s d k [] (failed stPOLICY 72) (fun _ => True)))
    ∧ (AtFirmware d tag 0x010D k → (hInst k.desc.key = k.inst ∨ (grantOf (auxOf k)).inst = k.inst) →
      Serves (.keyRevokeGrant tag) s d k [] { okRes 0 0 with effects := [.revoke k.desc.key (grantOf (auxOf k)).inst] } (fun _ => True))
    ∧ (AtFirmware d tag 0x010D k → hInst k.desc.key ≠ k.inst → (grantOf (auxOf k)).inst ≠ k.inst →
      Serves (.keyRevokeGrant tag) s d k [] (failed stPOLICY 64) (fun _ => True))
    ∧ (AtFirmware d tag 0x010B k → ∀ (mine : KeyRec → Bool) alg all take, alg = leAt (auxOf k) 8 2 →
      (∀ x, mine x = (if k.desc.param = 0 then decide (hInst x.handle = k.inst) else x.grants.any (fun g => g.inst = k.inst))) →
      all = (keysOf d).filter (fun nk => leAt (auxOf k) 0 8 ≤ nk.1 && mine nk.2 && (alg = 0 || nk.2.alg = alg)) →
      take = all.take (k.desc.dstLen / 32) →
      (restoring d = true → k.desc.dstLen / 32 < (all.filter (fun nk => nk.1 < d.key.frontier)).length) →
      ∀ ns next, ns = (take.map (·.1)).filter (fun n => (residentOf d n).isNone) →
        next = ((all.drop (k.desc.dstLen / 32)).head?.map (·.1)).getD 0 →
        (NoT1Read d ns → Serves (.keyList tag) s d k []
          { okOut (take.map (fun nk => listEntry d nk.2)).flatten with r0 := next, r1 := take.length } (fun _ => True))
        ∧ (∀ x e, ReadsT1 k ns d x e → readsNone e (cmdQuarter k d) (.cmd tag) = true → k.tag = tag →
          Completes (.keyList tag) s (except []) fun t => cmdOf t tag = some { x with
            svc := some { okOut (take.map (fun nk => listEntry e nk.2)).flatten with r0 := next, r1 := take.length } }))
    ∧ (∀ op, opFirmware op = true → AtFirmware d tag op k →
      Serves (.firmwareRoutedOpcode tag) s d k [] (okRes 0 0) (fun _ => True))

/-- KEY_BACKUP_EXPORT, KEY_RESTORE, KEY_IMPORT_CLEAR and QUORUM_CHALLENGE: a container of the keys that fit, each entry sealed under
fresh bytes and marked exported; the entries of a container in order; components that must each and together have the check values
given; a challenge of the class asked for, outstanding from now on.

Where the spec leaves a point open, a clause states the model's choice of log entries 70, 83, 87, 103, 192 and 205, which is no rule of
the spec.

Exec answers a next state, as the clauses say, for keyBackupExport, keyRestore, keyImportClear, quorumChallenge. -/
def Obligations.CustodyCommands : Prop :=
  ∀ (s : State) (d : Dev) (tag : Nat) (k : Cmd), Begins s d →
    (AtFirmware d tag 0x010E k → ∀ all fit n, all = backupKeys k d → fit = backupFit (k.desc.dstLen - 32) all → n = 12 * fit.length →
      (restoring d = true → ∀ done, done = all.filter (fun nk => nk.1 < d.key.frontier) →
        (backupFit (k.desc.dstLen - 32) done).length ≠ done.length) → 28 ≤ k.unit.getD 28 →
      ∀ (out : Dev → Result), (∀ e, out e = { okOut (backupHeader k.inst fit.length (key2 k).kcv
            ++ (fit.zipIdx.map (fun ki => leBytes 8 ki.1.2.handle ++ leBytes 8 ki.1.2.resv ++ leBytes 8 ki.1.2.nonceResv
              ++ attrSeal (key2 k).mat (slice (randomOf e k n) (12 * ki.2) 12) (attrHeader e ki.1.2 false) ki.1.2.mat)).flatten) with
          r0 := ((all.drop fit.length).head?.map (·.1)).getD 0, r1 := fit.length,
          effects := fit.map (fun nk => .exported nk.2.handle) }) →
        (NoT1Read d (fit.map (·.1)) → RandomReady d k n → Serves (.keyBackupExport tag) s d k [.ent] (out d) (drewRandom k n d))
        ∧ (∀ x e, ReadsT1 k (fit.map (·.1)) d x e → readsNone e (cmdQuarter k d) (.cmd tag) = true →
          cmdQuarter k e = cmdQuarter k d → RandomReady e k n →
          Completes (.keyBackupExport tag) s (except []) fun t => cmdOf t tag = some { x with svc := some (out e) }))
    ∧ (AtFirmware d tag 0x010F k → vaultWritable d = true → (srcOf k).take 4 = ascii "ADKB" →
      leAt (srcOf k) 4 1 = 1 → slice (srcOf k) 12 3 = fitTo 3 (key2 k).kcv →
      ∀ n r, n = leAt (srcOf k) 8 4 → r = restoreGo k d n ((srcOf k).drop 32) 0 [] →
        (k.desc.param ≠ 1 → Serves (.keyRestore tag) s d k [] r (fun _ => True))
        ∧ (k.desc.param = 1 → 16 * n ≤ k.desc.dstLen →
          Serves (.keyRestore tag) s d k []
            { r with out := (oldHandles (key2 k).mat n ((srcOf k).drop 32)).take r.out.length } (fun _ => True))
        ∧ (k.desc.param = 1 → k.desc.dstLen < 16 * n →
          Serves (.keyRestore tag) s d k [] { failed stBUFFER_TOO_SMALL 0 with r1 := 16 * n } (fun _ => True)))
    ∧ (AtFirmware d tag 0x010F k → vaultWritable d = false →
      Serves (.keyRestore tag) s d k [] (failed stVAULT_RO 0) (fun _ => True))
    ∧ (AtFirmware d tag 0x0110 k → d.sys.mode = .ceremony → ∀ t n len mat r, t = tmplOf (auxOf k) → n = k.desc.param →
      len = symLen t.alg 0x0110 → mat = clearJoin n len (srcOf k) →
      (∀ i, i < n → kcvOf t.alg false (slice (srcOf k) (len * i) len) = slice (auxOf k) (64 + 8 * i + 5) 3) →
      kcvOf t.alg false mat = slice (auxOf k) (64 + 8 * n) 3 → r = recOf t t.alg t.attr false mat 0 false →
      Serves (.keyImportClear tag) s d k []
        { okOut [] with r1 := kcvNat r, effects := [.create r t.cls k.inst t.life true none] } (fun _ => True))
    ∧ (AtFirmware d tag 0x0110 k → d.sys.mode = .ceremony → ∀ t n len i, t = tmplOf (auxOf k) → n = k.desc.param →
      len = symLen t.alg 0x0110 → i < n →
      (∀ j, j < i → kcvOf t.alg false (slice (srcOf k) (len * j) len) = slice (auxOf k) (64 + 8 * j + 5) 3) →
      kcvOf t.alg false (slice (srcOf k) (len * i) len) ≠ slice (auxOf k) (64 + 8 * i + 5) 3 →
      Serves (.keyImportClear tag) s d k [] (failed stVERIFY_FAIL (i + 1)) (fun _ => True))
    ∧ (AtFirmware d tag 0x0112 k → classUsable d (bits k.desc.param 7 0) = false →
      Serves (.quorumChallenge tag) s d k [] (failed stBAD_DESCRIPTOR 0x06) (fun _ => True))
    ∧ (AtFirmware d tag 0x0112 k → ∀ cls who q bs till, cls = bits k.desc.param 7 0 → classUsable d cls = true →
      who = chalWho k.inst (leAt (auxOf k) 0 2) → ((chalsOut d).filter (fun c => c.who = who)).length < 16 → (chalsOut d).length < 4096 →
      q = homelessQuarter d → RandomAt d q 32 →
      till = stamp d + ((qclassOf d cls).map (·.lifetime)).getD 0 * 32768 →
      bs = chalBytes cls who d.ofc.nextChal ((drbgOf d q).buf.take 32) d.fuse.serial (leAt (auxOf k) 0 2) (leAt (auxOf k) 8 8)
        (slice (auxOf k) 0x10 48) till d.nv.bootCnt →
      Serves (.quorumChallenge tag) s d k [.ent, .ofc] { okOut bs with r0 := d.ofc.nextChal }
        (fun t => t.ofc.chals = d.ofc.chals ++ [⟨d.ofc.nextChal, cls, who, bit k.desc.param 8, till, bs, [], false, false⟩] ∧ t.ofc.nextChal = d.ofc.nextChal + 1))

/-! ## Payment, tokens and access codes (R185-R196) -/

/-- DUKPT_DERIVE makes the working key of a transaction, or the initial key, as a child of the base derivation key; CVV_GENERATE and
CVV_VERIFY compute and compare a card value.

Where the spec leaves a point open, a clause states the model's choice of log entry 80, which is no rule of the spec.

Exec answers a next state, as the clauses say, for dukptDerive, cvvGenerate, cvvVerify. -/
def Obligations.DukptAndCardValueCommands : Prop :=
  ∀ (s : State) (d : Dev) (tag chk : Nat) (k : Cmd) (b : KeyRec) (ksn : Bytes) (t : Tmpl), Begins s d → chk < 2 → MaskReady d k 0 →
    b = key1 k → ksn = (auxOf k).take 16 → t = tmplOf ((auxOf k).drop 16) →
    (AtUnit d tag 0x0601 k → bits k.desc.param 3 0 = 8 → ∀ mat r,
      mat = (if b.alg = 0x0018 then triple (tdukptInitial b.mat ksn) else dukptInitial b.alg b.mat ksn) →
      r = recOf t b.alg (2 ^ atDUKPT + 2 ^ atEXPORTABLE + 2 ^ atTRUSTED_ONLY + Nat.land t.attr (2 ^ atUSAGE_LIMITED)
        + Nat.land b.attr attrLocal) false mat b.handle false →
      Finishes (.dukptDerive tag chk) s d k [.ent]
        { okOut [] with r1 := kcvNat r, effects := [.create r t.cls k.inst t.life true none] } (drewMask k 0 d))
    ∧ (AtUnit d tag 0x0601 k → ∀ c use attr r, c ∈ [(1, 2 ^ atPIN), (2, 2 ^ atSIGN + 2 ^ 37), (3, 2 ^ atVERIFY + 2 ^ 37),
        (4, 2 ^ atSIGN + 2 ^ atVERIFY + 2 ^ 37), (5, 2 ^ atENCRYPT), (6, 2 ^ atDECRYPT), (7, 2 ^ atENCRYPT + 2 ^ atDECRYPT)] →
      bits k.desc.param 3 0 = c.1 → use = c.2 → (b.alg ≠ 0x0018 → algStrength t.alg 0 ≤ algStrength b.alg 0) →
      attr = Nat.xor (use + Nat.land b.attr attrLocal)
        (withBits (Nat.land t.attr (2 ^ atUSAGE_LIMITED + (if 5 ≤ c.1 then 0x7F * 2 ^ 32 else 0) + 0xF * 2 ^ 40)) use 0) →
      attrFault t.alg false t.cls t.qc (attr - Nat.land attr attrLocal) t.limit t.life = none →
      r = recOf t t.alg attr false (dukptKey b ksn c.1 t.alg) b.handle false →
      Finishes (.dukptDerive tag chk) s d k [.ent]
        { okOut [] with r1 := kcvNat r, effects := [.create r t.cls k.inst t.life true none] } (drewMask k 0 d))
    ∧ (AtUnit d tag 0x0601 k → bits k.desc.param 3 0 ≠ 8 → b.alg ≠ 0x0018 → algStrength b.alg 0 < algStrength t.alg 0 →
      Finishes (.dukptDerive tag chk) s d k [.ent] (failed stBAD_DESCRIPTOR 0x0100) (drewMask k 0 d))
    ∧ (AtUnit d tag 0x0604 k → Finishes (.cvvGenerate tag chk) s d k [.ent] (okRes (bcdOf (cvvDigits k)) 0) (drewMask k 0 d))
    ∧ (AtUnit d tag 0x0605 k →
      Finishes (.cvvVerify tag chk) s d k [.ent]
        (if beNat (slice (auxOf k) 0x10 4) = bcdOf (cvvDigits k) then okRes 0 0 else failed stVERIFY_FAIL 0) (drewMask k 0 d))

/-- PIN_TRANSLATE, PIN_VERIFY and DATA_TRANSLATE: a PIN block that passes its format's checks is formed anew under the other key; a PIN
is compared with a reference block or with the natural PIN and its offset; data goes from one key to another. A block that does not
pass ends with VERIFY_FAIL.

FF1_ENCRYPT, FF1_DECRYPT and TOKEN_TRANSLATE: head and tail stand, the characters between are encrypted in the radix asked for; a
character outside the alphabet ends the command and names its place.

Where the spec leaves a point open, a clause states the model's choice of log entry 67, which is no rule of the spec.

Exec answers a next state, as the clauses say, for pinTranslate, pinVerify, dataTranslate, ff1Encrypt, ff1Decrypt, tokenTranslate. -/
def Obligations.PinAndDataCommands : Prop :=
  (∀ (s : State) (d : Dev) (tag chk : Nat) (k : Cmd) (a : Bytes) (fi fo : Nat), Begins s d → chk < 2 → a = auxOf k → fi = leAt a 0 1 →
     fo = leAt a 1 1 →
     (AtUnit d tag 0x0602 k → pinSide fi (key1 k) (leAt a 3 1 ≠ 0) = none → pinSide fo (key2 k) false = none → (fo = 1 → fi = 1) →
       ∀ q n, q = pinOf fi (pinField fi (pinInKey k) (panDigits a) (srcOf k)) → n = pinRandom fo → MaskReady d k n →
         (∀ pin, q = some pin →
           Finishes (.pinTranslate tag chk) s d k [.ent] (okOut (pinForm fo (key2 k).mat (panDigits a) pin (pastMask d k n)))
             (drewMask k n d))
         ∧ (q = none → Finishes (.pinTranslate tag chk) s d k [.ent] (failed stVERIFY_FAIL 1) (drewMask k 0 d)))
     ∧ (AtUnit d tag 0x0602 k → MaskReady d k 0 → pinSide fi (key1 k) (leAt a 3 1 ≠ 0) = none → pinSide fo (key2 k) false = none →
       fo = 1 → fi ≠ 1 → Finishes (.pinTranslate tag chk) s d k [.ent] (failed stBAD_DESCRIPTOR 0x0101) (drewMask k 0 d))
     ∧ (∀ c, c ∈ [(0x0602, Instr.pinTranslate tag chk), (0x0603, Instr.pinVerify tag chk)] → AtUnit d tag c.1 k → MaskReady d k 0 →
       (∀ e, pinSide fi (key1 k) (leAt a 3 1 ≠ 0) = some e → Finishes c.2 s d k [.ent] (failed e.1 e.2) (drewMask k 0 d))
       ∧ (∀ e, pinSide fi (key1 k) (leAt a 3 1 ≠ 0) = none → pinSide fo (key2 k) false = some e → (c.1 = 0x0602 ∨ k.desc.param = 1) →
         Finishes c.2 s d k [.ent] (failed e.1 e.2) (drewMask k 0 d)))
     ∧ (AtUnit d tag 0x0603 k → MaskReady d k 0 → k.desc.param = 1 → pinSide fi (key1 k) (leAt a 3 1 ≠ 0) = none →
       pinSide fo (key2 k) false = none → ∀ pin ref, pinOf fi (pinField fi (pinInKey k) (panDigits a) (srcOf k)) = some pin →
       pinOf fo (pinField fo (key2 k).mat (panDigits a) (slice a 0x20 (if fo = 4 then 16 else 8))) = some ref →
       Finishes (.pinVerify tag chk) s d k [.ent] (if ref = pin then okRes 0 0 else failed stVERIFY_FAIL 0) (drewMask k 0 d))
     ∧ (AtUnit d tag 0x0603 k → MaskReady d k 0 → k.desc.param ≠ 1 → pinSide fi (key1 k) (leAt a 3 1 ≠ 0) = none →
       (algAes (key2 k).alg = true ∨ (key2 k).alg = 0x0018) → ∀ pin,
       pinOf fi (pinField fi (pinInKey k) (panDigits a) (srcOf k)) = some pin →
       Finishes (.pinVerify tag chk) s d k [.ent]
         (if offsetPin (key2 k) a pin.length = pin then okRes 0 0 else failed stVERIFY_FAIL 0) (drewMask k 0 d))
     ∧ (AtUnit d tag 0x0606 k → MaskReady d k 0 → (algAes (key1 k).alg = true ∨ algAes (key2 k).alg = true → (srcOf k).length % 16 = 0) →
       ∀ p inKey clear, p = k.desc.param →
         inKey = (if bits p 5 4 = 0 then (key1 k).mat else dukptKey (key1 k) (slice a 0x20 12) 6 (key1 k).alg) →
         clear = dtRun (key1 k).alg inKey (bits p 1 0 = 1) true (a.take 16) (srcOf k) →
         Finishes (.dataTranslate tag chk) s d k [.ent]
           (okOut (dtRun (key2 k).alg (key2 k).mat (bits p 3 2 = 1) false (slice a 16 16) clear)) (drewMask k 0 d))
     ∧ (AtUnit d tag 0x0606 k → MaskReady d k 0 → (algAes (key1 k).alg = true ∨ algAes (key2 k).alg = true) → (srcOf k).length % 16 ≠ 0 →
       Finishes (.dataTranslate tag chk) s d k [.ent] (failed stBAD_LENGTH 0) (drewMask k 0 d))) ∧
  (∀ (s : State) (d : Dev) (tag chk : Nat) (k : Cmd) (a m : Bytes), Begins s d → chk < 2 → MaskReady d k 0 → a = auxOf k → m = srcOf k →
     ((∀ i, i < m.length → symVal (m.getD i 0) < bits k.desc.param 5 0) →
       (AtUnit d tag 0x0701 k → Finishes (.ff1Encrypt tag chk) s d k [.ent] (okOut (ff1Text k.desc (key1 k).mat a false m)) (drewMask k 0 d))
       ∧ (AtUnit d tag 0x0702 k → Finishes (.ff1Decrypt tag chk) s d k [.ent] (okOut (ff1Text k.desc (key1 k).mat a true m)) (drewMask k 0 d))
       ∧ (AtUnit d tag 0x0703 k →
         Finishes (.tokenTranslate tag chk) s d k [.ent]
           (okOut (ff1Text k.desc (key2 k).mat (slice a (8 + leAt a 0 1) (leAt a 1 1)) false
             (ff1Text k.desc (key1 k).mat (slice a 8 (leAt a 0 1)) true m))) (drewMask k 0 d)))
     ∧ (∀ i c, i < m.length → bits k.desc.param 5 0 ≤ symVal (m.getD i 0) →
         (∀ j, j < i → symVal (m.getD j 0) < bits k.desc.param 5 0) →
         c ∈ [(0x0701, Instr.ff1Encrypt tag chk), (0x0702, Instr.ff1Decrypt tag chk), (0x0703, Instr.tokenTranslate tag chk)] →
         AtUnit d tag c.1 k → Finishes c.2 s d k [.ent] (failed stBAD_DESCRIPTOR (0x0200 + i)) (drewMask k 0 d)))

/-- FF1 decryption undoes FF1 encryption: every list of digits of a radix comes back, under every key and tweak.

Counter mode undoes itself under every block function with blocks of 16 bytes; CBC decryption undoes CBC encryption under every
block function and its inverse. -/
def Obligations.CipherInverses : Prop :=
  (∀ (key tweak : Bytes) (radix : Nat) (x : List Nat), 2 ≤ radix → (∀ c, c ∈ x → c < radix) →
     ff1 key radix tweak true (ff1 key radix tweak false x) = x) ∧
  ((∀ (w : Nat) (f : Bytes → Bytes) (ctr m : Bytes), (∀ b, (f b).length = 16) → (ctrWith w f ctr (ctrWith w f ctr m).1).1 = m)
   ∧ (∀ (n : Nat) (f g : Bytes → Bytes) (iv m : Bytes), 0 < n → (∀ b, b.length = n → (f b).length = n ∧ g (f b) = b) →
       iv.length = n → m.length % n = 0 → (cbcDec n g iv (cbcEnc n f iv m).1).1 = m))

/-- HOTP and TOTP codes, generated and verified, and pickup codes: a code generated takes the next value of the key's counter, an
accepted HOTP or TOTP value moves the counter past it at release, and no value in the window answers VERIFY_FAIL.

Where the spec leaves a point open, a clause states the model's choice of log entries 73, 79 and 82, which is no rule of the spec.

Exec answers a next state, as the clauses say, for hotpGenerate, hotpVerify, totpGenerate, totpVerify, lockerTokenSign,
pickupCodeIssue, pickupCodeVerify. -/
def Obligations.AccessCodeCommands : Prop :=
  ∀ (s : State) (d : Dev) (tag chk : Nat) (k : Cmd) (a : Bytes) (x : KeyRec), Begins s d → chk < 2 → a = auxOf k →
    keyAt d (hRec k.desc.key) = some x → k.counted ≠ [] →
    (AtUnit d tag 0x0801 k → ∀ v, CounterReady d k v →
      Finishes (.hotpGenerate tag chk) s d k [.key] { okRes (codeAt k v) v with effects := [.nonce k.desc.key (v + 1)] } (drewCounter k v d))
    ∧ (AtUnit d tag 0x0802 k → ∀ r, residentOf d (hRec k.desc.key) = some r →
      (∀ i, i ≤ leAt a 4 1 → codeAt k (r.ptr + i) = leAt a 0 4 → (∀ j, j < i → codeAt k (r.ptr + j) ≠ leAt a 0 4) →
        r.ptr + i + 1 + 2 ^ 22 < x.nonceResv →
        Finishes (.hotpVerify tag chk) s d k []
          { okRes (r.ptr + i) 0 with effects := [.counter k.desc.key (r.ptr + i + 1)] } (fun _ => True))
      ∧ ((∀ i, i ≤ leAt a 4 1 → codeAt k (r.ptr + i) ≠ leAt a 0 4) →
        Finishes (.hotpVerify tag chk) s d k [] (failed stVERIFY_FAIL 0) (fun _ => True)))
    ∧ (AtUnit d tag 0x0803 k →
      Finishes (.totpGenerate tag chk) s d k [] (okRes (codeAt k (totpStep a)) (totpStep a)) (fun _ => True))
    ∧ (AtUnit d tag 0x0804 k → ∀ v, totpStep a ≤ v + leAt a 16 1 → v ≤ totpStep a + leAt a 17 1 → x.nonce ≤ v →
      codeAt k v = leAt a 20 4 →
      (∀ u, u < v → totpStep a ≤ u + leAt a 16 1 → x.nonce ≤ u → codeAt k u ≠ leAt a 20 4) → v + 1 + 2 ^ 22 < x.nonceResv →
      Finishes (.totpVerify tag chk) s d k [] { okRes v 0 with effects := [.counter k.desc.key (v + 1)] } (fun _ => True))
    ∧ (AtUnit d tag 0x0804 k →
      (∀ u, totpStep a ≤ u + leAt a 16 1 → u ≤ totpStep a + leAt a 17 1 → x.nonce ≤ u → codeAt k u ≠ leAt a 20 4) →
      Finishes (.totpVerify tag chk) s d k [] (failed stVERIFY_FAIL 0) (fun _ => True))
    ∧ (AtUnit d tag 0x0806 k → ∀ v, CounterReady d k v →
      Finishes (.pickupCodeIssue tag chk) s d k [.key]
        { okRes (pickupCode k v) v with effects := [.nonce k.desc.key (v + 1)] } (drewCounter k v d))
    ∧ (AtUnit d tag 0x0807 k →
      Finishes (.pickupCodeVerify tag chk) s d k []
        (if pickupCode k (beNat (slice a 32 8)) = leAt a 40 8 then okRes 0 0 else failed stVERIFY_FAIL 0) (fun _ => True))
    ∧ (AtUnit d tag 0x0805 k → (key1 k).alg = 0x0020 → lockerFault (srcOf k) = none → 64 ≤ k.desc.dstLen → ∀ v body out,
      CounterReady d k v → body = (srcOf k).take 0x10 ++ beBytes 8 v ++ slice (srcOf k) 0x18 16 ++ leBytes 8 (kcvNat (key1 k)) →
      out = body ++ (hmac256 (key1 k).mat body).take 16 →
      Finishes (.lockerTokenSign tag chk) s d k [.key]
        { okOut out with r0 := v, effects := [.nonce k.desc.key (v + 1)] } (drewCounter k v d))
    ∧ (AtUnit d tag 0x0805 k → (key1 k).alg = 0x0110 → lockerFault (srcOf k) = none → 112 ≤ k.desc.dstLen → EngineReady d k chk 48 →
      ∀ v body out, CounterReady d k v →
      body = (srcOf k).take 0x10 ++ beBytes 8 v ++ slice (srcOf k) 0x18 16 ++ leBytes 8 (kcvNat (key1 k)) →
      out = body ++ edSign 0 [] ((key1 k).mat.take 32) body →
      Finishes (.lockerTokenSign tag chk) s d k [.key, .ent]
        { okOut out with r0 := v, effects := [.nonce k.desc.key (v + 1)] } (fun t => drewCounter k v d t ∧ drewEngine k chk 48 d t))
    ∧ (AtUnit d tag 0x0805 k → (key1 k).alg = 0x0101 → lockerFault (srcOf k) = none → 112 ≤ k.desc.dstLen → EngineReady d k chk 80 →
      ∀ v body g out, CounterReady d k v →
      body = (srcOf k).take 0x10 ++ beBytes 8 v ++ slice (srcOf k) 0x18 16 ++ leBytes 8 (kcvNat (key1 k)) →
      g = ecdsaSign p256 2 (beNat ((key1 k).mat.take 32)) (sha256 body) ((engineRandom d k chk 80).take 32) →
      out = body ++ (beBytes 32 g.1 ++ beBytes 32 g.2) →
      Finishes (.lockerTokenSign tag chk) s d k [.key, .ent]
        { okOut out with r0 := v, effects := [.nonce k.desc.key (v + 1)] } (fun t => drewCounter k v d t ∧ drewEngine k chk 80 d t))
    ∧ (AtUnit d tag 0x0805 k → algDsa (key1 k).alg = true → lockerFault (srcOf k) = none →
      48 + dsaSigLen (key1 k).alg ≤ k.desc.dstLen → ∀ v body buf m r0 n0 r n, CounterReady d k v →
      body = (srcOf k).take 0x10 ++ beBytes 8 v ++ slice (srcOf k) 0x18 16 ++ leBytes 8 (kcvNat (key1 k)) →
      buf = (drbgOf d (cmdQuarter k d)).buf → m = pqMessage 0 [] body → r0 = dsaSign (key1 k).alg (key1 k).mat m (buf.take 32) →
      n0 = discarded k chk (32 + 160 * r0.2) → r = dsaSign (key1 k).alg (key1 k).mat m ((buf.drop n0).take 32) →
      n = n0 + 32 + 160 * r.2 → RandomReady d k n →
      Finishes (.lockerTokenSign tag chk) s d k [.key, .ent]
        (match r.1 with
          | some sig => { okOut (body ++ sig) with r0 := v, effects := [.nonce k.desc.key (v + 1)] }
          | none => failed stENGINE 0) (fun t => drewCounter k v d t ∧ drewRandom k n d t))
    ∧ (AtUnit d tag 0x0805 k → ∀ off, lockerFault (srcOf k) = some off →
      Finishes (.lockerTokenSign tag chk) s d k [] (failed stBAD_DESCRIPTOR off) (fun _ => True))
    ∧ (AtUnit d tag 0x0805 k → lockerFault (srcOf k) = none → k.desc.dstLen < 48 + lockerSig (key1 k).alg →
      Finishes (.lockerTokenSign tag chk) s d k []
        { failed stBUFFER_TOO_SMALL 0 with r1 := 48 + lockerSig (key1 k).alg } (fun _ => True))

/-- A redundant check unit that disagrees twice ends any operation with ENGINE_FAULT and takes the lane, cluster or engine out of
service, whatever the operation would have come to (R167, R220). A lane or cluster draws nothing for it; an engine draws what its two runs
need.

Where the spec leaves a point open, a clause states the model's choice of log entry 76, which is no rule of the spec. -/
def Obligations.CheckUnitMismatch : Prop :=
  (∀ (s : State) (d : Dev) (tag chk i : Nat) (k : Cmd) (c : Nat × Instr), Begins s d → 2 ≤ chk → k.unit = some i → i < 20 →
     c ∈ [(0x0201, Instr.aesEcb tag chk), (0x0202, .aesCbc tag chk), (0x0203, .aesCtr tag chk),
       (0x0204, .aesGcm tag chk), (0x0205, .aesCcm tag chk), (0x0206, .aesXts tag chk), (0x0207, .tdesEcb tag chk),
       (0x0208, .tdesCbc tag chk), (0x0209, .ctxSave tag chk), (0x020A, .ctxRestore tag chk), (0x0401, .hash tag chk),
       (0x0402, .shake tag chk), (0x0403, .hmac tag chk), (0x0404, .cmac tag chk), (0x0405, .gmac tag chk), (0x0406, .macVerify tag chk),
       (0x0407, .hkdf tag chk), (0x0408, .kdfCtr tag chk), (0x0409, .tls13KeySchedule tag chk), (0x0601, .dukptDerive tag chk),
       (0x0602, .pinTranslate tag chk), (0x0603, .pinVerify tag chk), (0x0604, .cvvGenerate tag chk), (0x0605, .cvvVerify tag chk),
       (0x0606, .dataTranslate tag chk), (0x0701, .ff1Encrypt tag chk), (0x0702, .ff1Decrypt tag chk), (0x0703, .tokenTranslate tag chk),
       (0x0801, .hotpGenerate tag chk), (0x0802, .hotpVerify tag chk), (0x0803, .totpGenerate tag chk), (0x0804, .totpVerify tag chk),
       (0x0805, .lockerTokenSign tag chk), (0x0806, .pickupCodeIssue tag chk), (0x0807, .pickupCodeVerify tag chk)] →
     AtUnit d tag c.1 k →
       Completes c.2 s ([.cmd, .units, .regs, .shadow] ++ evParts) fun t =>
         cmdOf t tag = some { k with stage := .held, result := some (failed stENGINE 0) } ∧ (unitOf t i).oos = true
           ∧ fld t (unitPage i) Reg.SYM_CFG_SERVE = 0)
  ∧ (∀ (s : State) (d : Dev) (tag chk i : Nat) (k : Cmd) (c : Nat × Instr × Nat), Begins s d → 2 ≤ chk → k.unit = some i → 20 ≤ i → i < 28 →
     c ∈ [(0x0102, Instr.keyGeneratePair tag chk, genDraw (tmplOf (auxOf k)).alg), (0x0111, .keyPublicExport tag chk, 0),
       (0x0301, .ecdsaSign tag chk, 112), (0x0302, .ecdsaVerify tag chk, 0), (0x0303, .eddsaSign tag chk, 48),
       (0x0304, .eddsaVerify tag chk, 0), (0x0305, .ecdhAgree tag chk, 64 + genDraw (pkeAlgOf k)),
       (0x0306, .rsaPrivate tag chk, 80 + saltLen (auxOf k)), (0x0307, .rsaPublic tag chk, hashSize (pHash k.desc)),
       (0x0308, .mlkemEncap tag chk, 96), (0x0309, .mlkemDecap tag chk, 192), (0x030A, .mldsaSign tag chk, 32 + 160 * 814),
       (0x030B, .mldsaVerify tag chk, 0), (0x030C, .slhdsaSign tag chk, 80), (0x030D, .slhdsaVerify tag chk, 0),
       (0x030E, .hbsVerify tag chk, 0), (0x030F, .imageVerify tag chk, 0)] →
     AtUnit d tag c.1 k → (c.2.2 = 0 ∨ RandomReady d k (2 * c.2.2)) →
       Completes c.2.1 s ([.cmd, .units, .regs, .shadow, .ent] ++ evParts) fun t =>
         cmdOf t tag = some { k with stage := .held, result := some (failed stENGINE 0) } ∧ (unitOf t i).oos = true
           ∧ fld t (unitPage i) Reg.PKE_CFG_SERVE = 0)

/-! ## Queues and doorbells (R77-R81) -/

/-- SQ_ENABLE, SQ_DISABLE, CQ_ENABLE, CQ_DISABLE: a queue that may be enabled begins anew at index 0 with what was written; one that
may be disabled keeps its registers but EN.

The doorbells: a value in the ring moves the tail or the head and nothing else; one outside the permitted range stops the queue
with cause 1; a doorbell of a disabled or stopped queue does nothing (R80, R81).

Where the spec leaves a point open, a clause states the model's choice of log entries 23, 91, 145 and 161, which is no rule of the
spec.

Exec answers a next state, as the clauses say, for sqEnable, sqDisable, cqEnable, cqDisable, sqTailDoorbell, cqHeadDoorbell. -/
def Obligations.QueueCommands : Prop :=
  (∀ (s : State) (d : Dev) (a : Access) (inst q val : Nat), Begins s d → AwakeFor d a → inst < 1024 → q < 16 → val < 2 ^ 32 →
     (hdrOf d (instPage inst)).softRst = false →
     ((admitWrite (seenAs a) (instPage inst) (0x208 + 0x10 * q) d).1 = some .inst → 1 ≤ bits val 15 8 →
       (qFld d inst q Reg.SQ_CFG_EN = 0 → 1 ≤ bits val 4 0 → bits val 4 0 ≤ 16 →
         qFld d inst (bits val 19 16) Reg.CQ_CFG_EN = 1 → q < (instOf d inst).sqLimit →
         Completes (.sqEnable a inst q val) s [.regs, .cmd] fun t =>
           queueHolds t inst q [(Reg.SQ_CFG_EN, 1), (Reg.SQ_CFG_CQ, bits val 19 16), (Reg.SQ_CFG_WEIGHT, bits val 15 8),
             (Reg.SQ_CFG_SIZE, bits val 4 0), (Reg.SQ_STAT_HEAD, 0), (Reg.SQ_STAT_ERROR, 0), (Reg.SQ_STAT_ERR, 0)]
           ∧ regsBut [(instPage inst, 0x208 + 0x10 * q), (instPage inst, 0x20C + 0x10 * q)] d t
           ∧ (∀ i j, j < 16 → tailOf t i j = if i = inst ∧ j = q then 0 else tailOf d i j)
           ∧ t.cmd.reads = d.cmd.reads.map (pastRing inst q) ∧ { t.cmd with tails := d.cmd.tails, reads := d.cmd.reads } = d.cmd)
       ∧ (qFld d inst q Reg.SQ_CFG_EN = 1 → bits val 19 16 = qFld d inst q Reg.SQ_CFG_CQ → bits val 4 0 = qFld d inst q Reg.SQ_CFG_SIZE →
         Completes (.sqDisable a inst q val) s [.regs] fun t =>
           queueHolds t inst q [(Reg.SQ_CFG_EN, 0), (Reg.SQ_CFG_CQ, bits val 19 16), (Reg.SQ_CFG_WEIGHT, bits val 15 8),
             (Reg.SQ_CFG_SIZE, bits val 4 0)]
           ∧ regsBut [(instPage inst, 0x208 + 0x10 * q)] d t))
     ∧ ((admitWrite (seenAs a) (instPage inst) (0x308 + 0x10 * q) d).1 = some .inst →
       (qFld d inst q Reg.CQ_CFG_EN = 0 → 1 ≤ bits val 4 0 → bits val 4 0 ≤ 16 →
         Completes (.cqEnable a inst q val) s [.regs, .cmd] fun t =>
           queueHolds t inst q [(Reg.CQ_CFG_EN, 1), (Reg.CQ_CFG_IRQ_EN, bits val 30 30), (Reg.CQ_CFG_COAL_COUNT, bits val 23 16),
             (Reg.CQ_CFG_COAL_TIME, bits val 15 8), (Reg.CQ_CFG_SIZE, bits val 4 0), (Reg.CQ_STAT_TAIL, 0), (Reg.CQ_STAT_PHASE, 1),
             (Reg.CQ_STAT_ERROR, 0), (Reg.CQ_STAT_ERR, 0)]
           ∧ regsBut [(instPage inst, 0x308 + 0x10 * q), (instPage inst, 0x30C + 0x10 * q)] d t
           ∧ (∀ i j, j < 16 → headOf t i j = if i = inst ∧ j = q then 0 else headOf d i j)
           ∧ { t.cmd with heads := d.cmd.heads, coal := d.cmd.coal, coalAt := d.cmd.coalAt } = d.cmd)
       ∧ (qFld d inst q Reg.CQ_CFG_EN = 1 → cqUsed d inst q = false → bits val 4 0 = qFld d inst q Reg.CQ_CFG_SIZE →
         Completes (.cqDisable a inst q val) s [.regs] fun t =>
           queueHolds t inst q [(Reg.CQ_CFG_EN, 0), (Reg.CQ_CFG_IRQ_EN, bits val 30 30), (Reg.CQ_CFG_COAL_COUNT, bits val 23 16),
             (Reg.CQ_CFG_COAL_TIME, bits val 15 8), (Reg.CQ_CFG_SIZE, bits val 4 0)]
           ∧ regsBut [(instPage inst, 0x308 + 0x10 * q)] d t))) ∧
  (∀ (s : State) (d : Dev) (inst q val : Nat) (st : Option Nat), Begins s d → Awake d (viaLink d (.vf inst st)) → val < 65536 → q < 16 →
     bellOpen d inst st = true →
     (∀ n head, n = sqSize d inst q → head = qFld d inst q Reg.SQ_STAT_HEAD →
       (qFld d inst q Reg.SQ_CFG_EN = 0 ∨ qFld d inst q Reg.SQ_STAT_ERROR = 1 →
         Completes (.sqTailDoorbell inst q val st) s [] fun _ => True)
       ∧ (qFld d inst q Reg.SQ_CFG_EN = 1 → qFld d inst q Reg.SQ_STAT_ERROR = 0 →
         (val < n → ringAhead n (tailOf d inst q) head ≤ ringAhead n val head →
           Completes (.sqTailDoorbell inst q val st) s [.cmd] fun t =>
             (∀ i j, j < 16 → tailOf t i j = if i = inst ∧ j = q then val else tailOf d i j)
             ∧ { t.cmd with tails := d.cmd.tails } = d.cmd)
         ∧ (n ≤ val ∨ ringAhead n val head < ringAhead n (tailOf d inst q) head →
           Completes (.sqTailDoorbell inst q val st) s [.regs, .hdr, .host] fun t =>
             queueHolds t inst q [(Reg.SQ_STAT_ERROR, 1), (Reg.SQ_STAT_ERR, 1), (Reg.SQ_STAT_HEAD, head)]
             ∧ regsBut [(instPage inst, 0x20C + 0x10 * q)] d t ∧ eventAt (instPage inst) 3 d t)))
     ∧ (∀ n tail, n = cqSize d inst q → tail = qFld d inst q Reg.CQ_STAT_TAIL →
       (qFld d inst q Reg.CQ_CFG_EN = 0 ∨ qFld d inst q Reg.CQ_STAT_ERROR = 1 →
         Completes (.cqHeadDoorbell inst q val st) s [] fun _ => True)
       ∧ (qFld d inst q Reg.CQ_CFG_EN = 1 → qFld d inst q Reg.CQ_STAT_ERROR = 0 →
         (val < n → ringAhead n val (headOf d inst q) ≤ ringAhead n tail (headOf d inst q) →
           Completes (.cqHeadDoorbell inst q val st) s [.cmd] fun t =>
             (∀ i j, j < 16 → headOf t i j = if i = inst ∧ j = q then val else headOf d i j)
             ∧ { t.cmd with heads := d.cmd.heads } = d.cmd)
         ∧ (n ≤ val ∨ ringAhead n tail (headOf d inst q) < ringAhead n val (headOf d inst q) →
           Completes (.cqHeadDoorbell inst q val st) s [.regs, .hdr, .host] fun t =>
             queueHolds t inst q [(Reg.CQ_STAT_ERROR, 1), (Reg.CQ_STAT_ERR, 1), (Reg.CQ_STAT_TAIL, tail)]
             ∧ regsBut [(instPage inst, 0x30C + 0x10 * q)] d t ∧ eventAt (instPage inst) 3 d t))))

/-! ## The command path (R82-R105, R121, R266) -/

/-- DESCRIPTOR_FETCH, HOST_READ_COMPLETION, DESCRIPTOR_PARSE and POLICY_CHECK: from the ring in host memory to the work ring. A fetch asks
for the entries behind those still being read, and HEAD moves past entries as they arrive, oldest fetch first; a read that fails stops the
queue or ends the command. The clauses are about links whose tags serve every request at once (R50).

Where the spec leaves a point open, a clause states the model's choice of log entries 58, 61, 65, 69, 70, 161, 162, 177, 179 and 184,
which is no rule of the spec.

Exec answers a next state, as the clauses say, for descriptorFetch, descriptorParse, policyCheck, hostReadCompletion. -/
def Obligations.CommandIntakeCommands : Prop :=
  ∀ (s : State) (d : Dev), Begins s d → (∀ x, x ∈ d.cmd.reads → x.todo = []) →
    (∀ inst q l f at' cq n e ask, inst < 1024 → q < 16 → instTurn d = some inst → sqReady d inst q = true → sqTurn d inst q = true →
      instFn d inst = some (l, f) → at' = fetchAt d inst q → cq = qFld d inst q Reg.SQ_CFG_CQ → e = sqEntry (verOf d inst) →
      n = min (min 8 ((tailOf d inst q + sqSize d inst q - at') % sqSize d inst q)) (min (sqSize d inst q - at') (cqFree d inst cq)) →
      ask = runPieces d l f [(sqBase d inst q + at' * e, n * e)] → ask.length ≤ tagsLeft d l →
      Completes (.descriptorFetch inst q) s [.cmd] fun t =>
        t.out = ask.map (fun p => .hostRead l f p.1 p.2)
        ∧ t.cmd.reads = d.cmd.reads
            ++ [⟨d.cmd.nextRead, none, .fetch inst q cq n true, false, none, l, ask.length, [], f, (ask.map (·.2)).sum, []⟩]
        ∧ t.cmd.nextRead = d.cmd.nextRead + 1 ∧ t.cmd.served = inst ∧ t.cmd.cmds = d.cmd.cmds)
    ∧ (∀ r inst q cq n live, r ∈ d.cmd.reads → (∀ x, x ∈ d.cmd.reads → x.id = r.id → x = r) → r.dropped = false → r.got = none →
      r.what = .fetch inst q cq n live → inst < 1024 → q < 16 → d.cmd.reads.find? (fetchesFor inst q) = some r → Awake d (some r.link) →
      d.sys.draining = none →
      (∀ a b e, b = r.have' ++ a → e = sqEntry (verOf d inst) → d.cmd.nextTag + n < 2 ^ 32 →
        (∀ x, x ∈ d.cmd.reads → x ≠ r → fetchesFor inst q x = true → x.got = none) →
        (∀ j, j < n → fetchDenied d inst (rawOpcode (verOf d inst) (slice b (j * e) e)) = none) →
        Completes (.hostReadCompletion r.id (some a)) s [.cmd, .regs] fun t =>
          t.cmd.cmds = d.cmd.cmds ++ (List.range n).map (fun j =>
            freshCmd (d.cmd.nextTag + j) inst q cq (verOf d inst) (slice b (j * e) e))
          ∧ t.cmd.reads = d.cmd.reads.filter (fun x => x.id ≠ r.id)
          ∧ qFld t inst q Reg.SQ_STAT_HEAD = (if live then (qFld d inst q Reg.SQ_STAT_HEAD + n) % sqSize d inst q % 2 ^ 16
              else qFld d inst q Reg.SQ_STAT_HEAD)
          ∧ fld t pgCMD Reg.CMD_STAT_FETCH_FETCHED = (fld d pgCMD Reg.CMD_STAT_FETCH_FETCHED + n) % 2 ^ 32
          ∧ regsBut [(pgCMD, 0x068), (instPage inst, 0x20C + 0x10 * q)] d t)
      ∧ (Completes (.hostReadCompletion r.id none) s [.cmd, .regs, .hdr, .host] fun t =>
          queueHolds t inst q [(Reg.SQ_STAT_ERROR, 1), (Reg.SQ_STAT_ERR, 2)] ∧ t.cmd.cmds = d.cmd.cmds
          ∧ (∀ x, x ∈ t.cmd.reads → fetchesFor inst q x = false) ∧ regsBut [(instPage inst, 0x20C + 0x10 * q)] d t
          ∧ eventAt (instPage inst) 3 d t))
    ∧ (∀ r tag k, r ∈ d.cmd.reads → (∀ x, x ∈ d.cmd.reads → x.id = r.id → x = r) → r.dropped = false → r.tag = some tag →
      cmdOf d tag = some k → Awake d (some r.link) → d.sys.draining = none →
      (∀ a b k', b = r.have' ++ a → k.stage = .reading →
        ((r.what = .src ∧ k' = { k with src := some (fitTo k.desc.srcLen b) })
          ∨ (r.what = .ticket ∧ k' = { k with ticket := some (fitTo k.desc.ticketLen b) })
          ∨ (r.what = .aux ∧ k' = { k with aux := some (fitTo k.desc.auxLen
              ((if k.ver.1 = 1 ∧ k.desc.opcode = 0x0302 then zeros 8 else []) ++ b)) })) →
        Completes (.hostReadCompletion r.id (some a)) s [.cmd] fun t =>
          (∀ m, m ≠ tag → cmdOf t m = cmdOf d m) ∧ t.cmd.reads = d.cmd.reads.filter (fun x => x.id ≠ r.id)
          ∧ ((∀ x, x ∈ d.cmd.reads → x.id ≠ r.id → x.tag ≠ some tag) →
            (auxFault k' = none → roomFault d k' = none → cmdOf t tag = some { k' with stage := .policy })
            ∧ (∀ e, (auxFault k').or (roomFault d k') = some e →
              cmdOf t tag = some { k' with stage := .held, result := some (deniedResult e) }))
          ∧ (∀ x, x ∈ d.cmd.reads → x.id ≠ r.id → x.tag = some tag → cmdOf t tag = some k'))
      ∧ (∀ a e, (r.what = .srcSgl ∧ sglStep (r.have' ++ a) (k.srcList.getD []) k.desc.srcLen = .error e)
          ∨ (r.what = .dstSgl ∧ sglStep (r.have' ++ a) (k.dstList.getD []) k.desc.dstLen = .error e) →
        Completes (.hostReadCompletion r.id (some a)) s [.cmd] fun t =>
          cmdOf t tag = some { k with stage := .held, result := some (failed e.1 e.2) }
          ∧ (∀ m, m ≠ tag → cmdOf t m = cmdOf d m) ∧ (∀ x, x ∈ t.cmd.reads → x.tag = some tag → x.dropped = true))
      ∧ (r.what ∈ [ReadFor.src, .aux, .srcSgl, .dstSgl, .ticket] →
        Completes (.hostReadCompletion r.id none) s [.cmd] fun t =>
          cmdOf t tag = some { k with stage := .held, result := some (failed stHOST_ACCESS (readInfo r.what)) }
          ∧ (∀ m, m ≠ tag → cmdOf t m = cmdOf d m) ∧ (∀ x, x ∈ t.cmd.reads → x.tag = some tag → x.dropped = true)))
    ∧ (∀ tag k, cmdOf d tag = some k → k.stage = .fetched → parseHeld d k = false → rqFull d = false → instTag d k.inst = true →
      (∀ st, parsed d k = .error st →
        Completes (.descriptorParse tag) s [.cmd, .regs, .shadow] fun t =>
          cmdOf t tag = some { k with stage := .held, result := some (failed st 0) } ∧ cmdsBut tag d t ∧ pagesBut [pgCMD] d t)
      ∧ (∀ c st info r1, parsed d k = .ok c → descFault (pypMinor c) c.desc = some (st, info, r1) →
        Completes (.descriptorParse tag) s [.cmd, .regs, .shadow] fun t =>
          cmdOf t tag = some { c with stage := .held, result := some { failed st info with r1 := r1 } } ∧ cmdsBut tag d t
          ∧ pagesBut [pgCMD] d t)
      ∧ (∀ c l f ask, parsed d k = .ok c → descFault (pypMinor c) c.desc = none → (c.desc.opcode = 0x0110 → d.sys.mode = .ceremony) →
        (opRouted c.desc.opcode = true → fldB d pgCMD Reg.CMD_CFG_RQ_EN = true) → readsFor c ≠ [] →
        instFn d c.inst = some (l, f) → ideOpen d l f = true →
        (∀ r : ReadFor × Nat × Nat, ask r = runPieces d l f [r.2]) → ((readsFor c).map (fun r => (ask r).length)).sum ≤ tagsLeft d l →
        Completes (.descriptorParse tag) s [.cmd, .regs, .shadow] fun t =>
          cmdOf t tag = some { c with
            stage := .reading, aux := if c.ver.1 = 1 && c.desc.opcode = 0x0301 then some (zeros 8) else c.aux }
          ∧ (∀ m, m ≠ tag → cmdOf t m = cmdOf d m)
          ∧ t.cmd.reads = d.cmd.reads ++ (readsFor c).zipIdx.map (fun r =>
              ⟨d.cmd.nextRead + r.2, some tag, r.1.1, false, none, l, (ask r.1).length, [], f, ((ask r.1).map (·.2)).sum, []⟩)
          ∧ t.out = (((readsFor c).map ask).flatten).map (fun p => .hostRead l f p.1 p.2) ∧ pagesBut [pgCMD] d t))
    ∧ (∀ tag k err, cmdOf d tag = some k → k.stage = .policy →
      (∀ e, roomFault d k = some e → Completes (.policyCheck tag err) s [.cmd] fun t =>
        cmdOf t tag = some { k with stage := .held, result := some (deniedResult e) } ∧ cmdsBut tag d t)
      ∧ (roomFault d k = none → lcDenied d k = true → Completes (.policyCheck tag err) s [.cmd] fun t =>
        cmdOf t tag = some { k with stage := .held, result := some (failed stMODE 0) } ∧ cmdsBut tag d t)
      ∧ (roomFault d k = none → lcDenied d k = false → namesKey k.desc false = false → namesKey k.desc true = false →
        k.desc.opcode ≠ 0x0110 → opRouted k.desc.opcode = false →
        anyServes d (kindOf { k with keys := [], counted := [], tickets := [] }) = true →
        (∀ x, x ∈ d.cmd.cmds → x.stage = .ring → anyServes d (kindOf x) = true) →
        Completes (.policyCheck tag err) s [.cmd] fun t =>
          cmdOf t tag = some { k with
            stage := .ring, keys := [], counted := [], tickets := []
            quarter := (nextOn d (homeQuarter k.inst k.sq)).getD (homeQuarter k.inst k.sq) }
          ∧ cmdsBut tag d t)
      ∧ (∀ k1 d1, roomFault d k = none → lcDenied d k = false → policyRun err.t1 k d = .pass k1 d1 → k1.tag = tag → d1.cmd = d.cmd →
        d1.mpe.failing = none →
        (opRouted k1.desc.opcode = true → Completes (.policyCheck tag err) s (except []) fun t =>
          cmdOf t tag = some { k1 with stage := .route } ∧ cmdsBut tag d t ∧ ∀ p : Part, p ≠ .cmd → p.same d1 t)
        ∧ (opRouted k1.desc.opcode = false → anyServes d1 (kindOf k1) = true →
          (∀ x, x ∈ d.cmd.cmds → x.stage = .ring → anyServes d1 (kindOf x) = true) →
          Completes (.policyCheck tag err) s (except []) fun t =>
            cmdOf t tag = some { k1 with
              stage := .ring, quarter := (nextOn d1 (homeQuarter k1.inst k1.sq)).getD (homeQuarter k1.inst k1.sq) }
            ∧ cmdsBut tag d t ∧ ∀ p : Part, p ≠ .cmd → p.same d1 t))
      ∧ (∀ e k1 d1, roomFault d k = none → lcDenied d k = false → policyRun err.t1 k d = .fail e k1 d1 → k1.tag = tag → d1.cmd = d.cmd →
        d1.mpe.failing = none →
        Completes (.policyCheck tag err) s (except []) fun t =>
          cmdOf t tag = some { k1 with stage := .held, result := some (failed e.1 e.2), keys := [], counted := [] }
          ∧ cmdsBut tag d t ∧ ∀ p : Part, p ≠ .cmd → p.same d1 t))

/-- ROUTED_ENTRY_WRITE, ROUTED_COMPLETION and ROUTED_TIMEOUT: the entry in the ring of quarter SRAM, one completion of firmware, and
the end of a command that firmware leaves alone. TARGET_RESET_RETRY: the command waits on the ring again (R99-R101, R480).

Where the spec leaves a point open, a clause states the model's choice of log entries 62 and 64, which is no rule of the spec.

Exec answers a next state, as the clauses say, for routedEntryWrite, routedCompletion, routedTimeout, targetResetRetry. -/
def Obligations.RoutedCommands : Prop :=
  ∀ (s : State) (d : Dev), Begins s d →
    (∀ tag k tail at', cmdOf d tag = some k → k.stage = .route → rqFull d = false → tail = fld d pgCMD Reg.CMD_RQ_TAIL_TAIL →
      at' = rqBase d + tail * 128 → tagWaits d k.epoch at' 128 = false →
      memStore2 whoCmdp k.epoch at' (routedBytes d k) d = (.ok, putBytes d at' (routedBytes d k)) →
      Completes (.routedEntryWrite tag) s [.cmd, .mem, .regs, .hdr] fun t =>
        memBytes t at' 128 = routedBytes d k ∧ bytesBut at' 128 d t
        ∧ fld t pgCMD Reg.CMD_RQ_TAIL_TAIL = (tail + 1) % rqSize d % 2 ^ 16
        ∧ fld t pgCMD Reg.CMD_STAT_ROUTED_ROUTED = (fld d pgCMD Reg.CMD_STAT_ROUTED_ROUTED + 1) % 2 ^ 32
        ∧ regsBut [(pgCMD, 0x054), (pgCMD, 0x070)] d t ∧ eventAt pgCMD 0 d t
        ∧ cmdOf t tag = some { k with stage := .routed, routedAt := d.now, keyed := k.counted.isEmpty } ∧ cmdsBut tag d t)
    ∧ (∀ a tail head b tag k d1, AwakeFor d a → head = fld d pgCMD Reg.CMD_RCQ_HEAD_HEAD → (head + 1) % 2 ^ fld d pgCMD Reg.CMD_RQ_CFG_RCQ_SIZE = tail →
      head ≠ tail → tail < 2 ^ 16 → (admitWrite (seenAs a) pgCMD 0x060 d).1 = some .cmd →
      fieldCode (seenAs a) pgCMD tail d Reg.CMD_RCQ_TAIL_TAIL = 0 → d1 = setFld d pgCMD Reg.CMD_RCQ_TAIL_TAIL tail →
      memFetch2 whoCmdp true (rcqBase d + head * 32) 32 d1 = (.ok, b, none, d1) →
      leAt b 0x14 4 = tag → cmdOf d tag = some k → k.stage = .routed →
      Completes (.routedCompletion a tail) s [.cmd, .regs] fun t =>
        cmdOf t tag = some { k with stage := .held, result := some (firmwareResult k b) } ∧ cmdsBut tag d t
        ∧ holds t pgCMD [(Reg.CMD_RCQ_TAIL_TAIL, tail), (Reg.CMD_RCQ_HEAD_HEAD, tail)]
        ∧ regsBut [(pgCMD, 0x060), (pgCMD, 0x064)] d t)
    ∧ (∀ tag k ms, cmdOf d tag = some k → k.stage = .routed → ms = fld d pgCMD Reg.CMD_CFG_RT_TIMEOUT → ms ≠ 0 →
      Completes (.routedTimeout tag) s [.cmd, .hdr, .now] fun t =>
        cmdOf t tag = some { k with stage := .held, result := some (failed stFW_TIMEOUT 0) } ∧ cmdsBut tag d t ∧ eventAt pgCMD 1 d t ∧ t.now = max d.now (k.routedAt + ms * 1000000))
    ∧ (∀ tag k, cmdOf d tag = some k → k.stage = .retry → portShut d (k.unit.getD 28) = false →
      (∀ x, x ∈ d.cmd.cmds → x.stage = .ring → anyServes d (kindOf x) = true) → anyServes d (kindOf k) = true →
      Completes (.targetResetRetry tag) s [.cmd, .now] fun t =>
        cmdOf t tag = some { k with stage := .ring, unit := none } ∧ cmdsBut tag d t ∧ t.now = d.now + 1000)

/-- WORK_RING_TAKE, T0_LOAD, KEY_FETCH and XTS_DATA_UNIT: a command at its unit, its key in T0, its lane key, its next data unit.

Where the spec leaves a point open, a clause states the model's choice of log entries 47, 76, 142, 156 and 181, which is no rule of the
spec.

Exec answers a next state, as the clauses say, for keyFetch, t0Load, workRingTake, xtsDataUnit. -/
def Obligations.UnitIntakeCommands : Prop :=
  ∀ (s : State) (d : Dev), Begins s d →
    (∀ i k, (∀ x, x ∈ d.cmd.cmds → x.stage = .ring → anyServes d (kindOf x) = true) → ringPick d i = some k → cmdOf d k.tag = some k →
      (i < 28 → (unitOf d i).cur = none → (unitOf d i).job = none → (unitOf d i).oos = false →
        quarterServes d (unitQuarter i) = true → unitServes d i = true →
        Completes (.workRingTake 3 i) s [.cmd, .units] fun t =>
          cmdOf t k.tag = some { k with stage := .taken, unit := some i, keyed := k.counted.isEmpty } ∧ cmdsBut k.tag d t
          ∧ (unitOf t i).cur = some k.tag ∧ (∀ j, j ≠ i → unitOf t j = unitOf d j))
      ∧ (i = 28 → Completes (.workRingTake 3 i) s [.cmd] fun t =>
          cmdOf t k.tag = some { k with stage := .taken, unit := some i, keyed := k.counted.isEmpty } ∧ cmdsBut k.tag d t))
    ∧ (∀ tag k n x first ks tm dm, cmdOf d tag = some k → k.counted = [n] → k.stage ∈ [Stage.ring, .taken, .route, .routed] →
      t0Loads d.sys.mode = true → residentOf d n = none → keyAt d n = some x →
      slotsFor x.mat.length ≤ slotsFree d → slotsFor x.mat.length + poundCount d ≤ 65536 → d.key.resident.length < 32768 →
      (slotsPick d (slotsFor x.mat.length)).length = slotsFor x.mat.length →
      t1Transfers [] (n :: x.exts.take (extsFor x.mat.length)) d = (true, tm, dm) → dm = { d with mpe := dm.mpe, regs := dm.regs } →
      pagesBut [pgMPE, pgMPE1] d dm → dm.mpe.failing = none →
      first = (hClass x.handle = 0 && !(smapGet falseAt d.key.loaded n)) → ks = d.key.kSlot.getD (zeros 32) →
      ∀ y, y = (if first && decide (x.nonce ≠ x.nonceResv) then { x with nonce := x.nonceResv, persisted := false } else x) →
      Completes (.t0Load tag) s [.key, .regs, .cmd, .mpe] fun t =>
        residentOf t n = some ⟨slotsPick d (slotsFor x.mat.length), smapGet zeroAt d.key.lastUse n, y.nonce, recHead y⟩
        ∧ (∀ m, m ≠ n → residentOf t m = residentOf d m) ∧ keyAt t n = some y ∧ (∀ m, m ≠ n → t1Of t m = t1Of d m)
        ∧ (∀ j slot, (slotsPick d (slotsFor x.mat.length))[j]? = some slot →
            smapGet noneAt t.key.slots slot = some ⟨n, hGen x.handle, j, slice x.mat (64 * j) 64,
              slotMac ks slot n (hGen x.handle) j (slice x.mat (64 * j) 64)⟩)
        ∧ cmdOf t tag = some { k with epoch := tagMax k.epoch tm } ∧ cmdsBut tag d t ∧ t.mpe = dm.mpe
        ∧ fld t pgKS3 Reg.KS_STAT_T1_LOADS = (fld d pgKS3 Reg.KS_STAT_T1_LOADS + 1) % 2 ^ 32 ∧ regsBut [(pgKS3, 0x044)] dm t)
    ∧ (∀ tag k, cmdOf d tag = some k → (k.stage = .taken ∨ k.stage = .routed) → k.keyed = false → keysThere d k.counted = true →
      d.mpe.halting = false →
      Completes (.keyFetch tag keySound) s [.cmd, .regs] fun t =>
        cmdOf t tag = some { k with keyed := true } ∧ cmdsBut tag d t
        ∧ fld t pgKS3 Reg.KS_STAT_HIT_HIT = (fld d pgKS3 Reg.KS_STAT_HIT_HIT + k.counted.length) % 2 ^ 32
        ∧ regsBut [(pgKS3, 0x040)] d t)
    ∧ (∀ tag k lane chk q, AtUnit d tag 0x0206 k → laneMay d k lane = true → k.done < xtsUnits k.desc → (k.done ≠ 0 ∨ some lane = k.unit) →
      (some lane = k.unit ∨ keysThere d k.counted = true) → d.mpe.halting = false → q = unitQuarter lane → RandomAt d q (maskOf d) →
      (chk < 2 → bit k.desc.flags flORDERED = true → Completes (.xtsDataUnit tag lane chk) s [.cmd, .ent, .regs, .shadow] fun t =>
        cmdOf t tag = some { k with done := k.done + 1, part := k.part ++ xtsOut k k.done } ∧ cmdsBut tag d t ∧ t.out = []
        ∧ drewMaskAt q d t ∧ pagesBut [unitPage lane, pgKS3] d t)
      ∧ (∀ l f, chk < 2 → bit k.desc.flags flORDERED = false → fenceOpen d k.epoch = true → k.sent = k.part.length → k.mute = false →
        k.dstList = none → instFn d k.inst = some (l, f) → ideOpen d l f = true → xtsOut k k.done ≠ [] →
        k.sent + (xtsOut k k.done).length ≤ k.desc.dstLen →
        Completes (.xtsDataUnit tag lane chk) s [.cmd, .ent, .regs, .shadow] fun t =>
          cmdOf t tag = some { k with
            done := k.done + 1, part := k.part ++ xtsOut k k.done, sent := k.sent + (xtsOut k k.done).length }
          ∧ cmdsBut tag d t ∧ t.out = hostWrites d l f (k.desc.dst + k.sent) (xtsOut k k.done) true
          ∧ drewMaskAt q d t ∧ pagesBut [unitPage lane, pgKS3] d t)
      ∧ (2 ≤ chk → Completes (.xtsDataUnit tag lane chk) s ([.cmd, .units, .regs, .shadow, .ent] ++ evParts) fun t =>
        cmdOf t tag = some { k with stage := .held, result := some (failed stENGINE 0) } ∧ (unitOf t lane).oos = true
        ∧ fld t (unitPage lane) Reg.SYM_CFG_SERVE = 0))

/-- EGRESS_RELEASE of a result without key changes, of a new key and of a key's destruction, and of a record; CQ_COAL_TIMEOUT; JOB_DONE (R90, R93, R94, R198, R266, R431).

Where the spec leaves a point open, a clause states the model's choice of log entries 60, 66, 68, 72, 107 and 185, which is no rule of
the spec.

Exec answers a next state, as the clauses say, for egressRelease, cqCoalTimeout, jobDone. -/
def Obligations.EgressCommands : Prop :=
  ∀ (s : State) (d : Dev), Begins s d →
    (∀ tag k r, cmdOf d tag = some k → k.stage = .held → k.result = some r → fenceOpen d k.epoch = true →
      bit k.desc.flags flORDERED = false → d.sys.draining = none → r.effects = [] → k.counted = [] → k.tickets = [] →
      firstPart k r = false →
      (k.mute = true → Completes (.egressRelease (.cmd tag)) s [.cmd, .units, .regs, .shadow] fun t =>
        t.cmd = { d.cmd with cmds := d.cmd.cmds.filter (fun x => x.tag ≠ tag) } ∧ t.out = []
        ∧ regsBeyond (unitsOn d tag) [(pgHOST, Reg.HOST_DROP_CNT_DROPS.off)] d t ∧ (∀ i, (unitOf t i).cur ≠ some tag))
      ∧ (∀ l f tail next phase head e n, k.mute = false → instFn d k.inst = some (l, f) → ideOpen d l f = true →
        qFld d k.inst k.cq Reg.CQ_CFG_EN = 1 → qFld d k.inst k.cq Reg.CQ_STAT_ERROR = 0 → k.cq < 16 → k.inst < 1024 →
        r.stream = [] → r.auxOut = [] → k.sent = 0 → k.dstList = none → r.out.length ≤ k.desc.dstLen →
        n = smapGet zeroAt d.cmd.coal (qKey k.inst k.cq) →
        (bit k.desc.flags flNO_IRQ = true ∨ qFld d k.inst k.cq Reg.CQ_CFG_IRQ_EN = 0
          ∨ n + 1 < max 1 (qFld d k.inst k.cq Reg.CQ_CFG_COAL_COUNT)) →
        tail = qFld d k.inst k.cq Reg.CQ_STAT_TAIL → next = (tail + 1) % cqSize d k.inst k.cq →
        phase = qFld d k.inst k.cq Reg.CQ_STAT_PHASE → head = qFld d k.inst k.sq Reg.SQ_STAT_HEAD →
        e = (if k.ver.1 = 1 then cqe1 k r head phase else cqe2 k r head phase) →
        Completes (.egressRelease (.cmd tag)) s [.cmd, .units, .regs, .shadow] fun t =>
          { t.cmd with coal := d.cmd.coal, coalAt := d.cmd.coalAt } = { d.cmd with cmds := d.cmd.cmds.filter (fun x => x.tag ≠ tag) }
          ∧ smapGet zeroAt t.cmd.coal (qKey k.inst k.cq) = (if bit k.desc.flags flNO_IRQ then n else n + 1)
          ∧ (∀ i, (unitOf t i).cur ≠ some tag)
          ∧ t.out = hostWrites d l f k.desc.dst r.out true
              ++ hostWrites d l f (cqBase d k.inst k.cq + tail * cqEntry k.ver) e false
          ∧ queueHolds t k.inst k.cq [(Reg.CQ_STAT_TAIL, next % 2 ^ 16), (Reg.CQ_STAT_PHASE, if next = 0 then 1 - phase else phase)]
          ∧ fld t pgCMD Reg.CMD_STAT_DONE_POSTED = (fld d pgCMD Reg.CMD_STAT_DONE_POSTED + 1) % 2 ^ 32
          ∧ fld t pgCMD Reg.CMD_STAT_TIMEOUT_TIMEOUT
              = min (2 ^ 16 - 1) (fld d pgCMD Reg.CMD_STAT_TIMEOUT_TIMEOUT + b2n (r.status = stFW_TIMEOUT))
          ∧ regsBeyond (unitsOn d tag) [(instPage k.inst, 0x30C + 0x10 * k.cq), (pgCMD, 0x06C), (pgCMD, 0x074)] d t))
    ∧ (∀ tag k r, cmdOf d tag = some k → k.stage = .held → k.result = some r → fenceOpen d k.epoch = true →
      bit k.desc.flags flORDERED = false → d.sys.draining = none → k.counted = [] → k.tickets = [] → firstPart k r = false →
      k.mute = true →
      (∀ x cls life b n, r.effects = [.create x cls k.inst life b none] → cls ≠ 0 → cls < 4 → x.mat.length ≤ 96 →
        recordsOf d k.inst < (instOf d k.inst).records → allocRecs d 1 = some [n] →
        Completes (.egressRelease (.cmd tag)) s [.cmd, .units, .regs, .shadow, .key] fun t =>
          (∃ y, keyAt t n = some y ∧ y.handle = mkHandle k.inst cls (hGen (bodyHandle (t1Of d n))) (bootTag d) n ∧ y.mat = x.mat
            ∧ y.alg = x.alg ∧ y.attr = x.attr ∧ y.parent = x.parent ∧ y.life = life ∧ y.expires = expiresAt life d)
          ∧ (∀ m, m ≠ n → t1Of t m = t1Of d m) ∧ cmdOf t tag = none ∧ cmdsBut tag d t)
      ∧ (∀ h y, r.effects = [.destroy h] → standing d h = some y → hClass y.handle ≠ 0 → hClass h ≠ 0 → y.exts = [] →
        hGen y.handle < 0xFFF → engineUses d (hRec h) = false →
        Completes (.egressRelease (.cmd tag)) s [.cmd, .units, .regs, .shadow, .key] fun t =>
          t1Of t (hRec h) = .free (withGen y.handle (hGen y.handle + 1)) ∧ residentOf t (hRec h) = none
          ∧ (∀ m, m ≠ hRec h → t1Of t m = t1Of d m) ∧ cmdOf t tag = none ∧ cmdsBut tag d t))
    ∧ (∀ r rest sup, d.evr.held = r :: rest → bufBytes d + (recBytes r 0 0 false).length ≤ 65536 → 5 ≤ r.sev → r.clear = none →
      sup = smapGet zeroAt d.evr.suppressed r.code →
      Completes (.egressRelease .record) s [.evr, .nv, .hdr, .host] fun t =>
        t.evr.held = rest
        ∧ t.evr.buf = d.evr.buf ++ [⟨d.nv.evSeq, r.chan, r.sev, r.code, recBytes r d.nv.evSeq sup false⟩]
        ∧ smapGet zeroAt t.evr.suppressed r.code = 0 ∧ t.nv = { d.nv with evSeq := d.nv.evSeq + 1 } ∧ eventAt pgEVR 0 d t)
    ∧ (∀ inst q at' l f m, inst < 1024 → q < 16 → smapGet noneAt d.cmd.coalAt (qKey inst q) = some at' →
      qFld d inst q Reg.CQ_CFG_COAL_TIME ≠ 0 → qFld d inst q Reg.CQ_CFG_IRQ_EN = 1 → instFn d inst = some (l, f) → vfResponds d l f = true → ideOpen d l f = true →
      stopped d.sys.mode = false →
      d.sys.mode ≠ .holdup → m = smapGet msixReset (fnOf d l f).msix q → m.masked = false →
      Completes (.cqCoalTimeout inst q) s [.cmd, .now] fun t =>
        t.out = [.msix l f q m.addr m.data] ∧ t.now = max d.now (at' + qFld d inst q Reg.CQ_CFG_COAL_TIME * 1000)
        ∧ smapGet zeroAt t.cmd.coal (qKey inst q) = 0 ∧ smapGet noneAt t.cmd.coalAt (qKey inst q) = none
        ∧ { t.cmd with coal := d.cmd.coal, coalAt := d.cmd.coalAt } = d.cmd)
    ∧ (∀ i k r, i < 28 → (unitOf d i).job = some k → k.result = some r → fenceOpen d k.epoch = true → r.effects = [] →
      k.counted = [] → k.tickets = [] → r.stream = [] → r.out = [] → r.auxOut = [] →
      (∀ x, x ∈ d.shadow → keyOnPage (unitPage i) x.1 = false) → r.status < 2 ^ 16 →
      ∀ chk err, Completes (.jobDone 3 i chk err) s [.units, .regs, .shadow, .hdr] fun t =>
        unitOf t i = { unitOf d i with job := none, jobRom := false, katRes := false } ∧ (∀ j, j ≠ i → unitOf t j = unitOf d j)
        ∧ holds t (unitPage i) [(Reg.SYM_JOB_STAT_STATUS, r.status), (Reg.SYM_JOB_STAT_BUSY, 0), (Reg.SYM_JOB_STAT_DONE, 1),
          (Reg.SYM_JOB_RES0_LO_RES0, r.r0 % 2 ^ 32), (Reg.SYM_JOB_RES0_HI_RES0, r.r0 / 2 ^ 32 % 2 ^ 32)]
        ∧ pagesBut [unitPage i] d t ∧ eventAt (unitPage i) 0 d t)

/-- SYM_JOB_GO, HASH_JOB_GO and PKE_JOB_GO: a job whose descriptor and data come from secure memory, whose policy check passes and whose
keys are resident runs its operation; the port is busy until the fence lets the result out (R197-R199, R224).

Where the spec leaves a point open, a clause states the model's choice of log entries 92 and 164, which is no rule of the spec.

Exec answers a next state, as the clauses say, for symJobGo, hashJobGo, pkeJobGo. -/
def Obligations.JobPortCommands : Prop :=
  ∀ (s : State) (d d1 e1 d2 e2 d3 dk d4 d6 : Dev) (a : Access) (i val chk : Nat) (b : Bytes) (tg tg2 : Option Nat) (c c0 c' c2 cr : Cmd)
    (f : OpFn) (r : Result),
    Begins s d → AwakeFor d a → i < 28 → chk < 2 → d1 = (judge a (unitPage i) 0x05C val d).d →
    (judge a (unitPage i) 0x05C val d).took Reg.SYM_JOB_CTL_GO = true → bit val 31 = true →
    d1 = { d with regs := d1.regs, shadow := d1.shadow } → pagesBut [unitPage i] d d1 →
    d.sys.mode ≠ .holdup → stopped d.sys.mode = false → (unitOf d i).job = none → (unitOf d i).cur = none → (unitOf d i).oos = false →
    (hdrOf d1 (unitPage i)).drain = false → (hdrOf d1 (unitPage i)).enable = true →
    secureRange d1 (fldPair d1 (unitPage i) Reg.SYM_JOB_LO_ADDR_LO Reg.SYM_JOB_HI_ADDR_HI) 64 = true →
    jobFetch i 0 (fldPair d1 (unitPage i) Reg.SYM_JOB_LO_ADDR_LO Reg.SYM_JOB_HI_ADDR_HI) 64 none d1 = (.ok b, tg, e1) →
    e1 = { d1 with mpe := e1.mpe, regs := e1.regs } → pagesBut [pgMPE, pgMPE1] d1 e1 →
    fldB d1 (unitPage i) Reg.SYM_JOB_CTL_ROMKEY = false →
    c = { freshCmd 0 (fld d1 (unitPage i) Reg.SYM_JOB_CTL_INSTANCE) 0 0 (2, 2) b with
      unit := some i, quarter := unitQuarter i, epoch := tg } →
    jobFault i false c.desc = none →
    d2 = modUnit i (fun u => { u with jobRom := false })
      (setFld (setFld e1 (unitPage i) Reg.SYM_JOB_STAT_BUSY 1) (unitPage i) Reg.SYM_JOB_STAT_DONE 0) →
    jobRead i c d2 = (.ok c0, tg2, e2) → e2 = { d2 with mpe := e2.mpe, regs := e2.regs } → pagesBut [pgMPE, pgMPE1] d2 e2 →
    c' = { c0 with epoch := tg2 } → quarterServes d (unitQuarter i) = true → restoring d = false →
    policyRun [] c' (setJob i c' e2) = .pass c2 d3 →
    d3 = { setJob i c' e2 with mpe := d3.mpe, regs := d3.regs, key := d3.key, ofc := d3.ofc } → pagesBut [pgMPE, pgMPE1] e2 d3 →
    c2.result = none → (∀ n, n ∈ c2.counted → (residentOf d3 n).isSome = true) → d3.mpe.halting = false → d3.mpe.failing = none →
    dk = setJob i { c2 with stage := .run, keyed := c2.counted.isEmpty } d3 → cr = { c2 with stage := .run, keyed := true } →
    d4 = (if c2.counted.isEmpty then dk else setJob i cr (wrapFld dk pgKS3 Reg.KS_STAT_HIT_HIT c2.counted.length)) →
    jobOp c2.desc.opcode = some f → runChecked i chk f cr d4 = .done r d6 →
    d6 = { d4 with ent := d6.ent, units := d6.units, key := d6.key } → (∀ j, j ≠ i → unitOf d6 j = unitOf d4 j) →
    Completes (if i < 16 then .symJobGo a i val chk else if i < 20 then .hashJobGo a (i - 16) val chk else .pkeJobGo a (i - 20) val chk)
      s [.regs, .shadow, .units, .key, .ofc, .ent, .mpe] fun t =>
        (unitOf t i).job = some { cr with stage := .held, result := some r } ∧ (∀ j, j ≠ i → unitOf t j = unitOf d j)
        ∧ pagesBut [unitPage i, pgKS3, pgHASH (unitQuarter i), pgMPE, pgMPE1] d t
        ∧ t.key = d6.key ∧ t.ofc = d3.ofc ∧ t.ent = d6.ent ∧ t.mpe = d3.mpe
        ∧ ((∀ x, x ∈ d1.shadow → keyOnPage (unitPage i) x.1 = false) →
            holds t (unitPage i) [(Reg.SYM_JOB_STAT_BUSY, 1), (Reg.SYM_JOB_STAT_DONE, 0)])

/-! ## The key store's own work (R127, R137, R142, R148-R155, R163, R174) -/

/-- T2_DEMAND_LOAD, VAULT_RESTORE_RECORD, VAULT_BATCH_CLOSE, VAULT_BATCH_COMMIT, in its three steps or one of them, and
VAULT_EPOCH_ERASE.

Where the spec leaves a point open, a clause states the model's choice of log entries 72, 89, 159, 175 and 204, which is no rule of the
spec.

Exec answers a next state, as the clauses say, for t2DemandLoad, vaultRestoreRecord, vaultBatchClose, vaultBatchCommit,
vaultEpochErase. -/
def Obligations.VaultCommands : Prop :=
  ∀ (s : State) (d : Dev), Begins s d →
    (∀ tag k n b v x, cmdOf d tag = some k → k.stage = .policy → t2Loads d.sys.mode = true → namesKey k.desc false = true →
      namesKey k.desc true = false → n = hRec k.desc.key → needsDemand d n = true → vaultPick d n = some (b, v) → v.epoch = d.key.epoch →
      v.body = .key x → x.exts = [] →
      Completes (.t2DemandLoad tag vaultSound) s [.key, .regs] fun t =>
        keyAt t n = some { x with persisted := true } ∧ (∀ m, m ≠ n → t1Of t m = t1Of d m ∧ residentOf t m = residentOf d m)
        ∧ { t.key with t1 := d.key.t1, t1w := d.key.t1w, resident := d.key.resident } = d.key
        ∧ fld t pgKS3 Reg.KS_STAT_T2_LOADS = (fld d pgKS3 Reg.KS_STAT_T2_LOADS + 1) % 2 ^ 32 ∧ regsBut [(pgKS3, 0x048)] d t)
    ∧ (restoring d = true → (d.sys.mode = .service ∨ d.sys.mode = .ceremony ∨ d.sys.mode = .diagnostic) →
      (∀ n b v x, nextCopy d d.key.frontier = some n → (nextCopy d (n + 1)).isSome = true → vaultPick d n = some (b, v) →
        v.epoch = d.key.epoch → v.body = .key x → t1Of d n = .free 0 →
        Completes (.vaultRestoreRecord vaultSound) s [.key] fun t =>
          keyAt t n = some { x with persisted := true } ∧ (∀ m, m ≠ n → t1Of t m = t1Of d m ∧ residentOf t m = residentOf d m)
          ∧ { t.key with t1 := d.key.t1, t1w := d.key.t1w, resident := d.key.resident, frontier := d.key.frontier } = d.key ∧ t.key.frontier = n + 1)
      ∧ (nextCopy d d.key.frontier = none → d.key.state = .restoring →
        Completes (.vaultRestoreRecord vaultSound) s (.key :: evParts) fun t =>
          t.key = { d.key with frontier := recCount, state := .opened }))
    ∧ (vaultWorks d.sys.mode = true →
      (∀ at', d.key.closeAt = some at' →
        Completes .vaultBatchClose s [.key, .now, .regs, .shadow] fun t =>
          t.key = { d.key with
            queue := d.key.queue.map (fun e => if e.batch = none then { e with batch := some d.key.batches } else e)
            batches := d.key.batches + 1, closeAt := none }
          ∧ t.now = max d.now at' ∧ pagesBut [pgKS, pgKS1, pgKS2, pgKS3] d t)
      ∧ (∀ n e fails ctr d' copy old new, vaultWritable d = true → vaultBatch d = [e] → e.recNo = n → ctr = vaultCtr d + 1 →
        d.key.frozen = false → d' = t1Sure [] n d → d'.mpe.failing = none → d'.key = { d.key with t1w := d'.key.t1w } →
        copy = ⟨bodyGen e.body, d.key.epoch, ctr, e.body, false⟩ → old = smapGet (fun _ => (⟨none, none⟩ : Homes)) d.key.homes n →
        new = (if (vaultPick d n).map (·.1) = some false then { old with b := some copy } else { old with a := some copy }) →
        (fails ≤ d.key.spares → d.key.cells.length = 64 → d.key.repairDue = [] →
          Completes (.vaultBatchCommit fails) s (except []) fun t =>
            (∀ p : Part, p ∉ [Part.key, .regs] → p.same d' t) ∧ vaultCtr t = ctr ∧ t.key.journal.value = ctr ∧ t.key.journal.count = 1 ∧ t.key.spares = d.key.spares - fails
            ∧ t.key.queue = d.key.queue.filter (fun x => decide (x ≠ e))
            ∧ smapGet (fun _ => (⟨none, none⟩ : Homes)) t.key.homes n = ⟨nowValid ctr new.a, nowValid ctr new.b⟩
            ∧ (∀ m, m ≠ n → t1Of t m = t1Of d m
                ∧ smapGet (fun _ => (⟨none, none⟩ : Homes)) t.key.homes m = smapGet (fun _ => (⟨none, none⟩ : Homes)) d.key.homes m)
            ∧ (∀ x, e.body = .key x → keyAt d n = some x → keyAt t n = some { x with persisted := true })
            ∧ fld t pgKS3 Reg.KS_STAT_BATCH_BATCHES = (fld d' pgKS3 Reg.KS_STAT_BATCH_BATCHES + 1) % 2 ^ 32
            ∧ regsBut [(pgKS3, 0x04C)] d' t)
        ∧ (∀ st, st ∈ [1, 2] →
          Completes (.vaultBatchCommit fails st) s (except []) fun t =>
            (∀ p : Part, p ≠ .key → p.same d' t) ∧ vaultCtr t = vaultCtr d ∧ t.key.journal.value = (if st = 1 then d.key.journal.value else ctr) ∧ t.key.queue = d.key.queue
            ∧ smapGet (fun _ => (⟨none, none⟩ : Homes)) t.key.homes n = (if st = 1 then new else ⟨nowValid ctr new.a, nowValid ctr new.b⟩)
            ∧ t.key.t1 = d.key.t1))
      ∧ (∀ n h, vaultWritable d = true → (d.key.homes.find? (fun kv => hasOld d.key.epoch kv.2)).map (·.1) = some n →
        h = smapGet (fun _ => (⟨none, none⟩ : Homes)) d.key.homes n →
        Completes .vaultEpochErase s [.key] fun t =>
          smapGet (fun _ => (⟨none, none⟩ : Homes)) t.key.homes n = ⟨eraseHome d.key.epoch h.a, eraseHome d.key.epoch h.b⟩
          ∧ (∀ b v, vaultPick d n = some (b, v) → v.epoch ≠ d.key.epoch → t1Of d n = .free 0 → t1Of t n = oldEpoch v)
          ∧ (∀ m, m ≠ n → t1Of t m = t1Of d m
              ∧ smapGet (fun _ => (⟨none, none⟩ : Homes)) t.key.homes m = smapGet (fun _ => (⟨none, none⟩ : Homes)) d.key.homes m)
          ∧ { t.key with t1 := d.key.t1, t1w := d.key.t1w, homes := d.key.homes } = d.key))

/-- USAGE_PERIOD_DUE, USAGE_RESV_RAISE and NONCE_RESV_RAISE queue the record for the vault; DERIVED_KEY_FREE frees it.

GEN_ROOT, VAULT_SYNC and T0_FLUSH: KS_CMD taken while the key store is not busy (R137, R142, R149, R163). Of GEN_ROOT's five steps some may
run before the next command; the rest follow while none waits (log entry 1).

Where the spec leaves a point open, a clause states the model's choice of log entries 1, 74, 90, 174 and 176, which is no rule of the
spec.

Exec answers a next state, as the clauses say, for usagePeriodDue, usageResvRaise, nonceResvRaise, derivedKeyFree, genRoot, vaultSync,
t0Flush. -/
def Obligations.KeyStoreCommands : Prop :=
  (∀ (s : State) (d : Dev) (n : Nat) (x : KeyRec), Begins s d → keyAt d n = some x → (instOf d (hInst x.handle)).run ≠ .frozen →
     (vaultWritable d = true → vaultRoom d 1 = true → hClass x.handle = 0 → (∀ e, e ∈ d.key.queue → e.recNo = n → e.batch ≠ none) →
       (∀ at', smapGet noneAt d.key.usageDue n = some at' → vaultWorks d.sys.mode = true →
         Completes (.usagePeriodDue n) s [.key, .now] fun t =>
           t.key.queue = d.key.queue ++ [⟨n, .key { x with persisted := false }, none⟩] ∧ smapGet noneAt t.key.usageDue n = none
           ∧ keyAt t n = some { x with persisted := false } ∧ (∀ m, m ≠ n → t1Of t m = t1Of d m) ∧ t.now = max d.now at')
       ∧ (∀ v y, smapGet noneAt d.key.usageRaise n = some (v, false) → fenceOpen d none = true → x.resv < x.limit →
         y = { x with resv := x.resv + min 1024 (x.limit - x.resv), persisted := false } →
         Completes (.usageResvRaise n) s [.key] fun t =>
           t.key.queue = d.key.queue ++ [⟨n, .key y, none⟩] ∧ keyAt t n = some y ∧ (∀ m, m ≠ n → t1Of t m = t1Of d m)
           ∧ smapGet noneAt t.key.usageRaise n = some (x.resv, true))
       ∧ (∀ v, smapGet noneAt d.key.usageRaise n = some (v, false) → fenceOpen d none = true → x.limit ≤ x.resv →
         Completes (.usageResvRaise n) s [.key] fun t =>
           smapGet noneAt t.key.usageRaise n = none ∧ { t.key with usageRaise := d.key.usageRaise } = d.key)
       ∧ (∀ v e y, smapGet noneAt d.key.nonceRaise n = some (v, e) → fenceOpen d e = true →
         y = { x with nonceResv := max x.nonceResv v, persisted := false } →
         Completes (.nonceResvRaise n) s [.key] fun t =>
           t.key.queue = d.key.queue ++ [⟨n, .key y, none⟩] ∧ keyAt t n = some y ∧ (∀ m, m ≠ n → t1Of t m = t1Of d m)
           ∧ smapGet noneAt t.key.nonceRaise n = none))
     ∧ (∀ v e, hClass x.handle ≠ 0 → smapGet noneAt d.key.nonceRaise n = some (v, e) → fenceOpen d e = true →
       Completes (.nonceResvRaise n) s [.key] fun t =>
         t.key.queue = d.key.queue ∧ keyAt t n = some { x with nonceResv := max x.nonceResv v, persisted := false }
         ∧ (∀ m, m ≠ n → t1Of t m = t1Of d m) ∧ smapGet noneAt t.key.nonceRaise n = none)
     ∧ (smapGet falseAt d.key.noticed n = true → hClass x.handle ≠ 0 → x.exts = [] → engineUses d n = false →
       Completes (.derivedKeyFree n) s [.key] fun t =>
         t1Of t n = (if hGen x.handle = 0xFFF then .retired x.handle else .free (withGen x.handle (hGen x.handle + 1)))
         ∧ residentOf t n = none ∧ (∀ m, m ≠ n → t1Of t m = t1Of d m ∧ residentOf t m = residentOf d m)
         ∧ smapGet falseAt t.key.noticed n = false ∧ t.key.queue = d.key.queue)) ∧
  (∀ (s : State) (d : Dev) (a : Access), Begins s d → AwakeFor d a → (admitWrite (seenAs a) pgKS 0x044 d).1 = some .ks0 →
     d.key.busy = false → takesJobs d pgKS = true → d.sys.mode ≠ .holdup → stopped d.sys.mode = false →
     (∀ q b rs, fieldCode (seenAs a) pgKS 1 d Reg.KS_CMD_OP = 0 → rootAllowed d (seenAs a) = true → q = homelessQuarter d →
       RandomAt d q 64 → b = (drbgOf d q).buf.take 64 → rs = rootKeys b d.fuse.secret d.key.taint →
       (Completes (.genRoot a) s ([.key, .lant, .ent] ++ evParts) fun t =>
         t.lant = { d.lant with root := some b } ∧ t.nv.rootMark = true ∧ t.key.roots = some rs ∧ t.key.check = checkValue rs.2.2
         ∧ t.key.epoch = (d.key.epoch + 1) % 2 ^ 32 ∧ t.key.staged = none ∧ t.key.busy = false
         ∧ t.key.state = (if d.key.taint then .closedTaint else if d.key.frozen then .readOnly else .opened)
         ∧ drbgOf t q = { drbgOf d q with buf := (drbgOf d q).buf.drop 64 } ∧ (∀ m, m ≠ q → drbgOf t m = drbgOf d m))
       ∧ (Completes (.genRoot a 1) s [.key, .ent] fun t =>
         t.key = { d.key with staged := some b, busy := true, opStep := 1 }
         ∧ drbgOf t q = { drbgOf d q with buf := (drbgOf d q).buf.drop 64 } ∧ (∀ m, m ≠ q → drbgOf t m = drbgOf d m)))
     ∧ (fieldCode (seenAs a) pgKS 2 d Reg.KS_CMD_OP = 0 → d.key.closeAt.isSome = true →
       Completes (.vaultSync a) s [.key, .regs, .shadow, .hdr] fun t =>
         t.key = { d.key with
           queue := d.key.queue.map (fun e => if e.batch = none then { e with batch := some d.key.batches } else e)
           batches := d.key.batches + 1, closeAt := none }
         ∧ pagesBut [pgKS, pgKS1, pgKS2, pgKS3] d t ∧ eventAt pgKS 4 d t)
     ∧ (fieldCode (seenAs a) pgKS 3 d Reg.KS_CMD_OP = 0 →
       Completes (.t0Flush a) s [.key, .hdr] fun t =>
         (∀ n, residentOf t n = if flightOf d n = 0 then none else residentOf d n)
         ∧ { t.key with resident := d.key.resident, slots := d.key.slots } = d.key ∧ eventAt pgKS 4 d t))

/-! ## Supplies, the bank and wear (R333, R402, R443-R447, R458-R466) -/

/-- COLD_RESET of a RAW part, HOLDUP_DETECT, LANTERN_POWER_LOSS and LANTERN_SUPPLY_CHANGE.

Where the spec leaves a point open, a clause states the model's choice of log entries 7, 110 and 133, which is no rule of the spec.

Exec answers a next state, as the clauses say, for coldReset, holdupDetect, lanternPowerLoss, lanternSupplyChange. -/
def Obligations.SupplyCommands : Prop :=
  ∀ (s : State) (d : Dev), Begins s d →
    (∀ parts, d.sys.mode = .vigil → d.sup.p12vGood = true → d.sup.pwrFail = false → d.lc.op = none → d.nv.journal = none →
      d.fuse.lc0 = 0 → d.fuse.lc1 = 0 → d.fuse.lc2 = 0 →
      Completes (.coldReset parts) s (except [.fuse, .lant]) fun t =>
        t.sys.mode = .romBoot ∧ t.sys.stage = .service ∧ t.sys.lc = .raw ∧ t.parts = parts ∧ t.sup = { d.sup with bankMv := 0 }
        ∧ t.now = max d.now (d.sup.goodSince + 2000000) ∧ (hartOf t 0).run = .running ∧ (quarterOf t 0).pwr = .on
        ∧ t.cmd.cmds = [] ∧ t.key.resident = [] ∧ t.hearth.diePll = true ∧ (hdrOf t pgHOST).enable = true)
    ∧ (∀ mv fail reach, mv < 10200 ∨ fail = true →
      (savable d.sys.mode = true → d.lc.op = none → Completes (.holdupDetect mv fail reach) s (except [.fuse, .lant, .parts]) fun t =>
        t.sys.mode = .vigil ∧ t.sup.p12vMv = mv ∧ t.sup.pwrFail = fail ∧ (mv < 10200 → t.sup.p12vGood = false)
        ∧ t.cmd.cmds = [] ∧ t.units = [] ∧ t.key.resident = [] ∧ (∀ q, (quarterOf t q).pwr = .off))
      ∧ (savable d.sys.mode = false → stopped d.sys.mode = false → Completes (.holdupDetect mv fail reach) s [.sup] fun t =>
        t.sup = { d.sup with p12vMv := mv, pwrFail := fail, p12vGood := if mv < 10200 then false else d.sup.p12vGood }))
    ∧ (d.sys.mode = .vigil → d.sup.p12vGood = false → d.sup.auxGood = false →
      Completes .lanternPowerLoss s [.sys, .lant, .wear, .regs] fun t =>
        t.sys = { d.sys with mode := .off, prev := .vigil } ∧ t.lant = { lantReset with powered := false }
        ∧ t.wear = { d.wear with history := [] }
        ∧ fld t pgSYS Reg.SYS_MODE_CNT_CHANGES = (fld d pgSYS Reg.SYS_MODE_CNT_CHANGES + 1) % 2 ^ 32
        ∧ regsBut [(pgSYS, Reg.SYS_MODE_CNT_CHANGES.off)] d t)
    ∧ (∀ p12 aux vbat cell fail n, lantSupply (supPut p12 aux vbat cell fail d).sup = some n →
      (d.sys.mode = .vigil → Completes (.lanternSupplyChange p12 aux vbat cell fail) s [.sup, .lant] fun t =>
        t.sup = (supPut p12 aux vbat cell fail d).sup ∧ t.lant = { d.lant with supply := n })
      ∧ (d.sys.mode = .off → Completes (.lanternSupplyChange p12 aux vbat cell fail) s [.sup, .lant, .sys, .regs] fun t =>
        t.sup = (supPut p12 aux vbat cell fail d).sup ∧ t.sys = { d.sys with mode := .vigil, prev := .off }
        ∧ t.lant = { lantReset with powered := true, por := true, epochNs := d.now, supply := n }))

/-- BANK_CHARGED, BANK_MEASUREMENT, MEAS_DONE, HOLD_STALE and WEAR_DAILY_UPDATE.

Where the spec leaves a point open, a clause states the model's choice of log entry 134, which is no rule of the spec.

Exec answers a next state, as the clauses say, for bankMeasurement, measDone, holdStale, wearDailyUpdate, bankCharged. -/
def Obligations.BankAndWearCommands : Prop :=
  ∀ (s : State) (d : Dev), Begins s d →
    (∀ mv, dieOn d.sys.mode = true → d.sup.p12vGood = true → d.sys.stage ≠ .charging →
      Completes (.bankCharged mv) s [.sup] fun t => t.sup = { d.sup with bankMv := max d.sup.bankMv (min mv (vTarget d)) })
    ∧ (∀ n, n = fld d pgHOLD Reg.HOLD_CFG_MEAS_H → d.sys.mode = .drowse → n ≠ 0 → d.hearth.measuring = false →
      bankLcOk { d with sup := { d.sup with bankMv := d.sup.bankMv - 1000 } } = true →
      Completes .bankMeasurement s [.hearth, .now] fun t =>
        t.hearth = { d.hearth with measuring := true } ∧ t.now = max d.now (d.nv.measAt + n * 3600000000000))
    ∧ (∀ cap esr d1, d.hearth.measuring = true →
      d1 = { d with nv := { d.nv with capUf := min 65535 cap, esrMohm := min 65535 esr, measAt := d.now } } →
      (bankLimit (eUse d1 (vTarget d1))).2 = false →
      Completes (.measDone cap esr) s [.nv, .hearth, .sup, .hdr, .regs, .shadow] fun t =>
        t.nv = d1.nv ∧ t.sup = { d.sup with bankMv := vTarget d1 } ∧ eventAt pgHOLD 1 d t ∧ pagesBut [pgHOLD] d t
        ∧ t.hearth = { d.hearth with measuring := false, stale := false, marginLow := false, vltLimit := 4096 })
    ∧ (dieOn d.sys.mode = true → d.hearth.stale = false →
      Completes .holdStale s [.hearth, .now] fun t =>
        t.hearth = { d.hearth with stale := true } ∧ t.now = max d.now (d.nv.measAt + 604800000000000))
    ∧ (∀ used top, dieOn d.sys.mode = true → top = fld d pgWEAR Reg.WEAR_CFG_ALARM →
      (∀ n, n < 14 → (n ∈ [5, 6, 12, 13] → wearUsed d n < top)
        ∧ (n ∉ [5, 6, 12, 13] → min 10000 (used.getD n (wearUsed d n)) < top)) →
      Completes (.wearDailyUpdate used) s [.wear] fun t =>
        (∀ n, n < 14 → smapGet zeroAt t.wear.used n = min 10000 (used.getD n (wearUsed d n))
          ∧ (smapGet noHist t.wear.history n).head? = some (wearUsed t n))
        ∧ t.wear.items = d.wear.items ∧ { t.wear with used := d.wear.used, history := d.wear.history } = d.wear)

/-! ## Power of units and quarters, DROWSE, clocks (R31, R451-R457) -/

/-- PG_PWR_REQUEST, UNIT_POWER_DRAINED, QUARTER_POWER_REQUEST, QUARTER_POWER_DRAINED, DROWSE_WAKE, WAKE_TIMER and LOCK_LOST; and in DROWSE a
TLP of a link that is up, such as a configuration read, wakes the device (R68, R457).

Where the spec leaves a point open, a clause states the model's choice of log entries 129, 130 and 131, which is no rule of the spec.

Exec answers a next state, as the clauses say, for configRequest, pgPwrRequest, unitPowerDrained, quarterPowerRequest,
quarterPowerDrained, drowseWake, wakeTimer, lockLost. -/
def Obligations.PowerCommands : Prop :=
  ∀ (s : State) (d : Dev), Begins s d →
    (∀ a p val k h, AwakeFor d a → (admitWrite (seenAs a) p 0x034 d).1 = some k → (pageCap k).pwr = true → h = hdrOf d p → h.softRst = false →
      val < 2 ^ 32 →
      (bits val 1 0 = 0 → Completes (.pgPwrRequest a p val) s [.hdr] fun t =>
        hdrOf t p = { h with pwrReq := 0, pwrNow := 0, pwrPend := false, pwrHeld := false } ∧ hdrsBut [p] d t)
      ∧ (bits val 1 0 = 1 ∨ bits val 1 0 = 2 →
        (jobsHeld d p = false → k ≠ .ent → Completes (.pgPwrRequest a p val) s [.hdr] fun t =>
          hdrOf t p = { h with pwrReq := bits val 1 0, pwrNow := 1, pwrPend := false, pwrHeld := false } ∧ hdrsBut [p] d t)
        ∧ (jobsHeld d p = true → (seenAs a).sec = true → Completes (.pgPwrRequest a p val) s [.hdr] fun t =>
          hdrOf t p = { h with pwrReq := bits val 1 0, pwrPend := true, pwrHeld := false } ∧ hdrsBut [p] d t)))
    ∧ (∀ p h, h = hdrOf d p → h.pwrPend = true → jobsHeld d p = false → pageKind p ≠ some .ent →
      Completes (.unitPowerDrained p) s [.hdr] fun t =>
        hdrOf t p = { h with pwrNow := min 1 h.pwrReq, pwrPend := false, pwrHeld := false } ∧ hdrsBut [p] d t)
    ∧ (∀ a q val req, AwakeFor d a → (admitWrite (seenAs a) pgPWR 0x040 d).1 = some .pwr → (hdrOf d pgPWR).softRst = false → 1 ≤ q → q < 4 →
      val < 2 ^ 8 → req = fld d pgPWR Reg.PWR_QREQ_REQ → (quarterOf d q).disabled = false → (quarterOf d q).pend = none →
      (∀ r, r < 4 → r ≠ q → bits val (2 * r + 1) (2 * r) = bits req (2 * r + 1) (2 * r)) →
      bits val (2 * q + 1) (2 * q) ≠ bits req (2 * q + 1) (2 * q) →
      (bits val (2 * q + 1) (2 * q) = 0 → (quarterOf d q).pwr = .gated → (quarterOf d q).lost = false →
        Completes (.quarterPowerRequest a val) s [.hearth, .harts, .regs, .hdr, .ent] fun t =>
          fld t pgPWR Reg.PWR_QREQ_REQ = val ∧ quarterOf t q = { quarterOf d q with pwr := .on, pll := true, lost := false }
          ∧ (∀ r, r < 4 → r ≠ q → quarterOf t r = quarterOf d r) ∧ eventAt pgPWR 0 d t ∧ regsBut [(pgPWR, 0x040)] d t)
      ∧ (bits val (2 * q + 1) (2 * q) = 1 → (quarterOf d q).pwr = .on → quarterWork d q .gated = false →
        Completes (.quarterPowerRequest a val) s [.hearth, .regs, .hdr, .ent, .cmd] fun t =>
          fld t pgPWR Reg.PWR_QREQ_REQ = val ∧ (quarterOf t q).pwr = .gated ∧ (quarterOf t q).pend = none
          ∧ (quarterOf t q).pll = false ∧ (∀ r, r < 4 → r ≠ q → quarterOf t r = quarterOf d r)
          ∧ (wellOf t q).run = .off ∧ (drbgOf t q).need = true ∧ (drbgOf t q).buf = [] ∧ eventAt pgPWR 0 d t))
    ∧ (∀ q, q < 4 → (quarterOf d q).pend = some .gated → (quarterOf d q).pwr = .on → quarterWork d q .gated = false →
      Completes (.quarterPowerDrained q) s [.hearth, .regs, .hdr, .ent] fun t =>
        (quarterOf t q).pwr = .gated ∧ (quarterOf t q).pend = none ∧ (quarterOf t q).pll = false
        ∧ (∀ r, r < 4 → r ≠ q → quarterOf t r = quarterOf d r) ∧ (wellOf t q).run = .off ∧ (drbgOf t q).need = true
        ∧ eventAt pgPWR 0 d t)
    ∧ (d.sys.mode = .drowse → (cardOf d 0).present = false → (cardOf d 1).present = false →
      (∀ kv, kv ∈ d.mgr.insts → kv.2.run ≠ .resetting) → ∀ h, h < 16 → d.hearth.drowseHart = some h →
      (∀ src, wakeSeen d src = true → Completes (.drowseWake src) s ([.sys, .hearth, .harts, .now, .ent] ++ evParts) fun t =>
        t.sys = { d.sys with mode := .service, prev := .drowse } ∧ t.now = d.now + 40000 ∧ t.hearth.quarters = d.hearth.drowsePrior
        ∧ t.hearth.diePll = true ∧ (hartOf t h).args = [0, src] ∧ fld t pgPWR Reg.PWR_DROWSE_WAKE_SRC = src)
      ∧ (∀ l val, l < 2 → (linkOf d l).up = true →
        Completes (.configRequest l 0 false .revisionId val) s ([.sys, .hearth, .harts, .now, .ent] ++ evParts) fun t =>
          t.sys = { d.sys with mode := .service, prev := .drowse } ∧ t.now = d.now + 40000 ∧ t.hearth.quarters = d.hearth.drowsePrior
          ∧ (hartOf t h).args = [0, 1] ∧ fld t pgPWR Reg.PWR_DROWSE_WAKE_SRC = 1 ∧ ∃ first, t.out = first ++ [.cfgValue 0x01])
      ∧ (∀ n, n = fld d pgPWR Reg.PWR_WAKE_TMR_TICKS → n ≠ 0 →
        Completes .wakeTimer s ([.sys, .hearth, .harts, .now, .ent] ++ evParts) fun t =>
          t.sys = { d.sys with mode := .service, prev := .drowse } ∧ t.hearth.quarters = d.hearth.drowsePrior
          ∧ t.now = max d.now (timeOfStamp d (tickOf (d.hearth.drowseAt - d.lant.epochNs) + n)) + 40000
          ∧ (hartOf t h).args = [0, 4] ∧ fld t pgPWR Reg.PWR_DROWSE_WAKE_SRC = 4))
    ∧ (∀ n, (n < 4 ∧ (quarterOf d n).pll = true) ∨ (n = 4 ∧ d.hearth.diePll = true) →
      Completes (.lockLost n) s [.now, .regs, .hdr] fun t =>
        t.now = d.now + 20000 ∧ fld t pgCLK Reg.CLK_RELOCK_COUNT = min (2 ^ 32 - 1) (fld d pgCLK Reg.CLK_RELOCK_COUNT + 1)
        ∧ regsBut [(pgCLK, Reg.CLK_RELOCK_COUNT.off)] d t ∧ eventAt pgCLK 0 d t)

/-! ## The host attachment (R47-R73) -/

/-- HOST_RESET, LINK_TRAINING, LINK_UP, LINK_DOWN, USB4_ATTACH and USB4_DETACH.

Where the spec leaves a point open, a clause states the model's choice of log entries 48, 49 and 50, which is no rule of the spec.

Exec answers a next state, as the clauses say, for hostReset, linkTraining, linkUp, linkDown, usb4Attach, usb4Detach. -/
def Obligations.LinkCommands : Prop :=
  ∀ (s : State) (d : Dev), Begins s d →
    (dieOn d.sys.mode = false → Completes .hostReset s [.host] fun t => t.host = { d.host with rstUpAt := d.now })
    ∧ (dieOn d.sys.mode = true → d.sys.draining = none → Completes .hostReset s linkParts fun t =>
        t.host.rstUpAt = d.now
        ∧ (∀ l, l < 2 → linkInMode (portMode d) l = true → linkIsUsb d l = false →
          (linkOf t l).up = false ∧ (linkOf t l).training = false ∧ (linkOf t l).vfEnable = false ∧ (linkOf t l).sessions = []
          ∧ (linkOf t l).ide = [] ∧ (linkOf t l).doeReq = none))
    ∧ (∀ l, l < 2 → dieOn d.sys.mode = true → linkInMode (portMode d) l = true → (linkOf d l).up = false →
      (d.sup.p12vGood = true → (hdrOf d pgHOST).enable = true → linkIsUsb d l = false →
        Completes (.linkTraining l) s [.host, .now] fun t =>
          t.now = max d.now (max d.host.rstUpAt d.sup.goodSince + 1000000) ∧ linkOf t l = { linkOf d l with training := true }
          ∧ linkOf t (1 - l) = linkOf d (1 - l))
      ∧ (∀ info, linkIsUsb d l = false → (linkOf d l).training = true → linkInfoOk d l info = true →
        Completes (.linkUp l info) s [.host, .regs, .hdr] fun t =>
          linkOf t l = { linkOf d l with up := true, training := false } ∧ linkOf t (1 - l) = linkOf d (1 - l)
          ∧ holds t pgHOST (if l = 0 then
              [(Reg.HOST_LINK_A_WIDTH, info.width), (Reg.HOST_LINK_A_SPEED, info.speed), (Reg.HOST_LINK_A_FLIT, b2n info.flit)]
            else [(Reg.HOST_LINK_B_WIDTH, info.width), (Reg.HOST_LINK_B_SPEED, info.speed), (Reg.HOST_LINK_B_FLIT, b2n info.flit)])
          ∧ pagesBut [pgHOST] d t ∧ eventAt pgHOST (if l = 0 then 0 else 2) d t)
      ∧ (∀ info, linkIsUsb d l = true → d.host.usbAttached = true →
        Completes (.linkUp l info) s [.host, .regs, .hdr] fun t =>
          linkOf t l = { linkOf d l with up := true, training := false } ∧ linkOf t (1 - l) = linkOf d (1 - l)
          ∧ holds t pgUSB4 [(Reg.USB4_STAT_TUNNEL, 1), (Reg.USB4_STAT_ENUM, 1)] ∧ pagesBut [pgUSB4] d t ∧ hdrsBut [pgHOST, pgUSB4] d t))
    ∧ (∀ l, l < 2 → (linkOf d l).up = true → d.sys.draining = none → Completes (.linkDown l) s linkParts fun t =>
        (linkOf t l).up = false ∧ (linkOf t l).vfEnable = false ∧ (linkOf t l).sessions = [] ∧ (linkOf t l).ide = []
        ∧ (linkOf t (1 - l)).up = (linkOf d (1 - l)).up)
    ∧ (∀ fast n, dieOn d.sys.mode = true → linkIsUsb d 0 = true ∨ linkIsUsb d 1 = true → fldB d pgUSB4 Reg.USB4_CFG_PORT_EN = true →
      d.host.usbAttached = false → Completes (.usb4Attach fast n) s [.host, .regs, .hdr] fun t =>
        t.host.usbAttached = true
        ∧ fld t pgUSB4 Reg.USB4_STAT_RATE = (if fast = true ∧ fldB d pgUSB4 Reg.USB4_CFG_FORCE_40 = false then 2 else 1)
        ∧ (∀ l, linkOf t l = linkOf d l) ∧ pagesBut [pgUSB4] d t ∧ hdrsBut [pgUSB4] d t)
    ∧ (d.host.usbAttached = true → d.sys.draining = none → Completes .usb4Detach s linkParts fun t =>
        t.host.usbAttached = false ∧ (∀ l, l < 2 → linkIsUsb d l = true → (linkOf t l).up = false ∧ (linkOf t l).sessions = []))

/-- FUNCTION_LEVEL_RESET, VF_ENABLE_CHANGE, CONFIG_REQUEST, MSIX_UNMASK and IDE_CHECK_FAIL.

Where the spec leaves a point open, a clause states the model's choice of log entries 50, 51, 52, 53, 57, 144, 169 and 177, which is no
rule of the spec.

Exec answers a next state, as the clauses say, for functionLevelReset, vfEnableChange, configRequest, ideCheckFail, msixUnmask. -/
def Obligations.FunctionCommands : Prop :=
  ∀ (s : State) (d : Dev) (l : Nat), Begins s d → l < 2 → Awake d (some l) →
    (cfgServe d l = .serve → d.sys.draining = none →
      (∀ n i, vfResponds d l n = true → n ≠ 0 → i = fnInst d l n → i < 1024 → instFn d i = some (l, n) →
        Completes (.functionLevelReset l (some n)) s linkParts fun t =>
          (fnOf t l n).msix = [] ∧ (∀ q, q < 16 → tailOf t i q = 0 ∧ headOf t i q = 0 ∧ qFld t i q Reg.SQ_CFG_EN = 0)
          ∧ (∀ c, c ∈ t.cmd.cmds → c.inst = i → c.mute = true) ∧ linkOf t l = linkOf d l
          ∧ fld t pgHOST Reg.HOST_RESET_CNT_FLR = min 65535 (fld d pgHOST Reg.HOST_RESET_CNT_FLR + 1))
      ∧ (Completes (.functionLevelReset l none) s linkParts fun t =>
          linkOf t l = { linkOf d l with vfEnable := false, numVfs := 0, doeReq := none, doeResp := false }
          ∧ (∀ v, (smapGet msixReset (fnOf t l 0).msix v).masked = true ∧ (smapGet msixReset (fnOf t l 0).msix v).addr = 0)
          ∧ fld t pgHOST Reg.HOST_RESET_CNT_FLR = min 65535 (fld d pgHOST Reg.HOST_RESET_CNT_FLR + 1))
      ∧ (∀ on n, (linkOf d l).vfEnable = false → Completes (.vfEnableChange l on n) s [.host] fun t =>
          linkOf t l = { linkOf d l with vfEnable := on, numVfs := min n (totalVfs d l) } ∧ linkOf t (1 - l) = linkOf d (1 - l))
      ∧ (∀ n, (linkOf d l).vfEnable = true → Completes (.vfEnableChange l false n) s linkParts fun t =>
          linkOf t l = { linkOf d l with vfEnable := false, numVfs := min n (totalVfs d l) }
          ∧ (∀ m, vfResponds d l m = true → (fnOf t l m).msix = [])))
    ∧ (∀ fn w reg v, (cfgServe d l = .none → Completes (.configRequest l fn w reg v) s [] fun t => t.out = [.cfgNone])
      ∧ (cfgServe d l = .retry → Completes (.configRequest l fn w reg v) s [] fun t => t.out = [.cfgRetry])
      ∧ (cfgServe d l = .serve → fnResponds d l fn = false → Completes (.configRequest l fn w reg v) s [] fun t => t.out = [.cfgNone]))
    ∧ (∀ fn, cfgServe d l = .serve → fnResponds d l fn = true →
      (∀ reg v, (∀ off st, reg ≠ .bar2Word off st) → Completes (.configRequest l fn false reg v) s [] fun t => t.out = [.cfgValue (cfgRead d l fn reg)])
      ∧ (∀ off st v, (ideArrives d l st = false → Completes (.configRequest l fn false (.bar2Word off st) v) s [] fun t => t.out = [.unsupported])
        ∧ (ideArrives d l st = true → Completes (.configRequest l fn false (.bar2Word off st) v) s [] fun t =>
            t.out = [.cfgValue (if stopped d.sys.mode = true ∧ fn ≠ 0 then 0 else tableRead d l fn off)])
        ∧ (ideArrives d l st = false ∨ stopped d.sys.mode = true → Completes (.configRequest l fn true (.bar2Word off st) v) s [] fun t => t.out = []))
      ∧ (∀ st vec v, ideArrives d l st = true → stopped d.sys.mode = false → vec < msixCount fn → v < 2 ^ 32 →
        Completes (.configRequest l fn true (.bar2Word (16 * vec + 8) st) v) s [.host] fun t =>
          smapGet msixReset (fnOf t l fn).msix vec = { smapGet msixReset (fnOf d l fn).msix vec with data := v }
          ∧ (∀ u, u ≠ vec → smapGet msixReset (fnOf t l fn).msix u = smapGet msixReset (fnOf d l fn).msix u))
      ∧ (∀ v, Completes (.configRequest l fn false .vendorId v) s [] fun t =>
          t.out = [.cfgValue (if fn = 0 then 0x1F3A else 0xFFFF)])
      ∧ (∀ v, Completes (.configRequest l fn true .deviceId v) s [] fun t => t.out = [.cfgValue 0])
      ∧ (∀ v, Completes (.configRequest l fn true .relaxedOrdering v) s [.host] fun t =>
          fnOf t l fn = { fnOf d l fn with relaxed := bit v 0 } ∧ t.out = [.cfgValue 0])
      ∧ (∀ v, v ∈ [128, 256, 512] → Completes (.configRequest l fn true .maxPayload v) s [.host] fun t =>
          fnOf t l fn = { fnOf d l fn with maxPayload := v } ∧ t.out = [.cfgValue 0])
      ∧ (∀ vec st m, vec < msixCount fn → m = smapGet msixReset (fnOf d l fn).msix vec →
        (ideArrives d l st = false ∨ stopped d.sys.mode = true → Completes (.msixUnmask l fn vec st) s [] fun t => t.out = [])
        ∧ (m.pba = true → ideArrives d l st = true → ideOpen d l fn = true → stopped d.sys.mode = false → d.sys.mode ≠ .holdup →
          Completes (.msixUnmask l fn vec st) s [.host] fun t =>
          t.out = [.msix l fn vec m.addr m.data] ∧ smapGet msixReset (fnOf t l fn).msix vec = { m with masked := false, pba := false }
          ∧ (∀ u, u ≠ vec → smapGet msixReset (fnOf t l fn).msix u = smapGet msixReset (fnOf d l fn).msix u))
        ∧ (m.pba = false → ideArrives d l st = true → stopped d.sys.mode = false → Completes (.msixUnmask l fn vec st) s [.host] fun t =>
          t.out = [] ∧ smapGet msixReset (fnOf t l fn).msix vec = { m with masked := false })))
    ∧ (∀ st, st < 5 → dieOn d.sys.mode = true → (ideOf d l st).secure = true →
      Completes (.ideCheckFail l st) s evParts fun t =>
        ideOf t l st = ⟨false, none, 0, 0, []⟩ ∧ (∀ u, u ≠ st → ideOf t l u = ideOf d l u) ∧ (fnOf t l 0).aer = Nat.lor (fnOf d l 0).aer 1
        ∧ linkOf t (1 - l) = linkOf d (1 - l) ∧ ∃ rest, t.out = .aerIde l :: rest)

/-- DOE_REQUEST, DOE_ABORT, SPDM_REQUEST, SMBUS_REQUEST and ALERT_RESPONSE_READ (R58-R61, R72, R73, R348).

Where the spec leaves a point open, a clause states the model's choice of log entries 13, 14, 54, 55, 171, 178, 180, 182 and 183, which
is no rule of the spec.

Exec answers a next state, as the clauses say, for doeRequest, doeAbort, spdmRequest, smbusRequest, alertResponseRead. -/
def Obligations.MessageCommands : Prop :=
  ∀ (s : State) (d : Dev), Begins s d →
    (∀ l, l < 2 → cfgServe d l = .serve → d.sys.mode ≠ .drowse →
      (∀ i, d.sys.mode ≠ .romBoot → d.sys.mode ≠ .halted → Completes (.doeRequest l (.discovery i)) s [.host] fun t =>
        linkOf t l = { linkOf d l with doeReq := none, doeResp := true } ∧ linkOf t (1 - l) = linkOf d (1 - l)
        ∧ ∃ rest, t.out = .doe l (doeDiscovery i) :: rest)
      ∧ (∀ r, 16384 < doeLen r → Completes (.doeRequest l r) s [] fun t => t.out = [])
      ∧ (∀ r, (∀ i, r ≠ .discovery i) → doeLen r ≤ 16384 → d.sys.mode ≠ .romBoot → d.sys.mode ≠ .halted →
        Completes (.doeRequest l r) s [.host, .hdr, .harts] fun t =>
          linkOf t l = { linkOf d l with doeReq := some r, doeResp := false } ∧ linkOf t (1 - l) = linkOf d (1 - l)
          ∧ eventAt pgHOST 6 d t)
      ∧ (Completes (.doeAbort l) s [.host] fun t =>
          linkOf t l = { linkOf d l with doeReq := none, doeResp := false } ∧ linkOf t (1 - l) = linkOf d (1 - l)))
    ∧ (∀ r, d.host.a.doeReq = some r → doeTrap d = true →
      (d.sys.mode = .startup → Completes .spdmRequest s [.host, .hdr, .harts] fun t =>
        linkOf t 0 = { linkOf d 0 with doeReq := none, doeResp := true } ∧ linkOf t 1 = linkOf d 1
        ∧ ∃ rest, t.out = .doe 0 (.error 0x03) :: rest)
      ∧ (d.sys.mode = .service →
        (r = .getVersion → (linkOf d 0).xfer = 0 ∨ 8 ≤ (linkOf d 0).xfer → Completes .spdmRequest s [.host, .hdr, .harts] fun t =>
          linkOf t 0 = { mailAnswered (linkOf d 0) with spdmVer := 0, spdmAlg := false } ∧ linkOf t 1 = linkOf d 1
          ∧ (∃ rest, t.out = .doe 0 (.version [0x12, 0x13]) :: rest)
          ∧ hdrOf t pgHOST = { hdrOf d pgHOST with irqStat := setBit (hdrOf d pgHOST).irqStat 6 d.host.b.doeReq.isSome })
        ∧ (∀ v n, r = .getCapabilities v n → 0x12 ≤ v → n = 0 ∨ 8 ≤ n → Completes .spdmRequest s [.host, .hdr, .harts] fun t =>
          linkOf t 0 = { mailAnswered (linkOf d 0) with spdmVer := min v 0x13, spdmAlg := false, xfer := n }
          ∧ ∃ rest, t.out = .doe 0 (.capabilities (min v 0x13) spdmFlags) :: rest)
        ∧ (∀ i sign nonce x, r = .getMeasurements i sign nonce → (linkOf d 0).spdmAlg = true → 1 ≤ i → i ≤ 7 →
          x = .measurements [(i, measBlock d i)] nonce (if sign = true then some (spdmSign 0 d) else none) →
          ((linkOf d 0).xfer = 0 ∨ respLen x ≤ (linkOf d 0).xfer → Completes .spdmRequest s [.host, .hdr, .harts] fun t =>
            linkOf t 0 = mailAnswered (linkOf d 0) ∧ ∃ rest, t.out = .doe 0 x :: rest)
          ∧ ((linkOf d 0).xfer ≠ 0 → (linkOf d 0).xfer < respLen x → Completes .spdmRequest s [.host, .hdr, .harts] fun t =>
            linkOf t 0 = { mailAnswered (linkOf d 0) with
              chunkOut := some ((linkOf d 0).nextLarge, 0, x), nextLarge := ((linkOf d 0).nextLarge + 1) % 256 }
            ∧ ∃ rest, t.out = .doe 0 (.largeResponse (linkOf d 0).nextLarge) :: rest))
        ∧ (∀ h n x, r = .chunkGet h n → (linkOf d 0).chunkOut = some (h, n, x) →
          (respLen x ≤ (n + 1) * (linkOf d 0).xfer → Completes .spdmRequest s [.host, .hdr, .harts] fun t =>
            linkOf t 0 = { linkOf d 0 with doeReq := none, doeResp := true, chunkOut := none }
            ∧ ∃ rest, t.out = .doe 0 (.chunkEnd h n x) :: rest)
          ∧ ((n + 1) * (linkOf d 0).xfer < respLen x → Completes .spdmRequest s [.host, .hdr, .harts] fun t =>
            linkOf t 0 = { linkOf d 0 with doeReq := none, doeResp := true, chunkOut := some (h, n + 1, x) }
            ∧ ∃ rest, t.out = .doe 0 (.chunk h n) :: rest))))
    ∧ (∀ n, smbServes d = true → n = fld d pgHOST Reg.HOST_SMB_ADDR_ADDR →
      (∀ m r, m ≠ n → Completes (.smbusRequest ⟨m, r⟩) s [] fun t => t.out = [])
      ∧ (∀ e, Completes (.smbusRequest ⟨n, .setEid e⟩) s [.host] fun t => t.host = { d.host with eid := e % 256 } ∧ t.out = [.smb 0])
      ∧ (∀ on, Completes (.smbusRequest ⟨n, .eventConfig on⟩) s [.host] fun t =>
          t.host = { d.host with pldmEvents := on } ∧ t.out = [.smb 0])
      ∧ (∀ id val, id ≠ 2 → Completes (.smbusRequest ⟨n, .sensor id val⟩) s [] fun t =>
          t.out = match smbSensor d id val with
            | some v => [.smb v]
            | none => [.smbRefused])
      ∧ (∀ val : Nat, Completes (.smbusRequest ⟨n, .sensor 2 val⟩) s [.sup] fun t =>
          t.out = [.smb val] ∧ t.sup = { d.sup with inputPower := min 65535 (100 * val) })
      ∧ (Completes (.smbusRequest ⟨n, .other⟩) s [] fun t => t.out = [.smbRefused])
      ∧ (d.host.alert = true → stopped d.sys.mode = false → Completes .alertResponseRead s [.host] fun t =>
          t.host = { d.host with alert := false } ∧ t.out = [.alertN false]))

/-- LOADER_HANDSHAKE and ROM_TRANSITION_SERVICE: what host software writes to MGR_PARAM while the boot ROM waits (R343, R419).

Where the spec leaves a point open, a clause states the model's choice of log entries 11, 112 and 128, which is no rule of the spec.

Exec answers a next state, as the clauses say, for loaderHandshake, romTransitionService, tokenSet. -/
def Obligations.RomHandshakeCommands : Prop :=
  ∀ (s : State) (d : Dev) (a : Access) (x : Bytes) (n addr : Nat), Begins s d → AwakeFor d a → d.mgr.busy = none →
    (admitWrite (seenAs a) pgMGR 0x044 d).1 = some .mgr → n = fld d pgMGR Reg.MGR_IN_LEN_LEN → mgrHostOk d = true →
    addr = mgrAddr d Reg.MGR_IN_ADDR_LO_ADDR_LO Reg.MGR_IN_ADDR_HI_ADDR_HI →
    (d.sys.stage = .loader → 4352 ≤ n → n ≤ 0x2002000 → fieldCode (seenAs a) pgMGR 0x4C4F4144 d Reg.MGR_PARAM_PARAM = 0 →
      (∀ f, imgFault d (fitTo n x) = some f → Completes (.loaderHandshake a (some x)) s [.regs] fun t =>
        t.out = hostReads d (mgrLink d) 0 addr n
        ∧ holds t pgMGR [(Reg.MGR_PARAM_PARAM, 0x4C4F4144), (Reg.MGR_RESULT_CODE, loaderCode f), (Reg.MGR_RESULT_INFO, 0),
          (Reg.MGR_RES_VAL_VAL, f)]
        ∧ fld t pgSYS Reg.SYS_BOOT_STAT_FAIL = f ∧ pagesBut [pgMGR, pgSYS] d t)
      ∧ (∀ d2 d3 : Dev, d2 = emitAll (hostReads d (mgrLink d) 0 addr n) (setFld d pgMGR Reg.MGR_PARAM_PARAM 0x4C4F4144) →
        imgLoadCheck (fitTo n x) d2 = (none, d3) → d3 = { d2 with mpe := d3.mpe, regs := d3.regs } → d3.mpe.failing = none →
        Completes (.loaderHandshake a (some x)) s ([.sys, .harts, .mpe, .mgr, .fuse] ++ evParts) fun t =>
          t.sys.stage = .firmware ∧ t.sys.runVer = imgVer (fitTo n x) ∧ slotOf t 0 = fitTo n x ∧ t.nv.actSlot = 0
          ∧ (hartOf t 0).entry = imgEntry (fitTo n x) ∧ (hartOf t 0).world = true ∧ (hartOf t 0).args = [0, 0, 0, 0]
          ∧ fld t pgSYS Reg.SYS_BOOT_STAT_STEP = 14 ∧ (hdrOf t pgHT).enable = true ∧ t.mpe = d3.mpe))
    ∧ (d.sys.stage = .service → n = 64 → fieldCode (seenAs a) pgMGR 0x4C435452 d Reg.MGR_PARAM_PARAM = 0 →
      ∀ b, b = fitTo 64 x →
        (leAt b 1 1 = 1 → slice b 2 14 = zeros 14 → leAt b 0 1 < 4 → d.sys.lc = .raw → rowSet d (leAt b 0 1) = false →
          lcSupply d = true → Completes (.romTransitionService a (some x)) s [.regs, .mgr, .lc] fun t =>
            t.lc = ⟨some (.tokenSet (leAt b 0 1) (slice b 0x10 48)), true⟩ ∧ t.mgr = { d.mgr with busy := some (0, 0) }
            ∧ t.out = hostReads d (mgrLink d) 0 addr 64 ∧ regsBut [(pgMGR, 0x044)] d t)
        ∧ (1 < leAt b 1 1 → Completes (.romTransitionService a (some x)) s [.regs] fun t =>
            holds t pgMGR [(Reg.MGR_RESULT_CODE, mgBAD_ARG), (Reg.MGR_RESULT_INFO, 0), (Reg.MGR_RES_VAL_VAL, 0)]
            ∧ t.out = hostReads d (mgrLink d) 0 addr 64))

/-! ## The register pages (R19, R23-R40, R247, R277, R373) -/

/-- R16. A page that the page allocation does not list behaves as reserved bits: a register write to it changes nothing, and an
interconnect transaction that the access table admits reads zeros or is ignored (the doorbell pages, which R43 gives to virtual functions, apart). No master meets a decode error anywhere in the
register space. -/
def Obligations.UnlistedPagesAreReserved : Prop :=
  (∀ (s : State) (d : Dev) (a : Access) (p off size val : Nat), Begins s d → AwakeFor d a → pageKind p = none →
    (∀ i st, a.via = .vf i st → p ≠ bellPage i) →
    Completes (.registerWrite a p off size val) s [] fun _ => True)
  ∧ (∀ (s : State) (d : Dev) (b : Bus), Begins s d → dieOn d.sys.mode = true → BusPlain d b → zoneOf b.addr = .regs →
      pageKind ((b.addr - 0x1000_0000) / 0x1000) = none → b.addr % 4096 + b.len ≤ 4096 →
      partCheck d (busWho d b) b.kind b.addr = .pass →
      (b.kind ≠ .write → Completes (.interconnectTransaction b) s [] fun t => t.bus = some (.ok (zeros b.len)))
      ∧ (b.kind = .write → Completes (.interconnectTransaction b) s [] fun t => t.bus = if busPosted b then none else some (.ok [])))
  ∧ (∀ (d : Dev) (w : Who) (k : BusKind) (x : Nat), zoneOf x = .regs → partCheck d w k x ≠ .decode ∧ partCheck d w k x ≠ .fixed)

/-- R23. Where PG_CAP.IRQ is 0, the three interrupt registers of a page read zero and ignore writes; where PG_CAP.PWR is 0, PG_PWR
does; where PG_CAP.DRAIN is 0, DRAIN reads zero, and a write of PG_CTRL acts alike whatever its DRAIN bit. None of these ignored writes
changes anything, so none records an error. -/
def Obligations.AbsentFacilities : Prop :=
  ∀ (s : State) (d : Dev) (p : Nat) (k : PageKind), Begins s d → pageKind p = some k →
    (∀ off, ((pageCap k).irq = false ∧ (off = 0x014 ∨ off = 0x018 ∨ off = 0x01C)) ∨ ((pageCap k).pwr = false ∧ off = 0x034) →
      (∀ a val, AwakeFor d a → (admitWrite (seenAs a) p off d).1 = some k → Completes (.registerWrite a p off 4 val) s [] fun _ => True)
      ∧ (∀ b : Bus, b.kind = .read → BusPlain d b → b.addr = regAddr p off → b.len = 4 → dieOn d.sys.mode = true →
          partCheck d (busWho d b) .read b.addr = .pass → reach d (busAccess d b p) p off ≠ .gone →
          readRefused d (seenAs (busAccess d b p)) k p = false →
          Completes (.interconnectTransaction b) s [] fun t => t.bus = some (.ok (zeros 4))))
    ∧ ((pageCap k).drain = false →
        (∀ a val, execRegisterWrite a p 0x00C 4 val s = execRegisterWrite a p 0x00C 4 (setBit val 2 false) s)
        ∧ (∀ b : Bus, b.kind = .read → BusPlain d b → b.addr = regAddr p 0x00C → b.len = 4 → dieOn d.sys.mode = true →
            partCheck d (busWho d b) .read b.addr = .pass → reach d (busAccess d b p) p 0x00C ≠ .gone →
            readRefused d (seenAs (busAccess d b p)) k p = false →
            Completes (.interconnectTransaction b) s [] fun t => ∃ x, t.bus = some (.ok x) ∧ x.length = 4 ∧ bit (leAt x 0 4) 2 = false))

/-- REGISTER_WRITE: the common header of a page, a page without effects of its own field by field, and an access of a wrong size or
alignment.

Where the spec leaves a point open, a clause states the model's choice of log entries 19, 20 and 24, which is no rule of the spec.

Exec answers a next state, as the clauses say, for registerWrite. -/
def Obligations.RegisterWriteCommand : Prop :=
  ∀ (s : State) (d : Dev) (a : Access) (p off val : Nat) (k : PageKind), Begins s d → AwakeFor d a → off < 0x1000 → val < 2 ^ 32 →
    (admitWrite (seenAs a) p off d).1 = some k → p ≠ pgDRBG →
    (off = 0x018 → (pageCap k).irq = true → Completes (.registerWrite a p off 4 val) s [.hdr] fun t =>
      hdrOf t p = { hdrOf d p with irqEn := val } ∧ hdrsBut [p] d t)
    ∧ (off = 0x01C → (pageCap k).irq = true → Completes (.registerWrite a p off 4 val) s [.hdr, .harts] fun t =>
      hdrOf t p = { hdrOf d p with irqStat := (hdrOf d p).irqStat - Nat.land (hdrOf d p).irqStat val } ∧ hdrsBut [p] d t
      ∧ harkened d t)
    ∧ (off = 0x010 → bit val 2 = true → Completes (.registerWrite a p off 4 val) s [.hdr] fun t =>
      hdrOf t p = { hdrOf d p with
        cfgErr := false, errCode := 0, errMore := 0, errWorld := false, errMaster := 0, errOff := 0, errAddr := 0 }
      ∧ hdrsBut [p] d t)
    ∧ (off = 0x030 → pageSecureOnly k = false → (hdrOf d p).lock = false → (hdrOf d p).softRst = false →
      Completes (.registerWrite a p off 4 val) s [.hdr] fun t =>
        hdrOf t p = { hdrOf d p with nsRead := bit val 1, secure := bit val 0 } ∧ hdrsBut [p] d t)
    ∧ (k ∈ [PageKind.clk, .hold, .wear, .ks1, .ks2, .ks3, .host, .usb4] → 0x040 ≤ off → off % 4 = 0 →
      (∀ f, f ∈ fieldsAt k off → f.acc ≠ .ro → fieldCode (seenAs a) p val d f = 0) →
      Completes (.registerWrite a p off 4 val) s [.regs, .shadow] fun t =>
        (∀ f, f ∈ fieldsAt k off → (f.acc = .rw ∨ f.acc = .rwl) → (f.cls ≠ .J ∨ runs d p = false) →
          bits (regGet t p off) f.hi f.lo = bits val f.hi f.lo)
        ∧ (∀ f, f ∈ fieldsAt k off → f.acc = .ro → bits (regGet t p off) f.hi f.lo = bits (regGet d p off) f.hi f.lo)
        ∧ regsBut [(p, off)] d t)
    ∧ (∀ size, ¬(size = 4 ∧ off % 4 = 0) → ¬(size = 8 ∧ off % 8 = 0) → (hdrOf d p).cfgErr = false →
      Completes (.registerWrite a p off size val) s [.hdr, .host] fun t =>
        (hdrOf t p).cfgErr = true ∧ (hdrOf t p).errCode = errACCESS ∧ (hdrOf t p).errOff = off ∧ (hdrOf t p).errMore = 0
        ∧ hdrsBut [p] d t)

/-- CMD_ENABLE, HT_ENABLE, MPE_ENABLE, INST_ENABLE, SOFT_RESET and SOFT_RESET_COMPLETE.

Where the spec leaves a point open, a clause states the model's choice of log entries 17, 18, 19 and 173, which is no rule of the spec.

Exec answers a next state, as the clauses say, for softReset, softResetComplete, cmdEnable, mpeEnable, htEnable, instEnable. -/
def Obligations.PageControlCommands : Prop :=
  ∀ (s : State) (d : Dev) (a : Access), Begins s d → AwakeFor d a →
    (∀ c, c ∈ [(Instr.cmdEnable a, pgCMD, PageKind.cmd), (.htEnable a, pgHT, .ht0)] →
      (admitWrite (seenAs a) c.2.1 0x00C d).1 = some c.2.2 → (hdrOf d c.2.1).softRst = false → Completes c.1 s [.hdr] fun t =>
        hdrOf t c.2.1 = { hdrOf d c.2.1 with enable := true, drain := false } ∧ hdrsBut [c.2.1] d t)
    ∧ (∀ q b, (admitWrite (seenAs a) pgMPE 0x00C d).1 = some .mpe0 → (hdrOf d pgMPE).softRst = false → (hdrOf d pgMPE).enable = false →
      d.mpe.halting = false → (List.range 4).find? (fun q => (quarterOf d q).pwr = .on) = some q → RandomAt d q 64 →
      b = (drbgOf d q).buf.take 64 → Completes (.mpeEnable a) s [.hdr, .mpe, .ent] fun t =>
        t.mpe = { mpeReset with kMem := some (b.take 32), kMac := some (b.drop 32), cur := 1 }
        ∧ hdrOf t pgMPE = { hdrOf d pgMPE with enable := true, drain := false } ∧ hdrsBut [pgMPE] d t
        ∧ drbgOf t q = { drbgOf d q with buf := (drbgOf d q).buf.drop 64 } ∧ (∀ m, m ≠ q → drbgOf t m = drbgOf d m))
    ∧ (∀ i v, i < 1024 → (admitWrite (seenAs a) (instPage i) 0x00C d).1 = some .inst → (hdrOf d (instPage i)).softRst = false →
      (hdrOf d (instPage i)).enable = false → (instOf d i).run = .assigned → (instOf d i).verFixed = false →
      v = pypCommon (pypCap d) (regGet d (instPage i) Reg.INST_PYP_OFFER_V2.off) → v.1 ≠ 0 →
      Completes (.instEnable a i) s [.mgr, .regs, .hdr, .host] fun t =>
        instOf t i = { instOf d i with run := .active, verFixed := true } ∧ (∀ j, j ≠ i → instOf t j = instOf d j)
        ∧ verOf t i = v ∧ (hdrOf t (instPage i)).enable = true ∧ pagesBut [instPage i] d t)
    ∧ (∀ p k h, (admitWrite (seenAs a) p 0x00C d).1 = some k → h = hdrOf d p → h.softRst = false →
      (k ∈ [PageKind.tamp0, .tamp1, .tamp2, .tamp3, .vig] → Completes (.softReset a p) s [.hdr] fun t =>
        hdrOf t p = { softHdr false h with enable := h.enable, drain := false } ∧ hdrsBut [p] d t)
      ∧ (k ∈ [PageKind.sys, .clk, .hold, .wear, .host, .usb4] → d.tidy → d.sys.draining = none →
        Completes (.softReset a p) s [.hdr, .regs, .shadow, .harts] fun t =>
          hdrOf t p = softHdr true h ∧ hdrsBut [p] d t ∧ pagesBut [p] d t ∧ harkened d t
          ∧ (∀ off f, off < 0x1000 → off % 4 = 0 → f ∈ fieldsAt k off → f.acc ≠ .ro → (f.acc = .rwl → h.lock = false) →
              bits (regGet t p off) f.hi f.lo = bits (regReset (regKey p off)).toNat f.hi f.lo)
          ∧ (∀ off f, off < 0x1000 → off % 4 = 0 → f ∈ fieldsAt k off → (f.acc = .ro ∨ (f.acc = .rwl ∧ h.lock = true)) →
              bits (regGet t p off) f.hi f.lo = bits (regGet d p off) f.hi f.lo)))
    ∧ (∀ p h, h = hdrOf d p → h.softRst = true →
      (p = pgOFC → ∀ c, c < 2 → (cardOf d c).present = false ∧ (cardOf d c).run = .inactive) → Completes (.softResetComplete p) s [.hdr, .regs, .shadow] fun t =>
        hdrOf t p = { h with softRst := false } ∧ hdrsBut [p] d t ∧ pagesBut [p] d t)

/-! ## The interconnect, protected memory and debug (R246-R275, R368-R376, R421, R426) -/

/-- INTERCONNECT_TRANSACTION and DEBUG_ACCESS within one 4 KiB page, and DEBUG_HALT_REQUEST: the access table admits or refuses the
master, memory takes the data or gives it (R370, R373, R375).

Where the spec leaves a point open, a clause states the model's choice of log entries 31, 32, 33, 34, 36, 45, 46, 152, 153, 154, 198,
209, 210 and 211, which is no rule of the spec.

Exec answers a next state, as the clauses say, for interconnectTransaction, debugHaltRequest, debugAccess. -/
def Obligations.BusCommands : Prop :=
  ∀ (s : State) (d : Dev), Begins s d → dieOn d.sys.mode = true →
    (∀ b : Bus, BusPlain d b → b.addr % 4096 + b.len ≤ 4096 →
      (partCheck d (busWho d b) b.kind b.addr = .pass →
        (inPlain d b.addr ∨ zoneOf b.addr = .mramGen) → fenceWrites d b.addr = true →
        (b.kind = .write → b.data.length = b.len → Completes (.interconnectTransaction b) s [.mem] fun t =>
          memBytes t b.addr b.len = b.data ∧ bytesBut b.addr b.len d t ∧ t.bus = if busPosted b then none else some (.ok []))
        ∧ (b.kind ≠ .write → Completes (.interconnectTransaction b) s [] fun t => t.bus = some (.ok (memBytes d b.addr b.len))))
      ∧ (zoneOf b.addr = .nowhere → Completes (.interconnectTransaction b) s [] fun t =>
          t.bus = if busPosted b then none else some (.decodeError (if b.kind = .write then [] else zeros b.len)))
      ∧ (∀ r, partCheck d (busWho d b) b.kind b.addr = .refuse r → busPosted b = false → b.cls ≠ 5 →
        Completes (.interconnectTransaction b) s [.regs, .hdr] fun t =>
          (∃ x, x = (if b.kind = .write then [] else zeros b.len)
            ∧ t.bus = some (if b.cls = 2 then .ok x else .refused b.addr x))
          ∧ fld t pgHT Reg.HT_VIOL_CNT_COUNT = min (2 ^ 32 - 1) (fld d pgHT Reg.HT_VIOL_CNT_COUNT + 1)
          ∧ pagesBut [pgHT] d t ∧ hdrsBut [pgHT] d t)
      ∧ (zoneOf b.addr = .hostWin → partCheck d (busWho d b) b.kind b.addr = .pass →
        (b.kind ≠ .write → winOpen d = false → Completes (.interconnectTransaction b) s [] fun t => t.out = [] ∧ t.bus = some .hostError)
        ∧ (winOpen d = true →
        (∀ x, b.kind ≠ .write → b.hostData = some x → Completes (.interconnectTransaction b) s [] fun t =>
          t.out = hostReads d (winLink d) 0 (winAddr d b.addr) b.len ∧ t.bus = some (.ok ((x ++ zeros b.len).take b.len)))
        ∧ (b.kind ≠ .write → b.hostData = none → Completes (.interconnectTransaction b) s [] fun t =>
          t.out = hostReads d (winLink d) 0 (winAddr d b.addr) b.len ∧ t.bus = some .hostError)
        ∧ (b.kind = .write → b.data.length = b.len → stopped d.sys.mode = false → Completes (.interconnectTransaction b) s [] fun t =>
          t.out = hostWrites d (winLink d) 0 (winAddr d b.addr) b.data true ∧ t.bus = if busPosted b then none else some (.ok [])))))
    ∧ (∀ b : Bus, busPmp d b = true → masterOk b.cls b.idx = true → 0 < b.len → b.len ≤ 64 →
      Completes (.interconnectTransaction b) s [] fun t => t.bus = some (.refused b.addr (if b.kind = .write then [] else zeros b.len)))
    ∧ (∀ b : Bus, b.cls = 2 → BusCarried d b → Awake d (some b.idx) → b.badCode = none → busBell d b = none →
      (b.kind = .write ∨ zoneOf b.addr ≠ .hostWin) → hostUr d (busAccess d b ((b.addr - 0x1000_0000) / 0x1000)).via = true →
      Completes (.interconnectTransaction b) s [] fun t => t.bus = if b.kind = .write then none else some .unsupported)
    ∧ (∀ (b : Bus) e, b.cls ≠ 2 → BusCarried d b → b.badCode = some e → d.sys.mode ≠ .drowse → respIn d.sys.mode (respEff d 13) ≤ 1 →
      busMismatch (busWord d b) (if b.kind = .write then b.data else zeros b.len) e = true →
      (b.cls = 3 → b.kind = .write ∨ b.idx = 28 ∨ ((unitOf d b.idx).cur = none ∧ (unitOf d b.idx).job = none)) →
      Completes (.interconnectTransaction b) s ([.tamp, .lant, .sys, .dma, .shadow] ++ evParts) fun t =>
        t.bus = (if busPosted b then none else some .integrity)
        ∧ t.sys = (if b.cls = 5 then { d.sys with dbgSbError := 7 } else d.sys)
        ∧ (if b.cls = 1 ∧ (dmaOf d b.idx).busy = true then
            dmaOf t b.idx = dmaReset b.idx ∧ fld t (pgDMA b.idx) Reg.DMA_STAT_ERR = 4 ∧ ∀ c, c ≠ b.idx → dmaOf t c = dmaOf d c
          else t.dma = d.dma ∧ t.shadow = d.shadow)
        ∧ fld t pgHT Reg.HT_BUSINT_CNT_COUNT = min 65535 (fld d pgHT Reg.HT_BUSINT_CNT_COUNT + 1)
        ∧ fld t pgHT Reg.HT_BUSINT_LOC_CLASS = (busWho d b).cls % 8 ∧ fld t pgHT Reg.HT_BUSINT_LOC_AT_TARGET = b2n e.target)
    ∧ (∀ w addr size val, size ∈ [1, 2, 4, 8] → addr % size = 0 → bit (dbgEnables d) (if (whoDebug d).sec then 3 else 1) = true →
      (zoneOf addr = .commons → partCheck d (whoDebug d) (if w then .write else .read) addr = .pass →
        Completes (.debugAccess w addr size val) s [.sys, .mem] fun t =>
          t.sys = { d.sys with dbgAttached := true } ∧ memBytes t addr size = (if w then leBytes size val else memBytes d addr size)
          ∧ bytesBut addr size d t ∧ t.bus = some (.ok (if w then [] else memBytes d addr size)))
      ∧ (zoneOf addr = .dram ∨ (∃ r, partCheck d (whoDebug d) (if w then .write else .read) addr = .refuse r) →
        Completes (.debugAccess w addr size val) s (.sys :: evParts) fun t =>
          t.sys = { d.sys with dbgAttached := true, dbgSbError := 7 }
          ∧ t.bus = some (.refused addr (if w then [] else List.replicate size 0xFF))))
    ∧ (∀ w addr size val, bit (dbgEnables d) (if (whoDebug d).sec then 3 else 1) = false →
      Completes (.debugAccess w addr size val) s [] fun t => t.bus = none)
    ∧ (∀ h, h < 16 → dbgEnables d ≠ 0 →
      (((hartOf d h).run ≠ .running ∨ bit (dbgEnables d) (if (hartOf d h).world then 3 else 1) = false) →
        Completes (.debugHaltRequest h) s [.sys] fun t =>
          t.sys = { d.sys with dbgHaltReq := setBit d.sys.dbgHaltReq h true, dbgAttached := true })
      ∧ ((hartOf d h).run = .running → bit (dbgEnables d) (if (hartOf d h).world then 3 else 1) = true →
        Completes (.debugHaltRequest h) s [.sys] fun t =>
          bit t.sys.dbgHaltReq h = false ∧ bit t.sys.dbgHalted h = true ∧ t.sys.dbgAttached = true
          ∧ { t.sys with dbgHaltReq := d.sys.dbgHaltReq, dbgHalted := d.sys.dbgHalted, dbgAttached := d.sys.dbgAttached } = d.sys))

/-- PROTECTED_WRITE, PROTECTED_READ, WRITE_BUFFER_DRAIN, EPOCH_CLOSE, LINE_VERIFICATION_DONE, PATROL_SCRUB and CE_HOUR_END: one line
whose L0 counter line is in the cache.

Where the spec leaves a point open, a clause states the model's choice of log entries 39, 40, 41, 42, 43, 44, 199, 200, 201, 202 and
203, which is no rule of the spec.

Exec answers a next state, as the clauses say, for protectedRead, protectedWrite, writeBufferDrain, epochClose, patrolScrub,
lineVerificationDone, ceHourEnd. -/
def Obligations.ProtectedMemoryCommands : Prop :=
  ∀ (s : State) (d : Dev), Begins s d → mpeServes d = true → dieOn d.sys.mode = true →
    (∀ (b : Bus) (c : CcLine) (maj min : Nat), BusPlain d b → zoneOf b.addr = .dram → b.addr % 64 = 0 → b.len = 64 →
      partCheck d (busWho d b) b.kind b.addr = .pass → smapGet noneAt d.mpe.wbuf (b.addr / 64) = none →
      ccOf d (treeAddr 0 ((b.addr - dramBase) / 4096)) = some c → maj = c.line.major → min = minorOf c.line (bits b.addr 11 6) →
      LineSound d b.addr →
      (b.kind = .write → b.data.length = 64 → d.mpe.wbuf.length < 4096 → b.cls = 3 ∨ b.cls = 4 → ∀ e,
        Completes (.protectedWrite b (some e)) s [.mpe] fun t =>
          t.mpe = { d.mpe with wbuf := smapSet noneAt d.mpe.wbuf (b.addr / 64) (some ⟨b.data, e⟩) }
          ∧ t.bus = if busPosted b then none else some (.ok []))
      ∧ (∀ e c1, b.kind = .write → b.data.length = 64 → min < 126 → e = ctrHold d.mpe.cur ((b.addr - dramBase) / 4096) d →
        e.mpe.failing = none → ccOf e (treeAddr 0 ((b.addr - dramBase) / 4096)) = some c1 → c1.line = c.line →
        Completes (.protectedWrite b none) s [.mpe, .regs, .hdr] fun t =>
          (∃ x, x = lineCrypt (kMemOf d) maj (min + 1) b.addr b.data
            ∧ dramOf t b.addr = some ⟨x, lineMac (kMacOf d) maj (min + 1) b.addr x⟩)
          ∧ (∃ c2, ccOf t (treeAddr 0 ((b.addr - dramBase) / 4096)) = some c2 ∧ c2.line.major = maj ∧ c2.dirty = true
            ∧ ∀ k, minorOf c2.line k = if k = bits b.addr 11 6 then min + 1 else minorOf c.line k)
          ∧ (∀ x, x ≠ b.addr / 64 → smapGet noneAt t.mpe.dram x = smapGet noneAt e.mpe.dram x)
          ∧ (∀ p : Part, p ≠ .mpe → p.same e t) ∧ pagesBut [pgMPE, pgMPE1] d t)
      ∧ (b.kind = .read → b.cls = 0 → maj = 0 → min = 0 → Completes (.protectedRead b sound) s [.mpe, .regs] fun t =>
          t.bus = some (.ok (zeros 64)) ∧ t.mpe.dram = d.mpe.dram ∧ pagesBut [pgMPE] d t)
      ∧ (∀ x, b.kind = .read → b.cls = 0 → (maj, min) ≠ (0, 0) → dramOf d b.addr = some ⟨x, lineMac (kMacOf d) maj min b.addr x⟩ →
        Completes (.protectedRead b sound) s [.mpe, .regs] fun t =>
          t.bus = some (.ok (fitTo 64 (lineCrypt (kMemOf d) maj min b.addr x))) ∧ t.mpe.dram = d.mpe.dram ∧ pagesBut [pgMPE] d t)
      ∧ (∀ dmg : LineDamage, b.kind = .read → b.cls = 0 → (maj, min) ≠ (0, 0) → dmg.line = none → dmg.level = 0 → 2 ≤ dmg.symbols →
        dmg.ccBits = 0 → (dramOf d b.addr).isSome = true → stopped d.sys.mode = false → Completes (.protectedRead b dmg) s (except []) fun t =>
          t.sys.mode = .halted ∧ t.mpe.kMem = none ∧ t.mpe.kMac = none ∧ t.mpe.halting = true))
    ∧ ((∀ kv w, kv ∈ d.mpe.wbuf → kv.2 = some w → epochPassed d w.epoch = false) → Completes .writeBufferDrain s [] fun _ => True)
    ∧ (∀ n w e c, d.mpe.wbuf = [(n, some w)] → epochPassed d w.epoch = true → zoneOf (n * 64) = .dram → w.data.length = 64 →
      e = ctrHold d.mpe.cur ((n * 64 - dramBase) / 4096) { d with mpe := { d.mpe with wbuf := [] } } → e.mpe.failing = none →
      ccOf e (treeAddr 0 ((n * 64 - dramBase) / 4096)) = some c → minorOf c.line (bits (n * 64) 11 6) < 126 →
      Completes .writeBufferDrain s [.mpe, .regs, .hdr] fun t =>
        t.mpe.wbuf = [] ∧ (∀ p : Part, p ≠ .mpe → p.same e t) ∧ pagesBut [pgMPE, pgMPE1] d t ∧ ∃ x v, v = minorOf c.line (bits (n * 64) 11 6) + 1 ∧ x = lineCrypt (kMemOf d) c.line.major v (n * 64) w.data
          ∧ dramOf t (n * 64) = some ⟨x, lineMac (kMacOf d) c.line.major v (n * 64) x⟩)
    ∧ (∀ e, e = t1Pass d → e.mpe.failing = none → d.sys.mode ≠ .drowse →
      ((e.mpe.cur + 1 + 65536 - e.mpe.ver) % 65536 < 4096 → e.mpe.reads = [] → e.mpe.cur < 65536 →
        Completes .epochClose s (except []) fun t =>
          t.mpe = { e.mpe with cur := (e.mpe.cur + 1) % 65536, ver := e.mpe.cur, stalled := false } ∧ pagesBut [pgMPE] e t
          ∧ ∀ p : Part, p ∉ [Part.mpe, .regs, .shadow] → p.same e t)
      ∧ (4096 ≤ (e.mpe.cur + 1 + 65536 - e.mpe.ver) % 65536 → Completes .epochClose s (except []) fun t =>
          t.mpe = { e.mpe with stalled := true } ∧ eventAt pgMPE 3 e t ∧ pagesBut [pgMPE] e t
          ∧ ∀ p : Part, p ∉ [Part.mpe, .regs, .hdr] → p.same e t)
      ∧ (d.sys.mode ≠ .holdup → fld d pgMPE Reg.MPE_CFG_SCRUB_H ≠ 0 → ∀ n c x, scrubNext e = some n → zoneOf (n * 64) = .dram →
        ccOf e (treeAddr 0 ((n * 64 - dramBase) / 4096)) = some c → (c.line.major, minorOf c.line (bits (n * 64) 11 6)) ≠ (0, 0) →
        LineSound e (n * 64) → x = lineMac (kMacOf e) c.line.major (minorOf c.line (bits (n * 64) 11 6)) (n * 64) →
        (∃ y, dramOf e (n * 64) = some ⟨y, x y⟩) → Completes (.patrolScrub sound) s (except []) fun t =>
          t.mpe.scrub = n + 1 ∧ t.mpe.dram = e.mpe.dram ∧ t.mpe.failing = none ∧ pagesBut [pgMPE] e t
          ∧ ∀ p : Part, p ∉ [Part.mpe, .regs] → p.same e t))
    ∧ (∀ n r, d.mpe.reads[n]? = some r →
      (r.fail = none → Completes (.lineVerificationDone n) s [.mpe, .regs] fun t =>
          t.mpe.reads = d.mpe.reads.eraseIdx n ∧ t.mpe.cur = d.mpe.cur ∧ pagesBut [pgMPE] d t)
      ∧ (∀ f, r.fail = some f → stopped d.sys.mode = false → Completes (.lineVerificationDone n) s (except []) fun t =>
          t.sys.mode = .halted ∧ t.mpe.kMem = none ∧ t.mpe.kMac = none ∧ t.mpe.reads = []))
    ∧ Completes .ceHourEnd s [.mpe] fun t => t.mpe = { d.mpe with ceHour := [], ceRaised := 0 }

/-! ## The entropy sources and the generators (R226-R245) -/

/-- WELL_START, STARTUP_TEST_DONE, CONTINUOUS_TEST_FAIL, SOURCE_RETEST, RETURN_TO_PRIMARY, CONDITIONED_BLOCK and HW_RANDOM_READ on the
Well of one quarter, and DRBG_RESEED and DRBG_GENERATE on its generator.

Where the spec leaves a point open, a clause states the model's choice of log entries 94, 167 and 208, which is no rule of the spec.

Exec answers a next state, as the clauses say, for wellStart, startupTestDone, continuousTestFail, sourceRetest, returnToPrimary,
conditionedBlock, drbgReseed, drbgGenerate, hwRandomRead. -/
def Obligations.WellCommands : Prop :=
  ∀ (s : State) (d : Dev) (q : Nat) (w : Well) (g : Drbg), Begins s d → q < 4 → w = wellOf d q → g = drbgOf d q →
    ((quarterOf d q).pwr = .on → w.run = .off → drbgOpen d.sys.mode = true → (hdrOf d (pgENT q)).pwrNow = 0 →
      (w.pri.run ≠ .failed ∨ w.alt.run ≠ .failed → Completes (.wellStart q true) s [.ent] fun t =>
        (∃ w2, wellOf t q = w2 ∧ w2.run = .startup ∧ w2.feed = none ∧ w2.pool = [] ∧ w2.stalls = w.stalls
          ∧ (w.pri.run ≠ .failed → w2.pri = { w.pri with run := .testing } ∧ (w.alt.run ≠ .failed → w2.alt = { w.alt with run := .idle }))
          ∧ (w.pri.run = .failed → w2.pri = w.pri ∧ w2.alt = { w.alt with run := .testing }))
        ∧ (∀ m, m ≠ q → wellOf t m = wellOf d m) ∧ t.ent.drbgs = d.ent.drbgs)
      ∧ (w.pri.run = .failed → w.alt.run = .failed → Completes (.wellStart q true) s (.ent :: evParts) fun t =>
        (wellOf t q).run = .entFail ∧ (wellOf t q).stalls = [] ∧ (∀ m, m ≠ q → wellOf t m = wellOf d m))
      ∧ Completes (.wellStart q false) s (.ent :: evParts) fun t =>
        (wellOf t q).run = .entFail ∧ (wellOf t q).pri.run = .failed ∧ (wellOf t q).alt.run = .failed ∧ (wellOf t q).stalls = []
        ∧ (∀ m, m ≠ q → wellOf t m = wellOf d m))
    ∧ (∀ alt x b d1 n h, w.subst = false → (noiseOf w alt).run = .testing ∨ (noiseOf w alt).run = .retest →
      someSamples startupSamples x d = (b, d1) →
      healthRun alt b healthReset = (n, h) →
      (n = [] → w.feed = none → w.run ≠ .entFail → Completes (.startupTestDone q alt x) s [.ent, .fresh] fun t =>
        wellOf t q = (if alt then { w with alt := { w.alt with run := .running, health := h }, feed := some true }
          else { w with pri := { w.pri with run := .running, health := h }, feed := some false }) ∧ (∀ m, m ≠ q → wellOf t m = wellOf d m))
      ∧ (n = [] → w.feed = none → w.run = .entFail → Completes (.startupTestDone q alt x) s [.ent, .fresh, .hdr] fun t =>
        (wellOf t q).run = .switching ∧ (wellOf t q).feed = some alt ∧ eventAt (pgENT q) 2 d t)
      ∧ (n ≠ [] → (noiseOf w alt).run = .retest → Completes (.startupTestDone q alt x) s ([.ent, .fresh] ++ evParts) fun t =>
        (noiseOf (wellOf t q) alt).fails = (noiseOf w alt).fails + 1
        ∧ ((noiseOf (wellOf t q) alt).run = if fld d (pgENT q) Reg.ENT_CFG_FAIL_LIMIT ≤ (noiseOf w alt).fails + 1 then .failed else .waiting)
        ∧ (wellOf t q).run = w.run ∧ (wellOf t q).feed = w.feed)
      ∧ (n ≠ [] → alt = false → w.run = .startup → w.pri.run = .testing → w.alt.run = .idle →
        Completes (.startupTestDone q alt x) s ([.ent, .fresh] ++ evParts) fun t =>
          (wellOf t q).run = .switching ∧ (wellOf t q).pri.run = .waiting ∧ (wellOf t q).alt.run = .testing ∧ (wellOf t q).pool = []
          ∧ (drbgOf t q).need = true ∧ (drbgOf t q).buf = [] ∧ t.ent.fails = min (2 ^ 32 - 1) (d.ent.fails + n.length)))
    ∧ (∀ x n h, w.subst = false → w.pri.run = .running → healthRun false x w.pri.health = (n, h) →
      (n = [] → Completes (.continuousTestFail q false x) s [.ent] fun t =>
        wellOf t q = { w with pri := { w.pri with health := h } } ∧ (∀ m, m ≠ q → wellOf t m = wellOf d m))
      ∧ (n ≠ [] → w.run ≠ .diag → w.feed = some false → w.alt.run = .idle →
        Completes (.continuousTestFail q false x) s (.ent :: evParts) fun t =>
        (wellOf t q).run = .switching ∧ (wellOf t q).feed = none ∧ (wellOf t q).pool = [] ∧ (wellOf t q).alt.run = .testing
        ∧ ((wellOf t q).pri.run = if fld d (pgENT q) Reg.ENT_CFG_FAIL_LIMIT ≤ w.pri.fails + 1 then .failed else .waiting)
        ∧ (drbgOf t q).need = true ∧ (drbgOf t q).buf = []))
    ∧ (∀ alt, (noiseOf w alt).run = .waiting → w.run = .primary ∨ w.run = .alternate ∨ w.run = .entFail →
      Completes (.sourceRetest q alt) s [.ent, .now] fun t =>
        wellOf t q = (if alt then { w with alt := { w.alt with run := .retest } } else { w with pri := { w.pri with run := .retest } })
        ∧ t.now = max d.now (noiseOf w alt).retestAt)
    ∧ (w.goBack = true → w.feed = some true → w.pri.run = .running → w.run = .alternate →
      Completes (.returnToPrimary q) s [.ent] fun t =>
        wellOf t q = { w with feed := some false, goBack := false, run := .primary, alt := { w.alt with run := .idle } }
        ∧ (∀ m, m ≠ q → wellOf t m = wellOf d m) ∧ t.ent.drbgs = d.ent.drbgs)
    ∧ (∀ alt x b d1 n h, w.feed = some alt → w.run ≠ .diag → w.subst = false → w.pool.length + 2 ≤ 16 →
      someSamples (if alt then 54 else 80) x d = (b, d1) → healthRun alt b (noiseOf w alt).health = (n, h) →
      (n = [] → Completes (.conditionedBlock q x) s [.ent, .fresh, .regs, .shadow] fun t =>
        wellOf t q = (if alt then { w with alt := { w.alt with health := h }, pool := w.pool ++ [(sha256 b).take 16, (sha256 b).drop 16] }
          else { w with pri := { w.pri with health := h }, pool := w.pool ++ [(sha256 b).take 16, (sha256 b).drop 16] })
        ∧ (∀ m, m ≠ q → wellOf t m = wellOf d m) ∧ t.ent.drbgs = d.ent.drbgs ∧ pagesBut [pgENT q] d t)
      ∧ (n ≠ [] → Completes (.conditionedBlock q x) s ([.ent, .fresh] ++ evParts) fun t => (wellOf t q).pool = [] ∧ (wellOf t q).feed ≠ some alt))
    ∧ (∀ u1 u2 u3 rest, g.src = some q → w.pool = u1 :: u2 :: u3 :: rest → drbgDue g = true → drbgOpen d.sys.mode = true →
      Completes (.drbgReseed q) s [.ent, .regs] fun t =>
        drbgOf t q = (if g.made then drbgFeed (u1 ++ u2 ++ u3) g
          else drbgMake (u1 ++ u2 ++ u3) (ascii "ADK-DRBG" ++ leBytes 1 q ++ leBytes 8 d.nv.bootCnt) g)
        ∧ (wellOf t q).pool = rest ∧ pagesBut [pgENT q] d t)
    ∧ (drbgOpen d.sys.mode = true → drbgDue g = false → g.src = some q → (quarterOf d q).pwr = .on → g.buf.length ≤ 12288 →
      w.stalls = [] → Completes (.drbgGenerate q) s [.ent] fun t =>
        drbgOf t q = { (drbgCall 4096 g).2 with buf := g.buf ++ (drbgCall 4096 g).1 })
    ∧ (∀ n, n ≠ 0 → (quarterOf d q).pwr = .on →
      (RandomAt d q n → Completes (.hwRandomRead q n) s [.ent] fun t => gaveUp q n d t ∧ t.ent.masks = d.ent.masks)
      ∧ (w.run = .entFail → Completes (.hwRandomRead q n) s [.regs] fun t =>
        fld t (pgENT q) Reg.ENT_STALL_ERR_READS = min 65535 (fld d (pgENT q) Reg.ENT_STALL_ERR_READS + 1)
        ∧ regsBut [(pgENT q, 0x054)] d t)
      ∧ (w.run ≠ .entFail → drbgOpen d.sys.mode = true → w.stalls = [] → w.grants = [] → g.buf.length < n → g.src = some q → drbgDue g = true →
        w.pool = [] → Completes (.hwRandomRead q n) s [.ent] fun t =>
          wellOf t q = { w with stalls := [⟨.other, n, d.now, false, false, g.buf⟩] } ∧ drbgOf t q = { g with buf := [] }))

/-- DRBG_SW_DATA_READ and ENT_EMPTY_CLEAR at the software port, and RAW_CAPTURE, CAP_DONE and PATTERN_SUBSTITUTION at a Well.

Where the spec leaves a point open, a clause states the model's choice of log entries 95 and 96, which is no rule of the spec.

Exec answers a next state, as the clauses say, for drbgSwDataRead, entEmptyClear, rawCapture, capDone, patternSubstitution. -/
def Obligations.EntropyRegisterCommands : Prop :=
  ∀ (s : State) (d : Dev) (a : Access), Begins s d → AwakeFor d a →
    (∀ n g, n = (if (seenAs a).sec then 4 else 5) → g = drbgOf d n → reach d a pgDRBG 0x044 = .page →
      readRefused d (seenAs a) .drbg pgDRBG = false →
      (∀ m, m = 4 ∨ m = 5 → (drbgOf d m).src = nextOn d (fld d pgDRBG Reg.DRBG_SW_CFG_SRC_Q)) →
      (4 ≤ g.buf.length → drbgOpen d.sys.mode = true → Completes (.drbgSwDataRead a) s [.ent] fun t =>
        t.bus = some (.ok (g.buf.take 4)) ∧ drbgOf t n = { g with buf := g.buf.drop 4 } ∧ (∀ m, m ≠ n → drbgOf t m = drbgOf d m)
        ∧ t.ent.words = d.ent.words.set (n - 4) ((d.ent.words.getD (n - 4) 0 + 1) % 2 ^ 32) ∧ t.ent.empty = d.ent.empty)
      ∧ (g.buf.length < 4 → Completes (.drbgSwDataRead a) s [.ent, .hdr] fun t =>
        t.bus = some (.ok (zeros 4)) ∧ t.ent = { d.ent with empty := d.ent.empty.set (n - 4) true } ∧ eventAt pgDRBG 0 d t))
    ∧ (reach d a pgDRBG 0x048 = .page → (hdrOf d pgDRBG).softRst = false → Completes (.entEmptyClear a) s [.ent] fun t =>
        t.ent = { d.ent with empty := d.ent.empty.set (if (seenAs a).sec then 0 else 1) false })
    ∧ (∀ q w p, q < 4 → w = wellOf d q → p = pgENT q →
      ((admitWrite (seenAs a) p 0x058 d).1 = some .ent → (hdrOf d p).softRst = false → w.subst = false →
        (d.sys.mode = .diagnostic → w.run ≠ .off → w.capturing = false → secureRange d (capBase d q) (capLen d q) = true →
          Completes (.rawCapture a q 0) s [.ent, .regs] fun t =>
            wellOf t q = { w with capture := some ⟨fldB t p Reg.ENT_DIAG_SRC, capBase d q, capLen d q⟩ } ∧ (∀ m, m ≠ q → wellOf t m = wellOf d m)
            ∧ fld t p Reg.ENT_CAP_DONE_DONE = 0 ∧ regsBut [(p, 0x058), (p, 0x068)] d t)
        ∧ (d.sys.mode ≠ .diagnostic → (hdrOf d p).cfgErr = false → Completes (.rawCapture a q 0) s [.regs, .hdr] fun t =>
            (hdrOf t p).cfgErr = true ∧ (hdrOf t p).errCode = 0x0100 ∧ hdrsBut [p] d t ∧ regsBut [(p, 0x058)] d t)
        ∧ (∀ v, d.sys.mode = .factoryTest → bit v 30 = true → fld d p Reg.ENT_PATTERN_PATTERN ≠ 0 →
          Completes (.patternSubstitution a q v) s [.ent, .regs] fun t =>
            wellOf t q = { w with subst := true, lfsr := fld d p Reg.ENT_PATTERN_PATTERN, patPos := 0 }
            ∧ (∀ m, m ≠ q → wellOf t m = wellOf d m) ∧ regsBut [(p, 0x058)] d t))
      ∧ (∀ x alt base h, h = (healthAll alt x (noiseOf w alt).health).2 →
        w.capture = some ⟨alt, base, x.length⟩ → 0 < x.length → base % 4096 + x.length ≤ 4096 →
        zoneOf base = .qsram q → (quarterOf d q).pwr = .on → partCheck d (whoDevice q true) .write base = .pass →
        Completes (.capDone q x) s [.ent, .mem, .regs, .hdr, .shadow] fun t =>
          wellOf t q = (if alt then { w with capture := none, alt := { w.alt with health := h } }
            else { w with capture := none, pri := { w.pri with health := h } }) ∧ (∀ m, m ≠ q → wellOf t m = wellOf d m)
          ∧ memBytes t base x.length = x ∧ bytesBut base x.length d t ∧ pagesBut [p] d t ∧ eventAt p 3 d t))

/-! ## The secure monitor (R334, R338-R348, R421-R425) -/

/-- STILE_IDENT, STILE_HAS, UNKNOWN_CALL, HART_WAKE, HART_RETIRE, HART_QUERY, WORLD_SWITCH, NS_ENTRY and SECURE_IRQ_SWITCH.

Where the spec leaves a point open, a clause states the model's choice of log entries 115, 116, 117 and 210, which is no rule of the
spec.

Exec answers a next state, as the clauses say, for stileIdent, stileHas, unknownCall, hartWake, hartRetire, hartQuery, modeRequest,
fwConfirm, worldSwitch, nsEntry, hostcfgSet, debugNonce, secureIrqSwitch. -/
def Obligations.HartCallCommands : Prop :=
  ∀ (s : State) (d : Dev) (h : Nat) (x : Hart), Begins s d → x = hartOf d h →
    (stileOpen d h = true →
      (Completes (.stileIdent h) s [.harts] fun t => returned h [0, 0x0100, 0x10000, 18] d t)
      ∧ (∀ fid ns, (fid, ns) ∈ stileTable → Completes (.stileHas h fid) s [.harts] fun t => returned h [0, if ns then 3 else 1] d t)
      ∧ (∀ fid, (∀ ns, (fid, ns) ∉ stileTable) →
          (Completes (.stileHas h fid) s [.harts] fun t => returned h [0, 0] d t)
          ∧ Completes (.unknownCall h fid) s [.harts] fun t => returned h [1] d t)
      ∧ (Completes (.hartQuery h) s [.harts] fun t => returned h [0, harts2 d] d t)
      ∧ (x.world = false → ∀ c, c ∈ [Instr.hartWake h 2 0 0 1, .hartRetire h 0, .modeRequest h 4, .fwConfirm h, .nsEntry h 1 0 0,
          .hostcfgSet h 0, .debugNonce h 0] → Completes c s [.harts] fun t => returned h [2] d t)
      ∧ (x.world = true →
        (∀ mask entry arg (sec : Bool), d.sys.hartState = true → 0 < mask → mask < 65536 →
          (∀ m, m < 16 → bit mask m = true → ((hartOf d m).run = .off ∨ (hartOf d m).run = .inReset) ∧ entryOk d m entry sec = true
            ∧ quarterServes d (m / 4) = true ∧ (quarterOf d (m / 4)).disabled = false) →
          Completes (.hartWake h mask entry arg (if sec then 1 else 0)) s [.harts, .sys, .regs, .shadow] fun t =>
            (∀ m, m < 16 → bit mask m = true → (hartOf t m).run = .running ∧ (hartOf t m).world = sec ∧ (hartOf t m).entry = entry
              ∧ (hartOf t m).args = [m, arg, hartsMask (maskHarts mask)])
            ∧ (hartOf t h).args = [0, hartsMask (maskHarts mask), 0] ∧ pagesBut [pgSYS] d t)
        ∧ (∀ mask entry arg (sec : Bool), 0 < mask → mask < 65536 →
          (∀ m, m < 16 → bit mask m = true → ((hartOf d m).run = .running ∨ (hartOf d m).run = .parked) ∧ entryOk d m entry sec = true
            ∧ quarterServes d (m / 4) = true ∧ (quarterOf d (m / 4)).disabled = false) →
          Completes (.hartWake h mask entry arg (if sec then 1 else 0)) s [.harts] fun t =>
            returned h [6, 0, hartsMask ((maskHarts mask).filter (fun m => (hartOf d m).run = .running))] d t)
        ∧ (∀ entry arg, Completes (.hartWake h (2 ^ h) entry arg 2) s [.harts] fun t => returned h [3] d t)
        ∧ (h ≠ 0 → Completes (.hartRetire h 0) s [.harts, .irq, .sys, .regs, .hdr, .shadow] fun t =>
            hartOf t h = { hartReset h with
              run := .inReset, secCtx := x.secCtx, nsCtx := x.nsCtx, monIrq := x.monIrq, pmp := x.pmp }
            ∧ (∀ m, m ≠ h → hartOf t m = hartOf d m))
        ∧ (h = 0 → ∀ a0, Completes (.hartRetire h a0) s [.harts] fun t => returned h [7] d t)
        ∧ (∀ mask entry arg, 0 < mask → mask < 65536 → (∀ m, m < 16 → bit mask m = true → entryOk d m entry false = true) →
          Completes (.nsEntry h mask entry arg) s [.harts] fun t =>
            (∀ m, m < 16 → bit mask m = true → (hartOf t m).nsCtx = some ⟨some entry, arg, []⟩)
            ∧ (∀ m, m < 16 → bit mask m = false → (hartOf t m).nsCtx = (hartOf d m).nsCtx) ∧ (hartOf t h).args = [0]))
      ∧ (∀ a1 a2 a3 ctx,
        (ctxOther d h = none → Completes (.worldSwitch h a1 a2 a3 ctx) s [.harts] fun t => returned h [7] d t)
        ∧ (∀ arg e saved, ctxOther d h = some ⟨some e, arg, saved⟩ → Completes (.worldSwitch h a1 a2 a3 ctx) s [.harts, .sys] fun t =>
            (hartOf t h).world = (!x.world) ∧ (hartOf t h).entry = e ∧ (hartOf t h).args = [h, arg, a2, a3]
            ∧ (if x.world then (hartOf t h).secCtx else (hartOf t h).nsCtx) = some ⟨none, 0, ctx⟩
            ∧ (if x.world then (hartOf t h).nsCtx else (hartOf t h).secCtx) = none ∧ (∀ m, m ≠ h → hartOf t m = hartOf d m))
        ∧ (∀ arg saved, ctxOther d h = some ⟨none, arg, saved⟩ → Completes (.worldSwitch h a1 a2 a3 ctx) s [.harts, .sys] fun t =>
            (hartOf t h).world = (!x.world) ∧ (hartOf t h).image = saved ∧ (hartOf t h).args = [0, a1, a2, a3]
            ∧ (if x.world then (hartOf t h).secCtx else (hartOf t h).nsCtx) = some ⟨none, 0, ctx⟩
            ∧ (∀ m, m ≠ h → hartOf t m = hartOf d m))))
    ∧ (∀ ctx c, hartRuns d h = true → x.priv ≠ .machine → x.world = false → bankLine d h true = true → d.sys.stage = .firmware → x.secCtx = some c →
      Completes (.secureIrqSwitch h ctx) s [.harts, .sys] fun t =>
        hartOf t h = { x with
          world := true, image := c.saved, args := [], secCtx := none, nsCtx := some ⟨none, 0, ctx⟩, sei := true, wfi := false
          priv := .supervisor }
        ∧ (∀ m, m ≠ h → hartOf t m = hartOf d m))

/-- MODE_REQUEST, DEVICE_RESTART, FW_INFO, FW_STAGE, FW_CONFIRM, FW_COMMIT_SVN, FW_KEY_ADD, FW_KEY_REVOKE, HOSTCFG_SET, DEBUG_NONCE and
DEBUG_CERT, called by secure firmware.

Where the spec leaves a point open, a clause states the model's choice of log entries 26, 118 and 119, which is no rule of the spec.

Exec answers a next state, as the clauses say, for modeRequest, deviceRestart, fwInfo, fwStage, fwConfirm, fwCommitSvn, fwKeyAdd,
fwKeyRevoke, hostcfgSet, debugNonce, debugCert. -/
def Obligations.FirmwareCallCommands : Prop :=
  ∀ (s : State) (d : Dev) (h : Nat), Begins s d → stileOpen d h = true → (hartOf d h).world = true →
    (d.sys.draining = none →
      (∀ code, (∀ m, m ∈ [Mode.service, .drowse, .diagnostic, .factoryTest] → modeOf code ≠ some m) →
        Completes (.modeRequest h code) s [.harts, .regs] fun t =>
          returned h [7] d t ∧ fld t pgSYS Reg.SYS_MODE_DENY = 1 ∧ regsBut [(pgSYS, Reg.SYS_MODE_DENY.off)] d t)
      ∧ (∀ code, code ∈ [5, 7] → d.sys.mode = .startup → Completes (.modeRequest h code) s [.harts, .regs] fun t =>
          returned h [7] d t ∧ fld t pgSYS Reg.SYS_MODE_DENY = 2)
      ∧ (bankReady d = true → d.sys.mode = .startup → fld d pgSYS Reg.SYS_BOOT_STAT_STEP = 14 →
        (∀ kv, kv ∈ d.mgr.insts → kv.2.run ≠ .resetting) →
        Completes (.modeRequest h 4) s (except [.fuse, .lant, .parts]) fun t => t.sys.mode = .service ∧ (hartOf t h).args = [0])
      ∧ (d.cmd.cmds = [] → d.sys.mode = .service →
        Completes (.modeRequest h 7) s (except [.fuse, .lant, .parts]) fun t =>
          t.sys.mode = .diagnostic ∧ t.sys.draining = none ∧ (hartOf t h).args = [0]
          ∧ (∀ q, q < 4 → (wellOf d q).run ≠ .off → (wellOf t q).run = .diag) ∧ (∀ n, n < 6 → (drbgOf t n).need = true)))
    ∧ (∀ a0 parts, a0 ≠ 0x52455354 → Completes (.deviceRestart h a0 parts) s [.harts] fun t => returned h [3] d t)
    ∧ (∀ parts, d.fuse.lc0 = 0 → d.fuse.lc1 = 0 → d.fuse.lc2 = 0 → d.nv.journal = none → d.lc.op = none →
      Completes (.deviceRestart h 0x52455354 parts) s (except [.lant]) fun t =>
        t.sys.mode = .romBoot ∧ t.sys.stage = .service ∧ t.sys.lc = .raw ∧ t.parts = parts ∧ t.cmd.cmds = [] ∧ t.key.resident = [])
    ∧ (Completes (.fwInfo h) s [.harts] fun t =>
        returned h [0, fld d pgSYS Reg.SYS_FW_SVN_RUN_SVN + d.fuse.minSvn * 2 ^ 8 + runSlot d * 2 ^ 16
          + fld d pgSYS Reg.SYS_BOOT_STAT_TRIAL * 2 ^ 17, d.sys.runVer, imgVer (slotOf d (1 - runSlot d))] d t)
    ∧ (∀ addr len b ok, stopped d.sys.mode = false → d.nv.actSlot < 2 → 4352 ≤ len → len ≤ 0x2002000 → monRange d h .read addr len = true → monRead h addr len d = (b, d) →
      Completes (.fwStage h addr len ok) s [.harts, .nv, .fresh] fun t =>
        (∀ f, imgFault d b = some f → returned h [if f = 6 then 10 else 9] d t ∧ t.nv = d.nv)
        ∧ (imgFault d b = none → sha384 (imgBody b) ≠ slice b 0x40 48 → returned h [9] d t ∧ t.nv = d.nv)
        ∧ (imgFault d b = none → sha384 (imgBody b) = slice b 0x40 48 →
            slotOf t d.nv.actSlot = slotOf d d.nv.actSlot
            ∧ (ok = true → returned h [0] d t ∧ slotOf t (1 - d.nv.actSlot) = b ∧ t.nv.actSlot = 1 - d.nv.actSlot ∧ t.nv.trial = true
              ∧ t.nv.trialUsed = false)
            ∧ (ok = false → returned h [8] d t ∧ t.nv.actSlot = d.nv.actSlot)))
    ∧ (onTrial d = true → stopped d.sys.mode = false → Completes (.fwConfirm h) s [.harts, .regs, .nv] fun t =>
        returned h [0] d t ∧ fld t pgSYS Reg.SYS_BOOT_STAT_TRIAL = 0
        ∧ t.nv = (if d.nv.actSlot = runSlot d then { d.nv with trial := false, trialUsed := false } else d.nv))
    ∧ (onTrial d = false →
      (Completes (.fwConfirm h) s [.harts] fun t => returned h [7] d t)
      ∧ (Completes (.fwCommitSvn h true) s [.harts, .fuse] fun t =>
          returned h [0] d t ∧ t.fuse = { d.fuse with minSvn := max d.fuse.minSvn (fld d pgSYS Reg.SYS_FW_SVN_RUN_SVN) })
      ∧ Completes (.fwCommitSvn h false) s [.harts] fun t => returned h [8] d t)
    ∧ (∀ addr b, monRange d h .read addr 48 = true → monRead h addr 48 d = (b, d) →
      (∀ n row, d.sys.runRow = some row → rowFree d = some n → d.fuse.owner.length = 4 →
        Completes (.fwKeyAdd h addr true) s [.harts, .fuse] fun t =>
          returned h [0, n] d t ∧ { t.fuse with owner := d.fuse.owner } = d.fuse
          ∧ t.fuse.owner[n]? = (d.fuse.owner[n]?).map (fun r => { r with digest := some b })
          ∧ (∀ m, m ≠ n → t.fuse.owner[m]? = d.fuse.owner[m]?))
      ∧ (d.sys.runRow = none → Completes (.fwKeyAdd h addr true) s [.harts] fun t => returned h [7] d t))
    ∧ (∀ row other r, row < 4 → other < 4 → other ≠ row → d.fuse.owner.length = 4 → d.sys.runRow ≠ some row →
      d.fuse.owner[other]? = some r → r.digest.isSome = true → r.revoked = false →
      Completes (.fwKeyRevoke h row) s [.harts, .fuse] fun t =>
        returned h [0] d t ∧ { t.fuse with owner := d.fuse.owner } = d.fuse
        ∧ t.fuse.owner[row]? = (d.fuse.owner[row]?).map (fun r => { r with revoked := true })
        ∧ (∀ m, m ≠ row → t.fuse.owner[m]? = d.fuse.owner[m]?))
    ∧ (stopped d.sys.mode = true → ∀ c, (∃ addr len ok, c = Instr.fwStage h addr len ok) ∨ c = .fwConfirm h ∨ (∃ addr, c = .hostcfgSet h addr) →
      Completes c s [.harts] fun t => returned h [7] d t)
    ∧ (∀ addr b, stopped d.sys.mode = false → monRange d h .read addr 32 = true → monRead h addr 32 d = (b, d) →
      Completes (.hostcfgSet h addr) s [.harts, .mem] fun t =>
        (hostcfgOk b = true → returned h [0] d t ∧ memBytes t hostcfgAt 32 = b ∧ bytesBut hostcfgAt 32 d t)
        ∧ (hostcfgOk b = false → returned h [3] d t ∧ t.mem = d.mem))
    ∧ (∀ addr, monRange d h .write addr 32 = true → inPlain d addr → addr % 4096 + 32 ≤ 4096 →
      partCheck d (whoMon h) .write addr = .pass → Completes (.debugNonce h addr) s [.harts, .sys, .mem, .fresh] fun t =>
        returned h [0] d t ∧ t.sys = { d.sys with dbgNonce := some (memBytes t addr 32) } ∧ bytesBut addr 32 d t)
    ∧ (∀ addr len b, stopped d.sys.mode = false → 0 < len → len < 2 ^ 32 → monRange d h .read addr len = true → certTicketed d.sys.lc = false →
      monRead h addr len { d with sys := { d.sys with dbgNonce := none } } = (b, { d with sys := { d.sys with dbgNonce := none } }) →
      Completes (.debugCert h addr len) s ([.harts, .sys] ++ evParts) fun t =>
        t.sys.dbgNonce = none
        ∧ (∀ e, (certCheck d.sys.dbgNonce b d).1 = .error e → returned h [11] d t ∧ t.nv.grant = d.nv.grant ∧ t.sys.dbgGranted = d.sys.dbgGranted)
        ∧ (∀ ids, (certCheck d.sys.dbgNonce b d).1 = .ok ids → returned h [0, b2n (bit (leAt b 5 1 % 16) 3)] d t
            ∧ t.nv.grant = some ⟨leAt b 5 1 % 16, leAt b 0x38 8, leAt b 0x40 8, sha384 (certKey b)⟩
            ∧ t.sys.dbgGranted = Nat.land d.sys.dbgGranted 8 + Nat.land (leAt b 5 1 % 16) 4))
    ∧ (∀ addr, Completes (.debugCert h addr 0) s [.harts, .sys] fun t => returned h [3] d t ∧ t.sys = { d.sys with dbgNonce := none })

/-! ## Faults and watchdogs (R349-R351, R472-R478) -/

/-- WATCHDOG_KICK, WATCHDOG_TRIP, DOUBLE_TRAP, FAULT_ARRIVAL and FAULT_HANDLING_DONE.

Where the spec leaves a point open, a clause states the model's choice of log entries 135 and 210, which is no rule of the spec.

Exec answers a next state, as the clauses say, for watchdogKick, watchdogTrip, doubleTrap, faultArrival, faultHandlingDone. -/
def Obligations.FaultCommands : Prop :=
  ∀ (s : State) (d : Dev), Begins s d →
    (∀ h, hartRuns d h = true → (hartOf d h).priv ≠ .user → Completes (.watchdogKick h) s [.harts, .regs, .shadow] fun t =>
        hartOf t h = { hartOf d h with wdStart := d.now } ∧ pagesBut [pgSYS] d t)
    ∧ (fltServes d = true →
      (∀ h, bankSources d h true = [] → bankSources d h false = [] →
        (h < 16 → (hartOf d h).run = .running → (quarterOf d (h / 4)).pwr = .on → wdtOn d (h / 4) = true → d.sys.mode ≠ .drowse →
          Completes (.watchdogTrip h) s [.harts, .now, .raised] fun t =>
            (∀ m, m ≠ h → hartOf t m = hartOf d m)
            ∧ hartOf t h = { hartOf d h with run := .parked, wfi := false } ∧ t.raised = d.raised ++ [⟨.core, 1, h⟩]
            ∧ t.now = max d.now ((hartOf d h).wdStart + fld d pgSYS Reg.SYS_WDT_CFG_TIMEOUT * 1000000))
        ∧ (hartRuns d h = true → (hartOf d h).nest = true → Completes (.doubleTrap h) s [.harts, .raised, .hdr, .regs] fun t =>
            hartOf t h = { hartOf d h with run := .parked, wfi := false } ∧ t.raised = d.raised ++ [⟨.core, 2, h⟩]
            ∧ eventAt pgSYS 0 d t
            ∧ (wdtOn d (h / 4) = true →
                fld t pgSYS Reg.SYS_FLT_CNT_MERGED = min 65535 (fld d pgSYS Reg.SYS_FLT_CNT_MERGED + 1))))
      ∧ (d.sys.mode ≠ .drowse → ∀ f g, d.raised = [f] → g = fixClass d f →
        (mergesWith g (fltAll d) = true → Completes .faultArrival s [.raised, .regs] fun t =>
            t.raised = [] ∧ fld t pgSYS Reg.SYS_FLT_CNT_MERGED = min 65535 (fld d pgSYS Reg.SYS_FLT_CNT_MERGED + 1))
        ∧ (mergesWith g (fltAll d) = false → fltFree d g.cls = true → g.cls = .core ∨ g.cls = .quarter →
          Completes .faultArrival s ([.flt, .raised] ++ evParts) fun t =>
            t.raised = [] ∧ t.flt = (if g.cls = .core then { d.flt with core := some g } else { d.flt with quarter := some g }))
        ∧ (mergesWith g (fltAll d) = false → fltFree d g.cls = false → d.flt.queue.length < 8 →
          Completes .faultArrival s [.flt, .raised, .regs] fun t =>
            t.raised = [] ∧ t.flt = { d.flt with queue := d.flt.queue ++ [g] }
            ∧ fld t pgSYS Reg.SYS_FLT_CNT_QUEUED = min 65535 (fld d pgSYS Reg.SYS_FLT_CNT_QUEUED + 1))
        ∧ (mergesWith g (fltAll d) = false → fltFree d g.cls = false → 8 ≤ d.flt.queue.length →
          Completes .faultArrival s (except []) fun t => t.sys.mode = .halted ∧ t.flt.escalated = true ∧ t.flt.queue = [] ∧ t.mpe.kMem = none))
      ∧ (d.sys.mode ≠ .drowse → d.flt.rst = none → d.flt.halt = none → d.flt.queue = [] →
        (∀ f, d.flt.core = some f → d.flt.quarter = none → f.subj < 16 → (quarterOf d (f.subj / 4)).disabled = false →
          Completes (.faultHandlingDone 1) s [.flt, .harts, .irq, .sys, .hearth, .regs, .hdr, .shadow] fun t =>
            t.flt = { d.flt with core := none } ∧ (hartOf t f.subj).run = .inReset ∧ (hartOf t f.subj).image = []
            ∧ (quarterOf t (f.subj / 4)).resets = min 3 ((quarterOf d (f.subj / 4)).resets + 1)
            ∧ (∀ h, h ≠ f.subj → hartOf t h = hartOf d h))
        ∧ (∀ f, d.flt.quarter = some f → f.subj < 4 → Completes (.faultHandlingDone 2) s (except [.fuse, .lant, .parts, .sup]) fun t =>
            t.flt.quarter = none ∧ (quarterOf t f.subj).disabled = true ∧ (quarterOf t f.subj).pwr = .off)))
    ∧ (fltServes d = false → Completes .faultArrival s [.raised] fun t => t.raised = [])

/-! ## Interrupts, pins and DMA (R353-R367, R377-R387) -/

/-- IRQC_CLAIM, IRQC_COMPLETE, IRQC_SWI_SET, MONITOR_SOURCE, GPIO_INPUT_EDGE, GPIO_WRITE and GPIO_WORLD_WRITE.

Where the spec leaves a point open, a clause states the model's choice of log entries 22 and 120, which is no rule of the spec.

Exec answers a next state, as the clauses say, for irqcClaim, irqcComplete, irqcSwiSet, gpioInputEdge, monitorSource, gpioWrite,
gpioWorldWrite. -/
def Obligations.InterruptAndPinCommands : Prop :=
  ∀ (s : State) (d : Dev) (a : Access) (sec : Bool), Begins s d → AwakeFor d a → sec = (seenAs a).sec →
    (∀ core p, core < 16 → p = pgIRQC core →
      (reach d a p 0x048 = .page → readRefused d (seenAs a) .irqc p = false →
        (∀ n, irqOn d = true → claimPick d core sec = some n → Completes (.irqcClaim a core) s [.irq, .harts] fun t =>
            t.bus = some (.ok (leBytes 4 n)) ∧ srcOwner t n = some ⟨core, sec⟩ ∧ (∀ m, m ≠ n → srcOwner t m = srcOwner d m)
            ∧ smapGet falseAt t.irq.edge n = false ∧ (hartOf t core).sei = false)
        ∧ (irqOn d = false ∨ claimPick d core sec = none → Completes (.irqcClaim a core) s [.regs] fun t =>
            t.bus = some (.ok (leBytes 4 0x3FF))
            ∧ fld t (bankKey core sec) Reg.IRQC_BAD_CNT_SPURIOUS = min 65535 (fld d (bankKey core sec) Reg.IRQC_BAD_CNT_SPURIOUS + 1)))
      ∧ (∀ n, n < 512 → (admitWrite (seenAs a) p 0x04C d).1 = some .irqc → fieldCode (seenAs a) p n d Reg.IRQC_COMPLETE_ID = 0 →
        (srcOwner d n = some ⟨core, sec⟩ → Completes (.irqcComplete a core n) s [.irq, .harts, .regs, .shadow] fun t =>
            srcOwner t n = none ∧ (∀ m, m ≠ n → srcOwner t m = srcOwner d m) ∧ t.irq.edge = d.irq.edge)
        ∧ (srcOwner d n ≠ some ⟨core, sec⟩ → Completes (.irqcComplete a core n) s [.harts, .regs] fun t =>
            fld t (bankKey core sec) Reg.IRQC_BAD_CNT_BAD_COMPLETE
              = min 65535 (fld d (bankKey core sec) Reg.IRQC_BAD_CNT_BAD_COMPLETE + 1))))
    ∧ (∀ n, 448 ≤ n → n ≤ 511 → (admitWrite (seenAs a) pgSRC2 0x0C0 d).1 = some .irqs1 →
      fieldCode (seenAs a) pgSRC2 n d Reg.IRQC_SWI_SET_ID = 0 → (srcWorld d n = false ∨ sec = true) →
      Completes (.irqcSwiSet a n) s [.irq, .harts] fun t =>
        smapGet falseAt t.irq.edge n = true ∧ (∀ m, m ≠ n → smapGet falseAt t.irq.edge m = smapGet falseAt d.irq.edge m)
        ∧ t.irq.active = d.irq.active)
    ∧ (dieOn d.sys.mode = true →
      (∀ n, allSources.contains n = true → bit (srcCfg d n) 13 = true → srcPending d n = true →
        Completes (.monitorSource n) s [.harts] fun t =>
          ∀ h, h < 16 → hartOf t h = monTrap (d.sys.stage = .firmware) (monLine d h) (hartOf d h))
      ∧ (∀ levels, Completes (.gpioInputEdge levels) s [.gpio, .irq, .harts] fun t =>
          t.gpio = ⟨levels % 256⟩
          ∧ (∀ n, n < 8 → smapGet falseAt t.irq.edge (384 + n)
              = (smapGet falseAt d.irq.edge (384 + n) || (srcEdge d (384 + n) && !(pinLine d n) && pinLine t n)))
          ∧ t.irq.active = d.irq.active))
    ∧ (∀ v mine, v < 256 → mine = (if sec then fld d pgGPIO Reg.GPIO_WORLD_WORLD else 255 - fld d pgGPIO Reg.GPIO_WORLD_WORLD) →
      (hdrOf d pgGPIO).softRst = false → stopped d.sys.mode = false →
      (∀ c, c ∈ [(0x044, Reg.GPIO_DIR_OE), (0x048, Reg.GPIO_OUT_OUT), (0x058, Reg.GPIO_INV_INV)] →
        (admitWrite (seenAs a) pgGPIO c.1 d).1 = some .gpio → Nat.land (Nat.xor (fld d pgGPIO c.2) v) (255 - mine) = 0 →
        Completes (.gpioWrite a c.1 v) s [.regs, .irq, .harts] fun t =>
          fld t pgGPIO c.2 = v ∧ regsBut [(pgGPIO, c.1)] d t ∧ (t.out = [] ↔ pinsOut t = pinsOut d)
          ∧ (t.out = [] ∨ t.out = [.gpio (pinsOut t).1 (pinsOut t).2]))
      ∧ (∀ c, c ∈ [(0x04C, Nat.lor (fld d pgGPIO Reg.GPIO_OUT_OUT) v),
          (0x050, fld d pgGPIO Reg.GPIO_OUT_OUT - Nat.land (fld d pgGPIO Reg.GPIO_OUT_OUT) v)] →
        (admitWrite (seenAs a) pgGPIO c.1 d).1 = some .gpio → Nat.land v (255 - mine) = 0 →
        Completes (.gpioWrite a c.1 v) s [.regs, .irq, .harts] fun t =>
          fld t pgGPIO Reg.GPIO_OUT_OUT = c.2 ∧ regsBut [(pgGPIO, 0x048)] d t)
      ∧ ((admitWrite (seenAs a) pgGPIO 0x040 d).1 = some .gpio → fieldCode (seenAs a) pgGPIO v d Reg.GPIO_WORLD_WORLD = 0 →
        Completes (.gpioWorldWrite a v) s [.regs, .harts] fun t =>
          fld t pgGPIO Reg.GPIO_WORLD_WORLD = v ∧ regsBut [(pgGPIO, 0x040)] d t))

/-- DMA_START of one element within plain memory, DMA_ABORT and DMA_READBACK_DONE.

Where the spec leaves a point open, a clause states the model's choice of log entries 27, 28, 29 and 198, which is no rule of the spec.

Exec answers a next state, as the clauses say, for dmaStart, dmaAbort, dmaReadbackDone. -/
def Obligations.DmaCommands : Prop :=
  ∀ (s : State) (d : Dev) (a : Access) (ch p e src dst : Nat), Begins s d → AwakeFor d a → ch < 32 → p = pgDMA ch → e = dmaElem d p → src = dmaFrom d p 0 →
    dst = dmaTo d p 0 →
    ((admitWrite (seenAs a) p 0x040 d).1 = some .dma →
      (∀ f, f ∈ [Reg.DMA_CTL_START, Reg.DMA_CTL_ABORT, Reg.DMA_CTL_REPEAT] → fieldCode (seenAs a) p 0 d f = 0) →
      (d.sys.mode ≠ .drowse → d.sys.mode ≠ .holdup → stopped d.sys.mode = false → (dmaOf d ch).busy = false → (hdrOf d p).enable = true →
        (hdrOf d p).drain = false → dmaShapeOk d p = true → (quarterOf d (ch / 8)).pwr = .on → dmaCount d p = 1 →
        fld d p Reg.DMA_CFG_RESHAPE = 0 → inPlain d src → inPlain d dst → inPlain d (dmaLast d p) →
        partCheck d (whoDma d ch) .read src = .pass → partCheck d (whoDma d ch) .write dst = .pass →
        partCheck d (whoDma d ch) .readBack (dmaLast d p) = .pass →
        Completes (.dmaStart a ch 0 [] none) s [.dma, .mem, .regs, .shadow] fun t =>
          memBytes t dst e = memBytes d src e ∧ bytesBut dst e d t ∧ dmaOf t ch = ⟨true, true, (seenAs a).sec⟩
          ∧ (∀ c, c ≠ ch → dmaOf t c = dmaOf d c) ∧ fld t p Reg.DMA_PROGRESS_BYTES = e ∧ fld t p Reg.DMA_STAT_ERR = 0
          ∧ pagesBut [p] d t)
      ∧ ((dmaOf d ch).busy = true → Completes (.dmaAbort a ch 0) s [.dma, .regs, .hdr, .shadow] fun t =>
          dmaOf t ch = dmaReset ch ∧ (∀ c, c ≠ ch → dmaOf t c = dmaOf d c) ∧ pagesBut [p] d t ∧ eventAt p 1 d t
          ∧ ((∀ kv, kv ∈ d.shadow → keyOnPage p kv.1 = false) → fld t p Reg.DMA_STAT_ERR = 6)))
    ∧ ((dmaOf d ch).busy = true → (dmaOf d ch).readback = true → inPlain d (dmaLast d p) →
      fld d p Reg.DMA_STAT_REMAIN = 0 → Completes (.dmaReadbackDone ch [] none) s [.dma, .regs, .hdr, .shadow] fun t =>
        dmaOf t ch = dmaReset ch ∧ (∀ c, c ≠ ch → dmaOf t c = dmaOf d c) ∧ pagesBut [p] d t ∧ eventAt p 0 d t ∧ t.mem = d.mem)

/-! ## Instances and migration (R276-R302) -/

/-- ASSIGN, SET_QUOTA, QUIESCE, RESUME, FREEZE, THAW, RESET, REMOVE, DISCARD, QUIESCE_DRAINED and FREEZE_DONE, and the mailboxes:
MGR_MB_SEND, MGR_MB_EMPTY, INST_MB_SEND, INST_MB_EMPTY and MGR_EVENT_READ.

Where the spec leaves a point open, a clause states the model's choice of log entries 58, 59, 98, 99, 176 and 207, which is no rule of
the spec.

Exec answers a next state, as the clauses say, for assign, setQuota, quiesce, quiesceDrained, resume, freeze, freezeDone, thaw, reset,
remove, discard, mgrMbSend, mgrMbEmpty, instMbSend, instMbEmpty, mgrEventRead. -/
def Obligations.InstanceCommands : Prop :=
  ∀ (s : State) (d : Dev) (a : Access) (i : Nat) (x : Inst), Begins s d → AwakeFor d a → i < 1024 → x = instOf d i →
    (ManagerReady d a → ∀ sel, sel = i * 65536 →
      (∀ param, 1 ≤ bits param 26 0 → bits param 26 0 ≤ 0x4000000 → bit param 27 = false → param < 2 ^ 32 →
        (x.run = .unused → Completes (.assign a sel param) s ([.cmd, .shadow] ++ mgrParts) fun t =>
            instIs i ⟨.assigned, false, bits param 26 0, bits param 31 28 + 1, false, false, 0xFF, false, false, false, x.keeps, x.endDue⟩ d t
            ∧ managerSays 0 0 t ∧ pagesBut [pgMGR, instPage i] d t
            ∧ (d.mgr.events.length < 255 → t.mgr.events = d.mgr.events ++ [⟨1, i, 1⟩, ⟨5, i, 1⟩]))
        ∧ (x.run ≠ .unused → x.run ≠ .resetting → Completes (.setQuota a sel param) s mgrParts fun t =>
            instIs i { x with records := bits param 26 0, sqLimit := bits param 31 28 + 1 } d t ∧ managerSays 0 0 t
            ∧ pagesBut [pgMGR] d t)
        ∧ (x.run ≠ .unused → Completes (.assign a sel param) s mgrParts fun t => t.mgr.insts = d.mgr.insts ∧ managerSays 1 0 t))
      ∧ (fld d pgMGR Reg.MGR_PARAM_PARAM = 0 →
        (x.run = .assigned → Completes (.quiesce a sel) s mgrParts fun t =>
          instIs i { x with run := .quiesced, wasAssigned := true } d t ∧ managerSays 0 0 t ∧ pagesBut [pgMGR] d t)
        ∧ (x.run = .active → Completes (.quiesce a sel) s mgrParts fun t =>
          instIs i { x with run := .quiescing, wasAssigned := false } d t ∧ managerSays 0 0 t ∧ pagesBut [pgMGR] d t)
        ∧ (x.run = .quiescing ∨ x.run = .quiesced → Completes (.resume a sel) s mgrParts fun t =>
          instIs i { x with run := if x.wasAssigned then .assigned else .active } d t ∧ managerSays 0 0 t ∧ pagesBut [pgMGR] d t)
        ∧ (x.run = .quiesced → Completes (.freeze a sel) s [.mgr, .regs] fun t =>
          instIs i { x with freezing := true } d t ∧ t.mgr.busy = some (5, i) ∧ regsBut [(pgMGR, 0x040)] d t)
        ∧ (x.run = .frozen → x.exported = false → d.key.repairDue = [] →
          (x.endDue = [] → Completes (.thaw a sel) s mgrParts fun t =>
            instIs i { x with run := .quiesced } d t ∧ managerSays 0 0 t ∧ pagesBut [pgMGR] d t)
          ∧ (Completes (.thaw a sel) s (except []) fun t =>
            instIs i { x with run := .quiesced, endDue := [] } d t ∧ managerSays 0 0 t
            ∧ ∀ n y, keyAt d n = some y → hInst y.handle = i →
                (keyAt t n).map (·.grants) = some (y.grants.filter (fun g => !(x.endDue.contains g.inst)))))
        ∧ (restoring d = false → instKeys d i = [] → (∀ nk, nk ∈ keysOf d → ∀ g, g ∈ nk.2.grants → g.inst ≠ i) →
          (x.run = .quiesced → Completes (.reset a sel) s ([.cmd, .shadow] ++ mgrParts) fun t =>
            instIs i { x with
              run := .assigned, custody := 0xFF, wasAssigned := false, inFull := false, outFull := false, verFixed := false
              keeps := false } d t
            ∧ managerSays 0 0 t ∧ pagesBut [pgMGR, instPage i] d t)
          ∧ (x.run = .quiesced → Completes (.remove a sel) s ([.cmd, .shadow] ++ mgrParts) fun t =>
            instIs i { x with
              run := .unused, records := 0, sqLimit := 0, exported := false, custody := 0xFF, wasAssigned := false, inFull := false
              outFull := false, verFixed := false, keeps := false } d t
            ∧ managerSays 0 0 t ∧ pagesBut [pgMGR, instPage i] d t)
          ∧ (x.run = .frozen → x.exported = true → Completes (.discard a sel) s mgrParts fun t =>
            instIs i { x with run := .quiesced, exported := false, endDue := [] } d t ∧ managerSays 0 0 t ∧ pagesBut [pgMGR] d t))))
    ∧ (x.run = .quiescing →
      (instBusy d i = false → Completes (.quiesceDrained i) s [.mgr, .hdr, .host] fun t => instIs i { x with run := .quiesced } d t)
      ∧ (instBusy d i = true → Completes (.quiesceDrained i) s [] fun _ => True))
    ∧ (d.mgr.busy = some (5, i) → x.freezing = true → x.run = .quiesced →
      ((∀ nk, nk ∈ instKeys d i → flightOf d nk.1 = 0) → Completes (.freezeDone i) s mgrParts fun t =>
          instIs i { x with run := .frozen, freezing := false } d t ∧ managerSays 0 0 t ∧ pagesBut [pgMGR] d t)
      ∧ ((∃ nk, nk ∈ instKeys d i ∧ flightOf d nk.1 ≠ 0) → Completes (.freezeDone i) s [] fun _ => True))
    ∧ ((admitWrite (seenAs a) pgMGR 0x078 d).1 = some .mgr → (hdrOf d pgMGR).softRst = false → mgrSel d = i → x.run ≠ .unused →
      x.run ≠ .resetting →
      (x.inFull = false → Completes (.mgrMbSend a 0) s [.mgr, .hdr, .host] fun t =>
          instIs i { x with inFull := true } d t ∧ eventAt (instPage i) 1 d t)
      ∧ (x.outFull = true → Completes (.mgrMbEmpty a 0) s [.mgr, .hdr, .host] fun t =>
          instIs i { x with outFull := false } d t ∧ eventAt (instPage i) 2 d t))
    ∧ ((admitWrite (seenAs a) (instPage i) 0x04C d).1 = some .inst → (hdrOf d (instPage i)).softRst = false →
      (x.outFull = false → Completes (.instMbSend a i 0) s [.mgr, .hdr, .host] fun t =>
          instIs i { x with outFull := true } d t
          ∧ (d.mgr.events.length < 256 → t.mgr.events = d.mgr.events ++ [⟨2, i, instCode x.run⟩]))
      ∧ (x.inFull = true → Completes (.instMbEmpty a i 0) s [.mgr, .hdr, .host] fun t =>
          instIs i { x with inFull := false } d t
          ∧ (d.mgr.events.length < 256 → t.mgr.events = d.mgr.events ++ [⟨3, i, instCode x.run⟩])))
    ∧ (reach d a pgMGR 0x068 = .page → readRefused d (seenAs a) .mgr pgMGR = false →
      (∀ e rest, d.mgr.events = e :: rest → Completes (.mgrEventRead a) s [.mgr] fun t =>
          t.bus = some (.ok (leBytes 4 (2 ^ 31 + b2n d.mgr.lost * 2 ^ 30 + e.inst * 2 ^ 16 + e.state * 2 ^ 8 + e.kind)))
          ∧ t.mgr = { d.mgr with events := rest, lost := false })
      ∧ (d.mgr.events = [] → Completes (.mgrEventRead a) s [] fun t => t.bus = some (.ok (zeros 4))))

/-- XPORT_OFFER, XPORT_ACCEPT, XPORT_COMPLETE, XPORT_CLOSE, XPORT_SESSION_EXPIRE, and MGR_EXPORT and MGR_IMPORT of an instance without
keys (R290-R298).

Where the spec leaves a point open, a clause states the model's choice of log entries 101, 102 and 206, which is no rule of the spec.

Exec answers a next state, as the clauses say, for xportOffer, xportAccept, xportComplete, mgrExport, mgrImport, xportClose,
xportSessionExpire. -/
def Obligations.MigrationCommands : Prop :=
  ∀ (s : State) (d : Dev) (a : Access), Begins s d →
    (∀ id x, xportOf d id = some x → Completes (.xportSessionExpire id) s [.mgr, .now] fun t =>
        t.mgr = { d.mgr with xports := d.mgr.xports.filter (fun y => y.id ≠ id) } ∧ t.now = max d.now (x.openAt + 600000000000))
    ∧ (ManagerReady d a → d.sys.lc = .deployed →
      (∀ id, id < 2 ^ 32 → (xportOf d id).isSome = true → Completes (.xportClose a id) s mgrParts fun t =>
          managerSays 0 0 t ∧ t.mgr.xports = d.mgr.xports.filter (fun y => y.id ≠ id) ∧ t.mgr.insts = d.mgr.insts)
      ∧ (∀ id, id < 2 ^ 32 → xportOf d id = none → Completes (.xportClose a id) s mgrParts fun t =>
          managerSays 8 0 t ∧ t.mgr.xports = d.mgr.xports ∧ t.mgr.insts = d.mgr.insts)
      ∧ (4 ≤ d.mgr.xports.length → Completes (.xportOffer a 0 0) s mgrParts fun t =>
          managerSays 8 0 t ∧ t.mgr.xports = d.mgr.xports)
      ∧ (∀ q r out, q = homelessQuarter d → r = (drbgOf d q).buf.take 144 → d.mgr.xports.length < 4 → mgrHostOk d = true →
        1928 ≤ fld d pgMGR Reg.MGR_OUT_LEN_LEN → RandomAt d q 144 → d.mgr.nextXport < 2 ^ 32 →
        out = mgrAddr d Reg.MGR_OUT_ADDR_LO_ADDR_LO Reg.MGR_OUT_ADDR_HI_ADDR_HI →
        Completes (.xportOffer a 0 0) s (.ent :: mgrParts) fun t =>
          managerSays 0 d.mgr.nextXport t ∧ t.mgr.nextXport = d.mgr.nextXport + 1 ∧ t.mgr.insts = d.mgr.insts
          ∧ drbgOf t q = { drbgOf d q with buf := (drbgOf d q).buf.drop 144 }
          ∧ ∃ b k, t.mgr.xports = d.mgr.xports ++ [⟨d.mgr.nextXport, false, d.now, d.mgr.nextXport, b, some (r.take 64, k), none⟩]
            ∧ b.take 12 = ascii "ADKO" ++ [0x01, 0x04, if d.sys.taint then 0x01 else 0x00] ++ zeros 5
            ∧ ∃ pre post, t.out = pre ++ (hostWrites d (mgrLink d) 0 out b true ++ post))
      ∧ (∀ q r b x n, q = homelessQuarter d → r = (drbgOf d q).buf.take 112 → d.mgr.xports.length < 4 → mgrHostOk d = true →
        1976 ≤ fld d pgMGR Reg.MGR_OUT_LEN_LEN → RandomAt d q 112 → d.mgr.nextXport < 2 ^ 32 → n = fld d pgMGR Reg.MGR_IN_LEN_LEN →
        1928 ≤ n → b = fitTo n x → Completes (.xportAccept a 0 0 (some x)) s (.ent :: mgrParts) fun t =>
          (∀ e, attest d 1928 b = some e →
            holds t pgMGR [(Reg.MGR_RESULT_CODE, e.1), (Reg.MGR_RESULT_INFO, e.2)] ∧ t.mgr.xports = d.mgr.xports)
          ∧ (∀ o, attest d 1928 b = none → blobFault "ADKO" b = some o →
            holds t pgMGR [(Reg.MGR_RESULT_CODE, 2), (Reg.MGR_RESULT_INFO, o)] ∧ t.mgr.xports = d.mgr.xports)
          ∧ (∀ kem ct y, blobFault "ADKO" b = none → attest d 1928 b = none → kemEkOk 0x0303 (slice b 0xA0 1568) = true →
            (ecDecode p384 (slice b 0x6C0 97)).isSome = true → (kem, ct) = kemEncap 0x0303 (slice b 0xA0 1568) (r.take 32) →
            y = ((xportEcdh (1 + beNat (slice r 32 48) % (p384.n - 1)) (slice b 0x6C0 97)).getD []) →
            managerSays 0 d.mgr.nextXport t
            ∧ t.mgr.xports = d.mgr.xports ++ [⟨d.mgr.nextXport, true, d.now, leAt b 0x0C 4, b.take 1928, none,
                some (xportKey kem y (slice b 0x20 32) (slice r 80 32) d.fuse.serial (slice b 0x10 16))⟩]))
      ∧ (∀ id b n z, id < 2 ^ 32 → n = fld d pgMGR Reg.MGR_IN_LEN_LEN →
        1976 ≤ n → mgrHostOk d = true → b = fitTo n z → Completes (.xportComplete a 0 id (some z)) s mgrParts fun t =>
          (∀ e, attest d 1976 b = some e →
            holds t pgMGR [(Reg.MGR_RESULT_CODE, e.1), (Reg.MGR_RESULT_INFO, e.2)] ∧ t.mgr.xports = d.mgr.xports)
          ∧ (attest d 1976 b = none → (xportOf d id).bind (·.secrets) = none → managerSays 8 0 t ∧ t.mgr.xports = d.mgr.xports)
          ∧ (∀ x dz k y, xportOf d id = some x → x.secrets = some (dz, k) → attest d 1976 b = none → leAt b 0x0C 4 = x.id →
            slice b 0x728 48 = sha384 x.offer → blobFault "ADKA" b = none → xportEcdh k (slice b 0x6C0 97) = some y → managerSays 0 0 t
            ∧ t.mgr.xports = d.mgr.xports.map (fun u => if u.id = x.id then { u with
                secrets := none
                key := some (xportKey (kemDecap 0x0303 dz (slice b 0xA0 1568)) y (slice x.offer 0x20 32) (slice b 0x20 32)
                  (slice b 0x10 16) d.fuse.serial) } else u)))
      ∧ (∀ i id x y q len, i < 1024 → id < 2 ^ 32 → xportOf d id = some x → x.source = true → x.key.isSome = true → y = instOf d i →
        y.run = .frozen → y.exported = false → restoring d = false → instKeys d i = [] → q = homelessQuarter d → RandomAt d q 12 →
        len = 80 + (foldBody d 1 i []).1.length → len ≤ fld d pgMGR Reg.MGR_OUT_LEN_LEN → mgrHostOk d = true → len < 2 ^ 32 →
        Completes (.mgrExport a (i * 65536 + 256) id none) s (.ent :: mgrParts) fun t =>
          managerSays 0 len t ∧ instIs i { y with exported := true } d t
          ∧ t.mgr.xports = d.mgr.xports.filter (fun u => u.id ≠ x.id)
          ∧ ∃ iv c tag pre post, t.out = pre ++ (hostWrites d (mgrLink d) 0
              (mgrAddr d Reg.MGR_OUT_ADDR_LO_ADDR_LO Reg.MGR_OUT_ADDR_HI_ADDR_HI) (iv ++ c ++ tag) true ++ post) ∧ iv.take 4 = ascii "ADKF")
      ∧ (∀ i id x y b n z, i < 1024 → id < 2 ^ 32 → xportOf d id = some x → x.source = false → x.key.isSome = true →
        y = instOf d i → y.run = .unused → restoring d = false → n = fld d pgMGR Reg.MGR_IN_LEN_LEN → n ≠ 0 → mgrHostOk d = true →
        b = fitTo n z →
        (∀ code o, imageOpen x b = .error (code, o) → Completes (.mgrImport a (i * 65536) id (some z)) s mgrParts fun t =>
          fld t pgMGR Reg.MGR_RESULT_CODE = code ∧ fld t pgMGR Reg.MGR_RESULT_INFO = o % 65536
          ∧ t.mgr.xports = (if code = mgAUTH then d.mgr.xports.filter (fun u => u.id ≠ x.id) else d.mgr.xports)
          ∧ t.mgr.insts = d.mgr.insts)
        ∧ (∀ c, imageOpen x b = .ok (1, [(1, c), (0xFF, [])]) →
          Completes (.mgrImport a (i * 65536) id (some z)) s ([.cmd, .shadow, .fresh] ++ mgrParts) fun t =>
            managerSays 0 0 t
            ∧ instOf t i = { y with
                run := .quiesced, records := leAt c 0 4, sqLimit := leAt c 4 1, exported := false, wasAssigned := false
                freezing := false, custody := 0xFF, inFull := false, outFull := false, verFixed := false, keeps := false }
            ∧ (∀ j, j ≠ i → instOf t j = instOf d j) ∧ t.mgr.xports = d.mgr.xports.filter (fun u => u.id ≠ x.id))))

/-! ## The officer block (R303-R325) -/

/-- ENROL, REVOKE, SET_CLASS, SET_INST_CLASS, UNLOCK, CER_ENTER, CEREMONY_ENTERED, CER_EXIT, CER_TIMEOUT, CHALLENGE, PIN,
CHALLENGE_EXPIRE and LOCKOUT_EXPIRE.

Where the spec leaves a point open, a clause states the model's choice of log entries 103, 105, 176, 193, 194, 195 and 196, which is no
rule of the spec.

Exec answers a next state, as the clauses say, for enrol, revoke, setClass, setInstClass, unlock, cerEnter, ceremonyEntered, cerExit,
cerTimeout, challenge, pin, challengeExpire, lockoutExpire. -/
def Obligations.OfficerCommands : Prop :=
  ∀ (s : State) (d : Dev) (a : Access), Begins s d →
    (CardsInStep d → ∀ b t ids d2, (OfficerBegins d a 1 b t → Authorised d 1 b t ids d2 → ∀ slot n q nonce, slot = leAt b 0 1 → n = leAt b 1 1 →
        cardUsable d slot = true → (officerOf d2 n).run = .empty → q = homelessQuarter d → RandomAt d q 32 →
        nonce = (drbgOf d q).buf.take 32 → Completes (.enrol a 0) s [.ofc, .ent] fun u =>
          u.ofc.op = some (.enrol slot n (slice b 8 16)
            (chalBytes 0 0xFFFF d.ofc.nextChal nonce d.fuse.serial 0x2001 0 (sha384 b)
              (stamp d + ((qclassOf d2 0).map (·.lifetime)).getD 0 * 32768) d.nv.bootCnt) 0 [] ids.head?)
          ∧ u.ofc.nextChal = d.ofc.nextChal + 1
          ∧ cardBegun slot [0x80, 0xA0] .enrolId d u ∧ drbgOf u q = { drbgOf d q with buf := (drbgOf d q).buf.drop 32 }
          ∧ u.ofc.officers = d2.ofc.officers ∧ u.ofc.classes = d2.ofc.classes)
      ∧ (OfficerBegins d a 2 b t → Authorised d 2 b t ids d2 → ∀ n, n = leAt b 0 1 → (officerOf d2 n).run ≠ .empty →
        revokeBar d2 n = none → Completes (.revoke a 0) s ofcParts fun u =>
          officerSays 0 0 u ∧ officerOf u n = { officerOf d2 n with run := .revoked } ∧ (∀ m, m ≠ n → officerOf u m = officerOf d2 m)
          ∧ u.ofc.classes = d2.ofc.classes ∧ pagesBut [pgOFC] d u ∧ (∀ id, id ∈ ids → chalHeld u id = none)
          ∧ (∀ c, c ∈ chalsOut u → c.cls < 32 → ∀ g, qclassOf d2 c.cls = some g → bit g.members n = false))
      ∧ (OfficerBegins d a 3 b t → Authorised d 3 b t ids d2 → ∀ c, c = leAt b 0 1 →
        (leAt b 1 1 ≠ 0 → leAt b 1 1 ≤ popCount 64 (leAt b 8 8) →
          (∀ n, n < 64 → bit (leAt b 8 8) n = true → (officerOf d2 n).run = .active ∨ (officerOf d2 n).run = .locked) →
          Completes (.setClass a 0) s ofcParts fun u =>
            officerSays 0 0 u ∧ qclassOf u c = some ⟨leAt b 8 8, leAt b 1 1, leAt b 4 4⟩
            ∧ (∀ e, e ≠ c → qclassOf u e = qclassOf d2 e) ∧ u.ofc.officers = d2.ofc.officers ∧ (∀ x, x ∈ chalsOut u → x.cls ≠ c))
        ∧ (leAt b 1 1 = 0 → c ≠ 0 → Completes (.setClass a 0) s ofcParts fun u =>
            officerSays 0 0 u ∧ qclassOf u c = none ∧ (∀ e, e ≠ c → qclassOf u e = qclassOf d2 e) ∧ (∀ x, x ∈ chalsOut u → x.cls ≠ c)))
      ∧ (OfficerBegins d a 4 b t → Authorised d 4 b t ids d2 → ∀ i, i = leAt b 0 2 →
        Completes (.setInstClass a 0) s (.mgr :: ofcParts) fun u =>
          officerSays 0 0 u ∧ instIs i { instOf d i with custody := leAt b 2 1 } d u ∧ { u.mgr with insts := d.mgr.insts } = d.mgr)
      ∧ (OfficerBegins d a 5 b t → Authorised d 5 b t ids d2 → ∀ n, n = leAt b 0 1 →
        (officerOf d2 n).run = .locked ∨ (officerOf d2 n).run = .active → Completes (.unlock a 0) s ofcParts fun u =>
          officerSays 0 0 u ∧ (officerOf u n).run = .active ∧ (officerOf u n).lockouts = 0
          ∧ ((officerOf d2 n).run = .locked → (officerOf u n).fails = 0) ∧ (∀ m, m ≠ n → officerOf u m = officerOf d2 m))
      ∧ (OfficerBegins d a 6 b t → Authorised d 6 b t ids d2 → d.sys.mode = .service → d.sys.draining = none →
        d.sys.lc = .provision ∨ d.sys.lc = .deployed → Completes (.cerEnter a 0) s [.ofc, .sys] fun u =>
          u.ofc.op = some (.cerEnter ids.head?) ∧ u.sys = { d.sys with draining := some ⟨.ceremony, none, d.cmd.cmds.map (·.tag)⟩ })
      ∧ (OfficerBegins d a 7 b t → d.sys.mode = .ceremony → d.mgr.busy = none → Completes (.cerExit a 0) s ([.sys, .shadow] ++ evParts) fun u =>
          officerSays 0 0 u ∧ u.sys.mode = .service ∧ u.sys.prev = .ceremony ∧ u.ofc.cerAt = none)
      ∧ (OfficerBegins d a 8 b t → ∀ c q nonce at' na bs, c = leAt b 0 1 → classUsable d c = true → slice b 10 6 = zeros 6 →
        q = homelessQuarter d → RandomAt d q 32 → nonce = (drbgOf d q).buf.take 32 → (chalsOut d).length < 16 →
        at' = fldPair d pgOFC Reg.OFC_ARG_LO_ADDR_LO Reg.OFC_ARG_HI_ADDR_HI + 0x48 → at' % 4096 + 144 ≤ 4096 →
        (∃ k, zoneOf at' = .qsram k ∧ (quarterOf d k).pwr = .on) → partCheck d (whoDevice 5 true) .write at' = .pass →
        na = stamp d + ((qclassOf d c).map (·.lifetime)).getD 0 * 32768 →
        bs = chalBytes c 0xFFFF d.ofc.nextChal nonce d.fuse.serial (leAt b 8 2) (leAt b 0x10 8) (slice b 0x18 48) na d.nv.bootCnt →
        Completes (.challenge a 0) s ([.ent, .mem] ++ ofcParts) fun u =>
          officerSays 0 0 u
          ∧ u.ofc.chals = d.ofc.chals ++ [⟨d.ofc.nextChal, c, 0xFFFF, decide (leAt b 1 1 = 1), na, bs, [], false, false⟩]
          ∧ u.ofc.nextChal = d.ofc.nextChal + 1 ∧ memBytes u at' 144 = bs ∧ bytesBut at' 144 d u)
      ∧ (OfficerBegins d a 9 b t → ∀ slot x y, slot = leAt b 0 1 → cardUsable d slot = true →
        y = fldPair d pgOFC Reg.OFC_ARG_LO_ADDR_LO Reg.OFC_ARG_HI_ADDR_HI + 8 → secureRange d y (leAt b 1 1) = true →
        ofcRead 3 y (leAt b 1 1) d = (.ok x, d) → Completes (.pin a 0) s [.ofc] fun u =>
          u.ofc.op = some (.pin slot x) ∧ cardBegun slot ([0x00, 0x20] ++ x) .pin d u ∧ u.ofc.officers = d.ofc.officers))
    ∧ (∀ k, d.ofc.op = some (.cerEnter k) → CardsInStep d → d.sys.mode = .service → drainBusy d = false → d.mgr.busy = none →
      (∀ kv, kv ∈ d.shadow → keyOnPage pgOFC kv.1 = false) → Completes .ceremonyEntered s ([.sys, .shadow] ++ evParts) fun u =>
        officerSays 0 0 u ∧ u.sys.mode = .ceremony ∧ u.sys.draining = none ∧ u.ofc.cerAt = some d.now)
    ∧ (∀ k, d.ofc.op = some (.cerEnter k) → drainBusy d = true → Completes .ceremonyEntered s [] fun _ => True)
    ∧ (∀ t, d.ofc.cerAt = some t → d.sys.mode = .ceremony → fld d pgOFC Reg.OFC_CFG_CER_TIMEOUT ≠ 0 → d.mgr.busy = none →
      Completes .cerTimeout s ([.sys, .now] ++ evParts) fun u =>
        u.sys.mode = .service ∧ u.ofc.cerAt = none
        ∧ u.now = max d.now (t + fld d pgOFC Reg.OFC_CFG_CER_TIMEOUT * 60000000000))
    ∧ (∀ id c, chalOf d id = some c → Completes (.challengeExpire id) s [.ofc, .now] fun u =>
        u.now = max d.now (timeOfStamp d c.notAfter)
        ∧ u.ofc = { d.ofc with
            chals := (d.ofc.chals.filter (fun x => x.held || !(x.id = id))).map (fun x => if x.id = id then { x with ended := true } else x) })
    ∧ (∀ n, n < 64 → (officerOf d n).run = .locked → Completes (.lockoutExpire n) s [.ofc, .now] fun u =>
        officerOf u n = { officerOf d n with run := .active, fails := 0 } ∧ (∀ m, m ≠ n → officerOf u m = officerOf d m)
        ∧ u.now = max d.now (timeOfStamp d (officerOf d n).lockEnd))

/-- CARD_INSERT, CARD_REMOVE, CARD_FAULT, ATR_TIMEOUT and CARD_RESPONSE.

Where the spec leaves a point open, a clause states the model's choice of log entries 104, 193 and 194, which is no rule of the spec.

Exec answers a next state, as the clauses say, for enrol, pin, cardInsert, cardRemove, cardFault, cardResponse, atrTimeout. -/
def Obligations.CardCommands : Prop :=
  ∀ (s : State) (d : Dev) (slot : Nat) (c off : CardIf), Begins s d → slot < 2 → c = cardOf d slot → CardsInStep d →
    off = { cardReset slot with present := c.present, classB := c.classB, fault := c.fault } →
    (c.present = false → dieOn d.sys.mode = true →
      (cardServes d slot = true → Completes (.cardInsert slot none) s [.ofc, .hdr] fun t =>
          cardOf t slot = { cardReset slot with present := true, run := .activating, wait := .atr, ask := true }
          ∧ cardOf t (1 - slot) = cardOf d (1 - slot) ∧ t.out = [.cardPower slot true] ∧ eventAt pgOFC 1 d t)
      ∧ (∀ atr, cardServes d slot = false → Completes (.cardInsert slot atr) s [.ofc, .hdr] fun t =>
          cardOf t slot = { cardReset slot with present := true } ∧ t.out = [] ∧ eventAt pgOFC 1 d t))
    ∧ (∀ atr, c.present = true → dieOn d.sys.mode = true → c.run = .activating → c.wait = .atr → d.ofc.op = none →
      (atrT1 atr = true → Completes (.cardInsert slot (some atr)) s [.ofc] fun t =>
          cardOf t slot = { c with wait := .ifs } ∧ t.out = [.cardIfs slot 254])
      ∧ (atrT1 atr = false → Completes (.cardInsert slot (some atr)) s [.ofc, .hdr] fun t =>
          cardOf t slot = { off with fault := true } ∧ t.out = [.cardPower slot false] ∧ eventAt pgOFC 4 d t))
    ∧ (c.present = true → d.ofc.op = none → Completes (.cardRemove slot) s [.ofc, .hdr] fun t =>
        cardOf t slot = cardReset slot ∧ cardOf t (1 - slot) = cardOf d (1 - slot) ∧ eventAt pgOFC 2 d t
        ∧ t.out = (if c.run = .inactive then [] else [.cardPower slot false]))
    ∧ (c.run ≠ .inactive → d.ofc.op = none → Completes (.cardFault slot) s [.ofc, .hdr] fun t =>
        cardOf t slot = { off with fault := true } ∧ eventAt pgOFC 6 d t ∧ t.out = [.cardPower slot false])
    ∧ (c.run ≠ .inactive → c.wait = .atr → d.ofc.op = none →
      (c.classB = false → Completes (.atrTimeout slot) s [.ofc] fun t =>
          cardOf t slot = { c with classB := true } ∧ t.out = [.cardPower slot true])
      ∧ (c.classB = true → Completes (.atrTimeout slot) s [.ofc] fun t =>
          cardOf t slot = { off with fault := true } ∧ t.out = [.cardPower slot false]))
    ∧ (c.run ≠ .inactive →
      (c.wait = .ifs → Completes (.cardResponse slot (.ifs 254)) s [.ofc] fun t =>
        cardOf t slot = { c with ifsd := 254, wait := .select }
        ∧ t.out = [.card slot (leBytes 1 0x00 ++ leBytes 1 0xA4 ++ beBytes 7 0xF041444B4F4643)])
      ∧ (c.wait = .select → d.ofc.op = none →
        (c.officer = none → c.ask = true → Completes (.cardResponse slot (.status 0x9000)) s [.ofc] fun t =>
          cardOf t slot = { c with run := .activating, sel := true, ask := false, wait := .identity } ∧ t.out = [.card slot [0x80, 0xA0]])
        ∧ (∀ sw, sw ≠ 0x9000 → Completes (.cardResponse slot (.status sw)) s [.ofc, .hdr] fun t =>
          cardOf t slot = off ∧ t.out = [.cardPower slot false] ∧ eventAt pgOFC 4 d t))
      ∧ (∀ alg pk, c.wait = .identity → d.ofc.op = none → c.ask = false → c.sel = true →
        (∀ n, firstBelow 64 (fun m => (officerOf d m).run = .active && (officerOf d m).digest = sha384 pk) = some n →
          Completes (.cardResponse slot (.identity alg pk)) s [.ofc] fun t =>
            t.ofc.officers = d.ofc.officers ∧ t.ofc.chals = d.ofc.chals
            ∧ (∀ ch, (chalsOut d).find? (fun x => c.next ≤ x.id && wantsSign d n x) = some ch →
              cardOf t slot = { c with run := .signing, officer := some n, wait := .sign ch.id, next := ch.id + 1 }
              ∧ t.out = [.card slot ([0x80, 0xA2] ++ ch.bytes)])
            ∧ ((chalsOut d).find? (fun x => c.next ≤ x.id && wantsSign d n x) = none →
              cardOf t slot = { c with run := .identified, officer := some n, wait := .nothing } ∧ t.out = []))
        ∧ (firstBelow 64 (fun m => (officerOf d m).run = .active && (officerOf d m).digest = sha384 pk) = none →
          Completes (.cardResponse slot (.identity alg pk)) s [.ofc, .hdr] fun t =>
            cardOf t slot = off ∧ t.out = [.cardPower slot false] ∧ eventAt pgOFC 4 d t))
      ∧ (∀ sig id n ch, c.wait = .sign id → c.officer = some n → chalOf d id = some ch →
        Completes (.cardResponse slot (.signature sig)) s evParts fun t =>
          (∀ m, m ≠ n → officerOf t m = officerOf d m) ∧ (∀ m, m ≠ id → chalOf t m = chalOf d m)
          ∧ ((officerOf d n).run ≠ .active → officerOf t n = officerOf d n ∧ chalOf t id = some ch)
          ∧ ((officerOf d n).run = .active → officerSigOk (officerOf d n).alg (officerOf d n).pk ch.bytes sig = true →
            officerOf t n = { officerOf d n with fails := 0 } ∧ chalOf t id = some
              (if 16 ≤ ch.signed.length ∨ n ∈ ch.signed then ch else { ch with signed := ch.signed ++ [n] }))
          ∧ ((officerOf d n).run = .active → officerSigOk (officerOf d n).alg (officerOf d n).pk ch.bytes sig = false →
            (officerOf t n).fails = (officerOf d n).fails + 1 ∧ chalOf t id = some ch
            ∧ ((officerOf t n).run = if fld d pgOFC Reg.OFC_CFG_LOCK_LIMIT ≤ (officerOf d n).fails + 1 then .locked else .active)))
      ∧ (∀ sw x, c.wait = .pin → d.ofc.op = some (.pin slot x) → (∀ kv, kv ∈ d.shadow → keyOnPage pgOFC kv.1 = false) → sw < 65536 →
        Completes (.cardResponse slot (.status sw)) s ofcParts fun t => officerSays 0 sw t ∧ t.ofc.officers = d.ofc.officers)
      ∧ (∀ n name chal alg pk k, d.ofc.op = some (.enrol slot n name chal alg pk k) → (∀ kv, kv ∈ d.shadow → keyOnPage pgOFC kv.1 = false) →
        (∀ alg2 pk2 ok, c.wait = .enrolId →
          ok = ((alg2 = 0x0102 || alg2 = 0x0312) && pk2.length = officerPkLen alg2
            && (List.range 64).all (fun m => (officerOf d m).run = .empty || (officerOf d m).digest ≠ sha384 pk2)) →
          (ok = true → Completes (.cardResponse slot (.identity alg2 pk2)) s [.ofc] fun t =>
            t.ofc.op = some (.enrol slot n name chal alg2 pk2 k) ∧ cardOf t slot = { c with run := .signing, wait := .enrolSign }
            ∧ t.out = [.card slot ([0x80, 0xA2] ++ chal)])
          ∧ (ok = false → Completes (.cardResponse slot (.identity alg2 pk2)) s ofcParts fun t =>
            officerSays 0x0103 1 t ∧ t.ofc.officers = d.ofc.officers))
        ∧ (∀ sig, c.wait = .enrolSign → Completes (.cardResponse slot (.signature sig)) s ofcParts fun t =>
          (officerSigOk alg pk chal sig = true → officerSays 0 0 t ∧ officerOf t n = ⟨.active, alg, pk, sha384 pk, name, 0, 0, 0⟩
            ∧ (cardOf t slot).officer = some n ∧ (∀ m, m ≠ n → officerOf t m = officerOf d m))
          ∧ (officerSigOk alg pk chal sig = false → officerSays 0x0103 1 t ∧ t.ofc.officers = d.ofc.officers))))

/-! ## The life cycle and the event recorder (R410-R442) -/

/-- TRANSITION, TOKEN_SET, LC_PROGRAMMING_DONE and CLEAR_GRANT.

Where the spec leaves a point open, a clause states the model's choice of log entries 125, 127, 141 and 176, which is no rule of the
spec.

Exec answers a next state, as the clauses say, for transition, tokenSet, lcProgrammingDone, clearGrant. -/
def Obligations.LifeCycleCommands : Prop :=
  ∀ (s : State) (d : Dev) (a : Access), Begins s d → AwakeFor d a →
    (∀ d1 b addr v, (admitWrite (seenAs a) pgLC 0x044 d).1 = some .lc → takesJobs d pgLC = true → d.lc.op = none →
      fieldCode (seenAs a) pgLC 1 d Reg.LC_CMD_OP = 0 → fieldCode (seenAs a) pgLC 1 d Reg.LC_CMD_ROW = 0 → v < 16 →
      addr = fld d pgLC Reg.LC_ARG_LO_ADDR_LO * 8 + fld d pgLC Reg.LC_ARG_HI_ADDR_HI * 2 ^ 32 →
      d1 = setFld d pgLC Reg.LC_CMD_ROW v →
      (v = 0 → secureRange d1 addr 32 = true → plainFetch addr 32 d1 = (b, d1) → d.sys.mode = .startup ∨ d.sys.mode = .service →
        ∀ dst, lcOfByte (fld d pgLC Reg.LC_TARGET_TARGET) = some dst →
        (∀ row, lcCheck dst b d = .ok row → dst ≠ .returned → Completes (.transition a 0) s [.nv, .lc, .regs] fun t =>
          t.nv = { d.nv with journal := some ⟨lcVote d.fuse, lcCode dst, row⟩ }
          ∧ t.lc = { d.lc with op := some (.transition (lcVote d.fuse) (lcCode dst) row) } ∧ regsBut [(pgLC, 0x044)] d t)
        ∧ (∀ e, lcCheck dst b d = .error e → Completes (.transition a 0) s [.regs] fun t =>
          fld t pgLC Reg.LC_RESULT_CODE = e ∧ regsBut [(pgLC, 0x044), (pgLC, 0x054)] d t))
      ∧ (secureRange d1 addr 48 = true → plainFetch addr 48 d1 = (b, d1) →
        (v < 4 → d.sys.lc = .raw → rowSet d v = false → lcSupply d = true → Completes (.tokenSet a (v * 16)) s [.lc, .regs] fun t =>
          t.lc = { d.lc with op := some (.tokenSet v b) } ∧ regsBut [(pgLC, 0x044)] d t)
        ∧ (rowSet d v = true → Completes (.tokenSet a (v * 16)) s [.regs] fun t => fld t pgLC Reg.LC_RESULT_CODE = 5)))
    ∧ (∀ row b, d.lc = ⟨some (.tokenSet row b), false⟩ → Completes .lcProgrammingDone s [.fuse, .lc, .regs, .hdr] fun t =>
        t.fuse = { d.fuse with rows := smapSet noneAt d.fuse.rows row (some b) } ∧ t.lc = ⟨none, false⟩
        ∧ fld t pgLC Reg.LC_RESULT_CODE = 0 ∧ eventAt pgLC 0 d t)
    ∧ (∀ src dst row, dst ∈ [Lc.test, .factory] → d.lc = ⟨some (.transition src (lcCode dst) row), false⟩ →
      Completes .lcProgrammingDone s ([.fuse, .lc, .sys] ++ evParts) fun t =>
        t.fuse = { d.fuse with
          lc0 := Nat.lor d.fuse.lc0 (lcCode dst), lc1 := Nat.lor d.fuse.lc1 (lcCode dst), lc2 := Nat.lor d.fuse.lc2 (lcCode dst) }
        ∧ t.lc = ⟨none, false⟩ ∧ t.nv.journal = none ∧ t.sys.lc = d.sys.lc ∧ fld t pgLC Reg.LC_RESULT_CODE = 0)
    ∧ ((admitWrite (seenAs a) pgDBG 0x040 d).1 = some .dbg → d.sys.lc ≠ .raw → d.sys.lc ≠ .test → (hdrOf d pgDBG).softRst = false →
      bits (regGet d pgDBG 0x040) 3 2 = 0 → d.sys.dbgHaltReq = 0 → Completes (.clearGrant a) s [.nv, .sys, .regs] fun t =>
        t.nv = (if stopped d.sys.mode then d.nv else { d.nv with grant := none }) ∧ t.sys = { d.sys with dbgGranted := setBit d.sys.dbgGranted 2 false }
        ∧ regsBut [(pgDBG, 0x040)] d t)

/-- EVR_WRITE_GO, EVR_CLEAR_GO, EVR_RD_NEXT, EVR_RD_PREV, EVR_CURSOR_SET and EVENT_BUFFER_WRITE.

Where the spec leaves a point open, a clause states the model's choice of log entries 107, 108 and 109, which is no rule of the spec.

Exec answers a next state, as the clauses say, for evrWriteGo, evrClearGo, evrRdNext, evrRdPrev, evrCursorSet, eventBufferWrite. -/
def Obligations.RecorderCommands : Prop :=
  ∀ (s : State) (d : Dev) (a : Access), Begins s d → AwakeFor d a →
    (∀ v w d1 b tag r, v < 2 ^ 31 → w = v + 2 ^ 31 → (admitWrite (seenAs a) pgEVR 0x04C d).1 = some .evr0 →
      (hdrOf d pgEVR).softRst = false → d1 = (judgePlain .evr0 (seenAs a) pgEVR 0x04C w d).d → wrChannelOk (seenAs a) w = true →
      memFetch (whoDevice 4 (seenAs a).sec) false (fldPair d pgEVR Reg.EVR_WR_ADDR_LO_ADDR_LO Reg.EVR_WR_ADDR_HI_ADDR_HI)
        (fld d pgEVR Reg.EVR_WR_LEN_LEN) d1 = (.ok, b, tag, d1) →
      d.evr.held = [] → dieOn d.sys.mode = true → stopped d.sys.mode = false → fld d pgEVR Reg.EVR_FW_RATE_RATE = 0 →
      r = ⟨bits v 27 24, bits v 18 16, bits v 15 0, 32, false, b, none⟩ → bufBytes d + (recBytes r 0 0 false).length ≤ 65536 →
      Completes (.evrWriteGo a v) s [.evr, .nv, .regs, .hdr, .host] fun t =>
        t.evr.buf = d.evr.buf ++ [⟨d.nv.evSeq, bits v 27 24, bits v 18 16, bits v 15 0,
          recBytes r d.nv.evSeq (smapGet zeroAt d.evr.suppressed (bits v 15 0)) false⟩]
        ∧ t.nv = { d.nv with evSeq := d.nv.evSeq + 1 } ∧ t.evr.held = [] ∧ smapGet zeroAt t.evr.suppressed (bits v 15 0) = 0
        ∧ regsBut [(pgEVR, 0x04C)] d t)
    ∧ (∀ m d1, m < 65536 → (admitWrite (seenAs a) pgEVR 0x05C d).1 = some .evr0 → (seenAs a).sec = true → (hdrOf d pgEVR).softRst = false →
      d1 = (judgePlain .evr0 (seenAs a) pgEVR 0x05C (m + 2 ^ 31) d).d →
      (d.sys.mode ≠ .service → d.sys.mode ≠ .ceremony → Completes (.evrClearGo a m) s [.regs, .hdr] fun t =>
          fld t pgEVR Reg.EVR_CLR_RESULT_STATUS = stMODE ∧ eventAt pgEVR 2 d t)
      ∧ (∀ tk tag ids who d2, d.sys.mode = .service ∨ d.sys.mode = .ceremony → classUsable d 0 = true →
        fld d pgEVR Reg.EVR_CLR_TKT_LEN_LEN ≠ 0 → evrTicket d1 = (.ok, tk, tag, d1) →
        ticketsCheck [⟨0xFFFF, 0x2007, 0, sha384 (leBytes 2 m ++ zeros 6), 0⟩] tk [] d1 = (.ok (ids, who), d2) →
        d2 = { d1 with ofc := d2.ofc } → d.evr.held = [] → bufBytes d + 40 ≤ 65536 →
        Completes (.evrClearGo a m) s [.evr, .nv, .regs, .hdr, .host, .mem, .ofc] fun t =>
          (∀ x, x ∈ t.nv.log → bit m x.chan = true → d.nv.evSeq ≤ x.seq) ∧ (∀ x, x ∈ d.nv.log → bit m x.chan = false → x ∈ t.nv.log)
          ∧ (∃ pre x, t.evr.buf = pre ++ [x] ∧ x.seq = d.nv.evSeq ∧ x.chan = 1 ∧ x.sev = 5 ∧ x.code = 0x0106
            ∧ (∀ y, y ∈ pre → bit m y.chan = true → d.nv.evSeq ≤ y.seq))
          ∧ t.nv.evSeq = d.nv.evSeq + 1 ∧ fld t pgEVR Reg.EVR_CLR_RESULT_STATUS = 0 ∧ chalOf t (ids.headD 0) = none))
    ∧ (∀ port cur cand, port = evPort (seenAs a) → port < d.evr.cursors.length → cur = d.evr.cursors.getD port 0 →
      cand = evCandidates d port →
      (reach d a pgEVR1 0x040 ≠ .gone → readRefused d (seenAs a) .evr1 pgEVR1 = false →
        (∀ n b, (n, b) ∈ cand → cur ≤ n → (∀ x, x ∈ cand → cur ≤ x.1 → n ≤ x.1) → (∀ x, x ∈ cand → x.1 = n → x.2 = b) →
          Completes (.evrRdNext a) s [.evr] fun t =>
            t.bus = some (.ok (leBytes 4 (2 ^ 31 + (b.getD 0 0).toNat)))
            ∧ t.evr = { d.evr with cursors := d.evr.cursors.set port (n + 1), copied := d.evr.copied.set port b })
        ∧ ((∀ x, x ∈ cand → x.1 < cur) → Completes (.evrRdNext a) s [] fun t => t.bus = some (.ok (zeros 4))))
      ∧ (reach d a pgEVR1 0x044 ≠ .gone → readRefused d (seenAs a) .evr1 pgEVR1 = false →
        (∀ n b, (n, b) ∈ cand → n < cur → (∀ x, x ∈ cand → x.1 < cur → x.1 ≤ n) → (∀ x, x ∈ cand → x.1 = n → x.2 = b) →
          Completes (.evrRdPrev a) s [.evr] fun t =>
            t.bus = some (.ok (leBytes 4 (2 ^ 31 + (b.getD 0 0).toNat)))
            ∧ t.evr = { d.evr with cursors := d.evr.cursors.set port n, copied := d.evr.copied.set port b })
        ∧ ((∀ x, x ∈ cand → cur ≤ x.1) → Completes (.evrRdPrev a) s [] fun t => t.bus = some (.ok (zeros 4))))
      ∧ (∀ v, v < 2 ^ 32 → port ≠ 2 → (admitWrite (seenAs a) pgEVR1 0x04C d).1 = some .evr1 → (hdrOf d pgEVR1).softRst = false →
        Completes (.evrCursorSet a v) s [.evr] fun t =>
          t.evr = { d.evr with cursors := d.evr.cursors.set port (v * 2 ^ 32 + d.evr.curLo.getD port 0) }))
    ∧ (dieOn d.sys.mode = true → d.evr.held = [] →
      (d.evr.buf = [] → Completes .eventBufferWrite s [] fun _ => True)
      ∧ (∀ r rest pos len x, d.evr.buf = r :: rest → (chanArea r.chan).slots = 0 → smapGet falseAt d.nv.logFull r.chan = false →
        pos = smapGet zeroAt d.nv.logPos r.chan → len = r.bytes.length → pos + len ≤ (chanArea r.chan).kept →
        x = logBase + (chanArea r.chan).off + pos → (∀ y, y ∈ d.nv.log → overlaps y.addr y.len x len = false) →
        Completes .eventBufferWrite s [.evr, .nv, .mem] fun t =>
          t.evr = { d.evr with buf := rest } ∧ memBytes t x len = withCommit r.bytes true ∧ bytesBut x len d t
          ∧ t.nv = { d.nv with
              log := d.nv.log ++ [⟨r.seq, r.chan, r.sev, x, len, true⟩], logPos := smapSet zeroAt d.nv.logPos r.chan (pos + len) }))

/-! ## The tamper monitor (R389-R409) -/

/-- TAMPER_ALARM, LANTERN_SAMPLE, TRIP_HOLD_END, TAMPER_ALARM_END, MONFAULT, THROTTLE_END, TAMPER_FUSE_REQ, LOOP_ARM and
RESET_WINDOW_EXPIRY.

Where the spec leaves a point open, a clause states the model's choice of log entries 121, 122, 123 and 124, which is no rule of the
spec.

Exec answers a next state, as the clauses say, for tamperAlarm, lanternSample, tripHoldEnd, monfault, throttleEnd, tamperFuseReq,
loopArm, tamperAlarmEnd, resetWindowExpiry. -/
def Obligations.TamperCommands : Prop :=
  ∀ (s : State) (d : Dev), Begins s d →
    (∀ (r : Trip) (x : TampSrc) (eff : Nat), r.src < 7 → (r.a = true ∨ r.b = true) → x = tampOf d r.src → x.a = false → x.b = false →
      tampFused d r.src = false → d.sys.mode = .service → eff = respEff d r.src → resetRuns d = false →
      (eff ≤ 1 → Completes (.tamperAlarm [r]) s (.tamp :: evParts) fun t =>
          (tampOf t r.src).a = r.a ∧ (tampOf t r.src).b = r.b ∧ (∀ n, n ≠ r.src → tampOf t n = tampOf d n)
          ∧ bit (fld t pgTAMP Reg.TAMP_SEEN_SEEN) r.src = true
          ∧ (∃ f, f = fldAt (if r.src % 2 = 1 then Reg.TAMP_CNT_ODD else Reg.TAMP_CNT_EVEN) (r.src / 2)
            ∧ fld t pgTAMP3 f = min 65535 (fld d pgTAMP3 f + 1))
          ∧ (eff = 1 → bit (hdrOf d pgTAMP).irqEn 0 = true → bit (hdrOf t pgTAMP).irqStat 0 = true))
      ∧ (eff = 2 → Completes (.tamperAlarm [r]) s ([.tamp, .hearth] ++ evParts) fun t =>
          bit t.tamp.throttling r.src = true ∧ t.tamp.throttleEnd = none ∧ t.hearth = { d.hearth with scale := 1 }
          ∧ fld t pgTAMP Reg.TAMP_THROTTLE_COUNT = min 65535 (fld d pgTAMP Reg.TAMP_THROTTLE_COUNT + 1))
      ∧ (eff = 3 → fltServes d = true → (lateResets d).length < 3 → Completes (.tamperAlarm [r]) s ([.tamp, .lant, .raised] ++ evParts) fun t =>
          t.raised = d.raised ++ [⟨.reset, 3, r.src⟩] ∧ t.lant.resets = lateResets d ++ [stamp d]
          ∧ (d.lant.latch.length < 16 → t.lant.latch = d.lant.latch ++ [latchWord r.src r.a r.b 3 (stamp d)]))
      ∧ (eff = 4 → fltServes d = true → Completes (.tamperAlarm [r]) s (except []) fun t =>
          t.sys.mode = .halted ∧ t.mpe.kMem = none ∧ t.mpe.kMac = none ∧ t.key.resident = [])
      ∧ (eff = 5 → Completes (.tamperAlarm [r]) s (except []) fun t =>
          t.sys.mode = .zeroised ∧ t.lant.zeroised = true ∧ t.lant.root = none ∧ t.mpe.kMem = none ∧ t.key.resident = []))
    ∧ (∀ l, dieOn d.sys.mode = false → Completes (.tamperAlarm l) s [] fun _ => True)
    ∧ (∀ (r : LanternRead) (step now : Nat), d.lant.powered = true → d.sys.mode ≠ .off → step = (if dieOn d.sys.mode then 1 else 32) →
      now = max d.now (timeOfStamp d (tickOf (d.now - d.lant.epochNs) + step)) →
      ((∀ n, n ∈ [7, 8, 9, 10, 11, 12, 15] → (sampleOf d r step n).1 = false ∧ (sampleOf d r step n).2.1 = false) →
        Completes (.lanternSample r) s [.tamp, .lant, .now] fun t =>
          t.now = now ∧ (∀ n, n ∈ [7, 8, 9, 10, 11, 12, 15] → (tampOf t n).a = false ∧ (tampOf t n).b = false)
          ∧ { t.lant with resA := d.lant.resA, resB := d.lant.resB } = d.lant)
      ∧ (d.sys.mode = .vigil → d.lant.latch.length < 16 → respEff d 15 = 0 → (tampOf d 15).a = false → (tampOf d 15).b = false →
        tampFused d 15 = false → (r.inputMv < 2300 ∨ r.coreMv < 900) →
        (∀ n, n ∈ [7, 8, 9, 10, 11, 12] → (sampleOf d r step n).1 = false ∧ (sampleOf d r step n).2.1 = false) →
        Completes (.lanternSample r) s [.tamp, .lant, .now] fun t =>
          (tampOf t 15).a = decide (r.inputMv < 2300) ∧ (tampOf t 15).b = decide (r.coreMv < 900)
          ∧ t.lant.latch = d.lant.latch ++ [latchWord 15 (decide (r.inputMv < 2300)) (decide (r.coreMv < 900)) 0 (stamp t)]))
    ∧ (∀ n x, x = tampOf d n → n ≠ 14 → bit d.tamp.throttling n = false → (tampOf d 14).a = false →
      (∀ u, x.heldUntil = some u → Completes (.tripHoldEnd n) s [.tamp, .now] fun t =>
          (tampOf t n).a = false ∧ (tampOf t n).b = false ∧ (tampOf t n).heldUntil = none ∧ t.now = max d.now u
          ∧ (∀ m, m ≠ n → tampOf t m = tampOf d m))
      ∧ (n ≤ 6 → x.heldUntil = none → Completes (.tamperAlarmEnd n) s [.tamp] fun t =>
          (tampOf t n).a = false ∧ (tampOf t n).b = false ∧ (∀ m, m ≠ n → tampOf t m = tampOf d m)))
    ∧ (∀ n, n ≤ 6 → (tampOf d n).heldUntil = none → bit d.tamp.throttling n = true → Completes (.tamperAlarmEnd n) s [.tamp] fun t =>
        bit t.tamp.throttling n = false ∧ (setBit d.tamp.throttling n false = 0 → t.tamp.throttleEnd = some (d.now + 10000000)))
    ∧ (∀ n u, (tampOf d n).disSince = some u → (tampOf d n).fired = false → pairWatched d n = true → d.sys.mode = .service →
      resetRuns d = false → respEff d 14 ≤ 1 → Completes (.monfault n) s ([.tamp, .now] ++ evParts) fun t =>
        (tampOf t n).fired = true ∧ (tampOf t 14).a = true ∧ t.tamp.monLast = n ∧ t.now = max d.now (u + 1000000)
        ∧ fld t pgTAMP Reg.TAMP_MONF_COUNT = min 65535 (fld d pgTAMP Reg.TAMP_MONF_COUNT + 1)
        ∧ bit (fld t pgTAMP Reg.TAMP_SEEN_SEEN) 14 = true)
    ∧ (∀ u, d.tamp.throttleEnd = some u → d.tamp.throttling = 0 → d.sys.mode ≠ .drowse → d.sys.mode ≠ .holdup →
      Completes .throttleEnd s [.tamp, .hearth, .hdr, .now] fun t =>
        t.tamp = { d.tamp with throttleEnd := none } ∧ t.hearth = { d.hearth with scale := 0 } ∧ t.now = max d.now u
        ∧ eventAt pgTAMP 2 d t)
    ∧ (∀ a mask, AwakeFor d a → mask < 65536 → (admitWrite (seenAs a) pgTAMP 0x048 d).1 = some .tamp0 → (hdrOf d pgTAMP).softRst = false →
      Nat.land mask fuseMask = mask →
      (fuseOpen d = true → Completes (.tamperFuseReq a mask) s ([.fuse, .tamp] ++ evParts) fun t =>
          t.fuse = { d.fuse with tampOff := Nat.lor d.fuse.tampOff mask })
      ∧ (fuseOpen d = false → (hdrOf d pgTAMP).cfgErr = false → Completes (.tamperFuseReq a mask) s [.hdr] fun t =>
          (hdrOf t pgTAMP).cfgErr = true ∧ (hdrOf t pgTAMP).errCode = 0x0100 ∧ hdrsBut [pgTAMP] d t))
    ∧ (∀ a v refA refB, AwakeFor d a → v < 2 ^ 32 → (admitWrite (seenAs a) pgVIG 0x048 d).1 = some .vig → (hdrOf d pgVIG).softRst = false →
      (hdrOf d pgVIG).lock = false → floorLc d ≠ .deployed → Completes (.loopArm a v refA refB) s [.lant, .regs] fun t =>
        t.lant = { d.lant with
          tinFilter := bits v 19 16, tinPol := bits v 15 12, tinArm := bits v 11 8, armA := bit v 0, armB := bit v 1
          refA := if bit v 0 && !d.lant.armA then refA % 65536 else d.lant.refA
          refB := if bit v 1 && !d.lant.armB && !(tampFused d 8) then refB % 65536 else d.lant.refB }
        ∧ regsBut [(pgVIG, 0x048)] d t)
    ∧ (∀ u rest, d.lant.resets = u :: rest → Completes .resetWindowExpiry s [.lant, .now] fun t =>
        t.now = max d.now (timeOfStamp d (u + 60 * 32768)) ∧ t.lant = { d.lant with resets := d.lant.resets.filter (fun x => stamp t < x + 60 * 32768) })
end

