-- ==== Sys2Proof/Laws/SMap.lean ====
section
/-! SUPPORT. Sparse tables: a read after a write, at every table, canonical or not, and the canonical form that every
operation keeps. -/

namespace Sys2Proof.Machine

variable {α : Type}

theorem smapFind_ins_same (m : SMap α) (n : Nat) (a : α) : smapFind (smapIns m n a) n = some a := by
  induction m with
  | nil => simp [smapIns, smapFind]
  | cons kv t ih =>
    obtain ⟨k, v⟩ := kv
    simp only [smapIns]
    split
    · simp [smapFind]
    · split
      · simp [smapFind]
      · simp [smapFind, *]

theorem smapFind_ins_other (m : SMap α) (n k : Nat) (a : α) (h : k ≠ n) : smapFind (smapIns m n a) k = smapFind m k := by
  induction m with
  | nil => simp [smapIns, smapFind, Ne.symm h]
  | cons kv t ih =>
    obtain ⟨j, v⟩ := kv
    simp only [smapIns]
    split
    · rename_i e
      subst e
      simp [smapFind, Ne.symm h]
    · split
      · simp [smapFind, Ne.symm h]
      · simp [smapFind, ih]

theorem smapFind_del_same (m : SMap α) (n : Nat) : smapFind (smapDel m n) n = none := by
  induction m with
  | nil => rfl
  | cons kv t ih =>
    obtain ⟨k, v⟩ := kv
    simp only [smapDel, ne_eq, decide_not] at ih ⊢
    by_cases h : k = n <;> simp [h, smapFind, ih]

theorem smapFind_del_other (m : SMap α) (n k : Nat) (h : k ≠ n) : smapFind (smapDel m n) k = smapFind m k := by
  induction m with
  | nil => rfl
  | cons kv t ih =>
    obtain ⟨j, v⟩ := kv
    simp only [smapDel, ne_eq, decide_not] at ih ⊢
    by_cases e : j = n
    · subst e
      simp [smapFind, Ne.symm h, ih]
    · simp [e, smapFind, ih]

/-- A read of the key just written gives the value written. -/
@[simp] theorem smapGet_set_same [DecidableEq α] (dflt : Nat → α) (m : SMap α) (n : Nat) (a : α) :
    smapGet dflt (smapSet dflt m n a) n = a := by
  unfold smapGet smapSet
  split
  · rename_i h
    rw [smapFind_del_same, h]
    rfl
  · rw [smapFind_ins_same]
    rfl

/-- A write leaves every other key alone. -/
theorem smapGet_set_other [DecidableEq α] (dflt : Nat → α) (m : SMap α) (n k : Nat) (a : α) (h : k ≠ n) :
    smapGet dflt (smapSet dflt m n a) k = smapGet dflt m k := by
  unfold smapGet smapSet
  split
  · rw [smapFind_del_other _ _ _ h]
  · rw [smapFind_ins_other _ _ _ _ h]

/-- A read after a write, by the two keys. -/
theorem smapGet_set [DecidableEq α] (dflt : Nat → α) (m : SMap α) (n k : Nat) (a : α) :
    smapGet dflt (smapSet dflt m n a) k = if k = n then a else smapGet dflt m k := by
  split
  · subst k
    exact smapGet_set_same dflt m n a
  · exact smapGet_set_other dflt m n k a ‹_›

/-- A table of which only some keys are kept reads as before at those. -/
theorem smapGet_keep (dflt : Nat → α) (p : Nat → Bool) (m : SMap α) (n : Nat) (h : p n = true) :
    smapGet dflt (smapKeep p m) n = smapGet dflt m n := by
  have find : ∀ m : SMap α, smapFind (smapKeep p m) n = smapFind m n := by
    intro m
    induction m with
    | nil => rfl
    | cons kv t ih =>
      obtain ⟨k, v⟩ := kv
      unfold smapKeep at ih ⊢
      by_cases e : k = n
      · simp [e, h, smapFind]
      · by_cases q : p k = true <;> simp [q, smapFind, e, ih]
  unfold smapGet
  rw [find]

/-! ## The canonical form -/

theorem smapRises_cons (k : Nat) (v : α) (t : SMap α) :
    smapRises ((k, v) :: t) = true ↔ (∀ kv ∈ t, k < kv.1) ∧ smapRises t = true := by
  induction t generalizing k v with
  | nil => simp [smapRises]
  | cons kv t ih =>
    obtain ⟨j, w⟩ := kv
    simp only [smapRises, Bool.and_eq_true, decide_eq_true_eq, List.mem_cons, forall_eq_or_imp, ih]
    constructor
    · rintro ⟨h, g, r⟩
      exact ⟨⟨h, fun x hx => Nat.lt_trans h (g x hx)⟩, g, r⟩
    · rintro ⟨⟨h, -⟩, g, r⟩
      exact ⟨h, g, r⟩

theorem smapRises_filter (p : Nat × α → Bool) (m : SMap α) (h : smapRises m = true) : smapRises (m.filter p) = true := by
  induction m with
  | nil => rfl
  | cons kv t ih =>
    obtain ⟨k, v⟩ := kv
    obtain ⟨g, r⟩ := (smapRises_cons k v t).1 h
    rw [List.filter_cons]
    split
    · exact (smapRises_cons _ _ _).2 ⟨fun x hx => g x (List.mem_filter.1 hx).1, ih r⟩
    · exact ih r

theorem smapIns_mem (m : SMap α) (n : Nat) (a : α) (kv : Nat × α) (h : kv ∈ smapIns m n a) : kv = (n, a) ∨ kv ∈ m := by
  induction m with
  | nil => simpa [smapIns] using h
  | cons x t ih =>
    obtain ⟨k, v⟩ := x
    simp only [smapIns] at h
    split at h
    · simp only [List.mem_cons] at h ⊢
      exact h.imp id .inr
    · split at h
      · simpa using h
      · simp only [List.mem_cons] at h ⊢
        rcases h with h | h
        · exact .inr (.inl h)
        · exact (ih h).imp id .inr

theorem smapRises_ins (m : SMap α) (n : Nat) (a : α) (h : smapRises m = true) : smapRises (smapIns m n a) = true := by
  induction m with
  | nil => rfl
  | cons x t ih =>
    obtain ⟨k, v⟩ := x
    obtain ⟨g, r⟩ := (smapRises_cons k v t).1 h
    simp only [smapIns]
    split
    · subst k
      exact (smapRises_cons _ _ _).2 ⟨g, r⟩
    · split
      · refine (smapRises_cons _ _ _).2 ⟨?_, h⟩
        rintro kv hkv
        rcases List.mem_cons.1 hkv with rfl | hkv
        · assumption
        · exact Nat.lt_trans ‹n < k› (g kv hkv)
      · refine (smapRises_cons _ _ _).2 ⟨?_, ih r⟩
        intro kv hkv
        rcases smapIns_mem t n a kv hkv with rfl | hkv
        · show k < n
          omega
        · exact g kv hkv

/-- Writing a value keeps the canonical form. -/
theorem smapWf_set [DecidableEq α] (dflt : Nat → α) (m : SMap α) (n : Nat) (a : α) (h : smapWf dflt m = true) :
    smapWf dflt (smapSet dflt m n a) = true := by
  simp only [smapWf, Bool.and_eq_true, List.all_eq_true, decide_eq_true_eq] at h ⊢
  unfold smapSet
  split
  · exact ⟨smapRises_filter _ _ h.1, fun kv hkv => h.2 kv (List.mem_filter.1 hkv).1⟩
  · refine ⟨smapRises_ins _ _ _ h.1, fun kv hkv => ?_⟩
    rcases smapIns_mem m n a kv hkv with rfl | hkv
    · assumption
    · exact h.2 kv hkv

/-- Dropping pairs keeps the canonical form. -/
theorem smapWf_keep [DecidableEq α] (dflt : Nat → α) (p : Nat → Bool) (m : SMap α) (h : smapWf dflt m = true) :
    smapWf dflt (smapKeep p m) = true := by
  simp only [smapWf, Bool.and_eq_true, List.all_eq_true, decide_eq_true_eq] at h ⊢
  exact ⟨smapRises_filter _ _ h.1, fun kv hkv => h.2 kv (List.mem_filter.1 hkv).1⟩

theorem smapWf_nil [DecidableEq α] (dflt : Nat → α) : smapWf dflt ([] : SMap α) = true := rfl

end Sys2Proof.Machine
end

