-- ==== Sys2Proof/Laws/Memory.lean ====
section
/-! SUPPORT. Memory: a read after a write, the canonical form that every operation keeps, and a fetch of plain on-die memory, which
changes nothing. -/

namespace Sys2Proof.Machine

/-- The byte written is the byte read, and every other byte is as it was. -/
theorem memByte_putByte (d : Dev) (a x : Nat) (b : Byte) : memByte (putByte d a b) x = if x = a then b else memByte d x :=
  smapGet_set memReset d.mem a x b

theorem memByte_putBytes_below (bs : Bytes) (d : Dev) (a x : Nat) (h : x < a) : memByte (putBytes d a bs) x = memByte d x := by
  induction bs generalizing d a with
  | nil => rfl
  | cons b t ih =>
    rw [putBytes, ih _ _ (by omega), memByte_putByte, if_neg (by omega)]

theorem memByte_putBytes_above (bs : Bytes) (d : Dev) (a x : Nat) (h : a + bs.length ≤ x) :
    memByte (putBytes d a bs) x = memByte d x := by
  induction bs generalizing d a with
  | nil => rfl
  | cons b t ih =>
    simp only [List.length_cons] at h
    rw [putBytes, ih _ _ (by omega), memByte_putByte, if_neg (by omega)]

/-- A byte string is read back where it was written. -/
theorem memByte_putBytes (bs : Bytes) (d : Dev) (a k : Nat) (h : k < bs.length) :
    memByte (putBytes d a bs) (a + k) = bs[k] := by
  induction bs generalizing d a k with
  | nil => simp at h
  | cons b t ih =>
    rw [putBytes]
    cases k with
    | zero => rw [memByte_putBytes_below _ _ _ _ (by omega), memByte_putByte]; simp
    | succ k =>
      have := ih (putByte d a b) (a + 1) k (by simpa using h)
      rw [show a + (k + 1) = a + 1 + k by omega, this]
      simp

theorem memBytes_putBytes (bs : Bytes) (d : Dev) (a : Nat) : memBytes (putBytes d a bs) a bs.length = bs := by
  refine List.ext_getElem (by simp [memBytes]) fun k h _ => ?_
  simp only [memBytes, List.length_map, List.length_range] at h
  simpa [memBytes] using memByte_putBytes bs d a k h

theorem memBytes_length (d : Dev) (a n : Nat) : (memBytes d a n).length = n := by simp [memBytes]

/-! ## The canonical form -/

theorem putByte_wf (d : Dev) (a : Nat) (b : Byte) (h : Memory.wf d.mem = true) : Memory.wf (putByte d a b).mem = true :=
  smapWf_set memReset d.mem a b h

theorem putBytes_wf (bs : Bytes) (d : Dev) (a : Nat) (h : Memory.wf d.mem = true) : Memory.wf (putBytes d a bs).mem = true := by
  induction bs generalizing d a with
  | nil => exact h
  | cons b t ih => exact ih _ _ (putByte_wf d a b h)

theorem wipeMem_wf (d : Dev) (lo hi : Nat) (h : Memory.wf d.mem = true) : Memory.wf (wipeMem d lo hi).mem = true :=
  smapWf_keep memReset (fun a => a < lo || hi < a) d.mem h

theorem reset_mem_wf : Memory.wf State.reset.dev.mem = true := by decide

/-- A byte string touches memory only. -/
theorem putBytes_eq (bs : Bytes) (d : Dev) (a : Nat) : putBytes d a bs = { d with mem := (putBytes d a bs).mem } := by
  induction bs generalizing d a with
  | nil => rfl
  | cons b t ih => rw [putBytes, ih]; rfl

/-! ## A fetch of plain on-die memory -/

theorem partsOf_one (a n : Nat) (h0 : 0 < n) (h : a % 4096 + n ≤ 4096) : partsOf a n = [(a, n)] := by
  have e : min n (4096 - a % 4096) = n := by omega
  unfold partsOf
  rw [partsGo, if_neg (by omega)]
  simp only [e, Nat.sub_self]
  cases h1 : n / 4096 + 1 <;> simp [partsGo]

/-- Whether a range can be read as plain memory: inside one 4 KiB page, in powered quarter SRAM or in the commons. -/
def plainAt (d : Dev) (a n : Nat) : Prop :=
  0 < n ∧ a % 4096 + n ≤ 4096 ∧ (zoneOf a = .commons ∨ ∃ q, zoneOf a = .qsram q ∧ (quarterOf d q).pwr = .on)

theorem readPart_plain (spec : Bool) (d : Dev) (a n : Nat) (h : plainAt d a n) :
    readPart spec a n d = (.ok, memBytes d a n, none, d) := by
  obtain ⟨-, -, h | ⟨q, h, on⟩⟩ := h
  · simp [readPart, h]
  · simp [readPart, h, on]

/-- A permitted fetch of plain memory gives its bytes and leaves the block as it is. -/
theorem memFetch_plain (w : Who) (spec : Bool) (a n : Nat) (d : Dev) (h : plainAt d a n) (p : partCheck d w .read a = .pass) :
    memFetch w spec a n d = (.ok, memBytes d a n, none, d) := by
  have r := readPart_plain spec d a n h
  obtain ⟨h0, h1, -⟩ := h
  simp [memFetch, partsOf_one a n h0 h1, judgePart, p, r, MemRes.join, tagMax]

theorem memFetch2_plain (w : Who) (spec : Bool) (a n : Nat) (d : Dev) (h : plainAt d a n) (p : partCheck d w .read a = .pass) :
    memFetch2 w spec a n d = (.ok, memBytes d a n, none, d) := by
  simp [memFetch2, memFetch_plain w spec a n d h p]

/-- An untagged write to lines that the write buffer holds changes the buffer and nothing else (R265). -/
theorem mpeWrite_buffered (a : Nat) (data : Bytes) (d : Dev)
    (h : ∀ l, l ∈ linesOf a data.length → (smapGet noneAt d.mpe.wbuf (l / 64)).isSome = true) :
    ∃ w, mpeWrite none a data d = { d with mpe := { d.mpe with wbuf := w } } := by
  unfold mpeWrite
  generalize linesOf a data.length = ls at h ⊢
  induction ls generalizing d with
  | nil => exact ⟨d.mpe.wbuf, rfl⟩
  | cons l ls ih =>
    obtain ⟨w, hw⟩ := Option.isSome_iff_exists.mp (h l (List.mem_cons_self ..))
    rw [List.foldl_cons]
    simp only [hw]
    obtain ⟨x, hx⟩ := ih (modMpe (fun m => { m with wbuf := smapSet noneAt m.wbuf (l / 64) (some { w with data := lineMerge l a data w.data }) }) d) (fun n hn => by
      have := h n (List.mem_cons_of_mem _ hn)
      simp only [modMpe, smapGet_set]
      split
      · rfl
      · exact this)
    exact ⟨x, hx⟩

/-- With the access table off, the table refuses nothing. -/
theorem htCheck_off (d : Dev) (w : Who) (k : BusKind) (a : Nat) (h : (hdrOf d pgHT).enable = false) : htCheck d w k a = .pass := by
  simp [htCheck, h]

end Sys2Proof.Machine
end

