-- ==== Sys2Proof/Laws/State.lean ====
section
/-! SUPPORT. Each named update of the block and each field of it that the update leaves alone: one lemma per field per update, so
that no later proof unfolds a record update. -/

namespace Sys2Proof.Machine

variable (d : Dev)

@[simp] theorem setHdr_sys (p : Nat) (h : Hdr) : (setHdr d p h).sys = d.sys := rfl
@[simp] theorem setHdr_parts (p : Nat) (h : Hdr) : (setHdr d p h).parts = d.parts := rfl
@[simp] theorem setHdr_sup (p : Nat) (h : Hdr) : (setHdr d p h).sup = d.sup := rfl
@[simp] theorem setHdr_lant (p : Nat) (h : Hdr) : (setHdr d p h).lant = d.lant := rfl
@[simp] theorem setHdr_fuse (p : Nat) (h : Hdr) : (setHdr d p h).fuse = d.fuse := rfl
@[simp] theorem setHdr_nv (p : Nat) (h : Hdr) : (setHdr d p h).nv = d.nv := rfl
@[simp] theorem setHdr_wear (p : Nat) (h : Hdr) : (setHdr d p h).wear = d.wear := rfl
@[simp] theorem setHdr_harts (p : Nat) (h : Hdr) : (setHdr d p h).harts = d.harts := rfl
@[simp] theorem setHdr_flt (p : Nat) (h : Hdr) : (setHdr d p h).flt = d.flt := rfl
@[simp] theorem setHdr_raised (p : Nat) (h : Hdr) : (setHdr d p h).raised = d.raised := rfl
@[simp] theorem setHdr_hearth (p : Nat) (h : Hdr) : (setHdr d p h).hearth = d.hearth := rfl
@[simp] theorem setHdr_irq (p : Nat) (h : Hdr) : (setHdr d p h).irq = d.irq := rfl
@[simp] theorem setHdr_dma (p : Nat) (h : Hdr) : (setHdr d p h).dma = d.dma := rfl
@[simp] theorem setHdr_gpio (p : Nat) (h : Hdr) : (setHdr d p h).gpio = d.gpio := rfl
@[simp] theorem setHdr_tamp (p : Nat) (h : Hdr) : (setHdr d p h).tamp = d.tamp := rfl
@[simp] theorem setHdr_lc (p : Nat) (h : Hdr) : (setHdr d p h).lc = d.lc := rfl
@[simp] theorem setHdr_evr (p : Nat) (h : Hdr) : (setHdr d p h).evr = d.evr := rfl
@[simp] theorem setHdr_host (p : Nat) (h : Hdr) : (setHdr d p h).host = d.host := rfl
@[simp] theorem setHdr_ent (p : Nat) (h : Hdr) : (setHdr d p h).ent = d.ent := rfl
@[simp] theorem setHdr_mpe (p : Nat) (h : Hdr) : (setHdr d p h).mpe = d.mpe := rfl
@[simp] theorem setHdr_key (p : Nat) (h : Hdr) : (setHdr d p h).key = d.key := rfl
@[simp] theorem setHdr_cmd (p : Nat) (h : Hdr) : (setHdr d p h).cmd = d.cmd := rfl
@[simp] theorem setHdr_units (p : Nat) (h : Hdr) : (setHdr d p h).units = d.units := rfl
@[simp] theorem setHdr_mgr (p : Nat) (h : Hdr) : (setHdr d p h).mgr = d.mgr := rfl
@[simp] theorem setHdr_ofc (p : Nat) (h : Hdr) : (setHdr d p h).ofc = d.ofc := rfl
@[simp] theorem setHdr_regs (p : Nat) (h : Hdr) : (setHdr d p h).regs = d.regs := rfl
@[simp] theorem setHdr_shadow (p : Nat) (h : Hdr) : (setHdr d p h).shadow = d.shadow := rfl
@[simp] theorem setHdr_mem (p : Nat) (h : Hdr) : (setHdr d p h).mem = d.mem := rfl
@[simp] theorem setHdr_out (p : Nat) (h : Hdr) : (setHdr d p h).out = d.out := rfl
@[simp] theorem setHdr_bus (p : Nat) (h : Hdr) : (setHdr d p h).bus = d.bus := rfl
@[simp] theorem setHdr_now (p : Nat) (h : Hdr) : (setHdr d p h).now = d.now := rfl
@[simp] theorem setHdr_fresh (p : Nat) (h : Hdr) : (setHdr d p h).fresh = d.fresh := rfl

@[simp] theorem modHdr_sys (p : Nat) (f : Hdr → Hdr) : (modHdr d p f).sys = d.sys := rfl
@[simp] theorem modHdr_parts (p : Nat) (f : Hdr → Hdr) : (modHdr d p f).parts = d.parts := rfl
@[simp] theorem modHdr_sup (p : Nat) (f : Hdr → Hdr) : (modHdr d p f).sup = d.sup := rfl
@[simp] theorem modHdr_lant (p : Nat) (f : Hdr → Hdr) : (modHdr d p f).lant = d.lant := rfl
@[simp] theorem modHdr_fuse (p : Nat) (f : Hdr → Hdr) : (modHdr d p f).fuse = d.fuse := rfl
@[simp] theorem modHdr_nv (p : Nat) (f : Hdr → Hdr) : (modHdr d p f).nv = d.nv := rfl
@[simp] theorem modHdr_wear (p : Nat) (f : Hdr → Hdr) : (modHdr d p f).wear = d.wear := rfl
@[simp] theorem modHdr_harts (p : Nat) (f : Hdr → Hdr) : (modHdr d p f).harts = d.harts := rfl
@[simp] theorem modHdr_flt (p : Nat) (f : Hdr → Hdr) : (modHdr d p f).flt = d.flt := rfl
@[simp] theorem modHdr_raised (p : Nat) (f : Hdr → Hdr) : (modHdr d p f).raised = d.raised := rfl
@[simp] theorem modHdr_hearth (p : Nat) (f : Hdr → Hdr) : (modHdr d p f).hearth = d.hearth := rfl
@[simp] theorem modHdr_irq (p : Nat) (f : Hdr → Hdr) : (modHdr d p f).irq = d.irq := rfl
@[simp] theorem modHdr_dma (p : Nat) (f : Hdr → Hdr) : (modHdr d p f).dma = d.dma := rfl
@[simp] theorem modHdr_gpio (p : Nat) (f : Hdr → Hdr) : (modHdr d p f).gpio = d.gpio := rfl
@[simp] theorem modHdr_tamp (p : Nat) (f : Hdr → Hdr) : (modHdr d p f).tamp = d.tamp := rfl
@[simp] theorem modHdr_lc (p : Nat) (f : Hdr → Hdr) : (modHdr d p f).lc = d.lc := rfl
@[simp] theorem modHdr_evr (p : Nat) (f : Hdr → Hdr) : (modHdr d p f).evr = d.evr := rfl
@[simp] theorem modHdr_host (p : Nat) (f : Hdr → Hdr) : (modHdr d p f).host = d.host := rfl
@[simp] theorem modHdr_ent (p : Nat) (f : Hdr → Hdr) : (modHdr d p f).ent = d.ent := rfl
@[simp] theorem modHdr_mpe (p : Nat) (f : Hdr → Hdr) : (modHdr d p f).mpe = d.mpe := rfl
@[simp] theorem modHdr_key (p : Nat) (f : Hdr → Hdr) : (modHdr d p f).key = d.key := rfl
@[simp] theorem modHdr_cmd (p : Nat) (f : Hdr → Hdr) : (modHdr d p f).cmd = d.cmd := rfl
@[simp] theorem modHdr_units (p : Nat) (f : Hdr → Hdr) : (modHdr d p f).units = d.units := rfl
@[simp] theorem modHdr_mgr (p : Nat) (f : Hdr → Hdr) : (modHdr d p f).mgr = d.mgr := rfl
@[simp] theorem modHdr_ofc (p : Nat) (f : Hdr → Hdr) : (modHdr d p f).ofc = d.ofc := rfl
@[simp] theorem modHdr_regs (p : Nat) (f : Hdr → Hdr) : (modHdr d p f).regs = d.regs := rfl
@[simp] theorem modHdr_shadow (p : Nat) (f : Hdr → Hdr) : (modHdr d p f).shadow = d.shadow := rfl
@[simp] theorem modHdr_mem (p : Nat) (f : Hdr → Hdr) : (modHdr d p f).mem = d.mem := rfl
@[simp] theorem modHdr_out (p : Nat) (f : Hdr → Hdr) : (modHdr d p f).out = d.out := rfl
@[simp] theorem modHdr_bus (p : Nat) (f : Hdr → Hdr) : (modHdr d p f).bus = d.bus := rfl
@[simp] theorem modHdr_now (p : Nat) (f : Hdr → Hdr) : (modHdr d p f).now = d.now := rfl
@[simp] theorem modHdr_fresh (p : Nat) (f : Hdr → Hdr) : (modHdr d p f).fresh = d.fresh := rfl

@[simp] theorem regPut_sys (p off v : Nat) : (regPut d p off v).sys = d.sys := rfl
@[simp] theorem regPut_parts (p off v : Nat) : (regPut d p off v).parts = d.parts := rfl
@[simp] theorem regPut_sup (p off v : Nat) : (regPut d p off v).sup = d.sup := rfl
@[simp] theorem regPut_lant (p off v : Nat) : (regPut d p off v).lant = d.lant := rfl
@[simp] theorem regPut_fuse (p off v : Nat) : (regPut d p off v).fuse = d.fuse := rfl
@[simp] theorem regPut_nv (p off v : Nat) : (regPut d p off v).nv = d.nv := rfl
@[simp] theorem regPut_wear (p off v : Nat) : (regPut d p off v).wear = d.wear := rfl
@[simp] theorem regPut_harts (p off v : Nat) : (regPut d p off v).harts = d.harts := rfl
@[simp] theorem regPut_flt (p off v : Nat) : (regPut d p off v).flt = d.flt := rfl
@[simp] theorem regPut_raised (p off v : Nat) : (regPut d p off v).raised = d.raised := rfl
@[simp] theorem regPut_hearth (p off v : Nat) : (regPut d p off v).hearth = d.hearth := rfl
@[simp] theorem regPut_irq (p off v : Nat) : (regPut d p off v).irq = d.irq := rfl
@[simp] theorem regPut_dma (p off v : Nat) : (regPut d p off v).dma = d.dma := rfl
@[simp] theorem regPut_gpio (p off v : Nat) : (regPut d p off v).gpio = d.gpio := rfl
@[simp] theorem regPut_tamp (p off v : Nat) : (regPut d p off v).tamp = d.tamp := rfl
@[simp] theorem regPut_lc (p off v : Nat) : (regPut d p off v).lc = d.lc := rfl
@[simp] theorem regPut_evr (p off v : Nat) : (regPut d p off v).evr = d.evr := rfl
@[simp] theorem regPut_host (p off v : Nat) : (regPut d p off v).host = d.host := rfl
@[simp] theorem regPut_ent (p off v : Nat) : (regPut d p off v).ent = d.ent := rfl
@[simp] theorem regPut_mpe (p off v : Nat) : (regPut d p off v).mpe = d.mpe := rfl
@[simp] theorem regPut_key (p off v : Nat) : (regPut d p off v).key = d.key := rfl
@[simp] theorem regPut_cmd (p off v : Nat) : (regPut d p off v).cmd = d.cmd := rfl
@[simp] theorem regPut_units (p off v : Nat) : (regPut d p off v).units = d.units := rfl
@[simp] theorem regPut_mgr (p off v : Nat) : (regPut d p off v).mgr = d.mgr := rfl
@[simp] theorem regPut_ofc (p off v : Nat) : (regPut d p off v).ofc = d.ofc := rfl
@[simp] theorem regPut_hdr (p off v : Nat) : (regPut d p off v).hdr = d.hdr := rfl
@[simp] theorem regPut_shadow (p off v : Nat) : (regPut d p off v).shadow = d.shadow := rfl
@[simp] theorem regPut_mem (p off v : Nat) : (regPut d p off v).mem = d.mem := rfl
@[simp] theorem regPut_out (p off v : Nat) : (regPut d p off v).out = d.out := rfl
@[simp] theorem regPut_bus (p off v : Nat) : (regPut d p off v).bus = d.bus := rfl
@[simp] theorem regPut_now (p off v : Nat) : (regPut d p off v).now = d.now := rfl
@[simp] theorem regPut_fresh (p off v : Nat) : (regPut d p off v).fresh = d.fresh := rfl

@[simp] theorem setFld_sys (p : Nat) (f : Fld) (v : Nat) : (setFld d p f v).sys = d.sys := rfl
@[simp] theorem setFld_parts (p : Nat) (f : Fld) (v : Nat) : (setFld d p f v).parts = d.parts := rfl
@[simp] theorem setFld_sup (p : Nat) (f : Fld) (v : Nat) : (setFld d p f v).sup = d.sup := rfl
@[simp] theorem setFld_lant (p : Nat) (f : Fld) (v : Nat) : (setFld d p f v).lant = d.lant := rfl
@[simp] theorem setFld_fuse (p : Nat) (f : Fld) (v : Nat) : (setFld d p f v).fuse = d.fuse := rfl
@[simp] theorem setFld_nv (p : Nat) (f : Fld) (v : Nat) : (setFld d p f v).nv = d.nv := rfl
@[simp] theorem setFld_wear (p : Nat) (f : Fld) (v : Nat) : (setFld d p f v).wear = d.wear := rfl
@[simp] theorem setFld_harts (p : Nat) (f : Fld) (v : Nat) : (setFld d p f v).harts = d.harts := rfl
@[simp] theorem setFld_flt (p : Nat) (f : Fld) (v : Nat) : (setFld d p f v).flt = d.flt := rfl
@[simp] theorem setFld_raised (p : Nat) (f : Fld) (v : Nat) : (setFld d p f v).raised = d.raised := rfl
@[simp] theorem setFld_hearth (p : Nat) (f : Fld) (v : Nat) : (setFld d p f v).hearth = d.hearth := rfl
@[simp] theorem setFld_irq (p : Nat) (f : Fld) (v : Nat) : (setFld d p f v).irq = d.irq := rfl
@[simp] theorem setFld_dma (p : Nat) (f : Fld) (v : Nat) : (setFld d p f v).dma = d.dma := rfl
@[simp] theorem setFld_gpio (p : Nat) (f : Fld) (v : Nat) : (setFld d p f v).gpio = d.gpio := rfl
@[simp] theorem setFld_tamp (p : Nat) (f : Fld) (v : Nat) : (setFld d p f v).tamp = d.tamp := rfl
@[simp] theorem setFld_lc (p : Nat) (f : Fld) (v : Nat) : (setFld d p f v).lc = d.lc := rfl
@[simp] theorem setFld_evr (p : Nat) (f : Fld) (v : Nat) : (setFld d p f v).evr = d.evr := rfl
@[simp] theorem setFld_host (p : Nat) (f : Fld) (v : Nat) : (setFld d p f v).host = d.host := rfl
@[simp] theorem setFld_ent (p : Nat) (f : Fld) (v : Nat) : (setFld d p f v).ent = d.ent := rfl
@[simp] theorem setFld_mpe (p : Nat) (f : Fld) (v : Nat) : (setFld d p f v).mpe = d.mpe := rfl
@[simp] theorem setFld_key (p : Nat) (f : Fld) (v : Nat) : (setFld d p f v).key = d.key := rfl
@[simp] theorem setFld_cmd (p : Nat) (f : Fld) (v : Nat) : (setFld d p f v).cmd = d.cmd := rfl
@[simp] theorem setFld_units (p : Nat) (f : Fld) (v : Nat) : (setFld d p f v).units = d.units := rfl
@[simp] theorem setFld_mgr (p : Nat) (f : Fld) (v : Nat) : (setFld d p f v).mgr = d.mgr := rfl
@[simp] theorem setFld_ofc (p : Nat) (f : Fld) (v : Nat) : (setFld d p f v).ofc = d.ofc := rfl
@[simp] theorem setFld_hdr (p : Nat) (f : Fld) (v : Nat) : (setFld d p f v).hdr = d.hdr := rfl
@[simp] theorem setFld_shadow (p : Nat) (f : Fld) (v : Nat) : (setFld d p f v).shadow = d.shadow := rfl
@[simp] theorem setFld_mem (p : Nat) (f : Fld) (v : Nat) : (setFld d p f v).mem = d.mem := rfl
@[simp] theorem setFld_out (p : Nat) (f : Fld) (v : Nat) : (setFld d p f v).out = d.out := rfl
@[simp] theorem setFld_bus (p : Nat) (f : Fld) (v : Nat) : (setFld d p f v).bus = d.bus := rfl
@[simp] theorem setFld_now (p : Nat) (f : Fld) (v : Nat) : (setFld d p f v).now = d.now := rfl
@[simp] theorem setFld_fresh (p : Nat) (f : Fld) (v : Nat) : (setFld d p f v).fresh = d.fresh := rfl

@[simp] theorem satFld_sys (p : Nat) (f : Fld) (n : Nat) : (satFld d p f n).sys = d.sys := rfl
@[simp] theorem satFld_parts (p : Nat) (f : Fld) (n : Nat) : (satFld d p f n).parts = d.parts := rfl
@[simp] theorem satFld_sup (p : Nat) (f : Fld) (n : Nat) : (satFld d p f n).sup = d.sup := rfl
@[simp] theorem satFld_lant (p : Nat) (f : Fld) (n : Nat) : (satFld d p f n).lant = d.lant := rfl
@[simp] theorem satFld_fuse (p : Nat) (f : Fld) (n : Nat) : (satFld d p f n).fuse = d.fuse := rfl
@[simp] theorem satFld_nv (p : Nat) (f : Fld) (n : Nat) : (satFld d p f n).nv = d.nv := rfl
@[simp] theorem satFld_wear (p : Nat) (f : Fld) (n : Nat) : (satFld d p f n).wear = d.wear := rfl
@[simp] theorem satFld_harts (p : Nat) (f : Fld) (n : Nat) : (satFld d p f n).harts = d.harts := rfl
@[simp] theorem satFld_flt (p : Nat) (f : Fld) (n : Nat) : (satFld d p f n).flt = d.flt := rfl
@[simp] theorem satFld_raised (p : Nat) (f : Fld) (n : Nat) : (satFld d p f n).raised = d.raised := rfl
@[simp] theorem satFld_hearth (p : Nat) (f : Fld) (n : Nat) : (satFld d p f n).hearth = d.hearth := rfl
@[simp] theorem satFld_irq (p : Nat) (f : Fld) (n : Nat) : (satFld d p f n).irq = d.irq := rfl
@[simp] theorem satFld_dma (p : Nat) (f : Fld) (n : Nat) : (satFld d p f n).dma = d.dma := rfl
@[simp] theorem satFld_gpio (p : Nat) (f : Fld) (n : Nat) : (satFld d p f n).gpio = d.gpio := rfl
@[simp] theorem satFld_tamp (p : Nat) (f : Fld) (n : Nat) : (satFld d p f n).tamp = d.tamp := rfl
@[simp] theorem satFld_lc (p : Nat) (f : Fld) (n : Nat) : (satFld d p f n).lc = d.lc := rfl
@[simp] theorem satFld_evr (p : Nat) (f : Fld) (n : Nat) : (satFld d p f n).evr = d.evr := rfl
@[simp] theorem satFld_host (p : Nat) (f : Fld) (n : Nat) : (satFld d p f n).host = d.host := rfl
@[simp] theorem satFld_ent (p : Nat) (f : Fld) (n : Nat) : (satFld d p f n).ent = d.ent := rfl
@[simp] theorem satFld_mpe (p : Nat) (f : Fld) (n : Nat) : (satFld d p f n).mpe = d.mpe := rfl
@[simp] theorem satFld_key (p : Nat) (f : Fld) (n : Nat) : (satFld d p f n).key = d.key := rfl
@[simp] theorem satFld_cmd (p : Nat) (f : Fld) (n : Nat) : (satFld d p f n).cmd = d.cmd := rfl
@[simp] theorem satFld_units (p : Nat) (f : Fld) (n : Nat) : (satFld d p f n).units = d.units := rfl
@[simp] theorem satFld_mgr (p : Nat) (f : Fld) (n : Nat) : (satFld d p f n).mgr = d.mgr := rfl
@[simp] theorem satFld_ofc (p : Nat) (f : Fld) (n : Nat) : (satFld d p f n).ofc = d.ofc := rfl
@[simp] theorem satFld_hdr (p : Nat) (f : Fld) (n : Nat) : (satFld d p f n).hdr = d.hdr := rfl
@[simp] theorem satFld_shadow (p : Nat) (f : Fld) (n : Nat) : (satFld d p f n).shadow = d.shadow := rfl
@[simp] theorem satFld_mem (p : Nat) (f : Fld) (n : Nat) : (satFld d p f n).mem = d.mem := rfl
@[simp] theorem satFld_out (p : Nat) (f : Fld) (n : Nat) : (satFld d p f n).out = d.out := rfl
@[simp] theorem satFld_bus (p : Nat) (f : Fld) (n : Nat) : (satFld d p f n).bus = d.bus := rfl
@[simp] theorem satFld_now (p : Nat) (f : Fld) (n : Nat) : (satFld d p f n).now = d.now := rfl
@[simp] theorem satFld_fresh (p : Nat) (f : Fld) (n : Nat) : (satFld d p f n).fresh = d.fresh := rfl

@[simp] theorem wrapFld_sys (p : Nat) (f : Fld) (n : Nat) : (wrapFld d p f n).sys = d.sys := rfl
@[simp] theorem wrapFld_parts (p : Nat) (f : Fld) (n : Nat) : (wrapFld d p f n).parts = d.parts := rfl
@[simp] theorem wrapFld_sup (p : Nat) (f : Fld) (n : Nat) : (wrapFld d p f n).sup = d.sup := rfl
@[simp] theorem wrapFld_lant (p : Nat) (f : Fld) (n : Nat) : (wrapFld d p f n).lant = d.lant := rfl
@[simp] theorem wrapFld_fuse (p : Nat) (f : Fld) (n : Nat) : (wrapFld d p f n).fuse = d.fuse := rfl
@[simp] theorem wrapFld_nv (p : Nat) (f : Fld) (n : Nat) : (wrapFld d p f n).nv = d.nv := rfl
@[simp] theorem wrapFld_wear (p : Nat) (f : Fld) (n : Nat) : (wrapFld d p f n).wear = d.wear := rfl
@[simp] theorem wrapFld_harts (p : Nat) (f : Fld) (n : Nat) : (wrapFld d p f n).harts = d.harts := rfl
@[simp] theorem wrapFld_flt (p : Nat) (f : Fld) (n : Nat) : (wrapFld d p f n).flt = d.flt := rfl
@[simp] theorem wrapFld_raised (p : Nat) (f : Fld) (n : Nat) : (wrapFld d p f n).raised = d.raised := rfl
@[simp] theorem wrapFld_hearth (p : Nat) (f : Fld) (n : Nat) : (wrapFld d p f n).hearth = d.hearth := rfl
@[simp] theorem wrapFld_irq (p : Nat) (f : Fld) (n : Nat) : (wrapFld d p f n).irq = d.irq := rfl
@[simp] theorem wrapFld_dma (p : Nat) (f : Fld) (n : Nat) : (wrapFld d p f n).dma = d.dma := rfl
@[simp] theorem wrapFld_gpio (p : Nat) (f : Fld) (n : Nat) : (wrapFld d p f n).gpio = d.gpio := rfl
@[simp] theorem wrapFld_tamp (p : Nat) (f : Fld) (n : Nat) : (wrapFld d p f n).tamp = d.tamp := rfl
@[simp] theorem wrapFld_lc (p : Nat) (f : Fld) (n : Nat) : (wrapFld d p f n).lc = d.lc := rfl
@[simp] theorem wrapFld_evr (p : Nat) (f : Fld) (n : Nat) : (wrapFld d p f n).evr = d.evr := rfl
@[simp] theorem wrapFld_host (p : Nat) (f : Fld) (n : Nat) : (wrapFld d p f n).host = d.host := rfl
@[simp] theorem wrapFld_ent (p : Nat) (f : Fld) (n : Nat) : (wrapFld d p f n).ent = d.ent := rfl
@[simp] theorem wrapFld_mpe (p : Nat) (f : Fld) (n : Nat) : (wrapFld d p f n).mpe = d.mpe := rfl
@[simp] theorem wrapFld_key (p : Nat) (f : Fld) (n : Nat) : (wrapFld d p f n).key = d.key := rfl
@[simp] theorem wrapFld_cmd (p : Nat) (f : Fld) (n : Nat) : (wrapFld d p f n).cmd = d.cmd := rfl
@[simp] theorem wrapFld_units (p : Nat) (f : Fld) (n : Nat) : (wrapFld d p f n).units = d.units := rfl
@[simp] theorem wrapFld_mgr (p : Nat) (f : Fld) (n : Nat) : (wrapFld d p f n).mgr = d.mgr := rfl
@[simp] theorem wrapFld_ofc (p : Nat) (f : Fld) (n : Nat) : (wrapFld d p f n).ofc = d.ofc := rfl
@[simp] theorem wrapFld_hdr (p : Nat) (f : Fld) (n : Nat) : (wrapFld d p f n).hdr = d.hdr := rfl
@[simp] theorem wrapFld_shadow (p : Nat) (f : Fld) (n : Nat) : (wrapFld d p f n).shadow = d.shadow := rfl
@[simp] theorem wrapFld_mem (p : Nat) (f : Fld) (n : Nat) : (wrapFld d p f n).mem = d.mem := rfl
@[simp] theorem wrapFld_out (p : Nat) (f : Fld) (n : Nat) : (wrapFld d p f n).out = d.out := rfl
@[simp] theorem wrapFld_bus (p : Nat) (f : Fld) (n : Nat) : (wrapFld d p f n).bus = d.bus := rfl
@[simp] theorem wrapFld_now (p : Nat) (f : Fld) (n : Nat) : (wrapFld d p f n).now = d.now := rfl
@[simp] theorem wrapFld_fresh (p : Nat) (f : Fld) (n : Nat) : (wrapFld d p f n).fresh = d.fresh := rfl

@[simp] theorem waitUntil_sys (t : Nat) : (waitUntil t d).sys = d.sys := rfl
@[simp] theorem waitUntil_parts (t : Nat) : (waitUntil t d).parts = d.parts := rfl
@[simp] theorem waitUntil_sup (t : Nat) : (waitUntil t d).sup = d.sup := rfl
@[simp] theorem waitUntil_lant (t : Nat) : (waitUntil t d).lant = d.lant := rfl
@[simp] theorem waitUntil_fuse (t : Nat) : (waitUntil t d).fuse = d.fuse := rfl
@[simp] theorem waitUntil_nv (t : Nat) : (waitUntil t d).nv = d.nv := rfl
@[simp] theorem waitUntil_wear (t : Nat) : (waitUntil t d).wear = d.wear := rfl
@[simp] theorem waitUntil_harts (t : Nat) : (waitUntil t d).harts = d.harts := rfl
@[simp] theorem waitUntil_flt (t : Nat) : (waitUntil t d).flt = d.flt := rfl
@[simp] theorem waitUntil_raised (t : Nat) : (waitUntil t d).raised = d.raised := rfl
@[simp] theorem waitUntil_hearth (t : Nat) : (waitUntil t d).hearth = d.hearth := rfl
@[simp] theorem waitUntil_irq (t : Nat) : (waitUntil t d).irq = d.irq := rfl
@[simp] theorem waitUntil_dma (t : Nat) : (waitUntil t d).dma = d.dma := rfl
@[simp] theorem waitUntil_gpio (t : Nat) : (waitUntil t d).gpio = d.gpio := rfl
@[simp] theorem waitUntil_tamp (t : Nat) : (waitUntil t d).tamp = d.tamp := rfl
@[simp] theorem waitUntil_lc (t : Nat) : (waitUntil t d).lc = d.lc := rfl
@[simp] theorem waitUntil_evr (t : Nat) : (waitUntil t d).evr = d.evr := rfl
@[simp] theorem waitUntil_host (t : Nat) : (waitUntil t d).host = d.host := rfl
@[simp] theorem waitUntil_ent (t : Nat) : (waitUntil t d).ent = d.ent := rfl
@[simp] theorem waitUntil_mpe (t : Nat) : (waitUntil t d).mpe = d.mpe := rfl
@[simp] theorem waitUntil_key (t : Nat) : (waitUntil t d).key = d.key := rfl
@[simp] theorem waitUntil_cmd (t : Nat) : (waitUntil t d).cmd = d.cmd := rfl
@[simp] theorem waitUntil_units (t : Nat) : (waitUntil t d).units = d.units := rfl
@[simp] theorem waitUntil_mgr (t : Nat) : (waitUntil t d).mgr = d.mgr := rfl
@[simp] theorem waitUntil_ofc (t : Nat) : (waitUntil t d).ofc = d.ofc := rfl
@[simp] theorem waitUntil_hdr (t : Nat) : (waitUntil t d).hdr = d.hdr := rfl
@[simp] theorem waitUntil_regs (t : Nat) : (waitUntil t d).regs = d.regs := rfl
@[simp] theorem waitUntil_shadow (t : Nat) : (waitUntil t d).shadow = d.shadow := rfl
@[simp] theorem waitUntil_mem (t : Nat) : (waitUntil t d).mem = d.mem := rfl
@[simp] theorem waitUntil_out (t : Nat) : (waitUntil t d).out = d.out := rfl
@[simp] theorem waitUntil_bus (t : Nat) : (waitUntil t d).bus = d.bus := rfl
@[simp] theorem waitUntil_fresh (t : Nat) : (waitUntil t d).fresh = d.fresh := rfl

@[simp] theorem emit_sys (e : OutEv) : (emit e d).sys = d.sys := rfl
@[simp] theorem emit_parts (e : OutEv) : (emit e d).parts = d.parts := rfl
@[simp] theorem emit_sup (e : OutEv) : (emit e d).sup = d.sup := rfl
@[simp] theorem emit_lant (e : OutEv) : (emit e d).lant = d.lant := rfl
@[simp] theorem emit_fuse (e : OutEv) : (emit e d).fuse = d.fuse := rfl
@[simp] theorem emit_nv (e : OutEv) : (emit e d).nv = d.nv := rfl
@[simp] theorem emit_wear (e : OutEv) : (emit e d).wear = d.wear := rfl
@[simp] theorem emit_harts (e : OutEv) : (emit e d).harts = d.harts := rfl
@[simp] theorem emit_flt (e : OutEv) : (emit e d).flt = d.flt := rfl
@[simp] theorem emit_raised (e : OutEv) : (emit e d).raised = d.raised := rfl
@[simp] theorem emit_hearth (e : OutEv) : (emit e d).hearth = d.hearth := rfl
@[simp] theorem emit_irq (e : OutEv) : (emit e d).irq = d.irq := rfl
@[simp] theorem emit_dma (e : OutEv) : (emit e d).dma = d.dma := rfl
@[simp] theorem emit_gpio (e : OutEv) : (emit e d).gpio = d.gpio := rfl
@[simp] theorem emit_tamp (e : OutEv) : (emit e d).tamp = d.tamp := rfl
@[simp] theorem emit_lc (e : OutEv) : (emit e d).lc = d.lc := rfl
@[simp] theorem emit_evr (e : OutEv) : (emit e d).evr = d.evr := rfl
@[simp] theorem emit_host (e : OutEv) : (emit e d).host = d.host := rfl
@[simp] theorem emit_ent (e : OutEv) : (emit e d).ent = d.ent := rfl
@[simp] theorem emit_mpe (e : OutEv) : (emit e d).mpe = d.mpe := rfl
@[simp] theorem emit_key (e : OutEv) : (emit e d).key = d.key := rfl
@[simp] theorem emit_cmd (e : OutEv) : (emit e d).cmd = d.cmd := rfl
@[simp] theorem emit_units (e : OutEv) : (emit e d).units = d.units := rfl
@[simp] theorem emit_mgr (e : OutEv) : (emit e d).mgr = d.mgr := rfl
@[simp] theorem emit_ofc (e : OutEv) : (emit e d).ofc = d.ofc := rfl
@[simp] theorem emit_hdr (e : OutEv) : (emit e d).hdr = d.hdr := rfl
@[simp] theorem emit_regs (e : OutEv) : (emit e d).regs = d.regs := rfl
@[simp] theorem emit_shadow (e : OutEv) : (emit e d).shadow = d.shadow := rfl
@[simp] theorem emit_mem (e : OutEv) : (emit e d).mem = d.mem := rfl
@[simp] theorem emit_bus (e : OutEv) : (emit e d).bus = d.bus := rfl
@[simp] theorem emit_now (e : OutEv) : (emit e d).now = d.now := rfl
@[simp] theorem emit_fresh (e : OutEv) : (emit e d).fresh = d.fresh := rfl

@[simp] theorem modFn_sys (l n : Nat) (f : FnSt → FnSt) : (modFn d l n f).sys = d.sys := rfl
@[simp] theorem modFn_parts (l n : Nat) (f : FnSt → FnSt) : (modFn d l n f).parts = d.parts := rfl
@[simp] theorem modFn_sup (l n : Nat) (f : FnSt → FnSt) : (modFn d l n f).sup = d.sup := rfl
@[simp] theorem modFn_lant (l n : Nat) (f : FnSt → FnSt) : (modFn d l n f).lant = d.lant := rfl
@[simp] theorem modFn_fuse (l n : Nat) (f : FnSt → FnSt) : (modFn d l n f).fuse = d.fuse := rfl
@[simp] theorem modFn_nv (l n : Nat) (f : FnSt → FnSt) : (modFn d l n f).nv = d.nv := rfl
@[simp] theorem modFn_wear (l n : Nat) (f : FnSt → FnSt) : (modFn d l n f).wear = d.wear := rfl
@[simp] theorem modFn_harts (l n : Nat) (f : FnSt → FnSt) : (modFn d l n f).harts = d.harts := rfl
@[simp] theorem modFn_flt (l n : Nat) (f : FnSt → FnSt) : (modFn d l n f).flt = d.flt := rfl
@[simp] theorem modFn_raised (l n : Nat) (f : FnSt → FnSt) : (modFn d l n f).raised = d.raised := rfl
@[simp] theorem modFn_hearth (l n : Nat) (f : FnSt → FnSt) : (modFn d l n f).hearth = d.hearth := rfl
@[simp] theorem modFn_irq (l n : Nat) (f : FnSt → FnSt) : (modFn d l n f).irq = d.irq := rfl
@[simp] theorem modFn_dma (l n : Nat) (f : FnSt → FnSt) : (modFn d l n f).dma = d.dma := rfl
@[simp] theorem modFn_gpio (l n : Nat) (f : FnSt → FnSt) : (modFn d l n f).gpio = d.gpio := rfl
@[simp] theorem modFn_tamp (l n : Nat) (f : FnSt → FnSt) : (modFn d l n f).tamp = d.tamp := rfl
@[simp] theorem modFn_lc (l n : Nat) (f : FnSt → FnSt) : (modFn d l n f).lc = d.lc := rfl
@[simp] theorem modFn_evr (l n : Nat) (f : FnSt → FnSt) : (modFn d l n f).evr = d.evr := rfl
@[simp] theorem modFn_ent (l n : Nat) (f : FnSt → FnSt) : (modFn d l n f).ent = d.ent := rfl
@[simp] theorem modFn_mpe (l n : Nat) (f : FnSt → FnSt) : (modFn d l n f).mpe = d.mpe := rfl
@[simp] theorem modFn_key (l n : Nat) (f : FnSt → FnSt) : (modFn d l n f).key = d.key := rfl
@[simp] theorem modFn_cmd (l n : Nat) (f : FnSt → FnSt) : (modFn d l n f).cmd = d.cmd := rfl
@[simp] theorem modFn_units (l n : Nat) (f : FnSt → FnSt) : (modFn d l n f).units = d.units := rfl
@[simp] theorem modFn_mgr (l n : Nat) (f : FnSt → FnSt) : (modFn d l n f).mgr = d.mgr := rfl
@[simp] theorem modFn_ofc (l n : Nat) (f : FnSt → FnSt) : (modFn d l n f).ofc = d.ofc := rfl
@[simp] theorem modFn_hdr (l n : Nat) (f : FnSt → FnSt) : (modFn d l n f).hdr = d.hdr := rfl
@[simp] theorem modFn_regs (l n : Nat) (f : FnSt → FnSt) : (modFn d l n f).regs = d.regs := rfl
@[simp] theorem modFn_shadow (l n : Nat) (f : FnSt → FnSt) : (modFn d l n f).shadow = d.shadow := rfl
@[simp] theorem modFn_mem (l n : Nat) (f : FnSt → FnSt) : (modFn d l n f).mem = d.mem := rfl
@[simp] theorem modFn_out (l n : Nat) (f : FnSt → FnSt) : (modFn d l n f).out = d.out := rfl
@[simp] theorem modFn_bus (l n : Nat) (f : FnSt → FnSt) : (modFn d l n f).bus = d.bus := rfl
@[simp] theorem modFn_now (l n : Nat) (f : FnSt → FnSt) : (modFn d l n f).now = d.now := rfl
@[simp] theorem modFn_fresh (l n : Nat) (f : FnSt → FnSt) : (modFn d l n f).fresh = d.fresh := rfl

@[simp] theorem modQuarter_sys (q : Nat) (f : Quarter → Quarter) : (modQuarter d q f).sys = d.sys := rfl
@[simp] theorem modQuarter_parts (q : Nat) (f : Quarter → Quarter) : (modQuarter d q f).parts = d.parts := rfl
@[simp] theorem modQuarter_sup (q : Nat) (f : Quarter → Quarter) : (modQuarter d q f).sup = d.sup := rfl
@[simp] theorem modQuarter_lant (q : Nat) (f : Quarter → Quarter) : (modQuarter d q f).lant = d.lant := rfl
@[simp] theorem modQuarter_fuse (q : Nat) (f : Quarter → Quarter) : (modQuarter d q f).fuse = d.fuse := rfl
@[simp] theorem modQuarter_nv (q : Nat) (f : Quarter → Quarter) : (modQuarter d q f).nv = d.nv := rfl
@[simp] theorem modQuarter_wear (q : Nat) (f : Quarter → Quarter) : (modQuarter d q f).wear = d.wear := rfl
@[simp] theorem modQuarter_harts (q : Nat) (f : Quarter → Quarter) : (modQuarter d q f).harts = d.harts := rfl
@[simp] theorem modQuarter_flt (q : Nat) (f : Quarter → Quarter) : (modQuarter d q f).flt = d.flt := rfl
@[simp] theorem modQuarter_raised (q : Nat) (f : Quarter → Quarter) : (modQuarter d q f).raised = d.raised := rfl
@[simp] theorem modQuarter_irq (q : Nat) (f : Quarter → Quarter) : (modQuarter d q f).irq = d.irq := rfl
@[simp] theorem modQuarter_dma (q : Nat) (f : Quarter → Quarter) : (modQuarter d q f).dma = d.dma := rfl
@[simp] theorem modQuarter_gpio (q : Nat) (f : Quarter → Quarter) : (modQuarter d q f).gpio = d.gpio := rfl
@[simp] theorem modQuarter_tamp (q : Nat) (f : Quarter → Quarter) : (modQuarter d q f).tamp = d.tamp := rfl
@[simp] theorem modQuarter_lc (q : Nat) (f : Quarter → Quarter) : (modQuarter d q f).lc = d.lc := rfl
@[simp] theorem modQuarter_evr (q : Nat) (f : Quarter → Quarter) : (modQuarter d q f).evr = d.evr := rfl
@[simp] theorem modQuarter_host (q : Nat) (f : Quarter → Quarter) : (modQuarter d q f).host = d.host := rfl
@[simp] theorem modQuarter_ent (q : Nat) (f : Quarter → Quarter) : (modQuarter d q f).ent = d.ent := rfl
@[simp] theorem modQuarter_mpe (q : Nat) (f : Quarter → Quarter) : (modQuarter d q f).mpe = d.mpe := rfl
@[simp] theorem modQuarter_key (q : Nat) (f : Quarter → Quarter) : (modQuarter d q f).key = d.key := rfl
@[simp] theorem modQuarter_cmd (q : Nat) (f : Quarter → Quarter) : (modQuarter d q f).cmd = d.cmd := rfl
@[simp] theorem modQuarter_units (q : Nat) (f : Quarter → Quarter) : (modQuarter d q f).units = d.units := rfl
@[simp] theorem modQuarter_mgr (q : Nat) (f : Quarter → Quarter) : (modQuarter d q f).mgr = d.mgr := rfl
@[simp] theorem modQuarter_ofc (q : Nat) (f : Quarter → Quarter) : (modQuarter d q f).ofc = d.ofc := rfl
@[simp] theorem modQuarter_hdr (q : Nat) (f : Quarter → Quarter) : (modQuarter d q f).hdr = d.hdr := rfl
@[simp] theorem modQuarter_regs (q : Nat) (f : Quarter → Quarter) : (modQuarter d q f).regs = d.regs := rfl
@[simp] theorem modQuarter_shadow (q : Nat) (f : Quarter → Quarter) : (modQuarter d q f).shadow = d.shadow := rfl
@[simp] theorem modQuarter_mem (q : Nat) (f : Quarter → Quarter) : (modQuarter d q f).mem = d.mem := rfl
@[simp] theorem modQuarter_out (q : Nat) (f : Quarter → Quarter) : (modQuarter d q f).out = d.out := rfl
@[simp] theorem modQuarter_bus (q : Nat) (f : Quarter → Quarter) : (modQuarter d q f).bus = d.bus := rfl
@[simp] theorem modQuarter_now (q : Nat) (f : Quarter → Quarter) : (modQuarter d q f).now = d.now := rfl
@[simp] theorem modQuarter_fresh (q : Nat) (f : Quarter → Quarter) : (modQuarter d q f).fresh = d.fresh := rfl

@[simp] theorem modHart_sys (h : Nat) (f : Hart → Hart) : (modHart d h f).sys = d.sys := rfl
@[simp] theorem modHart_parts (h : Nat) (f : Hart → Hart) : (modHart d h f).parts = d.parts := rfl
@[simp] theorem modHart_sup (h : Nat) (f : Hart → Hart) : (modHart d h f).sup = d.sup := rfl
@[simp] theorem modHart_lant (h : Nat) (f : Hart → Hart) : (modHart d h f).lant = d.lant := rfl
@[simp] theorem modHart_fuse (h : Nat) (f : Hart → Hart) : (modHart d h f).fuse = d.fuse := rfl
@[simp] theorem modHart_nv (h : Nat) (f : Hart → Hart) : (modHart d h f).nv = d.nv := rfl
@[simp] theorem modHart_wear (h : Nat) (f : Hart → Hart) : (modHart d h f).wear = d.wear := rfl
@[simp] theorem modHart_flt (h : Nat) (f : Hart → Hart) : (modHart d h f).flt = d.flt := rfl
@[simp] theorem modHart_raised (h : Nat) (f : Hart → Hart) : (modHart d h f).raised = d.raised := rfl
@[simp] theorem modHart_hearth (h : Nat) (f : Hart → Hart) : (modHart d h f).hearth = d.hearth := rfl
@[simp] theorem modHart_irq (h : Nat) (f : Hart → Hart) : (modHart d h f).irq = d.irq := rfl
@[simp] theorem modHart_dma (h : Nat) (f : Hart → Hart) : (modHart d h f).dma = d.dma := rfl
@[simp] theorem modHart_gpio (h : Nat) (f : Hart → Hart) : (modHart d h f).gpio = d.gpio := rfl
@[simp] theorem modHart_tamp (h : Nat) (f : Hart → Hart) : (modHart d h f).tamp = d.tamp := rfl
@[simp] theorem modHart_lc (h : Nat) (f : Hart → Hart) : (modHart d h f).lc = d.lc := rfl
@[simp] theorem modHart_evr (h : Nat) (f : Hart → Hart) : (modHart d h f).evr = d.evr := rfl
@[simp] theorem modHart_host (h : Nat) (f : Hart → Hart) : (modHart d h f).host = d.host := rfl
@[simp] theorem modHart_ent (h : Nat) (f : Hart → Hart) : (modHart d h f).ent = d.ent := rfl
@[simp] theorem modHart_mpe (h : Nat) (f : Hart → Hart) : (modHart d h f).mpe = d.mpe := rfl
@[simp] theorem modHart_key (h : Nat) (f : Hart → Hart) : (modHart d h f).key = d.key := rfl
@[simp] theorem modHart_cmd (h : Nat) (f : Hart → Hart) : (modHart d h f).cmd = d.cmd := rfl
@[simp] theorem modHart_units (h : Nat) (f : Hart → Hart) : (modHart d h f).units = d.units := rfl
@[simp] theorem modHart_mgr (h : Nat) (f : Hart → Hart) : (modHart d h f).mgr = d.mgr := rfl
@[simp] theorem modHart_ofc (h : Nat) (f : Hart → Hart) : (modHart d h f).ofc = d.ofc := rfl
@[simp] theorem modHart_hdr (h : Nat) (f : Hart → Hart) : (modHart d h f).hdr = d.hdr := rfl
@[simp] theorem modHart_regs (h : Nat) (f : Hart → Hart) : (modHart d h f).regs = d.regs := rfl
@[simp] theorem modHart_shadow (h : Nat) (f : Hart → Hart) : (modHart d h f).shadow = d.shadow := rfl
@[simp] theorem modHart_mem (h : Nat) (f : Hart → Hart) : (modHart d h f).mem = d.mem := rfl
@[simp] theorem modHart_out (h : Nat) (f : Hart → Hart) : (modHart d h f).out = d.out := rfl
@[simp] theorem modHart_bus (h : Nat) (f : Hart → Hart) : (modHart d h f).bus = d.bus := rfl
@[simp] theorem modHart_now (h : Nat) (f : Hart → Hart) : (modHart d h f).now = d.now := rfl
@[simp] theorem modHart_fresh (h : Nat) (f : Hart → Hart) : (modHart d h f).fresh = d.fresh := rfl

@[simp] theorem dropShadows_sys (p : Nat) : (dropShadows p d).sys = d.sys := rfl
@[simp] theorem dropShadows_parts (p : Nat) : (dropShadows p d).parts = d.parts := rfl
@[simp] theorem dropShadows_sup (p : Nat) : (dropShadows p d).sup = d.sup := rfl
@[simp] theorem dropShadows_lant (p : Nat) : (dropShadows p d).lant = d.lant := rfl
@[simp] theorem dropShadows_fuse (p : Nat) : (dropShadows p d).fuse = d.fuse := rfl
@[simp] theorem dropShadows_nv (p : Nat) : (dropShadows p d).nv = d.nv := rfl
@[simp] theorem dropShadows_wear (p : Nat) : (dropShadows p d).wear = d.wear := rfl
@[simp] theorem dropShadows_harts (p : Nat) : (dropShadows p d).harts = d.harts := rfl
@[simp] theorem dropShadows_flt (p : Nat) : (dropShadows p d).flt = d.flt := rfl
@[simp] theorem dropShadows_raised (p : Nat) : (dropShadows p d).raised = d.raised := rfl
@[simp] theorem dropShadows_hearth (p : Nat) : (dropShadows p d).hearth = d.hearth := rfl
@[simp] theorem dropShadows_irq (p : Nat) : (dropShadows p d).irq = d.irq := rfl
@[simp] theorem dropShadows_dma (p : Nat) : (dropShadows p d).dma = d.dma := rfl
@[simp] theorem dropShadows_gpio (p : Nat) : (dropShadows p d).gpio = d.gpio := rfl
@[simp] theorem dropShadows_tamp (p : Nat) : (dropShadows p d).tamp = d.tamp := rfl
@[simp] theorem dropShadows_lc (p : Nat) : (dropShadows p d).lc = d.lc := rfl
@[simp] theorem dropShadows_evr (p : Nat) : (dropShadows p d).evr = d.evr := rfl
@[simp] theorem dropShadows_host (p : Nat) : (dropShadows p d).host = d.host := rfl
@[simp] theorem dropShadows_ent (p : Nat) : (dropShadows p d).ent = d.ent := rfl
@[simp] theorem dropShadows_mpe (p : Nat) : (dropShadows p d).mpe = d.mpe := rfl
@[simp] theorem dropShadows_key (p : Nat) : (dropShadows p d).key = d.key := rfl
@[simp] theorem dropShadows_cmd (p : Nat) : (dropShadows p d).cmd = d.cmd := rfl
@[simp] theorem dropShadows_units (p : Nat) : (dropShadows p d).units = d.units := rfl
@[simp] theorem dropShadows_mgr (p : Nat) : (dropShadows p d).mgr = d.mgr := rfl
@[simp] theorem dropShadows_ofc (p : Nat) : (dropShadows p d).ofc = d.ofc := rfl
@[simp] theorem dropShadows_hdr (p : Nat) : (dropShadows p d).hdr = d.hdr := rfl
@[simp] theorem dropShadows_regs (p : Nat) : (dropShadows p d).regs = d.regs := rfl
@[simp] theorem dropShadows_mem (p : Nat) : (dropShadows p d).mem = d.mem := rfl
@[simp] theorem dropShadows_out (p : Nat) : (dropShadows p d).out = d.out := rfl
@[simp] theorem dropShadows_bus (p : Nat) : (dropShadows p d).bus = d.bus := rfl
@[simp] theorem dropShadows_now (p : Nat) : (dropShadows p d).now = d.now := rfl
@[simp] theorem dropShadows_fresh (p : Nat) : (dropShadows p d).fresh = d.fresh := rfl

@[simp] theorem putByte_sys (a : Nat) (b : Byte) : (putByte d a b).sys = d.sys := rfl
@[simp] theorem putByte_parts (a : Nat) (b : Byte) : (putByte d a b).parts = d.parts := rfl
@[simp] theorem putByte_sup (a : Nat) (b : Byte) : (putByte d a b).sup = d.sup := rfl
@[simp] theorem putByte_lant (a : Nat) (b : Byte) : (putByte d a b).lant = d.lant := rfl
@[simp] theorem putByte_fuse (a : Nat) (b : Byte) : (putByte d a b).fuse = d.fuse := rfl
@[simp] theorem putByte_nv (a : Nat) (b : Byte) : (putByte d a b).nv = d.nv := rfl
@[simp] theorem putByte_wear (a : Nat) (b : Byte) : (putByte d a b).wear = d.wear := rfl
@[simp] theorem putByte_harts (a : Nat) (b : Byte) : (putByte d a b).harts = d.harts := rfl
@[simp] theorem putByte_flt (a : Nat) (b : Byte) : (putByte d a b).flt = d.flt := rfl
@[simp] theorem putByte_raised (a : Nat) (b : Byte) : (putByte d a b).raised = d.raised := rfl
@[simp] theorem putByte_hearth (a : Nat) (b : Byte) : (putByte d a b).hearth = d.hearth := rfl
@[simp] theorem putByte_irq (a : Nat) (b : Byte) : (putByte d a b).irq = d.irq := rfl
@[simp] theorem putByte_dma (a : Nat) (b : Byte) : (putByte d a b).dma = d.dma := rfl
@[simp] theorem putByte_gpio (a : Nat) (b : Byte) : (putByte d a b).gpio = d.gpio := rfl
@[simp] theorem putByte_tamp (a : Nat) (b : Byte) : (putByte d a b).tamp = d.tamp := rfl
@[simp] theorem putByte_lc (a : Nat) (b : Byte) : (putByte d a b).lc = d.lc := rfl
@[simp] theorem putByte_evr (a : Nat) (b : Byte) : (putByte d a b).evr = d.evr := rfl
@[simp] theorem putByte_host (a : Nat) (b : Byte) : (putByte d a b).host = d.host := rfl
@[simp] theorem putByte_ent (a : Nat) (b : Byte) : (putByte d a b).ent = d.ent := rfl
@[simp] theorem putByte_mpe (a : Nat) (b : Byte) : (putByte d a b).mpe = d.mpe := rfl
@[simp] theorem putByte_key (a : Nat) (b : Byte) : (putByte d a b).key = d.key := rfl
@[simp] theorem putByte_cmd (a : Nat) (b : Byte) : (putByte d a b).cmd = d.cmd := rfl
@[simp] theorem putByte_units (a : Nat) (b : Byte) : (putByte d a b).units = d.units := rfl
@[simp] theorem putByte_mgr (a : Nat) (b : Byte) : (putByte d a b).mgr = d.mgr := rfl
@[simp] theorem putByte_ofc (a : Nat) (b : Byte) : (putByte d a b).ofc = d.ofc := rfl
@[simp] theorem putByte_hdr (a : Nat) (b : Byte) : (putByte d a b).hdr = d.hdr := rfl
@[simp] theorem putByte_regs (a : Nat) (b : Byte) : (putByte d a b).regs = d.regs := rfl
@[simp] theorem putByte_shadow (a : Nat) (b : Byte) : (putByte d a b).shadow = d.shadow := rfl
@[simp] theorem putByte_out (a : Nat) (b : Byte) : (putByte d a b).out = d.out := rfl
@[simp] theorem putByte_bus (a : Nat) (b : Byte) : (putByte d a b).bus = d.bus := rfl
@[simp] theorem putByte_now (a : Nat) (b : Byte) : (putByte d a b).now = d.now := rfl
@[simp] theorem putByte_fresh (a : Nat) (b : Byte) : (putByte d a b).fresh = d.fresh := rfl

@[simp] theorem wipeMem_sys (lo hi : Nat) : (wipeMem d lo hi).sys = d.sys := rfl
@[simp] theorem wipeMem_parts (lo hi : Nat) : (wipeMem d lo hi).parts = d.parts := rfl
@[simp] theorem wipeMem_sup (lo hi : Nat) : (wipeMem d lo hi).sup = d.sup := rfl
@[simp] theorem wipeMem_lant (lo hi : Nat) : (wipeMem d lo hi).lant = d.lant := rfl
@[simp] theorem wipeMem_fuse (lo hi : Nat) : (wipeMem d lo hi).fuse = d.fuse := rfl
@[simp] theorem wipeMem_nv (lo hi : Nat) : (wipeMem d lo hi).nv = d.nv := rfl
@[simp] theorem wipeMem_wear (lo hi : Nat) : (wipeMem d lo hi).wear = d.wear := rfl
@[simp] theorem wipeMem_harts (lo hi : Nat) : (wipeMem d lo hi).harts = d.harts := rfl
@[simp] theorem wipeMem_flt (lo hi : Nat) : (wipeMem d lo hi).flt = d.flt := rfl
@[simp] theorem wipeMem_raised (lo hi : Nat) : (wipeMem d lo hi).raised = d.raised := rfl
@[simp] theorem wipeMem_hearth (lo hi : Nat) : (wipeMem d lo hi).hearth = d.hearth := rfl
@[simp] theorem wipeMem_irq (lo hi : Nat) : (wipeMem d lo hi).irq = d.irq := rfl
@[simp] theorem wipeMem_dma (lo hi : Nat) : (wipeMem d lo hi).dma = d.dma := rfl
@[simp] theorem wipeMem_gpio (lo hi : Nat) : (wipeMem d lo hi).gpio = d.gpio := rfl
@[simp] theorem wipeMem_tamp (lo hi : Nat) : (wipeMem d lo hi).tamp = d.tamp := rfl
@[simp] theorem wipeMem_lc (lo hi : Nat) : (wipeMem d lo hi).lc = d.lc := rfl
@[simp] theorem wipeMem_evr (lo hi : Nat) : (wipeMem d lo hi).evr = d.evr := rfl
@[simp] theorem wipeMem_host (lo hi : Nat) : (wipeMem d lo hi).host = d.host := rfl
@[simp] theorem wipeMem_ent (lo hi : Nat) : (wipeMem d lo hi).ent = d.ent := rfl
@[simp] theorem wipeMem_mpe (lo hi : Nat) : (wipeMem d lo hi).mpe = d.mpe := rfl
@[simp] theorem wipeMem_key (lo hi : Nat) : (wipeMem d lo hi).key = d.key := rfl
@[simp] theorem wipeMem_cmd (lo hi : Nat) : (wipeMem d lo hi).cmd = d.cmd := rfl
@[simp] theorem wipeMem_units (lo hi : Nat) : (wipeMem d lo hi).units = d.units := rfl
@[simp] theorem wipeMem_mgr (lo hi : Nat) : (wipeMem d lo hi).mgr = d.mgr := rfl
@[simp] theorem wipeMem_ofc (lo hi : Nat) : (wipeMem d lo hi).ofc = d.ofc := rfl
@[simp] theorem wipeMem_hdr (lo hi : Nat) : (wipeMem d lo hi).hdr = d.hdr := rfl
@[simp] theorem wipeMem_regs (lo hi : Nat) : (wipeMem d lo hi).regs = d.regs := rfl
@[simp] theorem wipeMem_shadow (lo hi : Nat) : (wipeMem d lo hi).shadow = d.shadow := rfl
@[simp] theorem wipeMem_out (lo hi : Nat) : (wipeMem d lo hi).out = d.out := rfl
@[simp] theorem wipeMem_bus (lo hi : Nat) : (wipeMem d lo hi).bus = d.bus := rfl
@[simp] theorem wipeMem_now (lo hi : Nat) : (wipeMem d lo hi).now = d.now := rfl
@[simp] theorem wipeMem_fresh (lo hi : Nat) : (wipeMem d lo hi).fresh = d.fresh := rfl

/-! The update of a link splits on which link it is. -/

@[simp] theorem modLink_sys (l : Nat) (f : LinkSt → LinkSt) : (modLink d l f).sys = d.sys := by unfold modLink; split <;> rfl
@[simp] theorem modLink_parts (l : Nat) (f : LinkSt → LinkSt) : (modLink d l f).parts = d.parts := by unfold modLink; split <;> rfl
@[simp] theorem modLink_sup (l : Nat) (f : LinkSt → LinkSt) : (modLink d l f).sup = d.sup := by unfold modLink; split <;> rfl
@[simp] theorem modLink_lant (l : Nat) (f : LinkSt → LinkSt) : (modLink d l f).lant = d.lant := by unfold modLink; split <;> rfl
@[simp] theorem modLink_fuse (l : Nat) (f : LinkSt → LinkSt) : (modLink d l f).fuse = d.fuse := by unfold modLink; split <;> rfl
@[simp] theorem modLink_nv (l : Nat) (f : LinkSt → LinkSt) : (modLink d l f).nv = d.nv := by unfold modLink; split <;> rfl
@[simp] theorem modLink_wear (l : Nat) (f : LinkSt → LinkSt) : (modLink d l f).wear = d.wear := by unfold modLink; split <;> rfl
@[simp] theorem modLink_harts (l : Nat) (f : LinkSt → LinkSt) : (modLink d l f).harts = d.harts := by unfold modLink; split <;> rfl
@[simp] theorem modLink_flt (l : Nat) (f : LinkSt → LinkSt) : (modLink d l f).flt = d.flt := by unfold modLink; split <;> rfl
@[simp] theorem modLink_raised (l : Nat) (f : LinkSt → LinkSt) : (modLink d l f).raised = d.raised := by unfold modLink; split <;> rfl
@[simp] theorem modLink_hearth (l : Nat) (f : LinkSt → LinkSt) : (modLink d l f).hearth = d.hearth := by unfold modLink; split <;> rfl
@[simp] theorem modLink_irq (l : Nat) (f : LinkSt → LinkSt) : (modLink d l f).irq = d.irq := by unfold modLink; split <;> rfl
@[simp] theorem modLink_dma (l : Nat) (f : LinkSt → LinkSt) : (modLink d l f).dma = d.dma := by unfold modLink; split <;> rfl
@[simp] theorem modLink_gpio (l : Nat) (f : LinkSt → LinkSt) : (modLink d l f).gpio = d.gpio := by unfold modLink; split <;> rfl
@[simp] theorem modLink_tamp (l : Nat) (f : LinkSt → LinkSt) : (modLink d l f).tamp = d.tamp := by unfold modLink; split <;> rfl
@[simp] theorem modLink_lc (l : Nat) (f : LinkSt → LinkSt) : (modLink d l f).lc = d.lc := by unfold modLink; split <;> rfl
@[simp] theorem modLink_evr (l : Nat) (f : LinkSt → LinkSt) : (modLink d l f).evr = d.evr := by unfold modLink; split <;> rfl
@[simp] theorem modLink_ent (l : Nat) (f : LinkSt → LinkSt) : (modLink d l f).ent = d.ent := by unfold modLink; split <;> rfl
@[simp] theorem modLink_mpe (l : Nat) (f : LinkSt → LinkSt) : (modLink d l f).mpe = d.mpe := by unfold modLink; split <;> rfl
@[simp] theorem modLink_key (l : Nat) (f : LinkSt → LinkSt) : (modLink d l f).key = d.key := by unfold modLink; split <;> rfl
@[simp] theorem modLink_cmd (l : Nat) (f : LinkSt → LinkSt) : (modLink d l f).cmd = d.cmd := by unfold modLink; split <;> rfl
@[simp] theorem modLink_units (l : Nat) (f : LinkSt → LinkSt) : (modLink d l f).units = d.units := by unfold modLink; split <;> rfl
@[simp] theorem modLink_mgr (l : Nat) (f : LinkSt → LinkSt) : (modLink d l f).mgr = d.mgr := by unfold modLink; split <;> rfl
@[simp] theorem modLink_ofc (l : Nat) (f : LinkSt → LinkSt) : (modLink d l f).ofc = d.ofc := by unfold modLink; split <;> rfl
@[simp] theorem modLink_hdr (l : Nat) (f : LinkSt → LinkSt) : (modLink d l f).hdr = d.hdr := by unfold modLink; split <;> rfl
@[simp] theorem modLink_regs (l : Nat) (f : LinkSt → LinkSt) : (modLink d l f).regs = d.regs := by unfold modLink; split <;> rfl
@[simp] theorem modLink_shadow (l : Nat) (f : LinkSt → LinkSt) : (modLink d l f).shadow = d.shadow := by unfold modLink; split <;> rfl
@[simp] theorem modLink_mem (l : Nat) (f : LinkSt → LinkSt) : (modLink d l f).mem = d.mem := by unfold modLink; split <;> rfl
@[simp] theorem modLink_out (l : Nat) (f : LinkSt → LinkSt) : (modLink d l f).out = d.out := by unfold modLink; split <;> rfl
@[simp] theorem modLink_bus (l : Nat) (f : LinkSt → LinkSt) : (modLink d l f).bus = d.bus := by unfold modLink; split <;> rfl
@[simp] theorem modLink_now (l : Nat) (f : LinkSt → LinkSt) : (modLink d l f).now = d.now := by unfold modLink; split <;> rfl
@[simp] theorem modLink_fresh (l : Nat) (f : LinkSt → LinkSt) : (modLink d l f).fresh = d.fresh := by unfold modLink; split <;> rfl

/-! ## A read after a write, for each table behind an update -/

theorem hdrOf_setHdr (p q : Nat) (h : Hdr) : hdrOf (setHdr d p h) q = if q = p then h else hdrOf d q :=
  smapGet_set hdrReset d.hdr p q h

theorem hdrOf_modHdr (p q : Nat) (f : Hdr → Hdr) : hdrOf (modHdr d p f) q = if q = p then f (hdrOf d p) else hdrOf d q :=
  hdrOf_setHdr d p q _

theorem regGet_regPut (p off q o v : Nat) :
    regGet (regPut d p off v) q o = if regKey q o = regKey p off then v % 2 ^ 32 else regGet d q o := by
  unfold regGet regPut
  simp only [smapGet_set]
  split <;> simp

theorem regGet_regPut_same (p off v : Nat) : regGet (regPut d p off v) p off = v % 2 ^ 32 := by
  simp [regGet_regPut]

theorem regGet_regPut_other (p off q o v : Nat) (h : regKey q o ≠ regKey p off) :
    regGet (regPut d p off v) q o = regGet d q o := by
  simp [regGet_regPut, h]

theorem hartOf_modHart (h k : Nat) (f : Hart → Hart) :
    hartOf (modHart d h f) k = if k = h then f (hartOf d h) else hartOf d k :=
  smapGet_set hartReset d.harts h k _

theorem fnOf_modFn (l n m : Nat) (f : FnSt → FnSt) :
    fnOf (modFn d l n f) l m = if fnKey l m = fnKey l n then f (fnOf d l n) else fnOf d l m :=
  smapGet_set fnReset d.host.fns (fnKey l n) (fnKey l m) _

theorem linkOf_modLink_same (l : Nat) (f : LinkSt → LinkSt) : linkOf (modLink d l f) l = f (linkOf d l) := by
  unfold modLink linkOf
  split <;> simp_all

/-! ## The canonical form of the register file and of the page headers -/

theorem setHdr_wf (p : Nat) (h : Hdr) (w : smapWf hdrReset d.hdr = true) : smapWf hdrReset (setHdr d p h).hdr = true :=
  smapWf_set hdrReset d.hdr p h w

theorem modHdr_wf (p : Nat) (f : Hdr → Hdr) (w : smapWf hdrReset d.hdr = true) : smapWf hdrReset (modHdr d p f).hdr = true :=
  setHdr_wf d p _ w

theorem regPut_wf (p off v : Nat) (w : smapWf regReset d.regs = true) : smapWf regReset (regPut d p off v).regs = true :=
  smapWf_set regReset d.regs (regKey p off) _ w

theorem setFld_wf (p : Nat) (f : Fld) (v : Nat) (w : smapWf regReset d.regs = true) :
    smapWf regReset (setFld d p f v).regs = true :=
  regPut_wf d p _ _ w

end Sys2Proof.Machine
end

