-- ==== Sys2Proof/Laws/Ops.lean ====
section
/-! SUPPORT. What each shared operation can do, said once: the fields outside of those it names are the block's as before. -/

namespace Sys2Proof.Machine

variable (d : Dev)

/-! ## Messages and events -/

/-- At most the attachment and the outside have changed. -/
def OnlyHost (a b : Dev) : Prop := b = { a with host := b.host, out := b.out }

/-- At most the page headers, the attachment and the outside have changed. -/
def OnlyEvent (a b : Dev) : Prop := b = { a with hdr := b.hdr, host := b.host, out := b.out }

theorem OnlyHost.refl : OnlyHost d d := rfl

theorem OnlyHost.trans {a b c : Dev} (h : OnlyHost a b) (g : OnlyHost b c) : OnlyHost a c := by
  unfold OnlyHost at *
  rw [h] at g
  exact g

theorem OnlyHost.hdr_eq {a b : Dev} (h : OnlyHost a b) : b.hdr = a.hdr := by
  unfold OnlyHost at h
  rw [h]

theorem OnlyHost.event {a b : Dev} (h : OnlyHost a b) : OnlyEvent a b := by
  have e := h.hdr_eq
  unfold OnlyHost at h
  unfold OnlyEvent
  rw [e]
  exact h

theorem OnlyEvent.refl : OnlyEvent d d := rfl

theorem OnlyEvent.trans {a b c : Dev} (h : OnlyEvent a b) (g : OnlyEvent b c) : OnlyEvent a c := by
  unfold OnlyEvent at *
  rw [h] at g
  exact g

theorem setHdr_only (p : Nat) (h : Hdr) : OnlyEvent d (setHdr d p h) := rfl

theorem modHdr_only (p : Nat) (f : Hdr → Hdr) : OnlyEvent d (modHdr d p f) := rfl

/-- A vector is sent, or its pending bit set, and nothing else changes (R57). -/
theorem msixSend_only (l n v : Nat) : OnlyHost d (msixSend l n v d) := by
  unfold msixSend
  split
  · rfl
  · split <;> rfl

theorem signalPfs_only (v : Nat) : OnlyHost d (signalPfs v d) := (msixSend_only d 0 0 v).trans (msixSend_only _ 1 0 v)

theorem signalMgr_only (v : Nat) : OnlyHost d (signalMgr v d) := msixSend_only d _ 0 v

theorem signalInst_only (i v : Nat) : OnlyHost d (signalInst i v d) := by
  unfold signalInst
  split
  · split
    · exact msixSend_only d _ _ v
    · rfl
  · rfl

theorem smbAlert_only : OnlyHost d (smbAlert d) := by
  unfold smbAlert
  split <;> rfl

theorem pageMsix_only (p : Nat) : OnlyHost d (pageMsix p d) := by
  unfold pageMsix
  split
  · exact signalPfs_only d 2
  · exact signalPfs_only d 2
  · exact signalMgr_only d 0
  · exact signalInst_only d _ 16
  · rfl

/-- A page event touches that page's header, the attachment's pending messages and the outside (R26, R57). -/
theorem raiseEv_only (p n : Nat) : OnlyEvent d (raiseEv p n d) := by
  unfold raiseEv
  split
  · rfl
  · split
    · exact (modHdr_only d p _).trans (pageMsix_only _ p).event
    · rfl

/-- A page event sets its bit where the event is enabled and changes no other header (R26). -/
theorem hdrOf_raiseEv (p n q : Nat) (k : PageKind) (hk : pageKind p = some k) :
    hdrOf (raiseEv p n d) q
      = if q = p ∧ (pageCap k).irq = true ∧ bit (hdrOf d p).irqEn n = true
        then { hdrOf d p with irqStat := setBit (hdrOf d p).irqStat n true } else hdrOf d q := by
  unfold raiseEv
  simp only [hk, Bool.and_eq_true]
  by_cases c : (pageCap k).irq = true ∧ bit (hdrOf d p).irqEn n = true
  · rw [if_pos c]
    have : ∀ x : Dev, hdrOf (pageMsix p x) q = hdrOf x q := fun x => by unfold hdrOf; rw [(pageMsix_only x p).hdr_eq]
    rw [this, hdrOf_modHdr]
    simp [c]
  · rw [if_neg c, if_neg (fun h => c h.2)]

/-- A page error touches what a page event touches (R27). -/
theorem pageErr_only (p code : Nat) (a : Access) (off addr : Nat) : OnlyEvent d (pageErr p code a off addr d) := by
  unfold pageErr
  dsimp only
  split
  · rfl
  · exact (setHdr_only d p _).trans (raiseEv_only _ p 31)

theorem regErr_only (p code : Nat) (a : Access) (off : Nat) : OnlyEvent d (regErr p code a off d) := pageErr_only d p code a off _

theorem denyWorld_only (p : Nat) (a : Access) (off : Nat) : OnlyEvent d (denyWorld p a off d) :=
  (regErr_only d p errWORLD a off).trans (modHdr_only (regErr p errWORLD a off d) p (fun h => { h with viol := satAdd (2 ^ 32 - 1) h.viol 1 }))

/-! ## Job boundaries -/

theorem applyShadows_only (l : List (Nat × Shadow)) (x : Dev) (f : Dev → Nat × Shadow → SMap Word) :
    l.foldl (fun (d : Dev) kv => { d with regs := f d kv }) x
      = { x with regs := (l.foldl (fun (d : Dev) kv => { d with regs := f d kv }) x).regs } := by
  induction l generalizing x with
  | nil => rfl
  | cons kv t ih => rw [List.foldl_cons, ih]

/-- A job boundary moves pending shadows into the register file and touches nothing else (R35). -/
theorem jobBoundary_only (p : Nat) :
    jobBoundary p d = { d with regs := (jobBoundary p d).regs, shadow := (jobBoundary p d).shadow } := by
  unfold jobBoundary
  simp only
  rw [applyShadows_only]

/-! ## The answer of a meaning -/

/-- What every meaning answers: a next state with the queue as it was. -/
theorem runDev_next (s : State) (f : Dev → Dev) :
    runDev s f = .next ⟨haltIfFailed (f { s.dev with out := [], bus := none }), s.pending⟩ := rfl

/-- No verification failure: nothing halts (R268). -/
theorem haltIfFailed_none (h : d.mpe.failing = none) : haltIfFailed d = d := by
  unfold haltIfFailed
  simp [h]

/-- A command that leaves no failure noted completes with what it does. -/
theorem runDev_ok (s : State) (f : Dev → Dev) (h : (f { s.dev with out := [], bus := none }).mpe.failing = none) :
    runDev s f = .next ⟨f { s.dev with out := [], bus := none }, s.pending⟩ := by
  rw [runDev_next, haltIfFailed_none _ h]

/-- On an empty queue a running GEN_ROOT goes on. -/
theorem step_nil (s : State) (h : s.pending = []) : step s = tick s := by
  unfold step
  rw [h]

/-- On an empty queue with no operation of the key store under way the block idles. -/
theorem step_idle (s : State) (h : s.pending = []) (hb : s.dev.key.busy = false) : step s = .next s := by
  rw [step_nil s h]
  unfold tick
  simp [hb]

/-- A next state is what the meaning does, a failure it noted having halted the device. -/
theorem runDev_inv {s t : State} {f : Dev → Dev} (h : runDev s f = .next t) :
    t.dev = haltIfFailed (f { s.dev with out := [], bus := none }) ∧ t.pending = s.pending := by
  cases h
  exact ⟨rfl, rfl⟩

/-! ## Officers, harts and verification -/

/-- A property of two states that holds of one and itself and along a chain holds from the start of a fold to its end. -/
theorem foldl_rel {α : Type} {R : Dev → Dev → Prop} (refl : ∀ a, R a a) (trans : ∀ {a b c}, R a b → R b c → R a c) (f : Dev → α → Dev)
    (step : ∀ a x, R a (f a x)) (l : List α) : ∀ a, R a (l.foldl f a) := by
  induction l with
  | nil => exact refl
  | cons x xs ih => exact fun a => trans (step a x) (ih (f a x))

/-- At most the officer block has changed. -/
def OnlyOfc (a b : Dev) : Prop := b = { a with ofc := b.ofc }

theorem OnlyOfc.refl (a : Dev) : OnlyOfc a a := rfl

theorem OnlyOfc.trans {a b c : Dev} (h : OnlyOfc a b) (g : OnlyOfc b c) : OnlyOfc a c := by
  unfold OnlyOfc at *
  rw [h] at g
  exact g

theorem modOfficer_only (n : Nat) (f : Officer → Officer) : OnlyOfc d (modOfficer n f d) := rfl

theorem endChals_only (which : Chal → Bool) : OnlyOfc d (endChals which d) := rfl

theorem ticketFree_only (ids : List Nat) : OnlyOfc d (ticketFree ids d) := by
  unfold ticketFree
  exact foldl_rel OnlyOfc.refl OnlyOfc.trans _ (by intro a x; rfl) ids d

/-- At most the harts have changed. -/
def OnlyHarts (a b : Dev) : Prop := b = { a with harts := b.harts }

theorem OnlyHarts.refl (a : Dev) : OnlyHarts a a := rfl

theorem OnlyHarts.trans {a b c : Dev} (h : OnlyHarts a b) (g : OnlyHarts b c) : OnlyHarts a c := by
  unfold OnlyHarts at *
  rw [h] at g
  exact g

theorem trapIn_only (h : Nat) : OnlyHarts d (trapIn h d) := rfl

theorem trapOut_only (h : Nat) : OnlyHarts d (trapOut h d) := rfl

theorem monRefresh_only : OnlyHarts d (monRefresh d) := by
  unfold monRefresh
  exact foldl_rel OnlyHarts.refl OnlyHarts.trans _ (by intro a x; rfl) _ d

/-- A hart in a trap has NEST set and is in machine mode (R328). -/
theorem hartOf_trapIn (h : Nat) :
    (hartOf (trapIn h d) h).nest = true ∧ (hartOf (trapIn h d) h).priv = .machine := by
  simp [trapIn, modHart, hartOf, smapGet_set_same]

/-- A failure once noted stays the one that is noted (R268). -/
theorem mpeFail_first (f g : MpeFail) (h : d.mpe.failing = some g) : mpeFail f d = d := by
  unfold mpeFail modMpe
  simp [h]

theorem mpeFail_noted (f : MpeFail) : (mpeFail f d).mpe.failing.isSome = true := by
  unfold mpeFail modMpe
  cases h : d.mpe.failing <;> simp [h]

end Sys2Proof.Machine
end

