-- ==== Sys2Proof/Tests/Slice0.lean ====
section
/-! SUPPORT. Tests: ill-formed commands that WellFormed refuses, values of the spec's own examples, and for every statement with
hypotheses a state that meets them. -/

namespace Sys2Proof.Tests

open Sys2Proof.Machine

-- One proof after the other: side by side they would ask for more threads than a checker has.
set_option Elab.async false

/-! ## States -/

/-- Bytes that count up from a value. -/
def ramp (n : Nat) (a : Nat := 0) : Bytes := (List.range n).map (fun i => BitVec.ofNat 8 (a + i))

/-- A state of the block with nothing waiting. -/
def st (d : Dev) : State := ⟨d, []⟩

/-- The block in SERVICE: firmware runs, every quarter is on, its generators hold 256 bytes, the key store is open, protected memory
and the command processor serve. -/
def svc : Dev :=
  { Dev.reset with
    sys := { sysReset with mode := .service, stage := .firmware }
    fuse := { Dev.reset.fuse with rows := [(0, some (ramp 48 9))], secret := ramp 32 7, serial := ramp 16 5 }
    hearth := { hearthReset with quarters := List.replicate 4 { quarterReset with pwr := .on, pll := true }, diePll := true }
    ent := { entReset with drbgs := (List.range 4).map (fun q => (q, { drbgReset q with made := true, need := false, buf := ramp 64 q })) }
    mpe := { mpeReset with kMem := some (ramp 32), kMac := some (ramp 32 64), cur := 1 }
    key := { keyReset with state := .opened, kSlot := some (ramp 32), roots := some (ramp 32, ramp 32 1, ramp 32 2) }
    cmd := { cmdReset with kCtx := some (ramp 32 9) }
    hdr := [pgLC, pgKS, pgMPE, pgCMD, pgOFC, pgMGR].map fun p => (p, { hdrReset p with enable := true }) }

/-- A descriptor of an opcode for the keys 1 and 2. -/
def desc (op : Nat) (param : Nat := 0) (opt : Nat := 0) : Desc := ⟨op, 0, 5, param, 1, 2, 0, 0, 32, 32, 0, 64, opt, 0, 0⟩

/-- A key. -/
def aKey (alg len : Nat) (handle : Nat := 1) (attr : Nat := 0) : KeyRec :=
  { noKey with alg := alg, handle := handle, attr := attr, mat := ramp len handle, kcv := ramp 3 handle }

/-- Its entry in the resident-record table, with the draw pointer at 5. -/
def res (k : KeyRec) (slot : Nat := 0) : Resident := ⟨[slot], 0, 5, recHead k⟩

/-- A command with TAG 7 that a unit has taken, with its keys. -/
def cmdAt (u : Nat) (x : Desc) (keys : List KeyRec) (src aux : Bytes) : Cmd :=
  { tag := 7, inst := 0, sq := 0, cq := 0, ver := (2, 0), raw := [], desc := x, stage := .taken, src := some src, aux := some aux,
    ticket := some [], dstList := none, srcList := none, quarter := 0, unit := some u, keys := keys, counted := [], tickets := [],
    keyed := true, epoch := none, done := 0, part := [], sent := 0, routedAt := 0, svc := none, result := none, mute := false
    retried := false }

/-- The block with a command at its unit. -/
def withCmd (k : Cmd) (d : Dev) : Dev :=
  { d with cmd := { d.cmd with cmds := [k] }
           units := smapSet unitReset [] (k.unit.getD 0) { unitReset 0 with cur := some k.tag } }

/-! ## Witnesses -/

def wHash : List Dev := [withCmd (cmdAt 16 (desc 0x0401 2) [] (ramp 3) []) svc]
def wShake : List Dev := [1, 2].map fun n => withCmd (cmdAt 16 (desc 0x0402 n) [] (ramp 3) []) svc
def wMac : List Dev :=
  [(cmdAt 16 (desc 0x0403 2) [aKey 0x0020 32] (ramp 3) []), (cmdAt 0 (desc 0x0404) [aKey 0x0012 32] (ramp 3) []),
   (cmdAt 0 (desc 0x0404 0 17) [aKey 0x0012 32] (ramp 3) []), (cmdAt 0 (desc 0x0405) [aKey 0x0012 32] (ramp 3) (ramp 16)),
   { cmdAt 0 (desc 0x0405 2) [aKey 0x0012 32] (ramp 3) (ramp 16) with counted := [1] },
   (cmdAt 16 (desc 0x0406 0x1002) [aKey 0x0020 32] (ramp 3) (ramp 32)),
   (cmdAt 0 { desc 0x0406 0x2000 with auxLen := 16 } [aKey 0x0012 32] (ramp 3) (ramp 16)),
   (cmdAt 0 { desc 0x0406 0x3000 with auxLen := 32 } [aKey 0x0012 32] (ramp 3) (ramp 32))].map fun k =>
     withCmd k { svc with key := { svc.key with
       t1 := [(1, .key { aKey 0x0012 32 with nonceResv := 2 ^ 24 })], resident := [(1, some (res { aKey 0x0012 32 with nonceResv := 2 ^ 24 }))] } }
/-- A 64-byte template. -/
def tmpl (alg attr : Nat) : Bytes := leBytes 2 alg ++ [0, 0xFF, 0, 0, 0, 0] ++ leBytes 8 attr ++ zeros 48
def wDerive : List Dev :=
  [(cmdAt 16 (desc 0x0407 2) [aKey 0x0020 32 1 0x40] [] (tmpl 0x0012 1 ++ zeros 16)),
   (cmdAt 16 (desc 0x0408 2) [aKey 0x0020 32 1 0x40] [] (tmpl 0x0012 1 ++ ramp 8)),
   (cmdAt 16 (desc 0x0408 1) [aKey 0x0012 32 1 0x40] [] (tmpl 0x0012 1 ++ ramp 8)),
   (cmdAt 16 (desc 0x0408 3) [aKey 0x0020 32 1 0x40] [] (tmpl 0x0012 1 ++ ramp 8)),
   (cmdAt 16 (desc 0x0408 4) [aKey 0x0020 32 1 0x40] [] (tmpl 0x0012 1 ++ ramp 8)),
   (cmdAt 16 (desc 0x0107 1) [aKey 0x0012 32 1 0x40] (ramp 4) (tmpl 0x0012 1)),
   (cmdAt 16 (desc 0x0107 2) [aKey 0x0020 32 1 0x40] (ramp 4) (tmpl 0x0012 1)),
   (cmdAt 16 (desc 0x0107 4) [aKey 0x0020 32 1 0x40] (ramp 4) (tmpl 0x0012 1)),
   (cmdAt 16 (desc 0x0107 3) [aKey 0x0020 32 1 0x40] (ramp 4) (tmpl 0x0012 1)),
   (cmdAt 16 (desc 0x0409 4) [aKey 0x0020 32 1 0x40, aKey 0x0020 32 2] [] (ramp 32 ++ tmpl 0x0020 1)),
   (cmdAt 28 (desc 0x0501) [] [] []), (cmdAt 28 (desc 0x0101) [] [] (tmpl 0x0012 1)), (cmdAt 28 (desc 0x0502) [] [] [])].map
     fun k => withCmd k svc

def aes := aKey 0x0012 32
def tdes := aKey 0x0018 24
def iv8 : Bytes := ramp 8 ++ zeros 8
def wBlock : List Dev :=
  [(cmdAt 0 (desc 0x0201) [aes] (ramp 32) []), (cmdAt 0 (desc 0x0207) [tdes] (ramp 16) []),
   (cmdAt 0 (desc 0x0202 1) [aes] (ramp 32) (ramp 16)), (cmdAt 0 (desc 0x0208) [tdes] (ramp 16) iv8),
   (cmdAt 0 (desc 0x0208) [tdes] (ramp 16) (ramp 16)), (cmdAt 0 (desc 0x0203) [aes] (ramp 20) (ramp 16)),
   (cmdAt 0 (desc 0x0203) [aes] (ramp 20) (List.replicate 16 0xFF)),
   (cmdAt 0 (desc 0x0201 0 0x0400) [aes] (ramp 32) (ramp 4))].map fun k => withCmd k svc
/-- A context of the command under K_CTX. -/
def ctxOfCmd (op param : Nat) : Bytes :=
  ctxSeal (ramp 32 9) (ramp 12) ⟨1, op, param, 0, 1, 32, 16, 1, 0⟩ ⟨ramp 16, 77, zeros 16⟩
def wSeg : List Dev :=
  [(cmdAt 0 (desc 0x0201 4) [aes] (ramp 32) (zeros 128)), (cmdAt 0 (desc 0x0203 4) [aes] (ramp 32) (ramp 144)),
   (cmdAt 0 (desc 0x0202 8) [aes] (ramp 32) (ramp 16 ++ ctxOfCmd 0x0202 0)),
   (cmdAt 0 (desc 0x0203 12) [aes] (ramp 32) (ramp 16 ++ ctxOfCmd 0x0203 0)),
   (cmdAt 0 (desc 0x0201 12) [aes] (ramp 32) (ctxOfCmd 0x0201 0)),
   (cmdAt 0 (desc 0x0202 8) [aes] (ramp 32) (ramp 144)),
   (cmdAt 0 (desc 0x0204 4) [aes] (ramp 32) (ramp 144)),
   (cmdAt 0 (desc 0x0204 8) [aes] (ramp 32) (ramp 16 ++ ctxOfCmd 0x0204 0)),
   (cmdAt 0 (desc 0x0204 12) [aes] (ramp 32) (ramp 16 ++ ctxOfCmd 0x0204 0)),
   (cmdAt 0 (desc 0x0204 13) [aes] (ramp 32) (ramp 16 ++ ctxOfCmd 0x0204 1)),
   (cmdAt 0 (desc 0x0204 13) [aes]
     (ramp 4 ++ gcmTag (encFn 0x0012 (ramp 32 1)) (ramp 12) (ghashFrom (gcmH (encFn 0x0012 (ramp 32 1))) 77 (ramp 4)) 16 36)
     (ramp 16 ++ ctxOfCmd 0x0204 1)),
   (cmdAt 0 (desc 0x0204 8) [aes] (ramp 32) (ramp 144))].map fun k => withCmd k svc
def gcmOf (iv aad m : Bytes) : Bytes := let r := gcmEnc (encFn 0x0012 (ramp 32 1)) iv aad m; r.1 ++ r.2
def ccmOf (iv aad m : Bytes) : Bytes := let r := ccmEnc (encFn 0x0012 (ramp 32 1)) iv aad m 16; r.1 ++ r.2
def wAuth : List Dev :=
  let g (k : Cmd) : Cmd := { k with desc := { k.desc with auxLen := 16 } }
  ([(cmdAt 0 (desc 0x0204) [aes] (ramp 20) (ramp 16)), (cmdAt 0 (desc 0x0204) [aKey 0x0012 32 1 (2 ^ 25)] (ramp 20) (ramp 16)),
   { cmdAt 0 (desc 0x0204 2) [aes] (ramp 20) (ramp 16) with counted := [1] }, (cmdAt 0 (desc 0x0204 1) [aes] (gcmOf (ramp 12) [] (ramp 4)) (ramp 16)),
   (cmdAt 0 (desc 0x0204 1) [aes] (ramp 20) (ramp 16)), (cmdAt 0 (desc 0x0205 0x0C00) [aes] (ramp 20) (ramp 16)),
   (cmdAt 0 (desc 0x0205 0x0C01) [aes] (ccmOf (ramp 12) [] (ramp 4)) (ramp 16)), (cmdAt 0 (desc 0x0205 0x0C01) [aes] (ramp 20) (ramp 16)),
   { cmdAt 0 { desc 0x0206 with srcLen := 1024 } [aKey 0x0015 64] (ramp 1024) (ramp 16) with done := 1, part := ramp 512 }].map g).map
     fun k => withCmd k { svc with key := { svc.key with
       t1 := [(1, .key { aKey 0x0012 32 with nonceResv := 2 ^ 24 })], resident := [(1, some (res { aKey 0x0012 32 with nonceResv := 2 ^ 24 }))] } }
def wCtx : List Dev :=
  let s2 (kek : Nat) := ctxSeal (ramp 32 2) (ramp 12) ⟨2, 0x0201, 0, 0, 1, 32, 16, 1, kek⟩ ⟨ramp 16, 77, zeros 16⟩
  let kv := kcvNat (aKey 0x0012 32 2)
  [(cmdAt 0 (desc 0x0209) [aes, aKey 0x0012 32 2] (ctxOfCmd 0x0201 0) []), (cmdAt 0 (desc 0x020A) [aes, aKey 0x0012 32 2] (s2 kv) []),
   (cmdAt 0 (desc 0x020A) [aes, aKey 0x0012 32 2] ((s2 kv).take 127 ++ [1]) []),
   (cmdAt 0 (desc 0x0209) [aes, aKey 0x0010 16 2] (ctxOfCmd 0x0201 0) []),
   (cmdAt 0 (desc 0x020A) [aes, aKey 0x0010 16 2] (ctxOfCmd 0x0201 0) [])].map fun k => withCmd k svc

/-- The block with 640 bytes ready in every generator. -/
def svcR : Dev := { svc with ent := { svc.ent with drbgs := (List.range 4).map fun q => (q, { drbgReset q with made := true, need := false, buf := ramp 640 q }) } }
/-- The same with 1,536 bytes of zeros. -/
def svcL : Dev := { svc with ent := { svc.ent with drbgs := (List.range 4).map fun q => (q, { drbgReset q with made := true, need := false, buf := zeros 1536 }) } }
/-- The same with bytes enough for the longest run of ML-DSA. -/
def svcD : Dev := { svc with ent := { svc.ent with drbgs := (List.range 4).map fun q => (q, { drbgReset q with made := true, need := false, buf := zeros 140000 }) } }
def ecPub : Bytes := beBytes 32 p256.g.1 ++ beBytes 32 p256.g.2
def ecKey : KeyRec := { aKey 0x0101 96 with mat := beBytes 32 1 ++ ecPub }
def args (str salt : Nat := 0) : Bytes := leBytes 2 str ++ leBytes 2 salt ++ zeros 4
def pk (op param : Nat) (dst : Nat := 4096) (opt : Nat := 0) : Desc := { desc op param opt with dstLen := dst }
def wCurve : List Dev :=
  [(cmdAt 20 (pk 0x0301 0x0200) [ecKey] (ramp 9) args), (cmdAt 20 (pk 0x0301 0x020C) [ecKey] (ramp 9) args),
   (cmdAt 20 (pk 0x0301 0x0200 63) [ecKey] (ramp 9) args), (cmdAt 20 (pk 0x0303 0x1000) [aKey 0x0110 64] (ramp 9) args),
   (cmdAt 20 (pk 0x0302 0x0200) [ecKey] (ramp 9) (args ++ ramp 64)),
   (cmdAt 20 (pk 0x0302 0x0208) [ecKey] (ramp 9) (args ++ derSig 5 6)),
   (cmdAt 20 (pk 0x0304 0x1000) [aKey 0x0110 64] (ramp 9) (args ++ ramp 64))].map fun k => withCmd k svcR
def xPeer : Bytes := [9] ++ zeros 31
def wAgree : List Dev :=
  let g (k : Cmd) : Cmd := { k with desc := { k.desc with auxLen := tmplAt k + 64 } }
  ([(cmdAt 20 (pk 0x0305 0) [aKey 0x0111 64 1 0x80] [] (args ++ xPeer ++ tmpl 0x0020 0x40)),
    (cmdAt 20 (pk 0x0305 0x1000 4096 0x0111) [] [] (args ++ xPeer ++ tmpl 0x0020 0x40)),
    (cmdAt 20 (pk 0x0308 0) [aKey 0x0301 64 1 0x100] [] (args ++ tmpl 0x0020 0x40)),
    (cmdAt 20 (pk 0x0309 0) [aKey 0x0301 64 1 0x100] (zeros 768) (args ++ tmpl 0x0020 0x40)),
    (cmdAt 20 (pk 0x0309 16) [aKey 0x0301 64 1 0x100, aKey 0x0020 32 2 0x40] (zeros 768) (args ++ tmpl 0x0020 0x40))].map g).map
      fun k => withCmd k svcR
/-- An RSA key of 2,048 bits whose factors need not be primes: its private exponents are 1. -/
def rsaMat : Bytes :=
  beBytes 8 1 ++ beBytes 256 ((2 ^ 1024 - 1) * (2 ^ 1024 - 2)) ++ beBytes 128 (2 ^ 1024 - 1) ++ beBytes 128 (2 ^ 1024 - 2)
    ++ beBytes 128 1 ++ beBytes 128 1 ++ beBytes 128 (2 ^ 1024 - 2)
def rsaKey : KeyRec := { aKey 0x0201 0 with mat := rsaMat }
def wRsa : List Dev :=
  [(cmdAt 20 (pk 0x0306 0x1200) [rsaKey] (ramp 9) (args 0 32)), (cmdAt 20 (pk 0x0306 0x2200) [rsaKey] (ramp 9) args),
   (cmdAt 20 (pk 0x0306 0x3200) [rsaKey] (oaepEncode 2 256 [] (ramp 5) (ramp 32)) args),
   (cmdAt 20 (pk 0x0306 0x3200) [rsaKey] (zeros 256) args),
   (cmdAt 20 (pk 0x0307 0x1200) [rsaKey] (ramp 9) (args 0 32 ++ zeros 256)),
   (cmdAt 20 (pk 0x0307 0x3200) [rsaKey] (ramp 9) args)].map fun k => withCmd k svcR
def xmssPk : Bytes := beBytes 4 1 ++ ramp 64
def wPq : List Dev :=
  [(cmdAt 20 (pk 0x030A 0x0004) [aKey 0x0311 32] (ramp 9) args),
   (cmdAt 20 (pk 0x030B 0) [aKey 0x0311 32] (ramp 9) (args ++ zeros (dsaSigLen 0x0311))),
   (cmdAt 20 (pk 0x030C 0 8000) [aKey 0x0321 64] (ramp 9) args),
   (cmdAt 20 (pk 0x030D 0) [aKey 0x0321 64] (ramp 9) (args ++ zeros (slhSigLen 0x0321))),
   (cmdAt 20 (pk 0x030E 0x2001) [] (ramp 9) (args ++ xmssPk ++ zeros 4 ++ [0xFF] ++ zeros 2499)),
   (cmdAt 20 (pk 0x030F 0x0200) [ecKey] (ramp 9) (args ++ ramp 64)),
   (cmdAt 20 (pk 0x030F 0x1200) [rsaKey] (ramp 9) (args ++ zeros 256)),
   (cmdAt 20 (pk 0x030F 0x0400) [aKey 0x0110 64] (ramp 9) (args ++ zeros 64)),
   (cmdAt 20 (pk 0x030F 0x0200) [aKey 0x0311 32] (ramp 9) (args ++ zeros (dsaSigLen 0x0311))),
   (cmdAt 20 (pk 0x030F 0x0200) [aKey 0x0321 64] (ramp 9) (args ++ zeros (slhSigLen 0x0321)))].map fun k => withCmd k svcR

def aesUse : Nat := 3 + 2 ^ 33 + 2 ^ 16
def keyTmpl : Bytes := tmpl 0x0012 aesUse
def aUnit (op : Nat) (u : Nat) (keys : List KeyRec) (src aux : Bytes) (param : Nat := 0) (dst : Nat := 4096) : Cmd :=
  cmdAt u { desc op param with dstLen := dst } keys src aux
def wPair : List Dev :=
  [aUnit 0x0102 20 [] [] (tmpl 0x0111 0x80) 1, aUnit 0x0102 20 [] (zeros 32) (tmpl 0x0111 0) 3,
   aUnit 0x0102 20 [] (zeros 31) (tmpl 0x0111 0) 2, aUnit 0x0111 20 [ecKey] [] [], aUnit 0x0111 20 [ecKey] [] [] 0 64,
   aUnit 0x0109 28 [aes] [] [], aUnit 0x0108 28 [aes] [] []].map fun k => withCmd k svcR
def hmacKey : KeyRec := aKey 0x0020 32 1 0x000C
def kek : KeyRec := aKey 0x0012 32 2
def wExport : List Dev :=
  [aUnit 0x0105 28 [aes, kek] [] [] 1, aUnit 0x0105 28 [aes, kek] [] [] 2,
   aUnit 0x0105 28 [aKey 0x0020 128, rsaKey] [] [] 3, aUnit 0x0106 28 [hmacKey, kek] [] (ascii "D00"),
   aUnit 0x0106 28 [aKey 0x0101 96, kek] [] (ascii "D00")].map fun k => withCmd { k with desc := { k.desc with key2 := (k.keys.getD 1 aes).handle, key := if (k.keys.getD 1 aes).handle = 1 then 9 else 1 } } svcR
/-- A key block with key-encryption usage under the protection key 2. -/
def kbBlock (mac : Bool) : Bytes :=
  let hdr := ascii "D" ++ decOf 4 144 ++ ascii "K1AB00S0000"
  let clear := beBytes 2 256 ++ ramp 32 ++ zeros 14
  let m := kbMac aes (hdr ++ clear)
  hdr ++ hexOf (cbcEnc 16 (encFn 0x0012 (kbKey aes 0)) m clear).1 ++ hexOf (if mac then m else zeros 16)
def wImport : List Dev :=
  [aUnit 0x0103 28 [aes] (kwpWrap aes.mat (ramp 32)) keyTmpl 1, aUnit 0x0103 28 [aes] (zeros 40) keyTmpl 1,
   { aUnit 0x0103 28 [aes] (attrSeal aes.mat (ramp 12) keyTmpl (ramp 32)) [] 2 with desc := { desc 0x0103 2 with auxLen := 0 } },
   { aUnit 0x0103 28 [aes] (keyTmpl ++ zeros 60) [] 2 with desc := { desc 0x0103 2 with auxLen := 0 } },
   aUnit 0x0104 28 [aes] (kbBlock true) (tmpl 0 0), aUnit 0x0104 28 [aes] (kbBlock false) (tmpl 0 0)].map fun k => withCmd k svcR
/-- A routed command. -/
def fw (op : Nat) (keys : List KeyRec) (src aux : Bytes) (param : Nat := 0) (dst : Nat := 4096) : Cmd :=
  { aUnit op 28 keys src aux param dst with stage := .routed }
def stored : Dev := { svc with key := { svc.key with t1 := [(1, .key { aes with attr := aesUse + 2 ^ 24, kcv := ramp 3 })] } }
def wRouted : List Dev :=
  [fw 0x010A [aes] [] (leBytes 8 0 ++ leBytes 8 1 ++ leBytes 8 keepLimit ++ zeros 40), fw 0x010A [aes] [] (leBytes 8 (2 ^ 39) ++ zeros 56),
   fw 0x010C [aes] [] (leBytes 8 (3 * 2 ^ 54 + 1)), fw 0x010D [aes] [] (leBytes 8 (3 * 2 ^ 54 + 1)),
   { fw 0x010D [aes] [] (leBytes 8 (3 * 2 ^ 54 + 1)) with inst := 9 }, fw 0x010B [] [] (zeros 16),
   fw 0x0F03 [] [] []].map fun k => withCmd k stored
def inCeremony (d : Dev) : Dev := { d with sys := { d.sys with mode := .ceremony } }
def wCustody : List Dev :=
  [withCmd (fw 0x010E [aes, kek] [] (zeros 8)) stored, withCmd (fw 0x010F [aes, kek] (backupHeader 0 0 kek.kcv) []) stored,
   withCmd (fw 0x010F [aes, kek] (backupHeader 0 0 kek.kcv) []) { stored with key := { stored.key with state := .closedTaint } },
   withCmd (fw 0x0110 [] (ramp 32 ++ ramp 32 5) (tmpl 0x0012 aesUse ++ zeros 5 ++ kcvOf 0x0012 false (ramp 32) ++ zeros 5
     ++ kcvOf 0x0012 false (ramp 32 5) ++ kcvOf 0x0012 false (xorBytes (ramp 32) (ramp 32 5)) ++ zeros 5) 2) (inCeremony stored),
   withCmd (fw 0x0112 [] [] (leBytes 2 0x010E ++ zeros 62) 3)
     { stored with ofc := { ofcReset with classes := [(3, some ⟨7, 2, 60⟩)] } }]

def bdkAes : KeyRec := aKey 0x0012 32 1 (2 ^ 11)
def bdkT : KeyRec := aKey 0x0018 24 1 (2 ^ 11)
def ksnAes : Bytes := ramp 8 ++ beBytes 4 5 ++ zeros 4
def ksnT : Bytes := ramp 7 ++ [0, 0, 5] ++ zeros 6
def cvvAux : Bytes := List.replicate 8 0x12 ++ [0xFF, 0xFF, 16, 0x25, 0x12, 0x10, 0x1F, 0]
def wDukpt : List Dev :=
  [aUnit 0x0601 0 [bdkAes] [] (ksnAes ++ tmpl 0x0012 0) 8, aUnit 0x0601 0 [bdkT] [] (ksnT ++ tmpl 0x0018 0) 0x18,
   aUnit 0x0601 0 [bdkAes] [] (ksnAes ++ tmpl 0x0012 (2 ^ 33)) 5, aUnit 0x0601 0 [bdkT] [] (ksnT ++ tmpl 0x0018 (2 ^ 40)) 0x11,
   aUnit 0x0604 0 [aKey 0x0018 24] [] cvvAux 3, aUnit 0x0605 0 [aKey 0x0012 32] [] (cvvAux ++ zeros 8) 3].map fun k => withCmd k svcR
def pan16 : Bytes := List.replicate 8 0x12 ++ [0xFF, 0xFF]
def pinKey (h : Nat) : KeyRec := aKey 0x0018 24 h (2 ^ 9 + 15 * 2 ^ 40)
def pinBlk (h : Nat) (pin : List Nat) : Bytes := pinForm 0 (ramp 24 h) (panDigits (zeros 2 ++ [16, 0] ++ zeros 12 ++ pan16)) pin (zeros 8)
def pinAux (fi fo : Byte) (tail : Bytes) : Bytes := [fi, fo, 16, 0] ++ zeros 12 ++ pan16 ++ zeros 6 ++ tail
def wPin : List Dev :=
  [aUnit 0x0602 0 [pinKey 1, pinKey 2] (pinBlk 1 [1, 2, 3, 4]) (pinAux 0 3 []), aUnit 0x0602 0 [pinKey 1, pinKey 2] (zeros 8) (pinAux 0 0 []),
   aUnit 0x0602 0 [aes, pinKey 2] (zeros 8) (pinAux 0 0 []),
   aUnit 0x0603 0 [pinKey 1, pinKey 2] (pinBlk 1 [1, 2, 3, 4]) (pinAux 0 0 (pinBlk 2 [1, 2, 3, 4])) 1,
   aUnit 0x0603 0 [pinKey 1, pinKey 2] (pinBlk 1 [1, 2, 3, 4]) (pinAux 0 0 (zeros 24)) 0,
   aUnit 0x0606 0 [tdes, aKey 0x0018 24 2] (ramp 16) (ramp 48) 5, aUnit 0x0606 0 [aKey 0x0012 32, aKey 0x0018 24 2] (ramp 16) (ramp 48) 0x10].map
     fun k => withCmd k svcR
def wFf1 : List Dev :=
  [aUnit 0x0701 0 [aes] (ascii "0123456789") (ramp 4) 10, aUnit 0x0702 0 [aes] (ascii "0123456789") (ramp 4) 10,
   aUnit 0x0703 0 [aes, kek] (ascii "0123456789") ([4, 4] ++ zeros 6 ++ ramp 8) 10, aUnit 0x0701 0 [aes] (ascii "01a345") (ramp 4) 10].map
     fun k => withCmd k svcR
def codeKey : KeyRec := { aKey 0x0020 32 with nonce := 5, nonceResv := 2 ^ 24 }
def withKey (x : KeyRec) (d : Dev) : Dev :=
  { d with key := { d.key with t1 := [(1, .key x)], resident := [(1, some (res x))] } }
def hotpAt (v : Nat) : Nat := codeAt (aUnit 0x0801 16 [codeKey] [] [] 0x16) v
def locker : Bytes := [1, 1, 0, 0] ++ zeros 12 ++ zeros 8 ++ leBytes 8 1 ++ leBytes 8 9 ++ zeros 8
def wCode : List Dev :=
  [aUnit 0x0801 16 [codeKey] [] [] 0x16, aUnit 0x0802 16 [codeKey] [] (leBytes 4 (hotpAt 7) ++ [3, 0, 0, 0]) 0x16,
   aUnit 0x0802 16 [codeKey] [] (leBytes 4 (10 ^ 6) ++ [1, 0, 0, 0]) 0x16, aUnit 0x0803 16 [codeKey] [] (leBytes 8 60 ++ zeros 8) 0x16,
   aUnit 0x0804 16 [codeKey] [] (leBytes 8 240 ++ zeros 8 ++ [1, 1, 0, 0] ++ leBytes 4 (hotpAt 7)) 0x16,
   aUnit 0x0804 16 [codeKey] [] (leBytes 8 240 ++ zeros 8 ++ [1, 1, 0, 0] ++ leBytes 4 (10 ^ 6)) 0x16,
   aUnit 0x0806 16 [codeKey] [] (ramp 32) 6, aUnit 0x0807 16 [codeKey] [] (ramp 48) 6,
   aUnit 0x0805 16 [codeKey] locker [], aUnit 0x0805 20 [aKey 0x0110 64] locker [], aUnit 0x0805 20 [ecKey] locker [],
   aUnit 0x0805 20 [aKey 0x0311 32] locker []].map fun k => withCmd { k with counted := [1] } (withKey codeKey svcR)
def wCheck : List Dev := [withCmd (cmdAt 16 (desc 0x0401 2) [] (ramp 3) []) svcR, withCmd (cmdAt 20 (pk 0x0301 0x0200) [ecKey] (ramp 9) args) svcR]

/-- Link A is up with 8 virtual functions, and instance 1 is active with 4 submission queues. -/
def tenant : Dev :=
  { svc with
    host := { hostReset with a := { linkReset with up := true, vfEnable := true, numVfs := 8 } }
    mgr := { mgrReset with insts := [(1, { instReset 1 with run := .active, sqLimit := 4, records := 100, verFixed := true })] }
    hdr := svc.hdr ++ [(instPage 1, { hdrReset (instPage 1) with enable := true })] }
/-- Submission queue 1 and completion queue 1 of instance 1 with 16 entries each are enabled. -/
def queued : Dev := setFld (
  setQ 1 1 Reg.CQ_CFG_EN 1 (setQ 1 1 Reg.CQ_CFG_SIZE 4 (setQ 1 1 Reg.SQ_BASE_LO_BASE_LO 5 (setQ 1 1 Reg.SQ_CFG_EN 1
    (setQ 1 1 Reg.SQ_CFG_SIZE 4 (setQ 1 1 Reg.SQ_CFG_CQ 1 tenant)))))) pgCMD Reg.CMD_RQ_CFG_RQ_SIZE 4
def sqWord : Nat := 2 ^ 16 + 2 ^ 8 + 4
def cqWord : Nat := 4
def wQueues : List Dev := [setQ 1 1 Reg.SQ_CFG_EN 0 queued, queued, setQ 1 1 Reg.CQ_CFG_EN 0 queued, setQ 1 1 Reg.SQ_CFG_EN 0 queued,
  setTail 1 1 3 queued, setHead 1 1 3 queued, setHead 1 1 3 (setQ 1 1 Reg.CQ_STAT_TAIL 5 queued), setQ 1 1 Reg.SQ_STAT_ERROR 1 queued,
  setQ 1 1 Reg.CQ_STAT_ERROR 1 queued]
/-- A command of instance 1 at a stage. -/
def early (stg : Stage) (x : Desc) : Cmd :=
  { cmdAt 0 x [] [] [] with inst := 1, sq := 1, cq := 1, stage := stg, unit := none, src := none, aux := none, ver := (2, 2), keyed := false }
def withCmds (l : List Cmd) (d : Dev) : Dev := { d with cmd := { d.cmd with cmds := l } }
def hashDesc : Desc := { desc 0x0401 2 with key := 0, key2 := 0, auxLen := 0, src := 4096, srcLen := 64, dst := 8192, dstLen := 64 }
def wIntake : List Dev :=
  let rd (x : HRead) (d : Dev) : Dev := { d with cmd := { d.cmd with reads := [x] } }
  [setTail 1 1 3 queued, rd ⟨0, none, .fetch 1 1 1 2 true, false, none, 0, 1, [], 2, 128, []⟩ queued,
   rd ⟨0, some 7, .src, false, none, 0, 1, [], 2, 64, []⟩ (withCmds [early .reading hashDesc] queued),
   withCmds [{ early .fetched hashDesc with ver := (1, 0), raw := zeros 32 }] queued, withCmds [early .fetched { hashDesc with dstLen := 8 }] queued,
   withCmds [early .fetched hashDesc] queued,
   { withCmds [early .policy { hashDesc with key := 1 }] queued with sys := { queued.sys with lc := .factory } },
   withCmds [early .policy hashDesc] (setFld queued (pgHASH 0) Reg.SYM_CFG_SERVE 1), withCmds [early .policy { desc 0x0403 2 with key := 1 }] queued]

def wRing : List Dev :=
  let ring : Dev := setFld (setFld (setFld queued pgCMD Reg.CMD_RQ_BASE_LO_BASE_LO 0x20000) pgCMD Reg.CMD_RCQ_BASE_LO_BASE_LO 0x20001)
    pgCMD Reg.CMD_RQ_CFG_RCQ_SIZE 4
  let x : Cmd := { early .routed { hashDesc with opcode := 0x0A00 } with src := some [], aux := some [] }
  [withCmds [{ x with stage := .route }] ring,
   withCmds [x] (putBytes ring 0x20001000 (zeros 16 ++ zeros 4 ++ leBytes 4 7 ++ zeros 8)), withCmds [x] ring,
   withCmds [{ early .retry hashDesc with unit := some 16 }] (setFld ring (pgHASH 0) Reg.SYM_CFG_SERVE 1)]
def serveAll (d : Dev) : Dev :=
  let d : Dev := setFld (setFld (setFld d (pgSYM 0) Reg.SYM_CFG_SERVE 1) (pgHASH 0) Reg.SYM_CFG_SERVE 1) (pgPKE 0) Reg.PKE_CFG_SERVE 1
  let on (p : Nat) (d : Dev) : Dev := setHdr d p { hdrReset p with enable := true }
  on (pgSYM 0) (on (pgHASH 0) (on (pgPKE 0) d))
/-- A command of instance 1 at the policy check, and its key. -/
def atPolicy (x : Desc) : Dev :=
  let d : Dev := withCmds [early .policy { x with key := 2 ^ 54 + 1 }] (serveAll queued)
  { d with key := { d.key with t1 := [(1, .key (aKey 0x0012 32 (2 ^ 54 + 1) (aesUse + 2 ^ 24)))] } }
def xtsDesc (flags : Nat) : Desc := { desc 0x0206 9 with flags := flags, src := 4096, srcLen := 1024, dst := 65536, dstLen := 1024 }
def wUnits : List Dev :=
  let xts (flags : Nat) : Cmd := { cmdAt 0 (xtsDesc flags) [aKey 0x0013 64] (zeros 1024) (zeros 16) with inst := 1 }
  [withCmds [{ early .ring hashDesc with src := some (ramp 64) }] (serveAll queued),
   withCmds [{ early .ring (desc 0x0501) with inst := 1 }] (serveAll queued),
   withCmds [{ early .ring { hashDesc with key := 1 } with counted := [1] }]
     { serveAll queued with key := { queued.key with t1 := [(1, .key { aKey 0x0012 32 with nonceResv := 9 })], slots := [(0, some ⟨3, 1, 0, [], []⟩)] } },
   withCmds [{ cmdAt 0 (desc 0x0404) [] [] [] with inst := 1, keyed := false, counted := [1] }]
     { serveAll queued with key := { queued.key with resident := [(1, some (res (aKey 0x0012 32)))] } },
   withCmd (xts 0) (serveAll queued), withCmd (xts (2 ^ flORDERED)) (serveAll queued)]
def wEgress : List Dev :=
  let held (m : Bool) : Cmd := { cmdAt 16 { hashDesc with flags := 2 ^ flNO_IRQ } [] (ramp 64) [] with
    inst := 1, sq := 1, cq := 1, ver := (2, 2), stage := .held, mute := m, result := some (okOut (ramp 32)) }
  let dn : Dev := withCmd (held false) queued
  [withCmd (held true) queued, dn,
   { queued with evr := { queued.evr with held := [⟨3, 7, 0x0404, 0, false, [], none⟩] } },
   { modMsix (setQ 1 1 Reg.CQ_CFG_COAL_TIME 9 queued) 0 2 1 (fun m => { m with masked := false }) with
     cmd := { queued.cmd with coalAt := [(qKey 1 1, some 100)], coal := [(qKey 1 1, 3)] } },
   { queued with units := [(16, { unitReset 16 with job := some { held false with inst := 0, result := some { okOut [] with r0 := 5 } } })] }]
def jobBase : Nat := 0x20002000
def wJobPort : List Dev :=
  let job (i : Nat) (x : Desc) (aux src : Bytes) : Dev :=
    let d := { serveAll svcR with key := { svcR.key with
      t1 := [(1, .key { aKey 0x0012 32 1 (0xFFFF + 2 ^ 32) with resv := 100 })], resident := [(1, some (res (aKey 0x0012 32)))] } }
    let d := setFld (setFld d (unitPage i) Reg.SYM_JOB_LO_ADDR_LO (jobBase / 64)) (unitPage i) Reg.SYM_JOB_CTL_INSTANCE 0
    let d := putBytes d jobBase (descBytes { x with src := if x.srcLen = 0 then 0 else jobBase + 64, dst := jobBase + 4096, aux := if x.auxLen = 0 then 0 else jobBase + 2048 })
    putBytes (putBytes d (jobBase + 64) src) (jobBase + 2048) aux
  [job 0 { hashDesc with opcode := 0x0201, param := 0, key := 1 } [] (ramp 64), job 16 hashDesc [] (ramp 64),
   job 20 { hashDesc with opcode := 0x0305, param := 0x1000, opt := 0x0111, src := 0, srcLen := 0, auxLen := 104, dstLen := 32 } (args ++ xPeer ++ tmpl 0x0020 0x40) []]
def copyOf (n e : Nat) : Homes := ⟨some ⟨1, e, 0, .key (aKey 0x0012 32 n), true⟩, none⟩
def wVault : List Dev :=
  let k : KeySt := svc.key
  let e (n : Nat) (c : Option Nat) : VaultEnt := ⟨n, .key (aKey 0x0012 32 n), c⟩
  [{ withCmds [early .policy { desc 0x0403 2 with key := 5, key2 := 0 }] queued with
      key := { k with state := .restoring, frontier := 3, homes := [(5, copyOf 5 0)] } },
   { svc with key := { k with state := .restoring, frontier := 3, homes := [(5, copyOf 5 0), (9, copyOf 9 0)] } },
   { svc with key := { k with state := .restoring, frontier := 6, homes := [(5, copyOf 5 0)] } },
   { svc with key := { k with queue := [e 5 none], closeAt := some 40 } },
   { svc with key := { k with batches := 1, queue := [e 5 (some 0), e 6 none], t1 := [(5, .key (aKey 0x0012 32 5))], homes := [(5, copyOf 5 0)] } },
   { svc with key := { k with epoch := 1, homes := [(5, copyOf 5 0), (9, copyOf 9 1)] } }]
def wUpkeep : List Dev :=
  let k : KeySt := svc.key
  let x : KeyRec := { aKey 0x0012 32 1 with nonceResv := 4 }
  let z : KeyRec := { aKey 0x0012 32 (1 + 2 ^ 52) with nonceResv := 4 }
  [{ svc with key := { k with t1 := [(1, .key x)], usageDue := [(1, some 30)] } },
   { svc with key := { k with t1 := [(1, .key x)], usageRaise := [(1, some (70, false))] } },
   { svc with key := { k with t1 := [(1, .key x)], nonceRaise := [(1, some (70, none))] } },
   { svc with key := { k with t1 := [(1, .key z)], nonceRaise := [(1, some (70, none))] } },
   { svc with key := { k with t1 := [(1, .key z)], noticed := [(1, true)] } }]
def wStore : List Dev := [svc, { svc with key := { svc.key with queue := [⟨5, .free 3, none⟩], closeAt := some 40 } },
  { svc with key := { svc.key with resident := [(1, some (res (aKey 0x0012 32))), (2, some (res (aKey 0x0012 32 2) 1))], flight := [(2, 1)] } },
  { svcR with sys := { svcR.sys with lc := .deployed } }]

def calm (m : Mode) (d : Dev) : Dev := { d with sys := { d.sys with mode := m } }
def rawPart : Dev := { calm .vigil Dev.reset with fuse := { fuseReset with lc0 := 0, lc1 := 0, lc2 := 0 } }
def wSupply : List Dev :=
  [rawPart, withCmd (cmdAt 16 hashDesc [] [] []) (withKey (aKey 0x0012 32) svc), calm .romBoot Dev.reset,
   { calm .vigil Dev.reset with sup := { supReset with p12vGood := false, auxGood := false }, wear := ⟨[], [(1, [3])], 0, false, false⟩ },
   calm .off Dev.reset, calm .vigil Dev.reset]
def wBank : List Dev :=
  [svc, setFld { calm .drowse svc with sup := { supReset with bankMv := 12000 } } pgHOLD Reg.HOLD_CFG_MEAS_H 24,
   { svc with hearth := { svc.hearth with measuring := true }, nv := { nvReset with capUf := 22000 } },
   setFld svc pgWEAR Reg.WEAR_CFG_ALARM 8000]
def wPower : List Dev :=
  let q (n : Nat) (f : Quarter → Quarter) (d : Dev) : Dev := modQuarter d n f
  let up : HostSt := { svc.host with a := { linkReset with up := true } }
  let hz : HearthSt := { svc.hearth with drowseHart := some 3, drowsePrior := svc.hearth.quarters }
  let dz : Dev := setFld { calm .drowse svc with hearth := hz, host := up } pgPWR Reg.PWR_WAKE_TMR_TICKS 1000
  [svc, withCmd (cmdAt 0 hashDesc [] [] []) svc, setHdr svc (pgSYM 0) { hdrReset (pgSYM 0) with pwrPend := true, pwrReq := 1 },
   setFld (q 1 (fun x => { x with pwr := .gated, pll := false }) svc) pgPWR Reg.PWR_QREQ_REQ 4,
   q 1 (fun x => { x with pend := some .gated }) svc, dz]

def hosted : Dev := { svc with hdr := svc.hdr ++ [(pgHOST, { hdrReset pgHOST with enable := true }), (pgUSB4, { hdrReset pgUSB4 with enable := true })] }
def onLink (l : Nat) (f : LinkSt → LinkSt) (d : Dev) : Dev := modLink d l f
def wLink : List Dev :=
  let usb : Dev := setFld { hosted with host := { hosted.host with usbAttached := true } } pgUSB4 Reg.USB4_CFG_PORT_EN 1
  let two (d : Dev) : Dev := setFld d pgHOST Reg.HOST_CFG_PORT_MODE 1
  [{ svc with sys := { svc.sys with mode := .vigil } }, onLink 0 (fun k => { k with up := true, vfEnable := true }) hosted, hosted, two hosted,
   onLink 0 (fun k => { k with training := true }) hosted, onLink 1 (fun k => { k with training := true }) (two hosted), usb,
   { usb with host := { usb.host with usbAttached := false } }, onLink 1 (fun k => { k with up := true }) usb]
def wFunction : List Dev :=
  let d : Dev := { queued with sys := { queued.sys with mode := .service } }
  [d, onLink 0 (fun k => { k with vfEnable := false }) d, modMsix d 0 2 1 (fun m => { m with pba := true }), calm .romBoot d,
   onLink 0 (fun k => { k with up := false }) d, onLink 0 (fun k => { k with ide := [(2, ⟨true, some (ramp 32), 0, 5, []⟩)] }) d]

/-- A request waits in the mailbox of link A, and the boot core traps. -/
def asked (r : SpdmReq) (d : Dev) (f : LinkSt → LinkSt := id) : Dev :=
  let d : Dev := { regPut d pgSRC (0x040 + 4 * 257) (2 ^ 13 + 2 ^ 15 + 2 ^ 16) with harts := [(0, { hartReset 0 with run := .running })] }
  modHdr (onLink 0 (fun k => f { k with up := true, doeReq := some r, spdmAlg := true }) d) pgHOST (fun h => { h with irqStat := 64 })
def wMessage : List Dev :=
  let up : Dev := onLink 0 (fun k => { k with up := true }) hosted
  [up, asked .getVersion (calm .startup hosted), asked .getVersion hosted, asked (.getCapabilities 0x12) hosted,
   asked (.getMeasurements 3 true (ramp 32)) hosted, { up with host := { up.host with alert := true } },
   asked (.getMeasurements 3 true (ramp 32)) hosted (fun k => { k with xfer := 42 }),
   asked (.chunkGet 1 0) hosted (fun k => { k with xfer := 64, chunkOut := some (1, 0, .version [0x12]) }),
   asked (.chunkGet 1 0) hosted (fun k => { k with xfer := 4, chunkOut := some (1, 0, .version [0x12]) })]
/-- The manager's page of link A in the boot ROM, at a stage. -/
def handshake (g : BootStage) (n : Nat) (l : Lc) : Dev :=
  let d : Dev := onLink 0 (fun k => { k with up := true }) hosted
  setFld { d with sys := { d.sys with mode := .romBoot, stage := g, lc := l }
                  sup := { d.sup with bankMv := 12000 }, hdr := d.hdr ++ [(pgMGR, { hdrReset pgMGR with enable := true })] }
    pgMGR Reg.MGR_IN_LEN_LEN n
def tokenBlock (row op : Nat) : Bytes := [BitVec.ofNat 8 row, BitVec.ofNat 8 op] ++ zeros 14 ++ ramp 48
/-- An image of one page of zeros, signed with the P-384 private key 1 over its header: the 256 bytes of the header, the public key, seven
zeros and the signature as one number, and the body. -/
def image : Bytes :=
  beBytes 456
    0x41444b490100010001000000000000000700000000011f0000100000000000000000000010000000000000001000000000000000000000000000000000000000c0e59a3e3ffbd3b5c75428fb36432facabc745944296ff515f737c4fef4efc64586809f7a16f56354a1eaecf2aa8d7748c4f262412b7f9ed867606705a130de5212fd048fbaf8c3842f4a240f4b45ba0c90f82194ccdda3ed89c96b0afe1d51dc8000000000000000000000000000000000000000000000000000000000000000000000000000000000000000000000000000000000000000000000000000000000000000000000000000000000000000000000000000000000000000000000004aa87ca22be8b05378eb1c71ef320ad746e1d3b628ba79b9859f741e082542a385502f25dbf55296c3a545e3872760ab73617de4a96262c6f5d9e98bf9292dc29f8f41dbd289a147ce9da3113b5f0b8c00a60b1ce1d7e819d7a431d7c90ea0e5f00000000000000de960114489e733cd294eee29e437ba4238a7e4d2c853daa14981bbae63613cc855b1e983e3cd4507b75d47de0077efae0ff1628656095a0ce9d3300176afadb655e690741a758e16af5b6ae6d9be9e8ba2fcc4db643eead0d3f03472216c0d2
    ++ zeros 4096
/-- The part that loads it, with the lines of the body in the write buffer; and the same with the image read. -/
def imageDev : Dev :=
  let d : Dev := handshake .loader 4552 .provision
  { d with mpe := { d.mpe with wbuf := (List.range 64).map fun i => (dramBase / 64 + i, some ⟨zeros 64, 0⟩) } }
def imageRead : Dev := emitAll (hostReads imageDev (mgrLink imageDev) 0 (mgrAddr imageDev Reg.MGR_IN_ADDR_LO_ADDR_LO Reg.MGR_IN_ADDR_HI_ADDR_HI) 4552)
  (setFld imageDev pgMGR Reg.MGR_PARAM_PARAM 0x4C4F4144)
def wHandshake : List Dev :=
  let raw : Dev := handshake .service 64 .raw
  [handshake .loader 4352 .provision, { raw with fuse := { raw.fuse with rows := [] } }]
def wWrite : List Dev :=
  [svc, setHdr (setHdr svc pgSYS { hdrReset pgSYS with cfgErr := true, errCode := 3 }) pgHOST { hdrReset pgHOST with irqStat := 7 }]
def wControl : List Dev :=
  [{ svcR with hdr := [] }, { setFld tenant (instPage 1) Reg.INST_PYP_OFFER_V2 7 with
      hdr := [], mgr := { tenant.mgr with insts := [(1, { instReset 1 with run := .assigned })] } },
   setHdr svc pgCLK { hdrReset pgCLK with softRst := true }]

/-- A transaction of hart 1 in the secure world, or of a unit. -/
def txn (cls : Nat) (k : BusKind) (addr len : Nat) : Bus := ⟨true, false, cls, 1, k, addr, len, if k = .write then ramp len else [], false, none, none, none⟩
def txns : List Bus :=
  [0, 3].flatMap fun c => [BusKind.write, .read].flatMap fun k => [0x30000010, 0x20000040, 0x09000000].map fun a => txn c k a 8
def ht : Dev := { svc with hdr := svc.hdr ++ [(pgHT, { hdrReset pgHT with enable := true })] }
def debugged : Dev := regPut { svc with harts := [(2, { hartReset 2 with run := .running, world := false })] } pgDBG Reg.DBG_CFG_NSNID.off 3
/-- The access table on, its region 0 over the first GiB with no permission. -/
def ht0 : Dev := setFld (setFld ht pgHT Reg.HT_RGN_BASE_VALID 1) pgHT Reg.HT_RGN_LIMIT_LIMIT 0x3FFFF
def wBus : List Dev := [svc, ht, debugged, ht0]
/-- The outbound window with its link up, and the same while IDE is required. -/
def window : Dev := onLink 0 (fun k => { k with up := true }) hosted
def windowIde : Dev := setFld window pgHOST Reg.HOST_CFG_IDE_REQ 1
def winTxn (k : BusKind) (x : Option Bytes) : Bus := { txn 0 k 0x8000000000 8 with hostData := x }
/-- Protected memory with the counters of its first 4 KiB in the cache, and its third line written. -/
def lined : Dev :=
  let l : CcLine := ⟨⟨0, [(2, 5)]⟩, false, 0⟩
  let x : Bytes := ramp 64 3
  { svc with mpe := { svc.mpe with
      cc := [(treeAddr 0 0 / 64, some l)]
      dram := [((dramBase + 128) / 64, some ⟨x, lineMac (kMacOf svc) 0 5 (dramBase + 128) x⟩)] } }
def lines : List Bus := [3, 0].flatMap fun c => [BusKind.write, .read].flatMap fun k => [dramBase + 64, dramBase + 128].map fun a => txn c k a 64
def wProtected : List Dev :=
  let m (f : MpeSt → MpeSt) : Dev := { lined with mpe := f lined.mpe }
  [lined, m (fun m => { m with wbuf := [((dramBase + 64) / 64, some ⟨ramp 64, 3⟩)] }),
   m (fun m => { m with wbuf := [((dramBase + 64) / 64, some ⟨ramp 64, 0⟩)] }), m (fun m => { m with cur := 5000, ver := 905 }),
   setFld lined pgMPE Reg.MPE_CFG_SCRUB_H 24, m (fun m => { m with reads := [⟨0, dramBase, none⟩, ⟨0, dramBase, some ⟨0, 1, dramBase, 0⟩⟩] })]

def onWell (f : Well → Well) (d : Dev) : Dev := modWell 0 f d
def onGen (n : Nat) (f : Drbg → Drbg) (d : Dev) : Dev := modDrbg n f d
def wWell : List Dev :=

  let run (x : WellRun) (p a : NoiseRun) (fd : Option Bool) : Dev :=
    onWell (fun w => { w with run := x, pri := { noiseReset with run := p }, alt := { noiseReset with run := a }, feed := fd }) svc
  [svc, run .startup .testing .idle none, run .entFail .retest .waiting none, run .primary .running .idle (some false),
   onWell (fun w => { w with pool := [ramp 16, ramp 16 1, ramp 16 2], run := .primary, feed := some false }) (onGen 0 (fun g => { g with need := true }) svc),
   onWell (fun w => { w with goBack := true }) (run .alternate .running .running (some true)),
   onGen 0 (fun g => { g with need := true, buf := [] }) svc, run .primary .retest .running (some true), run .primary .waiting .running (some true)]
/-- Well 0 with three units in its pool, fed by the primary source; no generator takes from it. -/
def fullWell (d : Dev) : Dev :=
  onWell (fun w => { w with pool := [ramp 16, ramp 16 1, ramp 16 2], run := .primary, feed := some false }) (onGen 0 (fun g => { g with src := none }) d)
def wPort : List Dev :=
  let d : Dev := onGen 5 (fun g => { g with src := some 0 }) (onGen 4 (fun g => { g with src := some 0, buf := ramp 8 }) svc)
  let cap : Dev := setFld (setFld (onWell (fun w => { w with run := .diag }) (calm .diagnostic svc)) (pgENT 0) Reg.ENT_CAP_BASE_LO_ADDR_LO 0x800000)
    (pgENT 0) Reg.ENT_CAP_LEN_LEN 4
  [d, onGen 4 (fun g => { g with src := some 0, buf := [] }) d, cap, onWell (fun w => { w with capture := some ⟨false, 0x20003000, 4⟩ }) cap,
   setFld (calm .factoryTest svc) (pgENT 0) Reg.ENT_PATTERN_PATTERN 5]

/-- Firmware runs: hart 1 in the secure world and hart 2 in the other. -/
def firm : Dev :=
  let h (n : Nat) (w : Bool) : Hart := { hartReset n with run := .running, world := w, priv := .supervisor }
  { svcR with harts := [(0, h 0 true), (1, h 1 true), (2, h 2 false)] }
def wHart : List Dev :=
  let two (f : Hart → Hart) : Dev := modHart firm 2 f
  [firm, modHart firm 1 (fun x => { x with nsCtx := some ⟨some 0x30000000, 5, []⟩ }), two (fun x => { x with secCtx := some ⟨none, 5, [9]⟩ })]
def wFirm : List Dev :=
  let boot : Dev := setFld { calm .startup firm with sup := { supReset with bankMv := 12000 } } pgSYS Reg.SYS_BOOT_STAT_STEP 14
  let own : Dev := { firm with
    fuse := { firm.fuse with owner := [⟨some (ramp 48), false⟩, ⟨none, false⟩, ⟨none, false⟩, ⟨none, false⟩] }
    sys := { firm.sys with runRow := some 0 } }
  [firm, boot, onWell (fun w => { w with run := .primary }) firm, { firm with fuse := { firm.fuse with lc0 := 0, lc1 := 0, lc2 := 0 } },
   setFld firm pgSYS Reg.SYS_BOOT_STAT_TRIAL 1, own, { firm with sys := { firm.sys with lc := .test } }]
/-- A software interrupt's source, enabled for core 2 at priority 9. -/
def srcOn (n : Nat) (world mon : Bool) (d : Dev) : Dev :=
  let d : Dev := setFld d pgIRQ Reg.IRQC_GCTL_EN 1
  edgePut n true (regPut d pgSRC (0x040 + 4 * (n - 1)) (9 + 2 ^ 15 + 2 ^ 18 + b2n world * 2 ^ 14 + b2n mon * 2 ^ 13))
def wSwitch : List Dev := [modHart (srcOn 448 true false firm) 2 (fun x => { x with secCtx := some ⟨none, 5, [9]⟩ })]

def wFault : List Dev :=
  let dog : Dev := setFld firm pgSYS Reg.SYS_WDT_CFG_EN 15
  let up (c : Option Flt) (q : List Flt) (r : List Flt) : Dev := { firm with flt := ⟨c, none, none, none, q, false⟩, raised := r }
  [dog, up none [] [⟨.core, 1, 1⟩], up (some ⟨.core, 1, 1⟩) [] [⟨.core, 1, 1⟩], up (some ⟨.core, 1, 1⟩) [] [⟨.core, 1, 2⟩],
   up (some ⟨.core, 1, 1⟩) (List.replicate 8 ⟨.core, 1, 3⟩) [⟨.core, 1, 2⟩], up (some ⟨.core, 1, 1⟩) [] [],
   { firm with flt := ⟨none, some ⟨.quarter, 1, 1⟩, none, none, [], false⟩ }, { calm .vigil firm with raised := [⟨.core, 1, 1⟩] }]
def wIrq : List Dev :=
  [srcOn 448 true false firm, firm, { firm with irq := ⟨[], [(448, some ⟨2, true⟩)]⟩ }, srcOn 449 true true firm,
   setFld firm pgGPIO Reg.GPIO_WORLD_WORLD 15]
def wDma : List Dev :=
  let p : Nat := pgDMA 0
  let d : Dev := setFld (setFld { svc with hdr := svc.hdr ++ [(p, { hdrReset p with enable := true })] } p Reg.DMA_SRC_LO_ADDR_LO 0x20005000) p
    Reg.DMA_DST_LO_ADDR_LO 0x20006000
  let d : Dev := setFld (putBytes d 0x20005000 (ramp 8 1)) p Reg.DMA_CFG_ESIZE 3
  [d, { d with dma := [(0, ⟨true, true, true⟩)] }]

/-- Instance 1 of a deployed part in a state. -/
def instAt (f : Inst → Inst) (d : Dev := tenant) : Dev :=
  { d with mgr := { d.mgr with insts := [(1, f { instReset 1 with sqLimit := 4, records := 100 })] }
           hdr := d.hdr ++ [(pgMGR, { hdrReset pgMGR with enable := true })] }
def inst (r : InstRun) : Dev := instAt (fun x => { x with run := r })
def wInstances : List Dev :=
  let sel : Dev := setFld (inst .active) pgMGR Reg.MGR_SEL_INSTANCE 1
  let fz (k : KeySt) : Dev := instAt (fun x => { x with run := .quiesced, freezing := true })
    { tenant with mgr := { mgrReset with busy := some (5, 1) }, key := k }
  let busy (d : Dev) : Dev := { d with mgr := { d.mgr with busy := some (5, 1) } }
  [instAt (fun _ => instReset 1), inst .assigned, inst .active, inst .quiescing, inst .quiesced, inst .frozen,
   instAt (fun x => { x with run := .frozen, exported := true }), withCmds [{ early .ring hashDesc with inst := 1 }] (inst .quiescing), busy (fz tenant.key),
   busy (fz { tenant.key with t1 := [(1, .key (aKey 0x0012 32 (2 ^ 54 + 1)))], flight := [(1, 1)] }), sel,
   setFld (instAt (fun x => { x with run := .active, inFull := true, outFull := true })) pgMGR Reg.MGR_SEL_INSTANCE 1,
   { tenant with mgr := { tenant.mgr with events := [⟨1, 1, 1⟩] } }, { tenant with mgr := { tenant.mgr with events := [] } }]

def dep (d : Dev) : Dev := { d with sys := { d.sys with lc := .deployed } }
def sess (id : Nat) (src : Bool) (k : Option Bytes) : Xport := ⟨id, src, 5, 9, ramp 1928, if k.isNone then some (ramp 64, 3) else none, k⟩
def withSess (l : List Xport) (d : Dev) : Dev := { d with mgr := { d.mgr with xports := l } }
def buffers (i o : Nat) (d : Dev) : Dev := setFld (setFld d pgMGR Reg.MGR_IN_LEN_LEN i) pgMGR Reg.MGR_OUT_LEN_LEN o
/-- A fold image of an instance without keys under the session key, and one with a wrong tag. -/
def foldOf (fmt id : Nat) (bad : Bool) : Bytes :=
  let body : Bytes := (foldBody (inst .frozen) 1 1 []).1
  let head : Bytes := ascii "ADKF" ++ [BitVec.ofNat 8 fmt, 0] ++ leBytes 2 1 ++ leBytes 4 id ++ leBytes 4 2 ++ leBytes 8 body.length ++ zeros 24 ++ ramp 12 ++ zeros 4
  let r : Bytes × Bytes := gcmEnc (encFn 0x0012 (ramp 32)) (ramp 12) head body
  head ++ r.1 ++ (if bad then zeros 16 else r.2)
/-- The same with 640 bytes in every generator. -/
def tenR : Dev := { tenant with ent := svcR.ent }
def wMigration : List Dev :=
  let k : Option Bytes := some (ramp 32)
  let d (f : Inst → Inst) (l : List Xport) (i o : Nat) : Dev := dep (withSess l (buffers i o (instAt f tenR)))
  [d (fun x => { x with run := .frozen }) [sess 3 true k] 2000 4000, d (fun x => { x with run := .active }) [sess 3 false none] 1976 1976,
   d (fun x => { x with run := .active }) [sess 3 false none, sess 4 true k, sess 5 true k, sess 6 true k] 1976 1976,
   d (fun _ => instReset 1) [sess 3 false k] (foldOf 1 3 false).length 4000]

def officer (r : OfcRun) : Officer := { officerReset 0 with run := r, alg := 0x0102, pk := ramp 97, digest := sha384 (ramp 97), fails := 2, lockEnd := 32768 }
def argAt : Nat := 0x20003000
/-- The idle officer block of a provisioned part with the officers 1 to 3 and class 0, an argument block, and the challenge 1, signed by
two officers, for an operation on that block. -/
def ofcFor (op : Nat) (b : Bytes) : Dev :=
  let c : Chal := ⟨1, 0, 0xFFFF, false, 2 ^ 40, chalBytes 0 0xFFFF 1 (ramp 32) (ramp 16) (0x2000 + op) 0 (sha384 b) (2 ^ 40) 0, [1, 2], false, false⟩
  let d : Dev := { svcR with
    ofc := { ofcReset with
      officers := [(1, officer .active), (2, officer .active), (3, officer .locked)], classes := [(0, some ⟨14, 2, 60⟩), (5, some ⟨6, 2, 60⟩)]
      chals := [c], nextChal := 2, cards := [(0, { cardReset 0 with present := true, run := .identified })] } }
  let d : Dev := setFld (setFld (setFld d pgOFC Reg.OFC_ARG_LO_ADDR_LO (argAt / 8)) pgOFC Reg.OFC_TKT_LO_ADDR_LO (argAt / 8 + 64)) pgOFC
    Reg.OFC_TKT_LEN_LEN (if op < 7 then 16 else 0)
  putBytes (putBytes d argAt b) (argAt + 512) (ascii "ADKT" ++ [1, 0, 0, 0] ++ leBytes 8 1)
/-- The block with challenge 1 reserved. -/
def reserved (d : Dev) : Dev := modChal 1 (fun c => { c with held := true }) d
def wOfc : List Dev :=
  [ofcFor 1 ([0, 9] ++ zeros 6 ++ ramp 16), ofcFor 2 ([3] ++ zeros 7), ofcFor 3 ([6, 2] ++ zeros 2 ++ leBytes 4 60 ++ leBytes 8 14),
   ofcFor 3 ([5, 0] ++ zeros 2 ++ leBytes 4 60 ++ leBytes 8 14), ofcFor 4 (leBytes 2 7 ++ [5] ++ zeros 5), ofcFor 5 ([3] ++ zeros 7),
   ofcFor 5 ([2] ++ zeros 7), ofcFor 6 [], calm .ceremony (ofcFor 7 []), ofcFor 8 ([0, 1] ++ zeros 6 ++ leBytes 2 0x1000 ++ zeros 6 ++ zeros 56),
   ofcFor 9 ([0, 4] ++ zeros 6 ++ ramp 4)]
def wCeremony : List Dev :=
  let e : Dev := { svc with ofc := { ofcReset with op := some (.cerEnter none) }, sys := { svc.sys with draining := some ⟨.ceremony, none, [7]⟩ } }
  [e, withCmds [early .ring hashDesc] e, { calm .ceremony svc with ofc := { ofcReset with cerAt := some 7 } }, ofcFor 2 []]
def wCard : List Dev :=
  let c (f : CardIf → CardIf) (o : OfcSt → OfcSt := id) : Dev :=
    let d : Dev := ofcFor 2 []
    { d with ofc := o { d.ofc with chals := [], cards := [(0, f { cardReset 0 with present := true })] } }
  let ch : Chal := ⟨1, 0, 0xFFFF, false, 2 ^ 40, ramp 144, [], false, false⟩
  [svc, calm .romBoot svc, c (fun x => { x with run := .activating, wait := .atr }),
   c (fun x => { x with run := .activating, classB := true, wait := .atr }),
   c (fun x => { x with run := .identified }), c (fun x => { x with run := .identified, wait := .identity, sel := true }),
   c (fun x => { x with run := .identified, wait := .sign 1, officer := some 1 }) (fun o => { o with chals := [ch] }),
   c (fun x => { x with run := .identified, wait := .pin }) (fun o => { o with op := some (.pin 0 (ramp 4)) }),
   c (fun x => { x with run := .identified, wait := .enrolSign }) (fun o => { o with op := some (.enrol 0 9 (ramp 16) (ramp 144) 0x0102 (ramp 97) none) }),
   c (fun x => { x with run := .activating, wait := .ifs }), c (fun x => { x with run := .activating, wait := .select, ask := true }),
   c (fun x => { x with run := .identified, wait := .enrolId }) (fun o => { o with op := some (.enrol 0 9 (ramp 16) (ramp 144) 0 [] none) })]
/-- No challenge. -/
def chal0 : Chal := ⟨0, 0, 0, false, 0, [], [], false, false⟩

/-! The life cycle. -/

/-- A provisioned part in a life-cycle state, with the rows whose digests are those of 32-byte tokens. -/
def lcDev (l : Lc) (rows : SMap (Option Bytes)) (d : Dev := svc) : Dev :=
  { d with sys := { d.sys with lc := l }
           fuse := { d.fuse with rows := rows, lc0 := lcCode l, lc1 := lcCode l, lc2 := lcCode l }
           sup := { supReset with p12vGood := true, bankMv := 12000 } }
def lcArg : Nat := 0x20004000
def wLc : List Dev :=
  let arg (n : Nat) (d : Dev) : Dev := putBytes (setFld (setFld d pgLC Reg.LC_ARG_LO_ADDR_LO (lcArg / 8)) pgLC Reg.LC_TARGET_TARGET n) lcArg (ramp 48)
  let lc (l : Lc) (rows : SMap (Option Bytes)) (n : Nat) : Dev := arg n (lcDev l rows)
  [lc .test [(1, some (sha384 (ramp 32)))] 2, lc .test [(1, some (ramp 48))] 2, lc .raw [] 0,
   { lcDev .raw [] with lc := ⟨some (.tokenSet 1 (ramp 48)), false⟩ },
   { lcDev .raw [] with lc := ⟨some (.transition 0 (lcCode .test) 0), false⟩ },
   { lcDev .test [] with lc := ⟨some (.transition (lcCode .test) (lcCode .factory) 1), false⟩ }, svc]

/-! The recorder. -/

def recAt (n c : Nat) : EvRec := ⟨n, c, 3, 0x8001, recBytes ⟨c, 3, 0x8001, 32, false, [], none⟩ n 0 false⟩
def wRec : List Dev :=
  let fw (d : Dev) : Dev := setFld (setFld (setFld d pgEVR Reg.EVR_WR_ADDR_LO_ADDR_LO (lcArg / 8)) pgEVR Reg.EVR_WR_LEN_LEN 4) pgEVR Reg.EVR_FW_RATE_RATE 0
  let b (l : List EvRec) (d : Dev) : Dev := { d with nv := { d.nv with evSeq := 6 }, evr := { d.evr with buf := l } }
  let cur (n : Nat) (d : Dev) : Dev := { d with evr := { d.evr with cursors := [n, n, n] } }
  let m : Nat := 0x0300
  let tk : Bytes := leBytes 2 m ++ zeros 6
  let t : Dev := setFld (setFld (ofcFor 7 tk) pgEVR Reg.EVR_CLR_TKT_LO_ADDR_LO (argAt / 8 + 64)) pgEVR Reg.EVR_CLR_TKT_LEN_LEN 16
  [fw (b [recAt 3 2, recAt 4 8] svc), cur 0 svc, calm .startup svc, cur 2 (b [recAt 2 2, recAt 3 8, recAt 4 8] svc), cur 99 (b [recAt 1 2] svc), b [recAt 1 8] t]

/-! The tamper monitor. -/

def quiet : LanternRead := ⟨1000, 1000, 100, 100, false, false, 0, [], 3000, 1000⟩
def low : LanternRead := { quiet with coreMv := 800 }
def wTamp : List Dev :=
  let d (l : Lc) : Dev := { lcDev l [] svc with lant := { svc.lant with root := some (ramp 32) } }
  let r (n : Nat) : Dev := setFld (d .test) pgTAMP1 (fldAt Reg.TAMP_RESP_RESP 0) n
  let src (n : Nat) (x : TampSrc → TampSrc) : Dev :=
    let e : Dev := d .test
    { e with tamp := { e.tamp with src := [(n, x (tampReset n))] } }
  let th (n : Nat) (e : Dev) : Dev := { e with tamp := { e.tamp with throttling := n } }
  let irq (e : Dev) : Dev := modHdr e pgTAMP (fun h => { h with irqEn := 15 })
  [r 0, irq (r 1), r 2, r 3, r 4, r 5, calm .vigil (d .test), src 2 (fun x => { x with a := true, heldUntil := some 50 }), src 0 (fun x => { x with a := true }),
   th 1 (src 0 (fun x => { x with a := true })), src 0 (fun x => { x with a := true, disSince := some 50 }),
   { d .test with tamp := { (d .test).tamp with throttleEnd := some 70 } }, { d .test with lant := { (d .test).lant with resets := [0, 5] } },
   { d .deployed with lant := { (d .deployed).lant with resets := [0, 5] } }]

/-- A state with nothing made visible and no failure noted. -/
theorem begins_st (d : Dev) (h1 : d.out = []) (h2 : d.bus = none) (h3 : d.mpe.failing = none) : Begins (st d) d := by
  refine ⟨?_, h3⟩
  cases d
  subst h1; subst h2
  rfl
/-- Secure firmware on hart 0. -/
def acc : Access := ⟨true, 1, 0, .direct⟩
/-- The first command in flight. -/
def cmd1 (d : Dev) : Cmd := (d.cmd.cmds.head?).getD (cmdAt 0 (desc 0) [] [] [])
/-- A key of a state by its record number. -/
def keyIn (d : Dev) (n : Nat := 1) : KeyRec := (keyAt d n).getD noKey
/-- The outcome of a computation that may end in an error, by a comparison that Lean decides. -/
theorem except_of {ε α : Type} [DecidableEq ε] [DecidableEq α] {x y : Except ε α}
    (h : (match x, y with | .ok a, .ok b => decide (a = b) | .error a, .error b => decide (a = b) | _, _ => false) = true) : x = y := by
  cases x <;> cases y <;> simp_all
/-- The key 1 resident with its draw pointer at 5. -/
def resident1 (k : KeyRec) : Resident := res k
/-- A hardware counter ready, from what Lean decides. -/
theorem counter_st (d : Dev) (k : Cmd) (x : KeyRec) (r : Resident) (h1 : keyAt d (hRec k.desc.key) = some x)
    (h2 : residentOf d (hRec k.desc.key) = some r) (h3 : r.ptr ≤ 2 ^ 64 - 2 ^ 24) (h4 : r.ptr + 2 ^ 22 < x.nonceResv) (h5 : k.counted ≠ []) : CounterReady d k r.ptr :=
  ⟨h5, x, r, h1, h2, rfl, h3, h4⟩
/-- A pair by its two parts. -/
theorem pair_of {α β : Type} {p : α × β} {a : α} {b : β} (h1 : p.1 = a) (h2 : p.2 = b) : p = (a, b) := by
  cases p; cases h1; cases h2; rfl
theorem pair_fst {α β : Type} (p : α × β) {a : α} (h : p.1 = a) : p = (a, p.2) := by
  cases h
  rfl
theorem pair_eta {α β : Type} (p : α × β) : p = (p.1, p.2) := rfl
/-- What is there, from what Lean decides. -/
theorem some_of {α : Type} {o : Option α} (z : α) (h : o.isSome = true) : o = some (o.getD z) := by
  cases o
  · cases h
  · rfl
/-- The error of a computation that fails. -/
def errOf {ε α : Type} (z : ε) : Except ε α → ε
  | .error e => e
  | .ok _ => z
theorem error_of {α : Type} {x : Except (Nat × Nat) α} (z : Nat × Nat) (h : x.toOption.isNone = true) :
    x = .error ((errOf z x).1, (errOf z x).2) := by
  cases x
  · rfl
  · cases h
theorem triple_of {α β γ : Type} (p : α × β × γ) {a : α} (h : p.1 = a) : p = (a, p.2.1, p.2.2) := by
  cases h
  rfl
/-- The checks of an image's header one by one. -/
theorem fault_of (b : Bytes) (d : Dev) (h1 : imgShapeOk b = true) (h2 : leAt b 0x14 2 ≤ 0x0100) (h3 : imgLcOk d b = true)
    (h4 : slice b 0x30 16 = zeros 16) (h5 : bit (imgFlags b) 1 = false) (h6 : slice b 0x70 48 = sha384 (imgKeys b))
    (h7 : imgKey d (slice b 0x70 48) (bit (imgFlags b) 0) ≠ .refused) (h8 : imgSigOk b = true) (h9 : d.fuse.minSvn ≤ imgSvn b) :
    imgFault d b = none := by
  have n2 : ¬ 0x0100 < leAt b 0x14 2 := by omega
  have n9 : ¬ imgSvn b < d.fuse.minSvn := by omega
  unfold imgFault
  rw [h1, h3, h5, h8, if_neg (by simp), if_neg n2, if_neg (by simp), if_neg (by simp [h4]), if_neg (by simp), if_neg, if_neg (by simp), if_neg n9]
  rw [Bool.or_eq_true]
  rintro (h | h)
  · exact absurd h6 (by simpa using h)
  · exact h7 (by simpa using h)
/-- The check of an image past its header. -/
theorem loadCheck_of (b : Bytes) (d : Dev) (h : imgFault d b = none) (h2 : sha384 (imgBody b) = slice b 0x40 48) :
    imgLoadCheck b d = (none, mpeWrite none (imgLoad b) (imgBody b) d) := by
  unfold imgLoadCheck
  rw [h]
  exact congrArg (·, mpeWrite none (imgLoad b) (imgBody b) d) (if_pos h2)
/-- The officer block reads plain memory. -/
theorem ofcRead_plain (info a n : Nat) (d : Dev) (b : Bytes)
    (h : n = 0 ∧ b = [] ∨ 0 < n ∧ a % 4096 + n ≤ 4096 ∧ zoneOf a = .qsram 0 ∧ (quarterOf d 0).pwr = .on
      ∧ partCheck d (whoDevice 5 true) .read a = .pass ∧ memBytes d a n = b) : ofcRead info a n d = (.ok b, d) := by
  rcases h with ⟨rfl, rfl⟩ | ⟨h0, h1, h2, h3, h4, rfl⟩
  · rfl
  · unfold ofcRead
    rw [if_neg (by omega), memFetch2_plain _ _ _ _ _ ⟨h0, h1, .inr ⟨0, h2, h3⟩⟩ h4]
    simp
/-- The officer block begins an operation, from what Lean decides. -/
theorem officer_st (d : Dev) (a : Access) (op : Nat) (b t : Bytes)
    (h : (admitWrite (seenAs a) pgOFC 0x048 d).1 = some .ofc ∧ fieldCode (seenAs a) pgOFC 0 d Reg.OFC_CMD_OP = 0 ∧ d.ofc.op = none
      ∧ (∀ kv, kv ∈ d.shadow → keyOnPage pgOFC kv.1 = false) ∧ ofcServes d = true ∧ takesJobs d pgOFC = true)
    (h1 : ofcArgLen op = 0 ∨ secureRange d (fldPair d pgOFC Reg.OFC_ARG_LO_ADDR_LO Reg.OFC_ARG_HI_ADDR_HI) (ofcArgLen op) = true)
    (h2 : ofcArgLen op = 0 ∧ b = [] ∨ 0 < ofcArgLen op ∧ argAt % 4096 + ofcArgLen op ≤ 4096 ∧ zoneOf argAt = .qsram 0
      ∧ (quarterOf d 0).pwr = .on ∧ partCheck d (whoDevice 5 true) .read argAt = .pass ∧ memBytes d argAt (ofcArgLen op) = b)
    (h3 : fld d pgOFC Reg.OFC_TKT_LEN_LEN = 0 ∨ secureRange d (fldPair d pgOFC Reg.OFC_TKT_LO_ADDR_LO Reg.OFC_TKT_HI_ADDR_HI)
      (fld d pgOFC Reg.OFC_TKT_LEN_LEN) = true)
    (h4 : fld d pgOFC Reg.OFC_TKT_LEN_LEN = 0 ∧ t = [] ∨ fld d pgOFC Reg.OFC_TKT_LEN_LEN = 16 ∧ zoneOf (argAt + 512) = .qsram 0
      ∧ (quarterOf d 0).pwr = .on ∧ partCheck d (whoDevice 5 true) .read (argAt + 512) = .pass ∧ memBytes d (argAt + 512) 16 = t)
    (h5 : ofcArgFault op b = none)
    (h6 : fldPair d pgOFC Reg.OFC_ARG_LO_ADDR_LO Reg.OFC_ARG_HI_ADDR_HI = argAt
      ∧ fldPair d pgOFC Reg.OFC_TKT_LO_ADDR_LO Reg.OFC_TKT_HI_ADDR_HI = argAt + 512) : OfficerBegins d a op b t := by
  refine ⟨h.1, h.2.1, h.2.2.1, h.2.2.2.1, h.2.2.2.2.1, h.2.2.2.2.2, ⟨_, rfl, h1, ?_⟩, ⟨_, _, rfl, rfl, h3, ?_⟩, h5⟩
  · rw [h6.1]
    exact ofcRead_plain _ _ _ _ _ h2
  · rw [h6.2]
    refine ofcRead_plain _ _ _ _ _ ?_
    rcases h4 with h4 | ⟨e, h4⟩
    · exact .inl h4
    · exact .inr ⟨by omega, by rw [e]; decide, h4.1, h4.2.1, h4.2.2.1, by rw [e]; exact h4.2.2.2⟩
/-- A ticket without entries, for the challenge 1 that two officers have signed on their cards, answers an operation. -/
theorem authorised_st (d : Dev) (op : Nat) (b t : Bytes) (c : Chal) (q : QClass)
    (h0 : ofcTicketed d op b = true ∧ class0Ready d = true ∧ t ≠ []) (h1 : ticketTake t = some (⟨0, 1, []⟩, []))
    (h2 : chalOf d 1 = some c) (h3 : qclassOf d 0 = some q)
    (h4 : chalPassed d c = false ∧ leAt c.bytes 0x06 2 = 0xFFFF ∧ chalWho 0xFFFF (0x2000 + op) = 0xFFFF ∧ leAt c.bytes 0x40 2 = 0x2000 + op
      ∧ leAt c.bytes 0x48 8 = 0 ∧ c.id = 1 ∧ c.cls = 0 ∧ c.held = false)
    (h5 : slice c.bytes 0x50 48 = sha384 b) (h6 : q.m ≤ (signers d q c []).length) :
    Authorised d op b t [1] (reserved d) := by
  refine .inr ⟨h0.1, h0.2.1, h0.2.2, rfl, signers d q c [], ?_⟩
  obtain ⟨p, e1, e2, e3, e4, e5, e6, e7⟩ := h4
  have n : ¬ (signers d q c []).length < q.m := by omega
  have k : ticketCheck ⟨0, 1, []⟩ ⟨0xFFFF, 0x2000 + op, 0, sha384 b, 0⟩ d = (.ok (1, signers d q c []), reserved d) := by
    unfold ticketCheck
    simp only [h2, p, e1, e2, e3, e4, h5, e6, h3, ticketSigs, e7, e5]
    rw [if_neg (by simp), if_neg (by simp), if_neg (by simp), if_neg n, if_neg (by simp)]
    rfl
  simp [ticketsCheck, ticketsTake, h1, ticketsGo, k]
/-- A policy check's failure by a comparison that Lean decides. -/
theorem fail_of {r : PolOut} {e : Denial} {c : Cmd} {d : Dev}
    (h : (match r with | .fail e' c' d' => decide (e' = e ∧ c' = c ∧ d' = d) | _ => false) = true) : r = .fail e c d := by
  cases r <;> simp_all
/-- A state is itself with three of its parts replaced by its own. -/
theorem same_parts (d : Dev) : d = { d with key := d.key, ofc := d.ofc, mpe := d.mpe } := rfl
/-- What the port of unit i makes of a job: after the write, the descriptor, the command, the command with its data, and the command
that the policy check admits. -/
def jobD1 (d : Dev) (i : Nat) : Dev := (judge acc (unitPage i) 0x05C (2 ^ 31) d).d
def jobC (d : Dev) (i : Nat) : Cmd :=
  { freshCmd 0 (fld (jobD1 d i) (unitPage i) Reg.SYM_JOB_CTL_INSTANCE) 0 0 (2, 2) (memBytes d jobBase 64) with
    unit := some i, quarter := unitQuarter i }
def jobD2 (d : Dev) (i : Nat) : Dev := modUnit i (fun u => { u with jobRom := false })
  (setFld (setFld (jobD1 d i) (unitPage i) Reg.SYM_JOB_STAT_BUSY 1) (unitPage i) Reg.SYM_JOB_STAT_DONE 0)
def jobC1 (d : Dev) (i : Nat) : Cmd :=
  match (jobRead i (jobC d i) (jobD2 d i)).1 with
  | .ok c => c
  | .error _ => jobC d i
def polPassed : PolOut → Bool
  | .pass _ _ => true
  | _ => false
def polPair (z : Cmd × Dev) : PolOut → Cmd × Dev
  | .pass c x => (c, x)
  | _ => z
theorem pass_of {z : Cmd × Dev} {r : PolOut} (h : polPassed r = true) : r = .pass (polPair z r).1 (polPair z r).2 := by
  cases r <;> simp_all [polPassed, polPair]
@[irreducible] def jobPass (d : Dev) (i : Nat) : Cmd × Dev := polPair (jobC d i, d) (policyRun [] (jobC1 d i) (setJob i (jobC1 d i) (jobD2 d i)))
theorem jobPass_eq (d : Dev) (i : Nat) (h : polPassed (policyRun [] (jobC1 d i) (setJob i (jobC1 d i) (jobD2 d i))) = true) :
    policyRun [] (jobC1 d i) (setJob i (jobC1 d i) (jobD2 d i)) = .pass (jobPass d i).1 (jobPass d i).2 := by
  unfold jobPass
  exact pass_of h
def jobCr (d : Dev) (i : Nat) : Cmd := { (jobPass d i).1 with stage := .run, keyed := true }
def jobDk (d : Dev) (i : Nat) : Dev :=
  setJob i { (jobPass d i).1 with stage := .run, keyed := (jobPass d i).1.counted.isEmpty } (jobPass d i).2
@[irreducible] def jobD4 (d : Dev) (i : Nat) : Dev :=
  if (jobPass d i).1.counted.isEmpty then jobDk d i
  else setJob i (jobCr d i) (wrapFld (jobDk d i) pgKS3 Reg.KS_STAT_HIT_HIT (jobPass d i).1.counted.length)
theorem jobD4_eq (d : Dev) (i : Nat) :
    jobD4 d i = if (jobPass d i).1.counted.isEmpty then jobDk d i
      else setJob i (jobCr d i) (wrapFld (jobDk d i) pgKS3 Reg.KS_STAT_HIT_HIT (jobPass d i).1.counted.length) := by
  unfold jobD4
  rfl
/-- A unit's port reads plain memory. -/
theorem jobFetch_plain (i info a n : Nat) (d : Dev) (b : Bytes)
    (h : a % 2 ^ 40 = a ∧ 0 < n ∧ a % 4096 + n ≤ 4096 ∧ zoneOf a = .qsram 0 ∧ (quarterOf d 0).pwr = .on
      ∧ partCheck d (whoEngine i) .read a = .pass ∧ memBytes d a n = b) : jobFetch i info a n none d = (.ok b, none, d) := by
  obtain ⟨e, h0, h1, h2, h3, h4, rfl⟩ := h
  unfold jobFetch
  rw [e, memFetch2_plain _ _ _ _ _ ⟨h0, h1, .inr ⟨0, h2, h3⟩⟩ h4]
  simp [tagMax]
/-- The end of a digest's job: it answers at once, and only its reads, of which there are none, are over. -/
theorem hashJob_checked (c : Cmd) (x : Dev) (h : c.unit = some 16) : runChecked 16 0 opHash c x
    = .done (okOut (hashRun c.desc.param (srcOf c))) (readsOver (cmdQuarter c x) (readerOf c) x) := by
  simp [runChecked, discardRuns, opReads, opHash, h]
theorem readsOver_parts (q : Nat) (w : Reader) (x : Dev) :
    readsOver q w x = { x with ent := (readsOver q w x).ent, units := (readsOver q w x).units, key := (readsOver q w x).key }
      ∧ ∀ j, j ≠ 16 → unitOf (readsOver q w x) j = unitOf x j := by
  unfold readsOver
  split
  · exact ⟨rfl, fun _ _ => rfl⟩
  · exact ⟨rfl, fun _ _ => rfl⟩
theorem jobOp_hash : jobOp 0x0401 = some opHash := rfl
/-- With an even public exponent no prime is ever found. -/
theorem nextPrime_even {e : Nat} (he : e % 2 = 0) : ∀ f n, n % 2 = 1 → nextPrime e f n = none
  | 0, _, _ => rfl
  | f + 1, n, hn => by
    have g : ¬ Nat.gcd (n - 1) e = 1 := fun h => by
      have h2 : 2 ∣ Nat.gcd (n - 1) e := Nat.dvd_gcd (by omega) (by omega)
      omega
    unfold nextPrime
    simp only [g, decide_false, Bool.false_and, Bool.false_eq_true, if_false]
    exact nextPrime_even he f (n + 2) (by omega)
theorem primeStart_odd (b : Bytes) (n : Nat) : primeStart b n % 2 = 1 := by
  unfold primeStart
  simp only
  split <;> omega
/-- So the generation of an RSA pair is abandoned. -/
theorem genMat_even {alg e : Nat} (b : Bytes) (he : e % 2 = 0) (h : algEc alg = false ∧ alg ≠ 0x0110 ∧ alg ≠ 0x0111 ∧ algRsa alg = true) :
    genMat alg e b = none := by
  unfold genMat
  simp only [h.1, h.2.1, h.2.2.1, h.2.2.2, nextPrime_even he _ _ (primeStart_odd _ _), Bool.false_eq_true, if_false, if_true]
/-- Signing takes no more iterations than it may. -/
theorem dsaLoop_le (p : DsaPar) (k : DsaKey) (a : List (List Poly)) (mu rho : Bytes) : ∀ f it, (dsaLoop p k a mu rho f it).2 ≤ it + f
  | 0, it => Nat.le_refl it
  | f + 1, it => by
    have h := dsaLoop_le p k a mu rho f (it + 1)
    unfold dsaLoop
    simp only
    split
    · omega
    · split
      · omega
      · exact Nat.add_le_add_left (Nat.le_add_left 1 f) it
theorem dsaSign_le (alg : Nat) (xi m rnd : Bytes) : (dsaSign alg xi m rnd).2 ≤ 814 := by
  have h := dsaLoop_le (dsaPar alg) (dsaKey alg xi) (matD (dsaPar alg) (dsaKey alg xi).rho)
    (shake256 (shake256 (dsaPkOf (dsaKey alg xi)) 64 ++ m) 64)
    (shake256 ((dsaKey alg xi).bigK ++ rnd ++ shake256 (shake256 (dsaPkOf (dsaKey alg xi)) 64 ++ m) 64) 64) 814 0
  rw [Nat.zero_add] at h
  exact h
/-- Bytes enough for any run of ML-DSA. -/
theorem dsa_ready (d : Dev) (k : Cmd) (n r x : Nat)
    (h1 : (wellOf d (cmdQuarter k d)).run ≠ .entFail ∧ drbgOpen d.sys.mode = true ∧ NoReads d (cmdQuarter k d))
    (h2 : (drbgOf d (cmdQuarter k d)).buf = zeros 140000) (h3 : n = discarded k 0 x + 32 + 160 * r) (h4 : r ≤ 814) : RandomReady d k n := by
  have h5 : discarded k 0 x = 0 := by simp [discarded]
  refine ⟨h1.1, h1.2.1, h1.2.2, ?_⟩
  rw [h2, zeros, List.length_replicate]
  omega
/-- Two states of the block with the same register file agree on every page. -/
theorem pages_same (l : List Nat) (a b : Dev) (h : b.regs = a.regs) : pagesBut l a b := fun p off _ _ => by
  unfold regGet
  rw [h]
/-- Two register files that agree off some pages. -/
theorem pages_off (l : List Nat) (a b : Dev) (h : smapKeep (fun k => !(l.contains (k / 1024 % 0x1000))) b.regs
    = smapKeep (fun k => !(l.contains (k / 1024 % 0x1000))) a.regs) : pagesBut l a b := fun p off hp ho => by
  have e : regKey p off / 1024 = p := by
    unfold regKey
    omega
  have q := fun m => smapGet_keep regReset (fun k => !(l.contains (k / 1024 % 0x1000))) m (regKey p off) (by simp [e, hp])
  unfold regGet
  rw [← q b.regs, h, q a.regs]
/-- A policy check that passes, and what it answers; one that fails, and what it answers. -/
def polTriple (z : Denial × Cmd × Dev) : PolOut → Denial × Cmd × Dev
  | .fail e c x => (e, c, x)
  | _ => z
def polFailed : PolOut → Bool
  | .fail .. => true
  | _ => false
theorem failed_of {z : Denial × Cmd × Dev} {r : PolOut} (h : polFailed r = true) :
    r = .fail (polTriple z r).1 (polTriple z r).2.1 (polTriple z r).2.2 := by
  cases r <;> simp_all [polFailed, polTriple]
/-- Outside DROWSE no transaction of a host wakes the device. -/
theorem awake_st (d : Dev) (l : Option Nat) (h : d.sys.mode ≠ .drowse) : Awake d l := fun e => absurd e h
theorem awakeFor_st (d : Dev) (a : Access) (h : d.sys.mode ≠ .drowse ∧ accSeen d a = a) : AwakeFor d a := ⟨awake_st _ _ h.1, h.2⟩
/-- A transaction that the interconnect carries, of a master other than a host, unchanged on its way. -/
theorem plain_st (d : Dev) (b : Bus) (h : (masterOk b.cls b.idx = true ∧ 0 < b.len ∧ b.len ≤ 64 ∧ busPmp d b = false ∧ (b.cls = 5 → debugMay d = true)) ∧
    b.badCode = none ∧ b.cls ≠ 2) : BusPlain d b :=
  ⟨h.1, h.2.1, fun e => absurd e h.2.2⟩

/-! More states that the witnesses name. -/

def digestAndMacCommandsState5 : Dev :=
  withCmd { cmdAt 0 (desc 0x0404) [aKey 0x0012 32] (ramp 3) [] with desc := { desc 0x0404 with dstLen := 8 } } svc
def derivationAndRandomCommandsState7 : Dev :=
  onWell (fun w => { w with run := .entFail }) (withCmd (cmdAt 28 (desc 0x0501) [] [] []) svc)
def authenticatedCommandsState9 : Dev :=
  withCmd { cmd1 (wAuth.getD 8 svc) with done := 2 } svc
def contextCommandsState1 : Dev :=
  withCmd (cmdAt 0 (desc 0x0209) [aes, kek] ((ctxOfCmd 0x0201 0).take 127 ++ [1]) []) svc
def contextCommandsState4 : Dev :=
  withCmd (cmdAt 0 (desc 0x020A) [aes, kek] (ctxSeal (ramp 32 2) (ramp 12) ⟨2, 0x0201, 0, 0, 1, 32, 16, 1, 9⟩ ⟨ramp 16, 77, zeros 16⟩) []) svc
def curveSignatureCommandsState4 : Dev :=
  withCmd (cmdAt 20 (pk 0x0302 0x0208) [ecKey] (ramp 9) (args ++ zeros 73)) svcR
def latticeAndHashSignatureCommandsState0 : Dev :=
  withCmd (cmdAt 20 (pk 0x030A 0) [aKey 0x0311 32] (ramp 9) args) svcD
def pairAndAttributeCommandsState1 : Dev :=
  withCmd (aUnit 0x0102 20 [] [] ((tmpl 0x0201 4).take 48 ++ [4] ++ zeros 15) 0) svcL
def keyExportCommandsState3 : Dev :=
  withCmd (aUnit 0x0106 28 [hmacKey, kek] [] (ascii "D00") 0 8) svcR
def routedKeyCommandsState3 : Dev :=
  withCmd (fw 0x010C [aes] [] (leBytes 8 (3 * 2 ^ 54 + 4))) stored
def routedKeyCommandsState4 : Dev :=
  withCmd (fw 0x010C [aes] [] (leBytes 8 (99 * 2 ^ 54 + 1))) { stored with key := { stored.key with t1 := [(1, .key { aes with attr := aesUse + 2 ^ 24, grants := (List.range 60).map fun i => ⟨i, 1⟩ })] } }
def custodyCommandsState2 : Dev :=
  withCmd (fw 0x010F [aes, kek] (backupHeader 0 0 kek.kcv) [] 1) stored
def custodyCommandsState3 : Dev :=
  withCmd (fw 0x010F [aes, kek] (backupHeader 0 300 kek.kcv) [] 1) stored
def custodyCommandsState6 : Dev :=
  withCmd (fw 0x0110 [] (ramp 32 ++ ramp 32 5) (tmpl 0x0012 aesUse ++ zeros 5 ++ kcvOf 0x0012 false (ramp 32) ++ zeros 16) 2) (inCeremony stored)
def custodyCommandsState7 : Dev :=
  withCmd (fw 0x0112 [] [] (leBytes 2 0x010E ++ zeros 62) 4) { stored with ofc := { ofcReset with classes := [(3, some ⟨7, 2, 60⟩)] } }
def dukptAndCardValueCommandsState2 : Dev :=
  withCmd (aUnit 0x0601 0 [{ bdkAes with alg := 0x0010 }] [] (ksnAes ++ tmpl 0x0012 0) 5) svcR
def pinAndDataCommandsState2 : Dev :=
  withCmd (aUnit 0x0602 0 [pinKey 1, pinKey 2] (zeros 8) (pinAux 0 1 [])) svcR
def pinAndDataCommandsState4 : Dev :=
  withCmd (aUnit 0x0602 0 [pinKey 1, aes] (zeros 8) (pinAux 0 0 [])) svcR
def pinAndDataCommandsState8 : Dev :=
  withCmd (aUnit 0x0606 0 [aKey 0x0012 32, aKey 0x0018 24 2] (ramp 24) (ramp 48) 0x10) svcR
def accessCodeCommandsState11 : Dev :=
  withCmd { aUnit 0x0805 20 [aKey 0x0311 32] locker [] with counted := [1] } (withKey codeKey svcD)
def accessCodeCommandsState12 : Dev :=
  withCmd { aUnit 0x0805 16 [codeKey] (2 :: locker.drop 1) [] with counted := [1] } (withKey codeKey svcR)
def accessCodeCommandsState13 : Dev :=
  withCmd { aUnit 0x0805 16 [codeKey] locker [] 0 63 with counted := [1] } (withKey codeKey svcR)
def commandIntakeCommandsState9 : Dev :=
  atPolicy { hashDesc with opcode := 0x010A, param := 0 } 
def commandIntakeCommandsState10 : Dev :=
  atPolicy { hashDesc with opcode := 0x0109, param := 0 } 
def commandIntakeCommandsState11 : Dev :=
  atPolicy { hashDesc with opcode := 0x010C, param := 0 }
def egressCommandsState2 : Dev :=
  withCmd { cmdAt 16 { hashDesc with flags := 2 ^ flNO_IRQ } [] (ramp 64) [] with inst := 1, sq := 1, cq := 1, ver := (2, 2), stage := .held, mute := true, result := some { okOut [] with effects := [.create aes 2 1 9 true none] } } queued
def egressCommandsState3 : Dev :=
  withCmd { cmdAt 16 { hashDesc with flags := 2 ^ flNO_IRQ } [] (ramp 64) [] with inst := 1, sq := 1, cq := 1, ver := (2, 2), stage := .held, mute := true, result := some { okOut [] with effects := [.destroy (1 + 2 ^ 52 + 2 ^ 54)] } } { queued with key := { queued.key with t1 := [(1, .key (aKey 0x0012 32 (1 + 2 ^ 52 + 2 ^ 54)))] } }
def keyStoreCommandsState1 : Dev :=
  { svc with key := { svc.key with t1 := [(1, .key { aKey 0x0012 32 1 with limit := 100, nonceResv := 4 })], usageRaise := [(1, some (70, false))] } }
def wellCommandsState1 : Dev :=
  onWell (fun w => { w with pri := { noiseReset with run := .failed }, alt := { noiseReset with run := .failed } }) svc

/-- Firmware runs, and the monitor holds the state in which harts start. -/
def hartsHeld : Dev := { firm with sys := { firm.sys with hartState := true } }
/-- Protected memory does not serve. -/
def noMpe (d : Dev) : Dev := { d with mpe := { d.mpe with kMem := none } }
/-- A message of zeros is as long as it says. -/
theorem long_zeros {n : Nat} (m : Nat) (h : n ≤ m) : n ≤ (zeros m).length := by
  unfold zeros
  rw [List.length_replicate]
  exact h

/-! ## Well-formedness -/

/-- A transaction in range. -/
def bus0 : Bus := ⟨true, false, 0, 0, .read, 0, 8, [], false, none, none, none⟩

/-- An access by a master of no class. -/
def accBad : Access := ⟨true, 8, 0, .direct⟩

/-- A transaction beyond the 40-bit address space. -/
def busBad : Bus := { bus0 with addr := 2 ^ 40 }

/-- What the lantern domain reads at rest. -/
def lantern0 : LanternRead := ⟨0, 0, 0, 0, false, false, 0, [], 3000, 800⟩

/-- Every operand of an access and of a transaction has its range. -/
theorem wellFormed_access :
    ([acc, ⟨false, 2, 1, .pf 1⟩, ⟨true, 1, 0, .vf 1023 (some 4)⟩] : List Access).all Access.wf = true
      ∧ ([accBad, ⟨true, 1, 32, .direct⟩, ⟨true, 7, 0, .direct⟩, ⟨true, 1, 0, .pf 2⟩, ⟨true, 1, 0, .vf 1024⟩, ⟨true, 1, 0, .pf 1 (some 5)⟩] : List Access).all (fun a => !a.wf) = true
      ∧ bus0.wf = true ∧ { bus0 with kind := .write, data := ramp 8 }.wf = true
      ∧ ([busBad, { bus0 with cls := 8 }, { bus0 with idx := 16 }, { bus0 with len := 65 }, { bus0 with stream := some 5 }, { bus0 with kind := .write, data := ramp 7 }] : List Bus).all
          (fun b => !b.wf) = true := by
  decide +kernel

/-- Each check refuses a command that breaks it and no other. -/
theorem wellFormed_refuses_1 : ([
    .loaderHandshake accBad none, .romTransitionService accBad none, .holdupDetect 65536 false 0, .holdupDetect 0 false 8,
    .lanternSupplyChange 65536 0 0 0 false, .lanternSupplyChange 0 65536 0 0 false, .lanternSupplyChange 0 0 65536 0 false,
    .lanternSupplyChange 0 0 0 65536 false, .linkTraining 2, .linkUp 2 ⟨16, 6, true⟩, .linkDown 2, .usb4Attach false 65536,
    .functionLevelReset 2 none, .vfEnableChange 2 false 0, .vfEnableChange 0 false 65536, .configRequest 2 0 false .vendorId 0,
    .configRequest 0 1025 false .vendorId 0, .configRequest 0 0 false .vendorId (2 ^ 32), .ideCheckFail 2 0, .ideCheckFail 0 256,
    .doeRequest 2 .getVersion, .doeAbort 2, .smbusRequest ⟨128, .other⟩, .msixUnmask 0 0 0 (some 5), .msixUnmask 2 0 0, .msixUnmask 0 1025 0, .msixUnmask 0 0 17, .registerWrite accBad 0 0 4 0,
    .registerWrite acc 0xC00 0 4 0, .registerWrite acc 0 0x1000 4 0, .registerWrite acc 0 0 3 0, .registerWrite acc 0 0 4 (2 ^ 64),
    .softReset accBad 0, .softReset acc 0x800, .softResetComplete 0x800, .pgPwrRequest accBad 0 0, .pgPwrRequest acc 0x800 0,
    .pgPwrRequest acc 0 (2 ^ 32), .unitPowerDrained 0x800, .cmdEnable accBad, .mpeEnable accBad, .htEnable accBad, .instEnable accBad 0,
    .instEnable acc 1024, .sqEnable accBad 0 0 0, .sqEnable acc 1024 0 0, .sqEnable acc 0 16 0, .sqEnable acc 0 0 (2 ^ 32), .sqDisable accBad 0 0 0,
    .sqDisable acc 1024 0 0, .sqDisable acc 0 16 0, .sqDisable acc 0 0 (2 ^ 32), .cqEnable accBad 0 0 0, .cqEnable acc 1024 0 0,
    .cqEnable acc 0 16 0, .cqEnable acc 0 0 (2 ^ 32), .cqDisable accBad 0 0 0, .cqDisable acc 1024 0 0, .cqDisable acc 0 16 0,
    .cqDisable acc 0 0 (2 ^ 32), .sqTailDoorbell 1024 0 0, .sqTailDoorbell 0 16 0] : List Instr).all (fun c => !c.wf) = true := by decide +kernel

theorem wellFormed_refuses_2 : ([
    .sqTailDoorbell 0 0 (2 ^ 32), .cqHeadDoorbell 1024 0 0, .cqHeadDoorbell 0 16 0, .cqHeadDoorbell 0 0 (2 ^ 32), .descriptorFetch 1024 0,
    .descriptorFetch 0 16, .descriptorParse (2 ^ 32), .policyCheck (2 ^ 32), .routedEntryWrite (2 ^ 32), .routedCompletion accBad 0,
    .routedCompletion acc (2 ^ 32), .routedTimeout (2 ^ 32), .keyFetch (2 ^ 32) keySound, .sqTailDoorbell 0 0 0 (some 5), .cqHeadDoorbell 0 0 0 (some 5), .t0Load (2 ^ 32),
    .t2DemandLoad (2 ^ 32) vaultSound, .vaultBatchCommit 65536, .vaultBatchCommit 0 4, .genRoot acc 0, .genRoot acc 6, .usagePeriodDue 0x4000000, .usageResvRaise 0x4000000,
    .nonceResvRaise 0x4000000, .derivedKeyFree 0x4000000, .cqCoalTimeout 1024 0, .cqCoalTimeout 0 16, .workRingTake 8 0, .workRingTake 0 64,
    .xtsDataUnit (2 ^ 32) 0, .xtsDataUnit 0 16, .keyGenerateSym (2 ^ 32), .keyGeneratePair (2 ^ 32) 0, .keyImportWrapped (2 ^ 32),
    .keyImportX9143 (2 ^ 32), .keyExportWrapped (2 ^ 32), .keyExportX9143 (2 ^ 32), .keyDerive (2 ^ 32), .keyDestroy (2 ^ 32), .keyGetAttr (2 ^ 32),
    .keySetAttr (2 ^ 32), .keyList (2 ^ 32), .keyGrant (2 ^ 32), .keyRevokeGrant (2 ^ 32), .keyBackupExport (2 ^ 32), .keyRestore (2 ^ 32),
    .keyImportClear (2 ^ 32), .keyPublicExport (2 ^ 32), .quorumChallenge (2 ^ 32), .aesEcb (2 ^ 32) 0, .aesCbc (2 ^ 32) 0, .aesCtr (2 ^ 32) 0,
    .aesGcm (2 ^ 32) 0, .aesCcm (2 ^ 32) 0, .aesXts (2 ^ 32) 0, .tdesEcb (2 ^ 32) 0, .tdesCbc (2 ^ 32) 0, .ctxSave (2 ^ 32), .ctxRestore (2 ^ 32),
    .ecdsaSign (2 ^ 32) 0, .ecdsaVerify (2 ^ 32), .eddsaSign (2 ^ 32) 0, .eddsaVerify (2 ^ 32), .ecdhAgree (2 ^ 32) 0] : List Instr).all (fun c => !c.wf) = true := by decide +kernel

theorem wellFormed_refuses_3 : ([
    .rsaPrivate (2 ^ 32) 0, .rsaPublic (2 ^ 32), .mlkemEncap (2 ^ 32) 0, .mlkemDecap (2 ^ 32) 0, .mldsaSign (2 ^ 32) 0, .mldsaVerify (2 ^ 32),
    .slhdsaSign (2 ^ 32) 0, .slhdsaVerify (2 ^ 32), .hbsVerify (2 ^ 32), .imageVerify (2 ^ 32), .hash (2 ^ 32) 0, .shake (2 ^ 32) 0,
    .hmac (2 ^ 32) 0, .cmac (2 ^ 32) 0, .gmac (2 ^ 32) 0, .macVerify (2 ^ 32) 0, .hkdf (2 ^ 32), .kdfCtr (2 ^ 32), .tls13KeySchedule (2 ^ 32),
    .randomBytes (2 ^ 32), .entropyStatus (2 ^ 32), .dukptDerive (2 ^ 32), .pinTranslate (2 ^ 32), .pinVerify (2 ^ 32), .cvvGenerate (2 ^ 32),
    .cvvVerify (2 ^ 32), .dataTranslate (2 ^ 32) 0, .ff1Encrypt (2 ^ 32), .ff1Decrypt (2 ^ 32), .tokenTranslate (2 ^ 32), .hotpGenerate (2 ^ 32),
    .hotpVerify (2 ^ 32), .totpGenerate (2 ^ 32), .totpVerify (2 ^ 32), .lockerTokenSign (2 ^ 32), .pickupCodeIssue (2 ^ 32),
    .pickupCodeVerify (2 ^ 32), .firmwareRoutedOpcode (2 ^ 32), .symJobGo accBad 0 0 0, .symJobGo acc 16 0 0, .symJobGo acc 0 (2 ^ 32) 0,
    .hashJobGo accBad 0 0 0, .hashJobGo acc 4 0 0, .hashJobGo acc 0 (2 ^ 32) 0, .pkeJobGo accBad 0 0 0, .pkeJobGo acc 8 0 0,
    .pkeJobGo acc 0 (2 ^ 32) 0, .jobDone 8 0, .jobDone 0 64, .genRoot accBad, .vaultSync accBad, .t0Flush accBad, .interconnectTransaction busBad,
    .targetResetRetry (2 ^ 32), .protectedRead busBad ⟨0, 0, 0, none⟩, .protectedWrite busBad none, .wellStart 4 false, .startupTestDone 4 false (zeros 1024),
    .startupTestDone 0 false (zeros 1023), .continuousTestFail 4 false []] : List Instr).all (fun c => !c.wf) = true := by decide +kernel

theorem wellFormed_refuses_4 : ([
    .sourceRetest 4 false, .returnToPrimary 4, .conditionedBlock 4 [], .drbgReseed 6, .drbgGenerate 6,
    .hwRandomRead 4 0, .drbgSwDataRead accBad, .entEmptyClear accBad, .rawCapture accBad 0 0, .rawCapture acc 4 0, .rawCapture acc 0 (2 ^ 32),
    .capDone 4 [], .patternSubstitution accBad 0 0, .patternSubstitution acc 4 0, .patternSubstitution acc 0 (2 ^ 32), .stileIdent 16,
    .stileHas 16 0, .stileHas 0 (2 ^ 64), .unknownCall 16 0, .unknownCall 0 (2 ^ 64), .hartWake 16 0 0 0 0, .hartWake 0 (2 ^ 64) 0 0 0,
    .hartWake 0 0 (2 ^ 64) 0 0, .hartWake 0 0 0 (2 ^ 64) 0, .hartWake 0 0 0 0 (2 ^ 64), .hartRetire 16 0, .hartRetire 0 (2 ^ 64), .hartQuery 16,
    .modeRequest 16 0, .modeRequest 0 (2 ^ 64), .deviceRestart 16 0 { lpddrOk := true, mpeOk := true, katBad := [], weak := [] }, .deviceRestart 0 (2 ^ 64) { lpddrOk := true, mpeOk := true, katBad := [], weak := [] }, .fwInfo 16,
    .fwStage 16 0 0 false, .fwStage 0 (2 ^ 64) 0 false, .fwStage 0 0 (2 ^ 64) false, .fwConfirm 16, .fwCommitSvn 16 false, .fwKeyAdd 16 0 false,
    .fwKeyAdd 0 (2 ^ 64) false, .fwKeyRevoke 16 0, .fwKeyRevoke 0 (2 ^ 64), .worldSwitch 16 0 0 0 [], .worldSwitch 0 (2 ^ 64) 0 0 [],
    .worldSwitch 0 0 (2 ^ 64) 0 [], .worldSwitch 0 0 0 (2 ^ 64) [], .nsEntry 16 0 0 0, .nsEntry 0 (2 ^ 64) 0 0, .nsEntry 0 0 (2 ^ 64) 0,
    .nsEntry 0 0 0 (2 ^ 64), .hostcfgSet 16 0, .hostcfgSet 0 (2 ^ 64), .debugNonce 16 0, .debugNonce 0 (2 ^ 64), .debugCert 16 0 0,
    .debugCert 0 (2 ^ 64) 0, .debugCert 0 0 (2 ^ 64), .secureIrqSwitch 16 [], .watchdogKick 16] : List Instr).all (fun c => !c.wf) = true := by decide +kernel

theorem wellFormed_refuses_5 : ([
    .watchdogTrip 16, .doubleTrap 16, .faultHandlingDone 5, .irqcClaim accBad 0, .irqcClaim acc 16, .irqcComplete accBad 0 0,
    .irqcComplete acc 16 0, .irqcComplete acc 0 (2 ^ 32), .irqcSwiSet accBad 0, .irqcSwiSet acc (2 ^ 32), .gpioInputEdge 256, .monitorSource 512,
    .dmaStart accBad 0 0 [] none, .dmaStart acc 32 0 [] none, .dmaStart acc 0 (2 ^ 32) [] none, .dmaAbort accBad 0 0, .dmaAbort acc 32 0,
    .dmaAbort acc 0 (2 ^ 32), .dmaReadbackDone 32 [] none, .gpioWrite accBad 0 0, .gpioWrite acc 0x1000 0, .gpioWrite acc 0 (2 ^ 32),
    .gpioWorldWrite accBad 0, .gpioWorldWrite acc (2 ^ 32), .assign accBad 0 0, .assign acc (2 ^ 32) 0, .assign acc 0 (2 ^ 32),
    .setQuota accBad 0 0, .setQuota acc (2 ^ 32) 0, .setQuota acc 0 (2 ^ 32), .quiesce accBad 0, .quiesce acc (2 ^ 32), .quiesceDrained 1024,
    .resume accBad 0, .resume acc (2 ^ 32), .freeze accBad 0, .freeze acc (2 ^ 32), .freezeDone 1024, .thaw accBad 0, .thaw acc (2 ^ 32),
    .reset accBad 0, .reset acc (2 ^ 32), .remove accBad 0, .remove acc (2 ^ 32), .discard accBad 0, .discard acc (2 ^ 32), .xportOffer accBad 0 0,
    .xportOffer acc (2 ^ 32) 0, .xportOffer acc 0 (2 ^ 32), .xportAccept accBad 0 0 none, .xportAccept acc (2 ^ 32) 0 none,
    .xportAccept acc 0 (2 ^ 32) none, .xportComplete accBad 0 0 none, .xportComplete acc (2 ^ 32) 0 none, .xportComplete acc 0 (2 ^ 32) none,
    .mgrExport accBad 0 0 none, .mgrExport acc (2 ^ 32) 0 none, .mgrExport acc 0 (2 ^ 32) none, .mgrImport accBad 0 0 none,
    .mgrImport acc (2 ^ 32) 0 none] : List Instr).all (fun c => !c.wf) = true := by decide +kernel

theorem wellFormed_refuses_6 : ([
    .mgrImport acc 0 (2 ^ 32) none, .xportClose accBad 0, .xportClose acc (2 ^ 32), .xportSessionExpire (2 ^ 32), .mgrMbSend accBad 0,
    .mgrMbSend acc (2 ^ 32), .mgrMbEmpty accBad 0, .mgrMbEmpty acc (2 ^ 32), .instMbSend accBad 0 0, .instMbSend acc 1024 0,
    .instMbSend acc 0 (2 ^ 32), .instMbEmpty accBad 0 0, .instMbEmpty acc 1024 0, .instMbEmpty acc 0 (2 ^ 32), .mgrEventRead accBad,
    .enrol accBad 0, .enrol acc (2 ^ 32), .revoke accBad 0, .revoke acc (2 ^ 32), .setClass accBad 0, .setClass acc (2 ^ 32),
    .setInstClass accBad 0, .setInstClass acc (2 ^ 32), .unlock accBad 0, .unlock acc (2 ^ 32), .cerEnter accBad 0, .cerEnter acc (2 ^ 32),
    .cerExit accBad 0, .cerExit acc (2 ^ 32), .challenge accBad 0, .challenge acc (2 ^ 32), .pin accBad 0, .pin acc (2 ^ 32),
    .challengeExpire (2 ^ 32), .cardInsert 2 none, .cardRemove 2, .cardFault 2, .cardResponse 2 (.status 0), .lockoutExpire 64,
    .transition accBad 0, .transition acc (2 ^ 32), .tokenSet accBad 0, .tokenSet acc (2 ^ 32), .clearGrant accBad, .debugHaltRequest 16,
    .debugAccess false (2 ^ 40) 4 0, .debugAccess false 0 3 0, .debugAccess false 0 4 (2 ^ 32), .evrWriteGo accBad 0, .evrWriteGo acc (2 ^ 32),
    .evrClearGo accBad 0, .evrClearGo acc (2 ^ 32), .evrRdNext accBad, .evrRdPrev accBad, .evrCursorSet accBad 0, .evrCursorSet acc (2 ^ 32),
    .tripHoldEnd 16, .monfault 16, .tamperFuseReq accBad 0, .tamperFuseReq acc (2 ^ 32)] : List Instr).all (fun c => !c.wf) = true := by decide +kernel

theorem wellFormed_refuses_7 : ([
    .loopArm accBad 0 0 0, .loopArm acc (2 ^ 32) 0 0, .loopArm acc 0 65536 0, .loopArm acc 0 0 65536, .quarterPowerRequest accBad 0,
    .quarterPowerRequest acc (2 ^ 32), .quarterPowerDrained 4, .drowseWake 8, .measDone 65536 0, .measDone 0 65536, .lockLost 5, .atrTimeout 2,
    .bankCharged 65536, .tamperAlarm [⟨0, true, false, none, 3, none⟩], .tamperAlarmEnd 16] : List Instr).all (fun c => !c.wf) = true := by decide +kernel

/-- The same commands with every operand in range. -/
theorem wellFormed_admits_1 : ([
    .loaderHandshake acc none, .romTransitionService acc none, .holdupDetect 0 false 0, .lanternSupplyChange 0 0 0 0 false, .linkTraining 0,
    .linkUp 0 ⟨16, 6, true⟩, .linkDown 0, .usb4Attach false 0, .functionLevelReset 0 none, .vfEnableChange 0 false 0,
    .configRequest 0 0 false .vendorId 0, .ideCheckFail 0 0, .doeRequest 0 .getVersion, .doeAbort 0, .smbusRequest ⟨127, .other⟩, .msixUnmask 0 0 0 (some 4), .registerWrite acc 0 0 4 0,
    .softReset acc 0, .softResetComplete 0, .pgPwrRequest acc 0 0, .unitPowerDrained 0, .cmdEnable acc, .mpeEnable acc, .htEnable acc,
    .instEnable acc 0, .sqEnable acc 0 0 0, .sqDisable acc 0 0 0, .cqEnable acc 0 0 0, .cqDisable acc 0 0 0, .sqTailDoorbell 0 0 0,
    .cqHeadDoorbell 0 0 0, .descriptorFetch 0 0, .descriptorParse 0, .policyCheck 0, .routedEntryWrite 0, .routedCompletion acc 0, .routedTimeout 0,
    .keyFetch 0 keySound, .t0Load 0, .t2DemandLoad 0 vaultSound, .vaultBatchCommit 0, .usagePeriodDue 0, .usageResvRaise 0,
    .nonceResvRaise 0, .derivedKeyFree 0, .cqCoalTimeout 0 0, .workRingTake 0 0, .xtsDataUnit 0 0, .keyGenerateSym 0, .keyGeneratePair 0 0,
    .keyImportWrapped 0, .keyImportX9143 0, .keyExportWrapped 0, .keyExportX9143 0, .keyDerive 0, .keyDestroy 0, .keyGetAttr 0, .keySetAttr 0,
    .keyList 0, .keyGrant 0, .keyRevokeGrant 0] : List Instr).all Instr.wf = true := by decide +kernel

theorem wellFormed_admits_2 : ([
    .keyBackupExport 0, .keyRestore 0, .keyImportClear 0, .keyPublicExport 0, .quorumChallenge 0, .aesEcb 0 0, .aesCbc 0 0, .aesCtr 0 0,
    .aesGcm 0 0, .aesCcm 0 0, .aesXts 0 0, .tdesEcb 0 0, .tdesCbc 0 0, .ctxSave 0, .ctxRestore 0, .ecdsaSign 0 0, .ecdsaVerify 0, .eddsaSign 0 0,
    .eddsaVerify 0, .ecdhAgree 0 0, .rsaPrivate 0 0, .rsaPublic 0, .mlkemEncap 0 0, .mlkemDecap 0 0, .mldsaSign 0 0, .mldsaVerify 0,
    .slhdsaSign 0 0, .slhdsaVerify 0, .hbsVerify 0, .imageVerify 0, .hash 0 0, .shake 0 0, .hmac 0 0, .cmac 0 0, .gmac 0 0, .macVerify 0 0, .hkdf 0,
    .kdfCtr 0, .tls13KeySchedule 0, .randomBytes 0, .entropyStatus 0, .dukptDerive 0, .pinTranslate 0, .pinVerify 0, .cvvGenerate 0, .cvvVerify 0,
    .dataTranslate 0 0, .ff1Encrypt 0, .ff1Decrypt 0, .tokenTranslate 0, .hotpGenerate 0, .hotpVerify 0, .totpGenerate 0, .totpVerify 0,
    .lockerTokenSign 0, .pickupCodeIssue 0, .pickupCodeVerify 0, .firmwareRoutedOpcode 0, .symJobGo acc 0 0 0, .hashJobGo acc 0 0 0] : List Instr).all Instr.wf = true := by decide +kernel

theorem wellFormed_admits_3 : ([
    .pkeJobGo acc 0 0 0, .jobDone 0 0, .genRoot acc, .vaultSync acc, .t0Flush acc, .interconnectTransaction bus0, .targetResetRetry 0,
    .protectedRead bus0 ⟨0, 0, 0, none⟩, .protectedWrite bus0 none, .wellStart 0 false, .startupTestDone 0 false (zeros 1024), .continuousTestFail 0 false [],
    .sourceRetest 0 false, .returnToPrimary 0, .conditionedBlock 0 [], .drbgReseed 0, .drbgGenerate 0, .hwRandomRead 0 0, .drbgSwDataRead acc,
    .entEmptyClear acc, .rawCapture acc 0 0, .capDone 0 [], .patternSubstitution acc 0 0, .stileIdent 0, .stileHas 0 0, .unknownCall 0 0,
    .hartWake 0 0 0 0 0, .hartRetire 0 0, .hartQuery 0, .modeRequest 0 0, .deviceRestart 0 0 { lpddrOk := true, mpeOk := true, katBad := [], weak := [] }, .fwInfo 0, .fwStage 0 0 0 false,
    .fwConfirm 0, .fwCommitSvn 0 false, .fwKeyAdd 0 0 false, .fwKeyRevoke 0 0, .worldSwitch 0 0 0 0 [], .nsEntry 0 0 0 0, .hostcfgSet 0 0,
    .debugNonce 0 0, .debugCert 0 0 0, .secureIrqSwitch 0 [], .watchdogKick 0, .watchdogTrip 0, .doubleTrap 0, .faultHandlingDone 0,
    .irqcClaim acc 0, .irqcComplete acc 0 0, .irqcSwiSet acc 0, .gpioInputEdge 0, .monitorSource 0, .dmaStart acc 0 0 [] none, .dmaAbort acc 0 0,
    .dmaReadbackDone 0 [] none, .gpioWrite acc 0 0, .gpioWorldWrite acc 0, .assign acc 0 0, .setQuota acc 0 0, .quiesce acc 0] : List Instr).all Instr.wf = true := by decide +kernel

theorem wellFormed_admits_4 : ([
    .quiesceDrained 0, .resume acc 0, .freeze acc 0, .freezeDone 0, .thaw acc 0, .reset acc 0, .remove acc 0, .discard acc 0, .xportOffer acc 0 0,
    .xportAccept acc 0 0 none, .xportComplete acc 0 0 none, .mgrExport acc 0 0 none, .mgrImport acc 0 0 none, .xportClose acc 0,
    .xportSessionExpire 0, .mgrMbSend acc 0, .mgrMbEmpty acc 0, .instMbSend acc 0 0, .instMbEmpty acc 0 0, .mgrEventRead acc, .enrol acc 0,
    .revoke acc 0, .setClass acc 0, .setInstClass acc 0, .unlock acc 0, .cerEnter acc 0, .cerExit acc 0, .challenge acc 0, .pin acc 0,
    .challengeExpire 0, .cardInsert 0 none, .cardRemove 0, .cardFault 0, .cardResponse 0 (.status 0), .lockoutExpire 0, .transition acc 0,
    .tokenSet acc 0, .clearGrant acc, .debugHaltRequest 0, .debugAccess false 0 4 0, .evrWriteGo acc 0, .evrClearGo acc 0, .evrRdNext acc,
    .evrRdPrev acc, .evrCursorSet acc 0, .tripHoldEnd 0, .monfault 0, .tamperFuseReq acc 0, .loopArm acc 0 0 0, .quarterPowerRequest acc 0,
    .quarterPowerDrained 0, .drowseWake 0, .measDone 0 0, .lockLost 0, .atrTimeout 0, .bankCharged 0, .tamperAlarmEnd 0] : List Instr).all Instr.wf = true := by decide +kernel

/-! ## Values of the manual's own examples and tables -/

/-- R44: page 0x658 is instance 600 and reports INSTANCE_HI 2, INSTANCE 0x58; R20 gives its TYPE. -/
theorem test_instPage_id : instPage 600 = 0x658 ∧ bits (idWord .inst 0x658) 25 24 = 2 ∧ bits (idWord .inst 0x658) 23 16 = 0x58
    ∧ bits (idWord .inst 0x658) 15 0 = 0x500 := by decide +kernel

/-- R108: the session key that instance 37 creates in record 0x1A2B at generation 5 under boot tag 0x2345. -/
theorem test_handle_example : mkHandle 37 1 5 0x2345 0x1A2B = 0x0950_058D_1400_1A2B ∧ hRec 0x0950_058D_1400_1A2B = 0x1A2B
    ∧ hGen 0x0950_058D_1400_1A2B = 5 ∧ hBoot 0x0950_058D_1400_1A2B = 0x2345 := by decide +kernel

/-- R121: the PYP 1.x key index 0x12 of instance 37 at generation 3. -/
theorem test_handle_pyp1 : mkHandle 37 0 3 0 0x12 = 0x0940_0300_0000_0012 := by decide +kernel

/-- R254: the counter lines of the line at 0x12_3456_7880. -/
theorem test_counterTree_example :
    treeAddr 0 0x234567 = 0x1F_88D1_59C0 ∧ treeAddr 1 (0x234567 / 64) = 0x1F_C023_4540 ∧ 0x234567 % 64 = 39
      ∧ treeAddr 2 (0x8D15 / 64) = 0x1F_C100_8D00 ∧ treeAddr 3 (0x234 / 64) = 0x1F_C104_0200 := by decide +kernel

/-- R187: PIN 1234 for PAN 4999 1234 5678 9010 gives the clear block 0x0412_A5DC_BA98_76FE, and reads back. -/
theorem test_pin_example :
    panField [4, 9, 9, 9, 1, 2, 3, 4, 5, 6, 7, 8, 9, 0, 1, 0] = beBytes 8 0x0000_9123_4567_8901
      ∧ xorBytes (beBytes 8 0x0412_34FF_FFFF_FFFF) (beBytes 8 0x0000_9123_4567_8901) = beBytes 8 0x0412_A5DC_BA98_76FE
      ∧ pinOf 0 (beBytes 8 0x0412_34FF_FFFF_FFFF) = some [1, 2, 3, 4] ∧ pinOf 0 (beBytes 8 0x0C12_34FF_FFFF_FFFF) = none := by
  decide +kernel

/-- R381: the 8-byte input 80 00 00 00 00 00 00 00 transposes to 00 00 00 00 00 00 00 01. -/
theorem test_transpose_example : reshapeBlock 1 0 0 1 (beBytes 8 0x8000_0000_0000_0000) = beBytes 8 1 := by decide +kernel

/-- R500: the Device Serial Number of the module TSK2547000123456. -/
theorem test_serial_example : deviceSerial (ascii "TSK2547000123456") = 0x4B25_4700_0001_E240 := by decide +kernel

/-- R462: the measurement of 1,200 µF and 200 mΩ. -/
theorem test_bank_example :
    (fun d => (vTarget d, inCmj (eUse d 12000), bankLimit (eUse d 12000))) { Dev.reset with nv := { nvReset with capUf := 1200, esrMohm := 200 } }
      = (12000, 6954, (2932, true)) := by decide +kernel

/-- FIPS 197, appendix C.3: AES-256 on the example vector, and back. -/
theorem test_aes256_vector : aesEnc (ramp 32) (beBytes 16 0x00112233445566778899aabbccddeeff) = beBytes 16 0x8ea2b7ca516745bfeafc49904b496089 := by
  decide +kernel

/-- FIPS 180-4: SHA-256 and SHA-384 of the bytes of abc. -/
theorem test_sha256_abc : beNat (sha256 (ascii "abc")) = 0xba7816bf8f01cfea414140de5dae2223b00361a396177a9cb410ff61f20015ad := by decide +kernel

theorem test_sha384_abc :
    beNat (sha384 (ascii "abc"))
      = 0xcb00753f45a35e8bb5a03d699ac65007272c32ab0eded1631a8b605a43ff5bed8086072ba1e7cc2358baeca134c825a7 := by
  decide +kernel

/-! ## Single commands -/

/-- What a command makes of the block. -/
def after (o : Host.Outcome State Fault Refusal) : Dev :=
  match o with
  | .next t => t.dev
  | _ => Dev.reset

/-- R446, R467: reset leaves ROM_BOOT, and reset itself is a state without a command. -/
theorem test_reset_mode : State.reset.dev.sys.mode = .romBoot ∧ (step State.reset matches .next _) = true := by decide +kernel

/-- R29: a non-secure write of a page that only secure masters reach changes nothing but the page's count and record. -/
theorem test_registerWrite_denied :
    (hdrOf (after (execRegisterWrite ⟨false, 2, 0, .direct⟩ pgSYS 0x040 4 1 (st svc))) pgSYS).viol = 1
      ∧ (after (execRegisterWrite ⟨false, 2, 0, .direct⟩ pgSYS 0x040 4 1 (st svc))).regs = svc.regs := by decide +kernel

/-! ## Statements over all commands -/

/-- The block in the middle of a GEN_ROOT. -/
def rooting : Dev := { svcR with key := { svcR.key with busy := true } }

theorem StepRunsFront_met :
    (∃ (c : Instr) (s : State) (rest : List Instr), s.pending = c :: rest) ∧ (∃ s : State, s.pending = [] ∧ s.dev.key.busy = false) ∧
    (∃ (s : State) (d : Dev), Begins s d ∧ s.pending = [] ∧ d.key.busy = true ∧ (rootStep d).mpe.failing = none) :=
  ⟨⟨.hostReset, ⟨Dev.reset, [.hostReset, .lanternPowerLoss]⟩, [.lanternPowerLoss], rfl⟩, ⟨State.reset, rfl, rfl⟩,
   ⟨st rooting, rooting, begins_st _ rfl rfl rfl, rfl, by decide +kernel⟩⟩

theorem QueueServedInOrder_met : ∃ (cs : List Instr) (s : State), s.pending = cs ∧ cs.length = 2 :=
  ⟨_, ⟨Dev.reset, [.hostReset, .lanternPowerLoss]⟩, rfl, rfl⟩

theorem StepKeepsCanonicalForm_met : ∃ s t : State, s.dev.tidy ∧ step s = .next t ∧ s.pending ≠ [] :=
  ⟨⟨svc, [.hostReset]⟩, _, by unfold Dev.tidy; decide +kernel, rfl, by decide⟩

theorem FusesAreOneTime_met : ∃ s t : State, step s = .next t ∧ s.pending ≠ [] := ⟨⟨svc, [.lanternPowerLoss]⟩, _, rfl, by decide⟩

theorem CipherInverses_met :
    (∃ (radix : Nat) (x : List Nat), 2 ≤ radix ∧ (∀ c, c ∈ x → c < radix) ∧ x ≠ []) ∧
    (∃ f : Bytes → Bytes, ∀ b, (f b).length = 16) ∧
    (∃ (n : Nat) (f g : Bytes → Bytes) (iv m : Bytes), 0 < n ∧ (∀ b, b.length = n → (f b).length = n ∧ g (f b) = b) ∧ iv.length = n ∧
      m.length % n = 0) :=
  ⟨⟨10, [1, 9, 0], by decide, by decide, by decide⟩, ⟨fun _ => ramp 16, fun _ => rfl⟩,
   ⟨2, List.reverse, List.reverse, ramp 2, ramp 6, by decide, fun b h => ⟨by simpa using h, List.reverse_reverse b⟩, rfl, rfl⟩⟩

theorem UnlistedPagesAreReserved_met :
    (∃ (s : State) (d : Dev) (a : Access) (p : Nat), Begins s d ∧ AwakeFor d a ∧ pageKind p = none ∧ ∀ i st, a.via = .vf i st → p ≠ bellPage i) ∧
    (∃ (s : State) (d : Dev) (b : Bus), Begins s d ∧ BusPlain d b ∧ dieOn d.sys.mode = true ∧ zoneOf b.addr = .regs ∧
      pageKind ((b.addr - 0x1000_0000) / 0x1000) = none ∧ 0 < b.len ∧ b.addr % 4096 + b.len ≤ 4096 ∧
      partCheck d (busWho d b) b.kind b.addr = .pass ∧ b.kind ≠ .write) ∧
    (∃ (s : State) (d : Dev) (b : Bus), Begins s d ∧ BusPlain d b ∧ dieOn d.sys.mode = true ∧ zoneOf b.addr = .regs ∧
      pageKind ((b.addr - 0x1000_0000) / 0x1000) = none ∧ 0 < b.len ∧ b.addr % 4096 + b.len ≤ 4096 ∧
      partCheck d (busWho d b) b.kind b.addr = .pass ∧ b.kind = .write) ∧
    (∃ x : Nat, zoneOf x = .regs) :=
  ⟨⟨st svc, svc, acc, 0x00D, begins_st _ rfl rfl rfl, awakeFor_st _ _ (by decide +kernel), by decide +kernel, nofun⟩,
   ⟨st svc, svc, txn 3 .read 0x1000D010 8, begins_st _ rfl rfl rfl, plain_st _ _ (by decide +kernel), by decide +kernel⟩,
   ⟨st svc, svc, txn 0 .write 0x103FFFFC 4, begins_st _ rfl rfl rfl, plain_st _ _ (by decide +kernel), by decide +kernel⟩, ⟨0x10000000, by decide⟩⟩

theorem AbsentFacilities_met :
    (∃ (s : State) (d : Dev) (p : Nat) (k : PageKind) (off : Nat) (a : Access), Begins s d ∧ pageKind p = some k ∧ AwakeFor d a ∧
      (pageCap k).irq = false ∧ off = 0x018 ∧ (admitWrite (seenAs a) p off d).1 = some k) ∧
    (∃ (s : State) (d : Dev) (p : Nat) (k : PageKind) (off : Nat) (b : Bus), Begins s d ∧ pageKind p = some k ∧ BusPlain d b ∧
      (pageCap k).pwr = false ∧ off = 0x034 ∧ b.kind = .read ∧ b.addr = regAddr p off ∧ b.len = 4 ∧
      dieOn d.sys.mode = true ∧ partCheck d (busWho d b) .read b.addr = .pass ∧ reach d (busAccess d b p) p off ≠ .gone ∧
      readRefused d (seenAs (busAccess d b p)) k p = false) ∧
    (∃ (s : State) (d : Dev) (p : Nat) (k : PageKind) (b : Bus), Begins s d ∧ pageKind p = some k ∧ BusPlain d b ∧ (pageCap k).drain = false ∧
      b.kind = .read ∧ b.addr = regAddr p 0x00C ∧ b.len = 4 ∧ dieOn d.sys.mode = true ∧
      partCheck d (busWho d b) .read b.addr = .pass ∧ reach d (busAccess d b p) p 0x00C ≠ .gone ∧
      readRefused d (seenAs (busAccess d b p)) k p = false) :=
  ⟨⟨st svc, svc, pgGPIO, _, 0x018, acc, begins_st _ rfl rfl rfl, rfl, awakeFor_st _ _ (by decide +kernel), by decide +kernel⟩,
   ⟨st svc, svc, pgSYS, _, 0x034, txn 0 .read (regAddr pgSYS 0x034) 4, begins_st _ rfl rfl rfl, rfl, plain_st _ _ (by decide +kernel), by decide +kernel⟩,
   ⟨st svc, svc, pgSYS, _, txn 0 .read (regAddr pgSYS 0x00C) 4, begins_st _ rfl rfl rfl, rfl, plain_st _ _ (by decide +kernel), by decide +kernel⟩⟩

/-! ## A state for every clause of every statement that has hypotheses -/

theorem DigestAndMacCommands_met1 :
    (∃ (s : State) (d : Dev) (tag : Nat) (chk : Nat) (k : Cmd), Begins s d ∧ chk < 2 ∧ AtUnit d tag 0x0401 k) ∧
    (∃ (s : State) (d : Dev) (tag : Nat) (chk : Nat) (k : Cmd), Begins s d ∧ chk < 2 ∧ AtUnit d tag 0x0402 k ∧ k.desc.param = 1) ∧
    (∃ (s : State) (d : Dev) (tag : Nat) (chk : Nat) (k : Cmd), Begins s d ∧ chk < 2 ∧ AtUnit d tag 0x0402 k ∧ k.desc.param ≠ 1) ∧
    (∃ (s : State) (d : Dev) (tag : Nat) (chk : Nat) (k : Cmd), Begins s d ∧ chk < 2 ∧ AtUnit d tag 0x0403 k) ∧
    (∃ (s : State) (d : Dev) (tag : Nat) (chk : Nat) (k : Cmd), ∃ n, Begins s d ∧ chk < 2 ∧ MaskReady d k 0 ∧ AtUnit d tag 0x0404 k ∧ oTag k.desc
      ≤ blkLen (key1 k).alg ∧ n = tagOr k.desc (blkLen (key1 k).alg) ∧ n ≤ k.desc.dstLen) ∧
    (∃ (s : State) (d : Dev) (tag : Nat) (chk : Nat) (k : Cmd), ∃ n, Begins s d ∧ chk < 2 ∧ MaskReady d k 0 ∧ AtUnit d tag 0x0404 k ∧ oTag k.desc
      ≤ blkLen (key1 k).alg ∧ n = tagOr k.desc (blkLen (key1 k).alg) ∧ k.desc.dstLen < n) ∧
    (∃ (s : State) (d : Dev) (tag : Nat) (chk : Nat) (k : Cmd), Begins s d ∧ chk < 2 ∧ MaskReady d k 0 ∧ AtUnit d tag 0x0404 k ∧ blkLen (key1
      k).alg < oTag k.desc) ∧
    (∃ (s : State) (d : Dev) (tag : Nat) (chk : Nat) (k : Cmd), Begins s d ∧ chk < 2 ∧ MaskReady d k 0 ∧ AtUnit d tag 0x0405 k ∧ pNonce k.desc =
      false) :=
  ⟨⟨(st (wHash.getD 0 svc)), _, 7, 0, (cmd1 (wHash.getD 0 svc)), (begins_st _ rfl rfl rfl), (by decide +kernel),
    (by unfold AtUnit Fresh; decide +kernel)⟩,
   ⟨(st (wShake.getD 0 svc)), _, 7, 0, (cmd1 (wShake.getD 0 svc)), (begins_st _ rfl rfl rfl), (by decide +kernel),
     (by unfold AtUnit Fresh; decide +kernel), (by decide +kernel)⟩,
   ⟨(st (wShake.getD 1 svc)), _, 7, 0, (cmd1 (wShake.getD 1 svc)), (begins_st _ rfl rfl rfl), (by decide +kernel),
     (by unfold AtUnit Fresh; decide +kernel), (by decide +kernel)⟩,
   ⟨(st (wMac.getD 0 svc)), _, 7, 0, (cmd1 (wMac.getD 0 svc)), (begins_st _ rfl rfl rfl), (by decide +kernel),
     (by unfold AtUnit Fresh; decide +kernel)⟩,
   ⟨(st (wMac.getD 1 svc)), _, 7, 0, (cmd1 (wMac.getD 1 svc)), _, (begins_st _ rfl rfl rfl), (by decide +kernel),
     (by unfold MaskReady RandomReady RandomAt NoReads; decide +kernel), (by unfold AtUnit Fresh; decide +kernel), (by decide +kernel), rfl,
     (by decide +kernel)⟩,
   ⟨(st digestAndMacCommandsState5), _, 7, 0, (cmd1 digestAndMacCommandsState5), _, (begins_st _ rfl rfl rfl), (by decide +kernel),
     (by unfold MaskReady RandomReady RandomAt NoReads; decide +kernel), (by unfold AtUnit Fresh; decide +kernel), (by decide +kernel), rfl,
     (by decide +kernel)⟩,
   ⟨(st (wMac.getD 2 svc)), _, 7, 0, (cmd1 (wMac.getD 2 svc)), (begins_st _ rfl rfl rfl), (by decide +kernel),
     (by unfold MaskReady RandomReady RandomAt NoReads; decide +kernel), (by unfold AtUnit Fresh; decide +kernel), (by decide +kernel)⟩,
   ⟨(st (wMac.getD 3 svc)), _, 7, 0, (cmd1 (wMac.getD 3 svc)), (begins_st _ rfl rfl rfl), (by decide +kernel),
     (by unfold MaskReady RandomReady RandomAt NoReads; decide +kernel), (by unfold AtUnit Fresh; decide +kernel), (by decide +kernel)⟩⟩

theorem DigestAndMacCommands_met2 :
    (∃ (s : State) (d : Dev) (tag : Nat) (chk : Nat) (k : Cmd), ∃ v iv out, Begins s d ∧ chk < 2 ∧ MaskReady d k 0 ∧ AtUnit d tag 0x0405 k ∧
      pNonce k.desc = true ∧ CounterReady d k v ∧ iv = beBytes 4 (nonceFixed k) ++ beBytes 8 v ∧ out = (gmacTag (encFn 0x0012 (laneKey k.desc
      (auxOf k) (key1 k).mat 16)) iv (srcOf k)).take (tagOr k.desc 16)) ∧
    (∃ (s : State) (d : Dev) (tag : Nat) (chk : Nat) (k : Cmd), ∃ m n, Begins s d ∧ chk < 2 ∧ MaskReady d k 0 ∧ AtUnit d tag 0x0406 k ∧ bits
      k.desc.param 15 12 = 1 ∧ m = hmacCode (bits k.desc.param 3 0) (key1 k).mat (srcOf k) ∧ n = tagOr k.desc m.length) ∧
    (∃ (s : State) (d : Dev) (tag : Nat) (chk : Nat) (k : Cmd), ∃ at' n m, Begins s d ∧ chk < 2 ∧ MaskReady d k 0 ∧ AtUnit d tag 0x0406 k ∧ bits
      k.desc.param 15 12 = 2 ∧ at' = alignUp (oLabel k.desc) 8 ∧ n = tagOr k.desc (blkLen (key1 k).alg) ∧ m = cmacWith (blkLen (key1 k).alg)
      (encFn (key1 k).alg (laneKey k.desc (auxOf k) (key1 k).mat 0)) (srcOf k) ∧ oTag k.desc ≤ blkLen (key1 k).alg ∧ k.desc.auxLen = at' + n) ∧
    (∃ (s : State) (d : Dev) (tag : Nat) (chk : Nat) (k : Cmd), ∃ n m, Begins s d ∧ chk < 2 ∧ MaskReady d k 0 ∧ AtUnit d tag 0x0406 k ∧ bits
      k.desc.param 15 12 = 3 ∧ n = tagOr k.desc 16 ∧ m = gmacTag (encFn 0x0012 (laneKey k.desc (auxOf k) (key1 k).mat 16)) (slice (auxOf k) 0 12)
      (srcOf k)) :=
  ⟨⟨(st (wMac.getD 4 svc)), _, 7, 0, (cmd1 (wMac.getD 4 svc)), _, _, _, (begins_st _ rfl rfl rfl), (by decide +kernel),
    (by unfold MaskReady RandomReady RandomAt NoReads; decide +kernel), (by unfold AtUnit Fresh; decide +kernel), (by decide +kernel),
    (counter_st _ _ (keyIn (wMac.getD 4 svc)) (resident1 (keyIn (wMac.getD 4 svc))) (by decide +kernel) (by decide +kernel) (by decide +kernel)
    (by decide +kernel) (by decide +kernel)), rfl, rfl⟩,
   ⟨(st (wMac.getD 5 svc)), _, 7, 0, (cmd1 (wMac.getD 5 svc)), _, _, (begins_st _ rfl rfl rfl), (by decide +kernel),
     (by unfold MaskReady RandomReady RandomAt NoReads; decide +kernel), (by unfold AtUnit Fresh; decide +kernel), (by decide +kernel), rfl, rfl⟩,
   ⟨(st (wMac.getD 6 svc)), _, 7, 0, (cmd1 (wMac.getD 6 svc)), _, _, _, (begins_st _ rfl rfl rfl), (by decide +kernel),
     (by unfold MaskReady RandomReady RandomAt NoReads; decide +kernel), (by unfold AtUnit Fresh; decide +kernel), (by decide +kernel), rfl, rfl,
     rfl, (by decide +kernel)⟩,
   ⟨(st (wMac.getD 7 svc)), _, 7, 0, (cmd1 (wMac.getD 7 svc)), _, _, (begins_st _ rfl rfl rfl), (by decide +kernel),
     (by unfold MaskReady RandomReady RandomAt NoReads; decide +kernel), (by unfold AtUnit Fresh; decide +kernel), (by decide +kernel), rfl, rfl⟩⟩

def derivationAndRandomCommandsState6b : Dev :=
  onGen 0 (fun g => { g with src := some 0 }) (fullWell (withCmd (cmdAt 28 (desc 0x0501 1) [] [] []) svc))

theorem DerivationAndRandomCommands_met1 :
    (∃ (s : State) (d : Dev) (tag : Nat) (k : Cmd) (p : KeyRec) (t : Tmpl), ∃ salt, Begins s d ∧ p = key1 k ∧ t = tmplOf (auxOf k) ∧ AtUnit d tag
      0x0407 k ∧ salt = (if hkdfSalt (auxOf k) = [] then zeros (hashSize k.desc.param) else hkdfSalt (auxOf k))) ∧
    (∃ (s : State) (d : Dev) (tag : Nat) (k : Cmd) (p : KeyRec) (t : Tmpl), ∃ x, Begins s d ∧ p = key1 k ∧ t = tmplOf (auxOf k) ∧ AtUnit d tag
      0x0408 k ∧ x ∈ [(1, aesCmac p.mat, 16), (2, hmac256 p.mat, 32), (3, hmac384 p.mat, 48), (4, hmac512 p.mat, 64)] ∧ k.desc.param = x.1) ∧
    (∃ (s : State) (d : Dev) (tag : Nat) (k : Cmd) (p : KeyRec) (t : Tmpl), ∃ x, Begins s d ∧ p = key1 k ∧ t = tmplOf (auxOf k) ∧ AtUnit d tag
      0x0107 k ∧ x ∈ [(1, aesCmac p.mat, 16), (2, hmac256 p.mat, 32)] ∧ k.desc.param = x.1) ∧
    (∃ (s : State) (d : Dev) (tag : Nat) (k : Cmd) (p : KeyRec) (t : Tmpl), ∃ x, Begins s d ∧ p = key1 k ∧ t = tmplOf (auxOf k) ∧ AtUnit d tag
      0x0107 k ∧ x ∈ [(3, hmac256, 32), (4, hmac384, 48)] ∧ k.desc.param = x.1) ∧
    (∃ (s : State) (d : Dev) (tag : Nat) (k : Cmd) (p : KeyRec) (t : Tmpl), ∃ hash psk u z mine, Begins s d ∧ p = key1 k ∧ t = tmplOf (auxOf k) ∧
      AtUnit d tag 0x0409 k ∧ hash = (if bits k.desc.param 3 2 = 1 then 2 else 3) ∧ psk = (if k.desc.key2 = 0 then zeros (hashSize hash) else
      ((kOf k k.desc.key2).map (·.mat)).getD (zeros (hashSize hash))) ∧ u = tmplOf ((auxOf k).drop (hashSize hash)) ∧ z = tlsRun (bits
      k.desc.param 1 0) hash (if hash = 2 then 16 else 32) (b2n (bit k.desc.param 4)) p.mat psk ((auxOf k).take (hashSize hash)) ∧ mine =
      Nat.land p.attr attrLocal + (if u.limit = 0 then 0 else 2 ^ atUSAGE_LIMITED)) ∧
    (∃ (s : State) (d : Dev) (tag : Nat) (n : Nat) (k : Cmd), Begins s d ∧ k.unit = some 28 ∧ AtUnit d tag 0x0501 k ∧ bit k.desc.param 0 = false
      ∧ n = k.desc.dstLen ∧ RandomReady d k n) ∧
    (∃ (s : State) (d : Dev) (tag : Nat) (n : Nat) (k : Cmd), ∃ q b d2, Begins s d ∧ k.unit = some 28 ∧ AtUnit d tag 0x0501 k ∧ bit k.desc.param
      0 = true ∧ n = k.desc.dstLen ∧ n ≠ 0 ∧ q = cmdQuarter k d ∧ q < 4 ∧ (wellOf d q).run ≠ .entFail ∧ drbgOpen d.sys.mode = true ∧ NoReads d q
      ∧ freshTurn d q = true ∧ fillRead q n (fillFuel n) [] (freshSeed q d) = (b, d2) ∧ b.length = n) ∧
    (∃ (s : State) (d : Dev) (tag : Nat) (k : Cmd), ∃ q, Begins s d ∧ k.unit = some 28 ∧ AtUnit d tag 0x0501 k ∧ k.desc.dstLen ≠ 0 ∧ q =
      cmdQuarter k d ∧ ((wellOf d q).run = .entFail ∨ drbgOpen d.sys.mode = false)) :=
  ⟨⟨(st (wDerive.getD 0 svc)), _, 7, (cmd1 (wDerive.getD 0 svc)), _, _, _, (begins_st _ rfl rfl rfl), rfl, rfl,
    (by unfold AtUnit Fresh; decide +kernel), rfl⟩,
   ⟨(st (wDerive.getD 2 svc)), _, 7, (cmd1 (wDerive.getD 2 svc)), _, _, (1, aesCmac (key1 (cmd1 (wDerive.getD 2 svc))).mat, 16),
     (begins_st _ rfl rfl rfl), rfl, rfl, (by unfold AtUnit Fresh; decide +kernel), (.head _), (by decide +kernel)⟩,
   ⟨(st (wDerive.getD 5 svc)), _, 7, (cmd1 (wDerive.getD 5 svc)), _, _, (1, aesCmac (key1 (cmd1 (wDerive.getD 5 svc))).mat, 16),
     (begins_st _ rfl rfl rfl), rfl, rfl, (by unfold AtUnit Fresh; decide +kernel), (.head _), (by decide +kernel)⟩,
   ⟨(st (wDerive.getD 8 svc)), _, 7, (cmd1 (wDerive.getD 8 svc)), _, _, ((3, hmac256, 32)), (begins_st _ rfl rfl rfl), rfl, rfl,
     (by unfold AtUnit Fresh; decide +kernel), (.head _), (by decide +kernel)⟩,
   ⟨(st (wDerive.getD 9 svc)), _, 7, (cmd1 (wDerive.getD 9 svc)), _, _, _, _, _, _, _, (begins_st _ rfl rfl rfl), rfl, rfl,
     (by unfold AtUnit Fresh; decide +kernel), rfl, rfl, rfl, rfl, rfl⟩,
   ⟨(st (wDerive.getD 10 svc)), _, 7, _, (cmd1 (wDerive.getD 10 svc)), (begins_st _ rfl rfl rfl), (by decide +kernel),
     (by unfold AtUnit Fresh; decide +kernel), (by decide +kernel), rfl, (by unfold RandomReady RandomAt NoReads; decide +kernel)⟩,
   ⟨(st derivationAndRandomCommandsState6b), _, 7, _, (cmd1 derivationAndRandomCommandsState6b), _, _, _, (begins_st _ rfl rfl rfl),
     (by decide +kernel), (by unfold AtUnit Fresh; decide +kernel), (by decide +kernel), rfl, (by decide +kernel), rfl, (by decide +kernel),
     (by decide +kernel), (by decide +kernel), (by unfold NoReads; decide +kernel), (by decide +kernel), (pair_eta _), (by decide +kernel)⟩,
   ⟨(st derivationAndRandomCommandsState7), _, 7, (cmd1 derivationAndRandomCommandsState7), _, (begins_st _ rfl rfl rfl), (by decide +kernel),
     (by unfold AtUnit Fresh; decide +kernel), (by decide +kernel), rfl, (by decide +kernel)⟩⟩

theorem DerivationAndRandomCommands_met2 :
    (∃ (s : State) (d : Dev) (tag : Nat) (n : Nat) (k : Cmd), ∃ t x, Begins s d ∧ k.unit = some 28 ∧ AtUnit d tag 0x0101 k ∧ n = symLen (tmplOf
      (auxOf k)).alg 0x0101 ∧ RandomReady d k n ∧ t = tmplOf (auxOf k) ∧ x = recOf t t.alg (t.attr + attrLocal) false (randomOf d k n) 0 false) ∧
    (∃ (s : State) (d : Dev) (tag : Nat) (k : Cmd), Begins s d ∧ k.unit = some 28 ∧ AtUnit d tag 0x0502 k) :=
  ⟨⟨(st (wDerive.getD 11 svc)), _, 7, _, (cmd1 (wDerive.getD 11 svc)), _, _, (begins_st _ rfl rfl rfl), (by decide +kernel),
    (by unfold AtUnit Fresh; decide +kernel), rfl, (by unfold RandomReady RandomAt NoReads; decide +kernel), rfl, rfl⟩,
   ⟨(st (wDerive.getD 12 svc)), _, 7, (cmd1 (wDerive.getD 12 svc)), (begins_st _ rfl rfl rfl), (by decide +kernel),
     (by unfold AtUnit Fresh; decide +kernel)⟩⟩

theorem BlockCipherCommands_met :
    (∃ (s : State) (d : Dev) (tag : Nat) (chk : Nat) (k : Cmd) (x : Desc) (key : Bytes) (iv : Bytes) (m : Bytes) (alg : Nat) (n : Nat), ∃ c,
      Begins s d ∧ chk < 2 ∧ MaskReady d k 0 ∧ x = k.desc ∧ pSeg x = 0 ∧ alg = (key1 k).alg ∧ n = blkLen alg ∧ key = laneKey x (auxOf k) (key1
      k).mat (labelOff x) ∧ iv = slice (auxOf k) 0 16 ∧ m = srcOf k ∧ c ∈ [(0x0201, Instr.aesEcb tag chk), (0x0207, Instr.tdesEcb tag chk)] ∧
      AtUnit d tag c.1 k) ∧
    (∃ (s : State) (d : Dev) (tag : Nat) (chk : Nat) (k : Cmd) (x : Desc) (key : Bytes) (iv : Bytes) (m : Bytes) (alg : Nat) (n : Nat), ∃ c,
      Begins s d ∧ chk < 2 ∧ MaskReady d k 0 ∧ x = k.desc ∧ pSeg x = 0 ∧ alg = (key1 k).alg ∧ n = blkLen alg ∧ key = laneKey x (auxOf k) (key1
      k).mat (labelOff x) ∧ iv = slice (auxOf k) 0 16 ∧ m = srcOf k ∧ c ∈ [(0x0202, Instr.aesCbc tag chk), (0x0208, Instr.tdesCbc tag chk)] ∧
      AtUnit d tag c.1 k) ∧
    (∃ (s : State) (d : Dev) (chk : Nat) (k : Cmd) (x : Desc) (key : Bytes) (iv : Bytes) (m : Bytes) (alg : Nat) (n : Nat), Begins s d ∧ chk < 2
      ∧ MaskReady d k 0 ∧ x = k.desc ∧ pSeg x = 0 ∧ alg = (key1 k).alg ∧ n = blkLen alg ∧ key = laneKey x (auxOf k) (key1 k).mat (labelOff x) ∧
      iv = slice (auxOf k) 0 16 ∧ m = srcOf k ∧ x.opcode = 0x0208) ∧
    (∃ (s : State) (d : Dev) (tag : Nat) (chk : Nat) (k : Cmd) (x : Desc) (key : Bytes) (iv : Bytes) (m : Bytes) (alg : Nat) (n : Nat), Begins s
      d ∧ chk < 2 ∧ MaskReady d k 0 ∧ x = k.desc ∧ pSeg x = 0 ∧ alg = (key1 k).alg ∧ n = blkLen alg ∧ key = laneKey x (auxOf k) (key1 k).mat
      (labelOff x) ∧ iv = slice (auxOf k) 0 16 ∧ m = srcOf k ∧ AtUnit d tag 0x0203 k) :=
  ⟨⟨(st (wBlock.getD 0 svc)), _, 7, 0, (cmd1 (wBlock.getD 0 svc)), _, _, _, _, _, _, ((513, Instr.aesEcb 7 0)), (begins_st _ rfl rfl rfl),
    (by decide +kernel), (by unfold MaskReady RandomReady RandomAt NoReads; decide +kernel), rfl, (by decide +kernel), rfl, rfl, rfl, rfl, rfl,
    (by decide +kernel), (by unfold AtUnit Fresh; decide +kernel)⟩,
   ⟨(st (wBlock.getD 2 svc)), _, 7, 0, (cmd1 (wBlock.getD 2 svc)), _, _, _, _, _, _, ((514, Instr.aesCbc 7 0)), (begins_st _ rfl rfl rfl),
     (by decide +kernel), (by unfold MaskReady RandomReady RandomAt NoReads; decide +kernel), rfl, (by decide +kernel), rfl, rfl, rfl, rfl, rfl,
     (by decide +kernel), (by unfold AtUnit Fresh; decide +kernel)⟩,
   ⟨(st (wBlock.getD 4 svc)), _, 0, (cmd1 (wBlock.getD 4 svc)), _, _, _, _, _, _, (begins_st _ rfl rfl rfl), (by decide +kernel),
     (by unfold MaskReady RandomReady RandomAt NoReads; decide +kernel), rfl, (by decide +kernel), rfl, rfl, rfl, rfl, rfl, (by decide +kernel)⟩,
   ⟨(st (wBlock.getD 5 svc)), _, 7, 0, (cmd1 (wBlock.getD 5 svc)), _, _, _, _, _, _, (begins_st _ rfl rfl rfl), (by decide +kernel),
     (by unfold MaskReady RandomReady RandomAt NoReads; decide +kernel), rfl, (by decide +kernel), rfl, rfl, rfl, rfl, rfl,
     (by unfold AtUnit Fresh; decide +kernel)⟩⟩

theorem SegmentedCommands_met1 :
    (∃ (s : State) (d : Dev) (tag : Nat) (chk : Nat) (op : Nat) (c : Instr) (k : Cmd) (x : Desc) (key : Bytes) (alg : Nat), ∃ p, Begins s d ∧ chk
      < 2 ∧ MaskReady d k 12 ∧ x = k.desc ∧ alg = (key1 k).alg ∧ key = laneKey x (auxOf k) (key1 k).mat (labelOff x) ∧ (op, c) ∈ [(0x0201,
      Instr.aesEcb tag chk), (0x0202, Instr.aesCbc tag chk), (0x0203, Instr.aesCtr tag chk)] ∧ AtUnit d tag op k ∧ pSeg x = 1 ∧ p = passBlock alg
      key x (slice (auxOf k) 0 16) (srcOf k) ∧ (op = 0x0203 → beNat (slice (auxOf k) 0 16) % 2 ^ ctrWidth x + ((srcOf k).length + 15) / 16 ≤ 2 ^
      ctrWidth x)) ∧
    (∃ (s : State) (d : Dev) (tag : Nat) (chk : Nat) (op : Nat) (c : Instr) (k : Cmd) (x : Desc) (key : Bytes) (alg : Nat), ∃ h b p, Begins s d ∧
      chk < 2 ∧ MaskReady d k 12 ∧ x = k.desc ∧ alg = (key1 k).alg ∧ key = laneKey x (auxOf k) (key1 k).mat (labelOff x) ∧ (op, c) ∈ [(0x0201,
      Instr.aesEcb tag chk), (0x0202, Instr.aesCbc tag chk), (0x0203, Instr.aesCtr tag chk)] ∧ AtUnit d tag op k ∧ 2 ≤ pSeg x ∧ ctxCheck k
      (auxSecure k d) (kCtxOf d) = .ok (h, b) ∧ h.kind = 1 ∧ (op = 0x0203 → beNat b.chain % 2 ^ ctrWidth x ≠ 0 ∧ beNat b.chain % 2 ^ ctrWidth x +
      ((srcOf k).length + 15) / 16 ≤ 2 ^ ctrWidth x) ∧ p = passBlock alg key x b.chain (srcOf k) ∧ pSeg x = 2) ∧
    (∃ (s : State) (d : Dev) (tag : Nat) (chk : Nat) (op : Nat) (c : Instr) (k : Cmd) (x : Desc) (key : Bytes) (alg : Nat), ∃ h b p, Begins s d ∧
      chk < 2 ∧ MaskReady d k 12 ∧ x = k.desc ∧ alg = (key1 k).alg ∧ key = laneKey x (auxOf k) (key1 k).mat (labelOff x) ∧ (op, c) ∈ [(0x0201,
      Instr.aesEcb tag chk), (0x0202, Instr.aesCbc tag chk), (0x0203, Instr.aesCtr tag chk)] ∧ AtUnit d tag op k ∧ 2 ≤ pSeg x ∧ ctxCheck k
      (auxSecure k d) (kCtxOf d) = .ok (h, b) ∧ h.kind = 1 ∧ (op = 0x0203 → beNat b.chain % 2 ^ ctrWidth x ≠ 0 ∧ beNat b.chain % 2 ^ ctrWidth x +
      ((srcOf k).length + 15) / 16 ≤ 2 ^ ctrWidth x) ∧ p = passBlock alg key x b.chain (srcOf k) ∧ pSeg x = 3) ∧
    (∃ (s : State) (d : Dev) (tag : Nat) (chk : Nat) (op : Nat) (c : Instr) (k : Cmd) (x : Desc) (key : Bytes) (alg : Nat), ∃ e, Begins s d ∧ chk
      < 2 ∧ MaskReady d k 12 ∧ x = k.desc ∧ alg = (key1 k).alg ∧ key = laneKey x (auxOf k) (key1 k).mat (labelOff x) ∧ (op, c) ∈ [(0x0201,
      Instr.aesEcb tag chk), (0x0202, Instr.aesCbc tag chk), (0x0203, Instr.aesCtr tag chk)] ∧ AtUnit d tag op k ∧ 2 ≤ pSeg x ∧ ctxCheck k
      (auxSecure k d) (kCtxOf d) = .error e) ∧
    (∃ (s : State) (d : Dev) (tag : Nat) (chk : Nat) (k : Cmd) (x : Desc) (key : Bytes) (f : Bytes → Bytes) (m : Bytes) (t : Nat) (dec : Bool), ∃
      aad p, Begins s d ∧ chk < 2 ∧ MaskReady d k 12 ∧ x = k.desc ∧ key = laneKey x (auxOf k) (key1 k).mat (labelOff x) ∧ f = encFn 0x0012 key ∧
      m = srcOf k ∧ t = tagOr x 16 ∧ dec = pDec x ∧ AtUnit d tag 0x0204 k ∧ (dec = false → pNonce x = false → bit (key1 k).attr atNONCE_HW =
      false) ∧ pSeg x = 1 ∧ aad = slice (auxOf k) (aadOff x) (aadLen x) ∧ p = passGcm key dec (ctrNext 32 (gcmJ0 (slice (auxOf k) 0 12)))
      (ghashFrom (gcmH f) 0 aad) m) ∧
    (∃ (s : State) (d : Dev) (tag : Nat) (chk : Nat) (k : Cmd) (x : Desc) (key : Bytes) (f : Bytes → Bytes) (m : Bytes) (t : Nat) (dec : Bool), ∃
      h b p, Begins s d ∧ chk < 2 ∧ MaskReady d k 12 ∧ x = k.desc ∧ key = laneKey x (auxOf k) (key1 k).mat (labelOff x) ∧ f = encFn 0x0012 key ∧
      m = srcOf k ∧ t = tagOr x 16 ∧ dec = pDec x ∧ AtUnit d tag 0x0204 k ∧ (dec = false → pNonce x = false → bit (key1 k).attr atNONCE_HW =
      false) ∧ pSeg x = 2 ∧ ctxCheck k (auxSecure k d) (kCtxOf d) = .ok (h, b) ∧ h.kind = 1 ∧ p = passGcm key dec b.chain b.acc m) ∧
    (∃ (s : State) (d : Dev) (tag : Nat) (chk : Nat) (k : Cmd) (x : Desc) (key : Bytes) (f : Bytes → Bytes) (m : Bytes) (t : Nat) (dec : Bool), ∃
      h b p, Begins s d ∧ chk < 2 ∧ MaskReady d k 12 ∧ x = k.desc ∧ key = laneKey x (auxOf k) (key1 k).mat (labelOff x) ∧ f = encFn 0x0012 key ∧
      m = srcOf k ∧ t = tagOr x 16 ∧ dec = pDec x ∧ AtUnit d tag 0x0204 k ∧ (dec = false → pNonce x = false → bit (key1 k).attr atNONCE_HW =
      false) ∧ pSeg x = 3 ∧ ctxCheck k (auxSecure k d) (kCtxOf d) = .ok (h, b) ∧ dec = false ∧ p = passGcm key dec b.chain b.acc m) ∧
    (∃ (s : State) (d : Dev) (tag : Nat) (chk : Nat) (k : Cmd) (x : Desc) (key : Bytes) (f : Bytes → Bytes) (m : Bytes) (t : Nat) (dec : Bool), ∃
      h b body p ok, Begins s d ∧ chk < 2 ∧ MaskReady d k 12 ∧ x = k.desc ∧ key = laneKey x (auxOf k) (key1 k).mat (labelOff x) ∧ f = encFn
      0x0012 key ∧ m = srcOf k ∧ t = tagOr x 16 ∧ dec = pDec x ∧ AtUnit d tag 0x0204 k ∧ (dec = false → pNonce x = false → bit (key1 k).attr
      atNONCE_HW = false) ∧ pSeg x = 3 ∧ ctxCheck k (auxSecure k d) (kCtxOf d) = .ok (h, b) ∧ dec = true ∧ body = m.take (m.length - t) ∧ p =
      passGcm key dec b.chain b.acc body ∧ ok = decide ((gcmTag f (b.chain.take 12) p.acc h.aad (h.len + body.length)).take t = m.drop (m.length
      - t)) ∧ ok = true) :=
  ⟨⟨(st (wSeg.getD 0 svc)), _, 7, 0, 0x0201, (Instr.aesEcb 7 0), (cmd1 (wSeg.getD 0 svc)), _, _, _, _, (begins_st _ rfl rfl rfl),
    (by decide +kernel), (by unfold MaskReady RandomReady RandomAt NoReads; decide +kernel), rfl, rfl, rfl, (by decide +kernel),
    (by unfold AtUnit Fresh; decide +kernel), (by decide +kernel), rfl, (by decide +kernel)⟩,
   ⟨(st (wSeg.getD 2 svc)), _, 7, 0, 0x0202, (Instr.aesCbc 7 0), (cmd1 (wSeg.getD 2 svc)), _, _, _, ⟨1, 514, 0, 0, 1, 32, 16, 1, 0⟩, ⟨(ramp 16),
     77, (zeros 16)⟩, _, (begins_st _ rfl rfl rfl), (by decide +kernel), (by unfold MaskReady RandomReady RandomAt NoReads; decide +kernel), rfl,
     rfl, rfl, (by decide +kernel), (by unfold AtUnit Fresh; decide +kernel), (by decide +kernel), (except_of (by decide +kernel)),
     (by decide +kernel), (by decide +kernel), rfl, (by decide +kernel)⟩,
   ⟨(st (wSeg.getD 3 svc)), _, 7, 0, 0x0203, (Instr.aesCtr 7 0), (cmd1 (wSeg.getD 3 svc)), _, _, _, ⟨1, 515, 0, 0, 1, 32, 16, 1, 0⟩, ⟨(ramp 16),
     77, (zeros 16)⟩, _, (begins_st _ rfl rfl rfl), (by decide +kernel), (by unfold MaskReady RandomReady RandomAt NoReads; decide +kernel), rfl,
     rfl, rfl, (by decide +kernel), (by unfold AtUnit Fresh; decide +kernel), (by decide +kernel), (except_of (by decide +kernel)),
     (by decide +kernel), (by decide +kernel), rfl, (by decide +kernel)⟩,
   ⟨(st (wSeg.getD 5 svc)), _, 7, 0, 0x0202, (Instr.aesCbc 7 0), (cmd1 (wSeg.getD 5 svc)), _, _, _, (258, 0x0110), (begins_st _ rfl rfl rfl),
     (by decide +kernel), (by unfold MaskReady RandomReady RandomAt NoReads; decide +kernel), rfl, rfl, rfl, (by decide +kernel),
     (by unfold AtUnit Fresh; decide +kernel), (by decide +kernel), (except_of (by decide +kernel))⟩,
   ⟨(st (wSeg.getD 6 svc)), _, 7, 0, (cmd1 (wSeg.getD 6 svc)), _, _, _, _, _, _, _, _, (begins_st _ rfl rfl rfl), (by decide +kernel),
     (by unfold MaskReady RandomReady RandomAt NoReads; decide +kernel), rfl, rfl, rfl, rfl, rfl, rfl, (by unfold AtUnit Fresh; decide +kernel),
     (by decide +kernel), (by decide +kernel), rfl, rfl⟩,
   ⟨(st (wSeg.getD 7 svc)), _, 7, 0, (cmd1 (wSeg.getD 7 svc)), _, _, _, _, _, _, ⟨1, 516, 0, 0, 1, 32, 16, 1, 0⟩, ⟨(ramp 16), 77, (zeros 16)⟩, _,
     (begins_st _ rfl rfl rfl), (by decide +kernel), (by unfold MaskReady RandomReady RandomAt NoReads; decide +kernel), rfl, rfl, rfl, rfl, rfl,
     rfl, (by unfold AtUnit Fresh; decide +kernel), (by decide +kernel), (by decide +kernel), (except_of (by decide +kernel)),
     (by decide +kernel), rfl⟩,
   ⟨(st (wSeg.getD 8 svc)), _, 7, 0, (cmd1 (wSeg.getD 8 svc)), _, _, _, _, _, _, ⟨1, 516, 0, 0, 1, 32, 16, 1, 0⟩, ⟨(ramp 16), 77, (zeros 16)⟩, _,
     (begins_st _ rfl rfl rfl), (by decide +kernel), (by unfold MaskReady RandomReady RandomAt NoReads; decide +kernel), rfl, rfl, rfl, rfl, rfl,
     rfl, (by unfold AtUnit Fresh; decide +kernel), (by decide +kernel), (by decide +kernel), (except_of (by decide +kernel)),
     (by decide +kernel), rfl⟩,
   ⟨(st (wSeg.getD 10 svc)), _, 7, 0, (cmd1 (wSeg.getD 10 svc)), _, _, _, _, _, _, ⟨1, 516, 1, 0, 1, 32, 16, 1, 0⟩, ⟨(ramp 16), 77, (zeros 16)⟩,
     _, _, _, (begins_st _ rfl rfl rfl), (by decide +kernel), (by unfold MaskReady RandomReady RandomAt NoReads; decide +kernel), rfl, rfl, rfl,
     rfl, rfl, rfl, (by unfold AtUnit Fresh; decide +kernel), (by decide +kernel), (by decide +kernel), (except_of (by decide +kernel)),
     (by decide +kernel), rfl, rfl, rfl, (by decide +kernel)⟩⟩

theorem SegmentedCommands_met2 :
    (∃ (s : State) (d : Dev) (tag : Nat) (chk : Nat) (k : Cmd) (x : Desc) (key : Bytes) (f : Bytes → Bytes) (m : Bytes) (t : Nat) (dec : Bool), ∃
      h b body p ok, Begins s d ∧ chk < 2 ∧ MaskReady d k 12 ∧ x = k.desc ∧ key = laneKey x (auxOf k) (key1 k).mat (labelOff x) ∧ f = encFn
      0x0012 key ∧ m = srcOf k ∧ t = tagOr x 16 ∧ dec = pDec x ∧ AtUnit d tag 0x0204 k ∧ (dec = false → pNonce x = false → bit (key1 k).attr
      atNONCE_HW = false) ∧ pSeg x = 3 ∧ ctxCheck k (auxSecure k d) (kCtxOf d) = .ok (h, b) ∧ dec = true ∧ body = m.take (m.length - t) ∧ p =
      passGcm key dec b.chain b.acc body ∧ ok = decide ((gcmTag f (b.chain.take 12) p.acc h.aad (h.len + body.length)).take t = m.drop (m.length
      - t)) ∧ ok = false ∧ p.out.length ≤ 65536) ∧
    (∃ (s : State) (d : Dev) (tag : Nat) (chk : Nat) (k : Cmd) (x : Desc) (key : Bytes) (f : Bytes → Bytes) (m : Bytes) (t : Nat) (dec : Bool), ∃
      e, Begins s d ∧ chk < 2 ∧ MaskReady d k 12 ∧ x = k.desc ∧ key = laneKey x (auxOf k) (key1 k).mat (labelOff x) ∧ f = encFn 0x0012 key ∧ m =
      srcOf k ∧ t = tagOr x 16 ∧ dec = pDec x ∧ AtUnit d tag 0x0204 k ∧ (dec = false → pNonce x = false → bit (key1 k).attr atNONCE_HW = false) ∧
      2 ≤ pSeg x ∧ ctxCheck k (auxSecure k d) (kCtxOf d) = .error e) :=
  ⟨⟨(st (wSeg.getD 9 svc)), _, 7, 0, (cmd1 (wSeg.getD 9 svc)), _, _, _, _, _, _, ⟨1, 516, 1, 0, 1, 32, 16, 1, 0⟩, ⟨(ramp 16), 77, (zeros 16)⟩, _,
    _, _, (begins_st _ rfl rfl rfl), (by decide +kernel), (by unfold MaskReady RandomReady RandomAt NoReads; decide +kernel), rfl, rfl, rfl, rfl,
    rfl, rfl, (by unfold AtUnit Fresh; decide +kernel), (by decide +kernel), (by decide +kernel), (except_of (by decide +kernel)),
    (by decide +kernel), rfl, rfl, rfl, (by decide +kernel)⟩,
   ⟨(st (wSeg.getD 11 svc)), _, 7, 0, (cmd1 (wSeg.getD 11 svc)), _, _, _, _, _, _, (258, 0x0110), (begins_st _ rfl rfl rfl), (by decide +kernel),
     (by unfold MaskReady RandomReady RandomAt NoReads; decide +kernel), rfl, rfl, rfl, rfl, rfl, rfl, (by unfold AtUnit Fresh; decide +kernel),
     (by decide +kernel), (by decide +kernel), (except_of (by decide +kernel))⟩⟩

def authenticatedCommandsState6b : Dev :=
  withCmd { cmdAt 0 (desc 0x0205 0x0D00) [aes] (zeros 65536) (ramp 16) with desc := { desc 0x0205 0x0D00 with auxLen := 16 } } svc

theorem AuthenticatedCommands_met1 :
    (∃ (s : State) (d : Dev) (tag : Nat) (chk : Nat) (k : Cmd) (x : Desc) (f : Bytes → Bytes) (iv : Bytes) (aad : Bytes) (m : Bytes) (t : Nat),
      Begins s d ∧ chk < 2 ∧ MaskReady d k 0 ∧ x = k.desc ∧ f = encFn 0x0012 (laneKey x (auxOf k) (key1 k).mat (labelOff x)) ∧ aad = slice (auxOf
      k) (aadOff x) (aadLen x) ∧ m = srcOf k ∧ t = tagOr x 16 ∧ AtUnit d tag 0x0204 k ∧ pSeg x = 0 ∧ pDec x = false ∧ pNonce x = false ∧ bit
      (key1 k).attr atNONCE_HW = false ∧ iv = slice (auxOf k) 0 12) ∧
    (∃ (s : State) (d : Dev) (tag : Nat) (chk : Nat) (k : Cmd) (x : Desc) (f : Bytes → Bytes) (aad : Bytes) (m : Bytes) (t : Nat), Begins s d ∧
      chk < 2 ∧ MaskReady d k 0 ∧ x = k.desc ∧ f = encFn 0x0012 (laneKey x (auxOf k) (key1 k).mat (labelOff x)) ∧ aad = slice (auxOf k) (aadOff
      x) (aadLen x) ∧ m = srcOf k ∧ t = tagOr x 16 ∧ AtUnit d tag 0x0204 k ∧ pDec x = false ∧ pNonce x = false ∧ bit (key1 k).attr atNONCE_HW =
      true) ∧
    (∃ (s : State) (d : Dev) (tag : Nat) (chk : Nat) (k : Cmd) (x : Desc) (f : Bytes → Bytes) (iv : Bytes) (aad : Bytes) (m : Bytes) (t : Nat), ∃
      v out, Begins s d ∧ chk < 2 ∧ MaskReady d k 0 ∧ x = k.desc ∧ f = encFn 0x0012 (laneKey x (auxOf k) (key1 k).mat (labelOff x)) ∧ aad = slice
      (auxOf k) (aadOff x) (aadLen x) ∧ m = srcOf k ∧ t = tagOr x 16 ∧ AtUnit d tag 0x0204 k ∧ pSeg x = 0 ∧ pDec x = false ∧ pNonce x = true ∧
      CounterReady d k v ∧ iv = beBytes 4 (nonceFixed k) ++ beBytes 8 v ∧ out = (gcmEnc f iv aad m).1 ++ (gcmEnc f iv aad m).2.take t) ∧
    (∃ (s : State) (d : Dev) (tag : Nat) (chk : Nat) (k : Cmd) (x : Desc) (f : Bytes → Bytes) (iv : Bytes) (aad : Bytes) (m : Bytes) (t : Nat), ∃
      r, Begins s d ∧ chk < 2 ∧ MaskReady d k 0 ∧ x = k.desc ∧ f = encFn 0x0012 (laneKey x (auxOf k) (key1 k).mat (labelOff x)) ∧ aad = slice
      (auxOf k) (aadOff x) (aadLen x) ∧ m = srcOf k ∧ t = tagOr x 16 ∧ AtUnit d tag 0x0204 k ∧ pSeg x = 0 ∧ pDec x = true ∧ pNonce x = false ∧ iv
      = slice (auxOf k) 0 12 ∧ r = gcmDec f iv aad (m.take (m.length - t)) ∧ r.2.take t = m.drop (m.length - t)) ∧
    (∃ (s : State) (d : Dev) (tag : Nat) (chk : Nat) (k : Cmd) (x : Desc) (f : Bytes → Bytes) (iv : Bytes) (aad : Bytes) (m : Bytes) (t : Nat), ∃
      r, Begins s d ∧ chk < 2 ∧ MaskReady d k 0 ∧ x = k.desc ∧ f = encFn 0x0012 (laneKey x (auxOf k) (key1 k).mat (labelOff x)) ∧ aad = slice
      (auxOf k) (aadOff x) (aadLen x) ∧ m = srcOf k ∧ t = tagOr x 16 ∧ AtUnit d tag 0x0204 k ∧ pSeg x = 0 ∧ pDec x = true ∧ pNonce x = false ∧ iv
      = slice (auxOf k) 0 12 ∧ r = gcmDec f iv aad (m.take (m.length - t)) ∧ r.2.take t ≠ m.drop (m.length - t) ∧ r.1.length ≤ 65536) ∧
    (∃ (s : State) (d : Dev) (tag : Nat) (chk : Nat) (k : Cmd) (x : Desc) (f : Bytes → Bytes) (iv : Bytes) (aad : Bytes) (m : Bytes) (t : Nat),
      Begins s d ∧ chk < 2 ∧ MaskReady d k 0 ∧ x = k.desc ∧ f = encFn 0x0012 (laneKey x (auxOf k) (key1 k).mat (labelOff x)) ∧ aad = slice (auxOf
      k) (aadOff x) (aadLen x) ∧ m = srcOf k ∧ t = tagOr x 16 ∧ AtUnit d tag 0x0205 k ∧ pDec x = false ∧ iv = slice (auxOf k) 0 (pArg x) ∧
      m.length < 2 ^ (8 * (15 - pArg x))) ∧
    (∃ (s : State) (d : Dev) (tag : Nat) (chk : Nat) (k : Cmd) (x : Desc) (f : Bytes → Bytes) (iv : Bytes) (aad : Bytes) (m : Bytes) (t : Nat),
      Begins s d ∧ chk < 2 ∧ MaskReady d k 0 ∧ x = k.desc ∧ f = encFn 0x0012 (laneKey x (auxOf k) (key1 k).mat (labelOff x)) ∧ aad = slice (auxOf
      k) (aadOff x) (aadLen x) ∧ m = srcOf k ∧ t = tagOr x 16 ∧ AtUnit d tag 0x0205 k ∧ pDec x = false ∧ iv = slice (auxOf k) 0 (pArg x) ∧ 2 ^ (8
      * (15 - pArg x)) ≤ m.length) ∧
    (∃ (s : State) (d : Dev) (tag : Nat) (chk : Nat) (k : Cmd) (x : Desc) (f : Bytes → Bytes) (iv : Bytes) (aad : Bytes) (m : Bytes) (t : Nat), ∃
      r, Begins s d ∧ chk < 2 ∧ MaskReady d k 0 ∧ x = k.desc ∧ f = encFn 0x0012 (laneKey x (auxOf k) (key1 k).mat (labelOff x)) ∧ aad = slice
      (auxOf k) (aadOff x) (aadLen x) ∧ m = srcOf k ∧ t = tagOr x 16 ∧ AtUnit d tag 0x0205 k ∧ pDec x = true ∧ iv = slice (auxOf k) 0 (pArg x) ∧
      m.length - t < 2 ^ (8 * (15 - pArg x)) ∧ r = ccmDec f iv aad (m.take (m.length - t)) t ∧ r.2 = m.drop (m.length - t)) :=
  ⟨⟨(st (wAuth.getD 0 svc)), _, 7, 0, (cmd1 (wAuth.getD 0 svc)), _, _, _, _, _, _, (begins_st _ rfl rfl rfl), (by decide +kernel),
    (by unfold MaskReady RandomReady RandomAt NoReads; decide +kernel), rfl, rfl, rfl, rfl, rfl, (by unfold AtUnit Fresh; decide +kernel),
    (by decide +kernel), (by decide +kernel), (by decide +kernel), (by decide +kernel), rfl⟩,
   ⟨(st (wAuth.getD 1 svc)), _, 7, 0, (cmd1 (wAuth.getD 1 svc)), _, _, _, _, _, (begins_st _ rfl rfl rfl), (by decide +kernel),
     (by unfold MaskReady RandomReady RandomAt NoReads; decide +kernel), rfl, rfl, rfl, rfl, rfl, (by unfold AtUnit Fresh; decide +kernel),
     (by decide +kernel)⟩,
   ⟨(st (wAuth.getD 2 svc)), _, 7, 0, (cmd1 (wAuth.getD 2 svc)), _, _, _, _, _, _, _, _, (begins_st _ rfl rfl rfl), (by decide +kernel),
     (by unfold MaskReady RandomReady RandomAt NoReads; decide +kernel), rfl, rfl, rfl, rfl, rfl, (by unfold AtUnit Fresh; decide +kernel),
     (by decide +kernel), (by decide +kernel), (by decide +kernel), (counter_st _ _ (keyIn (wAuth.getD 2 svc)) (resident1 (keyIn (wAuth.getD 2
     svc))) (by decide +kernel) (by decide +kernel) (by decide +kernel) (by decide +kernel) (by decide +kernel)), rfl, rfl⟩,
   ⟨(st (wAuth.getD 3 svc)), _, 7, 0, (cmd1 (wAuth.getD 3 svc)), _, _, _, _, _, _, _, (begins_st _ rfl rfl rfl), (by decide +kernel),
     (by unfold MaskReady RandomReady RandomAt NoReads; decide +kernel), rfl, rfl, rfl, rfl, rfl, (by unfold AtUnit Fresh; decide +kernel),
     (by decide +kernel), (by decide +kernel), (by decide +kernel), rfl, rfl, (by decide +kernel)⟩,
   ⟨(st (wAuth.getD 4 svc)), _, 7, 0, (cmd1 (wAuth.getD 4 svc)), _, _, _, _, _, _, _, (begins_st _ rfl rfl rfl), (by decide +kernel),
     (by unfold MaskReady RandomReady RandomAt NoReads; decide +kernel), rfl, rfl, rfl, rfl, rfl, (by unfold AtUnit Fresh; decide +kernel),
     (by decide +kernel), (by decide +kernel), (by decide +kernel), rfl, rfl, (by decide +kernel)⟩,
   ⟨(st (wAuth.getD 5 svc)), _, 7, 0, (cmd1 (wAuth.getD 5 svc)), _, _, _, _, _, _, (begins_st _ rfl rfl rfl), (by decide +kernel),
     (by unfold MaskReady RandomReady RandomAt NoReads; decide +kernel), rfl, rfl, rfl, rfl, rfl, (by unfold AtUnit Fresh; decide +kernel),
     (by decide +kernel), rfl, (by decide +kernel)⟩,
   ⟨(st authenticatedCommandsState6b), _, 7, 0, (cmd1 authenticatedCommandsState6b), _, _, _, _, _, _, (begins_st _ rfl rfl rfl),
     (by decide +kernel), (by unfold MaskReady RandomReady RandomAt NoReads; decide +kernel), rfl, rfl, rfl, rfl, rfl, ⟨rfl, rfl, rfl, rfl,
     (by unfold Fresh; decide +kernel)⟩, (by decide +kernel), rfl, (long_zeros 65536 (by decide +kernel))⟩,
   ⟨(st (wAuth.getD 6 svc)), _, 7, 0, (cmd1 (wAuth.getD 6 svc)), _, _, _, _, _, _, _, (begins_st _ rfl rfl rfl), (by decide +kernel),
     (by unfold MaskReady RandomReady RandomAt NoReads; decide +kernel), rfl, rfl, rfl, rfl, rfl, (by unfold AtUnit Fresh; decide +kernel),
     (by decide +kernel), rfl, (by decide +kernel), rfl, (by decide +kernel)⟩⟩

theorem AuthenticatedCommands_met2 :
    (∃ (s : State) (d : Dev) (tag : Nat) (chk : Nat) (k : Cmd) (x : Desc) (f : Bytes → Bytes) (iv : Bytes) (aad : Bytes) (m : Bytes) (t : Nat), ∃
      r, Begins s d ∧ chk < 2 ∧ MaskReady d k 0 ∧ x = k.desc ∧ f = encFn 0x0012 (laneKey x (auxOf k) (key1 k).mat (labelOff x)) ∧ aad = slice
      (auxOf k) (aadOff x) (aadLen x) ∧ m = srcOf k ∧ t = tagOr x 16 ∧ AtUnit d tag 0x0205 k ∧ pDec x = true ∧ iv = slice (auxOf k) 0 (pArg x) ∧
      m.length - t < 2 ^ (8 * (15 - pArg x)) ∧ r = ccmDec f iv aad (m.take (m.length - t)) t ∧ r.2 ≠ m.drop (m.length - t) ∧ r.1.length ≤ 65536) ∧
    (∃ (s : State) (d : Dev) (tag : Nat) (chk : Nat) (k : Cmd) (x : Desc) (f : Bytes → Bytes) (aad : Bytes) (m : Bytes) (t : Nat), Begins s d ∧
      chk < 2 ∧ MaskReady d k 0 ∧ x = k.desc ∧ f = encFn 0x0012 (laneKey x (auxOf k) (key1 k).mat (labelOff x)) ∧ aad = slice (auxOf k) (aadOff
      x) (aadLen x) ∧ m = srcOf k ∧ t = tagOr x 16 ∧ AtUnit d tag 0x0206 k ∧ k.done < xtsUnits x) ∧
    (∃ (s : State) (d : Dev) (tag : Nat) (chk : Nat) (k : Cmd) (x : Desc) (f : Bytes → Bytes) (aad : Bytes) (m : Bytes) (t : Nat), Begins s d ∧
      chk < 2 ∧ MaskReady d k 0 ∧ x = k.desc ∧ f = encFn 0x0012 (laneKey x (auxOf k) (key1 k).mat (labelOff x)) ∧ aad = slice (auxOf k) (aadOff
      x) (aadLen x) ∧ m = srcOf k ∧ t = tagOr x 16 ∧ AtUnit d tag 0x0206 k ∧ xtsUnits x ≤ k.done) :=
  ⟨⟨(st (wAuth.getD 7 svc)), _, 7, 0, (cmd1 (wAuth.getD 7 svc)), _, _, _, _, _, _, _, (begins_st _ rfl rfl rfl), (by decide +kernel),
    (by unfold MaskReady RandomReady RandomAt NoReads; decide +kernel), rfl, rfl, rfl, rfl, rfl, (by unfold AtUnit Fresh; decide +kernel),
    (by decide +kernel), rfl, (by decide +kernel), rfl, (by decide +kernel)⟩,
   ⟨(st (wAuth.getD 8 svc)), _, 7, 0, (cmd1 (wAuth.getD 8 svc)), _, _, _, _, _, (begins_st _ rfl rfl rfl), (by decide +kernel),
     (by unfold MaskReady RandomReady RandomAt NoReads; decide +kernel), rfl, rfl, rfl, rfl, rfl, (by unfold AtUnit Fresh; decide +kernel),
     (by decide +kernel)⟩,
   ⟨(st authenticatedCommandsState9), _, 7, 0, (cmd1 authenticatedCommandsState9), _, _, _, _, _, (begins_st _ rfl rfl rfl), (by decide +kernel),
     (by unfold MaskReady RandomReady RandomAt NoReads; decide +kernel), rfl, rfl, rfl, rfl, rfl, (by unfold AtUnit Fresh; decide +kernel),
     (by decide +kernel)⟩⟩

theorem ContextCommands_met :
    (∃ (s : State) (d : Dev) (tag : Nat) (chk : Nat) (k : Cmd) (h : CtxHead), ∃ b, Begins s d ∧ chk < 2 ∧ MaskReady d k 12 ∧ h = ctxHeadOf (srcOf
      k) ∧ AtUnit d tag 0x0209 k ∧ wrapWeak (key2 k) (key1 k) = false ∧ ctxSrcForm k 1 = none ∧ ctxOpen (kCtxOf d) (srcOf k) = some b ∧
      ctxSrcFields k = none) ∧
    (∃ (s : State) (d : Dev) (tag : Nat) (chk : Nat) (k : Cmd) (h : CtxHead), Begins s d ∧ chk < 2 ∧ MaskReady d k 12 ∧ h = ctxHeadOf (srcOf k) ∧
      AtUnit d tag 0x0209 k ∧ wrapWeak (key2 k) (key1 k) = false ∧ ctxSrcForm k 1 = none ∧ ctxOpen (kCtxOf d) (srcOf k) = none) ∧
    (∃ (s : State) (d : Dev) (tag : Nat) (chk : Nat) (k : Cmd) (h : CtxHead), ∃ b, Begins s d ∧ chk < 2 ∧ MaskReady d k 12 ∧ h = ctxHeadOf (srcOf
      k) ∧ AtUnit d tag 0x020A k ∧ wrapWeak (key2 k) (key1 k) = false ∧ ctxSrcForm k 2 = none ∧ h.wrapId = kcvNat (key2 k) ∧ ctxOpen (key2 k).mat
      (srcOf k) = some b ∧ ctxSrcFields k = none) ∧
    (∃ (s : State) (d : Dev) (tag : Nat) (chk : Nat) (k : Cmd) (h : CtxHead), Begins s d ∧ chk < 2 ∧ MaskReady d k 12 ∧ h = ctxHeadOf (srcOf k) ∧
      AtUnit d tag 0x020A k ∧ wrapWeak (key2 k) (key1 k) = false ∧ ctxSrcForm k 2 = none ∧ h.wrapId = kcvNat (key2 k) ∧ ctxOpen (key2 k).mat
      (srcOf k) = none) ∧
    (∃ (s : State) (d : Dev) (tag : Nat) (chk : Nat) (k : Cmd) (h : CtxHead), Begins s d ∧ chk < 2 ∧ MaskReady d k 12 ∧ h = ctxHeadOf (srcOf k) ∧
      AtUnit d tag 0x020A k ∧ wrapWeak (key2 k) (key1 k) = false ∧ ctxSrcForm k 2 = none ∧ h.wrapId ≠ kcvNat (key2 k)) ∧
    (∃ (s : State) (d : Dev) (tag : Nat) (chk : Nat) (k : Cmd) (h : CtxHead), ∃ c, Begins s d ∧ chk < 2 ∧ MaskReady d k 12 ∧ h = ctxHeadOf (srcOf
      k) ∧ c ∈ [(0x0209, Instr.ctxSave tag chk), (0x020A, Instr.ctxRestore tag chk)] ∧ AtUnit d tag c.1 k ∧ wrapWeak (key2 k) (key1 k) = true) :=
  ⟨⟨(st (wCtx.getD 0 svc)), _, 7, 0, (cmd1 (wCtx.getD 0 svc)), ⟨1, 513, 0, 0, 1, 32, 16, 1, 0⟩, ⟨(ramp 16), 77, (zeros 16)⟩,
    (begins_st _ rfl rfl rfl), (by decide +kernel), (by unfold MaskReady RandomReady RandomAt NoReads; decide +kernel), (by decide +kernel),
    (by unfold AtUnit Fresh; decide +kernel), (by decide +kernel)⟩,
   ⟨(st contextCommandsState1), _, 7, 0, (cmd1 contextCommandsState1), _, (begins_st _ rfl rfl rfl), (by decide +kernel),
     (by unfold MaskReady RandomReady RandomAt NoReads; decide +kernel), rfl, (by unfold AtUnit Fresh; decide +kernel), (by decide +kernel)⟩,
   ⟨(st (wCtx.getD 1 svc)), _, 7, 0, (cmd1 (wCtx.getD 1 svc)), ⟨2, 513, 0, 0, 1, 32, 16, 1, 131844⟩, ⟨(ramp 16), 77, (zeros 16)⟩,
     (begins_st _ rfl rfl rfl), (by decide +kernel), (by unfold MaskReady RandomReady RandomAt NoReads; decide +kernel), (by decide +kernel),
     (by unfold AtUnit Fresh; decide +kernel), (by decide +kernel)⟩,
   ⟨(st (wCtx.getD 2 svc)), _, 7, 0, (cmd1 (wCtx.getD 2 svc)), ⟨2, 513, 0, 0, 1, 32, 16, 1, 131844⟩, (begins_st _ rfl rfl rfl),
     (by decide +kernel), (by unfold MaskReady RandomReady RandomAt NoReads; decide +kernel), (by decide +kernel),
     (by unfold AtUnit Fresh; decide +kernel), (by decide +kernel)⟩,
   ⟨(st contextCommandsState4), _, 7, 0, (cmd1 contextCommandsState4), _, (begins_st _ rfl rfl rfl), (by decide +kernel),
     (by unfold MaskReady RandomReady RandomAt NoReads; decide +kernel), rfl, (by unfold AtUnit Fresh; decide +kernel), (by decide +kernel)⟩,
   ⟨(st (wCtx.getD 3 svc)), _, 7, 0, (cmd1 (wCtx.getD 3 svc)), _, ((521, Instr.ctxSave 7)), (begins_st _ rfl rfl rfl), (by decide +kernel),
     (by unfold MaskReady RandomReady RandomAt NoReads; decide +kernel), rfl, (by decide +kernel), (by unfold AtUnit Fresh; decide +kernel),
     (by decide +kernel)⟩⟩

theorem CurveSignatureCommands_met :
    (∃ (s : State) (d : Dev) (tag : Nat) (chk : Nat) (k : Cmd) (x : Desc), ∃ cv n v, Begins s d ∧ chk < 2 ∧ x = k.desc ∧ AtUnit d tag 0x0301 k ∧
      cv = curveOf (key1 k).alg ∧ n = (if cv.size = 32 then 80 else 112) - (if pDet x then 32 else 0) ∧ EngineReady d k chk n ∧ (if pDer x then
      (if cv.size = 32 then 72 else 104) else 2 * cv.size) ≤ x.dstLen ∧ v = ecdsaSign cv (pHash x) (beNat ((key1 k).mat.take cv.size)) (digestOf
      k (pHash x)) (if pDet x then [] else (engineRandom d k chk n).take 32)) ∧
    (∃ (s : State) (d : Dev) (tag : Nat) (chk : Nat) (k : Cmd) (x : Desc), Begins s d ∧ chk < 2 ∧ x = k.desc ∧ AtUnit d tag 0x0301 k ∧ pDer x =
      false ∧ x.dstLen < 2 * (curveOf (key1 k).alg).size) ∧
    (∃ (s : State) (d : Dev) (tag : Nat) (chk : Nat) (k : Cmd) (x : Desc), Begins s d ∧ chk < 2 ∧ x = k.desc ∧ AtUnit d tag 0x0303 k ∧
      EngineReady d k chk 48) ∧
    (∃ (s : State) (d : Dev) (tag : Nat) (chk : Nat) (k : Cmd) (x : Desc), ∃ cv q, Begins s d ∧ chk < 2 ∧ x = k.desc ∧ AtUnit d tag 0x0302 k ∧
      pDer x = false ∧ cv = curveOf (pkeAlgOf k) ∧ (operandOf k).length = 2 * cv.size ∧ ecDecode cv (pkOf k) = some q) ∧
    (∃ (s : State) (d : Dev) (tag : Nat) (chk : Nat) (k : Cmd) (x : Desc), Begins s d ∧ chk < 2 ∧ x = k.desc ∧ AtUnit d tag 0x0302 k ∧ pDer x =
      true ∧ (if (curveOf (pkeAlgOf k)).size = 32 then 72 else 104) < (operandOf k).length) ∧
    (∃ (s : State) (d : Dev) (tag : Nat) (chk : Nat) (k : Cmd) (x : Desc), ∃ cv q r v, Begins s d ∧ chk < 2 ∧ x = k.desc ∧ AtUnit d tag 0x0302 k
      ∧ pDer x = true ∧ (operandOf k).length ≤ (if (curveOf (pkeAlgOf k)).size = 32 then 72 else 104) ∧ cv = curveOf (pkeAlgOf k) ∧ derParse
      (operandOf k) = some (r, v) ∧ ecDecode cv (pkOf k) = some q) ∧
    (∃ (s : State) (d : Dev) (tag : Nat) (chk : Nat) (k : Cmd) (x : Desc), Begins s d ∧ chk < 2 ∧ x = k.desc ∧ AtUnit d tag 0x0304 k ∧ (operandOf
      k).length = 64 ∧ inlBad k = false) :=
  ⟨⟨(st (wCurve.getD 0 svc)), _, 7, 0, (cmd1 (wCurve.getD 0 svc)), _, _, _, _, (begins_st _ rfl rfl rfl), (by decide +kernel), rfl,
    (by unfold AtUnit Fresh; decide +kernel), rfl, rfl, (by unfold EngineReady RandomReady RandomAt NoReads; decide +kernel),
    (by decide +kernel), rfl⟩,
   ⟨(st (wCurve.getD 2 svc)), _, 7, 0, (cmd1 (wCurve.getD 2 svc)), _, (begins_st _ rfl rfl rfl), (by decide +kernel), rfl,
     (by unfold AtUnit Fresh; decide +kernel), (by decide +kernel)⟩,
   ⟨(st (wCurve.getD 3 svc)), _, 7, 0, (cmd1 (wCurve.getD 3 svc)), _, (begins_st _ rfl rfl rfl), (by decide +kernel), rfl,
     (by unfold AtUnit Fresh; decide +kernel), (by unfold EngineReady RandomReady RandomAt NoReads; decide +kernel)⟩,
   ⟨(st (wCurve.getD 4 svc)), _, 7, 0, (cmd1 (wCurve.getD 4 svc)), _, _,
     ((48439561293906451759052585252797914202762949526041747995844080717082404635286,
     36134250956749795798585127919587881956611106672985015071877198253568414405109)), (begins_st _ rfl rfl rfl), (by decide +kernel), rfl,
     (by unfold AtUnit Fresh; decide +kernel), (by decide +kernel), rfl, (by decide +kernel)⟩,
   ⟨(st curveSignatureCommandsState4), _, 7, 0, (cmd1 curveSignatureCommandsState4), _, (begins_st _ rfl rfl rfl), (by decide +kernel), rfl,
     (by unfold AtUnit Fresh; decide +kernel), (by decide +kernel)⟩,
   ⟨(st (wCurve.getD 5 svc)), _, 7, 0, (cmd1 (wCurve.getD 5 svc)), _, _,
     ((48439561293906451759052585252797914202762949526041747995844080717082404635286,
     36134250956749795798585127919587881956611106672985015071877198253568414405109)), 5, 6, (begins_st _ rfl rfl rfl), (by decide +kernel), rfl,
     (by unfold AtUnit Fresh; decide +kernel), (by decide +kernel), (by decide +kernel), rfl, (by decide +kernel)⟩,
   ⟨(st (wCurve.getD 6 svc)), _, 7, 0, (cmd1 (wCurve.getD 6 svc)), _, (begins_st _ rfl rfl rfl), (by decide +kernel), rfl,
     (by unfold AtUnit Fresh; decide +kernel), (by decide +kernel)⟩⟩

theorem AgreementAndRsaCommands_met1 :
    (∃ (s : State) (d : Dev) (tag : Nat) (chk : Nat) (k : Cmd) (x : Desc) (n : Nat), ∃ alg peer sec, Begins s d ∧ chk < 2 ∧ x = k.desc ∧ x.auxLen
      = tmplAt k + 64 ∧ AtUnit d tag 0x0305 k ∧ alg = pkeAlgOf k ∧ peer = slice (auxOf k) (operandAt k) (pkLen alg) ∧ secretTmplFault (pkeTmpl k)
      = none ∧ pubKeyOk alg peer = true ∧ pVar x ≠ 1 ∧ n = (if alg = 0x0102 then 64 else 48) ∧ EngineReady d k chk n ∧ ecdhSecret alg (key1
      k).mat peer = some sec) ∧
    (∃ (s : State) (d : Dev) (tag : Nat) (chk : Nat) (k : Cmd) (x : Desc) (n : Nat), ∃ alg peer sec mat, Begins s d ∧ chk < 2 ∧ x = k.desc ∧
      x.auxLen = tmplAt k + 64 ∧ AtUnit d tag 0x0305 k ∧ alg = pkeAlgOf k ∧ peer = slice (auxOf k) (operandAt k) (pkLen alg) ∧ secretTmplFault
      (pkeTmpl k) = none ∧ pubKeyOk alg peer = true ∧ pVar x = 1 ∧ n = (if alg = 0x0102 then 64 else 48) + genDraw alg ∧ EngineReady d k chk n ∧
      genMat alg 0 (engineRandom d k chk n) = some mat ∧ ecdhSecret alg mat peer = some sec) ∧
    (∃ (s : State) (d : Dev) (tag : Nat) (chk : Nat) (k : Cmd) (x : Desc), ∃ r, Begins s d ∧ chk < 2 ∧ x = k.desc ∧ x.auxLen = tmplAt k + 64 ∧
      AtUnit d tag 0x0308 k ∧ inlBad k = false ∧ kemCtLen (pkeAlgOf k) ≤ x.dstLen ∧ EngineReady d k chk 96 ∧ r = kemEncap (pkeAlgOf k) (pkOf k)
      ((engineRandom d k chk 96).take 32) ∧ pComb x = false) ∧
    (∃ (s : State) (d : Dev) (tag : Nat) (chk : Nat) (k : Cmd) (x : Desc), ∃ sec, Begins s d ∧ chk < 2 ∧ x = k.desc ∧ x.auxLen = tmplAt k + 64 ∧
      AtUnit d tag 0x0309 k ∧ (srcOf k).length = kemCtLen (key1 k).alg ∧ EngineReady d k chk 192 ∧ sec = kemDecap (key1 k).alg (key1 k).mat
      (srcOf k) ∧ pComb x = false) ∧
    (∃ (s : State) (d : Dev) (tag : Nat) (chk : Nat) (k : Cmd) (x : Desc), ∃ sec, Begins s d ∧ chk < 2 ∧ x = k.desc ∧ x.auxLen = tmplAt k + 64 ∧
      AtUnit d tag 0x0309 k ∧ (srcOf k).length = kemCtLen (key1 k).alg ∧ EngineReady d k chk 192 ∧ sec = kemDecap (key1 k).alg (key1 k).mat
      (srcOf k) ∧ pComb x = true ∧ 32 + (key2 k).mat.length ≤ 128 ∧ bit (pkeTmpl k).attr atEXPORTABLE = false) ∧
    (∃ (s : State) (d : Dev) (tag : Nat) (chk : Nat) (k : Cmd) (x : Desc) (n : Nat) (h : Nat), ∃ alg mat em, Begins s d ∧ chk < 2 ∧ x = k.desc ∧
      h = pHash x ∧ AtUnit d tag 0x0306 k ∧ pVar x ≠ 3 ∧ alg = (key1 k).alg ∧ mat = (key1 k).mat ∧ n = rsaDraw alg + (if pVar x = 1 then saltLen
      (auxOf k) else 0) ∧ EngineReady d k chk n ∧ rsaK alg ≤ x.dstLen ∧ em = (if pVar x = 1 then pssEncode h (rsaK alg) (digestOf k h)
      ((engineRandom d k chk n).take (saltLen (auxOf k))) else pkcsEncode h (rsaK alg) (digestOf k h))) ∧
    (∃ (s : State) (d : Dev) (tag : Nat) (chk : Nat) (k : Cmd) (x : Desc) (n : Nat) (h : Nat), ∃ alg mat kk m, Begins s d ∧ chk < 2 ∧ x = k.desc
      ∧ h = pHash x ∧ AtUnit d tag 0x0306 k ∧ pVar x = 3 ∧ alg = (key1 k).alg ∧ mat = (key1 k).mat ∧ kk = rsaK alg ∧ (srcOf k).length = kk ∧
      oaepMax alg h ≤ x.dstLen ∧ n = rsaDraw alg ∧ EngineReady d k chk n ∧ beNat (srcOf k) < (rsaPubOf alg mat).n ∧ oaepDecode h kk (strOf k)
      (beBytes kk (rsaPriv alg mat (beNat (srcOf k)))) = some m) ∧
    (∃ (s : State) (d : Dev) (tag : Nat) (chk : Nat) (k : Cmd) (x : Desc) (n : Nat) (h : Nat), ∃ alg mat kk, Begins s d ∧ chk < 2 ∧ x = k.desc ∧
      h = pHash x ∧ AtUnit d tag 0x0306 k ∧ pVar x = 3 ∧ alg = (key1 k).alg ∧ mat = (key1 k).mat ∧ kk = rsaK alg ∧ (srcOf k).length = kk ∧
      oaepMax alg h ≤ x.dstLen ∧ n = rsaDraw alg ∧ EngineReady d k chk n ∧ beNat (srcOf k) < (rsaPubOf alg mat).n ∧ oaepDecode h kk (strOf k)
      (beBytes kk (rsaPriv alg mat (beNat (srcOf k)))) = none) :=
  ⟨⟨(st (wAgree.getD 0 svc)), _, 7, 0, (cmd1 (wAgree.getD 0 svc)), _, _, _, _, [7, 163, 124, 188, 20, 32, 147, 200, 183, 85, 220, 27, 16, 232,
    108, 180, 38, 55, 74, 209, 106, 168, 83, 237, 11, 223, 192, 178, 184, 109, 28, 124], (begins_st _ rfl rfl rfl), (by decide +kernel), rfl,
    (by decide +kernel), (by unfold AtUnit Fresh; decide +kernel), rfl, rfl, (by decide +kernel), (by decide +kernel), (by decide +kernel), rfl,
    (by unfold EngineReady RandomReady RandomAt NoReads; decide +kernel), (by decide +kernel)⟩,
   ⟨(st (wAgree.getD 1 svc)), _, 7, 0, (cmd1 (wAgree.getD 1 svc)), _, _, _, _, [143, 64, 197, 173, 182, 143, 37, 98, 74, 229, 178, 20, 234, 118,
     122, 110, 201, 77, 130, 157, 61, 123, 94, 26, 209, 186, 111, 62, 33, 56, 40, 95], ((genMat 0x0111 0 (randomOf (wAgree.getD 1 svc) (cmd1
     (wAgree.getD 1 svc)) (48 + genDraw 0x0111))).getD []), (begins_st _ rfl rfl rfl), (by decide +kernel), rfl, (by decide +kernel),
     (by unfold AtUnit Fresh; decide +kernel), rfl, rfl, (by decide +kernel), (by decide +kernel), (by decide +kernel), rfl,
     (by unfold EngineReady RandomReady RandomAt NoReads; decide +kernel), (by decide +kernel)⟩,
   ⟨(st (wAgree.getD 2 svc)), _, 7, 0, (cmd1 (wAgree.getD 2 svc)), _, _, (begins_st _ rfl rfl rfl), (by decide +kernel), rfl,
     (by decide +kernel), (by unfold AtUnit Fresh; decide +kernel), (by decide +kernel), (by decide +kernel),
     (by unfold EngineReady RandomReady RandomAt NoReads; decide +kernel), rfl, (by decide +kernel)⟩,
   ⟨(st (wAgree.getD 3 svc)), _, 7, 0, (cmd1 (wAgree.getD 3 svc)), _, _, (begins_st _ rfl rfl rfl), (by decide +kernel), rfl,
     (by decide +kernel), (by unfold AtUnit Fresh; decide +kernel), (by decide +kernel),
     (by unfold EngineReady RandomReady RandomAt NoReads; decide +kernel), rfl, (by decide +kernel)⟩,
   ⟨(st (wAgree.getD 4 svc)), _, 7, 0, (cmd1 (wAgree.getD 4 svc)), _, _, (begins_st _ rfl rfl rfl), (by decide +kernel), rfl,
     (by decide +kernel), (by unfold AtUnit Fresh; decide +kernel), (by decide +kernel),
     (by unfold EngineReady RandomReady RandomAt NoReads; decide +kernel), rfl, (by decide +kernel)⟩,
   ⟨(st (wRsa.getD 0 svc)), _, 7, 0, (cmd1 (wRsa.getD 0 svc)), _, _, _, _, _, _, (begins_st _ rfl rfl rfl), (by decide +kernel), rfl, rfl,
     (by unfold AtUnit Fresh; decide +kernel), (by decide +kernel), rfl, rfl, rfl,
     (by unfold EngineReady RandomReady RandomAt NoReads; decide +kernel), (by decide +kernel), rfl⟩,
   ⟨(st (wRsa.getD 2 svc)), _, 7, 0, (cmd1 (wRsa.getD 2 svc)), _, _, _, _, _, _, (ramp 5), (begins_st _ rfl rfl rfl), (by decide +kernel), rfl,
     rfl, (by unfold AtUnit Fresh; decide +kernel), (by decide +kernel), rfl, rfl, rfl, (by decide +kernel), (by decide +kernel), rfl,
     (by unfold EngineReady RandomReady RandomAt NoReads; decide +kernel), (by decide +kernel)⟩,
   ⟨(st (wRsa.getD 3 svc)), _, 7, 0, (cmd1 (wRsa.getD 3 svc)), _, _, _, _, _, _, (begins_st _ rfl rfl rfl), (by decide +kernel), rfl, rfl,
     (by unfold AtUnit Fresh; decide +kernel), (by decide +kernel), rfl, rfl, rfl, (by decide +kernel), (by decide +kernel), rfl,
     (by unfold EngineReady RandomReady RandomAt NoReads; decide +kernel), (by decide +kernel)⟩⟩

theorem AgreementAndRsaCommands_met2 :
    (∃ (s : State) (d : Dev) (tag : Nat) (chk : Nat) (k : Cmd) (x : Desc) (h : Nat), Begins s d ∧ chk < 2 ∧ x = k.desc ∧ h = pHash x ∧ AtUnit d
      tag 0x0307 k ∧ inlBad k = false ∧ pVar x ≠ 3 ∧ (operandOf k).length = rsaK (pkeAlgOf k)) ∧
    (∃ (s : State) (d : Dev) (tag : Nat) (chk : Nat) (k : Cmd) (x : Desc) (n : Nat) (h : Nat), ∃ alg p kk, Begins s d ∧ chk < 2 ∧ x = k.desc ∧ h
      = pHash x ∧ AtUnit d tag 0x0307 k ∧ inlBad k = false ∧ pVar x = 3 ∧ alg = pkeAlgOf k ∧ p = rsaPubOf alg (pkOf k) ∧ kk = rsaK alg ∧ (srcOf
      k).length ≤ oaepMax alg h ∧ kk ≤ x.dstLen ∧ n = hashSize h ∧ EngineReady d k chk n) :=
  ⟨⟨(st (wRsa.getD 4 svc)), _, 7, 0, (cmd1 (wRsa.getD 4 svc)), _, _, (begins_st _ rfl rfl rfl), (by decide +kernel), rfl, rfl,
    (by unfold AtUnit Fresh; decide +kernel), (by decide +kernel)⟩,
   ⟨(st (wRsa.getD 5 svc)), _, 7, 0, (cmd1 (wRsa.getD 5 svc)), _, _, _, _, _, _, (begins_st _ rfl rfl rfl), (by decide +kernel), rfl, rfl,
     (by unfold AtUnit Fresh; decide +kernel), (by decide +kernel), (by decide +kernel), rfl, rfl, rfl, (by decide +kernel), (by decide +kernel),
     rfl, (by unfold EngineReady RandomReady RandomAt NoReads; decide +kernel)⟩⟩

theorem LatticeAndHashSignatureCommands_met :
    (∃ (s : State) (d : Dev) (tag : Nat) (chk : Nat) (k : Cmd) (x : Desc) (n : Nat), ∃ m n0 r0 r buf rnd, Begins s d ∧ chk < 2 ∧ x = k.desc ∧
      AtUnit d tag 0x030A k ∧ m = (if pDet x then 0 else 32) ∧ buf = (drbgOf d (cmdQuarter k d)).buf ∧ r0 = dsaSign (key1 k).alg (key1 k).mat
      (pqOf k) (if pDet x then zeros 32 else buf.take m) ∧ n0 = discarded k chk (m + 160 * r0.2) ∧ rnd = (if pDet x then zeros 32 else (buf.drop
      n0).take m) ∧ r = dsaSign (key1 k).alg (key1 k).mat (pqOf k) rnd ∧ n = n0 + m + 160 * r.2 ∧ RandomReady d k n ∧ dsaSigLen (key1 k).alg ≤
      x.dstLen) ∧
    (∃ (s : State) (d : Dev) (tag : Nat) (chk : Nat) (k : Cmd) (x : Desc), Begins s d ∧ chk < 2 ∧ x = k.desc ∧ AtUnit d tag 0x030B k ∧ (operandOf
      k).length = dsaSigLen (pkeAlgOf k) ∧ inlBad k = false) ∧
    (∃ (s : State) (d : Dev) (tag : Nat) (chk : Nat) (k : Cmd) (x : Desc) (n : Nat), Begins s d ∧ chk < 2 ∧ x = k.desc ∧ AtUnit d tag 0x030C k ∧
      n = (if pDet x then 64 else 80) ∧ EngineReady d k chk n ∧ slhSigLen (key1 k).alg ≤ x.dstLen) ∧
    (∃ (s : State) (d : Dev) (tag : Nat) (chk : Nat) (k : Cmd) (x : Desc), Begins s d ∧ chk < 2 ∧ x = k.desc ∧ AtUnit d tag 0x030D k ∧ (operandOf
      k).length = slhSigLen (pkeAlgOf k) ∧ inlBad k = false) ∧
    (∃ (s : State) (d : Dev) (tag : Nat) (chk : Nat) (k : Cmd) (x : Desc), ∃ l ok, Begins s d ∧ chk < 2 ∧ x = k.desc ∧ AtUnit d tag 0x030E k ∧
      hbsPkLen (pVar x) (auxOf k) = some l ∧ (if pVar x = 1 then hssOk (pkOf k) (srcOf k) (operandOf k) else xmssOk (decide (pVar x = 3)) (pkOf
      k) (srcOf k) (operandOf k)) = some ok) ∧
    (∃ (s : State) (d : Dev) (tag : Nat) (chk : Nat) (k : Cmd) (x : Desc), ∃ alg pk sig digest size ok, Begins s d ∧ chk < 2 ∧ x = k.desc ∧
      AtUnit d tag 0x030F k ∧ alg = (key1 k).alg ∧ pk = pkOf k ∧ sig = operandOf k ∧ digest = hashRun (pHash x) (srcOf k) ∧ (pVar x = 1 ∨ saltLen
      (auxOf k) = 0) ∧ sig.length = size ∧ ((algEc alg = true ∧ pVar x = 0 ∧ size = 2 * (curveOf alg).size ∧ ∃ q, ecDecode (curveOf alg) pk =
      some q ∧ ok = ecdsaOk (curveOf alg) q digest (beNat (sig.take (curveOf alg).size)) (beNat (sig.drop (curveOf alg).size))) ∨ (alg = 0x0110 ∧
      pVar x = 0 ∧ pHash x = 4 ∧ size = 64 ∧ ok = edOk 2 [] pk digest sig) ∨ (algRsa alg = true ∧ (pVar x = 1 ∨ pVar x = 2) ∧ size = rsaK alg ∧
      ok = rsaSigOk alg pk (pVar x) (pHash x) (saltLen (auxOf k)) digest sig) ∨ (algDsa alg = true ∧ pVar x = 0 ∧ size = dsaSigLen alg ∧ ok =
      dsaOk alg pk (pqMessage (pHash x) [] digest) sig) ∨ (algSlh alg = true ∧ pVar x = 0 ∧ size = slhSigLen alg ∧ ok = slhOk alg pk (pqMessage
      (pHash x) [] digest) sig))) :=
  ⟨⟨(st latticeAndHashSignatureCommandsState0), _, 7, 0, (cmd1 latticeAndHashSignatureCommandsState0), _, _, 32, _, _, _, _, _,
    (begins_st _ rfl rfl rfl), (by decide +kernel), rfl, (by unfold AtUnit Fresh; decide +kernel), (by decide +kernel), rfl, rfl, rfl, rfl, rfl,
    rfl, (dsa_ready _ _ _ _ _ (by unfold NoReads; decide +kernel) rfl rfl (dsaSign_le _ _ _ _)), (by decide +kernel)⟩,
   ⟨(st (wPq.getD 1 svc)), _, 7, 0, (cmd1 (wPq.getD 1 svc)), _, (begins_st _ rfl rfl rfl), (by decide +kernel), rfl,
     (by unfold AtUnit Fresh; decide +kernel), (by decide +kernel)⟩,
   ⟨(st (wPq.getD 2 svc)), _, 7, 0, (cmd1 (wPq.getD 2 svc)), _, _, (begins_st _ rfl rfl rfl), (by decide +kernel), rfl,
     (by unfold AtUnit Fresh; decide +kernel), rfl, (by unfold EngineReady RandomReady RandomAt NoReads; decide +kernel), (by decide +kernel)⟩,
   ⟨(st (wPq.getD 3 svc)), _, 7, 0, (cmd1 (wPq.getD 3 svc)), _, (begins_st _ rfl rfl rfl), (by decide +kernel), rfl, ⟨rfl, rfl, rfl, rfl,
     (by unfold Fresh; decide +kernel)⟩, (by decide +kernel)⟩,
   ⟨(st (wPq.getD 4 svc)), _, 7, 0, (cmd1 (wPq.getD 4 svc)), _, 68, false, (begins_st _ rfl rfl rfl), (by decide +kernel), rfl,
     (by unfold AtUnit Fresh; decide +kernel), (by decide +kernel)⟩,
   ⟨(st (wPq.getD 6 svc)), _, 7, 0, (cmd1 (wPq.getD 6 svc)), _, _, _, _, _, _, false, (begins_st _ rfl rfl rfl), (by decide +kernel), rfl,
     (by unfold AtUnit Fresh; decide +kernel), rfl, rfl, rfl, rfl, (by decide +kernel), rfl, (by decide +kernel)⟩⟩

theorem PairAndAttributeCommands_met :
    (∃ (s : State) (d : Dev) (tag : Nat) (chk : Nat) (k : Cmd) (x : Desc) (t : Tmpl), ∃ mat r n, Begins s d ∧ chk < 2 ∧ x = k.desc ∧ t = tmplOf
      (auxOf k) ∧ AtUnit d tag 0x0102 k ∧ bit x.param 1 = false ∧ n = genDraw t.alg ∧ EngineReady d k chk n ∧ genMat t.alg (if t.rsaE = 0 then
      65537 else t.rsaE) (engineRandom d k chk n) = some mat ∧ r = recOf t t.alg (t.attr + attrLocal) false mat 0 false) ∧
    (∃ (s : State) (d : Dev) (tag : Nat) (chk : Nat) (k : Cmd) (x : Desc) (t : Tmpl), ∃ n, Begins s d ∧ chk < 2 ∧ x = k.desc ∧ t = tmplOf (auxOf
      k) ∧ AtUnit d tag 0x0102 k ∧ bit x.param 1 = false ∧ n = genDraw t.alg ∧ EngineReady d k chk n ∧ genMat t.alg (if t.rsaE = 0 then 65537
      else t.rsaE) (engineRandom d k chk n) = none) ∧
    (∃ (s : State) (d : Dev) (tag : Nat) (chk : Nat) (k : Cmd) (x : Desc) (t : Tmpl), ∃ r, Begins s d ∧ chk < 2 ∧ x = k.desc ∧ t = tmplOf (auxOf
      k) ∧ AtUnit d tag 0x0102 k ∧ bit x.param 1 = true ∧ pubKeyOk t.alg (srcOf k) = true ∧ r = recOf t t.alg t.attr true (srcOf k) 0 false) ∧
    (∃ (s : State) (d : Dev) (tag : Nat) (chk : Nat) (k : Cmd) (x : Desc) (t : Tmpl), Begins s d ∧ chk < 2 ∧ x = k.desc ∧ t = tmplOf (auxOf k) ∧
      AtUnit d tag 0x0102 k ∧ bit x.param 1 = true ∧ pubKeyOk t.alg (srcOf k) = false) ∧
    (∃ (s : State) (d : Dev) (tag : Nat) (chk : Nat) (k : Cmd) (x : Desc) (t : Tmpl), ∃ pk, Begins s d ∧ chk < 2 ∧ x = k.desc ∧ t = tmplOf (auxOf
      k) ∧ AtUnit d tag 0x0111 k ∧ pk = pubOf (key1 k).alg (key1 k).pubOnly (key1 k).mat) ∧
    (∃ (s : State) (d : Dev) (tag : Nat) (chk : Nat) (k : Cmd) (x : Desc) (t : Tmpl), Begins s d ∧ chk < 2 ∧ x = k.desc ∧ t = tmplOf (auxOf k) ∧
      AtUnit d tag 0x0109 k) ∧
    (∃ (s : State) (d : Dev) (tag : Nat) (chk : Nat) (k : Cmd) (x : Desc) (t : Tmpl), Begins s d ∧ chk < 2 ∧ x = k.desc ∧ t = tmplOf (auxOf k) ∧
      AtUnit d tag 0x0108 k) :=
  ⟨⟨(st (wPair.getD 0 svc)), _, 7, 0, (cmd1 (wPair.getD 0 svc)), _, _, ((genMat 0x0111 65537 (randomOf (wPair.getD 0 svc) (cmd1 (wPair.getD 0
    svc)) (genDraw 0x0111))).getD []), _, _, (begins_st _ rfl rfl rfl), (by decide +kernel), rfl, rfl, (by unfold AtUnit Fresh; decide +kernel),
    (by decide +kernel), rfl, (by unfold EngineReady RandomReady RandomAt NoReads; decide +kernel), (by decide +kernel), rfl⟩,
   ⟨(st pairAndAttributeCommandsState1), _, 7, 0, (cmd1 pairAndAttributeCommandsState1), _, _, _, (begins_st _ rfl rfl rfl), (by decide +kernel),
     rfl, rfl, (by unfold AtUnit Fresh; decide +kernel), (by decide +kernel), rfl,
     (by unfold EngineReady RandomReady RandomAt NoReads; decide +kernel), (genMat_even _ (by decide +kernel) (by decide +kernel))⟩,
   ⟨(st (wPair.getD 1 svc)), _, 7, 0, (cmd1 (wPair.getD 1 svc)), _, _, _, (begins_st _ rfl rfl rfl), (by decide +kernel), rfl, rfl,
     (by unfold AtUnit Fresh; decide +kernel), (by decide +kernel), (by decide +kernel), rfl⟩,
   ⟨(st (wPair.getD 2 svc)), _, 7, 0, (cmd1 (wPair.getD 2 svc)), _, _, (begins_st _ rfl rfl rfl), (by decide +kernel), rfl, rfl,
     (by unfold AtUnit Fresh; decide +kernel), (by decide +kernel)⟩,
   ⟨(st (wPair.getD 3 svc)), _, 7, 0, (cmd1 (wPair.getD 3 svc)), _, _, _, (begins_st _ rfl rfl rfl), (by decide +kernel), rfl, rfl,
     (by unfold AtUnit Fresh; decide +kernel), rfl⟩,
   ⟨(st (wPair.getD 5 svc)), _, 7, 0, (cmd1 (wPair.getD 5 svc)), _, _, (begins_st _ rfl rfl rfl), (by decide +kernel), rfl, rfl,
     (by unfold AtUnit Fresh; decide +kernel)⟩,
   ⟨(st (wPair.getD 6 svc)), _, 7, 0, (cmd1 (wPair.getD 6 svc)), _, _, (begins_st _ rfl rfl rfl), (by decide +kernel), rfl, rfl,
     (by unfold AtUnit Fresh; decide +kernel)⟩⟩

theorem KeyExportCommands_met :
    (∃ (s : State) (d : Dev) (tag : Nat) (n : Nat) (len : Nat) (k : Cmd) (x : KeyRec) (y : KeyRec), Begins s d ∧ x = key1 k ∧ y = key2 k ∧ AtUnit
      d tag 0x0105 k ∧ blobLen k.desc.param y.alg x.mat.length = some len ∧ len ≤ k.desc.dstLen ∧ n = wrapDraw k.desc.param ∧ RandomReady d k n) ∧
    (∃ (s : State) (d : Dev) (tag : Nat) (k : Cmd) (x : KeyRec) (y : KeyRec), Begins s d ∧ x = key1 k ∧ y = key2 k ∧ AtUnit d tag 0x0105 k ∧
      blobLen k.desc.param y.alg x.mat.length = none) ∧
    (∃ (s : State) (d : Dev) (tag : Nat) (len : Nat) (k : Cmd) (x : KeyRec) (y : KeyRec), Begins s d ∧ x = key1 k ∧ y = key2 k ∧ AtUnit d tag
      0x0105 k ∧ blobLen k.desc.param y.alg x.mat.length = some len ∧ k.desc.dstLen < len) ∧
    (∃ (s : State) (d : Dev) (tag : Nat) (len : Nat) (k : Cmd) (x : KeyRec) (y : KeyRec), Begins s d ∧ x = key1 k ∧ y = key2 k ∧ AtUnit d tag
      0x0106 k ∧ kbFields x ≠ none ∧ len = kbLen y x.mat.length ∧ k.desc.dstLen < len) ∧
    (∃ (s : State) (d : Dev) (tag : Nat) (n : Nat) (len : Nat) (k : Cmd) (x : KeyRec) (y : KeyRec), ∃ use alg mode hdr clear mac bl, Begins s d ∧
      x = key1 k ∧ y = key2 k ∧ AtUnit d tag 0x0106 k ∧ kbFields x = some (use, alg, mode) ∧ bl = blkLen y.alg ∧ len = kbLen y x.mat.length ∧ len
      ≤ k.desc.dstLen ∧ n = alignUp (2 + x.mat.length) bl - 2 - x.mat.length ∧ RandomReady d k n ∧ hdr = (auxOf k).take 1 ++ decOf 4 len ++ use
      ++ [alg, mode] ++ slice (auxOf k) 1 2 ++ [if bit x.attr atTRUSTED_ONLY then 0x45 else 0x53] ++ ascii "0100" ++ kbPad bl ∧ clear = beBytes 2
      (8 * x.mat.length) ++ x.mat ++ randomOf d k n ∧ mac = kbMac y (hdr ++ clear)) ∧
    (∃ (s : State) (d : Dev) (tag : Nat) (k : Cmd) (x : KeyRec) (y : KeyRec), Begins s d ∧ x = key1 k ∧ y = key2 k ∧ AtUnit d tag 0x0106 k ∧
      kbFields x = none) :=
  ⟨⟨(st (wExport.getD 0 svc)), _, 7, _, 40, (cmd1 (wExport.getD 0 svc)), _, _, (begins_st _ rfl rfl rfl), rfl, rfl,
    (by unfold AtUnit Fresh; decide +kernel), (by decide +kernel), (by decide +kernel), rfl,
    (by unfold RandomReady RandomAt NoReads; decide +kernel)⟩,
   ⟨(st (wExport.getD 2 svc)), _, 7, (cmd1 (wExport.getD 2 svc)), _, _, (begins_st _ rfl rfl rfl), rfl, rfl,
     (by unfold AtUnit Fresh; decide +kernel), (by decide +kernel)⟩,
   ⟨(st (withCmd (aUnit 0x0105 28 [aes, kek] [] [] 1 8) svcR)), _, 7, 40, (cmd1 (withCmd (aUnit 0x0105 28 [aes, kek] [] [] 1 8) svcR)), _, _,
     (begins_st _ rfl rfl rfl), rfl, rfl, (by unfold AtUnit Fresh; decide +kernel), (by decide +kernel)⟩,
   ⟨(st keyExportCommandsState3), _, 7, _, (cmd1 keyExportCommandsState3), _, _, (begins_st _ rfl rfl rfl), rfl, rfl,
     (by unfold AtUnit Fresh; decide +kernel), (by decide +kernel), rfl, (by decide +kernel)⟩,
   ⟨(st (wExport.getD 3 svc)), _, 7, _, _, (cmd1 (wExport.getD 3 svc)), _, _, [77, 55], (0x48#8), (0x43#8), _, _, _, _,
     (begins_st _ rfl rfl rfl), rfl, rfl, (by unfold AtUnit Fresh; decide +kernel), (by decide +kernel), rfl, rfl, (by decide +kernel), rfl,
     (by unfold RandomReady RandomAt NoReads; decide +kernel), rfl, rfl, rfl⟩,
   ⟨(st (wExport.getD 4 svc)), _, 7, (cmd1 (wExport.getD 4 svc)), _, _, (begins_st _ rfl rfl rfl), rfl, rfl,
     (by unfold AtUnit Fresh; decide +kernel), (by decide +kernel)⟩⟩

theorem KeyImportCommands_met :
    (∃ (s : State) (d : Dev) (tag : Nat) (k : Cmd) (w : KeyRec) (b : Bytes) (t : Tmpl), ∃ lo hi n, Begins s d ∧ w = key1 k ∧ b = srcOf k ∧ AtUnit
      d tag 0x0103 k ∧ k.desc.param ≠ 2 ∧ t = tmplOf (auxOf k) ∧ (algRow t.alg).map (fun r => (r.lo, r.hi)) = some (lo, hi) ∧ lo ≤ n ∧ n ≤ hi ∧
      blobLen k.desc.param w.alg n = some b.length ∧ unwrapBlob k.desc.param w b = none) ∧
    (∃ (s : State) (d : Dev) (tag : Nat) (k : Cmd) (w : KeyRec) (b : Bytes) (t : Tmpl) (mat : Bytes), ∃ lo hi n r, Begins s d ∧ w = key1 k ∧ b =
      srcOf k ∧ AtUnit d tag 0x0103 k ∧ k.desc.param ≠ 2 ∧ t = tmplOf (auxOf k) ∧ (algRow t.alg).map (fun r => (r.lo, r.hi)) = some (lo, hi) ∧ lo
      ≤ n ∧ n ≤ hi ∧ blobLen k.desc.param w.alg n = some b.length ∧ unwrapBlob k.desc.param w b = some mat ∧ tmplFault
      { t with tflags := t.tflags / 2 } t.alg false true (t.cls ≠ 2) true = none ∧ (k.desc.param = 3 → 16 ≤ mat.length ∧ mat.length ≤ 64) ∧ lo ≤
      mat.length ∧ mat.length ≤ hi ∧ algStrength t.alg mat.length ≤ algStrength w.alg w.mat.length ∧ matOk t.alg mat = true ∧ r = recOf t t.alg
      t.attr false mat 0 false) ∧
    (∃ (s : State) (d : Dev) (tag : Nat) (k : Cmd) (w : KeyRec) (b : Bytes) (t : Tmpl), Begins s d ∧ w = key1 k ∧ b = srcOf k ∧ AtUnit d tag
      0x0103 k ∧ k.desc.param = 2 ∧ k.desc.auxLen = 0 ∧ t = tmplOf (b.take 64) ∧ 92 ≤ b.length ∧ (matLens t.alg).contains (b.length - 92) = true
      ∧ attrOpen w.mat b = none) ∧
    (∃ (s : State) (d : Dev) (tag : Nat) (k : Cmd) (w : KeyRec) (b : Bytes) (t : Tmpl) (mat : Bytes), ∃ pub r, Begins s d ∧ w = key1 k ∧ b =
      srcOf k ∧ AtUnit d tag 0x0103 k ∧ k.desc.param = 2 ∧ k.desc.auxLen = 0 ∧ t = tmplOf (b.take 64) ∧ 92 ≤ b.length ∧ (matLens t.alg).contains
      (b.length - 92) = true ∧ attrOpen w.mat b = some mat ∧ matPublic t.alg mat = pub ∧ tmplFault { t with tflags := t.tflags / 2 } t.alg pub
      (algRow t.alg).isSome (t.cls ≠ 2) (algRsa t.alg || t.rsaE = 0) = none ∧ algStrength t.alg mat.length ≤ algStrength w.alg w.mat.length ∧
      (pub = true → pubKeyOk t.alg mat = true) ∧ (pub = false → matOk t.alg mat = true ∧ ∃ lo hi, (algRow t.alg).map (fun r => (r.lo, r.hi)) =
      some (lo, hi) ∧ lo ≤ mat.length ∧ mat.length ≤ hi) ∧ r = recOf t t.alg t.attr pub mat 0 (bit t.tflags 0)) ∧
    (∃ (s : State) (d : Dev) (tag : Nat) (k : Cmd) (w : KeyRec) (b : Bytes) (t : Tmpl), ∃ bl use wm wp opts at' ks ct mac clear n, Begins s d ∧ w
      = key1 k ∧ b = srcOf k ∧ AtUnit d tag 0x0104 k ∧ t = tmplOf (auxOf k) ∧ bl = blkLen w.alg ∧ 16 + 4 * bl ≤ b.length ∧ b.headD 0 = (if algAes
      w.alg then 0x44 else 0x42) ∧ decVal (slice b 1 4) = some b.length ∧ kbAttr (slice b 5 2) (b.getD 7 0) (b.getD 8 0) = some (use, wm, wp) ∧
      decVal (slice b 12 2) = some opts ∧ (b.getD 11 0 = 0x45 ∨ b.getD 11 0 = 0x53 ∨ b.getD 11 0 = 0x4E) ∧ slice b 14 2 = ascii "00" ∧ kbOpts
      opts 16 b [] = .ok (at', ks) ∧ unhex (slice b at' (b.length - at' - 2 * bl)) = some ct ∧ unhex (b.drop (at' + (b.length - at' - 2 * bl))) =
      some mac ∧ ct.length % bl = 0 ∧ ct ≠ [] ∧ at' + 2 * bl ≤ b.length ∧ clear = (cbcDec bl (decFn w.alg (kbKey w 0)) mac ct).1 ∧ n = beNat
      (clear.take 2) / 8 ∧ kbMac w (b.take at' ++ clear) ≠ mac) ∧
    (∃ (s : State) (d : Dev) (tag : Nat) (k : Cmd) (w : KeyRec) (b : Bytes) (t : Tmpl) (mat : Bytes), ∃ bl use wm wp opts at' ks ct mac clear n
      alg attr t' r, Begins s d ∧ w = key1 k ∧ b = srcOf k ∧ AtUnit d tag 0x0104 k ∧ t = tmplOf (auxOf k) ∧ bl = blkLen w.alg ∧ 16 + 4 * bl ≤
      b.length ∧ b.headD 0 = (if algAes w.alg then 0x44 else 0x42) ∧ decVal (slice b 1 4) = some b.length ∧ kbAttr (slice b 5 2) (b.getD 7 0)
      (b.getD 8 0) = some (use, wm, wp) ∧ decVal (slice b 12 2) = some opts ∧ (b.getD 11 0 = 0x45 ∨ b.getD 11 0 = 0x53 ∨ b.getD 11 0 = 0x4E) ∧
      slice b 14 2 = ascii "00" ∧ kbOpts opts 16 b [] = .ok (at', ks) ∧ unhex (slice b at' (b.length - at' - 2 * bl)) = some ct ∧ unhex (b.drop
      (at' + (b.length - at' - 2 * bl))) = some mac ∧ ct.length % bl = 0 ∧ ct ≠ [] ∧ at' + 2 * bl ≤ b.length ∧ clear = (cbcDec bl (decFn w.alg
      (kbKey w 0)) mac ct).1 ∧ n = beNat (clear.take 2) / 8 ∧ kbMac w (b.take at' ++ clear) = mac ∧ beNat (clear.take 2) % 8 = 0 ∧ 2 + n ≤
      clear.length ∧ kbMat (b.getD 7 0) (slice clear 2 n) = some (alg, mat) ∧ wm = false ∧ wp = false ∧ Nat.land t.attr (2 ^ atUSAGE_LIMITED + 2
      ^ atGRANTABLE + 2 ^ atCUSTODY + 2 ^ atBACKUP + 2 ^ atNONCE_HW) = t.attr ∧ attr = t.attr + use + (if b.getD 11 0 = 0x4E then 0 else 2 ^
      atEXPORTABLE) + (if b.getD 11 0 = 0x45 then 2 ^ atTRUSTED_ONLY else 0) ∧ tmplFault { t with alg := alg, attr := attr } alg false true
      (t.cls ≠ 2) (t.rsaE = 0) = none ∧ algStrength alg mat.length ≤ algStrength w.alg w.mat.length ∧ t' = (if t.label.all (· == 0) then
      { t with label := fitTo 16 ks } else t) ∧ r = recOf t' alg attr false mat 0 false) :=
  ⟨⟨(st (wImport.getD 1 svc)), _, 7, (cmd1 (wImport.getD 1 svc)), _, _, _, 32, 32, 32, (begins_st _ rfl rfl rfl), rfl, rfl,
    (by unfold AtUnit Fresh; decide +kernel), (by decide +kernel), rfl, (by decide +kernel)⟩,
   ⟨(st (wImport.getD 0 svc)), _, 7, (cmd1 (wImport.getD 0 svc)), _, _, _, (ramp 32), 32, 32, 32, _, (begins_st _ rfl rfl rfl), rfl, rfl,
     (by unfold AtUnit Fresh; decide +kernel), (by decide +kernel), rfl, (by decide +kernel), (by decide +kernel), (by decide +kernel),
     (by decide +kernel), (by decide +kernel), (by decide +kernel), (by decide +kernel), (by decide +kernel), (by decide +kernel),
     (by decide +kernel), (by decide +kernel), rfl⟩,
   ⟨(st (wImport.getD 3 svc)), _, 7, (cmd1 (wImport.getD 3 svc)), _, _, _, (begins_st _ rfl rfl rfl), rfl, rfl,
     (by unfold AtUnit Fresh; decide +kernel), (by decide +kernel), (by decide +kernel), rfl, (by decide +kernel)⟩,
   ⟨(st (wImport.getD 2 svc)), _, 7, (cmd1 (wImport.getD 2 svc)), _, _, _, (ramp 32), false, _, (begins_st _ rfl rfl rfl), rfl, rfl,
     (by unfold AtUnit Fresh; decide +kernel), (by decide +kernel), (by decide +kernel), rfl, (by decide +kernel), (by decide +kernel),
     (by decide +kernel), rfl, (by decide +kernel), (by decide +kernel), (by decide +kernel), (fun _ => ⟨(by decide +kernel), 32, 32,
     (by decide +kernel)⟩), rfl⟩,
   ⟨(st (wImport.getD 5 svc)), _, 7, (cmd1 (wImport.getD 5 svc)), _, _, _, _, 48, false, false, 0, 16, [], ((unhex (slice (kbBlock true) 16
     96)).getD []), (zeros 16), _, _, (begins_st _ rfl rfl rfl), rfl, rfl, (by unfold AtUnit Fresh; decide +kernel), rfl, rfl,
     (by decide +kernel), (by decide +kernel), (by decide +kernel), (by decide +kernel), (by decide +kernel), (by decide +kernel),
     (by decide +kernel), (except_of (by decide +kernel)), (by decide +kernel), (by decide +kernel), (by decide +kernel), (by decide +kernel),
     (by decide +kernel), rfl, rfl, (by decide +kernel)⟩,
   ⟨(st (wImport.getD 4 svc)), _, 7, (cmd1 (wImport.getD 4 svc)), _, _, _, (ramp 32), _, 48, false, false, 0, 16, [], ((unhex (slice (kbBlock
     true) 16 96)).getD []), ((unhex ((kbBlock true).drop 112)).getD []), _, _, 18, _, _, _, (begins_st _ rfl rfl rfl), rfl, rfl,
     (by unfold AtUnit Fresh; decide +kernel), rfl, rfl, (by decide +kernel), (by decide +kernel), (by decide +kernel), (by decide +kernel),
     (by decide +kernel), (by decide +kernel), (by decide +kernel), (except_of (by decide +kernel)), (by decide +kernel), (by decide +kernel),
     (by decide +kernel), (by decide +kernel), (by decide +kernel), rfl, rfl, (by decide +kernel), (by decide +kernel), (by decide +kernel),
     (by decide +kernel), (by decide +kernel), (by decide +kernel), (by decide +kernel), rfl, (by decide +kernel), (by decide +kernel), rfl, rfl⟩⟩

theorem RoutedKeyCommands_met1 :
    (∃ (s : State) (d : Dev) (tag : Nat) (k : Cmd) (r : KeyRec), ∃ x, Begins s d ∧ AtFirmware d tag 0x010A k ∧ keyAt d (hRec k.desc.key) = some r
      ∧ x = changeOf (auxOf k) ∧ changeDenied d r x = none) ∧
    (∃ (s : State) (d : Dev) (tag : Nat) (k : Cmd) (r : KeyRec), ∃ x e, Begins s d ∧ AtFirmware d tag 0x010A k ∧ keyAt d (hRec k.desc.key) = some
      r ∧ x = changeOf (auxOf k) ∧ changeDenied d r x = some e) ∧
    (∃ (s : State) (d : Dev) (tag : Nat) (k : Cmd) (r : KeyRec), ∃ g, Begins s d ∧ AtFirmware d tag 0x010C k ∧ keyAt d (hRec k.desc.key) = some r
      ∧ r.handle = k.desc.key ∧ g = grantOf (auxOf k) ∧ Nat.land g.mask (bits r.attr 15 0) = g.mask ∧ (r.grants.length < 60 ∨ ∃ x, x ∈ r.grants ∧
      x.inst = g.inst)) ∧
    (∃ (s : State) (d : Dev) (tag : Nat) (k : Cmd) (r : KeyRec), ∃ g, Begins s d ∧ AtFirmware d tag 0x010C k ∧ keyAt d (hRec k.desc.key) = some r
      ∧ r.handle = k.desc.key ∧ g = grantOf (auxOf k) ∧ Nat.land g.mask (bits r.attr 15 0) ≠ g.mask) ∧
    (∃ (s : State) (d : Dev) (tag : Nat) (k : Cmd) (r : KeyRec), ∃ g, Begins s d ∧ AtFirmware d tag 0x010C k ∧ keyAt d (hRec k.desc.key) = some r
      ∧ r.handle = k.desc.key ∧ g = grantOf (auxOf k) ∧ Nat.land g.mask (bits r.attr 15 0) = g.mask ∧ 60 ≤ r.grants.length ∧ (∀ x, x ∈ r.grants →
      x.inst ≠ g.inst)) ∧
    (∃ (s : State) (d : Dev) (tag : Nat) (k : Cmd), Begins s d ∧ AtFirmware d tag 0x010D k ∧ (hInst k.desc.key = k.inst ∨ (grantOf (auxOf
      k)).inst = k.inst)) ∧
    (∃ (s : State) (d : Dev) (tag : Nat) (k : Cmd), Begins s d ∧ AtFirmware d tag 0x010D k ∧ hInst k.desc.key ≠ k.inst ∧ (grantOf (auxOf k)).inst
      ≠ k.inst) ∧
    (∃ (s : State) (d : Dev) (tag : Nat) (k : Cmd) (mine : KeyRec → Bool), ∃ alg all take ns next, Begins s d ∧ AtFirmware d tag 0x010B k ∧ alg =
      leAt (auxOf k) 8 2 ∧ (∀ x, mine x = (if k.desc.param = 0 then decide (hInst x.handle = k.inst) else x.grants.any (fun g => g.inst =
      k.inst))) ∧ all = (keysOf d).filter (fun nk => leAt (auxOf k) 0 8 ≤ nk.1 && mine nk.2 && (alg = 0 || nk.2.alg = alg)) ∧ take = all.take
      (k.desc.dstLen / 32) ∧ (restoring d = true → k.desc.dstLen / 32 < (all.filter (fun nk => nk.1 < d.key.frontier)).length) ∧ ns = (take.map
      (·.1)).filter (fun n => (residentOf d n).isNone) ∧ next = ((all.drop (k.desc.dstLen / 32)).head?.map (·.1)).getD 0 ∧ NoT1Read d ns) :=
  ⟨⟨(st (wRouted.getD 0 svc)), _, 7, (cmd1 (wRouted.getD 0 svc)), (keyIn (wRouted.getD 0 svc)), _, (begins_st _ rfl rfl rfl),
    (by unfold AtFirmware Fresh; decide +kernel), (by decide +kernel), rfl, (by decide +kernel)⟩,
   ⟨(st (wRouted.getD 1 svc)), _, 7, (cmd1 (wRouted.getD 1 svc)), (keyIn (wRouted.getD 1 svc)), _, ((259, 256)), (begins_st _ rfl rfl rfl),
     (by unfold AtFirmware Fresh; decide +kernel), (by decide +kernel), rfl, (by decide +kernel)⟩,
   ⟨(st (wRouted.getD 2 svc)), _, 7, (cmd1 (wRouted.getD 2 svc)), (keyIn (wRouted.getD 2 svc)), _, (begins_st _ rfl rfl rfl),
     (by unfold AtFirmware Fresh; decide +kernel), (by decide +kernel), (by decide +kernel), rfl, (by decide +kernel)⟩,
   ⟨(st routedKeyCommandsState3), _, 7, (cmd1 routedKeyCommandsState3), (keyIn (wRouted.getD 2 svc)), _, (begins_st _ rfl rfl rfl),
     (by unfold AtFirmware Fresh; decide +kernel), (by decide +kernel), (by decide +kernel), rfl, (by decide +kernel)⟩,
   ⟨(st routedKeyCommandsState4), _, 7, (cmd1 routedKeyCommandsState4), (keyIn routedKeyCommandsState4), _, (begins_st _ rfl rfl rfl),
     (by unfold AtFirmware Fresh; decide +kernel), (by decide +kernel), (by decide +kernel), rfl, (by decide +kernel)⟩,
   ⟨(st (wRouted.getD 3 svc)), _, 7, (cmd1 (wRouted.getD 3 svc)), (begins_st _ rfl rfl rfl), (by unfold AtFirmware Fresh; decide +kernel),
     (by decide +kernel)⟩,
   ⟨(st (wRouted.getD 4 svc)), _, 7, (cmd1 (wRouted.getD 4 svc)), (begins_st _ rfl rfl rfl), (by unfold AtFirmware Fresh; decide +kernel),
     (by decide +kernel)⟩,
   ⟨(st (noMpe (wRouted.getD 5 svc))), _, 7, (cmd1 (wRouted.getD 5 svc)), (fun x => decide (hInst x.handle = (cmd1 (wRouted.getD 5 svc)).inst)),
     _, _, _, _, _, (begins_st _ rfl rfl rfl), (by unfold AtFirmware Fresh; decide +kernel), rfl, (fun _ => rfl), rfl, rfl, (by decide +kernel),
     rfl, rfl, (by unfold NoT1Read; decide +kernel)⟩⟩

theorem RoutedKeyCommands_met2 :
    (∃ (s : State) (d : Dev) (tag : Nat) (k : Cmd) (mine : KeyRec → Bool), ∃ alg all take ns next x e, Begins s d ∧ AtFirmware d tag 0x010B k ∧
      alg = leAt (auxOf k) 8 2 ∧ (∀ x, mine x = (if k.desc.param = 0 then decide (hInst x.handle = k.inst) else x.grants.any (fun g => g.inst =
      k.inst))) ∧ all = (keysOf d).filter (fun nk => leAt (auxOf k) 0 8 ≤ nk.1 && mine nk.2 && (alg = 0 || nk.2.alg = alg)) ∧ take = all.take
      (k.desc.dstLen / 32) ∧ (restoring d = true → k.desc.dstLen / 32 < (all.filter (fun nk => nk.1 < d.key.frontier)).length) ∧ ns = (take.map
      (·.1)).filter (fun n => (residentOf d n).isNone) ∧ next = ((all.drop (k.desc.dstLen / 32)).head?.map (·.1)).getD 0 ∧ ReadsT1 k ns d x e ∧
      readsNone e (cmdQuarter k d) (.cmd tag) = true ∧ k.tag = tag) ∧
    (∃ (s : State) (d : Dev) (tag : Nat) (k : Cmd), ∃ op, Begins s d ∧ opFirmware op = true ∧ AtFirmware d tag op k) :=
  ⟨⟨(st (wRouted.getD 5 svc)), _, 7, (cmd1 (wRouted.getD 5 svc)), (fun x => decide (hInst x.handle = (cmd1 (wRouted.getD 5 svc)).inst)), _, _, _,
    _, _, _, _, (begins_st _ rfl rfl rfl), (by unfold AtFirmware Fresh; decide +kernel), rfl, (fun _ => rfl), rfl, rfl, (by decide +kernel), rfl,
    rfl, ⟨rfl, (some_of (cmd1 svc) (by decide +kernel)), (by decide +kernel)⟩, (by decide +kernel)⟩,
   ⟨(st (wRouted.getD 6 svc)), _, 7, (cmd1 (wRouted.getD 6 svc)), 0x0F03, (begins_st _ rfl rfl rfl), (by decide +kernel),
     (by unfold AtFirmware Fresh; decide +kernel)⟩⟩

theorem CustodyCommands_met1 :
    (∃ (s : State) (d : Dev) (tag : Nat) (k : Cmd), ∃ all fit n, ∃ (out : Dev → Result), Begins s d ∧ AtFirmware d tag 0x010E k ∧ all =
      backupKeys k d ∧ fit = backupFit (k.desc.dstLen - 32) all ∧ n = 12 * fit.length ∧ (restoring d = true → ∀ done, done = all.filter (fun nk
      => nk.1 < d.key.frontier) → (backupFit (k.desc.dstLen - 32) done).length ≠ done.length) ∧ 28 ≤ k.unit.getD 28 ∧ (∀ e, out e =
      { okOut (backupHeader k.inst fit.length (key2 k).kcv ++ (fit.zipIdx.map (fun ki => leBytes 8 ki.1.2.handle ++ leBytes 8 ki.1.2.resv ++ leBytes 8 ki.1.2.nonceResv ++ attrSeal (key2 k).mat (slice (randomOf e k n) (12 * ki.2) 12) (attrHeader e ki.1.2 false) ki.1.2.mat)).flatten) with r0 := ((all.drop fit.length).head?.map (·.1)).getD 0, r1 := fit.length, effects := fit.map (fun nk => .exported nk.2.handle) })
      ∧ NoT1Read d (fit.map (·.1)) ∧ RandomReady d k n) ∧
    (∃ (s : State) (d : Dev) (tag : Nat) (k : Cmd), ∃ all fit n, ∃ (out : Dev → Result), ∃ x e, Begins s d ∧ AtFirmware d tag 0x010E k ∧ all =
      backupKeys k d ∧ fit = backupFit (k.desc.dstLen - 32) all ∧ n = 12 * fit.length ∧ (restoring d = true → ∀ done, done = all.filter (fun nk
      => nk.1 < d.key.frontier) → (backupFit (k.desc.dstLen - 32) done).length ≠ done.length) ∧ 28 ≤ k.unit.getD 28 ∧ (∀ e, out e =
      { okOut (backupHeader k.inst fit.length (key2 k).kcv ++ (fit.zipIdx.map (fun ki => leBytes 8 ki.1.2.handle ++ leBytes 8 ki.1.2.resv ++ leBytes 8 ki.1.2.nonceResv ++ attrSeal (key2 k).mat (slice (randomOf e k n) (12 * ki.2) 12) (attrHeader e ki.1.2 false) ki.1.2.mat)).flatten) with r0 := ((all.drop fit.length).head?.map (·.1)).getD 0, r1 := fit.length, effects := fit.map (fun nk => .exported nk.2.handle) })
      ∧ ReadsT1 k (fit.map (·.1)) d x e ∧ readsNone e (cmdQuarter k d) (.cmd tag) = true ∧ cmdQuarter k e = cmdQuarter k d ∧ RandomReady e k n) ∧
    (∃ (s : State) (d : Dev) (tag : Nat) (k : Cmd), ∃ n r, Begins s d ∧ AtFirmware d tag 0x010F k ∧ vaultWritable d = true ∧ (srcOf k).take 4 =
      ascii "ADKB" ∧ leAt (srcOf k) 4 1 = 1 ∧ slice (srcOf k) 12 3 = fitTo 3 (key2 k).kcv ∧ n = leAt (srcOf k) 8 4 ∧ r = restoreGo k d n ((srcOf
      k).drop 32) 0 [] ∧ k.desc.param ≠ 1) ∧
    (∃ (s : State) (d : Dev) (tag : Nat) (k : Cmd), ∃ n r, Begins s d ∧ AtFirmware d tag 0x010F k ∧ vaultWritable d = true ∧ (srcOf k).take 4 =
      ascii "ADKB" ∧ leAt (srcOf k) 4 1 = 1 ∧ slice (srcOf k) 12 3 = fitTo 3 (key2 k).kcv ∧ n = leAt (srcOf k) 8 4 ∧ r = restoreGo k d n ((srcOf
      k).drop 32) 0 [] ∧ k.desc.param = 1 ∧ 16 * n ≤ k.desc.dstLen) ∧
    (∃ (s : State) (d : Dev) (tag : Nat) (k : Cmd), ∃ n r, Begins s d ∧ AtFirmware d tag 0x010F k ∧ vaultWritable d = true ∧ (srcOf k).take 4 =
      ascii "ADKB" ∧ leAt (srcOf k) 4 1 = 1 ∧ slice (srcOf k) 12 3 = fitTo 3 (key2 k).kcv ∧ n = leAt (srcOf k) 8 4 ∧ r = restoreGo k d n ((srcOf
      k).drop 32) 0 [] ∧ k.desc.param = 1 ∧ k.desc.dstLen < 16 * n) ∧
    (∃ (s : State) (d : Dev) (tag : Nat) (k : Cmd), Begins s d ∧ AtFirmware d tag 0x010F k ∧ vaultWritable d = false) ∧
    (∃ (s : State) (d : Dev) (tag : Nat) (k : Cmd), ∃ t n len mat r, Begins s d ∧ AtFirmware d tag 0x0110 k ∧ d.sys.mode = .ceremony ∧ t = tmplOf
      (auxOf k) ∧ n = k.desc.param ∧ len = symLen t.alg 0x0110 ∧ mat = clearJoin n len (srcOf k) ∧ (∀ i, i < n → kcvOf t.alg false (slice (srcOf
      k) (len * i) len) = slice (auxOf k) (64 + 8 * i + 5) 3) ∧ kcvOf t.alg false mat = slice (auxOf k) (64 + 8 * n) 3 ∧ r = recOf t t.alg t.attr
      false mat 0 false) ∧
    (∃ (s : State) (d : Dev) (tag : Nat) (k : Cmd), ∃ t n len i, Begins s d ∧ AtFirmware d tag 0x0110 k ∧ d.sys.mode = .ceremony ∧ t = tmplOf
      (auxOf k) ∧ n = k.desc.param ∧ len = symLen t.alg 0x0110 ∧ i < n ∧ (∀ j, j < i → kcvOf t.alg false (slice (srcOf k) (len * j) len) = slice
      (auxOf k) (64 + 8 * j + 5) 3) ∧ kcvOf t.alg false (slice (srcOf k) (len * i) len) ≠ slice (auxOf k) (64 + 8 * i + 5) 3) :=
  ⟨⟨(st (noMpe (wCustody.getD 0 svc))), _, 7, (cmd1 (wCustody.getD 0 svc)), _, _, _, _, (begins_st _ rfl rfl rfl),
    (by unfold AtFirmware Fresh; decide +kernel), rfl, rfl, rfl, (fun h => absurd h (by decide +kernel)), (by decide +kernel), (fun _ => rfl),
    (by unfold NoT1Read; decide +kernel), (by unfold RandomReady RandomAt NoReads; decide +kernel)⟩,
   ⟨(st (wCustody.getD 0 svc)), _, 7, (cmd1 (wCustody.getD 0 svc)), _, _, _, _, _, _, (begins_st _ rfl rfl rfl),
     (by unfold AtFirmware Fresh; decide +kernel), rfl, rfl, rfl, (fun h => absurd h (by decide +kernel)), (by decide +kernel), (fun _ => rfl),
     ⟨rfl, (some_of (cmd1 svc) (by decide +kernel)), (by decide +kernel)⟩, (by decide +kernel), (by decide +kernel),
     (by unfold RandomReady RandomAt NoReads; decide +kernel)⟩,
   ⟨(st (wCustody.getD 1 svc)), _, 7, (cmd1 (wCustody.getD 1 svc)), _, _, (begins_st _ rfl rfl rfl),
     (by unfold AtFirmware Fresh; decide +kernel), (by decide +kernel), (by decide +kernel), (by decide +kernel), (by decide +kernel), rfl, rfl,
     (by decide +kernel)⟩,
   ⟨(st custodyCommandsState2), _, 7, (cmd1 custodyCommandsState2), _, _, (begins_st _ rfl rfl rfl),
     (by unfold AtFirmware Fresh; decide +kernel), (by decide +kernel), (by decide +kernel), (by decide +kernel), (by decide +kernel), rfl, rfl,
     (by decide +kernel)⟩,
   ⟨(st custodyCommandsState3), _, 7, (cmd1 custodyCommandsState3), _, _, (begins_st _ rfl rfl rfl),
     (by unfold AtFirmware Fresh; decide +kernel), (by decide +kernel), (by decide +kernel), (by decide +kernel), (by decide +kernel), rfl, rfl,
     (by decide +kernel)⟩,
   ⟨(st (wCustody.getD 2 svc)), _, 7, (cmd1 (wCustody.getD 2 svc)), (begins_st _ rfl rfl rfl), (by unfold AtFirmware Fresh; decide +kernel),
     (by decide +kernel)⟩,
   ⟨(st (wCustody.getD 3 svc)), _, 7, (cmd1 (wCustody.getD 3 svc)), _, _, _, _, _, (begins_st _ rfl rfl rfl),
     (by unfold AtFirmware Fresh; decide +kernel), (by decide +kernel), rfl, rfl, rfl, rfl, (by decide +kernel), (by decide +kernel), rfl⟩,
   ⟨(st custodyCommandsState6), _, 7, (cmd1 custodyCommandsState6), _, _, _, 1, (begins_st _ rfl rfl rfl),
     (by unfold AtFirmware Fresh; decide +kernel), (by decide +kernel), rfl, rfl, rfl, (by decide +kernel)⟩⟩

theorem CustodyCommands_met2 :
    (∃ (s : State) (d : Dev) (tag : Nat) (k : Cmd), Begins s d ∧ AtFirmware d tag 0x0112 k ∧ classUsable d (bits k.desc.param 7 0) = false) ∧
    (∃ (s : State) (d : Dev) (tag : Nat) (k : Cmd), ∃ cls who q bs till, Begins s d ∧ AtFirmware d tag 0x0112 k ∧ cls = bits k.desc.param 7 0 ∧
      classUsable d cls = true ∧ who = chalWho k.inst (leAt (auxOf k) 0 2) ∧ ((chalsOut d).filter (fun c => c.who = who)).length < 16 ∧ (chalsOut
      d).length < 4096 ∧ q = homelessQuarter d ∧ RandomAt d q 32 ∧ till = stamp d + ((qclassOf d cls).map (·.lifetime)).getD 0 * 32768 ∧ bs =
      chalBytes cls who d.ofc.nextChal ((drbgOf d q).buf.take 32) d.fuse.serial (leAt (auxOf k) 0 2) (leAt (auxOf k) 8 8) (slice (auxOf k) 0x10
      48) till d.nv.bootCnt) :=
  ⟨⟨(st custodyCommandsState7), _, 7, (cmd1 custodyCommandsState7), (begins_st _ rfl rfl rfl), (by unfold AtFirmware Fresh; decide +kernel),
    (by decide +kernel)⟩,
   ⟨(st (wCustody.getD 4 svc)), _, 7, (cmd1 (wCustody.getD 4 svc)), _, _, _, _, _, (begins_st _ rfl rfl rfl),
     (by unfold AtFirmware Fresh; decide +kernel), rfl, (by decide +kernel), rfl, (by decide +kernel), (by decide +kernel), rfl,
     (by unfold RandomAt NoReads; decide +kernel), rfl, rfl⟩⟩

theorem DukptAndCardValueCommands_met :
    (∃ (s : State) (d : Dev) (tag : Nat) (chk : Nat) (k : Cmd) (b : KeyRec) (ksn : Bytes) (t : Tmpl), ∃ mat r, Begins s d ∧ chk < 2 ∧ MaskReady d
      k 0 ∧ b = key1 k ∧ ksn = (auxOf k).take 16 ∧ t = tmplOf ((auxOf k).drop 16) ∧ AtUnit d tag 0x0601 k ∧ bits k.desc.param 3 0 = 8 ∧ mat = (if
      b.alg = 0x0018 then triple (tdukptInitial b.mat ksn) else dukptInitial b.alg b.mat ksn) ∧ r = recOf t b.alg (2 ^ atDUKPT + 2 ^ atEXPORTABLE
      + 2 ^ atTRUSTED_ONLY + Nat.land t.attr (2 ^ atUSAGE_LIMITED) + Nat.land b.attr attrLocal) false mat b.handle false) ∧
    (∃ (s : State) (d : Dev) (tag : Nat) (chk : Nat) (k : Cmd) (b : KeyRec) (ksn : Bytes) (t : Tmpl), ∃ c use attr r, Begins s d ∧ chk < 2 ∧
      MaskReady d k 0 ∧ b = key1 k ∧ ksn = (auxOf k).take 16 ∧ t = tmplOf ((auxOf k).drop 16) ∧ AtUnit d tag 0x0601 k ∧ c ∈ [(1, 2 ^ atPIN), (2,
      2 ^ atSIGN + 2 ^ 37), (3, 2 ^ atVERIFY + 2 ^ 37), (4, 2 ^ atSIGN + 2 ^ atVERIFY + 2 ^ 37), (5, 2 ^ atENCRYPT), (6, 2 ^ atDECRYPT), (7, 2 ^
      atENCRYPT + 2 ^ atDECRYPT)] ∧ bits k.desc.param 3 0 = c.1 ∧ use = c.2 ∧ (b.alg ≠ 0x0018 → algStrength t.alg 0 ≤ algStrength b.alg 0) ∧ attr
      = Nat.xor (use + Nat.land b.attr attrLocal) (withBits (Nat.land t.attr (2 ^ atUSAGE_LIMITED + (if 5 ≤ c.1 then 0x7F * 2 ^ 32 else 0) + 0xF
      * 2 ^ 40)) use 0) ∧ attrFault t.alg false t.cls t.qc (attr - Nat.land attr attrLocal) t.limit t.life = none ∧ r = recOf t t.alg attr false
      (dukptKey b ksn c.1 t.alg) b.handle false) ∧
    (∃ (s : State) (d : Dev) (tag : Nat) (chk : Nat) (k : Cmd) (b : KeyRec) (ksn : Bytes) (t : Tmpl), Begins s d ∧ chk < 2 ∧ MaskReady d k 0 ∧ b
      = key1 k ∧ ksn = (auxOf k).take 16 ∧ t = tmplOf ((auxOf k).drop 16) ∧ AtUnit d tag 0x0601 k ∧ bits k.desc.param 3 0 ≠ 8 ∧ b.alg ≠ 0x0018 ∧
      algStrength b.alg 0 < algStrength t.alg 0) ∧
    (∃ (s : State) (d : Dev) (tag : Nat) (chk : Nat) (k : Cmd) (b : KeyRec) (ksn : Bytes) (t : Tmpl), Begins s d ∧ chk < 2 ∧ MaskReady d k 0 ∧ b
      = key1 k ∧ ksn = (auxOf k).take 16 ∧ t = tmplOf ((auxOf k).drop 16) ∧ AtUnit d tag 0x0604 k) ∧
    (∃ (s : State) (d : Dev) (tag : Nat) (chk : Nat) (k : Cmd) (b : KeyRec) (ksn : Bytes) (t : Tmpl), Begins s d ∧ chk < 2 ∧ MaskReady d k 0 ∧ b
      = key1 k ∧ ksn = (auxOf k).take 16 ∧ t = tmplOf ((auxOf k).drop 16) ∧ AtUnit d tag 0x0605 k) :=
  ⟨⟨(st (wDukpt.getD 0 svc)), _, 7, 0, (cmd1 (wDukpt.getD 0 svc)), _, _, _, _, _, (begins_st _ rfl rfl rfl), (by decide +kernel),
    (by unfold MaskReady RandomReady RandomAt NoReads; decide +kernel), rfl, rfl, rfl, (by unfold AtUnit Fresh; decide +kernel),
    (by decide +kernel), rfl, rfl⟩,
   ⟨(st (wDukpt.getD 3 svc)), _, 7, 0, (cmd1 (wDukpt.getD 3 svc)), _, _, _, ((1, 2 ^ atPIN)), _, _, _, (begins_st _ rfl rfl rfl),
     (by decide +kernel), (by unfold MaskReady RandomReady RandomAt NoReads; decide +kernel), rfl, rfl, rfl,
     (by unfold AtUnit Fresh; decide +kernel), (by decide +kernel), (by decide +kernel), rfl, (by decide +kernel), rfl, (by decide +kernel), rfl⟩,
   ⟨(st dukptAndCardValueCommandsState2), _, 7, 0, (cmd1 dukptAndCardValueCommandsState2), _, _, _, (begins_st _ rfl rfl rfl),
     (by decide +kernel), (by unfold MaskReady RandomReady RandomAt NoReads; decide +kernel), rfl, rfl, rfl,
     (by unfold AtUnit Fresh; decide +kernel), (by decide +kernel)⟩,
   ⟨(st (wDukpt.getD 4 svc)), _, 7, 0, (cmd1 (wDukpt.getD 4 svc)), _, _, _, (begins_st _ rfl rfl rfl), (by decide +kernel),
     (by unfold MaskReady RandomReady RandomAt NoReads; decide +kernel), rfl, rfl, rfl, (by unfold AtUnit Fresh; decide +kernel)⟩,
   ⟨(st (wDukpt.getD 5 svc)), _, 7, 0, (cmd1 (wDukpt.getD 5 svc)), _, _, _, (begins_st _ rfl rfl rfl), (by decide +kernel),
     (by unfold MaskReady RandomReady RandomAt NoReads; decide +kernel), rfl, rfl, rfl, (by unfold AtUnit Fresh; decide +kernel)⟩⟩

theorem PinAndDataCommands_met1 :
    (∃ (s : State) (d : Dev) (tag : Nat) (chk : Nat) (k : Cmd) (a : Bytes) (fi : Nat) (fo : Nat), ∃ q n pin, Begins s d ∧ chk < 2 ∧ a = auxOf k ∧
      fi = leAt a 0 1 ∧ fo = leAt a 1 1 ∧ AtUnit d tag 0x0602 k ∧ pinSide fi (key1 k) (leAt a 3 1 ≠ 0) = none ∧ pinSide fo (key2 k) false = none
      ∧ (fo = 1 → fi = 1) ∧ q = pinOf fi (pinField fi (pinInKey k) (panDigits a) (srcOf k)) ∧ n = pinRandom fo ∧ MaskReady d k n ∧ q = some pin) ∧
    (∃ (s : State) (d : Dev) (tag : Nat) (chk : Nat) (k : Cmd) (a : Bytes) (fi : Nat) (fo : Nat), ∃ q n, Begins s d ∧ chk < 2 ∧ a = auxOf k ∧ fi
      = leAt a 0 1 ∧ fo = leAt a 1 1 ∧ AtUnit d tag 0x0602 k ∧ pinSide fi (key1 k) (leAt a 3 1 ≠ 0) = none ∧ pinSide fo (key2 k) false = none ∧
      (fo = 1 → fi = 1) ∧ q = pinOf fi (pinField fi (pinInKey k) (panDigits a) (srcOf k)) ∧ n = pinRandom fo ∧ MaskReady d k n ∧ q = none) ∧
    (∃ (s : State) (d : Dev) (tag : Nat) (chk : Nat) (k : Cmd) (a : Bytes) (fi : Nat) (fo : Nat), Begins s d ∧ chk < 2 ∧ a = auxOf k ∧ fi = leAt
      a 0 1 ∧ fo = leAt a 1 1 ∧ AtUnit d tag 0x0602 k ∧ MaskReady d k 0 ∧ pinSide fi (key1 k) (leAt a 3 1 ≠ 0) = none ∧ pinSide fo (key2 k) false
      = none ∧ fo = 1 ∧ fi ≠ 1) ∧
    (∃ (s : State) (d : Dev) (tag : Nat) (chk : Nat) (k : Cmd) (a : Bytes) (fi : Nat) (fo : Nat), ∃ c e, Begins s d ∧ chk < 2 ∧ a = auxOf k ∧ fi
      = leAt a 0 1 ∧ fo = leAt a 1 1 ∧ c ∈ [(0x0602, Instr.pinTranslate tag chk), (0x0603, Instr.pinVerify tag chk)] ∧ AtUnit d tag c.1 k ∧
      MaskReady d k 0 ∧ pinSide fi (key1 k) (leAt a 3 1 ≠ 0) = some e) ∧
    (∃ (s : State) (d : Dev) (tag : Nat) (chk : Nat) (k : Cmd) (a : Bytes) (fi : Nat) (fo : Nat), ∃ c e, Begins s d ∧ chk < 2 ∧ a = auxOf k ∧ fi
      = leAt a 0 1 ∧ fo = leAt a 1 1 ∧ c ∈ [(0x0602, Instr.pinTranslate tag chk), (0x0603, Instr.pinVerify tag chk)] ∧ AtUnit d tag c.1 k ∧
      MaskReady d k 0 ∧ pinSide fi (key1 k) (leAt a 3 1 ≠ 0) = none ∧ pinSide fo (key2 k) false = some e ∧ (c.1 = 0x0602 ∨ k.desc.param = 1)) ∧
    (∃ (s : State) (d : Dev) (tag : Nat) (chk : Nat) (k : Cmd) (a : Bytes) (fi : Nat) (fo : Nat), ∃ pin ref, Begins s d ∧ chk < 2 ∧ a = auxOf k ∧
      fi = leAt a 0 1 ∧ fo = leAt a 1 1 ∧ AtUnit d tag 0x0603 k ∧ MaskReady d k 0 ∧ k.desc.param = 1 ∧ pinSide fi (key1 k) (leAt a 3 1 ≠ 0) =
      none ∧ pinSide fo (key2 k) false = none ∧ pinOf fi (pinField fi (pinInKey k) (panDigits a) (srcOf k)) = some pin ∧ pinOf fo (pinField fo
      (key2 k).mat (panDigits a) (slice a 0x20 (if fo = 4 then 16 else 8))) = some ref) ∧
    (∃ (s : State) (d : Dev) (tag : Nat) (chk : Nat) (k : Cmd) (a : Bytes) (fi : Nat) (fo : Nat), ∃ pin, Begins s d ∧ chk < 2 ∧ a = auxOf k ∧ fi
      = leAt a 0 1 ∧ fo = leAt a 1 1 ∧ AtUnit d tag 0x0603 k ∧ MaskReady d k 0 ∧ k.desc.param ≠ 1 ∧ pinSide fi (key1 k) (leAt a 3 1 ≠ 0) = none ∧
      (algAes (key2 k).alg = true ∨ (key2 k).alg = 0x0018) ∧ pinOf fi (pinField fi (pinInKey k) (panDigits a) (srcOf k)) = some pin) ∧
    (∃ (s : State) (d : Dev) (tag : Nat) (chk : Nat) (k : Cmd) (a : Bytes) (fi : Nat) (fo : Nat), ∃ p inKey clear, Begins s d ∧ chk < 2 ∧ a =
      auxOf k ∧ fi = leAt a 0 1 ∧ fo = leAt a 1 1 ∧ AtUnit d tag 0x0606 k ∧ MaskReady d k 0 ∧ (algAes (key1 k).alg = true ∨ algAes (key2 k).alg =
      true → (srcOf k).length % 16 = 0) ∧ p = k.desc.param ∧ inKey = (if bits p 5 4 = 0 then (key1 k).mat else dukptKey (key1 k) (slice a 0x20
      12) 6 (key1 k).alg) ∧ clear = dtRun (key1 k).alg inKey (bits p 1 0 = 1) true (a.take 16) (srcOf k)) :=
  ⟨⟨(st (wPin.getD 0 svc)), _, 7, 0, (cmd1 (wPin.getD 0 svc)), _, _, _, _, _, ([1, 2, 3, 4]), (begins_st _ rfl rfl rfl), (by decide +kernel),
    rfl, rfl, rfl, (by unfold AtUnit Fresh; decide +kernel), (by decide +kernel), (by decide +kernel), (by decide +kernel), rfl, rfl,
    (by unfold MaskReady RandomReady RandomAt NoReads; decide +kernel), (by decide +kernel)⟩,
   ⟨(st (wPin.getD 1 svc)), _, 7, 0, (cmd1 (wPin.getD 1 svc)), _, _, _, _, _, (begins_st _ rfl rfl rfl), (by decide +kernel), rfl, rfl, rfl,
     (by unfold AtUnit Fresh; decide +kernel), (by decide +kernel), (by decide +kernel), (by decide +kernel), rfl, rfl,
     (by unfold MaskReady RandomReady RandomAt NoReads; decide +kernel), (by decide +kernel)⟩,
   ⟨(st pinAndDataCommandsState2), _, 7, 0, (cmd1 pinAndDataCommandsState2), _, _, _, (begins_st _ rfl rfl rfl), (by decide +kernel), rfl, rfl,
     rfl, (by unfold AtUnit Fresh; decide +kernel), (by unfold MaskReady RandomReady RandomAt NoReads; decide +kernel), (by decide +kernel)⟩,
   ⟨(st (wPin.getD 2 svc)), _, 7, 0, (cmd1 (wPin.getD 2 svc)), _, _, _, (0x0602, Instr.pinTranslate 7 0), ((513, 65)), (begins_st _ rfl rfl rfl),
     (by decide +kernel), rfl, rfl, rfl, (by decide +kernel), (by unfold AtUnit Fresh; decide +kernel),
     (by unfold MaskReady RandomReady RandomAt NoReads; decide +kernel), (by decide +kernel)⟩,
   ⟨(st pinAndDataCommandsState4), _, 7, 0, (cmd1 pinAndDataCommandsState4), _, _, _, (0x0602, Instr.pinTranslate 7 0), ((pinSide 0 aes
     false).getD (0, 0)), (begins_st _ rfl rfl rfl), (by decide +kernel), rfl, rfl, rfl, (by decide +kernel),
     (by unfold AtUnit Fresh; decide +kernel), (by unfold MaskReady RandomReady RandomAt NoReads; decide +kernel), (by decide +kernel)⟩,
   ⟨(st (wPin.getD 3 svc)), _, 7, 0, (cmd1 (wPin.getD 3 svc)), _, _, _, ([1, 2, 3, 4]), ([1, 2, 3, 4]), (begins_st _ rfl rfl rfl),
     (by decide +kernel), rfl, rfl, rfl, (by unfold AtUnit Fresh; decide +kernel),
     (by unfold MaskReady RandomReady RandomAt NoReads; decide +kernel), (by decide +kernel)⟩,
   ⟨(st (wPin.getD 4 svc)), _, 7, 0, (cmd1 (wPin.getD 4 svc)), _, _, _, ([1, 2, 3, 4]), (begins_st _ rfl rfl rfl), (by decide +kernel), rfl, rfl,
     rfl, (by unfold AtUnit Fresh; decide +kernel), (by unfold MaskReady RandomReady RandomAt NoReads; decide +kernel), (by decide +kernel)⟩,
   ⟨(st (wPin.getD 5 svc)), _, 7, 0, (cmd1 (wPin.getD 5 svc)), _, _, _, _, _, _, (begins_st _ rfl rfl rfl), (by decide +kernel), rfl, rfl, rfl,
     (by unfold AtUnit Fresh; decide +kernel), (by unfold MaskReady RandomReady RandomAt NoReads; decide +kernel), (by decide +kernel), rfl, rfl,
     rfl⟩⟩

theorem PinAndDataCommands_met2 :
    (∃ (s : State) (d : Dev) (tag : Nat) (chk : Nat) (k : Cmd) (a : Bytes) (fi : Nat) (fo : Nat), Begins s d ∧ chk < 2 ∧ a = auxOf k ∧ fi = leAt
      a 0 1 ∧ fo = leAt a 1 1 ∧ AtUnit d tag 0x0606 k ∧ MaskReady d k 0 ∧ (algAes (key1 k).alg = true ∨ algAes (key2 k).alg = true) ∧ (srcOf
      k).length % 16 ≠ 0) ∧
    (∃ (s : State) (d : Dev) (tag : Nat) (chk : Nat) (k : Cmd) (a : Bytes) (m : Bytes), Begins s d ∧ chk < 2 ∧ MaskReady d k 0 ∧ a = auxOf k ∧ m
      = srcOf k ∧ (∀ i, i < m.length → symVal (m.getD i 0) < bits k.desc.param 5 0) ∧ AtUnit d tag 0x0701 k) ∧
    (∃ (s : State) (d : Dev) (tag : Nat) (chk : Nat) (k : Cmd) (a : Bytes) (m : Bytes), Begins s d ∧ chk < 2 ∧ MaskReady d k 0 ∧ a = auxOf k ∧ m
      = srcOf k ∧ (∀ i, i < m.length → symVal (m.getD i 0) < bits k.desc.param 5 0) ∧ AtUnit d tag 0x0702 k) ∧
    (∃ (s : State) (d : Dev) (tag : Nat) (chk : Nat) (k : Cmd) (a : Bytes) (m : Bytes), Begins s d ∧ chk < 2 ∧ MaskReady d k 0 ∧ a = auxOf k ∧ m
      = srcOf k ∧ (∀ i, i < m.length → symVal (m.getD i 0) < bits k.desc.param 5 0) ∧ AtUnit d tag 0x0703 k) ∧
    (∃ (s : State) (d : Dev) (tag : Nat) (chk : Nat) (k : Cmd) (a : Bytes) (m : Bytes), ∃ i c, Begins s d ∧ chk < 2 ∧ MaskReady d k 0 ∧ a = auxOf
      k ∧ m = srcOf k ∧ i < m.length ∧ bits k.desc.param 5 0 ≤ symVal (m.getD i 0) ∧ (∀ j, j < i → symVal (m.getD j 0) < bits k.desc.param 5 0) ∧
      c ∈ [(0x0701, Instr.ff1Encrypt tag chk), (0x0702, Instr.ff1Decrypt tag chk), (0x0703, Instr.tokenTranslate tag chk)] ∧ AtUnit d tag c.1 k) :=
  ⟨⟨(st pinAndDataCommandsState8), _, 7, 0, (cmd1 pinAndDataCommandsState8), _, _, _, (begins_st _ rfl rfl rfl), (by decide +kernel), rfl, rfl,
    rfl, (by unfold AtUnit Fresh; decide +kernel), (by unfold MaskReady RandomReady RandomAt NoReads; decide +kernel), (by decide +kernel)⟩,
   ⟨(st (wFf1.getD 0 svc)), _, 7, 0, (cmd1 (wFf1.getD 0 svc)), _, _, (begins_st _ rfl rfl rfl), (by decide +kernel),
     (by unfold MaskReady RandomReady RandomAt NoReads; decide +kernel), rfl, rfl, (by decide +kernel), (by unfold AtUnit Fresh; decide +kernel)⟩,
   ⟨(st (wFf1.getD 1 svc)), _, 7, 0, (cmd1 (wFf1.getD 1 svc)), _, _, (begins_st _ rfl rfl rfl), (by decide +kernel),
     (by unfold MaskReady RandomReady RandomAt NoReads; decide +kernel), rfl, rfl, (by decide +kernel), (by unfold AtUnit Fresh; decide +kernel)⟩,
   ⟨(st (wFf1.getD 2 svc)), _, 7, 0, (cmd1 (wFf1.getD 2 svc)), _, _, (begins_st _ rfl rfl rfl), (by decide +kernel),
     (by unfold MaskReady RandomReady RandomAt NoReads; decide +kernel), rfl, rfl, (by decide +kernel), (by unfold AtUnit Fresh; decide +kernel)⟩,
   ⟨(st (wFf1.getD 3 svc)), _, 7, 0, (cmd1 (wFf1.getD 3 svc)), _, _, 2, ((1793, Instr.ff1Encrypt 7)), (begins_st _ rfl rfl rfl),
     (by decide +kernel), (by unfold MaskReady RandomReady RandomAt NoReads; decide +kernel), rfl, rfl, (by decide +kernel), (by decide +kernel),
     (by decide +kernel), (by decide +kernel), (by unfold AtUnit Fresh; decide +kernel)⟩⟩

theorem AccessCodeCommands_met1 :
    (∃ (s : State) (d : Dev) (tag : Nat) (chk : Nat) (k : Cmd) (a : Bytes) (x : KeyRec), ∃ v, Begins s d ∧ chk < 2 ∧ a = auxOf k ∧ keyAt d (hRec
      k.desc.key) = some x ∧ k.counted ≠ [] ∧ AtUnit d tag 0x0801 k ∧ CounterReady d k v) ∧
    (∃ (s : State) (d : Dev) (tag : Nat) (chk : Nat) (k : Cmd) (a : Bytes) (x : KeyRec), ∃ r i, Begins s d ∧ chk < 2 ∧ a = auxOf k ∧ keyAt d
      (hRec k.desc.key) = some x ∧ k.counted ≠ [] ∧ AtUnit d tag 0x0802 k ∧ residentOf d (hRec k.desc.key) = some r ∧ i ≤ leAt a 4 1 ∧ codeAt k
      (r.ptr + i) = leAt a 0 4 ∧ (∀ j, j < i → codeAt k (r.ptr + j) ≠ leAt a 0 4) ∧ r.ptr + i + 1 + 2 ^ 22 < x.nonceResv) ∧
    (∃ (s : State) (d : Dev) (tag : Nat) (chk : Nat) (k : Cmd) (a : Bytes) (x : KeyRec), ∃ r, Begins s d ∧ chk < 2 ∧ a = auxOf k ∧ keyAt d (hRec
      k.desc.key) = some x ∧ k.counted ≠ [] ∧ AtUnit d tag 0x0802 k ∧ residentOf d (hRec k.desc.key) = some r ∧ (∀ i, i ≤ leAt a 4 1 → codeAt k
      (r.ptr + i) ≠ leAt a 0 4)) ∧
    (∃ (s : State) (d : Dev) (tag : Nat) (chk : Nat) (k : Cmd) (a : Bytes) (x : KeyRec), Begins s d ∧ chk < 2 ∧ a = auxOf k ∧ keyAt d (hRec
      k.desc.key) = some x ∧ k.counted ≠ [] ∧ AtUnit d tag 0x0803 k) ∧
    (∃ (s : State) (d : Dev) (tag : Nat) (chk : Nat) (k : Cmd) (a : Bytes) (x : KeyRec), ∃ v, Begins s d ∧ chk < 2 ∧ a = auxOf k ∧ keyAt d (hRec
      k.desc.key) = some x ∧ k.counted ≠ [] ∧ AtUnit d tag 0x0804 k ∧ totpStep a ≤ v + leAt a 16 1 ∧ v ≤ totpStep a + leAt a 17 1 ∧ x.nonce ≤ v ∧
      codeAt k v = leAt a 20 4 ∧ (∀ u, u < v → totpStep a ≤ u + leAt a 16 1 → x.nonce ≤ u → codeAt k u ≠ leAt a 20 4) ∧ v + 1 + 2 ^ 22 <
      x.nonceResv) ∧
    (∃ (s : State) (d : Dev) (tag : Nat) (chk : Nat) (k : Cmd) (a : Bytes) (x : KeyRec), Begins s d ∧ chk < 2 ∧ a = auxOf k ∧ keyAt d (hRec
      k.desc.key) = some x ∧ k.counted ≠ [] ∧ AtUnit d tag 0x0804 k ∧ (∀ u, totpStep a ≤ u + leAt a 16 1 → u ≤ totpStep a + leAt a 17 1 → x.nonce
      ≤ u → codeAt k u ≠ leAt a 20 4)) ∧
    (∃ (s : State) (d : Dev) (tag : Nat) (chk : Nat) (k : Cmd) (a : Bytes) (x : KeyRec), ∃ v, Begins s d ∧ chk < 2 ∧ a = auxOf k ∧ keyAt d (hRec
      k.desc.key) = some x ∧ k.counted ≠ [] ∧ AtUnit d tag 0x0806 k ∧ CounterReady d k v) ∧
    (∃ (s : State) (d : Dev) (tag : Nat) (chk : Nat) (k : Cmd) (a : Bytes) (x : KeyRec), Begins s d ∧ chk < 2 ∧ a = auxOf k ∧ keyAt d (hRec
      k.desc.key) = some x ∧ k.counted ≠ [] ∧ AtUnit d tag 0x0807 k) :=
  ⟨⟨(st (wCode.getD 0 svc)), _, 7, 0, (cmd1 (wCode.getD 0 svc)), _, (keyIn (wCode.getD 0 svc)), _, (begins_st _ rfl rfl rfl),
    (by decide +kernel), rfl, (by decide +kernel), (by decide +kernel), (by unfold AtUnit Fresh; decide +kernel), (counter_st _ _ (keyIn
    (wCode.getD 0 svc)) (resident1 (keyIn (wCode.getD 0 svc))) (by decide +kernel) (by decide +kernel) (by decide +kernel) (by decide +kernel)
    (by decide +kernel))⟩,
   ⟨(st (wCode.getD 1 svc)), _, 7, 0, (cmd1 (wCode.getD 1 svc)), _, (keyIn (wCode.getD 1 svc)), (res codeKey), 2, (begins_st _ rfl rfl rfl),
     (by decide +kernel), rfl, (by decide +kernel), (by decide +kernel), (by unfold AtUnit Fresh; decide +kernel), (by decide +kernel)⟩,
   ⟨(st (wCode.getD 2 svc)), _, 7, 0, (cmd1 (wCode.getD 2 svc)), _, (keyIn (wCode.getD 2 svc)), (res codeKey), (begins_st _ rfl rfl rfl),
     (by decide +kernel), rfl, (by decide +kernel), (by decide +kernel), (by unfold AtUnit Fresh; decide +kernel), (by decide +kernel)⟩,
   ⟨(st (wCode.getD 3 svc)), _, 7, 0, (cmd1 (wCode.getD 3 svc)), _, (keyIn (wCode.getD 3 svc)), (begins_st _ rfl rfl rfl), (by decide +kernel),
     rfl, (by decide +kernel), (by decide +kernel), (by unfold AtUnit Fresh; decide +kernel)⟩,
   ⟨(st (wCode.getD 4 svc)), _, 7, 0, (cmd1 (wCode.getD 4 svc)), _, (keyIn (wCode.getD 4 svc)), 7, (begins_st _ rfl rfl rfl),
     (by decide +kernel), rfl, (by decide +kernel), (by decide +kernel), (by unfold AtUnit Fresh; decide +kernel), (by decide +kernel)⟩,
   ⟨(st (wCode.getD 5 svc)), _, 7, 0, (cmd1 (wCode.getD 5 svc)), _, (keyIn (wCode.getD 5 svc)), (begins_st _ rfl rfl rfl), (by decide +kernel),
     rfl, (by decide +kernel), (by decide +kernel), (by unfold AtUnit Fresh; decide +kernel), (fun u h1 h2 h3 => (by decide +kernel : ∀ u, u ≤ 9
     → totpStep (auxOf (cmd1 (wCode.getD 5 svc))) ≤ u + leAt (auxOf (cmd1 (wCode.getD 5 svc))) 16 1 → (keyIn (wCode.getD 5 svc)).nonce ≤ u →
     codeAt (cmd1 (wCode.getD 5 svc)) u ≠ leAt (auxOf (cmd1 (wCode.getD 5 svc))) 20 4) u (Nat.le_trans h2 (by decide +kernel)) h1 h3)⟩,
   ⟨(st (wCode.getD 6 svc)), _, 7, 0, (cmd1 (wCode.getD 6 svc)), _, (keyIn (wCode.getD 6 svc)), _, (begins_st _ rfl rfl rfl),
     (by decide +kernel), rfl, (by decide +kernel), (by decide +kernel), (by unfold AtUnit Fresh; decide +kernel), (counter_st _ _ (keyIn
     (wCode.getD 6 svc)) (resident1 (keyIn (wCode.getD 6 svc))) (by decide +kernel) (by decide +kernel) (by decide +kernel) (by decide +kernel)
     (by decide +kernel))⟩,
   ⟨(st (wCode.getD 7 svc)), _, 7, 0, (cmd1 (wCode.getD 7 svc)), _, (keyIn (wCode.getD 7 svc)), (begins_st _ rfl rfl rfl), (by decide +kernel),
     rfl, (by decide +kernel), (by decide +kernel), (by unfold AtUnit Fresh; decide +kernel)⟩⟩

theorem AccessCodeCommands_met2 :
    (∃ (s : State) (d : Dev) (tag : Nat) (chk : Nat) (k : Cmd) (a : Bytes) (x : KeyRec), ∃ v body out, Begins s d ∧ chk < 2 ∧ a = auxOf k ∧ keyAt
      d (hRec k.desc.key) = some x ∧ k.counted ≠ [] ∧ AtUnit d tag 0x0805 k ∧ (key1 k).alg = 0x0020 ∧ lockerFault (srcOf k) = none ∧ 64 ≤
      k.desc.dstLen ∧ CounterReady d k v ∧ body = (srcOf k).take 0x10 ++ beBytes 8 v ++ slice (srcOf k) 0x18 16 ++ leBytes 8 (kcvNat (key1 k)) ∧
      out = body ++ (hmac256 (key1 k).mat body).take 16) ∧
    (∃ (s : State) (d : Dev) (tag : Nat) (chk : Nat) (k : Cmd) (a : Bytes) (x : KeyRec), ∃ v body out, Begins s d ∧ chk < 2 ∧ a = auxOf k ∧ keyAt
      d (hRec k.desc.key) = some x ∧ k.counted ≠ [] ∧ AtUnit d tag 0x0805 k ∧ (key1 k).alg = 0x0110 ∧ lockerFault (srcOf k) = none ∧ 112 ≤
      k.desc.dstLen ∧ EngineReady d k chk 48 ∧ CounterReady d k v ∧ body = (srcOf k).take 0x10 ++ beBytes 8 v ++ slice (srcOf k) 0x18 16 ++
      leBytes 8 (kcvNat (key1 k)) ∧ out = body ++ edSign 0 [] ((key1 k).mat.take 32) body) ∧
    (∃ (s : State) (d : Dev) (tag : Nat) (chk : Nat) (k : Cmd) (a : Bytes) (x : KeyRec), ∃ v body g out, Begins s d ∧ chk < 2 ∧ a = auxOf k ∧
      keyAt d (hRec k.desc.key) = some x ∧ k.counted ≠ [] ∧ AtUnit d tag 0x0805 k ∧ (key1 k).alg = 0x0101 ∧ lockerFault (srcOf k) = none ∧ 112 ≤
      k.desc.dstLen ∧ EngineReady d k chk 80 ∧ CounterReady d k v ∧ body = (srcOf k).take 0x10 ++ beBytes 8 v ++ slice (srcOf k) 0x18 16 ++
      leBytes 8 (kcvNat (key1 k)) ∧ g = ecdsaSign p256 2 (beNat ((key1 k).mat.take 32)) (sha256 body) ((engineRandom d k chk 80).take 32) ∧ out =
      body ++ (beBytes 32 g.1 ++ beBytes 32 g.2)) ∧
    (∃ (s : State) (d : Dev) (tag : Nat) (chk : Nat) (k : Cmd) (a : Bytes) (x : KeyRec), ∃ v body buf m r0 n0 r n, Begins s d ∧ chk < 2 ∧ a =
      auxOf k ∧ keyAt d (hRec k.desc.key) = some x ∧ k.counted ≠ [] ∧ AtUnit d tag 0x0805 k ∧ algDsa (key1 k).alg = true ∧ lockerFault (srcOf k)
      = none ∧ 48 + dsaSigLen (key1 k).alg ≤ k.desc.dstLen ∧ CounterReady d k v ∧ body = (srcOf k).take 0x10 ++ beBytes 8 v ++ slice (srcOf k)
      0x18 16 ++ leBytes 8 (kcvNat (key1 k)) ∧ buf = (drbgOf d (cmdQuarter k d)).buf ∧ m = pqMessage 0 [] body ∧ r0 = dsaSign (key1 k).alg (key1
      k).mat m (buf.take 32) ∧ n0 = discarded k chk (32 + 160 * r0.2) ∧ r = dsaSign (key1 k).alg (key1 k).mat m ((buf.drop n0).take 32) ∧ n = n0
      + 32 + 160 * r.2 ∧ RandomReady d k n) ∧
    (∃ (s : State) (d : Dev) (tag : Nat) (chk : Nat) (k : Cmd) (a : Bytes) (x : KeyRec), ∃ off, Begins s d ∧ chk < 2 ∧ a = auxOf k ∧ keyAt d
      (hRec k.desc.key) = some x ∧ k.counted ≠ [] ∧ AtUnit d tag 0x0805 k ∧ lockerFault (srcOf k) = some off) ∧
    (∃ (s : State) (d : Dev) (tag : Nat) (chk : Nat) (k : Cmd) (a : Bytes) (x : KeyRec), Begins s d ∧ chk < 2 ∧ a = auxOf k ∧ keyAt d (hRec
      k.desc.key) = some x ∧ k.counted ≠ [] ∧ AtUnit d tag 0x0805 k ∧ lockerFault (srcOf k) = none ∧ k.desc.dstLen < 48 + lockerSig (key1 k).alg) :=
  ⟨⟨(st (wCode.getD 8 svc)), _, 7, 0, (cmd1 (wCode.getD 8 svc)), _, (keyIn (wCode.getD 8 svc)), _, _, _, (begins_st _ rfl rfl rfl),
    (by decide +kernel), rfl, (by decide +kernel), (by decide +kernel), (by unfold AtUnit Fresh; decide +kernel), (by decide +kernel),
    (by decide +kernel), (by decide +kernel), (counter_st _ _ (keyIn (wCode.getD 8 svc)) (resident1 (keyIn (wCode.getD 8 svc)))
    (by decide +kernel) (by decide +kernel) (by decide +kernel) (by decide +kernel) (by decide +kernel)), rfl, rfl⟩,
   ⟨(st (wCode.getD 9 svc)), _, 7, 0, (cmd1 (wCode.getD 9 svc)), _, (keyIn (wCode.getD 9 svc)), _, _, _, (begins_st _ rfl rfl rfl),
     (by decide +kernel), rfl, (by decide +kernel), (by decide +kernel), (by unfold AtUnit Fresh; decide +kernel), (by decide +kernel),
     (by decide +kernel), (by decide +kernel), (by unfold EngineReady RandomReady RandomAt NoReads; decide +kernel), (counter_st _ _ (keyIn
     (wCode.getD 9 svc)) (resident1 (keyIn (wCode.getD 9 svc))) (by decide +kernel) (by decide +kernel) (by decide +kernel) (by decide +kernel)
     (by decide +kernel)), rfl, rfl⟩,
   ⟨(st (wCode.getD 10 svc)), _, 7, 0, (cmd1 (wCode.getD 10 svc)), _, (keyIn (wCode.getD 10 svc)), _, _, _, _, (begins_st _ rfl rfl rfl),
     (by decide +kernel), rfl, (by decide +kernel), (by decide +kernel), (by unfold AtUnit Fresh; decide +kernel), (by decide +kernel),
     (by decide +kernel), (by decide +kernel), (by unfold EngineReady RandomReady RandomAt NoReads; decide +kernel), (counter_st _ _ (keyIn
     (wCode.getD 10 svc)) (resident1 (keyIn (wCode.getD 10 svc))) (by decide +kernel) (by decide +kernel) (by decide +kernel) (by decide +kernel)
     (by decide +kernel)), rfl, rfl, rfl⟩,
   ⟨(st accessCodeCommandsState11), _, 7, 0, (cmd1 accessCodeCommandsState11), _, (keyIn accessCodeCommandsState11), 5, _, _, _, _, _, _, _,
     (begins_st _ rfl rfl rfl), (by decide +kernel), rfl, (by decide +kernel), (by decide +kernel), (by unfold AtUnit Fresh; decide +kernel),
     (by decide +kernel), (by decide +kernel), (by decide +kernel), (counter_st _ _ (keyIn accessCodeCommandsState11) (resident1 (keyIn
     accessCodeCommandsState11)) (by decide +kernel) (by decide +kernel) (by decide +kernel) (by decide +kernel) (by decide +kernel)), rfl, rfl,
     rfl, rfl, rfl, rfl, rfl, (dsa_ready _ _ _ _ _ (by unfold NoReads; decide +kernel) rfl rfl (dsaSign_le _ _ _ _))⟩,
   ⟨(st accessCodeCommandsState12), _, 7, 0, (cmd1 accessCodeCommandsState12), _, (keyIn accessCodeCommandsState12), 0,
     (begins_st _ rfl rfl rfl), (by decide +kernel), rfl, (by decide +kernel), (by decide +kernel), (by unfold AtUnit Fresh; decide +kernel),
     (by decide +kernel)⟩,
   ⟨(st accessCodeCommandsState13), _, 7, 0, (cmd1 accessCodeCommandsState13), _, (keyIn accessCodeCommandsState13), (begins_st _ rfl rfl rfl),
     (by decide +kernel), rfl, (by decide +kernel), (by decide +kernel), (by unfold AtUnit Fresh; decide +kernel), (by decide +kernel)⟩⟩

theorem CheckUnitMismatch_met :
    (∃ (s : State) (d : Dev) (tag : Nat) (chk : Nat) (i : Nat) (k : Cmd) (c : Nat × Instr), Begins s d ∧ 2 ≤ chk ∧ k.unit = some i ∧ i < 20 ∧ c ∈
      [(0x0201, Instr.aesEcb tag chk), (0x0202, .aesCbc tag chk), (0x0203, .aesCtr tag chk), (0x0204, .aesGcm tag chk), (0x0205, .aesCcm tag
      chk), (0x0206, .aesXts tag chk), (0x0207, .tdesEcb tag chk), (0x0208, .tdesCbc tag chk), (0x0209, .ctxSave tag chk), (0x020A, .ctxRestore
      tag chk), (0x0401, .hash tag chk), (0x0402, .shake tag chk), (0x0403, .hmac tag chk), (0x0404, .cmac tag chk), (0x0405, .gmac tag chk),
      (0x0406, .macVerify tag chk), (0x0407, .hkdf tag chk), (0x0408, .kdfCtr tag chk), (0x0409, .tls13KeySchedule tag chk), (0x0601,
      .dukptDerive tag chk), (0x0602, .pinTranslate tag chk), (0x0603, .pinVerify tag chk), (0x0604, .cvvGenerate tag chk), (0x0605, .cvvVerify
      tag chk), (0x0606, .dataTranslate tag chk), (0x0701, .ff1Encrypt tag chk), (0x0702, .ff1Decrypt tag chk), (0x0703, .tokenTranslate tag
      chk), (0x0801, .hotpGenerate tag chk), (0x0802, .hotpVerify tag chk), (0x0803, .totpGenerate tag chk), (0x0804, .totpVerify tag chk),
      (0x0805, .lockerTokenSign tag chk), (0x0806, .pickupCodeIssue tag chk), (0x0807, .pickupCodeVerify tag chk)] ∧ AtUnit d tag c.1 k) ∧
    (∃ (s : State) (d : Dev) (tag : Nat) (chk : Nat) (i : Nat) (k : Cmd) (c : Nat × Instr × Nat), Begins s d ∧ 2 ≤ chk ∧ k.unit = some i ∧ 20 ≤ i
      ∧ i < 28 ∧ c ∈ [(0x0102, Instr.keyGeneratePair tag chk, genDraw (tmplOf (auxOf k)).alg), (0x0111, .keyPublicExport tag chk, 0), (0x0301,
      .ecdsaSign tag chk, 112), (0x0302, .ecdsaVerify tag chk, 0), (0x0303, .eddsaSign tag chk, 48), (0x0304, .eddsaVerify tag chk, 0), (0x0305,
      .ecdhAgree tag chk, 64 + genDraw (pkeAlgOf k)), (0x0306, .rsaPrivate tag chk, 80 + saltLen (auxOf k)), (0x0307, .rsaPublic tag chk,
      hashSize (pHash k.desc)), (0x0308, .mlkemEncap tag chk, 96), (0x0309, .mlkemDecap tag chk, 192), (0x030A, .mldsaSign tag chk, 32 + 160 *
      814), (0x030B, .mldsaVerify tag chk, 0), (0x030C, .slhdsaSign tag chk, 80), (0x030D, .slhdsaVerify tag chk, 0), (0x030E, .hbsVerify tag
      chk, 0), (0x030F, .imageVerify tag chk, 0)] ∧ AtUnit d tag c.1 k ∧ (c.2.2 = 0 ∨ RandomReady d k (2 * c.2.2))) :=
  ⟨⟨(st (wCheck.getD 0 svc)), _, 7, 2, 16, (cmd1 (wCheck.getD 0 svc)), (0x0401, Instr.hash 7 2), (begins_st _ rfl rfl rfl), (by decide +kernel),
    (by decide +kernel), (by decide +kernel), (by decide +kernel), (by unfold AtUnit Fresh; decide +kernel)⟩,
   ⟨(st (wCheck.getD 1 svc)), _, 7, 2, 20, (cmd1 (wCheck.getD 1 svc)), (769, Instr.ecdsaSign 7 2, 112), (begins_st _ rfl rfl rfl),
     (by decide +kernel), (by decide +kernel), (by decide +kernel), (by decide +kernel), (by decide +kernel),
     (by unfold AtUnit Fresh; decide +kernel), (by unfold RandomReady RandomAt NoReads; decide +kernel)⟩⟩

theorem QueueCommands_met1 :
    (∃ (s : State) (d : Dev) (a : Access) (inst : Nat) (q : Nat) (val : Nat), Begins s d ∧ AwakeFor d a ∧ inst < 1024 ∧ q < 16 ∧ val < 2 ^ 32 ∧
      (hdrOf d (instPage inst)).softRst = false ∧ (admitWrite (seenAs a) (instPage inst) (0x208 + 0x10 * q) d).1 = some .inst ∧ 1 ≤ bits val 15 8
      ∧ qFld d inst q Reg.SQ_CFG_EN = 0 ∧ 1 ≤ bits val 4 0 ∧ bits val 4 0 ≤ 16 ∧ qFld d inst (bits val 19 16) Reg.CQ_CFG_EN = 1 ∧ q < (instOf d
      inst).sqLimit) ∧
    (∃ (s : State) (d : Dev) (a : Access) (inst : Nat) (q : Nat) (val : Nat), Begins s d ∧ AwakeFor d a ∧ inst < 1024 ∧ q < 16 ∧ val < 2 ^ 32 ∧
      (hdrOf d (instPage inst)).softRst = false ∧ (admitWrite (seenAs a) (instPage inst) (0x208 + 0x10 * q) d).1 = some .inst ∧ 1 ≤ bits val 15 8
      ∧ qFld d inst q Reg.SQ_CFG_EN = 1 ∧ bits val 19 16 = qFld d inst q Reg.SQ_CFG_CQ ∧ bits val 4 0 = qFld d inst q Reg.SQ_CFG_SIZE) ∧
    (∃ (s : State) (d : Dev) (a : Access) (inst : Nat) (q : Nat) (val : Nat), Begins s d ∧ AwakeFor d a ∧ inst < 1024 ∧ q < 16 ∧ val < 2 ^ 32 ∧
      (hdrOf d (instPage inst)).softRst = false ∧ (admitWrite (seenAs a) (instPage inst) (0x308 + 0x10 * q) d).1 = some .inst ∧ qFld d inst q
      Reg.CQ_CFG_EN = 0 ∧ 1 ≤ bits val 4 0 ∧ bits val 4 0 ≤ 16) ∧
    (∃ (s : State) (d : Dev) (a : Access) (inst : Nat) (q : Nat) (val : Nat), Begins s d ∧ AwakeFor d a ∧ inst < 1024 ∧ q < 16 ∧ val < 2 ^ 32 ∧
      (hdrOf d (instPage inst)).softRst = false ∧ (admitWrite (seenAs a) (instPage inst) (0x308 + 0x10 * q) d).1 = some .inst ∧ qFld d inst q
      Reg.CQ_CFG_EN = 1 ∧ cqUsed d inst q = false ∧ bits val 4 0 = qFld d inst q Reg.CQ_CFG_SIZE) ∧
    (∃ (s : State) (d : Dev) (inst : Nat) (q : Nat) (val : Nat) (st : Option Nat), ∃ n head, Begins s d ∧ Awake d (viaLink d (.vf inst st)) ∧ val
      < 65536 ∧ q < 16 ∧ bellOpen d inst st = true ∧ n = sqSize d inst q ∧ head = qFld d inst q Reg.SQ_STAT_HEAD ∧ (qFld d inst q Reg.SQ_CFG_EN =
      0 ∨ qFld d inst q Reg.SQ_STAT_ERROR = 1)) ∧
    (∃ (s : State) (d : Dev) (inst : Nat) (q : Nat) (val : Nat) (st : Option Nat), ∃ n head, Begins s d ∧ Awake d (viaLink d (.vf inst st)) ∧ val
      < 65536 ∧ q < 16 ∧ bellOpen d inst st = true ∧ n = sqSize d inst q ∧ head = qFld d inst q Reg.SQ_STAT_HEAD ∧ qFld d inst q Reg.SQ_CFG_EN =
      1 ∧ qFld d inst q Reg.SQ_STAT_ERROR = 0 ∧ val < n ∧ ringAhead n (tailOf d inst q) head ≤ ringAhead n val head) ∧
    (∃ (s : State) (d : Dev) (inst : Nat) (q : Nat) (val : Nat) (st : Option Nat), ∃ n head, Begins s d ∧ Awake d (viaLink d (.vf inst st)) ∧ val
      < 65536 ∧ q < 16 ∧ bellOpen d inst st = true ∧ n = sqSize d inst q ∧ head = qFld d inst q Reg.SQ_STAT_HEAD ∧ qFld d inst q Reg.SQ_CFG_EN =
      1 ∧ qFld d inst q Reg.SQ_STAT_ERROR = 0 ∧ (n ≤ val ∨ ringAhead n val head < ringAhead n (tailOf d inst q) head)) ∧
    (∃ (s : State) (d : Dev) (inst : Nat) (q : Nat) (val : Nat) (st : Option Nat), ∃ n tail, Begins s d ∧ Awake d (viaLink d (.vf inst st)) ∧ val
      < 65536 ∧ q < 16 ∧ bellOpen d inst st = true ∧ n = cqSize d inst q ∧ tail = qFld d inst q Reg.CQ_STAT_TAIL ∧ (qFld d inst q Reg.CQ_CFG_EN =
      0 ∨ qFld d inst q Reg.CQ_STAT_ERROR = 1)) :=
  ⟨⟨(st (wQueues.getD 0 svc)), _, acc, 1, 1, sqWord, (begins_st _ rfl rfl rfl), (awakeFor_st _ _ (by decide +kernel)), (by decide +kernel)⟩,
   ⟨(st (wQueues.getD 1 svc)), _, acc, 1, 1, sqWord, (begins_st _ rfl rfl rfl), (awakeFor_st _ _ (by decide +kernel)), (by decide +kernel)⟩,
   ⟨(st (wQueues.getD 0 svc)), _, acc, 1, 5, 1, (begins_st _ rfl rfl rfl), (awakeFor_st _ _ (by decide +kernel)), (by decide +kernel)⟩,
   ⟨(st (wQueues.getD 0 svc)), _, acc, 1, 1, sqWord, (begins_st _ rfl rfl rfl), (awakeFor_st _ _ (by decide +kernel)), (by decide +kernel)⟩,
   ⟨(st (wQueues.getD 0 svc)), _, 1, 1, 1, none, _, _, (begins_st _ rfl rfl rfl), (awake_st _ _ (by decide +kernel)), (by decide +kernel),
     (by decide +kernel), (by decide +kernel), rfl, rfl, (by decide +kernel)⟩,
   ⟨(st (wQueues.getD 1 svc)), _, 1, 1, 1, none, _, _, (begins_st _ rfl rfl rfl), (awake_st _ _ (by decide +kernel)), (by decide +kernel),
     (by decide +kernel), (by decide +kernel), rfl, rfl, (by decide +kernel)⟩,
   ⟨(st (wQueues.getD 1 svc)), _, 1, 1, 17, none, _, _, (begins_st _ rfl rfl rfl), (awake_st _ _ (by decide +kernel)), (by decide +kernel),
     (by decide +kernel), (by decide +kernel), rfl, rfl, (by decide +kernel)⟩,
   ⟨(st (wQueues.getD 0 svc)), _, 1, 5, 1, none, _, _, (begins_st _ rfl rfl rfl), (awake_st _ _ (by decide +kernel)), (by decide +kernel),
     (by decide +kernel), (by decide +kernel), rfl, rfl, (by decide +kernel)⟩⟩

theorem QueueCommands_met2 :
    (∃ (s : State) (d : Dev) (inst : Nat) (q : Nat) (val : Nat) (st : Option Nat), ∃ n tail, Begins s d ∧ Awake d (viaLink d (.vf inst st)) ∧ val
      < 65536 ∧ q < 16 ∧ bellOpen d inst st = true ∧ n = cqSize d inst q ∧ tail = qFld d inst q Reg.CQ_STAT_TAIL ∧ qFld d inst q Reg.CQ_CFG_EN =
      1 ∧ qFld d inst q Reg.CQ_STAT_ERROR = 0 ∧ val < n ∧ ringAhead n val (headOf d inst q) ≤ ringAhead n tail (headOf d inst q)) ∧
    (∃ (s : State) (d : Dev) (inst : Nat) (q : Nat) (val : Nat) (st : Option Nat), ∃ n tail, Begins s d ∧ Awake d (viaLink d (.vf inst st)) ∧ val
      < 65536 ∧ q < 16 ∧ bellOpen d inst st = true ∧ n = cqSize d inst q ∧ tail = qFld d inst q Reg.CQ_STAT_TAIL ∧ qFld d inst q Reg.CQ_CFG_EN =
      1 ∧ qFld d inst q Reg.CQ_STAT_ERROR = 0 ∧ (n ≤ val ∨ ringAhead n tail (headOf d inst q) < ringAhead n val (headOf d inst q))) :=
  ⟨⟨(st (wQueues.getD 5 svc)), _, 1, 1, 5, none, _, _, (begins_st _ rfl rfl rfl), (awake_st _ _ (by decide +kernel)), (by decide +kernel),
    (by decide +kernel), (by decide +kernel), rfl, rfl, (by decide +kernel)⟩,
   ⟨(st (wQueues.getD 0 svc)), _, 1, 1, 1, none, _, _, (begins_st _ rfl rfl rfl), (awake_st _ _ (by decide +kernel)), (by decide +kernel),
     (by decide +kernel), (by decide +kernel), rfl, rfl, (by decide +kernel)⟩⟩

def commandIntakeCommandsState3b : Dev :=
  { withCmds [early .reading hashDesc] queued with cmd := { (withCmds [early .reading hashDesc] queued).cmd with reads := [⟨0, some 7, .srcSgl, false, none, 0, 1, [], 2, 16, []⟩] } }

def commandIntakeCommandsState8b : Dev :=
  atPolicy { hashDesc with opcode := 0x0404, param := 0, dstLen := 8 }

theorem CommandIntakeCommands_met1 :
    (∃ (s : State) (d : Dev), ∃ inst q l f at' cq n e, ∃ (ask : List (Nat × Nat)), Begins s d ∧ (∀ x, x ∈ d.cmd.reads → x.todo = []) ∧ inst <
      1024 ∧ q < 16 ∧ instTurn d = some inst ∧ sqReady d inst q = true ∧ sqTurn d inst q = true ∧ instFn d inst = some (l, f) ∧ at' = fetchAt d
      inst q ∧ cq = qFld d inst q Reg.SQ_CFG_CQ ∧ e = sqEntry (verOf d inst) ∧ n = min (min 8 ((tailOf d inst q + sqSize d inst q - at') % sqSize
      d inst q)) (min (sqSize d inst q - at') (cqFree d inst cq)) ∧ ask = runPieces d l f [(sqBase d inst q + at' * e, n * e)] ∧ ask.length ≤
      tagsLeft d l) ∧
    (∃ (s : State) (d : Dev), ∃ r inst q cq n live a b e, Begins s d ∧ (∀ x, x ∈ d.cmd.reads → x.todo = []) ∧ r ∈ d.cmd.reads ∧ (∀ x, x ∈
      d.cmd.reads → x.id = r.id → x = r) ∧ r.dropped = false ∧ r.got = none ∧ r.what = .fetch inst q cq n live ∧ inst < 1024 ∧ q < 16 ∧
      d.cmd.reads.find? (fetchesFor inst q) = some r ∧ Awake d (some r.link) ∧ d.sys.draining = none ∧ b = r.have' ++ a ∧ e = sqEntry (verOf d
      inst) ∧ d.cmd.nextTag + n < 2 ^ 32 ∧ (∀ x, x ∈ d.cmd.reads → x ≠ r → fetchesFor inst q x = true → x.got = none) ∧ (∀ j, j < n → fetchDenied
      d inst (rawOpcode (verOf d inst) (slice b (j * e) e)) = none)) ∧
    (∃ (s : State) (d : Dev), ∃ r tag k a b k', Begins s d ∧ (∀ x, x ∈ d.cmd.reads → x.todo = []) ∧ r ∈ d.cmd.reads ∧ (∀ x, x ∈ d.cmd.reads →
      x.id = r.id → x = r) ∧ r.dropped = false ∧ r.tag = some tag ∧ cmdOf d tag = some k ∧ Awake d (some r.link) ∧ d.sys.draining = none ∧ b =
      r.have' ++ a ∧ k.stage = .reading ∧ ((r.what = .src ∧ k' = { k with src := some (fitTo k.desc.srcLen b) }) ∨ (r.what = .ticket ∧ k' =
      { k with ticket := some (fitTo k.desc.ticketLen b) }) ∨ (r.what = .aux ∧ k' =
      { k with aux := some (fitTo k.desc.auxLen ((if k.ver.1 = 1 ∧ k.desc.opcode = 0x0302 then zeros 8 else []) ++ b)) }))) ∧
    (∃ (s : State) (d : Dev), ∃ r tag k a e, Begins s d ∧ (∀ x, x ∈ d.cmd.reads → x.todo = []) ∧ r ∈ d.cmd.reads ∧ (∀ x, x ∈ d.cmd.reads → x.id =
      r.id → x = r) ∧ r.dropped = false ∧ r.tag = some tag ∧ cmdOf d tag = some k ∧ Awake d (some r.link) ∧ d.sys.draining = none ∧ ((r.what =
      .srcSgl ∧ sglStep (r.have' ++ a) (k.srcList.getD []) k.desc.srcLen = .error e) ∨ (r.what = .dstSgl ∧ sglStep (r.have' ++ a) (k.dstList.getD
      []) k.desc.dstLen = .error e))) ∧
    (∃ (s : State) (d : Dev), ∃ r tag k, Begins s d ∧ (∀ x, x ∈ d.cmd.reads → x.todo = []) ∧ r ∈ d.cmd.reads ∧ (∀ x, x ∈ d.cmd.reads → x.id =
      r.id → x = r) ∧ r.dropped = false ∧ r.tag = some tag ∧ cmdOf d tag = some k ∧ Awake d (some r.link) ∧ d.sys.draining = none ∧ r.what ∈
      [ReadFor.src, .aux, .srcSgl, .dstSgl, .ticket]) ∧
    (∃ (s : State) (d : Dev), ∃ tag k st, Begins s d ∧ (∀ x, x ∈ d.cmd.reads → x.todo = []) ∧ cmdOf d tag = some k ∧ k.stage = .fetched ∧
      parseHeld d k = false ∧ rqFull d = false ∧ instTag d k.inst = true ∧ parsed d k = .error st) ∧
    (∃ (s : State) (d : Dev), ∃ tag k c st info r1, Begins s d ∧ (∀ x, x ∈ d.cmd.reads → x.todo = []) ∧ cmdOf d tag = some k ∧ k.stage = .fetched
      ∧ parseHeld d k = false ∧ rqFull d = false ∧ instTag d k.inst = true ∧ parsed d k = .ok c ∧ descFault (pypMinor c) c.desc = some (st, info,
      r1)) ∧
    (∃ (s : State) (d : Dev), ∃ tag k c l f, ∃ (ask : ReadFor × Nat × Nat → List (Nat × Nat)), Begins s d ∧ (∀ x, x ∈ d.cmd.reads → x.todo = [])
      ∧ cmdOf d tag = some k ∧ k.stage = .fetched ∧ parseHeld d k = false ∧ rqFull d = false ∧ instTag d k.inst = true ∧ parsed d k = .ok c ∧
      descFault (pypMinor c) c.desc = none ∧ (c.desc.opcode = 0x0110 → d.sys.mode = .ceremony) ∧ (opRouted c.desc.opcode = true → fldB d pgCMD
      Reg.CMD_CFG_RQ_EN = true) ∧ readsFor c ≠ [] ∧ instFn d c.inst = some (l, f) ∧ ideOpen d l f = true ∧ (∀ r : ReadFor × Nat × Nat, ask r =
      runPieces d l f [r.2]) ∧ ((readsFor c).map (fun r => (ask r).length)).sum ≤ tagsLeft d l) :=
  ⟨⟨(st (wIntake.getD 0 svc)), _, 1, 1, 0, 2, _, _, _, _, _, (begins_st _ rfl rfl rfl), (by decide +kernel), (by decide +kernel),
    (by decide +kernel), (by decide +kernel), (by decide +kernel), (by decide +kernel), (by decide +kernel), rfl, rfl, rfl, rfl, rfl,
    (by decide +kernel)⟩,
   ⟨(st (wIntake.getD 1 svc)), _, ⟨0, none, .fetch 1 1 1 2 true, false, none, 0, 1, [], 2, 128, []⟩, 1, 1, 1, 2, true, (ramp 128), _, _,
     (begins_st _ rfl rfl rfl), (by decide +kernel), (by decide +kernel), (by decide +kernel), (by decide +kernel), (by decide +kernel),
     (by decide +kernel), (by decide +kernel), (by decide +kernel), (by decide +kernel), (awake_st _ _ (by decide +kernel)), (by decide +kernel),
     rfl, rfl, (by decide +kernel)⟩,
   ⟨(st (wIntake.getD 2 svc)), _, ⟨0, some 7, .src, false, none, 0, 1, [], 2, 64, []⟩, 7, (cmd1 (wIntake.getD 2 svc)), (ramp 64), _, _,
     (begins_st _ rfl rfl rfl), (by decide +kernel), (by decide +kernel), (by decide +kernel), (by decide +kernel), (by decide +kernel),
     (by decide +kernel), (awake_st _ _ (by decide +kernel)), (by decide +kernel), rfl, (by decide +kernel), (.inl ⟨rfl, rfl⟩)⟩,
   ⟨(st commandIntakeCommandsState3b), _, ⟨0, some 7, .srcSgl, false, none, 0, 1, [], 2, 16, []⟩, 7, (cmd1 commandIntakeCommandsState3b), (zeros
     16), (stBAD_DESCRIPTOR, 0), (begins_st _ rfl rfl rfl), (by decide +kernel), (by decide +kernel), (by decide +kernel), (by decide +kernel),
     (by decide +kernel), (by decide +kernel), (awake_st _ _ (by decide +kernel)), (by decide +kernel), (.inl ⟨rfl, rfl⟩)⟩,
   ⟨(st (wIntake.getD 2 svc)), _, ⟨0, some 7, .src, false, none, 0, 1, [], 2, 64, []⟩, 7, (cmd1 (wIntake.getD 2 svc)), (begins_st _ rfl rfl rfl),
     (by decide +kernel), (by decide +kernel), (by decide +kernel), (by decide +kernel), (by decide +kernel), (by decide +kernel), (awake_st _ _
     (by decide +kernel)), (by decide +kernel)⟩,
   ⟨(st (wIntake.getD 3 svc)), _, 7, (cmd1 (wIntake.getD 3 svc)), 257, (begins_st _ rfl rfl rfl), (by decide +kernel), (by decide +kernel),
     (by decide +kernel), (by decide +kernel), (by decide +kernel), (by decide +kernel), (except_of (by decide +kernel))⟩,
   ⟨(st (wIntake.getD 4 svc)), _, 7, (cmd1 (wIntake.getD 4 svc)), (cmd1 (wIntake.getD 4 svc)), 261, 0, 32, (begins_st _ rfl rfl rfl),
     (by decide +kernel), (by decide +kernel), (by decide +kernel), (by decide +kernel), (by decide +kernel), (by decide +kernel), (except_of
     (by decide +kernel)), (by decide +kernel)⟩,
   ⟨(st (wIntake.getD 5 svc)), _, 7, (cmd1 (wIntake.getD 5 svc)), (cmd1 (wIntake.getD 5 svc)), 0, 2, (fun r => runPieces (wIntake.getD 5 svc) 0 2
     [r.2]), (begins_st _ rfl rfl rfl), (by decide +kernel), (by decide +kernel), (by decide +kernel), (by decide +kernel), (by decide +kernel),
     (by decide +kernel), (except_of (by decide +kernel)), (by decide +kernel), (by decide +kernel), (by decide +kernel), (by decide +kernel),
     (by decide +kernel), (by decide +kernel), (fun _ => rfl), (by decide +kernel)⟩⟩

theorem CommandIntakeCommands_met2 :
    (∃ (s : State) (d : Dev), ∃ tag k e, Begins s d ∧ (∀ x, x ∈ d.cmd.reads → x.todo = []) ∧ cmdOf d tag = some k ∧ k.stage = .policy ∧ roomFault
      d k = some e) ∧
    (∃ (s : State) (d : Dev), ∃ tag k, Begins s d ∧ (∀ x, x ∈ d.cmd.reads → x.todo = []) ∧ cmdOf d tag = some k ∧ k.stage = .policy ∧ roomFault d
      k = none ∧ lcDenied d k = true) ∧
    (∃ (s : State) (d : Dev), ∃ tag k, Begins s d ∧ (∀ x, x ∈ d.cmd.reads → x.todo = []) ∧ cmdOf d tag = some k ∧ k.stage = .policy ∧ roomFault d
      k = none ∧ lcDenied d k = false ∧ namesKey k.desc false = false ∧ namesKey k.desc true = false ∧ k.desc.opcode ≠ 0x0110 ∧ opRouted
      k.desc.opcode = false ∧ anyServes d (kindOf { k with keys := [], counted := [], tickets := [] }) = true ∧ (∀ x, x ∈ d.cmd.cmds → x.stage =
      .ring → anyServes d (kindOf x) = true)) ∧
    (∃ (s : State) (d : Dev), ∃ tag k, ∃ (err : KeyErr), ∃ k1 d1, Begins s d ∧ (∀ x, x ∈ d.cmd.reads → x.todo = []) ∧ cmdOf d tag = some k ∧
      k.stage = .policy ∧ roomFault d k = none ∧ lcDenied d k = false ∧ policyRun err.t1 k d = .pass k1 d1 ∧ k1.tag = tag ∧ d1.cmd = d.cmd ∧
      d1.mpe.failing = none ∧ opRouted k1.desc.opcode = true) ∧
    (∃ (s : State) (d : Dev), ∃ tag k, ∃ (err : KeyErr), ∃ k1 d1, Begins s d ∧ (∀ x, x ∈ d.cmd.reads → x.todo = []) ∧ cmdOf d tag = some k ∧
      k.stage = .policy ∧ roomFault d k = none ∧ lcDenied d k = false ∧ policyRun err.t1 k d = .pass k1 d1 ∧ k1.tag = tag ∧ d1.cmd = d.cmd ∧
      d1.mpe.failing = none ∧ opRouted k1.desc.opcode = false ∧ anyServes d1 (kindOf k1) = true ∧ (∀ x, x ∈ d.cmd.cmds → x.stage = .ring →
      anyServes d1 (kindOf x) = true)) ∧
    (∃ (s : State) (d : Dev), ∃ tag k, ∃ (err : KeyErr), ∃ e k1 d1, Begins s d ∧ (∀ x, x ∈ d.cmd.reads → x.todo = []) ∧ cmdOf d tag = some k ∧
      k.stage = .policy ∧ roomFault d k = none ∧ lcDenied d k = false ∧ policyRun err.t1 k d = .fail e k1 d1 ∧ k1.tag = tag ∧ d1.cmd = d.cmd ∧
      d1.mpe.failing = none) :=
  ⟨⟨(st commandIntakeCommandsState8b), _, 7, (cmd1 commandIntakeCommandsState8b), _, (begins_st _ rfl rfl rfl), (by decide +kernel),
    (by decide +kernel), (by decide +kernel), (some_of (0, 0) (by decide +kernel))⟩,
   ⟨(st (wIntake.getD 6 svc)), _, 7, (cmd1 (wIntake.getD 6 svc)), (begins_st _ rfl rfl rfl), (by decide +kernel)⟩,
   ⟨(st (wIntake.getD 7 svc)), _, 7, (cmd1 (wIntake.getD 7 svc)), (begins_st _ rfl rfl rfl), (by decide +kernel)⟩,
   ⟨(st commandIntakeCommandsState9), _, 7, (cmd1 commandIntakeCommandsState9), keySound, (polPair (cmd1 commandIntakeCommandsState9,
     commandIntakeCommandsState9) (policyRun keySound.t1 (cmd1 commandIntakeCommandsState9) commandIntakeCommandsState9)).1, (polPair (cmd1
     commandIntakeCommandsState9, commandIntakeCommandsState9) (policyRun keySound.t1 (cmd1 commandIntakeCommandsState9)
     commandIntakeCommandsState9)).2, (begins_st _ rfl rfl rfl), (by decide +kernel), (by decide +kernel), (by decide +kernel),
     (by decide +kernel), (by decide +kernel), (pass_of (by decide +kernel)), (by decide +kernel)⟩,
   ⟨(st commandIntakeCommandsState10), _, 7, (cmd1 commandIntakeCommandsState10), keySound, (polPair (cmd1 commandIntakeCommandsState10,
     commandIntakeCommandsState10) (policyRun keySound.t1 (cmd1 commandIntakeCommandsState10) commandIntakeCommandsState10)).1, (polPair (cmd1
     commandIntakeCommandsState10, commandIntakeCommandsState10) (policyRun keySound.t1 (cmd1 commandIntakeCommandsState10)
     commandIntakeCommandsState10)).2, (begins_st _ rfl rfl rfl), (by decide +kernel), (by decide +kernel), (by decide +kernel),
     (by decide +kernel), (by decide +kernel), (pass_of (by decide +kernel)), (by decide +kernel)⟩,
   ⟨(st commandIntakeCommandsState11), _, 7, (cmd1 commandIntakeCommandsState11), keySound, (polTriple ((0, 0), cmd1
     commandIntakeCommandsState11, commandIntakeCommandsState11) (policyRun keySound.t1 (cmd1 commandIntakeCommandsState11)
     commandIntakeCommandsState11)).1, (polTriple ((0, 0), cmd1 commandIntakeCommandsState11, commandIntakeCommandsState11) (policyRun
     keySound.t1 (cmd1 commandIntakeCommandsState11) commandIntakeCommandsState11)).2.1, (polTriple ((0, 0), cmd1 commandIntakeCommandsState11,
     commandIntakeCommandsState11) (policyRun keySound.t1 (cmd1 commandIntakeCommandsState11) commandIntakeCommandsState11)).2.2,
     (begins_st _ rfl rfl rfl), (by decide +kernel), (by decide +kernel), (by decide +kernel), (by decide +kernel), (by decide +kernel),
     (failed_of (z := ((0, 0), cmd1 commandIntakeCommandsState11, commandIntakeCommandsState11)) (by decide +kernel)), (by decide +kernel)⟩⟩

theorem RoutedCommands_met :
    (∃ (s : State) (d : Dev), ∃ tag k tail at', Begins s d ∧ cmdOf d tag = some k ∧ k.stage = .route ∧ rqFull d = false ∧ tail = fld d pgCMD
      Reg.CMD_RQ_TAIL_TAIL ∧ at' = rqBase d + tail * 128 ∧ tagWaits d k.epoch at' 128 = false ∧ memStore2 whoCmdp k.epoch at' (routedBytes d k) d
      = (.ok, putBytes d at' (routedBytes d k))) ∧
    (∃ (s : State) (d : Dev), ∃ a tail head b tag k d1, Begins s d ∧ AwakeFor d a ∧ head = fld d pgCMD Reg.CMD_RCQ_HEAD_HEAD ∧ (head + 1) % 2 ^
      fld d pgCMD Reg.CMD_RQ_CFG_RCQ_SIZE = tail ∧ head ≠ tail ∧ tail < 2 ^ 16 ∧ (admitWrite (seenAs a) pgCMD 0x060 d).1 = some .cmd ∧ fieldCode
      (seenAs a) pgCMD tail d Reg.CMD_RCQ_TAIL_TAIL = 0 ∧ d1 = setFld d pgCMD Reg.CMD_RCQ_TAIL_TAIL tail ∧ memFetch2 whoCmdp true (rcqBase d +
      head * 32) 32 d1 = (.ok, b, none, d1) ∧ leAt b 0x14 4 = tag ∧ cmdOf d tag = some k ∧ k.stage = .routed) ∧
    (∃ (s : State) (d : Dev), ∃ tag k ms, Begins s d ∧ cmdOf d tag = some k ∧ k.stage = .routed ∧ ms = fld d pgCMD Reg.CMD_CFG_RT_TIMEOUT ∧ ms ≠
      0) ∧
    (∃ (s : State) (d : Dev), ∃ tag k, Begins s d ∧ cmdOf d tag = some k ∧ k.stage = .retry ∧ portShut d (k.unit.getD 28) = false ∧ (∀ x, x ∈
      d.cmd.cmds → x.stage = .ring → anyServes d (kindOf x) = true) ∧ anyServes d (kindOf k) = true) :=
  ⟨⟨(st (wRing.getD 0 svc)), _, 7, (cmd1 (wRing.getD 0 svc)), _, _, (begins_st _ rfl rfl rfl), (by decide +kernel), (by decide +kernel),
    (by decide +kernel), rfl, rfl, (by decide +kernel)⟩,
   ⟨(st (wRing.getD 1 svc)), _, acc, _, _, [0, 0, 0, 0, 0, 0, 0, 0, 0, 0, 0, 0, 0, 0, 0, 0, 0, 0, 0, 0, 7, 0, 0, 0, 0, 0, 0, 0, 0, 0, 0, 0], 7,
     (cmd1 (wRing.getD 1 svc)), _, (begins_st _ rfl rfl rfl), (awakeFor_st _ _ (by decide +kernel)), rfl, rfl, (by decide +kernel),
     (by decide +kernel), (by decide +kernel), (by decide +kernel), rfl, (by decide +kernel), rfl, (by decide +kernel)⟩,
   ⟨(st (wRing.getD 1 svc)), _, 7, (cmd1 (wRing.getD 1 svc)), _, (begins_st _ rfl rfl rfl), (by decide +kernel), (by decide +kernel), rfl,
     (by decide +kernel)⟩,
   ⟨(st (wRing.getD 3 svc)), _, 7, (cmd1 (wRing.getD 3 svc)), (begins_st _ rfl rfl rfl), (by decide +kernel)⟩⟩

theorem UnitIntakeCommands_met :
    (∃ (s : State) (d : Dev), ∃ i, ∃ (k : Cmd), Begins s d ∧ (∀ x, x ∈ d.cmd.cmds → x.stage = .ring → anyServes d (kindOf x) = true) ∧ ringPick d
      i = some k ∧ cmdOf d k.tag = some k ∧ i < 28 ∧ (unitOf d i).cur = none ∧ (unitOf d i).job = none ∧ (unitOf d i).oos = false ∧ quarterServes
      d (unitQuarter i) = true ∧ unitServes d i = true) ∧
    (∃ (s : State) (d : Dev), ∃ i, ∃ (k : Cmd), Begins s d ∧ (∀ x, x ∈ d.cmd.cmds → x.stage = .ring → anyServes d (kindOf x) = true) ∧ ringPick d
      i = some k ∧ cmdOf d k.tag = some k ∧ i = 28) ∧
    (∃ (s : State) (d : Dev), ∃ tag, ∃ (k : Cmd) (n : Nat) (x : KeyRec), ∃ first ks, ∃ (tm : Option Nat) (dm : Dev), ∃ y, Begins s d ∧ cmdOf d
      tag = some k ∧ k.counted = [n] ∧ k.stage ∈ [Stage.ring, .taken, .route, .routed] ∧ t0Loads d.sys.mode = true ∧ residentOf d n = none ∧
      keyAt d n = some x ∧ slotsFor x.mat.length ≤ slotsFree d ∧ slotsFor x.mat.length + poundCount d ≤ 65536 ∧ d.key.resident.length < 32768 ∧
      (slotsPick d (slotsFor x.mat.length)).length = slotsFor x.mat.length ∧ t1Transfers [] (n :: x.exts.take (extsFor x.mat.length)) d = (true,
      tm, dm) ∧ dm = { d with mpe := dm.mpe, regs := dm.regs } ∧ pagesBut [pgMPE, pgMPE1] d dm ∧ dm.mpe.failing = none ∧ first = (hClass x.handle
      = 0 && !(smapGet falseAt d.key.loaded n)) ∧ ks = d.key.kSlot.getD (zeros 32) ∧ y = (if first && decide (x.nonce ≠ x.nonceResv) then
      { x with nonce := x.nonceResv, persisted := false } else x)) ∧
    (∃ (s : State) (d : Dev), ∃ tag, ∃ (k : Cmd), Begins s d ∧ cmdOf d tag = some k ∧ (k.stage = .taken ∨ k.stage = .routed) ∧ k.keyed = false ∧
      keysThere d k.counted = true ∧ d.mpe.halting = false) ∧
    (∃ (s : State) (d : Dev), ∃ tag, ∃ (k : Cmd), ∃ lane chk q, Begins s d ∧ AtUnit d tag 0x0206 k ∧ laneMay d k lane = true ∧ k.done < xtsUnits
      k.desc ∧ (k.done ≠ 0 ∨ some lane = k.unit) ∧ (some lane = k.unit ∨ keysThere d k.counted = true) ∧ d.mpe.halting = false ∧ q = unitQuarter
      lane ∧ RandomAt d q (maskOf d) ∧ chk < 2 ∧ bit k.desc.flags flORDERED = true) ∧
    (∃ (s : State) (d : Dev), ∃ tag, ∃ (k : Cmd), ∃ lane chk q l f, Begins s d ∧ AtUnit d tag 0x0206 k ∧ laneMay d k lane = true ∧ k.done <
      xtsUnits k.desc ∧ (k.done ≠ 0 ∨ some lane = k.unit) ∧ (some lane = k.unit ∨ keysThere d k.counted = true) ∧ d.mpe.halting = false ∧ q =
      unitQuarter lane ∧ RandomAt d q (maskOf d) ∧ chk < 2 ∧ bit k.desc.flags flORDERED = false ∧ fenceOpen d k.epoch = true ∧ k.sent =
      k.part.length ∧ k.mute = false ∧ k.dstList = none ∧ instFn d k.inst = some (l, f) ∧ ideOpen d l f = true ∧ xtsOut k k.done ≠ [] ∧ k.sent +
      (xtsOut k k.done).length ≤ k.desc.dstLen) ∧
    (∃ (s : State) (d : Dev), ∃ tag, ∃ (k : Cmd), ∃ lane chk q, Begins s d ∧ AtUnit d tag 0x0206 k ∧ laneMay d k lane = true ∧ k.done < xtsUnits
      k.desc ∧ (k.done ≠ 0 ∨ some lane = k.unit) ∧ (some lane = k.unit ∨ keysThere d k.counted = true) ∧ d.mpe.halting = false ∧ q = unitQuarter
      lane ∧ RandomAt d q (maskOf d) ∧ 2 ≤ chk) :=
  ⟨⟨(st (wUnits.getD 0 svc)), _, 16, (cmd1 (wUnits.getD 0 svc)), (begins_st _ rfl rfl rfl), (by decide +kernel)⟩,
   ⟨(st (wUnits.getD 1 svc)), _, _, (cmd1 (wUnits.getD 1 svc)), (begins_st _ rfl rfl rfl), (by decide +kernel), (by decide +kernel),
     (by decide +kernel), rfl⟩,
   ⟨(st (wUnits.getD 2 svc)), _, 7, (cmd1 (wUnits.getD 2 svc)), 1, (keyIn (wUnits.getD 2 svc)), _, _, _, _, _, (begins_st _ rfl rfl rfl),
     (by decide +kernel), (by decide +kernel), (by decide +kernel), (by decide +kernel), (by decide +kernel), (by decide +kernel),
     (by decide +kernel), (by decide +kernel), (by decide +kernel), (by decide +kernel), (triple_of _ (by decide +kernel)), (by decide +kernel),
     (pages_off _ _ _ (by decide +kernel)), (by decide +kernel), rfl, rfl, rfl⟩,
   ⟨(st (wUnits.getD 3 svc)), _, 7, (cmd1 (wUnits.getD 3 svc)), (begins_st _ rfl rfl rfl), (by decide +kernel)⟩,
   ⟨(st (wUnits.getD 5 svc)), _, 7, (cmd1 (wUnits.getD 5 svc)), 0, 0, _, (begins_st _ rfl rfl rfl), (by unfold AtUnit Fresh; decide +kernel),
     (by decide +kernel), (by decide +kernel), (by decide +kernel), (by decide +kernel), (by decide +kernel), rfl,
     (by unfold RandomAt NoReads; decide +kernel), (by decide +kernel)⟩,
   ⟨(st (wUnits.getD 4 svc)), _, 7, (cmd1 (wUnits.getD 4 svc)), 0, 0, _, 0, 2, (begins_st _ rfl rfl rfl),
     (by unfold AtUnit Fresh; decide +kernel), (by decide +kernel), (by decide +kernel), (by decide +kernel), (by decide +kernel),
     (by decide +kernel), rfl, (by unfold RandomAt NoReads; decide +kernel), (by decide +kernel)⟩,
   ⟨(st (wUnits.getD 5 svc)), _, 7, (cmd1 (wUnits.getD 5 svc)), 0, 2, _, (begins_st _ rfl rfl rfl), (by unfold AtUnit Fresh; decide +kernel),
     (by decide +kernel), (by decide +kernel), (by decide +kernel), (by decide +kernel), (by decide +kernel), rfl,
     (by unfold RandomAt NoReads; decide +kernel), (by decide +kernel)⟩⟩

theorem EgressCommands_met :
    (∃ (s : State) (d : Dev), ∃ tag k r, Begins s d ∧ cmdOf d tag = some k ∧ k.stage = .held ∧ k.result = some r ∧ fenceOpen d k.epoch = true ∧
      bit k.desc.flags flORDERED = false ∧ d.sys.draining = none ∧ r.effects = [] ∧ k.counted = [] ∧ k.tickets = [] ∧ firstPart k r = false ∧
      k.mute = true) ∧
    (∃ (s : State) (d : Dev), ∃ tag k r l f tail next phase head e n, Begins s d ∧ cmdOf d tag = some k ∧ k.stage = .held ∧ k.result = some r ∧
      fenceOpen d k.epoch = true ∧ bit k.desc.flags flORDERED = false ∧ d.sys.draining = none ∧ r.effects = [] ∧ k.counted = [] ∧ k.tickets = []
      ∧ firstPart k r = false ∧ k.mute = false ∧ instFn d k.inst = some (l, f) ∧ ideOpen d l f = true ∧ qFld d k.inst k.cq Reg.CQ_CFG_EN = 1 ∧
      qFld d k.inst k.cq Reg.CQ_STAT_ERROR = 0 ∧ k.cq < 16 ∧ k.inst < 1024 ∧ r.stream = [] ∧ r.auxOut = [] ∧ k.sent = 0 ∧ k.dstList = none ∧
      r.out.length ≤ k.desc.dstLen ∧ n = smapGet zeroAt d.cmd.coal (qKey k.inst k.cq) ∧ (bit k.desc.flags flNO_IRQ = true ∨ qFld d k.inst k.cq
      Reg.CQ_CFG_IRQ_EN = 0 ∨ n + 1 < max 1 (qFld d k.inst k.cq Reg.CQ_CFG_COAL_COUNT)) ∧ tail = qFld d k.inst k.cq Reg.CQ_STAT_TAIL ∧ next =
      (tail + 1) % cqSize d k.inst k.cq ∧ phase = qFld d k.inst k.cq Reg.CQ_STAT_PHASE ∧ head = qFld d k.inst k.sq Reg.SQ_STAT_HEAD ∧ e = (if
      k.ver.1 = 1 then cqe1 k r head phase else cqe2 k r head phase)) ∧
    (∃ (s : State) (d : Dev), ∃ tag k r x cls life b n, Begins s d ∧ cmdOf d tag = some k ∧ k.stage = .held ∧ k.result = some r ∧ fenceOpen d
      k.epoch = true ∧ bit k.desc.flags flORDERED = false ∧ d.sys.draining = none ∧ k.counted = [] ∧ k.tickets = [] ∧ firstPart k r = false ∧
      k.mute = true ∧ r.effects = [.create x cls k.inst life b none] ∧ cls ≠ 0 ∧ cls < 4 ∧ x.mat.length ≤ 96 ∧ recordsOf d k.inst < (instOf d
      k.inst).records ∧ allocRecs d 1 = some [n]) ∧
    (∃ (s : State) (d : Dev), ∃ tag k r h y, Begins s d ∧ cmdOf d tag = some k ∧ k.stage = .held ∧ k.result = some r ∧ fenceOpen d k.epoch = true
      ∧ bit k.desc.flags flORDERED = false ∧ d.sys.draining = none ∧ k.counted = [] ∧ k.tickets = [] ∧ firstPart k r = false ∧ k.mute = true ∧
      r.effects = [.destroy h] ∧ standing d h = some y ∧ hClass y.handle ≠ 0 ∧ hClass h ≠ 0 ∧ y.exts = [] ∧ hGen y.handle < 0xFFF ∧ engineUses d
      (hRec h) = false) ∧
    (∃ (s : State) (d : Dev), ∃ r rest sup, Begins s d ∧ d.evr.held = r :: rest ∧ bufBytes d + (recBytes r 0 0 false).length ≤ 65536 ∧ 5 ≤ r.sev
      ∧ r.clear = none ∧ sup = smapGet zeroAt d.evr.suppressed r.code) ∧
    (∃ (s : State) (d : Dev), ∃ inst q at' l f m, Begins s d ∧ inst < 1024 ∧ q < 16 ∧ smapGet noneAt d.cmd.coalAt (qKey inst q) = some at' ∧ qFld
      d inst q Reg.CQ_CFG_COAL_TIME ≠ 0 ∧ qFld d inst q Reg.CQ_CFG_IRQ_EN = 1 ∧ instFn d inst = some (l, f) ∧ vfResponds d l f = true ∧ ideOpen d
      l f = true ∧ stopped d.sys.mode = false ∧ d.sys.mode ≠ .holdup ∧ m = smapGet msixReset (fnOf d l f).msix q ∧ m.masked = false) ∧
    (∃ (s : State) (d : Dev), ∃ i k r, Begins s d ∧ i < 28 ∧ (unitOf d i).job = some k ∧ k.result = some r ∧ fenceOpen d k.epoch = true ∧
      r.effects = [] ∧ k.counted = [] ∧ k.tickets = [] ∧ r.stream = [] ∧ r.out = [] ∧ r.auxOut = [] ∧ (∀ x, x ∈ d.shadow → keyOnPage (unitPage i)
      x.1 = false) ∧ r.status < 2 ^ 16) :=
  ⟨⟨(st (wEgress.getD 0 svc)), _, 7, (cmd1 (wEgress.getD 0 svc)), ⟨0, 0, 0, 0, (ramp 32), 32, [], [], []⟩, (begins_st _ rfl rfl rfl),
    (by decide +kernel)⟩,
   ⟨(st (wEgress.getD 1 svc)), _, 7, (cmd1 (wEgress.getD 1 svc)), ⟨0, 0, 0, 0, (ramp 32), 32, [], [], []⟩, 0, 2, _, _, _, _, _, _,
     (begins_st _ rfl rfl rfl), (by decide +kernel), (by decide +kernel), (by decide +kernel), (by decide +kernel), (by decide +kernel),
     (by decide +kernel), (by decide +kernel), (by decide +kernel), (by decide +kernel), (by decide +kernel), (by decide +kernel),
     (by decide +kernel), (by decide +kernel), (by decide +kernel), (by decide +kernel), (by decide +kernel), (by decide +kernel),
     (by decide +kernel), (by decide +kernel), (by decide +kernel), (by decide +kernel), (by decide +kernel), rfl, (by decide +kernel), rfl, rfl,
     rfl, rfl, rfl⟩,
   ⟨(st egressCommandsState2), _, 7, (cmd1 egressCommandsState2), { okOut [] with effects := [.create aes 2 1 9 true none] }, aes, 2, 9, true, 0,
     (begins_st _ rfl rfl rfl), (by decide +kernel)⟩,
   ⟨(st egressCommandsState3), _, 7, (cmd1 egressCommandsState3), { okOut [] with effects := [.destroy (1 + 2 ^ 52 + 2 ^ 54)] }, (1 + 2 ^ 52 + 2
     ^ 54), (keyIn egressCommandsState3), (begins_st _ rfl rfl rfl), (by decide +kernel)⟩,
   ⟨(st (wEgress.getD 2 svc)), _, ⟨3, 7, 1028, 0, false, [], none⟩, [], _, (begins_st _ rfl rfl rfl), (by decide +kernel), (by decide +kernel),
     (by decide +kernel), (by decide +kernel), rfl⟩,
   ⟨(st (setQ 1 1 Reg.CQ_CFG_IRQ_EN 1 (wEgress.getD 3 svc))), _, 1, 1, 100, 0, 2, _, (begins_st _ rfl rfl rfl), (by decide +kernel),
     (by decide +kernel), (by decide +kernel), (by decide +kernel), (by decide +kernel), (by decide +kernel), (by decide +kernel),
     (by decide +kernel), (by decide +kernel), (by decide +kernel), rfl, (by decide +kernel)⟩,
   ⟨(st (wEgress.getD 4 svc)), _, 16, (((unitOf (wEgress.getD 4 svc) 16).job).getD (cmd1 (wEgress.getD 4 svc))), ⟨0, 0, 5, 0, [], 0, [], [], []⟩,
     (begins_st _ rfl rfl rfl), (by decide +kernel)⟩⟩

/-- The job of the digest unit that the witness runs. -/
def jobJ : Dev := wJobPort.getD 1 svc

theorem job_read : jobRead 16 (jobC jobJ 16) (jobD2 jobJ 16) = (.ok (jobC1 jobJ 16), none, jobD2 jobJ 16) :=
  pair_of (except_of (by decide +kernel)) (pair_of (by decide +kernel) (by decide +kernel))
theorem job_policy : policyRun [] (jobC1 jobJ 16) (setJob 16 (jobC1 jobJ 16) (jobD2 jobJ 16)) = .pass (jobPass jobJ 16).1 (jobPass jobJ 16).2 :=
  jobPass_eq _ _ (by decide +kernel)
theorem job_opcode : jobOp (jobPass jobJ 16).1.desc.opcode = some opHash :=
  (congrArg jobOp (by decide +kernel : (jobPass jobJ 16).1.desc.opcode = 0x0401)).trans jobOp_hash
theorem job_runs : runChecked 16 0 opHash (jobCr jobJ 16) (jobD4 jobJ 16)
    = .done (okOut (hashRun (jobCr jobJ 16).desc.param (srcOf (jobCr jobJ 16))))
      (readsOver (cmdQuarter (jobCr jobJ 16) (jobD4 jobJ 16)) (readerOf (jobCr jobJ 16)) (jobD4 jobJ 16)) :=
  hashJob_checked _ _ (by decide +kernel)

theorem JobPortCommands_met :
    ∃ (s : State) (d : Dev) (d1 : Dev) (e1 : Dev) (d2 : Dev) (e2 : Dev) (d3 : Dev) (dk : Dev) (d4 : Dev) (d6 : Dev) (a : Access) (i : Nat) (val :
      Nat) (chk : Nat) (b : Bytes) (tg : Option Nat) (tg2 : Option Nat) (c : Cmd) (c0 : Cmd) (c' : Cmd) (c2 : Cmd) (cr : Cmd) (f : OpFn) (r :
      Result), Begins s d ∧ AwakeFor d a ∧ i < 28 ∧ chk < 2 ∧ d1 = (judge a (unitPage i) 0x05C val d).d ∧ (judge a (unitPage i) 0x05C val d).took
      Reg.SYM_JOB_CTL_GO = true ∧ bit val 31 = true ∧ d1 = { d with regs := d1.regs, shadow := d1.shadow } ∧ pagesBut [unitPage i] d d1 ∧
      d.sys.mode ≠ .holdup ∧ stopped d.sys.mode = false ∧ (unitOf d i).job = none ∧ (unitOf d i).cur = none ∧ (unitOf d i).oos = false ∧ (hdrOf
      d1 (unitPage i)).drain = false ∧ (hdrOf d1 (unitPage i)).enable = true ∧ secureRange d1 (fldPair d1 (unitPage i) Reg.SYM_JOB_LO_ADDR_LO
      Reg.SYM_JOB_HI_ADDR_HI) 64 = true ∧ jobFetch i 0 (fldPair d1 (unitPage i) Reg.SYM_JOB_LO_ADDR_LO Reg.SYM_JOB_HI_ADDR_HI) 64 none d1 = (.ok
      b, tg, e1) ∧ e1 = { d1 with mpe := e1.mpe, regs := e1.regs } ∧ pagesBut [pgMPE, pgMPE1] d1 e1 ∧ fldB d1 (unitPage i) Reg.SYM_JOB_CTL_ROMKEY
      = false ∧ c =
      { freshCmd 0 (fld d1 (unitPage i) Reg.SYM_JOB_CTL_INSTANCE) 0 0 (2, 2) b with unit := some i, quarter := unitQuarter i, epoch := tg } ∧
      jobFault i false c.desc = none ∧ d2 = modUnit i (fun u => { u with jobRom := false }) (setFld (setFld e1 (unitPage i) Reg.SYM_JOB_STAT_BUSY
      1) (unitPage i) Reg.SYM_JOB_STAT_DONE 0) ∧ jobRead i c d2 = (.ok c0, tg2, e2) ∧ e2 = { d2 with mpe := e2.mpe, regs := e2.regs } ∧ pagesBut
      [pgMPE, pgMPE1] d2 e2 ∧ c' = { c0 with epoch := tg2 } ∧ quarterServes d (unitQuarter i) = true ∧ restoring d = false ∧ policyRun [] c'
      (setJob i c' e2) = .pass c2 d3 ∧ d3 = { setJob i c' e2 with mpe := d3.mpe, regs := d3.regs, key := d3.key, ofc := d3.ofc } ∧ pagesBut
      [pgMPE, pgMPE1] e2 d3 ∧ c2.result = none ∧ (∀ n, n ∈ c2.counted → (residentOf d3 n).isSome = true) ∧ d3.mpe.halting = false ∧
      d3.mpe.failing = none ∧ dk = setJob i { c2 with stage := .run, keyed := c2.counted.isEmpty } d3 ∧ cr =
      { c2 with stage := .run, keyed := true } ∧ d4 = (if c2.counted.isEmpty then dk else setJob i cr (wrapFld dk pgKS3 Reg.KS_STAT_HIT_HIT
      c2.counted.length)) ∧ jobOp c2.desc.opcode = some f ∧ runChecked i chk f cr d4 = .done r d6 ∧ d6 =
      { d4 with ent := d6.ent, units := d6.units, key := d6.key } ∧ (∀ j, j ≠ i → unitOf d6 j = unitOf d4 j) :=
  ⟨(st jobJ), jobJ, jobD1 jobJ 16, jobD1 jobJ 16, jobD2 jobJ 16, jobD2 jobJ 16, (jobPass jobJ 16).2, jobDk jobJ 16, jobD4 jobJ 16, _, acc, 16, 2
    ^ 31, 0, memBytes jobJ jobBase 64, none, none, jobC jobJ 16, jobC1 jobJ 16, jobC1 jobJ 16, (jobPass jobJ 16).1, jobCr jobJ 16, opHash, okOut
    (hashRun (jobCr jobJ 16).desc.param (srcOf (jobCr jobJ 16))), (begins_st _ rfl rfl rfl), (awakeFor_st _ _ (by decide +kernel)),
    (by decide +kernel), (by decide +kernel), rfl, (by decide +kernel), (by decide +kernel), (by decide +kernel), (pages_same _ _ _
    (by decide +kernel)), (by decide +kernel), (by decide +kernel), (by decide +kernel), (by decide +kernel), (by decide +kernel),
    (by decide +kernel), (by decide +kernel), (by decide +kernel), (jobFetch_plain _ _ _ _ _ _ (by decide +kernel)), (by decide +kernel),
    (pages_same _ _ _ rfl), (by decide +kernel), (by decide +kernel), (by decide +kernel), (by decide +kernel), job_read, (by decide +kernel),
    (pages_same _ _ _ rfl), (by decide +kernel), (by decide +kernel), (by decide +kernel), job_policy, (by decide +kernel), (pages_same _ _ _
    (by decide +kernel)), (by decide +kernel), (by decide +kernel), (by decide +kernel), (by decide +kernel), (by decide +kernel),
    (by decide +kernel), (jobD4_eq _ _), job_opcode, job_runs, (readsOver_parts _ _ _).1, (readsOver_parts _ _ _).2⟩

theorem VaultCommands_met :
    (∃ (s : State) (d : Dev), ∃ tag k n b v x, Begins s d ∧ cmdOf d tag = some k ∧ k.stage = .policy ∧ t2Loads d.sys.mode = true ∧ namesKey
      k.desc false = true ∧ namesKey k.desc true = false ∧ n = hRec k.desc.key ∧ needsDemand d n = true ∧ vaultPick d n = some (b, v) ∧ v.epoch =
      d.key.epoch ∧ v.body = .key x ∧ x.exts = []) ∧
    (∃ (s : State) (d : Dev), ∃ n b v x, Begins s d ∧ restoring d = true ∧ (d.sys.mode = .service ∨ d.sys.mode = .ceremony ∨ d.sys.mode =
      .diagnostic) ∧ nextCopy d d.key.frontier = some n ∧ (nextCopy d (n + 1)).isSome = true ∧ vaultPick d n = some (b, v) ∧ v.epoch =
      d.key.epoch ∧ v.body = .key x ∧ t1Of d n = .free 0) ∧
    (∃ (s : State) (d : Dev), Begins s d ∧ restoring d = true ∧ (d.sys.mode = .service ∨ d.sys.mode = .ceremony ∨ d.sys.mode = .diagnostic) ∧
      nextCopy d d.key.frontier = none ∧ d.key.state = .restoring) ∧
    (∃ (s : State) (d : Dev), ∃ at', Begins s d ∧ vaultWorks d.sys.mode = true ∧ d.key.closeAt = some at') ∧
    (∃ (s : State) (d : Dev), ∃ n, ∃ (e : VaultEnt), ∃ fails ctr d', ∃ (copy : VaultCopy) (old : Homes) (new : Homes), Begins s d ∧ vaultWorks
      d.sys.mode = true ∧ vaultWritable d = true ∧ vaultBatch d = [e] ∧ e.recNo = n ∧ ctr = vaultCtr d + 1 ∧ d.key.frozen = false ∧ d' = t1Sure
      [] n d ∧ d'.mpe.failing = none ∧ d'.key = { d.key with t1w := d'.key.t1w } ∧ copy = ⟨bodyGen e.body, d.key.epoch, ctr, e.body, false⟩ ∧ old
      = smapGet (fun _ => (⟨none, none⟩ : Homes)) d.key.homes n ∧ new = (if (vaultPick d n).map (·.1) = some false then
      { old with b := some copy } else { old with a := some copy }) ∧ fails ≤ d.key.spares ∧ d.key.cells.length = 64 ∧ d.key.repairDue = []) ∧
    (∃ (s : State) (d : Dev), ∃ n, ∃ (e : VaultEnt), ∃ ctr d', ∃ (copy : VaultCopy) (old : Homes) (new : Homes), ∃ st, Begins s d ∧ vaultWorks
      d.sys.mode = true ∧ vaultWritable d = true ∧ vaultBatch d = [e] ∧ e.recNo = n ∧ ctr = vaultCtr d + 1 ∧ d.key.frozen = false ∧ d' = t1Sure
      [] n d ∧ d'.mpe.failing = none ∧ d'.key = { d.key with t1w := d'.key.t1w } ∧ copy = ⟨bodyGen e.body, d.key.epoch, ctr, e.body, false⟩ ∧ old
      = smapGet (fun _ => (⟨none, none⟩ : Homes)) d.key.homes n ∧ new = (if (vaultPick d n).map (·.1) = some false then
      { old with b := some copy } else { old with a := some copy }) ∧ st ∈ [1, 2]) ∧
    (∃ (s : State) (d : Dev), ∃ n h, Begins s d ∧ vaultWorks d.sys.mode = true ∧ vaultWritable d = true ∧ (d.key.homes.find? (fun kv => hasOld
      d.key.epoch kv.2)).map (·.1) = some n ∧ h = smapGet (fun _ => (⟨none, none⟩ : Homes)) d.key.homes n) :=
  ⟨⟨(st (wVault.getD 0 svc)), _, 7, (cmd1 (wVault.getD 0 svc)), _, false, ⟨1, 0, 0, .key (aKey 0x0012 32 5), true⟩, (aKey 0x0012 32 5),
    (begins_st _ rfl rfl rfl), (by decide +kernel), (by decide +kernel), (by decide +kernel), (by decide +kernel), (by decide +kernel), rfl,
    (by decide +kernel)⟩,
   ⟨(st (wVault.getD 1 svc)), _, 5, false, ⟨1, 0, 0, .key (aKey 0x0012 32 5), true⟩, (aKey 0x0012 32 5), (begins_st _ rfl rfl rfl),
     (by decide +kernel)⟩,
   ⟨(st (wVault.getD 2 svc)), _, (begins_st _ rfl rfl rfl), (by decide +kernel)⟩,
   ⟨(st (wVault.getD 3 svc)), _, 40, (begins_st _ rfl rfl rfl), (by decide +kernel)⟩,
   ⟨(st (wVault.getD 4 svc)), _, _, ⟨5, .key (aKey 0x0012 32 5), some 0⟩, 0, _, _, _, _, _, (begins_st _ rfl rfl rfl), (by decide +kernel),
     (by decide +kernel), (by decide +kernel), rfl, rfl, (by decide +kernel), rfl, (by decide +kernel), (by decide +kernel), rfl, rfl, rfl,
     (by decide +kernel)⟩,
   ⟨(st (wVault.getD 4 svc)), _, _, ⟨5, .key (aKey 0x0012 32 5), some 0⟩, _, _, _, _, _, 1, (begins_st _ rfl rfl rfl), (by decide +kernel),
     (by decide +kernel), (by decide +kernel), rfl, rfl, (by decide +kernel), rfl, (by decide +kernel), (by decide +kernel), rfl, rfl, rfl,
     (by decide +kernel)⟩,
   ⟨(st (wVault.getD 5 svc)), _, 5, _, (begins_st _ rfl rfl rfl), (by decide +kernel), (by decide +kernel), (by decide +kernel), rfl⟩⟩

theorem KeyStoreCommands_met1 :
    (∃ (s : State) (d : Dev) (n : Nat) (x : KeyRec), ∃ at', Begins s d ∧ keyAt d n = some x ∧ (instOf d (hInst x.handle)).run ≠ .frozen ∧
      vaultWritable d = true ∧ vaultRoom d 1 = true ∧ hClass x.handle = 0 ∧ (∀ e, e ∈ d.key.queue → e.recNo = n → e.batch ≠ none) ∧ smapGet
      noneAt d.key.usageDue n = some at' ∧ vaultWorks d.sys.mode = true) ∧
    (∃ (s : State) (d : Dev) (n : Nat) (x : KeyRec), ∃ v y, Begins s d ∧ keyAt d n = some x ∧ (instOf d (hInst x.handle)).run ≠ .frozen ∧
      vaultWritable d = true ∧ vaultRoom d 1 = true ∧ hClass x.handle = 0 ∧ (∀ e, e ∈ d.key.queue → e.recNo = n → e.batch ≠ none) ∧ smapGet
      noneAt d.key.usageRaise n = some (v, false) ∧ fenceOpen d none = true ∧ x.resv < x.limit ∧ y =
      { x with resv := x.resv + min 1024 (x.limit - x.resv), persisted := false }) ∧
    (∃ (s : State) (d : Dev) (n : Nat) (x : KeyRec), ∃ v, Begins s d ∧ keyAt d n = some x ∧ (instOf d (hInst x.handle)).run ≠ .frozen ∧
      vaultWritable d = true ∧ vaultRoom d 1 = true ∧ hClass x.handle = 0 ∧ (∀ e, e ∈ d.key.queue → e.recNo = n → e.batch ≠ none) ∧ smapGet
      noneAt d.key.usageRaise n = some (v, false) ∧ fenceOpen d none = true ∧ x.limit ≤ x.resv) ∧
    (∃ (s : State) (d : Dev) (n : Nat) (x : KeyRec), ∃ v e y, Begins s d ∧ keyAt d n = some x ∧ (instOf d (hInst x.handle)).run ≠ .frozen ∧
      vaultWritable d = true ∧ vaultRoom d 1 = true ∧ hClass x.handle = 0 ∧ (∀ e, e ∈ d.key.queue → e.recNo = n → e.batch ≠ none) ∧ smapGet
      noneAt d.key.nonceRaise n = some (v, e) ∧ fenceOpen d e = true ∧ y = { x with nonceResv := max x.nonceResv v, persisted := false }) ∧
    (∃ (s : State) (d : Dev) (n : Nat) (x : KeyRec), ∃ v e, Begins s d ∧ keyAt d n = some x ∧ (instOf d (hInst x.handle)).run ≠ .frozen ∧ hClass
      x.handle ≠ 0 ∧ smapGet noneAt d.key.nonceRaise n = some (v, e) ∧ fenceOpen d e = true) ∧
    (∃ (s : State) (d : Dev) (n : Nat) (x : KeyRec), Begins s d ∧ keyAt d n = some x ∧ (instOf d (hInst x.handle)).run ≠ .frozen ∧ smapGet
      falseAt d.key.noticed n = true ∧ hClass x.handle ≠ 0 ∧ x.exts = [] ∧ engineUses d n = false) ∧
    (∃ (s : State) (d : Dev) (a : Access), ∃ q b rs, Begins s d ∧ AwakeFor d a ∧ (admitWrite (seenAs a) pgKS 0x044 d).1 = some .ks0 ∧ d.key.busy
      = false ∧ takesJobs d pgKS = true ∧ d.sys.mode ≠ .holdup ∧ stopped d.sys.mode = false ∧ fieldCode (seenAs a) pgKS 1 d Reg.KS_CMD_OP = 0 ∧
      rootAllowed d (seenAs a) = true ∧ q = homelessQuarter d ∧ RandomAt d q 64 ∧ b = (drbgOf d q).buf.take 64 ∧ rs = rootKeys b d.fuse.secret
      d.key.taint) ∧
    (∃ (s : State) (d : Dev) (a : Access), Begins s d ∧ AwakeFor d a ∧ (admitWrite (seenAs a) pgKS 0x044 d).1 = some .ks0 ∧ d.key.busy = false ∧
      takesJobs d pgKS = true ∧ d.sys.mode ≠ .holdup ∧ stopped d.sys.mode = false ∧ fieldCode (seenAs a) pgKS 2 d Reg.KS_CMD_OP = 0 ∧
      d.key.closeAt.isSome = true) :=
  ⟨⟨(st (wUpkeep.getD 0 svc)), _, 1, (keyIn (wUpkeep.getD 0 svc)), 30, (begins_st _ rfl rfl rfl), (by decide +kernel)⟩,
   ⟨(st keyStoreCommandsState1), _, 1, (keyIn keyStoreCommandsState1), 70, _, (begins_st _ rfl rfl rfl), (by decide +kernel),
     (by decide +kernel), (by decide +kernel), (by decide +kernel), (by decide +kernel), (by decide +kernel), (by decide +kernel),
     (by decide +kernel), (by decide +kernel), rfl⟩,
   ⟨(st (wUpkeep.getD 1 svc)), _, 1, (keyIn (wUpkeep.getD 1 svc)), 70, (begins_st _ rfl rfl rfl), (by decide +kernel)⟩,
   ⟨(st (wUpkeep.getD 2 svc)), _, 1, (keyIn (wUpkeep.getD 2 svc)), 70, none, _, (begins_st _ rfl rfl rfl), (by decide +kernel),
     (by decide +kernel), (by decide +kernel), (by decide +kernel), (by decide +kernel), (by decide +kernel), (by decide +kernel),
     (by decide +kernel), rfl⟩,
   ⟨(st (wUpkeep.getD 3 svc)), _, 1, (keyIn (wUpkeep.getD 3 svc)), 70, none, (begins_st _ rfl rfl rfl), (by decide +kernel)⟩,
   ⟨(st (wUpkeep.getD 4 svc)), _, 1, (keyIn (wUpkeep.getD 4 svc)), (begins_st _ rfl rfl rfl), (by decide +kernel)⟩,
   ⟨(st (wUpkeep.getD 0 svc)), _, acc, _, _, _, (begins_st _ rfl rfl rfl), (awakeFor_st _ _ (by decide +kernel)), (by decide +kernel),
     (by decide +kernel), (by decide +kernel), (by decide +kernel), (by decide +kernel), (by decide +kernel), (by decide +kernel), rfl,
     (by unfold RandomAt NoReads; decide +kernel), rfl, rfl⟩,
   ⟨(st (wStore.getD 1 svc)), _, acc, (begins_st _ rfl rfl rfl), (awakeFor_st _ _ (by decide +kernel)), (by decide +kernel)⟩⟩

theorem KeyStoreCommands_met2 :
    ∃ (s : State) (d : Dev) (a : Access), Begins s d ∧ AwakeFor d a ∧ (admitWrite (seenAs a) pgKS 0x044 d).1 = some .ks0 ∧ d.key.busy = false ∧
      takesJobs d pgKS = true ∧ d.sys.mode ≠ .holdup ∧ stopped d.sys.mode = false ∧ fieldCode (seenAs a) pgKS 3 d Reg.KS_CMD_OP = 0 :=
  ⟨(st (wUpkeep.getD 0 svc)), _, acc, (begins_st _ rfl rfl rfl), (awakeFor_st _ _ (by decide +kernel)), (by decide +kernel)⟩

theorem SupplyCommands_met :
    (∃ (s : State) (d : Dev), Begins s d ∧ d.sys.mode = .vigil ∧ d.sup.p12vGood = true ∧ d.sup.pwrFail = false ∧ d.lc.op = none ∧ d.nv.journal =
      none ∧ d.fuse.lc0 = 0 ∧ d.fuse.lc1 = 0 ∧ d.fuse.lc2 = 0) ∧
    (∃ (s : State) (d : Dev), ∃ mv fail, Begins s d ∧ (mv < 10200 ∨ fail = true) ∧ savable d.sys.mode = true ∧ d.lc.op = none) ∧
    (∃ (s : State) (d : Dev), ∃ mv fail, Begins s d ∧ (mv < 10200 ∨ fail = true) ∧ savable d.sys.mode = false ∧ stopped d.sys.mode = false) ∧
    (∃ (s : State) (d : Dev), Begins s d ∧ d.sys.mode = .vigil ∧ d.sup.p12vGood = false ∧ d.sup.auxGood = false) ∧
    (∃ (s : State) (d : Dev), ∃ p12 aux vbat cell fail n, Begins s d ∧ lantSupply (supPut p12 aux vbat cell fail d).sup = some n ∧ d.sys.mode =
      .vigil) ∧
    (∃ (s : State) (d : Dev), ∃ p12 aux vbat cell fail n, Begins s d ∧ lantSupply (supPut p12 aux vbat cell fail d).sup = some n ∧ d.sys.mode =
      .off) :=
  ⟨⟨(st (wSupply.getD 0 svc)), _, (begins_st _ rfl rfl rfl), (by decide +kernel)⟩,
   ⟨(st (wSupply.getD 1 svc)), _, 0, false, (begins_st _ rfl rfl rfl), (by decide +kernel)⟩,
   ⟨(st (wSupply.getD 0 svc)), _, 0, false, (begins_st _ rfl rfl rfl), (by decide +kernel)⟩,
   ⟨(st (wSupply.getD 3 svc)), _, (begins_st _ rfl rfl rfl), (by decide +kernel)⟩,
   ⟨(st (wSupply.getD 0 svc)), _, 0, 0, 0, 3, false, 2, (begins_st _ rfl rfl rfl), (by decide +kernel)⟩,
   ⟨(st (wSupply.getD 4 svc)), _, 0, 0, 0, 3, false, 2, (begins_st _ rfl rfl rfl), (by decide +kernel)⟩⟩

theorem BankAndWearCommands_met :
    (∃ (s : State) (d : Dev), Begins s d ∧ dieOn d.sys.mode = true ∧ d.sup.p12vGood = true ∧ d.sys.stage ≠ .charging) ∧
    (∃ (s : State) (d : Dev), ∃ n, Begins s d ∧ n = fld d pgHOLD Reg.HOLD_CFG_MEAS_H ∧ d.sys.mode = .drowse ∧ n ≠ 0 ∧ d.hearth.measuring = false
      ∧ bankLcOk { d with sup := { d.sup with bankMv := d.sup.bankMv - 1000 } } = true) ∧
    (∃ (s : State) (d : Dev), ∃ cap esr d1, Begins s d ∧ d.hearth.measuring = true ∧ d1 =
      { d with nv := { d.nv with capUf := min 65535 cap, esrMohm := min 65535 esr, measAt := d.now } } ∧ (bankLimit (eUse d1 (vTarget d1))).2 =
      false) ∧
    (∃ (s : State) (d : Dev), Begins s d ∧ dieOn d.sys.mode = true ∧ d.hearth.stale = false) ∧
    (∃ (s : State) (d : Dev) (used : List Nat), ∃ top, Begins s d ∧ dieOn d.sys.mode = true ∧ top = fld d pgWEAR Reg.WEAR_CFG_ALARM ∧ (∀ n, n <
      14 → (n ∈ [5, 6, 12, 13] → wearUsed d n < top) ∧ (n ∉ [5, 6, 12, 13] → min 10000 (used.getD n (wearUsed d n)) < top))) :=
  ⟨⟨(st (wBank.getD 0 svc)), _, (begins_st _ rfl rfl rfl), (by decide +kernel)⟩,
   ⟨(st (wBank.getD 1 svc)), _, _, (begins_st _ rfl rfl rfl), rfl, (by decide +kernel)⟩,
   ⟨(st (wBank.getD 2 svc)), _, 2200, 0, _, (begins_st _ rfl rfl rfl), (by decide +kernel), rfl, (by decide +kernel)⟩,
   ⟨(st (wBank.getD 0 svc)), _, (begins_st _ rfl rfl rfl), (by decide +kernel)⟩,
   ⟨(st (wBank.getD 0 svc)), _, [], _, (begins_st _ rfl rfl rfl), (by decide +kernel), rfl, (by decide +kernel)⟩⟩

theorem PowerCommands_met1 :
    (∃ (s : State) (d : Dev), ∃ a p val k h, Begins s d ∧ AwakeFor d a ∧ (admitWrite (seenAs a) p 0x034 d).1 = some k ∧ (pageCap k).pwr = true ∧
      h = hdrOf d p ∧ h.softRst = false ∧ val < 2 ^ 32 ∧ bits val 1 0 = 0) ∧
    (∃ (s : State) (d : Dev), ∃ a p val k h, Begins s d ∧ AwakeFor d a ∧ (admitWrite (seenAs a) p 0x034 d).1 = some k ∧ (pageCap k).pwr = true ∧
      h = hdrOf d p ∧ h.softRst = false ∧ val < 2 ^ 32 ∧ (bits val 1 0 = 1 ∨ bits val 1 0 = 2) ∧ jobsHeld d p = false ∧ k ≠ .ent) ∧
    (∃ (s : State) (d : Dev), ∃ a p val k h, Begins s d ∧ AwakeFor d a ∧ (admitWrite (seenAs a) p 0x034 d).1 = some k ∧ (pageCap k).pwr = true ∧
      h = hdrOf d p ∧ h.softRst = false ∧ val < 2 ^ 32 ∧ (bits val 1 0 = 1 ∨ bits val 1 0 = 2) ∧ jobsHeld d p = true ∧ (seenAs a).sec = true) ∧
    (∃ (s : State) (d : Dev), ∃ p h, Begins s d ∧ h = hdrOf d p ∧ h.pwrPend = true ∧ jobsHeld d p = false ∧ pageKind p ≠ some .ent) ∧
    (∃ (s : State) (d : Dev), ∃ a q val req, Begins s d ∧ AwakeFor d a ∧ (admitWrite (seenAs a) pgPWR 0x040 d).1 = some .pwr ∧ (hdrOf d
      pgPWR).softRst = false ∧ 1 ≤ q ∧ q < 4 ∧ val < 2 ^ 8 ∧ req = fld d pgPWR Reg.PWR_QREQ_REQ ∧ (quarterOf d q).disabled = false ∧ (quarterOf d
      q).pend = none ∧ (∀ r, r < 4 → r ≠ q → bits val (2 * r + 1) (2 * r) = bits req (2 * r + 1) (2 * r)) ∧ bits val (2 * q + 1) (2 * q) ≠ bits
      req (2 * q + 1) (2 * q) ∧ bits val (2 * q + 1) (2 * q) = 0 ∧ (quarterOf d q).pwr = .gated ∧ (quarterOf d q).lost = false) ∧
    (∃ (s : State) (d : Dev), ∃ a q val req, Begins s d ∧ AwakeFor d a ∧ (admitWrite (seenAs a) pgPWR 0x040 d).1 = some .pwr ∧ (hdrOf d
      pgPWR).softRst = false ∧ 1 ≤ q ∧ q < 4 ∧ val < 2 ^ 8 ∧ req = fld d pgPWR Reg.PWR_QREQ_REQ ∧ (quarterOf d q).disabled = false ∧ (quarterOf d
      q).pend = none ∧ (∀ r, r < 4 → r ≠ q → bits val (2 * r + 1) (2 * r) = bits req (2 * r + 1) (2 * r)) ∧ bits val (2 * q + 1) (2 * q) ≠ bits
      req (2 * q + 1) (2 * q) ∧ bits val (2 * q + 1) (2 * q) = 1 ∧ (quarterOf d q).pwr = .on ∧ quarterWork d q .gated = false) ∧
    (∃ (s : State) (d : Dev), ∃ q, Begins s d ∧ q < 4 ∧ (quarterOf d q).pend = some .gated ∧ (quarterOf d q).pwr = .on ∧ quarterWork d q .gated =
      false) ∧
    (∃ (s : State) (d : Dev), ∃ h src, Begins s d ∧ d.sys.mode = .drowse ∧ (cardOf d 0).present = false ∧ (cardOf d 1).present = false ∧ (∀ kv,
      kv ∈ d.mgr.insts → kv.2.run ≠ .resetting) ∧ h < 16 ∧ d.hearth.drowseHart = some h ∧ wakeSeen d src = true) :=
  ⟨⟨(st (wPower.getD 0 svc)), _, acc, (pgSYM 0), 0, PageKind.sym, _, (begins_st _ rfl rfl rfl), (awakeFor_st _ _ (by decide +kernel)),
    (by decide +kernel), (by decide +kernel), rfl, (by decide +kernel)⟩,
   ⟨(st (wPower.getD 0 svc)), _, acc, (pgSYM 0), 1, PageKind.sym, _, (begins_st _ rfl rfl rfl), (awakeFor_st _ _ (by decide +kernel)),
     (by decide +kernel), (by decide +kernel), rfl, (by decide +kernel)⟩,
   ⟨(st (wPower.getD 1 svc)), _, acc, (pgSYM 0), 1, PageKind.sym, _, (begins_st _ rfl rfl rfl), (awakeFor_st _ _ (by decide +kernel)),
     (by decide +kernel), (by decide +kernel), rfl, (by decide +kernel)⟩,
   ⟨(st (wPower.getD 2 svc)), _, (pgSYM 0), _, (begins_st _ rfl rfl rfl), rfl, (by decide +kernel)⟩,
   ⟨(st (wPower.getD 3 svc)), _, acc, 1, 0, _, (begins_st _ rfl rfl rfl), (awakeFor_st _ _ (by decide +kernel)), (by decide +kernel),
     (by decide +kernel), (by decide +kernel), (by decide +kernel), (by decide +kernel), rfl, (by decide +kernel)⟩,
   ⟨(st (wPower.getD 0 svc)), _, acc, 1, 4, _, (begins_st _ rfl rfl rfl), (awakeFor_st _ _ (by decide +kernel)), (by decide +kernel),
     (by decide +kernel), (by decide +kernel), (by decide +kernel), (by decide +kernel), rfl, (by decide +kernel)⟩,
   ⟨(st (wPower.getD 4 svc)), _, 1, (begins_st _ rfl rfl rfl), (by decide +kernel)⟩,
   ⟨(st (wPower.getD 5 svc)), _, 3, 1, (begins_st _ rfl rfl rfl), (by decide +kernel)⟩⟩

theorem PowerCommands_met2 :
    (∃ (s : State) (d : Dev), ∃ h l, Begins s d ∧ d.sys.mode = .drowse ∧ (cardOf d 0).present = false ∧ (cardOf d 1).present = false ∧ (∀ kv, kv
      ∈ d.mgr.insts → kv.2.run ≠ .resetting) ∧ h < 16 ∧ d.hearth.drowseHart = some h ∧ l < 2 ∧ (linkOf d l).up = true) ∧
    (∃ (s : State) (d : Dev), ∃ h n, Begins s d ∧ d.sys.mode = .drowse ∧ (cardOf d 0).present = false ∧ (cardOf d 1).present = false ∧ (∀ kv, kv
      ∈ d.mgr.insts → kv.2.run ≠ .resetting) ∧ h < 16 ∧ d.hearth.drowseHart = some h ∧ n = fld d pgPWR Reg.PWR_WAKE_TMR_TICKS ∧ n ≠ 0) ∧
    (∃ (s : State) (d : Dev), ∃ n, Begins s d ∧ ((n < 4 ∧ (quarterOf d n).pll = true) ∨ (n = 4 ∧ d.hearth.diePll = true))) :=
  ⟨⟨(st (wPower.getD 5 svc)), _, 3, 0, (begins_st _ rfl rfl rfl), (by decide +kernel)⟩,
   ⟨(st (wPower.getD 5 svc)), _, 3, _, (begins_st _ rfl rfl rfl), (by decide +kernel), (by decide +kernel), (by decide +kernel),
     (by decide +kernel), (by decide +kernel), (by decide +kernel), rfl, (by decide +kernel)⟩,
   ⟨(st (wPower.getD 0 svc)), _, 0, (begins_st _ rfl rfl rfl), (by decide +kernel)⟩⟩

theorem LinkCommands_met :
    (∃ (s : State) (d : Dev), Begins s d ∧ dieOn d.sys.mode = false) ∧
    (∃ (s : State) (d : Dev), Begins s d ∧ dieOn d.sys.mode = true ∧ d.sys.draining = none) ∧
    (∃ (s : State) (d : Dev), ∃ l, Begins s d ∧ l < 2 ∧ dieOn d.sys.mode = true ∧ linkInMode (portMode d) l = true ∧ (linkOf d l).up = false ∧
      d.sup.p12vGood = true ∧ (hdrOf d pgHOST).enable = true ∧ linkIsUsb d l = false) ∧
    (∃ (s : State) (d : Dev), ∃ l info, Begins s d ∧ l < 2 ∧ dieOn d.sys.mode = true ∧ linkInMode (portMode d) l = true ∧ (linkOf d l).up = false
      ∧ linkIsUsb d l = false ∧ (linkOf d l).training = true ∧ linkInfoOk d l info = true) ∧
    (∃ (s : State) (d : Dev), ∃ l, Begins s d ∧ l < 2 ∧ dieOn d.sys.mode = true ∧ linkInMode (portMode d) l = true ∧ (linkOf d l).up = false ∧
      linkIsUsb d l = true ∧ d.host.usbAttached = true) ∧
    (∃ (s : State) (d : Dev), ∃ l, Begins s d ∧ l < 2 ∧ (linkOf d l).up = true ∧ d.sys.draining = none) ∧
    (∃ (s : State) (d : Dev), Begins s d ∧ dieOn d.sys.mode = true ∧ (linkIsUsb d 0 = true ∨ linkIsUsb d 1 = true) ∧ fldB d pgUSB4
      Reg.USB4_CFG_PORT_EN = true ∧ d.host.usbAttached = false) ∧
    (∃ (s : State) (d : Dev), Begins s d ∧ d.host.usbAttached = true ∧ d.sys.draining = none) :=
  ⟨⟨(st (wLink.getD 0 svc)), _, (begins_st _ rfl rfl rfl), (by decide +kernel)⟩,
   ⟨(st (wLink.getD 1 svc)), _, (begins_st _ rfl rfl rfl), (by decide +kernel)⟩,
   ⟨(st (wLink.getD 2 svc)), _, 0, (begins_st _ rfl rfl rfl), (by decide +kernel)⟩,
   ⟨(st (wLink.getD 4 svc)), _, 0, ⟨16, 5, false⟩, (begins_st _ rfl rfl rfl), (by decide +kernel)⟩,
   ⟨(st (wLink.getD 6 svc)), _, 1, (begins_st _ rfl rfl rfl), (by decide +kernel)⟩,
   ⟨(st (wLink.getD 1 svc)), _, 0, (begins_st _ rfl rfl rfl), (by decide +kernel)⟩,
   ⟨(st (wLink.getD 1 svc)), _, (begins_st _ rfl rfl rfl), (by decide +kernel)⟩,
   ⟨(st (wLink.getD 6 svc)), _, (begins_st _ rfl rfl rfl), (by decide +kernel)⟩⟩

theorem FunctionCommands_met1 :
    (∃ (s : State) (d : Dev) (l : Nat), ∃ n i, Begins s d ∧ l < 2 ∧ Awake d (some l) ∧ cfgServe d l = .serve ∧ d.sys.draining = none ∧ vfResponds
      d l n = true ∧ n ≠ 0 ∧ i = fnInst d l n ∧ i < 1024 ∧ instFn d i = some (l, n)) ∧
    (∃ (s : State) (d : Dev) (l : Nat), Begins s d ∧ l < 2 ∧ Awake d (some l) ∧ cfgServe d l = .serve ∧ d.sys.draining = none ∧ (linkOf d
      l).vfEnable = false) ∧
    (∃ (s : State) (d : Dev) (l : Nat), Begins s d ∧ l < 2 ∧ Awake d (some l) ∧ cfgServe d l = .serve ∧ d.sys.draining = none ∧ (linkOf d
      l).vfEnable = true) ∧
    (∃ (s : State) (d : Dev) (l : Nat), Begins s d ∧ l < 2 ∧ Awake d (some l) ∧ cfgServe d l = .none) ∧
    (∃ (s : State) (d : Dev) (l : Nat), Begins s d ∧ l < 2 ∧ Awake d (some l) ∧ cfgServe d l = .retry) ∧
    (∃ (s : State) (d : Dev) (l : Nat), ∃ fn, Begins s d ∧ l < 2 ∧ Awake d (some l) ∧ cfgServe d l = .serve ∧ fnResponds d l fn = false) ∧
    (∃ (s : State) (d : Dev) (l : Nat), ∃ fn, ∃ (reg : CfgReg), Begins s d ∧ l < 2 ∧ Awake d (some l) ∧ cfgServe d l = .serve ∧ fnResponds d l fn
      = true ∧ (∀ off st, reg ≠ .bar2Word off st)) ∧
    (∃ (s : State) (d : Dev) (l : Nat), ∃ fn st, Begins s d ∧ l < 2 ∧ Awake d (some l) ∧ cfgServe d l = .serve ∧ fnResponds d l fn = true ∧
      ideArrives d l st = false) :=
  ⟨⟨(st (wFunction.getD 0 svc)), _, 0, 1, _, (begins_st _ rfl rfl rfl), (by decide +kernel), (awake_st _ _ (by decide +kernel)),
    (by decide +kernel), (by decide +kernel), (by decide +kernel), (by decide +kernel), rfl, (by decide +kernel)⟩,
   ⟨(st (wFunction.getD 1 svc)), _, 0, (begins_st _ rfl rfl rfl), (by decide +kernel), (awake_st _ _ (by decide +kernel)), (by decide +kernel)⟩,
   ⟨(st (wFunction.getD 0 svc)), _, 0, (begins_st _ rfl rfl rfl), (by decide +kernel), (awake_st _ _ (by decide +kernel)), (by decide +kernel)⟩,
   ⟨(st (wFunction.getD 0 svc)), _, 1, (begins_st _ rfl rfl rfl), (by decide +kernel), (awake_st _ _ (by decide +kernel)), (by decide +kernel)⟩,
   ⟨(st (wFunction.getD 3 svc)), _, 0, (begins_st _ rfl rfl rfl), (by decide +kernel), (awake_st _ _ (by decide +kernel)), (by decide +kernel)⟩,
   ⟨(st (wFunction.getD 0 svc)), _, 0, 9, (begins_st _ rfl rfl rfl), (by decide +kernel), (awake_st _ _ (by decide +kernel)),
     (by decide +kernel)⟩,
   ⟨(st (wFunction.getD 0 svc)), _, 0, 0, .vendorId, (begins_st _ rfl rfl rfl), (by decide +kernel), (awake_st _ _ (by decide +kernel)),
     (by decide +kernel), (by decide +kernel), nofun⟩,
   ⟨(st (setFld (wFunction.getD 0 svc) pgHOST Reg.HOST_CFG_IDE_REQ 1)), _, 0, 0, none, (begins_st _ rfl rfl rfl), (by decide +kernel), (awake_st
     _ _ (by decide +kernel)), (by decide +kernel)⟩⟩

theorem FunctionCommands_met2 :
    (∃ (s : State) (d : Dev) (l : Nat), ∃ fn st vec v, Begins s d ∧ l < 2 ∧ Awake d (some l) ∧ cfgServe d l = .serve ∧ fnResponds d l fn = true ∧
      ideArrives d l st = true ∧ stopped d.sys.mode = false ∧ vec < msixCount fn ∧ v < 2 ^ 32) ∧
    (∃ (s : State) (d : Dev) (l : Nat), ∃ fn v, Begins s d ∧ l < 2 ∧ Awake d (some l) ∧ cfgServe d l = .serve ∧ fnResponds d l fn = true ∧ v ∈
      [128, 256, 512]) ∧
    (∃ (s : State) (d : Dev) (l : Nat), ∃ fn vec st m, Begins s d ∧ l < 2 ∧ Awake d (some l) ∧ cfgServe d l = .serve ∧ fnResponds d l fn = true ∧
      vec < msixCount fn ∧ m = smapGet msixReset (fnOf d l fn).msix vec ∧ (ideArrives d l st = false ∨ stopped d.sys.mode = true)) ∧
    (∃ (s : State) (d : Dev) (l : Nat), ∃ fn vec st m, Begins s d ∧ l < 2 ∧ Awake d (some l) ∧ cfgServe d l = .serve ∧ fnResponds d l fn = true ∧
      vec < msixCount fn ∧ m = smapGet msixReset (fnOf d l fn).msix vec ∧ m.pba = true ∧ ideArrives d l st = true ∧ ideOpen d l fn = true ∧
      stopped d.sys.mode = false ∧ d.sys.mode ≠ .holdup) ∧
    (∃ (s : State) (d : Dev) (l : Nat), ∃ fn vec st m, Begins s d ∧ l < 2 ∧ Awake d (some l) ∧ cfgServe d l = .serve ∧ fnResponds d l fn = true ∧
      vec < msixCount fn ∧ m = smapGet msixReset (fnOf d l fn).msix vec ∧ m.pba = false ∧ ideArrives d l st = true ∧ stopped d.sys.mode = false) ∧
    (∃ (s : State) (d : Dev) (l : Nat), ∃ st, Begins s d ∧ l < 2 ∧ Awake d (some l) ∧ st < 5 ∧ dieOn d.sys.mode = true ∧ (ideOf d l st).secure =
      true) :=
  ⟨⟨(st (wFunction.getD 2 svc)), _, 0, 2, none, 1, 5, (begins_st _ rfl rfl rfl), (by decide +kernel), (awake_st _ _ (by decide +kernel)),
    (by decide +kernel)⟩,
   ⟨(st (wFunction.getD 0 svc)), _, 0, 0, (128), (begins_st _ rfl rfl rfl), (by decide +kernel), (awake_st _ _ (by decide +kernel)),
     (by decide +kernel)⟩,
   ⟨(st (setFld (wFunction.getD 0 svc) pgHOST Reg.HOST_CFG_IDE_REQ 1)), _, 0, 0, 0, none, _, (begins_st _ rfl rfl rfl), (by decide +kernel),
     (awake_st _ _ (by decide +kernel)), (by decide +kernel), (by decide +kernel), (by decide +kernel), rfl, (by decide +kernel)⟩,
   ⟨(st (wFunction.getD 2 svc)), _, 0, 2, 1, none, _, (begins_st _ rfl rfl rfl), (by decide +kernel), (awake_st _ _ (by decide +kernel)),
     (by decide +kernel), (by decide +kernel), (by decide +kernel), rfl, (by decide +kernel)⟩,
   ⟨(st (wFunction.getD 0 svc)), _, 0, 0, 0, none, _, (begins_st _ rfl rfl rfl), (by decide +kernel), (awake_st _ _ (by decide +kernel)),
     (by decide +kernel), (by decide +kernel), (by decide +kernel), rfl, (by decide +kernel)⟩,
   ⟨(st (wFunction.getD 5 svc)), _, 0, 2, (begins_st _ rfl rfl rfl), (by decide +kernel), (awake_st _ _ (by decide +kernel)),
     (by decide +kernel)⟩⟩

theorem MessageCommands_met1 :
    (∃ (s : State) (d : Dev), ∃ l r, Begins s d ∧ l < 2 ∧ cfgServe d l = .serve ∧ d.sys.mode ≠ .drowse ∧ 16384 < doeLen r) ∧
    (∃ (s : State) (d : Dev), ∃ l r, Begins s d ∧ l < 2 ∧ cfgServe d l = .serve ∧ d.sys.mode ≠ .drowse ∧ (∀ i, r ≠ .discovery i) ∧ doeLen r ≤
      16384 ∧ d.sys.mode ≠ .romBoot ∧ d.sys.mode ≠ .halted) ∧
    (∃ (s : State) (d : Dev) (r : SpdmReq), Begins s d ∧ d.host.a.doeReq = some r ∧ doeTrap d = true ∧ d.sys.mode = .startup) ∧
    (∃ (s : State) (d : Dev) (r : SpdmReq), Begins s d ∧ d.host.a.doeReq = some r ∧ doeTrap d = true ∧ d.sys.mode = .service ∧ r = .getVersion ∧
      ((linkOf d 0).xfer = 0 ∨ 8 ≤ (linkOf d 0).xfer)) ∧
    (∃ (s : State) (d : Dev) (r : SpdmReq), ∃ v n, Begins s d ∧ d.host.a.doeReq = some r ∧ doeTrap d = true ∧ d.sys.mode = .service ∧ r =
      .getCapabilities v n ∧ 0x12 ≤ v ∧ (n = 0 ∨ 8 ≤ n)) ∧
    (∃ (s : State) (d : Dev) (r : SpdmReq), ∃ i sign nonce x, Begins s d ∧ d.host.a.doeReq = some r ∧ doeTrap d = true ∧ d.sys.mode = .service ∧
      r = .getMeasurements i sign nonce ∧ (linkOf d 0).spdmAlg = true ∧ 1 ≤ i ∧ i ≤ 7 ∧ x = .measurements [(i, measBlock d i)] nonce (if sign =
      true then some (spdmSign 0 d) else none) ∧ ((linkOf d 0).xfer = 0 ∨ respLen x ≤ (linkOf d 0).xfer)) ∧
    (∃ (s : State) (d : Dev) (r : SpdmReq), ∃ i sign nonce x, Begins s d ∧ d.host.a.doeReq = some r ∧ doeTrap d = true ∧ d.sys.mode = .service ∧
      r = .getMeasurements i sign nonce ∧ (linkOf d 0).spdmAlg = true ∧ 1 ≤ i ∧ i ≤ 7 ∧ x = .measurements [(i, measBlock d i)] nonce (if sign =
      true then some (spdmSign 0 d) else none) ∧ (linkOf d 0).xfer ≠ 0 ∧ (linkOf d 0).xfer < respLen x) ∧
    (∃ (s : State) (d : Dev) (r : SpdmReq), ∃ h n x, Begins s d ∧ d.host.a.doeReq = some r ∧ doeTrap d = true ∧ d.sys.mode = .service ∧ r =
      .chunkGet h n ∧ (linkOf d 0).chunkOut = some (h, n, x) ∧ respLen x ≤ (n + 1) * (linkOf d 0).xfer) :=
  ⟨⟨(st (wMessage.getD 0 svc)), _, 0, (.challenge 0 (zeros 65530)), (begins_st _ rfl rfl rfl), (by decide +kernel)⟩,
   ⟨(st (wMessage.getD 0 svc)), _, 0, .getVersion, (begins_st _ rfl rfl rfl), (by decide +kernel), (by decide +kernel), (by decide +kernel), (fun
     _ h => nomatch h), (by decide +kernel)⟩,
   ⟨(st (wMessage.getD 1 svc)), _, SpdmReq.getVersion, (begins_st _ rfl rfl rfl), (by decide +kernel)⟩,
   ⟨(st (wMessage.getD 2 svc)), _, .getVersion, (begins_st _ rfl rfl rfl), (by decide +kernel), (by decide +kernel), (by decide +kernel), rfl,
     (.inl rfl)⟩,
   ⟨(st (wMessage.getD 3 svc)), _, (SpdmReq.getCapabilities 18), 18, 0, (begins_st _ rfl rfl rfl), (by decide +kernel), (by decide +kernel),
     (by decide +kernel), rfl, (by decide +kernel), (.inl rfl)⟩,
   ⟨(st (wMessage.getD 4 svc)), _, (SpdmReq.getMeasurements 3 true (ramp 32)), 3, true, (ramp 32), _, (begins_st _ rfl rfl rfl),
     (by decide +kernel), (by decide +kernel), (by decide +kernel), rfl, (by decide +kernel), (by decide +kernel), (by decide +kernel), rfl,
     (by decide +kernel)⟩,
   ⟨(st (wMessage.getD 6 svc)), _, (SpdmReq.getMeasurements 3 true (ramp 32)), 3, true, (ramp 32), _, (begins_st _ rfl rfl rfl),
     (by decide +kernel), (by decide +kernel), (by decide +kernel), rfl, (by decide +kernel), (by decide +kernel), (by decide +kernel), rfl,
     (by decide +kernel)⟩,
   ⟨(st (wMessage.getD 7 svc)), _, (.chunkGet 1 0), 1, 0, (.version [0x12]), (begins_st _ rfl rfl rfl), (by decide +kernel), (by decide +kernel),
     (by decide +kernel), rfl, (by decide +kernel)⟩⟩

theorem MessageCommands_met2 :
    (∃ (s : State) (d : Dev) (r : SpdmReq), ∃ h n x, Begins s d ∧ d.host.a.doeReq = some r ∧ doeTrap d = true ∧ d.sys.mode = .service ∧ r =
      .chunkGet h n ∧ (linkOf d 0).chunkOut = some (h, n, x) ∧ (n + 1) * (linkOf d 0).xfer < respLen x) ∧
    (∃ (s : State) (d : Dev), ∃ n m, Begins s d ∧ smbServes d = true ∧ n = fld d pgHOST Reg.HOST_SMB_ADDR_ADDR ∧ m ≠ n) ∧
    (∃ (s : State) (d : Dev), ∃ n id, Begins s d ∧ smbServes d = true ∧ n = fld d pgHOST Reg.HOST_SMB_ADDR_ADDR ∧ id ≠ 2) ∧
    (∃ (s : State) (d : Dev), ∃ n, Begins s d ∧ smbServes d = true ∧ n = fld d pgHOST Reg.HOST_SMB_ADDR_ADDR ∧ d.host.alert = true ∧ stopped
      d.sys.mode = false) :=
  ⟨⟨(st (wMessage.getD 8 svc)), _, (.chunkGet 1 0), 1, 0, (.version [0x12]), (begins_st _ rfl rfl rfl), (by decide +kernel), (by decide +kernel),
    (by decide +kernel), rfl, (by decide +kernel)⟩,
   ⟨(st (wMessage.getD 0 svc)), _, _, 3, (begins_st _ rfl rfl rfl), (by decide +kernel), rfl, (by decide +kernel)⟩,
   ⟨(st (wMessage.getD 0 svc)), _, _, 0, (begins_st _ rfl rfl rfl), (by decide +kernel), rfl, (by decide +kernel)⟩,
   ⟨(st (wMessage.getD 5 svc)), _, _, (begins_st _ rfl rfl rfl), (by decide +kernel), rfl, (by decide +kernel)⟩⟩

/-- The image passes the checks of its header. -/
theorem image_shape : imgShapeOk (fitTo 4552 image) = true := by decide +kernel
theorem image_keys : slice (fitTo 4552 image) 0x70 48 = sha384 (imgKeys (fitTo 4552 image)) := by decide +kernel
/-- A multiple of a point in two parts: the upper bits first. -/
theorem ecMul_parts (c : Curve) (q : Option (Nat × Nat)) (k m : Nat) : ∀ (j : Nat) (a : Option (Nat × Nat)),
    ecMulGo c q k (j + m) a = ecMulGo c q k m (ecMulGo c q (k / 2 ^ m) j a)
  | 0, a => by simp [ecMulGo]
  | j + 1, a => by
    have h : k / 2 ^ (j + m) = k / 2 ^ m / 2 ^ j := by rw [Nat.div_div_eq_div_mul, ← Nat.pow_add, Nat.add_comm]
    rw [show j + 1 + m = (j + m) + 1 by omega]
    simp only [ecMulGo, h]
    exact ecMul_parts c q k m j _

/-- A multiple over P-384 from its four quarters. -/
theorem ecMul_quarters (k : Nat) (q w1 w2 w3 w4 : Option (Nat × Nat)) (h1 : ecMulGo p384 q (k / 2 ^ 288) 97 none = w1)
    (h2 : ecMulGo p384 q (k / 2 ^ 192) 96 w1 = w2) (h3 : ecMulGo p384 q (k / 2 ^ 96) 96 w2 = w3) (h4 : ecMulGo p384 q k 96 w3 = w4) :
    ecMul p384 k q = w4 := by
  have e1 := ecMul_parts p384 q k 288 97 none
  have e2 := ecMul_parts p384 q k 192 96 w1
  have e3 := ecMul_parts p384 q k 96 96 w2
  rw [h1] at e1
  rw [h2] at e2
  rw [h3] at e3
  exact e1.trans (e2.trans (e3.trans h4))

/-- A signature verifies by the two multiples and their sum. -/
theorem ecdsaOk_of (q p1 p2 p3 : Nat × Nat) (h : Bytes) (r s w k1 k2 : Nat)
    (hb : (r = 0 || s = 0 || p384.n ≤ r || p384.n ≤ s) = false) (hw : invMod s p384.n = w) (h1 : ecBits p384 h * w % p384.n = k1)
    (h2 : r * w % p384.n = k2) (m1 : ecMul p384 k1 (some p384.g) = some p1) (m2 : ecMul p384 k2 (some q) = some p2)
    (ha : ecAdd p384 (some p1) (some p2) = some p3) (hx : p3.1 % p384.n = r) : ecdsaOk p384 q h r s = true := by
  obtain ⟨x, y⟩ := p3
  simp only [ecdsaOk, hb, hw, h1, h2, m1, m2, ha]
  simpa using hx
def imageKey : Nat × Nat :=
  (0xaa87ca22be8b05378eb1c71ef320ad746e1d3b628ba79b9859f741e082542a385502f25dbf55296c3a545e3872760ab7,
   0x3617de4a96262c6f5d9e98bf9292dc29f8f41dbd289a147ce9da3113b5f0b8c00a60b1ce1d7e819d7a431d7c90ea0e5f)
def imageR : Nat :=
  0xde960114489e733cd294eee29e437ba4238a7e4d2c853daa14981bbae63613cc855b1e983e3cd4507b75d47de0077efa
def imageS : Nat :=
  0xe0ff1628656095a0ce9d3300176afadb655e690741a758e16af5b6ae6d9be9e8ba2fcc4db643eead0d3f03472216c0d2
def imageGK : Nat :=
  0x3f6a68f3605b69319f515d995184ad5244e73874c3ccbac748672fbbcc89adcadd9add430d0d758a4151fa56f5b5d784
def imageG1 : Option (Nat × Nat) :=
  some
    (0x60f8d6741465be99c2fb05ba3a3aa5a861d789d1bc4d65cc035d48911ae6bd3aefe42f6fb1236a9509905211b8429bc2,
     0x9529585718940a39991f29adabb44bfc9bf54f9183a7c69f46e1f0566b32009250c28c32c025d2d2346f8181f6e21e89)
def imageG2 : Option (Nat × Nat) :=
  some
    (0x1eb94526ef5cdada9a8ce23a86cd8a7eaa73e4c6693bfb479fb806d0deea042ab30300255635975e3aa6da947d8fb971,
     0x96ebee4d467554c46e8e083d91b29507b0f4811fd7f3a267aeda556babe4fe0b6d54093c0f555ac7d77fa6adbb743d7a)
def imageG3 : Option (Nat × Nat) :=
  some
    (0x7beb7e3c453b19d4e38f198f84e3b89b86f02bc5aa439eaff9c880f93f9e3754771c69bf5e4a64854263213e4df4c8d7,
     0xf8abb6e3d16796631afcc097faad5861e24104b07dc18cab5015f87f60d9406a67c92dcb248e237eb0332ceeadb95231)
def imageG4 : Option (Nat × Nat) :=
  some
    (0x556ed4a0510ec35659daf3a37cf8785fd0fa86502f2c84dc80512f08b28633974516dd2ec7c7d0c588e3159bb90ec9a6,
     0x86766a7da0a33209eab340e498dc66396010c653c5ac7039997434503bc25f861bab68d102593f120c0a76e10335f535)
theorem imageG_1 : ecMulGo p384 (some p384.g) (imageGK / 2 ^ 288) 97 none = imageG1 := by decide +kernel
theorem imageG_2 : ecMulGo p384 (some p384.g) (imageGK / 2 ^ 192) 96 imageG1 = imageG2 := by decide +kernel
theorem imageG_3 : ecMulGo p384 (some p384.g) (imageGK / 2 ^ 96) 96 imageG2 = imageG3 := by decide +kernel
theorem imageG_4 : ecMulGo p384 (some p384.g) (imageGK) 96 imageG3 = imageG4 := by decide +kernel
theorem imageG_mul : ecMul p384 imageGK (some p384.g) = imageG4 := ecMul_quarters _ _ _ _ _ _ imageG_1 imageG_2 imageG_3 imageG_4
def imageQK : Nat :=
  0x542b24e6c9a13673e41769b448c4081c28607661d4ad4d51f52bea4aff806a23ba53e1d0743a97a55ead052cd2b6019e
def imageQ1 : Option (Nat × Nat) :=
  some
    (0x387aed209297d9cfb6ac20f0f8b87410fcabba9c0339f50642562bb349f4a02070d9fa1062d8e27c2f20e53560317289,
     0x16b75c3be18cb34be4dc46f8ef6cf05b267330a5535adcea16b9146154c16229c586a726f0f01d6992279ea278ab7634)
def imageQ2 : Option (Nat × Nat) :=
  some
    (0x2673493b0490d20d26eec13267d470a79dc9888702e57fe76bac5ee07ce74ff4ea804d0c14c497572cd9f7888869cd3c,
     0xaf77893da2a746239652895e59926a101592cf288621ee6720e5b8963a86a8ee746a75ad01e75b2c3d25a488ce7ebac8)
def imageQ3 : Option (Nat × Nat) :=
  some
    (0xe5c8f5f158c7bfe8864061e7971067f01a1bc160808edb865d57e85b76280b2aa19ddd844bfbebcb237994e8ec34f862,
     0xb62c3ac98356397323e58615182a13574fab1682898ae41c80f336b31ace9fefc7cd2fb192df5ea3ce04319b0859ed82)
def imageQ4 : Option (Nat × Nat) :=
  some
    (0xa5754d50c87357017030bf333de3aa7089b05108bd09584c20c1b2e60342210a906ed3ffa048043f6acefe14cced98fe,
     0x7a7883ae401b8087e41ebcbecf1d80184a5cae48c0a564f40bca28b04b3a7a99c73e3aa84529ad03bada9e94bf72431f)
theorem imageQ_1 : ecMulGo p384 (some imageKey) (imageQK / 2 ^ 288) 97 none = imageQ1 := by decide +kernel
theorem imageQ_2 : ecMulGo p384 (some imageKey) (imageQK / 2 ^ 192) 96 imageQ1 = imageQ2 := by decide +kernel
theorem imageQ_3 : ecMulGo p384 (some imageKey) (imageQK / 2 ^ 96) 96 imageQ2 = imageQ3 := by decide +kernel
theorem imageQ_4 : ecMulGo p384 (some imageKey) (imageQK) 96 imageQ3 = imageQ4 := by decide +kernel
theorem imageQ_mul : ecMul p384 imageQK (some imageKey) = imageQ4 := ecMul_quarters _ _ _ _ _ _ imageQ_1 imageQ_2 imageQ_3 imageQ_4
theorem image_sum : ecAdd p384 imageG4 imageQ4 = some (imageR,
    0x6a476c372abc691464ffb8b997a1ebb295a22d84e6301c33c15ff9a537a0fccb2c4b1442d33fcbf29cfddc431fc89d1) := by decide +kernel
theorem image_inv : invMod imageS p384.n =
    0xaebed8add7e962d4e951d4d5b1d30338a16c02e2503c251e99a98878c3401fc4b2c0bbf8de32f5256fade6af9b682722 := by decide +kernel
theorem image_ecdsa : ecdsaOk p384 imageKey (sha384 ((fitTo 4552 image).take 0x100)) imageR imageS = true :=
  ecdsaOk_of _ _ _ _ _ _ _ _ imageGK imageQK (by decide +kernel) image_inv (by decide +kernel) (by decide +kernel) imageG_mul imageQ_mul image_sum
    (by decide +kernel)
theorem image_signed : imgSigOk (fitTo 4552 image) = true := by
  have h1 : imgAlg (fitTo 4552 image) = 1 := by decide +kernel
  have h2 : ecDecode p384 ((imgEcPart (fitTo 4552 image)).take 97) = some imageKey := by decide +kernel
  have h3 : beNat (slice (imgEcPart (fitTo 4552 image)) 104 48) = imageR := by decide +kernel
  have h4 : beNat (slice (imgEcPart (fitTo 4552 image)) 152 48) = imageS := by decide +kernel
  simp only [imgSigOk, h1, h2, h3, h4, image_ecdsa]
  rfl
theorem image_body : sha384 (imgBody (fitTo 4552 image)) = slice (fitTo 4552 image) 0x40 48 := by decide +kernel
theorem image_sound : imgFault imageRead (fitTo 4552 image) = none :=
  fault_of _ _ image_shape (by decide +kernel) (by decide +kernel) (by decide +kernel) (by decide +kernel) image_keys (by decide +kernel)
    image_signed (by decide +kernel)
theorem image_loaded : ∃ w, mpeWrite none (imgLoad (fitTo 4552 image)) (imgBody (fitTo 4552 image)) imageRead
    = { imageRead with mpe := { imageRead.mpe with wbuf := w } } := mpeWrite_buffered _ _ _ (by decide +kernel)

theorem RomHandshakeCommands_met :
    (∃ (s : State) (d : Dev) (a : Access) (x : Bytes) (n : Nat) (addr : Nat), ∃ f, Begins s d ∧ AwakeFor d a ∧ d.mgr.busy = none ∧ (admitWrite
      (seenAs a) pgMGR 0x044 d).1 = some .mgr ∧ n = fld d pgMGR Reg.MGR_IN_LEN_LEN ∧ mgrHostOk d = true ∧ addr = mgrAddr d
      Reg.MGR_IN_ADDR_LO_ADDR_LO Reg.MGR_IN_ADDR_HI_ADDR_HI ∧ d.sys.stage = .loader ∧ 4352 ≤ n ∧ n ≤ 0x2002000 ∧ fieldCode (seenAs a) pgMGR
      0x4C4F4144 d Reg.MGR_PARAM_PARAM = 0 ∧ imgFault d (fitTo n x) = some f) ∧
    (∃ (s : State) (d : Dev) (a : Access) (x : Bytes) (n : Nat) (addr : Nat) (d2 : Dev) (d3 : Dev), Begins s d ∧ AwakeFor d a ∧ d.mgr.busy = none
      ∧ (admitWrite (seenAs a) pgMGR 0x044 d).1 = some .mgr ∧ n = fld d pgMGR Reg.MGR_IN_LEN_LEN ∧ mgrHostOk d = true ∧ addr = mgrAddr d
      Reg.MGR_IN_ADDR_LO_ADDR_LO Reg.MGR_IN_ADDR_HI_ADDR_HI ∧ d.sys.stage = .loader ∧ 4352 ≤ n ∧ n ≤ 0x2002000 ∧ fieldCode (seenAs a) pgMGR
      0x4C4F4144 d Reg.MGR_PARAM_PARAM = 0 ∧ d2 = emitAll (hostReads d (mgrLink d) 0 addr n) (setFld d pgMGR Reg.MGR_PARAM_PARAM 0x4C4F4144) ∧
      imgLoadCheck (fitTo n x) d2 = (none, d3) ∧ d3 = { d2 with mpe := d3.mpe, regs := d3.regs } ∧ d3.mpe.failing = none) ∧
    (∃ (s : State) (d : Dev) (a : Access) (x : Bytes) (n : Nat) (addr : Nat), ∃ b, Begins s d ∧ AwakeFor d a ∧ d.mgr.busy = none ∧ (admitWrite
      (seenAs a) pgMGR 0x044 d).1 = some .mgr ∧ n = fld d pgMGR Reg.MGR_IN_LEN_LEN ∧ mgrHostOk d = true ∧ addr = mgrAddr d
      Reg.MGR_IN_ADDR_LO_ADDR_LO Reg.MGR_IN_ADDR_HI_ADDR_HI ∧ d.sys.stage = .service ∧ n = 64 ∧ fieldCode (seenAs a) pgMGR 0x4C435452 d
      Reg.MGR_PARAM_PARAM = 0 ∧ b = fitTo 64 x ∧ leAt b 1 1 = 1 ∧ slice b 2 14 = zeros 14 ∧ leAt b 0 1 < 4 ∧ d.sys.lc = .raw ∧ rowSet d (leAt b 0
      1) = false ∧ lcSupply d = true) ∧
    (∃ (s : State) (d : Dev) (a : Access) (x : Bytes) (n : Nat) (addr : Nat), ∃ b, Begins s d ∧ AwakeFor d a ∧ d.mgr.busy = none ∧ (admitWrite
      (seenAs a) pgMGR 0x044 d).1 = some .mgr ∧ n = fld d pgMGR Reg.MGR_IN_LEN_LEN ∧ mgrHostOk d = true ∧ addr = mgrAddr d
      Reg.MGR_IN_ADDR_LO_ADDR_LO Reg.MGR_IN_ADDR_HI_ADDR_HI ∧ d.sys.stage = .service ∧ n = 64 ∧ fieldCode (seenAs a) pgMGR 0x4C435452 d
      Reg.MGR_PARAM_PARAM = 0 ∧ b = fitTo 64 x ∧ 1 < leAt b 1 1) :=
  ⟨⟨(st (wHandshake.getD 0 svc)), _, acc, [], _, _, 2, (begins_st _ rfl rfl rfl), (awakeFor_st _ _ (by decide +kernel)), (by decide +kernel),
    (by decide +kernel), rfl, (by decide +kernel), rfl, (by decide +kernel)⟩,
   ⟨(st imageDev), _, acc, image, 4552, _, imageRead, (mpeWrite none (imgLoad (fitTo 4552 image)) (imgBody (fitTo 4552 image)) imageRead),
     (begins_st _ rfl rfl rfl), (awakeFor_st _ _ (by decide +kernel)), (by decide +kernel), (by decide +kernel), (by decide +kernel),
     (by decide +kernel), rfl, (by decide +kernel), (by decide +kernel), (by decide +kernel), (by decide +kernel), rfl, (loadCheck_of _ _
     image_sound image_body), (by obtain ⟨w, h⟩ := image_loaded; rw [h]), (by obtain ⟨w, h⟩ := image_loaded; rw [h]; exact
     (by decide +kernel : imageRead.mpe.failing = none))⟩,
   ⟨(st (wHandshake.getD 1 svc)), _, acc, (tokenBlock 1 1), _, _, _, (begins_st _ rfl rfl rfl), (awakeFor_st _ _ (by decide +kernel)),
     (by decide +kernel), (by decide +kernel), rfl, (by decide +kernel), rfl, (by decide +kernel), (by decide +kernel), (by decide +kernel), rfl,
     (by decide +kernel)⟩,
   ⟨(st (wHandshake.getD 1 svc)), _, acc, (tokenBlock 1 2), _, _, _, (begins_st _ rfl rfl rfl), (awakeFor_st _ _ (by decide +kernel)),
     (by decide +kernel), (by decide +kernel), rfl, (by decide +kernel), rfl, (by decide +kernel), (by decide +kernel), (by decide +kernel), rfl,
     (by decide +kernel)⟩⟩

theorem RegisterWriteCommand_met :
    (∃ (s : State) (d : Dev) (a : Access) (p : Nat) (off : Nat) (val : Nat) (k : PageKind), Begins s d ∧ AwakeFor d a ∧ off < 0x1000 ∧ val < 2 ^
      32 ∧ (admitWrite (seenAs a) p off d).1 = some k ∧ p ≠ pgDRBG ∧ off = 0x018 ∧ (pageCap k).irq = true) ∧
    (∃ (s : State) (d : Dev) (a : Access) (p : Nat) (off : Nat) (val : Nat) (k : PageKind), Begins s d ∧ AwakeFor d a ∧ off < 0x1000 ∧ val < 2 ^
      32 ∧ (admitWrite (seenAs a) p off d).1 = some k ∧ p ≠ pgDRBG ∧ off = 0x01C ∧ (pageCap k).irq = true) ∧
    (∃ (s : State) (d : Dev) (a : Access) (p : Nat) (off : Nat) (val : Nat) (k : PageKind), Begins s d ∧ AwakeFor d a ∧ off < 0x1000 ∧ val < 2 ^
      32 ∧ (admitWrite (seenAs a) p off d).1 = some k ∧ p ≠ pgDRBG ∧ off = 0x010 ∧ bit val 2 = true) ∧
    (∃ (s : State) (d : Dev) (a : Access) (p : Nat) (off : Nat) (val : Nat) (k : PageKind), Begins s d ∧ AwakeFor d a ∧ off < 0x1000 ∧ val < 2 ^
      32 ∧ (admitWrite (seenAs a) p off d).1 = some k ∧ p ≠ pgDRBG ∧ off = 0x030 ∧ pageSecureOnly k = false ∧ (hdrOf d p).lock = false ∧ (hdrOf d
      p).softRst = false) ∧
    (∃ (s : State) (d : Dev) (a : Access) (p : Nat) (off : Nat) (val : Nat) (k : PageKind), Begins s d ∧ AwakeFor d a ∧ off < 0x1000 ∧ val < 2 ^
      32 ∧ (admitWrite (seenAs a) p off d).1 = some k ∧ p ≠ pgDRBG ∧ k ∈ [PageKind.clk, .hold, .wear, .ks1, .ks2, .ks3, .host, .usb4] ∧ 0x040 ≤
      off ∧ off % 4 = 0 ∧ (∀ f, f ∈ fieldsAt k off → f.acc ≠ .ro → fieldCode (seenAs a) p val d f = 0)) ∧
    (∃ (s : State) (d : Dev) (a : Access) (p : Nat) (off : Nat) (val : Nat) (k : PageKind), ∃ size, Begins s d ∧ AwakeFor d a ∧ off < 0x1000 ∧
      val < 2 ^ 32 ∧ (admitWrite (seenAs a) p off d).1 = some k ∧ p ≠ pgDRBG ∧ ¬(size = 4 ∧ off % 4 = 0) ∧ ¬(size = 8 ∧ off % 8 = 0) ∧ (hdrOf d
      p).cfgErr = false) :=
  ⟨⟨(st (wWrite.getD 0 svc)), _, acc, 0, _, 0, PageKind.sys, (begins_st _ rfl rfl rfl), (awakeFor_st _ _ (by decide +kernel)),
    (by decide +kernel), (by decide +kernel), (by decide +kernel), (by decide +kernel), rfl, (by decide +kernel)⟩,
   ⟨(st (wWrite.getD 0 svc)), _, acc, 0, _, 0, PageKind.sys, (begins_st _ rfl rfl rfl), (awakeFor_st _ _ (by decide +kernel)),
     (by decide +kernel), (by decide +kernel), (by decide +kernel), (by decide +kernel), rfl, (by decide +kernel)⟩,
   ⟨(st (wWrite.getD 0 svc)), _, acc, 0, _, 4, PageKind.sys, (begins_st _ rfl rfl rfl), (awakeFor_st _ _ (by decide +kernel)),
     (by decide +kernel), (by decide +kernel), (by decide +kernel), (by decide +kernel), rfl, (by decide +kernel)⟩,
   ⟨(st (wWrite.getD 0 svc)), _, acc, 0, _, 0, PageKind.sys, (begins_st _ rfl rfl rfl), (awakeFor_st _ _ (by decide +kernel)),
     (by decide +kernel), (by decide +kernel), (by decide +kernel), (by decide +kernel), rfl, (by decide +kernel)⟩,
   ⟨(st (wWrite.getD 0 svc)), _, acc, 4, pgHOST, 0, (PageKind.clk), (begins_st _ rfl rfl rfl), (awakeFor_st _ _ (by decide +kernel)),
     (by decide +kernel)⟩,
   ⟨(st (wWrite.getD 0 svc)), _, acc, 0, 0, 0, PageKind.sys, 0, (begins_st _ rfl rfl rfl), (awakeFor_st _ _ (by decide +kernel)),
     (by decide +kernel)⟩⟩

theorem PageControlCommands_met :
    (∃ (s : State) (d : Dev) (a : Access), ∃ c, Begins s d ∧ AwakeFor d a ∧ c ∈ [(Instr.cmdEnable a, pgCMD, PageKind.cmd), (.htEnable a, pgHT,
      .ht0)] ∧ (admitWrite (seenAs a) c.2.1 0x00C d).1 = some c.2.2 ∧ (hdrOf d c.2.1).softRst = false) ∧
    (∃ (s : State) (d : Dev) (a : Access), ∃ q b, Begins s d ∧ AwakeFor d a ∧ (admitWrite (seenAs a) pgMPE 0x00C d).1 = some .mpe0 ∧ (hdrOf d
      pgMPE).softRst = false ∧ (hdrOf d pgMPE).enable = false ∧ d.mpe.halting = false ∧ (List.range 4).find? (fun q => (quarterOf d q).pwr = .on)
      = some q ∧ RandomAt d q 64 ∧ b = (drbgOf d q).buf.take 64) ∧
    (∃ (s : State) (d : Dev) (a : Access), ∃ i v, Begins s d ∧ AwakeFor d a ∧ i < 1024 ∧ (admitWrite (seenAs a) (instPage i) 0x00C d).1 = some
      .inst ∧ (hdrOf d (instPage i)).softRst = false ∧ (hdrOf d (instPage i)).enable = false ∧ (instOf d i).run = .assigned ∧ (instOf d
      i).verFixed = false ∧ v = pypCommon (pypCap d) (regGet d (instPage i) Reg.INST_PYP_OFFER_V2.off) ∧ v.1 ≠ 0) ∧
    (∃ (s : State) (d : Dev) (a : Access), ∃ p k h, Begins s d ∧ AwakeFor d a ∧ (admitWrite (seenAs a) p 0x00C d).1 = some k ∧ h = hdrOf d p ∧
      h.softRst = false ∧ k ∈ [PageKind.tamp0, .tamp1, .tamp2, .tamp3, .vig]) ∧
    (∃ (s : State) (d : Dev) (a : Access), ∃ p k h, Begins s d ∧ AwakeFor d a ∧ (admitWrite (seenAs a) p 0x00C d).1 = some k ∧ h = hdrOf d p ∧
      h.softRst = false ∧ k ∈ [PageKind.sys, .clk, .hold, .wear, .host, .usb4] ∧ d.tidy ∧ d.sys.draining = none) ∧
    (∃ (s : State) (d : Dev) (a : Access), ∃ p h, Begins s d ∧ AwakeFor d a ∧ h = hdrOf d p ∧ h.softRst = true ∧ (p = pgOFC → ∀ c, c < 2 →
      (cardOf d c).present = false ∧ (cardOf d c).run = .inactive)) :=
  ⟨⟨(st (wControl.getD 0 svc)), _, acc, ((Instr.cmdEnable acc, pgCMD, PageKind.cmd)), (begins_st _ rfl rfl rfl), (awakeFor_st _ _
    (by decide +kernel)), (by decide +kernel)⟩,
   ⟨(st (wControl.getD 0 svc)), _, acc, 0, _, (begins_st _ rfl rfl rfl), (awakeFor_st _ _ (by decide +kernel)), (by decide +kernel),
     (by decide +kernel), (by decide +kernel), (by decide +kernel), (by decide +kernel), (by unfold RandomAt NoReads; decide +kernel), rfl⟩,
   ⟨(st (wControl.getD 1 svc)), _, acc, 1, _, (begins_st _ rfl rfl rfl), (awakeFor_st _ _ (by decide +kernel)), (by decide +kernel),
     (by decide +kernel), (by decide +kernel), (by decide +kernel), (by decide +kernel), (by decide +kernel), rfl, (by decide +kernel)⟩,
   ⟨(st (wControl.getD 0 svc)), _, acc, pgTAMP, (PageKind.tamp0), _, (begins_st _ rfl rfl rfl), (awakeFor_st _ _ (by decide +kernel)),
     (by decide +kernel), rfl, (by decide +kernel)⟩,
   ⟨(st (wControl.getD 0 svc)), _, acc, 0, (PageKind.sys), _, (begins_st _ rfl rfl rfl), (awakeFor_st _ _ (by decide +kernel)),
     (by decide +kernel), rfl, (by decide +kernel), (by decide +kernel), (by unfold Dev.tidy; decide +kernel), (by decide +kernel)⟩,
   ⟨(st (wControl.getD 2 svc)), _, acc, pgCLK, _, (begins_st _ rfl rfl rfl), (awakeFor_st _ _ (by decide +kernel)), rfl, (by decide +kernel)⟩⟩

def busCommandsState8b : Dev :=
  { svc with harts := [(1, { hartReset 1 with pmp := [⟨0x20000000, 0x2FFFFFFF, (false, false, false), false⟩] })] }

theorem BusCommands_met1 :
    (∃ (s : State) (d : Dev) (b : Bus), Begins s d ∧ dieOn d.sys.mode = true ∧ BusPlain d b ∧ b.addr % 4096 + b.len ≤ 4096 ∧ partCheck d (busWho
      d b) b.kind b.addr = .pass ∧ (inPlain d b.addr ∨ zoneOf b.addr = .mramGen) ∧ fenceWrites d b.addr = true ∧ b.kind = .write ∧ b.data.length
      = b.len) ∧
    (∃ (s : State) (d : Dev) (b : Bus), Begins s d ∧ dieOn d.sys.mode = true ∧ BusPlain d b ∧ b.addr % 4096 + b.len ≤ 4096 ∧ partCheck d (busWho
      d b) b.kind b.addr = .pass ∧ (inPlain d b.addr ∨ zoneOf b.addr = .mramGen) ∧ fenceWrites d b.addr = true ∧ b.kind ≠ .write) ∧
    (∃ (s : State) (d : Dev) (b : Bus), Begins s d ∧ dieOn d.sys.mode = true ∧ BusPlain d b ∧ b.addr % 4096 + b.len ≤ 4096 ∧ zoneOf b.addr =
      .nowhere) ∧
    (∃ (s : State) (d : Dev) (b : Bus), ∃ r, Begins s d ∧ dieOn d.sys.mode = true ∧ BusPlain d b ∧ b.addr % 4096 + b.len ≤ 4096 ∧ partCheck d
      (busWho d b) b.kind b.addr = .refuse r ∧ busPosted b = false ∧ b.cls ≠ 5) ∧
    (∃ (s : State) (d : Dev) (b : Bus), Begins s d ∧ dieOn d.sys.mode = true ∧ BusPlain d b ∧ b.addr % 4096 + b.len ≤ 4096 ∧ zoneOf b.addr =
      .hostWin ∧ partCheck d (busWho d b) b.kind b.addr = .pass ∧ b.kind ≠ .write ∧ winOpen d = false) ∧
    (∃ (s : State) (d : Dev) (b : Bus), ∃ x, Begins s d ∧ dieOn d.sys.mode = true ∧ BusPlain d b ∧ b.addr % 4096 + b.len ≤ 4096 ∧ zoneOf b.addr =
      .hostWin ∧ partCheck d (busWho d b) b.kind b.addr = .pass ∧ winOpen d = true ∧ b.kind ≠ .write ∧ b.hostData = some x) ∧
    (∃ (s : State) (d : Dev) (b : Bus), Begins s d ∧ dieOn d.sys.mode = true ∧ BusPlain d b ∧ b.addr % 4096 + b.len ≤ 4096 ∧ zoneOf b.addr =
      .hostWin ∧ partCheck d (busWho d b) b.kind b.addr = .pass ∧ winOpen d = true ∧ b.kind ≠ .write ∧ b.hostData = none) ∧
    (∃ (s : State) (d : Dev) (b : Bus), Begins s d ∧ dieOn d.sys.mode = true ∧ BusPlain d b ∧ b.addr % 4096 + b.len ≤ 4096 ∧ zoneOf b.addr =
      .hostWin ∧ partCheck d (busWho d b) b.kind b.addr = .pass ∧ winOpen d = true ∧ b.kind = .write ∧ b.data.length = b.len ∧ stopped d.sys.mode
      = false) :=
  ⟨⟨(st (wBus.getD 0 svc)), _, ((txns).getD 1 (txn 0 .read 0 8)), (begins_st _ rfl rfl rfl), (by decide +kernel), (plain_st _ _
    (by decide +kernel)), (by decide +kernel), (by decide +kernel), (.inl (.inr ⟨0, (by decide +kernel), (by decide +kernel)⟩)),
    (by decide +kernel)⟩,
   ⟨(st (wBus.getD 0 svc)), _, ((txns).getD 4 (txn 0 .read 0 8)), (begins_st _ rfl rfl rfl), (by decide +kernel), (plain_st _ _
     (by decide +kernel)), (by decide +kernel), (by decide +kernel), (.inl (.inr ⟨0, (by decide +kernel), (by decide +kernel)⟩)),
     (by decide +kernel)⟩,
   ⟨(st (wBus.getD 0 svc)), _, ((txns).getD 2 (txn 0 .read 0 8)), (begins_st _ rfl rfl rfl), (by decide +kernel), (plain_st _ _
     (by decide +kernel)), (by decide +kernel)⟩,
   ⟨(st (wBus.getD 3 svc)), _, ((txns).getD 4 (txn 0 .read 0 8)), (some 0), (begins_st _ rfl rfl rfl), (by decide +kernel), (plain_st _ _
     (by decide +kernel)), (by decide +kernel)⟩,
   ⟨(st windowIde), _, (winTxn .read none), (begins_st _ rfl rfl rfl), (by decide +kernel), (plain_st _ _ (by decide +kernel)),
     (by decide +kernel)⟩,
   ⟨(st window), _, (winTxn .read (some (ramp 8))), (ramp 8), (begins_st _ rfl rfl rfl), (by decide +kernel), (plain_st _ _ (by decide +kernel)),
     (by decide +kernel)⟩,
   ⟨(st window), _, (winTxn .read none), (begins_st _ rfl rfl rfl), (by decide +kernel), (plain_st _ _ (by decide +kernel)), (by decide +kernel)⟩,
   ⟨(st window), _, (winTxn .write none), (begins_st _ rfl rfl rfl), (by decide +kernel), (plain_st _ _ (by decide +kernel)),
     (by decide +kernel)⟩⟩

theorem BusCommands_met2 :
    (∃ (s : State) (d : Dev) (b : Bus), Begins s d ∧ dieOn d.sys.mode = true ∧ busPmp d b = true ∧ masterOk b.cls b.idx = true ∧ 0 < b.len ∧
      b.len ≤ 64) ∧
    (∃ (s : State) (d : Dev) (b : Bus), Begins s d ∧ dieOn d.sys.mode = true ∧ b.cls = 2 ∧ BusCarried d b ∧ Awake d (some b.idx) ∧ b.badCode =
      none ∧ busBell d b = none ∧ (b.kind = .write ∨ zoneOf b.addr ≠ .hostWin) ∧ hostUr d (busAccess d b ((b.addr - 0x1000_0000) / 0x1000)).via =
      true) ∧
    (∃ (s : State) (d : Dev) (b : Bus), ∃ e, Begins s d ∧ dieOn d.sys.mode = true ∧ b.cls ≠ 2 ∧ BusCarried d b ∧ b.badCode = some e ∧ d.sys.mode
      ≠ .drowse ∧ respIn d.sys.mode (respEff d 13) ≤ 1 ∧ busMismatch (busWord d b) (if b.kind = .write then b.data else zeros b.len) e = true ∧
      (b.cls = 3 → b.kind = .write ∨ b.idx = 28 ∨ ((unitOf d b.idx).cur = none ∧ (unitOf d b.idx).job = none))) ∧
    (∃ (s : State) (d : Dev) (w : Bool), ∃ addr size, Begins s d ∧ dieOn d.sys.mode = true ∧ size ∈ [1, 2, 4, 8] ∧ addr % size = 0 ∧ bit
      (dbgEnables d) (if (whoDebug d).sec then 3 else 1) = true ∧ zoneOf addr = .commons ∧ partCheck d (whoDebug d) (if w then .write else .read)
      addr = .pass) ∧
    (∃ (s : State) (d : Dev) (w : Bool), ∃ addr size, Begins s d ∧ dieOn d.sys.mode = true ∧ size ∈ [1, 2, 4, 8] ∧ addr % size = 0 ∧ bit
      (dbgEnables d) (if (whoDebug d).sec then 3 else 1) = true ∧ (zoneOf addr = .dram ∨ (∃ r, partCheck d (whoDebug d) (if w then .write else
      .read) addr = .refuse r))) ∧
    (∃ (s : State) (d : Dev), Begins s d ∧ dieOn d.sys.mode = true ∧ bit (dbgEnables d) (if (whoDebug d).sec then 3 else 1) = false) ∧
    (∃ (s : State) (d : Dev), ∃ h, Begins s d ∧ dieOn d.sys.mode = true ∧ h < 16 ∧ dbgEnables d ≠ 0 ∧ ((hartOf d h).run ≠ .running ∨ bit
      (dbgEnables d) (if (hartOf d h).world then 3 else 1) = false)) ∧
    (∃ (s : State) (d : Dev), ∃ h, Begins s d ∧ dieOn d.sys.mode = true ∧ h < 16 ∧ dbgEnables d ≠ 0 ∧ (hartOf d h).run = .running ∧ bit
      (dbgEnables d) (if (hartOf d h).world then 3 else 1) = true) :=
  ⟨⟨(st busCommandsState8b), _, ((txns).getD 4 (txn 0 .read 0 8)), (begins_st _ rfl rfl rfl), (by decide +kernel)⟩,
   ⟨(st windowIde), _, { txn 2 .read 0x10000040 4 with idx := 0 }, (begins_st _ rfl rfl rfl), (by decide +kernel), (by decide +kernel),
     (by unfold BusCarried; decide +kernel), (awake_st _ _ (by decide +kernel)), (by decide +kernel)⟩,
   ⟨(st (lcDev .test [])), _, { txn 0 .read 0x20000040 8 with badCode := some ⟨true, 0, 1, [], []⟩ }, ⟨true, 0, 1, [], []⟩,
     (begins_st _ rfl rfl rfl), (by decide +kernel), (by decide +kernel), (by unfold BusCarried; decide +kernel), (by decide +kernel)⟩,
   ⟨(st (wBus.getD 2 svc)), _, false, 0x30000010, (1), (begins_st _ rfl rfl rfl), (by decide +kernel)⟩,
   ⟨(st (wBus.getD 2 svc)), _, false, (dramBase + 64), (1), (begins_st _ rfl rfl rfl), (by decide +kernel), (by decide +kernel),
     (by decide +kernel), (by decide +kernel), (.inl (by decide +kernel))⟩,
   ⟨(st (wBus.getD 0 svc)), _, (begins_st _ rfl rfl rfl), (by decide +kernel)⟩,
   ⟨(st (wBus.getD 2 svc)), _, 0, (begins_st _ rfl rfl rfl), (by decide +kernel)⟩,
   ⟨(st (wBus.getD 2 svc)), _, 2, (begins_st _ rfl rfl rfl), (by decide +kernel)⟩⟩

theorem ProtectedMemoryCommands_met1 :
    (∃ (s : State) (d : Dev) (b : Bus) (c : CcLine) (maj : Nat) (min : Nat), Begins s d ∧ mpeServes d = true ∧ dieOn d.sys.mode = true ∧ BusPlain
      d b ∧ zoneOf b.addr = .dram ∧ b.addr % 64 = 0 ∧ b.len = 64 ∧ partCheck d (busWho d b) b.kind b.addr = .pass ∧ smapGet noneAt d.mpe.wbuf
      (b.addr / 64) = none ∧ ccOf d (treeAddr 0 ((b.addr - dramBase) / 4096)) = some c ∧ maj = c.line.major ∧ min = minorOf c.line (bits b.addr
      11 6) ∧ LineSound d b.addr ∧ b.kind = .write ∧ b.data.length = 64 ∧ d.mpe.wbuf.length < 4096 ∧ (b.cls = 3 ∨ b.cls = 4)) ∧
    (∃ (s : State) (d : Dev) (b : Bus) (c : CcLine) (maj : Nat) (min : Nat), ∃ e c1, Begins s d ∧ mpeServes d = true ∧ dieOn d.sys.mode = true ∧
      BusPlain d b ∧ zoneOf b.addr = .dram ∧ b.addr % 64 = 0 ∧ b.len = 64 ∧ partCheck d (busWho d b) b.kind b.addr = .pass ∧ smapGet noneAt
      d.mpe.wbuf (b.addr / 64) = none ∧ ccOf d (treeAddr 0 ((b.addr - dramBase) / 4096)) = some c ∧ maj = c.line.major ∧ min = minorOf c.line
      (bits b.addr 11 6) ∧ LineSound d b.addr ∧ b.kind = .write ∧ b.data.length = 64 ∧ min < 126 ∧ e = ctrHold d.mpe.cur ((b.addr - dramBase) /
      4096) d ∧ e.mpe.failing = none ∧ ccOf e (treeAddr 0 ((b.addr - dramBase) / 4096)) = some c1 ∧ c1.line = c.line) ∧
    (∃ (s : State) (d : Dev) (b : Bus) (c : CcLine) (maj : Nat) (min : Nat), Begins s d ∧ mpeServes d = true ∧ dieOn d.sys.mode = true ∧ BusPlain
      d b ∧ zoneOf b.addr = .dram ∧ b.addr % 64 = 0 ∧ b.len = 64 ∧ partCheck d (busWho d b) b.kind b.addr = .pass ∧ smapGet noneAt d.mpe.wbuf
      (b.addr / 64) = none ∧ ccOf d (treeAddr 0 ((b.addr - dramBase) / 4096)) = some c ∧ maj = c.line.major ∧ min = minorOf c.line (bits b.addr
      11 6) ∧ LineSound d b.addr ∧ b.kind = .read ∧ b.cls = 0 ∧ maj = 0 ∧ min = 0) ∧
    (∃ (s : State) (d : Dev) (b : Bus) (c : CcLine) (maj : Nat) (min : Nat), ∃ x, Begins s d ∧ mpeServes d = true ∧ dieOn d.sys.mode = true ∧
      BusPlain d b ∧ zoneOf b.addr = .dram ∧ b.addr % 64 = 0 ∧ b.len = 64 ∧ partCheck d (busWho d b) b.kind b.addr = .pass ∧ smapGet noneAt
      d.mpe.wbuf (b.addr / 64) = none ∧ ccOf d (treeAddr 0 ((b.addr - dramBase) / 4096)) = some c ∧ maj = c.line.major ∧ min = minorOf c.line
      (bits b.addr 11 6) ∧ LineSound d b.addr ∧ b.kind = .read ∧ b.cls = 0 ∧ (maj, min) ≠ (0, 0) ∧ dramOf d b.addr = some ⟨x, lineMac (kMacOf d)
      maj min b.addr x⟩) ∧
    (∃ (s : State) (d : Dev) (b : Bus) (c : CcLine) (maj : Nat) (min : Nat) (dmg : LineDamage), Begins s d ∧ mpeServes d = true ∧ dieOn
      d.sys.mode = true ∧ BusPlain d b ∧ zoneOf b.addr = .dram ∧ b.addr % 64 = 0 ∧ b.len = 64 ∧ partCheck d (busWho d b) b.kind b.addr = .pass ∧
      smapGet noneAt d.mpe.wbuf (b.addr / 64) = none ∧ ccOf d (treeAddr 0 ((b.addr - dramBase) / 4096)) = some c ∧ maj = c.line.major ∧ min =
      minorOf c.line (bits b.addr 11 6) ∧ LineSound d b.addr ∧ b.kind = .read ∧ b.cls = 0 ∧ (maj, min) ≠ (0, 0) ∧ dmg.line = none ∧ dmg.level = 0
      ∧ 2 ≤ dmg.symbols ∧ dmg.ccBits = 0 ∧ (dramOf d b.addr).isSome = true ∧ stopped d.sys.mode = false) ∧
    (∃ (s : State) (d : Dev), Begins s d ∧ mpeServes d = true ∧ dieOn d.sys.mode = true ∧ (∀ kv w, kv ∈ d.mpe.wbuf → kv.2 = some w → epochPassed
      d w.epoch = false)) ∧
    (∃ (s : State) (d : Dev) (n : Nat), ∃ w e c, Begins s d ∧ mpeServes d = true ∧ dieOn d.sys.mode = true ∧ d.mpe.wbuf = [(n, some w)] ∧
      epochPassed d w.epoch = true ∧ zoneOf (n * 64) = .dram ∧ w.data.length = 64 ∧ e = ctrHold d.mpe.cur ((n * 64 - dramBase) / 4096)
      { d with mpe := { d.mpe with wbuf := [] } } ∧ e.mpe.failing = none ∧ ccOf e (treeAddr 0 ((n * 64 - dramBase) / 4096)) = some c ∧ minorOf
      c.line (bits (n * 64) 11 6) < 126) ∧
    (∃ (s : State) (d : Dev), ∃ e, Begins s d ∧ mpeServes d = true ∧ dieOn d.sys.mode = true ∧ e = t1Pass d ∧ e.mpe.failing = none ∧ d.sys.mode ≠
      .drowse ∧ (e.mpe.cur + 1 + 65536 - e.mpe.ver) % 65536 < 4096 ∧ e.mpe.reads = [] ∧ e.mpe.cur < 65536) :=
  ⟨⟨(st (wProtected.getD 0 svc)), _, ((lines).getD 0 (txn 0 .read 0 8)), ⟨⟨0, [(2, 5)]⟩, false, 0⟩, _, _, (begins_st _ rfl rfl rfl),
    (by decide +kernel), (by decide +kernel), (plain_st _ _ (by decide +kernel)), (by decide +kernel), (by decide +kernel), (by decide +kernel),
    (by decide +kernel), (by decide +kernel), (by decide +kernel), rfl, rfl, (by unfold LineSound; decide +kernel), (by decide +kernel)⟩,
   ⟨(st (wProtected.getD 0 svc)), _, ((lines).getD 0 (txn 0 .read 0 8)), ⟨⟨0, [(2, 5)]⟩, false, 0⟩, _, _, _, _, (begins_st _ rfl rfl rfl),
     (by decide +kernel), (by decide +kernel), (plain_st _ _ (by decide +kernel)), (by decide +kernel), (by decide +kernel), (by decide +kernel),
     (by decide +kernel), (by decide +kernel), (by decide +kernel), rfl, rfl, (by unfold LineSound; decide +kernel), (by decide +kernel),
     (by decide +kernel), (by decide +kernel), rfl, (by decide +kernel), (some_of ⟨⟨0, []⟩, false, 0⟩ (by decide +kernel)), (by decide +kernel)⟩,
   ⟨(st (wProtected.getD 0 svc)), _, ((lines).getD 6 (txn 0 .read 0 8)), ⟨⟨0, [(2, 5)]⟩, false, 0⟩, _, _, (begins_st _ rfl rfl rfl),
     (by decide +kernel), (by decide +kernel), (plain_st _ _ (by decide +kernel)), (by decide +kernel), (by decide +kernel), (by decide +kernel),
     (by decide +kernel), (by decide +kernel), (by decide +kernel), rfl, rfl, (by unfold LineSound; decide +kernel), (by decide +kernel)⟩,
   ⟨(st (wProtected.getD 0 svc)), _, ((lines).getD 7 (txn 0 .read 0 8)), ⟨⟨0, [(2, 5)]⟩, false, 0⟩, _, _, (ramp 64 3), (begins_st _ rfl rfl rfl),
     (by decide +kernel), (by decide +kernel), (plain_st _ _ (by decide +kernel)), (by decide +kernel), (by decide +kernel), (by decide +kernel),
     (by decide +kernel), (by decide +kernel), (by decide +kernel), rfl, rfl, (by unfold LineSound; decide +kernel), (by decide +kernel)⟩,
   ⟨(st (wProtected.getD 0 svc)), _, ((lines).getD 7 (txn 0 .read 0 8)), ⟨⟨0, [(2, 5)]⟩, false, 0⟩, _, _, ⟨2, 0, 0, none⟩,
     (begins_st _ rfl rfl rfl), (by decide +kernel), (by decide +kernel), (plain_st _ _ (by decide +kernel)), (by decide +kernel),
     (by decide +kernel), (by decide +kernel), (by decide +kernel), (by decide +kernel), (by decide +kernel), rfl, rfl,
     (by unfold LineSound; decide +kernel), (by decide +kernel)⟩,
   ⟨(st (wProtected.getD 0 svc)), _, (begins_st _ rfl rfl rfl), (by decide +kernel), (by decide +kernel), (fun _ _ h => nomatch (show _ ∈ ([] :
     List (Nat × Option WbLine)) from h))⟩,
   ⟨(st (wProtected.getD 2 svc)), _, 1073741825, ⟨(ramp 64), 0⟩, _, _, (begins_st _ rfl rfl rfl), (by decide +kernel), (by decide +kernel),
     (by decide +kernel), (by decide +kernel), (by decide +kernel), (by decide +kernel), rfl, (by decide +kernel), (some_of ⟨⟨0, []⟩, false, 0⟩
     (by decide +kernel)), (by decide +kernel)⟩,
   ⟨(st (wProtected.getD 0 svc)), _, _, (begins_st _ rfl rfl rfl), (by decide +kernel), (by decide +kernel), rfl, (by decide +kernel)⟩⟩

theorem ProtectedMemoryCommands_met2 :
    (∃ (s : State) (d : Dev), ∃ e, Begins s d ∧ mpeServes d = true ∧ dieOn d.sys.mode = true ∧ e = t1Pass d ∧ e.mpe.failing = none ∧ d.sys.mode ≠
      .drowse ∧ 4096 ≤ (e.mpe.cur + 1 + 65536 - e.mpe.ver) % 65536) ∧
    (∃ (s : State) (d : Dev), ∃ e, ∃ (n : Nat), ∃ c x, Begins s d ∧ mpeServes d = true ∧ dieOn d.sys.mode = true ∧ e = t1Pass d ∧ e.mpe.failing =
      none ∧ d.sys.mode ≠ .drowse ∧ d.sys.mode ≠ .holdup ∧ fld d pgMPE Reg.MPE_CFG_SCRUB_H ≠ 0 ∧ scrubNext e = some n ∧ zoneOf (n * 64) = .dram ∧
      ccOf e (treeAddr 0 ((n * 64 - dramBase) / 4096)) = some c ∧ (c.line.major, minorOf c.line (bits (n * 64) 11 6)) ≠ (0, 0) ∧ LineSound e (n *
      64) ∧ x = lineMac (kMacOf e) c.line.major (minorOf c.line (bits (n * 64) 11 6)) (n * 64) ∧ (∃ y, dramOf e (n * 64) = some ⟨y, x y⟩)) ∧
    (∃ (s : State) (d : Dev) (n : Nat) (r : OutRead), Begins s d ∧ mpeServes d = true ∧ dieOn d.sys.mode = true ∧ d.mpe.reads[n]? = some r ∧
      r.fail = none) ∧
    (∃ (s : State) (d : Dev) (n : Nat) (r : OutRead) (f : MpeFail), Begins s d ∧ mpeServes d = true ∧ dieOn d.sys.mode = true ∧ d.mpe.reads[n]? =
      some r ∧ r.fail = some f ∧ stopped d.sys.mode = false) :=
  ⟨⟨(st (wProtected.getD 3 svc)), _, _, (begins_st _ rfl rfl rfl), (by decide +kernel), (by decide +kernel), rfl, (by decide +kernel)⟩,
   ⟨(st (wProtected.getD 0 svc)), _, _, 1073741826, ⟨⟨0, [(2, 5)]⟩, false, 0⟩, _, (begins_st _ rfl rfl rfl), (by decide +kernel),
     (by decide +kernel), rfl, (by decide +kernel), (by decide +kernel), (by decide +kernel), (by decide +kernel), (by decide +kernel),
     (by decide +kernel), (by decide +kernel), (by decide +kernel), (by unfold LineSound; decide +kernel), rfl, ⟨ramp 64 3, (by decide +kernel)⟩⟩,
   ⟨(st (wProtected.getD 5 svc)), (wProtected.getD 5 svc), 0, ⟨0, dramBase, none⟩, (begins_st _ rfl rfl rfl), (by decide +kernel)⟩,
   ⟨(st (wProtected.getD 5 svc)), (wProtected.getD 5 svc), 1, ⟨0, dramBase, some ⟨0, 1, dramBase, 0⟩⟩, ⟨0, 1, dramBase, 0⟩,
     (begins_st _ rfl rfl rfl), (by decide +kernel)⟩⟩

theorem WellCommands_met1 :
    (∃ (s : State) (d : Dev) (q : Nat) (w : Well) (g : Drbg), Begins s d ∧ q < 4 ∧ w = wellOf d q ∧ g = drbgOf d q ∧ (quarterOf d q).pwr = .on ∧
      w.run = .off ∧ drbgOpen d.sys.mode = true ∧ (hdrOf d (pgENT q)).pwrNow = 0 ∧ (w.pri.run ≠ .failed ∨ w.alt.run ≠ .failed)) ∧
    (∃ (s : State) (d : Dev) (q : Nat) (w : Well) (g : Drbg), Begins s d ∧ q < 4 ∧ w = wellOf d q ∧ g = drbgOf d q ∧ (quarterOf d q).pwr = .on ∧
      w.run = .off ∧ drbgOpen d.sys.mode = true ∧ (hdrOf d (pgENT q)).pwrNow = 0 ∧ w.pri.run = .failed ∧ w.alt.run = .failed) ∧
    (∃ (s : State) (d : Dev) (q : Nat) (w : Well) (g : Drbg) (alt : Bool) (x : Bytes), ∃ b d1 n h, Begins s d ∧ q < 4 ∧ w = wellOf d q ∧ g =
      drbgOf d q ∧ w.subst = false ∧ ((noiseOf w alt).run = .testing ∨ (noiseOf w alt).run = .retest) ∧ someSamples startupSamples x d = (b, d1)
      ∧ healthRun alt b healthReset = (n, h) ∧ n = [] ∧ w.feed = none ∧ w.run ≠ .entFail) ∧
    (∃ (s : State) (d : Dev) (q : Nat) (w : Well) (g : Drbg) (alt : Bool) (x : Bytes), ∃ b d1 n h, Begins s d ∧ q < 4 ∧ w = wellOf d q ∧ g =
      drbgOf d q ∧ w.subst = false ∧ ((noiseOf w alt).run = .testing ∨ (noiseOf w alt).run = .retest) ∧ someSamples startupSamples x d = (b, d1)
      ∧ healthRun alt b healthReset = (n, h) ∧ n = [] ∧ w.feed = none ∧ w.run = .entFail) ∧
    (∃ (s : State) (d : Dev) (q : Nat) (w : Well) (g : Drbg) (alt : Bool) (x : Bytes), ∃ b d1 n h, Begins s d ∧ q < 4 ∧ w = wellOf d q ∧ g =
      drbgOf d q ∧ w.subst = false ∧ ((noiseOf w alt).run = .testing ∨ (noiseOf w alt).run = .retest) ∧ someSamples startupSamples x d = (b, d1)
      ∧ healthRun alt b healthReset = (n, h) ∧ n ≠ [] ∧ (noiseOf w alt).run = .retest) ∧
    (∃ (s : State) (d : Dev) (q : Nat) (w : Well) (g : Drbg) (alt : Bool) (x : Bytes), ∃ b d1 n h, Begins s d ∧ q < 4 ∧ w = wellOf d q ∧ g =
      drbgOf d q ∧ w.subst = false ∧ ((noiseOf w alt).run = .testing ∨ (noiseOf w alt).run = .retest) ∧ someSamples startupSamples x d = (b, d1)
      ∧ healthRun alt b healthReset = (n, h) ∧ n ≠ [] ∧ alt = false ∧ w.run = .startup ∧ w.pri.run = .testing ∧ w.alt.run = .idle) ∧
    (∃ (s : State) (d : Dev) (q : Nat) (w : Well) (g : Drbg) (x : Bytes), ∃ n h, Begins s d ∧ q < 4 ∧ w = wellOf d q ∧ g = drbgOf d q ∧ w.subst =
      false ∧ w.pri.run = .running ∧ healthRun false x w.pri.health = (n, h) ∧ n = []) ∧
    (∃ (s : State) (d : Dev) (q : Nat) (w : Well) (g : Drbg) (x : Bytes), ∃ n h, Begins s d ∧ q < 4 ∧ w = wellOf d q ∧ g = drbgOf d q ∧ w.subst =
      false ∧ w.pri.run = .running ∧ healthRun false x w.pri.health = (n, h) ∧ n ≠ [] ∧ w.run ≠ .diag ∧ w.feed = some false ∧ w.alt.run = .idle) :=
  ⟨⟨(st (wWell.getD 0 svc)), _, 0, _, _, (begins_st _ rfl rfl rfl), (by decide +kernel), rfl, rfl, (by decide +kernel)⟩,
   ⟨(st wellCommandsState1), _, 0, _, _, (begins_st _ rfl rfl rfl), (by decide +kernel), rfl, rfl, (by decide +kernel)⟩,
   ⟨(st (wWell.getD 1 svc)), _, 0, _, _, false, (ramp 1024), (ramp 1024), (wWell.getD 1 svc), _, _, (begins_st _ rfl rfl rfl),
     (by decide +kernel), rfl, rfl, (by decide +kernel), (by decide +kernel), (pair_of (by decide +kernel) (by decide +kernel)), (pair_eta _),
     (by decide +kernel), (by decide +kernel)⟩,
   ⟨(st (wWell.getD 2 svc)), _, 0, _, _, false, (ramp 1024), (ramp 1024), (wWell.getD 2 svc), _, _, (begins_st _ rfl rfl rfl),
     (by decide +kernel), rfl, rfl, (by decide +kernel), (by decide +kernel), (pair_of (by decide +kernel) (by decide +kernel)), (pair_eta _),
     (by decide +kernel), (by decide +kernel)⟩,
   ⟨(st (wWell.getD 2 svc)), _, 0, _, _, false, (zeros 1024), (zeros 1024), (wWell.getD 2 svc), _, _, (begins_st _ rfl rfl rfl),
     (by decide +kernel), rfl, rfl, (by decide +kernel), (by decide +kernel), (pair_of (by decide +kernel) (by decide +kernel)), (pair_eta _),
     (by decide +kernel)⟩,
   ⟨(st (wWell.getD 1 svc)), _, 0, _, _, false, (zeros 1024), (zeros 1024), (wWell.getD 1 svc), _, _, (begins_st _ rfl rfl rfl),
     (by decide +kernel), rfl, rfl, (by decide +kernel), (by decide +kernel), (pair_of (by decide +kernel) (by decide +kernel)), (pair_eta _),
     (by decide +kernel)⟩,
   ⟨(st (wWell.getD 3 svc)), _, 0, _, _, (ramp 80), _, _, (begins_st _ rfl rfl rfl), (by decide +kernel), rfl, rfl, (by decide +kernel),
     (by decide +kernel), (pair_eta _), (by decide +kernel)⟩,
   ⟨(st (wWell.getD 3 svc)), _, 0, _, _, (zeros 80), _, _, (begins_st _ rfl rfl rfl), (by decide +kernel), rfl, rfl, (by decide +kernel),
     (by decide +kernel), (pair_eta _), (by decide +kernel)⟩⟩

theorem WellCommands_met2 :
    (∃ (s : State) (d : Dev) (q : Nat) (w : Well) (g : Drbg) (alt : Bool), Begins s d ∧ q < 4 ∧ w = wellOf d q ∧ g = drbgOf d q ∧ (noiseOf w
      alt).run = .waiting ∧ (w.run = .primary ∨ w.run = .alternate ∨ w.run = .entFail)) ∧
    (∃ (s : State) (d : Dev) (q : Nat) (w : Well) (g : Drbg), Begins s d ∧ q < 4 ∧ w = wellOf d q ∧ g = drbgOf d q ∧ w.goBack = true ∧ w.feed =
      some true ∧ w.pri.run = .running ∧ w.run = .alternate) ∧
    (∃ (s : State) (d : Dev) (q : Nat) (w : Well) (g : Drbg) (alt : Bool) (x : Bytes), ∃ b d1 n h, Begins s d ∧ q < 4 ∧ w = wellOf d q ∧ g =
      drbgOf d q ∧ w.feed = some alt ∧ w.run ≠ .diag ∧ w.subst = false ∧ w.pool.length + 2 ≤ 16 ∧ someSamples (if alt then 54 else 80) x d = (b,
      d1) ∧ healthRun alt b (noiseOf w alt).health = (n, h) ∧ n = []) ∧
    (∃ (s : State) (d : Dev) (q : Nat) (w : Well) (g : Drbg) (alt : Bool) (x : Bytes), ∃ b d1 n h, Begins s d ∧ q < 4 ∧ w = wellOf d q ∧ g =
      drbgOf d q ∧ w.feed = some alt ∧ w.run ≠ .diag ∧ w.subst = false ∧ w.pool.length + 2 ≤ 16 ∧ someSamples (if alt then 54 else 80) x d = (b,
      d1) ∧ healthRun alt b (noiseOf w alt).health = (n, h) ∧ n ≠ []) ∧
    (∃ (s : State) (d : Dev) (q : Nat) (w : Well) (g : Drbg), ∃ u1 u2 u3 rest, Begins s d ∧ q < 4 ∧ w = wellOf d q ∧ g = drbgOf d q ∧ g.src =
      some q ∧ w.pool = u1 :: u2 :: u3 :: rest ∧ drbgDue g = true ∧ drbgOpen d.sys.mode = true) ∧
    (∃ (s : State) (d : Dev) (q : Nat) (w : Well) (g : Drbg), Begins s d ∧ q < 4 ∧ w = wellOf d q ∧ g = drbgOf d q ∧ drbgOpen d.sys.mode = true ∧
      drbgDue g = false ∧ g.src = some q ∧ (quarterOf d q).pwr = .on ∧ g.buf.length ≤ 12288 ∧ w.stalls = []) ∧
    (∃ (s : State) (d : Dev) (q : Nat) (w : Well) (g : Drbg), ∃ n, Begins s d ∧ q < 4 ∧ w = wellOf d q ∧ g = drbgOf d q ∧ n ≠ 0 ∧ (quarterOf d
      q).pwr = .on ∧ RandomAt d q n) ∧
    (∃ (s : State) (d : Dev) (q : Nat) (w : Well) (g : Drbg), ∃ n, Begins s d ∧ q < 4 ∧ w = wellOf d q ∧ g = drbgOf d q ∧ n ≠ 0 ∧ (quarterOf d
      q).pwr = .on ∧ w.run = .entFail) :=
  ⟨⟨(st (wWell.getD 2 svc)), _, 0, _, _, true, (begins_st _ rfl rfl rfl), (by decide +kernel), rfl, rfl, (by decide +kernel)⟩,
   ⟨(st (wWell.getD 5 svc)), _, 0, _, _, (begins_st _ rfl rfl rfl), (by decide +kernel), rfl, rfl, (by decide +kernel)⟩,
   ⟨(st (wWell.getD 3 svc)), _, 0, _, _, false, (ramp 80), (ramp 80), (wWell.getD 3 svc), _, _, (begins_st _ rfl rfl rfl), (by decide +kernel),
     rfl, rfl, (by decide +kernel), (by decide +kernel), (by decide +kernel), (by decide +kernel), (pair_of (by decide +kernel)
     (by decide +kernel)), (pair_eta _), (by decide +kernel)⟩,
   ⟨(st (wWell.getD 3 svc)), _, 0, _, _, false, (zeros 80), (zeros 80), (wWell.getD 3 svc), _, _, (begins_st _ rfl rfl rfl), (by decide +kernel),
     rfl, rfl, (by decide +kernel), (by decide +kernel), (by decide +kernel), (by decide +kernel), (pair_of (by decide +kernel)
     (by decide +kernel)), (pair_eta _), (by decide +kernel)⟩,
   ⟨(st (wWell.getD 4 svc)), _, 0, _, _, (ramp 16), (ramp 16 1), (ramp 16 2), [], (begins_st _ rfl rfl rfl), (by decide +kernel), rfl, rfl,
     (by decide +kernel)⟩,
   ⟨(st (wWell.getD 0 svc)), _, 0, _, _, (begins_st _ rfl rfl rfl), (by decide +kernel), rfl, rfl, (by decide +kernel)⟩,
   ⟨(st (wWell.getD 0 svc)), _, 0, _, _, 1, (begins_st _ rfl rfl rfl), (by decide +kernel), rfl, rfl, (by decide +kernel), (by decide +kernel),
     (by unfold RandomAt NoReads; decide +kernel)⟩,
   ⟨(st (wWell.getD 2 svc)), _, 0, _, _, 1, (begins_st _ rfl rfl rfl), (by decide +kernel), rfl, rfl, (by decide +kernel)⟩⟩

theorem WellCommands_met3 :
    ∃ (s : State) (d : Dev) (q : Nat) (w : Well) (g : Drbg), ∃ n, Begins s d ∧ q < 4 ∧ w = wellOf d q ∧ g = drbgOf d q ∧ n ≠ 0 ∧ (quarterOf d
      q).pwr = .on ∧ w.run ≠ .entFail ∧ drbgOpen d.sys.mode = true ∧ w.stalls = [] ∧ w.grants = [] ∧ g.buf.length < n ∧ g.src = some q ∧ drbgDue
      g = true ∧ w.pool = [] :=
  ⟨(st (wWell.getD 6 svc)), _, 0, _, _, 1, (begins_st _ rfl rfl rfl), (by decide +kernel), rfl, rfl, (by decide +kernel)⟩

theorem EntropyRegisterCommands_met :
    (∃ (s : State) (d : Dev) (a : Access), ∃ n g, Begins s d ∧ AwakeFor d a ∧ n = (if (seenAs a).sec then 4 else 5) ∧ g = drbgOf d n ∧ reach d a
      pgDRBG 0x044 = .page ∧ readRefused d (seenAs a) .drbg pgDRBG = false ∧ (∀ m, m = 4 ∨ m = 5 → (drbgOf d m).src = nextOn d (fld d pgDRBG
      Reg.DRBG_SW_CFG_SRC_Q)) ∧ 4 ≤ g.buf.length ∧ drbgOpen d.sys.mode = true) ∧
    (∃ (s : State) (d : Dev) (a : Access), ∃ n g, Begins s d ∧ AwakeFor d a ∧ n = (if (seenAs a).sec then 4 else 5) ∧ g = drbgOf d n ∧ reach d a
      pgDRBG 0x044 = .page ∧ readRefused d (seenAs a) .drbg pgDRBG = false ∧ (∀ m, m = 4 ∨ m = 5 → (drbgOf d m).src = nextOn d (fld d pgDRBG
      Reg.DRBG_SW_CFG_SRC_Q)) ∧ g.buf.length < 4) ∧
    (∃ (s : State) (d : Dev) (a : Access), Begins s d ∧ AwakeFor d a ∧ reach d a pgDRBG 0x048 = .page ∧ (hdrOf d pgDRBG).softRst = false) ∧
    (∃ (s : State) (d : Dev) (a : Access), ∃ q w p, Begins s d ∧ AwakeFor d a ∧ q < 4 ∧ w = wellOf d q ∧ p = pgENT q ∧ (admitWrite (seenAs a) p
      0x058 d).1 = some .ent ∧ (hdrOf d p).softRst = false ∧ w.subst = false ∧ d.sys.mode = .diagnostic ∧ w.run ≠ .off ∧ w.capturing = false ∧
      secureRange d (capBase d q) (capLen d q) = true) ∧
    (∃ (s : State) (d : Dev) (a : Access), ∃ q w p, Begins s d ∧ AwakeFor d a ∧ q < 4 ∧ w = wellOf d q ∧ p = pgENT q ∧ (admitWrite (seenAs a) p
      0x058 d).1 = some .ent ∧ (hdrOf d p).softRst = false ∧ w.subst = false ∧ d.sys.mode ≠ .diagnostic ∧ (hdrOf d p).cfgErr = false) ∧
    (∃ (s : State) (d : Dev) (a : Access), ∃ q w p v, Begins s d ∧ AwakeFor d a ∧ q < 4 ∧ w = wellOf d q ∧ p = pgENT q ∧ (admitWrite (seenAs a) p
      0x058 d).1 = some .ent ∧ (hdrOf d p).softRst = false ∧ w.subst = false ∧ d.sys.mode = .factoryTest ∧ bit v 30 = true ∧ fld d p
      Reg.ENT_PATTERN_PATTERN ≠ 0) ∧
    (∃ (s : State) (d : Dev) (a : Access), ∃ q w p x alt base h, Begins s d ∧ AwakeFor d a ∧ q < 4 ∧ w = wellOf d q ∧ p = pgENT q ∧ h =
      (healthAll alt x (noiseOf w alt).health).2 ∧ w.capture = some ⟨alt, base, x.length⟩ ∧ 0 < x.length ∧ base % 4096 + x.length ≤ 4096 ∧ zoneOf
      base = .qsram q ∧ (quarterOf d q).pwr = .on ∧ partCheck d (whoDevice q true) .write base = .pass) :=
  ⟨⟨(st (wPort.getD 0 svc)), _, acc, _, _, (begins_st _ rfl rfl rfl), (awakeFor_st _ _ (by decide +kernel)), rfl, rfl, (by decide +kernel),
    (by decide +kernel), (by intro m h; rcases h with rfl | rfl <;> decide +kernel), (by decide +kernel)⟩,
   ⟨(st (wPort.getD 1 svc)), _, acc, _, _, (begins_st _ rfl rfl rfl), (awakeFor_st _ _ (by decide +kernel)), rfl, rfl, (by decide +kernel),
     (by decide +kernel), (by intro m h; rcases h with rfl | rfl <;> decide +kernel), (by decide +kernel)⟩,
   ⟨(st (wPort.getD 0 svc)), _, acc, (begins_st _ rfl rfl rfl), (awakeFor_st _ _ (by decide +kernel)), (by decide +kernel)⟩,
   ⟨(st (wPort.getD 2 svc)), _, acc, 0, _, _, (begins_st _ rfl rfl rfl), (awakeFor_st _ _ (by decide +kernel)), (by decide +kernel), rfl, rfl,
     (by decide +kernel)⟩,
   ⟨(st (wPort.getD 0 svc)), _, acc, 0, _, _, (begins_st _ rfl rfl rfl), (awakeFor_st _ _ (by decide +kernel)), (by decide +kernel), rfl, rfl,
     (by decide +kernel)⟩,
   ⟨(st (wPort.getD 4 svc)), _, acc, 0, _, _, 1073741824, (begins_st _ rfl rfl rfl), (awakeFor_st _ _ (by decide +kernel)), (by decide +kernel),
     rfl, rfl, (by decide +kernel)⟩,
   ⟨(st (wPort.getD 3 svc)), _, acc, 0, _, _, (ramp 4), false, 0x20003000, _, (begins_st _ rfl rfl rfl), (awakeFor_st _ _ (by decide +kernel)),
     (by decide +kernel), rfl, rfl, rfl, (by decide +kernel)⟩⟩

theorem HartCallCommands_met1 :
    (∃ (s : State) (d : Dev) (h : Nat) (x : Hart), ∃ fid ns, Begins s d ∧ x = hartOf d h ∧ stileOpen d h = true ∧ (fid, ns) ∈ stileTable) ∧
    (∃ (s : State) (d : Dev) (h : Nat) (x : Hart), ∃ fid, Begins s d ∧ x = hartOf d h ∧ stileOpen d h = true ∧ (∀ ns, (fid, ns) ∉ stileTable)) ∧
    (∃ (s : State) (d : Dev) (h : Nat) (x : Hart), ∃ c, Begins s d ∧ x = hartOf d h ∧ stileOpen d h = true ∧ x.world = false ∧ c ∈
      [Instr.hartWake h 2 0 0 1, .hartRetire h 0, .modeRequest h 4, .fwConfirm h, .nsEntry h 1 0 0, .hostcfgSet h 0, .debugNonce h 0]) ∧
    (∃ (s : State) (d : Dev) (h : Nat) (x : Hart), ∃ mask entry, ∃ (sec : Bool), Begins s d ∧ x = hartOf d h ∧ stileOpen d h = true ∧ x.world =
      true ∧ d.sys.hartState = true ∧ 0 < mask ∧ mask < 65536 ∧ (∀ m, m < 16 → bit mask m = true → ((hartOf d m).run = .off ∨ (hartOf d m).run =
      .inReset) ∧ entryOk d m entry sec = true ∧ quarterServes d (m / 4) = true ∧ (quarterOf d (m / 4)).disabled = false)) ∧
    (∃ (s : State) (d : Dev) (h : Nat) (x : Hart), ∃ mask entry, ∃ (sec : Bool), Begins s d ∧ x = hartOf d h ∧ stileOpen d h = true ∧ x.world =
      true ∧ 0 < mask ∧ mask < 65536 ∧ (∀ m, m < 16 → bit mask m = true → ((hartOf d m).run = .running ∨ (hartOf d m).run = .parked) ∧ entryOk d
      m entry sec = true ∧ quarterServes d (m / 4) = true ∧ (quarterOf d (m / 4)).disabled = false)) ∧
    (∃ (s : State) (d : Dev) (h : Nat) (x : Hart), Begins s d ∧ x = hartOf d h ∧ stileOpen d h = true ∧ x.world = true ∧ h ≠ 0) ∧
    (∃ (s : State) (d : Dev) (h : Nat) (x : Hart), Begins s d ∧ x = hartOf d h ∧ stileOpen d h = true ∧ x.world = true ∧ h = 0) ∧
    (∃ (s : State) (d : Dev) (h : Nat) (x : Hart), ∃ mask entry, Begins s d ∧ x = hartOf d h ∧ stileOpen d h = true ∧ x.world = true ∧ 0 < mask ∧
      mask < 65536 ∧ (∀ m, m < 16 → bit mask m = true → entryOk d m entry false = true)) :=
  ⟨⟨(st (wHart.getD 0 svc)), _, 0, _, 65536, true, (begins_st _ rfl rfl rfl), rfl, (by decide +kernel)⟩,
   ⟨(st (wHart.getD 0 svc)), _, 0, _, 0, (begins_st _ rfl rfl rfl), rfl, (by decide +kernel)⟩,
   ⟨(st (wHart.getD 0 svc)), _, 2, _, (Instr.hartWake 2 2 0 0 1), (begins_st _ rfl rfl rfl), rfl, (by decide +kernel)⟩,
   ⟨(st hartsHeld), _, 0, _, 8, 0, true, (begins_st _ rfl rfl rfl), rfl, (by decide +kernel)⟩,
   ⟨(st (wHart.getD 0 svc)), _, 0, _, 1, 0, true, (begins_st _ rfl rfl rfl), rfl, (by decide +kernel)⟩,
   ⟨(st (wHart.getD 0 svc)), _, 1, _, (begins_st _ rfl rfl rfl), rfl, (by decide +kernel)⟩,
   ⟨(st (wHart.getD 0 svc)), _, _, _, (begins_st _ rfl rfl rfl), rfl, (by decide +kernel), (by decide +kernel), rfl⟩,
   ⟨(st (wHart.getD 0 svc)), _, 0, _, 1, 0x30000000, (begins_st _ rfl rfl rfl), rfl, (by decide +kernel)⟩⟩

theorem HartCallCommands_met2 :
    (∃ (s : State) (d : Dev) (h : Nat) (x : Hart), Begins s d ∧ x = hartOf d h ∧ stileOpen d h = true ∧ ctxOther d h = none) ∧
    (∃ (s : State) (d : Dev) (h : Nat) (x : Hart), ∃ arg e saved, Begins s d ∧ x = hartOf d h ∧ stileOpen d h = true ∧ ctxOther d h = some ⟨some
      e, arg, saved⟩) ∧
    (∃ (s : State) (d : Dev) (h : Nat) (x : Hart), ∃ arg saved, Begins s d ∧ x = hartOf d h ∧ stileOpen d h = true ∧ ctxOther d h = some ⟨none,
      arg, saved⟩) ∧
    (∃ (s : State) (d : Dev) (h : Nat) (x : Hart), ∃ c, Begins s d ∧ x = hartOf d h ∧ hartRuns d h = true ∧ x.priv ≠ .machine ∧ x.world = false ∧
      bankLine d h true = true ∧ d.sys.stage = .firmware ∧ x.secCtx = some c) :=
  ⟨⟨(st (wHart.getD 0 svc)), _, 0, _, (begins_st _ rfl rfl rfl), rfl, (by decide +kernel)⟩,
   ⟨(st (wHart.getD 1 svc)), _, 1, _, 5, 805306368, [], (begins_st _ rfl rfl rfl), rfl, (by decide +kernel)⟩,
   ⟨(st (wHart.getD 2 svc)), _, 2, _, 5, ([9]), (begins_st _ rfl rfl rfl), rfl, (by decide +kernel)⟩,
   ⟨(st (wSwitch.getD 0 svc)), _, 2, _, ({ entry := none, arg := 5, saved := [9] }), (begins_st _ rfl rfl rfl), rfl, (by decide +kernel)⟩⟩

theorem FirmwareCallCommands_met1 :
    (∃ (s : State) (d : Dev) (h : Nat), ∃ code, Begins s d ∧ stileOpen d h = true ∧ (hartOf d h).world = true ∧ d.sys.draining = none ∧ (∀ m, m ∈
      [Mode.service, .drowse, .diagnostic, .factoryTest] → modeOf code ≠ some m)) ∧
    (∃ (s : State) (d : Dev) (h : Nat), ∃ code, Begins s d ∧ stileOpen d h = true ∧ (hartOf d h).world = true ∧ d.sys.draining = none ∧ code ∈
      [5, 7] ∧ d.sys.mode = .startup) ∧
    (∃ (s : State) (d : Dev) (h : Nat), Begins s d ∧ stileOpen d h = true ∧ (hartOf d h).world = true ∧ d.sys.draining = none ∧ bankReady d =
      true ∧ d.sys.mode = .startup ∧ fld d pgSYS Reg.SYS_BOOT_STAT_STEP = 14 ∧ (∀ kv, kv ∈ d.mgr.insts → kv.2.run ≠ .resetting)) ∧
    (∃ (s : State) (d : Dev) (h : Nat), Begins s d ∧ stileOpen d h = true ∧ (hartOf d h).world = true ∧ d.sys.draining = none ∧ d.cmd.cmds = [] ∧
      d.sys.mode = .service) ∧
    (∃ (s : State) (d : Dev) (h : Nat), ∃ a0, Begins s d ∧ stileOpen d h = true ∧ (hartOf d h).world = true ∧ a0 ≠ 0x52455354) ∧
    (∃ (s : State) (d : Dev) (h : Nat), Begins s d ∧ stileOpen d h = true ∧ (hartOf d h).world = true ∧ d.fuse.lc0 = 0 ∧ d.fuse.lc1 = 0 ∧
      d.fuse.lc2 = 0 ∧ d.nv.journal = none ∧ d.lc.op = none) ∧
    (∃ (s : State) (d : Dev) (h : Nat), ∃ addr len b, Begins s d ∧ stileOpen d h = true ∧ (hartOf d h).world = true ∧ stopped d.sys.mode = false
      ∧ d.nv.actSlot < 2 ∧ 4352 ≤ len ∧ len ≤ 0x2002000 ∧ monRange d h .read addr len = true ∧ monRead h addr len d = (b, d)) ∧
    (∃ (s : State) (d : Dev) (h : Nat), Begins s d ∧ stileOpen d h = true ∧ (hartOf d h).world = true ∧ onTrial d = true ∧ stopped d.sys.mode =
      false) :=
  ⟨⟨(st (wFirm.getD 0 svc)), _, 0, 0x30000000, (begins_st _ rfl rfl rfl), (by decide +kernel)⟩,
   ⟨(st (wFirm.getD 1 svc)), _, 0, (5), (begins_st _ rfl rfl rfl), (by decide +kernel)⟩,
   ⟨(st (wFirm.getD 1 svc)), _, 0, (begins_st _ rfl rfl rfl), (by decide +kernel)⟩,
   ⟨(st (wFirm.getD 0 svc)), _, 0, (begins_st _ rfl rfl rfl), (by decide +kernel)⟩,
   ⟨(st (wFirm.getD 0 svc)), _, 0, 0x30000000, (begins_st _ rfl rfl rfl), (by decide +kernel)⟩,
   ⟨(st (wFirm.getD 3 svc)), _, 0, (begins_st _ rfl rfl rfl), (by decide +kernel)⟩,
   ⟨(st (wFirm.getD 0 svc)), _, 0, 0x20004000, 4352, _, (begins_st _ rfl rfl rfl), (by decide +kernel), (by decide +kernel), (by decide +kernel),
     (by decide +kernel), (by decide +kernel), (by decide +kernel), (by decide +kernel), (pair_of rfl (by decide +kernel))⟩,
   ⟨(st (wFirm.getD 4 svc)), _, 0, (begins_st _ rfl rfl rfl), (by decide +kernel)⟩⟩

theorem FirmwareCallCommands_met2 :
    (∃ (s : State) (d : Dev) (h : Nat), Begins s d ∧ stileOpen d h = true ∧ (hartOf d h).world = true ∧ onTrial d = false) ∧
    (∃ (s : State) (d : Dev) (h : Nat), ∃ addr b n row, Begins s d ∧ stileOpen d h = true ∧ (hartOf d h).world = true ∧ monRange d h .read addr
      48 = true ∧ monRead h addr 48 d = (b, d) ∧ d.sys.runRow = some row ∧ rowFree d = some n ∧ d.fuse.owner.length = 4) ∧
    (∃ (s : State) (d : Dev) (h : Nat), ∃ addr b, Begins s d ∧ stileOpen d h = true ∧ (hartOf d h).world = true ∧ monRange d h .read addr 48 =
      true ∧ monRead h addr 48 d = (b, d) ∧ d.sys.runRow = none) ∧
    (∃ (s : State) (d : Dev) (h : Nat), ∃ row other r, Begins s d ∧ stileOpen d h = true ∧ (hartOf d h).world = true ∧ row < 4 ∧ other < 4 ∧
      other ≠ row ∧ d.fuse.owner.length = 4 ∧ d.sys.runRow ≠ some row ∧ d.fuse.owner[other]? = some r ∧ r.digest.isSome = true ∧ r.revoked =
      false) ∧
    (∃ (s : State) (d : Dev) (h : Nat), ∃ c, Begins s d ∧ stileOpen d h = true ∧ (hartOf d h).world = true ∧ stopped d.sys.mode = true ∧ ((∃ addr
      len ok, c = Instr.fwStage h addr len ok) ∨ c = .fwConfirm h ∨ (∃ addr, c = .hostcfgSet h addr))) ∧
    (∃ (s : State) (d : Dev) (h : Nat), ∃ addr b, Begins s d ∧ stileOpen d h = true ∧ (hartOf d h).world = true ∧ stopped d.sys.mode = false ∧
      monRange d h .read addr 32 = true ∧ monRead h addr 32 d = (b, d)) ∧
    (∃ (s : State) (d : Dev) (h : Nat), ∃ addr, Begins s d ∧ stileOpen d h = true ∧ (hartOf d h).world = true ∧ monRange d h .write addr 32 =
      true ∧ inPlain d addr ∧ addr % 4096 + 32 ≤ 4096 ∧ partCheck d (whoMon h) .write addr = .pass) ∧
    (∃ (s : State) (d : Dev) (h : Nat), ∃ addr len b, Begins s d ∧ stileOpen d h = true ∧ (hartOf d h).world = true ∧ stopped d.sys.mode = false
      ∧ 0 < len ∧ len < 2 ^ 32 ∧ monRange d h .read addr len = true ∧ certTicketed d.sys.lc = false ∧ monRead h addr len
      { d with sys := { d.sys with dbgNonce := none } } = (b, { d with sys := { d.sys with dbgNonce := none } })) :=
  ⟨⟨(st (wFirm.getD 0 svc)), _, 0, (begins_st _ rfl rfl rfl), (by decide +kernel)⟩,
   ⟨(st (wFirm.getD 5 svc)), _, 0, 0x20004000, (zeros 48), 1, 0, (begins_st _ rfl rfl rfl), (by decide +kernel)⟩,
   ⟨(st (wFirm.getD 0 svc)), _, 0, 0x20004000, (zeros 48), (begins_st _ rfl rfl rfl), (by decide +kernel)⟩,
   ⟨(st (wFirm.getD 5 svc)), _, 0, 1, 0, ⟨some (ramp 48), false⟩, (begins_st _ rfl rfl rfl), (by decide +kernel)⟩,
   ⟨(st (calm .halted firm)), _, 0, (.fwConfirm 0), (begins_st _ rfl rfl rfl), (by decide +kernel), (by decide +kernel), (by decide +kernel),
     (.inr (.inl rfl))⟩,
   ⟨(st (wFirm.getD 0 svc)), _, 0, 0x20004000, (zeros 32), (begins_st _ rfl rfl rfl), (by decide +kernel)⟩,
   ⟨(st (wFirm.getD 0 svc)), _, 0, 0x20004000, (begins_st _ rfl rfl rfl), (by decide +kernel), (by decide +kernel), (by decide +kernel), (.inr
     ⟨0, (by decide +kernel), (by decide +kernel)⟩), (by decide +kernel)⟩,
   ⟨(st (wFirm.getD 6 svc)), _, 0, 0x20004000, 1, [0], (begins_st _ rfl rfl rfl), (by decide +kernel)⟩⟩

def faultCommandsState2b : Dev :=
  modHart (wFault.getD 0 svc) 0 (fun h => { h with nest := true })

theorem FaultCommands_met1 :
    (∃ (s : State) (d : Dev), ∃ h, Begins s d ∧ hartRuns d h = true ∧ (hartOf d h).priv ≠ .user) ∧
    (∃ (s : State) (d : Dev), ∃ h, Begins s d ∧ fltServes d = true ∧ bankSources d h true = [] ∧ bankSources d h false = [] ∧ h < 16 ∧ (hartOf d
      h).run = .running ∧ (quarterOf d (h / 4)).pwr = .on ∧ wdtOn d (h / 4) = true ∧ d.sys.mode ≠ .drowse) ∧
    (∃ (s : State) (d : Dev), ∃ h, Begins s d ∧ fltServes d = true ∧ bankSources d h true = [] ∧ bankSources d h false = [] ∧ hartRuns d h = true
      ∧ (hartOf d h).nest = true) ∧
    (∃ (s : State) (d : Dev), ∃ f g, Begins s d ∧ fltServes d = true ∧ d.sys.mode ≠ .drowse ∧ d.raised = [f] ∧ g = fixClass d f ∧ mergesWith g
      (fltAll d) = true) ∧
    (∃ (s : State) (d : Dev), ∃ f g, Begins s d ∧ fltServes d = true ∧ d.sys.mode ≠ .drowse ∧ d.raised = [f] ∧ g = fixClass d f ∧ mergesWith g
      (fltAll d) = false ∧ fltFree d g.cls = true ∧ (g.cls = .core ∨ g.cls = .quarter)) ∧
    (∃ (s : State) (d : Dev), ∃ f g, Begins s d ∧ fltServes d = true ∧ d.sys.mode ≠ .drowse ∧ d.raised = [f] ∧ g = fixClass d f ∧ mergesWith g
      (fltAll d) = false ∧ fltFree d g.cls = false ∧ d.flt.queue.length < 8) ∧
    (∃ (s : State) (d : Dev), ∃ f g, Begins s d ∧ fltServes d = true ∧ d.sys.mode ≠ .drowse ∧ d.raised = [f] ∧ g = fixClass d f ∧ mergesWith g
      (fltAll d) = false ∧ fltFree d g.cls = false ∧ 8 ≤ d.flt.queue.length) ∧
    (∃ (s : State) (d : Dev), ∃ f, Begins s d ∧ fltServes d = true ∧ d.sys.mode ≠ .drowse ∧ d.flt.rst = none ∧ d.flt.halt = none ∧ d.flt.queue =
      [] ∧ d.flt.core = some f ∧ d.flt.quarter = none ∧ f.subj < 16 ∧ (quarterOf d (f.subj / 4)).disabled = false) :=
  ⟨⟨(st (wFault.getD 0 svc)), _, 0, (begins_st _ rfl rfl rfl), (by decide +kernel)⟩,
   ⟨(st (wFault.getD 0 svc)), _, 0, (begins_st _ rfl rfl rfl), (by decide +kernel)⟩,
   ⟨(st faultCommandsState2b), _, 0, (begins_st _ rfl rfl rfl), (by decide +kernel)⟩,
   ⟨(st (wFault.getD 2 svc)), _, ({ cls := FltClass.core, cause := 1, subj := 1 }), _, (begins_st _ rfl rfl rfl), (by decide +kernel),
     (by decide +kernel), (by decide +kernel), rfl, (by decide +kernel)⟩,
   ⟨(st (wFault.getD 1 svc)), _, ({ cls := FltClass.core, cause := 1, subj := 1 }), _, (begins_st _ rfl rfl rfl), (by decide +kernel),
     (by decide +kernel), (by decide +kernel), rfl, (by decide +kernel)⟩,
   ⟨(st (wFault.getD 3 svc)), _, ({ cls := FltClass.core, cause := 1, subj := 2 }), _, (begins_st _ rfl rfl rfl), (by decide +kernel),
     (by decide +kernel), (by decide +kernel), rfl, (by decide +kernel)⟩,
   ⟨(st (wFault.getD 4 svc)), _, ({ cls := FltClass.core, cause := 1, subj := 2 }), _, (begins_st _ rfl rfl rfl), (by decide +kernel),
     (by decide +kernel), (by decide +kernel), rfl, (by decide +kernel)⟩,
   ⟨(st (wFault.getD 2 svc)), _, ({ cls := FltClass.core, cause := 1, subj := 1 }), (begins_st _ rfl rfl rfl), (by decide +kernel)⟩⟩

theorem FaultCommands_met2 :
    (∃ (s : State) (d : Dev), ∃ f, Begins s d ∧ fltServes d = true ∧ d.sys.mode ≠ .drowse ∧ d.flt.rst = none ∧ d.flt.halt = none ∧ d.flt.queue =
      [] ∧ d.flt.quarter = some f ∧ f.subj < 4) ∧
    (∃ (s : State) (d : Dev), Begins s d ∧ fltServes d = false) :=
  ⟨⟨(st (wFault.getD 6 svc)), _, ({ cls := FltClass.quarter, cause := 1, subj := 1 }), (begins_st _ rfl rfl rfl), (by decide +kernel)⟩,
   ⟨(st (wFault.getD 7 svc)), _, (begins_st _ rfl rfl rfl), (by decide +kernel)⟩⟩

theorem InterruptAndPinCommands_met1 :
    (∃ (s : State) (d : Dev) (a : Access) (sec : Bool), ∃ core p n, Begins s d ∧ AwakeFor d a ∧ sec = (seenAs a).sec ∧ core < 16 ∧ p = pgIRQC
      core ∧ reach d a p 0x048 = .page ∧ readRefused d (seenAs a) .irqc p = false ∧ irqOn d = true ∧ claimPick d core sec = some n) ∧
    (∃ (s : State) (d : Dev) (a : Access) (sec : Bool), ∃ core p, Begins s d ∧ AwakeFor d a ∧ sec = (seenAs a).sec ∧ core < 16 ∧ p = pgIRQC core
      ∧ reach d a p 0x048 = .page ∧ readRefused d (seenAs a) .irqc p = false ∧ (irqOn d = false ∨ claimPick d core sec = none)) ∧
    (∃ (s : State) (d : Dev) (a : Access) (sec : Bool), ∃ core p n, Begins s d ∧ AwakeFor d a ∧ sec = (seenAs a).sec ∧ core < 16 ∧ p = pgIRQC
      core ∧ n < 512 ∧ (admitWrite (seenAs a) p 0x04C d).1 = some .irqc ∧ fieldCode (seenAs a) p n d Reg.IRQC_COMPLETE_ID = 0 ∧ srcOwner d n =
      some ⟨core, sec⟩) ∧
    (∃ (s : State) (d : Dev) (a : Access) (sec : Bool), ∃ core p n, Begins s d ∧ AwakeFor d a ∧ sec = (seenAs a).sec ∧ core < 16 ∧ p = pgIRQC
      core ∧ n < 512 ∧ (admitWrite (seenAs a) p 0x04C d).1 = some .irqc ∧ fieldCode (seenAs a) p n d Reg.IRQC_COMPLETE_ID = 0 ∧ srcOwner d n ≠
      some ⟨core, sec⟩) ∧
    (∃ (s : State) (d : Dev) (a : Access) (sec : Bool), ∃ n, Begins s d ∧ AwakeFor d a ∧ sec = (seenAs a).sec ∧ 448 ≤ n ∧ n ≤ 511 ∧ (admitWrite
      (seenAs a) pgSRC2 0x0C0 d).1 = some .irqs1 ∧ fieldCode (seenAs a) pgSRC2 n d Reg.IRQC_SWI_SET_ID = 0 ∧ (srcWorld d n = false ∨ sec = true)) ∧
    (∃ (s : State) (d : Dev) (a : Access) (sec : Bool), ∃ n, Begins s d ∧ AwakeFor d a ∧ sec = (seenAs a).sec ∧ dieOn d.sys.mode = true ∧
      allSources.contains n = true ∧ bit (srcCfg d n) 13 = true ∧ srcPending d n = true) ∧
    (∃ (s : State) (d : Dev) (a : Access) (sec : Bool), ∃ v mine c, Begins s d ∧ AwakeFor d a ∧ sec = (seenAs a).sec ∧ v < 256 ∧ mine = (if sec
      then fld d pgGPIO Reg.GPIO_WORLD_WORLD else 255 - fld d pgGPIO Reg.GPIO_WORLD_WORLD) ∧ (hdrOf d pgGPIO).softRst = false ∧ stopped
      d.sys.mode = false ∧ c ∈ [(0x044, Reg.GPIO_DIR_OE), (0x048, Reg.GPIO_OUT_OUT), (0x058, Reg.GPIO_INV_INV)] ∧ (admitWrite (seenAs a) pgGPIO
      c.1 d).1 = some .gpio ∧ Nat.land (Nat.xor (fld d pgGPIO c.2) v) (255 - mine) = 0) ∧
    (∃ (s : State) (d : Dev) (a : Access) (sec : Bool), ∃ v mine c, Begins s d ∧ AwakeFor d a ∧ sec = (seenAs a).sec ∧ v < 256 ∧ mine = (if sec
      then fld d pgGPIO Reg.GPIO_WORLD_WORLD else 255 - fld d pgGPIO Reg.GPIO_WORLD_WORLD) ∧ (hdrOf d pgGPIO).softRst = false ∧ stopped
      d.sys.mode = false ∧ c ∈ [(0x04C, Nat.lor (fld d pgGPIO Reg.GPIO_OUT_OUT) v), (0x050, fld d pgGPIO Reg.GPIO_OUT_OUT - Nat.land (fld d
      pgGPIO Reg.GPIO_OUT_OUT) v)] ∧ (admitWrite (seenAs a) pgGPIO c.1 d).1 = some .gpio ∧ Nat.land v (255 - mine) = 0) :=
  ⟨⟨(st (wIrq.getD 0 svc)), _, acc, _, 2, _, 448, (begins_st _ rfl rfl rfl), (awakeFor_st _ _ (by decide +kernel)), rfl, (by decide +kernel),
    rfl, (by decide +kernel)⟩,
   ⟨(st (wIrq.getD 0 svc)), _, acc, _, 0, _, (begins_st _ rfl rfl rfl), (awakeFor_st _ _ (by decide +kernel)), rfl, (by decide +kernel), rfl,
     (by decide +kernel)⟩,
   ⟨(st (wIrq.getD 2 svc)), _, acc, _, 2, _, 448, (begins_st _ rfl rfl rfl), (awakeFor_st _ _ (by decide +kernel)), rfl, (by decide +kernel),
     rfl, (by decide +kernel)⟩,
   ⟨(st (wIrq.getD 0 svc)), _, acc, _, 0, _, 0, (begins_st _ rfl rfl rfl), (awakeFor_st _ _ (by decide +kernel)), rfl, (by decide +kernel), rfl,
     (by decide +kernel)⟩,
   ⟨(st (wIrq.getD 0 svc)), _, acc, _, 448, (begins_st _ rfl rfl rfl), (awakeFor_st _ _ (by decide +kernel)), rfl, (by decide +kernel)⟩,
   ⟨(st (wIrq.getD 3 svc)), _, acc, _, 449, (begins_st _ rfl rfl rfl), (awakeFor_st _ _ (by decide +kernel)), rfl, (by decide +kernel)⟩,
   ⟨(st (wIrq.getD 0 svc)), _, acc, _, 0, _, ((68, Reg.GPIO_DIR_OE)), (begins_st _ rfl rfl rfl), (awakeFor_st _ _ (by decide +kernel)), rfl,
     (by decide +kernel), rfl, (by decide +kernel)⟩,
   ⟨(st (wIrq.getD 0 svc)), _, acc, _, 0, _, ((76, (fld (wIrq.getD 0 svc) pgGPIO Reg.GPIO_OUT_OUT).lor 0)), (begins_st _ rfl rfl rfl),
     (awakeFor_st _ _ (by decide +kernel)), rfl, (by decide +kernel), rfl, (by decide +kernel)⟩⟩

theorem InterruptAndPinCommands_met2 :
    ∃ (s : State) (d : Dev) (a : Access) (sec : Bool), ∃ v mine, Begins s d ∧ AwakeFor d a ∧ sec = (seenAs a).sec ∧ v < 256 ∧ mine = (if sec then
      fld d pgGPIO Reg.GPIO_WORLD_WORLD else 255 - fld d pgGPIO Reg.GPIO_WORLD_WORLD) ∧ (hdrOf d pgGPIO).softRst = false ∧ stopped d.sys.mode =
      false ∧ (admitWrite (seenAs a) pgGPIO 0x040 d).1 = some .gpio ∧ fieldCode (seenAs a) pgGPIO v d Reg.GPIO_WORLD_WORLD = 0 :=
  ⟨(st (wIrq.getD 0 svc)), _, acc, _, 0, _, (begins_st _ rfl rfl rfl), (awakeFor_st _ _ (by decide +kernel)), rfl, (by decide +kernel), rfl,
    (by decide +kernel)⟩

theorem DmaCommands_met :
    (∃ (s : State) (d : Dev) (a : Access) (ch : Nat) (p : Nat) (e : Nat) (src : Nat) (dst : Nat), Begins s d ∧ AwakeFor d a ∧ ch < 32 ∧ p = pgDMA
      ch ∧ e = dmaElem d p ∧ src = dmaFrom d p 0 ∧ dst = dmaTo d p 0 ∧ (admitWrite (seenAs a) p 0x040 d).1 = some .dma ∧ (∀ f, f ∈
      [Reg.DMA_CTL_START, Reg.DMA_CTL_ABORT, Reg.DMA_CTL_REPEAT] → fieldCode (seenAs a) p 0 d f = 0) ∧ d.sys.mode ≠ .drowse ∧ d.sys.mode ≠
      .holdup ∧ stopped d.sys.mode = false ∧ (dmaOf d ch).busy = false ∧ (hdrOf d p).enable = true ∧ (hdrOf d p).drain = false ∧ dmaShapeOk d p =
      true ∧ (quarterOf d (ch / 8)).pwr = .on ∧ dmaCount d p = 1 ∧ fld d p Reg.DMA_CFG_RESHAPE = 0 ∧ inPlain d src ∧ inPlain d dst ∧ inPlain d
      (dmaLast d p) ∧ partCheck d (whoDma d ch) .read src = .pass ∧ partCheck d (whoDma d ch) .write dst = .pass ∧ partCheck d (whoDma d ch)
      .readBack (dmaLast d p) = .pass) ∧
    (∃ (s : State) (d : Dev) (a : Access) (ch : Nat) (p : Nat) (e : Nat) (src : Nat) (dst : Nat), Begins s d ∧ AwakeFor d a ∧ ch < 32 ∧ p = pgDMA
      ch ∧ e = dmaElem d p ∧ src = dmaFrom d p 0 ∧ dst = dmaTo d p 0 ∧ (admitWrite (seenAs a) p 0x040 d).1 = some .dma ∧ (∀ f, f ∈
      [Reg.DMA_CTL_START, Reg.DMA_CTL_ABORT, Reg.DMA_CTL_REPEAT] → fieldCode (seenAs a) p 0 d f = 0) ∧ (dmaOf d ch).busy = true) ∧
    (∃ (s : State) (d : Dev) (a : Access) (ch : Nat) (p : Nat) (e : Nat) (src : Nat) (dst : Nat), Begins s d ∧ AwakeFor d a ∧ ch < 32 ∧ p = pgDMA
      ch ∧ e = dmaElem d p ∧ src = dmaFrom d p 0 ∧ dst = dmaTo d p 0 ∧ (dmaOf d ch).busy = true ∧ (dmaOf d ch).readback = true ∧ inPlain d
      (dmaLast d p) ∧ fld d p Reg.DMA_STAT_REMAIN = 0) :=
  ⟨⟨(st (wDma.getD 0 svc)), _, acc, 0, _, _, _, _, (begins_st _ rfl rfl rfl), (awakeFor_st _ _ (by decide +kernel)), (by decide +kernel), rfl,
    rfl, rfl, rfl, (by decide +kernel), (by decide +kernel), (by decide +kernel), (by decide +kernel), (by decide +kernel), (by decide +kernel),
    (by decide +kernel), (by decide +kernel), (by decide +kernel), (by decide +kernel), (by decide +kernel), (by decide +kernel), (.inr ⟨0,
    (by decide +kernel), (by decide +kernel)⟩), (.inr ⟨0, (by decide +kernel), (by decide +kernel)⟩), (.inr ⟨0, (by decide +kernel),
    (by decide +kernel)⟩), (by decide +kernel)⟩,
   ⟨(st (wDma.getD 1 svc)), _, acc, 0, _, _, _, _, (begins_st _ rfl rfl rfl), (awakeFor_st _ _ (by decide +kernel)), (by decide +kernel), rfl,
     rfl, rfl, rfl, (by decide +kernel)⟩,
   ⟨(st (wDma.getD 1 svc)), _, acc, 0, _, _, _, _, (begins_st _ rfl rfl rfl), (awakeFor_st _ _ (by decide +kernel)), (by decide +kernel), rfl,
     rfl, rfl, rfl, (by decide +kernel), (by decide +kernel), (.inr ⟨0, (by decide +kernel), (by decide +kernel)⟩), (by decide +kernel)⟩⟩

theorem InstanceCommands_met1 :
    (∃ (s : State) (d : Dev) (a : Access) (i : Nat) (x : Inst), ∃ sel param, Begins s d ∧ AwakeFor d a ∧ i < 1024 ∧ x = instOf d i ∧ ManagerReady
      d a ∧ sel = i * 65536 ∧ 1 ≤ bits param 26 0 ∧ bits param 26 0 ≤ 0x4000000 ∧ bit param 27 = false ∧ param < 2 ^ 32 ∧ x.run = .unused) ∧
    (∃ (s : State) (d : Dev) (a : Access) (i : Nat) (x : Inst), ∃ sel param, Begins s d ∧ AwakeFor d a ∧ i < 1024 ∧ x = instOf d i ∧ ManagerReady
      d a ∧ sel = i * 65536 ∧ 1 ≤ bits param 26 0 ∧ bits param 26 0 ≤ 0x4000000 ∧ bit param 27 = false ∧ param < 2 ^ 32 ∧ x.run ≠ .unused ∧ x.run
      ≠ .resetting) ∧
    (∃ (s : State) (d : Dev) (a : Access) (i : Nat) (x : Inst), ∃ sel, Begins s d ∧ AwakeFor d a ∧ i < 1024 ∧ x = instOf d i ∧ ManagerReady d a ∧
      sel = i * 65536 ∧ fld d pgMGR Reg.MGR_PARAM_PARAM = 0 ∧ x.run = .assigned) ∧
    (∃ (s : State) (d : Dev) (a : Access) (i : Nat) (x : Inst), ∃ sel, Begins s d ∧ AwakeFor d a ∧ i < 1024 ∧ x = instOf d i ∧ ManagerReady d a ∧
      sel = i * 65536 ∧ fld d pgMGR Reg.MGR_PARAM_PARAM = 0 ∧ x.run = .active) ∧
    (∃ (s : State) (d : Dev) (a : Access) (i : Nat) (x : Inst), ∃ sel, Begins s d ∧ AwakeFor d a ∧ i < 1024 ∧ x = instOf d i ∧ ManagerReady d a ∧
      sel = i * 65536 ∧ fld d pgMGR Reg.MGR_PARAM_PARAM = 0 ∧ (x.run = .quiescing ∨ x.run = .quiesced)) ∧
    (∃ (s : State) (d : Dev) (a : Access) (i : Nat) (x : Inst), ∃ sel, Begins s d ∧ AwakeFor d a ∧ i < 1024 ∧ x = instOf d i ∧ ManagerReady d a ∧
      sel = i * 65536 ∧ fld d pgMGR Reg.MGR_PARAM_PARAM = 0 ∧ x.run = .frozen ∧ x.exported = false ∧ d.key.repairDue = [] ∧ x.endDue = []) ∧
    (∃ (s : State) (d : Dev) (a : Access) (i : Nat) (x : Inst), ∃ sel, Begins s d ∧ AwakeFor d a ∧ i < 1024 ∧ x = instOf d i ∧ ManagerReady d a ∧
      sel = i * 65536 ∧ fld d pgMGR Reg.MGR_PARAM_PARAM = 0 ∧ restoring d = false ∧ instKeys d i = [] ∧ (∀ nk, nk ∈ keysOf d → ∀ g, g ∈
      nk.2.grants → g.inst ≠ i) ∧ x.run = .quiesced) ∧
    (∃ (s : State) (d : Dev) (a : Access) (i : Nat) (x : Inst), ∃ sel, Begins s d ∧ AwakeFor d a ∧ i < 1024 ∧ x = instOf d i ∧ ManagerReady d a ∧
      sel = i * 65536 ∧ fld d pgMGR Reg.MGR_PARAM_PARAM = 0 ∧ restoring d = false ∧ instKeys d i = [] ∧ (∀ nk, nk ∈ keysOf d → ∀ g, g ∈
      nk.2.grants → g.inst ≠ i) ∧ x.run = .frozen ∧ x.exported = true) :=
  ⟨⟨(st (wInstances.getD 0 svc)), _, acc, 0, _, _, 1, (begins_st _ rfl rfl rfl), (awakeFor_st _ _ (by decide +kernel)), (by decide +kernel), rfl,
    (by unfold ManagerReady; decide +kernel), rfl, (by decide +kernel)⟩,
   ⟨(st (wInstances.getD 1 svc)), _, acc, 1, _, _, 1, (begins_st _ rfl rfl rfl), (awakeFor_st _ _ (by decide +kernel)), (by decide +kernel), rfl,
     (by unfold ManagerReady; decide +kernel), rfl, (by decide +kernel)⟩,
   ⟨(st (wInstances.getD 1 svc)), _, acc, 1, _, _, (begins_st _ rfl rfl rfl), (awakeFor_st _ _ (by decide +kernel)), (by decide +kernel), rfl,
     (by unfold ManagerReady; decide +kernel), rfl, (by decide +kernel)⟩,
   ⟨(st (wInstances.getD 2 svc)), _, acc, 1, _, _, (begins_st _ rfl rfl rfl), (awakeFor_st _ _ (by decide +kernel)), (by decide +kernel), rfl,
     (by unfold ManagerReady; decide +kernel), rfl, (by decide +kernel)⟩,
   ⟨(st (wInstances.getD 3 svc)), _, acc, 1, _, _, (begins_st _ rfl rfl rfl), (awakeFor_st _ _ (by decide +kernel)), (by decide +kernel), rfl,
     (by unfold ManagerReady; decide +kernel), rfl, (by decide +kernel)⟩,
   ⟨(st (wInstances.getD 5 svc)), _, acc, 1, _, _, (begins_st _ rfl rfl rfl), (awakeFor_st _ _ (by decide +kernel)), (by decide +kernel), rfl,
     (by unfold ManagerReady; decide +kernel), rfl, (by decide +kernel)⟩,
   ⟨(st (wInstances.getD 4 svc)), _, acc, 1, _, _, (begins_st _ rfl rfl rfl), (awakeFor_st _ _ (by decide +kernel)), (by decide +kernel), rfl,
     (by unfold ManagerReady; decide +kernel), rfl, (by decide +kernel)⟩,
   ⟨(st (wInstances.getD 6 svc)), _, acc, 1, _, _, (begins_st _ rfl rfl rfl), (awakeFor_st _ _ (by decide +kernel)), (by decide +kernel), rfl,
     (by unfold ManagerReady; decide +kernel), rfl, (by decide +kernel)⟩⟩

theorem InstanceCommands_met2 :
    (∃ (s : State) (d : Dev) (a : Access) (i : Nat) (x : Inst), Begins s d ∧ AwakeFor d a ∧ i < 1024 ∧ x = instOf d i ∧ x.run = .quiescing ∧
      instBusy d i = false) ∧
    (∃ (s : State) (d : Dev) (a : Access) (i : Nat) (x : Inst), Begins s d ∧ AwakeFor d a ∧ i < 1024 ∧ x = instOf d i ∧ x.run = .quiescing ∧
      instBusy d i = true) ∧
    (∃ (s : State) (d : Dev) (a : Access) (i : Nat) (x : Inst), Begins s d ∧ AwakeFor d a ∧ i < 1024 ∧ x = instOf d i ∧ d.mgr.busy = some (5, i)
      ∧ x.freezing = true ∧ x.run = .quiesced ∧ (∀ nk, nk ∈ instKeys d i → flightOf d nk.1 = 0)) ∧
    (∃ (s : State) (d : Dev) (a : Access) (i : Nat) (x : Inst), Begins s d ∧ AwakeFor d a ∧ i < 1024 ∧ x = instOf d i ∧ d.mgr.busy = some (5, i)
      ∧ x.freezing = true ∧ x.run = .quiesced ∧ (∃ nk, nk ∈ instKeys d i ∧ flightOf d nk.1 ≠ 0)) ∧
    (∃ (s : State) (d : Dev) (a : Access) (i : Nat) (x : Inst), Begins s d ∧ AwakeFor d a ∧ i < 1024 ∧ x = instOf d i ∧ (admitWrite (seenAs a)
      pgMGR 0x078 d).1 = some .mgr ∧ (hdrOf d pgMGR).softRst = false ∧ mgrSel d = i ∧ x.run ≠ .unused ∧ x.run ≠ .resetting ∧ x.inFull = false) ∧
    (∃ (s : State) (d : Dev) (a : Access) (i : Nat) (x : Inst), Begins s d ∧ AwakeFor d a ∧ i < 1024 ∧ x = instOf d i ∧ (admitWrite (seenAs a)
      pgMGR 0x078 d).1 = some .mgr ∧ (hdrOf d pgMGR).softRst = false ∧ mgrSel d = i ∧ x.run ≠ .unused ∧ x.run ≠ .resetting ∧ x.outFull = true) ∧
    (∃ (s : State) (d : Dev) (a : Access) (i : Nat) (x : Inst), Begins s d ∧ AwakeFor d a ∧ i < 1024 ∧ x = instOf d i ∧ (admitWrite (seenAs a)
      (instPage i) 0x04C d).1 = some .inst ∧ (hdrOf d (instPage i)).softRst = false ∧ x.outFull = false) ∧
    (∃ (s : State) (d : Dev) (a : Access) (i : Nat) (x : Inst), Begins s d ∧ AwakeFor d a ∧ i < 1024 ∧ x = instOf d i ∧ (admitWrite (seenAs a)
      (instPage i) 0x04C d).1 = some .inst ∧ (hdrOf d (instPage i)).softRst = false ∧ x.inFull = true) :=
  ⟨⟨(st (wInstances.getD 3 svc)), _, acc, 1, _, (begins_st _ rfl rfl rfl), (awakeFor_st _ _ (by decide +kernel)), (by decide +kernel), rfl,
    (by decide +kernel)⟩,
   ⟨(st (wInstances.getD 7 svc)), _, acc, 1, _, (begins_st _ rfl rfl rfl), (awakeFor_st _ _ (by decide +kernel)), (by decide +kernel), rfl,
     (by decide +kernel)⟩,
   ⟨(st (wInstances.getD 8 svc)), _, acc, 1, _, (begins_st _ rfl rfl rfl), (awakeFor_st _ _ (by decide +kernel)), (by decide +kernel), rfl,
     (by decide +kernel)⟩,
   ⟨(st (wInstances.getD 9 svc)), _, acc, 1, _, (begins_st _ rfl rfl rfl), (awakeFor_st _ _ (by decide +kernel)), (by decide +kernel), rfl,
     (by decide +kernel)⟩,
   ⟨(st (wInstances.getD 10 svc)), _, acc, _, _, (begins_st _ rfl rfl rfl), (awakeFor_st _ _ (by decide +kernel)), (by decide +kernel), rfl,
     (by decide +kernel), (by decide +kernel), rfl, (by decide +kernel)⟩,
   ⟨(st (wInstances.getD 11 svc)), _, acc, _, _, (begins_st _ rfl rfl rfl), (awakeFor_st _ _ (by decide +kernel)), (by decide +kernel), rfl,
     (by decide +kernel), (by decide +kernel), rfl, (by decide +kernel)⟩,
   ⟨(st (wInstances.getD 1 svc)), _, acc, 1, _, (begins_st _ rfl rfl rfl), (awakeFor_st _ _ (by decide +kernel)), (by decide +kernel), rfl,
     (by decide +kernel)⟩,
   ⟨(st (wInstances.getD 11 svc)), _, acc, 1, _, (begins_st _ rfl rfl rfl), (awakeFor_st _ _ (by decide +kernel)), (by decide +kernel), rfl,
     (by decide +kernel)⟩⟩

theorem InstanceCommands_met3 :
    (∃ (s : State) (d : Dev) (a : Access) (i : Nat) (x : Inst), ∃ e rest, Begins s d ∧ AwakeFor d a ∧ i < 1024 ∧ x = instOf d i ∧ reach d a pgMGR
      0x068 = .page ∧ readRefused d (seenAs a) .mgr pgMGR = false ∧ d.mgr.events = e :: rest) ∧
    (∃ (s : State) (d : Dev) (a : Access) (i : Nat) (x : Inst), Begins s d ∧ AwakeFor d a ∧ i < 1024 ∧ x = instOf d i ∧ reach d a pgMGR 0x068 =
      .page ∧ readRefused d (seenAs a) .mgr pgMGR = false ∧ d.mgr.events = []) :=
  ⟨⟨(st (wInstances.getD 12 svc)), _, acc, 0, _, ({ kind := 1, inst := 1, state := 1 }), [], (begins_st _ rfl rfl rfl), (awakeFor_st _ _
    (by decide +kernel)), (by decide +kernel), rfl, (by decide +kernel)⟩,
   ⟨(st (wInstances.getD 0 svc)), _, acc, 0, _, (begins_st _ rfl rfl rfl), (awakeFor_st _ _ (by decide +kernel)), (by decide +kernel), rfl,
     (by decide +kernel)⟩⟩

theorem MigrationCommands_met1 :
    (∃ (s : State) (d : Dev) (a : Access), ∃ id, Begins s d ∧ ManagerReady d a ∧ d.sys.lc = .deployed ∧ id < 2 ^ 32 ∧ (xportOf d id).isSome =
      true) ∧
    (∃ (s : State) (d : Dev) (a : Access), ∃ id, Begins s d ∧ ManagerReady d a ∧ d.sys.lc = .deployed ∧ id < 2 ^ 32 ∧ xportOf d id = none) ∧
    (∃ (s : State) (d : Dev) (a : Access), Begins s d ∧ ManagerReady d a ∧ d.sys.lc = .deployed ∧ 4 ≤ d.mgr.xports.length) ∧
    (∃ (s : State) (d : Dev) (a : Access), ∃ q r out, Begins s d ∧ ManagerReady d a ∧ d.sys.lc = .deployed ∧ q = homelessQuarter d ∧ r = (drbgOf
      d q).buf.take 144 ∧ d.mgr.xports.length < 4 ∧ mgrHostOk d = true ∧ 1928 ≤ fld d pgMGR Reg.MGR_OUT_LEN_LEN ∧ RandomAt d q 144 ∧
      d.mgr.nextXport < 2 ^ 32 ∧ out = mgrAddr d Reg.MGR_OUT_ADDR_LO_ADDR_LO Reg.MGR_OUT_ADDR_HI_ADDR_HI) ∧
    (∃ (s : State) (d : Dev) (a : Access), ∃ q r b x n, Begins s d ∧ ManagerReady d a ∧ d.sys.lc = .deployed ∧ q = homelessQuarter d ∧ r =
      (drbgOf d q).buf.take 112 ∧ d.mgr.xports.length < 4 ∧ mgrHostOk d = true ∧ 1976 ≤ fld d pgMGR Reg.MGR_OUT_LEN_LEN ∧ RandomAt d q 112 ∧
      d.mgr.nextXport < 2 ^ 32 ∧ n = fld d pgMGR Reg.MGR_IN_LEN_LEN ∧ 1928 ≤ n ∧ b = fitTo n x) ∧
    (∃ (s : State) (d : Dev) (a : Access), ∃ id b n z, Begins s d ∧ ManagerReady d a ∧ d.sys.lc = .deployed ∧ id < 2 ^ 32 ∧ n = fld d pgMGR
      Reg.MGR_IN_LEN_LEN ∧ 1976 ≤ n ∧ mgrHostOk d = true ∧ b = fitTo n z) ∧
    (∃ (s : State) (d : Dev) (a : Access), ∃ i id x y q len, Begins s d ∧ ManagerReady d a ∧ d.sys.lc = .deployed ∧ i < 1024 ∧ id < 2 ^ 32 ∧
      xportOf d id = some x ∧ x.source = true ∧ x.key.isSome = true ∧ y = instOf d i ∧ y.run = .frozen ∧ y.exported = false ∧ restoring d = false
      ∧ instKeys d i = [] ∧ q = homelessQuarter d ∧ RandomAt d q 12 ∧ len = 80 + (foldBody d 1 i []).1.length ∧ len ≤ fld d pgMGR
      Reg.MGR_OUT_LEN_LEN ∧ mgrHostOk d = true ∧ len < 2 ^ 32) ∧
    (∃ (s : State) (d : Dev) (a : Access), ∃ i id x y b n z code o, Begins s d ∧ ManagerReady d a ∧ d.sys.lc = .deployed ∧ i < 1024 ∧ id < 2 ^ 32
      ∧ xportOf d id = some x ∧ x.source = false ∧ x.key.isSome = true ∧ y = instOf d i ∧ y.run = .unused ∧ restoring d = false ∧ n = fld d pgMGR
      Reg.MGR_IN_LEN_LEN ∧ n ≠ 0 ∧ mgrHostOk d = true ∧ b = fitTo n z ∧ imageOpen x b = .error (code, o)) :=
  ⟨⟨(st (wMigration.getD 0 svc)), _, acc, 3, (begins_st _ rfl rfl rfl), (by unfold ManagerReady; decide +kernel), (by decide +kernel)⟩,
   ⟨(st (wMigration.getD 0 svc)), _, acc, 0, (begins_st _ rfl rfl rfl), (by unfold ManagerReady; decide +kernel), (by decide +kernel)⟩,
   ⟨(st (wMigration.getD 2 svc)), _, acc, (begins_st _ rfl rfl rfl), (by unfold ManagerReady; decide +kernel), (by decide +kernel)⟩,
   ⟨(st (wMigration.getD 0 svc)), _, acc, _, _, _, (begins_st _ rfl rfl rfl), (by unfold ManagerReady; decide +kernel), (by decide +kernel), rfl,
     rfl, (by decide +kernel), (by decide +kernel), (by decide +kernel), (by unfold RandomAt NoReads; decide +kernel), (by decide +kernel), rfl⟩,
   ⟨(st (wMigration.getD 0 svc)), _, acc, _, _, _, (foldOf 1 3 false), _, (begins_st _ rfl rfl rfl), (by unfold ManagerReady; decide +kernel),
     (by decide +kernel), rfl, rfl, (by decide +kernel), (by decide +kernel), (by decide +kernel), (by unfold RandomAt NoReads; decide +kernel),
     (by decide +kernel), rfl, (by decide +kernel), rfl⟩,
   ⟨(st (wMigration.getD 1 svc)), _, acc, 3, _, _, (foldOf 1 3 false), (begins_st _ rfl rfl rfl), (by unfold ManagerReady; decide +kernel),
     (by decide +kernel), (by decide +kernel), rfl, (by decide +kernel), (by decide +kernel), rfl⟩,
   ⟨(st (wMigration.getD 0 svc)), _, acc, 1, 3, ⟨3, true, 5, 9, (ramp 1928), none, some (ramp 32)⟩, _, _, _, (begins_st _ rfl rfl rfl),
     (by unfold ManagerReady; decide +kernel), (by decide +kernel), (by decide +kernel), (by decide +kernel), (by decide +kernel),
     (by decide +kernel), (by decide +kernel), rfl, (by decide +kernel), (by decide +kernel), (by decide +kernel), (by decide +kernel), rfl,
     (by unfold RandomAt NoReads; decide +kernel), rfl, (by decide +kernel)⟩,
   ⟨(st (wMigration.getD 3 svc)), _, acc, 0, 3, ⟨3, false, 5, 9, (ramp 1928), none, some (ramp 32)⟩, _, _, _, (foldOf 1 3 true), _, _,
     (begins_st _ rfl rfl rfl), (by unfold ManagerReady; decide +kernel), (by decide +kernel), (by decide +kernel), (by decide +kernel),
     (by decide +kernel), (by decide +kernel), (by decide +kernel), rfl, (by decide +kernel), (by decide +kernel), rfl, (by decide +kernel),
     (by decide +kernel), rfl, (error_of (0, 0) (by decide +kernel))⟩⟩

theorem MigrationCommands_met2 :
    ∃ (s : State) (d : Dev) (a : Access), ∃ i id x y b n z c, Begins s d ∧ ManagerReady d a ∧ d.sys.lc = .deployed ∧ i < 1024 ∧ id < 2 ^ 32 ∧
      xportOf d id = some x ∧ x.source = false ∧ x.key.isSome = true ∧ y = instOf d i ∧ y.run = .unused ∧ restoring d = false ∧ n = fld d pgMGR
      Reg.MGR_IN_LEN_LEN ∧ n ≠ 0 ∧ mgrHostOk d = true ∧ b = fitTo n z ∧ imageOpen x b = .ok (1, [(1, c), (0xFF, [])]) :=
  ⟨(st (wMigration.getD 3 svc)), _, acc, 0, 3, ⟨3, false, 5, 9, (ramp 1928), none, some (ramp 32)⟩, _, _, _, (foldOf 1 3 false), [100, 0, 0, 0,
    4, 0, 0, 7, 0, 0, 0, 0, 0, 0, 0, 0], (begins_st _ rfl rfl rfl), (by unfold ManagerReady; decide +kernel), (by decide +kernel),
    (by decide +kernel), (by decide +kernel), (by decide +kernel), (by decide +kernel), (by decide +kernel), rfl, (by decide +kernel),
    (by decide +kernel), rfl, (by decide +kernel), (by decide +kernel), rfl, (by decide +kernel)⟩

theorem OfficerCommands_met1 :
    (∃ (s : State) (d : Dev) (a : Access), ∃ b t ids d2 slot n q nonce, Begins s d ∧ CardsInStep d ∧ OfficerBegins d a 1 b t ∧ Authorised d 1 b t
      ids d2 ∧ slot = leAt b 0 1 ∧ n = leAt b 1 1 ∧ cardUsable d slot = true ∧ (officerOf d2 n).run = .empty ∧ q = homelessQuarter d ∧ RandomAt d
      q 32 ∧ nonce = (drbgOf d q).buf.take 32) ∧
    (∃ (s : State) (d : Dev) (a : Access), ∃ b t ids d2 n, Begins s d ∧ CardsInStep d ∧ OfficerBegins d a 2 b t ∧ Authorised d 2 b t ids d2 ∧ n =
      leAt b 0 1 ∧ (officerOf d2 n).run ≠ .empty ∧ revokeBar d2 n = none) ∧
    (∃ (s : State) (d : Dev) (a : Access), ∃ b t ids d2 c, Begins s d ∧ CardsInStep d ∧ OfficerBegins d a 3 b t ∧ Authorised d 3 b t ids d2 ∧ c =
      leAt b 0 1 ∧ leAt b 1 1 ≠ 0 ∧ leAt b 1 1 ≤ popCount 64 (leAt b 8 8) ∧ (∀ n, n < 64 → bit (leAt b 8 8) n = true → (officerOf d2 n).run =
      .active ∨ (officerOf d2 n).run = .locked)) ∧
    (∃ (s : State) (d : Dev) (a : Access), ∃ b t ids d2 c, Begins s d ∧ CardsInStep d ∧ OfficerBegins d a 3 b t ∧ Authorised d 3 b t ids d2 ∧ c =
      leAt b 0 1 ∧ leAt b 1 1 = 0 ∧ c ≠ 0) ∧
    (∃ (s : State) (d : Dev) (a : Access), ∃ b t ids d2 i, Begins s d ∧ CardsInStep d ∧ OfficerBegins d a 4 b t ∧ Authorised d 4 b t ids d2 ∧ i =
      leAt b 0 2) ∧
    (∃ (s : State) (d : Dev) (a : Access), ∃ b t ids d2 n, Begins s d ∧ CardsInStep d ∧ OfficerBegins d a 5 b t ∧ Authorised d 5 b t ids d2 ∧ n =
      leAt b 0 1 ∧ ((officerOf d2 n).run = .locked ∨ (officerOf d2 n).run = .active)) ∧
    (∃ (s : State) (d : Dev) (a : Access), ∃ b t ids d2, Begins s d ∧ CardsInStep d ∧ OfficerBegins d a 6 b t ∧ Authorised d 6 b t ids d2 ∧
      d.sys.mode = .service ∧ d.sys.draining = none ∧ (d.sys.lc = .provision ∨ d.sys.lc = .deployed)) ∧
    (∃ (s : State) (d : Dev) (a : Access), ∃ b t, Begins s d ∧ CardsInStep d ∧ OfficerBegins d a 7 b t ∧ d.sys.mode = .ceremony ∧ d.mgr.busy =
      none) :=
  ⟨⟨(st (wOfc.getD 0 svc)), _, acc, [0, 9, 0, 0, 0, 0, 0, 0, 0, 1, 2, 3, 4, 5, 6, 7, 8, 9, 10, 11, 12, 13, 14, 15], [65, 68, 75, 84, 1, 0, 0, 0,
    1, 0, 0, 0, 0, 0, 0, 0], [1], (reserved (wOfc.getD 0 svc)), _, _, _, _, (begins_st _ rfl rfl rfl), (by unfold CardsInStep; decide +kernel),
    (officer_st _ _ _ _ _ (by decide +kernel) (by decide +kernel) (by decide +kernel) (by decide +kernel) (by decide +kernel) (by decide +kernel)
    (by decide +kernel)), (authorised_st _ _ _ _ ((chalOf (wOfc.getD 0 svc) 1).getD chal0) ⟨14, 2, 60⟩ (by decide +kernel) (by decide +kernel)
    (by decide +kernel) (by decide +kernel) (by decide +kernel) (by decide +kernel) (by decide +kernel)), rfl, rfl, (by decide +kernel),
    (by decide +kernel), rfl, (by unfold RandomAt NoReads; decide +kernel), rfl⟩,
   ⟨(st (wOfc.getD 1 svc)), _, acc, [3, 0, 0, 0, 0, 0, 0, 0], [65, 68, 75, 84, 1, 0, 0, 0, 1, 0, 0, 0, 0, 0, 0, 0], [1], (reserved (wOfc.getD 1
     svc)), _, (begins_st _ rfl rfl rfl), (by unfold CardsInStep; decide +kernel), (officer_st _ _ _ _ _ (by decide +kernel) (by decide +kernel)
     (by decide +kernel) (by decide +kernel) (by decide +kernel) (by decide +kernel) (by decide +kernel)), (authorised_st _ _ _ _ ((chalOf
     (wOfc.getD 1 svc) 1).getD chal0) ⟨14, 2, 60⟩ (by decide +kernel) (by decide +kernel) (by decide +kernel) (by decide +kernel)
     (by decide +kernel) (by decide +kernel) (by decide +kernel)), rfl, (by decide +kernel)⟩,
   ⟨(st (wOfc.getD 2 svc)), _, acc, [6, 2, 0, 0, 60, 0, 0, 0, 14, 0, 0, 0, 0, 0, 0, 0], [65, 68, 75, 84, 1, 0, 0, 0, 1, 0, 0, 0, 0, 0, 0, 0],
     [1], (reserved (wOfc.getD 2 svc)), _, (begins_st _ rfl rfl rfl), (by unfold CardsInStep; decide +kernel), (officer_st _ _ _ _ _
     (by decide +kernel) (by decide +kernel) (by decide +kernel) (by decide +kernel) (by decide +kernel) (by decide +kernel)
     (by decide +kernel)), (authorised_st _ _ _ _ ((chalOf (wOfc.getD 2 svc) 1).getD chal0) ⟨14, 2, 60⟩ (by decide +kernel) (by decide +kernel)
     (by decide +kernel) (by decide +kernel) (by decide +kernel) (by decide +kernel) (by decide +kernel)), rfl, (by decide +kernel)⟩,
   ⟨(st (wOfc.getD 3 svc)), _, acc, [5, 0, 0, 0, 60, 0, 0, 0, 14, 0, 0, 0, 0, 0, 0, 0], [65, 68, 75, 84, 1, 0, 0, 0, 1, 0, 0, 0, 0, 0, 0, 0],
     [1], (reserved (wOfc.getD 3 svc)), _, (begins_st _ rfl rfl rfl), (by unfold CardsInStep; decide +kernel), (officer_st _ _ _ _ _
     (by decide +kernel) (by decide +kernel) (by decide +kernel) (by decide +kernel) (by decide +kernel) (by decide +kernel)
     (by decide +kernel)), (authorised_st _ _ _ _ ((chalOf (wOfc.getD 3 svc) 1).getD chal0) ⟨14, 2, 60⟩ (by decide +kernel) (by decide +kernel)
     (by decide +kernel) (by decide +kernel) (by decide +kernel) (by decide +kernel) (by decide +kernel)), rfl, (by decide +kernel)⟩,
   ⟨(st (wOfc.getD 4 svc)), _, acc, [7, 0, 5, 0, 0, 0, 0, 0], [65, 68, 75, 84, 1, 0, 0, 0, 1, 0, 0, 0, 0, 0, 0, 0], [1], (reserved (wOfc.getD 4
     svc)), _, (begins_st _ rfl rfl rfl), (by unfold CardsInStep; decide +kernel), (officer_st _ _ _ _ _ (by decide +kernel) (by decide +kernel)
     (by decide +kernel) (by decide +kernel) (by decide +kernel) (by decide +kernel) (by decide +kernel)), (authorised_st _ _ _ _ ((chalOf
     (wOfc.getD 4 svc) 1).getD chal0) ⟨14, 2, 60⟩ (by decide +kernel) (by decide +kernel) (by decide +kernel) (by decide +kernel)
     (by decide +kernel) (by decide +kernel) (by decide +kernel)), rfl⟩,
   ⟨(st (wOfc.getD 5 svc)), _, acc, [3, 0, 0, 0, 0, 0, 0, 0], [65, 68, 75, 84, 1, 0, 0, 0, 1, 0, 0, 0, 0, 0, 0, 0], [1], (reserved (wOfc.getD 5
     svc)), _, (begins_st _ rfl rfl rfl), (by unfold CardsInStep; decide +kernel), (officer_st _ _ _ _ _ (by decide +kernel) (by decide +kernel)
     (by decide +kernel) (by decide +kernel) (by decide +kernel) (by decide +kernel) (by decide +kernel)), (authorised_st _ _ _ _ ((chalOf
     (wOfc.getD 5 svc) 1).getD chal0) ⟨14, 2, 60⟩ (by decide +kernel) (by decide +kernel) (by decide +kernel) (by decide +kernel)
     (by decide +kernel) (by decide +kernel) (by decide +kernel)), rfl, (by decide +kernel)⟩,
   ⟨(st (wOfc.getD 7 svc)), _, acc, [], [65, 68, 75, 84, 1, 0, 0, 0, 1, 0, 0, 0, 0, 0, 0, 0], [1], (reserved (wOfc.getD 7 svc)),
     (begins_st _ rfl rfl rfl), (by unfold CardsInStep; decide +kernel), (officer_st _ _ _ _ _ (by decide +kernel) (by decide +kernel)
     (by decide +kernel) (by decide +kernel) (by decide +kernel) (by decide +kernel) (by decide +kernel)), (authorised_st _ _ _ _ ((chalOf
     (wOfc.getD 7 svc) 1).getD chal0) ⟨14, 2, 60⟩ (by decide +kernel) (by decide +kernel) (by decide +kernel) (by decide +kernel)
     (by decide +kernel) (by decide +kernel) (by decide +kernel)), (by decide +kernel)⟩,
   ⟨(st (wOfc.getD 8 svc)), _, acc, [], [], (begins_st _ rfl rfl rfl), (by unfold CardsInStep; decide +kernel), (officer_st _ _ _ _ _
     (by decide +kernel) (by decide +kernel) (by decide +kernel) (by decide +kernel) (by decide +kernel) (by decide +kernel)
     (by decide +kernel)), (by decide +kernel)⟩⟩

theorem OfficerCommands_met2 :
    (∃ (s : State) (d : Dev) (a : Access), ∃ b t c q nonce at' na bs, Begins s d ∧ CardsInStep d ∧ OfficerBegins d a 8 b t ∧ c = leAt b 0 1 ∧
      classUsable d c = true ∧ slice b 10 6 = zeros 6 ∧ q = homelessQuarter d ∧ RandomAt d q 32 ∧ nonce = (drbgOf d q).buf.take 32 ∧ (chalsOut
      d).length < 16 ∧ at' = fldPair d pgOFC Reg.OFC_ARG_LO_ADDR_LO Reg.OFC_ARG_HI_ADDR_HI + 0x48 ∧ at' % 4096 + 144 ≤ 4096 ∧ (∃ k, zoneOf at' =
      .qsram k ∧ (quarterOf d k).pwr = .on) ∧ partCheck d (whoDevice 5 true) .write at' = .pass ∧ na = stamp d + ((qclassOf d c).map
      (·.lifetime)).getD 0 * 32768 ∧ bs = chalBytes c 0xFFFF d.ofc.nextChal nonce d.fuse.serial (leAt b 8 2) (leAt b 0x10 8) (slice b 0x18 48) na
      d.nv.bootCnt) ∧
    (∃ (s : State) (d : Dev) (a : Access), ∃ b t slot x y, Begins s d ∧ CardsInStep d ∧ OfficerBegins d a 9 b t ∧ slot = leAt b 0 1 ∧ cardUsable
      d slot = true ∧ y = fldPair d pgOFC Reg.OFC_ARG_LO_ADDR_LO Reg.OFC_ARG_HI_ADDR_HI + 8 ∧ secureRange d y (leAt b 1 1) = true ∧ ofcRead 3 y
      (leAt b 1 1) d = (.ok x, d)) ∧
    (∃ (s : State) (d : Dev), ∃ k, Begins s d ∧ d.ofc.op = some (.cerEnter k) ∧ CardsInStep d ∧ d.sys.mode = .service ∧ drainBusy d = false ∧
      d.mgr.busy = none ∧ (∀ kv, kv ∈ d.shadow → keyOnPage pgOFC kv.1 = false)) ∧
    (∃ (s : State) (d : Dev), ∃ k, Begins s d ∧ d.ofc.op = some (.cerEnter k) ∧ drainBusy d = true) ∧
    (∃ (s : State) (d : Dev), ∃ t, Begins s d ∧ d.ofc.cerAt = some t ∧ d.sys.mode = .ceremony ∧ fld d pgOFC Reg.OFC_CFG_CER_TIMEOUT ≠ 0 ∧
      d.mgr.busy = none) ∧
    (∃ (s : State) (d : Dev), ∃ id c, Begins s d ∧ chalOf d id = some c) ∧
    (∃ (s : State) (d : Dev), ∃ n, Begins s d ∧ n < 64 ∧ (officerOf d n).run = .locked) :=
  ⟨⟨(st (wOfc.getD 7 svc)), _, acc, (zeros 72), [65, 68, 75, 84, 1, 0, 0, 0, 1, 0, 0, 0, 0, 0, 0, 0], _, _, _, _, _, _,
    (begins_st _ rfl rfl rfl), (by unfold CardsInStep; decide +kernel), (officer_st _ _ _ _ _ (by decide +kernel) (by decide +kernel)
    (by decide +kernel) (by decide +kernel) (by decide +kernel) (by decide +kernel) (by decide +kernel)), rfl, (by decide +kernel),
    (by decide +kernel), rfl, (by unfold RandomAt NoReads; decide +kernel), rfl, (by decide +kernel), rfl, (by decide +kernel), ⟨0,
    (by decide +kernel), (by decide +kernel)⟩, (by decide +kernel), rfl, rfl⟩,
   ⟨(st (wOfc.getD 0 svc)), _, acc, [0, 9, 0, 0, 0, 0, 0, 0], [65, 68, 75, 84, 1, 0, 0, 0, 1, 0, 0, 0, 0, 0, 0, 0], _, (ramp 9), _,
     (begins_st _ rfl rfl rfl), (by unfold CardsInStep; decide +kernel), (officer_st _ _ _ _ _ (by decide +kernel) (by decide +kernel)
     (by decide +kernel) (by decide +kernel) (by decide +kernel) (by decide +kernel) (by decide +kernel)), rfl, (by decide +kernel), rfl,
     (by decide +kernel), (pair_of (except_of (by decide +kernel)) (by decide +kernel))⟩,
   ⟨(st (wCeremony.getD 0 svc)), _, none, (begins_st _ rfl rfl rfl), (by decide +kernel), (by unfold CardsInStep; decide +kernel),
     (by decide +kernel)⟩,
   ⟨(st (wCeremony.getD 1 svc)), _, none, (begins_st _ rfl rfl rfl), (by decide +kernel)⟩,
   ⟨(st (wCeremony.getD 2 svc)), _, 7, (begins_st _ rfl rfl rfl), (by decide +kernel)⟩,
   ⟨(st (wOfc.getD 0 svc)), _, 1, ((chalOf (wOfc.getD 0 svc) 1).getD chal0), (begins_st _ rfl rfl rfl), (by decide +kernel)⟩,
   ⟨(st (wOfc.getD 0 svc)), _, 3, (begins_st _ rfl rfl rfl), (by decide +kernel)⟩⟩

theorem CardCommands_met1 :
    (∃ (s : State) (d : Dev) (slot : Nat) (c : CardIf) (off : CardIf), Begins s d ∧ slot < 2 ∧ c = cardOf d slot ∧ CardsInStep d ∧ off =
      { cardReset slot with present := c.present, classB := c.classB, fault := c.fault } ∧ c.present = false ∧ dieOn d.sys.mode = true ∧
      cardServes d slot = true) ∧
    (∃ (s : State) (d : Dev) (slot : Nat) (c : CardIf) (off : CardIf), Begins s d ∧ slot < 2 ∧ c = cardOf d slot ∧ CardsInStep d ∧ off =
      { cardReset slot with present := c.present, classB := c.classB, fault := c.fault } ∧ c.present = false ∧ dieOn d.sys.mode = true ∧
      cardServes d slot = false) ∧
    (∃ (s : State) (d : Dev) (slot : Nat) (c : CardIf) (off : CardIf), ∃ atr, Begins s d ∧ slot < 2 ∧ c = cardOf d slot ∧ CardsInStep d ∧ off =
      { cardReset slot with present := c.present, classB := c.classB, fault := c.fault } ∧ c.present = true ∧ dieOn d.sys.mode = true ∧ c.run =
      .activating ∧ c.wait = .atr ∧ d.ofc.op = none ∧ atrT1 atr = true) ∧
    (∃ (s : State) (d : Dev) (slot : Nat) (c : CardIf) (off : CardIf), ∃ atr, Begins s d ∧ slot < 2 ∧ c = cardOf d slot ∧ CardsInStep d ∧ off =
      { cardReset slot with present := c.present, classB := c.classB, fault := c.fault } ∧ c.present = true ∧ dieOn d.sys.mode = true ∧ c.run =
      .activating ∧ c.wait = .atr ∧ d.ofc.op = none ∧ atrT1 atr = false) ∧
    (∃ (s : State) (d : Dev) (slot : Nat) (c : CardIf) (off : CardIf), Begins s d ∧ slot < 2 ∧ c = cardOf d slot ∧ CardsInStep d ∧ off =
      { cardReset slot with present := c.present, classB := c.classB, fault := c.fault } ∧ c.run ≠ .inactive ∧ c.wait = .atr ∧ d.ofc.op = none ∧
      c.classB = false) ∧
    (∃ (s : State) (d : Dev) (slot : Nat) (c : CardIf) (off : CardIf), Begins s d ∧ slot < 2 ∧ c = cardOf d slot ∧ CardsInStep d ∧ off =
      { cardReset slot with present := c.present, classB := c.classB, fault := c.fault } ∧ c.run ≠ .inactive ∧ c.wait = .atr ∧ d.ofc.op = none ∧
      c.classB = true) ∧
    (∃ (s : State) (d : Dev) (slot : Nat) (c : CardIf) (off : CardIf), Begins s d ∧ slot < 2 ∧ c = cardOf d slot ∧ CardsInStep d ∧ off =
      { cardReset slot with present := c.present, classB := c.classB, fault := c.fault } ∧ c.run ≠ .inactive ∧ c.wait = .ifs) ∧
    (∃ (s : State) (d : Dev) (slot : Nat) (c : CardIf) (off : CardIf), Begins s d ∧ slot < 2 ∧ c = cardOf d slot ∧ CardsInStep d ∧ off =
      { cardReset slot with present := c.present, classB := c.classB, fault := c.fault } ∧ c.run ≠ .inactive ∧ c.wait = .select ∧ d.ofc.op = none
      ∧ c.officer = none ∧ c.ask = true) :=
  ⟨⟨(st (wCard.getD 0 svc)), _, 0, _, _, (begins_st _ rfl rfl rfl), (by decide +kernel), rfl, (by unfold CardsInStep; decide +kernel), rfl,
    (by decide +kernel)⟩,
   ⟨(st (wCard.getD 1 svc)), _, 0, _, _, (begins_st _ rfl rfl rfl), (by decide +kernel), rfl, (by unfold CardsInStep; decide +kernel), rfl,
     (by decide +kernel)⟩,
   ⟨(st (wCard.getD 2 svc)), _, 0, _, _, [0x3B, 0x80, 0x01], (begins_st _ rfl rfl rfl), (by decide +kernel), rfl,
     (by unfold CardsInStep; decide +kernel), rfl, (by decide +kernel)⟩,
   ⟨(st (wCard.getD 2 svc)), _, 0, _, _, (ramp 97), (begins_st _ rfl rfl rfl), (by decide +kernel), rfl, (by unfold CardsInStep; decide +kernel),
     rfl, (by decide +kernel)⟩,
   ⟨(st (wCard.getD 2 svc)), _, 0, _, _, (begins_st _ rfl rfl rfl), (by decide +kernel), rfl, (by unfold CardsInStep; decide +kernel), rfl,
     (by decide +kernel)⟩,
   ⟨(st (wCard.getD 3 svc)), _, 0, _, _, (begins_st _ rfl rfl rfl), (by decide +kernel), rfl, (by unfold CardsInStep; decide +kernel), rfl,
     (by decide +kernel)⟩,
   ⟨(st (wCard.getD 9 svc)), _, 0, _, _, (begins_st _ rfl rfl rfl), (by decide +kernel), rfl, (by unfold CardsInStep; decide +kernel), rfl,
     (by decide +kernel)⟩,
   ⟨(st (wCard.getD 10 svc)), _, 0, _, _, (begins_st _ rfl rfl rfl), (by decide +kernel), rfl, (by unfold CardsInStep; decide +kernel), rfl,
     (by decide +kernel)⟩⟩

theorem CardCommands_met2 :
    (∃ (s : State) (d : Dev) (slot : Nat) (c : CardIf) (off : CardIf), ∃ sw, Begins s d ∧ slot < 2 ∧ c = cardOf d slot ∧ CardsInStep d ∧ off =
      { cardReset slot with present := c.present, classB := c.classB, fault := c.fault } ∧ c.run ≠ .inactive ∧ c.wait = .select ∧ d.ofc.op = none
      ∧ sw ≠ 0x9000) ∧
    (∃ (s : State) (d : Dev) (slot : Nat) (c : CardIf) (off : CardIf), ∃ pk n, Begins s d ∧ slot < 2 ∧ c = cardOf d slot ∧ CardsInStep d ∧ off =
      { cardReset slot with present := c.present, classB := c.classB, fault := c.fault } ∧ c.run ≠ .inactive ∧ c.wait = .identity ∧ d.ofc.op =
      none ∧ c.ask = false ∧ c.sel = true ∧ firstBelow 64 (fun m => (officerOf d m).run = .active && (officerOf d m).digest = sha384 pk) = some
      n) ∧
    (∃ (s : State) (d : Dev) (slot : Nat) (c : CardIf) (off : CardIf), ∃ pk, Begins s d ∧ slot < 2 ∧ c = cardOf d slot ∧ CardsInStep d ∧ off =
      { cardReset slot with present := c.present, classB := c.classB, fault := c.fault } ∧ c.run ≠ .inactive ∧ c.wait = .identity ∧ d.ofc.op =
      none ∧ c.ask = false ∧ c.sel = true ∧ firstBelow 64 (fun m => (officerOf d m).run = .active && (officerOf d m).digest = sha384 pk) = none) ∧
    (∃ (s : State) (d : Dev) (slot : Nat) (c : CardIf) (off : CardIf), ∃ id n ch, Begins s d ∧ slot < 2 ∧ c = cardOf d slot ∧ CardsInStep d ∧ off
      = { cardReset slot with present := c.present, classB := c.classB, fault := c.fault } ∧ c.run ≠ .inactive ∧ c.wait = .sign id ∧ c.officer =
      some n ∧ chalOf d id = some ch) ∧
    (∃ (s : State) (d : Dev) (slot : Nat) (c : CardIf) (off : CardIf), ∃ sw x, Begins s d ∧ slot < 2 ∧ c = cardOf d slot ∧ CardsInStep d ∧ off =
      { cardReset slot with present := c.present, classB := c.classB, fault := c.fault } ∧ c.run ≠ .inactive ∧ c.wait = .pin ∧ d.ofc.op = some
      (.pin slot x) ∧ (∀ kv, kv ∈ d.shadow → keyOnPage pgOFC kv.1 = false) ∧ sw < 65536) ∧
    (∃ (s : State) (d : Dev) (slot : Nat) (c : CardIf) (off : CardIf), ∃ n name chal alg pk k alg2 pk2 ok, Begins s d ∧ slot < 2 ∧ c = cardOf d
      slot ∧ CardsInStep d ∧ off = { cardReset slot with present := c.present, classB := c.classB, fault := c.fault } ∧ c.run ≠ .inactive ∧
      d.ofc.op = some (.enrol slot n name chal alg pk k) ∧ (∀ kv, kv ∈ d.shadow → keyOnPage pgOFC kv.1 = false) ∧ c.wait = .enrolId ∧ ok = ((alg2
      = 0x0102 || alg2 = 0x0312) && pk2.length = officerPkLen alg2 && (List.range 64).all (fun m => (officerOf d m).run = .empty || (officerOf d
      m).digest ≠ sha384 pk2)) ∧ ok = true) ∧
    (∃ (s : State) (d : Dev) (slot : Nat) (c : CardIf) (off : CardIf), ∃ n name chal alg pk k alg2 pk2 ok, Begins s d ∧ slot < 2 ∧ c = cardOf d
      slot ∧ CardsInStep d ∧ off = { cardReset slot with present := c.present, classB := c.classB, fault := c.fault } ∧ c.run ≠ .inactive ∧
      d.ofc.op = some (.enrol slot n name chal alg pk k) ∧ (∀ kv, kv ∈ d.shadow → keyOnPage pgOFC kv.1 = false) ∧ c.wait = .enrolId ∧ ok = ((alg2
      = 0x0102 || alg2 = 0x0312) && pk2.length = officerPkLen alg2 && (List.range 64).all (fun m => (officerOf d m).run = .empty || (officerOf d
      m).digest ≠ sha384 pk2)) ∧ ok = false) ∧
    (∃ (s : State) (d : Dev) (slot : Nat) (c : CardIf) (off : CardIf), ∃ n name chal alg pk k, Begins s d ∧ slot < 2 ∧ c = cardOf d slot ∧
      CardsInStep d ∧ off = { cardReset slot with present := c.present, classB := c.classB, fault := c.fault } ∧ c.run ≠ .inactive ∧ d.ofc.op =
      some (.enrol slot n name chal alg pk k) ∧ (∀ kv, kv ∈ d.shadow → keyOnPage pgOFC kv.1 = false) ∧ c.wait = .enrolSign) :=
  ⟨⟨(st (wCard.getD 10 svc)), _, 0, _, _, 0x6A82, (begins_st _ rfl rfl rfl), (by decide +kernel), rfl, (by unfold CardsInStep; decide +kernel),
    rfl, (by decide +kernel)⟩,
   ⟨(st (wCard.getD 5 svc)), _, 0, _, _, (ramp 97), 1, (begins_st _ rfl rfl rfl), (by decide +kernel), rfl,
     (by unfold CardsInStep; decide +kernel), rfl, (by decide +kernel)⟩,
   ⟨(st (wCard.getD 5 svc)), _, 0, _, _, [0x3B, 0x80, 0x01], (begins_st _ rfl rfl rfl), (by decide +kernel), rfl,
     (by unfold CardsInStep; decide +kernel), rfl, (by decide +kernel)⟩,
   ⟨(st (wCard.getD 6 svc)), _, 0, _, _, 1, 1, ((chalOf (wCard.getD 6 svc) 1).getD chal0), (begins_st _ rfl rfl rfl), (by decide +kernel), rfl,
     (by unfold CardsInStep; decide +kernel), rfl, (by decide +kernel)⟩,
   ⟨(st (wCard.getD 7 svc)), _, 0, _, _, 0, (ramp 4), (begins_st _ rfl rfl rfl), (by decide +kernel), rfl,
     (by unfold CardsInStep; decide +kernel), rfl, (by decide +kernel)⟩,
   ⟨(st (wCard.getD 11 svc)), _, 0, _, _, 9, (ramp 16), (ramp 144), 0, [], none, 0x0102, (ramp 97 5), _, (begins_st _ rfl rfl rfl),
     (by decide +kernel), rfl, (by unfold CardsInStep; decide +kernel), rfl, (by decide +kernel), (by decide +kernel), (by decide +kernel),
     (by decide +kernel), rfl, (by decide +kernel)⟩,
   ⟨(st (wCard.getD 11 svc)), _, 0, _, _, 9, (ramp 16), (ramp 144), 0, [], none, 0x0101, (ramp 97 5), _, (begins_st _ rfl rfl rfl),
     (by decide +kernel), rfl, (by unfold CardsInStep; decide +kernel), rfl, (by decide +kernel), (by decide +kernel), (by decide +kernel),
     (by decide +kernel), rfl, (by decide +kernel)⟩,
   ⟨(st (wCard.getD 8 svc)), _, 0, _, _, 9, (ramp 16), (ramp 144), 258, (ramp 97), none, (begins_st _ rfl rfl rfl), (by decide +kernel), rfl,
     (by unfold CardsInStep; decide +kernel), rfl, (by decide +kernel)⟩⟩

theorem LifeCycleCommands_met :
    (∃ (s : State) (d : Dev) (a : Access), ∃ d1 b addr v dst row, Begins s d ∧ AwakeFor d a ∧ (admitWrite (seenAs a) pgLC 0x044 d).1 = some .lc ∧
      takesJobs d pgLC = true ∧ d.lc.op = none ∧ fieldCode (seenAs a) pgLC 1 d Reg.LC_CMD_OP = 0 ∧ fieldCode (seenAs a) pgLC 1 d Reg.LC_CMD_ROW =
      0 ∧ v < 16 ∧ addr = fld d pgLC Reg.LC_ARG_LO_ADDR_LO * 8 + fld d pgLC Reg.LC_ARG_HI_ADDR_HI * 2 ^ 32 ∧ d1 = setFld d pgLC Reg.LC_CMD_ROW v
      ∧ v = 0 ∧ secureRange d1 addr 32 = true ∧ plainFetch addr 32 d1 = (b, d1) ∧ (d.sys.mode = .startup ∨ d.sys.mode = .service) ∧ lcOfByte (fld
      d pgLC Reg.LC_TARGET_TARGET) = some dst ∧ lcCheck dst b d = .ok row ∧ dst ≠ .returned) ∧
    (∃ (s : State) (d : Dev) (a : Access), ∃ d1 b addr v dst e, Begins s d ∧ AwakeFor d a ∧ (admitWrite (seenAs a) pgLC 0x044 d).1 = some .lc ∧
      takesJobs d pgLC = true ∧ d.lc.op = none ∧ fieldCode (seenAs a) pgLC 1 d Reg.LC_CMD_OP = 0 ∧ fieldCode (seenAs a) pgLC 1 d Reg.LC_CMD_ROW =
      0 ∧ v < 16 ∧ addr = fld d pgLC Reg.LC_ARG_LO_ADDR_LO * 8 + fld d pgLC Reg.LC_ARG_HI_ADDR_HI * 2 ^ 32 ∧ d1 = setFld d pgLC Reg.LC_CMD_ROW v
      ∧ v = 0 ∧ secureRange d1 addr 32 = true ∧ plainFetch addr 32 d1 = (b, d1) ∧ (d.sys.mode = .startup ∨ d.sys.mode = .service) ∧ lcOfByte (fld
      d pgLC Reg.LC_TARGET_TARGET) = some dst ∧ lcCheck dst b d = .error e) ∧
    (∃ (s : State) (d : Dev) (a : Access), ∃ d1 b addr v, Begins s d ∧ AwakeFor d a ∧ (admitWrite (seenAs a) pgLC 0x044 d).1 = some .lc ∧
      takesJobs d pgLC = true ∧ d.lc.op = none ∧ fieldCode (seenAs a) pgLC 1 d Reg.LC_CMD_OP = 0 ∧ fieldCode (seenAs a) pgLC 1 d Reg.LC_CMD_ROW =
      0 ∧ v < 16 ∧ addr = fld d pgLC Reg.LC_ARG_LO_ADDR_LO * 8 + fld d pgLC Reg.LC_ARG_HI_ADDR_HI * 2 ^ 32 ∧ d1 = setFld d pgLC Reg.LC_CMD_ROW v
      ∧ secureRange d1 addr 48 = true ∧ plainFetch addr 48 d1 = (b, d1) ∧ v < 4 ∧ d.sys.lc = .raw ∧ rowSet d v = false ∧ lcSupply d = true) ∧
    (∃ (s : State) (d : Dev) (a : Access), ∃ d1 b addr v, Begins s d ∧ AwakeFor d a ∧ (admitWrite (seenAs a) pgLC 0x044 d).1 = some .lc ∧
      takesJobs d pgLC = true ∧ d.lc.op = none ∧ fieldCode (seenAs a) pgLC 1 d Reg.LC_CMD_OP = 0 ∧ fieldCode (seenAs a) pgLC 1 d Reg.LC_CMD_ROW =
      0 ∧ v < 16 ∧ addr = fld d pgLC Reg.LC_ARG_LO_ADDR_LO * 8 + fld d pgLC Reg.LC_ARG_HI_ADDR_HI * 2 ^ 32 ∧ d1 = setFld d pgLC Reg.LC_CMD_ROW v
      ∧ secureRange d1 addr 48 = true ∧ plainFetch addr 48 d1 = (b, d1) ∧ rowSet d v = true) ∧
    (∃ (s : State) (d : Dev) (a : Access), ∃ row b, Begins s d ∧ AwakeFor d a ∧ d.lc = ⟨some (.tokenSet row b), false⟩) ∧
    (∃ (s : State) (d : Dev) (a : Access), ∃ src dst row, Begins s d ∧ AwakeFor d a ∧ dst ∈ [Lc.test, .factory] ∧ d.lc = ⟨some (.transition src
      (lcCode dst) row), false⟩) ∧
    (∃ (s : State) (d : Dev) (a : Access), Begins s d ∧ AwakeFor d a ∧ (admitWrite (seenAs a) pgDBG 0x040 d).1 = some .dbg ∧ d.sys.lc ≠ .raw ∧
      d.sys.lc ≠ .test ∧ (hdrOf d pgDBG).softRst = false ∧ bits (regGet d pgDBG 0x040) 3 2 = 0 ∧ d.sys.dbgHaltReq = 0) :=
  ⟨⟨(st (wLc.getD 0 svc)), _, acc, _, (ramp 32), _, _, Lc.factory, 1, (begins_st _ rfl rfl rfl), (awakeFor_st _ _ (by decide +kernel)),
    (by decide +kernel), (by decide +kernel), (by decide +kernel), (by decide +kernel), (by decide +kernel), (by decide +kernel), rfl, rfl, rfl,
    (by decide +kernel), (by decide +kernel), (by decide +kernel), (by decide +kernel), (except_of (by decide +kernel)), (by decide +kernel)⟩,
   ⟨(st (wLc.getD 1 svc)), _, acc, _, (ramp 32), _, _, Lc.factory, 2, (begins_st _ rfl rfl rfl), (awakeFor_st _ _ (by decide +kernel)),
     (by decide +kernel), (by decide +kernel), (by decide +kernel), (by decide +kernel), (by decide +kernel), (by decide +kernel), rfl, rfl, rfl,
     (by decide +kernel), (by decide +kernel), (by decide +kernel), (by decide +kernel), (except_of (by decide +kernel))⟩,
   ⟨(st (wLc.getD 2 svc)), _, acc, _, (ramp 48), _, 0, (begins_st _ rfl rfl rfl), (awakeFor_st _ _ (by decide +kernel)), (by decide +kernel),
     (by decide +kernel), (by decide +kernel), (by decide +kernel), (by decide +kernel), (by decide +kernel), rfl, rfl, (by decide +kernel)⟩,
   ⟨(st (wLc.getD 0 svc)), _, acc, _, (ramp 48), _, 1, (begins_st _ rfl rfl rfl), (awakeFor_st _ _ (by decide +kernel)), (by decide +kernel),
     (by decide +kernel), (by decide +kernel), (by decide +kernel), (by decide +kernel), (by decide +kernel), rfl, rfl, (by decide +kernel)⟩,
   ⟨(st (wLc.getD 3 svc)), _, acc, 1, (ramp 48), (begins_st _ rfl rfl rfl), (awakeFor_st _ _ (by decide +kernel)), (by decide +kernel)⟩,
   ⟨(st (wLc.getD 4 svc)), _, acc, 0, (Lc.test), 0, (begins_st _ rfl rfl rfl), (awakeFor_st _ _ (by decide +kernel)), (by decide +kernel)⟩,
   ⟨(st (wLc.getD 6 svc)), _, acc, (begins_st _ rfl rfl rfl), (awakeFor_st _ _ (by decide +kernel)), (by decide +kernel)⟩⟩

theorem RecorderCommands_met1 :
    (∃ (s : State) (d : Dev) (a : Access), ∃ v w d1 b tag r, Begins s d ∧ AwakeFor d a ∧ v < 2 ^ 31 ∧ w = v + 2 ^ 31 ∧ (admitWrite (seenAs a)
      pgEVR 0x04C d).1 = some .evr0 ∧ (hdrOf d pgEVR).softRst = false ∧ d1 = (judgePlain .evr0 (seenAs a) pgEVR 0x04C w d).d ∧ wrChannelOk
      (seenAs a) w = true ∧ memFetch (whoDevice 4 (seenAs a).sec) false (fldPair d pgEVR Reg.EVR_WR_ADDR_LO_ADDR_LO Reg.EVR_WR_ADDR_HI_ADDR_HI)
      (fld d pgEVR Reg.EVR_WR_LEN_LEN) d1 = (.ok, b, tag, d1) ∧ d.evr.held = [] ∧ dieOn d.sys.mode = true ∧ stopped d.sys.mode = false ∧ fld d
      pgEVR Reg.EVR_FW_RATE_RATE = 0 ∧ r = ⟨bits v 27 24, bits v 18 16, bits v 15 0, 32, false, b, none⟩ ∧ bufBytes d + (recBytes r 0 0
      false).length ≤ 65536) ∧
    (∃ (s : State) (d : Dev) (a : Access), ∃ m d1, Begins s d ∧ AwakeFor d a ∧ m < 65536 ∧ (admitWrite (seenAs a) pgEVR 0x05C d).1 = some .evr0 ∧
      (seenAs a).sec = true ∧ (hdrOf d pgEVR).softRst = false ∧ d1 = (judgePlain .evr0 (seenAs a) pgEVR 0x05C (m + 2 ^ 31) d).d ∧ d.sys.mode ≠
      .service ∧ d.sys.mode ≠ .ceremony) ∧
    (∃ (s : State) (d : Dev) (a : Access), ∃ m d1 tk tag ids who d2, Begins s d ∧ AwakeFor d a ∧ m < 65536 ∧ (admitWrite (seenAs a) pgEVR 0x05C
      d).1 = some .evr0 ∧ (seenAs a).sec = true ∧ (hdrOf d pgEVR).softRst = false ∧ d1 = (judgePlain .evr0 (seenAs a) pgEVR 0x05C (m + 2 ^ 31)
      d).d ∧ (d.sys.mode = .service ∨ d.sys.mode = .ceremony) ∧ classUsable d 0 = true ∧ fld d pgEVR Reg.EVR_CLR_TKT_LEN_LEN ≠ 0 ∧ evrTicket d1 =
      (.ok, tk, tag, d1) ∧ ticketsCheck [⟨0xFFFF, 0x2007, 0, sha384 (leBytes 2 m ++ zeros 6), 0⟩] tk [] d1 = (.ok (ids, who), d2) ∧ d2 =
      { d1 with ofc := d2.ofc } ∧ d.evr.held = [] ∧ bufBytes d + 40 ≤ 65536) ∧
    (∃ (s : State) (d : Dev) (a : Access), ∃ port cur cand n b, Begins s d ∧ AwakeFor d a ∧ port = evPort (seenAs a) ∧ port <
      d.evr.cursors.length ∧ cur = d.evr.cursors.getD port 0 ∧ cand = evCandidates d port ∧ reach d a pgEVR1 0x040 ≠ .gone ∧ readRefused d
      (seenAs a) .evr1 pgEVR1 = false ∧ (n, b) ∈ cand ∧ cur ≤ n ∧ (∀ x, x ∈ cand → cur ≤ x.1 → n ≤ x.1) ∧ (∀ x, x ∈ cand → x.1 = n → x.2 = b)) ∧
    (∃ (s : State) (d : Dev) (a : Access), ∃ port cur cand, Begins s d ∧ AwakeFor d a ∧ port = evPort (seenAs a) ∧ port < d.evr.cursors.length ∧
      cur = d.evr.cursors.getD port 0 ∧ cand = evCandidates d port ∧ reach d a pgEVR1 0x040 ≠ .gone ∧ readRefused d (seenAs a) .evr1 pgEVR1 =
      false ∧ (∀ x, x ∈ cand → x.1 < cur)) ∧
    (∃ (s : State) (d : Dev) (a : Access), ∃ port cur cand n b, Begins s d ∧ AwakeFor d a ∧ port = evPort (seenAs a) ∧ port <
      d.evr.cursors.length ∧ cur = d.evr.cursors.getD port 0 ∧ cand = evCandidates d port ∧ reach d a pgEVR1 0x044 ≠ .gone ∧ readRefused d
      (seenAs a) .evr1 pgEVR1 = false ∧ (n, b) ∈ cand ∧ n < cur ∧ (∀ x, x ∈ cand → x.1 < cur → x.1 ≤ n) ∧ (∀ x, x ∈ cand → x.1 = n → x.2 = b)) ∧
    (∃ (s : State) (d : Dev) (a : Access), ∃ port cur cand, Begins s d ∧ AwakeFor d a ∧ port = evPort (seenAs a) ∧ port < d.evr.cursors.length ∧
      cur = d.evr.cursors.getD port 0 ∧ cand = evCandidates d port ∧ reach d a pgEVR1 0x044 ≠ .gone ∧ readRefused d (seenAs a) .evr1 pgEVR1 =
      false ∧ (∀ x, x ∈ cand → cur ≤ x.1)) ∧
    (∃ (s : State) (d : Dev) (a : Access), ∃ port cur cand v, Begins s d ∧ AwakeFor d a ∧ port = evPort (seenAs a) ∧ port < d.evr.cursors.length
      ∧ cur = d.evr.cursors.getD port 0 ∧ cand = evCandidates d port ∧ v < 2 ^ 32 ∧ port ≠ 2 ∧ (admitWrite (seenAs a) pgEVR1 0x04C d).1 = some
      .evr1 ∧ (hdrOf d pgEVR1).softRst = false) :=
  ⟨⟨(st (wRec.getD 0 svc)), _, acc, 0x08038001, _, _, [0, 0, 0, 0], none, _, (begins_st _ rfl rfl rfl), (awakeFor_st _ _ (by decide +kernel)),
    (by decide +kernel), rfl, (by decide +kernel), (by decide +kernel), rfl, (by decide +kernel), (by decide +kernel), (by decide +kernel),
    (by decide +kernel), (by decide +kernel), (by decide +kernel), rfl, (by decide +kernel)⟩,
   ⟨(st (wRec.getD 2 svc)), _, acc, 0, _, (begins_st _ rfl rfl rfl), (awakeFor_st _ _ (by decide +kernel)), (by decide +kernel),
     (by decide +kernel), (by decide +kernel), (by decide +kernel), rfl, (by decide +kernel)⟩,
   ⟨(st (wRec.getD 5 svc)), _, acc, 0x300, _, [65, 68, 75, 84, 1, 0, 0, 0, 1, 0, 0, 0, 0, 0, 0, 0], none, ([1]), ([1, 2]), (ticketsCheck
     [⟨0xFFFF, 0x2007, 0, sha384 (leBytes 2 0x300 ++ zeros 6), 0⟩] (ascii "ADKT" ++ [1, 0, 0, 0] ++ leBytes 8 1) [] (judgePlain .evr0 (seenAs
     acc) pgEVR 0x05C (0x300 + 2 ^ 31) (wRec.getD 5 svc)).d).2, (begins_st _ rfl rfl rfl), (awakeFor_st _ _ (by decide +kernel)),
     (by decide +kernel), (by decide +kernel), (by decide +kernel), (by decide +kernel), rfl, (by decide +kernel), (by decide +kernel),
     (by decide +kernel), (by decide +kernel), (pair_of (except_of (by decide +kernel)) (by decide +kernel)), (by decide +kernel)⟩,
   ⟨(st (wRec.getD 1 svc)), _, acc, _, _, _, 1, ((evCandidates (wRec.getD 1 svc) 0).getD 0 (0, [])).2, (begins_st _ rfl rfl rfl), (awakeFor_st _
     _ (by decide +kernel)), rfl, (by decide +kernel), rfl, rfl, (by decide +kernel)⟩,
   ⟨(st (wRec.getD 4 svc)), _, acc, _, _, _, (begins_st _ rfl rfl rfl), (awakeFor_st _ _ (by decide +kernel)), rfl, (by decide +kernel), rfl,
     rfl, (by decide +kernel)⟩,
   ⟨(st (wRec.getD 2 svc)), _, acc, _, _, _, 4, ((evCandidates (wRec.getD 2 svc) 0).getD 3 (0, [])).2, (begins_st _ rfl rfl rfl), (awakeFor_st _
     _ (by decide +kernel)), rfl, (by decide +kernel), rfl, rfl, (by decide +kernel)⟩,
   ⟨(st (wRec.getD 1 svc)), _, acc, _, _, _, (begins_st _ rfl rfl rfl), (awakeFor_st _ _ (by decide +kernel)), rfl, (by decide +kernel), rfl,
     rfl, (by decide +kernel)⟩,
   ⟨(st (wRec.getD 0 svc)), _, acc, _, _, _, 0, (begins_st _ rfl rfl rfl), (awakeFor_st _ _ (by decide +kernel)), rfl, (by decide +kernel), rfl,
     rfl, (by decide +kernel)⟩⟩

theorem RecorderCommands_met2 :
    (∃ (s : State) (d : Dev) (a : Access), Begins s d ∧ AwakeFor d a ∧ dieOn d.sys.mode = true ∧ d.evr.held = [] ∧ d.evr.buf = []) ∧
    (∃ (s : State) (d : Dev) (a : Access), ∃ r rest pos len x, Begins s d ∧ AwakeFor d a ∧ dieOn d.sys.mode = true ∧ d.evr.held = [] ∧ d.evr.buf
      = r :: rest ∧ (chanArea r.chan).slots = 0 ∧ smapGet falseAt d.nv.logFull r.chan = false ∧ pos = smapGet zeroAt d.nv.logPos r.chan ∧ len =
      r.bytes.length ∧ pos + len ≤ (chanArea r.chan).kept ∧ x = logBase + (chanArea r.chan).off + pos ∧ (∀ y, y ∈ d.nv.log → overlaps y.addr
      y.len x len = false)) :=
  ⟨⟨(st (wRec.getD 1 svc)), _, acc, (begins_st _ rfl rfl rfl), (awakeFor_st _ _ (by decide +kernel)), (by decide +kernel)⟩,
   ⟨(st (wRec.getD 0 svc)), _, acc, (recAt 3 2), [recAt 4 8], _, _, _, (begins_st _ rfl rfl rfl), (awakeFor_st _ _ (by decide +kernel)),
     (by decide +kernel), (by decide +kernel), (by decide +kernel), (by decide +kernel), (by decide +kernel), rfl, rfl, (by decide +kernel), rfl,
     (by decide +kernel)⟩⟩

theorem TamperCommands_met1 :
    (∃ (s : State) (d : Dev) (r : Trip) (x : TampSrc) (eff : Nat), Begins s d ∧ r.src < 7 ∧ (r.a = true ∨ r.b = true) ∧ x = tampOf d r.src ∧ x.a
      = false ∧ x.b = false ∧ tampFused d r.src = false ∧ d.sys.mode = .service ∧ eff = respEff d r.src ∧ resetRuns d = false ∧ eff ≤ 1) ∧
    (∃ (s : State) (d : Dev) (r : Trip) (x : TampSrc) (eff : Nat), Begins s d ∧ r.src < 7 ∧ (r.a = true ∨ r.b = true) ∧ x = tampOf d r.src ∧ x.a
      = false ∧ x.b = false ∧ tampFused d r.src = false ∧ d.sys.mode = .service ∧ eff = respEff d r.src ∧ resetRuns d = false ∧ eff = 2) ∧
    (∃ (s : State) (d : Dev) (r : Trip) (x : TampSrc) (eff : Nat), Begins s d ∧ r.src < 7 ∧ (r.a = true ∨ r.b = true) ∧ x = tampOf d r.src ∧ x.a
      = false ∧ x.b = false ∧ tampFused d r.src = false ∧ d.sys.mode = .service ∧ eff = respEff d r.src ∧ resetRuns d = false ∧ eff = 3 ∧
      fltServes d = true ∧ (lateResets d).length < 3) ∧
    (∃ (s : State) (d : Dev) (r : Trip) (x : TampSrc) (eff : Nat), Begins s d ∧ r.src < 7 ∧ (r.a = true ∨ r.b = true) ∧ x = tampOf d r.src ∧ x.a
      = false ∧ x.b = false ∧ tampFused d r.src = false ∧ d.sys.mode = .service ∧ eff = respEff d r.src ∧ resetRuns d = false ∧ eff = 4 ∧
      fltServes d = true) ∧
    (∃ (s : State) (d : Dev) (r : Trip) (x : TampSrc) (eff : Nat), Begins s d ∧ r.src < 7 ∧ (r.a = true ∨ r.b = true) ∧ x = tampOf d r.src ∧ x.a
      = false ∧ x.b = false ∧ tampFused d r.src = false ∧ d.sys.mode = .service ∧ eff = respEff d r.src ∧ resetRuns d = false ∧ eff = 5) ∧
    (∃ (s : State) (d : Dev), Begins s d ∧ dieOn d.sys.mode = false) ∧
    (∃ (s : State) (d : Dev) (r : LanternRead) (step : Nat) (now : Nat), Begins s d ∧ d.lant.powered = true ∧ d.sys.mode ≠ .off ∧ step = (if
      dieOn d.sys.mode then 1 else 32) ∧ now = max d.now (timeOfStamp d (tickOf (d.now - d.lant.epochNs) + step)) ∧ (∀ n, n ∈ [7, 8, 9, 10, 11,
      12, 15] → (sampleOf d r step n).1 = false ∧ (sampleOf d r step n).2.1 = false)) ∧
    (∃ (s : State) (d : Dev) (r : LanternRead) (step : Nat) (now : Nat), Begins s d ∧ d.lant.powered = true ∧ d.sys.mode ≠ .off ∧ step = (if
      dieOn d.sys.mode then 1 else 32) ∧ now = max d.now (timeOfStamp d (tickOf (d.now - d.lant.epochNs) + step)) ∧ d.sys.mode = .vigil ∧
      d.lant.latch.length < 16 ∧ respEff d 15 = 0 ∧ (tampOf d 15).a = false ∧ (tampOf d 15).b = false ∧ tampFused d 15 = false ∧ (r.inputMv <
      2300 ∨ r.coreMv < 900) ∧ (∀ n, n ∈ [7, 8, 9, 10, 11, 12] → (sampleOf d r step n).1 = false ∧ (sampleOf d r step n).2.1 = false)) :=
  ⟨⟨(st (wTamp.getD 0 svc)), _, ⟨0, true, false, none, 0, none⟩, _, _, (begins_st _ rfl rfl rfl), (by decide +kernel), (by decide +kernel), rfl,
    (by decide +kernel), (by decide +kernel), (by decide +kernel), (by decide +kernel), rfl, (by decide +kernel)⟩,
   ⟨(st (wTamp.getD 2 svc)), _, ⟨0, true, false, none, 0, none⟩, _, _, (begins_st _ rfl rfl rfl), (by decide +kernel), (by decide +kernel), rfl,
     (by decide +kernel), (by decide +kernel), (by decide +kernel), (by decide +kernel), rfl, (by decide +kernel)⟩,
   ⟨(st (wTamp.getD 3 svc)), _, ⟨0, true, false, none, 0, none⟩, _, _, (begins_st _ rfl rfl rfl), (by decide +kernel), (by decide +kernel), rfl,
     (by decide +kernel), (by decide +kernel), (by decide +kernel), (by decide +kernel), rfl, (by decide +kernel)⟩,
   ⟨(st (wTamp.getD 4 svc)), _, ⟨0, true, false, none, 0, none⟩, _, _, (begins_st _ rfl rfl rfl), (by decide +kernel), (by decide +kernel), rfl,
     (by decide +kernel), (by decide +kernel), (by decide +kernel), (by decide +kernel), rfl, (by decide +kernel)⟩,
   ⟨(st (wTamp.getD 5 svc)), _, ⟨0, true, false, none, 0, none⟩, _, _, (begins_st _ rfl rfl rfl), (by decide +kernel), (by decide +kernel), rfl,
     (by decide +kernel), (by decide +kernel), (by decide +kernel), (by decide +kernel), rfl, (by decide +kernel)⟩,
   ⟨(st (wTamp.getD 6 svc)), _, (begins_st _ rfl rfl rfl), (by decide +kernel)⟩,
   ⟨(st (wTamp.getD 0 svc)), _, quiet, _, _, (begins_st _ rfl rfl rfl), (by decide +kernel), (by decide +kernel), rfl, rfl, (by decide +kernel)⟩,
   ⟨(st (wTamp.getD 6 svc)), _, low, _, _, (begins_st _ rfl rfl rfl), (by decide +kernel), (by decide +kernel), rfl, rfl, (by decide +kernel)⟩⟩

theorem TamperCommands_met2 :
    (∃ (s : State) (d : Dev), ∃ n x u, Begins s d ∧ x = tampOf d n ∧ n ≠ 14 ∧ bit d.tamp.throttling n = false ∧ (tampOf d 14).a = false ∧
      x.heldUntil = some u) ∧
    (∃ (s : State) (d : Dev), ∃ n x, Begins s d ∧ x = tampOf d n ∧ n ≠ 14 ∧ bit d.tamp.throttling n = false ∧ (tampOf d 14).a = false ∧ n ≤ 6 ∧
      x.heldUntil = none) ∧
    (∃ (s : State) (d : Dev), ∃ n, Begins s d ∧ n ≤ 6 ∧ (tampOf d n).heldUntil = none ∧ bit d.tamp.throttling n = true) ∧
    (∃ (s : State) (d : Dev), ∃ n u, Begins s d ∧ (tampOf d n).disSince = some u ∧ (tampOf d n).fired = false ∧ pairWatched d n = true ∧
      d.sys.mode = .service ∧ resetRuns d = false ∧ respEff d 14 ≤ 1) ∧
    (∃ (s : State) (d : Dev), ∃ u, Begins s d ∧ d.tamp.throttleEnd = some u ∧ d.tamp.throttling = 0 ∧ d.sys.mode ≠ .drowse ∧ d.sys.mode ≠
      .holdup) ∧
    (∃ (s : State) (d : Dev), ∃ a mask, Begins s d ∧ AwakeFor d a ∧ mask < 65536 ∧ (admitWrite (seenAs a) pgTAMP 0x048 d).1 = some .tamp0 ∧
      (hdrOf d pgTAMP).softRst = false ∧ Nat.land mask fuseMask = mask ∧ fuseOpen d = true) ∧
    (∃ (s : State) (d : Dev), ∃ a mask, Begins s d ∧ AwakeFor d a ∧ mask < 65536 ∧ (admitWrite (seenAs a) pgTAMP 0x048 d).1 = some .tamp0 ∧
      (hdrOf d pgTAMP).softRst = false ∧ Nat.land mask fuseMask = mask ∧ fuseOpen d = false ∧ (hdrOf d pgTAMP).cfgErr = false) ∧
    (∃ (s : State) (d : Dev), ∃ a v, Begins s d ∧ AwakeFor d a ∧ v < 2 ^ 32 ∧ (admitWrite (seenAs a) pgVIG 0x048 d).1 = some .vig ∧ (hdrOf d
      pgVIG).softRst = false ∧ (hdrOf d pgVIG).lock = false ∧ floorLc d ≠ .deployed) :=
  ⟨⟨(st (wTamp.getD 7 svc)), _, 2, _, 50, (begins_st _ rfl rfl rfl), rfl, (by decide +kernel)⟩,
   ⟨(st (wTamp.getD 0 svc)), _, 0, _, (begins_st _ rfl rfl rfl), rfl, (by decide +kernel)⟩,
   ⟨(st (wTamp.getD 9 svc)), _, 0, (begins_st _ rfl rfl rfl), (by decide +kernel)⟩,
   ⟨(st (wTamp.getD 10 svc)), _, 0, 50, (begins_st _ rfl rfl rfl), (by decide +kernel)⟩,
   ⟨(st (wTamp.getD 11 svc)), _, 70, (begins_st _ rfl rfl rfl), (by decide +kernel)⟩,
   ⟨(st (wTamp.getD 0 svc)), _, acc, 0, (begins_st _ rfl rfl rfl), (awakeFor_st _ _ (by decide +kernel)), (by decide +kernel)⟩,
   ⟨(st (wTamp.getD 13 svc)), _, acc, 0, (begins_st _ rfl rfl rfl), (awakeFor_st _ _ (by decide +kernel)), (by decide +kernel)⟩,
   ⟨(st (wTamp.getD 0 svc)), _, acc, 0, (begins_st _ rfl rfl rfl), (awakeFor_st _ _ (by decide +kernel)), (by decide +kernel)⟩⟩

theorem TamperCommands_met3 :
    ∃ (s : State) (d : Dev), ∃ u rest, Begins s d ∧ d.lant.resets = u :: rest :=
  ⟨(st (wTamp.getD 12 svc)), _, 0, ([5]), (begins_st _ rfl rfl rfl), (by decide +kernel)⟩

end Sys2Proof.Tests
end

section
/-! The state after reset (log entries 7, 8 and 140): the token rows the part ships with, and the tables in canonical form. -/

open Sys2Proof Sys2Proof.Machine

namespace Sys2Proof.Proofs

/-- A table that lists the values of a function at some keys finds those values, and only at those keys. -/
theorem smapFind_map_graph {α : Type} (f : Nat → α) (l : List Nat) (n : Nat) :
    smapFind (l.map fun k => (k, f k)) n = if n ∈ l then some (f n) else none := by
  induction l with
  | nil => rfl
  | cons k t ih =>
    by_cases h : k = n
    · simp [smapFind, h]
    · simp [smapFind, h, Ne.symm h, ih]

/-- The rows programmed at reset are rows 0-3, whatever digests the part holds in them (R2, R414). -/
theorem rowSet_reset (r : Nat) : rowSet State.reset.dev r = decide (r < 4) := by
  have rows : State.reset.dev.fuse.rows
      = (List.range 4).map fun k => (k, some ((List.range 48).map (Config.tokenRowByte k))) := rfl
  unfold rowSet smapGet
  rw [rows, smapFind_map_graph]
  by_cases h : r < 4 <;> simp [h, noneAt]

/-- At reset the register file and the page headers list nothing, and memory lists the records of manufacture in canonical form. -/
theorem reset_tidy : State.reset.dev.tidy :=
  ⟨reset_mem_wf, smapWf_nil regReset, smapWf_nil hdrReset⟩

/-- Settles O4: the tables by `reset_tidy`, the token rows by `rowSet_reset`, and every other field as the reset state writes it. -/
theorem resetStateIsSound : Obligations.ResetStateIsSound :=
  ⟨rfl, rfl, rfl, rfl, reset_tidy, rfl, rfl,
    fun r h => (rowSet_reset r).trans (decide_eq_true h), rowSet_reset 4⟩

end Sys2Proof.Proofs
end

section
/-! The block as a machine (R8, R12): every command answers a next state, which its queue does not decide; so a queue of commands is
served to its end. -/

open Sys2Proof Sys2Proof.Machine

namespace Sys2Proof.Proofs

/-- The block as a command leaves it. -/
def execDev (c : Instr) (d : Dev) : Dev :=
  match exec c ⟨d, []⟩ with
  | .next u => u.dev
  | _ => d

/-- Every command answers a next state: the block decides it, and the commands that wait go on waiting. -/
theorem exec_eq_next (c : Instr) (s : State) : exec c s = .next ⟨execDev c s.dev, s.pending⟩ := by
  cases c <;> rfl

/-- A step with a command at the front of the queue is that command's, the rest of the queue waiting. -/
theorem step_cons (c : Instr) (rest : List Instr) (d : Dev) : step ⟨d, c :: rest⟩ = .next ⟨execDev c d, rest⟩ :=
  exec_eq_next c ⟨d, rest⟩

/-- Running a queue to its end runs its commands in order, and leaves the queue empty. -/
theorem runSteps_queue (cs : List Instr) (d : Dev) :
    runSteps cs.length ⟨d, cs⟩ = some ⟨cs.foldl (fun d c => execDev c d) d, []⟩ := by
  induction cs generalizing d with
  | nil => rfl
  | cons c cs ih =>
    rw [List.length_cons, runSteps, step_cons]
    exact ih (execDev c d)

/-- While GEN_ROOT runs, a step on an empty queue is one of its steps. -/
theorem step_rootStep {s : State} {d : Dev} (b : Begins s d) (hq : s.pending = []) (busy : d.key.busy = true)
    (ok : (rootStep d).mpe.failing = none) : step s = .next { s with dev := rootStep d } := by
  obtain ⟨rfl, -⟩ := b
  have busy' : s.dev.key.busy = true := busy
  rw [step_nil s hq]
  unfold tick
  rw [if_pos busy', runDev_ok s rootStep ok]

/-- Settles O1: the step's own equation, `step_idle` and `step_rootStep`. -/
theorem stepRunsFront : Obligations.StepRunsFront := by
  refine ⟨fun c s rest h => ?_, step_idle, fun s d b hq busy ok => step_rootStep b hq busy ok⟩
  unfold step
  rw [h]

/-- Settles O3: by `runSteps_queue`, an induction over the queue. -/
theorem queueServedInOrder : Obligations.QueueServedInOrder := by
  rintro cs ⟨d, _⟩ ⟨⟩
  exact ⟨_, runSteps_queue _ d, rfl, rfl⟩

end Sys2Proof.Proofs
end

section
/-! What keeps the canonical form (R14, R18): the tables are written by `smapSet` and thinned by `smapKeep` alone. -/

open Sys2Proof Sys2Proof.Machine

namespace Sys2Proof.Machine

/-- Whichever way a draw ends, the block is in canonical form. -/
def Draw.tidy : Draw → Prop
  | .got _ d | .wait d | .err d => d.tidy

/-- Whichever way a load ends, the block is in canonical form. -/
def Load.tidy : Load → Prop
  | .done _ d | .wait d | .never d => d.tidy

/-- Whichever way a draw from a counter ends, the block is in canonical form. -/
def CtrDraw.tidy : CtrDraw → Prop
  | .got _ d | .wait d | .fail _ d => d.tidy

/-- Whichever way an operation ends, the block is in canonical form. -/
def OpOut.tidy : OpOut → Prop
  | .done _ d | .wait d => d.tidy

/-- Where a change is made at the fence, the block is in canonical form. -/
def FenceOut.tidy : FenceOut → Prop
  | .done d _ => d.tidy
  | .fail _ | .wait => True

/-- Where changes are made at the fence, the block is in canonical form. -/
def Changes.tidy : Changes → Prop
  | .done d _ => d.tidy
  | .fail _ | .wait => True

/-- Where a key is admitted, the block is in canonical form. -/
def Admit.tidy : Admit → Prop
  | .yes d | .wait d => d.tidy
  | .no _ => True

/-- Whichever way a policy check ends, the block is in canonical form. -/
def PolOut.tidy : PolOut → Prop
  | .pass _ d | .fail _ _ d | .wait d => d.tidy

end Sys2Proof.Machine

namespace Sys2Proof.Proofs

/-- Any part of the block but the three tables may change. -/
theorem tidy_with {d : Dev} {sys parts sup lant fuse nv wear harts flt raised hearth irq dma gpio tamp lc evr host ent mpe key cmd units
    mgr ofc shadow out bus now fresh} (hd : d.tidy) :
    Dev.tidy ⟨sys, parts, sup, lant, fuse, nv, wear, harts, flt, raised, hearth, irq, dma, gpio, tamp, lc, evr, host, ent, mpe, key, cmd,
      units, mgr, ofc, d.hdr, d.regs, shadow, d.mem, out, bus, now, fresh⟩ := hd

/-- A register word may be written, whatever its key. -/
theorem setWord_tidy {d : Dev} {key : Nat} {w : Word} (hd : d.tidy) :
    Dev.tidy { d with regs := smapSet regReset d.regs key w } := by
  obtain ⟨hmem, hregs, hhdr⟩ := hd
  exact ⟨hmem, smapWf_set regReset d.regs key w hregs, hhdr⟩

/-- Registers may be given up to their reset values. -/
theorem keepWords_tidy {d : Dev} {p : Nat → Bool} {shadow : SMap Shadow} (hd : d.tidy) :
    Dev.tidy { d with regs := smapKeep p d.regs, shadow := shadow } := by
  obtain ⟨hmem, hregs, hhdr⟩ := hd
  exact ⟨hmem, smapWf_keep regReset p d.regs hregs, hhdr⟩

theorem tidy_ite {c : Prop} [Decidable c] {a b : Dev} (ha : a.tidy) (hb : b.tidy) : (if c then a else b).tidy := by
  split
  · exact ha
  · exact hb

/-- What a fold's step keeps, the fold keeps. -/
theorem tidy_foldl {α : Type} {f : Dev → α → Dev} {l : List α} {d : Dev} (hf : ∀ d a, d.tidy → (f d a).tidy) (hd : d.tidy) :
    (l.foldl f d).tidy := by
  induction l generalizing d with
  | nil => exact hd
  | cons a l ih => exact ih (hf d a hd)

/-- What a fold's step keeps of what it carries, the fold keeps. -/
theorem foldl_of {α β : Type} (P : β → Prop) {f : β → α → β} {l : List α} {b : β} (hf : ∀ b a, P b → P (f b a)) (hb : P b) :
    P (l.foldl f b) := by
  induction l generalizing b with
  | nil => exact hb
  | cons a l ih => exact ih (hf b a hb)

theorem ite_of {β : Type} (P : β → Prop) {c : Prop} [Decidable c] {a b : β} (ha : P a) (hb : P b) : P (if c then a else b) := by
  split
  · exact ha
  · exact hb

/-- A property of what a match has found. -/
theorem of_eq {β : Type} (P : β → Prop) {a b : β} (e : a = b) (ha : P a) : P b := e ▸ ha

theorem tidy_snd {α : Type} {p : α × Dev} {a : α} {d : Dev} (e : p = (a, d)) (hp : p.2.tidy) : d.tidy := by
  subst e
  exact hp

theorem tidy_snd2 {α β : Type} {p : α × β × Dev} {a : α} {b : β} {d : Dev} (e : p = (a, b, d)) (hp : p.2.2.tidy) : d.tidy := by
  subst e
  exact hp

theorem tidy_snd3 {α β γ : Type} {p : α × β × γ × Dev} {a : α} {b : β} {c : γ} {d : Dev} (e : p = (a, b, c, d)) (hp : p.2.2.2.tidy) :
    d.tidy := by
  subst e
  exact hp

theorem snd_ite {α : Type} {c : Prop} [Decidable c] {p q : α × Dev} (hp : p.2.tidy) (hq : q.2.tidy) : (if c then p else q).2.tidy :=
  ite_of (fun x : α × Dev => x.2.tidy) hp hq

theorem snd2_ite {α β : Type} {c : Prop} [Decidable c] {p q : α × β × Dev} (hp : p.2.2.tidy) (hq : q.2.2.tidy) :
    (if c then p else q).2.2.tidy :=
  ite_of (fun x : α × β × Dev => x.2.2.tidy) hp hq

theorem snd3_ite {α β γ : Type} {c : Prop} [Decidable c] {p q : α × β × γ × Dev} (hp : p.2.2.2.tidy) (hq : q.2.2.2.tidy) :
    (if c then p else q).2.2.2.tidy :=
  ite_of (fun x : α × β × γ × Dev => x.2.2.2.tidy) hp hq

theorem snd_foldl {α ι : Type} {f : α × Dev → ι → α × Dev} {l : List ι} {p : α × Dev} (hf : ∀ p i, p.2.tidy → (f p i).2.tidy)
    (hp : p.2.tidy) : (l.foldl f p).2.tidy :=
  foldl_of (fun x : α × Dev => x.2.tidy) hf hp

theorem snd2_foldl {α β ι : Type} {f : α × β × Dev → ι → α × β × Dev} {l : List ι} {p : α × β × Dev}
    (hf : ∀ p i, p.2.2.tidy → (f p i).2.2.tidy) (hp : p.2.2.tidy) : (l.foldl f p).2.2.tidy :=
  foldl_of (fun x : α × β × Dev => x.2.2.tidy) hf hp

theorem snd3_foldl {α β γ ι : Type} {f : α × β × γ × Dev → ι → α × β × γ × Dev} {l : List ι} {p : α × β × γ × Dev}
    (hf : ∀ p i, p.2.2.2.tidy → (f p i).2.2.2.tidy) (hp : p.2.2.2.tidy) : (l.foldl f p).2.2.2.tidy :=
  foldl_of (fun x : α × β × γ × Dev => x.2.2.2.tidy) hf hp

end Sys2Proof.Proofs
end

section
/-! What each function of the model keeps: one lemma for each that answers a block, in the order of the model's own text, read off the
function's branches. -/

open Sys2Proof Sys2Proof.Machine

/-- A register port that keeps the canonical form. -/
def Sys2Proof.Machine.RegPort.tidy (port : RegPort) : Prop := ∀ a p off size v d, d.tidy → (port a p off size v d).tidy

namespace Sys2Proof.Proofs

/-! ## The named operations of the model -/

theorem waitUntil_tidy {t : Nat} {d : Dev} (hd : d.tidy) : (waitUntil t d).tidy := tidy_with hd

theorem emit_tidy {e : OutEv} {d : Dev} (hd : d.tidy) : (emit e d).tidy := tidy_with hd

theorem setHdr_tidy {d : Dev} {p : Nat} {h : Hdr} (hd : d.tidy) : (setHdr d p h).tidy :=
  ⟨hd.1, hd.2.1, setHdr_wf d p h hd.2.2⟩

theorem modHdr_tidy {d : Dev} {p : Nat} {f : Hdr → Hdr} (hd : d.tidy) : (modHdr d p f).tidy := setHdr_tidy hd

theorem regPut_tidy {d : Dev} {p off v : Nat} (hd : d.tidy) : (regPut d p off v).tidy :=
  ⟨hd.1, regPut_wf d p off v hd.2.1, hd.2.2⟩

theorem setFld_tidy {d : Dev} {p : Nat} {f : Fld} {v : Nat} (hd : d.tidy) : (setFld d p f v).tidy := regPut_tidy hd

theorem satFld_tidy {d : Dev} {p : Nat} {f : Fld} {n : Nat} (hd : d.tidy) : (satFld d p f n).tidy := setFld_tidy hd

theorem wrapFld_tidy {d : Dev} {p : Nat} {f : Fld} {n : Nat} (hd : d.tidy) : (wrapFld d p f n).tidy := setFld_tidy hd

theorem modLink_tidy {d : Dev} {l : Nat} {f : LinkSt → LinkSt} (hd : d.tidy) : (modLink d l f).tidy :=
  tidy_ite (tidy_with hd) (tidy_with hd)

theorem modFn_tidy {d : Dev} {l n : Nat} {f : FnSt → FnSt} (hd : d.tidy) : (modFn d l n f).tidy := tidy_with hd

theorem modMsix_tidy {d : Dev} {l n v : Nat} {f : Msix → Msix} (hd : d.tidy) : (modMsix d l n v f).tidy := modFn_tidy hd

theorem emitAll_tidy {es : List OutEv} {d : Dev} (hd : d.tidy) : (emitAll es d).tidy := tidy_with hd

theorem msixSend_tidy {l n v : Nat} {d : Dev} (hd : d.tidy) : (msixSend l n v d).tidy :=
  tidy_ite hd (tidy_ite (modMsix_tidy hd) (emit_tidy hd))

theorem signalPfs_tidy {v : Nat} {d : Dev} (hd : d.tidy) : (signalPfs v d).tidy := msixSend_tidy (msixSend_tidy hd)

theorem signalMgr_tidy {v : Nat} {d : Dev} (hd : d.tidy) : (signalMgr v d).tidy := msixSend_tidy hd

theorem signalInst_tidy {i v : Nat} {d : Dev} (hd : d.tidy) : (signalInst i v d).tidy := by
  unfold signalInst
  split
  · exact tidy_ite (msixSend_tidy hd) hd
  · exact hd

theorem smbAlert_tidy {d : Dev} (hd : d.tidy) : (smbAlert d).tidy := tidy_ite hd (emit_tidy (tidy_with hd))

theorem pageMsix_tidy {p : Nat} {d : Dev} (hd : d.tidy) : (pageMsix p d).tidy := by
  unfold pageMsix
  split
  · exact signalPfs_tidy hd
  · exact signalPfs_tidy hd
  · exact signalMgr_tidy hd
  · exact signalInst_tidy hd
  · exact hd

theorem raiseEv_tidy {p n : Nat} {d : Dev} (hd : d.tidy) : (raiseEv p n d).tidy := by
  unfold raiseEv
  split
  · exact hd
  · exact tidy_ite (pageMsix_tidy (modHdr_tidy hd)) hd

theorem pageErr_tidy {p code : Nat} {a : Access} {off addr : Nat} {d : Dev} (hd : d.tidy) : (pageErr p code a off addr d).tidy :=
  tidy_ite (setHdr_tidy hd) (raiseEv_tidy (setHdr_tidy hd))

theorem regErr_tidy {p code : Nat} {a : Access} {off : Nat} {d : Dev} (hd : d.tidy) : (regErr p code a off d).tidy := pageErr_tidy hd

theorem countViol_tidy {p : Nat} {d : Dev} (hd : d.tidy) : (countViol p d).tidy := modHdr_tidy hd

theorem denyWorld_tidy {p : Nat} {a : Access} {off : Nat} {d : Dev} (hd : d.tidy) : (denyWorld p a off d).tidy :=
  countViol_tidy (regErr_tidy hd)

theorem modQuarter_tidy {d : Dev} {q : Nat} {f : Quarter → Quarter} (hd : d.tidy) : (modQuarter d q f).tidy := tidy_with hd

theorem modHart_tidy {d : Dev} {h : Nat} {f : Hart → Hart} (hd : d.tidy) : (modHart d h f).tidy := tidy_with hd

theorem trapIn_tidy {h : Nat} {d : Dev} (hd : d.tidy) : (trapIn h d).tidy := modHart_tidy hd

theorem trapOut_tidy {h : Nat} {d : Dev} (hd : d.tidy) : (trapOut h d).tidy := modHart_tidy hd

theorem jobBoundary_tidy {p : Nat} {d : Dev} (hd : d.tidy) : (jobBoundary p d).tidy := by
  unfold jobBoundary
  extract_lets due moved
  have hmoved : moved.tidy := tidy_foldl (fun _ _ => setWord_tidy) hd
  exact tidy_with hmoved

theorem dropShadows_tidy {p : Nat} {d : Dev} (hd : d.tidy) : (dropShadows p d).tidy := tidy_with hd

theorem putByte_tidy {d : Dev} {a : Nat} {b : Byte} (hd : d.tidy) : (putByte d a b).tidy :=
  ⟨putByte_wf d a b hd.1, hd.2⟩

theorem putBytes_tidy {d : Dev} {a : Nat} {x : Bytes} (hd : d.tidy) : (putBytes d a x).tidy := by
  rw [putBytes_eq]
  exact ⟨putBytes_wf x d a hd.1, hd.2⟩

theorem wipeMem_tidy {d : Dev} {lo hi : Nat} (hd : d.tidy) : (wipeMem d lo hi).tidy :=
  ⟨wipeMem_wf d lo hi hd.1, hd.2⟩

theorem drawFresh_tidy {d : Dev} (hd : d.tidy) : (drawFresh d).2.tidy := tidy_with hd

theorem modCmdSt_tidy {f : CmdSt → CmdSt} {d : Dev} (hd : d.tidy) : (modCmdSt f d).tidy := tidy_with hd

theorem putCmd_tidy {c : Cmd} {d : Dev} (hd : d.tidy) : (putCmd c d).tidy := modCmdSt_tidy hd

/-! ## The event recorder's shared operations -/

theorem redeemChallenge_tidy {id : Nat} {d : Dev} (hd : d.tidy) : (redeemChallenge id d).tidy := tidy_with hd

theorem suppress_tidy {code : Nat} {d : Dev} (hd : d.tidy) : (suppress code d).tidy := tidy_with hd

theorem clearChannels_tidy {mask below : Nat} {d : Dev} (hd : d.tidy) : (clearChannels mask below d).tidy := by
  unfold clearChannels
  extract_lets _ d1
  have hd1 : d1.tidy := tidy_foldl (fun _ _ => wipeMem_tidy) hd
  exact tidy_with (tidy_with hd1)

theorem releaseRec_tidy {r : EvHand} {d : Dev} (hd : d.tidy) : (releaseRec r d).tidy := by
  unfold releaseRec
  extract_lets
  split
  extract_lets _ _ _ _ d1 _ _ _ _ d2 d3
  have hd1 : d1.tidy := by
    unfold d1
    split
    · exact redeemChallenge_tidy (clearChannels_tidy (tidy_with hd))
    · exact tidy_with hd
  have hd2 : d2.tidy := raiseEv_tidy (tidy_with (tidy_with hd1))
  have hd3 : d3.tidy := tidy_ite (signalPfs_tidy hd2) hd2
  exact tidy_ite (satFld_tidy (suppress_tidy (tidy_with hd))) (tidy_ite (raiseEv_tidy (setFld_tidy (setFld_tidy hd3))) hd3)

theorem releaseHeld_tidy {n : Nat} {d : Dev} (hd : d.tidy) : (releaseHeld n d).tidy := by
  induction n generalizing d with
  | zero => exact hd
  | succ n ih =>
    unfold releaseHeld
    split
    · exact hd
    · exact tidy_ite (ih (releaseRec_tidy (tidy_with hd))) (tidy_ite (ih (tidy_with hd)) hd)

theorem handRec_tidy {r : EvHand} {d : Dev} (hd : d.tidy) : (handRec r d).tidy := tidy_ite (releaseHeld_tidy (tidy_with hd)) hd

theorem record_tidy {code : Nat} {payload : Bytes} {d : Dev} (hd : d.tidy) : (record code payload d).tidy := handRec_tidy hd

theorem recordRom_tidy {code : Nat} {payload : Bytes} {d : Dev} (hd : d.tidy) : (recordRom code payload d).tidy := handRec_tidy hd

theorem dropRef_tidy {r : LogRef} {d : Dev} (hd : d.tidy) : (dropRef r d).tidy := by
  unfold dropRef
  extract_lets
  exact tidy_with (putByte_tidy hd)

theorem writeRecAt_tidy {r : EvRec} {addr : Nat} {kept : Bool} {d : Dev} (hd : d.tidy) : (writeRecAt r addr kept d).tidy := by
  unfold writeRecAt
  extract_lets _ d1
  have hd1 : d1.tidy := tidy_foldl (fun _ _ => dropRef_tidy) hd
  exact tidy_with (putBytes_tidy (putBytes_tidy hd1))

theorem writeBuffered_tidy {d : Dev} (hd : d.tidy) : (writeBuffered d).tidy := by
  unfold writeBuffered
  split
  · exact hd
  · extract_lets _ _ _ _ _ d1 _ _ _ d2 _ d3
    have hd1 : d1.tidy := writeRecAt_tidy (tidy_with hd)
    have hd2 : d2.tidy := writeRecAt_tidy (tidy_with hd)
    have hd3 : d3.tidy := by
      unfold d3
      split
      · split
        · exact writeRecAt_tidy (tidy_foldl (fun _ _ h => wipeMem_tidy (dropRef_tidy h)) (tidy_with hd))
        · exact raiseEv_tidy (suppress_tidy (satFld_tidy (tidy_with hd)))
      · exact tidy_ite (tidy_with hd1) (tidy_with hd2)
    exact releaseHeld_tidy hd3

theorem flushEvents_tidy {d : Dev} (hd : d.tidy) : (flushEvents d).tidy := tidy_foldl (fun _ _ => writeBuffered_tidy) hd

theorem evNext_tidy {port : Nat} {d : Dev} (hd : d.tidy) : (evNext port d).2.tidy := by
  unfold evNext
  extract_lets _ best
  clear_value best
  split
  · exact hd
  · exact tidy_with hd

theorem evPrev_tidy {port : Nat} {d : Dev} (hd : d.tidy) : (evPrev port d).2.tidy := by
  unfold evPrev
  extract_lets _ best
  clear_value best
  split
  · exact hd
  · exact tidy_with hd

theorem enterMode_tidy {m : Mode} {d : Dev} (hd : d.tidy) : (enterMode m d).tidy := by
  unfold enterMode
  split
  · exact hd
  · extract_lets _ _ _ _ d1 d2
    have hd1 : d1.tidy := raiseEv_tidy (wrapFld_tidy (tidy_with hd))
    have hd2 : d2.tidy := tidy_ite hd1 (record_tidy (signalPfs_tidy hd1))
    exact tidy_ite (wrapFld_tidy (tidy_with hd)) (smbAlert_tidy hd2)

/-! ## The hold-up bank's energy, the life-cycle fuses, the tamper floors and the debug enables -/

theorem setLimit_tidy {d : Dev} (hd : d.tidy) : (setLimit d).tidy := tidy_with hd

theorem lcProgram_tidy {code : Nat} {d : Dev} (hd : d.tidy) : (lcProgram code d).tidy := tidy_with hd

theorem lcBurn_tidy {op : LcOp} {d : Dev} (hd : d.tidy) : (lcBurn op d).tidy := by
  unfold lcBurn
  split
  · exact lcProgram_tidy hd
  · exact tidy_with hd

theorem lcCut_tidy {d : Dev} (hd : d.tidy) : (lcCut d).tidy := by
  unfold lcCut
  split
  · extract_lets
    exact tidy_with (lcBurn_tidy hd)
  · exact hd

theorem armLoops_tidy {a b : Bool} {d : Dev} (hd : d.tidy) : (armLoops a b d).tidy := by
  unfold armLoops
  refine tidy_with (tidy_with (tidy_with hd))

/-! ## Noise sources, health tests, failover, conditioning and the DRBGs -/

theorem modWell_tidy {q : Nat} {f : Well → Well} {d : Dev} (hd : d.tidy) : (modWell q f d).tidy := tidy_with hd

theorem modDrbg_tidy {n : Nat} {f : Drbg → Drbg} {d : Dev} (hd : d.tidy) : (modDrbg n f d).tidy := tidy_with hd

theorem modNoise_tidy {q : Nat} {alt : Bool} {f : Noise → Noise} {d : Dev} (hd : d.tidy) : (modNoise q alt f d).tidy := modWell_tidy hd

theorem markNeed_tidy {n : Nat} {d : Dev} (hd : d.tidy) : (markNeed n d).tidy := tidy_ite (modWell_tidy (modDrbg_tidy hd))
    (modDrbg_tidy hd)

theorem syncPorts_tidy {d : Dev} (hd : d.tidy) : (syncPorts d).tidy :=
  tidy_foldl (fun _ _ h => tidy_ite h (markNeed_tidy (modDrbg_tidy h))) hd

theorem markFed_tidy {q : Nat} {d : Dev} (hd : d.tidy) : (markFed q d).tidy := tidy_foldl (fun _ _ => markNeed_tidy) hd

theorem takeSeed_tidy {q : Nat} {d : Dev} {x : Bytes × Dev} (hd : d.tidy) (e : takeSeed q d = some x) : x.2.tidy := by
  unfold takeSeed at e
  extract_lets at e
  split at e
  · cases e
  · cases e
    exact modWell_tidy hd

theorem settleWell_tidy {q : Nat} {d : Dev} (hd : d.tidy) : (settleWell q d).tidy := modWell_tidy hd

theorem reseedFrom_tidy {n : Nat} {d : Dev} (hd : d.tidy) : (reseedFrom n d).tidy := by
  unfold reseedFrom
  split
  · exact hd
  · split
    · exact hd
    · rename_i d1 e
      have hd1 : d1.tidy := takeSeed_tidy hd e
      exact tidy_ite (settleWell_tidy (tidy_ite (wrapFld_tidy (modDrbg_tidy hd1)) (modDrbg_tidy hd1))) (raiseEv_tidy (modDrbg_tidy hd1))

theorem drbgRequest_tidy {n : Nat} {d : Dev} (hd : d.tidy) : (drbgRequest n d).tidy :=
  tidy_ite (tidy_ite (modDrbg_tidy hd) (syncPorts_tidy (jobBoundary_tidy (modDrbg_tidy hd)))) hd

theorem sweepReads_tidy {q : Nat} {d : Dev} (hd : d.tidy) : (sweepReads q d).tidy := modWell_tidy hd

theorem readEnded_tidy {q : Nat} {x : Stall} {got : Option Bytes} {d : Dev} (hd : d.tidy) : (readEnded q x got d).tidy :=
  tidy_ite hd (modWell_tidy hd)

theorem endStalls_tidy {q : Nat} {d : Dev} (hd : d.tidy) : (endStalls q d).tidy :=
  tidy_foldl (fun _ _ => readEnded_tidy) (modWell_tidy (satFld_tidy (sweepReads_tidy hd)))

theorem fillRead_tidy {q n k : Nat} {acc : Bytes} {d : Dev} (hd : d.tidy) : (fillRead q n k acc d).2.tidy := by
  induction k generalizing acc d with
  | zero => exact hd
  | succ k ih =>
    unfold fillRead
    split
    · exact hd
    · extract_lets m b seeded
      have hseeded : seeded.tidy := tidy_ite (reseedFrom_tidy hd) hd
      split
      · exact ih (modDrbg_tidy hd)
      · split
        · exact ih (drbgRequest_tidy hseeded)
        · exact hseeded

theorem freshSeed_tidy {q : Nat} {d : Dev} (hd : d.tidy) : (freshSeed q d).tidy := reseedFrom_tidy (modDrbg_tidy hd)

theorem stallServed_tidy {q : Nat} {x : Stall} {d : Dev} (hd : d.tidy) : (stallServed q x d).tidy :=
  tidy_ite (modWell_tidy hd) (setFld_tidy (modWell_tidy hd))

theorem stallKept_tidy {q : Nat} {x y : Stall} {d : Dev} (hd : d.tidy) : (stallKept q x y d).tidy := modWell_tidy hd

theorem serveGo_tidy {q k : Nat} {d : Dev} (hd : d.tidy) : (serveGo q k d).tidy := by
  induction k generalizing d with
  | zero => exact hd
  | succ k ih =>
    unfold serveGo
    split
    · exact hd
    · rename_i x _
      refine tidy_ite hd ?_
      extract_lets seeded
      have hseeded : seeded.tidy := tidy_ite (freshSeed_tidy hd) hd
      split
      rename_i b d1 e
      have hd1 : d1.tidy := tidy_snd e (fillRead_tidy hseeded)
      exact tidy_ite (ih (readEnded_tidy (stallServed_tidy hd1))) (stallKept_tidy hd1)

theorem serveStalls_tidy {q : Nat} {d : Dev} (hd : d.tidy) : (serveStalls q d).tidy := serveGo_tidy (sweepReads_tidy hd)

theorem takeGrant_tidy {q n : Nat} {who : Reader} {d : Dev} {x : Option Bytes × Dev} (hd : d.tidy) (e : takeGrant q who n d = some x) :
    x.2.tidy := by
  unfold takeGrant at e
  obtain ⟨g, -, rfl⟩ := Option.map_eq_some_iff.mp e
  exact modWell_tidy hd

theorem grantDraw_tidy {q n : Nat} {who : Reader} {d : Dev} {x : Draw} (hd : d.tidy) (e : grantDraw q who n d = some x) : x.tidy := by
  unfold grantDraw at e
  obtain ⟨r, hr, rfl⟩ := Option.map_eq_some_iff.mp e
  have hd1 : r.2.tidy := takeGrant_tidy hd hr
  split <;> exact hd1

theorem askRead_tidy {q : Nat} {x : Stall} {d : Dev} (hd : d.tidy) : (askRead q x d).tidy := tidy_ite hd (modWell_tidy hd)

theorem drawFor_tidy {who : Reader} {soft fresh : Bool} {q n : Nat} {d : Dev} (hd : d.tidy) : (drawFor who soft fresh q n d).tidy := by
  unfold drawFor
  split
  · exact hd
  · split
    · rename_i e
      exact grantDraw_tidy hd e
    · split
      · exact tidy_ite hd (satFld_tidy hd)
      · extract_lets asked
        have hasked : asked.tidy := serveStalls_tidy (askRead_tidy hd)
        cases e : grantDraw q who n asked with
        | none => exact hasked
        | some x => exact grantDraw_tidy hasked e

theorem readsAgain_tidy {q : Nat} {who : Reader} {d : Dev} (hd : d.tidy) : (readsAgain q who d).tidy := modWell_tidy hd

theorem readsOver_tidy {q : Nat} {who : Reader} {d : Dev} (hd : d.tidy) : (readsOver q who d).tidy := tidy_ite hd (modWell_tidy hd)

theorem draw_tidy {q n : Nat} {d : Dev} (hd : d.tidy) : (draw q n d).tidy := by
  unfold draw
  split
  · rename_i e
    exact readsOver_tidy (of_eq Draw.tidy e (drawFor_tidy hd))
  · rename_i e1
    exact readsOver_tidy (of_eq Draw.tidy e1 (drawFor_tidy hd))
  · rename_i e2
    exact of_eq Draw.tidy e2 (drawFor_tidy hd)

theorem countOne_tidy {q : Nat} {alt : Bool} {test : Nat} {d : Dev} (hd : d.tidy) : (countOne q alt test d).tidy := by
  unfold countOne
  extract_lets
  exact tidy_with (satFld_tidy hd)

theorem countFail_tidy {q : Nat} {alt : Bool} {tests : List Nat} {d : Dev} (hd : d.tidy) : (countFail q alt tests d).tidy :=
  tidy_foldl (fun _ _ => countOne_tidy) hd

theorem countTotal_tidy {q : Nat} {alt : Bool} {d : Dev} (hd : d.tidy) : (countTotal q alt d).tidy := modNoise_tidy hd

theorem enterEntFail_tidy {q : Nat} {d : Dev} (hd : d.tidy) : (enterEntFail q d).tidy := endStalls_tidy (raiseEv_tidy (modWell_tidy hd))

theorem switchTo_tidy {q : Nat} {alt : Bool} {d : Dev} (hd : d.tidy) : (switchTo q alt d).tidy := by
  unfold switchTo
  split
  · exact enterEntFail_tidy hd
  · exact modWell_tidy hd
  · exact modNoise_tidy (modWell_tidy hd)

theorem failover_tidy {q : Nat} {alt : Bool} {test : Nat} {d : Dev} (hd : d.tidy) : (failover q alt test d).tidy :=
  switchTo_tidy (record_tidy (raiseEv_tidy (markFed_tidy (syncPorts_tidy (modWell_tidy hd)))))

theorem wellBegin_tidy {q : Nat} {katOk : Bool} {d : Dev} (hd : d.tidy) : (wellBegin q katOk d).tidy :=
  tidy_ite (tidy_ite (enterEntFail_tidy (modWell_tidy hd)) (modWell_tidy hd)) (record_tidy (enterEntFail_tidy (modWell_tidy hd)))

theorem wellRestart_tidy {q : Nat} {fresh : Bool} {d : Dev} (hd : d.tidy) : (wellRestart q fresh d).tidy :=
  wellBegin_tidy (modWell_tidy (tidy_foldl (fun _ _ h => markNeed_tidy (tidy_ite (modDrbg_tidy h) h)) (syncPorts_tidy hd)))

theorem wellStop_tidy {q : Nat} {d : Dev} (hd : d.tidy) : (wellStop q d).tidy := endStalls_tidy (modWell_tidy hd)

theorem drbgLose_tidy {n : Nat} {d : Dev} (hd : d.tidy) : (drbgLose n d).tidy := modDrbg_tidy hd

theorem freeNoise_tidy {n : Nat} {d : Dev} (hd : d.tidy) : (freeNoise n d).2.tidy := tidy_with hd

theorem someSamples_tidy {n : Nat} {samples : Bytes} {d : Dev} (hd : d.tidy) : (someSamples n samples d).2.tidy := by
  unfold someSamples
  split
  rename_i e
  exact tidy_snd e (freeNoise_tidy hd)

theorem poolAdd_tidy {q : Nat} {block : Bytes} {d : Dev} (hd : d.tidy) : (poolAdd q block d).tidy := modWell_tidy hd

theorem swDataRead_tidy {sec : Bool} {d : Dev} (hd : d.tidy) : (swDataRead sec d).2.tidy := by
  unfold swDataRead
  extract_lets
  exact snd_ite (tidy_with (modDrbg_tidy (syncPorts_tidy hd))) (raiseEv_tidy (tidy_with (syncPorts_tidy hd)))

theorem testPassed_tidy {q : Nat} {alt : Bool} {d : Dev} (hd : d.tidy) : (testPassed q alt d).tidy := by
  unfold testPassed
  extract_lets
  split
  · exact tidy_ite (raiseEv_tidy (modWell_tidy (modNoise_tidy hd))) (modWell_tidy (modNoise_tidy hd))
  · exact tidy_ite (modWell_tidy (modNoise_tidy hd)) (modNoise_tidy hd)

theorem sourceFail_tidy {q : Nat} {alt : Bool} {test : List Nat} {d : Dev} (hd : d.tidy) : (sourceFail q alt test d).tidy := by
  unfold sourceFail
  extract_lets _ _ d1
  have hd1 : d1.tidy := countTotal_tidy (modNoise_tidy (countFail_tidy hd))
  exact tidy_ite (countFail_tidy hd) (tidy_ite (failover_tidy hd1) (modWell_tidy hd1))

theorem testFailed_tidy {q : Nat} {alt : Bool} {test : List Nat} {d : Dev} (hd : d.tidy) : (testFailed q alt test d).tidy := by
  unfold testFailed
  extract_lets _ _ _ d1
  have hd1 : d1.tidy := countTotal_tidy (modNoise_tidy (countFail_tidy hd))
  exact tidy_ite (record_tidy hd1) (tidy_ite (modNoise_tidy (countFail_tidy hd))
    (tidy_ite (failover_tidy (modNoise_tidy (countFail_tidy hd))) (enterEntFail_tidy (record_tidy (modNoise_tidy (countFail_tidy hd))))))

theorem testEnd_tidy {q : Nat} {alt : Bool} {samples : Bytes} {d : Dev} (hd : d.tidy) : (testEnd q alt samples d).tidy :=
  tidy_ite (testPassed_tidy (modNoise_tidy hd)) (testFailed_tidy (modNoise_tidy hd))

theorem sourceRun_tidy {q : Nat} {alt : Bool} {samples : Bytes} {d : Dev} (hd : d.tidy) : (sourceRun q alt samples d).2.tidy :=
  snd_ite hd (snd_ite (modNoise_tidy hd) (sourceFail_tidy (modNoise_tidy hd)))

theorem bootWellStep_tidy {q : Nat} {x : Bytes × Bytes × Dev} (hx : x.2.2.tidy) : (bootWellStep q x).2.2.tidy := by
  unfold bootWellStep
  split
  extract_lets
  split
  · exact testEnd_tidy hx
  · split
    · exact testEnd_tidy hx
    · split
      · exact hx
      · split
        · exact hx
        · extract_lets
          split
          · rename_i e
            exact tidy_snd e (sourceRun_tidy hx)
          · rename_i d1 e1
            have hd1 : d1.tidy := tidy_snd e1 (sourceRun_tidy hx)
            split
            rename_i e2
            exact poolAdd_tidy (tidy_snd e2 (freeNoise_tidy hd1))

theorem bootWellRun_tidy {q k : Nat} {x : Bytes × Bytes × Dev} (hx : x.2.2.tidy) : (bootWellRun q k x).2.2.tidy := by
  induction k generalizing x with
  | zero => exact hx
  | succ k ih => exact ih (bootWellStep_tidy hx)

theorem wellBoot_tidy {q : Nat} {p : WellParts} {d : Dev} (hd : d.tidy) : (wellBoot q p d).tidy := by
  unfold wellBoot
  generalize 20 = rounds
  extract_lets begun x synced seeded
  have hbegun : begun.tidy := tidy_ite (wellBegin_tidy hd) hd
  have hx : x.2.2.tidy := bootWellRun_tidy hbegun
  have hseeded : seeded.tidy := tidy_foldl (fun _ _ h => tidy_ite (reseedFrom_tidy h) h) (syncPorts_tidy hx)
  exact bootWellRun_tidy hseeded

/-! ## Protected memory -/

theorem modMpe_tidy {f : MpeSt → MpeSt} {d : Dev} (hd : d.tidy) : (modMpe f d).tidy := tidy_with hd

theorem ccPut_tidy {addr : Nat} {l : Option CcLine} {d : Dev} (hd : d.tidy) : (ccPut addr l d).tidy := modMpe_tidy hd

theorem dramPut_tidy {addr : Nat} {l : Stored} {d : Dev} (hd : d.tidy) : (dramPut addr l d).tidy := modMpe_tidy hd

theorem mpeFail_tidy {f : MpeFail} {d : Dev} (hd : d.tidy) : (mpeFail f d).tidy := modMpe_tidy hd

theorem countCorrection_tidy {addr : Nat} {d : Dev} (hd : d.tidy) : (countCorrection addr d).tidy :=
  tidy_ite (raiseEv_tidy (modMpe_tidy (modMpe_tidy (satFld_tidy hd)))) (modMpe_tidy (satFld_tidy hd))

theorem ccWrite_tidy {addr : Nat} {line : CtrLine} {d : Dev} (hd : d.tidy) : (ccWrite addr line d).tidy := by
  unfold ccWrite
  split
  · exact ccPut_tidy hd
  · exact hd

theorem codeStep_tidy {ep lvl addr : Nat} {d : Dev} (hd : d.tidy) : (codeStep ep lvl addr d).tidy := by
  unfold codeStep
  split
  · exact hd
  · split
    · exact countCorrection_tidy (modMpe_tidy hd)
    · exact mpeFail_tidy hd
    · exact hd

theorem macStep_tidy {ep lvl addr : Nat} {c : Nat × Nat} {d : Dev} (hd : d.tidy) : (macStep ep lvl addr c d).tidy :=
  tidy_ite hd (mpeFail_tidy hd)

theorem treeFetch_tidy {ep lvl n : Nat} {c : Nat × Nat} {d : Dev} (hd : d.tidy) : (treeFetch ep lvl n c d).2.tidy :=
  snd_ite hd (macStep_tidy (codeStep_tidy hd))

theorem ccSee_tidy {addr : Nat} {d : Dev} (hd : d.tidy) : (ccSee addr d).2.tidy := by
  unfold ccSee
  split
  · exact hd
  · split
    · exact hd
    · exact satFld_tidy (modMpe_tidy hd)
    · exact snd_ite (mpeFail_tidy hd) (raiseEv_tidy (satFld_tidy (ccPut_tidy hd)))

theorem treeStore_tidy {lvl n : Nat} {text : Bytes} {d : Dev} (hd : d.tidy) : (treeStore lvl n text d).tidy := dramPut_tidy hd

theorem reencTree_tidy {lvl m : Nat} {d : Dev} (hd : d.tidy) : (reencTree lvl m d).tidy := by
  unfold reencTree
  split
  · exact hd
  · split
    rename_i e
    split
    · refine tidy_snd e (snd_foldl (fun _ _ h => ?_) hd)
      split
      rename_i e1
      exact tidy_snd e1 (treeFetch_tidy h)
    · extract_lets _ d1 d2
      have hd1 : d1.tidy := by
        unfold d1
        refine ccWrite_tidy (tidy_snd e (snd_foldl (fun _ _ h2 => ?_) hd))
        split
        rename_i e2
        exact tidy_snd e2 (treeFetch_tidy h2)
      have hd2 : d2.tidy := tidy_foldl (fun _ _ => treeStore_tidy) hd1
      exact wrapFld_tidy hd2

theorem raiseCtr_tidy {lvl n : Nat} {d : Dev} (hd : d.tidy) : (raiseCtr lvl n d).tidy := by
  unfold raiseCtr
  split
  · exact modMpe_tidy hd
  · extract_lets
    split
    · exact hd
    · exact tidy_ite (reencTree_tidy hd) (ccWrite_tidy hd)

theorem ccHit_tidy {a : Nat} {c : CcLine} {d : Dev} (hd : d.tidy) : (ccHit a c d).tidy := ccPut_tidy (wrapFld_tidy (modMpe_tidy hd))

theorem ccInsert_tidy {a : Nat} {line : CtrLine} {d : Dev} (hd : d.tidy) : (ccInsert a line d).tidy :=
  tidy_ite hd (ccPut_tidy (modMpe_tidy hd))

theorem ccRun_tidy {ep : Nat} {keep : List Nat} {f : Nat} {t : CcTask} {d : Dev} (hd : d.tidy) : (ccRun ep keep f t d).tidy := by
  induction f generalizing t d with
  | zero => exact hd
  | succ f ih =>
    cases t with
    | evict addr =>
      unfold ccRun
      extract_lets kids
      have hkids : kids.tidy := tidy_foldl (fun _ _ h => ih h) hd
      split
      · rename_i e
        exact tidy_snd e (ccSee_tidy hkids)
      · rename_i c d1 e
        have hd1 : d1.tidy := tidy_snd e (ccSee_tidy hkids)
        refine tidy_ite (ccPut_tidy hd1) ?_
        split
        extract_lets d2 d3
        have hd2 : d2.tidy := tidy_ite (ih hd1) hd1
        have hd3 : d3.tidy := tidy_ite (ih hd2) hd2
        exact tidy_ite hd3 (ccPut_tidy (treeStore_tidy (raiseCtr_tidy hd3)))
    | bring lvl n =>
      unfold ccRun
      extract_lets a
      split
      · rename_i e
        exact ccHit_tidy (tidy_snd e (ccSee_tidy hd))
      · rename_i d1 e
        have hd1 : d1.tidy := tidy_snd e (ccSee_tidy hd)
        extract_lets d2 d3 c d4 d5
        have hd2 : d2.tidy := codeStep_tidy (wrapFld_tidy hd1)
        have hd3 : d3.tidy := tidy_ite (ih hd2) hd2
        have hd4 : d4.tidy := tidy_ite hd3 (macStep_tidy hd3)
        have hd5 : d5.tidy := by
          unfold d5
          split
          · exact ih hd4
          · exact hd4
        exact tidy_ite hd4 (ccInsert_tidy hd5)

theorem ccEvict_tidy {addr : Nat} {d : Dev} (hd : d.tidy) : (ccEvict addr d).tidy := ccRun_tidy hd

theorem ctrBring_tidy {ep n : Nat} {d : Dev} (hd : d.tidy) : (ctrBring ep n d).tidy := ccRun_tidy hd

theorem ctrHold_tidy {ep n : Nat} {d : Dev} (hd : d.tidy) : (ctrHold ep n d).tidy := ccRun_tidy (tidy_ite hd (ccRun_tidy hd))

theorem dataCtr_tidy {ep a : Nat} {d : Dev} (hd : d.tidy) : (dataCtr ep a d).2.tidy := ctrBring_tidy hd

theorem lineFetch_tidy {ep a : Nat} {d : Dev} (hd : d.tidy) : (lineFetch ep a d).2.2.tidy := by
  unfold lineFetch
  split
  rename_i d1 e
  have hd1 : d1.tidy := tidy_snd e (dataCtr_tidy (codeStep_tidy hd))
  exact snd2_ite hd1 (macStep_tidy hd1)

theorem lineStore_tidy {maj min a : Nat} {plain : Bytes} {d : Dev} (hd : d.tidy) : (lineStore maj min a plain d).tidy := dramPut_tidy hd

theorem reencGroup_tidy {n k : Nat} {plain : Bytes} {d : Dev} (hd : d.tidy) : (reencGroup n k plain d).tidy := by
  unfold reencGroup
  extract_lets base
  split
  rename_i lines d1 e
  have hd1 : d1.tidy := tidy_snd e (snd_foldl (fun _ _ => lineFetch_tidy) hd)
  split
  · exact hd1
  · refine tidy_ite hd1 (wrapFld_tidy (tidy_foldl (fun _ _ => lineStore_tidy) (ccWrite_tidy hd1)))

theorem lineWrite_tidy {a : Nat} {plain : Bytes} {d : Dev} (hd : d.tidy) : (lineWrite a plain d).tidy := by
  unfold lineWrite
  extract_lets
  split
  · exact ctrHold_tidy hd
  · split
    · exact ctrHold_tidy hd
    · exact tidy_ite (reencGroup_tidy (ctrHold_tidy hd)) (lineStore_tidy (ccWrite_tidy (ctrHold_tidy hd)))

theorem hitLine_tidy {dmg : LineDamage} {a : Nat} {d : Dev} (hd : d.tidy) : (hitLine dmg a d).tidy := by
  unfold hitLine
  extract_lets _ c d1
  have hd1 : d1.tidy := tidy_ite hd (modMpe_tidy hd)
  clear_value c
  split
  · exact tidy_ite hd1 (modMpe_tidy hd1)
  · exact hd1

theorem epochUpdate_tidy {d : Dev} (hd : d.tidy) : (epochUpdate d).tidy := setFld_tidy (modMpe_tidy hd)

theorem wbufDrain_tidy {d : Dev} (hd : d.tidy) : (wbufDrain d).tidy := tidy_foldl (fun _ _ h => lineWrite_tidy (modMpe_tidy h)) hd

theorem epochClose_tidy {d : Dev} (hd : d.tidy) : (epochClose d).tidy :=
  tidy_ite (epochUpdate_tidy (jobBoundary_tidy (modMpe_tidy hd))) (raiseEv_tidy (satFld_tidy (modMpe_tidy hd)))

theorem readsVerify_tidy {d : Dev} (hd : d.tidy) : (readsVerify d).tidy := by
  unfold readsVerify
  split
  · exact mpeFail_tidy hd
  · exact epochUpdate_tidy (modMpe_tidy hd)

theorem mpeSettle_tidy {d : Dev} (hd : d.tidy) : (mpeSettle d).tidy :=
  tidy_ite (readsVerify_tidy hd) (wbufDrain_tidy (epochClose_tidy (readsVerify_tidy hd)))

theorem lineRead_tidy {a : Nat} {d : Dev} (hd : d.tidy) : (lineRead a d).2.tidy := by
  unfold lineRead
  split
  · exact tidy_ite (wbufDrain_tidy hd) (mpeSettle_tidy hd)
  · split
    rename_i e
    exact tidy_snd2 e (lineFetch_tidy hd)

theorem lineSpec_tidy {a : Nat} {d : Dev} (hd : d.tidy) : (lineSpec a d).2.2.tidy := by
  unfold lineSpec
  split
  · split
    rename_i e
    exact tidy_snd e (lineRead_tidy hd)
  · split
    · exact hd
    · extract_lets
      split
      rename_i d1 e1
      have hd1 : d1.tidy := tidy_snd2 e1 (lineFetch_tidy hd)
      split
      · exact snd2_ite hd1 (modMpe_tidy hd1)
      · exact snd2_ite (modMpe_tidy hd1) hd1

theorem mpeRead_tidy {a n : Nat} {d : Dev} (hd : d.tidy) : (mpeRead a n d).2.tidy := by
  unfold mpeRead
  split
  rename_i e
  refine tidy_snd e (snd_foldl (fun _ _ h => ?_) hd)
  split
  rename_i e1
  exact tidy_snd e1 (lineRead_tidy h)

theorem mpeSpec_tidy {a n : Nat} {d : Dev} (hd : d.tidy) : (mpeSpec a n d).2.2.tidy := by
  unfold mpeSpec
  split
  rename_i e
  refine tidy_snd2 e (snd2_foldl (fun _ _ h => ?_) hd)
  split
  rename_i e1
  exact tidy_snd2 e1 (lineSpec_tidy h)

theorem mpeWrite_tidy {tag : Option Nat} {a : Nat} {data : Bytes} {d : Dev} (hd : d.tidy) : (mpeWrite tag a data d).tidy := by
  refine tidy_foldl (fun d _ h => ?_) hd
  split
  · split
    rename_i e
    exact lineWrite_tidy (tidy_snd2 e (snd2_ite h (lineFetch_tidy h)))
  · exact modMpe_tidy h
  · split
    rename_i e
    refine modMpe_tidy (tidy_snd2 e ?_)
    split
    · exact h
    · exact snd2_ite h (lineFetch_tidy h)

theorem ccFlush_tidy {d : Dev} (hd : d.tidy) : (ccFlush d).tidy :=
  tidy_foldl (fun _ _ h => tidy_foldl (fun _ _ => ccEvict_tidy) h) hd

theorem mpeStart_tidy {d : Dev} (hd : d.tidy) : (mpeStart d).2.tidy := by
  unfold mpeStart
  split
  · exact hd
  · split
    · rename_i e
      exact modMpe_tidy (modHdr_tidy (of_eq Draw.tidy e (draw_tidy hd)))
    · rename_i e1
      exact of_eq Draw.tidy e1 (draw_tidy hd)
    · rename_i e2
      exact of_eq Draw.tidy e2 (draw_tidy hd)

theorem mpeClear_tidy {d : Dev} (hd : d.tidy) : (mpeClear d).tidy := modMpe_tidy hd

/-! ## The internal address map, the access table and its reports -/

theorem htRefuse_tidy {w : Who} {k : BusKind} {a : Nat} {rgn : Option Nat} {split posted : Bool} {d : Dev} (hd : d.tidy) :
    (htRefuse w k a rgn split posted d).tidy := by
  unfold htRefuse
  extract_lets _ d1 _ d2 _ _ d3
  have hd1 : d1.tidy := satFld_tidy (setFld_tidy (satFld_tidy hd))
  have hd2 : d2.tidy := setFld_tidy (setFld_tidy (setFld_tidy (setFld_tidy (setFld_tidy hd1))))
  have hd3 : d3.tidy := setFld_tidy (setFld_tidy (regPut_tidy (satFld_tidy hd)))
  exact tidy_ite (raiseEv_tidy hd2) (tidy_ite (satFld_tidy hd) (raiseEv_tidy hd3))

theorem fixedRefuse_tidy {w : Who} {k : BusKind} {a : Nat} {d : Dev} (hd : d.tidy) : (fixedRefuse w k a d).tidy := by
  unfold fixedRefuse
  extract_lets _ _ d1
  have hd1 : d1.tidy := raiseEv_tidy (satFld_tidy (satFld_tidy hd))
  exact tidy_ite (tidy_ite (record_tidy hd1) hd1) (satFld_tidy hd)

theorem countTreset_tidy {d : Dev} (hd : d.tidy) : (countTreset d).tidy := satFld_tidy hd

theorem readPart_tidy {spec : Bool} {a n : Nat} {d : Dev} (hd : d.tidy) : (readPart spec a n d).2.2.2.tidy := by
  unfold readPart
  split
  · split
    rename_i e
    split
    · refine tidy_snd2 e ?_
      split
      · exact mpeSpec_tidy hd
      · split
        rename_i e1
        exact tidy_snd e1 (mpeRead_tidy hd)
    · refine tidy_snd2 e ?_
      split
      · exact mpeSpec_tidy hd
      · split
        rename_i e2
        exact tidy_snd e2 (mpeRead_tidy hd)
  · exact snd3_ite hd (countTreset_tidy hd)
  · exact hd
  · exact hd

theorem writePart_tidy {tag : Option Nat} {a : Nat} {data : Bytes} {d : Dev} (hd : d.tidy) : (writePart tag a data d).2.tidy := by
  unfold writePart
  split
  · exact mpeWrite_tidy hd
  · exact snd_ite (putBytes_tidy hd) (countTreset_tidy hd)
  · exact putBytes_tidy hd

theorem judgePart_tidy {w : Who} {k : BusKind} {split posted : Bool} {a : Nat} {d : Dev} (hd : d.tidy) :
    (judgePart w k split posted a d).2.tidy := by
  unfold judgePart
  split
  · exact hd
  · exact htRefuse_tidy hd
  · exact hd
  · exact fixedRefuse_tidy hd

theorem memFetch_tidy {w : Who} {spec : Bool} {a n : Nat} {d : Dev} (hd : d.tidy) : (memFetch w spec a n d).2.2.2.tidy := by
  unfold memFetch
  extract_lets
  refine snd3_foldl (fun _ _ h => ?_) hd
  split
  split
  rename_i d1 e
  have hd1 : d1.tidy := tidy_snd e (judgePart_tidy h)
  split
  · split
    rename_i e1
    exact tidy_snd3 e1 (readPart_tidy hd1)
  · exact hd1

theorem memStore_tidy {w : Who} {tag : Option Nat} {a : Nat} {data : Bytes} {d : Dev} (hd : d.tidy) :
    (memStore w tag a data d).2.tidy := by
  unfold memStore
  extract_lets
  refine snd_foldl (fun _ _ h => ?_) hd
  split
  split
  rename_i d1 e
  have hd1 : d1.tidy := tidy_snd e (judgePart_tidy h)
  split
  · split
    rename_i e1
    exact tidy_snd e1 (writePart_tidy hd1)
  · exact hd1

theorem memFetch2_tidy {w : Who} {spec : Bool} {a n : Nat} {d : Dev} (hd : d.tidy) : (memFetch2 w spec a n d).2.2.2.tidy := by
  unfold memFetch2
  split
  · rename_i e
    exact memFetch_tidy (waitUntil_tidy (tidy_snd3 e (memFetch_tidy hd)))
  · exact memFetch_tidy hd

theorem memStore2_tidy {w : Who} {tag : Option Nat} {a : Nat} {data : Bytes} {d : Dev} (hd : d.tidy) :
    (memStore2 w tag a data d).2.tidy := by
  unfold memStore2
  split
  · rename_i e
    exact memStore_tidy (waitUntil_tidy (tidy_snd e (memStore_tidy hd)))
  · exact memStore_tidy hd

/-! ## The key store -/

theorem modKey_tidy {f : KeySt → KeySt} {d : Dev} (hd : d.tidy) : (modKey f d).tidy := tidy_with hd

theorem t1Put_tidy {n : Nat} {r : T1Rec} {d : Dev} (hd : d.tidy) : (t1Put n r d).tidy := modKey_tidy hd

theorem modRec_tidy {n : Nat} {f : KeyRec → KeyRec} {d : Dev} (hd : d.tidy) : (modRec n f d).tidy := by
  unfold modRec
  split
  · exact t1Put_tidy hd
  · exact hd

theorem putKey_tidy {n : Nat} {k : KeyRec} {d : Dev} (hd : d.tidy) : (putKey n k d).tidy :=
  tidy_foldl (fun _ _ => t1Put_tidy) (t1Put_tidy hd)

theorem t0Evict_tidy {n : Nat} {d : Dev} (hd : d.tidy) : (t0Evict n d).tidy := by
  unfold t0Evict
  split
  · exact hd
  · exact modKey_tidy hd

theorem t0Room_tidy {n f : Nat} {d : Dev} (hd : d.tidy) : (t0Room n f d).tidy := by
  induction f generalizing d with
  | zero => exact hd
  | succ f ih =>
    unfold t0Room
    refine tidy_ite hd ?_
    split
    · exact ih (t0Evict_tidy hd)
    · exact hd

theorem t1Pass_tidy {d : Dev} (hd : d.tidy) : (t1Pass d).tidy :=
  tidy_ite hd (tidy_foldl (fun _ _ h => tidy_foldl (fun _ _ => lineWrite_tidy) h) (modKey_tidy hd))

theorem t1Meet_tidy {hs : List T1Hit} {n : Nat} {d : Dev} (hd : d.tidy) : (t1Meet hs n d).tidy := by
  unfold t1Meet
  extract_lets
  split
  · exact hitLine_tidy (t1Pass_tidy hd)
  · exact t1Pass_tidy hd

theorem t1Read_tidy {hs : List T1Hit} {n : Nat} {d : Dev} (hd : d.tidy) : (t1Read hs n d).2.tidy := by
  unfold t1Read
  split
  · exact hd
  · refine snd_foldl (fun _ _ h => ?_) (t1Meet_tidy hd)
    split
    rename_i e
    exact tidy_snd2 e (lineSpec_tidy h)

theorem t1Sure_tidy {hs : List T1Hit} {n : Nat} {d : Dev} (hd : d.tidy) : (t1Sure hs n d).tidy :=
  tidy_ite hd (tidy_foldl (fun _ _ => lineRead_tidy) (t1Meet_tidy hd))

theorem t1Transfer_tidy {hs : List T1Hit} {n : Nat} {d : Dev} (hd : d.tidy) : (t1Transfer hs n d).2.2.tidy := by
  unfold t1Transfer
  split
  rename_i e
  exact snd2_ite (tidy_snd e (t1Read_tidy hd)) (mpeFail_tidy (tidy_snd e (t1Read_tidy hd)))

theorem t1Transfers_tidy {hs : List T1Hit} {ns : List Nat} {d : Dev} (hd : d.tidy) : (t1Transfers hs ns d).2.2.tidy := by
  unfold t1Transfers
  refine snd2_foldl (fun _ _ h => ?_) hd
  split
  rename_i e
  exact tidy_snd2 e (t1Transfer_tidy h)

theorem t0Load_tidy {hs : List T1Hit} {n : Nat} {d : Dev} (hd : d.tidy) : (t0Load hs n d).tidy := by
  unfold t0Load
  split
  · exact hd
  · extract_lets
    refine ite_of Load.tidy hd (ite_of Load.tidy (t0Room_tidy hd) ?_)
    split
    · rename_i e
      exact tidy_snd2 e (t1Transfers_tidy (t0Room_tidy hd))
    · rename_i d1 e1
      have hd1 : d1.tidy := tidy_snd2 e1 (t1Transfers_tidy (t0Room_tidy hd))
      extract_lets _ d2 _ _ d3
      have hd2 : d2.tidy := tidy_ite (tidy_ite (modKey_tidy hd1) (modRec_tidy (modKey_tidy hd1))) hd1
      have hd3 : d3.tidy := tidy_foldl (fun _ _ => modKey_tidy) hd2
      exact wrapFld_tidy (modKey_tidy hd3)

theorem quarantine_tidy {slot n : Nat} {d : Dev} (hd : d.tidy) : (quarantine slot n d).tidy :=
  tidy_ite (raiseEv_tidy (modKey_tidy (record_tidy (modKey_tidy (t0Evict_tidy hd))))) (record_tidy (modKey_tidy (t0Evict_tidy hd)))

theorem setVault_tidy {st : VaultState} {j c : Nat} {d : Dev} (hd : d.tidy) : (setVault st j c d).tidy :=
  tidy_ite hd (raiseEv_tidy (record_tidy (modKey_tidy hd)))

theorem vaultQueueBody_tidy {n : Nat} {body : T1Rec} {d : Dev} (hd : d.tidy) : (vaultQueueBody n body d).tidy := modKey_tidy hd

theorem vaultQueueRec_tidy {n : Nat} {d : Dev} (hd : d.tidy) : (vaultQueueRec n d).tidy := vaultQueueBody_tidy hd

theorem vaultQueue_tidy {n : Nat} {withExts : Bool} {d : Dev} (hd : d.tidy) : (vaultQueue n withExts d).tidy :=
  tidy_ite hd (tidy_foldl (fun _ _ => vaultQueueRec_tidy) (modRec_tidy hd))

theorem placeKey_tidy {n : Nat} {k : KeyRec} {d : Dev} (hd : d.tidy) : (placeKey n k d).tidy :=
  tidy_ite (tidy_foldl (fun _ _ => vaultQueueRec_tidy) (putKey_tidy hd)) (putKey_tidy hd)

theorem vaultWrite_tidy {c : Nat} {e : VaultEnt} {d : Dev} (hd : d.tidy) : (vaultWrite c e d).tidy := modKey_tidy hd

theorem vaultValid_tidy {c n : Nat} {d : Dev} (hd : d.tidy) : (vaultValid c n d).tidy := modKey_tidy hd

theorem markPersisted_tidy {e : VaultEnt} {d : Dev} (hd : d.tidy) : (markPersisted e d).tidy := by
  unfold markPersisted
  split
  · extract_lets d1
    have hd1 : d1.tidy := tidy_ite (t1Put_tidy hd) hd
    split
    · exact tidy_ite (modKey_tidy hd1) hd1
    · exact hd1
  · exact hd

theorem cellPut_tidy {cellFails c : Nat} {d : Dev} (hd : d.tidy) : (cellPut cellFails c d).2.tidy := by
  unfold cellPut
  split
  · extract_lets _ _ d1
    have hd1 : d1.tidy := tidy_ite (modKey_tidy hd) (smbAlert_tidy (tidy_with (modKey_tidy hd)))
    exact setVault_tidy (raiseEv_tidy (record_tidy hd1))
  · exact modKey_tidy hd

theorem weakNext_tidy {d : Dev} (hd : d.tidy) : (weakNext d).2.tidy := modKey_tidy hd

theorem vaultDrop_tidy {batch : List VaultEnt} {d : Dev} (hd : d.tidy) : (vaultDrop batch d).tidy := modKey_tidy hd

theorem repairsQueue_tidy {d : Dev} (hd : d.tidy) : (repairsQueue d).tidy :=
  tidy_foldl (fun _ _ h => tidy_ite (vaultQueueRec_tidy (modKey_tidy h)) h) hd

theorem vaultCommit_tidy {hs : List T1Hit} {cellFails steps : Nat} {d : Dev} (hd : d.tidy) : (vaultCommit hs cellFails steps d).tidy := by
  unfold vaultCommit
  extract_lets _ _ d1 d2 d3
  have hd1 : d1.tidy := tidy_foldl (fun _ _ => t1Sure_tidy) hd
  have hd2 : d2.tidy := tidy_foldl (fun _ _ => vaultWrite_tidy) hd1
  have hd3 : d3.tidy := tidy_foldl (fun _ _ => vaultValid_tidy) hd2
  split
  · exact hd
  · split
    · exact mpeFail_tidy hd1
    · split
      · exact hd1
      · split
        · exact hd2
        · split
          · exact modKey_tidy hd3
          · split
            · rename_i e
              exact vaultDrop_tidy (tidy_snd e (cellPut_tidy (modKey_tidy hd3)))
            · rename_i d4 e1
              have hd4 : d4.tidy := tidy_snd e1 (cellPut_tidy (modKey_tidy hd3))
              exact repairsQueue_tidy (wrapFld_tidy (tidy_foldl (fun _ _ => markPersisted_tidy) (vaultDrop_tidy hd4)))

theorem vaultClose_tidy {d : Dev} (hd : d.tidy) : (vaultClose d).tidy := by
  unfold vaultClose
  split
  · exact hd
  · exact jobBoundary_tidy (jobBoundary_tidy (jobBoundary_tidy (jobBoundary_tidy (modKey_tidy hd))))

theorem vaultSelf_tidy {steps : Nat} {d : Dev} (hd : d.tidy) : (vaultSelf steps d).tidy := tidy_ite hd (vaultCommit_tidy (modKey_tidy hd))

theorem vaultCommits_tidy {n : Nat} {d : Dev} (hd : d.tidy) : (vaultCommits n d).tidy := by
  induction n generalizing d with
  | zero => exact hd
  | succ n ih => exact tidy_ite hd (ih (vaultSelf_tidy hd))

theorem vaultDrain_tidy {d : Dev} (hd : d.tidy) : (vaultDrain d).tidy := vaultCommits_tidy (vaultClose_tidy hd)

theorem vaultDamage_tidy {n gen outcome : Nat} {d : Dev} (hd : d.tidy) : (vaultDamage n gen outcome d).tidy := raiseEv_tidy
    (record_tidy hd)

theorem extFree_tidy {x : Nat} {d : Dev} (hd : d.tidy) : (extFree x d).tidy := by
  unfold extFree
  split
  · exact t1Put_tidy hd
  · exact hd

theorem countMarked_tidy {d : Dev} (hd : d.tidy) : (countMarked d).tidy := satFld_tidy hd

theorem markDamaged_tidy {n gen : Nat} {src : KeyRec} {d : Dev} (hd : d.tidy) : (markDamaged n gen src d).tidy :=
  vaultDamage_tidy (countMarked_tidy (t1Put_tidy hd))

theorem markRetired_tidy {n gen : Nat} {d : Dev} (hd : d.tidy) : (markRetired n gen d).tidy :=
  vaultDamage_tidy (countMarked_tidy (t1Put_tidy hd))

theorem damageOwner_tidy {n gen o : Nat} {d : Dev} (hd : d.tidy) : (damageOwner n gen o d).tidy := by
  unfold damageOwner
  split
  · exact tidy_ite (vaultDamage_tidy hd) (markDamaged_tidy (tidy_foldl (fun _ _ => extFree_tidy) hd))
  · split
    · split
      · exact tidy_ite (markDamaged_tidy hd) (vaultDamage_tidy hd)
      · exact vaultDamage_tidy hd
    · exact vaultDamage_tidy hd

theorem vaultDamaged_tidy {dmg : VaultDamage} {n : Nat} {isB : Bool} {v : VaultCopy} {d : Dev} (hd : d.tidy) :
    (vaultDamaged dmg n isB v d).tidy := by
  unfold vaultDamaged
  extract_lets other lend
  have hlend : ∀ o ok g, (lend o ok g).tidy := by
    intro o ok g
    unfold lend
    split
    · exact markDamaged_tidy hd
    · exact markRetired_tidy hd
  split
  · split
    · exact hlend _ _ _
    · exact markRetired_tidy hd
  · split
    refine tidy_ite (vaultDamage_tidy (t1Put_tidy hd)) (tidy_ite (vaultDamage_tidy (t1Put_tidy hd)) ?_)
    split
    · exact damageOwner_tidy (t1Put_tidy hd)
    · clear_value other
      split
      · exact hlend _ _ _
      · exact markRetired_tidy hd

theorem vaultRepair_tidy {n gen : Nat} {d : Dev} (hd : d.tidy) : (vaultRepair n gen d).tidy := by
  unfold vaultRepair
  split
  · exact hd
  · exact vaultDamage_tidy (satFld_tidy (tidy_ite (vaultQueueRec_tidy hd) (modKey_tidy hd)))

theorem vaultLoad_tidy {n : Nat} {v : VaultCopy} {d : Dev} (hd : d.tidy) : (vaultLoad n v d).tidy := by
  unfold vaultLoad
  split
  · exact t1Put_tidy hd
  · split <;> exact t1Put_tidy hd
  · exact t1Put_tidy hd

theorem vaultRestore_tidy {dmg : VaultDamage} {n : Nat} {d : Dev} (hd : d.tidy) : (vaultRestore dmg n d).tidy := by
  unfold vaultRestore
  split
  · exact hd
  · split
    · split
      · exact t1Put_tidy hd
      · exact hd
    · exact tidy_ite (tidy_ite hd (vaultLoad_tidy hd)) (tidy_ite (vaultRepair_tidy hd) (vaultDamaged_tidy hd))

theorem restoreDone_tidy {d : Dev} (hd : d.tidy) : (restoreDone d).tidy :=
  raiseEv_tidy (tidy_ite (setVault_tidy (modKey_tidy hd)) (modKey_tidy hd))

theorem vaultStart_tidy {d : Dev} (hd : d.tidy) : (vaultStart d).tidy := by
  unfold vaultStart
  extract_lets
  split
  · exact modKey_tidy (modKey_tidy hd)
  · extract_lets
    split
    · exact setVault_tidy (modKey_tidy (modKey_tidy hd))
    · split
      · exact setVault_tidy (modKey_tidy (modKey_tidy hd))
      · split
        · exact setVault_tidy (modKey_tidy (modKey_tidy hd))
        · split
          · exact setVault_tidy (modKey_tidy (modKey_tidy hd))
          · split
            · exact setVault_tidy (modKey_tidy (modKey_tidy hd))
            · split
              rename_i d1 e
              have hd1 : d1.tidy := tidy_snd e (weakNext_tidy (modKey_tidy (modKey_tidy hd)))
              split
              · rename_i e1
                exact tidy_snd e1 (cellPut_tidy hd1)
              · rename_i e2
                exact setVault_tidy (tidy_snd e2 (cellPut_tidy hd1))

theorem drawKSlot_tidy {d : Dev} (hd : d.tidy) : (drawKSlot d).tidy := by
  unfold drawKSlot
  split
  · exact hd
  · split
    · rename_i e
      exact modKey_tidy (of_eq Draw.tidy e (draw_tidy hd))
    · rename_i e1
      exact of_eq Draw.tidy e1 (draw_tidy hd)
    · rename_i e2
      exact of_eq Draw.tidy e2 (draw_tidy hd)

theorem vaultFresh_tidy {d : Dev} (hd : d.tidy) : (vaultFresh d).tidy := by
  unfold vaultFresh
  extract_lets
  refine tidy_foldl (fun _ _ h => ?_) hd
  split
  · exact t1Put_tidy h
  · exact h

theorem vaultOpen_tidy {d : Dev} (hd : d.tidy) : (vaultOpen d).tidy := setVault_tidy (modKey_tidy hd)

theorem rootStep_tidy {d : Dev} (hd : d.tidy) : (rootStep d).tidy := by
  unfold rootStep
  extract_lets
  exact tidy_ite hd (tidy_ite (modKey_tidy (modKey_tidy hd)) (tidy_ite (modKey_tidy (vaultFresh_tidy (modKey_tidy hd)))
    (tidy_ite (modKey_tidy (modKey_tidy (tidy_with hd))) (raiseEv_tidy (vaultOpen_tidy (modKey_tidy (tidy_with hd)))))))

theorem rootSteps_tidy {n : Nat} {d : Dev} (hd : d.tidy) : (rootSteps n d).tidy := by
  induction n generalizing d with
  | zero => exact hd
  | succ n ih => exact ih (rootStep_tidy hd)

theorem rootCut_tidy {d : Dev} (hd : d.tidy) : (rootCut d).tidy := tidy_ite hd (tidy_ite (rootStep_tidy hd) (modKey_tidy hd))

theorem keyClear_tidy {d : Dev} (hd : d.tidy) : (keyClear d).tidy := modKey_tidy hd

theorem countAdmitted_tidy {n : Nat} {d : Dev} (hd : d.tidy) : (countAdmitted n d).tidy := modKey_tidy hd

theorem endedClear_tidy {n : Nat} {d : Dev} (hd : d.tidy) : (endedClear n d).tidy :=
  tidy_foldl (fun _ _ => extFree_tidy) (t0Evict_tidy (modKey_tidy hd))

theorem settleEnded_tidy {ns : List Nat} {d : Dev} (hd : d.tidy) : (settleEnded ns d).tidy :=
  tidy_foldl (fun _ _ h => tidy_ite (endedClear_tidy h) h) hd

theorem leave_tidy {n : Nat} {d : Dev} (hd : d.tidy) : (leave n d).tidy := tidy_ite (endedClear_tidy (modKey_tidy hd)) (modKey_tidy hd)

theorem askUsage_tidy {n : Nat} {k : KeyRec} {d : Dev} (hd : d.tidy) : (askUsage n k d).tidy := tidy_ite hd (modKey_tidy hd)

theorem countUse_tidy {n handle : Nat} {d : Dev} (hd : d.tidy) : (countUse n handle d).tidy := by
  unfold countUse
  split
  · exact hd
  · split
    · exact hd
    · extract_lets
      exact tidy_ite (tidy_ite (askUsage_tidy (vaultQueueRec_tidy (modRec_tidy hd))) (vaultQueueRec_tidy (modRec_tidy hd)))
        (tidy_ite (modKey_tidy (modRec_tidy hd)) (modRec_tidy hd))

theorem freeRec_tidy {n : Nat} {d : Dev} (hd : d.tidy) : (freeRec n d).tidy := by
  unfold freeRec
  split
  · exact hd
  · exact tidy_ite (modKey_tidy (t1Put_tidy hd)) (tidy_foldl (fun _ _ => extFree_tidy) (t0Evict_tidy (t1Put_tidy hd)))

/-! ## The officer block's shared operations -/

theorem modOfc_tidy {f : OfcSt → OfcSt} {d : Dev} (hd : d.tidy) : (modOfc f d).tidy := tidy_with hd

theorem modOfficer_tidy {n : Nat} {f : Officer → Officer} {d : Dev} (hd : d.tidy) : (modOfficer n f d).tidy := modOfc_tidy hd

theorem modChal_tidy {id : Nat} {f : Chal → Chal} {d : Dev} (hd : d.tidy) : (modChal id f d).tidy := modOfc_tidy hd

theorem endChals_tidy {which : Chal → Bool} {d : Dev} (hd : d.tidy) : (endChals which d).tidy := modOfc_tidy hd

theorem dropClass_tidy {cls : Nat} {d : Dev} (hd : d.tidy) : (dropClass cls d).tidy := endChals_tidy hd

theorem modCard_tidy {slot : Nat} {f : CardIf → CardIf} {d : Dev} (hd : d.tidy) : (modCard slot f d).tidy := modOfc_tidy hd

theorem drawHomeless_tidy {n : Nat} {d : Dev} (hd : d.tidy) : (drawHomeless n d).2.tidy := by
  unfold drawHomeless
  split
  · rename_i e
    exact of_eq Draw.tidy e (draw_tidy hd)
  · exact hd
  · rename_i e1
    exact of_eq Draw.tidy e1 (draw_tidy hd)

theorem officerFail_tidy {n : Nat} {d : Dev} (hd : d.tidy) : (officerFail n d).tidy :=
  tidy_ite (raiseEv_tidy (record_tidy (modOfficer_tidy hd))) (modOfficer_tidy hd)

theorem officerPass_tidy {n : Nat} {d : Dev} (hd : d.tidy) : (officerPass n d).tidy := modOfficer_tidy hd

theorem officerUnlock_tidy {n : Nat} {d : Dev} (hd : d.tidy) : (officerUnlock n d).tidy := modOfficer_tidy hd

theorem chalRoom_tidy {who : Nat} {d : Dev} (hd : d.tidy) : (chalRoom who d).tidy := by
  unfold chalRoom
  extract_lets first ended
  have hfirst : ∀ {cs n d}, d.tidy → (first cs n d).tidy := by
    intro cs n d hd
    unfold first
    split
    · exact tidy_ite (endChals_tidy hd) hd
    · exact hd
  exact hfirst (hfirst hd)

theorem chalIssue_tidy {cls who : Nat} {direct : Bool} {op handle : Nat} {digest : Bytes} {d : Dev} (hd : d.tidy) :
    (chalIssue cls who direct op handle digest d).2.tidy := by
  unfold chalIssue
  split
  · rename_i e
    exact tidy_snd e (drawHomeless_tidy hd)
  · rename_i d1 e1
    have hd1 : d1.tidy := tidy_snd e1 (drawHomeless_tidy hd)
    extract_lets
    split
    exact modOfc_tidy (chalRoom_tidy hd1)

theorem ticketSigs_tidy {q : QClass} {chal : Bytes} {l : List (Nat × Bytes)} {d : Dev} (hd : d.tidy) :
    (ticketSigs q chal l d).2.tidy := by
  induction l generalizing d with
  | nil => exact hd
  | cons x rest ih =>
    obtain ⟨n, sig⟩ := x
    unfold ticketSigs
    split
    · split
      · exact ih (officerPass_tidy hd)
      · exact ih (officerFail_tidy hd)
    · exact ih hd

theorem ticketCheck_tidy {t : Ticket} {need : TicketFor} {d : Dev} (hd : d.tidy) : (ticketCheck t need d).2.tidy := by
  unfold ticketCheck
  split
  · exact hd
  · split
    · exact hd
    · split
      · exact hd
      · split
        · exact hd
        · split
          · exact hd
          · exact snd_ite (ticketSigs_tidy hd) (snd_ite (ticketSigs_tidy hd) (modChal_tidy (ticketSigs_tidy hd)))

theorem ticketFree_tidy {ids : List Nat} {d : Dev} (hd : d.tidy) : (ticketFree ids d).tidy := tidy_foldl (fun _ _ => modOfc_tidy) hd

theorem ticketsGo_tidy {l : List (TicketFor × Ticket)} {got : List Nat} {d : Dev} (hd : d.tidy) : (ticketsGo l got d).2.tidy := by
  induction l generalizing got d with
  | nil => exact hd
  | cons x rest ih =>
    obtain ⟨need, t⟩ := x
    unfold ticketsGo
    split
    · rename_i e
      exact ticketFree_tidy (tidy_snd e (ticketCheck_tidy hd))
    · rename_i id who d1 e
      have hd1 : d1.tidy := tidy_snd e (ticketCheck_tidy hd)
      split
      · rename_i e1
        exact tidy_snd e1 (ih hd1)
      · exact ih hd1

theorem ticketsCheck_tidy {needs : List TicketFor} {b : Bytes} {got : List Nat} {d : Dev} (hd : d.tidy) :
    (ticketsCheck needs b got d).2.tidy := by
  unfold ticketsCheck
  split
  · exact ticketFree_tidy hd
  · exact ticketsGo_tidy hd

theorem cardSend_tidy {slot cla ins : Nat} {data : Bytes} {d : Dev} (hd : d.tidy) : (cardSend slot cla ins data d).tidy := emit_tidy hd

theorem cardAsk_tidy {slot cla ins : Nat} {data : Bytes} {wait : CardWait} {d : Dev} (hd : d.tidy) :
    (cardAsk slot cla ins data wait d).tidy :=
  cardSend_tidy (modCard_tidy hd)

theorem cardSelect_tidy {slot : Nat} {d : Dev} (hd : d.tidy) : (cardSelect slot d).tidy := cardAsk_tidy hd

theorem cardIdle_tidy {slot : Nat} {d : Dev} (hd : d.tidy) : (cardIdle slot d).tidy := modCard_tidy hd

theorem cardSign_tidy {slot : Nat} {d : Dev} (hd : d.tidy) : (cardSign slot d).tidy := by
  unfold cardSign
  extract_lets
  split
  · exact hd
  · split
    · exact hd
    · split
      · exact hd
      · exact cardAsk_tidy (modCard_tidy hd)

theorem cardNext_tidy {slot : Nat} {d : Dev} (hd : d.tidy) : (cardNext slot d).tidy := by
  unfold cardNext
  extract_lets _ own
  have hown : own.tidy := tidy_ite (cardAsk_tidy (modCard_tidy hd)) (cardSign_tidy hd)
  split
  · exact hd
  · split
    · exact tidy_ite (cardAsk_tidy hd) hown
    · exact tidy_ite (cardAsk_tidy hd) hown
    · exact hown

theorem cardsNext_tidy {d : Dev} (hd : d.tidy) : (cardsNext d).tidy := cardNext_tidy (cardNext_tidy hd)

theorem cardOff_tidy {slot : Nat} {d : Dev} (hd : d.tidy) : (cardOff slot d).tidy :=
  tidy_ite (modCard_tidy hd) (emit_tidy (modCard_tidy hd))

theorem cardOn_tidy {slot : Nat} {ask : Bool} {d : Dev} (hd : d.tidy) : (cardOn slot ask d).tidy := emit_tidy (modCard_tidy hd)

theorem ofcResult_tidy {st info : Nat} {tickets : List Nat} {d : Dev} (hd : d.tidy) : (ofcResult st info tickets d).tidy := by
  unfold ofcResult
  extract_lets d1
  have hd1 : d1.tidy := tidy_ite (tidy_foldl (fun _ _ => redeemChallenge_tidy) hd) (ticketFree_tidy hd)
  exact raiseEv_tidy (setFld_tidy (setFld_tidy (modOfc_tidy hd1)))

theorem opLost_tidy {slot : Nat} {d : Dev} (hd : d.tidy) : (opLost slot d).tidy := by
  unfold opLost
  split
  · exact jobBoundary_tidy (ofcResult_tidy hd)
  · exact hd

theorem cardsSync_tidy {was d : Dev} (hd : d.tidy) : (cardsSync was d).tidy :=
  tidy_foldl (fun _ _ h => tidy_ite (tidy_ite h (opLost_tidy (cardOff_tidy h))) (tidy_ite (cardOn_tidy h) h)) hd

theorem pageSync_tidy {p : Nat} {was d : Dev} (hd : d.tidy) : (pageSync p was d).tidy := tidy_ite (cardsSync_tidy hd) hd

theorem ofcEnd_tidy {st info : Nat} {tickets : List Nat} {d : Dev} (hd : d.tidy) : (ofcEnd st info tickets d).tidy :=
  cardsSync_tidy (jobBoundary_tidy (ofcResult_tidy hd))

theorem ofcLost_tidy {slot : Nat} {d : Dev} (hd : d.tidy) : (ofcLost slot d).tidy := cardsSync_tidy (opLost_tidy hd)

theorem ofcStop_tidy {d : Dev} (hd : d.tidy) : (ofcStop d).tidy :=
  tidy_ite (modOfc_tidy (cardOff_tidy (cardOff_tidy hd))) (opLost_tidy (opLost_tidy (cardOff_tidy (cardOff_tidy hd))))

theorem ofcCut_tidy {d : Dev} (hd : d.tidy) : (ofcCut d).tidy := by
  unfold ofcCut
  extract_lets
  split
  · exact modOfc_tidy (ticketFree_tidy hd)
  · exact modOfc_tidy (ticketFree_tidy (tidy_with hd))
  · exact modOfc_tidy (ticketFree_tidy hd)
  · exact hd

/-! ## What the key opcodes share -/

theorem modUnit_tidy {i : Nat} {f : Unit' → Unit'} {d : Dev} (hd : d.tidy) : (modUnit i f d).tidy := tidy_with hd

theorem withRandom_tidy {c : Cmd} {n : Nat} {d : Dev} {go : Bytes → Dev → OpOut} (hd : d.tidy) (hgo : ∀ y x, x.tidy → (go y x).tidy) :
    (withRandom c n d go).tidy := by
  unfold withRandom
  extract_lets
  split
  · rename_i e
    exact hgo _ _ (of_eq Draw.tidy e (drawFor_tidy hd))
  · rename_i e1
    exact of_eq Draw.tidy e1 (drawFor_tidy hd)
  · rename_i e2
    exact of_eq Draw.tidy e2 (drawFor_tidy hd)

theorem withMask_tidy {c : Cmd} {d : Dev} {go : Dev → OpOut} (hd : d.tidy) (hgo : ∀ x, x.tidy → (go x).tidy) :
    (withMask c d go).tidy := by
  unfold withMask
  extract_lets
  split
  · rename_i e
    exact hgo _ (of_eq Draw.tidy e (drawFor_tidy (tidy_with hd)))
  · rename_i e1
    exact of_eq Draw.tidy e1 (drawFor_tidy (tidy_with hd))
  · rename_i e2
    exact of_eq Draw.tidy e2 (drawFor_tidy (tidy_with hd))

theorem opReads_tidy {c : Cmd} {d0 : Dev} {x : OpOut} (hx : x.tidy) : (opReads c d0 x).tidy := by
  unfold opReads
  split
  · exact readsAgain_tidy (tidy_with hx)
  · extract_lets
    split
    · exact tidy_ite (modUnit_tidy (readsOver_tidy hx)) (readsOver_tidy hx)
    · exact readsOver_tidy hx

theorem laneMask_tidy {tag lane : Nat} {d : Dev} (hd : d.tidy) : (laneMask tag lane d).tidy := by
  unfold laneMask
  extract_lets
  split
  · rename_i e
    exact readsOver_tidy (of_eq Draw.tidy e (drawFor_tidy (tidy_with hd)))
  · rename_i e1
    exact tidy_with (of_eq Draw.tidy e1 (drawFor_tidy (tidy_with hd)))
  · rename_i e2
    exact of_eq Draw.tidy e2 (drawFor_tidy (tidy_with hd))

/-! ## What cipher lanes compute -/

theorem askRaise_tidy {n new : Nat} {epoch : Option Nat} {d : Dev} (hd : d.tidy) : (askRaise n new epoch d).tidy := by
  unfold askRaise
  split
  · exact hd
  · exact modKey_tidy hd

theorem drawCounter_tidy {n : Nat} {epoch : Option Nat} {d : Dev} (hd : d.tidy) : (drawCounter n epoch d).tidy := by
  unfold drawCounter
  split
  · extract_lets
    exact ite_of CtrDraw.tidy hd (ite_of CtrDraw.tidy (tidy_ite (askRaise_tidy (modKey_tidy hd)) (modKey_tidy hd))
      (ite_of CtrDraw.tidy hd (askRaise_tidy hd)))
  · exact hd

theorem withCounter_tidy {c : Cmd} {d : Dev} {go : Nat → Dev → OpOut} (hd : d.tidy) (hgo : ∀ y x, x.tidy → (go y x).tidy) :
    (withCounter c d go).tidy := by
  unfold withCounter
  refine ite_of OpOut.tidy (hgo _ _ hd) ?_
  split
  · rename_i e
    exact hgo _ _ (of_eq CtrDraw.tidy e (drawCounter_tidy hd))
  · rename_i e1
    exact of_eq CtrDraw.tidy e1 (drawCounter_tidy hd)
  · rename_i e2
    exact of_eq CtrDraw.tidy e2 (drawCounter_tidy hd)

theorem needRoom_tidy {c : Cmd} {n : Nat} {d : Dev} {go : OpOut} (hd : d.tidy) (hgo : go.tidy) : (needRoom c n d go).tidy :=
  ite_of OpOut.tidy hd hgo

theorem segDone_tidy {c : Cmd} {h : CtxHead} {s : CtxBody} {out : Bytes} {d : Dev} (hd : d.tidy) : (segDone c h s out d).tidy :=
  ite_of OpOut.tidy hd (ite_of OpOut.tidy hd (withRandom_tidy hd (fun _ _ h2 => h2)))

theorem opBlock_tidy {c : Cmd} {d : Dev} (hd : d.tidy) : (opBlock c d).tidy := by
  unfold opBlock
  refine withMask_tidy hd (fun _ h => ite_of OpOut.tidy (ite_of OpOut.tidy h (ite_of OpOut.tidy h (segDone_tidy h))) ?_)
  split
  · exact h
  · exact ite_of OpOut.tidy h (segDone_tidy h)

theorem withNonce_tidy {c : Cmd} {d : Dev} {go : Bytes → Result → Dev → OpOut} (hd : d.tidy) (hgo : ∀ y y1 x, x.tidy → (go y y1 x).tidy) :
    (withNonce c d go).tidy :=
  ite_of OpOut.tidy (withCounter_tidy hd (fun _ _ h => hgo _ _ _ h)) (hgo _ _ _ hd)

theorem opGcm_tidy {c : Cmd} {d : Dev} (hd : d.tidy) : (opGcm c d).tidy := by
  unfold opGcm
  refine withMask_tidy hd (fun _ h => ite_of OpOut.tidy h ?_)
  split
  · exact withNonce_tidy h (fun _ _ _ h2 => ite_of OpOut.tidy (ite_of OpOut.tidy h2 h2) h2)
  · exact segDone_tidy h
  · split
    · exact h
    · exact segDone_tidy h
  · split
    · exact h
    · exact ite_of OpOut.tidy (ite_of OpOut.tidy h h) h

theorem opCcm_tidy {c : Cmd} {d : Dev} (hd : d.tidy) : (opCcm c d).tidy :=
  withMask_tidy hd (fun _ h => ite_of OpOut.tidy (ite_of OpOut.tidy h h) h)

theorem opXts_tidy {c : Cmd} {d : Dev} (hd : d.tidy) : (opXts c d).tidy := ite_of OpOut.tidy hd (withMask_tidy hd (fun _ h => h))

theorem opCtxSave_tidy {c : Cmd} {d : Dev} (hd : d.tidy) : (opCtxSave c d).tidy := by
  unfold opCtxSave
  extract_lets
  refine ite_of OpOut.tidy hd ?_
  split
  · exact hd
  · split
    · exact hd
    · split
      · exact hd
      · exact withMask_tidy hd (fun _ h => withRandom_tidy h (fun _ _ h2 => h2))

theorem opCtxRestore_tidy {c : Cmd} {d : Dev} (hd : d.tidy) : (opCtxRestore c d).tidy := by
  unfold opCtxRestore
  extract_lets
  refine ite_of OpOut.tidy hd ?_
  split
  · exact hd
  · refine ite_of OpOut.tidy hd ?_
    split
    · exact hd
    · split
      · exact hd
      · exact withMask_tidy hd (fun _ h => withRandom_tidy h (fun _ _ h2 => h2))

/-! ## Hashes, MACs, key derivation, the TLS 1.3 key schedule and random bytes -/

theorem opHash_tidy {c : Cmd} {d : Dev} (hd : d.tidy) : (opHash c d).tidy := hd

theorem opShake_tidy {c : Cmd} {d : Dev} (hd : d.tidy) : (opShake c d).tidy := hd

theorem opHmac_tidy {c : Cmd} {d : Dev} (hd : d.tidy) : (opHmac c d).tidy := hd

theorem opCmac_tidy {c : Cmd} {d : Dev} (hd : d.tidy) : (opCmac c d).tidy :=
  withMask_tidy hd (fun _ h => ite_of OpOut.tidy h (needRoom_tidy h h))

theorem opGmac_tidy {c : Cmd} {d : Dev} (hd : d.tidy) : (opGmac c d).tidy :=
  withMask_tidy hd (fun _ h => withNonce_tidy h (fun _ _ _ h2 => h2))

theorem opMacVerify_tidy {c : Cmd} {d : Dev} (hd : d.tidy) : (opMacVerify c d).tidy :=
  ite_of OpOut.tidy hd (withMask_tidy hd (fun _ h => ite_of OpOut.tidy (ite_of OpOut.tidy h (ite_of OpOut.tidy h h)) h))

theorem opKeyDerive_tidy {c : Cmd} {d : Dev} (hd : d.tidy) : (opKeyDerive c d).tidy := hd

theorem opHkdf_tidy {c : Cmd} {d : Dev} (hd : d.tidy) : (opHkdf c d).tidy := hd

theorem opKdfCtr_tidy {c : Cmd} {d : Dev} (hd : d.tidy) : (opKdfCtr c d).tidy := hd

theorem opTls13_tidy {c : Cmd} {d : Dev} (hd : d.tidy) : (opTls13 c d).tidy := hd

theorem opRandom_tidy {c : Cmd} {d : Dev} (hd : d.tidy) : (opRandom c d).tidy := withRandom_tidy hd (fun _ _ h => h)

theorem opEntropyStatus_tidy {_c : Cmd} {d : Dev} (hd : d.tidy) : (opEntropyStatus _c d).tidy := hd

theorem opGenerateSym_tidy {c : Cmd} {d : Dev} (hd : d.tidy) : (opGenerateSym c d).tidy := withRandom_tidy hd (fun _ _ h => h)

/-! ## Payment operations and tokenisation -/

theorem opDukpt_tidy {c : Cmd} {d : Dev} (hd : d.tidy) : (opDukpt c d).tidy := by
  unfold opDukpt
  refine withMask_tidy hd (fun _ h => ite_of OpOut.tidy h (ite_of OpOut.tidy h ?_))
  extract_lets
  split <;> exact h

theorem opPinTranslate_tidy {c : Cmd} {d : Dev} (hd : d.tidy) : (opPinTranslate c d).tidy := by
  unfold opPinTranslate
  refine withMask_tidy hd (fun _ h => ?_)
  extract_lets
  split
  · exact h
  · exact h
  · refine ite_of OpOut.tidy h ?_
    split
    · exact h
    · exact withRandom_tidy h (fun _ _ h2 => h2)

theorem opPinVerify_tidy {c : Cmd} {d : Dev} (hd : d.tidy) : (opPinVerify c d).tidy := by
  unfold opPinVerify
  refine withMask_tidy hd (fun _ h => ?_)
  extract_lets
  split
  · exact h
  · exact h
  · split
    · exact h
    · refine ite_of OpOut.tidy ?_ h
      split <;> exact h

theorem opCvv_tidy {c : Cmd} {d : Dev} (hd : d.tidy) : (opCvv c d).tidy := withMask_tidy hd (fun _ h => h)

theorem opCvvVerify_tidy {c : Cmd} {d : Dev} (hd : d.tidy) : (opCvvVerify c d).tidy := withMask_tidy hd (fun _ h => h)

theorem opDataTranslate_tidy {c : Cmd} {d : Dev} (hd : d.tidy) : (opDataTranslate c d).tidy :=
  withMask_tidy hd (fun _ h => ite_of OpOut.tidy h h)

theorem opFf1_tidy {dec : Bool} {c : Cmd} {d : Dev} (hd : d.tidy) : (opFf1 dec c d).tidy := by
  unfold opFf1
  refine withMask_tidy hd (fun _ h => ?_)
  split <;> exact h

theorem opTokenTranslate_tidy {c : Cmd} {d : Dev} (hd : d.tidy) : (opTokenTranslate c d).tidy := by
  unfold opTokenTranslate
  refine withMask_tidy hd (fun _ h => ?_)
  extract_lets
  split <;> exact h

/-! ## Access codes -/

theorem opHotp_tidy {c : Cmd} {d : Dev} (hd : d.tidy) : (opHotp c d).tidy := withCounter_tidy hd (fun _ _ h => h)

theorem askRaiseTo_tidy {n new : Nat} {epoch : Option Nat} {d : Dev} (hd : d.tidy) : (askRaiseTo n new epoch d).tidy := by
  unfold askRaiseTo
  split
  · exact modKey_tidy hd
  · exact askRaise_tidy hd

theorem accept_tidy {c : Cmd} {at' v : Nat} {d : Dev} (hd : d.tidy) : (accept c at' v d).tidy := by
  unfold accept
  extract_lets
  refine ite_of OpOut.tidy hd ?_
  split
  · exact hd
  · exact ite_of OpOut.tidy (ite_of OpOut.tidy hd (askRaiseTo_tidy hd)) hd

theorem opHotpVerify_tidy {c : Cmd} {d : Dev} (hd : d.tidy) : (opHotpVerify c d).tidy := by
  unfold opHotpVerify
  extract_lets _ at1
  clear_value at1
  split
  · exact hd
  · split
    · exact hd
    · exact accept_tidy hd

theorem opTotp_tidy {c : Cmd} {d : Dev} (hd : d.tidy) : (opTotp c d).tidy := hd

theorem opTotpVerify_tidy {c : Cmd} {d : Dev} (hd : d.tidy) : (opTotpVerify c d).tidy := by
  unfold opTotpVerify
  extract_lets
  split
  · exact hd
  · exact accept_tidy hd

theorem lockerDsa_tidy {c : Cmd} {k : KeyRec} {body rnd : Bytes} {d0 d : Dev} {fin : Bytes → Dev → OpOut} (hd : d.tidy)
    (hfin : ∀ y x, x.tidy → (fin y x).tidy) : (lockerDsa c k body rnd d0 d fin).tidy := by
  unfold lockerDsa
  extract_lets
  split
  · rename_i e
    refine tidy_with (of_eq OpOut.tidy e (withRandom_tidy hd (fun _ _ h => ?_)))
    split
    · exact hfin _ _ h
    · exact h
  · refine withRandom_tidy hd (fun _ _ h2 => ?_)
    split
    · exact hfin _ _ h2
    · exact h2

theorem opLocker_tidy {c : Cmd} {d : Dev} (hd : d.tidy) : (opLocker c d).tidy := by
  unfold opLocker
  extract_lets
  split
  · exact hd
  · exact ite_of OpOut.tidy hd (withRandom_tidy hd (fun _ _ h => withCounter_tidy h
      (fun _ _ h2 => ite_of OpOut.tidy h2 (ite_of OpOut.tidy h2 (ite_of OpOut.tidy h2 (lockerDsa_tidy h2 (fun _ _ h3 => h3)))))))

theorem opPickup_tidy {c : Cmd} {d : Dev} (hd : d.tidy) : (opPickup c d).tidy := withCounter_tidy hd (fun _ _ h => h)

theorem opPickupVerify_tidy {c : Cmd} {d : Dev} (hd : d.tidy) : (opPickupVerify c d).tidy := hd

/-! ## Public-key, lattice and hash-based operations of the engines -/

theorem opEcdsaSign_tidy {c : Cmd} {d : Dev} (hd : d.tidy) : (opEcdsaSign c d).tidy :=
  needRoom_tidy hd (withRandom_tidy hd (fun _ _ h => h))

theorem opEcdsaVerify_tidy {c : Cmd} {d : Dev} (hd : d.tidy) : (opEcdsaVerify c d).tidy := by
  unfold opEcdsaVerify
  extract_lets
  refine ite_of OpOut.tidy hd ?_
  split <;> exact hd

theorem opEddsaSign_tidy {c : Cmd} {d : Dev} (hd : d.tidy) : (opEddsaSign c d).tidy := withRandom_tidy hd (fun _ _ h => h)

theorem opEddsaVerify_tidy {c : Cmd} {d : Dev} (hd : d.tidy) : (opEddsaVerify c d).tidy := ite_of OpOut.tidy hd (ite_of OpOut.tidy hd hd)

theorem opEcdh_tidy {c : Cmd} {d : Dev} (hd : d.tidy) : (opEcdh c d).tidy := by
  unfold opEcdh
  extract_lets
  refine ite_of OpOut.tidy hd ?_
  split
  · exact hd
  · refine ite_of OpOut.tidy hd (withRandom_tidy hd (fun _ _ h => ite_of OpOut.tidy ?_ ?_))
    · split
      · exact h
      · split <;> exact h
    · split <;> exact h

theorem opEncap_tidy {c : Cmd} {d : Dev} (hd : d.tidy) : (opEncap c d).tidy :=
  ite_of OpOut.tidy hd (ite_of OpOut.tidy hd (needRoom_tidy hd (withRandom_tidy hd (fun _ _ h => h))))

theorem opDecap_tidy {c : Cmd} {d : Dev} (hd : d.tidy) : (opDecap c d).tidy :=
  ite_of OpOut.tidy hd (ite_of OpOut.tidy hd (withRandom_tidy hd (fun _ _ h => h)))

theorem opRsaPrivate_tidy {c : Cmd} {d : Dev} (hd : d.tidy) : (opRsaPrivate c d).tidy := by
  unfold opRsaPrivate
  extract_lets
  refine ite_of OpOut.tidy (ite_of OpOut.tidy hd (needRoom_tidy hd (withRandom_tidy hd (fun _ _ h => ?_))))
    (needRoom_tidy hd (withRandom_tidy hd (fun _ _ h2 => h2)))
  split <;> exact h

theorem opRsaPublic_tidy {c : Cmd} {d : Dev} (hd : d.tidy) : (opRsaPublic c d).tidy := by
  unfold opRsaPublic
  extract_lets
  exact ite_of OpOut.tidy hd (ite_of OpOut.tidy (ite_of OpOut.tidy hd (needRoom_tidy hd (withRandom_tidy hd (fun _ _ h => h))))
    (ite_of OpOut.tidy hd hd))

theorem opMldsaSign_tidy {c : Cmd} {d : Dev} (hd : d.tidy) : (opMldsaSign c d).tidy := by
  unfold opMldsaSign
  extract_lets
  refine needRoom_tidy hd (withRandom_tidy hd (fun _ _ h => withRandom_tidy h (fun _ _ h2 => ?_)))
  split <;> exact h2

theorem opMldsaVerify_tidy {c : Cmd} {d : Dev} (hd : d.tidy) : (opMldsaVerify c d).tidy := ite_of OpOut.tidy hd (ite_of OpOut.tidy hd hd)

theorem opSlhSign_tidy {c : Cmd} {d : Dev} (hd : d.tidy) : (opSlhSign c d).tidy :=
  needRoom_tidy hd (withRandom_tidy hd (fun _ _ h => h))

theorem opSlhVerify_tidy {c : Cmd} {d : Dev} (hd : d.tidy) : (opSlhVerify c d).tidy := ite_of OpOut.tidy hd (ite_of OpOut.tidy hd hd)

theorem opHbsVerify_tidy {c : Cmd} {d : Dev} (hd : d.tidy) : (opHbsVerify c d).tidy := by
  unfold opHbsVerify
  extract_lets _ r
  split
  · exact hd
  · clear_value r
    split <;> exact hd

theorem opImageVerify_tidy {c : Cmd} {d : Dev} (hd : d.tidy) : (opImageVerify c d).tidy :=
  ite_of OpOut.tidy hd (ite_of OpOut.tidy hd (ite_of OpOut.tidy hd hd))

theorem opGeneratePair_tidy {c : Cmd} {d : Dev} (hd : d.tidy) : (opGeneratePair c d).tidy := by
  unfold opGeneratePair
  extract_lets
  refine ite_of OpOut.tidy (ite_of OpOut.tidy hd hd) (withRandom_tidy hd (fun _ _ h => ?_))
  split <;> exact h

theorem opPublicExport_tidy {c : Cmd} {d : Dev} (hd : d.tidy) : (opPublicExport c d).tidy := needRoom_tidy hd hd

/-! ## Key-management operations -/

theorem opExport_tidy {c : Cmd} {d : Dev} (hd : d.tidy) : (opExport c d).tidy := by
  unfold opExport
  extract_lets
  split
  · exact hd
  · exact needRoom_tidy hd (withRandom_tidy hd (fun _ _ h => h))

theorem opImport_tidy {c : Cmd} {d : Dev} (hd : d.tidy) : (opImport c d).tidy := by
  unfold opImport
  extract_lets
  refine ite_of OpOut.tidy hd (ite_of OpOut.tidy hd ?_)
  split
  · exact hd
  · extract_lets
    split
    · exact hd
    · split
      · exact hd
      · exact ite_of OpOut.tidy hd (ite_of OpOut.tidy hd (ite_of OpOut.tidy hd (ite_of OpOut.tidy hd hd)))

theorem opExportX9_tidy {c : Cmd} {d : Dev} (hd : d.tidy) : (opExportX9 c d).tidy := by
  unfold opExportX9
  extract_lets
  split
  · exact hd
  · exact needRoom_tidy hd (withRandom_tidy hd (fun _ _ h => h))

theorem opImportX9_tidy {c : Cmd} {d : Dev} (hd : d.tidy) : (opImportX9 c d).tidy := by
  unfold opImportX9
  extract_lets
  refine ite_of OpOut.tidy hd (ite_of OpOut.tidy hd (ite_of OpOut.tidy hd (ite_of OpOut.tidy hd (ite_of OpOut.tidy hd ?_))))
  split
  · exact hd
  · exact hd
  · refine ite_of OpOut.tidy hd (ite_of OpOut.tidy hd ?_)
    split
    · exact hd
    · extract_lets
      split
      · refine ite_of OpOut.tidy hd (ite_of OpOut.tidy hd (ite_of OpOut.tidy hd ?_))
        split
        · exact hd
        · refine ite_of OpOut.tidy hd ?_
          split
          · exact hd
          · exact ite_of OpOut.tidy hd hd
      · exact hd

theorem opGetAttr_tidy {c : Cmd} {d : Dev} (hd : d.tidy) : (opGetAttr c d).tidy := hd

theorem opDestroy_tidy {c : Cmd} {d : Dev} (hd : d.tidy) : (opDestroy c d).tidy := hd

theorem opSetAttr_tidy {c : Cmd} {d : Dev} (hd : d.tidy) : (opSetAttr c d).tidy := by
  unfold opSetAttr
  extract_lets
  split
  · exact hd
  · split <;> exact hd

theorem opGrant_tidy {c : Cmd} {d : Dev} (hd : d.tidy) : (opGrant c d).tidy := ite_of OpOut.tidy hd (ite_of OpOut.tidy hd hd)

theorem opRevoke_tidy {c : Cmd} {d : Dev} (hd : d.tidy) : (opRevoke c d).tidy := ite_of OpOut.tidy hd hd

theorem t1ReadFor_tidy {c : Cmd} {ns : List Nat} {d : Dev} (hd : d.tidy) : (t1ReadFor c ns d).tidy := by
  unfold t1ReadFor
  split
  rename_i e
  split
  · refine putCmd_tidy (tidy_snd e (snd_foldl (fun _ _ h => ?_) hd))
    split
    rename_i e1
    exact tidy_snd e1 (t1Read_tidy h)
  · refine tidy_snd e (snd_foldl (fun _ _ h2 => ?_) hd)
    split
    rename_i e2
    exact tidy_snd e2 (t1Read_tidy h2)

theorem opList_tidy {c : Cmd} {d : Dev} (hd : d.tidy) : (opList c d).tidy := ite_of OpOut.tidy hd (t1ReadFor_tidy hd)

theorem opBackup_tidy {c : Cmd} {d : Dev} (hd : d.tidy) : (opBackup c d).tidy :=
  ite_of OpOut.tidy hd (withRandom_tidy (t1ReadFor_tidy hd) (fun _ _ h => h))

theorem opRestore_tidy {c : Cmd} {d : Dev} (hd : d.tidy) : (opRestore c d).tidy :=
  ite_of OpOut.tidy hd (ite_of OpOut.tidy hd (ite_of OpOut.tidy hd (ite_of OpOut.tidy hd hd)))

theorem opImportClear_tidy {c : Cmd} {d : Dev} (hd : d.tidy) : (opImportClear c d).tidy := by
  unfold opImportClear
  extract_lets
  split
  · exact hd
  · exact ite_of OpOut.tidy hd hd

theorem opChallenge_tidy {c : Cmd} {d : Dev} (hd : d.tidy) : (opChallenge c d).tidy := by
  unfold opChallenge
  extract_lets
  refine ite_of OpOut.tidy hd ?_
  split
  · rename_i e
    exact tidy_snd e (chalIssue_tidy hd)
  · rename_i e1
    exact cardsNext_tidy (tidy_snd e1 (chalIssue_tidy hd))

/-! ## The policy check -/

theorem ticketsNeeded_tidy {c : Cmd} {classes : List Nat} {d : Dev} (hd : d.tidy) : (ticketsNeeded c classes d).2.tidy := by
  unfold ticketsNeeded
  split
  · exact hd
  · split
    · exact hd
    · split
      · exact hd
      · split
        · rename_i e
          exact tidy_snd e (ticketsCheck_tidy hd)
        · rename_i e1
          exact tidy_snd e1 (ticketsCheck_tidy hd)

theorem ticketsAny_tidy {c : Cmd} {strict : Bool} {f : Nat} {b : Bytes} {got : List Nat} {d : Dev} (hd : d.tidy) :
    (ticketsAny c strict f b got d).2.tidy := by
  induction f generalizing b got d with
  | zero => exact hd
  | succ f ih =>
    unfold ticketsAny
    split
    · exact hd
    · split
      · split
        · exact ticketFree_tidy hd
        · exact hd
      · split
        · rename_i e
          exact ih (tidy_snd e (ticketCheck_tidy hd))
        · rename_i e
          have hd1 := tidy_snd e (ticketCheck_tidy hd)
          split
          · exact ticketFree_tidy hd1
          · exact ih hd1

theorem ticketStep_tidy {c : Cmd} {k : KeyRec} {d : Dev} (hd : d.tidy) : (ticketStep c k d).2.tidy := by
  unfold ticketStep
  split
  · extract_lets
    split
    · rename_i e
      exact tidy_snd e (ticketsNeeded_tidy hd)
    · rename_i e1
      exact tidy_snd e1 (ticketsNeeded_tidy hd)
  · exact ticketsAny_tidy hd
  · exact snd_ite (ticketsAny_tidy hd) hd
  · split
    · rename_i e2
      exact tidy_snd e2 (ticketsNeeded_tidy hd)
    · rename_i d1 e3
      have hd1 : d1.tidy := tidy_snd e3 (ticketsNeeded_tidy hd)
      exact snd_ite hd1 (ticketFree_tidy hd1)
  · split
    · exact hd
    · split
      · rename_i e4
        exact tidy_snd e4 (ticketsNeeded_tidy hd)
      · rename_i e5
        exact tidy_snd e5 (ticketsNeeded_tidy hd)

theorem resumeUsage_tidy {n : Nat} {d : Dev} (hd : d.tidy) : (resumeUsage n d).tidy := by
  unfold resumeUsage
  split
  · exact tidy_ite (tidy_ite (modKey_tidy hd) (modRec_tidy (modKey_tidy hd))) hd
  · exact hd

theorem admitUse_tidy {n : Nat} {d : Dev} (hd : d.tidy) : (admitUse n d).tidy := by
  unfold admitUse
  extract_lets
  split
  · exact trivial
  · refine ite_of Admit.tidy (countAdmitted_tidy (resumeUsage_tidy hd)) ?_
    extract_lets
    exact ite_of Admit.tidy trivial (ite_of Admit.tidy (countAdmitted_tidy (resumeUsage_tidy hd))
      (ite_of Admit.tidy (countAdmitted_tidy (resumeUsage_tidy hd)) (ite_of Admit.tidy trivial (askUsage_tidy (resumeUsage_tidy hd)))))

theorem unadmit_tidy {c : Cmd} {d : Dev} (hd : d.tidy) : (unadmit c d).tidy := tidy_foldl (fun _ _ => leave_tidy) hd

theorem noticeEnded_tidy {h : Nat} {d : Dev} (hd : d.tidy) : (noticeEnded h d).tidy := by
  unfold noticeEnded
  split
  · exact tidy_ite (modKey_tidy hd) hd
  · exact hd

theorem polHandle_tidy {hs : List T1Hit} {c : Cmd} {second : Bool} {h : Nat} {d : Dev} (hd : d.tidy) :
    (polHandle hs c second h d).tidy := by
  unfold polHandle
  extract_lets
  refine ite_of PolOut.tidy hd ?_
  extract_lets
  split
  rename_i d1 e
  have hd1 : d1.tidy := tidy_snd e (snd_ite (t1Read_tidy hd) hd)
  extract_lets _ _ use
  have huse : use.tidy := ite_of Admit.tidy hd1 (admitUse_tidy hd1)
  split
  · exact noticeEnded_tidy (unadmit_tidy hd1)
  · refine ite_of PolOut.tidy hd1 ?_
    clear_value use
    split
    · exact huse
    · extract_lets tickets
      have htickets : tickets.2.tidy := snd_ite hd1 (ticketStep_tidy hd1)
      clear_value tickets
      split
      · exact unadmit_tidy htickets
      · exact unadmit_tidy htickets
      · extract_lets
        refine ite_of PolOut.tidy htickets ?_
        split
        · rename_i e1
          exact of_eq Admit.tidy e1 (admitUse_tidy htickets)
        · exact unadmit_tidy htickets

theorem policyRun_tidy {hs : List T1Hit} {c : Cmd} {d : Dev} (hd : d.tidy) : (policyRun hs c d).tidy := by
  unfold policyRun
  extract_lets
  refine ite_of PolOut.tidy ?_ (ite_of PolOut.tidy ?_ (ite_of PolOut.tidy (polHandle_tidy hd) hd))
  · split
    · rename_i d1 e
      have hd1 : d1.tidy := of_eq PolOut.tidy e (polHandle_tidy hd)
      split
      · rename_i d2 e1
        have hd2 : d2.tidy := of_eq PolOut.tidy e1 (ite_of PolOut.tidy (polHandle_tidy hd1) hd1)
        exact ticketFree_tidy (unadmit_tidy hd2)
      · exact ite_of PolOut.tidy (polHandle_tidy hd1) hd1
    · exact polHandle_tidy hd
  · split
    · rename_i e2
      exact tidy_snd e2 (ticketStep_tidy hd)
    · rename_i e3
      exact tidy_snd e3 (ticketStep_tidy hd)

/-! ## The stages before the egress fence -/

theorem dropCmd_tidy {tag : Nat} {d : Dev} (hd : d.tidy) : (dropCmd tag d).tidy := modCmdSt_tidy hd

theorem holdCmd_tidy {c : Cmd} {r : Result} {d : Dev} (hd : d.tidy) : (holdCmd c r d).tidy := putCmd_tidy hd

theorem failCmd_tidy {c : Cmd} {e : Denial} {d : Dev} (hd : d.tidy) : (failCmd c e d).tidy := holdCmd_tidy hd

theorem setQ_tidy {inst q : Nat} {f : Fld} {v : Nat} {d : Dev} (hd : d.tidy) : (setQ inst q f v d).tidy := setFld_tidy hd

theorem setTail_tidy {inst q v : Nat} {d : Dev} (hd : d.tidy) : (setTail inst q v d).tidy := modCmdSt_tidy hd

theorem setHead_tidy {inst q v : Nat} {d : Dev} (hd : d.tidy) : (setHead inst q v d).tidy := modCmdSt_tidy hd

theorem sqError_tidy {inst q err : Nat} {d : Dev} (hd : d.tidy) : (sqError inst q err d).tidy := raiseEv_tidy (setQ_tidy (setQ_tidy hd))

theorem cqError_tidy {inst q err : Nat} {d : Dev} (hd : d.tidy) : (cqError inst q err d).tidy := raiseEv_tidy (setQ_tidy (setQ_tidy hd))

theorem roundBegin_tidy {inst : Nat} {d : Dev} (hd : d.tidy) : (roundBegin inst d).tidy := modCmdSt_tidy hd

theorem takeTurn_tidy {inst q : Nat} {d : Dev} (hd : d.tidy) : (takeTurn inst q d).tidy := modCmdSt_tidy
    (tidy_ite (roundBegin_tidy hd) hd)

theorem pumpReads_tidy {l : Nat} {d : Dev} (hd : d.tidy) : (pumpReads l d).tidy := emitAll_tidy (modCmdSt_tidy hd)

theorem hostRead_tidy {inst : Nat} {tag : Option Nat} {what : ReadFor} {segs : List (Nat × Nat)} {d : Dev} (hd : d.tidy) :
    (hostRead inst tag what segs d).tidy := by
  unfold hostRead
  split
  · exact hd
  · exact pumpReads_tidy (modCmdSt_tidy hd)

theorem fetchGo_tidy {inst q : Nat} {d : Dev} (hd : d.tidy) : (fetchGo inst q d).tidy := tidy_ite (takeTurn_tidy (hostRead_tidy hd)) hd

theorem takeEntry_tidy {inst q cq : Nat} {b : Bytes} {d : Dev} (hd : d.tidy) : (takeEntry inst q cq b d).tidy :=
  wrapFld_tidy (modCmdSt_tidy hd)

theorem dropFetches_tidy {p : HRead → Bool} {d : Dev} (hd : d.tidy) : (dropFetches p d).tidy := modCmdSt_tidy hd

theorem fetchDone_tidy {inst q cq n : Nat} {live : Bool} {data : HostData} {d : Dev} (hd : d.tidy) :
    (fetchDone inst q cq n live data d).tidy := by
  unfold fetchDone
  split
  · exact sqError_tidy (dropFetches_tidy hd)
  · exact tidy_foldl (fun _ _ => takeEntry_tidy) (tidy_ite (setQ_tidy hd) hd)

theorem fetchDrain_tidy {inst q f : Nat} {d : Dev} (hd : d.tidy) : (fetchDrain inst q f d).tidy := by
  induction f generalizing d with
  | zero => exact hd
  | succ f ih =>
    unfold fetchDrain
    split
    · split
      · exact ih (fetchDone_tidy (modCmdSt_tidy hd))
      · exact hd
    · exact hd

theorem dropReads_tidy {tag : Nat} {d : Dev} (hd : d.tidy) : (dropReads tag d).tidy := modCmdSt_tidy hd

theorem failRead_tidy {c : Cmd} {e : Denial} {d : Dev} (hd : d.tidy) : (failRead c e d).tidy := dropReads_tidy (failCmd_tidy hd)

theorem readsFinish_tidy {c : Cmd} {d : Dev} (hd : d.tidy) : (readsFinish c d).tidy := by
  unfold readsFinish
  split
  · split
    · exact holdCmd_tidy hd
    · exact putCmd_tidy hd
  · exact hd

theorem readOn_tidy {c : Cmd} {what : ReadFor} {segs : List (Nat × Nat)} {d : Dev} (hd : d.tidy) : (readOn c what segs d).tidy :=
  tidy_ite (hostRead_tidy (putCmd_tidy hd)) (failRead_tidy hd)

theorem dataDone_tidy {r : HRead} {c : Cmd} {data : HostData} {d : Dev} (hd : d.tidy) : (dataDone r c data d).tidy := by
  unfold dataDone
  split
  · exact failRead_tidy hd
  · split
    · split
      · exact failRead_tidy hd
      · exact tidy_ite (tidy_ite (readsFinish_tidy (putCmd_tidy hd)) (readOn_tidy hd)) (readOn_tidy hd)
    · split
      · exact failRead_tidy hd
      · exact tidy_ite (readsFinish_tidy (putCmd_tidy hd)) (readOn_tidy hd)
    · exact readsFinish_tidy (putCmd_tidy hd)
    · exact readsFinish_tidy (putCmd_tidy hd)
    · exact readsFinish_tidy (putCmd_tidy hd)
    · exact hd

theorem readEnd_tidy {r : HRead} {data : HostData} {d : Dev} (hd : d.tidy) : (readEnd r data d).tidy := by
  unfold readEnd
  extract_lets
  split
  · exact modCmdSt_tidy hd
  · split
    · exact fetchDrain_tidy (modCmdSt_tidy hd)
    · split
      · exact dataDone_tidy (modCmdSt_tidy hd)
      · exact modCmdSt_tidy hd
    · exact modCmdSt_tidy hd

theorem readDone_tidy {id : Nat} {data : HostData} {d : Dev} (hd : d.tidy) : (readDone id data d).tidy := by
  unfold readDone
  split
  · exact hd
  · refine pumpReads_tidy ?_
    split
    · exact tidy_ite (readEnd_tidy hd) (modCmdSt_tidy hd)
    · exact readEnd_tidy hd

theorem startReads_tidy {c : Cmd} {d : Dev} (hd : d.tidy) : (startReads c d).tidy :=
  tidy_ite (failCmd_tidy hd) (readsFinish_tidy (tidy_foldl (fun _ _ => hostRead_tidy) (putCmd_tidy hd)))

theorem parseGo_tidy {c0 : Cmd} {d : Dev} (hd : d.tidy) : (parseGo c0 d).tidy := by
  unfold parseGo
  split
  · exact hd
  · split
    · exact jobBoundary_tidy (failCmd_tidy hd)
    · split
      · exact hd
      · split
        · exact hd
        · refine jobBoundary_tidy ?_
          split
          · exact holdCmd_tidy hd
          · exact tidy_ite (failCmd_tidy hd) (tidy_ite (failCmd_tidy hd) (startReads_tidy hd))

theorem ringSweep_tidy {d : Dev} (hd : d.tidy) : (ringSweep d).tidy := tidy_foldl (fun _ _ => failCmd_tidy) hd

theorem toRing_tidy {c : Cmd} {d : Dev} (hd : d.tidy) : (toRing c d).tidy := ringSweep_tidy (putCmd_tidy hd)

theorem policyGo_tidy {err : KeyErr} {c : Cmd} {d : Dev} (hd : d.tidy) : (policyGo err c d).tidy := by
  unfold policyGo
  split
  · exact holdCmd_tidy hd
  · split
    · exact failCmd_tidy hd
    · split
      · rename_i e
        exact failCmd_tidy (of_eq PolOut.tidy e (policyRun_tidy hd))
      · rename_i e1
        exact of_eq PolOut.tidy e1 (policyRun_tidy hd)
      · rename_i d1 e2
        have hd1 : d1.tidy := of_eq PolOut.tidy e2 (policyRun_tidy hd)
        exact tidy_ite (putCmd_tidy hd1) (toRing_tidy hd1)

theorem routeGo_tidy {c : Cmd} {d : Dev} (hd : d.tidy) : (routeGo c d).tidy := by
  unfold routeGo
  split
  · exact hd
  · extract_lets tail
    split
    · rename_i e
      exact raiseEv_tidy (putCmd_tidy (wrapFld_tidy (setFld_tidy (tidy_snd e (memStore2_tidy hd)))))
    · rename_i e
      exact failCmd_tidy (tidy_snd e (memStore2_tidy hd))

theorem takeGo_tidy {i : Nat} {d : Dev} (hd : d.tidy) : (takeGo i d).tidy := by
  unfold takeGo
  extract_lets
  split
  · exact ringSweep_tidy hd
  · split
    · exact ringSweep_tidy hd
    · exact tidy_ite (putCmd_tidy (ringSweep_tidy hd)) (modUnit_tidy (putCmd_tidy (ringSweep_tidy hd)))

theorem freeUnits_tidy {tag : Nat} {d : Dev} (hd : d.tidy) : (freeUnits tag d).tidy := by
  unfold freeUnits
  extract_lets
  exact tidy_foldl (fun _ _ h => tidy_ite h (jobBoundary_tidy h)) (tidy_with (settleEnded_tidy hd))

theorem failTaken_tidy {c : Cmd} {e : Denial} {d : Dev} (hd : d.tidy) : (failTaken c e d).tidy := freeUnits_tidy (failCmd_tidy hd)

theorem keyNever_tidy {n : Nat} {d : Dev} (hd : d.tidy) : (keyNever n d).tidy := by
  unfold keyNever
  extract_lets d1
  have hd1 : d1.tidy := tidy_foldl (fun _ _ => failTaken_tidy) hd
  exact tidy_with hd1

theorem loadKeys_tidy {hs : List T1Hit} {ns : List Nat} {d : Dev} (hd : d.tidy) : (loadKeys hs ns d).2.tidy := by
  unfold loadKeys
  refine snd_foldl (fun _ _ h => ?_) hd
  split
  · exact h
  · split
    · rename_i e
      exact of_eq Load.tidy e (t0Load_tidy h)
    · rename_i e1
      exact of_eq Load.tidy e1 (t0Load_tidy h)
    · rename_i e2
      exact keyNever_tidy (of_eq Load.tidy e2 (t0Load_tidy h))

theorem fetchSlots_tidy {err : KeyErr} {ns : List Nat} {d : Dev} (hd : d.tidy) : (fetchSlots err ns d).2.tidy := by
  unfold fetchSlots
  extract_lets
  split
  rename_i d1 e
  have hd1 : d1.tidy := tidy_snd e (loadKeys_tidy (tidy_foldl (fun _ _ => quarantine_tidy) hd))
  exact tidy_ite (wrapFld_tidy hd1) hd1

theorem fetchKey_tidy {err : KeyErr} {c : Cmd} {d : Dev} (hd : d.tidy) : (fetchKey err c d).tidy := by
  unfold fetchKey
  split
  · exact hd
  · split
    rename_i d1 e
    have hd1 : d1.tidy := tidy_snd e (fetchSlots_tidy hd)
    split
    · exact tidy_ite hd1 (putCmd_tidy hd1)
    · exact hd1

theorem demandLoad_tidy {dmg : VaultDamage} {n : Nat} {d : Dev} (hd : d.tidy) : (demandLoad dmg n d).tidy := by
  unfold demandLoad
  split
  · exact tidy_foldl (fun _ _ => vaultRestore_tidy) (vaultRestore_tidy (wrapFld_tidy hd))
  · exact hd

theorem wrapPair_tidy {p : Nat} {lo hi : Fld} {n : Nat} {d : Dev} (hd : d.tidy) : (wrapPair p lo hi n d).tidy := setFld_tidy
    (setFld_tidy hd)

theorem blkAdd_tidy {p n : Nat} {d : Dev} (hd : d.tidy) : (blkAdd p n d).tidy := wrapPair_tidy hd

theorem unitCount_tidy {i : Nat} {c : Cmd} {chk : Nat} {r : Result} {d : Dev} (hd : d.tidy) : (unitCount i c chk r d).tidy := by
  unfold unitCount
  split
  · exact hd
  · extract_lets _ _ d1 d2
    have hd1 : d1.tidy := satFld_tidy (wrapPair_tidy (satFld_tidy hd))
    have hd2 : d2.tidy := tidy_ite (satFld_tidy (blkAdd_tidy (satFld_tidy hd)))
      (tidy_ite (satFld_tidy (blkAdd_tidy (satFld_tidy hd))) (tidy_ite (blkAdd_tidy hd1) hd1))
    exact jobBoundary_tidy hd2

theorem unitFault_tidy {i : Nat} {d : Dev} (hd : d.tidy) : (unitFault i d).tidy :=
  tidy_ite hd (ringSweep_tidy (record_tidy (raiseEv_tidy (setFld_tidy (modUnit_tidy hd)))))

theorem discardRuns_tidy {i n : Nat} {op : OpFn} {c : Cmd} {d : Dev} (hop : ∀ c d, d.tidy → (op c d).tidy) (hd : d.tidy) :
    (discardRuns i op c n d).tidy := by
  induction n generalizing d with
  | zero => exact hd
  | succ n ih =>
    unfold discardRuns
    refine ite_of OpOut.tidy hd ?_
    split
    · rename_i e
      exact of_eq OpOut.tidy e (hop _ _ hd)
    · exact ih (tidy_with hd)

theorem runChecked_tidy {i chk : Nat} {op : OpFn} {c : Cmd} {d : Dev} (hop : ∀ c d, d.tidy → (op c d).tidy) (hd : d.tidy) :
    (runChecked i chk op c d).tidy := by
  refine opReads_tidy ?_
  split
  · rename_i e
    exact of_eq OpOut.tidy e (discardRuns_tidy hop hd)
  · rename_i d1 e
    have hd1 : d1.tidy := of_eq OpOut.tidy e (discardRuns_tidy hop hd)
    exact ite_of OpOut.tidy hd1 (hop _ _ hd1)

theorem runGo_tidy {c : Cmd} {chk : Nat} {op : OpFn} {d : Dev} (hop : ∀ y x, x.tidy → (op y x).tidy) (hd : d.tidy) :
    (runGo c chk op d).tidy := by
  unfold runGo
  extract_lets
  split
  · rename_i e
    exact of_eq OpOut.tidy e (runChecked_tidy hop hd)
  · rename_i d1 e1
    have hd1 : d1.tidy := of_eq OpOut.tidy e1 (runChecked_tidy hop hd)
    exact freeUnits_tidy (tidy_ite (unitFault_tidy (unitCount_tidy (holdCmd_tidy hd1))) (unitCount_tidy (holdCmd_tidy hd1)))

theorem runOp_tidy {tag : Nat} {ops : List Nat} {chk : Nat} {op : OpFn} {d : Dev} (hop : ∀ y x, x.tidy → (op y x).tidy) (hd : d.tidy) :
    (runOp tag ops chk op d).tidy := by
  unfold runOp
  split
  · exact tidy_ite (runGo_tidy hop hd) hd
  · exact hd

theorem serveOp_tidy {tag : Nat} {ops : Nat → Bool} {op : OpFn} {d : Dev} (hop : ∀ y x, x.tidy → (op y x).tidy) (hd : d.tidy) :
    (serveOp tag ops op d).tidy := by
  unfold serveOp
  split
  · split
    · split
      · rename_i e
        exact of_eq OpOut.tidy e (opReads_tidy (hop _ _ hd))
      · rename_i d1 e1
        have hd1 : d1.tidy := of_eq OpOut.tidy e1 (opReads_tidy (hop _ _ hd))
        split
        · exact putCmd_tidy hd1
        · exact hd1
    · exact hd
  · exact hd

/-! ## The egress fence -/

theorem createKey_tidy {k : KeyRec} {cls inst life : Nat} {d : Dev} (hd : d.tidy) : (createKey k cls inst life d).tidy := by
  unfold createKey
  extract_lets
  refine ite_of FenceOut.tidy trivial (ite_of FenceOut.tidy trivial ?_)
  split
  · exact ite_of FenceOut.tidy trivial trivial
  · exact trivial
  · exact placeKey_tidy hd

theorem destroyKey_tidy {n : Nat} {d : Dev} (hd : d.tidy) : (destroyKey n d).tidy := by
  unfold destroyKey
  split
  · exact hd
  · extract_lets
    exact tidy_ite (tidy_foldl (fun _ _ => vaultQueueBody_tidy) (vaultQueueRec_tidy (modKey_tidy (freeRec_tidy hd))))
      (modKey_tidy (freeRec_tidy hd))

theorem changeRec_tidy {n : Nat} {f : KeyRec → KeyRec} {d : Dev} (hd : d.tidy) : (changeRec n f d).tidy := by
  unfold changeRec
  split
  · exact placeKey_tidy hd
  · exact hd

theorem addGrant_tidy {n : Nat} {g : Grantee} {k : KeyRec} {d : Dev} (hd : d.tidy) : (addGrant n g k d).tidy := by
  unfold addGrant
  extract_lets
  refine ite_of FenceOut.tidy trivial (ite_of FenceOut.tidy trivial
    (ite_of FenceOut.tidy (placeKey_tidy hd) (ite_of FenceOut.tidy trivial ?_)))
  split
  · exact ite_of FenceOut.tidy trivial trivial
  · exact placeKey_tidy hd

theorem nonceTo_tidy {n v : Nat} {d : Dev} (hd : d.tidy) : (nonceTo n v d).tidy := tidy_ite hd (modRec_tidy hd)

theorem pointerTo_tidy {n v : Nat} {d : Dev} (hd : d.tidy) : (pointerTo n v d).tidy := by
  unfold pointerTo
  split
  · exact modKey_tidy hd
  · exact hd

theorem applyEffect_tidy {op : Nat} {e : Effect} {d : Dev} (hd : d.tidy) : (applyEffect op e d).tidy := by
  unfold applyEffect
  split
  · exact createKey_tidy hd
  · split
    · exact trivial
    · exact ite_of FenceOut.tidy trivial (destroyKey_tidy hd)
  · split
    · exact trivial
    · extract_lets
      refine ite_of FenceOut.tidy trivial ?_
      split
      · exact trivial
      · exact changeRec_tidy hd
  · split
    · exact trivial
    · exact ite_of FenceOut.tidy trivial (addGrant_tidy hd)
  · split
    · exact trivial
    · exact ite_of FenceOut.tidy hd (ite_of FenceOut.tidy trivial (changeRec_tidy hd))
  · split
    · exact hd
    · exact ite_of FenceOut.tidy hd (ite_of FenceOut.tidy trivial (changeRec_tidy hd))
  · exact tidy_ite (nonceTo_tidy hd) hd
  · exact ite_of FenceOut.tidy hd (ite_of FenceOut.tidy trivial (tidy_ite (pointerTo_tidy (nonceTo_tidy hd)) (nonceTo_tidy hd)))
  · exact redeemChallenge_tidy hd
  · split
    · refine ite_of FenceOut.tidy hd (ite_of FenceOut.tidy trivial ?_)
      extract_lets
      split
      · exact ite_of FenceOut.tidy trivial trivial
      · exact placeKey_tidy hd
    · exact hd

theorem applyAll_tidy {op : Nat} {l : List Effect} {d : Dev} (hd : d.tidy) : (applyAll op l d).tidy := by
  induction l generalizing d with
  | nil => exact hd
  | cons x l ih =>
    unfold applyAll
    split
    · trivial
    · trivial
    · rename_i d1 h e
      have hd1 : d1.tidy := of_eq FenceOut.tidy e (applyEffect_tidy hd)
      split
      · rename_i d2 hs e1
        have hd2 : Changes.tidy (.done d2 hs) := of_eq Changes.tidy e1 (ih hd1)
        exact hd2
      · exact ih hd1

theorem writeSegs_tidy {l n : Nat} {segs : List (Nat × Nat)} {b : Bytes} {d : Dev} (hd : d.tidy) : (writeSegs l n segs b d).tidy := by
  induction segs generalizing b d with
  | nil => exact hd
  | cons x rest ih => exact tidy_ite hd (ih (emitAll_tidy hd))

theorem writeOut_tidy {c : Cmd} {off : Nat} {b : Bytes} {d : Dev} (hd : d.tidy) : (writeOut c off b d).tidy := by
  unfold writeOut
  split
  · exact hd
  · split
    · exact hd
    · exact tidy_ite hd (writeSegs_tidy hd)

theorem coalSend_tidy {inst q : Nat} {d : Dev} (hd : d.tidy) : (coalSend inst q d).tidy := signalInst_tidy (modCmdSt_tidy hd)

theorem coalCheck_tidy {inst q : Nat} {d : Dev} (hd : d.tidy) : (coalCheck inst q d).tidy := tidy_ite (coalSend_tidy hd) hd

theorem coalCount_tidy {inst q : Nat} {d : Dev} (hd : d.tidy) : (coalCount inst q d).tidy := coalCheck_tidy (modCmdSt_tidy hd)

theorem postCqe_tidy {c : Cmd} {r : Result} {d : Dev} (hd : d.tidy) : (postCqe c r d).tidy := by
  unfold postCqe
  split
  · exact hd
  · split
    · exact hd
    · split
      · exact cqError_tidy hd
      · extract_lets _ _ _ _ _ _ _ d1
        have hd1 : d1.tidy := tidy_ite (setQ_tidy (setQ_tidy (emitAll_tidy hd))) (setQ_tidy (emitAll_tidy hd))
        exact tidy_ite (satFld_tidy (wrapFld_tidy hd1)) (coalCount_tidy (satFld_tidy (wrapFld_tidy hd1)))

theorem countUses_tidy {c : Cmd} {d : Dev} (hd : d.tidy) : (countUses c d).tidy :=
  tidy_foldl (fun _ _ h => leave_tidy (countUse_tidy h)) hd

theorem discardCmd_tidy {c : Cmd} {d : Dev} (hd : d.tidy) : (discardCmd c d).tidy :=
  dropReads_tidy (freeUnits_tidy (dropCmd_tidy (ticketFree_tidy (tidy_foldl (fun _ _ => leave_tidy) hd))))

theorem settleTickets_tidy {c : Cmd} {d : Dev} (hd : d.tidy) : (settleTickets c d).tidy :=
  tidy_foldl (fun _ _ => redeemChallenge_tidy) hd

theorem commitCmd_tidy {c : Cmd} {r : Result} {d : Dev} {x : Result × Dev} (hd : d.tidy) (e : commitCmd c r d = some x) :
    x.2.tidy := by
  unfold commitCmd at e
  obtain ⟨e, -⟩ := Option.filter_eq_some_iff.mp e
  split at e
  · cases e
  · cases e
    exact countUses_tidy (settleTickets_tidy hd)
  · rename_i e1
    cases e
    exact countUses_tidy (settleTickets_tidy (of_eq Changes.tidy e1 (applyAll_tidy hd)))

theorem outputCmd_tidy {c : Cmd} {r : Result} {d : Dev} (hd : d.tidy) : (outputCmd c r d).tidy := by
  unfold outputCmd
  extract_lets d1 d2 d3
  have hd1 : d1.tidy := writeOut_tidy hd
  have hd2 : d2.tidy := tidy_ite (writeOut_tidy hd1) (writeOut_tidy hd1)
  have hd3 : d3.tidy := by
    unfold d3
    split
    · exact tidy_ite hd2 (emitAll_tidy hd2)
    · exact hd2
  exact postCqe_tidy hd3

theorem releasePart_tidy {c : Cmd} {r : Result} {d : Dev} (hd : d.tidy) : (releasePart c r d).tidy := by
  unfold releasePart
  split
  · rename_i e
    exact putCmd_tidy (writeOut_tidy (of_eq Changes.tidy e (applyAll_tidy hd)))
  · exact hd

theorem releaseCmd_tidy {c : Cmd} {d : Dev} (hd : d.tidy) : (releaseCmd c d).tidy := by
  unfold releaseCmd
  split
  · exact hd
  · split
    · split
      · exact releasePart_tidy hd
      · split
        · exact hd
        · rename_i d1 e
          have hd1 : d1.tidy := commitCmd_tidy hd e
          exact dropCmd_tidy (tidy_ite (satFld_tidy (freeUnits_tidy hd1)) (outputCmd_tidy (freeUnits_tidy hd1)))
    · exact hd

theorem nonceRaiseGo_tidy {n : Nat} {d : Dev} (hd : d.tidy) : (nonceRaiseGo n d).tidy := by
  unfold nonceRaiseGo
  split
  · extract_lets
    exact tidy_ite hd (tidy_ite (vaultQueue_tidy (modKey_tidy (modRec_tidy hd))) (modKey_tidy (modRec_tidy hd)))
  · exact hd

theorem usageRaiseGo_tidy {n : Nat} {d : Dev} (hd : d.tidy) : (usageRaiseGo n d).tidy := by
  unfold usageRaiseGo
  split
  · exact tidy_ite hd (tidy_ite (modKey_tidy hd) (vaultQueue_tidy (modKey_tidy (modRec_tidy hd))))
  · exact hd

theorem takeCompletion_tidy {b : Bytes} {tag : Option Nat} {d : Dev} (hd : d.tidy) : (takeCompletion b tag d).tidy := by
  unfold takeCompletion
  split
  · exact holdCmd_tidy hd
  · exact raiseEv_tidy (satFld_tidy hd)

/-- What the empty fuel keeps, and each unit of it, a recursion on its fuel keeps: `rcqConsume` as it is defined, since its equations
cost the kernel too much. -/
theorem brecOn_tidy {F : (n : Nat) → Nat.below (motive := fun _ => Dev → Dev) n → Dev → Dev}
    (h0 : ∀ b d, d.tidy → (F 0 b d).tidy)
    (hs : ∀ n b, (∀ d : Dev, d.tidy → (b.1 d).tidy) → ∀ d, d.tidy → (F (n + 1) b d).tidy)
    (n : Nat) {d : Dev} (hd : d.tidy) : (Nat.brecOn (motive := fun _ => Dev → Dev) n F d).tidy := by
  induction n generalizing d with
  | zero => exact h0 _ d hd
  | succ n ih => exact hs n _ (fun _ h => ih h) d hd

theorem rcqConsume_tidy {n : Nat} {d : Dev} (hd : d.tidy) : (rcqConsume n d).tidy := by
  delta rcqConsume
  refine brecOn_tidy (F := rcqConsume._f) (fun _ _ h => h) (fun n _ ih d hd => ?_) n hd
  unfold rcqConsume._f
  change (ite (fld d pgCMD Reg.CMD_RCQ_HEAD_HEAD = fld d pgCMD Reg.CMD_RCQ_TAIL_TAIL) d _).tidy
  split
  · exact hd
  · split
    rename_i e
    exact ih _ (setFld_tidy (takeCompletion_tidy (tidy_snd3 e (memFetch2_tidy hd))))

theorem routedTimeoutGo_tidy {c : Cmd} {d : Dev} (hd : d.tidy) : (routedTimeoutGo c d).tidy :=
  tidy_ite (raiseEv_tidy (failCmd_tidy (waitUntil_tidy hd))) hd

/-! ## The judgement of a register write -/

theorem settle_tidy {p : Nat} {d : Dev} (hd : d.tidy) : (settle p d).tidy := tidy_ite hd (jobBoundary_tidy hd)

theorem recordFirst_tidy {codes : List Nat} {a : Access} {p off : Nat} {d : Dev} (hd : d.tidy) : (recordFirst codes a p off d).tidy :=
  tidy_ite (denyWorld_tidy hd) (tidy_ite (countViol_tidy (regErr_tidy hd)) (tidy_ite (regErr_tidy hd) (tidy_ite (regErr_tidy hd) hd)))

theorem putField_tidy {page off v : Nat} {run : Bool} {f : Fld} {d : Dev} (hd : d.tidy) : (putField page off v run f d).tidy := by
  unfold putField
  extract_lets
  split
  · exact hd
  · exact hd
  · exact regPut_tidy hd
  · exact regPut_tidy hd
  · exact tidy_ite (tidy_with hd) (regPut_tidy hd)
  · exact tidy_ite (tidy_with hd) (regPut_tidy hd)

theorem judgeFields_tidy {k : PageKind} {a : Access} {p off v : Nat} {d : Dev} (hd : d.tidy) : (judgeFields k a p off v d).d.tidy :=
  recordFirst_tidy (tidy_foldl (fun _ _ => putField_tidy) hd)

theorem writeStat_tidy {p v : Nat} {d : Dev} (hd : d.tidy) : (writeStat p v d).tidy := tidy_ite (modHdr_tidy hd) hd

theorem writeWorld_tidy {k : PageKind} {a : Access} {p v : Nat} {d : Dev} (hd : d.tidy) : (writeWorld k a p v d).tidy :=
  tidy_ite hd (tidy_ite (countViol_tidy (regErr_tidy hd)) (tidy_ite (regErr_tidy hd) (modHdr_tidy hd)))

theorem judgePlain_tidy {k : PageKind} {a : Access} {p off v : Nat} {d : Dev} (hd : d.tidy) : (judgePlain k a p off v d).d.tidy := by
  unfold judgePlain
  split
  · exact writeStat_tidy hd
  · split
    · exact tidy_ite (modHdr_tidy hd) hd
    · split
      · exact tidy_ite (modHdr_tidy hd) hd
      · split
        · exact writeWorld_tidy hd
        · split
          · exact hd
          · exact judgeFields_tidy hd

theorem admitWrite_tidy {a : Access} {p off : Nat} {d : Dev} (hd : d.tidy) : (admitWrite a p off d).2.tidy := by
  unfold admitWrite
  split
  · exact snd_ite hd (snd_ite (denyWorld_tidy hd) (snd_ite (denyWorld_tidy hd) hd))
  · exact countViol_tidy hd
  · exact hd

theorem judge_tidy {a : Access} {p off v : Nat} {d : Dev} (hd : d.tidy) : (judge a p off v d).d.tidy := by
  unfold judge
  split
  · rename_i e
    exact judgePlain_tidy (tidy_snd e (admitWrite_tidy hd))
  · rename_i e1
    exact tidy_snd e1 (admitWrite_tidy hd)

/-! ## Instances -/

theorem modInst_tidy {i : Nat} {f : Inst → Inst} {d : Dev} (hd : d.tidy) : (modInst i f d).tidy := tidy_with hd

theorem modMgr_tidy {f : MgrSt → MgrSt} {d : Dev} (hd : d.tidy) : (modMgr f d).tidy := tidy_with hd

theorem mgrEvent_tidy {kind i : Nat} {d : Dev} (hd : d.tidy) : (mgrEvent kind i d).tidy :=
  tidy_ite (modMgr_tidy hd) (raiseEv_tidy (modMgr_tidy hd))

theorem instTo_tidy {i : Nat} {st : InstRun} {d : Dev} (hd : d.tidy) : (instTo i st d).tidy := by
  unfold instTo
  split
  · exact hd
  · exact tidy_ite (mgrEvent_tidy (modInst_tidy hd)) (raiseEv_tidy (mgrEvent_tidy (modInst_tidy hd)))

theorem quiesceStep_tidy {i : Nat} {d : Dev} (hd : d.tidy) : (quiesceStep i d).tidy := tidy_ite (instTo_tidy hd) hd

theorem negotiate_tidy {i : Nat} {d : Dev} (hd : d.tidy) : (negotiate i d).tidy := tidy_ite hd (setFld_tidy (setFld_tidy hd))

theorem pypSync_tidy {was d : Dev} (hd : d.tidy) : (pypSync was d).tidy := tidy_ite hd (tidy_foldl (fun _ _ => negotiate_tidy) hd)

theorem instStart_tidy {i : Nat} {d : Dev} (hd : d.tidy) : (instStart i d).tidy :=
  tidy_ite (instTo_tidy (modInst_tidy (negotiate_tidy hd))) (modInst_tidy (negotiate_tidy hd))

theorem clearRegs_tidy {p lo hi : Nat} {d : Dev} (hd : d.tidy) : (clearRegs p lo hi d).tidy := keepWords_tidy hd

theorem sqFresh_tidy {i q : Nat} {d : Dev} (hd : d.tidy) : (sqFresh i q d).tidy :=
  setTail_tidy (setQ_tidy (setQ_tidy (setQ_tidy (modCmdSt_tidy hd))))

theorem cqFresh_tidy {i q : Nat} {d : Dev} (hd : d.tidy) : (cqFresh i q d).tidy :=
  modCmdSt_tidy (setQ_tidy (setQ_tidy (setQ_tidy (setQ_tidy hd))))

theorem writeSqCfg_tidy {a : Access} {i q v : Nat} {d : Dev} (hd : d.tidy) : (writeSqCfg a i q v d).tidy := by
  unfold writeSqCfg
  extract_lets _ codes _ d1 d2 _ d3
  have hd1 : d1.tidy := by
    unfold d1
    clear_value codes
    split
    · exact regErr_tidy hd
    · exact hd
  have hd2 : d2.tidy := tidy_ite hd1 (setQ_tidy hd1)
  have hd3 : d3.tidy := tidy_ite (setQ_tidy hd2) (setQ_tidy (setQ_tidy hd2))
  exact tidy_ite (setQ_tidy hd2) (tidy_ite hd3 (tidy_ite (sqFresh_tidy (setQ_tidy hd3)) (regErr_tidy hd3)))

theorem writeCqCfg_tidy {a : Access} {i q v : Nat} {d : Dev} (hd : d.tidy) : (writeCqCfg a i q v d).tidy := by
  unfold writeCqCfg
  extract_lets _ _ d1 _ d2
  have hd1 : d1.tidy := tidy_ite (regErr_tidy hd) (tidy_ite (regErr_tidy hd) hd)
  have hd2 : d2.tidy := tidy_ite (setQ_tidy (setQ_tidy (setQ_tidy hd1))) (setQ_tidy (setQ_tidy (setQ_tidy (setQ_tidy hd1))))
  exact tidy_ite (regErr_tidy hd) (tidy_ite (tidy_ite (coalCheck_tidy (setQ_tidy (setQ_tidy (setQ_tidy hd1))))
    (setQ_tidy (setQ_tidy (setQ_tidy (setQ_tidy hd1))))) (tidy_ite hd2 (tidy_ite (cqFresh_tidy (setQ_tidy hd2)) (regErr_tidy hd2))))

theorem writeBase_tidy {a : Access} {i q off : Nat} {lo hi en : Fld} {v : Nat} {d : Dev} (hd : d.tidy) :
    (writeBase a i q off lo hi en v d).tidy :=
  tidy_ite (regErr_tidy hd) (tidy_ite (setQ_tidy hd) (setQ_tidy hd))

theorem writeQueue_tidy {a : Access} {i off v : Nat} {d : Dev} (hd : d.tidy) : (writeQueue a i off v d).tidy := by
  unfold writeQueue
  extract_lets
  exact tidy_ite (regErr_tidy hd) (tidy_ite (tidy_ite (writeSqCfg_tidy hd) (tidy_ite (writeBase_tidy hd) hd))
    (tidy_ite (writeCqCfg_tidy hd) (tidy_ite (writeBase_tidy hd) hd)))

theorem writeInstMb_tidy {a : Access} {i off v : Nat} {d : Dev} (hd : d.tidy) : (writeInstMb a i off v d).tidy := by
  unfold writeInstMb
  extract_lets _ d1
  have hd1 : d1.tidy := tidy_ite (tidy_ite (regErr_tidy hd) (mgrEvent_tidy (modInst_tidy hd))) hd
  exact tidy_ite (regErr_tidy hd) (tidy_ite (tidy_ite (mgrEvent_tidy (modInst_tidy hd1)) hd1)
    (tidy_ite (regErr_tidy hd) (regPut_tidy hd)))

theorem writeInstReg_tidy {a : Access} {i off v : Nat} {d : Dev} (hd : d.tidy) : (writeInstReg a i off v d).tidy :=
  tidy_ite (writeInstMb_tidy hd) (tidy_ite (writeQueue_tidy hd) (tidy_ite (negotiate_tidy (judgePlain_tidy hd)) (judgePlain_tidy hd)))

theorem instWrite_tidy {a : Access} {i off v : Nat} {d : Dev} (hd : d.tidy) : (instWrite a i off v d).tidy := by
  unfold instWrite
  split
  · split
    · rename_i e
      exact writeInstReg_tidy (tidy_snd e (admitWrite_tidy hd))
    · rename_i e1
      exact tidy_snd e1 (admitWrite_tidy hd)
  · exact hd

theorem tailBell_tidy {i q v : Nat} {stream : Option Nat} {d : Dev} (hd : d.tidy) : (tailBell i q v stream d).tidy :=
  tidy_ite hd (tidy_ite (sqError_tidy hd) (setTail_tidy hd))

theorem headBell_tidy {i q v : Nat} {stream : Option Nat} {d : Dev} (hd : d.tidy) : (headBell i q v stream d).tidy :=
  tidy_ite hd (tidy_ite (cqError_tidy hd) (setHead_tidy hd))

theorem bellWrite_tidy {i off size v : Nat} {stream : Option Nat} {d : Dev} (hd : d.tidy) : (bellWrite i off size v stream d).tidy :=
  tidy_ite hd (tidy_ite (tailBell_tidy hd) (headBell_tidy hd))

theorem bellsClear_tidy {i : Nat} {d : Dev} (hd : d.tidy) : (bellsClear i d).tidy := modCmdSt_tidy hd

theorem instCut_tidy {i : Nat} {d : Dev} (hd : d.tidy) : (instCut i d).tidy :=
  bellsClear_tidy (clearRegs_tidy (modCmdSt_tidy (tidy_foldl (fun _ _ => discardCmd_tidy) (dropFetches_tidy hd))))

theorem funcReset_tidy {l n : Nat} {d : Dev} (hd : d.tidy) : (funcReset l n d).tidy :=
  tidy_ite (modFn_tidy hd) (tidy_ite (mgrEvent_tidy (instCut_tidy (modFn_tidy hd))) (modFn_tidy hd))

theorem instPageReset_tidy {i : Nat} {d : Dev} (hd : d.tidy) : (instPageReset i d).tidy :=
  modInst_tidy (modHdr_tidy (dropFetches_tidy (bellsClear_tidy (clearRegs_tidy hd))))

/-! ## The manager's page -/

theorem mgrEnd_tidy {code info val : Nat} {d : Dev} (hd : d.tidy) : (mgrEnd code info val d).tidy :=
  mgrEvent_tidy (modMgr_tidy (setFld_tidy (setFld_tidy (setFld_tidy hd))))

theorem mgrMb_tidy {a : Access} {off v : Nat} {d : Dev} (hd : d.tidy) : (mgrMb a off v d).tidy := by
  unfold mgrMb
  extract_lets _ _ d1
  have hd1 : d1.tidy := tidy_ite (tidy_ite (regErr_tidy hd) (raiseEv_tidy (modInst_tidy hd))) hd
  exact tidy_ite (regErr_tidy hd) (tidy_ite (tidy_ite (raiseEv_tidy (modInst_tidy hd1)) hd1) (tidy_ite (regErr_tidy hd) (regPut_tidy hd)))

theorem restoreAll_tidy {d : Dev} (hd : d.tidy) : (restoreAll d).tidy := tidy_ite (tidy_foldl (fun _ _ => demandLoad_tidy) hd) hd

theorem setQuotas_tidy {i param : Nat} {d : Dev} (hd : d.tidy) : (setQuotas i param d).tidy := modInst_tidy hd

theorem mgrAssign_tidy {i param : Nat} {d : Dev} (hd : d.tidy) : (mgrAssign i param d).tidy :=
  instTo_tidy (instPageReset_tidy (modInst_tidy (setQuotas_tidy hd)))

theorem mgrQuiesce_tidy {i : Nat} {d : Dev} (hd : d.tidy) : (mgrQuiesce i d).tidy :=
  tidy_ite (instTo_tidy (modInst_tidy hd)) (instTo_tidy (modInst_tidy hd))

theorem mgrResume_tidy {i : Nat} {d : Dev} (hd : d.tidy) : (mgrResume i d).tidy := instTo_tidy hd

theorem mgrFreeze_tidy {i : Nat} {d : Dev} (hd : d.tidy) : (mgrFreeze i d).tidy := modMgr_tidy (modInst_tidy hd)

theorem endGrantsTo_tidy {i : Nat} {d : Dev} (hd : d.tidy) : (endGrantsTo i d).tidy :=
  tidy_foldl (fun _ _ h => tidy_ite (modInst_tidy h) (changeRec_tidy h)) hd

theorem mgrThaw_tidy {i : Nat} {d : Dev} (hd : d.tidy) : (mgrThaw i d).tidy := by
  unfold mgrThaw
  extract_lets _ _ d1
  have hd1 : d1.tidy := tidy_foldl (fun _ _ h => tidy_ite (changeRec_tidy h) h) (modInst_tidy (instTo_tidy hd))
  exact tidy_ite (repairsQueue_tidy hd1) hd1

theorem destroyKeys_tidy {i : Nat} {all : Bool} {d : Dev} (hd : d.tidy) : (destroyKeys i all d).2.tidy :=
  tidy_foldl (fun _ _ => destroyKey_tidy) hd

theorem mgrReset'_tidy {i : Nat} {d : Dev} (hd : d.tidy) : (mgrReset' i d).2.tidy := by
  unfold mgrReset'
  split
  rename_i n d1 e
  have hd1 : d1.tidy := tidy_snd e (destroyKeys_tidy (endGrantsTo_tidy (instTo_tidy (modInst_tidy hd))))
  dsimp only
  exact instTo_tidy (modInst_tidy (instPageReset_tidy hd1))

theorem mgrRemove_tidy {i : Nat} {d : Dev} (hd : d.tidy) : (mgrRemove i d).2.tidy := by
  unfold mgrRemove
  split
  rename_i n d1 e
  have hd1 : d1.tidy := tidy_snd e (destroyKeys_tidy (endGrantsTo_tidy (instTo_tidy (modInst_tidy hd))))
  dsimp only
  exact instTo_tidy (modInst_tidy (instPageReset_tidy hd1))

theorem mgrDiscard_tidy {i : Nat} {d : Dev} (hd : d.tidy) : (mgrDiscard i d).2.tidy := by
  unfold mgrDiscard
  split
  rename_i e
  exact instTo_tidy (modInst_tidy (tidy_snd e (destroyKeys_tidy (endGrantsTo_tidy hd))))

theorem mgrInstCmd_tidy {op i param : Nat} {d : Dev} (hd : d.tidy) : (mgrInstCmd op i param d).tidy := by
  unfold mgrInstCmd
  split
  · exact mgrEnd_tidy (mgrAssign_tidy hd)
  · exact mgrEnd_tidy (setQuotas_tidy hd)
  · exact mgrEnd_tidy (mgrQuiesce_tidy hd)
  · exact mgrEnd_tidy (mgrResume_tidy hd)
  · exact mgrFreeze_tidy hd
  · exact mgrEnd_tidy (mgrThaw_tidy hd)
  · exact mgrEnd_tidy (instTo_tidy (modInst_tidy (instPageReset_tidy
      (tidy_foldl (fun _ _ => destroyKey_tidy) (endGrantsTo_tidy (instTo_tidy (modInst_tidy (restoreAll_tidy hd))))))))
  · extract_lets
    exact tidy_ite (mgrEnd_tidy (restoreAll_tidy hd)) (mgrEnd_tidy
      (instTo_tidy (modInst_tidy (instPageReset_tidy (tidy_foldl (fun _ _ => destroyKey_tidy)
      (endGrantsTo_tidy (instTo_tidy (modInst_tidy (restoreAll_tidy hd)))))))))
  · extract_lets
    exact tidy_ite (mgrEnd_tidy (restoreAll_tidy hd)) (mgrEnd_tidy
      (instTo_tidy (modInst_tidy (tidy_foldl (fun _ _ => destroyKey_tidy) (endGrantsTo_tidy (restoreAll_tidy hd))))))
  · exact hd

theorem freezeStep_tidy {i : Nat} {d : Dev} (hd : d.tidy) : (freezeStep i d).tidy :=
  tidy_ite (mgrEnd_tidy (instTo_tidy (modInst_tidy hd))) hd

theorem mgrAbort_tidy {code : Nat} {d : Dev} (hd : d.tidy) : (mgrAbort code d).tidy := by
  unfold mgrAbort
  split
  · exact mgrEnd_tidy (modInst_tidy hd)
  · exact hd

theorem resumeResets_tidy {d : Dev} (hd : d.tidy) : (resumeResets d).tidy :=
  tidy_ite hd (tidy_foldl (fun _ _ h => tidy_ite (mgrReset'_tidy h) (tidy_ite h (mgrRemove_tidy h))) (restoreAll_tidy hd))

theorem mgrEventRead'_tidy {d : Dev} (hd : d.tidy) : (mgrEventRead' d).2.tidy := by
  unfold mgrEventRead'
  split
  · exact hd
  · exact modMgr_tidy hd

/-! ## Migration -/

theorem xportShut_tidy {id : Nat} {d : Dev} (hd : d.tidy) : (xportShut id d).tidy := modMgr_tidy hd

theorem xportOpen_tidy {x : Xport} {d : Dev} (hd : d.tidy) : (xportOpen x d).tidy := modMgr_tidy hd

theorem mgrInput_tidy {input : HostData} {d : Dev} (hd : d.tidy) : (mgrInput input d).2.tidy := snd_ite hd (snd_ite hd (emitAll_tidy hd))

theorem mgrOutput_tidy {b : Bytes} {d : Dev} (hd : d.tidy) : (mgrOutput b d).tidy := tidy_ite hd (emitAll_tidy hd)

theorem mgrWithRoom_tidy {n : Nat} {d : Dev} {go : Dev → Dev} (hd : d.tidy) (hgo : ∀ x, x.tidy → (go x).tidy) :
    (mgrWithRoom n d go).tidy :=
  tidy_ite (mgrEnd_tidy hd) (tidy_ite (mgrEnd_tidy hd) (hgo _ hd))

theorem mgrWithRandom_tidy {n : Nat} {d : Dev} {go : Bytes → Dev → Dev} (hd : d.tidy) (hgo : ∀ y x, x.tidy → (go y x).tidy) :
    (mgrWithRandom n d go).tidy := by
  unfold mgrWithRandom
  split
  · rename_i e
    exact hgo _ _ (tidy_snd e (drawHomeless_tidy hd))
  · rename_i e1
    exact mgrEnd_tidy (tidy_snd e1 (drawHomeless_tidy hd))

theorem xportOfferGo_tidy {d : Dev} (hd : d.tidy) : (xportOfferGo d).tidy :=
  tidy_ite (mgrEnd_tidy hd) (mgrWithRoom_tidy hd (fun _ h => mgrWithRandom_tidy h
    (fun _ _ h2 => mgrEnd_tidy (mgrOutput_tidy (xportOpen_tidy h2)))))

theorem xportAcceptGo_tidy {input : HostData} {d : Dev} (hd : d.tidy) : (xportAcceptGo input d).tidy := by
  unfold xportAcceptGo
  split
  · exact mgrEnd_tidy hd
  · split
    · rename_i e
      exact mgrEnd_tidy (tidy_snd e (mgrInput_tidy hd))
    · rename_i d1 e1
      have hd1 : d1.tidy := tidy_snd e1 (mgrInput_tidy hd)
      split
      · exact mgrEnd_tidy hd1
      · split
        · exact mgrEnd_tidy hd1
        · split
          · exact mgrEnd_tidy hd1
          · extract_lets
            exact tidy_ite (mgrEnd_tidy hd1) (tidy_ite (mgrEnd_tidy hd1)
              (mgrWithRoom_tidy hd1 (fun _ h => mgrWithRandom_tidy h (fun _ _ h2 => mgrEnd_tidy (mgrOutput_tidy (xportOpen_tidy h2))))))

theorem xportCompleteGo_tidy {param : Nat} {input : HostData} {d : Dev} (hd : d.tidy) : (xportCompleteGo param input d).tidy := by
  unfold xportCompleteGo
  split
  · rename_i e
    exact mgrEnd_tidy (tidy_snd e (mgrInput_tidy hd))
  · rename_i d1 e1
    have hd1 : d1.tidy := tidy_snd e1 (mgrInput_tidy hd)
    split
    · exact mgrEnd_tidy hd1
    · split
      · exact mgrEnd_tidy hd1
      · split
        · exact mgrEnd_tidy hd1
        · split
          · exact mgrEnd_tidy hd1
          · split
            · exact mgrEnd_tidy hd1
            · split
              · exact mgrEnd_tidy hd1
              · split
                · exact mgrEnd_tidy hd1
                · exact mgrEnd_tidy (modMgr_tidy hd1)

theorem exportWrite_tidy {fmt gapLog i : Nat} {x : Xport} {ks : List (Nat × KeyRec)} {tickets : List Nat} {d : Dev} (hd : d.tidy) :
    (exportWrite fmt gapLog i x ks tickets d).tidy := by
  unfold exportWrite
  extract_lets
  split
  · exact mgrEnd_tidy (ticketFree_tidy hd)
  · split
    extract_lets
    split
    · exact mgrEnd_tidy (ticketFree_tidy hd)
    · split
      · exact mgrEnd_tidy (ticketFree_tidy hd)
      · split
        · rename_i e
          exact mgrEnd_tidy (ticketFree_tidy (tidy_snd e (drawHomeless_tidy hd)))
        · rename_i d1 e1
          have hd1 : d1.tidy := tidy_snd e1 (drawHomeless_tidy hd)
          exact mgrEnd_tidy (xportShut_tidy (modInst_tidy (mgrOutput_tidy (tidy_foldl (fun _ _ => redeemChallenge_tidy) hd1))))

theorem exportGo_tidy {v param : Nat} {input : HostData} {d : Dev} (hd : d.tidy) : (exportGo v param input d).tidy := by
  unfold exportGo
  extract_lets
  split
  · exact mgrEnd_tidy hd
  · split
    · split
      · rename_i e
        exact mgrEnd_tidy (tidy_snd e (mgrInput_tidy (restoreAll_tidy hd)))
      · rename_i d1 e1
        have hd1 : d1.tidy := tidy_snd e1 (mgrInput_tidy (restoreAll_tidy hd))
        split
        · rename_i e2
          exact mgrEnd_tidy (tidy_snd e2 (ticketsCheck_tidy hd1))
        · rename_i e3
          exact exportWrite_tidy (tidy_snd e3 (ticketsCheck_tidy hd1))
    · exact exportWrite_tidy (restoreAll_tidy hd)

theorem foldCreate_tidy {i : Nat} {k : KeyRec} {d : Dev} (hd : d.tidy) : (foldCreate i k d).2.tidy := by
  unfold foldCreate
  split
  · exact placeKey_tidy hd
  · exact hd

theorem unfoldQueues_tidy {i : Nat} {b : Bytes} {d : Dev} (hd : d.tidy) : (unfoldQueues i b d).tidy := by
  unfold unfoldQueues
  extract_lets _ d1
  have hd1 : d1.tidy := tidy_foldl (fun _ _ h => setTail_tidy (setQ_tidy (regPut_tidy (setQ_tidy (setQ_tidy h))))) hd
  exact tidy_foldl (fun _ _ h2 => setQ_tidy (setHead_tidy (setQ_tidy (regPut_tidy (setQ_tidy (setQ_tidy h2)))))) hd1

theorem unfoldMail_tidy {i : Nat} {b : Bytes} {d : Dev} (hd : d.tidy) : (unfoldMail i b d).tidy :=
  modInst_tidy (tidy_foldl (fun _ _ h => regPut_tidy (regPut_tidy h)) hd)

theorem importApply_tidy {i : Nat} {x : Xport} {fmt gap : Nat} {l : List (Nat × Bytes)} {d : Dev} (hd : d.tidy) :
    (importApply i x fmt gap l d).tidy := by
  unfold importApply
  extract_lets
  refine mgrEnd_tidy (xportShut_tidy (mgrOutput_tidy (instTo_tidy (negotiate_tidy (regPut_tidy (modInst_tidy ?_))))))
  split
  · refine tidy_foldl (fun _ _ => changeRec_tidy) (snd_foldl (fun _ _ h2 => ?_) (tidy_with hd))
    extract_lets
    split
    rename_i e
    exact tidy_snd e (foldCreate_tidy h2)
  · refine unfoldMail_tidy (unfoldQueues_tidy (tidy_foldl (fun _ _ => changeRec_tidy) (snd_foldl (fun _ _ h4 => ?_) (tidy_with hd))))
    extract_lets
    split
    rename_i e1
    exact tidy_snd e1 (foldCreate_tidy h4)

theorem importAgain_tidy {i : Nat} {x : Xport} {input : HostData} {d : Dev} (hd : d.tidy) : (importAgain i x input d).tidy := by
  unfold importAgain
  split
  · rename_i e
    exact mgrEnd_tidy (mgrRemove_tidy (tidy_snd e (mgrInput_tidy (instTo_tidy (instPageReset_tidy (modInst_tidy hd))))))
  · rename_i e
    have hd1 := tidy_snd e (mgrInput_tidy (instTo_tidy (instPageReset_tidy (modInst_tidy hd))))
    split
    · rename_i code o _
      refine mgrEnd_tidy ?_
      by_cases c : code = mgAUTH
      · rw [if_pos c]
        exact xportShut_tidy (mgrRemove_tidy hd1)
      · rw [if_neg c]
        exact mgrRemove_tidy hd1
    · exact importApply_tidy hd1

theorem importGo_tidy {v param : Nat} {input : HostData} {d : Dev} {again : Option HostData} (hd : d.tidy) :
    (importGo v param input d again).tidy := by
  unfold importGo
  extract_lets
  split
  · exact mgrEnd_tidy hd
  · split
    · rename_i e
      exact mgrEnd_tidy (tidy_snd e (mgrInput_tidy hd))
    · rename_i d1 e1
      have hd1 : d1.tidy := tidy_snd e1 (mgrInput_tidy hd)
      split
      · exact mgrEnd_tidy (tidy_ite (xportShut_tidy hd1) hd1)
      · extract_lets
        exact tidy_ite (mgrEnd_tidy (restoreAll_tidy hd1)) (tidy_ite (mgrEnd_tidy (restoreAll_tidy hd1))
          (mgrWithRoom_tidy (restoreAll_tidy hd1) (fun _ => importAgain_tidy)))

theorem mgrRun_tidy {v : Nat} {input : HostData} {d : Dev} {again : Option HostData} (hd : d.tidy) : (mgrRun v input d again).tidy := by
  unfold mgrRun
  extract_lets op
  split
  · exact mgrEnd_tidy hd
  · split
    · exact mgrEnd_tidy hd
    · split
      · exact hd
      · split
        · exact mgrEnd_tidy hd
        · split
          · exact mgrEnd_tidy hd
          · clear_value op
            split
            · exact xportOfferGo_tidy hd
            · exact xportAcceptGo_tidy hd
            · exact xportCompleteGo_tidy hd
            · exact exportGo_tidy hd
            · exact importGo_tidy hd
            · exact tidy_ite (mgrEnd_tidy (xportShut_tidy hd)) (mgrEnd_tidy hd)
            · exact mgrInstCmd_tidy hd

theorem mgrReg_tidy {a : Access} {off v : Nat} {input : HostData} {d : Dev} {again : Option HostData} (hd : d.tidy) :
    (mgrReg a off v input d again).tidy :=
  tidy_ite (tidy_ite hd (regErr_tidy hd)) (tidy_ite (tidy_ite (regErr_tidy hd) (mgrMb_tidy hd))
    (tidy_ite (mgrRun_tidy (judgePlain_tidy hd)) (judgePlain_tidy hd)))

theorem mgrWrite_tidy {a : Access} {off v : Nat} {input : HostData} {d : Dev} {again : Option HostData} (hd : d.tidy) :
    (mgrWrite a off v input d again).tidy := by
  unfold mgrWrite
  split
  · rename_i e
    exact mgrReg_tidy (tidy_snd e (admitWrite_tidy hd))
  · rename_i e1
    exact tidy_snd e1 (admitWrite_tidy hd)

theorem mgrIssue_tidy {a : Access} {op sel : Nat} {param : Option Nat} {input : HostData} {d : Dev} {again : Option HostData}
    (hd : d.tidy) : (mgrIssue a op sel param input d again).tidy := by
  refine mgrWrite_tidy ?_
  split
  · exact mgrWrite_tidy hd
  · exact hd

/-! ## The interrupt controller and the GPIO pins -/

theorem modIrq_tidy {f : IrqSt → IrqSt} {d : Dev} (hd : d.tidy) : (modIrq f d).tidy := tidy_with hd

theorem edgePut_tidy {n : Nat} {b : Bool} {d : Dev} (hd : d.tidy) : (edgePut n b d).tidy := modIrq_tidy hd

theorem monRefresh_tidy {d : Dev} (hd : d.tidy) : (monRefresh d).tidy := tidy_foldl (fun _ _ => modHart_tidy) hd

theorem bankBoundary_tidy {core : Nat} {sec : Bool} {d : Dev} (hd : d.tidy) : (bankBoundary core sec d).tidy := by
  unfold bankBoundary
  refine tidy_ite hd ?_
  extract_lets p due moved
  have hmoved : moved.tidy := tidy_foldl (fun _ _ => setWord_tidy) hd
  exact tidy_with hmoved

theorem claimRead_tidy {core : Nat} {sec : Bool} {d : Dev} (hd : d.tidy) : (claimRead core sec d).2.tidy := by
  unfold claimRead
  split
  · exact satFld_tidy hd
  · exact modHart_tidy (modIrq_tidy (edgePut_tidy hd))

theorem completeWrite_tidy {core : Nat} {sec : Bool} {n : Nat} {d : Dev} (hd : d.tidy) : (completeWrite core sec n d).tidy :=
  tidy_ite (bankBoundary_tidy (modIrq_tidy hd)) (satFld_tidy hd)

theorem releaseClaims_tidy {core : Nat} {d : Dev} (hd : d.tidy) : (releaseClaims core d).tidy := by
  unfold releaseClaims
  extract_lets _ d1
  have hd1 : d1.tidy := tidy_foldl (fun _ _ h => satFld_tidy (tidy_ite (edgePut_tidy (modIrq_tidy h)) (modIrq_tidy h))) hd
  exact tidy_ite hd (raiseEv_tidy (bankBoundary_tidy (bankBoundary_tidy hd1)))

theorem writeSrcCfg_tidy {a : Access} {off v : Nat} {d : Dev} (hd : d.tidy) : (writeSrcCfg a off v d).tidy :=
  tidy_ite (denyWorld_tidy hd) (tidy_ite (countViol_tidy (regErr_tidy hd)) (monRefresh_tidy (regPut_tidy (judgePlain_tidy hd))))

theorem writeSwi_tidy {a : Access} {off v : Nat} {d : Dev} (hd : d.tidy) : (writeSwi a off v d).tidy := by
  unfold writeSwi
  extract_lets
  exact tidy_ite (denyWorld_tidy hd) (tidy_ite (monRefresh_tidy (edgePut_tidy (judgePlain_tidy hd))) (judgePlain_tidy hd))

theorem irqReg_tidy {k : PageKind} {a : Access} {p off v : Nat} {d : Dev} (hd : d.tidy) : (irqReg k a p off v d).tidy := by
  unfold irqReg
  split
  · exact tidy_ite (writeSrcCfg_tidy hd) (judgePlain_tidy hd)
  · exact tidy_ite (writeSwi_tidy hd) (judgePlain_tidy hd)
  · exact tidy_ite (tidy_ite (completeWrite_tidy (judgePlain_tidy hd)) (judgePlain_tidy hd)) (judgePlain_tidy hd)
  · exact judgePlain_tidy hd

theorem pinEdges_tidy {was : Nat} {d : Dev} (hd : d.tidy) : (pinEdges was d).tidy :=
  monRefresh_tidy (tidy_foldl (fun _ _ h => tidy_ite (edgePut_tidy h) h) hd)

theorem pinsEmit_tidy {was : Nat × Nat} {d : Dev} (hd : d.tidy) : (pinsEmit was d).tidy := tidy_ite hd (emit_tidy hd)

theorem writePins_tidy {a : Access} {off v : Nat} {d : Dev} (hd : d.tidy) : (writePins a off v d).tidy := by
  unfold writePins
  extract_lets _ _ _ _ _ _ _ _ _ _ _ d1
  have hd1 : d1.tidy := tidy_ite (denyWorld_tidy (setFld_tidy hd)) (setFld_tidy hd)
  exact tidy_ite (tidy_ite (denyWorld_tidy hd) (regErr_tidy hd)) (tidy_ite hd (pinEdges_tidy (pinsEmit_tidy hd1)))

theorem gpioReg_tidy {a : Access} {off v : Nat} {d : Dev} (hd : d.tidy) : (gpioReg a off v d).tidy :=
  tidy_ite (writePins_tidy hd) (judgePlain_tidy hd)

/-! ## The officer block's operations, card interfaces and CEREMONY -/

theorem ofcRead_tidy {info a n : Nat} {d : Dev} (hd : d.tidy) : (ofcRead info a n d).2.tidy := by
  unfold ofcRead
  split
  · exact hd
  · split
    rename_i e
    exact tidy_snd3 e (memFetch2_tidy hd)

theorem ofcRevoke_tidy {n : Nat} {tickets : List Nat} {d : Dev} (hd : d.tidy) : (ofcRevoke n tickets d).tidy := by
  unfold ofcRevoke
  split
  · exact ofcEnd_tidy hd
  · split
    · exact ofcEnd_tidy hd
    · extract_lets
      refine ofcEnd_tidy (tidy_foldl (fun _ _ h => ?_) (modOfficer_tidy hd))
      split
      · exact tidy_ite (dropClass_tidy h) h
      · exact h

theorem ofcSetClass_tidy {b : Bytes} {tickets : List Nat} {d : Dev} (hd : d.tidy) : (ofcSetClass b tickets d).tidy := by
  unfold ofcSetClass
  extract_lets
  exact tidy_ite (tidy_ite (ofcEnd_tidy hd) (ofcEnd_tidy (dropClass_tidy (modOfc_tidy hd))))
    (tidy_ite (ofcEnd_tidy hd) (tidy_ite (ofcEnd_tidy hd) (ofcEnd_tidy (dropClass_tidy (modOfc_tidy hd)))))

theorem ofcUnlock_tidy {n : Nat} {tickets : List Nat} {d : Dev} (hd : d.tidy) : (ofcUnlock n tickets d).tidy := by
  unfold ofcUnlock
  extract_lets _ d1
  have hd1 : d1.tidy := tidy_ite (officerUnlock_tidy hd) hd
  exact tidy_ite (ofcEnd_tidy hd) (cardsNext_tidy (ofcEnd_tidy (modOfficer_tidy hd1)))

theorem ofcWait_tidy {slot : Nat} {op : OfcOp} {d : Dev} (hd : d.tidy) : (ofcWait slot op d).tidy :=
  tidy_ite (cardOn_tidy (modOfc_tidy hd)) (cardNext_tidy (modOfc_tidy hd))

theorem ofcEnrol_tidy {b : Bytes} {tickets : List Nat} {d : Dev} (hd : d.tidy) : (ofcEnrol b tickets d).tidy := by
  unfold ofcEnrol
  extract_lets
  split
  · exact ofcEnd_tidy hd
  · split
    · rename_i e
      exact ofcEnd_tidy (tidy_snd e (drawHomeless_tidy hd))
    · rename_i d1 e1
      have hd1 : d1.tidy := tidy_snd e1 (drawHomeless_tidy hd)
      exact ofcWait_tidy (modOfc_tidy hd1)

theorem ofcPin_tidy {b data : Bytes} {d : Dev} (hd : d.tidy) : (ofcPin b data d).tidy := tidy_ite (ofcEnd_tidy hd) (ofcWait_tidy hd)

theorem ofcChallenge_tidy {addr : Nat} {b : Bytes} {d : Dev} (hd : d.tidy) : (ofcChallenge addr b d).tidy := by
  unfold ofcChallenge
  extract_lets
  split
  · exact ofcEnd_tidy hd
  · split
    · rename_i e
      exact ofcEnd_tidy (tidy_snd e (chalIssue_tidy hd))
    · rename_i d1 e1
      have hd1 : d1.tidy := tidy_snd e1 (chalIssue_tidy hd)
      refine cardsNext_tidy ?_
      split
      · rename_i d2 e2
        have hd2 : d2.tidy := tidy_snd e2 (memStore_tidy hd1)
        exact tidy_ite (ofcEnd_tidy (memStore_tidy (waitUntil_tidy hd2))) (ofcEnd_tidy (memStore_tidy (waitUntil_tidy hd2)))
      · exact tidy_ite (ofcEnd_tidy (memStore_tidy hd1)) (ofcEnd_tidy (memStore_tidy hd1))

theorem cerLeave_tidy {cause : Nat} {d : Dev} (hd : d.tidy) : (cerLeave cause d).tidy :=
  raiseEv_tidy (record_tidy (mgrAbort_tidy (enterMode_tidy (modOfc_tidy hd))))

theorem ofcRun_tidy {op addr : Nat} {b pinData : Bytes} {tickets : List Nat} {d : Dev} (hd : d.tidy) :
    (ofcRun op addr b pinData tickets d).tidy := by
  unfold ofcRun
  split
  · exact ofcEnrol_tidy hd
  · exact ofcRevoke_tidy hd
  · exact ofcSetClass_tidy hd
  · exact ofcEnd_tidy (modInst_tidy hd)
  · exact ofcUnlock_tidy hd
  · exact modOfc_tidy (tidy_with hd)
  · exact ofcEnd_tidy (cerLeave_tidy hd)
  · exact ofcChallenge_tidy hd
  · exact ofcPin_tidy hd

theorem ofcStart_tidy {op addr : Nat} {arg tkt : Except Denial Bytes} {pinData : Bytes} {d : Dev} (hd : d.tidy) :
    (ofcStart op addr arg tkt pinData d).tidy := by
  unfold ofcStart
  split
  · exact ofcEnd_tidy hd
  · split
    · exact ofcEnd_tidy hd
    · split
      · exact ofcEnd_tidy hd
      · split
        · exact ofcRun_tidy hd
        · split
          · exact ofcEnd_tidy hd
          · split
            · exact ofcEnd_tidy hd
            · split
              · exact ofcEnd_tidy hd
              · split
                · rename_i e
                  exact ofcEnd_tidy (tidy_snd e (ticketsCheck_tidy hd))
                · rename_i e1
                  exact ofcRun_tidy (tidy_snd e1 (ticketsCheck_tidy hd))

theorem ofcCmd_tidy {a : Access} {v : Nat} {d : Dev} (hd : d.tidy) : (ofcCmd a v d).tidy := by
  unfold ofcCmd
  extract_lets
  split
  · exact judge_tidy hd
  · split
    · exact regErr_tidy (judge_tidy hd)
    · split
      · exact regErr_tidy (judge_tidy hd)
      · split
        rename_i d1 e
        have hd1 : d1.tidy := tidy_snd e (ofcRead_tidy (judge_tidy hd))
        extract_lets
        split
        rename_i d2 e1
        have hd2 : d2.tidy := tidy_snd e1 (ofcRead_tidy hd1)
        split
        · exact regErr_tidy hd2
        · split
          rename_i d3 e2
          have hd3 : d3.tidy := tidy_snd e2 (ofcRead_tidy hd2)
          split <;> exact ofcStart_tidy hd3

theorem ofcRow_tidy {a : Access} {op v : Nat} {d : Dev} (hd : d.tidy) : (ofcRow a op v d).tidy := ofcCmd_tidy hd

theorem cardUnknown_tidy {slot : Nat} {d : Dev} (hd : d.tidy) : (cardUnknown slot d).tidy := ofcLost_tidy (raiseEv_tidy (cardOff_tidy hd))

theorem cardFaulty_tidy {slot : Nat} {d : Dev} (hd : d.tidy) : (cardFaulty slot d).tidy := modCard_tidy hd

theorem cardAtr_tidy {slot : Nat} {atr : Bytes} {d : Dev} (hd : d.tidy) : (cardAtr slot atr d).tidy :=
  tidy_ite (cardUnknown_tidy (cardFaulty_tidy hd)) (emit_tidy (modCard_tidy hd))

theorem cardSelected_tidy {slot sw : Nat} {d : Dev} (hd : d.tidy) : (cardSelected slot sw d).tidy :=
  tidy_ite (cardNext_tidy (cardIdle_tidy (modCard_tidy hd))) (cardUnknown_tidy hd)

theorem cardIdentify_tidy {slot : Nat} {pk : Bytes} {d : Dev} (hd : d.tidy) : (cardIdentify slot pk d).tidy := by
  unfold cardIdentify
  split
  · exact cardNext_tidy (cardIdle_tidy (modCard_tidy hd))
  · exact cardUnknown_tidy hd

theorem cardSigned_tidy {slot id : Nat} {sig : Bytes} {d : Dev} (hd : d.tidy) : (cardSigned slot id sig d).tidy := by
  unfold cardSigned
  extract_lets
  refine cardNext_tidy ?_
  split
  · split
    · exact cardIdle_tidy hd
    · split
      · exact officerFail_tidy (cardIdle_tidy hd)
      · exact tidy_ite (officerPass_tidy (cardIdle_tidy hd)) (raiseEv_tidy (modChal_tidy (officerPass_tidy (cardIdle_tidy hd))))
  · exact cardIdle_tidy hd

theorem enrolIdentity_tidy {slot alg : Nat} {pk : Bytes} {d : Dev} (hd : d.tidy) : (enrolIdentity slot alg pk d).tidy := by
  unfold enrolIdentity
  split
  · exact tidy_ite (cardNext_tidy (ofcEnd_tidy (cardIdle_tidy hd))) (cardAsk_tidy (modCard_tidy (modOfc_tidy hd)))
  · exact cardNext_tidy (cardIdle_tidy hd)

theorem enrolSigned_tidy {slot : Nat} {sig : Bytes} {d : Dev} (hd : d.tidy) : (enrolSigned slot sig d).tidy := by
  unfold enrolSigned
  split
  · exact tidy_ite (cardsNext_tidy (ofcEnd_tidy (cardIdle_tidy (modCard_tidy (modOfficer_tidy hd)))))
      (cardNext_tidy (ofcEnd_tidy (cardIdle_tidy hd)))
  · exact cardNext_tidy (cardIdle_tidy hd)

theorem pinAnswered_tidy {slot sw : Nat} {d : Dev} (hd : d.tidy) : (pinAnswered slot sw d).tidy := by
  unfold pinAnswered
  extract_lets
  split
  · exact cardNext_tidy (ofcEnd_tidy (cardIdle_tidy (modCard_tidy hd)))
  · exact cardNext_tidy (cardIdle_tidy (modCard_tidy hd))

theorem cardRefused_tidy {slot : Nat} {w : CardWait} {d : Dev} (hd : d.tidy) : (cardRefused slot w d).tidy := by
  unfold cardRefused
  split
  · exact cardUnknown_tidy hd
  · exact cardNext_tidy (ofcLost_tidy (cardIdle_tidy hd))
  · exact cardNext_tidy (ofcLost_tidy (cardIdle_tidy hd))
  · exact cardNext_tidy (cardIdle_tidy hd)
  · exact hd

/-! ## What stops the block's work -/

theorem modLant_tidy {f : LanternSt → LanternSt} {d : Dev} (hd : d.tidy) : (modLant f d).tidy := tidy_with hd

theorem latchPut_tidy {w : Nat} {d : Dev} (hd : d.tidy) : (latchPut w d).tidy := tidy_ite (raiseEv_tidy (modLant_tidy hd))
    (modLant_tidy hd)

theorem discardAll_tidy {d : Dev} (hd : d.tidy) : (discardAll d).tidy := by
  unfold discardAll
  extract_lets d1 d2 d3 _ _ d4
  have hd1 : d1.tidy := tidy_foldl (fun _ _ => discardCmd_tidy) hd
  have hd2 : d2.tidy := by
    unfold d2
    refine tidy_foldl (fun _ _ h2 => ?_) hd1
    split
    · exact ticketFree_tidy (tidy_foldl (fun _ _ => leave_tidy) h2)
    · exact h2
  have hd3 : d3.tidy := tidy_foldl (fun _ _ h4 => tidy_ite (setFld_tidy h4) h4) hd2
  have hd4 : d4.tidy := tidy_with (modCmdSt_tidy (tidy_with hd3))
  exact tidy_foldl (fun _ _ => endStalls_tidy) hd4

theorem aerInternal_tidy {d : Dev} (hd : d.tidy) : (aerInternal d).tidy :=
  tidy_foldl (fun _ _ h => tidy_ite (emit_tidy (modFn_tidy h)) h) hd

theorem ideLose_tidy {d : Dev} (hd : d.tidy) : (ideLose d).tidy := tidy_foldl (fun _ _ => modLink_tidy) hd

theorem fltClear_tidy {d : Dev} (hd : d.tidy) : (fltClear d).tidy := tidy_with hd

theorem stopRest_tidy {d : Dev} (hd : d.tidy) : (stopRest d).tidy := by
  unfold stopRest
  extract_lets _ d1 _ _ _ d2
  have hd1 : d1.tidy := modMgr_tidy (mgrAbort_tidy (ofcStop_tidy hd))
  have hd2 : d2.tidy := tidy_ite (tidy_with (modOfc_tidy hd1)) (pinEdges_tidy (emit_tidy (setFld_tidy (tidy_with (modOfc_tidy hd1)))))
  exact fltClear_tidy hd2

theorem setFail_tidy {f : MpeFail} {d : Dev} (hd : d.tidy) : (setFail f d).tidy :=
  setFld_tidy (setFld_tidy (setFld_tidy (setFld_tidy (setFld_tidy hd))))

theorem entStop_tidy {d : Dev} (hd : d.tidy) : (entStop d).tidy :=
  tidy_foldl (fun _ _ => drbgLose_tidy) (tidy_foldl (fun _ _ => wellStop_tidy) hd)

theorem dropHeld_tidy {d : Dev} (hd : d.tidy) : (dropHeld d).tidy := tidy_with hd

theorem haltGo_tidy {f : MpeFail} {d : Dev} (hd : d.tidy) : (haltGo f d).tidy := by
  unfold haltGo
  split
  · exact hd
  · extract_lets d1 _ d2 _ _ d3 d4
    have hd1 : d1.tidy := entStop_tidy (dropHeld_tidy (discardAll_tidy (modMpe_tidy (lcCut_tidy hd))))
    have hd2 : d2.tidy := record_tidy (setFail_tidy (modCmdSt_tidy (mpeClear_tidy hd1)))
    have hd3 : d3.tidy := stopRest_tidy (enterMode_tidy (aerInternal_tidy (rootCut_tidy (emit_tidy (tidy_with hd2)))))
    have hd4 : d4.tidy := tidy_ite (vaultDrain_tidy hd3) hd3
    exact keyClear_tidy (flushEvents_tidy (ideLose_tidy hd4))

theorem haltIfFailed_tidy {d : Dev} (hd : d.tidy) : (haltIfFailed d).tidy := by
  unfold haltIfFailed
  split
  · exact modMpe_tidy (haltGo_tidy hd)
  · exact hd

theorem secretsClear_tidy {d : Dev} (hd : d.tidy) : (secretsClear d).tidy := by
  unfold secretsClear
  extract_lets _ d1 d2
  have hd1 : d1.tidy := modCmdSt_tidy (mpeClear_tidy (keyClear_tidy (modLant_tidy hd)))
  have hd2 : d2.tidy := ideLose_tidy (tidy_foldl (fun _ _ => drbgLose_tidy) hd1)
  exact tidy_ite (modLant_tidy hd) (modMgr_tidy (modOfc_tidy hd2))

theorem zeroise_tidy {d : Dev} (hd : d.tidy) : (zeroise d).tidy := by
  unfold zeroise
  extract_lets _ _ d1 _ d2
  have hd1 : d1.tidy := rootCut_tidy (tidy_ite (modLant_tidy hd) (dropHeld_tidy (discardAll_tidy (lcCut_tidy (modLant_tidy hd)))))
  have hd2 : d2.tidy := modMpe_tidy (secretsClear_tidy (entStop_tidy hd1))
  exact tidy_ite (secretsClear_tidy (modLant_tidy hd)) (tidy_ite hd2
    (stopRest_tidy (enterMode_tidy (aerInternal_tidy (emit_tidy (tidy_with hd2))))))

theorem postHalting_tidy {c : Cmd} {d : Dev} (hd : d.tidy) : (postHalting c d).tidy := tidy_ite (postCqe_tidy hd) hd

theorem coalFlush_tidy {d : Dev} (hd : d.tidy) : (coalFlush d).tidy := tidy_foldl (fun _ _ => coalSend_tidy) hd

theorem windDown_tidy {d : Dev} (hd : d.tidy) : (windDown d).tidy := by
  unfold windDown
  extract_lets _ d1
  have hd1 : d1.tidy := coalFlush_tidy (tidy_foldl (fun _ _ => postHalting_tidy) (rootCut_tidy (discardAll_tidy hd)))
  exact flushEvents_tidy (tidy_ite (vaultDrain_tidy hd1) hd1)

theorem funcsReset_tidy {l : Nat} {ns : List Nat} {d : Dev} (hd : d.tidy) : (funcsReset l ns d).tidy :=
  raiseEv_tidy (tidy_foldl (fun _ _ => funcReset_tidy) hd)

theorem mgrPfReset_tidy {l : Nat} {d : Dev} (hd : d.tidy) : (mgrPfReset l d).tidy := tidy_ite (mgrAbort_tidy hd) hd

theorem linkFuncsReset_tidy {l : Nat} {d : Dev} (hd : d.tidy) : (linkFuncsReset l d).tidy :=
  modLink_tidy (mgrPfReset_tidy (funcsReset_tidy hd))

theorem linkReset'_tidy {l : Nat} {d : Dev} (hd : d.tidy) : (linkReset' l d).tidy := satFld_tidy (modLink_tidy (linkFuncsReset_tidy hd))

theorem modFlt_tidy {f : FltSt → FltSt} {d : Dev} (hd : d.tidy) : (modFlt f d).tidy := tidy_with hd

theorem setSlot_tidy {c : FltClass} {x : Option Flt} {d : Dev} (hd : d.tidy) : (setSlot c x d).tidy := modFlt_tidy hd

theorem enterSlot_tidy {f : Flt} {d : Dev} (hd : d.tidy) : (enterSlot f d).tidy := by
  unfold enterSlot
  extract_lets _ d1
  have hd1 : d1.tidy := setFld_tidy (setFld_tidy (setFld_tidy (setSlot_tidy hd)))
  split
  · exact record_tidy (raiseEv_tidy hd1)
  · exact record_tidy (raiseEv_tidy hd1)
  · exact modFlt_tidy (raiseEv_tidy hd1)
  · exact modFlt_tidy (raiseEv_tidy hd1)

/-! ## The wake from DROWSE, and the requests of a host that bring it -/

theorem serviceEnter_tidy {d : Dev} (hd : d.tidy) : (serviceEnter d).tidy :=
  resumeResets_tidy (tidy_foldl (fun _ _ h => tidy_ite (cardOn_tidy h) h) (enterMode_tidy hd))

theorem wake_tidy {src : Nat} {d : Dev} (hd : d.tidy) : (wake src d).tidy := by
  unfold wake
  split
  · exact hd
  · extract_lets _ _ _ _ d1 d2
    have hd1 : d1.tidy := tidy_foldl (fun _ _ => modHart_tidy) (tidy_with (waitUntil_tidy hd))
    have hd2 : d2.tidy := by
      unfold d2
      split
      · exact trapOut_tidy (modHart_tidy hd1)
      · exact hd1
    exact syncPorts_tidy (raiseEv_tidy (setFld_tidy (serviceEnter_tidy hd2)))

theorem tlpWake_tidy {link : Option Nat} {d : Dev} (hd : d.tidy) : (tlpWake link d).tidy := tidy_ite (wake_tidy hd) hd

/-! ## The life-cycle controller -/

theorem mramWipe_tidy {d : Dev} (hd : d.tidy) : (mramWipe d).tidy := by
  unfold mramWipe
  extract_lets _ _ _ d1
  have hd1 : d1.tidy := modKey_tidy (tidy_with (wipeMem_tidy hd))
  exact modMgr_tidy (modOfc_tidy (tidy_with hd1))

theorem scrapWipe_tidy {again : Bool} {d : Dev} (hd : d.tidy) : (scrapWipe again d).tidy := by
  unfold scrapWipe
  extract_lets d1 _ _ _ _ _ _ d2
  have hd1 : d1.tidy := tidy_ite (secretsClear_tidy hd) (zeroise_tidy hd)
  have hd2 : d2.tidy := tidy_with (modKey_tidy (tidy_with (tidy_with hd1)))
  exact tidy_with (mramWipe_tidy hd2)

theorem lcBefore_tidy {dst : Lc} {d : Dev} (hd : d.tidy) : (lcBefore dst d).tidy := tidy_ite (zeroise_tidy hd) hd

theorem lcAfter_tidy {atBoot : Bool} {dst : Lc} {d : Dev} (hd : d.tidy) : (lcAfter atBoot dst d).tidy := by
  unfold lcAfter
  extract_lets
  split
  · exact tidy_with (regPut_tidy hd)
  · exact tidy_with (regPut_tidy hd)
  · exact armLoops_tidy hd
  · exact modLant_tidy (tidy_with hd)
  · exact modLant_tidy (scrapWipe_tidy hd)
  · exact hd

theorem lcResult_tidy {code : Nat} {d : Dev} (hd : d.tidy) : (lcResult code d).tidy := setFld_tidy hd

theorem lcStart_tidy {dst : Lc} {row : Nat} {d : Dev} (hd : d.tidy) : (lcStart dst row d).tidy := by
  unfold lcStart
  extract_lets
  exact tidy_with (lcBefore_tidy (tidy_with hd))

theorem lcTransition_tidy {target : Nat} {token : Bytes} {d : Dev} (hd : d.tidy) : (lcTransition target token d).2.tidy := by
  unfold lcTransition
  split
  · exact lcResult_tidy hd
  · split
    · exact lcResult_tidy hd
    · exact lcStart_tidy hd

theorem lcTokenSet_tidy {row : Nat} {digest : Bytes} {d : Dev} (hd : d.tidy) : (lcTokenSet row digest d).2.tidy :=
  snd_ite (lcResult_tidy hd) (snd_ite (lcResult_tidy hd) (tidy_with hd))

theorem svcEnd_tidy {code val : Nat} {d : Dev} (hd : d.tidy) : (svcEnd code val d).tidy :=
  modMgr_tidy (setFld_tidy (setFld_tidy (setFld_tidy hd)))

theorem lcFinish_tidy {d : Dev} (hd : d.tidy) : (lcFinish d).tidy := by
  unfold lcFinish
  split
  · exact hd
  · extract_lets _ _ _ d1 d2
    have hd1 : d1.tidy := tidy_ite (modMgr_tidy (tidy_with (lcBurn_tidy hd))) (tidy_with (lcBurn_tidy hd))
    have hd2 : d2.tidy := by
      unfold d2
      split
      · exact lcResult_tidy hd1
      · extract_lets _ _ _ d3 d4
        have hd3 : d3.tidy := record_tidy (tidy_with (lcAfter_tidy hd1))
        have hd4 : d4.tidy := tidy_ite (record_tidy hd3) hd3
        exact lcResult_tidy (raiseEv_tidy hd4)
    exact tidy_ite (svcEnd_tidy (tidy_with (raiseEv_tidy hd2))) (raiseEv_tidy hd2)

theorem plainFetch_tidy {a n : Nat} {d : Dev} (hd : d.tidy) : (plainFetch a n d).2.tidy := by
  unfold plainFetch
  refine snd_foldl (fun _ _ h => ?_) hd
  split
  · exact h
  · split
    rename_i e
    exact tidy_snd3 e (readPart_tidy h)

theorem lcRun_tidy {a : Access} {v : Nat} {d : Dev} (hd : d.tidy) : (lcRun a v d).tidy := by
  unfold lcRun
  extract_lets
  split
  · exact hd
  · split
    · exact regErr_tidy hd
    · split
      · exact lcResult_tidy hd
      · split
        rename_i d1 e
        have hd1 : d1.tidy := tidy_snd e (plainFetch_tidy hd)
        exact tidy_ite (lcTransition_tidy hd1) (lcTokenSet_tidy hd1)

theorem lcReg_tidy {a : Access} {off v : Nat} {d : Dev} (hd : d.tidy) : (lcReg a off v d).tidy :=
  tidy_ite (regErr_tidy hd) (tidy_ite (lcRun_tidy (judgePlain_tidy hd)) (judgePlain_tidy hd))

theorem lcWrite_tidy {a : Access} {off v : Nat} {d : Dev} (hd : d.tidy) : (lcWrite a off v d).tidy := by
  unfold lcWrite
  split
  · rename_i e
    exact lcReg_tidy (tidy_snd e (admitWrite_tidy hd))
  · rename_i e1
    exact tidy_snd e1 (admitWrite_tidy hd)

theorem svcRun_tidy {b : Bytes} {d : Dev} (hd : d.tidy) : (svcRun b d).tidy := by
  unfold svcRun
  extract_lets
  split
  · exact svcEnd_tidy hd
  · split
    rename_i d1 e
    have hd1 : d1.tidy := tidy_snd e (snd_ite (lcTransition_tidy (tidy_with hd)) (lcTokenSet_tidy (tidy_with hd)))
    split
    · exact svcEnd_tidy (tidy_with hd1)
    · exact tidy_with hd1

theorem svcGo_tidy {req : HostData} {d : Dev} (hd : d.tidy) : (svcGo req d).tidy := by
  unfold svcGo
  split
  · exact hd
  · extract_lets
    split
    · exact svcEnd_tidy (modMgr_tidy hd)
    · split
      · rename_i e
        exact svcEnd_tidy (tidy_snd e (mgrInput_tidy (modMgr_tidy hd)))
      · rename_i e1
        exact svcRun_tidy (tidy_snd e1 (mgrInput_tidy (modMgr_tidy hd)))

theorem lcRolled_tidy {j : Journal} {d : Dev} (hd : d.tidy) : (lcRolled j d).tidy := by
  unfold lcRolled
  extract_lets
  exact recordRom_tidy (tidy_with (lcAfter_tidy hd))

theorem lcResume_tidy {j : Journal} {d : Dev} (hd : d.tidy) : (lcResume j d).tidy := lcRolled_tidy (lcProgram_tidy (lcBefore_tidy hd))

/-! ## Firmware images and the host configuration record -/

theorem hostcfgApply_tidy {b : Bytes} {d : Dev} (hd : d.tidy) : (hostcfgApply b d).tidy :=
  regPut_tidy (regPut_tidy (regPut_tidy (regPut_tidy hd)))

theorem imgLoadCheck_tidy {b : Bytes} {d : Dev} (hd : d.tidy) : (imgLoadCheck b d).2.tidy := by
  unfold imgLoadCheck
  split
  · exact hd
  · exact mpeWrite_tidy hd

theorem slotPut_tidy {n : Nat} {b : Bytes} {d : Dev} (hd : d.tidy) : (slotPut n b d).tidy := tidy_with hd

/-! ## The reset of the die and the boot ROM's sequence -/

theorem dieReset_tidy {d : Dev} (hd : d.tidy) : (dieReset d).tidy :=
  have cut : (lcCut d).tidy := lcCut_tidy hd
  ⟨smapWf_keep memReset (fun a => 0x4000_0000 ≤ a && a ≤ 0x41FF_FFFF) (lcCut d).mem cut.1, smapWf_nil regReset, smapWf_nil hdrReset⟩

theorem bootStep_tidy {n : Nat} {d : Dev} (hd : d.tidy) : (bootStep n d).tidy := setFld_tidy hd

theorem bootFail_tidy {n : Nat} {d : Dev} (hd : d.tidy) : (bootFail n d).tidy := setFld_tidy hd

theorem bootHalt_tidy {n : Nat} {d : Dev} (hd : d.tidy) : (bootHalt n d).tidy := haltGo_tidy (bootFail_tidy hd)

theorem htRegion_tidy {r lo hi sec ns : Nat} {lock : Bool} {d : Dev} (hd : d.tidy) : (htRegion r lo hi sec ns lock d).tidy :=
  regPut_tidy (regPut_tidy (regPut_tidy (regPut_tidy hd)))

theorem htBoot_tidy {d : Dev} (hd : d.tidy) : (htBoot d).tidy := by
  unfold htBoot
  extract_lets _ _ d1 _ _ d2
  have hd1 : d1.tidy := htRegion_tidy (htRegion_tidy (htRegion_tidy hd))
  have hd2 : d2.tidy := htRegion_tidy (htRegion_tidy (htRegion_tidy hd1))
  exact modHdr_tidy (htRegion_tidy (htRegion_tidy hd2))

theorem measPut_tidy {m : Bytes} {d : Dev} (hd : d.tidy) : (measPut m d).tidy :=
  bootStep_tidy (tidy_foldl (fun _ _ => setFld_tidy) hd)

theorem ownGo_tidy {b : Bytes} {d : Dev} (hd : d.tidy) : (ownGo b d).tidy := tidy_with hd

theorem fwEnter_tidy {b : Bytes} {slot : Nat} {d : Dev} (hd : d.tidy) : (fwEnter b slot d).tidy := by
  unfold fwEnter
  extract_lets _ _ d1 _ d2 _ _ _ _ d3
  have hd1 : d1.tidy := tidy_ite (ownGo_tidy (measPut_tidy hd)) (measPut_tidy hd)
  have hd2 : d2.tidy := setFld_tidy (setFld_tidy (setFld_tidy (setFld_tidy hd1)))
  have hd3 : d3.tidy := bootStep_tidy (tidy_foldl (fun _ _ => modHart_tidy) (htBoot_tidy (tidy_with (tidy_with hd2))))
  exact recordRom_tidy (modHart_tidy hd3)

theorem slotTry_tidy {n : Nat} {d : Dev} (hd : d.tidy) : (slotTry n d).2.tidy := snd_ite hd (imgLoadCheck_tidy hd)

theorem loaderWait_tidy {d : Dev} (hd : d.tidy) : (loaderWait d).tidy := setFld_tidy (tidy_with hd)

theorem slotFallback_tidy {code : Nat} {d : Dev} (hd : d.tidy) : (slotFallback code d).tidy := by
  unfold slotFallback
  extract_lets
  split
  · rename_i e
    exact loaderWait_tidy (bootFail_tidy (tidy_snd e (slotTry_tidy (tidy_with hd))))
  · rename_i d1 e1
    have hd1 : d1.tidy := tidy_snd e1 (slotTry_tidy (tidy_with hd))
    exact fwEnter_tidy (bootStep_tidy (recordRom_tidy (setFld_tidy hd1)))

theorem imageSelect_tidy {d : Dev} (hd : d.tidy) : (imageSelect d).tidy := by
  unfold imageSelect
  split
  · exact slotFallback_tidy hd
  · extract_lets _ _ d1
    have hd1 : d1.tidy := tidy_ite (tidy_with hd) hd
    split
    · rename_i e
      exact slotFallback_tidy (bootFail_tidy (tidy_snd e (slotTry_tidy hd1)))
    · rename_i e1
      exact fwEnter_tidy (bootStep_tidy (tidy_snd e1 (slotTry_tidy hd1)))

theorem loaderGo_tidy {image : HostData} {d : Dev} (hd : d.tidy) : (loaderGo image d).tidy := by
  unfold loaderGo
  extract_lets
  split
  · exact hd
  · split
    · exact svcEnd_tidy hd
    · split
      · rename_i e
        exact svcEnd_tidy (bootFail_tidy (tidy_snd e (mgrInput_tidy hd)))
      · rename_i d1 e1
        have hd1 : d1.tidy := tidy_snd e1 (mgrInput_tidy hd)
        split
        · rename_i e2
          exact svcEnd_tidy (bootFail_tidy (tidy_snd e2 (imgLoadCheck_tidy hd1)))
        · rename_i d2 e3
          have hd2 : d2.tidy := tidy_snd e3 (imgLoadCheck_tidy hd1)
          exact fwEnter_tidy (bootStep_tidy (svcEnd_tidy (slotPut_tidy (tidy_with hd2))))

theorem latchRecord_tidy {w : Nat} {d : Dev} (hd : d.tidy) : (latchRecord w d).tidy := handRec_tidy hd

theorem latchTransfer_tidy {d : Dev} (hd : d.tidy) : (latchTransfer d).tidy := by
  unfold latchTransfer
  extract_lets _ d1 d2
  have hd1 : d1.tidy := tidy_foldl (fun _ _ => latchRecord_tidy) hd
  have hd2 : d2.tidy := tidy_ite hd1 (recordRom_tidy hd1)
  exact tidy_ite (tidy_ite (modLant_tidy (latchRecord_tidy (modLant_tidy (modLant_tidy hd2))))
    (recordRom_tidy (modLant_tidy (modLant_tidy hd2)))) (modLant_tidy hd2)

theorem hostUp_tidy {d : Dev} (hd : d.tidy) : (hostUp d).tidy := regPut_tidy (modHdr_tidy (tidy_ite (hostcfgApply_tidy hd) hd))

theorem bootZeroised_tidy {d : Dev} (hd : d.tidy) : (bootZeroised d).tidy :=
  modMpe_tidy (enterMode_tidy (aerInternal_tidy (emit_tidy (tidy_with hd))))

theorem saveRecord_tidy {d : Dev} (hd : d.tidy) : (saveRecord d).tidy := by
  unfold saveRecord
  split
  · exact recordRom_tidy (tidy_with hd)
  · exact hd

theorem katFail_tidy {i : Nat} {d : Dev} (hd : d.tidy) : (katFail i d).tidy := recordRom_tidy
    (setFld_tidy (setFld_tidy (modUnit_tidy hd)))

theorem katRun_tidy {i : Nat} {d : Dev} (hd : d.tidy) : (katRun i d).tidy := raiseEv_tidy (setFld_tidy (modUnit_tidy (modHdr_tidy hd)))

theorem bootKat_tidy {d : Dev} (hd : d.tidy) : (bootKat d).tidy := by
  unfold bootKat
  extract_lets d1 d2
  have hd1 : d1.tidy := tidy_foldl (fun _ _ => katRun_tidy) hd
  have hd2 : d2.tidy := tidy_foldl (fun _ _ => katFail_tidy) hd1
  exact tidy_ite (bootHalt_tidy hd2) (imageSelect_tidy (bootStep_tidy hd2))

theorem ofcRecords_tidy {d : Dev} (hd : d.tidy) : (ofcRecords d).tidy := tidy_foldl (fun _ _ h => record_tidy (modOfficer_tidy h)) hd

theorem bootStartup_tidy {d : Dev} (hd : d.tidy) : (bootStartup d).tidy := by
  unfold bootStartup
  extract_lets _ r _ d1
  have hr : r.2.tidy := snd_ite (mpeStart_tidy (ofcRecords_tidy (enterMode_tidy hd))) (ofcRecords_tidy (enterMode_tidy hd))
  have hd1 : d1.tidy := by
    unfold d1
    split
    · rename_i e
      exact modCmdSt_tidy (of_eq Draw.tidy e (draw_tidy (bootStep_tidy hr)))
    · rename_i e1
      exact of_eq Draw.tidy e1 (draw_tidy (bootStep_tidy hr))
    · rename_i e2
      exact of_eq Draw.tidy e2 (draw_tidy (bootStep_tidy hr))
  exact tidy_ite (bootHalt_tidy hr) (bootKat_tidy (bootStep_tidy (vaultStart_tidy (drawKSlot_tidy hd1))))

theorem quarterBoot_tidy {q : Nat} {d : Dev} (hd : d.tidy) : (quarterBoot q d).tidy :=
  wellBoot_tidy (tidy_foldl (fun _ _ => modHart_tidy) (modQuarter_tidy hd))

theorem bootMain_tidy {d : Dev} (hd : d.tidy) : (bootMain d).tidy := by
  unfold bootMain
  extract_lets _ _ d1 _ d2
  have hd1 : d1.tidy := bootStep_tidy (latchTransfer_tidy (bootStep_tidy (tidy_with hd)))
  have hd2 : d2.tidy := bootStep_tidy (tidy_foldl (fun _ _ => quarterBoot_tidy) (saveRecord_tidy (bootStep_tidy (hostUp_tidy hd1))))
  exact tidy_ite (bootZeroised_tidy (bootStep_tidy (hostUp_tidy hd1)))
    (tidy_ite (bootHalt_tidy hd2) (bootStartup_tidy (bootStep_tidy (tidy_with hd2))))

theorem grantApply_tidy {d : Dev} (hd : d.tidy) : (grantApply d).tidy := by
  unfold grantApply
  extract_lets
  split
  · exact hd
  · exact tidy_ite (tidy_with hd) hd

theorem respBoot_tidy {d : Dev} (hd : d.tidy) : (respBoot d).tidy := tidy_foldl (fun _ _ h => tidy_ite h (setFld_tidy h)) hd

theorem bootDecoded_tidy {lc : Lc} {d : Dev} (hd : d.tidy) : (bootDecoded lc d).tidy := by
  unfold bootDecoded
  extract_lets d1 _ d2 host
  have hd1 : d1.tidy := tidy_ite hd (smbAlert_tidy hd)
  have hd2 : d2.tidy := bootStep_tidy (grantApply_tidy (respBoot_tidy (tidy_with hd1)))
  have hhost : ∀ {d : Dev}, d.tidy → (host d).tidy := fun h => modHdr_tidy h
  split
  · exact hhost (tidy_with hd2)
  · exact emit_tidy (hhost (tidy_with hd2))
  · split
    · exact hhost (tidy_with hd2)
    · exact scrapWipe_tidy (hhost (tidy_with hd2))
  · exact tidy_ite (tidy_with hd2) (bootMain_tidy hd2)

theorem bootRolled_tidy {d : Dev} (hd : d.tidy) : (bootRolled d).tidy := by
  unfold bootRolled
  split
  · exact bootDecoded_tidy (lcRolled_tidy hd)
  · exact bootDecoded_tidy (lcResume_tidy hd)
  · exact bootDecoded_tidy hd

theorem bootVote_tidy {d : Dev} (hd : d.tidy) : (bootVote d).tidy := by
  unfold bootVote
  extract_lets _ _ _ d1
  have hd1 : d1.tidy := tidy_ite (tidy_with hd) (recordRom_tidy (tidy_with hd))
  split
  · exact tidy_ite (bootRolled_tidy hd1) (tidy_with hd1)
  · exact bootRolled_tidy hd1

theorem bootGo_tidy {parts : BootParts} {d : Dev} (hd : d.tidy) : (bootGo parts d).tidy := by
  unfold bootGo
  extract_lets _ d1 _ d2
  have hd1 : d1.tidy := setLimit_tidy (enterMode_tidy (modKey_tidy (tidy_with (dieReset_tidy hd))))
  have hd2 : d2.tidy := tidy_foldl (fun _ _ => modHart_tidy) (modQuarter_tidy (modHart_tidy hd1))
  exact bootVote_tidy (bootStep_tidy (wellBegin_tidy (tidy_with hd2)))

theorem bootCharged_tidy {d : Dev} (hd : d.tidy) : (bootCharged d).tidy := tidy_ite (bootRolled_tidy (tidy_with hd)) hd

/-! ## The job ports of lanes, clusters and engines -/

theorem jobFetch_tidy {i info a n : Nat} {t : Option Nat} {d : Dev} (hd : d.tidy) : (jobFetch i info a n t d).2.2.tidy := by
  unfold jobFetch
  split
  rename_i e
  exact tidy_snd3 e (memFetch2_tidy hd)

theorem jobList_tidy {i f a total : Nat} {l : List (Nat × Nat)} {t : Option Nat} {d : Dev} (hd : d.tidy) :
    (jobList i f a total l t d).2.2.tidy := by
  induction f generalizing a l t d with
  | zero => exact hd
  | succ f ih =>
    unfold jobList
    split
    · rename_i e
      exact tidy_snd2 e (jobFetch_tidy hd)
    · rename_i b t1 d1 e
      have hd1 : d1.tidy := tidy_snd2 e (jobFetch_tidy hd)
      split
      · exact hd1
      · split
        · exact hd1
        · exact ih hd1

theorem jobSegs_tidy {i : Nat} {sgl : Bool} {a n : Nat} {t : Option Nat} {d : Dev} (hd : d.tidy) : (jobSegs i sgl a n t d).2.2.tidy :=
  snd2_ite hd (snd2_ite (jobList_tidy hd) hd)

theorem jobData_tidy {i info : Nat} {l : List (Nat × Nat)} {t : Option Nat} {d : Dev} (hd : d.tidy) :
    (jobData i info l t d).2.2.tidy := by
  induction l generalizing t d with
  | nil => exact hd
  | cons x rest ih =>
    unfold jobData
    split
    · rename_i e
      exact tidy_snd2 e (jobFetch_tidy hd)
    · rename_i e
      have hd1 := tidy_snd2 e (jobFetch_tidy hd)
      split
      · rename_i e1
        exact tidy_snd2 e1 (ih hd1)
      · rename_i e1
        exact tidy_snd2 e1 (ih hd1)

theorem jobRead_tidy {i : Nat} {c : Cmd} {d : Dev} (hd : d.tidy) : (jobRead i c d).2.2.tidy := by
  unfold jobRead
  extract_lets
  split
  rename_i d1 e
  have hd1 : d1.tidy := tidy_snd2 e (jobData_tidy hd)
  split
  · exact hd1
  · split
    rename_i d2 e1
    have hd2 : d2.tidy := tidy_snd2 e1 (jobData_tidy hd1)
    split
    · exact hd2
    · split
      rename_i d3 e2
      have hd3 : d3.tidy := tidy_snd2 e2 (jobSegs_tidy hd2)
      split
      · exact hd3
      · split
        rename_i d4 e3
        have hd4 : d4.tidy := tidy_snd2 e3 (jobData_tidy hd3)
        split
        · exact hd4
        · split
          rename_i d5 e4
          have hd5 : d5.tidy := tidy_snd2 e4 (jobSegs_tidy hd4)
          split <;> exact hd5

theorem jobEnd_tidy {i : Nat} {r : Result} {d : Dev} (hd : d.tidy) : (jobEnd i r d).tidy := by
  unfold jobEnd
  extract_lets _ _ d1 _ d2
  have hd1 : d1.tidy := setFld_tidy (setFld_tidy (setFld_tidy (modUnit_tidy hd)))
  have hd2 : d2.tidy := setFld_tidy (setFld_tidy (setFld_tidy (setFld_tidy hd1)))
  exact jobBoundary_tidy (raiseEv_tidy (setFld_tidy hd2))

theorem setJob_tidy {i : Nat} {c : Cmd} {d : Dev} (hd : d.tidy) : (setJob i c d).tidy := modUnit_tidy hd

theorem jobHold_tidy {i : Nat} {c : Cmd} {r : Result} {d : Dev} (hd : d.tidy) : (jobHold i c r d).tidy := setJob_tidy hd

theorem jobWrite_tidy {i : Nat} {l : List (Nat × Nat)} {b : Bytes} {d : Dev} (hd : d.tidy) : (jobWrite i l b d).2.tidy := by
  induction l generalizing b d with
  | nil => exact hd
  | cons x t ih =>
    unfold jobWrite
    split
    · exact hd
    · split
      rename_i e
      have hd1 := tidy_snd e (memStore2_tidy hd)
      split
      rename_i e1
      exact tidy_snd e1 (ih hd1)

theorem opRomPair_tidy {c : Cmd} {d : Dev} (hd : d.tidy) : (opRomPair c d).tidy := by
  unfold opRomPair
  extract_lets alg e
  split
  · extract_lets pk
    exact needRoom_tidy hd hd
  · exact hd

theorem jobOp_tidy {n : Nat} {op : OpFn} {c : Cmd} {d : Dev} (e : jobOp n = some op) (hd : d.tidy) : (op c d).tidy := by
  unfold jobOp at e
  split at e <;> cases e
  · exact opRomPair_tidy hd
  iterate 5 exact opBlock_tidy hd
  · exact opGcm_tidy hd
  · exact opCcm_tidy hd
  · exact opXts_tidy hd
  · exact opCtxSave_tidy hd
  · exact opCtxRestore_tidy hd
  · exact opEcdsaSign_tidy hd
  · exact opEcdsaVerify_tidy hd
  · exact opEddsaSign_tidy hd
  · exact opEddsaVerify_tidy hd
  · exact opEcdh_tidy hd
  · exact opRsaPrivate_tidy hd
  · exact opRsaPublic_tidy hd
  · exact opEncap_tidy hd
  · exact opDecap_tidy hd
  · exact opMldsaSign_tidy hd
  · exact opMldsaVerify_tidy hd
  · exact opSlhSign_tidy hd
  · exact opSlhVerify_tidy hd
  · exact opHbsVerify_tidy hd
  · exact opImageVerify_tidy hd
  · exact opHash_tidy hd
  · exact opShake_tidy hd
  · exact opHmac_tidy hd
  · exact opCmac_tidy hd
  · exact opGmac_tidy hd
  · exact opMacVerify_tidy hd
  · exact opHkdf_tidy hd
  · exact opKdfCtr_tidy hd
  · exact opTls13_tidy hd
  · exact opDukpt_tidy hd
  · exact opPinTranslate_tidy hd
  · exact opPinVerify_tidy hd
  · exact opCvv_tidy hd
  · exact opCvvVerify_tidy hd
  · exact opDataTranslate_tidy hd
  · exact opFf1_tidy hd
  · exact opFf1_tidy hd
  · exact opTokenTranslate_tidy hd
  · exact opHotp_tidy hd
  · exact opHotpVerify_tidy hd
  · exact opTotp_tidy hd
  · exact opTotpVerify_tidy hd
  · exact opLocker_tidy hd
  · exact opPickup_tidy hd
  · exact opPickupVerify_tidy hd

theorem jobRun_tidy {i chk : Nat} {c : Cmd} {d : Dev} (hd : d.tidy) : (jobRun i chk c d).tidy := by
  unfold jobRun
  split
  · exact jobHold_tidy hd
  · rename_i op e
    split
    · rename_i e1
      exact of_eq OpOut.tidy e1 (runChecked_tidy (fun _ _ h => jobOp_tidy e h) hd)
    · rename_i e1
      have hd1 := of_eq OpOut.tidy e1 (runChecked_tidy (fun _ _ h => jobOp_tidy e h) hd)
      exact tidy_ite (unitFault_tidy (unitCount_tidy (jobHold_tidy hd1))) (unitCount_tidy (jobHold_tidy hd1))

theorem jobPolicy_tidy {i : Nat} {err : KeyErr} {c : Cmd} {d : Dev} (hd : d.tidy) : (jobPolicy i err c d).2.tidy := by
  unfold jobPolicy
  extract_lets
  split
  · rename_i d1 e
    have hd1 : d1.tidy := of_eq PolOut.tidy e (policyRun_tidy (tidy_ite (tidy_ite hd (demandLoad_tidy hd))
      (demandLoad_tidy (tidy_ite hd (demandLoad_tidy hd)))))
    exact hd1
  · rename_i d2 e1
    have hd2 : d2.tidy := of_eq PolOut.tidy e1 (policyRun_tidy (tidy_ite (tidy_ite hd (demandLoad_tidy hd))
      (demandLoad_tidy (tidy_ite hd (demandLoad_tidy hd)))))
    exact jobHold_tidy hd2
  · rename_i d3 e2
    have hd3 : d3.tidy := of_eq PolOut.tidy e2 (policyRun_tidy (tidy_ite (tidy_ite hd (demandLoad_tidy hd))
      (demandLoad_tidy (tidy_ite hd (demandLoad_tidy hd)))))
    exact setJob_tidy hd3

theorem jobKeys_tidy {i : Nat} {err : KeyErr} {c : Cmd} {d : Dev} (hd : d.tidy) : (jobKeys i err c d).2.tidy := by
  unfold jobKeys
  split
  · exact hd
  · split
    · exact hd
    · split
      rename_i d1 e
      have hd1 : d1.tidy := tidy_snd e (loadKeys_tidy hd)
      split
      rename_i d2 e1
      have hd2 : d2.tidy := tidy_snd e1 (snd_ite (fetchSlots_tidy hd1) hd1)
      split
      · exact snd_ite hd2 (setJob_tidy hd2)
      · exact hd2

theorem jobTry_tidy {i chk : Nat} {err : KeyErr} {d : Dev} (hd : d.tidy) : (jobTry i chk err d).tidy := by
  unfold jobTry
  split
  · exact hd
  · split
    · exact hd
    · split
      · rename_i e
        exact tidy_snd e (snd_ite hd (jobPolicy_tidy hd))
      · rename_i d1 e1
        have hd1 : d1.tidy := tidy_snd e1 (snd_ite hd (jobPolicy_tidy hd))
        split
        · rename_i e2
          exact tidy_snd e2 (jobKeys_tidy hd1)
        · rename_i e3
          exact jobRun_tidy (tidy_snd e3 (jobKeys_tidy hd1))

theorem jobTake_tidy {a : Access} {i : Nat} {romkey : Bool} {chk : Nat} {err : KeyErr} {c : Cmd} {d : Dev} (hd : d.tidy) :
    (jobTake a i romkey chk err c d).tidy := by
  unfold jobTake
  extract_lets _ _ d1
  have hd1 : d1.tidy := modUnit_tidy (setFld_tidy (setFld_tidy hd))
  split
  · exact jobEnd_tidy hd
  · split
    · exact jobHold_tidy hd1
    · split
      · rename_i e
        exact jobHold_tidy (tidy_snd2 e (jobRead_tidy hd1))
      · rename_i d2 e1
        have hd2 : d2.tidy := tidy_snd2 e1 (jobRead_tidy hd1)
        exact tidy_ite (jobTry_tidy (setJob_tidy hd2)) (jobTry_tidy (setJob_tidy hd2))

theorem jobGo_tidy {a : Access} {i v chk : Nat} {err : KeyErr} {d : Dev} (hd : d.tidy) : (jobGo a i v chk err d).tidy := by
  unfold jobGo
  extract_lets
  split
  · exact judge_tidy hd
  · split
    · exact regErr_tidy (judge_tidy hd)
    · split
      · exact judge_tidy hd
      · split
        · exact regErr_tidy (judge_tidy hd)
        · split
          · exact jobEnd_tidy (judge_tidy hd)
          · split
            · rename_i e
              exact jobEnd_tidy (tidy_snd2 e (jobFetch_tidy (judge_tidy hd)))
            · rename_i d1 e1
              have hd1 : d1.tidy := tidy_snd2 e1 (jobFetch_tidy (judge_tidy hd))
              exact jobTake_tidy hd1

theorem jobRelease_tidy {i chk : Nat} {err : KeyErr} {d : Dev} (hd : d.tidy) : (jobRelease i chk err d).tidy := by
  unfold jobRelease
  split
  · exact hd
  · split
    · exact jobTry_tidy hd
    · refine tidy_ite hd ?_
      split
      · exact hd
      · rename_i r d1 e
        have hd1 : d1.tidy := commitCmd_tidy hd e
        extract_lets segs
        split
        rename_i w1 d2 e1
        have hd2 : d2.tidy := tidy_snd e1 (jobWrite_tidy hd1)
        split
        rename_i w2 d3 e2
        have hd3 : d3.tidy := tidy_snd e2 (jobWrite_tidy hd2)
        extract_lets w
        split
        rename_i x d4 e3
        exact jobEnd_tidy (tidy_snd e3 (snd_ite hd3 (jobWrite_tidy hd3)))

/-! ## Power of units and quarters, DROWSE, hold-up and wear -/

theorem modDma_tidy {ch : Nat} {f : DmaRun → DmaRun} {d : Dev} (hd : d.tidy) : (modDma ch f d).tidy := tidy_with hd

theorem dmaStop_tidy {ch err addr : Nat} {d : Dev} (hd : d.tidy) : (dmaStop ch err addr d).tidy :=
  jobBoundary_tidy (raiseEv_tidy (setFld_tidy (setFld_tidy (setFld_tidy (setFld_tidy (modDma_tidy hd))))))

theorem pwrTake_tidy {p : Nat} {d : Dev} (hd : d.tidy) : (pwrTake p d).tidy :=
  tidy_ite (markNeed_tidy (wellStop_tidy (setHdr_tidy hd))) (setHdr_tidy hd)

theorem pwrTry_tidy {p : Nat} {d : Dev} (hd : d.tidy) : (pwrTry p d).tidy := tidy_ite hd (tidy_ite (setHdr_tidy hd) (pwrTake_tidy hd))

theorem writePwr_tidy {a : Access} {p v : Nat} {d : Dev} (hd : d.tidy) : (writePwr a p v d).tidy := by
  unfold writePwr
  extract_lets
  split
  · exact hd
  · exact tidy_ite hd (tidy_ite (regErr_tidy hd) (tidy_ite (regErr_tidy hd)
      (tidy_ite (pwrTake_tidy (modHdr_tidy hd)) (pwrTry_tidy (modHdr_tidy hd)))))

theorem pgPwr_tidy {a : Access} {p v : Nat} {d : Dev} (hd : d.tidy) : (pgPwr a p v d).tidy := by
  unfold pgPwr
  split
  · rename_i e
    exact writePwr_tidy (tidy_snd e (admitWrite_tidy hd))
  · rename_i e1
    exact tidy_snd e1 (admitWrite_tidy hd)

theorem coreReset_tidy {h : Nat} {run : HartRun} {d : Dev} (hd : d.tidy) : (coreReset h run d).tidy := by
  unfold coreReset
  extract_lets
  exact tidy_with (releaseClaims_tidy (modHart_tidy hd))

theorem ringsMove_tidy {q : Nat} {d : Dev} (hd : d.tidy) : (ringsMove q d).tidy := modCmdSt_tidy hd

theorem quarterLose_tidy {q : Nat} {d : Dev} (hd : d.tidy) : (quarterLose q d).tidy :=
  tidy_foldl (fun _ _ => coreReset_tidy) (wipeMem_tidy (drbgLose_tidy (wellStop_tidy hd)))

theorem quarterFresh_tidy {q : Nat} {d : Dev} (hd : d.tidy) : (quarterFresh q d).tidy := by
  unfold quarterFresh
  extract_lets _ d1 d2
  have hd1 : d1.tidy := tidy_foldl (fun _ _ => clearRegs_tidy) hd
  have hd2 : d2.tidy := tidy_foldl (fun _ _ => modUnit_tidy) hd1
  exact tidy_foldl (fun _ _ => modDma_tidy) hd2

theorem wdtResume_tidy {q gone : Nat} {d : Dev} (hd : d.tidy) : (wdtResume q gone d).tidy := tidy_foldl (fun _ _ => modHart_tidy) hd

theorem quarterTake_tidy {q : Nat} {t : Pwr} {d : Dev} (hd : d.tidy) : (quarterTake q t d).tidy := by
  unfold quarterTake
  extract_lets _ _ d1 d2
  have hd1 : d1.tidy := by
    unfold d1
    split
    · exact tidy_ite (quarterFresh_tidy (modQuarter_tidy hd)) (tidy_ite (wdtResume_tidy (modQuarter_tidy hd)) (modQuarter_tidy hd))
    · exact tidy_ite (markNeed_tidy (wellStop_tidy (modQuarter_tidy hd))) (modQuarter_tidy hd)
    · exact tidy_ite (modQuarter_tidy hd) (quarterLose_tidy (modQuarter_tidy hd))
  have hd2 : d2.tidy := tidy_ite (tidy_foldl (fun _ _ => modHart_tidy) hd1) hd1
  exact syncPorts_tidy (tidy_ite hd2 (raiseEv_tidy hd2))

theorem quarterTry_tidy {q : Nat} {d : Dev} (hd : d.tidy) : (quarterTry q d).tidy := by
  unfold quarterTry
  split
  · exact tidy_ite hd (quarterTake_tidy hd)
  · exact hd

theorem quarterAsk_tidy {q x : Nat} {d : Dev} (hd : d.tidy) : (quarterAsk q x d).tidy :=
  tidy_ite (quarterTake_tidy hd) (quarterTry_tidy (syncPorts_tidy (ringsMove_tidy (modQuarter_tidy hd))))

theorem writeQreq_tidy {a : Access} {v : Nat} {d : Dev} (hd : d.tidy) : (writeQreq a v d).tidy := by
  unfold writeQreq
  extract_lets _ _ d1
  have hd1 : d1.tidy := tidy_foldl (fun _ _ h => tidy_ite (quarterAsk_tidy (setFld_tidy h)) h) hd
  exact tidy_ite (regErr_tidy hd) (tidy_ite (regErr_tidy hd1) (tidy_ite (regErr_tidy hd1) hd1))

theorem quarterFail_tidy {q : Nat} {d : Dev} (hd : d.tidy) : (quarterFail q d).tidy := by
  refine tidy_foldl (fun _ _ h => tidy_ite (dmaStop_tidy h) h) (tidy_foldl (fun _ _ h => ?_) (tidy_foldl (fun _ _ => failTaken_tidy) hd))
  split
  · exact jobEnd_tidy (countUses_tidy (ticketFree_tidy h))
  · exact h

theorem quarterDisable_tidy {q : Nat} {d : Dev} (hd : d.tidy) : (quarterDisable q d).tidy :=
  raiseEv_tidy (ringSweep_tidy (ringsMove_tidy (quarterTake_tidy (setFld_tidy (modQuarter_tidy (quarterFail_tidy hd))))))

theorem drowseEnter_tidy {h : Nat} {d : Dev} (hd : d.tidy) : (drowseEnter h d).tidy := by
  unfold drowseEnter
  extract_lets _ d1 d2 d3 d4
  have hd1 : d1.tidy := trapIn_tidy (ofcStop_tidy (enterMode_tidy (mpeSettle_tidy (t1Pass_tidy hd))))
  have hd2 : d2.tidy := tidy_ite (vaultDrain_tidy hd1) hd1
  have hd3 : d3.tidy := ccFlush_tidy (mpeSettle_tidy (t1Pass_tidy (flushEvents_tidy hd2)))
  have hd4 : d4.tidy := tidy_foldl (fun _ _ => markNeed_tidy) (tidy_foldl (fun _ _ h3 => tidy_ite (markNeed_tidy (wellStop_tidy h3)) h3)
    hd3)
  exact tidy_ite (mpeSettle_tidy (t1Pass_tidy hd)) (wrapFld_tidy (tidy_with hd4))

theorem wearAlarm_tidy {item kind : Nat} {d : Dev} (hd : d.tidy) : (wearAlarm item kind d).tidy :=
  signalPfs_tidy (record_tidy (raiseEv_tidy hd))

theorem measureEnd_tidy {cap esr : Nat} {d : Dev} (hd : d.tidy) : (measureEnd cap esr d).tidy := by
  unfold measureEnd
  extract_lets _ _ _ _ _ d1 _ d2
  have hd1 : d1.tidy := tidy_ite (setLimit_tidy (tidy_with (tidy_with hd))) (smbAlert_tidy (setLimit_tidy (tidy_with (tidy_with hd))))
  have hd2 : d2.tidy := tidy_ite (wearAlarm_tidy (raiseEv_tidy (tidy_with hd1))) (setLimit_tidy (tidy_with (tidy_with hd)))
  exact jobBoundary_tidy (raiseEv_tidy hd2)

theorem wearDay_tidy {n used : Nat} {d : Dev} (hd : d.tidy) : (wearDay n used d).tidy := by
  unfold wearDay
  extract_lets
  exact tidy_ite (wearAlarm_tidy (tidy_with (tidy_with (tidy_with hd)))) (tidy_with (tidy_with hd))

theorem holdQuarters_tidy {d : Dev} (hd : d.tidy) : (holdQuarters d).tidy := by
  unfold holdQuarters
  extract_lets
  exact tidy_foldl (fun _ _ h => modQuarter_tidy (tidy_foldl (fun _ _ => coreReset_tidy) (wellStop_tidy h)))
    (modMpe_tidy (discardAll_tidy hd))

theorem saveBatch_tidy {p : VaultEnt → Bool} {cell : Bool} {d : Dev} (hd : d.tidy) : (saveBatch p cell d).tidy :=
  vaultSelf_tidy (modKey_tidy hd)

theorem saveVault_tidy {reach : Nat} {d : Dev} (hd : d.tidy) : (saveVault reach d).tidy := by
  unfold saveVault
  split
  · exact hd
  · exact tidy_ite (saveBatch_tidy (tidy_ite (saveBatch_tidy hd) hd)) (tidy_ite (saveBatch_tidy hd) hd)

theorem saveSummary_tidy {d : Dev} (hd : d.tidy) : (saveSummary d).tidy := by
  unfold saveSummary
  refine tidy_with (tidy_with (tidy_with (tidy_with hd)))

theorem saveGo_tidy {reach : Nat} {d : Dev} (hd : d.tidy) : (saveGo reach d).tidy := by
  unfold saveGo
  extract_lets d1 d2
  have hd1 : d1.tidy := tidy_ite hd (saveVault_tidy hd)
  have hd2 : d2.tidy := tidy_ite (flushEvents_tidy hd1) hd1
  exact tidy_ite (saveSummary_tidy hd2) hd2

theorem vigilGo_tidy {d : Dev} (hd : d.tidy) : (vigilGo d).tidy := by
  unfold vigilGo
  extract_lets
  exact tidy_with (dieReset_tidy (enterMode_tidy hd))

theorem holdupGo_tidy {reach : Nat} {d : Dev} (hd : d.tidy) : (holdupGo reach d).tidy := by
  unfold holdupGo
  split
  · extract_lets _ d1
    have hd1 : d1.tidy := enterMode_tidy (signalPfs_tidy (rootCut_tidy (lcCut_tidy hd)))
    exact vigilGo_tidy (saveGo_tidy (holdQuarters_tidy (tidy_with hd1)))
  · exact tidy_ite (vigilGo_tidy (saveGo_tidy hd)) hd

theorem supPut_tidy {p12 aux vbat cell : Nat} {fail : Bool} {d : Dev} (hd : d.tidy) : (supPut p12 aux vbat cell fail d).tidy := tidy_with
    hd

/-! ## The fault controller at work, the watchdogs, the double trap and the restart of the device -/

theorem restartGo_tidy {parts : BootParts} {d : Dev} (hd : d.tidy) : (restartGo parts d).tidy := bootGo_tidy (windDown_tidy hd)

theorem faultHalt_tidy {cause subj : Nat} {d : Dev} (hd : d.tidy) : (faultHalt cause subj d).tidy :=
  tidy_ite (haltGo_tidy (enterSlot_tidy hd)) hd

theorem faultStart_tidy {f : Flt} {d : Dev} (hd : d.tidy) : (faultStart f d).tidy := by
  unfold faultStart
  split
  · exact faultHalt_tidy hd
  · exact restartGo_tidy (enterSlot_tidy hd)
  · exact enterSlot_tidy hd

theorem countMerged_tidy {d : Dev} (hd : d.tidy) : (countMerged d).tidy := satFld_tidy hd

theorem faultTake_tidy {f : Flt} {d : Dev} (hd : d.tidy) : (faultTake f d).tidy := by
  unfold faultTake
  extract_lets
  exact tidy_ite (countMerged_tidy hd) (tidy_ite (faultStart_tidy hd)
    (tidy_ite (satFld_tidy (modFlt_tidy hd)) (faultHalt_tidy (modFlt_tidy hd))))

theorem queueFix_tidy {d : Dev} (hd : d.tidy) : (queueFix d).tidy := satFld_tidy (modFlt_tidy hd)

theorem queueRun_tidy {n : Nat} {d : Dev} (hd : d.tidy) : (queueRun n d).tidy := by
  induction n generalizing d with
  | zero => exact hd
  | succ n ih =>
    unfold queueRun
    split
    · exact hd
    · exact tidy_ite (ih (countMerged_tidy (modFlt_tidy hd))) (tidy_ite (ih (faultStart_tidy (modFlt_tidy hd))) hd)

theorem coreDone_tidy {f : Flt} {d : Dev} (hd : d.tidy) : (coreDone f d).tidy :=
  tidy_ite hd (raiseEv_tidy (modQuarter_tidy (coreReset_tidy hd)))

theorem wdtSync_tidy {was : Nat} {d : Dev} (hd : d.tidy) : (wdtSync was d).tidy :=
  tidy_foldl (fun _ _ h => tidy_ite (modHart_tidy h) h) hd

theorem wdtRestart_tidy {h : Nat} {d : Dev} (hd : d.tidy) : (wdtRestart h d).tidy := wdtSync_tidy (jobBoundary_tidy (modHart_tidy hd))

theorem raiseFault_tidy {f : Flt} {d : Dev} (hd : d.tidy) : (raiseFault f d).tidy := tidy_ite (tidy_with hd) hd

theorem parkCore_tidy {h : Nat} {d : Dev} (hd : d.tidy) : (parkCore h d).tidy := releaseClaims_tidy (modHart_tidy hd)

/-! ## The calls of the secure monitor, modes and drains -/

theorem dbgAct_tidy {h : Nat} {d : Dev} (hd : d.tidy) : (dbgAct h d).tidy := tidy_ite (tidy_with hd) hd

theorem dbgActAll_tidy {d : Dev} (hd : d.tidy) : (dbgActAll d).tidy := tidy_foldl (fun _ _ => dbgAct_tidy) hd

theorem stileRet_tidy {h : Nat} {rs : List Nat} {d : Dev} (hd : d.tidy) : (stileRet h rs d).tidy := modHart_tidy hd

theorem stile_tidy {h fid : Nat} {f : Dev → Dev} {d : Dev} (hf : ∀ x, x.tidy → (f x).tidy) (hd : d.tidy) : (stile h fid f d).tidy := by
  unfold stile
  split
  · exact hd
  · split
    · exact stileRet_tidy hd
    · exact tidy_ite (hf _ hd) (stileRet_tidy hd)

theorem stileFenced_tidy {h : Nat} {go : Dev → Dev} {d : Dev} (hgo : ∀ x, x.tidy → (go x).tidy) (hd : d.tidy) :
    (stileFenced h go d).tidy :=
  tidy_ite (stileRet_tidy hd) (hgo _ hd)

theorem monRead_tidy {h a n : Nat} {d : Dev} (hd : d.tidy) : (monRead h a n d).2.tidy := by
  unfold monRead
  split
  rename_i e
  exact tidy_snd3 e (memFetch_tidy hd)

theorem monWrite_tidy {h a : Nat} {b : Bytes} {d : Dev} (hd : d.tidy) : (monWrite h a b d).tidy := memStore_tidy hd

theorem hartStart_tidy {t entry : Nat} {world : Bool} {args : List Nat} {d : Dev} (hd : d.tidy) : (hartStart t entry world args d).tidy :=
  tidy_ite hd (dbgAct_tidy (wdtRestart_tidy (modHart_tidy hd)))

theorem hartWake_tidy {h mask entry arg world : Nat} {d : Dev} (hd : d.tidy) : (hartWake h mask entry arg world d).tidy := by
  unfold hartWake
  extract_lets _ _ _ d1
  have hd1 : d1.tidy := tidy_foldl (fun _ _ => hartStart_tidy) hd
  exact tidy_ite (stileRet_tidy hd) (tidy_ite (stileRet_tidy hd) (tidy_ite (stileRet_tidy hd) (stileRet_tidy hd1)))

theorem hartRetire_tidy {h a0 : Nat} {d : Dev} (hd : d.tidy) : (hartRetire h a0 d).tidy :=
  tidy_ite (stileRet_tidy hd) (tidy_ite (stileRet_tidy hd) (tidy_ite (writeQreq_tidy (coreReset_tidy hd)) (coreReset_tidy hd)))

theorem modeDeny_tidy {h reason : Nat} {d : Dev} (hd : d.tidy) : (modeDeny h reason d).tidy := stileRet_tidy (setFld_tidy hd)

theorem diagEnter_tidy {d : Dev} (hd : d.tidy) : (diagEnter d).tidy := by
  unfold diagEnter
  extract_lets _ d1 d2
  have hd1 : d1.tidy := ofcStop_tidy (mgrAbort_tidy (enterMode_tidy (tidy_with hd)))
  have hd2 : d2.tidy := tidy_foldl (fun _ _ h => endStalls_tidy (tidy_ite h (modWell_tidy h))) hd1
  exact tidy_foldl (fun _ _ => markNeed_tidy) hd2

theorem wellsBack_tidy {was : Mode} {d : Dev} (hd : d.tidy) : (wellsBack was d).tidy := by
  unfold wellsBack
  extract_lets d1
  have hd1 : d1.tidy := tidy_ite (tidy_foldl (fun _ _ h => markNeed_tidy (modDrbg_tidy h)) hd) hd
  exact tidy_foldl (fun _ _ h2 => tidy_ite (setFld_tidy (wellRestart_tidy h2)) h2) hd1

theorem drainStep_tidy {d : Dev} (hd : d.tidy) : (drainStep d).tidy := by
  unfold drainStep
  split
  · exact tidy_ite (trapOut_tidy (stileRet_tidy (diagEnter_tidy hd))) hd
  · exact hd

theorem modeRequest_tidy {h code : Nat} {d : Dev} (hd : d.tidy) : (modeRequest h code d).tidy := by
  unfold modeRequest
  extract_lets
  split
  · exact stileRet_tidy hd
  · split
    · exact tidy_ite (tidy_ite (stileRet_tidy (serviceEnter_tidy (wellsBack_tidy hd))) (modeDeny_tidy hd)) (modeDeny_tidy hd)
    · exact tidy_ite (modeDeny_tidy hd) (tidy_ite (drowseEnter_tidy hd) (modeDeny_tidy hd))
    · exact tidy_ite (modeDeny_tidy hd) (drainStep_tidy (trapIn_tidy (tidy_with hd)))
    · exact tidy_ite (modeDeny_tidy hd) (tidy_ite (modeDeny_tidy hd)
        (tidy_ite (stileRet_tidy (ofcStop_tidy (mgrAbort_tidy (enterMode_tidy hd)))) (modeDeny_tidy hd)))
    · exact modeDeny_tidy hd

theorem fwStage_tidy {h addr len : Nat} {flashOk : Bool} {d : Dev} (hd : d.tidy) : (fwStage h addr len flashOk d).tidy := by
  unfold fwStage
  split
  · exact stileRet_tidy hd
  · split
    · exact stileRet_tidy hd
    · split
      rename_i d1 e
      have hd1 : d1.tidy := tidy_snd e (monRead_tidy hd)
      split
      · exact stileRet_tidy hd1
      · split
        · exact stileRet_tidy hd1
        · exact tidy_ite (stileRet_tidy (slotPut_tidy (tidy_with hd1))) (stileRet_tidy (slotPut_tidy (tidy_with hd1)))

theorem setRow_tidy {n : Nat} {f : OwnerRow → OwnerRow} {d : Dev} (hd : d.tidy) : (setRow n f d).tidy := tidy_with hd

theorem fwKeyAdd_tidy {h addr : Nat} {fuseOk : Bool} {d : Dev} (hd : d.tidy) : (fwKeyAdd h addr fuseOk d).tidy := by
  unfold fwKeyAdd
  split
  · exact stileRet_tidy hd
  · split
    · split
      rename_i d1 e
      have hd1 : d1.tidy := tidy_snd e (monRead_tidy hd)
      exact tidy_ite (stileRet_tidy (setRow_tidy hd1)) (stileRet_tidy hd1)
    · exact stileRet_tidy hd

theorem fwKeyRevoke_tidy {h row : Nat} {d : Dev} (hd : d.tidy) : (fwKeyRevoke h row d).tidy :=
  tidy_ite (stileRet_tidy hd) (tidy_ite (stileRet_tidy hd) (stileRet_tidy (setRow_tidy hd)))

theorem ctxPut_tidy {h : Nat} {ctx : List Nat} {d : Dev} (hd : d.tidy) : (ctxPut h ctx d).tidy := modHart_tidy hd

theorem ctxEnter_tidy {h : Nat} {c : Ctx} {a1 a2 a3 : Nat} {d : Dev} (hd : d.tidy) : (ctxEnter h c a1 a2 a3 d).tidy :=
  dbgAct_tidy (modHart_tidy hd)

theorem worldSwitch_tidy {h a1 a2 a3 : Nat} {ctx : List Nat} {d : Dev} (hd : d.tidy) : (worldSwitch h a1 a2 a3 ctx d).tidy := by
  unfold worldSwitch
  split
  · exact stileRet_tidy hd
  · exact ctxEnter_tidy (ctxPut_tidy hd)

theorem nsEntry_tidy {h mask entry arg : Nat} {d : Dev} (hd : d.tidy) : (nsEntry h mask entry arg d).tidy :=
  tidy_ite (stileRet_tidy hd) (tidy_ite (stileRet_tidy hd) (stileRet_tidy (tidy_foldl (fun _ _ => modHart_tidy) hd)))

theorem hostcfgSet_tidy {h addr : Nat} {d : Dev} (hd : d.tidy) : (hostcfgSet h addr d).tidy := by
  unfold hostcfgSet
  split
  · exact stileRet_tidy hd
  · split
    rename_i d1 e
    have hd1 : d1.tidy := tidy_snd e (monRead_tidy hd)
    exact tidy_ite (stileRet_tidy (putBytes_tidy hd1)) (stileRet_tidy hd1)

theorem debugNonce_tidy {h addr : Nat} {d : Dev} (hd : d.tidy) : (debugNonce h addr d).tidy :=
  tidy_ite (stileRet_tidy hd) (stileRet_tidy (monWrite_tidy (tidy_with (tidy_with hd))))

theorem certCheck_tidy {nonce : Option Bytes} {b : Bytes} {d : Dev} (hd : d.tidy) : (certCheck nonce b d).2.tidy := by
  unfold certCheck
  extract_lets
  split
  · exact hd
  · split
    · exact hd
    · split
      · exact hd
      · split
        · exact hd
        · split
          · exact hd
          · split
            · exact hd
            · split
              · exact hd
              · split
                · exact hd
                · split
                  · rename_i e
                    exact tidy_snd e (ticketsCheck_tidy hd)
                  · rename_i e1
                    exact tidy_snd e1 (ticketsCheck_tidy hd)

theorem certGrant_tidy {h : Nat} {b : Bytes} {ids : List Nat} {d : Dev} (hd : d.tidy) : (certGrant h b ids d).tidy := by
  unfold certGrant
  extract_lets _ _ d1
  have hd1 : d1.tidy := tidy_foldl (fun _ _ => redeemChallenge_tidy) hd
  exact stileRet_tidy (record_tidy (tidy_with hd1))

theorem debugCert_tidy {h addr len : Nat} {d : Dev} (hd : d.tidy) : (debugCert h addr len d).tidy := by
  unfold debugCert
  extract_lets
  split
  · exact stileRet_tidy (tidy_with hd)
  · split
    · exact stileRet_tidy (tidy_with hd)
    · split
      rename_i d1 e
      have hd1 : d1.tidy := tidy_snd e (monRead_tidy (tidy_with hd))
      split
      · rename_i e1
        exact stileRet_tidy (record_tidy (tidy_snd e1 (certCheck_tidy hd1)))
      · rename_i e2
        exact stileFenced_tidy (fun _ => certGrant_tidy) (tidy_snd e2 (certCheck_tidy hd1))

/-! ## What a read of a register answers -/

theorem readReg_tidy {a : Access} {k : PageKind} {p off : Nat} {d : Dev} (hd : d.tidy) : (readReg a k p off d).2.tidy :=
  snd_ite (mgrEventRead'_tidy hd) (snd_ite (swDataRead_tidy hd)
    (snd_ite (claimRead_tidy hd) (snd_ite (evNext_tidy hd) (snd_ite (evPrev_tidy hd) (snd_ite hd hd)))))

theorem readWord_tidy {a : Access} {p off : Nat} {d : Dev} (hd : d.tidy) : (readWord a p off d).2.tidy := by
  unfold readWord
  split
  · exact hd
  · exact hd
  · exact snd_ite (countViol_tidy hd) (readReg_tidy hd)

theorem pageRead_tidy {a : Access} {p off n : Nat} {d : Dev} (hd : d.tidy) : (pageRead a p off n d).2.tidy := by
  unfold pageRead
  split
  · exact tidy_ite hd (regErr_tidy hd)
  · split
    · split
      rename_i d1 e
      have hd1 : d1.tidy := tidy_snd e (readWord_tidy hd)
      split
      rename_i e1
      exact tidy_snd e1 (readWord_tidy hd1)
    · split
      rename_i e2
      exact tidy_snd e2 (readWord_tidy hd)

theorem readAnswer_tidy {a : Access} {p off n : Nat} {d : Dev} (hd : d.tidy) : (readAnswer a p off n d).tidy := by
  unfold readAnswer
  refine tidy_ite (tidy_with hd) ?_
  split
  rename_i e
  exact tidy_with (tidy_snd e (pageRead_tidy hd))

/-! ## The event recorder's registers -/

theorem evrWriteGo_tidy {a : Access} {v : Nat} {d : Dev} (hd : d.tidy) : (evrWriteGo a v d).tidy := by
  unfold evrWriteGo
  extract_lets
  split
  · exact regErr_tidy hd
  · split
    · rename_i d1 e
      have hd1 : d1.tidy := tidy_snd3 e (memFetch_tidy hd)
      exact tidy_ite (regErr_tidy hd1) (handRec_tidy hd1)
    · rename_i e1
      exact regErr_tidy (tidy_snd3 e1 (memFetch_tidy hd))

theorem evrClearEnd_tidy {st info : Nat} {d : Dev} (hd : d.tidy) : (evrClearEnd st info d).tidy :=
  raiseEv_tidy (setFld_tidy (setFld_tidy hd))

theorem evrTicket_tidy {d : Dev} (hd : d.tidy) : (evrTicket d).2.2.2.tidy := memFetch2_tidy hd

theorem evrClearGo_tidy {mask : Nat} {d : Dev} (hd : d.tidy) : (evrClearGo mask d).tidy := by
  unfold evrClearGo
  split
  · exact evrClearEnd_tidy hd
  · split
    · exact evrClearEnd_tidy hd
    · split
      · exact evrClearEnd_tidy hd
      · split
        · rename_i d1 e
          have hd1 : d1.tidy := tidy_snd3 e (evrTicket_tidy hd)
          split
          · rename_i e1
            exact handRec_tidy (tidy_snd e1 (ticketsCheck_tidy hd1))
          · rename_i e2
            exact evrClearEnd_tidy (tidy_snd e2 (ticketsCheck_tidy hd1))
        · rename_i e3
          exact evrClearEnd_tidy (tidy_snd3 e3 (evrTicket_tidy hd))

theorem evrReg0_tidy {a : Access} {off v : Nat} {d : Dev} (hd : d.tidy) : (evrReg0 a off v d).tidy := by
  unfold evrReg0
  split
  · exact denyWorld_tidy hd
  · exact tidy_ite (evrWriteGo_tidy (judgePlain_tidy hd)) (tidy_ite (evrClearGo_tidy (judgePlain_tidy hd)) (judgePlain_tidy hd))

theorem evrReg1_tidy {a : Access} {off v : Nat} {d : Dev} (hd : d.tidy) : (evrReg1 a off v d).tidy :=
  tidy_ite hd (tidy_ite hd (tidy_ite (regErr_tidy hd) (tidy_ite (tidy_with hd) (tidy_with hd))))

theorem evrWrite_tidy {a : Access} {p off v : Nat} {d : Dev} (hd : d.tidy) : (evrWrite a p off v d).tidy := by
  unfold evrWrite
  split
  · rename_i e
    exact evrReg0_tidy (tidy_snd e (admitWrite_tidy hd))
  · rename_i e1
    exact evrReg1_tidy (tidy_snd e1 (admitWrite_tidy hd))
  · rename_i e2
    exact tidy_snd e2 (admitWrite_tidy hd)

/-! ## The tamper monitor -/

theorem modTamp_tidy {f : TampSt → TampSt} {d : Dev} (hd : d.tidy) : (modTamp f d).tidy := tidy_with hd

theorem tampPut_tidy {s : Nat} {x : TampSrc} {d : Dev} (hd : d.tidy) : (tampPut s x d).tidy := modTamp_tidy hd

theorem alarmCount_tidy {s : Nat} {d : Dev} (hd : d.tidy) : (alarmCount s d).tidy := tidy_ite (satFld_tidy (setFld_tidy hd)) hd

theorem alarmLatch_tidy {m : Mode} {eff exe : Nat} {x : Alarm} {d : Dev} (hd : d.tidy) : (alarmLatch m eff exe x d).tidy :=
  tidy_ite (latchPut_tidy hd) hd

theorem alarmRecord_tidy {m : Mode} {eff exe time : Nat} {x : Alarm} {d : Dev} (hd : d.tidy) : (alarmRecord m eff exe time x d).tidy :=
  tidy_ite hd (handRec_tidy hd)

theorem scaleStep_tidy {d : Dev} (hd : d.tidy) : (scaleStep d).tidy := tidy_ite hd (tidy_with hd)

theorem throttleOn_tidy {s : Nat} {d : Dev} (hd : d.tidy) : (throttleOn s d).tidy :=
  tidy_ite (scaleStep_tidy (satFld_tidy (modTamp_tidy hd))) (raiseEv_tidy (scaleStep_tidy (satFld_tidy (modTamp_tidy hd))))

theorem alarmEnd_tidy {s : Nat} {d : Dev} (hd : d.tidy) : (alarmEnd s d).tidy := tidy_ite (modTamp_tidy hd) hd

theorem alarmRespond_tidy {top : Nat} {l : List Nat} {d : Dev} (hd : d.tidy) : (alarmRespond top l d).tidy :=
  tidy_ite (zeroise_tidy hd) (tidy_ite hd (tidy_ite (faultHalt_tidy hd)
    (tidy_ite (tidy_foldl (fun _ _ h => raiseFault_tidy (modLant_tidy h)) hd) hd)))

theorem alarmsAct_tidy {l : List Alarm} {d : Dev} (hd : d.tidy) : (alarmsAct l d).tidy := by
  unfold alarmsAct
  split
  · exact hd
  · extract_lets _ _ _ _ _ _ d1 d2 d3 d4 d5
    have hd1 : d1.tidy := tidy_foldl (fun _ _ h => alarmLatch_tidy (alarmCount_tidy h)) hd
    have hd2 : d2.tidy := tidy_ite (wake_tidy hd1) hd1
    have hd3 : d3.tidy := tidy_foldl (fun _ _ => alarmRecord_tidy) hd2
    have hd4 : d4.tidy := tidy_ite (raiseEv_tidy hd3) hd3
    have hd5 : d5.tidy := tidy_foldl (fun _ _ => throttleOn_tidy) hd4
    exact alarmRespond_tidy hd5

theorem readingPut_tidy {f : Fld} {r : Option ℤ} {d : Dev} (hd : d.tidy) : (readingPut f r d).tidy := by
  unfold readingPut
  split
  · exact setFld_tidy hd
  · exact hd

theorem tripReading_tidy {s rail : Nat} {r rB : Option ℤ} {d : Dev} (hd : d.tidy) : (tripReading s rail r rB d).tidy :=
  tidy_ite (readingPut_tidy (readingPut_tidy hd)) (tidy_ite (readingPut_tidy hd) (tidy_ite (readingPut_tidy hd) hd))

theorem tripSource_tidy {s : Nat} {a b : Bool} {r rB : Option ℤ} {rail : Nat} {d : Dev} (hd : d.tidy) :
    (tripSource s a b r rB rail d).2.tidy :=
  tripReading_tidy (tampPut_tidy hd)

theorem tampClear_tidy {s : Nat} {d : Dev} (hd : d.tidy) : (tampClear s d).tidy := alarmEnd_tidy (tampPut_tidy hd)

theorem monSettle_tidy {d : Dev} (hd : d.tidy) : (monSettle d).tidy := tidy_ite (tampClear_tidy hd) hd

theorem busAlarm_tidy {d : Dev} (hd : d.tidy) : (busAlarm d).tidy := alarmEnd_tidy (alarmsAct_tidy hd)

theorem monFire_tidy {s : Nat} {d : Dev} (hd : d.tidy) : (monFire s d).tidy := by
  unfold monFire
  extract_lets _ _ _ _ d1
  have hd1 : d1.tidy := tidy_ite (raiseEv_tidy (satFld_tidy (modTamp_tidy (tampPut_tidy (tampPut_tidy hd)))))
    (tampPut_tidy (tampPut_tidy hd))
  exact alarmsAct_tidy hd1

theorem sampleSource_tidy {r : LanternRead} {step s : Nat} {d : Dev} (hd : d.tidy) : (sampleSource r step s d).2.tidy := by
  unfold sampleSource
  extract_lets
  split
  exact snd_ite (tampPut_tidy hd) (alarmEnd_tidy (tampPut_tidy hd))

theorem loopRes_tidy {r : LanternRead} {d : Dev} (hd : d.tidy) : (loopRes r d).tidy := modLant_tidy hd

theorem fuseBurn_tidy {mask : Nat} {d : Dev} (hd : d.tidy) : (fuseBurn mask d).tidy := by
  unfold fuseBurn
  extract_lets _ _ _ d1
  have hd1 : d1.tidy := tidy_foldl (fun _ _ h => tidy_ite (alarmEnd_tidy (tampPut_tidy h)) h) (tidy_with hd)
  exact tidy_ite hd (record_tidy (monSettle_tidy hd1))

theorem fuseReq_tidy {a : Access} {mask : Nat} {d : Dev} (hd : d.tidy) : (fuseReq a mask d).tidy :=
  tidy_ite (regErr_tidy hd) (tidy_ite (regErr_tidy hd) (fuseBurn_tidy hd))

theorem tampReg_tidy {k : PageKind} {a : Access} {p off v : Nat} {d : Dev} (hd : d.tidy) : (tampReg k a p off v d).tidy := by
  unfold tampReg
  extract_lets
  exact tidy_ite (tidy_ite (fuseReq_tidy (judgePlain_tidy hd)) (judgePlain_tidy hd))
    (tidy_ite (tidy_ite (modLant_tidy (judgePlain_tidy hd)) (judgePlain_tidy hd)) (judgePlain_tidy hd))

theorem vigPut_tidy {j : Judged} {v refA refB : Nat} (hj : j.d.tidy) : (vigPut j v refA refB).tidy := tidy_with hj

theorem vigReg_tidy {a : Access} {off v refA refB : Nat} {d : Dev} (hd : d.tidy) : (vigReg a off v refA refB d).tidy := by
  unfold vigReg
  extract_lets
  exact tidy_ite (judgePlain_tidy hd) (tidy_ite (regErr_tidy (vigPut_tidy (judgePlain_tidy hd))) (vigPut_tidy (judgePlain_tidy hd)))

/-! ## The registers of the Wells and of the software port -/

theorem captureGo_tidy {a : Access} {q : Nat} {d : Dev} (hd : d.tidy) : (captureGo a q d).tidy :=
  tidy_ite (regErr_tidy hd) (tidy_ite (regErr_tidy hd) (tidy_ite (regErr_tidy hd) (tidy_ite hd (setFld_tidy (modWell_tidy hd)))))

theorem substOn_tidy {q : Nat} {d : Dev} (hd : d.tidy) : (substOn q d).tidy := modWell_tidy hd

theorem substGo_tidy {a : Access} {q v was : Nat} {d : Dev} (hd : d.tidy) : (substGo a q v was d).tidy := by
  unfold substGo
  extract_lets
  exact tidy_ite (tidy_ite hd (tidy_ite (regErr_tidy (setFld_tidy hd)) (tidy_ite (regErr_tidy (setFld_tidy hd)) (substOn_tidy hd))))
    (tidy_ite (wellRestart_tidy hd) hd)

theorem entDiag_tidy {a : Access} {q v : Nat} {d : Dev} (hd : d.tidy) : (entDiag a q v d).tidy := by
  unfold entDiag
  extract_lets _ _ _ _ d1
  have hd1 : d1.tidy := tidy_ite (substGo_tidy (judgePlain_tidy hd)) (judgePlain_tidy hd)
  exact tidy_ite (captureGo_tidy hd1) hd1

theorem entReg_tidy {a : Access} {p off v : Nat} {d : Dev} (hd : d.tidy) : (entReg a p off v d).tidy :=
  tidy_ite (entDiag_tidy hd) (judgePlain_tidy hd)

theorem entWrite_tidy {a : Access} {q off v : Nat} {d : Dev} (hd : d.tidy) : (entWrite a q off v d).tidy := by
  unfold entWrite
  split
  · rename_i e
    exact entReg_tidy (tidy_snd e (admitWrite_tidy hd))
  · rename_i e1
    exact tidy_snd e1 (admitWrite_tidy hd)

theorem capTests_tidy {q : Nat} {alt : Bool} {b : Bytes} {d : Dev} (hd : d.tidy) : (capTests q alt b d).tidy :=
  countFail_tidy (modNoise_tidy hd)

theorem emptyClear_tidy {a : Access} {v : Nat} {d : Dev} (hd : d.tidy) : (emptyClear a v d).tidy :=
  tidy_ite (regErr_tidy hd) (tidy_ite (tidy_with hd) hd)

theorem emptyWrite_tidy {a : Access} {v : Nat} {d : Dev} (hd : d.tidy) : (emptyWrite a v d).tidy := tidy_ite (emptyClear_tidy hd) hd

theorem drbgReg_tidy {a : Access} {off v : Nat} {d : Dev} (hd : d.tidy) : (drbgReg a off v d).tidy :=
  tidy_ite (emptyClear_tidy hd) (syncPorts_tidy (judgePlain_tidy hd))

/-! ## The DMA channels -/

theorem busInt_tidy {w : Who} {target : Bool} {addr : Nat} {d : Dev} (hd : d.tidy) : (busInt w target addr d).tidy :=
  busAlarm_tidy (raiseEv_tidy (setFld_tidy (setFld_tidy (setFld_tidy (setFld_tidy (setFld_tidy (setFld_tidy (satFld_tidy hd))))))))

theorem winWrite_tidy {a : Nat} {b : Bytes} {d : Dev} (hd : d.tidy) : (winWrite a b d).tidy := tidy_ite (emitAll_tidy hd) hd

theorem winRead_tidy {a n : Nat} {data : HostData} {d : Dev} (hd : d.tidy) : (winRead a n data d).2.tidy := snd_ite (emitAll_tidy hd) hd

theorem dmaRegRead_tidy {x : Access} {a f n : Nat} {d : Dev} (hd : d.tidy) : (dmaRegRead x a f n d).2.tidy := by
  induction f generalizing a n d with
  | zero => exact hd
  | succ f ih =>
    unfold dmaRegRead
    split
    · exact hd
    · extract_lets k
      split
      rename_i e
      have hd1 := tidy_snd e (pageRead_tidy hd)
      split
      rename_i e1
      exact tidy_snd e1 (ih hd1)

theorem dmaRegWrite_tidy {port : RegPort} {x : Access} {a f : Nat} {b : Bytes} {d : Dev}
    (hport : ∀ a p off n v d, d.tidy → (port a p off n v d).tidy) (hd : d.tidy) : (dmaRegWrite port x a f b d).tidy := by
  induction f generalizing a b d with
  | zero => exact hd
  | succ f ih => exact tidy_ite hd (ih (hport _ _ _ _ _ _ hd))

theorem dmaRead1_tidy {ch a n : Nat} {io : DmaIo} (hio : io.d.tidy) : (dmaRead1 ch a n io).2.d.tidy := by
  unfold dmaRead1
  extract_lets
  split
  · split
    rename_i d1 e
    have hd1 : d1.tidy := tidy_snd e (judgePart_tidy hio)
    split
    · split
      rename_i e1
      exact tidy_snd e1 (dmaRegRead_tidy hd1)
    · exact hd1
  · split
    rename_i d2 e2
    have hd2 : d2.tidy := tidy_snd e2 (judgePart_tidy hio)
    split
    · split
      rename_i d3 e3
      have hd3 : d3.tidy := tidy_snd e3 (winRead_tidy hd2)
      split <;> exact hd3
    · exact hd2
  · split
    rename_i e4
    exact tidy_snd3 e4 (memFetch_tidy hio)

theorem dmaRead_tidy {ch : Nat} {badAt : Option DmaErr} {a n : Nat} {io : DmaIo} (hio : io.d.tidy) :
    (dmaRead ch badAt a n io).2.d.tidy := by
  unfold dmaRead
  extract_lets w
  split
  · exact hio
  · split
    · exact busInt_tidy hio
    · exact dmaRead1_tidy hio

theorem dmaWrite_tidy {port : RegPort} {ch : Nat} {badAt : Option DmaErr} {a : Nat} {b : Bytes} {io : DmaIo} (hport : port.tidy)
    (hio : io.d.tidy) : (dmaWrite port ch badAt a b io).d.tidy := by
  unfold dmaWrite
  extract_lets
  split
  · exact hio
  · split
    · exact busInt_tidy hio
    · split
      · split
        rename_i d1 e
        have hd1 : d1.tidy := tidy_snd e (judgePart_tidy hio)
        exact tidy_ite (satFld_tidy (tidy_ite (dmaRegWrite_tidy hport hd1) hd1)) (tidy_ite (dmaRegWrite_tidy hport hd1) hd1)
      · split
        rename_i d2 e1
        have hd2 : d2.tidy := tidy_snd e1 (judgePart_tidy hio)
        exact tidy_ite (satFld_tidy (tidy_ite (winWrite_tidy hd2) hd2)) (tidy_ite (winWrite_tidy hd2) hd2)
      · split
        rename_i d3 e2
        have hd3 : d3.tidy := tidy_snd e2 (memStore_tidy hio)
        split
        · exact satFld_tidy hd3
        · exact satFld_tidy hd3
        · exact satFld_tidy hd3
        · exact hd3

theorem dmaUnits_tidy {port : RegPort} {ch : Nat} {badAt : Option DmaErr} {f j : Nat} {io : DmaIo}
    (hport : ∀ a p off n v d, d.tidy → (port a p off n v d).tidy) (hio : io.d.tidy) :
    (dmaUnits port ch badAt f j io).d.tidy := by
  induction f generalizing j io with
  | zero => exact hio
  | succ f ih =>
    unfold dmaUnits
    extract_lets p e m ks
    split
    · exact hio
    · split
      rename_i b io1 e1
      have hio1 : io1.d.tidy := of_eq (fun x : Bytes × DmaIo => x.2.d.tidy) e1
        (foldl_of (fun x : Bytes × DmaIo => x.2.d.tidy) (fun _ _ => dmaRead_tidy) hio)
      extract_lets out io2
      exact ih (foldl_of (fun x : Bytes × DmaIo => x.2.d.tidy) (fun _ _ h => dmaWrite_tidy hport h) hio1)

theorem dmaTransfer_tidy {port : RegPort} {ch : Nat} {host : List HostData} {badAt : Option DmaErr} {d : Dev} (hport : port.tidy)
    (hd : d.tidy) : (dmaTransfer port ch host badAt d).tidy := by
  unfold dmaTransfer
  extract_lets
  split
  · exact dmaUnits_tidy hport (setFld_tidy hd)
  · split
    · exact dmaStop_tidy (dmaUnits_tidy hport (setFld_tidy hd))
    · split
      rename_i d1 e
      have hd1 : d1.tidy := tidy_snd e (judgePart_tidy (dmaUnits_tidy hport (setFld_tidy hd)))
      split
      · exact dmaStop_tidy hd1
      · exact modDma_tidy hd1

theorem dmaGo_tidy {port : RegPort} {a : Access} {ch : Nat} {host : List HostData} {badAt : Option DmaErr} {d : Dev} (hport : port.tidy)
    (hd : d.tidy) : (dmaGo port a ch host badAt d).tidy := by
  unfold dmaGo
  extract_lets _ _ _ _ d1
  have hd1 : d1.tidy := setFld_tidy (setFld_tidy (modDma_tidy hd))
  exact tidy_ite hd (tidy_ite (regErr_tidy hd) (tidy_ite (regErr_tidy hd)
    (tidy_ite (regErr_tidy hd) (tidy_ite (raiseEv_tidy (setFld_tidy hd)) (dmaTransfer_tidy hport hd1)))))

theorem dmaIdle_tidy {ch : Nat} {d : Dev} (hd : d.tidy) : (dmaIdle ch d).tidy := settle_tidy (setFld_tidy (modDma_tidy hd))

theorem dmaNext_tidy {port : RegPort} {ch : Nat} {host : List HostData} {badAt : Option DmaErr} {d : Dev} (hport : port.tidy)
    (hd : d.tidy) : (dmaNext port ch host badAt d).tidy := by
  unfold dmaNext
  extract_lets _ _ d1
  have hd1 : d1.tidy := raiseEv_tidy (jobBoundary_tidy (modDma_tidy hd))
  exact tidy_ite (dmaIdle_tidy hd1) (tidy_ite (dmaStop_tidy hd1) (dmaTransfer_tidy hport (setFld_tidy hd1)))

theorem dmaReadback_tidy {port : RegPort} {ch : Nat} {host : List HostData} {badAt : Option DmaErr} {d : Dev} (hport : port.tidy)
    (hd : d.tidy) : (dmaReadback port ch host badAt d).tidy := by
  unfold dmaReadback
  extract_lets
  split
  · exact tidy_ite (dmaStop_tidy (busInt_tidy hd)) (busInt_tidy hd)
  · split
    · exact tidy_ite (dmaNext_tidy hport hd) (dmaStop_tidy (countTreset_tidy hd))
    · split
      · rename_i e
        exact dmaNext_tidy hport (tidy_snd e (winRead_tidy hd))
      · rename_i e1
        exact dmaStop_tidy (tidy_snd e1 (winRead_tidy hd))
    · exact dmaNext_tidy hport hd

theorem dmaCtl_tidy {port : RegPort} {a : Access} {ch v : Nat} {host : List HostData} {badAt : Option DmaErr} {d : Dev}
    (hport : port.tidy) (hd : d.tidy) : (dmaCtl port a ch v host badAt d).tidy := by
  unfold dmaCtl
  extract_lets _ d1
  have hd1 : d1.tidy := tidy_ite (dmaStop_tidy (judgePlain_tidy hd)) (judgePlain_tidy hd)
  exact tidy_ite (dmaGo_tidy hport hd1) hd1

/-! ## The commands of the queues, of the command path and of the key store's own work -/

theorem atStage_tidy {tag : Nat} {st : Stage} {f : Cmd → Dev → Dev} {d : Dev} (hf : ∀ y x, x.tidy → (f y x).tidy) (hd : d.tidy) :
    (atStage tag st f d).tidy := by
  unfold atStage
  split
  · exact tidy_ite (hf _ _ hd) hd
  · exact hd

theorem rcqAdvance_tidy {a : Access} {tail : Nat} {d : Dev} (hd : d.tidy) : (rcqAdvance a tail d).tidy := rcqConsume_tidy (judge_tidy hd)

theorem dataUnitCount_tidy {lane : Nat} {c : Cmd} {chk : Nat} {d : Dev} (hd : d.tidy) : (dataUnitCount lane c chk d).tidy :=
  jobBoundary_tidy (tidy_ite (satFld_tidy hd) (blkAdd_tidy (satFld_tidy hd)))

theorem dataUnitGo_tidy {lane chk : Nat} {c : Cmd} {d : Dev} (hd : d.tidy) : (dataUnitGo lane chk c d).tidy := by
  unfold dataUnitGo
  extract_lets _ _ _ d1
  have hd1 : d1.tidy := tidy_ite (writeOut_tidy (dataUnitCount_tidy hd)) (dataUnitCount_tidy hd)
  exact tidy_ite (unitFault_tidy (freeUnits_tidy (holdCmd_tidy (dataUnitCount_tidy hd)))) (putCmd_tidy hd1)

theorem restoreNext_tidy {dmg : VaultDamage} {d : Dev} (hd : d.tidy) : (restoreNext dmg d).tidy := by
  unfold restoreNext
  split
  · exact tidy_ite (restoreDone_tidy (modKey_tidy (vaultRestore_tidy hd))) (modKey_tidy (vaultRestore_tidy hd))
  · exact restoreDone_tidy hd

theorem eraseOld_tidy {n : Nat} {d : Dev} (hd : d.tidy) : (eraseOld n d).tidy := by
  unfold eraseOld
  extract_lets d1
  have hd1 : d1.tidy := by
    unfold d1
    split
    · exact tidy_ite (t1Put_tidy hd) hd
    · exact hd
  exact modKey_tidy hd1

theorem rootGo_tidy {root : Bytes} {steps : Nat} {d : Dev} (hd : d.tidy) : (rootGo root steps d).tidy := rootSteps_tidy (modKey_tidy hd)

theorem ksOp_tidy {a : Access} {op steps : Nat} {d : Dev} (hd : d.tidy) : (ksOp a op steps d).tidy := by
  unfold ksOp
  extract_lets
  split
  · exact hd
  · split
    · exact regErr_tidy hd
    · split
      · split
        · exact regErr_tidy hd
        · split
          · rename_i e
            exact rootGo_tidy (tidy_snd e (drawHomeless_tidy hd))
          · rename_i e1
            exact regErr_tidy (tidy_snd e1 (drawHomeless_tidy hd))
      · exact tidy_ite (raiseEv_tidy (vaultClose_tidy hd)) (raiseEv_tidy (tidy_foldl (fun _ _ h => tidy_ite (t0Evict_tidy h) h) hd))

theorem ksCmdWrite_tidy {a : Access} {v steps : Nat} {d : Dev} (hd : d.tidy) : (ksCmdWrite a v steps d).tidy :=
  tidy_ite (ksOp_tidy (judge_tidy hd)) (judge_tidy hd)

/-! ## A write of a register by a master -/

theorem targetReset_tidy {c : Cmd} {d : Dev} (hd : d.tidy) : (targetReset c d).tidy :=
  tidy_ite (failTaken_tidy (countTreset_tidy hd)) (freeUnits_tidy (putCmd_tidy (countTreset_tidy hd)))

theorem dropJob_tidy {i : Nat} {d : Dev} (hd : d.tidy) : (dropJob i d).tidy := by
  unfold dropJob
  split
  · exact hd
  · exact setFld_tidy (modUnit_tidy (ticketFree_tidy (tidy_foldl (fun _ _ => leave_tidy) hd)))

theorem unitSoft_tidy {i : Nat} {d : Dev} (hd : d.tidy) : (unitSoft i d).tidy := by
  unfold unitSoft
  extract_lets
  split
  · exact targetReset_tidy (modUnit_tidy (dropJob_tidy hd))
  · exact modUnit_tidy (dropJob_tidy hd)

theorem storeSoft_tidy {d : Dev} (hd : d.tidy) : (storeSoft d).tidy := tidy_foldl (fun _ _ => targetReset_tidy) (rootCut_tidy hd)

theorem cmdSoft_tidy {d : Dev} (hd : d.tidy) : (cmdSoft d).tidy :=
  setFld_tidy (setFld_tidy (modCmdSt_tidy (tidy_foldl (fun _ _ => discardCmd_tidy) hd)))

theorem wellSoft_tidy {q : Nat} {d : Dev} (hd : d.tidy) : (wellSoft q d).tidy :=
  tidy_ite (markFed_tidy (modWell_tidy hd)) (tidy_ite (modWell_tidy (wellRestart_tidy hd)) (wellRestart_tidy hd))

theorem mgrSoftMb_tidy {d : Dev} (hd : d.tidy) : (mgrSoftMb d).tidy := tidy_foldl (fun _ _ => setFld_tidy) (modInst_tidy hd)

theorem mgrSoft_tidy {d : Dev} (hd : d.tidy) : (mgrSoft d).tidy := by
  unfold mgrSoft
  extract_lets
  split
  · exact modMgr_tidy (modInst_tidy (mgrSoftMb_tidy hd))
  · exact mgrSoftMb_tidy hd

theorem blockSoft_tidy {k : PageKind} {p : Nat} {d : Dev} (hd : d.tidy) : (blockSoft k p d).tidy := by
  unfold blockSoft
  split
  · exact unitSoft_tidy hd
  · exact unitSoft_tidy hd
  · exact unitSoft_tidy hd
  · exact storeSoft_tidy hd
  · exact setFld_tidy (modDma_tidy hd)
  · exact cmdSoft_tidy hd
  · exact lcCut_tidy hd
  · exact ofcCut_tidy hd
  · exact mgrSoft_tidy hd
  · exact wellSoft_tidy hd
  · exact instCut_tidy (modInst_tidy hd)
  · exact tidy_with hd
  · exact hd

theorem softRegs_tidy {k : PageKind} {p : Nat} {d : Dev} (hd : d.tidy) : (softRegs k p d).tidy :=
  tidy_foldl (fun _ _ => setWord_tidy) hd

theorem softAfter_tidy {k : PageKind} {p : Nat} {was d : Dev} (hd : d.tidy) : (softAfter k p was d).tidy := by
  unfold softAfter
  split
  · exact pinEdges_tidy (pinsEmit_tidy hd)
  · exact syncPorts_tidy hd
  · exact negotiate_tidy hd
  · exact pypSync_tidy hd
  · exact tidy_foldl (fun _ _ h => tidy_ite h (tidy_ite (setFld_tidy h) (quarterAsk_tidy h))) hd
  · exact ringSweep_tidy hd
  · exact ringSweep_tidy hd
  · exact ringSweep_tidy hd
  · exact hd

theorem softGo_tidy {k : PageKind} {p : Nat} {d : Dev} (hd : d.tidy) : (softGo k p d).tidy := by
  unfold softGo
  split
  · exact modHdr_tidy hd
  · exact modHdr_tidy hd
  · exact modHdr_tidy hd
  · exact modHdr_tidy hd
  · exact modHdr_tidy hd
  · exact monRefresh_tidy (drainStep_tidy (softAfter_tidy (tidy_ite
      (pwrTry_tidy (modHdr_tidy (softRegs_tidy (blockSoft_tidy (dropShadows_tidy hd)))))
      (modHdr_tidy (softRegs_tidy (blockSoft_tidy (dropShadows_tidy hd)))))))

theorem softDone_tidy {p : Nat} {d : Dev} (hd : d.tidy) : (softDone p d).tidy := tidy_ite (pageSync_tidy (settle_tidy (modHdr_tidy hd)))
    hd

theorem putEnable_tidy {k : PageKind} {a : Access} {p : Nat} {x : Bool} {d : Dev} (hd : d.tidy) : (putEnable k a p x d).tidy := by
  unfold putEnable
  split
  · exact tidy_ite hd (tidy_ite (mpeStart_tidy hd) (regErr_tidy (mpeStart_tidy hd)))
  · exact tidy_ite (tidy_ite (instStart_tidy (modHdr_tidy hd)) (modHdr_tidy hd)) (settle_tidy (modHdr_tidy hd))

theorem writeCtrl_tidy {k : PageKind} {a : Access} {p v : Nat} {d : Dev} (hd : d.tidy) : (writeCtrl k a p v d).tidy := by
  unfold writeCtrl
  extract_lets _ _ _ d1
  have hd1 : d1.tidy := tidy_ite (modHdr_tidy hd) (putEnable_tidy (modHdr_tidy hd))
  exact tidy_ite (regErr_tidy hd) (tidy_ite (regErr_tidy hd) (tidy_ite (softGo_tidy hd1) hd1))

theorem sysReg_tidy {a : Access} {off v : Nat} {d : Dev} (hd : d.tidy) : (sysReg a off v d).tidy := wdtSync_tidy (judgePlain_tidy hd)

theorem grantClear_tidy {d : Dev} (hd : d.tidy) : (grantClear d).tidy := tidy_with hd

theorem dbgReg_tidy {a : Access} {off v : Nat} {d : Dev} (hd : d.tidy) : (dbgReg a off v d).tidy := by
  unfold dbgReg
  split
  · exact judgePlain_tidy hd
  · extract_lets _ _ _ d1 _ d2
    have hd1 : d1.tidy := tidy_ite (regErr_tidy (judgePlain_tidy hd)) (judgePlain_tidy hd)
    have hd2 : d2.tidy := tidy_ite (tidy_with hd1) hd1
    exact dbgActAll_tidy (tidy_ite (grantClear_tidy hd2) hd2)

theorem htReg_tidy {k : PageKind} {a : Access} {p off v : Nat} {d : Dev} (hd : d.tidy) : (htReg k a p off v d).tidy := by
  unfold htReg
  split
  · exact countViol_tidy (regErr_tidy hd)
  · exact tidy_ite (clearRegs_tidy (judgePlain_tidy hd)) (tidy_ite (clearRegs_tidy (judgePlain_tidy hd)) (judgePlain_tidy hd))

theorem mgrPage_tidy {a : Access} {off v : Nat} {input : HostData} {d : Dev} (hd : d.tidy) : (mgrPage a off v input d).tidy :=
  tidy_ite (svcGo_tidy (mgrReg_tidy hd)) (tidy_ite (loaderGo_tidy (mgrReg_tidy hd)) (mgrReg_tidy hd))

theorem unitReg_tidy {k : PageKind} {a : Access} {p off v : Nat} {d : Dev} (hd : d.tidy) : (unitReg k a p off v d).tidy :=
  tidy_ite (jobGo_tidy hd) (ringSweep_tidy (judgePlain_tidy hd))

theorem vigWrite_tidy {a : Access} {off v : Nat} {d : Dev} (hd : d.tidy) : (vigWrite a off v d).tidy :=
  vigReg_tidy (tidy_with (tidy_with hd))

theorem blockReg_tidy {port : RegPort} {a : Access} {k : PageKind} {p off v : Nat} {d : Dev} (hport : port.tidy) (hd : d.tidy) :
    (blockReg port a k p off v d).tidy := by
  unfold blockReg
  extract_lets
  split
  · exact sysReg_tidy hd
  · exact lcReg_tidy hd
  · exact dbgReg_tidy hd
  · exact tidy_ite (writeQreq_tidy hd) (judgePlain_tidy hd)
  · exact monRefresh_tidy (gpioReg_tidy hd)
  · exact tampReg_tidy hd
  · exact tampReg_tidy hd
  · exact tampReg_tidy hd
  · exact tampReg_tidy hd
  · exact vigWrite_tidy hd
  · exact monRefresh_tidy (irqReg_tidy hd)
  · exact monRefresh_tidy (irqReg_tidy hd)
  · exact monRefresh_tidy (irqReg_tidy hd)
  · exact monRefresh_tidy (irqReg_tidy hd)
  · exact htReg_tidy hd
  · exact htReg_tidy hd
  · exact evrReg0_tidy hd
  · exact evrReg1_tidy hd
  · exact entReg_tidy hd
  · exact drbgReg_tidy hd
  · exact tidy_ite (ksCmdWrite_tidy hd) (judgePlain_tidy hd)
  · exact unitReg_tidy hd
  · exact unitReg_tidy hd
  · exact unitReg_tidy hd
  · exact tidy_ite (dmaCtl_tidy hport hd) (judgePlain_tidy hd)
  · exact tidy_ite (rcqAdvance_tidy hd) (pypSync_tidy (judgePlain_tidy hd))
  · exact tidy_ite (ofcCmd_tidy hd) (cardsSync_tidy (judgePlain_tidy hd))
  · exact mgrPage_tidy hd
  · exact writeInstReg_tidy hd
  · exact judgePlain_tidy hd
  · exact judgePlain_tidy hd
  · exact judgePlain_tidy hd
  · exact judgePlain_tidy hd
  · exact judgePlain_tidy hd
  · exact judgePlain_tidy hd
  · exact judgePlain_tidy hd
  · exact judgePlain_tidy hd
  · exact judgePlain_tidy hd
  · exact judgePlain_tidy hd

theorem wordWrite_tidy {port : RegPort} {a : Access} {p off v : Nat} {d : Dev} (hport : port.tidy) (hd : d.tidy) :
    (wordWrite port a p off v d).tidy := by
  unfold wordWrite
  split
  · exact emptyWrite_tidy hd
  · split
    · rename_i e
      exact tidy_snd e (admitWrite_tidy hd)
    · rename_i d1 e1
      have hd1 : d1.tidy := tidy_snd e1 (admitWrite_tidy hd)
      exact tidy_ite (pageSync_tidy (writeCtrl_tidy hd1)) (tidy_ite (writePwr_tidy hd1)
        (tidy_ite (tidy_ite (monRefresh_tidy (judgePlain_tidy hd1)) (judgePlain_tidy hd1)) (blockReg_tidy hport hd1)))

theorem pageWrite_tidy {f : Nat} {a : Access} {p off n v : Nat} {d : Dev} (hd : d.tidy) : (pageWrite f a p off n v d).tidy := by
  induction f generalizing a p off n v d with
  | zero => exact hd
  | succ f ih =>
    unfold pageWrite
    refine tidy_ite (wordWrite_tidy (fun _ _ _ _ _ _ h => ih h) hd)
      (tidy_ite (wordWrite_tidy (fun _ _ _ _ _ _ h => ih h) (wordWrite_tidy (fun _ _ _ _ _ _ h => ih h) hd)) ?_)
    split
    · exact hd
    · exact hd
    · exact hd
    · exact regErr_tidy hd

theorem dmaPort_tidy {a : Access} {p off n v : Nat} {d : Dev} (hd : d.tidy) : (dmaPort a p off n v d).tidy := pageWrite_tidy hd

theorem regWrite_tidy {a : Access} {p off n v : Nat} {d : Dev} (hd : d.tidy) : (regWrite a p off n v d).tidy := pageWrite_tidy hd

/-! ## The commands of the register pages -/

theorem dmaWriteCtl_tidy {a : Access} {ch val : Nat} {host : List HostData} {badAt : Option DmaErr} {d : Dev} (hd : d.tidy) :
    (dmaWriteCtl a ch val host badAt d).tidy := by
  unfold dmaWriteCtl
  split
  · rename_i e
    exact dmaCtl_tidy (fun _ _ _ _ _ _ => dmaPort_tidy) (tidy_snd e (admitWrite_tidy hd))
  · rename_i e1
    exact tidy_snd e1 (admitWrite_tidy hd)

theorem paramWrite_tidy {a : Access} {v : Nat} {data : HostData} {d : Dev} (hd : d.tidy) : (paramWrite a v data d).tidy := by
  unfold paramWrite
  split
  · rename_i e
    exact mgrPage_tidy (tidy_snd e (admitWrite_tidy hd))
  · rename_i e1
    exact tidy_snd e1 (admitWrite_tidy hd)

/-! ## Transactions on the interconnect -/

theorem busRegRead_tidy {b : Bus} {a n : Nat} {d : Dev} (hd : d.tidy) : (busRegRead b a n d).2.tidy := snd_ite (dmaRegRead_tidy hd) hd

theorem tagUnit_tidy {b : Bus} {t : Option Nat} {d : Dev} (hd : d.tidy) : (tagUnit b t d).tidy := by
  unfold tagUnit
  split
  · exact hd
  · extract_lets _ d1
    have hd1 : d1.tidy := by
      unfold d1
      split
      · exact putCmd_tidy hd
      · exact hd
    split
    · exact modUnit_tidy hd1
    · exact hd1

theorem busPart_tidy {tag : Option Nat} {b : Bus} {a n : Nat} {d : Dev} (hd : d.tidy) : (busPart tag b a n d).2.2.tidy := by
  unfold busPart
  extract_lets
  split
  · exact hd
  · split
    · split
      · exact dmaRegWrite_tidy (fun _ _ _ _ _ _ => pageWrite_tidy) hd
      · exact winWrite_tidy hd
      · split
        rename_i e
        exact tidy_snd e (writePart_tidy hd)
    · split
      · split
        rename_i e1
        exact tidy_snd e1 (busRegRead_tidy hd)
      · split
        rename_i e2
        exact tidy_snd e2 (winRead_tidy hd)
      · split
        rename_i e3
        exact tagUnit_tidy (tidy_snd3 e3 (readPart_tidy hd))

theorem busParts_tidy {tag : Option Nat} {b : Bus} {d : Dev} (hd : d.tidy) : (busParts tag b d).2.2.tidy := by
  unfold busParts
  extract_lets
  refine snd2_foldl (fun _ _ h => ?_) hd
  split
  split
  rename_i d1 e
  have hd1 : d1.tidy := tidy_snd e (judgePart_tidy h)
  split
  · split
    rename_i e1
    exact tidy_snd2 e1 (busPart_tidy hd1)
  · exact hd1

theorem busAnswer_tidy {b : Bus} {r : MemRes} {data : Bytes} {d : Dev} (hd : d.tidy) : (busAnswer b r data d).tidy := by
  unfold busAnswer
  split
  · split
    · exact satFld_tidy (tidy_with hd)
    · exact tidy_with hd
  · exact tidy_with hd

theorem busBells_tidy {b : Bus} {i : Nat} {d : Dev} (hd : d.tidy) : (busBells b i d).tidy :=
  tidy_ite (tidy_with hd) (tidy_ite (bellWrite_tidy hd) (tidy_with hd))

theorem sbError_tidy {d : Dev} (hd : d.tidy) : (sbError d).tidy := tidy_with hd

theorem debugDeny_tidy {write posted : Bool} {addr n : Nat} {d : Dev} (hd : d.tidy) : (debugDeny write posted addr n d).tidy := by
  unfold debugDeny
  extract_lets d1
  have hd1 : d1.tidy := satFld_tidy (setFld_tidy (sbError_tidy hd))
  exact tidy_with (record_tidy (raiseEv_tidy hd1))

theorem debugRun_tidy {b : Bus} {chg : Bytes → Bytes} {d : Dev} (hd : d.tidy) : (debugRun b chg d).tidy := by
  unfold debugRun
  extract_lets w write addr n v
  split
  rename_i r d1 e
  have hd1 : d1.tidy := tidy_snd e (judgePart_tidy hd)
  clear_value v
  split
  · exact debugDeny_tidy hd1
  · exact debugDeny_tidy hd1
  · exact busAnswer_tidy hd1
  · refine tidy_ite (tidy_with (winRead_tidy hd1)) ?_
    split
    rename_i e1
    have hd2 := tidy_snd2 e1 (busPart_tidy hd1)
    exact busAnswer_tidy (tidy_ite hd2 (sbError_tidy hd2))

theorem busRun_tidy {tag : Option Nat} {b : Bus} {chg : Bytes → Bytes} {d : Dev} (hd : d.tidy) : (busRun tag b chg d).tidy := by
  unfold busRun
  split
  · exact debugRun_tidy hd
  · split
    · extract_lets
      exact tidy_with (winRead_tidy hd)
    · split
      · exact tidy_with hd
      · refine busAnswer_tidy (snd2_foldl (fun _ _ h => ?_) hd)
        split
        split
        rename_i d1 e
        have hd1 : d1.tidy := tidy_snd e (judgePart_tidy h)
        split
        · split
          rename_i e1
          exact tidy_snd2 e1 (busPart_tidy hd1)
        · exact hd1

theorem busSent_tidy {tag : Option Nat} {b : Bus} {chg : Bytes → Bytes} {d : Dev} (hd : d.tidy) : (busSent tag b chg d).tidy := by
  unfold busSent
  split
  · exact busBells_tidy hd
  · exact busRun_tidy hd

theorem unitReadFails_tidy {i : Nat} {d : Dev} (hd : d.tidy) : (unitReadFails i d).tidy := by
  unfold unitReadFails
  split
  · exact failTaken_tidy hd
  · exact tidy_ite hd (jobHold_tidy hd)
  · exact hd

theorem busIntEnd_tidy {b : Bus} {e : BusErr} {d : Dev} (hd : d.tidy) : (busIntEnd b e d).tidy := by
  unfold busIntEnd
  extract_lets
  split
  · exact tidy_ite (dmaStop_tidy (busInt_tidy (tidy_with hd))) (busInt_tidy (tidy_with hd))
  · exact tidy_ite (busInt_tidy (tidy_with hd)) (unitReadFails_tidy (busInt_tidy (tidy_with hd)))
  · exact sbError_tidy (busInt_tidy (tidy_with hd))
  · exact busInt_tidy (tidy_with hd)

theorem busGo_tidy {tag : Option Nat} {b : Bus} {d : Dev} (hd : d.tidy) : (busGo tag b d).tidy := by
  unfold busGo
  extract_lets d1
  have hd1 : d1.tidy := tidy_ite (tlpWake_tidy hd) hd
  split
  · exact hd1
  · split
    · exact tidy_with hd1
    · split
      · exact busSent_tidy hd1
      · exact tidy_ite (busIntEnd_tidy hd1) (busSent_tidy hd1)

theorem scrubTree_tidy {a : Nat} {d : Dev} (hd : d.tidy) : (scrubTree a d).tidy := by
  unfold scrubTree
  refine tidy_ite (tidy_ite (ccRun_tidy (codeStep_tidy hd)) (codeStep_tidy hd))
    (macStep_tidy (tidy_ite (ccRun_tidy (codeStep_tidy hd)) (codeStep_tidy hd)))

/-! ## The host attachment -/

theorem linkRegs_tidy {l width speed : Nat} {flit : Bool} {d : Dev} (hd : d.tidy) : (linkRegs l width speed flit d).tidy :=
  setFld_tidy (setFld_tidy (setFld_tidy hd))

theorem tunnelGone_tidy {d : Dev} (hd : d.tidy) : (tunnelGone d).tidy := setFld_tidy hd

theorem usbGone_tidy {d : Dev} (hd : d.tidy) : (usbGone d).tidy := by
  unfold usbGone
  extract_lets d1
  have hd1 : d1.tidy := setFld_tidy (setFld_tidy (tunnelGone_tidy hd))
  exact jobBoundary_tidy (raiseEv_tidy (tidy_with hd1))

theorem linkLose_tidy {l : Nat} {d : Dev} (hd : d.tidy) : (linkLose l d).tidy :=
  tidy_ite (raiseEv_tidy (modLink_tidy (linkRegs_tidy (linkReset'_tidy hd)))) (modLink_tidy (linkRegs_tidy (linkReset'_tidy hd)))

theorem hostSettle_tidy {d : Dev} (hd : d.tidy) : (hostSettle d).tidy := drainStep_tidy hd

theorem hostResetGo_tidy {d : Dev} (hd : d.tidy) : (hostResetGo d).tidy := by
  unfold hostResetGo
  extract_lets _ _ _ d1 d2
  have hd1 : d1.tidy := jobBoundary_tidy (tidy_foldl (fun _ _ => linkLose_tidy) hd)
  have hd2 : d2.tidy := tidy_ite (usbGone_tidy hd1) (tidy_ite (tunnelGone_tidy hd1) hd1)
  exact tidy_foldl (fun _ _ => linkLose_tidy) hd2

theorem countFlr_tidy {n : Nat} {d : Dev} (hd : d.tidy) : (countFlr n d).tidy := satFld_tidy hd

theorem barWrite_tidy {l fn bar v : Nat} {d : Dev} (hd : d.tidy) : (barWrite l fn bar v d).tidy := tidy_ite hd (modFn_tidy hd)

theorem msixPending_tidy {l fn v : Nat} {d : Dev} (hd : d.tidy) : (msixPending l fn v d).tidy :=
  tidy_ite (tidy_ite (modMsix_tidy hd) (emit_tidy (modMsix_tidy hd))) hd

theorem tableWrite_tidy {l fn off x : Nat} {d : Dev} (hd : d.tidy) : (tableWrite l fn off x d).tidy := by
  unfold tableWrite
  extract_lets
  split
  · exact hd
  · split
    · exact modMsix_tidy hd
    · exact modMsix_tidy hd
    · exact modMsix_tidy hd
    · exact msixPending_tidy (modMsix_tidy hd)

theorem cfgWrite_tidy {l fn : Nat} {reg : CfgReg} {v : Nat} {d : Dev} (hd : d.tidy) : (cfgWrite l fn reg v d).tidy := by
  unfold cfgWrite
  split
  · exact barWrite_tidy hd
  · exact tidy_ite (modLink_tidy hd) hd
  · exact tidy_ite (modLink_tidy hd) hd
  · exact modFn_tidy hd
  · exact modFn_tidy hd
  · exact modFn_tidy hd
  · exact tidy_ite (modFn_tidy hd) hd
  · exact tidy_ite (modFn_tidy hd) hd
  · exact tidy_ite (modLink_tidy hd) hd
  · exact tableWrite_tidy hd
  · exact hd
  · exact hd
  · exact hd
  · exact hd
  · exact hd
  · exact hd
  · exact hd
  · exact hd
  · exact hd
  · exact hd
  · exact hd
  · exact hd
  · exact hd
  · exact hd

theorem tableAccess_tidy {l fn off : Nat} {stream : Option Nat} {write : Bool} {v : Nat} {d : Dev} (hd : d.tidy) :
    (tableAccess l fn off stream write v d).tidy :=
  tidy_ite (tidy_ite hd (emit_tidy hd)) (tidy_ite (tidy_ite hd (emit_tidy hd)) (tidy_ite (tableWrite_tidy hd) (emit_tidy hd)))

theorem cfgAnswer_tidy {l fn : Nat} {write : Bool} {reg : CfgReg} {val : Nat} {d : Dev} (hd : d.tidy) :
    (cfgAnswer l fn write reg val d).tidy := by
  unfold cfgAnswer
  split
  · exact tableAccess_tidy hd
  · exact tidy_ite (emit_tidy (cfgWrite_tidy hd)) (emit_tidy hd)

theorem modIde_tidy {l s : Nat} {f : IdeStream → IdeStream} {d : Dev} (hd : d.tidy) : (modIde l s f d).tidy := modLink_tidy hd

theorem doeAnswer_tidy {l : Nat} {r : SpdmResp} {d : Dev} (hd : d.tidy) : (doeAnswer l r d).tidy :=
  msixSend_tidy (emit_tidy (modLink_tidy hd))

theorem modSess_tidy {l id : Nat} {f : SpdmSess → SpdmSess} {d : Dev} (hd : d.tidy) : (modSess l id f d).tidy := modLink_tidy hd

theorem dropSess_tidy {l id : Nat} {d : Dev} (hd : d.tidy) : (dropSess l id d).tidy := modLink_tidy hd

theorem spdmExchange_tidy {l slot : Nat} {pub : Bytes} {d : Dev} (hd : d.tidy) : (spdmExchange l slot pub d).2.tidy := by
  unfold spdmExchange
  split
  · exact hd
  · split
    · exact hd
    · split
      · rename_i e
        exact tidy_snd e (drawHomeless_tidy hd)
      · rename_i d1 e1
        have hd1 : d1.tidy := tidy_snd e1 (drawHomeless_tidy hd)
        extract_lets
        split
        · exact hd1
        · exact modLink_tidy hd1

theorem ideResume_tidy {l : Nat} {d : Dev} (hd : d.tidy) : (ideResume l d).tidy :=
  tidy_foldl (fun _ _ h => tidy_foldl (fun _ _ => msixPending_tidy) h) (pumpReads_tidy hd)

theorem ideKm_tidy {l id stream : Nat} {ok : IdeStream → Bool} {f : IdeStream → IdeStream} {ack : SpdmResp} {d : Dev} (hd : d.tidy) :
    (ideKm l id stream ok f ack d).2.tidy :=
  snd_ite hd (snd_ite hd (modIde_tidy hd))

theorem spdmOne_tidy {l : Nat} {r : SpdmReq} {d : Dev} (hd : d.tidy) : (spdmOne l r d).2.tidy := by
  unfold spdmOne
  extract_lets
  split
  · exact hd
  · exact modLink_tidy hd
  · exact snd_ite hd (modLink_tidy hd)
  · exact snd_ite hd (snd_ite (modLink_tidy hd) hd)
  · exact hd
  · exact hd
  · split
    · exact hd
    · split
      · exact hd
      · split
        · exact snd_ite hd hd
        · exact hd
      · exact snd_ite hd hd
      · exact snd_ite hd (snd_ite hd (snd_ite hd hd))
      · exact spdmExchange_tidy hd
      · exact snd_ite (snd_ite (modSess_tidy hd) (dropSess_tidy hd)) hd
      · exact snd_ite (modSess_tidy hd) hd
      · exact snd_ite hd hd
      · exact snd_ite (modSess_tidy hd) hd
      · exact snd_ite (dropSess_tidy hd) hd
      · exact snd_ite (dropSess_tidy hd) hd
      · exact ideKm_tidy hd
      · exact ideResume_tidy (ideKm_tidy hd)
      · exact ideKm_tidy hd
      · exact snd_ite hd hd
      · exact hd

theorem spdmRun_tidy {l : Nat} {r : SpdmReq} {d : Dev} (hd : d.tidy) : (spdmRun l r d).2.tidy := by
  unfold spdmRun
  extract_lets
  split
  · exact snd_ite (modLink_tidy hd) (modLink_tidy hd)
  · exact snd_ite (modLink_tidy hd) (spdmOne_tidy (modLink_tidy hd))
  · split
    · exact snd_ite (modLink_tidy hd) (snd_ite (modLink_tidy hd) (modLink_tidy hd))
    · exact hd
  · exact snd_ite (spdmOne_tidy (modLink_tidy hd)) (modLink_tidy (spdmOne_tidy (modLink_tidy hd)))

theorem spdmGo_tidy {l : Nat} {r : SpdmReq} {d : Dev} (hd : d.tidy) : (spdmGo l r d).tidy :=
  tidy_ite (doeAnswer_tidy hd) (tidy_ite (doeAnswer_tidy hd) (doeAnswer_tidy (spdmRun_tidy hd)))

/-! ## How every meaning answers -/

/-- Whatever a command answers, the block is in canonical form. -/
def Keeps (o : Host.Outcome State Fault Refusal) : Prop := ∀ t, o = .next t → t.dev.tidy

/-- A meaning may start from what is left on the wires and end with a halt. -/
theorem runDev_keeps {s : State} {f : Dev → Dev} (hs : s.dev.tidy) (hf : ∀ d, d.tidy → (f d).tidy) : Keeps (runDev s f) := by
  rintro _ ⟨⟩
  exact haltIfFailed_tidy (hf _ (tidy_with hs))

theorem runTlp_keeps {link : Nat} {s : State} {f : Dev → Dev} (hs : s.dev.tidy) (hf : ∀ d, d.tidy → (f d).tidy) :
    Keeps (runTlp link s f) :=
  runDev_keeps hs fun _ h => hf _ (tlpWake_tidy h)

theorem runAcc_keeps {a : Access} {s : State} {f : Access → Dev → Dev} (hs : s.dev.tidy) (hf : ∀ a d, d.tidy → (f a d).tidy) :
    Keeps (runAcc a s f) :=
  runDev_keeps hs fun _ h => hf _ _ (tlpWake_tidy h)

end Sys2Proof.Proofs
end

section
/-! Every step keeps the canonical form: the commands, one by one. -/

open Sys2Proof Sys2Proof.Machine

namespace Sys2Proof.Proofs

theorem execLanternSupplyChange_keeps {p12vMv auxMv vbatMv cellMv : Nat} {pwrFail : Bool} {s : State} (hs : s.dev.tidy) : Keeps
    (execLanternSupplyChange p12vMv auxMv vbatMv cellMv pwrFail s) := by
  refine runDev_keeps hs fun _ hd => ?_
  extract_lets _ d1 _ d2
  have hd1 : d1.tidy := tidy_ite (holdupGo_tidy (supPut_tidy hd)) (supPut_tidy hd)
  have hd2 : d2.tidy := tidy_ite (enterMode_tidy (tidy_with hd1)) hd1
  split
  · exact modLant_tidy hd2
  · exact hd1

theorem execLinkUp_keeps {link : Nat} {info : LinkInfo} {s : State} (hs : s.dev.tidy) : Keeps (execLinkUp link info s) := by
  refine runDev_keeps hs fun _ hd => ?_
  split
  · exact hd
  · extract_lets
    exact tidy_ite (tidy_ite (raiseEv_tidy (modLink_tidy (raiseEv_tidy (setFld_tidy (setFld_tidy hd))))) hd)
      (tidy_ite (raiseEv_tidy (modLink_tidy (linkRegs_tidy hd))) hd)

theorem execLinkDown_keeps {link : Nat} {s : State} (hs : s.dev.tidy) : Keeps (execLinkDown link s) := by
  refine runDev_keeps hs fun _ hd => ?_
  split
  · exact hostSettle_tidy (tidy_ite (tunnelGone_tidy (linkLose_tidy hd)) (linkLose_tidy hd))
  · exact hd

theorem execUsb4Attach_keeps {rate80 : Bool} {retrains : Nat} {s : State} (hs : s.dev.tidy) : Keeps
    (execUsb4Attach rate80 retrains s) := by
  refine runDev_keeps hs fun _ hd => ?_
  split
  · extract_lets _ _ _ _ d1
    have hd1 : d1.tidy := tidy_ite (satFld_tidy (setFld_tidy (tidy_with hd)))
      (raiseEv_tidy (satFld_tidy (satFld_tidy (setFld_tidy (tidy_with hd)))))
    exact raiseEv_tidy hd1
  · exact hd

theorem execUsb4Detach_keeps {s : State} (hs : s.dev.tidy) : Keeps (execUsb4Detach s) := by
  refine runDev_keeps hs fun _ hd => ?_
  split
  · exact hostSettle_tidy (usbGone_tidy (tidy_foldl (fun _ _ h => tidy_ite (linkLose_tidy h) h) hd))
  · exact hd

theorem execFunctionLevelReset_keeps {link : Nat} {vf : Option Nat} {s : State} (hs : s.dev.tidy) : Keeps
    (execFunctionLevelReset link vf s) := by
  refine runTlp_keeps hs fun _ hd => ?_
  split
  · exact hd
  · split
    · exact hostSettle_tidy (modLink_tidy (countFlr_tidy (linkFuncsReset_tidy hd)))
    · exact tidy_ite (hostSettle_tidy (countFlr_tidy (funcsReset_tidy hd))) hd

theorem execVfEnableChange_keeps {link : Nat} {enable : Bool} {numVfs : Nat} {s : State} (hs : s.dev.tidy) : Keeps
    (execVfEnableChange link enable numVfs s) := by
  refine runTlp_keeps hs fun _ hd => ?_
  split
  · exact hd
  · exact hostSettle_tidy (modLink_tidy (tidy_ite hd (countFlr_tidy (funcsReset_tidy hd))))

theorem execConfigRequest_keeps {link fn : Nat} {write : Bool} {reg : CfgReg} {val : Nat} {s : State} (hs : s.dev.tidy) : Keeps
    (execConfigRequest link fn write reg val s) := by
  refine runTlp_keeps hs fun _ hd => ?_
  split
  · exact emit_tidy hd
  · exact emit_tidy hd
  · exact tidy_ite (emit_tidy hd) (cfgAnswer_tidy hd)

theorem execDoeRequest_keeps {link : Nat} {req : SpdmReq} {s : State} (hs : s.dev.tidy) : Keeps (execDoeRequest link req s) := by
  refine runTlp_keeps hs fun _ hd => ?_
  split
  · exact hd
  · split
    · exact doeAnswer_tidy hd
    · exact monRefresh_tidy (raiseEv_tidy (modLink_tidy hd))

theorem execSpdmRequest_keeps {s : State} (hs : s.dev.tidy) : Keeps (execSpdmRequest s) := by
  refine runDev_keeps hs fun _ hd => ?_
  split
  · exact hd
  · split
    · exact hd
    · extract_lets
      split
      · exact monRefresh_tidy (spdmGo_tidy (modHdr_tidy hd))
      · exact monRefresh_tidy (spdmGo_tidy (modHdr_tidy hd))
      · exact modHdr_tidy hd

theorem execSmbusRequest_keeps {msg : SmbMsg} {s : State} (hs : s.dev.tidy) : Keeps (execSmbusRequest msg s) := by
  refine runDev_keeps hs fun _ hd => ?_
  split
  · exact hd
  · split
    · exact emit_tidy (tidy_with hd)
    · exact emit_tidy (tidy_with hd)
    · split
      · exact emit_tidy (tidy_ite (tidy_with hd) hd)
      · exact emit_tidy hd
    · exact emit_tidy hd

theorem execRegisterWrite_keeps {a : Access} {page off size val : Nat} {s : State} (hs : s.dev.tidy) : Keeps
    (execRegisterWrite a page off size val s) := by
  refine runAcc_keeps hs fun a _ hd => ?_
  split
  · exact hd
  · split
    · exact tidy_ite (bellWrite_tidy hd) (regWrite_tidy hd)
    · exact regWrite_tidy hd

theorem execKeyFetch_keeps {tag : Nat} {err : KeyErr} {s : State} (hs : s.dev.tidy) : Keeps (execKeyFetch tag err s) := by
  refine runDev_keeps hs fun _ hd => ?_
  split
  · exact tidy_ite (fetchKey_tidy hd) hd
  · exact hd

theorem execT0Load_keeps {tag : Nat} {s : State} {err : KeyErr} (hs : s.dev.tidy) : Keeps (execT0Load tag s err) := by
  refine runDev_keeps hs fun _ hd => ?_
  split
  · split
    · split
      rename_i d1 e
      have hd1 : d1.tidy := tidy_snd e (loadKeys_tidy hd)
      split
      · exact tidy_ite hd1 (putCmd_tidy hd1)
      · exact hd1
    · exact hd
  · exact hd

theorem execT2DemandLoad_keeps {tag : Nat} {dmg : VaultDamage} {s : State} (hs : s.dev.tidy) : Keeps (execT2DemandLoad tag dmg s) := by
  refine runDev_keeps hs fun _ hd => ?_
  refine atStage_tidy (fun _ _ h => ?_) hd
  split
  · extract_lets
    split
    · exact tidy_foldl (fun _ _ h2 => demandLoad_tidy h2) (demandLoad_tidy h)
    · exact h
  · exact h

theorem execVaultBatchClose_keeps {s : State} (hs : s.dev.tidy) : Keeps (execVaultBatchClose s) := by
  refine runDev_keeps hs fun _ hd => ?_
  split
  · exact tidy_ite (vaultClose_tidy (waitUntil_tidy hd)) hd
  · exact hd

theorem execUsagePeriodDue_keeps {rec : Nat} {s : State} (hs : s.dev.tidy) : Keeps (execUsagePeriodDue rec s) := by
  refine runDev_keeps hs fun _ hd => ?_
  split
  · exact tidy_ite (vaultQueue_tidy (waitUntil_tidy hd)) hd
  · exact hd

theorem execVaultEpochErase_keeps {s : State} (hs : s.dev.tidy) : Keeps (execVaultEpochErase s) := by
  refine runDev_keeps hs fun _ hd => ?_
  split
  · split
    · exact eraseOld_tidy hd
    · exact hd
  · exact hd

theorem execEgressRelease_keeps {what : Held} {s : State} (hs : s.dev.tidy) : Keeps (execEgressRelease what s) := by
  refine runDev_keeps hs fun _ hd => ?_
  split
  · exact drainStep_tidy (atStage_tidy (fun _ _ h => releaseCmd_tidy h) hd)
  · exact releaseHeld_tidy hd

theorem execCqCoalTimeout_keeps {inst q : Nat} {s : State} (hs : s.dev.tidy) : Keeps (execCqCoalTimeout inst q s) := by
  refine runDev_keeps hs fun _ hd => ?_
  extract_lets
  split
  · exact tidy_ite (coalSend_tidy (waitUntil_tidy hd)) hd
  · exact hd

theorem execXtsDataUnit_keeps {tag lane : Nat} {s : State} {chk : CheckFails} {err : KeyErr} (hs : s.dev.tidy) : Keeps
    (execXtsDataUnit tag lane s chk err) := by
  refine runDev_keeps hs fun _ hd => ?_
  refine atStage_tidy (fun _ _ h => ?_) hd
  split
  · split
    rename_i d1 e
    have hd1 : d1.tidy := tidy_snd e (snd_ite h (fetchSlots_tidy h))
    split
    · exact hd1
    · extract_lets
      split
      · rename_i e1
        exact dataUnitGo_tidy (of_eq Draw.tidy e1 (laneMask_tidy hd1))
      · rename_i e2
        exact putCmd_tidy (of_eq Draw.tidy e2 (laneMask_tidy hd1))
      · rename_i e3
        exact freeUnits_tidy (holdCmd_tidy (of_eq Draw.tidy e3 (laneMask_tidy hd1)))
  · exact h

theorem execTargetResetRetry_keeps {tag : Nat} {s : State} (hs : s.dev.tidy) : Keeps (execTargetResetRetry tag s) := by
  refine runDev_keeps hs fun _ hd => ?_
  exact atStage_tidy (fun _ _ h => tidy_ite (targetReset_tidy (waitUntil_tidy h)) (ringSweep_tidy (putCmd_tidy (waitUntil_tidy h)))) hd

theorem execPatrolScrub_keeps {dmg : LineDamage} {s : State} (hs : s.dev.tidy) : Keeps (execPatrolScrub dmg s) := by
  refine runDev_keeps hs fun _ hd => ?_
  split
  · extract_lets
    split
    · extract_lets d1
      have hd1 : d1.tidy := hitLine_tidy (modMpe_tidy (t1Pass_tidy hd))
      exact tidy_ite (scrubTree_tidy hd1) (lineFetch_tidy hd1)
    · exact t1Pass_tidy hd
  · exact hd

theorem execConditionedBlock_keeps {q : Nat} {samples : Bytes} {s : State} (hs : s.dev.tidy) : Keeps
    (execConditionedBlock q samples s) := by
  refine runDev_keeps hs fun _ hd => ?_
  extract_lets
  split
  · exact hd
  · split
    · extract_lets
      split
      rename_i d1 e
      have hd1 : d1.tidy := tidy_snd e (snd_ite (modWell_tidy hd) (someSamples_tidy hd))
      split
      · rename_i e1
        exact jobBoundary_tidy (poolAdd_tidy (tidy_snd e1 (sourceRun_tidy hd1)))
      · rename_i e2
        exact tidy_snd e2 (sourceRun_tidy hd1)
    · exact hd

theorem execDrbgGenerate_keeps {d : Nat} {s : State} (hs : s.dev.tidy) : Keeps (execDrbgGenerate d s) := by
  refine runDev_keeps hs fun _ hd => ?_
  split
  · exact tidy_ite (serveStalls_tidy (drbgRequest_tidy (syncPorts_tidy hd))) (drbgRequest_tidy (syncPorts_tidy hd))
  · exact hd

theorem execCapDone_keeps {q : Nat} {samples : Bytes} {s : State} (hs : s.dev.tidy) : Keeps (execCapDone q samples s) := by
  refine runDev_keeps hs fun _ hd => ?_
  split
  · refine settle_tidy (raiseEv_tidy (modWell_tidy (setFld_tidy (snd_foldl (fun _ _ h => ?_) (capTests_tidy (tidy_with hd))))))
    split
    split
    rename_i d1 e
    have hd1 : d1.tidy := tidy_snd e (judgePart_tidy h)
    split
    · split
      rename_i e1
      exact tidy_snd e1 (writePart_tidy hd1)
    · exact hd1
  · exact hd

theorem execUnknownCall_keeps {h fid : Nat} {s : State} (hs : s.dev.tidy) : Keeps (execUnknownCall h fid s) :=
  runDev_keeps hs fun _ hd => tidy_ite hd (stile_tidy (fun _ h => h) hd)

theorem execFwConfirm_keeps {h : Nat} {s : State} (hs : s.dev.tidy) : Keeps (execFwConfirm h s) := by
  refine runDev_keeps hs fun _ hd => ?_
  exact stile_tidy (fun _ h2 => stileFenced_tidy (fun _ h3 => tidy_ite (stileRet_tidy h3)
    (stileRet_tidy (tidy_ite (tidy_with (setFld_tidy h3)) (setFld_tidy h3)))) h2) hd

theorem execFwCommitSvn_keeps {h : Nat} {fuseOk : Bool} {s : State} (hs : s.dev.tidy) : Keeps (execFwCommitSvn h fuseOk s) := by
  refine runDev_keeps hs fun _ hd => ?_
  exact stile_tidy (fun _ h2 => tidy_ite (stileRet_tidy h2) (tidy_ite (stileRet_tidy h2) (stileRet_tidy (tidy_with h2)))) hd

theorem execSecureIrqSwitch_keeps {h : Nat} {ctx : List Nat} {s : State} (hs : s.dev.tidy) : Keeps (execSecureIrqSwitch h ctx s) := by
  refine runDev_keeps hs fun _ hd => ?_
  split
  · split
    · exact dbgAct_tidy (modHart_tidy (ctxPut_tidy hd))
    · exact hd
  · exact hd

theorem execDoubleTrap_keeps {h : Nat} {s : State} (hs : s.dev.tidy) : Keeps (execDoubleTrap h s) := by
  refine runDev_keeps hs fun _ hd => ?_
  split
  · extract_lets _ d1
    have hd1 : d1.tidy := raiseFault_tidy (raiseEv_tidy (parkCore_tidy hd))
    exact tidy_ite (countMerged_tidy hd1) hd1
  · exact hd

theorem execFaultArrival_keeps {s : State} (hs : s.dev.tidy) : Keeps (execFaultArrival s) := by
  refine runDev_keeps hs fun _ hd => ?_
  split
  · exact tidy_with hd
  · split
    · exact hd
    · split
      · exact faultTake_tidy (tidy_with hd)
      · exact hd

theorem execFaultHandlingDone_keeps {cls : Nat} {s : State} (hs : s.dev.tidy) : Keeps (execFaultHandlingDone cls s) := by
  refine runDev_keeps hs fun _ hd => ?_
  extract_lets
  split
  · split
    · exact queueRun_tidy (queueFix_tidy (setSlot_tidy (tidy_ite (coreDone_tidy hd) (quarterDisable_tidy hd))))
    · exact hd
  · exact hd

theorem execXportSessionExpire_keeps {id : Nat} {s : State} (hs : s.dev.tidy) : Keeps (execXportSessionExpire id s) := by
  refine runDev_keeps hs fun _ hd => ?_
  split
  · exact xportShut_tidy (waitUntil_tidy hd)
  · exact hd

theorem execCeremonyEntered_keeps {s : State} (hs : s.dev.tidy) : Keeps (execCeremonyEntered s) := by
  refine runDev_keeps hs fun _ hd => ?_
  split
  · split
    · exact ofcEnd_tidy (raiseEv_tidy (record_tidy (modOfc_tidy (mgrAbort_tidy (enterMode_tidy (tidy_with hd))))))
    · exact hd
  · exact hd

theorem execCerTimeout_keeps {s : State} (hs : s.dev.tidy) : Keeps (execCerTimeout s) := by
  refine runDev_keeps hs fun _ hd => ?_
  split
  · exact tidy_ite (cerLeave_tidy (waitUntil_tidy hd)) hd
  · exact hd

theorem execChallengeExpire_keeps {id : Nat} {s : State} (hs : s.dev.tidy) : Keeps (execChallengeExpire id s) := by
  refine runDev_keeps hs fun _ hd => ?_
  split
  · exact endChals_tidy (waitUntil_tidy hd)
  · exact hd

theorem execCardInsert_keeps {slot : Nat} {atr : Option Bytes} {s : State} (hs : s.dev.tidy) : Keeps (execCardInsert slot atr s) := by
  refine runDev_keeps hs fun _ hd => ?_
  split
  · exact hd
  · split
    · split
      · exact tidy_ite (cardAtr_tidy hd) hd
      · exact hd
    · extract_lets
      split
      · exact raiseEv_tidy (modCard_tidy hd)
      · split
        · exact cardAtr_tidy (cardOn_tidy (raiseEv_tidy (modCard_tidy hd)))
        · exact cardOn_tidy (raiseEv_tidy (modCard_tidy hd))

theorem execCardResponse_keeps {slot : Nat} {ans : CardAnswer} {s : State} (hs : s.dev.tidy) : Keeps (execCardResponse slot ans s) := by
  refine runDev_keeps hs fun _ hd => ?_
  split
  · exact hd
  · split
    · exact cardIdentify_tidy hd
    · exact tidy_ite (cardSelect_tidy (modCard_tidy hd)) hd
    · exact cardSelected_tidy hd
    · exact cardSigned_tidy hd
    · exact enrolIdentity_tidy hd
    · exact enrolSigned_tidy hd
    · exact pinAnswered_tidy hd
    · exact cardRefused_tidy hd
    · exact hd

theorem execTamperAlarm_keeps {trips : List Trip} {s : State} (hs : s.dev.tidy) : Keeps (execTamperAlarm trips s) := by
  refine runDev_keeps hs fun d hd => tidy_ite hd ?_
  split
  rename_i e
  refine alarmsAct_tidy (tidy_snd e (snd_foldl (fun p _ h => ?_) hd))
  extract_lets
  split
  · split
    rename_i e1
    exact tidy_snd e1 (tripSource_tidy h)
  · exact h

theorem execLanternSample_keeps {r : LanternRead} {s : State} (hs : s.dev.tidy) : Keeps (execLanternSample r s) := by
  refine runDev_keeps hs fun d hd => tidy_ite hd ?_
  extract_lets step d1
  have hd1 : d1.tidy := loopRes_tidy (waitUntil_tidy hd)
  split
  rename_i e
  exact monSettle_tidy (alarmsAct_tidy (tidy_snd e (snd_foldl (fun _ _ h => sampleSource_tidy h) hd1)))

theorem execTripHoldEnd_keeps {src : Nat} {s : State} (hs : s.dev.tidy) : Keeps (execTripHoldEnd src s) := by
  refine runDev_keeps hs fun _ hd => ?_
  split
  · exact monSettle_tidy (tampClear_tidy (waitUntil_tidy hd))
  · exact hd

theorem execMonfault_keeps {src : Nat} {s : State} (hs : s.dev.tidy) : Keeps (execMonfault src s) := by
  refine runDev_keeps hs fun _ hd => ?_
  split
  · exact tidy_ite hd (monFire_tidy (waitUntil_tidy hd))
  · exact hd

theorem execThrottleEnd_keeps {s : State} (hs : s.dev.tidy) : Keeps (execThrottleEnd s) := by
  refine runDev_keeps hs fun _ hd => ?_
  split
  · exact raiseEv_tidy (scaleStep_tidy (modTamp_tidy (waitUntil_tidy hd)))
  · exact hd

theorem execTamperFuseReq_keeps {a : Access} {mask : Nat} {s : State} (hs : s.dev.tidy) : Keeps (execTamperFuseReq a mask s) := by
  refine runAcc_keeps hs fun a _ hd => ?_
  split
  · rename_i e
    exact tampReg_tidy (tidy_snd e (admitWrite_tidy hd))
  · rename_i e1
    exact tidy_snd e1 (admitWrite_tidy hd)

theorem execLoopArm_keeps {a : Access} {val refA refB : Nat} {s : State} (hs : s.dev.tidy) : Keeps (execLoopArm a val refA refB s) := by
  refine runAcc_keeps hs fun a _ hd => ?_
  split
  · rename_i e
    exact vigReg_tidy (tidy_snd e (admitWrite_tidy hd))
  · rename_i e1
    exact tidy_snd e1 (admitWrite_tidy hd)

theorem execQuarterPowerRequest_keeps {a : Access} {val : Nat} {s : State} (hs : s.dev.tidy) : Keeps
    (execQuarterPowerRequest a val s) := by
  refine runAcc_keeps hs fun a _ hd => ?_
  split
  · rename_i e
    exact writeQreq_tidy (tidy_snd e (admitWrite_tidy hd))
  · rename_i e1
    exact tidy_snd e1 (admitWrite_tidy hd)

theorem execLineVerificationDone_keeps {n : Nat} {s : State} (hs : s.dev.tidy) : Keeps (execLineVerificationDone n s) := by
  refine runDev_keeps hs fun _ hd => ?_
  split
  · split
    · split
      · exact epochUpdate_tidy (modMpe_tidy hd)
      · exact mpeFail_tidy hd
    · exact hd
  · exact hd

theorem execAtrTimeout_keeps {slot : Nat} {s : State} (hs : s.dev.tidy) : Keeps (execAtrTimeout slot s) := by
  refine runDev_keeps hs fun _ hd => ?_
  exact tidy_ite (tidy_ite (ofcLost_tidy (cardFaulty_tidy (cardOff_tidy hd))) (emit_tidy (modCard_tidy hd))) hd

theorem execResetWindowExpiry_keeps {s : State} (hs : s.dev.tidy) : Keeps (execResetWindowExpiry s) := by
  refine runDev_keeps hs fun _ hd => ?_
  split
  · exact modLant_tidy (waitUntil_tidy hd)
  · exact hd

/-- Every command answers a block in canonical form. -/
theorem exec_keeps (c : Instr) {s : State} (hs : s.dev.tidy) : Keeps (exec c s) := by
  unfold exec
  cases c with
  | coldReset => exact runDev_keeps hs fun _ h => tidy_ite (bootGo_tidy (tidy_with (tidy_ite (waitUntil_tidy h) h))) h
  | loaderHandshake => exact runAcc_keeps hs fun _ _ => paramWrite_tidy
  | romTransitionService => exact runAcc_keeps hs fun _ _ => paramWrite_tidy
  | holdupDetect => exact runDev_keeps hs fun _ h => tidy_ite (holdupGo_tidy (tidy_with h)) h
  | lanternPowerLoss => exact runDev_keeps hs fun _ h => tidy_ite (enterMode_tidy (tidy_with h)) h
  | lanternSupplyChange => exact execLanternSupplyChange_keeps hs
  | hostReset => exact runDev_keeps hs fun _ h => tidy_ite (hostSettle_tidy (hostResetGo_tidy (tidy_with h))) (tidy_with h)
  | linkTraining => exact runDev_keeps hs fun _ h => tidy_ite (modLink_tidy (waitUntil_tidy h)) h
  | linkUp => exact execLinkUp_keeps hs
  | linkDown => exact execLinkDown_keeps hs
  | usb4Attach => exact execUsb4Attach_keeps hs
  | usb4Detach => exact execUsb4Detach_keeps hs
  | functionLevelReset => exact execFunctionLevelReset_keeps hs
  | vfEnableChange => exact execVfEnableChange_keeps hs
  | configRequest => exact execConfigRequest_keeps hs
  | ideCheckFail => exact runTlp_keeps hs fun _ h => tidy_ite (record_tidy (raiseEv_tidy (emit_tidy (modFn_tidy (modIde_tidy h))))) h
  | doeRequest => exact execDoeRequest_keeps hs
  | doeAbort => exact runTlp_keeps hs fun _ h => tidy_ite (modLink_tidy h) h
  | spdmRequest => exact execSpdmRequest_keeps hs
  | smbusRequest => exact execSmbusRequest_keeps hs
  | alertResponseRead => exact runDev_keeps hs fun _ h => tidy_ite (emit_tidy (tidy_with h)) h
  | msixUnmask => exact runTlp_keeps hs fun _ h => tidy_ite (tableAccess_tidy h) h
  | registerWrite => exact execRegisterWrite_keeps hs
  | softReset => exact runAcc_keeps hs fun _ _ => regWrite_tidy
  | softResetComplete => exact runDev_keeps hs fun _ => softDone_tidy
  | pgPwrRequest => exact runAcc_keeps hs fun _ _ => pgPwr_tidy
  | unitPowerDrained => exact runDev_keeps hs fun _ => pwrTry_tidy
  | cmdEnable => exact runAcc_keeps hs fun _ _ => regWrite_tidy
  | mpeEnable => exact runAcc_keeps hs fun _ _ => regWrite_tidy
  | htEnable => exact runAcc_keeps hs fun _ _ => regWrite_tidy
  | instEnable => exact runAcc_keeps hs fun _ _ h => tidy_ite (regWrite_tidy h) h
  | sqEnable => exact runAcc_keeps hs fun _ _ h => tidy_ite (instWrite_tidy h) h
  | sqDisable => exact runAcc_keeps hs fun _ _ h => tidy_ite (instWrite_tidy h) h
  | cqEnable => exact runAcc_keeps hs fun _ _ h => tidy_ite (instWrite_tidy h) h
  | cqDisable => exact runAcc_keeps hs fun _ _ h => tidy_ite (instWrite_tidy h) h
  | sqTailDoorbell => exact runAcc_keeps hs fun _ _ => tailBell_tidy
  | cqHeadDoorbell => exact runAcc_keeps hs fun _ _ => headBell_tidy
  | descriptorFetch => exact runDev_keeps hs fun _ => fetchGo_tidy
  | descriptorParse => exact runDev_keeps hs fun _ h => atStage_tidy (fun _ _ => parseGo_tidy) h
  | policyCheck => exact runDev_keeps hs fun _ h => atStage_tidy (fun _ _ => policyGo_tidy) h
  | routedEntryWrite => exact runDev_keeps hs fun _ h => atStage_tidy (fun _ _ => routeGo_tidy) h
  | routedCompletion => exact runAcc_keeps hs fun _ _ => rcqAdvance_tidy
  | routedTimeout => exact runDev_keeps hs fun _ h => atStage_tidy (fun _ _ => routedTimeoutGo_tidy) h
  | keyFetch => exact execKeyFetch_keeps hs
  | t0Load => exact execT0Load_keeps hs
  | t2DemandLoad => exact execT2DemandLoad_keeps hs
  | vaultRestoreRecord => exact runDev_keeps hs fun _ h => tidy_ite (restoreNext_tidy h) h
  | vaultBatchClose => exact execVaultBatchClose_keeps hs
  | vaultBatchCommit => exact runDev_keeps hs fun _ h => tidy_ite (vaultCommit_tidy h) h
  | usagePeriodDue => exact execUsagePeriodDue_keeps hs
  | usageResvRaise => exact runDev_keeps hs fun _ => usageRaiseGo_tidy
  | nonceResvRaise => exact runDev_keeps hs fun _ => nonceRaiseGo_tidy
  | vaultEpochErase => exact execVaultEpochErase_keeps hs
  | derivedKeyFree => exact runDev_keeps hs fun _ h => tidy_ite (destroyKey_tidy h) h
  | egressRelease => exact execEgressRelease_keeps hs
  | cqCoalTimeout => exact execCqCoalTimeout_keeps hs
  | workRingTake => exact runDev_keeps hs fun _ h => tidy_ite (takeGo_tidy h) h
  | xtsDataUnit => exact execXtsDataUnit_keeps hs
  | keyGenerateSym => exact runDev_keeps hs fun _ h => runOp_tidy (fun _ _ => opGenerateSym_tidy) h
  | keyGeneratePair => exact runDev_keeps hs fun _ h => runOp_tidy (fun _ _ => opGeneratePair_tidy) h
  | keyImportWrapped => exact runDev_keeps hs fun _ h => runOp_tidy (fun _ _ => opImport_tidy) h
  | keyImportX9143 => exact runDev_keeps hs fun _ h => runOp_tidy (fun _ _ => opImportX9_tidy) h
  | keyExportWrapped => exact runDev_keeps hs fun _ h => runOp_tidy (fun _ _ => opExport_tidy) h
  | keyExportX9143 => exact runDev_keeps hs fun _ h => runOp_tidy (fun _ _ => opExportX9_tidy) h
  | keyDerive => exact runDev_keeps hs fun _ h => runOp_tidy (fun _ _ => opKeyDerive_tidy) h
  | keyDestroy => exact runDev_keeps hs fun _ h => runOp_tidy (fun _ _ => opDestroy_tidy) h
  | keyGetAttr => exact runDev_keeps hs fun _ h => runOp_tidy (fun _ _ => opGetAttr_tidy) h
  | keySetAttr => exact runDev_keeps hs fun _ h => serveOp_tidy (fun _ _ => opSetAttr_tidy) h
  | keyList => exact runDev_keeps hs fun _ h => serveOp_tidy (fun _ _ => opList_tidy) h
  | keyGrant => exact runDev_keeps hs fun _ h => serveOp_tidy (fun _ _ => opGrant_tidy) h
  | keyRevokeGrant => exact runDev_keeps hs fun _ h => serveOp_tidy (fun _ _ => opRevoke_tidy) h
  | keyBackupExport => exact runDev_keeps hs fun _ h => serveOp_tidy (fun _ _ => opBackup_tidy) h
  | keyRestore => exact runDev_keeps hs fun _ h => serveOp_tidy (fun _ _ => opRestore_tidy) h
  | keyImportClear => exact runDev_keeps hs fun _ h => tidy_ite (serveOp_tidy (fun _ _ => opImportClear_tidy) h) h
  | keyPublicExport => exact runDev_keeps hs fun _ h => runOp_tidy (fun _ _ => opPublicExport_tidy) h
  | quorumChallenge => exact runDev_keeps hs fun _ h => serveOp_tidy (fun _ _ => opChallenge_tidy) h
  | aesEcb => exact runDev_keeps hs fun _ h => runOp_tidy (fun _ _ => opBlock_tidy) h
  | aesCbc => exact runDev_keeps hs fun _ h => runOp_tidy (fun _ _ => opBlock_tidy) h
  | aesCtr => exact runDev_keeps hs fun _ h => runOp_tidy (fun _ _ => opBlock_tidy) h
  | aesGcm => exact runDev_keeps hs fun _ h => runOp_tidy (fun _ _ => opGcm_tidy) h
  | aesCcm => exact runDev_keeps hs fun _ h => runOp_tidy (fun _ _ => opCcm_tidy) h
  | aesXts => exact runDev_keeps hs fun _ h => runOp_tidy (fun _ _ => opXts_tidy) h
  | tdesEcb => exact runDev_keeps hs fun _ h => runOp_tidy (fun _ _ => opBlock_tidy) h
  | tdesCbc => exact runDev_keeps hs fun _ h => runOp_tidy (fun _ _ => opBlock_tidy) h
  | ctxSave => exact runDev_keeps hs fun _ h => runOp_tidy (fun _ _ => opCtxSave_tidy) h
  | ctxRestore => exact runDev_keeps hs fun _ h => runOp_tidy (fun _ _ => opCtxRestore_tidy) h
  | ecdsaSign => exact runDev_keeps hs fun _ h => runOp_tidy (fun _ _ => opEcdsaSign_tidy) h
  | ecdsaVerify => exact runDev_keeps hs fun _ h => runOp_tidy (fun _ _ => opEcdsaVerify_tidy) h
  | eddsaSign => exact runDev_keeps hs fun _ h => runOp_tidy (fun _ _ => opEddsaSign_tidy) h
  | eddsaVerify => exact runDev_keeps hs fun _ h => runOp_tidy (fun _ _ => opEddsaVerify_tidy) h
  | ecdhAgree => exact runDev_keeps hs fun _ h => runOp_tidy (fun _ _ => opEcdh_tidy) h
  | rsaPrivate => exact runDev_keeps hs fun _ h => runOp_tidy (fun _ _ => opRsaPrivate_tidy) h
  | rsaPublic => exact runDev_keeps hs fun _ h => runOp_tidy (fun _ _ => opRsaPublic_tidy) h
  | mlkemEncap => exact runDev_keeps hs fun _ h => runOp_tidy (fun _ _ => opEncap_tidy) h
  | mlkemDecap => exact runDev_keeps hs fun _ h => runOp_tidy (fun _ _ => opDecap_tidy) h
  | mldsaSign => exact runDev_keeps hs fun _ h => runOp_tidy (fun _ _ => opMldsaSign_tidy) h
  | mldsaVerify => exact runDev_keeps hs fun _ h => runOp_tidy (fun _ _ => opMldsaVerify_tidy) h
  | slhdsaSign => exact runDev_keeps hs fun _ h => runOp_tidy (fun _ _ => opSlhSign_tidy) h
  | slhdsaVerify => exact runDev_keeps hs fun _ h => runOp_tidy (fun _ _ => opSlhVerify_tidy) h
  | hbsVerify => exact runDev_keeps hs fun _ h => runOp_tidy (fun _ _ => opHbsVerify_tidy) h
  | imageVerify => exact runDev_keeps hs fun _ h => runOp_tidy (fun _ _ => opImageVerify_tidy) h
  | hash => exact runDev_keeps hs fun _ h => runOp_tidy (fun _ _ => opHash_tidy) h
  | shake => exact runDev_keeps hs fun _ h => runOp_tidy (fun _ _ => opShake_tidy) h
  | hmac => exact runDev_keeps hs fun _ h => runOp_tidy (fun _ _ => opHmac_tidy) h
  | cmac => exact runDev_keeps hs fun _ h => runOp_tidy (fun _ _ => opCmac_tidy) h
  | gmac => exact runDev_keeps hs fun _ h => runOp_tidy (fun _ _ => opGmac_tidy) h
  | macVerify => exact runDev_keeps hs fun _ h => runOp_tidy (fun _ _ => opMacVerify_tidy) h
  | hkdf => exact runDev_keeps hs fun _ h => runOp_tidy (fun _ _ => opHkdf_tidy) h
  | kdfCtr => exact runDev_keeps hs fun _ h => runOp_tidy (fun _ _ => opKdfCtr_tidy) h
  | tls13KeySchedule => exact runDev_keeps hs fun _ h => runOp_tidy (fun _ _ => opTls13_tidy) h
  | randomBytes => exact runDev_keeps hs fun _ h => runOp_tidy (fun _ _ => opRandom_tidy) h
  | entropyStatus => exact runDev_keeps hs fun _ h => runOp_tidy (fun _ _ => opEntropyStatus_tidy) h
  | dukptDerive => exact runDev_keeps hs fun _ h => runOp_tidy (fun _ _ => opDukpt_tidy) h
  | pinTranslate => exact runDev_keeps hs fun _ h => runOp_tidy (fun _ _ => opPinTranslate_tidy) h
  | pinVerify => exact runDev_keeps hs fun _ h => runOp_tidy (fun _ _ => opPinVerify_tidy) h
  | cvvGenerate => exact runDev_keeps hs fun _ h => runOp_tidy (fun _ _ => opCvv_tidy) h
  | cvvVerify => exact runDev_keeps hs fun _ h => runOp_tidy (fun _ _ => opCvvVerify_tidy) h
  | dataTranslate => exact runDev_keeps hs fun _ h => runOp_tidy (fun _ _ => opDataTranslate_tidy) h
  | ff1Encrypt => exact runDev_keeps hs fun _ h => runOp_tidy (fun _ _ => opFf1_tidy) h
  | ff1Decrypt => exact runDev_keeps hs fun _ h => runOp_tidy (fun _ _ => opFf1_tidy) h
  | tokenTranslate => exact runDev_keeps hs fun _ h => runOp_tidy (fun _ _ => opTokenTranslate_tidy) h
  | hotpGenerate => exact runDev_keeps hs fun _ h => runOp_tidy (fun _ _ => opHotp_tidy) h
  | hotpVerify => exact runDev_keeps hs fun _ h => runOp_tidy (fun _ _ => opHotpVerify_tidy) h
  | totpGenerate => exact runDev_keeps hs fun _ h => runOp_tidy (fun _ _ => opTotp_tidy) h
  | totpVerify => exact runDev_keeps hs fun _ h => runOp_tidy (fun _ _ => opTotpVerify_tidy) h
  | lockerTokenSign => exact runDev_keeps hs fun _ h => runOp_tidy (fun _ _ => opLocker_tidy) h
  | pickupCodeIssue => exact runDev_keeps hs fun _ h => runOp_tidy (fun _ _ => opPickup_tidy) h
  | pickupCodeVerify => exact runDev_keeps hs fun _ h => runOp_tidy (fun _ _ => opPickupVerify_tidy) h
  | firmwareRoutedOpcode => exact runDev_keeps hs fun _ h => serveOp_tidy (fun _ _ h1 => h1) h
  | symJobGo => exact runAcc_keeps hs fun _ _ h => tidy_ite (jobGo_tidy h) h
  | hashJobGo => exact runAcc_keeps hs fun _ _ h => tidy_ite (jobGo_tidy h) h
  | pkeJobGo => exact runAcc_keeps hs fun _ _ h => tidy_ite (jobGo_tidy h) h
  | jobDone => exact runDev_keeps hs fun _ h => tidy_ite (jobRelease_tidy h) h
  | genRoot => exact runAcc_keeps hs fun _ _ => ksCmdWrite_tidy
  | vaultSync => exact runAcc_keeps hs fun _ _ => ksCmdWrite_tidy
  | t0Flush => exact runAcc_keeps hs fun _ _ => ksCmdWrite_tidy
  | interconnectTransaction => exact runDev_keeps hs fun _ => busGo_tidy
  | targetResetRetry => exact execTargetResetRetry_keeps hs
  | protectedRead => exact runDev_keeps hs fun _ h => tidy_ite (busGo_tidy (hitLine_tidy h)) h
  | protectedWrite => exact runDev_keeps hs fun _ h => tidy_ite (busGo_tidy h) h
  | writeBufferDrain => exact runDev_keeps hs fun _ h => tidy_ite (wbufDrain_tidy h) h
  | epochClose => exact runDev_keeps hs fun _ h => tidy_ite (epochClose_tidy (t1Pass_tidy h)) h
  | patrolScrub => exact execPatrolScrub_keeps hs
  | wellStart => exact runDev_keeps hs fun _ h => tidy_ite (wellBegin_tidy h) h
  | startupTestDone => exact runDev_keeps hs fun _ h => tidy_ite (testEnd_tidy (tidy_with h)) h
  | continuousTestFail => exact runDev_keeps hs fun _ h => tidy_ite (sourceRun_tidy h) h
  | sourceRetest => exact runDev_keeps hs fun _ h => tidy_ite (modNoise_tidy (waitUntil_tidy h)) h
  | returnToPrimary => exact runDev_keeps hs fun _ h => tidy_ite (modWell_tidy h) h
  | conditionedBlock => exact execConditionedBlock_keeps hs
  | drbgReseed => exact runDev_keeps hs fun _ h => tidy_ite (reseedFrom_tidy (syncPorts_tidy h)) (syncPorts_tidy h)
  | drbgGenerate => exact execDrbgGenerate_keeps hs
  | hwRandomRead =>
    exact runDev_keeps hs fun _ h => tidy_ite (tidy_ite h (tidy_ite (satFld_tidy h) (serveStalls_tidy (modWell_tidy h)))) h
  | drbgSwDataRead => exact runAcc_keeps hs fun _ _ => readAnswer_tidy
  | entEmptyClear => exact runAcc_keeps hs fun _ _ => emptyWrite_tidy
  | rawCapture => exact runAcc_keeps hs fun _ _ h => tidy_ite (entWrite_tidy h) h
  | capDone => exact execCapDone_keeps hs
  | patternSubstitution => exact runAcc_keeps hs fun _ _ h => tidy_ite (entWrite_tidy h) h
  | stileIdent => exact runDev_keeps hs fun _ h => stile_tidy (fun _ => stileRet_tidy) h
  | stileHas => exact runDev_keeps hs fun _ h => stile_tidy (fun _ => stileRet_tidy) h
  | unknownCall => exact execUnknownCall_keeps hs
  | hartWake => exact runDev_keeps hs fun _ h => stile_tidy (fun _ => hartWake_tidy) h
  | hartRetire => exact runDev_keeps hs fun _ h => stile_tidy (fun _ => hartRetire_tidy) h
  | hartQuery => exact runDev_keeps hs fun _ h => stile_tidy (fun _ => stileRet_tidy) h
  | modeRequest => exact runDev_keeps hs fun _ h => stile_tidy (fun _ => modeRequest_tidy) h
  | deviceRestart => exact runDev_keeps hs fun _ h => stile_tidy (fun _ h1 => tidy_ite (restartGo_tidy h1) (stileRet_tidy h1)) h
  | fwInfo => exact runDev_keeps hs fun _ h => stile_tidy (fun _ => stileRet_tidy) h
  | fwStage => exact runDev_keeps hs fun _ h => stile_tidy (fun _ h1 => stileFenced_tidy (fun _ => fwStage_tidy) h1) h
  | fwConfirm => exact execFwConfirm_keeps hs
  | fwCommitSvn => exact execFwCommitSvn_keeps hs
  | fwKeyAdd => exact runDev_keeps hs fun _ h => stile_tidy (fun _ => fwKeyAdd_tidy) h
  | fwKeyRevoke => exact runDev_keeps hs fun _ h => stile_tidy (fun _ => fwKeyRevoke_tidy) h
  | worldSwitch => exact runDev_keeps hs fun _ h => stile_tidy (fun _ => worldSwitch_tidy) h
  | nsEntry => exact runDev_keeps hs fun _ h => stile_tidy (fun _ => nsEntry_tidy) h
  | hostcfgSet => exact runDev_keeps hs fun _ h => stile_tidy (fun _ h1 => stileFenced_tidy (fun _ => hostcfgSet_tidy) h1) h
  | debugNonce => exact runDev_keeps hs fun _ h => stile_tidy (fun _ => debugNonce_tidy) h
  | debugCert => exact runDev_keeps hs fun _ h => stile_tidy (fun _ => debugCert_tidy) h
  | secureIrqSwitch => exact execSecureIrqSwitch_keeps hs
  | watchdogKick => exact runDev_keeps hs fun _ h => tidy_ite (wdtRestart_tidy h) h
  | watchdogTrip => exact runDev_keeps hs fun _ h => tidy_ite (raiseFault_tidy (parkCore_tidy (waitUntil_tidy h))) h
  | doubleTrap => exact execDoubleTrap_keeps hs
  | faultArrival => exact execFaultArrival_keeps hs
  | faultHandlingDone => exact execFaultHandlingDone_keeps hs
  | irqcClaim => exact runAcc_keeps hs fun _ _ h => tidy_ite (readAnswer_tidy h) h
  | irqcComplete => exact runAcc_keeps hs fun _ _ h => tidy_ite (regWrite_tidy h) h
  | irqcSwiSet => exact runAcc_keeps hs fun _ _ => regWrite_tidy
  | gpioInputEdge => exact runDev_keeps hs fun _ h => tidy_ite (pinEdges_tidy (tidy_with h)) (tidy_with h)
  | monitorSource => exact runDev_keeps hs fun _ h => tidy_ite (monRefresh_tidy h) h
  | dmaStart => exact runAcc_keeps hs fun _ _ h => tidy_ite (dmaWriteCtl_tidy h) h
  | dmaAbort => exact runAcc_keeps hs fun _ _ h => tidy_ite (dmaWriteCtl_tidy h) h
  | dmaReadbackDone => exact runDev_keeps hs fun _ h => tidy_ite (dmaReadback_tidy (fun _ _ _ _ _ _ => dmaPort_tidy) h) h
  | gpioWrite => exact runAcc_keeps hs fun _ _ h => tidy_ite (regWrite_tidy h) h
  | gpioWorldWrite => exact runAcc_keeps hs fun _ _ => regWrite_tidy
  | assign => exact runAcc_keeps hs fun _ _ => mgrIssue_tidy
  | setQuota => exact runAcc_keeps hs fun _ _ => mgrIssue_tidy
  | quiesce => exact runAcc_keeps hs fun _ _ => mgrIssue_tidy
  | quiesceDrained => exact runDev_keeps hs fun _ h => tidy_ite (quiesceStep_tidy h) h
  | resume => exact runAcc_keeps hs fun _ _ => mgrIssue_tidy
  | freeze => exact runAcc_keeps hs fun _ _ => mgrIssue_tidy
  | freezeDone => exact runDev_keeps hs fun _ h => tidy_ite (freezeStep_tidy h) h
  | thaw => exact runAcc_keeps hs fun _ _ => mgrIssue_tidy
  | reset => exact runAcc_keeps hs fun _ _ => mgrIssue_tidy
  | remove => exact runAcc_keeps hs fun _ _ => mgrIssue_tidy
  | discard => exact runAcc_keeps hs fun _ _ => mgrIssue_tidy
  | xportOffer => exact runAcc_keeps hs fun _ _ => mgrIssue_tidy
  | xportAccept => exact runAcc_keeps hs fun _ _ => mgrIssue_tidy
  | xportComplete => exact runAcc_keeps hs fun _ _ => mgrIssue_tidy
  | mgrExport => exact runAcc_keeps hs fun _ _ => mgrIssue_tidy
  | mgrImport => exact runAcc_keeps hs fun _ _ => mgrIssue_tidy
  | xportClose => exact runAcc_keeps hs fun _ _ => mgrIssue_tidy
  | xportSessionExpire => exact execXportSessionExpire_keeps hs
  | mgrMbSend => exact runAcc_keeps hs fun _ _ => mgrWrite_tidy
  | mgrMbEmpty => exact runAcc_keeps hs fun _ _ => mgrWrite_tidy
  | instMbSend => exact runAcc_keeps hs fun _ _ => instWrite_tidy
  | instMbEmpty => exact runAcc_keeps hs fun _ _ => instWrite_tidy
  | mgrEventRead => exact runAcc_keeps hs fun _ _ => readAnswer_tidy
  | enrol => exact runAcc_keeps hs fun _ _ => ofcRow_tidy
  | revoke => exact runAcc_keeps hs fun _ _ => ofcRow_tidy
  | setClass => exact runAcc_keeps hs fun _ _ => ofcRow_tidy
  | setInstClass => exact runAcc_keeps hs fun _ _ => ofcRow_tidy
  | unlock => exact runAcc_keeps hs fun _ _ => ofcRow_tidy
  | cerEnter => exact runAcc_keeps hs fun _ _ => ofcRow_tidy
  | ceremonyEntered => exact execCeremonyEntered_keeps hs
  | cerExit => exact runAcc_keeps hs fun _ _ => ofcRow_tidy
  | cerTimeout => exact execCerTimeout_keeps hs
  | challenge => exact runAcc_keeps hs fun _ _ => ofcRow_tidy
  | pin => exact runAcc_keeps hs fun _ _ => ofcRow_tidy
  | challengeExpire => exact execChallengeExpire_keeps hs
  | cardInsert => exact execCardInsert_keeps hs
  | cardRemove => exact runDev_keeps hs fun _ h => tidy_ite (ofcLost_tidy (raiseEv_tidy (modCard_tidy (cardOff_tidy h)))) h
  | cardFault => exact runDev_keeps hs fun _ h => tidy_ite (ofcLost_tidy (raiseEv_tidy (cardFaulty_tidy (cardOff_tidy h)))) h
  | cardResponse => exact execCardResponse_keeps hs
  | lockoutExpire => exact runDev_keeps hs fun _ h => tidy_ite (cardsNext_tidy (officerUnlock_tidy (waitUntil_tidy h))) h
  | transition => exact runAcc_keeps hs fun _ _ => lcWrite_tidy
  | tokenSet => exact runAcc_keeps hs fun _ _ => lcWrite_tidy
  | lcProgrammingDone => exact runDev_keeps hs fun _ => lcFinish_tidy
  | clearGrant => exact runAcc_keeps hs fun _ _ => regWrite_tidy
  | debugHaltRequest => exact runDev_keeps hs fun _ h => tidy_ite (dbgAct_tidy (tidy_with h)) h
  | debugAccess => exact runDev_keeps hs fun _ h => tidy_ite (busGo_tidy (tidy_with h)) (tidy_with h)
  | evrWriteGo => exact runAcc_keeps hs fun _ _ => evrWrite_tidy
  | evrClearGo => exact runAcc_keeps hs fun _ _ => evrWrite_tidy
  | evrRdNext => exact runAcc_keeps hs fun _ _ => readAnswer_tidy
  | evrRdPrev => exact runAcc_keeps hs fun _ _ => readAnswer_tidy
  | evrCursorSet => exact runAcc_keeps hs fun _ _ => evrWrite_tidy
  | eventBufferWrite => exact runDev_keeps hs fun _ h => tidy_ite (writeBuffered_tidy h) h
  | tamperAlarm => exact execTamperAlarm_keeps hs
  | lanternSample => exact execLanternSample_keeps hs
  | tripHoldEnd => exact execTripHoldEnd_keeps hs
  | monfault => exact execMonfault_keeps hs
  | throttleEnd => exact execThrottleEnd_keeps hs
  | tamperFuseReq => exact execTamperFuseReq_keeps hs
  | loopArm => exact execLoopArm_keeps hs
  | quarterPowerRequest => exact execQuarterPowerRequest_keeps hs
  | quarterPowerDrained => exact runDev_keeps hs fun _ h => tidy_ite (quarterTry_tidy h) h
  | drowseWake => exact runDev_keeps hs fun _ h => tidy_ite (wake_tidy h) h
  | wakeTimer => exact runDev_keeps hs fun _ h => tidy_ite (wake_tidy (waitUntil_tidy h)) h
  | bankMeasurement => exact runDev_keeps hs fun _ h => tidy_ite (tidy_with (waitUntil_tidy h)) h
  | measDone => exact runDev_keeps hs fun _ h => tidy_ite (measureEnd_tidy h) h
  | holdStale => exact runDev_keeps hs fun _ h => tidy_ite (tidy_with (waitUntil_tidy h)) h
  | wearDailyUpdate => exact runDev_keeps hs fun _ h => tidy_ite (tidy_foldl (fun _ _ => wearDay_tidy) h) h
  | lockLost => exact runDev_keeps hs fun _ h => tidy_ite (waitUntil_tidy (raiseEv_tidy (satFld_tidy h))) h
  | lineVerificationDone => exact execLineVerificationDone_keeps hs
  | hostReadCompletion => exact runDev_keeps hs fun _ h => drainStep_tidy (readDone_tidy (tlpWake_tidy h))
  | atrTimeout => exact execAtrTimeout_keeps hs
  | bankCharged => exact runDev_keeps hs fun _ h => tidy_ite (bootCharged_tidy (tidy_with h)) h
  | tamperAlarmEnd => exact runDev_keeps hs fun _ h => tidy_ite (monSettle_tidy (tampClear_tidy h)) h
  | ceHourEnd => exact runDev_keeps hs fun _ => modMpe_tidy
  | resetWindowExpiry => exact execResetWindowExpiry_keeps hs

/-- So does a step on an empty queue. -/
theorem tick_keeps {s : State} (hs : s.dev.tidy) : Keeps (tick s) := by
  unfold tick
  split
  · exact runDev_keeps hs fun _ => rootStep_tidy
  · rintro _ ⟨⟩
    exact hs

theorem step_keeps {s : State} (hs : s.dev.tidy) : Keeps (step s) := by
  unfold step
  split
  · exact tick_keeps hs
  · exact exec_keeps _ hs

/-- Settles O5, by `step_keeps`: a case for each command, each by what the functions of its meaning keep. -/
theorem stepKeepsCanonicalForm : Obligations.StepKeepsCanonicalForm :=
  fun _ t hs h => step_keeps hs t h

end Sys2Proof.Proofs
end

section
/-! A command completes: what its meaning makes of the block as it finds it. -/

open Sys2Proof Sys2Proof.Machine

namespace Sys2Proof.Proofs

/-- What stands in the state, stands in the block as a command finds it. -/
theorem same_begins {s : State} {d e : Dev} (b : Begins s d) {p : Part} (h : p.same d e) : p.same s.dev e := by
  obtain ⟨rfl, -⟩ := b
  cases p <;> exact h

/-- A meaning completes with what it makes of the block, where that notes no verification failure. -/
theorem completes_runDev {c : Instr} {s : State} {d e : Dev} {but : List Part} {q : Dev → Prop} {f : Dev → Dev} (b : Begins s d)
    (run : exec c s = runDev s f) (he : f d = e) (ok : e.mpe.failing = none) (keep : ∀ p : Part, p ∉ but → p.same d e) (hq : q e) :
    Completes c s but q := by
  refine ⟨{ s with dev := e }, ?_, ⟨fun p hp => same_begins b (keep p hp), rfl⟩, hq⟩
  obtain ⟨rfl, -⟩ := b
  subst he
  rw [run, runDev_ok s f ok]

/-- No TLP wakes the device: the command finds it as it is. -/
theorem tlpWake_awake {link : Option Nat} {d : Dev} (h : Awake d link) : tlpWake link d = d := by
  unfold tlpWake wake
  split
  · rename_i up
    rw [Option.any_eq_true] at up
    obtain ⟨l, e, up⟩ := up
    refine if_pos fun m => ?_
    rw [h m l e] at up
    cases up
  · rfl

/-- The same of a meaning that an access brings, one that wakes nothing and carries its master's world. -/
theorem completes_runAcc {c : Instr} {s : State} {d e : Dev} {a : Access} {but : List Part} {q : Dev → Prop} {f : Access → Dev → Dev}
    (b : Begins s d) (w : AwakeFor d a) (run : exec c s = runAcc a s f) (he : f a d = e) (ok : e.mpe.failing = none)
    (keep : ∀ p : Part, p ∉ but → p.same d e) (hq : q e) : Completes c s but q := by
  obtain ⟨awake, seen⟩ := w
  refine completes_runDev (f := fun d => f (accSeen d a) (tlpWake (viaLink d a.via) d)) b run ?_ ok keep hq
  rw [seen, tlpWake_awake awake, he]

/-- Every part of the block is as it is. -/
theorem same_refl (d : Dev) (p : Part) : p.same d d := by
  cases p <;> rfl

/-- So it is when only the bus's answer changes. -/
theorem same_bus (d : Dev) (r : Option BusResp) (p : Part) : p.same d { d with bus := r } := by
  cases p <;> rfl

end Sys2Proof.Proofs
end

section
/-! A page that the page allocation does not list behaves as reserved bits (R16). -/

open Sys2Proof Sys2Proof.Machine

namespace Sys2Proof.Proofs

theorem pageKind_instPage {i : Nat} (h : i < 1024) : pageKind (instPage i) = some .inst := by
  unfold pageKind instPage
  iterate 32 rw [if_neg (by omega)]
  exact if_pos (by omega)

theorem zoneOf_regs {a : Nat} (zone : zoneOf a = .regs) : 0x1000_0000 ≤ a := by
  by_contra low
  unfold zoneOf at zone
  by_cases rom : a ≤ 0x3FFFF
  · rw [if_pos rom] at zone
    cases zone
  · rw [if_neg rom] at zone
    iterate 11 rw [if_neg (by simp only [Bool.and_eq_true, decide_eq_true_eq]; omega)] at zone
    cases zone

/-- A part of a transaction that writes the register space. -/
theorem busPart_regs_write (tag : Option Nat) {b : Bus} {a : Nat} (n : Nat) (d : Dev) (zone : zoneOf a = .regs) (k : b.kind = .write) :
    busPart tag b a n d
      = (.ok, [], dmaRegWrite (pageWrite 40) (busAccess d b ((a - 0x1000_0000) / 0x1000)) a 600 (slice b.data (a - b.addr) n) d) := by
  simp [busPart, fenceWrites, zone, k]

/-- A part of a transaction that reads the register space. -/
theorem busPart_regs_read (tag : Option Nat) {b : Bus} {a : Nat} (n : Nat) (d : Dev) (zone : zoneOf a = .regs) (k : b.kind ≠ .write) :
    busPart tag b a n d = (.ok, busRegRead b a n d) := by
  simp [busPart, zone, k]

theorem length_slice (bs : Bytes) (i n : Nat) : (slice bs i n).length = n := by
  simp [slice, zeros]

/-- A string of zeros, cut anywhere. -/
theorem slice_zeros (m i n : Nat) : slice (zeros m) i n = zeros n := by
  simp [slice, zeros]

section
variable {p : Nat} (h : pageKind p = none)
include h

/-- No access reaches a page that is not listed. -/
theorem reach_unlisted (d : Dev) (a : Access) (off : Nat) : reach d a p off = .gone := by
  unfold reach
  split
  · rfl
  · split
    · rw [h]
      rfl
    · unfold pfReach
      rw [h]
    · refine if_neg fun c => ?_
      simp only [Bool.and_eq_true, decide_eq_true_eq] at c
      rw [c.1.2, pageKind_instPage c.1.1] at h
      cases h

theorem admitWrite_unlisted (d : Dev) (a : Access) (off : Nat) : admitWrite a p off d = (none, d) := by
  unfold admitWrite
  rw [reach_unlisted h]

theorem wordWrite_unlisted (port : RegPort) (a : Access) (off v : Nat) (d : Dev) : wordWrite port a p off v d = d := by
  have notDrbg : p ≠ pgDRBG := by
    rintro rfl
    cases h
  unfold wordWrite
  rw [if_neg (by simp [notDrbg]), admitWrite_unlisted h]

theorem pageWrite_unlisted (f : Nat) (a : Access) (off n v : Nat) (d : Dev) : pageWrite f a p off n v d = d := by
  cases f with
  | zero => rfl
  | succ f =>
    unfold pageWrite
    rw [reach_unlisted h]
    simp only [wordWrite_unlisted h, ite_self]

theorem readWord_unlisted (a : Access) (off : Nat) (d : Dev) : readWord a p off d = (0, d) := by
  unfold readWord
  rw [reach_unlisted h]

/-- What is read of such a page is zeros. -/
theorem pageRead_unlisted (a : Access) (off n : Nat) (d : Dev) : pageRead a p off n d = (zeros n, d) := by
  unfold pageRead
  simp only [readWord_unlisted h, reach_unlisted h]
  split
  · rfl
  · split
    · rename_i e
      rw [e]
      rfl
    · exact congrArg (·, d) (slice_zeros 4 (off % 4) n)
/-- Words written one by one to such a page change nothing. -/
theorem dmaRegWrite_unlisted (f g : Nat) (x : Access) (a : Nat) (bs : Bytes) (d : Dev)
    (page : ∀ k, k < bs.length → (a + k - 0x1000_0000) / 0x1000 = p) : dmaRegWrite (pageWrite g) x a f bs d = d := by
  induction f generalizing a bs with
  | zero => rfl
  | succ f ih =>
    unfold dmaRegWrite
    cases bs with
    | nil => rfl
    | cons y ys =>
      have first : (a - 0x1000_0000) / 0x1000 = p := page 0 (by simp)
      rw [first, pageWrite_unlisted h]
      refine (if_neg (by simp)).trans (ih _ _ fun k hk => ?_)
      rw [List.length_drop] at hk
      have := page (min (y :: ys).length 8 + k) (by omega)
      rwa [← Nat.add_assoc] at this

/-- Words read one by one from such a page are zeros. -/
theorem dmaRegRead_unlisted (f : Nat) (x : Access) (a n : Nat) (d : Dev) (fuel : n ≤ 8 * f)
    (page : ∀ k, k < n → (a + k - 0x1000_0000) / 0x1000 = p) : dmaRegRead x a f n d = (zeros n, d) := by
  induction f generalizing a n with
  | zero =>
    obtain rfl : n = 0 := by omega
    rfl
  | succ f ih =>
    unfold dmaRegRead
    split
    · rename_i e
      rw [e]
      rfl
    · have first : (a - 0x1000_0000) / 0x1000 = p := page 0 (by omega)
      have rest := ih (a + min n 8) (n - min n 8) (by omega) fun k hk => by
        rw [Nat.add_assoc]
        exact page _ (by omega)
      simp only [first, pageRead_unlisted h, rest]
      rw [zeros, zeros, List.replicate_append_replicate]
      congr 2
      omega

/-- A REGISTER_WRITE of such a page changes nothing. -/
theorem registerWrite_unlisted {s : State} {d : Dev} {a : Access} (off size val : Nat) (b : Begins s d) (w : AwakeFor d a)
    (bell : ∀ i st, a.via = .vf i st → p ≠ bellPage i) : Completes (.registerWrite a p off size val) s [] fun _ => True := by
  refine completes_runAcc b w (Eq.refl (execRegisterWrite a p off size val s)) (e := d) ?_ b.2 (fun p _ => same_refl d p) trivial
  have plain : regWrite a p off size val d = d := pageWrite_unlisted h ..
  refine ite_eq_left_iff.mpr fun _ => ?_
  split
  · rename_i e
    rw [if_neg (bell _ _ e), plain]
  · exact plain

/-- A part of a transaction in such a page changes nothing, and what is read is zeros. -/
theorem busPart_unlisted (b : Bus) (d : Dev) (len : b.len ≤ 64) (zone : zoneOf b.addr = .regs)
    (page : ∀ k, k < b.len → (b.addr + k - 0x1000_0000) / 0x1000 = p) :
    busPart none b b.addr b.len d = (.ok, if b.kind = .write then [] else zeros b.len, d) := by
  by_cases k : b.kind = .write
  · rw [busPart_regs_write none _ d zone k, if_pos k, dmaRegWrite_unlisted h]
    rwa [length_slice]
  · rw [busPart_regs_read none _ d zone k, if_neg k, busRegRead, dmaRegRead_unlisted h _ _ _ _ d (by omega) page, ite_self]

/-- So a transaction in such a page is answered. -/
theorem busParts_unlisted (b : Bus) (d : Dev) (len : b.len ≤ 64) (zone : zoneOf b.addr = .regs) (none_empty : 0 < b.len)
    (one : b.addr % 4096 + b.len ≤ 4096) (pass : partCheck d (busWho d b) b.kind b.addr = .pass)
    (page : ∀ k, k < b.len → (b.addr + k - 0x1000_0000) / 0x1000 = p) :
    busParts none b d = (.ok, if b.kind = .write then [] else zeros b.len, d) := by
  simp [busParts, partsOf_one _ _ none_empty one, judgePart, pass, busPart_unlisted h b d len zone page, MemRes.join]

/-- And so is one of the debug transport. -/
theorem debugRun_unlisted (b : Bus) (d : Dev) (len : b.len ≤ 64) (zone : zoneOf b.addr = .regs)
    (pass : partCheck d (whoDebug d) b.kind b.addr = .pass) (page : ∀ k, k < b.len → (b.addr + k - 0x1000_0000) / 0x1000 = p) :
    debugRun b id d = busAnswer b .ok (if b.kind = .write then [] else zeros b.len) d := by
  simp [debugRun, judgePart, pass, busPart_unlisted h b d len zone page, zone]

/-- A transaction of any master in such a page, past the checks. -/
theorem busRun_unlisted (b : Bus) (d : Dev) (plain : BusPlain d b) (zone : zoneOf b.addr = .regs)
    (one : b.addr % 4096 + b.len ≤ 4096) (pass : partCheck d (busWho d b) b.kind b.addr = .pass)
    (page : ∀ k, k < b.len → (b.addr + k - 0x1000_0000) / 0x1000 = p) :
    busRun none b id d = busAnswer b .ok (if b.kind = .write then [] else zeros b.len) d := by
  obtain ⟨⟨master, some, len, -, -⟩, -, host⟩ := plain
  unfold busRun
  by_cases c5 : b.cls = 5
  · have who : busWho d b = whoDebug d := by
      simp_all [busWho, busWorld, whoDebug, masterOk]
    rw [if_pos c5, debugRun_unlisted h b d len zone (who ▸ pass) page]
  · have arrives : (b.cls = 2 && hostUr d (busAccess d b ((b.addr - 0x1000_0000) / 0x1000)).via) = false := by
      by_cases c2 : b.cls = 2
      · simp [(host c2).2.2]
      · simp [c2]
    rw [if_neg c5, if_neg (by simp [zone]), arrives, busParts_unlisted h b d len zone some one pass page]
    rfl
end

/-- A transaction that nothing of a host stops is run as it is sent. -/
theorem busGo_plain (b : Bus) (d : Dev) (on : dieOn d.sys.mode = true) (plain : BusPlain d b) : busGo none b d = busRun none b id d := by
  obtain ⟨⟨master, some, len, pmp, debug⟩, good, host⟩ := plain
  have awake : (if b.cls = 2 then tlpWake (.some b.idx) d else d) = d := by
    split
    · exact tlpWake_awake (host ‹_›).1
    · rfl
  have bell : busBell d b = none := by
    by_cases c2 : b.cls = 2
    · exact (host c2).2.1
    · simp [busBell, c2]
  have carried : (!(dieOn d.sys.mode) || !(masterOk b.cls b.idx) || b.len = 0 || 64 < b.len || (b.cls = 5 && !(debugMay d))) = false := by
    have : ¬64 < b.len := by omega
    have : b.len ≠ 0 := by omega
    by_cases c5 : b.cls = 5 <;> simp_all
  unfold busGo
  rw [awake]
  simp only [carried, pmp, good, Bool.false_eq_true, if_false]
  unfold busSent
  rw [bell]

/-- An answer without a fault. -/
theorem busAnswer_ok (b : Bus) (data : Bytes) (d : Dev) :
    busAnswer b .ok data d = { d with bus := if busPosted b then none else some (.ok data) } := by
  unfold busAnswer
  split <;> rfl

/-- An interconnect transaction in such a page. -/
theorem interconnect_unlisted {s : State} {d : Dev} {b : Bus} (begins : Begins s d) (on : dieOn d.sys.mode = true) (plain : BusPlain d b)
    (zone : zoneOf b.addr = .regs) (h : pageKind ((b.addr - 0x1000_0000) / 0x1000) = none) (one : b.addr % 4096 + b.len ≤ 4096)
    (pass : partCheck d (busWho d b) b.kind b.addr = .pass) :
    Completes (.interconnectTransaction b) s [] fun t =>
      t.bus = if busPosted b then none else some (.ok (if b.kind = .write then [] else zeros b.len)) := by
  have page : ∀ k, k < b.len → (b.addr + k - 0x1000_0000) / 0x1000 = (b.addr - 0x1000_0000) / 0x1000 := by
    intro k hk
    have := zoneOf_regs zone
    omega
  refine completes_runDev begins (Eq.refl (execInterconnectTransaction b s))
    (e := { d with bus := if busPosted b then none else some (.ok (if b.kind = .write then [] else zeros b.len)) }) ?_ begins.2
    (fun p _ => same_bus d _ p) rfl
  rw [busGo_plain b d on plain, busRun_unlisted h b d plain zone one pass page, busAnswer_ok]

/-- In the register space the check of fixed restrictions lets everything pass. -/
theorem fixedCheck_regs (d : Dev) (w : Who) (k : BusKind) {x : Nat} (zone : zoneOf x = .regs) : fixedCheck d w k x = .pass := by
  simp [fixedCheck, zone]

theorem htCheck_cases (d : Dev) (w : Who) (k : BusKind) (x : Nat) : htCheck d w k x = .pass ∨ ∃ r, htCheck d w k x = .refuse r := by
  unfold htCheck
  split
  · exact .inl rfl
  · split
    · exact .inr ⟨_, rfl⟩
    · exact (ite_eq_or_eq _ _ _).imp id fun e => ⟨_, e⟩

/-- Settles O41: no access reaches a page without a kind, so writes fall away and reads are zeros. -/
theorem unlistedPagesAreReserved : Obligations.UnlistedPagesAreReserved := by
  refine ⟨fun s d a p off size val b w h bell => registerWrite_unlisted h off size val b w bell, ?_, ?_⟩
  · intro s d b begins on plain zone h one pass
    have go := interconnect_unlisted begins on plain zone h one pass
    refine ⟨fun k => ?_, fun k => ?_⟩
    · simpa [k, busPosted] using go
    · simpa [k] using go
  · intro d w k x zone
    unfold partCheck
    rw [fixedCheck_regs d w k zone]
    obtain e | ⟨r, e⟩ := htCheck_cases d w k x <;> simp [e]

end Sys2Proof.Proofs
end

section
/-! Fields of register words: what one reads after a write of the same field and of another. -/

open Sys2Proof Sys2Proof.Machine

namespace Sys2Proof.Proofs

/-- A word cut at a field: what stands above it, the field, what stands below. -/
theorem word_parts (v hi lo : Nat) (h : lo ≤ hi) : v = v / 2 ^ (hi + 1) * 2 ^ (hi + 1) + bits v hi lo * 2 ^ lo + v % 2 ^ lo := by
  have w : 2 ^ (hi + 1) = 2 ^ lo * 2 ^ (hi + 1 - lo) := by rw [← Nat.pow_add]; congr 1; omega
  have above : v / 2 ^ (hi + 1) = v / 2 ^ lo / 2 ^ (hi + 1 - lo) := by rw [w, Nat.div_div_eq_div_mul]
  have low := Nat.div_add_mod v (2 ^ lo)
  have mid := Nat.div_add_mod (v / 2 ^ lo) (2 ^ (hi + 1 - lo))
  unfold bits
  rw [above, w]
  generalize v / 2 ^ lo = q at *
  generalize q / 2 ^ (hi + 1 - lo) = a at *
  rw [← low, ← mid]
  simp
  ring

/-- A field write keeps what stands above and below the field. -/
theorem setBits_parts (v hi lo x : Nat) (h : lo ≤ hi) :
    setBits v hi lo x = 2 ^ lo * (2 ^ (hi + 1 - lo) * (v / 2 ^ (hi + 1)) + x % 2 ^ (hi + 1 - lo)) + v % 2 ^ lo := by
  have w : 2 ^ (hi + 1) = 2 ^ lo * 2 ^ (hi + 1 - lo) := by rw [← Nat.pow_add]; congr 1; omega
  have parts := word_parts v hi lo h
  have rest : v - bits v hi lo * 2 ^ lo = v / 2 ^ (hi + 1) * 2 ^ (hi + 1) + v % 2 ^ lo := by omega
  unfold setBits
  rw [rest]
  generalize v / 2 ^ (hi + 1) = a
  rw [w]
  ring

/-- Which bits of a word a field write changes. -/
theorem testBit_setBits (v hi lo x i : Nat) (h : lo ≤ hi) :
    (setBits v hi lo x).testBit i = if lo ≤ i ∧ i ≤ hi then x.testBit (i - lo) else v.testBit i := by
  rw [setBits_parts v hi lo x h, Nat.testBit_two_pow_mul_add _ (Nat.mod_lt _ (Nat.two_pow_pos lo)),
    Nat.testBit_two_pow_mul_add _ (Nat.mod_lt _ (Nat.two_pow_pos _)), Nat.testBit_mod_two_pow, Nat.testBit_mod_two_pow,
    Nat.testBit_div_two_pow]
  by_cases below : i < lo
  · simp [below]
  · by_cases inside : i - lo < hi + 1 - lo
    · have : lo ≤ i ∧ i ≤ hi := by omega
      simp [below, inside, this]
    · have above : hi + 1 + (i - lo - (hi + 1 - lo)) = i := by omega
      have : ¬(lo ≤ i ∧ i ≤ hi) := by omega
      simp [below, inside, this, above, Nat.add_comm]

theorem testBit_bits (v hi lo i : Nat) : (bits v hi lo).testBit i = (decide (i < hi + 1 - lo) && v.testBit (lo + i)) := by
  unfold bits
  rw [Nat.testBit_mod_two_pow, Nat.testBit_div_two_pow, Nat.add_comm lo i]

theorem bits_setBits_same (v hi lo x : Nat) (h : lo ≤ hi) : bits (setBits v hi lo x) hi lo = x % 2 ^ (hi + 1 - lo) := by
  refine Nat.eq_of_testBit_eq fun i => ?_
  rw [testBit_bits, testBit_setBits v hi lo x _ h, Nat.testBit_mod_two_pow]
  by_cases inside : i < hi + 1 - lo
  · rw [if_pos (by omega), Nat.add_sub_cancel_left]
  · simp [inside]

theorem bits_setBits_apart (v hi lo x : Nat) {hi' lo' : Nat} (h : lo ≤ hi) (apart : hi < lo' ∨ hi' < lo) :
    bits (setBits v hi lo x) hi' lo' = bits v hi' lo' := by
  refine Nat.eq_of_testBit_eq fun i => ?_
  rw [testBit_bits, testBit_bits, testBit_setBits v hi lo x _ h]
  by_cases inside : i < hi' + 1 - lo'
  · rw [if_neg (by omega)]
  · simp [inside]

/-- What lies in a 32-bit word of a number. -/
theorem bits_mod_word (v hi lo : Nat) (h : hi < 32) : bits (v % 2 ^ 32) hi lo = bits v hi lo := by
  refine Nat.eq_of_testBit_eq fun i => ?_
  rw [testBit_bits, testBit_bits, Nat.testBit_mod_two_pow]
  by_cases inside : i < hi + 1 - lo
  · have : lo + i < 32 := by omega
    simp [this]
  · simp [inside]

theorem bits_lt (v hi lo : Nat) : bits v hi lo < 2 ^ (hi + 1 - lo) := Nat.mod_lt _ (Nat.two_pow_pos _)

theorem bits_setBits_bits (v hi lo x : Nat) (h : lo ≤ hi) : bits (setBits v hi lo (bits x hi lo)) hi lo = bits x hi lo := by
  rw [bits_setBits_same v hi lo _ h, Nat.mod_eq_of_lt (bits_lt x hi lo)]

/-! ## Fields of a page -/

/-- A field stands in a 32-bit word. -/
def InWord (f : Fld) : Prop := f.lo ≤ f.hi ∧ f.hi < 32

theorem fld_setFld_same (d : Dev) (p : Nat) (f : Fld) (v : Nat) (w : InWord f) :
    fld (setFld d p f v) p f = v % 2 ^ (f.hi + 1 - f.lo) := by
  unfold fld setFld
  rw [regGet_regPut_same, bits_mod_word _ _ _ w.2, bits_setBits_same _ _ _ _ w.1]

/-- A field beside the one written, in the same register. -/
theorem fld_setFld_beside (d : Dev) (p : Nat) {f g : Fld} (v : Nat) (wf : InWord f) (wg : InWord g) (off : f.off = g.off)
    (apart : g.hi < f.lo ∨ f.hi < g.lo) : fld (setFld d p g v) p f = fld d p f := by
  unfold fld setFld
  rw [off, regGet_regPut_same, bits_mod_word _ _ _ wf.2, bits_setBits_apart _ _ _ _ wg.1 apart]

theorem regGet_setFld_other (d : Dev) {p q off : Nat} {f : Fld} (v : Nat) (h : regKey q off ≠ regKey p f.off) :
    regGet (setFld d p f v) q off = regGet d q off :=
  regGet_regPut_other d p f.off q off _ h

/-- The page of a register key. -/
theorem regKey_page (p off : Nat) (h : off < 0x1000) : regKey p off / 1024 = p := by
  unfold regKey
  omega

theorem regKey_ne_page {p q off o : Nat} (ho : off < 0x1000) (hq : o < 0x1000) (h : q ≠ p) : regKey q off ≠ regKey p o := by
  intro e
  have := congrArg (· / 1024) e
  simp only [regKey_page _ _ ho, regKey_page _ _ hq] at this
  exact h this

end Sys2Proof.Proofs
end

section
/-! What a soft reset makes of a page's registers (R40). -/

open Sys2Proof Sys2Proof.Machine

namespace Sys2Proof.Proofs

theorem smapFind_keep {α : Type} (p : Nat → Bool) (m : SMap α) (n : Nat) :
    smapFind (smapKeep p m) n = if p n = true then smapFind m n else none := by
  unfold smapKeep
  induction m with
  | nil => simp [smapFind]
  | cons kv t ih =>
    obtain ⟨k, v⟩ := kv
    rw [List.filter_cons]
    by_cases e : k = n
    · subst e
      by_cases q : p k = true <;> simp_all [smapFind]
    · split <;> simp [smapFind, e, ih]

theorem smapFind_above {α : Type} {m : SMap α} {n : Nat} (h : ∀ kv ∈ m, n < kv.1) : smapFind m n = none := by
  induction m with
  | nil => rfl
  | cons kv t ih =>
    rw [List.forall_mem_cons] at h
    unfold smapFind
    rw [if_neg (Nat.ne_of_gt h.1), ih h.2]

/-- A table in which the values at the keys of a list are written anew. -/
theorem smapGet_foldl_set {α : Type} [DecidableEq α] (dflt : Nat → α) (g : Nat × α → α) {l : SMap α} (rises : smapRises l = true)
    (m : SMap α) (n : Nat) :
    smapGet dflt (l.foldl (fun m kv => smapSet dflt m kv.1 (g kv)) m) n
      = match smapFind l n with
        | some v => g (n, v)
        | none => smapGet dflt m n := by
  induction l generalizing m with
  | nil => rfl
  | cons kv t ih =>
    obtain ⟨k, v⟩ := kv
    obtain ⟨above, rises⟩ := (smapRises_cons k v t).1 rises
    rw [List.foldl_cons, ih rises]
    by_cases e : k = n
    · subst e
      simp [smapFind, smapFind_above above]
    · simp [smapFind, e, smapGet_set_other dflt m k n _ (Ne.symm e)]

/-- A soft reset writes the words that the page's registers hold anew, and nothing else. -/
theorem softRegs_eq (k : PageKind) (p : Nat) (d : Dev) :
    softRegs k p d = { d with regs := (smapKeep (keyOnPage p) d.regs).foldl (fun m kv =>
      smapSet regReset m kv.1 (BitVec.ofNat 32 (softWord k (hdrOf d p).lock kv.1 kv.2.toNat))) d.regs } := by
  unfold softRegs
  show ((smapKeep (keyOnPage p) d.regs).foldl _ d) = _
  generalize smapKeep (keyOnPage p) d.regs = l
  generalize (hdrOf d p).lock = lock
  induction l generalizing d with
  | nil => rfl
  | cons kv t ih => exact ih _

/-- The word of a register after the soft reset of a page. -/
theorem smapGet_softRegs (k : PageKind) (p : Nat) {d : Dev} (tidy : d.tidy) (key : Nat) :
    smapGet regReset (softRegs k p d).regs key
      = if keyOnPage p key = true then
          match smapFind d.regs key with
          | some w => BitVec.ofNat 32 (softWord k (hdrOf d p).lock key w.toNat)
          | none => regReset key
        else smapGet regReset d.regs key := by
  obtain ⟨-, regs, -⟩ := tidy
  have rises : smapRises d.regs = true := (Bool.and_eq_true_iff.mp regs).1
  have kept : smapRises (smapKeep (keyOnPage p) d.regs) = true := smapRises_filter _ _ rises
  rw [softRegs_eq]
  refine (smapGet_foldl_set _ _ kept _ _).trans ?_
  rw [smapFind_keep]
  by_cases on : keyOnPage p key = true
  · cases h : smapFind d.regs key <;> simp [smapGet, h, on]
  · simp [on]

/-! ## Fields of one register do not overlap -/

/-- Two fields stand in one register of their page. -/
def Share (f g : Fld) : Prop := ∃ j ∈ List.range f.n, fldHere (f.off + j * f.stride) g = true

/-- Every field of a page stands in its word, and two fields of one register do not overlap. -/
def FieldsApart (k : PageKind) : Prop :=
  ∀ f ∈ pageLayout k, InWord f ∧ ∀ g ∈ pageLayout k, (f.hi < g.lo ∨ g.hi < f.lo) ∨ f = g ∨ ¬Share f g

/-- The pages of which PageControlCommands speaks. -/
theorem fieldsApart_soft : ∀ k ∈ [PageKind.sys, .clk, .hold, .wear, .host, .usb4], FieldsApart k := by
  unfold FieldsApart Share InWord
  decide +kernel

theorem fieldsAt_inWord {k : PageKind} (h : FieldsApart k) {off : Nat} {f : Fld} (hf : f ∈ fieldsAt k off) : InWord f :=
  (h f (List.mem_filter.mp hf).1).1

theorem fieldsAt_apart {k : PageKind} (h : FieldsApart k) {off : Nat} {f g : Fld} (hf : f ∈ fieldsAt k off) (hg : g ∈ fieldsAt k off)
    (ne : f ≠ g) : f.hi < g.lo ∨ g.hi < f.lo := by
  obtain ⟨hf, here⟩ := List.mem_filter.mp hf
  obtain ⟨hg, there⟩ := List.mem_filter.mp hg
  obtain apart | same | alone := (h f hf).2 g hg
  · exact apart
  · exact absurd same ne
  · obtain ⟨j, hj, e⟩ := List.any_eq_true.mp here
    refine absurd ⟨j, hj, ?_⟩ alone
    rwa [beq_iff_eq.mp e]

/-- A word in which some fields are written from another. -/
def mergeFlds (from' : Nat) (l : List Fld) (w : Nat) : Nat :=
  l.foldl (fun w f => setBits w f.hi f.lo (bits from' f.hi f.lo)) w

theorem bits_mergeFlds_apart {r w : Nat} {f : Fld} {l : List Fld} (h : ∀ g ∈ l, InWord g ∧ (f.hi < g.lo ∨ g.hi < f.lo)) :
    bits (mergeFlds r l w) f.hi f.lo = bits w f.hi f.lo := by
  induction l generalizing w with
  | nil => rfl
  | cons g t ih =>
    rw [List.forall_mem_cons] at h
    obtain ⟨⟨word, apart⟩, rest⟩ := h
    exact (ih rest).trans (bits_setBits_apart _ _ _ _ word.1 apart.symm)

theorem bits_mergeFlds_mem {r w : Nat} {f : Fld} {l : List Fld} (h : ∀ g ∈ l, InWord g ∧ (f ≠ g → f.hi < g.lo ∨ g.hi < f.lo))
    (hf : f ∈ l) : bits (mergeFlds r l w) f.hi f.lo = bits r f.hi f.lo := by
  induction l generalizing w with
  | nil => cases hf
  | cons g t ih =>
    rw [List.forall_mem_cons] at h
    obtain ⟨⟨word, -⟩, rest⟩ := h
    by_cases again : f ∈ t
    · exact ih rest again
    · obtain rfl := (List.mem_cons.mp hf).resolve_right again
      have apart : ∀ g ∈ t, InWord g ∧ (f.hi < g.lo ∨ g.hi < f.lo) := fun g hg =>
        ⟨(rest g hg).1, (rest g hg).2 fun e => again (e ▸ hg)⟩
      exact (bits_mergeFlds_apart apart).trans (bits_setBits_bits _ _ _ _ word.1)

/-- The fields that a soft reset of a page sets to their reset values. -/
def softFlds (k : PageKind) (lock : Bool) (off : Nat) : List Fld :=
  (fieldsAt k off).filter (fun f => f.acc ≠ .ro && f ≠ Reg.IRQC_SRC_CFG_MON && !(lock && f.acc = .rwl))

theorem softWord_eq (k : PageKind) (lock : Bool) (key w : Nat) :
    softWord k lock key w = mergeFlds (regReset key).toNat (softFlds k lock (key % 1024 * 4)) w := rfl

/-- The field of a register after the soft reset of its page, if software writes it, is at its reset value. -/
theorem bits_softRegs_reset {k : PageKind} {p off : Nat} {d : Dev} {f : Fld} (apart : FieldsApart k) (tidy : d.tidy) (hp : p < 0x1000)
    (hoff : off < 0x1000) (aligned : off % 4 = 0) (hf : f ∈ softFlds k (hdrOf d p).lock off) :
    bits (regGet (softRegs k p d) p off) f.hi f.lo = bits (regReset (regKey p off)).toNat f.hi f.lo := by
  have on : keyOnPage p (regKey p off) = true := by
    unfold keyOnPage
    rw [regKey_page p off hoff, Nat.mod_eq_of_lt hp, beq_self_eq_true]
  have here : regKey p off % 1024 * 4 = off := by
    unfold regKey
    omega
  have there : f ∈ fieldsAt k off := (List.mem_filter.mp hf).1
  have word := fieldsAt_inWord apart there
  unfold regGet
  rw [smapGet_softRegs k p tidy, if_pos on]
  split
  · rw [BitVec.toNat_ofNat, bits_mod_word _ _ _ word.2, softWord_eq, here]
    refine bits_mergeFlds_mem (fun g hg => ?_) hf
    have hg := (List.mem_filter.mp hg).1
    exact ⟨fieldsAt_inWord apart hg, fieldsAt_apart apart there hg⟩
  · rfl

/-- Any other field of it is as before. -/
theorem bits_softRegs_kept {k : PageKind} {p off : Nat} {d : Dev} {f : Fld} (apart : FieldsApart k) (tidy : d.tidy)
    (hoff : off < 0x1000) (aligned : off % 4 = 0) (hf : f ∈ fieldsAt k off) (kept : f ∉ softFlds k (hdrOf d p).lock off) :
    bits (regGet (softRegs k p d) p off) f.hi f.lo = bits (regGet d p off) f.hi f.lo := by
  have here : regKey p off % 1024 * 4 = off := by
    unfold regKey
    omega
  have word := fieldsAt_inWord apart hf
  unfold regGet
  rw [smapGet_softRegs k p tidy]
  split
  · cases found : smapFind d.regs (regKey p off) with
    | none => simp [smapGet, found]
    | some w =>
      simp only [smapGet, found, Option.getD_some]
      rw [BitVec.toNat_ofNat, bits_mod_word _ _ _ word.2, softWord_eq, here]
      refine bits_mergeFlds_apart fun g hg => ?_
      have ne : f ≠ g := fun e => kept (e ▸ hg)
      have hg := (List.mem_filter.mp hg).1
      exact ⟨fieldsAt_inWord apart hg, fieldsAt_apart apart hf hg ne⟩
  · rfl

/-- No register of another page changes. -/
theorem regGet_softRegs_other (k : PageKind) {p q off : Nat} {d : Dev} (tidy : d.tidy) (hoff : off < 0x1000) (h : q % 0x1000 ≠ p) :
    regGet (softRegs k p d) q off = regGet d q off := by
  have on : keyOnPage p (regKey q off) ≠ true := by
    unfold keyOnPage
    rw [regKey_page q off hoff, Ne, beq_iff_eq]
    exact h
  unfold regGet
  rw [smapGet_softRegs k p tidy, if_neg on]

end Sys2Proof.Proofs
end

section
/-! A consumer of random bytes that finds what it asks for ready (R236): it receives the next bytes of its quarter's DRBG. -/

open Sys2Proof Sys2Proof.Machine

namespace Sys2Proof.Proofs

theorem wellOf_modWell (d : Dev) (q m : Nat) (f : Well → Well) :
    wellOf (modWell q f d) m = if m = q then f (wellOf d q) else wellOf d m :=
  smapGet_set wellReset d.ent.wells q m _

theorem drbgOf_modDrbg (d : Dev) (q m : Nat) (f : Drbg → Drbg) :
    drbgOf (modDrbg q f d) m = if m = q then f (drbgOf d q) else drbgOf d m :=
  smapGet_set drbgReset d.ent.drbgs q m _

/-- On the way of a read of a quarter's DRBG: it has given up n bytes, the quarter's Well is as given, and nothing else has changed. -/
def Giving (q n : Nat) (w : Well) (a b : Dev) : Prop :=
  b = { a with ent := b.ent } ∧ { b.ent with drbgs := a.ent.drbgs, wells := a.ent.wells } = a.ent
    ∧ (∀ m, drbgOf b m = if m = q then { drbgOf a m with buf := (drbgOf a m).buf.drop n } else drbgOf a m)
    ∧ (∀ m, wellOf b m = if m = q then w else wellOf a m)

section
variable {q n : Nat} {w : Well} {a b : Dev}

theorem giving_refl : Giving q 0 (wellOf a q) a a :=
  ⟨rfl, rfl, fun m => by simp, fun m => by split <;> simp_all⟩

theorem giving_trans {c : Dev} {v : Well} (h : Giving q 0 w a b) (g : Giving q n v b c) : Giving q n v a c := by
  obtain ⟨only, rest, drbgs, wells⟩ := h
  obtain ⟨only', rest', drbgs', wells'⟩ := g
  refine ⟨?_, ?_, fun m => ?_, fun m => ?_⟩
  · rw [only', only]
  · calc
      _ = { { c.ent with drbgs := b.ent.drbgs, wells := b.ent.wells } with drbgs := a.ent.drbgs, wells := a.ent.wells } := rfl
      _ = a.ent := by rw [rest', rest]
  · rw [drbgs', drbgs]
    split <;> rfl
  · rw [wells', wells]
    split <;> rfl

theorem giving_modWell (f : Well → Well) (h : Giving q n w a b) : Giving q n (f w) a (modWell q f b) := by
  obtain ⟨only, rest, drbgs, wells⟩ := h
  refine ⟨?_, rest, drbgs, fun m => ?_⟩
  · rw [only]
    rfl
  · rw [wellOf_modWell, wells, wells, if_pos rfl]
    split <;> rfl

theorem giving_drop (n : Nat) (h : Giving q 0 w a b) (g : Drbg → Drbg)
    (hg : g (drbgOf b q) = { drbgOf b q with buf := (drbgOf b q).buf.drop n }) :
    Giving q n w a (modDrbg q g b) := by
  obtain ⟨only, rest, drbgs, wells⟩ := h
  refine ⟨?_, rest, fun m => ?_, wells⟩
  · rw [only]
    rfl
  · rw [drbgOf_modDrbg, hg, drbgs, drbgs, if_pos rfl]
    split
    · rename_i e
      rw [e]
      rfl
    · rfl
end

/-- What is read of a generator whose buffer suffices is the head of the buffer. -/
theorem fillRead_ready {q n : Nat} {d : Dev} (some' : 0 < n) (ready : n ≤ (drbgOf d q).buf.length) :
    fillRead q n (fillFuel n) [] d = ((drbgOf d q).buf.take n, modDrbg q (fun g => { g with buf := (drbgOf d q).buf.drop n }) d) := by
  obtain ⟨k, fuel⟩ : ∃ k, fillFuel n = k + 2 := ⟨2 * (n / 4096) + 2, by unfold fillFuel; omega⟩
  have nonempty : (drbgOf d q).buf.isEmpty = false := by
    cases h : (drbgOf d q).buf with
    | nil => simp [h] at ready; omega
    | cons => rfl
  have done : n ≤ ((drbgOf d q).buf.take n).length := by simp [ready]
  rw [fuel, fillRead, if_neg (by simp; omega)]
  simp only [nonempty, Bool.not_false, if_true, List.length_nil, Nat.sub_zero, List.nil_append]
  rw [fillRead, if_pos done]

/-- The only read of a quarter, a hardware read that has not waited, is served from bytes that are ready: they await their consumer. -/
theorem serveGo_ready {q : Nat} {x : Stall} {d : Dev} (other : x.who ≠ .other) (plain : x.soft = false ∧ x.fresh = false ∧ x.have' = [])
    (now : x.since = d.now) (some' : 0 < x.n) (stalls : (wellOf d q).stalls = [x]) (grants : (wellOf d q).grants = [])
    (turns : (wellOf d q).turns = 0) (enough : x.n ≤ (drbgOf d q).buf.length) :
    Giving q x.n { wellOf d q with stalls := [], grants := [⟨x.who, x.n, some ((drbgOf d q).buf.take x.n),
      false⟩] } d (serveGo q 1 d) := by
  obtain ⟨soft, fresh, have'⟩ := plain
  have next : nextStall d q = some x := by simp [nextStall, stalls, soft]
  have drawn := giving_drop x.n (giving_refl (q := q) (a := d)) (fun g => { g with buf := (drbgOf d q).buf.drop x.n }) rfl
  generalize hb : modDrbg q (fun g => { g with buf := (drbgOf d q).buf.drop x.n }) d = b at drawn
  have same : wellOf b q = wellOf d q := hb ▸ rfl
  have wait : min ((b.now - x.since + 999) / 1000) 65535 = 0 := by
    have : b.now = d.now := hb ▸ rfl
    rw [this, now]
    simp
  have served := giving_modWell (fun w => { w with grants := w.grants ++ [⟨x.who, x.n, some ((drbgOf d q).buf.take x.n), false⟩] })
    (giving_modWell (fun w =>
      let rest := w.stalls.eraseP (fun y => y.who = x.who && y.n = x.n && y.since = x.since && y.soft = x.soft)
      { w with stalls := rest, turns := if x.soft || rest.all (fun y => !y.soft) then 0 else w.turns + 1 }) drawn)
  simp only [stalls, grants, List.nil_append] at served
  simpa [serveGo, next, fresh, have',
    fillRead_ready some' enough, hb, stallServed, wait, readEnded, other, List.eraseP_cons, turns, enough] using served

/-- A read joins a quarter where no other waits. -/
theorem askRead_ready {q : Nat} {x : Stall} {d : Dev} (lives : readerLives d x.who = true) (reads : NoReads d q) :
    Giving q 0 { wellOf d q with stalls := [x] } d (sweepReads q (askRead q x d)) := by
  obtain ⟨stalls, grants, -⟩ := reads
  have asked := giving_modWell (fun w => { w with stalls := w.stalls ++ [x] }) (giving_refl (q := q) (a := d))
  have ask : askRead q x d = modWell q (fun w => { w with stalls := w.stalls ++ [x] }) d := by simp [askRead, stalls]
  rw [← ask] at asked
  generalize askRead q x d = a at asked
  have lives' : readerLives a x.who = true := by
    rw [← lives, asked.1]
    cases x.who <;> rfl
  have swept := giving_modWell (fun w => { w with
    stalls := w.stalls.filter (fun x => readerLives a x.who), grants := w.grants.filter (fun x => readerLives a x.who) }) asked
  simpa only [stalls, grants, List.nil_append, List.filter_cons, lives', List.filter_nil, if_true, sweepReads] using swept

/-- So a consumer that joins no other has its read served. -/
theorem serveStalls_ready {q : Nat} {x : Stall} {d : Dev} (other : x.who ≠ .other) (lives : readerLives d x.who = true)
    (plain : x.soft = false ∧ x.fresh = false ∧ x.have' = []) (now : x.since = d.now) (some' : 0 < x.n) (reads : NoReads d q)
    (enough : x.n ≤ (drbgOf d q).buf.length) :
    Giving q x.n { wellOf d q with grants := [⟨x.who, x.n, some ((drbgOf d q).buf.take x.n), false⟩] } d
      (serveStalls q (askRead q x d)) := by
  have swept := askRead_ready lives reads
  obtain ⟨stalls, grants, turns⟩ := reads
  unfold serveStalls
  generalize sweepReads q (askRead q x d) = b at swept
  have well := swept.2.2.2 q
  have drbg := swept.2.2.1 q
  have clock : b.now = d.now := by rw [swept.1]
  simp only [if_true, List.drop_zero] at well drbg
  have served := serveGo_ready (q := q) (d := b) other plain (by rw [now, clock]) some' (by rw [well]) (by rw [well]; exact grants)
    (by rw [well]; exact turns) (by rw [drbg]; exact enough)
  have all := giving_trans swept served
  rw [well, drbg] at all
  simpa [well, stalls] using all

/-- A consumer whose read has been served takes the bytes, and the end of its operation leaves no trace of the read. -/
theorem readsOver_ready {q n : Nat} {g : ReadGrant} {d e : Dev} (h : Giving q n { wellOf d q with grants := [g] } d e)
    (reads : NoReads d q) :
    Giving q n (wellOf d q) d (readsOver q g.who e) := by
  obtain ⟨stalls, grants, -⟩ := reads
  have well := h.2.2.2 q
  rw [if_pos rfl] at well
  have kept : readsNone e q g.who = false := by simp [readsNone, well]
  have emptied := giving_modWell (fun w => { w with
    stalls := w.stalls.filter (fun x => x.who ≠ g.who), grants := w.grants.filter (fun y => y.who ≠ g.who) }) h
  have back : ({ wellOf d q with stalls := [], grants := [] } : Well) = wellOf d q := by
    generalize wellOf d q = w at stalls grants
    cases w
    simp_all
  unfold readsOver
  rw [kept]
  simpa [stalls, back] using emptied

/-- A read of n bytes that joins no other and finds them ready has them, and the operation's end leaves no trace of it. -/
theorem drawFor_ready {who : Reader} {q n : Nat} {d : Dev} (other : who ≠ .other) (lives : readerLives d who = true)
    (ready : RandomAt d q n) :
    ∃ e, drawFor who false false q n d = .got ((drbgOf d q).buf.take n) e ∧ Giving q n (wellOf d q) d (readsOver q who e) := by
  obtain ⟨healthy, opened, reads, enough⟩ := ready
  obtain ⟨stalls, grants, turns⟩ := id reads
  unfold drawFor
  by_cases none' : n = 0
  · subst none'
    refine ⟨d, rfl, ?_⟩
    simpa [readsOver, readsNone, stalls, grants] using giving_refl
  · have served := serveStalls_ready (x := ⟨who, n, d.now, false,
    false, []⟩) other lives ⟨rfl, rfl, rfl⟩ rfl (Nat.pos_of_ne_zero none') reads
      enough
    have noGrant : grantDraw q who n d = none := by simp [grantDraw, takeGrant, grants]
    rw [if_neg none', noGrant]
    simp only [healthy, opened, decide_false, Bool.not_true, Bool.or_self, Bool.false_eq_true, if_false]
    generalize serveStalls q _ = b at served
    have well := served.2.2.2 q
    rw [if_pos rfl] at well
    have taken := giving_modWell (fun w => { w with grants := [⟨who, n, some ((drbgOf d q).buf.take n), true⟩] }) served
    refine ⟨modWell q (fun w => { w with grants := [⟨who, n, some ((drbgOf d q).buf.take n), true⟩] }) b, ?_, readsOver_ready taken reads⟩
    simp [grantDraw, takeGrant, well, modWell]

/-- So does a block of the device. -/
theorem draw_ready {q n : Nat} {d : Dev} (ready : RandomAt d q n) :
    ∃ e, draw q n d = .got ((drbgOf d q).buf.take n) e ∧ Giving q n (wellOf d q) d e := by
  obtain ⟨e, got, given⟩ := drawFor_ready (who := .block) (by simp) rfl ready
  refine ⟨_, ?_, given⟩
  unfold draw
  rw [got]

end Sys2Proof.Proofs
end

section
/-! Enables and soft resets of pages (R24, R40, R247, R277, R373). -/

open Sys2Proof Sys2Proof.Machine

namespace Sys2Proof.Proofs

theorem pageKind_lt {p : Nat} {k : PageKind} (h : pageKind p = some k) : p < 0x800 := by
  by_contra high
  unfold pageKind at h
  iterate 33 rw [if_neg (by omega)] at h
  cases h

/-! ## PG_CTRL -/

/-- A write that a page admits is one of a page that is listed, and changes nothing yet. -/
theorem admitWrite_some {a : Access} {p off : Nat} {d : Dev} {k : PageKind} (h : (admitWrite a p off d).1 = some k) :
    admitWrite a p off d = (some k, d) ∧ pageKind p = some k := by
  unfold admitWrite at h ⊢
  split at h
  · rename_i kind
    rw [kind]
    split at h
    · cases h
    · rename_i used
      split at h
      · cases h
      · rename_i world
        split at h
        · cases h
        · rename_i owner
          cases h
          exact ⟨by rw [if_neg used, if_neg world, if_neg owner], rfl⟩
  · cases h
  · cases h

theorem pageWrite_word (f : Nat) (a : Access) (p off v : Nat) (d : Dev) (aligned : off % 4 = 0) :
    pageWrite (f + 1) a p off 4 v d = wordWrite (pageWrite f) a p off (v % 2 ^ 32) d := by
  unfold pageWrite
  rw [if_pos (by simp [aligned])]

/-- A write of PG_CTRL that the page admits. -/
theorem regWrite_ctrl {a : Access} {p v : Nat} {d : Dev} {k : PageKind} (h : (admitWrite (seenAs a) p 0x00C d).1 = some k)
    (notOfc : k ≠ .ofc) (word : v < 2 ^ 32) : regWrite a p 0x00C 4 v d = writeCtrl k (seenAs a) p v d := by
  obtain ⟨admitted, kind⟩ := admitWrite_some h
  have ofc : p ≠ pgOFC := by
    rintro rfl
    exact notOfc (Option.some.inj kind).symm
  have drbg : (0x00C = Reg.DRBG_SW_STAT_ENT_EMPTY.off) = False := by decide
  unfold regWrite
  rw [pageWrite_word 39 a p 0x00C v d rfl, Nat.mod_eq_of_lt word]
  unfold wordWrite
  rw [if_neg (by simp [drbg]), admitted]
  simp [pageSync, ofc]

/-- The header that a write of PG_CTRL leaves before ENABLE and SOFT_RESET take effect. -/
def ctrlHdr (k : PageKind) (v : Nat) (h : Hdr) : Hdr :=
  { h with lock := h.lock || bit v 31, drain := if (pageCap k).drain then bit v 2 else false }

theorem writeCtrl_eq {k : PageKind} {a : Access} {p v : Nat} {d : Dev} (soft : (hdrOf d p).softRst = false)
    (free : ((enableFixed k && (hdrOf d p).enable && !(bit v 0)) || (resetFixed k && bit v 1)) = false) :
    writeCtrl k a p v d =
      let e := modHdr d p (ctrlHdr k v)
      let e := if bit v 0 = (hdrOf d p).enable then e else putEnable k a p (bit v 0) e
      if bit v 1 then softGo k p e else e := by
  unfold writeCtrl
  simp only [soft, free, Bool.false_eq_true, if_false]
  rfl

/-! ## A change of one header -/

/-- Only the header of a page changes. -/
def HdrAt (p : Nat) (h : Hdr) (a b : Dev) : Prop := b = { a with hdr := b.hdr } ∧ hdrOf b p = h ∧ hdrsBut [p] a b

theorem hdrAt_modHdr (d : Dev) (p : Nat) (f : Hdr → Hdr) : HdrAt p (f (hdrOf d p)) d (modHdr d p f) := by
  refine ⟨rfl, ?_, fun q hq => ?_⟩
  · rw [hdrOf_modHdr, if_pos rfl]
  · rw [hdrOf_modHdr, if_neg (by simpa using hq)]

theorem hdrAt_trans {p : Nat} {g h : Hdr} {a b c : Dev} (hab : HdrAt p g a b) (hbc : HdrAt p h b c) : HdrAt p h a c := by
  obtain ⟨only, -, rest⟩ := hab
  obtain ⟨only', at', rest'⟩ := hbc
  exact ⟨by rw [only', only], at', fun q hq => (rest' q hq).trans (rest q hq)⟩

theorem same_hdr (d : Dev) (h : SMap Hdr) {p : Part} (hp : p ∉ [Part.hdr]) : p.same d { d with hdr := h } := by
  cases p <;> simp_all [Part.same]

theorem same_soft (d : Dev) (h : SMap Hdr) (r : SMap Word) (x : SMap Shadow) (y : SMap Hart) {p : Part}
    (hp : p ∉ [Part.hdr, .regs, .shadow, .harts]) : p.same d { d with hdr := h, regs := r, shadow := x, harts := y } := by
  cases p <;> simp_all [Part.same]

theorem harts_regs {a b : Dev} (h : OnlyHarts a b) : b.regs = a.regs := by
  rw [h]

theorem harts_hdr {a b : Dev} (h : OnlyHarts a b) : b.hdr = a.hdr := by
  rw [h]

/-- What is as it was but for the harts is as it was once they are put back. -/
theorem harts_back {a b : Dev} {y : SMap Hart} (h : OnlyHarts a b) (e : a.harts = y) : { b with harts := y } = a := by
  rw [h, ← e]

/-- A command that changes one header completes so. -/
theorem completes_hdrAt {c : Instr} {s : State} {d e : Dev} {a : Access} {f : Access → Dev → Dev} {p : Nat} {h : Hdr} (b : Begins s d)
    (w : AwakeFor d a) (run : exec c s = runAcc a s f) (he : f a d = e) (only : HdrAt p h d e) :
    Completes c s [.hdr] fun t => hdrOf t p = h ∧ hdrsBut [p] d t := by
  obtain ⟨eq, hdr⟩ := only
  refine completes_runAcc b w run he ?_ ?_ hdr
  · rw [eq]
    exact b.2
  · intro part hp
    rw [eq]
    exact same_hdr d _ hp

/-! ## Enables -/

/-- ENABLE is set on a page whose block needs no more than that. -/
theorem writeCtrl_enable {k : PageKind} {a : Access} {p : Nat} {d : Dev} (hk : k = .cmd ∨ k = .ht0)
    (soft : (hdrOf d p).softRst = false) : HdrAt p { hdrOf d p with enable := true, drain := false } d (writeCtrl k a p 1 d) := by
  have e0 : bit 1 0 = true := by decide
  have e1 : bit 1 1 = false := by decide
  have e31 : bit 1 31 = false := by decide
  have drain : (pageCap k).drain = false := by
    obtain rfl | rfl := hk <;> rfl
  have put : ∀ d, putEnable k a p true d = modHdr d p (fun h => { h with enable := true }) := by
    obtain rfl | rfl := hk <;> exact fun _ => rfl
  rw [writeCtrl_eq soft (by simp [e0, e1])]
  simp only [e0, e1, put, Bool.false_eq_true, if_false]
  have ctrl := hdrAt_modHdr d p (ctrlHdr k 1)
  split
  · rename_i on
    simpa [ctrlHdr, e31, drain, ← on] using ctrl
  · have enabled := hdrAt_trans ctrl (hdrAt_modHdr _ p fun h => { h with enable := true })
    rw [ctrl.2.1] at enabled
    simpa [ctrlHdr, e31, drain] using enabled

/-- CMD_ENABLE and HT_ENABLE. -/
theorem enable_completes {s : State} {d : Dev} {a : Access} (b : Begins s d) (w : AwakeFor d a) {c : Instr} {p : Nat} {k : PageKind}
    (hk : k = .cmd ∨ k = .ht0) (run : exec c s = runAcc a s fun a => regWrite a p 0x00C 4 1)
    (admits : (admitWrite (seenAs a) p 0x00C d).1 = some k) (soft : (hdrOf d p).softRst = false) :
    Completes c s [.hdr] fun t => hdrOf t p = { hdrOf d p with enable := true, drain := false } ∧ hdrsBut [p] d t := by
  have notOfc : k ≠ .ofc := by
    obtain rfl | rfl := hk <;> decide
  exact completes_hdrAt b w run (regWrite_ctrl admits notOfc (by decide)) (writeCtrl_enable hk soft)

/-! ## SOFT_RESET -/

/-- What SOFT_RESET writes: SOFT_RESET, and ENABLE and DRAIN as they stand. -/
def softVal (h : Hdr) : Nat := 2 + b2n h.enable + 4 * b2n h.drain

theorem softVal_bits (h : Hdr) : bit (softVal h) 0 = h.enable ∧ bit (softVal h) 1 = true ∧ bit (softVal h) 31 = false
    ∧ softVal h < 2 ^ 32 := by
  unfold softVal
  cases h.enable <;> cases h.drain <;> decide

/-- SOFT_RESET of a page that it is not refused for. -/
theorem regWrite_softReset {a : Access} {p : Nat} {d : Dev} {k : PageKind} (h : (admitWrite (seenAs a) p 0x00C d).1 = some k)
    (notOfc : k ≠ .ofc) (notFixed : resetFixed k = false) (soft : (hdrOf d p).softRst = false) :
    regWrite a p 0x00C 4 (softVal (hdrOf d p)) d = softGo k p (modHdr d p (ctrlHdr k (softVal (hdrOf d p)))) := by
  obtain ⟨b0, b1, -, word⟩ := softVal_bits (hdrOf d p)
  rw [regWrite_ctrl h notOfc word, writeCtrl_eq soft (by simp [b0, notFixed])]
  simp [b0, b1]

/-- A soft reset of a page of the tamper monitor touches the interrupt registers and the error record only (R407). -/
theorem softGo_tamper {k : PageKind} (hk : k ∈ [PageKind.tamp0, .tamp1, .tamp2, .tamp3, .vig]) (p : Nat) (d : Dev) :
    HdrAt p { softHdr false (hdrOf d p) with enable := (hdrOf d p).enable, drain := false } d
      (softGo k p (modHdr d p (ctrlHdr k (softVal (hdrOf d p))))) := by
  have b31 := (softVal_bits (hdrOf d p)).2.2.1
  have go : ∀ e, softGo k p e = modHdr e p (fun h => { softHdr false h with enable := h.enable, drain := h.drain }) := by
    simp only [List.mem_cons, List.not_mem_nil, or_false] at hk
    obtain rfl | rfl | rfl | rfl | rfl := hk <;> exact fun _ => rfl
  have drain : (pageCap k).drain = false := by
    simp only [List.mem_cons, List.not_mem_nil, or_false] at hk
    obtain rfl | rfl | rfl | rfl | rfl := hk <;> rfl
  have ctrl := hdrAt_modHdr d p (ctrlHdr k (softVal (hdrOf d p)))
  have reset := hdrAt_trans ctrl (hdrAt_modHdr _ p fun h => { softHdr false h with enable := h.enable, drain := h.drain })
  rw [ctrl.2.1] at reset
  rw [go]
  simpa [ctrlHdr, softHdr, drain, b31] using reset

/-- The pages whose soft reset only PageControlCommands describes: no work of theirs to discard, no power of their own. -/
def plainSoft : List PageKind := [.sys, .clk, .hold, .wear, .host, .usb4]

/-- The block as the soft reset of such a page leaves it, before the harts see it. -/
def softPage (k : PageKind) (p : Nat) (d : Dev) : Dev :=
  modHdr (softRegs k p (dropShadows p (modHdr d p (ctrlHdr k (softVal (hdrOf d p)))))) p (softHdr true)

section
variable {k : PageKind} (hk : k ∈ plainSoft) (p : Nat) (d : Dev)

theorem softPage_eq : softPage k p d
    = { d with hdr := (softPage k p d).hdr, regs := (softPage k p d).regs, shadow := (softPage k p d).shadow } := by
  unfold softPage
  rw [softRegs_eq]
  rfl

theorem softReset_only : ∃ h r x y, monRefresh (softPage k p d) = { d with hdr := h, regs := r, shadow := x, harts := y } := by
  refine ⟨(softPage k p d).hdr, (softPage k p d).regs, (softPage k p d).shadow, (monRefresh (softPage k p d)).harts, ?_⟩
  refine Eq.trans (monRefresh_only (softPage k p d)) ?_
  generalize (monRefresh (softPage k p d)).harts = y
  exact congrArg (fun e : Dev => { e with harts := y }) (softPage_eq p d)

include hk in
theorem softGo_plain (still : d.sys.draining = none) :
    softGo k p (modHdr d p (ctrlHdr k (softVal (hdrOf d p)))) = monRefresh (softPage k p d) := by
  have go : ∀ e, softGo k p e = monRefresh (drainStep (modHdr (softRegs k p (dropShadows p e)) p (softHdr true))) := by
    simp only [plainSoft, List.mem_cons, List.not_mem_nil, or_false] at hk
    obtain rfl | rfl | rfl | rfl | rfl | rfl := hk <;> exact fun _ => rfl
  have drain : drainStep (softPage k p d) = softPage k p d := by
    unfold drainStep
    rw [softPage_eq]
    simp only [still]
  rw [go]
  exact congrArg monRefresh drain

theorem hdrOf_softPage (q : Nat) : hdrOf (softPage k p d) q = if q = p then softHdr true (hdrOf d p) else hdrOf d q := by
  have regs : ∀ e q, hdrOf (softRegs k p e) q = hdrOf e q := fun e q => by rw [softRegs_eq]; rfl
  have shadows : ∀ e q, hdrOf (dropShadows p e) q = hdrOf e q := fun _ _ => rfl
  have b31 := (softVal_bits (hdrOf d p)).2.2.1
  unfold softPage
  rw [hdrOf_modHdr, regs, regs, shadows, shadows, hdrOf_modHdr, hdrOf_modHdr, if_pos rfl]
  by_cases e : q = p
  · simp [e, softHdr, ctrlHdr, b31]
  · simp [e]

/-- Its registers are those that the soft reset leaves. -/
theorem regGet_softPage (tidy : d.tidy) : ∃ e : Dev, e.tidy ∧ (hdrOf e p).lock = (hdrOf d p).lock
    ∧ (∀ q off, regGet e q off = regGet d q off) ∧ ∀ q off, regGet (softPage k p d) q off = regGet (softRegs k p e) q off := by
  have b31 := (softVal_bits (hdrOf d p)).2.2.1
  refine ⟨dropShadows p (modHdr d p (ctrlHdr k (softVal (hdrOf d p)))), dropShadows_tidy (modHdr_tidy tidy), ?_, fun _ _ => rfl,
    fun _ _ => rfl⟩
  have shadows : ∀ e q, hdrOf (dropShadows p e) q = hdrOf e q := fun _ _ => rfl
  rw [shadows, hdrOf_modHdr, if_pos rfl]
  simp [ctrlHdr, b31]

theorem pagesBut_softPage (tidy : d.tidy) : pagesBut [p] d (softPage k p d) := by
  obtain ⟨e, etidy, -, same, soft⟩ := regGet_softPage (k := k) p d tidy
  intro q off hq hoff
  rw [soft, regGet_softRegs_other k etidy hoff (by simpa using hq), same]

section
variable {off : Nat} {f : Fld} (tidy : d.tidy) (hoff : off < 0x1000) (aligned : off % 4 = 0) (hf : f ∈ fieldsAt k off)
include hk tidy hoff aligned hf

/-- A field that software writes is at its reset value, unless it is locked. -/
theorem bits_softPage_reset (kind : pageKind p = some k) (ro : f.acc ≠ .ro) (open' : f.acc = .rwl → (hdrOf d p).lock = false) :
    bits (regGet (softPage k p d) p off) f.hi f.lo = bits (regReset (regKey p off)).toNat f.hi f.lo := by
  obtain ⟨e, etidy, lock, -, soft⟩ := regGet_softPage (k := k) p d tidy
  have notMon : f ≠ Reg.IRQC_SRC_CFG_MON := by
    have none' : ∀ k ∈ plainSoft, Reg.IRQC_SRC_CFG_MON ∉ pageLayout k := by decide
    rintro rfl
    exact none' k hk (List.mem_filter.mp hf).1
  have here : f ∈ softFlds k (hdrOf e p).lock off := by
    refine List.mem_filter.mpr ⟨hf, ?_⟩
    rw [lock]
    by_cases locked : f.acc = .rwl
    · simp [notMon, locked, open' locked]
    · simp [notMon, ro, locked]
  have page : p < 0x1000 := Nat.lt_trans (pageKind_lt kind) (by decide)
  rw [soft, bits_softRegs_reset (fieldsApart_soft k hk) etidy page hoff aligned here]

/-- Any other field is as it was. -/
theorem bits_softPage_kept (kept : f.acc = .ro ∨ (f.acc = .rwl ∧ (hdrOf d p).lock = true)) :
    bits (regGet (softPage k p d) p off) f.hi f.lo = bits (regGet d p off) f.hi f.lo := by
  obtain ⟨e, etidy, lock, same, soft⟩ := regGet_softPage (k := k) p d tidy
  have out : f ∉ softFlds k (hdrOf e p).lock off := by
    intro h
    have h := (List.mem_filter.mp h).2
    rw [lock] at h
    obtain ro | ⟨locked, closed⟩ := kept <;> simp_all
  rw [soft, bits_softRegs_kept (fieldsApart_soft k hk) etidy hoff aligned hf out, same]
end
end

/-- SOFT_RESET of such a page. -/
theorem softReset_completes {s : State} {d : Dev} {a : Access} (b : Begins s d) (w : AwakeFor d a) {p : Nat} {k : PageKind}
    (hk : k ∈ plainSoft) (admits : (admitWrite (seenAs a) p 0x00C d).1 = some k) (soft : (hdrOf d p).softRst = false) (tidy : d.tidy)
    (still : d.sys.draining = none) : Completes (.softReset a p) s [.hdr, .regs, .shadow, .harts] fun t =>
      hdrOf t p = softHdr true (hdrOf d p) ∧ hdrsBut [p] d t ∧ pagesBut [p] d t ∧ harkened d t
      ∧ (∀ off f, off < 0x1000 → off % 4 = 0 → f ∈ fieldsAt k off → f.acc ≠ .ro → (f.acc = .rwl → (hdrOf d p).lock = false) →
          bits (regGet t p off) f.hi f.lo = bits (regReset (regKey p off)).toNat f.hi f.lo)
      ∧ (∀ off f, off < 0x1000 → off % 4 = 0 → f ∈ fieldsAt k off → (f.acc = .ro ∨ (f.acc = .rwl ∧ (hdrOf d p).lock = true)) →
          bits (regGet t p off) f.hi f.lo = bits (regGet d p off) f.hi f.lo) := by
  have notOfc : k ≠ .ofc := by
    rintro rfl
    exact absurd hk (by decide)
  have notFixed : resetFixed k = false := by
    have all : ∀ k ∈ plainSoft, resetFixed k = false := by decide
    exact all k hk
  have seen := monRefresh_only (softPage k p d)
  obtain ⟨h, r, x, y, only⟩ := softReset_only (k := k) p d
  have regs : ∀ q off, regGet (monRefresh (softPage k p d)) q off = regGet (softPage k p d) q off := fun q off => by
    unfold regGet
    rw [harts_regs seen]
  have hdrs : ∀ q, hdrOf (monRefresh (softPage k p d)) q = hdrOf (softPage k p d) q := fun q => by
    unfold hdrOf
    rw [harts_hdr seen]
  refine completes_runAcc b w (Eq.refl (execSoftReset a p s)) (e := monRefresh (softPage k p d)) ?_ ?_ ?_ ⟨?_, ?_, ?_, ?_, ?_, ?_⟩
  · rw [← softGo_plain hk p d still]
    exact regWrite_softReset admits notOfc notFixed soft
  · rw [only]
    exact b.2
  · intro part hp
    rw [only]
    exact same_soft d h r x y hp
  · rw [hdrs, hdrOf_softPage, if_pos rfl]
  · intro q hq
    rw [hdrs, hdrOf_softPage, if_neg (by simpa using hq)]
  · intro q off hq hoff
    rw [regs]
    exact pagesBut_softPage p d tidy q off hq hoff
  · have harts : (softPage k p d).harts = d.harts := by rw [softPage_eq]
    unfold harkened
    rw [harts_back seen harts]
  · intro off f hoff aligned hf ro open'
    rw [regs]
    exact bits_softPage_reset hk p d tidy hoff aligned hf (admitWrite_some admits).2 ro open'
  · intro off f hoff aligned hf kept
    rw [regs]
    exact bits_softPage_kept hk p d tidy hoff aligned hf kept

/-! ## SOFT_RESET_COMPLETE -/

/-- A job boundary of a page changes no register of another. -/
theorem regGet_jobBoundary_other {p q off : Nat} (d : Dev) (hoff : off < 0x1000) (h : q % 0x1000 ≠ p) :
    regGet (jobBoundary p d) q off = regGet d q off := by
  have out : keyOnPage p (regKey q off) ≠ true := by
    unfold keyOnPage
    rw [regKey_page q off hoff, Ne, beq_iff_eq]
    exact h
  have on : ∀ kv ∈ d.shadow.filter (fun kv => keyOnPage p kv.1), keyOnPage p kv.1 = true := fun kv hkv => (List.mem_filter.mp hkv).2
  unfold jobBoundary regGet
  generalize d.shadow.filter (fun kv => keyOnPage p kv.1) = due at on
  dsimp only
  congr 1
  induction due generalizing d with
  | nil => rfl
  | cons kv t ih =>
    rw [List.forall_mem_cons] at on
    refine (ih _ on.2).trans (smapGet_set_other regReset _ _ _ _ fun e => out ?_)
    rw [e]
    exact on.1

theorem hdrOf_jobBoundary (p q : Nat) (d : Dev) : hdrOf (jobBoundary p d) q = hdrOf d q := by
  unfold hdrOf
  rw [jobBoundary_only]

/-- What is left to do where a page's block may have nothing to do. -/
theorem settle_eq (p : Nat) (d : Dev) : settle p d = d ∨ settle p d = jobBoundary p d := ite_eq_or_eq _ _ _

/-- Cards that are not there and not powered stay so. -/
theorem cardsSync_idle {was d : Dev} (idle : ∀ c, c < 2 → (cardOf d c).present = false ∧ (cardOf d c).run = .inactive) :
    cardsSync was d = d := by
  have step : ∀ c, c < 2 → (if !(cardServes d c) then (if (cardOf d c).run = .inactive then d else opLost c (cardOff c d))
      else if !(cardServes was c) && (cardOf d c).present && (cardOf d c).run = .inactive then cardOn c true d else d) = d := by
    intro c hc
    obtain ⟨absent, off⟩ := idle c hc
    simp [absent, off]
  unfold cardsSync
  simp only [List.foldl_cons, List.foldl_nil]
  rw [step 0 (by decide), step 1 (by decide)]

/-- At the end of a soft reset BUSY is cleared, and the shadows of the page's registers may take effect. -/
theorem softDone_eq {p : Nat} {d : Dev} (busy : (hdrOf d p).softRst = true)
    (idle : p = pgOFC → ∀ c, c < 2 → (cardOf d c).present = false ∧ (cardOf d c).run = .inactive) :
    softDone p d = settle p (modHdr d p (fun h => { h with softRst := false })) := by
  unfold softDone pageSync
  rw [if_pos busy]
  refine ite_eq_right_iff.mpr fun ofc => cardsSync_idle fun c hc => ?_
  have cards : cardOf (settle p (modHdr d p (fun h => { h with softRst := false }))) c = cardOf d c := by
    unfold cardOf
    obtain e | e := settle_eq p (modHdr d p (fun h => { h with softRst := false }))
    · rw [e]
      rfl
    · rw [e, jobBoundary_only]
      rfl
  rw [cards]
  exact idle ofc c hc

theorem same_regs (d : Dev) (h : SMap Hdr) (r : SMap Word) (x : SMap Shadow) {p : Part} (hp : p ∉ [Part.hdr, .regs, .shadow]) :
    p.same d { d with hdr := h, regs := r, shadow := x } := by
  cases p <;> simp_all [Part.same]

/-- SOFT_RESET_COMPLETE. -/
theorem softResetComplete_completes {s : State} {d : Dev} (b : Begins s d) {p : Nat} (busy : (hdrOf d p).softRst = true)
    (idle : p = pgOFC → ∀ c, c < 2 → (cardOf d c).present = false ∧ (cardOf d c).run = .inactive) :
    Completes (.softResetComplete p) s [.hdr, .regs, .shadow] fun t =>
      hdrOf t p = { hdrOf d p with softRst := false } ∧ hdrsBut [p] d t ∧ pagesBut [p] d t := by
  have ready := hdrAt_modHdr d p (fun h => { h with softRst := false })
  have done := softDone_eq busy idle
  generalize modHdr d p (fun h => { h with softRst := false }) = e at ready done
  obtain ⟨only, this, others⟩ := ready
  have regs : ∀ q off, regGet e q off = regGet d q off := fun q off => by
    rw [only]
    rfl
  obtain settled | settled := settle_eq p e
  · rw [settled] at done
    refine completes_runDev b (Eq.refl (execSoftResetComplete p s)) done ?_ ?_ ⟨this, others, fun q off _ _ => regs q off⟩
    · rw [only]
      exact b.2
    · intro part hp
      rw [only]
      exact same_regs d e.hdr d.regs d.shadow hp
  · rw [settled] at done
    have bound := jobBoundary_only e p
    refine completes_runDev b (Eq.refl (execSoftResetComplete p s)) done ?_ ?_ ⟨?_, fun q hq => ?_, fun q off hq hoff => ?_⟩
    · rw [bound, only]
      exact b.2
    · intro part hp
      rw [bound, only]
      exact same_regs d _ _ _ hp
    · rw [hdrOf_jobBoundary, this]
    · rw [hdrOf_jobBoundary, others q hq]
    · rw [regGet_jobBoundary_other e hoff (by simpa using hq), regs]

/-! ## MPE_ENABLE -/

theorem same_mpe (d : Dev) (h : SMap Hdr) (m : MpeSt) (x : EntSt) {p : Part} (hp : p ∉ [Part.hdr, .mpe, .ent]) :
    p.same d { d with hdr := h, mpe := m, ent := x } := by
  cases p <;> simp_all [Part.same]

/-- The engine that starts draws its keys from the DRBG of the first quarter that is ON (R247). -/
theorem mpeStart_ready {d : Dev} {q : Nat} (first : (List.range 4).find? (fun q => (quarterOf d q).pwr = .on) = some q)
    (ready : RandomAt d q 64) : ∃ e, Giving q 64 (wellOf d q) d e
      ∧ mpeStart d = (true, modMpe (fun _ => { mpeReset with
          kMem := some (((drbgOf d q).buf.take 64).take 32), kMac := some (((drbgOf d q).buf.take 64).drop 32), cur := 1 })
        (modHdr e pgMPE (fun h => { h with enable := true }))) := by
  obtain ⟨e, got, given⟩ := draw_ready ready
  refine ⟨e, given, ?_⟩
  unfold mpeStart
  rw [first]
  simp only [got]

theorem putEnable_mpe {d : Dev} (a : Access) (p : Nat) (x : Bool) (runs : d.mpe.halting = false) (starts : (mpeStart d).1 = true) :
    putEnable .mpe0 a p x d = (mpeStart d).2 := by
  simp [putEnable, runs, starts]

/-- MPE_ENABLE. -/
theorem mpeEnable_completes {s : State} {d : Dev} {a : Access} {q : Nat} (b : Begins s d) (w : AwakeFor d a)
    (admits : (admitWrite (seenAs a) pgMPE 0x00C d).1 = some .mpe0) (soft : (hdrOf d pgMPE).softRst = false)
    (off : (hdrOf d pgMPE).enable = false) (runs : d.mpe.halting = false)
    (first : (List.range 4).find? (fun q => (quarterOf d q).pwr = .on) = some q) (ready : RandomAt d q 64) :
    Completes (.mpeEnable a) s [.hdr, .mpe, .ent] fun t =>
      t.mpe = { mpeReset with
        kMem := some (((drbgOf d q).buf.take 64).take 32), kMac := some (((drbgOf d q).buf.take 64).drop 32), cur := 1 }
      ∧ hdrOf t pgMPE = { hdrOf d pgMPE with enable := true, drain := false } ∧ hdrsBut [pgMPE] d t
      ∧ drbgOf t q = { drbgOf d q with buf := (drbgOf d q).buf.drop 64 } ∧ (∀ m, m ≠ q → drbgOf t m = drbgOf d m) := by
  have e0 : bit 1 0 = true := by decide
  have e1 : bit 1 1 = false := by decide
  have e31 : bit 1 31 = false := by decide
  have write : regWrite a pgMPE 0x00C 4 1 d = putEnable .mpe0 (seenAs a) pgMPE true (modHdr d pgMPE (ctrlHdr .mpe0 1)) := by
    rw [regWrite_ctrl admits (by decide) (by decide), writeCtrl_eq soft (by simp [e0, e1])]
    simp [e0, e1, off]
  obtain ⟨only, this, others⟩ := hdrAt_modHdr d pgMPE (ctrlHdr .mpe0 1)
  obtain ⟨e, given, start⟩ := mpeStart_ready (d := modHdr d pgMPE (ctrlHdr .mpe0 1)) first ready
  rw [putEnable_mpe (d := modHdr d pgMPE (ctrlHdr .mpe0 1)) (seenAs a) pgMPE true runs (by rw [start]), start] at write
  have drbgs : ∀ m, drbgOf (modHdr d pgMPE (ctrlHdr .mpe0 1)) m = drbgOf d m := fun _ => rfl
  rw [drbgs] at write
  generalize modHdr d pgMPE (ctrlHdr .mpe0 1) = x at only this others given drbgs
  obtain ⟨eq, -, gave, -⟩ := given
  have hdrs : ∀ p, hdrOf e p = hdrOf x p := fun p => by
    rw [eq]
    rfl
  have mods : ∀ (f : MpeSt → MpeSt) y p, hdrOf (modMpe f y) p = hdrOf y p := fun _ _ _ => rfl
  refine completes_runAcc b w (Eq.refl (execMpeEnable a s)) write rfl ?_ ⟨rfl, ?_, fun p hp => ?_, ?_, fun m hm => ?_⟩
  · intro part hp
    rw [eq, only]
    exact same_mpe d _ _ _ hp
  · rw [mods, hdrOf_modHdr, if_pos rfl, hdrs, this]
    simp [ctrlHdr, pageCap, e31]
  · rw [mods, hdrOf_modHdr, if_neg (by simpa using hp), hdrs, others p hp]
  · rw [← drbgs]
    exact (gave q).trans (if_pos rfl)
  · exact ((gave m).trans (if_neg hm)).trans (drbgs m)

/-! ## INST_ENABLE -/

/-- The parts that changes of instances' states touch, registers apart: they are told to the manager and to the host. -/
def OnlyTold (a b : Dev) : Prop := b = { a with mgr := b.mgr, hdr := b.hdr, host := b.host, out := b.out }

theorem told_event {a b : Dev} (h : OnlyEvent a b) : OnlyTold a b := by
  unfold OnlyTold
  rw [h]

theorem told_trans {a b c : Dev} (h : OnlyTold a b) (g : OnlyTold b c) : OnlyTold a c := by
  unfold OnlyTold
  rw [g, h]

theorem instOf_told {a b : Dev} (h : OnlyEvent a b) (j : Nat) : instOf b j = instOf a j := by
  unfold instOf
  rw [h]

theorem instOf_modInst (d : Dev) (i j : Nat) (f : Inst → Inst) :
    instOf (modInst i f d) j = if j = i then f (instOf d i) else instOf d j :=
  smapGet_set instReset d.mgr.insts i j _

/-- An event leaves every ENABLE as it is. -/
theorem enable_raiseEv (p n q : Nat) (d : Dev) : (hdrOf (raiseEv p n d) q).enable = (hdrOf d q).enable := by
  cases h : pageKind p with
  | none =>
    unfold raiseEv
    rw [h]
  | some k =>
    rw [hdrOf_raiseEv d p n q k h]
    split
    · rename_i c
      rw [c.1]
    · rfl

/-- A change of state goes to the manager's queue of events, or is lost there. -/
theorem mgrEvent_cases (kind i : Nat) (d : Dev) : ∃ f : MgrSt → MgrSt, (∀ m, (f m).insts = m.insts)
    ∧ (mgrEvent kind i d = modMgr f d ∨ mgrEvent kind i d = raiseEv pgMGR 0 (modMgr f d)) := by
  unfold mgrEvent
  split
  · exact ⟨fun m => { m with lost := true }, fun _ => rfl, .inl rfl⟩
  · exact ⟨fun m => { m with events := m.events ++ [⟨kind, i, instCode (instOf d i).run⟩] }, fun _ => rfl, .inr rfl⟩

theorem mgrEvent_told (kind i : Nat) (d : Dev) : OnlyTold d (mgrEvent kind i d) ∧ (∀ j, instOf (mgrEvent kind i d) j = instOf d j)
    ∧ ∀ q, (hdrOf (mgrEvent kind i d) q).enable = (hdrOf d q).enable := by
  obtain ⟨f, insts, e | e⟩ := mgrEvent_cases kind i d
  all_goals rw [e]
  · exact ⟨rfl, fun j => by unfold instOf modMgr; rw [insts], fun _ => rfl⟩
  · have told := raiseEv_only (modMgr f d) pgMGR 0
    refine ⟨told_trans (b := modMgr f d) rfl (told_event told), fun j => ?_, fun q => ?_⟩
    · rw [instOf_told told]
      unfold instOf modMgr
      rw [insts]
    · rw [enable_raiseEv]
      rfl

/-- One of the instances that is not ACTIVE becomes so, and no other changes. -/
theorem instTo_active {i : Nat} {d : Dev} (h : (instOf d i).run ≠ .active) : OnlyTold d (instTo i .active d)
    ∧ (∀ j, instOf (instTo i .active d) j = if j = i then { instOf d i with run := .active } else instOf d j)
    ∧ ∀ q, (hdrOf (instTo i .active d) q).enable = (hdrOf d q).enable := by
  obtain ⟨told, insts, enables⟩ := mgrEvent_told 1 i (modInst i (fun x => { x with run := .active }) d)
  have raised := raiseEv_only (mgrEvent 1 i (modInst i (fun x => { x with run := .active }) d)) (instPage i) 0
  have eq : instTo i .active d = raiseEv (instPage i) 0 (mgrEvent 1 i (modInst i (fun x => { x with run := .active }) d)) := by
    simp [instTo, h]
  rw [eq]
  refine ⟨told_trans (told_trans (b := modInst i (fun x => { x with run := .active }) d) rfl told) (told_event raised),
    fun j => ?_, fun q => ?_⟩
  · rw [instOf_told raised, insts, instOf_modInst]
  · rw [enable_raiseEv, enables]
    rfl

/-- The version that both sides know has small numbers. -/
theorem pypCommon_lt (cap offer : Nat) : (pypCommon cap offer).1 < 256 ∧ (pypCommon cap offer).2 < 256 := by
  unfold pypCommon
  split
  · rename_i b h
    have := List.mem_of_find?_eq_some h
    simp only [List.mem_cons, List.not_mem_nil, or_false] at this
    obtain rfl | rfl | rfl | rfl | rfl | rfl := this <;> decide
  · decide

/-- The version is fixed at the highest that both sides know (R103). -/
theorem negotiate_free {i : Nat} {d : Dev} {v : Nat × Nat} (hi : i < 1024) (free : (instOf d i).verFixed = false)
    (hv : v = pypCommon (pypCap d) (regGet d (instPage i) Reg.INST_PYP_OFFER_V2.off)) :
    verOf (negotiate i d) i = v ∧ negotiate i d = { d with regs := (negotiate i d).regs } ∧ pagesBut [instPage i] d (negotiate i d) := by
  have major : InWord Reg.INST_PYP_VER_MAJOR := ⟨by decide, by decide⟩
  have minor : InWord Reg.INST_PYP_VER_MINOR := ⟨by decide, by decide⟩
  obtain ⟨small1, small2⟩ := pypCommon_lt (pypCap d) (regGet d (instPage i) Reg.INST_PYP_OFFER_V2.off)
  rw [← hv] at small1 small2
  have eq : negotiate i d
      = setFld (setFld d (instPage i) Reg.INST_PYP_VER_MAJOR v.1) (instPage i) Reg.INST_PYP_VER_MINOR v.2 := by
    rw [hv]
    simp [negotiate, free]
  rw [eq]
  refine ⟨?_, rfl, fun q off hq hoff => ?_⟩
  · unfold verOf
    rw [fld_setFld_same _ _ _ _ minor, fld_setFld_beside _ _ _ major minor rfl (by decide), fld_setFld_same _ _ _ _ major]
    exact Prod.ext (Nat.mod_eq_of_lt small1) (Nat.mod_eq_of_lt small2)
  · have ne : q ≠ instPage i := by
      rintro rfl
      refine hq (List.mem_singleton.mpr (Nat.mod_eq_of_lt ?_))
      unfold instPage
      omega
    rw [regGet_setFld_other _ _ (regKey_ne_page hoff (by decide) ne), regGet_setFld_other _ _ (regKey_ne_page hoff (by decide) ne)]

/-- What starts of instances touch: their state, their version and what tells of it. -/
def OnlyStart (a b : Dev) : Prop := b = { a with mgr := b.mgr, regs := b.regs, hdr := b.hdr, host := b.host, out := b.out }

theorem same_start {a b : Dev} (h : OnlyStart a b) {p : Part} (hp : p ∉ [Part.mgr, .regs, .hdr, .host]) : p.same a b := by
  rw [h]
  cases p <;> simp_all [Part.same]

/-- Of the instances, one that is ASSIGNED and has a version becomes ACTIVE, its version fixed (R103, R277). -/
theorem instStart_assigned {i : Nat} {d : Dev} {v : Nat × Nat} (hi : i < 1024) (assigned : (instOf d i).run = .assigned)
    (free : (instOf d i).verFixed = false) (hv : v = pypCommon (pypCap d) (regGet d (instPage i) Reg.INST_PYP_OFFER_V2.off))
      (known : v.1 ≠ 0) :
    OnlyStart d (instStart i d)
    ∧ (∀ j, instOf (instStart i d) j = if j = i then { instOf d i with run := .active, verFixed := true } else instOf d j)
    ∧ verOf (instStart i d) i = v ∧ (∀ q, (hdrOf (instStart i d) q).enable = (hdrOf d q).enable)
    ∧ pagesBut [instPage i] d (instStart i d) := by
  obtain ⟨ver, only, pages⟩ := negotiate_free hi free hv
  generalize fixed : modInst i (fun x => { x with verFixed := true }) (negotiate i d) = e
  have onlyFixed : e = { d with mgr := e.mgr, regs := e.regs } := by
    rw [← fixed, only]
    rfl
  have insts : ∀ j, instOf e j = if j = i then { instOf d i with verFixed := true } else instOf d j := fun j => by
    rw [← fixed, instOf_modInst, only]
    rfl
  have verFixed : verOf e i = v := by
    rw [← fixed]
    exact ver
  have run : (instOf e i).run = .assigned := by rw [insts, if_pos rfl, assigned]
  obtain ⟨told, after, enables⟩ := instTo_active (i := i) (d := e) (by rw [run]; decide)
  have start : instStart i d = instTo i .active e := by
    unfold instStart
    rw [fixed]
    simp [run, verFixed, known]
  have regs : (instTo i .active e).regs = e.regs := by rw [told]
  have words : ∀ q off, regGet (instTo i .active e) q off = regGet e q off := fun q off => by
    unfold regGet
    rw [regs]
  rw [start]
  refine ⟨?_, fun j => ?_, ?_, fun q => ?_, fun q off hq hoff => ?_⟩
  · unfold OnlyStart
    rw [told, onlyFixed]
  · rw [after, insts, insts, if_pos rfl]
    split <;> rfl
  · rw [← verFixed]
    unfold verOf fld
    rw [words, words]
  · rw [enables, onlyFixed]
    rfl
  · rw [words, ← fixed]
    exact pages q off hq hoff

/-- INST_ENABLE. -/
theorem instEnable_completes {s : State} {d : Dev} {a : Access} {i : Nat} {v : Nat × Nat} (b : Begins s d) (w : AwakeFor d a)
    (hi : i < 1024) (admits : (admitWrite (seenAs a) (instPage i) 0x00C d).1 = some .inst) (soft : (hdrOf d (instPage i)).softRst = false)
    (off : (hdrOf d (instPage i)).enable = false) (assigned : (instOf d i).run = .assigned) (free : (instOf d i).verFixed = false)
    (hv : v = pypCommon (pypCap d) (regGet d (instPage i) Reg.INST_PYP_OFFER_V2.off)) (known : v.1 ≠ 0) :
    Completes (.instEnable a i) s [.mgr, .regs, .hdr, .host] fun t =>
      instOf t i = { instOf d i with run := .active, verFixed := true } ∧ (∀ j, j ≠ i → instOf t j = instOf d j)
      ∧ verOf t i = v ∧ (hdrOf t (instPage i)).enable = true ∧ pagesBut [instPage i] d t := by
  have e0 : bit 1 0 = true := by decide
  have e1 : bit 1 1 = false := by decide
  have page : instPage i - 0x400 = i := Nat.add_sub_cancel_left ..
  have on := hdrAt_trans (hdrAt_modHdr d (instPage i) (ctrlHdr .inst 1)) (hdrAt_modHdr _ (instPage i) fun h => { h with enable := true })
  have write : regWrite a (instPage i) 0x00C 4 1 d
      = instStart i (modHdr (modHdr d (instPage i) (ctrlHdr .inst 1)) (instPage i) fun h => { h with enable := true }) := by
    rw [regWrite_ctrl admits (by decide) (by decide), writeCtrl_eq soft (by simp [e0, e1])]
    simp [e0, e1, off, putEnable, page]
  generalize modHdr (modHdr d (instPage i) (ctrlHdr .inst 1)) (instPage i) (fun h => { h with enable := true }) = x at on write
  obtain ⟨only, this, -⟩ := on
  have mgr : x.mgr = d.mgr := by rw [only]
  have regs : x.regs = d.regs := by rw [only]
  have insts : ∀ j, instOf x j = instOf d j := fun j => by
    unfold instOf
    rw [mgr]
  have words : ∀ q o, regGet x q o = regGet d q o := fun q o => by
    unfold regGet
    rw [regs]
  have offers : v = pypCommon (pypCap x) (regGet x (instPage i) Reg.INST_PYP_OFFER_V2.off) := by
    rw [hv, words]
    unfold pypCap fldB fld
    rw [words]
  obtain ⟨start, after, ver, enables, pages⟩ :=
    instStart_assigned hi (by rw [insts, assigned]) (by rw [insts, free]) offers known
  have parts : OnlyStart d (instStart i x) := by
    unfold OnlyStart
    rw [start, only]
  refine completes_runAcc (f := fun a d => if i < 1024 then regWrite a (instPage i) 0x00C 4 1 d else d) b w (Eq.refl (execInstEnable a i s))
    ((if_pos hi).trans write) ?_ (fun part hp => same_start parts hp) ⟨?_, fun j hj => ?_, ver, ?_, fun q o hq ho => ?_⟩
  · rw [parts]
    exact b.2
  · rw [after, if_pos rfl, insts]
  · rw [after, if_neg hj, insts]
  · rw [enables, this]
  · rw [pages q o hq ho, words]

/-! ## All of them -/

/-- SOFT_RESET of a page of the tamper monitor. -/
theorem softReset_tamper {s : State} {d : Dev} {a : Access} (b : Begins s d) (w : AwakeFor d a) {p : Nat} {k : PageKind}
    (hk : k ∈ [PageKind.tamp0, .tamp1, .tamp2, .tamp3, .vig]) (admits : (admitWrite (seenAs a) p 0x00C d).1 = some k)
    (soft : (hdrOf d p).softRst = false) : Completes (.softReset a p) s [.hdr] fun t =>
      hdrOf t p = { softHdr false (hdrOf d p) with enable := (hdrOf d p).enable, drain := false } ∧ hdrsBut [p] d t := by
  have kinds : ∀ k ∈ [PageKind.tamp0, .tamp1, .tamp2, .tamp3, .vig], k ≠ .ofc ∧ resetFixed k = false := by decide
  obtain ⟨notOfc, notFixed⟩ := kinds k hk
  exact completes_hdrAt b w (Eq.refl (execSoftReset a p s)) (regWrite_softReset admits notOfc notFixed soft) (softGo_tamper hk p d)

/-- Settles O44: an enable is one header's, the engine's or an INST page's; a soft reset of a page with no work of its own writes
its fields one by one. -/
theorem pageControlCommands : Obligations.PageControlCommands := by
  unfold Obligations.PageControlCommands
  intro s d a b w
  refine ⟨fun c hc admits soft => ?_, ?_, fun i v hi admits soft off assigned free hv known => ?_, ?_, ?_⟩
  · simp only [List.mem_cons, List.not_mem_nil, or_false] at hc
    obtain rfl | rfl := hc
    · exact enable_completes b w (.inl rfl) (Eq.refl (execCmdEnable a s)) admits soft
    · exact enable_completes b w (.inr rfl) (Eq.refl (execHtEnable a s)) admits soft
  · rintro q _ admits soft off runs first ready rfl
    exact mpeEnable_completes b w admits soft off runs first ready
  · exact instEnable_completes b w hi admits soft off assigned free hv known
  · rintro p k _ admits rfl soft
    exact ⟨fun hk => softReset_tamper b w hk admits soft, fun hk tidy still => softReset_completes b w hk admits soft tidy still⟩
  · rintro p _ rfl busy idle
    exact softResetComplete_completes b busy idle

end Sys2Proof.Proofs
end

section
/-! A lane whose command's key has left T0 takes no data unit (R141, R166): the statement of the intake commands forgets it. -/

open Sys2Proof Sys2Proof.Machine

namespace Sys2Proof.Proofs

/-- A meaning that leaves the block as it finds it. -/
theorem runDev_idle {s : State} {d : Dev} {f : Dev → Dev} (b : Begins s d) (idle : f d = d) : runDev s f = .next { s with dev := d } := by
  obtain ⟨rfl, sound⟩ := b
  rw [runDev_ok s f (by rw [idle]; exact sound), idle]

/-- The lane that R11 chose takes no data unit while a key that counts the command is not in T0, whatever was delivered before. -/
theorem xtsDataUnit_waits {s : State} {d : Dev} {tag lane chk : Nat} {k : Cmd} (b : Begins s d) (here : cmdOf d tag = some k)
    (own : some lane = k.unit) (gone : keysThere d k.counted = false) :
    exec (.xtsDataUnit tag lane chk) s = .next { s with dev := d } := by
  change execXtsDataUnit tag lane s chk = _
  unfold execXtsDataUnit
  exact runDev_idle b (by simp [atStage, here, ← own, gone])

/-- An AES_XTS request of one data unit at lane 0, whose key 1 has been delivered there. -/
def xtsCmd : Cmd where
  tag := 7
  inst := 0
  sq := 0
  cq := 0
  ver := (2, 0)
  raw := []
  desc := ⟨0x0206, 0, 5, 0, 1, 0, 0, 0, 512, 512, 0, 16, 0, 0, 0⟩
  stage := .taken
  src := none
  aux := none
  ticket := none
  dstList := none
  srcList := none
  quarter := 0
  unit := some 0
  keys := []
  counted := [1]
  tickets := []
  keyed := true
  epoch := none
  done := 0
  part := []
  sent := 0
  routedAt := 0
  svc := none
  result := none
  mute := false
  retried := false

/-- The block in SERVICE with this command in flight, T0 empty, and the lane's next mask one of no bytes. -/
def keyGone : Dev :=
  { Dev.reset with
    sys := { sysReset with mode := .service }
    ent := { entReset with masks := [0] }
    cmd := { cmdReset with cmds := [xtsCmd] } }

theorem keyGone_begins : Begins { dev := keyGone, pending := [] } keyGone := ⟨rfl, rfl⟩

theorem keyGone_cmd : cmdOf keyGone 7 = some xtsCmd := rfl

/-- The command stands at its unit, its key delivered: no read of random values waits for it. -/
theorem keyGone_atUnit : AtUnit keyGone 7 0x0206 xtsCmd :=
  ⟨keyGone_cmd, rfl, rfl, rfl, by decide, rfl, rfl, fun _ _ => rfl⟩

/-- The mask of no bytes can be drawn at once. -/
theorem keyGone_random : RandomAt keyGone 0 (maskOf keyGone) :=
  ⟨by decide, rfl, ⟨rfl, rfl, rfl⟩, Nat.zero_le _⟩

theorem keyGone_gone : keysThere keyGone xtsCmd.counted = false := rfl

/-- Refutes O29: the command at the lane that R11 chose, its key delivered and since gone from T0, is to fail with ENGINE_FAULT when
the lane's check unit mismatches twice; the model has the lane wait for the key, and nothing changes. -/
theorem not_unitIntakeCommands : ¬ Obligations.UnitIntakeCommands := by
  intro h
  obtain ⟨-, -, -, units⟩ := h { dev := keyGone, pending := [] } keyGone keyGone_begins
  obtain ⟨-, -, fails⟩ := units 7 xtsCmd 0 2 0 keyGone_atUnit rfl (by decide) (.inr rfl) (.inl rfl) rfl rfl keyGone_random
  obtain ⟨t, run, -, held, -⟩ := fails (Nat.le_refl 2)
  rw [xtsDataUnit_waits keyGone_begins keyGone_cmd rfl keyGone_gone] at run
  cases run
  rw [keyGone_cmd] at held
  cases held

end Sys2Proof.Proofs
end

section
/-! A register write that a page admits (R19, R26-R30, R34-R39): the common header, plain fields, and an access of a wrong size. -/

open Sys2Proof Sys2Proof.Machine

namespace Sys2Proof.Proofs

/-! ## The page that a write reaches -/

/-- A write that a page admits reaches the page. -/
theorem admitWrite_reach {a : Access} {p off : Nat} {d : Dev} {k : PageKind} (h : (admitWrite a p off d).1 = some k) :
    reach d a p off = .page := by
  unfold admitWrite at h
  split at h
  · assumption
  · cases h
  · cases h

/-- Who makes an access does not change the view through which it comes. -/
theorem reach_seenAs (d : Dev) (a : Access) (p off : Nat) : reach d (seenAs a) p off = reach d a p off := by
  obtain ⟨sec, cls, idx, via⟩ := a
  cases via <;> rfl

/-- A REGISTER_WRITE of a listed page, which is no doorbell page, is a write of its register. -/
theorem completes_registerWrite {s : State} {d e : Dev} {a : Access} {p off n v : Nat} {k : PageKind} {but : List Part} {q : Dev → Prop}
    (b : Begins s d) (w : AwakeFor d a) (kind : pageKind p = some k) (hoff : off < 0x1000) (he : regWrite a p off n v d = e)
    (ok : e.mpe.failing = none) (keep : ∀ p : Part, p ∉ but → p.same d e) (hq : q e) : Completes (.registerWrite a p off n v) s but q := by
  refine completes_runAcc b w (Eq.refl (execRegisterWrite a p off n v s)) ?_ ok keep hq
  have low := pageKind_lt kind
  rw [if_neg (by omega)]
  split
  · rw [if_neg (by unfold bellPage; omega), he]
  · exact he

/-- So it is where only that page's header changes. -/
theorem completes_registerWrite_hdr {s : State} {d e : Dev} {a : Access} {p off n v : Nat} {k : PageKind} {h : Hdr} (b : Begins s d)
    (w : AwakeFor d a) (kind : pageKind p = some k) (hoff : off < 0x1000) (he : regWrite a p off n v d = e) (only : HdrAt p h d e) :
    Completes (.registerWrite a p off n v) s [.hdr] fun t => hdrOf t p = h ∧ hdrsBut [p] d t := by
  obtain ⟨eq, hdr⟩ := only
  refine completes_registerWrite b w kind hoff he ?_ ?_ hdr
  · rw [eq]
    exact b.2
  · intro part hp
    rw [eq]
    exact same_hdr d _ hp

theorem same_harts (d : Dev) (h : SMap Hdr) (y : SMap Hart) {p : Part} (hp : p ∉ [Part.hdr, .harts]) :
    p.same d { d with hdr := h, harts := y } := by
  cases p <;> simp_all [Part.same]

/-- And where the harts then see its interrupt registers (R355). -/
theorem completes_registerWrite_harts {s : State} {d e : Dev} {a : Access} {p off n v : Nat} {k : PageKind} {h : Hdr} (b : Begins s d)
    (w : AwakeFor d a) (kind : pageKind p = some k) (hoff : off < 0x1000) (he : regWrite a p off n v d = monRefresh e)
    (only : HdrAt p h d e) :
    Completes (.registerWrite a p off n v) s [.hdr, .harts] fun t => hdrOf t p = h ∧ hdrsBut [p] d t ∧ harkened d t := by
  obtain ⟨eq, here, others⟩ := only
  have seen := monRefresh_only e
  have hdrs : ∀ q, hdrOf (monRefresh e) q = hdrOf e q := fun q => by
    unfold hdrOf
    rw [harts_hdr seen]
  refine completes_registerWrite b w kind hoff he ?_ ?_ ⟨?_, ?_, ?_⟩
  · rw [seen, eq]
    exact b.2
  · intro part hp
    rw [seen, eq]
    exact same_harts d _ _ hp
  · rw [hdrs, here]
  · intro q hq
    rw [hdrs, others q hq]
  · unfold harkened
    rw [harts_back seen (by rw [eq])]

/-! ## The common header -/

/-- A write of a header register that the page admits, PG_CTRL and PG_PWR apart; IRQ_STAT reaches the harts. -/
theorem regWrite_header {a : Access} {p off v : Nat} {d : Dev} {k : PageKind} (h : (admitWrite (seenAs a) p off d).1 = some k)
    (here : off ∈ [0x010, 0x014, 0x018, 0x01C, 0x030]) :
    regWrite a p off 4 v d =
      let e := (judgePlain k (seenAs a) p off (v % 2 ^ 32) d).d
      if off = 0x01C ∧ (pageCap k).irq = true then monRefresh e else e := by
  have offs : off % 4 = 0 ∧ off < 0x040 ∧ off ≠ 0x00C ∧ off ≠ 0x034 := by
    simp only [List.mem_cons, List.not_mem_nil, or_false] at here
    omega
  obtain ⟨aligned, low, ctrl, pwr⟩ := offs
  have entEmpty : off ≠ Reg.DRBG_SW_STAT_ENT_EMPTY.off := Nat.ne_of_lt (Nat.lt_of_lt_of_le low (by decide))
  unfold regWrite
  rw [pageWrite_word 39 a p off v d aligned]
  unfold wordWrite
  rw [if_neg (by simp [entEmpty]), (admitWrite_some h).1]
  simp [ctrl, pwr, low]

/-! ## An access of a wrong size or alignment -/

/-- A page error sets CFG_ERR, whether it is the first or not (R27). -/
theorem cfgErr_regErr {p : Nat} {k : PageKind} (kind : pageKind p = some k) (code : Nat) (a : Access) (off : Nat) (d : Dev) :
    (hdrOf (regErr p code a off d) p).cfgErr = true := by
  unfold regErr pageErr
  by_cases again : (hdrOf d p).cfgErr = true
  · simp [again, hdrOf_setHdr]
  · simp only [again, Bool.false_eq_true, if_false]
    rw [hdrOf_raiseEv _ _ _ _ k kind]
    split <;> simp [hdrOf_setHdr]

/-- The first page error fills the record with its code and offset, and no other header changes (R27). -/
theorem hdrOf_regErr_first {p : Nat} {k : PageKind} (kind : pageKind p = some k) {code : Nat} {a : Access} {off : Nat} {d : Dev}
    (first : (hdrOf d p).cfgErr = false) :
    ((hdrOf (regErr p code a off d) p).errCode = code ∧ (hdrOf (regErr p code a off d) p).errOff = off
      ∧ (hdrOf (regErr p code a off d) p).errMore = 0) ∧ hdrsBut [p] d (regErr p code a off d) := by
  unfold regErr pageErr
  simp only [first, Bool.false_eq_true, if_false]
  refine ⟨?_, fun q hq => ?_⟩
  · rw [hdrOf_raiseEv _ _ _ _ k kind]
    split <;> simp [hdrOf_setHdr]
  · have ne : q ≠ p := by simpa using hq
    rw [hdrOf_raiseEv _ _ _ _ k kind, if_neg fun c => ne c.1, hdrOf_setHdr, if_neg ne]

/-- An access that is no aligned one of 32 or 64 bits records BAD_ACCESS at the page that it reaches (R19). -/
theorem regWrite_misaligned {a : Access} {p off size v : Nat} {d : Dev} {k : PageKind} (h : (admitWrite (seenAs a) p off d).1 = some k)
    (four : ¬(size = 4 ∧ off % 4 = 0)) (eight : ¬(size = 8 ∧ off % 8 = 0)) :
    regWrite a p off size v d = regErr p errACCESS (seenAs a) off d := by
  have page := admitWrite_reach h
  rw [reach_seenAs] at page
  unfold regWrite pageWrite
  rw [if_neg (by simpa using four), if_neg (by simpa using eight), page, (admitWrite_some h).2]

theorem same_event {a b : Dev} (h : OnlyEvent a b) {p : Part} (hp : p ∉ [Part.hdr, .host]) : p.same a b := by
  rw [h]
  cases p <;> simp_all [Part.same]

/-- Such a write completes with its error recorded. -/
theorem registerWrite_misaligned {s : State} {d : Dev} {a : Access} {p off size v : Nat} {k : PageKind} (b : Begins s d) (w : AwakeFor d a)
    (hoff : off < 0x1000) (h : (admitWrite (seenAs a) p off d).1 = some k) (four : ¬(size = 4 ∧ off % 4 = 0))
    (eight : ¬(size = 8 ∧ off % 8 = 0)) (first : (hdrOf d p).cfgErr = false) :
    Completes (.registerWrite a p off size v) s [.hdr, .host] fun t =>
      (hdrOf t p).cfgErr = true ∧ (hdrOf t p).errCode = errACCESS ∧ (hdrOf t p).errOff = off ∧ (hdrOf t p).errMore = 0 ∧ hdrsBut [p] d t := by
  have kind := (admitWrite_some h).2
  have only := regErr_only d p errACCESS (seenAs a) off
  obtain ⟨⟨code, at', more⟩, others⟩ := hdrOf_regErr_first kind (code := errACCESS) (a := seenAs a) (off := off) first
  refine completes_registerWrite b w kind hoff (regWrite_misaligned h four eight) ?_ (fun part hp => same_event only hp)
    ⟨cfgErr_regErr kind _ _ _ _, code, at', more, others⟩
  rw [only]
  exact b.2

/-! ## Plain fields -/

/-- What is done with an accepted value: nothing, a write of the field in its register, or a shadow that waits (R34-R37). -/
theorem putField_cases (p off v : Nat) (run : Bool) (f : Fld) (d : Dev) :
    putField p off v run f d = d ∨ (∃ x, putField p off v run f d = regPut d p off (setBits (regGet d p off) f.hi f.lo x))
      ∨ ∃ m, putField p off v run f d = { d with shadow := m } := by
  unfold putField
  cases f.acc
  case ro => exact .inl rfl
  case wo => exact .inl rfl
  case rw1c => exact .inr (.inl ⟨_, rfl⟩)
  case rw1s => exact .inr (.inl ⟨_, rfl⟩)
  all_goals
    dsimp only
    split
    · exact .inr (.inr ⟨_, rfl⟩)
    · exact .inr (.inl ⟨_, rfl⟩)

/-- The value of a field that software writes and that does not wait for a job boundary stands in its register. -/
theorem putField_writes (p off v : Nat) {run : Bool} {f : Fld} (d : Dev) (acc : f.acc = .rw ∨ f.acc = .rwl)
    (now : f.cls ≠ .J ∨ run = false) :
    putField p off v run f d = regPut d p off (setBits (regGet d p off) f.hi f.lo (bits v f.hi f.lo)) := by
  have atOnce : (f.cls = .J && run) = false := by
    obtain ne | off := now
    · simp [ne]
    · simp [off]
  unfold putField
  obtain e | e := acc <;> rw [e] <;> simp [atOnce]

/-- The accepted fields of one register put in place, one after another. -/
def putFields (p off v : Nat) (run : Bool) (l : List Fld) (d : Dev) : Dev := l.foldl (fun s f => putField p off v run f s) d

theorem putFields_cons (p off v : Nat) (run : Bool) (f : Fld) (l : List Fld) (d : Dev) :
    putFields p off v run (f :: l) d = putFields p off v run l (putField p off v run f d) := rfl

theorem putFields_only (p off v : Nat) (run : Bool) (l : List Fld) (d : Dev) :
    putFields p off v run l d
      = { d with regs := (putFields p off v run l d).regs, shadow := (putFields p off v run l d).shadow } := by
  induction l generalizing d with
  | nil => rfl
  | cons f t ih =>
    have step : putField p off v run f d
        = { d with regs := (putField p off v run f d).regs, shadow := (putField p off v run f d).shadow } := by
      obtain e | ⟨x, e⟩ | ⟨m, e⟩ := putField_cases p off v run f d
      · rw [e]
      · rw [e]
        rfl
      · rw [e]
    rw [putFields_cons, ih, step]

/-- They change no other register. -/
theorem regGet_putFields_other {p off q o : Nat} (v : Nat) (run : Bool) (l : List Fld) (d : Dev) (other : regKey q o ≠ regKey p off) :
    regGet (putFields p off v run l d) q o = regGet d q o := by
  induction l generalizing d with
  | nil => rfl
  | cons f t ih =>
    rw [putFields_cons, ih]
    obtain e | ⟨x, e⟩ | ⟨m, e⟩ := putField_cases p off v run f d <;> rw [e]
    · exact regGet_regPut_other d p off q o _ other
    · rfl

/-- Nor a field of the register beside them. -/
theorem bits_putFields_apart {p off v : Nat} {run : Bool} {l : List Fld} {d : Dev} {f : Fld} (word : InWord f)
    (h : ∀ g ∈ l, InWord g ∧ (f.hi < g.lo ∨ g.hi < f.lo)) :
    bits (regGet (putFields p off v run l d) p off) f.hi f.lo = bits (regGet d p off) f.hi f.lo := by
  induction l generalizing d with
  | nil => rfl
  | cons g t ih =>
    rw [List.forall_mem_cons] at h
    obtain ⟨⟨gword, apart⟩, rest⟩ := h
    rw [putFields_cons, ih rest]
    obtain e | ⟨x, e⟩ | ⟨m, e⟩ := putField_cases p off v run g d <;> rw [e]
    · rw [regGet_regPut_same, bits_mod_word _ _ _ word.2, bits_setBits_apart _ _ _ _ gword.1 apart.symm]
    · rfl

/-- A field of them that software writes, and that need not wait, holds the value written. -/
theorem bits_putFields_mem {p off v : Nat} {run : Bool} {l : List Fld} {d : Dev} {f : Fld} (hf : f ∈ l)
    (h : ∀ g ∈ l, InWord g ∧ (f ≠ g → f.hi < g.lo ∨ g.hi < f.lo)) (acc : f.acc = .rw ∨ f.acc = .rwl) (now : f.cls ≠ .J ∨ run = false) :
    bits (regGet (putFields p off v run l d) p off) f.hi f.lo = bits v f.hi f.lo := by
  induction l generalizing d with
  | nil => cases hf
  | cons g t ih =>
    rw [List.forall_mem_cons] at h
    obtain ⟨⟨word, -⟩, rest⟩ := h
    by_cases again : f ∈ t
    · exact ih again rest
    · obtain rfl := (List.mem_cons.mp hf).resolve_right again
      have apart : ∀ g ∈ t, InWord g ∧ (f.hi < g.lo ∨ g.hi < f.lo) := fun g hg =>
        ⟨(rest g hg).1, (rest g hg).2 fun e => again (e ▸ hg)⟩
      refine (bits_putFields_apart (d := putField p off v run f d) word apart).trans ?_
      rw [putField_writes p off v d acc now, regGet_regPut_same, bits_mod_word _ _ _ word.2, bits_setBits_bits _ _ _ _ word.1]

/-- The pages without effects of their own. -/
def plainPages : List PageKind := [.clk, .hold, .wear, .ks1, .ks2, .ks3, .host, .usb4]

theorem fieldsApart_plain : ∀ k ∈ plainPages, FieldsApart k := by
  unfold FieldsApart Share InWord
  decide +kernel

/-- The fields of a register that software writes. -/
def softwareFlds (k : PageKind) (off : Nat) : List Fld := (fieldsAt k off).filter (fun f => f.acc ≠ .ro)

section
variable {a : Access} {p off v : Nat} {d : Dev} {k : PageKind}

/-- Where no field is refused, every one is put in place and no error is recorded (R39). -/
theorem judgeFields_accepted (bank : bankPage a p = p) (shadow : shadows d a p = runs d p)
    (accepted : ∀ f ∈ softwareFlds k off, fieldCode a p v d f = 0) :
    (judgeFields k a p off v d).d = putFields p off v (runs d p) (softwareFlds k off) d := by
  have all : (softwareFlds k off).filter (fun f => fieldCode a p v d f = 0) = softwareFlds k off :=
    List.filter_eq_self.mpr fun f hf => by simpa using accepted f hf
  have codes : ∀ c ≠ 0, ((softwareFlds k off).map (fieldCode a p v d)).contains c = false := by
    intro c hc
    rw [List.contains_eq_mem, decide_eq_false_iff_not, List.mem_map]
    rintro ⟨f, hf, rfl⟩
    exact hc (accepted f hf)
  have quiet : ∀ e, recordFirst ((softwareFlds k off).map (fieldCode a p v d)) a p off e = e := by
    intro e
    unfold recordFirst
    simp only [codes errWORLD (by decide), codes errLOCKED (by decide), codes errCFG (by decide), codes errVALUE (by decide),
      Bool.false_eq_true, if_false]
  change recordFirst ((softwareFlds k off).map (fieldCode a p v d)) a p off
    (putFields (bankPage a p) off v (shadows d a p) ((softwareFlds k off).filter fun f => fieldCode a p v d f = 0) d) = _
  rw [quiet, all, bank, shadow]

/-- A write of a block register that a page without effects of its own admits is judged field by field. -/
theorem regWrite_plain (hk : k ∈ plainPages) (h : (admitWrite (seenAs a) p off d).1 = some k) (high : 0x040 ≤ off) (aligned : off % 4 = 0)
    (word : v < 2 ^ 32) : regWrite a p off 4 v d = (judgeFields k (seenAs a) p off v d).d := by
  obtain ⟨admitted, kind⟩ := admitWrite_some h
  have drbg : p ≠ pgDRBG := by
    rintro rfl
    cases kind
    exact absurd hk (by decide)
  have block : ∀ port, blockReg port a k p off v d = (judgePlain k (seenAs a) p off v d).d := by
    simp only [plainPages, List.mem_cons, List.not_mem_nil, or_false] at hk
    obtain rfl | rfl | rfl | rfl | rfl | rfl | rfl | rfl := hk <;> exact fun _ => rfl
  have judged : judgePlain k (seenAs a) p off v d = judgeFields k (seenAs a) p off v d := by
    unfold judgePlain
    iterate 5 rw [if_neg (by omega)]
  unfold regWrite
  rw [pageWrite_word 39 a p off v d aligned, Nat.mod_eq_of_lt word]
  unfold wordWrite
  rw [if_neg (by simp [drbg]), admitted]
  dsimp only
  iterate 3 rw [if_neg (by omega)]
  rw [block, judged]

/-- The registers of such a page have one bank, and its shadows wait while the block runs (R35, R366). -/
theorem plainPages_bank (hk : k ∈ plainPages) (kind : pageKind p = some k) (a : Access) (d : Dev) :
    bankPage a p = p ∧ shadows d a p = runs d p := by
  have notIrqc : ¬(0x011 ≤ p ∧ p ≤ 0x020) := by
    rintro ⟨lo, hi⟩
    have irqc : pageKind p = some .irqc := by
      unfold pageKind
      iterate 3 rw [if_neg (by omega)]
      exact if_pos (by omega)
    rw [irqc] at kind
    cases kind
    exact absurd hk (by decide)
  constructor
  · exact if_neg (by simp only [Bool.and_eq_true, decide_eq_true_eq]; omega)
  · exact if_neg (by simpa using notIrqc)

end

theorem same_fields (d : Dev) (r : SMap Word) (x : SMap Shadow) {p : Part} (hp : p ∉ [Part.regs, .shadow]) :
    p.same d { d with regs := r, shadow := x } := by
  cases p <;> simp_all [Part.same]

/-- A write that no field refuses, at a page without effects of its own. -/
theorem registerWrite_plain {s : State} {d : Dev} {a : Access} {p off v : Nat} {k : PageKind} (b : Begins s d) (w : AwakeFor d a)
    (hoff : off < 0x1000) (word : v < 2 ^ 32) (h : (admitWrite (seenAs a) p off d).1 = some k) (hk : k ∈ plainPages) (high : 0x040 ≤ off)
    (aligned : off % 4 = 0) (accepted : ∀ f, f ∈ fieldsAt k off → f.acc ≠ .ro → fieldCode (seenAs a) p v d f = 0) :
    Completes (.registerWrite a p off 4 v) s [.regs, .shadow] fun t =>
      (∀ f, f ∈ fieldsAt k off → (f.acc = .rw ∨ f.acc = .rwl) → (f.cls ≠ .J ∨ runs d p = false) →
        bits (regGet t p off) f.hi f.lo = bits v f.hi f.lo)
      ∧ (∀ f, f ∈ fieldsAt k off → f.acc = .ro → bits (regGet t p off) f.hi f.lo = bits (regGet d p off) f.hi f.lo)
      ∧ regsBut [(p, off)] d t := by
  have kind := (admitWrite_some h).2
  have apart := fieldsApart_plain k hk
  obtain ⟨bank, shadow⟩ := plainPages_bank hk kind (seenAs a) d
  have mem : ∀ g ∈ softwareFlds k off, g ∈ fieldsAt k off ∧ g.acc ≠ .ro := fun g hg => by simpa [softwareFlds] using hg
  have written : regWrite a p off 4 v d = putFields p off v (runs d p) (softwareFlds k off) d := by
    rw [regWrite_plain hk h high aligned word, judgeFields_accepted bank shadow fun f hf => accepted f (mem f hf).1 (mem f hf).2]
  have only := putFields_only p off v (runs d p) (softwareFlds k off) d
  refine completes_registerWrite b w kind hoff written ?_ ?_ ⟨?_, ?_, ?_⟩
  · rw [only]
    exact b.2
  · intro part hp
    rw [only]
    exact same_fields d _ _ hp
  · intro f hf acc now
    have soft : f ∈ softwareFlds k off := by
      refine List.mem_filter.mpr ⟨hf, ?_⟩
      obtain e | e := acc <;> simp [e]
    exact bits_putFields_mem soft (fun g hg => ⟨fieldsAt_inWord apart (mem g hg).1, fieldsAt_apart apart hf (mem g hg).1⟩) acc now
  · intro f hf ro
    refine bits_putFields_apart (fieldsAt_inWord apart hf) fun g hg => ⟨fieldsAt_inWord apart (mem g hg).1, ?_⟩
    exact fieldsAt_apart apart hf (mem g hg).1 fun e => (mem g hg).2 (e ▸ ro)
  · intro q o out ho
    refine regGet_putFields_other v _ _ d fun same => out ?_
    unfold regKey at same
    simp only [List.map_cons, List.map_nil, List.mem_singleton, Prod.mk.injEq]
    omega

/-- Settles O43: a header register is one header's, a plain register is its fields', and any other access is an error of the page. -/
theorem registerWriteCommand : Obligations.RegisterWriteCommand := by
  intro s d a p off val k b w hoff word admits _
  have kind := (admitWrite_some admits).2
  have whole : val % 2 ^ 32 = val := Nat.mod_eq_of_lt word
  refine ⟨?_, ?_, ?_, ?_, ?_, ?_⟩
  · rintro rfl irq
    refine completes_registerWrite_hdr b w kind hoff (regWrite_header admits (by decide)) ?_
    rw [whole]
    simpa [judgePlain, irq] using hdrAt_modHdr d p fun h => { h with irqEn := val }
  · rintro rfl irq
    refine completes_registerWrite_harts b w kind hoff ((regWrite_header admits (by decide)).trans (if_pos ⟨rfl, irq⟩)) ?_
    rw [whole]
    simpa [judgePlain, irq] using hdrAt_modHdr d p fun h =>
      { h with irqStat := h.irqStat - Nat.land h.irqStat val }
  · rintro rfl clears
    refine completes_registerWrite_hdr b w kind hoff (regWrite_header admits (by decide)) ?_
    rw [whole]
    simpa [judgePlain, writeStat, clears] using hdrAt_modHdr d p fun h =>
      { h with cfgErr := false, errCode := 0, errMore := 0, errWorld := false, errMaster := 0, errOff := 0, errAddr := 0 }
  · rintro rfl open' unlocked ready
    refine completes_registerWrite_hdr b w kind hoff (regWrite_header admits (by decide)) ?_
    rw [whole]
    simpa [judgePlain, writeWorld, open', unlocked, ready] using hdrAt_modHdr d p fun h =>
      { h with nsRead := bit val 1, secure := bit val 0 }
  · exact fun hk high aligned accepted => registerWrite_plain b w hoff word admits hk high aligned accepted
  · exact fun size four eight first => registerWrite_misaligned b w hoff admits four eight first

end Sys2Proof.Proofs
end

section
/-! Registers of facilities that a page lacks: they read zero and ignore writes (R23). -/

open Sys2Proof Sys2Proof.Machine

namespace Sys2Proof.Proofs

/-! ## Writes -/

/-- The registers of the common header that serve a facility which the pages of a kind lack: interrupts, or power. -/
def Lacks (k : PageKind) (off : Nat) : Prop :=
  ((pageCap k).irq = false ∧ (off = 0x014 ∨ off = 0x018 ∨ off = 0x01C)) ∨ ((pageCap k).pwr = false ∧ off = 0x034)

/-- A write of PG_PWR that the page admits. -/
theorem regWrite_pwr {a : Access} {p v : Nat} {d : Dev} {k : PageKind} (h : (admitWrite (seenAs a) p 0x034 d).1 = some k) :
    regWrite a p 0x034 4 v d = writePwr (seenAs a) p (v % 2 ^ 32) d := by
  have entEmpty : 0x034 ≠ Reg.DRBG_SW_STAT_ENT_EMPTY.off := by decide
  unfold regWrite
  rw [pageWrite_word 39 a p 0x034 v d rfl]
  unfold wordWrite
  rw [if_neg (by simp [entEmpty]), (admitWrite_some h).1]
  rfl

/-- A page without PG_PWR ignores a write of it. -/
theorem writePwr_lacking {p : Nat} {k : PageKind} (kind : pageKind p = some k) (lacks : (pageCap k).pwr = false) (a : Access) (v : Nat)
    (d : Dev) : writePwr a p v d = d := by
  simp [writePwr, kind, lacks]

/-- A write of such a register changes nothing. -/
theorem regWrite_lacking {a : Access} {p off v : Nat} {d : Dev} {k : PageKind} (h : (admitWrite (seenAs a) p off d).1 = some k)
    (lacks : Lacks k off) : regWrite a p off 4 v d = d := by
  obtain ⟨irq, rfl | rfl | rfl⟩ | ⟨pwr, rfl⟩ := lacks
  · rw [regWrite_header h (by decide)]
    rfl
  · rw [regWrite_header h (by decide)]
    simp [judgePlain, irq]
  · rw [regWrite_header h (by decide)]
    simp [judgePlain, irq]
  · rw [regWrite_pwr h, writePwr_lacking (admitWrite_some h).2 pwr]

/-! ## DRAIN -/

theorem bit_setBit_ne {v n m : Nat} {x : Bool} (h : m ≠ n) : bit (setBit v n x) m = bit v m := by
  unfold bit setBit
  rw [bits_setBits_apart v n n _ (Nat.le_refl n) (by omega)]

theorem bit_mod_word {v n : Nat} (h : n < 32) : bit (v % 2 ^ 32) n = bit v n := by
  unfold bit
  rw [bits_mod_word v n n h]

/-- Of a word written to PG_CTRL, only LOCK, DRAIN, SOFT_RESET and ENABLE act, and DRAIN only where the page has it. -/
theorem writeCtrl_congr {k : PageKind} {v w : Nat} (lacks : (pageCap k).drain = false) (lock : bit v 31 = bit w 31)
    (soft : bit v 1 = bit w 1) (enable : bit v 0 = bit w 0) (a : Access) (p : Nat) (d : Dev) : writeCtrl k a p v d = writeCtrl k a p w d := by
  unfold writeCtrl
  simp only [lacks, lock, soft, enable, Bool.false_eq_true, if_false]

/-- A write of PG_CTRL on a page without DRAIN acts alike whatever its DRAIN bit. -/
theorem regWrite_ctrl_drain {p : Nat} {k : PageKind} (kind : pageKind p = some k) (lacks : (pageCap k).drain = false) (a : Access) (v : Nat)
    (d : Dev) : regWrite a p 0x00C 4 v d = regWrite a p 0x00C 4 (setBit v 2 false) d := by
  have same : ∀ n, n < 32 → n ≠ 2 → bit (v % 2 ^ 32) n = bit (setBit v 2 false % 2 ^ 32) n := fun n word other => by
    rw [bit_mod_word word, bit_mod_word word, bit_setBit_ne other]
  have entEmpty : 0x00C ≠ Reg.DRBG_SW_STAT_ENT_EMPTY.off := by decide
  unfold regWrite
  rw [pageWrite_word 39 a p 0x00C _ d rfl, pageWrite_word 39 a p 0x00C _ d rfl]
  unfold wordWrite
  rw [if_neg (by simp [entEmpty]), if_neg (by simp [entEmpty])]
  split
  · rfl
  · rename_i k' e admitted
    have kind' := (admitWrite_some (congrArg Prod.fst admitted)).2
    rw [kind] at kind'
    cases kind'
    simp only [if_true]
    rw [writeCtrl_congr lacks (same 31 (by decide) (by decide)) (same 1 (by decide) (by decide)) (same 0 (by decide) (by decide))]

/-- So does a REGISTER_WRITE of it. -/
theorem execRegisterWrite_drain {p : Nat} {k : PageKind} (kind : pageKind p = some k) (lacks : (pageCap k).drain = false) (a : Access)
    (v : Nat) (s : State) : execRegisterWrite a p 0x00C 4 v s = execRegisterWrite a p 0x00C 4 (setBit v 2 false) s := by
  have low := pageKind_lt kind
  have noBell : ∀ i, p ≠ bellPage i := fun i => by
    unfold bellPage
    omega
  unfold execRegisterWrite
  simp only [noBell, if_false, regWrite_ctrl_drain kind lacks _ v]

/-! ## Reads -/

/-- The address of a register of a listed page: where it lies, and which page and offset it names. -/
theorem regAddr_parts {p off : Nat} (low : p < 0x800) (hoff : off < 0x1000) :
    zoneOf (regAddr p off) = .regs ∧ (regAddr p off - 0x1000_0000) / 0x1000 = p ∧ regAddr p off % 0x1000 = off := by
  unfold regAddr
  refine ⟨?_, by omega, by omega⟩
  unfold zoneOf
  rw [if_neg (by omega)]
  exact if_pos (by simp only [Bool.and_eq_true, decide_eq_true_eq]; omega)

/-- A read of a register of the common header answers its value; the header has no register whose read changes anything. -/
theorem readWord_header {a : Access} {p off : Nat} {d : Dev} {k : PageKind} (kind : pageKind p = some k) (low : off < 0x040)
    (reached : reach d a p off ≠ .gone) (open' : readRefused d (seenAs a) k p = false) :
    ∃ e, readWord a p off d = (hdrRead e (seenAs a) k p off, d) := by
  have value : ∀ e, regValue e (seenAs a) k p off = hdrRead e (seenAs a) k p off := fun e => if_pos low
  have read : ∃ e, readReg (seenAs a) k p off d = (hdrRead e (seenAs a) k p off, d) := by
    have far : ∀ o : Nat, 0x040 ≤ o → off ≠ o := fun o ho => by omega
    unfold readReg
    simp only [far Reg.MGR_EVENT_VALID.off (by decide), far Reg.DRBG_SW_DATA_DATA.off (by decide), far Reg.IRQC_CLAIM_ID.off (by decide),
      far Reg.EVR_RD_NEXT_VALID.off (by decide), far Reg.EVR_RD_PREV_VALID.off (by decide), decide_false, Bool.and_false,
      Bool.false_eq_true, if_false]
    split
    · exact ⟨_, by rw [value]⟩
    · exact ⟨_, by rw [value]⟩
  unfold readWord
  rw [kind]
  cases r : reach d a p off
  case gone => exact absurd r reached
  all_goals
    simp only [open', Bool.false_eq_true, if_false]
    exact read

/-- An aligned 32-bit read of a register answers its word, least significant byte first. -/
theorem pageRead_word (a : Access) (p off : Nat) (d : Dev) (aligned : off % 4 = 0) :
    pageRead a p off 4 d = (leBytes 4 (readWord a p off d).1, (readWord a p off d).2) := by
  have start : off / 4 * 4 = off := by omega
  unfold pageRead
  rw [if_neg (by simp [aligned]), if_neg (by decide), start, aligned]
  rfl

section
variable {b : Bus} {d : Dev} {p off : Nat} (read : b.kind = .read) (addr : b.addr = regAddr p off) (len : b.len = 4)
  (low : p < 0x800) (hoff : off < 0x1000) (aligned : off % 4 = 0)
include read addr len low hoff aligned

/-- A part of a transaction that reads one register. -/
theorem busPart_readWord :
    busPart none b b.addr b.len d
      = (.ok, leBytes 4 (readWord (busAccess d b p) p off d).1, (readWord (busAccess d b p) p off d).2) := by
  obtain ⟨zone, page, offset⟩ := regAddr_parts low hoff
  rw [busPart_regs_read none _ d (addr ▸ zone) (by simp [read])]
  unfold busRegRead
  rw [if_pos read, addr, len, page]
  unfold dmaRegRead
  rw [if_neg (by decide), page, offset]
  have last : ∀ e, dmaRegRead (busAccess d b p) (regAddr p off + 4) 599 0 e = ([], e) := fun _ => rfl
  simp only [Nat.min_eq_left (show 4 ≤ 8 by decide), Nat.sub_self, last, pageRead_word _ _ _ _ aligned, List.append_nil]

/-- A transaction that reads one register, past the checks, where the read changes nothing. -/
theorem busRun_readWord {v : Nat} (plain : BusPlain d b) (pass : partCheck d (busWho d b) .read b.addr = .pass)
    (value : readWord (busAccess d b p) p off d = (v, d)) : busRun none b id d = busAnswer b .ok (leBytes 4 v) d := by
  obtain ⟨⟨master, -, -, -, -⟩, -, host⟩ := plain
  obtain ⟨zone, page, -⟩ := regAddr_parts low hoff
  rw [← addr] at zone page
  have part := busPart_readWord (d := d) read addr len low hoff aligned
  rw [value] at part
  rw [← read] at pass
  unfold busRun
  by_cases c5 : b.cls = 5
  · have who : busWho d b = whoDebug d := by
      simp_all [busWho, busWorld, whoDebug, masterOk]
    rw [who] at pass
    rw [if_pos c5]
    simp [debugRun, judgePart, pass, part, zone]
  · have arrives : (b.cls = 2 && hostUr d (busAccess d b ((b.addr - 0x1000_0000) / 0x1000)).via) = false := by
      by_cases c2 : b.cls = 2
      · simp [(host c2).2.2]
      · simp [c2]
    have one : partsOf b.addr b.len = [(b.addr, b.len)] := partsOf_one _ _ (by omega) (by rw [addr, len]; unfold regAddr; omega)
    rw [if_neg c5, if_neg (by simp [zone]), arrives]
    simp [busParts, one, judgePart, pass, part, MemRes.join]

/-- An INTERCONNECT_TRANSACTION that reads a register of the common header. -/
theorem interconnect_readHeader {s : State} {k : PageKind} (begins : Begins s d) (plain : BusPlain d b) (on : dieOn d.sys.mode = true)
    (pass : partCheck d (busWho d b) .read b.addr = .pass) (kind : pageKind p = some k) (header : off < 0x040)
    (reached : reach d (busAccess d b p) p off ≠ .gone) (open' : readRefused d (seenAs (busAccess d b p)) k p = false) :
    Completes (.interconnectTransaction b) s [] fun t =>
      ∃ e, t.bus = some (.ok (leBytes 4 (hdrRead e (seenAs (busAccess d b p)) k p off))) := by
  obtain ⟨e, value⟩ := readWord_header kind header reached open'
  refine completes_runDev begins (Eq.refl (execInterconnectTransaction b s))
    (e := { d with bus := some (.ok (leBytes 4 (hdrRead e (seenAs (busAccess d b p)) k p off))) }) ?_ begins.2
    (fun p _ => same_bus d _ p) ⟨e, rfl⟩
  rw [busGo_plain b d on plain, busRun_readWord read addr len low hoff aligned plain pass value, busAnswer_ok]
  simp [busPosted, read]

end

/-- The register of a facility that the page lacks reads zero. -/
theorem hdrRead_lacking {k : PageKind} {off : Nat} (lacks : Lacks k off) (d : Dev) (a : Access) (p : Nat) : hdrRead d a k p off = 0 := by
  obtain ⟨irq, rfl | rfl | rfl⟩ | ⟨pwr, rfl⟩ := lacks <;> simp [hdrRead, *]

/-- DRAIN of a page that lacks it reads zero in PG_CTRL, which is a word. -/
theorem hdrRead_ctrl_drain {k : PageKind} (lacks : (pageCap k).drain = false) (d : Dev) (a : Access) (p : Nat) :
    hdrRead d a k p 0x00C < 2 ^ 32 ∧ bit (hdrRead d a k p 0x00C) 2 = false := by
  have word : hdrRead d a k p 0x00C = b2n (hdrOf d p).lock * 2 ^ 31 + b2n (hdrOf d p).enable := by
    simp [hdrRead, lacks, b2n]
  rw [word]
  cases (hdrOf d p).lock <;> cases (hdrOf d p).enable <;> decide

/-- A word of four bytes is read back. -/
theorem leAt_leBytes_word {v : Nat} (word : v < 2 ^ 32) : leAt (leBytes 4 v) 0 4 = v := by
  simp [leAt, slice, leBytes, leNat, zeros]
  omega

/-- Settles O42: writes and reads of the registers of a lacking facility by `regWrite_lacking` and `hdrRead_lacking`, and DRAIN by what
PG_CTRL takes and reads. -/
theorem absentFacilities : Obligations.AbsentFacilities := by
  intro s d p k begins kind
  have low := pageKind_lt kind
  refine ⟨fun off lacks => ⟨fun a val w admits => ?_, fun b read plain addr len on pass reached open' => ?_⟩,
    fun lacks => ⟨fun a val => execRegisterWrite_drain kind lacks a val s, fun b read plain addr len on pass reached open' => ?_⟩⟩
  · have header : off < 0x1000 := by omega
    exact completes_registerWrite begins w kind header (regWrite_lacking admits lacks) begins.2 (fun p _ => same_refl d p) trivial
  · have header : off < 0x040 ∧ off % 4 = 0 := by omega
    obtain ⟨t, run, keeps, e, answer⟩ :=
      interconnect_readHeader read addr len low (by omega) header.2 begins plain on pass kind header.1 reached open'
    rw [hdrRead_lacking lacks] at answer
    exact ⟨t, run, keeps, answer⟩
  · obtain ⟨t, run, keeps, e, answer⟩ :=
      interconnect_readHeader read addr len low (by decide) (by decide) begins plain on pass kind (by decide) reached open'
    obtain ⟨word, drain⟩ := hdrRead_ctrl_drain lacks e (seenAs (busAccess d b p)) p
    refine ⟨t, run, keeps, _, answer, rfl, ?_⟩
    rw [leAt_leBytes_word word, drain]

end Sys2Proof.Proofs
end

section
/-! A write of PWR_QREQ that repeats a reserved encoding records BAD_VALUE (R452, R468): the statement of the power commands asks of the other
quarters' fields only that they stay as they are. -/

open Sys2Proof Sys2Proof.Machine

namespace Sys2Proof.Proofs

/-- A page event leaves the page's error record alone. -/
theorem cfgErr_eventAt {p n : Nat} {a b : Dev} (h : eventAt p n a b) : (hdrOf b p).cfgErr = (hdrOf a p).cfgErr := by
  rw [h.1]
  split <;> rfl

/-- The reserved encoding in any quarter's field is recorded as a page error, whatever the field held (R452, R468). -/
theorem writeQreq_reserved {q v : Nat} (hq : q < 4) (reserved : bits v (2 * q + 1) (2 * q) = 3) (a : Access) (d : Dev) :
    (hdrOf (writeQreq a v d) pgPWR).cfgErr = true := by
  have code : qreqCode d q v = errVALUE := if_pos reserved
  have recorded : ([0, 1, 2, 3].map fun q => qreqCode d q v).contains errVALUE = true := by
    rw [List.contains_iff_mem, List.mem_map]
    exact ⟨q, by simp; omega, code⟩
  unfold writeQreq
  simp only [recorded, if_true]
  split <;> exact cfgErr_regErr (k := .pwr) rfl _ _ _ _

/-- So a QUARTER_POWER_REQUEST that the PWR page admits completes with CFG_ERR set. -/
theorem quarterPowerRequest_reserved {s : State} {d : Dev} {a : Access} {q v : Nat} (b : Begins s d) (w : AwakeFor d a)
    (admits : (admitWrite (seenAs a) pgPWR 0x040 d).1 = some .pwr) (word : v < 2 ^ 32) (hq : q < 4)
    (reserved : bits v (2 * q + 1) (2 * q) = 3) (ok : (writeQreq (seenAs a) v d).mpe.failing = none) :
    Completes (.quarterPowerRequest a v) s (except []) fun t => (hdrOf t pgPWR).cfgErr = true := by
  refine completes_runAcc b w (Eq.refl (execQuarterPowerRequest a v s)) (e := writeQreq (seenAs a) v d) ?_ ok ?_
    (writeQreq_reserved hq reserved _ _)
  · have admitted : admitWrite (seenAs a) pgPWR Reg.PWR_QREQ_REQ.off d = (some .pwr, d) := (admitWrite_some admits).1
    rw [admitted, Nat.mod_eq_of_lt word]
  · intro p out
    refine absurd ?_ out
    cases p <;> decide

/-- The block in SERVICE with every quarter ON but quarter 1, which PWR_QREQ asks to be GATED; the field of quarter 2 holds the reserved
encoding 11, which no write leaves there and no hypothesis of the statement rules out. -/
def reservedReq : Dev :=
  { Dev.reset with
    sys := { sysReset with mode := .service }
    hearth := { hearthReset with
      quarters := [⟨.on, none, 0, false, true, false, 0⟩, ⟨.gated, none, 0, false, false, false, 0⟩, ⟨.on, none, 0, false, true, false, 0⟩,
        ⟨.on, none, 0, false, true, false, 0⟩] }
    regs := [(regKey pgPWR Reg.PWR_QREQ_REQ.off, 0x34)] }

/-- A secure core's access. -/
def secureCore : Access := ⟨true, 0, 0, .direct⟩

/-- Refutes O36: a request of ON for a GATED quarter is to raise Q_STATE and leave the PWR page's header alone otherwise, where every other
quarter's field is written as it stands; the field of quarter 2 stands at 11, so the same write records BAD_VALUE. -/
theorem not_powerCommands : ¬ Obligations.PowerCommands := by
  intro h
  have begins : Begins { dev := reservedReq, pending := [] } reservedReq := ⟨rfl, rfl⟩
  have awake : AwakeFor reservedReq secureCore := ⟨fun drowse => absurd drowse (by decide), rfl⟩
  have admits : (admitWrite (seenAs secureCore) pgPWR 0x040 reservedReq).1 = some .pwr := by decide +kernel
  obtain ⟨-, -, request, -⟩ := h { dev := reservedReq, pending := [] } reservedReq begins
  obtain ⟨on, -⟩ := request secureCore 1 0x30 0x34 awake admits rfl (by decide) (by decide) (by decide) (by decide +kernel) rfl rfl
    (by decide) (by decide)
  obtain ⟨t, run, -, -, -, -, event, -⟩ := on rfl rfl rfl
  obtain ⟨u, run', -, error⟩ := quarterPowerRequest_reserved (q := 2) begins awake admits (by decide : 0x30 < 2 ^ 32) (by decide) rfl
    (by decide +kernel)
  rw [run] at run'
  cases run'
  rw [cfgErr_eventAt event] at error
  exact absurd error (by decide +kernel)

end Sys2Proof.Proofs
end

section
/-! What a message to the host changes (R57): function state and what has left; a link's own state stays. -/

open Sys2Proof Sys2Proof.Machine

namespace Sys2Proof.Proofs

/-! ## Links -/

/-- The state of a link after a change of one; every number but 0 names link B. -/
theorem linkOf_modLink (d : Dev) (l m : Nat) (f : LinkSt → LinkSt) :
    linkOf (modLink d l f) m = if m = 0 ↔ l = 0 then f (linkOf d l) else linkOf d m := by
  unfold linkOf modLink
  by_cases hl : l = 0 <;> by_cases hm : m = 0 <;> simp [hl, hm]

theorem linkOf_modLink_apart (d : Dev) {l : Nat} (f : LinkSt → LinkSt) (hl : l < 2) :
    linkOf (modLink d l f) (1 - l) = linkOf d (1 - l) := by
  rw [linkOf_modLink, if_neg (by omega)]

theorem modLink_only (d : Dev) (l : Nat) (f : LinkSt → LinkSt) : OnlyHost d (modLink d l f) := by
  unfold modLink
  split <;> rfl

theorem modLink_modLink (d : Dev) (l : Nat) (f g : LinkSt → LinkSt) :
    modLink (modLink d l f) l g = modLink d l (fun k => g (f k)) := by
  unfold modLink
  split <;> rfl

/-! ## Messages -/

/-- At most the state of functions and what has left have changed. -/
def OnlyFns (a b : Dev) : Prop := b = { a with host := { a.host with fns := b.host.fns }, out := b.out }

theorem onlyFns_trans {a b c : Dev} (h : OnlyFns a b) (g : OnlyFns b c) : OnlyFns a c := by
  unfold OnlyFns at *
  rw [h] at g
  exact g

theorem linkOf_onlyFns {a b : Dev} (h : OnlyFns a b) (l : Nat) : linkOf b l = linkOf a l := by
  unfold linkOf
  rw [h]

theorem msixSend_onlyFns (l n v : Nat) (d : Dev) : OnlyFns d (msixSend l n v d) := by
  unfold msixSend
  split
  · rfl
  · split <;> rfl

theorem signalPfs_onlyFns (v : Nat) (d : Dev) : OnlyFns d (signalPfs v d) :=
  onlyFns_trans (msixSend_onlyFns 0 0 v d) (msixSend_onlyFns 1 0 v _)

theorem signalInst_onlyFns (i v : Nat) (d : Dev) : OnlyFns d (signalInst i v d) := by
  unfold signalInst
  split
  · split
    · exact msixSend_onlyFns _ _ v d
    · rfl
  · rfl

theorem pageMsix_onlyFns (p : Nat) (d : Dev) : OnlyFns d (pageMsix p d) := by
  unfold pageMsix
  split
  · exact signalPfs_onlyFns 2 d
  · exact signalPfs_onlyFns 2 d
  · exact msixSend_onlyFns _ 0 0 d
  · exact signalInst_onlyFns _ 16 d
  · rfl

/-- What has left stays, whether a vector is signalled or not. -/
theorem msixSend_out (l n v : Nat) (d : Dev) : ∃ rest, (msixSend l n v d).out = d.out ++ rest := by
  unfold msixSend
  split
  · exact ⟨[], by simp⟩
  · split
    · exact ⟨[], by simp [modMsix, modFn]⟩
    · exact ⟨_, rfl⟩

/-! ## Page events -/

/-- At most page headers, the state of functions and what has left have changed. -/
def OnlyRaised (a b : Dev) : Prop := b = { a with hdr := b.hdr, host := { a.host with fns := b.host.fns }, out := b.out }

theorem onlyRaised_trans {a b c : Dev} (h : OnlyRaised a b) (g : OnlyRaised b c) : OnlyRaised a c := by
  unfold OnlyRaised at *
  rw [h] at g
  exact g

theorem linkOf_onlyRaised {a b : Dev} (h : OnlyRaised a b) (l : Nat) : linkOf b l = linkOf a l := by
  unfold linkOf
  rw [h]

theorem regGet_onlyRaised {a b : Dev} (h : OnlyRaised a b) (p off : Nat) : regGet b p off = regGet a p off := by
  unfold regGet
  rw [h]

theorem raiseEv_onlyRaised (p n : Nat) (d : Dev) : OnlyRaised d (raiseEv p n d) := by
  unfold raiseEv
  split
  · rfl
  · split
    · have sent := pageMsix_onlyFns p (modHdr d p fun h => { h with irqStat := setBit h.irqStat n true })
      unfold OnlyFns at sent
      unfold OnlyRaised
      rw [sent]
      rfl
    · rfl

/-- A page event occurs (R26). -/
theorem eventAt_raiseEv {p : Nat} {k : PageKind} (kind : pageKind p = some k) (has : (pageCap k).irq = true) (n : Nat) (d : Dev) :
    eventAt p n d (raiseEv p n d) := by
  refine ⟨?_, fun q hq => ?_⟩
  · rw [hdrOf_raiseEv d p n p k kind]
    simp [has]
  · rw [hdrOf_raiseEv d p n q k kind, if_neg fun c => hq (by simp [c.1])]

end Sys2Proof.Proofs
end

section
/-! DOE, SPDM and SMBus: what a request of the host is answered (R58-R61, R72, R73, R348). -/

open Sys2Proof Sys2Proof.Machine

namespace Sys2Proof.Proofs

/-! ## The mailbox of a link -/

/-- An answer leaves the mailbox of its link; the other link stays as it is. -/
theorem doeAnswer_only (l : Nat) (r : SpdmResp) (d : Dev) : OnlyHost d (doeAnswer l r d) :=
  OnlyHost.trans (modLink_only d l _) (OnlyHost.trans (b := emit (.doe l r) _) rfl (msixSend_only _ l 0 3))

theorem linkOf_doeAnswer (l m : Nat) (r : SpdmResp) (d : Dev) :
    linkOf (doeAnswer l r d) m = if m = 0 ↔ l = 0 then { linkOf d l with doeReq := none, doeResp := true } else linkOf d m := by
  have emitted : ∀ e, linkOf (emit (.doe l r) e) m = linkOf e m := fun _ => rfl
  unfold doeAnswer
  rw [linkOf_onlyFns (msixSend_onlyFns l 0 3 _), emitted, linkOf_modLink]

theorem doeAnswer_out (l : Nat) (r : SpdmResp) (d : Dev) : ∃ rest, (doeAnswer l r d).out = d.out ++ .doe l r :: rest := by
  obtain ⟨rest, sent⟩ := msixSend_out l 0 3 (emit (.doe l r) (modLink d l fun k => { k with doeReq := none, doeResp := true }))
  refine ⟨rest, ?_⟩
  unfold doeAnswer
  rw [sent]
  simp [emit]

theorem same_onlyHost {a b : Dev} (h : OnlyHost a b) {p : Part} (hp : p ∉ [Part.host]) : p.same a b := by
  rw [h]
  cases p <;> simp_all [Part.same]

/-- A meaning that a TLP brings, one that wakes nothing. -/
theorem completes_runTlp {c : Instr} {s : State} {d e : Dev} {l : Nat} {but : List Part} {q : Dev → Prop} {f : Dev → Dev}
    (b : Begins s d) (awake : Awake d (some l)) (run : exec c s = runTlp l s f) (he : f d = e) (ok : e.mpe.failing = none)
    (keep : ∀ p : Part, p ∉ but → p.same d e) (hq : q e) : Completes c s but q := by
  refine completes_runDev (f := fun d => f (tlpWake (some l) d)) b run ?_ ok keep hq
  rw [tlpWake_awake awake, he]

/-- Nothing has left when a command begins. -/
theorem begins_out {s : State} {d : Dev} (b : Begins s d) : d.out = [] := by
  rw [b.1]

/-- Where the host sees a change of its side alone, no failure has been noted. -/
theorem sound_onlyHost {s : State} {d e : Dev} (b : Begins s d) (h : OnlyHost d e) : e.mpe.failing = none := by
  rw [h]
  exact b.2

section
variable {s : State} {d : Dev} {l : Nat} (b : Begins s d) (hl : l < 2) (serves : cfgServe d l = .serve) (up : d.sys.mode ≠ .drowse)
include b hl serves up

omit hl serves in
/-- DOE_REQUEST of an object that the mailbox does not take (R58). -/
theorem doeRequest_tooLong {r : SpdmReq} (long : 16384 < doeLen r) :
    Completes (.doeRequest l r) s [] fun t => t.out = [] := by
  refine completes_runTlp b (fun m => absurd m up) (Eq.refl (execDoeRequest l r s)) (e := d) ?_ b.2 (fun p _ => same_refl d p) (begins_out b)
  have dropped : doeMax < doeLen r := long
  simp [dropped]

/-- DOE Discovery is answered at once (R58). -/
theorem doeRequest_discovery (i : Nat) (rom : d.sys.mode ≠ .romBoot) (runs : d.sys.mode ≠ .halted) :
    Completes (.doeRequest l (.discovery i)) s [.host] fun t =>
      linkOf t l = { linkOf d l with doeReq := none, doeResp := true } ∧ linkOf t (1 - l) = linkOf d (1 - l)
      ∧ ∃ rest, t.out = .doe l (doeDiscovery i) :: rest := by
  have short : ¬doeMax < doeLen (.discovery i) := by simp [doeMax, doeLen]
  have only := doeAnswer_only l (doeDiscovery i) d
  obtain ⟨rest, out⟩ := doeAnswer_out l (doeDiscovery i) d
  refine completes_runTlp b (fun m => absurd m up) (Eq.refl (execDoeRequest l (.discovery i) s)) (e := doeAnswer l (doeDiscovery i) d)
    ?_ (sound_onlyHost b only) (fun p hp => same_onlyHost only hp) ⟨?_, ?_, rest, ?_⟩
  · simp [serves, Nat.not_le.mpr hl, rom, runs, short]
  · rw [linkOf_doeAnswer, if_pos Iff.rfl]
  · rw [linkOf_doeAnswer, if_neg (by omega)]
  · rw [out, begins_out b, List.nil_append]

/-- The block as a request of SPDM waits in the mailbox, before the harts see its event. -/
def doeWaits (l : Nat) (r : SpdmReq) (d : Dev) : Dev :=
  raiseEv pgHOST 6 (modLink d l fun k => { k with doeReq := some r, doeResp := false })

omit b hl serves up in
theorem doeWaits_only (l : Nat) (r : SpdmReq) (d : Dev) : OnlyEvent d (doeWaits l r d) :=
  (modLink_only d l _).event.trans (raiseEv_only _ pgHOST 6)

omit b hl serves up in
theorem same_called {a b c : Dev} (h : OnlyEvent a b) (g : OnlyHarts b c) {p : Part} (hp : p ∉ [Part.host, .hdr, .harts]) :
    p.same a c := by
  rw [g, h]
  cases p <;> simp_all [Part.same]

/-- Any other request waits for the responder, and DOE_REQ is raised (R58). -/
theorem doeRequest_waits {r : SpdmReq} (spdm : ∀ i, r ≠ .discovery i) (short : doeLen r ≤ 16384) (rom : d.sys.mode ≠ .romBoot)
    (runs : d.sys.mode ≠ .halted) : Completes (.doeRequest l r) s [.host, .hdr, .harts] fun t =>
      linkOf t l = { linkOf d l with doeReq := some r, doeResp := false } ∧ linkOf t (1 - l) = linkOf d (1 - l) ∧ eventAt pgHOST 6 d t := by
  have fits : ¬doeMax < doeLen r := Nat.not_lt.mpr short
  have only := doeWaits_only l r d
  have raised := raiseEv_onlyRaised pgHOST 6 (modLink d l fun k => { k with doeReq := some r, doeResp := false })
  have seen := monRefresh_only (doeWaits l r d)
  have links : ∀ m, linkOf (monRefresh (doeWaits l r d)) m = linkOf (modLink d l fun k => { k with doeReq := some r, doeResp := false }) m :=
    fun m => by
      rw [← linkOf_onlyRaised raised]
      unfold linkOf
      rw [seen]
      rfl
  refine completes_runTlp b (fun m => absurd m up) (Eq.refl (execDoeRequest l r s)) (e := monRefresh (doeWaits l r d))
    ?_ ?_ (fun p hp => same_called only seen hp) ⟨?_, ?_, ?_⟩
  · simp only [serves, Nat.not_le.mpr hl, rom, runs, fits]
    cases r with
    | discovery i => exact absurd rfl (spdm i)
    | _ => rfl
  · rw [seen, only]
    exact b.2
  · rw [links, linkOf_modLink, if_pos Iff.rfl]
  · rw [links, linkOf_modLink_apart _ _ hl]
  · have event := eventAt_raiseEv (p := pgHOST) rfl rfl 6 (modLink d l fun k => { k with doeReq := some r, doeResp := false })
    unfold eventAt hdrsBut hdrOf at event ⊢
    rw [harts_hdr seen]
    rwa [modLink_hdr] at event

/-- DOE_ABORT (R58). -/
theorem doeAbort_completes : Completes (.doeAbort l) s [.host] fun t =>
    linkOf t l = { linkOf d l with doeReq := none, doeResp := false } ∧ linkOf t (1 - l) = linkOf d (1 - l) := by
  have only := modLink_only d l fun k => { k with doeReq := none, doeResp := false }
  refine completes_runTlp b (fun m => absurd m up) (Eq.refl (execDoeAbort l s)) (e := modLink d l fun k => { k with doeReq := none, doeResp := false })
    ?_ (sound_onlyHost b only) (fun p hp => same_onlyHost only hp) ⟨?_, linkOf_modLink_apart _ _ hl⟩
  · simp [serves, hl]
  · rw [linkOf_modLink, if_pos Iff.rfl]

end

end Sys2Proof.Proofs
end

section
/-! DOE, SPDM and SMBus: what the responder and the SMBus answer (R58-R61, R72, R73, R348). -/

open Sys2Proof Sys2Proof.Machine

namespace Sys2Proof.Proofs

/-! ## The responder -/

/-- The block as the monitor takes the request of link A: DOE_REQ stays set while link B waits (R348). -/
def doeTaken (d : Dev) : Dev :=
  modHdr d pgHOST fun h => { h with irqStat := setBit h.irqStat 6 d.host.b.doeReq.isSome }

section
variable {s : State} {d : Dev} {r : SpdmReq} (b : Begins s d) (req : d.host.a.doeReq = some r) (trap : doeTrap d = true)
include b req trap

/-- SPDM_REQUEST, where the responder's answer to link A changes that link alone. -/
theorem spdmRequest_answers {x : SpdmResp} {f : LinkSt → LinkSt} (mode : d.sys.mode = .startup ∨ d.sys.mode = .service)
    (go : spdmGo 0 r (doeTaken d) = doeAnswer 0 x (modLink (doeTaken d) 0 f)) :
    Completes .spdmRequest s [.host, .hdr, .harts] fun t =>
      linkOf t 0 = { f (linkOf d 0) with doeReq := none, doeResp := true } ∧ linkOf t 1 = linkOf d 1
      ∧ (∃ rest, t.out = .doe 0 x :: rest)
      ∧ hdrOf t pgHOST = { hdrOf d pgHOST with irqStat := setBit (hdrOf d pgHOST).irqStat 6 d.host.b.doeReq.isSome } := by
  have answered := doeAnswer_only 0 x (modLink (doeTaken d) 0 f)
  have only : OnlyEvent d (doeAnswer 0 x (modLink (doeTaken d) 0 f)) :=
    (modHdr_only d pgHOST _).trans ((modLink_only _ 0 f).trans answered).event
  have seen := monRefresh_only (doeAnswer 0 x (modLink (doeTaken d) 0 f))
  obtain ⟨rest, out⟩ := doeAnswer_out 0 x (modLink (doeTaken d) 0 f)
  have links : ∀ m, linkOf (monRefresh (doeAnswer 0 x (modLink (doeTaken d) 0 f))) m
      = linkOf (doeAnswer 0 x (modLink (doeTaken d) 0 f)) m := fun m => by
    unfold linkOf
    rw [seen]
  have taken : ∀ m, linkOf (doeTaken d) m = linkOf d m := fun _ => rfl
  refine completes_runDev b (Eq.refl (execSpdmRequest s)) (e := monRefresh (doeAnswer 0 x (modLink (doeTaken d) 0 f))) ?_ ?_
    (fun p hp => same_called only seen hp) ⟨?_, ?_, ⟨rest, ?_⟩, ?_⟩
  · rw [← go]
    unfold doeTaken
    obtain m | m := mode <;> simp [req, trap, m, dieOn, modeCode]
  · rw [seen, only]
    exact b.2
  · rw [links, linkOf_doeAnswer, if_pos Iff.rfl, linkOf_modLink, if_pos Iff.rfl, taken]
  · rw [links, linkOf_doeAnswer, if_neg (by decide), linkOf_modLink, if_neg (by decide), taken]
  · rw [seen]
    change (doeAnswer 0 x (modLink (doeTaken d) 0 f)).out = _
    rw [out, modLink_out]
    change d.out ++ _ = _
    rw [begins_out b, List.nil_append]
  · unfold hdrOf
    rw [harts_hdr seen, answered.hdr_eq, modLink_hdr]
    exact (hdrOf_modHdr d pgHOST pgHOST _).trans (if_pos rfl)

/-- In STARTUP every request is answered with Busy (R68). -/
theorem spdmRequest_busy (mode : d.sys.mode = .startup) : Completes .spdmRequest s [.host, .hdr, .harts] fun t =>
    linkOf t 0 = { linkOf d 0 with doeReq := none, doeResp := true } ∧ linkOf t 1 = linkOf d 1
    ∧ ∃ rest, t.out = .doe 0 (.error 0x03) :: rest := by
  have go : spdmGo 0 r (doeTaken d) = doeAnswer 0 (.error spBUSY) (modLink (doeTaken d) 0 id) := if_pos mode
  obtain ⟨t, run, keeps, link, other, out, -⟩ := spdmRequest_answers b req trap (.inl mode) go
  exact ⟨t, run, keeps, link, other, out⟩

end

/-- In SERVICE a request is answered as the responder runs it. -/
theorem spdmGo_service {d : Dev} {r : SpdmReq} {x : SpdmResp} {e : Dev} (mode : d.sys.mode = .service)
    (serves : spdmServes .service r = true) (run : spdmRun 0 r (doeTaken d) = (x, e)) :
    spdmGo 0 r (doeTaken d) = doeAnswer 0 x e := by
  have taken : (doeTaken d).sys.mode = .service := mode
  unfold spdmGo
  rw [taken, run]
  simp [serves]

/-- A link on which no chunks are under way. -/
def chunksGone (k : LinkSt) : LinkSt := { k with chunkIn := none, chunkOut := none }

/-- GET_VERSION begins the negotiation anew (R59). -/
theorem spdmRun_getVersion {d : Dev} (fits : (linkOf d 0).xfer = 0 ∨ 8 ≤ (linkOf d 0).xfer) :
    spdmRun 0 .getVersion d
      = (.version [0x12, 0x13], modLink d 0 fun k => { chunksGone k with spdmVer := 0, spdmAlg := false }) := by
  simp [spdmRun, spdmOne, linkOf_modLink, respLen, fits, modLink_modLink, chunksGone]

/-- GET_CAPABILITIES of a version that the responder knows (R59). -/
theorem spdmRun_getCapabilities {d : Dev} {v n : Nat} (known : 0x12 ≤ v) (fits : n = 0 ∨ 8 ≤ n) :
    spdmRun 0 (.getCapabilities v n) d
      = (.capabilities (min v 0x13) spdmFlags,
         modLink d 0 fun k => { chunksGone k with spdmVer := min v 0x13, spdmAlg := false, xfer := n }) := by
  have new : ¬v < 0x12 := by omega
  simp [spdmRun, spdmOne, new, linkOf_modLink, respLen, fits, modLink_modLink, chunksGone]

/-- What a measurement holds does not hang on the mailbox. -/
theorem measBlock_modLink (d : Dev) (f : LinkSt → LinkSt) (i : Nat) : measBlock (modLink (doeTaken d) 0 f) i = measBlock d i := rfl

theorem spdmSign_modLink (d : Dev) (f : LinkSt → LinkSt) : spdmSign 0 (modLink (doeTaken d) 0 f) = spdmSign 0 d := rfl

/-- One measurement, signed as the request asks (R60, R61). -/
theorem spdmOne_getMeasurements {d : Dev} {f : LinkSt → LinkSt} {i : Nat} {sign : Bool} {nonce : Bytes}
    (alg : (f (linkOf d 0)).spdmAlg = true) (lo : 1 ≤ i) (hi : i ≤ 7) :
    spdmOne 0 (.getMeasurements i sign nonce) (modLink (doeTaken d) 0 f)
      = (.measurements [(i, measBlock d i)] nonce (if sign = true then some (spdmSign 0 d) else none), modLink (doeTaken d) 0 f) := by
  have alg' : (linkOf (modLink (doeTaken d) 0 f) 0).spdmAlg = true := alg
  have some' : i ≠ 0 := by omega
  have notAll : i ≠ 0xFF := by omega
  simp only [spdmOne, alg', some', notAll, hi, measBlock_modLink, spdmSign_modLink]
  rfl

/-- GET_MEASUREMENTS ends what chunks are under way, and leaves whole or in chunks (R59). -/
theorem spdmRun_getMeasurements_eq (i : Nat) (sign : Bool) (nonce : Bytes) (d : Dev) :
    spdmRun 0 (.getMeasurements i sign nonce) d =
      let y := spdmOne 0 (.getMeasurements i sign nonce) (modLink d 0 chunksGone)
      if (linkOf y.2 0).xfer = 0 || respLen y.1 ≤ (linkOf y.2 0).xfer then y
      else (.largeResponse (linkOf d 0).nextLarge, modLink y.2 0 fun k => { k with
        chunkOut := some ((linkOf d 0).nextLarge, 0, y.1), nextLarge := ((linkOf d 0).nextLarge + 1) % 256 }) := rfl

section
variable {d : Dev} {i : Nat} {sign : Bool} {nonce : Bytes} {x : SpdmResp} (alg : (linkOf d 0).spdmAlg = true) (lo : 1 ≤ i) (hi : i ≤ 7)
  (hx : x = .measurements [(i, measBlock d i)] nonce (if sign = true then some (spdmSign 0 d) else none))
include alg lo hi hx

/-- A response within the requester's data transfer size leaves whole (R59). -/
theorem spdmRun_getMeasurements (fits : (linkOf d 0).xfer = 0 ∨ respLen x ≤ (linkOf d 0).xfer) :
    spdmRun 0 (.getMeasurements i sign nonce) (doeTaken d) = (x, modLink (doeTaken d) 0 chunksGone) := by
  have one := spdmOne_getMeasurements (f := chunksGone) (sign := sign) (nonce := nonce) alg lo hi
  rw [← hx] at one
  have size : (linkOf (modLink (doeTaken d) 0 chunksGone) 0).xfer = (linkOf d 0).xfer := rfl
  rw [spdmRun_getMeasurements_eq, one]
  dsimp only
  rw [size, if_pos (by simpa using fits)]

/-- A longer one is asked for in chunks (R59). -/
theorem spdmRun_getMeasurements_large (some' : (linkOf d 0).xfer ≠ 0) (long : (linkOf d 0).xfer < respLen x) :
    spdmRun 0 (.getMeasurements i sign nonce) (doeTaken d)
      = (.largeResponse (linkOf d 0).nextLarge, modLink (doeTaken d) 0 fun k => { chunksGone k with
          chunkOut := some ((linkOf d 0).nextLarge, 0, x), nextLarge := ((linkOf d 0).nextLarge + 1) % 256 }) := by
  have one := spdmOne_getMeasurements (f := chunksGone) (sign := sign) (nonce := nonce) alg lo hi
  rw [← hx] at one
  have size : (linkOf (modLink (doeTaken d) 0 chunksGone) 0).xfer = (linkOf d 0).xfer := rfl
  rw [spdmRun_getMeasurements_eq, one]
  dsimp only
  rw [size, if_neg (by simp [some', long]), modLink_modLink]
  rfl

end

section
variable {d : Dev} {h n : Nat} {x : SpdmResp} (out : (linkOf d 0).chunkOut = some (h, n, x))
include out

/-- The last chunk of a response (R59). -/
theorem spdmRun_chunkGet_last (last : respLen x ≤ (n + 1) * (linkOf d 0).xfer) :
    spdmRun 0 (.chunkGet h n) d = (.chunkEnd h n x, modLink d 0 fun k => { k with chunkOut := none }) := by
  simp [spdmRun, out, last]

/-- A chunk that others follow (R59). -/
theorem spdmRun_chunkGet_more (more : (n + 1) * (linkOf d 0).xfer < respLen x) :
    spdmRun 0 (.chunkGet h n) d = (.chunk h n, modLink d 0 fun k => { k with chunkOut := some (h, n + 1, x) }) := by
  simp [spdmRun, out, Nat.not_le.mpr more]

end

/-! ## SMBus -/

section
variable {s : State} {d : Dev} {n : Nat} (b : Begins s d)
include b

/-- The first thing to leave in a command. -/
theorem emit_first (x : OutEv) {e : Dev} (quiet : e.out = d.out) : (emit x e).out = [x] := by
  change e.out ++ [x] = [x]
  rw [quiet, begins_out b, List.nil_append]

/-- An answer that changes nothing. -/
theorem completes_emit {c : Instr} {x : OutEv} {f : Dev → Dev} (run : exec c s = runDev s f) (he : f d = emit x d) :
    Completes c s [] fun t => t.out = [x] :=
  completes_runDev b run he b.2 (fun p _ => by cases p <;> rfl) (emit_first b x rfl)

/-- An answer that changes the attachment besides. -/
theorem completes_emit_host {c : Instr} {x : OutEv} {h : HostSt} {f : Dev → Dev} (run : exec c s = runDev s f)
    (he : f d = emit x { d with host := h }) : Completes c s [.host] fun t => t.host = h ∧ t.out = [x] :=
  completes_runDev b run he b.2
    (fun _ hp => same_onlyHost (a := d) (b := emit x { d with host := h }) rfl hp) ⟨rfl, emit_first b x rfl⟩

variable (serves : smbServes d = true)
include serves

omit serves in
/-- An SMBus request at another address is not answered (R72). -/
theorem smbusRequest_elsewhere {m : Nat} (q : SmbReq) (other : m ≠ fld d pgHOST Reg.HOST_SMB_ADDR_ADDR) :
    Completes (.smbusRequest ⟨m, q⟩) s [] fun t => t.out = [] := by
  refine completes_runDev b (Eq.refl (execSmbusRequest ⟨m, q⟩ s)) (e := d) ?_ b.2 (fun p _ => same_refl d p) (begins_out b)
  simp [other]

/-- The alert response (R73). -/
theorem alertResponseRead_completes (alert : d.host.alert = true) (on : stopped d.sys.mode = false) :
    Completes .alertResponseRead s [.host] fun t => t.host = { d.host with alert := false } ∧ t.out = [.alertN false] :=
  completes_emit_host b (Eq.refl (execAlertResponseRead s)) (by simp [serves, alert, on])

variable (addr : n = fld d pgHOST Reg.HOST_SMB_ADDR_ADDR)
include addr

theorem smbusRequest_setEid (e : Nat) :
    Completes (.smbusRequest ⟨n, .setEid e⟩) s [.host] fun t => t.host = { d.host with eid := e % 256 } ∧ t.out = [.smb 0] :=
  completes_emit_host b (Eq.refl (execSmbusRequest ⟨n, .setEid e⟩ s)) (by simp [serves, addr])

theorem smbusRequest_eventConfig (on : Bool) :
    Completes (.smbusRequest ⟨n, .eventConfig on⟩) s [.host] fun t => t.host = { d.host with pldmEvents := on } ∧ t.out = [.smb 0] :=
  completes_emit_host b (Eq.refl (execSmbusRequest ⟨n, .eventConfig on⟩ s)) (by simp [serves, addr])

theorem smbusRequest_unknown : Completes (.smbusRequest ⟨n, .other⟩) s [] fun t => t.out = [.smbRefused] :=
  completes_emit b (Eq.refl (execSmbusRequest ⟨n, .other⟩ s)) (by simp [serves, addr])

/-- A sensor that measures nothing itself is read, or there is none of that number (R72). -/
theorem smbusRequest_sensor {id : Nat} (val : Int) (notPower : id ≠ 2) :
    Completes (.smbusRequest ⟨n, .sensor id val⟩) s [] fun t => t.out = match smbSensor d id val with
      | some v => [.smb v]
      | none => [.smbRefused] := by
  cases reading : smbSensor d id val with
  | some v =>
    exact completes_emit b (Eq.refl (execSmbusRequest ⟨n, .sensor id val⟩ s)) (by simp [serves, addr, reading, notPower])
  | none => exact completes_emit b (Eq.refl (execSmbusRequest ⟨n, .sensor id val⟩ s)) (by simp [serves, addr, reading])

/-- The reading of input power is what the block knows of it from then on (R72). -/
theorem smbusRequest_inputPower (val : Nat) : Completes (.smbusRequest ⟨n, .sensor 2 val⟩) s [.sup] fun t =>
    t.out = [.smb val] ∧ t.sup = { d.sup with inputPower := min 65535 (100 * val) } := by
  refine completes_runDev b (Eq.refl (execSmbusRequest ⟨n, .sensor 2 val⟩ s))
    (e := emit (.smb val) { d with sup := { d.sup with inputPower := min 65535 (100 * val) } }) ?_ b.2 (fun p hp => ?_)
    ⟨emit_first b _ rfl, rfl⟩
  · simp [serves, addr, smbSensor]
  · cases p <;> simp_all [Part.same, emit]

end

/-- Settles O39: the mailbox by `doeAnswer` and its event, the responder by what `spdmRun` answers to each request, the SMBus request by
request. -/
theorem messageCommands : Obligations.MessageCommands := by
  unfold Obligations.MessageCommands
  intro s d b
  refine ⟨fun l hl serves up => ⟨fun i => doeRequest_discovery b hl serves up i, fun r => doeRequest_tooLong b up,
      fun r => doeRequest_waits b hl serves up, doeAbort_completes b hl serves up⟩,
    fun r req trap => ⟨spdmRequest_busy b req trap, fun mode => ⟨?_, ?_, ?_, ?_⟩⟩,
    fun n serves addr => ⟨fun m q other => smbusRequest_elsewhere b q (addr ▸ other), smbusRequest_setEid b serves addr,
      smbusRequest_eventConfig b serves addr, fun id val => smbusRequest_sensor b serves addr val, smbusRequest_inputPower b serves addr,
      smbusRequest_unknown b serves addr, alertResponseRead_completes b serves⟩⟩
  · rintro rfl fits
    exact spdmRequest_answers b req trap (.inr mode) (spdmGo_service mode rfl (spdmRun_getVersion (d := doeTaken d) fits))
  · rintro v n rfl known fits
    obtain ⟨t, run, keeps, link, -, out, -⟩ := spdmRequest_answers b req trap (.inr mode)
      (spdmGo_service mode rfl (spdmRun_getCapabilities (d := doeTaken d) known fits))
    exact ⟨t, run, keeps, link, out⟩
  · rintro i sign nonce x rfl alg lo hi hx
    refine ⟨fun fits => ?_, fun some' long => ?_⟩
    · obtain ⟨t, run, keeps, link, -, out, -⟩ := spdmRequest_answers b req trap (.inr mode)
        (spdmGo_service mode rfl (spdmRun_getMeasurements alg lo hi hx fits))
      exact ⟨t, run, keeps, link, out⟩
    · obtain ⟨t, run, keeps, link, -, out, -⟩ := spdmRequest_answers b req trap (.inr mode)
        (spdmGo_service mode rfl (spdmRun_getMeasurements_large alg lo hi hx some' long))
      exact ⟨t, run, keeps, link, out⟩
  · rintro h n x rfl waiting
    refine ⟨fun last => ?_, fun more => ?_⟩
    · obtain ⟨t, run, keeps, link, -, out, -⟩ := spdmRequest_answers b req trap (.inr mode)
        (spdmGo_service mode rfl (spdmRun_chunkGet_last (d := doeTaken d) waiting last))
      exact ⟨t, run, keeps, link, out⟩
    · obtain ⟨t, run, keeps, link, -, out, -⟩ := spdmRequest_answers b req trap (.inr mode)
        (spdmGo_service mode rfl (spdmRun_chunkGet_more (d := doeTaken d) waiting more))
      exact ⟨t, run, keeps, link, out⟩

end Sys2Proof.Proofs
end

section
/-! What a reset of functions touches (R65, R66): no link's own state, and no page's interrupt enables. -/

open Sys2Proof Sys2Proof.Machine

namespace Sys2Proof.Proofs

/-- At most what a reset of functions touches has changed; links and interrupt enables stand as before. -/
def OnlyReset (a b : Dev) : Prop :=
  b = { a with
    host := { a.host with fns := b.host.fns }, regs := b.regs, hdr := b.hdr, shadow := b.shadow, cmd := b.cmd, units := b.units
    key := b.key, ofc := b.ofc, mgr := b.mgr, out := b.out }
  ∧ ∀ p, (hdrOf b p).irqEn = (hdrOf a p).irqEn

theorem onlyReset_refl (a : Dev) : OnlyReset a a := ⟨rfl, fun _ => rfl⟩

theorem onlyReset_trans {a b c : Dev} (h : OnlyReset a b) (g : OnlyReset b c) : OnlyReset a c := by
  obtain ⟨only, enables⟩ := h
  obtain ⟨only', enables'⟩ := g
  refine ⟨?_, fun p => (enables' p).trans (enables p)⟩
  rw [only] at only'
  exact only'

theorem onlyReset_foldl {α : Type} {f : Dev → α → Dev} (step : ∀ d x, OnlyReset d (f d x)) (l : List α) (d : Dev) :
    OnlyReset d (l.foldl f d) :=
  foldl_rel onlyReset_refl onlyReset_trans f step l d

theorem linkOf_onlyReset {a b : Dev} (h : OnlyReset a b) (l : Nat) : linkOf b l = linkOf a l := by
  unfold linkOf
  rw [h.1]

theorem mode_onlyReset {a b : Dev} (h : OnlyReset a b) : b.sys = a.sys := by
  rw [h.1]

/-! ## Page events -/

theorem irqEn_raiseEv (p n q : Nat) (d : Dev) : (hdrOf (raiseEv p n d) q).irqEn = (hdrOf d q).irqEn := by
  cases h : pageKind p with
  | none =>
    unfold raiseEv
    rw [h]
  | some k =>
    rw [hdrOf_raiseEv d p n q k h]
    split
    · rename_i c
      rw [c.1]
    · rfl

theorem raiseEv_onlyReset (p n : Nat) (d : Dev) : OnlyReset d (raiseEv p n d) := by
  refine ⟨?_, fun q => irqEn_raiseEv p n q d⟩
  have only := raiseEv_onlyRaised p n d
  unfold OnlyRaised at only
  rw [only]

theorem mgrEvent_onlyReset (kind i : Nat) (d : Dev) : OnlyReset d (mgrEvent kind i d) := by
  unfold mgrEvent
  split
  · exact ⟨rfl, fun _ => rfl⟩
  · exact onlyReset_trans (b := modMgr _ d) ⟨rfl, fun _ => rfl⟩ (raiseEv_onlyReset pgMGR 0 _)

theorem jobBoundary_onlyReset (p : Nat) (d : Dev) : OnlyReset d (jobBoundary p d) := by
  refine ⟨?_, fun q => by rw [hdrOf_jobBoundary]⟩
  rw [jobBoundary_only]

/-! ## A command that is discarded -/

theorem endedClear_onlyReset (n : Nat) (d : Dev) : OnlyReset d (endedClear n d) := by
  unfold endedClear
  refine onlyReset_trans (b := t0Evict n (modKey (fun k => { k with ended := smapSet noneAt k.ended n none }) d)) ?_
    (onlyReset_foldl (fun e x => ?_) _ _)
  · unfold t0Evict
    split <;> exact ⟨rfl, fun _ => rfl⟩
  · unfold extFree
    split <;> exact ⟨rfl, fun _ => rfl⟩

theorem settleEnded_onlyReset (ns : List Nat) (d : Dev) : OnlyReset d (settleEnded ns d) := by
  unfold settleEnded
  refine onlyReset_foldl (fun e n => ?_) ns d
  split
  · exact endedClear_onlyReset n e
  · exact onlyReset_refl e

theorem leave_onlyReset (n : Nat) (d : Dev) : OnlyReset d (leave n d) := by
  have left : OnlyReset d (modKey (fun k => { k with flight := smapSet zeroAt k.flight n (flightOf d n - 1) }) d) := ⟨rfl, fun _ => rfl⟩
  unfold leave
  dsimp only
  split
  · exact onlyReset_trans left (endedClear_onlyReset n _)
  · exact left

theorem freeUnits_onlyReset (tag : Nat) (d : Dev) : OnlyReset d (freeUnits tag d) := by
  unfold freeUnits
  refine onlyReset_trans (settleEnded_onlyReset _ d) (onlyReset_trans (b := { settleEnded _ d with units := _ }) ⟨rfl, fun _ => rfl⟩
    (onlyReset_foldl (fun e i => ?_) _ _))
  split
  · exact onlyReset_refl e
  · exact jobBoundary_onlyReset _ e

theorem discardCmd_onlyReset (c : Cmd) (d : Dev) : OnlyReset d (discardCmd c d) := by
  have left : OnlyReset d (c.counted.foldl (fun d n => leave n d) d) := onlyReset_foldl (fun e n => leave_onlyReset n e) _ d
  have freed : ∀ e, OnlyReset e (ticketFree c.tickets e) := fun e => by
    have only := ticketFree_only e c.tickets
    unfold OnlyOfc at only
    refine ⟨?_, fun p => ?_⟩ <;> rw [only]
    rfl
  have dropped : ∀ e, OnlyReset e (dropCmd c.tag e) := fun _ => ⟨rfl, fun _ => rfl⟩
  have unread : ∀ e, OnlyReset e (dropReads c.tag e) := fun _ => ⟨rfl, fun _ => rfl⟩
  exact onlyReset_trans left (onlyReset_trans (freed _) (onlyReset_trans (dropped _)
    (onlyReset_trans (freeUnits_onlyReset c.tag _) (unread _))))

/-! ## Functions and links -/

theorem instCut_onlyReset (i : Nat) (d : Dev) : OnlyReset d (instCut i d) := by
  have dropped : OnlyReset d (dropFetches (fetchesOf i) d) := ⟨rfl, fun _ => rfl⟩
  unfold instCut
  generalize dropFetches (fetchesOf i) d = e at dropped
  have discarded := onlyReset_foldl (fun e c => discardCmd_onlyReset c e) (e.cmd.cmds.filter fun c => c.inst = i && waitsHost e c) e
  exact onlyReset_trans dropped (onlyReset_trans discarded ⟨rfl, fun _ => rfl⟩)

theorem funcReset_onlyReset (l n : Nat) (d : Dev) : OnlyReset d (funcReset l n d) := by
  have cleared : OnlyReset d (modFn d l n fun f => { f with msix := [] }) := ⟨rfl, fun _ => rfl⟩
  unfold funcReset
  dsimp only
  split
  · exact cleared
  · split
    · exact onlyReset_trans cleared (onlyReset_trans (instCut_onlyReset _ _) (mgrEvent_onlyReset 4 _ _))
    · exact cleared

theorem funcsReset_onlyReset (l : Nat) (ns : List Nat) (d : Dev) : OnlyReset d (funcsReset l ns d) :=
  onlyReset_trans (onlyReset_foldl (fun e n => funcReset_onlyReset l n e) ns d) (raiseEv_onlyReset pgHOST 4 _)

theorem setFld_onlyReset (p : Nat) (f : Fld) (v : Nat) (d : Dev) : OnlyReset d (setFld d p f v) := ⟨rfl, fun _ => rfl⟩

theorem mgrEnd_onlyReset (code info val : Nat) (d : Dev) : OnlyReset d (mgrEnd code info val d) := by
  have result := onlyReset_trans (setFld_onlyReset pgMGR Reg.MGR_RESULT_CODE code d) (setFld_onlyReset pgMGR Reg.MGR_RESULT_INFO info _)
  have ended : ∀ e, OnlyReset e (modMgr (fun m => { m with busy := none }) e) := fun _ => ⟨rfl, fun _ => rfl⟩
  exact onlyReset_trans result (onlyReset_trans (setFld_onlyReset pgMGR Reg.MGR_RES_VAL_VAL val _)
    (onlyReset_trans (ended _) (mgrEvent_onlyReset 5 _ _)))

theorem mgrAbort_onlyReset (code : Nat) (d : Dev) : OnlyReset d (mgrAbort code d) := by
  have thawed : ∀ i, OnlyReset d (modInst i (fun x => { x with freezing := false }) d) := fun _ => ⟨rfl, fun _ => rfl⟩
  unfold mgrAbort
  split
  · exact onlyReset_trans (thawed _) (mgrEnd_onlyReset code 0 0 _)
  · exact onlyReset_refl d

theorem mgrPfReset_onlyReset (l : Nat) (d : Dev) : OnlyReset d (mgrPfReset l d) := by
  unfold mgrPfReset
  split
  · exact mgrAbort_onlyReset _ d
  · exact onlyReset_refl d

/-- A change of a link on both sides. -/
theorem onlyReset_modLink {a b : Dev} (l : Nat) (f : LinkSt → LinkSt) (h : OnlyReset a b) : OnlyReset (modLink a l f) (modLink b l f) := by
  obtain ⟨only, enables⟩ := h
  refine ⟨?_, fun p => ?_⟩
  · rw [only]
    unfold modLink
    split <;> rfl
  · unfold hdrOf at enables ⊢
    rw [modLink_hdr, modLink_hdr, enables]

/-- All functions of a link are reset, and the link forgets its state (R65). -/
theorem linkReset'_onlyReset (l : Nat) (d : Dev) :
    OnlyReset (modLink d l fun k => { linkReset with training := k.training }) (linkReset' l d) := by
  have functions := onlyReset_trans (funcsReset_onlyReset l (0 :: (List.range (linkOf d l).numVfs).map (· + 1)) d)
    (mgrPfReset_onlyReset l _)
  have link := onlyReset_modLink l (fun k => { linkReset with training := k.training })
    (onlyReset_modLink l (fun k => { k with vfEnable := false, numVfs := 0 }) functions)
  rw [modLink_modLink] at link
  exact onlyReset_trans link (setFld_onlyReset pgHOST Reg.HOST_RESET_CNT_LINK _ _)

/-- A link that is lost is as it was before boot, and no other link has changed (R65). -/
theorem linkLose_onlyReset (l : Nat) (d : Dev) : OnlyReset (modLink d l fun _ => linkReset) (linkLose l d) := by
  have regs : ∀ e, OnlyReset e (linkRegs l 0 0 false e) := fun e =>
    onlyReset_trans (setFld_onlyReset pgHOST _ 0 e) (onlyReset_trans (setFld_onlyReset pgHOST _ 0 _) (setFld_onlyReset pgHOST _ _ _))
  have down := onlyReset_modLink l (fun k => { k with training := false }) (onlyReset_trans (linkReset'_onlyReset l d) (regs _))
  rw [modLink_modLink] at down
  unfold linkLose
  dsimp only
  split
  · exact onlyReset_trans down (raiseEv_onlyReset pgHOST _ _)
  · exact down

theorem linkOf_linkLose (l m : Nat) (d : Dev) : linkOf (linkLose l d) m = if m = 0 ↔ l = 0 then linkReset else linkOf d m := by
  rw [linkOf_onlyReset (linkLose_onlyReset l d), linkOf_modLink]

/-! ## The parts that a reset of functions or of a link touches -/

/-- At most the parts of `linkParts` have changed, and not when HOST_RESET_N was released. -/
def OnlyLinks (a b : Dev) : Prop :=
  b = { a with
    host := b.host, regs := b.regs, hdr := b.hdr, shadow := b.shadow, cmd := b.cmd, units := b.units, key := b.key, ofc := b.ofc
    mgr := b.mgr, out := b.out }
  ∧ b.host.rstUpAt = a.host.rstUpAt

theorem onlyLinks_refl (a : Dev) : OnlyLinks a a := ⟨rfl, rfl⟩

theorem onlyLinks_trans {a b c : Dev} (h : OnlyLinks a b) (g : OnlyLinks b c) : OnlyLinks a c := by
  obtain ⟨only, up⟩ := h
  obtain ⟨only', up'⟩ := g
  refine ⟨?_, up'.trans up⟩
  rw [only] at only'
  exact only'

theorem onlyReset_onlyLinks {a b : Dev} (h : OnlyReset a b) : OnlyLinks a b := by
  constructor <;> rw [h.1]

theorem modLink_onlyLinks (d : Dev) (l : Nat) (f : LinkSt → LinkSt) : OnlyLinks d (modLink d l f) := by
  unfold modLink
  split <;> exact ⟨rfl, rfl⟩

theorem linkLose_onlyLinks (l : Nat) (d : Dev) : OnlyLinks d (linkLose l d) :=
  onlyLinks_trans (modLink_onlyLinks d l _) (onlyReset_onlyLinks (linkLose_onlyReset l d))

theorem same_onlyLinks {a b : Dev} (h : OnlyLinks a b) {p : Part} (hp : p ∉ linkParts) : p.same a b := by
  rw [h.1]
  cases p <;> simp_all [Part.same, linkParts]

/-- No drain was under way, so none has ended. -/
theorem hostSettle_still {a b : Dev} (h : OnlyLinks a b) (still : a.sys.draining = none) : hostSettle b = b := by
  have still' : b.sys.draining = none := by rw [h.1, ← still]
  unfold hostSettle drainStep
  rw [still']

/-- A command that touches these parts completes. -/
theorem completes_onlyLinks {c : Instr} {s : State} {d e : Dev} {q : Dev → Prop} {f : Dev → Dev} (b : Begins s d)
    (run : exec c s = runDev s f) (still : d.sys.draining = none) (only : OnlyLinks d e) (he : f d = hostSettle e) (hq : q e) :
    Completes c s linkParts q := by
  rw [hostSettle_still only still] at he
  refine completes_runDev b run he ?_ (fun p hp => same_onlyLinks only hp) hq
  rw [only.1]
  exact b.2

end Sys2Proof.Proofs
end


section
/-! Links go up and down, and the USB4 port with them (R47, R65-R71). -/

open Sys2Proof Sys2Proof.Machine

namespace Sys2Proof.Proofs

/-! ## Fields that hardware writes -/

/-- A field of another register. -/
theorem fld_setFld_other (d : Dev) (p : Nat) (f g : Fld) (v : Nat) (other : f.off / 4 ≠ g.off / 4) :
    fld (setFld d p g v) p f = fld d p f := by
  unfold fld
  rw [regGet_setFld_other d v]
  unfold regKey
  omega

theorem regGet_setFld_page (d : Dev) {p q off : Nat} {f : Fld} (v : Nat) (hoff : off < 0x1000) (hf : f.off < 0x1000)
    (hp : p < 0x1000) (h : q % 0x1000 ≠ p) : regGet (setFld d p f v) q off = regGet d q off := by
  refine regGet_setFld_other d v (regKey_ne_page hoff hf fun e => h ?_)
  rw [e, Nat.mod_eq_of_lt hp]

/-- An event is seen against what went before, where that has left the headers alone. -/
theorem eventAt_hdr {p n : Nat} {a a' b : Dev} (h : a'.hdr = a.hdr) (event : eventAt p n a' b) : eventAt p n a b := by
  unfold eventAt hdrsBut hdrOf at *
  rwa [h] at event

/-- At most fields, events and what an event sends have changed. -/
def OnlyFields (a b : Dev) : Prop :=
  b = { a with host := { a.host with fns := b.host.fns }, regs := b.regs, hdr := b.hdr, out := b.out }

theorem onlyFields_trans {a b c : Dev} (h : OnlyFields a b) (g : OnlyFields b c) : OnlyFields a c := by
  unfold OnlyFields at *
  rw [h] at g
  exact g

theorem setFld_onlyFields (p : Nat) (f : Fld) (v : Nat) (d : Dev) : OnlyFields d (setFld d p f v) := rfl

theorem raiseEv_onlyFields (p n : Nat) (d : Dev) : OnlyFields d (raiseEv p n d) := by
  have only := raiseEv_onlyRaised p n d
  unfold OnlyRaised at only
  unfold OnlyFields
  rw [only]

/-! ## LINK_TRAINING and LINK_UP -/

theorem fld_linkRegs {l w s : Nat} {flit : Bool} (hl : l < 2) (hw : w < 64) (hs : s < 16) (d : Dev) :
    holds (linkRegs l w s flit d) pgHOST (if l = 0 then
        [(Reg.HOST_LINK_A_WIDTH, w), (Reg.HOST_LINK_A_SPEED, s), (Reg.HOST_LINK_A_FLIT, b2n flit)]
      else [(Reg.HOST_LINK_B_WIDTH, w), (Reg.HOST_LINK_B_SPEED, s), (Reg.HOST_LINK_B_FLIT, b2n flit)]) := by
  have one : b2n flit < 2 := by cases flit <;> decide
  have fields : ∀ fw fs ff : Fld, InWord fw → InWord fs → InWord ff → fw.off = fs.off → fw.off = ff.off →
      fs.hi < fw.lo → fw.hi < ff.lo → w < 2 ^ (fw.hi + 1 - fw.lo) → s < 2 ^ (fs.hi + 1 - fs.lo) → 2 ≤ 2 ^ (ff.hi + 1 - ff.lo) →
      holds (setFld (setFld (setFld d pgHOST fw w) pgHOST fs s) pgHOST ff (b2n flit)) pgHOST [(fw, w), (fs, s), (ff, b2n flit)] := by
    intro fw fs ff iw is' if' os of low high hw hs hf x hx
    simp only [List.mem_cons, List.not_mem_nil, or_false] at hx
    have := iw.1
    have := is'.1
    obtain rfl | rfl | rfl := hx
    · rw [fld_setFld_beside _ _ _ iw if' of (.inr (by omega)), fld_setFld_beside _ _ _ iw is' os (.inl (by omega)),
        fld_setFld_same _ _ _ _ iw, Nat.mod_eq_of_lt hw]
    · rw [fld_setFld_beside _ _ _ is' if' (os ▸ of) (.inr (by omega)), fld_setFld_same _ _ _ _ is', Nat.mod_eq_of_lt hs]
    · rw [fld_setFld_same _ _ _ _ if', Nat.mod_eq_of_lt (by omega)]
  obtain rfl | rfl : l = 0 ∨ l = 1 := by omega
  · exact fields Reg.HOST_LINK_A_WIDTH Reg.HOST_LINK_A_SPEED Reg.HOST_LINK_A_FLIT ⟨by decide, by decide⟩ ⟨by decide, by decide⟩
      ⟨by decide, by decide⟩ rfl rfl (by decide) (by decide) hw hs (by decide)
  · exact fields Reg.HOST_LINK_B_WIDTH Reg.HOST_LINK_B_SPEED Reg.HOST_LINK_B_FLIT ⟨by decide, by decide⟩ ⟨by decide, by decide⟩
      ⟨by decide, by decide⟩ rfl rfl (by decide) (by decide) hw hs (by decide)

theorem pagesBut_linkRegs (l w s : Nat) (flit : Bool) (d : Dev) : pagesBut [pgHOST] d (linkRegs l w s flit d) := by
  intro q off hq hoff
  have other : q % 0x1000 ≠ pgHOST := by simpa using hq
  unfold linkRegs
  rw [regGet_setFld_page _ _ hoff (by split <;> decide) (by decide) other,
    regGet_setFld_page _ _ hoff (by split <;> decide) (by decide) other,
    regGet_setFld_page _ _ hoff (by split <;> decide) (by decide) other]

/-- A width and a speed that a link can have (R47, R50). -/
theorem linkInfoOk_bounds {d : Dev} {l : Nat} {i : LinkInfo} (h : linkInfoOk d l i = true) : i.width < 64 ∧ i.speed < 16 := by
  simp only [linkInfoOk, Bool.and_eq_true, List.contains_iff_mem, List.mem_cons, List.not_mem_nil, or_false, decide_eq_true_eq] at h
  omega

theorem linkRegs_onlyFields (l w s : Nat) (flit : Bool) (d : Dev) : OnlyFields d (linkRegs l w s flit d) :=
  onlyFields_trans (setFld_onlyFields pgHOST _ w d) (onlyFields_trans (setFld_onlyFields pgHOST _ s _) (setFld_onlyFields pgHOST _ _ _))

theorem linkRegs_hdr (l w s : Nat) (flit : Bool) (d : Dev) : (linkRegs l w s flit d).hdr = d.hdr := by
  unfold linkRegs
  simp only [setFld_hdr]

/-- What a link that comes up does: its state, and its event. -/
def linkRise (l : Nat) (d : Dev) : Dev :=
  raiseEv pgHOST (if l = 0 then 0 else 2) (modLink d l fun k => { k with up := true, training := false })

theorem linkRise_only (l : Nat) (d : Dev) : OnlyEvent d (linkRise l d) :=
  (modLink_only d l _).event.trans (raiseEv_only _ pgHOST _)

theorem linkOf_linkRise (l m : Nat) (d : Dev) :
    linkOf (linkRise l d) m = if m = 0 ↔ l = 0 then { linkOf d l with up := true, training := false } else linkOf d m := by
  unfold linkRise
  rw [linkOf_onlyRaised (raiseEv_onlyRaised pgHOST _ _), linkOf_modLink]

theorem regGet_linkRise (l : Nat) (d : Dev) (p off : Nat) : regGet (linkRise l d) p off = regGet d p off := by
  unfold regGet
  rw [linkRise_only l d]

theorem eventAt_linkRise (l : Nat) (d : Dev) : eventAt pgHOST (if l = 0 then 0 else 2) d (linkRise l d) :=
  eventAt_hdr (modLink_hdr d l _) (eventAt_raiseEv rfl rfl _ _)

theorem same_regsEvent {a b : Dev} (h : b = { a with host := b.host, regs := b.regs, hdr := b.hdr, out := b.out }) {p : Part}
    (hp : p ∉ [Part.host, .regs, .hdr]) : p.same a b := by
  rw [h]
  cases p <;> simp_all [Part.same]

section
variable {s : State} {d : Dev} {l : Nat} (b : Begins s d) (hl : l < 2) (on : dieOn d.sys.mode = true)
  (lanes : linkInMode (portMode d) l = true) (down : (linkOf d l).up = false)
include b hl on lanes down

/-- LINK_TRAINING, 1 ms after the release of HOST_RESET_N (R67). -/
theorem linkTraining_completes (power : d.sup.p12vGood = true) (enabled : (hdrOf d pgHOST).enable = true) (pcie : linkIsUsb d l = false) :
    Completes (.linkTraining l) s [.host, .now] fun t =>
      t.now = max d.now (max d.host.rstUpAt d.sup.goodSince + 1000000) ∧ linkOf t l = { linkOf d l with training := true }
      ∧ linkOf t (1 - l) = linkOf d (1 - l) := by
  have only := modLink_only (waitUntil (max d.host.rstUpAt d.sup.goodSince + 1000000) d) l fun k => { k with training := true }
  refine completes_runDev b (Eq.refl (execLinkTraining l s))
    (e := modLink (waitUntil (max d.host.rstUpAt d.sup.goodSince + 1000000) d) l fun k => { k with training := true })
    (by simp [hl, on, lanes, down, power, enabled, pcie]) ?_ (fun p hp => ?_) ⟨?_, ?_, linkOf_modLink_apart _ _ hl⟩
  · rw [only]
    exact b.2
  · rw [only]
    cases p <;> simp_all [Part.same, waitUntil]
  · rw [modLink_now]
    rfl
  · rw [linkOf_modLink, if_pos Iff.rfl]
    rfl

omit on lanes down in
/-- LINK_UP, where what comes before the rise of the link touches registers and the event of a page (R47, R71). -/
theorem linkUp_completes {info : LinkInfo} {x : Dev} {q : Dev → Prop} {f : Dev → Dev} (run : exec (.linkUp l info) s = runDev s f)
    (he : f d = linkRise l x) (only : OnlyFields d x)
    (hq : q (linkRise l x)) :
    Completes (.linkUp l info) s [.host, .regs, .hdr] fun t =>
      linkOf t l = { linkOf d l with up := true, training := false } ∧ linkOf t (1 - l) = linkOf d (1 - l) ∧ q t := by
  have same : ∀ m, linkOf x m = linkOf d m := fun m => by
    unfold linkOf
    rw [only]
  have risen := linkRise_only l x
  have links := fun m => linkOf_linkRise l m x
  generalize linkRise l x = t at *
  refine completes_runDev b run he ?_ (fun p hp => same_regsEvent ?_ hp) ⟨?_, ?_, hq⟩
  · rw [risen, only]
    exact b.2
  · rw [risen, only]
  · rw [links, if_pos Iff.rfl, same]
  · rw [links, if_neg (by omega), same]

/-- LINK_UP of a PCIe link that trains (R47). -/
theorem linkUp_pcie {info : LinkInfo} (pcie : linkIsUsb d l = false) (trains : (linkOf d l).training = true)
    (can : linkInfoOk d l info = true) : Completes (.linkUp l info) s [.host, .regs, .hdr] fun t =>
      linkOf t l = { linkOf d l with up := true, training := false } ∧ linkOf t (1 - l) = linkOf d (1 - l)
      ∧ holds t pgHOST (if l = 0 then
          [(Reg.HOST_LINK_A_WIDTH, info.width), (Reg.HOST_LINK_A_SPEED, info.speed), (Reg.HOST_LINK_A_FLIT, b2n info.flit)]
        else [(Reg.HOST_LINK_B_WIDTH, info.width), (Reg.HOST_LINK_B_SPEED, info.speed), (Reg.HOST_LINK_B_FLIT, b2n info.flit)])
      ∧ pagesBut [pgHOST] d t ∧ eventAt pgHOST (if l = 0 then 0 else 2) d t := by
  obtain ⟨width, speed⟩ := linkInfoOk_bounds can
  have held := fld_linkRegs (flit := info.flit) hl width speed d
  have pages := pagesBut_linkRegs l info.width info.speed info.flit d
  have only := linkRegs_onlyFields l info.width info.speed info.flit d
  have hdr := linkRegs_hdr l info.width info.speed info.flit d
  generalize hx : linkRegs l info.width info.speed info.flit d = x at held pages only hdr
  refine linkUp_completes b hl (Eq.refl (execLinkUp l info s)) (x := x) ?_ only ⟨fun f hf => ?_, fun q off hq hoff => ?_, ?_⟩
  · rw [if_neg (by simp [hl, on, lanes, down]), if_neg (by simp [pcie]), if_pos (by simp [trains, can]), hx]
    rfl
  · rw [← held f hf]
    exact congrArg (bits · _ _) (regGet_linkRise l _ _ _)
  · rw [regGet_linkRise, pages q off hq hoff]
  · exact eventAt_hdr hdr (eventAt_linkRise l x)

/-- The block as the tunnel of the USB4 port stands (R71, R76). -/
def tunnelStands (d : Dev) : Dev := raiseEv pgUSB4 2 (setFld (setFld d pgUSB4 Reg.USB4_STAT_TUNNEL 1) pgUSB4 Reg.USB4_STAT_ENUM 1)

omit b hl on lanes down in
theorem tunnelStands_regs (d : Dev) : holds (tunnelStands d) pgUSB4 [(Reg.USB4_STAT_TUNNEL, 1), (Reg.USB4_STAT_ENUM, 1)]
    ∧ pagesBut [pgUSB4] d (tunnelStands d) := by
  have raised := raiseEv_onlyRaised pgUSB4 2 (setFld (setFld d pgUSB4 Reg.USB4_STAT_TUNNEL 1) pgUSB4 Reg.USB4_STAT_ENUM 1)
  have tunnel : InWord Reg.USB4_STAT_TUNNEL := ⟨by decide, by decide⟩
  have enum : InWord Reg.USB4_STAT_ENUM := ⟨by decide, by decide⟩
  refine ⟨fun x hx => ?_, fun q off hq hoff => ?_⟩
  · unfold fld tunnelStands
    rw [regGet_onlyRaised raised]
    change fld _ pgUSB4 x.1 = x.2
    simp only [List.mem_cons, List.not_mem_nil, or_false] at hx
    obtain rfl | rfl := hx
    · rw [fld_setFld_beside _ _ _ tunnel enum rfl (.inl (by decide)), fld_setFld_same _ _ _ _ tunnel]
      rfl
    · rw [fld_setFld_same _ _ _ _ enum]
      rfl
  · have other : q % 0x1000 ≠ pgUSB4 := by simpa using hq
    unfold tunnelStands
    rw [regGet_onlyRaised raised, regGet_setFld_page _ _ hoff (by decide) (by decide) other,
      regGet_setFld_page _ _ hoff (by decide) (by decide) other]

omit b hl on lanes down in
theorem tunnelStands_onlyFields (d : Dev) : OnlyFields d (tunnelStands d) :=
  onlyFields_trans (setFld_onlyFields pgUSB4 _ 1 d) (onlyFields_trans (setFld_onlyFields pgUSB4 _ 1 _) (raiseEv_onlyFields pgUSB4 2 _))

/-- LINK_UP of the tunnel of an attached USB4 port (R71). -/
theorem linkUp_usb (info : LinkInfo) (usb : linkIsUsb d l = true) (attached : d.host.usbAttached = true) :
    Completes (.linkUp l info) s [.host, .regs, .hdr] fun t =>
      linkOf t l = { linkOf d l with up := true, training := false } ∧ linkOf t (1 - l) = linkOf d (1 - l)
      ∧ holds t pgUSB4 [(Reg.USB4_STAT_TUNNEL, 1), (Reg.USB4_STAT_ENUM, 1)] ∧ pagesBut [pgUSB4] d t ∧ hdrsBut [pgHOST, pgUSB4] d t := by
  obtain ⟨held, pages⟩ := tunnelStands_regs d
  have only := tunnelStands_onlyFields d
  have hdrs : hdrsBut [pgUSB4] d (tunnelStands d) :=
    (eventAt_hdr (by rw [setFld_hdr, setFld_hdr]) (eventAt_raiseEv (p := pgUSB4) rfl rfl 2 _)).2
  generalize hx : tunnelStands d = x at held pages only hdrs
  have other := (eventAt_linkRise l x).2
  have words := regGet_linkRise l x
  refine linkUp_completes b hl (Eq.refl (execLinkUp l info s)) (x := x) ?_ only ⟨fun f hf => ?_, fun q off hq hoff => ?_, fun q hq => ?_⟩
  · rw [if_neg (by simp [hl, on, lanes, down]), if_pos usb, if_pos attached, ← hx]
    rfl
  · rw [← held f hf]
    exact congrArg (bits · _ _) (words _ _)
  · rw [words, pages q off hq hoff]
  · obtain ⟨notHost, notUsb⟩ : q ≠ pgHOST ∧ q ≠ pgUSB4 := by simpa using hq
    rw [other q (by simpa using notHost), hdrs q (by simpa using notUsb)]

end

/-! ## LINK_DOWN, USB4_ATTACH and USB4_DETACH -/

theorem setFld_onlyLinks (d : Dev) (p : Nat) (f : Fld) (v : Nat) : OnlyLinks d (setFld d p f v) := ⟨rfl, rfl⟩

/-- LINK_DOWN (R65). -/
theorem linkDown_completes {s : State} {d : Dev} {l : Nat} (b : Begins s d) (hl : l < 2) (up : (linkOf d l).up = true)
    (still : d.sys.draining = none) : Completes (.linkDown l) s linkParts fun t =>
      (linkOf t l).up = false ∧ (linkOf t l).vfEnable = false ∧ (linkOf t l).sessions = [] ∧ (linkOf t l).ide = []
      ∧ (linkOf t (1 - l)).up = (linkOf d (1 - l)).up := by
  have lost := linkLose_onlyLinks l d
  have either : ∀ m, linkOf (if linkIsUsb (linkLose l d) l then tunnelGone (linkLose l d) else linkLose l d) m = linkOf (linkLose l d) m :=
    fun m => by split <;> rfl
  have this : linkOf (if linkIsUsb (linkLose l d) l then tunnelGone (linkLose l d) else linkLose l d) l = linkReset := by
    rw [either, linkOf_linkLose, if_pos Iff.rfl]
  refine completes_onlyLinks b (Eq.refl (execLinkDown l s)) still
    (e := if linkIsUsb (linkLose l d) l then tunnelGone (linkLose l d) else linkLose l d) ?_ (by simp [hl, up]) ?_
  · split
    · exact onlyLinks_trans lost (setFld_onlyLinks _ _ _ _)
    · exact lost
  · rw [this, either, linkOf_linkLose, if_neg (by omega)]
    exact ⟨rfl, rfl, rfl, rfl, rfl⟩

/-- The block as the USB4 port trains, before its events (R70). -/
def usbTrains (fast : Bool) (n : Nat) (d : Dev) : Dev :=
  satFld (setFld { d with host := { d.host with usbAttached := true } } pgUSB4 Reg.USB4_STAT_RATE (if fast then 2 else 1)) pgUSB4
    Reg.USB4_ERR_CNT_RETRAIN n

/-- The block once it has trained: a fallback is counted and told of (R70). -/
def usbTrained (fast : Bool) (n : Nat) (d : Dev) : Dev :=
  raiseEv pgUSB4 0 (if fast then usbTrains fast n d else raiseEv pgUSB4 3 (satFld (usbTrains fast n d) pgUSB4 Reg.USB4_ERR_CNT_FALLBACK 1))

theorem usbTrains_regs (fast : Bool) (n : Nat) (d : Dev) :
    fld (usbTrains fast n d) pgUSB4 Reg.USB4_STAT_RATE = (if fast then 2 else 1) ∧ pagesBut [pgUSB4] d (usbTrains fast n d) := by
  refine ⟨?_, fun q off hq hoff => ?_⟩
  · unfold usbTrains satFld
    rw [fld_setFld_other _ _ _ _ _ (by decide), fld_setFld_same _ _ _ _ ⟨by decide, by decide⟩]
    cases fast <;> rfl
  · have other : q % 0x1000 ≠ pgUSB4 := by simpa using hq
    unfold usbTrains satFld
    rw [regGet_setFld_page _ _ hoff (by decide) (by decide) other, regGet_setFld_page _ _ hoff (by decide) (by decide) other]
    rfl

/-- What the events and the count of a fallback leave as it is. -/
theorem usbTrained_spec (fast : Bool) (n : Nat) (d : Dev) :
    usbTrained fast n d = { usbTrains fast n d with
      host := { (usbTrains fast n d).host with fns := (usbTrained fast n d).host.fns }, regs := (usbTrained fast n d).regs
      hdr := (usbTrained fast n d).hdr, out := (usbTrained fast n d).out }
    ∧ fld (usbTrained fast n d) pgUSB4 Reg.USB4_STAT_RATE = (if fast then 2 else 1)
    ∧ pagesBut [pgUSB4] d (usbTrained fast n d) ∧ hdrsBut [pgUSB4] d (usbTrained fast n d) := by
  obtain ⟨rate, pages⟩ := usbTrains_regs fast n d
  have hdr : (usbTrains fast n d).hdr = d.hdr := rfl
  generalize hx : usbTrains fast n d = x at rate pages hdr
  have fallback : fld (satFld x pgUSB4 Reg.USB4_ERR_CNT_FALLBACK 1) pgUSB4 Reg.USB4_STAT_RATE = (if fast then 2 else 1) := by
    unfold satFld
    rw [fld_setFld_other _ _ _ _ _ (by decide), rate]
  have told := fun e => raiseEv_onlyRaised pgUSB4 0 e
  have event := fun e => (eventAt_raiseEv (p := pgUSB4) rfl rfl 0 e).2
  unfold usbTrained
  rw [hx]
  cases fast
  · have slow := raiseEv_onlyRaised pgUSB4 3 (satFld x pgUSB4 Reg.USB4_ERR_CNT_FALLBACK 1)
    have event3 := (eventAt_raiseEv (p := pgUSB4) rfl rfl 3 (satFld x pgUSB4 Reg.USB4_ERR_CNT_FALLBACK 1)).2
    simp only [Bool.false_eq_true, if_false]
    refine ⟨?_, ?_, fun q off hq hoff => ?_, fun q hq => ?_⟩
    · rw [told, slow]
      rfl
    · unfold fld
      rw [regGet_onlyRaised (told _), regGet_onlyRaised slow]
      exact fallback
    · rw [regGet_onlyRaised (told _), regGet_onlyRaised slow]
      unfold satFld
      rw [regGet_setFld_page _ _ hoff (by decide) (by decide) (by simpa using hq), pages q off hq hoff]
    · rw [event _ q hq, event3 q hq]
      unfold hdrOf
      rw [← hdr]
      rfl
  · simp only [if_true]
    refine ⟨?_, ?_, fun q off hq hoff => ?_, fun q hq => ?_⟩
    · rw [told]
    · unfold fld
      rw [regGet_onlyRaised (told _)]
      exact rate
    · rw [regGet_onlyRaised (told _), pages q off hq hoff]
    · rw [event _ q hq]
      unfold hdrOf
      rw [hdr]

/-- USB4_ATTACH (R70). -/
theorem usb4Attach_completes {s : State} {d : Dev} (b : Begins s d) (fast : Bool) (n : Nat) (on : dieOn d.sys.mode = true)
    (carries : linkIsUsb d 0 = true ∨ linkIsUsb d 1 = true) (port : fldB d pgUSB4 Reg.USB4_CFG_PORT_EN = true)
    (free : d.host.usbAttached = false) : Completes (.usb4Attach fast n) s [.host, .regs, .hdr] fun t =>
      t.host.usbAttached = true
      ∧ fld t pgUSB4 Reg.USB4_STAT_RATE = (if fast = true ∧ fldB d pgUSB4 Reg.USB4_CFG_FORCE_40 = false then 2 else 1)
      ∧ (∀ l, linkOf t l = linkOf d l) ∧ pagesBut [pgUSB4] d t ∧ hdrsBut [pgUSB4] d t := by
  obtain ⟨only, rate, pages, hdrs⟩ := usbTrained_spec (fast && !(fldB d pgUSB4 Reg.USB4_CFG_FORCE_40)) n d
  refine completes_runDev b (Eq.refl (execUsb4Attach fast n s))
    (e := usbTrained (fast && !(fldB d pgUSB4 Reg.USB4_CFG_FORCE_40)) n d) (by simp [on, carries, port, free, usbTrained, usbTrains]) ?_
    (fun p hp => same_regsEvent ?_ hp) ⟨?_, ?_, fun l => ?_, pages, hdrs⟩
  · rw [only]
    exact b.2
  · rw [only]
    rfl
  · rw [only]
    rfl
  · rw [rate]
    simp
  · unfold linkOf
    rw [only]
    rfl

/-- Nothing is attached to the port. -/
def portFree (d : Dev) : Dev := { d with host := { d.host with usbAttached := false } }

theorem portFree_onlyLinks (d : Dev) : OnlyLinks d (portFree d) := ⟨rfl, rfl⟩

theorem linkOf_portFree (d : Dev) (l : Nat) : linkOf (portFree d) l = linkOf d l := rfl

/-- The fields of the port as nothing is attached to it. -/
def portClear (d : Dev) : Dev := setFld (setFld (tunnelGone d) pgUSB4 Reg.USB4_STAT_RATE 0) pgUSB4 Reg.USB4_STAT_ENUM 0

theorem portClear_onlyLinks (d : Dev) : OnlyLinks d (portClear d) :=
  onlyLinks_trans (setFld_onlyLinks d pgUSB4 Reg.USB4_STAT_TUNNEL 0)
    (onlyLinks_trans (setFld_onlyLinks _ pgUSB4 Reg.USB4_STAT_RATE 0) (setFld_onlyLinks _ pgUSB4 Reg.USB4_STAT_ENUM 0))

theorem linkOf_portClear (d : Dev) (l : Nat) : linkOf (portClear d) l = linkOf d l := by
  unfold linkOf portClear tunnelGone
  simp only [setFld_host]

theorem usbGone_eq (d : Dev) : usbGone d = jobBoundary pgUSB4 (raiseEv pgUSB4 1 (portFree (portClear d))) := by
  unfold usbGone portFree portClear
  dsimp only

/-- A port that is detached: the links stand as before (R71, R76). -/
theorem usbGone_spec (d : Dev) :
    OnlyLinks d (usbGone d) ∧ (usbGone d).host.usbAttached = false ∧ ∀ l, linkOf (usbGone d) l = linkOf d l := by
  have idle := onlyLinks_trans (portClear_onlyLinks d) (portFree_onlyLinks _)
  have links := fun l => (linkOf_portFree (portClear d) l).trans (linkOf_portClear d l)
  have free : (portFree (portClear d)).host.usbAttached = false := rfl
  rw [usbGone_eq]
  generalize portFree (portClear d) = y at idle links free
  have told := onlyReset_trans (raiseEv_onlyReset pgUSB4 1 y) (jobBoundary_onlyReset pgUSB4 _)
  refine ⟨onlyLinks_trans idle (onlyReset_onlyLinks told), ?_, fun l => ?_⟩
  · rw [told.1]
    exact free
  · rw [linkOf_onlyReset told, links]

/-- Only one of the links is carried over USB4 (R47). -/
theorem linkIsUsb_one {d : Dev} (h : linkIsUsb d 1 = true) : linkIsUsb d 0 = false := by
  unfold linkIsUsb at *
  simp at *
  omega

/-- A link is lost where it is carried over USB4. -/
def loseUsb (l : Nat) (d : Dev) : Dev := if linkIsUsb d l then linkLose l d else d

theorem loseUsb_onlyLinks (l : Nat) (d : Dev) : OnlyLinks d (loseUsb l d) := by
  unfold loseUsb
  split
  · exact linkLose_onlyLinks l d
  · exact onlyLinks_refl d

/-- A link that has been lost stays lost. -/
theorem linkLose_lost {l m : Nat} {d : Dev} (lost : linkOf d m = linkReset) : linkOf (linkLose l d) m = linkReset := by
  rw [linkOf_linkLose, lost, ite_self]

theorem loseUsb_lost {l m : Nat} {d : Dev} (lost : linkOf d m = linkReset) : linkOf (loseUsb l d) m = linkReset := by
  unfold loseUsb
  split
  · exact linkLose_lost lost
  · exact lost

theorem loseUsb_usb {l : Nat} {d : Dev} (usb : linkIsUsb d l = true) : linkOf (loseUsb l d) l = linkReset := by
  unfold loseUsb
  rw [if_pos usb, linkOf_linkLose, if_pos Iff.rfl]

/-- USB4_DETACH (R65, R71). -/
theorem usb4Detach_completes {s : State} {d : Dev} (b : Begins s d) (attached : d.host.usbAttached = true) (still : d.sys.draining = none) :
    Completes .usb4Detach s linkParts fun t =>
      t.host.usbAttached = false ∧ (∀ l, l < 2 → linkIsUsb d l = true → (linkOf t l).up = false ∧ (linkOf t l).sessions = []) := by
  obtain ⟨only, gone, links⟩ := usbGone_spec (loseUsb 1 (loseUsb 0 d))
  have lose := onlyLinks_trans (loseUsb_onlyLinks 0 d) (loseUsb_onlyLinks 1 _)
  refine completes_onlyLinks b (Eq.refl (execUsb4Detach s)) still (e := usbGone (loseUsb 1 (loseUsb 0 d))) (onlyLinks_trans lose only)
    (if_pos attached) ⟨gone, fun l hl usb => ?_⟩
  have lost : linkOf (loseUsb 1 (loseUsb 0 d)) l = linkReset := by
    obtain rfl | rfl : l = 0 ∨ l = 1 := by omega
    · exact loseUsb_lost (loseUsb_usb usb)
    · have alone : loseUsb 0 d = d := if_neg (by simp [linkIsUsb_one usb])
      rw [alone, loseUsb_usb usb]
  rw [links, lost]
  exact ⟨rfl, rfl⟩

/-! ## HOST_RESET -/

/-- Links lost one after another. -/
def loseLinks (ls : List Nat) (d : Dev) : Dev := ls.foldl (fun d l => linkLose l d) d

theorem loseLinks_onlyLinks (ls : List Nat) (d : Dev) : OnlyLinks d (loseLinks ls d) :=
  foldl_rel onlyLinks_refl onlyLinks_trans _ (fun e l => linkLose_onlyLinks l e) ls d

theorem loseLinks_lost (ls : List Nat) {m : Nat} {d : Dev} (lost : linkOf d m = linkReset) : linkOf (loseLinks ls d) m = linkReset :=
  foldl_of (fun e => linkOf e m = linkReset) (fun _ _ => linkLose_lost) lost

theorem loseLinks_mem {ls : List Nat} {m : Nat} {d : Dev} (h : m ∈ ls) : linkOf (loseLinks ls d) m = linkReset := by
  induction ls generalizing d with
  | nil => cases h
  | cons l ls ih =>
    obtain rfl | later := List.mem_cons.mp h
    · exact loseLinks_lost ls (by rw [linkOf_linkLose, if_pos Iff.rfl])
    · exact ih later

/-- The links that are PCIe links of the port mode (R47). -/
def pcieLinks (d : Dev) : List Nat := [0, 1].filter fun l => linkInMode (portMode d) l && !(linkIsUsb d l)

/-- The port and its tunnel as HOST_RESET_N leaves them under the new port mode (R70, R76). -/
def portSettled (was : List Bool) (d : Dev) : Dev :=
  if d.host.usbAttached && !(linkIsUsb d 0) && !(linkIsUsb d 1) then usbGone d
  else if [0, 1].any (fun l => was.getD l false && !(linkIsUsb d l)) then tunnelGone d else d

theorem portSettled_spec (was : List Bool) (d : Dev) :
    OnlyLinks d (portSettled was d) ∧ ∀ l, linkOf (portSettled was d) l = linkOf d l := by
  unfold portSettled
  split
  · obtain ⟨only, -, links⟩ := usbGone_spec d
    exact ⟨only, links⟩
  · split
    · exact ⟨setFld_onlyLinks _ _ _ _, fun _ => rfl⟩
    · exact ⟨onlyLinks_refl d, fun _ => rfl⟩

theorem hostResetGo_eq (d : Dev) : ∃ ls : List Nat,
    hostResetGo d = loseLinks ls (portSettled ([0, 1].map (linkIsUsb d)) (jobBoundary pgHOST (loseLinks (pcieLinks d) d))) := ⟨_, rfl⟩

/-- HOST_RESET_N asserted: every PCIe link is lost, whatever the new port mode makes of the others (R65). -/
theorem hostResetGo_spec (d : Dev) :
    OnlyLinks d (hostResetGo d) ∧ ∀ l, l ∈ pcieLinks d → linkOf (hostResetGo d) l = linkReset := by
  obtain ⟨ls, go⟩ := hostResetGo_eq d
  have bound := jobBoundary_onlyReset pgHOST (loseLinks (pcieLinks d) d)
  obtain ⟨settled, links⟩ := portSettled_spec ([0, 1].map (linkIsUsb d)) (jobBoundary pgHOST (loseLinks (pcieLinks d) d))
  rw [go]
  refine ⟨onlyLinks_trans (loseLinks_onlyLinks (pcieLinks d) d) (onlyLinks_trans (onlyReset_onlyLinks bound)
    (onlyLinks_trans settled (loseLinks_onlyLinks ls _))), fun l hl => loseLinks_lost ls ?_⟩
  rw [links, linkOf_onlyReset bound, loseLinks_mem hl]

section
variable {s : State} {d : Dev} (b : Begins s d)
include b

/-- HOST_RESET without power to the die (R65, R67). -/
theorem hostReset_off (off : dieOn d.sys.mode = false) :
    Completes .hostReset s [.host] fun t => t.host = { d.host with rstUpAt := d.now } :=
  completes_runDev b (Eq.refl (execHostReset s)) (e := { d with host := { d.host with rstUpAt := d.now } })
    (if_neg (by simp [off])) b.2
    (fun _ hp => same_onlyHost (a := d) (b := { d with host := { d.host with rstUpAt := d.now } }) rfl hp) rfl

/-- HOST_RESET (R65). -/
theorem hostReset_on (on : dieOn d.sys.mode = true) (still : d.sys.draining = none) : Completes .hostReset s linkParts fun t =>
    t.host.rstUpAt = d.now
    ∧ (∀ l, l < 2 → linkInMode (portMode d) l = true → linkIsUsb d l = false →
      (linkOf t l).up = false ∧ (linkOf t l).training = false ∧ (linkOf t l).vfEnable = false ∧ (linkOf t l).sessions = []
      ∧ (linkOf t l).ide = [] ∧ (linkOf t l).doeReq = none) := by
  obtain ⟨only, lost⟩ := hostResetGo_spec { d with host := { d.host with rstUpAt := d.now } }
  refine completes_runDev b (Eq.refl (execHostReset s)) (e := hostResetGo { d with host := { d.host with rstUpAt := d.now } })
    ((if_pos on).trans (hostSettle_still only still)) ?_ (fun p hp => ?_) ⟨only.2, fun l hl lanes pcie => ?_⟩
  · rw [only.1]
    exact b.2
  · rw [only.1]
    cases p <;> simp_all [Part.same, linkParts]
  · have mem : l ∈ pcieLinks { d with host := { d.host with rstUpAt := d.now } } :=
      List.mem_filter.mpr ⟨by simp; omega, by
        change (linkInMode (portMode d) l && !(linkIsUsb d l)) = true
        simp [lanes, pcie]⟩
    rw [lost l mem]
    exact ⟨rfl, rfl, rfl, rfl, rfl, rfl⟩

end

/-- Settles O37: a link that comes up by `linkRise`, one that goes down by `linkLose`, the port by `usbTrained` and `usbGone`, and
HOST_RESET by `hostResetGo_spec`. -/
theorem linkCommands : Obligations.LinkCommands := by
  unfold Obligations.LinkCommands
  intro s d b
  exact ⟨hostReset_off b, hostReset_on b,
    fun l hl on lanes down => ⟨linkTraining_completes b hl on lanes down, fun info => linkUp_pcie b hl on lanes down,
      fun info => linkUp_usb b hl on lanes down info⟩,
    fun l hl => linkDown_completes b hl, usb4Attach_completes b, usb4Detach_completes b⟩

end Sys2Proof.Proofs
end

section
/-! A VF whose state is that of a PF: where VF_SPLIT passes 1,024, VF 2,048 of link A and the PF of link B have one key (O38). -/

open Sys2Proof Sys2Proof.Machine

namespace Sys2Proof.Proofs

/-- A vector that a running device signals over a link that is up no longer is as reset: the message has gone from a vector set up for it,
or the PBA bit waits (R57). -/
theorem msix_signalled (l n v : Nat) (d : Dev) (runs : stopped d.sys.mode = false) (steady : d.sys.mode ≠ .holdup)
    (up : (linkOf d l).up = true) : (fnOf (msixSend l n v d) l n).msix ≠ [] := by
  suffices h : smapGet msixReset (fnOf (msixSend l n v d) l n).msix v ≠ msixReset v by
    intro empty
    rw [empty] at h
    exact h rfl
  unfold msixSend
  rw [if_neg (by simp [runs, steady, up])]
  split
  · unfold modMsix
    rw [fnOf_modFn, if_pos rfl, smapGet_set_same]
    exact fun same => Bool.noConfusion (congrArg Msix.pba same)
  · rename_i c
    obtain ⟨unmasked, -⟩ : (smapGet msixReset (fnOf d l n).msix v).masked = false ∧ _ := by simpa using c
    change smapGet msixReset (fnOf d l n).msix v ≠ msixReset v
    exact fun same => Bool.noConfusion (unmasked.symm.trans (congrArg Msix.masked same))

/-- An enabled event of the HOST page signals the PFs of both links, that of link B last (R57). -/
theorem raiseEv_host {n : Nat} {d : Dev} (enabled : bit (hdrOf d pgHOST).irqEn n = true) :
    ∃ e, OnlyRaised d e ∧ raiseEv pgHOST n d = msixSend 1 0 2 e := by
  have sent := msixSend_onlyFns 0 0 2 (modHdr d pgHOST fun h => { h with irqStat := setBit h.irqStat n true })
  refine ⟨_, ?_, if_pos (by simpa [pageCap] using enabled)⟩
  unfold OnlyFns at sent
  unfold OnlyRaised
  rw [sent]
  rfl

theorem fnOf_modLink (d : Dev) (l m n : Nat) (f : LinkSt → LinkSt) : fnOf (modLink d l f) m n = fnOf d m n := by
  unfold modLink
  split <;> rfl

/-- VF Enable is cleared while a VF responds: the VFs of some list are reset and counted (R55). -/
theorem vfEnableChange_clears {s : State} {d : Dev} {l m : Nat} (b : Begins s d) (awake : Awake d (some l)) (hl : l < 2)
    (serves : cfgServe d l = .serve) (still : d.sys.draining = none) (one : vfResponds d l m = true) (n : Nat) :
    ∃ ns : List Nat, Completes (.vfEnableChange l false n) s linkParts fun t =>
      t = modLink (countFlr ns.length (funcsReset l ns d)) l fun k => { k with vfEnable := false, numVfs := min n (totalVfs d l) } := by
  have bounds : 1 ≤ m ∧ m ≤ (linkOf d l).numVfs := by
    simp only [vfResponds, Bool.and_eq_true, decide_eq_true_eq] at one
    omega
  have effect : ∀ ns, OnlyLinks d (modLink (countFlr ns.length (funcsReset l ns d)) l
      fun k => { k with vfEnable := false, numVfs := min n (totalVfs d l) }) := fun ns =>
    onlyLinks_trans (onlyReset_onlyLinks (funcsReset_onlyReset l ns d))
      (onlyLinks_trans (setFld_onlyLinks _ pgHOST Reg.HOST_RESET_CNT_FLR _) (modLink_onlyLinks _ l _))
  refine ⟨((List.range (linkOf d l).numVfs).map (· + 1) |>.filter (vfResponds d l)).filter fun k =>
    !(false && k ≤ min n (totalVfs d l) && ((linkOf d l).ari || k ≤ 7)), ?_⟩
  refine completes_runTlp b awake (Eq.refl (execVfEnableChange l false n s)) ?_ ?_ (fun p hp => same_onlyLinks (effect _) hp) rfl
  · rw [if_neg (by simp [serves, hl])]
    dsimp only
    rw [if_neg, hostSettle_still (effect _) still]
    intro empty
    have mem : m ∈ (List.range (linkOf d l).numVfs).map (· + 1) := List.mem_map.mpr ⟨m - 1, List.mem_range.mpr (by omega), by omega⟩
    have gone := List.filter_eq_nil_iff.mp (List.isEmpty_iff.mp empty) m (List.mem_filter.mpr ⟨mem, one⟩)
    exact gone rfl
  · rw [(effect _).1]
    exact b.2

/-- Both links are up and link A has 2,048 VFs, as VF_SPLIT says; the HOST page reports function resets. -/
def crossed : Dev :=
  modHdr (setFld { Dev.reset with
      sys := { Dev.reset.sys with mode := .service }
      host := { hostReset with
        a := { linkReset with up := true, vfEnable := true, numVfs := 2048, ari := true }, b := { linkReset with up := true } } }
    pgHOST Reg.HOST_CFG_VF_SPLIT 2048) pgHOST fun h => { h with irqEn := 16 }

/-- The event that reports a reset of functions signals a vector of the PF of link B, and so of VF 2,048 of link A. -/
theorem msix_funcsReset_crossed (ns : List Nat) : (fnOf (funcsReset 0 ns crossed) 0 2048).msix ≠ [] := by
  have reset := onlyReset_foldl (fun e n => funcReset_onlyReset 0 n e) ns crossed
  unfold funcsReset
  generalize ns.foldl (fun d n => funcReset 0 n d) crossed = x at reset
  obtain ⟨e, raised, signals⟩ := raiseEv_host (n := 4) (d := x) (by
    rw [reset.2]
    decide)
  have mode : e.sys = crossed.sys := by rw [raised, mode_onlyReset reset]
  change (fnOf _ 1 0).msix ≠ []
  rw [signals]
  exact msix_signalled 1 0 2 e (by rw [mode]; rfl) (by rw [mode]; decide)
    (by rw [linkOf_onlyRaised raised, linkOf_onlyReset reset]; rfl)

/-- Refutes O38: where VF_SPLIT passes 1,024, a VF of link A shares its function state with the PF of link B, and the event of the reset
that VF_ENABLE_CHANGE brings signals that PF, so that the VF's vectors are not as reset. No write of HOST_CFG brings VF_SPLIT there (R74),
but the statement speaks of every state. -/
theorem not_functionCommands : ¬ Obligations.FunctionCommands := by
  unfold Obligations.FunctionCommands
  intro holds
  have begins : Begins ⟨crossed, []⟩ crossed := ⟨rfl, rfl⟩
  have awake : Awake crossed (some 0) := fun drowsy => nomatch drowsy
  have serves : cfgServe crossed 0 = .serve := by decide
  have last : vfResponds crossed 0 2048 = true := by decide
  obtain ⟨served, -⟩ := holds ⟨crossed, []⟩ crossed 0 begins (by decide) awake
  obtain ⟨-, -, -, disabled⟩ := served serves rfl
  obtain ⟨t, run, -, -, cleared⟩ := disabled 0 rfl
  obtain ⟨ns, t', run', -, effect⟩ := vfEnableChange_clears begins awake (by decide) serves rfl last 0
  have same : t' = t := Host.Outcome.next.inj (run'.symm.trans run)
  have vectors := cleared 2048 last
  rw [← same, effect, fnOf_modLink] at vectors
  exact msix_funcsReset_crossed ns vectors

end Sys2Proof.Proofs
end

section
/-! The command processor's table of commands and its reads of host memory (R50, R83, R89). -/

open Sys2Proof Sys2Proof.Machine

namespace Sys2Proof.Proofs

/-! ## Commands in flight -/

theorem tag_of_cmdOf {d : Dev} {tag : Nat} {k : Cmd} (h : cmdOf d tag = some k) : k.tag = tag := by
  simpa using List.find?_some h

/-- A table of commands after one is written back by its TAG. -/
theorem find_putCmd (c : Cmd) (m : Nat) (l : List Cmd) : (l.map fun x => if x.tag = c.tag then c else x).find? (fun x => x.tag = m)
    = if m = c.tag then (l.find? fun x => x.tag = m).map fun _ => c else l.find? fun x => x.tag = m := by
  induction l with
  | nil => simp
  | cons x xs ih =>
    rw [List.map_cons, List.find?_cons, List.find?_cons, ih]
    by_cases written : x.tag = c.tag
    · by_cases named : m = c.tag
      · simp [written, named]
      · simp [written, named, Ne.symm named]
    · by_cases found : x.tag = m
      · have other : m ≠ c.tag := fun e => written (found.trans e)
        simp [found, other]
      · simp [written, found]

theorem cmdOf_putCmd (c : Cmd) (d : Dev) (m : Nat) :
    cmdOf (putCmd c d) m = if m = c.tag then (cmdOf d m).map fun _ => c else cmdOf d m :=
  find_putCmd c m d.cmd.cmds

theorem cmdOf_putCmd_same {c k : Cmd} {d : Dev} {tag : Nat} (h : cmdOf d tag = some k) (same : c.tag = tag) :
    cmdOf (putCmd c d) tag = some c := by
  rw [cmdOf_putCmd, if_pos same.symm, h]
  rfl

theorem cmdOf_putCmd_other {c : Cmd} {m : Nat} (d : Dev) (h : m ≠ c.tag) : cmdOf (putCmd c d) m = cmdOf d m := by
  rw [cmdOf_putCmd, if_neg h]

theorem cmdsBut_putCmd (c : Cmd) (d : Dev) : cmdsBut c.tag d (putCmd c d) := ⟨fun _ h => cmdOf_putCmd_other d h, rfl⟩

theorem cmdOf_cmds {a b : Dev} (h : b.cmd.cmds = a.cmd.cmds) (m : Nat) : cmdOf b m = cmdOf a m := by
  unfold cmdOf
  rw [h]

/-- At most the command processor, registers with their shadows, and what has left have changed. -/
def OnlyIntake (a b : Dev) : Prop := b = { a with cmd := b.cmd, regs := b.regs, shadow := b.shadow, out := b.out }

theorem same_onlyIntake {a b : Dev} (h : OnlyIntake a b) {p : Part} (hp : p ∉ [Part.cmd, .regs, .shadow]) : p.same a b := by
  rw [h]
  cases p <;> simp_all [Part.same]

/-- At most the command processor and what has left have changed. -/
def OnlyCmd (a b : Dev) : Prop := b = { a with cmd := b.cmd, out := b.out }

theorem same_onlyCmd {a b : Dev} (h : OnlyCmd a b) {p : Part} (hp : p ∉ [Part.cmd]) : p.same a b := by
  rw [h]
  cases p <;> simp_all [Part.same]

theorem same_cmd {a : Dev} (x : CmdSt) {p : Part} (hp : p ∉ [Part.cmd]) : p.same a { a with cmd := x } :=
  same_onlyCmd (a := a) (b := { a with cmd := x }) rfl hp

/-- A command that touches the command processor alone completes. -/
theorem completes_cmd {c : Instr} {s : State} {d e : Dev} {q : Dev → Prop} {f : Dev → Dev} (b : Begins s d) (run : exec c s = runDev s f)
    (he : f d = e) (only : OnlyCmd d e) (hq : q e) : Completes c s [.cmd] q := by
  refine completes_runDev b run he ?_ (fun p hp => same_onlyCmd only hp) hq
  rw [only]
  exact b.2

/-! ## Reads of host memory -/

/-- A read none of whose requests waits for a tag. -/
def AllSent (d : Dev) : Prop := ∀ x, x ∈ d.cmd.reads → x.todo = []

/-- A read as it stands once all of its requests have gone out. -/
def issued (id : Nat) (tag : Option Nat) (what : ReadFor) (l f : Nat) (ask : List (Nat × Nat)) : HRead :=
  ⟨id, tag, what, false, none, l, ask.length, [], f, (ask.map (·.2)).sum, []⟩

/-- A read that has just been added, with no request out. -/
def asked (id : Nat) (tag : Option Nat) (what : ReadFor) (l f : Nat) (ask : List (Nat × Nat)) : HRead :=
  ⟨id, tag, what, false, none, l, 0, ask, f, 0, []⟩

/-- A read none of whose requests waits is passed by. -/
theorem pumpList_sent (l : Nat) (may : Nat → Bool) (free : Nat) {r : HRead} (sent : r.todo = []) (rs : List HRead) :
    pumpList l may free (r :: rs) = (r :: (pumpList l may free rs).1, (pumpList l may free rs).2) := by
  obtain ⟨id, tag, what, dropped, got, link, reqs, todo, fn, due, earlier⟩ := r
  obtain rfl : todo = [] := sent
  simp [pumpList]

theorem pumpList_still (l : Nat) (may : Nat → Bool) (free : Nat) {rs : List HRead} (h : ∀ x, x ∈ rs → x.todo = []) :
    pumpList l may free rs = (rs, []) := by
  induction rs with
  | nil => rfl
  | cons r rs ih => rw [pumpList_sent l may free (h r List.mem_cons_self), ih fun x hx => h x (List.mem_cons_of_mem _ hx)]

/-- The requests of one read go out where the link has a tag for each. -/
theorem pumpList_asked {l f free id : Nat} {may : Nat → Bool} (tag : Option Nat) (what : ReadFor) {ask : List (Nat × Nat)}
    (opens : may f = true) (room : ask.length ≤ free) {rs : List HRead} (h : ∀ x, x ∈ rs → x.todo = []) :
    pumpList l may free (rs ++ [asked id tag what l f ask])
      = (rs ++ [issued id tag what l f ask], ask.map fun p => .hostRead l f p.1 p.2) := by
  induction rs with
  | nil =>
    simp only [List.nil_append, pumpList, asked, opens, Bool.not_false, Bool.and_true, decide_true, if_true, List.take_of_length_le room]
    simp [issued]
  | cons r rs ih =>
    rw [List.cons_append, pumpList_sent l may free (h r List.mem_cons_self), ih fun x hx => h x (List.mem_cons_of_mem _ hx)]
    rfl

theorem pumpReads_still (l : Nat) {d : Dev} (still : AllSent d) : pumpReads l d = d := by
  unfold pumpReads
  rw [pumpList_still l _ _ still]
  simp [emitAll, modCmdSt]

theorem fldB_regs {a b : Dev} (h : b.regs = a.regs) (p : Nat) (f : Fld) : fldB b p f = fldB a p f := by
  unfold fldB fld regGet
  rw [h]

/-- A read of which nothing is out holds no tag. -/
theorem tagsLeft_asked (l : Nat) {d e : Dev} (id : Nat) (tag : Option Nat) (what : ReadFor) (l' f : Nat) (ask : List (Nat × Nat))
    (regs : e.regs = d.regs) (reads : e.cmd.reads = d.cmd.reads ++ [asked id tag what l' f ask]) : tagsLeft e l = tagsLeft d l := by
  unfold tagsLeft
  rw [fldB_regs regs, reads, List.filter_append, List.map_append, List.foldl_append]
  by_cases here : l' = l <;> simp [asked, here]

/-- A read that is out holds a tag for each of its requests. -/
theorem tagsLeft_issued (l : Nat) {d e : Dev} (id : Nat) (tag : Option Nat) (what : ReadFor) (f : Nat) (ask : List (Nat × Nat))
    (regs : e.regs = d.regs) (reads : e.cmd.reads = d.cmd.reads ++ [issued id tag what l f ask]) :
    tagsLeft e l = tagsLeft d l - ask.length := by
  unfold tagsLeft
  rw [fldB_regs regs, reads, List.filter_append, List.map_append, List.foldl_append, Nat.sub_sub]
  simp [issued]

/-- The block once a read has gone out. -/
def readOut (tag : Option Nat) (what : ReadFor) (l f : Nat) (ask : List (Nat × Nat)) (d : Dev) : Dev :=
  { d with
    cmd := { d.cmd with reads := d.cmd.reads ++ [issued d.cmd.nextRead tag what l f ask], nextRead := d.cmd.nextRead + 1 }
    out := d.out ++ ask.map fun p => .hostRead l f p.1 p.2 }

/-- A read is added to those under way. -/
def addRead (r : HRead) (d : Dev) : Dev :=
  { d with cmd := { d.cmd with reads := d.cmd.reads ++ [r], nextRead := d.cmd.nextRead + 1 } }

theorem addRead_reads (r : HRead) (d : Dev) : (addRead r d).cmd.reads = d.cmd.reads ++ [r] := rfl

theorem pumpReads_eq (l : Nat) (d : Dev) : pumpReads l d = emitAll (pumpList l (ideOpen d l) (tagsLeft d l) d.cmd.reads).2
    (modCmdSt (fun s => { s with reads := (pumpList l (ideOpen d l) (tagsLeft d l) d.cmd.reads).1 }) d) := rfl

theorem hostRead_issued {d : Dev} {inst l f : Nat} (tag : Option Nat) (what : ReadFor) {segs : List (Nat × Nat)}
    (serves : instFn d inst = some (l, f)) (still : AllSent d) (opens : ideOpen d l f = true)
    (room : (runPieces d l f segs).length ≤ tagsLeft d l) :
    hostRead inst tag what segs d = readOut tag what l f (runPieces d l f segs) d := by
  have pumped := pumpList_asked (l := l) (id := d.cmd.nextRead) (may := ideOpen d l) tag what opens room still
  have tags := tagsLeft_asked l (d := d) (e := addRead (asked d.cmd.nextRead tag what l f (runPieces d l f segs)) d) _ _ _ _ _ _ rfl rfl
  have added : hostRead inst tag what segs d = pumpReads l (addRead (asked d.cmd.nextRead tag what l f (runPieces d l f segs)) d) := by
    unfold hostRead
    rw [serves]
    rfl
  rw [added, pumpReads_eq, tags, addRead_reads]
  change emitAll (pumpList l (ideOpen d l) _ _).2 (modCmdSt (fun s => { s with reads := (pumpList l (ideOpen d l) _ _).1 }) _) = _
  rw [pumped]
  rfl

theorem allSent_readOut {d : Dev} (still : AllSent d) (tag : Option Nat) (what : ReadFor) (l f : Nat) (ask : List (Nat × Nat)) :
    AllSent (readOut tag what l f ask d) := by
  intro x hx
  obtain old | new := List.mem_append.mp hx
  · exact still x old
  · rw [List.mem_singleton.mp new]
    rfl

theorem ideOpen_of_hostOpen {d : Dev} {inst l f : Nat} (opens : hostOpen d inst = true) (serves : instFn d inst = some (l, f)) :
    ideOpen d l f = true := by
  unfold hostOpen at opens
  rw [serves] at opens
  exact opens

/-! ## DESCRIPTOR_FETCH -/

theorem hostOpen_of_sqReady {d : Dev} {inst q : Nat} (ready : sqReady d inst q = true) : hostOpen d inst = true := by
  by_contra shut
  simp [sqReady, shut] at ready

/-- A turn is taken (R83): who was served last, and the queues' turns and weights. -/
theorem takeTurn_eq (inst q : Nat) (d : Dev) : ∃ turns weights,
    takeTurn inst q d = { d with cmd := { d.cmd with served := inst, turns := turns, weights := weights } } := by
  unfold takeTurn
  dsimp only
  split <;> exact ⟨_, _, rfl⟩

/-- DESCRIPTOR_FETCH (R82, R83). -/
theorem descriptorFetch_completes {s : State} {d : Dev} (b : Begins s d) (still : AllSent d) {inst q l f at' cq n e : Nat}
    {ask : List (Nat × Nat)} (hi : inst < 1024) (hq : q < 16) (first : instTurn d = some inst) (ready : sqReady d inst q = true)
    (turn : sqTurn d inst q = true) (serves : instFn d inst = some (l, f)) (hat : at' = fetchAt d inst q)
    (hcq : cq = qFld d inst q Reg.SQ_CFG_CQ) (he : e = sqEntry (verOf d inst))
    (hn : n = min (min 8 ((tailOf d inst q + sqSize d inst q - at') % sqSize d inst q)) (min (sqSize d inst q - at') (cqFree d inst cq)))
    (hask : ask = runPieces d l f [(sqBase d inst q + at' * e, n * e)]) (room : ask.length ≤ tagsLeft d l) :
    Completes (.descriptorFetch inst q) s [.cmd] fun t =>
      t.out = ask.map (fun p => .hostRead l f p.1 p.2)
      ∧ t.cmd.reads = d.cmd.reads
          ++ [⟨d.cmd.nextRead, none, .fetch inst q cq n true, false, none, l, ask.length, [], f, (ask.map (·.2)).sum, []⟩]
      ∧ t.cmd.nextRead = d.cmd.nextRead + 1 ∧ t.cmd.served = inst ∧ t.cmd.cmds = d.cmd.cmds := by
  have opens := ideOpen_of_hostOpen (hostOpen_of_sqReady ready) serves
  have read := hostRead_issued none (.fetch inst q cq n true) serves still opens (hask ▸ room)
  rw [← hask] at read
  obtain ⟨turns, weights, taken⟩ := takeTurn_eq inst q (readOut none (.fetch inst q cq n true) l f ask d)
  have went : fetchGo inst q d = takeTurn inst q (hostRead inst none (.fetch inst q cq n true) [(sqBase d inst q + at' * e, n * e)] d) := by
    subst hn he hcq hat
    exact if_pos (by simp [hi, hq, first, ready, turn])
  rw [read, taken] at went
  refine completes_cmd b (Eq.refl (execDescriptorFetch inst q s)) went rfl ⟨?_, rfl, rfl, rfl, rfl⟩
  change d.out ++ _ = _
  rw [begins_out b, List.nil_append]

end Sys2Proof.Proofs
end

section
/-! POLICY_CHECK and DESCRIPTOR_PARSE: a command goes on, or is held at the fence with what refuses it (R89, R94, R121). -/

open Sys2Proof Sys2Proof.Machine

namespace Sys2Proof.Proofs

/-- An action on a command runs where it stands at the action's stage. -/
theorem atStage_runs {d : Dev} {tag : Nat} {k : Cmd} {st : Stage} (named : cmdOf d tag = some k) (stands : k.stage = st)
    (f : Cmd → Dev → Dev) : atStage tag st f d = f k d := by
  unfold atStage
  rw [named]
  exact if_pos stands

/-! ## POLICY_CHECK -/

section
variable {s : State} {d : Dev} {tag : Nat} {k : Cmd} {err : KeyErr} (b : Begins s d) (named : cmdOf d tag = some k)
  (stands : k.stage = .policy)
include b named stands

/-- A policy check that writes the command back, and nothing else (R121). -/
theorem policyCheck_puts {c : Cmd} (go : policyGo err k d = putCmd c d) (same : c.tag = k.tag) :
    Completes (.policyCheck tag err) s [.cmd] fun t => cmdOf t tag = some c ∧ cmdsBut tag d t := by
  have tagged := same.trans (tag_of_cmdOf named)
  exact completes_cmd b (Eq.refl (execPolicyCheck tag s err)) ((atStage_runs named stands _).trans go) rfl
    ⟨cmdOf_putCmd_same named tagged, tagged ▸ cmdsBut_putCmd c d⟩

omit b named stands in
theorem mem_except_nil (p : Part) : p ∈ except [] := by
  cases p <;> decide

/-- A policy check that writes the command back into the block as the handles have left it (R121, R315). -/
theorem policyCheck_putsInto {c : Cmd} {d1 : Dev} (go : policyGo err k d = putCmd c d1) (same : c.tag = tag) (cmds : d1.cmd = d.cmd)
    (sound : d1.mpe.failing = none) : Completes (.policyCheck tag err) s (except []) fun t =>
      cmdOf t tag = some c ∧ cmdsBut tag d t ∧ ∀ p : Part, p ≠ .cmd → p.same d1 t := by
  have named' : cmdOf d1 tag = some k := (cmdOf_cmds (congrArg CmdSt.cmds cmds) tag).trans named
  obtain ⟨others, rest⟩ := same ▸ cmdsBut_putCmd c d1
  refine completes_runDev b (Eq.refl (execPolicyCheck tag s err)) ((atStage_runs named stands _).trans go) sound
    (fun p hp => absurd (mem_except_nil p) hp)
    ⟨cmdOf_putCmd_same named' same, ⟨fun m hm => ?_, ?_⟩, fun p hp => same_cmd _ (by simpa using hp)⟩
  · rw [others m hm, cmdOf_cmds (congrArg CmdSt.cmds cmds)]
  · rw [← cmds]
    exact rest

end

/-- The rings keep their commands where a unit can take each (R167, R220). -/
theorem ringSweep_putCmd {c : Cmd} {d : Dev} (serves : anyServes d (kindOf c) = true)
    (others : ∀ x, x ∈ d.cmd.cmds → x.stage = .ring → anyServes d (kindOf x) = true) : ringSweep (putCmd c d) = putCmd c d := by
  have empty : (putCmd c d).cmd.cmds.filter (fun c => c.stage = .ring && !(anyServes d (kindOf c))) = [] := by
    rw [List.filter_eq_nil_iff]
    intro x hx
    obtain ⟨y, hy, rfl⟩ := List.mem_map.mp hx
    split
    · simp [serves]
    · simpa using others y hy
  unfold ringSweep
  change List.foldl _ _ ((putCmd c d).cmd.cmds.filter fun c => c.stage = .ring && !(anyServes d (kindOf c))) = _
  rw [empty]
  rfl

/-- A checked command stands on the ring of a quarter (R11). -/
theorem toRing_eq {c : Cmd} {d : Dev} (serves : anyServes d (kindOf c) = true)
    (others : ∀ x, x ∈ d.cmd.cmds → x.stage = .ring → anyServes d (kindOf x) = true) :
    toRing c d = putCmd { c with stage := .ring, quarter := (nextOn d (homeQuarter c.inst c.sq)).getD (homeQuarter c.inst c.sq) } d :=
  ringSweep_putCmd serves others

theorem policyGo_noRoom {d : Dev} {k : Cmd} {e : Denial} (err : KeyErr) (room : roomFault d k = some e) :
    policyGo err k d = putCmd { k with stage := .held, result := some (deniedResult e) } d := by
  unfold policyGo
  rw [room]
  rfl

theorem policyGo_lcDenied {d : Dev} {k : Cmd} (err : KeyErr) (room : roomFault d k = none) (denied : lcDenied d k = true) :
    policyGo err k d = putCmd { k with stage := .held, result := some (failed stMODE 0) } d := by
  unfold policyGo
  rw [room]
  exact if_pos denied

section
variable {d d1 : Dev} {k k1 : Cmd} {err : KeyErr} (room : roomFault d k = none) (life : lcDenied d k = false)
include room life

theorem policyGo_pass (run : policyRun err.t1 k d = .pass k1 d1) :
    policyGo err k d = if opRouted k1.desc.opcode then putCmd { k1 with stage := .route } d1 else toRing k1 d1 := by
  unfold policyGo
  rw [room]
  dsimp only
  rw [if_neg (by simp [life]), run]

theorem policyGo_fail {e : Denial} (run : policyRun err.t1 k d = .fail e k1 d1) :
    policyGo err k d = putCmd { k1 with stage := .held, result := some (failed e.1 e.2), keys := [], counted := [] } d1 := by
  unfold policyGo
  rw [room]
  dsimp only
  rw [if_neg (by simp [life]), run]
  rfl

end

/-- A command that names no key passes without one (R121). -/
theorem policyRun_noKey {k : Cmd} (hs : List T1Hit) (d : Dev) (first : namesKey k.desc false = false)
    (second : namesKey k.desc true = false) (plain : k.desc.opcode ≠ 0x0110) :
    policyRun hs k d = .pass { k with keys := [], counted := [], tickets := [] } d := by
  unfold policyRun
  dsimp only
  rw [first, second, if_neg Bool.false_ne_true, if_neg plain, if_neg Bool.false_ne_true]

/-! ## DESCRIPTOR_PARSE -/

/-- A translation leaves whose the command is, and its TAG (R103). -/
theorem parsed_same {d : Dev} {k c : Cmd} (h : parsed d k = .ok c) : c.tag = k.tag ∧ c.inst = k.inst := by
  unfold parsed at h
  split at h
  · split at h
    · cases h
    · cases h
      exact ⟨rfl, rfl⟩
  · cases h
    exact ⟨rfl, rfl⟩

section
variable {s : State} {d : Dev} {tag : Nat} {k : Cmd} (b : Begins s d) (named : cmdOf d tag = some k) (stands : k.stage = .fetched)
include b named stands

/-- The parser's step ends at a job boundary of the CMD page (R10). -/
theorem descriptorParse_ends {e : Dev} {q : Dev → Prop} (go : parseGo k d = jobBoundary pgCMD e) (only : OnlyCmd d e)
    (hq : ∀ t, t.cmd = e.cmd → t.out = e.out → q t) : Completes (.descriptorParse tag) s [.cmd, .regs, .shadow] fun t =>
      q t ∧ pagesBut [pgCMD] d t := by
  have bound := jobBoundary_only e pgCMD
  refine completes_runDev b (Eq.refl (execDescriptorParse tag s)) ((atStage_runs named stands _).trans go) ?_
    (fun p hp => same_onlyIntake ?_ hp) ⟨hq _ (by rw [bound]) (by rw [bound]), fun p off hp hoff => ?_⟩
  · rw [bound, only]
    exact b.2
  · unfold OnlyIntake
    rw [bound, only]
  · rw [regGet_jobBoundary_other e hoff (by simpa using hp)]
    unfold regGet
    rw [only]

/-- A parse that writes the command back, and nothing else. -/
theorem descriptorParse_puts {c : Cmd} (go : parseGo k d = jobBoundary pgCMD (putCmd c d)) (same : c.tag = k.tag) :
    Completes (.descriptorParse tag) s [.cmd, .regs, .shadow] fun t => cmdOf t tag = some c ∧ cmdsBut tag d t ∧ pagesBut [pgCMD] d t := by
  have tagged := same.trans (tag_of_cmdOf named)
  have ends := descriptorParse_ends (q := fun t => cmdOf t tag = some c ∧ cmdsBut tag d t) b named stands go rfl fun t cmds _ =>
    ⟨(cmdOf_cmds (congrArg CmdSt.cmds cmds) tag).trans (cmdOf_putCmd_same named tagged), ?_⟩
  · simpa only [and_assoc] using ends
  · obtain ⟨others, rest⟩ := tagged ▸ cmdsBut_putCmd c d
    refine ⟨fun m hm => ?_, ?_⟩
    · rw [cmdOf_cmds (congrArg CmdSt.cmds cmds), others m hm]
    · rw [cmds]
      exact rest

end

section
variable {d : Dev} {k c : Cmd} (held : parseHeld d k = false)
include held

theorem parseGo_untranslated {st : Nat} (h : parsed d k = .error st) :
    parseGo k d = jobBoundary pgCMD (putCmd { k with stage := .held, result := some (failed st 0) } d) := by
  unfold parseGo
  rw [if_neg (by simp [held]), h]
  rfl

variable (room : rqFull d = false) (tags : instTag d k.inst = true) (h : parsed d k = .ok c)
include room tags h

theorem parseGo_fault {st info r1 : Nat} (fault : descFault (pypMinor c) c.desc = some (st, info, r1)) :
    parseGo k d = jobBoundary pgCMD (putCmd { c with stage := .held, result := some { failed st info with r1 := r1 } } d) := by
  obtain ⟨-, inst⟩ := parsed_same h
  unfold parseGo
  rw [if_neg (by simp [held]), h]
  dsimp only
  rw [if_neg (by simp [room]), if_neg (by simp [inst, tags]), fault]
  rfl

theorem parseGo_reads (sound : descFault (pypMinor c) c.desc = none) (mode : c.desc.opcode = 0x0110 → d.sys.mode = .ceremony)
    (routes : opRouted c.desc.opcode = true → fldB d pgCMD Reg.CMD_CFG_RQ_EN = true) :
    parseGo k d = jobBoundary pgCMD (startReads c d) := by
  obtain ⟨-, inst⟩ := parsed_same h
  unfold parseGo
  rw [if_neg (by simp [held]), h]
  dsimp only
  rw [if_neg (by simp [room]), if_neg (by simp [inst, tags]), sound]
  dsimp only
  rw [if_neg (by simpa using routes), if_neg (by simpa using mode)]

end

/-- What reads of a list ask for: the areas one after another, each with the number after the one before. -/
def issuedAll (tag l f : Nat) (ask : ReadFor × Nat × Nat → List (Nat × Nat)) (id : Nat) (rs : List (ReadFor × Nat × Nat)) : List HRead :=
  rs.zipIdx.map fun r => issued (id + r.2) (some tag) r.1.1 l f (ask r.1)

theorem issuedAll_cons (tag l f : Nat) (ask : ReadFor × Nat × Nat → List (Nat × Nat)) (id : Nat) (r : ReadFor × Nat × Nat)
    (rs : List (ReadFor × Nat × Nat)) :
    issuedAll tag l f ask id (r :: rs) = issued id (some tag) r.1 l f (ask r) :: issuedAll tag l f ask (id + 1) rs := by
  unfold issuedAll
  rw [List.zipIdx_cons', List.map_cons, List.map_map]
  refine congrArg₂ _ rfl (List.map_congr_left fun x _ => ?_)
  change issued (id + (x.2 + 1)) _ _ _ _ _ = issued (id + 1 + x.2) _ _ _ _ _
  rw [Nat.add_right_comm, Nat.add_assoc]
  rfl

/-- The block once a list of reads has gone out. -/
def readsOut (tag l f : Nat) (ask : ReadFor × Nat × Nat → List (Nat × Nat)) (rs : List (ReadFor × Nat × Nat)) (d : Dev) : Dev :=
  { d with
    cmd := { d.cmd with reads := d.cmd.reads ++ issuedAll tag l f ask d.cmd.nextRead rs, nextRead := d.cmd.nextRead + rs.length }
    out := d.out ++ ((rs.map ask).flatten).map fun p => .hostRead l f p.1 p.2 }

/-- Reads of a list go out while the link has a tag for each of their requests (R50). -/
theorem hostReads_issued {inst tag l f : Nat} {ask : ReadFor × Nat × Nat → List (Nat × Nat)} {rs : List (ReadFor × Nat × Nat)} {d : Dev}
    (serves : instFn d inst = some (l, f)) (still : AllSent d) (opens : ideOpen d l f = true) (asks : ∀ r, ask r = runPieces d l f [r.2])
    (room : (rs.map fun r => (ask r).length).sum ≤ tagsLeft d l) :
    rs.foldl (fun d r => hostRead inst (some tag) r.1 [r.2] d) d = readsOut tag l f ask rs d := by
  induction rs generalizing d with
  | nil => simp [readsOut, issuedAll]
  | cons r rs ih =>
    rw [List.map_cons, List.sum_cons] at room
    have fits : (runPieces d l f [r.2]).length ≤ tagsLeft d l := by
      rw [← asks r]
      omega
    have read := hostRead_issued (some tag) r.1 serves still opens fits
    rw [← asks r] at read
    have tags := tagsLeft_issued l (d := d) (e := readOut (some tag) r.1 l f (ask r) d) d.cmd.nextRead (some tag) r.1 f (ask r) rfl rfl
    rw [List.foldl_cons, read, ih (d := readOut (some tag) r.1 l f (ask r) d) serves (allSent_readOut still _ _ _ _ _)
      opens asks (by omega)]
    unfold readsOut readOut
    dsimp only
    rw [issuedAll_cons, List.append_assoc, List.append_assoc, List.map_cons, List.flatten_cons, List.map_append, List.length_cons,
      Nat.add_assoc, Nat.add_comm 1 rs.length]
    rfl

/-- A command as it stands while its reads are out. -/
def readingCmd (c : Cmd) : Cmd :=
  { c with stage := .reading, aux := if c.ver.1 = 1 && c.desc.opcode = 0x0301 then some (zeros 8) else c.aux }

/-- A command starts its reads, and waits for them (R89). -/
theorem startReads_eq {c : Cmd} {d : Dev} {l f : Nat} {ask : ReadFor × Nat × Nat → List (Nat × Nat)} (nonempty : readsFor c ≠ [])
    (serves : instFn d c.inst = some (l, f)) (still : AllSent d) (opens : ideOpen d l f = true) (asks : ∀ r, ask r = runPieces d l f [r.2])
    (room : ((readsFor c).map fun r => (ask r).length).sum ≤ tagsLeft d l) :
    startReads c d = readsOut c.tag l f ask (readsFor c) (putCmd (readingCmd c) d) := by
  have opens' : hostOpen d c.inst = true := by
    unfold hostOpen
    rw [serves]
    exact opens
  have reads := hostReads_issued (tag := c.tag) (d := putCmd (readingCmd c) d) serves still opens asks room
  have waits : readsDone (readsOut c.tag l f ask (readsFor c) (putCmd (readingCmd c) d)) c.tag = false := by
    obtain ⟨r, rs, first⟩ := List.exists_cons_of_ne_nil nonempty
    unfold readsDone readsOut
    rw [first, issuedAll_cons]
    simp [issued]
  have starts : startReads c d = readsFinish (readingCmd c)
      ((readsFor c).foldl (fun d r => hostRead c.inst (some c.tag) r.1 [r.2] d) (putCmd (readingCmd c) d)) := if_neg (by simp [opens'])
  rw [starts, reads]
  exact if_neg fun done => Bool.false_ne_true (waits.symm.trans ((Bool.and_eq_true _ _).mp done).2)

section
variable {s : State} {d : Dev} (b : Begins s d) {tag : Nat} {k : Cmd} (named : cmdOf d tag = some k)
include b named

/-- The clauses of DESCRIPTOR_PARSE (R89). -/
theorem descriptorParse_completes (still : AllSent d) (stands : k.stage = .fetched) (held : parseHeld d k = false) (room : rqFull d = false)
    (tags : instTag d k.inst = true) {c : Cmd} {l f : Nat} {ask : ReadFor × Nat × Nat → List (Nat × Nat)} (h : parsed d k = .ok c)
    (sound : descFault (pypMinor c) c.desc = none) (mode : c.desc.opcode = 0x0110 → d.sys.mode = .ceremony)
    (routes : opRouted c.desc.opcode = true → fldB d pgCMD Reg.CMD_CFG_RQ_EN = true) (reads : readsFor c ≠ [])
    (serves : instFn d c.inst = some (l, f)) (opens : ideOpen d l f = true) (asks : ∀ r, ask r = runPieces d l f [r.2])
    (fits : ((readsFor c).map fun r => (ask r).length).sum ≤ tagsLeft d l) :
    Completes (.descriptorParse tag) s [.cmd, .regs, .shadow] fun t =>
      cmdOf t tag = some { c with
        stage := .reading, aux := if c.ver.1 = 1 && c.desc.opcode = 0x0301 then some (zeros 8) else c.aux }
      ∧ (∀ m, m ≠ tag → cmdOf t m = cmdOf d m)
      ∧ t.cmd.reads = d.cmd.reads ++ (readsFor c).zipIdx.map (fun r =>
          ⟨d.cmd.nextRead + r.2, some tag, r.1.1, false, none, l, (ask r.1).length, [], f, ((ask r.1).map (·.2)).sum, []⟩)
      ∧ t.out = (((readsFor c).map ask).flatten).map (fun p => .hostRead l f p.1 p.2) ∧ pagesBut [pgCMD] d t := by
  have tagged : c.tag = tag := (parsed_same h).1.trans (tag_of_cmdOf named)
  have go := parseGo_reads held room tags h sound mode routes
  rw [startReads_eq reads serves still opens asks fits, tagged] at go
  have ends := descriptorParse_ends (q := fun t => cmdOf t tag = some (readingCmd c) ∧ (∀ m, m ≠ tag → cmdOf t m = cmdOf d m)
    ∧ t.cmd.reads = d.cmd.reads ++ issuedAll tag l f ask d.cmd.nextRead (readsFor c)
    ∧ t.out = (((readsFor c).map ask).flatten).map (fun p => .hostRead l f p.1 p.2)) b named stands go rfl fun t cmds out => ?_
  · simp only [and_assoc] at ends
    exact ends
  · have table := cmdOf_cmds (a := putCmd (readingCmd c) d) (b := t) (by rw [cmds]; rfl)
    refine ⟨?_, fun m hm => ?_, ?_, ?_⟩
    · rw [table, cmdOf_putCmd_same (c := readingCmd c) named tagged]
    · rw [table, cmdOf_putCmd_other d (c := readingCmd c) (tagged ▸ hm)]
    · rw [cmds]
      rfl
    · rw [out]
      change d.out ++ _ = _
      rw [begins_out b, List.nil_append]

end

end Sys2Proof.Proofs
end

section
/-! HOST_READ_COMPLETION: what a read of host memory is for goes on, or fails (R66, R81, R83, R89). -/

open Sys2Proof Sys2Proof.Machine

namespace Sys2Proof.Proofs

/-! ## The read that is answered -/

/-- The read is no longer under way. -/
def forget (id : Nat) (d : Dev) : Dev := modCmdSt (fun s => { s with reads := s.reads.filter (fun x => x.id ≠ id) }) d

theorem mem_forget {id : Nat} {d : Dev} {x : HRead} (h : x ∈ (forget id d).cmd.reads) : x ∈ d.cmd.reads ∧ x.id ≠ id := by
  simpa [forget, modCmdSt] using h

theorem allSent_forget {id : Nat} {d : Dev} (still : AllSent d) : AllSent (forget id d) := fun x hx => still x (mem_forget hx).1

theorem find_read {d : Dev} {r : HRead} (under : r ∈ d.cmd.reads) (one : ∀ x, x ∈ d.cmd.reads → x.id = r.id → x = r) :
    d.cmd.reads.find? (fun x => x.id = r.id) = some r := by
  cases found : d.cmd.reads.find? (fun x => x.id = r.id) with
  | none => exact absurd (List.find?_eq_none.mp found r under) (by simp)
  | some x => rw [one x (List.mem_of_find?_eq_some found) (by simpa using List.find?_some found)]

section
variable {s : State} {d : Dev} (b : Begins s d) (still : AllSent d) (calm : d.sys.draining = none) {r : HRead} (under : r ∈ d.cmd.reads)
  (one : ∀ x, x ∈ d.cmd.reads → x.id = r.id → x = r) (awake : Awake d (some r.link))
include b still calm under one awake

/-- The answer of a read none of whose requests waits ends it, and lets no other go out (R50, R66). -/
theorem hostRead_completes {data : HostData} {e : Dev} {but : List Part} {q : Dev → Prop}
    (ends : readEnd r (data.map (r.have' ++ ·)) d = e) (left : AllSent e) (sys : e.sys = d.sys) (mpe : e.mpe = d.mpe)
    (keep : ∀ p : Part, p ∉ but → p.same d e) (hq : q e) : Completes (.hostReadCompletion r.id data) s but q := by
  have found := find_read under one
  have link : readLink d r.id = some r.link := by
    unfold readLink
    rw [found]
    rfl
  have done : readDone r.id data d = e := by
    have sent : (r.todo.isEmpty || r.dropped) = true := by rw [still r under]; rfl
    unfold readDone
    rw [found]
    dsimp only
    cases data with
    | none =>
      change pumpReads r.link (readEnd r none d) = e
      rw [show readEnd r none d = e from ends, pumpReads_still r.link left]
    | some a =>
      dsimp only
      rw [if_pos sent, show readEnd r (some (r.have' ++ a)) d = e from ends, pumpReads_still r.link left]
  refine completes_runDev b (Eq.refl (execHostReadCompletion r.id data s)) ?_ (mpe ▸ b.2) keep hq
  rw [link, tlpWake_awake awake, done]
  unfold drainStep
  rw [sys, calm]

end

/-! ## Reads of a queue's descriptors -/

/-- The answer that a fetch brings is kept with it. -/
def answered (id : Nat) (data : HostData) (x : HRead) : HRead := if x.id = id then { x with got := some data } else x

theorem answered_id (id : Nat) (data : HostData) (x : HRead) : (answered id data x).id = x.id := by
  unfold answered
  split <;> rfl

theorem fetchesFor_answered (inst q id : Nat) (data : HostData) (x : HRead) :
    fetchesFor inst q (answered id data x) = fetchesFor inst q x := by
  unfold answered
  split <;> rfl

theorem filter_answered (id : Nat) (data : HostData) (l : List HRead) :
    (l.map (answered id data)).filter (fun x => x.id ≠ id) = l.filter fun x => x.id ≠ id := by
  induction l with
  | nil => rfl
  | cons x xs ih =>
    rw [List.map_cons, List.filter_cons, List.filter_cons, ih, answered_id]
    by_cases this : x.id = id
    · simp [this]
    · simp [answered, this]

/-- A queue whose first fetch has no answer takes none in (R94). -/
theorem fetchDrain_waits {inst q : Nat} (fuel : Nat) {d : Dev} (h : ∀ x, x ∈ d.cmd.reads → fetchesFor inst q x = true → x.got = none) :
    fetchDrain inst q fuel d = d := by
  cases fuel with
  | zero => rfl
  | succ f =>
    unfold fetchDrain
    cases found : d.cmd.reads.find? (fetchesFor inst q) with
    | none => rfl
    | some x =>
      dsimp only
      rw [h x (List.mem_of_find?_eq_some found) (List.find?_some found)]
      cases x.what <;> rfl

/-- The queue's oldest fetch is taken in once it is answered (R84, R94). -/
theorem readEnd_fetch {d : Dev} {r : HRead} {inst q cq n : Nat} {live : Bool} (data : HostData) (waited : r.dropped = false)
    (what : r.what = .fetch inst q cq n live) (oldest : d.cmd.reads.find? (fetchesFor inst q) = some r)
    (others : ∀ x, x ∈ (fetchDone inst q cq n live data (forget r.id d)).cmd.reads → fetchesFor inst q x = true → x.got = none) :
    readEnd r data d = fetchDone inst q cq n live data (forget r.id d) := by
  have first : (d.cmd.reads.map (answered r.id data)).find? (fetchesFor inst q) = some { r with got := some data } := by
    rw [List.find?_map,
      show fetchesFor inst q ∘ answered r.id data = fetchesFor inst q from funext (fetchesFor_answered inst q r.id data), oldest]
    exact congrArg some (if_pos rfl)
  have gone : modCmdSt (fun s => { s with reads := s.reads.filter (fun x => x.id ≠ r.id) })
      (modCmdSt (fun s => { s with reads := s.reads.map (answered r.id data) }) d) = forget r.id d := by
    unfold modCmdSt forget
    dsimp only
    rw [filter_answered]
    rfl
  have drains : readEnd r data d
      = fetchDrain inst q (d.cmd.reads.length + 1) (modCmdSt (fun s => { s with reads := s.reads.map (answered r.id data) }) d) := by
    unfold readEnd
    rw [waited, what]
    rfl
  rw [drains]
  unfold fetchDrain
  rw [show (modCmdSt (fun s => { s with reads := s.reads.map (answered r.id data) }) d).cmd.reads.find? (fetchesFor inst q)
    = some { r with got := some data } from first]
  dsimp only
  rw [what]
  dsimp only
  rw [gone, fetchDrain_waits _ others]

/-- A field that is written leaves every other register. -/
theorem regGet_setFld_regs (d : Dev) {p q off : Nat} {f : Fld} (v : Nat) (hoff : off < 0x1000) (hf : f.off < 0x1000)
    (h : (q, off / 4) ≠ (p, f.off / 4)) : regGet (setFld d p f v) q off = regGet d q off := by
  refine regGet_setFld_other d v fun same => h ?_
  unfold regKey at same
  rw [Prod.mk.injEq]
  omega

theorem takeEntry_admitted {inst q cq : Nat} {b : Bytes} {d : Dev} (allowed : fetchDenied d inst (rawOpcode (verOf d inst) b) = none) :
    takeEntry inst q cq b d = wrapFld (modCmdSt (fun s => { s with
      cmds := s.cmds ++ [freshCmd d.cmd.nextTag inst q cq (verOf d inst) b], nextTag := (d.cmd.nextTag + 1) % 2 ^ 32 }) d)
      pgCMD Reg.CMD_STAT_FETCH_FETCHED 1 := by
  unfold takeEntry
  dsimp only
  rw [allowed]

/-- What taking entries in changes: the table of commands, the next TAG, and the count of entries fetched (R83). -/
theorem takeEntries_spec {inst q cq e : Nat} {b : Bytes} {d : Dev} (hi : inst < 1024) (n : Nat) (room : d.cmd.nextTag + n < 2 ^ 32)
    (admits : ∀ j, j < n → fetchDenied d inst (rawOpcode (verOf d inst) (slice b (j * e) e)) = none) :
    ∃ regs, (List.range n).foldl (fun d k => takeEntry inst q cq (slice b (k * e) e) d) d = { d with
        cmd := { d.cmd with
          cmds := d.cmd.cmds ++ (List.range n).map (fun j => freshCmd (d.cmd.nextTag + j) inst q cq (verOf d inst) (slice b (j * e) e))
          nextTag := d.cmd.nextTag + n }
        regs := regs }
      ∧ fld { d with regs := regs } pgCMD Reg.CMD_STAT_FETCH_FETCHED = (fld d pgCMD Reg.CMD_STAT_FETCH_FETCHED + n) % 2 ^ 32
      ∧ regsBut [(pgCMD, 0x068)] d { d with regs := regs } := by
  induction n with
  | zero =>
    refine ⟨d.regs, by simp, ?_, fun _ _ _ _ => rfl⟩
    exact (Nat.mod_eq_of_lt (bits_lt _ 31 0)).symm
  | succ n ih =>
    obtain ⟨regs, taken, count, words⟩ := ih (by omega) fun j hj => admits j (by omega)
    have away : ∀ f : Fld, f.off = 0x104 → fld { d with regs := regs } (instPage inst) f = fld d (instPage inst) f := fun f hf => by
      unfold fld
      rw [words _ _ (by simp [pgCMD, instPage]; omega) (by omega)]
    have ver : verOf { d with regs := regs } inst = verOf d inst := by
      unfold verOf
      rw [away _ rfl, away _ rfl]
    have allowed := admits n (by omega)
    rw [← ver] at allowed
    have tag : (d.cmd.nextTag + n + 1) % 2 ^ 32 = d.cmd.nextTag + (n + 1) := Nat.mod_eq_of_lt (by omega)
    have counted := fld_setFld_same { d with regs := regs } pgCMD Reg.CMD_STAT_FETCH_FETCHED
      ((fld { d with regs := regs } pgCMD Reg.CMD_STAT_FETCH_FETCHED + 1) % 2 ^ 32) ⟨by decide, by decide⟩
    refine ⟨(wrapFld { d with regs := regs } pgCMD Reg.CMD_STAT_FETCH_FETCHED 1).regs, ?_, ?_, fun p off hp hoff => ?_⟩
    · rw [List.range_succ, List.foldl_append, taken, List.foldl_cons, List.foldl_nil, takeEntry_admitted (by exact allowed),
        List.map_append, ← List.append_assoc, ← tag, ← ver]
      rfl
    · refine Eq.trans counted ?_
      rw [count]
      change _ % 2 ^ 32 = _
      omega
    · refine Eq.trans (regGet_setFld_regs { d with regs := regs } _ hoff (by decide) fun same => hp ?_) (words p off hp hoff)
      rw [same]
      exact List.mem_singleton.mpr rfl

theorem inWord_fldAt {f : Fld} (w : InWord f) (q : Nat) : InWord (fldAt f q) := w

/-- A status field of a queue that is written leaves every register but that one. -/
theorem regsBut_setQ {inst q : Nat} {f : Fld} (v : Nat) (d : Dev) (off : f.off = 0x20C) (stride : f.stride = 0x10) (hq : q < 16) :
    regsBut [(instPage inst, 0x20C + 0x10 * q)] d (setQ inst q f v d) := by
  have at' : (fldAt f q).off = 0x20C + 0x10 * q := by
    change f.off + q * f.stride = _
    rw [off, stride, Nat.mul_comm]
  intro p o hp ho
  refine regGet_setFld_regs d v ho (by omega) fun same => hp ?_
  rw [same, at']
  exact List.mem_singleton.mpr rfl

/-- HEAD moves past the entries of a fetch that still counts (R84, R96). -/
def headMoved (inst q n : Nat) (live : Bool) (d : Dev) : Dev :=
  if live then setQ inst q Reg.SQ_STAT_HEAD ((qFld d inst q Reg.SQ_STAT_HEAD + n) % sqSize d inst q) d else d

theorem headMoved_spec {inst q : Nat} (n : Nat) (live : Bool) (d : Dev) (hq : q < 16) :
    headMoved inst q n live d = { d with regs := (headMoved inst q n live d).regs }
    ∧ qFld (headMoved inst q n live d) inst q Reg.SQ_STAT_HEAD
      = (if live then (qFld d inst q Reg.SQ_STAT_HEAD + n) % sqSize d inst q % 2 ^ 16 else qFld d inst q Reg.SQ_STAT_HEAD)
    ∧ regsBut [(instPage inst, 0x20C + 0x10 * q)] d (headMoved inst q n live d) := by
  cases live
  · exact ⟨rfl, rfl, fun _ _ _ _ => rfl⟩
  · exact ⟨rfl, fld_setFld_same d (instPage inst) (fldAt Reg.SQ_STAT_HEAD q) _ (inWord_fldAt ⟨by decide, by decide⟩ q),
      regsBut_setQ _ d rfl rfl hq⟩

/-- An answered fetch: HEAD moves, and each of its entries is a command in the parser's queue (R83, R84). -/
theorem fetchDone_spec {inst q cq n : Nat} {live : Bool} {b : Bytes} {d : Dev} (hi : inst < 1024) (hq : q < 16)
    (room : d.cmd.nextTag + n < 2 ^ 32) (admits : ∀ j, j < n →
      fetchDenied d inst (rawOpcode (verOf d inst) (slice b (j * sqEntry (verOf d inst)) (sqEntry (verOf d inst)))) = none) :
    ∃ regs, fetchDone inst q cq n live (some b) d = { d with
        cmd := { d.cmd with
          cmds := d.cmd.cmds ++ (List.range n).map (fun j => freshCmd (d.cmd.nextTag + j) inst q cq (verOf d inst)
            (slice b (j * sqEntry (verOf d inst)) (sqEntry (verOf d inst))))
          nextTag := d.cmd.nextTag + n }
        regs := regs }
      ∧ qFld { d with regs := regs } inst q Reg.SQ_STAT_HEAD
        = (if live then (qFld d inst q Reg.SQ_STAT_HEAD + n) % sqSize d inst q % 2 ^ 16 else qFld d inst q Reg.SQ_STAT_HEAD)
      ∧ fld { d with regs := regs } pgCMD Reg.CMD_STAT_FETCH_FETCHED = (fld d pgCMD Reg.CMD_STAT_FETCH_FETCHED + n) % 2 ^ 32
      ∧ regsBut [(pgCMD, 0x068), (instPage inst, 0x20C + 0x10 * q)] d { d with regs := regs } := by
  obtain ⟨only, head, words⟩ := headMoved_spec (inst := inst) n live d hq
  have moved : fetchDone inst q cq n live (some b) d = (List.range n).foldl (fun x k => takeEntry inst q cq
      (slice b (k * sqEntry (verOf d inst)) (sqEntry (verOf d inst))) x) (headMoved inst q n live d) := rfl
  have apart : instPage inst ≠ pgCMD := by
    unfold instPage pgCMD
    omega
  generalize (headMoved inst q n live d).regs = regs at only
  rw [only] at head words moved
  have ver : verOf { d with regs := regs } inst = verOf d inst := by
    have away : ∀ f : Fld, f.off = 0x104 → fld { d with regs := regs } (instPage inst) f = fld d (instPage inst) f := fun f hf => by
      unfold fld
      rw [words _ _ (by simp; omega) (by omega)]
    unfold verOf
    rw [away _ rfl, away _ rfl]
  obtain ⟨regs', taken, count, words'⟩ := takeEntries_spec (q := q) (cq := cq) (e := sqEntry (verOf d inst)) (b := b)
    (d := { d with regs := regs }) hi n room fun j hj => by
      rw [ver]
      exact admits j hj
  refine ⟨regs', moved.trans (taken.trans ?_), ?_, count.trans ?_, fun p off hp hoff => ?_⟩
  · rw [ver]
  · rw [← head]
    unfold qFld fld
    refine congrArg (bits · _ _) (words' _ _ ?_ ?_)
    · simp [apart]
    · change 0x20C + q * 0x10 < _
      omega
  · refine congrArg (fun w => (bits w 31 0 + n) % 2 ^ 32) (words _ _ ?_ (by decide))
    simp [Ne.symm apart]
  · simp only [List.map_cons, List.map_nil, List.mem_cons, List.not_mem_nil, or_false, not_or] at hp
    exact (words' p off (by simpa using hp.1) hoff).trans (words p off (by simpa using hp.2) hoff)

/-- A queue stops on an error (R81). -/
theorem sqError_spec {inst q code : Nat} {d : Dev} (hi : inst < 1024) (hq : q < 16) (hc : code < 16) :
    OnlyFields d (sqError inst q code d)
    ∧ queueHolds (sqError inst q code d) inst q [(Reg.SQ_STAT_ERROR, 1), (Reg.SQ_STAT_ERR, code)]
    ∧ regsBut [(instPage inst, 0x20C + 0x10 * q)] d (sqError inst q code d)
    ∧ eventAt (instPage inst) 3 d (sqError inst q code d) := by
  have flag : InWord (fldAt Reg.SQ_STAT_ERROR q) := inWord_fldAt ⟨by decide, by decide⟩ q
  have cause : InWord (fldAt Reg.SQ_STAT_ERR q) := inWord_fldAt ⟨by decide, by decide⟩ q
  have set := onlyFields_trans (setFld_onlyFields (instPage inst) (fldAt Reg.SQ_STAT_ERROR q) 1 d)
    (setFld_onlyFields (instPage inst) (fldAt Reg.SQ_STAT_ERR q) code _)
  have stops : qFld (setQ inst q Reg.SQ_STAT_ERR code (setQ inst q Reg.SQ_STAT_ERROR 1 d)) inst q Reg.SQ_STAT_ERROR = 1 :=
    (fld_setFld_beside _ _ _ flag cause rfl (.inr (show Reg.SQ_STAT_ERROR.hi < Reg.SQ_STAT_ERR.lo by decide))).trans
      (fld_setFld_same _ _ _ _ flag)
  have tells : qFld (setQ inst q Reg.SQ_STAT_ERR code (setQ inst q Reg.SQ_STAT_ERROR 1 d)) inst q Reg.SQ_STAT_ERR = code :=
    (fld_setFld_same _ _ _ _ cause).trans (Nat.mod_eq_of_lt hc)
  have words : regsBut [(instPage inst, 0x20C + 0x10 * q)] d (setQ inst q Reg.SQ_STAT_ERR code (setQ inst q Reg.SQ_STAT_ERROR 1 d)) :=
    fun p off hp hoff => (regsBut_setQ code _ rfl rfl hq p off hp hoff).trans (regsBut_setQ 1 d rfl rfl hq p off hp hoff)
  have hdr : (setQ inst q Reg.SQ_STAT_ERR code (setQ inst q Reg.SQ_STAT_ERROR 1 d)).hdr = d.hdr := rfl
  unfold sqError
  change OnlyFields d (setQ inst q Reg.SQ_STAT_ERR code (setQ inst q Reg.SQ_STAT_ERROR 1 d)) at set
  generalize setQ inst q Reg.SQ_STAT_ERR code (setQ inst q Reg.SQ_STAT_ERROR 1 d) = x at *
  have raised := regGet_onlyRaised (raiseEv_onlyRaised (instPage inst) 3 x)
  refine ⟨onlyFields_trans set (raiseEv_onlyFields _ 3 x), fun f hf => ?_, fun p off hp hoff => ?_,
    eventAt_hdr hdr (eventAt_raiseEv (pageKind_instPage hi) rfl 3 x)⟩
  · unfold qFld fld at *
    rw [raised]
    simp only [List.mem_cons, List.not_mem_nil, or_false] at hf
    obtain rfl | rfl := hf
    · exact stops
    · exact tells
  · rw [raised, words p off hp hoff]

theorem same_cmdRegs {d : Dev} (x : CmdSt) (y : SMap (BitVec 32)) {p : Part} (hp : p ∉ [Part.cmd, .regs]) :
    p.same d { d with cmd := x, regs := y } := by
  cases p <;> simp_all [Part.same]

theorem same_cmdFields {a b : Dev} {x : CmdSt} (h : OnlyFields { a with cmd := x } b) {p : Part} (hp : p ∉ [Part.cmd, .regs, .hdr, .host]) :
    p.same a b := by
  rw [h]
  cases p <;> simp_all [Part.same]

section
variable {s : State} {d : Dev} (b : Begins s d) (still : AllSent d) (calm : d.sys.draining = none) {r : HRead} (under : r ∈ d.cmd.reads)
  (one : ∀ x, x ∈ d.cmd.reads → x.id = r.id → x = r) (awake : Awake d (some r.link)) (waited : r.dropped = false)
  {inst q cq n : Nat} {live : Bool} (what : r.what = .fetch inst q cq n live) (hi : inst < 1024) (hq : q < 16)
  (oldest : d.cmd.reads.find? (fetchesFor inst q) = some r)
include b still calm under one awake waited what hi hq oldest

/-- Descriptors arrive (R83, R84). -/
theorem fetchRead_completes {a bytes : Bytes} {e : Nat} (all : bytes = r.have' ++ a) (he : e = sqEntry (verOf d inst))
    (room : d.cmd.nextTag + n < 2 ^ 32) (others : ∀ x, x ∈ d.cmd.reads → x ≠ r → fetchesFor inst q x = true → x.got = none)
    (admits : ∀ j, j < n → fetchDenied d inst (rawOpcode (verOf d inst) (slice bytes (j * e) e)) = none) :
    Completes (.hostReadCompletion r.id (some a)) s [.cmd, .regs] fun t =>
      t.cmd.cmds = d.cmd.cmds ++ (List.range n).map (fun j =>
        freshCmd (d.cmd.nextTag + j) inst q cq (verOf d inst) (slice bytes (j * e) e))
      ∧ t.cmd.reads = d.cmd.reads.filter (fun x => x.id ≠ r.id)
      ∧ qFld t inst q Reg.SQ_STAT_HEAD = (if live then (qFld d inst q Reg.SQ_STAT_HEAD + n) % sqSize d inst q % 2 ^ 16
          else qFld d inst q Reg.SQ_STAT_HEAD)
      ∧ fld t pgCMD Reg.CMD_STAT_FETCH_FETCHED = (fld d pgCMD Reg.CMD_STAT_FETCH_FETCHED + n) % 2 ^ 32
      ∧ regsBut [(pgCMD, 0x068), (instPage inst, 0x20C + 0x10 * q)] d t := by
  subst all he
  obtain ⟨regs, done, head, count, words⟩ := fetchDone_spec (cq := cq) (live := live) (b := r.have' ++ a) (d := forget r.id d) hi hq
    room admits
  refine hostRead_completes (data := some a) b still calm under one awake
    ((readEnd_fetch (some (r.have' ++ a)) waited what oldest ?_).trans done) ?_ rfl rfl (fun p hp => ?_) ⟨rfl, rfl, head, count, words⟩
  · rw [done]
    intro x hx
    obtain ⟨mem, other⟩ := mem_forget hx
    exact others x mem fun same => other (same ▸ rfl)
  · exact allSent_forget still
  · exact same_cmdRegs _ _ hp

/-- Descriptors that do not arrive: the queue stops with cause 2 (R81, R84). -/
theorem fetchRead_fails : Completes (.hostReadCompletion r.id none) s [.cmd, .regs, .hdr, .host] fun t =>
    queueHolds t inst q [(Reg.SQ_STAT_ERROR, 1), (Reg.SQ_STAT_ERR, 2)] ∧ t.cmd.cmds = d.cmd.cmds
    ∧ (∀ x, x ∈ t.cmd.reads → fetchesFor inst q x = false) ∧ regsBut [(instPage inst, 0x20C + 0x10 * q)] d t
    ∧ eventAt (instPage inst) 3 d t := by
  obtain ⟨only, holds, words, event⟩ := sqError_spec (inst := inst) (q := q) (code := 2)
    (d := dropFetches (fetchesFor inst q) (forget r.id d)) hi hq (by decide)
  have dropped : ∀ x, x ∈ (dropFetches (fetchesFor inst q) (forget r.id d)).cmd.reads → fetchesFor inst q x = false := by
    intro x hx
    obtain ⟨y, -, rfl⟩ := List.mem_map.mp hx
    split
    · unfold fetchesFor
      split <;> simp
    · rename_i other
      simpa using other
  have sent : AllSent (dropFetches (fetchesFor inst q) (forget r.id d)) := by
    intro x hx
    obtain ⟨y, hy, rfl⟩ := List.mem_map.mp hx
    have before := allSent_forget still y (List.mem_filter.mp hy).1
    split <;> exact before
  have ends : fetchDone inst q cq n live none (forget r.id d) = sqError inst q 2 (dropFetches (fetchesFor inst q) (forget r.id d)) := rfl
  have onlyCmd : ∃ x, dropFetches (fetchesFor inst q) (forget r.id d) = { d with cmd := x } ∧ x.cmds = d.cmd.cmds := ⟨_, rfl, rfl⟩
  obtain ⟨x, whole, cmds⟩ := onlyCmd
  generalize ht : sqError inst q 2 (dropFetches (fetchesFor inst q) (forget r.id d)) = t at *
  have table : t.cmd = (dropFetches (fetchesFor inst q) (forget r.id d)).cmd := by rw [only]
  rw [whole] at only words event
  refine hostRead_completes (data := none) b still calm under one awake ((readEnd_fetch none waited what oldest ?_).trans ends)
    ?_ (by rw [only]) (by rw [only]) (fun p hp => ?_) ⟨holds, ?_, ?_, words, event⟩
  · rw [ends]
    intro x hx
    rw [table] at hx
    rw [dropped x hx]
    exact fun no => nomatch no
  · unfold AllSent
    rw [table]
    exact sent
  · exact same_cmdFields only hp
  · rw [only]
    exact cmds
  · rw [table]
    exact dropped

end

/-! ## Reads of a command's data -/

theorem cmdOf_forget (id : Nat) (d : Dev) (m : Nat) : cmdOf (forget id d) m = cmdOf d m := rfl

/-- The answer of a read that a command waits for goes to the command (R66). -/
theorem readEnd_data {d : Dev} {r : HRead} {tag : Nat} {k : Cmd} (data : HostData) (waited : r.dropped = false) (tagged : r.tag = some tag)
    (named : cmdOf d tag = some k) (what : ∀ inst q cq n live, r.what ≠ .fetch inst q cq n live) :
    readEnd r data d = dataDone r k data (forget r.id d) := by
  unfold readEnd
  rw [if_neg (by simp [waited]), tagged]
  cases for' : r.what with
  | fetch inst q cq n live => exact absurd for' (what inst q cq n live)
  | src | srcSgl | dstSgl | aux | ticket =>
    dsimp only
    rw [named]
    rfl

/-- A command whose reads are answered is written back, and one that waits for another stays (R89). -/
theorem readsFinish_waits {c : Cmd} {d : Dev} (waits : readsDone d c.tag = false) : readsFinish c d = d :=
  if_neg fun done => Bool.false_ne_true (waits.symm.trans ((Bool.and_eq_true _ _).mp done).2)

section
variable {c : Cmd} {d : Dev} (stands : c.stage = .reading) (done : readsDone d c.tag = true)
include stands done

theorem readsFinish_fault {e : Denial} (fault : (auxFault c).or (roomFault d c) = some e) :
    readsFinish c d = putCmd { c with stage := .held, result := some (deniedResult e) } d := by
  unfold readsFinish
  rw [if_pos (by simp [stands, done]), fault]
  rfl

theorem readsFinish_policy (sound : (auxFault c).or (roomFault d c) = none) : readsFinish c d = putCmd { c with stage := .policy } d := by
  unfold readsFinish
  rw [if_pos (by simp [stands, done]), sound]

omit done in
theorem readsFinish_cases : readsFinish c d = d ∨ ∃ c' : Cmd, readsFinish c d = putCmd c' d ∧ c'.tag = c.tag := by
  cases finished : readsDone d c.tag with
  | false => exact .inl (readsFinish_waits finished)
  | true =>
    cases verdict : (auxFault c).or (roomFault d c) with
    | none => exact .inr ⟨_, readsFinish_policy stands finished verdict, rfl⟩
    | some e => exact .inr ⟨_, readsFinish_fault stands finished verdict, rfl⟩

end

section
variable {s : State} {d : Dev} (b : Begins s d) (still : AllSent d) (calm : d.sys.draining = none) {r : HRead} (under : r ∈ d.cmd.reads)
  (one : ∀ x, x ∈ d.cmd.reads → x.id = r.id → x = r) (awake : Awake d (some r.link)) (waited : r.dropped = false) {tag : Nat} {k : Cmd}
  (tagged : r.tag = some tag) (named : cmdOf d tag = some k)
include b still calm under one awake waited tagged named

/-- Data that fail their command: it is held with its denial, and its other reads are not waited for (R66, R91). -/
theorem dataRead_fails {data : HostData} {e : Denial} (what : ∀ inst q cq n live, r.what ≠ .fetch inst q cq n live)
    (fails : dataDone r k (data.map (r.have' ++ ·)) (forget r.id d) = failRead k e (forget r.id d)) :
    Completes (.hostReadCompletion r.id data) s [.cmd] fun t =>
      cmdOf t tag = some { k with stage := .held, result := some (failed e.1 e.2) }
      ∧ (∀ m, m ≠ tag → cmdOf t m = cmdOf d m) ∧ (∀ x, x ∈ t.cmd.reads → x.tag = some tag → x.dropped = true) := by
  have same := tag_of_cmdOf named
  have table : ∀ m, cmdOf (failRead k e (forget r.id d)) m
      = cmdOf (putCmd { k with stage := .held, result := some (failed e.1 e.2) } (forget r.id d)) m := fun _ => rfl
  refine hostRead_completes b still calm under one awake ((readEnd_data _ waited tagged named what).trans fails) ?_ rfl rfl
    (fun p hp => same_cmd _ hp) ⟨?_, fun m hm => ?_, fun x hx own => ?_⟩
  · intro x hx
    obtain ⟨y, hy, rfl⟩ := List.mem_map.mp hx
    have before := allSent_forget still y hy
    split <;> exact before
  · rw [table]
    exact cmdOf_putCmd_same ((cmdOf_forget _ d tag).trans named) same
  · rw [table, cmdOf_putCmd_other _ (same ▸ hm), cmdOf_forget]
  · obtain ⟨y, -, rfl⟩ := List.mem_map.mp hx
    rw [same] at own ⊢
    split
    · rfl
    · rename_i other
      rw [if_neg other] at own
      exact absurd own other

/-- A read of a command's data that fails (R91). -/
theorem dataRead_lost (what : r.what ∈ [ReadFor.src, .aux, .srcSgl, .dstSgl, .ticket]) :
    Completes (.hostReadCompletion r.id none) s [.cmd] fun t =>
      cmdOf t tag = some { k with stage := .held, result := some (failed stHOST_ACCESS (readInfo r.what)) }
      ∧ (∀ m, m ≠ tag → cmdOf t m = cmdOf d m) ∧ (∀ x, x ∈ t.cmd.reads → x.tag = some tag → x.dropped = true) :=
  dataRead_fails (data := none) (e := (stHOST_ACCESS, readInfo r.what)) b still calm under one awake waited tagged named
    (fun _ _ _ _ _ for' => by simp [for'] at what) rfl

/-- An entry of a scatter list that fails the descriptor (R87). -/
theorem sglRead_fails {a : Bytes} {e : Denial}
    (what : (r.what = .srcSgl ∧ sglStep (r.have' ++ a) (k.srcList.getD []) k.desc.srcLen = .error e)
      ∨ (r.what = .dstSgl ∧ sglStep (r.have' ++ a) (k.dstList.getD []) k.desc.dstLen = .error e)) :
    Completes (.hostReadCompletion r.id (some a)) s [.cmd] fun t =>
      cmdOf t tag = some { k with stage := .held, result := some (failed e.1 e.2) }
      ∧ (∀ m, m ≠ tag → cmdOf t m = cmdOf d m) ∧ (∀ x, x ∈ t.cmd.reads → x.tag = some tag → x.dropped = true) := by
  refine dataRead_fails (data := some a) b still calm under one awake waited tagged named (fun _ _ _ _ _ for' => ?_) ?_
  · obtain ⟨is, -⟩ | ⟨is, -⟩ := what <;> exact nomatch is.symm.trans for'
  · unfold dataDone
    obtain ⟨is, fault⟩ | ⟨is, fault⟩ := what <;> rw [is] <;> dsimp only [Option.map_some] <;> rw [fault]

/-- Data that arrive: the command goes on to the policy check once every read of its is answered (R89, R120). -/
theorem dataRead_arrives {a : Bytes} {k' : Cmd} (what : ∀ inst q cq n live, r.what ≠ .fetch inst q cq n live)
    (same : k'.tag = tag) (stands : k'.stage = .reading)
    (takes : dataDone r k (some (r.have' ++ a)) (forget r.id d) = readsFinish k' (putCmd k' (forget r.id d))) :
    Completes (.hostReadCompletion r.id (some a)) s [.cmd] fun t =>
      (∀ m, m ≠ tag → cmdOf t m = cmdOf d m) ∧ t.cmd.reads = d.cmd.reads.filter (fun x => x.id ≠ r.id)
      ∧ ((∀ x, x ∈ d.cmd.reads → x.id ≠ r.id → x.tag ≠ some tag) →
        (auxFault k' = none → roomFault d k' = none → cmdOf t tag = some { k' with stage := .policy })
        ∧ (∀ e, (auxFault k').or (roomFault d k') = some e →
          cmdOf t tag = some { k' with stage := .held, result := some (deniedResult e) }))
      ∧ (∀ x, x ∈ d.cmd.reads → x.id ≠ r.id → x.tag = some tag → cmdOf t tag = some k') := by
  subst same
  have there : cmdOf (putCmd k' (forget r.id d)) k'.tag = some k' := cmdOf_putCmd_same ((cmdOf_forget _ d _).trans named) rfl
  have shape : ∃ cs, readsFinish k' (putCmd k' (forget r.id d)) = { d with cmd := { (forget r.id d).cmd with cmds := cs } } := by
    obtain ends | ⟨c, ends, -⟩ := readsFinish_cases (d := putCmd k' (forget r.id d)) stands <;> exact ⟨_, ends.trans rfl⟩
  have others : ∀ m, m ≠ k'.tag → cmdOf (readsFinish k' (putCmd k' (forget r.id d))) m = cmdOf d m := by
    intro m hm
    obtain ends | ⟨c, ends, tag⟩ := readsFinish_cases (d := putCmd k' (forget r.id d)) stands
    · rw [ends, cmdOf_putCmd_other _ hm, cmdOf_forget]
    · rw [ends, cmdOf_putCmd_other _ (tag ▸ hm), cmdOf_putCmd_other _ hm, cmdOf_forget]
  have done : (∀ x, x ∈ d.cmd.reads → x.id ≠ r.id → x.tag ≠ some k'.tag) → readsDone (putCmd k' (forget r.id d)) k'.tag = true := by
    intro last
    refine List.all_eq_true.mpr fun x hx => ?_
    obtain ⟨mem, other⟩ := mem_forget hx
    simpa using last x mem other
  obtain ⟨cs, whole⟩ := shape
  refine hostRead_completes b still calm under one awake
    ((readEnd_data (some (r.have' ++ a)) waited tagged named what).trans (takes.trans whole)) (allSent_forget still) rfl rfl
    (fun p hp => same_cmd _ hp) ⟨fun m hm => ?_, rfl, fun last => ⟨fun aux room => ?_, fun e fault => ?_⟩, fun x mem other own => ?_⟩
    <;> rw [← whole]
  · exact others m hm
  · rw [readsFinish_policy stands (done last) (Option.or_eq_none_iff.mpr ⟨aux, room⟩)]
    exact cmdOf_putCmd_same there rfl
  · rw [readsFinish_fault stands (done last) fault]
    exact cmdOf_putCmd_same there rfl
  · have waits : readsDone (putCmd k' (forget r.id d)) k'.tag = false := by
      refine List.all_eq_false.mpr ⟨x, List.mem_filter.mpr ⟨mem, by simpa using other⟩, by simp [own]⟩
    rw [readsFinish_waits waits]
    exact there

end

end Sys2Proof.Proofs
end

section
/-! From the ring in host memory to the work ring: the obligation (R66, R83, R89, R121). -/

open Sys2Proof Sys2Proof.Machine

namespace Sys2Proof.Proofs

/-- Settles O27: each command by the lemma about what it does to the table of commands and to the reads under way. -/
theorem commandIntakeCommands : Obligations.CommandIntakeCommands := by
  unfold Obligations.CommandIntakeCommands
  intro s d b still
  refine ⟨fun _ _ _ _ _ _ _ _ _ => descriptorFetch_completes b still, ?_, ?_, ?_, ?_⟩
  · intro r inst q cq n live under one waited _ what hi hq oldest awake calm
    exact ⟨fun _ _ _ => fetchRead_completes b still calm under one awake waited what hi hq oldest,
      fetchRead_fails b still calm under one awake waited what hi hq oldest⟩
  · intro r tag k under one waited tagged named awake calm
    refine ⟨fun a bytes k' all stands what => ?_, fun a e => sglRead_fails b still calm under one awake waited tagged named,
      dataRead_lost b still calm under one awake waited tagged named⟩
    subst all
    have same := tag_of_cmdOf named
    have notFetch : ∀ inst q cq n live, r.what ≠ .fetch inst q cq n live := fun _ _ _ _ _ for' => by simp [for'] at what
    obtain ⟨is, rfl⟩ | ⟨is, rfl⟩ | ⟨is, rfl⟩ := what
    · exact dataRead_arrives b still calm under one awake waited tagged named notFetch same stands (by unfold dataDone; rw [is])
    · exact dataRead_arrives b still calm under one awake waited tagged named notFetch same stands (by unfold dataDone; rw [is])
    · refine dataRead_arrives b still calm under one awake waited tagged named notFetch same stands ?_
      unfold dataDone
      rw [is]
      simp only [Bool.and_eq_true, decide_eq_true_eq]
  · intro tag k named stands held room tags
    refine ⟨fun st h => descriptorParse_puts b named stands (parseGo_untranslated held h) rfl, fun c st info r1 h fault => ?_,
      fun c l f ask h sound mode routes reads serves opens asks => descriptorParse_completes b named still stands held room tags h sound
        mode routes reads serves opens asks⟩
    exact descriptorParse_puts b named stands (parseGo_fault held room tags h fault) (parsed_same h).1
  · intro tag k err named stands
    refine ⟨fun e room => policyCheck_puts b named stands (policyGo_noRoom err room) rfl,
      fun room denied => policyCheck_puts b named stands (policyGo_lcDenied err room denied) rfl,
      fun room life first second plain routed serves others => ?_,
      fun k1 d1 room life run same cmds sound => ⟨fun routed => ?_, fun routed serves others => ?_⟩,
      fun e k1 d1 room life run same cmds sound => policyCheck_putsInto b named stands (policyGo_fail room life run) same cmds sound⟩
    · refine policyCheck_puts b named stands ((policyGo_pass room life (policyRun_noKey err.t1 d first second plain)).trans ?_) rfl
      exact (if_neg (by simp [routed])).trans (toRing_eq serves others)
    · exact policyCheck_putsInto b named stands ((policyGo_pass room life run).trans (if_pos routed)) same cmds sound
    · exact policyCheck_putsInto b named stands
        ((policyGo_pass room life run).trans ((if_neg (by simp [routed])).trans (toRing_eq serves (cmds ▸ others)))) same cmds sound

end Sys2Proof.Proofs
end

section
/-! The registers of a queue (R79): what its fields read after writes of several of them. -/

open Sys2Proof Sys2Proof.Machine

namespace Sys2Proof.Proofs

/-- A field of the registers of each queue, 16 bytes apart. -/
def QueueFld (f : Fld) : Prop := InWord f ∧ f.stride = 0x10 ∧ f.off % 4 = 0 ∧ f.off < 0x400

/-- Two fields of a queue share no bit. -/
def QueueApart (f g : Fld) : Prop := f.off ≠ g.off ∨ g.hi < f.lo ∨ f.hi < g.lo

/-- Fields of a queue of which no two share a bit. -/
def QueueFlds (l : List Fld) : Prop := (∀ f ∈ l, QueueFld f) ∧ l.Pairwise QueueApart

/-- The fields of a submission queue that its enabling writes, and those of a completion queue. -/
def sqFlds : List Fld :=
  [Reg.SQ_CFG_WEIGHT, Reg.SQ_CFG_CQ, Reg.SQ_CFG_SIZE, Reg.SQ_CFG_EN, Reg.SQ_STAT_ERR, Reg.SQ_STAT_ERROR, Reg.SQ_STAT_HEAD]
def cqFlds : List Fld :=
  [Reg.CQ_CFG_COAL_TIME, Reg.CQ_CFG_COAL_COUNT, Reg.CQ_CFG_IRQ_EN, Reg.CQ_CFG_SIZE, Reg.CQ_CFG_EN, Reg.CQ_STAT_PHASE, Reg.CQ_STAT_ERR,
    Reg.CQ_STAT_ERROR, Reg.CQ_STAT_TAIL]

theorem queueFlds_sq : QueueFlds sqFlds := by
  unfold QueueFlds QueueFld QueueApart InWord sqFlds
  decide

theorem queueFlds_cq : QueueFlds cqFlds := by
  unfold QueueFlds QueueFld QueueApart InWord cqFlds
  decide

theorem queueFlds_sublist {l m : List Fld} (h : QueueFlds m) (sub : l.Sublist m) : QueueFlds l :=
  ⟨fun f hf => h.1 f (sub.subset hf), h.2.sublist sub⟩

section
variable {inst q : Nat} {d : Dev}

theorem off_fldAt {f : Fld} (h : QueueFld f) (q : Nat) : (fldAt f q).off = f.off + 0x10 * q := by
  change f.off + q * f.stride = _
  rw [h.2.1, Nat.mul_comm]

/-- A field of a queue that shares no bit with the one written. -/
theorem qFld_setQ_apart {f g : Fld} (v : Nat) (hf : QueueFld f) (hg : QueueFld g) (apart : QueueApart f g) :
    qFld (setQ inst q g v d) inst q f = qFld d inst q f := by
  obtain ⟨wf, -, alignF, -⟩ := id hf
  obtain ⟨wg, -, alignG, -⟩ := id hg
  by_cases same : f.off = g.off
  · exact fld_setFld_beside d _ v (inWord_fldAt wf q) (inWord_fldAt wg q) (by rw [off_fldAt hf, off_fldAt hg, same])
      (apart.resolve_left (not_not_intro same))
  · refine fld_setFld_other d _ _ _ v ?_
    rw [off_fldAt hf, off_fldAt hg]
    omega

/-- Writes of fields of a queue from the hardware's side, in order. -/
def setQs (inst q : Nat) (l : List (Fld × Nat)) (d : Dev) : Dev := l.foldl (fun d x => setQ inst q x.1 x.2 d) d

theorem setQs_cons (x : Fld × Nat) (l : List (Fld × Nat)) : setQs inst q (x :: l) d = setQs inst q l (setQ inst q x.1 x.2 d) := rfl

theorem setQs_append (l m : List (Fld × Nat)) : setQs inst q (l ++ m) d = setQs inst q m (setQs inst q l d) := List.foldl_append

theorem setQs_regs (l : List (Fld × Nat)) : setQs inst q l d = { d with regs := (setQs inst q l d).regs } := by
  induction l generalizing d with
  | nil => rfl
  | cons x l ih => rw [setQs_cons, ih]; rfl

theorem qFld_setQs_apart {f : Fld} {l : List (Fld × Nat)} (hf : QueueFld f) (h : ∀ x ∈ l, QueueFld x.1 ∧ QueueApart f x.1) :
    qFld (setQs inst q l d) inst q f = qFld d inst q f := by
  induction l generalizing d with
  | nil => rfl
  | cons x l ih =>
    obtain ⟨field, apart⟩ := h x (List.mem_cons_self ..)
    rw [setQs_cons, ih fun y hy => h y (List.mem_cons_of_mem _ hy), qFld_setQ_apart x.2 hf field apart]

/-- Each field holds what was written to it. -/
theorem queueHolds_setQs {l : List (Fld × Nat)} (h : QueueFlds (l.map Prod.fst)) (fits : l.Forall fun x => x.2 < 2 ^ (x.1.hi + 1 - x.1.lo)) :
    queueHolds (setQs inst q l d) inst q l := by
  induction l generalizing d with
  | nil => exact fun _ hx => nomatch hx
  | cons x l ih =>
    obtain ⟨fields, apart⟩ := h
    obtain ⟨fit, fits⟩ := (List.forall_cons _ _ _).mp fits
    obtain ⟨first, rest⟩ := List.pairwise_cons.mp apart
    have field : QueueFld x.1 := fields _ (List.mem_cons_self ..)
    intro y hy
    rw [setQs_cons]
    obtain rfl | hy := List.mem_cons.mp hy
    · rw [qFld_setQs_apart field fun z hz => ⟨fields _ (List.mem_cons_of_mem _ (List.mem_map_of_mem hz)), first _ (List.mem_map_of_mem hz)⟩]
      exact (fld_setFld_same d _ _ _ (inWord_fldAt field.1 q)).trans (Nat.mod_eq_of_lt fit)
    · exact ih ⟨fun f hf => fields f (List.mem_cons_of_mem _ hf), rest⟩ fits y hy

/-- Fields that are not written hold what they held. -/
theorem queueHolds_kept {kept l : List (Fld × Nat)} (h : QueueFlds ((kept ++ l).map Prod.fst))
    (fits : l.Forall fun x => x.2 < 2 ^ (x.1.hi + 1 - x.1.lo)) (before : queueHolds d inst q kept) :
    queueHolds (setQs inst q l d) inst q (kept ++ l) := by
  obtain ⟨fields, apart⟩ := h
  rw [List.map_append] at fields apart
  obtain ⟨-, written, between⟩ := List.pairwise_append.mp apart
  intro x hx
  obtain hx | hx := List.mem_append.mp hx
  · rw [qFld_setQs_apart (fields _ (List.mem_append_left _ (List.mem_map_of_mem hx))) fun y hy =>
      ⟨fields _ (List.mem_append_right _ (List.mem_map_of_mem hy)), between _ (List.mem_map_of_mem hx) _ (List.mem_map_of_mem hy)⟩]
    exact before x hx
  · exact queueHolds_setQs ⟨fun f hf => fields f (List.mem_append_right _ hf), written⟩ fits x hx

/-- Only the registers of the fields that are written change. -/
theorem regsBut_setQs {l : List (Fld × Nat)} {but : List (Nat × Nat)} (hq : q < 16) (h : ∀ x ∈ l, QueueFld x.1)
    (listed : ∀ x ∈ l, (instPage inst, x.1.off + 0x10 * q) ∈ but) : regsBut but d (setQs inst q l d) := by
  induction l generalizing d with
  | nil => exact fun _ _ _ _ => rfl
  | cons x l ih =>
    have field := h x (List.mem_cons_self ..)
    obtain ⟨-, -, -, low⟩ := id field
    intro p off hp hoff
    rw [setQs_cons, ih (fun y hy => h y (List.mem_cons_of_mem _ hy)) (fun y hy => listed y (List.mem_cons_of_mem _ hy)) p off hp hoff]
    refine regGet_setFld_regs d x.2 hoff (by rw [off_fldAt field]; omega) fun same => hp ?_
    rw [same, off_fldAt field]
    exact List.mem_map.mpr ⟨_, listed x (List.mem_cons_self ..), rfl⟩

/-- A field of a queue, of this one or of another, whose register is not written. -/
theorem qFld_regsBut {a b : Dev} {but : List (Nat × Nat)} {k : Nat} {f : Fld} (h : regsBut but a b) (hf : QueueFld f) (hk : k < 16)
    (unlisted : ∀ x ∈ but, x.2 / 4 ≠ f.off / 4 + 4 * k) : qFld b inst k f = qFld a inst k f := by
  obtain ⟨-, -, -, low⟩ := id hf
  unfold qFld fld
  rw [off_fldAt hf, h _ _ (fun listed => ?_) (by omega)]
  obtain ⟨x, hx, same⟩ := List.mem_map.mp listed
  refine unlisted x hx ?_
  rw [(Prod.mk.inj same).2]
  omega

end

/-! ## What a write of a queue's configuration reaches (R79) -/

/-- A value with one bit set anew, as the fields below that bit see it. -/
theorem bits_enable (val : Nat) (en : Bool) {hi : Nat} (lo : Nat) (h : hi < 31) :
    bits (setBit (val % 2 ^ 32) 31 en % 2 ^ 32) hi lo = bits val hi lo := by
  unfold setBit
  rw [bits_mod_word _ _ _ (by omega), bits_setBits_apart _ _ _ _ (Nat.le_refl _) (.inr h), bits_mod_word _ _ _ (by omega)]

theorem bits_enable_self (val : Nat) (en : Bool) : bits (setBit (val % 2 ^ 32) 31 en % 2 ^ 32) 31 31 = en.toNat := by
  unfold setBit
  rw [bits_mod_word _ _ _ (by omega), bits_setBits_same _ _ _ _ (Nat.le_refl _)]
  cases en <;> rfl

theorem bit_enable_self (val : Nat) (en : Bool) : bit (setBit (val % 2 ^ 32) 31 en % 2 ^ 32) 31 = en := by
  unfold bit
  rw [bits_enable_self]
  cases en <;> rfl

/-- The queue registers of an INST page. -/
theorem writeInstReg_queue (a : Access) (i v : Nat) (d : Dev) {off : Nat} (low : 0x200 ≤ off) (high : off < 0x400) :
    writeInstReg a i off v d = writeQueue a i off v d := by
  have send : off ≠ Reg.INST_MB_CTL_SEND.off := by
    change off ≠ 0x04C
    omega
  unfold writeInstReg
  rw [if_neg (by simp [send]; omega), if_pos (by simp; omega)]

section
variable {a : Access} {inst q : Nat} {d : Dev} (hi : inst < 1024) (hq : q < 16) (open' : (hdrOf d (instPage inst)).softRst = false)
include hi hq open'

theorem instWrite_sqCfg (v : Nat) (h : (admitWrite (seenAs a) (instPage inst) (0x208 + 0x10 * q) d).1 = some .inst) :
    instWrite a inst (0x208 + 0x10 * q) v d = writeSqCfg (seenAs a) inst q (v % 2 ^ 32) d := by
  have index : (0x208 + 0x10 * q) % 0x100 / 0x10 = q := by omega
  unfold instWrite
  rw [if_pos hi, (admitWrite_some h).1]
  dsimp only
  rw [writeInstReg_queue _ _ _ _ (by omega) (by omega)]
  unfold writeQueue
  dsimp only
  rw [if_neg (by simp [open']), if_pos (by omega), if_pos (by omega), index]

theorem instWrite_cqCfg (v : Nat) (h : (admitWrite (seenAs a) (instPage inst) (0x308 + 0x10 * q) d).1 = some .inst) :
    instWrite a inst (0x308 + 0x10 * q) v d = writeCqCfg (seenAs a) inst q (v % 2 ^ 32) d := by
  have index : (0x308 + 0x10 * q) % 0x100 / 0x10 = q := by omega
  unfold instWrite
  rw [if_pos hi, (admitWrite_some h).1]
  dsimp only
  rw [writeInstReg_queue _ _ _ _ (by omega) (by omega)]
  unfold writeQueue
  dsimp only
  rw [if_neg (by simp [open']), if_neg (by omega), if_pos (by omega), index]

end

end Sys2Proof.Proofs
end

section
/-! SQ_ENABLE, SQ_DISABLE, CQ_ENABLE and CQ_DISABLE (R79). -/

open Sys2Proof Sys2Proof.Machine

namespace Sys2Proof.Proofs

section
variable {a : Access} {i q v : Nat} {d : Dev} 

/-- What an idle submission queue takes of a write of its configuration but EN. -/
def sqTaken (v : Nat) : List (Fld × Nat) :=
  [(Reg.SQ_CFG_WEIGHT, bits v 15 8), (Reg.SQ_CFG_CQ, bits v 19 16), (Reg.SQ_CFG_SIZE, bits v 4 0)]

/-- The fields of a submission queue that a write has enabled, as they are written (R79). -/
def sqBegun (v : Nat) : List (Fld × Nat) :=
  [(Reg.SQ_CFG_WEIGHT, bits v 15 8), (Reg.SQ_CFG_CQ, bits v 19 16), (Reg.SQ_CFG_SIZE, bits v 4 0), (Reg.SQ_CFG_EN, 1),
    (Reg.SQ_STAT_ERR, 0), (Reg.SQ_STAT_ERROR, 0), (Reg.SQ_STAT_HEAD, 0)]

/-- The same of a completion queue, whose phase begins at 1. -/
def cqBegun (v : Nat) : List (Fld × Nat) :=
  [(Reg.CQ_CFG_COAL_TIME, bits v 15 8), (Reg.CQ_CFG_COAL_COUNT, bits v 23 16), (Reg.CQ_CFG_IRQ_EN, bits v 30 30),
    (Reg.CQ_CFG_SIZE, bits v 4 0), (Reg.CQ_CFG_EN, 1), (Reg.CQ_STAT_PHASE, 1), (Reg.CQ_STAT_ERR, 0), (Reg.CQ_STAT_ERROR, 0),
    (Reg.CQ_STAT_TAIL, 0)]

/-- The command processor once a submission queue, or a completion queue, has begun anew. -/
def sqAnew (i q : Nat) (c : CmdSt) : CmdSt :=
  { c with tails := smapSet zeroAt c.tails (qKey i q) 0, reads := c.reads.map (pastRing i q) }
def cqAnew (i q : Nat) (c : CmdSt) : CmdSt :=
  { c with
    heads := smapSet zeroAt c.heads (qKey i q) 0, coal := smapSet zeroAt c.coal (qKey i q) 0
    coalAt := smapSet noneAt c.coalAt (qKey i q) none }

theorem sqFresh_setQs (l : List (Fld × Nat)) : sqFresh i q (setQs i q l d) = modCmdSt (sqAnew i q)
    (setQs i q (l ++ [(Reg.SQ_STAT_ERR, 0), (Reg.SQ_STAT_ERROR, 0), (Reg.SQ_STAT_HEAD, 0)]) d) := by
  rw [setQs_append]
  rfl

theorem cqFresh_setQs (l : List (Fld × Nat)) : cqFresh i q (setQs i q l d) = modCmdSt (cqAnew i q)
    (setQs i q (l ++ [(Reg.CQ_STAT_PHASE, 1), (Reg.CQ_STAT_ERR, 0), (Reg.CQ_STAT_ERROR, 0), (Reg.CQ_STAT_TAIL, 0)]) d) := by
  rw [setQs_append]
  rfl

/-- A submission queue that may be enabled takes what is written and begins anew. -/
theorem writeSqCfg_enables (hq : q < 16) (idle : qFld d i q Reg.SQ_CFG_EN = 0) (weight : 1 ≤ bits v 15 8) (least : 1 ≤ bits v 4 0)
    (most : bits v 4 0 ≤ 16) (en : bit v 31 = true) (ready : qFld d i (bits v 19 16) Reg.CQ_CFG_EN = 1) (within : q < (instOf d i).sqLimit) :
    writeSqCfg a i q v d = modCmdSt (sqAnew i q) (setQs i q (sqBegun v) d) := by
  have codes : sqCfgCodes d i q v = [] := by
    unfold sqCfgCodes
    simp [idle, en]
    omega
  have flds : QueueFlds ((sqTaken v).map Prod.fst) := queueFlds_sublist queueFlds_sq (List.take_sublist 3 sqFlds)
  have cq : qFld (setQs i q (sqTaken v) d) i q Reg.SQ_CFG_CQ = bits v 19 16 :=
    queueHolds_setQs flds ⟨bits_lt .., bits_lt .., bits_lt ..⟩ (Reg.SQ_CFG_CQ, bits v 19 16) (by simp [sqTaken])
  have words : regsBut [(instPage i, 0x208 + 0x10 * q)] d (setQs i q (sqTaken v) d) :=
    regsBut_setQs hq (fun x hx => flds.1 _ (List.mem_map_of_mem hx)) (by simp [sqTaken, Reg.SQ_CFG_WEIGHT, Reg.SQ_CFG_CQ, Reg.SQ_CFG_SIZE])
  have enabled : qFld (setQs i q (sqTaken v) d) i (bits v 19 16) Reg.CQ_CFG_EN = 1 := by
    rw [qFld_regsBut words (queueFlds_cq.1 _ (by simp [cqFlds])) (bits_lt v 19 16) (by simp [Reg.CQ_CFG_EN]; omega), ready]
  have inst : instOf (setQs i q (sqTaken v) d) i = instOf d i := by
    rw [setQs_regs]
    rfl
  have may : (decide (1 ≤ bits v 4 0) && decide (bits v 4 0 ≤ 16)
      && decide (qFld (setQs i q (sqTaken v) d) i (qFld (setQs i q (sqTaken v) d) i q Reg.SQ_CFG_CQ) Reg.CQ_CFG_EN = 1)
      && decide (q < (instOf (setQs i q (sqTaken v) d) i).sqLimit)) = true := by
    rw [cq, inst]
    simp [least, most, enabled, within]
  have idle' : ¬qFld d i q Reg.SQ_CFG_EN = 1 := by omega
  have weight' : ¬bits v 15 8 = 0 := by omega
  have most' : ¬16 < bits v 4 0 := by omega
  unfold writeSqCfg
  simp only [codes, if_neg idle', if_neg weight', if_neg most', en, Bool.not_true, Bool.false_eq_true, if_false]
  have anew : sqFresh i q (setQs i q (sqTaken v ++ [(Reg.SQ_CFG_EN, 1)]) d) = modCmdSt (sqAnew i q) (setQs i q (sqBegun v) d) :=
    sqFresh_setQs _
  rw [← anew]
  exact if_pos may

/-- An enabled submission queue that keeps its CQ and SIZE takes WEIGHT and EN. -/
theorem writeSqCfg_disables (on : qFld d i q Reg.SQ_CFG_EN = 1) (weight : 1 ≤ bits v 15 8)
    (cq : bits v 19 16 = qFld d i q Reg.SQ_CFG_CQ) (size : bits v 4 0 = qFld d i q Reg.SQ_CFG_SIZE) :
    writeSqCfg a i q v d = setQs i q [(Reg.SQ_CFG_WEIGHT, bits v 15 8), (Reg.SQ_CFG_EN, bits v 31 31)] d := by
  have codes : sqCfgCodes d i q v = [] := by
    unfold sqCfgCodes
    simp [on, cq, size]
    omega
  have weight' : ¬bits v 15 8 = 0 := by omega
  unfold writeSqCfg
  simp only [codes, if_pos on, if_neg weight']
  rfl

/-- A completion queue that may be enabled takes what is written and begins anew. -/
theorem writeCqCfg_enables (idle : qFld d i q Reg.CQ_CFG_EN = 0) (least : 1 ≤ bits v 4 0) (most : bits v 4 0 ≤ 16)
    (en : bit v 31 = true) : writeCqCfg a i q v d = modCmdSt (cqAnew i q) (setQs i q (cqBegun v) d) := by
  have idle' : ¬qFld d i q Reg.CQ_CFG_EN = 1 := by omega
  have most' : ¬16 < bits v 4 0 := by omega
  unfold writeCqCfg
  simp only [decide_eq_false idle', if_neg idle', if_neg most', en, Bool.not_true, Bool.false_eq_true, Bool.and_false, Bool.false_and, if_false]
  have anew : cqFresh i q (setQs i q ((cqBegun v).take 5) d) = modCmdSt (cqAnew i q) (setQs i q (cqBegun v) d) := cqFresh_setQs _
  rw [← anew]
  exact if_pos (by simp [least, most])

/-- An enabled completion queue that no submission queue uses and that keeps its SIZE takes the rest, and EN at 0. -/
theorem writeCqCfg_disables (on : qFld d i q Reg.CQ_CFG_EN = 1) (free : cqUsed d i q = false) (en : bit v 31 = false)
    (size : bits v 4 0 = qFld d i q Reg.CQ_CFG_SIZE) :
    writeCqCfg a i q v d = setQs i q [(Reg.CQ_CFG_COAL_TIME, bits v 15 8), (Reg.CQ_CFG_COAL_COUNT, bits v 23 16),
      (Reg.CQ_CFG_IRQ_EN, bits v 30 30), (Reg.CQ_CFG_EN, 0)] d := by
  unfold writeCqCfg
  simp only [free, en, size, ne_eq, not_true_eq_false, decide_false, decide_true, Bool.not_true, Bool.and_false, Bool.false_and,
    Bool.false_eq_true, if_false, on]
  rfl

/-- The keys of two queues differ. -/
theorem qKey_inj {i q j k : Nat} (hq : q < 16) (hk : k < 16) : qKey j k = qKey i q ↔ j = i ∧ k = q := by
  unfold qKey
  omega

/-- What a doorbell table reads once the entry of one queue is written. -/
theorem smapGet_setQueue (m : SMap Nat) (x : Nat) {j k : Nat} (hq : q < 16) (hk : k < 16) :
    smapGet zeroAt (smapSet zeroAt m (qKey i q) x) (qKey j k) = if j = i ∧ k = q then x else smapGet zeroAt m (qKey j k) := by
  rw [smapGet_set]
  simp only [qKey_inj hq hk]

end

/-- Of a block whose registers alone have changed, every other part is as it was. -/
theorem same_regsOnly {d : Dev} (r : SMap Word) {p : Part} (hp : p ∉ [Part.regs]) : p.same d { d with regs := r } := by
  cases p <;> simp_all [Part.same]

theorem modCmdSt_id (d : Dev) : modCmdSt id d = d := rfl

/-- A property of where a command completes follows from another. -/
theorem completes_imp {c : Instr} {s : State} {but : List Part} {p r : Dev → Prop} (h : Completes c s but p) (imp : ∀ t, p t → r t) :
    Completes c s but r := by
  obtain ⟨t, run, keeps, holds⟩ := h
  exact ⟨t, run, keeps, imp _ holds⟩

/-- A value within the word, with EN as the command writes it: the fields below EN are the value's. -/
theorem enable_value (val : Nat) (en : Bool) : ∃ v, setBit (val % 2 ^ 32) 31 en % 2 ^ 32 = v ∧ bit v 31 = en ∧ bits v 31 31 = en.toNat
    ∧ bits v 30 30 = bits val 30 30 ∧ bits v 23 16 = bits val 23 16 ∧ bits v 19 16 = bits val 19 16 ∧ bits v 15 8 = bits val 15 8
    ∧ bits v 4 0 = bits val 4 0 :=
  ⟨_, rfl, bit_enable_self val en, bits_enable_self val en, bits_enable val en _ (by decide), bits_enable val en _ (by decide),
    bits_enable val en _ (by decide), bits_enable val en _ (by decide), bits_enable val en _ (by decide)⟩

section
variable {s : State} {d : Dev} {a : Access} {inst q val : Nat} (b : Begins s d) (w : AwakeFor d a) (hq : q < 16)
include b w hq

/-- A command that writes fields of a queue, and besides changes the command processor by g. -/
theorem queueWrite_completes {c : Instr} {f : Access → Dev → Dev} {g : CmdSt → CmdSt} {l m : List (Fld × Nat)} {ps : List Part}
    {but : List (Nat × Nat)} (run : exec c s = runAcc a s f) (write : f a d = modCmdSt g (setQs inst q l d))
    (flds : QueueFlds (l.map Prod.fst)) (holds : queueHolds (setQs inst q l d) inst q m)
    (listed : ∀ x ∈ l, (instPage inst, x.1.off + 0x10 * q) ∈ but)
    (keep : ∀ regs, ∀ p : Part, p ∉ ps → p.same d { d with cmd := g d.cmd, regs := regs }) :
    Completes c s ps fun t => queueHolds t inst q m ∧ regsBut but d t ∧ t.cmd = g d.cmd := by
  have words : regsBut but d (setQs inst q l d) := regsBut_setQs hq (fun x hx => flds.1 _ (List.mem_map_of_mem hx)) listed
  rw [setQs_regs] at write holds words
  exact completes_runAcc b w run write b.2 (keep _) ⟨holds, words, rfl⟩

variable (hi : inst < 1024) (unreset : (hdrOf d (instPage inst)).softRst = false)
include hi unreset

/-- SQ_ENABLE of a queue that may be enabled (R79). -/
theorem sqEnable_completes (admitted : (admitWrite (seenAs a) (instPage inst) (0x208 + 0x10 * q) d).1 = some .inst) (weight : 1 ≤ bits val 15 8)
    (idle : qFld d inst q Reg.SQ_CFG_EN = 0) (least : 1 ≤ bits val 4 0) (most : bits val 4 0 ≤ 16)
    (ready : qFld d inst (bits val 19 16) Reg.CQ_CFG_EN = 1) (within : q < (instOf d inst).sqLimit) :
    Completes (.sqEnable a inst q val) s [.regs, .cmd] fun t =>
      queueHolds t inst q [(Reg.SQ_CFG_EN, 1), (Reg.SQ_CFG_CQ, bits val 19 16), (Reg.SQ_CFG_WEIGHT, bits val 15 8),
        (Reg.SQ_CFG_SIZE, bits val 4 0), (Reg.SQ_STAT_HEAD, 0), (Reg.SQ_STAT_ERROR, 0), (Reg.SQ_STAT_ERR, 0)]
      ∧ regsBut [(instPage inst, 0x208 + 0x10 * q), (instPage inst, 0x20C + 0x10 * q)] d t
      ∧ t.cmd = sqAnew inst q d.cmd := by
  obtain ⟨v, value, en, -, -, -, cq, weight', size⟩ := enable_value val true
  have write := instWrite_sqCfg hi hq unreset (setBit (val % 2 ^ 32) 31 true) admitted
  rw [value, writeSqCfg_enables (v := v) hq idle (by rwa [weight']) (by rwa [size]) (by rwa [size]) en (by rw [cq]; exact ready) within] at write
  have holds : queueHolds (setQs inst q (sqBegun v) d) inst q (sqBegun v) := queueHolds_setQs queueFlds_sq
    ⟨bits_lt .., bits_lt .., bits_lt .., by decide, by decide, by decide, by decide⟩
  refine queueWrite_completes (l := sqBegun v) b w hq (Eq.refl (execSqEnable a inst q val s)) ((if_pos hq).trans write) queueFlds_sq
    (fun x hx => holds x ?_)
    (by simp [sqBegun, Reg.SQ_CFG_WEIGHT, Reg.SQ_CFG_CQ, Reg.SQ_CFG_SIZE, Reg.SQ_CFG_EN, Reg.SQ_STAT_ERR, Reg.SQ_STAT_ERROR, Reg.SQ_STAT_HEAD])
    fun _ p hp => same_cmdRegs _ _ (by simpa [and_comm] using hp)
  rw [← cq, ← weight', ← size] at hx
  revert x
  simp [sqBegun]

/-- SQ_DISABLE of a queue that may be disabled: WEIGHT and EN take what is written (R79). -/
theorem sqDisable_completes (admitted : (admitWrite (seenAs a) (instPage inst) (0x208 + 0x10 * q) d).1 = some .inst)
    (weight : 1 ≤ bits val 15 8) (on : qFld d inst q Reg.SQ_CFG_EN = 1) (cq : bits val 19 16 = qFld d inst q Reg.SQ_CFG_CQ)
    (size : bits val 4 0 = qFld d inst q Reg.SQ_CFG_SIZE) : Completes (.sqDisable a inst q val) s [.regs] fun t =>
      queueHolds t inst q [(Reg.SQ_CFG_EN, 0), (Reg.SQ_CFG_CQ, bits val 19 16), (Reg.SQ_CFG_WEIGHT, bits val 15 8),
        (Reg.SQ_CFG_SIZE, bits val 4 0)] ∧ regsBut [(instPage inst, 0x208 + 0x10 * q)] d t := by
  obtain ⟨v, value, -, en, -, -, cq', weight', size'⟩ := enable_value val false
  have write := instWrite_sqCfg hi hq unreset (setBit (val % 2 ^ 32) 31 false) admitted
  rw [value, writeSqCfg_disables (v := v) on (by rwa [weight']) (by rwa [cq']) (by rwa [size']), show bits v 31 31 = 0 from en, weight',
    ← modCmdSt_id (setQs _ _ _ _)] at write
  have flds : QueueFlds [Reg.SQ_CFG_CQ, Reg.SQ_CFG_SIZE, Reg.SQ_CFG_WEIGHT, Reg.SQ_CFG_EN] := by
    unfold QueueFlds QueueFld QueueApart InWord
    decide
  have holds := queueHolds_kept (inst := inst) (q := q) (d := d) (kept := [(Reg.SQ_CFG_CQ, bits val 19 16), (Reg.SQ_CFG_SIZE, bits val 4 0)])
    (l := [(Reg.SQ_CFG_WEIGHT, bits val 15 8), (Reg.SQ_CFG_EN, 0)]) flds ⟨bits_lt .., by decide⟩ (by simp [queueHolds, cq, size])
  refine completes_imp (queueWrite_completes (g := id) (l := [(Reg.SQ_CFG_WEIGHT, bits val 15 8), (Reg.SQ_CFG_EN, 0)]) b w hq
    (Eq.refl (execSqDisable a inst q val s)) ((if_pos hq).trans write) (queueFlds_sublist (l := [Reg.SQ_CFG_WEIGHT, Reg.SQ_CFG_EN]) flds (by decide)) (fun x hx => holds x ?_)
    (by simp [Reg.SQ_CFG_WEIGHT, Reg.SQ_CFG_EN]) fun _ p => same_regsOnly _) fun t ⟨values, words, _⟩ => ⟨values, words⟩
  revert x
  simp

/-- CQ_ENABLE of a queue that may be enabled (R79). -/
theorem cqEnable_completes (admitted : (admitWrite (seenAs a) (instPage inst) (0x308 + 0x10 * q) d).1 = some .inst)
    (idle : qFld d inst q Reg.CQ_CFG_EN = 0) (least : 1 ≤ bits val 4 0) (most : bits val 4 0 ≤ 16) :
    Completes (.cqEnable a inst q val) s [.regs, .cmd] fun t =>
      queueHolds t inst q [(Reg.CQ_CFG_EN, 1), (Reg.CQ_CFG_IRQ_EN, bits val 30 30), (Reg.CQ_CFG_COAL_COUNT, bits val 23 16),
        (Reg.CQ_CFG_COAL_TIME, bits val 15 8), (Reg.CQ_CFG_SIZE, bits val 4 0), (Reg.CQ_STAT_TAIL, 0), (Reg.CQ_STAT_PHASE, 1),
        (Reg.CQ_STAT_ERROR, 0), (Reg.CQ_STAT_ERR, 0)]
      ∧ regsBut [(instPage inst, 0x308 + 0x10 * q), (instPage inst, 0x30C + 0x10 * q)] d t
      ∧ t.cmd = cqAnew inst q d.cmd := by
  obtain ⟨v, value, en, -, irq, count, -, time, size⟩ := enable_value val true
  have write := instWrite_cqCfg hi hq unreset (setBit (val % 2 ^ 32) 31 true) admitted
  rw [value, writeCqCfg_enables (v := v) idle (by rwa [size]) (by rwa [size]) en] at write
  have holds : queueHolds (setQs inst q (cqBegun v) d) inst q (cqBegun v) := queueHolds_setQs queueFlds_cq
    ⟨bits_lt .., bits_lt .., bits_lt .., bits_lt .., by decide, by decide, by decide, by decide, by decide⟩
  refine queueWrite_completes (l := cqBegun v) b w hq (Eq.refl (execCqEnable a inst q val s)) ((if_pos hq).trans write) queueFlds_cq
    (fun x hx => holds x ?_)
    (by simp [cqBegun, Reg.CQ_CFG_COAL_TIME, Reg.CQ_CFG_COAL_COUNT, Reg.CQ_CFG_IRQ_EN, Reg.CQ_CFG_SIZE, Reg.CQ_CFG_EN, Reg.CQ_STAT_PHASE,
      Reg.CQ_STAT_ERR, Reg.CQ_STAT_ERROR, Reg.CQ_STAT_TAIL])
    fun _ p hp => same_cmdRegs _ _ (by simpa [and_comm] using hp)
  rw [← irq, ← count, ← time, ← size] at hx
  revert x
  simp [cqBegun]

/-- CQ_DISABLE of a queue that may be disabled: SIZE stays, the other fields take what is written (R79). -/
theorem cqDisable_completes (admitted : (admitWrite (seenAs a) (instPage inst) (0x308 + 0x10 * q) d).1 = some .inst)
    (on : qFld d inst q Reg.CQ_CFG_EN = 1) (free : cqUsed d inst q = false) (size : bits val 4 0 = qFld d inst q Reg.CQ_CFG_SIZE) :
    Completes (.cqDisable a inst q val) s [.regs] fun t =>
      queueHolds t inst q [(Reg.CQ_CFG_EN, 0), (Reg.CQ_CFG_IRQ_EN, bits val 30 30), (Reg.CQ_CFG_COAL_COUNT, bits val 23 16),
        (Reg.CQ_CFG_COAL_TIME, bits val 15 8), (Reg.CQ_CFG_SIZE, bits val 4 0)] ∧ regsBut [(instPage inst, 0x308 + 0x10 * q)] d t := by
  obtain ⟨v, value, en, -, irq, count, -, time, size'⟩ := enable_value val false
  have write := instWrite_cqCfg hi hq unreset (setBit (val % 2 ^ 32) 31 false) admitted
  rw [value, writeCqCfg_disables (v := v) on free en (by rwa [size']), irq, count, time, ← modCmdSt_id (setQs _ _ _ _)] at write
  have flds : QueueFlds [Reg.CQ_CFG_SIZE, Reg.CQ_CFG_COAL_TIME, Reg.CQ_CFG_COAL_COUNT, Reg.CQ_CFG_IRQ_EN, Reg.CQ_CFG_EN] := by
    unfold QueueFlds QueueFld QueueApart InWord
    decide
  have holds := queueHolds_kept (inst := inst) (q := q) (d := d) (kept := [(Reg.CQ_CFG_SIZE, bits val 4 0)])
    (l := [(Reg.CQ_CFG_COAL_TIME, bits val 15 8), (Reg.CQ_CFG_COAL_COUNT, bits val 23 16), (Reg.CQ_CFG_IRQ_EN, bits val 30 30),
      (Reg.CQ_CFG_EN, 0)]) flds ⟨bits_lt .., bits_lt .., bits_lt .., by decide⟩ (by simp [queueHolds, size])
  refine completes_imp (queueWrite_completes (g := id) b w hq (Eq.refl (execCqDisable a inst q val s)) ((if_pos hq).trans write)
    (queueFlds_sublist (l := [Reg.CQ_CFG_COAL_TIME, Reg.CQ_CFG_COAL_COUNT, Reg.CQ_CFG_IRQ_EN, Reg.CQ_CFG_EN]) flds (by decide)) (fun x hx => holds x ?_)
    (by simp [Reg.CQ_CFG_COAL_TIME, Reg.CQ_CFG_COAL_COUNT, Reg.CQ_CFG_IRQ_EN, Reg.CQ_CFG_EN]) fun _ p => same_regsOnly _)
    fun t ⟨values, words, _⟩ => ⟨values, words⟩
  revert x
  simp

end

end Sys2Proof.Proofs
end

section
/-! The doorbells of a function (R80, R81). -/

open Sys2Proof Sys2Proof.Machine

namespace Sys2Proof.Proofs

theorem same_fieldsOnly {a b : Dev} (h : OnlyFields a b) {p : Part} (hp : p ∉ [Part.regs, .hdr, .host]) : p.same a b := by
  rw [h]
  cases p <;> simp_all [Part.same]

/-- A queue that stops on an error (R81): fields of its status are written, and the instance is told (R302). -/
theorem queueStops_spec {inst q : Nat} {d : Dev} (hi : inst < 1024) {l m : List (Fld × Nat)} {but : List (Nat × Nat)}
    (holds : queueHolds (setQs inst q l d) inst q m) (words : regsBut but d (setQs inst q l d)) :
    OnlyFields d (raiseEv (instPage inst) 3 (setQs inst q l d))
      ∧ queueHolds (raiseEv (instPage inst) 3 (setQs inst q l d)) inst q m
      ∧ regsBut but d (raiseEv (instPage inst) 3 (setQs inst q l d))
      ∧ eventAt (instPage inst) 3 d (raiseEv (instPage inst) 3 (setQs inst q l d)) := by
  have only := setQs_regs (inst := inst) (q := q) (d := d) l
  generalize setQs inst q l d = x at *
  have raised := regGet_onlyRaised (raiseEv_onlyRaised (instPage inst) 3 x)
  have fields : OnlyFields d x := by
    unfold OnlyFields
    rw [only]
  refine ⟨onlyFields_trans fields (raiseEv_onlyFields _ 3 x), fun f hf => ?_, fun p off hp hoff => ?_,
    eventAt_hdr (by rw [only]) (eventAt_raiseEv (pageKind_instPage hi) rfl 3 x)⟩
  · refine Eq.trans ?_ (holds f hf)
    unfold qFld fld
    rw [raised]
  · rw [raised, words p off hp hoff]

section
variable {s : State} {d : Dev} {inst q val : Nat} {st : Option Nat} (b : Begins s d) (awake : Awake d (viaLink d (.vf inst st)))
include b awake

/-- A doorbell is a non-secure access of the instance's function (R42, R80). -/
theorem bell_completes {c : Instr} {f : Dev → Dev} {e : Dev} {but : List Part} {r : Dev → Prop}
    (run : exec c s = runAcc ⟨false, 2, 0, .vf inst st⟩ s fun _ => f) (rings : f d = e) (ok : e.mpe = d.mpe)
    (keep : ∀ p : Part, p ∉ but → p.same d e) (hr : r e) : Completes c s but r :=
  completes_runAcc b ⟨awake, rfl⟩ run rings (by rw [ok]; exact b.2) keep hr

/-- A doorbell that stops its queue completes with the queue's status and the event (R81). -/
theorem bellStops_completes (hi : inst < 1024) {c : Instr} {f : Dev → Dev} {l m : List (Fld × Nat)} {but : List (Nat × Nat)}
    (run : exec c s = runAcc ⟨false, 2, 0, .vf inst st⟩ s fun _ => f) (rings : f d = raiseEv (instPage inst) 3 (setQs inst q l d))
    (holds : queueHolds (setQs inst q l d) inst q m) (words : regsBut but d (setQs inst q l d)) :
    Completes c s [.regs, .hdr, .host] fun t => queueHolds t inst q m ∧ regsBut but d t ∧ eventAt (instPage inst) 3 d t := by
  obtain ⟨only, after⟩ := queueStops_spec hi holds words
  exact bell_completes b awake run rings (by rw [only]) (fun _ => same_fieldsOnly only) after

/-- A tail doorbell of a disabled or stopped queue does nothing (R80). -/
theorem tailBell_ignored (idle : qFld d inst q Reg.SQ_CFG_EN = 0 ∨ qFld d inst q Reg.SQ_STAT_ERROR = 1) :
    Completes (.sqTailDoorbell inst q val st) s [] fun _ => True := by
  refine bell_completes (f := tailBell inst q val st) b awake (Eq.refl (execSqTailDoorbell inst q val s st)) (e := d) (if_pos ?_) rfl
    (fun p _ => same_refl d p) trivial
  obtain idle | idle := idle <;> simp [idle]

/-- A head doorbell of a disabled or stopped queue does nothing (R80). -/
theorem headBell_ignored (idle : qFld d inst q Reg.CQ_CFG_EN = 0 ∨ qFld d inst q Reg.CQ_STAT_ERROR = 1) :
    Completes (.cqHeadDoorbell inst q val st) s [] fun _ => True := by
  refine bell_completes (f := headBell inst q val st) b awake (Eq.refl (execCqHeadDoorbell inst q val s st)) (e := d) (if_pos ?_) rfl
    (fun p _ => same_refl d p) trivial
  obtain idle | idle := idle <;> simp [idle]

end

section
variable {s : State} {d : Dev} {inst q val : Nat} {st : Option Nat} (b : Begins s d) (awake : Awake d (viaLink d (.vf inst st)))
  (word : val < 65536) (hq : q < 16) (opens : bellOpen d inst st = true)
include b awake word hq opens

omit b awake word hq in
theorem inst_of_bellOpen : inst < 1024 := by
  unfold bellOpen at opens
  simp only [Bool.and_eq_true, decide_eq_true_eq] at opens
  exact opens.1.1

section
variable (on : qFld d inst q Reg.SQ_CFG_EN = 1) (runs : qFld d inst q Reg.SQ_STAT_ERROR = 0)
include on runs

omit b awake in
theorem tailBell_rings : tailBell inst q val st d =
    if sqSize d inst q ≤ val || ringAhead (sqSize d inst q) val (qFld d inst q Reg.SQ_STAT_HEAD)
      < ringAhead (sqSize d inst q) (tailOf d inst q) (qFld d inst q Reg.SQ_STAT_HEAD) then sqError inst q 1 d else setTail inst q val d := by
  unfold tailBell
  rw [Nat.mod_eq_of_lt word]
  exact if_neg (by simp [opens, on, runs]; omega)

/-- A tail within the ring, not behind the one before (R80). -/
theorem tailBell_moves (within : val < sqSize d inst q) (ahead : ringAhead (sqSize d inst q) (tailOf d inst q) (qFld d inst q Reg.SQ_STAT_HEAD)
      ≤ ringAhead (sqSize d inst q) val (qFld d inst q Reg.SQ_STAT_HEAD)) :
    Completes (.sqTailDoorbell inst q val st) s [.cmd] fun t =>
      (∀ i j, j < 16 → tailOf t i j = if i = inst ∧ j = q then val else tailOf d i j) ∧ { t.cmd with tails := d.cmd.tails } = d.cmd := by
  have rings := tailBell_rings word hq opens on runs
  rw [if_neg (by simp; omega)] at rings
  exact bell_completes b awake (Eq.refl (execSqTailDoorbell inst q val s st)) rings rfl (fun _ hp => same_cmd _ hp)
    ⟨fun i j hj => smapGet_setQueue _ val hq hj, rfl⟩

/-- A tail outside the ring, or behind the one before, stops the queue with cause 1 (R81). -/
theorem tailBell_stops (outside : sqSize d inst q ≤ val ∨ ringAhead (sqSize d inst q) val (qFld d inst q Reg.SQ_STAT_HEAD)
      < ringAhead (sqSize d inst q) (tailOf d inst q) (qFld d inst q Reg.SQ_STAT_HEAD)) :
    Completes (.sqTailDoorbell inst q val st) s [.regs, .hdr, .host] fun t =>
      queueHolds t inst q [(Reg.SQ_STAT_ERROR, 1), (Reg.SQ_STAT_ERR, 1), (Reg.SQ_STAT_HEAD, qFld d inst q Reg.SQ_STAT_HEAD)]
      ∧ regsBut [(instPage inst, 0x20C + 0x10 * q)] d t ∧ eventAt (instPage inst) 3 d t := by
  have rings := tailBell_rings word hq opens on runs
  rw [if_pos (by simpa using outside)] at rings
  have flds : QueueFlds [Reg.SQ_STAT_HEAD, Reg.SQ_STAT_ERROR, Reg.SQ_STAT_ERR] := by
    unfold QueueFlds QueueFld QueueApart InWord
    decide
  have holds := queueHolds_kept (inst := inst) (q := q) (d := d) (kept := [(Reg.SQ_STAT_HEAD, qFld d inst q Reg.SQ_STAT_HEAD)])
    (l := [(Reg.SQ_STAT_ERROR, 1), (Reg.SQ_STAT_ERR, 1)]) flds ⟨by decide, by decide⟩ (by simp [queueHolds])
  refine bellStops_completes (l := [(Reg.SQ_STAT_ERROR, 1), (Reg.SQ_STAT_ERR, 1)]) b awake (inst_of_bellOpen opens)
    (Eq.refl (execSqTailDoorbell inst q val s st)) rings (fun x hx => holds x ?_)
    (regsBut_setQs hq (fun x hx => flds.1 _ (List.mem_cons_of_mem _ (List.mem_map_of_mem hx))) (by simp [Reg.SQ_STAT_ERROR, Reg.SQ_STAT_ERR]))
  revert x
  simp

end

section
variable (on : qFld d inst q Reg.CQ_CFG_EN = 1) (runs : qFld d inst q Reg.CQ_STAT_ERROR = 0)
include on runs

omit b awake in
theorem headBell_rings : headBell inst q val st d =
    if cqSize d inst q ≤ val || ringAhead (cqSize d inst q) (qFld d inst q Reg.CQ_STAT_TAIL) (headOf d inst q)
      < ringAhead (cqSize d inst q) val (headOf d inst q) then cqError inst q 1 d else setHead inst q val d := by
  unfold headBell
  rw [Nat.mod_eq_of_lt word]
  exact if_neg (by simp [opens, on, runs]; omega)

/-- A head within the ring, not beyond the tail (R80). -/
theorem headBell_moves (within : val < cqSize d inst q) (behind : ringAhead (cqSize d inst q) val (headOf d inst q)
      ≤ ringAhead (cqSize d inst q) (qFld d inst q Reg.CQ_STAT_TAIL) (headOf d inst q)) :
    Completes (.cqHeadDoorbell inst q val st) s [.cmd] fun t =>
      (∀ i j, j < 16 → headOf t i j = if i = inst ∧ j = q then val else headOf d i j) ∧ { t.cmd with heads := d.cmd.heads } = d.cmd := by
  have rings := headBell_rings word hq opens on runs
  rw [if_neg (by simp; omega)] at rings
  exact bell_completes b awake (Eq.refl (execCqHeadDoorbell inst q val s st)) rings rfl (fun _ hp => same_cmd _ hp)
    ⟨fun i j hj => smapGet_setQueue _ val hq hj, rfl⟩

/-- A head outside the ring, or beyond the tail, stops the queue with cause 1 (R81). -/
theorem headBell_stops (outside : cqSize d inst q ≤ val ∨ ringAhead (cqSize d inst q) (qFld d inst q Reg.CQ_STAT_TAIL) (headOf d inst q)
      < ringAhead (cqSize d inst q) val (headOf d inst q)) :
    Completes (.cqHeadDoorbell inst q val st) s [.regs, .hdr, .host] fun t =>
      queueHolds t inst q [(Reg.CQ_STAT_ERROR, 1), (Reg.CQ_STAT_ERR, 1), (Reg.CQ_STAT_TAIL, qFld d inst q Reg.CQ_STAT_TAIL)]
      ∧ regsBut [(instPage inst, 0x30C + 0x10 * q)] d t ∧ eventAt (instPage inst) 3 d t := by
  have rings := headBell_rings word hq opens on runs
  rw [if_pos (by simpa using outside)] at rings
  have flds : QueueFlds [Reg.CQ_STAT_TAIL, Reg.CQ_STAT_ERROR, Reg.CQ_STAT_ERR] := by
    unfold QueueFlds QueueFld QueueApart InWord
    decide
  have holds := queueHolds_kept (inst := inst) (q := q) (d := d) (kept := [(Reg.CQ_STAT_TAIL, qFld d inst q Reg.CQ_STAT_TAIL)])
    (l := [(Reg.CQ_STAT_ERROR, 1), (Reg.CQ_STAT_ERR, 1)]) flds ⟨by decide, by decide⟩ (by simp [queueHolds])
  refine bellStops_completes (l := [(Reg.CQ_STAT_ERROR, 1), (Reg.CQ_STAT_ERR, 1)]) b awake (inst_of_bellOpen opens)
    (Eq.refl (execCqHeadDoorbell inst q val s st)) rings (fun x hx => holds x ?_)
    (regsBut_setQs hq (fun x hx => flds.1 _ (List.mem_cons_of_mem _ (List.mem_map_of_mem hx))) (by simp [Reg.CQ_STAT_ERROR, Reg.CQ_STAT_ERR]))
  revert x
  simp

end

end

end Sys2Proof.Proofs
end

section
/-! Queues and doorbells: the obligation (R79-R81). -/

open Sys2Proof Sys2Proof.Machine

namespace Sys2Proof.Proofs

/-- Settles O26: each write of a queue's configuration by the fields that it writes, each doorbell by where its value lies in the ring. -/
theorem queueCommands : Obligations.QueueCommands := by
  unfold Obligations.QueueCommands
  refine ⟨fun s d a inst q val b w hi hq _ unreset => ⟨fun admitted weight => ⟨fun idle least most ready within => ?_, fun on cq size =>
    sqDisable_completes b w hq hi unreset admitted weight on cq size⟩, fun admitted => ⟨fun idle least most => ?_, fun on free size =>
    cqDisable_completes b w hq hi unreset admitted on free size⟩⟩, fun s d inst q val st b awake word hq opens => ⟨?_, ?_⟩⟩
  · refine completes_imp (sqEnable_completes b w hq hi unreset admitted weight idle least most ready within) fun t ⟨fields, words, cmd⟩ => ?_
    unfold tailOf
    rw [cmd]
    exact ⟨fields, words, fun i j hj => smapGet_setQueue _ 0 hq hj, rfl, rfl⟩
  · refine completes_imp (cqEnable_completes b w hq hi unreset admitted idle least most) fun t ⟨fields, words, cmd⟩ => ?_
    unfold headOf
    rw [cmd]
    exact ⟨fields, words, fun i j hj => smapGet_setQueue _ 0 hq hj, rfl⟩
  · rintro _ _ rfl rfl
    exact ⟨tailBell_ignored b awake, fun on runs => ⟨tailBell_moves b awake word hq opens on runs,
      tailBell_stops b awake word hq opens on runs⟩⟩
  · rintro _ _ rfl rfl
    exact ⟨headBell_ignored b awake, fun on runs => ⟨headBell_moves b awake word hq opens on runs,
      headBell_stops b awake word hq opens on runs⟩⟩

end Sys2Proof.Proofs
end

section
/-! Routed commands: the ring of quarter SRAM, firmware's completions, the end of the wait, and the second issue (R99-R101, R480). -/

open Sys2Proof Sys2Proof.Machine

namespace Sys2Proof.Proofs

theorem length_leBytes (n v : Nat) : (leBytes n v).length = n := by
  induction n generalizing v with
  | zero => rfl
  | succ n ih => rw [leBytes, List.length_cons, ih]

/-- A routed entry is 128 bytes (R99). -/
theorem length_routedBytes (d : Dev) (k : Cmd) : (routedBytes d k).length = 128 := by
  simp [routedBytes, descBytes, length_leBytes, zeros]

/-- Counters of one page in different registers: the first is set, the second counts. -/
theorem setFld_wrapFld_spec {p : Nat} {f g : Fld} {v n : Nat} (d : Dev) (wf : InWord f) (wg : InWord g) (apart : f.off / 4 ≠ g.off / 4)
    (lowF : f.off < 0x1000) (lowG : g.off < 0x1000) :
    ∃ regs, wrapFld (setFld d p f v) p g n = { d with regs := regs } ∧ fld { d with regs := regs } p f = v % 2 ^ (f.hi + 1 - f.lo)
      ∧ fld { d with regs := regs } p g = (fld d p g + n) % 2 ^ (g.hi + 1 - g.lo)
      ∧ regsBut [(p, f.off), (p, g.off)] d { d with regs := regs } := by
  refine ⟨_, rfl, ?_, ?_, fun q off hq hoff => ?_⟩
  · exact (fld_setFld_other (setFld d p f v) p f g _ apart).trans (fld_setFld_same d p f v wf)
  · refine (fld_setFld_same (setFld d p f v) p g _ wg).trans ?_
    rw [fld_setFld_other d p g f v (Ne.symm apart), Nat.mod_mod]
  · simp only [List.map_cons, List.map_nil, List.mem_cons, List.not_mem_nil, or_false, not_or] at hq
    exact (regGet_setFld_regs (setFld d p f v) _ hoff lowG hq.2).trans (regGet_setFld_regs d v hoff lowF hq.1)

/-- A command that is written back stands as written, and every other as before. -/
theorem puts_back {a e : Dev} {tag : Nat} {k c : Cmd} (named : cmdOf a tag = some k) (same : c.tag = k.tag)
    (put : e.cmd = (putCmd c a).cmd) : cmdOf e tag = some c ∧ cmdsBut tag a e := by
  unfold cmdsBut
  rw [put, cmdOf_cmds (b := e) (congrArg CmdSt.cmds put)]
  obtain rfl := tag_of_cmdOf named
  obtain ⟨others, rest⟩ := same ▸ cmdsBut_putCmd c a
  exact ⟨cmdOf_putCmd_same named same, fun n hn => (cmdOf_cmds (congrArg CmdSt.cmds put) n).trans (others n hn), rest⟩

/-- An event of the command processor's page (R26, R102). -/
theorem raiseEv_pgCMD (n : Nat) (d : Dev) : ∃ h, raiseEv pgCMD n d = { d with hdr := h } ∧ eventAt pgCMD n d { d with hdr := h } := by
  have raised : ∃ h, raiseEv pgCMD n d = { d with hdr := h } := by
    unfold raiseEv
    rw [show pageKind pgCMD = some .cmd from rfl]
    dsimp only
    split
    · exact ⟨_, rfl⟩
    · exact ⟨_, rfl⟩
  obtain ⟨h, raised⟩ := raised
  exact ⟨h, raised, raised ▸ eventAt_raiseEv (p := pgCMD) (k := .cmd) rfl rfl n d⟩

/-- A command whose entry stands in the ring (R99). -/
def routedOut (k : Cmd) (now : Nat) : Cmd := { k with stage := .routed, routedAt := now, keyed := k.counted.isEmpty }

/-- An entry that is stored: the ring's tail moves, the entry counts, and firmware is told (R99, R102). -/
theorem routeGo_writes {k : Cmd} {d e : Dev} (room : rqFull d = false)
    (clear : tagWaits d k.epoch (rqBase d + fld d pgCMD Reg.CMD_RQ_TAIL_TAIL * 128) 128 = false)
    (stored : memStore2 whoCmdp k.epoch (rqBase d + fld d pgCMD Reg.CMD_RQ_TAIL_TAIL * 128) (routedBytes d k) d = (.ok, e)) :
    routeGo k d = raiseEv pgCMD 0 (putCmd (routedOut k e.now) (wrapFld (setFld e pgCMD Reg.CMD_RQ_TAIL_TAIL
      ((fld d pgCMD Reg.CMD_RQ_TAIL_TAIL + 1) % rqSize e)) pgCMD Reg.CMD_STAT_ROUTED_ROUTED 1)) := by
  unfold routeGo
  rw [if_neg (by simp [room, clear])]
  simp only [stored, wrapFld_now, setFld_now]
  rfl

section
variable {s : State} {d : Dev} {tag : Nat} {k : Cmd} (b : Begins s d) (named : cmdOf d tag = some k)
include b named

/-- ROUTED_ENTRY_WRITE: the entry stands in the ring, whose tail moves, and firmware is told (R99, R101). -/
theorem routedEntryWrite_completes {tail at' : Nat} (stands : k.stage = .route) (room : rqFull d = false)
    (htail : tail = fld d pgCMD Reg.CMD_RQ_TAIL_TAIL) (hat : at' = rqBase d + tail * 128) (clear : tagWaits d k.epoch at' 128 = false)
    (stored : memStore2 whoCmdp k.epoch at' (routedBytes d k) d = (.ok, putBytes d at' (routedBytes d k))) :
    Completes (.routedEntryWrite tag) s [.cmd, .mem, .regs, .hdr] fun t =>
      memBytes t at' 128 = routedBytes d k ∧ bytesBut at' 128 d t
      ∧ fld t pgCMD Reg.CMD_RQ_TAIL_TAIL = (tail + 1) % rqSize d % 2 ^ 16
      ∧ fld t pgCMD Reg.CMD_STAT_ROUTED_ROUTED = (fld d pgCMD Reg.CMD_STAT_ROUTED_ROUTED + 1) % 2 ^ 32
      ∧ regsBut [(pgCMD, 0x054), (pgCMD, 0x070)] d t ∧ eventAt pgCMD 0 d t
      ∧ cmdOf t tag = some { k with stage := .routed, routedAt := d.now, keyed := k.counted.isEmpty } ∧ cmdsBut tag d t := by
  subst htail hat
  have bytes := memBytes_putBytes (routedBytes d k) d (rqBase d + fld d pgCMD Reg.CMD_RQ_TAIL_TAIL * 128)
  have below := memByte_putBytes_below (routedBytes d k) d (rqBase d + fld d pgCMD Reg.CMD_RQ_TAIL_TAIL * 128)
  have above := memByte_putBytes_above (routedBytes d k) d (rqBase d + fld d pgCMD Reg.CMD_RQ_TAIL_TAIL * 128)
  rw [length_routedBytes] at bytes above
  rw [putBytes_eq] at stored bytes below above
  generalize (putBytes d _ _).mem = mem at stored bytes below above
  obtain ⟨regs, counted, moved, routed, words⟩ := setFld_wrapFld_spec (p := pgCMD) (f := Reg.CMD_RQ_TAIL_TAIL) (g := Reg.CMD_STAT_ROUTED_ROUTED)
    (v := (fld d pgCMD Reg.CMD_RQ_TAIL_TAIL + 1) % rqSize { d with mem := mem }) (n := 1) { d with mem := mem }
    ⟨by decide, by decide⟩ ⟨by decide, by decide⟩ (by decide) (by decide) (by decide)
  obtain ⟨h, raised, event⟩ := raiseEv_pgCMD 0 (putCmd (routedOut k d.now) { d with mem := mem, regs := regs })
  have go := routeGo_writes room clear stored
  rw [counted, raised] at go
  obtain ⟨put, others⟩ := puts_back (c := routedOut k d.now) named rfl
    (e := { putCmd (routedOut k d.now) { d with mem := mem, regs := regs } with hdr := h })
    rfl
  refine completes_runDev b (Eq.refl (execRoutedEntryWrite tag s)) ((atStage_runs named stands _).trans go) b.2 (fun p hp => ?_)
    ⟨bytes, fun x hx => hx.elim (below x) (above x), moved, routed, words, eventAt_hdr rfl event, put, others⟩
  cases p <;> simp_all [Part.same] <;> rfl

/-- ROUTED_TIMEOUT: a command that firmware leaves alone ends (R101). -/
theorem routedTimeout_completes {ms : Nat} (stands : k.stage = .routed) (hms : ms = fld d pgCMD Reg.CMD_CFG_RT_TIMEOUT) (limited : ms ≠ 0) :
    Completes (.routedTimeout tag) s [.cmd, .hdr, .now] fun t =>
      cmdOf t tag = some { k with stage := .held, result := some (failed stFW_TIMEOUT 0) } ∧ cmdsBut tag d t ∧ eventAt pgCMD 1 d t
      ∧ t.now = max d.now (k.routedAt + ms * 1000000) := by
  subst hms
  obtain ⟨h, raised, event⟩ := raiseEv_pgCMD 1
    (failCmd k (stFW_TIMEOUT, 0) (waitUntil (k.routedAt + fld d pgCMD Reg.CMD_CFG_RT_TIMEOUT * 1000000) d))
  have ends : routedTimeoutGo k d = _ := (if_pos (by simp [stands, limited])).trans raised
  obtain ⟨put, others⟩ := puts_back (c := { k with stage := .held, result := some (failed stFW_TIMEOUT 0) }) named rfl
    (e := { failCmd k (stFW_TIMEOUT, 0) (waitUntil (k.routedAt + fld d pgCMD Reg.CMD_CFG_RT_TIMEOUT * 1000000) d) with hdr := h }) rfl
  refine completes_runDev b (Eq.refl (execRoutedTimeout tag s)) ((atStage_runs named stands _).trans ends) b.2 (fun p hp => ?_)
    ⟨put, others, eventAt_hdr rfl event, rfl⟩
  cases p <;> simp_all [Part.same] <;> rfl

/-- TARGET_RESET_RETRY: a command whose unit is open again waits on the ring (R480). -/
theorem targetResetRetry_completes (stands : k.stage = .retry) (opens : portShut d (k.unit.getD 28) = false)
    (others : ∀ x, x ∈ d.cmd.cmds → x.stage = .ring → anyServes d (kindOf x) = true) (serves : anyServes d (kindOf k) = true) :
    Completes (.targetResetRetry tag) s [.cmd, .now] fun t =>
      cmdOf t tag = some { k with stage := .ring, unit := none } ∧ cmdsBut tag d t ∧ t.now = d.now + 1000 := by
  have swept := ringSweep_putCmd (c := { k with stage := .ring, unit := none }) (d := waitUntil (d.now + 1000) d) serves others
  have shut : ¬portShut (waitUntil (d.now + 1000) d) (k.unit.getD 28) = true := fun h => Bool.false_ne_true (opens.symm.trans h)
  obtain ⟨put, rest⟩ := puts_back (c := { k with stage := .ring, unit := none }) named rfl
    (e := putCmd { k with stage := .ring, unit := none } (waitUntil (d.now + 1000) d)) rfl
  refine completes_runDev b (Eq.refl (execTargetResetRetry tag s)) ((atStage_runs named stands _).trans ((if_neg shut).trans swept)) b.2
    (fun p hp => ?_) ⟨put, rest, Nat.max_eq_right (Nat.le_add_right ..)⟩
  cases p <;> simp_all [Part.same] <;> rfl

end

/-- Firmware's tail of the completion ring is taken as it is written, and nothing else of the page (R100, R102). -/
theorem judge_rcqTail {a : Access} {tail : Nat} {d : Dev} (word : tail < 2 ^ 16)
    (admitted : (admitWrite (seenAs a) pgCMD 0x060 d).1 = some .cmd)
    (accepted : fieldCode (seenAs a) pgCMD tail d Reg.CMD_RCQ_TAIL_TAIL = 0) :
    (judge a pgCMD 0x060 tail d).d = setFld d pgCMD Reg.CMD_RCQ_TAIL_TAIL tail := by
  have fields : softwareFlds .cmd 0x060 = [Reg.CMD_RCQ_TAIL_TAIL] := by decide
  have taken : bits tail 15 0 = tail := by
    unfold bits
    omega
  have put := putField_writes (run := runs d pgCMD) (f := Reg.CMD_RCQ_TAIL_TAIL) pgCMD 0x060 tail d (.inl rfl) (.inl (by decide))
  rw [show bits tail Reg.CMD_RCQ_TAIL_TAIL.hi Reg.CMD_RCQ_TAIL_TAIL.lo = tail from taken] at put
  unfold judge
  rw [(admitWrite_some admitted).1]
  dsimp only
  rw [Nat.mod_eq_of_lt (by omega)]
  refine (judgeFields_accepted (k := .cmd) rfl rfl (by simpa [fields] using accepted)).trans ?_
  rw [fields]
  exact put

/-- One unit of fuel of a recursion as it is defined: its body is given what the rest of the fuel does. -/
theorem brecOn_succ (F : (n : Nat) → Nat.below (motive := fun _ => Dev → Dev) n → Dev → Dev) (n : Nat) :
    ∃ x : Nat.below (motive := fun _ => Dev → Dev) (n + 1), x.1 = Nat.brecOn (motive := fun _ => Dev → Dev) n F
      ∧ Nat.brecOn (motive := fun _ => Dev → Dev) (n + 1) F = F (n + 1) x := ⟨_, rfl, rfl⟩

/-- `rcqConsume` through its body, since its equations cost the kernel too much. -/
theorem rcqConsume_body (n : Nat) :
    ∃ x : Nat.below (motive := fun _ => Dev → Dev) (n + 1), x.1 = rcqConsume n
      ∧ rcqConsume (n + 1) = rcqConsume._f (n + 1) x := by
  delta rcqConsume
  exact brecOn_succ rcqConsume._f n

/-- Nothing of the ring is left to read where its head has reached firmware's tail (R100). -/
theorem rcqConsume_empty {d : Dev} (fuel : Nat) (done : fld d pgCMD Reg.CMD_RCQ_HEAD_HEAD = fld d pgCMD Reg.CMD_RCQ_TAIL_TAIL) :
    rcqConsume (fuel + 1) d = d := by
  obtain ⟨x, -, body⟩ := rcqConsume_body fuel
  rw [body]
  unfold rcqConsume._f
  change ite (fld d pgCMD Reg.CMD_RCQ_HEAD_HEAD = fld d pgCMD Reg.CMD_RCQ_TAIL_TAIL) d _ = d
  rw [if_pos done]

/-- One entry of the ring is read without a tag, and its head moves (R100). -/
theorem rcqConsume_entry {d : Dev} {b : Bytes} (fuel : Nat)
    (more : fld d pgCMD Reg.CMD_RCQ_HEAD_HEAD ≠ fld d pgCMD Reg.CMD_RCQ_TAIL_TAIL)
    (read : memFetch2 whoCmdp true (rcqBase d + fld d pgCMD Reg.CMD_RCQ_HEAD_HEAD * 32) 32 d = (.ok, b, none, d)) :
    rcqConsume (fuel + 1) d = rcqConsume fuel (setFld (takeCompletion b none d) pgCMD Reg.CMD_RCQ_HEAD_HEAD
      ((fld d pgCMD Reg.CMD_RCQ_HEAD_HEAD + 1) % 2 ^ fld d pgCMD Reg.CMD_RQ_CFG_RCQ_SIZE)) := by
  obtain ⟨x, rest, body⟩ := rcqConsume_body fuel
  rw [body, ← rest]
  unfold rcqConsume._f
  change ite (fld d pgCMD Reg.CMD_RCQ_HEAD_HEAD = fld d pgCMD Reg.CMD_RCQ_TAIL_TAIL) d _ = _
  split
  · exact absurd ‹_› more
  · split
    rename_i e
    rw [read] at e
    obtain ⟨-, rfl, rfl, rfl⟩ := e
    rfl

/-- A command that firmware's entry has completed (R100). -/
def heldFor (k : Cmd) (b : Bytes) : Cmd := { k with stage := .held, result := some (firmwareResult k b) }

/-- An entry for a command that waits for firmware is its result, held at the fence (R100). -/
theorem takeCompletion_held {d : Dev} {b : Bytes} {k : Cmd} (named : cmdOf d (leAt b 0x14 4) = some k) (stands : k.stage = .routed) :
    takeCompletion b none d = putCmd (heldFor k b) d := by
  have epoch : tagMax k.epoch none = k.epoch := by cases k.epoch <;> rfl
  unfold takeCompletion
  rw [named]
  simp only [Option.filter, stands, decide_true, if_true, epoch]
  rfl

/-- ROUTED_COMPLETION: firmware's entry is the result of its command, held at the fence (R100). -/
theorem routedCompletion_completes {s : State} {d d1 : Dev} {a : Access} {tail head tag : Nat} {bytes : Bytes} {k : Cmd} (b : Begins s d)
    (w : AwakeFor d a) (hhead : head = fld d pgCMD Reg.CMD_RCQ_HEAD_HEAD)
    (next : (head + 1) % 2 ^ fld d pgCMD Reg.CMD_RQ_CFG_RCQ_SIZE = tail) (more : head ≠ tail) (word : tail < 2 ^ 16)
    (admitted : (admitWrite (seenAs a) pgCMD 0x060 d).1 = some .cmd)
    (accepted : fieldCode (seenAs a) pgCMD tail d Reg.CMD_RCQ_TAIL_TAIL = 0) (hd1 : d1 = setFld d pgCMD Reg.CMD_RCQ_TAIL_TAIL tail)
    (read : memFetch2 whoCmdp true (rcqBase d + head * 32) 32 d1 = (.ok, bytes, none, d1)) (tagged : leAt bytes 0x14 4 = tag)
    (named : cmdOf d tag = some k) (stands : k.stage = .routed) :
    Completes (.routedCompletion a tail) s [.cmd, .regs] fun t =>
      cmdOf t tag = some { k with stage := .held, result := some (firmwareResult k bytes) } ∧ cmdsBut tag d t
      ∧ holds t pgCMD [(Reg.CMD_RCQ_TAIL_TAIL, tail), (Reg.CMD_RCQ_HEAD_HEAD, tail)]
      ∧ regsBut [(pgCMD, 0x060), (pgCMD, 0x064)] d t := by
  have word' : InWord Reg.CMD_RCQ_TAIL_TAIL ∧ InWord Reg.CMD_RCQ_HEAD_HEAD := by
    unfold InWord
    decide
  have away : ∀ f : Fld, f.off / 4 ≠ Reg.CMD_RCQ_TAIL_TAIL.off / 4 → fld d1 pgCMD f = fld d pgCMD f := fun f hf => by
    rw [hd1]
    exact fld_setFld_other d pgCMD f _ tail hf
  have tail1 : fld d1 pgCMD Reg.CMD_RCQ_TAIL_TAIL = tail := by
    rw [hd1, fld_setFld_same d pgCMD _ tail word'.1]
    exact Nat.mod_eq_of_lt word
  have head1 : fld d1 pgCMD Reg.CMD_RCQ_HEAD_HEAD = head := (away _ (by decide)).trans hhead.symm
  have base : rcqBase d1 = rcqBase d := by
    unfold rcqBase fldPair
    rw [away _ (by decide), away _ (by decide)]
  have named1 : cmdOf d1 (leAt bytes 0x14 4) = some k := by
    rw [tagged, hd1]
    exact named
  rw [← base, ← head1] at read
  have entry := rcqConsume_entry 4095 (by rw [head1, tail1]; exact more) read
  rw [takeCompletion_held named1 stands, head1, away Reg.CMD_RQ_CFG_RCQ_SIZE (by decide), next] at entry
  have head2 := fld_setFld_same (putCmd (heldFor k bytes) d1) pgCMD Reg.CMD_RCQ_HEAD_HEAD tail word'.2
  have tail2 := (fld_setFld_other (putCmd (heldFor k bytes) d1) pgCMD Reg.CMD_RCQ_TAIL_TAIL Reg.CMD_RCQ_HEAD_HEAD tail (by decide)).trans tail1
  have ends : rcqAdvance a tail d = setFld (putCmd (heldFor k bytes) d1) pgCMD Reg.CMD_RCQ_HEAD_HEAD tail := by
    unfold rcqAdvance
    rw [show (judge a pgCMD Reg.CMD_RCQ_TAIL_TAIL.off tail d).d = d1 from (judge_rcqTail word admitted accepted).trans hd1.symm]
    refine entry.trans (rcqConsume_empty 4094 ?_)
    rw [tail2]
    exact head2.trans (Nat.mod_eq_of_lt word)
  obtain ⟨put, others⟩ := puts_back (c := heldFor k bytes) named rfl (e := setFld (putCmd (heldFor k bytes) d1) pgCMD Reg.CMD_RCQ_HEAD_HEAD tail)
    (by rw [hd1]; rfl)
  refine completes_runAcc b w (Eq.refl (execRoutedCompletion a tail s)) ends ?_ (fun p hp => ?_) ⟨put, others, ?_, fun q off hq hoff => ?_⟩
  · rw [hd1]
    exact b.2
  · rw [hd1]
    exact same_cmdRegs _ _ hp
  · intro x hx
    simp only [List.mem_cons, List.not_mem_nil, or_false] at hx
    obtain rfl | rfl := hx
    · exact tail2
    · exact head2.trans (Nat.mod_eq_of_lt word)
  · simp only [List.map_cons, List.map_nil, List.mem_cons, List.not_mem_nil, or_false, not_or] at hq
    obtain ⟨hq1, hq2⟩ := hq
    refine (regGet_setFld_regs (putCmd (heldFor k bytes) d1) _ hoff (by decide) hq2).trans ?_
    rw [hd1]
    exact regGet_setFld_regs d _ hoff (by decide) hq1

/-- Settles O28: the tail and the head of firmware's rings move over the registers that hold them, and the command is written back in
place of itself, so that every other command and register stays. -/
theorem routedCommands : Obligations.RoutedCommands := by
  intro s d b
  refine ⟨?_, ?_, ?_, ?_⟩
  · intro tag k tail at' named stands room htail hat clear stored
    exact routedEntryWrite_completes b named stands room htail hat clear stored
  · intro a tail head bytes tag k d1 w hhead next more word admitted accepted hd1 read tagged named stands
    exact routedCompletion_completes b w hhead next more word admitted accepted hd1 read tagged named stands
  · intro tag k ms named stands hms limited
    exact routedTimeout_completes b named stands hms limited
  · intro tag k named stands opens others serves
    exact targetResetRetry_completes b named stands opens others serves

end Sys2Proof.Proofs
end

section
/-! Records at the egress fence: which of those held passes next, and what its release leaves held (R430, R431). -/

open Sys2Proof Sys2Proof.Machine

namespace Sys2Proof.Proofs

theorem onlyRaised_onlyFns {a b : Dev} (h : OnlyFns a b) : OnlyRaised a b := by
  unfold OnlyFns at h
  unfold OnlyRaised
  rw [h]

/-- A message leaves an event as it is. -/
theorem eventAt_onlyFns {p n : Nat} {a b c : Dev} (h : OnlyFns b c) (event : eventAt p n a b) : eventAt p n a c := by
  unfold OnlyFns at h
  rw [h]
  exact event

/-- A record has passed the fence into the buffer under the next SEQ (R431). -/
def buffered (r : EvHand) (d : Dev) : Dev :=
  { d with
    nv := { d.nv with evSeq := d.nv.evSeq + 1 }
    evr := { d.evr with
      suppressed := smapSet zeroAt d.evr.suppressed r.code 0
      buf := d.evr.buf ++ [⟨d.nv.evSeq, r.chan, r.sev, r.code, recBytes r d.nv.evSeq (smapGet zeroAt d.evr.suppressed r.code) false⟩] } }

/-- A record of severity 5 or more that clears no channel enters the buffer, and NEW_RECORD is all that follows (R430, R431, R435). -/
theorem releaseRec_spec {r : EvHand} (severe : 5 ≤ r.sev) (plain : r.clear = none) (d : Dev) :
    OnlyRaised (buffered r d) (releaseRec r d) ∧ eventAt pgEVR 0 d (releaseRec r d) := by
  have only := raiseEv_onlyRaised pgEVR 0 (buffered r d)
  have event : eventAt pgEVR 0 d (raiseEv pgEVR 0 (buffered r d)) :=
    eventAt_hdr rfl (eventAt_raiseEv (p := pgEVR) (k := .evr0) rfl rfl 0 (buffered r d))
  have signalled := signalPfs_onlyFns 1 (raiseEv pgEVR 0 (buffered r d))
  unfold releaseRec
  simp only [severe, decide_true, Bool.true_or, if_true, plain, Bool.not_true, Bool.false_eq_true, if_false, Option.isSome_none]
  split
  · exact ⟨onlyRaised_trans only (onlyRaised_onlyFns signalled), eventAt_onlyFns signalled event⟩
  · exact ⟨only, event⟩

/-- EGRESS_RELEASE of a record: of those that the fence holds, the one that passes next enters the buffer (R430, R431). -/
theorem egressRecord_completes {s : State} {d : Dev} {r : EvHand} (b : Begins s d) (next : heldNext d.evr.held = some r)
    (room : bufBytes d + (recBytes r 0 0 false).length ≤ 65536) (severe : 5 ≤ r.sev) (plain : r.clear = none) :
    Completes (.egressRelease .record) s [.evr, .nv, .hdr, .host] fun t =>
      t.evr = { (buffered r d).evr with held := d.evr.held.erase r } ∧ t.nv = (buffered r d).nv ∧ eventAt pgEVR 0 d t := by
  have taken := releaseRec_spec severe plain { d with evr := { d.evr with held := d.evr.held.erase r } }
  have released : releaseHeld 1 d = releaseRec r { d with evr := { d.evr with held := d.evr.held.erase r } } := by
    unfold releaseHeld
    rw [next]
    exact if_pos room
  rw [← released] at taken
  obtain ⟨only, event⟩ := taken
  refine completes_runDev b (show exec (.egressRelease .record) s = runDev s (releaseHeld 1) from rfl) rfl ?_ (fun p hp => ?_)
    ⟨?_, ?_, eventAt_hdr rfl event⟩
  · rw [only]
    exact b.2
  · rw [only]
    cases p <;> simp_all [Part.same] <;> rfl
  all_goals
    rw [only]
    rfl

/-- A HALT record of channel 4, and a tamper alarm handed over after it, which passes before it (R430, R441). -/
def haltRecord : EvHand := ⟨4, 7, 0x0401, 0, false, [], none⟩
def alarmRecord : EvHand := ⟨0, 6, 0x0001, 0, false, [], none⟩

/-- The block with these two records at the fence and its buffer empty. -/
def alarmBehind : Dev := { Dev.reset with evr := { Dev.reset.evr with held := [haltRecord, alarmRecord] } }

/-- Refutes O30: a release of a record is to take the one handed over first, where the fence lets a tamper alarm pass before it (R430). -/
theorem not_egressCommands : ¬ Obligations.EgressCommands := by
  intro holds
  have begins : Begins ⟨alarmBehind, []⟩ alarmBehind := ⟨rfl, rfl⟩
  obtain ⟨-, -, record, -⟩ := holds ⟨alarmBehind, []⟩ alarmBehind begins
  obtain ⟨t, run, -, left, -⟩ := record haltRecord [alarmRecord] 0 rfl (by decide) (by decide) rfl rfl
  obtain ⟨u, run', -, evr, -⟩ := egressRecord_completes (r := alarmRecord) begins (by decide) (by decide) (by decide) rfl
  cases run'.symm.trans run
  rw [evr] at left
  exact absurd left (by decide)

end Sys2Proof.Proofs
end

section
/-! The service that firmware gives a routed command which reads no random values, and what it writes (R97, R99, R130, R220). -/

open Sys2Proof Sys2Proof.Machine

namespace Sys2Proof.Proofs

/-- A reader without reads has taken nothing (R223). -/
theorem readsTaken_none {d : Dev} {q : Nat} {who : Reader} (none' : readsNone d q who = true) : readsTaken d q who = 0 := by
  unfold readsNone at none'
  rw [Bool.and_eq_true, List.all_eq_true, List.all_eq_true] at none'
  have away : ((wellOf d q).grants.filter fun g => g.who = who && g.used && g.got.isSome) = [] :=
    List.filter_eq_nil_iff.mpr fun g hg => by simp [of_decide_eq_true (none'.2 g hg)]
  unfold readsTaken
  rw [away]
  rfl

/-- The engine of a command that has drawn nothing is written back as it stands (R220). -/
def engineCounted (k : Cmd) (d : Dev) : Dev :=
  match k.unit with
  | some u => if 20 ≤ u && u < 28 then modUnit u id d else d
  | none => d

theorem engineCounted_only (k : Cmd) (d : Dev) : ∃ units, engineCounted k d = { d with units := units } := by
  unfold engineCounted
  split
  · split <;> exact ⟨_, rfl⟩
  · exact ⟨_, rfl⟩

/-- An operation that reads no random values and leaves the block as it is. -/
theorem opReads_counted {k : Cmd} {d : Dev} (r : Result) (calm : readsNone d (cmdQuarter k d) (readerOf k) = true) :
    opReads k d (.done r d) = .done r (engineCounted k d) := by
  unfold opReads
  dsimp only
  rw [readsTaken_none calm, show readsOver (cmdQuarter k d) (readerOf k) d = d from if_pos calm]
  rfl

/-- A service without random values is kept with its command (R99, R130). -/
theorem serveOp_served {d : Dev} {tag op : Nat} {k : Cmd} {r : Result} {ops : Nat → Bool} {f : OpFn} (waits : AtFirmware d tag op k)
    (listed : ops op = true) (done : f k d = .done r d) :
    serveOp tag ops f d = putCmd { k with svc := some r } (engineCounted k d) := by
  obtain ⟨named, routed, keyed, unserved, opcode, valid, -, calm, -⟩ := waits
  rw [show Reader.cmd tag = readerOf k by rw [readerOf, tag_of_cmdOf named, if_neg valid]] at calm
  have kept : cmdOf (engineCounted k d) tag = some k := by
    obtain ⟨units, only⟩ := engineCounted_only k d
    rw [only]
    exact named
  unfold serveOp
  simp only [named, routed, keyed, unserved, opcode, listed, done, opReads_counted r calm, kept, decide_true, Option.isNone_none,
    Bool.and_self, if_true]

/-- FIRMWARE_ROUTED_OPCODE writes the engine of its command back (R97, R220). -/
theorem firmwareRoutedOpcode_units {s : State} {d : Dev} {tag op : Nat} {k : Cmd} (b : Begins s d) (own : opFirmware op = true)
    (waits : AtFirmware d tag op k) :
    Completes (.firmwareRoutedOpcode tag) s [.cmd, .units] fun t => t.units = (engineCounted k d).units := by
  have run := serveOp_served waits own (f := fun _ d => .done (okRes 0 0) d) rfl
  obtain ⟨units, only⟩ := engineCounted_only k d
  rw [only] at run ⊢
  refine completes_runDev b (Eq.refl (execFirmwareRoutedOpcode tag s)) run b.2 (fun p hp => ?_) rfl
  cases p <;> simp_all [Part.same] <;> rfl

/-- A request of firmware's own opcode that waits for firmware with an engine as its unit. -/
def engineCmd : Cmd :=
  { xtsCmd with desc := { xtsCmd.desc with opcode := 0x0F03 }, stage := .routed, unit := some 20, counted := [] }

/-- The block with this command in flight and a table of units that lists the engine as it is after a reset. -/
def engineListed : Dev :=
  { Dev.reset with cmd := { cmdReset with cmds := [engineCmd] }, units := [(20, unitReset 20)] }

theorem engineListed_atFirmware : AtFirmware engineListed 7 0x0F03 engineCmd := by
  unfold AtFirmware Fresh
  decide +kernel

/-- Refutes O19: a service is to leave the table of units alone, where the end of an operation writes the engine of its command back in
canonical form, and so out of a table that lists it as reset. No run brings a routed command to an engine or lists a unit as reset, but
the statement speaks of every state. -/
theorem not_routedKeyCommands : ¬ Obligations.RoutedKeyCommands := by
  intro holds
  have begins : Begins ⟨engineListed, []⟩ engineListed := ⟨rfl, rfl⟩
  obtain ⟨-, -, -, -, -, -, routed⟩ := holds ⟨engineListed, []⟩ engineListed 7 engineCmd noKey begins
  obtain ⟨t, run, ⟨kept, -⟩, -⟩ := routed 0x0F03 rfl engineListed_atFirmware
  obtain ⟨u, run', -, cleared⟩ := firmwareRoutedOpcode_units begins (by decide) engineListed_atFirmware
  cases run'.symm.trans run
  have listed : t.dev.units = [(20, unitReset 20)] := kept .units (by decide)
  exact absurd (listed.symm.trans cleared) (by decide)

end Sys2Proof.Proofs
end

section
/-! The records of T1 and of T0, and the queue of the vault: what a read answers after a write (R109, R140, R142, R149). -/

open Sys2Proof Sys2Proof.Machine

namespace Sys2Proof.Proofs

/-- At most the key store has changed. -/
def OnlyKey (a b : Dev) : Prop := b = { a with key := b.key }

theorem onlyKey_trans {a b c : Dev} (h : OnlyKey a b) (g : OnlyKey b c) : OnlyKey a c := by
  unfold OnlyKey at *
  rw [h] at g
  exact g

theorem same_onlyKey {a b : Dev} (h : OnlyKey a b) {p : Part} (hp : p ∉ [Part.key]) : p.same a b := by
  rw [h]
  cases p <;> simp_all [Part.same]

/-- A command that changes the key store alone completes so. -/
theorem completes_onlyKey {c : Instr} {s : State} {d : Dev} {q : Dev → Prop} {f : Dev → Dev} (b : Begins s d)
    (run : exec c s = runDev s f) (only : OnlyKey d (f d)) (hq : q (f d)) : Completes c s [.key] q := by
  refine completes_runDev b run rfl ?_ (fun p hp => same_onlyKey only hp) hq
  rw [only]
  exact b.2

theorem modKey_key (f : KeySt → KeySt) (d : Dev) : (modKey f d).key = f d.key := rfl

theorem t1Of_t1Put (n : Nat) (r : T1Rec) (d : Dev) (m : Nat) : t1Of (t1Put n r d) m = if m = n then r else t1Of d m :=
  smapGet_set t1Reset d.key.t1 n m r

theorem keyAt_eq_some {d : Dev} {n : Nat} {x : KeyRec} : keyAt d n = some x ↔ t1Of d n = .key x := by
  unfold keyAt
  cases t1Of d n <;> simp

theorem modRec_some {d : Dev} {n : Nat} {x : KeyRec} (key : keyAt d n = some x) (f : KeyRec → KeyRec) :
    modRec n f d = t1Put n (.key { f x with persisted := false }) d := by
  unfold modRec
  rw [key]

/-- A record that is free or retired leaves the table of resident keys alone. -/
theorem t1Put_resident {r : T1Rec} (freed : ∀ x, r ≠ .key x) (n : Nat) (d : Dev) : (t1Put n r d).key.resident = d.key.resident := by
  cases r with
  | key x => exact absurd rfl (freed x)
  | _ => rfl

theorem t0Evict_onlyKey (n : Nat) (d : Dev) : OnlyKey d (t0Evict n d) := by
  unfold t0Evict
  split <;> rfl

/-- An evicted key is in T0 no more, and every other as before (R142). -/
theorem residentOf_t0Evict (n : Nat) (d : Dev) (m : Nat) : residentOf (t0Evict n d) m = if m = n then none else residentOf d m := by
  unfold t0Evict
  split
  · split <;> simp_all
  · unfold residentOf modKey smapGet
    split
    · simp [‹m = n›, smapFind_del_same, noneAt]
    · rw [smapFind_del_other _ _ _ ‹_›]

/-- Of the key store an eviction changes T0 alone. -/
theorem t0Evict_key (n : Nat) (d : Dev) : { (t0Evict n d).key with resident := d.key.resident, slots := d.key.slots } = d.key := by
  unfold t0Evict
  split <;> rfl

/-- No entry of the open batch is of record n. -/
def NoOpenEntry (d : Dev) (n : Nat) : Prop := ∀ e, e ∈ d.key.queue → e.recNo = n → e.batch ≠ none

/-- The vault's queue ends with an entry of key record n as it now stands, and every other record is as before. -/
def Queued (n : Nat) (y : KeyRec) (a b : Dev) : Prop :=
  OnlyKey a b ∧ b.key.queue = a.key.queue ++ [⟨n, .key y, none⟩] ∧ keyAt b n = some y ∧ (∀ m, m ≠ n → t1Of b m = t1Of a m)
    ∧ smapGet noneAt b.key.usageDue n = none ∧ b.key.usageRaise = a.key.usageRaise ∧ b.key.nonceRaise = a.key.nonceRaise

/-- An entry of the vault's queue is placed, and no record changes (R149). -/
theorem vaultQueueBody_new {d : Dev} {n : Nat} (body : T1Rec) (none' : NoOpenEntry d n) :
    OnlyKey d (vaultQueueBody n body d) ∧ (vaultQueueBody n body d).key.queue = d.key.queue ++ [⟨n, body, none⟩]
      ∧ (vaultQueueBody n body d).key.t1 = d.key.t1 ∧ smapGet noneAt (vaultQueueBody n body d).key.usageDue n = none
      ∧ (vaultQueueBody n body d).key.usageRaise = d.key.usageRaise ∧ (vaultQueueBody n body d).key.nonceRaise = d.key.nonceRaise := by
  have new : ¬d.key.queue.any (fun e => e.openFor n) = true := by
    rw [List.any_eq_true]
    rintro ⟨e, he, isOpen⟩
    unfold VaultEnt.openFor at isOpen
    simp only [Bool.and_eq_true, Option.isNone_iff_eq_none, decide_eq_true_eq] at isOpen
    exact none' e he isOpen.2 isOpen.1
  exact ⟨rfl, if_neg new, rfl, smapGet_set_same noneAt d.key.usageDue n none, rfl, rfl⟩

/-- A changed key record of which the open batch has no entry adds one (R149). -/
theorem vaultQueue_queued {d : Dev} {n : Nat} {x : KeyRec} (writable : vaultWritable d = true) (key : keyAt d n = some x)
    (none' : NoOpenEntry d n) : Queued n { x with persisted := false } d (vaultQueue n false d) := by
  have go : vaultQueue n false d
      = vaultQueueRec n (t1Put n (.key { x with persisted := false }) d) := by
    unfold vaultQueue
    simp only [writable, modRec_some key, id_eq, Bool.not_true, Bool.false_eq_true, if_false, List.foldl_cons, List.foldl_nil]
  generalize ({ x with persisted := false } : KeyRec) = y at go ⊢
  have put := t1Of_t1Put n (.key y) d
  unfold vaultQueueRec at go
  rw [put, if_pos rfl] at go
  obtain ⟨only, queue, records, due, usage, nonce⟩ := vaultQueueBody_new (d := t1Put n (.key y) d) (.key y) none'
  rw [go]
  have others : ∀ m, t1Of (vaultQueueBody n (.key y) (t1Put n (.key y) d)) m = if m = n then .key y else t1Of d m := fun m => by
    rw [← put]
    unfold t1Of
    rw [records]
  have written : OnlyKey d (t1Put n (.key y) d) := rfl
  exact ⟨onlyKey_trans written only, queue, keyAt_eq_some.mpr (by rw [others, if_pos rfl]), fun m hm => by rw [others, if_neg hm], due,
    usage, nonce⟩

end Sys2Proof.Proofs
end

section
/-! The raises of reservations, the usage period, and the end of a derived key (R111, R127, R149, R174). -/

open Sys2Proof Sys2Proof.Machine

namespace Sys2Proof.Proofs

section
variable {s : State} {d : Dev} {n : Nat} {x : KeyRec} (key : keyAt d n = some x) (thawed : (instOf d (hInst x.handle)).run ≠ .frozen)

include key in
theorem frozenRec_thawed (thawed : (instOf d (hInst x.handle)).run ≠ .frozen) : frozenRec d n = false := by
  unfold frozenRec
  rw [key]
  exact decide_eq_false thawed

theorem vaultRoomFor_room (room : vaultRoom d 1 = true) (n : Nat) : vaultRoomFor d n = true := by
  unfold vaultRoomFor
  rw [room, Bool.or_true]

/-- A key record that has been changed beside a request of it is queued as any other. -/
theorem queued_changed {e t : Dev} {y : KeyRec} (only : OnlyKey d e) (queue : e.key.queue = d.key.queue)
    (others : ∀ m, m ≠ n → t1Of e m = t1Of d m) (queued : Queued n y e t) :
    OnlyKey d t ∧ t.key.queue = d.key.queue ++ [⟨n, .key y, none⟩] ∧ keyAt t n = some y ∧ ∀ m, m ≠ n → t1Of t m = t1Of d m := by
  obtain ⟨only', queue', at', others', -⟩ := queued
  exact ⟨onlyKey_trans only only', by rw [queue', queue], at', fun m hm => (others' m hm).trans (others m hm)⟩

section
variable (b : Begins s d) (writable : vaultWritable d = true) (room : vaultRoom d 1 = true)
  (none' : NoOpenEntry d n)
include b key thawed writable room none'

/-- USAGE_PERIOD_DUE (R149). -/
theorem usagePeriodDue_completes {at' : Nat} (due : smapGet noneAt d.key.usageDue n = some at') (works : vaultWorks d.sys.mode = true) :
    Completes (.usagePeriodDue n) s [.key, .now] fun t =>
      t.key.queue = d.key.queue ++ [⟨n, .key { x with persisted := false }, none⟩] ∧ smapGet noneAt t.key.usageDue n = none
      ∧ keyAt t n = some { x with persisted := false } ∧ (∀ m, m ≠ n → t1Of t m = t1Of d m) ∧ t.now = max d.now at' := by
  obtain ⟨only, queue, stands, others, past, -⟩ := vaultQueue_queued (d := waitUntil at' d) writable key none'
  refine completes_runDev b (Eq.refl (execUsagePeriodDue n s)) (e := vaultQueue n false (waitUntil at' d)) ?_ ?_ (fun p hp => ?_)
    ⟨queue, past, stands, others, ?_⟩
  · simp only [due, works, writable, vaultRoomFor_room room, frozenRec_thawed key thawed, Bool.not_false, Bool.and_self, if_true]
  · rw [only]
    exact b.2
  · rw [only]
    cases p <;> simp_all [Part.same]
  · rw [only]
    rfl

/-- USAGE_RESV_RAISE: the next block of uses is reserved (R127). -/
theorem usageResvRaise_reserves {v : Nat} {y : KeyRec} (asked : smapGet noneAt d.key.usageRaise n = some (v, false))
    (passes : fenceOpen d none = true) (left : x.resv < x.limit)
    (hy : y = { x with resv := x.resv + min 1024 (x.limit - x.resv), persisted := false }) :
    Completes (.usageResvRaise n) s [.key] fun t =>
      t.key.queue = d.key.queue ++ [⟨n, .key y, none⟩] ∧ keyAt t n = some y ∧ (∀ m, m ≠ n → t1Of t m = t1Of d m)
      ∧ smapGet noneAt t.key.usageRaise n = some (x.resv, true) := by
  obtain ⟨e, he⟩ : ∃ e, e = modKey (fun s => { s with usageRaise := smapSet noneAt s.usageRaise n (some (x.resv, true)) })
    (t1Put n (.key y) d) := ⟨_, rfl⟩
  have go : usageRaiseGo n d = vaultQueue n false e := by
    unfold usageRaiseGo
    simp only [asked, key, frozenRec_thawed key thawed, passes, writable, vaultRoomFor_room room, modRec_some key, Nat.not_le.mpr left, ← hy,
      ← he, Bool.not_true, Bool.or_self, Bool.false_eq_true, if_false]
  have put := t1Of_t1Put n (.key y) d
  have records : ∀ m, t1Of e m = t1Of (t1Put n (.key y) d) m := fun m => by rw [he]; rfl
  have raise : smapGet noneAt e.key.usageRaise n = some (x.resv, true) := by
    simp only [he, modKey_key, smapGet_set_same]
  have stands : keyAt e n = some y := keyAt_eq_some.mpr ((records n).trans ((put n).trans (if_pos rfl)))
  have queued := vaultQueue_queued (d := e) (by rw [he]; exact writable) stands (by rw [he]; exact none')
  rw [show ({ y with persisted := false } : KeyRec) = y by rw [hy]] at queued
  obtain ⟨only, queue, at', others⟩ := queued_changed (d := d) (by rw [he]; rfl) (by rw [he]; rfl)
    (fun m hm => (records m).trans ((put m).trans (if_neg hm))) queued
  obtain ⟨-, -, -, -, -, kept, -⟩ := queued
  rw [← go] at only queue at' others kept
  exact completes_onlyKey b (Eq.refl (execUsageResvRaise n s)) only ⟨queue, at', others, by rw [kept, raise]⟩


omit none' in
/-- USAGE_RESV_RAISE where USAGE_LIMIT has come down to what is reserved (R127, R130). -/
theorem usageResvRaise_over {v : Nat} (asked : smapGet noneAt d.key.usageRaise n = some (v, false)) (passes : fenceOpen d none = true)
    (spent : x.limit ≤ x.resv) :
    Completes (.usageResvRaise n) s [.key] fun t =>
      smapGet noneAt t.key.usageRaise n = none ∧ { t.key with usageRaise := d.key.usageRaise } = d.key := by
  have go : usageRaiseGo n d = modKey (fun s => { s with usageRaise := smapSet noneAt s.usageRaise n none }) d := by
    unfold usageRaiseGo
    simp only [asked, key, frozenRec_thawed key thawed, passes, writable, vaultRoomFor_room room, spent, Bool.not_true, Bool.or_self,
      Bool.false_eq_true, if_false, if_true]
  refine completes_onlyKey b (Eq.refl (execUsageResvRaise n s)) ?_ ?_ <;> rw [go]
  · rfl
  · exact ⟨by simp only [modKey_key, smapGet_set_same], rfl⟩

end

/-- What NONCE_RESV_RAISE makes of the key record (R174). -/
def nonceRaised (v : Nat) (x : KeyRec) : KeyRec := { x with nonceResv := max x.nonceResv v, persisted := false }

/-- A raise of NONCE_RESV that the fence lets pass: the record changes and the request is over (R174). -/
def nonceTaken (n v : Nat) (x : KeyRec) (d : Dev) : Dev :=
  modKey (fun s => { s with nonceRaise := smapSet noneAt s.nonceRaise n none }) (t1Put n (.key (nonceRaised v x)) d)

theorem nonceTaken_spec (n v : Nat) (x : KeyRec) (d : Dev) :
    OnlyKey d (nonceTaken n v x d) ∧ (nonceTaken n v x d).key.queue = d.key.queue ∧ keyAt (nonceTaken n v x d) n = some (nonceRaised v x)
      ∧ (∀ m, m ≠ n → t1Of (nonceTaken n v x d) m = t1Of d m) ∧ smapGet noneAt (nonceTaken n v x d).key.nonceRaise n = none := by
  have put := t1Of_t1Put n (.key (nonceRaised v x)) d
  refine ⟨rfl, rfl, keyAt_eq_some.mpr ((put n).trans (if_pos rfl)), fun m hm => (put m).trans (if_neg hm), ?_⟩
  simp only [nonceTaken, modKey_key, smapGet_set_same]

section
variable (b : Begins s d) {v : Nat} {e : Option Nat} (asked : smapGet noneAt d.key.nonceRaise n = some (v, e)) (passes : fenceOpen d e = true)
include b key thawed asked passes

/-- NONCE_RESV_RAISE of a persistent key, whose record is queued for the vault (R174). -/
theorem nonceResvRaise_persistent (writable : vaultWritable d = true) (room : vaultRoom d 1 = true) (pers : hClass x.handle = 0)
    (none' : NoOpenEntry d n) :
    Completes (.nonceResvRaise n) s [.key] fun t =>
      t.key.queue = d.key.queue ++ [⟨n, .key (nonceRaised v x), none⟩] ∧ keyAt t n = some (nonceRaised v x)
      ∧ (∀ m, m ≠ n → t1Of t m = t1Of d m) ∧ smapGet noneAt t.key.nonceRaise n = none := by
  have go : nonceRaiseGo n d = vaultQueue n false (nonceTaken n v x d) := by
    unfold nonceRaiseGo
    simp only [asked, key, frozenRec_thawed key thawed, passes, writable, vaultRoomFor_room room, pers, modRec_some key, decide_true,
      Bool.not_true, Bool.or_self, Bool.and_false, Bool.false_eq_true, if_false, if_true]
    rfl
  obtain ⟨taken, queue, stands, records, over'⟩ := nonceTaken_spec n v x d
  have queued := vaultQueue_queued (d := nonceTaken n v x d) writable stands none'
  obtain ⟨only, queue, at', others⟩ := queued_changed (y := nonceRaised v x) taken queue records queued
  obtain ⟨-, -, -, -, -, -, kept⟩ := queued
  rw [← go] at only queue at' others kept
  exact completes_onlyKey b (Eq.refl (execNonceResvRaise n s)) only ⟨queue, at', others, by rw [kept, over']⟩

/-- NONCE_RESV_RAISE of a key that the vault does not hold (R174). -/
theorem nonceResvRaise_derived (derived : hClass x.handle ≠ 0) :
    Completes (.nonceResvRaise n) s [.key] fun t =>
      t.key.queue = d.key.queue ∧ keyAt t n = some (nonceRaised v x) ∧ (∀ m, m ≠ n → t1Of t m = t1Of d m)
      ∧ smapGet noneAt t.key.nonceRaise n = none := by
  have go : nonceRaiseGo n d = nonceTaken n v x d := by
    unfold nonceRaiseGo
    simp only [asked, key, frozenRec_thawed key thawed, passes, derived, modRec_some key, decide_false, Bool.not_true, Bool.false_and,
      Bool.or_self, Bool.false_eq_true, if_false]
    rfl
  obtain ⟨only, rest⟩ := nonceTaken_spec n v x d
  rw [← go] at only rest
  exact completes_onlyKey b (Eq.refl (execNonceResvRaise n s)) only rest

end

/-- The record that a key leaves when it is freed (R109). -/
def freedAs (x : KeyRec) : T1Rec := if hGen x.handle = 0xFFF then .retired x.handle else .free (withGen x.handle (hGen x.handle + 1))

theorem freedAs_ne_key (x y : KeyRec) : freedAs x ≠ .key y := by
  unfold freedAs
  split <;> simp

include key in
/-- A key without extensions that no engine uses is freed at once, and leaves T0 (R109, R129). -/
theorem freeRec_idle (alone : x.exts = []) (idle : engineUses d n = false) : freeRec n d = t0Evict n (t1Put n (freedAs x) d) := by
  have still : engineUses (t1Put n (freedAs x) d) n = false := idle
  unfold freeRec
  unfold freedAs at *
  simp only [key, still, alone, Bool.false_eq_true, if_false, List.foldl_nil]

/-- The key store without what waits for a record (R129). -/
def unawaited (n : Nat) (s : KeySt) : KeySt :=
  { s with
    usageRaise := smapSet noneAt s.usageRaise n none, nonceRaise := smapSet noneAt s.nonceRaise n none
    usageDue := smapSet noneAt s.usageDue n none, noticed := smapSet falseAt s.noticed n false
    resumed := smapSet falseAt s.resumed n false, loaded := smapSet falseAt s.loaded n false }

include key in
/-- Of a key that the vault does not hold no more is left to do (R109, R129). -/
theorem destroyKey_derived (derived : hClass x.handle ≠ 0) : destroyKey n d = modKey (unawaited n) (freeRec n d) := by
  unfold destroyKey
  simp only [key, derived, decide_false, Bool.false_and, Bool.false_eq_true, if_false]
  rfl

include key thawed in
/-- DERIVED_KEY_FREE: the record is free at its next generation, or retired, and the key is out of T0 (R109, R111). -/
theorem derivedKeyFree_completes (b : Begins s d) (noticed : smapGet falseAt d.key.noticed n = true) (derived : hClass x.handle ≠ 0)
    (alone : x.exts = []) (idle : engineUses d n = false) :
    Completes (.derivedKeyFree n) s [.key] fun t =>
      t1Of t n = freedAs x ∧ residentOf t n = none ∧ (∀ m, m ≠ n → t1Of t m = t1Of d m ∧ residentOf t m = residentOf d m)
      ∧ smapGet falseAt t.key.noticed n = false ∧ t.key.queue = d.key.queue := by
  have put := t1Of_t1Put n (freedAs x) d
  have resident : residentOf (t1Put n (freedAs x) d) = residentOf d := by
    unfold residentOf
    rw [t1Put_resident (freedAs_ne_key x)]
  have written : OnlyKey d (t1Put n (freedAs x) d) := rfl
  have freed := freeRec_idle key alone idle
  have queue : (t1Put n (freedAs x) d).key.queue = d.key.queue := rfl
  generalize t1Put n (freedAs x) d = a at put resident written freed queue
  have only := onlyKey_trans written (t0Evict_onlyKey n a)
  have t0 := t0Evict_key n a
  have gone := residentOf_t0Evict n a
  rw [← freed, resident] at gone
  rw [← freed] at only t0
  have records : ∀ m, t1Of (freeRec n d) m = if m = n then freedAs x else t1Of d m := fun m => by
    rw [← put]
    unfold t1Of
    rw [← t0]
  rw [← t0] at queue
  have go : (if smapGet falseAt d.key.noticed n && !(frozenRec d n) then destroyKey n d else d) = modKey (unawaited n) (freeRec n d) := by
    rw [noticed, frozenRec_thawed key thawed]
    exact destroyKey_derived key derived
  refine completes_onlyKey b (Eq.refl (execDerivedKeyFree n s)) ?_ ?_ <;> rw [go]
  · exact onlyKey_trans only rfl
  · refine ⟨(records n).trans (if_pos rfl), (gone n).trans (if_pos rfl), fun m hm => ⟨(records m).trans (if_neg hm), (gone m).trans (if_neg hm)⟩,
      ?_, queue⟩
    simp only [modKey_key, unawaited, smapGet_set_same]

end
end Sys2Proof.Proofs
end

section
/-! The commands of KS_CMD (R137, R142, R149, R163). -/

open Sys2Proof Sys2Proof.Machine

namespace Sys2Proof.Proofs

/-! ## The register -/

/-- An operation code that the page lets through is taken whole, and the register keeps nothing of it (R39, R163). -/
theorem judge_ksCmd {a : Access} {v : Nat} {d : Dev} (code : v ∈ [1, 2, 3]) (admitted : (admitWrite (seenAs a) pgKS 0x044 d).1 = some .ks0)
    (accepted : fieldCode (seenAs a) pgKS v d Reg.KS_CMD_OP = 0) :
    (judge a pgKS Reg.KS_CMD_OP.off v d).d = d ∧ (judge a pgKS Reg.KS_CMD_OP.off v d).took Reg.KS_CMD_OP = true := by
  have fields : softwareFlds .ks0 0x044 = [Reg.KS_CMD_OP] := by decide
  have word : v % 2 ^ 32 = v := by
    simp only [List.mem_cons, List.not_mem_nil, or_false] at code
    omega
  have judged : judge a pgKS Reg.KS_CMD_OP.off v d = judgeFields .ks0 (seenAs a) pgKS 0x044 v d := by
    unfold judge
    rw [show Reg.KS_CMD_OP.off = 0x044 from rfl, (admitWrite_some admitted).1, word]
    rfl
  rw [judged]
  constructor
  · rw [judgeFields_accepted rfl rfl (by simpa [fields] using accepted), fields]
    rfl
  · unfold Judged.took judgeFields
    change decide (bits ((((softwareFlds .ks0 0x044).filter fun f => fieldCode (seenAs a) pgKS v d f = 0).map _).foldl _ _) _ _ = _) = true
    rw [fields]
    simp only [List.filter_cons, accepted, decide_true, if_true, List.filter_nil]
    decide

/-- Hypotheses of every command of KS_CMD: the page takes operations, and none is running (R24, R163). -/
def KsReady (d : Dev) : Prop := d.key.busy = false ∧ takesJobs d pgKS = true ∧ d.sys.mode ≠ .holdup ∧ stopped d.sys.mode = false

section
variable {s : State} {d : Dev} {a : Access} {v steps : Nat} (admitted : (admitWrite (seenAs a) pgKS 0x044 d).1 = some .ks0)
  (accepted : fieldCode (seenAs a) pgKS v d Reg.KS_CMD_OP = 0)
include admitted accepted

/-- So a write of KS_CMD begins its operation. -/
theorem ksCmdWrite_begins (code : v ∈ [1, 2, 3]) : ksCmdWrite a v steps d = ksOp (seenAs a) v steps d := by
  obtain ⟨kept, took⟩ := judge_ksCmd code admitted accepted
  have op : bits v 3 0 = v := by
    unfold bits
    simp only [List.mem_cons, List.not_mem_nil, or_false] at code
    omega
  unfold ksCmdWrite
  dsimp only
  rw [took, if_pos rfl, kept, op]

end

/-- Keys of T0 that no command uses leave it, one after another (R142). -/
def flushed (ns : List Nat) (d : Dev) : Dev := ns.foldl (fun d n => if flightOf d n = 0 then t0Evict n d else d) d

section
variable {d : Dev} (ready : KsReady d) (a : Access) (steps : Nat)
include ready

/-- VAULT_SYNC closes the open batch, and OP_DONE follows (R149, R163). -/
theorem ksOp_sync : ksOp a 2 steps d = raiseEv pgKS 4 (vaultClose d) := by
  obtain ⟨idle, serves, up, runs⟩ := ready
  unfold ksOp
  simp [idle, serves, up, runs]

/-- T0_FLUSH flushes every key of T0, and OP_DONE follows (R142, R163). -/
theorem ksOp_flush : ksOp a 3 steps d = raiseEv pgKS 4 (flushed (d.key.resident.map (·.1)) d) := by
  obtain ⟨idle, serves, up, runs⟩ := ready
  unfold ksOp flushed
  simp [idle, serves, up, runs]

/-- GEN_ROOT runs on the value that the DRBG gives it (R137). -/
theorem ksOp_root {root : Bytes} {e : Dev} (allowed : rootAllowed d a = true) (drawn : drawHomeless 64 d = (some root, e)) :
    ksOp a 1 steps d = rootGo root steps e := by
  obtain ⟨idle, serves, up, runs⟩ := ready
  unfold ksOp
  simp [idle, serves, up, runs, allowed, drawn]

end

/-- An event of the key store's page (R26, R163). -/
theorem raiseEv_pgKS (n : Nat) (d : Dev) : ∃ h, raiseEv pgKS n d = { d with hdr := h } ∧ eventAt pgKS n d { d with hdr := h } := by
  have raised : ∃ h, raiseEv pgKS n d = { d with hdr := h } := by
    unfold raiseEv
    rw [show pageKind pgKS = some .ks0 from rfl]
    dsimp only
    split <;> exact ⟨_, rfl⟩
  obtain ⟨h, raised⟩ := raised
  exact ⟨h, raised, raised ▸ eventAt_raiseEv (p := pgKS) (k := .ks0) rfl rfl n d⟩

/-! ## VAULT_SYNC and T0_FLUSH -/

/-- The key store with its open batch closed (R149). -/
def batchClosed (k : KeySt) : KeySt :=
  { k with
    queue := k.queue.map (fun e => if e.batch = none then { e with batch := some k.batches } else e)
    batches := k.batches + 1, closeAt := none }

/-- The job boundaries of the four KS pages (R35, R163). -/
def ksBoundaries (d : Dev) : Dev := jobBoundary pgKS (jobBoundary pgKS1 (jobBoundary pgKS2 (jobBoundary pgKS3 d)))

theorem ksBoundaries_spec (d : Dev) :
    (∃ regs shadow, ksBoundaries d = { d with regs := regs, shadow := shadow }) ∧ pagesBut [pgKS, pgKS1, pgKS2, pgKS3] d (ksBoundaries d) := by
  refine ⟨⟨(ksBoundaries d).regs, (ksBoundaries d).shadow, ?_⟩, fun p off hp hoff => ?_⟩
  · unfold ksBoundaries
    rw [jobBoundary_only, jobBoundary_only, jobBoundary_only, jobBoundary_only]
  · simp only [List.mem_cons, List.not_mem_nil, or_false, not_or] at hp
    obtain ⟨h0, h1, h2, h3⟩ := hp
    unfold ksBoundaries
    rw [regGet_jobBoundary_other _ hoff h0, regGet_jobBoundary_other _ hoff h1, regGet_jobBoundary_other _ hoff h2,
      regGet_jobBoundary_other _ hoff h3]

/-- The open batch closes. -/
theorem vaultClose_closes {d : Dev} (opened : d.key.closeAt.isSome = true) : vaultClose d = ksBoundaries (modKey batchClosed d) := by
  have closes : d.key.closeAt.isNone = false := by
    cases h : d.key.closeAt <;> simp_all
  unfold vaultClose
  rw [closes, if_neg Bool.false_ne_true]
  simp only [Option.isNone_iff_eq_none]
  rfl

/-- Of the key store only T0 has changed. -/
def OnlyT0 (a b : Dev) : Prop := OnlyKey a b ∧ { b.key with resident := a.key.resident, slots := a.key.slots } = a.key

theorem onlyT0_trans {a b c : Dev} (h : OnlyT0 a b) (g : OnlyT0 b c) : OnlyT0 a c := by
  obtain ⟨only, rest⟩ := h
  obtain ⟨only', rest'⟩ := g
  refine ⟨onlyKey_trans only only', ?_⟩
  rw [← rest'] at rest
  exact rest

theorem flightOf_onlyT0 {a b : Dev} (h : OnlyT0 a b) (n : Nat) : flightOf b n = flightOf a n := by
  unfold flightOf
  rw [← h.2]

/-- A key of T0 leaves it where no command uses it. -/
theorem flush_spec (n : Nat) (d : Dev) :
    OnlyT0 d (if flightOf d n = 0 then t0Evict n d else d)
      ∧ ∀ m, residentOf (if flightOf d n = 0 then t0Evict n d else d) m = if m = n ∧ flightOf d n = 0 then none else residentOf d m := by
  by_cases unused : flightOf d n = 0
  · rw [if_pos unused]
    exact ⟨⟨t0Evict_onlyKey n d, t0Evict_key n d⟩, fun m => by simp [residentOf_t0Evict, unused]⟩
  · rw [if_neg unused]
    exact ⟨⟨rfl, rfl⟩, fun m => by simp [unused]⟩

theorem flushed_spec (ns : List Nat) (d : Dev) :
    OnlyT0 d (flushed ns d) ∧ ∀ m, residentOf (flushed ns d) m = if m ∈ ns ∧ flightOf d m = 0 then none else residentOf d m := by
  induction ns generalizing d with
  | nil => exact ⟨⟨rfl, rfl⟩, fun m => by simp [flushed]⟩
  | cons n ns ih =>
    obtain ⟨first, gone⟩ := flush_spec n d
    obtain ⟨rest, others⟩ := ih (if flightOf d n = 0 then t0Evict n d else d)
    refine ⟨onlyT0_trans first rest, fun m => (others m).trans ?_⟩
    rw [flightOf_onlyT0 first, gone]
    by_cases again : m ∈ ns ∧ flightOf d m = 0
    · simp [again]
    · rw [if_neg again]
      refine if_congr ?_ rfl rfl
      constructor
      · rintro ⟨rfl, unused⟩
        exact ⟨List.mem_cons_self, unused⟩
      · rintro ⟨mem, unused⟩
        obtain rfl | mem := List.mem_cons.mp mem
        · exact ⟨rfl, unused⟩
        · exact absurd ⟨mem, unused⟩ again

/-- A number that the table of resident keys does not list is of no resident key. -/
theorem residentOf_unlisted {d : Dev} {n : Nat} (out : n ∉ d.key.resident.map (·.1)) : residentOf d n = none := by
  have none' : ∀ l : SMap (Option Resident), n ∉ l.map (·.1) → smapFind l n = none := by
    intro l
    induction l with
    | nil => exact fun _ => rfl
    | cons kv t ih =>
      intro h
      rw [List.map_cons, List.mem_cons, not_or] at h
      obtain ⟨k, v⟩ := kv
      rw [smapFind, if_neg (Ne.symm h.1), ih h.2]
  unfold residentOf smapGet
  rw [none' _ out]
  rfl

section
variable {s : State} {d : Dev} {a : Access} (b : Begins s d) (w : AwakeFor d a)
  (admitted : (admitWrite (seenAs a) pgKS 0x044 d).1 = some .ks0) (ready : KsReady d)
include b w admitted ready

/-- VAULT_SYNC: the open batch closes, a job boundary of the KS pages (R149, R163). -/
theorem vaultSync_completes (accepted : fieldCode (seenAs a) pgKS 2 d Reg.KS_CMD_OP = 0) (opened : d.key.closeAt.isSome = true) :
    Completes (.vaultSync a) s [.key, .regs, .shadow, .hdr] fun t =>
      t.key = batchClosed d.key ∧ pagesBut [pgKS, pgKS1, pgKS2, pgKS3] d t ∧ eventAt pgKS 4 d t := by
  obtain ⟨⟨regs, shadow, bounds⟩, pages⟩ := ksBoundaries_spec (modKey batchClosed d)
  have closes := vaultClose_closes opened
  rw [bounds] at pages closes
  obtain ⟨h, raised, event⟩ := raiseEv_pgKS 4 { modKey batchClosed d with regs := regs, shadow := shadow }
  have go : ksCmdWrite a 2 5 d = { modKey batchClosed d with regs := regs, shadow := shadow, hdr := h } := by
    rw [ksCmdWrite_begins admitted accepted (by decide), ksOp_sync ready, closes, raised]
  refine completes_runAcc (f := fun a => ksCmdWrite a 2 5) b w (Eq.refl (execVaultSync a s)) go b.2 (fun p hp => ?_)
    ⟨rfl, pages, eventAt_hdr rfl event⟩
  cases p <;> simp_all [Part.same] <;> rfl

/-- T0_FLUSH: the keys that no command uses leave T0 (R142, R163). -/
theorem t0Flush_completes (accepted : fieldCode (seenAs a) pgKS 3 d Reg.KS_CMD_OP = 0) :
    Completes (.t0Flush a) s [.key, .hdr] fun t =>
      (∀ n, residentOf t n = if flightOf d n = 0 then none else residentOf d n)
      ∧ { t.key with resident := d.key.resident, slots := d.key.slots } = d.key ∧ eventAt pgKS 4 d t := by
  obtain ⟨⟨only, t0⟩, resident⟩ := flushed_spec (d.key.resident.map (·.1)) d
  obtain ⟨h, raised, event⟩ := raiseEv_pgKS 4 (flushed (d.key.resident.map (·.1)) d)
  have go : ksCmdWrite a 3 5 d = { flushed (d.key.resident.map (·.1)) d with hdr := h } := by
    rw [ksCmdWrite_begins admitted accepted (by decide), ksOp_flush ready, raised]
  refine completes_runAcc (f := fun a => ksCmdWrite a 3 5) b w (Eq.refl (execT0Flush a s)) go ?_ (fun p hp => ?_)
    ⟨fun n => (resident n).trans ?_, t0, eventAt_hdr ?_ event⟩
  · rw [only]
    exact b.2
  · rw [only]
    cases p <;> simp_all [Part.same]
  · by_cases listed : n ∈ d.key.resident.map (·.1)
    · simp [listed]
    · simp [listed, residentOf_unlisted listed]
  · rw [only]

end

end Sys2Proof.Proofs
end

section
/-! GEN_ROOT (R137, R138, R155). -/

open Sys2Proof Sys2Proof.Machine

namespace Sys2Proof.Proofs

/-! ## What a record of the event recorder touches -/

/-- At most the parts of `evParts` and what has left have changed, and not the mark of a root secret. -/
def OnlyRecorded (a b : Dev) : Prop :=
  b = { a with
    evr := b.evr, nv := { b.nv with rootMark := a.nv.rootMark }, regs := b.regs, hdr := b.hdr, host := b.host, mem := b.mem, ofc := b.ofc
    out := b.out }

theorem onlyRecorded_refl (a : Dev) : OnlyRecorded a a := rfl

theorem onlyRecorded_trans {a b c : Dev} (h : OnlyRecorded a b) (g : OnlyRecorded b c) : OnlyRecorded a c := by
  unfold OnlyRecorded at *
  rw [h] at g
  exact g

theorem onlyRecorded_event {a b : Dev} (h : OnlyEvent a b) : OnlyRecorded a b := by
  unfold OnlyEvent at h
  unfold OnlyRecorded
  rw [h]

theorem raiseEv_onlyRecorded (p n : Nat) (d : Dev) : OnlyRecorded d (raiseEv p n d) := onlyRecorded_event (raiseEv_only d p n)

theorem clearChannels_onlyRecorded (mask below : Nat) (d : Dev) : OnlyRecorded d (clearChannels mask below d) := by
  have wiped := foldl_rel onlyRecorded_refl onlyRecorded_trans (fun (d : Dev) (r : LogRef) => wipeMem d r.addr (r.addr + r.len - 1))
    (fun _ _ => rfl) (d.nv.log.filter fun r => bit mask r.chan && r.seq < below) d
  unfold clearChannels
  exact onlyRecorded_trans wiped rfl

theorem releaseRec_onlyRecorded (r : EvHand) (d : Dev) : OnlyRecorded d (releaseRec r d) := by
  unfold releaseRec
  extract_lets
  split
  extract_lets d0 seq _ _ d1 _ _ _ _ d2 d3
  have h1 : OnlyRecorded d d1 := by
    unfold d1
    split
    · exact onlyRecorded_trans (b := d0) rfl (onlyRecorded_trans (clearChannels_onlyRecorded _ seq d0) rfl)
    · rfl
  have h2 : OnlyRecorded d d2 := by
    refine onlyRecorded_trans ?_ (raiseEv_onlyRecorded pgEVR 0 _)
    exact onlyRecorded_trans h1 rfl
  have h3 : OnlyRecorded d d3 := by
    unfold d3
    split
    · exact onlyRecorded_trans h2 (onlyRecorded_event (signalPfs_only d2 1).event)
    · exact h2
  split
  · rfl
  · split
    · refine onlyRecorded_trans ?_ (raiseEv_onlyRecorded pgEVR 2 _)
      exact onlyRecorded_trans h3 rfl
    · exact h3

theorem releaseHeld_onlyRecorded (fuel : Nat) (d : Dev) : OnlyRecorded d (releaseHeld fuel d) := by
  induction fuel generalizing d with
  | zero => rfl
  | succ n ih =>
    unfold releaseHeld
    split
    · rfl
    · have taken : ∀ t, OnlyRecorded d { d with evr := { d.evr with held := t } } := fun _ => rfl
      dsimp only
      split
      · exact onlyRecorded_trans (taken _) (onlyRecorded_trans (releaseRec_onlyRecorded _ _) (ih _))
      · split
        · exact onlyRecorded_trans (taken _) (ih _)
        · rfl

theorem record_onlyRecorded (code : Nat) (payload : Bytes) (d : Dev) : OnlyRecorded d (record code payload d) := by
  unfold record handRec
  split
  · exact onlyRecorded_trans (b := { d with evr := _ }) rfl (releaseHeld_onlyRecorded _ _)
  · rfl

/-- A change of VAULT_STATE is noted and told (R163). -/
theorem setVault_spec (st : VaultState) (j c : Nat) (d : Dev) :
    OnlyRecorded (modKey (fun k => { k with state := st }) d) (setVault st j c d) := by
  unfold setVault
  split
  · rename_i same
    subst same
    rfl
  · exact onlyRecorded_trans (record_onlyRecorded _ _ _) (raiseEv_onlyRecorded pgKS 2 _)

/-! ## The steps of GEN_ROOT -/

/-- The key store with the state that the vault has under a new root (R153-R155). -/
def newVault (k : KeySt) : VaultState := if k.taint then .closedTaint else if k.frozen then .readOnly else .opened

theorem vaultOpen_spec (d : Dev) :
    OnlyRecorded (modKey (fun k => { k with frontier := recCount, state := newVault d.key }) d) (vaultOpen d) :=
  setVault_spec (newVault d.key) 0 0 (modKey (fun k => { k with frontier := recCount }) d)

/-- Records of T1 have been written, with what then waits to go to memory and the table of resident keys. -/
def RecordsOf (k l : KeySt) : Prop := l = { k with t1 := l.t1, t1w := l.t1w, resident := l.resident }

theorem vaultFresh_spec (d : Dev) : OnlyKey d (vaultFresh d) ∧ RecordsOf d.key (vaultFresh d).key := by
  unfold vaultFresh
  generalize d.key.homes.filter _ = old
  induction old generalizing d with
  | nil => exact ⟨rfl, rfl⟩
  | cons kv t ih =>
    rw [List.foldl_cons]
    split
    · rename_i v _
      have put : OnlyKey d (t1Put kv.1 (oldEpoch v) d) ∧ RecordsOf d.key (t1Put kv.1 (oldEpoch v) d).key := ⟨rfl, rfl⟩
      obtain ⟨only, records⟩ := ih (t1Put kv.1 (oldEpoch v) d)
      refine ⟨onlyKey_trans put.1 only, ?_⟩
      unfold RecordsOf at *
      rw [put.2] at records
      exact records
    · exact ih d

/-- The key store under a new epoch of the vault, before its old entries read as free (R155). -/
def newEpoch (d : Dev) : KeySt :=
  let check := checkValue ((d.key.roots.map (·.2.2)).getD [])
  { d.key with
    epoch := (d.key.epoch + 1) % 2 ^ 32, epochStart := vaultCtr d, check := check, highest := none
    hdrB := ⟨(d.key.epoch + 1) % 2 ^ 32, vaultCtr d, check, none⟩, opStep := 3 }

section
variable {d : Dev} (busy : d.key.busy = true)
include busy

/-- Step 2: the keys of R138 are derived. -/
theorem rootStep_derive (at' : d.key.opStep = 1) :
    rootStep d = modKey (fun k => { k with
      roots := some (rootKeys (d.key.staged.getD []) d.fuse.secret d.key.taint), opStep := 2 }) d := by
  unfold rootStep
  simp only [busy, at', Bool.not_true, Bool.false_eq_true, if_false, if_true]
  simp [modKey, at']

/-- Step 3: a new epoch (R155). -/
theorem rootStep_epoch (at' : d.key.opStep = 2) :
    OnlyKey d (rootStep d) ∧ RecordsOf (newEpoch d) (rootStep d).key := by
  have go : rootStep d = modKey (fun k => { k with opStep := k.opStep + 1 }) (vaultFresh { d with key := { newEpoch d with opStep := 2 } }) := by
    unfold rootStep
    simp [busy, at', modKey, newEpoch]
  obtain ⟨only, records⟩ := vaultFresh_spec { d with key := { newEpoch d with opStep := 2 } }
  rw [go]
  have raised : OnlyKey d { d with key := { newEpoch d with opStep := 2 } } := rfl
  refine ⟨onlyKey_trans (onlyKey_trans raised only) rfl, ?_⟩
  unfold RecordsOf at *
  rw [modKey_key, records]
  rfl

/-- Step 4: the root secret goes to the battery-backed domain. -/
theorem rootStep_store (at' : d.key.opStep = 3) :
    rootStep d = { d with
      lant := { d.lant with root := some (d.key.staged.getD []) }, key := { d.key with staged := none, opStep := 4 } } := by
  unfold rootStep
  simp [busy, at', modKey]

/-- Step 5: the vault opens under the new root. -/
theorem rootStep_open (at' : d.key.opStep = 4) :
    OnlyRecorded { d with
      nv := { d.nv with rootMark := true }
      key := { d.key with busy := false, opStep := 0, frontier := recCount, state := newVault d.key } } (rootStep d) := by
  unfold rootStep
  simp only [busy, at', Bool.not_true, Bool.false_eq_true, if_false]
  generalize opened : modKey (fun k => { k with busy := false, opStep := 0 }) { d with nv := { d.nv with rootMark := true } } = e
  have vault := vaultOpen_spec e
  subst opened
  exact onlyRecorded_trans vault (raiseEv_onlyRecorded pgKS 4 _)

end

/-- The key store once GEN_ROOT has run on a value that gave these keys, the records of older epochs aside (R137, R138, R155). -/
def rooted (d : Dev) (root : Bytes) : KeySt :=
  { newEpoch { d with key := { d.key with roots := some (rootKeys root d.fuse.secret d.key.taint) } } with
    staged := none, busy := false, opStep := 0, frontier := recCount, state := newVault d.key }

/-- GEN_ROOT runs through all of its steps (R137). -/
theorem rootGo_runs (root : Bytes) (d : Dev) :
    ∃ k, RecordsOf (rooted d root) k
      ∧ OnlyRecorded { d with lant := { d.lant with root := some root }, nv := { d.nv with rootMark := true }, key := k } (rootGo root 5 d) := by
  obtain ⟨d1, h1⟩ : ∃ e, e = modKey (fun k => { k with staged := some root, busy := true, opStep := 1 }) d := ⟨_, rfl⟩
  have derive := rootStep_derive (d := d1) (by rw [h1]; rfl) (by rw [h1]; rfl)
  generalize h2 : rootStep d1 = d2 at derive
  obtain ⟨only, records⟩ := rootStep_epoch (d := d2) (by rw [derive, h1]; rfl) (by rw [derive]; rfl)
  generalize h3 : rootStep d2 = d3 at only records
  have store := rootStep_store (d := d3) (by rw [records, derive, h1]; rfl) (by rw [records]; rfl)
  generalize h4 : rootStep d3 = d4 at store
  have opens := rootStep_open (d := d4) (by rw [store, records, derive, h1]; rfl) (by rw [store])
  have go : rootGo root 5 d = rootStep d4 := by
    rw [← h4, ← h3, ← h2, h1]
    rfl
  have staged : d3.key.staged.getD [] = root := by
    rw [records, derive, h1]
    rfl
  have back : ∀ k, ({ d4 with nv := { d4.nv with rootMark := true }, key := k } : Dev)
      = { d with lant := { d.lant with root := some root }, nv := { d.nv with rootMark := true }, key := k } := fun k => by
    rw [store, staged, only, derive, h1]
    rfl
  rw [back] at opens
  refine ⟨_, ?_, go ▸ opens⟩
  unfold RecordsOf
  rw [store, records, derive, h1]
  rfl

end Sys2Proof.Proofs
end

section
/-! GEN_ROOT as a command, and the obligation about the key store's commands (R111, R127, R137, R142, R149, R163, R174). -/

open Sys2Proof Sys2Proof.Machine

namespace Sys2Proof.Proofs

/-- The DRBG that serves GEN_ROOT gives it what it asks for where that is ready (R137, R236). -/
theorem drawHomeless_ready {d : Dev} {n : Nat} (ready : RandomAt d (homelessQuarter d) n) :
    ∃ e, drawHomeless n d = (some ((drbgOf d (homelessQuarter d)).buf.take n), e)
      ∧ Giving (homelessQuarter d) n (wellOf d (homelessQuarter d)) d e := by
  obtain ⟨e, got, given⟩ := draw_ready ready
  refine ⟨e, ?_, given⟩
  unfold drawHomeless
  rw [got]

/-- The generator that served it has given up the bytes, and no other. -/
theorem giving_drbgs {q n : Nat} {w : Well} {a b t : Dev} (h : Giving q n w a b) (ent : t.ent = b.ent) :
    drbgOf t q = { drbgOf a q with buf := (drbgOf a q).buf.drop n } ∧ ∀ m, m ≠ q → drbgOf t m = drbgOf a m := by
  obtain ⟨-, -, drbgs, -⟩ := h
  have same : ∀ m, drbgOf t m = drbgOf b m := fun m => by
    unfold drbgOf
    rw [ent]
  exact ⟨by rw [same, drbgs, if_pos rfl], fun m hm => by rw [same, drbgs, if_neg hm]⟩

theorem same_keyEnt (d : Dev) (k : KeySt) (x : EntSt) {p : Part} (hp : p ∉ [Part.key, .ent]) : p.same d { d with key := k, ent := x } := by
  cases p <;> simp_all [Part.same]

theorem same_onlyRecorded {d e t : Dev} {k : KeySt} {l : LanternSt} {v : NvSt} (only : e = { d with ent := e.ent })
    (h : OnlyRecorded { e with lant := l, nv := v, key := k } t) {p : Part} (hp : p ∉ [Part.key, .lant, .ent] ++ evParts) : p.same d t := by
  rw [h, only]
  clear h only
  cases p <;> simp_all [Part.same, evParts]

section
variable {s : State} {d : Dev} {a : Access} {q : Nat} {b : Bytes} (begins : Begins s d) (w : AwakeFor d a)
  (admitted : (admitWrite (seenAs a) pgKS 0x044 d).1 = some .ks0) (ready : KsReady d)
  (accepted : fieldCode (seenAs a) pgKS 1 d Reg.KS_CMD_OP = 0) (allowed : rootAllowed d (seenAs a) = true)
  (hq : q = homelessQuarter d) (random : RandomAt d q 64) (hb : b = (drbgOf d q).buf.take 64)
include admitted ready accepted allowed hq random hb

/-- An accepted GEN_ROOT runs on 64 bytes drawn for it. -/
theorem genRoot_runs (steps : Nat) : ∃ e, ksCmdWrite a 1 steps d = rootGo b steps e ∧ Giving q 64 (wellOf d q) d e := by
  subst hq
  obtain ⟨e, drawn, given⟩ := drawHomeless_ready random
  rw [← hb] at drawn
  exact ⟨e, by rw [ksCmdWrite_begins admitted accepted (by decide), ksOp_root ready _ _ allowed drawn], given⟩

include begins w

/-- GEN_ROOT of which one step runs before the next command: the value is staged (R137). -/
theorem genRoot_stages :
    Completes (.genRoot a 1) s [.key, .ent] fun t =>
      t.key = { d.key with staged := some b, busy := true, opStep := 1 }
      ∧ drbgOf t q = { drbgOf d q with buf := (drbgOf d q).buf.drop 64 } ∧ (∀ m, m ≠ q → drbgOf t m = drbgOf d m) := by
  obtain ⟨e, go, given⟩ := genRoot_runs admitted ready accepted allowed hq random hb 1
  have drbgs := giving_drbgs (t := rootGo b 1 e) given rfl
  obtain ⟨only, -⟩ := given
  refine completes_runAcc (f := fun a => ksCmdWrite a 1 1) begins w (Eq.refl (execGenRoot a s 1)) go ?_ (fun p hp => ?_) ⟨?_, drbgs⟩
  · rw [only]
    exact begins.2
  · rw [only]
    exact same_keyEnt d _ _ hp
  · rw [only]
    rfl

/-- GEN_ROOT of which every step runs (R137, R138, R155). -/
theorem genRoot_completes {rs : Bytes × Bytes × Bytes} (hrs : rs = rootKeys b d.fuse.secret d.key.taint) :
    Completes (.genRoot a) s ([.key, .lant, .ent] ++ evParts) fun t =>
      t.lant = { d.lant with root := some b } ∧ t.nv.rootMark = true ∧ t.key.roots = some rs ∧ t.key.check = checkValue rs.2.2
      ∧ t.key.epoch = (d.key.epoch + 1) % 2 ^ 32 ∧ t.key.staged = none ∧ t.key.busy = false
      ∧ t.key.state = newVault d.key
      ∧ drbgOf t q = { drbgOf d q with buf := (drbgOf d q).buf.drop 64 } ∧ (∀ m, m ≠ q → drbgOf t m = drbgOf d m) := by
  obtain ⟨e, go, given⟩ := genRoot_runs admitted ready accepted allowed hq random hb 5
  obtain ⟨k, records, recorded⟩ := rootGo_runs b e
  have drbgs := giving_drbgs (t := rootGo b 5 e) given (by rw [recorded])
  obtain ⟨only, -⟩ := given
  unfold RecordsOf at records
  have key : (rootGo b 5 e).key = k := by rw [recorded]
  refine completes_runAcc (f := fun a => ksCmdWrite a 1 5) begins w (Eq.refl (execGenRoot a s 5)) go ?_ (fun p hp => ?_)
    ⟨?_, ?_, ?_, ?_, ?_, ?_, ?_, ?_, drbgs⟩
  · rw [recorded, only]
    exact begins.2
  · exact same_onlyRecorded only recorded hp
  · rw [recorded, only]
  · rw [recorded]
  all_goals
    rw [key, records, only]
    subst hrs
    rfl

end

/-- Settles O33: a request of a record is answered by one write of it and its entry in the vault's queue; an operation of KS_CMD is taken
as its page lets it through, and GEN_ROOT goes through its five steps. -/
theorem keyStoreCommands : Obligations.KeyStoreCommands := by
  refine ⟨fun s d n x b key thawed => ⟨fun writable room pers none' => ⟨?_, ?_, ?_, ?_⟩, ?_, ?_⟩,
    fun s d a b w admitted idle takes up runs => ⟨?_, ?_, ?_⟩⟩
  · intro at' due works
    exact usagePeriodDue_completes key thawed b writable room none' due works
  · intro v y asked passes left hy
    exact usageResvRaise_reserves key thawed b writable room none' asked passes left hy
  · intro v asked passes spent
    exact usageResvRaise_over key thawed b writable room asked passes spent
  · rintro v e y asked passes rfl
    exact nonceResvRaise_persistent key thawed b asked passes writable room pers none'
  · intro v e derived asked passes
    exact nonceResvRaise_derived key thawed b asked passes derived
  · intro noticed derived alone idle
    exact derivedKeyFree_completes key thawed b noticed derived alone idle
  · intro q r rs accepted allowed hq random hr hrs
    exact ⟨genRoot_completes b w admitted ⟨idle, takes, up, runs⟩ accepted allowed hq random hr hrs,
      genRoot_stages b w admitted ⟨idle, takes, up, runs⟩ accepted allowed hq random hr⟩
  · intro accepted opened
    exact vaultSync_completes b w admitted ⟨idle, takes, up, runs⟩ accepted opened
  · intro accepted
    exact t0Flush_completes b w admitted ⟨idle, takes, up, runs⟩ accepted

end Sys2Proof.Proofs
end

section
/-! A table that lists a unit twice, and the end of a command at no unit there: the boundary of a page that no unit of the command has
(R35). -/

open Sys2Proof Sys2Proof.Machine

namespace Sys2Proof.Proofs

/-- A command without a lane of its own, at its unit with nothing more to fetch. -/
def unlaned (x : Desc) (src aux : Option Bytes) : Cmd :=
  { xtsCmd with desc := x, src := src, aux := aux, unit := some 28, counted := [] }

/-- The block with this command in flight, a table of units whose second entry for lane 0 is hidden by the first, the hidden one at work on
the command, and a shadow of SERVE of that lane that waits for the lane's job boundary. -/
def listedTwice (k : Cmd) : Dev :=
  { Dev.reset with
    cmd := { cmdReset with cmds := [k] }
    units := [(0, unitReset 0), (0, { unitReset 0 with cur := some 7 })]
    shadow := [(regKey (pgSYM 0) 0x40, ⟨1, 0⟩)] }

theorem listedTwice_begins (k : Cmd) : Begins ⟨listedTwice k, []⟩ (listedTwice k) := ⟨rfl, rfl⟩

/-- No unit that a read of the table shows works on the command, so no page is one of its units' pages. -/
theorem unitPages_listedTwice (x : Desc) (src aux : Option Bytes) :
    unitPages (listedTwice (unlaned x src aux)) (unlaned x src aux) = [] := by
  have none' : unitsOn (listedTwice (unlaned x src aux)) 7 = [] := by
    show ((List.range 28).filter fun i => decide ((smapGet unitReset [(0, unitReset 0), (0, { unitReset 0 with cur := some 7 })] i).cur
      = some 7)).map unitPage = []
    decide
  unfold unitPages
  rw [show (unlaned x src aux).tag = 7 from rfl, none']
  rfl

/-- The command stands at its unit with the opcode of its descriptor. -/
theorem listedTwice_atUnit (x : Desc) (src aux : Option Bytes) :
    AtUnit (listedTwice (unlaned x src aux)) 7 x.opcode (unlaned x src aux) :=
  ⟨rfl, rfl, rfl, rfl, by decide, rfl, rfl, by intro n hn; cases hn⟩

/-- An operation at no unit that reads no random values and leaves the block as it is: its result is held and its units are freed. -/
theorem runOp_listedTwice {x : Desc} {src aux : Option Bytes} {r : Result} {f : OpFn}
    (done : f (unlaned x src aux) (listedTwice (unlaned x src aux)) = .done r (listedTwice (unlaned x src aux))) :
    runOp 7 [x.opcode] 0 f (listedTwice (unlaned x src aux))
      = freeUnits 7 (holdCmd (unlaned x src aux) r (listedTwice (unlaned x src aux))) := by
  have here : cmdOf (listedTwice (unlaned x src aux)) 7 = some (unlaned x src aux) := rfl
  have own : [x.opcode].contains (unlaned x src aux).desc.opcode = true := List.contains_iff_mem.mpr (List.mem_singleton_self _)
  have ran : runChecked 28 0 f (unlaned x src aux) (listedTwice (unlaned x src aux)) = .done r (listedTwice (unlaned x src aux)) :=
    (congrArg (opReads _ _) done).trans (opReads_counted r rfl)
  unfold runOp
  rw [here]
  show (if [x.opcode].contains (unlaned x src aux).desc.opcode = true then runGo (unlaned x src aux) 0 f _ else _) = _
  rw [if_pos own]
  unfold runGo
  dsimp only
  rw [show (unlaned x src aux).unit.getD 28 = 28 from rfl, ran]
  rfl

/-- SERVE of lane 0 takes its shadow when the command's units are freed. -/
theorem freeUnits_listedTwice (x : Desc) (src aux : Option Bytes) (r : Result) :
    regGet (freeUnits 7 (holdCmd (unlaned x src aux) r (listedTwice (unlaned x src aux)))) (pgSYM 0) 0x40 = 0 := by
  have boundary : regGet (jobBoundary (unitPage 0) { Dev.reset with shadow := [(regKey (pgSYM 0) 0x40, ⟨1, 0⟩)] }) (pgSYM 0) 0x40 = 0 := by
    decide +kernel
  exact boundary

theorem listedTwice_serves (k : Cmd) : regGet (listedTwice k) (pgSYM 0) 0x40 = 1 := by
  rfl

/-- Such a command does not finish as the statements say: a register of lane 0 changes, which is no unit of the command. -/
theorem not_finishes_listedTwice {c : Instr} {x : Desc} {src aux : Option Bytes} {r' : Result} {besides : List Part} {q : Dev → Prop}
    (f : OpFn) (r : Result)
    (run : exec c ⟨listedTwice (unlaned x src aux), []⟩ = runDev ⟨listedTwice (unlaned x src aux), []⟩ (runOp 7 [x.opcode] 0 f))
    (done : f (unlaned x src aux) (listedTwice (unlaned x src aux)) = .done r (listedTwice (unlaned x src aux))) :
    ¬ Finishes c ⟨listedTwice (unlaned x src aux), []⟩ (listedTwice (unlaned x src aux)) (unlaned x src aux) besides r' q := by
  rintro ⟨t, next, -, -, -, -, pages, -⟩
  obtain ⟨after, -⟩ := runDev_inv (run.symm.trans next)
  have ended : t.dev = freeUnits 7 (holdCmd (unlaned x src aux) r (listedTwice (unlaned x src aux))) :=
    after.trans ((congrArg haltIfFailed (runOp_listedTwice done)).trans (haltIfFailed_none _ rfl))
  rw [unitPages_listedTwice] at pages
  have same := pages (pgSYM 0) 0x40 List.not_mem_nil (by decide)
  rw [ended, freeUnits_listedTwice, listedTwice_serves] at same
  exact absurd same (by decide)

end Sys2Proof.Proofs
end

section
/-! Four families of commands at a unit, refuted at the table that lists a unit twice: the end of a command reaches a page that no unit of
the command has (R35). -/

open Sys2Proof Sys2Proof.Machine

namespace Sys2Proof.Proofs

/-- A request of an opcode without parameters. -/
def opDesc (op : Nat) : Desc := { xtsCmd.desc with opcode := op }

/-- Refutes O8: ENTROPY_STATUS is to change no register beyond the pages of its unit. With a table of units that lists lane 0 twice, the
hidden entry at work on the command, its end is a job boundary of that lane's page. No run lists a unit twice, but the statement speaks of
every state. -/
theorem not_derivationAndRandomCommands : ¬ Obligations.DerivationAndRandomCommands := by
  rintro ⟨-, atNone⟩
  obtain ⟨-, -, -, -, status⟩ := atNone _ _ 7 0 (unlaned (opDesc 0x0502) none none) (listedTwice_begins _) rfl
  obtain ⟨r0, -, finishes⟩ := status (listedTwice_atUnit ..)
  exact not_finishes_listedTwice opEntropyStatus _ rfl rfl finishes

/-- Refutes O16: KEY_DESTROY is to change no register beyond the pages of its unit, which fails at the
same table of units (`listedTwice`, a state of no run). -/
theorem not_pairAndAttributeCommands : ¬ Obligations.PairAndAttributeCommands := by
  intro holds
  obtain ⟨-, -, -, -, -, -, destroy⟩ := holds _ _ 7 0 (unlaned (opDesc 0x0108) none none) _ _ (listedTwice_begins _) (by decide) rfl rfl
  exact not_finishes_listedTwice opDestroy _ rfl rfl (destroy (listedTwice_atUnit ..))

/-- Refutes O17: KEY_EXPORT_X9143 of a key whose usage is not listed is to change no register beyond the pages of its unit, which fails at the
same table of units (`listedTwice`, a state of no run). -/
theorem not_keyExportCommands : ¬ Obligations.KeyExportCommands := by
  intro holds
  obtain ⟨-, -, -, -, -, unlisted⟩ := holds _ _ 7 0 0 (unlaned (opDesc 0x0106) none none) _ _ (listedTwice_begins _) rfl rfl
  exact not_finishes_listedTwice opExportX9 _ rfl rfl (unlisted (listedTwice_atUnit ..) rfl)

/-- A blob without a header that has the length of one and does not open ends the import with AUTH_FAIL (R134). -/
theorem opImport_unopened {c : Cmd} {d : Dev} {lo hi n : Nat} (bare : c.desc.param ≠ 2)
    (row : (algRow (tmplOf (auxOf c)).alg).map (fun r => (r.lo, r.hi)) = some (lo, hi)) (least : lo ≤ n) (most : n ≤ hi)
    (fits : blobLen c.desc.param (key1 c).alg n = some (srcOf c).length) (unopened : unwrapBlob c.desc.param (key1 c) (srcOf c) = none) :
    opImport c d = .done (failed stAUTH_FAIL 0) d := by
  obtain ⟨r, listed, ends⟩ := Option.map_eq_some_iff.mp row
  obtain ⟨rfl, rfl⟩ := Prod.mk.inj ends
  have taken : (((List.range (r.hi + 1 - r.lo)).map (r.lo + ·)).filterMap (blobLen c.desc.param (key1 c).alg)).contains (srcOf c).length
      = true := by
    rw [List.contains_iff_mem, List.mem_filterMap]
    exact ⟨n, List.mem_map.mpr ⟨n - r.lo, List.mem_range.mpr (by omega), by omega⟩, fits⟩
  unfold opImport
  simp only [bare, listed, taken, unopened, decide_false, Bool.false_and, Bool.not_true, Bool.false_eq_true, if_false, Option.map_some,
    Option.getD_some]

/-- A request to import an AES key of 128 bits from 512 bytes of RSA-OAEP, under a key that has gone. -/
def oaepCmd : Cmd := unlaned { opDesc 0x0103 with param := 3 } (some (zeros 512)) (some (0x10 :: zeros 63))

/-- The blob has the length of one, and does not open. -/
theorem oaepCmd_unopened : blobLen 3 noKey.alg 16 = some (srcOf oaepCmd).length ∧ unwrapBlob 3 noKey (srcOf oaepCmd) = none := by
  decide +kernel

/-- Refutes O18: KEY_IMPORT_WRAPPED of a blob that does not open is to change no register beyond the pages of its unit, which fails at the
same table of units (`listedTwice`, a state of no run). -/
theorem not_keyImportCommands : ¬ Obligations.KeyImportCommands := by
  intro holds
  obtain ⟨plain, -⟩ := holds _ _ 7 oaepCmd noKey (srcOf oaepCmd) (tmplOf (auxOf oaepCmd)) [] (listedTwice_begins _) rfl rfl
  obtain ⟨fits, unopened⟩ := oaepCmd_unopened
  have row : (algRow (tmplOf (auxOf oaepCmd)).alg).map (fun r => (r.lo, r.hi)) = some (16, 16) := by decide
  obtain ⟨fails, -⟩ := plain (listedTwice_atUnit ..) (by decide) rfl 16 16 16 row le_rfl le_rfl fits
  have done : opImport oaepCmd (listedTwice oaepCmd) = .done (failed stAUTH_FAIL 0) (listedTwice oaepCmd) :=
    opImport_unopened (by decide) row le_rfl le_rfl fits unopened
  exact not_finishes_listedTwice opImport _ rfl done (fails unopened)

end Sys2Proof.Proofs
end

section
/-! A restore of keys that a vault without writes refuses, and the obligation about the commands of custody, which fails at a table that lists
a unit as it is after a reset (R159, R220). -/

open Sys2Proof Sys2Proof.Machine

namespace Sys2Proof.Proofs

/-- KEY_RESTORE of a vault that takes no writes writes the engine of its command back (R153, R159, R220). -/
theorem keyRestore_readOnly_units {s : State} {d : Dev} {tag : Nat} {k : Cmd} (b : Begins s d) (waits : AtFirmware d tag 0x010F k)
    (closed : vaultWritable d = false) :
    Completes (.keyRestore tag) s [.cmd, .units] fun t =>
      cmdOf t k.tag = some { k with svc := some (failed stVAULT_RO 0) } ∧ t.units = (engineCounted k d).units := by
  have refused : opRestore k d = .done (failed stVAULT_RO 0) d := by
    unfold opRestore
    simp only [closed, Bool.not_false, if_true]
  have run := serveOp_served (ops := (· == 0x010F)) waits rfl refused
  obtain ⟨units, only⟩ := engineCounted_only k d
  obtain ⟨named, -⟩ := waits
  rw [only] at run ⊢
  refine completes_runDev b (Eq.refl (execKeyRestore tag s)) run b.2 (fun p hp => ?_) ⟨?_, rfl⟩
  · cases p <;> simp_all [Part.same] <;> rfl
  · obtain rfl := tag_of_cmdOf named
    exact cmdOf_putCmd_same (d := { d with units := units }) named rfl

/-- A request to restore keys that waits for firmware with an engine as its unit. -/
def engineRestore : Cmd := { engineCmd with desc := opDesc 0x010F }

/-- The block with this command in flight, its vault not open yet, and a table of units that lists the engine as it is after a reset. -/
def restoreAtEngine : Dev := { engineListed with cmd := { cmdReset with cmds := [engineRestore] } }

theorem restoreAtEngine_atFirmware : AtFirmware restoreAtEngine 7 0x010F engineRestore := by
  unfold AtFirmware Fresh
  decide +kernel

/-- Refutes O20: KEY_RESTORE is to leave the table of units alone, where the end of an operation writes the engine of its command back in
canonical form, and so out of a table that lists it as reset. No run brings a routed command to an engine or lists a unit as reset, but
the statement speaks of every state; its clause of KEY_BACKUP_EXPORT alone leaves the engines out. -/
theorem not_custodyCommands : ¬ Obligations.CustodyCommands := by
  intro holds
  have begins : Begins ⟨restoreAtEngine, []⟩ restoreAtEngine := ⟨rfl, rfl⟩
  obtain ⟨-, -, closed, -⟩ := holds ⟨restoreAtEngine, []⟩ restoreAtEngine 7 engineRestore begins
  obtain ⟨t, run, ⟨kept, -⟩, -⟩ := closed restoreAtEngine_atFirmware (by decide)
  obtain ⟨u, run', -, -, cleared⟩ := keyRestore_readOnly_units begins restoreAtEngine_atFirmware (by decide)
  cases run'.symm.trans run
  have listed : t.dev.units = [(20, unitReset 20)] := kept .units (by decide)
  exact absurd (listed.symm.trans cleared) (by decide)

end Sys2Proof.Proofs
end

section
/-! Records that come from the vault: the demand load and the background restore (R148, R151). -/

open Sys2Proof Sys2Proof.Machine

namespace Sys2Proof.Proofs

/-- A counter that wraps has counted, and no other register has changed. -/
theorem wrapFld_spec {p n : Nat} {f : Fld} (d : Dev) (word : InWord f) (low : f.off < 0x1000) :
    fld (wrapFld d p f n) p f = (fld d p f + n) % 2 ^ (f.hi + 1 - f.lo) ∧ regsBut [(p, f.off)] d (wrapFld d p f n) := by
  refine ⟨(fld_setFld_same d p f _ word).trans (Nat.mod_mod _ _), fun q off hq hoff => ?_⟩
  exact regGet_setFld_regs d _ hoff low fun same => hq (List.mem_singleton.mpr same)

theorem vaultCtr_congr {a b : Dev} (cells : b.key.cells = a.key.cells) : vaultCtr b = vaultCtr a := by
  unfold vaultCtr
  rw [cells]

/-- The copy that the device uses follows from the homes and the counter. -/
theorem vaultPick_congr {a b : Dev} (cells : b.key.cells = a.key.cells) (homes : b.key.homes = a.key.homes) (n : Nat) :
    vaultPick b n = vaultPick a n := by
  unfold vaultPick
  rw [vaultCtr_congr cells, homes]

/-- A write of a record leaves the residence of every other (R140). -/
theorem residentOf_t1Put_other {n m : Nat} (r : T1Rec) (d : Dev) (other : m ≠ n) : residentOf (t1Put n r d) m = residentOf d m := by
  unfold residentOf t1Put modKey
  dsimp only
  split
  · exact smapGet_set_other noneAt d.key.resident n m _ other
  · rfl

/-- What is read of a record, and of every other, once it has been written (R140, R145). -/
theorem t1Put_key_spec (n : Nat) (x : KeyRec) (d : Dev) :
    keyAt (t1Put n (.key x) d) n = some x
      ∧ ∀ m, m ≠ n → t1Of (t1Put n (.key x) d) m = t1Of d m ∧ residentOf (t1Put n (.key x) d) m = residentOf d m := by
  refine ⟨keyAt_eq_some.mpr ((t1Of_t1Put n _ d n).trans (if_pos rfl)), fun m other => ⟨?_, residentOf_t1Put_other _ d other⟩⟩
  exact (t1Of_t1Put n _ d m).trans (if_neg other)

/-- Of a block whose key store has changed and where a field has counted, every other part is as it was. -/
theorem same_keyCounted {a b : Dev} {page n : Nat} {f : Fld} (h : OnlyKey a b) {p : Part} (hp : p ∉ [Part.key, .regs]) :
    p.same a (wrapFld b page f n) := by
  rw [h]
  clear h
  cases p <;> simp_all [Part.same]

section
variable {d : Dev} {n : Nat} {b : Bool} {v : VaultCopy} {x : KeyRec} (pick : vaultPick d n = some (b, v)) (current : v.epoch = d.key.epoch)
  (body : v.body = .key x)
include pick current body

/-- A sound copy of a key goes to T1 where that does not hold the record (R148, R151). -/
theorem vaultRestore_key (absent : t1Of d n = .free 0) :
    vaultRestore vaultSound n d = t1Put n (.key { x with persisted := true }) d := by
  have sound : copyOk d n v vaultSound.sel = true := by simp [copyOk, vaultSound, current]
  have header : vaultSound.other.header = false := rfl
  unfold vaultRestore
  simp only [pick, current, absent, sound, header, ne_eq, not_true_eq_false, Bool.false_and, Bool.not_false, Bool.and_self, bne_self_eq_false,
    Bool.false_eq_true, if_false, if_true]
  unfold vaultLoad
  rw [body]

/-- A demand load of a key without extensions counts and brings its record (R148, R163). -/
theorem demandLoad_key (needed : needsDemand d n = true) (alone : x.exts = []) :
    demandLoad vaultSound n d = t1Put n (.key { x with persisted := true }) (wrapFld d pgKS3 Reg.KS_STAT_T2_LOADS 1) := by
  have absent : t1Of d n = .free 0 := by
    unfold needsDemand at needed
    simp only [Bool.and_eq_true, decide_eq_true_eq] at needed
    obtain ⟨⟨-, absent⟩, -⟩ := needed
    exact absent
  have restores := vaultRestore_key (d := wrapFld d pgKS3 Reg.KS_STAT_T2_LOADS 1) pick current body absent
  unfold demandLoad
  dsimp only
  rw [if_pos needed, restores, (t1Put_key_spec n _ _).1]
  simp only [Option.map_some, alone, Option.getD_some, List.foldl_nil]

end

/-- T2_DEMAND_LOAD: the key that a command at the policy check names comes from the vault, without extensions (R148). -/
theorem t2DemandLoad_completes {s : State} {d : Dev} {tag n : Nat} {k : Cmd} {b : Bool} {v : VaultCopy} {x : KeyRec} (begins : Begins s d)
    (named : cmdOf d tag = some k) (stands : k.stage = .policy) (loads : t2Loads d.sys.mode = true) (first : namesKey k.desc false = true)
    (second : namesKey k.desc true = false) (hn : n = hRec k.desc.key) (needed : needsDemand d n = true)
    (pick : vaultPick d n = some (b, v)) (current : v.epoch = d.key.epoch) (body : v.body = .key x) (alone : x.exts = []) :
    Completes (.t2DemandLoad tag vaultSound) s [.key, .regs] fun t =>
      keyAt t n = some { x with persisted := true } ∧ (∀ m, m ≠ n → t1Of t m = t1Of d m ∧ residentOf t m = residentOf d m)
      ∧ { t.key with t1 := d.key.t1, t1w := d.key.t1w, resident := d.key.resident } = d.key
      ∧ fld t pgKS3 Reg.KS_STAT_T2_LOADS = (fld d pgKS3 Reg.KS_STAT_T2_LOADS + 1) % 2 ^ 32 ∧ regsBut [(pgKS3, 0x048)] d t := by
  obtain ⟨stored, others⟩ := t1Put_key_spec n { x with persisted := true } (wrapFld d pgKS3 Reg.KS_STAT_T2_LOADS 1)
  obtain ⟨count, words⟩ := wrapFld_spec (p := pgKS3) (n := 1) (f := Reg.KS_STAT_T2_LOADS) d ⟨by decide, by decide⟩ (by decide)
  refine completes_runDev begins (Eq.refl (execT2DemandLoad tag vaultSound s))
    (e := t1Put n (.key { x with persisted := true }) (wrapFld d pgKS3 Reg.KS_STAT_T2_LOADS 1)) ?_ begins.2 (fun p hp => ?_)
    ⟨stored, others, rfl, count, words⟩
  · subst hn
    rw [atStage_runs named stands, if_pos loads, first, second]
    simp only [if_true, Bool.false_eq_true, if_false, List.append_nil, List.map_cons, List.map_nil, List.filter_cons, needed, List.filter_nil,
      List.foldl_nil]
    exact demandLoad_key pick current body needed alone
  · exact same_keyCounted (b := t1Put n (.key { x with persisted := true }) d) rfl hp

/-- The next copy follows from the homes and the counter. -/
theorem nextCopy_congr {a b : Dev} (cells : b.key.cells = a.key.cells) (homes : b.key.homes = a.key.homes) (n : Nat) :
    nextCopy b n = nextCopy a n := by
  unfold nextCopy
  simp only [vaultPick_congr cells homes, homes]

/-- Of a block whose key store has changed and which has noted a record, every other part is as it was. -/
theorem same_keyRecorded {d t : Dev} {k : KeySt} (h : OnlyRecorded { d with key := k } t) {p : Part} (hp : p ∉ Part.key :: evParts) :
    p.same d t := by
  rw [h]
  clear h
  cases p <;> simp_all [Part.same, evParts]

section
variable {s : State} {d : Dev} (begins : Begins s d) (runs : restoring d = true)
  (mode : d.sys.mode = .service ∨ d.sys.mode = .ceremony ∨ d.sys.mode = .diagnostic)

include runs mode in
theorem restoreRecord_runs :
    (if restoring d && (d.sys.mode = .service || d.sys.mode = .ceremony || d.sys.mode = .diagnostic) then restoreNext vaultSound d else d)
      = restoreNext vaultSound d := by
  refine if_pos ?_
  obtain mode | mode | mode := mode <;> rw [runs, mode] <;> rfl

include begins runs mode

/-- VAULT_RESTORE_RECORD: the next key of the vault comes to T1, and the frontier passes it (R148). -/
theorem vaultRestoreRecord_copies {n : Nat} {b : Bool} {v : VaultCopy} {x : KeyRec} (next : nextCopy d d.key.frontier = some n)
    (more : (nextCopy d (n + 1)).isSome = true) (pick : vaultPick d n = some (b, v)) (current : v.epoch = d.key.epoch)
    (body : v.body = .key x) (absent : t1Of d n = .free 0) :
    Completes (.vaultRestoreRecord vaultSound) s [.key] fun t =>
      keyAt t n = some { x with persisted := true } ∧ (∀ m, m ≠ n → t1Of t m = t1Of d m ∧ residentOf t m = residentOf d m)
      ∧ { t.key with t1 := d.key.t1, t1w := d.key.t1w, resident := d.key.resident, frontier := d.key.frontier } = d.key
      ∧ t.key.frontier = n + 1 := by
  obtain ⟨stored, others⟩ := t1Put_key_spec n { x with persisted := true } d
  generalize he : modKey (fun k => { k with frontier := n + 1 }) (t1Put n (.key { x with persisted := true }) d) = e
  have goesOn : (nextCopy e (n + 1)).isNone = false := by
    rw [nextCopy_congr (a := d) (by rw [← he]; rfl) (by rw [← he]; rfl), Option.isNone_eq_false_iff]
    exact more
  have go : restoreNext vaultSound d = e := by
    unfold restoreNext
    simp only [next, vaultRestore_key pick current body absent, he, goesOn, Bool.false_eq_true, if_false]
  have only : OnlyKey d e := he ▸ rfl
  refine completes_runDev begins (Eq.refl (execVaultRestoreRecord vaultSound s)) ((restoreRecord_runs runs mode).trans go) ?_
    (fun p hp => same_onlyKey only hp) ?_
  · rw [only]
    exact begins.2
  · rw [← he]
    exact ⟨stored, others, rfl, rfl⟩

/-- VAULT_RESTORE_RECORD with no copy left to restore: the vault is open (R148, R163). -/
theorem vaultRestoreRecord_opens (none' : nextCopy d d.key.frontier = none) (state : d.key.state = .restoring) :
    Completes (.vaultRestoreRecord vaultSound) s (.key :: evParts) fun t =>
      t.key = { d.key with frontier := recCount, state := .opened } := by
  have go : restoreNext vaultSound d = raiseEv pgKS 0 (setVault .opened 0 0 (modKey (fun k => { k with frontier := recCount }) d)) := by
    unfold restoreNext restoreDone
    simp only [none', modKey_key, state, if_true]
  have opened : OnlyRecorded { d with key := { d.key with frontier := recCount, state := .opened } } (restoreNext vaultSound d) := by
    rw [go]
    exact onlyRecorded_trans (setVault_spec .opened 0 0 (modKey (fun k => { k with frontier := recCount }) d)) (raiseEv_onlyRecorded pgKS 0 _)
  refine completes_runDev begins (Eq.refl (execVaultRestoreRecord vaultSound s)) (restoreRecord_runs runs mode) ?_
    (fun p hp => same_keyRecorded opened hp) ?_ <;> rw [opened]
  exact begins.2

end

end Sys2Proof.Proofs
end

section
/-! The three steps in which a batch of one entry commits (R150, R152). -/

open Sys2Proof Sys2Proof.Machine

namespace Sys2Proof.Proofs

/-- The homes of a record number (R147). -/
def homesOf (d : Dev) (n : Nat) : Homes := smapGet (fun _ => (⟨none, none⟩ : Homes)) d.key.homes n

/-- The homes of record n hold this, and of the key store no more has changed than the homes and what the header says of them. -/
def Stored (n : Nat) (h : Homes) (a b : Dev) : Prop :=
  OnlyKey a b ∧ homesOf b n = h ∧ (∀ m, m ≠ n → homesOf b m = homesOf a m)
    ∧ { b.key with homes := a.key.homes, highest := a.key.highest, hdrB := a.key.hdrB } = a.key

theorem stored_trans {n : Nat} {g h : Homes} {a b c : Dev} (first : Stored n g a b) (then' : Stored n h b c) : Stored n h a c := by
  obtain ⟨only, -, others, rest⟩ := first
  obtain ⟨only', at', others', rest'⟩ := then'
  refine ⟨onlyKey_trans only only', at', fun m hm => (others' m hm).trans (others m hm), ?_⟩
  rw [← rest'] at rest
  exact rest

/-- The homes of a record once an entry of the batch of counter c has been written to the one that is not in use (R147, R150). -/
def writtenHomes (c : Nat) (e : VaultEnt) (d : Dev) : Homes :=
  if (vaultPick d e.recNo).map (·.1) = some false then { homesOf d e.recNo with b := some ⟨bodyGen e.body, d.key.epoch, c, e.body, false⟩ }
  else { homesOf d e.recNo with a := some ⟨bodyGen e.body, d.key.epoch, c, e.body, false⟩ }

theorem vaultWrite_stored (c : Nat) (e : VaultEnt) (d : Dev) : Stored e.recNo (writtenHomes c e d) d (vaultWrite c e d) := by
  unfold vaultWrite
  refine ⟨rfl, (smapGet_set_same _ _ _ _).trans ?_, fun _ hm => smapGet_set_other _ _ _ _ _ hm, rfl⟩
  unfold writtenHomes
  obtain _ | ⟨_ | _, _⟩ := vaultPick d e.recNo <;> rfl

theorem vaultValid_stored (c n : Nat) (d : Dev) :
    Stored n ⟨nowValid c (homesOf d n).a, nowValid c (homesOf d n).b⟩ d (vaultValid c n d) :=
  ⟨rfl, smapGet_set_same _ _ _ _, fun _ hm => smapGet_set_other _ _ _ _ _ hm, rfl⟩

/-- The block once the commit record of a batch of one entry is complete (R150). -/
def journaled (c : Nat) (e : VaultEnt) (d : Dev) : Dev :=
  modKey (fun k => { k with
    journal := ⟨c, 1, aesCmac (vaultKey (vaultValid c e.recNo (vaultWrite c e d))) (batchText (vaultValid c e.recNo (vaultWrite c e d)) c)⟩ })
    (vaultValid c e.recNo (vaultWrite c e d))

/-- The block once the counter has reached the batch as well, cells that fail replaced by spares (R152). -/
def counterRaised (fails c : Nat) (e : VaultEnt) (d : Dev) : Dev :=
  modKey (fun k => { k with spares := k.spares - fails, cells := k.cells.set (c % 64) c }) (journaled c e d)

/-- The block once a batch of one entry has committed, the count of batches aside (R113, R150). -/
def committed (fails c : Nat) (e : VaultEnt) (d : Dev) : Dev := markPersisted e (vaultDrop [e] (counterRaised fails c e d))

/-- Both homes of the record hold valid what the batch wrote, and its commit record names it. -/
theorem journaled_spec (c : Nat) (e : VaultEnt) (d : Dev) :
    OnlyKey d (journaled c e d) ∧ homesOf (journaled c e d) e.recNo = ⟨nowValid c (writtenHomes c e d).a, nowValid c (writtenHomes c e d).b⟩
      ∧ (∀ m, m ≠ e.recNo → homesOf (journaled c e d) m = homesOf d m)
      ∧ (journaled c e d).key.journal.value = c ∧ (journaled c e d).key.journal.count = 1
      ∧ { (journaled c e d).key with
          homes := d.key.homes, highest := d.key.highest, hdrB := d.key.hdrB, journal := d.key.journal } = d.key := by
  have first := vaultWrite_stored c e d
  obtain ⟨only, at', others, rest⟩ := stored_trans first (vaultValid_stored c e.recNo (vaultWrite c e d))
  obtain ⟨-, homes, -⟩ := first
  rw [homes] at at'
  exact ⟨onlyKey_trans only rfl, at', others, rfl, rfl, congrArg (fun k : KeySt => { k with journal := d.key.journal }) rest⟩

section
variable {d d' : Dev} {e : VaultEnt} {n c : Nat} (batch : vaultBatch d = [e]) (record' : e.recNo = n) (ctr : c = vaultCtr d + 1)
  (thawed : d.key.frozen = false) (sure : d' = t1Sure [] n d) (passed : d'.mpe.failing = none)
include batch record' ctr thawed sure passed

/-- The steps of a commit follow the transfer of its records; without damage the seals are sound (R139, R150). -/
theorem vaultCommit_written (fails : Nat) : vaultCommit [] fails 1 d = vaultWrite c e d' := by
  subst record' ctr sure
  unfold vaultCommit
  simp [batch, thawed, passed, sealSeen, hitOf]

/-- With two steps run, the commit record is complete. -/
theorem vaultCommit_journaled (fails : Nat) : vaultCommit [] fails 2 d = journaled c e d' := by
  subst record' ctr sure
  unfold vaultCommit
  simp [batch, thawed, passed, sealSeen, hitOf, journaled]

/-- With all three run, the counter has followed, where spares replace the cells that fail (R152). -/
theorem vaultCommit_committed {fails : Nat} (enough : fails ≤ (journaled c e d').key.spares) :
    vaultCommit [] fails 3 d = repairsQueue (wrapFld (committed fails c e d') pgKS3 Reg.KS_STAT_BATCH_BATCHES 1) := by
  subst record' ctr sure
  have put : cellPut fails (vaultCtr d + 1) (journaled (vaultCtr d + 1) e (t1Sure [] e.recNo d))
      = (true, counterRaised fails (vaultCtr d + 1) e (t1Sure [] e.recNo d)) := by
    unfold cellPut
    rw [if_neg (Nat.not_lt.mpr enough)]
    rfl
  unfold vaultCommit
  unfold journaled at put
  simp [batch, thawed, passed, sealSeen, hitOf, put, committed]

end

/-- A list with one of its members raised past every other has that as its greatest. -/
theorem foldl_max_set {l : List Nat} {v i : Nat} (below : l.foldl max 0 ≤ v) (listed : i < l.length) : (l.set i v).foldl max 0 = v := by
  induction l generalizing i with
  | nil => exact absurd listed (Nat.not_lt_zero i)
  | cons x t ih =>
    have split' : ∀ y (t : List Nat), (y :: t).foldl max 0 = max y (t.foldl max 0) := fun y t => by
      rw [List.foldl_cons, max_comm 0 y, List.foldl_assoc]
    rw [split', max_le_iff] at below
    cases i with
    | zero => rw [List.set_cons_zero, split', max_eq_left below.2]
    | succ i => rw [List.set_cons_succ, split', ih below.2 (Nat.lt_of_succ_lt_succ listed), max_eq_right below.1]

/-- A raise of USAGE_RESV may be over. -/
def raiseOver (u : SMap (Option (Nat × Bool))) (v : SMap Nat) (d : Dev) : Dev := modKey (fun k => { k with usageRaise := u, usageBlock := v }) d

/-- Of an entry of a key, whose record T1 still holds as one, PERSISTED is set where they are equal (R113). -/
theorem markPersisted_cases (e : VaultEnt) (d : Dev) :
    (markPersisted e d = d ∧ ∀ x, e.body = .key x → keyAt d e.recNo = none)
      ∨ ∃ x y u v, e.body = .key x ∧ keyAt d e.recNo = some y
          ∧ markPersisted e d = raiseOver u v (if x = y then t1Put e.recNo (.key { y with persisted := true }) d else d) := by
  unfold markPersisted
  split
  · rename_i x y body holds
    refine .inr ⟨x, y, ?_⟩
    dsimp only
    generalize (if x = y then t1Put e.recNo (.key { y with persisted := true }) d else d) = t
    split
    · split
      · exact ⟨_, _, body, keyAt_eq_some.mpr holds, rfl⟩
      · exact ⟨t.key.usageRaise, t.key.usageBlock, body, keyAt_eq_some.mpr holds, rfl⟩
    · exact ⟨t.key.usageRaise, t.key.usageBlock, body, keyAt_eq_some.mpr holds, rfl⟩
  · rename_i other
    refine .inl ⟨rfl, fun x body => ?_⟩
    cases holds : keyAt d e.recNo with
    | none => rfl
    | some y => exact absurd (keyAt_eq_some.mp holds) (other x y body)

/-- The commit of an entry changes in T1 at most the record's PERSISTED, and besides a raise of USAGE_RESV may be over (R113, R127). -/
theorem markPersisted_spec (e : VaultEnt) (d : Dev) :
    OnlyKey d (markPersisted e d)
      ∧ { (markPersisted e d).key with
          t1 := d.key.t1, t1w := d.key.t1w, resident := d.key.resident, usageRaise := d.key.usageRaise, usageBlock := d.key.usageBlock } = d.key
      ∧ (∀ m, m ≠ e.recNo → t1Of (markPersisted e d) m = t1Of d m)
      ∧ ∀ x, e.body = .key x → keyAt d e.recNo = some x → keyAt (markPersisted e d) e.recNo = some { x with persisted := true } := by
  obtain ⟨same, none'⟩ | ⟨x, y, u, v, body, holds, go⟩ := markPersisted_cases e d
  · rw [same]
    refine ⟨rfl, rfl, fun _ _ => rfl, fun x body holds => ?_⟩
    rw [none' x body] at holds
    cases holds
  · rw [go]
    split
    · obtain ⟨stored, others⟩ := t1Put_key_spec e.recNo { y with persisted := true } d
      refine ⟨rfl, rfl, fun m hm => (others m hm).1, fun x _ holds' => ?_⟩
      cases holds.symm.trans holds'
      exact stored
    · rename_i differ
      refine ⟨rfl, rfl, fun _ _ => rfl, fun x' body' holds' => ?_⟩
      cases holds.symm.trans holds'
      cases body.symm.trans body'
      exact absurd rfl differ

theorem repairsQueue_none {d : Dev} (none' : d.key.repairDue = []) : repairsQueue d = d := by
  unfold repairsQueue
  rw [none']
  rfl

/-- What the commit of a batch of one entry does to the key store (R113, R150, R152). -/
structure Commits (fails c : Nat) (e : VaultEnt) (a b : Dev) : Prop where
  only : OnlyKey a b
  cells : b.key.cells = a.key.cells.set (c % 64) c
  value : b.key.journal.value = c
  count : b.key.journal.count = 1
  spares : b.key.spares = a.key.spares - fails
  queue : b.key.queue = a.key.queue.filter (fun x => decide (x ≠ e))
  repairs : b.key.repairDue = a.key.repairDue
  homes : homesOf b e.recNo = ⟨nowValid c (writtenHomes c e a).a, nowValid c (writtenHomes c e a).b⟩
  others : ∀ m, m ≠ e.recNo → t1Of b m = t1Of a m ∧ homesOf b m = homesOf a m
  persists : ∀ x, e.body = .key x → keyAt a e.recNo = some x → keyAt b e.recNo = some { x with persisted := true }

theorem committed_spec (fails c : Nat) (e : VaultEnt) (d : Dev) : Commits fails c e d (committed fails c e d) := by
  obtain ⟨stored, at', beside, value, count, rest⟩ := journaled_spec c e d
  have records : ∀ m, t1Of (vaultDrop [e] (counterRaised fails c e d)) m = t1Of d m := fun m =>
    congrArg (smapGet t1Reset · m) (congrArg (·.t1) rest : (journaled c e d).key.t1 = d.key.t1)
  have cells : (journaled c e d).key.cells = d.key.cells := congrArg (·.cells) rest
  have spares : (journaled c e d).key.spares = d.key.spares := congrArg (·.spares) rest
  have queue : (journaled c e d).key.queue = d.key.queue := congrArg (·.queue) rest
  have repairs : (journaled c e d).key.repairDue = d.key.repairDue := congrArg (·.repairDue) rest
  obtain ⟨only, rest', others, persists⟩ := markPersisted_spec e (vaultDrop [e] (counterRaised fails c e d))
  have homes : ∀ m, homesOf (committed fails c e d) m = homesOf (journaled c e d) m := fun m =>
    congrArg (smapGet (fun _ => (⟨none, none⟩ : Homes)) · m)
      (congrArg (·.homes) rest' : (committed fails c e d).key.homes = (journaled c e d).key.homes)
  exact {
    only := onlyKey_trans stored (onlyKey_trans (b := vaultDrop [e] (counterRaised fails c e d)) rfl only)
    cells := (congrArg (·.cells) rest').trans (congrArg (·.set (c % 64) c) cells)
    value := (congrArg (·.journal.value) rest').trans value
    count := (congrArg (·.journal.count) rest').trans count
    spares := (congrArg (·.spares) rest').trans (congrArg (· - fails) spares)
    queue := by
      refine (congrArg (·.queue) rest').trans ((congrArg (List.filter fun x => !([e].contains x)) queue).trans ?_)
      exact List.filter_congr fun x _ => by simp
    repairs := (congrArg (·.repairDue) rest').trans repairs
    homes := (homes _).trans at'
    others := fun m hm => ⟨(others m hm).trans (records m), (homes m).trans (beside m hm)⟩
    persists := fun x body holds => persists x body (keyAt_eq_some.mpr ((records _).trans (keyAt_eq_some.mp holds))) }

section
variable {s : State} {d d' : Dev} {e : VaultEnt} {n c : Nat} (begins : Begins s d) (works : vaultWorks d.sys.mode = true)
  (writable : vaultWritable d = true) (batch : vaultBatch d = [e]) (record' : e.recNo = n) (ctr : c = vaultCtr d + 1)
  (thawed : d.key.frozen = false) (sure : d' = t1Sure [] n d) (passed : d'.mpe.failing = none)
  (key : d'.key = { d.key with t1w := d'.key.t1w })

include key in
/-- What the batch writes is the same before and after the transfer of its records. -/
theorem writtenHomes_transferred : writtenHomes c e d' = writtenHomes c e d := by
  unfold writtenHomes homesOf
  rw [vaultPick_congr (a := d) (by rw [key]) (by rw [key]), key]

include begins works writable in
/-- A commit completes with what it comes to. -/
theorem vaultBatchCommit_completes {fails steps : Nat} {t : Dev} {but : List Part} {q : Dev → Prop}
    (go : vaultCommit [] fails steps d = t) (ok : t.mpe.failing = none) (keep : ∀ p : Part, p ∉ but → p.same d t) (hq : q t) :
    Completes (.vaultBatchCommit fails steps) s but q := by
  refine completes_runDev begins (Eq.refl (execVaultBatchCommit fails s steps)) ?_ ok keep hq
  rw [works, writable, ← go]
  rfl

/-- Every part may have changed. -/
theorem not_mem_except_nil {p : Part} (hp : p ∉ except []) : False := by
  cases p <;> exact hp (by decide)

include begins works writable batch record' ctr thawed sure passed key

/-- VAULT_BATCH_COMMIT of which one step runs: the entry lies in a home and is not valid yet (R150). -/
theorem vaultBatchCommit_writes (fails : Nat) :
    Completes (.vaultBatchCommit fails 1) s (except []) fun t =>
      (∀ p : Part, p ≠ .key → p.same d' t) ∧ vaultCtr t = vaultCtr d ∧ t.key.journal.value = d.key.journal.value ∧ t.key.queue = d.key.queue
      ∧ homesOf t n = writtenHomes c e d ∧ t.key.t1 = d.key.t1 := by
  obtain ⟨only, at', -, rest⟩ := vaultWrite_stored c e d'
  rw [key] at rest
  rw [record', writtenHomes_transferred key] at at'
  refine vaultBatchCommit_completes begins works writable (vaultCommit_written batch record' ctr thawed sure passed fails) ?_
    (fun p hp => (not_mem_except_nil hp).elim)
    ⟨fun p hp => same_onlyKey only (by simp [hp]), vaultCtr_congr (congrArg (·.cells) rest), congrArg (·.journal.value) rest,
      congrArg (·.queue) rest, at', congrArg (·.t1) rest⟩
  rw [only]
  exact passed

/-- VAULT_BATCH_COMMIT of which two steps run: the commit record is complete, and the counter has not moved (R150). -/
theorem vaultBatchCommit_journals (fails : Nat) :
    Completes (.vaultBatchCommit fails 2) s (except []) fun t =>
      (∀ p : Part, p ≠ .key → p.same d' t) ∧ vaultCtr t = vaultCtr d ∧ t.key.journal.value = c ∧ t.key.queue = d.key.queue
      ∧ homesOf t n = ⟨nowValid c (writtenHomes c e d).a, nowValid c (writtenHomes c e d).b⟩ ∧ t.key.t1 = d.key.t1 := by
  obtain ⟨only, at', -, value, -, rest⟩ := journaled_spec c e d'
  rw [key] at rest
  rw [record', writtenHomes_transferred key] at at'
  refine vaultBatchCommit_completes begins works writable (vaultCommit_journaled batch record' ctr thawed sure passed fails) ?_
    (fun p hp => (not_mem_except_nil hp).elim)
    ⟨fun p hp => same_onlyKey only (by simp [hp]), vaultCtr_congr (congrArg (·.cells) rest), value,
      congrArg (·.queue) rest, at', congrArg (·.t1) rest⟩
  rw [only]
  exact passed

/-- VAULT_BATCH_COMMIT in its three steps: the counter reaches the batch, whose entry leaves the queue (R150, R152). -/
theorem vaultBatchCommit_commits {fails : Nat} (enough : fails ≤ d.key.spares) (cells : d.key.cells.length = 64)
    (repaired : d.key.repairDue = []) :
    Completes (.vaultBatchCommit fails) s (except []) fun t =>
      (∀ p : Part, p ∉ [Part.key, .regs] → p.same d' t) ∧ vaultCtr t = c ∧ t.key.journal.value = c ∧ t.key.journal.count = 1
      ∧ t.key.spares = d.key.spares - fails ∧ t.key.queue = d.key.queue.filter (fun x => decide (x ≠ e))
      ∧ homesOf t n = ⟨nowValid c (writtenHomes c e d).a, nowValid c (writtenHomes c e d).b⟩
      ∧ (∀ m, m ≠ n → t1Of t m = t1Of d m ∧ homesOf t m = homesOf d m)
      ∧ (∀ x, e.body = .key x → keyAt d n = some x → keyAt t n = some { x with persisted := true })
      ∧ fld t pgKS3 Reg.KS_STAT_BATCH_BATCHES = (fld d' pgKS3 Reg.KS_STAT_BATCH_BATCHES + 1) % 2 ^ 32 ∧ regsBut [(pgKS3, 0x04C)] d' t := by
  obtain ⟨-, -, -, -, -, rest⟩ := journaled_spec c e d'
  have spares : (journaled c e d').key.spares = d.key.spares := (congrArg (·.spares) rest).trans (by rw [key])
  have go := vaultCommit_committed batch record' ctr thawed sure passed (enough.trans_eq spares.symm)
  have commits := committed_spec fails c e d'
  have records : ∀ m, t1Of d' m = t1Of d m := fun m => by
    unfold t1Of
    rw [key]
  have homes : ∀ m, homesOf d' m = homesOf d m := fun m => by
    unfold homesOf
    rw [key]
  have counter : vaultCtr (committed fails c e d') = c := by
    unfold vaultCtr
    rw [commits.cells, key]
    refine foldl_max_set ?_ (cells.symm ▸ Nat.mod_lt c (by decide))
    exact ctr ▸ Nat.le_succ _
  have stands : ∀ x, keyAt d n = some x → keyAt d' e.recNo = some x := fun x holds =>
    keyAt_eq_some.mpr ((records _).trans (record' ▸ keyAt_eq_some.mp holds))
  rw [← writtenHomes_transferred key, ← record']
  generalize committed fails c e d' = m at go commits counter
  obtain ⟨only, -, value, count, spares', queue, repairs, stored, others, persists⟩ := commits
  obtain ⟨batches, words⟩ := wrapFld_spec (p := pgKS3) (n := 1) (f := Reg.KS_STAT_BATCH_BATCHES) m ⟨by decide, by decide⟩ (by decide)
  rw [repairsQueue_none (d := wrapFld m pgKS3 Reg.KS_STAT_BATCH_BATCHES 1) (repairs.trans (by rw [key, repaired]))] at go
  refine vaultBatchCommit_completes begins works writable go ?_ (fun p hp => (not_mem_except_nil hp).elim)
    ⟨fun p hp => ?_, counter, value, count, spares'.trans (by rw [key]), queue.trans (by rw [key]), stored,
      fun i hi => ⟨(others i hi).1.trans (records i), (others i hi).2.trans (homes i)⟩,
      fun x body holds => persists x body (stands x (record' ▸ holds)), batches.trans ?_, fun p off hp hoff => (words p off hp hoff).trans ?_⟩
  · rw [only]
    exact passed
  · exact same_keyCounted only hp
  · rw [only]
    rfl
  · rw [only]
    rfl

end

end Sys2Proof.Proofs
end

section
/-! The close of a batch, what is left of an older epoch, and the obligation about the vault's commands (R148-R150, R155). -/

open Sys2Proof Sys2Proof.Machine

namespace Sys2Proof.Proofs

/-- VAULT_BATCH_CLOSE: 10 ms after its first entry the open batch closes, a job boundary of the KS pages (R149, R163). -/
theorem vaultBatchClose_completes {s : State} {d : Dev} {at' : Nat} (b : Begins s d) (works : vaultWorks d.sys.mode = true)
    (due : d.key.closeAt = some at') :
    Completes .vaultBatchClose s [.key, .now, .regs, .shadow] fun t =>
      t.key = batchClosed d.key ∧ t.now = max d.now at' ∧ pagesBut [pgKS, pgKS1, pgKS2, pgKS3] d t := by
  obtain ⟨⟨regs, shadow, bounds⟩, pages⟩ := ksBoundaries_spec (modKey batchClosed (waitUntil at' d))
  have closes : vaultClose (waitUntil at' d) = ksBoundaries (modKey batchClosed (waitUntil at' d)) :=
    vaultClose_closes (Option.isSome_iff_exists.mpr ⟨at', due⟩)
  rw [bounds] at pages closes
  refine completes_runDev b (Eq.refl (execVaultBatchClose s))
    (e := { modKey batchClosed (waitUntil at' d) with regs := regs, shadow := shadow }) ?_ b.2 (fun p hp => ?_) ⟨rfl, rfl, pages⟩
  · simp only [due, works, if_true]
    exact closes
  · cases p <;> simp_all [Part.same] <;> rfl

/-- A record whose copy is of an older epoch has the generation that the copy gives it (R155). -/
def outdated (n : Nat) (d : Dev) : Dev :=
  match vaultPick d n with
  | some (_, v) => if v.epoch ≠ d.key.epoch && t1Of d n = .free 0 then t1Put n (oldEpoch v) d else d
  | none => d

theorem oldEpoch_ne_key (v : VaultCopy) (x : KeyRec) : oldEpoch v ≠ .key x := by
  unfold oldEpoch
  split <;> simp

/-- A record that is free or retired changes no more of the key store than T1. -/
theorem t1Put_rest {r : T1Rec} (freed : ∀ x, r ≠ .key x) (n : Nat) (d : Dev) :
    { (t1Put n r d).key with t1 := d.key.t1, t1w := d.key.t1w } = d.key := by
  cases r with
  | key x => exact absurd rfl (freed x)
  | _ => rfl

/-- Of the key store no more than the record changes. -/
theorem outdated_spec (n : Nat) (d : Dev) :
    OnlyKey d (outdated n d) ∧ { (outdated n d).key with t1 := d.key.t1, t1w := d.key.t1w } = d.key
      ∧ (∀ m, m ≠ n → t1Of (outdated n d) m = t1Of d m)
      ∧ ∀ b v, vaultPick d n = some (b, v) → v.epoch ≠ d.key.epoch → t1Of d n = .free 0 → t1Of (outdated n d) n = oldEpoch v := by
  unfold outdated
  split
  · rename_i v pick
    split
    · refine ⟨rfl, t1Put_rest (oldEpoch_ne_key v) n d, fun m hm => (t1Of_t1Put n _ d m).trans (if_neg hm), fun b w pick' _ _ => ?_⟩
      cases pick.symm.trans pick'
      exact (t1Of_t1Put n _ d n).trans (if_pos rfl)
    · rename_i kept
      refine ⟨rfl, rfl, fun _ _ => rfl, fun b w pick' older free => ?_⟩
      cases pick.symm.trans pick'
      simp [older, free] at kept
  · rename_i none'
    refine ⟨rfl, rfl, fun _ _ => rfl, fun b w pick' _ _ => ?_⟩
    cases none'.symm.trans pick'

/-- The homes of a record without what an older epoch has left in them (R155). -/
def currentHomes (n : Nat) (d : Dev) : Homes := ⟨eraseHome d.key.epoch (homesOf d n).a, eraseHome d.key.epoch (homesOf d n).b⟩

/-- First the record follows its copy, and then the homes lose what is old. -/
theorem eraseOld_spec (n : Nat) (d : Dev) :
    OnlyKey (outdated n d) (eraseOld n d) ∧ homesOf (eraseOld n d) n = currentHomes n (outdated n d)
      ∧ (∀ m, m ≠ n → homesOf (eraseOld n d) m = homesOf (outdated n d) m)
      ∧ { (eraseOld n d).key with homes := (outdated n d).key.homes } = (outdated n d).key :=
  ⟨rfl, smapGet_set_same _ _ _ _, fun _ hm => smapGet_set_other _ _ _ _ _ hm, rfl⟩

/-- VAULT_EPOCH_ERASE: a record with an entry of an older epoch loses it (R155). -/
theorem vaultEpochErase_completes {s : State} {d : Dev} {n : Nat} (b : Begins s d) (works : vaultWorks d.sys.mode = true)
    (writable : vaultWritable d = true) (lowest : (d.key.homes.find? (fun kv => hasOld d.key.epoch kv.2)).map (·.1) = some n) :
    Completes .vaultEpochErase s [.key] fun t =>
      homesOf t n = currentHomes n d
      ∧ (∀ b v, vaultPick d n = some (b, v) → v.epoch ≠ d.key.epoch → t1Of d n = .free 0 → t1Of t n = oldEpoch v)
      ∧ (∀ m, m ≠ n → t1Of t m = t1Of d m ∧ homesOf t m = homesOf d m)
      ∧ { t.key with t1 := d.key.t1, t1w := d.key.t1w, homes := d.key.homes } = d.key := by
  obtain ⟨⟨m, h⟩, found, rfl⟩ := Option.map_eq_some_iff.mp lowest
  obtain ⟨only, rest, others, older⟩ := outdated_spec m d
  have homes : ∀ i, homesOf (outdated m d) i = homesOf d i := fun i =>
    congrArg (smapGet (fun _ => (⟨none, none⟩ : Homes)) · i) (congrArg (·.homes) rest : (outdated m d).key.homes = d.key.homes)
  have epoch : (outdated m d).key.epoch = d.key.epoch := congrArg (·.epoch) rest
  obtain ⟨only', erased, beside, rest'⟩ := eraseOld_spec m d
  have records : ∀ i, t1Of (eraseOld m d) i = t1Of (outdated m d) i := fun i =>
    congrArg (smapGet t1Reset · i) (congrArg (·.t1) rest' : (eraseOld m d).key.t1 = (outdated m d).key.t1)
  have both := onlyKey_trans only only'
  refine completes_runDev b (Eq.refl (execVaultEpochErase s)) (e := eraseOld m d) ?_ ?_ (fun p hp => same_onlyKey both hp)
    ⟨erased.trans ?_, fun c v pick old free => (records m).trans (older c v pick old free),
      fun i hi => ⟨(records i).trans (others i hi), (beside i hi).trans (homes i)⟩, ?_⟩
  · simp only [works, writable, found, Bool.and_self, if_true]
  · rw [both]
    exact b.2
  · unfold currentHomes
    rw [homes, epoch]
  · rw [← rest'] at rest
    exact congrArg (fun k : KeySt => { k with homes := d.key.homes }) rest

/-- Settles O32: a record that the vault holds comes to T1 by one write of it; the open batch closes at its time, a batch of one entry
commits in three steps, and the homes of a record lose what an older epoch has left. -/
theorem vaultCommands : Obligations.VaultCommands := by
  intro s d b
  refine ⟨?_, fun runs mode => ⟨?_, ?_⟩, fun works => ⟨?_, ?_, ?_⟩⟩
  · intro tag k n home v x named stands loads first second hn needed pick current body alone
    exact t2DemandLoad_completes b named stands loads first second hn needed pick current body alone
  · intro n home v x next more pick current body absent
    exact vaultRestoreRecord_copies b runs mode next more pick current body absent
  · intro none' state
    exact vaultRestoreRecord_opens b runs mode none' state
  · intro at' due
    exact vaultBatchClose_completes b works due
  · rintro n e fails ctr d' copy old new writable batch record' hctr thawed sure passed key rfl rfl hnew
    subst record'
    have news : new = writtenHomes ctr e d := hnew
    subst news
    refine ⟨fun enough cells repaired => ?_, fun st hst => ?_⟩
    · exact vaultBatchCommit_commits b works writable batch rfl hctr thawed sure passed key enough cells repaired
    · obtain rfl | rfl : st = 1 ∨ st = 2 := by simpa using hst
      · exact vaultBatchCommit_writes b works writable batch rfl hctr thawed sure passed key fails
      · exact vaultBatchCommit_journals b works writable batch rfl hctr thawed sure passed key fails
  · rintro n h writable lowest rfl
    exact vaultEpochErase_completes b works writable lowest

end Sys2Proof.Proofs
end

section
/-! Decryption undoes encryption: FF1, counter mode and CBC (R170, R191). -/

open Sys2Proof Sys2Proof.Machine

namespace Sys2Proof.Proofs

/-! ## Strings -/

theorem length_xorBytes (a b : Bytes) : (xorBytes a b).length = min a.length b.length := by
  induction a generalizing b with
  | nil => simp [xorBytes]
  | cons x xs ih =>
    cases b with
    | nil => simp [xorBytes]
    | cons y ys => simp [xorBytes, ih]

/-- What is masked twice comes back, where the mask is long enough. -/
theorem xorBytes_cancel_right {a b : Bytes} (h : a.length ≤ b.length) : xorBytes (xorBytes a b) b = a := by
  induction a generalizing b with
  | nil => cases b <;> rfl
  | cons x xs ih =>
    cases b with
    | nil => simp at h
    | cons y ys =>
      simp only [xorBytes, List.cons.injEq]
      exact ⟨by rw [BitVec.xor_assoc, BitVec.xor_self, BitVec.xor_zero], ih (by simpa using h)⟩

theorem xorBytes_comm (a b : Bytes) : xorBytes a b = xorBytes b a := by
  induction a generalizing b with
  | nil => cases b <;> rfl
  | cons x xs ih =>
    cases b with
    | nil => rfl
    | cons y ys => simp only [xorBytes, BitVec.xor_comm x y, ih]

theorem xorBytes_cancel_left {a b : Bytes} (h : b.length ≤ a.length) : xorBytes a (xorBytes a b) = b := by
  rw [xorBytes_comm a, xorBytes_comm a, xorBytes_cancel_right h]

/-- Fuel beyond the length of a string cuts it no further. -/
theorem chunksGo_fuel {n f : Nat} {bs : Bytes} (pos : 0 < n) (enough : bs.length < f) : chunksGo n f bs = chunks n bs := by
  unfold chunks
  induction f using Nat.strong_induction_on generalizing bs with
  | _ f ih =>
    match f, enough with
    | f + 1, enough =>
      unfold chunksGo
      split
      · rfl
      · rename_i some'
        have shorter : (bs.drop n).length < bs.length := by
          have := List.length_pos_iff.mpr (fun e => some' (by simp [e]) : bs ≠ [])
          rw [List.length_drop]
          omega
        rw [ih f (Nat.lt_succ_self f) (by omega), ih bs.length enough shorter]

/-- A string that begins with a whole block, cut. -/
theorem chunks_append {n : Nat} {c bs : Bytes} (pos : 0 < n) (whole : c.length = n) : chunks n (c ++ bs) = c :: chunks n bs := by
  have some' : (c ++ bs).isEmpty = false := by
    cases c with
    | nil => simp at whole; omega
    | cons => rfl
  have rest : ((c ++ bs).drop n).length < (c ++ bs).length := by
    simp
    omega
  conv_lhs => unfold chunks chunksGo
  rw [some', if_neg Bool.false_ne_true, chunksGo_fuel pos rest, ← whole, List.take_left, List.drop_left]

/-- A string that is no longer than a block, cut. -/
theorem chunks_short {n : Nat} {c : Bytes} (some' : c ≠ []) (short : c.length ≤ n) : chunks n c = [c] := by
  unfold chunks chunksGo
  rw [if_neg (by simpa using some'), List.take_of_length_le short, List.drop_eq_nil_of_le short]
  cases h : c.length with
  | zero => rfl
  | succ => simp [chunksGo]

/-! ## Modes, block by block -/

/-- Counter mode over blocks. -/
def ctrBlocks (w : Nat) (f : Bytes → Bytes) : Bytes → List Bytes → List Bytes
  | _, [] => []
  | v, c :: cs => xorBytes c (f v) :: ctrBlocks w f (ctrNext w v) cs

/-- CBC encryption over blocks. -/
def cbcEncBlocks (f : Bytes → Bytes) : Bytes → List Bytes → List Bytes
  | _, [] => []
  | v, c :: cs => f (xorBytes v c) :: cbcEncBlocks f (f (xorBytes v c)) cs

/-- CBC decryption over blocks. -/
def cbcDecBlocks (f : Bytes → Bytes) : Bytes → List Bytes → List Bytes
  | _, [] => []
  | v, c :: cs => xorBytes v (f c) :: cbcDecBlocks f c cs

theorem ctrWith_eq (w : Nat) (f : Bytes → Bytes) (v m : Bytes) : (ctrWith w f v m).1 = (ctrBlocks w f v (chunks 16 m)).flatten := by
  have go : ∀ (cs acc : List Bytes) (v : Bytes),
      ((cs.foldl (fun (a : List Bytes × Bytes) c => (xorBytes c (f a.2) :: a.1, ctrNext w a.2)) (acc, v)).1.reverse)
        = acc.reverse ++ ctrBlocks w f v cs := by
    intro cs
    induction cs with
    | nil => simp [ctrBlocks]
    | cons c cs ih => intro acc v; simp [ih, ctrBlocks]
  unfold ctrWith
  exact congrArg List.flatten (go (chunks 16 m) [] v)

theorem cbcEnc_eq (n : Nat) (f : Bytes → Bytes) (v m : Bytes) : (cbcEnc n f v m).1 = (cbcEncBlocks f v (chunks n m)).flatten := by
  have go : ∀ (cs acc : List Bytes) (v : Bytes),
      ((cs.foldl (fun (a : List Bytes × Bytes) c => let y := f (xorBytes a.2 c); (y :: a.1, y)) (acc, v)).1.reverse)
        = acc.reverse ++ cbcEncBlocks f v cs := by
    intro cs
    induction cs with
    | nil => simp [cbcEncBlocks]
    | cons c cs ih => intro acc v; simp [ih, cbcEncBlocks]
  unfold cbcEnc
  exact congrArg List.flatten (go (chunks n m) [] v)

theorem cbcDec_eq (n : Nat) (f : Bytes → Bytes) (v m : Bytes) : (cbcDec n f v m).1 = (cbcDecBlocks f v (chunks n m)).flatten := by
  have go : ∀ (cs acc : List Bytes) (v : Bytes),
      ((cs.foldl (fun (a : List Bytes × Bytes) c => (xorBytes a.2 (f c) :: a.1, c)) (acc, v)).1.reverse)
        = acc.reverse ++ cbcDecBlocks f v cs := by
    intro cs
    induction cs with
    | nil => simp [cbcDecBlocks]
    | cons c cs ih => intro acc v; simp [ih, cbcDecBlocks]
  unfold cbcDec
  exact congrArg List.flatten (go (chunks n m) [] v)

/-- A block function with blocks of 16 bytes: counter mode undoes itself. -/
theorem ctrBlocks_undo {w : Nat} {f : Bytes → Bytes} (block : ∀ b, (f b).length = 16) (k : Nat) : ∀ (v m : Bytes), m.length ≤ k →
    (ctrBlocks w f v (chunks 16 (ctrBlocks w f v (chunks 16 m)).flatten)).flatten = m := by
  induction k using Nat.strong_induction_on with
  | _ k ih =>
    intro v m hm
    by_cases long : 16 ≤ m.length
    · have whole : (m.take 16).length = 16 := by simp [long]
      have masked : (xorBytes (m.take 16) (f v)).length = 16 := by rw [length_xorBytes, whole, block]; rfl
      have rest := ih (m.drop 16).length (by rw [List.length_drop]; omega) (ctrNext w v) (m.drop 16) le_rfl
      rw [← List.take_append_drop 16 m, chunks_append (by decide) whole]
      simp only [ctrBlocks, List.flatten_cons]
      rw [chunks_append (by decide) masked]
      simp only [ctrBlocks, List.flatten_cons]
      rw [rest, xorBytes_cancel_right (by rw [whole, block])]
    · by_cases empty : m = []
      · subst empty
        rfl
      · have short : m.length ≤ 16 := by omega
        have masked : (xorBytes m (f v)).length = m.length := by rw [length_xorBytes, block]; omega
        have some' : xorBytes m (f v) ≠ [] := fun e => empty (by rw [e] at masked; exact List.length_eq_zero_iff.mp masked.symm)
        rw [chunks_short empty short]
        simp only [ctrBlocks, List.flatten_cons, List.flatten_nil, List.append_nil]
        rw [chunks_short some' (by omega)]
        simp only [ctrBlocks, List.flatten_cons, List.flatten_nil, List.append_nil]
        exact xorBytes_cancel_right (by rw [block]; exact short)

/-- CBC decryption under a block function's inverse undoes CBC encryption of whole blocks. -/
theorem cbcBlocks_undo {n : Nat} {f g : Bytes → Bytes} (pos : 0 < n) (inv : ∀ b, b.length = n → (f b).length = n ∧ g (f b) = b)
    (k : Nat) : ∀ (v m : Bytes), v.length = n → m.length = n * k →
    (cbcDecBlocks g v (chunks n (cbcEncBlocks f v (chunks n m)).flatten)).flatten = m := by
  induction k with
  | zero =>
    intro v m _ hm
    obtain rfl : m = [] := List.length_eq_zero_iff.mp hm
    rfl
  | succ k ih =>
    intro v m hv hm
    have long : n ≤ m.length := by rw [hm, Nat.mul_succ]; omega
    have whole : (m.take n).length = n := by simp [long]
    obtain ⟨block, back⟩ := inv (xorBytes v (m.take n)) (by rw [length_xorBytes, hv, whole, Nat.min_self])
    have rest := ih (f (xorBytes v (m.take n))) (m.drop n) block (by rw [List.length_drop, hm, Nat.mul_succ]; omega)
    rw [← List.take_append_drop n m, chunks_append pos whole]
    simp only [cbcEncBlocks, List.flatten_cons]
    rw [chunks_append pos block]
    simp only [cbcDecBlocks, List.flatten_cons]
    rw [rest, back, xorBytes_cancel_left (by rw [hv, whole])]

/-! ## FF1 (R191) -/

theorem numOf_append_one (radix : Nat) (x : List Nat) (c : Nat) : numOf radix (x ++ [c]) = numOf radix x * radix + c := by
  simp [numOf]

theorem numOf_lt {radix : Nat} {x : List Nat} (digits : ∀ c, c ∈ x → c < radix) : numOf radix x < radix ^ x.length := by
  induction x using List.reverseRecOn with
  | nil => simp [numOf]
  | append_singleton xs c ih =>
    have head := ih fun y hy => digits y (List.mem_append_left _ hy)
    have last := digits c (List.mem_append_right _ List.mem_cons_self)
    rw [numOf_append_one, List.length_append, List.length_singleton, Nat.pow_succ]
    calc numOf radix xs * radix + c
      _ < numOf radix xs * radix + radix := Nat.add_lt_add_left last _
      _ = (numOf radix xs + 1) * radix := (Nat.succ_mul _ _).symm
      _ ≤ radix ^ xs.length * radix := Nat.mul_le_mul_right _ head

theorem digitsOf_numOf {radix : Nat} {x : List Nat} (digits : ∀ c, c ∈ x → c < radix) : digitsOf radix x.length (numOf radix x) = x := by
  induction x using List.reverseRecOn with
  | nil => rfl
  | append_singleton xs c ih =>
    have last := digits c (List.mem_append_right _ List.mem_cons_self)
    have pos : 0 < radix := by omega
    rw [List.length_append, List.length_singleton, numOf_append_one, digitsOf, Nat.add_comm, Nat.add_mul_div_right _ _ pos,
      Nat.div_eq_of_lt last, Nat.zero_add, Nat.add_mul_mod_self_right, Nat.mod_eq_of_lt last,
      ih fun y hy => digits y (List.mem_append_left _ hy)]

theorem length_digitsOf (radix n v : Nat) : (digitsOf radix n v).length = n := by
  induction n generalizing v with
  | zero => rfl
  | succ n ih => simp [digitsOf, ih]

theorem numOf_digitsOf {radix : Nat} (n v : Nat) (h : v < radix ^ n) : numOf radix (digitsOf radix n v) = v := by
  induction n generalizing v with
  | zero =>
    have : v = 0 := by simpa using h
    rw [this]
    rfl
  | succ n ih =>
    rw [digitsOf, numOf_append_one, ih _ (Nat.div_lt_of_lt_mul (by rwa [Nat.pow_succ, Nat.mul_comm] at h)), Nat.mul_comm, Nat.div_add_mod]

/-- Digits of the half that a round of FF1 changes. -/
def ff1Half (u v i : Nat) : Nat := if i % 2 = 0 then u else v

/-- A round of FF1 forward over the two halves as numbers. -/
def ff1Forth (radix u v : Nat) (f : Nat → Nat → Nat) (ab : Nat × Nat) (i : Nat) : Nat × Nat :=
  (ab.2, (ab.1 + f i ab.2) % radix ^ ff1Half u v i)

/-- A round of FF1 backward. -/
def ff1Back (radix u v : Nat) (f : Nat → Nat → Nat) (ab : Nat × Nat) (i : Nat) : Nat × Nat :=
  ((ab.2 + radix ^ ff1Half u v i - f i ab.1 % radix ^ ff1Half u v i) % radix ^ ff1Half u v i, ab.1)

/-- The halves are below their bounds before round i. -/
def ff1Within (radix u v i : Nat) (ab : Nat × Nat) : Prop :=
  ab.1 < radix ^ ff1Half u v i ∧ ab.2 < radix ^ ff1Half u v (i + 1)

theorem ff1Half_add_two (u v i : Nat) : ff1Half u v (i + 2) = ff1Half u v i := by
  unfold ff1Half
  rw [Nat.add_mod_right]

/-- A sum modulo a bound, less what was added. -/
theorem add_mod_sub_mod {a x m : Nat} (h : a < m) : ((a + x) % m + m - x % m) % m = a := by
  have pos : 0 < m := by omega
  have hx := Nat.mod_lt x pos
  rw [Nat.add_mod, Nat.mod_eq_of_lt h]
  by_cases wrap : a + x % m < m
  · rw [Nat.mod_eq_of_lt wrap, show a + x % m + m - x % m = a + m by omega, Nat.add_mod_right, Nat.mod_eq_of_lt h]
  · have wrapped : (a + x % m) % m = a + x % m - m := by rw [Nat.mod_eq_sub_mod (by omega), Nat.mod_eq_of_lt (by omega)]
    rw [wrapped, show a + x % m - m + m - x % m = a by omega, Nat.mod_eq_of_lt h]

section
variable {radix u v : Nat} {f : Nat → Nat → Nat} {ab : Nat × Nat}

theorem ff1Forth_within (pos : 0 < radix) (i : Nat) (h : ff1Within radix u v i ab) :
    ff1Within radix u v (i + 1) (ff1Forth radix u v f ab i) := by
  obtain ⟨-, right⟩ := h
  refine ⟨right, ?_⟩
  rw [ff1Half_add_two]
  exact Nat.mod_lt _ (Nat.pow_pos pos)

theorem ff1Back_forth (i : Nat) (h : ff1Within radix u v i ab) : ff1Back radix u v f (ff1Forth radix u v f ab i) i = ab := by
  obtain ⟨left, -⟩ := h
  exact Prod.ext (add_mod_sub_mod left) rfl

/-- Rounds backward in reverse order undo rounds forward, and the halves stay below their bounds. -/
theorem ff1Rounds_undo (pos : 0 < radix) (n : Nat) : ∀ i, ff1Within radix u v i ab →
    ff1Within radix u v (i + n) ((List.range' i n).foldl (ff1Forth radix u v f) ab)
      ∧ (List.range' i n).reverse.foldl (ff1Back radix u v f) ((List.range' i n).foldl (ff1Forth radix u v f) ab) = ab := by
  induction n generalizing ab with
  | zero => exact fun i h => ⟨h, rfl⟩
  | succ n ih =>
    intro i h
    obtain ⟨within, undone⟩ := ih (i + 1) (ff1Forth_within (f := f) pos i h)
    rw [List.range'_succ, List.foldl_cons, List.reverse_cons, List.foldl_append, undone]
    exact ⟨by rwa [Nat.add_right_comm] at within, ff1Back_forth i h⟩
end

/-- FF1 as its rounds over the two halves. -/
theorem ff1_eq (key : Bytes) (radix : Nat) (tweak : Bytes) (x : List Nat) {n u v : Nat} (hn : x.length = n) (hu : u = n / 2) (hv : v = n - u)
    (f : Nat → Nat → Nat) (hf : f = ff1Round (aesKeys key) radix tweak n u (bytesFor (radix ^ v) 64)) (ab : Nat × Nat)
    (hab : ab = (numOf radix (x.take u), numOf radix (x.drop u))) :
    ff1 key radix tweak false x
        = digitsOf radix u ((List.range' 0 10).foldl (ff1Forth radix u v f) ab).1
          ++ digitsOf radix v ((List.range' 0 10).foldl (ff1Forth radix u v f) ab).2
      ∧ ff1 key radix tweak true x
        = digitsOf radix u ((List.range' 0 10).reverse.foldl (ff1Back radix u v f) ab).1
          ++ digitsOf radix v ((List.range' 0 10).reverse.foldl (ff1Back radix u v f) ab).2 := by
  subst hab hf hv hu hn
  exact ⟨rfl, rfl⟩

/-- FF1 decryption undoes FF1 encryption. -/
theorem ff1_undo (key tweak : Bytes) {radix : Nat} {x : List Nat} (base : 2 ≤ radix) (digits : ∀ c, c ∈ x → c < radix) :
    ff1 key radix tweak true (ff1 key radix tweak false x) = x := by
  have pos : 0 < radix := by omega
  obtain ⟨u, hu⟩ : ∃ u, u = x.length / 2 := ⟨_, rfl⟩
  obtain ⟨v, hv⟩ : ∃ v, v = x.length - u := ⟨_, rfl⟩
  obtain ⟨f, hf⟩ : ∃ f, f = ff1Round (aesKeys key) radix tweak x.length u (bytesFor (radix ^ v) 64) := ⟨_, rfl⟩
  obtain ⟨ab, hab⟩ : ∃ ab, ab = (numOf radix (x.take u), numOf radix (x.drop u)) := ⟨_, rfl⟩
  have left : (x.take u).length = u := by rw [List.length_take]; omega
  have right : (x.drop u).length = v := by rw [List.length_drop, hv]
  have leftDigits : ∀ c, c ∈ x.take u → c < radix := fun c hc => digits c (List.mem_of_mem_take hc)
  have rightDigits : ∀ c, c ∈ x.drop u → c < radix := fun c hc => digits c (List.mem_of_mem_drop hc)
  have within : ff1Within radix u v 0 ab := by
    rw [hab]
    have l := numOf_lt leftDigits
    have r := numOf_lt rightDigits
    rw [left] at l
    rw [right] at r
    exact ⟨l, r⟩
  obtain ⟨bounded, undone⟩ := ff1Rounds_undo (f := f) pos 10 0 within
  obtain ⟨encrypted, -⟩ := ff1_eq key radix tweak x rfl hu hv f hf ab hab
  generalize (List.range' 0 10).foldl (ff1Forth radix u v f) ab = z at bounded undone encrypted
  obtain ⟨a, c⟩ := z
  obtain ⟨la, lc⟩ := bounded
  have la : a < radix ^ u := la
  have lc : c < radix ^ v := lc
  have same : (digitsOf radix u a ++ digitsOf radix v c).length = x.length := by
    rw [List.length_append, length_digitsOf, length_digitsOf]
    omega
  have halves : (a, c) = (numOf radix ((digitsOf radix u a ++ digitsOf radix v c).take u),
      numOf radix ((digitsOf radix u a ++ digitsOf radix v c).drop u)) := by
    rw [List.take_left' (length_digitsOf _ _ _), List.drop_left' (length_digitsOf _ _ _), numOf_digitsOf _ _ la, numOf_digitsOf _ _ lc]
  rw [encrypted, (ff1_eq key radix tweak _ same hu hv f hf (a, c) halves).2, undone, hab]
  dsimp only
  have l := digitsOf_numOf leftDigits
  have r := digitsOf_numOf rightDigits
  rw [left] at l
  rw [right] at r
  rw [l, r, List.take_append_drop]

/-- Settles O23: FF1 by undoing its rounds in reverse order, the modes by induction over the blocks. -/
theorem cipherInverses : Obligations.CipherInverses := by
  refine ⟨fun key tweak radix x base digits => ff1_undo key tweak base digits, fun w f ctr m block => ?_,
    fun n f g iv m pos inv hiv whole => ?_⟩
  · rw [ctrWith_eq, ctrWith_eq]
    exact ctrBlocks_undo block m.length ctr m le_rfl
  · rw [cbcDec_eq, cbcEnc_eq]
    exact cbcBlocks_undo pos inv (m.length / n) iv m hiv (Nat.mul_div_cancel' (Nat.dvd_of_mod_eq_zero whole)).symm

end Sys2Proof.Proofs
end

section
/-! Eight families of commands at a unit, refuted at the table that lists a unit twice, with random bytes ready, a mask of no bytes to come
and key 1 in the directory (R35, R165). -/

open Sys2Proof Sys2Proof.Machine

namespace Sys2Proof.Proofs

/-- Such a command with its key 1 admitted. -/
def keyedUnlaned (x : Desc) (src aux : Option Bytes) : Cmd := { unlaned x src aux with counted := [1] }

/-- The block that lists a unit twice, with 12 random bytes in each generator, these amounts of masking randomness to come and key 1 in the
directory. -/
def listedTwiceFed (masks : List Nat) (k : Cmd) : Dev :=
  { listedTwice k with
    ent := { entReset with masks := masks, drbgs := (List.range 4).map fun q => (q, { drbgReset q with buf := zeros 12 }) }
    key := { keyReset with t1 := [(1, .key noKey)] } }

theorem listedTwiceFed_begins (masks : List Nat) (k : Cmd) : Begins ⟨listedTwiceFed masks k, []⟩ (listedTwiceFed masks k) := ⟨rfl, rfl⟩

/-- The command stands at its unit with the opcode of its descriptor. -/
theorem listedTwiceFed_atUnit (masks : List Nat) (x : Desc) (src aux : Option Bytes) :
    AtUnit (listedTwiceFed masks (keyedUnlaned x src aux)) 7 x.opcode (keyedUnlaned x src aux) :=
  ⟨rfl, rfl, rfl, rfl, by decide, rfl, rfl, by intro n hn; obtain rfl := List.mem_singleton.mp hn; rfl⟩

/-- A mask of no bytes and up to 12 bytes more are ready. -/
theorem listedTwiceFed_ready {n : Nat} (few : n ≤ 12) (x : Desc) (src aux : Option Bytes) :
    MaskReady (listedTwiceFed [0] (keyedUnlaned x src aux)) (keyedUnlaned x src aux) n :=
  ⟨.inr le_rfl, show (wellReset 0).run ≠ .entFail by decide, rfl, ⟨rfl, rfl, rfl⟩, (Nat.zero_add n).trans_le few⟩

theorem unitPages_listedTwiceFed (masks : List Nat) (x : Desc) (src aux : Option Bytes) :
    unitPages (listedTwiceFed masks (keyedUnlaned x src aux)) (keyedUnlaned x src aux) = [] :=
  unitPages_listedTwice x src aux

/-- An operation there that leaves everything but the masks to come as it is: its result is held and its units are freed. -/
theorem runOp_listedTwiceFed {x : Desc} {src aux : Option Bytes} {masks masks' : List Nat} {r : Result} {f : OpFn}
    (done : f (keyedUnlaned x src aux) (listedTwiceFed masks (keyedUnlaned x src aux))
      = .done r (listedTwiceFed masks' (keyedUnlaned x src aux))) :
    runOp 7 [x.opcode] 0 f (listedTwiceFed masks (keyedUnlaned x src aux))
      = freeUnits 7 (holdCmd (keyedUnlaned x src aux) r (listedTwiceFed masks' (keyedUnlaned x src aux))) := by
  have here : cmdOf (listedTwiceFed masks (keyedUnlaned x src aux)) 7 = some (keyedUnlaned x src aux) := rfl
  have own : [x.opcode].contains (keyedUnlaned x src aux).desc.opcode = true := List.contains_iff_mem.mpr (List.mem_singleton_self _)
  have ran : runChecked 28 0 f (keyedUnlaned x src aux) (listedTwiceFed masks (keyedUnlaned x src aux))
      = .done r (listedTwiceFed masks' (keyedUnlaned x src aux)) :=
    (congrArg (opReads _ _) done).trans
      (opReads_counted (k := keyedUnlaned x src aux) (d := listedTwiceFed masks' (keyedUnlaned x src aux)) r rfl)
  unfold runOp
  rw [here]
  show (if [x.opcode].contains (keyedUnlaned x src aux).desc.opcode = true then runGo (keyedUnlaned x src aux) 0 f _ else _) = _
  rw [if_pos own]
  unfold runGo
  dsimp only
  rw [show (keyedUnlaned x src aux).unit.getD 28 = 28 from rfl, ran]
  rfl

/-- Such a command does not finish as the statements say: SERVE of lane 0, which is no unit of the command, takes its shadow. -/
theorem not_finishes_listedTwiceFed {c : Instr} {x : Desc} {src aux : Option Bytes} {masks masks' : List Nat} {r' : Result}
    {besides : List Part} {q : Dev → Prop} (f : OpFn) (r : Result)
    (run : exec c ⟨listedTwiceFed masks (keyedUnlaned x src aux), []⟩
      = runDev ⟨listedTwiceFed masks (keyedUnlaned x src aux), []⟩ (runOp 7 [x.opcode] 0 f))
    (done : f (keyedUnlaned x src aux) (listedTwiceFed masks (keyedUnlaned x src aux))
      = .done r (listedTwiceFed masks' (keyedUnlaned x src aux))) :
    ¬ Finishes c ⟨listedTwiceFed masks (keyedUnlaned x src aux), []⟩ (listedTwiceFed masks (keyedUnlaned x src aux)) (keyedUnlaned x src aux)
      besides r' q := by
  rintro ⟨t, next, -, -, -, -, pages, -⟩
  obtain ⟨after, -⟩ := runDev_inv (run.symm.trans next)
  have ended : t.dev = freeUnits 7 (holdCmd (keyedUnlaned x src aux) r (listedTwiceFed masks' (keyedUnlaned x src aux))) :=
    after.trans ((congrArg haltIfFailed (runOp_listedTwiceFed done)).trans (haltIfFailed_none _ rfl))
  have taken : regGet t.dev (pgSYM 0) 0x40 = 0 := by
    rw [ended]
    exact freeUnits_listedTwice x src aux r
  rw [unitPages_listedTwiceFed] at pages
  have same : regGet t.dev (pgSYM 0) 0x40 = 1 := pages (pgSYM 0) 0x40 List.not_mem_nil (by decide)
  exact absurd (taken.symm.trans same) (by decide)

/-- A mask of no bytes is drawn at once. -/
theorem withMask_listedTwiceFed (k : Cmd) (go : Dev → OpOut) :
    withMask k (listedTwiceFed [0] k) go = go (listedTwiceFed [] k) := rfl

end Sys2Proof.Proofs
end

section
/-! The eight refutations. No run lists a unit twice, but the statements speak of every state. -/

open Sys2Proof Sys2Proof.Machine

namespace Sys2Proof.Proofs

/-- Refutes O7: HASH is to change no register beyond the pages of its unit. With a table of units that lists lane 0 twice, the hidden entry
at work on the command, its end is a job boundary of that lane's page. No run lists a unit twice, but the statement speaks of every
state. -/
theorem not_digestAndMacCommands : ¬ Obligations.DigestAndMacCommands := by
  rintro ⟨hashes, -⟩
  obtain ⟨hash, -⟩ := hashes _ _ 7 0 (unlaned (opDesc 0x0401) none none) (listedTwice_begins _) (by decide)
  exact not_finishes_listedTwice opHash _ rfl rfl (hash (listedTwice_atUnit ..))

/-- Refutes O9: AES_ECB of an empty message is to change no register beyond the pages of its unit, which fails at the same table of units
(`listedTwiceFed`, a state of no run). -/
theorem not_blockCipherCommands : ¬ Obligations.BlockCipherCommands := by
  intro holds
  obtain ⟨ecb, -⟩ := holds _ _ 7 0 (keyedUnlaned (opDesc 0x0201) none none) _ _ _ _ _ _ (listedTwiceFed_begins [0] _) (by decide)
    (listedTwiceFed_ready (by decide) ..) rfl (by decide) rfl rfl rfl rfl rfl
  exact not_finishes_listedTwiceFed opBlock _ rfl rfl (ecb _ List.mem_cons_self (listedTwiceFed_atUnit ..))

/-- The request of a middle segment of AES_ECB. -/
def middleSegment : Desc := { opDesc 0x0201 with param := 8 }

/-- Refutes O10: a segment of AES_ECB whose context does not pass the checks is to change no register beyond the pages of its unit, which
fails at the same table of units (`listedTwiceFed`, a state of no run). -/
theorem not_segmentedCommands : ¬ Obligations.SegmentedCommands := by
  rintro ⟨blocks, -⟩
  obtain ⟨-, -, refused⟩ := blocks _ _ 7 0 0x0201 _ (keyedUnlaned middleSegment none none) _ _ _ (listedTwiceFed_begins [0] _) (by decide)
    (listedTwiceFed_ready le_rfl ..) rfl rfl rfl List.mem_cons_self (listedTwiceFed_atUnit ..)
  exact not_finishes_listedTwiceFed opBlock _ rfl rfl (refused _ (by decide) rfl)

/-- Refutes O11: an AES_XTS whose data units are all done is to change no register beyond the pages of its unit, which fails at the same
table of units (`listedTwiceFed`, a state of no run). -/
theorem not_authenticatedCommands : ¬ Obligations.AuthenticatedCommands := by
  intro holds
  obtain ⟨-, -, -, -, -, -, -, xts⟩ := holds _ _ 7 0 (keyedUnlaned { opDesc 0x0206 with srcLen := 0 } none none) _ _ [] _ _ _
    (listedTwiceFed_begins [0] _) (by decide) (listedTwiceFed_ready (by decide) ..) rfl rfl rfl rfl rfl
  obtain ⟨-, allDone⟩ := xts (listedTwiceFed_atUnit ..)
  exact not_finishes_listedTwiceFed opXts _ rfl rfl (allDone (by decide))

/-- A context that names as its wrapping key one that the command does not have. -/
def strangeContext : Bytes := [1, 2] ++ zeros 38 ++ [1] ++ zeros 87

/-- Refutes O12: CTX_RESTORE of a context of another wrapping key is to change no register beyond the pages of its unit, which fails at the
same table of units (`listedTwiceFed`, a state of no run). -/
theorem not_contextCommands : ¬ Obligations.ContextCommands := by
  intro holds
  obtain ⟨-, restore, -⟩ := holds _ _ 7 0 (keyedUnlaned (opDesc 0x020A) (some strangeContext) none) _ (listedTwiceFed_begins [0] _)
    (by decide) (listedTwiceFed_ready le_rfl ..) rfl
  obtain ⟨-, -, other⟩ := restore (listedTwiceFed_atUnit ..) (by decide) (by decide)
  exact not_finishes_listedTwiceFed (masks' := [0]) opCtxRestore _ rfl rfl (other (by decide))

/-- Refutes O21: CVV_GENERATE is to change no register beyond the pages of its unit, which fails at the same table of units
(`listedTwiceFed`, a state of no run). -/
theorem not_dukptAndCardValueCommands : ¬ Obligations.DukptAndCardValueCommands := by
  intro holds
  obtain ⟨-, -, -, generate, -⟩ := holds _ _ 7 0 (keyedUnlaned (opDesc 0x0604) none none) _ _ _ (listedTwiceFed_begins [0] _)
    (by decide) (listedTwiceFed_ready (by decide) ..) rfl rfl rfl
  exact not_finishes_listedTwiceFed opCvv _ rfl (withMask_listedTwiceFed ..) (generate (listedTwiceFed_atUnit ..))

/-- Refutes O22: FF1_ENCRYPT of no characters is to change no register beyond the pages of its unit, which fails at the same table of units
(`listedTwiceFed`, a state of no run). -/
theorem not_pinAndDataCommands : ¬ Obligations.PinAndDataCommands := by
  rintro ⟨-, formatted⟩
  obtain ⟨within, -⟩ := formatted _ _ 7 0 (keyedUnlaned (opDesc 0x0701) none none) _ _ (listedTwiceFed_begins [0] _) (by decide)
    (listedTwiceFed_ready (by decide) ..) rfl rfl
  obtain ⟨encrypt, -⟩ := within (fun i hi => absurd hi (Nat.not_lt_zero i))
  exact not_finishes_listedTwiceFed (masks' := []) (opFf1 false) _ rfl rfl (encrypt (listedTwiceFed_atUnit ..))

/-- Refutes O24: TOTP_GENERATE is to change no register beyond the pages of its unit, which fails at the same table of units
(`listedTwiceFed`, a state of no run). -/
theorem not_accessCodeCommands : ¬ Obligations.AccessCodeCommands := by
  intro holds
  obtain ⟨-, -, generate, -⟩ := holds _ _ 7 0 (keyedUnlaned (opDesc 0x0803) none none) _ noKey (listedTwiceFed_begins [0] _) (by decide)
    rfl rfl (List.cons_ne_nil _ _)
  exact not_finishes_listedTwiceFed opTotp _ rfl rfl (generate (listedTwiceFed_atUnit ..))

end Sys2Proof.Proofs
end

section
/-! The end of an operation at a unit: what its page counts, its job boundary, and the unit given free (R35, R129, R197, R223). -/

open Sys2Proof Sys2Proof.Machine

namespace Sys2Proof.Proofs

/-! ## Registers that stay -/

theorem regsBut_trans {but : List (Nat × Nat)} {a b c : Dev} (h : regsBut but a b) (g : regsBut but b c) : regsBut but a c :=
  fun p off hp hoff => (g p off hp hoff).trans (h p off hp hoff)

theorem pagesBut_trans {but : List Nat} {a b c : Dev} (h : pagesBut but a b) (g : pagesBut but b c) : pagesBut but a c :=
  fun p off hp hoff => (g p off hp hoff).trans (h p off hp hoff)

theorem pagesBut_mono {l m : List Nat} {a b : Dev} (sub : ∀ p, p ∈ l → p ∈ m) (h : pagesBut l a b) : pagesBut m a b :=
  fun p off hp hoff => h p off (fun listed => hp (sub _ listed)) hoff

theorem pagesBut_regs {but : List Nat} {a b : Dev} (h : b.regs = a.regs) : pagesBut but a b := by
  intro p off _ _
  unfold regGet
  rw [h]

theorem regsBut_setFld {but : List (Nat × Nat)} {p : Nat} {f : Fld} (listed : (p, f.off) ∈ but) (low : f.off < 0x1000) (v : Nat) (d : Dev) :
    regsBut but d (setFld d p f v) := fun _ _ hq hoff =>
  regGet_setFld_regs d v hoff low fun same => hq (by rw [same]; exact List.mem_map.mpr ⟨_, listed, rfl⟩)

theorem pagesBut_setFld {but : List Nat} {p : Nat} {f : Fld} (listed : p ∈ but) (page : p < 0x1000) (low : f.off < 0x1000) (v : Nat) (d : Dev) :
    pagesBut but d (setFld d p f v) := fun _ _ hq hoff =>
  regGet_setFld_page d v hoff low page fun same => hq (same ▸ listed)

/-- A field of a page that is none of those whose registers may have changed. -/
theorem fld_pagesBut {but : List Nat} {a b : Dev} {p : Nat} {f : Fld} (h : pagesBut but a b) (other : p % 0x1000 ∉ but) (low : f.off < 0x1000) :
    fld b p f = fld a p f := by
  unfold fld
  rw [h p f.off other low]

/-! ## Job boundaries -/

theorem pagesBut_jobBoundary (p : Nat) (d : Dev) : pagesBut [p] d (jobBoundary p d) := fun _ _ hq hoff =>
  regGet_jobBoundary_other d hoff fun same => hq (same ▸ List.mem_cons_self)

/-- A page without shadows takes nothing from a boundary of any page. -/
theorem regGet_jobBoundary_still {p q off : Nat} {d : Dev} (page : q < 0x1000) (hoff : off < 0x1000)
    (none' : ∀ x, x ∈ d.shadow → keyOnPage q x.1 = false) : regGet (jobBoundary p d) q off = regGet d q off := by
  by_cases same : q = p
  · subst same
    have due : d.shadow.filter (fun kv => keyOnPage q kv.1) = [] := List.filter_eq_nil_iff.mpr fun x hx => by simp [none' x hx]
    unfold jobBoundary
    rw [due]
    rfl
  · exact regGet_jobBoundary_other d hoff (by rwa [Nat.mod_eq_of_lt page])

/-- After a boundary the page has no shadows, and no other page has more than before. -/
theorem shadow_jobBoundary {p : Nat} {d : Dev} {x : Nat × Shadow} (hx : x ∈ (jobBoundary p d).shadow) :
    x ∈ d.shadow ∧ keyOnPage p x.1 = false := by
  have kept : (jobBoundary p d).shadow = smapKeep (fun k => !(keyOnPage p k)) d.shadow := by
    unfold jobBoundary
    dsimp only
    rw [applyShadows_only]
  rw [kept] at hx
  obtain ⟨listed, off⟩ := List.mem_filter.mp hx
  exact ⟨listed, by simpa using off⟩

/-! ## The counters of a unit's page -/

theorem unitPage_lt {i : Nat} (hi : i < 28) : unitPage i < 0x1000 := (by decide : ∀ i < 28, unitPage i < 0x1000) i hi

theorem pgHASH_unitQuarter_lt {i : Nat} (hi : i < 28) : pgHASH (unitQuarter i) < 0x1000 :=
  (by decide : ∀ i < 28, pgHASH (unitQuarter i) < 0x1000) i hi

/-- The registers in which the end of an operation at a unit counts. -/
def countRegs (i : Nat) : List (Nat × Nat) :=
  [(unitPage i, 0x048), (unitPage i, 0x04C), (unitPage i, 0x050), (pgHASH (unitQuarter i), 0x048), (pgHASH (unitQuarter i), 0x04C)]

/-- At most those registers have changed. -/
def Counted (i : Nat) (a b : Dev) : Prop := b = { a with regs := b.regs } ∧ regsBut (countRegs i) a b

section
variable {i p : Nat} {a b : Dev}

theorem counted_setFld {f : Fld} (listed : (p, f.off) ∈ countRegs i) (v : Nat) (h : Counted i a b) : Counted i a (setFld b p f v) := by
  obtain ⟨only, regs⟩ := h
  have low : f.off < 0x1000 := by
    simp only [countRegs, List.mem_cons, Prod.mk.injEq, List.not_mem_nil, or_false] at listed
    omega
  refine ⟨?_, regsBut_trans regs (regsBut_setFld listed low v b)⟩
  rw [only]
  rfl

theorem counted_satFld {f : Fld} (listed : (p, f.off) ∈ countRegs i) (n : Nat) (h : Counted i a b) : Counted i a (satFld b p f n) :=
  counted_setFld listed _ h

theorem counted_wrapPair {f g : Fld} (lo : (p, f.off) ∈ countRegs i) (hi : (p, g.off) ∈ countRegs i) (n : Nat) (h : Counted i a b) :
    Counted i a (wrapPair p f g n b) := counted_setFld hi _ (counted_setFld lo _ h)

theorem counted_blkAdd (lo : (p, 0x048) ∈ countRegs i) (hi : (p, 0x04C) ∈ countRegs i) (n : Nat) (h : Counted i a b) :
    Counted i a (blkAdd p n b) := counted_wrapPair (f := Reg.SYM_BLK_LO_BLK_LO) (g := Reg.SYM_BLK_HI_BLK_HI) lo hi n h

theorem pagesBut_counted (hi : i < 28) (h : Counted i a b) : pagesBut [unitPage i, pgHASH (unitQuarter i)] a b := by
  intro q off hq hoff
  refine h.2 q off (fun listed => hq ?_) hoff
  obtain ⟨x, hx, same⟩ := List.mem_map.mp listed
  obtain ⟨page, -⟩ := Prod.mk.inj same
  have unit := unitPage_lt hi
  have cluster := pgHASH_unitQuarter_lt hi
  rw [← page]
  simp only [countRegs, List.mem_cons, List.not_mem_nil, or_false] at hx
  obtain rfl | rfl | rfl | rfl | rfl := hx <;> simp [Nat.mod_eq_of_lt unit, Nat.mod_eq_of_lt cluster]

end

/-- The end of an operation counts on its unit's page, IMAGE_VERIFY on a cluster's too, and is a job boundary of the unit's (R35, R197, R223). -/
theorem unitCount_spec {i : Nat} (hi : i < 28) (c : Cmd) (chk : Nat) (r : Result) (d : Dev) :
    ∃ e, unitCount i c chk r d = jobBoundary (unitPage i) e ∧ Counted i d e := by
  have none' : Counted i d d := ⟨rfl, fun _ _ _ _ => rfl⟩
  have lo : (unitPage i, 0x048) ∈ countRegs i := by simp [countRegs]
  have hi' : (unitPage i, 0x04C) ∈ countRegs i := by simp [countRegs]
  have err : (unitPage i, 0x050) ∈ countRegs i := by simp [countRegs]
  have field : (if i < 20 then Reg.SYM_ERR_CNT_FAULT else Reg.PKE_ERR_CNT_CHECK) = Reg.SYM_ERR_CNT_FAULT := ite_self _
  have fails : Counted i d (satFld d (unitPage i) Reg.SYM_ERR_CNT_FAULT (min chk 2)) := counted_setFld err _ none'
  unfold unitCount
  rw [if_neg (by omega), field]
  refine ⟨_, rfl, ?_⟩
  split
  · exact counted_satFld err _ (counted_blkAdd lo hi' _ fails)
  split
  · exact counted_satFld err _ (counted_blkAdd lo hi' _ fails)
  · have done := counted_satFld (f := Reg.PKE_ERR_CNT_VFAIL) err (b2n (r.status = stVERIFY_FAIL))
      (counted_wrapPair (f := Reg.PKE_OPS_LO_OPS_LO) (g := Reg.PKE_OPS_HI_OPS_HI) lo hi' 1 fails)
    dsimp only
    split
    · exact counted_blkAdd (by simp [countRegs]) (by simp [countRegs]) _ done
    · exact done

/-! ## A unit given free -/

theorem settleEnded_calm {ns : List Nat} {d : Dev} (calm : ∀ n, n ∈ ns → endedOf d n = none) : settleEnded ns d = d := by
  unfold settleEnded
  induction ns with
  | nil => rfl
  | cons n ns ih =>
    rw [List.forall_mem_cons] at calm
    rw [List.foldl_cons, calm.1]
    exact ih calm.2

/-- A value of a table of which some entries are rewritten and those equal to the default then dropped. -/
theorem smapFind_rewritten {α : Type} [DecidableEq α] {dflt : Nat → α} {g : α → α} {m : SMap α} {n : Nat} {a : α} (h : smapFind m n = some a)
    (stays : g a ≠ dflt n) : smapFind ((m.map fun u => (u.1, g u.2)).filter fun u => u.2 ≠ dflt u.1) n = some (g a) := by
  induction m with
  | nil => cases h
  | cons kv t ih =>
    obtain ⟨k, v⟩ := kv
    rw [smapFind] at h
    rw [List.map_cons]
    by_cases same : k = n
    · subst same
      rw [if_pos rfl, Option.some.injEq] at h
      subst h
      rw [List.filter_cons_of_pos (by simpa using stays), smapFind, if_pos rfl]
    · rw [if_neg same] at h
      rw [List.filter_cons]
      split
      · rw [smapFind, if_neg same]
        exact ih h
      · exact ih h

/-- At most registers and their shadows have changed, and of them none of a page without shadows (R35). -/
def OnlyBoundaries (a b : Dev) : Prop :=
  b = { a with regs := b.regs, shadow := b.shadow }
    ∧ (∀ x, x ∈ b.shadow → x ∈ a.shadow)
    ∧ ∀ q off, q < 0x1000 → off < 0x1000 → (∀ x, x ∈ a.shadow → keyOnPage q x.1 = false) → regGet b q off = regGet a q off

theorem onlyBoundaries_refl (a : Dev) : OnlyBoundaries a a := ⟨rfl, fun _ hx => hx, fun _ _ _ _ _ => rfl⟩

theorem onlyBoundaries_trans {a b c : Dev} (h : OnlyBoundaries a b) (g : OnlyBoundaries b c) : OnlyBoundaries a c := by
  obtain ⟨only, fewer, regs⟩ := h
  obtain ⟨only', fewer', regs'⟩ := g
  refine ⟨?_, fun x hx => fewer x (fewer' x hx), fun q off hq hoff none' => ?_⟩
  · rw [only] at only'
    exact only'
  · rw [regs' q off hq hoff fun x hx => none' x (fewer x hx), regs q off hq hoff none']

theorem jobBoundary_onlyBoundaries (p : Nat) (d : Dev) : OnlyBoundaries d (jobBoundary p d) :=
  ⟨jobBoundary_only d p, fun _ hx => (shadow_jobBoundary hx).1, fun _ _ hq hoff none' => regGet_jobBoundary_still hq hoff none'⟩

/-- The units of a command given free. -/
def unitsFreed (tag : Nat) (d : Dev) : Dev :=
  { d with
    units := List.filter (fun u => u.2 ≠ unitReset u.1)
      (d.units.map fun u => (u.1, if u.2.cur = some tag then { u.2 with cur := none } else u.2)) }

/-- A unit out of service stays so. -/
theorem unitsFreed_oos {tag i : Nat} {d : Dev} (out : (unitOf d i).oos = true) : (unitOf (unitsFreed tag d) i).oos = true := by
  have listed : smapFind d.units i = some (unitOf d i) := by
    unfold unitOf smapGet at out ⊢
    cases h : smapFind d.units i with
    | none =>
      rw [h] at out
      cases out
    | some u => rfl
  have freed : (if (unitOf d i).cur = some tag then { unitOf d i with cur := none } else unitOf d i).oos = true := by
    split <;> exact out
  have found := smapFind_rewritten (dflt := unitReset) (g := fun u : Unit' => if u.cur = some tag then { u with cur := none } else u) listed
    fun e => by
      have reset := congrArg (·.oos) e
      exact Bool.noConfusion (freed.symm.trans reset)
  unfold unitOf smapGet unitsFreed
  dsimp only
  rw [found]
  exact freed

/-- What freeing the units of a command touches, where no destroyed key waits for it (R35, R129). -/
theorem freeUnits_spec {tag : Nat} {d : Dev} (calm : ∀ c, cmdOf d tag = some c → ∀ n, n ∈ c.counted → endedOf d n = none) :
    OnlyBoundaries (unitsFreed tag d) (freeUnits tag d) := by
  have settled : settleEnded (((cmdOf d tag).map (·.counted)).getD []) d = d := by
    cases named : cmdOf d tag with
    | none => rfl
    | some c => exact settleEnded_calm (calm c named)
  unfold freeUnits
  rw [settled]
  refine foldl_rel onlyBoundaries_refl onlyBoundaries_trans (fun d i => if (hdrOf d (unitPage i)).enable then d else jobBoundary (unitPage i) d)
    (fun e i => ?_) _ (unitsFreed tag d)
  split
  · exact onlyBoundaries_refl e
  · exact jobBoundary_onlyBoundaries _ e

end Sys2Proof.Proofs
end

section
/-! A unit goes out of service: what its fault touches, and a check unit that disagrees twice (R167, R220). -/

open Sys2Proof Sys2Proof.Machine

namespace Sys2Proof.Proofs

/-! ## The registers that a record touches -/

theorem regGet_onlyEvent {a b : Dev} (h : OnlyEvent a b) (p off : Nat) : regGet b p off = regGet a p off := by
  unfold regGet
  rw [h]

theorem pagesBut_onlyEvent {but : List Nat} {a b : Dev} (h : OnlyEvent a b) : pagesBut but a b := fun p off _ _ => regGet_onlyEvent h p off

theorem clearChannels_regs (mask below : Nat) (d : Dev) : (clearChannels mask below d).regs = d.regs := by
  have wiped : ∀ (l : List LogRef) (e : Dev), (l.foldl (fun d r => wipeMem d r.addr (r.addr + r.len - 1)) e).regs = e.regs := by
    intro l
    induction l with
    | nil => exact fun _ => rfl
    | cons r l ih => exact fun e => (ih _).trans rfl
  exact wiped _ d

/-- The release of a record writes registers of the recorder's page alone (R435, R438). -/
theorem releaseRec_pages (r : EvHand) (d : Dev) : pagesBut [pgEVR] d (releaseRec r d) := by
  have field : ∀ (f : Fld) (v : Nat) (e : Dev), f.off < 0x1000 → pagesBut [pgEVR] e (setFld e pgEVR f v) := fun f v e low =>
    pagesBut_setFld List.mem_cons_self (by decide) low v e
  have event : ∀ n e, pagesBut [pgEVR] e (raiseEv pgEVR n e) := fun n e => pagesBut_onlyEvent (raiseEv_only e pgEVR n)
  unfold releaseRec
  extract_lets
  split
  extract_lets d0 seq _ _ d1 _ _ _ _ d2 d3
  have h1 : pagesBut [pgEVR] d d1 := by
    refine pagesBut_regs ?_
    unfold d1
    split
    · exact clearChannels_regs _ _ d0
    · rfl
  have h2 : pagesBut [pgEVR] d d2 := pagesBut_trans (pagesBut_trans h1 (pagesBut_regs rfl)) (event 0 _)
  have h3 : pagesBut [pgEVR] d d3 := by
    unfold d3
    split
    · exact pagesBut_trans h2 (pagesBut_onlyEvent (signalPfs_only d2 1).event)
    · exact h2
  split
  · exact pagesBut_trans (pagesBut_regs (b := suppress _ d0) rfl) (field Reg.EVR_DROP_RATE _ _ (by decide))
  · split
    · exact pagesBut_trans h3 (pagesBut_trans (field Reg.EVR_CLR_RESULT_STATUS _ _ (by decide))
        (pagesBut_trans (field Reg.EVR_CLR_RESULT_INFO _ _ (by decide)) (event 2 _)))
    · exact h3

theorem releaseHeld_pages (fuel : Nat) (d : Dev) : pagesBut [pgEVR] d (releaseHeld fuel d) := by
  induction fuel generalizing d with
  | zero => exact fun _ _ _ _ => rfl
  | succ n ih =>
    unfold releaseHeld
    split
    · exact fun _ _ _ _ => rfl
    · have taken : ∀ t, pagesBut [pgEVR] d { d with evr := { d.evr with held := t } } := fun _ => pagesBut_regs rfl
      dsimp only
      split
      · exact pagesBut_trans (taken _) (pagesBut_trans (releaseRec_pages _ _) (ih _))
      · split
        · exact pagesBut_trans (taken _) (ih _)
        · exact fun _ _ _ _ => rfl

theorem record_pages (code : Nat) (payload : Bytes) (d : Dev) : pagesBut [pgEVR] d (record code payload d) := by
  unfold record handRec
  split
  · exact pagesBut_trans (b := { d with evr := _ }) (pagesBut_regs rfl) (releaseHeld_pages _ _)
  · exact fun _ _ _ _ => rfl

/-! ## Commands on the rings -/

theorem putCmd_stage {c x : Cmd} {d : Dev} (listed : x ∈ (putCmd c d).cmd.cmds) (same : x.tag = c.tag) : x.stage = c.stage := by
  obtain ⟨y, -, rfl⟩ := List.mem_map.mp listed
  by_cases own : y.tag = c.tag
  · rw [if_pos own]
  · rw [if_neg own] at same
    contradiction

/-- A sweep of the rings touches the command processor, and no TAG that stands on no ring (R167, R220). -/
theorem ringSweep_spec (d : Dev) :
    ringSweep d = { d with cmd := (ringSweep d).cmd }
      ∧ ∀ tag, (∀ x, x ∈ d.cmd.cmds → x.tag = tag → x.stage ≠ .ring) → cmdOf (ringSweep d) tag = cmdOf d tag := by
  have sweep : ∀ (l : List Cmd) (e : Dev), let t := l.foldl (fun d c => failCmd c (stENGINE, 0) d) e
      t = { e with cmd := t.cmd } ∧ ∀ tag, (∀ x, x ∈ l → x.tag ≠ tag) → cmdOf t tag = cmdOf e tag := by
    intro l
    induction l with
    | nil => exact fun e => ⟨rfl, fun _ _ => rfl⟩
    | cons c l ih =>
      intro e
      obtain ⟨only, kept⟩ := ih (failCmd c (stENGINE, 0) e)
      refine ⟨?_, fun tag away => ?_⟩
      · exact only
      · rw [List.forall_mem_cons] at away
        exact (kept tag away.2).trans (cmdOf_putCmd_other (c := { c with stage := .held, result := some (failed stENGINE 0) }) e (Ne.symm away.1))
  unfold ringSweep
  obtain ⟨only, kept⟩ := sweep (d.cmd.cmds.filter fun c => c.stage = .ring && !(anyServes d (kindOf c))) d
  refine ⟨only, fun tag away => kept tag fun x hx same => ?_⟩
  obtain ⟨listed, swept⟩ := List.mem_filter.mp hx
  simp only [Bool.and_eq_true, decide_eq_true_eq] at swept
  exact away x listed same swept.1

/-! ## A unit out of service -/

/-- At most the commands, the units, registers with their shadows and what a record touches have changed. -/
def OnlyEnded (a b : Dev) : Prop :=
  b = { a with
    cmd := b.cmd, units := b.units, regs := b.regs, shadow := b.shadow, evr := b.evr, nv := b.nv, hdr := b.hdr, host := b.host, mem := b.mem
    ofc := b.ofc, out := b.out }

theorem onlyEnded_trans {a b c : Dev} (h : OnlyEnded a b) (g : OnlyEnded b c) : OnlyEnded a c := by
  unfold OnlyEnded at *
  rw [h] at g
  exact g

theorem same_onlyEnded {a b : Dev} (h : OnlyEnded a b) {p : Part} (hp : p ∉ [Part.cmd, .units, .regs, .shadow] ++ evParts) : p.same a b := by
  rw [h]
  clear h
  cases p <;> simp_all [Part.same, evParts]

/-- A unit that goes out of service: its bit and SERVE; of the commands those on the rings alone are touched (R167, R220). -/
theorem unitFault_spec {i : Nat} (hi : i < 28) (d : Dev) :
    OnlyEnded d (unitFault i d) ∧ (unitFault i d).shadow = d.shadow ∧ (unitOf (unitFault i d) i).oos = true
      ∧ fld (unitFault i d) (unitPage i) Reg.SYM_CFG_SERVE = 0
      ∧ ∀ tag, (∀ x, x ∈ d.cmd.cmds → x.tag = tag → x.stage ≠ .ring) → cmdOf (unitFault i d) tag = cmdOf d tag := by
  have field : (if i < 20 then Reg.SYM_CFG_SERVE else Reg.PKE_CFG_SERVE) = Reg.SYM_CFG_SERVE := ite_self _
  have page : unitPage i % 0x1000 ∉ [pgEVR] := (by decide : ∀ i < 28, unitPage i % 0x1000 ∉ [pgEVR]) i hi
  unfold unitFault
  rw [if_neg (by omega)]
  dsimp only
  rw [field]
  have out : (unitOf (modUnit i (fun u => { u with oos := true }) d) i).oos = true :=
    congrArg (·.oos) (smapGet_set_same unitReset d.units i { unitOf d i with oos := true })
  generalize hm : modUnit i (fun u => { u with oos := true }) d = m at out
  have event := raiseEv_only (setFld m (unitPage i) Reg.SYM_CFG_SERVE 0) (unitPage i) 1
  have serve : fld (raiseEv (unitPage i) 1 (setFld m (unitPage i) Reg.SYM_CFG_SERVE 0)) (unitPage i) Reg.SYM_CFG_SERVE = 0 := by
    unfold fld
    rw [regGet_onlyEvent event]
    exact fld_setFld_same m (unitPage i) Reg.SYM_CFG_SERVE 0 ⟨by decide, by decide⟩
  generalize raiseEv (unitPage i) 1 (setFld m (unitPage i) Reg.SYM_CFG_SERVE 0) = e at event serve
  have pages := record_pages 0x0405 (payBytes 8 [3, i]) e
  have recorded := record_onlyRecorded 0x0405 (payBytes 8 [3, i]) e
  have serve' := (fld_pagesBut (f := Reg.SYM_CFG_SERVE) pages page (by decide)).trans serve
  generalize record 0x0405 (payBytes 8 [3, i]) e = r at recorded serve'
  obtain ⟨swept, kept⟩ := ringSweep_spec r
  unfold OnlyEvent at event
  unfold OnlyRecorded at recorded
  have only : OnlyEnded d r := by
    unfold OnlyEnded
    rw [recorded, event, ← hm]
    rfl
  have cmds : r.cmd = d.cmd := by
    rw [recorded, event, ← hm]
    rfl
  refine ⟨onlyEnded_trans only (by unfold OnlyEnded; rw [swept]), ?_, ?_, ?_, fun tag away => ?_⟩
  · rw [swept, recorded, event, ← hm]
    rfl
  · unfold unitOf at out ⊢
    rw [swept, recorded, event]
    exact out
  · rw [swept]
    exact serve'
  · rw [kept tag (by rw [cmds]; exact away)]
    exact cmdOf_cmds (congrArg (·.cmds) cmds) tag

/-! ## Two mismatches -/

/-- The end of a command whose check unit has disagreed twice: its result is held, and its unit serves no more (R167, R220). -/
theorem mismatch_runs {d e : Dev} {tag op chk i : Nat} {k : Cmd} {f : OpFn} (stands : AtUnit d tag op k) (unit : k.unit = some i) (hi : i < 28)
    (twice : 2 ≤ chk) (ran : runChecked i chk f k d = .done (failed stENGINE 0) e)
    (only : e = { d with ent := e.ent, units := e.units }) :
    let t := runOp tag [op] chk f d
    OnlyEnded e t ∧ cmdOf t tag = some { k with stage := .held, result := some (failed stENGINE 0) } ∧ (unitOf t i).oos = true
      ∧ fld t (unitPage i) Reg.SYM_CFG_SERVE = 0 := by
  obtain ⟨named, taken, keyed, opcode, -, -, -, calm⟩ := stands
  have tags : k.tag = tag := tag_of_cmdOf named
  have still : cmdOf e k.tag = some k := by
    rw [only, tags]
    exact named
  have run : runOp tag [op] chk f d
      = freeUnits k.tag (unitFault i (unitCount i k chk (failed stENGINE 0) (holdCmd k (failed stENGINE 0) e))) := by
    unfold runOp
    rw [named]
    simp only [taken, keyed, opcode, List.contains_cons, beq_self_eq_true, Bool.true_or, decide_true, Bool.and_self, if_true]
    unfold runGo
    simp only [unit, Option.getD_some, ran, still, if_pos twice]
  have held : cmdOf (holdCmd k (failed stENGINE 0) e) tag = some { k with stage := .held, result := some (failed stENGINE 0) } :=
    cmdOf_putCmd_same (tags ▸ still) tags
  have off : ∀ x, x ∈ (holdCmd k (failed stENGINE 0) e).cmd.cmds → x.tag = tag → x.stage ≠ .ring := fun x hx same => by
    rw [putCmd_stage hx (same.trans tags.symm)]
    exact Stage.noConfusion
  have keys : (holdCmd k (failed stENGINE 0) e).key = d.key := by
    rw [only]
    rfl
  have ended : OnlyEnded e (holdCmd k (failed stENGINE 0) e) := rfl
  generalize holdCmd k (failed stENGINE 0) e = h at run held off keys ended
  obtain ⟨c, counts, onlyRegs, -⟩ := unitCount_spec hi k chk (failed stENGINE 0) h
  rw [counts] at run
  have cleared : ∀ x, x ∈ (jobBoundary (unitPage i) c).shadow → keyOnPage (unitPage i) x.1 = false := fun x hx => (shadow_jobBoundary hx).2
  have boundary : jobBoundary (unitPage i) c = { h with regs := (jobBoundary (unitPage i) c).regs, shadow := (jobBoundary (unitPage i) c).shadow } := by
    conv_lhs => rw [jobBoundary_only]
    rw [onlyRegs]
  generalize jobBoundary (unitPage i) c = j at run cleared boundary
  obtain ⟨faulted, shadows, out, serve, commands⟩ := unitFault_spec hi j
  have heldStill : cmdOf (unitFault i j) tag = some { k with stage := .held, result := some (failed stENGINE 0) } := by
    rw [commands tag (by rw [boundary]; exact off), boundary]
    exact held
  have keysStill : (unitFault i j).key = d.key := by
    rw [faulted, boundary]
    exact keys
  rw [← shadows] at cleared
  rw [tags] at run
  intro t
  have ht : t = freeUnits tag (unitFault i j) := run
  have freed := unitsFreed_oos (tag := tag) out
  obtain ⟨only', -, regs⟩ := freeUnits_spec (tag := tag) (d := unitFault i j) fun x hx n hn => by
    rw [heldStill, Option.some.injEq] at hx
    subst hx
    unfold endedOf
    rw [keysStill]
    exact calm n hn
  rw [← ht] at only' regs
  refine ⟨?_, ?_, ?_, ?_⟩
  · refine onlyEnded_trans ended (onlyEnded_trans ?_ (onlyEnded_trans faulted ?_))
    · unfold OnlyEnded
      rw [boundary]
    · unfold OnlyEnded
      rw [only']
      rfl
  · rw [only']
    exact heldStill
  · rw [only']
    exact freed
  · unfold fld
    rw [regs _ _ (unitPage_lt hi) (by decide) cleared]
    exact serve

end Sys2Proof.Proofs
end

section
/-! What an engine draws in the runs that its checks discard (R217, R220, R236): several reads of one operation, one after another. -/

open Sys2Proof Sys2Proof.Machine

namespace Sys2Proof.Proofs

/-! ## A read after others of the same operation -/

/-- No read of a quarter waits, and of those that have ended each has been taken by the operation under way (R236). -/
def ReadsTaken (d : Dev) (q : Nat) : Prop :=
  (wellOf d q).stalls = [] ∧ (wellOf d q).turns = 0 ∧ ∀ g, g ∈ (wellOf d q).grants → g.used = true

/-- A read that joins those which an operation has taken is served from bytes that are ready. -/
theorem serveStalls_taken {q : Nat} {x : Stall} {d : Dev} (other : x.who ≠ .other) (lives : readerLives d x.who = true)
    (plain : x.soft = false ∧ x.fresh = false ∧ x.have' = []) (now : x.since = d.now) (some' : 0 < x.n) (reads : ReadsTaken d q)
    (enough : x.n ≤ (drbgOf d q).buf.length) :
    ∃ G, (∀ g, g ∈ G → g.used = true)
      ∧ Giving q x.n { wellOf d q with grants := G ++ [⟨x.who, x.n, some ((drbgOf d q).buf.take x.n), false⟩] } d
          (serveStalls q (askRead q x d)) := by
  obtain ⟨stalls, turns, taken⟩ := reads
  obtain ⟨soft, fresh, have'⟩ := plain
  have asked := giving_modWell (fun w => { w with stalls := w.stalls ++ [x] }) (giving_refl (q := q) (a := d))
  have ask : askRead q x d = modWell q (fun w => { w with stalls := w.stalls ++ [x] }) d := by simp [askRead, stalls]
  rw [← ask] at asked
  generalize askRead q x d = a at asked
  have lives' : readerLives a x.who = true := by
    rw [← lives, asked.1]
    cases x.who <;> rfl
  have swept := giving_modWell (fun w => { w with
    stalls := w.stalls.filter (fun x => readerLives a x.who), grants := w.grants.filter (fun x => readerLives a x.who) }) asked
  simp only [stalls, List.nil_append, List.filter_cons, lives', List.filter_nil, if_true] at swept
  obtain ⟨G, hG⟩ : ∃ G, G = (wellOf d q).grants.filter fun x => readerLives a x.who := ⟨_, rfl⟩
  rw [← hG] at swept
  refine ⟨G, fun g hg => taken g (List.mem_of_mem_filter (hG ▸ hg)), ?_⟩
  unfold serveStalls
  have same : sweepReads q a = modWell q (fun w => { w with
    stalls := w.stalls.filter (fun x => readerLives a x.who), grants := w.grants.filter (fun x => readerLives a x.who) }) a := rfl
  rw [same]
  generalize modWell q _ a = b at swept
  have well := swept.2.2.2 q
  have drbg := swept.2.2.1 q
  have clock : b.now = d.now := by rw [swept.1]
  simp only [if_true, List.drop_zero] at well drbg
  have next : nextStall b q = some x := by simp [nextStall, well, soft]
  have enough' : x.n ≤ (drbgOf b q).buf.length := by rw [drbg]; exact enough
  have drawn := giving_drop x.n swept (fun g => { g with buf := (drbgOf b q).buf.drop x.n }) rfl
  have fill := fillRead_ready some' enough'
  generalize hc : modDrbg q (fun g => { g with buf := (drbgOf b q).buf.drop x.n }) b = c at drawn fill
  have wait : min ((c.now - x.since + 999) / 1000) 65535 = 0 := by
    have : c.now = b.now := hc ▸ rfl
    rw [this, now, clock]
    simp
  have served := giving_modWell (fun w => { w with grants := w.grants ++ [⟨x.who, x.n, some ((drbgOf b q).buf.take x.n), false⟩] })
    (giving_modWell (fun w =>
      let rest := w.stalls.eraseP (fun y => y.who = x.who && y.n = x.n && y.since = x.since && y.soft = x.soft)
      { w with stalls := rest, turns := if x.soft || rest.all (fun y => !y.soft) then 0 else w.turns + 1 }) drawn)
  have one : (wellOf b q).stalls.length = 1 := by rw [well]; rfl
  dsimp only
  rw [one]
  simpa [serveGo, next, fresh, have', fill, stallServed, wait, readEnded, other, List.eraseP_cons, enough, drbg, turns, stalls] using served

/-- So it has them, and has taken its read too. -/
theorem drawFor_taken {who : Reader} {q n : Nat} {d : Dev} (other : who ≠ .other) (lives : readerLives d who = true)
    (healthy : (wellOf d q).run ≠ .entFail) (opened : drbgOpen d.sys.mode = true) (reads : ReadsTaken d q) (some' : 0 < n)
    (enough : n ≤ (drbgOf d q).buf.length) :
    ∃ b e G, drawFor who false false q n d = .got b e ∧ (∀ g, g ∈ G → g.used = true) ∧ Giving q n { wellOf d q with grants := G } d e := by
  obtain ⟨G, taken, served⟩ := serveStalls_taken (x := ⟨who, n, d.now, false, false, []⟩) other lives ⟨rfl, rfl, rfl⟩ rfl some' reads enough
  have none' : ∀ l : List ReadGrant, (∀ g, g ∈ l → g.used = true) → l.find? (fun g => g.who = who && g.n = n && !g.used) = none :=
    fun l hl => List.find?_eq_none.mpr fun g hg => by simp [hl g hg]
  have noGrant : grantDraw q who n d = none := by simp [grantDraw, takeGrant, none' _ reads.2.2]
  unfold drawFor
  rw [if_neg (by omega), noGrant]
  simp only [healthy, opened, decide_false, Bool.not_true, Bool.or_self, Bool.false_eq_true, if_false]
  generalize serveStalls q _ = b at served
  have well := served.2.2.2 q
  rw [if_pos rfl] at well
  have found : (wellOf b q).grants.find? (fun g => g.who = who && g.n = n && !g.used)
      = some ⟨who, n, some ((drbgOf d q).buf.take n), false⟩ := by
    rw [well, List.find?_append, none' G taken]
    simp
  have fresh : (⟨who, n, some ((drbgOf d q).buf.take n), false⟩ : ReadGrant) ∉ G := fun listed => Bool.noConfusion (taken _ listed)
  have took := giving_modWell (fun w => { w with grants := G ++ [⟨who, n, some ((drbgOf d q).buf.take n), true⟩] }) served
  have replaced : (wellOf b q).grants.replace ⟨who, n, some ((drbgOf d q).buf.take n), false⟩ ⟨who, n, some ((drbgOf d q).buf.take n), true⟩
      = G ++ [⟨who, n, some ((drbgOf d q).buf.take n), true⟩] := by
    rw [well, List.replace_append_right fresh]
    simp
  refine ⟨(drbgOf d q).buf.take n, _, _, ?_, fun g hg => ?_, took⟩
  · simp only [grantDraw, takeGrant, found, Option.map_some, Option.getD_some, modWell, replaced]
  · obtain hg | hg := List.mem_append.mp hg
    · exact taken g hg
    · rw [List.mem_singleton.mp hg]

end Sys2Proof.Proofs
end

section
/-! The operations of an engine: how much each draws at most, whatever it comes to (R210-R217, R220). -/

open Sys2Proof Sys2Proof.Machine

namespace Sys2Proof.Proofs

/-- A command, no RANDOM_BYTES, that has taken what it has drawn so far finds n bytes more ready. -/
def Drawable (k : Cmd) (n : Nat) (e : Dev) : Prop :=
  n = 0 ∨ (k.desc.opcode ≠ 0x0501 ∧ readerLives e (readerOf k) = true ∧ (wellOf e (cmdQuarter k e)).run ≠ .entFail
    ∧ drbgOpen e.sys.mode = true ∧ ReadsTaken e (cmdQuarter k e) ∧ n ≤ (drbgOf e (cmdQuarter k e)).buf.length)

/-- On the way of an operation begun in d: it has touched nothing but the Wells and generators, and finds n bytes more ready. -/
def Drawing (k : Cmd) (d : Dev) (n : Nat) (e : Dev) : Prop := e = { d with ent := e.ent } ∧ Drawable k n e

/-- An operation comes to its end in such a state. -/
def Ends (k : Cmd) (d : Dev) (n : Nat) (o : OpOut) : Prop := ∃ r e, o = .done r e ∧ Drawing k d n e

section
variable {k : Cmd} {d e : Dev} {m n : Nat}

theorem drawing_le (h : Drawing k d n e) (le : m ≤ n) : Drawing k d m e := by
  obtain ⟨only, none' | ⟨plain, lives, healthy, opened, reads, enough⟩⟩ := h
  · exact ⟨only, .inl (by omega)⟩
  · exact ⟨only, .inr ⟨plain, lives, healthy, opened, reads, le.trans enough⟩⟩

theorem ends_done (r : Result) (h : Drawing k d n e) (le : m ≤ n := by omega) : Ends k d m (.done r e) :=
  ⟨r, e, rfl, drawing_le h le⟩

theorem ends_room {size : Nat} {o : OpOut} (h : Drawing k d n e) (go : Ends k d m o) (le : m ≤ n := by omega) :
    Ends k d m (needRoom k size e o) := ite_of (Ends k d m) (ends_done _ h le) go

/-- A draw of as many bytes as are ready, or fewer, is served, and the operation goes on with the rest ready. -/
theorem ends_random {size left : Nat} {go : Bytes → Dev → OpOut} (fits : left + size ≤ n) (h : Drawing k d n e)
    (goes : ∀ y x, Drawing k d left x → Ends k d m (go y x)) : Ends k d m (withRandom k size e go) := by
  by_cases empty : size = 0
  · subst empty
    exact goes [] e (drawing_le h (by omega))
  · obtain ⟨only, none' | ⟨plain, lives, healthy, opened, reads, enough⟩⟩ := h
    · omega
    · obtain ⟨b, x, G, got, taken, given⟩ := drawFor_taken (who := readerOf k) (n := size) (by unfold readerOf; split <;> simp) lives
        healthy opened reads (by omega) (by omega)
      obtain ⟨only', -, drbgs, wells⟩ := given
      have well := wells (cmdQuarter k e)
      have drbg := drbgs (cmdQuarter k e)
      rw [if_pos rfl] at well drbg
      have quarter : cmdQuarter k x = cmdQuarter k e := by rw [only']; rfl
      have lives' : readerLives x (readerOf k) = true := by
        rw [← lives, only']
        cases readerOf k <;> rfl
      have goesOn : Drawing k d left x := by
        refine ⟨by rw [only', only], .inr ⟨plain, lives', ?_, ?_, ⟨?_, ?_, ?_⟩, ?_⟩⟩
        · rw [quarter, well]
          exact healthy
        · rw [only']
          exact opened
        · rw [quarter, well]
          exact reads.1
        · rw [quarter, well]
          exact reads.2.1
        · rw [quarter, well]
          exact taken
        · rw [quarter, drbg, List.length_drop]
          omega
      unfold withRandom
      simp only [plain, decide_false, Bool.false_and, got]
      exact goes b x goesOn

/-! ## Signatures, agreement and encapsulation -/

theorem opEcdsaSign_ends (h : Drawing k d (m + 112) e) : Ends k d m (opEcdsaSign k e) :=
  ends_room h (ends_random (left := m) (by split <;> omega) h fun _ _ g => ends_done _ g)

theorem opEcdsaVerify_ends (h : Drawing k d m e) : Ends k d m (opEcdsaVerify k e) := by
  unfold opEcdsaVerify
  extract_lets
  refine ite_of _ (ends_done _ h) ?_
  split <;> exact ends_done _ h

theorem opEddsaSign_ends (h : Drawing k d (m + 48) e) : Ends k d m (opEddsaSign k e) :=
  ends_random (left := m) le_rfl h fun _ _ g => ends_done _ g

theorem opEddsaVerify_ends (h : Drawing k d m e) : Ends k d m (opEddsaVerify k e) :=
  ite_of _ (ends_done _ h) (ite_of _ (ends_done _ h) (ends_done _ h))

theorem opEcdh_ends (h : Drawing k d (m + (64 + genDraw (pkeAlgOf k))) e) : Ends k d m (opEcdh k e) := by
  unfold opEcdh
  extract_lets
  refine ite_of _ (ends_done _ h) ?_
  split
  · exact ends_done _ h
  · refine ite_of _ (ends_done _ h) (ends_random (left := m) ?_ h fun _ _ g => ite_of _ ?_ ?_)
    · grind
    · split
      · exact ends_done _ g
      · split <;> exact ends_done _ g
    · split <;> exact ends_done _ g

theorem opEncap_ends (h : Drawing k d (m + 96) e) : Ends k d m (opEncap k e) :=
  ite_of _ (ends_done _ h) (ite_of _ (ends_done _ h) (ends_room h (ends_random (left := m) le_rfl h fun _ _ g => ends_done _ g)))

theorem opDecap_ends (h : Drawing k d (m + 192) e) : Ends k d m (opDecap k e) :=
  ite_of _ (ends_done _ h) (ite_of _ (ends_done _ h) (ends_random (left := m) le_rfl h fun _ _ g => ends_done _ g))

/-! ## RSA -/

theorem rsaDraw_le (alg : Nat) : rsaDraw alg ≤ 80 := by
  unfold rsaDraw
  split
  · omega
  · split <;> omega

theorem opRsaPrivate_ends (h : Drawing k d (m + (80 + saltLen (auxOf k))) e) : Ends k d m (opRsaPrivate k e) := by
  have most := rsaDraw_le (key1 k).alg
  unfold opRsaPrivate
  extract_lets
  refine ite_of _ (ite_of _ (ends_done _ h) (ends_room h (ends_random (left := m) (by grind) h fun _ _ g => ?_)))
    (ends_room h (ends_random (left := m) (by grind) h fun _ _ g => ends_done _ g))
  split <;> exact ends_done _ g

theorem opRsaPublic_ends (h : Drawing k d (m + hashSize (pHash k.desc)) e) : Ends k d m (opRsaPublic k e) := by
  unfold opRsaPublic
  extract_lets
  exact ite_of _ (ends_done _ h)
    (ite_of _ (ite_of _ (ends_done _ h) (ends_room h (ends_random (left := m) le_rfl h fun _ _ g => ends_done _ g)))
      (ite_of _ (ends_done _ h) (ends_done _ h)))

/-! ## Lattices and hash-based signatures -/

/-- Each round of ML-DSA takes one unit of fuel and counts one iteration. -/
theorem dsaLoop_iterations_le (p : DsaPar) (key : DsaKey) (a : List (List Poly)) (mu rho : Bytes) (fuel it : Nat) :
    (dsaLoop p key a mu rho fuel it).2 ≤ it + fuel := by
  induction fuel generalizing it with
  | zero => exact le_rfl
  | succ fuel ih =>
    have again : (dsaLoop p key a mu rho fuel (it + 1)).2 ≤ it + (fuel + 1) := (ih (it + 1)).trans (by omega)
    unfold dsaLoop
    extract_lets
    refine ite_of (fun x : Option Bytes × Nat => x.2 ≤ it + (fuel + 1)) again ?_
    extract_lets
    exact ite_of (fun x : Option Bytes × Nat => x.2 ≤ it + (fuel + 1)) again (show it + 1 ≤ it + (fuel + 1) by omega)

theorem dsaSign_iterations_le (alg : Nat) (xi msg rnd : Bytes) : (dsaSign alg xi msg rnd).2 ≤ 814 :=
  (dsaLoop_iterations_le _ _ _ _ _ 814 0).trans_eq (Nat.zero_add 814)

/-- ML-DSA draws once for its nonce and once for all the iterations it has made, of which there are at most 814 (R212, R217). -/
theorem opMldsaSign_ends (h : Drawing k d (m + (32 + 160 * 814)) e) : Ends k d m (opMldsaSign k e) := by
  unfold opMldsaSign
  extract_lets key det
  refine ends_room h (ends_random (left := m + 160 * 814) (by split <;> omega) h fun y x g => ?_)
  extract_lets r
  have most : r.2 ≤ 814 := dsaSign_iterations_le ..
  refine ends_random (left := m) (by omega) g fun _ _ g' => ?_
  split <;> exact ends_done _ g'

theorem opMldsaVerify_ends (h : Drawing k d m e) : Ends k d m (opMldsaVerify k e) :=
  ite_of _ (ends_done _ h) (ite_of _ (ends_done _ h) (ends_done _ h))

theorem opSlhSign_ends (h : Drawing k d (m + 80) e) : Ends k d m (opSlhSign k e) :=
  ends_room h (ends_random (left := m) (by split <;> omega) h fun _ _ g => ends_done _ g)

theorem opSlhVerify_ends (h : Drawing k d m e) : Ends k d m (opSlhVerify k e) :=
  ite_of _ (ends_done _ h) (ite_of _ (ends_done _ h) (ends_done _ h))

theorem opHbsVerify_ends (h : Drawing k d m e) : Ends k d m (opHbsVerify k e) := by
  unfold opHbsVerify
  extract_lets _ r
  split
  · exact ends_done _ h
  · clear_value r
    split <;> exact ends_done _ h

theorem opImageVerify_ends (h : Drawing k d m e) : Ends k d m (opImageVerify k e) :=
  ite_of _ (ends_done _ h) (ite_of _ (ends_done _ h) (ite_of _ (ends_done _ h) (ends_done _ h)))

/-! ## Pairs -/

theorem opGeneratePair_ends (h : Drawing k d (m + genDraw (tmplOf (auxOf k)).alg) e) : Ends k d m (opGeneratePair k e) := by
  unfold opGeneratePair
  extract_lets
  refine ite_of _ (ite_of _ (ends_done _ h) (ends_done _ h)) (ends_random (left := m) le_rfl h fun _ _ g => ?_)
  split <;> exact ends_done _ g

theorem opPublicExport_ends (h : Drawing k d m e) : Ends k d m (opPublicExport k e) := ends_room h (ends_done _ h)

/-! ## The runs that the checks discard -/

/-- Of every discarded run of an engine's operation only the randomness it has drawn remains (R220). -/
theorem discardRuns_ends {i : Nat} {f : OpFn} (low : 20 ≤ i) (high : i < 28)
    (ends : ∀ m e, Drawing k d (m + n) e → Ends k d m (f k e)) (runs : Nat) (h : Drawing k d (m + runs * n) e) :
    Ends k d m (discardRuns i f k runs e) := by
  induction runs generalizing e with
  | zero => exact ends_done _ h
  | succ j ih =>
    obtain ⟨r, x, ran, g⟩ := ends (m + j * n) e (by rwa [Nat.succ_mul, ← Nat.add_assoc] at h)
    have same : ({ e with ent := x.ent, units := x.units } : Dev) = x := by
      rw [g.1, h.1]
    have engine : (decide (i < 20) || decide (28 ≤ i)) = false := by simp; omega
    unfold discardRuns
    rw [engine, if_neg Bool.false_ne_true, ran]
    dsimp only
    rw [same]
    exact ih g

end

end Sys2Proof.Proofs
end

section
/-! A check unit that disagrees twice: the operations of the lanes, clusters and engines, and what they draw for it (R167, R220). -/

open Sys2Proof Sys2Proof.Machine

namespace Sys2Proof.Proofs

/-! ## What is left of a failed operation -/

/-- The end of an operation drops its reads and counts what an engine has drawn, and nothing else (R223, R236). -/
theorem opReads_ended (k : Cmd) (d0 : Dev) (r : Result) (d : Dev) :
    ∃ e, opReads k d0 (.done r d) = .done r e ∧ e = { d with ent := e.ent, units := e.units } := by
  refine ⟨_, rfl, ?_⟩
  have dropped : readsOver (cmdQuarter k d0) (readerOf k) d = { d with ent := (readsOver (cmdQuarter k d0) (readerOf k) d).ent } := by
    unfold readsOver
    split <;> rfl
  generalize readsOver (cmdQuarter k d0) (readerOf k) d = x at dropped
  split
  · split
    · rw [dropped]
      rfl
    · rw [dropped]
  · rw [dropped]

section
variable {d : Dev} {tag op chk i : Nat} {k : Cmd} {f : OpFn}

/-- The reader of a command in flight is its TAG. -/
theorem readerOf_atUnit (stands : AtUnit d tag op k) : readerOf k = .cmd tag := by
  obtain ⟨named, -, -, -, valid, -, -, -⟩ := stands
  unfold readerOf
  rw [tag_of_cmdOf named, if_neg valid]

/-- A lane or cluster runs nothing once its check has failed twice, and draws nothing (R167). -/
theorem runChecked_laneMismatch (stands : AtUnit d tag op k) (unit : k.unit = some i) (lane : i < 20) (twice : 2 ≤ chk) :
    runChecked i chk f k d = .done (failed stENGINE 0) d := by
  obtain ⟨-, -, -, -, -, -, calm, -⟩ := id stands
  rw [← readerOf_atUnit stands] at calm
  have uncounted : engineCounted k d = d := by
    unfold engineCounted
    rw [unit]
    exact if_neg (by simp; omega)
  have discards : discardRuns i f k (min chk 2) d = .done (okRes 0 0) d := by
    rw [Nat.min_eq_right twice]
    exact if_pos (by simp [lane])
  unfold runChecked
  rw [discards]
  dsimp only
  rw [if_pos twice, opReads_counted _ calm, uncounted]

/-- A command that stands at its unit finds the bytes that are ready for it. -/
theorem drawable_atUnit {n : Nat} (stands : AtUnit d tag op k) (plain : op ≠ 0x0501) (ready : n = 0 ∨ RandomReady d k n) :
    Drawing k d n d := by
  refine ⟨rfl, ready.imp id fun ⟨healthy, opened, ⟨stalls, grants, turns⟩, enough⟩ => ?_⟩
  have reader := readerOf_atUnit stands
  obtain ⟨named, -, -, opcode, -, undone, -, -⟩ := stands
  refine ⟨opcode ▸ plain, ?_, healthy, opened, ⟨stalls, turns, fun g hg => by rw [grants] at hg; cases hg⟩, enough⟩
  rw [reader]
  exact List.any_eq_true.mpr ⟨k, List.mem_of_find?_eq_some named, by simp [tag_of_cmdOf named, undone]⟩

/-- An engine draws what its two runs need, and nothing else of them remains (R220). -/
theorem runChecked_engineMismatch {n : Nat} (stands : AtUnit d tag op k) (plain : op ≠ 0x0501) (low : 20 ≤ i) (high : i < 28)
    (twice : 2 ≤ chk) (ready : n = 0 ∨ RandomReady d k (2 * n)) (ends : ∀ m e, Drawing k d (m + n) e → Ends k d m (f k e)) :
    ∃ e, runChecked i chk f k d = .done (failed stENGINE 0) e ∧ e = { d with ent := e.ent, units := e.units } := by
  have begins : Drawing k d (0 + 2 * n) d := by
    rw [Nat.zero_add]
    exact drawable_atUnit stands plain (ready.imp (by omega) id)
  obtain ⟨r, x, ran, only, -⟩ := discardRuns_ends low high ends 2 begins
  obtain ⟨e, ended, only'⟩ := opReads_ended k d (failed stENGINE 0) x
  refine ⟨e, ?_, ?_⟩
  · unfold runChecked
    rw [Nat.min_eq_right twice, ran]
    dsimp only
    rw [if_pos twice, ended]
  · rw [only', only]

end

/-! ## The operations -/

/-- The commands of the lanes and clusters, by opcode. -/
def laneOps (tag chk : Nat) : List (Nat × Instr) :=
  [(0x0201, .aesEcb tag chk), (0x0202, .aesCbc tag chk), (0x0203, .aesCtr tag chk), (0x0204, .aesGcm tag chk), (0x0205, .aesCcm tag chk),
    (0x0206, .aesXts tag chk), (0x0207, .tdesEcb tag chk), (0x0208, .tdesCbc tag chk), (0x0209, .ctxSave tag chk),
    (0x020A, .ctxRestore tag chk), (0x0401, .hash tag chk), (0x0402, .shake tag chk), (0x0403, .hmac tag chk), (0x0404, .cmac tag chk),
    (0x0405, .gmac tag chk), (0x0406, .macVerify tag chk), (0x0407, .hkdf tag chk), (0x0408, .kdfCtr tag chk),
    (0x0409, .tls13KeySchedule tag chk), (0x0601, .dukptDerive tag chk), (0x0602, .pinTranslate tag chk), (0x0603, .pinVerify tag chk),
    (0x0604, .cvvGenerate tag chk), (0x0605, .cvvVerify tag chk), (0x0606, .dataTranslate tag chk), (0x0701, .ff1Encrypt tag chk),
    (0x0702, .ff1Decrypt tag chk), (0x0703, .tokenTranslate tag chk), (0x0801, .hotpGenerate tag chk), (0x0802, .hotpVerify tag chk),
    (0x0803, .totpGenerate tag chk), (0x0804, .totpVerify tag chk), (0x0805, .lockerTokenSign tag chk), (0x0806, .pickupCodeIssue tag chk),
    (0x0807, .pickupCodeVerify tag chk)]

/-- Each of them runs an operation on the command of its opcode. -/
theorem laneOps_run (tag chk : Nat) : ∀ c, c ∈ laneOps tag chk → ∃ f, ∀ s, exec c.2 s = runDev s (runOp tag [c.1] chk f) := by
  unfold laneOps
  repeat refine List.forall_mem_cons.mpr ⟨⟨_, fun _ => rfl⟩, ?_⟩
  exact List.forall_mem_nil _

/-- The commands of the engines, by opcode, with the bytes that each draws at most in one run. -/
def engineOps (tag chk : Nat) (k : Cmd) : List (Nat × Instr × Nat) :=
  [(0x0102, .keyGeneratePair tag chk, genDraw (tmplOf (auxOf k)).alg), (0x0111, .keyPublicExport tag chk, 0),
    (0x0301, .ecdsaSign tag chk, 112), (0x0302, .ecdsaVerify tag chk, 0), (0x0303, .eddsaSign tag chk, 48),
    (0x0304, .eddsaVerify tag chk, 0), (0x0305, .ecdhAgree tag chk, 64 + genDraw (pkeAlgOf k)),
    (0x0306, .rsaPrivate tag chk, 80 + saltLen (auxOf k)), (0x0307, .rsaPublic tag chk, hashSize (pHash k.desc)),
    (0x0308, .mlkemEncap tag chk, 96), (0x0309, .mlkemDecap tag chk, 192), (0x030A, .mldsaSign tag chk, 32 + 160 * 814),
    (0x030B, .mldsaVerify tag chk, 0), (0x030C, .slhdsaSign tag chk, 80), (0x030D, .slhdsaVerify tag chk, 0),
    (0x030E, .hbsVerify tag chk, 0), (0x030F, .imageVerify tag chk, 0)]

/-- Each of them runs an operation that draws no more than these. -/
theorem engineOps_run (tag chk : Nat) (k : Cmd) : ∀ c, c ∈ engineOps tag chk k →
    ∃ f : OpFn, (∀ s, exec c.2.1 s = runDev s (runOp tag [c.1] chk f)) ∧ ∀ d m e, Drawing k d (m + c.2.2) e → Ends k d m (f k e) := by
  simp only [engineOps, List.forall_mem_cons]
  exact ⟨⟨opGeneratePair, fun _ => rfl, fun _ _ _ => opGeneratePair_ends⟩,
    ⟨opPublicExport, fun _ => rfl, fun _ _ _ => opPublicExport_ends⟩,
    ⟨opEcdsaSign, fun _ => rfl, fun _ _ _ => opEcdsaSign_ends⟩,
    ⟨opEcdsaVerify, fun _ => rfl, fun _ _ _ => opEcdsaVerify_ends⟩,
    ⟨opEddsaSign, fun _ => rfl, fun _ _ _ => opEddsaSign_ends⟩,
    ⟨opEddsaVerify, fun _ => rfl, fun _ _ _ => opEddsaVerify_ends⟩,
    ⟨opEcdh, fun _ => rfl, fun _ _ _ => opEcdh_ends⟩,
    ⟨opRsaPrivate, fun _ => rfl, fun _ _ _ => opRsaPrivate_ends⟩,
    ⟨opRsaPublic, fun _ => rfl, fun _ _ _ => opRsaPublic_ends⟩,
    ⟨opEncap, fun _ => rfl, fun _ _ _ => opEncap_ends⟩,
    ⟨opDecap, fun _ => rfl, fun _ _ _ => opDecap_ends⟩,
    ⟨opMldsaSign, fun _ => rfl, fun _ _ _ => opMldsaSign_ends⟩,
    ⟨opMldsaVerify, fun _ => rfl, fun _ _ _ => opMldsaVerify_ends⟩,
    ⟨opSlhSign, fun _ => rfl, fun _ _ _ => opSlhSign_ends⟩,
    ⟨opSlhVerify, fun _ => rfl, fun _ _ _ => opSlhVerify_ends⟩,
    ⟨opHbsVerify, fun _ => rfl, fun _ _ _ => opHbsVerify_ends⟩,
    ⟨opImageVerify, fun _ => rfl, fun _ _ _ => opImageVerify_ends⟩,
    List.forall_mem_nil _⟩

/-- None of them is RANDOM_BYTES. -/
theorem engineOps_opcode (tag chk : Nat) (k : Cmd) : ∀ c, c ∈ engineOps tag chk k → c.1 ≠ 0x0501 := by
  simp [engineOps]

/-- What the end of an operation leaves alone where it has drawn random values too. -/
theorem same_endedDrawn {a b : Dev} {ent : EntSt} {units : SMap Unit'} (h : OnlyEnded { a with ent := ent, units := units } b) {p : Part}
    (hp : p ∉ [Part.cmd, .units, .regs, .shadow, .ent] ++ evParts) : p.same a b := by
  rw [h]
  clear h
  cases p <;> simp_all [Part.same, evParts]

/-- Settles O25: a lane or cluster draws nothing, of the runs of an engine only what they drew remains, and the end of the command takes its
unit out of service. -/
theorem checkUnitMismatch : Obligations.CheckUnitMismatch := by
  refine ⟨fun s d tag chk i k c b twice unit lane listed stands => ?_,
    fun s d tag chk i k c b twice unit low high listed stands ready => ?_⟩
  · obtain ⟨f, run⟩ := laneOps_run tag chk c listed
    obtain ⟨only, held, out, serve⟩ := mismatch_runs (f := f) stands unit (by omega) twice (runChecked_laneMismatch stands unit lane twice) rfl
    refine completes_runDev b (run s) rfl ?_ (fun p hp => same_onlyEnded only hp) ⟨held, out, serve⟩
    rw [only]
    exact b.2
  · have plain := engineOps_opcode tag chk k c listed
    obtain ⟨f, run, ends⟩ := engineOps_run tag chk k c listed
    obtain ⟨e, ran, drew⟩ := runChecked_engineMismatch stands plain low high twice ready (ends d)
    obtain ⟨only, held, out, serve⟩ := mismatch_runs (f := f) stands unit high twice ran drew
    rw [drew] at only
    refine completes_runDev b (run s) rfl ?_ (fun p hp => same_endedDrawn only hp) ⟨held, out, serve⟩
    rw [only]
    exact b.2

end Sys2Proof.Proofs
end

section
/-! A job that nothing delays: its data are read, its policy check passes, its keys are there, and its operation runs (R197, R198, R224). -/

open Sys2Proof Sys2Proof.Machine

namespace Sys2Proof.Proofs

theorem unitOf_modUnit (i j : Nat) (f : Unit' → Unit') (d : Dev) : unitOf (modUnit i f d) j = if j = i then f (unitOf d i) else unitOf d j :=
  smapGet_set unitReset d.units i j _

theorem unitOf_modUnit_same (i : Nat) (f : Unit' → Unit') (d : Dev) : unitOf (modUnit i f d) i = f (unitOf d i) :=
  (unitOf_modUnit i i f d).trans (if_pos rfl)

theorem unitOf_modUnit_other {i j : Nat} (h : j ≠ i) (f : Unit' → Unit') (d : Dev) : unitOf (modUnit i f d) j = unitOf d j :=
  (unitOf_modUnit i j f d).trans (if_neg h)

theorem unitOf_units {a b : Dev} (h : b.units = a.units) (i : Nat) : unitOf b i = unitOf a i := by
  unfold unitOf
  rw [h]

/-! ## Key material that is there -/

/-- Resident keys are not loaded again (R141). -/
theorem loadKeys_there {hs : List T1Hit} {ns : List Nat} {d : Dev} (there : ∀ n, n ∈ ns → (residentOf d n).isSome = true) :
    loadKeys hs ns d = (none, d) := by
  unfold loadKeys
  induction ns with
  | nil => rfl
  | cons n ns ih =>
    rw [List.forall_mem_cons] at there
    rw [List.foldl_cons, if_pos there.1]
    exact ih there.2

theorem keysThere_of {ns : List Nat} {d : Dev} (there : ∀ n, n ∈ ns → (residentOf d n).isSome = true) : keysThere d ns = true :=
  List.all_eq_true.mpr there

/-- Without a damaged slot nothing is out of order. -/
theorem slotsBad_none (ns : List Nat) (d : Dev) : slotsBad [] ns d = [] :=
  List.filter_eq_nil_iff.mpr fun _ _ => Bool.false_ne_true

/-- A sound key fetch of resident keys counts its hits (R141, R163). -/
theorem fetchSlots_sound {ns : List Nat} {d : Dev} (there : ∀ n, n ∈ ns → (residentOf d n).isSome = true) (up : d.mpe.halting = false) :
    fetchSlots keySound ns d = (none, wrapFld d pgKS3 Reg.KS_STAT_HIT_HIT ns.length) := by
  unfold fetchSlots
  rw [show keySound.slots = [] from rfl, slotsBad_none]
  simp [loadKeys, keysThere_of there, up]

/-- Where no restore is running nothing is loaded on demand (R148). -/
theorem demandLoad_restored {d : Dev} (calm : restoring d = false) (dmg : VaultDamage) (n : Nat) : demandLoad dmg n d = d := by
  unfold demandLoad needsDemand
  rw [calm]
  rfl

/-! ## A job on its way -/

/-- A job whose policy check has passed and whose keys have been fetched. -/
def jobKeyed (c : Cmd) : Cmd := { c with stage := .run, keyed := true }

/-- The block once the check has passed, and once the keys have been fetched too. -/
def jobPassed (i : Nat) (c : Cmd) (d : Dev) : Dev := setJob i { c with stage := .run, keyed := c.counted.isEmpty } d
def jobFetched (i : Nat) (c : Cmd) (d : Dev) : Dev :=
  if c.counted.isEmpty then jobPassed i c d
  else setJob i (jobKeyed c) (wrapFld (jobPassed i c d) pgKS3 Reg.KS_STAT_HIT_HIT c.counted.length)

section
variable {i chk : Nat} {c c2 : Cmd} {d d3 d6 : Dev} {f : OpFn} {r : Result}

/-- What a job reads goes into its areas; it has come to nothing by that. -/
theorem jobRead_kept {t : Option Nat} {e : Dev} {c0 : Cmd} (h : jobRead i c d = (.ok c0, t, e)) : c0.stage = c.stage ∧ c0.result = c.result := by
  unfold jobRead at h
  extract_lets at h
  split at h
  split at h
  · cases h
  split at h
  split at h
  · cases h
  split at h
  split at h
  · cases h
  split at h
  split at h
  · cases h
  split at h
  split at h
  · cases h
  extract_lets at h
  split at h
  · cases h
  · rw [← Except.ok.inj (Prod.mk.inj h).1]
    exact ⟨rfl, rfl⟩

theorem jobPolicy_passes (calm : restoring d = false) (passes : policyRun [] c d = .pass c2 d3) :
    jobPolicy i keySound c d = (some { c2 with stage := .run, keyed := c2.counted.isEmpty }, jobPassed i c2 d3) := by
  unfold jobPolicy
  simp only [demandLoad_restored calm, ite_self, show keySound.t1 = [] from rfl, passes]
  rfl

theorem jobKeys_there (undone : c2.result = none) (there : ∀ n, n ∈ c2.counted → (residentOf d3 n).isSome = true)
    (up : d3.mpe.halting = false) :
    jobKeys i keySound { c2 with stage := .run, keyed := c2.counted.isEmpty } (jobPassed i c2 d3)
      = (some (jobKeyed c2), jobFetched i c2 d3) := by
  have unfinished : c2.result.isSome = false := by
    rw [undone]
    rfl
  have here : ∀ n, n ∈ c2.counted → (residentOf (jobPassed i c2 d3) n).isSome = true := there
  have upHere : (jobPassed i c2 d3).mpe.halting = false := up
  have stands : (unitOf (wrapFld (jobPassed i c2 d3) pgKS3 Reg.KS_STAT_HIT_HIT c2.counted.length) i).job
      = some { c2 with stage := .run, keyed := c2.counted.isEmpty } :=
    congrArg (·.job) (unitOf_modUnit_same i (fun u => { u with job := some { c2 with stage := .run, keyed := c2.counted.isEmpty } }) d3)
  have upAfter : (wrapFld (jobPassed i c2 d3) pgKS3 Reg.KS_STAT_HIT_HIT c2.counted.length).mpe.halting = false := up
  have after : keysThere (wrapFld (jobPassed i c2 d3) pgKS3 Reg.KS_STAT_HIT_HIT c2.counted.length) c2.counted = true := keysThere_of there
  unfold jobKeys jobFetched
  by_cases none' : c2.counted.isEmpty = true
  · simp only [none', if_true]
    rfl
  · simp only [none', Bool.false_eq_true, if_false, keysThere_of here, Bool.not_true, Bool.and_false, loadKeys_there here,
      if_true, fetchSlots_sound here upHere, stands, unfinished, upAfter, Bool.or_self, after]
    have tag : ∀ t : Option Nat, tagMax t (tagMax none none) = t := fun t => by cases t <;> rfl
    rw [tag]
    rfl

/-- The operation of such a job runs, and its result is kept for the fence (R197). -/
theorem jobRun_done (few : chk < 2) (op : jobOp c2.desc.opcode = some f)
    (ran : runChecked i chk f (jobKeyed c2) d = .done r d6) :
    jobRun i chk (jobKeyed c2) d = unitCount i (jobKeyed c2) chk r (jobHold i (jobKeyed c2) r d6) := by
  unfold jobRun
  rw [show jobOp (jobKeyed c2).desc.opcode = some f from op]
  dsimp only
  rw [ran]
  exact if_neg (by omega)

/-- A job that waits for nothing. -/
theorem jobTry_runs (job : (unitOf d i).job = some c) (fresh : c.stage = .fetched ∧ c.result = none) (free : (unitOf d i).cur = none)
    (serves : quarterServes d (unitQuarter i) = true) (calm : restoring d = false) (passes : policyRun [] c d = .pass c2 d3)
    (undone : c2.result = none) (there : ∀ n, n ∈ c2.counted → (residentOf d3 n).isSome = true) (up : d3.mpe.halting = false)
    (few : chk < 2) (op : jobOp c2.desc.opcode = some f) (ran : runChecked i chk f (jobKeyed c2) (jobFetched i c2 d3) = .done r d6) :
    jobTry i chk keySound d = unitCount i (jobKeyed c2) chk r (jobHold i (jobKeyed c2) r d6) := by
  obtain ⟨stage, result⟩ := fresh
  unfold jobTry
  rw [job]
  simp only [result, free, serves, Option.isSome_none, Bool.not_true, Bool.or_self, Bool.false_eq_true, if_false, stage, reduceCtorEq,
    jobPolicy_passes calm passes, jobKeys_there undone there up]
  exact jobRun_done few op ran

end

end Sys2Proof.Proofs
end

section
/-! GO at the job port of a lane, a cluster or an engine (R197-R199, R224). -/

open Sys2Proof Sys2Proof.Machine

namespace Sys2Proof.Proofs

/-! ## Acceptance -/

/-- The block once the port has accepted a job: it is busy with a job of no ROM keys. -/
def jobAccepted (i : Nat) (d : Dev) : Dev :=
  modUnit i (fun u => { u with jobRom := false })
    (setFld (setFld d (unitPage i) Reg.SYM_JOB_STAT_BUSY 1) (unitPage i) Reg.SYM_JOB_STAT_DONE 0)

theorem jobAccepted_key (i : Nat) (d : Dev) : (jobAccepted i d).key = d.key := by
  unfold jobAccepted modUnit
  rfl

theorem jobAccepted_shadow (i : Nat) (d : Dev) : (jobAccepted i d).shadow = d.shadow := by
  unfold jobAccepted modUnit
  rfl

theorem unitOf_jobAccepted (i : Nat) (d : Dev) : unitOf (jobAccepted i d) i = { unitOf d i with jobRom := false } :=
  unitOf_modUnit_same i _ (setFld (setFld d (unitPage i) Reg.SYM_JOB_STAT_BUSY 1) (unitPage i) Reg.SYM_JOB_STAT_DONE 0)

/-- A job whose descriptor is in form and whose data can be read goes on to its policy check (R88, R198). -/
theorem jobTake_reads {a : Access} {i chk : Nat} {err : KeyErr} {c c0 : Cmd} {d e : Dev} {t : Option Nat}
    (form : jobFault i false c.desc = none) (read : jobRead i c (jobAccepted i d) = (.ok c0, t, e)) :
    jobTake a i false chk err c d = jobTry i chk err (setJob i { c0 with epoch := t } e) := by
  unfold jobAccepted at read
  unfold jobTake
  simp only [Bool.false_and, Bool.false_eq_true, if_false, form, read]

section
variable {a : Access} {i val chk : Nat} {d d1 e1 : Dev} {b : Bytes} {tg : Option Nat}

/-- A port takes a job whose descriptor it can read from secure memory (R198). -/
theorem jobGo_takes (judged : d1 = (judge a (unitPage i) 0x05C val d).d)
    (took : (judge a (unitPage i) 0x05C val d).took Reg.SYM_JOB_CTL_GO = true) (go : bit val 31 = true)
    (mode : d1.sys.mode ≠ .holdup ∧ stopped d1.sys.mode = false) (idle : (unitOf d1 i).job = none) (sound : (unitOf d1 i).oos = false)
    (drain : (hdrOf d1 (unitPage i)).drain = false) (enable : (hdrOf d1 (unitPage i)).enable = true)
    (secure : secureRange d1 (fldPair d1 (unitPage i) Reg.SYM_JOB_LO_ADDR_LO Reg.SYM_JOB_HI_ADDR_HI) 64 = true)
    (fetch : jobFetch i 0 (fldPair d1 (unitPage i) Reg.SYM_JOB_LO_ADDR_LO Reg.SYM_JOB_HI_ADDR_HI) 64 none d1 = (.ok b, tg, e1)) :
    jobGo a i val chk keySound d = jobTake (seenAs a) i (fldB e1 (unitPage i) Reg.SYM_JOB_CTL_ROMKEY) chk keySound
      { freshCmd 0 (fld e1 (unitPage i) Reg.SYM_JOB_CTL_INSTANCE) 0 0 (2, 2) b with
        unit := some i, quarter := unitQuarter i, epoch := tg } e1 := by
  obtain ⟨held, runs⟩ := mode
  unfold jobGo
  simp only [show Reg.SYM_JOB_CTL_GO.off = 0x05C from rfl, ← judged, took, go, held, runs, idle, sound, drain, enable, secure, fetch,
    Bool.and_self, Bool.not_true, decide_false, Bool.or_self, Option.isSome_none, Bool.false_eq_true, if_false]

/-- The page of a unit is none of those that the verification of memory writes. -/
theorem unitPage_calm (hi : i < 28) : unitPage i % 0x1000 ∉ [pgMPE, pgMPE1] :=
  (by decide : ∀ i < 28, unitPage i % 0x1000 ∉ [pgMPE, pgMPE1]) i hi

/-- A job without ROM keys whose descriptor is in form and whose data can be read goes on to its policy check (R88, R198). -/
theorem jobGo_reads {c c0 : Cmd} {e2 : Dev} {tg2 : Option Nat} (hi : i < 28)
    (taken : jobGo a i val chk keySound d = jobTake (seenAs a) i (fldB e1 (unitPage i) Reg.SYM_JOB_CTL_ROMKEY) chk keySound
      { freshCmd 0 (fld e1 (unitPage i) Reg.SYM_JOB_CTL_INSTANCE) 0 0 (2, 2) b with
        unit := some i, quarter := unitQuarter i, epoch := tg } e1)
    (pages : pagesBut [pgMPE, pgMPE1] d1 e1) (noRom : fldB d1 (unitPage i) Reg.SYM_JOB_CTL_ROMKEY = false)
    (hc : c = { freshCmd 0 (fld d1 (unitPage i) Reg.SYM_JOB_CTL_INSTANCE) 0 0 (2, 2) b with
      unit := some i, quarter := unitQuarter i, epoch := tg })
    (form : jobFault i false c.desc = none) (read : jobRead i c (jobAccepted i e1) = (.ok c0, tg2, e2)) :
    jobGo a i val chk keySound d = jobTry i chk keySound (setJob i { c0 with epoch := tg2 } e2)
      ∧ c0.stage = .fetched ∧ c0.result = none := by
  have noRom' : fldB e1 (unitPage i) Reg.SYM_JOB_CTL_ROMKEY = false := by
    unfold fldB at noRom ⊢
    rw [fld_pagesBut pages (unitPage_calm hi) (by decide)]
    exact noRom
  have stands := jobRead_kept read
  refine ⟨?_, ?_⟩
  · rw [taken, noRom', fld_pagesBut pages (unitPage_calm hi) (by decide), ← hc, jobTake_reads form read]
  · rw [hc] at stands
    exact stands

end

/-! ## What a job changes on its way -/

/-- At most the registers, the units, the key store, the officer block, the generators and the state of protected memory have changed. -/
def OnlyJob (a b : Dev) : Prop :=
  b = { a with regs := b.regs, shadow := b.shadow, units := b.units, key := b.key, ofc := b.ofc, ent := b.ent, mpe := b.mpe }

/-- So it is, and no other unit and no register but of these pages has changed. -/
def JobPath (i : Nat) (pages : List Nat) (a b : Dev) : Prop :=
  OnlyJob a b ∧ (∀ j, j ≠ i → unitOf b j = unitOf a j) ∧ pagesBut pages a b

section
variable {i : Nat} {l m : List Nat} {a b c : Dev}

theorem jobPath_trans (h : JobPath i l a b) (g : JobPath i m b c) : JobPath i (l ++ m) a c := by
  obtain ⟨only, others, pages⟩ := h
  obtain ⟨only', others', pages'⟩ := g
  refine ⟨?_, fun j hj => (others' j hj).trans (others j hj), pagesBut_trans (pagesBut_mono (fun _ => List.mem_append_left m) pages)
    (pagesBut_mono (fun _ => List.mem_append_right l) pages')⟩
  unfold OnlyJob at *
  rw [only] at only'
  exact only'

theorem jobPath_setJob (k : Cmd) (d : Dev) : JobPath i [] d (setJob i k d) :=
  ⟨rfl, fun _ hj => unitOf_modUnit_other hj _ d, pagesBut_regs rfl⟩

theorem jobPath_setFld {p : Nat} {f : Fld} (page : p < 0x1000) (low : f.off < 0x1000) (v : Nat) (d : Dev) :
    JobPath i [p] d (setFld d p f v) :=
  ⟨rfl, fun _ _ => rfl, pagesBut_setFld List.mem_cons_self page low v d⟩

theorem jobPath_mono (sub : ∀ p, p ∈ l → p ∈ m) (h : JobPath i l a b) : JobPath i m a b := by
  obtain ⟨only, others, pages⟩ := h
  exact ⟨only, others, pagesBut_mono sub pages⟩

theorem jobPath_accepted (hi : i < 28) (d : Dev) : JobPath i [unitPage i] d (jobAccepted i d) := by
  have busy := jobPath_setFld (i := i) (f := Reg.SYM_JOB_STAT_BUSY) (unitPage_lt hi) (by decide) 1 d
  have done := jobPath_setFld (i := i) (f := Reg.SYM_JOB_STAT_DONE) (unitPage_lt hi) (by decide) 0 (setFld d (unitPage i) Reg.SYM_JOB_STAT_BUSY 1)
  have both := jobPath_trans busy done
  unfold jobAccepted
  generalize setFld (setFld d _ _ _) _ _ _ = e at both
  have unit : JobPath i [] e (modUnit i (fun u => { u with jobRom := false }) e) :=
    ⟨rfl, fun _ hj => unitOf_modUnit_other hj _ e, pagesBut_regs rfl⟩
  exact jobPath_mono (by simp) (jobPath_trans both unit)

theorem jobPath_fetched (k : Cmd) (d : Dev) : JobPath i [pgKS3] d (jobFetched i k d) := by
  have passed : JobPath i [] d (jobPassed i k d) := jobPath_setJob _ d
  unfold jobFetched
  split
  · exact jobPath_trans (m := [pgKS3]) passed ⟨rfl, fun _ _ => rfl, fun _ _ _ _ => rfl⟩
  · have hits : JobPath i [pgKS3] (jobPassed i k d) (wrapFld (jobPassed i k d) pgKS3 Reg.KS_STAT_HIT_HIT k.counted.length) :=
      ⟨rfl, fun _ _ => rfl, pagesBut_setFld List.mem_cons_self (by decide) (by decide) _ _⟩
    exact jobPath_trans passed (jobPath_trans hits (jobPath_setJob _ _))

/-- The fetch of keys counts its hits and is noted with the job (R163). -/
theorem jobFetched_only (k : Cmd) (d : Dev) :
    jobFetched i k d = { d with regs := (jobFetched i k d).regs, units := (jobFetched i k d).units } := by
  unfold jobFetched
  split <;> rfl

/-- The count at the end of an operation touches registers and their shadows (R35, R197). -/
theorem unitCount_only (hi : i < 28) (k : Cmd) (chk : Nat) (r : Result) (d : Dev) :
    unitCount i k chk r d = { d with regs := (unitCount i k chk r d).regs, shadow := (unitCount i k chk r d).shadow } := by
  obtain ⟨e, counts, only, -⟩ := unitCount_spec hi k chk r d
  rw [counts]
  have boundary := jobBoundary_only e (unitPage i)
  generalize jobBoundary (unitPage i) e = x at boundary
  rw [boundary, only]

theorem jobPath_unitCount (hi : i < 28) (k : Cmd) (chk : Nat) (r : Result) (d : Dev) :
    JobPath i [unitPage i, pgHASH (unitQuarter i)] d (unitCount i k chk r d) := by
  obtain ⟨e, counts, counted⟩ := unitCount_spec hi k chk r d
  have pages := pagesBut_counted hi counted
  obtain ⟨only, -⟩ := counted
  rw [counts]
  refine ⟨?_, fun j _ => unitOf_units ?_ j, pagesBut_trans pages (pagesBut_mono (by simp) (pagesBut_jobBoundary _ e))⟩
  · rw [← counts]
    unfold OnlyJob
    rw [unitCount_only hi]
  · rw [← counts, unitCount_only hi]

end

/-! ## The port's flags -/

theorem jobAccepted_busy (i : Nat) (d : Dev) : fld (jobAccepted i d) (unitPage i) Reg.SYM_JOB_STAT_BUSY = 1 :=
  (fld_setFld_beside (setFld d (unitPage i) Reg.SYM_JOB_STAT_BUSY 1) (unitPage i) (f := Reg.SYM_JOB_STAT_BUSY)
    (g := Reg.SYM_JOB_STAT_DONE) 0 ⟨by decide, by decide⟩ ⟨by decide, by decide⟩ rfl (.inl (by decide))).trans
    (fld_setFld_same d (unitPage i) Reg.SYM_JOB_STAT_BUSY 1 ⟨by decide, by decide⟩)

theorem jobAccepted_done (i : Nat) (d : Dev) : fld (jobAccepted i d) (unitPage i) Reg.SYM_JOB_STAT_DONE = 0 :=
  fld_setFld_same _ (unitPage i) Reg.SYM_JOB_STAT_DONE 0 ⟨by decide, by decide⟩

/-- On a page without shadows the end of an operation leaves the register of the port's flags alone (R35, R197). -/
theorem regGet_unitCount_flags {i : Nat} (hi : i < 28) (k : Cmd) (chk : Nat) (r : Result) {d : Dev}
    (still : ∀ x, x ∈ d.shadow → keyOnPage (unitPage i) x.1 = false) :
    regGet (unitCount i k chk r d) (unitPage i) 0x060 = regGet d (unitPage i) 0x060 := by
  obtain ⟨e, counts, only, regs⟩ := unitCount_spec hi k chk r d
  have shadows : e.shadow = d.shadow := by rw [only]
  have beside : (unitPage i, 0x060 / 4) ∉ (countRegs i).map fun x => (x.1, x.2 / 4) := by simp [countRegs]
  rw [counts, regGet_jobBoundary_still (unitPage_lt hi) (by decide) (by rw [shadows]; exact still)]
  exact regs _ _ beside (by decide)

/-- So the port is busy after it, where the way from its acceptance has not touched its page. -/
theorem holds_unitCount_flags {i : Nat} (hi : i < 28) (k : Cmd) (chk : Nat) (r : Result) {l : List Nat} {e h : Dev}
    (beside : pagesBut l (jobAccepted i e) h) (other : unitPage i % 0x1000 ∉ l)
    (still : ∀ x, x ∈ h.shadow → keyOnPage (unitPage i) x.1 = false) :
    holds (unitCount i k chk r h) (unitPage i) [(Reg.SYM_JOB_STAT_BUSY, 1), (Reg.SYM_JOB_STAT_DONE, 0)] := by
  have flags : regGet (unitCount i k chk r h) (unitPage i) 0x060 = regGet (jobAccepted i e) (unitPage i) 0x060 :=
    (regGet_unitCount_flags hi k chk r still).trans (beside _ _ other (by decide))
  have busy := jobAccepted_busy i e
  have done := jobAccepted_done i e
  exact List.forall_mem_cons.mpr ⟨(congrArg (bits · 1 1) flags).trans busy,
    List.forall_mem_cons.mpr ⟨(congrArg (bits · 0 0) flags).trans done, List.forall_mem_nil _⟩⟩

/-! ## The commands -/

/-- The three commands bring GO to the ports of the lanes, the clusters and the engines. -/
theorem completes_jobGo {s : State} {d e : Dev} {a : Access} {i val chk : Nat} {but : List Part} {q : Dev → Prop} (b : Begins s d)
    (w : AwakeFor d a) (hi : i < 28) (go : jobGo a i val chk keySound d = e) (ok : e.mpe.failing = none)
    (keep : ∀ p : Part, p ∉ but → p.same d e) (hq : q e) :
    Completes (if i < 16 then .symJobGo a i val chk else if i < 20 then .hashJobGo a (i - 16) val chk else .pkeJobGo a (i - 20) val chk)
      s but q := by
  split
  · rename_i lane
    exact completes_runAcc b w (Eq.refl (execSymJobGo a i val chk s)) ((if_pos lane).trans go) ok keep hq
  split
  · have port : 16 + (i - 16) = i := by omega
    refine completes_runAcc b w (Eq.refl (execHashJobGo a (i - 16) val chk s)) ?_ ok keep hq
    exact (if_pos (by omega)).trans (by rw [port]; exact go)
  · have port : 20 + (i - 20) = i := by omega
    refine completes_runAcc b w (Eq.refl (execPkeJobGo a (i - 20) val chk s)) ?_ ok keep hq
    exact (if_pos (by omega)).trans (by rw [port]; exact go)

theorem same_onlyJob {a b : Dev} (h : OnlyJob a b) {p : Part} (hp : p ∉ [Part.regs, .shadow, .units, .key, .ofc, .ent, .mpe]) :
    p.same a b := by
  rw [h]
  clear h
  cases p <;> simp_all [Part.same]

/-- Settles O31: the job goes through its stages without a wait, the port is busy from its acceptance on, and what each stage changes is
composed. -/
theorem jobPortCommands : Obligations.JobPortCommands := by
  intro s d d1 e1 d2 e2 d3 dk d4 d6 a i val chk b tg tg2 c c0 c' c2 cr f r begins awake hi few judged took go only1 pages1 mode runs idle free
    sound drain enable secure fetch only2 pages2 noRom hc form hd2 read only3 pages3 hc' serves calm passes only4 pages4 undone there up
    fails hdk hcr hd4 op ran only6 others6
  have accepted : d2 = jobAccepted i e1 := hd2
  have keyed : cr = jobKeyed c2 := hcr
  have fetched : d4 = jobFetched i c2 d3 := by
    rw [hd4, hdk, hcr]
    rfl
  clear hd2 hcr hd4 hdk
  have calmPages : unitPage i % 0x1000 ∉ [pgMPE, pgMPE1] ++ ([pgMPE, pgMPE1] ++ ([pgKS3] ++ [])) :=
    (by decide : ∀ i < 28, unitPage i % 0x1000 ∉ [pgMPE, pgMPE1] ++ ([pgMPE, pgMPE1] ++ ([pgKS3] ++ []))) i hi
  -- What every stage changes.
  have path1 : JobPath i [unitPage i] d d1 := ⟨by unfold OnlyJob; rw [only1], fun j _ => unitOf_units (by rw [only1]) j, pages1⟩
  have path2 : JobPath i [pgMPE, pgMPE1] d1 e1 := ⟨by unfold OnlyJob; rw [only2], fun j _ => unitOf_units (by rw [only2]) j, pages2⟩
  have path3 : JobPath i [unitPage i] e1 d2 := accepted ▸ jobPath_accepted hi e1
  have path4 : JobPath i [pgMPE, pgMPE1] d2 e2 := ⟨by unfold OnlyJob; rw [only3], fun j _ => unitOf_units (by rw [only3]) j, pages3⟩
  have path5 : JobPath i [pgMPE, pgMPE1] e2 d3 := by
    refine ⟨by unfold OnlyJob; rw [only4]; rfl, fun j hj => ?_, pages4⟩
    rw [unitOf_units (b := d3) (a := setJob i c' e2) (by rw [only4])]
    exact unitOf_modUnit_other hj _ e2
  have path6 : JobPath i [pgKS3] d3 d4 := fetched ▸ jobPath_fetched c2 d3
  have path7 : JobPath i [] d4 (jobHold i cr r d6) :=
    jobPath_trans (l := []) (m := []) (b := d6) ⟨by unfold OnlyJob; rw [only6], others6, pagesBut_regs (by rw [only6])⟩ (jobPath_setJob _ d6)
  have path8 := jobPath_unitCount hi cr chk r (jobHold i cr r d6)
  obtain ⟨only, others, pages⟩ := jobPath_trans path1 (jobPath_trans path2 (jobPath_trans path3 (jobPath_trans path4 (jobPath_trans path5
    (jobPath_trans path6 (jobPath_trans path7 path8))))))
  -- The block when the policy check begins, and when the result is held.
  obtain ⟨begun, -, -⟩ := jobPath_trans path1 (jobPath_trans path2 (jobPath_trans path3 path4))
  have keys : e2.key = d.key := by
    rw [only3, accepted]
    refine (jobAccepted_key i e1).trans ?_
    rw [only2, only1]
  have unit : unitOf e2 i = { unitOf d i with jobRom := false } := by
    rw [unitOf_units (b := e2) (a := d2) (by rw [only3]), accepted, unitOf_jobAccepted, unitOf_units (b := e1) (a := d) (by rw [only2, only1])]
  have held : jobHold i cr r d6
      = { d3 with regs := d6.regs, units := (jobHold i cr r d6).units, ent := d6.ent, key := d6.key } := by
    show { d6 with units := (jobHold i cr r d6).units } = _
    rw [only6, fetched, jobFetched_only]
  have go : jobGo a i val chk keySound d = unitCount i cr chk r (jobHold i cr r d6) := by
    have taken := jobGo_takes (i := i) (chk := chk) (tg := tg) judged took go ⟨by rw [only1]; exact mode, by rw [only1]; exact runs⟩
      (by rw [unitOf_units (a := d) (by rw [only1])]; exact idle) (by rw [unitOf_units (a := d) (by rw [only1])]; exact sound)
      drain enable secure fetch
    obtain ⟨tries, fresh⟩ := jobGo_reads hi taken pages2 noRom hc form (accepted ▸ read)
    rw [tries, ← hc', keyed]
    refine jobTry_runs (c := c') ?_ (hc' ▸ fresh) ?_ ?_ ?_ passes undone there up few op (keyed ▸ fetched ▸ ran)
    · exact congrArg (·.job) (unitOf_modUnit_same i _ e2)
    · refine (congrArg (·.cur) (unitOf_modUnit_same i (fun u => { u with job := some c' }) e2)).trans ?_
      rw [unit]
      exact free
    · show quarterServes e2 (unitQuarter i) = true
      rw [begun]
      exact serves
    · unfold restoring at calm ⊢
      rw [show (setJob i c' e2).key = d.key from keys]
      exact calm
  have ended := unitCount_only hi cr chk r (jobHold i cr r d6)
  have verified : (unitCount i cr chk r (jobHold i cr r d6)).mpe = d3.mpe := by rw [ended, held]
  refine completes_jobGo begins awake hi go (verified ▸ fails) (fun p hp => same_onlyJob only hp)
    ⟨?_, others, pagesBut_mono (by simp) pages, by rw [ended, held], by rw [ended, held], by rw [ended, held], verified, fun still => ?_⟩
  · rw [unitOf_units (a := jobHold i cr r d6) (by rw [ended])]
    exact congrArg (·.job) (unitOf_modUnit_same i _ d6)
  · have shadows : (jobHold i cr r d6).shadow = d1.shadow := by
      rw [held]
      show d3.shadow = _
      rw [only4]
      show e2.shadow = _
      rw [only3, accepted]
      refine (jobAccepted_shadow i e1).trans ?_
      rw [only2]
    obtain ⟨-, -, beside⟩ := jobPath_trans path4 (jobPath_trans path5 (jobPath_trans path6 path7))
    exact holds_unitCount_flags hi cr chk r (accepted ▸ beside) calmPages (by rw [shadows]; exact still)

end Sys2Proof.Proofs
end
